-- ==== Sys2Proof/Word.lean ====
section
/-! DEFINITION. The word types of the block and their plainest arithmetic. -/

namespace Sys2Proof

/-- One byte. -/
abbrev Byte := BitVec 8

/-- A 32-bit register word (R15). -/
abbrev W32 := BitVec 32

/-- A 64-bit record, unit-header or packet word. -/
abbrev W64 := BitVec 64

end Sys2Proof
end

