-- ==== Sys2Proof/Syntax.lean ====
section
/-! DEFINITION. The commands of the block: one constructor of `Instr` per row of the table of operations
and events, with the operands the row needs. Indices of ports, channels, blocks and the like are `Fin`, so
an index outside the part cannot be written. -/

namespace Sys2Proof

/-- A concentrator port, equally the front-end fitted on it (R7, R9). -/
abbrev PortIx := Fin 1024
/-- A front-end channel (R7). -/
abbrev ChIx := Fin 512
/-- A front-end block of 16 channels (R8). -/
abbrev BlkIx := Fin 32
/-- A region of either part (R8). -/
abbrev RgnIx := Fin 4
/-- A Ryunt port of a front-end: 0 primary, 1 secondary (R166). -/
abbrev FaceIx := Fin 2
/-- A leading-edge interpolator: 0 = A, 1 = B (R77). -/
abbrev IntIx := Fin 2
/-- An ADC slice of a block (R111 and what follows it). -/
abbrev SliceIx := Fin 5
/-- A port block of a concentrator region (R8). -/
abbrev PbIx := Fin 16
/-- An uplink group (R299). -/
abbrev GrpIx := Fin 4
/-- A queue of a group (R309). -/
abbrev QIx := Fin 5
/-- A mover channel (R338). -/
abbrev MvIx := Fin 16
/-- A core slot and its pin (R283). -/
abbrev CoreIx := Fin 64
/-- A service port (R30). -/
abbrev SvcIx := Fin 2
/-- A master of the service fabric (R347). -/
abbrev MasterIx := Fin 20
/-- A guard input or permit (R415, R416). -/
abbrev GuardIx := Fin 4
/-- A concentrator temperature sensor (R406). -/
abbrev SensIx := Fin 32

/-- An instant inside a frame, in units of 2^-16 ns since the frame's tick (R10, R21). -/
abbrev Inst := Nat

/-- A crossing of a discriminator: its instant, and the preamplifier output just after it in µV from the channel's baseline,
positive for a positive-going pulse (R64, R67). -/
structure Crossing where
  at_ : Inst
  level : Int
  deriving DecidableEq, Repr

/-- A falling crossing with the raw code that the trailing-edge interpolator yields for it (R78, R90). -/
structure TeCrossing where
  at_ : Inst
  level : Int
  raw : BitVec 12
  deriving DecidableEq, Repr

/-- Instants between which something is measured. -/
structure Span where
  from_ : Inst
  to_ : Inst
  deriving DecidableEq, Repr

/-- Which of the two stored entries of a bin table that a lookup reads, E[s] and E[s+1], fails its parity check (R88). -/
structure EntryParity where
  lo : Bool
  hi : Bool
  deriving DecidableEq, Repr

/-- The validation discriminator as an edge saw it, at instant `at_`: the spans in which it was high, 2^-16 ns after the leading
edge (R68, R75). -/
structure ValLook where
  at_ : Inst
  spans : List (Nat × Nat)
  deriving DecidableEq, Repr

/-- The largest positive-going and negative-going excursions of the preamplifier output that a hold saw since it was last cleared, in
µV from the baseline (R108). -/
structure Excursion where
  up : Int
  down : Int
  deriving DecidableEq, Repr

/-- A front-end whose slices have calibrated together, with the offset (1/1,000 LSB) and gain (10^-6) each of them measured: block,
slice, offset, gain (R115, R120). -/
structure WakeCal where
  fe : PortIx
  results : List (BlkIx × SliceIx × Int × Int)
  deriving DecidableEq, Repr

/-- The upsets of front-end `p` since the scrubber's last visit (R160, R161): bits of single copies of its configuration words, as word, bit and
copy, and disagreements that the voters of the control state found. The table has no row for an upset (log entry 88). -/
structure Upsets where
  copies : List (BitVec 12 × Fin 32 × Fin 3)
  logic : Nat
  deriving DecidableEq, Repr

/-- What the Reed–Solomon decoder of a codeword reports (R168, R169). -/
inductive CwStatus where
  | ok
  | corrected
  | uncorrectable
  deriving DecidableEq, Repr

/-- What a SEC-DED read reports (R144). -/
inductive EccStatus where
  | ok
  | single
  | double
  deriving DecidableEq, Repr

/-- How the 72 bytes that a stack returns for a Firn line differ from those that were written: place, and the bits that are wrong there (R232,
R233). -/
structure RawLine where
  errs : List (Fin 72 × Byte)
  deriving DecidableEq, Repr

/-- The spill point of a region, with the ports whose unit reads uncorrectable from the commit buffer (R223, R229). -/
structure SpillRead where
  rgn : RgnIx
  bad : List PortIx
  deriving DecidableEq, Repr

/-- A write of `FRR_XT_SEL`, and whether a word of the extent table was read with a single-bit error (R235, R262). -/
structure XtWrite where
  val : W32
  corrected : Bool
  deriving DecidableEq, Repr

/-- Who reads a two-word quantity: a master of the control space, or a port of a front-end (R16, R137). -/
inductive Reader where
  | conc (m : MasterIx) (addr : W32)
  | fe (p : PortIx) (q : FaceIx) (word : BitVec 16)
  deriving DecidableEq, Repr

/-- What an Announce carries that the model uses (R23, R24, R30, R32); the dataset is compared field by field. -/
structure Announce where
  ethernet : Bool
  domain : Byte
  dataset : List Nat
  utcOffset : BitVec 16
  arb : Bool
  logInterval : Int
  deriving DecidableEq, Repr

/-- The header of a PTP message: the transport it came by, the domain, the sequence number and logMessageInterval, which is the
logMinDelayReqInterval in a Delay_Resp (R30). -/
structure PtpHdr where
  ethernet : Bool
  domain : Byte
  seq : BitVec 16
  logInterval : Int
  deriving DecidableEq, Repr

/-- One request packet of the downlink (R178). -/
structure ReqPkt where
  typ : BitVec 4
  tid : Byte
  addr : BitVec 16
  data : W32
  deriving DecidableEq, Repr

/-- One response packet of the uplink (R178). -/
structure RespPkt where
  typ : BitVec 4
  code : BitVec 4
  tid : Byte
  addr : BitVec 16
  data : W32
  deriving DecidableEq, Repr

/-- Characters as they arrive on a lane, as ten-bit groups with the first bit of the line as bit 9, and the running disparity before them
(R167). -/
structure CodeRun where
  plus : Bool
  chars : List (BitVec 10)
  deriving DecidableEq, Repr

/-- A SYNC ordered set as the front-end receives it (R170–R172, R190): whether its comma lies at the expected place, downlink characters 0 to
10 (fast-command slot 0, the eight stream characters, and slots 1 and 2 between them), the code errors in idle characters since the last
set, and the offset of the front-end's own tick from the comma, 2^-16 ns. -/
structure SyncSet where
  placed : Bool
  line : CodeRun
  idleErrs : Nat
  ph : Int
  deriving DecidableEq, Repr

/-- The last two characters of an echo set: echo status and CRC-8 (R173). -/
structure EchoTail where
  status : BitVec 10
  crc : BitVec 10
  deriving DecidableEq, Repr

/-- An inbound Floe frame (R302, R305, R319): the codewords it overlaps, in order, how many of them an earlier frame overlaps too, and where
its header begins in the data of the first, in 8-byte units. -/
structure FloeIn where
  cws : List CodeRun
  old : Nat
  off : Fin 16
  deriving DecidableEq, Repr

/-- A start set as a receive lane finds it (R302, R304): its eight characters, and how many characters after the one before it; none where
it is missing. -/
structure RxSet where
  line : CodeRun
  gap : Option Nat
  deriving DecidableEq, Repr

/-- Wrong bits of one stored byte of a queue word as the scheduler reads it (R311): the word of the packet, 0 for its descriptor and i + 1 for
payload word i, and which of its 15 bytes. -/
structure WordErr where
  word : Nat
  at_ : Fin 15
  wrong : Byte
  deriving DecidableEq, Repr

/-- What a heartbeat says (R387). -/
structure Heartbeat where
  role : BitVec 3
  claim : Byte
  cid : Byte
  healthy : Bool
  seq : W32
  imgVer : W32
  seedFmt : BitVec 16
  seedMin : BitVec 16
  fc : BitVec 59
  sec : BitVec 48
  qual : BitVec 2
  ns : BitVec 30
  frac : BitVec 16
  health : W32
  deriving DecidableEq, Repr

/-- The parts of a seed state's body (R393). The final push of a planned switch names F_s (R398); the spec does not place
it, and it stands here (log entry 60). -/
structure SeedBody where
  fs : Option (BitVec 59)
  cid : Byte
  config : List (W32 × W32)
  feWords : List (PortIx × BitVec 12 × W32)
  calib : List W64
  timStat : W32
  step : Int
  initSet : Bool
  runRegs : List (W32 × W32)
  mode : BitVec 2
  arm : Bool
  monPeriod : BitVec 16
  deriving DecidableEq, Repr

/-- The header of a seed-state segment (R393). -/
structure SeedHdr where
  fmt : BitVec 16
  push : W32
  fc : BitVec 59
  bodyLen : BitVec 21
  idx : BitVec 11
  count : BitVec 11
  bodyCrc : W32
  segCrc : W32
  deriving DecidableEq, Repr

/-- The header of an update frame (R375). `up`: it arrived from the upstream neighbour. -/
structure UpdFrame where
  up : Bool
  reason : BitVec 4
  count : Byte
  len : BitVec 16
  block : W32
  image : W32
  crc : W32
  deriving DecidableEq, Repr

/-- What the boot ROM reads in a firmware slot at start-up (R357, R359): its bytes, and the verdict of the Ed25519 check under the Lemrum
public key, which the spec does not give. -/
structure ImgRead where
  bytes : List Byte
  sigOk : Bool
  deriving DecidableEq, Repr

/-- The fields of an image header (R356). -/
structure ImgHdr where
  magic : W32
  imgVer : W32
  len : W32
  minRev : Byte
  ryunt : BitVec 3
  floe : BitVec 2
  seedFmt : BitVec 16
  seedMin : BitVec 16
  twinMin : W32
  deriving DecidableEq, Repr

/-- One record of an Abapo container (R360). -/
inductive CfgRec where
  | ident (cid : Byte)
  | reg (addr : W32) (val : W32)
  | fereg (first last : PortIx) (word : W32) (val : W32)
  | guard (salt : List Byte) (verifier : List Byte) (pairs : List (W32 × W32))
  | note (text : List Byte)
  | other (typ : BitVec 16)
  deriving DecidableEq, Repr

/-- One Abapo container: its header's fields, the verdicts of its check codes, and its records (R360). -/
structure Container where
  version : BitVec 16
  gen : W64
  crcOk : Bool
  hcrcOk : Bool
  recs : List CfgRec
  deriving DecidableEq, Repr

/-- A fast-command slot as it arrives (R176, R177): its place in the frame, the running disparity before it, and its group. -/
structure FcChar where
  slot : Fin 250
  plus : Bool
  grp : BitVec 10
  deriving DecidableEq, Repr

/-- The three states of a guard input loop (R415). -/
inductive LoopState where
  | opened
  | closed
  | fault
  deriving DecidableEq, Repr

/-- The currents of a guard loop at its source and at its return, in µA, and for how many microseconds they have stood (R415). -/
structure LoopRead where
  source : Nat
  back : Nat
  heldUs : Nat
  deriving DecidableEq, Repr

/-- The read-back of a permit output in mV (R416). -/
structure OutRead where
  n : GuardIx
  mv : Nat
  deriving DecidableEq, Repr

/-- Who issues a Firn line read (R254). -/
inductive Requester where
  | core (k : CoreIx)
  | stream
  | mover (c : MvIx)
  | scrub
  deriving DecidableEq, Repr

/-- The commands of the block, in the order of the table. -/
inductive Instr where
  -- time
  | frameTick
  | registerWrite (m : MasterIx) (addr : W32) (v : W32)
  | lowWordRead (r : Reader)
  | timNowRead (m : MasterIx)
  | ptpSync (v : SvcIx) (oneStep : Bool) (h : PtpHdr) (t1 t2 corr : Int)
  | ptpFollowUp (v : SvcIx) (h : PtpHdr) (t1 corr : Int)
  | ptpDelayResp (v : SvcIx) (h : PtpHdr) (t4 corr : Int)
  | ptpAnnounce (v : SvcIx) (a : Announce)
  | ptpManagement (v : SvcIx)
  | delayReqSend (v : SvcIx) (t3 : Int)
  | announceTimeout (v : SvcIx)
  | ptpLoss
  | delayRespTimeout (v : SvcIx)
  | pendingStepDrop
  | stepApply (m : MasterIx) (v : W32)
  | stepWithdraw (m : MasterIx) (v : W32)
  | stepValWrite (m : MasterIx) (hi : W32)
  | wholeFrameStep
  | refLoss
  | refReturn (dphase : Int)
  | ppsEdge (err : Int) (ptpSec : BitVec 48)
  | ppsMiss
  | echoAverage (p : PortIx)
  | suspect (p : PortIx)
  | suspectClear (p : PortIx)
  | tinEdge (i : Fin 8) (t : Inst) (rising : Bool) (width : Nat)
  | toutArm (j : Fin 2) (m : MasterIx) (v : W32)
  | toutDisarm (j : Fin 2) (m : MasterIx) (v : W32)
  | toutFire (j : Fin 2)
  | toutPulseEnd (j : Fin 2)
  -- the front-end channel
  | leadingEdge (p : PortIx) (c : ChIx) (t : Crossing) (raw : BitVec 12)
  | fineTimeReady (p : PortIx) (c : ChIx) (parityErr : EntryParity)
  | validationDecided (p : PortIx) (c : ChIx) (high : ValLook)
  | trailingEdge (p : PortIx) (c : ChIx) (t : TeCrossing)
  | totSaturation (p : PortIx) (c : ChIx)
  | busyEnd (p : PortIx) (c : ChIx)
  | hitFinal (p : PortIx) (c : ChIx) (t : Inst)
  | calibrationPair (p : PortIx) (c : ChIx) (x : IntIx) (t : Inst) (c1 c2 : BitVec 12)
  | interpolatorReady (p : PortIx) (c : ChIx) (x : IntIx)
  | scheduledSwap (p : PortIx) (c : ChIx)
  | pairStale (p : PortIx) (c : ChIx) (x : IntIx)
  | channelEnable (p : PortIx) (q : FaceIx) (c : ChIx) (t : Inst) (v : W32)
  | channelDisable (p : PortIx) (q : FaceIx) (c : ChIx) (t : Inst) (v : W32)
  | cdSample (p : PortIx) (b : BlkIx) (stop : Nat) (raw : BitVec 12)
  | cdTableCompute (p : PortIx) (b : BlkIx)
  | cdTableInstall (p : PortIx) (b : BlkIx)
  | binTableReset (p : PortIx) (c : ChIx) (x : IntIx)
  | teCalPair (p : PortIx) (c : ChIx) (t : Span) (c1 c2 : BitVec 12)
  | gateChange (p : PortIx)
  | gatePinEdge (p : PortIx) (t : Inst) (level : Bool)
  | gateModeWrite (p : PortIx) (q : FaceIx) (t : Inst) (v : W32)
  | testPulseInject (p : PortIx)
  | chcntDataRead (p : PortIx) (q : FaceIx)
  -- amplitude and monitoring
  | adcConversionStart (p : PortIx) (c : ChIx) (t : Inst)
  | adcResult (p : PortIx) (b : BlkIx) (k : SliceIx) (peak8 peak1 : Excursion) (parityErr : Bool)
  | spareRotation (p : PortIx) (b : BlkIx)
  | sliceCalibrationDone (p : PortIx) (b : BlkIx) (offsetMilliLsb gainMicro : Int)
  | sliceReturn (p : PortIx) (q : FaceIx) (b : BlkIx) (v : W32)
  | wakeSliceCalibration (p : WakeCal)
  | monScanTimer (p : PortIx)
  | monInjectionDelay (p : PortIx)
  | monConversion (p : PortIx) (code : Int) (commonMode10mV : Nat)
  | monCommit (p : PortIx) (t : Inst)
  | complianceTrip (p : PortIx) (k : Fin 4)
  | monStale (p : PortIx) (k : Fin 4)
  -- front-end blocks, regions and the hit stream
  | regionSweep (p : PortIx)
  | mergerChoice (p : PortIx) (k : Fin 464) (ecc : EccStatus) (queueBad : Bool)
  | cutoff (p : PortIx)
  | recordTake (p : PortIx) (k : Fin 464)
  | scrubVisit (p : PortIx) (corrected : Upsets)
  | nop (p : PortIx) (q : FaceIx) (slot : Fin 250)
  | gateOpen (p : PortIx) (q : FaceIx) (slot : Fin 250)
  | gateClose (p : PortIx) (q : FaceIx) (slot : Fin 250)
  | pulse (p : PortIx) (q : FaceIx) (slot : Fin 250)
  | scan (p : PortIx) (q : FaceIx) (slot : Fin 250)
  | flush (p : PortIx) (q : FaceIx) (slot : Fin 250)
  | flushEffect (p : PortIx)
  | standby (p : PortIx) (q : FaceIx) (slot : Fin 250)
  | wake (p : PortIx) (q : FaceIx) (slot : Fin 250)
  | fePowerChange (p : PortIx)
  | standbyPowerDown (p : PortIx)
  | wakingEnd (p : PortIx)
  | claim (p : PortIx) (q : FaceIx) (slot : Fin 250)
  | fastCommandInvalid (p : PortIx) (q : FaceIx) (why : FcChar)
  -- the Ryunt link
  | syncSet (p : PortIx) (q : FaceIx) (x : SyncSet)
  | linkResetEnd (p : PortIx) (q : FaceIx)
  | requestCodeword (p : PortIx) (q : FaceIx) (t : Inst) (run : CodeRun) (other : Option (Inst × CodeRun))
  | readRequest (p : PortIx) (q : FaceIx) (r : ReqPkt)
  | writeRequest (p : PortIx) (q : FaceIx) (r : ReqPkt)
  | postedWriteRequest (p : PortIx) (q : FaceIx) (r : ReqPkt)
  | responseReceived (p : PortIx) (r : CodeRun)
  | requestTimeout (p : PortIx) (tid : Byte)
  | proxyAccess (m : MasterIx) (addr : W32) (write : Option W32)
  | recordCodeword (p : PortIx) (i : Fin 29) (marker : BitVec 10) (plus : Bool) (t : Inst) (chars : List (BitVec 10))
  | slotStartSet (p : PortIx) (placed plus : Bool) (chars : List (BitVec 10)) (arr : Int)
  | echoSet (p : PortIx) (plus : Bool) (mark fis phLo phHi : BitVec 10) (rest : EchoTail)
  | uplinkSignalDetect (p : PortIx)
  | lockAchieved (p : PortIx)
  | alignAchieved (p : PortIx)
  | negotiateDone (p : PortIx) (chipId : W32) (sup : BitVec 3)
  | phaseVerify (p : PortIx)
  | configCrcCheck (p : PortIx) (dirty : Bool) (crc : W32)
  | linkStateTimeout (p : PortIx)
  | equaliserStep (p : PortIx) (fe : Bool) (errors : Nat)
  | uplinkSignalLoss (p : PortIx)
  | downlinkClockLoss (p : PortIx) (q : FaceIx)
  | retry (p : PortIx) (m : MasterIx) (v : W32)
  | test (p : PortIx) (m : MasterIx) (v : W32)
  | prbsStart (p : PortIx) (q : FaceIx) (v : W32)
  | testEnd (p : PortIx) (feErrs portErrs : List Nat)
  | prbsInject (p : PortIx) (q : FaceIx) (v : W32)
  | plInject (p : PortIx) (m : MasterIx) (v : W32)
  | goldenCheck (p : PortIx) (dirty : Bool) (crc : W32)
  -- concentrator ingest and Hazel coding
  | lateLimit
  | alignedRelease (reads : List (PortIx × Fin 464 × EccStatus))
  | mergeUpset (r : RgnIx) (b : PbIx)
  | sumsPresented (linkBad : List RgnIx)
  | hazelCode (p : PortIx) (codedLen : Nat)
  | hazelVerify (p : PortIx) (payload : List Byte)
  | unitHandover (r : RgnIx) (ecc : EccStatus)
  | spillPoint (r : SpillRead)
  -- the Firn store
  | sliceClaim
  | frameCommit
  | indexSnapshot (m : MasterIx) (v : W32) (ecc : EccStatus)
  | lineWrite (r : RgnIx)
  | writeRetry (r : RgnIx)
  | storeWriteFailure (r : RgnIx)
  | allocatorInspect (r : RgnIx)
  | pinClear (k : CoreIx)
  | lineRead (w : Requester) (addr : W64)
  | lineReadReturn (r : RgnIx) (raw : RawLine)
  | firnScrubStep (r : RgnIx) (raw : RawLine) (rewritten : Bool)
  | extentSnapshot (m : MasterIx) (r : RgnIx) (v : XtWrite)
  | extentRetire (m : MasterIx) (r : RgnIx) (v : XtWrite)
  | extentReturn (m : MasterIx) (r : RgnIx) (v : XtWrite)
  | firnInitDone
  -- triggers and cores
  | triggerArmWrite (m : MasterIx) (v : W32)
  | triggerArm
  | triggerDisarmWrite (m : MasterIx) (v : W32)
  | triggerDisarm
  | decisionPoint (corrected : Nat) (badHistories : List (Fin 16)) (badRequests : List (Fin 64))
  | primQueued
  | requestArrival (lane : Option (Fin 8)) (body : List Byte)
  | coreReadoutStart (k : CoreIx)
  | coreComplete (k : CoreIx)
  | coreAbort (m : MasterIx) (v : W32)
  | streamSliceRead
  -- Floe uplinks and queues
  | laneFault (l : Fin 32)
  | restore (m : MasterIx) (v : W32) (healthy : List (Fin 32))
  | laneFrame (l : Fin 32)
  | rxSignalDetect (j : Fin 8)
  | rxAligned (j : Fin 8)
  | rxLockTimeout (j : Fin 8)
  | rxSignalLoss (j : Fin 8)
  | rxStartSet (j : Fin 8) (good : RxSet)
  | inboundFloeFrame (j : Fin 8) (f : FloeIn)
  | hello (j : Fin 8) (versions : BitVec 2)
  | mailboxPacket (j : Fin 8) (payload : List Byte)
  | beSilent (g : GrpIx)
  | schedulerChoice (g : GrpIx) (corrected badWord : List WordErr)
  | uqPush (g : GrpIx) (q : QIx) (m : MasterIx) (lo : W32)
  | queueFlush (g : GrpIx) (q : QIx) (m : MasterIx) (v : W32)
  | queueStale (g : GrpIx) (q : QIx)
  | uiqPop (m : MasterIx)
  -- service processor, mailbox and mover
  | lockstepMismatch
  | fetchTrap (addr : BitVec 20)
  | kick (m : MasterIx) (v : W32)
  | watchdogExpiry
  | cramScrub (ecc : EccStatus) (rewritten : Bool)
  | mailboxTake
  | readCmd (lane : Fin 8) (tag : BitVec 16) (body : List Byte)
  | writeCmd (lane : Fin 8) (tag : BitVec 16) (body : List Byte)
  | runStatus (lane : Fin 8) (tag : BitVec 16) (body : List Byte)
  | startCmd (lane : Fin 8) (tag : BitVec 16) (body : List Byte)
  | stopCmd (lane : Fin 8) (tag : BitVec 16) (body : List Byte)
  | thresh (lane : Fin 8) (tag : BitVec 16) (body : List Byte)
  | phase (lane : Fin 8) (tag : BitVec 16) (body : List Byte)
  | ampl (lane : Fin 8) (tag : BitVec 16) (body : List Byte)
  | calAbort (lane : Fin 8) (tag : BitVec 16) (body : List Byte)
  | histStart (lane : Fin 8) (tag : BitVec 16) (body : List Byte)
  | histStop (lane : Fin 8) (tag : BitVec 16) (body : List Byte)
  | period (lane : Fin 8) (tag : BitVec 16) (body : List Byte)
  | timeStatus (lane : Fin 8) (tag : BitVec 16) (body : List Byte)
  | acceptStep (lane : Fin 8) (tag : BitVec 16) (body : List Byte) (droppedNow : Bool)
  | withdrawStep (lane : Fin 8) (tag : BitVec 16) (body : List Byte)
  | guardStatus (lane : Fin 8) (tag : BitVec 16) (body : List Byte)
  | guardSet (lane : Fin 8) (tag : BitVec 16) (body : List Byte) (pwOk : Bool)
  | setpw (lane : Fin 8) (tag : BitVec 16) (body : List Byte) (pwOk : Bool) (salt verifier : List Byte)
  | guardReset (lane : Fin 8) (tag : BitVec 16) (body : List Byte) (pwOk : Bool) (outs : List OutRead)
  | updStatus (lane : Fin 8) (tag : BitVec 16) (body : List Byte)
  | imgBegin (lane : Fin 8) (tag : BitVec 16) (body : List Byte)
  | imgData (lane : Fin 8) (tag : BitVec 16) (body : List Byte)
  | imgEnd (lane : Fin 8) (tag : BitVec 16) (body : List Byte)
  | activate (lane : Fin 8) (tag : BitVec 16) (body : List Byte)
  | rollback (lane : Fin 8) (tag : BitVec 16) (body : List Byte)
  | cfgBegin (lane : Fin 8) (tag : BitVec 16) (body : List Byte)
  | cfgData (lane : Fin 8) (tag : BitVec 16) (body : List Byte)
  | cfgCommit (lane : Fin 8) (tag : BitVec 16) (body : List Byte)
  | twinStatus (lane : Fin 8) (tag : BitVec 16) (body : List Byte)
  | switchCmd (lane : Fin 8) (tag : BitVec 16) (body : List Byte)
  | pushCmd (lane : Fin 8) (tag : BitVec 16) (body : List Byte)
  | logRead (lane : Fin 8) (tag : BitVec 16) (body : List Byte)
  | moverStart (c : MvIx) (m : MasterIx) (v : W32)
  | moverFetch (c : MvIx) (ecc : EccStatus)
  | moverBurstDone (c : MvIx) (bytes : Nat)
  | moverWriteback (c : MvIx)
  | mvTimer (n : Fin 8)
  | moverKick (c : MvIx) (m : MasterIx) (v : W32)
  | moverAbort (c : MvIx) (m : MasterIx) (v : W32)
  | clear (m : MasterIx) (v : W32)
  | paceTimeout (c : MvIx)
  | qemptyTimeout (c : MvIx)
  | busError (c : MvIx) (addr : W64) (lastBeat : Bool)
  | powerDownWaitExpiry (c : MvIx)
  | thaw (m : MasterIx) (v : W32)
  | bkThawTimer
  -- start-up, resets, power states, update
  | powerOnReset (cause : BitVec 3) (straps : BitVec 2) (img0 img1 : Option ImgRead)
  | resetN (lowNs : Nat) (acts : Bool) (straps : BitVec 2) (img0 img1 : Option ImgRead)
  | configApply (c0 c1 : List Byte)
  | ready (ms : Nat)
  | soft (m : MasterIx) (v : W32)
  | serviceSoftReset
  | region (m : MasterIx) (v : W32)
  | regionReset (r : RgnIx)
  | regionRecovered (r : RgnIx)
  | powerRequestRun (m : MasterIx) (v : W32)
  | powerRequestIdle (m : MasterIx) (v : W32)
  | powerRequestHibernate (m : MasterIx) (v : W32)
  | transitionComplete
  | feSoftResetWrite (p : PortIx) (q : FaceIx) (v : W32)
  | feSoftReset (p : PortIx)
  | nvmProgramDone
  | moraineEntry (code : BitVec 16) (addr val old : W32) (actor : Byte) (pwd : Bool) (tag : BitVec 16) (d5 d6 : W64)
  | offer (f : UpdFrame) (h : List Byte)
  | updData (f : UpdFrame) (data : List Byte)
  | ack (f : UpdFrame)
  | done (f : UpdFrame)
  | updFrameActivate (f : UpdFrame)
  | confirmed (f : UpdFrame)
  | halt (f : UpdFrame)
  | neighbourAbsent (up : Bool)
  | resendTimeout (up : Bool)
  | imageVerified (sigOk : Bool)
  | trialConfirm
  | trialTimeout
  -- twin operation
  | heartbeatSend
  | heartbeatReceived (h : List Byte) (arrival : Int)
  | partnerLoss
  | startingTimeout
  | dualResolve
  | takeoverAbandon
  | takeoverStoreStart
  | takeoverComplete
  | seedPush
  | seedSegment (h : SeedHdr) (data : List Byte) (b : SeedBody)
  | seedTimeout
  | standbyPatternTest (raw : List RawLine)
  | healthReport
  | switchStopStoring
  | drainEnd
  -- protection
  | temperatureSample (fe : Option PortIx) (s : SensIx) (quarterC : Option Int) (selfTestOk : Bool)
  | throttleEnd (fe : Option PortIx) (s : SensIx)
  | shutdownTrip (s : SensIx)
  | nvmProgramCut
  | thermalRestart
  | feShutdownTrip (p : PortIx)
  | feThermalRestart (p : PortIx)
  | supplyWarning (fe : Option PortIx)
  | dipEnd (fe : Option PortIx) (us : Nat)
  | supplyReset (fe : Option PortIx)
  | powerGood (fe : Option PortIx)
  | guardInputChange (n : GuardIx) (r : LoopRead)
  | guardEvaluation (gv24 : Nat) (selfOk : Bool) (reads : List OutRead)
  | heldClear (n : GuardIx)
  | heldTimeout (n : GuardIx)
  | offPulse (n : GuardIx) (fall rise : Option Nat)
  | outputCurrentLimit (n : GuardIx)
  | grst (holdMs : Nat) (outs : List OutRead)
  | strapChange (straps : BitVec 2)
  | inputProven (n : GuardIx)
  | latchRead (copiesAgree : Bool) (outs : List OutRead)
  | passwordByte (m : MasterIx) (v : W32)
  | check (m : MasterIx) (v : W32)
  | windowTimeout
  | close (m : MasterIx) (v : W32)
  | checkUnblock
  -- steps added at the end of the table
  | downlinkClockLock (p : PortIx) (q : FaceIx) (step : BitVec 3)
  | writeAcknowledged (r : RgnIx)
  | longCommandComplete (results : List (BitVec 27 × BitVec 16 × W32 × W32))
  | monSummary
  | logPageEraseDone
  | grstActive
  deriving DecidableEq, Repr

end Sys2Proof
end

