-- ==== Sys2Proof/Decode.lean ====
section
/-! DEFINITION. Decoding of table words. No row of the table of commands gives any bits, so no word spells a command. -/

namespace Sys2Proof

/-- The command that a word spells by the bits of the table: no row gives bits, so there is none. -/
def decodeTableWord (_nbits _w : Nat) : Option Instr := none

end Sys2Proof
end

