-- ==== Sys2Proof/Config.lean ====
section
/-! DEFINITION. What the spec leaves open: opaque constants, so that nothing can be proved of the values they take.
Each is named in a row of the assumption log. -/

namespace Sys2Proof.Config

/-- A free value for each count of `State.free`: a value the spec calls unknown or does not state (log entry 4). -/
opaque freeValue : Nat → Nat

/-- The interpolator armed first when a channel becomes armed with both ready; R77 does not say which (log entry 5). -/
opaque firstInterp : Nat → Bool

/-- Words of a MON notice for a cause; the spec gives no layout (log entry 6). -/
opaque monNoticeWords : Nat → List W64

/-- Words of the MON packet that carries the copy of an extended monitor record of a port; the spec gives no layout (log entry 6). -/
opaque monRecordWords : Nat → W64 → List W64

/-- Body of the RUN STATUS reply; the spec names its content and gives no layout (log entry 7). -/
opaque runStatusBody : Nat → Nat → List Byte

/-- Body of the TIME STATUS reply; the spec gives no layout (log entry 7). -/
opaque timeStatusBody : Nat → Int → List Byte

/-- Words of the MON summary packet; the spec gives no layout (log entry 6). -/
opaque monSummaryWords : Nat → List W64

/-- The linearised reading of a die-temperature input from its mean code (R122, R124); the spec gives no curve (log entry 8). -/
opaque dieLinear : Int → Nat

/-- The body bytes of the seed-state push of a sequence number: R393 gives the parts of the body and not how bytes spell them (log entry
62). -/
opaque seedBytes : Nat → List Byte

/-- Whether a thermometer conversion's linear fixed-point mean of a half is rounded up (log entry 9). -/
opaque halfUp : Nat → Bool

/-- A word of the payload of the image a slot held before anything was sent to it: slot, word (log entry 10). -/
opaque factoryWord : Nat → Nat → W64

/-- How far a channel's validation window differs from its nominal length, in 2^-16 ns; R75 allows ±1 ns, and a value outside that is cut
to it (log entry 84). -/
opaque valSkew : Nat → Int

/-- The place in its nanosecond, in 1/16 ns, of a trailing edge whose channel has measured no trailing-edge pair yet (log entry 85). -/
opaque teFirst : Nat → Nat

/-- What a pattern generator starts from: order of its polynomial, generator; the spec does not state it (log entry 90). -/
opaque prbsSeed : Nat → Nat → Nat

/-- The fixed internal latencies by which a port sends its downlink early beside the flight, for a front-end revision, 2^-16 ns (R48; log
entry 91). -/
opaque lead : Nat → Int

/-- L_port and L_fe, the fixed internal latencies of a port and of a front-end of a revision, 2^-16 ns (R190; log entry 91). -/
opaque lPort : Int
opaque lFe : Nat → Int

end Sys2Proof.Config
end

