-- ==== Sys2Proof/Machine/Fld.lean ====
section
/-! DEFINITION. What a register field is: where it lies, how wide it is, its reset value and its access code
(R18, R20), and how a register address is found in the register map. -/

namespace Sys2Proof.Machine

/-- Access codes of R18; `lkSp` is `RW` except that the SP's own windows are `LK` (R350); `guarded` is `RW` under R426. -/
inductive Acc where
  | rw | ro | wo | w1c | rc | rws | w1cs | lk | lkSp | guarded
  deriving DecidableEq, Repr

/-- One register field. A field of a two-word register lies at the low word's address (R16). -/
structure Fld where
  reg : Nat
  lo : Nat
  width : Nat
  reset : Nat
  acc : Acc
  deriving DecidableEq, Repr

/-- A family of equal registers: `n1` rows `s1` apart of `n2` registers `s2` apart. -/
structure RegClass where
  base : Nat
  n1 : Nat
  s1 : Nat
  n2 : Nat
  s2 : Nat
  flds : Nat → List Fld

/-- The index of address `a` in a family, if it is one of its registers. -/
def RegClass.index (c : RegClass) (a : Nat) : Option Nat :=
  let d := a - c.base
  let i1 := if c.s1 = 0 then 0 else d / c.s1
  let r := d - i1 * c.s1
  let i2 := if c.s2 = 0 then 0 else r / c.s2
  if c.base ≤ a ∧ i1 < c.n1 ∧ i2 < c.n2 ∧ c.base + i1 * c.s1 + i2 * c.s2 = a then some (i1 * c.n2 + i2) else none

/-- The fields of the register at address `a`; none where no register is mapped there. -/
def fieldsAt : List RegClass → Nat → Option (List Fld)
  | [], _ => none
  | c :: cs, a => match c.index a with
    | some i => some (c.flds i)
    | none => fieldsAt cs a

/-- Reset value of `MON_WIN.LO` for input `i` (R138). -/
def monWinLoReset (i : Nat) : Nat := if i ≤ 3 ∨ (20 ≤ i ∧ i ≤ 24) then 0x8000 else 0

/-- Reset value of `MON_WIN.HI` for input `i` (R138). -/
def monWinHiReset (i : Nat) : Nat := if i ≤ 3 ∨ (20 ≤ i ∧ i ≤ 24) then 0x7FFF else 0xFFFF

/-- Capacity of queue `q` of a group in 64-bit words (R309). -/
def queueCapacity (q : Nat) : Nat :=
  if q = 1 then 1024 else if q = 4 then 131072 else 8192

/-- Reset value of `UQ_CFG.WM`: half the capacity in words (R322); `i` is 5 × group + queue. -/
def uqWmReset (i : Nat) : Nat := queueCapacity (i % 5) / 2

/-- Reset warning level of sensor `s` (R406). -/
def tsWarnReset (s : Nat) : Nat := if s < 4 then 100 else if s < 20 then 90 else if s < 24 then 75 else 100

/-- Reset throttle level of sensor `s` (R406). -/
def tsThrotReset (s : Nat) : Nat := if s < 4 then 108 else if s < 20 then 100 else if s < 24 then 85 else 110

/-- The reset windows of R350 as (base, limit, en, r, w, x, space); `i` is 8 × master + window. -/
def fwlWindow (i : Nat) : List Nat :=
  if i = 0 then [0, 0x7FFFF, 1, 1, 0, 1, 0]
  else if i = 1 then [0x80000, 0x1FFFFFF, 1, 1, 1, 0, 0]
  else if i = 2 then [0, 0x7FFFF, 1, 1, 1, 0, 1]
  else if i = 3 then [0, 32, 1, 1, 1, 0, 2]
  else if i = 136 then [0x100000, 0x7FFFFF, 1, 1, 1, 0, 0]
  else if i = 137 then [0x900000, 0xAFFFFF, 1, 1, 0, 0, 0]
  else if i = 138 then [0x1000000, 0x1FFFFFF, 1, 1, 1, 0, 0]
  else if i = 139 then [0x80000, 0xFFFFF, 1, 1, 0, 0, 0]
  else if i = 144 then [0xC0000, 0xDFFFF, 1, 1, 1, 0, 0]
  else if i = 152 then [0xE0000, 0xFFFFF, 1, 1, 1, 0, 0]
  else [0, 0, 0, 0, 0, 0, 0]

/-- Reset value of item `k` of firewall window `i` (R350). -/
def fwlReset (k i : Nat) : Nat := (fwlWindow i).getD k 0

end Sys2Proof.Machine
end

