-- ==== Sys2Proof/Machine/FeRegs.lean ====
section
/-! DEFINITION. The front-end registers, field by field, from the register tables of the spec: each field's address, place, width,
reset value and access code (R18, R20). The rule named is the one that maps the register. -/

namespace Sys2Proof.Machine

-- 02_channel_timing.md
/-- `CH_CFG.EN`, RW (R107). -/
def CH_CFG_EN (i : Nat) : Fld := ⟨0x100 + 2 * i, 0, 1, 0, .rw⟩
/-- `CH_CFG.POL`, RW (R107). -/
def CH_CFG_POL (i : Nat) : Fld := ⟨0x100 + 2 * i, 1, 1, 0, .rw⟩
/-- `CH_CFG.GAIN`, RW (R107). -/
def CH_CFG_GAIN (i : Nat) : Fld := ⟨0x100 + 2 * i, 2, 2, 1, .rw⟩
/-- `CH_CFG.GATE_EN`, RW (R107). -/
def CH_CFG_GATE_EN (i : Nat) : Fld := ⟨0x100 + 2 * i, 4, 1, 1, .rw⟩
/-- `CH_CFG.VAL_EN`, RW (R107). -/
def CH_CFG_VAL_EN (i : Nat) : Fld := ⟨0x100 + 2 * i, 5, 1, 0, .rw⟩
/-- `CH_CFG.VAL_WIN`, RW (R107). -/
def CH_CFG_VAL_WIN (i : Nat) : Fld := ⟨0x100 + 2 * i, 6, 5, 3, .rw⟩
/-- `CH_CFG.HYST`, RW (R107). -/
def CH_CFG_HYST (i : Nat) : Fld := ⟨0x100 + 2 * i, 11, 4, 2, .rw⟩
/-- `CH_CFG.HOLDOFF`, RW (R107). -/
def CH_CFG_HOLDOFF (i : Nat) : Fld := ⟨0x100 + 2 * i, 15, 8, 0, .rw⟩
/-- `CH_CFG.TP_EN`, RW (R107). -/
def CH_CFG_TP_EN (i : Nat) : Fld := ⟨0x100 + 2 * i, 23, 1, 0, .rw⟩
/-- `CH_CFG.CD_EN`, RW (R107). -/
def CH_CFG_CD_EN (i : Nat) : Fld := ⟨0x100 + 2 * i, 24, 1, 1, .rw⟩
/-- `CH_THR.TRIM`, RW (R107). -/
def CH_THR_TRIM (i : Nat) : Fld := ⟨0x101 + 2 * i, 0, 6, 32, .rw⟩
/-- `CH_THR.VAL`, RW (R107). -/
def CH_THR_VAL (i : Nat) : Fld := ⟨0x101 + 2 * i, 6, 8, 40, .rw⟩
/-- `BLK_THR.DAC`, RW (R107). -/
def BLK_THR_DAC (i : Nat) : Fld := ⟨0x500 + 8 * i, 0, 10, 200, .rw⟩
/-- `BLK_CD.EN`, RW (R107). -/
def BLK_CD_EN (i : Nat) : Fld := ⟨0x501 + 8 * i, 0, 1, 1, .rw⟩
/-- `BLK_CD.LOG`, RW (R107). -/
def BLK_CD_LOG (i : Nat) : Fld := ⟨0x501 + 8 * i, 1, 5, 18, .rw⟩
/-- `BLK_CDSTAT.CH`, RO (R107). -/
def BLK_CDSTAT_CH (i : Nat) : Fld := ⟨0x502 + 8 * i, 0, 4, 0, .ro⟩
/-- `BLK_CDSTAT.PERR`, W1C (R107). -/
def BLK_CDSTAT_PERR (i : Nat) : Fld := ⟨0x502 + 8 * i, 4, 1, 0, .w1c⟩
/-- `BLK_CDSTAT.IFAIL`, W1C (R107). -/
def BLK_CDSTAT_IFAIL (i : Nat) : Fld := ⟨0x502 + 8 * i, 5, 1, 0, .w1c⟩
/-- `BLK_CDSTAT.IFAIL_CH`, RO (R107). -/
def BLK_CDSTAT_IFAIL_CH (i : Nat) : Fld := ⟨0x502 + 8 * i, 6, 4, 0, .ro⟩
/-- `BLK_CDSTAT.PERR_CNT`, RC (R107). -/
def BLK_CDSTAT_PERR_CNT (i : Nat) : Fld := ⟨0x502 + 8 * i, 10, 6, 0, .rc⟩
/-- `BLK_CDSTAT.DONE`, RC (R107). -/
def BLK_CDSTAT_DONE (i : Nat) : Fld := ⟨0x502 + 8 * i, 16, 8, 0, .rc⟩
/-- `BLK_CDSTAT.REJECT`, RC (R107). -/
def BLK_CDSTAT_REJECT (i : Nat) : Fld := ⟨0x502 + 8 * i, 24, 8, 0, .rc⟩
/-- `GATE_CFG.MODE`, RW (R107). -/
def GATE_CFG_MODE : Fld := ⟨0x60, 0, 2, 1, .rw⟩
/-- `GATE_CFG.REC_EN`, RW (R107). -/
def GATE_CFG_REC_EN : Fld := ⟨0x60, 2, 1, 1, .rw⟩
/-- `GATE_STAT.OPEN`, RO (R107). -/
def GATE_STAT_OPEN : Fld := ⟨0x61, 0, 1, 0, .ro⟩
/-- `GATE_STAT.CMD_OPEN`, RO (R107). -/
def GATE_STAT_CMD_OPEN : Fld := ⟨0x61, 1, 1, 0, .ro⟩
/-- `GATE_STAT.PIN_OPEN`, RO (R107). -/
def GATE_STAT_PIN_OPEN : Fld := ⟨0x61, 2, 1, 0, .ro⟩
/-- `GATE_STAT.REDUNDANT`, RC (R107). -/
def GATE_STAT_REDUNDANT : Fld := ⟨0x61, 8, 8, 0, .rc⟩
/-- `GATE_STAT.LOST`, RC (R107). -/
def GATE_STAT_LOST : Fld := ⟨0x61, 16, 8, 0, .rc⟩
/-- `TP_CFG.AMP`, RW (R107). -/
def TP_CFG_AMP : Fld := ⟨0x800, 0, 10, 0, .rw⟩
/-- `TP_CFG.EN`, RW (R107). -/
def TP_CFG_EN : Fld := ⟨0x800, 10, 1, 0, .rw⟩
/-- `TP_PHASE.COARSE`, RW (R107). -/
def TP_PHASE_COARSE : Fld := ⟨0x801, 0, 12, 0, .rw⟩
/-- `TP_PHASE.FINE`, RW (R107). -/
def TP_PHASE_FINE : Fld := ⟨0x801, 12, 9, 0, .rw⟩
/-- `TP_STAT.INJ`, RC (R107). -/
def TP_STAT_INJ : Fld := ⟨0x802, 0, 16, 0, .rc⟩
/-- `TP_STAT.EXTRA`, RC (R107). -/
def TP_STAT_EXTRA : Fld := ⟨0x802, 16, 8, 0, .rc⟩
/-- `TP_STAT.ERR`, W1C (R107). -/
def TP_STAT_ERR : Fld := ⟨0x802, 24, 1, 0, .w1c⟩
/-- `CAL_SEL.CH`, RW (R107). -/
def CAL_SEL_CH : Fld := ⟨0x810, 0, 9, 0, .rw⟩
/-- `CAL_SEL.INT`, RW (R107). -/
def CAL_SEL_INT : Fld := ⟨0x810, 9, 1, 0, .rw⟩
/-- `CAL_SEL.ITEM`, RW (R107). -/
def CAL_SEL_ITEM : Fld := ⟨0x810, 10, 7, 0, .rw⟩
/-- `CAL_DATA.V0`, RO (R107). -/
def CAL_DATA_V0 : Fld := ⟨0x811, 0, 12, 0, .ro⟩
/-- `CAL_DATA.V1`, RO (R107). -/
def CAL_DATA_V1 : Fld := ⟨0x811, 12, 12, 0, .ro⟩
/-- `CAL_DATA.AGE`, RO (R107). -/
def CAL_DATA_AGE : Fld := ⟨0x811, 24, 8, 0, .ro⟩
/-- `CHCNT_SEL.CH`, RW (R107). -/
def CHCNT_SEL_CH : Fld := ⟨0x820, 0, 9, 0, .rw⟩
/-- `CHCNT_SEL.IDX`, RW (R107). -/
def CHCNT_SEL_IDX : Fld := ⟨0x820, 9, 3, 0, .rw⟩
/-- `CHCNT_DATA.VAL`, RC (R107). -/
def CHCNT_DATA_VAL : Fld := ⟨0x821, 0, 16, 0, .rc⟩
-- 03_amplitude_and_monitoring.md
/-- `BLK_ADC.EN`, RW (R138). -/
def BLK_ADC_EN (i : Nat) : Fld := ⟨0x503 + 8 * i, 0, 1, 1, .rw⟩
/-- `BLK_ADC.MODE`, RW (R138). -/
def BLK_ADC_MODE (i : Nat) : Fld := ⟨0x503 + 8 * i, 1, 1, 0, .rw⟩
/-- `BLK_ADC.DLY`, RW (R138). -/
def BLK_ADC_DLY (i : Nat) : Fld := ⟨0x503 + 8 * i, 2, 8, 30, .rw⟩
/-- `BLK_ADCSTAT.SPARE`, RO (R138). -/
def BLK_ADCSTAT_SPARE (i : Nat) : Fld := ⟨0x504 + 8 * i, 0, 3, 0, .ro⟩
/-- `BLK_ADCSTAT.FAIL`, W1C (R138). -/
def BLK_ADCSTAT_FAIL (i : Nat) : Fld := ⟨0x504 + 8 * i, 3, 5, 0, .w1c⟩
/-- `BLK_ADCSTAT.NOSLICE`, RC (R138). -/
def BLK_ADCSTAT_NOSLICE (i : Nat) : Fld := ⟨0x504 + 8 * i, 8, 10, 0, .rc⟩
/-- `BLK_ADCSTAT.CLASH`, RC (R138). -/
def BLK_ADCSTAT_CLASH (i : Nat) : Fld := ⟨0x504 + 8 * i, 18, 10, 0, .rc⟩
/-- `BLK_ADCSTAT.PERR`, RC (R138). -/
def BLK_ADCSTAT_PERR (i : Nat) : Fld := ⟨0x504 + 8 * i, 28, 4, 0, .rc⟩
/-- `MON_CFG.TMR_EN`, RW (R138). -/
def MON_CFG_TMR_EN : Fld := ⟨0x700, 0, 1, 1, .rw⟩
/-- `MON_CFG.CMD_EN`, RW (R138). -/
def MON_CFG_CMD_EN : Fld := ⟨0x700, 1, 1, 1, .rw⟩
/-- `MON_CFG.TP_EN`, RW (R138). -/
def MON_CFG_TP_EN : Fld := ⟨0x700, 2, 1, 0, .rw⟩
/-- `MON_MASK.MASK`, RW (R138). -/
def MON_MASK_MASK : Fld := ⟨0x701, 0, 25, 0x1fff000, .rw⟩
/-- `MON_TIMER.PERIOD`, RW (R138). -/
def MON_TIMER_PERIOD : Fld := ⟨0x702, 0, 10, 100, .rw⟩
/-- `MON_TPDLY.DLY`, RW (R138). -/
def MON_TPDLY_DLY : Fld := ⟨0x703, 0, 10, 0, .rw⟩
/-- `MON_STAT.BUSY`, RO (R138). -/
def MON_STAT_BUSY : Fld := ⟨0x704, 0, 1, 0, .ro⟩
/-- `MON_STAT.INPUT`, RO (R138). -/
def MON_STAT_INPUT : Fld := ⟨0x704, 1, 5, 0, .ro⟩
/-- `MON_STAT.OVERRUN`, RC (R138). -/
def MON_STAT_OVERRUN : Fld := ⟨0x704, 8, 8, 0, .rc⟩
/-- `MON_STAT.CFG_ERR`, W1C (R138). -/
def MON_STAT_CFG_ERR : Fld := ⟨0x704, 16, 1, 0, .w1c⟩
/-- `MON_WSTAT.OUT`, W1C (R138). -/
def MON_WSTAT_OUT : Fld := ⟨0x705, 0, 25, 0, .w1c⟩
/-- `MON_WLIVE.OUT`, RO (R138). -/
def MON_WLIVE_OUT : Fld := ⟨0x706, 0, 25, 0, .ro⟩
/-- `MON_FAULT.OPEN`, W1C (R138). -/
def MON_FAULT_OPEN : Fld := ⟨0x707, 0, 4, 0, .w1c⟩
/-- `MON_FAULT.CM`, W1C (R138). -/
def MON_FAULT_CM : Fld := ⟨0x707, 4, 4, 0, .w1c⟩
/-- `MON_FAULT.RANGE`, W1C (R138). -/
def MON_FAULT_RANGE : Fld := ⟨0x707, 8, 4, 0, .w1c⟩
/-- `MON_FAULT.STALE`, W1C (R138). -/
def MON_FAULT_STALE : Fld := ⟨0x707, 12, 4, 0, .w1c⟩
/-- `MON_FAULT.FLT_CNT`, RC (R138). -/
def MON_FAULT_FLT_CNT : Fld := ⟨0x707, 16, 16, 0, .rc⟩
/-- `MON_TS.FIS`, RO (R138). -/
def MON_TS_FIS : Fld := ⟨0x708, 0, 18, 0, .ro⟩
/-- `MON_TS.SEC`, RO (R138). -/
def MON_TS_SEC : Fld := ⟨0x708, 32, 16, 0, .ro⟩
/-- `MON_SCANS.CNT`, RO (R138). -/
def MON_SCANS_CNT : Fld := ⟨0x70a, 0, 64, 0, .ro⟩
/-- `MON_CMWIN.LO`, RW (R138). -/
def MON_CMWIN_LO : Fld := ⟨0x70c, 0, 8, 20, .rw⟩
/-- `MON_CMWIN.HI`, RW (R138). -/
def MON_CMWIN_HI : Fld := ⟨0x70c, 8, 8, 100, .rw⟩
/-- `MON_RTD_CFG.WIRE`, RW (R138). -/
def MON_RTD_CFG_WIRE (i : Nat) : Fld := ⟨0x710 + i, 0, 1, 0, .rw⟩
/-- `MON_RTD_CFG.EXC`, RW (R138). -/
def MON_RTD_CFG_EXC (i : Nat) : Fld := ⟨0x710 + i, 1, 1, 1, .rw⟩
/-- `MON_RTD_CFG.PROT`, RW (R138). -/
def MON_RTD_CFG_PROT (i : Nat) : Fld := ⟨0x710 + i, 2, 1, 0, .rw⟩
/-- `MON_ICFG.SETTLE`, RW (R138). -/
def MON_ICFG_SETTLE (i : Nat) : Fld := ⟨0x720 + i, 0, 8, 2, .rw⟩
/-- `MON_ICFG.AVG`, RW (R138). -/
def MON_ICFG_AVG (i : Nat) : Fld := ⟨0x720 + i, 8, 3, 0, .rw⟩
/-- `MON_ICFG.WIN_EN`, RW (R138). -/
def MON_ICFG_WIN_EN (i : Nat) : Fld := ⟨0x720 + i, 11, 1, 0, .rw⟩
/-- `MON_ICFG.WHYS`, RW (R138). -/
def MON_ICFG_WHYS (i : Nat) : Fld := ⟨0x720 + i, 16, 8, 16, .rw⟩
/-- `MON_RES.VALUE`, RO (R138). -/
def MON_RES_VALUE (i : Nat) : Fld := ⟨0x740 + i, 0, 16, 0, .ro⟩
/-- `MON_RES.VALID`, RO (R138). -/
def MON_RES_VALID (i : Nat) : Fld := ⟨0x740 + i, 16, 1, 0, .ro⟩
/-- `MON_RES.FRESH`, RC (R138). -/
def MON_RES_FRESH (i : Nat) : Fld := ⟨0x740 + i, 17, 1, 0, .rc⟩
/-- `MON_RES.FAULT`, RO (R138). -/
def MON_RES_FAULT (i : Nat) : Fld := ⟨0x740 + i, 18, 3, 0, .ro⟩
/-- `MON_RES.SEQ`, RO (R138). -/
def MON_RES_SEQ (i : Nat) : Fld := ⟨0x740 + i, 24, 8, 0, .ro⟩
/-- `MON_WIN.LO`, RW (R138). -/
def MON_WIN_LO (i : Nat) : Fld := ⟨0x760 + i, 0, 16, monWinLoReset i, .rw⟩
/-- `MON_WIN.HI`, RW (R138). -/
def MON_WIN_HI (i : Nat) : Fld := ⟨0x760 + i, 16, 16, monWinHiReset i, .rw⟩
-- 04_front_end_dataflow.md
/-- `CHIP_ID.ID`, RO (R165). -/
def CHIP_ID_ID : Fld := ⟨0x0, 0, 32, 0xdf05120c, .ro⟩
/-- `DF_CFG.XMON_EN`, RW (R165). -/
def DF_CFG_XMON_EN : Fld := ⟨0x10, 0, 1, 0, .rw⟩
/-- `DF_STAT.STANDBY`, RO (R165). -/
def DF_STAT_STANDBY : Fld := ⟨0x11, 0, 1, 0, .ro⟩
/-- `DF_STAT.WAKING`, RO (R165). -/
def DF_STAT_WAKING : Fld := ⟨0x11, 1, 1, 0, .ro⟩
/-- `DF_STAT.PWR_REDUNDANT`, RC (R165). -/
def DF_STAT_PWR_REDUNDANT : Fld := ⟨0x11, 8, 8, 0, .rc⟩
/-- `DF_CNT.FILL_EARLY`, RC (R165). -/
def DF_CNT_FILL_EARLY : Fld := ⟨0x12, 0, 16, 0, .rc⟩
/-- `DF_CNT.XMON_LOST`, RC (R165). -/
def DF_CNT_XMON_LOST : Fld := ⟨0x12, 16, 8, 0, .rc⟩
/-- `SCRUB_CTRL.EN`, RW (R165). -/
def SCRUB_CTRL_EN : Fld := ⟨0x18, 0, 1, 1, .rw⟩
/-- `SCRUB_STAT.CORR`, RC (R165). -/
def SCRUB_STAT_CORR : Fld := ⟨0x19, 0, 16, 0, .rc⟩
/-- `SCRUB_STAT.LOGIC`, RC (R165). -/
def SCRUB_STAT_LOGIC : Fld := ⟨0x19, 16, 8, 0, .rc⟩
/-- `SCRUB_STAT.PASS`, RO (R165). -/
def SCRUB_STAT_PASS : Fld := ⟨0x19, 24, 7, 0, .ro⟩
/-- `SCRUB_STAT.DIRTY`, RO (R165). -/
def SCRUB_STAT_DIRTY : Fld := ⟨0x19, 31, 1, 0, .ro⟩
/-- `CFG_CRC.CRC`, RO (R165). -/
def CFG_CRC_CRC : Fld := ⟨0x1a, 0, 32, 0, .ro⟩
/-- `BLK_REC.CNT`, RC (R165). -/
def BLK_REC_CNT (i : Nat) : Fld := ⟨0x505 + 8 * i, 0, 32, 0, .rc⟩
/-- `BLK_QERR.CNT`, RC (R165). -/
def BLK_QERR_CNT (i : Nat) : Fld := ⟨0x506 + 8 * i, 0, 8, 0, .rc⟩
/-- `BLK_QERR.SEEN`, W1C (R165). -/
def BLK_QERR_SEEN (i : Nat) : Fld := ⟨0x506 + 8 * i, 8, 1, 0, .w1c⟩
/-- `RGN_STAT.OCC0`, RO (R165). -/
def RGN_STAT_OCC0 (i : Nat) : Fld := ⟨0x600 + 16 * i, 0, 10, 0, .ro⟩
/-- `RGN_STAT.OCC1`, RO (R165). -/
def RGN_STAT_OCC1 (i : Nat) : Fld := ⟨0x600 + 16 * i, 10, 10, 0, .ro⟩
/-- `RGN_STAT.OVF`, W1C (R165). -/
def RGN_STAT_OVF (i : Nat) : Fld := ⟨0x600 + 16 * i, 20, 1, 0, .w1c⟩
/-- `RGN_STAT.UNCORR`, W1C (R165). -/
def RGN_STAT_UNCORR (i : Nat) : Fld := ⟨0x600 + 16 * i, 21, 1, 0, .w1c⟩
/-- `RGN_STAT.FLUSHED`, W1C (R165). -/
def RGN_STAT_FLUSHED (i : Nat) : Fld := ⟨0x600 + 16 * i, 22, 1, 0, .w1c⟩
/-- `RGN_DROP_BUD.CNT`, RC (R165). -/
def RGN_DROP_BUD_CNT (i : Nat) : Fld := ⟨0x601 + 16 * i, 0, 32, 0, .rc⟩
/-- `RGN_DROP_OVF.CNT`, RC (R165). -/
def RGN_DROP_OVF_CNT (i : Nat) : Fld := ⟨0x602 + 16 * i, 0, 32, 0, .rc⟩
/-- `RGN_DROP_ERR.CNT`, RC (R165). -/
def RGN_DROP_ERR_CNT (i : Nat) : Fld := ⟨0x603 + 16 * i, 0, 32, 0, .rc⟩
/-- `RGN_DROP_FLUSH.CNT`, RC (R165). -/
def RGN_DROP_FLUSH_CNT (i : Nat) : Fld := ⟨0x604 + 16 * i, 0, 32, 0, .rc⟩
/-- `RGN_SENT.CNT`, RO (R165). -/
def RGN_SENT_CNT (i : Nat) : Fld := ⟨0x605 + 16 * i, 0, 64, 0, .ro⟩
/-- `RGN_ECC.CORR`, RC (R165). -/
def RGN_ECC_CORR (i : Nat) : Fld := ⟨0x607 + 16 * i, 0, 16, 0, .rc⟩
/-- `RGN_ECC.UNCORR`, RC (R165). -/
def RGN_ECC_UNCORR (i : Nat) : Fld := ⟨0x607 + 16 * i, 16, 16, 0, .rc⟩
/-- `RGN_PEAK.MAX`, RC (R165). -/
def RGN_PEAK_MAX (i : Nat) : Fld := ⟨0x608 + 16 * i, 0, 11, 0, .rc⟩
-- 05_ryunt_link.md
/-- `LNK_VER.SUP`, RO (R199). -/
def LNK_VER_SUP (i : Nat) : Fld := ⟨0x20 + 16 * i, 0, 3, 7, .ro⟩
/-- `LNK_VER.SEL`, RW (R199). -/
def LNK_VER_SEL (i : Nat) : Fld := ⟨0x20 + 16 * i, 4, 2, 0, .rw⟩
/-- `LNK_STAT.STATE`, RO (R199). -/
def LNK_STAT_STATE (i : Nat) : Fld := ⟨0x21 + 16 * i, 0, 3, 0, .ro⟩
/-- `LNK_STAT.OWNER`, RO (R199). -/
def LNK_STAT_OWNER (i : Nat) : Fld := ⟨0x21 + 16 * i, 3, 1, 0, .ro⟩
/-- `LNK_STAT.CLAIM`, RO (R199). -/
def LNK_STAT_CLAIM (i : Nat) : Fld := ⟨0x21 + 16 * i, 4, 8, 0, .ro⟩
/-- `LNK_STAT.SILENT`, RO (R199). -/
def LNK_STAT_SILENT (i : Nat) : Fld := ⟨0x21 + 16 * i, 12, 1, 0, .ro⟩
/-- `LNK_STAT.VER_ERR`, W1C (R199). -/
def LNK_STAT_VER_ERR (i : Nat) : Fld := ⟨0x21 + 16 * i, 13, 1, 0, .w1c⟩
/-- `LNK_STAT.DOWNS`, RC (R199). -/
def LNK_STAT_DOWNS (i : Nat) : Fld := ⟨0x21 + 16 * i, 16, 8, 0, .rc⟩
/-- `LNK_EQ.STEP`, RW (R199). -/
def LNK_EQ_STEP (i : Nat) : Fld := ⟨0x22 + 16 * i, 0, 3, 3, .rw⟩
/-- `LNK_EQ.AUTO`, RW (R199). -/
def LNK_EQ_AUTO (i : Nat) : Fld := ⟨0x22 + 16 * i, 3, 1, 1, .rw⟩
/-- `LNK_EQ.FOUND`, RO (R199). -/
def LNK_EQ_FOUND (i : Nat) : Fld := ⟨0x22 + 16 * i, 4, 3, 0, .ro⟩
/-- `LNK_CTRL.CHECK`, RW (R199). -/
def LNK_CTRL_CHECK (i : Nat) : Fld := ⟨0x26 + 16 * i, 0, 1, 1, .rw⟩
/-- `LNK_ERR.CODE`, RC (R199). -/
def LNK_ERR_CODE (i : Nat) : Fld := ⟨0x23 + 16 * i, 0, 16, 0, .rc⟩
/-- `LNK_ERR.FC`, RC (R199). -/
def LNK_ERR_FC (i : Nat) : Fld := ⟨0x23 + 16 * i, 16, 8, 0, .rc⟩
/-- `LNK_ERR.SYNC`, RC (R199). -/
def LNK_ERR_SYNC (i : Nat) : Fld := ⟨0x23 + 16 * i, 24, 8, 0, .rc⟩
/-- `LNK_SC.RS_CORR`, RC (R199). -/
def LNK_SC_RS_CORR (i : Nat) : Fld := ⟨0x24 + 16 * i, 0, 8, 0, .rc⟩
/-- `LNK_SC.RS_UNC`, RC (R199). -/
def LNK_SC_RS_UNC (i : Nat) : Fld := ⟨0x24 + 16 * i, 8, 8, 0, .rc⟩
/-- `LNK_SC.ERR_RESP`, RC (R199). -/
def LNK_SC_ERR_RESP (i : Nat) : Fld := ⟨0x24 + 16 * i, 16, 8, 0, .rc⟩
/-- `LNK_SC.RESP_LOST`, RC (R199). -/
def LNK_SC_RESP_LOST (i : Nat) : Fld := ⟨0x24 + 16 * i, 24, 8, 0, .rc⟩
/-- `LNK_TIME.MISMATCH`, RC (R199). -/
def LNK_TIME_MISMATCH (i : Nat) : Fld := ⟨0x25 + 16 * i, 0, 8, 0, .rc⟩
/-- `LNK_TIME.LOADS`, RC (R199). -/
def LNK_TIME_LOADS (i : Nat) : Fld := ⟨0x25 + 16 * i, 8, 8, 0, .rc⟩
/-- `LNK_TIME.FORCED`, RC (R199). -/
def LNK_TIME_FORCED (i : Nat) : Fld := ⟨0x25 + 16 * i, 16, 8, 0, .rc⟩
/-- `OWN_STAT.PORT`, RO (R199). -/
def OWN_STAT_PORT : Fld := ⟨0x40, 0, 1, 0, .ro⟩
/-- `OWN_STAT.NONE`, RO (R199). -/
def OWN_STAT_NONE : Fld := ⟨0x40, 1, 1, 1, .ro⟩
/-- `OWN_STAT.OVERLAP`, RO (R199). -/
def OWN_STAT_OVERLAP : Fld := ⟨0x40, 2, 1, 0, .ro⟩
/-- `OWN_STAT.OVERLAPS`, RC (R199). -/
def OWN_STAT_OVERLAPS : Fld := ⟨0x40, 8, 8, 0, .rc⟩
/-- `OWN_STAT.CLAIM_ERR`, RC (R199). -/
def OWN_STAT_CLAIM_ERR : Fld := ⟨0x40, 16, 8, 0, .rc⟩
/-- `OWN_STAT.NONOWNER_FC`, RC (R199). -/
def OWN_STAT_NONOWNER_FC : Fld := ⟨0x40, 24, 8, 0, .rc⟩
/-- `PRBS_CTRL.PAT`, RW (R199). -/
def PRBS_CTRL_PAT (i : Nat) : Fld := ⟨0xf00 + 16 * i, 0, 2, 2, .rw⟩
/-- `PRBS_CTRL.START`, WO (R199). -/
def PRBS_CTRL_START (i : Nat) : Fld := ⟨0xf00 + 16 * i, 2, 1, 0, .wo⟩
/-- `PRBS_CTRL.DUR`, RW (R199). -/
def PRBS_CTRL_DUR (i : Nat) : Fld := ⟨0xf00 + 16 * i, 3, 16, 250, .rw⟩
/-- `PRBS_STAT.RUNNING`, RO (R199). -/
def PRBS_STAT_RUNNING (i : Nat) : Fld := ⟨0xf01 + 16 * i, 0, 1, 0, .ro⟩
/-- `PRBS_STAT.LOCKED`, RO (R199). -/
def PRBS_STAT_LOCKED (i : Nat) : Fld := ⟨0xf01 + 16 * i, 1, 1, 0, .ro⟩
/-- `PRBS_STAT.DONE`, W1C (R199). -/
def PRBS_STAT_DONE (i : Nat) : Fld := ⟨0xf01 + 16 * i, 2, 1, 0, .w1c⟩
/-- `PRBS_ERR.CNT`, RC (R199). -/
def PRBS_ERR_CNT (i : Nat) : Fld := ⟨0xf02 + 16 * i, 0, 64, 0, .rc⟩
/-- `PRBS_INJ.GO`, WO (R199). -/
def PRBS_INJ_GO (i : Nat) : Fld := ⟨0xf04 + 16 * i, 0, 1, 0, .wo⟩
/-- `PRBS_INJ.BURST`, RW (R199). -/
def PRBS_INJ_BURST (i : Nat) : Fld := ⟨0xf04 + 16 * i, 1, 1, 0, .rw⟩
/-- `PRBS_INJ.LEN`, RW (R199). -/
def PRBS_INJ_LEN (i : Nat) : Fld := ⟨0xf04 + 16 * i, 2, 5, 1, .rw⟩
/-- `PRBS_INJ.TARGET`, RW (R199). -/
def PRBS_INJ_TARGET (i : Nat) : Fld := ⟨0xf04 + 16 * i, 7, 1, 0, .rw⟩
-- 11_start_update_states.md
/-- `FE_RST.SOFT`, WO (R382). -/
def FE_RST_SOFT : Fld := ⟨0x4, 0, 1, 0, .wo⟩
/-- `FE_RST.KEY`, WO (R382). -/
def FE_RST_KEY : Fld := ⟨0x4, 16, 16, 0, .wo⟩
/-- `FE_RSTAT.CAUSE`, RO (R382). -/
def FE_RSTAT_CAUSE : Fld := ⟨0x5, 0, 1, 0, .ro⟩
/-- `FE_RSTAT.SOFTS`, RC (R382). -/
def FE_RSTAT_SOFTS : Fld := ⟨0x5, 8, 8, 0, .rc⟩
-- 13_protection.md
/-- `FE_TH_CFG.WARN`, RW (R432). -/
def FE_TH_CFG_WARN : Fld := ⟨0x780, 0, 8, 95, .rw⟩
/-- `FE_TH_CFG.THROT`, RW (R432). -/
def FE_TH_CFG_THROT : Fld := ⟨0x780, 8, 8, 105, .rw⟩
/-- `FE_TH_CFG.RATE`, RW (R432). -/
def FE_TH_CFG_RATE : Fld := ⟨0x780, 16, 8, 50, .rw⟩
/-- `FE_TH_STAT.STATE`, RO (R432). -/
def FE_TH_STAT_STATE : Fld := ⟨0x781, 0, 3, 0, .ro⟩
/-- `FE_TH_STAT.BROKEN`, RO (R432). -/
def FE_TH_STAT_BROKEN : Fld := ⟨0x781, 3, 5, 0, .ro⟩
/-- `FE_TH_STAT.HOT`, RO (R432). -/
def FE_TH_STAT_HOT : Fld := ⟨0x781, 8, 5, 0, .ro⟩
/-- `FE_TH_STAT.THROT_SEEN`, W1C (R432). -/
def FE_TH_STAT_THROT_SEEN : Fld := ⟨0x781, 13, 1, 0, .w1c⟩
/-- `FE_SUP_STAT.DIPS`, RC (R432). -/
def FE_SUP_STAT_DIPS : Fld := ⟨0x782, 0, 16, 0, .rc⟩
/-- `FE_SUP_STAT.WARN_NOW`, RO (R432). -/
def FE_SUP_STAT_WARN_NOW : Fld := ⟨0x782, 16, 1, 0, .ro⟩
/-- `FE_DIP.LAST`, RO (R432). -/
def FE_DIP_LAST : Fld := ⟨0x783, 0, 24, 0, .ro⟩

/-- Part of the register map. -/
def feRegClasses0 : List RegClass :=
  [
   ⟨0x100, 1, 0x0, 512, 0x2, fun i => [CH_CFG_EN i, CH_CFG_POL i, CH_CFG_GAIN i, CH_CFG_GATE_EN i, CH_CFG_VAL_EN i, CH_CFG_VAL_WIN i, CH_CFG_HYST i, CH_CFG_HOLDOFF i, CH_CFG_TP_EN i, CH_CFG_CD_EN i]⟩,
   ⟨0x101, 1, 0x0, 512, 0x2, fun i => [CH_THR_TRIM i, CH_THR_VAL i]⟩,
   ⟨0x500, 1, 0x0, 32, 0x8, fun i => [BLK_THR_DAC i]⟩,
   ⟨0x501, 1, 0x0, 32, 0x8, fun i => [BLK_CD_EN i, BLK_CD_LOG i]⟩,
   ⟨0x502, 1, 0x0, 32, 0x8, fun i => [BLK_CDSTAT_CH i, BLK_CDSTAT_PERR i, BLK_CDSTAT_IFAIL i, BLK_CDSTAT_IFAIL_CH i, BLK_CDSTAT_PERR_CNT i, BLK_CDSTAT_DONE i, BLK_CDSTAT_REJECT i]⟩,
   ⟨0x60, 1, 0x0, 1, 0x0, fun _ => [GATE_CFG_MODE, GATE_CFG_REC_EN]⟩,
   ⟨0x61, 1, 0x0, 1, 0x0, fun _ => [GATE_STAT_OPEN, GATE_STAT_CMD_OPEN, GATE_STAT_PIN_OPEN, GATE_STAT_REDUNDANT, GATE_STAT_LOST]⟩,
   ⟨0x800, 1, 0x0, 1, 0x0, fun _ => [TP_CFG_AMP, TP_CFG_EN]⟩,
   ⟨0x801, 1, 0x0, 1, 0x0, fun _ => [TP_PHASE_COARSE, TP_PHASE_FINE]⟩,
   ⟨0x802, 1, 0x0, 1, 0x0, fun _ => [TP_STAT_INJ, TP_STAT_EXTRA, TP_STAT_ERR]⟩,
   ⟨0x810, 1, 0x0, 1, 0x0, fun _ => [CAL_SEL_CH, CAL_SEL_INT, CAL_SEL_ITEM]⟩,
   ⟨0x811, 1, 0x0, 1, 0x0, fun _ => [CAL_DATA_V0, CAL_DATA_V1, CAL_DATA_AGE]⟩,
   ⟨0x820, 1, 0x0, 1, 0x0, fun _ => [CHCNT_SEL_CH, CHCNT_SEL_IDX]⟩,
   ⟨0x821, 1, 0x0, 1, 0x0, fun _ => [CHCNT_DATA_VAL]⟩,
   ⟨0x503, 1, 0x0, 32, 0x8, fun i => [BLK_ADC_EN i, BLK_ADC_MODE i, BLK_ADC_DLY i]⟩,
   ⟨0x504, 1, 0x0, 32, 0x8, fun i => [BLK_ADCSTAT_SPARE i, BLK_ADCSTAT_FAIL i, BLK_ADCSTAT_NOSLICE i, BLK_ADCSTAT_CLASH i, BLK_ADCSTAT_PERR i]⟩,
   ⟨0x700, 1, 0x0, 1, 0x0, fun _ => [MON_CFG_TMR_EN, MON_CFG_CMD_EN, MON_CFG_TP_EN]⟩,
   ⟨0x701, 1, 0x0, 1, 0x0, fun _ => [MON_MASK_MASK]⟩,
   ⟨0x702, 1, 0x0, 1, 0x0, fun _ => [MON_TIMER_PERIOD]⟩,
   ⟨0x703, 1, 0x0, 1, 0x0, fun _ => [MON_TPDLY_DLY]⟩]

/-- Part of the register map. -/
def feRegClasses1 : List RegClass :=
  [
   ⟨0x704, 1, 0x0, 1, 0x0, fun _ => [MON_STAT_BUSY, MON_STAT_INPUT, MON_STAT_OVERRUN, MON_STAT_CFG_ERR]⟩,
   ⟨0x705, 1, 0x0, 1, 0x0, fun _ => [MON_WSTAT_OUT]⟩,
   ⟨0x706, 1, 0x0, 1, 0x0, fun _ => [MON_WLIVE_OUT]⟩,
   ⟨0x707, 1, 0x0, 1, 0x0, fun _ => [MON_FAULT_OPEN, MON_FAULT_CM, MON_FAULT_RANGE, MON_FAULT_STALE, MON_FAULT_FLT_CNT]⟩,
   ⟨0x708, 1, 0x0, 1, 0x0, fun _ => [MON_TS_FIS, MON_TS_SEC]⟩,
   ⟨0x70a, 1, 0x0, 1, 0x0, fun _ => [MON_SCANS_CNT]⟩,
   ⟨0x70c, 1, 0x0, 1, 0x0, fun _ => [MON_CMWIN_LO, MON_CMWIN_HI]⟩,
   ⟨0x710, 1, 0x0, 4, 0x1, fun i => [MON_RTD_CFG_WIRE i, MON_RTD_CFG_EXC i, MON_RTD_CFG_PROT i]⟩,
   ⟨0x720, 1, 0x0, 25, 0x1, fun i => [MON_ICFG_SETTLE i, MON_ICFG_AVG i, MON_ICFG_WIN_EN i, MON_ICFG_WHYS i]⟩,
   ⟨0x740, 1, 0x0, 25, 0x1, fun i => [MON_RES_VALUE i, MON_RES_VALID i, MON_RES_FRESH i, MON_RES_FAULT i, MON_RES_SEQ i]⟩,
   ⟨0x760, 1, 0x0, 25, 0x1, fun i => [MON_WIN_LO i, MON_WIN_HI i]⟩,
   ⟨0x0, 1, 0x0, 1, 0x0, fun _ => [CHIP_ID_ID]⟩,
   ⟨0x10, 1, 0x0, 1, 0x0, fun _ => [DF_CFG_XMON_EN]⟩,
   ⟨0x11, 1, 0x0, 1, 0x0, fun _ => [DF_STAT_STANDBY, DF_STAT_WAKING, DF_STAT_PWR_REDUNDANT]⟩,
   ⟨0x12, 1, 0x0, 1, 0x0, fun _ => [DF_CNT_FILL_EARLY, DF_CNT_XMON_LOST]⟩,
   ⟨0x18, 1, 0x0, 1, 0x0, fun _ => [SCRUB_CTRL_EN]⟩,
   ⟨0x19, 1, 0x0, 1, 0x0, fun _ => [SCRUB_STAT_CORR, SCRUB_STAT_LOGIC, SCRUB_STAT_PASS, SCRUB_STAT_DIRTY]⟩,
   ⟨0x1a, 1, 0x0, 1, 0x0, fun _ => [CFG_CRC_CRC]⟩,
   ⟨0x505, 1, 0x0, 32, 0x8, fun i => [BLK_REC_CNT i]⟩,
   ⟨0x506, 1, 0x0, 32, 0x8, fun i => [BLK_QERR_CNT i, BLK_QERR_SEEN i]⟩]

/-- Part of the register map. -/
def feRegClasses2 : List RegClass :=
  [
   ⟨0x600, 1, 0x0, 4, 0x10, fun i => [RGN_STAT_OCC0 i, RGN_STAT_OCC1 i, RGN_STAT_OVF i, RGN_STAT_UNCORR i, RGN_STAT_FLUSHED i]⟩,
   ⟨0x601, 1, 0x0, 4, 0x10, fun i => [RGN_DROP_BUD_CNT i]⟩,
   ⟨0x602, 1, 0x0, 4, 0x10, fun i => [RGN_DROP_OVF_CNT i]⟩,
   ⟨0x603, 1, 0x0, 4, 0x10, fun i => [RGN_DROP_ERR_CNT i]⟩,
   ⟨0x604, 1, 0x0, 4, 0x10, fun i => [RGN_DROP_FLUSH_CNT i]⟩,
   ⟨0x605, 1, 0x0, 4, 0x10, fun i => [RGN_SENT_CNT i]⟩,
   ⟨0x607, 1, 0x0, 4, 0x10, fun i => [RGN_ECC_CORR i, RGN_ECC_UNCORR i]⟩,
   ⟨0x608, 1, 0x0, 4, 0x10, fun i => [RGN_PEAK_MAX i]⟩,
   ⟨0x20, 1, 0x0, 2, 0x10, fun i => [LNK_VER_SUP i, LNK_VER_SEL i]⟩,
   ⟨0x21, 1, 0x0, 2, 0x10, fun i => [LNK_STAT_STATE i, LNK_STAT_OWNER i, LNK_STAT_CLAIM i, LNK_STAT_SILENT i, LNK_STAT_VER_ERR i, LNK_STAT_DOWNS i]⟩,
   ⟨0x22, 1, 0x0, 2, 0x10, fun i => [LNK_EQ_STEP i, LNK_EQ_AUTO i, LNK_EQ_FOUND i]⟩,
   ⟨0x26, 1, 0x0, 2, 0x10, fun i => [LNK_CTRL_CHECK i]⟩,
   ⟨0x23, 1, 0x0, 2, 0x10, fun i => [LNK_ERR_CODE i, LNK_ERR_FC i, LNK_ERR_SYNC i]⟩,
   ⟨0x24, 1, 0x0, 2, 0x10, fun i => [LNK_SC_RS_CORR i, LNK_SC_RS_UNC i, LNK_SC_ERR_RESP i, LNK_SC_RESP_LOST i]⟩,
   ⟨0x25, 1, 0x0, 2, 0x10, fun i => [LNK_TIME_MISMATCH i, LNK_TIME_LOADS i, LNK_TIME_FORCED i]⟩,
   ⟨0x40, 1, 0x0, 1, 0x0, fun _ => [OWN_STAT_PORT, OWN_STAT_NONE, OWN_STAT_OVERLAP, OWN_STAT_OVERLAPS, OWN_STAT_CLAIM_ERR, OWN_STAT_NONOWNER_FC]⟩,
   ⟨0xf00, 1, 0x0, 2, 0x10, fun i => [PRBS_CTRL_PAT i, PRBS_CTRL_START i, PRBS_CTRL_DUR i]⟩,
   ⟨0xf01, 1, 0x0, 2, 0x10, fun i => [PRBS_STAT_RUNNING i, PRBS_STAT_LOCKED i, PRBS_STAT_DONE i]⟩,
   ⟨0xf02, 1, 0x0, 2, 0x10, fun i => [PRBS_ERR_CNT i]⟩,
   ⟨0xf04, 1, 0x0, 2, 0x10, fun i => [PRBS_INJ_GO i, PRBS_INJ_BURST i, PRBS_INJ_LEN i, PRBS_INJ_TARGET i]⟩]

/-- Part of the register map. -/
def feRegClasses3 : List RegClass :=
  [
   ⟨0x4, 1, 0x0, 1, 0x0, fun _ => [FE_RST_SOFT, FE_RST_KEY]⟩,
   ⟨0x5, 1, 0x0, 1, 0x0, fun _ => [FE_RSTAT_CAUSE, FE_RSTAT_SOFTS]⟩,
   ⟨0x780, 1, 0x0, 1, 0x0, fun _ => [FE_TH_CFG_WARN, FE_TH_CFG_THROT, FE_TH_CFG_RATE]⟩,
   ⟨0x781, 1, 0x0, 1, 0x0, fun _ => [FE_TH_STAT_STATE, FE_TH_STAT_BROKEN, FE_TH_STAT_HOT, FE_TH_STAT_THROT_SEEN]⟩,
   ⟨0x782, 1, 0x0, 1, 0x0, fun _ => [FE_SUP_STAT_DIPS, FE_SUP_STAT_WARN_NOW]⟩,
   ⟨0x783, 1, 0x0, 1, 0x0, fun _ => [FE_DIP_LAST]⟩]

/-- The register map: every register of this space, with its fields. -/
def feRegClasses : List RegClass :=
  feRegClasses0 ++ feRegClasses1 ++ feRegClasses2 ++ feRegClasses3

end Sys2Proof.Machine
end

