-- ==== Sys2Proof/Machine/State.lean ====
section
/-! DEFINITION. The state of the block as plain data: every register field, counter, buffer, queue and mode the
spec gives the two parts, and the queue of commands that wait. Registers stand in `creg` and `freg`, one entry per
field that differs from its reset value; everything the spec names that is no register stands in the structures below. -/

namespace Sys2Proof.Machine

/-- A sparse table: keys rise strictly; a key that is not listed holds the table's default. -/
abbrev Tab (α : Type) := List (Nat × α)

/-- Concentrator time (R21). -/
structure TimeVal where
  sec : Nat := 0
  ns : Nat := 0
  frac : Nat := 0
  deriving DecidableEq, Repr

/-- One PTP instance on a service port (R30–R33). Times are in 2^-16 ns. -/
structure PtpPort where
  qualified : Bool := false
  lost : Bool := false
  announce : Option Announce := none
  /-- A two-step Sync that waits for its Follow_Up: sequence, corrected arrival. -/
  twoStep : Option (Nat × Int) := none
  /-- Arrival minus origin of the last complete Sync. -/
  masterToSlave : Int := 0
  pathDelay : Int := 0
  reqSeq : Nat := 0
  /-- The Delay_Reqs that wait for their Delay_Resp, oldest first: sequence, corrected departure, ns since power-on. -/
  reqs : List (Nat × Int × Nat) := []
  /-- When the last Delay_Req left, ns since power-on, and the master's logMinDelayReqInterval once known (R30). -/
  lastReq : Option Nat := none
  reqLog : Option Int := none
  respMissed : Nat := 0
  mgmtIgnored : Nat := 0
  deriving DecidableEq, Repr

/-- One stamped trigger-input edge (R54, R55). -/
structure TinStamp where
  frame : Nat
  time : TimeVal
  qual : Nat
  deriving DecidableEq, Repr

/-- State of one trigger input: the last stamped edge in 2^-16 ns of absolute time and the stamps not yet decided. -/
structure TinSt where
  lastStamp : Option Nat := none
  stamps : List TinStamp := []
  deriving DecidableEq, Repr

/-- State of one timed output (R57–R59). -/
structure ToutSt where
  target : Nat := 0
  /-- A step jumped over the target of a one-shot output: its pulse is not emitted (R59). -/
  skipped : Bool := false
  pulse : Bool := false
  /-- Absolute instant at which the last pulse began, and the instant, 2^-16 ns since power-on, at which it ends (R57). -/
  began : Nat := 0
  ends : Nat := 0
  deriving DecidableEq, Repr

/-- Time, its sources and its servo (R21–R62). -/
structure TimeSt where
  now : TimeVal := {}
  /-- Frame ticks since power-on, counted through every step (R457). -/
  tick : Nat := 0
  ptp : Tab PtpPort := []
  selected : Option Nat := none
  holdover : Bool := false
  everLocked : Bool := false
  /-- Consecutive Sync intervals below the jump threshold while a step is pending (R41). -/
  belowRun : Nat := 0
  /-- Consecutive Sync intervals with an offset below 200 ns (R37). -/
  lockRun : Nat := 0
  /-- The PPS phase has been applied since power-on (R45). -/
  ppsPhased : Bool := false
  ppsMissRun : Nat := 0
  /-- Phase still to be removed under the slew bound, 2^-16 ns (R39, R43). -/
  slewLeft : Int := 0
  /-- What the slew bound has left over of a unit, in 1/625 of 2^-16 ns. -/
  slewRem : Nat := 0
  /-- Tick since which REFCLK has been qualified and the phase error below 50 ps (R37). -/
  phaseSince : Option Nat := none
  /-- Whole frames of an accepted step that wait for the next tick (R43). -/
  stepFrames : Option Int := none
  /-- Tick at which the step that waits was accepted. -/
  stepAsk : Nat := 0
  /-- Tick and frames of the last whole-frame step (R457). -/
  lastStep : Option (Nat × Int) := none
  /-- Absolute frame numbers of the latest ticks, newest first (R457). -/
  recent : List Nat := []
  tin : Tab TinSt := []
  tout : Tab ToutSt := []
  /-- Latched fraction and seconds of the last `TIM_NOW_NS` read, per master (R62). -/
  nowLatch : Tab TimeVal := []
  deriving DecidableEq, Repr

/-- What a leading-edge interpolator is doing (R77, R80). -/
inductive IntRole where
  | idle
  | armed
  | converting
  deriving DecidableEq, Repr

/-- A leading-edge interpolator (R77–R88). `table` lists the 63 stored entries; empty means uniform. -/
structure Interp where
  role : IntRole := .idle
  pair : Option (Nat × Nat) := none
  /-- Instant at which the latest accepted pair was completed, in ns since power-on. -/
  pairAt : Nat := 0
  /-- The edge this interpolator took has been converted and a pair measured since (R80). -/
  converted : Bool := true
  /-- The table in force from tick `tableFrom`, and the one before it (R87). -/
  table : List Nat := []
  prev : List Nat := []
  tableFrom : Nat := 0
  resetPending : Bool := false
  deriving DecidableEq, Repr

/-- Where the amplitude of a hit stands (R109–R118). -/
inductive AmpSt where
  | waiting
  | noSlice
  | converting (slice : Nat)
  | clash
  | parity
  | off
  | done (code : Nat) (x1 : Bool)
  deriving DecidableEq, Repr

/-- A leading edge the channel has taken and not yet finished with. -/
structure Hit where
  /-- Instant of the edge, 2^-16 ns since the tick of the frame it fell in, and that tick. -/
  at_ : Nat
  tick : Nat
  /-- The interpolator that took it, its raw code, its stop edge and the pair in force (R78, R79). -/
  int : Nat
  raw : Nat
  stop : Nat
  c1 : Nat
  c2 : Nat
  rejected : Bool := false
  /-- Coarse time and fine time once ready (R82), and the tick of the frame they decide (R84). -/
  coarse : Option Nat := none
  fine : Nat := 0
  hitTick : Nat := 0
  /-- Validation: none while undecided; and its window W in 2^-16 ns (R75). -/
  valid : Option Bool := none
  valWin : Nat := 0
  /-- Trailing edge in 2^-16 ns since power-on; a saturated pulse has none (R91, R92). -/
  teInst : Option Nat := none
  /-- The trailing-edge time that its interpolator measured, 1/16 ns since power-on (R90). -/
  te16 : Nat := 0
  sat : Bool := false
  pileup : Bool := false
  busyOver : Bool := false
  amp : AmpSt := .waiting
  /-- `BLK_ADC.MODE` and `DLY` in force at the edge (R119). -/
  adcMode : Nat := 0
  adcDly : Nat := 0
  /-- Start edge of its conversion, ns since power-on (R112). -/
  startEdge : Option Nat := none
  /-- The ×8 and ×1 peak holds since its leading edge cleared them, µV in the direction of `CH_CFG.POL` (R108). -/
  hold8 : Int := 0
  hold1 : Int := 0
  deriving DecidableEq, Repr

/-- One front-end channel (R63–R107). -/
structure Chan where
  intA : Interp := {}
  intB : Interp := {}
  /-- Trailing-edge pair in force and when it was measured, ns since power-on (R90). -/
  tePair : Nat × Nat := (0, 0)
  teAt : Nat := 0
  /-- A pair has been completed in the present frame. -/
  teDone : Bool := false
  /-- Armed from and up to these instants, in ns since power-on (R70, R72). -/
  armedFrom : Option Nat := none
  armedTo : Option Nat := none
  /-- The timing discriminator is high; and the instant it last fell, 2^-16 ns since power-on (R90). -/
  discHigh : Bool := false
  discLow : Nat := 0
  /-- No leading edge since the channel became armed (R71). -/
  orphanNext : Bool := false
  /-- End of the busy interval as known so far, 2^-16 ns since power-on (R73). -/
  busyUntil : Option Nat := none
  /-- Instant, 2^-16 ns since power-on, of the timed edge that owns the busy interval. -/
  busyHit : Option Nat := none
  /-- Edges taken and not yet final, oldest first. -/
  hits : List Hit := []
  /-- Hits that became final with their amplitude invalid before the start edge of their conversion, which is made all the same (R113). -/
  later : List Hit := []
  orphan : Nat := 0
  pileup : Nat := 0
  valRej : Nat := 0
  noCal : Nat := 0
  range : Nat := 0
  calFail : Nat := 0
  teCalMiss : Nat := 0
  /-- Consecutive frames with an unready interpolator (R105). -/
  unreadyRun : Nat := 0
  deriving DecidableEq, Repr

/-- A conversion in a slice: its channel, the instant of its edge in 2^-16 ns and its start edge in ns since power-on (R112). -/
structure Conv where
  ch : Nat
  hit : Nat
  start : Nat
  deriving DecidableEq, Repr

/-- One ADC slice of a block (R111–R120). -/
structure AdcSlice where
  failed : Bool := false
  /-- False from a return to service until an accepted calibration (R115). -/
  calibrated : Bool := true
  /-- Free for a start at this instant, ns since power-on (R112). -/
  freeAt : Nat := 0
  /-- The conversions whose result has not been handed over, oldest first. -/
  convs : List Conv := []
  /-- Accepted constants: offset in 1/1,000 LSB, gain deviation in 10^-6. -/
  offset : Int := 0
  gain : Int := 0
  deriving DecidableEq, Repr

/-- One front-end block: its code-density engine and its ADC slices. -/
structure Blk where
  cdSel : Nat := 0
  /-- Histogram bins of p for interpolators A and B, bin → samples (R86). -/
  histA : Tab Nat := []
  histB : Tab Nat := []
  nA : Nat := 0
  nB : Nat := 0
  /-- Accepted tables that wait for the next tick: channel, interpolator, entries (R87). -/
  newTables : List (Nat × Nat × List Nat) := []
  /-- Channel to select next after a parity error (R88). -/
  cdNext : Option Nat := none
  slices : Tab AdcSlice := []
  spare : Option Nat := some 0
  lastSpare : Nat := 0
  /-- Slice that becomes spare at the next rotation because of a parity error (R116). -/
  forcedSpare : Option Nat := none
  /-- The latest start edge, ns since power-on, and the channels and edges that started on it (R113). -/
  edge : Nat := 0
  starters : List (Nat × Nat) := []
  deriving DecidableEq, Repr

/-- One entry of a region buffer (R140–R145). -/
structure Entry where
  rec_ : W64
  blk : Nat
  /-- Channel, and the fc cycle since power-on from which the entry is valid (R141). -/
  ch : Nat := 0
  valid : Nat := 0
  deriving DecidableEq, Repr

/-- The records of one frame in one region buffer (R140–R145, R152). -/
structure Half where
  /-- The half the frame uses: 0 or 1. -/
  parity : Nat := 0
  offered : Nat := 0
  admitted : Nat := 0
  ovf : Bool := false
  /-- Records lost under R144 or R145 so far. -/
  lost : Nat := 0
  /-- Entries a bad queue index left behind, freed at the sweep (R145). -/
  stuck : Nat := 0
  entries : List Entry := []
  deriving DecidableEq, Repr

/-- The chip merger's state for the slot being filled (R146–R151). -/
structure Merger where
  /-- Set up for a slot; and the last position a record was chosen for. -/
  begun : Bool := false
  lastK : Nat := 0
  /-- Frame number and tick of the frame whose records the slot carries. -/
  frame : Nat := 0
  tick : Nat := 0
  gates : List W64 := []
  /-- Region tried next, and block tried next in each region (R148, R150). -/
  next : Nat := 0
  blkNext : Tab Nat := []
  sent : Tab Nat := []
  /-- The allocation A of the late phase, once fixed. -/
  alloc : Option (List Nat) := none
  chosenBefore : Nat := 0
  fillsBefore : Nat := 0
  early : Nat := 0
  err : Bool := false
  orphan : Bool := false
  flushed : Bool := false
  xmon : Option W64 := none
  xmonLost : Bool := false
  /-- Records chosen for positions, position → record. -/
  chosen : Tab W64 := []
  deriving DecidableEq, Repr

/-- Facts of one frame that its husk or the next one shows (R155). -/
structure FrameFacts where
  sec : Nat := 0
  fis : Nat := 0
  orphan : Bool := false
  flushed : Bool := false
  notice : Bool := false
  dip : Bool := false
  therm : Nat := 0
  cfgUpset : Bool := false
  dataErr : Bool := false
  calAlarm : Bool := false
  linkAlarm : Bool := false
  /-- The frame began in STANDBY or before full precision returned. -/
  waking : Bool := false
  /-- As found at the tick that ends the frame: out-of-band thermometer ports, a failed slice, the gate. -/
  rtdOut : Nat := 0
  adcAlarm : Bool := false
  gateOpen : Bool := false
  /-- Gate records of the frame in order of effect (R98). -/
  gates : List W64 := []
  xmon : Option W64 := none
  deriving DecidableEq, Repr

/-- The monitor of a front-end (R122–R135). -/
structure MonSt where
  running : Bool := false
  /-- Tick of the last expiry of the scan timer (R123). -/
  timerAt : Nat := 0
  /-- Injections whose `MON_TPDLY` has not passed, 2^-16 ns since power-on (R123). -/
  injAt : List Nat := []
  /-- Instant of the latest scan start, and instants of the schedule of R124 and R128, all in ns since power-on: the beginning of the step in
  progress, the commit before it, and the commit of the input that waits for its own. -/
  startAt : Nat := 0
  stepFrom : Nat := 0
  /-- The fc cycle of the latest start that was asked for (R123). -/
  askAt : Option Nat := none
  notBefore : Nat := 0
  commitAt : Nat := 0
  /-- Ports whose excitation a compliance trip has turned off in this scan, and the fault of the input after the one that waits (R129). -/
  tripped : List Nat := []
  voidNext : Nat := 0
  /-- A timer expiry or a SCAN command asks for a start at the next tick (R123). -/
  startPending : Bool := false
  tsFis : Nat := 0
  tsSec : Nat := 0
  /-- Codes taken in the present step: phase P, or the only phase, and phase N. -/
  codesP : List Int := []
  codesN : List Int := []
  offsetDone : Bool := false
  /-- Fault code that voids the measurement in progress, 0 = none (R129–R131). -/
  void : Nat := 0
  /-- Tick of the last committed measurement per thermometer port (R134). -/
  lastCommit : Tab Nat := []
  /-- `MON_ICFG` and `MON_RTD_CFG` as they stood at the scan's start (R125). -/
  icfg : Tab Nat := []
  rtdCfg : Tab Nat := []
  /-- Inputs of the scan still to be measured; the first is in progress. -/
  todo : List Nat := []
  /-- The conversions of the input in progress have ended; its commit instant is still to come. -/
  waiting : Bool := false
  deriving DecidableEq, Repr

/-- An error injected into a codeword (R194): tick of its frame, codeword, first bit inverted, number of bits. -/
structure Flip where
  tick : Nat
  cw : Nat
  bit : Nat
  len : Nat
  deriving DecidableEq, Repr

/-- One Ryunt port of a front-end (R166–R198). -/
structure FeLink where
  uplinkOn : Bool := false
  /-- Consecutive good and bad SYNC sets. -/
  goodRun : Nat := 0
  badRun : Nat := 0
  mismatchRun : Nat := 0
  /-- A CLAIM command was obeyed in the frame now ending (R195). -/
  claimCmd : Bool := false
  claimCmdPrev : Bool := false
  /-- The last set was bad or carried a claim byte that counts the port as silent (R195, R196). -/
  bad : Bool := false
  claimMismatch : Bool := false
  /-- Responses that wait, oldest first, and whether each is an error response of a posted write (R180). -/
  responses : List (RespPkt × Bool) := []
  /-- Record positions and response places of the slot being sent: position → record (R173, R174). -/
  slot : Tab W64 := []
  respSlot : List RespPkt := []
  clockLocked : Bool := false
  lrstTimer : Bool := false
  prbsArmed : Bool := false
  /-- Duration of the running TEST in frames, and the tick at which it began (R193). -/
  prbsLeft : Nat := 0
  prbsFrom : Nat := 0
  injectNext : Option Nat := none
  /-- Line bits inverted in the present TEST, and in the record codeword last touched (R194). -/
  testInj : List Nat := []
  flips : Option Flip := none
  /-- PH of the last tick in steps of 16 units, and whether it was measured (R190). -/
  ph : Int := 0
  phOk : Bool := false
  /-- Data bytes of the slot-start set and of the echo set of the slot being sent (R173). -/
  startSet : List Byte := []
  echo : List Byte := []
  /-- The generator of the PRBS-31 payload (R198). -/
  payload : Option Nat := none
  /-- Errors counted at each tried equaliser step (R192). -/
  eqTries : Tab Nat := []
  /-- Latched high words of two-word quantities read through this port (R16, R137). -/
  latch : Tab Nat := []
  deriving DecidableEq, Repr

/-- A change of a gate that waits for its instant (R95, R96, R98): kind 0 fast command, 1 pin, 2 `MODE` write; `cross` is the instant of
a pin's crossing, 2^-16 ns since power-on. -/
structure GateCmd where
  tick : Nat
  coarse : Nat
  kind : Nat
  open_ : Bool
  slot : Nat
  cross : Nat := 0
  deriving DecidableEq, Repr

/-- A register write that acts from an instant on, 2^-16 ns since power-on, and the word in force up to it (R69, R70, R98, R119). -/
structure LateWrite where
  eff : Nat
  word : Nat
  old : Nat
  deriving DecidableEq, Repr

/-- An injection that waits: its tick, its phase after it in 2^-16 ns, and its charge in 0.5 fC (R99). -/
structure Injection where
  tick : Nat
  phase : Nat
  amp : Nat
  deriving DecidableEq, Repr

/-- An injection that was made: its instant in 2^-16 ns since power-on, its charge in 0.5 fC, and the channels that received it, each with
its polarity as `CH_CFG.POL` has it (R99). -/
structure Injected where
  at_ : Nat
  amp : Nat
  chans : List (Nat × Bool)
  deriving DecidableEq, Repr

/-- A temperature sensor of either part (R401–R407). Readings are in 0.25 °C. -/
structure Sensor where
  /-- Samples of the last second and the one before it, newest first: tick, reading. -/
  hist : List (Nat × Int) := []
  /-- Tick of the last sample that came, and the tick at which the next one is due (R401). -/
  lastTick : Nat := 0
  nextTick : Nat := 0
  /-- Consecutive samples that speak for a change of the warning and of the throttle state. -/
  warnRun : Nat := 0
  throtRun : Nat := 0
  /-- Levels in °C that set the states, while they stand. -/
  warn : Option Nat := none
  throt : Option Nat := none
  /-- The rate limit is exceeded, or has been within 10 s; and since when the rate has stayed within it. -/
  rate : Bool := false
  rateOk : Nat := 0
  broken : Bool := false
  /-- Tick at which the sensor last left throttle. -/
  leftTick : Option Nat := none
  deriving DecidableEq, Repr

/-- One DZF-512 front-end. -/
structure Fe where
  /-- Revision byte of `CHIP_ID` (R2). -/
  rev : Nat := 0x0C
  powered : Bool := true
  /-- Seconds [15:0] and frame-in-second as they stood at tick `atTick`; they advance with the ticks (R28). -/
  sec : Nat := 0
  fis : Nat := 0
  atTick : Nat := 0
  link0 : FeLink := {}
  link1 : FeLink := {}
  owner : Option Nat := none
  /-- Tick at which the present overlap began (R197). -/
  overlapFrom : Option Nat := none
  gateCmds : List GateCmd := []
  /-- Register writes that act later than they were made, oldest first (R69). -/
  writes : List LateWrite := []
  /-- Recent changes of the effective gate, newest first: ns since power-on, open (R97). -/
  gateHist : List (Nat × Bool) := []
  /-- STANDBY or WAKE asked for in this frame: true = STANDBY (R159). -/
  powerAsk : Option Bool := none
  lastAskStandby : Bool := false
  /-- Tick at which the last WAKE took effect, and the tick its 100 µs run from (R158, R159). -/
  wakeTick : Option Nat := none
  wakeFrom : Nat := 0
  analogOn : Bool := true
  thermalHold : Bool := false
  flushAsk : Bool := false
  /-- Tick of the frame whose records are dropped on arrival (R156). -/
  flushTick : Option Nat := none
  pulseAsk : Bool := false
  /-- Injections that wait for their instants, oldest first, and the latest one made (R99). -/
  injects : List Injection := []
  injected : Option Injected := none
  softPending : Bool := false
  /-- `TP_CFG` and `TP_PHASE` as they stood at the last tick (R100). -/
  tpEn : Bool := false
  tpAmp : Nat := 0
  tpCoarse : Nat := 0
  tpFine : Nat := 0
  mon : MonSt := {}
  halves : Tab Half := []
  merger : Merger := {}
  /-- The merger of the slot before, whose trailer may still have to be taken, and the tick of the frame whose slot is being taken (R146,
  R147, R174). -/
  mergerPrev : Merger := {}
  slotTick : Nat := 0
  factsNow : FrameFacts := {}
  factsPrev : FrameFacts := {}
  factsPrev2 : FrameFacts := {}
  scrubPos : Nat := 0
  scrubDirty : Bool := false
  /-- The CRC of the scrub pass so far (R162). -/
  scrubCrc : Nat := 0xFFFFFFFF
  /-- Bits of which one of the three copies differs from the other two: word × 32 + bit → 1 + that copy (R160). -/
  copies : Tab Nat := []
  dipStart : Option Nat := none
  shutdown : Bool := false
  sens : Tab Sensor := []
  /-- Tick since which every sensor has been valid and below 95 °C (R403). -/
  coolTick : Option Nat := none
  /-- The wake calibration of all good slices is running (R120). -/
  wakeCal : Bool := false
  deriving DecidableEq, Repr

/-- A slow-control request that waits for its response (R181). -/
structure OutReq where
  tid : Nat
  addr : Nat
  data : Option W32
  sentTick : Nat
  master : Option Nat
  deriving DecidableEq, Repr

/-- One half of a port's elastic buffer with what the port knows of the slot (R202–R207). -/
structure RxSlot where
  /-- Tick of frame N, whose records the slot carries. -/
  tick : Nat := 0
  /-- Stored records, position → record; fill records are left out. -/
  recs : Tab W64 := []
  /-- Codewords decoded, and codewords found uncorrectable, by the late limit. -/
  seen : List Nat := []
  lost : List Nat := []
  owner : Bool := false
  husk : Bool := false
  /-- A late record was discarded; and one before the block's header was formed (R204). -/
  lateRec : Bool := false
  lateBlock : Bool := false
  /-- Positions lost on read (R203). -/
  eccLost : List Nat := []
  /-- The merge stage abandoned the stream (R229). -/
  abandoned : Bool := false
  /-- The block has left its coder. -/
  formed : Bool := false
  deriving DecidableEq, Repr

/-- A coded Hazel block whose verification is under way (R220): its raw records, the coded length, and header word 1 without
MARK-dependent fields. -/
structure BlockSt where
  tick : Nat
  frame : Nat
  raw : List W64
  codedLen : Nat
  flags : Nat
  deriving DecidableEq, Repr

/-- One concentrator port: link-up, servo, golden copy and ingest. -/
structure Port where
  failRun : Nat := 0
  failState : Nat := 0
  badSlots : Nat := 0
  goodSlots : Nat := 0
  stateTick : Nat := 0
  eqStep : Nat := 0
  eqErrs : Tab Nat := []
  rttSum : Int := 0
  rttN : Nat := 0
  rttAvg : Int := 0
  /-- Target and applied downlink advance, fraction units (R48, R49). -/
  target : Int := 0
  applied : Int := 0
  /-- A target found in PHASE waits for the tick that applies it (R183). -/
  applyNext : Bool := false
  farRun : Nat := 0
  nearRun : Nat := 0
  avgValid : Bool := false
  phaseFirst : Option Int := none
  nextTid : Nat := 0
  sentThisFrame : Nat := 0
  outstanding : List OutReq := []
  /-- Requests that wait for room under R181, oldest first. -/
  reqWait : List OutReq := []
  /-- A write of `PL_CTRL.RETRY` lets the port leave DARK although it has given up (R184). -/
  retry : Bool := false
  /-- Golden copy: front-end field key → value, over the reset values (R361). -/
  golden : Tab Nat := []
  pushes : Nat := 0
  goldMiss : Nat := 0
  posted : List (Nat × W32) := []
  /-- Ticks at which posted writes were last sent, and at which the golden copy was last checked (R183, R191). -/
  pushTick : Option Nat := none
  goldTick : Nat := 0
  /-- LOAD and LRST in the SYNC set of the frame in progress, and the set's stream bytes (R171). -/
  loadNext : Bool := false
  lrst : Bool := false
  syncTx : List Byte := []
  /-- Request packets of the frame in progress, and those accepted for the next (R170, R181). -/
  reqTx : List ReqPkt := []
  reqNext : List ReqPkt := []
  /-- Words the port has read for itself, and the version it has selected (R182, R188). -/
  ownReads : Tab Nat := []
  negSel : Option Nat := none
  /-- Consecutive slots whose slot byte shows the selected version (R182). -/
  verRun : Nat := 0
  /-- Arrival of the last slot-start comma: tick, and 2^-16 ns after it; the advance in force when the SYNC set of that tick was launched
  (R190). -/
  arr : Option (Nat × Int) := none
  launched : Int := 0
  downlinkOn : Bool := true
  rx0 : RxSlot := {}
  rx1 : RxSlot := {}
  block : Option BlockSt := none
  claimAt : Option Nat := none
  /-- A CLAIM command went out in the frame before (R384). -/
  claimed : Bool := false
  testFrom : Option Nat := none
  /-- TEST is entered at the next tick (R193). -/
  testAsk : Bool := false
  /-- Line bits inverted in the present TEST, and in a request codeword (R194). -/
  testInj : List Nat := []
  flips : Option Flip := none
  /-- The checker of the PRBS-31 payload: its last 31 bits, and whether it is locked (R198). -/
  plGen : Option Nat := none
  plLock : Bool := false
  lastHeader : Option W64 := none
  headerTick : Nat := 0
  /-- `TIM_PSTAT.SUSPECT` at the last tick (R207). -/
  suspectTick : Bool := false
  /-- Absences not yet written: first frame, frames, tick of the last one, newest first (R205, R226). -/
  absent : List (Nat × Nat × Nat) := []
  dipFirst : Option Nat := none
  dipFrames : Nat := 0
  /-- Fast-command slots the port still has to send, oldest first: code. -/
  fastTx : List Nat := []
  /-- Codes to be sent in the next frame (R369). -/
  fastNext : List Nat := []
  /-- Tick of the latest frame in which the port was in RUN and not absent (R420). -/
  okTick : Nat := 0
  deriving DecidableEq, Repr

/-- A unit on its way to a Firn controller (R215, R216, R222): the byte strings that are never split, header first. -/
structure Unit_ where
  tick : Nat
  frame : Nat
  port : Nat
  rawN : Nat
  items : List (List Byte)
  deriving DecidableEq, Repr

/-- A crevasse record that waits for the commit of the frame of tick `at_` (R225, R226). -/
structure Crev where
  at_ : Nat
  reason : Nat
  scope : Nat
  port : Nat
  frame : Nat
  frames : Nat
  lost : Nat
  deriving DecidableEq, Repr

/-- A unit with bytes in a line: frame, port, RAW_N (R253). -/
abbrev LineUnit := Nat × Nat × Nat

/-- A line held in a Firn write buffer until its stack acknowledges it (R253, R256). -/
structure WLine where
  slice : Nat
  ext : Nat
  gen : Nat
  line : Nat
  data : List Byte
  units : List LineUnit
  retried : Bool := false
  deriving DecidableEq, Repr

/-- An open chain of a slice in a region (R239, R243). -/
structure Chain where
  slice : Nat
  first : Nat
  fgen : Nat
  /-- Extent being written, its GEN, and bytes used in it. -/
  ext : Nat
  gen : Nat
  used : Nat
  count : Nat
  units : Nat := 0
  /-- Units stored up to the last commit (R260). -/
  unitsDone : Nat := 0
  crev : Bool := false
  /-- An extent was needed and none was ready (R252). -/
  starved : Bool := false
  /-- Bytes of `ext` that count where a region reset closed it (R260). -/
  closedAt : Option Nat := none
  /-- Bytes of the extent from the first line that is not yet written full, and the units with bytes in each line from there. -/
  tail : List Byte := []
  lineUnits : List (Nat × LineUnit) := []
  deriving DecidableEq, Repr

/-- One concentrator region: region merge and Firn controller. -/
structure Region where
  /-- Verified units that wait, in order of verification, and the spill queues in order (R223): coder of each from its port. -/
  fair : List Unit_ := []
  spill : List Unit_ := []
  /-- Coder served next, bytes handed, and bytes per coder, of frames not yet committed: tick → value (coder: 16 × tick + c). -/
  turn : Tab Nat := []
  handed : Tab Nat := []
  coderBytes : Tab Nat := []
  crevs : List Crev := []
  chains : List Chain := []
  writeBuf : List WLine := []
  readyExts : List Nat := []
  /-- Line reads accepted and outstanding, and those that wait for room, oldest first (R254). -/
  reads : List (Requester × Nat) := []
  waiting : List (Requester × Nat) := []
  /-- Requester served last among those that wait. -/
  served : Nat := 0
  scrubPos : Nat := 0
  scrubStart : Nat := 0
  resetting : Bool := false
  /-- First frame lost that no reason-5 record covers yet (R226, R260). -/
  resetFrom : Nat := 0
  /-- Ticks of the last MON notices of the coders and of the store (R220, R262). -/
  hazelNote : Option Nat := none
  badNote : Option Nat := none
  deriving DecidableEq, Repr

/-- What all ports share in ingest (R204, R209). -/
structure IngestSt where
  /-- Ticks of the latest frames released and past their late limit. -/
  released : Option Nat := none
  limit : Option Nat := none
  deriving DecidableEq, Repr

/-- An entry of an extent table (R235). -/
structure Extent where
  next : Nat := 0
  last : Bool := false
  state : Nat := 0
  damaged : Bool := false
  retirePend : Bool := false
  fofs : Nat := 0
  hwm : Nat := 0
  gen : Nat := 0
  slice : Nat := 0
  deriving DecidableEq, Repr

/-- A stored Firn line with its metadata (R232). -/
structure Line where
  data : List Byte
  valid : Bool
  gen : Nat
  /-- Bytes 66–71 (R233). -/
  check : List Byte
  deriving DecidableEq, Repr

/-- The part of a Firn index entry that belongs to one region (R239). -/
structure IxRegion where
  first : Nat := 0
  fgen : Nat := 0
  lastx : Nat := 0
  endb : Nat := 0
  count : Nat := 0
  deriving DecidableEq, Repr

/-- A Firn index entry (R239). -/
structure IxEntry where
  slice : Nat := 0
  state : Nat := 0
  frames : Nat := 0
  pins : Nat := 0
  trunc : Bool := false
  damaged : Bool := false
  crev : Bool := false
  wfail : Nat := 0
  qual : Nat := 0
  units : Nat := 0
  r0 : IxRegion := {}
  r1 : IxRegion := {}
  r2 : IxRegion := {}
  r3 : IxRegion := {}
  deriving DecidableEq, Repr

/-- A pin (R250). -/
structure Pin where
  active : Bool := false
  trunc : Bool := false
  partial_ : Bool := false
  first : Nat := 0
  last : Nat := 0
  /-- Slices of the range that were CALVED or EMPTY when the pin came to cover them: it does not count in them (R250). -/
  gone : List Nat := []
  deriving DecidableEq, Repr

/-- The Firn store beside its registers (R231–R263). -/
structure FirnSt where
  /-- Extent tables: 131,072 × region + extent. -/
  extents : Tab Extent := []
  /-- Stored lines: (131,072 × region + extent) × 65,536 + line. -/
  lines : Tab Line := []
  index : Tab IxEntry := []
  pins : Tab Pin := []
  /-- A slice has been claimed since power-on (R248). -/
  claimed : Bool := false
  /-- Tick of the latest frame whose commit is complete. -/
  committed : Option Nat := none
  /-- Tick of the last backward step: frames of earlier ticks count in no entry claimed at it (R459). -/
  backTick : Nat := 0
  deriving DecidableEq, Repr

/-- A native unit's window history: sums and INC of frames from newest to oldest (R266, R267). -/
structure NuSt where
  hist : List (Nat × Bool) := []
  high : Bool := false
  /-- Frames for which V stays INC after an uncorrectable history (R295). -/
  incLeft : Nat := 0
  deriving DecidableEq, Repr

/-- The sums presented for one frame (R212–R214): sum and INC. -/
structure Sums where
  tick : Nat := 0
  frame : Nat := 0
  module_ : Nat × Bool := (0, false)
  regions : List (Nat × Bool) := []
  blocks : List (Nat × Bool) := []
  deriving DecidableEq, Repr

/-- A request in the FIFO (R273, R274): where its response goes, and its REQ_ID and body. -/
structure Req where
  body : List Byte
  group : Nat
  bad : Bool
  deriving DecidableEq, Repr

/-- One item that a core or the stream puts out (R288–R292), and what a trailer counts of it. -/
structure OutItem where
  bytes : List Byte
  isNote : Bool := false
  isCrev : Bool := false
  damaged : Bool := false
  wfail : Bool := false
  gone : Bool := false
  deriving DecidableEq, Repr

/-- How far a reader has come (R288): the slice it is at, the snapshot of its entry once it has begun it, and the region with extent, GEN and
byte offset at which that region goes on. -/
structure Cursor where
  slice : Nat := 0
  entry : Option IxEntry := none
  region : Nat := 0
  pos : Option (Nat × Nat × Nat) := none
  deriving DecidableEq, Repr

/-- A core in flight (R279–R292). -/
structure Core where
  source : Nat := 0
  serial : Nat := 0
  t : TimeVal := {}
  reqId : Nat := 0
  qual : Nat := 0
  inc : Bool := false
  clamped : Bool := false
  partial_ : Bool := false
  merges : Nat := 0
  first : Nat := 0
  last : Nat := 0
  portFirst : Nat := 0
  portLast : Nat := 0
  /-- Tick of the decision, and the tick of the last whole-frame step since (R457). -/
  decided : Nat := 0
  stepTick : Option Nat := none
  /-- A backward step has ended the wait (R457). -/
  stepBack : Bool := false
  reading : Bool := false
  trunc : Bool := false
  damaged : Bool := false
  wfail : Bool := false
  gone : Bool := false
  aborted : Bool := false
  /-- The store has been read and the pin cleared. -/
  read : Bool := false
  units : Nat := 0
  notes : Nat := 0
  /-- Crevasse records among the units. -/
  crevs : Nat := 0
  /-- Items read and not yet put out. -/
  items : List OutItem := []
  /-- Bytes put out before the trailer, their running CRC, and those not yet in a packet. -/
  bytes : Nat := 0
  crc : Nat := 0xFFFFFFFF
  out : List Byte := []
  /-- What is in `out` goes into a packet although it is short: the header (R287). -/
  flush : Bool := false
  /-- The trailer has been put out. -/
  ended : Bool := false
  /-- Statuses other than OK and CORRECTED that its line reads returned: line address → status. -/
  got : Tab Nat := []
  /-- How far the store has been read. -/
  cur : Cursor := {}
  deriving DecidableEq, Repr

/-- One decision of a decision point (R280, R286). -/
structure Decision where
  source : Nat
  outcome : Nat
  clamped : Bool := false
  partial_ : Bool := false
  inc : Bool := false
  slot : Nat := 0
  serial : Nat := 0
  deriving DecidableEq, Repr

/-- A source's re-arm record (R281): the frame of its last taken candidate and the slot and serial of its last core. -/
structure Rearm where
  frame : Nat
  slot : Nat
  serial : Nat
  deriving DecidableEq, Repr

/-- The trigger unit, the core engine and the slice stream (R264–R296). -/
structure TrgSt where
  /-- A write of `TRG_CTRL.ARM` that waits for its tick, and the tick it was made in (R265). -/
  armAsk : Bool := false
  disarmAsk : Bool := false
  askTick : Nat := 0
  /-- Tick of F_arm. -/
  armTick : Nat := 0
  sums : Sums := {}
  nus : Tab NuSt := []
  seqCnt : Nat := 0
  seqAge : Nat := 0
  rearm : Tab (Option Rearm) := []
  fifo : List Req := []
  cores : Tab (Option Core) := []
  /-- A PRIM record formed and not yet queued (R278). -/
  prim : Option (List W64) := none
  /-- Tick of the latest frame whose decision point has run. -/
  decidedTick : Option Nat := none
  /-- The stream reader runs; after a disarm, up to this slice (R293). -/
  streamOn : Bool := false
  streamEnd : Option Nat := none
  /-- Stream bytes not yet in a queue, and the group they go to. -/
  streamOut : List Byte := []
  streamGroup : Nat := 0
  streamGot : Tab Nat := []
  /-- How far the stream reader has read the slice at `TRG_STREAM_POS`. -/
  streamCur : Cursor := {}
  /-- The slot that each group served last (R287). -/
  coreTurn : Tab Nat := []
  deriving DecidableEq, Repr

/-- A packet in an uplink queue (R310). -/
structure Pkt where
  typ : Nat
  slot : Nat := 0
  serial : Nat := 0
  pad : Nat := 0
  words : List W64
  partial_ : Bool := false
  /-- Payload words already sent. -/
  sent : Nat := 0
  deriving DecidableEq, Repr

/-- A queue of a group (R309–R316). -/
structure Queue where
  pkts : List Pkt := []
  /-- The push buffer: words of an open packet (R312). -/
  open_ : Option (List W64) := none
  /-- When the open packet received its last word, ns since power-on. -/
  openAt : Nat := 0
  flushed : Bool := false
  /-- Pushed words are discarded up to the next end mark (R313, R315). -/
  discard : Bool := false
  deriving DecidableEq, Repr

/-- One Floe frame handed to the striping stage: header words and payload words (R305). -/
structure FloeOut where
  h0 : W64
  h1 : W64
  words : List W64
  deriving DecidableEq, Repr

/-- A group's scheduler (R308, R317). -/
structure Group where
  /-- `SEQ` of the next Floe frame of each class. -/
  seq : Tab Nat := []
  /-- A version that waits for its lane-frame boundary, when its HELLO came (ns since power-on), and whether the Floe frame
  in flight then is still in flight (R308). -/
  verNext : Option Nat := none
  verAt : Nat := 0
  verWait : Bool := false
  /-- When the last HELLO came, ns since power-on; none before the first. -/
  helloAt : Option Nat := none
  /-- The Floe frame chosen last. -/
  inFlight : Option FloeOut := none
  /-- Bytes of Floe frames handed over from the start of the group payload of the present lane frame on, and the places among them at which a
  header begins (R302, R303). -/
  buf : List Byte := []
  heads : List Nat := []
  /-- `OFS` of the present lane frame. -/
  ofs : Nat := 0
  deriving DecidableEq, Repr

/-- A lane frame sent: its start set and the data bytes of its codewords (R302, R303). -/
structure LaneSent where
  start : List Nat := []
  data : List Byte := []
  deriving DecidableEq, Repr

/-- One receive lane (R304). -/
structure RxLane where
  badRun : Nat := 0
  stateTick : Nat := 0
  deriving DecidableEq, Repr

/-- One word of the inbound queue (R320). -/
structure InWord where
  word : W64
  end_ : Bool
  lane : Nat
  deriving DecidableEq, Repr

/-- Uplinks and queues (R297–R322). -/
structure UplinkSt where
  queues : Tab Queue := []
  groups : Tab Group := []
  /-- Lanes declared faulted, and healthy lanes a RESTORE returns, each with its instant in ns since power-on: they leave or
  join their group at the next lane-frame boundary (R301). -/
  leaving : List (Nat × Nat) := []
  returning : List (Nat × Nat) := []
  /-- Tick of the last lane-frame boundary. -/
  boundTick : Option Nat := none
  rx : Tab RxLane := []
  inbound : List InWord := []
  /-- Payload lengths in bytes of the packets in the inbound queue, as their Floe headers gave them (R330). -/
  inLens : List Nat := []
  alarms : Nat := 0
  pushHigh : Tab W32 := []
  /-- Start set of the last lane frame of each lane, its eight characters (R302). -/
  laneFrames : Tab (List Nat) := []
  /-- The last whole lane frame of each lane (R302, R303). -/
  laneSent : Tab LaneSent := []
  /-- When HIBERNATE was entered last, ns since power-on: the stale timers stand still in it (R315). -/
  darkAt : Nat := 0
  deriving DecidableEq, Repr

/-- A mailbox reply kept for repeats (R333). -/
structure Reply where
  group : Nat
  service : Nat
  cmd : Nat
  tag : Nat
  status : Nat
  body : List Byte
  tick : Nat
  final : Bool
  deriving DecidableEq, Repr

/-- A mailbox command that has been dispatched and not yet answered for good (R332). -/
structure LongCmd where
  lane : Nat
  group : Nat
  service : Nat
  cmd : Nat
  tag : Nat
  saved : List (Nat × Nat × Nat)
  arg : List Nat
  deriving DecidableEq, Repr

/-- A packet the SP has taken and dispatched (R332). -/
structure Taken where
  lane : Nat
  service : Nat
  cmd : Nat
  tag : Nat
  body : List Byte
  deriving DecidableEq, Repr

/-- What a scan has gathered at one step: hits, and the sums of their values and of the squares of them. -/
structure StepAcc where
  n : Nat := 0
  sum : Int := 0
  sq : Nat := 0
  deriving DecidableEq, Repr

/-- What a scan has gathered of one channel and interpolator: by step value, and its hits by fine bin (R103). -/
structure ScanSeries where
  steps : Tab StepAcc := []
  bins : Tab Nat := []
  deriving DecidableEq, Repr

/-- A CAL scan in progress (R103, R104, R335). -/
structure Scan where
  cmd : Nat
  first : Nat
  last : Nat
  /-- Channels: 0 all, 1 even, 2 odd. -/
  sel : Nat
  m : Nat
  start : Nat
  stop : Nat
  step : Nat
  /-- The pass in progress: 0 the even channels, 1 the odd ones; its step value, and the pulses sent at it. -/
  odd : Nat
  value : Nat
  sent : Nat := 0
  /-- Frames to pass before the registers of the next step are written. -/
  gap : Nat := 0
  /-- The last pulse has been sent, and in which frame; or a proxy write to a port failed. -/
  ended : Bool := false
  endTick : Nat := 0
  failed : Option Nat := none
  /-- Frames into which pulses were sent lately, with pass and step value. -/
  recent : List (Nat × Nat × Nat) := []
  /-- By (512 × port + channel) × 2 + interpolator. -/
  series : Tab ScanSeries := []
  /-- Counters that were not zero when the scan began: 512 × port + channel → `CH_CALFAIL`, `CH_NOCAL`, `CH_RANGE`. -/
  base : Tab (Nat × Nat × Nat) := []
  deriving DecidableEq, Repr

/-- What HIST has counted of one channel: its hits, and its ToT bins (R336). -/
structure HistCh where
  hits : Nat := 0
  bins : Tab Nat := []
  deriving DecidableEq, Repr

/-- A HIST run: first port, frames, the first of them, and the channels that had hits by 512 × port + channel (R336). -/
structure HistRun where
  first : Nat
  frames : Nat
  from_ : Nat
  chans : Tab HistCh := []
  deriving DecidableEq, Repr

/-- Service processor and control RAM (R323–R337). -/
structure SpSt where
  stopped : Bool := false
  /-- Tick at which the comparator stopped the cores (R323). -/
  lsTick : Option Nat := none
  kickTick : Nat := 0
  trapTick : Option Nat := none
  /-- Written words of control RAM; in the firmware area a word not listed is the loaded slot's (R324, R325). -/
  cram : Tab (Option W64) := []
  /-- Slot whose payload the firmware area holds. -/
  fw : Option Nat := none
  /-- Words found uncorrectable and not written since. -/
  cramBad : List Nat := []
  scrubPos : Nat := 0
  passDirty : Bool := false
  /-- Tick at which the present pass began, and at which the last completed one had begun (R326, R379). -/
  passTick : Nat := 0
  lastPassTick : Nat := 0
  replies : List Reply := []
  taken : Option Taken := none
  longs : List LongCmd := []
  monPeriod : Option Nat := none
  monTick : Nat := 0
  calResults : List W64 := []
  /-- The CAL scan and the HIST run in progress. -/
  scan : Option Scan := none
  hist : Option HistRun := none
  /-- MON packets with results that wait for room in their queue. -/
  monOut : List (List W64) := []
  /-- When a mover timer last expired or was set, ns since power-on (R342). -/
  tmrAt : Tab Nat := []
  bkThawAt : Option Nat := none
  latch : Tab W32 := []
  /-- Answer to each master's last access: access error, data read (R18, R181, R312). -/
  answers : Tab (Bool × Nat) := []
  deriving DecidableEq, Repr

/-- A mover channel beside its registers (R338–R346). -/
structure MvCh where
  /-- The four words of the current descriptor (R339). -/
  desc : List W64 := []
  /-- Bytes of it moved, and bytes of the burst in progress still to move (R342). -/
  moved : Nat := 0
  released : Nat := 0
  halfDone : Bool := false
  /-- Running CRC-32C of the destination bytes before its final XOR (R343). -/
  crc : Nat := 0xFFFFFFFF
  /-- Firn lines that have returned for it: address, status, data (R237). -/
  got : List (Nat × Nat × List Byte) := []
  unwr : Bool := false
  short : Bool := false
  /-- Tick at which it entered WAIT. -/
  waitTick : Nat := 0
  /-- A power-down request waits for its descriptor, and the tick it was made in (R345). -/
  powerWait : Bool := false
  powerTick : Nat := 0
  /-- When a read of its source queue found it empty, ns since power-on (R343). -/
  emptyAt : Option Nat := none
  deriving DecidableEq, Repr

/-- A 64-byte Moraine log entry (R380). -/
structure LogEntry where
  seq : Nat
  time : TimeVal
  qual : Nat
  code : Nat
  addr : Nat
  val : Nat
  old : Nat
  actor : Nat
  pwd : Bool
  tag : Nat
  d5 : Nat
  d6 : Nat
  deriving DecidableEq, Repr

/-- An image as a slot holds it (R356, R358). -/
structure SlotImg where
  bytes : List Byte := []
  /-- The bytes are those of the slot: start-up has read it, or it was written since (R373). -/
  seen : Bool := false
  deriving DecidableEq, Repr

/-- Areas of the NVM a program can interrupt (R355). -/
inductive NvmArea where
  | slotSelect
  | latch
  | slot (n : Nat)
  | container (n : Nat)
  | log
  | logErase
  | seed (n : Nat)
  deriving DecidableEq, Repr

/-- The accepted seed state (R393, R394). -/
structure Seed where
  push : Nat
  fmt : Nat
  fc : Nat
  tick : Nat
  body : SeedBody
  deriving DecidableEq, Repr

/-- One chain neighbour during an update (R376). -/
structure ChainSide where
  offered : Bool := false
  active : Bool := false
  absent : Bool := false
  next : Nat := 0
  acked : Nat := 0
  resends : Nat := 0
  done : Bool := false
  count : Nat := 0
  offerTick : Nat := 0
  deriving DecidableEq, Repr

/-- The NVM, the Moraine log and the field update (R354–R382). -/
structure NvmSt where
  slot0 : SlotImg := {}
  slot1 : SlotImg := {}
  fallback : Nat := 0
  cont0 : Container := { version := 0, gen := 0, crcOk := false, hcrcOk := false, recs := [] }
  cont1 : Container := { version := 0, gen := 0, crcOk := false, hcrcOk := false, recs := [] }
  inUse : Option Nat := none
  /-- The two containers above are those of the NVM: a start-up has read them (R373). -/
  known : Bool := false
  latch0 : List Bool := [false, false, false, false]
  latch1 : List Bool := [false, false, false, false]
  log : Tab LogEntry := []
  pending : List LogEntry := []
  overflow : Nat := 0
  /-- Programs whose intent is journalled and whose completion is not (R355). -/
  journal : List NvmArea := []
  /-- A program under way has been cut (R410). -/
  cut : Bool := false
  /-- Entries in the log program under way, the page being filled, and the next page once it is erased (R381). -/
  logBusy : Nat := 0
  page : Nat := 0
  erasedPage : Option Nat := none
  seed0 : Option Seed := none
  seed1 : Option Seed := none
  seedTick : Nat := 0
  /-- Image or container being received. -/
  imgTotal : Option Nat := none
  imgFrom : Option Bool := none
  cfgBuf : Option (Nat × List Byte) := none
  /-- Identity of the image a chain operation is about: the CRC-32C of its header (R375). -/
  imgId : Nat := 0
  up : ChainSide := {}
  dn : ChainSide := {}
  activating : Bool := false
  chainAct : Bool := false
  trialTick : Nat := 0
  trialPorts : List Nat := []
  trialGroups : List Nat := []
  trialQual : Nat := 0
  deriving DecidableEq, Repr

/-- A frame handed to a service port's MAC (R30, R375, R387, R393). -/
inductive SvcFrame where
  | delayReq (port seq : Nat)
  | heartbeat (mac : Nat) (payload : List Byte)
  | seed (mac : Nat) (payloads : List (List Byte)) (body : SeedBody)
  | update (up : Bool) (payload : List Byte)
  deriving DecidableEq, Repr

/-- How a module came to be TAKING (R389, R395, R398). -/
inductive TakeBy where
  | startUp | loss | abandon | planned
  deriving DecidableEq, Repr

/-- A push of which segments arrive (R393): its sequence, segment count, the segments received, the length and the CRC of its body, and what
the body says. -/
structure PushRx where
  push : Nat
  count : Nat
  got : Tab (List Byte) := []
  bodyLen : Nat
  bodyCrc : Nat
  fmt : Nat
  fc : Nat
  body : SeedBody
  tick : Nat
  deriving DecidableEq, Repr

/-- Twin operation (R383–R400). -/
structure TwinSt where
  hbSeq : Nat := 0
  hbTick : Option Nat := none
  /-- The partner's last good heartbeat, the tick it came, and arrival minus departure in 2^-16 ns (R388). -/
  peer : Option Heartbeat := none
  peerTick : Nat := 0
  oneWay : Int := 0
  /-- What the heartbeats do not carry of R377's twin conditions fails, or what they carry does (R392). -/
  compatBad : Bool := false
  readyTick : Nat := 0
  pushSeq : Nat := 0
  pushTick : Option Nat := none
  push : Option PushRx := none
  seed : Option Seed := none
  by_ : TakeBy := .startUp
  lossTick : Nat := 0
  /-- Since when every port in RUN has shown owner = 0 (R390). -/
  noOwnerTick : Option Nat := none
  /-- Frames from `storeFrom` on are stored, below `fs` while a switch is planned (R391, R396, R398). -/
  storing : Bool := true
  storeFrom : Nat := 0
  fs : Option Nat := none
  /-- Tick at which a releasing module turned off its downlinks (R398). -/
  drainTick : Option Nat := none
  prbsTick : Option Nat := none
  /-- The scratch-area pattern test has failed and has not passed since (R392). -/
  patternBad : Bool := false
  patternTick : Option Nat := none
  reportTick : Option Nat := none
  /-- Register fields and golden copies as they stood at READY, against which "changed since start-up" is told (R393). -/
  startCreg : Tab Nat := []
  startGold : Tab (Tab Nat) := []
  deriving DecidableEq, Repr

/-- The guard, the supply monitor and the protection monitor (R401–R433). -/
structure ProSt where
  sensors : Tab Sensor := []
  /-- Throttle actions under way: 0–3 a region, 4–7 an optical engine, 8 the power stage (R406). -/
  actions : List Nat := []
  shutdown : Bool := false
  /-- Tick since which every sensor has been valid and below 95 °C (R411). -/
  coolTick : Option Nat := none
  /-- First frame of a dip in progress (R413). -/
  dipFrame : Option Nat := none
  powerGood : Bool := false
  /-- Cause of the next start-up: 2 after SHUTDOWN, 3 after a supply reset (R411, R414). -/
  rcause : Nat := 0
  /-- Tick of entry to HELD and of the last evaluation with a cause, per permit (R422). -/
  heldTick : Tab Nat := []
  causeTick : Tab Nat := []
  /-- The test of R417 has passed; an output test has failed; the straps differ; the self-check fails. -/
  commonTested : Bool := false
  outFault : Bool := false
  strapBad : Bool := false
  selfBad : Bool := false
  latchRead : Bool := false
  /-- The tick at which the guard's own time base began, the evaluations made since, and the second of each output's last off-pulse, plus one
  (R416, R421). -/
  guardTick : Nat := 0
  evals : Nat := 0
  pulseSec : Tab Nat := []
  /-- Tick of the trip into SHUTDOWN (R410). -/
  tripTick : Nat := 0
  grstHeld : Bool := false
  grstTick : Nat := 0
  salt : List Byte := []
  verifier : List Byte := []
  candidate : List Byte := []
  windowTick : Nat := 0
  /-- Ticks of the failed checks of the last 60 s, and when checks were blocked (R427). -/
  failTicks : List Nat := []
  blockTick : Nat := 0
  deriving DecidableEq, Repr

/-- Module-level start-up and power state (R365–R371). -/
structure GlbSt where
  locked : Bool := false
  configured : Bool := false
  /-- Transition in progress: from, to, and the frame k of R369. -/
  trans : Option (Nat × Nat × Nat) := none
  heldReq : Option Nat := none
  /-- Tick of READY (R365, R367). -/
  readyTick : Option Nat := none
  deriving DecidableEq, Repr

/-- The machine stops; no rule of this spec makes a command stop, so no meaning answers with a fault. -/
inductive Fault where
  /-- Reserved for an access the spec calls outside every address space; raised by nothing (safe). -/
  | noSuchState
  deriving DecidableEq, Repr

/-- Reasons a command has no meaning here. -/
inductive Refusal where
  /-- Raised by `exec` for a command that has no meaning yet (safe). -/
  | notModelled (mnemonic : String)
  deriving DecidableEq, Repr

/-- The whole state of the block. -/
structure State where
  /-- Concentrator register fields that differ from their reset value. -/
  creg : Tab Nat := []
  /-- Front-end register fields that differ from their reset value. -/
  freg : Tab Nat := []
  tm : TimeSt := {}
  fes : Tab Fe := []
  chans : Tab Chan := []
  blks : Tab Blk := []
  ports : Tab Port := []
  ing : IngestSt := {}
  regions : Tab Region := []
  firn : FirnSt := {}
  trg : TrgSt := {}
  upl : UplinkSt := {}
  sp : SpSt := {}
  mv : Tab MvCh := []
  nvm : NvmSt := {}
  twin : TwinSt := {}
  pro : ProSt := {}
  glb : GlbSt := {}
  /-- Frames sent on the service ports, newest first. -/
  svcTx : List SvcFrame := []
  /-- Counter of free values drawn so far: the model's own field, no piece of the hardware. -/
  free : Nat := 0
  /-- Commands that wait, first in, first out. -/
  pending : List Instr := []
  deriving DecidableEq, Repr

/-- The block right after power-on, before start-up has run (R365, R373): every register at its reset value, every
table and queue empty, every link DARK. -/
def State.reset : State := {}

end Sys2Proof.Machine
end

