-- ==== Sys2Proof/Machine/Operands.lean ====
section
/-! DEFINITION. The forms in which values travel: packed bit fields, little-endian bytes, signed fields, the check codes
of the frames and records, and absolute frame numbers. -/

namespace Sys2Proof.Machine

/-- 1 for true, 0 for false. -/
def b2n (b : Bool) : Nat := if b then 1 else 0

/-- Bits [lo + width − 1 : lo] of a number. -/
def bits (w lo width : Nat) : Nat := w / 2 ^ lo % 2 ^ width

/-- Bit `i` of a number. -/
def bitAt (w i : Nat) : Bool := w / 2 ^ i % 2 == 1

/-- A word made of fields given as (low bit, width, value); a value is cut to its width. -/
def pack : List (Nat × Nat × Nat) → Nat
  | [] => 0
  | (lo, width, v) :: r => v % 2 ^ width * 2 ^ lo + pack r

/-- A packed 64-bit word. -/
def packW (fs : List (Nat × Nat × Nat)) : W64 := BitVec.ofNat 64 (pack fs)

/-- The signed value of a two's-complement field. -/
def toSigned (width v : Nat) : Int :=
  if v % 2 ^ width < 2 ^ (width - 1) then (v % 2 ^ width : Nat) else (v % 2 ^ width : Nat) - (2 ^ width : Nat)

/-- The two's-complement field of a signed value. -/
def ofSigned (width : Nat) (i : Int) : Nat := (i % (2 ^ width : Nat)).toNat

/-- The number nearest to `n / d`, a half rounded up. -/
def roundDiv (n d : Nat) : Nat := (2 * n + d) / (2 * d)

/-- The integer nearest to `n / d`, a half rounded up. -/
def roundDivI (n : Int) (d : Nat) : Int := (2 * n + d) / (2 * (d : Int))

/-- The integer nearest to `n / d`; for an exact half the spec does not say which, and `Config.halfUp` decides. -/
def roundHalf (site : Nat) (n : Int) (d : Nat) : Int :=
  if 2 * (n % (d : Int)) = d then n / (d : Int) + (if Config.halfUp site then 1 else 0) else roundDivI n d

/-- `n` bytes of a number, least significant first. -/
def leBytes : Nat → Nat → List Byte
  | 0, _ => []
  | n + 1, w => BitVec.ofNat 8 w :: leBytes n (w / 256)

/-- The number that bytes spell, least significant first. -/
def ofBytes : List Byte → Nat
  | [] => 0
  | b :: r => b.toNat + 256 * ofBytes r

/-- Bytes `i` to `i + n − 1` of a body as a number. -/
def bodyNat (body : List Byte) (i n : Nat) : Nat := ofBytes ((body.drop i).take n)

/-- Words serialised least significant byte first (R215). -/
def wordsBytes (ws : List W64) : List Byte := ws.flatMap fun w => leBytes 8 w.toNat

/-- `fuel` 64-bit words that bytes spell, padded with zero bytes. -/
def bytesWordsAux : Nat → List Byte → List W64
  | 0, _ => []
  | n + 1, bs => if bs.isEmpty then [] else BitVec.ofNat 64 (ofBytes (bs.take 8)) :: bytesWordsAux n (bs.drop 8)

/-- The 64-bit words that bytes spell, padded with zero bytes (R305). -/
def bytesWords (bs : List Byte) : List W64 := bytesWordsAux bs.length bs

/-- `fuel` 32-bit words that bytes spell. -/
def bytesW32Aux : Nat → List Byte → List W32
  | 0, _ => []
  | n + 1, bs => if bs.isEmpty then [] else BitVec.ofNat 32 (ofBytes (bs.take 4)) :: bytesW32Aux n (bs.drop 4)

/-- The 32-bit words that bytes spell. -/
def bytesW32 (bs : List Byte) : List W32 := bytesW32Aux bs.length bs

/-- `n` rounds of a reflected CRC. -/
def crcReflRounds (poly : Nat) : Nat → Nat → Nat
  | 0, c => c
  | n + 1, c => crcReflRounds poly n (if c % 2 = 1 then Nat.xor (c / 2) poly else c / 2)

/-- CRC-32C before its final XOR: reflected Castagnoli polynomial (R162). -/
def crc32cAux (c : Nat) : List Byte → Nat
  | [] => c
  | b :: r => crc32cAux (crcReflRounds 0x82F63B78 8 (Nat.xor c b.toNat)) r

/-- CRC-32C with initial value and final XOR 0xFFFF_FFFF (R162). -/
def crc32c (bs : List Byte) : Nat := Nat.xor (crc32cAux 0xFFFFFFFF bs) 0xFFFFFFFF

/-! ### SHA-256 (FIPS 180-4; PRESUMED, log entry 99) -/

/-- A 32-bit word rotated right by `n`. -/
def rotr (n x : Nat) : Nat := x / 2 ^ n + x * 2 ^ (32 - n) % 2 ^ 32

/-- The exclusive or of three words. -/
def xor3 (a b c : Nat) : Nat := Nat.xor (Nat.xor a b) c

/-- The round constants of SHA-256. -/
def shaK : List Nat :=
  [0x428A2F98, 0x71374491, 0xB5C0FBCF, 0xE9B5DBA5, 0x3956C25B, 0x59F111F1, 0x923F82A4, 0xAB1C5ED5,
   0xD807AA98, 0x12835B01, 0x243185BE, 0x550C7DC3, 0x72BE5D74, 0x80DEB1FE, 0x9BDC06A7, 0xC19BF174,
   0xE49B69C1, 0xEFBE4786, 0x0FC19DC6, 0x240CA1CC, 0x2DE92C6F, 0x4A7484AA, 0x5CB0A9DC, 0x76F988DA,
   0x983E5152, 0xA831C66D, 0xB00327C8, 0xBF597FC7, 0xC6E00BF3, 0xD5A79147, 0x06CA6351, 0x14292967] ++
  [0x27B70A85, 0x2E1B2138, 0x4D2C6DFC, 0x53380D13, 0x650A7354, 0x766A0ABB, 0x81C2C92E, 0x92722C85,
   0xA2BFE8A1, 0xA81A664B, 0xC24B8B70, 0xC76C51A3, 0xD192E819, 0xD6990624, 0xF40E3585, 0x106AA070,
   0x19A4C116, 0x1E376C08, 0x2748774C, 0x34B0BCB5, 0x391C0CB3, 0x4ED8AA4A, 0x5B9CCA4F, 0x682E6FF3,
   0x748F82EE, 0x78A5636F, 0x84C87814, 0x8CC70208, 0x90BEFFFA, 0xA4506CEB, 0xBEF9A3F7, 0xC67178F2]

/-- The message schedule, newest word first, longer by `n` words. -/
def shaSchedule : Nat → List Nat → List Nat
  | 0, w => w
  | n + 1, w =>
    let x := w.getD 1 0
    let y := w.getD 14 0
    let s1 := xor3 (rotr 17 x) (rotr 19 x) (x / 2 ^ 10)
    let s0 := xor3 (rotr 7 y) (rotr 18 y) (y / 2 ^ 3)
    shaSchedule n ((s1 + w.getD 6 0 + s0 + w.getD 15 0) % 2 ^ 32 :: w)

/-- The eight working words of SHA-256. -/
structure ShaSt where
  a : Nat
  b : Nat
  c : Nat
  d : Nat
  e : Nat
  f : Nat
  g : Nat
  h : Nat
  deriving DecidableEq, Repr

/-- One round, with the sum of its schedule word and its constant. -/
def ShaSt.round (x : ShaSt) (wk : Nat) : ShaSt :=
  let ch := Nat.xor (Nat.land x.e x.f) (Nat.land (2 ^ 32 - 1 - x.e) x.g)
  let maj := xor3 (Nat.land x.a x.b) (Nat.land x.a x.c) (Nat.land x.b x.c)
  let t1 := x.h + xor3 (rotr 6 x.e) (rotr 11 x.e) (rotr 25 x.e) + ch + wk
  let t2 := xor3 (rotr 2 x.a) (rotr 13 x.a) (rotr 22 x.a) + maj
  { a := (t1 + t2) % 2 ^ 32, b := x.a, c := x.b, d := x.c, e := (x.d + t1) % 2 ^ 32, f := x.e, g := x.f, h := x.g }

/-- The state after one block of sixteen words. -/
def ShaSt.block (x : ShaSt) (w : List Nat) : ShaSt :=
  let y := (List.zipWith (fun a b => a + b) shaK (shaSchedule 48 w.reverse).reverse).foldl ShaSt.round x
  { a := (x.a + y.a) % 2 ^ 32, b := (x.b + y.b) % 2 ^ 32, c := (x.c + y.c) % 2 ^ 32, d := (x.d + y.d) % 2 ^ 32,
    e := (x.e + y.e) % 2 ^ 32, f := (x.f + y.f) % 2 ^ 32, g := (x.g + y.g) % 2 ^ 32, h := (x.h + y.h) % 2 ^ 32 }

/-- `n` bytes of a number, most significant first. -/
def beBytes (n w : Nat) : List Byte := (leBytes n w).reverse

/-- A block's sixteen words, most significant byte first. -/
def shaWords (bs : List Byte) : List Nat := (List.range 16).map fun i => ofBytes ((bs.drop (4 * i)).take 4).reverse

/-- `n` blocks of a padded message. -/
def shaBlocks : Nat → List Byte → ShaSt → ShaSt
  | 0, _, x => x
  | n + 1, bs, x => shaBlocks n (bs.drop 64) (x.block (shaWords bs))

/-- A message with its padding: a one bit, zeros, and its length in bits. -/
def shaPad (bs : List Byte) : List Byte := bs ++ 0x80 :: (List.replicate ((119 - bs.length % 64) % 64) 0 ++ beBytes 8 (8 * bs.length))

/-- SHA-256 of a byte string (R356, R427). -/
def sha256 (bs : List Byte) : List Byte :=
  let m := shaPad bs
  let x := shaBlocks (m.length / 64) m
    ⟨0x6A09E667, 0xBB67AE85, 0x3C6EF372, 0xA54FF53A, 0x510E527F, 0x9B05688C, 0x1F83D9AB, 0x5BE0CD19⟩
  [x.a, x.b, x.c, x.d, x.e, x.f, x.g, x.h].flatMap (beBytes 4)

/-! ### Cyclic redundancy codes -/

/-- `n` rounds of a `w`-bit CRC fed most significant bit first. -/
def crcMsbRounds (w poly : Nat) : Nat → Nat → Nat
  | 0, c => c
  | n + 1, c =>
    crcMsbRounds w poly n (if c / 2 ^ (w - 1) % 2 = 1 then Nat.xor (c * 2 % 2 ^ w) poly else c * 2 % 2 ^ w)

/-- CRC-16 of R171: polynomial 0x1021, initial value 0xFFFF, most significant bit first. -/
def crc16 (bs : List Byte) : Nat := bs.foldl (fun c b => crcMsbRounds 16 0x1021 8 (Nat.xor c (b.toNat * 256))) 0xFFFF

/-- CRC-8 of R173: polynomial 0x07, initial value 0, most significant bit first. -/
def crc8 (bs : List Byte) : Nat := bs.foldl (fun c b => crcMsbRounds 8 0x07 8 (Nat.xor c b.toNat)) 0

/-- Frames in a second (R25). -/
def framesPerSec : Nat := 250000

/-- Units of 2^-16 ns in a frame. -/
def instPerFrame : Nat := 4000 * 65536

/-- The frame-in-second number (R25). -/
def TimeVal.fis (t : TimeVal) : Nat := t.ns / 4000

/-- The absolute frame number (R26). -/
def TimeVal.frame (t : TimeVal) : Nat := t.sec * framesPerSec + t.ns / 4000

/-- Absolute time in 2^-16 ns. -/
def TimeVal.inst (t : TimeVal) : Nat := (t.sec * 1000000000 + t.ns) * 65536 + t.frac

/-- The time of an absolute count of 2^-16 ns; seconds wrap at 2^48 (R21, R22). -/
def TimeVal.ofInst (n : Nat) : TimeVal :=
  { sec := n / 65536 / 1000000000 % 2 ^ 48, ns := n / 65536 % 1000000000, frac := n % 65536 }

/-- The time of the tick of absolute frame `f` (R25, R26). -/
def TimeVal.ofFrame (f : Nat) : TimeVal := { sec := f / framesPerSec % 2 ^ 48, ns := f % framesPerSec * 4000, frac := 0 }

/-- Slice number of a frame (R26). -/
def sliceOf (f : Nat) : Nat := f / 256

/-- The global channel identity (R7). -/
def globalChannel (cid port ch : Nat) : Nat := pack [(19, 8, cid), (9, 10, port), (0, 9, ch)]

end Sys2Proof.Machine
end

