-- ==== Sys2Proof/Machine/Regs.lean ====
section
/-! DEFINITION. The concentrator control-space registers, field by field, from the register tables of the spec: each field's address, place, width,
reset value and access code (R18, R20). The rule named is the one that maps the register. -/

namespace Sys2Proof.Machine

-- 01_time_and_frames.md
/-- `TIM_NOW_NS.NS`, RO (R62). -/
def TIM_NOW_NS_NS : Fld := ⟨0x200000, 0, 30, 0, .ro⟩
/-- `TIM_NOW_FRAC.FRAC`, RO (R62). -/
def TIM_NOW_FRAC_FRAC : Fld := ⟨0x200004, 0, 16, 0, .ro⟩
/-- `TIM_NOW_SEC_LO.SEC`, RO (R62). -/
def TIM_NOW_SEC_LO_SEC : Fld := ⟨0x200008, 0, 32, 0, .ro⟩
/-- `TIM_NOW_SEC_HI.SEC`, RO (R62). -/
def TIM_NOW_SEC_HI_SEC : Fld := ⟨0x20000c, 0, 16, 0, .ro⟩
/-- `TIM_FRAME.FIS`, RO (R62). -/
def TIM_FRAME_FIS : Fld := ⟨0x200010, 0, 18, 0, .ro⟩
/-- `TIM_FRAME.FIL`, RO (R62). -/
def TIM_FRAME_FIL : Fld := ⟨0x200010, 18, 8, 0, .ro⟩
/-- `TIM_CTRL.SRC`, LK (R62). -/
def TIM_CTRL_SRC : Fld := ⟨0x200020, 0, 2, 0, .lk⟩
/-- `TIM_CTRL.PTP0_EN`, LK (R62). -/
def TIM_CTRL_PTP0_EN : Fld := ⟨0x200020, 2, 1, 1, .lk⟩
/-- `TIM_CTRL.PTP1_EN`, LK (R62). -/
def TIM_CTRL_PTP1_EN : Fld := ⟨0x200020, 3, 1, 1, .lk⟩
/-- `TIM_CTRL.TRANSPORT`, LK (R62). -/
def TIM_CTRL_TRANSPORT : Fld := ⟨0x200020, 4, 1, 0, .lk⟩
/-- `TIM_CTRL.DOMAIN`, LK (R62). -/
def TIM_CTRL_DOMAIN : Fld := ⟨0x200020, 5, 7, 0, .lk⟩
/-- `TIM_SLEW.SLEW`, RW (R62). -/
def TIM_SLEW_SLEW : Fld := ⟨0x200024, 0, 12, 100, .rw⟩
/-- `TIM_JUMP.JUMP`, RW (R62). -/
def TIM_JUMP_JUMP : Fld := ⟨0x200028, 0, 30, 0x3e8, .rw⟩
/-- `TIM_STEP.APPLY`, WO (R62). -/
def TIM_STEP_APPLY : Fld := ⟨0x20002c, 0, 1, 0, .wo⟩
/-- `TIM_STEP.WITHDRAW`, WO (R62). -/
def TIM_STEP_WITHDRAW : Fld := ⟨0x20002c, 1, 1, 0, .wo⟩
/-- `TIM_STEP.KEY`, WO (R62). -/
def TIM_STEP_KEY : Fld := ⟨0x20002c, 16, 16, 0, .wo⟩
/-- `TIM_STAT.QUAL`, RO (R62). -/
def TIM_STAT_QUAL : Fld := ⟨0x200030, 0, 2, 0, .ro⟩
/-- `TIM_STAT.LOCK`, RO (R62). -/
def TIM_STAT_LOCK : Fld := ⟨0x200030, 2, 1, 0, .ro⟩
/-- `TIM_STAT.PTP_OK`, RO (R62). -/
def TIM_STAT_PTP_OK : Fld := ⟨0x200030, 3, 1, 0, .ro⟩
/-- `TIM_STAT.REF_OK`, RO (R62). -/
def TIM_STAT_REF_OK : Fld := ⟨0x200030, 4, 1, 0, .ro⟩
/-- `TIM_STAT.PPS_OK`, RO (R62). -/
def TIM_STAT_PPS_OK : Fld := ⟨0x200030, 5, 1, 0, .ro⟩
/-- `TIM_STAT.PORT`, RO (R62). -/
def TIM_STAT_PORT : Fld := ⟨0x200030, 6, 1, 0, .ro⟩
/-- `TIM_STAT.STEP_PEND`, RO (R62). -/
def TIM_STAT_STEP_PEND : Fld := ⟨0x200030, 7, 1, 0, .ro⟩
/-- `TIM_STAT.ASYM`, W1C (R62). -/
def TIM_STAT_ASYM : Fld := ⟨0x200030, 8, 1, 0, .w1c⟩
/-- `TIM_STAT.ASYM_NOW`, RO (R62). -/
def TIM_STAT_ASYM_NOW : Fld := ⟨0x200030, 9, 1, 0, .ro⟩
/-- `TIM_STAT.ARB`, RO (R62). -/
def TIM_STAT_ARB : Fld := ⟨0x200030, 10, 1, 0, .ro⟩
/-- `TIM_STAT.REF_LOSS`, W1C (R62). -/
def TIM_STAT_REF_LOSS : Fld := ⟨0x200030, 11, 1, 0, .w1c⟩
/-- `TIM_STAT.PPS_MISS`, W1C (R62). -/
def TIM_STAT_PPS_MISS : Fld := ⟨0x200030, 12, 1, 0, .w1c⟩
/-- `TIM_STAT.PTP_LOSS`, W1C (R62). -/
def TIM_STAT_PTP_LOSS : Fld := ⟨0x200030, 13, 1, 0, .w1c⟩
/-- `TIM_STAT.CFG_ERR`, W1C (R62). -/
def TIM_STAT_CFG_ERR : Fld := ⟨0x200030, 14, 1, 0, .w1c⟩
/-- `TIM_STAT.INIT_SET`, RO (R62). -/
def TIM_STAT_INIT_SET : Fld := ⟨0x200030, 15, 1, 0, .ro⟩
/-- `TIM_OFFSET.OFS`, RO (R62). -/
def TIM_OFFSET_OFS : Fld := ⟨0x200034, 0, 32, 0, .ro⟩
/-- `TIM_STEP_VAL.VAL`, RO (R62). -/
def TIM_STEP_VAL_VAL : Fld := ⟨0x200038, 0, 64, 0, .ro⟩
/-- `TIM_PTPC.EG_TRIM`, RW (R62). -/
def TIM_PTPC_EG_TRIM (i : Nat) : Fld := ⟨0x200040 + 4 * i, 0, 16, 0, .rw⟩
/-- `TIM_PTPC.IN_TRIM`, RW (R62). -/
def TIM_PTPC_IN_TRIM (i : Nat) : Fld := ⟨0x200040 + 4 * i, 16, 16, 0, .rw⟩
/-- `TIM_PTP_ASYM.ASYM`, RW (R62). -/
def TIM_PTP_ASYM_ASYM : Fld := ⟨0x200048, 0, 32, 0, .rw⟩
/-- `TIM_UTC_OFS.OFS`, RO (R62). -/
def TIM_UTC_OFS_OFS : Fld := ⟨0x20004c, 0, 16, 0, .ro⟩
/-- `TIM_EVT_CNT.STEP_REFUSED`, RC (R62). -/
def TIM_EVT_CNT_STEP_REFUSED : Fld := ⟨0x200050, 0, 8, 0, .rc⟩
/-- `TIM_EVT_CNT.STEP_APPLIED`, RC (R62). -/
def TIM_EVT_CNT_STEP_APPLIED : Fld := ⟨0x200050, 8, 8, 0, .rc⟩
/-- `TIM_EVT_CNT.ASYM_EVT`, RC (R62). -/
def TIM_EVT_CNT_ASYM_EVT : Fld := ⟨0x200050, 16, 8, 0, .rc⟩
/-- `TIM_EVT_CNT.KEY_ERR`, RC (R62). -/
def TIM_EVT_CNT_KEY_ERR : Fld := ⟨0x200050, 24, 8, 0, .rc⟩
/-- `TIN_CFG.EN`, RW (R62). -/
def TIN_CFG_EN (i : Nat) : Fld := ⟨0x200100 + 16 * i, 0, 1, 0, .rw⟩
/-- `TIN_CFG.POL`, RW (R62). -/
def TIN_CFG_POL (i : Nat) : Fld := ⟨0x200100 + 16 * i, 1, 1, 0, .rw⟩
/-- `TIN_CFG.DLY`, RW (R62). -/
def TIN_CFG_DLY (i : Nat) : Fld := ⟨0x200100 + 16 * i, 16, 16, 0, .rw⟩
/-- `TIN_CNT.ACCEPT`, RC (R62). -/
def TIN_CNT_ACCEPT (i : Nat) : Fld := ⟨0x200104 + 16 * i, 0, 16, 0, .rc⟩
/-- `TIN_CNT.LOST`, RC (R62). -/
def TIN_CNT_LOST (i : Nat) : Fld := ⟨0x200104 + 16 * i, 16, 8, 0, .rc⟩
/-- `TIN_CNT.GLITCH`, RC (R62). -/
def TIN_CNT_GLITCH (i : Nat) : Fld := ⟨0x200104 + 16 * i, 24, 8, 0, .rc⟩
/-- `TOUT_CTRL.ARM`, RW (R62). -/
def TOUT_CTRL_ARM (i : Nat) : Fld := ⟨0x200200 + 32 * i, 0, 1, 0, .rw⟩
/-- `TOUT_CTRL.POL`, RW (R62). -/
def TOUT_CTRL_POL (i : Nat) : Fld := ⟨0x200200 + 32 * i, 1, 1, 0, .rw⟩
/-- `TOUT_CTRL.FIRED`, W1C (R62). -/
def TOUT_CTRL_FIRED (i : Nat) : Fld := ⟨0x200200 + 32 * i, 2, 1, 0, .w1c⟩
/-- `TOUT_CTRL.LATE`, W1C (R62). -/
def TOUT_CTRL_LATE (i : Nat) : Fld := ⟨0x200200 + 32 * i, 3, 1, 0, .w1c⟩
/-- `TOUT_CTRL.SKIP`, W1C (R62). -/
def TOUT_CTRL_SKIP (i : Nat) : Fld := ⟨0x200200 + 32 * i, 4, 1, 0, .w1c⟩
/-- `TOUT_CTRL.ERR`, W1C (R62). -/
def TOUT_CTRL_ERR (i : Nat) : Fld := ⟨0x200200 + 32 * i, 5, 1, 0, .w1c⟩
/-- `TOUT_TGT_NS.NS`, RW (R62). -/
def TOUT_TGT_NS_NS (i : Nat) : Fld := ⟨0x200204 + 32 * i, 0, 30, 0, .rw⟩
/-- `TOUT_TGT_FRAC.FRAC`, RW (R62). -/
def TOUT_TGT_FRAC_FRAC (i : Nat) : Fld := ⟨0x200208 + 32 * i, 7, 9, 0, .rw⟩
/-- `TOUT_TGT_SEC_LO.SEC`, RW (R62). -/
def TOUT_TGT_SEC_LO_SEC (i : Nat) : Fld := ⟨0x20020c + 32 * i, 0, 32, 0, .rw⟩
/-- `TOUT_TGT_SEC_HI.SEC`, RW (R62). -/
def TOUT_TGT_SEC_HI_SEC (i : Nat) : Fld := ⟨0x200210 + 32 * i, 0, 16, 0, .rw⟩
/-- `TOUT_WIDTH.W`, RW (R62). -/
def TOUT_WIDTH_W (i : Nat) : Fld := ⟨0x200214 + 32 * i, 0, 24, 1, .rw⟩
/-- `TOUT_PERIOD.P`, RW (R62). -/
def TOUT_PERIOD_P (i : Nat) : Fld := ⟨0x200218 + 32 * i, 0, 32, 0, .rw⟩
/-- `TIM_PDLY.D`, RO (R62). -/
def TIM_PDLY_D (i : Nat) : Fld := ⟨0x201000 + 16 * i, 0, 26, 0, .ro⟩
/-- `TIM_PASYM.ASYM`, RW (R62). -/
def TIM_PASYM_ASYM (i : Nat) : Fld := ⟨0x201004 + 16 * i, 0, 16, 0, .rw⟩
/-- `TIM_PSTAT.ECHO`, RO (R62). -/
def TIM_PSTAT_ECHO (i : Nat) : Fld := ⟨0x201008 + 16 * i, 0, 1, 0, .ro⟩
/-- `TIM_PSTAT.FROZEN`, RO (R62). -/
def TIM_PSTAT_FROZEN (i : Nat) : Fld := ⟨0x201008 + 16 * i, 1, 1, 0, .ro⟩
/-- `TIM_PSTAT.SUSPECT`, RO (R62). -/
def TIM_PSTAT_SUSPECT (i : Nat) : Fld := ⟨0x201008 + 16 * i, 2, 1, 0, .ro⟩
/-- `TIM_PSTAT.SUSPECT_SEEN`, W1C (R62). -/
def TIM_PSTAT_SUSPECT_SEEN (i : Nat) : Fld := ⟨0x201008 + 16 * i, 3, 1, 0, .w1c⟩
/-- `TIM_PSTAT.JUMP`, W1C (R62). -/
def TIM_PSTAT_JUMP (i : Nat) : Fld := ⟨0x201008 + 16 * i, 4, 1, 0, .w1c⟩
/-- `TIM_PSTAT.RANGE`, W1C (R62). -/
def TIM_PSTAT_RANGE (i : Nat) : Fld := ⟨0x201008 + 16 * i, 5, 1, 0, .w1c⟩
/-- `TIM_PSTAT.JUMP_CNT`, RC (R62). -/
def TIM_PSTAT_JUMP_CNT (i : Nat) : Fld := ⟨0x201008 + 16 * i, 8, 8, 0, .rc⟩
/-- `TIM_PRTT.RTT`, RO (R62). -/
def TIM_PRTT_RTT (i : Nat) : Fld := ⟨0x20100c + 16 * i, 0, 32, 0, .ro⟩
-- 05_ryunt_link.md
/-- `PL_CTRL.EN`, RW (R200). -/
def PL_CTRL_EN (i : Nat) : Fld := ⟨0x300000 + 0x40000 * (i / 256) + 0x100 * (i % 256), 0, 1, 1, .rw⟩
/-- `PL_CTRL.RETRY`, WO (R200). -/
def PL_CTRL_RETRY (i : Nat) : Fld := ⟨0x300000 + 0x40000 * (i / 256) + 0x100 * (i % 256), 1, 1, 0, .wo⟩
/-- `PL_CTRL.VER_MASK`, LK (R200). -/
def PL_CTRL_VER_MASK (i : Nat) : Fld := ⟨0x300000 + 0x40000 * (i / 256) + 0x100 * (i % 256), 2, 3, 7, .lk⟩
/-- `PL_CTRL.FACE`, LK (R200). -/
def PL_CTRL_FACE (i : Nat) : Fld := ⟨0x300000 + 0x40000 * (i / 256) + 0x100 * (i % 256), 5, 1, 0, .lk⟩
/-- `PL_CTRL.TEST`, WO (R200). -/
def PL_CTRL_TEST (i : Nat) : Fld := ⟨0x300000 + 0x40000 * (i / 256) + 0x100 * (i % 256), 6, 1, 0, .wo⟩
/-- `PL_STAT.STATE`, RO (R200). -/
def PL_STAT_STATE (i : Nat) : Fld := ⟨0x300004 + 0x40000 * (i / 256) + 0x100 * (i % 256), 0, 3, 0, .ro⟩
/-- `PL_STAT.VER`, RO (R200). -/
def PL_STAT_VER (i : Nat) : Fld := ⟨0x300004 + 0x40000 * (i / 256) + 0x100 * (i % 256), 3, 2, 0, .ro⟩
/-- `PL_STAT.REASON`, RO (R200). -/
def PL_STAT_REASON (i : Nat) : Fld := ⟨0x300004 + 0x40000 * (i / 256) + 0x100 * (i % 256), 5, 4, 0, .ro⟩
/-- `PL_STAT.GIVEN_UP`, RO (R200). -/
def PL_STAT_GIVEN_UP (i : Nat) : Fld := ⟨0x300004 + 0x40000 * (i / 256) + 0x100 * (i % 256), 9, 1, 0, .ro⟩
/-- `PL_STAT.OWNER`, RO (R200). -/
def PL_STAT_OWNER (i : Nat) : Fld := ⟨0x300004 + 0x40000 * (i / 256) + 0x100 * (i % 256), 10, 1, 0, .ro⟩
/-- `PL_STAT.OVERLAP`, RO (R200). -/
def PL_STAT_OVERLAP (i : Nat) : Fld := ⟨0x300004 + 0x40000 * (i / 256) + 0x100 * (i % 256), 11, 1, 0, .ro⟩
/-- `PL_STAT.FE_CLAIM`, RO (R200). -/
def PL_STAT_FE_CLAIM (i : Nat) : Fld := ⟨0x300004 + 0x40000 * (i / 256) + 0x100 * (i % 256), 12, 8, 0, .ro⟩
/-- `PL_STAT.FE_REV`, RO (R200). -/
def PL_STAT_FE_REV (i : Nat) : Fld := ⟨0x300004 + 0x40000 * (i / 256) + 0x100 * (i % 256), 20, 4, 0, .ro⟩
/-- `PL_EQ.STEP`, RW (R200). -/
def PL_EQ_STEP (i : Nat) : Fld := ⟨0x300008 + 0x40000 * (i / 256) + 0x100 * (i % 256), 0, 4, 9, .rw⟩
/-- `PL_EQ.AUTO`, RW (R200). -/
def PL_EQ_AUTO (i : Nat) : Fld := ⟨0x300008 + 0x40000 * (i / 256) + 0x100 * (i % 256), 4, 1, 1, .rw⟩
/-- `PL_EQ.FOUND`, RO (R200). -/
def PL_EQ_FOUND (i : Nat) : Fld := ⟨0x300008 + 0x40000 * (i / 256) + 0x100 * (i % 256), 8, 4, 0, .ro⟩
/-- `PL_EQ.FE_STEP`, RW (R200). -/
def PL_EQ_FE_STEP (i : Nat) : Fld := ⟨0x300008 + 0x40000 * (i / 256) + 0x100 * (i % 256), 12, 3, 3, .rw⟩
/-- `PLR_CFG.GCHK`, RW (R200). -/
def PLR_CFG_GCHK (i : Nat) : Fld := ⟨0x33f000 + 262144 * i, 0, 10, 100, .rw⟩
/-- `PLR_CFG.RETRIES`, RW (R200). -/
def PLR_CFG_RETRIES (i : Nat) : Fld := ⟨0x33f000 + 262144 * i, 10, 4, 3, .rw⟩
/-- `PL_ERR.CODE`, RC (R200). -/
def PL_ERR_CODE (i : Nat) : Fld := ⟨0x30000c + 0x40000 * (i / 256) + 0x100 * (i % 256), 0, 16, 0, .rc⟩
/-- `PL_ERR.RS_CORR`, RC (R200). -/
def PL_ERR_RS_CORR (i : Nat) : Fld := ⟨0x30000c + 0x40000 * (i / 256) + 0x100 * (i % 256), 16, 8, 0, .rc⟩
/-- `PL_ERR.RS_UNC`, RC (R200). -/
def PL_ERR_RS_UNC (i : Nat) : Fld := ⟨0x30000c + 0x40000 * (i / 256) + 0x100 * (i % 256), 24, 8, 0, .rc⟩
/-- `PL_SC.TIMEOUT`, RC (R200). -/
def PL_SC_TIMEOUT (i : Nat) : Fld := ⟨0x300010 + 0x40000 * (i / 256) + 0x100 * (i % 256), 0, 8, 0, .rc⟩
/-- `PL_SC.STRAY`, RC (R200). -/
def PL_SC_STRAY (i : Nat) : Fld := ⟨0x300010 + 0x40000 * (i / 256) + 0x100 * (i % 256), 8, 8, 0, .rc⟩
/-- `PL_SC.ERR_RESP`, RC (R200). -/
def PL_SC_ERR_RESP (i : Nat) : Fld := ⟨0x300010 + 0x40000 * (i / 256) + 0x100 * (i % 256), 16, 8, 0, .rc⟩
/-- `PL_SC.LAST_CODE`, RO (R200). -/
def PL_SC_LAST_CODE (i : Nat) : Fld := ⟨0x300010 + 0x40000 * (i / 256) + 0x100 * (i % 256), 24, 3, 0, .ro⟩
/-- `PL_UP.UPS`, RC (R200). -/
def PL_UP_UPS (i : Nat) : Fld := ⟨0x300014 + 0x40000 * (i / 256) + 0x100 * (i % 256), 0, 16, 0, .rc⟩
/-- `PL_UP.FALLS`, RC (R200). -/
def PL_UP_FALLS (i : Nat) : Fld := ⟨0x300014 + 0x40000 * (i / 256) + 0x100 * (i % 256), 16, 16, 0, .rc⟩
/-- `PL_GOLD.MATCH`, RO (R200). -/
def PL_GOLD_MATCH (i : Nat) : Fld := ⟨0x300018 + 0x40000 * (i / 256) + 0x100 * (i % 256), 0, 1, 0, .ro⟩
/-- `PL_GOLD.MISMATCH`, W1C (R200). -/
def PL_GOLD_MISMATCH (i : Nat) : Fld := ⟨0x300018 + 0x40000 * (i / 256) + 0x100 * (i % 256), 1, 1, 0, .w1c⟩
/-- `PL_GOLD.REPAIRS`, RC (R200). -/
def PL_GOLD_REPAIRS (i : Nat) : Fld := ⟨0x300018 + 0x40000 * (i / 256) + 0x100 * (i % 256), 8, 8, 0, .rc⟩
/-- `PL_GOLD.CHECKS`, RC (R200). -/
def PL_GOLD_CHECKS (i : Nat) : Fld := ⟨0x300018 + 0x40000 * (i / 256) + 0x100 * (i % 256), 16, 16, 0, .rc⟩
/-- `PL_PRBS_CTRL.PAT`, RW (R200). -/
def PL_PRBS_CTRL_PAT (i : Nat) : Fld := ⟨0x30001c + 0x40000 * (i / 256) + 0x100 * (i % 256), 0, 2, 2, .rw⟩
/-- `PL_PRBS_CTRL.DUR`, RW (R200). -/
def PL_PRBS_CTRL_DUR (i : Nat) : Fld := ⟨0x30001c + 0x40000 * (i / 256) + 0x100 * (i % 256), 3, 16, 250, .rw⟩
/-- `PL_PRBS_CTRL.LOCKED`, RO (R200). -/
def PL_PRBS_CTRL_LOCKED (i : Nat) : Fld := ⟨0x30001c + 0x40000 * (i / 256) + 0x100 * (i % 256), 19, 1, 0, .ro⟩
/-- `PL_PRBS_ERR.CNT`, RC (R200). -/
def PL_PRBS_ERR_CNT (i : Nat) : Fld := ⟨0x300020 + 0x40000 * (i / 256) + 0x100 * (i % 256), 0, 64, 0, .rc⟩
/-- `PL_INJ.GO`, WO (R200). -/
def PL_INJ_GO (i : Nat) : Fld := ⟨0x300028 + 0x40000 * (i / 256) + 0x100 * (i % 256), 0, 1, 0, .wo⟩
/-- `PL_INJ.BURST`, RW (R200). -/
def PL_INJ_BURST (i : Nat) : Fld := ⟨0x300028 + 0x40000 * (i / 256) + 0x100 * (i % 256), 1, 1, 0, .rw⟩
/-- `PL_INJ.LEN`, RW (R200). -/
def PL_INJ_LEN (i : Nat) : Fld := ⟨0x300028 + 0x40000 * (i / 256) + 0x100 * (i % 256), 2, 5, 1, .rw⟩
/-- `PL_INJ.TARGET`, RW (R200). -/
def PL_INJ_TARGET (i : Nat) : Fld := ⟨0x300028 + 0x40000 * (i / 256) + 0x100 * (i % 256), 7, 1, 0, .rw⟩
-- 06_ingest_and_hazel.md
/-- `PI_CTRL.STORE`, RW (R230). -/
def PI_CTRL_STORE (i : Nat) : Fld := ⟨0x300040 + 0x40000 * (i / 256) + 0x100 * (i % 256), 0, 1, 1, .rw⟩
/-- `PI_CTRL.MULT_EN`, RW (R230). -/
def PI_CTRL_MULT_EN (i : Nat) : Fld := ⟨0x300040 + 0x40000 * (i / 256) + 0x100 * (i % 256), 1, 1, 1, .rw⟩
/-- `PI_CTRL.CREV_EN`, RW (R230). -/
def PI_CTRL_CREV_EN (i : Nat) : Fld := ⟨0x300040 + 0x40000 * (i / 256) + 0x100 * (i % 256), 2, 1, 1, .rw⟩
/-- `PI_STAT.PRESENT`, RO (R230). -/
def PI_STAT_PRESENT (i : Nat) : Fld := ⟨0x300044 + 0x40000 * (i / 256) + 0x100 * (i % 256), 0, 1, 0, .ro⟩
/-- `PI_STAT.HUSK_MIS`, W1C (R230). -/
def PI_STAT_HUSK_MIS (i : Nat) : Fld := ⟨0x300044 + 0x40000 * (i / 256) + 0x100 * (i % 256), 1, 1, 0, .w1c⟩
/-- `PI_STAT.LATE`, W1C (R230). -/
def PI_STAT_LATE (i : Nat) : Fld := ⟨0x300044 + 0x40000 * (i / 256) + 0x100 * (i % 256), 2, 1, 0, .w1c⟩
/-- `PI_STAT.ECC_UNC`, W1C (R230). -/
def PI_STAT_ECC_UNC (i : Nat) : Fld := ⟨0x300044 + 0x40000 * (i / 256) + 0x100 * (i % 256), 3, 1, 0, .w1c⟩
/-- `PI_STAT.LOSTCW`, W1C (R230). -/
def PI_STAT_LOSTCW (i : Nat) : Fld := ⟨0x300044 + 0x40000 * (i / 256) + 0x100 * (i % 256), 4, 1, 0, .w1c⟩
/-- `PI_STAT.ABSENT`, W1C (R230). -/
def PI_STAT_ABSENT (i : Nat) : Fld := ⟨0x300044 + 0x40000 * (i / 256) + 0x100 * (i % 256), 5, 1, 0, .w1c⟩
/-- `PI_STAT.LAST_N`, RO (R230). -/
def PI_STAT_LAST_N (i : Nat) : Fld := ⟨0x300044 + 0x40000 * (i / 256) + 0x100 * (i % 256), 8, 9, 0, .ro⟩
/-- `PI_CNT0.LOST_CW`, RC (R230). -/
def PI_CNT0_LOST_CW (i : Nat) : Fld := ⟨0x300048 + 0x40000 * (i / 256) + 0x100 * (i % 256), 0, 16, 0, .rc⟩
/-- `PI_CNT0.ABSENT`, RC (R230). -/
def PI_CNT0_ABSENT (i : Nat) : Fld := ⟨0x300048 + 0x40000 * (i / 256) + 0x100 * (i % 256), 16, 16, 0, .rc⟩
/-- `PI_CNT1.HUSK_MIS`, RC (R230). -/
def PI_CNT1_HUSK_MIS (i : Nat) : Fld := ⟨0x30004c + 0x40000 * (i / 256) + 0x100 * (i % 256), 0, 8, 0, .rc⟩
/-- `PI_CNT1.LATE`, RC (R230). -/
def PI_CNT1_LATE (i : Nat) : Fld := ⟨0x30004c + 0x40000 * (i / 256) + 0x100 * (i % 256), 8, 8, 0, .rc⟩
/-- `PI_CNT1.ECC_CORR`, RC (R230). -/
def PI_CNT1_ECC_CORR (i : Nat) : Fld := ⟨0x30004c + 0x40000 * (i / 256) + 0x100 * (i % 256), 16, 8, 0, .rc⟩
/-- `PI_CNT1.ECC_UNC`, RC (R230). -/
def PI_CNT1_ECC_UNC (i : Nat) : Fld := ⟨0x30004c + 0x40000 * (i / 256) + 0x100 * (i % 256), 24, 8, 0, .rc⟩
/-- `PI_CNT2.NONOWNER`, RC (R230). -/
def PI_CNT2_NONOWNER (i : Nat) : Fld := ⟨0x300050 + 0x40000 * (i / 256) + 0x100 * (i % 256), 0, 16, 0, .rc⟩
/-- `PI_CNT2.BUDDROP`, RC (R230). -/
def PI_CNT2_BUDDROP (i : Nat) : Fld := ⟨0x300050 + 0x40000 * (i / 256) + 0x100 * (i % 256), 16, 16, 0, .rc⟩
/-- `PI_REC.CNT`, RO (R230). -/
def PI_REC_CNT (i : Nat) : Fld := ⟨0x300054 + 0x40000 * (i / 256) + 0x100 * (i % 256), 0, 64, 0, .ro⟩
/-- `PI_FEDROP.CNT`, RO (R230). -/
def PI_FEDROP_CNT (i : Nat) : Fld := ⟨0x30005c + 0x40000 * (i / 256) + 0x100 * (i % 256), 0, 64, 0, .ro⟩
/-- `PB_STAT.UPSET_SEEN`, W1C (R230). -/
def PB_STAT_UPSET_SEEN (i : Nat) : Fld := ⟨0x310000 + 0x40000 * (i / 16) + 0x100 * (i % 16), 0, 1, 0, .w1c⟩
/-- `PB_STAT.VFAIL_SEEN`, W1C (R230). -/
def PB_STAT_VFAIL_SEEN (i : Nat) : Fld := ⟨0x310000 + 0x40000 * (i / 16) + 0x100 * (i % 16), 1, 1, 0, .w1c⟩
/-- `PB_STAT.UPSET`, RC (R230). -/
def PB_STAT_UPSET (i : Nat) : Fld := ⟨0x310000 + 0x40000 * (i / 16) + 0x100 * (i % 16), 8, 8, 0, .rc⟩
/-- `PB_STAT.EXPAND`, RC (R230). -/
def PB_STAT_EXPAND (i : Nat) : Fld := ⟨0x310000 + 0x40000 * (i / 16) + 0x100 * (i % 16), 16, 16, 0, .rc⟩
/-- `PB_HZERR.ILLEGAL`, RC (R230). -/
def PB_HZERR_ILLEGAL (i : Nat) : Fld := ⟨0x310004 + 0x40000 * (i / 16) + 0x100 * (i % 16), 0, 8, 0, .rc⟩
/-- `PB_HZERR.DISTANCE`, RC (R230). -/
def PB_HZERR_DISTANCE (i : Nat) : Fld := ⟨0x310004 + 0x40000 * (i / 16) + 0x100 * (i % 16), 8, 8, 0, .rc⟩
/-- `PB_HZERR.OVERRUN`, RC (R230). -/
def PB_HZERR_OVERRUN (i : Nat) : Fld := ⟨0x310004 + 0x40000 * (i / 16) + 0x100 * (i % 16), 16, 8, 0, .rc⟩
/-- `PB_HZERR.MISMATCH`, RC (R230). -/
def PB_HZERR_MISMATCH (i : Nat) : Fld := ⟨0x310004 + 0x40000 * (i / 16) + 0x100 * (i % 16), 24, 8, 0, .rc⟩
/-- `PB_MULT.SUM`, RO (R230). -/
def PB_MULT_SUM (i : Nat) : Fld := ⟨0x310008 + 0x40000 * (i / 16) + 0x100 * (i % 16), 0, 17, 0, .ro⟩
/-- `PB_MULT.INC`, RO (R230). -/
def PB_MULT_INC (i : Nat) : Fld := ⟨0x310008 + 0x40000 * (i / 16) + 0x100 * (i % 16), 17, 1, 0, .ro⟩
/-- `PB_IN.CNT`, RO (R230). -/
def PB_IN_CNT (i : Nat) : Fld := ⟨0x31000c + 0x40000 * (i / 16) + 0x100 * (i % 16), 0, 64, 0, .ro⟩
/-- `PB_OUT.CNT`, RO (R230). -/
def PB_OUT_CNT (i : Nat) : Fld := ⟨0x310014 + 0x40000 * (i / 16) + 0x100 * (i % 16), 0, 64, 0, .ro⟩
/-- `RG_CTRL.HZ_EN`, RW (R230). -/
def RG_CTRL_HZ_EN (i : Nat) : Fld := ⟨0x320000 + 262144 * i, 0, 1, 1, .rw⟩
/-- `RG_CTRL.ADD_DROP`, RW (R230). -/
def RG_CTRL_ADD_DROP (i : Nat) : Fld := ⟨0x320000 + 262144 * i, 1, 1, 0, .rw⟩
/-- `RG_STAT.BUD_HIT`, W1C (R230). -/
def RG_STAT_BUD_HIT (i : Nat) : Fld := ⟨0x320004 + 262144 * i, 0, 1, 0, .w1c⟩
/-- `RG_STAT.UNC`, W1C (R230). -/
def RG_STAT_UNC (i : Nat) : Fld := ⟨0x320004 + 262144 * i, 1, 1, 0, .w1c⟩
/-- `RG_STAT.RESET_SEEN`, W1C (R230). -/
def RG_STAT_RESET_SEEN (i : Nat) : Fld := ⟨0x320004 + 262144 * i, 2, 1, 0, .w1c⟩
/-- `RG_STAT.BUD_DROP`, RC (R230). -/
def RG_STAT_BUD_DROP (i : Nat) : Fld := ⟨0x320004 + 262144 * i, 16, 16, 0, .rc⟩
/-- `RG_MULT.SUM`, RO (R230). -/
def RG_MULT_SUM (i : Nat) : Fld := ⟨0x320008 + 262144 * i, 0, 21, 0, .ro⟩
/-- `RG_MULT.INC`, RO (R230). -/
def RG_MULT_INC (i : Nat) : Fld := ⟨0x320008 + 262144 * i, 21, 1, 0, .ro⟩
/-- `RG_CREV.CNT`, RC (R230). -/
def RG_CREV_CNT (i : Nat) : Fld := ⟨0x32000c + 262144 * i, 0, 16, 0, .rc⟩
/-- `RG_PEAK.MAX`, RC (R230). -/
def RG_PEAK_MAX (i : Nat) : Fld := ⟨0x320010 + 262144 * i, 0, 19, 0, .rc⟩
/-- `RG_BYTES.CNT`, RO (R230). -/
def RG_BYTES_CNT (i : Nat) : Fld := ⟨0x320014 + 262144 * i, 0, 64, 0, .ro⟩
/-- `IG_MULT.SUM`, RO (R230). -/
def IG_MULT_SUM : Fld := ⟨0x33f800, 0, 23, 0, .ro⟩
/-- `IG_MULT.INC`, RO (R230). -/
def IG_MULT_INC : Fld := ⟨0x33f800, 23, 1, 0, .ro⟩
/-- `IG_STAT.LINKERR`, RC (R230). -/
def IG_STAT_LINKERR : Fld := ⟨0x33f804, 0, 8, 0, .rc⟩
/-- `IG_STAT.LINK_SEEN`, W1C (R230). -/
def IG_STAT_LINK_SEEN : Fld := ⟨0x33f804, 8, 1, 0, .w1c⟩
-- 07_firn_store.md
/-- `FRN_CTRL.QUOTA`, RW (R263). -/
def FRN_CTRL_QUOTA : Fld := ⟨0x400000, 0, 6, 25, .rw⟩
/-- `FRN_STAT.READY`, RO (R263). -/
def FRN_STAT_READY : Fld := ⟨0x400004, 0, 1, 0, .ro⟩
/-- `FRN_STAT.CFG_ERR`, W1C (R263). -/
def FRN_STAT_CFG_ERR : Fld := ⟨0x400004, 1, 1, 0, .w1c⟩
/-- `FRN_STAT.TRUNC_SEEN`, W1C (R263). -/
def FRN_STAT_TRUNC_SEEN : Fld := ⟨0x400004, 2, 1, 0, .w1c⟩
/-- `FRN_STAT.HZN_SEEN`, W1C (R263). -/
def FRN_STAT_HZN_SEEN : Fld := ⟨0x400004, 3, 1, 0, .w1c⟩
/-- `FRN_STAT.DAMAGED_SEEN`, W1C (R263). -/
def FRN_STAT_DAMAGED_SEEN : Fld := ⟨0x400004, 4, 1, 0, .w1c⟩
/-- `FRN_STAT.WFAIL_SEEN`, W1C (R263). -/
def FRN_STAT_WFAIL_SEEN : Fld := ⟨0x400004, 5, 1, 0, .w1c⟩
/-- `FRN_STAT.HIB`, RO (R263). -/
def FRN_STAT_HIB : Fld := ⟨0x400004, 6, 1, 0, .ro⟩
/-- `FRN_HEAD.SLICE`, RO (R263). -/
def FRN_HEAD_SLICE : Fld := ⟨0x400008, 0, 64, 0, .ro⟩
/-- `FRN_EDGE.SLICE`, RO (R263). -/
def FRN_EDGE_SLICE : Fld := ⟨0x400010, 0, 64, 0, .ro⟩
/-- `FRN_OLDEST.SLICE`, RO (R263). -/
def FRN_OLDEST_SLICE : Fld := ⟨0x400018, 0, 64, 0, .ro⟩
/-- `FRN_EVT.TRUNC`, RC (R263). -/
def FRN_EVT_TRUNC : Fld := ⟨0x400020, 0, 8, 0, .rc⟩
/-- `FRN_EVT.HZN`, RC (R263). -/
def FRN_EVT_HZN : Fld := ⟨0x400020, 8, 8, 0, .rc⟩
/-- `FRN_EVT.STEP_CALVE`, RC (R263). -/
def FRN_EVT_STEP_CALVE : Fld := ⟨0x400020, 16, 8, 0, .rc⟩
/-- `FRN_EVT.PIN_REFUSED`, RC (R263). -/
def FRN_EVT_PIN_REFUSED : Fld := ⟨0x400020, 24, 8, 0, .rc⟩
/-- `FRN_EVT2.SRAM_CORR`, RC (R263). -/
def FRN_EVT2_SRAM_CORR : Fld := ⟨0x400024, 0, 16, 0, .rc⟩
/-- `FRN_EVT2.SRAM_UNC`, RC (R263). -/
def FRN_EVT2_SRAM_UNC : Fld := ⟨0x400024, 16, 8, 0, .rc⟩
/-- `FRN_EVT2.NOSLICE`, RC (R263). -/
def FRN_EVT2_NOSLICE : Fld := ⟨0x400024, 24, 8, 0, .rc⟩
/-- `FRN_IX_SEL.IDX`, RW (R263). -/
def FRN_IX_SEL_IDX : Fld := ⟨0x400040, 0, 17, 0, .rw⟩
/-- `FRN_IX_DATA.D`, RO (R263). -/
def FRN_IX_DATA_D (i : Nat) : Fld := ⟨0x400080 + 4 * i, 0, 32, 0, .ro⟩
/-- `FRN_PIN_SEL.PIN`, RW (R263). -/
def FRN_PIN_SEL_PIN : Fld := ⟨0x4000c0, 0, 6, 0, .rw⟩
/-- `FRN_PIN_DATA0.ACTIVE`, RO (R263). -/
def FRN_PIN_DATA0_ACTIVE : Fld := ⟨0x4000c4, 0, 1, 0, .ro⟩
/-- `FRN_PIN_DATA0.TRUNC`, RO (R263). -/
def FRN_PIN_DATA0_TRUNC : Fld := ⟨0x4000c4, 1, 1, 0, .ro⟩
/-- `FRN_PIN_DATA0.PARTIAL`, RO (R263). -/
def FRN_PIN_DATA0_PARTIAL : Fld := ⟨0x4000c4, 2, 1, 0, .ro⟩
/-- `FRN_PIN_FIRST.SLICE`, RO (R263). -/
def FRN_PIN_FIRST_SLICE : Fld := ⟨0x4000c8, 0, 64, 0, .ro⟩
/-- `FRN_PIN_LAST.SLICE`, RO (R263). -/
def FRN_PIN_LAST_SLICE : Fld := ⟨0x4000d0, 0, 64, 0, .ro⟩
/-- `FRR_CFG.SCRATCH`, LK (R263). -/
def FRR_CFG_SCRATCH (i : Nat) : Fld := ⟨0x401000 + 4096 * i, 0, 9, 0, .lk⟩
/-- `FRR_CFG.AUTO_RETIRE`, RW (R263). -/
def FRR_CFG_AUTO_RETIRE (i : Nat) : Fld := ⟨0x401000 + 4096 * i, 9, 1, 1, .rw⟩
/-- `FRR_STAT.PINNED`, RO (R263). -/
def FRR_STAT_PINNED (i : Nat) : Fld := ⟨0x401004 + 4096 * i, 0, 17, 0, .ro⟩
/-- `FRR_STAT.RETIRED`, RO (R263). -/
def FRR_STAT_RETIRED (i : Nat) : Fld := ⟨0x401004 + 4096 * i, 17, 10, 0, .ro⟩
/-- `FRR_STAT.NO_EXTENT`, W1C (R263). -/
def FRR_STAT_NO_EXTENT (i : Nat) : Fld := ⟨0x401004 + 4096 * i, 27, 1, 0, .w1c⟩
/-- `FRR_STAT.READY`, RO (R263). -/
def FRR_STAT_READY (i : Nat) : Fld := ⟨0x401004 + 4096 * i, 28, 2, 0, .ro⟩
/-- `FRR_SCRUB.PERIOD`, RW (R263). -/
def FRR_SCRUB_PERIOD (i : Nat) : Fld := ⟨0x401008 + 4096 * i, 0, 16, 0x5a0, .rw⟩
/-- `FRR_SCRUB.HIB_MUL`, RW (R263). -/
def FRR_SCRUB_HIB_MUL (i : Nat) : Fld := ⟨0x401008 + 4096 * i, 16, 4, 4, .rw⟩
/-- `FRR_SCRUB_STAT.PROGRESS`, RO (R263). -/
def FRR_SCRUB_STAT_PROGRESS (i : Nat) : Fld := ⟨0x40100c + 4096 * i, 0, 7, 0, .ro⟩
/-- `FRR_SCRUB_STAT.SLOW`, W1C (R263). -/
def FRR_SCRUB_STAT_SLOW (i : Nat) : Fld := ⟨0x40100c + 4096 * i, 7, 1, 0, .w1c⟩
/-- `FRR_SCRUB_STAT.PASSES`, RO (R263). -/
def FRR_SCRUB_STAT_PASSES (i : Nat) : Fld := ⟨0x40100c + 4096 * i, 8, 16, 0, .ro⟩
/-- `FRR_CORR.CNT`, RC (R263). -/
def FRR_CORR_CNT (i : Nat) : Fld := ⟨0x401010 + 0x1000 * (i / 4) + 0x4 * (i % 4), 0, 32, 0, .rc⟩
/-- `FRR_UNC.CNT`, RC (R263). -/
def FRR_UNC_CNT (i : Nat) : Fld := ⟨0x401020 + 0x1000 * (i / 4) + 0x4 * (i % 4), 0, 32, 0, .rc⟩
/-- `FRR_RD.OUTST`, RO (R263). -/
def FRR_RD_OUTST (i : Nat) : Fld := ⟨0x401030 + 4096 * i, 0, 13, 0, .ro⟩
/-- `FRR_RD.FULL_SEEN`, W1C (R263). -/
def FRR_RD_FULL_SEEN (i : Nat) : Fld := ⟨0x401030 + 4096 * i, 13, 1, 0, .w1c⟩
/-- `FRR_RD.WAITS`, RC (R263). -/
def FRR_RD_WAITS (i : Nat) : Fld := ⟨0x401030 + 4096 * i, 16, 16, 0, .rc⟩
/-- `FRR_WR.PTR`, RO (R263). -/
def FRR_WR_PTR (i : Nat) : Fld := ⟨0x401034 + 4096 * i, 0, 17, 0, .ro⟩
/-- `FRR_WR.WFAIL`, RC (R263). -/
def FRR_WR_WFAIL (i : Nat) : Fld := ⟨0x401034 + 4096 * i, 17, 15, 0, .rc⟩
/-- `FRR_BAD.ADDR`, RO (R263). -/
def FRR_BAD_ADDR (i : Nat) : Fld := ⟨0x401038 + 4096 * i, 0, 64, 0, .ro⟩
/-- `FRR_XT_SEL.EXT`, RW (R263). -/
def FRR_XT_SEL_EXT (i : Nat) : Fld := ⟨0x401040 + 4096 * i, 0, 17, 0, .rw⟩
/-- `FRR_XT_SEL.OP`, WO (R263). -/
def FRR_XT_SEL_OP (i : Nat) : Fld := ⟨0x401040 + 4096 * i, 17, 2, 0, .wo⟩
/-- `FRR_XT_DATA.D`, RO (R263). -/
def FRR_XT_DATA_D (i : Nat) : Fld := ⟨0x401044 + 0x1000 * (i / 3) + 0x4 * (i % 3), 0, 32, 0, .ro⟩
/-- `FRR_LINES.CNT`, RO (R263). -/
def FRR_LINES_CNT (i : Nat) : Fld := ⟨0x401050 + 4096 * i, 0, 64, 0, .ro⟩
-- 08_triggers_and_cores.md
/-- `TRG_CTRL.MODE`, RW (R296). -/
def TRG_CTRL_MODE : Fld := ⟨0x500000, 0, 2, 1, .rw⟩
/-- `TRG_CTRL.ARM`, RW (R296). -/
def TRG_CTRL_ARM : Fld := ⟨0x500000, 2, 1, 0, .rw⟩
/-- `TRG_CTRL.SEQ_EN`, RW (R296). -/
def TRG_CTRL_SEQ_EN : Fld := ⟨0x500000, 3, 1, 0, .rw⟩
/-- `TRG_CTRL.REQ_EN`, RW (R296). -/
def TRG_CTRL_REQ_EN : Fld := ⟨0x500000, 4, 1, 1, .rw⟩
/-- `TRG_CTRL.PRIM_BLK`, RW (R296). -/
def TRG_CTRL_PRIM_BLK : Fld := ⟨0x500000, 5, 1, 0, .rw⟩
/-- `TRG_CTRL.PRIM_GRPS`, RW (R296). -/
def TRG_CTRL_PRIM_GRPS : Fld := ⟨0x500000, 6, 4, 1, .rw⟩
/-- `TRG_STAT.ARMED`, RO (R296). -/
def TRG_STAT_ARMED : Fld := ⟨0x500004, 0, 1, 0, .ro⟩
/-- `TRG_STAT.CFG_ERR`, W1C (R296). -/
def TRG_STAT_CFG_ERR : Fld := ⟨0x500004, 1, 1, 0, .w1c⟩
/-- `TRG_STAT.GAP_SEEN`, W1C (R296). -/
def TRG_STAT_GAP_SEEN : Fld := ⟨0x500004, 2, 1, 0, .w1c⟩
/-- `TRG_STAT.BUSY_SEEN`, W1C (R296). -/
def TRG_STAT_BUSY_SEEN : Fld := ⟨0x500004, 3, 1, 0, .w1c⟩
/-- `TRG_STAT.TRUNC_SEEN`, W1C (R296). -/
def TRG_STAT_TRUNC_SEEN : Fld := ⟨0x500004, 4, 1, 0, .w1c⟩
/-- `TRG_STAT.INFLIGHT`, RO (R296). -/
def TRG_STAT_INFLIGHT : Fld := ⟨0x500004, 5, 7, 0, .ro⟩
/-- `TRG_STAT.SEQ_STATE`, RO (R296). -/
def TRG_STAT_SEQ_STATE : Fld := ⟨0x500004, 12, 3, 0, .ro⟩
/-- `TRG_STAT.PWR_HELD`, RO (R296). -/
def TRG_STAT_PWR_HELD : Fld := ⟨0x500004, 15, 1, 0, .ro⟩
/-- `TRG_STAT.SRAM_CORR`, RC (R296). -/
def TRG_STAT_SRAM_CORR : Fld := ⟨0x500004, 16, 8, 0, .rc⟩
/-- `TRG_STAT.SRAM_UNC`, RC (R296). -/
def TRG_STAT_SRAM_UNC : Fld := ⟨0x500004, 24, 8, 0, .rc⟩
/-- `TRG_ARM_F.F`, RO (R296). -/
def TRG_ARM_F_F : Fld := ⟨0x500008, 0, 64, 0, .ro⟩
/-- `TRG_SERIAL.NEXT`, RO (R296). -/
def TRG_SERIAL_NEXT : Fld := ⟨0x50001c, 0, 32, 1, .ro⟩
/-- `TRG_CNT0.ACCEPT`, RC (R296). -/
def TRG_CNT0_ACCEPT : Fld := ⟨0x500010, 0, 16, 0, .rc⟩
/-- `TRG_CNT0.MERGED`, RC (R296). -/
def TRG_CNT0_MERGED : Fld := ⟨0x500010, 16, 16, 0, .rc⟩
/-- `TRG_CNT1.EARLY`, RC (R296). -/
def TRG_CNT1_EARLY : Fld := ⟨0x500014, 0, 8, 0, .rc⟩
/-- `TRG_CNT1.REARM`, RC (R296). -/
def TRG_CNT1_REARM : Fld := ⟨0x500014, 8, 8, 0, .rc⟩
/-- `TRG_CNT1.BUSY`, RC (R296). -/
def TRG_CNT1_BUSY : Fld := ⟨0x500014, 16, 8, 0, .rc⟩
/-- `TRG_CNT1.GONE`, RC (R296). -/
def TRG_CNT1_GONE : Fld := ⟨0x500014, 24, 8, 0, .rc⟩
/-- `TRG_CNT2.BADREQ`, RC (R296). -/
def TRG_CNT2_BADREQ : Fld := ⟨0x500018, 0, 8, 0, .rc⟩
/-- `TRG_CNT2.QFULL`, RC (R296). -/
def TRG_CNT2_QFULL : Fld := ⟨0x500018, 8, 8, 0, .rc⟩
/-- `TRG_CNT2.TIN_EXTRA`, RC (R296). -/
def TRG_CNT2_TIN_EXTRA : Fld := ⟨0x500018, 16, 8, 0, .rc⟩
/-- `TRG_CNT2.CLAMPED`, RC (R296). -/
def TRG_CNT2_CLAMPED : Fld := ⟨0x500018, 24, 8, 0, .rc⟩
/-- `TRG_STREAM.MARGIN`, RW (R296). -/
def TRG_STREAM_MARGIN : Fld := ⟨0x500020, 0, 8, 64, .rw⟩
/-- `TRG_STREAM.GRPS`, RW (R296). -/
def TRG_STREAM_GRPS : Fld := ⟨0x500020, 8, 4, 15, .rw⟩
/-- `TRG_STREAM_STAT.GAPS`, RC (R296). -/
def TRG_STREAM_STAT_GAPS : Fld := ⟨0x500024, 0, 16, 0, .rc⟩
/-- `TRG_STREAM_POS.SLICE`, RO (R296). -/
def TRG_STREAM_POS_SLICE : Fld := ⟨0x500028, 0, 64, 0, .ro⟩
/-- `TRG_ABORT.SLOT`, WO (R296). -/
def TRG_ABORT_SLOT : Fld := ⟨0x500030, 0, 6, 0, .wo⟩
/-- `TRG_ABORT.GO`, WO (R296). -/
def TRG_ABORT_GO : Fld := ⟨0x500030, 6, 1, 0, .wo⟩
/-- `TRG_REQQ.FILL`, RO (R296). -/
def TRG_REQQ_FILL : Fld := ⟨0x500034, 0, 7, 0, .ro⟩
/-- `TRG_NU_CFG.EN`, RW (R296). -/
def TRG_NU_CFG_EN (i : Nat) : Fld := ⟨0x500100 + 32 * i, 0, 1, 0, .rw⟩
/-- `TRG_NU_CFG.CORE`, RW (R296). -/
def TRG_NU_CFG_CORE (i : Nat) : Fld := ⟨0x500100 + 32 * i, 1, 1, 0, .rw⟩
/-- `TRG_NU_CFG.SEL`, RW (R296). -/
def TRG_NU_CFG_SEL (i : Nat) : Fld := ⟨0x500100 + 32 * i, 2, 7, 68, .rw⟩
/-- `TRG_NU_CFG.WM1`, RW (R296). -/
def TRG_NU_CFG_WM1 (i : Nat) : Fld := ⟨0x500100 + 32 * i, 9, 6, 0, .rw⟩
/-- `TRG_NU_LEVEL.LEVEL`, RW (R296). -/
def TRG_NU_LEVEL_LEVEL (i : Nat) : Fld := ⟨0x500104 + 32 * i, 0, 30, 0x3fffffff, .rw⟩
/-- `TRG_NU_HYST.HYST`, RW (R296). -/
def TRG_NU_HYST_HYST (i : Nat) : Fld := ⟨0x500108 + 32 * i, 0, 30, 0, .rw⟩
/-- `TRG_NU_VAL.V`, RO (R296). -/
def TRG_NU_VAL_V (i : Nat) : Fld := ⟨0x50010c + 32 * i, 0, 30, 0, .ro⟩
/-- `TRG_NU_VAL.INC`, RO (R296). -/
def TRG_NU_VAL_INC (i : Nat) : Fld := ⟨0x50010c + 32 * i, 30, 1, 0, .ro⟩
/-- `TRG_NU_VAL.HIGH`, RO (R296). -/
def TRG_NU_VAL_HIGH (i : Nat) : Fld := ⟨0x50010c + 32 * i, 31, 1, 0, .ro⟩
/-- `TRG_NU_CNT.CROSS`, RC (R296). -/
def TRG_NU_CNT_CROSS (i : Nat) : Fld := ⟨0x500110 + 32 * i, 0, 16, 0, .rc⟩
/-- `TRG_SRC_PRE.PRE`, RW (R296). -/
def TRG_SRC_PRE_PRE (i : Nat) : Fld := ⟨0x500400 + 16 * i, 0, 20, 250, .rw⟩
/-- `TRG_SRC_POST.POST`, RW (R296). -/
def TRG_SRC_POST_POST (i : Nat) : Fld := ⟨0x500404 + 16 * i, 0, 20, 250, .rw⟩
/-- `TRG_SRC_REARM.REARM`, RW (R296). -/
def TRG_SRC_REARM_REARM (i : Nat) : Fld := ⟨0x500408 + 16 * i, 0, 20, 0, .rw⟩
/-- `TRG_SRC_REARM.MERGE`, RW (R296). -/
def TRG_SRC_REARM_MERGE (i : Nat) : Fld := ⟨0x500408 + 16 * i, 20, 1, 0, .rw⟩
/-- `TRG_SRC_REARM.EN`, RW (R296). -/
def TRG_SRC_REARM_EN (i : Nat) : Fld := ⟨0x500408 + 16 * i, 21, 1, 0, .rw⟩
/-- `TRG_SRC_PORTS.FIRST`, RW (R296). -/
def TRG_SRC_PORTS_FIRST (i : Nat) : Fld := ⟨0x50040c + 16 * i, 0, 10, 0, .rw⟩
/-- `TRG_SRC_PORTS.LAST`, RW (R296). -/
def TRG_SRC_PORTS_LAST (i : Nat) : Fld := ⟨0x50040c + 16 * i, 16, 10, 0x3ff, .rw⟩
/-- `TRG_SEQ_LO.COND`, RW (R296). -/
def TRG_SEQ_LO_COND (i : Nat) : Fld := ⟨0x500600 + 8 * i, 0, 5, 25, .rw⟩
/-- `TRG_SEQ_LO.NEXT`, RW (R296). -/
def TRG_SEQ_LO_NEXT (i : Nat) : Fld := ⟨0x500600 + 8 * i, 5, 3, 0, .rw⟩
/-- `TRG_SEQ_LO.FAIL`, RW (R296). -/
def TRG_SEQ_LO_FAIL (i : Nat) : Fld := ⟨0x500600 + 8 * i, 8, 3, 0, .rw⟩
/-- `TRG_SEQ_LO.FIRE`, RW (R296). -/
def TRG_SEQ_LO_FIRE (i : Nat) : Fld := ⟨0x500600 + 8 * i, 11, 1, 0, .rw⟩
/-- `TRG_SEQ_LO.COUNT`, RW (R296). -/
def TRG_SEQ_LO_COUNT (i : Nat) : Fld := ⟨0x500600 + 8 * i, 16, 16, 1, .rw⟩
/-- `TRG_SEQ_HI.TIMEOUT`, RW (R296). -/
def TRG_SEQ_HI_TIMEOUT (i : Nat) : Fld := ⟨0x500604 + 8 * i, 0, 16, 0, .rw⟩
/-- `TRG_SEQ_HI.DELAY`, RW (R296). -/
def TRG_SEQ_HI_DELAY (i : Nat) : Fld := ⟨0x500604 + 8 * i, 16, 16, 0, .rw⟩
/-- `TRG_CORE_STAT.ACTIVE`, RO (R296). -/
def TRG_CORE_STAT_ACTIVE (i : Nat) : Fld := ⟨0x500800 + 16 * i, 0, 1, 0, .ro⟩
/-- `TRG_CORE_STAT.READING`, RO (R296). -/
def TRG_CORE_STAT_READING (i : Nat) : Fld := ⟨0x500800 + 16 * i, 1, 1, 0, .ro⟩
/-- `TRG_CORE_STAT.TRUNC`, RO (R296). -/
def TRG_CORE_STAT_TRUNC (i : Nat) : Fld := ⟨0x500800 + 16 * i, 2, 1, 0, .ro⟩
/-- `TRG_CORE_STAT.CLAMPED`, RO (R296). -/
def TRG_CORE_STAT_CLAMPED (i : Nat) : Fld := ⟨0x500800 + 16 * i, 3, 1, 0, .ro⟩
/-- `TRG_CORE_STAT.PARTIAL`, RO (R296). -/
def TRG_CORE_STAT_PARTIAL (i : Nat) : Fld := ⟨0x500800 + 16 * i, 4, 1, 0, .ro⟩
/-- `TRG_CORE_STAT.SOURCE`, RO (R296). -/
def TRG_CORE_STAT_SOURCE (i : Nat) : Fld := ⟨0x500800 + 16 * i, 5, 5, 0, .ro⟩
/-- `TRG_CORE_STAT.MERGES`, RO (R296). -/
def TRG_CORE_STAT_MERGES (i : Nat) : Fld := ⟨0x500800 + 16 * i, 10, 8, 0, .ro⟩
/-- `TRG_CORE_SER.SERIAL`, RO (R296). -/
def TRG_CORE_SER_SERIAL (i : Nat) : Fld := ⟨0x500804 + 16 * i, 0, 32, 0, .ro⟩
/-- `TRG_CORE_LAST.F`, RO (R296). -/
def TRG_CORE_LAST_F (i : Nat) : Fld := ⟨0x500808 + 16 * i, 0, 64, 0, .ro⟩
-- 09_floe_uplinks_and_queues.md
/-- `UPL_CTRL.RESTORE`, WO (R322). -/
def UPL_CTRL_RESTORE : Fld := ⟨0x600000, 0, 1, 0, .wo⟩
/-- `UPL_CFG.VER_MASK`, LK (R322). -/
def UPL_CFG_VER_MASK : Fld := ⟨0x600004, 0, 2, 3, .lk⟩
/-- `UPL_CFG.MONLOG_GRPS`, RW (R322). -/
def UPL_CFG_MONLOG_GRPS : Fld := ⟨0x600004, 2, 4, 1, .rw⟩
/-- `UPL_CFG.SILENT`, RW (R322). -/
def UPL_CFG_SILENT : Fld := ⟨0x600004, 8, 6, 30, .rw⟩
/-- `UPL_STAT.OUT`, RO (R322). -/
def UPL_STAT_OUT : Fld := ⟨0x600008, 0, 32, 0, .ro⟩
/-- `UPL_LMAP.GROUP`, LK (R322). -/
def UPL_LMAP_GROUP (i : Nat) (n : Nat) : Fld := ⟨0x600010 + 4 * i, 4 * n, 2, i, .lk⟩
/-- `UPL_LMAP.EN`, LK (R322). -/
def UPL_LMAP_EN (i : Nat) (n : Nat) : Fld := ⟨0x600010 + 4 * i, 4 * n + 2, 1, 1, .lk⟩
/-- `UG_STAT.STATE`, RO (R322). -/
def UG_STAT_STATE (i : Nat) : Fld := ⟨0x600100 + 256 * i, 0, 2, 0, .ro⟩
/-- `UG_STAT.VER`, RO (R322). -/
def UG_STAT_VER (i : Nat) : Fld := ⟨0x600100 + 256 * i, 2, 2, 0, .ro⟩
/-- `UG_STAT.LANES`, RO (R322). -/
def UG_STAT_LANES (i : Nat) : Fld := ⟨0x600100 + 256 * i, 4, 6, 0, .ro⟩
/-- `UG_STAT.BE_SILENT`, RO (R322). -/
def UG_STAT_BE_SILENT (i : Nat) : Fld := ⟨0x600100 + 256 * i, 10, 1, 1, .ro⟩
/-- `UG_STAT.LANE_LOST`, W1C (R322). -/
def UG_STAT_LANE_LOST (i : Nat) : Fld := ⟨0x600100 + 256 * i, 11, 1, 0, .w1c⟩
/-- `UG_STAT.VER_CHG`, W1C (R322). -/
def UG_STAT_VER_CHG (i : Nat) : Fld := ⟨0x600100 + 256 * i, 12, 1, 0, .w1c⟩
/-- `UG_CNT.HELLO`, RC (R322). -/
def UG_CNT_HELLO (i : Nat) : Fld := ⟨0x600104 + 256 * i, 0, 16, 0, .rc⟩
/-- `UG_CNT.VER_REFUSE`, RC (R322). -/
def UG_CNT_VER_REFUSE (i : Nat) : Fld := ⟨0x600104 + 256 * i, 16, 8, 0, .rc⟩
/-- `UG_BYTES.CNT`, RO (R322). -/
def UG_BYTES_CNT (i : Nat) : Fld := ⟨0x600108 + 256 * i, 0, 64, 0, .ro⟩
/-- `UQ_CFG.WM`, RW (R322). -/
def UQ_CFG_WM (i : Nat) : Fld := ⟨0x600140 + 0x100 * (i / 5) + 0x20 * (i % 5), 0, 18, uqWmReset i, .rw⟩
/-- `UQ_CFG.STALE`, RW (R322). -/
def UQ_CFG_STALE (i : Nat) : Fld := ⟨0x600140 + 0x100 * (i / 5) + 0x20 * (i % 5), 18, 14, 10, .rw⟩
/-- `UQ_CTRL.FLUSH`, WO (R322). -/
def UQ_CTRL_FLUSH (i : Nat) : Fld := ⟨0x600144 + 0x100 * (i / 5) + 0x20 * (i % 5), 0, 1, 0, .wo⟩
/-- `UQ_STAT.LEVEL`, RO (R322). -/
def UQ_STAT_LEVEL (i : Nat) : Fld := ⟨0x600148 + 0x100 * (i / 5) + 0x20 * (i % 5), 0, 18, 0, .ro⟩
/-- `UQ_STAT.WM_NOW`, RO (R322). -/
def UQ_STAT_WM_NOW (i : Nat) : Fld := ⟨0x600148 + 0x100 * (i / 5) + 0x20 * (i % 5), 18, 1, 0, .ro⟩
/-- `UQ_STAT.WM_SEEN`, W1C (R322). -/
def UQ_STAT_WM_SEEN (i : Nat) : Fld := ⟨0x600148 + 0x100 * (i / 5) + 0x20 * (i % 5), 19, 1, 0, .w1c⟩
/-- `UQ_STAT.FULL_SEEN`, W1C (R322). -/
def UQ_STAT_FULL_SEEN (i : Nat) : Fld := ⟨0x600148 + 0x100 * (i / 5) + 0x20 * (i % 5), 20, 1, 0, .w1c⟩
/-- `UQ_STAT.STALE_SEEN`, W1C (R322). -/
def UQ_STAT_STALE_SEEN (i : Nat) : Fld := ⟨0x600148 + 0x100 * (i / 5) + 0x20 * (i % 5), 21, 1, 0, .w1c⟩
/-- `UQ_STAT.UNC_SEEN`, W1C (R322). -/
def UQ_STAT_UNC_SEEN (i : Nat) : Fld := ⟨0x600148 + 0x100 * (i / 5) + 0x20 * (i % 5), 22, 1, 0, .w1c⟩
/-- `UQ_STAT.OPEN`, RO (R322). -/
def UQ_STAT_OPEN (i : Nat) : Fld := ⟨0x600148 + 0x100 * (i / 5) + 0x20 * (i % 5), 23, 1, 0, .ro⟩
/-- `UQ_PKTS.PKTS`, RO (R322). -/
def UQ_PKTS_PKTS (i : Nat) : Fld := ⟨0x60014c + 0x100 * (i / 5) + 0x20 * (i % 5), 0, 16, 0, .ro⟩
/-- `UQ_ERR.CORR`, RC (R322). -/
def UQ_ERR_CORR (i : Nat) : Fld := ⟨0x600150 + 0x100 * (i / 5) + 0x20 * (i % 5), 0, 8, 0, .rc⟩
/-- `UQ_ERR.UNC`, RC (R322). -/
def UQ_ERR_UNC (i : Nat) : Fld := ⟨0x600150 + 0x100 * (i / 5) + 0x20 * (i % 5), 8, 8, 0, .rc⟩
/-- `UQ_ERR.STALE`, RC (R322). -/
def UQ_ERR_STALE (i : Nat) : Fld := ⟨0x600150 + 0x100 * (i / 5) + 0x20 * (i % 5), 16, 8, 0, .rc⟩
/-- `UQ_ERR.DROPPED`, RC (R322). -/
def UQ_ERR_DROPPED (i : Nat) : Fld := ⟨0x600150 + 0x100 * (i / 5) + 0x20 * (i % 5), 24, 8, 0, .rc⟩
/-- `UQ_PUSH.D`, WO (R322). -/
def UQ_PUSH_D (i : Nat) : Fld := ⟨0x600154 + 0x100 * (i / 5) + 0x20 * (i % 5), 0, 64, 0, .wo⟩
/-- `UQ_PUSH_TAG.END`, RW (R322). -/
def UQ_PUSH_TAG_END (i : Nat) : Fld := ⟨0x60015c + 0x100 * (i / 5) + 0x20 * (i % 5), 0, 1, 0, .rw⟩
/-- `UR_CFG.GROUP`, LK (R322). -/
def UR_CFG_GROUP (i : Nat) : Fld := ⟨0x600600 + 16 * i, 0, 2, i / 2, .lk⟩
/-- `UR_STAT.STATE`, RO (R322). -/
def UR_STAT_STATE (i : Nat) : Fld := ⟨0x600604 + 16 * i, 0, 2, 0, .ro⟩
/-- `UR_STAT.LOST`, W1C (R322). -/
def UR_STAT_LOST (i : Nat) : Fld := ⟨0x600604 + 16 * i, 2, 1, 0, .w1c⟩
/-- `UR_CNT.CTRL`, RC (R322). -/
def UR_CNT_CTRL (i : Nat) : Fld := ⟨0x600608 + 16 * i, 0, 16, 0, .rc⟩
/-- `UR_CNT.RS_UNC`, RC (R322). -/
def UR_CNT_RS_UNC (i : Nat) : Fld := ⟨0x600608 + 16 * i, 16, 8, 0, .rc⟩
/-- `UR_CNT.DISCARD`, RC (R322). -/
def UR_CNT_DISCARD (i : Nat) : Fld := ⟨0x600608 + 16 * i, 24, 8, 0, .rc⟩
/-- `UIQ_STAT.LEVEL`, RO (R322). -/
def UIQ_STAT_LEVEL : Fld := ⟨0x600700, 0, 14, 0, .ro⟩
/-- `UIQ_STAT.FULL_SEEN`, W1C (R322). -/
def UIQ_STAT_FULL_SEEN : Fld := ⟨0x600700, 14, 1, 0, .w1c⟩
/-- `UIQ_STAT.PKTS`, RO (R322). -/
def UIQ_STAT_PKTS : Fld := ⟨0x600700, 16, 8, 0, .ro⟩
/-- `UIQ_STAT.DROPPED`, RC (R322). -/
def UIQ_STAT_DROPPED : Fld := ⟨0x600700, 24, 8, 0, .rc⟩
/-- `UIQ_POP.D`, RO (R322). -/
def UIQ_POP_D : Fld := ⟨0x600704, 0, 64, 0, .ro⟩
/-- `UIQ_TAG.VALID`, RO (R322). -/
def UIQ_TAG_VALID : Fld := ⟨0x60070c, 0, 1, 0, .ro⟩
/-- `UIQ_TAG.END`, RO (R322). -/
def UIQ_TAG_END : Fld := ⟨0x60070c, 1, 1, 0, .ro⟩
/-- `UIQ_TAG.LANE`, RO (R322). -/
def UIQ_TAG_LANE : Fld := ⟨0x60070c, 2, 3, 0, .ro⟩
-- 10_service_fabric.md
/-- `SP_STAT.RUN`, RO (R351). -/
def SP_STAT_RUN : Fld := ⟨0x100800, 0, 1, 0, .ro⟩
/-- `SP_STAT.LSERR`, W1CS (R351). -/
def SP_STAT_LSERR : Fld := ⟨0x100800, 1, 1, 0, .w1cs⟩
/-- `SP_STAT.FROZEN`, RO (R351). -/
def SP_STAT_FROZEN : Fld := ⟨0x100800, 2, 1, 0, .ro⟩
/-- `SP_WDOG.KICK`, WO (R351). -/
def SP_WDOG_KICK : Fld := ⟨0x100804, 0, 1, 0, .wo⟩
/-- `SP_EVT.LSERR`, RC (R351). -/
def SP_EVT_LSERR : Fld := ⟨0x100808, 0, 8, 0, .rc⟩
/-- `SP_EVT.TRAPS`, RC (R351). -/
def SP_EVT_TRAPS : Fld := ⟨0x100808, 8, 8, 0, .rc⟩
/-- `SP_EVT.WDOG`, RC (R351). -/
def SP_EVT_WDOG : Fld := ⟨0x100808, 16, 8, 0, .rc⟩
/-- `SP_EVT.DUP`, RC (R351). -/
def SP_EVT_DUP : Fld := ⟨0x100808, 24, 8, 0, .rc⟩
/-- `CR_STAT.CORR`, RC (R351). -/
def CR_STAT_CORR : Fld := ⟨0x100810, 0, 16, 0, .rc⟩
/-- `CR_STAT.UNC`, RC (R351). -/
def CR_STAT_UNC : Fld := ⟨0x100810, 16, 8, 0, .rc⟩
/-- `CR_STAT.CLEAN`, RO (R351). -/
def CR_STAT_CLEAN : Fld := ⟨0x100810, 24, 1, 0, .ro⟩
/-- `CR_BAD.ADDR`, RO (R351). -/
def CR_BAD_ADDR : Fld := ⟨0x100814, 0, 20, 0, .ro⟩
/-- `CR_PASS.CNT`, RO (R351). -/
def CR_PASS_CNT : Fld := ⟨0x100818, 0, 16, 0, .ro⟩
/-- `MV_CTRL.CLEAR`, WO (R352). -/
def MV_CTRL_CLEAR : Fld := ⟨0x700000, 0, 1, 0, .wo⟩
/-- `MV_CTRL.QTMO`, RW (R352). -/
def MV_CTRL_QTMO : Fld := ⟨0x700000, 8, 8, 100, .rw⟩
/-- `MV_STAT.STOP`, W1C (R352). -/
def MV_STAT_STOP : Fld := ⟨0x700004, 0, 1, 0, .w1c⟩
/-- `MV_STAT.BUSY`, RO (R352). -/
def MV_STAT_BUSY : Fld := ⟨0x700004, 16, 16, 0, .ro⟩
/-- `MV_ERR.CH`, RO (R352). -/
def MV_ERR_CH : Fld := ⟨0x700008, 0, 4, 0, .ro⟩
/-- `MV_ERR.STATUS`, RO (R352). -/
def MV_ERR_STATUS : Fld := ⟨0x700008, 4, 5, 0, .ro⟩
/-- `MV_ERR.ALL`, RO (R352). -/
def MV_ERR_ALL : Fld := ⟨0x700008, 9, 1, 0, .ro⟩
/-- `MV_ERRADDR.ADDR`, RO (R352). -/
def MV_ERRADDR_ADDR : Fld := ⟨0x70000c, 0, 64, 0, .ro⟩
/-- `MV_NOTE.N`, W1C (R352). -/
def MV_NOTE_N : Fld := ⟨0x700014, 0, 32, 0, .w1c⟩
/-- `MV_TMR.PERIOD`, RW (R352). -/
def MV_TMR_PERIOD (i : Nat) : Fld := ⟨0x700020 + 4 * i, 0, 32, 0, .rw⟩
/-- `MV_CH_CTRL.START`, WO (R352). -/
def MV_CH_CTRL_START (i : Nat) : Fld := ⟨0x700100 + 32 * i, 0, 1, 0, .wo⟩
/-- `MV_CH_CTRL.KICK`, WO (R352). -/
def MV_CH_CTRL_KICK (i : Nat) : Fld := ⟨0x700100 + 32 * i, 1, 1, 0, .wo⟩
/-- `MV_CH_CTRL.ABORT`, WO (R352). -/
def MV_CH_CTRL_ABORT (i : Nat) : Fld := ⟨0x700100 + 32 * i, 2, 1, 0, .wo⟩
/-- `MV_CH_CFG.BURST`, RW (R352). -/
def MV_CH_CFG_BURST (i : Nat) : Fld := ⟨0x700104 + 32 * i, 0, 24, 0x1000, .rw⟩
/-- `MV_CH_CFG.PTMO`, RW (R352). -/
def MV_CH_CFG_PTMO (i : Nat) : Fld := ⟨0x700104 + 32 * i, 24, 8, 100, .rw⟩
/-- `MV_CH_STAT.STATE`, RO (R352). -/
def MV_CH_STAT_STATE (i : Nat) : Fld := ⟨0x700108 + 32 * i, 0, 3, 0, .ro⟩
/-- `MV_CH_STAT.STATUS`, RO (R352). -/
def MV_CH_STAT_STATUS (i : Nat) : Fld := ⟨0x700108 + 32 * i, 3, 5, 0, .ro⟩
/-- `MV_CH_STAT.PENDING`, RO (R352). -/
def MV_CH_STAT_PENDING (i : Nat) : Fld := ⟨0x700108 + 32 * i, 8, 8, 0, .ro⟩
/-- `MV_CH_STAT.MISSED`, RC (R352). -/
def MV_CH_STAT_MISSED (i : Nat) : Fld := ⟨0x700108 + 32 * i, 16, 8, 0, .rc⟩
/-- `MV_CH_CUR.IDX`, RW (R352). -/
def MV_CH_CUR_IDX (i : Nat) : Fld := ⟨0x70010c + 32 * i, 0, 15, 0, .rw⟩
/-- `MV_CH_DONE.BYTES`, RO (R352). -/
def MV_CH_DONE_BYTES (i : Nat) : Fld := ⟨0x700110 + 32 * i, 0, 24, 0, .ro⟩
/-- `MV_CH_CRC.CRC`, RO (R352). -/
def MV_CH_CRC_CRC (i : Nat) : Fld := ⟨0x700114 + 32 * i, 0, 32, 0, .ro⟩
/-- `FWL_CTRL.BK_THAW`, RW (R353). -/
def FWL_CTRL_BK_THAW : Fld := ⟨0x800000, 0, 1, 1, .rw⟩
/-- `FWL_STAT.FROZEN`, RO (R353). -/
def FWL_STAT_FROZEN : Fld := ⟨0x800004, 0, 20, 0, .ro⟩
/-- `FWL_STAT.VIOL`, W1C (R353). -/
def FWL_STAT_VIOL : Fld := ⟨0x800004, 20, 1, 0, .w1c⟩
/-- `FWL_THAW.MASTER`, WO (R353). -/
def FWL_THAW_MASTER : Fld := ⟨0x800008, 0, 5, 0, .wo⟩
/-- `FWL_THAW.GO`, WO (R353). -/
def FWL_THAW_GO : Fld := ⟨0x800008, 5, 1, 0, .wo⟩
/-- `FWL_LOG0.MASTER`, RO (R353). -/
def FWL_LOG0_MASTER : Fld := ⟨0x800010, 0, 5, 0, .ro⟩
/-- `FWL_LOG0.SPACE`, RO (R353). -/
def FWL_LOG0_SPACE : Fld := ⟨0x800010, 5, 2, 0, .ro⟩
/-- `FWL_LOG0.TYPE`, RO (R353). -/
def FWL_LOG0_TYPE : Fld := ⟨0x800010, 7, 2, 0, .ro⟩
/-- `FWL_LOG1.KEY`, RO (R353). -/
def FWL_LOG1_KEY : Fld := ⟨0x800014, 0, 32, 0, .ro⟩
/-- `FWL_LOG2.NS`, RO (R353). -/
def FWL_LOG2_NS : Fld := ⟨0x800018, 0, 32, 0, .ro⟩
/-- `FWL_LOG3.SEC`, RO (R353). -/
def FWL_LOG3_SEC : Fld := ⟨0x80001c, 0, 32, 0, .ro⟩
/-- `FWL_CNT.VIOL`, RC (R353). -/
def FWL_CNT_VIOL : Fld := ⟨0x800020, 0, 16, 0, .rc⟩
/-- `FWL_WBASE.BASE`, RW (R353). -/
def FWL_WBASE_BASE (i : Nat) : Fld := ⟨0x801000 + 0x100 * (i / 8) + 0x10 * (i % 8), 0, 32, fwlReset 0 i, .lkSp⟩
/-- `FWL_WLIM.LIMIT`, RW (R353). -/
def FWL_WLIM_LIMIT (i : Nat) : Fld := ⟨0x801004 + 0x100 * (i / 8) + 0x10 * (i % 8), 0, 32, fwlReset 1 i, .lkSp⟩
/-- `FWL_WATTR.EN`, RW (R353). -/
def FWL_WATTR_EN (i : Nat) : Fld := ⟨0x801008 + 0x100 * (i / 8) + 0x10 * (i % 8), 0, 1, fwlReset 2 i, .lkSp⟩
/-- `FWL_WATTR.R`, RW (R353). -/
def FWL_WATTR_R (i : Nat) : Fld := ⟨0x801008 + 0x100 * (i / 8) + 0x10 * (i % 8), 1, 1, fwlReset 3 i, .lkSp⟩
/-- `FWL_WATTR.W`, RW (R353). -/
def FWL_WATTR_W (i : Nat) : Fld := ⟨0x801008 + 0x100 * (i / 8) + 0x10 * (i % 8), 2, 1, fwlReset 4 i, .lkSp⟩
/-- `FWL_WATTR.X`, RW (R353). -/
def FWL_WATTR_X (i : Nat) : Fld := ⟨0x801008 + 0x100 * (i / 8) + 0x10 * (i % 8), 3, 1, fwlReset 5 i, .lkSp⟩
/-- `FWL_WATTR.SPACE`, RW (R353). -/
def FWL_WATTR_SPACE (i : Nat) : Fld := ⟨0x801008 + 0x100 * (i / 8) + 0x10 * (i % 8), 4, 2, fwlReset 6 i, .lkSp⟩
-- 11_start_update_states.md
/-- `GLB_ID.ID`, RO (R382). -/
def GLB_ID_ID : Fld := ⟨0x100000, 0, 32, 0xdc10240b, .ro⟩
/-- `GLB_CID.CID`, RO (R382). -/
def GLB_CID_CID : Fld := ⟨0x100004, 0, 8, 0, .ro⟩
/-- `GLB_STAT.READY`, RO (R382). -/
def GLB_STAT_READY : Fld := ⟨0x100008, 0, 1, 0, .ro⟩
/-- `GLB_STAT.STATE`, RO (R382). -/
def GLB_STAT_STATE : Fld := ⟨0x100008, 1, 3, 0, .ro⟩
/-- `GLB_STAT.TRANS`, RO (R382). -/
def GLB_STAT_TRANS : Fld := ⟨0x100008, 4, 1, 0, .ro⟩
/-- `GLB_STAT.LOCKOUT`, RO (R382). -/
def GLB_STAT_LOCKOUT : Fld := ⟨0x100008, 5, 1, 0, .ro⟩
/-- `GLB_STAT.CFG_DEFAULT`, RO (R382). -/
def GLB_STAT_CFG_DEFAULT : Fld := ⟨0x100008, 6, 1, 0, .ro⟩
/-- `GLB_STAT.CFG_FIX`, W1C (R382). -/
def GLB_STAT_CFG_FIX : Fld := ⟨0x100008, 7, 1, 0, .w1c⟩
/-- `GLB_STAT.RCAUSE`, RO (R382). -/
def GLB_STAT_RCAUSE : Fld := ⟨0x100008, 8, 3, 0, .ro⟩
/-- `GLB_STAT.RECOVERY`, RO (R382). -/
def GLB_STAT_RECOVERY : Fld := ⟨0x100008, 11, 1, 0, .ro⟩
/-- `GLB_STAT.SLOT_FALLBACK`, W1C (R382). -/
def GLB_STAT_SLOT_FALLBACK : Fld := ⟨0x100008, 12, 1, 0, .w1c⟩
/-- `GLB_PWR.REQ`, RW (R382). -/
def GLB_PWR_REQ : Fld := ⟨0x10000c, 0, 2, 0, .rw⟩
/-- `GLB_RST.SOFT`, WO (R382). -/
def GLB_RST_SOFT : Fld := ⟨0x100010, 0, 1, 0, .wo⟩
/-- `GLB_RST.REGION`, WO (R382). -/
def GLB_RST_REGION : Fld := ⟨0x100010, 4, 4, 0, .wo⟩
/-- `GLB_RST.KEY`, WO (R382). -/
def GLB_RST_KEY : Fld := ⟨0x100010, 16, 16, 0, .wo⟩
/-- `GLB_START.READY_MS`, RO (R382). -/
def GLB_START_READY_MS : Fld := ⟨0x100014, 0, 12, 0, .ro⟩
/-- `GLB_START.PORTS_UP`, RO (R382). -/
def GLB_START_PORTS_UP : Fld := ⟨0x100014, 12, 11, 0, .ro⟩
/-- `GLB_START.CFG_FIXES`, RO (R382). -/
def GLB_START_CFG_FIXES : Fld := ⟨0x100014, 23, 9, 0, .ro⟩
/-- `NVM_STAT.BUSY`, RO (R382). -/
def NVM_STAT_BUSY : Fld := ⟨0xb00000, 0, 1, 0, .ro⟩
/-- `NVM_STAT.JRECOV`, W1C (R382). -/
def NVM_STAT_JRECOV : Fld := ⟨0xb00000, 1, 1, 0, .w1c⟩
/-- `NVM_STAT.LATCH_FIX`, W1C (R382). -/
def NVM_STAT_LATCH_FIX : Fld := ⟨0xb00000, 2, 1, 0, .w1c⟩
/-- `NVM_STAT.SPARE_USED`, RO (R382). -/
def NVM_STAT_SPARE_USED : Fld := ⟨0xb00000, 8, 7, 0, .ro⟩
/-- `NVM_STAT.PROG_ERR`, RC (R382). -/
def NVM_STAT_PROG_ERR : Fld := ⟨0xb00000, 16, 16, 0, .rc⟩
/-- `NVM_SLOT.ACTIVE`, RO (R382). -/
def NVM_SLOT_ACTIVE : Fld := ⟨0xb00004, 0, 1, 0, .ro⟩
/-- `NVM_SLOT.S0`, RO (R382). -/
def NVM_SLOT_S0 : Fld := ⟨0xb00004, 1, 3, 0, .ro⟩
/-- `NVM_SLOT.S1`, RO (R382). -/
def NVM_SLOT_S1 : Fld := ⟨0xb00004, 4, 3, 0, .ro⟩
/-- `NVM_SLOT.TRIAL`, RO (R382). -/
def NVM_SLOT_TRIAL : Fld := ⟨0xb00004, 7, 1, 0, .ro⟩
/-- `NVM_SLOT.TRIAL_LEFT`, RO (R382). -/
def NVM_SLOT_TRIAL_LEFT : Fld := ⟨0xb00004, 8, 10, 0, .ro⟩
/-- `NVM_VER.VER`, RO (R382). -/
def NVM_VER_VER (i : Nat) : Fld := ⟨0xb00008 + 4 * i, 0, 32, 0, .ro⟩
/-- `NVM_CFGGEN.GEN`, RO (R382). -/
def NVM_CFGGEN_GEN : Fld := ⟨0xb00010, 0, 64, 0, .ro⟩
/-- `UPD_STAT.STATE`, RO (R382). -/
def UPD_STAT_STATE : Fld := ⟨0xb00018, 0, 3, 0, .ro⟩
/-- `UPD_STAT.REASON`, RO (R382). -/
def UPD_STAT_REASON : Fld := ⟨0xb00018, 3, 4, 0, .ro⟩
/-- `UPD_STAT.NODES`, RO (R382). -/
def UPD_STAT_NODES : Fld := ⟨0xb00018, 7, 8, 0, .ro⟩
/-- `UPD_PROG.BYTES`, RO (R382). -/
def UPD_PROG_BYTES : Fld := ⟨0xb0001c, 0, 32, 0, .ro⟩
/-- `UPD_UP.MAC`, LK (R382). -/
def UPD_UP_MAC : Fld := ⟨0xb00020, 0, 48, 0, .lk⟩
/-- `UPD_DN.MAC`, LK (R382). -/
def UPD_DN_MAC : Fld := ⟨0xb00028, 0, 48, 0, .lk⟩
/-- `MRN_SEQ.SEQ`, RO (R382). -/
def MRN_SEQ_SEQ : Fld := ⟨0xb00030, 0, 64, 0, .ro⟩
/-- `MRN_STAT.PEND`, RO (R382). -/
def MRN_STAT_PEND : Fld := ⟨0xb00038, 0, 11, 0, .ro⟩
/-- `MRN_STAT.LOST`, RC (R382). -/
def MRN_STAT_LOST : Fld := ⟨0xb00038, 16, 16, 0, .rc⟩
-- 12_twin_operation.md
/-- `TWIN_CFG.EN`, LK (R400). -/
def TWIN_CFG_EN : Fld := ⟨0xc00000, 0, 1, 0, .lk⟩
/-- `TWIN_CFG.CLAIM`, LK (R400). -/
def TWIN_CFG_CLAIM : Fld := ⟨0xc00000, 1, 8, 0, .lk⟩
/-- `TWIN_CFG.PREF`, LK (R400). -/
def TWIN_CFG_PREF : Fld := ⟨0xc00000, 9, 1, 0, .lk⟩
/-- `TWIN_CFG.HB_TMO`, RW (R400). -/
def TWIN_CFG_HB_TMO : Fld := ⟨0xc00000, 10, 7, 20, .rw⟩
/-- `TWIN_CFG.DRAIN`, RW (R400). -/
def TWIN_CFG_DRAIN : Fld := ⟨0xc00000, 17, 8, 30, .rw⟩
/-- `TWIN_STAT.ROLE`, RO (R400). -/
def TWIN_STAT_ROLE : Fld := ⟨0xc00004, 0, 3, 0, .ro⟩
/-- `TWIN_STAT.HEALTHY`, RO (R400). -/
def TWIN_STAT_HEALTHY : Fld := ⟨0xc00004, 3, 1, 0, .ro⟩
/-- `TWIN_STAT.PARTNER`, RO (R400). -/
def TWIN_STAT_PARTNER : Fld := ⟨0xc00004, 4, 1, 0, .ro⟩
/-- `TWIN_STAT.CID_ERR`, RO (R400). -/
def TWIN_STAT_CID_ERR : Fld := ⟨0xc00004, 5, 1, 0, .ro⟩
/-- `TWIN_STAT.DUAL_SEEN`, W1C (R400). -/
def TWIN_STAT_DUAL_SEEN : Fld := ⟨0xc00004, 6, 1, 0, .w1c⟩
/-- `TWIN_STAT.TKO_SEEN`, W1C (R400). -/
def TWIN_STAT_TKO_SEEN : Fld := ⟨0xc00004, 7, 1, 0, .w1c⟩
/-- `TWIN_STAT.STALE_TKO`, W1C (R400). -/
def TWIN_STAT_STALE_TKO : Fld := ⟨0xc00004, 8, 1, 0, .w1c⟩
/-- `TWIN_HEALTH.BITS`, RO (R400). -/
def TWIN_HEALTH_BITS : Fld := ⟨0xc00008, 0, 8, 0, .ro⟩
/-- `TWIN_PEER.MAC`, LK (R400). -/
def TWIN_PEER_MAC : Fld := ⟨0xc0000c, 0, 48, 0, .lk⟩
/-- `TWIN_CNT.TKO`, RC (R400). -/
def TWIN_CNT_TKO : Fld := ⟨0xc00014, 0, 8, 0, .rc⟩
/-- `TWIN_CNT.SWITCH`, RC (R400). -/
def TWIN_CNT_SWITCH : Fld := ⟨0xc00014, 8, 8, 0, .rc⟩
/-- `TWIN_CNT.SEED_REJ`, RC (R400). -/
def TWIN_CNT_SEED_REJ : Fld := ⟨0xc00014, 16, 8, 0, .rc⟩
/-- `TWIN_CNT.HB_LOST`, RC (R400). -/
def TWIN_CNT_HB_LOST : Fld := ⟨0xc00014, 24, 8, 0, .rc⟩
/-- `TWIN_SEED.AGE`, RO (R400). -/
def TWIN_SEED_AGE : Fld := ⟨0xc00018, 0, 16, 0xffff, .ro⟩
/-- `TWIN_SEED.SEQ`, RO (R400). -/
def TWIN_SEED_SEQ : Fld := ⟨0xc00018, 16, 16, 0, .ro⟩
/-- `TWIN_TDIFF.D`, RO (R400). -/
def TWIN_TDIFF_D : Fld := ⟨0xc0001c, 0, 32, 0, .ro⟩
/-- `TWIN_FC.F`, RO (R400). -/
def TWIN_FC_F : Fld := ⟨0xc00020, 0, 59, 0, .ro⟩
/-- `TWIN_FSTORE.F`, RO (R400). -/
def TWIN_FSTORE_F : Fld := ⟨0xc00028, 0, 59, 0, .ro⟩
-- 13_protection.md
/-- `PRO_STAT.CLASS`, RO (R433). -/
def PRO_STAT_CLASS : Fld := ⟨0x900000, 0, 2, 0, .ro⟩
/-- `PRO_STAT.STRAP`, RO (R433). -/
def PRO_STAT_STRAP : Fld := ⟨0x900000, 2, 2, 0, .ro⟩
/-- `PRO_STAT.STRAP_CHG`, W1C (R433). -/
def PRO_STAT_STRAP_CHG : Fld := ⟨0x900000, 4, 1, 0, .w1c⟩
/-- `PRO_STAT.LOCKOUT`, RO (R433). -/
def PRO_STAT_LOCKOUT : Fld := ⟨0x900000, 5, 1, 0, .ro⟩
/-- `PRO_STAT.LATCH`, RO (R433). -/
def PRO_STAT_LATCH : Fld := ⟨0x900000, 6, 4, 0, .ro⟩
/-- `PRO_STAT.FAULT`, RO (R433). -/
def PRO_STAT_FAULT : Fld := ⟨0x900000, 10, 1, 0, .ro⟩
/-- `PRO_STAT.COMMON_OPEN`, RO (R433). -/
def PRO_STAT_COMMON_OPEN : Fld := ⟨0x900000, 11, 1, 1, .ro⟩
/-- `PRO_STAT.GV24_OK`, RO (R433). -/
def PRO_STAT_GV24_OK : Fld := ⟨0x900000, 12, 1, 0, .ro⟩
/-- `PRO_STAT.CFG_ERR`, W1C (R433). -/
def PRO_STAT_CFG_ERR : Fld := ⟨0x900000, 13, 1, 0, .w1c⟩
/-- `PRO_SUP.VIN`, RO (R433). -/
def PRO_SUP_VIN : Fld := ⟨0x900004, 0, 12, 0, .ro⟩
/-- `PRO_SUP.WARN_NOW`, RO (R433). -/
def PRO_SUP_WARN_NOW : Fld := ⟨0x900004, 12, 1, 0, .ro⟩
/-- `PRO_SUP.DIP_SEEN`, W1C (R433). -/
def PRO_SUP_DIP_SEEN : Fld := ⟨0x900004, 13, 1, 0, .w1c⟩
/-- `PRO_SUP.DIPS`, RC (R433). -/
def PRO_SUP_DIPS : Fld := ⟨0x900004, 16, 8, 0, .rc⟩
/-- `PRO_SUP.FEDIPS`, RC (R433). -/
def PRO_SUP_FEDIPS : Fld := ⟨0x900004, 24, 8, 0, .rc⟩
/-- `PRO_DIP.LAST`, RO (R433). -/
def PRO_DIP_LAST : Fld := ⟨0x900008, 0, 24, 0, .ro⟩
/-- `PRO_GCFG.SUP_PMASK`, RW (R433). -/
def PRO_GCFG_SUP_PMASK : Fld := ⟨0x900010, 0, 4, 0, .guarded⟩
/-- `PRO_GCFG.PLOSS`, RW (R433). -/
def PRO_GCFG_PLOSS : Fld := ⟨0x900010, 4, 12, 250, .guarded⟩
/-- `PRO_GSTAT.STATE`, RO (R433). -/
def PRO_GSTAT_STATE (n : Nat) : Fld := ⟨0x900014, 4 * n, 3, 0, .ro⟩
/-- `PRO_GSTAT.OUT`, RO (R433). -/
def PRO_GSTAT_OUT (n : Nat) : Fld := ⟨0x900014, 4 * n + 3, 1, 0, .ro⟩
/-- `PRO_GIN.STATE`, RO (R433). -/
def PRO_GIN_STATE (n : Nat) : Fld := ⟨0x900018, 4 * n, 2, 0, .ro⟩
/-- `PRO_GIN.PROVEN`, RO (R433). -/
def PRO_GIN_PROVEN (n : Nat) : Fld := ⟨0x900018, 4 * n + 2, 1, 0, .ro⟩
/-- `PRO_GIN.FAULT_SEEN`, W1C (R433). -/
def PRO_GIN_FAULT_SEEN (n : Nat) : Fld := ⟨0x900018, 4 * n + 3, 1, 0, .w1c⟩
/-- `PRO_GCAUSE.CAUSE`, RO (R433). -/
def PRO_GCAUSE_CAUSE (n : Nat) : Fld := ⟨0x90001c, 8 * n, 7, 0, .ro⟩
/-- `PRO_GCNT.TRIPS`, RC (R433). -/
def PRO_GCNT_TRIPS : Fld := ⟨0x900020, 0, 8, 0, .rc⟩
/-- `PRO_GCNT.RESETS`, RC (R433). -/
def PRO_GCNT_RESETS : Fld := ⟨0x900020, 8, 8, 0, .rc⟩
/-- `PRO_GCNT.RESET_REF`, RC (R433). -/
def PRO_GCNT_RESET_REF : Fld := ⟨0x900020, 16, 8, 0, .rc⟩
/-- `PRO_GCNT.PW_FAIL`, RC (R433). -/
def PRO_GCNT_PW_FAIL : Fld := ⟨0x900020, 24, 8, 0, .rc⟩
/-- `PRO_GWIN.CHECK`, WO (R433). -/
def PRO_GWIN_CHECK : Fld := ⟨0x900024, 0, 1, 0, .wo⟩
/-- `PRO_GWIN.OPEN`, RO (R433). -/
def PRO_GWIN_OPEN : Fld := ⟨0x900024, 1, 1, 0, .ro⟩
/-- `PRO_GWIN.BLOCKED`, RO (R433). -/
def PRO_GWIN_BLOCKED : Fld := ⟨0x900024, 2, 1, 0, .ro⟩
/-- `PRO_GWIN.PW_SET`, RO (R433). -/
def PRO_GWIN_PW_SET : Fld := ⟨0x900024, 3, 1, 0, .ro⟩
/-- `PRO_GPW.BYTE`, WO (R433). -/
def PRO_GPW_BYTE : Fld := ⟨0x900028, 0, 8, 0, .wo⟩
/-- `PRO_GCOMMIT.CLOSE`, WO (R433). -/
def PRO_GCOMMIT_CLOSE : Fld := ⟨0x90002c, 0, 1, 0, .wo⟩
/-- `PRO_GIN_CFG.EN`, RW (R433). -/
def PRO_GIN_CFG_EN (i : Nat) : Fld := ⟨0x900040 + 4 * i, 0, 1, 0, .guarded⟩
/-- `PRO_GIN_CFG.PMASK`, RW (R433). -/
def PRO_GIN_CFG_PMASK (i : Nat) : Fld := ⟨0x900040 + 4 * i, 1, 4, 0, .guarded⟩
/-- `PRO_GOUT.EN`, RW (R433). -/
def PRO_GOUT_EN (i : Nat) : Fld := ⟨0x900050 + 4 * i, 0, 1, 0, .guarded⟩
/-- `PRO_GOUT.OC_SEEN`, W1C (R433). -/
def PRO_GOUT_OC_SEEN (i : Nat) : Fld := ⟨0x900050 + 4 * i, 1, 1, 0, .w1c⟩
/-- `PRO_GOUT.STUCK_ON_SEEN`, W1C (R433). -/
def PRO_GOUT_STUCK_ON_SEEN (i : Nat) : Fld := ⟨0x900050 + 4 * i, 2, 1, 0, .w1c⟩
/-- `PRO_GOUT.STUCK_OFF_SEEN`, W1C (R433). -/
def PRO_GOUT_STUCK_OFF_SEEN (i : Nat) : Fld := ⟨0x900050 + 4 * i, 3, 1, 0, .w1c⟩
/-- `PRO_GOUT.PULSES`, RC (R433). -/
def PRO_GOUT_PULSES (i : Nat) : Fld := ⟨0x900050 + 4 * i, 8, 8, 0, .rc⟩
/-- `PRO_TS_CFG.WARN`, RW (R433). -/
def PRO_TS_CFG_WARN (i : Nat) : Fld := ⟨0x900100 + 8 * i, 0, 8, tsWarnReset i, .guarded⟩
/-- `PRO_TS_CFG.THROT`, RW (R433). -/
def PRO_TS_CFG_THROT (i : Nat) : Fld := ⟨0x900100 + 8 * i, 8, 8, tsThrotReset i, .guarded⟩
/-- `PRO_TS_CFG.RATE`, RW (R433). -/
def PRO_TS_CFG_RATE (i : Nat) : Fld := ⟨0x900100 + 8 * i, 16, 8, 20, .guarded⟩
/-- `PRO_TS_CFG.PMASK`, RW (R433). -/
def PRO_TS_CFG_PMASK (i : Nat) : Fld := ⟨0x900100 + 8 * i, 24, 4, 0, .guarded⟩
/-- `PRO_TS_STAT.TEMP`, RO (R433). -/
def PRO_TS_STAT_TEMP (i : Nat) : Fld := ⟨0x900104 + 8 * i, 0, 12, 0, .ro⟩
/-- `PRO_TS_STAT.STATE`, RO (R433). -/
def PRO_TS_STAT_STATE (i : Nat) : Fld := ⟨0x900104 + 8 * i, 12, 3, 0, .ro⟩
/-- `PRO_TS_STAT.HOT_SEEN`, W1C (R433). -/
def PRO_TS_STAT_HOT_SEEN (i : Nat) : Fld := ⟨0x900104 + 8 * i, 15, 1, 0, .w1c⟩
/-- `PRO_TS_STAT.MAX`, RC (R433). -/
def PRO_TS_STAT_MAX (i : Nat) : Fld := ⟨0x900104 + 8 * i, 16, 8, 0, .rc⟩
/-- `PRO_GMAP.RTD`, RW (R433). -/
def PRO_GMAP_RTD (i : Nat) : Fld := ⟨0x901000 + 4 * i, 0, 4, 0, .guarded⟩
/-- `PRO_GMAP.PMASK`, RW (R433). -/
def PRO_GMAP_PMASK (i : Nat) : Fld := ⟨0x901000 + 4 * i, 4, 4, 0, .guarded⟩
/-- `PRO_GMAP.LOSS`, RW (R433). -/
def PRO_GMAP_LOSS (i : Nat) : Fld := ⟨0x901000 + 4 * i, 8, 1, 0, .guarded⟩

/-- Part of the register map. -/
def regClasses0 : List RegClass :=
  [
   ⟨0x200000, 1, 0x0, 1, 0x0, fun _ => [TIM_NOW_NS_NS]⟩,
   ⟨0x200004, 1, 0x0, 1, 0x0, fun _ => [TIM_NOW_FRAC_FRAC]⟩,
   ⟨0x200008, 1, 0x0, 1, 0x0, fun _ => [TIM_NOW_SEC_LO_SEC]⟩,
   ⟨0x20000c, 1, 0x0, 1, 0x0, fun _ => [TIM_NOW_SEC_HI_SEC]⟩,
   ⟨0x200010, 1, 0x0, 1, 0x0, fun _ => [TIM_FRAME_FIS, TIM_FRAME_FIL]⟩,
   ⟨0x200020, 1, 0x0, 1, 0x0, fun _ => [TIM_CTRL_SRC, TIM_CTRL_PTP0_EN, TIM_CTRL_PTP1_EN, TIM_CTRL_TRANSPORT, TIM_CTRL_DOMAIN]⟩,
   ⟨0x200024, 1, 0x0, 1, 0x0, fun _ => [TIM_SLEW_SLEW]⟩,
   ⟨0x200028, 1, 0x0, 1, 0x0, fun _ => [TIM_JUMP_JUMP]⟩,
   ⟨0x20002c, 1, 0x0, 1, 0x0, fun _ => [TIM_STEP_APPLY, TIM_STEP_WITHDRAW, TIM_STEP_KEY]⟩,
   ⟨0x200030, 1, 0x0, 1, 0x0, fun _ => [TIM_STAT_QUAL, TIM_STAT_LOCK, TIM_STAT_PTP_OK, TIM_STAT_REF_OK, TIM_STAT_PPS_OK, TIM_STAT_PORT, TIM_STAT_STEP_PEND, TIM_STAT_ASYM, TIM_STAT_ASYM_NOW, TIM_STAT_ARB, TIM_STAT_REF_LOSS, TIM_STAT_PPS_MISS, TIM_STAT_PTP_LOSS, TIM_STAT_CFG_ERR, TIM_STAT_INIT_SET]⟩,
   ⟨0x200034, 1, 0x0, 1, 0x0, fun _ => [TIM_OFFSET_OFS]⟩,
   ⟨0x200038, 1, 0x0, 1, 0x0, fun _ => [TIM_STEP_VAL_VAL]⟩,
   ⟨0x200040, 1, 0x0, 2, 0x4, fun i => [TIM_PTPC_EG_TRIM i, TIM_PTPC_IN_TRIM i]⟩,
   ⟨0x200048, 1, 0x0, 1, 0x0, fun _ => [TIM_PTP_ASYM_ASYM]⟩,
   ⟨0x20004c, 1, 0x0, 1, 0x0, fun _ => [TIM_UTC_OFS_OFS]⟩,
   ⟨0x200050, 1, 0x0, 1, 0x0, fun _ => [TIM_EVT_CNT_STEP_REFUSED, TIM_EVT_CNT_STEP_APPLIED, TIM_EVT_CNT_ASYM_EVT, TIM_EVT_CNT_KEY_ERR]⟩,
   ⟨0x200100, 1, 0x0, 8, 0x10, fun i => [TIN_CFG_EN i, TIN_CFG_POL i, TIN_CFG_DLY i]⟩,
   ⟨0x200104, 1, 0x0, 8, 0x10, fun i => [TIN_CNT_ACCEPT i, TIN_CNT_LOST i, TIN_CNT_GLITCH i]⟩,
   ⟨0x200200, 1, 0x0, 2, 0x20, fun i => [TOUT_CTRL_ARM i, TOUT_CTRL_POL i, TOUT_CTRL_FIRED i, TOUT_CTRL_LATE i, TOUT_CTRL_SKIP i, TOUT_CTRL_ERR i]⟩,
   ⟨0x200204, 1, 0x0, 2, 0x20, fun i => [TOUT_TGT_NS_NS i]⟩]

/-- Part of the register map. -/
def regClasses1 : List RegClass :=
  [
   ⟨0x200208, 1, 0x0, 2, 0x20, fun i => [TOUT_TGT_FRAC_FRAC i]⟩,
   ⟨0x20020c, 1, 0x0, 2, 0x20, fun i => [TOUT_TGT_SEC_LO_SEC i]⟩,
   ⟨0x200210, 1, 0x0, 2, 0x20, fun i => [TOUT_TGT_SEC_HI_SEC i]⟩,
   ⟨0x200214, 1, 0x0, 2, 0x20, fun i => [TOUT_WIDTH_W i]⟩,
   ⟨0x200218, 1, 0x0, 2, 0x20, fun i => [TOUT_PERIOD_P i]⟩,
   ⟨0x201000, 1, 0x0, 1024, 0x10, fun i => [TIM_PDLY_D i]⟩,
   ⟨0x201004, 1, 0x0, 1024, 0x10, fun i => [TIM_PASYM_ASYM i]⟩,
   ⟨0x201008, 1, 0x0, 1024, 0x10, fun i => [TIM_PSTAT_ECHO i, TIM_PSTAT_FROZEN i, TIM_PSTAT_SUSPECT i, TIM_PSTAT_SUSPECT_SEEN i, TIM_PSTAT_JUMP i, TIM_PSTAT_RANGE i, TIM_PSTAT_JUMP_CNT i]⟩,
   ⟨0x20100c, 1, 0x0, 1024, 0x10, fun i => [TIM_PRTT_RTT i]⟩,
   ⟨0x300000, 4, 0x40000, 256, 0x100, fun i => [PL_CTRL_EN i, PL_CTRL_RETRY i, PL_CTRL_VER_MASK i, PL_CTRL_FACE i, PL_CTRL_TEST i]⟩,
   ⟨0x300004, 4, 0x40000, 256, 0x100, fun i => [PL_STAT_STATE i, PL_STAT_VER i, PL_STAT_REASON i, PL_STAT_GIVEN_UP i, PL_STAT_OWNER i, PL_STAT_OVERLAP i, PL_STAT_FE_CLAIM i, PL_STAT_FE_REV i]⟩,
   ⟨0x300008, 4, 0x40000, 256, 0x100, fun i => [PL_EQ_STEP i, PL_EQ_AUTO i, PL_EQ_FOUND i, PL_EQ_FE_STEP i]⟩,
   ⟨0x33f000, 1, 0x0, 4, 0x40000, fun i => [PLR_CFG_GCHK i, PLR_CFG_RETRIES i]⟩,
   ⟨0x30000c, 4, 0x40000, 256, 0x100, fun i => [PL_ERR_CODE i, PL_ERR_RS_CORR i, PL_ERR_RS_UNC i]⟩,
   ⟨0x300010, 4, 0x40000, 256, 0x100, fun i => [PL_SC_TIMEOUT i, PL_SC_STRAY i, PL_SC_ERR_RESP i, PL_SC_LAST_CODE i]⟩,
   ⟨0x300014, 4, 0x40000, 256, 0x100, fun i => [PL_UP_UPS i, PL_UP_FALLS i]⟩,
   ⟨0x300018, 4, 0x40000, 256, 0x100, fun i => [PL_GOLD_MATCH i, PL_GOLD_MISMATCH i, PL_GOLD_REPAIRS i, PL_GOLD_CHECKS i]⟩,
   ⟨0x30001c, 4, 0x40000, 256, 0x100, fun i => [PL_PRBS_CTRL_PAT i, PL_PRBS_CTRL_DUR i, PL_PRBS_CTRL_LOCKED i]⟩,
   ⟨0x300020, 4, 0x40000, 256, 0x100, fun i => [PL_PRBS_ERR_CNT i]⟩,
   ⟨0x300028, 4, 0x40000, 256, 0x100, fun i => [PL_INJ_GO i, PL_INJ_BURST i, PL_INJ_LEN i, PL_INJ_TARGET i]⟩]

/-- Part of the register map. -/
def regClasses2 : List RegClass :=
  [
   ⟨0x300040, 4, 0x40000, 256, 0x100, fun i => [PI_CTRL_STORE i, PI_CTRL_MULT_EN i, PI_CTRL_CREV_EN i]⟩,
   ⟨0x300044, 4, 0x40000, 256, 0x100, fun i => [PI_STAT_PRESENT i, PI_STAT_HUSK_MIS i, PI_STAT_LATE i, PI_STAT_ECC_UNC i, PI_STAT_LOSTCW i, PI_STAT_ABSENT i, PI_STAT_LAST_N i]⟩,
   ⟨0x300048, 4, 0x40000, 256, 0x100, fun i => [PI_CNT0_LOST_CW i, PI_CNT0_ABSENT i]⟩,
   ⟨0x30004c, 4, 0x40000, 256, 0x100, fun i => [PI_CNT1_HUSK_MIS i, PI_CNT1_LATE i, PI_CNT1_ECC_CORR i, PI_CNT1_ECC_UNC i]⟩,
   ⟨0x300050, 4, 0x40000, 256, 0x100, fun i => [PI_CNT2_NONOWNER i, PI_CNT2_BUDDROP i]⟩,
   ⟨0x300054, 4, 0x40000, 256, 0x100, fun i => [PI_REC_CNT i]⟩,
   ⟨0x30005c, 4, 0x40000, 256, 0x100, fun i => [PI_FEDROP_CNT i]⟩,
   ⟨0x310000, 4, 0x40000, 16, 0x100, fun i => [PB_STAT_UPSET_SEEN i, PB_STAT_VFAIL_SEEN i, PB_STAT_UPSET i, PB_STAT_EXPAND i]⟩,
   ⟨0x310004, 4, 0x40000, 16, 0x100, fun i => [PB_HZERR_ILLEGAL i, PB_HZERR_DISTANCE i, PB_HZERR_OVERRUN i, PB_HZERR_MISMATCH i]⟩,
   ⟨0x310008, 4, 0x40000, 16, 0x100, fun i => [PB_MULT_SUM i, PB_MULT_INC i]⟩,
   ⟨0x31000c, 4, 0x40000, 16, 0x100, fun i => [PB_IN_CNT i]⟩,
   ⟨0x310014, 4, 0x40000, 16, 0x100, fun i => [PB_OUT_CNT i]⟩,
   ⟨0x320000, 1, 0x0, 4, 0x40000, fun i => [RG_CTRL_HZ_EN i, RG_CTRL_ADD_DROP i]⟩,
   ⟨0x320004, 1, 0x0, 4, 0x40000, fun i => [RG_STAT_BUD_HIT i, RG_STAT_UNC i, RG_STAT_RESET_SEEN i, RG_STAT_BUD_DROP i]⟩,
   ⟨0x320008, 1, 0x0, 4, 0x40000, fun i => [RG_MULT_SUM i, RG_MULT_INC i]⟩,
   ⟨0x32000c, 1, 0x0, 4, 0x40000, fun i => [RG_CREV_CNT i]⟩,
   ⟨0x320010, 1, 0x0, 4, 0x40000, fun i => [RG_PEAK_MAX i]⟩,
   ⟨0x320014, 1, 0x0, 4, 0x40000, fun i => [RG_BYTES_CNT i]⟩,
   ⟨0x33f800, 1, 0x0, 1, 0x0, fun _ => [IG_MULT_SUM, IG_MULT_INC]⟩,
   ⟨0x33f804, 1, 0x0, 1, 0x0, fun _ => [IG_STAT_LINKERR, IG_STAT_LINK_SEEN]⟩]

/-- Part of the register map. -/
def regClasses3 : List RegClass :=
  [
   ⟨0x400000, 1, 0x0, 1, 0x0, fun _ => [FRN_CTRL_QUOTA]⟩,
   ⟨0x400004, 1, 0x0, 1, 0x0, fun _ => [FRN_STAT_READY, FRN_STAT_CFG_ERR, FRN_STAT_TRUNC_SEEN, FRN_STAT_HZN_SEEN, FRN_STAT_DAMAGED_SEEN, FRN_STAT_WFAIL_SEEN, FRN_STAT_HIB]⟩,
   ⟨0x400008, 1, 0x0, 1, 0x0, fun _ => [FRN_HEAD_SLICE]⟩,
   ⟨0x400010, 1, 0x0, 1, 0x0, fun _ => [FRN_EDGE_SLICE]⟩,
   ⟨0x400018, 1, 0x0, 1, 0x0, fun _ => [FRN_OLDEST_SLICE]⟩,
   ⟨0x400020, 1, 0x0, 1, 0x0, fun _ => [FRN_EVT_TRUNC, FRN_EVT_HZN, FRN_EVT_STEP_CALVE, FRN_EVT_PIN_REFUSED]⟩,
   ⟨0x400024, 1, 0x0, 1, 0x0, fun _ => [FRN_EVT2_SRAM_CORR, FRN_EVT2_SRAM_UNC, FRN_EVT2_NOSLICE]⟩,
   ⟨0x400040, 1, 0x0, 1, 0x0, fun _ => [FRN_IX_SEL_IDX]⟩,
   ⟨0x400080, 1, 0x0, 16, 0x4, fun i => [FRN_IX_DATA_D i]⟩,
   ⟨0x4000c0, 1, 0x0, 1, 0x0, fun _ => [FRN_PIN_SEL_PIN]⟩,
   ⟨0x4000c4, 1, 0x0, 1, 0x0, fun _ => [FRN_PIN_DATA0_ACTIVE, FRN_PIN_DATA0_TRUNC, FRN_PIN_DATA0_PARTIAL]⟩,
   ⟨0x4000c8, 1, 0x0, 1, 0x0, fun _ => [FRN_PIN_FIRST_SLICE]⟩,
   ⟨0x4000d0, 1, 0x0, 1, 0x0, fun _ => [FRN_PIN_LAST_SLICE]⟩,
   ⟨0x401000, 1, 0x0, 4, 0x1000, fun i => [FRR_CFG_SCRATCH i, FRR_CFG_AUTO_RETIRE i]⟩,
   ⟨0x401004, 1, 0x0, 4, 0x1000, fun i => [FRR_STAT_PINNED i, FRR_STAT_RETIRED i, FRR_STAT_NO_EXTENT i, FRR_STAT_READY i]⟩,
   ⟨0x401008, 1, 0x0, 4, 0x1000, fun i => [FRR_SCRUB_PERIOD i, FRR_SCRUB_HIB_MUL i]⟩,
   ⟨0x40100c, 1, 0x0, 4, 0x1000, fun i => [FRR_SCRUB_STAT_PROGRESS i, FRR_SCRUB_STAT_SLOW i, FRR_SCRUB_STAT_PASSES i]⟩,
   ⟨0x401010, 4, 0x1000, 4, 0x4, fun i => [FRR_CORR_CNT i]⟩,
   ⟨0x401020, 4, 0x1000, 4, 0x4, fun i => [FRR_UNC_CNT i]⟩,
   ⟨0x401030, 1, 0x0, 4, 0x1000, fun i => [FRR_RD_OUTST i, FRR_RD_FULL_SEEN i, FRR_RD_WAITS i]⟩]

/-- Part of the register map. -/
def regClasses4 : List RegClass :=
  [
   ⟨0x401034, 1, 0x0, 4, 0x1000, fun i => [FRR_WR_PTR i, FRR_WR_WFAIL i]⟩,
   ⟨0x401038, 1, 0x0, 4, 0x1000, fun i => [FRR_BAD_ADDR i]⟩,
   ⟨0x401040, 1, 0x0, 4, 0x1000, fun i => [FRR_XT_SEL_EXT i, FRR_XT_SEL_OP i]⟩,
   ⟨0x401044, 4, 0x1000, 3, 0x4, fun i => [FRR_XT_DATA_D i]⟩,
   ⟨0x401050, 1, 0x0, 4, 0x1000, fun i => [FRR_LINES_CNT i]⟩,
   ⟨0x500000, 1, 0x0, 1, 0x0, fun _ => [TRG_CTRL_MODE, TRG_CTRL_ARM, TRG_CTRL_SEQ_EN, TRG_CTRL_REQ_EN, TRG_CTRL_PRIM_BLK, TRG_CTRL_PRIM_GRPS]⟩,
   ⟨0x500004, 1, 0x0, 1, 0x0, fun _ => [TRG_STAT_ARMED, TRG_STAT_CFG_ERR, TRG_STAT_GAP_SEEN, TRG_STAT_BUSY_SEEN, TRG_STAT_TRUNC_SEEN, TRG_STAT_INFLIGHT, TRG_STAT_SEQ_STATE, TRG_STAT_PWR_HELD, TRG_STAT_SRAM_CORR, TRG_STAT_SRAM_UNC]⟩,
   ⟨0x500008, 1, 0x0, 1, 0x0, fun _ => [TRG_ARM_F_F]⟩,
   ⟨0x50001c, 1, 0x0, 1, 0x0, fun _ => [TRG_SERIAL_NEXT]⟩,
   ⟨0x500010, 1, 0x0, 1, 0x0, fun _ => [TRG_CNT0_ACCEPT, TRG_CNT0_MERGED]⟩,
   ⟨0x500014, 1, 0x0, 1, 0x0, fun _ => [TRG_CNT1_EARLY, TRG_CNT1_REARM, TRG_CNT1_BUSY, TRG_CNT1_GONE]⟩,
   ⟨0x500018, 1, 0x0, 1, 0x0, fun _ => [TRG_CNT2_BADREQ, TRG_CNT2_QFULL, TRG_CNT2_TIN_EXTRA, TRG_CNT2_CLAMPED]⟩,
   ⟨0x500020, 1, 0x0, 1, 0x0, fun _ => [TRG_STREAM_MARGIN, TRG_STREAM_GRPS]⟩,
   ⟨0x500024, 1, 0x0, 1, 0x0, fun _ => [TRG_STREAM_STAT_GAPS]⟩,
   ⟨0x500028, 1, 0x0, 1, 0x0, fun _ => [TRG_STREAM_POS_SLICE]⟩,
   ⟨0x500030, 1, 0x0, 1, 0x0, fun _ => [TRG_ABORT_SLOT, TRG_ABORT_GO]⟩,
   ⟨0x500034, 1, 0x0, 1, 0x0, fun _ => [TRG_REQQ_FILL]⟩,
   ⟨0x500100, 1, 0x0, 16, 0x20, fun i => [TRG_NU_CFG_EN i, TRG_NU_CFG_CORE i, TRG_NU_CFG_SEL i, TRG_NU_CFG_WM1 i]⟩,
   ⟨0x500104, 1, 0x0, 16, 0x20, fun i => [TRG_NU_LEVEL_LEVEL i]⟩,
   ⟨0x500108, 1, 0x0, 16, 0x20, fun i => [TRG_NU_HYST_HYST i]⟩]

/-- Part of the register map. -/
def regClasses5 : List RegClass :=
  [
   ⟨0x50010c, 1, 0x0, 16, 0x20, fun i => [TRG_NU_VAL_V i, TRG_NU_VAL_INC i, TRG_NU_VAL_HIGH i]⟩,
   ⟨0x500110, 1, 0x0, 16, 0x20, fun i => [TRG_NU_CNT_CROSS i]⟩,
   ⟨0x500400, 1, 0x0, 25, 0x10, fun i => [TRG_SRC_PRE_PRE i]⟩,
   ⟨0x500404, 1, 0x0, 25, 0x10, fun i => [TRG_SRC_POST_POST i]⟩,
   ⟨0x500408, 1, 0x0, 25, 0x10, fun i => [TRG_SRC_REARM_REARM i, TRG_SRC_REARM_MERGE i, TRG_SRC_REARM_EN i]⟩,
   ⟨0x50040c, 1, 0x0, 25, 0x10, fun i => [TRG_SRC_PORTS_FIRST i, TRG_SRC_PORTS_LAST i]⟩,
   ⟨0x500600, 1, 0x0, 8, 0x8, fun i => [TRG_SEQ_LO_COND i, TRG_SEQ_LO_NEXT i, TRG_SEQ_LO_FAIL i, TRG_SEQ_LO_FIRE i, TRG_SEQ_LO_COUNT i]⟩,
   ⟨0x500604, 1, 0x0, 8, 0x8, fun i => [TRG_SEQ_HI_TIMEOUT i, TRG_SEQ_HI_DELAY i]⟩,
   ⟨0x500800, 1, 0x0, 64, 0x10, fun i => [TRG_CORE_STAT_ACTIVE i, TRG_CORE_STAT_READING i, TRG_CORE_STAT_TRUNC i, TRG_CORE_STAT_CLAMPED i, TRG_CORE_STAT_PARTIAL i, TRG_CORE_STAT_SOURCE i, TRG_CORE_STAT_MERGES i]⟩,
   ⟨0x500804, 1, 0x0, 64, 0x10, fun i => [TRG_CORE_SER_SERIAL i]⟩,
   ⟨0x500808, 1, 0x0, 64, 0x10, fun i => [TRG_CORE_LAST_F i]⟩,
   ⟨0x600000, 1, 0x0, 1, 0x0, fun _ => [UPL_CTRL_RESTORE]⟩,
   ⟨0x600004, 1, 0x0, 1, 0x0, fun _ => [UPL_CFG_VER_MASK, UPL_CFG_MONLOG_GRPS, UPL_CFG_SILENT]⟩,
   ⟨0x600008, 1, 0x0, 1, 0x0, fun _ => [UPL_STAT_OUT]⟩,
   ⟨0x600010, 1, 0x0, 4, 0x4, fun i => [UPL_LMAP_GROUP i 0, UPL_LMAP_GROUP i 1, UPL_LMAP_GROUP i 2, UPL_LMAP_GROUP i 3, UPL_LMAP_GROUP i 4, UPL_LMAP_GROUP i 5, UPL_LMAP_GROUP i 6, UPL_LMAP_GROUP i 7, UPL_LMAP_EN i 0, UPL_LMAP_EN i 1, UPL_LMAP_EN i 2, UPL_LMAP_EN i 3, UPL_LMAP_EN i 4, UPL_LMAP_EN i 5, UPL_LMAP_EN i 6, UPL_LMAP_EN i 7]⟩,
   ⟨0x600100, 1, 0x0, 4, 0x100, fun i => [UG_STAT_STATE i, UG_STAT_VER i, UG_STAT_LANES i, UG_STAT_BE_SILENT i, UG_STAT_LANE_LOST i, UG_STAT_VER_CHG i]⟩,
   ⟨0x600104, 1, 0x0, 4, 0x100, fun i => [UG_CNT_HELLO i, UG_CNT_VER_REFUSE i]⟩,
   ⟨0x600108, 1, 0x0, 4, 0x100, fun i => [UG_BYTES_CNT i]⟩,
   ⟨0x600140, 4, 0x100, 5, 0x20, fun i => [UQ_CFG_WM i, UQ_CFG_STALE i]⟩,
   ⟨0x600144, 4, 0x100, 5, 0x20, fun i => [UQ_CTRL_FLUSH i]⟩]

/-- Part of the register map. -/
def regClasses6 : List RegClass :=
  [
   ⟨0x600148, 4, 0x100, 5, 0x20, fun i => [UQ_STAT_LEVEL i, UQ_STAT_WM_NOW i, UQ_STAT_WM_SEEN i, UQ_STAT_FULL_SEEN i, UQ_STAT_STALE_SEEN i, UQ_STAT_UNC_SEEN i, UQ_STAT_OPEN i]⟩,
   ⟨0x60014c, 4, 0x100, 5, 0x20, fun i => [UQ_PKTS_PKTS i]⟩,
   ⟨0x600150, 4, 0x100, 5, 0x20, fun i => [UQ_ERR_CORR i, UQ_ERR_UNC i, UQ_ERR_STALE i, UQ_ERR_DROPPED i]⟩,
   ⟨0x600154, 4, 0x100, 5, 0x20, fun i => [UQ_PUSH_D i]⟩,
   ⟨0x60015c, 4, 0x100, 5, 0x20, fun i => [UQ_PUSH_TAG_END i]⟩,
   ⟨0x600600, 1, 0x0, 8, 0x10, fun i => [UR_CFG_GROUP i]⟩,
   ⟨0x600604, 1, 0x0, 8, 0x10, fun i => [UR_STAT_STATE i, UR_STAT_LOST i]⟩,
   ⟨0x600608, 1, 0x0, 8, 0x10, fun i => [UR_CNT_CTRL i, UR_CNT_RS_UNC i, UR_CNT_DISCARD i]⟩,
   ⟨0x600700, 1, 0x0, 1, 0x0, fun _ => [UIQ_STAT_LEVEL, UIQ_STAT_FULL_SEEN, UIQ_STAT_PKTS, UIQ_STAT_DROPPED]⟩,
   ⟨0x600704, 1, 0x0, 1, 0x0, fun _ => [UIQ_POP_D]⟩,
   ⟨0x60070c, 1, 0x0, 1, 0x0, fun _ => [UIQ_TAG_VALID, UIQ_TAG_END, UIQ_TAG_LANE]⟩,
   ⟨0x100800, 1, 0x0, 1, 0x0, fun _ => [SP_STAT_RUN, SP_STAT_LSERR, SP_STAT_FROZEN]⟩,
   ⟨0x100804, 1, 0x0, 1, 0x0, fun _ => [SP_WDOG_KICK]⟩,
   ⟨0x100808, 1, 0x0, 1, 0x0, fun _ => [SP_EVT_LSERR, SP_EVT_TRAPS, SP_EVT_WDOG, SP_EVT_DUP]⟩,
   ⟨0x100810, 1, 0x0, 1, 0x0, fun _ => [CR_STAT_CORR, CR_STAT_UNC, CR_STAT_CLEAN]⟩,
   ⟨0x100814, 1, 0x0, 1, 0x0, fun _ => [CR_BAD_ADDR]⟩,
   ⟨0x100818, 1, 0x0, 1, 0x0, fun _ => [CR_PASS_CNT]⟩,
   ⟨0x700000, 1, 0x0, 1, 0x0, fun _ => [MV_CTRL_CLEAR, MV_CTRL_QTMO]⟩,
   ⟨0x700004, 1, 0x0, 1, 0x0, fun _ => [MV_STAT_STOP, MV_STAT_BUSY]⟩,
   ⟨0x700008, 1, 0x0, 1, 0x0, fun _ => [MV_ERR_CH, MV_ERR_STATUS, MV_ERR_ALL]⟩]

/-- Part of the register map. -/
def regClasses7 : List RegClass :=
  [
   ⟨0x70000c, 1, 0x0, 1, 0x0, fun _ => [MV_ERRADDR_ADDR]⟩,
   ⟨0x700014, 1, 0x0, 1, 0x0, fun _ => [MV_NOTE_N]⟩,
   ⟨0x700020, 1, 0x0, 8, 0x4, fun i => [MV_TMR_PERIOD i]⟩,
   ⟨0x700100, 1, 0x0, 16, 0x20, fun i => [MV_CH_CTRL_START i, MV_CH_CTRL_KICK i, MV_CH_CTRL_ABORT i]⟩,
   ⟨0x700104, 1, 0x0, 16, 0x20, fun i => [MV_CH_CFG_BURST i, MV_CH_CFG_PTMO i]⟩,
   ⟨0x700108, 1, 0x0, 16, 0x20, fun i => [MV_CH_STAT_STATE i, MV_CH_STAT_STATUS i, MV_CH_STAT_PENDING i, MV_CH_STAT_MISSED i]⟩,
   ⟨0x70010c, 1, 0x0, 16, 0x20, fun i => [MV_CH_CUR_IDX i]⟩,
   ⟨0x700110, 1, 0x0, 16, 0x20, fun i => [MV_CH_DONE_BYTES i]⟩,
   ⟨0x700114, 1, 0x0, 16, 0x20, fun i => [MV_CH_CRC_CRC i]⟩,
   ⟨0x800000, 1, 0x0, 1, 0x0, fun _ => [FWL_CTRL_BK_THAW]⟩,
   ⟨0x800004, 1, 0x0, 1, 0x0, fun _ => [FWL_STAT_FROZEN, FWL_STAT_VIOL]⟩,
   ⟨0x800008, 1, 0x0, 1, 0x0, fun _ => [FWL_THAW_MASTER, FWL_THAW_GO]⟩,
   ⟨0x800010, 1, 0x0, 1, 0x0, fun _ => [FWL_LOG0_MASTER, FWL_LOG0_SPACE, FWL_LOG0_TYPE]⟩,
   ⟨0x800014, 1, 0x0, 1, 0x0, fun _ => [FWL_LOG1_KEY]⟩,
   ⟨0x800018, 1, 0x0, 1, 0x0, fun _ => [FWL_LOG2_NS]⟩,
   ⟨0x80001c, 1, 0x0, 1, 0x0, fun _ => [FWL_LOG3_SEC]⟩,
   ⟨0x800020, 1, 0x0, 1, 0x0, fun _ => [FWL_CNT_VIOL]⟩,
   ⟨0x801000, 20, 0x100, 8, 0x10, fun i => [FWL_WBASE_BASE i]⟩,
   ⟨0x801004, 20, 0x100, 8, 0x10, fun i => [FWL_WLIM_LIMIT i]⟩,
   ⟨0x801008, 20, 0x100, 8, 0x10, fun i => [FWL_WATTR_EN i, FWL_WATTR_R i, FWL_WATTR_W i, FWL_WATTR_X i, FWL_WATTR_SPACE i]⟩]

/-- Part of the register map. -/
def regClasses8 : List RegClass :=
  [
   ⟨0x100000, 1, 0x0, 1, 0x0, fun _ => [GLB_ID_ID]⟩,
   ⟨0x100004, 1, 0x0, 1, 0x0, fun _ => [GLB_CID_CID]⟩,
   ⟨0x100008, 1, 0x0, 1, 0x0, fun _ => [GLB_STAT_READY, GLB_STAT_STATE, GLB_STAT_TRANS, GLB_STAT_LOCKOUT, GLB_STAT_CFG_DEFAULT, GLB_STAT_CFG_FIX, GLB_STAT_RCAUSE, GLB_STAT_RECOVERY, GLB_STAT_SLOT_FALLBACK]⟩,
   ⟨0x10000c, 1, 0x0, 1, 0x0, fun _ => [GLB_PWR_REQ]⟩,
   ⟨0x100010, 1, 0x0, 1, 0x0, fun _ => [GLB_RST_SOFT, GLB_RST_REGION, GLB_RST_KEY]⟩,
   ⟨0x100014, 1, 0x0, 1, 0x0, fun _ => [GLB_START_READY_MS, GLB_START_PORTS_UP, GLB_START_CFG_FIXES]⟩,
   ⟨0xb00000, 1, 0x0, 1, 0x0, fun _ => [NVM_STAT_BUSY, NVM_STAT_JRECOV, NVM_STAT_LATCH_FIX, NVM_STAT_SPARE_USED, NVM_STAT_PROG_ERR]⟩,
   ⟨0xb00004, 1, 0x0, 1, 0x0, fun _ => [NVM_SLOT_ACTIVE, NVM_SLOT_S0, NVM_SLOT_S1, NVM_SLOT_TRIAL, NVM_SLOT_TRIAL_LEFT]⟩,
   ⟨0xb00008, 1, 0x0, 2, 0x4, fun i => [NVM_VER_VER i]⟩,
   ⟨0xb00010, 1, 0x0, 1, 0x0, fun _ => [NVM_CFGGEN_GEN]⟩,
   ⟨0xb00018, 1, 0x0, 1, 0x0, fun _ => [UPD_STAT_STATE, UPD_STAT_REASON, UPD_STAT_NODES]⟩,
   ⟨0xb0001c, 1, 0x0, 1, 0x0, fun _ => [UPD_PROG_BYTES]⟩,
   ⟨0xb00020, 1, 0x0, 1, 0x0, fun _ => [UPD_UP_MAC]⟩,
   ⟨0xb00028, 1, 0x0, 1, 0x0, fun _ => [UPD_DN_MAC]⟩,
   ⟨0xb00030, 1, 0x0, 1, 0x0, fun _ => [MRN_SEQ_SEQ]⟩,
   ⟨0xb00038, 1, 0x0, 1, 0x0, fun _ => [MRN_STAT_PEND, MRN_STAT_LOST]⟩,
   ⟨0xc00000, 1, 0x0, 1, 0x0, fun _ => [TWIN_CFG_EN, TWIN_CFG_CLAIM, TWIN_CFG_PREF, TWIN_CFG_HB_TMO, TWIN_CFG_DRAIN]⟩,
   ⟨0xc00004, 1, 0x0, 1, 0x0, fun _ => [TWIN_STAT_ROLE, TWIN_STAT_HEALTHY, TWIN_STAT_PARTNER, TWIN_STAT_CID_ERR, TWIN_STAT_DUAL_SEEN, TWIN_STAT_TKO_SEEN, TWIN_STAT_STALE_TKO]⟩,
   ⟨0xc00008, 1, 0x0, 1, 0x0, fun _ => [TWIN_HEALTH_BITS]⟩,
   ⟨0xc0000c, 1, 0x0, 1, 0x0, fun _ => [TWIN_PEER_MAC]⟩]

/-- Part of the register map. -/
def regClasses9 : List RegClass :=
  [
   ⟨0xc00014, 1, 0x0, 1, 0x0, fun _ => [TWIN_CNT_TKO, TWIN_CNT_SWITCH, TWIN_CNT_SEED_REJ, TWIN_CNT_HB_LOST]⟩,
   ⟨0xc00018, 1, 0x0, 1, 0x0, fun _ => [TWIN_SEED_AGE, TWIN_SEED_SEQ]⟩,
   ⟨0xc0001c, 1, 0x0, 1, 0x0, fun _ => [TWIN_TDIFF_D]⟩,
   ⟨0xc00020, 1, 0x0, 1, 0x0, fun _ => [TWIN_FC_F]⟩,
   ⟨0xc00028, 1, 0x0, 1, 0x0, fun _ => [TWIN_FSTORE_F]⟩,
   ⟨0x900000, 1, 0x0, 1, 0x0, fun _ => [PRO_STAT_CLASS, PRO_STAT_STRAP, PRO_STAT_STRAP_CHG, PRO_STAT_LOCKOUT, PRO_STAT_LATCH, PRO_STAT_FAULT, PRO_STAT_COMMON_OPEN, PRO_STAT_GV24_OK, PRO_STAT_CFG_ERR]⟩,
   ⟨0x900004, 1, 0x0, 1, 0x0, fun _ => [PRO_SUP_VIN, PRO_SUP_WARN_NOW, PRO_SUP_DIP_SEEN, PRO_SUP_DIPS, PRO_SUP_FEDIPS]⟩,
   ⟨0x900008, 1, 0x0, 1, 0x0, fun _ => [PRO_DIP_LAST]⟩,
   ⟨0x900010, 1, 0x0, 1, 0x0, fun _ => [PRO_GCFG_SUP_PMASK, PRO_GCFG_PLOSS]⟩,
   ⟨0x900014, 1, 0x0, 1, 0x0, fun _ => [PRO_GSTAT_STATE 0, PRO_GSTAT_STATE 1, PRO_GSTAT_STATE 2, PRO_GSTAT_STATE 3, PRO_GSTAT_OUT 0, PRO_GSTAT_OUT 1, PRO_GSTAT_OUT 2, PRO_GSTAT_OUT 3]⟩,
   ⟨0x900018, 1, 0x0, 1, 0x0, fun _ => [PRO_GIN_STATE 0, PRO_GIN_STATE 1, PRO_GIN_STATE 2, PRO_GIN_STATE 3, PRO_GIN_PROVEN 0, PRO_GIN_PROVEN 1, PRO_GIN_PROVEN 2, PRO_GIN_PROVEN 3, PRO_GIN_FAULT_SEEN 0, PRO_GIN_FAULT_SEEN 1, PRO_GIN_FAULT_SEEN 2, PRO_GIN_FAULT_SEEN 3]⟩,
   ⟨0x90001c, 1, 0x0, 1, 0x0, fun _ => [PRO_GCAUSE_CAUSE 0, PRO_GCAUSE_CAUSE 1, PRO_GCAUSE_CAUSE 2, PRO_GCAUSE_CAUSE 3]⟩,
   ⟨0x900020, 1, 0x0, 1, 0x0, fun _ => [PRO_GCNT_TRIPS, PRO_GCNT_RESETS, PRO_GCNT_RESET_REF, PRO_GCNT_PW_FAIL]⟩,
   ⟨0x900024, 1, 0x0, 1, 0x0, fun _ => [PRO_GWIN_CHECK, PRO_GWIN_OPEN, PRO_GWIN_BLOCKED, PRO_GWIN_PW_SET]⟩,
   ⟨0x900028, 1, 0x0, 1, 0x0, fun _ => [PRO_GPW_BYTE]⟩,
   ⟨0x90002c, 1, 0x0, 1, 0x0, fun _ => [PRO_GCOMMIT_CLOSE]⟩,
   ⟨0x900040, 1, 0x0, 4, 0x4, fun i => [PRO_GIN_CFG_EN i, PRO_GIN_CFG_PMASK i]⟩,
   ⟨0x900050, 1, 0x0, 4, 0x4, fun i => [PRO_GOUT_EN i, PRO_GOUT_OC_SEEN i, PRO_GOUT_STUCK_ON_SEEN i, PRO_GOUT_STUCK_OFF_SEEN i, PRO_GOUT_PULSES i]⟩,
   ⟨0x900100, 1, 0x0, 32, 0x8, fun i => [PRO_TS_CFG_WARN i, PRO_TS_CFG_THROT i, PRO_TS_CFG_RATE i, PRO_TS_CFG_PMASK i]⟩,
   ⟨0x900104, 1, 0x0, 32, 0x8, fun i => [PRO_TS_STAT_TEMP i, PRO_TS_STAT_STATE i, PRO_TS_STAT_HOT_SEEN i, PRO_TS_STAT_MAX i]⟩]

/-- Part of the register map. -/
def regClasses10 : List RegClass :=
  [
   ⟨0x901000, 1, 0x0, 1024, 0x4, fun i => [PRO_GMAP_RTD i, PRO_GMAP_PMASK i, PRO_GMAP_LOSS i]⟩]

/-- The register map: every register of this space, with its fields. -/
def regClasses : List RegClass :=
  regClasses0 ++ regClasses1 ++ regClasses2 ++ regClasses3 ++ regClasses4 ++ regClasses5 ++ regClasses6 ++ regClasses7 ++ regClasses8 ++ regClasses9 ++ regClasses10

end Sys2Proof.Machine
end

