-- ==== Sys2Proof/Machine/Ops.lean ====
section
/-! DEFINITION. The named operations over the state: sparse tables in canonical form, register fields under their
access codes (R18), the records of each port, channel, block and region, time, and the uplink queues. -/

namespace Sys2Proof.Machine

/-- The outcome of a command. -/
abbrev Out := Host.Outcome State Fault Refusal

/-! ### Sparse tables -/

variable {α : Type}

/-- The value at a key; `d` where the key is not listed. -/
def tget (t : Tab α) (k : Nat) (d : α) : α :=
  match t with
  | [] => d
  | (j, v) :: r => if j = k then v else tget r k d

/-- The table without a key. -/
def tdel (t : Tab α) (k : Nat) : Tab α :=
  match t with
  | [] => []
  | (j, v) :: r => if j = k then tdel r k else (j, v) :: tdel r k

/-- The table with a value put at its place in the rising order of keys. -/
def tins (t : Tab α) (k : Nat) (v : α) : Tab α :=
  match t with
  | [] => [(k, v)]
  | (j, w) :: r => if k < j then (k, v) :: (j, w) :: r else if k = j then (k, v) :: r else (j, w) :: tins r k v

/-- The table with a key at a value; the default is never listed. -/
def tset [DecidableEq α] (t : Tab α) (k : Nat) (d v : α) : Tab α :=
  if v = d then tdel t k else tins t k v

/-- The keys rise strictly. -/
def tsorted : Tab α → Bool
  | [] => true
  | [_] => true
  | (j, _) :: (k, w) :: r => decide (j < k) && tsorted ((k, w) :: r)

/-- The canonical form: keys rise and no entry equals the default. -/
def twf [DecidableEq α] (t : Tab α) (d : α) : Bool :=
  tsorted t && t.all fun e => decide (e.2 ≠ d)

/-- Every entry changed by a function of key and value; an entry that becomes the default is no longer listed. -/
def tmap [DecidableEq α] (t : Tab α) (d : α) (g : Nat → α → α) : Tab α :=
  (t.map fun e => (e.1, g e.1 e.2)).filter fun e => decide (e.2 ≠ d)

/-- The entries whose key passes a test. -/
def tkeep (t : Tab α) (f : Nat → Bool) : Tab α := t.filter fun e => f e.1

/-! ### Register fields -/

/-- The key of a concentrator field. -/
def Fld.key (f : Fld) : Nat := f.reg * 64 + f.lo

/-- The key of a field of front-end `p`. -/
def Fld.fkey (f : Fld) (p : Nat) : Nat := p * 0x40000 + f.key

/-- The value of a concentrator field, cut to its width (R19). -/
def State.cget (s : State) (f : Fld) : Nat := tget s.creg f.key f.reset % 2 ^ f.width

/-- Hardware sets a concentrator field; the value is cut to the field's width (R19). -/
def State.cset (s : State) (f : Fld) (v : Nat) : State :=
  { s with creg := tset s.creg f.key f.reset (v % 2 ^ f.width) }

/-- The value of a field of front-end `p`, cut to its width (R19). -/
def State.fget (s : State) (p : Nat) (f : Fld) : Nat := tget s.freg (f.fkey p) f.reset % 2 ^ f.width

/-- Hardware sets a field of front-end `p`. -/
def State.fset (s : State) (p : Nat) (f : Fld) (v : Nat) : State :=
  { s with freg := tset s.freg (f.fkey p) f.reset (v % 2 ^ f.width) }

/-- A one-bit field is 1. -/
def State.con (s : State) (f : Fld) : Bool := s.cget f != 0

/-- A one-bit field of front-end `p` is 1. -/
def State.fon (s : State) (p : Nat) (f : Fld) : Bool := s.fget p f != 0

/-- A counter field goes up by `n` and saturates. -/
def State.cadd (s : State) (f : Fld) (n : Nat) : State := s.cset f (min (s.cget f + n) (2 ^ f.width - 1))

/-- A counter field goes up by one and saturates. -/
def State.cbump (s : State) (f : Fld) : State := s.cadd f 1

/-- A counter field of front-end `p` goes up by `n` and saturates. -/
def State.fadd (s : State) (p : Nat) (f : Fld) (n : Nat) : State :=
  s.fset p f (min (s.fget p f + n) (2 ^ f.width - 1))

/-- A counter field of front-end `p` goes up by one and saturates. -/
def State.fbump (s : State) (p : Nat) (f : Fld) : State := s.fadd p f 1

/-- A wrapping count goes up by `n` (two-word counters that the spec does not call saturating). -/
def State.cwrap (s : State) (f : Fld) (n : Nat) : State := s.cset f (s.cget f + n)

/-- A wrapping count of front-end `p` goes up by `n`. -/
def State.fwrap (s : State) (p : Nat) (f : Fld) (n : Nat) : State := s.fset p f (s.fget p f + n)

/-! ### Conditional steps -/

/-- `g s` if `b`, otherwise `s`. -/
def State.when (s : State) (b : Bool) (g : State → State) : State := if b then g s else s

/-! ### Records per part -/

/-- Front-end `p`. -/
def State.fe (s : State) (p : Nat) : Fe := tget s.fes p {}
/-- Front-end `p` replaced. -/
def State.setFe (s : State) (p : Nat) (x : Fe) : State := { s with fes := tset s.fes p {} x }
/-- Front-end `p` changed. -/
def State.modFe (s : State) (p : Nat) (g : Fe → Fe) : State := s.setFe p (g (s.fe p))

/-- Channel `c` of front-end `p`. -/
def State.ch (s : State) (p c : Nat) : Chan := tget s.chans (p * 512 + c) {}
/-- Channel `c` of front-end `p` replaced. -/
def State.setCh (s : State) (p c : Nat) (x : Chan) : State := { s with chans := tset s.chans (p * 512 + c) {} x }
/-- Channel `c` of front-end `p` changed. -/
def State.modCh (s : State) (p c : Nat) (g : Chan → Chan) : State := s.setCh p c (g (s.ch p c))

/-- Block `b` of front-end `p`. -/
def State.blk (s : State) (p b : Nat) : Blk := tget s.blks (p * 32 + b) {}
/-- Block `b` of front-end `p` replaced. -/
def State.setBlk (s : State) (p b : Nat) (x : Blk) : State := { s with blks := tset s.blks (p * 32 + b) {} x }
/-- Block `b` of front-end `p` changed. -/
def State.modBlk (s : State) (p b : Nat) (g : Blk → Blk) : State := s.setBlk p b (g (s.blk p b))

/-- Concentrator port `p`. -/
def State.port (s : State) (p : Nat) : Port := tget s.ports p {}
/-- Concentrator port `p` replaced. -/
def State.setPort (s : State) (p : Nat) (x : Port) : State := { s with ports := tset s.ports p {} x }
/-- Concentrator port `p` changed. -/
def State.modPort (s : State) (p : Nat) (g : Port → Port) : State := s.setPort p (g (s.port p))

/-- Concentrator region `r`. -/
def State.rgn (s : State) (r : Nat) : Region := tget s.regions r {}
/-- Concentrator region `r` replaced. -/
def State.setRgn (s : State) (r : Nat) (x : Region) : State := { s with regions := tset s.regions r {} x }
/-- Concentrator region `r` changed. -/
def State.modRgn (s : State) (r : Nat) (g : Region → Region) : State := s.setRgn r (g (s.rgn r))

/-- The time structure changed. -/
def State.modTm (s : State) (g : TimeSt → TimeSt) : State := { s with tm := g s.tm }
/-- The Firn structure changed. -/
def State.modFirn (s : State) (g : FirnSt → FirnSt) : State := { s with firn := g s.firn }
/-- The trigger structure changed. -/
def State.modTrg (s : State) (g : TrgSt → TrgSt) : State := { s with trg := g s.trg }
/-- The uplink structure changed. -/
def State.modUpl (s : State) (g : UplinkSt → UplinkSt) : State := { s with upl := g s.upl }
/-- The service-processor structure changed. -/
def State.modSp (s : State) (g : SpSt → SpSt) : State := { s with sp := g s.sp }
/-- The NVM structure changed. -/
def State.modNvm (s : State) (g : NvmSt → NvmSt) : State := { s with nvm := g s.nvm }
/-- The twin structure changed. -/
def State.modTwin (s : State) (g : TwinSt → TwinSt) : State := { s with twin := g s.twin }
/-- The protection structure changed. -/
def State.modPro (s : State) (g : ProSt → ProSt) : State := { s with pro := g s.pro }
/-- The module structure changed. -/
def State.modGlb (s : State) (g : GlbSt → GlbSt) : State := { s with glb := g s.glb }

/-- Mover channel `c`. -/
def State.mch (s : State) (c : Nat) : MvCh := tget s.mv c {}
/-- Mover channel `c` changed. -/
def State.modMch (s : State) (c : Nat) (g : MvCh → MvCh) : State := { s with mv := tset s.mv c {} (g (s.mch c)) }

/-- Link `q` of a front-end. -/
def Fe.link (x : Fe) (q : Nat) : FeLink := if q = 0 then x.link0 else x.link1
/-- Link `q` of a front-end replaced. -/
def Fe.setLink (x : Fe) (q : Nat) (l : FeLink) : Fe := if q = 0 then { x with link0 := l } else { x with link1 := l }
/-- Link `q` of front-end `p` changed. -/
def State.modLink (s : State) (p q : Nat) (g : FeLink → FeLink) : State :=
  s.modFe p fun x => x.setLink q (g (x.link q))

/-! ### Free values -/

/-- A free value, and the state that will draw another one next. -/
def State.draw (s : State) : Nat × State := (Config.freeValue s.free, { s with free := s.free + 1 })

/-! ### Time -/

/-- The absolute frame in progress (R26). -/
def State.frame (s : State) : Nat := s.tm.now.frame

/-- Nanoseconds since power-on, counted through every step. -/
def State.monoNs (s : State) : Nat := s.tm.tick * 4000 + s.tm.now.ns % 4000

/-- 2^-16 ns since power-on of an instant of the frame in progress. -/
def State.mono (s : State) (t : Inst) : Nat := s.tm.tick * instPerFrame + t

/-- Time moved forward to an instant of the frame in progress; never backwards, never past the frame. -/
def State.toInst (s : State) (t : Inst) : State :=
  let base := s.tm.now.ns / 4000 * 4000
  let cur := s.tm.now.ns % 4000 * 65536 + s.tm.now.frac
  let u := min (max t cur) (instPerFrame - 1)
  s.modTm fun m => { m with now := { m.now with ns := base + u / 65536, frac := u % 65536 } }

/-- Ticks in a number of milliseconds. -/
def ticksMs (n : Nat) : Nat := n * 250

/-- Ticks passed since tick `t`. -/
def State.since (s : State) (t : Nat) : Nat := s.tm.tick - t

/-- Two-word `F_c`-style quality code now in force (R37). -/
def State.qual (s : State) : Nat := s.cget TIM_STAT_QUAL

/-- The concentrator id (R382). -/
def State.cid (s : State) : Nat := s.cget GLB_CID_CID

/-! ### Uplink queues -/

/-- Queue `q` of group `g`. -/
def State.queue (s : State) (g q : Nat) : Queue := tget s.upl.queues (g * 5 + q) {}

/-- Words a packet takes in its queue: its descriptor and its payload (R310). -/
def Pkt.level (x : Pkt) : Nat := 1 + x.words.length

/-- Words a queue holds: the descriptor goes with the first Floe frame, and pushed words enter at their end mark (R310, R312). -/
def Queue.level (x : Queue) : Nat :=
  (x.pkts.map fun k => (if k.sent = 0 then 1 else 0) + (k.words.length - k.sent)).sum

/-- The queue put back, and its level, watermark and packet count shown (R310, R314, R322). -/
def State.setQueue (s : State) (g q : Nat) (x : Queue) : State :=
  let i := g * 5 + q
  let s1 := s.modUpl fun u => { u with queues := tset u.queues i {} x }
  let lvl := x.level
  let now := decide (s1.cget (UQ_CFG_WM i) ≤ lvl)
  let s2 := (((s1.cset (UQ_STAT_LEVEL i) lvl).cset (UQ_STAT_WM_NOW i) (b2n now)).cset (UQ_PKTS_PKTS i) x.pkts.length).cset
    (UQ_STAT_OPEN i) (b2n x.open_.isSome)
  s2.when (now && !(s.con (UQ_STAT_WM_NOW i))) fun z => z.cset (UQ_STAT_WM_SEEN i) 1

/-- Group `g` is in RUN (R299, R301). -/
def State.groupRun (s : State) (g : Nat) : Bool := s.cget (UG_STAT_STATE g) == 1

/-- A hardware writer appends a whole packet in one burst (R309, R310): dropped and counted in a DOWN group, and where
the queue has no room, dropped, counted and shown. -/
def State.enqueue (s : State) (g q : Nat) (x : Pkt) : State :=
  let i := g * 5 + q
  if s.cget (UG_STAT_STATE g) = 2 then s.cbump (UQ_ERR_DROPPED i)
  else if (s.queue g q).level + x.level > queueCapacity q then
    (s.cbump (UQ_ERR_DROPPED i)).cset (UQ_STAT_FULL_SEEN i) 1
  else s.setQueue g q { s.queue g q with pkts := (s.queue g q).pkts ++ [x] }

/-- G, the number of groups used: one more than the highest group with an enabled lane (R299). -/
def State.groupCount (s : State) : Nat :=
  ((List.range 32).foldl (fun m l =>
    if s.con (UPL_LMAP_EN (l / 8) (l % 8)) then max m (s.cget (UPL_LMAP_GROUP (l / 8) (l % 8)) + 1) else m) 1)

/-- The groups a set of bits names: bits at or above G ignored, group 0 where none is left (R306). -/
def State.groupsOf (s : State) (mask : Nat) : List Nat :=
  let gs := (List.range s.groupCount).filter fun g => bitAt mask g
  if gs.isEmpty then [0] else gs

/-- A packet queued in queue `q` of each of some groups. -/
def State.enqueueAll (s : State) (gs : List Nat) (q : Nat) (x : Pkt) : State :=
  gs.foldl (fun z g => z.enqueue g q x) s

/-- A MON packet to the groups of `UPL_CFG.MONLOG_GRPS` (R306). -/
def State.sendMon (s : State) (ws : List W64) : State :=
  s.enqueueAll (s.groupsOf (s.cget UPL_CFG_MONLOG_GRPS)) 3 { typ := 4, words := ws }

/-- A MON notice; `cause` tells the notices apart (log entry 6). -/
def State.monNotice (s : State) (cause : Nat) : State := s.sendMon (Config.monNoticeWords cause)

/-- A CTRL packet of class 0 to one group (R319). -/
def State.sendCtrl (s : State) (g : Nat) (bs : List Byte) : State :=
  s.enqueue g 0 { typ := 6, pad := (8 - bs.length % 8) % 8, words := bytesWords bs }

end Sys2Proof.Machine
end

