-- ==== Sys2Proof/Machine/Flags.lean ====
section
/-! DEFINITION. Status bits and what raising one does: ALARM packets (R321), Moraine entries (R380, R381), firewall
violations (R347, R348), and the reading and writing of a register word under the access codes of R18. -/

namespace Sys2Proof.Machine

/-! ### Register words -/

/-- A field has bits in the low (`hi = false`) or the high word of its register (R16). -/
def Fld.inWord (f : Fld) (hi : Bool) : Bool := if hi then decide (32 < f.lo + f.width) else decide (f.lo < 32)

/-- The word that the fields of a register show; write-only fields read as zero (R18, R19). -/
def regWord (get : Fld → Nat) (fs : List Fld) (hi : Bool) : Nat :=
  (fs.map fun f =>
    if f.acc = .wo then 0
    else if hi then get f * 2 ^ f.lo / 2 ^ 32 else get f * 2 ^ f.lo % 2 ^ 32).sum % 2 ^ 32

/-- The register at an address and whether the address is its high word; `step` is the distance of the two words. -/
def findReg (cs : List RegClass) (step a : Nat) : Option (List Fld × Bool) :=
  match fieldsAt cs a with
  | some fs => some (fs, false)
  | none =>
    match fieldsAt cs (a - step) with
    | some fs => if step ≤ a ∧ (fs.any fun f => decide (32 < f.lo + f.width)) then some (fs, true) else none
    | none => none

/-- The value a field holds once the word `v` is written over its bits in that word. -/
def Fld.merge (f : Fld) (old v : Nat) (hi : Bool) : Nat :=
  if hi then
    if 32 ≤ f.lo then bits v (f.lo - 32) f.width
    else old % 2 ^ (32 - f.lo) + bits v 0 (f.lo + f.width - 32) * 2 ^ (32 - f.lo)
  else
    let wl := min f.width (32 - f.lo)
    old / 2 ^ wl * 2 ^ wl + bits v f.lo wl

/-- What a write of word `v` leaves in a field (R18): `locked` after start-up, `open_` while a guarded write may pass. -/
def Fld.written (f : Fld) (old v : Nat) (hi locked open_ : Bool) : Nat :=
  if f.inWord hi then
    match f.acc with
    | .rw | .rws => f.merge old v hi
    | .lk => if locked then old else f.merge old v hi
    | .lkSp => if locked && decide (f.reg < 0x801100) then old else f.merge old v hi
    | .guarded => if open_ then f.merge old v hi else old
    | .w1c | .w1cs => old - Nat.land old (f.merge 0 v hi)
    | .ro | .wo | .rc => old
  else old

/-- A write that would change a locked field (R18). -/
def Fld.lockError (f : Fld) (old v : Nat) (hi locked : Bool) : Bool :=
  f.inWord hi && locked &&
    (decide (f.acc = .lk) || (decide (f.acc = .lkSp) && decide (f.reg < 0x801100))) && decide (f.merge old v hi ≠ old)

/-- The word a concentrator register shows now, without any effect of reading it. -/
def State.peek (s : State) (a : Nat) : Nat :=
  match findReg regClasses 4 a with
  | some (fs, hi) => regWord s.cget fs hi
  | none => 0

/-- The word a register of front-end `p` shows now, without any effect of reading it. -/
def State.fpeek (s : State) (p w : Nat) : Nat :=
  match findReg feRegClasses 1 w with
  | some (fs, hi) => regWord (s.fget p) fs hi
  | none => 0

/-! ### ALARM packets -/

/-- One ALARM packet about the register at `a` to every group in RUN (R321); on a group of version 1 it is a CTRL packet
whose payload begins with the byte 0x8F (R308). -/
def State.alarmAt (s : State) (a : Nat) : State :=
  let n := (s.upl.alarms + 1) % 2 ^ 32
  let t := s.tm.now
  let ws := [packW [(0, 32, a), (32, 32, s.peek a)], packW [(0, 48, t.sec)],
    packW [(0, 30, t.ns), (30, 16, t.frac), (46, 2, s.qual)], packW [(0, 32, n)]]
  let s1 := s.modUpl fun u => { u with alarms := n }
  (List.range 4).foldl (fun z g =>
    if z.groupRun g then
      if z.cget (UG_STAT_VER g) = 1 then z.enqueue g 0 { typ := 6, words := packW [(0, 8, 0x8F)] :: ws }
      else z.enqueue g 0 { typ := 7, words := ws }
    else z) s1

/-- One ALARM packet about the register that holds `f`. -/
def State.alarm (s : State) (f : Fld) : State := s.alarmAt (if f.lo < 32 then f.reg else f.reg + 4)

/-- A status bit named as raising an ALARM becomes 1 (R321): nothing happens where it is 1 already. -/
def State.raise (s : State) (f : Fld) : State := if s.con f then s else (s.cset f 1).alarm f

/-! ### Moraine log -/

/-- The eight words of a log entry (R380). -/
def LogEntry.words (e : LogEntry) : List W64 :=
  let ws := [BitVec.ofNat 64 e.seq, packW [(0, 48, e.time.sec), (48, 2, e.qual)],
    packW [(0, 30, e.time.ns), (30, 16, e.time.frac), (48, 16, e.code)], packW [(0, 32, e.addr), (32, 32, e.val)],
    packW [(0, 32, e.old), (32, 8, e.actor), (40, 1, b2n e.pwd), (48, 16, e.tag)], BitVec.ofNat 64 e.d5, BitVec.ofNat 64 e.d6]
  ws ++ [packW [(32, 32, crc32c (wordsBytes ws ++ leBytes 4 0))]]

/-- Areas of the NVM under program (R355, R382). -/
def State.setJournal (s : State) (js : List NvmArea) : State :=
  (s.modNvm fun n => { n with journal := js }).cset NVM_STAT_BUSY (b2n !js.isEmpty)

/-- A program of an area begins: its intent is journalled (R355); none begins in SHUTDOWN (R409). -/
def State.program (s : State) (a : NvmArea) : State :=
  if s.pro.shutdown then s else s.setJournal (s.nvm.journal ++ [a])

/-- Entries that wait are programmed once their page is erased; the page that follows is erased meanwhile (R381). -/
def State.logStart (s : State) : State :=
  match s.nvm.pending with
  | [] => s
  | e :: _ =>
    if 0 < s.nvm.logBusy ∨ s.pro.shutdown then s
    else
      let pg := e.seq % 65536 / 64
      let erase (z : State) : State :=
        if z.nvm.erasedPage.isNone ∧ !(z.nvm.journal.contains .logErase) then z.program .logErase else z
      if pg = s.nvm.page ∨ s.nvm.erasedPage = some pg then
        let n := min s.nvm.pending.length (64 - e.seq % 64)
        erase ((s.modNvm fun x => { x with
          logBusy := n, page := pg, erasedPage := if pg = x.page then x.erasedPage else none }).program .log)
      else erase s

/-- An entry with its SEQ put into the hub buffer and sent as a LOG packet (R381). -/
def State.logPut (s : State) (e : LogEntry) : State :=
  let e1 := { e with seq := s.cget MRN_SEQ_SEQ }
  let s1 := ((s.modNvm fun n => { n with pending := n.pending ++ [e1] }).cwrap MRN_SEQ_SEQ 1).logStart
  let s2 := s1.cset MRN_STAT_PEND s1.nvm.pending.length
  s2.enqueueAll (s2.groupsOf (s2.cget UPL_CFG_MONLOG_GRPS)) 3 { typ := 5, words := e1.words }

/-- An entry stamped with the time and the quality in force. -/
def State.stamp (s : State) (code addr val old actor : Nat) (pwd : Bool) (tag d5 d6 : Nat) : LogEntry :=
  { seq := 0, time := s.tm.now, qual := s.qual, code := code, addr := addr, val := val, old := old, actor := actor, pwd := pwd,
    tag := tag, d5 := d5, d6 := d6 }

/-- An entry that finds the buffer full is lost and counted (R381). -/
def State.logLose (s : State) : State :=
  (s.modNvm fun n => { n with overflow := n.overflow + 1 }).cbump MRN_STAT_LOST

/-- A Moraine entry (R380, R381): after a loss the next entry written is LOG_OVERFLOW. -/
def State.logAdd (s : State) (e : LogEntry) : State :=
  if 1024 ≤ s.nvm.pending.length then s.logLose
  else if s.nvm.overflow = 0 then s.logPut e
  else
    let s1 := (s.logPut (s.stamp 0x7F06 0 0 0 0xFF false 0 s.nvm.overflow 0)).modNvm fun n => { n with overflow := 0 }
    if 1024 ≤ s1.nvm.pending.length then s1.logLose else s1.logPut e

/-- An event entry for a bit of a register (R380): the code is the register's base divided by 2^20 and the bit's number. -/
def State.logBit (s : State) (f : Fld) (actor : Nat := 0xFF) (d5 d6 : Nat := 0) : State :=
  s.logAdd (s.stamp (f.reg / 0x100000 % 128 * 256 + f.lo) f.reg (s.peek f.reg) 0 actor false 0 d5 d6)

/-- A change entry for a register (R380). -/
def State.logChange (s : State) (addr new old actor : Nat) (pwd : Bool) (tag : Nat) : State :=
  s.logAdd (s.stamp (0x8000 + addr / 0x100000 % 128 * 256) addr new old actor pwd tag 0 0)

/-- An event entry of the start-up and update chapter's own (R380): block 0x7F. -/
def State.logOwn (s : State) (item : Nat) (addr val d5 d6 : Nat) : State :=
  s.logAdd (s.stamp (0x7F00 + item) addr val 0 0xFF false 0 d5 d6)

/-! ### The firewall -/

/-- The spaces the firewall knows (R347). -/
inductive Space where
  | control | firn | queue
  deriving DecidableEq, Repr

/-- The kinds of access (R347). -/
inductive Access where
  | read | write | fetch
  deriving DecidableEq, Repr

/-- The code of a space in `FWL_LOG0.SPACE` and `FWL_WATTR.SPACE`. -/
def Space.code : Space → Nat
  | .control => 0 | .firn => 1 | .queue => 2

/-- The code of an access in `FWL_LOG0.TYPE`. -/
def Access.code : Access → Nat
  | .read => 0 | .write => 1 | .fetch => 2

/-- Master `m` makes no access: it is frozen, or SHUTDOWN has powered its domain down (R348, R368, R409). -/
def State.frozen (s : State) (m : Nat) : Bool := s.pro.shutdown || bitAt (s.cget FWL_STAT_FROZEN) m

/-- An enabled window of master `m` permits the access (R347). -/
def State.permitted (s : State) (m : Nat) (sp : Space) (key : Nat) (a : Access) : Bool :=
  (List.range 8).any fun w =>
    let i := 8 * m + w
    s.con (FWL_WATTR_EN i) && decide (s.cget (FWL_WATTR_SPACE i) = sp.code) &&
      (match a with
        | .read => s.con (FWL_WATTR_R i) | .write => s.con (FWL_WATTR_W i) | .fetch => s.con (FWL_WATTR_X i)) &&
      decide (s.cget (FWL_WBASE_BASE i) ≤ key) && decide (key ≤ s.cget (FWL_WLIM_LIMIT i))

/-- A mover channel in a new state, and `MV_STAT.BUSY` with it (R343, R352). -/
def State.setMv (s : State) (c st : Nat) : State :=
  let b := s.cget MV_STAT_BUSY
  let off := if bitAt b c then b - 2 ^ c else b
  (s.cset (MV_CH_STAT_STATE c) st).cset MV_STAT_BUSY (if st = 0 ∨ st = 5 then off else off + 2 ^ c)

/-- A pacing event for channel `c` (R342, R346): it releases a burst, or is counted as pending. -/
def State.pace (s : State) (c : Nat) : State :=
  let st := s.cget (MV_CH_STAT_STATE c)
  let burst := if s.cget (MV_CH_CFG_BURST c) = 0 then 64 else s.cget (MV_CH_CFG_BURST c)
  if st = 2 then (s.setMv c 3).modMch c fun x => { x with released := burst }
  else if st = 1 ∨ st = 3 ∨ st = 4 then
    if s.cget (MV_CH_STAT_PENDING c) < 255 then s.cbump (MV_CH_STAT_PENDING c) else s.cbump (MV_CH_STAT_MISSED c)
  else s

/-- A field of a descriptor. -/
def MvCh.fld (x : MvCh) (w lo n : Nat) : Nat := bits (x.desc.getD w 0).toNat lo n

/-- A pacing event of source `src` for every channel whose descriptor names it; `idx` is the channel a notice comes from (R342). -/
def State.paceAll (s : State) (src idx : Nat) : State :=
  (List.range 16).foldl (fun z c =>
    let x := s.mch c
    if x.fld 2 36 4 = src ∧ (src ≠ 9 ∧ src ≠ 10 ∨ x.fld 2 40 4 = idx) then z.pace c else z) s

/-- Master `m` is frozen: its bit, and what R347's table says of it. -/
def State.freeze (s : State) (m : Nat) : State :=
  let s1 := s.cset FWL_STAT_FROZEN (Nat.lor (s.cget FWL_STAT_FROZEN) (2 ^ m))
  if m = 0 then ((s1.cset SP_STAT_FROZEN 1).cset SP_STAT_RUN 0).modSp fun x => { x with stopped := true }
  else if m ≤ 16 then s1.setMv (m - 1) 7
  else if m = 17 then
    s1.when (s.con FWL_CTRL_BK_THAW) fun z => z.modSp fun x => { x with bkThawAt := some (z.tm.tick + ticksMs 100) }
  else s1

/-- An access that no window permits (R348). -/
def State.violation (s : State) (m : Nat) (sp : Space) (key : Nat) (a : Access) : State :=
  let s1 := s.freeze m
  let s2 := s1.when (!(s.con FWL_STAT_VIOL)) fun z =>
    (((((z.cset FWL_LOG0_MASTER m).cset FWL_LOG0_SPACE sp.code).cset FWL_LOG0_TYPE a.code).cset FWL_LOG1_KEY key).cset
      FWL_LOG2_NS z.tm.now.ns).cset FWL_LOG3_SEC z.tm.now.sec
  (((s2.raise FWL_STAT_VIOL).cbump FWL_CNT_VIOL).logBit FWL_STAT_VIOL m key)

/-- An access by master `m` under the firewall: a frozen master makes none; one that no window permits is not made (R348). -/
def State.guarded (s : State) (m : Nat) (sp : Space) (key : Nat) (a : Access) (k : State → State) : State :=
  if s.frozen m then s else if s.permitted m sp key a then k s else s.violation m sp key a

/-! ### Concentrator registers under their access codes -/

/-- Where the control space has a block (R9, R38x): the block number is the address divided by 2^20. -/
def controlMapped (a : Nat) : Bool :=
  let b := a / 0x100000
  decide (a < 0x2000000) && (decide (b < 0xA) || decide (b = 0xB) || decide (b = 0xC) || decide (0x10 ≤ b))

/-- The time words of `TIM_NOW_NS` and what follows it (R62). -/
def State.timNow (s : State) (m a : Nat) : Option (Nat × State) :=
  let l := tget s.tm.nowLatch m {}
  if a = 0x200000 then
    some (s.tm.now.ns, s.modTm fun t => { t with nowLatch := tset t.nowLatch m {} t.now })
  else if a = 0x200004 then some (l.frac, s)
  else if a = 0x200008 then some (l.sec % 2 ^ 32, s)
  else if a = 0x20000c then some (l.sec / 2 ^ 32 % 2 ^ 16, s)
  else if a = 0x200010 then some (s.tm.now.fis + s.frame % 256 * 2 ^ 18, s)
  else none

/-- A read of the low word of a two-word quantity latches its high word for the reading master (R16). -/
def State.latchHigh (s : State) (m a v : Nat) : State :=
  s.modSp fun x => { x with latch := tset x.latch (m * 2 ^ 32 + a) 0 (BitVec.ofNat 32 v) }

/-- A read of one concentrator register word by master `m`: RC fields are cleared, two-word quantities latched (R16, R18). -/
def State.readReg (s : State) (m a : Nat) : Nat × State :=
  match s.timNow m a with
  | some r => r
  | none =>
    match findReg regClasses 4 a with
    | none => (0, s)
    | some (_, true) => ((tget s.sp.latch (m * 2 ^ 32 + (a - 4)) 0).toNat, s)
    | some (fs, false) =>
      let v := regWord s.cget fs false
      let s1 := s.when (fs.any fun f => decide (32 < f.lo + f.width)) fun z => z.latchHigh m a (regWord z.cget fs true)
      (v, fs.foldl (fun z f => if f.acc = .rc ∧ f.inWord false then z.cset f 0 else z) s1)

/-- A write of one concentrator register word under its access codes; the Bool is the access error of R18. -/
def State.writeReg (s : State) (m a v : Nat) : State × Bool :=
  match findReg regClasses 4 a with
  | none => (s, false)
  | some (fs, hi) =>
    let locked := s.glb.locked
    let open_ := decide (m = 0) && s.con PRO_GWIN_OPEN
    let err := fs.any fun f => f.lockError (s.cget f) v hi locked
    let refused := !open_ && fs.any fun f => decide (f.acc = .guarded) && f.inWord hi
    let s1 := fs.foldl (fun z f => z.cset f (f.written (s.cget f) v hi locked open_)) s
    (s1.when refused fun z => z.cset PRO_STAT_CFG_ERR 1, err)

/-- The answer a master's access receives: the access error, and the data of a read (R18, R181, R312). -/
def State.answer (s : State) (m : Nat) (err : Bool) (d : Nat) : State :=
  s.modSp fun x => { x with answers := tset x.answers m (false, 0) (err, d) }

/-- A write that has been made, answered. -/
def State.answered (x : State × Bool) (m : Nat) : State := x.1.answer m x.2 0

/-! ### Front-end registers under their access codes -/

/-- A read of one word of front-end `p` through face `q`, for words without a rule of their own (R18, R137). -/
def State.feReadReg (s : State) (p q w : Nat) : Nat × State :=
  match findReg feRegClasses 1 w with
  | none => (0, s)
  | some (_, true) => (tget ((s.fe p).link q).latch (w - 1) 0, s)
  | some (fs, false) =>
    let v := regWord (s.fget p) fs false
    let s1 := s.when (fs.any fun f => decide (32 < f.lo + f.width)) fun z =>
      z.modLink p q fun l => { l with latch := tset l.latch w 0 (regWord (s.fget p) fs true) }
    (v, fs.foldl (fun z f => if f.acc = .rc ∧ f.inWord false then z.fset p f 0 else z) s1)

/-- A write of one word of front-end `p` under its access codes. -/
def State.feWriteReg (s : State) (p w v : Nat) : State :=
  match findReg feRegClasses 1 w with
  | none => s
  | some (fs, hi) => fs.foldl (fun z f => z.fset p f (f.written (s.fget p f) v hi false true)) s

/-- A write of word `w` of front-end `p` that acts from instant `eff` on, 2^-16 ns since power-on (R69, R70, R98, R119): the word
before it stays in force up to then, and is kept for a frame more. -/
def State.feWriteLater (s : State) (p w v eff : Nat) : State :=
  (s.feWriteReg p w v).modFe p fun x => { x with
    writes := (x.writes.filter fun e => decide (s.tm.tick * instPerFrame < e.eff + instPerFrame)) ++
      [{ eff := eff, word := w, old := s.fpeek p w }] }

/-- A field of front-end `p` as it is in force at instant `m`, 2^-16 ns since power-on. -/
def State.fgetAt (s : State) (p : Nat) (f : Fld) (m : Nat) : Nat :=
  match (s.fe p).writes.find? fun e => decide (e.word = f.reg) && decide (m < e.eff) with
  | some e => bits e.old f.lo f.width
  | none => s.fget p f

/-- A one-bit field of front-end `p` is 1 at instant `m`. -/
def State.fonAt (s : State) (p : Nat) (f : Fld) (m : Nat) : Bool := s.fgetAt p f m != 0

/-- The start of the fc cycle after the one that holds an instant, 2^-16 ns since power-on (R69). -/
def nextFc (m : Nat) : Nat := (m / 262144 + 1) * 262144

end Sys2Proof.Machine
end

