-- ==== Sys2Proof/Machine/Channel.lean ====
section
/-! DEFINITION. The front-end channel: edges, interpolators, code density, trailing edges, the gate and the test pulse
(R63–R107). Crossings with the level they reach and raw codes of converters come in as operands; everything the channel logic computes
from them is computed here. Writes of `CH_CFG`, `GATE_CFG` and reads of `CHCNT_DATA` are operations that slow control calls. -/

namespace Sys2Proof.Machine

/-! ### Front-end time -/

/-- Frames counted by front-end `p` modulo 65,536 s: seconds [15:0] × 250,000 + frame-in-second (R28). -/
def State.feFrame (s : State) (p : Nat) : Nat :=
  let x := s.fe p
  (x.sec * framesPerSec + x.fis + 65536 * framesPerSec + s.tm.tick - x.atTick) % (65536 * framesPerSec)

/-- Front-end `p` has power and is not held by its thermal protection. -/
def State.feLive (s : State) (p : Nat) : Bool := (s.fe p).powered && !(s.fe p).shutdown

/-- The facts of the frame in progress changed. -/
def State.modFacts (s : State) (p : Nat) (g : FrameFacts → FrameFacts) : State :=
  s.modFe p fun x => { x with factsNow := g x.factsNow }

/-! ### Channel state -/

/-- Interpolator `x` of a channel. -/
def Chan.intp (h : Chan) (x : Nat) : Interp := if x = 0 then h.intA else h.intB
/-- Interpolator `x` of a channel replaced. -/
def Chan.setIntp (h : Chan) (x : Nat) (i : Interp) : Chan := if x = 0 then { h with intA := i } else { h with intB := i }

/-- The interpolator has finished its last edge and holds a pair young enough at `ns` since power-on (R77, R81). -/
def Interp.ready (i : Interp) (ns : Nat) : Bool := i.converted && i.pair.isSome && decide (ns ≤ i.pairAt + 4000)

/-- Neither interpolator is armed. -/
def Chan.noneArmed (h : Chan) : Bool := decide (h.intA.role ≠ .armed) && decide (h.intB.role ≠ .armed)

/-- An armed interpolator whose pair is too old is not armed (R81). -/
def Interp.fresh (i : Interp) (ns : Nat) : Interp := if i.role = .armed ∧ !(i.ready ns) then { i with role := .idle } else i

/-- If neither interpolator is armed and one is ready, a ready one becomes armed (R77); with both ready the choice is open. -/
def Chan.rearm (h : Chan) (ns key : Nat) : Chan :=
  if h.noneArmed then
    let a := h.intA.ready ns
    let b := h.intB.ready ns
    let x := if a && b then b2n (Config.firstInterp key) else if a then 0 else if b then 1 else 2
    if x = 2 then h else h.setIntp x { h.intp x with role := .armed }
  else h

/-- The interpolators as an edge at `ns` finds them (R77, R81): one that is ready, since before the channel was armed or since later, is
armed, and a stale one is not. -/
def Chan.settle (h : Chan) (ns key : Nat) : Chan :=
  Chan.rearm { h with intA := h.intA.fresh ns, intB := h.intB.fresh ns } ns key

/-- Channel `c` of front-end `p` is armed at `ns` since power-on (R70, R72, R157, R158): a port of its front-end is
in RUN (R182). -/
def State.armedAt (s : State) (p c ns : Nat) : Bool :=
  let h := s.ch p c
  s.feLive p && !(s.fon p DF_STAT_STANDBY) &&
    (decide (s.fget p (LNK_STAT_STATE 0) = 6) || decide (s.fget p (LNK_STAT_STATE 1) = 6)) &&
    (match (s.fe p).wakeTick with | some w => decide (w * 4000 + 32 ≤ ns) | none => true) &&
    (match h.armedFrom with | some a => decide (a ≤ ns) | none => false) &&
    (match h.armedTo with | some a => decide (ns < a) | none => true)

/-- A 16-bit saturating count. -/
def sat16 (n : Nat) : Nat := min (n + 1) 65535

/-- The timing threshold V_T at instant `m`, in units of 0.25 mV (R66, R69). -/
def State.thrT (s : State) (p c m : Nat) : Nat := s.fgetAt p (BLK_THR_DAC (c / 16)) m * 2 + s.fgetAt p (CH_THR_TRIM c) m - 32

/-- The release level V_R at instant `m`, in units of 0.25 mV (R67, R69). -/
def State.thrR (s : State) (p c m : Nat) : Nat := s.thrT p c m - s.fgetAt p (CH_CFG_HYST c) m

/-- The validation threshold V_V at instant `m`, in units of 0.25 mV (R68, R69). -/
def State.thrV (s : State) (p c m : Nat) : Nat := s.fgetAt p (CH_THR_VAL c) m * 4

/-- An excursion in µV in the direction that `CH_CFG.POL` selects (R64, R108). -/
def State.along (s : State) (p c m : Nat) (level : Int) : Int := if s.fonAt p (CH_CFG_POL c) m then -level else level

/-- The output is above V_T (R67). -/
def State.aboveT (s : State) (p c m : Nat) (level : Int) : Bool := decide ((s.thrT p c m * 250 : Nat) < s.along p c m level)

/-- The output is at or below V_R (R67). -/
def State.atMostR (s : State) (p c m : Nat) (level : Int) : Bool := decide (s.along p c m level ≤ (s.thrR p c m * 250 : Nat))

/-! ### Leading edges -/

/-- The first hit that satisfies a test is changed; the others stay. -/
def modFirst (f : Hit → Bool) (g : Hit → Hit) : List Hit → List Hit
  | [] => []
  | h :: r => if f h then g h :: r else h :: modFirst f g r

/-- An edge that opens a busy interval clears the holds: an earlier hit before its sample is invalid (R117). -/
def clashHit (at_ : Nat) (h : Hit) : Hit :=
  match h.amp with
  | .waiting => { h with amp := .clash }
  | .converting _ => if at_ < (h.startEdge.getD 0 + 20) * 65536 then { h with amp := .clash } else h
  | _ => h

/-- Instant of a hit's leading edge, 2^-16 ns since power-on. -/
def Hit.mono (h : Hit) : Nat := h.tick * instPerFrame + h.at_

/-- Saturation instant of a hit: 255.9375 ns after its edge (R91). -/
def Hit.satAt (h : Hit) : Nat := h.mono + 16773120

/-- The sample instant of a hit's conversion, 20 ns after its start edge, has passed (R109, R112). -/
def Hit.sampled (h : Hit) (m : Nat) : Bool :=
  match h.startEdge with
  | some e => decide ((e + 20) * 65536 ≤ m)
  | none => false

/-- The holds of a hit see an excursion of `v` µV at instant `m`, up to the sample instant (R108, R109). -/
def Hit.sees (h : Hit) (m : Nat) (v : Int) : Hit :=
  if h.sampled m then h else { h with hold8 := max h.hold8 v, hold1 := max h.hold1 v }

/-- A leading edge inside a busy interval (R73, R76, R92, R108): counted, shown by the owner while it is not final, and no clearing of
the holds. -/
def Chan.pileUp (h : Chan) (at_ : Nat) (v : Int) : Chan :=
  let mark (x : Hit) : Hit := { x.sees at_ v with pileup := x.pileup || (!x.sat && decide (at_ < x.satAt)) }
  { h with
    pileup := sat16 h.pileup, hits := modFirst (fun x => decide (some x.mono = h.busyHit)) mark h.hits, discHigh := true,
    orphanNext := false }

/-- The validation window W of a channel in 2^-16 ns (R75). -/
def State.valWindow (s : State) (p c m : Nat) : Nat :=
  (((s.fgetAt p (CH_CFG_VAL_WIN c) m + 1) * 65536 : Nat) + max (-65536) (min 65536 (Config.valSkew (p * 512 + c)))).toNat

/-- A leading edge outside every busy interval (R73, R77–R81, R108, R117). -/
def State.openBusy (s : State) (p c : Nat) (t raw : Nat) (level : Int) : State :=
  let m := s.mono t
  let ns := m / 65536
  let h := (s.ch p c).settle ns (p * 512 + c)
  let h1 := { h with
    busyUntil := some (m + 6 * 65536), discHigh := true, orphanNext := false, hits := h.hits.map (clashHit m), busyHit := none }
  let b := c / 16
  let x := if h.intA.role = .armed then 0 else if h.intB.role = .armed then 1 else 2
  if x = 2 then s.setCh p c { h1 with noCal := sat16 h1.noCal }
  else
    let i := h1.intp x
    let hit : Hit := {
      at_ := t, tick := s.tm.tick, int := x, raw := raw, stop := t / 65536 + 2,
      c1 := (i.pair.getD (0, 0)).1, c2 := (i.pair.getD (0, 0)).2,
      valid := if s.fonAt p (CH_CFG_VAL_EN c) m && decide (s.thrT p c m < s.thrV p c m) then none else some true,
      valWin := s.valWindow p c m, hold8 := s.along p c m level, hold1 := s.along p c m level,
      amp := if s.fonAt p (BLK_ADC_EN b) m then .waiting else .off,
      adcMode := s.fgetAt p (BLK_ADC_MODE b) m, adcDly := s.fgetAt p (BLK_ADC_DLY b) m, hitTick := s.tm.tick }
    let h2 := h1.setIntp x { i with role := .converting, converted := false }
    let o := h2.intp (1 - x)
    let h3 := if o.role = .idle ∧ o.ready ns then h2.setIntp (1 - x) { o with role := .armed } else h2
    s.setCh p c { h3 with hits := h3.hits ++ [hit], busyHit := some m }

/-- LEADING_EDGE (R66, R67, R73, R76–R81, R92, R108, R117, R118): the output rises above V_T while the discriminator is low. An unarmed
channel takes no edge. -/
def execLeadingEdge (p : PortIx) (c : ChIx) (t : Crossing) (raw : BitVec 12) (s : State) : Out :=
  .next (
    let s0 := s.toInst t.at_
    let m := s0.mono t.at_
    let v := s0.along p.val c.val m t.level
    if (s0.ch p.val c.val).discHigh || !(s0.aboveT p.val c.val m t.level) then s0
    else if !(s0.armedAt p.val c.val (m / 65536)) then s0.modCh p.val c.val fun h => { h with discHigh := true }
    else match (s0.ch p.val c.val).busyUntil with
      | some u => if m < u then s0.modCh p.val c.val fun h => h.pileUp m v else s0.openBusy p.val c.val t.at_ raw.toNat t.level
      | none => s0.openBusy p.val c.val t.at_ raw.toNat t.level)

/-! ### Fine time -/

/-- The bin table: `E s` for s = 0 to 64; an empty list is the uniform table (R82, R88). -/
def binE (tbl : List Nat) (i : Nat) : Nat := if i = 0 then 0 else if 64 ≤ i then 4096 else tbl.getD (i - 1) (64 * i)

/-- The linearised value `v` of R82 for raw code `r` and pair `c1`, `c2`. -/
def linV (stop r c1 c2 : Nat) : Int :=
  ((stop : Int) - 1) * 2 ^ 24 - ((r : Int) - c1) * (roundDiv (2 ^ 24) (c2 - c1) : Nat)

/-- The position p of a linearised value in 1/1,024 ns (R82). -/
def linP (v : Int) : Nat := (v / 2 ^ 14 % 1024).toNat

/-- An entry as a lookup reads it: an entry that fails its parity check gives its uniform value (R88). -/
def binRead (tbl : List Nat) (i : Nat) (bad : Bool) : Nat := if bad then 64 * i else binE tbl i

/-- The fine time of a position (R82); `bad` names the entries that fail their parity check (R88). -/
def fineOf (tbl : List Nat) (pos : Nat) (bad : EntryParity) : Nat :=
  let lo := binRead tbl (pos / 16) bad.lo
  let hi := binRead tbl (pos / 16 + 1) bad.hi
  (((lo : Int) + ((hi : Int) - lo) * (pos % 16 : Nat) / 16) / 8).toNat

/-- The table in force in the frame of tick `tk` (R87). -/
def Interp.tableAt (i : Interp) (tk : Nat) : List Nat := if tk < i.tableFrom then i.prev else i.table

/-- A table comes into force at tick `tk` (R87, R88). -/
def Interp.install (i : Interp) (tbl : List Nat) (tk : Nat) : Interp := { i with table := tbl, prev := i.tableAt (tk - 1), tableFrom := tk }

/-- A conversion whose x lies outside −0.25 to +1.25 is void (R83). -/
def outOfRange (r c1 c2 : Nat) : Bool :=
  let n : Int := 4 * ((r : Int) - c1)
  let d : Int := (c2 : Int) - c1
  decide (n < -d) || decide (5 * d < n)

/-- The effective gate at a nanosecond since power-on, from its recent changes (R97). -/
def gateAt (hist : List (Nat × Bool)) (ns : Nat) (now : Bool) : Bool :=
  match hist with
  | [] => now
  | (t, o) :: r => if t ≤ ns then o else gateAt r ns (!o)

/-- A hit with its coarse time and its frame (R82, R84). -/
def Hit.placed (h : Hit) : Hit :=
  let co := linV h.stop h.raw h.c1 h.c2 / 2 ^ 24
  if co < 0 then { h with coarse := some (co + 4000).toNat, hitTick := h.tick - 1 }
  else if 4000 ≤ co then { h with coarse := some (co - 4000).toNat, hitTick := h.tick + 1 }
  else { h with coarse := some co.toNat, hitTick := h.tick }

/-- A hit with its coarse and fine time and its frame (R82, R84), by the table of that frame (R87). -/
def Hit.timed (h : Hit) (i : Interp) (bad : EntryParity) : Hit :=
  let n := h.placed
  { n with fine := fineOf (i.tableAt n.hitTick) (linP (linV h.stop h.raw h.c1 h.c2)) bad }

/-- A lookup at segment `s` reads a stored entry that fails its parity check: E[0] and E[64] are not stored (R82, R88). -/
def entryFails (b : EntryParity) (s : Nat) : Bool := (b.lo && decide (s ≠ 0)) || (b.hi && decide (s ≠ 63))

/-- A parity error of a bin table was found at a lookup (R88). -/
def State.binParity (s : State) (p c x : Nat) : State :=
  let b := c / 16
  let s1 := ((s.fset p (BLK_CDSTAT_PERR b) 1).fbump p (BLK_CDSTAT_PERR_CNT b)).modBlk p b fun k => { k with cdNext := some (c % 16) }
  (s1.modCh p c fun h => h.setIntp x { h.intp x with resetPending := true }).modFacts p fun f => { f with calAlarm := true }

/-- FINE_TIME_READY (R76, R82–R84, R87, R88, R97, R105): the oldest hit without a fine time is linearised and judged. -/
def execFineTimeReady (p : PortIx) (c : ChIx) (parityErr : EntryParity) (s : State) : Out :=
  .next (
    match (s.ch p.val c.val).hits.find? fun x => x.coarse.isNone with
    | none => s
    | some hit =>
      let put (z : State) (n : Hit) : State :=
        z.modCh p.val c.val fun h => { h with hits := modFirst (fun x => x.coarse.isNone) (fun _ => n) h.hits }
      if outOfRange hit.raw hit.c1 hit.c2 then
        (put s { hit with coarse := some 0, rejected := true }).modCh p.val c.val fun h => { h with range := sat16 h.range }
      else
        let seg := linP (linV hit.stop hit.raw hit.c1 hit.c2) / 16
        let n := hit.timed ((s.ch p.val c.val).intp hit.int)
          { lo := parityErr.lo && decide (seg ≠ 0), hi := parityErr.hi && decide (seg ≠ 63) }
        let ns := n.hitTick * 4000 + n.coarse.getD 0
        let open_ := gateAt (s.fe p.val).gateHist ns (s.fon p.val GATE_STAT_OPEN)
        let ok := !(s.fonAt p.val (CH_CFG_GATE_EN c.val) hit.mono) || open_
        let s1 := put s { n with rejected := n.rejected || !ok }
        s1.when (entryFails parityErr seg) fun z => z.binParity p.val c.val hit.int)

/-- The length of a hit's validation window, 2^-16 ns: W, or less where the trailing edge comes first (R75). -/
def Hit.valSpan (h : Hit) : Nat :=
  match h.teInst with
  | some te => min h.valWin (te - h.mono)
  | none => h.valWin

/-- The validation discriminator is high at some instant of a hit's window (R75). -/
def Hit.validated (h : Hit) (x : ValLook) : Bool := x.spans.any fun e => decide (e.1 ≤ h.valSpan) && decide (e.1 ≤ e.2)

/-- A hit that waits for a decision that is due: 2 ns after the end of its window (R93). -/
def Hit.valDue (h : Hit) (m : Nat) : Bool := h.valid.isNone && decide (h.mono + h.valSpan + 2 * 65536 ≤ m)

/-- VALIDATION_DECIDED (R68, R75, R93): the oldest hit whose window has ended is validated or rejected. -/
def execValidationDecided (p : PortIx) (c : ChIx) (high : ValLook) (s : State) : Out :=
  .next (
    let s0 := s.toInst high.at_
    let m := s0.mono high.at_
    match (s0.ch p.val c.val).hits.find? fun x => x.valDue m with
    | none => s0
    | some hit =>
      let v := hit.validated high
      s0.modCh p.val c.val fun h => { h with
        hits := modFirst (fun x => x.valDue m) (fun x => { x with valid := some v, rejected := x.rejected || !v }) h.hits,
        valRej := if v then h.valRej else sat16 h.valRej })

/-! ### Trailing edges -/

/-- A hit that waits for its trailing edge. -/
def Hit.open_ (h : Hit) : Bool := h.teInst.isNone && !h.sat

/-- The trailing-edge time in 1/16 ns since power-on of a crossing `t` after tick `tk` (R78, R82, R90): the trailing-edge interpolator
stops on the second coarse edge after it, and its pair places it. Before a first pair the place in the nanosecond is open (log entry 85). -/
def Chan.teTime (h : Chan) (tk t raw key : Nat) : Nat :=
  let stop := t / 65536 + 2
  let rel : Int :=
    if h.tePair.1 < h.tePair.2 then linV stop raw h.tePair.1 h.tePair.2 / 2 ^ 20
    else ((16 * (stop - 2) + Config.teFirst key % 16 : Nat) : Int)
  ((tk * 64000 : Nat) + rel).toNat

/-- TRAILING_EDGE (R67, R71–R73, R90, R91): the output falls to V_R while the discriminator is high. It completes the hit that waits for
one, ends a pile-up edge, or is an orphan. -/
def execTrailingEdge (p : PortIx) (c : ChIx) (t : TeCrossing) (s : State) : Out :=
  .next (
    let s0 := s.toInst t.at_
    let m := s0.mono t.at_
    let h := { s0.ch p.val c.val with discHigh := false, discLow := m }
    let hold := m + s0.fgetAt p.val (CH_CFG_HOLDOFF c.val) m * 65536
    let ext : Option Nat := some (max (h.busyUntil.getD 0) hold)
    if !(s0.ch p.val c.val).discHigh || !(s0.atMostR p.val c.val m t.level) then s0
    else if h.hits.any Hit.open_ then
      let te := h.teTime s0.tm.tick t.at_ t.raw.toNat (p.val * 512 + c.val)
      s0.setCh p.val c.val { h with
        busyUntil := ext, orphanNext := false,
        hits := modFirst Hit.open_ (fun x => if x.satAt ≤ m then { x with sat := true } else { x with teInst := some m, te16 := te }) h.hits }
    else if !(s0.armedAt p.val c.val (m / 65536)) then
      s0.setCh p.val c.val { h with busyUntil := h.busyUntil.map fun _ => max (h.busyUntil.getD 0) hold }
    else if h.orphanNext then
      (s0.setCh p.val c.val { h with busyUntil := ext, orphanNext := false, orphan := sat16 h.orphan }).modFacts
        p.val fun f => { f with orphan := true }
    else s0.setCh p.val c.val { h with busyUntil := ext })

/-- TOT_SATURATION (R91, R92): no trailing edge came within 255.9375 ns. -/
def execTotSaturation (p : PortIx) (c : ChIx) (s : State) : Out :=
  .next (s.modCh p.val c.val fun h => { h with hits := modFirst Hit.open_ (fun x => { x with sat := true }) h.hits })

/-- BUSY_END (R73, R93): the busy interval has ended and holds back its hit no longer. -/
def execBusyEnd (p : PortIx) (c : ChIx) (s : State) : Out :=
  .next (
    let h := s.ch p.val c.val
    match h.busyUntil with
    | none => s
    | some u =>
      if h.discHigh then s
      else
        let s1 := s.toInst (u - s.tm.tick * instPerFrame)
        s1.setCh p.val c.val { h with
          busyUntil := none, busyHit := none,
          hits := modFirst (fun x => decide (some x.mono = h.busyHit)) (fun x => { x with busyOver := true }) h.hits })

/-! ### Calibration -/

/-- The interpolators of front-end `p` are powered (R157). -/
def State.feMeasures (s : State) (p : Nat) : Bool := s.feLive p && (s.fe p).analogOn

/-- CALIBRATION_PAIR (R79, R105): an interpolator that is not armed measures a pair. -/
def execCalibrationPair (p : PortIx) (c : ChIx) (x : IntIx) (t : Inst) (c1 c2 : BitVec 12) (s : State) : Out :=
  .next (
    let s0 := s.toInst t
    let ns := s0.mono t / 65536
    let h := s0.ch p.val c.val
    let i := h.intp x.val
    if !(s0.feMeasures p.val) || decide (i.role = .armed) then s0
    else if c1.toNat + 768 ≤ c2.toNat ∧ c2.toNat ≤ c1.toNat + 1280 then
      let h1 := h.setIntp x.val { i with pair := some (c1.toNat, c2.toNat), pairAt := ns }
      s0.setCh p.val c.val (if s0.armedAt p.val c.val ns then h1.rearm ns (p.val * 512 + c.val) else h1)
    else if s0.armedAt p.val c.val ns then s0.setCh p.val c.val { h with calFail := sat16 h.calFail }
    else s0)

/-- INTERPOLATOR_READY (R77, R80): an interpolator that took an edge has converted it and measured a pair. -/
def execInterpolatorReady (p : PortIx) (c : ChIx) (x : IntIx) (s : State) : Out :=
  .next (
    let h := s.ch p.val c.val
    let i := h.intp x.val
    if i.role = .converting ∧ s.feMeasures p.val then
      let h1 := h.setIntp x.val { i with role := .idle, converted := true }
      s.setCh p.val c.val (if s.armedAt p.val c.val s.monoNs then h1.rearm s.monoNs (p.val * 512 + c.val) else h1)
    else s)

/-- SCHEDULED_SWAP (R80): the idle interpolator becomes armed and the armed one idle, if the idle one is ready. -/
def execScheduledSwap (p : PortIx) (c : ChIx) (s : State) : Out :=
  .next (
    let h := s.ch p.val c.val
    if !(s.armedAt p.val c.val s.monoNs) then s
    else
      let x := if h.intA.role = .armed then 0 else 1
      let o := h.intp (1 - x)
      if h.noneArmed then s.setCh p.val c.val (h.rearm s.monoNs (p.val * 512 + c.val))
      else if o.role = .idle ∧ o.ready s.monoNs then
        s.setCh p.val c.val ((h.setIntp x { h.intp x with role := .idle }).setIntp (1 - x) { o with role := .armed })
      else s)

/-- PAIR_STALE (R81): a pair completed more than 4,000 ns ago makes its interpolator unready, and it is not armed. -/
def execPairStale (p : PortIx) (c : ChIx) (x : IntIx) (s : State) : Out :=
  .next (
    let h := s.ch p.val c.val
    let i := h.intp x.val
    if i.pairAt + 4000 < s.monoNs ∧ i.role = .armed then
      s.setCh p.val c.val ((h.setIntp x.val { i with role := .idle }).rearm s.monoNs (p.val * 512 + c.val))
    else s)

/-- TE_CAL_PAIR (R90): the trailing-edge pair of the frame, begun once the discriminator has been low for 8 ns. A leading edge since
then aborts it. -/
def execTeCalPair (p : PortIx) (c : ChIx) (t : Span) (c1 c2 : BitVec 12) (s : State) : Out :=
  .next (
    let s0 := s.toInst t.to_
    let h := s0.ch p.val c.val
    if !(s0.feMeasures p.val) || h.discHigh || h.teDone || decide (s0.mono t.from_ < h.discLow + 8 * 65536) then s0
    else s0.setCh p.val c.val
      { h with tePair := (c1.toNat, c2.toNat), teAt := s0.mono t.to_ / 65536, teDone := true })

/-- A write of `CH_CFG` with its effect on the channel (R70–R72); the write takes effect on the fc cycle after it. -/
def State.opChCfg (s : State) (p c t v : Nat) : State :=
  let was := s.fon p (CH_CFG_EN c)
  let s1 := s.feWriteLater p (0x100 + 2 * c) v (nextFc (s.mono t))
  let now := s1.fon p (CH_CFG_EN c)
  let eff := nextFc (s.mono t) / 65536
  if now && !was then
    s1.modCh p c fun h => ({ h with armedFrom := some (eff + 32), armedTo := none, orphanNext := true } : Chan).rearm eff (p * 512 + c)
  else if was && !now then s1.modCh p c fun h => { h with armedTo := some eff }
  else s1

/-! ### Code density -/

/-- The next channel of block `b` with `CD_EN` after channel `k` of the block (R86). -/
def State.cdAfter (s : State) (p b k : Nat) : Nat :=
  (((List.range 16).map fun j => (k + 1 + j) % 16).find? fun j => s.fon p (CH_CFG_CD_EN (16 * b + j))).getD k

/-- Samples a histogram needs: 2^LOG, a LOG outside 14–20 acting as 18 (R86). -/
def State.cdN (s : State) (p b : Nat) : Nat :=
  let l := s.fget p (BLK_CD_LOG b)
  2 ^ (if 14 ≤ l ∧ l ≤ 20 then l else 18)

/-- A histogram with one more sample at `pos`. -/
def histAdd (h : Tab Nat) (pos : Nat) : Tab Nat := tset h pos 0 (tget h pos 0 + 1)

/-- The block's engine on a channel that takes part: a selected channel without `CD_EN` gives way to the next one with it (R86). -/
def State.cdBlk (s : State) (p b : Nat) : Blk :=
  let k := s.blk p b
  if s.fon p (CH_CFG_CD_EN (16 * b + k.cdSel)) then k
  else { k with cdSel := s.cdAfter p b k.cdSel, histA := [], histB := [], nA := 0, nB := 0 }

/-- CD_SAMPLE (R85, R86): it goes to the histogram of the interpolator that is idle. R86 speaks of the one that was idle; with both idle, in
a channel that is not armed, the model fills A's first (log entry 86). -/
def execCdSample (p : PortIx) (b : BlkIx) (stop : Nat) (raw : BitVec 12) (s : State) : Out :=
  .next (
    let k := s.cdBlk p.val b.val
    let c := 16 * b.val + k.cdSel
    let h := s.ch p.val c
    let n := s.cdN p.val b.val
    let idle (i : Interp) : Bool := decide (i.role = .idle) && i.pair.isSome
    let x := if idle h.intA && decide (k.nA < n) then 0 else if idle h.intB && decide (k.nB < n) then 1 else 2
    if x = 2 ∨ !(s.fon p.val (BLK_CD_EN b.val)) ∨ !(s.fon p.val (CH_CFG_CD_EN c)) ∨ !(s.fe p.val).analogOn then s
    else
      let pr := (h.intp x).pair.getD (0, 0)
      let pos := linP (linV stop raw.toNat pr.1 pr.2)
      (s.setBlk p.val b.val (if x = 0 then { k with histA := histAdd k.histA pos, nA := k.nA + 1 }
        else { k with histB := histAdd k.histB pos, nB := k.nB + 1 })).fset p.val (BLK_CDSTAT_CH b.val) k.cdSel)

/-- The number of samples of a histogram below `m` (R86). -/
def histBelow (h : Tab Nat) (m : Nat) : Nat := (h.map fun e => if e.1 < m then e.2 else 0).sum

/-- The table computed from a histogram of `n` samples (R86). -/
def cdTable (site : Nat) (h : Tab Nat) (n : Nat) : List Nat :=
  (List.range 63).map fun i => (roundHalf site (4096 * (histBelow h (16 * (i + 1)) : Nat)) n).toNat

/-- Every segment is 32 to 96 wide (R87). -/
def tableOk (tbl : List Nat) : Bool :=
  (List.range 64).all fun i => decide (binE tbl i + 32 ≤ binE tbl (i + 1)) && decide (binE tbl (i + 1) ≤ binE tbl i + 96)

/-- CD_TABLE_COMPUTE (R86, R87): once both histograms are full. -/
def execCdTableCompute (p : PortIx) (b : BlkIx) (s : State) : Out :=
  .next (
    let k := s.blk p.val b.val
    let n := s.cdN p.val b.val
    if k.nA < n ∨ k.nB < n then s
    else
      let ta := cdTable (2 * b.val) k.histA n
      let tb := cdTable (2 * b.val + 1) k.histB n
      let good := (if tableOk ta then [(k.cdSel, 0, ta)] else []) ++ (if tableOk tb then [(k.cdSel, 1, tb)] else [])
      let nxt := k.cdNext.getD (s.cdAfter p.val b.val k.cdSel)
      let s1 := s.setBlk p.val b.val { k with
        histA := [], histB := [], nA := 0, nB := 0, newTables := k.newTables ++ good, cdSel := nxt, cdNext := none }
      (s1.fset p.val (BLK_CDSTAT_CH b.val) nxt).fadd p.val (BLK_CDSTAT_REJECT b.val) (2 - good.length))

/-- The tick at which something that is due at a frame tick happens: this one at its very instant, otherwise the next. -/
def State.tickDue (s : State) : Nat := if s.tm.now.ns % 4000 = 0 ∧ s.tm.now.frac = 0 then s.tm.tick else s.tm.tick + 1

/-- CD_TABLE_INSTALL (R87): accepted tables come into force at a frame tick; hits of earlier frames keep the table before. -/
def execCdTableInstall (p : PortIx) (b : BlkIx) (s : State) : Out :=
  .next (
    let k := s.blk p.val b.val
    let s1 := k.newTables.foldl (fun z e =>
      z.modCh p.val (16 * b.val + e.1) fun h => h.setIntp e.2.1 ((h.intp e.2.1).install e.2.2 s.tickDue)) s
    (s1.setBlk p.val b.val { k with newTables := [] }).fadd p.val (BLK_CDSTAT_DONE b.val) k.newTables.length)

/-- BIN_TABLE_RESET (R88): at the tick after a parity error the table takes its uniform values. -/
def execBinTableReset (p : PortIx) (c : ChIx) (x : IntIx) (s : State) : Out :=
  .next (s.modCh p.val c.val fun h =>
    if (h.intp x.val).resetPending then h.setIntp x.val { (h.intp x.val).install [] s.tickDue with resetPending := false } else h)

/-! ### The gate -/

/-- The effective gate under `GATE_CFG.MODE` as it acts at instant `at_`, 2^-16 ns since power-on (R94, R98). -/
def State.gateEff (s : State) (p at_ : Nat) : Bool :=
  let m := s.fgetAt p GATE_CFG_MODE at_
  let c := s.fon p GATE_STAT_CMD_OPEN
  let q := s.fon p GATE_STAT_PIN_OPEN
  if m = 0 then true else if m = 1 then c else if m = 2 then q else c && q

/-- The gate record of R98. -/
def gateRecord (coarse : Nat) (open_ pin : Bool) (slot : Nat) : W64 :=
  packW [(43, 12, coarse), (33, 1, b2n open_), (32, 1, b2n pin), (24, 8, slot), (0, 6, 1)]

/-- Nanosecond since power-on at which a gate change takes effect. -/
def GateCmd.ns (g : GateCmd) : Nat := g.tick * 4000 + g.coarse

/-- The effective gate made new at the instant of a change; a change of it gives a record (R98). -/
def State.gateUpdate (s : State) (p : Nat) (g : GateCmd) (pin : Bool) (slot : Nat) : State :=
  let e := s.gateEff p (g.ns * 65536)
  if e = s.fon p GATE_STAT_OPEN then s
  else
    let s1 := (s.fset p GATE_STAT_OPEN (b2n e)).modFe p fun x => { x with gateHist := ((g.ns, e) :: x.gateHist).take 64 }
    if s.fonAt p GATE_CFG_REC_EN (g.ns * 65536) then
      if (s.fe p).factsNow.gates.length < 4 then
        s1.modFacts p fun f => { f with gates := f.gates ++ [gateRecord g.coarse e pin slot] }
      else s1.fbump p GATE_STAT_LOST
    else s1

/-- A gate change put at its place among those that wait. -/
def gateInsert (g : GateCmd) : List GateCmd → List GateCmd
  | [] => [g]
  | x :: r => if g.ns < x.ns then g :: x :: r else x :: gateInsert g r

/-- A gate change at its instant (R95, R96, R98). -/
def State.gateApply (s : State) (p : Nat) (g : GateCmd) : State :=
  if g.kind = 0 then
    if s.fon p GATE_STAT_CMD_OPEN = g.open_ then s.fbump p GATE_STAT_REDUNDANT
    else (s.fset p GATE_STAT_CMD_OPEN (b2n g.open_)).gateUpdate p g false g.slot
  else if g.kind = 1 then (s.fset p GATE_STAT_PIN_OPEN (b2n g.open_)).gateUpdate p g true 0xFF
  else s.gateUpdate p g false 0xFE

/-- A gate change whose effect lies `ns` after the tick waits for its instant (R95, R96, R98). -/
def State.gatePend (s : State) (p ns kind : Nat) (open_ : Bool) (slot cross : Nat) : State :=
  let g : GateCmd := { tick := s.tm.tick + ns / 4000, coarse := ns % 4000, kind := kind, open_ := open_, slot := slot, cross := cross }
  s.modFe p fun x => { x with gateCmds := gateInsert g x.gateCmds }

/-- The changes that wait and whose instant lies before `ns` since power-on take effect in their order. -/
def State.gateDrain (s : State) (p ns : Nat) : State :=
  ((s.fe p).gateCmds.filter fun g => decide (g.ns < ns)).foldl (fun z g => z.gateApply p g)
    (s.modFe p fun x => { x with gateCmds := x.gateCmds.filter fun g => decide (ns ≤ g.ns) })

/-- GATE_CHANGE (R95, R98): the next change that waits and whose frame has come takes effect. -/
def execGateChange (p : PortIx) (s : State) : Out :=
  .next (match (s.fe p.val).gateCmds with
    | [] => s
    | g :: r =>
      if s.tm.tick < g.tick then s
      else
        let s1 := if g.tick = s.tm.tick then s.toInst (g.coarse * 65536) else s
        (s1.modFe p.val fun x => { x with gateCmds := r }).gateApply p.val g)

/-- A crossing of the gate pins: a level that it ends before 2 ns have passed was never taken (R96). -/
def State.pinGlitch (s : State) (p m : Nat) : State :=
  s.modFe p fun x => { x with gateCmds := x.gateCmds.filter fun g => !(decide (g.kind = 1) && decide (m < g.cross + 2 * 65536)) }

/-- GATE_PIN_EDGE (R96, R98): a level that lasts 2 ns changes the pin gate 4 ns after its crossing, on a coarse edge. The change waits for
its instant among the others. -/
def execGatePinEdge (p : PortIx) (t : Inst) (level : Bool) (s : State) : Out :=
  .next (
    let s0 := s.toInst t
    let m := s0.mono t
    if s0.feLive p.val then
      ((s0.gateDrain p.val (m / 65536)).pinGlitch p.val m).gatePend p.val ((t + 4 * 65536 + 65535) / 65536) 1 level 0xFF m
    else s0)

/-- A write of `GATE_CFG` (R98): the mode acts on the fc cycle after the write. -/
def State.opGateCfg (s : State) (p t v : Nat) : State :=
  (((s.gateDrain p (s.mono t / 65536)).feWriteLater p 0x060 v (nextFc (s.mono t)))).gatePend p ((t / 65536 / 4 + 1) * 4) 2 false 0xFE 0

/-! ### Test pulse and counters -/

/-- A PULSE command obeyed in the frame in progress (R99, R100). -/
def State.opPulse (s : State) (p : Nat) : State :=
  let x := s.fe p
  if !x.tpEn || x.pulseAsk then s.fbump p TP_STAT_EXTRA
  else
    let s1 := s.modFe p fun y => { y with pulseAsk := true }
    if 4000 ≤ x.tpCoarse then s1.fset p TP_STAT_ERR 1
    else s1.modFe p fun y => { y with
      injects := y.injects ++ [{ tick := s.tm.tick + 1, phase := x.tpCoarse * 65536 + x.tpFine * 128, amp := x.tpAmp }] }

/-- The channels that an injection at instant `m` charges, with their polarity (R99). -/
def State.injectChans (s : State) (p m : Nat) : List (Nat × Bool) :=
  ((List.range 512).filter fun c => s.fonAt p (CH_CFG_TP_EN c) m).map fun c => (c, s.fonAt p (CH_CFG_POL c) m)

/-- TEST_PULSE_INJECT (R99, R100, R123): the injection at its instant; what the channels see of it comes as their edges. -/
def execTestPulseInject (p : PortIx) (s : State) : Out :=
  .next (match (s.fe p.val).injects with
    | [] => s
    | j :: r =>
      if s.tm.tick < j.tick then s
      else
        let m := j.tick * instPerFrame + j.phase
        ((s.toInst j.phase).modFe p.val fun y => { y with
          injects := r, injected := some { at_ := m, amp := j.amp, chans := s.injectChans p.val m },
          mon := { y.mon with injAt := y.mon.injAt ++ [m] } }).fbump p.val TP_STAT_INJ)

/-- The value of a channel counter by its index (R106). -/
def Chan.counter (h : Chan) (i : Nat) : Nat :=
  match i with
  | 0 => h.orphan | 1 => h.pileup | 2 => h.valRej | 3 => h.noCal | 4 => h.range | 5 => h.calFail | 6 => h.teCalMiss | _ => 0

/-- A channel counter cleared (R106). -/
def Chan.clearCounter (h : Chan) (i : Nat) : Chan :=
  match i with
  | 0 => { h with orphan := 0 } | 1 => { h with pileup := 0 } | 2 => { h with valRej := 0 } | 3 => { h with noCal := 0 }
  | 4 => { h with range := 0 } | 5 => { h with calFail := 0 } | 6 => { h with teCalMiss := 0 } | _ => h

/-- A read of `CHCNT_DATA` (R106): the selected counter, which it clears. -/
def State.opChcntRead (s : State) (p : Nat) : Nat × State :=
  let c := s.fget p CHCNT_SEL_CH
  let i := s.fget p CHCNT_SEL_IDX
  ((s.ch p c).counter i, s.modCh p c fun h => h.clearCounter i)

/-- What `CAL_DATA` shows (R107): the item that `CAL_SEL` names. R107 states no age of a trailing-edge pair that was never measured; the
model counts it from power-on (log entry 87). -/
def State.opCalData (s : State) (p : Nat) : Nat :=
  let h := s.ch p (s.fget p CAL_SEL_CH)
  let i := h.intp (s.fget p CAL_SEL_INT)
  let k := s.fget p CAL_SEL_ITEM
  let age (at_ : Nat) : Nat := min 255 ((s.monoNs - at_) / 16)
  if k = 0 then
    match i.pair with
    | some pr => pack [(0, 12, pr.1), (12, 12, pr.2), (24, 8, age i.pairAt)]
    | none => 0
  else if k < 64 then pack [(0, 12, binE (i.tableAt s.tm.tick) k)]
  else if k = 64 then pack [(0, 12, h.tePair.1), (12, 12, h.tePair.2), (24, 8, age h.teAt)]
  else 0

end Sys2Proof.Machine
end

