-- ==== Sys2Proof/Machine/Amplitude.lean ====
section
/-! DEFINITION. Amplitude and monitoring (R108–R138): ADC slices and their rotation, conversions, and the monitor with its
scans, thermometer faults and windows. What the holds saw and converter codes come in as operands. -/

namespace Sys2Proof.Machine

/-! ### ADC slices -/

/-- Slice `k` of a block. -/
def Blk.slice (x : Blk) (k : Nat) : AdcSlice := tget x.slices k {}
/-- Slice `k` of a block changed. -/
def Blk.modSlice (x : Blk) (k : Nat) (g : AdcSlice → AdcSlice) : Blk := { x with slices := tset x.slices k {} (g (x.slice k)) }

/-- Slice `k` may take a conversion at `ns` since power-on (R112, R113, R115). -/
def Blk.freeSlice (x : Blk) (k ns : Nat) : Bool :=
  let y := x.slice k
  !y.failed && y.calibrated && decide (x.spare ≠ some k) && decide (y.freeAt ≤ ns)

/-- The good slices of a block (R115). -/
def Blk.good (x : Blk) : List Nat := (List.range 5).filter fun k => !(x.slice k).failed

/-- The reference event of a hit's conversion, 2^-16 ns since power-on (R92, R111). -/
def Hit.adcRef (h : Hit) : Option Nat :=
  if h.adcMode = 0 then some h.mono else if h.sat then some h.satAt else h.teInst

/-- `ns` is the first coarse edge at or after a start instant that R111's ±1 ns allows. -/
def Hit.startOk (h : Hit) (ns : Nat) : Bool :=
  match h.adcRef with
  | none => false
  | some r =>
    let st := r + min 250 (max 5 h.adcDly) * 65536
    decide ((st - 65536 + 65535) / 65536 ≤ ns) && decide (ns ≤ (st + 65536 + 65535) / 65536)

/-- A conversion of this hit is still to start (R113): one that a clash has voided included. -/
def Hit.ampWaits (h : Hit) : Bool := decide (h.amp ≠ .off) && h.startEdge.isNone

/-- The lowest-numbered free active slice (R113). -/
def Blk.pick (x : Blk) (ns : Nat) : Option Nat := (List.range 5).find? fun k => x.freeSlice k ns

/-- The conversion of a hit has its start edge, and slice `k` or none (R113, R118); a hit that a clash has voided stays so (R117). -/
def Hit.started (h : Hit) (ns : Nat) (k : Option Nat) : Hit :=
  { h with
    startEdge := some ns
    amp := if h.amp = .clash then .clash else match k with | some j => .converting j | none => .noSlice }

/-- The hit of a channel with this edge has its start edge. -/
def Chan.started (h : Chan) (m ns : Nat) (k : Option Nat) : Chan :=
  let mine (x : Hit) : Bool := decide (x.mono = m)
  { h with hits := modFirst mine (fun x => x.started ns k) h.hits, later := h.later.filter fun x => !(mine x) }

/-- A block as it was before the conversions of start edge `ns`. -/
def Blk.before (x : Blk) (ns : Nat) : Blk :=
  { x with slices := tmap x.slices {} fun _ y =>
      if y.convs.any fun v => decide (v.start = ns) then
        { y with convs := y.convs.filter fun v => decide (v.start ≠ ns), freeAt := ns } else y }

/-- One starter of edge `ns` takes the lowest free active slice, or none (R113). -/
def State.serveStart (s : State) (p b ns : Nat) (e : Nat × Nat) : State :=
  match (s.blk p b).pick ns with
  | none => s.modCh p e.1 fun h => h.started e.2 ns none
  | some k =>
    (s.modCh p e.1 fun h => h.started e.2 ns (some k)).modBlk p b fun x => x.modSlice k fun y =>
      { y with freeAt := ns + 500, convs := y.convs ++ [{ ch := e.1, hit := e.2, start := ns }] }

/-- A starter put at its place in ascending channel order. -/
def startInsert (e : Nat × Nat) : List (Nat × Nat) → List (Nat × Nat)
  | [] => [e]
  | x :: r => if e.1 < x.1 then e :: x :: r else x :: startInsert e r

/-- The conversion of edge `e` starts on `ns` (R113): all channels of the block that start on one coarse edge are served in ascending
channel order, in whatever order they report it. -/
def State.convStart (s : State) (p b ns : Nat) (e : Nat × Nat) : State :=
  let x := s.blk p b
  let l := startInsert e (if x.edge = ns then x.starters else [])
  l.foldl (fun z y => z.serveStart p b ns y) (s.setBlk p b { x.before ns with edge := ns, starters := l })

/-- ADC_CONVERSION_START (R109, R111–R113, R117, R118): the oldest hit whose conversion is still to start takes a slice, or is invalid for
want of one; a hit refused before its start edge takes none. -/
def execAdcConversionStart (p : PortIx) (c : ChIx) (t : Inst) (s : State) : Out :=
  .next (
    let s0 := s.toInst t
    let ns := s0.mono t / 65536
    let h := s0.ch p.val c.val
    match (h.later ++ h.hits).find? Hit.ampWaits with
    | none => s0
    | some hit =>
      if hit.rejected then s0.setCh p.val c.val { h with
        hits := modFirst Hit.ampWaits (fun x => { x with amp := .off, startEdge := some ns }) h.hits }
      else if !(hit.startOk ns) then s0
      else s0.convStart p.val (c.val / 16) ns (c.val, hit.mono))

/-- The amplitude code and the choice of hold for peaks in µV at the preamplifier output (R109, R110). -/
def ampCode (peak8 peak1 : Int) : Nat × Bool :=
  let x1 := decide (127500 < peak8)
  let v := if x1 then roundHalf 100 peak1 1000 else roundHalf 100 peak8 125
  ((max 0 (min 1023 v)).toNat, x1)

/-- Nanosecond since power-on at which a result is handed over: the first fc edge after the instant it is ready, 500 ns after the start
edge (R112). -/
def Conv.handOver (v : Conv) : Nat := (v.start + 500) / 4 * 4 + 4

/-- What a hold kept of the excursions it saw, in the direction of `CH_CFG.POL` (R108). -/
def State.held (s : State) (p c m : Nat) (x : Excursion) : Int := if s.fonAt p (CH_CFG_POL c) m then -x.down else x.up

/-- The amplitude of a hit from its two holds at the sample instant (R108–R110). -/
def Hit.amplitude (h : Hit) (v8 v1 : Int) : AmpSt :=
  let x := { h with hold8 := max h.hold8 v8, hold1 := max h.hold1 v1 }
  .done (ampCode x.hold8 x.hold1).1 (ampCode x.hold8 x.hold1).2

/-- ADC_RESULT (R108–R110, R112, R116–R118): the oldest conversion of slice `k` is handed over at its instant, to its hit if that still
waits for it; otherwise the result is discarded. -/
def execAdcResult (p : PortIx) (b : BlkIx) (k : SliceIx) (peak8 peak1 : Excursion) (parityErr : Bool) (s : State) : Out :=
  .next (match ((s.blk p.val b.val).slice k.val).convs with
    | [] => s
    | v :: r =>
      if (s.tm.tick + 1) * 4000 ≤ v.handOver then s
      else
        let s0 := if v.handOver / 4000 = s.tm.tick then s.toInst (v.handOver % 4000 * 65536) else s
        let v8 := s0.held p.val v.ch v.hit peak8
        let v1 := s0.held p.val v.ch v.hit peak1
        let mine (x : Hit) : Bool := decide (x.mono = v.hit) && decide (x.amp = .converting k.val)
        let s1 := (s0.modBlk p.val b.val fun x => x.modSlice k.val fun y => { y with convs := r }).modCh p.val v.ch fun h =>
          { h with hits := modFirst mine (fun x => { x with amp := if parityErr then .parity else x.amplitude v8 v1 }) h.hits }
        if parityErr then
          (s1.fbump p.val (BLK_ADCSTAT_PERR b.val)).modBlk p.val b.val fun x => { x with forcedSpare := some k.val }
        else s1)

/-- The good slice after `k` in the order 0 to 4 and round (R114). -/
def Blk.after (x : Blk) (k : Nat) : Option Nat :=
  ((List.range 5).map fun j => (k + 1 + j) % 5).find? fun j => !(x.slice j).failed

/-- The spare of the next rotation (R114–R116). -/
def Blk.nextSpare (x : Blk) : Option Nat :=
  if x.good.length ≤ 1 then none
  else match x.forcedSpare with
    | some k => if (x.slice k).failed then x.after (x.spare.getD x.lastSpare) else some k
    | none => x.after (x.spare.getD x.lastSpare)

/-- SPARE_ROTATION (R114, R116, R120): at a tick whose frame-in-second is a multiple of 80, with the stages powered. -/
def execSpareRotation (p : PortIx) (b : BlkIx) (s : State) : Out :=
  .next (
    let x := s.blk p.val b.val
    if s.feFrame p.val % framesPerSec % 80 ≠ 0 ∨ !(s.fe p.val).analogOn ∨ (s.fe p.val).wakeCal then s
    else
      let n := x.nextSpare
      (s.setBlk p.val b.val { x with spare := n, lastSpare := n.getD (x.spare.getD x.lastSpare), forcedSpare := none }).fset p.val
        (BLK_ADCSTAT_SPARE b.val) (n.getD 7))

/-- The result of a slice's calibration (R115): accepted within ±16 LSB and ±3 %, or the slice fails. -/
def State.sliceCal (s : State) (p b k : Nat) (offsetMilliLsb gainMicro : Int) : State :=
  if offsetMilliLsb.natAbs ≤ 16000 ∧ gainMicro.natAbs ≤ 30000 then
    s.modBlk p b fun x => x.modSlice k fun y => { y with calibrated := true, offset := offsetMilliLsb, gain := gainMicro }
  else
    (s.modBlk p b fun x => x.modSlice k fun y => { y with failed := true }).fset p (BLK_ADCSTAT_FAIL b)
      (Nat.lor (s.fget p (BLK_ADCSTAT_FAIL b)) (2 ^ k))

/-- SLICE_CALIBRATION_DONE (R115, R157): the powered spare has measured its constants. -/
def execSliceCalibrationDone (p : PortIx) (b : BlkIx) (offsetMilliLsb gainMicro : Int) (s : State) : Out :=
  .next (match (s.blk p.val b.val).spare with
    | none => s
    | some k => if s.feMeasures p.val then s.sliceCal p.val b.val k offsetMilliLsb gainMicro else s)

/-- A write of `BLK_ADCSTAT` (R115): a cleared `FAIL` bit returns its slice, which takes no conversion until it has
calibrated. -/
def State.opAdcStat (s : State) (p b v : Nat) : State :=
  let old := s.fget p (BLK_ADCSTAT_FAIL b)
  let s1 := s.feWriteReg p (0x504 + 8 * b) v
  (List.range 5).foldl (fun z k =>
    if bitAt old k && bitAt v (3 + k) then
      z.modBlk p b fun x => x.modSlice k fun y => { y with failed := false, calibrated := false }
    else z) s1

/-- WAKE_SLICE_CALIBRATION (R115, R120): all good slices have calibrated after a WAKE, and each accepts its constants or fails. -/
def execWakeSliceCalibration (p : WakeCal) (s : State) : Out :=
  .next (if (s.fe p.fe.val).wakeCal then
      p.results.foldl (fun z e =>
        if ((z.blk p.fe.val e.1.val).slice e.2.1.val).failed then z else z.sliceCal p.fe.val e.1.val e.2.1.val e.2.2.1 e.2.2.2)
        (s.modFe p.fe.val fun f => { f with wakeCal := false })
    else s)

/-! ### The monitor -/

/-- The monitor of front-end `p` changed. -/
def State.modMon (s : State) (p : Nat) (g : MonSt → MonSt) : State := s.modFe p fun x => { x with mon := g x.mon }

/-- A scan starts at `ns` since power-on, or is ignored as an overrun; starts of one fc cycle are one start
(R123–R125). -/
def State.monStart (s0 : State) (p ns : Nat) : State :=
  let s := s0.modMon p fun m => { m with askAt := some (ns / 4) }
  if (s0.fe p).mon.askAt = some (ns / 4) then s0
  else if (s.fe p).mon.running then s.fbump p MON_STAT_OVERRUN
  else
    let f := s.feFrame p
    let todo := (List.range 25).filter fun i => bitAt (s.fget p MON_MASK_MASK) i
    let ic : Tab Nat := (List.range 25).map fun i => (i, s.fpeek p (0x720 + i))
    let rc : Tab Nat := (List.range 4).map fun k => (k, s.fpeek p (0x710 + k))
    let s1 := s.modMon p fun m => { m with
      running := true, startPending := false, tsFis := f % framesPerSec, tsSec := f / framesPerSec, codesP := [], codesN := [],
      offsetDone := false, void := 0, icfg := ic, rtdCfg := rc, todo := todo, waiting := false, startAt := ns, stepFrom := ns,
      notBefore := ns, voidNext := 0, tripped := [] }
    (s1.fset p MON_STAT_BUSY 1).fset p MON_STAT_INPUT (todo.headD 0)

/-- The scan has no input left (R124). -/
def State.monFinish (s : State) (p : Nat) : State :=
  let m := (s.fe p).mon
  ((((s.modMon p fun x => { x with running := false, waiting := false }).fset p MON_STAT_BUSY 0).fset p MON_TS_FIS m.tsFis).fset p
    MON_TS_SEC m.tsSec).fwrap p MON_SCANS_CNT 1

/-- The scan timer's period in ticks (R123). -/
def State.monPeriod (s : State) (p : Nat) : Nat := 250 * s.fget p MON_TIMER_PERIOD

/-- MON_SCAN_TIMER (R123): `MON_TIMER.PERIOD` ms after its last expiry the timer expires; where it is enabled, the scan starts at the
next tick. -/
def execMonScanTimer (p : PortIx) (s : State) : Out :=
  .next (
    let n := s.monPeriod p.val
    let past := s.since (s.fe p.val).mon.timerAt
    if !(s.feLive p.val) || decide (past < n) then s
    else s.modMon p.val fun m => { m with
      timerAt := s.tm.tick - past % n, startPending := m.startPending || s.fon p.val MON_CFG_TMR_EN })

/-- MON_INJECTION_DELAY (R123): `MON_TPDLY.DLY` µs have passed since the oldest injection that waits. -/
def execMonInjectionDelay (p : PortIx) (s : State) : Out :=
  .next (match (s.fe p.val).mon.injAt with
    | [] => s
    | j :: r =>
      let ns := j / 65536 + 1000 * s.fget p.val MON_TPDLY_DLY
      if (s.tm.tick + 1) * 4000 ≤ ns then s
      else
        let s0 := (if ns / 4000 = s.tm.tick then s.toInst (ns % 4000 * 65536) else s).modMon p.val fun m => { m with injAt := r }
        if s.feLive p.val && s.fon p.val MON_CFG_TP_EN then s0.monStart p.val ns else s0)

/-- Conversions per phase of an input: 2^AVG, 5–7 acting as 4 (R138). -/
def monCount (icfg : Nat) : Nat := 2 ^ min 4 (bits icfg 8 3)

/-- The fault code with the lower one kept (R132). -/
def lowestFault (a b : Nat) : Nat := if a = 0 then b else if b = 0 then a else min a b

/-- The fault a thermometer conversion shows by itself: common mode or range (R130, R131). -/
def State.monFaultOf (s : State) (p : Nat) (code : Int) (cm : Nat) : Nat :=
  if cm < s.fget p MON_CMWIN_LO ∨ s.fget p MON_CMWIN_HI < cm then 2
  else if code = -2048 ∨ code = 2047 then 3 else 0

/-- The measurement in progress has all its conversions. -/
def MonSt.complete (m : MonSt) (i : Nat) : Bool :=
  let n := monCount (tget m.icfg i 0)
  decide (n ≤ m.codesP.length) && (decide (3 < i) || decide (n ≤ m.codesN.length))

/-- End of the next conversion of the scan, ns since power-on (R124, R127, R128): settling of `SETTLE` × 10 µs before each phase, 10 µs a
conversion, and the first one no earlier than the commit before it. -/
def MonSt.convEnd (m : MonSt) : Nat :=
  if !m.offsetDone then m.startAt + 10000
  else
    let ic := tget m.icfg (m.todo.headD 0) 0
    let settle := bits ic 0 8 * 10000
    let n := monCount ic
    let first := max (m.stepFrom + settle) m.notBefore
    if m.codesP.length < n then first + 10000 * (m.codesP.length + 1)
    else first + 10000 * n + settle + 10000 * (m.codesN.length + 1)

/-- A conversion of the input in progress is taken (R124, R127). -/
def MonSt.take (m : MonSt) (i : Nat) (code : Int) (fault ends : Nat) : MonSt :=
  let m1 := if m.codesP.length < monCount (tget m.icfg i 0) then { m with codesP := m.codesP ++ [code] }
    else { m with codesN := m.codesN ++ [code] }
  let m2 := { m1 with void := lowestFault m.void fault }
  if m2.complete i then
    { m2 with waiting := true, stepFrom := ends, commitAt := if i ≤ 3 then ends + 20000 else ends }
  else m2

/-- MON_CONVERSION (R124, R127, R128, R130, R131): the next conversion of 10 µs of the schedule ends, with the common mode in 10 mV. -/
def execMonConversion (p : PortIx) (code : Int) (commonMode10mV : Nat) (s : State) : Out :=
  .next (
    let m := (s.fe p.val).mon
    let ends := m.convEnd
    if !m.running || m.waiting || decide ((s.tm.tick + 1) * 4000 ≤ ends) then s
    else
      let s0 := if ends / 4000 = s.tm.tick then s.toInst (ends % 4000 * 65536) else s
      if !m.offsetDone then
        let s1 := s0.modMon p.val fun x => { x with offsetDone := true, stepFrom := ends, notBefore := ends }
        if m.todo.isEmpty then s1.monFinish p.val else s1
      else match m.todo with
        | [] => s0
        | i :: _ => s0.modMon p.val fun x => x.take i code (if i ≤ 3 then s.monFaultOf p.val code commonMode10mV else 0) ends)

/-- The excitation of a thermometer port (R127): its current in µA, three-wire mode, and phase N, in which it is reversed, and its sources
swapped in three-wire mode. -/
structure Excitation where
  current : Nat
  threeWire : Bool
  reversed : Bool
  deriving DecidableEq, Repr

/-- The thermometer ports whose excitation is on, with their phase N (R127–R129): that of the step in progress, which lasts to its commit,
and beside one that waits for its commit the next input's. A trip has turned a port's excitation off. -/
def MonSt.excited (m : MonSt) : List (Nat × Bool) :=
  if !m.running || !m.offsetDone then []
  else
    let inN := decide (monCount (tget m.icfg (m.todo.headD 0) 0) ≤ m.codesP.length)
    let l := match m.todo with
      | [] => []
      | i :: r => (i, inN) :: (if m.waiting then (r.take 1).map fun j => (j, false) else [])
    l.filter fun e => decide (e.1 ≤ 3) && !(m.tripped.contains e.1)

/-- The excitation that port `k` drives now, if any (R127). -/
def MonSt.excitation (m : MonSt) (k : Nat) : Option Excitation :=
  (m.excited.find? fun e => decide (e.1 = k)).map fun e =>
    let c := tget m.rtdCfg k 0
    { current := if bitAt c 1 then 1000 else 100, threeWire := bitAt c 0, reversed := e.2 }

/-- COMPLIANCE_TRIP (R128, R129): while port `k` drives its excitation the comparator turns it off, and its measurement is void. -/
def execComplianceTrip (p : PortIx) (k : Fin 4) (s : State) : Out :=
  .next (
    let m := (s.fe p.val).mon
    if (m.excitation k.val).isSome then
      s.modMon p.val fun x =>
        let y := { x with tripped := k.val :: x.tripped }
        if x.todo.head? = some k.val then { y with void := 1 } else { y with voidNext := 1 }
    else s)

/-- The value of a complete measurement (R124, R127). -/
def monValue (i : Nat) (ps ns : List Int) : Nat :=
  let n := ps.length
  if i ≤ 3 then ofSigned 16 (roundHalf 101 (8 * (ps.sum - ns.sum)) n)
  else if i ≤ 19 then ofSigned 16 (roundHalf 102 (16 * ps.sum) n)
  else Config.dieLinear (roundHalf 103 (16 * ps.sum) n) % 65536

/-- Inputs whose window comparison is signed (R122). -/
def monSigned (i : Nat) : Bool := decide (i ≤ 3) || decide (20 ≤ i)

/-- A comparison leaves the band or returns to it (R133); `above` stands for a void measurement (R134). -/
def State.monCompare (s : State) (p i v whys : Nat) (above : Bool) : State :=
  let conv (w : Nat) : Int := if monSigned i then toSigned 16 w else (w : Int)
  let x := conv v
  let lo := conv (s.fget p (MON_WIN_LO i))
  let hi := conv (s.fget p (MON_WIN_HI i))
  let live := s.fget p MON_WLIVE_OUT
  if above || decide (x < lo) || decide (hi < x) then
    if bitAt live i then s
    else ((s.fset p MON_WLIVE_OUT (live + 2 ^ i)).fset p MON_WSTAT_OUT (Nat.lor (s.fget p MON_WSTAT_OUT) (2 ^ i))).modFacts p
      fun f => { f with notice := true }
  else if bitAt live i && decide (lo + whys ≤ x) && decide (x ≤ hi - whys) then s.fset p MON_WLIVE_OUT (live - 2 ^ i)
  else s

/-- A void measurement of port `k` (R132): nothing is stored, the fault is shown and counted. -/
def State.monVoid (s : State) (p k code : Nat) : State :=
  let stick (f : Fld) (z : State) : State := z.fset p f (Nat.lor (z.fget p f) (2 ^ k))
  let s1 := s.fset p (MON_RES_FAULT k) code
  let s2 := if code = 1 then stick MON_FAULT_OPEN s1 else if code = 2 then stick MON_FAULT_CM s1 else stick MON_FAULT_RANGE s1
  s2.fbump p MON_FAULT_FLT_CNT

/-- The extended monitor record of a commit (R155). -/
def State.xmonRecord (s : State) (p i t : Nat) : W64 :=
  packW [(59, 5, i), (43, 16, s.fget p (MON_RES_VALUE i)), (40, 3, s.fget p (MON_RES_FAULT i)), (32, 8, s.fget p (MON_RES_SEQ i)),
    (22, 10, t / 65536 / 4), (0, 6, 3)]

/-- The commit of input `i` (R128, R132–R134). -/
def State.monCommitInput (s : State) (p i : Nat) : State :=
  let m := (s.fe p).mon
  let ic := tget m.icfg i 0
  let prot := decide (i ≤ 3) && bitAt (tget m.rtdCfg i 0) 2
  let win := bitAt ic 11 || prot
  if m.void ≠ 0 then
    let s1 := s.monVoid p i m.void
    if prot then s1.monCompare p i 0 (bits ic 16 8) true else s1
  else
    let v := monValue i m.codesP m.codesN
    let s1 := ((((s.fset p (MON_RES_VALUE i) v).fset p (MON_RES_VALID i) 1).fset p (MON_RES_FRESH i) 1).fset p (MON_RES_FAULT i) 0).fset
      p (MON_RES_SEQ i) ((s.fget p MON_SCANS_CNT + 1) % 256)
    let s2 := s1.modMon p fun x => { x with lastCommit := if i ≤ 3 then tset x.lastCommit i 0 s.tm.tick else x.lastCommit }
    if win then s2.monCompare p i v (bits ic 16 8) false else s2

/-- MON_COMMIT (R124, R127, R128, R132–R135): at its commit instant the measurement whose conversions have ended is committed or found
void. -/
def execMonCommit (p : PortIx) (t : Inst) (s : State) : Out :=
  .next (
    let s0 := s.toInst t
    let m := (s0.fe p.val).mon
    match m.todo with
    | [] => s0
    | i :: rest =>
      if !m.waiting || decide (s0.mono t < m.commitAt * 65536) then s0
      else
        let s1 := s0.monCommitInput p.val i
        let s2 := s1.modFacts p.val fun f => { f with xmon := some (s1.xmonRecord p.val i t) }
        let s3 := s2.modMon p.val fun x => { x with
          todo := rest, codesP := [], codesN := [], void := x.voidNext, voidNext := 0, waiting := false, notBefore := x.commitAt }
        if rest.isEmpty then s3.monFinish p.val else s3.fset p.val MON_STAT_INPUT (rest.headD 0))

/-- MON_STALE (R125, R134): a port that feeds protection, by the settings of the last scan start, has had no committed measurement for
2 s. -/
def execMonStale (p : PortIx) (k : Fin 4) (s : State) : Out :=
  .next (
    let m := (s.fe p.val).mon
    let last := tget m.lastCommit k.val 0
    if bitAt (tget m.rtdCfg k.val 0) 2 && decide (last + 500000 ≤ s.tm.tick) then
      ((s.fset p.val (MON_RES_FAULT k.val) 4).fset p.val MON_FAULT_STALE (Nat.lor (s.fget p.val MON_FAULT_STALE) (2 ^ k.val))).monCompare
        p.val k.val 0 (bits (tget m.icfg k.val 0) 16 8) true
    else s)

end Sys2Proof.Machine
end

