-- ==== Sys2Proof/Machine/Coding.lean ====
section
/-! DEFINITION. What the serial lanes carry (R166–R168, R171, R173, R178, R193): the 8b/10b code, the Reed–Solomon codes over GF(2^8), the
pseudo-random patterns, and the bytes of ordered sets and packets. -/

namespace Sys2Proof.Machine

/-! ### The 8b/10b code (R167) -/

/-- The 5b/6b column of the code for negative running disparity, `abcdei` with `a` as bit 5. -/
def sixTable : List Nat :=
  [0x27, 0x1D, 0x2D, 0x31, 0x35, 0x29, 0x19, 0x38, 0x39, 0x25, 0x15, 0x34, 0x0D, 0x2C, 0x1C, 0x17,
   0x1B, 0x23, 0x13, 0x32, 0x0B, 0x2A, 0x1A, 0x3A, 0x33, 0x26, 0x16, 0x36, 0x0E, 0x2E, 0x1E, 0x2B]

/-- The 3b/4b column for negative running disparity, `fghj` with `f` as bit 3. -/
def fourTable : List Nat := [0xB, 0x9, 0x5, 0xC, 0xD, 0xA, 0x6, 0xE]

/-- The number of ones among the low `n` bits. -/
def ones : Nat → Nat → Nat
  | 0, _ => 0
  | n + 1, w => w % 2 + ones n (w / 2)

/-- The running disparity after a sub-block of `2 * h` bits: more ones or fewer zeros decide it, and of the balanced sub-blocks only
the one that begins with all its zeros or all its ones. `true` is positive. -/
def dispAfter (h : Nat) (plus : Bool) (w : Nat) : Bool :=
  if h < ones (2 * h) w then true else if ones (2 * h) w < h then false
  else if w = 2 ^ h - 1 then true else if w = (2 ^ h - 1) * 2 ^ h then false else plus

/-- A sub-block of `2 * h` bits from the column for negative running disparity: for positive disparity an unbalanced one is turned over. -/
def subBlock (h w : Nat) (plus : Bool) : Nat := if plus && ones (2 * h) w != h then 2 ^ (2 * h) - 1 - w else w

/-- The 6-bit sub-block of a data byte's low five bits. -/
def sixOf (x : Nat) (plus : Bool) : Nat :=
  if x = 7 then (if plus then 0x07 else 0x38) else subBlock 3 (sixTable.getD x 0) plus

/-- The alternate form of D.x.7 is used (`plus`: the disparity before the 4-bit sub-block). -/
def usesA7 (x : Nat) (plus : Bool) : Bool :=
  if plus then decide (x = 11) || decide (x = 13) || decide (x = 14) else decide (x = 17) || decide (x = 18) || decide (x = 20)

/-- The 4-bit sub-block of a data byte's high three bits. -/
def fourOf (x y : Nat) (plus : Bool) : Nat :=
  if y = 7 ∧ usesA7 x plus then (if plus then 0x8 else 0x7)
  else if y = 3 then (if plus then 0x3 else 0xC) else subBlock 2 (fourTable.getD y 0) plus

/-- A character of a lane: a data byte or a K-character. -/
inductive Sym where
  | data (b : Nat)
  | k (b : Nat)
  deriving DecidableEq, Repr

/-- The byte names of the K-characters that the link uses (R167). -/
def k280 : Sym := .k 0x1C
/-- K28.1, the marker of a request codeword. -/
def k281 : Sym := .k 0x3C
/-- K28.3, the start of an echo set. -/
def k283 : Sym := .k 0x7C
/-- K28.5, the comma of ordered sets, and the marker of a record codeword. -/
def k285 : Sym := .k 0xBC
/-- K28.6, the response marker. -/
def k286 : Sym := .k 0xDC

/-- The 4-bit sub-blocks of K28.0 to K28.7 at negative running disparity. -/
def kFour : List Nat := [0x4, 0x9, 0x5, 0x3, 0x2, 0xA, 0x6, 0x8]

/-- The ten-bit group of a character at a running disparity, first bit of the line as bit 9. -/
def symGroup (plus : Bool) : Sym → Nat
  | .data b =>
    let s := sixOf (b % 32) plus
    s * 16 + fourOf (b % 32) (b / 32 % 8) (dispAfter 3 plus s)
  | .k b =>
    if b % 32 = 28 then
      (let g := 0x0F * 16 + kFour.getD (b / 32 % 8) 0
       if plus then 1023 - g else g)
    else
      let s := sixOf (b % 32) plus
      s * 16 + (if dispAfter 3 plus s then 0x8 else 0x7)

/-- The running disparity after a ten-bit group, valid or not. -/
def groupDisp (plus : Bool) (g : Nat) : Bool := dispAfter 2 (dispAfter 3 plus (g / 16)) (g % 16)

/-- The character that a group stands for; none for a code error: no valid group, or the wrong running disparity. -/
def groupSym (plus : Bool) (g : Nat) : Option Sym :=
  if g / 16 = (if plus then 0x30 else 0x0F) then
    ((List.range 8).find? fun y => decide (symGroup plus (.k (y * 32 + 28)) = g)).map fun y => .k (y * 32 + 28)
  else match (List.range 32).find? fun x => decide (sixOf x plus = g / 16) with
    | none => none
    | some x =>
      let d := dispAfter 3 plus (g / 16)
      match (List.range 8).find? fun y => decide (fourOf x y d = g % 16) with
      | some y => some (.data (y * 32 + x))
      | none =>
        if (x = 23 ∨ x = 27 ∨ x = 29 ∨ x = 30) ∧ g % 16 = (if d then 0x8 else 0x7) then some (.k (7 * 32 + x)) else none

/-- The characters of a run of groups; `plus` is the running disparity before it. -/
def lineSyms : Bool → List (BitVec 10) → List (Option Sym)
  | _, [] => []
  | plus, g :: r => groupSym plus g.toNat :: lineSyms (groupDisp plus g.toNat) r

/-- The groups of a run of characters. -/
def symLine : Bool → List Sym → List (BitVec 10)
  | _, [] => []
  | plus, x :: r => BitVec.ofNat 10 (symGroup plus x) :: symLine (groupDisp plus (symGroup plus x)) r

/-- The code errors of a run (R167). -/
def codeErrors (xs : List (Option Sym)) : Nat := (xs.filter Option.isNone).length

/-- The data byte of a character; a K-character in its place is none. -/
def Sym.byte? : Sym → Option Nat
  | .data b => some b
  | .k _ => none

/-- The data byte at a place; none for a code error and for a K-character. -/
def byteOf (x : Option Sym) : Option Nat := x.bind Sym.byte?

/-- The bytes of a run of which every character must be a data character. -/
def bytesOf (xs : List (Option Sym)) : Option (List Byte) := xs.mapM fun x => (byteOf x).map (BitVec.ofNat 8)

/-! ### GF(2^8) and the Reed–Solomon codes (R168) -/

/-- `n` rounds of a product in GF(2^8), field polynomial x^8 + x^4 + x^3 + x^2 + 1. -/
def gfRounds : Nat → Nat → Nat → Nat → Nat
  | 0, _, _, acc => acc
  | n + 1, a, b, acc =>
    gfRounds n (if 256 ≤ a * 2 then Nat.xor (a * 2) 0x11D else a * 2) (b / 2) (if b % 2 = 1 then Nat.xor acc a else acc)

/-- The product in GF(2^8). -/
def gfMul (a b : Nat) : Nat := gfRounds 8 a b 0

/-- a^n in GF(2^8) by squaring, over the low `k` bits of `n`. -/
def gfPowBits : Nat → Nat → Nat → Nat
  | 0, _, _ => 1
  | k + 1, a, n => if n % 2 = 1 then gfMul a (gfPowBits k (gfMul a a) (n / 2)) else gfPowBits k (gfMul a a) (n / 2)

/-- A power in GF(2^8), for exponents below 256. -/
def gfPow (a n : Nat) : Nat := gfPowBits 8 a n

/-- The inverse of an element that is not 0. -/
def gfInv (a : Nat) : Nat := gfPow a 254

/-- α^i, with α = 0x02. -/
def alpha (i : Nat) : Nat := gfPow 2 (i % 255)

/-- A sum in GF(2^8). -/
def gfSum (xs : List Nat) : Nat := xs.foldl Nat.xor 0

/-- A polynomial, highest coefficient first, times (x − a). -/
def polyTimes (g : List Nat) (a : Nat) : List Nat := List.zipWith Nat.xor (g ++ [0]) (0 :: g.map (gfMul a))

/-- The generator (x − α^0)(x − α^1) … (x − α^5), highest coefficient first. -/
def rsGen : List Nat := (List.range 6).foldl (fun g i => polyTimes g (alpha i)) [1]

/-- The remainder of the data so far, with one more byte taken in. -/
def rsStep (c : List Nat) (d : Nat) : List Nat :=
  let f := Nat.xor (c.headD 0) d
  List.zipWith (fun a g => Nat.xor a (gfMul f g)) (c.drop 1 ++ [0]) (rsGen.drop 1)

/-- The six check bytes of some data bytes, the first of which is the highest coefficient (log entry 89). -/
def rsCheck (data : List Nat) : List Nat := data.foldl rsStep [0, 0, 0, 0, 0, 0]

/-- The systematic codeword: the data bytes, then the check bytes. -/
def rsEncode (data : List Byte) : List Byte := data ++ (rsCheck (data.map BitVec.toNat)).map (BitVec.ofNat 8)

/-- The value of a word at a point, first byte highest. -/
def polyAt (r : List Nat) (x : Nat) : Nat := r.foldl (fun a b => Nat.xor (gfMul a x) b) 0

/-- The six syndromes of a word. -/
def syndromes (r : List Nat) : List Nat := (List.range 6).map fun j => polyAt r (alpha j)

/-- The solution of `n` linear equations over GF(2^8), each its coefficients and then its right side; none if there is not exactly one. -/
def gfSolve : Nat → List (List Nat) → Option (List Nat)
  | 0, _ => some []
  | n + 1, rows =>
    match rows.find? fun r => decide (r.headD 0 ≠ 0) with
    | none => none
    | some p =>
      let q := (p.map (gfMul (gfInv (p.headD 0)))).drop 1
      let rest := (rows.erase p).map fun r => List.zipWith (fun a b => Nat.xor a (gfMul (r.headD 0) b)) (r.drop 1) q
      (gfSolve n rest).map fun xs => Nat.xor (q.getD n 0) (gfSum (List.zipWith gfMul q xs)) :: xs

/-- The syndromes with the known erasures taken out: those from the number of erasures on depend on the other errors alone. -/
def forney (s : List Nat) (xs : List Nat) : List Nat :=
  (xs.foldl (fun t x => List.zipWith Nat.xor t (0 :: t.map (gfMul x))) s).drop xs.length

/-- The error locator of `e` errors, λ_1 to λ_e, from syndromes without erasures. -/
def locator (t : List Nat) (e : Nat) : Option (List Nat) :=
  gfSolve e ((List.range e).map fun i => ((List.range e).map fun j => t.getD (e + i - 1 - j) 0) ++ [t.getD (e + i) 0])

/-- Among `n` places, those at which a locator vanishes. -/
def locatorRoots (n : Nat) (l : List Nat) : List Nat :=
  (List.range n).filter fun k =>
    let y := alpha (255 - (n - 1 - k))
    decide (Nat.xor 1 (gfSum ((List.range l.length).map fun i => gfMul (l.getD i 0) (gfPow y (i + 1)))) = 0)

/-- A word with `e` errors and the erasures `er` mended, if its syndromes then vanish. -/
def rsTry (r : List Nat) (er : List Nat) (e : Nat) : Option (List Nat) :=
  let n := r.length
  let s := syndromes r
  (locator (forney s (er.map fun k => alpha (n - 1 - k))) e).bind fun l =>
    let bad := er ++ (locatorRoots n l).filter fun k => !(er.contains k)
    if bad.length ≠ er.length + e then none
    else
      let m := bad.length
      (gfSolve m ((List.range m).map fun j => (bad.map fun k => alpha ((n - 1 - k) * j)) ++ [s.getD j 0])).bind fun ys =>
        let w := (bad.zip ys).foldl (fun z b => z.set b.1 (Nat.xor (z.getD b.1 0) b.2)) r
        if (syndromes w).all (· == 0) then some w else none

/-- A received codeword decoded (R168, R169): `none` is an erasure. Up to `e` errors and `f` erasures are corrected whenever 2e + f ≤ 6;
the data bytes, without the check bytes, go with the verdict. -/
def rsDecode (r : List (Option Nat)) : CwStatus × List Byte :=
  let er := (List.range r.length).filter fun k => (r.getD k none).isNone
  let w := r.map fun x => x.getD 0
  let out (x : List Nat) : List Byte := (x.take (r.length - 6)).map (BitVec.ofNat 8)
  if er.isEmpty && (syndromes w).all (· == 0) then (.ok, out w)
  else if 6 < er.length then (.uncorrectable, [])
  else match ((List.range ((6 - er.length) / 2 + 1)).findSome? fun e => rsTry w er e) with
    | some x => (.corrected, out x)
    | none => (.uncorrectable, [])

/-- A codeword as its characters arrive: verdict and data bytes; a code error is an erasure, and so is a K-character in its place. -/
def cwRead (xs : List (Option Sym)) : CwStatus × List Byte := rsDecode (xs.map byteOf)

/-- The characters of a run of bytes. -/
def dataSyms (bs : List Byte) : List Sym := bs.map fun b => .data b.toNat

/-! ### Pseudo-random patterns (R193, R198) -/

/-- `count` further bits of the pattern x^n + x^m + 1 from its last `n` bits, and the last `n` bits after them; the first bit is bit 0 of the
number. -/
def prbsRun (n m : Nat) : Nat → Nat → Nat × Nat
  | 0, g => (0, g)
  | k + 1, g =>
    let b := (g / 2 ^ (n - 1) + g / 2 ^ (m - 1)) % 2
    let r := prbsRun n m k ((g * 2 + b) % 2 ^ n)
    (b + 2 * r.1, r.2)

/-- The bits a generator starts from, never all zero; the spec does not state them (log entry 90). -/
def prbsSeed (n key : Nat) : Nat := Config.prbsSeed n key % (2 ^ n - 1) + 1

/-- The order and the tap of `PRBS_CTRL.PAT`; 3 acts as 2. -/
def prbsPat (pat : Nat) : Nat × Nat := if pat = 0 then (7, 6) else if pat = 1 then (15, 14) else (31, 28)

/-- The last 31 bits that a word of payload leaves in a PRBS-31 checker, bit 0 of the word first. -/
def prbsTail (w : Nat) : Nat := (List.range 31).foldl (fun g i => g * 2 + w / 2 ^ (33 + i) % 2) 0

/-- A checker's verdict on `total` bits of which those at rising places `errs` are wrong: whether it locked, on 64 error-free bits, and the
errors from then on (R193). -/
def prbsCheck (total : Nat) : Nat → List Nat → Bool × Nat
  | start, [] => (decide (start + 64 ≤ total), 0)
  | start, e :: r => if start + 64 ≤ e then (true, 1 + r.length) else prbsCheck total (e + 1) r

/-- Places of bit errors in rising order without repeats, of a duration of `total` bits; one inverted twice is right again. -/
def errPlaces (total : Nat) (xs ys : List Nat) : List Nat :=
  (((xs.filter fun x => !(ys.contains x)) ++ (ys.filter fun y => !(xs.contains y))).filter (· < total)).dedup.mergeSort

/-! ### Ordered sets and packets -/

/-- The eight stream bytes of the SYNC ordered set (R171). -/
def syncBytes (sec fis state : Nat) (load lrst : Bool) (claim : Nat) : List Byte :=
  let body := leBytes 2 sec ++ leBytes 2 fis ++
    leBytes 1 (pack [(0, 2, fis / 65536), (2, 3, state), (5, 1, b2n load), (6, 1, b2n lrst)]) ++ leBytes 1 claim
  body ++ leBytes 2 (crc16 body)

/-- What a good SYNC ordered set says (R171). -/
structure SyncInfo where
  sec : Nat
  fis : Nat
  state : Nat
  load : Bool
  lrst : Bool
  claim : Nat
  deriving DecidableEq, Repr

/-- The SYNC set that eight bytes spell, if its CRC matches. -/
def readSync (b : List Byte) : Option SyncInfo :=
  if b.length = 8 ∧ bodyNat b 6 2 = crc16 (b.take 6) then
    some { sec := bodyNat b 0 2, fis := bodyNat b 2 2 + bits (bodyNat b 4 1) 0 2 * 65536, state := bits (bodyNat b 4 1) 2 3,
           load := bitAt (bodyNat b 4 1) 5, lrst := bitAt (bodyNat b 4 1) 6, claim := bodyNat b 5 1 }
  else none

/-- The data bytes of a slot-start set: FIS, slot byte, CRC-8 (R173). -/
def startBytes (fis ver port : Nat) (owner overlap : Bool) (state : Nat) : List Byte :=
  let body := leBytes 1 fis ++ leBytes 1 (pack [(0, 2, ver), (2, 1, port), (3, 1, b2n owner), (4, 1, b2n overlap), (5, 3, state)])
  body ++ leBytes 1 (crc8 body)

/-- The data bytes of an echo set: FIS, PH, echo status, CRC-8 (R173). -/
def echoBytes (fis : Nat) (ph : Int) (valid pll : Bool) : List Byte :=
  let body := leBytes 1 fis ++ leBytes 2 (ofSigned 16 ph) ++ leBytes 1 (pack [(0, 1, b2n valid), (1, 1, b2n pll)])
  body ++ leBytes 1 (crc8 body)

/-- The bytes of a set whose CRC-8, its last byte, matches. -/
def goodSet (n : Nat) (b : List Byte) : Bool := decide (b.length = n) && decide (bodyNat b (n - 1) 1 = crc8 (b.take (n - 1)))

/-- The eight bytes of a request packet (R178). -/
def reqBytes (r : ReqPkt) : List Byte :=
  leBytes 1 (r.typ.toNat * 16) ++ [r.tid] ++ leBytes 2 r.addr.toNat ++ leBytes 4 r.data.toNat

/-- The request packet that eight bytes spell. -/
def reqOf (b : List Byte) : ReqPkt :=
  { typ := BitVec.ofNat 4 (bodyNat b 0 1 / 16), tid := BitVec.ofNat 8 (bodyNat b 1 1), addr := BitVec.ofNat 16 (bodyNat b 2 2),
    data := BitVec.ofNat 32 (bodyNat b 4 4) }

/-- The eight bytes of a response packet (R178). -/
def respBytes (r : RespPkt) : List Byte :=
  leBytes 1 (r.typ.toNat * 16 + r.code.toNat) ++ [r.tid] ++ leBytes 2 r.addr.toNat ++ leBytes 4 r.data.toNat

/-- The response packet that eight bytes spell. -/
def respOf (b : List Byte) : RespPkt :=
  { typ := BitVec.ofNat 4 (bodyNat b 0 1 / 16), code := BitVec.ofNat 4 (bodyNat b 0 1), tid := BitVec.ofNat 8 (bodyNat b 1 1),
    addr := BitVec.ofNat 16 (bodyNat b 2 2), data := BitVec.ofNat 32 (bodyNat b 4 4) }

/-- The 8-byte groups of a run of bytes, the first `n` of them. -/
def packetsOf (n : Nat) (b : List Byte) : List (List Byte) := (List.range n).map fun i => (b.drop (8 * i)).take 8

end Sys2Proof.Machine
end

