-- ==== Sys2Proof/Machine/Dataflow.lean ====
section
/-! DEFINITION. The front-end dataflow (R139–R165, R173, R174): admission to the region buffers, the chip merger and its
allocation, the slot with header and trailer, the scrubber, and the fast commands with STANDBY, WAKE and FLUSH. -/

namespace Sys2Proof.Machine

/-! ### Region buffers -/

/-- The records of the frame that began at tick `tk` in region `r` of front-end `p`. -/
def State.half (s : State) (p tk r : Nat) : Half := tget (s.fe p).halves (tk * 4 + r) {}

/-- Entries held in half `h` of region `r`. -/
def Fe.occ (x : Fe) (r h : Nat) : Nat :=
  (x.halves.map fun e => if e.1 % 4 = r ∧ e.2.parity = h then e.2.entries.length + e.2.stuck else 0).sum

/-- The occupancy fields of region `r` brought up to date (R165). -/
def State.showOcc (s : State) (p r : Nat) : State :=
  (s.fset p (RGN_STAT_OCC0 r) ((s.fe p).occ r 0)).fset p (RGN_STAT_OCC1 r) ((s.fe p).occ r 1)

/-- The records of a frame in a region replaced. -/
def State.setHalf (s : State) (p tk r : Nat) (x : Half) : State :=
  (s.modFe p fun f => { f with halves := tset f.halves (tk * 4 + r) {} x }).showOcc p r

/-- The half that the frame of tick `tk` uses: its frame number modulo 2 (R140). -/
def State.parityOf (s : State) (p tk : Nat) : Nat := (s.feFrame p + tk + s.tm.tick) % 2

/-- An entry put at its place: by the cycle from which it is valid, and by ascending channel within a cycle (R139, R141). -/
def entryInsert (e : Entry) : List Entry → List Entry
  | [] => [e]
  | x :: r => if e.valid < x.valid ∨ (e.valid = x.valid ∧ e.ch < x.ch) then e :: x :: r else x :: entryInsert e r

/-- The allocation of the frame of tick `tk` has been fixed. -/
def Fe.allocated (x : Fe) (tk : Nat) : Bool :=
  (x.merger.begun && decide (x.merger.tick = tk) && x.merger.alloc.isSome) ||
    (x.mergerPrev.begun && decide (x.mergerPrev.tick = tk) && x.mergerPrev.alloc.isSome)

/-- A record that became final in fc cycle `fc` since power-on is offered to its region and admitted or dropped (R141, R142, R152,
R156). -/
def State.enterRegion (s : State) (p c tk fc : Nat) (w : W64) : State :=
  let r := c / 128
  let x := { s.half p tk r with offered := (s.half p tk r).offered + 1, parity := s.parityOf p tk }
  let s1 := (s.fbump p (BLK_REC_CNT (c / 16))).fset p (RGN_PEAK_MAX r) (max (s.fget p (RGN_PEAK_MAX r)) (min x.offered 2047))
  let late := decide (tk + 1 < s.tm.tick) || (s.fe p).allocated tk
  let e : Entry := { rec_ := w, blk := c / 16 % 8, ch := c, valid := fc + 8 }
  if (s.fe p).flushTick = some tk then (s1.setHalf p tk r x).fbump p (RGN_DROP_FLUSH_CNT r)
  else if 462 ≤ x.admitted ∨ late then (s1.setHalf p tk r x).fbump p (RGN_DROP_BUD_CNT r)
  else if 512 ≤ (s.fe p).occ r x.parity then
    ((s1.setHalf p tk r { x with ovf := true }).fbump p (RGN_DROP_OVF_CNT r)).fset p (RGN_STAT_OVF r) 1
  else s1.setHalf p tk r { x with admitted := x.admitted + 1, entries := entryInsert e x.entries }

/-! ### The record of a hit -/

/-- Leading-edge time of a hit in fine bins since power-on, from its coarse and fine time (R53, R84). -/
def Hit.leBins (h : Hit) : Nat := (h.hitTick * 4000 + h.coarse.getD 0) * 512 + h.fine

/-- ToT, short pulse and trailing edge in the next frame, from the measured times (R90, R91). -/
def Hit.totFields (h : Hit) : Nat × Bool × Bool :=
  let endBins := (h.hitTick + 1) * 4000 * 512
  match h.teInst with
  | none => (4095, false, decide (endBins ≤ h.leBins + 131040))
  | some _ =>
    let teBins := h.te16 * 32
    let d := teBins - h.leBins
    let nxt := decide (endBins < teBins)
    if d < 256 then (0, true, nxt) else (min 4095 (d / 32), false, nxt)

/-- The hit record of R154. -/
def Hit.record (h : Hit) (c : Nat) : W64 :=
  let t := h.totFields
  let a : Nat × Bool × Bool := match h.amp with
    | .done code x1 => (code, x1, false)
    | _ => (0, false, true)
  packW [(55, 9, c), (43, 12, h.coarse.getD 0), (34, 9, h.fine), (22, 12, t.1), (12, 10, a.1), (11, 1, b2n a.2.1),
    (10, 1, b2n h.pileup), (9, 1, b2n t.2.1), (8, 1, b2n a.2.2), (7, 1, h.int), (6, 1, b2n t.2.2)]

/-- The amplitude result or mark of a hit is there (R93, R118). -/
def Hit.ampKnown (h : Hit) : Bool :=
  match h.amp with
  | .waiting => false
  | .converting _ => false
  | _ => true

/-- The instants of R93 have all passed at `now` (2^-16 ns since power-on); a refused edge waits for no amplitude. -/
def Hit.final (h : Hit) (ch : Chan) (now : Nat) : Bool :=
  let satd := h.sat || decide (h.satAt ≤ now)
  let busyDone := h.busyOver || satd || decide (ch.busyHit ≠ some h.mono) ||
    (match ch.busyUntil with | some u => decide (u ≤ now) && !ch.discHigh | none => true)
  h.coarse.isSome && h.valid.isSome && (h.teInst.isSome || satd) && (h.rejected || (busyDone && h.ampKnown))

/-- The first hit that is final, and the others. -/
def takeFinal (ch : Chan) (now : Nat) : List Hit → Option (Hit × List Hit)
  | [] => none
  | h :: r => if h.final ch now then some (h, r) else (takeFinal ch now r).map fun e => (e.1, h :: e.2)

/-- HIT_FINAL (R93, R113, R117, R140–R142, R156): the record of a final hit is offered to its region at instant `t`; an edge
that was refused leaves without one. -/
def execHitFinal (p : PortIx) (c : ChIx) (t : Inst) (s : State) : Out :=
  .next (
    let s0 := s.toInst t
    let h := s0.ch p.val c.val
    match takeFinal h (s0.mono t) h.hits with
    | none => s0
    | some (x, rest) =>
      let s1 := s0.setCh p.val c.val { h with
        hits := rest, later := if !x.rejected && x.ampWaits then h.later ++ [x] else h.later,
        busyHit := if h.busyHit = some x.mono then none else h.busyHit }
      if x.rejected then s1
      else
        let b := c.val / 16
        let s2 := match x.amp with
          | .noSlice => s1.fbump p.val (BLK_ADCSTAT_NOSLICE b)
          | .clash => s1.fbump p.val (BLK_ADCSTAT_CLASH b)
          | _ => s1
        s2.enterRegion p.val c.val x.hitTick ((s0.mono t + 262143) / 262144) (x.record c.val))

/-- REGION_SWEEP (R143): every entry of the frame two ticks back is freed. -/
def execRegionSweep (p : PortIx) (s : State) : Out :=
  .next (
    let s1 := s.modFe p.val fun x => { x with halves := x.halves.filter fun e => decide (s.tm.tick < e.1 / 4 + 2) }
    (List.range 4).foldl (fun z r => z.showOcc p.val r) s1)

/-! ### The chip merger -/

/-- The merger of front-end `p` changed. -/
def State.modMerger (s : State) (p : Nat) (g : Merger → Merger) : State := s.modFe p fun x => { x with merger := g x.merger }

/-- The merger set up for the frame that ended at the last tick (R146, R148); the one before it may still have its trailer to give. -/
def State.mergerBegin (s : State) (p : Nat) : State :=
  let x := s.fe p
  let f := x.factsPrev
  let n := (s.feFrame p + 65536 * framesPerSec - 1) % (65536 * framesPerSec)
  let xm := if s.fon p DF_CFG_XMON_EN ∧ (s.fget p (LNK_VER_SEL 0) = 2 ∨ s.fget p (LNK_VER_SEL 1) = 2) then f.xmon else none
  s.modFe p fun y => { y with
    mergerPrev := y.merger
    merger := {
      begun := true, frame := n, tick := s.tm.tick - 1, gates := f.gates, next := n % 4, orphan := f.orphan, flushed := f.flushed,
      xmon := xm } }

/-- The merger is set up for the frame that ended at the last tick. -/
def State.mergerReady (s : State) (p : Nat) : State :=
  let m := (s.fe p).merger
  if m.begun && decide (m.tick = s.tm.tick - 1) then s else s.mergerBegin p

/-- A choice of position `k` still belongs to the slot before: its last choices come after the next tick (R147, R174). -/
def Merger.tail (m : Merger) (k now : Nat) : Bool := m.begun && decide (m.tick + 2 = now) && decide (0 < m.lastK) && decide (m.lastK < k)

/-- F, a region's fair share (R148). -/
def Merger.fair (m : Merger) : Nat := (462 - m.gates.length) / 4

/-- S[r], hit records sent. -/
def Merger.sentOf (m : Merger) (r : Nat) : Nat := tget m.sent r 0

/-- One stage of the allocation of R148: a place to each region in turn that lies below its cap. -/
def allocLoop : Nat → List Nat → List Nat → Nat → Nat → List Nat × Nat × Nat
  | 0, a, _, left, r => (a, left, r)
  | n + 1, a, cap, left, r =>
    if left = 0 ∨ !((List.range 4).any fun k => decide (a.getD k 0 < cap.getD k 0)) then (a, left, r)
    else if a.getD r 0 < cap.getD r 0 then allocLoop n (a.set r (a.getD r 0 + 1)) cap (left - 1) ((r + 1) % 4)
    else allocLoop n a cap left ((r + 1) % 4)

/-- The allocation A for demands `d` and records sent `sent` (R148). -/
def allocate (g before nxt : Nat) (d sent : List Nat) : List Nat :=
  let f := (462 - g) / 4
  let r1 := allocLoop 2000 sent (d.map fun x => min x f) (462 - g - before) nxt
  (allocLoop 2000 r1.1 d r1.2.1 r1.2.2).1

/-- D[r]: records admitted less those found lost (R148). -/
def State.demand (s : State) (p r : Nat) : Nat :=
  let x := s.half p (s.fe p).merger.tick r
  x.admitted - x.lost

/-- The records of region `r` that stay unsent are budget drops (R148). -/
def State.dropRest (s : State) (p r : Nat) : State :=
  let tk := (s.fe p).merger.tick
  let x := s.half p tk r
  if x.entries.isEmpty then s
  else (s.setHalf p tk r { x with entries := [] }).fadd p (RGN_DROP_BUD_CNT r) x.entries.length

/-- CUTOFF (R148): the allocation of the slot being filled is fixed. -/
def execCutoff (p : PortIx) (s0 : State) : Out :=
  .next (
    let s := s0.mergerReady p.val
    let m := (s.fe p.val).merger
    if m.alloc.isSome then s
    else
      let d := (List.range 4).map fun r => s.demand p.val r
      let sent := (List.range 4).map fun r => m.sentOf r
      let a := allocate m.gates.length m.chosenBefore m.next d sent
      let short := (List.range 4).any fun r => decide (m.sentOf r < d.getD r 0)
      let ef := if short then m.fillsBefore else 0
      let s1 := (s.modMerger p.val fun x => { x with alloc := some a, early := ef }).fadd p.val DF_CNT_FILL_EARLY ef
      let s2 := s1.modFe p.val fun x => { x with flushTick := if x.flushTick = some m.tick then none else x.flushTick }
      (List.range 4).foldl (fun z r => if a.getD r 0 ≤ m.sentOf r then z.dropRest p.val r else z) s2)

/-- The block of a region that is served next, and its oldest entry with the others (R150). -/
def pickEntry (es : List Entry) (start : Nat) : Option (Nat × Entry × List Entry) :=
  match ((List.range 8).map fun j => (start + j) % 8).find? fun b => es.any fun e => decide (e.blk = b) with
  | none => none
  | some b =>
    let before := es.takeWhile fun e => decide (e.blk ≠ b)
    match es.drop before.length with
    | [] => none
    | e :: r => some (b, e, before ++ r)

/-- C(k), the fc cycle since power-on in which the record of position `k` is chosen (R147, R174). -/
def Merger.choiceAt (m : Merger) (k : Nat) : Nat := (m.tick + 1) * 1000 + 31 + 2 * k

/-- An entry is eligible at the choice of position `k` (R147). -/
def Entry.eligible (e : Entry) (m : Merger) (k : Nat) : Bool := decide (e.valid < m.choiceAt k)

/-- A region may be served at the choice of position `k` (R147, R148). -/
def State.servable (s : State) (p k r : Nat) : Bool :=
  let m := (s.fe p).merger
  let lim := match m.alloc with | some a => a.getD r 0 | none => m.fair
  ((s.half p m.tick r).entries.any fun e => e.eligible m k) && decide (m.sentOf r < lim)

/-- The chosen entry of region `r`, block `b` turns out lost (R144, R145, R151). -/
def State.entryLost (s : State) (p r b : Nat) (queueBad : Bool) : State :=
  let tk := (s.fe p).merger.tick
  let x := s.half p tk r
  let s1 := ((s.setHalf p tk r { x with lost := x.lost + 1, stuck := x.stuck + b2n queueBad }).fbump p (RGN_DROP_ERR_CNT r)).modFacts p
    fun f => { f with dataErr := true }
  let s2 := s1.modMerger p fun m => { m with err := true }
  if queueBad then (s2.fbump p (BLK_QERR_CNT (8 * r + b))).fset p (BLK_QERR_SEEN (8 * r + b)) 1
  else (s2.fbump p (RGN_ECC_UNCORR r)).fset p (RGN_STAT_UNCORR r) 1

/-- A region is served at position `k` (R144, R147, R148, R150, R151). -/
def State.serve (s : State) (p k r : Nat) (ecc : EccStatus) (queueBad : Bool) : State :=
  let m := (s.fe p).merger
  let x := s.half p m.tick r
  match pickEntry (x.entries.filter fun y => y.eligible m k) (tget m.blkNext r (m.frame % 8)) with
  | none => s
  | some (b, e, _) =>
    let s1 := (s.setHalf p m.tick r { x with entries := x.entries.erase e }).modMerger p fun y => { y with
      next := (r + 1) % 4, blkNext := tins y.blkNext r ((b + 1) % 8) }
    if queueBad || decide (ecc = .double) then s1.entryLost p r b queueBad
    else
      let s2 := if ecc = .single then s1.fbump p (RGN_ECC_CORR r) else s1
      let n := m.sentOf r + 1
      let s3 := (s2.modMerger p fun y => { y with sent := tset y.sent r 0 n, chosen := tset y.chosen k 2 e.rec_ }).fwrap p
        (RGN_SENT_CNT r) 1
      match m.alloc with
      | some a => if a.getD r 0 ≤ n then s3.dropRest p r else s3
      | none => s3

/-- MERGER_CHOICE (R143–R151): the record of hit position `k` is chosen; `ecc` and `queueBad` say how its read turns out. -/
def execMergerChoice (p : PortIx) (k : Fin 464) (ecc : EccStatus) (queueBad : Bool) (sIn : State) : Out :=
  .next (
    let s := if (sIn.fe p.val).merger.tail k.val sIn.tm.tick then sIn else sIn.mergerReady p.val
    let m := (s.fe p.val).merger
    if k.val ≤ m.gates.length ∨ 463 ≤ k.val then s
    else
      let s0 := s.modMerger p.val fun x => { x with
        lastK := k.val, chosenBefore := if m.alloc.isNone then x.chosenBefore + 1 else x.chosenBefore }
      match ((List.range 4).map fun j => (m.next + j) % 4).find? fun r => s0.servable p.val k.val r with
      | some r => s0.serve p.val k.val r ecc queueBad
      | none =>
        if m.alloc.isNone then s0.modMerger p.val fun x => { x with fillsBefore := x.fillsBefore + 1 }
        else match m.xmon with
          | some w => s0.modMerger p.val fun x => { x with xmon := none, chosen := tset x.chosen k.val 2 w }
          | none => s0)

/-! ### The slot -/

/-- The link state of port `q` of front-end `p` (R199). -/
def State.lnk (s : State) (p q : Nat) : Nat := s.fget p (LNK_STAT_STATE q)

/-- Port `q` of front-end `p` is obeyed: owner, or in overlap (R196, R197). -/
def State.obeyed (s : State) (p q : Nat) : Bool := s.fon p (LNK_STAT_OWNER q)

/-- The claim a header shows: 0 below protocol version 2.0 (R155). -/
def State.claimShown (s : State) (p q : Nat) : Nat := if s.fget p (LNK_VER_SEL q) = 2 then s.fget p (LNK_STAT_CLAIM q) else 0

/-- The header of the frame that ended at the last tick, as port `q` sends it (R155). -/
def State.header (s : State) (p q : Nat) : W64 :=
  let f := (s.fe p).factsPrev
  let b := (s.fe p).factsPrev2
  packW [(48, 16, f.sec), (30, 18, f.fis), (26, 4, f.rtdOut), (25, 1, b2n b.notice), (24, 1, b2n f.dip), (22, 2, f.therm),
    (21, 1, b2n b.cfgUpset), (20, 1, b2n b.dataErr), (19, 1, b2n b.calAlarm), (18, 1, b2n f.adcAlarm), (17, 1, b2n f.gateOpen),
    (16, 1, b2n f.waking), (15, 1, b2n b.linkAlarm), (14, 1, q), (6, 8, s.claimShown p q), (0, 6, 0x3C)]

/-- The trailer of the slot being filled (R152, R155). -/
def State.trailer (s : State) (p : Nat) : W64 :=
  let m := (s.fe p).merger
  let drop (r : Nat) : Nat := min 1023 ((s.half p m.tick r).offered - m.sentOf r)
  packW [(55, 9, ((List.range 4).map fun r => m.sentOf r).sum), (45, 10, drop 0), (35, 10, drop 1), (25, 10, drop 2),
    (15, 10, drop 3), (14, 1, b2n m.orphan), (10, 1, b2n (s.half p m.tick 0).ovf), (11, 1, b2n (s.half p m.tick 1).ovf),
    (12, 1, b2n (s.half p m.tick 2).ovf), (13, 1, b2n (s.half p m.tick 3).ovf), (9, 1, b2n m.flushed), (8, 1, b2n m.err),
    (7, 1, b2n m.xmonLost), (6, 1, b2n (decide (m.early ≠ 0))), (0, 6, 0x3D)]

/-- A record put at a position of the slot that port `q` sends. -/
def State.putSlot (s : State) (p q k : Nat) (w : W64) : State :=
  s.modLink p q fun l => { l with slot := tset l.slot k 2 w }

/-- The slot of a port begins: its header, the oldest five responses in their places, and its slot-start and echo sets (R155, R173, R174,
R180, R189, R190). -/
def State.slotBegin (s : State) (p q : Nat) : State :=
  let h := s.header p q
  let st := s.lnk p q
  let ver := s.fget p (LNK_VER_SEL q)
  let l0 := (s.fe p).link q
  let valid := l0.phOk && (if ver = 0 then decide (st = 4) else decide (4 ≤ st ∧ st ≤ 6))
  s.modLink p q fun l => { l with
    slot := [(0, h)], respSlot := (l.responses.take 5).map (·.1), responses := l.responses.drop 5
    startSet := startBytes ((s.fe p).factsPrev.fis % 256) ver q (s.obeyed p q) (s.fon p OWN_STAT_OVERLAP) st
    echo := echoBytes (s.feFrame p % framesPerSec % 256) (if valid then l0.ph else 0) valid l0.clockLocked }

/-- An injection asked for inverts bits of the record codeword that begins at position `k`; where in it they lie is a free value (R194). -/
def State.injectRecord (s : State) (p q k : Nat) : State :=
  match ((s.fe p).link q).injectNext with
  | none => s
  | some n =>
    if k % 16 ≠ 0 then s
    else
      let d := s.draw
      d.2.modLink p q fun l => { l with
        injectNext := none, flips := some { tick := s.tm.tick, cw := k / 16, bit := d.1 % (1341 - n), len := n } }

/-- An extended monitor record goes out only on a port of version 2.0 (R153). -/
def State.forVersion (s : State) (p q : Nat) (w : W64) : W64 :=
  if w.toNat % 64 = 3 ∧ s.fget p (LNK_VER_SEL q) ≠ 2 then 2 else w

/-- The trailer without HITS and drop counts, its flags as they are: of a slot that carries no data (R182, R198). -/
def bareTrailer (w : W64) : W64 := BitVec.ofNat 64 (w.toNat % 2 ^ 15)

/-- Eight PRBS-31 bytes of port `q`'s payload, which go on from slot to slot (R198). -/
def State.prbsWord (s : State) (p q : Nat) : W64 × State :=
  let g := ((s.fe p).link q).payload.getD (prbsSeed 31 (2 * p + q))
  let r := prbsRun 31 28 64 g
  (BitVec.ofNat 64 r.1, s.modLink p q fun l => { l with payload := some r.2 })

/-- What position `k` carries on port `q`: data on an obeyed port in RUN; otherwise the husk alone, with fill records or the PRBS bytes of
R198 in positions 1–462 (R182, R198). -/
def State.slotWord (s : State) (p q k : Nat) : W64 × State :=
  let data := decide (s.lnk p q = 6) && s.obeyed p q
  let m := (s.fe p).merger
  if k = 463 then (if data then s.trailer p else bareTrailer (s.trailer p), s)
  else if data then (if 1 ≤ k ∧ k ≤ m.gates.length then m.gates.getD (k - 1) 2 else s.forVersion p q (tget m.chosen k 2), s)
  else if s.lnk p q = 6 ∧ s.fon p (LNK_CTRL_CHECK q) then s.prbsWord p q
  else (2, s)

/-- Something done with the merger of the slot that is being taken: the next slot's may have been set up already (R147, R174). -/
def State.onSlot (s : State) (p : Nat) (g : State → State) : State :=
  let x := s.fe p
  if x.merger.tick ≠ x.slotTick ∧ x.mergerPrev.tick = x.slotTick then
    let z := g (s.modFe p fun y => { y with merger := x.mergerPrev })
    z.modFe p fun y => { y with mergerPrev := y.merger, merger := x.merger }
  else g s

/-- The account of the frame is closed when the trailer is taken (R152, R155): records left unsent and a monitor record without a place. -/
def State.closeSlot (s : State) (p : Nat) : State :=
  let s1 := (List.range 4).foldl (fun z r => z.dropRest p r) s
  if ((s1.fe p).merger.xmon).isSome then
    (s1.modMerger p fun m => { m with xmon := none, xmonLost := true }).fbump p DF_CNT_XMON_LOST
  else s1

/-- RECORD_TAKE (R135, R146, R152, R155, R173, R174, R180, R182, R198): the link takes record position `k` on each port that
sends slots; the trailer closes the account of the frame. -/
def execRecordTake (p : PortIx) (k : Fin 464) (s : State) : Out :=
  .next (
    let qs := (List.range 2).filter fun q => decide (2 ≤ s.lnk p.val q ∧ s.lnk p.val q ≤ 6)
    if k.val = 0 then
      qs.foldl (fun z q => (z.slotBegin p.val q).injectRecord p.val q 0) ((s.mergerReady p.val).modFe p.val fun x => { x with slotTick := s.tm.tick - 1 })
    else s.onSlot p.val fun y =>
      qs.foldl (fun z q => let w := z.slotWord p.val q k.val; (w.2.putSlot p.val q k.val w.1).injectRecord p.val q k.val)
        (if k.val = 463 then y.closeSlot p.val else y))

/-! ### Configuration protection -/

/-- The RW fields of a word of front-end `p`, all other bits 0 (R162). -/
def State.feCfgWord (s : State) (p w : Nat) : Nat :=
  match fieldsAt feRegClasses w with
  | none => 0
  | some fs => regWord (s.fget p) (fs.filter fun f => decide (f.acc = .rw)) false

/-- The CRC-32C of a configuration image of 4,096 words (R162). -/
def cfgCrc (word : Nat → Nat) : Nat := crc32c ((List.range 4096).flatMap fun w => leBytes 4 (word w))

/-- The configuration word of the reset values (R162, R361). -/
def feResetWord (w : Nat) : Nat :=
  match fieldsAt feRegClasses w with
  | none => 0
  | some fs => regWord Fld.reset (fs.filter fun f => decide (f.acc = .rw)) false

/-- The bits of word `w` that RW fields hold. -/
def feCfgMask (w : Nat) : Nat :=
  match fieldsAt feRegClasses w with
  | none => 0
  | some fs => regWord (fun f => 2 ^ f.width - 1) (fs.filter fun f => decide (f.acc = .rw)) false

/-- The voted value of a configuration bit turns over, and logic follows it (R160, R162). -/
def State.flipVoted (s : State) (p w bit : Nat) : State :=
  let v := Nat.xor (s.feCfgWord p w) (2 ^ bit)
  if 0x100 ≤ w ∧ w < 0x500 ∧ w % 2 = 0 then s.opChCfg p ((w - 0x100) / 2) (s.tm.now.ns % 4000 * 65536 + s.tm.now.frac) v
  else if w = 0x060 then s.opGateCfg p (s.tm.now.ns % 4000 * 65536 + s.tm.now.frac) v
  else match fieldsAt feRegClasses w with
    | none => s
    | some fs => (fs.filter fun f => decide (f.acc = .rw)).foldl (fun z f => z.fset p f (bits v f.lo f.width)) s

/-- An upset of one bit in one copy of a word (R160, R162, R164): one copy of three is outvoted; the same bit in two copies gives a wrong
majority, in which the third copy is the odd one. Fields that are not RW have no copies (R163). -/
def State.copyUpset (s : State) (p w bit c : Nat) : State :=
  let k := w * 32 + bit
  let put (z : State) (n : Nat) : State := z.modFe p fun x => { x with copies := tset x.copies k 0 n }
  let cur := tget (s.fe p).copies k 0
  if !(bitAt (feCfgMask w) bit) then s
  else if cur = 0 then put s (c + 1)
  else if cur = c + 1 then put s 0
  else put (s.flipVoted p w bit) (3 - c - (cur - 1) + 1)

/-- The three copies of a word are made equal; how many bits of them differed (R160, R161). -/
def State.healCopies (s : State) (p w : Nat) : Nat × State :=
  let here (e : Nat × Nat) : Bool := decide (e.1 / 32 = w)
  (((s.fe p).copies.filter here).length, s.modFe p fun x => { x with copies := x.copies.filter fun e => !(here e) })

/-- The upsets that came since the last visit: copies, and disagreements that the voters of the control state found and mended (R160,
R164). -/
def State.takeUpsets (s : State) (p : Nat) (u : Upsets) : State :=
  let s1 := u.copies.foldl (fun z e => z.copyUpset p e.1.toNat e.2.1.val e.2.2.val) s
  if u.logic = 0 then s1 else (s1.fadd p SCRUB_STAT_LOGIC u.logic).modFacts p fun f => { f with cfgUpset := true }

/-- A visit of a word (R161, R162): its copies are repaired while `SCRUB_CTRL.EN` is 1, and the CRC of the pass takes its voted RW fields. -/
def State.scrubWord (s : State) (p w : Nat) : State :=
  let h := s.healCopies p w
  let s1 := if s.fon p SCRUB_CTRL_EN ∧ 0 < h.1 then
      (h.2.fadd p SCRUB_STAT_CORR h.1).modFacts p fun f => { f with cfgUpset := true } else s
  s1.modFe p fun x => { x with scrubPos := (w + 1) % 4096, scrubCrc := crc32cAux x.scrubCrc (leBytes 4 (s.feCfgWord p w)) }

/-- SCRUB_VISIT (R160–R164): one word, after the upsets since the last visit. The last word ends the pass. -/
def execScrubVisit (p : PortIx) (corrected : Upsets) (s : State) : Out :=
  .next (
    let w := (s.fe p.val).scrubPos
    let s1 := (s.takeUpsets p.val corrected).scrubWord p.val w
    if w + 1 < 4096 then s1
    else
      (((s1.fset p.val CFG_CRC_CRC (Nat.xor (s1.fe p.val).scrubCrc 0xFFFFFFFF)).fset p.val SCRUB_STAT_DIRTY
        (b2n (s1.fe p.val).scrubDirty)).fwrap p.val SCRUB_STAT_PASS 1).modFe p.val fun y => { y with
          scrubDirty := false, scrubCrc := 0xFFFFFFFF })

/-! ### Fast commands -/

/-- A fast command that is a bad character or is refused (R177). -/
def State.fcBad (s : State) (p q : Nat) : State :=
  (s.fbump p (LNK_ERR_FC q)).modFacts p fun f => { f with linkAlarm := true }

/-- A fast command decoded in a slot from 1 to 249: obeyed only from an obeyed port in RUN (R176, R177). -/
def State.fastCommand (s : State) (p q slot : Nat) (g : State → State) : State :=
  if slot = 0 ∨ !(s.feLive p) then s
  else if s.lnk p q = 6 && s.obeyed p q then g (s.toInst ((16 * slot + 12) * 65536))
  else s.fbump p OWN_STAT_NONOWNER_FC

/-- A STANDBY or WAKE (R159): judged against the state that would be in force at the next tick without it. A redundant one is
still the last received, which a thermal throttle remembers (R404). -/
def State.powerAsk (s : State) (p : Nat) (standby : Bool) : State :=
  let cur := (s.fe p).powerAsk.getD (s.fon p DF_STAT_STANDBY)
  if cur = standby then (s.fbump p DF_STAT_PWR_REDUNDANT).modFe p fun x => { x with lastAskStandby := standby }
  else s.modFe p fun x => { x with powerAsk := some standby }

/-- NOP (R176, R177): no effect; from a port that is not obeyed it is counted as any other command. -/
def execNop (p : PortIx) (q : FaceIx) (slot : Fin 250) (s : State) : Out :=
  .next (s.fastCommand p.val q.val slot.val fun z => z)

/-- GATE_OPEN (R95). -/
def execGateOpen (p : PortIx) (q : FaceIx) (slot : Fin 250) (s : State) : Out :=
  .next (s.fastCommand p.val q.val slot.val fun z => z.gatePend p.val (16 * slot.val + 48) 0 true slot.val 0)

/-- GATE_CLOSE (R95). -/
def execGateClose (p : PortIx) (q : FaceIx) (slot : Fin 250) (s : State) : Out :=
  .next (s.fastCommand p.val q.val slot.val fun z => z.gatePend p.val (16 * slot.val + 48) 0 false slot.val 0)

/-- PULSE (R99, R100). -/
def execPulse (p : PortIx) (q : FaceIx) (slot : Fin 250) (s : State) : Out :=
  .next (s.fastCommand p.val q.val slot.val fun z => z.opPulse p.val)

/-- SCAN (R123): a scan starts at the tick that follows the frame. -/
def execScan (p : PortIx) (q : FaceIx) (slot : Fin 250) (s : State) : Out :=
  .next (s.fastCommand p.val q.val slot.val fun z =>
    if z.fon p.val MON_CFG_CMD_EN then z.modMon p.val fun m => { m with startPending := true } else z)

/-- FLUSH (R156): the frame in progress is flushed at the next tick. -/
def execFlush (p : PortIx) (q : FaceIx) (slot : Fin 250) (s : State) : Out :=
  .next (s.fastCommand p.val q.val slot.val fun z => z.modFe p.val fun x => { x with flushAsk := true })

/-- The records of the frame that has just ended are discarded (R143, R156). -/
def State.flushFrame (s : State) (p : Nat) : State :=
  let tk := s.tm.tick - 1
  let s1 := s.modFe p fun x => { x with
    flushAsk := false, flushTick := some tk, factsPrev := { x.factsPrev with flushed := true } }
  (List.range 4).foldl (fun z r =>
    let h := z.half p tk r
    ((z.setHalf p tk r { h with entries := [], admitted := 0 }).fadd p (RGN_DROP_FLUSH_CNT r) h.entries.length).fset p
      (RGN_STAT_FLUSHED r) 1) s1

/-- FLUSH_EFFECT (R143, R156): at the tick after the command. -/
def execFlushEffect (p : PortIx) (s : State) : Out :=
  .next (if (s.fe p.val).flushAsk then s.flushFrame p.val else s)

/-- STANDBY (R157, R159). -/
def execStandby (p : PortIx) (q : FaceIx) (slot : Fin 250) (s : State) : Out :=
  .next (s.fastCommand p.val q.val slot.val fun z => z.powerAsk p.val true)

/-- WAKE (R158, R159). -/
def execWake (p : PortIx) (q : FaceIx) (slot : Fin 250) (s : State) : Out :=
  .next (s.fastCommand p.val q.val slot.val fun z => z.powerAsk p.val false)

/-- The stages of front-end `p` go to STANDBY (R157). -/
def State.feStandby (s : State) (p : Nat) : State :=
  (s.fset p DF_STAT_STANDBY 1).modFacts p fun f => { f with waking := true }

/-- The channels of front-end `p` become armed again, after a WAKE or when its first port enters RUN: the state of each discriminator is taken
anew (R70, R71, R158, R182). -/
def State.rearmAll (s : State) (p : Nat) : State :=
  { s with chans := s.chans.map fun e => if e.1 / 512 = p then (e.1, { e.2 with orphanNext := true }) else e }

/-- The stages of front-end `p` are powered again (R120, R158, R159). -/
def State.feWake (s : State) (p : Nat) : State :=
  let s1 := (s.fset p DF_STAT_STANDBY 0).modFe p fun x => { x with
    wakeTick := some s.tm.tick, wakeFrom := if s.fon p DF_STAT_WAKING then x.wakeFrom else s.tm.tick, analogOn := true,
    wakeCal := true, factsNow := { x.factsNow with waking := true } }
  (s1.fset p DF_STAT_WAKING 1).rearmAll p

/-- FE_POWER_CHANGE (R70, R157–R159, R404): the state that the last STANDBY or WAKE asked for takes effect at the tick; during
a thermal throttle it is only remembered. -/
def execFePowerChange (p : PortIx) (s : State) : Out :=
  .next (match (s.fe p.val).powerAsk with
    | none => s
    | some sb =>
      let s1 := s.modFe p.val fun x => { x with powerAsk := none, lastAskStandby := sb }
      if (s.fe p.val).thermalHold || sb == s.fon p.val DF_STAT_STANDBY then s1 else if sb then s1.feStandby p.val else s1.feWake p.val)

/-- STANDBY_POWER_DOWN (R157): 264 fc after the tick. -/
def execStandbyPowerDown (p : PortIx) (s : State) : Out :=
  .next (if s.fon p.val DF_STAT_STANDBY then s.modFe p.val fun x => { x with analogOn := false } else s)

/-- WAKING_END (R158): 27 ticks after the WAKE took effect full precision is back. -/
def execWakingEnd (p : PortIx) (s : State) : Out :=
  .next (if s.fon p.val DF_STAT_WAKING && decide ((s.fe p.val).wakeFrom + 27 ≤ s.tm.tick) then
      (s.fset p.val DF_STAT_WAKING 0).modFacts p.val fun f => { f with waking := s.fon p.val DF_STAT_STANDBY }
    else s)

/-- CLAIM (R176, R177, R195): obeyed on version 2.0 only; the next SYNC set carries the claim byte. -/
def execClaim (p : PortIx) (q : FaceIx) (slot : Fin 250) (s : State) : Out :=
  .next (if s.fget p.val (LNK_VER_SEL q.val) ≠ 2 then s.when (s.feLive p.val) fun z => z.fcBad p.val q.val
    else s.fastCommand p.val q.val slot.val fun z => z.modLink p.val q.val fun l => { l with claimCmd := true })

/-- The command that a fast-command character spells: its byte is {~code, code} (R176); none for any other character. -/
def fcCode (plus : Bool) (g : Nat) : Option Nat :=
  match byteOf (groupSym plus g) with
  | some b => if b / 16 = 15 - b % 16 then some (b % 16) else none
  | none => none

/-- The character of a fast command (R176). -/
def fcSym (code : Nat) : Sym := .data ((15 - code) * 16 + code)

/-- A fast command by its code (R176); a reserved code is ignored and counted. -/
def State.fcRun (s : State) (p : PortIx) (q : FaceIx) (slot : Fin 250) (code : Nat) : Out :=
  match code with
  | 0 => execNop p q slot s
  | 1 => execGateOpen p q slot s
  | 2 => execGateClose p q slot s
  | 3 => execPulse p q slot s
  | 4 => execScan p q slot s
  | 5 => execFlush p q slot s
  | 6 => execStandby p q slot s
  | 7 => execWake p q slot s
  | 8 => execClaim p q slot s
  | _ => .next (s.fcBad p.val q.val)

/-- FAST_COMMAND_INVALID (R176, R177): the character of a slot from 1 to 249 is decoded. What is no command is ignored and counted, and a
code error is counted as one besides; what proves to be a command acts as its own rule states. -/
def execFastCommandInvalid (p : PortIx) (q : FaceIx) (why : FcChar) (s : State) : Out :=
  if !(s.feLive p.val) || decide (why.slot.val = 0) then .next s
  else match fcCode why.plus why.grp.toNat with
    | some c => s.fcRun p q why.slot c
    | none =>
      .next ((s.fcBad p.val q.val).when (groupSym why.plus why.grp.toNat).isNone fun z => z.fbump p.val (LNK_ERR_CODE q.val))

end Sys2Proof.Machine
end

