-- ==== Sys2Proof/Machine/Link.lean ====
section
/-! DEFINITION. The Ryunt link (R166–R200) at both ends: SYNC sets, slow control, link-up, the echo servo's measurements,
pattern tests, the golden copy, claims and the two ports of a front-end. What the line carries comes in as operands. -/

namespace Sys2Proof.Machine

/-! ### Slow control at the front-end -/

/-- The instant of the frame in progress, 2^-16 ns since its tick. -/
def State.nowInst (s : State) : Nat := s.tm.now.ns % 4000 * 65536 + s.tm.now.frac

/-- Words of the reserved monitor inputs 25–31 (R138). -/
def monReserved (w : Nat) : Bool := decide (0x739 ≤ w ∧ w ≤ 0x73F) || decide (0x779 ≤ w ∧ w ≤ 0x77F)

/-- A read of word `w` of front-end `p` through port `q` (R106, R107, R137, R179, R188). -/
def State.feRead (s : State) (p q w : Nat) : Nat × State :=
  if w = 0x821 then s.opChcntRead p
  else if w = 0x811 then (s.opCalData p, s)
  else if w = 0x000 then (0xDF051200 + (s.fe p).rev, s)
  else if (w = 0x020 ∨ w = 0x030) ∧ (s.fe p).rev < 0x0C then
    (let r := s.feReadReg p q w; (r.1 / 8 * 8 + 3, r.2))
  else if monReserved w then (0, s)
  else s.feReadReg p q w

/-- A write of `LNK_VER` of port `k` (R188, R195): an unsupported version is refused; below 2.0 the claim is 0. -/
def State.opLnkVer (s : State) (p k v : Nat) : State :=
  let sel := bits v 4 2
  let top := if (s.fe p).rev < 0x0C then 1 else 2
  if top < sel then s.fset p (LNK_STAT_VER_ERR k) 1
  else
    let s1 := s.feWriteReg p (0x020 + 16 * k) v
    if sel < 2 then s1.fset p (LNK_STAT_CLAIM k) 0 else s1

/-- An injection by `PRBS_INJ.GO` (R194): it waits for the record codeword that begins next, or inverts bits of the pattern in TEST, whose
uplink carries ten bits per ns. -/
def State.injectUp (s : State) (p k v : Nat) : State :=
  let n := if bitAt v 1 then bits v 2 5 + 1 else 1
  if bitAt v 7 then s.modLink p k fun l => { l with injectNext := some n }
  else if s.fon p (PRBS_STAT_RUNNING k) then
    s.modLink p k fun l =>
      let b := (s.tm.tick - l.prbsFrom) * 40000 + s.nowInst * 10 / 65536
      { l with testInj := errPlaces (b + n) l.testInj ((List.range n).map (b + ·)) }
  else s

/-- A write of word `w` of front-end `p`, with the effects the words have of their own (R69–R72, R98, R115, R123, R188, R193,
R194, R372, R403). -/
def State.feWriteWord (s : State) (p w t v : Nat) : State :=
  if (0x100 ≤ w ∧ w < 0x500 ∧ w % 2 = 1) ∨ (0x500 ≤ w ∧ w < 0x600 ∧ w % 8 = 0) then s.feWriteLater p w v (nextFc (s.mono t)) else
  if 0x500 ≤ w ∧ w < 0x600 ∧ w % 8 = 3 then s.feWriteLater p w v (s.mono t + 262144) else
  if 0x100 ≤ w ∧ w < 0x500 ∧ w % 2 = 0 then s.opChCfg p ((w - 0x100) / 2) t v
  else if w = 0x060 then s.opGateCfg p t v
  else if 0x500 ≤ w ∧ w < 0x600 ∧ w % 8 = 4 then s.opAdcStat p ((w - 0x500) / 8) v
  else if w = 0x702 then
    (if 1 ≤ bits v 0 10 ∧ bits v 0 10 ≤ 1000 then s.feWriteReg p w v else s.fset p MON_STAT_CFG_ERR 1)
  else if w = 0x020 ∨ w = 0x030 then s.opLnkVer p ((w - 0x020) / 16) v
  else if w = 0x780 then
    (if bits v 8 8 ≤ bits v 0 8 ∨ 115 < bits v 8 8 then s else s.feWriteReg p w v)
  else if w = 0x004 then
    (if bits v 16 16 = 0xC3A5 ∧ bitAt v 0 then s.modFe p fun x => { x with softPending := true } else s)
  else if w = 0xF00 ∨ w = 0xF10 then
    ((s.feWriteReg p w v).when (bitAt v 2) fun z => z.modLink p ((w - 0xF00) / 16) fun l => { l with prbsArmed := true })
  else if w = 0xF04 ∨ w = 0xF14 then
    (s.feWriteReg p w v).when (bitAt v 0) fun z => z.injectUp p ((w - 0xF04) / 16) v
  else if monReserved w then s
  else s.feWriteReg p w v

/-- A slow-control write: it sets all three copies, and makes the scrub pass dirty if it changed a configuration field (R160, R162). -/
def State.feWrite (s : State) (p w t v : Nat) : State :=
  let s1 := (s.healCopies p w).2.feWriteWord p w t v
  if s1.feCfgWord p w = s.feCfgWord p w then s1 else s1.modFe p fun x => { x with scrubDirty := true }

/-- Port `q`'s own link and test words (R198). -/
def ownWord (q w : Nat) : Bool :=
  decide (0x020 + 16 * q ≤ w ∧ w ≤ 0x02F + 16 * q) || decide (0xF00 + 16 * q ≤ w ∧ w ≤ 0xF0F + 16 * q)

/-- Writes of port `q` are obeyed (R179, R196). -/
def State.writesObeyed (s : State) (p q : Nat) : Bool :=
  s.obeyed p q || (decide (s.lnk p q < 6) && (s.fe p).owner.isNone)

/-- Words that no register can be in (R179). -/
def unknownWord (a : Nat) : Bool := decide (0x640 ≤ a ∧ a ≤ 0x6FF) || decide (0x900 ≤ a ∧ a ≤ 0xEFF)

/-- The response a request earns, with the state after it, in the order of R179's table. -/
def State.feAnswer (s : State) (p q : Nat) (r : ReqPkt) (t : Inst) : RespPkt × State :=
  let a := r.addr.toNat
  let ans (typ code : Nat) (d : Nat) : RespPkt :=
    { typ := BitVec.ofNat 4 typ, code := BitVec.ofNat 4 code, tid := r.tid, addr := r.addr, data := BitVec.ofNat 32 d }
  if 0x0FFF < a then (ans 0xA 2 0, s)
  else if unknownWord a then (ans 0xA 1 0, s)
  else if 3 < r.typ.toNat then (ans 0xA 3 0, s)
  else if r.typ.toNat = 1 then
    (let x := s.feRead p q a; (ans 0x8 0 x.1, x.2))
  else if s.writesObeyed p q || ownWord q a then (ans 0x9 0 0, s.feWrite p a t r.data.toNat)
  else (ans 0xA 4 0, s)

/-- A response joins the port's queue (R180): at most 16 error responses of posted writes. -/
def State.pushResp (s : State) (p q : Nat) (r : RespPkt) (posted : Bool) : State :=
  let l := (s.fe p).link q
  let err := decide (r.typ = 0xA)
  let s1 := s.when err fun z => z.fbump p (LNK_SC_ERR_RESP q)
  if posted && !err then s1
  else if posted && decide (16 ≤ (l.responses.filter (·.2)).length) then s1.fbump p (LNK_SC_RESP_LOST q)
  else s1.modLink p q fun x => { x with responses := x.responses ++ [(r, posted)] }

/-- A request packet is executed at instant `t` and answered (R179, R180); an empty packet is ignored. -/
def State.feRequestAt (s : State) (p q : Nat) (r : ReqPkt) (t : Inst) : State :=
  if r.typ.toNat = 0 ∨ !(s.feLive p) then s
  else
    let x := s.feAnswer p q r t
    x.2.pushResp p q x.1 (decide (r.typ.toNat = 3))

/-- A request packet is executed now. -/
def State.feRequest (s : State) (p q : Nat) (r : ReqPkt) : State := s.feRequestAt p q r s.nowInst

/-- The stream characters of a run of downlink characters that begins `j` characters into a frame: every fourth place is a fast-command
slot (R170). -/
def streamOf (j : Nat) : List (Option Sym) → List (Option Sym)
  | [] => []
  | x :: r => if j % 4 = 0 then streamOf (j + 1) r else x :: streamOf (j + 1) r

/-- A request codeword as it arrives, from its marker to its last check byte with the slots between: code errors, verdict, packets
(R167–R170, R178). The marker stands at a place j with j mod 4 = 3. -/
def reqRead (x : CodeRun) : Nat × CwStatus × List ReqPkt :=
  let cs := streamOf 3 (lineSyms x.plus x.chars)
  let cw := cwRead (cs.drop 1)
  (codeErrors cs, cw.1, if cw.1 = .uncorrectable then [] else (packetsOf 16 cw.2).map reqOf)

/-- The counts of a request codeword (R155, R167, R169). -/
def State.reqCounts (s : State) (p q : Nat) (x : CodeRun) : State :=
  let r := reqRead x
  let s1 := (s.fadd p (LNK_ERR_CODE q) r.1).when (decide (r.1 ≠ 0)) fun z => z.modFacts p fun f => { f with linkAlarm := true }
  match r.2.1 with
  | .uncorrectable => (s1.fbump p (LNK_SC_RS_UNC q)).modFacts p fun f => { f with linkAlarm := true }
  | .corrected => s1.fbump p (LNK_SC_RS_CORR q)
  | .ok => s1

/-- A packet that waits for its fc cycle: cycle, port, packet. -/
abbrev DuePkt := Nat × Nat × ReqPkt

/-- The packets of a codeword decoded at instant `t` on port `q`, one per fc (R179). -/
def duePkts (q : Nat) (t : Inst) (x : CodeRun) : List DuePkt :=
  let ps := (reqRead x).2.2
  (List.range ps.length).map fun i => (t / 262144 + i, q, ps.getD i { typ := 0, tid := 0, addr := 0, data := 0 })

/-- Two runs of packets by fc cycle, the primary port's first within one (R179). -/
def mergeDue : Nat → List DuePkt → List DuePkt → List DuePkt
  | 0, a, b => a ++ b
  | _, [], b => b
  | _, a, [] => a
  | n + 1, x :: a, y :: b =>
    if x.1 < y.1 ∨ (x.1 = y.1 ∧ x.2.1 ≤ y.2.1) then x :: mergeDue n a (y :: b) else y :: mergeDue n (x :: a) b

/-- Packets executed in their cycles. -/
def State.runDue (s : State) (p : Nat) (ds : List DuePkt) : State :=
  ds.foldl (fun z d => z.feRequestAt p d.2.1 d.2.2 (d.1 * 262144)) s

/-- A write that acts at instant `t`, made through port `q` if its writes are obeyed or the word is its own. -/
def State.fePortWrite (s : State) (p q w t v : Nat) : State :=
  let s0 := s.toInst t
  if s0.feLive p && (s0.writesObeyed p q || ownWord q w) then s0.feWrite p w t v else s0

/-- REQUEST_CODEWORD (R167–R170, R178–R180): a codeword decoded at instant `t`, and the other port's where its packets fall into the same
cycles. Code errors and verdicts are counted; the packets of good codewords are executed in order, one per fc on each port. -/
def execRequestCodeword (p : PortIx) (q : FaceIx) (t : Inst) (run : CodeRun) (other : Option (Inst × CodeRun)) (s : State) : Out :=
  .next (if !(s.feLive p.val) then s
    else
      let s1 := s.reqCounts p.val q.val run
      match other with
      | none => s1.runDue p.val (duePkts q.val t run)
      | some y =>
        (s1.reqCounts p.val (1 - q.val) y.2).runDue p.val (mergeDue 32 (duePkts q.val t run) (duePkts (1 - q.val) y.1 y.2)))

/-- READ_REQUEST (R137, R179, R180). -/
def execReadRequest (p : PortIx) (q : FaceIx) (r : ReqPkt) (s : State) : Out :=
  .next (s.feRequest p.val q.val { r with typ := 1 })

/-- WRITE_REQUEST (R69, R119, R125, R160, R179, R180, R188, R198). -/
def execWriteRequest (p : PortIx) (q : FaceIx) (r : ReqPkt) (s : State) : Out :=
  .next (s.feRequest p.val q.val { r with typ := 2 })

/-- POSTED_WRITE_REQUEST (R179, R180): answered only when it fails. -/
def execPostedWriteRequest (p : PortIx) (q : FaceIx) (r : ReqPkt) (s : State) : Out :=
  .next (s.feRequest p.val q.val { r with typ := 3 })

/-- CHANNEL_ENABLE (R70, R71): a write of `CH_CFG`. -/
def execChannelEnable (p : PortIx) (q : FaceIx) (c : ChIx) (t : Inst) (v : W32) (s : State) : Out :=
  .next (s.fePortWrite p.val q.val (0x100 + 2 * c.val) t v.toNat)

/-- CHANNEL_DISABLE (R70, R72): a write of `CH_CFG`. -/
def execChannelDisable (p : PortIx) (q : FaceIx) (c : ChIx) (t : Inst) (v : W32) (s : State) : Out :=
  .next (s.fePortWrite p.val q.val (0x100 + 2 * c.val) t v.toNat)

/-- GATE_MODE_WRITE (R94, R98): a write of `GATE_CFG`. -/
def execGateModeWrite (p : PortIx) (q : FaceIx) (t : Inst) (v : W32) (s : State) : Out :=
  .next (s.fePortWrite p.val q.val 0x060 t v.toNat)

/-- SLICE_RETURN (R115): a write of `BLK_ADCSTAT`. -/
def execSliceReturn (p : PortIx) (q : FaceIx) (b : BlkIx) (v : W32) (s : State) : Out :=
  .next (s.fePortWrite p.val q.val (0x504 + 8 * b.val) s.nowInst v.toNat)

/-- CHCNT_DATA_READ (R106, R179): a read of `CHCNT_DATA` through port `q`, answered like any read. -/
def execChcntDataRead (p : PortIx) (q : FaceIx) (s : State) : Out :=
  .next (s.feRequest p.val q.val { typ := 1, tid := 0, addr := 0x821, data := 0 })

/-- PRBS_START (R193): a write of `PRBS_CTRL`. -/
def execPrbsStart (p : PortIx) (q : FaceIx) (v : W32) (s : State) : Out :=
  .next (s.fePortWrite p.val q.val (0xF00 + 16 * q.val) s.nowInst v.toNat)

/-- PRBS_INJECT (R194): a write of `PRBS_INJ`. -/
def execPrbsInject (p : PortIx) (q : FaceIx) (v : W32) (s : State) : Out :=
  .next (s.fePortWrite p.val q.val (0xF04 + 16 * q.val) s.nowInst v.toNat)

/-! ### SYNC sets -/

/-- The stream characters of a SYNC set: the fast-command slots 1 and 2 among characters 0 to 10 are left out (R170, R171). -/
def syncStream (x : SyncSet) : List (Option Sym) :=
  (lineSyms x.line.plus x.line.chars).take 1 ++ streamOf 0 (lineSyms x.line.plus x.line.chars)

/-- What a SYNC set says if it is good: its comma at its place, and its CRC matching (R172). -/
def syncInfo (x : SyncSet) : Option SyncInfo :=
  match syncStream x with
  | c :: r => if x.placed && decide (c = some k285) then (bytesOf r).bind readSync else none
  | [] => none

/-- The code errors met with a SYNC set (R167). -/
def syncErrs (x : SyncSet) : Nat := codeErrors (syncStream x) + x.idleErrs

/-- The counters of front-end `p` loaded for the tick that follows (R187). -/
def State.feLoad (s : State) (p : Nat) (x : SyncInfo) : State :=
  s.modFe p fun f => { f with sec := x.sec, fis := x.fis, atTick := s.tm.tick + 1 }

/-- A link reset of port `q` (R186, R195, R373): its uplink goes off and it restarts from DARK. -/
def State.linkReset (s : State) (p q : Nat) : State :=
  let zero := [LNK_STAT_STATE q, LNK_STAT_OWNER q, LNK_STAT_CLAIM q, LNK_STAT_SILENT q, LNK_STAT_VER_ERR q, LNK_STAT_DOWNS q,
    LNK_ERR_CODE q, LNK_ERR_FC q, LNK_ERR_SYNC q, LNK_SC_RS_CORR q, LNK_SC_RS_UNC q, LNK_SC_ERR_RESP q, LNK_SC_RESP_LOST q,
    LNK_TIME_MISMATCH q, LNK_TIME_LOADS q, LNK_TIME_FORCED q, LNK_EQ_FOUND q]
  (zero.foldl (fun z f => z.fset p f 0) s).modLink p q fun l => { l with
    uplinkOn := false, lrstTimer := true, goodRun := 0, badRun := 0, mismatchRun := 0, latch := [], claimCmd := false, phOk := false }

/-- A front-end port falls to DARK or LOCK (R185). -/
def State.feFall (s : State) (p q st : Nat) : State :=
  (((s.fset p (LNK_STAT_STATE q) st).fbump p (LNK_STAT_DOWNS q)).fset p (PRBS_STAT_RUNNING q) 0).modLink p q fun l => { l with
    goodRun := 0, badRun := 0, mismatchRun := 0, uplinkOn := decide (st ≠ 0), phOk := false }

/-- The front-end's counters after a good set (R187): loaded below RUN and with LOAD, otherwise compared. The set belongs to
the tick that follows. -/
def State.syncTime (s : State) (p q : Nat) (x : SyncInfo) : State :=
  if x.load then ((s.feLoad p x).fbump p (LNK_TIME_LOADS q)).modLink p q fun l => { l with mismatchRun := 0 }
  else if s.lnk p q < 6 then s.feLoad p x
  else if (s.feFrame p + 1) % (65536 * framesPerSec) = x.sec * framesPerSec + x.fis then
    s.modLink p q fun l => { l with mismatchRun := 0 }
  else
    let s1 := (s.fbump p (LNK_TIME_MISMATCH q)).modFacts p fun f => { f with linkAlarm := true }
    if 1 ≤ ((s.fe p).link q).mismatchRun then
      ((s1.feLoad p x).fbump p (LNK_TIME_FORCED q)).modLink p q fun l => { l with mismatchRun := 0 }
    else s1.modLink p q fun l => { l with mismatchRun := 1 }

/-- The claim after a good set (R195): taken over after a CLAIM command, otherwise only compared. -/
def State.syncClaim (s : State) (p q : Nat) (x : SyncInfo) : State :=
  let c := x.claim
  if s.fget p (LNK_VER_SEL q) ≠ 2 then s.modLink p q fun l => { l with claimMismatch := false }
  else if ((s.fe p).link q).claimCmd then
    (s.fset p (LNK_STAT_CLAIM q) c).modLink p q fun l => { l with claimMismatch := false }
  else if c = s.fget p (LNK_STAT_CLAIM q) then s.modLink p q fun l => { l with claimMismatch := false }
  else (s.fbump p OWN_STAT_CLAIM_ERR).modLink p q fun l => { l with claimMismatch := true }

/-- Port `q` of front-end `p` takes the link state that its concentrator port announces (R182). -/
def State.followState (s : State) (p q st : Nat) : State :=
  (s.fset p (LNK_STAT_STATE q) st).when (decide (st = 6) && !(decide (s.lnk p 0 = 6) || decide (s.lnk p 1 = 6))) fun z => z.rearmAll p

/-- The link state after a good set (R182): four in a row bring LOCK to ALIGN; from ALIGN on the announced state is followed. -/
def State.syncState (s : State) (p q : Nat) (x : SyncInfo) : State :=
  let st := s.lnk p q
  let n := ((s.fe p).link q).goodRun + 1
  let s1 := s.modLink p q fun l => { l with goodRun := n, badRun := 0, bad := false }
  if x.state = 7 then s1
  else if 2 ≤ st then s1.followState p q x.state
  else if st = 1 ∧ 4 ≤ n then s1.followState p q (max 2 x.state)
  else s1

/-- PH of a tick: measured on a 1 GHz clock to the nearest 16 units, where the comma was found (R190, log entry 92). -/
def State.syncPh (s : State) (p q : Nat) (x : SyncSet) (good : Bool) : State :=
  s.modLink p q fun l => { l with ph := roundDivI x.ph 16 * 16, phOk := good }

/-- The code errors met with a set (R155, R167). -/
def State.lineErrs (s : State) (p q n : Nat) : State :=
  if n = 0 then s else (s.fadd p (LNK_ERR_CODE q) n).modFacts p fun f => { f with linkAlarm := true }

/-- SYNC_SET (R167, R170–R172, R182, R185–R187, R190, R193, R195): the set of the tick that follows; in TEST the lane carries none. -/
def execSyncSet (p : PortIx) (q : FaceIx) (x : SyncSet) (sIn : State) : Out :=
  .next (if !(sIn.feLive p.val) || decide (sIn.lnk p.val q.val = 7) then sIn
    else
      let s := (sIn.lineErrs p.val q.val (syncErrs x)).syncPh p.val q.val x (syncInfo x).isSome
      match syncInfo x with
      | none =>
        let n := ((s.fe p.val).link q.val).badRun + 1
        let s1 := ((s.fbump p.val (LNK_ERR_SYNC q.val)).modFacts p.val fun f => { f with linkAlarm := true }).modLink p.val q.val
          fun l => { l with bad := true, badRun := n, goodRun := 0 }
        if 4 ≤ n ∧ 2 ≤ s.lnk p.val q.val then s1.feFall p.val q.val 1 else s1
      | some i =>
        if i.lrst then (s.linkReset p.val q.val).feLoad p.val i
        else ((s.syncTime p.val q.val i).syncClaim p.val q.val i).syncState p.val q.val i)

/-- LINK_RESET_END (R186): after 10 µs the uplink restarts. -/
def execLinkResetEnd (p : PortIx) (q : FaceIx) (s : State) : Out :=
  .next (if ((s.fe p.val).link q.val).lrstTimer then
      let on := ((s.fe p.val).link q.val).clockLocked
      (s.modLink p.val q.val fun l => { l with lrstTimer := false, uplinkOn := on }).when on fun z =>
        z.fset p.val (LNK_STAT_STATE q.val) 1
    else s)

/-- DOWNLINK_CLOCK_LOCK (R182, R192): in DARK the front-end recovers its clock at an equaliser step and sends idles. -/
def execDownlinkClockLock (p : PortIx) (q : FaceIx) (step : BitVec 3) (s : State) : Out :=
  .next (if !(s.feLive p.val) || decide (s.lnk p.val q.val ≠ 0) then s
    else
      let st := if s.fon p.val (LNK_EQ_AUTO q.val) then step.toNat else s.fget p.val (LNK_EQ_STEP q.val)
      let on := !((s.fe p.val).link q.val).lrstTimer
      ((s.fset p.val (LNK_EQ_FOUND q.val) st).modLink p.val q.val fun l => { l with clockLocked := true, uplinkOn := on }).when on
        fun z => z.fset p.val (LNK_STAT_STATE q.val) 1)

/-- DOWNLINK_CLOCK_LOSS (R185): the downlink clock or the PLL has lost lock for 1 µs. -/
def execDownlinkClockLoss (p : PortIx) (q : FaceIx) (s : State) : Out :=
  .next (if !(s.feLive p.val) then s
    else
      let s1 := s.modLink p.val q.val fun l => { l with clockLocked := false, uplinkOn := false }
      if s.lnk p.val q.val = 0 then s1 else s1.feFall p.val q.val 0)

/-! ### Owner evaluation -/

/-- Port `q` is a candidate (R196). -/
def State.candidate (s : State) (p q : Nat) : Bool := decide (s.lnk p q = 6)

/-- Port `q` counts as silent at this tick (R195, R196). -/
def State.silent (s : State) (p q : Nat) : Bool := ((s.fe p).link q).bad || ((s.fe p).link q).claimMismatch

/-- The candidate with the higher claim; the primary port wins a tie (R196). -/
def State.bestPort (s : State) (p : Nat) : Option Nat :=
  if s.candidate p 0 && s.candidate p 1 then
    (if s.fget p (LNK_STAT_CLAIM 0) < s.fget p (LNK_STAT_CLAIM 1) then some 1 else some 0)
  else if s.candidate p 0 then some 0 else if s.candidate p 1 then some 1 else none

/-- The fields that show owner and overlap (R199). -/
def State.showOwner (s : State) (p : Nat) (o : Option Nat) (ov : Bool) : State :=
  let on (q : Nat) : Nat := b2n (decide (o = some q) || (ov && s.candidate p q))
  ((((((s.modFe p fun x => { x with owner := o }).fset p (LNK_STAT_OWNER 0) (on 0)).fset p (LNK_STAT_OWNER 1) (on 1)).fset p
    (LNK_STAT_SILENT 0) (b2n (s.silent p 0))).fset p (LNK_STAT_SILENT 1) (b2n (s.silent p 1))).fset p OWN_STAT_NONE
    (b2n o.isNone)).fset p OWN_STAT_PORT (o.getD 0) |>.fset p OWN_STAT_OVERLAP (b2n ov)

/-- OWNER_EVALUATION (R195–R197) at a tick: an owner that is silent beside a candidate that is not shares the frame with it,
and loses its claim if it is silent again at the second following tick. -/
def State.ownerEval (s : State) (p : Nat) : State :=
  match s.bestPort p with
  | none => (s.modFe p fun x => { x with overlapFrom := none }).showOwner p none false
  | some o =>
    let other := 1 - o
    let fails := s.silent p o && s.candidate p other && !(s.silent p other)
    let due := match (s.fe p).overlapFrom with | some t => decide (t + 2 ≤ s.tm.tick) | none => false
    if !fails then
      let keep := match (s.fe p).overlapFrom with | some t => decide (s.tm.tick < t + 2) | none => false
      (s.modFe p fun x => { x with overlapFrom := if keep then x.overlapFrom else none }).showOwner p (some o) false
    else if due then
      ((s.fset p (LNK_STAT_CLAIM o) 0).modFe p fun x => { x with overlapFrom := none }).showOwner p (some other) false
    else
      let was := s.fon p OWN_STAT_OVERLAP
      let s1 := if was then s else (s.fbump p OWN_STAT_OVERLAPS)
      (s1.modFe p fun x => { x with overlapFrom := some (x.overlapFrom.getD s.tm.tick) }).showOwner p (some o) true

/-! ### The concentrator port -/

/-- The face of the front-ends that the port is wired to (R200). -/
def State.face (s : State) (p : Nat) : Nat := s.cget (PL_CTRL_FACE p)

/-- The link state of a concentrator port. -/
def State.plState (s : State) (p : Nat) : Nat := s.cget (PL_STAT_STATE p)

/-- The module is a twin in the STANDBY role (R383). -/
def State.twinStandby (s : State) : Bool := decide (s.cget TWIN_STAT_ROLE = 2)

/-- The end of a proxy access as its master sees it: access error or data (R181). -/
def State.proxyEnd (s : State) (m : Nat) (err : Bool) (d : Nat) : State :=
  s.answer m err d

/-- The packet of a non-posted request (R178). -/
def OutReq.pkt (r : OutReq) : ReqPkt :=
  { typ := if r.data.isSome then 2 else 1, tid := BitVec.ofNat 8 r.tid, addr := BitVec.ofNat 16 r.addr, data := r.data.getD 0 }

/-- Requests that wait are accepted while R181 leaves room: five for a frame, sixteen outstanding. `tick` is that of the frame whose
downlink carries them. -/
def Port.send (x : Port) (tick : Nat) : Nat → Port
  | 0 => x
  | n + 1 => match x.reqWait with
    | [] => x
    | r :: rest =>
      if x.sentThisFrame < 5 ∧ x.outstanding.length < 16 then
        Port.send { x with
          reqWait := rest, outstanding := x.outstanding ++ [{ r with sentTick := tick }], sentThisFrame := x.sentThisFrame + 1
          reqNext := x.reqNext ++ [r.pkt] } tick n
      else x

/-- A request of the port: for master `m`, or for itself. It goes into the downlink of the next frame that has room (R181, log entry 93). -/
def State.portRequest (s : State) (p w : Nat) (data : Option W32) (m : Option Nat) : State :=
  s.modPort p fun x => Port.send { x with
    nextTid := (x.nextTid + 1) % 256,
    reqWait := x.reqWait ++ [{ tid := x.nextTid, addr := w, data := data, sentTick := s.tm.tick, master := m }] } (s.tm.tick + 1) 5

/-- Requests that wait on a port that leaves RUN are answered with the access error (R181). -/
def State.dropWaiting (s : State) (p : Nat) : State :=
  (s.port p).reqWait.foldl (fun z r => match r.master with | some m => z.proxyEnd m true 0 | none => z)
    (s.modPort p fun x => { x with reqWait := [] })

/-- The port enters LOCK: with AUTO set its equaliser search begins at step 0, otherwise the fixed step is in use (R192). -/
def State.lockBegin (s : State) (p : Nat) : State :=
  (s.cset (PL_EQ_FOUND p) (if s.con (PL_EQ_AUTO p) then 0 else s.cget (PL_EQ_STEP p))).modPort p fun x => { x with eqStep := 0, eqErrs := [] }

/-- The port enters NEGOTIATE: it reads `CHIP_ID` and `LNK_VER` (R182). -/
def State.negBegin (s : State) (p : Nat) : State :=
  let s1 := s.modPort p fun x => { x with ownReads := [], negSel := none, verRun := 0 }
  (s1.portRequest p 0x000 none none).portRequest p (0x020 + 16 * s.face p) none none

/-- The port enters a link state. -/
def State.plEnter (s : State) (p st : Nat) : State :=
  let s1 := (s.cset (PL_STAT_STATE p) st).modPort p fun x => { x with
    stateTick := s.tm.tick, badSlots := 0, goodSlots := 0, rttSum := 0, rttN := 0, avgValid := x.avgValid && decide (5 ≤ st ∧ st ≤ 6), applyNext := false, phaseFirst := none, pushes := 0
    goldMiss := 0, posted := [], testAsk := false, testFrom := if st = 2 ∨ st = 7 then x.testFrom else none, plGen := none, plLock := false }
  let s2 := s1.when (decide (s.plState p = 6) && decide (st ≠ 6)) fun z => z.dropWaiting p
  if st = 1 then s2.lockBegin p else if st = 3 then s2.negBegin p else s2

/-- The port gives up and stays in DARK (R184). -/
def State.plGiveUp (s : State) (p : Nat) : State :=
  ((s.cset (PL_STAT_GIVEN_UP p) 1).modPort p fun x => { x with retry := false }).plEnter p 0

/-- A failure of the present state (R184): counted, and after the retry limit in a row the port gives up. -/
def State.plFail (s : State) (p reason back : Nat) : State :=
  let x := s.port p
  let st := s.plState p
  let n := if x.failState = st then x.failRun + 1 else 1
  let s1 := ((s.cbump (PL_UP_FALLS p)).cset (PL_STAT_REASON p) reason).modPort p fun y => { y with failRun := n, failState := st }
  if max 1 (s.cget (PLR_CFG_RETRIES (p / 256))) ≤ n then s1.plGiveUp p else s1.plEnter p back

/-- An exit from RUN or a loss of signal (R185). -/
def State.plExit (s : State) (p reason dest : Nat) : State :=
  ((s.cbump (PL_UP_FALLS p)).cset (PL_STAT_REASON p) reason).plEnter p dest

/-- Word `w` of the golden copy of port `p` (R361). -/
def State.goldWord (s : State) (p w : Nat) : Nat := tget (s.port p).golden w (feResetWord w)

/-- Word `w` of the golden copy set. -/
def State.setGold (s : State) (p w v : Nat) : State :=
  s.modPort p fun x => { x with golden := tset x.golden w (feResetWord w) (Nat.land v (feCfgMask w)) }

/-- The CRC-32C of the golden copy under R162. -/
def State.goldCrc (s : State) (p : Nat) : Nat := cfgCrc fun w => s.goldWord p w

/-- The posted writes of a push of the golden copy: every configuration word (R182, R191). They go out at the following ticks. -/
def State.goldPush (s : State) (p : Nat) : State :=
  s.modPort p fun x => { x with
    pushTick := none
    posted := ((List.range 4096).filter fun w => decide (feCfgMask w ≠ 0)).map fun w => (w, BitVec.ofNat 32 (s.goldWord p w)) }

/-- UPLINK_SIGNAL_DETECT (R182, R184): DARK to LOCK. -/
def execUplinkSignalDetect (p : PortIx) (s : State) : Out :=
  .next (if s.plState p.val = 0 ∧ s.con (PL_CTRL_EN p.val) ∧ (!(s.con (PL_STAT_GIVEN_UP p.val)) ∨ (s.port p.val).retry) then
      s.plEnter p.val 1
    else s)

/-- LOCK_ACHIEVED (R167, R182): 4,096 characters without code error take LOCK to ALIGN. -/
def execLockAchieved (p : PortIx) (s : State) : Out :=
  .next (if s.plState p.val = 1 then s.plEnter p.val 2 else s)

/-- The port reaches RUN (R184); in IDLE or a throttled region its front-end is sent STANDBY (R369, R406). -/
def State.plRun (s : State) (p : Nat) : State :=
  let low := decide (s.cget GLB_STAT_STATE = 2) || s.pro.actions.contains (p / 256)
  (((s.cbump (PL_UP_UPS p)).cset (PL_STAT_GIVEN_UP p) 0).plEnter p 6).modPort p fun x => { x with
    failRun := 0, retry := false, goldTick := s.tm.tick, fastNext := if low then x.fastNext ++ [6] else x.fastNext }

/-- ALIGN_ACHIEVED (R182, R193): four good slot-start sets take ALIGN to NEGOTIATE, or back to the state a TEST left. -/
def execAlignAchieved (p : PortIx) (s : State) : Out :=
  .next (if s.plState p.val = 2 ∧ 4 ≤ (s.port p.val).goodSlots then
      match (s.port p.val).testFrom with
      | some st => if st = 6 then s.plRun p.val else s.plEnter p.val st
      | none => s.plEnter p.val 3
    else s)

/-- The highest version set in both masks (R188). -/
def bestVersion (m : Nat) : Option Nat := if bitAt m 2 then some 2 else if bitAt m 1 then some 1 else if bitAt m 0 then some 0 else none

/-- The version a port of face `f` selects from what its front-end supports (R188). -/
def State.versionFor (s : State) (p sup : Nat) : Option Nat := bestVersion (Nat.land sup (s.cget (PL_CTRL_VER_MASK p)))

/-- A word that the port has read for itself arrives (R182, R188): with both read in NEGOTIATE, the version is selected and written to
`LNK_VER.SEL`. -/
def State.ownRead (s : State) (p w v : Nat) : State :=
  let s1 := s.modPort p fun x => { x with ownReads := (w, v) :: x.ownReads }
  let word := 0x020 + 16 * s.face p
  match (s1.port p).ownReads.lookup 0x000, (s1.port p).ownReads.lookup word with
  | some _, some n =>
    if s.plState p ≠ 3 ∨ (s.port p).negSel.isSome then s1
    else match s.versionFor p (bits n 0 3) with
      | some k =>
        if s.face p = 1 ∧ k < 2 then s1
        else (s1.modPort p fun x => { x with negSel := some k }).portRequest p word (some (BitVec.ofNat 32 (k * 16))) none
      | none => s1
  | _, _ => s1

/-- NEGOTIATE_DONE (R4, R182, R184, R188, R189, R386), for the `CHIP_ID` and `LNK_VER.SUP` that the port has read: four consecutive slots
have shown the selected version, or there is none and the port gives up. -/
def execNegotiateDone (p : PortIx) (chipId : W32) (sup : BitVec 3) (s : State) : Out :=
  .next (
    let x := s.port p.val
    let word := 0x020 + 16 * s.face p.val
    if s.plState p.val ≠ 3 ∨ x.ownReads.lookup 0x000 ≠ some chipId.toNat ∨ (x.ownReads.lookup word).map (bits · 0 3) ≠ some sup.toNat then s
    else
      let s0 := s.cset (PL_STAT_FE_REV p.val) (chipId.toNat % 16)
      let giveUp (reason : Nat) : State := ((s0.cbump (PL_UP_FALLS p.val)).cset (PL_STAT_REASON p.val) reason).plGiveUp p.val
      match s.versionFor p.val sup.toNat with
      | none => giveUp 2
      | some v =>
        if s.face p.val = 1 ∧ v < 2 then giveUp 3
        else if x.negSel ≠ some v ∨ x.verRun < 4 then s
        else
          let s1 := s0.setGold p.val word (v * 16)
          (((s1.cset (PL_STAT_VER p.val) v).cset (TIM_PSTAT_ECHO p.val) (b2n (decide (v ≠ 0)))).cset (TIM_PSTAT_FROZEN p.val)
            (b2n (decide (v = 0)))).plEnter p.val 4)

/-- The CONFIG state begins (R182, R192, R391): the golden copy is pushed, but not by a standby twin. -/
def State.configBegin (s : State) (p : Nat) : State :=
  let w := 0x022 + 16 * s.face p
  let eq := s.goldWord p w / 8 * 8 + s.cget (PL_EQ_FE_STEP p) % 8
  let s1 := (s.setGold p w eq).plEnter p 5
  if s.twinStandby then s1 else s1.goldPush p

/-- PHASE_VERIFY (R183): the mean of 16 frames after the delay was applied lies within 40 ps of the first average. -/
def execPhaseVerify (p : PortIx) (s : State) : Out :=
  .next (if s.plState p.val ≠ 4 then s
    else match (s.port p.val).phaseFirst with
      | none => s
      | some a =>
        let x := s.port p.val
        if x.rttN < 16 then s
        else if (x.rttSum - a * x.rttN).natAbs * 1000 ≤ 40 * 65536 * x.rttN then s.configBegin p.val
        else s.plFail p.val 7 2)

/-- The last posted write of a push has gone out, and a whole scrub pass of 131.072 µs has had time to follow it (R161, R183). -/
def State.pushPassed (s : State) (p : Nat) : Bool :=
  (s.port p).posted.isEmpty && (match (s.port p).pushTick with | some t => decide (t + 34 ≤ s.tm.tick) | none => true)

/-- CONFIG_CRC_CHECK (R183, R184, R391): after the last posted write and a clean pass the CRC decides; one re-push, then the failure
"config". -/
def execConfigCrcCheck (p : PortIx) (dirty : Bool) (crc : W32) (s : State) : Out :=
  .next (if s.plState p.val ≠ 5 ∨ dirty ∨ !(s.pushPassed p.val) then s
    else if s.twinStandby || decide (crc.toNat = s.goldCrc p.val) then
      (s.cset (PL_GOLD_MATCH p.val) (b2n (decide (crc.toNat = s.goldCrc p.val)))).plRun p.val
    else if (s.port p.val).pushes = 0 then
      ((s.cset (PL_GOLD_MATCH p.val) 0).goldPush p.val).modPort p.val fun x => { x with pushes := 1 }
    else (s.cset (PL_GOLD_MATCH p.val) 0).plFail p.val 5 2)

/-- Timeout of a link-up state in ticks (R182). -/
def stateLimit (st : Nat) : Nat :=
  match st with
  | 0 => 25000 | 1 => 5000 | 2 => 250 | 3 => 500 | 4 => 1000 | _ => 1250

/-- LINK_STATE_TIMEOUT (R182, R184): the port falls back; in DARK it stays and tries its next equaliser step. -/
def execLinkStateTimeout (p : PortIx) (s : State) : Out :=
  .next (
    let st := s.plState p.val
    if 6 ≤ st ∨ s.since (s.port p.val).stateTick < stateLimit st then s
    else if st = 0 then
      (s.modPort p.val fun x => { x with stateTick := s.tm.tick }).when (s.con (PL_EQ_AUTO p.val)) fun z =>
        z.cset (PL_EQ_FOUND p.val) (s.cget (PL_EQ_FOUND p.val) + 1)
    else s.plFail p.val 1 (if st = 1 then 0 else if st = 2 then 1 else 2))

/-- The longest run of error-free steps as (start, length), the lower one of two equal runs (R192). -/
def bestRun (err : Nat → Nat) : Nat → Nat × Nat → Nat × Nat → Nat → Nat × Nat
  | 0, best, _, _ => best
  | n + 1, best, cur, k =>
    if err k = 0 then
      let c := if cur.2 = 0 then (k, 1) else (cur.1, cur.2 + 1)
      bestRun err n (if best.2 < c.2 then c else best) c (k + 1)
    else bestRun err n best (0, 0) (k + 1)

/-- The step with the fewest errors, the lowest of equals (R192). -/
def leastErrors (err : Nat → Nat) : Nat := (List.range 16).foldl (fun b k => if err k < err b then k else b) 0

/-- The step an equaliser search takes (R192): the lower middle of the longest error-free run, or the step with fewest errors. -/
def chooseStep (err : Nat → Nat) : Nat :=
  let r := bestRun err 16 (0, 0) (0, 0) 0
  if r.2 = 0 then leastErrors err else r.1 + (r.2 - 1) / 2

/-- EQUALISER_STEP (R192): the port's search in LOCK or the front-end's in DARK moves on. -/
def execEqualiserStep (p : PortIx) (fe : Bool) (errors : Nat) (s : State) : Out :=
  .next (if fe then
      let q := s.face p.val
      if s.feLive p.val && decide (s.lnk p.val q = 0) && s.fon p.val (LNK_EQ_AUTO q) then
        s.fset p.val (LNK_EQ_FOUND q) (s.fget p.val (LNK_EQ_FOUND q) + 1)
      else s
    else if s.plState p.val = 1 ∧ s.con (PL_EQ_AUTO p.val) ∧ (s.port p.val).eqStep < 16 then
      let k := (s.port p.val).eqStep
      let es := tset (s.port p.val).eqErrs k 0 errors
      let s1 := s.modPort p.val fun x => { x with eqStep := k + 1, eqErrs := es }
      if k + 1 < 16 then s1.cset (PL_EQ_FOUND p.val) (k + 1) else s1.cset (PL_EQ_FOUND p.val) (chooseStep fun j => tget es j 0)
    else s)

/-- UPLINK_SIGNAL_LOSS (R185): no uplink signal for 1 µs takes the port to DARK. -/
def execUplinkSignalLoss (p : PortIx) (s : State) : Out :=
  .next (if s.plState p.val = 0 then s else s.plExit p.val 6 0)

/-- SLOT_START_SET (R167, R173, R182, R185, R190): the four characters at the start of a slot, and the arrival of the comma, 2^-16 ns after the
tick. Placement and CRC are counted, and the slot byte is shown. -/
def execSlotStartSet (p : PortIx) (placed plus : Bool) (chars : List (BitVec 10)) (arr : Int) (s0 : State) : Out :=
  .next (
    let st := s0.plState p.val
    if st < 2 ∨ st = 7 then s0
    else
      let xs := lineSyms plus chars
      let s := s0.cadd (PL_ERR_CODE p.val) (codeErrors xs)
      match (if placed && decide (xs.headD none = some k285) then (bytesOf (xs.drop 1)).filter (goodSet 3) else none) with
      | some b =>
        let slotByte := bodyNat b 1 1
        ((s.modPort p.val fun x => { x with
          goodSlots := x.goodSlots + 1, badSlots := 0, arr := some (s.tm.tick, arr)
          verRun := if x.negSel = some (bits slotByte 0 2) then x.verRun + 1 else 0 }).cset (PL_STAT_OWNER p.val)
          (bits slotByte 3 1)).cset (PL_STAT_OVERLAP p.val) (bits slotByte 4 1)
      | none =>
        let n := (s.port p.val).badSlots + 1
        let s1 := s.modPort p.val fun x => { x with goodSlots := 0, badSlots := n, verRun := 0 }
        if st = 6 ∧ 4 ≤ n then s1.plExit p.val 7 1 else s1)

/-- RTT_p from an echo (R190), 2^-16 ns: the slot-start comma arrived at T_arr after the tick, and the SYNC comma of that tick was launched
the advance before it. -/
def State.roundTrip (s : State) (p : Nat) (arr ph : Int) : Int :=
  let rev := s.cget (PL_STAT_FE_REV p)
  let dep := -((s.port p).launched + Config.lead rev)
  arr - dep - Config.lPort - Config.lFe rev - ph

/-- ECHO_SET (R47, R49, R167, R173, R190): a usable echo of the slot whose start was found adds its round trip. -/
def execEchoSet (p : PortIx) (plus : Bool) (mark fis phLo phHi : BitVec 10) (rest : EchoTail) (s0 : State) : Out :=
  .next (
    let xs := lineSyms plus [mark, fis, phLo, phHi, rest.status, rest.crc]
    let s := s0.cadd (PL_ERR_CODE p.val) (codeErrors xs)
    match (if xs.headD none = some k283 then (bytesOf (xs.drop 1)).filter (goodSet 5) else none), (s.port p.val).arr with
    | some b, some a =>
      if decide (a.1 = s.tm.tick) && bitAt (bodyNat b 3 1) 0 && decide (bodyNat b 0 1 = s.tm.now.fis % 256) &&
          decide (4 ≤ s.plState p.val ∧ s.plState p.val ≤ 6) then
        s.modPort p.val fun x => { x with
          rttSum := x.rttSum + s.roundTrip p.val a.2 (toSigned 16 (bodyNat b 1 2)), rttN := x.rttN + 1 }
      else s
    | _, _ => s)

/-- ECHO_AVERAGE (R47–R51, R183): 64 frames give a new round trip and target; outside 0–500 ns the target stays, and PHASE
fails. An echo that is left out does not count toward the 64 (log entry 81). -/
def execEchoAverage (p : PortIx) (s : State) : Out :=
  .next (
    let x := s.port p.val
    let phase := decide (s.plState p.val = 4)
    if x.rttN < 64 || (!phase && s.con (TIM_PSTAT_FROZEN p.val)) || (phase && x.phaseFirst.isSome) then s
    else
      let avg := roundHalf 110 x.rttSum x.rttN
      let d := roundHalf 111 avg 2 + toSigned 16 (s.cget (TIM_PASYM_ASYM p.val))
      let jump := x.avgValid && decide (40 * 65536 < (avg - x.rttAvg).natAbs * 1000)
      let s1 := (s.modPort p.val fun y => { y with rttAvg := avg, avgValid := true, rttSum := 0, rttN := 0 }).cset
        (TIM_PRTT_RTT p.val) (ofSigned 32 avg)
      let s2 := s1.when jump fun z => (z.cset (TIM_PSTAT_JUMP p.val) 1).cbump (TIM_PSTAT_JUMP_CNT p.val)
      if d < 0 ∨ 500 * 65536 < d then
        let s3 := s2.cset (TIM_PSTAT_RANGE p.val) 1
        if phase then s3.plFail p.val 4 2 else s3
      else
        (s2.cset (TIM_PDLY_D p.val) d.toNat).modPort p.val fun y =>
          if phase then { y with target := d, applyNext := true, phaseFirst := some avg } else { y with target := d })

/-! ### Port control, pattern tests and error injection -/

/-- A TEST write (R193): from NEGOTIATE, or from RUN on a port that is not obeyed; TEST is entered at the next tick. -/
def State.opTest (s : State) (p : Nat) : State :=
  let st := s.plState p
  if st = 3 ∨ (st = 6 ∧ !(s.con (PL_STAT_OWNER p)) ∧ !(s.con (PL_STAT_OVERLAP p))) then
    s.modPort p fun x => { x with testFrom := some st, testAsk := true }
  else s.cset (PL_STAT_REASON p) 8

/-- TEST begins at the tick (R193): both ends switch both lanes, the front-end if its test is armed. -/
def State.testBegin (s : State) (p : Nat) : State :=
  let q := s.face p
  let s1 := (((s.plEnter p 7).cset (PL_PRBS_ERR_CNT p) 0).cset (PL_PRBS_CTRL_LOCKED p) 0).modPort p fun x => { x with testInj := [] }
  if ((s.fe p).link q).prbsArmed && s.feLive p then
    ((((s1.fset p (PRBS_STAT_RUNNING q) 1).fset p (PRBS_STAT_LOCKED q) 0).fset p (PRBS_ERR_CNT q) 0).fset p (LNK_STAT_STATE q) 7).modLink p q
      fun l => { l with
        prbsArmed := false, prbsLeft := max 1 (s.fget p (PRBS_CTRL_DUR q)), prbsFrom := s.tm.tick, testInj := [], payload := none }
  else s1

/-- Line bits of a direction in a frame: 10 per ns up, 2.5 per ns down (R166). -/
def laneBits (up : Bool) : Nat := if up then 40000 else 10000

/-- The number of line bits since TEST began at tick `from_` (R193). -/
def State.testBit (s : State) (from_ : Nat) (up : Bool) : Nat :=
  (s.tm.tick - from_) * laneBits up + s.nowInst * laneBits up / instPerFrame

/-- The first `count` bits of the pattern that the generator of an end sends in a TEST, with the injected bits inverted, first bit as bit 0
(R193, R194). -/
def testPattern (pat key : Nat) (inj : List Nat) (count : Nat) : Nat :=
  let g := prbsPat pat
  inj.foldl (fun w k => if k < count then Nat.xor w (2 ^ k) else w) (prbsRun g.1 g.2 count (prbsSeed g.1 key)).1

/-- The errors that a checker counts in a TEST of `frames` frames, and whether it locked (R193): those of the line and those the far end
injected. -/
def testCount (up : Bool) (frames : Nat) (inj errs : List Nat) : Bool × Nat :=
  let n := frames * laneBits up
  prbsCheck n 0 (errPlaces n inj errs)

/-- `PL_CTRL.EN` of port `p` (R200): 0 holds DARK with the downlink off. -/
def State.enablePort (s : State) (p : Nat) (on : Bool) : State :=
  let s1 := s.cset (PL_CTRL_EN p) (b2n on)
  if on = s.con (PL_CTRL_EN p) then s1
  else (if on then s1 else s1.plEnter p 0).modPort p fun x => { x with downlinkOn := on }

/-- A write of `PL_CTRL` (R18, R184, R193, R200). -/
def State.opPlCtrl (s : State) (p m v : Nat) : State × Bool :=
  let w := s.writeReg m (PL_CTRL_EN p).reg v
  let s2 := (w.1.cset (PL_CTRL_EN p) (s.cget (PL_CTRL_EN p))).enablePort p (w.1.con (PL_CTRL_EN p))
  let s3 := s2.when (bitAt v 1) fun z => z.modPort p fun x => { x with retry := true, failRun := 0 }
  (s3.when (bitAt v 6) fun z => z.opTest p, w.2)

/-- The request codeword that begins first after now: tick of its frame, and its number (R170, R194). Codeword `m` begins with downlink
character 12 + 180 m. -/
def State.nextRequest (s : State) : Nat × Nat :=
  match (List.range 5).find? fun m => decide (s.nowInst < (12 + 180 * m) * 262144) with
  | some m => (s.tm.tick, m)
  | none => (s.tm.tick + 1, 0)

/-- An injection by `PL_INJ.GO` (R194): bits of the pattern in TEST, or of the next request codeword, where their place is a free value. -/
def State.injectDown (s : State) (p v : Nat) : State :=
  let n := if bitAt v 1 then bits v 2 5 + 1 else 1
  if bitAt v 7 then
    let d := s.draw
    let c := s.nextRequest
    d.2.modPort p fun x => { x with flips := some { tick := c.1, cw := c.2, bit := d.1 % (1341 - n), len := n } }
  else if s.plState p = 7 then
    let b := s.testBit (s.port p).stateTick false
    s.modPort p fun x => { x with testInj := errPlaces (b + n) x.testInj ((List.range n).map (b + ·)) }
  else s

/-- A write of `PL_INJ` (R194). -/
def State.opPlInj (s : State) (p m v : Nat) : State × Bool :=
  let w := s.writeReg m (PL_INJ_GO p).reg v
  (w.1.when (bitAt v 0) fun z => z.injectDown p v, w.2)

/-- RETRY (R184): a write of `PL_CTRL`. -/
def execRetry (p : PortIx) (m : MasterIx) (v : W32) (s : State) : Out :=
  .next (s.guarded m.val .control (PL_CTRL_EN p.val).reg .write fun z => State.answered (z.opPlCtrl p.val m.val v.toNat) m.val)

/-- TEST (R193): a write of `PL_CTRL`. -/
def execTest (p : PortIx) (m : MasterIx) (v : W32) (s : State) : Out :=
  .next (s.guarded m.val .control (PL_CTRL_EN p.val).reg .write fun z => State.answered (z.opPlCtrl p.val m.val v.toNat) m.val)

/-- PL_INJECT (R194): a write of `PL_INJ`. -/
def execPlInject (p : PortIx) (m : MasterIx) (v : W32) (s : State) : Out :=
  .next (s.guarded m.val .control (PL_INJ_GO p.val).reg .write fun z => State.answered (z.opPlInj p.val m.val v.toNat) m.val)

/-- The port's end of a TEST (R182, R193): the uplink checker shows its lock and its errors, and the port goes to ALIGN. -/
def State.testEndPort (s : State) (p : Nat) (inj errs : List Nat) : State :=
  let c := testCount true (max 1 (s.cget (PL_PRBS_CTRL_DUR p))) inj errs
  let s0 := s.when (decide (0 < c.2)) fun z => z.modTwin fun t => { t with prbsTick := some z.tm.tick }
  ((s0.cset (PL_PRBS_ERR_CNT p) c.2).cset (PL_PRBS_CTRL_LOCKED p) (b2n c.1)).plEnter p 2

/-- The front-end's end of a TEST (R193). -/
def State.testEndFe (s : State) (p q : Nat) (inj errs : List Nat) : State :=
  let c := testCount false ((s.fe p).link q).prbsLeft inj errs
  (((((s.fset p (PRBS_STAT_RUNNING q) 0).fset p (PRBS_STAT_DONE q) 1).fset p (PRBS_STAT_LOCKED q) (b2n c.1)).fset p
    (PRBS_ERR_CNT q) c.2).fset p (LNK_STAT_STATE q) 2).modLink p q fun l => { l with prbsLeft := 0 }

/-- TEST_END (R182, R193): at each end whose duration is over the checker shows the errors it counted after its lock; `feErrs` and `portErrs`
are the places of the bits that the two lanes corrupted. -/
def execTestEnd (p : PortIx) (feErrs portErrs : List Nat) (s : State) : Out :=
  .next (
    let q := s.face p.val
    let l := (s.fe p.val).link q
    let x := s.port p.val
    let portOver := decide (s.plState p.val = 7) && decide (max 1 (s.cget (PL_PRBS_CTRL_DUR p.val)) ≤ s.since x.stateTick)
    let feOver := s.fon p.val (PRBS_STAT_RUNNING q) && decide (l.prbsLeft ≤ s.since l.prbsFrom)
    (s.when feOver fun z => z.testEndFe p.val q x.testInj feErrs).when portOver fun z => z.testEndPort p.val l.testInj portErrs)

/-- GOLDEN_CHECK (R191, R391) once in each period of `PLR_CFG.GCHK` × 10 ms: two clean checks in a row that differ start a repair push, but
not on a standby twin. -/
def execGoldenCheck (p : PortIx) (dirty : Bool) (crc : W32) (sIn : State) : Out :=
  .next (if sIn.plState p.val ≠ 6 ∨ sIn.since (sIn.port p.val).goldTick < max 1 (sIn.cget (PLR_CFG_GCHK (p.val / 256))) * 2500 then sIn
    else
      let s := sIn.modPort p.val fun x => { x with goldTick := sIn.tm.tick }
      if dirty then s
      else
        let s1 := s.cbump (PL_GOLD_CHECKS p.val)
        if crc.toNat = s.goldCrc p.val then
          (s1.cset (PL_GOLD_MATCH p.val) 1).modPort p.val fun x => { x with goldMiss := 0 }
        else
          let n := (s.port p.val).goldMiss + 1
          let s2 := (s1.cset (PL_GOLD_MATCH p.val) 0).modPort p.val fun x => { x with goldMiss := if n < 2 then n else 0 }
          if n < 2 || s.twinStandby then s2
          else (((s2.cset (PL_GOLD_MISMATCH p.val) 1).cbump (PL_GOLD_REPAIRS p.val)).goldPush p.val).monNotice 2)

/-! ### Slow control at the port -/

/-- A guarded word of front-end `p` (R426). -/
def State.guardedFeWord (s : State) (p w : Nat) : Bool :=
  let r := s.cget (PRO_GMAP_RTD p)
  decide (r ≠ 0) && (decide (w = 0x70C) || (List.range 4).any fun k =>
    bitAt r k && (decide (w = 0x720 + k) || decide (w = 0x710 + k) || decide (w = 0x760 + k)))

/-- A proxy access becomes one slow-control request (R9, R181). -/
def State.proxyRequest (s : State) (m addr : Nat) (write : Option W32) : State :=
  let p := (addr - 0x1000000) / 0x4000 % 1024
  let w := addr % 0x4000 / 4
  if s.plState p ≠ 6 ∨ (write.isSome ∧ s.guardedFeWord p w) then s.proxyEnd m true 0
  else s.portRequest p w write (some m)

/-- PROXY_ACCESS (R9, R181, R426): an access in the proxy window by master `m`. -/
def execProxyAccess (m : MasterIx) (addr : W32) (write : Option W32) (s : State) : Out :=
  .next (if addr.toNat < 0x1000000 ∨ 0x2000000 ≤ addr.toNat then s
    else s.guarded m.val .control addr.toNat (if write.isSome then .write else .read) fun z =>
      z.proxyRequest m.val addr.toNat write)

/-- A response ends its request (R181): its master is answered, and a good write of a master updates the golden copy; an error is
counted. -/
def State.responseFor (s : State) (p : Nat) (o : OutReq) (r : RespPkt) : State :=
  let err := decide (r.typ = 0xA)
  let s2 := match o.master with
    | some m => s.proxyEnd m err r.data.toNat
    | none => s
  if err then (s2.cbump (PL_SC_ERR_RESP p)).cset (PL_SC_LAST_CODE p) r.code.toNat
  else match o.master, o.data with
    | some _, some d => s2.setGold p o.addr d.toNat
    | none, none => s2.ownRead p o.addr r.data.toNat
    | _, _ => s2

/-- A response packet reaches the port (R181): it completes its request; an empty one is ignored, and a stray one is counted. -/
def State.responsePkt (s : State) (p : Nat) (r : RespPkt) : State :=
  if r.typ = 0 then s
  else match (s.port p).outstanding.find? fun o => decide (o.tid = r.tid.toNat) with
    | none => s.cbump (PL_SC_STRAY p)
    | some o =>
      (s.modPort p fun x => Port.send { x with
        outstanding := x.outstanding.filter fun y => decide (y.tid ≠ r.tid.toNat) } (s.tm.tick + 1) 16).responseFor p o r

/-- A response codeword as it arrives, from its marker K28.6 to its last check byte: code errors, verdict, packet (R167, R168, R173, R178). -/
def respRead (x : CodeRun) : Nat × CwStatus × RespPkt :=
  let xs := lineSyms x.plus x.chars
  let cw := cwRead (xs.drop 1)
  (codeErrors xs, cw.1, respOf cw.2)

/-- RESPONSE_RECEIVED (R167–R169, R173, R178, R181): code errors and verdict are counted; a good codeword's packet completes its
request. -/
def execResponseReceived (p : PortIx) (r : CodeRun) (s : State) : Out :=
  .next (
    let x := respRead r
    let s1 := s.cadd (PL_ERR_CODE p.val) x.1
    match x.2.1 with
    | .uncorrectable => s1.cbump (PL_ERR_RS_UNC p.val)
    | .corrected => (s1.cbump (PL_ERR_RS_CORR p.val)).responsePkt p.val x.2.2
    | .ok => s1.responsePkt p.val x.2.2)

/-- REQUEST_TIMEOUT (R181): no response after 8 frames. -/
def execRequestTimeout (p : PortIx) (tid : Byte) (s : State) : Out :=
  .next (match (s.port p.val).outstanding.find? fun o => decide (o.tid = tid.toNat) with
    | none => s
    | some o =>
      if s.since o.sentTick < 8 then s
      else
        let s1 := (s.modPort p.val fun x => Port.send { x with
          outstanding := x.outstanding.filter fun y => decide (y.tid ≠ tid.toNat) } (s.tm.tick + 1) 16).cbump (PL_SC_TIMEOUT p.val)
        match o.master with
        | some m => s1.proxyEnd m true 0
        | none => s1)

/-- A fast command sent in the next frame on each of some ports (R369, R406). -/
def State.sendFast (s : State) (ps : List Nat) (code : Nat) : State :=
  ps.foldl (fun z p => z.modPort p fun x => { x with fastNext := x.fastNext ++ [code] }) s

/-- The proxy address of word `w` of the front-end on port `p` (R9). -/
def proxyAddr (p w : Nat) : Nat := 0x1000000 + p * 0x4000 + w * 4

/-- A proxy access carried through at once, for a requester that waits for its end (R181, log entry 94): access error, read data, state. It
takes a transaction id like any request; its response and its timeout count at the port. -/
def State.proxyDirect (s0 : State) (addr : Nat) (write : Option Nat) : Bool × Nat × State :=
  let p := (addr - 0x1000000) / 0x4000 % 1024
  let w := addr % 0x4000 / 4
  let q := s0.face p
  if s0.plState p ≠ 6 ∨ (write.isSome ∧ s0.guardedFeWord p w) then (true, 0, s0)
  else
    let r : OutReq := { tid := (s0.port p).nextTid, addr := w, data := write.map (BitVec.ofNat 32), sentTick := s0.tm.tick, master := none }
    let s := s0.modPort p fun x => { x with nextTid := (x.nextTid + 1) % 256 }
    if s.lnk p q ≠ 6 ∨ !(s.feLive p) then (true, 0, s.cbump (PL_SC_TIMEOUT p))
    else
      let a := s.feAnswer p q r.pkt s.nowInst
      if a.1.typ = 0xA then
        (true, 0, ((a.2.fbump p (LNK_SC_ERR_RESP q)).cbump (PL_SC_ERR_RESP p)).cset (PL_SC_LAST_CODE p) a.1.code.toNat)
      else (false, a.1.data.toNat, match write with | some v => a.2.setGold p w v | none => a.2)

/-! ### What the lanes carry -/

/-- The claim byte of the SYNC set of the frame in progress (R384): a module in TAKING or ACTIVE sends its claim after a CLAIM command of the
frame before, and otherwise the claim the last header showed; a module in any other role sends 0. -/
def State.claimByte (s : State) (p : Nat) : Nat :=
  if s.cget TWIN_STAT_ROLE = 3 ∨ s.cget TWIN_STAT_ROLE = 4 then
    if (s.port p).claimed then s.cget TWIN_CFG_CLAIM else s.cget (PL_STAT_FE_CLAIM p)
  else 0

/-- The stream bytes of the SYNC set of the frame in progress (R171, R182, R384): LRST is 1 in DARK, and the claim is 0 below version 2.0. -/
def State.syncNow (s : State) (p : Nat) : List Byte :=
  let c := if s.cget (PL_STAT_VER p) = 2 then s.claimByte p else 0
  syncBytes (s.frame / framesPerSec % 65536) (s.frame % framesPerSec) (s.plState p) (s.port p).loadNext (decide (s.plState p = 0)) c

/-- The SYNC set of the frame that begins is formed; it stands for the whole frame. -/
def State.formSync (s : State) (p : Nat) : State :=
  s.modPort p fun x => { x with lrst := decide (s.plState p = 0), syncTx := s.syncNow p }

/-- The bytes of request codeword `m` of the frame in progress; packets not used are empty (R168, R170, R178). -/
def Port.requestCw (x : Port) (m : Nat) : List Byte :=
  rsEncode ((List.range 16).flatMap fun i => reqBytes (x.reqTx.getD (16 * m + i) { typ := 0, tid := 0, addr := 0, data := 0 }))

/-- The stream character at place `t` of a downlink frame (R170). -/
def Port.streamChar (x : Port) (sync : List Byte) (t : Nat) : Sym :=
  if t < 8 then .data (sync.getD t 0).toNat
  else if 683 ≤ t then k280
  else if (t - 8) % 135 = 0 then k281
  else .data ((x.requestCw ((t - 8) / 135)).getD ((t - 8) % 135 - 1) 0).toNat

/-- Downlink character `j` of the frame in progress (R170, R171, R176); none while the downlink is off or carries a pattern. -/
def State.downChar (s : State) (p j : Nat) : Option Sym :=
  let x := s.port p
  if !x.downlinkOn || decide (s.plState p = 7) then none
  else if j = 0 then some k285
  else if j % 4 = 0 then some (fcSym (x.fastTx.getD (j / 4 - 1) 0))
  else some (x.streamChar (if x.syncTx.isEmpty then s.syncNow p else x.syncTx) (3 * (j / 4) + j % 4 - 1))

/-- The bytes of record codeword `i` of the slot that port `q` sends (R168, R173). -/
def FeLink.recordCw (l : FeLink) (i : Nat) : List Byte :=
  rsEncode ((List.range 16).flatMap fun j => leBytes 8 (tget l.slot (16 * i + j) 2).toNat)

/-- Uplink character `j` of port `q` of front-end `p` (R173, R182): K28.5 D16.2 idles in LOCK, a slot from ALIGN on; none while the uplink is
off or carries a pattern. -/
def State.upChar (s : State) (p q j : Nat) : Option Sym :=
  let l := (s.fe p).link q
  let st := s.lnk p q
  if !l.uplinkOn || decide (st = 0) || decide (st = 7) then none
  else if st = 1 then some (if j % 2 = 0 then k285 else .data 0x50)
  else if j = 0 then some k285
  else if j < 4 then some (.data (l.startSet.getD (j - 1) 0).toNat)
  else if j = 4 then some k283
  else if j < 10 then some (.data (l.echo.getD (j - 5) 0).toNat)
  else if j < 85 then
    (if (j - 10) % 15 = 0 then some k286
     else
      let r := l.respSlot.getD ((j - 10) / 15) { typ := 0, code := 0, tid := 0, addr := 0, data := 0 }
      some (.data ((rsEncode (respBytes r)).getD ((j - 10) % 15 - 1) 0).toNat))
  else if (j - 85) % 135 = 0 then some k285
  else some (.data ((l.recordCw ((j - 85) / 135)).getD ((j - 85) % 135 - 1) 0).toNat)

/-- Bits of a run of groups inverted, counted from its first bit on the line (R194). -/
def flipBits (gs : List (BitVec 10)) (bit len : Nat) : List (BitVec 10) :=
  (List.range len).foldl (fun z i =>
    let k := (bit + i) / 10
    z.set k ((z.getD k 0) ^^^ BitVec.ofNat 10 (2 ^ (9 - (bit + i) % 10)))) gs

/-- The groups of codeword `i` as they leave, with what an injection inverted (R167, R194). -/
def codewordLine (plus : Bool) (bytes : List Byte) (f : Option Flip) (tick i : Nat) : List (BitVec 10) :=
  let gs := symLine plus (dataSyms bytes)
  match f with
  | some x => if x.tick = tick ∧ x.cw = i then flipBits gs x.bit x.len else gs
  | none => gs

end Sys2Proof.Machine
end

