-- ==== Sys2Proof/Machine/Ingest.lean ====
section
/-! DEFINITION. Concentrator ingest up to the region merge (R201–R221, R225–R230): codewords into elastic buffers, the late
limit, absence, raw blocks, sums, Hazel coding and its verification. What the coder emits comes in as an operand and is
decoded here under R219. -/

namespace Sys2Proof.Machine

/-! ### Frames by tick -/

/-- The absolute frame number of tick `k`, at or before the present tick (R457). -/
def State.frameAt (s : State) (k : Nat) : Nat := s.tm.recent.getD (s.tm.tick - k) (s.frame - (s.tm.tick - k))

/-- The part of the elastic buffer of port `p` that frame of tick `k` uses (R203). -/
def State.rx (s : State) (p k : Nat) : RxSlot :=
  let x := if k % 2 = 0 then (s.port p).rx0 else (s.port p).rx1
  if x.tick = k then x else { tick := k }

/-- What port `p` knows of the slot of the frame of tick `k` changed. -/
def State.modRx (s : State) (p k : Nat) (g : RxSlot → RxSlot) : State :=
  let x := g (s.rx p k)
  s.modPort p fun y => if k % 2 = 0 then { y with rx0 := x } else { y with rx1 := x }

/-- The tick of the frame whose records a codeword decoded at instant `t` carries: codeword `i` is decoded no earlier than
412 + 135 i ns after the tick of its slot, and the slot carries the frame before (R175, R228). -/
def State.slotTick (s : State) (i t : Nat) : Nat := if (412 + 135 * i) * 65536 ≤ t then s.tm.tick - 1 else s.tm.tick - 2

/-- Instant `t` lies after the late limit of the frame of tick `k` (R204). -/
def State.pastLimit (s : State) (k t : Nat) : Bool :=
  decide (k + 2 < s.tm.tick) || (decide (k + 2 = s.tm.tick) && decide (320 * 65536 < t))

/-- The type of a record (R153). -/
def recType (w : W64) : Nat := w.toNat % 64

/-- The module stores frame `f`: it is no standby twin, and `f` lies within its stretch of storing (R391, R396, R398). -/
def State.storesFrame (s : State) (f : Nat) : Bool :=
  !(s.twinStandby) && s.twin.storing && decide (s.twin.storeFrom ≤ f) &&
    (match s.twin.fs with | some x => decide (f < x) | none => true)

/-! ### Codewords -/

/-- The header record of a slot: claim, husk and dip (R199, R206, R413). -/
def State.rxHeader (s : State) (p k : Nat) (w : W64) : State :=
  let n := w.toNat
  let f := s.frameAt k
  let t := TimeVal.ofFrame f
  let s1 := (s.cset (PL_STAT_FE_CLAIM p) (bits n 6 8)).modPort p fun x => { x with lastHeader := some w, headerTick := k }
  let s2 := if bits n 48 16 = t.sec % 65536 ∧ bits n 30 18 = t.fis then s1
    else ((s1.cbump (PI_CNT1_HUSK_MIS p)).cset (PI_STAT_HUSK_MIS p) 1).modRx p k fun x => { x with husk := true }
  let x := s2.port p
  if bitAt n 24 then
    s2.modPort p fun y => { y with dipFirst := some (x.dipFirst.getD f), dipFrames := min (x.dipFrames + 1) 0xFFFFFFFF }
  else match x.dipFirst with
    | some f0 =>
      let d5 := pack [(0, 10, p), (32, 32, x.dipFrames)]
      ((s2.modPort p fun y => { y with dipFirst := none, dipFrames := 0 }).cbump PRO_SUP_FEDIPS).logBit PRO_SUP_FEDIPS 0xFF d5
        (f0 % 2 ^ 59)
    | none => s2

/-- The trailer record of a slot: its drop counts are added up (R208). -/
def State.rxTrailer (s : State) (p : Nat) (w : W64) : State :=
  s.cwrap (PI_FEDROP_CNT p) ((List.range 4).map fun r => bits w.toNat (45 - 10 * r) 10).sum

/-- A record that a good codeword carries at position `k0` (R202). -/
def State.rxRecord (s : State) (p k pos : Nat) (w : W64) : State :=
  if recType w = 2 then s
  else
    let s1 := s.modRx p k fun x => { x with recs := tset x.recs pos 2 w }
    if recType w = 0x3C ∧ pos = 0 then s1.rxHeader p k w
    else if recType w = 0x3D ∧ pos = 463 then s1.rxTrailer p w else s1

/-- Records stored one after another from position `pos` on. -/
def State.rxRecords (s : State) (p k pos : Nat) : List W64 → State
  | [] => s
  | w :: r => (s.rxRecord p k pos w).rxRecords p k (pos + 1) r

/-- The port checks PRBS-31 payload: its slots show owner 0 and its front-end sends the pattern (R198). -/
def State.checksPayload (s : State) (p : Nat) : Bool :=
  decide (s.plState p = 6) && !(s.con (PL_STAT_OWNER p)) && s.fon p (LNK_CTRL_CHECK (s.face p))

/-- Errors counted by the payload checker (R193, R198). -/
def State.payloadErrs (s : State) (p n : Nat) : State :=
  if n = 0 then s else (s.cadd (PL_PRBS_ERR_CNT p) n).modTwin fun t => { t with prbsTick := some s.tm.tick }

/-- A payload word at the checker: it follows the bits of the words before it, locks on 64 that match, and from then on counts those that
do not (R193, R198). -/
def State.payloadWord (s : State) (p : Nat) (w : W64) : State :=
  let x := s.port p
  match x.plGen with
  | none => s.modPort p fun y => { y with plGen := some (prbsTail w.toNat), plLock := false }
  | some g =>
    let r := prbsRun 31 28 64 g
    let e := ones 64 (Nat.xor r.1 w.toNat)
    if x.plLock then (s.modPort p fun y => { y with plGen := some r.2 }).payloadErrs p e
    else s.modPort p fun y => { y with plGen := some (if e = 0 then r.2 else prbsTail w.toNat), plLock := decide (e = 0) }

/-- The payload of codeword `i`: positions 1 to 462 (R198). In an uncorrectable codeword the checker goes on over the words that are not there,
and how many of their bits were wrong is a free value (log entry 4). -/
def State.payloadCw (s : State) (p i : Nat) (ws : Option (List W64)) : State :=
  if !(s.checksPayload p) then s.modPort p fun x => { x with plGen := none, plLock := false }
  else
    let here := (List.range 16).filter fun j => decide (1 ≤ 16 * i + j ∧ 16 * i + j ≤ 462)
    match ws with
    | some l => here.foldl (fun z j => z.payloadWord p (l.getD j 2)) s
    | none =>
      let d := s.draw
      let s1 := d.2.modPort p fun x => { x with plGen := x.plGen.map fun g => (prbsRun 31 28 (64 * here.length) g).2 }
      if (s.port p).plLock then s1.payloadErrs p (d.1 % (64 * here.length + 1)) else s1

/-- A record codeword as it arrives after its marker (R167, R168, R173): code errors, verdict and its 16 records. -/
def recRead (marker : BitVec 10) (plus : Bool) (chars : List (BitVec 10)) : Nat × CwStatus × List W64 :=
  let xs := lineSyms plus (marker :: chars)
  let cw := cwRead (xs.drop 1)
  (codeErrors xs, cw.1, if cw.1 = .uncorrectable then [] else (packetsOf 16 cw.2).map fun b => BitVec.ofNat 64 (ofBytes b))

/-- RECORD_CODEWORD (R167–R169, R173, R198, R202, R204, R206, R208): codeword `i` of a slot is decoded at instant `t`; one decoded after the
late limit is lost, and its records are counted. -/
def execRecordCodeword (p : PortIx) (i : Fin 29) (marker : BitVec 10) (plus : Bool) (t : Inst) (chars : List (BitVec 10)) (s : State) :
    Out :=
  .next (
    let cw := recRead marker plus chars
    let s0 := (s.toInst t).cadd (PL_ERR_CODE p.val) cw.1
    if s.plState p.val < 2 ∨ 6 < s.plState p.val then s0
    else
      let k := s.slotTick i.val t
      let bad := decide (cw.2.1 = .uncorrectable)
      let s1 := match cw.2.1 with
        | .ok => s0
        | .corrected => s0.cbump (PL_ERR_RS_CORR p.val)
        | .uncorrectable => s0.cbump (PL_ERR_RS_UNC p.val)
      let first := (s1.rx p.val k).seen.isEmpty && (s1.rx p.val k).lost.isEmpty
      let s2 := (s1.when first fun z => z.modRx p.val k fun x => { x with owner := s.con (PL_STAT_OWNER p.val) }).payloadCw p.val i.val
        (if bad then none else some cw.2.2)
      if s.pastLimit k t then
        let n := (cw.2.2.filter fun w => decide (recType w ≠ 2)).length
        if n = 0 then s2
        else ((s2.cadd (PI_CNT1_LATE p.val) n).cset (PI_STAT_LATE p.val) 1).modRx p.val k fun x =>
          { x with lateRec := true, lateBlock := x.lateBlock || !x.formed }
      else if bad then s2.modRx p.val k fun x => { x with lost := x.lost ++ [i.val] }
      else (s2.modRx p.val k fun x => { x with seen := x.seen ++ [i.val] }).rxRecords p.val k (16 * i.val) cw.2.2)

/-! ### Release, late limit and absence -/

/-- The region of port `p` gives no data while it is reset (R229). -/
def State.regionOff (s : State) (p : Nat) : Bool := (s.rgn (p / 256)).resetting

/-- An absence of port `p` in the frame of tick `k` (R205, R226): it continues a record or starts one. -/
def State.absence (s : State) (p k : Nat) : State :=
  let s1 := (s.cbump (PI_CNT0_ABSENT p)).cset (PI_STAT_ABSENT p) 1
  let f := s.frameAt k
  if !(s.con (PI_CTRL_CREV_EN p)) || !(s.storesFrame f) then s1
  else s1.modPort p fun x =>
    let l := match x.absent with
      | (f0, n, tk) :: r =>
        if tk + 1 = k ∧ f0 + n = f ∧ sliceOf f0 = sliceOf f ∧ n < 4194303 then (f0, n + 1, k) :: r else (f, 1, k) :: (f0, n, tk) :: r
      | [] => [(f, 1, k)]
    { x with absent := l }

/-- The slot of port `p` counts as not obeyed (R205, R391). -/
def State.notOwner (s : State) (p k : Nat) : Bool := !(s.rx p k).owner || s.twinStandby

/-- The raw block of a slot: stored records in position order less those lost on read (R211). -/
def RxSlot.raw (x : RxSlot) : List W64 :=
  if x.abandoned then [] else (x.recs.filter fun e => !(x.eccLost.contains e.1)).map (·.2)

/-- What the late limit of the frame of tick `k` settles for port `p` (R204, R205, R211, R420): a slot of which nothing arrived is absent; one that
shows owner 0 gives neither block nor record; every codeword not decoded by now is lost; and a slot without a decoded codeword leaves the port
absent (log entry 95). -/
def State.portLimit (s0 : State) (p k : Nat) : State :=
  let x := s0.rx p k
  let s := s0.when (!x.seen.isEmpty && decide (s0.plState p = 6)) fun z => z.modPort p fun y => { y with okTick := z.tm.tick }
  let away (z : State) : State := (if z.con (PI_CTRL_STORE p) then z.absence p k else z).cset (PI_STAT_PRESENT p) 0
  if !(s.con (PL_CTRL_EN p)) || s.regionOff p then s.cset (PI_STAT_PRESENT p) 0
  else if x.seen.isEmpty && x.lost.isEmpty then away s
  else
    let n := 29 - x.seen.length
    let s1 := if n = 0 then s else (s.cadd (PI_CNT0_LOST_CW p) n).cset (PI_STAT_LOSTCW p) 1
    if s.notOwner p k then (s1.cbump (PI_CNT2_NONOWNER p)).cset (PI_STAT_PRESENT p) 0
    else if x.seen.isEmpty then away s1
    else
      let s2 := if s.con (PI_CTRL_STORE p) && s.storesFrame (s.frameAt k) && !x.abandoned then s1 else s1.cset (PI_STAT_PRESENT p) 0
      (x.raw.filter fun w => decide (recType w = 3)).foldl (fun z w => z.sendMon (Config.monRecordWords p w)) s2

/-- LATE_LIMIT (R204, R205, R226): of the frame two ticks back. -/
def execLateLimit (s : State) : Out :=
  .next (
    let k := s.tm.tick - 2
    if s.tm.tick < 2 ∨ s.ing.limit = some k then s
    else
      let s1 := (List.range 1024).foldl (fun z p => z.portLimit p k) (s.toInst (320 * 65536))
      { s1 with ing := { s1.ing with limit := some k } })

/-- An entry of port `p` at position `pos` is read with an error (R203). -/
def State.entryRead (s : State) (p k pos : Nat) (e : EccStatus) : State :=
  match e with
  | .ok => s
  | .single => s.cbump (PI_CNT1_ECC_CORR p)
  | .double => ((s.cbump (PI_CNT1_ECC_UNC p)).cset (PI_STAT_ECC_UNC p) 1).modRx p k fun x => { x with eccLost := x.eccLost ++ [pos] }

/-- ALIGNED_RELEASE (R203, R207, R209): of the frame two ticks back; `reads` lists the entries whose read finds an error. -/
def execAlignedRelease (reads : List (PortIx × Fin 464 × EccStatus)) (s : State) : Out :=
  .next (
    let k := s.tm.tick - 2
    if s.tm.tick < 2 ∨ s.ing.released = some k then s
    else
      let s0 := s.toInst (80 * 65536)
      let s1 := { s0 with ing := { s0.ing with released := some k } }
      reads.foldl (fun z e => z.entryRead e.1.val k e.2.1.val e.2.2) s1)

/-- The stream of port `p` of the frame of tick `k` is abandoned (R229): its slot, its block in the coder, and its unit where the region merge
has not handed it on. -/
def State.abandon (s : State) (p k : Nat) : State :=
  let keep (u : Unit_) : Bool := !(decide (u.port = p) && decide (u.tick = k))
  (((s.modRx p k fun x => { x with abandoned := true }).modPort p fun x => { x with
    block := x.block.filter fun b => decide (b.tick ≠ k) }).modRgn (p / 256) fun r => { r with
      fair := r.fair.filter keep, spill := r.spill.filter keep }).cset (PI_STAT_PRESENT p) 0

/-- MERGE_UPSET (R225, R229): the streams of the 16 ports of a port block are abandoned. -/
def execMergeUpset (r : RgnIx) (b : PbIx) (s : State) : Out :=
  .next (
    let k := s.tm.tick - 2
    let i := 16 * r.val + b.val
    let s1 := (List.range 16).foldl (fun z j => z.abandon (16 * i + j) k)
      ((s.cbump (PB_STAT_UPSET i)).cset (PB_STAT_UPSET_SEEN i) 1)
    let f := s.frameAt k
    let s2 := s1.when (s.storesFrame f) fun z => z.modRgn r.val fun x => { x with
      crevs := x.crevs ++ [{ at_ := k, reason := 6, scope := 1, port := 16 * i, frame := f, frames := 1, lost := 0xFFFFFFFF }] }
    s2.monNotice 3)

/-! ### Raw blocks and sums -/

/-- Port `p` is in the sums: enabled, counted, and its region gives data (R212). -/
def State.inSums (s : State) (p : Nat) : Bool := s.con (PL_CTRL_EN p) && s.con (PI_CTRL_MULT_EN p)

/-- What port `p` adds to the sums of the frame of tick `k` (R212). -/
def State.portSum (s : State) (p k : Nat) : Nat :=
  let x := s.rx p k
  if !(s.inSums p) || s.notOwner p k || s.regionOff p || x.seen.isEmpty then 0
  else
    let hits := (x.raw.filter fun w => decide (recType w = 0)).length
    if s.con (RG_CTRL_ADD_DROP (p / 256)) then
      hits + ((x.raw.filter fun w => decide (recType w = 0x3D)).map fun w =>
        ((List.range 4).map fun r => bits w.toNat (45 - 10 * r) 10).sum).sum
    else hits

/-- Port `p` makes the sums of the frame of tick `k` incomplete (R213, R229). -/
def State.portInc (s : State) (p k : Nat) : Bool :=
  let x := s.rx p k
  s.inSums p && (x.seen.isEmpty || decide (x.seen.length < 29) || !x.eccLost.isEmpty || x.lateRec || x.abandoned || s.regionOff p)

/-- A sum over a list of sums; incomplete if any is. -/
def addSums (l : List (Nat × Bool)) : Nat × Bool := ((l.map (·.1)).sum, l.any (·.2))

/-- SUMS_PRESENTED (R212–R214): block, region and module sums of the frame two ticks back; `linkBad` lists the region sums that
reach the hub with a bad CRC. -/
def execSumsPresented (linkBad : List RgnIx) (s : State) : Out :=
  .next (if s.tm.tick < 2 then s
    else
      let k := s.tm.tick - 2
      let blocks := (List.range 64).map fun i => addSums ((List.range 16).map fun j => (s.portSum (16 * i + j) k, s.portInc (16 * i + j) k))
      let formed := (List.range 4).map fun r => addSums ((blocks.drop (16 * r)).take 16)
      let bad (r : Nat) : Bool := linkBad.any fun x => decide (x.val = r)
      let rgns := (List.range 4).map fun r => if bad r then (0, true) else formed.getD r (0, false)
      let m := addSums rgns
      let s0 := s.toInst (3440 * 65536)
      let s1 := (List.range 64).foldl (fun z i => (z.cset (PB_MULT_SUM i) (blocks.getD i (0, false)).1).cset (PB_MULT_INC i)
        (b2n (blocks.getD i (0, false)).2)) s0
      let s2 := (List.range 4).foldl (fun z r =>
        ((z.cset (RG_MULT_SUM r) (formed.getD r (0, false)).1).cset (RG_MULT_INC r) (b2n (formed.getD r (0, false)).2)).when (bad r)
          fun y => (y.cbump IG_STAT_LINKERR).cset IG_STAT_LINK_SEEN 1) s1
      ((s2.cset IG_MULT_SUM m.1).cset IG_MULT_INC (b2n m.2)).modTrg fun t => { t with
        sums := { tick := k, frame := s.frameAt k, module_ := m, regions := rgns, blocks := blocks } })

/-! ### Hazel -/

/-- The delta transform of a hit record against the previous hit's channel and coarse time (R217). -/
def deltaRecs : Nat → Nat → List W64 → List W64
  | _, _, [] => []
  | pc, pt, w :: r =>
    if recType w = 0 then
      let c := bits w.toNat 55 9
      let t := bits w.toNat 43 12
      packW [(55, 9, c + 512 - pc), (43, 12, t + 4096 - pt), (0, 43, w.toNat)] :: deltaRecs c t r
    else w :: deltaRecs pc pt r

/-- The transform of R217 undone. -/
def undeltaRecs : Nat → Nat → List W64 → List W64
  | _, _, [] => []
  | pc, pt, w :: r =>
    if recType w = 0 then
      let c := (bits w.toNat 55 9 + pc) % 512
      let t := (bits w.toNat 43 12 + pt) % 4096
      packW [(55, 9, c), (43, 12, t), (0, 43, w.toNat)] :: undeltaRecs c t r
    else w :: undeltaRecs pc pt r

/-- `n` bytes copied from `d` back, onto an output kept newest first (R219). -/
def hzCopy : Nat → Nat → List Byte → List Byte
  | 0, _, out => out
  | n + 1, d, out => hzCopy n d (out.getD (d - 1) 0 :: out)

/-- Why a payload does not decode (R219). -/
inductive HzFail where
  | illegal | distance | overrun
  deriving DecidableEq, Repr

/-- The decompressor of R219 on what is left of a payload; the output is kept newest first, and `fuel` bounds the code words. -/
def hzDecode (limit : Nat) : Nat → List Byte → List Byte → Except HzFail (List Byte)
  | 0, _, _ => .error .illegal
  | _ + 1, [], _ => .error .illegal
  | fuel + 1, b :: rest, out =>
    let v := b.toNat
    let b1 := (rest.getD 0 0).toNat
    let b2 := (rest.getD 1 0).toNat
    if v = 0xE0 then (if out.length = limit ∧ rest = [] then .ok out else .error .illegal)
    else if 0xE0 < v then .error .illegal
    else
      let n := if v < 0x80 then v + 1 else if v < 0xC0 then v / 16 % 4 + 3 else b2 / 16 * 32 + v % 32 + 3
      let d := if v < 0xC0 then v % 16 * 256 + b1 + 1 else b2 % 16 * 256 + b1 + 1
      let w := if v < 0x80 then n else if v < 0xC0 then 1 else 2
      if rest.length < w then .error .overrun
      else if 0x80 ≤ v ∧ out.length < d then .error .distance
      else if limit < out.length + n then .error .overrun
      else hzDecode limit fuel (rest.drop w) (if v < 0x80 then (rest.take n).reverse ++ out else hzCopy n d out)

/-- What the on-chip decompressor makes of a payload for `n` records (R217, R219). -/
def hzRecords (n : Nat) (payload : List Byte) : Except HzFail (List W64) :=
  match hzDecode (8 * n) payload.length payload [] with
  | .ok out => .ok (undeltaRecs 0 0 (bytesWords out.reverse))
  | .error e => .error e

/-- The code words of a payload as byte strings (R218, R222). -/
def hzWords : Nat → List Byte → List (List Byte)
  | 0, _ => []
  | _ + 1, [] => []
  | fuel + 1, b :: rest =>
    let v := b.toNat
    let w := if v < 0x80 then v + 1 else if v < 0xC0 then 1 else if v < 0xE0 then 2 else 0
    (b :: rest.take w) :: hzWords fuel (rest.drop w)

/-- A 16-byte unit header (R216). -/
def unitHeader (mark cid port frame flags rawN len crc : Nat) : List Byte :=
  wordsBytes [packW [(0, 8, mark), (8, 8, cid), (16, 10, port), (26, 38, frame)],
    packW [(0, 9, rawN), (9, 12, len), (21, 11, flags), (32, 32, crc)]]

/-- The flags of header word 1 from bit 21 on: LOSTCW, TIME_SUSPECT, HUSK_MISMATCH, LATE, NO_HEADER, NO_TRAILER, ECC (R216). -/
def State.unitFlags (s : State) (p k : Nat) : Nat :=
  let x := s.rx p k
  let has (pos : Nat) : Bool := x.recs.any fun e => decide (e.1 = pos) && !(x.eccLost.contains pos)
  pack [(0, 5, 29 - x.seen.length), (5, 1, b2n (s.port p).suspectTick), (6, 1, b2n x.husk), (7, 1, b2n x.lateBlock),
    (8, 1, b2n (!(has 0))), (9, 1, b2n (!(has 463))), (10, 1, b2n (!x.eccLost.isEmpty))]

/-- A raw unit (R216, R221). -/
def State.rawUnit (s : State) (p k frame flags : Nat) (raw : List W64) : Unit_ :=
  { tick := k, frame := frame, port := p, rawN := raw.length,
    items := unitHeader 0xB2 s.cid p frame flags raw.length (8 * raw.length) (crc32c (wordsBytes raw)) :: raw.map fun w => leBytes 8 w.toNat }

/-- A coded unit (R216, R218). -/
def State.codedUnit (s : State) (p k frame flags : Nat) (raw : List W64) (payload : List Byte) : Unit_ :=
  { tick := k, frame := frame, port := p, rawN := raw.length,
    items := unitHeader 0xB1 s.cid p frame flags raw.length payload.length (crc32c (wordsBytes raw)) :: hzWords payload.length payload }

/-- Bytes of a unit. -/
def Unit_.size (u : Unit_) : Nat := (u.items.map List.length).sum

/-- A unit passed to the region merge (R223, R230). -/
def State.toMerge (s : State) (u : Unit_) : State :=
  (s.modRgn (u.port / 256) fun r => { r with fair := r.fair ++ [u] }).cwrap (PB_OUT_CNT (u.port / 16)) u.size

/-- The group of port `p` in its block's stream of the frame of tick `k` has ended: with its last codeword, or at the late limit (R209). -/
def State.groupEnded (s : State) (p k : Nat) : Bool :=
  let x := s.rx p k
  decide (s.ing.limit = some k) || decide (x.seen.length + x.lost.length = 29) || !(s.con (PL_CTRL_EN p)) || s.regionOff p

/-- Port `p` forms a block of the frame of tick `k` that has not left its coder yet (R205). -/
def State.blockDue (s : State) (p k : Nat) : Bool :=
  let x := s.rx p k
  s.con (PL_CTRL_EN p) && s.con (PI_CTRL_STORE p) && !x.seen.isEmpty && !(s.notOwner p k) && !x.abandoned && !x.formed &&
    !(s.regionOff p) && s.storesFrame (s.frameAt k)

/-- The port's block of the frame of tick `k` leaves its coder now (R201, R205, R209): after the release, when its group has ended, and after
the groups and blocks of the earlier ports of its port block. -/
def State.blockReady (s : State) (p k : Nat) : Bool :=
  s.blockDue p k && decide (s.ing.released = some k) && s.groupEnded p k &&
    (List.range (p % 16)).all fun j => s.groupEnded (p / 16 * 16 + j) k && !(s.blockDue (p / 16 * 16 + j) k)

/-- HAZEL_CODE (R205, R215–R217, R221): the block of a port leaves its coder with a coded length; expansion, or coding switched
off, leaves it raw. -/
def execHazelCode (p : PortIx) (codedLen : Nat) (s : State) : Out :=
  .next (
    let k := s.tm.tick - 2
    if s.tm.tick < 2 || !(s.blockReady p.val k) then s
    else
      let raw := (s.rx p.val k).raw
      let flags := s.unitFlags p.val k
      let f := s.frameAt k
      let s1 := ((((s.modRx p.val k fun x => { x with formed := true }).cset (PI_STAT_PRESENT p.val) 1).cset (PI_STAT_LAST_N p.val)
        raw.length).cwrap (PI_REC_CNT p.val) raw.length).cwrap (PB_IN_CNT (p.val / 16)) (8 * raw.length)
      if !(s.con (RG_CTRL_HZ_EN (p.val / 256))) then s1.toMerge (s.rawUnit p.val k f flags raw)
      else if 8 * raw.length ≤ codedLen then (s1.cbump (PB_STAT_EXPAND (p.val / 16))).toMerge (s.rawUnit p.val k f flags raw)
      else s1.modPort p.val fun x => { x with block := some { tick := k, frame := f, raw := raw, codedLen := codedLen, flags := flags } })

/-- A failed verification (R220): the raw block is stored, and the region sends at most one MON notice per second. -/
def State.verifyFailed (s : State) (p : Nat) (cnt : Fld) (u : Unit_) : State :=
  let r := p / 256
  let due := match (s.rgn r).hazelNote with | some t => decide (t + 250000 ≤ s.tm.tick) | none => true
  let s1 := ((s.cbump cnt).cset (PB_STAT_VFAIL_SEEN (p / 16)) 1).toMerge u
  if due then (s1.modRgn r fun x => { x with hazelNote := some s.tm.tick }).monNotice 4 else s1

/-- HAZEL_VERIFY (R219, R220): the decompressor has read the coder's payload. -/
def execHazelVerify (p : PortIx) (payload : List Byte) (s : State) : Out :=
  .next (match (s.port p.val).block with
    | none => s
    | some b =>
      if payload.length ≠ b.codedLen then s
      else
        let s1 := s.modPort p.val fun x => { x with block := none }
        let raw := s.rawUnit p.val b.tick b.frame b.flags b.raw
        let i := p.val / 16
        match hzRecords b.raw.length payload with
        | .ok recs =>
          if recs = b.raw then s1.toMerge (s.codedUnit p.val b.tick b.frame b.flags b.raw payload)
          else s1.verifyFailed p.val (PB_HZERR_MISMATCH i) raw
        | .error .illegal => s1.verifyFailed p.val (PB_HZERR_ILLEGAL i) raw
        | .error .distance => s1.verifyFailed p.val (PB_HZERR_DISTANCE i) raw
        | .error .overrun => s1.verifyFailed p.val (PB_HZERR_OVERRUN i) raw)

end Sys2Proof.Machine
end

