-- ==== Sys2Proof/Machine/Scan.lean ====
section
/-! DEFINITION. What the CAL and HIST services do while a command runs: the steps and pulses of a scan, what it gathers from the stored
units, and the results formed from that (R103, R104, R335–R337). -/

namespace Sys2Proof.Machine

/-- The SP cannot serve: halted, frozen, in reset or without firmware (R329). -/
def State.spDown (s : State) : Bool := s.sp.stopped || s.frozen 0 || !(s.con SP_STAT_RUN)

/-! ### Register writes of a scan -/

/-- A word with a field replaced. -/
def putBits (w lo n v : Nat) : Nat := w - bits w lo n * 2 ^ lo + v % 2 ^ n * 2 ^ lo

/-- The front-end words that a scan sets on port `p` for a step: thresholds, the pulse's phase, or its charge (R335). -/
def State.stepWords (s : State) (x : Scan) (p : Nat) : List (Nat × Nat × Nat) :=
  if x.cmd = 2 then (List.range 32).map fun b => (p, 0x500 + 8 * b, putBits (s.fpeek p (0x500 + 8 * b)) 0 10 x.value)
  else if x.cmd = 3 then [(p, 0x801, pack [(0, 12, x.start / 512), (12, 9, x.value)])]
  else [(p, 0x800, putBits (putBits (s.fpeek p 0x800) 0 10 x.value) 10 1 1)]

/-- The front-end words that a scan sets on port `p` for a pass: pulses on, and into the channels of the pass (R104, R335). -/
def State.passWords (s : State) (x : Scan) (p : Nat) : List (Nat × Nat × Nat) :=
  (p, 0x800, putBits (s.fpeek p 0x800) 10 1 1) ::
    (List.range 512).map fun c => (p, 0x100 + 2 * c, putBits (s.fpeek p (0x100 + 2 * c)) 23 1 (b2n (c % 2 = x.odd)))

/-- The ports of a scan. -/
def Scan.ports (x : Scan) : List Nat := (List.range (x.last + 1 - x.first)).map fun i => x.first + i

/-- The words that a scan sets for the step it is at, those of its pass with the first. -/
def State.scanWords (s : State) (x : Scan) : List (Nat × Nat × Nat) :=
  x.ports.flatMap fun p => (if x.value = x.start then s.passWords x p else []) ++ s.stepWords x p

/-- Proxy writes made one after the other by the firmware, up to the first that fails: the port where it failed. -/
def State.spProxies (s : State) : List (Nat × Nat × Nat) → Option Nat × State
  | [] => (none, s)
  | (p, w, v) :: r =>
    let s1 := s.guarded 0 .control (proxyAddr p w) .write id
    if s1.frozen 0 then (some p, s1)
    else
      let x := s1.proxyDirect (proxyAddr p w) (some v)
      if x.1 then (some p, x.2.2) else x.2.2.spProxies r

/-- The registers a scan changed, restored (R335). -/
def State.calRestore (s : State) (saved : List (Nat × Nat × Nat)) : State := (s.spProxies saved).2

/-! ### Steps and pulses -/

/-- The step after the present one: the next value, or the first of the odd channels' pass; none after the last (R104, R335). -/
def Scan.next (x : Scan) : Option Scan :=
  if x.value + x.step ≤ x.stop then some { x with value := x.value + x.step, sent := 0 }
  else if x.sel = 0 ∧ x.odd = 0 then some { x with odd := 1, value := x.start, sent := 0 }
  else none

/-- The scan in progress changed. -/
def State.setScan (s : State) (x : Scan) : State := s.modSp fun y => { y with scan := some x }

/-- The words of a scan's step written; a write that fails ends it. -/
def State.scanWrite (s : State) (x : Scan) : State :=
  let r := s.spProxies (s.scanWords x)
  r.2.setScan (match r.1 with | some p => { x with failed := some p, ended := true, endTick := s.tm.tick } | none => x)

/-- A scan at the tick (R100, R103, R104, R335): one PULSE in each frame, `m` of them at a step. The words of the next step are written in the
frame of a step's last pulse, for the pulse registers are latched at the tick; thresholds and channels, which act at the injection, are
written when the last injection's frame is over (log entry 57). -/
def State.scanTick (s : State) : State :=
  match s.sp.scan with
  | none => s
  | some x =>
    if s.spDown || x.ended then s
    else if 1 < x.gap then s.setScan { x with gap := x.gap - 1 }
    else if x.gap = 1 then s.scanWrite { x with gap := 0 }
    else
      let s1 := s.sendFast x.ports 3
      let y := { x with sent := x.sent + 1, recent := ((s.frame + 1, x.odd, x.value) :: x.recent).take 16 }
      if y.sent < x.m then s1.setScan y
      else match y.next with
        | none => s1.setScan { y with ended := true, endTick := s.tm.tick }
        | some z => if x.cmd = 2 ∨ z.odd ≠ x.odd then s1.setScan { z with gap := 2 } else s1.scanWrite z

/-! ### Hits gathered from stored units -/

/-- The records of a unit (R216, R219). -/
def Unit_.records (u : Unit_) : List W64 :=
  match u.items with
  | [] => []
  | h :: r =>
    if bodyNat h 0 1 = 0xB2 then bytesWords r.flatten
    else match hzRecords u.rawN r.flatten with
      | .ok ws => ws
      | .error _ => []

/-- The measured value of a hit (R103, R154, R335): for PHASE the time of arrival less the programmed phase in fine bins, for AMPL the
amplitude if it is valid, for THRESH nothing but the hit. -/
def Scan.measure (x : Scan) (value w : Nat) : Option Int :=
  if x.cmd = 3 then some ((bits w 34 21 : Int) - ((x.start / 512 * 512 + value : Nat) : Int))
  else if x.cmd = 4 then (if bitAt w 8 then none else some (bits w 12 10 : Int))
  else some 0

/-- A hit of a step taken in. -/
def Scan.addHit (x : Scan) (port value w : Nat) : Scan :=
  match x.measure value w with
  | none => x
  | some d =>
    let i := if x.cmd = 3 then bits w 7 1 else 0
    let key := (512 * port + bits w 55 9) * 2 + i
    let a := tget x.series key {}
    let b := tget a.steps value {}
    { x with series := tset x.series key {} {
      steps := tset a.steps value {} { n := b.n + 1, sum := b.sum + d, sq := b.sq + (d * d).toNat }
      bins := if x.cmd = 3 then tset a.bins (bits w 34 9) 0 (tget a.bins (bits w 34 9) 0 + 1) else a.bins } }

/-- The hits of a stored unit taken into a scan: those of its ports, in a frame into which a pulse was sent, in the channels of its pass. -/
def Scan.take (x : Scan) (u : Unit_) : Scan :=
  if u.port < x.first ∨ x.last < u.port then x
  else match x.recent.find? fun e => decide (e.1 = u.frame) with
    | none => x
    | some (_, odd, v) =>
      (u.records.filter fun w => decide (recType w = 0) && decide (bits w.toNat 55 1 = odd)).foldl (fun z w => z.addHit u.port v w.toNat) x

/-- The hits of a stored unit taken into a HIST run (R336). -/
def HistRun.take (h : HistRun) (u : Unit_) : HistRun :=
  if u.port < h.first ∨ h.first + 3 < u.port ∨ u.frame < h.from_ ∨ h.from_ + h.frames ≤ u.frame then h
  else (u.records.filter fun w => decide (recType w = 0)).foldl (fun z w =>
    let key := 512 * u.port + bits w.toNat 55 9
    let c := tget z.chans key {}
    let b := bits w.toNat 22 12 / 64
    { z with chans := tset z.chans key {} { hits := min 0xFFFFFFFF (c.hits + 1), bins := tset c.bins b 0 (min 65535 (tget c.bins b 0 + 1)) } }) h

/-- A unit that has been stored reaches the services that read it (R335, R336). -/
def State.serviceUnit (s : State) (u : Unit_) : State :=
  if s.sp.scan.isNone ∧ s.sp.hist.isNone then s
  else s.modSp fun x => { x with scan := x.scan.map fun y => y.take u, hist := x.hist.map fun y => y.take u }

/-! ### Results -/

/-- Mean of a step in 1/256, to the nearest (log entry 57). -/
def StepAcc.mean (a : StepAcc) : Int := (512 * a.sum + a.n) / (2 * a.n)

/-- n² times the variance of a step. -/
def StepAcc.spread (a : StepAcc) : Nat := a.n * a.sq - a.sum.natAbs * a.sum.natAbs

/-- Rms about the mean in 1/256. -/
def StepAcc.rms (a : StepAcc) : Nat := Nat.sqrt (65536 * a.spread / (a.n * a.n))

/-- The step values of a scan. -/
def Scan.values (x : Scan) : List Nat := (List.range ((x.stop - x.start) / x.step + 1)).map fun i => x.start + i * x.step

/-- An entry of kind 1 (R337). -/
def calEntry (gid value : Nat) (mean : Int) (rms : Nat) : List W64 :=
  [packW [(0, 27, gid), (27, 16, value)], packW [(0, 32, ofSigned 32 mean), (32, 32, rms)]]

/-- The entries of kind 1 of a scan: for each channel and interpolator that had hits, A before B, one for each step with hits. -/
def State.calSteps (s : State) (x : Scan) : List W64 :=
  x.series.flatMap fun e => e.2.steps.flatMap fun a =>
    calEntry (globalChannel s.cid (e.1 / 1024) (e.1 / 2 % 512)) a.1 a.2.mean a.2.rms

/-- The rms of a step is within 3.5 ps, with a fine bin of 125/64 ps (R102, R103); a step without a hit is not. -/
def StepAcc.precise (a : StepAcc) : Bool := decide (0 < a.n) && decide (a.spread * 15625 ≤ 50176 * (a.n * a.n))

/-- The steps of a series that fail the precision limit. -/
def Scan.failedSteps (x : Scan) (e : ScanSeries) : Nat := (x.values.filter fun v => !((tget e.steps v {}).precise)).length

/-- With a constant removed, the means lie within the INL limit and the test pulse's own, 1.5 bins (R101–R103). -/
def ScanSeries.linear (e : ScanSeries) : Bool :=
  match e.steps.map fun a => a.2.mean with
  | [] => false
  | m :: r => decide (r.foldl max m - r.foldl min m ≤ 768)

/-- The shares of hits per fine bin give a DNL within 0.3 bin (R102, R103). -/
def ScanSeries.even (e : ScanSeries) : Bool :=
  let n := (e.bins.map (·.2)).sum
  (List.range 512).all fun b => decide (10 * (((512 * tget e.bins b 0 : Nat) : Int) - (n : Int)).natAbs ≤ 3 * n)

/-- Mean of all hits of a series in 1/256. -/
def ScanSeries.mean (e : ScanSeries) : Int :=
  StepAcc.mean { n := (e.steps.map fun a => a.2.n).sum, sum := (e.steps.map fun a => a.2.sum).foldl (· + ·) 0 }

/-- A channel passes a PHASE scan: the five conditions of R103. -/
def State.phasePass (s : State) (x : Scan) (p c : Nat) : Bool :=
  let k := 512 * p + c
  let a := tget x.series (2 * k) {}
  let b := tget x.series (2 * k + 1) {}
  let h := s.ch p c
  let z := tget x.base k (0, 0, 0)
  [a, b].all (fun e => decide (x.failedSteps e = 0) && e.linear && e.even) &&
    decide ((a.mean - b.mean).natAbs ≤ 128) && decide ((h.calFail, h.noCal, h.range) = z)

/-- The channels a scan covers. -/
def Scan.channels (x : Scan) : List (Nat × Nat) :=
  x.ports.flatMap fun p => ((List.range 512).filter fun c => decide (x.sel = 0) || decide (c % 2 = x.sel - 1)).map fun c => (p, c)

/-- The entries of kind 2 of a PHASE scan (R103, R337). -/
def State.calSummary (s : State) (x : Scan) : List W64 :=
  x.channels.flatMap fun e =>
    let k := 512 * e.1 + e.2
    [packW [(0, 27, globalChannel s.cid e.1 e.2), (27, 1, b2n (s.phasePass x e.1 e.2))],
     packW [(0, 16, min 65535 (x.failedSteps (tget x.series (2 * k) {}) + x.failedSteps (tget x.series (2 * k + 1) {})))]]

/-- The counters that R103 wants at zero, where they are not when a scan begins. -/
def State.scanBase (s : State) (first last : Nat) : Tab (Nat × Nat × Nat) :=
  (s.chans.filter fun e => decide (first ≤ e.1 / 512) && decide (e.1 / 512 ≤ last) && decide ((e.2.calFail, e.2.noCal, e.2.range) ≠ (0, 0, 0))).map
    fun e => (e.1, (e.2.calFail, e.2.noCal, e.2.range))

/-- The entries of kind 3 of a HIST run: 16 for each channel of its ports (R336, R337). -/
def State.histEntries (s : State) (h : HistRun) : List W64 :=
  (List.range (min 4 (1024 - h.first))).flatMap fun i => (List.range 512).flatMap fun c =>
    let x := tget h.chans (512 * (h.first + i) + c) {}
    (List.range 16).flatMap fun j =>
      [packW [(0, 27, globalChannel s.cid (h.first + i) c), (32, 32, x.hits)],
       packW ((List.range 4).map fun b => (16 * b, 16, tget x.bins (4 * j + b) 0))]

/-- The last pulse's frame has been committed (R261). -/
def State.scanDone (s : State) : Bool :=
  match s.sp.scan with
  | some x => x.failed.isSome || (x.ended && decide (x.endTick + 6 ≤ s.tm.tick))
  | none => true

/-- The last frame of the HIST run has been committed (R261). -/
def State.histDone (s : State) : Bool :=
  match s.sp.hist with
  | some h => decide (h.from_ + h.frames + 4 ≤ s.frame)
  | none => true

end Sys2Proof.Machine
end

