-- ==== Sys2Proof/Machine/Firn.lean ====
section
/-! DEFINITION. The region commit and the Firn store (R222–R227, R231–R263, R459, R460): budget and spill, extents and
generations, the index, claims and calving, pins, the writer with its buffer, reads and scrubbing. Which errors the stacks
show comes in as operands. -/

namespace Sys2Proof.Machine

/-! ### Extents, index entries and pins -/

/-- S, the scratch extents of region `r` (R238, R263). -/
def State.scratch (s : State) (r : Nat) : Nat := min 256 (s.cget (FRR_CFG_SCRATCH r))

/-- Extent `e` of region `r`; a scratch extent is always OPEN with GEN 0 and HWM 65,536 (R238). -/
def State.ext (s : State) (r e : Nat) : Extent :=
  if 131072 - s.scratch r ≤ e then { state := 1, hwm := 65536 } else tget s.firn.extents (r * 131072 + e) {}

/-- Extent `e` of region `r` replaced. -/
def State.setExt (s : State) (r e : Nat) (x : Extent) : State :=
  s.modFirn fun f => { f with extents := tset f.extents (r * 131072 + e) {} x }

/-- Extent `e` of region `r` changed. -/
def State.modExt (s : State) (r e : Nat) (g : Extent → Extent) : State :=
  s.setExt r e (g (tget s.firn.extents (r * 131072 + e) {}))

/-- The index entry that slice `k` uses (R239). -/
def State.ixe (s : State) (k : Nat) : IxEntry := tget s.firn.index (k % 131072) {}

/-- The index entry that slice `k` uses replaced. -/
def State.setIxe (s : State) (k : Nat) (x : IxEntry) : State :=
  s.modFirn fun f => { f with index := tset f.index (k % 131072) {} x }

/-- Slice `k` is retained: its entry is its own, and OPEN or COMPLETE (R248). -/
def IxEntry.live (e : IxEntry) : Bool := decide (e.state = 1) || decide (e.state = 2)

/-- The entry of slice `k` is its own and OPEN. -/
def State.openSlice (s : State) (k : Nat) : Bool := decide ((s.ixe k).slice = k) && decide ((s.ixe k).state = 1)

/-- The slices neither EMPTY nor CALVED (R248). -/
def State.retained (s : State) : List IxEntry := (s.firn.index.map (·.2)).filter IxEntry.live

/-- The least of a list, or `d`. -/
def leastOf (d : Nat) : List Nat → Nat
  | [] => d
  | [x] => x
  | x :: r => min x (leastOf d r)

/-- Pin `n`. -/
def State.pin (s : State) (n : Nat) : Pin := tget s.firn.pins n {}

/-- Pin `n` changed. -/
def State.modPin (s : State) (n : Nat) (g : Pin → Pin) : State :=
  s.modFirn fun f => { f with pins := tset f.pins n {} (g (tget f.pins n {})) }

/-- Pin `p` covers slice `k`. -/
def Pin.covers (p : Pin) (k : Nat) : Bool := p.active && decide (p.first ≤ k) && decide (k ≤ p.last)

/-- The extent `x` belongs to a slice that a pin holds. -/
def State.extPinned (s : State) (x : Extent) : Bool :=
  (decide (x.state = 1) || decide (x.state = 2)) && decide (0 < (tget s.firn.index x.slice {}).pins)

/-- P_r: extents of region `r` whose slice has PINS > 0 (R246). -/
def State.pinnedExtents (s : State) (r : Nat) : Nat :=
  (s.firn.extents.filter fun e => decide (e.1 / 131072 = r) && s.extPinned e.2).length

/-- Q (R246). -/
def State.pinQuota (s : State) (r : Nat) : Nat := s.cget FRN_CTRL_QUOTA * (131072 - s.scratch r) / 100

/-- The edges of R248 and the counts that the region registers show. -/
def State.refreshEdges (s : State) : State :=
  let live := s.retained
  let h := s.cget FRN_HEAD_SLICE
  let s1 := if !s.firn.claimed then s
    else (s.cset FRN_OLDEST_SLICE (leastOf 0 (live.map IxEntry.slice))).cset FRN_EDGE_SLICE
      (leastOf (h + 1) ((live.filter fun e => decide (e.pins = 0)).map IxEntry.slice))
  (List.range 4).foldl (fun z r =>
    ((z.cset (FRR_STAT_PINNED r) (z.pinnedExtents r)).cset (FRR_STAT_RETIRED r)
      (min 1023 (z.firn.extents.filter fun e => decide (e.1 / 131072 = r) && decide (e.2.state = 3)).length)).cset (FRR_STAT_READY r)
        (z.rgn r).readyExts.length) s1

/-! ### Calving -/

/-- An extent freed (R236, R258). -/
def State.freed (s : State) (r : Nat) (x : Extent) : Extent :=
  if x.retirePend || (x.damaged && s.con (FRR_CFG_AUTO_RETIRE r)) then { x with state := 3, retirePend := false }
  else { x with state := 0 }

/-- The extents of slice `k` freed in all regions, and its open chains ended. -/
def State.freeSlice (s : State) (k : Nat) : State :=
  let ex := tmap s.firn.extents {} fun i x =>
    if (x.state = 1 ∨ x.state = 2) ∧ x.slice = k % 131072 then s.freed (i / 131072) x else x
  (List.range 4).foldl (fun z r => z.modRgn r fun x => { x with chains := x.chains.filter fun c => decide (c.slice ≠ k) })
    (s.modFirn fun f => { f with extents := ex })

/-- Some slices set CALVED and their extents freed (R247); the edges follow. -/
def State.calveSlices (s : State) (ks : List Nat) : State :=
  (ks.foldl (fun z k => (z.freeSlice k).setIxe k { z.ixe k with state := 3 }) s).refreshEdges

/-- Calving up to slice `k` (R247): every unpinned slice from the oldest retained one. -/
def State.calveUpTo (s : State) (k : Nat) : State :=
  s.calveSlices ((s.retained.filter fun e => decide (e.slice ≤ k) && decide (e.pins = 0)).map IxEntry.slice)

/-! ### Pins -/

/-- The entries that a pin's range counts, changed. -/
def State.modRange (s : State) (first last : Nat) (g : IxEntry → IxEntry) : State :=
  s.modFirn fun f => { f with index := tmap f.index {} fun _ e => if e.live ∧ first ≤ e.slice ∧ e.slice ≤ last then g e else e }

/-- The slices of a range whose entries are CALVED or EMPTY (R250). -/
def State.deadIn (s : State) (first last : Nat) : List Nat :=
  ((s.firn.index.map (·.2)).filter fun e => !e.live && decide (first ≤ e.slice) && decide (e.slice ≤ last)).map IxEntry.slice

/-- Pin `n` set (R250, R284): it counts in the live entries of its range; PARTIAL where a claimed slice of it is gone. -/
def State.setPin (s : State) (n first last : Nat) : State :=
  let have_ := (s.retained.filter fun e => decide (first ≤ e.slice) && decide (e.slice ≤ last)).length
  let part := decide (have_ < min last (s.cget FRN_HEAD_SLICE) + 1 - first)
  ((s.modPin n fun _ => { active := true, partial_ := part, first := first, last := last, gone := s.deadIn first last }).modRange first last fun e =>
    { e with pins := e.pins + 1 }).refreshEdges

/-- The range of pin `n` extended to `last` (R284). -/
def State.extendPin (s : State) (n last : Nat) : State :=
  let p := s.pin n
  if !p.active ∨ last ≤ p.last then s
  else ((s.modPin n fun x => { x with last := last, gone := x.gone ++ s.deadIn (p.last + 1) last }).modRange (p.last + 1) last fun e => { e with pins := e.pins + 1 }).refreshEdges

/-- The slices calved by a release: unpinned now, and older than the edge `old` as it stood before (R248). -/
def State.calveReleased (s : State) (old : Nat) : State :=
  let ks := (s.retained.filter fun e => decide (e.pins = 0) && decide (e.slice < old)).map IxEntry.slice
  if ks.isEmpty then s.refreshEdges else s.calveSlices ks

/-- A pin counts no longer in the entries in which it counted; `mark` is what happens to every entry of its range (R250). -/
def State.unpin (s : State) (n : Nat) (mark : IxEntry → IxEntry) : State :=
  let p := s.pin n
  let g (e : IxEntry) : IxEntry :=
    if p.first ≤ e.slice ∧ e.slice ≤ p.last then mark (if p.gone.contains e.slice then e else { e with pins := e.pins - 1 }) else e
  (s.modPin n fun x => { x with active := false }).modFirn fun f => { f with index := tmap f.index {} fun _ e => g e }

/-- Pin `n` cleared (R250). -/
def State.clearPin (s : State) (n : Nat) : State :=
  if !(s.pin n).active then s else (s.unpin n id).calveReleased (s.cget FRN_EDGE_SLICE)

/-- The core of slot `n` is truncated (R250, R290). -/
def State.truncCore (s : State) (n : Nat) : State :=
  match tget s.trg.cores n none with
  | none => s
  | some c => (((s.modTrg fun t => { t with cores := tset t.cores n none (some { c with trunc := true }) }).cset (TRG_CORE_STAT_TRUNC n) 1).cset
      TRG_STAT_TRUNC_SEEN 1)

/-- Pin `n` released early, with truncation (R240, R242, R250). -/
def State.releasePin (s : State) (n : Nat) : State :=
  let s1 := s.unpin n fun e => { e with trunc := true }
  ((s1.modPin n fun x => { x with trunc := true }).truncCore n).calveReleased (s.cget FRN_EDGE_SLICE)

/-- The oldest pin: lowest FIRST, then lowest number (R250). -/
def State.oldestPin (s : State) : Option Nat :=
  let act := s.firn.pins.filter fun e => e.2.active
  let f := leastOf 0 (act.map fun e => e.2.first)
  (act.find? fun e => decide (e.2.first = f)).map (·.1)

/-- The oldest pin released at the quota (R250). -/
def State.releaseOldest (s : State) : State :=
  match s.oldestPin with
  | none => s
  | some n => ((s.releasePin n).cbump FRN_EVT_TRUNC).cset FRN_STAT_TRUNC_SEEN 1

/-- The pins that cover slice `k` released with truncation. -/
def State.releaseCovering (s : State) (k : Nat) : State :=
  ((s.firn.pins.filter fun e => e.2.covers k).map (·.1)).foldl (fun z n => z.releasePin n) s

/-! ### Claims -/

/-- The entry of slice `k` claimed in a state with a number of frames counted (R240, R242, R459): an older slice it held is
calved by the horizon, with its pins released. -/
def State.claim (s : State) (k st frames : Nat) : State :=
  let old := s.ixe k
  let s1 := if old.live ∧ old.slice ≠ k then
      let s0 := if 0 < old.pins then ((s.releaseCovering old.slice).cbump FRN_EVT_HZN).cset FRN_STAT_HZN_SEEN 1 else s
      s0.freeSlice old.slice
    else s
  let n := (s1.firn.pins.filter fun e => e.2.covers k).length
  let e : IxEntry := { slice := k, state := st, frames := frames, pins := n, qual := s.qual }
  (((s1.setIxe k e).modFirn fun f => { f with claimed := true }).cset FRN_HEAD_SLICE k).refreshEdges

/-- A slice of which every frame has committed closes: COMPLETE, or EMPTY where no region stored anything (R240, R241). -/
def IxEntry.finish (e : IxEntry) : IxEntry :=
  if e.frames < 256 ∨ e.state ≠ 1 then e
  else if e.r0.count = 0 ∧ e.r1.count = 0 ∧ e.r2.count = 0 ∧ e.r3.count = 0 then { e with state := 0 }
  else { e with state := 2 }

/-- The chains of slice `k` closed with its last commit (R243). -/
def State.closeChains (s : State) (k : Nat) : State :=
  (List.range 4).foldl (fun z r =>
    ((z.rgn r).chains.filter fun c => decide (c.slice = k)).foldl (fun y c => y.modExt r c.ext fun x => { x with state := 2 })
      (z.modRgn r fun x => { x with chains := x.chains.filter fun c => decide (c.slice ≠ k) })) s

/-- `n` frames of slice `k` counted as committed (R241, R459). -/
def State.countFrames (s : State) (k n : Nat) : State :=
  if !(s.openSlice k) then s
  else
    let e := { s.ixe k with frames := min 256 ((s.ixe k).frames + n) }
    let s1 := s.setIxe k e.finish
    (if e.finish.state = 1 then s1 else s1.closeChains k).refreshEdges

/-- SLICE_CLAIM (R240): at the tick of the first frame of a slice plus 2 frames. -/
def execSliceClaim (s : State) : Out :=
  .next (
    let f := s.frameAt (s.tm.tick - 2)
    if s.con FRN_STAT_READY && decide (2 ≤ s.tm.tick) && decide (f % 256 = 0) && !(s.openSlice (sliceOf f)) then
      s.claim (sliceOf f) 1 0
    else s)

/-- FIRN_INIT_DONE (R236, R259, R459): the tables are clear and READY is set; the slice in progress is claimed, and its frames
whose commit time has passed count at once. -/
def execFirnInitDone (s : State) : Out :=
  .next (if s.con FRN_STAT_READY then s
    else
      let s1 := ({ s with firn := {} }).cset FRN_STAT_READY 1
      let late := decide (3994 ≤ s.tm.now.ns % 4000)
      let k := sliceOf s.frame
      let done := s.frame + b2n late - 3 - k * 256
      (s1.modFirn fun f => { f with committed := if late then some (s.tm.tick - 3) else none }).claim k 1 (min 256 done))

/-! ### The writer -/

/-- A line of chain `c` of region `r` issued with the bytes `d` (R244, R261): HWM and `FRR_LINES` count it. -/
def State.issueLine (s : State) (r : Nat) (c : Chain) (line : Nat) (d : List Byte) : State :=
  let us := (c.lineUnits.filter fun u => decide (u.1 = line)).map (·.2)
  (((s.modRgn r fun x => { x with
    writeBuf := x.writeBuf ++ [{ slice := c.slice, ext := c.ext, gen := c.gen, line := line, data := d, units := us }] }).modExt r c.ext
      fun x => { x with hwm := max x.hwm (line + 1) }).cwrap (FRR_LINES_CNT r) 1)

/-- The chain of slice `c.slice` in region `r` put back. -/
def State.putChain (s : State) (r : Nat) (c : Chain) : State :=
  s.modRgn r fun x => { x with chains := (x.chains.filter fun y => decide (y.slice ≠ c.slice)) ++ [c] }

/-- The line that the tail of a chain begins. -/
def Chain.tailLine (c : Chain) : Nat := (c.used - c.tail.length) / 64

/-- At most `fuel` full lines of a chain issued. -/
def State.issueFull (s : State) (r : Nat) (c : Chain) : Nat → State × Chain
  | 0 => (s, c)
  | n + 1 =>
    if c.tail.length < 64 then (s, c)
    else
      let l := c.tailLine
      (s.issueLine r c l (c.tail.take 64)).issueFull r { c with
        tail := c.tail.drop 64, lineUnits := c.lineUnits.filter fun u => decide (l < u.1) } n

/-- The partial last line of a chain issued with zeros behind it (R244). -/
def State.issuePartial (s : State) (r : Nat) (c : Chain) : State :=
  if c.tail.isEmpty then s else s.issueLine r c c.tailLine (c.tail ++ List.replicate (64 - c.tail.length) 0)

/-- A ready extent taken for slice `k` (R236, R243): its number, GEN, and the state. -/
def State.takeExtent (s : State) (r k : Nat) : Option (Nat × Nat × State) :=
  match (s.rgn r).readyExts with
  | [] => none
  | e :: rest =>
    let x := tget s.firn.extents (r * 131072 + e) {}
    let g := (x.gen + 1) % 32768
    some (e, g, ((s.modRgn r fun y => { y with readyExts := rest }).cset (FRR_STAT_READY r) rest.length).setExt r e
      { x with gen := g, hwm := 0, state := 1, damaged := false, slice := k % 131072, fofs := 0x7FFFFF, last := true })

/-- The chain goes on in a new extent (R222, R236, R243): the old one is filled with 0xE1, written and CLOSED; `close` is false
where it has been closed already. -/
def State.chainExtent (s : State) (r : Nat) (c : Chain) (close : Bool) : Option (Chain × State) :=
  match s.takeExtent r c.slice with
  | none => none
  | some (e, g, s1) =>
    let s2 := if close then
        (s1.issueFull r { c with used := 4194304, tail := c.tail ++ List.replicate (4194304 - c.used) 0xE1 } 65536).1.modExt r c.ext fun x =>
          { x with state := 2, next := e, last := false }
      else s1.modExt r c.ext fun x => { x with next := e, last := false }
    some ({ c with
      ext := e, gen := g, used := 0, count := min 255 (c.count + 1), tail := [], lineUnits := [], starved := false, closedAt := none }, s2)

/-- One byte string that is never split written to a chain; `first` marks a unit header (R222, R236, R260). An extent that it fills is CLOSED
(R243). -/
def State.putItem (s : State) (r : Nat) (c : Chain) (u : Option LineUnit) (first : Bool) (b : List Byte) : Option (Chain × State) :=
  let go := if c.closedAt.isNone ∧ c.used + b.length ≤ 4194304 then some (c, s) else s.chainExtent r c c.closedAt.isNone
  match go with
  | none => none
  | some (d, s1) =>
    let s2 := if first then s1.modExt r d.ext fun x => if x.fofs = 0x7FFFFF then { x with fofs := d.used } else x else s1
    let l0 := d.used / 64
    let l1 := (d.used + b.length - 1) / 64
    let us := match u with
      | some w => (List.range (l1 + 1 - l0)).map fun i => (l0 + i, w)
      | none => []
    let s3 := if d.used + b.length = 4194304 then s2.modExt r d.ext fun x => { x with state := 2 } else s2
    some ({ d with used := d.used + b.length, tail := d.tail ++ b, lineUnits := d.lineUnits ++ us.filter fun x => !(d.lineUnits.contains x) }, s3)

/-- The byte strings of a unit written one after another. -/
def State.putItems (s : State) (r : Nat) (c : Chain) (u : Option LineUnit) (first : Bool) : List (List Byte) → Option (Chain × State)
  | [] => some (c, s)
  | b :: rest =>
    match s.putItem r c u first b with
    | none => none
    | some (d, s1) => s1.putItems r d u false rest

/-- A unit of slice `k` dropped for want of an extent in region `r` (R252). -/
def State.noExtent (s : State) (r k : Nat) : State :=
  let s1 := ((s.cbump (FRR_WR_WFAIL r)).raise (FRR_STAT_NO_EXTENT r)).cset FRN_STAT_WFAIL_SEEN 1
  s1.setIxe k { s1.ixe k with wfail := Nat.lor (s1.ixe k).wfail (2 ^ r) }

/-- The byte strings of one unit stored in slice `k` of region `r` (R243, R252, R460); the Bool says that it is stored. -/
def State.tryStore (s : State) (r k : Nat) (u : Option LineUnit) (crev : Bool) (items : List (List Byte)) : State × Bool :=
  if !(s.openSlice k) then (s.cbump FRN_EVT2_NOSLICE, false)
  else
    let c0 : Option (Chain × State) := match (s.rgn r).chains.find? fun c => decide (c.slice = k) with
      | some c => if c.starved && (s.rgn r).readyExts.isEmpty then none else some ({ c with starved := false }, s)
      | none => match s.takeExtent r k with
        | some (e, g, s1) => some ({ slice := k, first := e, fgen := g, ext := e, gen := g, used := 0, count := 1 }, s1)
        | none => none
    match c0 with
    | none => (s.noExtent r k, false)
    | some (c, s1) =>
      match s1.putItems r c u true items with
      | none => ((s1.putChain r { c with starved := true }).noExtent r k, false)
      | some (d, s2) => (s2.putChain r { d with units := d.units + 1, crev := d.crev || crev }, true)

/-- A unit stored, or dropped and counted. -/
def State.store (s : State) (r k : Nat) (u : Option LineUnit) (crev : Bool) (items : List (List Byte)) : State :=
  (s.tryStore r k u crev items).1

/-! ### Region commit -/

/-- A crevasse record that the commit of the frame of tick `k` will carry in region `r`. -/
def State.addCrev (s : State) (r : Nat) (c : Crev) : State := s.modRgn r fun x => { x with crevs := x.crevs ++ [c] }

/-- A unit handed to the Firn controller of region `r` (R223, R230). -/
def State.handUnit (s : State) (r : Nat) (u : Unit_) : State :=
  let s1 := (s.cwrap (RG_BYTES_CNT r) u.size).modRgn r fun x => { x with
    handed := tset x.handed u.tick 0 (tget x.handed u.tick 0 + u.size) }
  let x := s1.tryStore r (sliceOf u.frame) (some (u.frame, u.port, u.rawN)) false u.items
  if x.2 then x.1.serviceUnit u else x.1

/-- A unit found uncorrectable in the commit buffer is dropped (R229). -/
def State.unitUnc (s : State) (r : Nat) (u : Unit_) : State :=
  (s.cset (RG_STAT_UNC r) 1).addCrev r
    { at_ := u.tick, reason := 7, scope := 0, port := u.port, frame := u.frame, frames := 1, lost := u.rawN }

/-- The coder of a unit. -/
def Unit_.coder (u : Unit_) : Nat := u.port / 16 % 16

/-- A unit put into its place in ascending port order behind those of earlier frames (R223). -/
def spillIns (u : Unit_) : List Unit_ → List Unit_
  | [] => [u]
  | x :: r => if u.tick = x.tick ∧ u.port < x.port then u :: x :: r else x :: spillIns u r

/-- The first of the 16 coders from `c0` on that has one of the units. -/
def nextCoder (us : List Unit_) (c0 : Nat) : Option Nat :=
  ((List.range 16).map fun i => (c0 + i) % 16).find? fun c => us.any fun u => decide (u.coder = c)

/-- UNIT_HANDOVER (R223, R229, R243, R252, R460): one turn of the fair phase of region `r`; `ecc` says how the unit's entries
read from the commit buffer. -/
def execUnitHandover (r : RgnIx) (ecc : EccStatus) (s : State) : Out :=
  .next (
    let x := s.rgn r.val
    match x.fair with
    | [] => s
    | u0 :: _ =>
      let k := leastOf u0.tick (x.fair.map Unit_.tick)
      let us := x.fair.filter fun u => decide (u.tick = k)
      let c0 := if tget x.turn k 16 = 16 then s.frameAt k % 16 else tget x.turn k 16
      match nextCoder us c0 with
      | none => s
      | some c =>
        match us.find? fun u => decide (u.coder = c) with
        | none => s
        | some u =>
          let used := tget x.coderBytes (16 * k + c) 0
          let s1 := s.modRgn r.val fun y => { y with fair := y.fair.erase u, turn := tset y.turn k 16 ((c + 1) % 16) }
          if 29696 < used + u.size then s1.modRgn r.val fun y => { y with spill := spillIns u y.spill }
          else
            let s2 := s1.modRgn r.val fun y => { y with coderBytes := tset y.coderBytes (16 * k + c) 0 (used + u.size) }
            if ecc = .double then s2.unitUnc r.val u else s2.handUnit r.val u)

/-- A unit dropped at the budget (R224). -/
def State.budgetDrop (s : State) (r : Nat) (u : Unit_) : State :=
  (((s.cbump (PI_CNT2_BUDDROP u.port)).cbump (RG_STAT_BUD_DROP r)).cset (RG_STAT_BUD_HIT r) 1).addCrev r
    { at_ := u.tick, reason := 2, scope := 0, port := u.port, frame := u.frame, frames := 1, lost := u.rawN }

/-- The turns of the spill phase for the frame of tick `k`, from coder `c` (R223, R229); `bad` names the ports whose unit reads uncorrectable. -/
def State.spillTurns (s : State) (bad : List Nat) (r k c : Nat) : Nat → State
  | 0 => s
  | n + 1 =>
    let us := (s.rgn r).spill.filter fun u => decide (u.tick = k)
    match nextCoder us c with
    | none => s
    | some d =>
      match us.find? fun u => decide (u.coder = d) with
      | none => s
      | some u =>
        let s1 := s.modRgn r fun y => { y with spill := y.spill.erase u }
        let s2 := if 475136 < tget (s.rgn r).handed k 0 + u.size then s1.budgetDrop r u
          else if bad.contains u.port then s1.unitUnc r u else s1.handUnit r u
        s2.spillTurns bad r k ((d + 1) % 16) n

/-- SPILL_POINT (R223, R224, R226, R229): of the frame three ticks back in a region. -/
def execSpillPoint (r : SpillRead) (s : State) : Out :=
  .next (
    let k := s.tm.tick - 3
    (s.toInst (200 * 65536)).spillTurns (r.bad.map Fin.val) r.rgn.val k (s.frameAt k % 16) (s.rgn r.rgn.val).spill.length)

/-! ### Frame commit -/

/-- The bytes of a crevasse record (R225). -/
def crevBytes (cid : Nat) (c : Crev) : List Byte :=
  wordsBytes [packW [(0, 8, 0xB3), (8, 8, cid), (16, 10, c.port), (26, 38, c.frame)],
    packW [(0, 4, c.reason), (4, 2, c.scope), (8, 22, c.frames), (32, 32, c.lost)]]

/-- A crevasse record written into slice `k` by region `r` (R225, R226, R230): counted once it is written. -/
def State.putCrev (s : State) (r k : Nat) (c : Crev) : State :=
  let x := (s.cwrap (RG_BYTES_CNT r) 16).tryStore r k none true [crevBytes s.cid c]
  if x.2 then x.1.cbump (RG_CREV_CNT r) else x.1

/-- A port that counts toward the widening of a crevasse record (R226). -/
def State.crevPort (s : State) (p : Nat) : Bool := s.con (PL_CTRL_EN p) && s.con (PI_CTRL_STORE p) && s.con (PI_CTRL_CREV_EN p)

/-- Every counting port from `lo` on, `n` of them, is in `ps`, and one is. -/
def State.allIn (s : State) (ps : List Nat) (lo n : Nat) : Bool :=
  (ps.any fun p => decide (lo ≤ p) && decide (p < lo + n)) &&
    (List.range n).all fun i => !(s.crevPort (lo + i)) || ps.contains (lo + i)

/-- The absence records of the ports `ps` for the same frames, merged to the widest scopes (R226): region, scope and first port. -/
def State.mergeScopes (s : State) (ps : List Nat) : List (Nat × Nat × Nat) :=
  if s.allIn ps 0 1024 then [(0, 3, 0)]
  else (List.range 4).flatMap fun r =>
    if s.allIn ps (256 * r) 256 then [(r, 2, 256 * r)]
    else (List.range 16).flatMap fun b =>
      let lo := 256 * r + 16 * b
      if s.allIn ps lo 16 then [(r, 1, lo)]
      else (ps.filter fun p => decide (lo ≤ p) && decide (p < lo + 16)).map fun p => (r, 0, p)

/-- The absences that end with the frame of tick `k` become records of their regions (R205, R226). -/
def State.closeAbsences (s : State) (k : Nat) : State :=
  let ended := s.ports.flatMap fun e => (e.2.absent.filter fun a => decide (a.2.2 ≤ k)).map fun a => (e.1, a.1, a.2.1)
  let keys := (ended.map fun e => (e.2.1, e.2.2)).eraseDups
  let s1 := { s with ports := tmap s.ports {} fun _ x => { x with absent := x.absent.filter fun a => decide (k < a.2.2) } }
  keys.foldl (fun z q =>
    (s.mergeScopes ((ended.filter fun e => decide (e.2 = q)).map (·.1))).foldl (fun y m =>
      y.addCrev m.1 { at_ := k, reason := 1, scope := m.2.1, port := m.2.2, frame := q.1, frames := q.2, lost := 0xFFFFFFFF }) z) s1

/-- What a region's chain of a slice puts into the slice's index entry (R241). -/
def Chain.ix (c : Chain) : IxRegion := { first := c.first, fgen := c.fgen, lastx := c.ext, endb := c.closedAt.getD c.used, count := c.count }

/-- The frames that region `r` has lost up to frame `f` of tick `k`, all of one slice, become a record of reason 5 (R226, R260). -/
def State.lostPart (s : State) (r f k : Nat) : State :=
  let f0 := (s.rgn r).resetFrom
  if f < f0 then s
  else (s.addCrev r { at_ := k, reason := 5, scope := 2, port := 256 * r, frame := f0, frames := f + 1 - f0, lost := 0xFFFFFFFF }).modRgn r
    fun x => { x with resetFrom := f + 1 }

/-- The frames that region `r` has lost up to frame `f` of tick `k` (R226): a record never spans a slice boundary, and each is written with
the commit of its last frame. -/
def State.lostRun (s : State) (r f k : Nat) : State :=
  let e := sliceOf (s.rgn r).resetFrom * 256 + 255
  (s.when (decide (e < f)) fun z => z.lostPart r e (k - (f - e))).lostPart r f k

/-- Region `r` commits the frame of tick `k` in slice `sl` (R226, R244, R260, R261). -/
def State.commitRegion (s0 : State) (k sl r : Nat) : State :=
  let f := s0.frameAt k
  let s := s0.when ((s0.rgn r).resetting && decide (f % 256 = 255)) fun z => z.lostRun r f k
  let cs := (s.rgn r).crevs.filter fun c => decide (c.at_ ≤ k)
  let s1 := cs.foldl (fun z c => z.putCrev r sl c) (s.modRgn r fun x => { x with crevs := x.crevs.filter fun c => decide (k < c.at_) })
  let bytes := tget (s.rgn r).handed k 0 + 16 * cs.length
  let s2 := (s1.cset (RG_PEAK_MAX r) (max (s1.cget (RG_PEAK_MAX r)) bytes)).modRgn r fun x => { x with
    turn := tkeep x.turn fun j => decide (k < j), handed := tkeep x.handed fun j => decide (k < j),
    coderBytes := tkeep x.coderBytes fun j => decide (16 * k + 16 ≤ j) }
  match (s2.rgn r).chains.find? fun c => decide (c.slice = sl) with
  | none => s2
  | some c =>
    let x := s2.issueFull r c 65536
    let s3 := (x.1.issuePartial r x.2).putChain r { x.2 with unitsDone := x.2.units }
    let e := s3.ixe sl
    let e1 := match r with
      | 0 => { e with r0 := c.ix } | 1 => { e with r1 := c.ix } | 2 => { e with r2 := c.ix } | _ => { e with r3 := c.ix }
    s3.setIxe sl { e1 with crev := e1.crev || c.crev }

/-- FRAME_COMMIT (R226, R240, R241, R243, R244, R261, R459): of the frame three ticks back. -/
def execFrameCommit (s : State) : Out :=
  .next (
    let k := s.tm.tick - 3
    if s.tm.tick < 3 || !(s.con FRN_STAT_READY) || (match s.firn.committed with | some j => decide (k ≤ j) | none => false) then s
    else
      let sl := sliceOf (s.frameAt k)
      let s0 := (s.toInst (3994 * 65536)).closeAbsences k
      let s1 := (List.range 4).foldl (fun z r => z.commitRegion k sl r) s0
      let s2 := s1.modFirn fun f => { f with committed := some k }
      if !(s2.openSlice sl) then s2
      else
        let u := ((List.range 4).map fun r => (((s2.rgn r).chains.filter fun c => decide (c.slice = sl)).map Chain.units).sum).sum
        (s2.setIxe sl { s2.ixe sl with units := max u (s2.ixe sl).units }).countFrames sl (b2n (decide (s.firn.backTick ≤ k))))

/-- LINE_WRITE (R244, R261): the next full line of a chain of region `r` is issued to its stack. -/
def execLineWrite (r : RgnIx) (s : State) : Out :=
  .next (match (s.rgn r.val).chains.find? fun c => decide (64 ≤ c.tail.length) with
    | none => s
    | some c => let x := s.issueFull r.val c 1; x.1.putChain r.val x.2)

/-- Bytes 64 and 65 of a line: VALID and GEN (R232). -/
def metaBytes (valid : Bool) (gen : Nat) : List Byte := leBytes 2 (pack [(0, 15, gen), (15, 1, b2n valid)])

/-- A line as it is written: VALID = 1, the generation, and the check bytes of RS(72,66) over bytes 0 to 65 (R232, R233, R236). -/
def formLine (data : List Byte) (gen : Nat) : Line :=
  { data := data, valid := true, gen := gen % 32768
    check := (rsCheck ((data ++ metaBytes true gen).map BitVec.toNat)).map (BitVec.ofNat 8) }

/-- A line as the stack returns it, through the decoder of R233: verdict, data, VALID and GEN. -/
def Line.read (x : Line) (raw : RawLine) : CwStatus × List Byte × Bool × Nat :=
  let w := x.data ++ metaBytes x.valid x.gen ++ x.check
  let got := raw.errs.foldl (fun z e => z.set e.1.val (z.getD e.1.val 0 ^^^ e.2)) w
  let r := rsDecode (got.map fun b => some b.toNat)
  (r.1, r.2.take 64, bitAt (bodyNat r.2 64 2) 15, bodyNat r.2 64 2 % 32768)

/-- WRITE_ACKNOWLEDGED (R253): the oldest line of the write buffer is in its stack. -/
def execWriteAcknowledged (r : RgnIx) (s : State) : Out :=
  .next (match (s.rgn r.val).writeBuf with
    | [] => s
    | w :: rest => (s.modRgn r.val fun x => { x with writeBuf := rest }).modFirn fun f => { f with
        lines := tins f.lines ((131072 * r.val + w.ext) * 65536 + w.line) (formLine w.data w.gen) })

/-- The first entry that satisfies a test, changed. -/
def changeFirst {α : Type} (t : α → Bool) (g : α → α) : List α → List α
  | [] => []
  | x :: r => if t x then g x :: r else x :: changeFirst t g r

/-- WRITE_RETRY (R253): the oldest line not yet retried is issued once more. -/
def execWriteRetry (r : RgnIx) (s : State) : Out :=
  .next (s.modRgn r.val fun x => { x with writeBuf := changeFirst (fun w => !w.retried) (fun w => { w with retried := true }) x.writeBuf })

/-- The stack of a line (R234). -/
def stackOf (r e l : Nat) : Nat := 4 * r + (e + l) % 4

/-- DAMAGED set in an extent and in the entry of the slice that owns it (R237, R253). -/
def State.damage (s : State) (r e : Nat) : State :=
  let x := s.ext r e
  if 131072 - s.scratch r ≤ e then s
  else
    let s1 := s.modExt r e fun y => { y with damaged := true }
    s1.modFirn fun f => { f with index := tmap f.index {} fun i y => if i = x.slice ∧ y.live then { y with damaged := true } else y }

/-- STORE_WRITE_FAILURE (R253, R262): the retry of a line has failed: its extent is closed at that line, a new one is taken for the
commit's slice, and records of reason 7 name the units that lost bytes. -/
def execStoreWriteFailure (r : RgnIx) (s : State) : Out :=
  .next (match (s.rgn r.val).writeBuf.find? fun w => w.retried with
    | none => s
    | some w =>
      let i := r.val
      let sc := sliceOf (s.frameAt (s.tm.tick - 3))
      let gone := (s.rgn i).writeBuf.filter fun x => decide (x.ext = w.ext) && decide (x.gen = w.gen) && decide (w.line ≤ x.line)
      let chain := (s.rgn i).chains.find? fun c => decide (c.ext = w.ext) && decide (c.gen = w.gen)
      let held := match chain with | some c => c.lineUnits.map (·.2) | none => []
      let us := ((gone.flatMap WLine.units) ++ held).eraseDups
      let s1 := (((s.damage i w.ext).cbump (FRR_UNC_CNT (stackOf i w.ext w.line))).modRgn i fun x => { x with
        writeBuf := x.writeBuf.filter fun y => !(gone.contains y) }).modExt i w.ext fun x => { x with hwm := w.line, state := 2 }
      let s2 : State := match chain with
        | none => s1
        | some c =>
          let cut : Chain := { c with tail := [], lineUnits := [], closedAt := some (w.line * 64) }
          if c.slice = sc then
            match s1.chainExtent i c false with
            | some (d, y) => y.putChain i d
            | none => s1.putChain i { cut with starved := true }
          else s1.putChain i cut
      let s3 : State := if (chain.map Chain.slice) = some sc then s2
        else match (s2.rgn i).chains.find? fun y => decide (y.slice = sc) with
          | some d => (match s2.chainExtent i d d.closedAt.isNone with | some (d1, y) => y.putChain i d1 | none => s2)
          | none => s2
      us.foldl (fun z u => z.putCrev i sc { at_ := 0, reason := 7, scope := 0, port := u.2.1, frame := u.1, frames := 1, lost := u.2.2 }) s3)

/-! ### The allocator -/

/-- Pins released until P_r ≤ Q or the extent is no longer pinned (R250). -/
def State.releaseFor (s : State) (r : Nat) (x : Extent) : Nat → State
  | 0 => s
  | n + 1 => if s.extPinned x && decide (s.pinQuota r < s.pinnedExtents r) then s.releaseOldest.releaseFor r x n else s

/-- The extent under the pointer is taken into a ready place (R246). -/
def State.takeReady (s : State) (r e : Nat) : State :=
  s.modRgn r fun x => { x with readyExts := x.readyExts ++ [e] }

/-- ALLOCATOR_INSPECT (R246, R247, R250, R251): one table entry of region `r` is inspected while a ready place is free. -/
def execAllocatorInspect (r : RgnIx) (s : State) : Out :=
  .next (
    let i := r.val
    if !(s.con FRN_STAT_READY) || decide (2 ≤ (s.rgn i).readyExts.length) then s
    else
      let e := s.cget (FRR_WR_PTR i)
      let ring := 131072 - s.scratch i
      let s0 := s.cset (FRR_WR_PTR i) (if e + 1 < ring then e + 1 else 0)
      let x0 := s.ext i e
      let s1 := if x0.state = 2 ∧ !(decide ((tget s.firn.index x0.slice {}).state = 1)) then s0.releaseFor i x0 64 else s0
      let x := s1.ext i e
      let o := tget s1.firn.index x.slice {}
      if x.state = 0 then (if (s1.rgn i).readyExts.contains e then s1 else (s1.takeReady i e).refreshEdges)
      else if x.state = 2 ∧ o.state ≠ 1 ∧ o.pins = 0 then
        let s2 := s1.calveUpTo o.slice
        if (s2.ext i e).state = 0 then (s2.takeReady i e).refreshEdges else s2
      else s1)

/-! ### Reads -/

/-- A Firn address taken apart: region, GEN, extent, line (R234). -/
def firnAddr (a : Nat) : Nat × Nat × Nat × Nat := (bits a 39 2, bits a 41 15, bits a 22 17, bits a 6 16)

/-- A Firn address (R234). -/
def mkFirnAddr (r g e l : Nat) : Nat := pack [(6, 16, l), (22, 17, e), (39, 2, r), (41, 15, g)]

/-- The line that a write buffer holds (R253, R256). -/
def State.bufferedLine (s : State) (r e l : Nat) : Option WLine :=
  ((s.rgn r).writeBuf.reverse).find? fun w => decide (w.ext = e) && decide (w.line = l)

/-- The line as the stack holds it; a scratch line never written has unknown content, a free value (R238). -/
def State.storedLine (s : State) (r e l : Nat) : Line × State :=
  match s.firn.lines.find? fun x => decide (x.1 = (131072 * r + e) * 65536 + l) with
  | some x => (x.2, s)
  | none =>
    let d := s.draw
    ({ data := leBytes 64 d.1, valid := bitAt (d.1 / 2 ^ 512) 15, gen := d.1 / 2 ^ 512 % 32768, check := leBytes 6 (d.1 / 2 ^ 528) }, d.2)

/-- Status and data of a line read, and the state after it (R237): a line that is still in the write buffer is served from there (R256). -/
def State.lineStatus (s : State) (a : Nat) (raw : RawLine) : Nat × List Byte × State :=
  let (r, g, e, l) := firnAddr a
  let x := s.ext r e
  let zeros := List.replicate 64 (0 : Byte)
  if x.gen ≠ g ∨ x.state = 0 ∨ x.state = 3 then (5, zeros, s)
  else if x.hwm ≤ l then (2, zeros, s)
  else match s.bufferedLine r e l with
    | some w => if w.gen = g then (0, w.data, s) else (4, zeros, s)
    | none =>
      let y := s.storedLine r e l
      let z := y.1.read raw
      if z.1 = .uncorrectable then (3, zeros, y.2)
      else if !z.2.2.1 ∨ z.2.2.2 ≠ g then (4, zeros, y.2)
      else (if z.1 = .corrected then 1 else 0, z.2.1, y.2)

/-- What a status does besides going to its requester (R237, R262). -/
def State.noteStatus (s : State) (a st : Nat) : State :=
  let (r, _, e, l) := firnAddr a
  if st = 1 then s.cbump (FRR_CORR_CNT (stackOf r e l))
  else if st = 3 ∨ st = 4 then
    let s1 := ((((s.damage r e).cbump (FRR_UNC_CNT (stackOf r e l))).cset (FRR_BAD_ADDR r) a).cset FRN_STAT_DAMAGED_SEEN 1)
    let due := match (s.rgn r).badNote with | some t => decide (t + 250000 ≤ s.tm.tick) | none => true
    if due then (s1.modRgn r fun x => { x with badNote := some s.tm.tick }).monNotice 5 else s1
  else s

/-- The module is in HIBERNATE (R259). -/
def State.hibernating (s : State) : Bool := decide (s.cget GLB_STAT_STATE = 3)

/-- The number of a requester in the round-robin of R254. -/
def reqCode : Requester → Nat
  | .core k => k.val
  | .stream => 64
  | .mover c => 65 + c.val
  | .scrub => 81

/-- The waiting request served next, round-robin after requester `last`. -/
def nextWaiting (ws : List (Requester × Nat)) (last : Nat) : Option (Requester × Nat) :=
  let after := ws.filter fun w => decide (last < reqCode w.1)
  let pool := if after.isEmpty then ws else after
  let c := leastOf 0 (pool.map fun w => reqCode w.1)
  pool.find? fun w => decide (reqCode w.1 = c)

/-- The outstanding reads of region `r` shown, and that their limit is reached (R254, R263). -/
def State.showReads (s : State) (r : Nat) : State :=
  let n := (s.rgn r).reads.length
  (s.cset (FRR_RD_OUTST r) n).when (decide (4096 ≤ n)) fun z => z.cset (FRR_RD_FULL_SEEN r) 1

/-- Waiting reads accepted while there is room (R254). -/
def State.acceptReads (s : State) (r : Nat) : Nat → State
  | 0 => s
  | n + 1 =>
    let x := s.rgn r
    if 4096 ≤ x.reads.length ∨ s.hibernating then s
    else match nextWaiting x.waiting x.served with
      | none => s
      | some w => ((s.modRgn r fun y => { y with
          waiting := y.waiting.erase w, reads := y.reads ++ [w], served := reqCode w.1 }).showReads r).acceptReads r n

/-- LINE_READ (R254, R256, R259): a read is accepted, or waits for room or for the end of HIBERNATE. -/
def execLineRead (w : Requester) (addr : W64) (s : State) : Out :=
  .next (
    let a := addr.toNat
    let r := (firnAddr a).1
    let x := s.rgn r
    if s.hibernating then s.modRgn r fun y => { y with waiting := y.waiting ++ [(w, a)] }
    else if 4096 ≤ x.reads.length then
      ((s.modRgn r fun y => { y with waiting := y.waiting ++ [(w, a)] }).cbump (FRR_RD_WAITS r)).cset (FRR_RD_FULL_SEEN r) 1
    else (s.modRgn r fun y => { y with reads := y.reads ++ [(w, a)] }).showReads r)

/-- The scrubber moves to its next address; a pass that ends is counted, and one that took too long is shown (R257, R259). -/
def State.scrubNext (s : State) (r : Nat) : State :=
  let x := s.rgn r
  let n := (x.scrubPos + 1) % 2 ^ 33
  let per := s.cget (FRR_SCRUB_PERIOD r) * (if s.hibernating then max 1 (s.cget (FRR_SCRUB_HIB_MUL r)) else 1)
  let s1 := (s.modRgn r fun y => { y with scrubPos := n }).cset (FRR_SCRUB_STAT_PROGRESS r) (n * 128 / 2 ^ 33)
  if n = 0 then
    let slow := decide (per * 60 * 250000 * 11 < 10 * (s.tm.tick - x.scrubStart))
    ((s1.modRgn r fun y => { y with scrubStart := s.tm.tick }).cwrap (FRR_SCRUB_STAT_PASSES r) 1).when slow fun z =>
      z.cset (FRR_SCRUB_STAT_SLOW r) 1
  else s1

/-- FIRN_SCRUB_STEP (R257, R262): the scrubber reaches one line address of region `r`; a corrected line is written back, which
leaves its logical content as it is, whether or not (`rewritten`) the writer's own line stands. -/
def execFirnScrubStep (r : RgnIx) (raw : RawLine) (_rewritten : Bool) (s : State) : Out :=
  .next (
    let pos := (s.rgn r.val).scrubPos
    let e := pos / 65536
    let l := pos % 65536
    let x := s.ext r.val e
    if (x.state = 1 ∨ x.state = 2) ∧ l < x.hwm then
      let a := mkFirnAddr r.val x.gen e l
      let y := s.lineStatus a raw
      (y.2.2.noteStatus a y.1).scrubNext r.val
    else s.scrubNext r.val)

/-! ### Snapshots and retirement -/

/-- A region's part of an index entry as 96 bits (R239). -/
def IxRegion.bits (x : IxRegion) : Nat := pack [(0, 17, x.first), (17, 15, x.fgen), (32, 17, x.lastx), (49, 23, x.endb), (72, 8, x.count)]

/-- An index entry as 512 bits (R239). -/
def IxEntry.bits (e : IxEntry) : Nat :=
  pack [(0, 64, e.slice), (64, 2, e.state), (66, 9, e.frames), (75, 7, e.pins), (82, 1, b2n e.trunc), (83, 1, b2n e.damaged),
    (84, 1, b2n e.crev), (85, 4, e.wfail), (89, 2, e.qual), (96, 32, e.units), (128, 96, e.r0.bits), (224, 96, e.r1.bits),
    (320, 96, e.r2.bits), (416, 96, e.r3.bits)]

/-- An index SRAM word found uncorrectable: the entry is CALVED and its pins are released with truncation (R262). -/
def State.indexUnc (s : State) (i : Nat) : State :=
  let k := (tget s.firn.index i {}).slice
  let s0 := if (s.firn.index.map Prod.fst).contains i then (s.releaseCovering k).freeSlice k else s
  let s1 := s0.setIxe i { tget s0.firn.index i {} with state := 3, pins := 0 }
  (s1.refreshEdges.cbump FRN_EVT2_SRAM_UNC).alarm FRN_EVT2_SRAM_UNC

/-- A write of `FRN_IX_SEL` (R241): the entry is snapshotted whole; `ecc` says how its SRAM words read. -/
def State.opIxSel (s : State) (m v : Nat) (ecc : EccStatus) : State × Bool :=
  let i := bits v 0 17
  let w := s.writeReg m FRN_IX_SEL_IDX.reg v
  let s1 := match ecc with
    | .ok => w.1
    | .single => w.1.cbump FRN_EVT2_SRAM_CORR
    | .double => w.1.indexUnc i
  let b := (tget s1.firn.index i {}).bits
  ((List.range 16).foldl (fun z k => z.cset (FRN_IX_DATA_D k) (bits b (32 * k) 32)) s1, w.2)

/-- A write of `FRN_PIN_SEL` (R263): the pin is snapshotted. -/
def State.opPinSel (s : State) (m v : Nat) : State × Bool :=
  let w := s.writeReg m FRN_PIN_SEL_PIN.reg v
  let p := s.pin (bits v 0 6)
  (((((w.1.cset FRN_PIN_DATA0_ACTIVE (b2n p.active)).cset FRN_PIN_DATA0_TRUNC (b2n p.trunc)).cset FRN_PIN_DATA0_PARTIAL
    (b2n p.partial_)).cset FRN_PIN_FIRST_SLICE p.first).cset FRN_PIN_LAST_SLICE p.last, w.2)

/-- The three words of an extent entry (R235). -/
def Extent.words (x : Extent) : List Nat :=
  [pack [(0, 17, x.next), (17, 1, b2n x.last), (18, 2, x.state), (20, 1, b2n x.damaged), (21, 1, b2n x.retirePend), (22, 8, x.fofs)],
   pack [(0, 17, x.hwm), (17, 15, x.gen)], pack [(0, 17, x.slice), (17, 15, x.fofs / 256)]]

/-- A write of `FRR_XT_SEL` (R235, R258): retire or return, then the entry is snapshotted. -/
def State.opXtSel (s : State) (r m v : Nat) : State × Bool :=
  let e := bits v 0 17
  let op := bits v 17 2
  let w := s.writeReg m (FRR_XT_SEL_EXT r).reg v
  let x := s.ext r e
  let s1 := if 131072 - s.scratch r ≤ e then w.1
    else if op = 1 then
      (if x.state = 0 then (w.1.setExt r e { x with state := 3 }).modRgn r fun y => { y with readyExts := y.readyExts.filter (· ≠ e) }
       else if x.state = 3 then w.1 else w.1.setExt r e { x with retirePend := true })
    else if op = 2 ∧ x.state = 3 then w.1.setExt r e { x with state := 0 }
    else w.1
  let s2 := s1.refreshEdges
  let ws := (s2.ext r e).words
  ((List.range 3).foldl (fun z n => z.cset (FRR_XT_DATA_D (3 * r + n)) (ws.getD n 0)) s2, w.2)

/-- INDEX_SNAPSHOT (R241, R262): a write of `FRN_IX_SEL`. -/
def execIndexSnapshot (m : MasterIx) (v : W32) (ecc : EccStatus) (s : State) : Out :=
  .next (s.guarded m.val .control FRN_IX_SEL_IDX.reg .write fun z => State.answered (z.opIxSel m.val v.toNat ecc) m.val)

/-- A write of `FRR_XT_SEL` by a master; a single-bit error in the table's SRAM is corrected and counted (R235, R258, R262). -/
def State.xtWrite (s : State) (r m : Nat) (v : XtWrite) : State :=
  s.guarded m .control (FRR_XT_SEL_EXT r).reg .write fun z =>
    State.answered ((z.when v.corrected fun y => y.cbump FRN_EVT2_SRAM_CORR).opXtSel r m v.val.toNat) m

/-- EXTENT_SNAPSHOT (R235): a write of `FRR_XT_SEL`. -/
def execExtentSnapshot (m : MasterIx) (r : RgnIx) (v : XtWrite) (s : State) : Out := .next (s.xtWrite r.val m.val v)

/-- EXTENT_RETIRE (R258): a write of `FRR_XT_SEL`. -/
def execExtentRetire (m : MasterIx) (r : RgnIx) (v : XtWrite) (s : State) : Out := .next (s.xtWrite r.val m.val v)

/-- EXTENT_RETURN (R258): a write of `FRR_XT_SEL`. -/
def execExtentReturn (m : MasterIx) (r : RgnIx) (v : XtWrite) (s : State) : Out := .next (s.xtWrite r.val m.val v)

/-- A write of the Firn blocks that is refused (R251, R257). -/
def State.frnRefuse (a v : Nat) : Option Fld :=
  if a = 0x400000 then (if bits v 0 6 < 5 ∨ 50 < bits v 0 6 then some FRN_STAT_CFG_ERR else none)
  else if 0x401000 ≤ a ∧ a < 0x405000 ∧ a % 0x1000 = 8 then
    (if bits v 0 16 < 60 ∨ 43200 < bits v 0 16 then some FRN_STAT_CFG_ERR else none)
  else none

/-! ### Steps -/

/-- The index and the waits follow a whole-frame step of `w` frames from frame `a` to frame `b` at this tick (R242, R459). -/
def State.stepIndex (s : State) (a b : Nat) : State :=
  if !(s.con FRN_STAT_READY) then s
  else
    let ka := sliceOf (a - 1)
    let kb := sliceOf b
    if a ≤ b then
      let s0 := if s.openSlice ka then s else s.claim ka 1 0
      if ka = kb then s0.countFrames ka (b - a)
      else
        let s1 := s0.countFrames ka ((ka + 1) * 256 - a)
        let skipped := kb - ka - 1
        let s2 := if 131072 ≤ skipped then
            let ks := s1.retained.map IxEntry.slice
            (ks.foldl (fun z k => (z.releaseCovering k).freeSlice k) s1).modFirn fun f => { f with
              index := tmap f.index {} fun _ e => if e.live then { e with state := 3, pins := 0 } else e }
          else s1
        let n := min skipped 131072
        let s3 := (List.range n).foldl (fun z i => z.claim (kb - n + i) 0 0) s2
        s3.claim kb 1 (b - kb * 256)
    else
      let ks := (s.retained.filter fun e => decide (kb ≤ e.slice)).map IxEntry.slice
      let s1 := ks.foldl (fun z k =>
        let y := (z.releaseCovering k).freeSlice k
        y.setIxe k { y.ixe k with state := 3, pins := 0 }) s
      (((s1.cadd FRN_EVT_STEP_CALVE ks.length).refreshEdges).modFirn fun f => { f with backTick := s.tm.tick }).claim kb 1 (b - kb * 256)

end Sys2Proof.Machine
end

