-- ==== Sys2Proof/Machine/Time.lean ====
section
/-! DEFINITION. Time, its sources, steps, trigger inputs and timed outputs (R21–R62, R457). An instant of a message or
an edge comes in as an operand; what the servo does to the reference frequency is not part of the count (R27). -/

namespace Sys2Proof.Machine

/-! ### Quality and steps -/

/-- The quality code and `LOCK` with it (R37); free-run keeps 0. -/
def State.setQual (s : State) (q : Nat) : State :=
  let q1 := if s.cget TIM_CTRL_SRC = 2 then 0 else q
  (s.cset TIM_STAT_QUAL q1).cset TIM_STAT_LOCK (b2n (decide (q1 = 1 ∨ q1 = 2)))

/-- A run is active in the sense of R44. -/
def State.runActive (s : State) : Bool := s.con TRG_STAT_ARMED || s.con TRG_STAT_PWR_HELD || s.trg.armAsk

/-- The whole frames of a step in ns: the largest multiple of 4,000 ns not larger in magnitude (R43). -/
def stepWhole (ns : Int) : Int := ns.tdiv 4000

/-- The apply of a step would repeat frame numbers of an active run (R44); the initial set is excepted (R45). -/
def State.stepBlocked (s : State) (ns : Int) : Bool :=
  s.con TIM_STAT_INIT_SET && decide (stepWhole ns < 0) && s.runActive

/-- A step is accepted (R43, R45): its whole frames wait for the next tick, its remainder is slewed. -/
def State.acceptStep (s : State) (ns : Int) : State :=
  let w := stepWhole ns
  let s1 := s.modTm fun t => { t with
    slewLeft := ns.tmod 4000 * 65536, slewRem := 0, stepFrames := if w = 0 then t.stepFrames else some (t.stepFrames.getD 0 + w), stepAsk := t.tick, belowRun := 0,
    lockRun := 0 }
  ((s1.cset TIM_STAT_STEP_PEND 0).cbump TIM_EVT_CNT_STEP_APPLIED).cset TIM_STAT_INIT_SET 1

/-- The pending step's value in ns. -/
def State.stepVal (s : State) : Int := toSigned 64 (s.cget TIM_STEP_VAL_VAL)

/-- An offset becomes a pending step (R40, R41): a further one only replaces the value. -/
def State.refuseStep (s : State) (ns : Int) : State :=
  let s1 := (s.cset TIM_STEP_VAL_VAL (ofSigned 64 ns)).modTm fun t => { t with belowRun := 0 }
  if s.con TIM_STAT_STEP_PEND then s1
  else
    let s2 := ((s1.modTm fun t => { t with holdover := true, lockRun := 0 }).setQual 3).cbump TIM_EVT_CNT_STEP_REFUSED
    (s2.raise TIM_STAT_STEP_PEND).logBit TIM_STAT_STEP_PEND 0xFF (ofSigned 64 ns)

/-- A write of `TIM_STEP` (R41, R42). -/
def State.opTimStep (s : State) (v : Nat) : State :=
  let apply := bitAt v 0
  let withdraw := bitAt v 1
  if apply && withdraw then s.cset TIM_STAT_CFG_ERR 1
  else if withdraw then (s.cset TIM_STAT_STEP_PEND 0).modTm fun t => { t with belowRun := 0 }
  else if bits v 16 16 ≠ 0xA5C3 then s.cbump TIM_EVT_CNT_KEY_ERR
  else if apply && s.con TIM_STAT_STEP_PEND && !(s.stepBlocked s.stepVal) then s.acceptStep s.stepVal
  else s

/-- A write of a word of `TIM_STEP_VAL` (R29): only in free-run; the high word makes the value a pending step. -/
def State.opStepVal (s : State) (hi : Bool) (v : Nat) : State :=
  if s.cget TIM_CTRL_SRC ≠ 2 then s.cset TIM_STAT_CFG_ERR 1
  else
    let s1 := s.cset TIM_STEP_VAL_VAL (TIM_STEP_VAL_VAL.merge (s.cget TIM_STEP_VAL_VAL) v hi)
    if hi then s1.cset TIM_STAT_STEP_PEND 1 else s1

/-! ### PTP -/

/-- The PTP instance of service port `v`. -/
def State.ptp (s : State) (v : Nat) : PtpPort := tget s.tm.ptp v {}
/-- The PTP instance of service port `v` changed. -/
def State.modPtp (s : State) (v : Nat) (g : PtpPort → PtpPort) : State :=
  s.modTm fun t => { t with ptp := tset t.ptp v {} (g (tget t.ptp v {})) }

/-- The instance runs and its port is served: a frozen NET leaves PTP messages unprocessed (R30, R347). -/
def State.ptpOn (s : State) (v : Nat) : Bool :=
  (if v = 0 then s.con TIM_CTRL_PTP0_EN else s.con TIM_CTRL_PTP1_EN) && !(s.frozen 18)

/-- A message is for the instance of port `v`: its transport and domain are those chosen (R30). -/
def State.ptpHears (s : State) (v : Nat) (ethernet : Bool) (domain : Byte) : Bool :=
  s.ptpOn v && (ethernet == s.con TIM_CTRL_TRANSPORT) && decide (domain.toNat = s.cget TIM_CTRL_DOMAIN)

/-- The Delay_Req interval in ns: what the master's logMinDelayReqInterval demands, not less than 1/16 s (R30). Before the master
has stated one it is 1/16 s (log entry 73). -/
def PtpPort.reqInterval (p : PtpPort) : Nat :=
  match p.reqLog with
  | none => 62500000
  | some l => if 0 ≤ l then 1000000000 * 2 ^ l.toNat else max 62500000 (1000000000 / 2 ^ (-l).toNat)

/-- A Delay_Req may leave port `v` now (R30). -/
def State.reqDue (s : State) (v : Nat) : Bool :=
  match (s.ptp v).lastReq with
  | some t => decide (t + (s.ptp v).reqInterval ≤ s.monoNs)
  | none => true

/-- The oldest Delay_Req of port `v` has waited 4 Delay_Req intervals for its Delay_Resp (R33). -/
def State.respOverdue (s : State) (v : Nat) : Bool :=
  match (s.ptp v).reqs with
  | (_, _, t) :: _ => decide (t + 4 * (s.ptp v).reqInterval ≤ s.monoNs)
  | [] => false

/-- The ingress stamp referred to the lands: 196.0 ns and the trim in 1/16 ns (R31), in 2^-16 ns. -/
def State.ingress (s : State) (v : Nat) (t : Int) : Int :=
  t - (196 * 65536 + toSigned 16 (s.cget (TIM_PTPC_IN_TRIM v)) * 4096)

/-- The egress stamp referred to the lands: 112.0 ns and the trim in 1/16 ns (R31), in 2^-16 ns. -/
def State.egress (s : State) (v : Nat) (t : Int) : Int :=
  t + (112 * 65536 + toSigned 16 (s.cget (TIM_PTPC_EG_TRIM v)) * 4096)

/-- Time is disciplined by REFCLK and PPS (R34). -/
def State.onRef (s : State) : Bool := decide (s.cget TIM_CTRL_SRC = 1) && s.con TIM_STAT_REF_OK

/-- The ASYM judgement of a Sync (R35): the sticky bit raises an ALARM, the rising edge of the live bit is counted. -/
def State.judgeAsym (s : State) (off : Int) : State :=
  if 20 * 65536 < off.natAbs then
    let s1 := s.when (!(s.con TIM_STAT_ASYM_NOW)) fun z => z.cbump TIM_EVT_CNT_ASYM_EVT
    (s1.cset TIM_STAT_ASYM_NOW 1).raise TIM_STAT_ASYM
  else s.cset TIM_STAT_ASYM_NOW 0

/-- Sixteen Sync intervals in a row below 200 ns lock the PTP port (R37). Between the initial set and the first lock no row of R37's
table applies, and QUAL stays 0 (log entry 74). -/
def State.judgeLock (s : State) (off : Int) : State :=
  let run := if off.natAbs < 200 * 65536 then s.tm.lockRun + 1 else 0
  let s1 := s.modTm fun t => { t with lockRun := run }
  if run < 16 then s1
  else
    let s2 := (s1.cset TIM_STAT_PTP_OK 1).modTm fun t => { t with everLocked := true, holdover := false }
    if s.qual = 2 ∨ s.con TIM_STAT_STEP_PEND ∨ !(s.con TIM_STAT_INIT_SET) then s2 else s2.setQual 1

/-- Holdover ends at an offset that is measured while no step is pending (R41). -/
def State.endHoldover (s : State) : State :=
  if s.con TIM_STAT_STEP_PEND then s else s.modTm fun t => { t with holdover := false }

/-- An offset from the selected master (source minus concentrator, 2^-16 ns) is judged against the initial set, the
REFCLK and PPS rule, the jump threshold and the slew bound (R35, R37, R39–R41, R45). It is rounded to whole ns and to 1/16 ns,
a half upward (log entry 75). -/
def State.judgeOffset (s : State) (off : Int) : State :=
  let s0 := s.cset TIM_OFFSET_OFS (ofSigned 32 (roundDivI off 4096))
  let ns := roundDivI off 65536
  if s.cget TIM_CTRL_SRC = 2 then s0
  else if s.cget TIM_CTRL_SRC = 1 ∧ !(s.con TIM_STAT_INIT_SET) ∧ (s.con TIM_STAT_REF_OK ∨ s.tm.ppsPhased) then s0.judgeLock off
  else if s.onRef then
    let s1 := (s0.judgeAsym off).judgeLock (off - roundDivI off (65536 * 1000000000) * (65536 * 1000000000))
    let d := roundDivI off (65536 * 1000000000)
    if d = 0 then (s1.when (s1.con TIM_STAT_STEP_PEND) fun z => z.modTm fun t => { t with belowRun := t.belowRun + 1 }).endHoldover
    else s1.refuseStep (d * 1000000000)
  else if !(s.con TIM_STAT_INIT_SET) then s0.acceptStep ns
  else if s.cget TIM_JUMP_JUMP * 65536 < off.natAbs then s0.refuseStep ns
  else if s.con TIM_STAT_STEP_PEND then s0.modTm fun t => { t with belowRun := t.belowRun + 1, lockRun := 0 }
  else (s0.endHoldover.modTm fun t => { t with slewLeft := off, slewRem := 0 }).judgeLock off

/-- A complete Sync of port `v`: what it gives is kept, and judged if the port is selected (R30, R32). -/
def State.syncMeasured (s : State) (v : Nat) (ms : Int) : State :=
  let s1 := s.modPtp v fun p => { p with masterToSlave := ms, twoStep := none }
  if s.tm.selected = some v then
    s1.judgeOffset (-(ms - (s.ptp v).pathDelay - toSigned 32 (s.cget TIM_PTP_ASYM_ASYM) * 4096))
  else s1

/-- Dataset `a` ranks strictly better than `b`: fields are compared in order, a smaller one is better (R32). -/
def datasetBetter : List Nat → List Nat → Bool
  | [], _ => false
  | _ :: _, [] => false
  | a :: as, b :: bs => if a < b then true else if b < a then false else datasetBetter as bs

/-- The port that R32 selects, given the one selected now. -/
def State.selectPort (s : State) : Option Nat :=
  let p0 := s.ptp 0
  let p1 := s.ptp 1
  let ok (p : PtpPort) : Bool := p.qualified && !p.lost
  if ok p0 && ok p1 then
    let d0 := (p0.announce.map fun a => a.dataset).getD []
    let d1 := (p1.announce.map fun a => a.dataset).getD []
    if datasetBetter d0 d1 then some 0 else if datasetBetter d1 d0 then some 1
    else match s.tm.selected with
      | some v => some v
      | none => some 0
  else if ok p0 then some 0 else if ok p1 then some 1 else none

/-- Holdover is entered: QUAL 3 after a lock (R35, R37). -/
def State.enterHoldover (s : State) : State :=
  let s1 := (s.modTm fun t => { t with holdover := true, lockRun := 0 }).cset TIM_STAT_PTP_OK 0
  if s.tm.everLocked then s1.setQual 3 else s1

/-- The selection of R32 made again; a new port starts a new count of locked intervals. Until it locks, `PTP_OK` is 0 and QUAL stays
as it is (log entry 74). -/
def State.reselect (s : State) : State :=
  let n := s.selectPort
  if n = s.tm.selected then s
  else
    let s1 := s.modTm fun t => { t with selected := n, lockRun := 0 }
    match n with
    | none => s1.enterHoldover
    | some v =>
      let a := (s.ptp v).announce
      (((s1.cset TIM_STAT_PORT v).cset TIM_STAT_PTP_OK 0).cset TIM_STAT_ARB (b2n ((a.map fun x => x.arb).getD false))).cset
        TIM_UTC_OFS_OFS ((a.map fun x => x.utcOffset.toNat).getD 0)

/-- The master of port `v` is lost (R33): the other port is taken if it is qualified, otherwise holdover. -/
def State.portLost (s : State) (v : Nat) : State :=
  let s1 := s.modPtp v fun p => { p with lost := true, twoStep := none }
  if s.tm.selected = some v then (s1.cset TIM_STAT_PTP_LOSS 1).reselect else s1

/-- QUAL once REFCLK and PPS no longer hold it at 2: PTP locked, or holdover (R37). -/
def State.qualWithoutRef (s : State) : State :=
  if s.qual = 2 then s.setQual (if s.con TIM_STAT_PTP_OK then 1 else 3) else s

/-! ### Registers of the TIM block -/

/-- A write of the TIM block that is refused, with the bits it sets; none where it is not refused (R22, R58, R62). -/
def State.timRefuse (s : State) (a v : Nat) : List Fld :=
  if a = 0x200024 then (if bits v 0 12 < 1 ∨ 2000 < bits v 0 12 then [TIM_STAT_CFG_ERR] else [])
  else if a = 0x200028 then (if bits v 0 30 < 100 ∨ 999999999 < bits v 0 30 then [TIM_STAT_CFG_ERR] else [])
  else if 0x200200 ≤ a ∧ a < 0x200240 then
    let j := (a - 0x200200) / 32
    let o := (a - 0x200200) % 32
    if o = 0 ∨ 24 < o then []
    else (if s.con (TOUT_CTRL_ARM j) then [TOUT_CTRL_ERR j] else []) ++
      (if o = 4 ∧ 1000000000 ≤ bits v 0 30 then [TIM_STAT_CFG_ERR] else [])
  else []

/-- The programmed target of output `j` in 2^-16 ns (R57). -/
def State.toutTarget (s : State) (j : Nat) : Nat :=
  ((s.cget (TOUT_TGT_SEC_LO_SEC j) + s.cget (TOUT_TGT_SEC_HI_SEC j) * 2 ^ 32) * 1000000000 + s.cget (TOUT_TGT_NS_NS j)) * 65536 +
    s.cget (TOUT_TGT_FRAC_FRAC j) * 128

/-- The state of output `j` changed. -/
def State.modTout (s : State) (j : Nat) (g : ToutSt → ToutSt) : State :=
  s.modTm fun t => { t with tout := tset t.tout j {} (g (tget t.tout j {})) }

/-- The width of output `j` in ns; 0 counts as 1 (R57). -/
def State.toutWidth (s : State) (j : Nat) : Nat := max 1 (s.cget (TOUT_WIDTH_W j)) * 8

/-- An attempt to arm output `j` (R58): it succeeds with the target 8 µs ahead or more and with a period that is allowed. -/
def State.armTout (s : State) (j : Nat) : State :=
  let tgt := s.toutTarget j
  let late := decide (tgt < s.tm.now.inst + 8000 * 65536)
  let p := s.cget (TOUT_PERIOD_P j)
  let bad := decide (p ≠ 0 ∧ (p < 1000 ∨ p ≤ s.toutWidth j + 16))
  if late || bad then
    (s.when late fun z => z.cset (TOUT_CTRL_LATE j) 1).when bad fun z => z.cset (TOUT_CTRL_ERR j) 1
  else (s.cset (TOUT_CTRL_ARM j) 1).modTout j fun x => { x with target := tgt, skipped := false }

/-- A write of `TOUT_CTRL` (R58, R59): clearing `ARM` ends a pulse at once. -/
def State.opTout (s : State) (j v : Nat) : State :=
  let was := s.con (TOUT_CTRL_ARM j)
  let s1 := ((s.writeReg 0 (0x200200 + 32 * j) v).1).cset (TOUT_CTRL_ARM j) (b2n was)
  if !(bitAt v 0) then (s1.cset (TOUT_CTRL_ARM j) 0).modTout j fun t => { t with pulse := false }
  else if was then s1
  else s1.armTout j

/-- A step from absolute instant `a` to `b` over the target of output `j` (R59): the pulse is not emitted; a periodic
output goes on at its first target at or after `b`, and a one-shot output stays armed without one (log entry 20). -/
def State.toutJump (s : State) (j a b : Nat) : State :=
  let t := (tget s.tm.tout j {}).target
  if s.con (TOUT_CTRL_ARM j) && decide (a ≤ t) && decide (t < b) then
    let p := s.cget (TOUT_PERIOD_P j) * 65536
    let s1 := s.cset (TOUT_CTRL_SKIP j) 1
    if p = 0 then s1.modTout j fun x => { x with skipped := true }
    else s1.modTout j fun x => { x with target := t + (b - t + p - 1) / p * p }
  else s

/-! ### Meanings -/

/-- PTP_SYNC (R30, R31, R35, R37, R39–R41, R45): `t1`, `t2` and `corr` in 2^-16 ns; a two-step Sync waits for its Follow_Up. -/
def execPtpSync (v : SvcIx) (oneStep : Bool) (h : PtpHdr) (t1 t2 corr : Int) (s : State) : Out :=
  .next (if !(s.ptpHears v.val h.ethernet h.domain) then s
    else if oneStep then s.syncMeasured v.val (s.ingress v.val t2 - t1 - corr)
    else s.modPtp v.val fun p => { p with twoStep := some (h.seq.toNat, s.ingress v.val t2 - corr) })

/-- PTP_FOLLOW_UP (R33, R40): completes the Sync it matches. -/
def execPtpFollowUp (v : SvcIx) (h : PtpHdr) (t1 corr : Int) (s : State) : Out :=
  .next (if !(s.ptpHears v.val h.ethernet h.domain) then s
    else match (s.ptp v.val).twoStep with
      | some (q, arr) => if q = h.seq.toNat then s.syncMeasured v.val (arr - t1 - corr) else s
      | none => s)

/-- PTP_DELAY_RESP (R30, R31, R33): within 4 Delay_Req intervals of its request, the path delay is half of the two one-way
differences. -/
def execPtpDelayResp (v : SvcIx) (h : PtpHdr) (t4 corr : Int) (s : State) : Out :=
  .next (if !(s.ptpHears v.val h.ethernet h.domain) then s
    else match (s.ptp v.val).reqs.find? fun e => decide (e.1 = h.seq.toNat) with
      | some (_, t3, sent) =>
        if s.monoNs ≤ sent + 4 * (s.ptp v.val).reqInterval then s.modPtp v.val fun p =>
          { p with pathDelay := roundDivI (p.masterToSlave + (t4 - corr - t3)) 2, respMissed := 0, reqLog := some h.logInterval
                   reqs := p.reqs.filter fun e => decide (e.1 ≠ h.seq.toNat) }
        else s
      | none => s)

/-- PTP_ANNOUNCE (R23, R24, R30, R32): a master whose sync interval lies outside −4 to +1 is not qualified. A port that counted as
lost is lost no more; R33 does not say when it recovers (log entry 76). -/
def execPtpAnnounce (v : SvcIx) (a : Announce) (s : State) : Out :=
  .next (if !(s.ptpHears v.val a.ethernet a.domain) then s
    else
      let s1 := (s.modPtp v.val fun p => { p with
        qualified := decide (-4 ≤ a.logInterval ∧ a.logInterval ≤ 1), lost := false, announce := some a }).reselect
      if s1.tm.selected = some v.val then
        (s1.cset TIM_STAT_ARB (b2n a.arb)).cset TIM_UTC_OFS_OFS a.utcOffset.toNat
      else s1)

/-- PTP_MANAGEMENT (R30): ignored and counted. -/
def execPtpManagement (v : SvcIx) (s : State) : Out :=
  .next (if s.ptpOn v.val then s.modPtp v.val fun p => { p with mgmtIgnored := p.mgmtIgnored + 1 } else s)

/-- DELAY_REQ_SEND (R30, R31): the request's departure is kept for its response. None leaves before its interval has passed. -/
def execDelayReqSend (v : SvcIx) (t3 : Int) (s : State) : Out :=
  .next (if !(s.ptpOn v.val) || !(s.reqDue v.val) then s
    else
      let q := ((s.ptp v.val).reqSeq + 1) % 65536
      let s1 := s.modPtp v.val fun p => { p with
        reqSeq := q, lastReq := some s.monoNs, reqs := p.reqs ++ [(q, s.egress v.val t3, s.monoNs)] }
      { s1 with svcTx := .delayReq v.val q :: s1.svcTx })

/-- ANNOUNCE_TIMEOUT (R30, R32): the master is no longer qualified. -/
def execAnnounceTimeout (v : SvcIx) (s : State) : Out :=
  .next ((s.modPtp v.val fun p => { p with qualified := false }).reselect)

/-- PTP_LOSS (R33, R35): the selected master is lost. -/
def execPtpLoss (s : State) : Out :=
  .next (match s.tm.selected with
    | some v => s.portLost v
    | none => s)

/-- DELAY_RESP_TIMEOUT (R33): no Delay_Resp has come within 4 Delay_Req intervals of the oldest request. The delay is kept; sixteen
misses in a row lose the port. -/
def execDelayRespTimeout (v : SvcIx) (s : State) : Out :=
  .next (
    if !(s.respOverdue v.val) then s
    else
      let n := (s.ptp v.val).respMissed + 1
      let s1 := s.modPtp v.val fun p => { p with respMissed := n, reqs := p.reqs.drop 1 }
      if 16 ≤ n then s1.portLost v.val else s1)

/-- PENDING_STEP_DROP (R41): after sixteen Sync intervals below the threshold. -/
def execPendingStepDrop (s : State) : Out :=
  .next (if s.con TIM_STAT_STEP_PEND && decide (16 ≤ s.tm.belowRun) then
      (s.cset TIM_STAT_STEP_PEND 0).modTm fun t => { t with belowRun := 0, holdover := false, lockRun := 0 }
    else s)

/-- STEP_APPLY (R42–R45): a write of `TIM_STEP`. -/
def execStepApply (m : MasterIx) (v : W32) (s : State) : Out :=
  .next (s.guarded m.val .control 0x20002C .write fun z => (z.opTimStep v.toNat).answer m.val false 0)

/-- STEP_WITHDRAW (R41): a write of `TIM_STEP`. -/
def execStepWithdraw (m : MasterIx) (v : W32) (s : State) : Out :=
  .next (s.guarded m.val .control 0x20002C .write fun z => (z.opTimStep v.toNat).answer m.val false 0)

/-- STEP_VAL_WRITE (R29): the high word of `TIM_STEP_VAL`. -/
def execStepValWrite (m : MasterIx) (hi : W32) (s : State) : Out :=
  .next (s.guarded m.val .control 0x20003C .write fun z => (z.opStepVal true hi.toNat).answer m.val false 0)

/-- REF_LOSS (R35): with SRC = 0b01, time goes on disciplined by PTP. -/
def execRefLoss (s : State) : Out :=
  .next (if s.cget TIM_CTRL_SRC ≠ 1 then s
    else (((s.cset TIM_STAT_REF_LOSS 1).cset TIM_STAT_REF_OK 0).cset TIM_STAT_ASYM_NOW 0).qualWithoutRef)

/-- The phase error is below 50 ps (R37). -/
def TimeSt.phaseSmall (t : TimeSt) : Bool := decide (t.slewLeft.natAbs * 1000 < 50 * 65536)

/-- REF_RETURN (R35, R37): the phase difference in 2^-16 ns is removed under the slew and jump rules. -/
def execRefReturn (dphase : Int) (s : State) : Out :=
  .next (if s.cget TIM_CTRL_SRC ≠ 1 then s
    else
      let s1 := s.cset TIM_STAT_REF_OK 1
      if s.cget TIM_JUMP_JUMP * 65536 < dphase.natAbs then s1.refuseStep (roundDivI dphase 65536)
      else s1.modTm fun t => { t with slewLeft := dphase, slewRem := 0, phaseSince := none })

/-- A missed or misplaced PPS edge (R35). -/
def State.ppsMissed (s : State) : State :=
  let n := s.tm.ppsMissRun + 1
  let s1 := (s.modTm fun t => { t with ppsMissRun := n }).cset TIM_STAT_PPS_MISS 1
  if n < 3 then s1 else (s1.cset TIM_STAT_PPS_OK 0).qualWithoutRef

/-- The seconds value nearest to the time shown. -/
def TimeVal.nearestSec (t : TimeVal) : Nat := if 500000000 ≤ t.ns then t.sec + 1 else t.sec

/-- Phase removed in one frame at the slew bound (R39): 0.1 ppm of 4 µs is 16,384/625 units of 2^-16 ns, and what is left over of a
unit is kept. The servo removes phase at the bound itself, and while no step is pending (log entry 77). -/
def TimeSt.slewFrame (t : TimeSt) (slew : Nat) : TimeSt :=
  let n := slew * 16384 + t.slewRem
  let b := n / 625
  if t.slewLeft.natAbs ≤ b then { t with slewLeft := 0, slewRem := 0 }
  else { t with slewLeft := if t.slewLeft < 0 then t.slewLeft + b else t.slewLeft - b, slewRem := n % 625 }

/-- QUAL 2 is entered (R37): REFCLK and PPS qualified, the phase error below 50 ps for 1 s, the seconds from a locked PTP port. -/
def State.judgeRef (s : State) : State :=
  let held := match s.tm.phaseSince with | some t => decide (t + ticksMs 1000 ≤ s.tm.tick) | none => false
  if held && decide (s.cget TIM_CTRL_SRC = 1) && s.con TIM_STAT_REF_OK && s.con TIM_STAT_PPS_OK && s.con TIM_STAT_PTP_OK &&
      !(s.con TIM_STAT_STEP_PEND) && s.tm.stepFrames.isNone then
    (s.modTm fun t => { t with everLocked := true, holdover := false }).setQual 2
  else s

/-- What the servo does in a frame that ends (R37, R39). -/
def State.servoTick (s : State) : State :=
  let small := decide (s.cget TIM_CTRL_SRC = 1) && s.con TIM_STAT_REF_OK && s.tm.phaseSmall
  let s1 := s.modTm fun t => { (if s.con TIM_STAT_STEP_PEND then t else t.slewFrame (s.cget TIM_SLEW_SLEW)) with
    phaseSince := if small then some (t.phaseSince.getD t.tick) else none }
  s1.judgeRef

/-- PPS_MISS (R35): no edge within 1 s + 100 ns. -/
def execPpsMiss (s : State) : Out := .next (if s.cget TIM_CTRL_SRC ≠ 1 then s else s.ppsMissed)

/-- SUSPECT (R50): the applied advance has been more than 2 ps from its target for 256 frames. -/
def execSuspect (p : PortIx) (s : State) : Out :=
  .next (if 256 ≤ (s.port p.val).farRun then
      ((s.cset (TIM_PSTAT_SUSPECT p.val) 1).cset (TIM_PSTAT_SUSPECT_SEEN p.val) 1).when (!(s.con (TIM_PSTAT_SUSPECT p.val)))
        fun z => z.monNotice 1
    else s)

/-- SUSPECT_CLEAR (R50): the advance has been within 1 ps for 256 frames. -/
def execSuspectClear (p : PortIx) (s : State) : Out :=
  .next (if 256 ≤ (s.port p.val).nearRun then s.cset (TIM_PSTAT_SUSPECT p.val) 0 else s)

/-- TIN_EDGE (R54–R56): the filter passes an active level of 2.2 ns, rejects one below 1.8 ns, and between the two is a free
value; `width` in 2^-16 ns. The stamp is cut down to its 128-unit step (log entry 78). -/
def execTinEdge (i : Fin 8) (t : Inst) (rising : Bool) (width : Nat) (s : State) : Out :=
  .next (
    let j := i.val
    let s0 := s.toInst t
    if !(s.con (TIN_CFG_EN j)) || (rising == s.con (TIN_CFG_POL j)) then s0
    else
      let (f, s1) := if width < 117965 ∨ 144179 < width then (b2n (decide (144179 < width)), s0) else s0.draw
      if f % 2 = 0 then s1.cbump (TIN_CNT_GLITCH j)
      else
        let st := tget s1.tm.tin j {}
        let near := match st.lastStamp with
          | some l => decide (s1.mono t < l + 16 * 65536)
          | none => false
        if near then s1.cbump (TIN_CNT_LOST j)
        else
          let base := (s1.tm.now.sec * 1000000000 + s1.tm.now.ns / 4000 * 4000) * 65536
          let tv := TimeVal.ofInst (((base + t / 128 * 128 : Nat) : Int) - toSigned 16 (s1.cget (TIN_CFG_DLY j)) * 128).toNat
          (s1.modTm fun m => { m with tin := tset m.tin j {} { lastStamp := some (s1.mono t), stamps := st.stamps ++ [{ frame := tv.frame, time := tv, qual := s1.qual }] } }).cbump
            (TIN_CNT_ACCEPT j))

/-- TOUT_ARM (R58): a write of `TOUT_CTRL`. -/
def execToutArm (j : Fin 2) (m : MasterIx) (v : W32) (s : State) : Out :=
  .next (s.guarded m.val .control (0x200200 + 32 * j.val) .write fun z => (z.opTout j.val v.toNat).answer m.val false 0)

/-- TOUT_DISARM (R59): a write of `TOUT_CTRL`. -/
def execToutDisarm (j : Fin 2) (m : MasterIx) (v : W32) (s : State) : Out :=
  .next (s.guarded m.val .control (0x200200 + 32 * j.val) .write fun z => (z.opTout j.val v.toNat).answer m.val false 0)

/-- TOUT_FIRE (R57, R59): an armed output whose target lies in the frame in progress or before it begins its pulse, which ends
`TOUT_WIDTH` × 8 ns later; a target that a step jumped over gives none. -/
def execToutFire (j : Fin 2) (s : State) : Out :=
  .next (
    let x := tget s.tm.tout j.val {}
    let base := (s.tm.now.sec * 1000000000 + s.tm.now.ns / 4000 * 4000) * 65536
    if s.con (TOUT_CTRL_ARM j.val) && !x.skipped && decide (x.target < base + instPerFrame) then
      let p := s.cget (TOUT_PERIOD_P j.val) * 65536
      let s1 := (s.toInst (x.target - base)).modTout j.val fun y => { y with
        pulse := true, began := x.target, ends := s.mono (x.target - base) + s.toutWidth j.val * 65536
        target := y.target + p }
      if p = 0 then (s1.cset (TOUT_CTRL_ARM j.val) 0).cset (TOUT_CTRL_FIRED j.val) 1 else s1
    else s)

/-- TOUT_PULSE_END (R57): a pulse whose width has passed within the frame in progress, or before it, ends. -/
def execToutPulseEnd (j : Fin 2) (s : State) : Out :=
  .next (
    let x := tget s.tm.tout j.val {}
    if x.pulse && decide (x.ends < s.mono instPerFrame) then
      (s.toInst (x.ends - s.mono 0)).modTout j.val fun y => { y with pulse := false }
    else s)

/-- TIM_NOW_READ (R62): a read of `TIM_NOW_NS` answers the nanoseconds and latches the other words for its master. -/
def execTimNowRead (m : MasterIx) (s : State) : Out :=
  .next (s.guarded m.val .control 0x200000 .read fun z =>
    let r := z.readReg m.val 0x200000
    r.2.answer m.val false r.1)

end Sys2Proof.Machine
end

