-- ==== Sys2Proof/Machine/Tick.lean ====
section
/-! DEFINITION. The frame tick at the concentrator and the front-ends, and the whole-frame part of a step (R12, R25–R28, R43,
R44, R48, R49, R90, R105, R181, R195–R197, R227, R242, R384, R390, R392, R457, R459). -/

namespace Sys2Proof.Machine

/-- The time of the next frame tick: the next multiple of 4,000 ns (R22, R25). -/
def TimeVal.nextTick (t : TimeVal) : TimeVal :=
  let n := t.ns / 4000 * 4000 + 4000
  if 1000000000 ≤ n then { sec := (t.sec + 1) % 2 ^ 48, ns := 0, frac := 0 } else { sec := t.sec, ns := n, frac := 0 }

/-! ### Front-ends -/

/-- The front-ends that hold any state. -/
def State.feKeys (s : State) : List Nat := ((s.fes.map Prod.fst) ++ (s.freg.map fun e : Nat × Nat => e.1 / 0x40000)).dedup

/-- An interpolator without a pair young enough at `ns` (R81). -/
def Interp.stale (i : Interp) (ns : Nat) : Bool := !(i.pair.isSome && decide (ns ≤ i.pairAt + 4000))

/-- A channel at its front-end's tick (R90, R105): missed trailing-edge pairs and unready interpolators are counted. -/
def State.chanTick (s : State) (p c : Nat) : State :=
  let h := s.ch p c
  let ns := s.tm.tick * 4000
  if !(s.armedAt p c ns) then s.setCh p c { h with teDone := false, unreadyRun := 0 }
  else
    let n := if h.intA.stale ns || h.intB.stale ns then h.unreadyRun + 1 else 0
    let s1 := s.setCh p c { h with
      teDone := false, unreadyRun := min n 256, teCalMiss := if h.teDone then h.teCalMiss else sat16 h.teCalMiss }
    if n = 256 then
      ((s1.fset p (BLK_CDSTAT_IFAIL (c / 16)) 1).fset p (BLK_CDSTAT_IFAIL_CH (c / 16)) (c % 16)).modFacts p fun f => { f with calAlarm := true }
    else s1

/-- What a frame leaves to be seen at the tick that ends it (R155). -/
def State.endFacts (s : State) (p : Nat) : FrameFacts :=
  { (s.fe p).factsNow with
    rtdOut := s.fget p MON_WLIVE_OUT % 16, adcAlarm := (List.range 32).any fun b => s.fget p (BLK_ADCSTAT_FAIL b) != 0,
    gateOpen := s.gateEff p (s.tm.tick * instPerFrame) }

/-- The facts of a frame that begins (R155, R158, R404, R413). -/
def State.newFacts (s : State) (p : Nat) : FrameFacts :=
  { sec := s.feFrame p / framesPerSec, fis := s.feFrame p % framesPerSec, waking := s.fon p DF_STAT_STANDBY || s.fon p DF_STAT_WAKING
    dip := (s.fe p).dipStart.isSome, therm := min 3 (s.fget p FE_TH_STAT_STATE) }

/-- A front-end at its tick (R25, R28, R100, R123, R155, R195–R197, R404, R413). -/
def State.feTick (sIn : State) (p : Nat) : State :=
  let s := sIn.gateDrain p (sIn.tm.tick * 4000)
  let x0 := s.fe p
  let ended := s.endFacts p
  let s1 := s.modFe p fun x => { x with
    factsPrev2 := x.factsPrev, factsPrev := ended, pulseAsk := false, tpEn := s.fon p TP_CFG_EN, tpAmp := s.fget p TP_CFG_AMP, tpCoarse := s.fget p TP_PHASE_COARSE,
    tpFine := s.fget p TP_PHASE_FINE,
    factsNow := s.newFacts p }
  let s2 := s1.when ((s.fe p).mon.startPending) fun z => (z.modMon p fun m => { m with startPending := false }).monStart p (s.tm.tick * 4000)
  let s3 := ((s2.chans.map (·.1)).filter fun k => decide (k / 512 = p)).foldl (fun z k => z.chanTick p (k % 512)) s2
  let s4 := (s3.ownerEval p).when (x0.thermalHold && !(s.fon p DF_STAT_STANDBY)) fun z => z.feStandby p
  (s4.modLink p 0 fun l => { l with claimCmd := false }).modLink p 1 fun l => { l with claimCmd := false }

/-! ### Ports -/

/-- The applied advance goes in steps of 16 fraction units, of which a cc holds 8,192 (R48). In PHASE the tick applies the step
nearest to the target (R183); after it the echo servo moves toward the target by at most one step in a frame, and stands where no
step is nearer (R49, log entry 81). -/
def Port.servo (x : Port) : Port :=
  let d := x.target - x.applied
  let a := if x.applyNext then roundDivI x.target 16 * 16
    else if 8 < d then x.applied + 16 else if d < -8 then x.applied - 16 else x.applied
  { x with
    applied := a
    applyNext := false
    farRun := if 131 < (x.target - a).natAbs then min 256 (x.farRun + 1) else 0
    nearRun := if (x.target - a).natAbs ≤ 65 then min 256 (x.nearRun + 1) else 0 }

/-- The module asserts its claim on port `p` in this frame (R384). -/
def State.claims (s : State) (p : Nat) : Bool :=
  (decide (s.cget TWIN_STAT_ROLE = 3) || decide (s.cget TWIN_STAT_ROLE = 4)) && decide (s.plState p = 6) &&
    (s.con (PL_STAT_OWNER p) || s.con (PL_STAT_OVERLAP p)) && decide (s.cget (PL_STAT_FE_CLAIM p) ≠ s.cget TWIN_CFG_CLAIM) &&
    (match (s.port p).claimAt with | some t => decide (t + 4 ≤ s.tm.tick) | none => true)

/-- The request packets of the frame that begins (R170, R181, R182): the non-posted ones accepted for it, at most five, and after them as many
posted writes as its 80 places leave room for. -/
def Port.fillRequests (x : Port) (tick : Nat) : Port :=
  let y := Port.send x tick 16
  let n := 80 - y.reqNext.length
  let tid := BitVec.ofNat 8 (y.nextTid + 128)
  { y with
    reqTx := y.reqNext ++ (y.posted.take n).map fun e => { typ := 3, tid := tid, addr := BitVec.ofNat 16 e.1, data := e.2 }
    reqNext := [], sentThisFrame := 0, posted := y.posted.drop n, pushTick := if y.posted.isEmpty then y.pushTick else some tick }

/-- A concentrator port at the tick (R49, R171, R181, R182, R193, R207, R369, R384, R420). -/
def State.portTick (s0 : State) (p : Nat) : State :=
  let s := s0.when (s0.port p).testAsk fun z => z.testBegin p
  let cl := s.claims p
  let moves := (s.port p).applyNext || (decide (4 < s.plState p ∧ s.plState p ≤ 6) && !(s.con (TIM_PSTAT_FROZEN p)))
  (s.modPort p fun x =>
    let y := x.fillRequests s.tm.tick
    let z := if moves then y.servo else y
    { z with
      launched := x.applied, claimed := x.fastTx.contains 8, suspectTick := s.con (TIM_PSTAT_SUSPECT p), loadNext := false
      fastTx := x.fastNext ++ (if cl then [8] else []), fastNext := [], claimAt := if cl then some s.tm.tick else x.claimAt }).formSync p

/-- Registers that count with time: ports in RUN at READY + 1.2 s (R367), seconds left of a trial (R379), and the age of the
accepted seed state (R400). -/
def State.timers (s : State) : State :=
  let s1 := match s.glb.readyTick with
    | some t => if s.tm.tick = t + ticksMs 1200 then
        s.cset GLB_START_PORTS_UP ((List.range 1024).filter fun p => decide (s.plState p = 6)).length else s
    | none => s
  let s2 := if s1.con NVM_SLOT_TRIAL then s1.cset NVM_SLOT_TRIAL_LEFT (600 - s1.since s1.nvm.trialTick / 250000) else s1
  match s2.twin.seed with
  | some x => s2.cset TWIN_SEED_AGE (min 0xFFFF (s2.since x.tick / 250))
  | none => s2

/-- The health bits of R392, bit 0 first. -/
def State.twinHealth (s : State) : List Bool :=
  let ps := s.ports.map (·.1)
  let near := match s.twin.prbsTick with | some t => decide (s.tm.tick ≤ t + 2500000) | none => false
  let d := (toSigned 32 (s.cget TWIN_TDIFF_D)).natAbs
  let seedOld := match s.twin.seed with | some x => decide (x.tick + 250000 ≤ s.tm.tick) | none => true
  [(List.range 1024).any fun p => s.con (PL_CTRL_EN p) && decide (s.plState p ≠ 6),
   near,
   ps.any fun p => decide (s.plState p = 6) && !(s.con (PL_GOLD_MATCH p)),
   !(s.con FRN_STAT_READY) || s.twin.patternBad,
   decide (s.qual = 0) || decide (s.qual = 3) || decide (1600 < d),
   seedOld,
   s.con TWIN_STAT_CID_ERR,
   s.twin.compatBad]

/-- What a twin module watches at every tick (R390, R392, R400). -/
def State.twinTick (s : State) : State :=
  if s.cget TWIN_STAT_ROLE = 0 then s
  else
    let b := s.twinHealth
    let s1 := (s.cset TWIN_HEALTH_BITS (pack ((List.range 8).map fun i => (i, 1, b2n (b.getD i false))))).cset TWIN_STAT_HEALTHY
      (b2n (b.all (!·)))
    let run := (s.ports.map (·.1)).filter fun p => decide (s.plState p = 6)
    let asserts := decide (s.cget TWIN_STAT_ROLE = 3) || decide (s.cget TWIN_STAT_ROLE = 4)
    s1.modTwin fun t => { t with
      noOwnerTick := if asserts && run.all fun p => !(s.con (PL_STAT_OWNER p)) then some (t.noOwnerTick.getD s.tm.tick) else none }

/-- A frame tick at which the time becomes `t` (R12, R25): the front-ends, the ports and the registers that count with time. -/
def State.tickTo (s : State) (t : TimeVal) : State :=
  let s1 := s.servoTick.modTm fun m => { m with now := t, tick := m.tick + 1, recent := (t.frame :: m.recent).take 8 }
  let s2 := s1.feKeys.foldl (fun z p => z.feTick p) s1
  let s3 := s2.scanTick
  ((s3.ports.map (·.1)).foldl (fun z p => z.portTick p) s3).timers.twinTick

/-- FRAME_TICK (R12, R25): time reaches the next multiple of 4,000 ns. -/
def execFrameTick (s : State) : Out := .next (s.tickTo s.tm.now.nextTick)

/-! ### The PPS edge -/

/-- The ports reload the counters of every front-end whose downlink they drive with the frame in progress (R43, R187): the SYNC sets of
the tick carry LOAD. -/
def State.reloadPorts (s : State) : State :=
  let s1 : State := { s with ports := tmap s.ports {} fun _ x => { x with loadNext := true } }
  (s1.ports.map (·.1)).foldl (fun z p =>
    let y := z.formSync p
    if decide (2 ≤ z.lnk p (z.face p)) && (z.port p).downlinkOn then y.modFe p fun x => { x with
      sec := s.frame / framesPerSec % 65536, fis := s.frame % framesPerSec, atTick := s.tm.tick } else y) s1

/-- A PPS edge that lies inside the window (R34, R35, R45, R454). `PPS_OK` is set again by the first such edge (log entry 79). Before
the initial set the first one applies the PPS phase: the time goes at once to the nearest whole second, which is a frame tick (log
entry 80). With a qualified PTP port the edge carries PTP's seconds rounded to the nearest. -/
def State.ppsGood (s : State) (ptpSec : Nat) : State :=
  let n := s.tm.now.nearestSec
  let s1 := (s.modTm fun t => { t with ppsMissRun := 0 }).cset TIM_STAT_PPS_OK 1
  let s2 := if s.tm.ppsPhased || s.con TIM_STAT_INIT_SET then s1
    else ((s1.modTm fun t => { t with ppsPhased := true }).tickTo { sec := n % 2 ^ 48, ns := 0, frac := 0 }).reloadPorts
  let d : Int := (ptpSec : Int) - n
  let s3 :=
    if s.tm.selected.isNone then s2
    else if !(s.con TIM_STAT_INIT_SET) then s2.acceptStep (d * 1000000000)
    else if d = 0 then s2 else s2.refuseStep (d * 1000000000)
  s3.judgeRef

/-- PPS_EDGE (R34, R35, R454): `err` is its distance from the expected REFCLK edge in 2^-16 ns. -/
def execPpsEdge (err : Int) (ptpSec : BitVec 48) (s : State) : Out :=
  .next (if s.cget TIM_CTRL_SRC ≠ 1 then s
    else if 4 * 65536 < err.natAbs then s.ppsMissed else s.ppsGood ptpSec.toNat)

/-! ### Whole-frame steps -/

/-- The crevasse record of a forward step in a run (R44, R225, R227). -/
def State.stepCrevasse (s : State) (a b : Nat) : State :=
  let n := b - a
  let big := decide (2 ^ 54 ≤ n)
  if a < b && s.runActive then
    s.addCrev 0 { at_ := s.tm.tick, reason := 3, scope := 3, port := 0, frame := b, frames := if big then 0x3FFFFF else n % 2 ^ 22, lost := if big then 0xFFFFFFFF else n / 2 ^ 22 }
  else s

/-- The waits of cores for a frame number follow a step (R457). -/
def State.stepCores (s : State) (back : Bool) : State :=
  s.modTrg fun t => { t with cores := tmap t.cores none fun _ x => x.map fun c =>
    if c.reading then c else { c with stepTick := some s.tm.tick, stepBack := c.stepBack || back } }

/-- WHOLE_FRAME_STEP (R43–R45, R59, R227, R242, R457, R459): the whole-frame part of an accepted step applied at the tick after
its acceptance. -/
def execWholeFrameStep (s : State) : Out :=
  .next (match s.tm.stepFrames with
    | none => s
    | some w =>
      if s.tm.tick ≤ s.tm.stepAsk then s
      else
        let a := s.frame
        let b := (max 0 ((a : Int) + w)).toNat
        let t := { TimeVal.ofFrame b with ns := (TimeVal.ofFrame b).ns + s.tm.now.ns % 4000, frac := s.tm.now.frac }
        let s1 := s.modTm fun m => { m with
          now := t, stepFrames := none, lastStep := some (m.tick, w), recent := t.frame :: m.recent.drop 1 }
        let s2 := (List.range 2).foldl (fun z j => z.toutJump j (TimeVal.ofFrame a).inst (TimeVal.ofFrame b).inst) s1
        (((s2.reloadPorts.stepIndex a b).stepCrevasse a b).stepCores (decide (b < a))))

end Sys2Proof.Machine
end

