-- ==== Sys2Proof/Machine/Trigger.lean ====
section
/-! DEFINITION. The trigger unit, the cores and the slice stream (R264–R296, R457): native units, the sequencer, requests,
the decision point, core read-out through the chains of the store, and the stream reader. -/

namespace Sys2Proof.Machine

/-! ### Arming -/

/-- The sequencer in state 0, with nothing counted (R265, R271). -/
def State.seqIdle (s : State) : State := (s.cset TRG_STAT_SEQ_STATE 0).modTrg fun t => { t with seqCnt := 0, seqAge := 0 }

/-- A write of `TRG_CTRL` (R264, R265, R271, R370, R391). -/
def State.opTrgCtrl (s : State) (m v : Nat) : State × Bool :=
  let mode := bits v 0 2
  let old := s.cget TRG_CTRL_MODE
  let refuse := decide (mode = 3) || (decide (mode ≠ old) && s.con TRG_CTRL_ARM)
  let w := s.writeReg m TRG_CTRL_MODE.reg v
  let s1 := if refuse then (w.1.cset TRG_CTRL_MODE old).cset TRG_STAT_CFG_ERR 1 else w.1
  let s2 := s1.cset TRG_STAT_PWR_HELD 0
  let armed := s.con TRG_STAT_ARMED
  let arm := bitAt v 2
  let s3 := s2.when (!(bitAt v 3)) State.seqIdle
  (s3.modTrg fun t => { t with
    armAsk := arm && !armed && !s.twinStandby, disarmAsk := !arm && armed, askTick := s.tm.tick }, w.2)

/-- The unit is armed with the frame in progress as F_arm (R265, R293). -/
def State.armUnit (s : State) : State :=
  let f := s.frame
  let s1 := ((((s.cset TRG_STAT_ARMED 1).cset TRG_ARM_F_F f).cset TRG_STAT_SEQ_STATE 0).cset TRG_STREAM_POS_SLICE (sliceOf f))
  let s2 := (List.range 16).foldl (fun z n => z.cset (TRG_NU_VAL_HIGH n) 0) s1
  s2.modTrg fun t => { t with
    armAsk := false, disarmAsk := false, armTick := s.tm.tick, nus := [], seqCnt := 0, seqAge := 0, rearm := [],
    streamOn := decide (s.cget TRG_CTRL_MODE ≠ 1), streamEnd := none, streamCur := {}, streamGot := [] }

/-- The unit is disarmed at the tick in progress (R265, R293). -/
def State.disarmUnit (s : State) : State :=
  (s.cset TRG_STAT_ARMED 0).modTrg fun t => { t with
    disarmAsk := false, streamEnd := some (sliceOf (s.frameAt (s.tm.tick - 1))) }

/-- TRIGGER_ARM_WRITE (R264, R265, R370): a write of `TRG_CTRL`. -/
def execTriggerArmWrite (m : MasterIx) (v : W32) (s : State) : Out :=
  .next (s.guarded m.val .control TRG_CTRL_MODE.reg .write fun z => State.answered (z.opTrgCtrl m.val v.toNat) m.val)

/-- TRIGGER_DISARM_WRITE (R264, R265, R370): a write of `TRG_CTRL`. -/
def execTriggerDisarmWrite (m : MasterIx) (v : W32) (s : State) : Out :=
  .next (s.guarded m.val .control TRG_CTRL_MODE.reg .write fun z => State.answered (z.opTrgCtrl m.val v.toNat) m.val)

/-- TRIGGER_ARM (R265, R293): at the tick after the write. -/
def execTriggerArm (s : State) : Out :=
  .next (if s.trg.armAsk && decide (s.trg.askTick < s.tm.tick) then s.armUnit else s)

/-- TRIGGER_DISARM (R265): at the tick after the write; cores in flight continue. -/
def execTriggerDisarm (s : State) : Out :=
  .next (if s.trg.disarmAsk && decide (s.trg.askTick < s.tm.tick) then s.disarmUnit else s)

/-- A write of the trigger block that is refused (R268, R271). -/
def State.trgRefuse (s : State) (a : Nat) : Option Fld :=
  if 0x500100 ≤ a ∧ a < 0x500300 ∧ a % 32 ≤ 8 ∧ s.con TRG_STAT_ARMED then some TRG_STAT_CFG_ERR
  else if 0x500600 ≤ a ∧ a < 0x500640 ∧ s.con TRG_STAT_ARMED ∧ s.con TRG_CTRL_SEQ_EN then some TRG_STAT_CFG_ERR
  else none

/-! ### Native units and the sequencer -/

/-- The sum that a `SEL` chooses; none where it selects no sum (R266). -/
def Sums.select (x : Sums) (sel : Nat) : Option (Nat × Bool) :=
  if sel < 64 then some (x.blocks.getD sel (0, false))
  else if sel < 68 then some (x.regions.getD (sel - 64) (0, false))
  else if sel = 68 then some x.module_ else none

/-- Native unit `n` for the frame whose sums are latched, and whether it crossed (R266, R267, R295); `bad` says that its history
was found uncorrectable. -/
def State.nativeUnit (s : State) (n : Nat) (bad : Bool) : State × Bool :=
  if !(s.con (TRG_NU_CFG_EN n)) then (s, false)
  else
    let w := s.cget (TRG_NU_CFG_WM1 n) + 1
    let sel := s.trg.sums.select (s.cget (TRG_NU_CFG_SEL n))
    let u0 := tget s.trg.nus n {}
    let u := if bad then { u0 with hist := [], incLeft := w } else u0
    let hist := ((sel.getD (0, false)) :: u.hist).take 64
    let win := hist.take w
    let v := (win.map (·.1)).sum
    let inc := win.any (·.2) || decide (0 < u.incLeft)
    let lvl := s.cget (TRG_NU_LEVEL_LEVEL n)
    let high := if u.high then decide (lvl - s.cget (TRG_NU_HYST_HYST n) ≤ v) else decide (lvl ≤ v) && sel.isSome
    let cross := high && !u.high
    let s1 := (((s.cset (TRG_NU_VAL_V n) v).cset (TRG_NU_VAL_INC n) (b2n inc)).cset (TRG_NU_VAL_HIGH n) (b2n high)).modTrg fun t =>
      { t with nus := tset t.nus n {} { hist := hist, high := high, incLeft := u.incLeft - 1 } }
    (s1.when cross fun z => z.cbump (TRG_NU_CNT_CROSS n), cross)

/-- All native units: the crossings, in ascending order. -/
def State.nativeUnits (s : State) (bad : List Nat) : State × List Nat :=
  (List.range 16).foldl (fun z n =>
    let r := z.1.nativeUnit n (bad.contains n)
    (r.1, if r.2 then z.2 ++ [n] else z.2)) (s, [])

/-- The TIN stamps of frame `f` on input `i`, in order (R272). -/
def State.tinStamps (s : State) (f i : Nat) : List TinStamp := (tget s.tm.tin i {}).stamps.filter fun x => decide (x.frame = f)

/-- The condition of a sequencer state (R269). -/
def State.seqCond (s : State) (f : Nat) (crossed : List Nat) (c : Nat) : Bool :=
  if c < 16 then crossed.contains c else if c < 24 then !(s.tinStamps f (c - 16)).isEmpty else decide (c = 24)

/-- The sequencer's evaluation of frame `f`, and whether it makes a candidate (R270, R271). -/
def State.sequencer (s : State) (f : Nat) (crossed : List Nat) : State × Bool :=
  if !(s.con TRG_CTRL_SEQ_EN) then (s.seqIdle, false)
  else
    let st := s.cget TRG_STAT_SEQ_STATE
    let age := s.trg.seqAge
    let cnt := s.trg.seqCnt + b2n (decide (s.cget (TRG_SEQ_HI_DELAY st) ≤ age) && s.seqCond f crossed (s.cget (TRG_SEQ_LO_COND st)))
    let tmo := s.cget (TRG_SEQ_HI_TIMEOUT st)
    let enter (n : Nat) : State := (s.cset TRG_STAT_SEQ_STATE n).modTrg fun t => { t with seqCnt := 0, seqAge := 0 }
    if max 1 (s.cget (TRG_SEQ_LO_COUNT st)) ≤ cnt then (enter (s.cget (TRG_SEQ_LO_NEXT st)), s.con (TRG_SEQ_LO_FIRE st))
    else if tmo ≠ 0 ∧ tmo ≤ age + 1 then (enter (s.cget (TRG_SEQ_LO_FAIL st)), false)
    else (s.modTrg fun t => { t with seqCnt := cnt, seqAge := age + 1 }, false)

/-! ### Decisions -/

/-- A trigger candidate (R277, R279). -/
structure Candidate where
  source : Nat
  t : TimeVal
  frame : Nat
  first : Nat
  last : Nat
  portFirst : Nat
  portLast : Nat
  inc : Bool := false
  reqId : Nat := 0
  invalid : Bool := false
  gone : Bool := false
  partial_ : Bool := false

/-- The candidate of a trigger source in frame `f` at time `t` (R279). -/
def State.sourceCandidate (s : State) (src f : Nat) (t : TimeVal) (inc : Bool) : Candidate :=
  let pf := s.cget (TRG_SRC_PORTS_FIRST src)
  { source := src, t := t, frame := f, first := f - s.cget (TRG_SRC_PRE_PRE src), last := f + s.cget (TRG_SRC_POST_POST src),
    portFirst := pf, portLast := max pf (s.cget (TRG_SRC_PORTS_LAST src)), inc := inc }

/-- The REQ_ID of a request body (R275). -/
def reqIdOf (body : List Byte) : Nat := if 2 ≤ body.length then bodyNat body 0 2 else 0

/-- The candidate of an absolute-time request with the verdicts of R275 (R273, R279, R391). -/
def State.requestCandidate (s : State) (r : Req) : Candidate :=
  let w (i : Nat) : Nat := bodyNat r.body (8 * i) 8
  let ns := bits (w 2) 0 30
  let t : TimeVal := { sec := bits (w 1) 0 48, ns := ns, frac := 0 }
  let a := bits (w 3) 0 28 * 1000
  let b := bits (w 3) 28 28 * 1000
  let at_ := t.sec * 1000000000 + ns
  let lo := at_ - a
  let first := lo / 4000
  let last := (at_ + b) / 4000
  let pf := bits (w 0) 16 10
  let pl := bits (w 0) 26 10
  let now := s.tm.now.sec * 1000000000 + s.tm.now.ns
  let reserved := bits (w 0) 36 28 ≠ 0 ∨ bits (w 1) 48 16 ≠ 0 ∨ bits (w 2) 30 34 ≠ 0 ∨ bits (w 3) 56 8 ≠ 0
  let invalid := r.bad || decide (r.body.length ≠ 32) || decide (1000000000 ≤ ns) || decide (pl < pf) || decide reserved ||
    decide (now + 134000000000 < lo)
  let gone := !s.firn.claimed || s.twinStandby || decide (sliceOf last < s.cget FRN_OLDEST_SLICE)
  let part := decide (sliceOf first < s.cget FRN_OLDEST_SLICE)
  { source := 25, t := t, frame := at_ / 4000, first := first, last := last, portFirst := pf, portLast := pl,
    reqId := reqIdOf r.body, invalid := invalid, gone := gone, partial_ := part }

/-- The core in slot `k`. -/
def State.core (s : State) (k : Nat) : Option Core := tget s.trg.cores k none

/-- Cores in flight counted (R296). -/
def State.showInflight (s : State) : State :=
  s.cset TRG_STAT_INFLIGHT (s.trg.cores.filter fun e => e.2.isSome).length

/-- The core of slot `k` replaced, and its registers with it. -/
def State.setCore (s : State) (k : Nat) (c : Core) : State :=
  let s1 := s.modTrg fun t => { t with cores := tset t.cores k none (some c) }
  ((((((((s1.cset (TRG_CORE_STAT_ACTIVE k) 1).cset (TRG_CORE_STAT_READING k) (b2n c.reading)).cset (TRG_CORE_STAT_TRUNC k)
    (b2n c.trunc)).cset (TRG_CORE_STAT_CLAMPED k) (b2n c.clamped)).cset (TRG_CORE_STAT_PARTIAL k) (b2n c.partial_)).cset
      (TRG_CORE_STAT_SOURCE k) c.source).cset (TRG_CORE_STAT_MERGES k) c.merges).cset (TRG_CORE_SER_SERIAL k) c.serial).cset
        (TRG_CORE_LAST_F k) c.last |>.showInflight

/-- The clamp limit M in slices (R282). -/
def State.clampLimit (s : State) : Nat :=
  let done := s.retained.filter fun e => decide (e.state = 2)
  let newest := done.foldl (fun m e => if m.slice ≤ e.slice then e else m) {}
  let x := max 1 (max (max newest.r0.count newest.r1.count) (max newest.r2.count newest.r3.count))
  let room := leastOf 0 ((List.range 4).map fun r => s.pinQuota r - s.pinnedExtents r)
  max 1 (min (room / x) 131068)

/-- The last frame of a candidate after the clamp, for a core that begins at `first`, and whether the clamp acted (R282). -/
def State.clamp (s : State) (c : Candidate) (first : Nat) : Nat × Bool :=
  let m := s.clampLimit
  if sliceOf c.last + 1 ≤ sliceOf first + m then (c.last, false)
  else (max ((sliceOf first + m) * 256 - 1) c.frame, true)

/-- The read-out of a core may begin at the present tick (R287, R457). -/
def State.readDue (s : State) (c : Core) : Bool :=
  if c.stepBack then (match c.stepTick with | some t => decide (t + 4 ≤ s.tm.tick) | none => true)
  else decide (c.last + 4 ≤ s.frame) && (match c.stepTick with | some t => decide (t + 4 ≤ s.tm.tick) | none => true)

/-- The core that a candidate within its re-arm time merges into (R281, R457). -/
def State.mergeTarget (s : State) (c : Candidate) (r : Rearm) : Option Core :=
  if !(s.con (TRG_SRC_REARM_MERGE c.source)) then none
  else match s.core r.slot with
    | none => none
    | some k =>
      if k.serial = r.serial ∧ !k.reading ∧ !k.aborted ∧ !k.stepBack ∧ !(s.readDue k) then some k else none

/-- The re-arm record of a source set to frame `f`. -/
def State.setRearm (s : State) (src : Nat) (r : Rearm) : State := s.modTrg fun t => { t with rearm := tset t.rearm src none (some r) }

/-- A candidate merged into core `k` of the slot in `r` (R281, R282, R284). -/
def State.mergeCore (s : State) (c : Candidate) (r : Rearm) (k : Core) : State × Decision :=
  let l := s.clamp c k.first
  let last := max k.last l.1
  let n := { k with last := last, merges := min 255 (k.merges + 1), clamped := k.clamped || l.2 }
  let s1 := ((s.setCore r.slot n).extendPin r.slot (sliceOf last)).cbump TRG_CNT0_MERGED
  let s2 := s1.when (l.2 && !k.clamped) fun z => z.cbump TRG_CNT2_CLAMPED
  (s2.setRearm c.source { r with frame := c.frame },
    { source := c.source, outcome := 1, clamped := n.clamped, partial_ := n.partial_, inc := c.inc, slot := r.slot, serial := k.serial })

/-- A candidate accepted into slot `k` (R282–R284); `pos` is its place among the candidates of its decision point. -/
def State.acceptCore (s : State) (c : Candidate) (k pos : Nat) : State × Decision :=
  let l := s.clamp c c.first
  let serial := s.cget TRG_SERIAL_NEXT
  let s1 := s.cset TRG_SERIAL_NEXT (if serial = 0xFFFFFFFF then 1 else serial + 1)
  let s2 := s1.setPin k (sliceOf c.first) (sliceOf l.1)
  let part := c.partial_ || (s2.pin k).partial_
  let n : Core :=
    { source := c.source, serial := serial, t := c.t, reqId := c.reqId, qual := s.qual, inc := c.inc, clamped := l.2,
      partial_ := part, first := c.first, last := l.1, portFirst := c.portFirst, portLast := c.portLast,
      decided := s.tm.tick * 2000 + 1720 + 40 + 8 * (pos + 1) }
  let s3 := ((s2.setCore k n).cbump TRG_CNT0_ACCEPT).when l.2 fun z => z.cbump TRG_CNT2_CLAMPED
  let s4 := if c.source = 25 then s3 else s3.setRearm c.source { frame := c.frame, slot := k, serial := serial }
  (s4, { source := c.source, outcome := 0, clamped := l.2, partial_ := part, inc := c.inc, slot := k, serial := serial })

/-- A candidate decided (R280, R281): the first check that applies gives the outcome. -/
def State.decideOne (s : State) (c : Candidate) (pos : Nat) : State × Decision :=
  let d (o : Nat) : Decision := { source := c.source, outcome := o, inc := c.inc }
  let trig := decide (c.source ≠ 25)
  if c.invalid then (s.cbump TRG_CNT2_BADREQ, d 6)
  else if !trig && c.gone then (s.cbump TRG_CNT1_GONE, d 5)
  else if trig && decide (c.frame < s.cget TRG_ARM_F_F + s.cget (TRG_SRC_PRE_PRE c.source)) then (s.cbump TRG_CNT1_EARLY, d 2)
  else
    let re := if trig then tget s.trg.rearm c.source none else none
    let span := s.cget (TRG_SRC_REARM_REARM c.source)
    let within := match re with | some r => decide (0 < span) && decide (c.frame ≤ r.frame + span) | none => false
    let tgt := match re with | some r => if within then (s.mergeTarget c r).map fun k => (r, k) else none | none => none
    match within, tgt with
    | true, some (r, k) => s.mergeCore c r k
    | true, none => (s.cbump TRG_CNT1_REARM, d 3)
    | false, _ =>
      if trig && decide (s.cget TRG_CTRL_MODE = 0) then
        let old := re.getD { frame := 0, slot := 64, serial := 0 }
        ((s.cbump TRG_CNT0_ACCEPT).setRearm c.source { old with frame := c.frame }, d 8)
      else match (List.range 64).find? fun k => (s.core k).isNone with
        | none => (((s.cbump TRG_CNT1_BUSY).cset TRG_STAT_BUSY_SEEN 1).when ((List.range 64).all fun k => (s.pin k).active) fun z =>
            z.cbump FRN_EVT_PIN_REFUSED, d 4)
        | some k => s.acceptCore c k pos

/-- The response to a request (R276). -/
def State.respond (s : State) (group reqId : Nat) (d : Decision) : State :=
  let last := match s.core d.slot with | some c => if d.serial ≠ 0 then c.last else 0 | none => 0
  s.sendCtrl group (leBytes 8 0x82 ++ wordsBytes [packW [(0, 16, reqId), (16, 4, d.outcome), (20, 6, d.slot), (26, 1, b2n d.clamped),
    (27, 1, b2n d.partial_), (32, 32, d.serial)], packW [(0, 59, last)]])

/-- A decision entry of a PRIM record (R286). -/
def Decision.word (d : Decision) : W64 :=
  packW [(0, 5, d.source), (5, 4, d.outcome), (9, 1, b2n d.clamped), (10, 1, b2n d.partial_), (11, 1, b2n d.inc), (12, 6, d.slot),
    (32, 32, d.serial)]

/-- A sum and its INC as a field of a PRIM record. -/
def sumField (w : Nat) (x : Nat × Bool) : Nat := pack [(0, w, x.1), (w, 1, b2n x.2)]

/-- The PRIM record of the frame whose sums are latched (R286). -/
def State.primRecord (s : State) (ds : List Decision) : List W64 :=
  let x := s.trg.sums
  let blk := s.con TRG_CTRL_PRIM_BLK
  let rg (r : Nat) : Nat := sumField 21 (x.regions.getD r (0, false))
  let bl (i : Nat) : Nat := if i < 64 then sumField 17 (x.blocks.getD i (0, false)) else 0
  [packW [(0, 59, x.frame), (59, 2, s.qual), (61, 1, b2n blk)], packW [(0, 24, sumField 23 x.module_), (24, 5, ds.length)],
    packW [(0, 22, rg 0), (32, 22, rg 1)], packW [(0, 22, rg 2), (32, 22, rg 3)]] ++
    (if blk then (List.range 22).map fun i => packW [(0, 18, bl (3 * i)), (21, 18, bl (3 * i + 1)), (42, 18, bl (3 * i + 2))] else []) ++
    ds.map Decision.word

/-- Candidates decided one after another (R277); `pos` counts them. -/
def State.decideAll (s : State) (pos : Nat) : List Candidate → State × List Decision
  | [] => (s, [])
  | c :: r =>
    let x := s.decideOne c pos
    let y := x.1.decideAll (pos + 1) r
    (y.1, x.2 :: y.2)

/-- Requests decided one after another, each answered (R274, R276). -/
def State.decideRequests (s : State) (pos : Nat) : List Req → State × List Decision
  | [] => (s, [])
  | q :: r =>
    let x := s.decideOne (s.requestCandidate q) pos
    let y := (x.1.respond q.group (reqIdOf q.body) x.2).decideRequests (pos + 1) r
    (y.1, x.2 :: y.2)

/-- The TIN candidates of frame `f`: the first stamp of each enabled input; further ones are counted (R272). -/
def State.tinCandidates (s : State) (f : Nat) : State × List Candidate :=
  (List.range 8).foldl (fun z i =>
    match z.1.tinStamps f i with
    | [] => z
    | x :: more =>
      if s.con (TRG_SRC_REARM_EN (17 + i)) then
        (z.1.cadd TRG_CNT2_TIN_EXTRA more.length, z.2 ++ [z.1.sourceCandidate (17 + i) f x.time false])
      else z) (s, [])

/-- Upsets of the trigger unit's memories found at the decision point (R295). -/
def State.trgUpsets (s : State) (corrected : Nat) (hist : List Nat) (reqs : List Nat) : State :=
  let s1 := (s.cadd TRG_STAT_SRAM_CORR corrected).cadd TRG_STAT_SRAM_UNC (hist.length + reqs.length)
  let s2 := hist.foldl (fun z _ => z.monNotice 6) s1
  let keep := (s.trg.fifo.zipIdx.filter fun e => !(reqs.contains e.2)).map (·.1)
  reqs.foldl (fun z _ => z.logBit TRG_STAT_SRAM_UNC) (s2.modTrg fun t => { t with fifo := keep })

/-- The requests that this decision point takes out of the FIFO (R274). -/
def State.takeRequests (s : State) : List Req × State :=
  let rest := s.trg.fifo.drop 4
  (s.trg.fifo.take 4, (s.modTrg fun t => { t with fifo := rest }).cset TRG_REQQ_FILL rest.length)

/-- DECISION_POINT (R264–R286, R295, R457): of the frame two ticks back, whose sums have been presented. The operands list the
memory words found corrected, and the window histories and requests found uncorrectable. -/
def execDecisionPoint (corrected : Nat) (badHistories : List (Fin 16)) (badRequests : List (Fin 64)) (s : State) : Out :=
  .next (
    let k := s.trg.sums.tick
    if s.tm.tick ≠ k + 2 ∨ s.trg.decidedTick = some k then s
    else
      let f := s.trg.sums.frame
      let bad := badHistories.map (·.val)
      let s0 := (s.toInst (3440 * 65536)).trgUpsets corrected bad (badRequests.map (·.val))
      let eval := s0.con TRG_STAT_ARMED && decide (s0.trg.armTick ≤ k)
      let nu := if eval then s0.nativeUnits bad else (s0, [])
      let sq := if eval then nu.1.sequencer f nu.2 else (nu.1, false)
      let tn := if eval then sq.1.tinCandidates f else (sq.1, [])
      let t := TimeVal.ofFrame f
      let z := tn.1
      let early := (if sq.2 then [z.sourceCandidate 0 f t false] else []) ++
        ((nu.2.filter fun n => z.con (TRG_NU_CFG_CORE n)).map fun n => z.sourceCandidate (1 + n) f t (z.con (TRG_NU_VAL_INC n)))
      let d1 := z.decideAll 0 early
      let rq := d1.1.takeRequests
      let d2 := rq.2.decideRequests early.length rq.1
      let d3 := d2.1.decideAll (early.length + rq.1.length) tn.2
      let ds := d1.2 ++ d2.2 ++ d3.2
      let s4 := d3.1.modTm fun m => { m with tin := tmap m.tin {} fun _ x => { x with stamps := x.stamps.filter fun y => decide (f < y.frame) } }
      let prim := if eval then some (s4.primRecord ds) else none
      s4.modTrg fun x => { x with decidedTick := some k, prim := prim })

/-- PRIM_QUEUED (R278, R286, R306, R309): the record of the decided frame goes into class 1 of its groups. -/
def execPrimQueued (s : State) : Out :=
  .next (match s.trg.prim with
    | none => s
    | some ws => (s.enqueueAll (s.groupsOf (s.cget TRG_CTRL_PRIM_GRPS)) 1 { typ := 3, words := ws }).modTrg fun t => { t with prim := none })

/-- The group a mailbox request is answered on (R319). -/
def State.mailGroup (s : State) : Nat := (s.groupsOf (s.cget UPL_CFG_MONLOG_GRPS)).headD 0

/-- REQUEST_ARRIVAL (R273–R276, R304, R319, R347, R391): from a CTRL packet with its whole payload, or from the mailbox with its body. -/
def execRequestArrival (lane : Option (Fin 8)) (body : List Byte) (s : State) : Out :=
  .next (
    let group := match lane with | some j => s.cget (UR_CFG_GROUP j.val) | none => s.mailGroup
    let bad := match lane with
      | some _ => decide (body.length ≠ 40) || ((body.drop 1).take 7).any fun b => decide (b ≠ 0)
      | none => decide (body.length ≠ 32)
    let inner := match lane with | some _ => body.drop 8 | none => body
    let refuse := !(s.con TRG_CTRL_REQ_EN) || (lane.isSome && s.frozen 17)
    let heard := match lane with | some j => decide (s.cget (UR_STAT_STATE j.val) = 2) | none => true
    if !heard then s
    else if refuse then (s.cbump TRG_CNT2_BADREQ).respond group (reqIdOf inner) { source := 25, outcome := 6 }
    else if 64 ≤ s.trg.fifo.length then (s.cbump TRG_CNT2_QFULL).respond group (reqIdOf inner) { source := 25, outcome := 7 }
    else (s.modTrg fun t => { t with fifo := t.fifo ++ [{ body := inner, group := group, bad := bad }] }).cset TRG_REQQ_FILL
      (s.trg.fifo.length + 1))

/-! ### Reading chains -/

/-- Where a reader of a chain stands: extent, its GEN, byte offset; `past` says that it has come beyond the last line it has received. -/
structure ChainPos where
  ext : Nat
  gen : Nat
  off : Nat
  past : Bool := false

/-- What a reader of a chain needs to know beside the store. -/
structure ChainCtx where
  region : Nat
  slice : Nat
  lastx : Nat
  endb : Nat
  /-- Statuses its line reads returned, where they were not OK or CORRECTED. -/
  got : Tab Nat
  /-- Extent and number of the last line received; none where there is no such bound. -/
  lim : Option (Nat × Nat) := none

/-- The reader's extent has been freed since, or taken for another slice (R234, R237). -/
def State.extGone (s : State) (x : ChainCtx) (p : ChainPos) : Bool :=
  let e := s.ext x.region p.ext
  decide (e.gen ≠ p.gen) || decide (e.state = 0) || decide (e.state = 3)

/-- The end of the data in the reader's extent (R239, R253); of one that is gone it cannot tell. -/
def State.extEnd (s : State) (x : ChainCtx) (p : ChainPos) : Nat :=
  if p.ext = x.lastx then x.endb else if s.extGone x p then 4194304 else min 4194304 ((s.ext x.region p.ext).hwm * 64)

/-- Status and bytes of a line as the reader sees them (R237). -/
def State.chainLine (s : State) (x : ChainCtx) (p : ChainPos) (l : Nat) : Nat × List Byte :=
  let a := mkFirnAddr x.region p.gen p.ext l
  let r := s.lineStatus a ⟨[]⟩
  match x.got.find? fun e => decide (e.1 = a) with
  | some e => (e.2, r.2.1)
  | none => (r.1, r.2.1)

/-- Why bytes of a chain cannot be used. -/
inductive ReadStop where
  | unwritten
  | calved
  | wait
  | bad (line : Nat)
  deriving DecidableEq, Repr

/-- Line `l` of the reader's extent has not been received yet. -/
def ChainCtx.waits (x : ChainCtx) (p : ChainPos) (l : Nat) : Bool :=
  p.past || (match x.lim with | some (e, m) => decide (p.ext = e) && decide (m < l) | none => false)

/-- `n` lines from line `l` on. Below END every line of a unit has been written, unless a write failure closed the extent under it (R253,
R289). -/
def State.chainLines (s : State) (x : ChainCtx) (p : ChainPos) : Nat → Nat → Except ReadStop (List Byte)
  | 0, _ => .ok []
  | n + 1, l =>
    let r := s.chainLine x p l
    if r.1 = 5 then .error .calved
    else if x.waits p l then .error .wait
    else if r.1 = 2 then .error .unwritten
    else if r.1 = 3 ∨ r.1 = 4 then .error (.bad l)
    else match s.chainLines x p n (l + 1) with
      | .ok bs => .ok (r.2 ++ bs)
      | .error e => .error e

/-- `n` bytes at the reader's position. -/
def State.chainBytes (s : State) (x : ChainCtx) (p : ChainPos) (n : Nat) : Except ReadStop (List Byte) :=
  if s.extEnd x p < p.off + n then .error .unwritten
  else match s.chainLines x p ((p.off + n - 1) / 64 + 1 - p.off / 64) (p.off / 64) with
    | .ok bs => .ok ((bs.drop (p.off % 64)).take n)
    | .error e => .error e

/-- The start of the extent chained to the reader's, if there is one and it belongs to the slice. -/
def State.nextPos (s : State) (x : ChainCtx) (p : ChainPos) : Option ChainPos :=
  let e := s.ext x.region p.ext
  let n := s.ext x.region e.next
  if p.ext = x.lastx ∨ e.last ∨ n.slice ≠ x.slice % 131072 ∨ ¬(n.state = 1 ∨ n.state = 2) then none
  else some { ext := e.next, gen := n.gen, off := 0, past := p.past || (match x.lim with | some (l, _) => decide (p.ext = l) | none => false) }

/-- Where a reader goes on with `n` more bytes that are never split: here, or at the chained extent (R222). -/
def State.roomPos (s : State) (x : ChainCtx) (p : ChainPos) (n : Nat) : ChainPos :=
  if p.ext ≠ x.lastx ∧ 4194304 < p.off + n then (s.nextPos x p).getD p else p

/-- The raw records of a unit. -/
def State.readRaw (s : State) (x : ChainCtx) : Nat → ChainPos → Except (ReadStop × ChainPos) (List Byte × ChainPos)
  | 0, p => .ok ([], p)
  | n + 1, p0 =>
    let p := s.roomPos x p0 8
    match s.chainBytes x p 8 with
    | .error e => .error (e, p)
    | .ok b => match s.readRaw x n { p with off := p.off + 8 } with
      | .ok (r, q) => .ok (b ++ r, q)
      | .error e => .error e

/-- The code words of a unit with `left` payload bytes to come (R218, R222); `fuel` bounds them. -/
def State.readCoded (s : State) (x : ChainCtx) : Nat → Nat → ChainPos → Except (ReadStop × ChainPos) (List Byte × ChainPos)
  | 0, _, p => .ok ([], p)
  | fuel + 1, left, p0 =>
    if left = 0 then .ok ([], p0)
    else
      let p1 := s.roomPos x p0 1
      match s.chainBytes x p1 1 with
      | .error e => .error (e, p1)
      | .ok b1 =>
        let p := if b1.headD 0 = 0xE1 then (s.nextPos x p1).getD p1 else p1
        match s.chainBytes x p 1 with
        | .error e => .error (e, p)
        | .ok b =>
          let v := (b.headD 0).toNat
          let n := min left (1 + (if v < 0x80 then v + 1 else if v < 0xC0 then 1 else if v < 0xE0 then 2 else 0))
          match s.chainBytes x p n with
          | .error e => .error (e, p)
          | .ok w => match s.readCoded x fuel (left - n) { p with off := p.off + n } with
            | .ok (r, q) => .ok (w ++ r, q)
            | .error e => .error e

/-- One unit at a header boundary: header and payload (R216, R225). Where no unit begins, a region reset or a write failure has closed the
extent below its end, and the reader goes on at the chained extent (R244, R253, R260; log entry 96). -/
def State.readUnit (s : State) (x : ChainCtx) (p : ChainPos) : Except (ReadStop × ChainPos) (List Byte × ChainPos) :=
  match s.chainBytes x p 16 with
  | .error e => .error (e, p)
  | .ok h =>
    let w1 := bodyNat h 8 8
    let q := { p with off := p.off + 16 }
    let mark := bodyNat h 0 1
    if mark ≠ 0xB1 ∧ mark ≠ 0xB2 ∧ mark ≠ 0xB3 then .error (.unwritten, p)
    else
    let body := if mark = 0xB2 then s.readRaw x (bits w1 0 9) q
      else if mark = 0xB1 then s.readCoded x 4096 (bits w1 9 12) q else .ok ([], q)
    match body with
    | .ok (b, r) => .ok (h ++ b, r)
    | .error e => .error e

/-- After a bad line at `p`, the next extent in which a unit begins, and the bytes skipped to that unit (R289). -/
def State.skipBad (s : State) (x : ChainCtx) : Nat → ChainPos → Nat → Nat × Option ChainPos
  | 0, _, n => (n, none)
  | fuel + 1, p, n =>
    let n1 := n + (s.extEnd x p - p.off)
    match s.nextPos x p with
    | none => (n1, none)
    | some q =>
      let f := (s.ext x.region q.ext).fofs
      if f = 0x7FFFFF then s.skipBad x fuel q n1 else (n1 + f, some { q with off := f })

/-- One thing a reader of a chain puts out. -/
inductive ChainOut where
  | unit (bytes : List Byte)
  | damaged (addr skipped : Nat)
  deriving DecidableEq, Repr

/-- How the reading of a chain or of a slice ended: all of it read, a line CALVED, or lines to come. -/
inductive Verdict where
  | done
  | calved
  | wait
  deriving DecidableEq, Repr

/-- How a chain ends where no extent follows the reader's. -/
def State.chainEnd (s : State) (x : ChainCtx) (p : ChainPos) : Verdict := if s.extGone x p then .calved else .done

/-- A region's chain of a slice read on from `p`, as far as its lines have been received (R239, R253, R288, R289): what it gives, where
the next unit begins, and how the reading ended. -/
def State.readChain (s : State) (x : ChainCtx) : Nat → ChainPos → List ChainOut × ChainPos × Verdict
  | 0, p => ([], p, .done)
  | fuel + 1, p =>
    if p.ext = x.lastx ∧ x.endb ≤ p.off then ([], p, .done)
    else if p.ext ≠ x.lastx ∧ s.extEnd x p < p.off + 16 then
      match s.nextPos x p with
      | some q => s.readChain x fuel q
      | none => ([], p, s.chainEnd x p)
    else match s.readUnit x p with
      | .ok (b, q) => let r := s.readChain x fuel q; (.unit b :: r.1, r.2)
      | .error (.calved, _) => ([], p, .calved)
      | .error (.wait, _) => ([], p, .wait)
      | .error (.unwritten, q) => match s.nextPos x q with
        | some n => s.readChain x fuel n
        | none => ([], p, s.chainEnd x q)
      | .error (.bad l, q) =>
        let k := s.skipBad x 256 { q with off := l * 64 } 0
        let o := ChainOut.damaged (mkFirnAddr x.region q.gen q.ext l) k.1
        match k.2 with
        | some n => let r := s.readChain x fuel n; (o :: r.1, r.2)
        | none => ([o], p, .done)

/-! ### Units of a slice -/

/-- The full frame number of a unit with `FRAME` bits `f` in slice `k` (R288). -/
def fullFrame (k f : Nat) : Nat := let l := k * 256 + 255; l - (l + 2 ^ 38 - f) % 2 ^ 38

/-- A unit of slice `k` is selected for frames [first, last] and ports [pf, pl] (R225, R288). -/
def unitSelected (k first last pf pl : Nat) (u : List Byte) : Bool :=
  let w0 := bodyNat u 0 8
  let w1 := bodyNat u 8 8
  let f := fullFrame k (bits w0 26 38)
  let p := bits w0 16 10
  if bits w0 0 8 = 0xB3 then
    let n := bits w1 8 22
    let skipped := n + bits w1 32 32 * 2 ^ 22
    let lo := if bits w1 0 4 = 3 then f - skipped else f
    let hi := if bits w1 0 4 = 3 then f - 1 else f + n - 1
    let size := match bits w1 4 2 with | 0 => 1 | 1 => 16 | 2 => 256 | _ => 1024
    decide (lo ≤ last) && decide (first ≤ hi) && decide (p ≤ pl) && decide (pf < p + size)
  else decide (first ≤ f) && decide (f ≤ last) && decide (pf ≤ p) && decide (p ≤ pl)

/-- A note (R292). -/
def noteBytes (kind region all part n w1 : Nat) : List Byte :=
  wordsBytes [packW [(0, 8, 0xC2), (8, 4, kind), (12, 2, region), (14, 1, all), (15, 1, part), (32, 32, n)], BitVec.ofNat 64 w1]

/-- The part of an entry that belongs to region `r`. -/
def IxEntry.rgn (e : IxEntry) (r : Nat) : IxRegion := match r with | 0 => e.r0 | 1 => e.r1 | 2 => e.r2 | _ => e.r3

/-- How much of what a reader asked for has been received: nothing more, everything up to a line of region `region` of slice `slice`, or
all of it. -/
inductive ReadLimit where
  | nothing
  | upTo (slice region ext line : Nat)
  | all
  deriving DecidableEq, Repr

/-- What a limit says of region `r` of slice `k`: no line of it has been received, and the line at which it ends. -/
def ReadLimit.on (x : ReadLimit) (k r : Nat) : Bool × Option (Nat × Nat) :=
  match x with
  | .nothing => (true, none)
  | .all => (false, none)
  | .upTo k0 r0 e l => if k < k0 ∨ (k = k0 ∧ r < r0) then (false, none) else if k = k0 ∧ r = r0 then (false, some (e, l)) else (true, none)

/-- What the part of slice `k` in region `r` gives from `pos` on (R288, R289). -/
def State.regionItems (s : State) (e : IxEntry) (k r : Nat) (pos : Option (Nat × Nat × Nat)) (sel : List Byte → Bool) (got : Tab Nat)
    (lim : ReadLimit) : List OutItem × ChainPos × Verdict :=
  let x := e.rgn r
  let c : ChainCtx := { region := r, slice := k, lastx := x.lastx, endb := x.endb, got := got, lim := (lim.on k r).2 }
  let p := pos.getD (x.first, x.fgen, 0)
  let p0 : ChainPos := { ext := p.1, gen := p.2.1, off := p.2.2, past := (lim.on k r).1 }
  let w := if x.count = 0 then ([], p0, .done) else s.readChain c (2 ^ 22) p0
  let items := w.1.filterMap fun o => match o with
    | .unit b => if sel b then some { bytes := b, isCrev := decide (bodyNat b 0 1 = 0xB3) } else none
    | .damaged a n => some { bytes := noteBytes 2 r 0 0 n a, isNote := true, damaged := true : OutItem }
  let wf : List OutItem :=
    if bitAt e.wfail r && decide (w.2.2 = .done) then [{ bytes := noteBytes 3 r 0 0 0 k, isNote := true, wfail := true }] else []
  (items ++ wf, w.2)

/-- What the regions of slice `c.slice` give from where the cursor stands; reading stops at the first CALVED line and at the first line that
has not been received. -/
def State.sliceItems (s : State) (e : IxEntry) (sel : List Byte → Bool) (got : Tab Nat) (lim : ReadLimit) :
    Nat → Cursor → List OutItem × Cursor × Verdict
  | 0, c => ([], c, .done)
  | n + 1, c =>
    let a := s.regionItems e c.slice c.region c.pos sel got lim
    match a.2.2 with
    | .done => let b := s.sliceItems e sel got lim n { c with region := c.region + 1, pos := none }; (a.1 ++ b.1, b.2)
    | v => (a.1, { c with pos := some (a.2.1.ext, a.2.1.gen, a.2.1.off) }, v)

/-- Slice `k` is gone: its entry is CALVED or holds another slice, and it had been claimed. -/
def State.sliceGone (s : State) (k : Nat) : Bool :=
  let e := s.ixe k
  if e.slice = k then decide (e.state = 3) else decide (k ≤ s.cget FRN_HEAD_SLICE)

/-- Slices from `k` on that are gone, at most `n`. -/
def State.goneRun (s : State) : Nat → Nat → Nat
  | 0, _ => 0
  | n + 1, k => if s.sliceGone k then s.goneRun n (k + 1) + 1 else 0

/-- A note of kind 1 over `m` slices from `k` on (R288, R289, R292). -/
def calvedNote (m k : Nat) : OutItem := { bytes := noteBytes 1 0 1 0 m k, isNote := true, gone := true }

/-- A core read on as far as its lines have been received (R288–R290): each slice of its range begins with a snapshot of its entry; a CALVED
one, and one whose line reads CALVED, is covered with every further calved slice by a note of kind 1. -/
def State.coreOn (s : State) (lim : ReadLimit) : Nat → Core → Core
  | 0, c => c
  | fuel + 1, c =>
    let k := c.cur.slice
    let left := sliceOf c.last + 1 - k
    if left = 0 then c
    else match c.cur.entry with
      | none =>
        if s.sliceGone k then
          let m := max 1 (s.goneRun left k)
          s.coreOn lim fuel { c with items := c.items ++ [calvedNote m k], cur := { slice := k + m } }
        else if (s.ixe k).slice ≠ k ∨ (s.ixe k).state = 0 then s.coreOn lim fuel { c with cur := { slice := k + 1 } }
        else s.coreOn lim fuel { c with cur := { slice := k, entry := some (s.ixe k) } }
      | some e =>
        let w := s.sliceItems e (unitSelected k c.first c.last c.portFirst c.portLast) c.got lim (4 - c.cur.region) c.cur
        match w.2.2 with
        | .done => s.coreOn lim fuel { c with items := c.items ++ w.1, cur := { slice := k + 1 } }
        | .wait => { c with items := c.items ++ w.1, cur := w.2.1 }
        | .calved =>
          let m := 1 + s.goneRun (left - 1) (k + 1)
          s.coreOn lim fuel { c with items := c.items ++ w.1 ++ [calvedNote m k], cur := { slice := k + m } }

/-- Enough turns of `coreOn` for the rest of a core's range. -/
def Core.turns (c : Core) : Nat := 2 * (sliceOf c.last + 1 - c.cur.slice) + 1

/-! ### Core read-out -/

/-- Bytes put out by a core. -/
def Core.put (c : Core) (bs : List Byte) : Core := { c with bytes := c.bytes + bs.length, crc := crc32cAux c.crc bs, out := c.out ++ bs }

/-- An item put out by a core. -/
def Core.putItem (c : Core) (i : OutItem) : Core :=
  let d := c.put i.bytes
  { d with
    units := if i.isNote then d.units else d.units + 1, notes := if i.isNote then d.notes + 1 else d.notes
    crevs := if i.isCrev then d.crevs + 1 else d.crevs, damaged := d.damaged || i.damaged, wfail := d.wfail || i.wfail
    gone := d.gone || i.gone }

/-- Items put out, until `n` bytes wait for a packet (R287, R291): the last of them may be cut by the packet, and it is the item in progress. -/
def Core.fill (n : Nat) : List OutItem → Core → Core
  | [], c => { c with items := [] }
  | i :: r, c => if n ≤ c.out.length then { c with items := i :: r } else Core.fill n r (c.putItem i)

/-- The core header (R292). -/
def State.coreHeader (s : State) (k : Nat) (c : Core) : List Byte :=
  wordsBytes [packW [(0, 8, 0xC1), (8, 8, s.cid), (16, 6, k), (22, 5, c.source), (32, 32, c.serial)],
    packW [(0, 48, c.t.sec), (48, 16, if c.source = 25 then c.reqId else 0)],
    packW [(0, 30, c.t.ns), (30, 16, c.t.frac), (46, 2, c.qual), (48, 1, b2n c.inc), (49, 1, b2n c.clamped), (50, 1, b2n c.partial_),
      (51, 8, c.merges)], packW [(0, 59, c.first)], packW [(0, 59, c.last)], packW [(0, 10, c.portFirst), (16, 10, c.portLast)]]

/-- The core trailer (R292). -/
def State.coreTrailer (s : State) (k : Nat) (c : Core) : List Byte :=
  wordsBytes [packW [(0, 8, 0xC3), (8, 8, s.cid), (16, 6, k), (22, 1, b2n c.trunc), (23, 1, b2n c.damaged), (24, 1, b2n c.wfail),
    (25, 1, b2n (c.partial_ || c.gone)), (26, 1, b2n c.clamped), (27, 1, b2n c.aborted), (32, 32, c.serial)],
    packW [(0, 32, c.units), (32, 32, c.notes)], BitVec.ofNat 64 c.bytes,
    packW [(0, 32, Nat.xor c.crc 0xFFFFFFFF), (32, 32, c.crevs)]]

/-- The group that takes what is meant for group `g`: itself, or the next group in RUN while it is DOWN (R301). -/
def State.liveGroup (s : State) (g : Nat) : Nat :=
  if s.cget (UG_STAT_STATE g) ≠ 2 then g
  else (((List.range 4).map fun i => (g + i) % 4).find? fun h => s.groupRun h).getD g

/-- The uplink group of slot `k` (R285, R301). -/
def State.coreGroup (s : State) (k : Nat) : Nat := s.liveGroup (k % s.groupCount)

/-- A packet of `bs`, at most 8 KB (R306, R310). -/
def bytesPkt (typ slot serial : Nat) (bs : List Byte) : Pkt :=
  { typ := typ, slot := slot, serial := serial, pad := (8 - bs.length % 8) % 8, words := bytesWords bs }

/-- Queue `q` of group `g` has room for a packet (R309). -/
def State.hasRoom (s : State) (g q : Nat) (x : Pkt) : Bool := decide ((s.queue g q).level + x.level ≤ queueCapacity q)

/-- The core of slot `k` with items put out for its next packet, if that packet is ready: whole, the header, or the core's last. -/
def State.corePacket (s : State) (k : Nat) : Option Core :=
  match s.core k with
  | none => none
  | some c =>
    let d := if c.flush ∨ c.ended then c else Core.fill 8192 c.items c
    if d.out.isEmpty ∨ (d.out.length < 8192 ∧ !d.ended ∧ !d.flush) then none else some d

/-- A slot whose trailer is queued becomes free (R283). -/
def State.freeSlot (s : State) (k : Nat) : State :=
  match s.core k with
  | some c =>
    if c.ended && c.out.isEmpty then
      (((s.modTrg fun t => { t with cores := tset t.cores k none none }).cset (TRG_CORE_STAT_ACTIVE k) 0).cset
        (TRG_CORE_STAT_READING k) 0).showInflight
    else s
  | none => s

/-- The slot whose turn it is on group `g`: the next one in ascending order that has a packet ready (R287). -/
def State.nextCore (s : State) (g : Nat) : Option (Nat × Core) :=
  let ready := (s.trg.cores.map (·.1)).filterMap fun k => if s.coreGroup k = g then (s.corePacket k).map fun c => (k, c) else none
  match ready.find? fun e => decide (tget s.trg.coreTurn g 64 < e.1) with
  | some e => some e
  | none => ready.head?

/-- The cores of group `g` served round-robin, one CORE packet of at most 8 KB per turn, while its queue has room; `n` bounds the turns
(R283, R287). -/
def State.feedGroup (s : State) (g : Nat) : Nat → State
  | 0 => s
  | n + 1 =>
    match s.nextCore g with
    | none => s
    | some (k, c) =>
      let p := bytesPkt 2 k c.serial (c.out.take 8192)
      if s.hasRoom g 2 p then
        let s1 := s.enqueue g 2 p
        ((s1.modTrg fun t => { t with
          cores := tset t.cores k none (some { c with out := c.out.drop 8192, flush := false }), coreTurn := tins t.coreTurn g k }).freeSlot k).feedGroup g n
      else s

/-- The cores of every group served (R287). -/
def State.coreFeed (s : State) (n : Nat) : State := (List.range 4).foldl (fun z g => z.feedGroup g n) s

/-- The core of slot `k` reads on as far as `lim` says, and what it gives is served. -/
def State.coreAdvance (s : State) (k : Nat) (c : Core) (lim : ReadLimit) : State := (s.setCore k (s.coreOn lim c.turns c)).coreFeed 64

/-- CORE_READOUT_START (R285, R287, R288, R292, R342, R457): the read-out of slot `k` begins with its header. -/
def execCoreReadoutStart (k : CoreIx) (s : State) : Out :=
  .next (match s.core k.val with
    | none => s
    | some c =>
      let cc := s.tm.tick * 2000 + s.tm.now.ns % 4000 / 2
      if c.reading ∨ c.aborted ∨ !(s.readDue c) ∨ cc < c.decided + 32 ∨ s.hibernating then s
      else
        let d := ({ c with reading := true, flush := true, cur := { slice := sliceOf c.first } } : Core).put (s.coreHeader k.val c)
        (s.coreAdvance k.val d .nothing).paceAll 11 0)

/-- The store read for slot `k`, and its pin cleared (R250, R288–R290). -/
def State.coreRead (s : State) (k : Nat) (c : Core) : State :=
  ((s.setCore k { s.coreOn .all c.turns c with read := true, got := [] }).clearPin k).coreFeed 64

/-- PIN_CLEAR (R248, R250, R288): the last line of a core's last slice has been received. -/
def execPinClear (k : CoreIx) (s : State) : Out :=
  .next (match s.core k.val with
    | none => s.clearPin k.val
    | some c => if c.reading && !c.read && !s.hibernating then s.coreRead k.val c else if c.read then s.clearPin k.val else s)

/-- The trailer put out after the last item (R291, R292). -/
def State.putTrailer (s : State) (k : Nat) (c : Core) : Core :=
  let d := c.items.foldl Core.putItem { c with items := [] }
  { d with out := d.out ++ s.coreTrailer k d, ended := true }

/-- CORE_COMPLETE (R283, R291, R292): the trailer is put out, and the slot is free once it is queued. -/
def execCoreComplete (k : CoreIx) (s : State) : Out :=
  .next (match s.core k.val with
    | none => s
    | some c0 =>
      if !(c0.reading || c0.aborted) || s.hibernating then s
      else
        let s1 := if c0.read || c0.aborted then s else s.coreRead k.val c0
        match s1.core k.val with
        | none => s1
        | some c => ((if c.ended then s1 else s1.setCore k.val (s1.putTrailer k.val c)).coreFeed 64).freeSlot k.val)

/-- A write of `TRG_ABORT` (R291): items not yet begun are not sent; it does nothing for a slot that is not in flight. -/
def State.opTrgAbort (s : State) (v : Nat) : State :=
  let k := bits v 0 6
  match s.core k with
  | none => s
  | some c => if bitAt v 6 && !c.ended then (s.setCore k { c with aborted := true, read := true, items := [], got := [] }).clearPin k else s

/-- CORE_ABORT (R291): a write of `TRG_ABORT`. -/
def execCoreAbort (m : MasterIx) (v : W32) (s : State) : Out :=
  .next (s.guarded m.val .control TRG_ABORT_SLOT.reg .write fun z => (z.opTrgAbort v.toNat).answer m.val false 0)

/-! ### The slice stream -/

/-- The group of slice `k` (R293, R301, R306). -/
def State.streamGroupOf (s : State) (k : Nat) : Nat :=
  let gs := s.groupsOf (s.cget TRG_STREAM_GRPS)
  s.liveGroup (gs.getD (k % gs.length) 0)

/-- Stream bytes cut into SLICE packets while their queue has room; a slice ends with a packet that may be short (R293, R309). -/
def State.streamFeed (s : State) : Nat → State
  | 0 => s
  | n + 1 =>
    if s.trg.streamOut.isEmpty ∨ (s.trg.streamOut.length < 8192 ∧ s.trg.streamCur.entry.isSome) then s
    else
      let p := bytesPkt 1 0 0 (s.trg.streamOut.take 8192)
      let g := s.trg.streamGroup
      if s.hasRoom g 4 p then
        ((s.enqueue g 4 p).modTrg fun t => { t with streamOut := t.streamOut.drop 8192 }).streamFeed n
      else s

/-- The slice marker (R293). -/
def State.sliceMarker (s : State) (e : IxEntry) (k : Nat) : List Byte :=
  wordsBytes [packW [(0, 8, 0xC4), (8, 8, s.cid), (16, 2, e.state), (18, 1, b2n e.damaged), (19, 1, b2n e.crev), (20, 4, e.wfail),
    (24, 2, e.qual), (32, 32, e.units)], BitVec.ofNat 64 k]

/-- The newest COMPLETE slice; 0 where there is none. -/
def State.newestComplete (s : State) : Nat := (s.retained.filter fun e => decide (e.state = 2)).foldl (fun m e => max m e.slice) 0

/-- Bytes of slice `k` put out by the stream, with the reader at `cur`; a slice's group is chosen with its first bytes. -/
def State.streamPut (s : State) (k : Nat) (bs : List Byte) (cur : Cursor) : State :=
  let g := if s.trg.streamCur.entry.isSome then s.trg.streamGroup else s.streamGroupOf k
  s.modTrg fun t => { t with streamOut := t.streamOut ++ bs, streamGroup := g, streamCur := cur }

/-- The stream reader goes on to slice `k`. -/
def State.streamTo (s : State) (k : Nat) : State := (s.modTrg fun t => { t with streamCur := {}, streamGot := [] }).cset TRG_STREAM_POS_SLICE k

/-- A jump of the stream over calved slices; `part`: something of slice `k` has been sent (R294). -/
def State.streamJump (s : State) (k : Nat) (part : Bool) : State :=
  let dest := max (k + 1) (min (s.cget FRN_EDGE_SLICE + s.cget TRG_STREAM_MARGIN) s.newestComplete)
  ((((s.streamPut k (noteBytes 4 0 1 (b2n part) (dest - k) k) {}).streamTo dest).cbump TRG_STREAM_STAT_GAPS).cset TRG_STAT_GAP_SEEN 1)

/-- The slice at `TRG_STREAM_POS` read on as far as its lines have been received: its marker, then its items, or a jump (R289, R293, R294). -/
def State.streamOn (s : State) (lim : ReadLimit) : State :=
  let k := s.cget TRG_STREAM_POS_SLICE
  let begun := s.trg.streamCur.entry.isSome
  let e := s.trg.streamCur.entry.getD (s.ixe k)
  let cur : Cursor := if begun then s.trg.streamCur else { slice := k, entry := some e }
  let w := if e.state = 0 then ([], cur, Verdict.done) else s.sliceItems e (fun _ => true) s.trg.streamGot lim (4 - cur.region) cur
  let s1 := s.streamPut k ((if begun then [] else s.sliceMarker e k) ++ w.1.flatMap fun i => i.bytes) w.2.1
  (match w.2.2 with
    | .done => s1.streamTo (k + 1)
    | .wait => s1
    | .calved => s1.streamJump k true).streamFeed 128

/-- The stream reader may read at `TRG_STREAM_POS` now: it runs, what it put out before has left, and the slice is COMPLETE or EMPTY (R293). -/
def State.streamDue (s : State) : Bool :=
  let k := s.cget TRG_STREAM_POS_SLICE
  s.trg.streamOn && !s.hibernating && (s.trg.streamCur.entry.isSome || s.trg.streamOut.isEmpty) &&
    (match s.trg.streamEnd with | some e => decide (k ≤ e) | none => true)

/-- STREAM_SLICE_READ (R293, R294): the next slice is sent whole to its group, or the reader jumps. -/
def execStreamSliceRead (s : State) : Out :=
  .next (
    let s0 := s.streamFeed 128
    let k := s0.cget TRG_STREAM_POS_SLICE
    if !s0.trg.streamOn || s0.hibernating || (s0.trg.streamCur.entry.isNone && !s0.trg.streamOut.isEmpty) then s0
    else if !s0.streamDue then s0.modTrg fun t => { t with streamOn := false }
    else if s0.trg.streamCur.entry.isSome then s0.streamOn .all
    else if s0.sliceGone k then (s0.streamJump k false).streamFeed 128
    else if (s0.ixe k).slice ≠ k ∨ (s0.ixe k).state = 1 then s0
    else s0.streamOn .all)

/-! ### Lines received -/

/-- What the return of the line at address `a` lets a reader at slice `k`, whose range ends at slice `last`, go on with: everything up to that
line (R254: lines return in the order in which they were asked for). Where the line is of no slice of the range, nothing. -/
def State.limitAt (s : State) (k last a : Nat) : ReadLimit :=
  let (r, _, e, l) := firnAddr a
  let d := ((s.ext r e).slice + 131072 - k % 131072) % 131072
  if d ≤ last - k ∧ k ≤ last then .upTo (k + d) r e l else .nothing

/-- A line's status and data reach their requester (R288, R289, R341): a core or the stream goes on with what it has received. -/
def State.deliver (s : State) (w : Requester) (a st : Nat) (d : List Byte) : State :=
  match w with
  | .core k =>
    match s.core k.val with
    | some c =>
      if c.reading && !c.read then
        let c1 := if st ≤ 1 then c else { c with got := tins c.got a st }
        s.coreAdvance k.val c1 (if st = 5 then (if s.sliceGone c.cur.slice then .upTo (c.cur.slice + 1) 0 131072 0 else .nothing)
          else s.limitAt c.cur.slice (sliceOf c.last) a)
      else s
    | none => s
  | .stream =>
    let k := s.cget TRG_STREAM_POS_SLICE
    let s1 := if st ≤ 1 then s else s.modTrg fun t => { t with streamGot := tins t.streamGot a st }
    let s2 := s1.streamFeed 128
    if !s2.streamDue then s2
    else if s2.trg.streamCur.entry.isSome then s2.streamOn (if st = 5 ∧ s2.sliceGone k then .all else s2.limitAt k k a)
    else if s2.sliceGone k ∨ (s2.ixe k).slice ≠ k ∨ (s2.ixe k).state = 1 then s2
    else s2.streamOn (s2.limitAt k k a)
  | .mover c => s.modMch c.val fun m => { m with got := m.got ++ [(a, st, d)] }
  | .scrub => s

/-- LINE_READ_RETURN (R237, R254–R256, R262): the oldest outstanding read of region `r` returns; `raw` says how the stack reads. -/
def execLineReadReturn (r : RgnIx) (raw : RawLine) (s : State) : Out :=
  .next (match (s.rgn r.val).reads with
    | [] => s
    | (w, a) :: rest =>
      if s.hibernating then s
      else
        let x := s.lineStatus a raw
        let s1 := (x.2.2.modRgn r.val fun y => { y with reads := rest }).cset (FRR_RD_OUTST r.val) rest.length
        ((s1.noteStatus a x.1).deliver w a x.1 x.2.1).acceptReads r.val 1)

end Sys2Proof.Machine
end

