-- ==== Sys2Proof/Machine/Floe.lean ====
section
/-! DEFINITION. The uplinks: transmit lanes and groups, lane frames, receive lanes, inbound Floe frames, the scheduler, and the
push port, flush and stale closure of the queues (R297–R322). -/

namespace Sys2Proof.Machine

/-! ### Groups -/

/-- Group `g`. -/
def State.grp (s : State) (g : Nat) : Group := tget s.upl.groups g {}

/-- Group `g` changed. -/
def State.modGrp (s : State) (g : Nat) (f : Group → Group) : State :=
  s.modUpl fun u => { u with groups := tset u.groups g {} (f (s.grp g)) }

/-- Lane `l` is enabled, and its group (R299). -/
def State.laneGroup (s : State) (l : Nat) : Option Nat :=
  if s.con (UPL_LMAP_EN (l / 8) (l % 8)) then some (s.cget (UPL_LMAP_GROUP (l / 8) (l % 8))) else none

/-- Lane `l` is faulted and out of its group (R301). -/
def State.laneOut (s : State) (l : Nat) : Bool := bitAt (s.cget UPL_STAT_OUT) l

/-- The lanes in service in group `g`, ascending (R299, R301). -/
def State.groupLanes (s : State) (g : Nat) : List Nat :=
  (List.range 32).filter fun l => decide (s.laneGroup l = some g) && !(s.laneOut l)

/-- `UPL_CFG.VER_MASK`; 0b00 acts as 0b11. -/
def State.verMask (s : State) : Nat := if s.cget UPL_CFG_VER_MASK = 0 then 3 else s.cget UPL_CFG_VER_MASK

/-- The highest version of a mask (R308). -/
def highestVer (m : Nat) : Nat := if bitAt m 1 then 2 else if bitAt m 0 then 1 else 0

/-- The class of queue `q` (R309). -/
def queueClass (q : Nat) : Nat := if q = 0 then 0 else if q ≤ 2 then 1 else if q = 3 then 2 else 3

/-- A queue and its push buffer emptied; the writer of an open packet loses the rest of it (R313). -/
def State.flushQueue (s : State) (g q : Nat) : State :=
  let x := s.queue g q
  s.setQueue g q { x with pkts := [], open_ := none, flushed := true, discard := x.discard || x.open_.isSome }

/-- The count of a group's lanes shown, and its state where lanes have left or joined (R301, R322). -/
def State.regroup (s : State) (g : Nat) : State :=
  let n := (s.groupLanes g).length
  let s1 := s.cset (UG_STAT_LANES g) n
  if s.cget (UG_STAT_STATE g) = 1 ∧ n = 0 then
    (List.range 5).foldl (fun z q => z.flushQueue g q) (s1.cset (UG_STAT_STATE g) 2)
  else if s.cget (UG_STAT_STATE g) = 2 ∧ 0 < n then s1.cset (UG_STAT_STATE g) 1
  else s1

/-- Groups start in the highest version set in `VER_MASK` and go to RUN (R308, R365); a group with no lane left is DOWN (R301). -/
def State.groupsStart (s : State) : State :=
  (List.range s.groupCount).foldl (fun z g =>
    ((z.cset (UG_STAT_STATE g) 1).cset (UG_STAT_VER g) (highestVer z.verMask)).regroup g) s

/-- Groups go dark (R369). -/
def State.groupsDark (s : State) : State :=
  (List.range 4).foldl (fun z g => (z.cset (UG_STAT_STATE g) 0).modGrp g fun x => { x with inFlight := none, buf := [], heads := [] })
    (s.modUpl fun u => { u with darkAt := s.monoNs, laneFrames := [] })

/-- The stale timers go on after HIBERNATE (R315). -/
def State.queuesWake (s : State) : State :=
  s.modUpl fun u => { u with queues := tmap u.queues {} fun _ x =>
    if x.open_.isSome then { x with openAt := x.openAt + (s.monoNs - max x.openAt u.darkAt) } else x }

/-! ### Transmit lanes -/

/-- A Floe header (R305, R306). -/
def floeHeader (typ cls : Nat) (first last part flushed damaged : Bool) (len cid seq slot g serial : Nat) : W64 × W64 :=
  let h0 := pack [(0, 4, typ), (4, 2, cls), (6, 1, b2n first), (7, 1, b2n last), (8, 1, b2n part), (9, 1, b2n flushed),
    (10, 1, b2n damaged), (12, 12, len), (24, 8, cid), (32, 16, seq), (48, 6, if typ = 2 then slot else 0), (54, 2, g)]
  let h1 := if typ = 2 then serial % 2 ^ 32 else 0
  let crc := crc16 ((leBytes 8 h0 ++ leBytes 8 h1).take 14)
  (BitVec.ofNat 64 h0, BitVec.ofNat 64 (h1 + crc * 2 ^ 48))

/-- LANE_FAULT (R301): the optical engine declares lane `l` faulted; it leaves its group at the next lane-frame boundary. -/
def execLaneFault (l : Fin 32) (s : State) : Out :=
  .next (if s.laneOut l.val then s else s.modUpl fun u => { u with leaving := u.leaving ++ [(l.val, s.monoNs)] })

/-- A write of `UPL_CTRL.RESTORE` while the optical engine reports some lanes healthy (R301). -/
def State.opRestore (s : State) (v : Nat) (healthy : List Nat) : State :=
  if bitAt v 0 then
    s.modUpl fun u => { u with returning := u.returning ++ ((healthy.filter fun l => s.laneOut l).map fun l => (l, s.monoNs)) }
  else s

/-- RESTORE (R301): a write of `UPL_CTRL`; `healthy` lists the lanes the optical engine reports healthy. -/
def execRestore (m : MasterIx) (v : W32) (healthy : List (Fin 32)) (s : State) : Out :=
  .next (s.guarded m.val .control UPL_CTRL_RESTORE.reg .write fun z => (z.opRestore v.toNat (healthy.map (·.val))).answer m.val false 0)

/-- Lane `l` leaves its group: `LANE_LOST` is set with an ALARM packet (R301). -/
def State.loseLane (s : State) (l : Nat) : State :=
  let s1 := s.cset UPL_STAT_OUT (Nat.lor (s.cget UPL_STAT_OUT) (2 ^ l))
  match s.laneGroup l with
  | none => s1
  | some g => (s1.regroup g).raise (UG_STAT_LANE_LOST g)

/-- Lane `l` returns to its group (R301). -/
def State.returnLane (s : State) (l : Nat) : State :=
  let s1 := if s.laneOut l then s.cset UPL_STAT_OUT (s.cget UPL_STAT_OUT - 2 ^ l) else s
  match s.laneGroup l with
  | none => s1
  | some g => s1.regroup g

/-- Data bytes that a lane frame of `n` lanes carries (R300, R302). -/
def groupCap (n : Nat) : Nat := 21376 * n

/-- Fill frames for `n` bytes of a group's payload that no Floe frame has been chosen for (R306, R317; log entry 97). -/
def State.fillBytes (s : State) (g n : Nat) : List Byte :=
  let h := floeHeader 0 0 false false false false false 0 s.cid 0 0 g 0
  (List.replicate ((n + 15) / 16) (wordsBytes [h.1, h.2])).flatten

/-- The data bytes of group lane `i` of `n`: of every `n` codewords of the group payload the one with number i mod n (R303). -/
def laneData (n i : Nat) (d : List Byte) : List Byte := (List.range 167).flatMap fun j => (d.drop (128 * (j * n + i))).take 128

/-- The lane frame in progress on group `g` ends: its bytes go to the group's lanes, and what was handed over beyond it is carried into the
next one (R302, R303). -/
def State.groupTake (s : State) (g : Nat) : State :=
  let x := s.grp g
  let lanes := s.groupLanes g
  let cap := groupCap lanes.length
  if !(s.groupRun g) ∨ lanes.all fun l => (tget s.upl.laneFrames l []).isEmpty then s
  else
    let all := x.buf ++ s.fillBytes g (cap - x.buf.length)
    let s1 := s.modUpl fun u => { u with laneSent := (List.range lanes.length).foldl (fun t i =>
      let l := lanes.getD i 0
      tset t l {} { start := tget u.laneFrames l [], data := laneData lanes.length i all }) u.laneSent }
    s1.modGrp g fun y => { y with buf := all.drop cap, heads := (x.heads.filter fun h => decide (cap ≤ h)).map (· - cap) }

/-- `OFS` of the lane frame that begins on group `g`: the first header handed over already, or the one that will follow (R302). -/
def State.groupOfs (s : State) (g : Nat) : State :=
  let cap := groupCap (s.groupLanes g).length
  s.modGrp g fun y =>
    let h := y.heads.headD y.buf.length
    { y with ofs := if h < cap then h / 8 else 0xFFFFFF }

/-- Group `g` at a lane-frame boundary: a version that waits takes over (R308). -/
def State.groupBoundary (s : State) (at_ g : Nat) : State :=
  let x := s.grp g
  let s1 := s.groupTake g
  match x.verNext with
  | some v =>
    if !x.verWait ∧ x.verAt < at_ then
      ((s1.cset (UG_STAT_VER g) v).cset (UG_STAT_VER_CHG g) 1).modGrp g fun y => { y with verNext := none }
    else s1
  | none => s1

/-- The lane-frame boundary of the tick in progress, at tick + 24 cc: lanes return and leave, and each group passes it (R301, R302). -/
def State.boundary (s : State) : State :=
  if s.upl.boundTick = some s.tm.tick then s
  else
    let at_ := s.tm.tick * 4000 + 48
    let back := s.upl.returning.filter fun e => decide (e.2 < at_)
    let gone := s.upl.leaving.filter fun e => decide (e.2 < at_)
    let s1 := s.modUpl fun u => { u with
      boundTick := some s.tm.tick, returning := u.returning.filter fun e => decide (at_ ≤ e.2)
      leaving := u.leaving.filter fun e => decide (at_ ≤ e.2) }
    let s2 := (List.range 4).foldl (fun z g => z.groupBoundary at_ g) s1
    let s3 := gone.foldl (fun z e => z.loseLane e.1) (back.foldl (fun z e => z.returnLane e.1) s2)
    (List.range 4).foldl (fun z g => z.groupOfs g) (s3.modUpl fun u => { u with laneFrames := [] })

/-- The characters of a lane frame: start set, 167 codewords of RS(134,128), idles (R302). -/
def LaneSent.syms (x : LaneSent) : List Sym :=
  (match x.start with | k :: bs => .k k :: bs.map Sym.data | [] => []) ++
    (List.range 167).flatMap (fun i => dataSyms (rsEncode ((x.data.drop (128 * i)).take 128))) ++ List.replicate 14 k280

/-- The ten-bit groups that a lane sends for a lane frame, from the running disparity before it (R167, R297). -/
def LaneSent.line (plus : Bool) (x : LaneSent) : List (BitVec 10) := symLine plus x.syms

/-- The start set of lane `l` of group `g` (R302). -/
def State.startSet (s : State) (l g : Nat) : List Nat :=
  let v := s.cget (UG_STAT_VER g)
  let ofs := if v = 1 then 0xFFFFFF else (s.grp g).ofs
  let body := [l + 32 * g, s.tm.now.fis % 256, s.cget (UG_STAT_LANES g) % 64 + 64 * v, ofs % 256, ofs / 256 % 256, ofs / 65536 % 256]
  0xBC :: body ++ [crc8 (body.map fun b => BitVec.ofNat 8 b)]

/-- LANE_FRAME (R301, R302, R303, R308): at tick + 24 cc lane `l` begins its lane frame. -/
def execLaneFrame (l : Fin 32) (s : State) : Out :=
  .next (
    if s.hibernating then s
    else
      let s1 := (s.toInst (48 * 65536)).boundary
      match s1.laneGroup l.val with
      | none => s1
      | some g =>
        if s1.groupRun g && !(s1.laneOut l.val) then
          s1.modUpl fun u => { u with laneFrames := tset u.laneFrames l.val [] (s1.startSet l.val g) }
        else s1)

/-! ### Receive lanes -/

/-- The state of receive lane `j`. -/
def State.rxState (s : State) (j : Nat) : Nat := s.cget (UR_STAT_STATE j)

/-- Receive lane `j` in a new state, entered at the tick in progress. -/
def State.setRx (s : State) (j st : Nat) : State :=
  (s.cset (UR_STAT_STATE j) st).modUpl fun u => { u with rx := tset u.rx j {} { badRun := 0, stateTick := s.tm.tick } }

/-- RX_SIGNAL_DETECT (R304). -/
def execRxSignalDetect (j : Fin 8) (s : State) : Out :=
  .next (if s.rxState j.val = 0 ∧ !s.hibernating then s.setRx j.val 1 else s)

/-- RX_ALIGNED (R304): 4,096 characters without a code error. -/
def execRxAligned (j : Fin 8) (s : State) : Out := .next (if s.rxState j.val = 1 then s.setRx j.val 2 else s)

/-- RX_LOCK_TIMEOUT (R304): 20 ms in LOCK. -/
def execRxLockTimeout (j : Fin 8) (s : State) : Out :=
  .next (if s.rxState j.val = 1 ∧ ticksMs 20 ≤ s.since (tget s.upl.rx j.val {}).stateTick then s.setRx j.val 0 else s)

/-- RX_SIGNAL_LOSS (R304). -/
def execRxSignalLoss (j : Fin 8) (s : State) : Out :=
  .next (if s.rxState j.val = 2 then (s.setRx j.val 0).cset (UR_STAT_LOST j.val) 1 else s)

/-- A start set that is there, whose CRC matches, and that lies within 8 characters of 22,400 after the one before it (R302, R304). -/
def goodRxSet (x : RxSet) : Bool :=
  (match x.gap with | some n => decide (22392 ≤ n) && decide (n ≤ 22408) | none => false) &&
  (match lineSyms x.line.plus x.line.chars with
    | k :: r => decide (k = some k285) && (match bytesOf r with | some b => goodSet 7 b | none => false)
    | [] => false)

/-- RX_START_SET (R304): four bad start sets in a row take an aligned lane to LOCK. -/
def execRxStartSet (j : Fin 8) (good : RxSet) (s : State) : Out :=
  .next (
    let x := tget s.upl.rx j.val {}
    let n := if goodRxSet good then 0 else x.badRun + 1
    if s.rxState j.val ≠ 2 then s
    else if n < 4 then s.modUpl fun u => { u with rx := tset u.rx j.val {} { x with badRun := n } }
    else (s.setRx j.val 1).cset (UR_STAT_LOST j.val) 1)

/-! ### Inbound control -/

/-- An inbound Floe frame decoded: how many of its codewords are uncorrectable and met first with it, whether it overlaps none, and its bytes
from the header on (R168, R302, R319). -/
def floeRead (f : FloeIn) : Nat × Bool × List Byte :=
  let cs := f.cws.map fun c => cwRead (lineSyms c.plus c.chars)
  let bad (xs : List (CwStatus × List Byte)) : Nat := (xs.filter fun c => decide (c.1 = .uncorrectable)).length
  (bad (cs.drop f.old), decide (bad cs = 0), (cs.flatMap fun c => if c.1 = .uncorrectable then List.replicate 128 0 else c.2).drop (8 * f.off.val))

/-- A header with a good HCRC of a frame that a receive lane accepts, TYPE 6 with FIRST and LAST, and its subtype (R305, R319). -/
def ctrlFrame (b : List Byte) : Bool :=
  decide (bodyNat b 14 2 = crc16 (b.take 14)) && decide (bits (bodyNat b 0 1) 0 4 = 6) && bitAt (bodyNat b 0 1) 6 && bitAt (bodyNat b 0 1) 7 &&
    decide (1 ≤ bits (bodyNat b 0 8) 12 12) && decide (1 ≤ bodyNat b 16 1) && decide (bodyNat b 16 1 ≤ 3)

/-- INBOUND_FLOE_FRAME (R304, R305, R319): accepted as CTRL by its subtype and counted, or discarded and counted. -/
def execInboundFloeFrame (j : Fin 8) (f : FloeIn) (s : State) : Out :=
  .next (
    if s.rxState j.val ≠ 2 then s
    else
      let x := floeRead f
      let s1 := s.cadd (UR_CNT_RS_UNC j.val) x.1
      if x.2.1 && ctrlFrame x.2.2 then s1.cbump (UR_CNT_CTRL j.val) else s1.cbump (UR_CNT_DISCARD j.val))

/-- HELLO (R304, R308, R319): the highest common version waits for its boundary, and the reply goes to the lane's group. -/
def execHello (j : Fin 8) (versions : BitVec 2) (s : State) : Out :=
  .next (
    if s.rxState j.val ≠ 2 then s
    else
      let g := s.cget (UR_CFG_GROUP j.val)
      let v := highestVer (Nat.land versions.toNat s.verMask)
      let s1 := ((s.cbump (UG_CNT_HELLO g)).cset (UG_STAT_BE_SILENT g) 0).modGrp g fun x => { x with helloAt := some s.monoNs }
      let s2 :=
        if v = 0 then s1.cbump (UG_CNT_VER_REFUSE g)
        else s1.modGrp g fun x => { x with
          verNext := if v = s.cget (UG_STAT_VER g) then none else some v, verAt := s.monoNs, verWait := x.inFlight.isSome }
      s2.sendCtrl g ([0x81, BitVec.ofNat 8 v, BitVec.ofNat 8 (s.cget (UG_STAT_LANES g)), BitVec.ofNat 8 s.cid] ++
        leBytes 4 (s.cget GLB_ID_ID)))

/-- The inbound queue's level and packet count shown (R320, R322). -/
def State.showInbound (s : State) : State :=
  (s.cset UIQ_STAT_LEVEL s.upl.inbound.length).cset UIQ_STAT_PKTS (min 255 (s.upl.inbound.filter InWord.end_).length)

/-- The words of a packet with its end mark (R320). -/
def inWords (lane : Nat) : List W64 → List InWord
  | [] => []
  | [w] => [{ word := w, end_ := true, lane := lane }]
  | w :: v :: r => { word := w, end_ := false, lane := lane } :: inWords lane (v :: r)

/-- MAILBOX_PACKET (R304, R319, R320, R334): into the inbound queue, or discarded and counted. -/
def execMailboxPacket (j : Fin 8) (payload : List Byte) (s : State) : Out :=
  .next (
    let ws := inWords j.val (bytesWords payload)
    if s.rxState j.val ≠ 2 then s
    else if 8192 < s.upl.inbound.length + ws.length then (s.cbump UIQ_STAT_DROPPED).cset UIQ_STAT_FULL_SEEN 1
    else (s.modUpl fun u => { u with inbound := u.inbound ++ ws, inLens := u.inLens ++ [payload.length] }).showInbound)

/-- A read of `UIQ_POP` low word, and what it returns (R320). -/
def State.opUiqPop (s : State) : State × Nat :=
  match s.upl.inbound with
  | [] => ((((s.cset UIQ_POP_D 0).cset UIQ_TAG_VALID 0).cset UIQ_TAG_END 0).cset UIQ_TAG_LANE 0, 0)
  | w :: rest =>
    let s1 := (s.modUpl fun u => { u with inbound := rest, inLens := if w.end_ then u.inLens.drop 1 else u.inLens }).showInbound
    ((((s1.cset UIQ_POP_D w.word.toNat).cset UIQ_TAG_VALID 1).cset UIQ_TAG_END (b2n w.end_)).cset UIQ_TAG_LANE w.lane,
      w.word.toNat % 2 ^ 32)

/-- A read of `UIQ_POP` low word by master `m`, with its high word latched for that master (R16, R320). -/
def State.popFor (s : State) (m : Nat) : Nat × State :=
  let x := s.opUiqPop
  (x.2, x.1.latchHigh m UIQ_POP_D.reg (x.1.cget UIQ_POP_D / 2 ^ 32))

/-- UIQ_POP (R16, R320): a read of `UIQ_POP` low word. -/
def execUiqPop (m : MasterIx) (s : State) : Out :=
  .next (s.guarded m.val .control UIQ_POP_D.reg .read fun z => (z.popFor m.val).2.answer m.val false (z.popFor m.val).1)

/-- BE_SILENT (R308): no HELLO for `UPL_CFG.SILENT` × 100 ms. -/
def execBeSilent (g : GrpIx) (s : State) : Out :=
  .next (
    let lim := max 1 (s.cget UPL_CFG_SILENT) * 100000000
    let last := (s.grp g.val).helloAt.getD 0
    if last + lim ≤ s.monoNs then s.cset (UG_STAT_BE_SILENT g.val) 1 else s)

/-! ### The scheduler -/

/-- A Floe frame handed to the striping stage; `n` bytes of it count in `UG_BYTES` (R302, R317, R322). -/
def State.hand (s : State) (g : Nat) (f : FloeOut) (n : Nat) : State :=
  (s.modGrp g fun x => { x with
    inFlight := some f, verWait := false, heads := x.heads ++ [x.buf.length], buf := x.buf ++ wordsBytes ([f.h0, f.h1] ++ f.words) }).cwrap
      (UG_BYTES_CNT g) n

/-- A fill frame (R306, R317). -/
def State.handFill (s : State) (g : Nat) : State :=
  let h := floeHeader 0 0 false false false false false 0 s.cid 0 0 g 0
  s.hand g { h0 := h.1, h1 := h.2, words := [] } 0

/-- The first packet of queue `q` discarded. -/
def State.dropHead (s : State) (g q : Nat) : State :=
  let x := s.queue g q
  s.setQueue g q { x with pkts := x.pkts.drop 1 }

/-- The types that queue `q` holds (R306, R309). -/
def typeHeld (q typ : Nat) : Bool :=
  match q with
  | 0 => decide (typ = 6) || decide (typ = 7)
  | 1 => decide (typ = 3)
  | 2 => decide (typ = 2)
  | 3 => decide (typ = 4) || decide (typ = 5)
  | _ => decide (typ = 1)

/-- Packets at the head of queue `q` that are longer than 8,192 bytes, or of a type that is never sent from there, discarded and counted
(R306; log entry 98). -/
def State.dropLong (s : State) (g q : Nat) : Nat → State
  | 0 => s
  | n + 1 => match (s.queue g q).pkts with
    | [] => s
    | p :: _ => if 1024 < p.words.length ∨ !(typeHeld q p.typ) then ((s.dropHead g q).cbump (UQ_ERR_DROPPED (g * 5 + q))).dropLong g q n else s

/-- The queue that the scheduler of group `g` takes, with over-long packets out of its way: the first one with a whole packet (R317). -/
def State.pickQueue (s : State) (g : Nat) : Nat → Nat → State × Option Nat
  | 0, _ => (s, none)
  | n + 1, q =>
    let s1 := s.dropLong g q (s.queue g q).pkts.length
    if (s1.queue g q).pkts.isEmpty then s1.pickQueue g n (q + 1) else (s1, some q)

/-- A queue word as it is stored: its eight bytes, the byte with its end mark, and six check bytes (R311). -/
def storedWord (w : W64) (end_ : Bool) : List Byte := rsEncode (leBytes 8 w.toNat ++ [BitVec.ofNat 8 (b2n end_)])

/-- Word `i` of a stored packet read with some of its bits wrong: verdict and value (R311). -/
def readWord (w : W64) (end_ : Bool) (i : Nat) (errs : List WordErr) : CwStatus × W64 :=
  let es := errs.filter fun e => decide (e.word = i)
  if es.isEmpty then (.ok, w)
  else
    let r := rsDecode ((es.foldl (fun z e => z.set e.at_.val (z.getD e.at_.val 0 ^^^ e.wrong)) (storedWord w end_)).map fun b => some b.toNat)
    (r.1, BitVec.ofNat 64 (ofBytes (r.2.take 8)))

/-- The descriptor of a packet (R310). -/
def Pkt.descriptor (p : Pkt) : W64 := packW [(0, 4, p.typ), (4, 6, p.slot), (16, 32, p.serial), (48, 3, p.pad)]

/-- The payload words of the next Floe frame of a packet as they read, at most `n` of them (R311). -/
def Pkt.reads (p : Pkt) (n : Nat) (errs : List WordErr) : List (CwStatus × W64) :=
  (List.range n).map fun i => readWord (p.words.getD (p.sent + i) 0) (decide (p.sent + i + 1 = p.words.length)) (p.sent + i + 1) errs

/-- The next Floe frame of the first packet of queue `q`; `errs` are the wrong bits its words read with (R305, R307, R308, R311, R313,
R315). -/
def State.handFrame (s0 : State) (g q : Nat) (p : Pkt) (errs : List WordErr) : State :=
  let most := if s0.cget (UG_STAT_VER g) = 1 then 128 else 256
  let rest := p.words.length - p.sent
  let n0 := min most rest
  let rs := p.reads n0 errs
  let good := rs.takeWhile fun r => decide (r.1 ≠ .uncorrectable)
  let hit := decide (good.length < n0)
  let n := if hit then good.length + 1 else n0
  let s := s0.cadd (UQ_ERR_CORR (g * 5 + q)) (good.filter fun r => decide (r.1 = .corrected)).length
  let x := s.queue g q
  let last := hit || decide (n = rest)
  let len := if last && !hit && !p.partial_ then 8 * n - p.pad else 8 * n
  let ws := good.map (·.2) ++ (if hit then [0] else [])
  let cls := queueClass q
  let seq := tget (s.grp g).seq cls 0
  let sibs := (List.range 5).filter fun y => decide (queueClass y = cls)
  let flushed := sibs.any fun y => (s.queue g y).flushed
  let h := floeHeader p.typ cls (decide (p.sent = 0)) last (p.partial_ && last) flushed hit len s.cid seq p.slot g p.serial
  let x1 := { x with pkts := if last then x.pkts.drop 1 else { p with sent := p.sent + n } :: x.pkts.drop 1 }
  let s1 := s.setQueue g q x1
  let s2 := sibs.foldl (fun z y => if (z.queue g y).flushed then z.setQueue g y { z.queue g y with flushed := false } else z) s1
  let s3 := s2.when hit fun z => (z.cbump (UQ_ERR_UNC (g * 5 + q))).cset (UQ_STAT_UNC_SEEN (g * 5 + q)) 1
  (s3.modGrp g fun y => { y with seq := tset y.seq cls 0 ((seq + 1) % 65536) }).hand g { h0 := h.1, h1 := h.2, words := ws } (16 + 8 * n)

/-- MON packets with results into their queues, while these have room (R309, R337; log entry 57). -/
def State.monFeed (s : State) : Nat → State
  | 0 => s
  | n + 1 => match s.sp.monOut with
    | [] => s
    | ws :: r =>
      if (s.groupsOf (s.cget UPL_CFG_MONLOG_GRPS)).all fun g => s.hasRoom g 3 { typ := 4, words := ws } || decide (s.cget (UG_STAT_STATE g) = 2) then
        ((s.sendMon ws).modSp fun x => { x with monOut := r }).monFeed n
      else s

/-- Cores whose trailer is queued give up their slots, after what fits has been queued (R283, R287, R309). -/
def State.feedWriters (s : State) : State :=
  let s1 := ((s.coreFeed 64).streamFeed 128).monFeed 64
  (s1.trg.cores.map (·.1)).foldl (fun z k => z.freeSlot k) s1

/-- The descriptor of a packet that has not begun reads as `errs` say (R311). -/
def Pkt.descRead (p : Pkt) (errs : List WordErr) : CwStatus := if p.sent = 0 then (readWord p.descriptor (decide (p.words = [])) 0 errs).1 else .ok

/-- SCHEDULER_CHOICE (R301, R305–R307, R309–R311, R317, R369): the next Floe frame of group `g`, or a fill frame. `corrected` are the wrong
bits with which the words of the chosen packet read, `badWord` those of the packet behind it where its descriptor is uncorrectable. -/
def execSchedulerChoice (g : GrpIx) (corrected badWord : List WordErr) (s : State) : Out :=
  .next (
    if !(s.groupRun g.val) || s.hibernating then s
    else
      let r := s.pickQueue g.val 5 0
      match r.2 with
      | none => r.1.handFill g.val
      | some q =>
        let i := g.val * 5 + q
        match (r.1.queue g.val q).pkts with
        | [] => r.1.handFill g.val
        | p :: _ =>
          let d := p.descRead corrected
          let s1 := r.1.when (decide (d = .corrected)) fun z => z.cbump (UQ_ERR_CORR i)
          if d = .uncorrectable then
            let s2 := ((s1.dropHead g.val q).cbump (UQ_ERR_UNC i)).cset (UQ_STAT_UNC_SEEN i) 1
            let r2 := s2.pickQueue g.val 5 0
            match r2.2 with
            | none => (r2.1.handFill g.val).feedWriters
            | some q2 =>
              match (r2.1.queue g.val q2).pkts with
              | [] => (r2.1.handFill g.val).feedWriters
              | p2 :: _ => (r2.1.handFrame g.val q2 p2 badWord).feedWriters
          else (s1.handFrame g.val q p corrected).feedWriters)

/-! ### The push port, flush and stale closure -/

/-- A packet that pushed words spell: its descriptor and its payload (R310, R312). -/
def pushedPkt (partial_ : Bool) (ws : List W64) : Option Pkt :=
  match ws with
  | [] => none
  | d :: r =>
    let n := d.toNat
    some { typ := bits n 0 4, slot := bits n 4 6, serial := bits n 16 32, pad := if partial_ then 0 else bits n 48 3, words := r,
           partial_ := partial_ }

/-- The words of a packet that is complete, into the queue whole. -/
def State.pushWhole (s : State) (g q : Nat) (part : Bool) (ws : List W64) : State :=
  match pushedPkt part ws with
  | some p => s.enqueue g q p
  | none => s

/-- A word pushed with its end mark; the Bool is the access error (R301, R312, R313, R315). -/
def State.pushWord (s0 : State) (g q : Nat) (w : W64) (end_ : Bool) : State × Bool :=
  let i := g * 5 + q
  let x := s0.queue g q
  if x.discard ∨ s0.cget (UG_STAT_STATE g) = 2 then
    if end_ then ((s0.setQueue g q { x with discard := false, open_ := none }).cbump (UQ_ERR_DROPPED i), false) else (s0, false)
  else
    let ws := x.open_.getD [] ++ [w]
    if 256 < ws.length then
      let s1 := s0.setQueue g q { x with open_ := none, discard := !end_ }
      (s1.when end_ fun z => z.cbump (UQ_ERR_DROPPED i), true)
    else if end_ then ((s0.setQueue g q { x with open_ := none }).pushWhole g q false ws, false)
    else (s0.setQueue g q { x with open_ := some ws, openAt := s0.monoNs }, false)

/-- A write of `UQ_PUSH` low word; the Bool is the access error (R312). -/
def State.opUqPush (s : State) (g q lo : Nat) : State × Bool :=
  let i := g * 5 + q
  if q ≠ 0 ∧ q ≠ 3 then (s, true)
  else
    let w := BitVec.ofNat 64 (lo + (tget s.upl.pushHigh i 0).toNat * 2 ^ 32)
    (s.cset (UQ_PUSH_TAG_END i) 0).pushWord g q w (s.con (UQ_PUSH_TAG_END i))

/-- UQ_PUSH (R312, R347): a write of `UQ_PUSH` low word of queue `q` of group `g`. -/
def execUqPush (g : GrpIx) (q : QIx) (m : MasterIx) (lo : W32) (s : State) : Out :=
  .next (s.guarded m.val .control (UQ_PUSH_D (g.val * 5 + q.val)).reg .write fun z =>
    State.answered (z.opUqPush g.val q.val lo.toNat) m.val)

/-- A write of `UQ_CTRL` (R313). -/
def State.opUqCtrl (s : State) (g q v : Nat) : State := if bitAt v 0 then s.flushQueue g q else s

/-- QUEUE_FLUSH (R313, R316, R347): a write of `UQ_CTRL` of queue `q` of group `g`. -/
def execQueueFlush (g : GrpIx) (q : QIx) (m : MasterIx) (v : W32) (s : State) : Out :=
  .next (s.guarded m.val .control (UQ_CTRL_FLUSH (g.val * 5 + q.val)).reg .write fun z =>
    ((z.opUqCtrl g.val q.val v.toNat).feedWriters).answer m.val false 0)

/-- QUEUE_STALE (R315): the open packet received no word for `STALE` × 10 µs and is closed. -/
def execQueueStale (g : GrpIx) (q : QIx) (s : State) : Out :=
  .next (
    let i := g.val * 5 + q.val
    let x := s.queue g.val q.val
    let lim := s.cget (UQ_CFG_STALE i)
    match x.open_ with
    | none => s
    | some ws =>
      if lim = 0 ∨ s.monoNs < x.openAt + lim * 10000 ∨ s.hibernating then s
      else
        let s1 := (s.setQueue g.val q.val { x with open_ := none, discard := true }).pushWhole g.val q.val true ws
        (s1.cbump (UQ_ERR_STALE i)).cset (UQ_STAT_STALE_SEEN i) 1)

end Sys2Proof.Machine
end

