-- ==== Sys2Proof/Machine/Fabric.lean ====
section
/-! DEFINITION. Control RAM, the service processor's hardware, the writes that steer mover channels, and the thawing of masters
(R323–R329, R343–R349). -/

namespace Sys2Proof.Machine

/-! ### Control RAM -/

/-- The image a slot holds (R354). -/
def NvmSt.slot (x : NvmSt) (n : Nat) : SlotImg := if n = 0 then x.slot0 else x.slot1

/-- Word `i` of the payload in slot `n` (R356). -/
def State.slotWord64 (s : State) (n i : Nat) : W64 :=
  let img := s.nvm.slot n
  if img.bytes.isEmpty then Config.factoryWord n i else BitVec.ofNat 64 (bodyNat img.bytes (4096 + 8 * i) 8)

/-- Word `i` of control RAM; none where its valid bit is 0 (R324, R325). -/
def State.cramWord (s : State) (i : Nat) : Option W64 :=
  match tget s.sp.cram i none with
  | some w => some w
  | none => if i < 65536 then s.sp.fw.map fun n => s.slotWord64 n i else none

/-- An UNCORR word is counted and its address kept (R325). -/
def State.cramUnc (s : State) (i : Nat) : State :=
  ((s.cbump CR_STAT_UNC).cset CR_BAD_ADDR (8 * i)).modSp fun x => { x with
    cramBad := if x.cramBad.contains i then x.cramBad else i :: x.cramBad }

/-- What a read of control RAM returns (R325). -/
inductive CramRead where
  | word (w : W64)
  | unwritten
  | uncorr
  deriving DecidableEq, Repr

/-- A read of word `i` of control RAM, and the state after it (R325). -/
def State.cramRead (s : State) (i : Nat) : CramRead × State :=
  match s.cramWord i with
  | none => (.unwritten, s)
  | some w => if s.sp.cramBad.contains i then (.uncorr, s.cramUnc i) else (.word w, s)

/-- A write of word `i` of control RAM (R325). -/
def State.cramWrite (s : State) (i : Nat) (w : W64) : State :=
  s.modSp fun x => { x with cram := tset x.cram i none (some w), cramBad := x.cramBad.filter fun j => decide (j ≠ i) }

/-- A write of the 32-bit half at byte address `a`: over a word whose valid bit is 0 the other half becomes zero (R325). -/
def State.cramWrite32 (s : State) (a v : Nat) : State :=
  let i := a / 8
  let old := ((s.cramWord i).getD 0).toNat
  let w := if a % 8 < 4 then old / 2 ^ 32 * 2 ^ 32 + v % 2 ^ 32 else old % 2 ^ 32 + v % 2 ^ 32 * 2 ^ 32
  s.cramWrite i (BitVec.ofNat 64 w)

/-- A page of the firmware area as its slot has it (R327). -/
def State.reloadPage (s : State) (page : Nat) : State :=
  s.modSp fun x => { x with
    cram := tkeep x.cram fun i => decide (i / 512 ≠ page), cramBad := x.cramBad.filter fun i => decide (i / 512 ≠ page) }

/-- CRAM_SCRUB (R325, R326): one word is read; a corrected one is written back, which leaves its content as it is, whether or not
a master has written it since (`rewritten`). -/
def execCramScrub (ecc : EccStatus) (_rewritten : Bool) (s : State) : Out :=
  .next (
    let i := s.sp.scrubPos
    let bad : Bool := decide (ecc = EccStatus.double) || s.sp.cramBad.contains i
    let s1 := match s.cramWord i with
      | none => s
      | some _ => if bad then (s.cramUnc i).modSp fun x => { x with passDirty := true }
                  else if ecc = EccStatus.single then s.cbump CR_STAT_CORR else s
    if i < 131071 then s1.modSp fun x => { x with scrubPos := i + 1 }
    else
      let s2 := (s1.cset CR_STAT_CLEAN (b2n !s1.sp.passDirty)).cwrap CR_PASS_CNT 1
      s2.modSp fun x => { x with scrubPos := 0, passDirty := false, lastPassTick := x.passTick, passTick := s.tm.tick })

/-! ### The mover's channels -/

/-- The state of mover channel `c`. -/
def State.mvState (s : State) (c : Nat) : Nat := s.cget (MV_CH_STAT_STATE c)

/-- The last error of the mover (R344). -/
def State.mvErr (s : State) (c st : Nat) (all : Bool) : State :=
  ((s.cset MV_ERR_CH c).cset MV_ERR_STATUS st).cset MV_ERR_ALL (b2n all)

/-- Word 3 of a descriptor as it is written back (R339). -/
def MvCh.word3 (x : MvCh) (done : Bool) (status : Nat) : W64 :=
  let w := (x.desc.getD 3 0).toNat
  let crc := if done && bitAt (x.desc.getD 2 0).toNat 46 then Nat.xor x.crc 0xFFFFFFFF else bits w 32 32
  packW [(0, 16, w), (16, 1, b2n done), (17, 5, status), (22, 1, b2n x.unwr), (23, 1, b2n x.short), (32, 32, crc)]

/-- Word 3 written back under the firewall (R339, R347). -/
def State.mvBack (s : State) (c : Nat) (done : Bool) (status : Nat) : State :=
  let a := 32 * s.cget (MV_CH_CUR_IDX c) + 24
  s.guarded (1 + c) .control a .write fun z => z.cramWrite (a / 8) ((s.mch c).word3 done status)

/-- Channel `c` halts by an error of its own (R343, R344). -/
def State.mvHalt (s : State) (c st : Nat) : State :=
  let s1 := ((s.setMv c 5).cset (MV_CH_STAT_STATUS c) st).mvErr c st false
  (s1.modMch c fun x => { x with powerWait := false }).mvBack c false st

/-- A stop-all: channels that are neither halted nor frozen are STOPPED; `cause` names the channel that failed and its status
(R329, R344, R346). -/
def State.mvStopAll (s : State) (cause : Option (Nat × Nat)) (other : Nat) : State :=
  let s1 := (List.range 16).foldl (fun z c =>
    let mine := match cause with | some x => decide (x.1 = c) | none => false
    let st := match cause with | some x => if mine then x.2 else other | none => other
    if (z.mvState c = 5 ∨ z.mvState c = 7) ∧ !mine then z
    else ((z.setMv c 6).cset (MV_CH_STAT_STATUS c) st).modMch c fun x => { x with powerWait := false }) s
  let s2 := match cause with
    | some x => s1.mvErr x.1 x.2 true
    | none => (s1.cset MV_ERR_STATUS other).cset MV_ERR_ALL 1
  s2.raise MV_STAT_STOP

/-- A bus error on an access of channel `c` (R344): `last` where the beat brought the count to zero, or was the write-back. -/
def State.mvBusErr (s : State) (c addr : Nat) (last : Bool) : State :=
  (s.cset MV_ERRADDR_ADDR addr).mvStopAll (some (c, if last then 13 else 11)) 12

/-- BUS_ERROR (R344): a register or proxy access of channel `c` fails. -/
def execBusError (c : MvIx) (addr : W64) (lastBeat : Bool) (s : State) : Out :=
  .next (if s.mvState c.val = 3 ∨ s.mvState c.val = 4 then s.mvBusErr c.val addr.toNat lastBeat else s)

/-- The current descriptor names queue or proxy space (R345). -/
def MvCh.namesPorts (x : MvCh) : Bool :=
  [x.fld 2 24 3, x.fld 2 27 3].any fun sp => decide (sp = 3) || decide (sp = 4)

/-- A write of `MV_CH_CTRL` of channel `c` (R342–R344). -/
def State.opMvCtrl (s : State) (c v : Nat) : State :=
  let st := s.mvState c
  let s1 := if bitAt v 0 && (decide (st = 0) || decide (st = 5)) then s.setMv c 1 else s
  let s2 := if bitAt v 1 && decide ((s1.mch c).fld 2 36 4 = 12) then s1.pace c else s1
  if bitAt v 2 && decide (1 ≤ st) && decide (st ≤ 4) then s2.mvHalt c 16 else s2

/-- MOVER_START (R343): a write of `MV_CH_CTRL`. -/
def execMoverStart (c : MvIx) (m : MasterIx) (v : W32) (s : State) : Out :=
  .next (s.guarded m.val .control (MV_CH_CTRL_START c.val).reg .write fun z => (z.opMvCtrl c.val v.toNat).answer m.val false 0)

/-- MOVER_KICK (R342): a write of `MV_CH_CTRL`. -/
def execMoverKick (c : MvIx) (m : MasterIx) (v : W32) (s : State) : Out :=
  .next (s.guarded m.val .control (MV_CH_CTRL_START c.val).reg .write fun z => (z.opMvCtrl c.val v.toNat).answer m.val false 0)

/-- MOVER_ABORT (R344): a write of `MV_CH_CTRL`. -/
def execMoverAbort (c : MvIx) (m : MasterIx) (v : W32) (s : State) : Out :=
  .next (s.guarded m.val .control (MV_CH_CTRL_START c.val).reg .write fun z => (z.opMvCtrl c.val v.toNat).answer m.val false 0)

/-- A write of `MV_CTRL` (R343, R352): `QTMO`, and STOPPED channels become IDLE. -/
def State.opMvClear (s : State) (m v : Nat) : State × Bool :=
  let w := s.writeReg m MV_CTRL_CLEAR.reg v
  if bitAt v 0 then
    ((List.range 16).foldl (fun z c => if z.mvState c = 6 then z.setMv c 0 else z) w.1, w.2)
  else w

/-- CLEAR (R344): a write of `MV_CTRL`. -/
def execClear (m : MasterIx) (v : W32) (s : State) : Out :=
  .next (s.guarded m.val .control MV_CTRL_CLEAR.reg .write fun z => State.answered (z.opMvClear m.val v.toNat) m.val)

/-- PACE_TIMEOUT (R342, R343): `PTMO` × 10 ms in WAIT. -/
def execPaceTimeout (c : MvIx) (s : State) : Out :=
  .next (if s.mvState c.val = 2 ∧ ticksMs 10 * max 1 (s.cget (MV_CH_CFG_PTMO c.val)) ≤ s.since (s.mch c.val).waitTick
    then s.mvHalt c.val 9 else s)

/-- QEMPTY_TIMEOUT (R343): a read of the source queue has found it empty for `QTMO` µs; 0 acts as 1. -/
def execQemptyTimeout (c : MvIx) (s : State) : Out :=
  .next (match (s.mch c.val).emptyAt with
    | none => s
    | some t =>
      if s.mvState c.val = 3 ∧ s.upl.inbound = [] ∧ t + 1000 * max 1 (s.cget MV_CTRL_QTMO) < (s.tm.tick + 1) * 4000 then s.mvHalt c.val 7
      else s)

/-- POWER_DOWN_WAIT_EXPIRY (R345): 64 µs have passed and the descriptor has not completed. -/
def execPowerDownWaitExpiry (c : MvIx) (s : State) : Out :=
  .next (if (s.mch c.val).powerWait ∧ (s.mch c.val).powerTick + 16 ≤ s.tm.tick then s.mvHalt c.val 10 else s)

/-- A power-down request to the port and uplink domains finds the channels (R345). -/
def State.mvPowerDown (s : State) : State :=
  (List.range 16).foldl (fun z c =>
    if !((z.mch c).namesPorts) then z
    else if z.mvState c = 2 then z.mvHalt c 10
    else if z.mvState c = 3 ∨ z.mvState c = 4 then z.modMch c fun x => { x with powerWait := true, powerTick := z.tm.tick }
    else z) s

/-- MV_TIMER (R342): timer `n` expires, `PERIOD` cc after it last did or was set; a period of 0 is off. -/
def execMvTimer (n : Fin 8) (s : State) : Out :=
  .next (
    let per := 2 * s.cget (MV_TMR_PERIOD n.val)
    let due := tget s.sp.tmrAt n.val 0 + per
    if per = 0 ∨ (s.tm.tick + 1) * 4000 ≤ due then s
    else (s.modSp fun x => { x with tmrAt := tset x.tmrAt n.val 0 (due + (s.tm.tick * 4000 - due) / per * per) }).paceAll (n.val + 1) 0)

/-- A write of `MV_TMR` of timer `n`: its period begins (R342). -/
def State.opMvTmr (s : State) (m a v n : Nat) : State × Bool :=
  let w := s.writeReg m a v
  (w.1.modSp fun x => { x with tmrAt := tset x.tmrAt n 0 s.monoNs }, w.2)

/-! ### Freezing and thawing -/

/-- Master `m` thawed (R343, R349): a mover channel halts with FW_FROZEN. -/
def State.thawMaster (s : State) (m : Nat) : State :=
  if m = 0 ∨ 19 < m ∨ !(s.frozen m) then s
  else
    let s1 := s.cset FWL_STAT_FROZEN (s.cget FWL_STAT_FROZEN - 2 ^ m)
    if m ≤ 16 then ((s1.setMv (m - 1) 5).cset (MV_CH_STAT_STATUS (m - 1)) 14).mvErr (m - 1) 14 false
    else if m = 17 then s1.modSp fun x => { x with bkThawAt := none }
    else s1

/-- A write of `FWL_THAW` (R349). -/
def State.opThaw (s : State) (v : Nat) : State := if bitAt v 5 then s.thawMaster (bits v 0 5) else s

/-- THAW (R349, R350): a write of `FWL_THAW`. -/
def execThaw (m : MasterIx) (v : W32) (s : State) : Out :=
  .next (s.guarded m.val .control FWL_THAW_MASTER.reg .write fun z => (z.opThaw v.toNat).answer m.val false 0)

/-- BK_THAW_TIMER (R349): 100 ms after a BK violation the firmware thaws BK. -/
def execBkThawTimer (s : State) : Out :=
  .next (match s.sp.bkThawAt with
    | some t => if t ≤ s.tm.tick ∧ !(s.spDown) ∧ s.con FWL_CTRL_BK_THAW then s.thawMaster 17 else s
    | none => s)

/-! ### The service processor -/

/-- A service soft reset (R323, R329, R371, R373). In the order of the rules: the firmware area is reloaded from the active slot, mover
channels stop with SP_RESET, and mailbox commands in progress are abandoned without a reply. The high words latched for masters are kept,
by the model's choice (log entry 83). -/
def State.serviceReset (s : State) : State :=
  let run := !(s.con GLB_STAT_RECOVERY)
  let froz := s.cget FWL_STAT_FROZEN
  let s1 := s.mvStopAll none 15
  let s2 := ((s1.cset FWL_STAT_FROZEN (froz - froz % 2)).cset SP_STAT_FROZEN 0).cset SP_STAT_RUN (b2n run)
  s2.modSp fun x => { x with
    stopped := false, lsTick := none, trapTick := none, kickTick := s.tm.tick, taken := none, longs := []
    replies := x.replies.filter Reply.final, cram := tkeep x.cram fun i => decide (65536 ≤ i)
    cramBad := x.cramBad.filter fun i => decide (65536 ≤ i), fw := if run then some (s.cget NVM_SLOT_ACTIVE) else none
    scan := none, hist := none, monOut := [] }

/-- LOCKSTEP_MISMATCH (R321, R323): both cores stop, and the event is shown, counted, logged and sent. -/
def execLockstepMismatch (s : State) : Out :=
  .next (
    if s.spDown then s
    else
      let s1 := (s.cset SP_STAT_RUN 0).modSp fun x => { x with stopped := true, lsTick := some s.tm.tick }
      (((s1.cset SP_STAT_LSERR 1).cbump SP_EVT_LSERR).logBit SP_STAT_LSERR).alarm SP_STAT_LSERR)

/-- SERVICE_SOFT_RESET (R323, R329, R371): 1 ms after a lockstep mismatch. -/
def execServiceSoftReset (s : State) : Out :=
  .next (match s.sp.lsTick with
    | some t => if ticksMs 1 ≤ s.since t then s.serviceReset else s
    | none => s)

/-- FETCH_TRAP (R325, R327, R347, R348): an instruction fetch at `addr` returns UNCORR or UNWRITTEN, if the SP's windows permit it. -/
def execFetchTrap (addr : BitVec 20) (s : State) : Out :=
  .next (
    if s.spDown then s
    else if !(s.permitted 0 .control addr.toNat .fetch) then s.violation 0 .control addr.toNat .fetch
    else
      let i := addr.toNat / 8
      let s0 := match s.cramWord i with | some _ => s.cramUnc i | none => s
      let s1 := s0.cbump SP_EVT_TRAPS
      let again : Bool := match s.sp.trapTick with | some t => decide (s.since t ≤ ticksMs 1) | none => false
      if again || decide (addr.toNat < 0x1000) then s1.serviceReset
      else ((s1.reloadPage (addr.toNat / 4096)).modSp fun x => { x with trapTick := some s.tm.tick }).logBit SP_EVT_TRAPS 0xFF addr.toNat)

/-- A write of `SP_WDOG` (R328). -/
def State.opWdog (s : State) (v : Nat) : State :=
  if bitAt v 0 then s.modSp fun x => { x with kickTick := s.tm.tick } else s

/-- KICK (R328): a write of `SP_WDOG`. -/
def execKick (m : MasterIx) (v : W32) (s : State) : Out :=
  .next (s.guarded m.val .control SP_WDOG_KICK.reg .write fun z => (z.opWdog v.toNat).answer m.val false 0)

/-- WATCHDOG_EXPIRY (R328, R329): 500 ms without a kick. -/
def execWatchdogExpiry (s : State) : Out :=
  .next (if ticksMs 500 ≤ s.since s.sp.kickTick ∧ (s.con SP_STAT_RUN ∨ s.con SP_STAT_FROZEN)
    then (s.cbump SP_EVT_WDOG).serviceReset else s)

end Sys2Proof.Machine
end

