-- ==== Sys2Proof/Machine/Power.lean ====
section
/-! DEFINITION. The NVM and its journal, the boot slot, the resets of both parts, READY and the power states (R354–R359,
R365–R373, R380, R381). -/

namespace Sys2Proof.Machine

/-! ### The NVM -/

/-- The state of slot `n` (R358). -/
def slotState (n : Nat) : Fld := if n = 0 then NVM_SLOT_S0 else NVM_SLOT_S1

/-- What slot `n` holds, replaced. -/
def State.setSlot (s : State) (n : Nat) (x : SlotImg) : State :=
  s.modNvm fun v => if n = 0 then { v with slot0 := x } else { v with slot1 := x }

/-- The header that an image's first bytes spell (R356). -/
def imgHdr (bs : List Byte) : ImgHdr :=
  { magic := BitVec.ofNat 32 (bodyNat bs 0 4), imgVer := BitVec.ofNat 32 (bodyNat bs 4 4), len := BitVec.ofNat 32 (bodyNat bs 8 4)
    minRev := BitVec.ofNat 8 (bodyNat bs 12 1), ryunt := BitVec.ofNat 3 (bodyNat bs 13 1), floe := BitVec.ofNat 2 (bodyNat bs 14 1)
    seedFmt := BitVec.ofNat 16 (bodyNat bs 16 2), seedMin := BitVec.ofNat 16 (bodyNat bs 18 2), twinMin := BitVec.ofNat 32 (bodyNat bs 20 4) }

/-- The header in a slot; none where the slot holds fewer bytes than its fields take. -/
def SlotImg.hdr (x : SlotImg) : Option ImgHdr := if x.bytes.length < 120 then none else some (imgHdr x.bytes)

/-- An image verifies (R357): MAGIC matches, LEN fits the slot, which holds the whole payload, DIGEST is the payload's SHA-256, and the
signature verifies. -/
def imgVerifies (bs : List Byte) (sigOk : Bool) : Bool :=
  let h := imgHdr bs
  let n := h.len.toNat
  decide (h.magic = 0xDC10F1A1) && decide (n ≤ 67104768) && decide (4096 + n ≤ bs.length) && sigOk &&
    decide ((bs.drop 24).take 32 = sha256 ((bs.drop 4096).take n))

/-- The identity of an image (R375): the CRC-32C of its 4,096-byte header. -/
def imgIdent (bs : List Byte) : Nat := crc32c (bs.take 4096)

/-- The IMG_VER that slot `n` shows: 0 if EMPTY (R382). -/
def State.showVer (s : State) (n : Nat) : State :=
  s.cset (NVM_VER_VER n) (if s.cget (slotState n) = 0 then 0 else ((s.nvm.slot n).hdr.map fun h => h.imgVer.toNat).getD 0)

/-- Slot `n` emptied (R355, R374). -/
def State.emptySlot (s : State) (n : Nat) : State := ((s.setSlot n { seen := true }).cset (slotState n) 0).showVer n

/-- The program of a log operation ends: its entries stand in the ring (R380, R381). -/
def State.logDone (s : State) : State :=
  let n := s.nvm.logBusy
  let done := s.nvm.pending.take n
  let s1 := s.modNvm fun v => { v with
    logBusy := 0, pending := v.pending.drop n, log := done.foldl (fun t e => tins t (e.seq % 65536) e) v.log }
  (s1.cset MRN_STAT_PEND s1.nvm.pending.length).logStart

/-- The oldest page or segment program under way completes, and its completion is recorded (R355); a cut one does not. -/
def State.progDone (s : State) : State :=
  match s.nvm.journal.find? fun a => decide (a ≠ .logErase) with
  | none => s
  | some a =>
    if s.nvm.cut then s
    else
      let s1 := s.setJournal (s.nvm.journal.erase a)
      if a = .log then s1.logDone else if a = .latch then s1.modNvm fun v => { v with latch1 := v.latch0 } else s1

/-- Every program under way completes (R355). -/
def State.progAll (s : State) : Nat → State
  | 0 => s
  | n + 1 => s.progDone.progAll n

/-- LOG_PAGE_ERASE_DONE (R381): the page that follows the present one is erased. -/
def execLogPageEraseDone (s : State) : Out :=
  .next (
    if s.nvm.journal.contains .logErase && !s.nvm.cut then
      let pg := (s.nvm.page + 1) % 1024
      let s1 := s.setJournal (s.nvm.journal.erase .logErase)
      (s1.modNvm fun v => { v with erasedPage := some pg, log := tkeep v.log fun i => decide (i / 64 ≠ pg) }).logStart
    else s)

/-- MORAINE_ENTRY (R380, R381): the firmware or a hardware block queues an entry. -/
def execMoraineEntry (code : BitVec 16) (addr val old : W32) (actor : Byte) (pwd : Bool) (tag : BitVec 16) (d5 d6 : W64) (s : State) :
    Out :=
  .next (s.logAdd (s.stamp code.toNat addr.toNat val.toNat old.toNat actor.toNat pwd tag.toNat d5.toNat d6.toNat))

/-! ### Power-on -/

/-- What a loss of power leaves of the concentrator (R371, R373): the NVM with its counts, the protection monitor's sensors and
verdicts, and the front-ends, which have supplies of their own. The model's tick count goes on. -/
def State.cold (s : State) : State :=
  let z : State := { State.reset with
    freg := s.freg, fes := s.fes, chans := s.chans, blks := s.blks, free := s.free, pending := s.pending, svcTx := s.svcTx
    tm := { tick := s.tm.tick }
    nvm := { slot0 := s.nvm.slot0, slot1 := s.nvm.slot1, fallback := s.nvm.fallback, cont0 := s.nvm.cont0, cont1 := s.nvm.cont1,
             latch0 := s.nvm.latch0, latch1 := s.nvm.latch1, log := s.nvm.log, journal := s.nvm.journal, cut := s.nvm.cut,
             known := s.nvm.known, logBusy := s.nvm.logBusy, pending := s.nvm.pending.take s.nvm.logBusy, page := s.nvm.page,
             erasedPage := s.nvm.erasedPage, seed0 := s.nvm.seed0, seed1 := s.nvm.seed1 }
    pro := { sensors := s.pro.sensors, shutdown := s.pro.shutdown, coolTick := s.pro.coolTick, rcause := s.pro.rcause, guardTick := s.tm.tick
             tripTick := s.pro.tripTick } }
  [NVM_SLOT_ACTIVE, NVM_SLOT_S0, NVM_SLOT_S1, NVM_VER_VER 0, NVM_VER_VER 1, MRN_SEQ_SEQ, NVM_STAT_SPARE_USED].foldl
    (fun y f => y.cset f (s.cget f)) z

/-- The recovery of one area whose program was interrupted (R355): a Moraine entry names it. -/
def State.recoverArea (s : State) (a : NvmArea) : State :=
  let lost := s.nvm.logBusy
  let s1 := match a with
    | .slot n => s.emptySlot n
    | .container n => s.modNvm fun v => if n = 0 then { v with cont0 := { v.cont0 with crcOk := false } }
                                        else { v with cont1 := { v.cont1 with crcOk := false } }
    | .seed n => s.modNvm fun v => if n = 0 then { v with seed0 := none } else { v with seed1 := none }
    | .log => s.modNvm fun v => { v with logBusy := 0, pending := v.pending.drop lost }
    | .slotSelect | .latch | .logErase => s
  let code := match a with
    | .slotSelect => 0 | .latch => 1 | .slot n => 2 + n | .container n => 4 + n | .log => 6 | .logErase => 7 | .seed n => 8 + n
  let s2 := (s1.cset NVM_STAT_JRECOV 1).logOwn 0x04 0 0 code 0
  let s3 := if a = .log then s2.logOwn 0x05 0 0 lost 0 else s2
  if a = .logErase ∧ !(s3.nvm.journal.contains .logErase) then s3.program .logErase else s3

/-- The journal recovered at start-up (R355). -/
def State.recover (s : State) : State :=
  let js := s.nvm.journal
  js.foldl (fun z a => z.recoverArea a) ((s.setJournal []).modNvm fun v => { v with cut := false })

/-- A slot that may become active: CONFIRMED or VALID (R359). -/
def State.slotUsable (s : State) (n : Nat) : Bool := decide (s.cget (slotState n) = 3) || decide (s.cget (slotState n) = 1)

/-- The boot ROM's choice of the slot (R359), where `sound n` says that slot `n` verifies (R357). An active slot that verifies although the
record shows it EMPTY is shown CONFIRMED. -/
def State.bootSlot (s : State) (sound : Nat → Bool) : State :=
  let a := s.cget NVM_SLOT_ACTIVE
  let b := 1 - a
  let s1 := if s.cget (slotState a) = 2 then
      let z := s.cset (slotState a) 4
      if s.slotUsable b then z.cset NVM_SLOT_ACTIVE b else z
    else s
  let c := s1.cget NVM_SLOT_ACTIVE
  let d := 1 - c
  let s2 := if sound c then (if s1.cget (slotState c) = 0 then s1.cset (slotState c) 3 else s1)
    else
      let z := s1.cset (slotState c) 4
      if z.slotUsable d && sound d then (z.cset NVM_SLOT_ACTIVE d).cset GLB_STAT_SLOT_FALLBACK 1
      else z.cset GLB_STAT_RECOVERY 1
  let s3 := (s2.showVer 0).showVer 1
  if s3.con GLB_STAT_RECOVERY then s3
  else (s3.cset SP_STAT_RUN 1).modSp fun x => { x with fw := some (s3.cget NVM_SLOT_ACTIVE), kickTick := s3.tm.tick }

/-- What start-up reads in slot `n`: what stands there since it was read or written (R373); in a module whose slots the model has not seen,
what `img` says. -/
def State.readSlot (s : State) (n : Nat) (img : Option ImgRead) : State :=
  if (s.nvm.slot n).seen then s else s.setSlot n { bytes := (img.map ImgRead.bytes).getD [], seen := true }

/-- A power-on start-up up to the running firmware (R355, R359, R365, R371, R419). -/
def State.powerOn (s : State) (cause straps : Nat) (img0 img1 : Option ImgRead) : State :=
  let c1 := (s.cold.readSlot 0 img0).readSlot 1 img1
  let c2 := ((c1.cset GLB_STAT_RCAUSE cause).cset PRO_STAT_CLASS straps).cset PRO_STAT_STRAP straps
  let c3 := (c2.modPro fun x => { x with powerGood := true, rcause := 0 }).recover
  c3.bootSlot fun n => imgVerifies (c3.nvm.slot n).bytes (((if n = 0 then img0 else img1).map ImgRead.sigOk).getD false)

/-- POWER_ON_RESET (R371, R373, R411, R414). -/
def execPowerOnReset (cause : BitVec 3) (straps : BitVec 2) (img0 img1 : Option ImgRead) (s : State) : Out :=
  .next (if s.pro.shutdown then s
    else s.powerOn (if s.pro.rcause = 0 then cause.toNat else s.pro.rcause) straps.toNat img0 img1)

/-- RESET_N (R355, R371): a low of 1 µs or more resets, one below 0.8 µs is ignored, and between them `acts` says which. A page
program under way completes first. -/
def execResetN (lowNs : Nat) (acts : Bool) (straps : BitVec 2) (img0 img1 : Option ImgRead) (s : State) : Out :=
  .next (if s.pro.shutdown ∨ lowNs < 800 ∨ (lowNs < 1000 ∧ !acts) then s
    else (s.progAll s.nvm.journal.length).powerOn 1 straps.toNat img0 img1)

/-! ### Power states -/

/-- The ports in RUN. -/
def State.portsInRun (s : State) : List Nat := (s.ports.map (·.1)).filter fun p => decide (s.plState p = 6)

/-- A power-state transition begins (R369): `k` is the tick in progress. -/
def State.beginTrans (s : State) (fro target : Nat) : State :=
  (s.modGlb fun g => { g with trans := some (fro, target, s.tm.tick) }).cset GLB_STAT_TRANS 1

/-- RUN to IDLE (R369, R370): the trigger is held and disarmed, and STANDBY goes to every port in RUN. -/
def State.toIdle (s : State) : State :=
  let held := s.con TRG_STAT_ARMED || s.trg.armAsk
  let s1 := (s.cset TRG_STAT_PWR_HELD (b2n (held || s.con TRG_STAT_PWR_HELD))).modTrg fun t => { t with
    armAsk := false, disarmAsk := s.con TRG_STAT_ARMED, askTick := s.tm.tick }
  (s1.beginTrans 1 2).sendFast s1.portsInRun 6

/-- A transition toward a target state begins, through IDLE where needed (R369). -/
def State.startTrans (s : State) (target : Nat) : State :=
  let cur := s.cget GLB_STAT_STATE
  if cur = target ∨ cur = 0 then s
  else if cur = 1 then (if target = 3 then s.toIdle.modGlb fun g => { g with heldReq := some 3 } else s.toIdle)
  else if cur = 2 then
    if target = 1 then (s.beginTrans 2 1).sendFast s.portsInRun 7 else (s.beginTrans 2 3).mvPowerDown
  else if target = 1 then (s.beginTrans 3 2).modGlb fun g => { g with heldReq := some 1 } else s.beginTrans 3 2

/-- A request for a power state: held before READY, during a transition and during a power-stage throttle (R366, R369, R407). -/
def State.requestState (s : State) (target : Nat) : State :=
  if !(s.con GLB_STAT_READY) || s.glb.trans.isSome || s.pro.actions.contains 8 then s.modGlb fun g => { g with heldReq := some target }
  else s.startTrans target

/-- A held request is acted on (R369); during a power-stage throttle it stays held, and a module found in RUN enters IDLE (R406). -/
def State.actHeld (s : State) : State :=
  if s.glb.trans.isSome then s
  else if s.pro.actions.contains 8 then (if s.cget GLB_STAT_STATE = 1 then s.toIdle else s)
  else match s.glb.heldReq with
    | none => s
    | some t => (s.modGlb fun g => { g with heldReq := none }).startTrans t

/-- A write of `GLB_PWR` (R369, R382): 3 is ignored. -/
def State.opGlbPwr (s : State) (v : Nat) : State :=
  let r := bits v 0 2
  if r = 3 then s else (s.cset GLB_PWR_REQ r).requestState (r + 1)

/-- POWER_REQUEST_RUN (R366, R369): a write of `GLB_PWR`. -/
def execPowerRequestRun (m : MasterIx) (v : W32) (s : State) : Out :=
  .next (s.guarded m.val .control GLB_PWR_REQ.reg .write fun z => (z.opGlbPwr v.toNat).answer m.val false 0)

/-- POWER_REQUEST_IDLE (R366, R369, R370): a write of `GLB_PWR`. -/
def execPowerRequestIdle (m : MasterIx) (v : W32) (s : State) : Out :=
  .next (s.guarded m.val .control GLB_PWR_REQ.reg .write fun z => (z.opGlbPwr v.toNat).answer m.val false 0)

/-- POWER_REQUEST_HIBERNATE (R345, R366, R369): a write of `GLB_PWR`. -/
def execPowerRequestHibernate (m : MasterIx) (v : W32) (s : State) : Out :=
  .next (s.guarded m.val .control GLB_PWR_REQ.reg .write fun z => (z.opGlbPwr v.toNat).answer m.val false 0)

/-- The port and uplink domains go off and the stacks refresh themselves (R259, R368, R369). -/
def State.goDark (s : State) : State :=
  let s1 := ((s.ports.map (·.1)).foldl (fun z p => (z.plEnter p 0).modPort p fun x => { x with downlinkOn := false }) s).groupsDark
  let s2 := (List.range 8).foldl (fun z j => z.setRx j 0) s1
  s2.cset FRN_STAT_HIB 1

/-- The stacks leave self-refresh, groups run and ports begin link-up (R369). -/
def State.goLight (s : State) : State :=
  let s1 := (s.ports.map (·.1)).foldl (fun z p => (z.plEnter p 0).modPort p fun x => { x with downlinkOn := true }) s
  let s2 := (s1.groupsStart.queuesWake).cset FRN_STAT_HIB 0
  (List.range 4).foldl (fun z r => z.acceptReads r 4096) s2

/-- The power state a transition ends in, with its log entry (R369, R380). -/
def State.enterState (s : State) (st : Nat) : State :=
  let s1 := ((s.cset GLB_STAT_STATE st).cset GLB_STAT_TRANS 0).modGlb fun g => { g with trans := none }
  (s1.logOwn 0x10 GLB_STAT_STATE.reg (s1.peek GLB_STAT_STATE.reg) 0 0)

/-- TRANSITION_COMPLETE (R265, R345, R369, R370): a transition completes, and a held request is acted on. -/
def execTransitionComplete (s : State) : Out :=
  .next (match s.glb.trans with
    | none => s
    | some (fro, target, k) =>
      if fro = 1 then
        if s.tm.tick < k + 2 then s
        else ((if s.trg.disarmAsk then s.disarmUnit else s).enterState 2).actHeld
      else if target = 1 then
        if s.tm.tick < k + 29 then s
        else
          let s1 := s.enterState 1
          (if s1.con TRG_STAT_PWR_HELD then (s1.cset TRG_STAT_PWR_HELD 0).armUnit else s1).actHeld
      else if target = 3 then
        if (List.range 16).any fun c => (s.mch c).powerWait then s else (s.goDark.enterState 3).actHeld
      else (s.enterState 2).goLight.actHeld)

/-! ### READY -/

/-- READY (R308, R363, R365–R367, R380, R389): start-up completes `ms` milliseconds after power-good. -/
def execReady (ms : Nat) (s : State) : Out :=
  .next (
    if s.con GLB_STAT_READY || !s.glb.configured || !(s.con FRN_STAT_READY) then s
    else
      let s0 := (s.groupsStart.modGlb fun g => { g with locked := true, readyTick := some s.tm.tick })
      let s1 := ((s0.cset GLB_STAT_READY 1).cset GLB_STAT_STATE 1).cset GLB_START_READY_MS (min 4095 (ms / 2))
      let s2 := s1.when (s1.con GLB_STAT_CFG_DEFAULT) fun z => z.alarm GLB_STAT_CFG_DEFAULT
      let slot := s2.cget NVM_SLOT_ACTIVE
      let s3 := s2.logOwn 0x01 0 0 (pack [(0, 8, s2.cget GLB_STAT_RCAUSE), (8, 8, slot), (32, 32, s2.cget (NVM_VER_VER slot))]) ms
      let twin := s3.con TWIN_CFG_EN
      let s4 := if twin then (s3.cset TWIN_STAT_ROLE 1).modTwin fun t => { t with
        storing := false, readyTick := s.tm.tick, startCreg := s3.creg, startGold := s3.ports.map fun e => (e.1, e.2.golden) } else s3
      let s5 := (s4.modTrg fun t => { t with armAsk := s4.con TRG_CTRL_ARM && !(s4.con TRG_STAT_ARMED), askTick := s.tm.tick })
      s5.actHeld)

/-! ### Resets of the concentrator -/

/-- A field of a region that a region reset returns to its reset value (R373): counters and status. -/
def regionStatus (r k : Nat) : Bool :=
  let a := k / 64
  let here := decide (0x300000 + 0x40000 * r ≤ a ∧ a < 0x340000 + 0x40000 * r) || decide (0x401000 + 0x1000 * r ≤ a ∧ a < 0x402000 + 0x1000 * r)
  match fieldsAt regClasses a with
  | some fs => here && fs.any fun f => decide (f.lo = k % 64) && (decide (f.acc = .rc) || decide (f.acc = .w1c) ||
      (decide (f.acc = .ro) && decide (a < 0x400000)))
  | none => false

/-- The last line of an extent closed by a region reset, with zeros beyond END, and its HWM (R243, R244, R260). -/
def State.closeAt (s : State) (r : Nat) (c : Chain) (x : IxRegion) : State :=
  let l := x.endb / 64
  let g := (s.ext r x.lastx).gen
  if x.endb % 64 = 0 then s.modExt r x.lastx fun e => { e with hwm := l, state := 2 }
  else
    let y := match s.bufferedLine r x.lastx l with
      | some w => (w.data, s)
      | none => let z := s.storedLine r x.lastx l; (z.1.data, z.2)
    let d := y.1.take (x.endb % 64) ++ List.replicate (64 - x.endb % 64) 0
    (y.2.issueLine r { c with ext := x.lastx, gen := g } l d).modExt r x.lastx fun e => { e with hwm := l + 1, state := 2 }

/-- An open chain of region `r` cut back to its last commit and closed there (R260). -/
def State.cutChain (s : State) (r : Nat) (c : Chain) : State :=
  let x := (s.ixe c.slice).rgn r
  let s1 := if (s.ext r c.ext).state = 1 then s.modExt r c.ext fun e => { e with state := 2 } else s
  if x.count = 0 ∨ (s.ixe c.slice).slice ≠ c.slice then s1.modRgn r fun y => { y with chains := y.chains.filter fun d => decide (d.slice ≠ c.slice) }
  else
    (s1.closeAt r c x).putChain r { c with
      first := x.first, fgen := x.fgen, ext := x.lastx, gen := (s.ext r x.lastx).gen, used := x.endb, count := x.count, starved := false, units := c.unitsDone
      closedAt := some x.endb, tail := [], lineUnits := [] }

/-- A region reset or die fault of region `r` (R229, R260, R371, R373). -/
def State.regionReset (s : State) (r : Nat) : State :=
  if (s.rgn r).resetting then s
  else
    let first := match s.firn.committed with | some k => s.frameAt (k + 1) | none => s.frame
    let s1 := (s.rgn r).chains.foldl (fun z c => z.cutChain r c) s
    let ps := (List.range 256).map (· + 256 * r)
    let s2 : State := { s1 with
      creg := s1.creg.filter fun e => !(regionStatus r e.1)
      ports := tmap s1.ports {} fun p x =>
        if p / 256 = r then { x with rx0 := {}, rx1 := {}, block := none, stateTick := s.tm.tick, failRun := 0 } else x }
    let s3 := (ps.filter fun p => decide (s.plState p ≠ 0)).foldl (fun z p => z.plEnter p 0) s2
    let s4 := s3.modRgn r fun x => { x with
      fair := [], spill := [], turn := [], handed := [], coderBytes := [], resetting := true, resetFrom := first }
    s4.raise (RG_STAT_RESET_SEEN r)

/-- A write of `GLB_RST` (R371): a wrong key is ignored. -/
def State.opGlbRst (s : State) (v : Nat) : State :=
  if bits v 16 16 ≠ 0xC3A5 then s
  else
    let s1 := (List.range 4).foldl (fun z r => if bitAt v (4 + r) then z.regionReset r else z) s
    if bitAt v 0 then s1.serviceReset else s1

/-- SOFT (R329, R371): a write of `GLB_RST`. -/
def execSoft (m : MasterIx) (v : W32) (s : State) : Out :=
  .next (s.guarded m.val .control GLB_RST_SOFT.reg .write fun z => (z.opGlbRst v.toNat).answer m.val false 0)

/-- REGION (R260, R371): a write of `GLB_RST`. -/
def execRegion (m : MasterIx) (v : W32) (s : State) : Out :=
  .next (s.guarded m.val .control GLB_RST_SOFT.reg .write fun z => (z.opGlbRst v.toNat).answer m.val false 0)

/-- REGION_RESET (R229, R260, R371, R373): a die fault of region `r`. -/
def execRegionReset (r : RgnIx) (s : State) : Out := .next (s.regionReset r.val)

/-- REGION_RECOVERED (R226, R229, R260, R371): the region is back, and its lost frames are recorded. -/
def execRegionRecovered (r : RgnIx) (s : State) : Out :=
  .next (
    if !(s.rgn r.val).resetting then s
    else
      let k := s.ing.limit.getD (s.tm.tick - 2)
      (s.lostRun r.val (s.frameAt k) k).modRgn r.val fun x => { x with resetting := false })

/-! ### Resets of the front-end -/

/-- Front-end `p` as its power-on reset leaves it (R367, R372, R373): every register at its reset value. -/
def State.feReset (s : State) (p : Nat) (powered : Bool) : State :=
  let x := s.fe p
  let y : Fe :=
    { rev := x.rev, powered := powered, atTick := s.tm.tick, sens := x.sens, coolTick := x.coolTick, shutdown := x.shutdown }
  { s.setFe p y with
    freg := tkeep s.freg fun k => decide (k / 0x40000 ≠ p), chans := tkeep s.chans fun k => decide (k / 512 ≠ p)
    blks := tkeep s.blks fun k => decide (k / 32 ≠ p) }

/-- A field of a front-end that a soft reset returns to its reset value (R372, R373). -/
def feStatus (k : Nat) : Bool :=
  let w := k / 64
  match fieldsAt feRegClasses w with
  | some fs => !(decide (0x20 ≤ w ∧ w ≤ 0x40)) && decide (w ≠ 5) && decide (w ≠ 0x11 ∨ k % 64 = 8) &&
      fs.any fun f => decide (f.lo = k % 64) && (decide (f.acc = .rc) || decide (f.acc = .w1c) || decide (f.acc = .ro))
  | none => false

/-- A channel's counters cleared (R372). -/
def Chan.cleared (h : Chan) : Chan :=
  { h with orphan := 0, pileup := 0, valRej := 0, noCal := 0, range := 0, calFail := 0, teCalMiss := 0, unreadyRun := 0 }

/-- FE_SOFT_RESET_WRITE (R198, R372): a write of `FE_RST` through port `q`; it waits for the tick. -/
def execFeSoftResetWrite (p : PortIx) (q : FaceIx) (v : W32) (s : State) : Out :=
  .next (if s.feLive p.val && s.writesObeyed p.val q.val then s.feWrite p.val 0x004 s.nowInst v.toNat else s)

/-- FE_SOFT_RESET (R156, R372, R373): at the tick after the write. -/
def execFeSoftReset (p : PortIx) (s : State) : Out :=
  .next (
    if !(s.fe p.val).softPending then s
    else
      let s1 := s.flushFrame p.val
      let s2 : State := { s1 with
        freg := s1.freg.filter fun e => !(decide (e.1 / 0x40000 = p.val) && feStatus (e.1 % 0x40000))
        chans := tmap s1.chans {} fun k h => if k / 512 = p.val then h.cleared else h }
      let s3 := s2.modFe p.val fun x => { x with
        softPending := false, halves := [], link0 := { x.link0 with latch := [] }, link1 := { x.link1 with latch := [] } }
      (s3.fset p.val FE_RSTAT_CAUSE 1).fbump p.val FE_RSTAT_SOFTS)

end Sys2Proof.Machine
end

