-- ==== Sys2Proof/Machine/Protect.lean ====
section
/-! DEFINITION. Protection (R401–R433): temperature sensors, throttle and shutdown on both parts, the supply monitors, the guard
interlock with its causes and permits, and the settings window with its password. -/

namespace Sys2Proof.Machine

/-! ### Temperature sensors -/

/-- Ticks in a second. -/
def ticksSec : Nat := 250000

/-- The sensor acts as in throttle: in throttle, over its rate limit, or broken (R402, R404, R407). -/
def Sensor.hot (x : Sensor) : Bool := x.throt.isSome || x.rate || x.broken

/-- The sensor is above its warning level; a broken one counts as above it (R402). -/
def Sensor.warm (x : Sensor) : Bool := x.warn.isSome || x.broken

/-- The sensor is above its throttle level; a broken one counts as above it (R402). -/
def Sensor.throttled (x : Sensor) : Bool := x.throt.isSome || x.broken

/-- The sensor exceeds its rate limit; a broken one counts as exceeding it (R402). -/
def Sensor.rising (x : Sensor) : Bool := x.rate || x.broken

/-- What `STATE` shows of a sensor: 0 normal, 1 warning, 2 throttle, 3 rate, 4 broken (R432, R433). -/
def Sensor.code (x : Sensor) : Nat :=
  if x.broken then 4 else if x.rate then 3 else if x.throt.isSome then 2 else if x.warn.isSome then 1 else 0

/-- A warning or throttle state and its run of agreeing samples after a reading `q`, in 0.25 °C, against `level` (R401). -/
def judgeLevel (st : Option Nat) (run level : Nat) (q : Int) : Option Nat × Nat :=
  let change := match st with
    | none => decide (4 * (level : Int) ≤ q)
    | some l => decide (q ≤ 4 * (l : Int) - 20)
  if !change then (st, 0)
  else if run + 1 < 4 then (st, run + 1)
  else (if st.isSome then none else some level, 0)

/-- The rate of rise exceeds `rate`, in 0.1 °C/s: the present sample against the one of 1 s earlier (R401). -/
def Sensor.overRate (x : Sensor) (tick rate : Nat) (q : Int) : Bool :=
  match x.hist.find? fun e => decide (e.1 + ticksSec ≤ tick) with
  | some e => decide (2 * (rate : Int) < 5 * (q - e.2))
  | none => false

/-- A sensor after one sample at `tick` (R401, R402, R407), one due each millisecond: `hold` is how long a rate event lasts after the rate is
back within its limit. -/
def Sensor.sampled (x : Sensor) (tick warn throt rate hold : Nat) (reading : Option Int) (selfOk : Bool) : Sensor :=
  let y := match reading with
    | none => { x with broken := decide (x.lastTick + 1000 ≤ tick) || !selfOk || x.broken }
    | some q =>
      let w := judgeLevel x.warn x.warnRun warn q
      let t := judgeLevel x.throt x.throtRun throt q
      let above := x.overRate tick rate q
      let okAt := if above then tick else x.rateOk
      { x with
        hist := (tick, q) :: (x.hist.filter fun e => decide (tick < e.1 + ticksSec + 1000)), lastTick := tick
        warn := w.1, warnRun := w.2, throt := t.1, throtRun := t.2, rateOk := okAt
        rate := above || (x.rate && decide (tick < okAt + hold))
        broken := !selfOk || decide (q < -160) || decide (600 < q) }
  { y with leftTick := if x.hot && !y.hot then some tick else x.leftTick, nextTick := tick + 250 }

/-- The last reading of a sensor that is valid and below 95 °C (R403, R411). -/
def Sensor.cool (x : Sensor) : Bool :=
  !x.broken && (match x.hist with | e :: _ => decide (e.2 < 380) | [] => false)

/-- Concentrator sensor `i`. -/
def State.sensor (s : State) (i : Nat) : Sensor := tget s.pro.sensors i {}

/-- Protection sensor `i` of front-end `p`. -/
def Fe.sensor (x : Fe) (i : Nat) : Sensor := tget x.sens i {}

/-- The throttle action of concentrator sensor `i` (R406): 0–3 a region, 4–7 an optical engine, 8 the power stage. -/
def throttleAction (i : Nat) : Nat := if i < 4 then i else if i < 20 then (i - 4) / 4 else if i < 24 then i - 16 else 8

/-- The ports of region `r` in RUN. -/
def State.regionInRun (s : State) (r : Nat) : List Nat := s.portsInRun.filter fun p => decide (p / 256 = r)

/-- A throttle action begins (R301, R369, R406). -/
def State.throttleBegin (s : State) (a : Nat) : State :=
  if s.pro.actions.contains a then s
  else
    let s1 := s.modPro fun x => { x with actions := x.actions ++ [a] }
    if a < 4 then s1.sendFast (s1.regionInRun a) 6
    else if a < 8 then
      let ls := ((List.range 8).map fun i => 8 * (a - 4) + i).filter fun l => !(s1.laneOut l)
      s1.modUpl fun u => { u with leaving := u.leaving ++ ls.map fun l => (l, s1.monoNs) }
    else if s1.cget GLB_STAT_STATE = 1 ∧ s1.glb.trans.isNone then s1.toIdle else s1

/-- A throttle action ends (R407). -/
def State.throttleStop (s : State) (a : Nat) : State :=
  let s1 := s.modPro fun x => { x with actions := x.actions.erase a }
  if a < 4 then
    if s1.cget GLB_STAT_STATE = 2 ∨ s1.cget GLB_STAT_STATE = 3 then s1 else s1.sendFast (s1.regionInRun a) 7
  else if a < 8 then
    let ls := ((List.range 8).map fun i => 8 * (a - 4) + i).filter fun l => s1.laneOut l
    s1.modUpl fun u => { u with returning := u.returning ++ ls.map fun l => (l, s1.monoNs) }
  else (s1.modGlb fun g => { g with heldReq := none }).requestState (s1.cget GLB_PWR_REQ + 1)

/-- The restart condition is watched: since when every one of some sensors has been valid and below 95 °C. -/
def coolSince (xs : List Sensor) (old : Option Nat) (tick : Nat) : Option Nat :=
  if xs.all Sensor.cool then some (old.getD tick) else none

/-- A sample of concentrator sensor `i` (R401, R402, R406, R407, R411). -/
def State.concSample (s : State) (i : Nat) (q : Option Int) (selfOk : Bool) : State :=
  let x := s.sensor i
  let y := x.sampled s.tm.tick (s.cget (PRO_TS_CFG_WARN i)) (s.cget (PRO_TS_CFG_THROT i)) (s.cget (PRO_TS_CFG_RATE i))
    (10 * ticksSec) q selfOk
  let s1 := s.modPro fun z =>
    let t := tset z.sensors i {} y
    { z with sensors := t, coolTick := coolSince ((List.range 32).map fun j => tget t j {}) z.coolTick s.tm.tick }
  if s1.pro.shutdown then s1
  else
    let s2 := s1.cset (PRO_TS_STAT_STATE i) y.code
    let s3 := match q with
      | some v => (s2.cset (PRO_TS_STAT_TEMP i) (ofSigned 12 v)).cset (PRO_TS_STAT_MAX i)
          (max (s2.cget (PRO_TS_STAT_MAX i)) (v / 4).toNat)
      | none => s2
    let s4 := s3.when (y.warm && !x.warm) fun z => z.monNotice 7
    let s5 := s4.when ((y.throttled && !x.throttled) || (y.rising && !x.rising)) fun z =>
      (z.cset (PRO_TS_STAT_HOT_SEEN i) 1).alarm (PRO_TS_STAT_HOT_SEEN i)
    s5.when (y.hot && !x.hot) fun z => z.throttleBegin (throttleAction i)

/-- The five protection sensors of a front-end. -/
def Fe.sensors (x : Fe) : List Sensor := (List.range 5).map fun i => x.sensor i

/-- The thermal status of front-end `p` brought up to date (R155, R432). -/
def State.showThermal (s : State) (p : Nat) : State :=
  let xs := (s.fe p).sensors
  let st := xs.foldl (fun m x => max m x.code) 0
  let mask (f : Sensor → Bool) : Nat := pack ((List.range 5).map fun i => (i, 1, b2n (f (xs.getD i {}))))
  let s1 := ((s.fset p FE_TH_STAT_STATE st).fset p FE_TH_STAT_BROKEN (mask Sensor.broken)).fset p FE_TH_STAT_HOT (mask Sensor.hot)
  s1.modFacts p fun f => { f with therm := max f.therm (min 3 st) }

/-- A sample of protection sensor `i` of front-end `p` (R401–R405). -/
def State.feSample (s : State) (p i : Nat) (q : Option Int) (selfOk : Bool) : State :=
  let x := (s.fe p).sensor i
  let y := x.sampled s.tm.tick (s.fget p FE_TH_CFG_WARN) (s.fget p FE_TH_CFG_THROT) (max 1 (s.fget p FE_TH_CFG_RATE)) 0 q selfOk
  let s1 := s.modFe p fun z =>
    let w := { z with sens := tset z.sens i {} y }
    { w with coolTick := coolSince w.sensors z.coolTick s.tm.tick }
  if !(s1.feLive p) then s1
  else
    let s2 := s1.showThermal p
    s2.when y.hot fun z => (z.when (!x.hot) fun u => u.fset p FE_TH_STAT_THROT_SEEN 1).modFe p fun w => { w with thermalHold := true }

/-- TEMPERATURE_SAMPLE (R401–R404, R406, R407, R411): a sample of sensor `s` of a front-end or of the concentrator, in 0.25 °C;
none where the sensor produced no sample. Samples are 1 ms apart. -/
def execTemperatureSample (fe : Option PortIx) (s : SensIx) (quarterC : Option Int) (selfTestOk : Bool) (st : State) : Out :=
  .next (match fe with
    | none => if (st.sensor s.val).nextTick ≤ st.tm.tick then st.concSample s.val quarterC selfTestOk else st
    | some p =>
      if s.val < 5 ∧ (st.fe p.val).powered ∧ ((st.fe p.val).sensor s.val).nextTick ≤ st.tm.tick then
        st.feSample p.val s.val quarterC selfTestOk
      else st)

/-- The last of some sensors left throttle at least `wait` ticks ago, and none is in throttle. -/
def throttleOver (xs : List Sensor) (tick wait : Nat) : Bool :=
  xs.all fun x => !x.hot && (match x.leftTick with | some t => decide (t + wait ≤ tick) | none => true)

/-- THROTTLE_END (R404, R407): the sensors that cause an action have left throttle for the wait time. -/
def execThrottleEnd (fe : Option PortIx) (s : SensIx) (st : State) : Out :=
  .next (match fe with
    | none =>
      let a := throttleAction s.val
      let xs := ((List.range 32).filter fun i => decide (throttleAction i = a)).map fun i => st.sensor i
      if st.pro.actions.contains a && throttleOver xs st.tm.tick (if a = 8 then 10 * ticksSec else ticksSec) then st.throttleStop a else st
    | some p =>
      let x := st.fe p.val
      if x.thermalHold && throttleOver x.sensors st.tm.tick ticksSec then
        st.modFe p.val fun y => { y with
          thermalHold := false, powerAsk := if y.powerAsk.getD y.lastAskStandby then y.powerAsk else some false }
      else st)

/-! ### Shutdown and supplies -/

/-- SHUTDOWN_TRIP (R368, R409, R410, R425): a comparator of the concentrator trips, or a sensor is broken. -/
def execShutdownTrip (_s : SensIx) (st : State) : Out :=
  .next (if st.pro.shutdown then st.modPro fun x => { x with coolTick := none }
    else st.cold.modPro fun x => { x with shutdown := true, coolTick := none, rcause := 2, tripTick := st.tm.tick })

/-- A concentrator sensor reads 123 °C or more (R410). -/
def State.scorching (s : State) : Bool :=
  (List.range 32).any fun i => match (s.sensor i).hist with | e :: _ => decide (492 ≤ e.2) | [] => false

/-- NVM_PROGRAM_CUT (R355, R410, R414): without power-good a program under way is cut, and the journal recovers it at the next start. In
SHUTDOWN that is 2 ms after the trip, or when a sensor reaches 123 °C. -/
def execNvmProgramCut (s : State) : Out :=
  .next (
    if s.nvm.journal.isEmpty ∨ s.pro.powerGood ∨ (s.pro.shutdown ∧ s.since s.pro.tripTick < ticksMs 2 ∧ !s.scorching) then s
    else s.modNvm fun n => { n with cut := true })

/-- THERMAL_RESTART (R411): 60 s with every sensor valid and below 95 °C; the power-on start-up follows with cause 2. -/
def execThermalRestart (s : State) : Out :=
  .next (match s.pro.coolTick with
    | some t => if s.pro.shutdown && decide (t + 60 * ticksSec ≤ s.tm.tick) then
        s.modPro fun x => { x with shutdown := false, powerGood := true, rcause := 2 }
      else s
    | none => s)

/-- FE_SHUTDOWN_TRIP (R405): the front-end holds itself in power-on reset. -/
def execFeShutdownTrip (p : PortIx) (s : State) : Out :=
  .next (if (s.fe p.val).shutdown then s.modFe p.val fun x => { x with coolTick := none }
    else (s.feReset p.val true).modFe p.val fun x => { x with shutdown := true, coolTick := none })

/-- FE_THERMAL_RESTART (R403, R405): 10 s with every sensor valid and below 95 °C. -/
def execFeThermalRestart (p : PortIx) (s : State) : Out :=
  .next (match (s.fe p.val).coolTick with
    | some t => if (s.fe p.val).shutdown && decide (t + 10 * ticksSec ≤ s.tm.tick) then
        (s.feReset p.val true).modFe p.val fun x => { x with shutdown := false }
      else s
    | none => s)

/-- SUPPLY_WARNING (R412, R413): the supply falls below its warning level. -/
def execSupplyWarning (fe : Option PortIx) (s : State) : Out :=
  .next (match fe with
    | none =>
      let s1 := s.cset PRO_SUP_WARN_NOW 1
      if s1.pro.dipFrame.isNone then s1.modPro fun x => { x with dipFrame := some s.frame } else s1
    | some p =>
      ((s.fset p.val FE_SUP_STAT_WARN_NOW 1).modFacts p.val fun f => { f with dip := true }).modFe p.val fun x => { x with
        dipStart := some (x.dipStart.getD s.tm.tick) })

/-- DIP_END (R412, R413): the warning level is regained after `us` microseconds. -/
def execDipEnd (fe : Option PortIx) (us : Nat) (s : State) : Out :=
  .next (match fe with
    | none =>
      match s.pro.dipFrame with
      | none => s
      | some f =>
        let s1 := ((s.cset PRO_SUP_WARN_NOW 0).cset PRO_DIP_LAST (min us 0xFFFFFF)).modPro fun x => { x with dipFrame := none }
        let s2 := (s1.cbump PRO_SUP_DIPS).cset PRO_SUP_DIP_SEEN 1
        s2.logBit PRO_SUP_DIP_SEEN 0xFF f (pack [(0, 32, s.frame + 1 - f), (32, 32, us)])
    | some p =>
      if (s.fe p.val).dipStart.isNone then s
      else
        (((s.fset p.val FE_SUP_STAT_WARN_NOW 0).fset p.val FE_DIP_LAST (min us 0xFFFFFF)).fbump p.val FE_SUP_STAT_DIPS).modFe p.val
          fun x => { x with dipStart := none })

/-- SUPPLY_RESET (R412, R414): the supply falls to its reset level. -/
def execSupplyReset (fe : Option PortIx) (s : State) : Out :=
  .next (match fe with
    | none => s.cold.modPro fun x => { x with rcause := if s.pro.shutdown then x.rcause else 3 }
    | some p => s.feReset p.val false)

/-- POWER_GOOD (R412, R414): the supply is good; a front-end leaves its power-on reset. -/
def execPowerGood (fe : Option PortIx) (s : State) : Out :=
  .next (match fe with
    | none => if s.pro.shutdown then s else s.modPro fun x => { x with powerGood := true }
    | some p => if (s.fe p.val).powered then s else s.feReset p.val true)

/-! ### The guard -/

/-- Permit `n`'s state code: 0 START, 1 ON, 2 HELD, 3 TRIPPED, 4 LOCKED (R422). -/
def State.permit (s : State) (n : Nat) : Nat := s.cget (PRO_GSTAT_STATE n)

/-- The guard's class is L; an invalid strap acts as H (R419). -/
def State.classL (s : State) : Bool := decide (s.cget PRO_STAT_CLASS = 1)

/-- An invalid strap reading (R419). -/
def badStrap (v : Nat) : Bool := decide (v = 0) || decide (v = 3)

/-- A guard fault is present (R417, R419, R420). -/
def State.guardFault (s : State) : Bool :=
  s.pro.outFault || s.pro.strapBad || s.pro.selfBad || badStrap (s.cget PRO_STAT_STRAP)

/-- The guard's own time in ticks since its base began. -/
def State.guardTime (s : State) : Nat := s.since s.pro.guardTick

/-- The guard inputs whose state feeds permit `n`. -/
def State.guardInputs (s : State) (n : Nat) : List Nat :=
  (List.range 4).filter fun i => s.con (PRO_GIN_CFG_EN i) && bitAt (s.cget (PRO_GIN_CFG_PMASK i)) n

/-- The ports with settings in `PRO_GMAP`. -/
def State.mappedPorts (s : State) : List Nat :=
  ((s.creg.map fun e => e.1 / 64).filter fun a => decide (0x901000 ≤ a ∧ a < 0x902000)).dedup.map fun a => (a - 0x901000) / 4

/-- The frames after which a missing header or a lost port is a cause (R420). -/
def State.plossFrames (s : State) : Nat := max 1 (s.cget PRO_GCFG_PLOSS)

/-- Port `p`'s thermometers are a cause (R420). -/
def State.rtdCause (s : State) (p : Nat) : Bool :=
  let r := s.cget (PRO_GMAP_RTD p)
  let x := s.port p
  decide (r ≠ 0) && (match x.lastHeader with
    | some w => decide (Nat.land (bits w.toNat 26 4) r ≠ 0) || decide (x.headerTick + 1 + s.plossFrames ≤ s.tm.tick)
    | none => true)

/-- Port `p` is lost (R420). -/
def State.lossCause (s : State) (p : Nat) : Bool :=
  s.con (PRO_GMAP_LOSS p) && decide ((s.port p).okTick + s.plossFrames ≤ s.tm.tick)

/-- The causes of permit `n` now, as `PRO_GCAUSE` shows them (R420). -/
def State.causes (s : State) (n : Nat) : Nat :=
  let ps := s.mappedPorts.filter fun p => bitAt (s.cget (PRO_GMAP_PMASK p)) n
  pack [(0, 1, b2n ((s.guardInputs n).any fun i => decide (s.cget (PRO_GIN_STATE i) ≠ 1))),
    (1, 1, b2n (ps.any fun p => s.rtdCause p)), (2, 1, b2n (ps.any fun p => s.lossCause p)),
    (3, 1, b2n ((List.range 32).any fun i => bitAt (s.cget (PRO_TS_CFG_PMASK i)) n && (s.sensor i).hot)),
    (4, 1, b2n (s.con PRO_SUP_WARN_NOW && bitAt (s.cget PRO_GCFG_SUP_PMASK) n)), (5, 1, b2n !(s.con PRO_STAT_GV24_OK)),
    (6, 1, b2n s.guardFault)]

/-- The lock-out latch (R355, R422): its bits, shown in `PRO_STAT` and `GLB_STAT`. -/
def State.showLatch (s : State) : State :=
  let m := pack ((List.range 4).map fun n => (n, 1, b2n (s.nvm.latch0.getD n false)))
  ((s.cset PRO_STAT_LATCH m).cset PRO_STAT_LOCKOUT (b2n (m ≠ 0))).cset GLB_STAT_LOCKOUT (b2n (m ≠ 0))

/-- Latch bit `n` written, if it changes (R422, R424, R430). -/
def State.setLatch (s : State) (n : Nat) (b : Bool) : State :=
  if s.nvm.latch0.getD n false = b then s
  else
    let s1 := ((s.modNvm fun v => { v with latch0 := v.latch0.set n b }).program .latch).showLatch
    s1.logBit PRO_STAT_LATCH 0xFF n (b2n b)

/-- A permit in a new state, with its output. -/
def State.setPermit (s : State) (n st : Nat) : State :=
  (s.cset (PRO_GSTAT_STATE n) st).cset (PRO_GSTAT_OUT n) (b2n ((st = 1 ∨ st = 2) && !(s.con PRO_STAT_COMMON_OPEN)))

/-- Entry to TRIPPED or LOCKED (R422, R430). -/
def State.trip (s : State) (n st : Nat) : State :=
  let s1 := ((s.setPermit n st).cbump PRO_GCNT_TRIPS).logBit PRO_GCNT_TRIPS 0xFF n st
  if st = 4 then s1.setLatch n true else s1

/-- Permit `n` may be granted (R422, R423). -/
def State.grantable (s : State) (n : Nat) : Bool :=
  s.con (PRO_GOUT_EN n) && s.pro.commonTested && ((s.guardInputs n).all fun i =>
    s.con (PRO_GIN_PROVEN i) && decide (s.cget (PRO_GIN_STATE i) = 1))

/-- Permit `n` moves under its causes (R420, R422, R425). -/
def State.permitStep (s : State) (n : Nat) : State :=
  let c := s.causes n
  let s1 := s.cset (PRO_GCAUSE_CAUSE n) c
  let st := s1.permit n
  let off := if s1.classL then 3 else 4
  if !s1.pro.latchRead then s1
  else if st = 0 then
    if bitAt (s1.cget PRO_STAT_LATCH) n then s1.trip n 4 else if c = 0 && s1.grantable n then s1.setPermit n 1 else s1
  else if st = 1 ∨ st = 2 then
    if c = 0 then s1
    else
      let s2 := s1.modPro fun x => { x with causeTick := tset x.causeTick n 0 s.tm.tick }
      if bitAt c 6 then s2.trip n off
      else if st = 2 then s2
      else if s2.classL then (s2.setPermit n 2).modPro fun x => { x with heldTick := tset x.heldTick n 0 s.tm.tick }
      else s2.trip n 4
  else s1

/-- Output `n` should be on: its permit is on and the common switch closed (R416, R417). -/
def State.outputOn (s : State) (n : Nat) : Bool :=
  (decide (s.permit n = 1) || decide (s.permit n = 2)) && !(s.con PRO_STAT_COMMON_OPEN)

/-- A read-back of output `n` outside the pulse, in mV (R416, R417, R433): one that is off must read below 5 V, and one that is on above GV24 −
2 V. -/
def State.readOutput (s : State) (gv24 n mv : Nat) : State :=
  let s1 := s.cset (PRO_GSTAT_OUT n) (b2n (decide (gv24 < mv + 2000)))
  if s.outputOn n then
    (if gv24 < mv + 2000 then s1 else (s1.cset (PRO_GOUT_STUCK_OFF_SEEN n) 1).modPro fun x => { x with outFault := true })
  else if mv < 5000 then s1
  else ((s1.cset (PRO_GOUT_STUCK_ON_SEEN n) 1).cset PRO_STAT_COMMON_OPEN 1).modPro fun x => { x with outFault := true }

/-- The state of a loop with these currents (R415). -/
def loopState (r : LoopRead) : LoopState :=
  if 8000 ≤ r.back ∧ r.back ≤ 12000 ∧ r.source < r.back + 1000 ∧ r.back < r.source + 1000 then .closed
  else if r.back < 2000 then .opened else .fault

/-- GUARD_INPUT_CHANGE (R415): the currents of loop `n` have stood for the 2 ms of its filter. -/
def execGuardInputChange (n : GuardIx) (r : LoopRead) (s : State) : Out :=
  .next (
    let st := loopState r
    if r.heldUs < 2000 then s
    else
      let s1 := s.cset (PRO_GIN_STATE n.val) (match st with | .opened => 0 | .closed => 1 | .fault => 2)
      if st = .fault then s1.cset (PRO_GIN_FAULT_SEEN n.val) 1 else s1)

/-- GUARD_EVALUATION (R416, R417, R420–R422, R425): every 250 µs of the guard's own time causes are evaluated and permits move. GV24 and the
outputs' read-backs are in mV. -/
def execGuardEvaluation (gv24 : Nat) (selfOk : Bool) (reads : List OutRead) (s : State) : Out :=
  .next (
    let due := s.guardTime * 2 / 125 + 1
    if s.pro.shutdown ∨ s.pro.evals = due then s
    else
      let s1 := (s.cset PRO_STAT_GV24_OK (b2n (decide (18000 ≤ gv24)))).modPro fun x => { x with selfBad := !selfOk, evals := due }
      let s2 := reads.foldl (fun z r => z.readOutput gv24 r.n.val r.mv) s1
      let s3 := s2.cset PRO_STAT_FAULT (b2n s2.guardFault)
      (List.range 4).foldl (fun z n => z.permitStep n) s3)

/-- HELD_CLEAR (R422, R425): 2 s without a cause; at 30 s the timeout wins. -/
def execHeldClear (n : GuardIx) (s : State) : Out :=
  .next (if s.permit n.val = 2 ∧ s.causes n.val = 0 ∧ tget s.pro.causeTick n.val 0 + 2 * ticksSec ≤ s.tm.tick ∧
      s.tm.tick < tget s.pro.heldTick n.val 0 + 30 * ticksSec
    then s.setPermit n.val 1 else s)

/-- HELD_TIMEOUT (R422, R425): 30 s since entry. -/
def execHeldTimeout (n : GuardIx) (s : State) : Out :=
  .next (if s.permit n.val = 2 ∧ tget s.pro.heldTick n.val 0 + 30 * ticksSec ≤ s.tm.tick then s.trip n.val 3 else s)

/-- A read-back reached its level within `us` microseconds and stayed. -/
def within (us : Nat) (x : Option Nat) : Bool := match x with | some t => decide (t ≤ us) | none => false

/-- OFF_PULSE (R416, R417, R431): once a second of the guard's own time, at 250 ms × n, an output that is on is switched off for 300 µs. `fall`:
after how many microseconds it was below 5 V and stayed there; `rise`: how long after the pulse it was above GV24 − 2 V. -/
def execOffPulse (n : GuardIx) (fall rise : Option Nat) (s : State) : Out :=
  .next (
    let sec := s.guardTime / ticksSec + 1
    let fellLow := within 150 fall
    let roseHigh := within 200 rise
    let due : Bool := decide (ticksMs 250 * n.val ≤ s.guardTime % ticksSec) && decide (tget s.pro.pulseSec n.val 0 ≠ sec)
    if !(s.outputOn n.val) ∨ !due then s
    else if fellLow && roseHigh then (s.modPro fun x => { x with pulseSec := tins x.pulseSec n.val sec }).cbump (PRO_GOUT_PULSES n.val)
    else
      let s1 := s.modPro fun x => { x with outFault := true, pulseSec := tins x.pulseSec n.val sec }
      let s2 := s1.when (!fellLow) fun z => (z.cset (PRO_GOUT_STUCK_ON_SEEN n.val) 1).cset PRO_STAT_COMMON_OPEN 1
      s2.when (!roseHigh) fun z => z.cset (PRO_GOUT_STUCK_OFF_SEEN n.val) 1)

/-- OUTPUT_CURRENT_LIMIT (R416): the output stays at its limit for 10 ms and is turned off as a stuck-off fault. -/
def execOutputCurrentLimit (n : GuardIx) (s : State) : Out :=
  .next (if !(s.outputOn n.val) then s
    else (((s.cset (PRO_GOUT_OC_SEEN n.val) 1).cset (PRO_GOUT_STUCK_OFF_SEEN n.val) 1).cset (PRO_GSTAT_OUT n.val) 0).modPro fun x =>
      { x with outFault := true })

/-- The test of R417: with the common switch closed and all permits off every output must read below 5 V. -/
def State.commonTest (s : State) (outs : List OutRead) : State :=
  let ok := (List.range 4).all fun n => outs.any fun r => decide (r.n.val = n ∧ r.mv < 5000)
  let s1 := (s.modPro fun x => { x with commonTested := ok, outFault := !ok }).cset PRO_STAT_COMMON_OPEN (b2n !ok)
  s1.cset PRO_STAT_FAULT (b2n s1.guardFault)

/-- One permit under an accepted reset (R424, R425, R430). -/
def State.permitReset (s : State) (n : Nat) : State :=
  if s.permit n ≠ 3 ∧ s.permit n ≠ 4 then s
  else if s.causes n = 0 then (s.setPermit n 0).setLatch n false
  else (s.cbump PRO_GCNT_RESET_REF).logBit PRO_GCNT_RESET_REF 0xFF n (s.causes n)

/-- A reset of the guard is accepted (R417, R424). -/
def State.guardReset (s : State) (outs : List OutRead) : State :=
  let s1 := ((s.commonTest outs).cbump PRO_GCNT_RESETS).logBit PRO_GCNT_RESETS
  (List.range 4).foldl (fun z n => z.permitReset n) s1

/-- GRST_ACTIVE (R418, R428): GRST's hold begins. -/
def execGrstActive (s : State) : Out :=
  .next (if s.pro.grstHeld then s else s.modPro fun x => { x with grstHeld := true, grstTick := s.tm.tick })

/-- GRST (R417, R418, R424): its release after `holdMs` milliseconds, with the outputs' read-backs of the test. -/
def execGrst (holdMs : Nat) (outs : List OutRead) (s : State) : Out :=
  .next (
    let s1 := s.modPro fun x => { x with grstHeld := false }
    if holdMs < 500 then s1
    else if 5000 < holdMs then (s1.cbump PRO_GCNT_RESET_REF).logBit PRO_GCNT_RESET_REF
    else s1.guardReset outs)

/-- STRAP_CHANGE (R419, R430): the straps have differed from the power-on reading for 10 ms, or are back. -/
def execStrapChange (straps : BitVec 2) (s : State) : Out :=
  .next (
    let bad := decide (straps.toNat ≠ s.cget PRO_STAT_CLASS)
    let s1 := (s.cset PRO_STAT_STRAP straps.toNat).modPro fun x => { x with strapBad := bad }
    if bad && !s.pro.strapBad then (s1.raise PRO_STAT_STRAP_CHG).logBit PRO_STAT_STRAP_CHG 0xFF straps.toNat else s1)

/-- INPUT_PROVEN (R415, R423): an enabled input has been OPEN, or in FAULT, for 2 ms. -/
def execInputProven (n : GuardIx) (s : State) : Out :=
  .next (if s.con (PRO_GIN_CFG_EN n.val) && decide (s.cget (PRO_GIN_STATE n.val) ≠ 1) then s.cset (PRO_GIN_PROVEN n.val) 1 else s)

/-- LATCH_READ (R355, R417, R422): 70 ms after power-good the guard reads its latch; copies that disagree are written SET. -/
def execLatchRead (copiesAgree : Bool) (outs : List OutRead) (s : State) : Out :=
  .next (
    if s.pro.latchRead then s
    else
      let same := copiesAgree && decide (s.nvm.latch0 = s.nvm.latch1)
      let s1 := s.when (!same) fun z =>
        ((z.modNvm fun v => { v with latch0 := [true, true, true, true] }).program .latch).cset NVM_STAT_LATCH_FIX 1
      let s2 := (s1.modPro fun x => { x with latchRead := true }).showLatch.commonTest outs
      (List.range 4).foldl (fun z n => if bitAt (z.cget PRO_STAT_LATCH) n then z.trip n 4 else z) s2)

/-! ### The settings window -/

/-- A write of `PRO_GPW` (R427): one more byte is collected; from the 33rd on the check fails. -/
def State.opGpw (s : State) (v : Nat) : State :=
  s.modPro fun x => { x with candidate := if x.candidate.length < 33 then x.candidate ++ [BitVec.ofNat 8 v] else x.candidate }

/-- A check that failed (R427): counted and logged; the third within 60 s blocks further checks. -/
def State.checkFailed (s : State) : State :=
  let ts := s.tm.tick :: s.pro.failTicks.filter fun t => decide (s.tm.tick < t + 60 * ticksSec)
  let s1 := ((s.modPro fun x => { x with failTicks := ts }).cbump PRO_GCNT_PW_FAIL).logBit PRO_GCNT_PW_FAIL
  if 3 ≤ ts.length then
    (s1.cset PRO_GWIN_BLOCKED 1).modPro fun x => { x with failTicks := [], blockTick := s.tm.tick }
  else s1

/-- A password matches: at most 32 bytes whose SHA-256 after the salt is the verifier (R427). -/
def State.pwMatches (s : State) (pw : List Byte) : Bool := decide (pw.length ≤ 32) && decide (sha256 (s.pro.salt ++ pw) = s.pro.verifier)

/-- A password check (R427): on a match the window opens for 10 s; with no password set none succeeds, and while checks are blocked none is
made. -/
def State.passwordCheck (s : State) (pw : List Byte) : State × Bool :=
  if s.con PRO_GWIN_BLOCKED then (s, false)
  else if s.con PRO_GWIN_PW_SET && s.pwMatches pw then
    ((s.cset PRO_GWIN_OPEN 1).modPro fun x => { x with windowTick := s.tm.tick }, true)
  else (s.checkFailed, false)

/-- A write of `PRO_GWIN` (R427): `CHECK` compares the collected bytes and discards them. -/
def State.opGwin (s : State) (v : Nat) : State :=
  if bitAt v 0 then ((s.modPro fun x => { x with candidate := [] }).passwordCheck s.pro.candidate).1 else s

/-- A write of `PRO_GCOMMIT` (R427). -/
def State.opGcommit (s : State) (v : Nat) : State := if bitAt v 0 then s.cset PRO_GWIN_OPEN 0 else s

/-- PASSWORD_BYTE (R427): a write of `PRO_GPW`. -/
def execPasswordByte (m : MasterIx) (v : W32) (s : State) : Out :=
  .next (s.guarded m.val .control PRO_GPW_BYTE.reg .write fun z => (z.opGpw v.toNat).answer m.val false 0)

/-- CHECK (R427): a write of `PRO_GWIN`. -/
def execCheck (m : MasterIx) (v : W32) (s : State) : Out :=
  .next (s.guarded m.val .control PRO_GWIN_CHECK.reg .write fun z => (z.opGwin v.toNat).answer m.val false 0)

/-- WINDOW_TIMEOUT (R427): 10 s after the window opened. -/
def execWindowTimeout (s : State) : Out :=
  .next (if s.con PRO_GWIN_OPEN && decide (s.pro.windowTick + 10 * ticksSec ≤ s.tm.tick) then s.cset PRO_GWIN_OPEN 0 else s)

/-- CLOSE (R427): a write of `PRO_GCOMMIT`. -/
def execClose (m : MasterIx) (v : W32) (s : State) : Out :=
  .next (s.guarded m.val .control PRO_GCOMMIT_CLOSE.reg .write fun z => (z.opGcommit v.toNat).answer m.val false 0)

/-- CHECK_UNBLOCK (R427): 60 s after the third failed check. -/
def execCheckUnblock (s : State) : Out :=
  .next (if s.con PRO_GWIN_BLOCKED && decide (s.pro.blockTick + 60 * ticksSec ≤ s.tm.tick) then s.cset PRO_GWIN_BLOCKED 0 else s)

end Sys2Proof.Machine
end

