-- ==== Sys2Proof/Machine/Bus.lean ====
section
/-! DEFINITION. The control bus: what a read and a write of any control-space address do, with the effects the registers have
of their own (R9, R16, R18, R19, R22, R62, R181, R251, R264, R268, R271, R325, R348, R408, R426, R430). -/

namespace Sys2Proof.Machine

/-! ### Reads -/

/-- A 32-bit read of control RAM (R325): the access error, the half of the word, the state after it. -/
def State.cramBus (s : State) (a : Nat) : Bool × Nat × State :=
  let r := s.cramRead (a / 8)
  match r.1 with
  | .word w => (false, w.toNat / 2 ^ (a % 8 / 4 * 32) % 2 ^ 32, r.2)
  | .unwritten => (false, 0, r.2)
  | .uncorr => (true, 0, r.2)

/-- A read of address `a` by master `m`: access error, data, state (R16, R18, R62, R181, R320, R325). `PRO_SUP.VIN` is a
measured voltage, and its value is free (log entry 4). -/
def State.busRead (s : State) (m a : Nat) : Bool × Nat × State :=
  if 0x2000000 ≤ a then (true, 0, s)
  else if 0x1000000 ≤ a then s.proxyDirect a none
  else if a < 0x100000 then s.cramBus a
  else if !(controlMapped a) then (true, 0, s)
  else if a = UIQ_POP_D.reg then
    let r := s.popFor m
    (false, r.1, r.2)
  else if a = PRO_SUP_VIN.reg then
    let r := s.readReg m a
    let d := r.2.draw
    (false, r.1 / 4096 * 4096 + d.1 % 4096, d.2)
  else
    let r := s.readReg m a
    (false, r.1, r.2)

/-! ### Writes -/

/-- What the guarded fields of the register at `a` show (R426). -/
def State.guardedWord (s : State) (a : Nat) : Nat :=
  match fieldsAt regClasses a with
  | some fs => regWord s.cget (fs.filter fun f => decide (f.acc = .guarded)) false
  | none => 0

/-- A Moraine change entry for a guarded setting (R430). -/
def State.logGuard (s : State) (a new old actor tag : Nat) : State :=
  if new = old then s else s.logAdd (s.stamp 0x8900 a new old actor true tag 0 0)

/-- A write of `PRO_TS_CFG` that is refused (R408). -/
def proRefuse (a v : Nat) : Option Fld :=
  if 0x900100 ≤ a ∧ a < 0x900200 ∧ a % 8 = 0 ∧
      !(decide (bits v 0 8 < bits v 8 8) && decide (bits v 8 8 ≤ 115) && decide (1 ≤ bits v 16 8)) then some PRO_STAT_CFG_ERR
  else none

/-- A write of a register that a range rule refuses, with the bits it sets; none where none refuses it (R22, R58, R251, R257, R268, R271, R408). -/
def State.refusal (s : State) (a v : Nat) : List Fld :=
  s.timRefuse a v ++ (State.frnRefuse a v).toList ++ (s.trgRefuse a).toList ++ (proRefuse a v).toList

/-- A write of a queue register (R312, R313): `i` is 5 × group + queue, `o` the offset in the queue's window. -/
def State.queueWrite (s : State) (m a v i o : Nat) : State × Bool :=
  let g := i / 5
  let q := i % 5
  if o = 4 then ((s.opUqCtrl g q v).feedWriters, false)
  else if o = 0x14 then s.opUqPush g q v
  else if o = 0 then (let w := s.writeReg m a v; (w.1.setQueue g q (w.1.queue g q), w.2))
  else if o = 0x18 then (s.modUpl fun u => { u with pushHigh := tset u.pushHigh i 0 (BitVec.ofNat 32 v) }, false)
  else s.writeReg m a v

/-- A write of a register of the module, the fabric or the firewall that does more than set fields; none for the others. -/
def State.hubWrite (s : State) (m a v : Nat) : Option (State × Bool) :=
  if a = 0x10000C then some (s.opGlbPwr v, false)
  else if a = 0x100010 then some (s.opGlbRst v, false)
  else if a = 0x100804 then some (s.opWdog v, false)
  else if a = 0x700000 then some (s.opMvClear m v)
  else if 0x700100 ≤ a ∧ a < 0x700300 ∧ a % 32 = 0 then some (s.opMvCtrl ((a - 0x700100) / 32) v, false)
  else if 0x700100 ≤ a ∧ a < 0x700300 ∧ a % 32 = 12 then
    (let st := s.mvState ((a - 0x700100) / 32)
     some (if st = 0 ∨ st = 5 then s.writeReg m a v else (s, false)))
  else if 0x700020 ≤ a ∧ a < 0x700040 then some (s.opMvTmr m a v ((a - 0x700020) / 4))
  else if a = 0x800008 then some (s.opThaw v, false)
  else none

/-- A write of a register of the time, port, Firn, trigger or uplink blocks that does more than set fields; none for the
others. `healthy` are the lanes the optical engines report healthy (R301). -/
def State.dataWrite (s : State) (m a v : Nat) (healthy : List Nat) : Option (State × Bool) :=
  if a = 0x20002C then some (s.opTimStep v, false)
  else if a = 0x200038 ∨ a = 0x20003C then some (s.opStepVal (decide (a = 0x20003C)) v, false)
  else if 0x200200 ≤ a ∧ a < 0x200240 ∧ a % 32 = 0 then some (s.opTout ((a - 0x200200) / 32) v, false)
  else if 0x300000 ≤ a ∧ a < 0x400000 ∧ a % 0x40000 < 0x10000 ∧ a % 256 = 0 then
    some (s.opPlCtrl ((a - 0x300000) / 0x40000 * 256 + a % 0x40000 / 256) m v)
  else if 0x300000 ≤ a ∧ a < 0x400000 ∧ a % 0x40000 < 0x10000 ∧ a % 256 = 0x28 then
    some (s.opPlInj ((a - 0x300000) / 0x40000 * 256 + a % 0x40000 / 256) m v)
  else if a = 0x400040 then some (s.opIxSel m v .ok)
  else if a = 0x4000C0 then some (s.opPinSel m v)
  else if 0x401000 ≤ a ∧ a < 0x405000 ∧ a % 0x1000 = 0x40 then some (s.opXtSel ((a - 0x401000) / 0x1000) m v)
  else if a = 0x500000 then some (s.opTrgCtrl m v)
  else if a = 0x500030 then some (s.opTrgAbort v, false)
  else if a = 0x600000 then some (s.opRestore v healthy, false)
  else if 0x600100 ≤ a ∧ a < 0x600500 ∧ 0x40 ≤ a % 256 ∧ a % 256 < 0xE0 then
    some (s.queueWrite m a v ((a - 0x600100) / 256 * 5 + (a % 256 - 0x40) / 32) (a % 32))
  else none

/-- A write of a register of the protection block (R408, R426, R427, R430): a change of a guarded setting is logged. -/
def State.proWrite (s : State) (m a v tag : Nat) : State × Bool :=
  if a = PRO_GPW_BYTE.reg then (s.opGpw v, false)
  else if a = PRO_GWIN_CHECK.reg then (s.opGwin v, false)
  else if a = PRO_GCOMMIT_CLOSE.reg then (s.opGcommit v, false)
  else
    let w := s.writeReg m a v
    (w.1.logGuard a (w.1.guardedWord a) (s.guardedWord a) m tag, w.2)

/-- `TIM_CTRL` with its reserved source replaced by the default (R29). -/
def fixSource (a v : Nat) : Nat := if a = TIM_CTRL_SRC.reg ∧ bits v 0 2 = 3 then v - 3 else v

/-- A write of address `a` by master `m`, under the mailbox command `tag`: the state after it, and the access error. The lanes
healthy at a `RESTORE` are free values (log entry 4). -/
def State.busWriteTag (s : State) (m a v tag : Nat) : State × Bool :=
  if 0x2000000 ≤ a then (s, true)
  else if 0x1000000 ≤ a then (let r := s.proxyDirect a (some v); (r.2.2, r.1))
  else if a < 0x100000 then (s.cramWrite32 a v, false)
  else if !(controlMapped a) then (s, true)
  else match s.refusal a v with
    | f :: fs => ((f :: fs).foldl (fun z g => z.cset g 1) s, false)
    | [] =>
      if 0x900000 ≤ a ∧ a < 0xA00000 then s.proWrite m a v tag
      else match s.hubWrite m a v with
        | some r => r
        | none =>
          let d := if a = 0x600000 then s.draw else (0, s)
          match d.2.dataWrite m a v ((List.range 32).filter fun l => bitAt d.1 l) with
          | some r => r
          | none => s.writeReg m a (fixSource a v)

/-- A write of address `a` by master `m` outside a mailbox command. -/
def State.busWrite (s : State) (m a v : Nat) : State × Bool := s.busWriteTag m a v 0

/-- REGISTER_WRITE (R18, R19, R22, R251, R264, R268, R271, R348, R408, R426): master `m` writes one word of the control space. -/
def execRegisterWrite (m : MasterIx) (addr : W32) (v : W32) (s : State) : Out :=
  .next (s.guarded m.val .control addr.toNat .write fun z => State.answered (z.busWrite m.val addr.toNat v.toNat) m.val)

/-- LOW_WORD_READ (R16, R62, R137): the low word of a two-word quantity is read, and its high word latched for the reader. -/
def execLowWordRead (r : Reader) (s : State) : Out :=
  .next (match r with
    | .conc m a => s.guarded m.val .control a.toNat .read fun z =>
        let x := z.busRead m.val a.toNat
        x.2.2.answer m.val x.1 x.2.1
    | .fe p q w => s.feRequest p.val q.val { typ := 1, tid := 0, addr := w, data := 0 })

end Sys2Proof.Machine
end

