-- ==== Sys2Proof/Machine/Mover.lean ====
section
/-! DEFINITION. The mover at work (R338–R346): a descriptor fetched and checked, a burst moved byte by byte between the spaces
under the firewall, and the write-back. -/

namespace Sys2Proof.Machine

/-! ### Fetch -/

/-- Bytes of a width code (R339). -/
def mvWidth (w : Nat) : Nat := if w = 4 then 64 else 2 ^ w

/-- A space admits an address, a width and a use (R340); `last` is the last address used. -/
def mvSpaceOk (sp w a last : Nat) (dst : Bool) : Bool :=
  match sp with
  | 0 => decide (last < 0x100000)
  | 1 => decide (w = 2) && decide (0x100000 ≤ a) && decide (last < 0x1000000)
  | 2 => !dst || decide (w = 4)
  | 3 => decide (w = 3) && (if dst then decide (a < 32) && (decide (a % 8 = 0) || decide (a % 8 = 3)) else decide (a = 32))
  | 4 => decide (w = 2) && decide (0x1000000 ≤ a) && decide (last < 0x2000000)
  | _ => false

/-- The end of the addresses an operand of a descriptor uses. -/
def mvLast (a w len : Nat) (inc : Bool) : Nat := if inc then a + len - 1 else a + mvWidth w - 1

/-- The descriptor breaks no rule (R339, R340, R342). -/
def MvCh.valid (x : MvCh) : Bool :=
  let src := (x.desc.getD 0 0).toNat
  let dst := (x.desc.getD 1 0).toNat
  let len := x.fld 2 0 24
  let sw := x.fld 2 30 3
  let dw := x.fld 2 33 3
  let ssp := x.fld 2 24 3
  let dsp := x.fld 2 27 3
  decide (len ≠ 0) && decide (sw ≤ 4) && decide (dw ≤ 4) && decide (x.fld 2 36 4 < 13) &&
    decide (len % max (mvWidth sw) (mvWidth dw) = 0) && (decide (ssp = 3) || decide (src % mvWidth sw = 0)) &&
    (decide (dsp = 3) || decide (dst % mvWidth dw = 0)) && mvSpaceOk ssp sw src (mvLast src sw len (x.fld 2 47 1 = 1)) false &&
    mvSpaceOk dsp dw dst (mvLast dst dw len (x.fld 2 48 1 = 1)) true

/-- Bytes that an event releases (R342, R352). -/
def State.mvBurst (s : State) (c : Nat) : Nat := if s.cget (MV_CH_CFG_BURST c) = 0 then 64 else s.cget (MV_CH_CFG_BURST c)

/-- Channel `c` waits for a pacing event, or takes one that is pending (R342, R346). -/
def State.mvWait (s : State) (c : Nat) : State :=
  let n := s.cget (MV_CH_STAT_PENDING c)
  if n = 0 then (s.setMv c 2).modMch c fun x => { x with waitTick := s.tm.tick, released := 0 }
  else ((s.setMv c 3).cset (MV_CH_STAT_PENDING c) (n - 1)).modMch c fun x => { x with released := s.mvBurst c }

/-- The port and uplink domains are off, or a power-down of them is under way (R345, R369). -/
def State.portsDark (s : State) : Bool :=
  decide (s.cget GLB_STAT_STATE = 3) || (match s.glb.trans with | some t => decide (t.2.1 = 3) | none => false)

/-- The descriptor read into channel `c`, checked (R340, R342, R343, R345). -/
def State.mvChecked (s : State) (c : Nat) : State :=
  let x := s.mch c
  if !x.valid then s.mvHalt c 1
  else if x.namesPorts && s.portsDark then s.mvHalt c 10
  else
    let s1 := (s.cset (MV_CH_DONE_BYTES c) 0).cset (MV_CH_CRC_CRC c) 0
    if x.fld 2 36 4 = 0 then (s1.setMv c 3).modMch c fun y => { y with released := y.fld 2 0 24 } else s1.mvWait c

/-- Words `i` on of a descriptor, each read under the firewall; the Bool is false where one was UNWRITTEN or UNCORR. -/
def State.mvReadDesc (s : State) (c a : Nat) : Nat → List W64 × Bool × State
  | 0 => ([], true, s)
  | n + 1 =>
    let s1 := s.guarded (1 + c) .control a .read id
    if s1.frozen (1 + c) then ([], true, s1)
    else
      let r := s1.cramRead (a / 8)
      let w : W64 × Bool := match r.1 with | .word v => (v, true) | _ => (0, false)
      let rest := r.2.mvReadDesc c (a + 8) n
      (w.1 :: rest.1, w.2 && rest.2.1, rest.2.2)

/-- MOVER_FETCH (R339, R340, R343–R345, R347): the descriptor at `MV_CH_CUR` is read and checked; `ecc` says how its words read. -/
def execMoverFetch (c : MvIx) (ecc : EccStatus) (s : State) : Out :=
  .next (
    if s.mvState c.val ≠ 1 then s
    else
      let a := 32 * s.cget (MV_CH_CUR_IDX c.val)
      let s0 := match ecc with
        | .ok => s
        | .single => s.cbump CR_STAT_CORR
        | .double => s.cramUnc (a / 8)
      let r := s0.mvReadDesc c.val a 4
      if r.2.2.frozen (1 + c.val) then r.2.2
      else
        let s1 := r.2.2.modMch c.val fun _ => { desc := r.1 }
        if !r.2.1 || decide (ecc = EccStatus.double) then s1.mvHalt c.val 2 else s1.mvChecked c.val)

/-! ### One access of a burst -/

/-- How an access of a channel ends. -/
inductive MvRes where
  /-- Bytes read; the Bool: the queue word carried its end mark. -/
  | bytes (bs : List Byte) (last : Bool)
  /-- A write has been made. -/
  | done
  /-- The source queue is empty. -/
  | empty
  /-- The channel halts with a status (R344); for a Firn line its address goes to `MV_ERRADDR`. -/
  | halt (st : Nat) (addr : Option Nat)
  /-- A bus error at an address. -/
  | bus (addr : Nat)
  /-- The firewall refused it. -/
  | viol
  deriving DecidableEq, Repr

/-- An access of channel `c` under the firewall (R347). -/
def State.mvGuard (s : State) (c : Nat) (sp : Space) (key : Nat) (a : Access) (k : State → MvRes × State) : MvRes × State :=
  if s.frozen (1 + c) then (.viol, s)
  else if s.permitted (1 + c) sp key a then k s
  else (.viol, s.violation (1 + c) sp key a)

/-- `n` bytes of control RAM at address `a` (R325, R341): an UNWRITTEN word reads zero and sets UNWR. -/
def State.mvReadRam (s : State) (c a : Nat) : Nat → MvRes × State
  | 0 => (.bytes [] false, s)
  | n + 1 =>
    let r := s.cramRead (a / 8)
    match r.1 with
    | .uncorr => (.halt 3 none, r.2)
    | .unwritten =>
      let t := (r.2.modMch c fun x => { x with unwr := true }).mvReadRam c (a + 1) n
      match t.1 with
      | .bytes bs l => (.bytes (0 :: bs) l, t.2)
      | e => (e, t.2)
    | .word w =>
      let t := r.2.mvReadRam c (a + 1) n
      match t.1 with
      | .bytes bs l => (.bytes (BitVec.ofNat 8 (w.toNat / 2 ^ (a % 8 * 8)) :: bs) l, t.2)
      | e => (e, t.2)

/-- The line of a Firn source (R237, R341): as a read of it has returned, or read now. -/
def State.mvLine (s : State) (c a : Nat) : Nat × List Byte × State :=
  match (s.mch c).got.find? fun g => decide (g.1 / 64 = a / 64) with
  | some g => (g.2.1, g.2.2, s)
  | none =>
    let r := s.lineStatus (a / 64 * 64) ⟨[]⟩
    let s1 := r.2.2.noteStatus (a / 64 * 64) r.1
    (r.1, r.2.1, s1.modMch c fun x => { x with got := (x.got.filter fun g => decide (a / 64 ≤ g.1 / 64)) ++ [(a / 64 * 64, r.1, r.2.1)] })

/-- A Firn source's bytes by the status of their line (R341). -/
def State.mvReadFirn (s : State) (c a n : Nat) : MvRes × State :=
  let r := s.mvLine c a
  if r.1 = 5 then (.halt 5 none, r.2.2)
  else if 3 ≤ r.1 then (.halt 4 (some (a / 64 * 64)), r.2.2)
  else
    let s1 := if r.1 = 2 then r.2.2.modMch c fun x => { x with unwr := true } else r.2.2
    (.bytes ((r.2.1.drop (a % 64)).take n) false, s1)

/-- A source access of `n` bytes at `a` in space `sp` (R340, R341, R343, R347). -/
def State.mvReadOne (s : State) (c sp a n : Nat) : MvRes × State :=
  match sp with
  | 0 => s.mvGuard c .control a .read fun z => z.mvReadRam c a n
  | 2 => s.mvGuard c .firn (bits a 22 19) .read fun z => z.mvReadFirn c a n
  | 3 => s.mvGuard c .queue 32 .read fun z => match z.upl.inbound with
      | [] => (.empty, z)
      | w :: rest => (.bytes (leBytes 8 w.word.toNat) w.end_, (z.modUpl fun u => { u with
          inbound := rest, inLens := if w.end_ then u.inLens.drop 1 else u.inLens }).showInbound)
  | _ => s.mvGuard c .control a .read fun z =>
      let r := z.busRead (1 + c) a
      if r.1 then (.bus a, r.2.2) else (.bytes (leBytes 4 r.2.1) false, r.2.2)

/-- Bytes written to control RAM at address `a` (R325): what a word did not hold becomes zero. -/
def State.mvWriteRam (s : State) (a : Nat) : List Byte → State
  | [] => s
  | b :: r =>
    let old := ((s.cramWord (a / 8)).getD 0).toNat
    let sh := 2 ^ (a % 8 * 8)
    let w := old - old / sh % 256 * sh + b.toNat * sh
    (s.cramWrite (a / 8) (BitVec.ofNat 64 w)).mvWriteRam (a + 1) r

/-- A whole line written to the scratch area, stored with VALID = 1 and GEN = 0; any other write is refused (R238, R341). -/
def State.mvWriteFirn (s : State) (a : Nat) (bs : List Byte) : MvRes × State :=
  let (r, _, e, l) := firnAddr a
  if 131072 - s.scratch r ≤ e ∧ bs.length = 64 then
    (.done, s.modFirn fun f => { f with lines := tins f.lines ((131072 * r + e) * 65536 + l) (formLine bs 0) })
  else (.halt 6 none, s)

/-- A word to a destination queue, `eop` on the last one (R309, R312, R343). -/
def State.mvWriteQueue (s : State) (id : Nat) (bs : List Byte) (eop : Bool) : MvRes × State :=
  let g := id / 8
  let q := id % 8
  let r := s.pushWord g q (BitVec.ofNat 64 (ofBytes bs)) eop
  if r.2 then (.bus id, r.1)
  else if eop ∧ (r.1.queue g q).pkts.length = (s.queue g q).pkts.length then (.halt 8 none, r.1)
  else (.done, r.1)

/-- A destination access at `a` in space `sp` (R340, R341, R343, R347). -/
def State.mvWriteOne (s : State) (c sp a : Nat) (bs : List Byte) (eop : Bool) : MvRes × State :=
  match sp with
  | 0 => s.mvGuard c .control a .write fun z => (.done, z.mvWriteRam a bs)
  | 2 => s.mvGuard c .firn (bits a 22 19) .write fun z => z.mvWriteFirn a bs
  | 3 => s.mvGuard c .queue a .write fun z => z.mvWriteQueue a bs eop
  | _ => s.mvGuard c .control a .write fun z =>
      let r := z.busWrite (1 + c) a (ofBytes bs)
      if r.2 then (.bus a, r.1) else (.done, r.1)

/-! ### A burst -/

/-- `n` source accesses of `w` bytes from address `a`, `d` apart: their bytes in order, up to an end mark. -/
def State.mvGather (s : State) (c sp a w d : Nat) : Nat → MvRes × State
  | 0 => (.bytes [] false, s)
  | n + 1 =>
    let r := s.mvReadOne c sp a w
    match r.1 with
    | .bytes bs true => (.bytes bs true, r.2)
    | .bytes bs false =>
      let t := r.2.mvGather c sp (a + d) w d n
      match t.1 with
      | .bytes more l => (.bytes (bs ++ more) l, t.2)
      | e => (e, t.2)
    | e => (e, r.2)

/-- Bytes acknowledged at the destination (R343, R344). -/
def State.mvMoved (s : State) (c : Nat) (bs : List Byte) : State :=
  let s1 := s.modMch c fun x => { x with emptyAt := none, moved := x.moved + bs.length, released := x.released - bs.length, crc := crc32cAux x.crc bs }
  let x := s1.mch c
  let s2 := (s1.cset (MV_CH_DONE_BYTES c) x.moved).when (x.fld 2 46 1 = 1) fun z => z.cset (MV_CH_CRC_CRC c) (Nat.xor x.crc 0xFFFFFFFF)
  if x.fld 2 44 1 = 1 ∧ !x.halfDone ∧ x.fld 2 0 24 ≤ 2 * x.moved then
    ((s2.modMch c fun y => { y with halfDone := true }).cset MV_NOTE_N (Nat.lor (s2.cget MV_NOTE_N) (2 ^ (2 * c)))).paceAll 10 c
  else s2

/-- Bytes put to the destination `w` at a time, from address `a`, `d` apart; `fin`: the last access ends the descriptor. -/
def State.mvScatter (s : State) (c sp a w d : Nat) (fin : Bool) : Nat → List Byte → MvRes × State
  | 0, _ => (.done, s)
  | n + 1, bs =>
    if bs.isEmpty then (.done, s)
    else
      let here := bs.take w
      let lastOne := fin && (bs.drop w).isEmpty
      let r := s.mvWriteOne c sp a here (lastOne && decide ((s.mch c).fld 2 49 1 = 1))
      match r.1 with
      | .done => (r.2.mvMoved c here).mvScatter c sp (a + d) w d fin n (bs.drop w)
      | e => (e, r.2)

/-- How a burst stops before its bytes are moved (R341, R343, R344, R348). -/
def State.mvStopped (s : State) (c : Nat) (last : Bool) : MvRes → State
  | .halt st (some a) => (s.cset MV_ERRADDR_ADDR a).mvHalt c st
  | .halt st none => s.mvHalt c st
  | .bus a => s.mvBusErr c a last
  | .empty => s.modMch c fun x => { x with emptyAt := some (x.emptyAt.getD s.monoNs) }
  | _ => s

/-- One pass of the holding register: bytes of the larger width read and written; the Bool: the burst goes on. -/
def State.mvUnit (s : State) (c : Nat) : State × Bool :=
  let x := s.mch c
  let sw := mvWidth (x.fld 2 30 3)
  let dw := mvWidth (x.fld 2 33 3)
  let u := max sw dw
  let sinc := x.fld 2 47 1 = 1 ∧ x.fld 2 24 3 ≠ 3
  let dinc := x.fld 2 48 1 = 1 ∧ x.fld 2 27 3 ≠ 3
  let a := (x.desc.getD 0 0).toNat + (if sinc then x.moved else 0)
  let b := (x.desc.getD 1 0).toNat + (if dinc then x.moved else 0)
  let final := decide (x.fld 2 0 24 ≤ x.moved + u)
  let r := s.mvGather c (x.fld 2 24 3) a sw (if sinc then sw else 0) (u / sw)
  match r.1 with
  | .bytes bs ended =>
    let w := r.2.mvScatter c (x.fld 2 27 3) b dw (if dinc then dw else 0) (final || ended) (u / dw) bs
    match w.1 with
    | .done =>
      if ended ∧ !final then (w.2.modMch c fun y => { y with short := true, released := 0 }, false) else (w.2, !final)
    | e => (w.2.mvStopped c final e, false)
  | e => (r.2.mvStopped c final e, false)

/-- Passes until some bytes have been moved. -/
def State.mvPasses (s : State) (c : Nat) : Nat → State
  | 0 => s
  | n + 1 => if s.mvState c ≠ 3 ∨ (s.mch c).released = 0 then s else let r := s.mvUnit c; if r.2 then r.1.mvPasses c n else r.1

/-- MOVER_BURST_DONE (R340–R344, R346, R347): up to `bytes` bytes of the burst in progress are moved; at its end the channel waits
for the next event, and at the end of the descriptor it writes back. Line reads wait in HIBERNATE (R259). -/
def execMoverBurstDone (c : MvIx) (bytes : Nat) (s : State) : Out :=
  .next (
    if s.mvState c.val ≠ 3 ∨ (s.hibernating ∧ (s.mch c.val).fld 2 24 3 = 2) then s
    else
      let x := s.mch c.val
      let u := max (mvWidth (x.fld 2 30 3)) (mvWidth (x.fld 2 33 3))
      let s1 := s.mvPasses c.val (bytes / u)
      let y := s1.mch c.val
      if s1.mvState c.val ≠ 3 then s1
      else if y.short ∨ y.fld 2 0 24 ≤ y.moved then s1.setMv c.val 4
      else if y.released = 0 then s1.mvWait c.val
      else s1)

/-- MOVER_WRITEBACK (R339, R342, R343, R345–R347): word 3 is written, notices are raised, and the chain goes on. -/
def execMoverWriteback (c : MvIx) (s : State) : Out :=
  .next (
    if s.mvState c.val ≠ 4 then s
    else
      let s1 := s.mvBack c.val true 0
      if s1.mvState c.val ≠ 4 then s1
      else
        let x := s1.mch c.val
        let s2 := (s1.cset (MV_CH_STAT_STATUS c.val) 0).modMch c.val fun y => { y with powerWait := false }
        let s3 := if x.fld 3 15 1 = 1 then s2.setMv c.val 0
          else (s2.setMv c.val 1).cset (MV_CH_CUR_IDX c.val) (x.fld 3 0 15)
        if x.fld 2 45 1 = 1 then
          (s3.cset MV_NOTE_N (Nat.lor (s3.cget MV_NOTE_N) (2 ^ (2 * c.val + 1)))).paceAll 9 c.val
        else s3)

end Sys2Proof.Machine
end

