-- ==== Sys2Proof/Machine/Start.lean ====
section
/-! DEFINITION. The Abapo container (R360–R364, R429): its choice, its records with their range check, the golden copies they build,
and the writing of a new one. -/

namespace Sys2Proof.Machine

/-! ### Ranges -/

/-- The permitted range of a concentrator field (R29, R57, R62, R251, R257, R263, R264, R382, R400). -/
def concRange (f : Fld) : Nat × Nat :=
  if f = TIM_CTRL_SRC then (0, 2)
  else if f = TIM_SLEW_SLEW then (1, 2000)
  else if f = TIM_JUMP_JUMP then (100, 999999999)
  else if f = TOUT_TGT_NS_NS 0 ∨ f = TOUT_TGT_NS_NS 1 then (0, 999999999)
  else if f = FRN_CTRL_QUOTA then (5, 50)
  else if f.reg % 0x1000 = 8 ∧ 0x401000 ≤ f.reg ∧ f.reg < 0x405000 ∧ f.lo = 0 then (60, 43200)
  else if f = TRG_CTRL_MODE then (0, 2)
  else if f = GLB_PWR_REQ then (0, 2)
  else if f = TWIN_CFG_HB_TMO then (5, 100)
  else if f = TWIN_CFG_DRAIN then (0, 134)
  else (0, 2 ^ f.width - 1)

/-- The permitted range of a front-end field (R107, R111, R123, R138, R188). -/
def feRange (f : Fld) : Nat × Nat :=
  if 0x500 ≤ f.reg ∧ f.reg < 0x600 ∧ f.width = 8 ∧ f.reset = 30 then (5, 250)
  else if f = MON_TIMER_PERIOD then (1, 1000)
  else if f = LNK_VER_SEL 0 ∨ f = LNK_VER_SEL 1 then (0, 2)
  else if f = FE_TH_CFG_THROT then (0, 115)
  else (0, 2 ^ f.width - 1)

/-- A field that the configuration may set (R362). `TIM_STEP_VAL`, read-only but in free-run, is not one (log entry 82). -/
def Fld.configurable (f : Fld) : Bool :=
  decide (f.acc = .rw) || decide (f.acc = .rws) || decide (f.acc = .lk) || decide (f.acc = .lkSp)

/-- The bits of a word that its fields take up; the others are reserved. -/
def usedBits (fs : List Fld) (hi : Bool) : Nat :=
  (fs.map fun f => if hi then (2 ^ f.width - 1) * 2 ^ f.lo / 2 ^ 32 else (2 ^ f.width - 1) * 2 ^ f.lo % 2 ^ 32).foldl Nat.lor 0

/-! ### Records -/

/-- A CFG_RANGE entry (R362, R380). -/
def State.logRange (s : State) (a v : Nat) : State := s.logOwn 0x02 a v 0 0

/-- A CFG_UNKNOWN entry (R362, R380). -/
def State.logUnknown (s : State) (a v : Nat) : State := s.logOwn 0x03 a v 0 0

/-- A substitution is logged, counted and shown (R362). -/
def State.cfgFix (s : State) (a v : Nat) : State := ((s.logRange a v).cbump GLB_START_CFG_FIXES).cset GLB_STAT_CFG_FIX 1

/-- A field takes the value that the configuration gives it: arming a timed output is judged as R58 says, and a port that is not
enabled turns its downlink off (R200). -/
def State.loadField (s : State) (f : Fld) (n : Nat) : State :=
  if f = TOUT_CTRL_ARM 0 ∨ f = TOUT_CTRL_ARM 1 then
    (let j := (f.reg - 0x200200) / 32
     if n = 0 then s.cset f 0 else if s.con f then s else s.armTout j)
  else if 0x300000 ≤ f.reg ∧ f.reg < 0x400000 ∧ f.reg % 0x40000 < 0x10000 ∧ f.reg % 256 = 0 ∧ f.lo = 0 then
    s.enablePort ((f.reg - 0x300000) / 0x40000 * 256 + f.reg % 0x40000 / 256) (decide (n ≠ 0))
  else s.cset f n

/-- One field of a REG record (R362): out of range it takes its default. -/
def State.regField (s : State) (a v : Nat) (hi : Bool) (f : Fld) : State :=
  let n := f.merge (s.cget f) v hi
  if (concRange f).1 ≤ n ∧ n ≤ (concRange f).2 then s.loadField f n else (s.cset f f.reset).cfgFix a v

/-- A REG record (R361, R362, R429). -/
def State.applyReg (s : State) (a v : Nat) : State :=
  match (if a % 4 = 0 then findReg regClasses 4 a else none) with
  | none => s.logUnknown a v
  | some (fs, hi) =>
    let cs := fs.filter fun f => f.configurable && f.inWord hi
    if cs.isEmpty then s.logUnknown a v
    else
      let s1 := cs.foldl (fun z f => z.regField a v hi f) s
      if Nat.land v (usedBits fs hi) = v then s1 else s1.logRange a v

/-- A front-end word after the range check: the value, and whether a field took its default (R362, R403). -/
def checkedWord (fs : List Fld) (v : Nat) : Nat × Bool :=
  let cs := fs.filter fun f => decide (f.acc = .rw)
  let val (f : Fld) : Nat := bits v f.lo f.width
  let cross := cs.contains FE_TH_CFG_WARN && decide (val FE_TH_CFG_THROT ≤ val FE_TH_CFG_WARN)
  let bad (f : Fld) : Bool := decide (val f < (feRange f).1) || decide ((feRange f).2 < val f) ||
    (cross && (decide (f = FE_TH_CFG_WARN) || decide (f = FE_TH_CFG_THROT)))
  (regWord (fun f => if bad f then f.reset else val f) cs false, cs.any bad)

/-- A FEREG record for one port (R361, R362, R429). -/
def State.applyFeReg (s : State) (w v p : Nat) : State :=
  match fieldsAt feRegClasses w with
  | none => s.logUnknown (proxyAddr p w) v
  | some fs =>
    if (fs.filter fun f => decide (f.acc = .rw)).isEmpty || s.guardedFeWord p w then s.logUnknown (proxyAddr p w) v
    else
      let c := checkedWord fs v
      let s1 := s.setGold p w c.1
      let s2 := if c.2 then s1.cfgFix (proxyAddr p w) v else s1
      if Nat.land v (usedBits fs false) = v then s2 else s2.logRange (proxyAddr p w) v

/-- The register at `a` holds guarded fields (R426). -/
def guardedReg (a : Nat) : Bool :=
  match fieldsAt regClasses a with
  | some fs => fs.any fun f => decide (f.acc = .guarded)
  | none => false

/-- The guarded fields of the register at `a` set from a word. -/
def State.setGuarded (s : State) (a v : Nat) : State :=
  match fieldsAt regClasses a with
  | some fs => fs.foldl (fun z f => if f.acc = .guarded then z.cset f (bits v f.lo f.width) else z) s
  | none => s

/-- A setting of a GUARD record in the control space (R429). -/
def State.guardPair (s : State) (a v : Nat) : State :=
  if guardedReg a ∧ (proRefuse a v).isNone then s.setGuarded a v else s

/-- A setting of a GUARD record at the front-ends (R426, R429); one that names no guarded setting is ignored and logged. -/
def State.guardFePair (s : State) (a v : Nat) : State :=
  if guardedReg a then s
  else if 0x1000000 ≤ a ∧ a < 0x2000000 ∧ s.guardedFeWord ((a - 0x1000000) / 0x4000) (a % 0x4000 / 4) then
    s.setGold ((a - 0x1000000) / 0x4000) (a % 0x4000 / 4) v
  else s.logUnknown a v

/-- A GUARD record (R427, R429). -/
def State.applyGuard (s : State) (salt verifier : List Byte) (pairs : List (W32 × W32)) : State :=
  let s1 := ((s.modPro fun x => { x with salt := salt, verifier := verifier }).cset PRO_GWIN_PW_SET 1)
  pairs.foldl (fun z e => z.guardPair e.1.toNat e.2.toNat) s1

/-- A record other than GUARD (R360–R362). -/
def State.applyRec (s : State) (r : CfgRec) : State :=
  match r with
  | .ident c => s.cset GLB_CID_CID c.toNat
  | .reg a v => s.applyReg a.toNat v.toNat
  | .fereg p q w v =>
    ((List.range 1024).filter fun i => decide (p.val ≤ i ∧ i ≤ q.val)).foldl (fun z i => z.applyFeReg w.toNat v.toNat i) s
  | .other t => s.logUnknown 0 t.toNat
  | .guard _ _ _ | .note _ => s

/-- The container's GUARD record. -/
def guardOf : List CfgRec → Option CfgRec
  | [] => none
  | .guard a b c :: _ => some (.guard a b c)
  | _ :: r => guardOf r

/-- A record is an IDENT record. -/
def isIdent : CfgRec → Bool
  | .ident _ => true
  | _ => false

/-- The lane map replaced where a group below G has no enabled lane (R299, R362). -/
def State.fixLanes (s : State) : State :=
  let ok := (List.range s.groupCount).all fun g => (List.range 32).any fun l =>
    s.con (UPL_LMAP_EN (l / 8) (l % 8)) && decide (s.cget (UPL_LMAP_GROUP (l / 8) (l % 8)) = g)
  if ok && (List.range 32).any (fun l => s.con (UPL_LMAP_EN (l / 8) (l % 8))) then s
  else
    ((List.range 32).foldl (fun z l => (z.cset (UPL_LMAP_EN (l / 8) (l % 8)) 1).cset (UPL_LMAP_GROUP (l / 8) (l % 8)) (l / 8)) s).cfgFix
      (UPL_LMAP_EN 0 0).reg 0

/-- A claim number of 0 turns twin operation off (R384). -/
def State.fixClaim (s : State) : State :=
  if s.con TWIN_CFG_EN ∧ s.cget TWIN_CFG_CLAIM = 0 then (s.cset TWIN_CFG_EN 0).cfgFix TWIN_CFG_EN.reg 0 else s

/-! ### A container's bytes -/

/-- `n` pairs of 32-bit numbers at the head of some bytes. -/
def bytePairs : Nat → List Byte → List (W32 × W32)
  | 0, _ => []
  | n + 1, bs => (BitVec.ofNat 32 (bodyNat bs 0 4), BitVec.ofNat 32 (bodyNat bs 4 4)) :: bytePairs n (bs.drop 8)

/-- One record of TYPE `t` with its body (R360, R429). -/
def recordOf (t : Nat) (b : List Byte) : CfgRec :=
  if t = 1 ∧ 4 ≤ b.length then .ident (BitVec.ofNat 8 (bodyNat b 0 1))
  else if t = 2 ∧ b.length = 8 then .reg (BitVec.ofNat 32 (bodyNat b 0 4)) (BitVec.ofNat 32 (bodyNat b 4 4))
  else if t = 3 ∧ b.length = 12 then
    .fereg (Fin.ofNat 1024 (bits (bodyNat b 0 4) 0 10)) (Fin.ofNat 1024 (bits (bodyNat b 0 4) 16 10)) (BitVec.ofNat 32 (bodyNat b 4 4))
      (BitVec.ofNat 32 (bodyNat b 8 4))
  else if t = 4 ∧ 48 ≤ b.length then .guard (b.take 16) ((b.drop 16).take 32) (bytePairs ((b.length - 48) / 8) (b.drop 48))
  else if t = 5 then .note b
  else .other (BitVec.ofNat 16 t)

/-- The records that bytes spell (R360); none where they do not divide into records. -/
def parseRecords : Nat → List Byte → Option (List CfgRec)
  | 0, bs => if bs.isEmpty then some [] else none
  | n + 1, bs =>
    if bs.isEmpty then some []
    else
      let l := bodyNat bs 2 2
      if bs.length < 8 + l ∨ l % 4 ≠ 0 then none
      else (parseRecords n (bs.drop (8 + l))).map fun rs => recordOf (bodyNat bs 0 2) ((bs.drop 8).take l) :: rs

/-- The container that an area's bytes spell (R360): MAGIC is taken with the header's code, and LEN bytes of records with theirs. -/
def containerOf (bs : List Byte) : Container :=
  let n := bodyNat bs 16 4
  let body := (bs.drop 32).take n
  { version := BitVec.ofNat 16 (bodyNat bs 4 2), gen := BitVec.ofNat 64 (bodyNat bs 8 8)
    crcOk := decide (body.length = n) && decide (n ≤ 8388576) && decide (bodyNat bs 24 4 = crc32c body)
    hcrcOk := decide (32 ≤ bs.length) && decide (bodyNat bs 0 4 = 0xABA00C01) && decide (bodyNat bs 28 4 = crc32c (bs.take 28))
    recs := (parseRecords body.length body).getD [] }

/-- A container that may be used (R360). -/
def containerValid (c : Container) : Bool := decide (c.version = 3) && c.crcOk && c.hcrcOk

/-- The container in use of two (R360). -/
def chooseContainer (c0 c1 : Container) : Option Nat :=
  if containerValid c0 && containerValid c1 then some (if c0.gen.toNat < c1.gen.toNat then 1 else 0)
  else if containerValid c0 then some 0 else if containerValid c1 then some 1 else none

/-- The records of a container applied (R361, R362, R429); a power state they ask for is held until READY (R366). -/
def State.applyAll (s : State) (rs : List CfgRec) : State :=
  let s1 : State := match guardOf rs with
    | some (.guard a b ps) => s.applyGuard a b ps
    | _ => s
  let s2 := rs.foldl (fun z r => z.applyRec r) s1
  let s3 := if rs.any isIdent then s2 else s2.logUnknown GLB_CID_CID.reg 0
  let s4 : State := match guardOf rs with
    | some (.guard _ _ ps) => ps.foldl (fun (z : State) (e : W32 × W32) => z.guardFePair e.1.toNat e.2.toNat) s3
    | _ => s3
  let s5 := s4.fixLanes.fixClaim
  if s5.cget GLB_PWR_REQ = 0 then s5 else s5.modGlb fun g => { g with heldReq := some (s5.cget GLB_PWR_REQ + 1) }

/-- CONFIG_APPLY (R29, R299, R360–R363, R365, R373, R384, R429): start-up reads the two containers and applies the one in use. `b0` and
`b1` are the bytes of the two areas of a module whose containers the model has not seen; later start-ups find what was kept. -/
def execConfigApply (b0 b1 : List Byte) (s : State) : Out :=
  .next (
    if s.con GLB_STAT_READY || s.glb.configured then s
    else
      let c0 := if s.nvm.known then s.nvm.cont0 else containerOf b0
      let c1 := if s.nvm.known then s.nvm.cont1 else containerOf b1
      let u := chooseContainer c0 c1
      let s1 := (s.modNvm fun n => { n with cont0 := c0, cont1 := c1, inUse := u, known := true }).modGlb fun g => { g with configured := true }
      match u with
      | none => s1.cset GLB_STAT_CFG_DEFAULT 1
      | some n =>
        let c := if n = 0 then c0 else c1
        (s1.cset NVM_CFGGEN_GEN c.gen.toNat).applyAll c.recs)

/-! ### A new container -/

/-- The container in use. -/
def State.container (s : State) : Option Container :=
  s.nvm.inUse.map fun n => if n = 0 then s.nvm.cont0 else s.nvm.cont1

/-- The records of the container in use. -/
def State.records (s : State) : List CfgRec := match s.container with | some c => c.recs | none => []

/-- `GEN` of a new container: one higher than that of the one in use (R364). -/
def State.nextGen (s : State) : Nat := (match s.container with | some c => c.gen.toNat + 1 | none => 1) % 2 ^ 64

/-- The copy that is not in use (R364). -/
def State.otherCopy (s : State) : Nat := match s.nvm.inUse with | some n => 1 - n | none => 0

/-- A new container written into the copy not in use (R355, R364). -/
def State.newContainer (s : State) (rs : List CfgRec) : State :=
  let c : Container := { version := 3, gen := BitVec.ofNat 64 s.nextGen, crcOk := true, hcrcOk := true, recs := rs }
  let n := s.otherCopy
  (s.modNvm fun v => if n = 0 then { v with cont0 := c } else { v with cont1 := c }).program (.container n)

/-- The records with the GUARD record replaced. -/
def withGuard (rs : List CfgRec) (g : CfgRec) : List CfgRec :=
  (rs.filter fun r => match r with | .guard _ _ _ => false | _ => true) ++ [g]

/-- The records of the container that bytes spell, header and check codes included (R360). -/
def parseContainer (bs : List Byte) : Option (List CfgRec) :=
  let body := bs.drop 32
  if bs.length < 32 ∨ bodyNat bs 0 4 ≠ 0xABA00C01 ∨ bodyNat bs 4 2 ≠ 3 ∨ bodyNat bs 16 4 ≠ body.length ∨
      bodyNat bs 24 4 ≠ crc32c body ∨ bodyNat bs 28 4 ≠ crc32c (bs.take 28) then none
  else match parseRecords body.length body with
    | some rs => if bodyNat bs 20 4 = rs.length then some rs else none
    | none => none

end Sys2Proof.Machine
end

