-- ==== Sys2Proof/Machine/Mailbox.lean ====
section
/-! DEFINITION. The mailbox and the services REG, RUN, CAL, HIST, MON, TIME, GUARD and LOG (R329–R337, R428, R458). -/

namespace Sys2Proof.Machine

/-! ### Replies -/

/-- The group of RX lane `j` (R330). -/
def State.laneOf (s : State) (j : Nat) : Nat := s.cget (UR_CFG_GROUP j)

/-- The most body bytes of a mailbox packet on group `g` (R330). -/
def State.blenMax (s : State) (g : Nat) : Nat := if s.cget (UG_STAT_VER g) = 1 then 1016 else 2040

/-- An outbound mailbox packet (R330). -/
def State.sendReply (s : State) (g svc cmd tag st : Nat) (body : List Byte) : State :=
  s.sendCtrl g ([0x83, BitVec.ofNat 8 svc, BitVec.ofNat 8 cmd] ++ leBytes 2 tag ++ leBytes 2 body.length ++ [BitVec.ofNat 8 st] ++ body)

/-- A reply sent and kept for repeats: the last 64 (R333). -/
def State.reply (s : State) (g svc cmd tag st : Nat) (body : List Byte) : State :=
  let r : Reply :=
    { group := g, service := svc, cmd := cmd, tag := tag, status := st, body := body, tick := s.tm.tick, final := decide (st ≠ 1) }
  let old := s.sp.replies.filter fun x => !(decide (x.group = g ∧ x.service = svc ∧ x.cmd = cmd ∧ x.tag = tag))
  (s.modSp fun x => { x with replies := (r :: old).take 64 }).sendReply g svc cmd tag st body

/-- The kept reply of a repeated key: within 2 s, or as long as the command runs (R333). -/
def State.repeated (s : State) (g svc cmd tag : Nat) : Option Reply :=
  s.sp.replies.find? fun r => decide (r.group = g ∧ r.service = svc ∧ r.cmd = cmd ∧ r.tag = tag) &&
    (!r.final || decide (s.tm.tick ≤ r.tick + 2 * ticksSec))

/-- A long command in progress ends with its final reply (R332). -/
def State.finishLong (s : State) (l : LongCmd) (st : Nat) (body : List Byte) : State :=
  (s.modSp fun x => { x with longs := x.longs.filter fun y => decide (y ≠ l) }).reply l.group l.service l.cmd l.tag st body

/-- A command answered ACCEPTED; what it saved and its arguments are kept until it completes (R332). -/
def State.startLong (s : State) (lane svc cmd tag : Nat) (saved : List (Nat × Nat × Nat)) (arg : List Nat) : State :=
  let g := s.laneOf lane
  (s.modSp fun x => { x with longs := x.longs ++
    [{ lane := lane, group := g, service := svc, cmd := cmd, tag := tag, saved := saved, arg := arg }] }).reply g svc cmd tag 1 []

/-- The commands of a service (R331, R374, R400, R428). -/
def serviceCommands (svc : Nat) : List Nat :=
  match svc with
  | 0 => [1, 2] | 1 => [1, 2, 3] | 2 => [2, 3, 4, 5] | 3 => [2, 3] | 4 => [1] | 5 => [1, 2, 3] | 6 => [1, 2, 3, 4]
  | 7 => [1, 2, 3, 4, 5, 6, 0x10, 0x11, 0x12] | 8 => [1, 2, 3] | 9 => [1] | _ => []

/-- A mailbox packet for service `svc` is answered FROZEN (R329, R347, R359). -/
def State.mailFrozen (s : State) (svc : Nat) : Bool :=
  s.frozen 17 || (decide (svc ≠ 0) && s.spDown && !(s.con GLB_STAT_RECOVERY && decide (svc = 7)))

/-- What a packet is answered with before any service sees it: FROZEN, NO_COMMAND of the recovery loader, or a repeat (R329,
R333, R359). -/
def State.preReply (s : State) (g svc cmd tag : Nat) : Option State :=
  if s.mailFrozen svc then some (s.sendReply g svc cmd tag 7 [])
  else if s.con GLB_STAT_RECOVERY && decide (svc = 7) && decide (6 < cmd) then some (s.sendReply g svc cmd tag 3 [])
  else (s.repeated g svc cmd tag).map fun r => (s.cbump SP_EVT_DUP).sendReply g svc cmd tag r.status r.body

/-- A service command executed for the packet that carries it (R332, R333). -/
def State.mailServe (s : State) (lane svc cmd tag : Nat) (k : State → State) : State :=
  let mine : Bool := match s.sp.taken with
    | some t => decide (t.lane = lane ∧ t.service = svc ∧ t.cmd = cmd ∧ t.tag = tag)
    | none => false
  let s0 := if mine then s.modSp fun x => { x with taken := none } else s
  match s0.preReply (s0.laneOf lane) svc cmd tag with
  | some z => z
  | none => k s0

/-- The service runs a long command (R332). -/
def State.busy (s : State) (svc : Nat) : Bool := s.sp.longs.any fun l => decide (l.service = svc)

/-- The words of the first packet in the inbound queue, and the words after it. -/
def firstPacket : List InWord → List InWord × List InWord
  | [] => ([], [])
  | w :: r => if w.end_ then ([w], r) else let x := firstPacket r; (w :: x.1, x.2)

/-- MAILBOX_TAKE (R320, R329–R333): the packet at the head of the inbound queue is taken, and answered or dispatched. -/
def execMailboxTake (s : State) : Out :=
  .next (match s.upl.inbound with
    | [] => s
    | w0 :: _ =>
      let x := firstPacket s.upl.inbound
      let len := s.upl.inLens.headD 0
      let bs := (wordsBytes (x.1.map InWord.word)).take len
      let s1 := (s.modUpl fun u => { u with inbound := x.2, inLens := u.inLens.drop 1 }).showInbound
      let svc := bodyNat bs 1 1
      let cmd := bodyNat bs 2 1
      let tag := bodyNat bs 3 2
      let blen := bodyNat bs 5 2
      let g := s1.laneOf w0.lane
      if len ≠ 8 + blen ∨ s1.blenMax g < blen then s1.sendReply g svc cmd tag 4 []
      else if 9 < svc then s1.sendReply g svc cmd tag 2 []
      else match s1.preReply g svc cmd tag with
        | some z => z
        | none =>
          if !((serviceCommands svc).contains cmd) then s1.reply g svc cmd tag 3 []
          else s1.modSp fun y => { y with
            taken := some { lane := w0.lane, service := svc, cmd := cmd, tag := tag, body := bs.drop 8 } })

/-! ### REG -/

/-- How REG's run over its words ends: words read, then the index and status where it stopped. -/
def State.regRead (s : State) (a i : Nat) : Nat → List Byte × Option (Nat × Nat) × State
  | 0 => ([], none, s)
  | n + 1 =>
    let ad := a + 4 * i
    if !(s.permitted 17 .control ad .read) then ([], some (i, 6), s.violation 17 .control ad .read)
    else
      let r := s.busRead 17 ad
      if r.1 then ([], some (i, 8), r.2.2)
      else
        let t := r.2.2.regRead a (i + 1) n
        (leBytes 4 r.2.1 ++ t.1, t.2)

/-- REG's run over the words it writes. -/
def State.regWrite (s : State) (a i tag : Nat) : Nat → List Byte → Option (Nat × Nat) × State
  | 0, _ => (none, s)
  | n + 1, bs =>
    let ad := a + 4 * i
    if !(s.permitted 17 .control ad .write) then (some (i, 6), s.violation 17 .control ad .write)
    else
      let r := s.busWriteTag 17 ad (bodyNat bs 0 4) tag
      if r.2 then (some (i, 8), r.1) else r.1.regWrite a (i + 1) tag n (bs.drop 4)

/-- READ (R330–R333, R347, R348): service 0, command 1. -/
def execReadCmd (lane : Fin 8) (tag : BitVec 16) (body : List Byte) (s : State) : Out :=
  .next (s.mailServe lane.val 0 1 tag.toNat fun z =>
    let g := z.laneOf lane.val
    let a := bodyNat body 0 4
    let n := bodyNat body 4 2
    let top := if z.cget (UG_STAT_VER g) = 1 then 254 else 255
    if body.length ≠ 6 ∨ n = 0 ∨ top < n ∨ a % 4 ≠ 0 then z.reply g 0 1 tag.toNat 4 []
    else
      let r := z.regRead a 0 n
      match r.2.1 with
      | none => r.2.2.reply g 0 1 tag.toNat 0 r.1
      | some (i, st) => r.2.2.reply g 0 1 tag.toNat st (if st = 8 then leBytes 2 i ++ r.1 else []))

/-- WRITE (R330–R333, R347, R348): service 0, command 2. -/
def execWriteCmd (lane : Fin 8) (tag : BitVec 16) (body : List Byte) (s : State) : Out :=
  .next (s.mailServe lane.val 0 2 tag.toNat fun z =>
    let g := z.laneOf lane.val
    let a := bodyNat body 0 4
    let n := bodyNat body 4 2
    let top := if z.cget (UG_STAT_VER g) = 1 then 252 else 255
    if n = 0 ∨ top < n ∨ body.length ≠ 6 + 4 * n ∨ a % 4 ≠ 0 then z.reply g 0 2 tag.toNat 4 []
    else
      let r := z.regWrite a 0 tag.toNat n (body.drop 6)
      match r.1 with
      | none => r.2.reply g 0 2 tag.toNat 0 []
      | some (i, st) => r.2.reply g 0 2 tag.toNat st (if st = 8 then leBytes 2 i else []))

/-! ### RUN -/

/-- A write by the firmware, under the SP's windows (R347). -/
def State.spWrite (s : State) (a v tag : Nat) : State := s.guarded 0 .control a .write fun z => (z.busWriteTag 0 a v tag).1

/-- RUN_STATUS (R331): service 1, command 1; the layout of its reply is not given (log entry 7). -/
def execRunStatus (lane : Fin 8) (tag : BitVec 16) (body : List Byte) (s : State) : Out :=
  .next (s.mailServe lane.val 1 1 tag.toNat fun z =>
    if body.isEmpty then z.reply (z.laneOf lane.val) 1 1 tag.toNat 0 (Config.runStatusBody (z.peek TRG_CTRL_MODE.reg) (z.peek TRG_STAT_ARMED.reg))
    else z.reply (z.laneOf lane.val) 1 1 tag.toNat 4 [])

/-- START (R264, R265, R331): service 1, command 2. -/
def execStartCmd (lane : Fin 8) (tag : BitVec 16) (body : List Byte) (s : State) : Out :=
  .next (s.mailServe lane.val 1 2 tag.toNat fun z =>
    let g := z.laneOf lane.val
    let mode := bodyNat body 0 1
    if body.length ≠ 1 ∨ 2 < mode then z.reply g 1 2 tag.toNat 4 []
    else
      let a := TRG_CTRL_MODE.reg
      let z1 := z.spWrite a (z.peek a / 4 * 4 + mode) tag.toNat
      if z1.cget TRG_CTRL_MODE ≠ mode then z1.reply g 1 2 tag.toNat 8 [0]
      else
        let v := z1.peek a
        (z1.spWrite a (if bitAt v 2 then v else v + 4) tag.toNat).reply g 1 2 tag.toNat 0 [])

/-- STOP (R265, R331): service 1, command 3. -/
def execStopCmd (lane : Fin 8) (tag : BitVec 16) (body : List Byte) (s : State) : Out :=
  .next (s.mailServe lane.val 1 3 tag.toNat fun z =>
    let g := z.laneOf lane.val
    if !body.isEmpty then z.reply g 1 3 tag.toNat 4 []
    else
      let a := TRG_CTRL_MODE.reg
      let v := z.peek a
      (z.spWrite a (if bitAt v 2 then v - 4 else v) tag.toNat).reply g 1 3 tag.toNat 0 [])

/-! ### CAL and HIST -/

/-- A CAL scan starts (R103, R104, R331, R335): the first step's registers are set; its first PULSE goes out at the next tick. -/
def State.calStart (s : State) (lane cmd tag : Nat) (body : List Byte) : State :=
  let g := s.laneOf lane
  let first := bodyNat body 0 2
  let last := bodyNat body 2 2
  let sel := bodyNat body 4 1
  let m := bodyNat body 5 2
  let start := bodyNat body 8 2
  let stop := bodyNat body 10 2
  let step := bodyNat body 12 2
  let top := if cmd = 3 then start / 512 * 512 + 511 else 1023
  if body.length ≠ 16 ∨ last < first ∨ 1023 < last ∨ 2 < sel ∨ m = 0 ∨ stop < start ∨ top < stop ∨ step = 0 ∨ bodyNat body 14 2 ≠ 0 then
    s.reply g 2 cmd tag 4 []
  else if s.busy 2 then s.reply g 2 cmd tag 5 []
  else
    let x : Scan :=
      { cmd := cmd, first := first, last := last, sel := sel, m := m, start := start, stop := stop, step := step
        odd := if sel = 2 then 1 else 0, value := start, base := s.scanBase first last }
    let ws := s.scanWords x
    let saved := ws.map fun e => (e.1, e.2.1, s.fpeek e.1 e.2.1)
    let r := s.spProxies ws
    match r.1 with
    | some p => (r.2.calRestore saved).reply g 2 cmd tag 8 (leBytes 2 p)
    | none => (r.2.setScan x).startLong lane 2 cmd tag saved [first, last, sel, m, start, stop, step]

/-- THRESH (R104, R331, R335): service 2, command 2. -/
def execThresh (lane : Fin 8) (tag : BitVec 16) (body : List Byte) (s : State) : Out :=
  .next (s.mailServe lane.val 2 2 tag.toNat fun z => z.calStart lane.val 2 tag.toNat body)

/-- PHASE (R103, R104, R331, R335): service 2, command 3. -/
def execPhase (lane : Fin 8) (tag : BitVec 16) (body : List Byte) (s : State) : Out :=
  .next (s.mailServe lane.val 2 3 tag.toNat fun z => z.calStart lane.val 3 tag.toNat body)

/-- AMPL (R104, R331, R335): service 2, command 4. -/
def execAmpl (lane : Fin 8) (tag : BitVec 16) (body : List Byte) (s : State) : Out :=
  .next (s.mailServe lane.val 2 4 tag.toNat fun z => z.calStart lane.val 4 tag.toNat body)

/-- The long commands of a service end FAILED; a scan's registers are restored. -/
def State.abortLongs (s : State) (svc st : Nat) : State :=
  (s.sp.longs.filter fun l => decide (l.service = svc)).foldl (fun z l => (z.calRestore l.saved).finishLong l st []) s

/-- CAL_ABORT (R331, R335): service 2, command 5. -/
def execCalAbort (lane : Fin 8) (tag : BitVec 16) (body : List Byte) (s : State) : Out :=
  .next (s.mailServe lane.val 2 5 tag.toNat fun z =>
    if body.isEmpty then ((z.modSp fun x => { x with scan := none }).abortLongs 2 8).reply (z.laneOf lane.val) 2 5 tag.toNat 0 []
    else z.reply (z.laneOf lane.val) 2 5 tag.toNat 4 [])

/-- HIST_START (R331, R336): service 3, command 2. -/
def execHistStart (lane : Fin 8) (tag : BitVec 16) (body : List Byte) (s : State) : Out :=
  .next (s.mailServe lane.val 3 2 tag.toNat fun z =>
    let g := z.laneOf lane.val
    let p := bodyNat body 0 2
    let n := bodyNat body 2 4
    if body.length ≠ 8 ∨ 1023 < p ∨ n = 0 ∨ 2 ^ 24 < n ∨ bodyNat body 6 2 ≠ 0 then z.reply g 3 2 tag.toNat 4 []
    else if z.busy 3 then z.reply g 3 2 tag.toNat 5 []
    else (z.modSp fun x => { x with hist := some { first := p, frames := n, from_ := z.frame + 1 } }).startLong lane.val 3 2 tag.toNat [] [p, n])

/-- HIST_STOP (R331, R336): service 3, command 3; the run it ends is answered OK. -/
def execHistStop (lane : Fin 8) (tag : BitVec 16) (body : List Byte) (s : State) : Out :=
  .next (s.mailServe lane.val 3 3 tag.toNat fun z =>
    if body.isEmpty then ((z.modSp fun x => { x with hist := none }).abortLongs 3 0).reply (z.laneOf lane.val) 3 3 tag.toNat 0 []
    else z.reply (z.laneOf lane.val) 3 3 tag.toNat 4 [])

/-- The MON packets that carry entries of one kind: 127 entries in a packet (R312, R337). -/
def entryPackets (svc kind tag : Nat) : Nat → List W64 → List (List W64)
  | 0, _ => []
  | n + 1, ws =>
    if ws.isEmpty then []
    else
      let here := ws.take 254
      (packW [(0, 8, svc), (8, 8, kind), (16, 16, tag), (32, 32, here.length / 2)] :: here) :: entryPackets svc kind tag n (ws.drop 254)

/-- Entries sent in MON packets, behind those that wait. -/
def State.sendEntries (s : State) (svc kind tag : Nat) (ws : List W64) : State :=
  (s.modSp fun x => { x with monOut := x.monOut ++ entryPackets svc kind tag ws.length ws }).monFeed 64

/-- The results of a scan by kind: steps, and for PHASE the summary. What the steps of THRESH show is not stated, and `thr` says it (log
entry 57). -/
def State.calEntries (s : State) (x : Scan) (thr : List (BitVec 27 × BitVec 16 × W32 × W32)) : List W64 × List W64 :=
  (if x.cmd = 2 then thr.flatMap fun e => calEntry e.1.toNat e.2.1.toNat (toSigned 32 e.2.2.1.toNat) e.2.2.2.toNat else s.calSteps x,
   if x.cmd = 3 then s.calSummary x else [])

/-- The CAL command `l` completes with its scan: registers restored, results sent, final reply; FAILED with the port where a write failed. -/
def State.calComplete (s : State) (l : LongCmd) (thr : List (BitVec 27 × BitVec 16 × W32 × W32)) : State :=
  let s1 := s.calRestore l.saved
  match s.sp.scan with
  | none => s1.finishLong l 0 []
  | some x =>
    let s2 := s1.modSp fun y => { y with scan := none }
    match x.failed with
    | some p => s2.finishLong l 8 (leBytes 2 p)
    | none =>
      let w := s.calEntries x thr
      let s3 := (s2.sendEntries 2 1 l.tag w.1).sendEntries 2 2 l.tag w.2
      (s3.modSp fun y => { y with calResults := w.1 ++ w.2 }).finishLong l 0 []

/-- The HIST command `l` completes: its counts sent, and its final reply. -/
def State.histComplete (s : State) (l : LongCmd) : State :=
  let ws := match s.sp.hist with | some h => s.histEntries h | none => []
  ((s.modSp fun x => { x with hist := none }).sendEntries 3 3 l.tag ws).finishLong l 0 []

/-- LONG_COMMAND_COMPLETE (R103, R332, R335–R337): the oldest CAL or HIST command whose last frame has been committed completes: registers
restored, results sent by kind in MON packets, and its final reply. `results` gives mean and rms of the steps of THRESH: channel, step
value, mean, rms. -/
def execLongCommandComplete (results : List (BitVec 27 × BitVec 16 × W32 × W32)) (s : State) : Out :=
  .next (match s.sp.longs.find? fun l => (decide (l.service = 2) && s.scanDone) || (decide (l.service = 3) && s.histDone) with
    | none => s
    | some l => if s.spDown then s else if l.service = 2 then s.calComplete l results else s.histComplete l)

/-! ### MON and TIME -/

/-- PERIOD (R331): service 4, command 1. -/
def execPeriod (lane : Fin 8) (tag : BitVec 16) (body : List Byte) (s : State) : Out :=
  .next (s.mailServe lane.val 4 1 tag.toNat fun z =>
    let n := bodyNat body 0 2
    if body.length ≠ 2 ∨ n < 10 ∨ 60000 < n then z.reply (z.laneOf lane.val) 4 1 tag.toNat 4 []
    else (z.modSp fun x => { x with monPeriod := some n, monTick := z.tm.tick }).reply (z.laneOf lane.val) 4 1 tag.toNat 0 [])

/-- MON_SUMMARY (R331): the interval expires and a summary goes out; its layout is not given (log entry 6). -/
def execMonSummary (s : State) : Out :=
  .next (match s.sp.monPeriod with
    | some n =>
      if s.spDown ∨ s.since s.sp.monTick < ticksMs n then s
      else
        let d := s.draw
        (d.2.sendMon (Config.monSummaryWords d.1)).modSp fun x => { x with monTick := s.tm.tick }
    | none => s)

/-- TIME_STATUS (R331): service 5, command 1; the layout of its reply is not given (log entry 7). -/
def execTimeStatus (lane : Fin 8) (tag : BitVec 16) (body : List Byte) (s : State) : Out :=
  .next (s.mailServe lane.val 5 1 tag.toNat fun z =>
    if body.isEmpty then z.reply (z.laneOf lane.val) 5 1 tag.toNat 0 (Config.timeStatusBody (z.peek TIM_STAT_QUAL.reg) z.stepVal)
    else z.reply (z.laneOf lane.val) 5 1 tag.toNat 4 [])

/-- The pending step dropped (R41). -/
def State.dropStep (s : State) : State := (s.cset TIM_STAT_STEP_PEND 0).modTm fun t => { t with belowRun := 0 }

/-- ACCEPT (R42–R44, R331, R458): service 5, command 2; `droppedNow` says that R41 drops the step in the cycle of the apply. -/
def execAcceptStep (lane : Fin 8) (tag : BitVec 16) (body : List Byte) (droppedNow : Bool) (s : State) : Out :=
  .next (s.mailServe lane.val 5 2 tag.toNat fun z =>
    let ans (y : State) (st : Nat) (b : List Byte) : State := y.reply (y.laneOf lane.val) 5 2 tag.toNat st b
    if body.length ≠ 10 then ans z 4 []
    else if bodyNat body 0 2 ≠ 0xA5C3 then ans (z.cbump TIM_EVT_CNT_KEY_ERR) 6 []
    else if !(z.con TIM_STAT_STEP_PEND) then ans z 8 [1]
    else if bodyNat body 2 8 ≠ z.cget TIM_STEP_VAL_VAL then ans z 4 []
    else if z.stepBlocked z.stepVal then ans z 8 [2]
    else if droppedNow then ans z.dropStep 8 [3]
    else ans (z.acceptStep z.stepVal) 0 [])

/-- WITHDRAW (R41, R331, R458): service 5, command 3. -/
def execWithdrawStep (lane : Fin 8) (tag : BitVec 16) (body : List Byte) (s : State) : Out :=
  .next (s.mailServe lane.val 5 3 tag.toNat fun z =>
    let ans (y : State) (st : Nat) (b : List Byte) : State := y.reply (y.laneOf lane.val) 5 3 tag.toNat st b
    if !body.isEmpty then ans z 4 []
    else if !(z.con TIM_STAT_STEP_PEND) then ans z 8 [1]
    else ans z.dropStep 0 [])

/-! ### GUARD -/

/-- GUARD_STATUS (R428): service 6, command 1. -/
def execGuardStatus (lane : Fin 8) (tag : BitVec 16) (body : List Byte) (s : State) : Out :=
  .next (s.mailServe lane.val 6 1 tag.toNat fun z =>
    if !body.isEmpty then z.reply (z.laneOf lane.val) 6 1 tag.toNat 4 []
    else z.reply (z.laneOf lane.val) 6 1 tag.toNat 0
      ([0x900000, 0x900014, 0x900018, 0x90001C].flatMap fun a => leBytes 4 (z.peek a)))

/-- The length of the password field at the head of some bytes, or none where they are too few (R428). -/
def pwLength (bs : List Byte) : Option Nat :=
  match bs with
  | [] => none
  | l :: r => if l.toNat ≤ r.length then some l.toNat else none

/-- A configuration or image write is in progress (R374, R428). -/
def State.writeBusy (s : State) : Bool :=
  s.nvm.imgTotal.isSome || s.nvm.cfgBuf.isSome || s.sp.longs.any fun l => decide (l.service = 7)

/-- The GUARD record as it now stands, with pairs that win over those of the same address (R428, R429). -/
def State.guardRecord (s : State) (new : List (W32 × W32)) : CfgRec :=
  let old := match guardOf s.records with
    | some (.guard _ _ ps) => ps.filter fun e => !(new.any fun f => decide (f.1 = e.1))
    | _ => []
  .guard s.pro.salt s.pro.verifier (old ++ new)

/-- A guarded setting written by the GUARD service: a guarded field, or a guarded word of a front-end with its golden copy
(R191, R426, R428, R430). -/
def State.guardWrite (s : State) (a v tag : Nat) : State :=
  if a < 0x1000000 then (s.busWriteTag 0 a v tag).1
  else
    let p := (a - 0x1000000) / 0x4000
    let w := a % 0x4000 / 4
    let old := s.goldWord p w
    let s1 := s.setGold p w v
    let s2 := if s1.plState p = 6 ∧ s1.feLive p ∧ s1.writesObeyed p (s1.face p) then s1.feWrite p w s1.nowInst v else s1
    s2.logGuard a (s2.goldWord p w) old 0 tag

/-- An address of R426. -/
def State.guardedAddr (s : State) (a : Nat) : Bool :=
  decide (a % 4 = 0) && (guardedReg a ||
    (decide (0x1000000 ≤ a ∧ a < 0x2000000) && s.guardedFeWord ((a - 0x1000000) / 0x4000) (a % 0x4000 / 4)))

/-- The password at the head of a GUARD command's body (R428). -/
def pwOf (body : List Byte) : List Byte := (body.drop 1).take ((pwLength body).getD 0)

/-- SET (R426–R430): service 6, command 2; `pwOk` says whether the password matches, and a command that says it wrongly does not occur. -/
def execGuardSet (lane : Fin 8) (tag : BitVec 16) (body : List Byte) (pwOk : Bool) (s : State) : Out :=
  .next (if pwOk ≠ s.pwMatches (pwOf body) then s else s.mailServe lane.val 6 2 tag.toNat fun z =>
    let ans (y : State) (st : Nat) : State := y.reply (y.laneOf lane.val) 6 2 tag.toNat st []
    match pwLength body with
    | none => ans z 4
    | some l =>
      let n := bodyNat body (1 + l) 2
      let ps := bytePairs n (body.drop (3 + l))
      if n = 0 ∨ body.length ≠ 3 + l + 8 * n ∨ ps.any (fun e => !(z.guardedAddr e.1.toNat)) then ans z 4
      else if z.writeBusy then ans z 5
      else
        let c := z.passwordCheck (pwOf body)
        if !c.2 then ans c.1 6
        else
          let z1 := ps.foldl (fun (y : State) (e : W32 × W32) => y.guardWrite e.1.toNat e.2.toNat tag.toNat) c.1
          let z2 := z1.opGcommit 1
          ans (z2.newContainer (withGuard z2.records (z2.guardRecord ps))) 0)

/-- A password of 8–32 printable characters (R427). -/
def goodPassword (bs : List Byte) : Bool :=
  decide (8 ≤ bs.length) && decide (bs.length ≤ 32) && bs.all fun b => decide (0x20 ≤ b.toNat) && decide (b.toNat ≤ 0x7E)

/-- SETPW (R418, R427–R430): service 6, command 3. The service draws a salt of 16 bytes, and the verifier it makes of the new password is
SHA-256(salt ‖ password); `pwOk` is as for SET. -/
def execSetpw (lane : Fin 8) (tag : BitVec 16) (body : List Byte) (pwOk : Bool) (salt verifier : List Byte) (s : State) : Out :=
  .next (if pwOk ≠ s.pwMatches (pwOf body) ∨ salt.length ≠ 16 ∨
      verifier ≠ sha256 (salt ++ pwOf (body.drop (1 + (pwLength body).getD 0))) then s else s.mailServe lane.val 6 3 tag.toNat fun z =>
    let ans (y : State) (st : Nat) : State := y.reply (y.laneOf lane.val) 6 3 tag.toNat st []
    match pwLength body with
    | none => ans z 4
    | some l =>
      let rest := body.drop (1 + l)
      match pwLength rest with
      | none => ans z 4
      | some k =>
        if rest.length ≠ 1 + k ∨ !(goodPassword (rest.drop 1)) then ans z 4
        else if z.writeBusy then ans z 5
        else
          let held := z.pro.grstHeld && decide (z.pro.grstTick + ticksMs 500 ≤ z.tm.tick)
          let c := if l = 0 then (z, !(z.con PRO_GWIN_PW_SET) && held) else z.passwordCheck (pwOf body)
          if !c.2 then ans c.1 6
          else
            let z1 := ((c.1.opGcommit 1).modPro fun x => { x with salt := salt, verifier := verifier }).cset PRO_GWIN_PW_SET 1
            let z2 := z1.logAdd (z1.stamp 0x8900 PRO_GPW_BYTE.reg 0 0 0 true tag.toNat 0 0)
            ans (z2.newContainer (withGuard z2.records (z2.guardRecord []))) 0)

/-- GUARD_RESET (R424, R427, R428): service 6, command 4. -/
def execGuardReset (lane : Fin 8) (tag : BitVec 16) (body : List Byte) (pwOk : Bool) (outs : List OutRead) (s : State) : Out :=
  .next (if pwOk ≠ s.pwMatches (pwOf body) then s else s.mailServe lane.val 6 4 tag.toNat fun z =>
    let ans (y : State) (st : Nat) : State := y.reply (y.laneOf lane.val) 6 4 tag.toNat st []
    match pwLength body with
    | none => ans z 4
    | some l =>
      if body.length ≠ 1 + l then ans z 4
      else if !z.classL then ans z 6
      else
        let c := z.passwordCheck (pwOf body)
        if c.2 then ans ((c.1.opGcommit 1).guardReset outs) 0 else ans c.1 6)

/-! ### LOG -/

/-- LOG_READ (R331, R381): service 9, command 1; an entry that is not stored sends no packet. -/
def execLogRead (lane : Fin 8) (tag : BitVec 16) (body : List Byte) (s : State) : Out :=
  .next (s.mailServe lane.val 9 1 tag.toNat fun z =>
    let n := bodyNat body 2 2
    if body.length ≠ 4 ∨ n = 0 ∨ 1024 < n then z.reply (z.laneOf lane.val) 9 1 tag.toNat 4 []
    else
      let z1 := (List.range n).foldl (fun (y : State) i =>
        match y.nvm.log.find? fun e => decide (e.1 = (bodyNat body 0 2 + i) % 65536) with
        | some e => y.enqueueAll (y.groupsOf (y.cget UPL_CFG_MONLOG_GRPS)) 3 { typ := 5, words := e.2.words }
        | none => y) z
      z1.reply (z1.laneOf lane.val) 9 1 tag.toNat 0 [])

end Sys2Proof.Machine
end

