-- ==== Sys2Proof/Machine/Update.lean ====
section
/-! DEFINITION. The field update (R374–R379): the UPD service, the chain of neighbours, activation, the trial and its end, and the
completion of NVM programs (R355). -/

namespace Sys2Proof.Machine

/-! ### Parts -/

/-- The inactive slot. -/
def State.spareSlot (s : State) : Nat := 1 - s.cget NVM_SLOT_ACTIVE

/-- The chain neighbour on a side: true is upstream. -/
def State.side (s : State) (up : Bool) : ChainSide := if up then s.nvm.up else s.nvm.dn

/-- A side of the chain changed. -/
def State.modSide (s : State) (up : Bool) (g : ChainSide → ChainSide) : State :=
  s.modNvm fun n => if up then { n with up := g n.up } else { n with dn := g n.dn }

/-- A neighbour is named on a side (R375). -/
def State.neighbour (s : State) (up : Bool) : Bool := if up then decide (s.cget UPD_UP_MAC ≠ 0) else decide (s.cget UPD_DN_MAC ≠ 0)

/-- The payload of an update frame (R375): a header of two words and the data. -/
def updFrame (typ reason count block image : Nat) (data : List Byte) : List Byte :=
  wordsBytes [packW [(0, 4, typ), (4, 4, reason), (8, 8, count), (16, 16, data.length), (32, 32, block)],
    packW [(0, 32, image), (32, 32, crc32c data)]] ++ data

/-- An update frame about image `image` sent to a side (R375); a frozen NET halts the chain (R347). -/
def State.sendUpd (s : State) (up : Bool) (typ reason count block image : Nat) (data : List Byte := []) : State :=
  if s.frozen 18 then s else { s with svcTx := .update up (updFrame typ reason count block image data) :: s.svcTx }

/-- The data of an update frame are as its header says (R375, R376). -/
def updSound (f : UpdFrame) (data : List Byte) : Bool :=
  decide (data.length = f.len.toNat) && decide (data.length ≤ 1024) && decide (f.crc.toNat = crc32c data)

/-- The frame is about the image of the chain operation in progress (R375, log entry 100). -/
def State.ofImage (s : State) (f : UpdFrame) : Bool := decide (f.image.toNat = s.nvm.imgId)

/-- `UPD_STAT.STATE`. -/
def State.updState (s : State) (st : Nat) : State := s.cset UPD_STAT_STATE st

/-- An entry of this chapter about the image in slot `n` (R380). -/
def State.logImage (s : State) (item n : Nat) : State :=
  s.logOwn item 0 0 (pack [(0, 8, n), (32, 32, ((s.nvm.slot n).hdr.map fun h => h.imgVer.toNat).getD 0)]) 0

/-- IMG_BEGIN, CFG_BEGIN and OFFER are refused (R374, R376). -/
def State.updBusy (s : State) : Bool :=
  s.con NVM_SLOT_TRIAL || s.nvm.imgTotal.isSome || s.nvm.cfgBuf.isSome ||
    (decide (s.cget UPD_STAT_STATE ≠ 0) && decide (s.cget UPD_STAT_STATE ≠ 6)) || s.sp.longs.any fun l => decide (l.service = 7)

/-- A reply of the UPD service. -/
def State.updReply (s : State) (lane cmd tag st : Nat) (body : List Byte) : State := s.reply (s.laneOf lane) 7 cmd tag st body

/-- The long commands of the UPD service in a list end (R374). -/
def State.finishUpd (s : State) (cmds : List Nat) (st : Nat) (body : List Byte) : State :=
  (s.sp.longs.filter fun l => decide (l.service = 7) && cmds.contains l.cmd).foldl (fun z l => z.finishLong l st body) s

/-! ### Writing an image -/

/-- A slot is emptied and begins to receive `total` bytes of image `id` (R374, R376): `from_` none by mailbox, else the side. -/
def State.imgBegin (s : State) (total : Nat) (from_ : Option Bool) (id : Nat) : State :=
  let n := s.spareSlot
  let s1 := (s.emptySlot n).modNvm fun v => { v with imgTotal := some total, imgFrom := from_, imgId := id, up := {}, dn := {} }
  (s1.updState 1).cset UPD_PROG_BYTES 0

/-- Image bytes written straight into the slot (R355, R374). -/
def State.imgPut (s : State) (bs : List Byte) : State :=
  let n := s.spareSlot
  let x := s.nvm.slot n
  let s1 := (s.setSlot n { x with bytes := x.bytes ++ bs }).cset UPD_PROG_BYTES (x.bytes.length + bs.length)
  if s1.nvm.journal.contains (.slot n) then s1 else s1.program (.slot n)

/-- Every byte is there, and verification begins. An image from the mailbox gets its identity here. -/
def State.imgComplete (s : State) : State :=
  let id := if s.nvm.imgFrom.isNone then imgIdent (s.nvm.slot s.spareSlot).bytes else s.nvm.imgId
  ((s.modNvm fun v => { v with imgTotal := none, imgId := id }).updState 2).logImage 0x20 s.spareSlot

/-- UPD_STATUS (R374): service 7, command 1. -/
def execUpdStatus (lane : Fin 8) (tag : BitVec 16) (body : List Byte) (s : State) : Out :=
  .next (s.mailServe lane.val 7 1 tag.toNat fun z =>
    if !body.isEmpty then z.updReply lane.val 1 tag.toNat 4 []
    else z.updReply lane.val 1 tag.toNat 0 ([0xB00004, 0xB00008, 0xB0000C, 0xB00018, 0xB0001C].flatMap (fun a => leBytes 4 (z.peek a)) ++
      leBytes 8 (z.cget NVM_CFGGEN_GEN)))

/-- IMG_BEGIN (R356, R374): service 7, command 2. -/
def execImgBegin (lane : Fin 8) (tag : BitVec 16) (body : List Byte) (s : State) : Out :=
  .next (s.mailServe lane.val 7 2 tag.toNat fun z =>
    let t := bodyNat body 0 4
    if body.length ≠ 4 ∨ t < 4096 ∨ 67108864 < t then z.updReply lane.val 2 tag.toNat 4 []
    else if z.updBusy then z.updReply lane.val 2 tag.toNat 5 []
    else (z.imgBegin t none 0).updReply lane.val 2 tag.toNat 0 [])

/-- IMG_DATA (R374): service 7, command 3. -/
def execImgData (lane : Fin 8) (tag : BitVec 16) (body : List Byte) (s : State) : Out :=
  .next (s.mailServe lane.val 7 3 tag.toNat fun z =>
    let got := (z.nvm.slot z.spareSlot).bytes.length
    let data := body.drop 4
    match z.nvm.imgTotal with
    | none => z.updReply lane.val 3 tag.toNat 4 []
    | some t =>
      if body.length < 4 ∨ z.nvm.imgFrom.isSome ∨ bodyNat body 0 4 ≠ got ∨ t < got + data.length then z.updReply lane.val 3 tag.toNat 4 []
      else (z.imgPut data).updReply lane.val 3 tag.toNat 0 [])

/-- IMG_END (R374): service 7, command 4. -/
def execImgEnd (lane : Fin 8) (tag : BitVec 16) (body : List Byte) (s : State) : Out :=
  .next (s.mailServe lane.val 7 4 tag.toNat fun z =>
    if !body.isEmpty ∨ z.nvm.imgFrom.isSome ∨ z.nvm.imgTotal ≠ some (z.nvm.slot z.spareSlot).bytes.length then
      z.updReply lane.val 4 tag.toNat 4 []
    else z.imgComplete.startLong lane.val 7 4 tag.toNat [] [])

/-! ### The chain -/

/-- The sides an image goes on to (R376): both from the mailbox, the other one from a neighbour. -/
def State.onward (s : State) : List Bool :=
  if s.con GLB_STAT_RECOVERY then []
  else (match s.nvm.imgFrom with | none => [true, false] | some u => [!u]).filter fun u => s.neighbour u

/-- A chain operation halts here (R376–R379): shown, logged and sent toward the origin, or answered there. -/
def State.haltChain (s : State) (reason hop : Nat) : State :=
  let s1 := ((s.updState 6).cset UPD_STAT_REASON reason).logImage 0x26 s.spareSlot
  match s1.nvm.imgFrom with
  | none => s1.finishUpd [4, 5, 6] 8 [BitVec.ofNat 8 reason, BitVec.ofNat 8 hop]
  | some u => s1.sendUpd u 7 reason hop 0 s1.nvm.imgId

/-- A halt that begins at this node: the origin is hop 0; elsewhere the frames do not tell a node its hop (log entry 4). -/
def State.haltHere (s : State) (reason : Nat) : State :=
  match s.nvm.imgFrom with
  | none => s.haltChain reason 0
  | some _ => let d := s.draw; d.2.haltChain reason (d.1 % 256)

/-- The image has reached every node beyond this one (R376): DONE goes toward the origin, or IMG_END is answered. -/
def State.forwardDone (s : State) : State :=
  let us := s.onward
  if s.cget UPD_STAT_STATE ≠ 3 ∨ us.any fun u => !((s.side u).done || (s.side u).absent) then s
  else
    let n := 1 + (us.map fun u => (s.side u).count).sum
    let s1 := ((s.updState 0).cset UPD_STAT_NODES n).logImage 0x22 s.spareSlot
    match s1.nvm.imgFrom with
    | none => s1.finishUpd [4] 0 [BitVec.ofNat 8 n]
    | some u => s1.sendUpd u 4 0 n 0 s1.nvm.imgId

/-- IMAGE_VERIFIED (R356, R357, R374, R376): verification of the written slot ends, with the verdict over its signature. OFFER carries the
image header's bytes 0–119. -/
def execImageVerified (sigOk : Bool) (s : State) : Out :=
  .next (
    if s.cget UPD_STAT_STATE ≠ 2 then s
    else
      let n := s.spareSlot
      let x := s.nvm.slot n
      if imgVerifies x.bytes sigOk then
        let s1 := ((s.cset (slotState n) 1).showVer n).logImage 0x21 n
        let s2 := (s1.program .slotSelect).updState 3
        (s2.onward.foldl (fun z u => (z.sendUpd u 1 0 0 0 z.nvm.imgId (x.bytes.take 120)).modSide u fun y => { y with offered := true, offerTick := z.tm.tick }) s2).forwardDone
      else s.haltHere 2)

/-- OFFER (R374, R376): a neighbour offers the image whose header's first bytes are `h`. -/
def execOffer (f : UpdFrame) (h : List Byte) (s : State) : Out :=
  .next (
    let id := f.image.toNat
    let n := (imgHdr h).len.toNat
    if s.frozen 18 ∨ !(s.neighbour f.up) ∨ !(updSound f h) then s
    else if s.updBusy then s.sendUpd f.up 3 1 0 0 id
    else if 67104768 < n then s.sendUpd f.up 7 2 0 0 id
    else (s.imgBegin (4096 + n) (some f.up) id).sendUpd f.up 3 0 0 0 id)

/-- DATA (R376): a block of the image being received; a bad one is ignored. -/
def execUpdData (f : UpdFrame) (data : List Byte) (s : State) : Out :=
  .next (match s.nvm.imgTotal with
    | none => s
    | some t =>
      if s.frozen 18 ∨ s.nvm.imgFrom ≠ some f.up ∨ !(updSound f data) ∨ !(s.ofImage f) then s
      else
        let got := (s.nvm.slot s.spareSlot).bytes.length
        if f.block.toNat * 1024 ≠ got then s.sendUpd f.up 3 0 0 ((got + 1023) / 1024) s.nvm.imgId
        else
          let s1 := s.imgPut (data.take (t - got))
          let now := got + (data.take (t - got)).length
          let s2 := s1.sendUpd f.up 3 0 0 ((now + 1023) / 1024) s.nvm.imgId
          if t ≤ now then s2.imgComplete else s2)

/-- Blocks of the image in the inactive slot. -/
def State.imgBlocks (s : State) : Nat := ((s.nvm.slot s.spareSlot).bytes.length + 1023) / 1024

/-- Blocks sent to a side while fewer than 64 are unacknowledged (R376). -/
def State.sendBlocks (s : State) (up : Bool) : Nat → State
  | 0 => s
  | n + 1 =>
    let x := s.side up
    if s.imgBlocks ≤ x.next ∨ x.acked + 64 ≤ x.next then s
    else
      let data := ((s.nvm.slot s.spareSlot).bytes.drop (1024 * x.next)).take 1024
      ((s.sendUpd up 2 0 0 x.next s.nvm.imgId data).modSide up fun y => { y with next := y.next + 1 }).sendBlocks up n

/-- ACK (R376): the side accepts, or acknowledges up to a block; a refusal halts the chain. -/
def execAck (f : UpdFrame) (s : State) : Out :=
  .next (
    let x := s.side f.up
    if s.frozen 18 ∨ !x.offered ∨ x.absent ∨ x.done ∨ s.cget UPD_STAT_STATE ≠ 3 ∨ !(s.ofImage f) then s
    else if f.reason ≠ 0 then s.haltHere f.reason.toNat
    else
      let b := f.block.toNat
      let ahead : Bool := decide (x.acked < b) || !x.active
      (s.modSide f.up fun y => { y with
        active := true, acked := max y.acked b, next := max y.next b, resends := if ahead then 0 else y.resends
        offerTick := if ahead then s.tm.tick else y.offerTick }).sendBlocks f.up 64)

/-- DONE (R376): a side has the image, with the nodes beyond it. -/
def execDone (f : UpdFrame) (s : State) : Out :=
  .next (
    let x := s.side f.up
    if s.frozen 18 ∨ !x.offered ∨ x.absent ∨ s.cget UPD_STAT_STATE ≠ 3 ∨ !(s.ofImage f) then s
    else ((s.modSide f.up fun y => { y with done := true, count := f.count.toNat }).cset UPD_STAT_NODES f.count.toNat).forwardDone)

/-- HALT (R376, R379): it goes on toward the origin unchanged, and the origin answers its command. -/
def execHalt (f : UpdFrame) (s : State) : Out :=
  .next (if s.frozen 18 ∨ !(s.neighbour f.up) ∨ s.nvm.imgFrom = some f.up ∨ !(s.ofImage f) then s
    else s.haltChain f.reason.toNat f.count.toNat)

/-- NEIGHBOUR_ABSENT (R376): no answer to an OFFER within 100 ms. -/
def execNeighbourAbsent (up : Bool) (s : State) : Out :=
  .next (
    let x := s.side up
    if x.offered && !x.active && !x.absent && decide (ticksMs 100 ≤ s.since x.offerTick) then
      (s.modSide up fun y => { y with absent := true }).forwardDone
    else s)

/-- RESEND_TIMEOUT (R376): no ACK has advanced for 20 ms. -/
def execResendTimeout (up : Bool) (s : State) : Out :=
  .next (
    let x := s.side up
    if s.cget UPD_STAT_STATE ≠ 3 ∨ !x.active ∨ x.done ∨ s.since x.offerTick < ticksMs 20 then s
    else if 16 ≤ x.resends then s.haltHere 6
    else (s.modSide up fun y => { y with next := y.acked, resends := y.resends + 1, offerTick := s.tm.tick }).sendBlocks up 64)

/-! ### Activation and trial -/

/-- The image may be activated beside the twin partner (R377); what the heartbeats do not carry, the partner's TWIN_MIN and
whether it is in trial, comes in as `unknown`. -/
def State.twinCompatible (s : State) (h : ImgHdr) (unknown : Bool) : Bool :=
  if s.con TWIN_CFG_EN && s.con TWIN_STAT_PARTNER then
    match s.twin.peer with
    | some p => decide (h.twinMin.toNat ≤ p.imgVer.toNat) && decide (p.seedMin.toNat ≤ h.seedFmt.toNat) &&
        decide (h.seedMin.toNat ≤ p.seedFmt.toNat) && unknown
    | none => true
  else true

/-- Why an image may not be activated (R377): 4 INCOMPAT, 5 STATE, 0 none. -/
def State.activateReason (s : State) (h : ImgHdr) (unknown : Bool) : Nat :=
  let ryunt := s.portsInRun.all fun p => bitAt h.ryunt.toNat (s.cget (PL_STAT_VER p))
  let floe := ((List.range 4).filter fun g => s.groupRun g).all fun g => bitAt h.floe.toNat (s.cget (UG_STAT_VER g) - 1)
  if s.cget GLB_ID_ID % 256 < h.minRev.toNat ∨ !ryunt ∨ !floe ∨ !(s.twinCompatible h unknown) then 4
  else if !(s.cget GLB_STAT_STATE = 1 ∨ s.cget GLB_STAT_STATE = 2) ∨ s.con NVM_SLOT_TRIAL then 5
  else 0

/-- Activation of slot `n` (R378): the trial begins and the service processor restarts from it. -/
def State.activate (s : State) (n : Nat) (chain : Bool) (item : Nat) : State :=
  let old := s.cget NVM_SLOT_ACTIVE
  let s1 := ((s.cset (slotState n) 2).cset NVM_SLOT_ACTIVE n).modNvm fun v => { v with
    fallback := old, trialTick := s.tm.tick, trialPorts := s.portsInRun, trialQual := s.qual, chainAct := chain, activating := true
    trialGroups := (List.range 4).filter fun g => s.groupRun g }
  let s2 := ((s1.cset NVM_SLOT_TRIAL 1).cset NVM_SLOT_TRIAL_LEFT 600).updState 5
  ((s2.program .slotSelect).logImage item n).serviceReset

/-- A slot whose image may become active: VALID or CONFIRMED, with its header. -/
def State.activeImage (s : State) (n : Nat) : Option ImgHdr := if s.slotUsable n then (s.nvm.slot n).hdr else none

/-- ACTIVATE and ROLLBACK of the mailbox (R374, R377, R378). -/
def State.mailActivate (s : State) (lane cmd tag : Nat) (chain : Bool) : State :=
  let n := s.spareSlot
  if s.updBusy && !(s.con NVM_SLOT_TRIAL) then s.updReply lane cmd tag 5 []
  else
    match s.activeImage n with
    | none => (s.cset UPD_STAT_REASON 5).updReply lane cmd tag 8 [5, 0]
    | some h =>
      let d := s.draw
      let r := s.activateReason h (decide (d.1 % 2 = 1))
      if r ≠ 0 then (d.2.cset UPD_STAT_REASON r).updReply lane cmd tag 8 [BitVec.ofNat 8 r, 0]
      else ((d.2.modNvm fun v => { v with imgFrom := none, imgId := imgIdent (s.nvm.slot n).bytes }).activate n chain (if cmd = 6 then 0x27 else 0x23)).startLong lane 7 cmd tag [] []

/-- ACTIVATE (R374, R377, R378): service 7, command 5. -/
def execActivate (lane : Fin 8) (tag : BitVec 16) (body : List Byte) (s : State) : Out :=
  .next (s.mailServe lane.val 7 5 tag.toNat fun z =>
    if body.length ≠ 1 ∨ 1 < bodyNat body 0 1 then z.updReply lane.val 5 tag.toNat 4 []
    else z.mailActivate lane.val 5 tag.toNat (decide (bodyNat body 0 1 = 1)))

/-- ROLLBACK (R374, R377, R378): service 7, command 6. -/
def execRollback (lane : Fin 8) (tag : BitVec 16) (body : List Byte) (s : State) : Out :=
  .next (s.mailServe lane.val 7 6 tag.toNat fun z =>
    if body.isEmpty then z.mailActivate lane.val 6 tag.toNat false else z.updReply lane.val 6 tag.toNat 4 [])

/-- UPD_FRAME_ACTIVATE (R375, R377, R378): the node toward the origin has confirmed, and asks this one to activate the image the frame names. -/
def execUpdFrameActivate (f : UpdFrame) (s : State) : Out :=
  .next (
    if s.frozen 18 ∨ !(s.neighbour f.up) then s
    else
      let n := s.spareSlot
      let s0 := s.modNvm fun v => { v with imgFrom := some f.up, imgId := f.image.toNat }
      match (if f.image.toNat = imgIdent (s.nvm.slot n).bytes then s0.activeImage n else none) with
      | none => s0.haltHere 5
      | some h =>
        let d := s0.draw
        let r := s0.activateReason h (decide (d.1 % 2 = 1))
        if r ≠ 0 then d.2.haltHere r else d.2.activate n true 0x23)

/-- The sides that hold the image and take part in the activation. -/
def State.actSides (s : State) : List Bool := if s.nvm.chainAct then s.onward.filter fun u => (s.side u).done else []

/-- Every node beyond this one has confirmed (R378): CONFIRMED goes toward the origin, or ACTIVATE is answered. -/
def State.confirmDone (s : State) : State :=
  let us := s.actSides
  if us.any fun u => (s.side u).active then s
  else
    let n := 1 + (us.map fun u => (s.side u).count).sum
    let s1 := ((s.cset UPD_STAT_NODES n).updState 0).modNvm fun v => { v with activating := false }
    match s1.nvm.imgFrom with
    | none => s1.finishUpd [5, 6] 0 [BitVec.ofNat 8 n]
    | some u => s1.sendUpd u 6 0 n 0 s1.nvm.imgId

/-- The health of a trial is confirmed (R379). -/
def State.healthy (s : State) : Bool :=
  (s.nvm.trialPorts.all fun p => decide (s.plState p = 6)) && (s.nvm.trialGroups.all fun g => s.groupRun g) &&
    (decide (s.qual = 1) || decide (s.qual = 2) || decide (s.qual = s.nvm.trialQual)) &&
    s.con CR_STAT_CLEAN && decide (s.nvm.trialTick ≤ s.sp.lastPassTick)

/-- TRIAL_CONFIRM (R378, R379): the conditions hold at one instant; the chain goes on. -/
def execTrialConfirm (s : State) : Out :=
  .next (
    if !(s.con NVM_SLOT_TRIAL) ∨ !s.healthy then s
    else
      let n := s.cget NVM_SLOT_ACTIVE
      let s1 := ((s.cset (slotState n) 3).cset NVM_SLOT_TRIAL 0).cset NVM_SLOT_TRIAL_LEFT 0
      let s2 := ((s1.program .slotSelect).logImage 0x24 n).updState 4
      (s2.actSides.foldl (fun z u => (z.sendUpd u 5 0 0 0 z.nvm.imgId).modSide u fun y => { y with active := true, count := 0 }) s2).confirmDone)

/-- CONFIRMED (R375, R378): a side has confirmed, with the nodes beyond it. -/
def execConfirmed (f : UpdFrame) (s : State) : Out :=
  .next (
    if s.frozen 18 ∨ s.cget UPD_STAT_STATE ≠ 4 ∨ !(s.actSides.contains f.up) ∨ !(s.side f.up).active ∨ !(s.ofImage f) then s
    else ((s.modSide f.up fun y => { y with active := false, count := f.count.toNat }).cset UPD_STAT_NODES f.count.toNat).confirmDone)

/-- TRIAL_TIMEOUT (R379): 600 s without confirmation; the node falls back where it can. -/
def execTrialTimeout (s : State) : Out :=
  .next (
    if !(s.con NVM_SLOT_TRIAL) ∨ s.since s.nvm.trialTick < 600 * ticksSec then s
    else
      let n := s.cget NVM_SLOT_ACTIVE
      let b := s.nvm.fallback
      let s1 := ((s.cset (slotState n) 4).cset NVM_SLOT_TRIAL 0).cset NVM_SLOT_TRIAL_LEFT 0
      let s2 := ((s1.program .slotSelect).logImage 0x25 n).alarmAt NVM_SLOT_ACTIVE.reg
      let s3 := (s2.haltHere 7).modNvm fun v => { v with activating := false }
      if s3.slotUsable b ∧ b ≠ n then (((s3.cset NVM_SLOT_ACTIVE b).cset (slotState b) 3).serviceReset) else s3)

/-! ### Containers -/

/-- CFG_BEGIN (R364, R374): service 7, command 0x10. -/
def execCfgBegin (lane : Fin 8) (tag : BitVec 16) (body : List Byte) (s : State) : Out :=
  .next (s.mailServe lane.val 7 0x10 tag.toNat fun z =>
    let t := bodyNat body 0 4
    if body.length ≠ 4 ∨ 8388608 < t then z.updReply lane.val 0x10 tag.toNat 4 []
    else if z.updBusy then z.updReply lane.val 0x10 tag.toNat 5 []
    else (z.modNvm fun v => { v with cfgBuf := some (t, []) }).updReply lane.val 0x10 tag.toNat 0 [])

/-- CFG_DATA (R374): service 7, command 0x11. -/
def execCfgData (lane : Fin 8) (tag : BitVec 16) (body : List Byte) (s : State) : Out :=
  .next (s.mailServe lane.val 7 0x11 tag.toNat fun z =>
    match z.nvm.cfgBuf with
    | none => z.updReply lane.val 0x11 tag.toNat 4 []
    | some (t, bs) =>
      let data := body.drop 4
      if body.length < 4 ∨ bodyNat body 0 4 ≠ bs.length ∨ t < bs.length + data.length then z.updReply lane.val 0x11 tag.toNat 4 []
      else (z.modNvm fun v => { v with cfgBuf := some (t, bs ++ data) }).updReply lane.val 0x11 tag.toNat 0 [])

/-- CFG_COMMIT (R360, R364, R374): service 7, command 0x12; the GUARD record in use is carried over. -/
def execCfgCommit (lane : Fin 8) (tag : BitVec 16) (body : List Byte) (s : State) : Out :=
  .next (s.mailServe lane.val 7 0x12 tag.toNat fun z =>
    match z.nvm.cfgBuf with
    | none => z.updReply lane.val 0x12 tag.toNat 4 []
    | some (t, bs) =>
      if !body.isEmpty ∨ bs.length ≠ t then z.updReply lane.val 0x12 tag.toNat 4 []
      else
        let z1 := z.modNvm fun v => { v with cfgBuf := none }
        match parseContainer bs with
        | none => z1.updReply lane.val 0x12 tag.toNat 8 []
        | some rs =>
          if (guardOf rs).isSome then z1.updReply lane.val 0x12 tag.toNat 4 []
          else
            let g := match guardOf z1.records with | some r => [r] | none => []
            (z1.newContainer (rs ++ g)).startLong lane.val 7 0x12 tag.toNat [] [z1.nextGen])

/-! ### NVM programs -/

/-- NVM_PROGRAM_DONE (R355, R374, R381, R410): the oldest program under way completes; a container's completes its CFG_COMMIT. In SHUTDOWN a
program may finish for up to 2 ms. -/
def execNvmProgramDone (s : State) : Out :=
  .next (if s.pro.shutdown ∧ ticksMs 2 < s.since s.pro.tripTick then s else
    let a := s.nvm.journal.find? fun x => decide (x ≠ .logErase)
    let s1 := s.progDone
    match a with
    | some (.container _) =>
      if s.nvm.cut then s1
      else (s1.sp.longs.filter fun l => decide (l.service = 7) && decide (l.cmd = 0x12)).foldl
        (fun z l => z.finishLong l 0 (leBytes 8 (l.arg.headD 0))) s1
    | _ => s1)

end Sys2Proof.Machine
end

