-- ==== Sys2Proof/Machine/Twin.lean ====
section
/-! DEFINITION. Twin operation (R383–R400): heartbeats, roles, the cold standby, seed state, takeover and the planned switch. -/

namespace Sys2Proof.Machine

/-! ### Roles -/

/-- The role shown in `TWIN_STAT.ROLE` (R383): 0 SINGLE, 1 STARTING, 2 STANDBY, 3 TAKING, 4 ACTIVE, 5 RELEASING. -/
def State.role (s : State) : Nat := s.cget TWIN_STAT_ROLE

/-- The heartbeat loss limit in ticks (R388). -/
def State.lossLimit (s : State) : Nat := ticksMs (10 * s.cget TWIN_CFG_HB_TMO)

/-- Some port in RUN shows owner = 1 (R395). -/
def State.ownsOne (s : State) : Bool := s.portsInRun.any fun p => s.con (PL_STAT_OWNER p)

/-- The module becomes STANDBY (R389–R391): it stores nothing, the trigger is disarmed, and its ports send PRBS payload. -/
def State.toStandby (s : State) : State :=
  let s1 := ((s.cset TWIN_STAT_ROLE 2).modTwin fun t => { t with
    storing := false, fs := none, drainTick := none, noOwnerTick := none }).modTrg fun t => { t with
      armAsk := false, disarmAsk := t.disarmAsk || s.con TRG_STAT_ARMED, askTick := s.tm.tick }
  s1.portsInRun.foldl (fun z p => z.when (z.feLive p) fun y => y.fset p (LNK_CTRL_CHECK (y.face p)) 1) s1

/-- The module becomes TAKING (R389, R395). -/
def State.toTaking (s : State) (b : TakeBy) : State :=
  (s.cset TWIN_STAT_ROLE 3).modTwin fun t => { t with by_ := b, lossTick := s.tm.tick, noOwnerTick := none, drainTick := none }

/-! ### Heartbeats -/

/-- The 64 bytes of a heartbeat (R387); the CRC is formed with its own field zero (log entry 61). -/
def hbBytes (h : Heartbeat) : List Byte :=
  let ws := [packW [(0, 3, h.role.toNat), (3, 8, h.claim.toNat), (11, 8, h.cid.toNat), (19, 1, b2n h.healthy), (32, 32, h.seq.toNat)],
    packW [(0, 32, h.imgVer.toNat), (32, 16, h.seedFmt.toNat), (48, 16, h.seedMin.toNat)], packW [(0, 59, h.fc.toNat)],
    packW [(0, 48, h.sec.toNat), (48, 2, h.qual.toNat)], packW [(0, 30, h.ns.toNat), (30, 16, h.frac.toNat)],
    packW [(0, 32, h.health.toNat)], 0]
  wordsBytes (ws ++ [packW [(0, 32, crc32c (wordsBytes ws ++ leBytes 4 0))]])

/-- What a heartbeat's 64 bytes say (R387). -/
def hbOf (bs : List Byte) : Heartbeat :=
  let w (i : Nat) : Nat := bodyNat bs (8 * i) 8
  { role := BitVec.ofNat 3 (w 0), claim := BitVec.ofNat 8 (bits (w 0) 3 8), cid := BitVec.ofNat 8 (bits (w 0) 11 8)
    healthy := bitAt (w 0) 19, seq := BitVec.ofNat 32 (bits (w 0) 32 32), imgVer := BitVec.ofNat 32 (w 1)
    seedFmt := BitVec.ofNat 16 (bits (w 1) 32 16), seedMin := BitVec.ofNat 16 (bits (w 1) 48 16), fc := BitVec.ofNat 59 (w 2)
    sec := BitVec.ofNat 48 (w 3), qual := BitVec.ofNat 2 (bits (w 3) 48 2), ns := BitVec.ofNat 30 (w 4)
    frac := BitVec.ofNat 16 (bits (w 4) 30 16), health := BitVec.ofNat 32 (w 5) }

/-- A heartbeat is good (R387, R388): its length and its CRC, formed with the CRC's own field zero (log entry 61). -/
def hbGood (bs : List Byte) : Bool :=
  decide (bs.length = 64) && decide (bodyNat bs 56 4 = crc32c (bs.take 56 ++ leBytes 4 0))

/-- The header of the running image. -/
def State.runImage (s : State) : Option ImgHdr := (s.nvm.slot (s.cget NVM_SLOT_ACTIVE)).hdr

/-- F_c: the newest frame whose commit has completed; 0 if the module is not storing (R387). -/
def State.fcNow (s : State) : Nat :=
  match s.firn.committed with
  | some k => if s.storesFrame (s.frameAt k) then s.frameAt k else 0
  | none => 0

/-- The heartbeat that leaves now (R387). -/
def State.heartbeat (s : State) : Heartbeat :=
  let img := s.runImage
  { role := BitVec.ofNat 3 s.role, claim := BitVec.ofNat 8 (s.cget TWIN_CFG_CLAIM), cid := BitVec.ofNat 8 s.cid
    healthy := s.con TWIN_STAT_HEALTHY, seq := BitVec.ofNat 32 s.twin.hbSeq
    imgVer := (img.map fun h => h.imgVer).getD 0, seedFmt := (img.map fun h => h.seedFmt).getD 0
    seedMin := (img.map fun h => h.seedMin).getD 0, fc := BitVec.ofNat 59 s.fcNow
    sec := BitVec.ofNat 48 s.tm.now.sec, qual := BitVec.ofNat 2 s.qual, ns := BitVec.ofNat 30 s.tm.now.ns
    frac := BitVec.ofNat 16 s.tm.now.frac, health := BitVec.ofNat 32 (s.cget TWIN_HEALTH_BITS) }

/-- HEARTBEAT_SEND (R387): every 10 ms the TWIN engine sends a heartbeat to `TWIN_PEER`. -/
def execHeartbeatSend (s : State) : Out :=
  .next (
    let due := match s.twin.hbTick with | some t => decide (ticksMs 10 ≤ s.since t) | none => true
    if s.role = 0 ∨ !due then s
    else { s.modTwin fun t => { t with hbSeq := (t.hbSeq + 1) % 2 ^ 32, hbTick := some s.tm.tick } with
      svcTx := .heartbeat (s.cget TWIN_PEER_MAC) (hbBytes s.heartbeat) :: s.svcTx })

/-- The partner's image fails the twin conditions of R377 beside this one; what a heartbeat does not carry comes in as `ok`. -/
def State.partnerUnfit (s : State) (h : Heartbeat) (ok : Bool) : Bool :=
  match s.runImage with
  | some i => !(decide (i.twinMin.toNat ≤ h.imgVer.toNat) && decide (h.seedMin.toNat ≤ i.seedFmt.toNat) &&
      decide (i.seedMin.toNat ≤ h.seedFmt.toNat) && ok)
  | none => !ok

/-- HEARTBEAT_RECEIVED (R385, R387–R389): a good heartbeat is used; the partner's arrival stamp of ours is not in it, so
`TWIN_TDIFF` is a free value (log entry 4). A STARTING module that hears an ACTIVE or TAKING partner becomes STANDBY. -/
def execHeartbeatReceived (bs : List Byte) (arrival : Int) (s : State) : Out :=
  .next (
    if s.role = 0 ∨ !(hbGood bs) then s
    else
      let h := hbOf bs
      let d := s.draw
      let e := d.2.draw
      let dep : Int := (({ sec := h.sec.toNat, ns := h.ns.toNat, frac := h.frac.toNat } : TimeVal).inst : Nat)
      let s1 := ((e.2.cset TWIN_STAT_PARTNER 1).cset TWIN_STAT_CID_ERR (b2n (decide (h.cid.toNat ≠ s.cid)))).cset TWIN_TDIFF_D
        (d.1 % 2 ^ 32)
      let s2 := s1.modTwin fun t => { t with
        peer := some h, peerTick := s.tm.tick, oneWay := arrival - dep, compatBad := s.partnerUnfit h (decide (e.1 % 2 = 1)) }
      if s.role = 1 ∧ (h.role = 3 ∨ h.role = 4) then s2.toStandby else s2)

/-- The planned switch in progress ends (R398): its mailbox command is answered for good. -/
def State.endSwitch (s : State) (st : Nat) : State :=
  (s.sp.longs.filter fun l => decide (l.service = 8)).foldl (fun z l => z.finishLong l st []) s

/-- The downlinks of all ports turned on again (R398). -/
def State.downlinksOn (s : State) : State :=
  (s.ports.map (·.1)).foldl (fun z p => z.modPort p fun x => { x with downlinkOn := z.con (PL_CTRL_EN p) }) s

/-- PARTNER_LOSS (R388, R395, R398): a STANDBY becomes TAKING; a RELEASING module too, and its switch is abandoned. -/
def execPartnerLoss (s : State) : Out :=
  .next (
    if s.role = 0 ∨ !(s.con TWIN_STAT_PARTNER) ∨ s.since s.twin.peerTick < s.lossLimit then s
    else
      let s1 := (s.cset TWIN_STAT_PARTNER 0).cbump TWIN_CNT_HB_LOST
      if s.role = 2 then (s1.modTwin fun t => { t with fs := none }).toTaking .loss
      else if s.role = 5 then (s1.toTaking .abandon).downlinksOn.endSwitch 8
      else s1)

/-! ### Start-up -/

/-- STARTING_TIMEOUT (R389): no heartbeat has shown ACTIVE or TAKING for the wait, and the module becomes TAKING. -/
def execStartingTimeout (s : State) : Out :=
  .next (
    let wait := if s.con TWIN_CFG_PREF then s.lossLimit else 2 * ticksSec
    if s.role = 1 ∧ wait ≤ s.since s.twin.readyTick then s.toTaking .startUp else s)

/-- DUAL_RESOLVE (R390): 1 s without owning a port while the partner shows ACTIVE. -/
def execDualResolve (s : State) : Out :=
  .next (
    let active : Bool := match s.twin.peer with | some h => decide (h.role = 4) && s.con TWIN_STAT_PARTNER | none => false
    match s.twin.noOwnerTick with
    | none => s
    | some t =>
      if (s.role = 3 ∨ s.role = 4) ∧ active ∧ ticksSec ≤ s.since t then (s.toStandby.cset TWIN_STAT_DUAL_SEEN 1).logBit TWIN_STAT_DUAL_SEEN
      else s)

/-! ### The cold standby -/

/-- A line of the scratch area of region `r` written with a test pattern and read back (R238, R392); which line and which pattern
the spec does not say, and both are free values (log entry 4). The Bool: the read was OK or CORRECTED. -/
def State.patternLine (s : State) (r : Nat) (raw : RawLine) : Bool × State :=
  let n := s.scratch r
  if n = 0 then (true, s)
  else
    let d := s.draw
    let x := d.2.draw
    let a := mkFirnAddr r 0 (131072 - n + d.1 % n) (d.1 / 131072)
    let s1 := (x.2.mvWriteFirn a (leBytes 64 x.1)).2
    let y := s1.lineStatus a raw
    (decide (y.1 ≤ 1), y.2.2.noteStatus a y.1)

/-- STANDBY_PATTERN_TEST (R238, R392): every 1 ms the standby writes and reads back one scratch line per region. -/
def execStandbyPatternTest (raw : List RawLine) (s : State) : Out :=
  .next (
    let due := match s.twin.patternTick with | some t => decide (ticksMs 1 ≤ s.since t) | none => true
    if s.role ≠ 2 ∨ !due ∨ !(s.con FRN_STAT_READY) then s
    else
      let r := (List.range 4).foldl (fun (x : Bool × State) i =>
        let y := x.2.patternLine i (raw.getD i ⟨[]⟩)
        (x.1 && y.1, y.2)) (true, s)
      r.2.modTwin fun t => { t with patternBad := !r.1, patternTick := some s.tm.tick })

/-- The body of the TWIN STATUS reply (R400); before the first heartbeat its last 64 bytes are free (log entry 4). -/
def State.twinBody (s : State) : List Byte :=
  leBytes 4 (s.peek TWIN_STAT_ROLE.reg) ++ leBytes 4 (s.peek TWIN_HEALTH_BITS.reg) ++
    (match s.twin.peer with | some h => hbBytes h | none => leBytes 64 s.draw.1)

/-- HEALTH_REPORT (R392): every 1 s the standby sends its health report as a MON packet. -/
def execHealthReport (s : State) : Out :=
  .next (
    let due := match s.twin.reportTick with | some t => decide (ticksSec ≤ s.since t) | none => true
    if s.role ≠ 2 ∨ !due then s
    else
      let b := s.twinBody
      (s.draw.2.sendMon (bytesWords b)).modTwin fun t => { t with reportTick := some s.tm.tick })

/-! ### Seed state -/

/-- A field that a seed state carries: configuration that software may write after start-up and that is no guarded setting. -/
def Fld.seeded (f : Fld) : Bool := decide (f.acc = .rw) || decide (f.acc = .rws)

/-- The word at `a` as its seeded fields show it. -/
def seedWord (get : Fld → Nat) (a : Nat) : Nat :=
  match findReg regClasses 4 a with
  | some (fs, hi) => regWord get (fs.filter Fld.seeded) hi
  | none => 0

/-- Registers whose seeded fields differ from what they were in `old`: address and word (R393). -/
def State.changedRegs (s : State) (old : Tab Nat) (lo hi : Nat) : List (W32 × W32) :=
  let get (f : Fld) : Nat := tget old f.key f.reset
  let as_ := (((s.creg ++ old).map fun e : Nat × Nat => e.1 / 64).dedup.flatMap fun a => [a, a + 4]).dedup.filter fun a => decide (lo ≤ a ∧ a < hi)
  (as_.filter fun a => decide (seedWord s.cget a ≠ seedWord get a)).map fun a => (BitVec.ofNat 32 a, BitVec.ofNat 32 (seedWord s.cget a))

/-- Words of the golden copies that differ from what start-up left (R393). -/
def State.changedGold (s : State) : List (PortIx × BitVec 12 × W32) :=
  s.ports.flatMap fun e =>
    let old := tget s.twin.startGold e.1 []
    let ws := ((e.2.golden ++ old).map fun w : Nat × Nat => w.1).dedup
    (ws.filter fun w => decide (s.goldWord e.1 w ≠ tget old w (feResetWord w))).map fun w =>
      (Fin.ofNat 1024 e.1, BitVec.ofNat 12 w, BitVec.ofNat 32 (s.goldWord e.1 w))

/-- The seed state as it stands (R393). -/
def State.seedBody (s : State) (fs : Option Nat) : SeedBody :=
  { fs := fs.map fun f => BitVec.ofNat 59 f, cid := BitVec.ofNat 8 s.cid
    config := s.changedRegs s.twin.startCreg 0x100000 0x1000000, feWords := s.changedGold, calib := s.sp.calResults
    timStat := BitVec.ofNat 32 (s.peek TIM_STAT_QUAL.reg), step := if s.con TIM_STAT_STEP_PEND then s.stepVal else 0
    initSet := s.con TIM_STAT_INIT_SET, runRegs := s.changedRegs [] 0x500000 0x600000
    mode := BitVec.ofNat 2 (s.cget TRG_CTRL_MODE), arm := s.con TRG_CTRL_ARM, monPeriod := BitVec.ofNat 16 (s.sp.monPeriod.getD 0) }

/-- The format a push is sent in (R377): the highest that both images read, as far as the partner's heartbeat shows it. -/
def State.seedFormat (s : State) : Nat :=
  let own := (s.runImage.map fun h => h.seedFmt.toNat).getD 0
  match s.twin.peer with | some h => min own h.seedFmt.toNat | none => own

/-- The payloads of the segment frames of push `push` (R393): a header of four words and 1,024 bytes of the body, padded with zeros. -/
def seedFrames (push fmt fc : Nat) (body : List Byte) : List (List Byte) :=
  let n := (body.length + 1023) / 1024
  (List.range n).map fun i =>
    let x := (body.drop (1024 * i)).take 1024
    let data := x ++ List.replicate (1024 - x.length) 0
    wordsBytes [packW [(0, 16, fmt), (16, 32, push)], packW [(0, 59, fc)], packW [(0, 21, body.length), (32, 32, crc32c body)],
      packW [(0, 11, i), (11, 11, n), (32, 32, crc32c data)]] ++ data

/-- The body bytes of the next push: at least one and at most 1,048,576 (R393). -/
def State.seedBytes (s : State) : List Byte :=
  let bs := (Config.seedBytes s.twin.pushSeq).take 1048576
  if bs.isEmpty then [0] else bs

/-- The seed state pushed to the partner (R393) in segments. -/
def State.sendSeed (s : State) (fs : Option Nat) : State :=
  { s.modTwin fun t => { t with pushSeq := (t.pushSeq + 1) % 2 ^ 32, pushTick := some s.tm.tick } with
    svcTx := .seed (s.cget TWIN_PEER_MAC) (seedFrames s.twin.pushSeq s.seedFormat s.fcNow s.seedBytes) (s.seedBody fs) :: s.svcTx }

/-- SEED_PUSH (R347, R393): every 250 ms an ACTIVE module pushes its seed state. -/
def execSeedPush (s : State) : Out :=
  .next (
    let due := match s.twin.pushTick with | some t => decide (ticksMs 250 ≤ s.since t) | none => true
    if s.role ≠ 4 ∨ s.frozen 19 ∨ !due then s else s.sendSeed none)

/-- Field `f` at `a` is one that no seed state changes (R394). -/
def keptField (a : Nat) (f : Fld) : Bool :=
  !f.seeded || decide (f = TRG_CTRL_ARM) ||
    (decide (0x300000 ≤ a ∧ a < 0x400000) && decide (f = PI_CTRL_STORE ((a - 0x300000) / 0x40000 * 256 + a % 0x40000 / 256)))

/-- A register word of a seed state applied (R394): the time registers and guarded settings are left as they are. -/
def State.applySeedReg (s : State) (a v : Nat) : State :=
  match findReg regClasses 4 a with
  | none => s
  | some (fs, hi) =>
    if (0x200000 ≤ a ∧ a < 0x300000) ∨ fs.any (fun f => decide (f.acc = .guarded)) then s
    else
      let val (f : Fld) : Nat := match f.acc with
        | .rw | .rws => if keptField a f then s.cget f else f.merge (s.cget f) v hi
        | .lk | .lkSp => s.cget f
        | _ => 0
      (s.busWrite 19 a (regWord val fs hi)).1

/-- A golden-copy word of a seed state applied (R394). -/
def State.applySeedGold (s : State) (p w v : Nat) : State := if s.guardedFeWord p w then s else s.setGold p w v

/-- The older NVM copy of the seed state (R394). -/
def State.olderSeed (s : State) : Nat :=
  match s.nvm.seed0, s.nvm.seed1 with
  | none, _ => 0
  | _, none => 1
  | some a, some b => if a.tick ≤ b.tick then 0 else 1

/-- The newer NVM copy of the seed state. -/
def State.newerSeed (s : State) : Option Seed := if s.olderSeed = 0 then s.nvm.seed1.orElse fun _ => s.nvm.seed0 else s.nvm.seed0

/-- The accepted seed state written to NVM when its configuration or calibration part has changed, at most once in 60 s (R394). -/
def State.storeSeed (s : State) (x : Seed) : State :=
  let changed := match s.newerSeed with
    | some y => decide (y.body.config ≠ x.body.config) || decide (y.body.feWords ≠ x.body.feWords) || decide (y.body.calib ≠ x.body.calib)
    | none => true
  if !changed ∨ (s.newerSeed.isSome ∧ s.since s.nvm.seedTick < 60 * ticksSec) then s
  else
    let n := s.olderSeed
    (s.modNvm fun v => { v with
      seedTick := s.tm.tick, seed0 := if n = 0 then some x else v.seed0, seed1 := if n = 1 then some x else v.seed1 }).program (.seed n)

/-- A push accepted (R394, R398). -/
def State.acceptSeed (s : State) (x : Seed) : State :=
  let s1 := x.body.config.foldl (fun (z : State) (e : W32 × W32) => z.applySeedReg e.1.toNat e.2.toNat) s
  let s2 := x.body.feWords.foldl (fun (z : State) (e : PortIx × BitVec 12 × W32) => z.applySeedGold e.1.val e.2.1.toNat e.2.2.toNat) s1
  let s3 := (s2.modSp fun y => { y with calResults := x.body.calib }).modTwin fun t => { t with
    seed := some x, push := none, fs := match x.body.fs with | some f => some f.toNat | none => t.fs }
  ((s3.cset TWIN_SEED_AGE 0).cset TWIN_SEED_SEQ x.push).storeSeed x

/-- A push rejected (R394). -/
def State.rejectSeed (s : State) : State := (s.cbump TWIN_CNT_SEED_REJ).modTwin fun t => { t with push := none }

/-- The body bytes of a push whose segments have all arrived (R393). -/
def PushRx.bytes (x : PushRx) : List Byte := ((List.range x.count).flatMap fun i => tget x.got i []).take x.bodyLen

/-- A complete push is judged (R385, R393, R394). -/
def State.judgeSeed (s : State) (x : PushRx) : State :=
  let fits := match s.runImage with
    | some i => decide (i.seedMin.toNat ≤ x.fmt) && decide (x.fmt ≤ i.seedFmt.toNat)
    | none => false
  if decide (crc32c x.bytes = x.bodyCrc) && fits && decide (x.body.cid.toNat = s.cid) && !(s.con TWIN_STAT_CID_ERR) && decide (s.since x.tick ≤ ticksMs 250) then
    s.acceptSeed { push := x.push, fmt := x.fmt, fc := x.fc, tick := s.tm.tick, body := x.body }
  else s.rejectSeed

/-- SEED_SEGMENT (R347, R393, R394): a segment of a push; the last one to arrive completes it. What the body says comes in as `b`, since the
spec does not give how bytes spell its parts (log entry 62). -/
def execSeedSegment (h : SeedHdr) (data : List Byte) (b : SeedBody) (s : State) : Out :=
  .next (
    if s.role ≠ 2 ∨ s.frozen 19 ∨ data.length ≠ 1024 ∨ h.segCrc.toNat ≠ crc32c data ∨ h.count.toNat ≤ h.idx.toNat then s
    else
      let new : PushRx :=
        { push := h.push.toNat, count := h.count.toNat, bodyLen := h.bodyLen.toNat, bodyCrc := h.bodyCrc.toNat, fmt := h.fmt.toNat
          fc := h.fc.toNat, body := b, tick := s.tm.tick }
      let old : Bool × PushRx := match s.twin.push with
        | some x => if x.push = h.push.toNat then (false, x) else (true, new)
        | none => (false, new)
      let x : PushRx := { old.2 with got := tins old.2.got h.idx.toNat data, body := b }
      let s1 := if old.1 then s.rejectSeed else s
      if x.count ≤ x.got.length then s1.judgeSeed x else s1.modTwin fun t => { t with push := some x })

/-- SEED_TIMEOUT (R393, R394): 250 ms after its first segment a push is incomplete and is rejected. -/
def execSeedTimeout (s : State) : Out :=
  .next (match s.twin.push with
    | some x => if ticksMs 250 ≤ s.since x.tick then s.rejectSeed else s
    | none => s)

/-! ### Takeover -/

/-- TAKEOVER_ABANDON (R395): no port shows owner = 1 within 100 ms of the loss. -/
def execTakeoverAbandon (s : State) : Out :=
  .next (
    let lossy := decide (s.twin.by_ = .loss) || decide (s.twin.by_ = .abandon)
    if s.role = 3 ∧ lossy ∧ !(s.twin.by_ = .loss ∧ s.twin.storing) ∧ ticksMs 100 ≤ s.since s.twin.lossTick ∧ !s.ownsOne then
      s.toStandby.logBit TWIN_STAT_ROLE
    else s)

/-- Reason-4 records for frames `a` to `b`, one for each slice touched, which the commit of the frame of tick `k` writes (R226,
R397). -/
def State.lostRecords (s : State) (a b k : Nat) : State :=
  (List.range (sliceOf b + 1 - sliceOf a)).foldl (fun z i =>
    let lo := max a ((sliceOf a + i) * 256)
    let hi := min b ((sliceOf a + i) * 256 + 255)
    z.addCrev 0 { at_ := k, reason := 4, scope := 3, port := 0, frame := lo, frames := hi + 1 - lo, lost := 0xFFFFFFFF }) s

/-- Storing enabled from frame `f`, whose tick is `k` (R396, R397): older slices hold no unit and are calved. -/
def State.storeFromFrame (s : State) (f k fc : Nat) (records : Bool) : State :=
  let s1 := ((s.modTwin fun t => { t with storing := true, storeFrom := f, fs := none }).cset TWIN_FSTORE_F f)
  let s2 := s1.calveSlices ((s1.retained.filter fun e => decide (e.slice < sliceOf f)).map IxEntry.slice)
  if records && decide (fc + 1 < f) then s2.lostRecords (fc + 1) (f - 1) k else s2

/-- The last accepted seed state is older than 1 s (R396). -/
def State.seedStale (s : State) : Bool :=
  match s.twin.seed with | some x => decide (x.tick + ticksSec < s.tm.tick) | none => true

/-- F_c as the partner's last good heartbeat carried it (R397). -/
def State.peerFc (s : State) : Nat := match s.twin.peer with | some h => h.fc.toNat | none => 0

/-- TAKEOVER_STORE_START (R384, R396–R398): ownership is confirmed, and storing is enabled from the frame that begins at the next
tick; the claims go out at that tick. A standby to which a planned switch was announced stores from F_s + 1. -/
def execTakeoverStoreStart (s : State) : Out :=
  .next (
    let f := s.frame + 1
    let k := s.tm.tick + 1
    if s.role = 3 ∧ s.ownsOne then
      match s.twin.by_ with
      | .startUp => if s.twin.storing then s else s.modTwin fun t => { t with storing := true, storeFrom := f, fs := none }
      | .loss =>
        if s.twin.storing then s
        else
          let s1 := (s.cbump TWIN_CNT_TKO).cset TWIN_FC_F s.peerFc
          (s1.when s.seedStale fun z => z.cset TWIN_STAT_STALE_TKO 1).storeFromFrame f k s.peerFc (decide (0 < s.peerFc))
      | .abandon =>
        match s.twin.fs with
        | none => s
        | some fs =>
          let s1 := s.cbump TWIN_CNT_TKO
          if f ≤ fs then s1.modTwin fun t => { t with fs := none }
          else
            let s2 := (s1.cset TWIN_FC_F (fs - 1)).modTwin fun t => { t with storeFrom := f, fs := none }
            (s2.cset TWIN_FSTORE_F f).lostRecords fs (f - 1) k
      | .planned => s
    else if s.role = 2 then
      match s.twin.fs with
      | some fs =>
        if fs + 1 ≤ s.frame then
          ((s.toTaking .planned).storeFromFrame (fs + 1) (s.tm.tick + (fs + 1) - s.frame) (fs - 1) true)
        else s
      | none => s
    else s)

/-- The run state that the accepted seed state holds, applied (R394, R396). -/
def State.applyRun (s : State) : State :=
  match s.twin.seed with
  | none => s
  | some x =>
    let s1 := x.body.runRegs.foldl (fun (z : State) (e : W32 × W32) => z.applySeedReg e.1.toNat e.2.toNat) s
    let s2 := s1.modSp fun y => { y with monPeriod := if x.body.monPeriod = 0 then none else some x.body.monPeriod.toNat }
    let v := s2.peek TRG_CTRL_MODE.reg / 8 * 8 + 4 * b2n x.body.arm + x.body.mode.toNat
    (s2.busWrite 19 TRG_CTRL_MODE.reg v).1

/-- TAKEOVER_COMPLETE (R394, R396, R398): the run state is applied, the trigger armed if it was armed, and the role is ACTIVE. -/
def execTakeoverComplete (s : State) : Out :=
  .next (
    if s.role ≠ 3 ∨ !s.twin.storing ∨ s.twin.fs.isSome then s
    else match s.twin.by_ with
      | .startUp => s.cset TWIN_STAT_ROLE 4
      | .planned => (s.applyRun.cset TWIN_STAT_ROLE 4).cbump TWIN_CNT_SWITCH
      | .abandon => ((s.cset TWIN_STAT_ROLE 4).raise TWIN_STAT_TKO_SEEN).logBit TWIN_STAT_TKO_SEEN
      | .loss => ((s.applyRun.cset TWIN_STAT_ROLE 4).raise TWIN_STAT_TKO_SEEN).logBit TWIN_STAT_TKO_SEEN)

/-! ### The planned switch -/

/-- SWITCH_STOP_STORING (R398): nothing is stored from F_s on; at tick F_s + 1 the releasing module turns off its downlinks. -/
def execSwitchStopStoring (s : State) : Out :=
  .next (match s.twin.fs with
    | some fs =>
      if s.role = 5 ∧ s.twin.drainTick = none ∧ fs + 1 ≤ s.frame then
        ((s.ports.map (·.1)).foldl (fun z p => (z.plEnter p 0).modPort p fun x => { x with downlinkOn := false }) s).modTwin fun t =>
          { t with drainTick := some s.tm.tick }
      else s
    | none => s)

/-- DRAIN_END (R398): every slice is calved, the ports are re-enabled, and the module becomes STANDBY. -/
def execDrainEnd (s : State) : Out :=
  .next (match s.twin.drainTick with
    | some t =>
      if s.role = 5 ∧ s.cget TWIN_CFG_DRAIN * ticksSec ≤ s.since t then
        let s1 := ((s.firn.pins.filter fun e => e.2.active).map (·.1)).foldl (fun z n => z.releasePin n) s
        ((s1.calveSlices (s1.retained.map IxEntry.slice)).downlinksOn.toStandby.cbump TWIN_CNT_SWITCH).endSwitch 0
      else s
    | none => s)

/-! ### The TWIN service -/

/-- TWIN_STATUS (R400): service 8, command 1. -/
def execTwinStatus (lane : Fin 8) (tag : BitVec 16) (body : List Byte) (s : State) : Out :=
  .next (s.mailServe lane.val 8 1 tag.toNat fun z =>
    if body.isEmpty then z.draw.2.reply (z.laneOf lane.val) 8 1 tag.toNat 0 z.twinBody
    else z.reply (z.laneOf lane.val) 8 1 tag.toNat 4 [])

/-- The partner's heartbeats show it STANDBY and HEALTHY (R398). -/
def State.partnerReady (s : State) : Bool :=
  match s.twin.peer with | some h => s.con TWIN_STAT_PARTNER && decide (h.role = 2) && h.healthy | none => false

/-- SWITCH (R398, R400): service 8, command 2; F_s is the current frame + 64. -/
def execSwitchCmd (lane : Fin 8) (tag : BitVec 16) (body : List Byte) (s : State) : Out :=
  .next (s.mailServe lane.val 8 2 tag.toNat fun z =>
    if !body.isEmpty then z.reply (z.laneOf lane.val) 8 2 tag.toNat 4 []
    else if z.role ≠ 4 ∨ !z.partnerReady then z.reply (z.laneOf lane.val) 8 2 tag.toNat 5 []
    else
      let fs := z.frame + 64
      (((z.sendSeed (some fs)).cset TWIN_STAT_ROLE 5).modTwin fun t => { t with fs := some fs, drainTick := none }).startLong
        lane.val 8 2 tag.toNat [] [])

/-- PUSH (R347, R393, R400): service 8, command 3; a module that is not ACTIVE has no seed state to push. -/
def execPushCmd (lane : Fin 8) (tag : BitVec 16) (body : List Byte) (s : State) : Out :=
  .next (s.mailServe lane.val 8 3 tag.toNat fun z =>
    if !body.isEmpty then z.reply (z.laneOf lane.val) 8 3 tag.toNat 4 []
    else if z.role ≠ 4 ∨ z.frozen 19 then z.reply (z.laneOf lane.val) 8 3 tag.toNat 8 []
    else (z.sendSeed none).reply (z.laneOf lane.val) 8 3 tag.toNat 0 [])

end Sys2Proof.Machine
end

