-- ==== Sys2Proof/Machine/Dispatch.lean ====
section
/-! DEFINITION. The effect of every command: one arm per constructor, each a direct call of its meaning. -/

namespace Sys2Proof.Machine

/-- The effect of a command on everything but the queue. -/
def exec (i : Instr) (s : State) : Host.Outcome State Fault Refusal :=
  match i with
  | .frameTick => Sys2Proof.Machine.execFrameTick s
  | .registerWrite m addr v => Sys2Proof.Machine.execRegisterWrite m addr v s
  | .lowWordRead r => Sys2Proof.Machine.execLowWordRead r s
  | .timNowRead m => Sys2Proof.Machine.execTimNowRead m s
  | .ptpSync v oneStep h t1 t2 corr => Sys2Proof.Machine.execPtpSync v oneStep h t1 t2 corr s
  | .ptpFollowUp v h t1 corr => Sys2Proof.Machine.execPtpFollowUp v h t1 corr s
  | .ptpDelayResp v h t4 corr => Sys2Proof.Machine.execPtpDelayResp v h t4 corr s
  | .ptpAnnounce v a => Sys2Proof.Machine.execPtpAnnounce v a s
  | .ptpManagement v => Sys2Proof.Machine.execPtpManagement v s
  | .delayReqSend v t3 => Sys2Proof.Machine.execDelayReqSend v t3 s
  | .announceTimeout v => Sys2Proof.Machine.execAnnounceTimeout v s
  | .ptpLoss => Sys2Proof.Machine.execPtpLoss s
  | .delayRespTimeout v => Sys2Proof.Machine.execDelayRespTimeout v s
  | .pendingStepDrop => Sys2Proof.Machine.execPendingStepDrop s
  | .stepApply m v => Sys2Proof.Machine.execStepApply m v s
  | .stepWithdraw m v => Sys2Proof.Machine.execStepWithdraw m v s
  | .stepValWrite m hi => Sys2Proof.Machine.execStepValWrite m hi s
  | .wholeFrameStep => Sys2Proof.Machine.execWholeFrameStep s
  | .refLoss => Sys2Proof.Machine.execRefLoss s
  | .refReturn dphase => Sys2Proof.Machine.execRefReturn dphase s
  | .ppsEdge err ptpSec => Sys2Proof.Machine.execPpsEdge err ptpSec s
  | .ppsMiss => Sys2Proof.Machine.execPpsMiss s
  | .echoAverage p => Sys2Proof.Machine.execEchoAverage p s
  | .suspect p => Sys2Proof.Machine.execSuspect p s
  | .suspectClear p => Sys2Proof.Machine.execSuspectClear p s
  | .tinEdge n t rising width => Sys2Proof.Machine.execTinEdge n t rising width s
  | .toutArm j m v => Sys2Proof.Machine.execToutArm j m v s
  | .toutDisarm j m v => Sys2Proof.Machine.execToutDisarm j m v s
  | .toutFire j => Sys2Proof.Machine.execToutFire j s
  | .toutPulseEnd j => Sys2Proof.Machine.execToutPulseEnd j s
  | .leadingEdge p c t raw => Sys2Proof.Machine.execLeadingEdge p c t raw s
  | .fineTimeReady p c parityErr => Sys2Proof.Machine.execFineTimeReady p c parityErr s
  | .validationDecided p c high => Sys2Proof.Machine.execValidationDecided p c high s
  | .trailingEdge p c t => Sys2Proof.Machine.execTrailingEdge p c t s
  | .totSaturation p c => Sys2Proof.Machine.execTotSaturation p c s
  | .busyEnd p c => Sys2Proof.Machine.execBusyEnd p c s
  | .hitFinal p c t => Sys2Proof.Machine.execHitFinal p c t s
  | .calibrationPair p c x t c1 c2 => Sys2Proof.Machine.execCalibrationPair p c x t c1 c2 s
  | .interpolatorReady p c x => Sys2Proof.Machine.execInterpolatorReady p c x s
  | .scheduledSwap p c => Sys2Proof.Machine.execScheduledSwap p c s
  | .pairStale p c x => Sys2Proof.Machine.execPairStale p c x s
  | .channelEnable p q c t v => Sys2Proof.Machine.execChannelEnable p q c t v s
  | .channelDisable p q c t v => Sys2Proof.Machine.execChannelDisable p q c t v s
  | .cdSample p b stop raw => Sys2Proof.Machine.execCdSample p b stop raw s
  | .cdTableCompute p b => Sys2Proof.Machine.execCdTableCompute p b s
  | .cdTableInstall p b => Sys2Proof.Machine.execCdTableInstall p b s
  | .binTableReset p c x => Sys2Proof.Machine.execBinTableReset p c x s
  | .teCalPair p c t c1 c2 => Sys2Proof.Machine.execTeCalPair p c t c1 c2 s
  | .gateChange p => Sys2Proof.Machine.execGateChange p s
  | .gatePinEdge p t level => Sys2Proof.Machine.execGatePinEdge p t level s
  | .gateModeWrite p q t v => Sys2Proof.Machine.execGateModeWrite p q t v s
  | .testPulseInject p => Sys2Proof.Machine.execTestPulseInject p s
  | .chcntDataRead p q => Sys2Proof.Machine.execChcntDataRead p q s
  | .adcConversionStart p c t => Sys2Proof.Machine.execAdcConversionStart p c t s
  | .adcResult p b k peak8 peak1 parityErr => Sys2Proof.Machine.execAdcResult p b k peak8 peak1 parityErr s
  | .spareRotation p b => Sys2Proof.Machine.execSpareRotation p b s
  | .sliceCalibrationDone p b offsetMilliLsb gainMicro => Sys2Proof.Machine.execSliceCalibrationDone p b offsetMilliLsb gainMicro s
  | .sliceReturn p q b v => Sys2Proof.Machine.execSliceReturn p q b v s
  | .wakeSliceCalibration p => Sys2Proof.Machine.execWakeSliceCalibration p s
  | .monScanTimer p => Sys2Proof.Machine.execMonScanTimer p s
  | .monInjectionDelay p => Sys2Proof.Machine.execMonInjectionDelay p s
  | .monConversion p code commonMode10mV => Sys2Proof.Machine.execMonConversion p code commonMode10mV s
  | .monCommit p t => Sys2Proof.Machine.execMonCommit p t s
  | .complianceTrip p k => Sys2Proof.Machine.execComplianceTrip p k s
  | .monStale p k => Sys2Proof.Machine.execMonStale p k s
  | .regionSweep p => Sys2Proof.Machine.execRegionSweep p s
  | .mergerChoice p k ecc queueBad => Sys2Proof.Machine.execMergerChoice p k ecc queueBad s
  | .cutoff p => Sys2Proof.Machine.execCutoff p s
  | .recordTake p k => Sys2Proof.Machine.execRecordTake p k s
  | .scrubVisit p corrected => Sys2Proof.Machine.execScrubVisit p corrected s
  | .nop p q slot => Sys2Proof.Machine.execNop p q slot s
  | .gateOpen p q slot => Sys2Proof.Machine.execGateOpen p q slot s
  | .gateClose p q slot => Sys2Proof.Machine.execGateClose p q slot s
  | .pulse p q slot => Sys2Proof.Machine.execPulse p q slot s
  | .scan p q slot => Sys2Proof.Machine.execScan p q slot s
  | .flush p q slot => Sys2Proof.Machine.execFlush p q slot s
  | .flushEffect p => Sys2Proof.Machine.execFlushEffect p s
  | .standby p q slot => Sys2Proof.Machine.execStandby p q slot s
  | .wake p q slot => Sys2Proof.Machine.execWake p q slot s
  | .fePowerChange p => Sys2Proof.Machine.execFePowerChange p s
  | .standbyPowerDown p => Sys2Proof.Machine.execStandbyPowerDown p s
  | .wakingEnd p => Sys2Proof.Machine.execWakingEnd p s
  | .claim p q slot => Sys2Proof.Machine.execClaim p q slot s
  | .fastCommandInvalid p q why => Sys2Proof.Machine.execFastCommandInvalid p q why s
  | .syncSet p q x => Sys2Proof.Machine.execSyncSet p q x s
  | .linkResetEnd p q => Sys2Proof.Machine.execLinkResetEnd p q s
  | .requestCodeword p q t run other => Sys2Proof.Machine.execRequestCodeword p q t run other s
  | .readRequest p q r => Sys2Proof.Machine.execReadRequest p q r s
  | .writeRequest p q r => Sys2Proof.Machine.execWriteRequest p q r s
  | .postedWriteRequest p q r => Sys2Proof.Machine.execPostedWriteRequest p q r s
  | .responseReceived p r => Sys2Proof.Machine.execResponseReceived p r s
  | .requestTimeout p tid => Sys2Proof.Machine.execRequestTimeout p tid s
  | .proxyAccess m addr write => Sys2Proof.Machine.execProxyAccess m addr write s
  | .recordCodeword p n marker plus t chars => Sys2Proof.Machine.execRecordCodeword p n marker plus t chars s
  | .slotStartSet p placed plus chars arr => Sys2Proof.Machine.execSlotStartSet p placed plus chars arr s
  | .echoSet p plus mark fis phLo phHi rest => Sys2Proof.Machine.execEchoSet p plus mark fis phLo phHi rest s
  | .uplinkSignalDetect p => Sys2Proof.Machine.execUplinkSignalDetect p s
  | .lockAchieved p => Sys2Proof.Machine.execLockAchieved p s
  | .alignAchieved p => Sys2Proof.Machine.execAlignAchieved p s
  | .negotiateDone p chipId sup => Sys2Proof.Machine.execNegotiateDone p chipId sup s
  | .phaseVerify p => Sys2Proof.Machine.execPhaseVerify p s
  | .configCrcCheck p dirty crc => Sys2Proof.Machine.execConfigCrcCheck p dirty crc s
  | .linkStateTimeout p => Sys2Proof.Machine.execLinkStateTimeout p s
  | .equaliserStep p fe errors => Sys2Proof.Machine.execEqualiserStep p fe errors s
  | .uplinkSignalLoss p => Sys2Proof.Machine.execUplinkSignalLoss p s
  | .downlinkClockLoss p q => Sys2Proof.Machine.execDownlinkClockLoss p q s
  | .retry p m v => Sys2Proof.Machine.execRetry p m v s
  | .test p m v => Sys2Proof.Machine.execTest p m v s
  | .prbsStart p q v => Sys2Proof.Machine.execPrbsStart p q v s
  | .testEnd p feErrs portErrs => Sys2Proof.Machine.execTestEnd p feErrs portErrs s
  | .prbsInject p q v => Sys2Proof.Machine.execPrbsInject p q v s
  | .plInject p m v => Sys2Proof.Machine.execPlInject p m v s
  | .goldenCheck p dirty crc => Sys2Proof.Machine.execGoldenCheck p dirty crc s
  | .lateLimit => Sys2Proof.Machine.execLateLimit s
  | .alignedRelease reads => Sys2Proof.Machine.execAlignedRelease reads s
  | .mergeUpset r b => Sys2Proof.Machine.execMergeUpset r b s
  | .sumsPresented linkBad => Sys2Proof.Machine.execSumsPresented linkBad s
  | .hazelCode p codedLen => Sys2Proof.Machine.execHazelCode p codedLen s
  | .hazelVerify p payload => Sys2Proof.Machine.execHazelVerify p payload s
  | .unitHandover r ecc => Sys2Proof.Machine.execUnitHandover r ecc s
  | .spillPoint r => Sys2Proof.Machine.execSpillPoint r s
  | .sliceClaim => Sys2Proof.Machine.execSliceClaim s
  | .frameCommit => Sys2Proof.Machine.execFrameCommit s
  | .indexSnapshot m v ecc => Sys2Proof.Machine.execIndexSnapshot m v ecc s
  | .lineWrite r => Sys2Proof.Machine.execLineWrite r s
  | .writeRetry r => Sys2Proof.Machine.execWriteRetry r s
  | .storeWriteFailure r => Sys2Proof.Machine.execStoreWriteFailure r s
  | .allocatorInspect r => Sys2Proof.Machine.execAllocatorInspect r s
  | .pinClear k => Sys2Proof.Machine.execPinClear k s
  | .lineRead w addr => Sys2Proof.Machine.execLineRead w addr s
  | .lineReadReturn r raw => Sys2Proof.Machine.execLineReadReturn r raw s
  | .firnScrubStep r raw rewritten => Sys2Proof.Machine.execFirnScrubStep r raw rewritten s
  | .extentSnapshot m r v => Sys2Proof.Machine.execExtentSnapshot m r v s
  | .extentRetire m r v => Sys2Proof.Machine.execExtentRetire m r v s
  | .extentReturn m r v => Sys2Proof.Machine.execExtentReturn m r v s
  | .firnInitDone => Sys2Proof.Machine.execFirnInitDone s
  | .triggerArmWrite m v => Sys2Proof.Machine.execTriggerArmWrite m v s
  | .triggerArm => Sys2Proof.Machine.execTriggerArm s
  | .triggerDisarmWrite m v => Sys2Proof.Machine.execTriggerDisarmWrite m v s
  | .triggerDisarm => Sys2Proof.Machine.execTriggerDisarm s
  | .decisionPoint corrected badHistories badRequests => Sys2Proof.Machine.execDecisionPoint corrected badHistories badRequests s
  | .primQueued => Sys2Proof.Machine.execPrimQueued s
  | .requestArrival lane body => Sys2Proof.Machine.execRequestArrival lane body s
  | .coreReadoutStart k => Sys2Proof.Machine.execCoreReadoutStart k s
  | .coreComplete k => Sys2Proof.Machine.execCoreComplete k s
  | .coreAbort m v => Sys2Proof.Machine.execCoreAbort m v s
  | .streamSliceRead => Sys2Proof.Machine.execStreamSliceRead s
  | .laneFault l => Sys2Proof.Machine.execLaneFault l s
  | .restore m v healthy => Sys2Proof.Machine.execRestore m v healthy s
  | .laneFrame l => Sys2Proof.Machine.execLaneFrame l s
  | .rxSignalDetect j => Sys2Proof.Machine.execRxSignalDetect j s
  | .rxAligned j => Sys2Proof.Machine.execRxAligned j s
  | .rxLockTimeout j => Sys2Proof.Machine.execRxLockTimeout j s
  | .rxSignalLoss j => Sys2Proof.Machine.execRxSignalLoss j s
  | .rxStartSet j good => Sys2Proof.Machine.execRxStartSet j good s
  | .inboundFloeFrame j f => Sys2Proof.Machine.execInboundFloeFrame j f s
  | .hello j versions => Sys2Proof.Machine.execHello j versions s
  | .mailboxPacket j payload => Sys2Proof.Machine.execMailboxPacket j payload s
  | .beSilent g => Sys2Proof.Machine.execBeSilent g s
  | .schedulerChoice g corrected badWord => Sys2Proof.Machine.execSchedulerChoice g corrected badWord s
  | .uqPush g q m lo => Sys2Proof.Machine.execUqPush g q m lo s
  | .queueFlush g q m v => Sys2Proof.Machine.execQueueFlush g q m v s
  | .queueStale g q => Sys2Proof.Machine.execQueueStale g q s
  | .uiqPop m => Sys2Proof.Machine.execUiqPop m s
  | .lockstepMismatch => Sys2Proof.Machine.execLockstepMismatch s
  | .fetchTrap addr => Sys2Proof.Machine.execFetchTrap addr s
  | .kick m v => Sys2Proof.Machine.execKick m v s
  | .watchdogExpiry => Sys2Proof.Machine.execWatchdogExpiry s
  | .cramScrub ecc rewritten => Sys2Proof.Machine.execCramScrub ecc rewritten s
  | .mailboxTake => Sys2Proof.Machine.execMailboxTake s
  | .readCmd lane tag body => Sys2Proof.Machine.execReadCmd lane tag body s
  | .writeCmd lane tag body => Sys2Proof.Machine.execWriteCmd lane tag body s
  | .runStatus lane tag body => Sys2Proof.Machine.execRunStatus lane tag body s
  | .startCmd lane tag body => Sys2Proof.Machine.execStartCmd lane tag body s
  | .stopCmd lane tag body => Sys2Proof.Machine.execStopCmd lane tag body s
  | .thresh lane tag body => Sys2Proof.Machine.execThresh lane tag body s
  | .phase lane tag body => Sys2Proof.Machine.execPhase lane tag body s
  | .ampl lane tag body => Sys2Proof.Machine.execAmpl lane tag body s
  | .calAbort lane tag body => Sys2Proof.Machine.execCalAbort lane tag body s
  | .histStart lane tag body => Sys2Proof.Machine.execHistStart lane tag body s
  | .histStop lane tag body => Sys2Proof.Machine.execHistStop lane tag body s
  | .period lane tag body => Sys2Proof.Machine.execPeriod lane tag body s
  | .timeStatus lane tag body => Sys2Proof.Machine.execTimeStatus lane tag body s
  | .acceptStep lane tag body droppedNow => Sys2Proof.Machine.execAcceptStep lane tag body droppedNow s
  | .withdrawStep lane tag body => Sys2Proof.Machine.execWithdrawStep lane tag body s
  | .guardStatus lane tag body => Sys2Proof.Machine.execGuardStatus lane tag body s
  | .guardSet lane tag body pwOk => Sys2Proof.Machine.execGuardSet lane tag body pwOk s
  | .setpw lane tag body pwOk salt verifier => Sys2Proof.Machine.execSetpw lane tag body pwOk salt verifier s
  | .guardReset lane tag body pwOk outs => Sys2Proof.Machine.execGuardReset lane tag body pwOk outs s
  | .updStatus lane tag body => Sys2Proof.Machine.execUpdStatus lane tag body s
  | .imgBegin lane tag body => Sys2Proof.Machine.execImgBegin lane tag body s
  | .imgData lane tag body => Sys2Proof.Machine.execImgData lane tag body s
  | .imgEnd lane tag body => Sys2Proof.Machine.execImgEnd lane tag body s
  | .activate lane tag body => Sys2Proof.Machine.execActivate lane tag body s
  | .rollback lane tag body => Sys2Proof.Machine.execRollback lane tag body s
  | .cfgBegin lane tag body => Sys2Proof.Machine.execCfgBegin lane tag body s
  | .cfgData lane tag body => Sys2Proof.Machine.execCfgData lane tag body s
  | .cfgCommit lane tag body => Sys2Proof.Machine.execCfgCommit lane tag body s
  | .twinStatus lane tag body => Sys2Proof.Machine.execTwinStatus lane tag body s
  | .switchCmd lane tag body => Sys2Proof.Machine.execSwitchCmd lane tag body s
  | .pushCmd lane tag body => Sys2Proof.Machine.execPushCmd lane tag body s
  | .logRead lane tag body => Sys2Proof.Machine.execLogRead lane tag body s
  | .moverStart c m v => Sys2Proof.Machine.execMoverStart c m v s
  | .moverFetch c ecc => Sys2Proof.Machine.execMoverFetch c ecc s
  | .moverBurstDone c bytes => Sys2Proof.Machine.execMoverBurstDone c bytes s
  | .moverWriteback c => Sys2Proof.Machine.execMoverWriteback c s
  | .mvTimer n => Sys2Proof.Machine.execMvTimer n s
  | .moverKick c m v => Sys2Proof.Machine.execMoverKick c m v s
  | .moverAbort c m v => Sys2Proof.Machine.execMoverAbort c m v s
  | .clear m v => Sys2Proof.Machine.execClear m v s
  | .paceTimeout c => Sys2Proof.Machine.execPaceTimeout c s
  | .qemptyTimeout c => Sys2Proof.Machine.execQemptyTimeout c s
  | .busError c addr lastBeat => Sys2Proof.Machine.execBusError c addr lastBeat s
  | .powerDownWaitExpiry c => Sys2Proof.Machine.execPowerDownWaitExpiry c s
  | .thaw m v => Sys2Proof.Machine.execThaw m v s
  | .bkThawTimer => Sys2Proof.Machine.execBkThawTimer s
  | .powerOnReset cause straps img0 img1 => Sys2Proof.Machine.execPowerOnReset cause straps img0 img1 s
  | .resetN lowNs acts straps img0 img1 => Sys2Proof.Machine.execResetN lowNs acts straps img0 img1 s
  | .configApply c0 c1 => Sys2Proof.Machine.execConfigApply c0 c1 s
  | .ready ms => Sys2Proof.Machine.execReady ms s
  | .soft m v => Sys2Proof.Machine.execSoft m v s
  | .serviceSoftReset => Sys2Proof.Machine.execServiceSoftReset s
  | .region m v => Sys2Proof.Machine.execRegion m v s
  | .regionReset r => Sys2Proof.Machine.execRegionReset r s
  | .regionRecovered r => Sys2Proof.Machine.execRegionRecovered r s
  | .powerRequestRun m v => Sys2Proof.Machine.execPowerRequestRun m v s
  | .powerRequestIdle m v => Sys2Proof.Machine.execPowerRequestIdle m v s
  | .powerRequestHibernate m v => Sys2Proof.Machine.execPowerRequestHibernate m v s
  | .transitionComplete => Sys2Proof.Machine.execTransitionComplete s
  | .feSoftResetWrite p q v => Sys2Proof.Machine.execFeSoftResetWrite p q v s
  | .feSoftReset p => Sys2Proof.Machine.execFeSoftReset p s
  | .nvmProgramDone => Sys2Proof.Machine.execNvmProgramDone s
  | .moraineEntry code addr val old actor pwd tag d5 d6 => Sys2Proof.Machine.execMoraineEntry code addr val old actor pwd tag d5 d6 s
  | .offer f h => Sys2Proof.Machine.execOffer f h s
  | .updData f data => Sys2Proof.Machine.execUpdData f data s
  | .ack f => Sys2Proof.Machine.execAck f s
  | .done f => Sys2Proof.Machine.execDone f s
  | .updFrameActivate f => Sys2Proof.Machine.execUpdFrameActivate f s
  | .confirmed f => Sys2Proof.Machine.execConfirmed f s
  | .halt f => Sys2Proof.Machine.execHalt f s
  | .neighbourAbsent up => Sys2Proof.Machine.execNeighbourAbsent up s
  | .resendTimeout up => Sys2Proof.Machine.execResendTimeout up s
  | .imageVerified sigOk => Sys2Proof.Machine.execImageVerified sigOk s
  | .trialConfirm => Sys2Proof.Machine.execTrialConfirm s
  | .trialTimeout => Sys2Proof.Machine.execTrialTimeout s
  | .heartbeatSend => Sys2Proof.Machine.execHeartbeatSend s
  | .heartbeatReceived h arrival => Sys2Proof.Machine.execHeartbeatReceived h arrival s
  | .partnerLoss => Sys2Proof.Machine.execPartnerLoss s
  | .startingTimeout => Sys2Proof.Machine.execStartingTimeout s
  | .dualResolve => Sys2Proof.Machine.execDualResolve s
  | .takeoverAbandon => Sys2Proof.Machine.execTakeoverAbandon s
  | .takeoverStoreStart => Sys2Proof.Machine.execTakeoverStoreStart s
  | .takeoverComplete => Sys2Proof.Machine.execTakeoverComplete s
  | .seedPush => Sys2Proof.Machine.execSeedPush s
  | .seedSegment h data b => Sys2Proof.Machine.execSeedSegment h data b s
  | .seedTimeout => Sys2Proof.Machine.execSeedTimeout s
  | .standbyPatternTest raw => Sys2Proof.Machine.execStandbyPatternTest raw s
  | .healthReport => Sys2Proof.Machine.execHealthReport s
  | .switchStopStoring => Sys2Proof.Machine.execSwitchStopStoring s
  | .drainEnd => Sys2Proof.Machine.execDrainEnd s
  | .temperatureSample fe k quarterC selfTestOk => Sys2Proof.Machine.execTemperatureSample fe k quarterC selfTestOk s
  | .throttleEnd fe k => Sys2Proof.Machine.execThrottleEnd fe k s
  | .shutdownTrip k => Sys2Proof.Machine.execShutdownTrip k s
  | .nvmProgramCut => Sys2Proof.Machine.execNvmProgramCut s
  | .thermalRestart => Sys2Proof.Machine.execThermalRestart s
  | .feShutdownTrip p => Sys2Proof.Machine.execFeShutdownTrip p s
  | .feThermalRestart p => Sys2Proof.Machine.execFeThermalRestart p s
  | .supplyWarning fe => Sys2Proof.Machine.execSupplyWarning fe s
  | .dipEnd fe us => Sys2Proof.Machine.execDipEnd fe us s
  | .supplyReset fe => Sys2Proof.Machine.execSupplyReset fe s
  | .powerGood fe => Sys2Proof.Machine.execPowerGood fe s
  | .guardInputChange n r => Sys2Proof.Machine.execGuardInputChange n r s
  | .guardEvaluation gv24 selfOk reads => Sys2Proof.Machine.execGuardEvaluation gv24 selfOk reads s
  | .heldClear n => Sys2Proof.Machine.execHeldClear n s
  | .heldTimeout n => Sys2Proof.Machine.execHeldTimeout n s
  | .offPulse n fall rise => Sys2Proof.Machine.execOffPulse n fall rise s
  | .outputCurrentLimit n => Sys2Proof.Machine.execOutputCurrentLimit n s
  | .grst holdMs outs => Sys2Proof.Machine.execGrst holdMs outs s
  | .strapChange straps => Sys2Proof.Machine.execStrapChange straps s
  | .inputProven n => Sys2Proof.Machine.execInputProven n s
  | .latchRead copiesAgree outs => Sys2Proof.Machine.execLatchRead copiesAgree outs s
  | .passwordByte m v => Sys2Proof.Machine.execPasswordByte m v s
  | .check m v => Sys2Proof.Machine.execCheck m v s
  | .windowTimeout => Sys2Proof.Machine.execWindowTimeout s
  | .close m v => Sys2Proof.Machine.execClose m v s
  | .checkUnblock => Sys2Proof.Machine.execCheckUnblock s
  | .downlinkClockLock p q step => Sys2Proof.Machine.execDownlinkClockLock p q step s
  | .writeAcknowledged r => Sys2Proof.Machine.execWriteAcknowledged r s
  | .longCommandComplete results => Sys2Proof.Machine.execLongCommandComplete results s
  | .monSummary => Sys2Proof.Machine.execMonSummary s
  | .logPageEraseDone => Sys2Proof.Machine.execLogPageEraseDone s
  | .grstActive => Sys2Proof.Machine.execGrstActive s

end Sys2Proof.Machine
end

