-- ==== Sys2Proof/WellFormed.lean ====
section
/-! DEFINITION. Which commands are well formed: what the types of the operands do not say already. An instant lies in its frame,
a list is no longer than what carries it, and a set names nothing twice. -/

namespace Sys2Proof

/-- A front-end has five protection sensors (R403). -/
def feSensor (fe : Option PortIx) (s : SensIx) : Bool := fe.isNone || decide (s.val < 5)

/-- A command is well formed. -/
def WellFormed (i : Instr) : Bool :=
  match i with
  | .frameTick => true
  | .registerWrite _ _ _ => true
  | .lowWordRead _ => true
  | .timNowRead _ => true
  | .ptpSync _ _ _ _ _ _ => true
  | .ptpFollowUp _ _ _ _ => true
  | .ptpDelayResp _ _ _ _ => true
  | .ptpAnnounce _ _ => true
  | .ptpManagement _ => true
  | .delayReqSend _ _ => true
  | .announceTimeout _ => true
  | .ptpLoss => true
  | .delayRespTimeout _ => true
  | .pendingStepDrop => true
  | .stepApply _ _ => true
  | .stepWithdraw _ _ => true
  | .stepValWrite _ _ => true
  | .wholeFrameStep => true
  | .refLoss => true
  | .refReturn _ => true
  | .ppsEdge _ _ => true
  | .ppsMiss => true
  | .echoAverage _ => true
  | .suspect _ => true
  | .suspectClear _ => true
  | .tinEdge _ t _ _ => decide (t < 4000 * 65536)
  | .toutArm _ _ _ => true
  | .toutDisarm _ _ _ => true
  | .toutFire _ => true
  | .toutPulseEnd _ => true
  | .leadingEdge _ _ t _ => decide (t.at_ < 4000 * 65536)
  | .fineTimeReady _ _ _ => true
  | .validationDecided _ _ v => decide (v.at_ < 4000 * 65536)
  | .trailingEdge _ _ t => decide (t.at_ < 4000 * 65536)
  | .totSaturation _ _ => true
  | .busyEnd _ _ => true
  | .hitFinal _ _ t => decide (t < 4000 * 65536)
  | .calibrationPair _ _ _ t _ _ => decide (t < 4000 * 65536)
  | .interpolatorReady _ _ _ => true
  | .scheduledSwap _ _ => true
  | .pairStale _ _ _ => true
  | .channelEnable _ _ _ t _ => decide (t < 4000 * 65536)
  | .channelDisable _ _ _ t _ => decide (t < 4000 * 65536)
  | .cdSample _ _ _ _ => true
  | .cdTableCompute _ _ => true
  | .cdTableInstall _ _ => true
  | .binTableReset _ _ _ => true
  | .teCalPair _ _ t _ _ => decide (t.from_ < 4000 * 65536)
  | .gateChange _ => true
  | .gatePinEdge _ t _ => decide (t < 4000 * 65536)
  | .gateModeWrite _ _ t _ => decide (t < 4000 * 65536)
  | .testPulseInject _ => true
  | .chcntDataRead _ _ => true
  | .adcConversionStart _ _ t => decide (t < 4000 * 65536)
  | .adcResult _ _ _ _ _ _ => true
  | .spareRotation _ _ => true
  | .sliceCalibrationDone _ _ _ _ => true
  | .sliceReturn _ _ _ _ => true
  | .wakeSliceCalibration _ => true
  | .monScanTimer _ => true
  | .monInjectionDelay _ => true
  | .monConversion _ _ _ => true
  | .monCommit _ t => decide (t < 4000 * 65536)
  | .complianceTrip _ _ => true
  | .monStale _ _ => true
  | .regionSweep _ => true
  | .mergerChoice _ _ _ _ => true
  | .cutoff _ => true
  | .recordTake _ _ => true
  | .scrubVisit _ u => decide u.copies.Nodup
  | .nop _ _ _ => true
  | .gateOpen _ _ _ => true
  | .gateClose _ _ _ => true
  | .pulse _ _ _ => true
  | .scan _ _ _ => true
  | .flush _ _ _ => true
  | .flushEffect _ => true
  | .standby _ _ _ => true
  | .wake _ _ _ => true
  | .fePowerChange _ => true
  | .standbyPowerDown _ => true
  | .wakingEnd _ => true
  | .claim _ _ _ => true
  | .fastCommandInvalid _ _ _ => true
  | .syncSet _ _ x => decide (x.line.chars.length = 11)
  | .linkResetEnd _ _ => true
  | .requestCodeword _ _ t run other => decide (t < 4000 * 65536) && decide (run.chars.length = 180) &&
      other.all fun o => decide (o.1 < 4000 * 65536) && decide (o.2.chars.length = 180)
  | .readRequest _ _ _ => true
  | .writeRequest _ _ _ => true
  | .postedWriteRequest _ _ _ => true
  | .responseReceived _ r => decide (r.chars.length = 15)
  | .requestTimeout _ _ => true
  | .proxyAccess _ _ _ => true
  | .recordCodeword _ _ _ _ t chars => decide (t < 4000 * 65536) && decide (chars.length = 134)
  | .slotStartSet _ _ _ chars _ => decide (chars.length = 4)
  | .echoSet _ _ _ _ _ _ _ => true
  | .uplinkSignalDetect _ => true
  | .lockAchieved _ => true
  | .alignAchieved _ => true
  | .negotiateDone _ _ _ => true
  | .phaseVerify _ => true
  | .configCrcCheck _ _ _ => true
  | .linkStateTimeout _ => true
  | .equaliserStep _ _ _ => true
  | .uplinkSignalLoss _ => true
  | .downlinkClockLoss _ _ => true
  | .retry _ _ _ => true
  | .test _ _ _ => true
  | .prbsStart _ _ _ => true
  | .testEnd _ _ _ => true
  | .prbsInject _ _ _ => true
  | .plInject _ _ _ => true
  | .goldenCheck _ _ _ => true
  | .lateLimit => true
  | .alignedRelease xs => decide (xs.map fun x => (x.1, x.2.1)).Nodup
  | .mergeUpset _ _ => true
  | .sumsPresented rs => decide rs.Nodup
  | .hazelCode _ _ => true
  | .hazelVerify _ _ => true
  | .unitHandover _ _ => true
  | .spillPoint x => decide x.bad.Nodup
  | .sliceClaim => true
  | .frameCommit => true
  | .indexSnapshot _ _ _ => true
  | .lineWrite _ => true
  | .writeRetry _ => true
  | .storeWriteFailure _ => true
  | .allocatorInspect _ => true
  | .pinClear _ => true
  | .lineRead _ _ => true
  | .lineReadReturn _ _ => true
  | .firnScrubStep _ _ _ => true
  | .extentSnapshot _ _ _ => true
  | .extentRetire _ _ _ => true
  | .extentReturn _ _ _ => true
  | .firnInitDone => true
  | .triggerArmWrite _ _ => true
  | .triggerArm => true
  | .triggerDisarmWrite _ _ => true
  | .triggerDisarm => true
  | .decisionPoint _ hs rs => decide hs.Nodup && decide rs.Nodup
  | .primQueued => true
  | .requestArrival _ body => decide (body.length ≤ 2048)
  | .coreReadoutStart _ => true
  | .coreComplete _ => true
  | .coreAbort _ _ => true
  | .streamSliceRead => true
  | .laneFault _ => true
  | .restore _ _ ls => decide ls.Nodup
  | .laneFrame _ => true
  | .rxSignalDetect _ => true
  | .rxAligned _ => true
  | .rxLockTimeout _ => true
  | .rxSignalLoss _ => true
  | .rxStartSet _ x => decide (x.line.chars.length = 8)
  | .inboundFloeFrame _ f => f.cws.all fun c => decide (c.chars.length = 134)
  | .hello _ _ => true
  | .mailboxPacket _ body => decide (body.length ≤ 2048)
  | .beSilent _ => true
  | .schedulerChoice _ _ _ => true
  | .uqPush _ _ _ _ => true
  | .queueFlush _ _ _ _ => true
  | .queueStale _ _ => true
  | .uiqPop _ => true
  | .lockstepMismatch => true
  | .fetchTrap _ => true
  | .kick _ _ => true
  | .watchdogExpiry => true
  | .cramScrub _ _ => true
  | .mailboxTake => true
  | .readCmd _ _ body => decide (body.length ≤ 2040)
  | .writeCmd _ _ body => decide (body.length ≤ 2040)
  | .runStatus _ _ body => decide (body.length ≤ 2040)
  | .startCmd _ _ body => decide (body.length ≤ 2040)
  | .stopCmd _ _ body => decide (body.length ≤ 2040)
  | .thresh _ _ body => decide (body.length ≤ 2040)
  | .phase _ _ body => decide (body.length ≤ 2040)
  | .ampl _ _ body => decide (body.length ≤ 2040)
  | .calAbort _ _ body => decide (body.length ≤ 2040)
  | .histStart _ _ body => decide (body.length ≤ 2040)
  | .histStop _ _ body => decide (body.length ≤ 2040)
  | .period _ _ body => decide (body.length ≤ 2040)
  | .timeStatus _ _ body => decide (body.length ≤ 2040)
  | .acceptStep _ _ body _ => decide (body.length ≤ 2040)
  | .withdrawStep _ _ body => decide (body.length ≤ 2040)
  | .guardStatus _ _ body => decide (body.length ≤ 2040)
  | .guardSet _ _ body _ => decide (body.length ≤ 2040)
  | .setpw _ _ body _ salt v => decide (body.length ≤ 2040) && decide (salt.length = 16) && decide (v.length = 32)
  | .guardReset _ _ body _ _ => decide (body.length ≤ 2040)
  | .updStatus _ _ body => decide (body.length ≤ 2040)
  | .imgBegin _ _ body => decide (body.length ≤ 2040)
  | .imgData _ _ body => decide (body.length ≤ 2040)
  | .imgEnd _ _ body => decide (body.length ≤ 2040)
  | .activate _ _ body => decide (body.length ≤ 2040)
  | .rollback _ _ body => decide (body.length ≤ 2040)
  | .cfgBegin _ _ body => decide (body.length ≤ 2040)
  | .cfgData _ _ body => decide (body.length ≤ 2040)
  | .cfgCommit _ _ body => decide (body.length ≤ 2040)
  | .twinStatus _ _ body => decide (body.length ≤ 2040)
  | .switchCmd _ _ body => decide (body.length ≤ 2040)
  | .pushCmd _ _ body => decide (body.length ≤ 2040)
  | .logRead _ _ body => decide (body.length ≤ 2040)
  | .moverStart _ _ _ => true
  | .moverFetch _ _ => true
  | .moverBurstDone _ _ => true
  | .moverWriteback _ => true
  | .mvTimer _ => true
  | .moverKick _ _ _ => true
  | .moverAbort _ _ _ => true
  | .clear _ _ => true
  | .paceTimeout _ => true
  | .qemptyTimeout _ => true
  | .busError _ _ _ => true
  | .powerDownWaitExpiry _ => true
  | .thaw _ _ => true
  | .bkThawTimer => true
  | .powerOnReset cause _ _ _ => decide (cause.toNat ≤ 3)
  | .resetN _ _ _ _ _ => true
  | .configApply _ _ => true
  | .ready _ => true
  | .soft _ _ => true
  | .serviceSoftReset => true
  | .region _ _ => true
  | .regionReset _ => true
  | .regionRecovered _ => true
  | .powerRequestRun _ _ => true
  | .powerRequestIdle _ _ => true
  | .powerRequestHibernate _ _ => true
  | .transitionComplete => true
  | .feSoftResetWrite _ _ _ => true
  | .feSoftReset _ => true
  | .nvmProgramDone => true
  | .moraineEntry _ _ _ _ _ _ _ _ _ => true
  | .offer f h => decide (h.length = f.len.toNat) && decide (h.length = 120)
  | .updData f data => decide (data.length = f.len.toNat) && decide (data.length ≤ 1024)
  | .ack _ => true
  | .done _ => true
  | .updFrameActivate _ => true
  | .confirmed _ => true
  | .halt _ => true
  | .neighbourAbsent _ => true
  | .resendTimeout _ => true
  | .imageVerified _ => true
  | .trialConfirm => true
  | .trialTimeout => true
  | .heartbeatSend => true
  | .heartbeatReceived h _ => decide (h.length = 64)
  | .partnerLoss => true
  | .startingTimeout => true
  | .dualResolve => true
  | .takeoverAbandon => true
  | .takeoverStoreStart => true
  | .takeoverComplete => true
  | .seedPush => true
  | .seedSegment h data _ => decide (data.length = 1024) && decide (h.idx.toNat < h.count.toNat) && decide (1 ≤ h.bodyLen.toNat) && decide (h.bodyLen.toNat ≤ 1048576) &&
      decide (h.count.toNat = (h.bodyLen.toNat + 1023) / 1024)
  | .seedTimeout => true
  | .standbyPatternTest raw => decide (raw.length ≤ 4)
  | .healthReport => true
  | .switchStopStoring => true
  | .drainEnd => true
  | .temperatureSample fe s _ _ => feSensor fe s
  | .throttleEnd fe s => feSensor fe s
  | .shutdownTrip _ => true
  | .nvmProgramCut => true
  | .thermalRestart => true
  | .feShutdownTrip _ => true
  | .feThermalRestart _ => true
  | .supplyWarning _ => true
  | .dipEnd _ _ => true
  | .supplyReset _ => true
  | .powerGood _ => true
  | .guardInputChange _ _ => true
  | .guardEvaluation _ _ rs => decide (rs.map OutRead.n).Nodup
  | .heldClear _ => true
  | .heldTimeout _ => true
  | .offPulse _ _ _ => true
  | .outputCurrentLimit _ => true
  | .grst _ rs => decide (rs.map OutRead.n).Nodup
  | .strapChange _ => true
  | .inputProven _ => true
  | .latchRead _ rs => decide (rs.map OutRead.n).Nodup
  | .passwordByte _ _ => true
  | .check _ _ => true
  | .windowTimeout => true
  | .close _ _ => true
  | .checkUnblock => true
  | .downlinkClockLock _ _ _ => true
  | .writeAcknowledged _ => true
  | .longCommandComplete _ => true
  | .monSummary => true
  | .logPageEraseDone => true
  | .grstActive => true

end Sys2Proof
end

