-- ==== Sys2Proof/Safety.lean ====
section
/-! DEFINITION. What counts as a safe run: the form the state keeps, and that no step stops. -/

namespace Sys2Proof.Machine

/-- The keys of a sparse table rise strictly. -/
def rising {α : Type} : Tab α → Prop
  | [] => True
  | (k, _) :: r => (∀ e ∈ r, k < e.1) ∧ rising r

/-- The form of the tables: the registers of both parts, the stored Firn lines, the extent tables and the control RAM each list a key
at most once, in rising order. -/
def State.FormOk (s : State) : Prop :=
  rising s.creg ∧ rising s.freg ∧ rising s.firn.lines ∧ rising s.firn.extents ∧ rising s.sp.cram

/-- A step neither faults nor refuses. -/
def State.StepOk (s : State) : Prop := ∃ t, step s = .next t

/-- Keys of the registers that show the uplink queues, the log and the NVM's programs. -/
def noteKey (k : Nat) : Prop :=
  (0x600140 * 64 ≤ k ∧ k < 0x600600 * 64 ∧ 64 ≤ k / 64 % 256) ∨ (0xB00000 * 64 ≤ k ∧ k < 0xB00000 * 64 + 64) ∨
    (0xB00030 * 64 ≤ k ∧ k < 0xB0003C * 64)

/-- `t` is `s` after some sending and logging. -/
structure Notes (s t : State) : Prop where
  same : t = { s with creg := t.creg, upl := t.upl, nvm := t.nvm }
  regs : ∀ g : Fld, ¬ noteKey g.key → t.cget g = s.cget g

/-- Every concentrator field but the listed ones reads as before. -/
def RegsSame (s t : State) (fs : List Fld) : Prop := ∀ g : Fld, (∀ f ∈ fs, g.key ≠ f.key) → t.cget g = s.cget g

/-- Every front-end field but the listed ones reads as before. -/
def FeRegsSame (s t : State) (fs : List (Nat × Fld)) : Prop :=
  ∀ q (g : Fld), (∀ e ∈ fs, g.fkey q ≠ e.2.fkey e.1) → t.fget q g = s.fget q g

end Sys2Proof.Machine
end

