-- ==== Sys2Proof/Certificates/Slice0/Obligations.lean ====
section
/-! DEFINITION. The statements for the provers, chapter by chapter of spec/.  A clause has the form: under hypotheses on the state and
the operands alone, exec of the command answers a next state `t` (or `u`), and what that state holds; the record equations
(`t = { s with … }`), `RegsSame`, `FeRegsSame` and the unchanged parts named in a clause are its frame. -/

open Sys2Proof Sys2Proof.Machine Sys2Proof.Machine.State

/-! ### Time (R21–R62) -/

/-- FRAME_TICK (R12, R25, R26, R27): time is at the next multiple of 4,000 ns with fraction 0; the absolute frame number is one higher,
and the frame-in-second number carries into seconds. -/
def Obligations.FrameTickReachesTheNextTick : Prop :=
  ∀ s : State, ∃ t, exec .frameTick s = .next t ∧ t.tm.now = s.tm.now.nextTick ∧ t.tm.now.ns % 4000 = 0 ∧ t.tm.now.frac = 0 ∧
    (s.tm.now.ns < 1000000000 → s.tm.now.sec + 1 < 2 ^ 48 → t.tm.now.ns < 1000000000 ∧ t.frame = s.frame + 1 ∧
      (s.tm.now.fis = 249999 → t.tm.now.fis = 0 ∧ t.tm.now.sec = s.tm.now.sec + 1) ∧
      (s.tm.now.fis < 249999 → t.tm.now.fis = s.tm.now.fis + 1 ∧ t.tm.now.sec = s.tm.now.sec))

/-- PTP messages on a port whose instance runs (R23, R24, R30–R33): what each one leaves in the instance.
Rests in part on the model's readings and choices in log entries 16, 18, 73 and 76. -/
def Obligations.PtpMessagesAreKept : Prop :=
  (∀ (s : State) (v : SvcIx) (h : PtpHdr) t1 t2 corr, s.ptpHears v h.ethernet h.domain = true →
    (∃ t, exec (.ptpSync v false h t1 t2 corr) s = .next t ∧
      (t.ptp v).twoStep = some (h.seq.toNat, s.ingress v t2 - corr) ∧ t = { s with tm := t.tm }) ∧
    (∃ t, exec (.ptpSync v true h t1 t2 corr) s = .next t ∧
      (t.ptp v).masterToSlave = s.ingress v t2 - t1 - corr ∧ (t.ptp v).twoStep = none ∧ t.freg = s.freg ∧ t.firn = s.firn)) ∧
  (∀ (s : State) (v : SvcIx) (h : PtpHdr) arr t1 corr, s.ptpHears v h.ethernet h.domain = true →
    (s.ptp v).twoStep = some (h.seq.toNat, arr) →
    ∃ t, exec (.ptpFollowUp v h t1 corr) s = .next t ∧ (t.ptp v).masterToSlave = arr - t1 - corr ∧ (t.ptp v).twoStep = none) ∧
  (∀ (s : State) (v : SvcIx) (h : PtpHdr) t3 t4 corr sent, s.ptpHears v h.ethernet h.domain = true →
    (s.ptp v).reqs.find? (fun e => decide (e.1 = h.seq.toNat)) = some (h.seq.toNat, t3, sent) →
    s.monoNs ≤ sent + 4 * (s.ptp v).reqInterval →
    ∃ t, exec (.ptpDelayResp v h t4 corr) s = .next t ∧
      (t.ptp v).pathDelay = roundDivI ((s.ptp v).masterToSlave + (t4 - corr - t3)) 2 ∧
      (∀ e ∈ (t.ptp v).reqs, e ∈ (s.ptp v).reqs ∧ e.1 ≠ h.seq.toNat) ∧
      (t.ptp v).respMissed = 0 ∧ (t.ptp v).reqLog = some h.logInterval ∧ t = { s with tm := t.tm }) ∧
  (∀ (s : State) (v : SvcIx) a, s.ptpHears v a.ethernet a.domain = true →
    ∃ t, exec (.ptpAnnounce v a) s = .next t ∧ (t.ptp v).announce = some a ∧
      (t.ptp v).qualified = decide (-4 ≤ a.logInterval ∧ a.logInterval ≤ 1) ∧
      (t.tm.selected = some v.val → t.cget TIM_STAT_ARB = b2n a.arb ∧ t.cget TIM_UTC_OFS_OFS = a.utcOffset.toNat)) ∧
  (∀ (s : State) (v : SvcIx), s.ptpOn v = true →
    ∃ t, exec (.ptpManagement v) s = .next t ∧ (t.ptp v).mgmtIgnored = (s.ptp v).mgmtIgnored + 1 ∧ t = { s with tm := t.tm }) ∧
  (∀ (s : State) (v : SvcIx) t3, s.ptpOn v = true → s.reqDue v = true →
    ∃ t, exec (.delayReqSend v t3) s = .next t ∧
      (t.ptp v).reqs = (s.ptp v).reqs ++ [(((s.ptp v).reqSeq + 1) % 65536, s.egress v t3, s.monoNs)] ∧
      (t.ptp v).lastReq = some s.monoNs ∧ 62500000 ≤ (t.ptp v).reqInterval ∧
      t.svcTx = .delayReq v (((s.ptp v).reqSeq + 1) % 65536) :: s.svcTx ∧ t = { s with tm := t.tm, svcTx := t.svcTx })

/-- Losses of time sources (R32, R33, R35, R37): a master that is silent loses its port, the sources' bits are cleared, and
without another source the concentrator is in holdover.
Rests in part on the model's readings and choices in log entries 17, 76 and 79. -/
def Obligations.LostSourcesLeadToHoldover : Prop :=
  (∀ (s : State) (v : SvcIx), ∃ t, exec (.announceTimeout v) s = .next t ∧ (t.ptp v).qualified = false ∧
      t.tm.selected ≠ some v.val) ∧
  (∀ (s : State) (v w : SvcIx), v ≠ w → s.tm.selected = some v.val →
    ∃ t, exec .ptpLoss s = .next t ∧ (t.ptp v).lost = true ∧ t.cget TIM_STAT_PTP_LOSS = 1 ∧
      ((s.ptp w).qualified = true → (s.ptp w).lost = false → t.tm.selected = some w.val) ∧
      ((s.ptp w).qualified = false → t.tm.selected = none ∧ t.tm.holdover = true ∧
        (s.tm.everLocked = true → s.cget TIM_CTRL_SRC ≠ 2 → t.cget TIM_STAT_QUAL = 3))) ∧
  (∀ (s : State) (v : SvcIx), s.respOverdue v = true → ∃ t, exec (.delayRespTimeout v) s = .next t ∧
      (t.ptp v).respMissed = (s.ptp v).respMissed + 1 ∧ (t.ptp v).pathDelay = (s.ptp v).pathDelay ∧
      (15 ≤ (s.ptp v).respMissed → (t.ptp v).lost = true)) ∧
  (∀ s : State, s.cget TIM_CTRL_SRC = 1 →
    (∃ t, exec .refLoss s = .next t ∧ t.cget TIM_STAT_REF_LOSS = 1 ∧ t.cget TIM_STAT_REF_OK = 0 ∧
      t.tm = s.tm ∧ (s.cget TIM_STAT_QUAL = 2 → s.cget TIM_STAT_PTP_OK = 0 → t.cget TIM_STAT_QUAL = 3)) ∧
    (∃ t, exec .ppsMiss s = .next t ∧ t.cget TIM_STAT_PPS_MISS = 1 ∧ t.tm.now = s.tm.now ∧
      (2 ≤ s.tm.ppsMissRun → t.cget TIM_STAT_PPS_OK = 0))) ∧
  (∀ (s : State) d, s.cget TIM_CTRL_SRC = 1 → (d : Int).natAbs ≤ s.cget TIM_JUMP_JUMP * 65536 →
    ∃ t, exec (.refReturn d) s = .next t ∧ t.cget TIM_STAT_REF_OK = 1 ∧ t.tm.slewLeft = d ∧ t.tm.now = s.tm.now ∧
      RegsSame s t [TIM_STAT_REF_OK]) ∧
  (∀ (s : State) e sec, s.cget TIM_CTRL_SRC = 1 → (e : Int).natAbs ≤ 4 * 65536 → s.tm.selected = none →
    s.cget TIM_STAT_INIT_SET = 0 → s.tm.ppsPhased = false →
    ∃ t, exec (.ppsEdge e sec) s = .next t ∧ t.cget TIM_STAT_PPS_OK = 1 ∧ t.tm.now.ns = 0 ∧ t.tm.now.frac = 0 ∧
      t.tm.ppsPhased = true)

/-- Steps of the time (R29, R40–R45): an offset above the jump threshold is refused, pending, counted, logged and sent, and the time does
not change; what a write of `TIM_STEP` and of `TIM_STEP_VAL` then does; the whole-frame part at the next tick, and the count of ticks.
Rests in part on the model's readings and choices in log entries 15, 16, 19, 75, 77 and 80. -/
def Obligations.StepsAreRefusedAppliedOrDropped : Prop :=
  (∀ (s : State) (v : SvcIx) (h : PtpHdr) t1 t2 corr, s.ptpHears v h.ethernet h.domain = true → s.tm.selected = some v.val →
      s.cget TIM_CTRL_SRC = 0 →
      s.con TIM_STAT_INIT_SET = true → s.con TIM_STAT_STEP_PEND = false → s.nvm.pending.length < 1024 → s.nvm.overflow = 0 →
      let off := -(s.ingress v t2 - t1 - corr - (s.ptp v).pathDelay - toSigned 32 (s.cget TIM_PTP_ASYM_ASYM) * 4096)
      s.cget TIM_JUMP_JUMP * 65536 < off.natAbs →
      ∃ t, exec (.ptpSync v true h t1 t2 corr) s = .next t ∧ t.cget TIM_STAT_STEP_PEND = 1 ∧
        t.cget TIM_STEP_VAL_VAL = ofSigned 64 (roundDivI off 65536) ∧ t.cget TIM_STAT_QUAL = 3 ∧ t.tm.holdover = true ∧
        t.cget TIM_EVT_CNT_STEP_REFUSED = min (s.cget TIM_EVT_CNT_STEP_REFUSED + 1) 255 ∧
        t.cget MRN_SEQ_SEQ = (s.cget MRN_SEQ_SEQ + 1) % 2 ^ 64 ∧ t.upl.alarms = (s.upl.alarms + 1) % 2 ^ 32 ∧
        t.tm.now = s.tm.now ∧ t.tm.slewLeft = s.tm.slewLeft) ∧
  (∀ (s : State) (m : MasterIx) (v : W32), s.frozen m = false → s.permitted m .control 0x20002C .write = true →
    (bitAt v.toNat 0 = true → bitAt v.toNat 1 = false → bits v.toNat 16 16 = 0xA5C3 → s.con TIM_STAT_STEP_PEND = true →
      s.stepBlocked s.stepVal = false →
      ∃ t, exec (.stepApply m v) s = .next t ∧ t.cget TIM_STAT_STEP_PEND = 0 ∧ t.cget TIM_STAT_INIT_SET = 1 ∧
        t.tm.slewLeft = s.stepVal.tmod 4000 * 65536 ∧ t.tm.now = s.tm.now ∧
        (s.stepVal.tdiv 4000 ≠ 0 → s.tm.stepFrames = none → t.tm.stepFrames = some (s.stepVal.tdiv 4000)) ∧
        t.cget TIM_EVT_CNT_STEP_APPLIED = min (s.cget TIM_EVT_CNT_STEP_APPLIED + 1) 255 ∧
        RegsSame s t [TIM_STAT_STEP_PEND, TIM_STAT_INIT_SET, TIM_EVT_CNT_STEP_APPLIED] ∧
        t = { s with creg := t.creg, tm := t.tm, sp := t.sp }) ∧
    (bitAt v.toNat 1 = false → bits v.toNat 16 16 ≠ 0xA5C3 →
      ∃ t, exec (.stepApply m v) s = .next t ∧ t.cget TIM_EVT_CNT_KEY_ERR = min (s.cget TIM_EVT_CNT_KEY_ERR + 1) 255 ∧
        RegsSame s t [TIM_EVT_CNT_KEY_ERR] ∧ t = { s with creg := t.creg, sp := t.sp }) ∧
    (bitAt v.toNat 0 = true → bitAt v.toNat 1 = true →
      ∃ t, exec (.stepApply m v) s = .next t ∧ t.cget TIM_STAT_CFG_ERR = 1 ∧ RegsSame s t [TIM_STAT_CFG_ERR] ∧
        t = { s with creg := t.creg, sp := t.sp }) ∧
    (bitAt v.toNat 0 = false → bitAt v.toNat 1 = true →
      ∃ t, exec (.stepWithdraw m v) s = .next t ∧ t.cget TIM_STAT_STEP_PEND = 0 ∧ t.cget TIM_STAT_QUAL = s.cget TIM_STAT_QUAL ∧
        RegsSame s t [TIM_STAT_STEP_PEND] ∧ t = { s with creg := t.creg, tm := t.tm, sp := t.sp })) ∧
  (∀ (s : State) (m : MasterIx) (v : W32), s.frozen m = false → s.permitted m .control 0x20003C .write = true →
    ∃ t, exec (.stepValWrite m v) s = .next t ∧
      (s.cget TIM_CTRL_SRC = 2 → t.cget TIM_STAT_STEP_PEND = 1 ∧
        t.cget TIM_STEP_VAL_VAL = s.cget TIM_STEP_VAL_VAL % 2 ^ 32 + v.toNat * 2 ^ 32 ∧
        RegsSame s t [TIM_STAT_STEP_PEND, TIM_STEP_VAL_VAL]) ∧
      (s.cget TIM_CTRL_SRC ≠ 2 → t.cget TIM_STAT_CFG_ERR = 1 ∧ RegsSame s t [TIM_STAT_CFG_ERR]) ∧ t = { s with creg := t.creg, sp := t.sp }) ∧
  (∀ s : State, s.con TIM_STAT_STEP_PEND = true → 16 ≤ s.tm.belowRun →
    ∃ t, exec .pendingStepDrop s = .next t ∧ t.cget TIM_STAT_STEP_PEND = 0 ∧ t.tm.now = s.tm.now ∧ t.tm.slewLeft = s.tm.slewLeft ∧
      RegsSame s t [TIM_STAT_STEP_PEND]) ∧
  (∀ (s : State) (w : Int), s.tm.stepFrames = some w → s.tm.stepAsk < s.tm.tick → 0 ≤ s.frame + w → s.tm.now.ns % 4000 = 0 →
    s.tm.now.frac = 0 → s.frame + w < 2 ^ 48 * 250000 →
    ∃ t, exec .wholeFrameStep s = .next t ∧ (t.frame : Int) = s.frame + w ∧ t.tm.stepFrames = none ∧ t.tm.tick = s.tm.tick ∧
      t.tm.now.ns % 4000 = 0 ∧ t.tm.now.frac = 0) ∧
  (∀ s : State, ∃ t, exec .frameTick s = .next t ∧ t.tm.tick = s.tm.tick + 1)

/-- Trigger-input edges, timed outputs and the read of the time (R54, R55, R57–R59, R62).
Rests in part on the model's readings and choices in log entries 4, 20 and 78. -/
def Obligations.TriggerInputsAndTimedOutputs : Prop :=
  (∀ (s : State) (i : Fin 8) (t : Inst) (w : Nat), s.con (TIN_CFG_EN i) = true →
    (w < 117965 → ∃ u, exec (.tinEdge i t (!(s.con (TIN_CFG_POL i))) w) s = .next u ∧
      u.cget (TIN_CNT_GLITCH i) = min (s.cget (TIN_CNT_GLITCH i) + 1) 255 ∧ RegsSame s u [TIN_CNT_GLITCH i]) ∧
    (144179 < w → (tget s.tm.tin i {}).lastStamp = none → ∃ u, exec (.tinEdge i t (!(s.con (TIN_CFG_POL i))) w) s = .next u ∧
      u.cget (TIN_CNT_ACCEPT i) = min (s.cget (TIN_CNT_ACCEPT i) + 1) 65535 ∧ RegsSame s u [TIN_CNT_ACCEPT i] ∧
      (tget u.tm.tin i {}).lastStamp = some (s.mono t) ∧
      (tget u.tm.tin i {}).stamps.length = (tget s.tm.tin i {}).stamps.length + 1) ∧
    (144179 < w → ∀ l, (tget s.tm.tin i {}).lastStamp = some l → s.mono t < l + 16 * 65536 →
      ∃ u, exec (.tinEdge i t (!(s.con (TIN_CFG_POL i))) w) s = .next u ∧
        u.cget (TIN_CNT_LOST i) = min (s.cget (TIN_CNT_LOST i) + 1) 255 ∧ RegsSame s u [TIN_CNT_LOST i] ∧ u.tm.tin = s.tm.tin)) ∧
  (∀ (s : State) (j : Fin 2) (m : MasterIx) (v : W32), s.frozen m = false →
    s.permitted m .control (0x200200 + 32 * j) .write = true →
    (bitAt v.toNat 0 = true → s.con (TOUT_CTRL_ARM j) = false → s.tm.now.inst + 8000 * 65536 ≤ s.toutTarget j →
      s.cget (TOUT_PERIOD_P j) = 0 → ∃ t, exec (.toutArm j m v) s = .next t ∧ t.cget (TOUT_CTRL_ARM j) = 1 ∧
        (tget t.tm.tout j {}).target = s.toutTarget j) ∧
    (bitAt v.toNat 0 = true → s.con (TOUT_CTRL_ARM j) = false → s.toutTarget j < s.tm.now.inst + 8000 * 65536 →
      ∃ t, exec (.toutArm j m v) s = .next t ∧ t.cget (TOUT_CTRL_ARM j) = 0 ∧ t.cget (TOUT_CTRL_LATE j) = 1) ∧
    (bitAt v.toNat 0 = false → ∃ t, exec (.toutDisarm j m v) s = .next t ∧ t.cget (TOUT_CTRL_ARM j) = 0 ∧
      (tget t.tm.tout j {}).pulse = false)) ∧
  (∀ (s : State) (j : Fin 2), s.con (TOUT_CTRL_ARM j) = true → (tget s.tm.tout j {}).skipped = false →
    (tget s.tm.tout j {}).target < (s.tm.now.sec * 1000000000 + s.tm.now.ns / 4000 * 4000) * 65536 + instPerFrame →
    ∃ t, exec (.toutFire j) s = .next t ∧ (tget t.tm.tout j {}).pulse = true ∧
      (tget t.tm.tout j {}).began = (tget s.tm.tout j {}).target ∧
      ((s.tm.now.sec * 1000000000 + s.tm.now.ns / 4000 * 4000) * 65536 ≤ (tget s.tm.tout j {}).target →
        (tget t.tm.tout j {}).ends = s.tm.tick * instPerFrame + ((tget s.tm.tout j {}).target -
          (s.tm.now.sec * 1000000000 + s.tm.now.ns / 4000 * 4000) * 65536) + max 1 (s.cget (TOUT_WIDTH_W j)) * 8 * 65536) ∧
      (s.cget (TOUT_PERIOD_P j) = 0 → t.cget (TOUT_CTRL_ARM j) = 0 ∧ t.cget (TOUT_CTRL_FIRED j) = 1) ∧
      (s.cget (TOUT_PERIOD_P j) ≠ 0 → t.cget (TOUT_CTRL_ARM j) = 1 ∧
        (tget t.tm.tout j {}).target = (tget s.tm.tout j {}).target + s.cget (TOUT_PERIOD_P j) * 65536)) ∧
  (∀ (s : State) (j : Fin 2), (tget s.tm.tout j {}).pulse = true → (tget s.tm.tout j {}).ends < s.mono instPerFrame →
    ∃ t, exec (.toutPulseEnd j) s = .next t ∧ (tget t.tm.tout j {}).pulse = false ∧ t = { s with tm := t.tm }) ∧
  (∀ (s : State) (m : MasterIx), s.frozen m = false → s.permitted m .control 0x200000 .read = true →
    ∃ t, exec (.timNowRead m) s = .next t ∧ tget t.tm.nowLatch m {} = s.tm.now ∧
      tget t.sp.answers m (false, 0) = (false, s.tm.now.ns) ∧ t = { s with tm := t.tm, sp := t.sp })

/-! ### The channel (R63–R107) -/

/-- A leading edge (R66, R67, R70, R73, R77–R81): the output rises above V_T while the discriminator is low. An unarmed channel takes none;
inside a busy interval it is counted as pile-up; otherwise the armed interpolator takes it with its pair, also one that has been ready since
before the channel was armed; with neither armed nor ready it is counted as not timed. It opens a busy interval.
Rests in part on the model's readings and choices in log entry 11. -/
def Obligations.LeadingEdgeIsTakenOnce : Prop :=
  ∀ (s : State) (p : PortIx) (c : ChIx) (t : Crossing) (raw : BitVec 12),
    let h := s.ch p c
    let m := s.mono t.at_
    let g := h.settle (m / 65536) (p * 512 + c)
    (h.discHigh = true ∨ s.aboveT p c m t.level = false → exec (.leadingEdge p c t raw) s = .next (s.toInst t.at_)) ∧
    (h.discHigh = false → s.aboveT p c m t.level = true →
    ((s.toInst t.at_).armedAt p c (m / 65536) = false →
      ∃ u, exec (.leadingEdge p c t raw) s = .next u ∧ u.ch p c = { h with discHigh := true }) ∧
    ((s.toInst t.at_).armedAt p c (m / 65536) = true → ∀ b, h.busyUntil = some b → m < b →
      ∃ u, exec (.leadingEdge p c t raw) s = .next u ∧ (u.ch p c).pileup = min (h.pileup + 1) 65535 ∧
        (u.ch p c).hits.length = h.hits.length ∧ (u.ch p c).intA = h.intA ∧ (u.ch p c).intB = h.intB) ∧
    ((s.toInst t.at_).armedAt p c (m / 65536) = true → (∀ b, h.busyUntil = some b → b ≤ m) →
      (h.intA.role = .armed → h.intA.ready (m / 65536) = true → ∀ c1 c2, h.intA.pair = some (c1, c2) →
        ∃ u, exec (.leadingEdge p c t raw) s = .next u ∧ (u.ch p c).busyUntil = some (m + 6 * 65536) ∧
          (u.ch p c).hits.length = h.hits.length + 1 ∧ (u.ch p c).intA.role = .converting ∧ (u.ch p c).noCal = h.noCal ∧
          ∃ n ∈ (u.ch p c).hits, n.at_ = t.at_ ∧ n.tick = s.tm.tick ∧ n.int = 0 ∧ n.raw = raw.toNat ∧ n.stop = t.at_ / 65536 + 2 ∧
            n.c1 = c1 ∧ n.c2 = c2 ∧ n.hold8 = s.along p c m t.level) ∧
      (h.noneArmed = true → h.intA.ready (m / 65536) = true → h.intB.ready (m / 65536) = false →
        ∃ u, exec (.leadingEdge p c t raw) s = .next u ∧ (u.ch p c).hits.length = h.hits.length + 1 ∧
          (u.ch p c).intA.role = .converting ∧ (u.ch p c).noCal = h.noCal) ∧
      (g.noneArmed = true →
        ∃ u, exec (.leadingEdge p c t raw) s = .next u ∧ (u.ch p c).busyUntil = some (m + 6 * 65536) ∧
          (u.ch p c).noCal = min (h.noCal + 1) 65535 ∧ (u.ch p c).hits.length = h.hits.length)))

/-- The end of a pulse (R67, R71–R73, R90–R93): the output falls to V_R while the discriminator is high. The trailing edge completes the hit
that waits for it with the time its own interpolator measured, or is an orphan after arming; saturation and the end of the busy interval are
kept with the hit.
Rests in part on the model's readings and choices in log entries 23 and 85. -/
def Obligations.TrailingEdgeCompletesItsHit : Prop :=
  (∀ (s : State) (p : PortIx) (c : ChIx) (t : TeCrossing) (n : Hit) (r : List Hit), (s.ch p c).discHigh = true →
    s.atMostR p c (s.mono t.at_) t.level = true → (s.ch p c).hits = n :: r → n.teInst = none → n.sat = false →
    ∃ u, exec (.trailingEdge p c t) s = .next u ∧
      (s.mono t.at_ < n.satAt → (u.ch p c).hits = { n with
        teInst := some (s.mono t.at_), te16 := (s.ch p c).teTime s.tm.tick t.at_ t.raw.toNat (p * 512 + c) } :: r) ∧
      (n.satAt ≤ s.mono t.at_ → (u.ch p c).hits = { n with sat := true } :: r) ∧
      (u.ch p c).busyUntil =
        some (max ((s.ch p c).busyUntil.getD 0) (s.mono t.at_ + s.fgetAt p (CH_CFG_HOLDOFF c) (s.mono t.at_) * 65536)) ∧
      (u.ch p c).orphan = (s.ch p c).orphan ∧ u = { s with tm := u.tm, chans := u.chans }) ∧
  (∀ (s : State) (p : PortIx) (c : ChIx) (t : TeCrossing), (s.ch p c).discHigh = true → s.atMostR p c (s.mono t.at_) t.level = true →
    (∀ n ∈ (s.ch p c).hits, n.open_ = false) →
    (s.toInst t.at_).armedAt p c (s.mono t.at_ / 65536) = true → (s.ch p c).orphanNext = true →
    ∃ u, exec (.trailingEdge p c t) s = .next u ∧ (u.ch p c).orphan = min ((s.ch p c).orphan + 1) 65535 ∧
      (u.ch p c).hits = (s.ch p c).hits ∧ (u.fe p).factsNow.orphan = true ∧ (u.ch p c).orphanNext = false) ∧
  (∀ (s : State) (p : PortIx) (c : ChIx) (t : TeCrossing), (s.ch p c).discHigh = false ∨ s.atMostR p c (s.mono t.at_) t.level = false →
    exec (.trailingEdge p c t) s = .next (s.toInst t.at_)) ∧
  (∀ (s : State) (p : PortIx) (c : ChIx) (n : Hit) (r : List Hit), (s.ch p c).hits = n :: r → n.open_ = true →
    ∃ u, exec (.totSaturation p c) s = .next u ∧ (u.ch p c).hits = { n with sat := true } :: r ∧ u = { s with chans := u.chans }) ∧
  (∀ (s : State) (p : PortIx) (c : ChIx) (b : Nat), (s.ch p c).busyUntil = some b → (s.ch p c).discHigh = false →
    ∃ u, exec (.busyEnd p c) s = .next u ∧ (u.ch p c).busyUntil = none ∧
      (∀ (n : Hit) (r : List Hit), (s.ch p c).hits = n :: r → some n.mono = (s.ch p c).busyHit →
        (u.ch p c).hits = { n with busyOver := true } :: r) ∧ u = { s with tm := u.tm, chans := u.chans })

/-- The time of a leading edge (R82–R84, R87, R88) and its validation (R75): coarse and fine time from the linearised value and the table of
the hit's frame, the neighbouring frame where the coarse time runs over or under, a void conversion outside −0.25 to +1.25, and a faulty
table entry read as its uniform value.
Rests in part on the model's readings and choices in log entries 11, 23 and 84. -/
def Obligations.FineTimeFollowsTheFixedPointRule : Prop :=
  (∀ (s : State) (p : PortIx) (c : ChIx) (n : Hit) (r : List Hit) (e : EntryParity), (s.ch p c).hits = n :: r → n.coarse = none →
    (outOfRange n.raw n.c1 n.c2 = true →
      ∃ u m, exec (.fineTimeReady p c e) s = .next u ∧ (u.ch p c).hits = m :: r ∧ m.rejected = true ∧
        (u.ch p c).range = min ((s.ch p c).range + 1) 65535 ∧ u = { s with chans := u.chans }) ∧
    (outOfRange n.raw n.c1 n.c2 = false → s.fonAt p (CH_CFG_GATE_EN c) n.mono = false →
      let v : Int := ((n.stop : Int) - 1) * 2 ^ 24 - ((n.raw : Int) - n.c1) * (roundDiv (2 ^ 24) (n.c2 - n.c1) : Nat)
      let pos : Nat := (v / 2 ^ 14 % 1024).toNat
      let seg : Nat := pos / 16
      ∃ u m, exec (.fineTimeReady p c e) s = .next u ∧ (u.ch p c).hits = m :: r ∧ m.rejected = n.rejected ∧
        m.fine = fineOf (((s.ch p c).intp n.int).tableAt m.hitTick) pos ⟨e.lo && decide (seg ≠ 0), e.hi && decide (seg ≠ 63)⟩ ∧
        (e.lo = false → e.hi = false → m.fine = ((((binE (((s.ch p c).intp n.int).tableAt m.hitTick) seg : Nat) : Int) +
          (((binE (((s.ch p c).intp n.int).tableAt m.hitTick) (seg + 1) : Nat) : Int) -
            (binE (((s.ch p c).intp n.int).tableAt m.hitTick) seg : Nat)) * ((pos % 16 : Nat) : Int) / 16) / 8).toNat) ∧
        (0 ≤ v / 2 ^ 24 → v / 2 ^ 24 < 4000 → m.coarse = some (v / 2 ^ 24).toNat ∧ m.hitTick = n.tick) ∧
        (4000 ≤ v / 2 ^ 24 → m.coarse = some (v / 2 ^ 24 - 4000).toNat ∧ m.hitTick = n.tick + 1) ∧
        (v / 2 ^ 24 < 0 → m.coarse = some (v / 2 ^ 24 + 4000).toNat ∧ m.hitTick = n.tick - 1) ∧
        (e.lo = false → e.hi = false → u = { s with chans := u.chans }) ∧
        (e.lo = true → seg ≠ 0 → u.fget p (BLK_CDSTAT_PERR (c / 16)) = 1 ∧ ((u.ch p c).intp n.int).resetPending = true))) ∧
  (∀ (s : State) (p : PortIx) (c : ChIx) (x : ValLook) (n : Hit) (r : List Hit), (s.ch p c).hits = n :: r →
    n.valDue (s.mono x.at_) = true →
    let v := x.spans.any fun e => decide (e.1 ≤ n.valSpan) && decide (e.1 ≤ e.2)
    ∃ u, exec (.validationDecided p c x) s = .next u ∧
      (u.ch p c).hits = { n with valid := some v, rejected := n.rejected || !v } :: r ∧
      (v = false → (u.ch p c).valRej = min ((s.ch p c).valRej + 1) 65535) ∧
      (v = true → (u.ch p c).valRej = (s.ch p c).valRej) ∧ u = { s with tm := u.tm, chans := u.chans })

/-- Interpolators and their pairs (R77–R81, R90, R157): a pair is accepted from 768 to 1,280 codes in a powered front-end; roles change at
readiness, at the scheduled swap and when a pair is stale; the trailing-edge pair needs 8 ns with the discriminator low.
Rests in part on the model's readings and choices in log entry 5. -/
def Obligations.InterpolatorsChangeRolesByTheRule : Prop :=
  (∀ (s : State) (p : PortIx) (c : ChIx) (x : IntIx) (t : Inst) (c1 c2 : BitVec 12), s.feMeasures p = true →
    ((s.ch p c).intp x).role ≠ .armed →
    (c1.toNat + 768 ≤ c2.toNat → c2.toNat ≤ c1.toNat + 1280 →
      ∃ u, exec (.calibrationPair p c x t c1 c2) s = .next u ∧ ((u.ch p c).intp x).pair = some (c1.toNat, c2.toNat) ∧
        ((u.ch p c).intp x).pairAt = s.mono t / 65536 ∧ (u.ch p c).calFail = (s.ch p c).calFail) ∧
    (c2.toNat < c1.toNat + 768 → (s.toInst t).armedAt p c (s.mono t / 65536) = true →
      ∃ u, exec (.calibrationPair p c x t c1 c2) s = .next u ∧ (u.ch p c).calFail = min ((s.ch p c).calFail + 1) 65535 ∧
        (u.ch p c).intp x = (s.ch p c).intp x)) ∧
  (∀ (s : State) (p : PortIx) (c : ChIx) (x : IntIx), ((s.ch p c).intp x).role = .converting → s.feMeasures p = true →
    ∃ u, exec (.interpolatorReady p c x) s = .next u ∧ ((u.ch p c).intp x).converted = true ∧
      ((u.ch p c).intp x).role ≠ .converting ∧ u = { s with chans := u.chans }) ∧
  (∀ (s : State) (p : PortIx) (c : ChIx), s.armedAt p c s.monoNs = true → (s.ch p c).intA.role = .armed →
    (s.ch p c).intB.role = .idle →
    ((s.ch p c).intB.ready s.monoNs = true → ∃ u, exec (.scheduledSwap p c) s = .next u ∧ (u.ch p c).intA.role = .idle ∧
      (u.ch p c).intB.role = .armed ∧ u = { s with chans := u.chans }) ∧
    ((s.ch p c).intB.ready s.monoNs = false → exec (.scheduledSwap p c) s = .next s)) ∧
  (∀ (s : State) (p : PortIx) (c : ChIx) (x : IntIx), ((s.ch p c).intp x).role = .armed →
    ((s.ch p c).intp x).pairAt + 4000 < s.monoNs →
    ∃ u, exec (.pairStale p c x) s = .next u ∧ ((u.ch p c).intp x).role = .idle ∧ u = { s with chans := u.chans }) ∧
  (∀ (s : State) (p : PortIx) (c : ChIx) (t : Span) (c1 c2 : BitVec 12), s.feMeasures p = true → (s.ch p c).teDone = false →
    ((s.ch p c).discHigh = false → (s.ch p c).discLow + 8 * 65536 ≤ s.mono t.from_ →
      ∃ u, exec (.teCalPair p c t c1 c2) s = .next u ∧ (u.ch p c).tePair = (c1.toNat, c2.toNat) ∧
        (u.ch p c).teAt = s.mono t.to_ / 65536 ∧ (u.ch p c).teDone = true) ∧
    ((s.ch p c).discHigh = true ∨ s.mono t.from_ < (s.ch p c).discLow + 8 * 65536 →
      exec (.teCalPair p c t c1 c2) s = .next (s.toInst t.to_)))

/-- Code density (R85–R88): samples fill the histograms of the selected channel, full histograms give tables that are accepted only
with every width from 32 to 96, accepted tables come into force at a tick, and a parity error ends in the uniform table.
Rests in part on the model's readings and choices in log entries 9, 24 and 86. -/
def Obligations.CodeDensityTablesAreBuiltAndInstalled : Prop :=
  (∀ (s : State) (p : PortIx) (b : BlkIx) (stop : Nat) (raw : BitVec 12) (pr : Nat × Nat),
    let k := s.blk p b
    let c := 16 * b.val + k.cdSel
    s.fon p (BLK_CD_EN b) = true → s.fon p (CH_CFG_CD_EN c) = true → (s.fe p).analogOn = true →
    (s.ch p c).intA.role = .idle → (s.ch p c).intA.pair = some pr → k.nA < s.cdN p b →
    ∃ u, exec (.cdSample p b stop raw) s = .next u ∧ (u.blk p b).nA = k.nA + 1 ∧ (u.blk p b).nB = k.nB ∧
      tget (u.blk p b).histA (linP (linV stop raw.toNat pr.1 pr.2)) 0 =
        tget k.histA (linP (linV stop raw.toNat pr.1 pr.2)) 0 + 1 ∧ u.chans = s.chans) ∧
  (∀ (s : State) (p : PortIx) (b : BlkIx), s.cdN p b ≤ (s.blk p b).nA → s.cdN p b ≤ (s.blk p b).nB →
    ∃ u, exec (.cdTableCompute p b) s = .next u ∧ (u.blk p b).nA = 0 ∧ (u.blk p b).nB = 0 ∧ (u.blk p b).histA = [] ∧
      (∀ e ∈ (u.blk p b).newTables, e ∈ (s.blk p b).newTables ∨ tableOk e.2.2 = true) ∧ u.chans = s.chans) ∧
  (∀ (s : State) (p : PortIx) (b : BlkIx) (k : Fin 16) (x : IntIx) (tbl : List Nat), (s.blk p b).newTables = [(k.val, x.val, tbl)] →
    ∃ u, exec (.cdTableInstall p b) s = .next u ∧ ((u.ch p (16 * b.val + k)).intp x).table = tbl ∧
      ((u.ch p (16 * b.val + k)).intp x).tableFrom = s.tickDue ∧ (u.blk p b).newTables = [] ∧
      u.fget p (BLK_CDSTAT_DONE b) = min (s.fget p (BLK_CDSTAT_DONE b) + 1) 255 ∧ FeRegsSame s u [(p, BLK_CDSTAT_DONE b)]) ∧
  (∀ (s : State) (p : PortIx) (c : ChIx) (x : IntIx), ((s.ch p c).intp x).resetPending = true →
    ∃ u, exec (.binTableReset p c x) s = .next u ∧ (∀ i, i ≤ 64 → binE ((u.ch p c).intp x).table i = 64 * i) ∧
      ((u.ch p c).intp x).resetPending = false ∧ u = { s with chans := u.chans })

/-- The gate and the test pulse (R94–R100): a change waits for its instant, takes effect there and gives a gate record; a pin level that does
not last 2 ns is never taken; a command that asks for the state in force is counted as redundant; an injection is made once, with its charge
and the channels that take part.
Rests in part on the model's readings and choices in log entry 107. -/
def Obligations.GateChangesAndTestPulses : Prop :=
  (∀ (s : State) (p : PortIx) (g : GateCmd) (r : List GateCmd), (s.fe p).gateCmds = g :: r → g.tick ≤ s.tm.tick → g.kind = 0 →
    (s.fon p GATE_STAT_CMD_OPEN = g.open_ → ∃ u, exec (.gateChange p) s = .next u ∧ (u.fe p).gateCmds = r ∧
      u.fget p GATE_STAT_REDUNDANT = min (s.fget p GATE_STAT_REDUNDANT + 1) 255 ∧ FeRegsSame s u [(p, GATE_STAT_REDUNDANT)]) ∧
    (s.fon p GATE_STAT_CMD_OPEN = (!g.open_) → s.fgetAt p GATE_CFG_MODE (g.ns * 65536) = 1 → s.fon p GATE_STAT_OPEN = (!g.open_) →
      s.fonAt p GATE_CFG_REC_EN (g.ns * 65536) = true → (s.fe p).factsNow.gates.length < 4 →
      ∃ u, exec (.gateChange p) s = .next u ∧ (u.fe p).gateCmds = r ∧ u.fget p GATE_STAT_OPEN = b2n g.open_ ∧
        u.fget p GATE_STAT_CMD_OPEN = b2n g.open_ ∧
        (u.fe p).factsNow.gates = (s.fe p).factsNow.gates ++ [gateRecord g.coarse g.open_ false g.slot])) ∧
  (∀ (s : State) (p : PortIx) (g : GateCmd) (r : List GateCmd), (s.fe p).gateCmds = g :: r → g.tick ≤ s.tm.tick → g.kind = 1 →
    s.fgetAt p GATE_CFG_MODE (g.ns * 65536) = 2 → s.fon p GATE_STAT_OPEN = (!g.open_) →
    ∃ u, exec (.gateChange p) s = .next u ∧ u.fget p GATE_STAT_PIN_OPEN = b2n g.open_ ∧ u.fget p GATE_STAT_OPEN = b2n g.open_ ∧
      (u.fe p).gateHist.head? = some (g.ns, g.open_)) ∧
  (∀ (s : State) (p : PortIx) (t : Inst) (level : Bool), s.feLive p = true →
    let ns := (t + 4 * 65536 + 65535) / 65536
    let new : GateCmd := ⟨s.tm.tick + ns / 4000, ns % 4000, 1, level, 0xFF, s.mono t⟩
    ((s.fe p).gateCmds = [] → ∃ u, exec (.gatePinEdge p t level) s = .next u ∧ (u.fe p).gateCmds = [new] ∧ u.freg = s.freg) ∧
    (∀ g, (s.fe p).gateCmds = [g] → g.kind = 1 → s.mono t < g.cross + 2 * 65536 → s.mono t / 65536 ≤ g.ns →
      ∃ u, exec (.gatePinEdge p t level) s = .next u ∧ (u.fe p).gateCmds = [new] ∧ u.freg = s.freg)) ∧
  (∀ (s : State) (p : PortIx) (j : Injection) (r : List Injection), (s.fe p).injects = j :: r → j.tick ≤ s.tm.tick →
    let m := j.tick * instPerFrame + j.phase
    ∃ u, exec (.testPulseInject p) s = .next u ∧ u.fget p TP_STAT_INJ = min (s.fget p TP_STAT_INJ + 1) 65535 ∧
      (u.fe p).injects = r ∧ (∃ x, (u.fe p).injected = some x ∧ x.at_ = m ∧ x.amp = j.amp ∧
        ∀ (c : ChIx) (b : Bool), (c.val, b) ∈ x.chans ↔ s.fonAt p (CH_CFG_TP_EN c) m = true ∧ b = s.fonAt p (CH_CFG_POL c) m) ∧
      FeRegsSame s u [(p, TP_STAT_INJ)])

/-! ### Amplitude and monitoring (R108–R138) -/

/-- Conversions and slices (R108–R118): a waiting hit takes the lowest free active slice for 500 ns or is invalid for want of one, starters
of one edge in ascending channel order; the result is handed over on the first fc edge after 500 ns: the peak in steps of 0.125 mV, or of
1 mV above 127.5 mV, held to 0–1,023; the spare goes round and calibrates.
Rests in part on the model's readings and choices in log entries 9 and 12. -/
def Obligations.AmplitudeConversionsAndSlices : Prop :=
  (∀ (s : State) (p : PortIx) (c : ChIx) (t : Inst) (n : Hit) (r : List Hit), (s.ch p c).later = [] → (s.ch p c).hits = n :: r →
    n.amp = .waiting → n.startEdge = none → n.rejected = false → n.startOk (s.mono t / 65536) = true →
    ((s.blk p (c.val / 16)).edge ≠ s.mono t / 65536 → (s.blk p (c.val / 16)).before (s.mono t / 65536) = s.blk p (c.val / 16) →
      (s.blk p (c.val / 16)).pick (s.mono t / 65536) = none →
      ∃ u m, exec (.adcConversionStart p c t) s = .next u ∧ (u.ch p c).hits = m :: r ∧ m.amp = .noSlice ∧
        m.startEdge = some (s.mono t / 65536) ∧ u = { s with tm := u.tm, chans := u.chans, blks := u.blks }) ∧
    (∀ k, (s.blk p (c.val / 16)).edge ≠ s.mono t / 65536 → (s.blk p (c.val / 16)).before (s.mono t / 65536) = s.blk p (c.val / 16) →
      (s.blk p (c.val / 16)).pick (s.mono t / 65536) = some k →
      ∃ u m, exec (.adcConversionStart p c t) s = .next u ∧ (u.ch p c).hits = m :: r ∧ m.amp = .converting k ∧
        m.startEdge = some (s.mono t / 65536) ∧ ((u.blk p (c.val / 16)).slice k).freeAt = s.mono t / 65536 + 500 ∧
        ((u.blk p (c.val / 16)).slice k).convs = ((s.blk p (c.val / 16)).slice k).convs ++ [⟨c.val, n.mono, s.mono t / 65536⟩] ∧
        u = { s with tm := u.tm, chans := u.chans, blks := u.blks }) ∧
    ((s.blk p (c.val / 16)).edge = s.mono t / 65536 →
      ∃ u, exec (.adcConversionStart p c t) s = .next u ∧
        (u.blk p (c.val / 16)).starters = startInsert (c.val, n.mono) (s.blk p (c.val / 16)).starters ∧
        u = { s with tm := u.tm, chans := u.chans, blks := u.blks })) ∧
  (∀ (s : State) (p : PortIx) (b : BlkIx) (k : SliceIx) (p8 p1 : Excursion) (v : Conv) (q : List Conv) (n : Hit) (r : List Hit),
    ((s.blk p b).slice k).convs = v :: q → v.handOver < (s.tm.tick + 1) * 4000 → (s.ch p v.ch).hits = n :: r → n.mono = v.hit →
    n.amp = .converting k.val → ∀ h8 h1 : Int, h8 = max n.hold8 (s.held p v.ch v.hit p8) → h1 = max n.hold1 (s.held p v.ch v.hit p1) →
    (∃ u m, exec (.adcResult p b k p8 p1 false) s = .next u ∧ (u.ch p v.ch).hits = m :: r ∧
      m.amp = .done (ampCode h8 h1).1 (decide (127500 < h8)) ∧ (ampCode h8 h1).1 ≤ 1023 ∧ ((u.blk p b).slice k).convs = q ∧
      u = { s with tm := u.tm, blks := u.blks, chans := u.chans }) ∧
    (∃ u m, exec (.adcResult p b k p8 p1 true) s = .next u ∧ (u.ch p v.ch).hits = m :: r ∧ m.amp = .parity ∧
      u.fget p (BLK_ADCSTAT_PERR b) = min (s.fget p (BLK_ADCSTAT_PERR b) + 1) 15 ∧ (u.blk p b).forcedSpare = some k.val ∧
      FeRegsSame s u [(p, BLK_ADCSTAT_PERR b)])) ∧
  (∀ (s : State) (p : PortIx) (b : BlkIx) (k : Fin 5), s.feFrame p % framesPerSec % 80 = 0 → (s.fe p).analogOn = true →
    (s.fe p).wakeCal = false → (s.blk p b).spare = some k.val → (s.blk p b).forcedSpare = none →
    (∀ j : Fin 5, ((s.blk p b).slice j).failed = false) →
    ∃ u, exec (.spareRotation p b) s = .next u ∧ (u.blk p b).spare = some ((k.val + 1) % 5) ∧
      u.fget p (BLK_ADCSTAT_SPARE b) = (k.val + 1) % 5 ∧ FeRegsSame s u [(p, BLK_ADCSTAT_SPARE b)]) ∧
  (∀ (s : State) (p : PortIx) (b : BlkIx) (k : SliceIx) (o g : Int), (s.blk p b).spare = some k.val → s.feMeasures p = true →
    (o.natAbs ≤ 16000 → g.natAbs ≤ 30000 → ∃ u, exec (.sliceCalibrationDone p b o g) s = .next u ∧
      ((u.blk p b).slice k).calibrated = true ∧ ((u.blk p b).slice k).offset = o ∧ ((u.blk p b).slice k).gain = g ∧ u.freg = s.freg) ∧
    (16000 < o.natAbs → ∃ u, exec (.sliceCalibrationDone p b o g) s = .next u ∧ ((u.blk p b).slice k).failed = true ∧
      u.fget p (BLK_ADCSTAT_FAIL b) = Nat.lor (s.fget p (BLK_ADCSTAT_FAIL b)) (2 ^ k.val))) ∧
  (∀ (s : State) (p : PortIx) (b : BlkIx) (k : SliceIx) (o g : Int), (s.fe p).wakeCal = true → ((s.blk p b).slice k).failed = false →
    (o.natAbs ≤ 16000 → g.natAbs ≤ 30000 → ∃ u, exec (.wakeSliceCalibration ⟨p, [(b, k, o, g)]⟩) s = .next u ∧
      (u.fe p).wakeCal = false ∧ ((u.blk p b).slice k).calibrated = true ∧ ((u.blk p b).slice k).offset = o ∧
      ((u.blk p b).slice k).gain = g ∧ u.freg = s.freg) ∧
    (16000 < o.natAbs → ∃ u, exec (.wakeSliceCalibration ⟨p, [(b, k, o, g)]⟩) s = .next u ∧ (u.fe p).wakeCal = false ∧
      ((u.blk p b).slice k).failed = true ∧ FeRegsSame s u [(p, BLK_ADCSTAT_FAIL b)])) ∧
  (∀ (s : State) (x : WakeCal), (s.fe x.fe).wakeCal = true →
    ∃ u, exec (.wakeSliceCalibration x) s = .next u ∧ (u.fe x.fe).wakeCal = false ∧ u = { s with fes := u.fes, blks := u.blks, freg := u.freg })

/-- The monitor (R123–R134): starts, conversions, excitation, the commit of a good measurement, void measurements and stale ports.
Rests in part on the model's readings and choices in log entries 8, 9, 14 and 25. -/
def Obligations.MonitorScansAndFaults : Prop :=
  (∀ (s : State) (p : PortIx), s.feLive p = true → s.fon p MON_CFG_TMR_EN = true → s.monPeriod p ≤ s.since (s.fe p).mon.timerAt →
    ∃ u, exec (.monScanTimer p) s = .next u ∧ (u.fe p).mon.startPending = true ∧ u = { s with fes := u.fes }) ∧
  (∀ (s : State) (p : PortIx) (j : Nat) (r : List Nat), s.feLive p = true → s.fon p MON_CFG_TP_EN = true → (s.fe p).mon.injAt = j :: r →
    j / 65536 + 1000 * s.fget p MON_TPDLY_DLY < (s.tm.tick + 1) * 4000 →
    (s.fe p).mon.askAt ≠ some ((j / 65536 + 1000 * s.fget p MON_TPDLY_DLY) / 4) →
    ((s.fe p).mon.running = false → ∃ u, exec (.monInjectionDelay p) s = .next u ∧ (u.fe p).mon.running = true ∧
      (u.fe p).mon.injAt = r ∧ u.fget p MON_STAT_BUSY = 1 ∧ (u.fe p).mon.tsFis = s.feFrame p % framesPerSec ∧
      FeRegsSame s u [(p, MON_STAT_BUSY), (p, MON_STAT_INPUT)]) ∧
    ((s.fe p).mon.running = true → ∃ u, exec (.monInjectionDelay p) s = .next u ∧ (u.fe p).mon.injAt = r ∧
      u.fget p MON_STAT_OVERRUN = min (s.fget p MON_STAT_OVERRUN + 1) 255 ∧ FeRegsSame s u [(p, MON_STAT_OVERRUN)])) ∧
  (∀ (s : State) (p : PortIx) (code : Int) (cm i : Nat) (r : List Nat), (s.fe p).mon.running = true → (s.fe p).mon.waiting = false →
    (s.fe p).mon.offsetDone = true → (s.fe p).mon.todo = i :: r → (s.fe p).mon.convEnd < (s.tm.tick + 1) * 4000 →
    ((s.fe p).mon.codesP.length < monCount (tget (s.fe p).mon.icfg i 0) → ∃ u, exec (.monConversion p code cm) s = .next u ∧
      (u.fe p).mon.codesP = (s.fe p).mon.codesP ++ [code] ∧
      (i ≤ 3 → (s.fe p).mon.void = 0 → (cm < s.fget p MON_CMWIN_LO ∨ s.fget p MON_CMWIN_HI < cm) → (u.fe p).mon.void = 2) ∧
      (3 < i → (u.fe p).mon.void = (s.fe p).mon.void) ∧ u = { s with tm := u.tm, fes := u.fes }) ∧
    (3 < i → (s.fe p).mon.codesP.length + 1 = monCount (tget (s.fe p).mon.icfg i 0) → ∃ u, exec (.monConversion p code cm) s = .next u ∧
      (u.fe p).mon.waiting = true ∧ (u.fe p).mon.commitAt = (s.fe p).mon.convEnd) ∧
    (i ≤ 3 → (s.fe p).mon.codesP.length = monCount (tget (s.fe p).mon.icfg i 0) →
      (s.fe p).mon.codesN.length + 1 = monCount (tget (s.fe p).mon.icfg i 0) → ∃ u, exec (.monConversion p code cm) s = .next u ∧
      (u.fe p).mon.waiting = true ∧ (u.fe p).mon.commitAt = (s.fe p).mon.convEnd + 20000)) ∧
  (∀ (s : State) (p : PortIx) (k : Fin 4) (r : List Nat), (s.fe p).mon.running = true → (s.fe p).mon.offsetDone = true →
    (s.fe p).mon.todo = k.val :: r → (s.fe p).mon.tripped = [] →
    ((s.fe p).mon.codesP = [] → (s.fe p).mon.excitation k =
      some ⟨if bitAt (tget (s.fe p).mon.rtdCfg k 0) 1 then 1000 else 100, bitAt (tget (s.fe p).mon.rtdCfg k 0) 0, false⟩) ∧
    (∃ u, exec (.complianceTrip p k) s = .next u ∧ (u.fe p).mon.void = 1 ∧ (u.fe p).mon.excitation k = none ∧
      u = { s with fes := u.fes })) ∧
  (∀ (s : State) (p : PortIx) (t : Inst) (i : Fin 25) (r : List Nat), (s.fe p).mon.todo = i.val :: r → (s.fe p).mon.waiting = true →
    (s.fe p).mon.commitAt * 65536 ≤ s.mono t →
    ((s.fe p).mon.void = 0 → ∃ u, exec (.monCommit p t) s = .next u ∧
      u.fget p (MON_RES_VALUE i) = monValue i (s.fe p).mon.codesP (s.fe p).mon.codesN % 65536 ∧ u.fget p (MON_RES_FRESH i) = 1 ∧
      u.fget p (MON_RES_FAULT i) = 0 ∧ (u.fe p).mon.todo = r ∧ (u.fe p).mon.waiting = false) ∧
    ((s.fe p).mon.void = 1 → i.val ≤ 3 → ∃ u, exec (.monCommit p t) s = .next u ∧
      u.fget p (MON_RES_VALUE i) = s.fget p (MON_RES_VALUE i) ∧ u.fget p (MON_RES_FAULT i) = 1 ∧
      u.fget p MON_FAULT_OPEN = Nat.lor (s.fget p MON_FAULT_OPEN) (2 ^ i.val) ∧
      u.fget p MON_FAULT_FLT_CNT = min (s.fget p MON_FAULT_FLT_CNT + 1) 65535)) ∧
  (∀ (s : State) (p : PortIx) (k : Fin 4), bitAt (tget (s.fe p).mon.rtdCfg k 0) 2 = true →
    tget (s.fe p).mon.lastCommit k 0 + 500000 ≤ s.tm.tick → bitAt (s.fget p MON_WLIVE_OUT) k = false →
    ∃ u, exec (.monStale p k) s = .next u ∧ u.fget p (MON_RES_FAULT k) = 4 ∧
      u.fget p MON_FAULT_STALE = Nat.lor (s.fget p MON_FAULT_STALE) (2 ^ k.val) ∧
      u.fget p MON_WLIVE_OUT = (s.fget p MON_WLIVE_OUT + 2 ^ k.val) % 2 ^ 25 ∧ (u.fe p).factsNow.notice = true)

/-! ### Dataflow of the front-end (R139–R165) -/

/-- From the final hit to the slot (R93, R141–R143, R146–R156): a final hit's record joins its region's records of its frame or is
dropped and counted; the sweep frees old entries; the header and the trailer go out on a port in RUN that is obeyed.
Rests in part on the model's readings and choices in log entries 31 and 107. -/
def Obligations.FinalHitsReachTheSlot : Prop :=
  (∀ (s : State) (p : PortIx) (c : ChIx) (t : Inst) (n : Hit) (r : List Hit) (code : Nat) (x1 : Bool),
    let x := s.half p n.hitTick (c.val / 128)
    (s.ch p c).hits = n :: r → n.final (s.ch p c) (s.mono t) = true → n.rejected = false → n.amp = .done code x1 →
    (s.fe p).flushTick ≠ some n.hitTick → x.admitted < 462 → s.tm.tick ≤ n.hitTick + 1 →
    (s.fe p).allocated n.hitTick = false →
    (s.fe p).occ (c.val / 128) (s.parityOf p n.hitTick) < 512 →
    ∃ u, exec (.hitFinal p c t) s = .next u ∧ (u.ch p c).hits = r ∧
      (u.half p n.hitTick (c.val / 128)).offered = x.offered + 1 ∧ (u.half p n.hitTick (c.val / 128)).admitted = x.admitted + 1 ∧
      (u.half p n.hitTick (c.val / 128)).entries =
        entryInsert ⟨n.record c, c.val / 16 % 8, c.val, (s.mono t + 262143) / 262144 + 8⟩ x.entries) ∧
  (∀ (s : State) (p : PortIx) (c : ChIx) (t : Inst) (n : Hit) (r : List Hit) (code : Nat) (x1 : Bool),
    let x := s.half p n.hitTick (c.val / 128)
    (s.ch p c).hits = n :: r → n.final (s.ch p c) (s.mono t) = true → n.rejected = false → n.amp = .done code x1 →
    (s.fe p).flushTick ≠ some n.hitTick → 462 ≤ x.admitted →
    ∃ u, exec (.hitFinal p c t) s = .next u ∧ (u.half p n.hitTick (c.val / 128)).offered = x.offered + 1 ∧
      (u.half p n.hitTick (c.val / 128)).entries = x.entries ∧
      u.fget p (RGN_DROP_BUD_CNT (c.val / 128)) = min (s.fget p (RGN_DROP_BUD_CNT (c.val / 128)) + 1) (2 ^ 32 - 1)) ∧
  (∀ (s : State) (p : PortIx), ∃ u, exec (.regionSweep p) s = .next u ∧
      (∀ e ∈ (u.fe p).halves, e ∈ (s.fe p).halves ∧ s.tm.tick < e.1 / 4 + 2) ∧
      (∀ e ∈ (s.fe p).halves, s.tm.tick < e.1 / 4 + 2 → e ∈ (u.fe p).halves) ∧ u = { s with fes := u.fes, freg := u.freg }) ∧
  (∀ (s : State) (p : PortIx) (q : FaceIx), s.lnk p q = 6 → s.lnk p (1 - q.val) = 0 → s.obeyed p q = true →
    (∃ u, exec (.recordTake p 0) s = .next u ∧ tget ((u.fe p).link q).slot 0 2 = s.header p q ∧
      ((u.fe p).link q).startSet = startBytes ((s.fe p).factsPrev.fis % 256) (s.fget p (LNK_VER_SEL q)) q true (s.fon p OWN_STAT_OVERLAP) 6 ∧
      ((u.fe p).link q).respSlot = (((s.fe p).link q).responses.take 5).map (·.1) ∧
      ((u.fe p).link q).responses = ((s.fe p).link q).responses.drop 5 ∧
      ((s.fe p).merger.begun = false ∨ (s.fe p).merger.tick ≠ s.tm.tick - 1 → (u.fe p).merger.gates = (s.fe p).factsPrev.gates) ∧
      (u.fe p).merger.tick = s.tm.tick - 1 ∧ (u.fe p).merger.begun = true) ∧
    (∀ k : Fin 464, (s.fe p).merger.tick = (s.fe p).slotTick → 0 < k.val → k.val ≤ (s.fe p).merger.gates.length → (s.fe p).merger.gates.length ≤ 4 →
      ∃ u, exec (.recordTake p k) s = .next u ∧
        tget ((u.fe p).link q).slot k 2 = (s.fe p).merger.gates.getD (k.val - 1) 2 ∧ u = { s with fes := u.fes }))

/-- The cutoff and the merger's choices (R147–R151): with no early fill and no record lost before the cutoff, the allocation gives every
region at least the lesser of its demand and its fair share, within the places of the slot; a choice takes the next region's
record, or is a fill. -/
def Obligations.AllocationGivesEveryRegionItsShare : Prop :=
  (∀ (s : State) (p : PortIx), (s.fe p).merger.begun = true → (s.fe p).merger.tick = s.tm.tick - 1 → (s.fe p).merger.alloc = none →
    (s.fe p).merger.gates.length ≤ 4 → (s.fe p).merger.next < 4 →
    (s.fe p).merger.chosenBefore ≤ 114 - (s.fe p).merger.gates.length →
    (∀ r < 4, (s.fe p).merger.sentOf r ≤ min (s.demand p r) (s.fe p).merger.fair) →
    (s.fe p).merger.sentOf 0 + (s.fe p).merger.sentOf 1 + (s.fe p).merger.sentOf 2 + (s.fe p).merger.sentOf 3 =
      (s.fe p).merger.chosenBefore →
    ∃ u a, exec (.cutoff p) s = .next u ∧ (u.fe p).merger.alloc = some a ∧
      (∀ r < 4, min (s.demand p r) (s.fe p).merger.fair ≤ a.getD r 0 ∧ a.getD r 0 ≤ s.demand p r) ∧
      a.getD 0 0 + a.getD 1 0 + a.getD 2 0 + a.getD 3 0 ≤ 462 - (s.fe p).merger.gates.length) ∧
  (∀ (s : State) (p : PortIx) (k : Fin 464) (r : Nat) (e : Entry), (s.fe p).merger.begun = true →
    (s.fe p).merger.tick = s.tm.tick - 1 → (s.fe p).merger.gates.length < k.val → k.val < 463 →
    (s.fe p).merger.next = r → r < 4 → s.servable p k r = true → (s.fe p).merger.alloc = none →
    (s.half p (s.fe p).merger.tick r).entries = [e] → e.blk < 8 →
    ∃ u, exec (.mergerChoice p k .ok false) s = .next u ∧ tget (u.fe p).merger.chosen k 2 = e.rec_ ∧
      (u.fe p).merger.sentOf r = (s.fe p).merger.sentOf r + 1 ∧ (u.half p (s.fe p).merger.tick r).entries = [] ∧
      (u.fe p).merger.next = (r + 1) % 4 ∧ u.fget p (RGN_SENT_CNT r) = (s.fget p (RGN_SENT_CNT r) + 1) % 2 ^ 64) ∧
  (∀ (s : State) (p : PortIx) (k : Fin 464), (s.fe p).merger.begun = true → (s.fe p).merger.tick = s.tm.tick - 1 →
    (s.fe p).merger.gates.length < k.val → k.val < 463 →
    (∀ r < 4, s.servable p k r = false) → (s.fe p).merger.next < 4 → (s.fe p).merger.alloc = none →
    ∃ u, exec (.mergerChoice p k .ok false) s = .next u ∧ (u.fe p).merger.fillsBefore = (s.fe p).merger.fillsBefore + 1 ∧
      (u.fe p).merger.chosenBefore = (s.fe p).merger.chosenBefore + 1 ∧ (u.fe p).merger.chosen = (s.fe p).merger.chosen ∧
      u = { s with fes := u.fes })

/-- Fast commands (R95, R99, R123, R156, R157, R176, R177, R195): obeyed from an obeyed port in RUN, counted from any other; an obeyed NOP
does nothing; a CLAIM below version 2.0 and a bad character are refused.
Rests in part on the model's readings and choices in log entry 26. -/
def Obligations.FastCommandsAreObeyedFromTheOwner : Prop :=
  (∀ (s : State) (p : PortIx) (q : FaceIx), exec (.nop p q 0) s = .next s) ∧
  (∀ (s : State) (p : PortIx) (q : FaceIx) (k : Fin 250), k.val ≠ 0 → s.feLive p = true → s.lnk p q = 6 → s.obeyed p q = true →
    (∃ u, exec (.nop p q k) s = .next u ∧ u = { s with tm := u.tm }) ∧
    (∃ u, exec (.gateOpen p q k) s = .next u ∧
      { tick := s.tm.tick + (16 * k.val + 48) / 4000, coarse := (16 * k.val + 48) % 4000, kind := 0, open_ := true, slot := k.val } ∈
        (u.fe p).gateCmds ∧ u = { s with tm := u.tm, fes := u.fes }) ∧
    (∃ u, exec (.gateClose p q k) s = .next u ∧
      { tick := s.tm.tick + (16 * k.val + 48) / 4000, coarse := (16 * k.val + 48) % 4000, kind := 0, open_ := false, slot := k.val } ∈
        (u.fe p).gateCmds ∧ u = { s with tm := u.tm, fes := u.fes }) ∧
    ((s.fe p).tpEn = true → (s.fe p).pulseAsk = false → (s.fe p).tpCoarse < 4000 → ∃ u, exec (.pulse p q k) s = .next u ∧
      (u.fe p).injects = (s.fe p).injects ++
        [⟨s.tm.tick + 1, (s.fe p).tpCoarse * 65536 + (s.fe p).tpFine * 128, (s.fe p).tpAmp⟩] ∧ (u.fe p).pulseAsk = true ∧
      u = { s with tm := u.tm, fes := u.fes }) ∧
    (s.fon p MON_CFG_CMD_EN = true → ∃ u, exec (.scan p q k) s = .next u ∧ (u.fe p).mon.startPending = true ∧
      u = { s with tm := u.tm, fes := u.fes }) ∧
    (∃ u, exec (.flush p q k) s = .next u ∧ (u.fe p).flushAsk = true ∧ u = { s with tm := u.tm, fes := u.fes }) ∧
    ((s.fe p).powerAsk = none → s.fon p DF_STAT_STANDBY = false → ∃ u, exec (.standby p q k) s = .next u ∧
      (u.fe p).powerAsk = some true ∧ u = { s with tm := u.tm, fes := u.fes }) ∧
    ((s.fe p).powerAsk = none → s.fon p DF_STAT_STANDBY = true → ∃ u, exec (.wake p q k) s = .next u ∧
      (u.fe p).powerAsk = some false ∧ u = { s with tm := u.tm, fes := u.fes }) ∧
    (s.fget p (LNK_VER_SEL q) = 2 → ∃ u, exec (.claim p q k) s = .next u ∧ ((u.fe p).link q).claimCmd = true ∧
      u = { s with tm := u.tm, fes := u.fes })) ∧
  (∀ (s : State) (p : PortIx) (q : FaceIx) (k : Fin 250), k.val ≠ 0 → s.feLive p = true → s.obeyed p q = false →
    (∃ u, exec (.flush p q k) s = .next u ∧
      u.fget p OWN_STAT_NONOWNER_FC = min (s.fget p OWN_STAT_NONOWNER_FC + 1) (2 ^ OWN_STAT_NONOWNER_FC.width - 1) ∧
      FeRegsSame s u [(p.val, OWN_STAT_NONOWNER_FC)] ∧ u = { s with freg := u.freg }) ∧
    (∃ u, exec (.nop p q k) s = .next u ∧
      u.fget p OWN_STAT_NONOWNER_FC = min (s.fget p OWN_STAT_NONOWNER_FC + 1) (2 ^ OWN_STAT_NONOWNER_FC.width - 1) ∧
      FeRegsSame s u [(p.val, OWN_STAT_NONOWNER_FC)] ∧ u = { s with freg := u.freg })) ∧
  (∀ (s : State) (p : PortIx) (q : FaceIx) (x : FcChar), s.feLive p = true → x.slot.val ≠ 0 →
    (fcCode x.plus x.grp.toNat = none → ∃ u, exec (.fastCommandInvalid p q x) s = .next u ∧
      u.fget p (LNK_ERR_FC q) = min (s.fget p (LNK_ERR_FC q) + 1) (2 ^ (LNK_ERR_FC q).width - 1) ∧
      (u.fe p).factsNow.linkAlarm = true ∧
      (groupSym x.plus x.grp.toNat = none →
        u.fget p (LNK_ERR_CODE q) = min (s.fget p (LNK_ERR_CODE q) + 1) (2 ^ (LNK_ERR_CODE q).width - 1)) ∧
      FeRegsSame s u [(p.val, LNK_ERR_FC q), (p.val, LNK_ERR_CODE q)]) ∧
    (∀ c, fcCode x.plus x.grp.toNat = some c → 9 ≤ c → ∃ u, exec (.fastCommandInvalid p q x) s = .next u ∧
      u.fget p (LNK_ERR_FC q) = min (s.fget p (LNK_ERR_FC q) + 1) (2 ^ (LNK_ERR_FC q).width - 1) ∧
      (u.fe p).factsNow.linkAlarm = true ∧ FeRegsSame s u [(p.val, LNK_ERR_FC q)]) ∧
    (fcCode x.plus x.grp.toNat = some 5 → s.lnk p q = 6 → s.obeyed p q = true →
      ∃ u, exec (.fastCommandInvalid p q x) s = .next u ∧ (u.fe p).flushAsk = true ∧ u = { s with tm := u.tm, fes := u.fes })) ∧
  (∀ (plus : Bool) (c : Fin 16), fcCode plus (symGroup plus (fcSym c)) = some c.val)

/-- What takes effect at a front-end's tick, and the scrubber (R120, R156–R162): FLUSH discards the frame that ended, the last STANDBY
or WAKE decides the state, full precision returns 27 ticks after a WAKE, and a pass of the scrubber ends with its CRC.
Rests in part on the model's readings and choices in log entries 14 and 88. -/
def Obligations.PowerFlushAndScrubbing : Prop :=
  (∀ (s : State) (p : PortIx), (s.fe p).flushAsk = true → ∃ u, exec (.flushEffect p) s = .next u ∧ (u.fe p).flushAsk = false ∧
    (u.fe p).flushTick = some (s.tm.tick - 1) ∧ (u.fe p).factsPrev.flushed = true ∧
    (∀ r : RgnIx, (u.half p (s.tm.tick - 1) r).entries = [] ∧ u.fget p (RGN_STAT_FLUSHED r) = 1 ∧
      u.fget p (RGN_DROP_FLUSH_CNT r) =
        min (s.fget p (RGN_DROP_FLUSH_CNT r) + (s.half p (s.tm.tick - 1) r).entries.length) (2 ^ 32 - 1))) ∧
  (∀ (s : State) (p : PortIx), (s.fe p).thermalHold = false →
    ((s.fe p).powerAsk = some true → s.fon p DF_STAT_STANDBY = false → ∃ u, exec (.fePowerChange p) s = .next u ∧
      u.fget p DF_STAT_STANDBY = 1 ∧ (u.fe p).factsNow.waking = true ∧ (u.fe p).powerAsk = none ∧
      FeRegsSame s u [(p.val, DF_STAT_STANDBY)]) ∧
    ((s.fe p).powerAsk = some false → s.fon p DF_STAT_STANDBY = true → ∃ u, exec (.fePowerChange p) s = .next u ∧
      u.fget p DF_STAT_STANDBY = 0 ∧ u.fget p DF_STAT_WAKING = 1 ∧ (u.fe p).wakeTick = some s.tm.tick ∧ (u.fe p).analogOn = true ∧
      (u.fe p).wakeCal = true ∧ FeRegsSame s u [(p.val, DF_STAT_STANDBY), (p.val, DF_STAT_WAKING)])) ∧
  (∀ (s : State) (p : PortIx), s.fon p DF_STAT_STANDBY = true → ∃ u, exec (.standbyPowerDown p) s = .next u ∧
    (u.fe p).analogOn = false ∧ u = { s with fes := u.fes }) ∧
  (∀ (s : State) (p : PortIx), s.fon p DF_STAT_WAKING = true → (s.fe p).wakeFrom + 27 ≤ s.tm.tick →
    ∃ u, exec (.wakingEnd p) s = .next u ∧ u.fget p DF_STAT_WAKING = 0 ∧ FeRegsSame s u [(p.val, DF_STAT_WAKING)]) ∧
  (∀ (s z : State) (p : PortIx) (x : Upsets), z = s.takeUpsets p x →
    ((z.fe p).scrubPos = 4095 → (s.fe p).scrubPos = 4095 →
      ∃ u, exec (.scrubVisit p x) s = .next u ∧
      u.fget p CFG_CRC_CRC = Nat.xor (crc32cAux (z.fe p).scrubCrc (leBytes 4 (z.feCfgWord p 4095))) 0xFFFFFFFF % 2 ^ 32 ∧
      u.fget p SCRUB_STAT_DIRTY = b2n (z.fe p).scrubDirty ∧ u.fget p SCRUB_STAT_PASS = (z.fget p SCRUB_STAT_PASS + 1) % 128 ∧
      (u.fe p).scrubPos = 0) ∧
    (∀ w, (s.fe p).scrubPos = w → w < 4095 → ∃ u, exec (.scrubVisit p x) s = .next u ∧ (u.fe p).scrubPos = w + 1 ∧
      (u.fe p).scrubCrc = crc32cAux (z.fe p).scrubCrc (leBytes 4 (z.feCfgWord p w)) ∧
      (z.fon p SCRUB_CTRL_EN = true → 0 < (z.healCopies p w).1 →
        u.fget p SCRUB_STAT_CORR = min (z.fget p SCRUB_STAT_CORR + (z.healCopies p w).1) 65535) ∧
      (z.fon p SCRUB_CTRL_EN = false → u.fget p SCRUB_STAT_CORR = z.fget p SCRUB_STAT_CORR))) ∧
  (∀ (s : State) (p : PortIx), (s.fe p).scrubPos < 4095 → (s.fe p).copies = [] →
    (∀ l : Nat, 0 < l → ∃ u, exec (.scrubVisit p ⟨[], l⟩) s = .next u ∧
      u.fget p SCRUB_STAT_LOGIC = min (s.fget p SCRUB_STAT_LOGIC + l) (2 ^ SCRUB_STAT_LOGIC.width - 1) ∧
      (u.fe p).factsNow.cfgUpset = true ∧ FeRegsSame s u [(p.val, SCRUB_STAT_LOGIC)]) ∧
    (∀ (w : BitVec 12) (b : Fin 32) (c : Fin 3), bitAt (feCfgMask w.toNat) b = true → w.toNat ≠ (s.fe p).scrubPos →
      ∃ u, exec (.scrubVisit p ⟨[(w, b, c)], 0⟩) s = .next u ∧ tget (u.fe p).copies (w.toNat * 32 + b) 0 = c.val + 1 ∧
        u.freg = s.freg) ∧
    (∀ (b : Fin 32) (c : Fin 3), bitAt (feCfgMask (s.fe p).scrubPos) b = true → s.fon p SCRUB_CTRL_EN = true →
      ∃ u, exec (.scrubVisit p ⟨[(BitVec.ofNat 12 (s.fe p).scrubPos, b, c)], 0⟩) s = .next u ∧ (u.fe p).copies = [] ∧
        u.fget p SCRUB_STAT_CORR = min (s.fget p SCRUB_STAT_CORR + 1) 65535 ∧ (u.fe p).factsNow.cfgUpset = true ∧
        FeRegsSame s u [(p.val, SCRUB_STAT_CORR)]))

/-! ### The Ryunt link (R166–R200) -/

/-- Request packets (R169, R178–R180, R188): the conditions of R179's table are tested in its order; each answer joins the port's
queue; a posted write is answered only when it fails; an uncorrectable codeword does nothing but count.
Rests in part on the model's readings and choices in log entries 29, 30 and 89. -/
def Obligations.RequestsAreAnsweredInTableOrder : Prop :=
  (∀ (s : State) (p : PortIx) (q : FaceIx) (r : ReqPkt), s.feLive p = true →
    let old := ((s.fe p).link q).responses
    (r.addr.toNat ≤ 0x0FFF → unknownWord r.addr.toNat = false →
      (∃ u, exec (.readRequest p q r) s = .next u ∧ ((u.fe p).link q).responses = old ++
        [({ typ := 8, code := 0, tid := r.tid, addr := r.addr, data := BitVec.ofNat 32 (s.feRead p q r.addr.toNat).1 }, false)]) ∧
      (s.writesObeyed p q = true ∨ ownWord q r.addr.toNat = true →
        (∃ u, exec (.writeRequest p q r) s = .next u ∧ ((u.fe p).link q).responses =
            (((s.feWrite p r.addr.toNat s.nowInst r.data.toNat).fe p).link q).responses ++
              [({ typ := 9, code := 0, tid := r.tid, addr := r.addr, data := 0 }, false)] ∧
          u.freg = (s.feWrite p r.addr.toNat s.nowInst r.data.toNat).freg) ∧
        (exec (.postedWriteRequest p q r) s = .next (s.feWrite p r.addr.toNat s.nowInst r.data.toNat))) ∧
      (s.writesObeyed p q = false → ownWord q r.addr.toNat = false →
        ∃ u, exec (.writeRequest p q r) s = .next u ∧ ((u.fe p).link q).responses = old ++
            [({ typ := 0xA, code := 4, tid := r.tid, addr := r.addr, data := 0 }, false)] ∧
          FeRegsSame s u [(p.val, LNK_SC_ERR_RESP q)])) ∧
    (0x0FFF < r.addr.toNat → ∃ u, exec (.readRequest p q r) s = .next u ∧ ((u.fe p).link q).responses = old ++
        [({ typ := 0xA, code := 2, tid := r.tid, addr := r.addr, data := 0 }, false)] ∧
      u.fget p (LNK_SC_ERR_RESP q) = min (s.fget p (LNK_SC_ERR_RESP q) + 1) 255 ∧ FeRegsSame s u [(p.val, LNK_SC_ERR_RESP q)]) ∧
    (unknownWord r.addr.toNat = true → ∃ u, exec (.readRequest p q r) s = .next u ∧ ((u.fe p).link q).responses = old ++
        [({ typ := 0xA, code := 1, tid := r.tid, addr := r.addr, data := 0 }, false)])) ∧
  (∀ (s : State) (p : PortIx) (q : FaceIx) (t : Inst) (x : CodeRun), s.feLive p = true →
    ((reqRead x).2.1 = .uncorrectable → ∃ u, exec (.requestCodeword p q t x none) s = .next u ∧
      u.fget p (LNK_SC_RS_UNC q) = min (s.fget p (LNK_SC_RS_UNC q) + 1) 255 ∧ (u.fe p).factsNow.linkAlarm = true ∧
      u.fget p (LNK_ERR_CODE q) = min (s.fget p (LNK_ERR_CODE q) + (reqRead x).1) 65535 ∧
      ((u.fe p).link q).responses = ((s.fe p).link q).responses ∧
      FeRegsSame s u [(p.val, LNK_SC_RS_UNC q), (p.val, LNK_ERR_CODE q)]) ∧
    ((reqRead x).2.1 = .corrected → (∀ r ∈ (reqRead x).2.2, r.typ = 0) → ∃ u, exec (.requestCodeword p q t x none) s = .next u ∧
      u.fget p (LNK_SC_RS_CORR q) = min (s.fget p (LNK_SC_RS_CORR q) + 1) 255 ∧
      ((u.fe p).link q).responses = ((s.fe p).link q).responses ∧
      FeRegsSame s u [(p.val, LNK_SC_RS_CORR q), (p.val, LNK_ERR_CODE q)]) ∧
    (∀ (r : ReqPkt) (l : List ReqPkt), reqRead x = (0, .ok, r :: l) → (∀ y ∈ l, y.typ = 0) →
      exec (.requestCodeword p q t x none) s = .next (s.feRequestAt p q r (t / 262144 * 262144)))) ∧
  (∀ (c d : Nat) (r y : ReqPkt), mergeDue 2 [(c, 1, r)] [(c, 0, y)] = [(c, 0, y), (c, 1, r)] ∧
    (c < d → mergeDue 2 [(c, 1, r)] [(d, 0, y)] = [(c, 1, r), (d, 0, y)]))

/-- Writes and reads with an effect of their own (R70–R72, R98, R106, R115, R193, R194): a channel is armed from 32 ns after the fc
cycle that follows its enabling and up to the cycle that follows its disabling; the gate's mode, a returned slice, the channel
counters, the pattern test and the injection. -/
def Obligations.WritesWithAnEffectOfTheirOwn : Prop :=
  (∀ (s : State) (p : PortIx) (q : FaceIx) (c : ChIx) (t : Inst) (v : W32), s.feLive p = true → s.writesObeyed p q = true →
    (s.fon p (CH_CFG_EN c) = false → bitAt v.toNat 0 = true →
      ∃ u, exec (.channelEnable p q c t v) s = .next u ∧ u.fon p (CH_CFG_EN c) = true ∧
        (u.ch p c).armedFrom = some (s.tm.tick * 4000 + (t / 65536 / 4 + 1) * 4 + 32) ∧ (u.ch p c).armedTo = none ∧
        (u.ch p c).orphanNext = true ∧ (u.ch p c).hits = (s.ch p c).hits) ∧
    (s.fon p (CH_CFG_EN c) = true → bitAt v.toNat 0 = false →
      ∃ u, exec (.channelDisable p q c t v) s = .next u ∧ u.fon p (CH_CFG_EN c) = false ∧
        (u.ch p c).armedTo = some (s.tm.tick * 4000 + (t / 65536 / 4 + 1) * 4) ∧ (u.ch p c).hits = (s.ch p c).hits)) ∧
  (∀ (s : State) (p : PortIx) (q : FaceIx) (t : Inst) (v : W32), s.feLive p = true → s.writesObeyed p q = true →
    (s.fe p).gateCmds = [] →
    ∃ u, exec (.gateModeWrite p q t v) s = .next u ∧ u.fget p GATE_CFG_MODE = bits v.toNat 0 2 ∧
      (u.fe p).gateCmds = [⟨s.tm.tick + (t / 65536 / 4 + 1) * 4 / 4000, (t / 65536 / 4 + 1) * 4 % 4000, 2, false, 0xFE, 0⟩] ∧
      u.fon p GATE_STAT_OPEN = s.fon p GATE_STAT_OPEN) ∧
  (∀ (s : State) (p : PortIx) (q : FaceIx) (b : BlkIx) (k : SliceIx) (v : W32), s.feLive p = true → s.writesObeyed p q = true →
    bitAt (s.fget p (BLK_ADCSTAT_FAIL b)) k = true → bitAt v.toNat (3 + k.val) = true →
    ∃ u, exec (.sliceReturn p q b v) s = .next u ∧ ((u.blk p b).slice k).failed = false ∧ ((u.blk p b).slice k).calibrated = false ∧
      bitAt (u.fget p (BLK_ADCSTAT_FAIL b)) k = false) ∧
  (∀ (s : State) (p : PortIx) (q : FaceIx) (c : ChIx), s.feLive p = true → s.fget p CHCNT_SEL_CH = c.val → s.fget p CHCNT_SEL_IDX = 1 →
    ∃ u, exec (.chcntDataRead p q) s = .next u ∧ (u.ch p c).pileup = 0 ∧
      ((u.fe p).link q).responses = ((s.fe p).link q).responses ++ [(⟨8, 0, 0, 0x821, BitVec.ofNat 32 (s.ch p c).pileup⟩, false)] ∧
      (u.ch p c).orphan = (s.ch p c).orphan ∧ u = { s with chans := u.chans, fes := u.fes }) ∧
  (∀ (s : State) (p : PortIx) (q : FaceIx) (v : W32), s.feLive p = true →
    (bitAt v.toNat 2 = true → ∃ u, exec (.prbsStart p q v) s = .next u ∧ ((u.fe p).link q).prbsArmed = true ∧
      u.fget p (PRBS_CTRL_PAT q) = bits v.toNat 0 2 ∧ u.fget p (PRBS_CTRL_DUR q) = bits v.toNat 3 16) ∧
    (bitAt v.toNat 0 = true → bitAt v.toNat 7 = true → bitAt v.toNat 1 = true →
      ∃ u, exec (.prbsInject p q v) s = .next u ∧ ((u.fe p).link q).injectNext = some (bits v.toNat 2 5 + 1)))

/-- SYNC sets, the receive clock and claims at the front-end (R172, R182, R185–R187, R192, R195).
Rests in part on the model's readings and choices in log entries 27, 32 and 92. -/
def Obligations.SyncSetsKeepTheFrontEndInStep : Prop :=
  (∀ (s : State) (p : PortIx) (q : FaceIx) (x : SyncSet), s.feLive p = true →
    (syncInfo x = none → 2 ≤ s.lnk p q → s.lnk p q ≠ 7 →
      ∃ u, exec (.syncSet p q x) s = .next u ∧ u.fget p (LNK_ERR_SYNC q) = min (s.fget p (LNK_ERR_SYNC q) + 1) 255 ∧
        u.fget p (LNK_ERR_CODE q) = min (s.fget p (LNK_ERR_CODE q) + syncErrs x) 65535 ∧
        (u.fe p).factsNow.linkAlarm = true ∧ (u.fe p).sec = (s.fe p).sec ∧ (u.fe p).fis = (s.fe p).fis ∧
        (((s.fe p).link q).badRun = 3 → u.lnk p q = 1 ∧ u.fget p (LNK_STAT_DOWNS q) = min (s.fget p (LNK_STAT_DOWNS q) + 1) 255) ∧
        (((s.fe p).link q).badRun < 3 → u.lnk p q = s.lnk p q)) ∧
    (∀ i, syncInfo x = some i → i.lrst = true → s.lnk p q ≠ 7 →
      ∃ u, exec (.syncSet p q x) s = .next u ∧ u.lnk p q = 0 ∧ u.fget p (LNK_STAT_CLAIM q) = 0 ∧ u.fget p (LNK_EQ_FOUND q) = 0 ∧
        ((u.fe p).link q).uplinkOn = false ∧ ((u.fe p).link q).lrstTimer = true) ∧
    (∀ i, syncInfo x = some i → i.lrst = false → i.load = true → s.lnk p q = 6 → 2 ≤ i.state → i.state ≠ 7 →
      s.fget p (LNK_VER_SEL q) = 2 → ((s.fe p).link q).claimCmd = true →
      ∃ u, exec (.syncSet p q x) s = .next u ∧ (u.fe p).sec = i.sec ∧ (u.fe p).fis = i.fis ∧
        (u.fe p).atTick = s.tm.tick + 1 ∧ u.fget p (LNK_TIME_LOADS q) = min (s.fget p (LNK_TIME_LOADS q) + 1) 255 ∧
        u.lnk p q = i.state ∧ u.fget p (LNK_STAT_CLAIM q) = i.claim) ∧
    (∀ i, syncInfo x = some i → i.lrst = false → i.load = false → s.lnk p q = 6 →
      (s.feFrame p + 1) % (65536 * framesPerSec) ≠ i.sec * framesPerSec + i.fis →
      ∃ u, exec (.syncSet p q x) s = .next u ∧ u.fget p (LNK_TIME_MISMATCH q) = min (s.fget p (LNK_TIME_MISMATCH q) + 1) 255 ∧
        (((s.fe p).link q).mismatchRun = 0 → (u.fe p).sec = (s.fe p).sec ∧ (u.fe p).fis = (s.fe p).fis) ∧
        (1 ≤ ((s.fe p).link q).mismatchRun → (u.fe p).sec = i.sec ∧ (u.fe p).fis = i.fis ∧
          u.fget p (LNK_TIME_FORCED q) = min (s.fget p (LNK_TIME_FORCED q) + 1) 255)) ∧
    (s.lnk p q ≠ 7 → ∃ u, exec (.syncSet p q x) s = .next u ∧ ((u.fe p).link q).ph = roundDivI x.ph 16 * 16)) ∧
  (∀ (s : State) (p : PortIx) (q : FaceIx), ((s.fe p).link q).lrstTimer = true → ((s.fe p).link q).clockLocked = true →
    ∃ u, exec (.linkResetEnd p q) s = .next u ∧ ((u.fe p).link q).uplinkOn = true ∧ u.lnk p q = 1 ∧
      FeRegsSame s u [(p.val, LNK_STAT_STATE q)]) ∧
  (∀ (s : State) (p : PortIx) (q : FaceIx) (k : BitVec 3), s.feLive p = true → s.lnk p q = 0 → ((s.fe p).link q).lrstTimer = false →
    ∃ u, exec (.downlinkClockLock p q k) s = .next u ∧ u.lnk p q = 1 ∧ ((u.fe p).link q).clockLocked = true ∧
      u.fget p (LNK_EQ_FOUND q) = (if s.fon p (LNK_EQ_AUTO q) then k.toNat else s.fget p (LNK_EQ_STEP q)) ∧
      FeRegsSame s u [(p.val, LNK_STAT_STATE q), (p.val, LNK_EQ_FOUND q)]) ∧
  (∀ (s : State) (p : PortIx) (q : FaceIx), s.feLive p = true → s.lnk p q ≠ 0 →
    ∃ u, exec (.downlinkClockLoss p q) s = .next u ∧ u.lnk p q = 0 ∧ ((u.fe p).link q).clockLocked = false ∧
      u.fget p (LNK_STAT_DOWNS q) = min (s.fget p (LNK_STAT_DOWNS q) + 1) 255 ∧
      FeRegsSame s u [(p.val, LNK_STAT_STATE q), (p.val, LNK_STAT_DOWNS q), (p.val, PRBS_STAT_RUNNING q)])

/-- Link-up at the port (R182–R185, R188, R192): each state leads to the next on its condition, and falls back at its timeout.
Rests in part on the model's readings and choices in log entries 14, 28 and 93. -/
def Obligations.LinkUpGoesThroughItsStates : Prop :=
  (∀ (s : State) (p : PortIx), s.plState p = 0 → s.con (PL_CTRL_EN p) = true → s.con (PL_STAT_GIVEN_UP p) = false →
    ∃ u, exec (.uplinkSignalDetect p) s = .next u ∧ u.plState p = 1 ∧ (u.port p).eqStep = 0 ∧
      u.cget (PL_EQ_FOUND p) = (if s.con (PL_EQ_AUTO p) then 0 else s.cget (PL_EQ_STEP p))) ∧
  (∀ (s : State) (p : PortIx), s.plState p = 1 →
    (∃ u, exec (.lockAchieved p) s = .next u ∧ u.plState p = 2 ∧ RegsSame s u [PL_STAT_STATE p]) ∧
    (∀ n, s.con (PL_EQ_AUTO p) = true → (s.port p).eqStep < 15 → ∃ u, exec (.equaliserStep p false n) s = .next u ∧
      (u.port p).eqStep = (s.port p).eqStep + 1 ∧ tget (u.port p).eqErrs (s.port p).eqStep 0 = n ∧
      u.cget (PL_EQ_FOUND p) = (s.port p).eqStep + 1 ∧ RegsSame s u [PL_EQ_FOUND p]) ∧
    (∀ n, s.con (PL_EQ_AUTO p) = true → (s.port p).eqStep = 15 → ∃ u, exec (.equaliserStep p false n) s = .next u ∧
      u.cget (PL_EQ_FOUND p) = chooseStep (fun j => tget (tset (s.port p).eqErrs 15 0 n) j 0) % 16)) ∧
  (∀ (s : State) (p : PortIx), s.plState p = 2 → 4 ≤ (s.port p).goodSlots →
    ((s.port p).testFrom = none → ∃ u, exec (.alignAchieved p) s = .next u ∧ u.plState p = 3 ∧ RegsSame s u [PL_STAT_STATE p]) ∧
    ((s.port p).testFrom = some 6 → ∃ u, exec (.alignAchieved p) s = .next u ∧ u.plState p = 6 ∧ (u.port p).testFrom = none)) ∧
  (∀ (s : State) (p : PortIx) (id : W32) (sup : BitVec 3), s.plState p = 3 → (s.port p).ownReads.lookup 0x000 = some id.toNat →
    ((s.port p).ownReads.lookup (0x020 + 16 * s.face p)).map (bits · 0 3) = some sup.toNat →
    (∀ v, bestVersion (Nat.land sup.toNat (s.cget (PL_CTRL_VER_MASK p))) = some v → (s.face p = 0 ∨ v = 2) →
      (s.port p).negSel = some v → 4 ≤ (s.port p).verRun →
      ∃ u, exec (.negotiateDone p id sup) s = .next u ∧ u.plState p = 4 ∧ u.cget (PL_STAT_VER p) = v ∧
        u.cget (PL_STAT_FE_REV p) = id.toNat % 16 ∧ u.con (TIM_PSTAT_FROZEN p) = decide (v = 0)) ∧
    (bestVersion (Nat.land sup.toNat (s.cget (PL_CTRL_VER_MASK p))) = none →
      ∃ u, exec (.negotiateDone p id sup) s = .next u ∧ u.plState p = 0 ∧ u.con (PL_STAT_GIVEN_UP p) = true ∧
        u.cget (PL_STAT_REASON p) = 2)) ∧
  (∀ (s : State) (p : PortIx) (a : Int), s.plState p = 4 → (s.port p).phaseFirst = some a → 16 ≤ (s.port p).rttN →
    ((s.port p).rttSum - a * (s.port p).rttN).natAbs * 1000 ≤ 40 * 65536 * (s.port p).rttN → s.twinStandby = false →
    ∃ u, exec (.phaseVerify p) s = .next u ∧ u.plState p = 5 ∧ (u.port p).posted ≠ []) ∧
  (∀ (s : State) (p : PortIx) (crc : W32), s.plState p = 5 → s.twinStandby = false → s.pushPassed p = true →
    (crc.toNat = s.goldCrc p → ∃ u, exec (.configCrcCheck p false crc) s = .next u ∧ u.plState p = 6 ∧ u.con (PL_GOLD_MATCH p) = true ∧
      u.con (PL_STAT_GIVEN_UP p) = false ∧ u.cget (PL_UP_UPS p) = min (s.cget (PL_UP_UPS p) + 1) 65535 ∧ (u.port p).failRun = 0) ∧
    (crc.toNat ≠ s.goldCrc p → (s.port p).pushes = 0 → ∃ u, exec (.configCrcCheck p false crc) s = .next u ∧ u.plState p = 5 ∧
      (u.port p).pushes = 1 ∧ u.con (PL_GOLD_MATCH p) = false)) ∧
  (∀ (s : State) (p : PortIx), s.plState p = 3 → 500 ≤ s.since (s.port p).stateTick → (s.port p).failState ≠ 3 →
    1 < s.cget (PLR_CFG_RETRIES (p.val / 256)) → ∃ u, exec (.linkStateTimeout p) s = .next u ∧ u.plState p = 2 ∧
      u.cget (PL_STAT_REASON p) = 1 ∧ u.cget (PL_UP_FALLS p) = min (s.cget (PL_UP_FALLS p) + 1) 65535 ∧ (u.port p).failRun = 1) ∧
  (∀ (s : State) (p : PortIx), s.plState p ≠ 0 → ∃ u, exec (.uplinkSignalLoss p) s = .next u ∧ u.plState p = 0 ∧
      u.cget (PL_STAT_REASON p) = 6 ∧ u.cget (PL_UP_FALLS p) = min (s.cget (PL_UP_FALLS p) + 1) 65535)

/-- What the port takes from slots and echoes (R47–R51, R173, R182, R185, R190): slot-start sets, round trips, the average with its
target, and the suspect mark.
Rests in part on the model's readings and choices in log entries 9, 11, 81 and 91. -/
def Obligations.SlotsAndEchoesAreMeasured : Prop :=
  (∀ (s : State) (p : PortIx) (placed plus : Bool) (cs : List (BitVec 10)) (a : Int), 2 ≤ s.plState p → s.plState p < 7 →
    (∀ (x : List (Option Sym)) (b : List Byte), placed = true → lineSyms plus cs = some k285 :: x → bytesOf x = some b →
      goodSet 3 b = true →
      ∃ u, exec (.slotStartSet p placed plus cs a) s = .next u ∧ (u.port p).goodSlots = (s.port p).goodSlots + 1 ∧
        (u.port p).badSlots = 0 ∧ (u.port p).arr = some (s.tm.tick, a) ∧ u.con (PL_STAT_OWNER p) = bitAt (bodyNat b 1 1) 3 ∧
        u.con (PL_STAT_OVERLAP p) = bitAt (bodyNat b 1 1) 4 ∧ RegsSame s u [PL_STAT_OWNER p, PL_STAT_OVERLAP p]) ∧
    (placed = false ∨ (∀ b, bytesOf ((lineSyms plus cs).drop 1) = some b → goodSet 3 b = false) →
      ∃ u, exec (.slotStartSet p placed plus cs a) s = .next u ∧
        u.cget (PL_ERR_CODE p) = min (s.cget (PL_ERR_CODE p) + codeErrors (lineSyms plus cs)) (2 ^ (PL_ERR_CODE p).width - 1) ∧
        (s.plState p = 6 → (s.port p).badSlots = 3 → u.plState p = 1) ∧
        ((s.port p).badSlots < 3 → u.plState p = s.plState p ∧ (u.port p).badSlots = (s.port p).badSlots + 1 ∧
          (u.port p).goodSlots = 0))) ∧
  (∀ (s : State) (p : PortIx) (plus : Bool) (mark fis phLo phHi : BitVec 10) (e : EchoTail) (x : List (Option Sym)) (b : List Byte)
      (a : Int), lineSyms plus [mark, fis, phLo, phHi, e.status, e.crc] = some k283 :: x → bytesOf x = some b → goodSet 5 b = true →
    (s.port p).arr = some (s.tm.tick, a) → bodyNat b 0 1 = s.tm.now.fis % 256 → 4 ≤ s.plState p → s.plState p ≤ 6 →
    (bitAt (bodyNat b 3 1) 0 = true → ∃ u, exec (.echoSet p plus mark fis phLo phHi e) s = .next u ∧
      (u.port p).rttSum = (s.port p).rttSum + s.roundTrip p a (toSigned 16 (bodyNat b 1 2)) ∧
      (u.port p).rttN = (s.port p).rttN + 1 ∧ RegsSame s u [] ∧ u = { s with ports := u.ports, creg := u.creg }) ∧
    (bitAt (bodyNat b 3 1) 0 = false → ∃ u, exec (.echoSet p plus mark fis phLo phHi e) s = .next u ∧
      RegsSame s u [] ∧ u = { s with creg := u.creg })) ∧
  (∀ (s : State) (p : PortIx), s.plState p = 6 → s.con (TIM_PSTAT_FROZEN p) = false → 64 ≤ (s.port p).rttN →
    let avg := roundHalf 110 (s.port p).rttSum (s.port p).rttN
    let d := roundHalf 111 avg 2 + toSigned 16 (s.cget (TIM_PASYM_ASYM p))
    0 ≤ d → d ≤ 500 * 65536 →
    ∃ u, exec (.echoAverage p) s = .next u ∧ (u.port p).target = d ∧ (u.port p).applied = (s.port p).applied ∧
      u.cget (TIM_PDLY_D p) = d.toNat ∧ u.cget (TIM_PRTT_RTT p) = ofSigned 32 avg ∧ (u.port p).rttN = 0 ∧
      ((s.port p).avgValid = true → 40 * 65536 < (avg - (s.port p).rttAvg).natAbs * 1000 →
        u.con (TIM_PSTAT_JUMP p) = true ∧ u.cget (TIM_PSTAT_JUMP_CNT p) = min (s.cget (TIM_PSTAT_JUMP_CNT p) + 1) 255)) ∧
  (∀ (s : State) (p : PortIx), 256 ≤ (s.port p).farRun → ∃ u, exec (.suspect p) s = .next u ∧ u.con (TIM_PSTAT_SUSPECT p) = true ∧
    u.con (TIM_PSTAT_SUSPECT_SEEN p) = true ∧ u.tm = s.tm ∧ u.ports = s.ports) ∧
  (∀ (s : State) (p : PortIx), 256 ≤ (s.port p).nearRun → ∃ u, exec (.suspectClear p) s = .next u ∧ u.con (TIM_PSTAT_SUSPECT p) = false ∧
    RegsSame s u [TIM_PSTAT_SUSPECT p] ∧ u = { s with creg := u.creg })

/-- Port control and slow control at the port (R181, R184, R191, R193, R194): RETRY, TEST and its end, injection, golden-copy checks,
proxy accesses, responses and timeouts.
Rests in part on the model's readings and choices in log entries 14, 28, 29, 90, 93 and 106. -/
def Obligations.PortControlAndProxyAccesses : Prop :=
  (∀ (s : State) (p : PortIx) (m : MasterIx) (v : W32), s.frozen m = false →
    s.permitted m .control (PL_CTRL_EN p).reg .write = true →
    (bitAt v.toNat 1 = true → bitAt v.toNat 6 = false → bitAt v.toNat 0 = s.con (PL_CTRL_EN p) →
      ∃ u, exec (.retry p m v) s = .next u ∧ (u.port p).retry = true ∧ (u.port p).failRun = 0 ∧ u.plState p = s.plState p) ∧
    (bitAt v.toNat 6 = true → bitAt v.toNat 1 = false → bitAt v.toNat 0 = s.con (PL_CTRL_EN p) →
      (s.plState p = 3 → ∃ u, exec (.test p m v) s = .next u ∧ u.plState p = 3 ∧ (u.port p).testAsk = true ∧
        (u.port p).testFrom = some 3) ∧
      (s.plState p = 6 → s.con (PL_STAT_OWNER p) = true → ∃ u, exec (.test p m v) s = .next u ∧ u.plState p = 6 ∧
        (u.port p).testAsk = (s.port p).testAsk ∧ u.cget (PL_STAT_REASON p) = 8))) ∧
  (∀ (s : State) (p : PortIx), (s.port p).testAsk = true → (s.portTick p).plState p = 7) ∧
  (∀ (s : State) (p : PortIx) (m : MasterIx) (v : W32), s.frozen m = false →
    s.permitted m .control (PL_INJ_GO p).reg .write = true → bitAt v.toNat 0 = true → bitAt v.toNat 7 = true → bitAt v.toNat 1 = true →
    ∃ u, exec (.plInject p m v) s = .next u ∧ (u.port p).flips =
      some ⟨s.nextRequest.1, s.nextRequest.2, s.draw.1 % (1341 - (bits v.toNat 2 5 + 1)), bits v.toNat 2 5 + 1⟩) ∧
  (∀ (s : State) (p : PortIx) (a b : List Nat),
    (s.plState p = 7 → max 1 (s.cget (PL_PRBS_CTRL_DUR p)) ≤ s.since (s.port p).stateTick →
      ∃ u, exec (.testEnd p a b) s = .next u ∧ u.plState p = 2 ∧ u.cget (PL_PRBS_ERR_CNT p) =
        (testCount true (max 1 (s.cget (PL_PRBS_CTRL_DUR p))) ((s.fe p).link (s.face p)).testInj b).2 % 2 ^ 64) ∧
    (s.fon p (PRBS_STAT_RUNNING (s.face p)) = true → ((s.fe p).link (s.face p)).prbsLeft ≤ s.since ((s.fe p).link (s.face p)).prbsFrom →
      ∃ u, exec (.testEnd p a b) s = .next u ∧ u.fget p (PRBS_ERR_CNT (s.face p)) =
        (testCount false ((s.fe p).link (s.face p)).prbsLeft (s.port p).testInj a).2 % 2 ^ 64 ∧
      u.fon p (PRBS_STAT_RUNNING (s.face p)) = false ∧ u.fon p (PRBS_STAT_DONE (s.face p)) = true ∧ u.lnk p (s.face p) = 2)) ∧
  (∀ (s : State) (p : PortIx) (crc : W32), s.plState p = 6 →
    max 1 (s.cget (PLR_CFG_GCHK (p.val / 256))) * 2500 ≤ s.since (s.port p).goldTick →
    (crc.toNat = s.goldCrc p → ∃ u, exec (.goldenCheck p false crc) s = .next u ∧ u.con (PL_GOLD_MATCH p) = true ∧
      (u.port p).goldMiss = 0 ∧ u.cget (PL_GOLD_CHECKS p) = min (s.cget (PL_GOLD_CHECKS p) + 1) 65535) ∧
    (crc.toNat ≠ s.goldCrc p → (s.port p).goldMiss = 1 → s.twinStandby = false → ∃ u, exec (.goldenCheck p false crc) s = .next u ∧
      u.con (PL_GOLD_MISMATCH p) = true ∧ u.cget (PL_GOLD_REPAIRS p) = min (s.cget (PL_GOLD_REPAIRS p) + 1) 255 ∧
      u.plState p = 6 ∧ (u.port p).posted ≠ [])) ∧
  (∀ (s : State) (m : MasterIx) (a : W32), 0x1000000 ≤ a.toNat → a.toNat < 0x2000000 → s.frozen m = false →
    s.permitted m .control a.toNat .read = true →
    let p := (a.toNat - 0x1000000) / 0x4000 % 1024
    (s.plState p = 6 → (s.port p).reqWait = [] → (s.port p).sentThisFrame < 5 → (s.port p).outstanding.length < 16 →
      ∃ u, exec (.proxyAccess m a none) s = .next u ∧ (u.port p).outstanding = (s.port p).outstanding ++
        [{ tid := (s.port p).nextTid, addr := a.toNat % 0x4000 / 4, data := none, sentTick := s.tm.tick + 1, master := some m.val }] ∧
        (u.port p).reqNext = (s.port p).reqNext ++
          [⟨1, BitVec.ofNat 8 (s.port p).nextTid, BitVec.ofNat 16 (a.toNat % 0x4000 / 4), 0⟩] ∧
        (u.port p).sentThisFrame = (s.port p).sentThisFrame + 1 ∧ u = { s with ports := u.ports }) ∧
    (s.plState p ≠ 6 → ∃ u, exec (.proxyAccess m a none) s = .next u ∧ tget u.sp.answers m (false, 0) = (true, 0) ∧
      u = { s with sp := u.sp })) ∧
  (∀ (s : State) (p : PortIx) (x : CodeRun) (r : RespPkt) (o : OutReq), respRead x = (0, .ok, r) → (s.port p).outstanding = [o] →
    o.tid = r.tid.toNat → (s.port p).reqWait = [] →
    (∀ (d : W32) (m : Nat), o.master = some m → o.data = some d →
      (r.typ ≠ 0 → r.typ ≠ 0xA → ∃ u, exec (.responseReceived p x) s = .next u ∧ (u.port p).outstanding = [] ∧
        tget u.sp.answers m (false, 0) = (false, r.data.toNat) ∧ u.goldWord p o.addr = Nat.land d.toNat (feCfgMask o.addr) ∧
        RegsSame s u [] ∧ u = { s with ports := u.ports, sp := u.sp, creg := u.creg }) ∧
      (r.typ = 0xA → ∃ u, exec (.responseReceived p x) s = .next u ∧ (u.port p).outstanding = [] ∧
        tget u.sp.answers m (false, 0) = (true, r.data.toNat) ∧ u.goldWord p o.addr = s.goldWord p o.addr ∧
        u.cget (PL_SC_LAST_CODE p) = r.code.toNat % 8 ∧ u.cget (PL_SC_ERR_RESP p) = min (s.cget (PL_SC_ERR_RESP p) + 1) 255)) ∧
    (o.master = none → o.data = none → r.typ = 8 → s.plState p ≠ 3 → ∃ u, exec (.responseReceived p x) s = .next u ∧
      (u.port p).outstanding = [] ∧ (u.port p).ownReads = (o.addr, r.data.toNat) :: (s.port p).ownReads)) ∧
  (∀ (s : State) (p : PortIx) (x : CodeRun) (r : RespPkt), respRead x = (0, .ok, r) → r.typ ≠ 0 → (s.port p).outstanding = [] →
    ∃ u, exec (.responseReceived p x) s = .next u ∧
    u.cget (PL_SC_STRAY p) = min (s.cget (PL_SC_STRAY p) + 1) 255 ∧ RegsSame s u [PL_SC_STRAY p] ∧ u = { s with creg := u.creg }) ∧
  (∀ (s : State) (p : PortIx) (x : CodeRun), (respRead x).2.1 = .uncorrectable → ∃ u, exec (.responseReceived p x) s = .next u ∧
    u.cget (PL_ERR_RS_UNC p) = min (s.cget (PL_ERR_RS_UNC p) + 1) (2 ^ (PL_ERR_RS_UNC p).width - 1) ∧
    u.cget (PL_ERR_CODE p) = min (s.cget (PL_ERR_CODE p) + (respRead x).1) (2 ^ (PL_ERR_CODE p).width - 1) ∧
    RegsSame s u [PL_ERR_RS_UNC p, PL_ERR_CODE p] ∧ u = { s with creg := u.creg }) ∧
  (∀ (s : State) (p : PortIx) (tid : Byte) (o : OutReq) (m : Nat), (s.port p).outstanding = [o] → o.tid = tid.toNat → o.master = some m →
    8 ≤ s.since o.sentTick → (s.port p).reqWait = [] → ∃ u, exec (.requestTimeout p tid) s = .next u ∧ (u.port p).outstanding = [] ∧
      u.cget (PL_SC_TIMEOUT p) = min (s.cget (PL_SC_TIMEOUT p) + 1) 255 ∧ tget u.sp.answers m (false, 0) = (true, 0) ∧
      RegsSame s u [PL_SC_TIMEOUT p])

/-! ### Ingest and Hazel coding (R201–R230) -/

/-- Codewords of a slot (R168, R169, R202, R204): a codeword that decodes in time has its records that are no fill stored at their
positions, corrected or not; an uncorrectable one is lost and counted; of one after the late limit the records that are no fill are counted.
Rests in part on the model's readings and choices in log entries 4, 11 and 89. -/
def Obligations.CodewordsAreStoredOrLost : Prop :=
  ∀ (s : State) (p : PortIx) (i : Fin 29) (m : BitVec 10) (plus : Bool) (t : Inst) (cs : List (BitVec 10)),
    2 ≤ s.plState p → s.plState p ≤ 6 →
    let k := s.slotTick i t
    let x := recRead m plus cs
    (s.pastLimit k t = false →
      (x.2.1 ≠ .uncorrectable → ∃ u, exec (.recordCodeword p i m plus t cs) s = .next u ∧
        (∀ j < 16, tget (u.rx p k).recs (16 * i.val + j) 2 =
          if recType (x.2.2.getD j 2) = 2 then tget (s.rx p k).recs (16 * i.val + j) 2 else x.2.2.getD j 2) ∧
        (u.rx p k).seen = (s.rx p k).seen ++ [i.val] ∧ (u.rx p k).lost = (s.rx p k).lost ∧
        u.cget (PL_ERR_CODE p) = min (s.cget (PL_ERR_CODE p) + x.1) (2 ^ (PL_ERR_CODE p).width - 1)) ∧
      (x.2.1 = .corrected → ∃ u, exec (.recordCodeword p i m plus t cs) s = .next u ∧
        u.cget (PL_ERR_RS_CORR p) = min (s.cget (PL_ERR_RS_CORR p) + 1) (2 ^ (PL_ERR_RS_CORR p).width - 1)) ∧
      (x.1 = 0 → x.2.1 = .ok → s.checksPayload p = false → x.2.2.all (fun w => decide (recType w ≠ 0x3C ∧ recType w ≠ 0x3D)) = true →
        ∃ u, exec (.recordCodeword p i m plus t cs) s = .next u ∧ RegsSame s u [] ∧
          u = { s with tm := u.tm, creg := u.creg, ports := u.ports }) ∧
      (x.2.1 = .uncorrectable → s.checksPayload p = false → ∃ u, exec (.recordCodeword p i m plus t cs) s = .next u ∧
        (u.rx p k).recs = (s.rx p k).recs ∧ (u.rx p k).seen = (s.rx p k).seen ∧ (u.rx p k).lost = (s.rx p k).lost ++ [i.val] ∧
        u.cget (PL_ERR_RS_UNC p) = min (s.cget (PL_ERR_RS_UNC p) + 1) (2 ^ (PL_ERR_RS_UNC p).width - 1) ∧
        u.cget (PL_ERR_CODE p) = min (s.cget (PL_ERR_CODE p) + x.1) (2 ^ (PL_ERR_CODE p).width - 1) ∧
        RegsSame s u [PL_ERR_RS_UNC p, PL_ERR_CODE p] ∧ u = { s with tm := u.tm, creg := u.creg, ports := u.ports })) ∧
    (s.pastLimit k t = true → x.1 = 0 → x.2.1 = .ok → x.2.2.any (fun w => decide (recType w ≠ 2)) = true → s.checksPayload p = false →
      ∃ u, exec (.recordCodeword p i m plus t cs) s = .next u ∧ (u.rx p k).recs = (s.rx p k).recs ∧
        (u.rx p k).seen = (s.rx p k).seen ∧
        u.cget (PI_CNT1_LATE p) = min (s.cget (PI_CNT1_LATE p) + (x.2.2.filter fun w => decide (recType w ≠ 2)).length) 255 ∧
        u.cget (PI_STAT_LATE p) = 1 ∧ RegsSame s u [PI_CNT1_LATE p, PI_STAT_LATE p])

/-- What the late limit settles (R204, R205, R213): an enabled, stored port that sent nothing is absent; a slot that is not obeyed is
counted and gives no block; codewords that are missing are lost.
Rests in part on the model's readings and choices in log entries 33 and 95. -/
def Obligations.LateLimitSettlesEveryPort : Prop :=
  (∀ (s : State) (p : PortIx), 2 ≤ s.tm.tick → s.ing.limit ≠ some (s.tm.tick - 2) → s.con (PL_CTRL_EN p) = true →
    s.regionOff p = false →
    let k := s.tm.tick - 2
    ((s.rx p k).seen = [] → (s.rx p k).lost = [] → s.con (PI_CTRL_STORE p) = true → ∃ u, exec .lateLimit s = .next u ∧
      u.cget (PI_CNT0_ABSENT p) = min (s.cget (PI_CNT0_ABSENT p) + 1) 65535 ∧ u.cget (PI_STAT_ABSENT p) = 1 ∧
      u.cget (PI_STAT_PRESENT p) = 0 ∧ u.cget (PI_CNT0_LOST_CW p) = s.cget (PI_CNT0_LOST_CW p) ∧ u.ing.limit = some k) ∧
    ((s.rx p k).seen = [] → (s.rx p k).lost = [] → s.con (PI_CTRL_STORE p) = false → ∃ u, exec .lateLimit s = .next u ∧
      u.cget (PI_CNT0_ABSENT p) = s.cget (PI_CNT0_ABSENT p) ∧ (u.port p).absent = (s.port p).absent) ∧
    ((s.rx p k).seen = [] → (s.rx p k).lost ≠ [] → (s.rx p k).owner = false → ∃ u, exec .lateLimit s = .next u ∧
      u.cget (PI_CNT2_NONOWNER p) = min (s.cget (PI_CNT2_NONOWNER p) + 1) 65535 ∧
      u.cget (PI_CNT0_LOST_CW p) = min (s.cget (PI_CNT0_LOST_CW p) + 29) 65535 ∧
      u.cget (PI_CNT0_ABSENT p) = s.cget (PI_CNT0_ABSENT p) ∧ (u.port p).absent = (s.port p).absent) ∧
    ((s.rx p k).seen ≠ [] → (s.rx p k).seen.length < 29 → ∃ u, exec .lateLimit s = .next u ∧
      u.cget (PI_CNT0_LOST_CW p) = min (s.cget (PI_CNT0_LOST_CW p) + (29 - (s.rx p k).seen.length)) 65535 ∧
      u.cget (PI_STAT_LOSTCW p) = 1 ∧ u.cget (PI_CNT0_ABSENT p) = s.cget (PI_CNT0_ABSENT p) ∧
      ((s.rx p k).owner = false → u.cget (PI_CNT2_NONOWNER p) = min (s.cget (PI_CNT2_NONOWNER p) + 1) 65535))) ∧
  (∀ (s : State) (p : PortIx), s.con (PL_CTRL_EN p) = false → ∃ u, exec .lateLimit s = .next u ∧
      u.cget (PI_CNT0_ABSENT p) = s.cget (PI_CNT0_ABSENT p) ∧ u.cget (PI_CNT0_LOST_CW p) = s.cget (PI_CNT0_LOST_CW p) ∧
      u.cget (PI_CNT2_NONOWNER p) = s.cget (PI_CNT2_NONOWNER p) ∧ (u.port p).absent = (s.port p).absent)

/-- Release, upsets and sums (R203, R209, R212–R214, R229): a single-bit error is corrected and counted, a double-bit error loses the
record; an abandoned block stream gives a reason-6 record; the module sum is the sum over all ports of what R212 counts, and a region
sum with a bad CRC is replaced by 0 with INC.
Rests in part on the model's readings and choices in log entries 33 and 34. -/
def Obligations.SumsCountWhatThePortsSent : Prop :=
  (∀ (s : State) (p : PortIx) (pos : Fin 464), 2 ≤ s.tm.tick → s.ing.released ≠ some (s.tm.tick - 2) →
    let k := s.tm.tick - 2
    (∃ u, exec (.alignedRelease [(p, pos, .single)]) s = .next u ∧ u.ing.released = some k ∧
      u.cget (PI_CNT1_ECC_CORR p) = min (s.cget (PI_CNT1_ECC_CORR p) + 1) 255 ∧ RegsSame s u [PI_CNT1_ECC_CORR p] ∧
      u = { s with tm := u.tm, creg := u.creg, ing := u.ing }) ∧
    (∃ u, exec (.alignedRelease [(p, pos, .double)]) s = .next u ∧ (u.rx p k).eccLost = (s.rx p k).eccLost ++ [pos.val] ∧
      u.cget (PI_CNT1_ECC_UNC p) = min (s.cget (PI_CNT1_ECC_UNC p) + 1) 255 ∧ u.cget (PI_STAT_ECC_UNC p) = 1 ∧
      (∀ w, (pos.val, w) ∈ (s.rx p k).recs → s.rx p k = { s.rx p k with abandoned := false, eccLost := [] } →
        (u.rx p k).raw = ((s.rx p k).recs.filter fun e => decide (e.1 ≠ pos.val)).map (·.2)))) ∧
  (∀ (s : State) (r : RgnIx) (b : PbIx), s.storesFrame (s.frameAt (s.tm.tick - 2)) = true →
    ∃ u, exec (.mergeUpset r b) s = .next u ∧
      u.cget (PB_STAT_UPSET (16 * r.val + b.val)) = min (s.cget (PB_STAT_UPSET (16 * r.val + b.val)) + 1) 255 ∧
      (∀ j : Fin 16, (u.rx (16 * (16 * r.val + b.val) + j.val) (s.tm.tick - 2)).abandoned = true ∧
        u.cget (PI_STAT_PRESENT (16 * (16 * r.val + b.val) + j.val)) = 0) ∧
      (∀ v ∈ (u.rgn r).fair, v.port / 16 = 16 * r.val + b.val → v.tick ≠ s.tm.tick - 2) ∧
      ∃ c, (u.rgn r).crevs = (s.rgn r).crevs ++ [c] ∧ c.reason = 6 ∧ c.scope = 1 ∧ c.port = 16 * (16 * r.val + b.val) ∧
        c.frame = s.frameAt (s.tm.tick - 2) ∧ c.frames = 1 ∧ c.lost = 0xFFFFFFFF) ∧
  (∀ (s : State), 2 ≤ s.tm.tick → ∃ u, exec (.sumsPresented []) s = .next u ∧
    u.trg.sums.module_.1 = ((List.range 1024).map fun p => s.portSum p (s.tm.tick - 2)).sum ∧
    u.trg.sums.module_.2 = ((List.range 1024).any fun p => s.portInc p (s.tm.tick - 2)) ∧
    u.cget IG_MULT_INC = b2n u.trg.sums.module_.2 ∧ u.trg.sums.frame = s.frameAt (s.tm.tick - 2) ∧
    u.cget IG_STAT_LINKERR = s.cget IG_STAT_LINKERR ∧ u = { s with tm := u.tm, creg := u.creg, trg := u.trg }) ∧
  (∀ (s : State) (r : RgnIx), 2 ≤ s.tm.tick → ∃ u, exec (.sumsPresented [r]) s = .next u ∧
    u.trg.sums.regions.getD r (1, false) = (0, true) ∧ u.trg.sums.module_.2 = true ∧
    u.cget IG_STAT_LINKERR = min (s.cget IG_STAT_LINKERR + 1) 255 ∧ u.cget IG_STAT_LINK_SEEN = 1)

/-- The coder and its verifier (R205, R215–R221): coding switched off or expansion leaves a raw unit; a coded block reaches the region
merge coded only if its payload decodes to the raw records, and raw otherwise, counted by the cause.
Rests in part on the model's readings and choices in log entry 34. -/
def Obligations.NoUnverifiedCodedBlockIsCommitted : Prop :=
  (∀ (s : State) (p : PortIx) (n : Nat), 2 ≤ s.tm.tick → s.blockReady p (s.tm.tick - 2) = true →
    let k := s.tm.tick - 2
    let raw := (s.rx p k).raw
    (s.con (RG_CTRL_HZ_EN (p.val / 256)) = false ∨ 8 * raw.length ≤ n → ∃ u, exec (.hazelCode p n) s = .next u ∧
      (u.rgn (p.val / 256)).fair = (s.rgn (p.val / 256)).fair ++ [s.rawUnit p k (s.frameAt k) (s.unitFlags p k) raw] ∧
      (u.rx p k).formed = true ∧ u.cget (PI_STAT_PRESENT p) = 1 ∧ (u.port p).block = (s.port p).block ∧
      (s.con (RG_CTRL_HZ_EN (p.val / 256)) = true →
        u.cget (PB_STAT_EXPAND (p.val / 16)) = min (s.cget (PB_STAT_EXPAND (p.val / 16)) + 1) 65535)) ∧
    (s.con (RG_CTRL_HZ_EN (p.val / 256)) = true → n < 8 * raw.length → ∃ u, exec (.hazelCode p n) s = .next u ∧
      (u.port p).block = some { tick := k, frame := s.frameAt k, raw := raw, codedLen := n, flags := s.unitFlags p k } ∧
      u.regions = s.regions ∧ u.cget (PB_STAT_EXPAND (p.val / 16)) = s.cget (PB_STAT_EXPAND (p.val / 16)))) ∧
  (∀ (s : State) (p : PortIx) (b : BlockSt) (pl : List Byte), (s.port p).block = some b → pl.length = b.codedLen →
    ∃ u v, exec (.hazelVerify p pl) s = .next u ∧ (u.rgn (p.val / 256)).fair = (s.rgn (p.val / 256)).fair ++ [v] ∧
      (u.port p).block = none ∧ v.port = p.val ∧ v.frame = b.frame ∧ v.rawN = b.raw.length ∧
      (hzRecords b.raw.length pl = .ok b.raw →
        v = s.codedUnit p b.tick b.frame b.flags b.raw pl ∧ u = { s with creg := u.creg, ports := u.ports, regions := u.regions }) ∧
      (hzRecords b.raw.length pl ≠ .ok b.raw → v = s.rawUnit p b.tick b.frame b.flags b.raw ∧
        u.cget (PB_STAT_VFAIL_SEEN (p.val / 16)) = 1) ∧
      (hzRecords b.raw.length pl = .error .illegal →
        u.cget (PB_HZERR_ILLEGAL (p.val / 16)) = min (s.cget (PB_HZERR_ILLEGAL (p.val / 16)) + 1) 255) ∧
      (hzRecords b.raw.length pl = .error .distance →
        u.cget (PB_HZERR_DISTANCE (p.val / 16)) = min (s.cget (PB_HZERR_DISTANCE (p.val / 16)) + 1) 255) ∧
      (hzRecords b.raw.length pl = .error .overrun →
        u.cget (PB_HZERR_OVERRUN (p.val / 16)) = min (s.cget (PB_HZERR_OVERRUN (p.val / 16)) + 1) 255) ∧
      (∀ r, hzRecords b.raw.length pl = .ok r → r ≠ b.raw →
        u.cget (PB_HZERR_MISMATCH (p.val / 16)) = min (s.cget (PB_HZERR_MISMATCH (p.val / 16)) + 1) 255))

/-- The delta transform of a hit record takes the differences of R217 modulo 512 and 4,096, other records pass, and its inverse undoes it;
records serialise to bytes and back (R215), and literal runs decode to their bytes (R218, R219). -/
def Obligations.DeltaTransformIsUndone : Prop :=
  (∀ (pc pt : Nat) (w : W64) (r : List W64), pc < 512 → pt < 4096 →
    (recType w = 0 → ∃ v, deltaRecs pc pt (w :: r) = v :: deltaRecs (bits w.toNat 55 9) (bits w.toNat 43 12) r ∧
      (bits v.toNat 55 9 : Int) = ((bits w.toNat 55 9 : Int) - pc) % 512 ∧
      (bits v.toNat 43 12 : Int) = ((bits w.toNat 43 12 : Int) - pt) % 4096 ∧ bits v.toNat 0 43 = bits w.toNat 0 43) ∧
    (recType w ≠ 0 → deltaRecs pc pt (w :: r) = w :: deltaRecs pc pt r)) ∧
  (∀ raw : List W64, undeltaRecs 0 0 (deltaRecs 0 0 raw) = raw) ∧
  (∀ (n : Nat) (pl out : List Byte), hzDecode (8 * n) pl.length pl [] = .ok out →
    hzRecords n pl = .ok (undeltaRecs 0 0 (bytesWords out.reverse))) ∧
  (∀ ws : List W64, bytesWords (wordsBytes ws) = ws ∧ (wordsBytes ws).length = 8 * ws.length) ∧
  (∀ (limit fuel : Nat) (pl out r : List Byte), hzDecode limit fuel pl out = .ok r → r.length = limit) ∧
  (∀ (n : Nat) (b : Byte) (r : List Byte) (out : List Byte), 0xE0 < b.toNat → hzDecode n (r.length + 1) (b :: r) out = .error .illegal) ∧
  (∀ (cs : List (List Byte)) (n : Nat), (∀ c ∈ cs, 1 ≤ c.length ∧ c.length ≤ 128) → cs.flatten.length = n →
    hzDecode n (cs.length + 1) (cs.flatMap (fun c => BitVec.ofNat 8 (c.length - 1) :: c) ++ [0xE0]) [] = .ok cs.flatten.reverse)

/-! ### The Firn store (R222–R263, R459, R460) -/

/-- The region's budget (R223, R224, R229): a unit within its coder's fair share is handed on, one beyond it waits in port order and is
handed at the spill point if it fits what is left of the budget, and is dropped otherwise with a record of reason 2; a unit whose
entries cannot be corrected is dropped with a record of reason 7.
Rests in part on the model's readings and choices in log entries 34 and 35. -/
def Obligations.UnitsAreHandedWithinTheBudget : Prop :=
  (∀ (s : State) (r : RgnIx) (u : Unit_), (s.rgn r).fair = [u] →
    let used := tget (s.rgn r).coderBytes (16 * u.tick + u.coder) 0
    (used + u.size ≤ 29696 → ∃ t, exec (.unitHandover r .ok) s = .next t ∧ (t.rgn r).fair = [] ∧ (t.rgn r).spill = (s.rgn r).spill ∧
      tget (t.rgn r).handed u.tick 0 = tget (s.rgn r).handed u.tick 0 + u.size ∧
      t.cget (RG_BYTES_CNT r) = (s.cget (RG_BYTES_CNT r) + u.size) % 2 ^ 64 ∧ (t.rgn r).crevs = (s.rgn r).crevs ∧
      (s.openSlice (sliceOf u.frame) = false → t.cget FRN_EVT2_NOSLICE = min (s.cget FRN_EVT2_NOSLICE + 1) 255 ∧ t.firn = s.firn)) ∧
    (29696 < used + u.size → ∃ t, exec (.unitHandover r .ok) s = .next t ∧ (t.rgn r).fair = [] ∧
      (t.rgn r).spill = spillIns u (s.rgn r).spill ∧ t = { s with regions := t.regions }) ∧
    (used + u.size ≤ 29696 → ∃ t, exec (.unitHandover r .double) s = .next t ∧ (t.rgn r).fair = [] ∧ t.firn = s.firn ∧
      t.cget (RG_STAT_UNC r) = 1 ∧ (t.rgn r).crevs = (s.rgn r).crevs ++
        [{ at_ := u.tick, reason := 7, scope := 0, port := u.port, frame := u.frame, frames := 1, lost := u.rawN }])) ∧
  (∀ (s : State) (r : RgnIx) (bad : List PortIx) (u : Unit_), (s.rgn r).spill = [u] → u.tick = s.tm.tick - 3 →
    ((bad.map Fin.val).contains u.port = false → tget (s.rgn r).handed u.tick 0 + u.size ≤ 475136 → ∃ t, exec (.spillPoint ⟨r, bad⟩) s = .next t ∧ (t.rgn r).spill = [] ∧
      tget (t.rgn r).handed u.tick 0 = tget (s.rgn r).handed u.tick 0 + u.size ∧
      t.cget (RG_STAT_BUD_DROP r) = s.cget (RG_STAT_BUD_DROP r)) ∧
    ((bad.map Fin.val).contains u.port = true → tget (s.rgn r).handed u.tick 0 + u.size ≤ 475136 →
      ∃ t, exec (.spillPoint ⟨r, bad⟩) s = .next t ∧ (t.rgn r).spill = [] ∧ t.cget (RG_STAT_UNC r) = 1 ∧ t.firn = s.firn ∧
      (t.rgn r).crevs = (s.rgn r).crevs ++
        [{ at_ := u.tick, reason := 7, scope := 0, port := u.port, frame := u.frame, frames := 1, lost := u.rawN }]) ∧
    (475136 < tget (s.rgn r).handed u.tick 0 + u.size → ∃ t, exec (.spillPoint ⟨r, bad⟩) s = .next t ∧ (t.rgn r).spill = [] ∧
      t.cget (PI_CNT2_BUDDROP u.port) = min (s.cget (PI_CNT2_BUDDROP u.port) + 1) 65535 ∧
      t.cget (RG_STAT_BUD_DROP r) = min (s.cget (RG_STAT_BUD_DROP r) + 1) 65535 ∧ t.cget (RG_STAT_BUD_HIT r) = 1 ∧ t.firn = s.firn ∧
      (t.rgn r).crevs = (s.rgn r).crevs ++
        [{ at_ := u.tick, reason := 2, scope := 0, port := u.port, frame := u.frame, frames := 1, lost := u.rawN }]))

/-- Slices are claimed at their third frame, count their frames, and close after 256 (R239–R241, R259, R459); the snapshot shows the
entry whole.
Rests in part on the model's readings and choices in log entry 36. -/
def Obligations.SlicesAreClaimedCountedAndClosed : Prop :=
  (∀ s : State, s.con FRN_STAT_READY = true → 2 ≤ s.tm.tick →
    let f := s.frameAt (s.tm.tick - 2)
    f % 256 = 0 → s.openSlice (sliceOf f) = false → (s.ixe (sliceOf f)).live = false →
    ∃ u, exec .sliceClaim s = .next u ∧ (u.ixe (sliceOf f)).slice = sliceOf f ∧ (u.ixe (sliceOf f)).state = 1 ∧
      (u.ixe (sliceOf f)).frames = 0 ∧ (u.ixe (sliceOf f)).r0.count = 0 ∧ (u.ixe (sliceOf f)).r1.count = 0 ∧
      (u.ixe (sliceOf f)).r2.count = 0 ∧ (u.ixe (sliceOf f)).r3.count = 0 ∧ (u.ixe (sliceOf f)).qual = s.qual ∧
      (u.ixe (sliceOf f)).pins = (s.firn.pins.filter fun e => e.2.covers (sliceOf f)).length ∧
      u.cget FRN_HEAD_SLICE = sliceOf f % 2 ^ 64 ∧ u.cget FRN_EVT_HZN = s.cget FRN_EVT_HZN) ∧
  (∀ s : State, s.con FRN_STAT_READY = true → 3 ≤ s.tm.tick → (∀ j, s.firn.committed = some j → j < s.tm.tick - 3) →
    let sl := sliceOf (s.frameAt (s.tm.tick - 3))
    s.openSlice sl = true →
    (s.tm.tick - 3 < s.firn.backTick → (s.ixe sl).frames < 256 → ∃ u, exec .frameCommit s = .next u ∧ (u.ixe sl).frames = (s.ixe sl).frames) ∧
    (s.firn.backTick ≤ s.tm.tick - 3 → (s.ixe sl).frames < 255 → ∃ u, exec .frameCommit s = .next u ∧ (u.ixe sl).frames = (s.ixe sl).frames + 1 ∧
      (u.ixe sl).state = 1 ∧ (u.ixe sl).slice = sl ∧ u.firn.committed = some (s.tm.tick - 3) ∧
      ∀ r : RgnIx, ∀ c ∈ (u.rgn r).crevs, s.tm.tick - 3 < c.at_) ∧
    (s.firn.backTick ≤ s.tm.tick - 3 → (s.ixe sl).frames = 255 → ∃ u, exec .frameCommit s = .next u ∧ (u.ixe sl).frames = 256 ∧
      ((u.ixe sl).state = 0 ∨ (u.ixe sl).state = 2) ∧ ((u.ixe sl).state = 0 ↔ (u.ixe sl).r0.count = 0 ∧ (u.ixe sl).r1.count = 0 ∧
        (u.ixe sl).r2.count = 0 ∧ (u.ixe sl).r3.count = 0) ∧ ∀ r : RgnIx, ∀ c ∈ (u.rgn r).chains, c.slice ≠ sl)) ∧
  (∀ s : State, s.con FRN_STAT_READY = false → ∃ u, exec .firnInitDone s = .next u ∧ u.con FRN_STAT_READY = true ∧
    u.firn.extents = [] ∧ (u.ixe (sliceOf s.frame)).slice = sliceOf s.frame ∧ (u.ixe (sliceOf s.frame)).state = 1 ∧
    (s.tm.now.ns % 4000 < 3994 → (u.ixe (sliceOf s.frame)).frames = min 256 (s.frame - 3 - sliceOf s.frame * 256))) ∧
  (∀ (s : State) (m : MasterIx) (v : W32), s.frozen m = false → s.permitted m .control FRN_IX_SEL_IDX.reg .write = true →
    ∃ u, exec (.indexSnapshot m v .ok) s = .next u ∧ u.cget FRN_IX_SEL_IDX = v.toNat % 2 ^ 17 ∧ u.firn = s.firn ∧
      ∀ k, k < 16 → u.cget (FRN_IX_DATA_D k) = (tget s.firn.index (v.toNat % 2 ^ 17) {}).bits / 2 ^ (32 * k) % 2 ^ 32)

/-- Extents (R236, R244, R246–R251, R253, R258): the allocator takes what is FREE, skips what is RETIRED, OPEN or pinned within the
quota, and calves an unpinned slice; lines are written with their generation; a line that fails twice closes its extent; an extent is
retired and returned by a write.
Rests in part on the model's readings and choices in log entry 36. -/
def Obligations.ExtentsFollowTheAllocatorsTable : Prop :=
  (∀ (s : State) (r : RgnIx), s.con FRN_STAT_READY = true → (s.rgn r).readyExts.length < 2 →
    let e := s.cget (FRR_WR_PTR r)
    let x := s.ext r e
    let o := tget s.firn.index x.slice {}
    let next := if e + 1 < 131072 - s.scratch r then e + 1 else 0
    (x.state = 0 → e ∉ (s.rgn r).readyExts → ∃ u, exec (.allocatorInspect r) s = .next u ∧
      (u.rgn r).readyExts = (s.rgn r).readyExts ++ [e] ∧ u.cget (FRR_WR_PTR r) = next ∧ u.firn = s.firn) ∧
    (x.state = 3 ∨ x.state = 1 → exec (.allocatorInspect r) s = .next (s.cset (FRR_WR_PTR r) next)) ∧
    (x.state = 2 → o.state ≠ 1 → 0 < o.pins → s.pinnedExtents r ≤ s.pinQuota r →
      exec (.allocatorInspect r) s = .next (s.cset (FRR_WR_PTR r) next)) ∧
    (x.state = 2 → o.state = 2 → o.pins = 0 → o.slice % 131072 = x.slice → 0 < x.gen → x.damaged = false → x.retirePend = false →
      ∃ u, exec (.allocatorInspect r) s = .next u ∧ (tget u.firn.index x.slice {}).state = 3 ∧ (u.ext r e).state = 0 ∧
        (u.ext r e).gen = x.gen ∧ (u.rgn r).readyExts = (s.rgn r).readyExts ++ [e])) ∧
  (∀ (s : State) (r : RgnIx) (c : Chain), (s.rgn r).chains = [c] → 64 ≤ c.tail.length → c.ext < 131072 - s.scratch r →
    ∃ u, exec (.lineWrite r) s = .next u ∧ u.cget (FRR_LINES_CNT r) = (s.cget (FRR_LINES_CNT r) + 1) % 2 ^ 64 ∧
      (u.ext r c.ext).hwm = max (s.ext r c.ext).hwm (c.tailLine + 1) ∧
      ∃ w, (u.rgn r).writeBuf = (s.rgn r).writeBuf ++ [w] ∧ w.ext = c.ext ∧ w.gen = c.gen ∧ w.line = c.tailLine ∧
        w.data = c.tail.take 64 ∧ w.retried = false) ∧
  (∀ (s : State) (r : RgnIx) (w : WLine) (rest : List WLine), (s.rgn r).writeBuf = w :: rest →
    (∃ u, exec (.writeAcknowledged r) s = .next u ∧ (u.rgn r).writeBuf = rest ∧
      tget u.firn.lines ((131072 * r.val + w.ext) * 65536 + w.line) (formLine [] 0) = formLine w.data w.gen ∧ u = { s with regions := u.regions, firn := u.firn }) ∧
    (w.retried = false → ∃ u, exec (.writeRetry r) s = .next u ∧ (u.rgn r).writeBuf = { w with retried := true } :: rest ∧
      u = { s with regions := u.regions }) ∧
    (w.retried = true → (s.rgn r).chains = [] → w.ext < 131072 - s.scratch r → w.units = [] → rest = [] →
      ∃ u, exec (.storeWriteFailure r) s = .next u ∧ (u.ext r w.ext).state = 2 ∧ (u.ext r w.ext).hwm = w.line ∧
        (u.ext r w.ext).damaged = true ∧ (u.rgn r).writeBuf = [] ∧
        u.cget (FRR_UNC_CNT (stackOf r w.ext w.line)) = min (s.cget (FRR_UNC_CNT (stackOf r w.ext w.line)) + 1) (2 ^ 32 - 1))) ∧
  (∀ (s : State) (m : MasterIx) (r : RgnIx) (x : XtWrite), s.frozen m = false →
    s.permitted m .control (FRR_XT_SEL_EXT r).reg .write = true →
    let e := x.val.toNat % 2 ^ 17
    e < 131072 - s.scratch r →
    (bits x.val.toNat 17 2 = 0 → ∃ u, exec (.extentSnapshot m r x) s = .next u ∧ u.ext r e = s.ext r e ∧ u.firn = s.firn ∧
      (x.corrected = true → u.cget FRN_EVT2_SRAM_CORR = min (s.cget FRN_EVT2_SRAM_CORR + 1) (2 ^ FRN_EVT2_SRAM_CORR.width - 1)) ∧
      ∀ n, n < 3 → u.cget (FRR_XT_DATA_D (3 * r.val + n)) = (s.ext r e).words.getD n 0 % 2 ^ 32) ∧
    (bits x.val.toNat 17 2 = 1 → (s.ext r e).state = 0 → ∃ u, exec (.extentRetire m r x) s = .next u ∧
      (u.ext r e).state = 3 ∧ (u.rgn r).readyExts = (s.rgn r).readyExts.filter (· ≠ e)) ∧
    (bits x.val.toNat 17 2 = 1 → (s.ext r e).state = 2 → ∃ u, exec (.extentRetire m r x) s = .next u ∧ (u.ext r e).state = 2 ∧
      (u.ext r e).retirePend = true) ∧
    (bits x.val.toNat 17 2 = 2 → (s.ext r e).state = 3 → ∃ u, exec (.extentReturn m r x) s = .next u ∧ (u.ext r e).state = 0))

/-- Reads of the store (R234, R237, R238, R250, R254, R257): a read is accepted or waits, and what returns has the first status of
R237's table that applies; the scrubber notes what it finds; clearing a pin takes it off the entries it counted in.
Rests in part on the model's readings and choices in log entries 71 and 89. -/
def Obligations.LineReadsReturnTheFirstStatusThatApplies : Prop :=
  (∀ (s : State) (w : Requester) (a : W64), s.hibernating = false →
    let r := bits a.toNat 39 2
    ((s.rgn r).reads.length < 4096 → ∃ u, exec (.lineRead w a) s = .next u ∧ (u.rgn r).reads = (s.rgn r).reads ++ [(w, a.toNat)] ∧
      u.cget (FRR_RD_OUTST r) = (s.rgn r).reads.length + 1 ∧ u = { s with creg := u.creg, regions := u.regions }) ∧
    (4096 ≤ (s.rgn r).reads.length → ∃ u, exec (.lineRead w a) s = .next u ∧
      (u.rgn r).waiting = (s.rgn r).waiting ++ [(w, a.toNat)] ∧ (u.rgn r).reads = (s.rgn r).reads ∧
      u.cget (FRR_RD_WAITS r) = min (s.cget (FRR_RD_WAITS r) + 1) 65535 ∧ u.cget (FRR_RD_FULL_SEEN r) = 1)) ∧
  (∀ (s : State) (r : RgnIx) (c : MvIx) (g e l : Nat) (raw : RawLine) (rest : List (Requester × Nat)), s.hibernating = false →
    g < 32768 → e < 131072 → l < 65536 →
    let a := mkFirnAddr r g e l
    (s.rgn r).reads = (.mover c, a) :: rest →
    let x := s.ext r e
    let dead := x.gen ≠ g ∨ x.state = 0 ∨ x.state = 3
    let zeros := List.replicate 64 (0 : Byte)
    let got := (s.mch c).got
    (dead → ∃ u, exec (.lineReadReturn r raw) s = .next u ∧ (u.mch c).got = got ++ [(a, 5, zeros)]) ∧
    (¬ dead → x.hwm ≤ l → ∃ u, exec (.lineReadReturn r raw) s = .next u ∧ (u.mch c).got = got ++ [(a, 2, zeros)]) ∧
    (¬ dead → l < x.hwm → ∀ w, s.bufferedLine r e l = some w → w.gen = g →
      ∃ u, exec (.lineReadReturn r raw) s = .next u ∧ (u.mch c).got = got ++ [(a, 0, w.data)] ∧ u.firn = s.firn) ∧
    (¬ dead → l < x.hwm → s.bufferedLine r e l = none → ∀ y z, s.storedLine r e l = (y, z) →
      ((y.read raw).1 = .uncorrectable → ∃ u, exec (.lineReadReturn r raw) s = .next u ∧ (u.mch c).got = got ++ [(a, 3, zeros)] ∧
        u.cget (FRR_BAD_ADDR r) = a ∧ u.con FRN_STAT_DAMAGED_SEEN = true ∧
        u.cget (FRR_UNC_CNT (stackOf r e l)) = min (s.cget (FRR_UNC_CNT (stackOf r e l)) + 1) (2 ^ 32 - 1) ∧
        (e < 131072 - s.scratch r → (u.ext r e).damaged = true)) ∧
      ((y.read raw).1 ≠ .uncorrectable → (y.read raw).2.2.1 = false ∨ (y.read raw).2.2.2 ≠ g →
        ∃ u, exec (.lineReadReturn r raw) s = .next u ∧ (u.mch c).got = got ++ [(a, 4, zeros)]) ∧
      (∀ d, y.read raw = (.ok, d, true, g) →
        ∃ u, exec (.lineReadReturn r raw) s = .next u ∧ (u.mch c).got = got ++ [(a, 0, d)] ∧ u.firn = s.firn) ∧
      (∀ d, y.read raw = (.corrected, d, true, g) →
        ∃ u, exec (.lineReadReturn r raw) s = .next u ∧ (u.mch c).got = got ++ [(a, 1, d)] ∧
          u.cget (FRR_CORR_CNT (stackOf r e l)) = min (s.cget (FRR_CORR_CNT (stackOf r e l)) + 1) (2 ^ 32 - 1)))) ∧
  (∀ (s : State) (r : RgnIx) (raw : RawLine) (b : Bool), (s.rgn r).scrubPos + 1 < 2 ^ 33 →
    (s.ext r ((s.rgn r).scrubPos / 65536)).state = 0 → ∃ u, exec (.firnScrubStep r raw b) s = .next u ∧
      (u.rgn r).scrubPos = (s.rgn r).scrubPos + 1 ∧ u.firn = s.firn ∧ RegsSame s u [FRR_SCRUB_STAT_PROGRESS r]) ∧
  (∀ (s : State) (k : CoreIx), s.core k = none → (s.pin k).active = true → ∃ u, exec (.pinClear k) s = .next u ∧
    (u.pin k).active = false ∧ (u.pin k).trunc = (s.pin k).trunc) ∧
  (∀ (s : State) (k : CoreIx), s.core k = none → (s.pin k).active = false → exec (.pinClear k) s = .next s)

/-! ### Triggers and cores (R264–R296) -/

/-- Arming (R264, R265): a write of `TRG_CTRL` arms or disarms at the next tick; a refused mode stays and sets CFG_ERR; arming makes the
frame in progress F_arm and clears histories, states and re-arm records; cores in flight continue after a disarm.
Rests in part on the model's readings and choices in log entry 37. -/
def Obligations.ArmingTakesEffectAtATick : Prop :=
  (∀ (s : State) (m : MasterIx) (v : W32), s.frozen m = false → s.permitted m .control TRG_CTRL_MODE.reg .write = true →
    let mode := v.toNat % 4
    (mode ≠ 3 → mode = s.cget TRG_CTRL_MODE ∨ s.con TRG_CTRL_ARM = false → bitAt v.toNat 2 = true → s.con TRG_STAT_ARMED = false →
      s.twinStandby = false → ∃ u, exec (.triggerArmWrite m v) s = .next u ∧ u.con TRG_CTRL_ARM = true ∧ u.cget TRG_CTRL_MODE = mode ∧
        u.trg.armAsk = true ∧ u.trg.askTick = s.tm.tick ∧ u.con TRG_STAT_ARMED = false ∧
        u.cget TRG_STAT_CFG_ERR = s.cget TRG_STAT_CFG_ERR ∧ u = { s with creg := u.creg, trg := u.trg, sp := u.sp }) ∧
    (mode = 3 ∨ (mode ≠ s.cget TRG_CTRL_MODE ∧ s.con TRG_CTRL_ARM = true) → ∃ u, exec (.triggerArmWrite m v) s = .next u ∧
      u.cget TRG_CTRL_MODE = s.cget TRG_CTRL_MODE ∧ u.cget TRG_STAT_CFG_ERR = 1) ∧
    (mode = s.cget TRG_CTRL_MODE → mode ≠ 3 → bitAt v.toNat 2 = false → s.con TRG_STAT_ARMED = true →
      ∃ u, exec (.triggerDisarmWrite m v) s = .next u ∧ u.con TRG_CTRL_ARM = false ∧ u.trg.disarmAsk = true ∧
        u.con TRG_STAT_ARMED = true ∧ u.cget TRG_STAT_CFG_ERR = s.cget TRG_STAT_CFG_ERR)) ∧
  (∀ s : State, s.trg.armAsk = true → s.trg.askTick < s.tm.tick → ∃ u, exec .triggerArm s = .next u ∧ u.con TRG_STAT_ARMED = true ∧
    u.cget TRG_ARM_F_F = s.frame % 2 ^ 64 ∧ u.cget TRG_STAT_SEQ_STATE = 0 ∧ (∀ n, n < 16 → u.con (TRG_NU_VAL_HIGH n) = false) ∧
    u.trg.nus = [] ∧ u.trg.rearm = [] ∧ u.trg.cores = s.trg.cores ∧ u.trg.armAsk = false ∧ u = { s with creg := u.creg, trg := u.trg }) ∧
  (∀ s : State, s.trg.disarmAsk = true → s.trg.askTick < s.tm.tick → ∃ u, exec .triggerDisarm s = .next u ∧
    u.con TRG_STAT_ARMED = false ∧ u.trg.cores = s.trg.cores ∧ u.trg.fifo = s.trg.fifo ∧ RegsSame s u [TRG_STAT_ARMED] ∧
    u = { s with creg := u.creg, trg := u.trg })

/-- The native units at a decision point (R266, R267, R286): the windowed value over the sums since F_arm, the crossing with its
hysteresis, and one PRIM record for each frame that is evaluated, none for any other.
Rests in part on the model's readings and choices in log entry 37. -/
def Obligations.NativeUnitsCrossAtTheirLevel : Prop :=
  (∀ (s : State) (n : Fin 16), s.tm.tick = s.trg.sums.tick + 2 → s.trg.decidedTick ≠ some s.trg.sums.tick →
    s.con TRG_STAT_ARMED = true → s.trg.armTick ≤ s.trg.sums.tick → s.con (TRG_NU_CFG_EN n) = true →
    let w := s.cget (TRG_NU_CFG_WM1 n) + 1
    let u0 := tget s.trg.nus n {}
    ∀ x, s.trg.sums.select (s.cget (TRG_NU_CFG_SEL n)) = some x → u0.hist.length < 64 → u0.incLeft = 0 →
      let v := ((x :: u0.hist).take w).map (·.1) |>.sum
      let lvl := s.cget (TRG_NU_LEVEL_LEVEL n)
      ∃ u, exec (.decisionPoint 0 [] []) s = .next u ∧ u.cget (TRG_NU_VAL_V n) = v % 2 ^ 30 ∧
        (u.con (TRG_NU_VAL_INC n) = true ↔ ∃ y ∈ (x :: u0.hist).take w, y.2 = true) ∧
        (u0.high = false → lvl ≤ v → u.con (TRG_NU_VAL_HIGH n) = true ∧
          u.cget (TRG_NU_CNT_CROSS n) = min (s.cget (TRG_NU_CNT_CROSS n) + 1) 65535) ∧
        (u0.high = false → v < lvl → u.con (TRG_NU_VAL_HIGH n) = false ∧ u.cget (TRG_NU_CNT_CROSS n) = s.cget (TRG_NU_CNT_CROSS n)) ∧
        (u0.high = true → (u.con (TRG_NU_VAL_HIGH n) = true ↔ lvl - s.cget (TRG_NU_HYST_HYST n) ≤ v) ∧
          u.cget (TRG_NU_CNT_CROSS n) = s.cget (TRG_NU_CNT_CROSS n)) ∧
        (∃ p, u.trg.prim = some p) ∧ u.trg.decidedTick = some s.trg.sums.tick) ∧
  (∀ s : State, s.tm.tick = s.trg.sums.tick + 2 → s.trg.decidedTick ≠ some s.trg.sums.tick →
    s.con TRG_STAT_ARMED = false ∨ s.trg.sums.tick < s.trg.armTick → s.trg.fifo = [] →
    ∃ u, exec (.decisionPoint 0 [] []) s = .next u ∧ u.trg.prim = none ∧ u.trg.cores = s.trg.cores ∧ u.firn = s.firn ∧
      u.trg.decidedTick = some s.trg.sums.tick) ∧
  (∀ (s : State) (ws : List W64), s.trg.prim = some ws → ∃ u, exec .primQueued s = .next u ∧ u.trg.prim = none ∧
    u = { s with creg := u.creg, upl := u.upl, trg := u.trg })

/-- Requests and the table of outcomes (R273–R276, R280, R282–R284): a request waits in the FIFO or is answered at once; at its decision
the first check of R280's table that applies gives the outcome, and an accepted one takes the lowest free slot, the next serial and a
pin.
Rests in part on the model's readings and choices in log entry 38. -/
def Obligations.TheFirstCheckGivesTheOutcome : Prop :=
  (∀ (s : State) (body : List Byte), body.length = 32 →
    (s.con TRG_CTRL_REQ_EN = true → s.trg.fifo.length < 64 → ∃ u, exec (.requestArrival none body) s = .next u ∧
      u.trg.fifo = s.trg.fifo ++ [{ body := body, group := s.mailGroup, bad := false }] ∧
      u.cget TRG_REQQ_FILL = s.trg.fifo.length + 1 ∧ u = { s with creg := u.creg, trg := u.trg }) ∧
    (s.con TRG_CTRL_REQ_EN = true → 64 ≤ s.trg.fifo.length → ∃ u, exec (.requestArrival none body) s = .next u ∧
      u.cget TRG_CNT2_QFULL = min (s.cget TRG_CNT2_QFULL + 1) 255 ∧ u.trg = s.trg) ∧
    (s.con TRG_CTRL_REQ_EN = false → ∃ u, exec (.requestArrival none body) s = .next u ∧
      u.cget TRG_CNT2_BADREQ = min (s.cget TRG_CNT2_BADREQ + 1) 255 ∧ u.trg = s.trg)) ∧
  (∀ (s : State) (q : Req), s.tm.tick = s.trg.sums.tick + 2 → s.trg.decidedTick ≠ some s.trg.sums.tick → s.con TRG_STAT_ARMED = false →
    s.trg.fifo = [q] →
    let c := (s.toInst (3440 * 65536)).requestCandidate q
    (c.invalid = true → ∃ u, exec (.decisionPoint 0 [] []) s = .next u ∧ u.trg.fifo = [] ∧
      u.cget TRG_CNT2_BADREQ = min (s.cget TRG_CNT2_BADREQ + 1) 255 ∧ u.trg.cores = s.trg.cores ∧ u.firn = s.firn) ∧
    (c.invalid = false → c.gone = true → ∃ u, exec (.decisionPoint 0 [] []) s = .next u ∧ u.trg.fifo = [] ∧
      u.cget TRG_CNT1_GONE = min (s.cget TRG_CNT1_GONE + 1) 255 ∧ u.trg.cores = s.trg.cores ∧ u.firn = s.firn) ∧
    (c.invalid = false → c.gone = false → (∀ k, k < 64 → s.core k ≠ none) → ∃ u, exec (.decisionPoint 0 [] []) s = .next u ∧
      u.cget TRG_CNT1_BUSY = min (s.cget TRG_CNT1_BUSY + 1) 255 ∧ u.cget TRG_STAT_BUSY_SEEN = 1 ∧ u.trg.cores = s.trg.cores ∧
      u.cget TRG_SERIAL_NEXT = s.cget TRG_SERIAL_NEXT) ∧
    (c.invalid = false → c.gone = false → ∀ k, k < 64 → s.core k = none → (∀ j, j < k → s.core j ≠ none) →
      ∃ u n, exec (.decisionPoint 0 [] []) s = .next u ∧ u.core k = some n ∧ n.serial = s.cget TRG_SERIAL_NEXT ∧ n.source = 25 ∧
        n.first = c.first ∧ n.last = (s.clamp c c.first).1 ∧ n.clamped = (s.clamp c c.first).2 ∧ n.portFirst = c.portFirst ∧
        n.portLast = c.portLast ∧ (u.pin k).active = true ∧ (u.pin k).first = sliceOf c.first ∧ (u.pin k).last = sliceOf n.last ∧
        u.cget TRG_CNT0_ACCEPT = min (s.cget TRG_CNT0_ACCEPT + 1) 65535 ∧
        u.cget TRG_SERIAL_NEXT = (if n.serial = 0xFFFFFFFF then 1 else n.serial + 1) ∧ u.con (TRG_CORE_STAT_ACTIVE k) = true)) ∧
  (∀ (s : State) (c : Candidate) (pos : Nat), c.source < 25 → c.invalid = false →
    let f := s.cget TRG_ARM_F_F + s.cget (TRG_SRC_PRE_PRE c.source)
    (c.frame < f → s.decideOne c pos = (s.cbump TRG_CNT1_EARLY, { source := c.source, outcome := 2, inc := c.inc })) ∧
    (f ≤ c.frame → ∀ r, tget s.trg.rearm c.source none = some r → 0 < s.cget (TRG_SRC_REARM_REARM c.source) →
      c.frame ≤ r.frame + s.cget (TRG_SRC_REARM_REARM c.source) → s.con (TRG_SRC_REARM_MERGE c.source) = false →
      s.decideOne c pos = (s.cbump TRG_CNT1_REARM, { source := c.source, outcome := 3, inc := c.inc })) ∧
    (f ≤ c.frame → s.cget (TRG_SRC_REARM_REARM c.source) = 0 → s.cget TRG_CTRL_MODE = 0 →
      (s.decideOne c pos).2.outcome = 8 ∧ (s.decideOne c pos).1.trg.cores = s.trg.cores ∧
      (s.decideOne c pos).1.cget TRG_CNT0_ACCEPT = min (s.cget TRG_CNT0_ACCEPT + 1) 65535))

/-- Core read-out and the slice stream (R283, R287, R291–R294): the header begins the read-out, the trailer ends it and frees the slot;
an abort clears the pin; the stream sends each closed slice in order and jumps over calved ones.
Rests in part on the model's readings and choices in log entries 38, 39 and 96. -/
def Obligations.CoresAndSlicesAreSent : Prop :=
  (∀ (s : State) (k : CoreIx) (c d : Core), s.trg.cores = [(k.val, some c)] → c.reading = false → c.aborted = false → c.ended = false →
    c.out = [] → s.readDue c = true → c.decided + 32 ≤ s.tm.tick * 2000 + s.tm.now.ns % 4000 / 2 → s.hibernating = false →
    d = ({ c with reading := true, flush := true, cur := { slice := sliceOf c.first } } : Core).put (s.coreHeader k c) →
    (s.coreOn .nothing d.turns d).items = [] →
    (s.hasRoom (s.coreGroup k) 2 (bytesPkt 2 k c.serial (s.coreHeader k c)) = true → s.cget (UG_STAT_STATE (s.coreGroup k)) ≠ 2 →
      ∃ u n, exec (.coreReadoutStart k) s = .next u ∧ u.core k = some n ∧ n.reading = true ∧ n.bytes = c.bytes + 48 ∧ n.out = [] ∧
        (u.queue (s.coreGroup k) 2).pkts = (s.queue (s.coreGroup k) 2).pkts ++ [bytesPkt 2 k c.serial (s.coreHeader k c)] ∧
        u.con (TRG_CORE_STAT_READING k) = true ∧ u.firn = s.firn) ∧
    (s.hasRoom (s.coreGroup k) 2 (bytesPkt 2 k c.serial (s.coreHeader k c)) = false →
      ∃ u n, exec (.coreReadoutStart k) s = .next u ∧ u.core k = some n ∧ n.reading = true ∧ n.bytes = c.bytes + 48 ∧
        n.out = s.coreHeader k c ∧ u.upl = s.upl ∧ u.con (TRG_CORE_STAT_READING k) = true ∧ u.firn = s.firn)) ∧
  (∀ (s : State) (k : CoreIx) (c : Core), s.trg.cores = [(k.val, some c)] → c.reading = true → c.read = true → c.ended = false →
    c.out = [] → c.items = [] → s.hibernating = false → s.hasRoom (s.coreGroup k) 2 (bytesPkt 2 k c.serial (s.coreTrailer k c)) = true →
    ∃ u, exec (.coreComplete k) s = .next u ∧ u.core k = none ∧ u.con (TRG_CORE_STAT_ACTIVE k) = false ∧
      u.cget TRG_STAT_INFLIGHT = 0) ∧
  (∀ (s : State) (m : MasterIx) (v : W32), s.frozen m = false → s.permitted m .control TRG_ABORT_SLOT.reg .write = true →
    let k := v.toNat % 64
    (s.core k = none → ∃ u, exec (.coreAbort m v) s = .next u ∧ u = { s with sp := u.sp }) ∧
    (∀ c, s.core k = some c → c.ended = false → bitAt v.toNat 6 = true → ∃ u n, exec (.coreAbort m v) s = .next u ∧
      u.core k = some n ∧ n.aborted = true ∧ n.serial = c.serial ∧ n.out = c.out ∧ n.items = [] ∧ (u.pin k).active = false)) ∧
  (∀ s : State, s.trg.streamOut = [] → s.trg.streamOn = true → s.trg.streamEnd = none → s.hibernating = false →
    let k := s.cget TRG_STREAM_POS_SLICE
    (s.sliceGone k = false → (s.ixe k).slice = k → (s.ixe k).state = 0 → ∃ u, exec .streamSliceRead s = .next u ∧
      u.cget TRG_STREAM_POS_SLICE = (k + 1) % 2 ^ 64 ∧ u.trg.streamGroup = s.streamGroupOf k ∧ u.firn = s.firn ∧
      u.cget TRG_STREAM_STAT_GAPS = s.cget TRG_STREAM_STAT_GAPS) ∧
    (s.sliceGone k = false → (s.ixe k).state = 1 → exec .streamSliceRead s = .next s) ∧
    (s.sliceGone k = true → ∃ u, exec .streamSliceRead s = .next u ∧ u.cget TRG_STREAM_POS_SLICE =
        max (k + 1) (min (s.cget FRN_EDGE_SLICE + s.cget TRG_STREAM_MARGIN) s.newestComplete) % 2 ^ 64 ∧
      u.cget TRG_STREAM_STAT_GAPS = min (s.cget TRG_STREAM_STAT_GAPS + 1) 65535 ∧ u.cget TRG_STAT_GAP_SEEN = 1 ∧ u.firn = s.firn))

/-! ### Uplinks and queues (R297–R322) -/

/-- Transmit lanes (R299, R301, R302): a faulted lane leaves its group at the next lane-frame boundary with LANE_LOST, the last one takes
the group DOWN and empties its queues, a healthy one returns after RESTORE, a lane in service sends its start set, and every n codewords of
a group's payload go out on its n lanes in turn.
Rests in part on the model's readings and choices in log entries 44 and 97. -/
def Obligations.LanesLeaveAndReturnAtABoundary : Prop :=
  (∀ (s : State) (l : Fin 32), s.laneOut l = false → ∃ u, exec (.laneFault l) s = .next u ∧
    u.upl.leaving = s.upl.leaving ++ [(l.val, s.monoNs)] ∧ u = { s with upl := u.upl }) ∧
  (∀ (s : State) (m : MasterIx) (v : W32) (l : Fin 32), s.frozen m = false →
    s.permitted m .control UPL_CTRL_RESTORE.reg .write = true → bitAt v.toNat 0 = true → s.laneOut l = true →
    ∃ u, exec (.restore m v [l]) s = .next u ∧ u.upl.returning = s.upl.returning ++ [(l.val, s.monoNs)] ∧
      u = { s with upl := u.upl, sp := u.sp }) ∧
  (∀ (s : State) (l k : Fin 32) (g t : Nat), s.hibernating = false → s.upl.boundTick ≠ some s.tm.tick →
    t < s.tm.tick * 4000 + 48 → s.laneGroup l = some g →
    (s.upl.leaving = [(l.val, t)] → s.upl.returning = [] → ∃ u, exec (.laneFrame k) s = .next u ∧ u.laneOut l = true ∧
      u.cget (UG_STAT_LANES g) = (u.groupLanes g).length ∧ l.val ∉ u.groupLanes g ∧ u.con (UG_STAT_LANE_LOST g) = true ∧
      u.upl.leaving = [] ∧
      (s.cget (UG_STAT_STATE g) = 1 → u.groupLanes g = [] → u.cget (UG_STAT_STATE g) = 2 ∧
        ∀ q, q < 5 → (u.queue g q).pkts = []) ∧
      (u.groupLanes g ≠ [] → s.cget (UG_STAT_STATE g) = 1 → u.cget (UG_STAT_STATE g) = 1)) ∧
    (s.upl.returning = [(l.val, t)] → s.upl.leaving = [] → s.laneOut l = true → s.cget (UG_STAT_STATE g) = 2 →
      ∃ u, exec (.laneFrame k) s = .next u ∧ u.laneOut l = false ∧ l.val ∈ u.groupLanes g ∧
        u.cget (UG_STAT_LANES g) = (u.groupLanes g).length ∧ u.cget (UG_STAT_STATE g) = 1)) ∧
  (∀ (s : State) (l : Fin 32) (g : Nat), s.hibernating = false → s.upl.boundTick = some s.tm.tick → s.laneGroup l = some g →
    s.groupRun g = true → s.laneOut l = false →
    let o := if s.cget (UG_STAT_VER g) = 1 then 0xFFFFFF else (s.grp g).ofs
    let body := [l.val + 32 * g, s.tm.now.fis % 256, s.cget (UG_STAT_LANES g) % 64 + 64 * s.cget (UG_STAT_VER g), o % 256, o / 256 % 256, o / 65536 % 256]
    ∃ u, exec (.laneFrame l) s = .next u ∧
      tget u.upl.laneFrames l [] = 0xBC :: body ++ [crc8 (body.map fun b => BitVec.ofNat 8 b)] ∧ u = { s with tm := u.tm, upl := u.upl }) ∧
  (∀ (s : State) (l k : Fin 32) (g : GrpIx) (i : Nat), s.hibernating = false → s.upl.boundTick ≠ some s.tm.tick → s.groupRun g = true →
    s.upl.leaving = [] → s.upl.returning = [] → (s.groupLanes g)[i]? = some l.val → tget s.upl.laneFrames l [] ≠ [] →
    let n := (s.groupLanes g).length
    let all := (s.grp g).buf ++ s.fillBytes g (21376 * n - (s.grp g).buf.length)
    ∃ u, exec (.laneFrame k) s = .next u ∧ (tget u.upl.laneSent l {}).start = tget s.upl.laneFrames l [] ∧
      (tget u.upl.laneSent l {}).data = (List.range 167).flatMap (fun j => (all.drop (128 * (j * n + i))).take 128) ∧
      (u.grp g).buf = all.drop (21376 * n))

/-- Receive lanes and inbound control (R304, R308, R319, R320): the states of R304's table; a Floe frame is accepted as CTRL or
discarded and counted; a HELLO selects the highest common version for the next boundary; a mailbox packet joins the inbound queue.
Rests in part on the model's readings and choices in log entries 14 and 89. -/
def Obligations.ReceiveLanesAndInboundControl : Prop :=
  (∀ (s : State) (j : Fin 8),
    (s.rxState j = 0 → s.hibernating = false → ∃ u, exec (.rxSignalDetect j) s = .next u ∧ u.rxState j = 1 ∧
      RegsSame s u [UR_STAT_STATE j]) ∧
    (s.rxState j = 1 → ∃ u, exec (.rxAligned j) s = .next u ∧ u.rxState j = 2 ∧ RegsSame s u [UR_STAT_STATE j]) ∧
    (s.rxState j = 1 → (tget s.upl.rx j {}).stateTick + 5000 ≤ s.tm.tick → ∃ u, exec (.rxLockTimeout j) s = .next u ∧ u.rxState j = 0) ∧
    (s.rxState j = 2 → ∃ u, exec (.rxSignalLoss j) s = .next u ∧ u.rxState j = 0 ∧ u.cget (UR_STAT_LOST j) = 1) ∧
    (∀ x, s.rxState j = 2 → (tget s.upl.rx j {}).badRun = 3 → goodRxSet x = false → ∃ u, exec (.rxStartSet j x) s = .next u ∧
      u.rxState j = 1 ∧ u.cget (UR_STAT_LOST j) = 1) ∧
    (∀ x, s.rxState j = 2 → (tget s.upl.rx j {}).badRun < 3 → goodRxSet x = false → ∃ u, exec (.rxStartSet j x) s = .next u ∧
      u.rxState j = 2 ∧ (tget u.upl.rx j {}).badRun = (tget s.upl.rx j {}).badRun + 1) ∧
    (∀ x, s.rxState j = 2 → goodRxSet x = true → ∃ u, exec (.rxStartSet j x) s = .next u ∧ u.rxState j = 2 ∧
      (tget u.upl.rx j {}).badRun = 0) ∧
    (∀ x n b r, s.rxState j = 2 → x.gap = some n → lineSyms x.line.plus x.line.chars = some k285 :: r → bytesOf r = some b → b.length = 7 →
      22392 ≤ n → n ≤ 22408 → b.getD 6 0 = BitVec.ofNat 8 (crc8 (b.take 6)) →
      ∃ u, exec (.rxStartSet j x) s = .next u ∧ (tget u.upl.rx j {}).badRun = 0)) ∧
  (∀ (s : State) (j : Fin 8) (f : FloeIn) (b : List Byte), s.rxState j = 2 →
    let b0 := bodyNat b 0 1
    (floeRead f = (0, true, b) → bits b0 0 4 = 6 → bitAt b0 6 = true → bitAt b0 7 = true → bodyNat b 14 2 = crc16 (b.take 14) →
      1 ≤ bits (bodyNat b 0 8) 12 12 → bodyNat b 16 1 = 1 ∨ bodyNat b 16 1 = 2 ∨ bodyNat b 16 1 = 3 →
      ∃ u, exec (.inboundFloeFrame j f) s = .next u ∧ u.cget (UR_CNT_CTRL j) = min (s.cget (UR_CNT_CTRL j) + 1) 65535 ∧
        RegsSame s u [UR_CNT_CTRL j]) ∧
    (floeRead f = (0, true, b) → bits b0 0 4 ≠ 6 ∨ bitAt b0 6 = false ∨ bitAt b0 7 = false ∨ bodyNat b 14 2 ≠ crc16 (b.take 14) ∨
      bodyNat b 16 1 = 0 ∨ 4 ≤ bodyNat b 16 1 →
      ∃ u, exec (.inboundFloeFrame j f) s = .next u ∧ u.cget (UR_CNT_DISCARD j) = min (s.cget (UR_CNT_DISCARD j) + 1) 255 ∧
        RegsSame s u [UR_CNT_DISCARD j]) ∧
    (∀ n, floeRead f = (n, false, b) → ∃ u, exec (.inboundFloeFrame j f) s = .next u ∧
      u.cget (UR_CNT_DISCARD j) = min (s.cget (UR_CNT_DISCARD j) + 1) 255 ∧ u.cget (UR_CNT_RS_UNC j) = min (s.cget (UR_CNT_RS_UNC j) + n) 255 ∧
      u.cget (UR_CNT_CTRL j) = s.cget (UR_CNT_CTRL j))) ∧
  (∀ (s : State) (j : Fin 8), s.rxState j = 2 →
    let g := s.cget (UR_CFG_GROUP j)
    (∀ v, bitAt s.verMask 1 = true → bitAt v.toNat 1 = true → s.cget (UG_STAT_VER g) = 1 →
      ∃ u, exec (.hello j v) s = .next u ∧ (u.grp g).verNext = some 2 ∧ u.cget (UG_STAT_VER g) = 1 ∧
        u.cget (UG_CNT_HELLO g) = min (s.cget (UG_CNT_HELLO g) + 1) 65535 ∧ u.con (UG_STAT_BE_SILENT g) = false) ∧
    (∃ u, exec (.hello j 0) s = .next u ∧ u.cget (UG_CNT_VER_REFUSE g) = min (s.cget (UG_CNT_VER_REFUSE g) + 1) 255 ∧
      (u.grp g).verNext = (s.grp g).verNext)) ∧
  (∀ (s : State) (g : GrpIx), ((s.grp g).helloAt.getD 0) + max 1 (s.cget UPL_CFG_SILENT) * 100000000 ≤ s.monoNs →
    ∃ u, exec (.beSilent g) s = .next u ∧ u.cget (UG_STAT_BE_SILENT g) = 1 ∧ RegsSame s u [UG_STAT_BE_SILENT g]) ∧
  (∀ (s : State) (j : Fin 8) (w : W64), s.rxState j = 2 →
    (s.upl.inbound.length < 8192 → ∃ u, exec (.mailboxPacket j (leBytes 8 w.toNat)) s = .next u ∧
      u.upl.inbound = s.upl.inbound ++ [{ word := w, end_ := true, lane := j.val }] ∧
      u.cget UIQ_STAT_LEVEL = s.upl.inbound.length + 1 ∧ u.upl.queues = s.upl.queues) ∧
    (8192 ≤ s.upl.inbound.length → ∃ u, exec (.mailboxPacket j (leBytes 8 w.toNat)) s = .next u ∧ u.upl = s.upl ∧
      u.cget UIQ_STAT_DROPPED = min (s.cget UIQ_STAT_DROPPED + 1) 255 ∧ u.cget UIQ_STAT_FULL_SEEN = 1))

/-- The scheduler (R305–R307, R310, R311, R317): the first whole packet in the order of the queues is cut into Floe frames with its
header; with none, a fill frame; corrected words are counted, an uncorrectable payload word goes out as zeros in a frame that ends the
packet, and a packet with an uncorrectable descriptor is never sent.
Rests in part on the model's readings and choices in log entries 42, 43, 97 and 98. -/
def Obligations.TheSchedulerTakesTheFirstWholePacket : Prop :=
  (∀ (s : State) (g : GrpIx) (q : QIx) (p : Pkt) (r : List Pkt), s.groupRun g = true → s.hibernating = false →
    (∀ y, y < q.val → (s.queue g y).pkts = []) → (s.queue g q).pkts = p :: r → typeHeld q p.typ = true → p.words.length ≤ 1024 → p.sent = 0 →
    let most := if s.cget (UG_STAT_VER g) = 1 then 128 else 256
    let n := min most p.words.length
    let cls := queueClass q
    let k := g.val * 5 + q.val
    (∃ u f, exec (.schedulerChoice g [] []) s = .next u ∧ (u.grp g).inFlight = some f ∧ f.words = p.words.take n ∧
      bits f.h0.toNat 0 4 = p.typ % 16 ∧ bits f.h0.toNat 4 2 = cls ∧ bitAt f.h0.toNat 6 = true ∧
      bitAt f.h0.toNat 7 = decide (p.words.length ≤ most) ∧ bitAt f.h0.toNat 10 = false ∧
      bits f.h0.toNat 32 16 = tget (s.grp g).seq cls 0 % 65536 ∧ bits f.h0.toNat 54 2 = g.val ∧
      tget (u.grp g).seq cls 0 = (tget (s.grp g).seq cls 0 + 1) % 65536 ∧
      u.cget (UG_BYTES_CNT g) = (s.cget (UG_BYTES_CNT g) + 16 + 8 * n) % 2 ^ 64 ∧
      (u.grp g).buf = (s.grp g).buf ++ wordsBytes ([f.h0, f.h1] ++ f.words) ∧
      (q ≠ 2 → q ≠ 4 → (q = 3 → s.sp.monOut = []) → (u.queue g q).pkts = if p.words.length ≤ most then r else { p with sent := n } :: r)) ∧
    (∀ errs, p.descRead errs = .ok → ((p.reads n errs).all fun x => decide (x.1 ≠ .uncorrectable)) = true →
      ∃ u f, exec (.schedulerChoice g errs []) s = .next u ∧ (u.grp g).inFlight = some f ∧ f.words = (p.reads n errs).map (·.2) ∧
        bitAt f.h0.toNat 10 = false ∧ u.cget (UQ_ERR_UNC k) = s.cget (UQ_ERR_UNC k) ∧
        u.cget (UQ_ERR_CORR k) = min (s.cget (UQ_ERR_CORR k) + ((p.reads n errs).filter fun x => decide (x.1 = .corrected)).length) 255) ∧
    (∀ i errs, i < n → (errs.all fun e => decide (e.word = i + 1)) = true →
      (readWord (p.words.getD i 0) (decide (i + 1 = p.words.length)) (i + 1) errs).1 = .uncorrectable →
      ∃ u f, exec (.schedulerChoice g errs []) s = .next u ∧ (u.grp g).inFlight = some f ∧
        f.words = p.words.take i ++ [0] ∧ bitAt f.h0.toNat 7 = true ∧ bitAt f.h0.toNat 10 = true ∧
        (q ≠ 2 → q ≠ 4 → (q = 3 → s.sp.monOut = []) → (u.queue g q).pkts = r) ∧
        u.cget (UQ_ERR_UNC k) = min (s.cget (UQ_ERR_UNC k) + 1) 255 ∧ u.cget (UQ_STAT_UNC_SEEN k) = 1) ∧
    (∀ errs, (errs.all fun e => decide (e.word = 0)) = true → (readWord p.descriptor (decide (p.words = [])) 0 errs).1 = .uncorrectable →
      r = [] → (∀ y, y < 5 → q.val < y → (s.queue g y).pkts = []) →
      ∃ u f, exec (.schedulerChoice g errs []) s = .next u ∧ (u.grp g).inFlight = some f ∧ f.words = [] ∧ bits f.h0.toNat 0 4 = 0 ∧
        (q ≠ 2 → q ≠ 4 → (q = 3 → s.sp.monOut = []) → (u.queue g q).pkts = []) ∧
        u.cget (UQ_ERR_UNC k) = min (s.cget (UQ_ERR_UNC k) + 1) 255 ∧ u.cget (UQ_STAT_UNC_SEEN k) = 1)) ∧
  (∀ (s : State) (g : GrpIx), s.groupRun g = true → s.hibernating = false → (∀ y, y < 5 → (s.queue g y).pkts = []) →
    ∃ u f, exec (.schedulerChoice g [] []) s = .next u ∧ (u.grp g).inFlight = some f ∧ f.words = [] ∧ bits f.h0.toNat 0 4 = 0 ∧
      bits f.h0.toNat 12 12 = 0 ∧ (u.grp g).seq = (s.grp g).seq ∧ u.cget (UG_BYTES_CNT g) = s.cget (UG_BYTES_CNT g) ∧
      RegsSame s u [UG_BYTES_CNT g]) ∧
  (∀ (s : State) (g : GrpIx) (c b : List WordErr), s.groupRun g = false → exec (.schedulerChoice g c b) s = .next s)

/-- The push port, flush, stale closure and the inbound pop (R312, R313, R315, R320): a pushed word joins the open packet and enters
the queue with the end mark; pushes to queues 1, 2 and 4 are answered with the access error.
Rests in part on the model's readings and choices in log entry 47. -/
def Obligations.PushFlushStaleAndPop : Prop :=
  (∀ (s : State) (g : GrpIx) (q : QIx) (m : MasterIx) (lo : W32), s.frozen m = false →
    let i := g.val * 5 + q.val
    s.permitted m .control (UQ_PUSH_D i).reg .write = true →
    let w := BitVec.ofNat 64 (lo.toNat + (tget s.upl.pushHigh i 0).toNat * 2 ^ 32)
    (q ≠ 0 → q ≠ 3 → ∃ u, exec (.uqPush g q m lo) s = .next u ∧ tget u.sp.answers m (false, 0) = (true, 0) ∧
      u = { s with sp := u.sp }) ∧
    (q = 0 ∨ q = 3 → (s.queue g q).discard = false → s.cget (UG_STAT_STATE g) ≠ 2 →
      ((s.queue g q).open_.getD []).length < 256 → s.con (UQ_PUSH_TAG_END i) = false →
      ∃ u, exec (.uqPush g q m lo) s = .next u ∧ (u.queue g q).open_ = some ((s.queue g q).open_.getD [] ++ [w]) ∧
        (u.queue g q).pkts = (s.queue g q).pkts ∧ tget u.sp.answers m (false, 0) = (false, 0)) ∧
    (q = 0 ∨ q = 3 → (s.queue g q).discard = false → s.cget (UG_STAT_STATE g) ≠ 2 → s.con (UQ_PUSH_TAG_END i) = true →
      ∀ d ws, (s.queue g q).open_ = some (d :: ws) → ws.length < 255 → (s.queue g q).level + ws.length + 2 ≤ queueCapacity q →
      ∃ u p, exec (.uqPush g q m lo) s = .next u ∧ (u.queue g q).pkts = (s.queue g q).pkts ++ [p] ∧ p.words = ws ++ [w] ∧
        p.typ = d.toNat % 16 ∧ (u.queue g q).open_ = none ∧ u.con (UQ_PUSH_TAG_END i) = false)) ∧
  (∀ (s : State) (g : GrpIx) (q : QIx) (m : MasterIx) (v : W32), s.frozen m = false →
    s.permitted m .control (UQ_CTRL_FLUSH (g.val * 5 + q.val)).reg .write = true → bitAt v.toNat 0 = true → q ≠ 2 → q ≠ 4 →
    ∃ u, exec (.queueFlush g q m v) s = .next u ∧ (u.queue g q).pkts = [] ∧ (u.queue g q).open_ = none ∧
      (u.queue g q).flushed = true ∧ u.cget (UQ_PKTS_PKTS (g.val * 5 + q.val)) = 0) ∧
  (∀ (s : State) (g : GrpIx) (q : QIx) (d : W64) (ws : List W64),
    let i := g.val * 5 + q.val
    (s.queue g q).open_ = some (d :: ws) → 0 < s.cget (UQ_CFG_STALE i) → s.hibernating = false →
    (s.queue g q).openAt + s.cget (UQ_CFG_STALE i) * 10000 ≤ s.monoNs → s.cget (UG_STAT_STATE g) ≠ 2 →
    (s.queue g q).level + ws.length + 1 ≤ queueCapacity q →
    ∃ u p, exec (.queueStale g q) s = .next u ∧ (u.queue g q).pkts = (s.queue g q).pkts ++ [p] ∧ p.partial_ = true ∧ p.pad = 0 ∧
      p.words = ws ∧ (u.queue g q).discard = true ∧ u.cget (UQ_ERR_STALE i) = min (s.cget (UQ_ERR_STALE i) + 1) 255 ∧
      u.cget (UQ_STAT_STALE_SEEN i) = 1) ∧
  (∀ (s : State) (m : MasterIx), s.frozen m = false → s.permitted m .control UIQ_POP_D.reg .read = true →
    (∀ x r, s.upl.inbound = x :: r → ∃ u, exec (.uiqPop m) s = .next u ∧ u.upl.inbound = r ∧
      tget u.sp.answers m (false, 0) = (false, x.word.toNat % 2 ^ 32) ∧ u.cget UIQ_TAG_VALID = 1 ∧ u.cget UIQ_TAG_END = b2n x.end_ ∧
      u.cget UIQ_TAG_LANE = x.lane % 8) ∧
    (s.upl.inbound = [] → ∃ u, exec (.uiqPop m) s = .next u ∧ u.cget UIQ_TAG_VALID = 0 ∧
      tget u.sp.answers m (false, 0) = (false, 0) ∧ u.upl = s.upl))

/-! ### Service processor, mailbox, mover and firewall (R323–R353, R458) -/

/-- The control bus (R16, R18, R19, R347, R348): what a write and a read do under each access code; an access that no window permits is
not made and freezes its master, and a frozen master makes none.
Rests in part on the model's readings and choices in log entries 30 and 70. -/
def Obligations.RegistersObeyTheirAccessCodes : Prop :=
  (∀ (s : State) (m : MasterIx) (a v : W32), s.frozen m = true → exec (.registerWrite m a v) s = .next s) ∧
  (∀ (s : State) (m : MasterIx) (a v : W32), s.frozen m = false → s.permitted m .control a.toNat .write = false →
    ∃ u, exec (.registerWrite m a v) s = .next u ∧ u.frozen m = true ∧ u.con FWL_STAT_VIOL = true ∧
      u.cget FWL_CNT_VIOL = min (s.cget FWL_CNT_VIOL + 1) 65535 ∧
      (s.con FWL_STAT_VIOL = false → u.cget FWL_LOG0_MASTER = m.val ∧ u.cget FWL_LOG0_TYPE = 1 ∧ u.cget FWL_LOG1_KEY = a.toNat ∧
        u.cget FWL_LOG2_NS = s.tm.now.ns % 2 ^ 32) ∧
      u.freg = s.freg ∧ u.sp.cram = s.sp.cram ∧ u.sp.answers = s.sp.answers) ∧
  (∀ (s : State) (m : MasterIx) (a v : W32), s.frozen m = false → s.permitted m .control a.toNat .write = true →
    (∀ i, i < 17 → a.toNat = (TRG_SRC_PRE_PRE i).reg → ∃ u, exec (.registerWrite m a v) s = .next u ∧
      u.cget (TRG_SRC_PRE_PRE i) = v.toNat % 2 ^ 20 ∧ RegsSame s u [TRG_SRC_PRE_PRE i] ∧ u = { s with creg := u.creg, sp := u.sp }) ∧
    (∀ i, i < 8 → a.toNat = (UR_CFG_GROUP i).reg → s.glb.locked = true → v.toNat % 4 ≠ s.cget (UR_CFG_GROUP i) →
      ∃ u, exec (.registerWrite m a v) s = .next u ∧ u.cget (UR_CFG_GROUP i) = s.cget (UR_CFG_GROUP i) ∧
        tget u.sp.answers m (false, 0) = (true, 0) ∧ RegsSame s u []) ∧
    (∀ i, i < 8 → a.toNat = (UR_CFG_GROUP i).reg → s.glb.locked = false → ∃ u, exec (.registerWrite m a v) s = .next u ∧
      u.cget (UR_CFG_GROUP i) = v.toNat % 4 ∧ tget u.sp.answers m (false, 0) = (false, 0)) ∧
    (a.toNat = UIQ_STAT_FULL_SEEN.reg → ∃ u, exec (.registerWrite m a v) s = .next u ∧
      u.cget UIQ_STAT_FULL_SEEN = (if bitAt v.toNat 14 then 0 else s.cget UIQ_STAT_FULL_SEEN) ∧
      RegsSame s u [UIQ_STAT_FULL_SEEN]) ∧
    (0x2000000 ≤ a.toNat → ∃ u, exec (.registerWrite m a v) s = .next u ∧ tget u.sp.answers m (false, 0) = (true, 0) ∧
      u = { s with sp := u.sp })) ∧
  (∀ (s : State) (m : MasterIx) (a : W32), s.frozen m = false → s.permitted m .control a.toNat .read = true →
    (a.toNat = FRN_HEAD_SLICE.reg → ∃ u, exec (.lowWordRead (.conc m a)) s = .next u ∧
      tget u.sp.answers m (false, 0) = (false, s.cget FRN_HEAD_SLICE % 2 ^ 32) ∧
      (u.readReg m (FRN_HEAD_SLICE.reg + 4)).1 = s.cget FRN_HEAD_SLICE / 2 ^ 32 ∧ RegsSame s u []) ∧
    (a.toNat = TRG_CNT0_ACCEPT.reg → ∃ u, exec (.lowWordRead (.conc m a)) s = .next u ∧
      tget u.sp.answers m (false, 0) = (false, s.cget TRG_CNT0_ACCEPT + 65536 * s.cget TRG_CNT0_MERGED) ∧
      u.cget TRG_CNT0_ACCEPT = 0 ∧ u.cget TRG_CNT0_MERGED = 0 ∧ RegsSame s u [TRG_CNT0_ACCEPT, TRG_CNT0_MERGED])) ∧
  (∀ (s : State) (m : MasterIx) (v : W32), s.frozen m = false → s.permitted m .control FWL_THAW_MASTER.reg .write = true →
    ∀ k, k = v.toNat % 32 → bitAt v.toNat 5 = true →
    (1 ≤ k → k ≤ 19 → s.frozen k = true → ∃ u, exec (.thaw m v) s = .next u ∧ u.frozen k = false ∧
      (∀ j, j ≠ k → u.frozen j = s.frozen j) ∧ (k ≤ 16 → u.mvState (k - 1) = 5 ∧ u.cget (MV_CH_STAT_STATUS (k - 1)) = 14)) ∧
    (k = 0 ∨ s.frozen k = false → ∃ u, exec (.thaw m v) s = .next u ∧ u = { s with sp := u.sp })) ∧
  (∀ (s : State) (t : Nat), s.sp.bkThawAt = some t → t ≤ s.tm.tick → s.spDown = false → s.con FWL_CTRL_BK_THAW = true →
    s.frozen 17 = true → ∃ u, exec .bkThawTimer s = .next u ∧ u.frozen 17 = false ∧ u.sp.bkThawAt = none ∧ RegsSame s u [FWL_STAT_FROZEN])

/-- The service processor's hardware (R323–R329, R371): a mismatch stops the cores and a reset follows after 1 ms; a trap reloads its
page, and a second one within 1 ms or one in the handler's page resets; the watchdog and the scrubber.
Rests in part on the model's readings and choices in log entries 14, 46 and 51. -/
def Obligations.TheServiceProcessorStopsAndRestarts : Prop :=
  (∀ s : State, s.spDown = false → ∃ u, exec .lockstepMismatch s = .next u ∧ u.con SP_STAT_RUN = false ∧ u.con SP_STAT_LSERR = true ∧
    u.cget SP_EVT_LSERR = min (s.cget SP_EVT_LSERR + 1) 255 ∧ u.sp.lsTick = some s.tm.tick ∧ u.spDown = true) ∧
  (∀ (s : State) (t : Nat), s.sp.lsTick = some t → t + 250 ≤ s.tm.tick → s.con GLB_STAT_RECOVERY = false →
    ∃ u, exec .serviceSoftReset s = .next u ∧ u.spDown = false ∧ u.con SP_STAT_LSERR = s.con SP_STAT_LSERR ∧ u.sp.longs = [] ∧
      u.sp.lsTick = none ∧ (∀ c, c < 16 → s.mvState c ≠ 5 → s.mvState c ≠ 7 → u.mvState c = 6 ∧ u.cget (MV_CH_STAT_STATUS c) = 15) ∧
      u.firn = s.firn ∧ u.trg = s.trg ∧ u.ports = s.ports) ∧
  (∀ (s : State) (a : BitVec 20), s.spDown = false → s.permitted 0 .control a.toNat .fetch = false →
    ∃ u, exec (.fetchTrap a) s = .next u ∧ u.frozen 0 = true ∧ u.spDown = true ∧ u.cget FWL_CNT_VIOL = min (s.cget FWL_CNT_VIOL + 1) 65535 ∧
      u.cget SP_EVT_TRAPS = s.cget SP_EVT_TRAPS) ∧
  (∀ (s : State) (a : BitVec 20), s.spDown = false → s.permitted 0 .control a.toNat .fetch = true → 0x1000 ≤ a.toNat → (∀ t, s.sp.trapTick = some t → t + 250 < s.tm.tick) →
    ∃ u, exec (.fetchTrap a) s = .next u ∧ u.cget SP_EVT_TRAPS = min (s.cget SP_EVT_TRAPS + 1) 255 ∧ u.sp.trapTick = some s.tm.tick ∧
      u.con SP_STAT_RUN = true ∧ (∀ i, i / 512 = a.toNat / 4096 → i ∉ u.sp.cramBad)) ∧
  (∀ (s : State) (a : BitVec 20), s.spDown = false → s.con GLB_STAT_RECOVERY = false →
    s.permitted 0 .control a.toNat .fetch = true → a.toNat < 0x1000 →
    ∃ u, exec (.fetchTrap a) s = .next u ∧ u.cget SP_EVT_TRAPS = min (s.cget SP_EVT_TRAPS + 1) 255 ∧ u.sp.longs = [] ∧
      u.sp.kickTick = s.tm.tick) ∧
  (∀ (s : State) (m : MasterIx) (v : W32), s.frozen m = false → s.permitted m .control SP_WDOG_KICK.reg .write = true →
    bitAt v.toNat 0 = true → ∃ u, exec (.kick m v) s = .next u ∧ u.sp.kickTick = s.tm.tick ∧ u = { s with sp := u.sp }) ∧
  (∀ s : State, s.con SP_STAT_RUN = true → s.sp.kickTick + 125000 ≤ s.tm.tick → ∃ u, exec .watchdogExpiry s = .next u ∧
    u.cget SP_EVT_WDOG = min (s.cget SP_EVT_WDOG + 1) 255 ∧ u.sp.kickTick = s.tm.tick ∧ u.sp.longs = []) ∧
  (∀ (s : State) (b : Bool) (w : W64), s.cramWord s.sp.scrubPos = some w → s.sp.scrubPos < 131071 → s.sp.cramBad = [] →
    (∃ u, exec (.cramScrub .single b) s = .next u ∧ u.cget CR_STAT_CORR = min (s.cget CR_STAT_CORR + 1) 65535 ∧
      u.sp.scrubPos = s.sp.scrubPos + 1 ∧ u.cramWord s.sp.scrubPos = some w) ∧
    (∃ u, exec (.cramScrub .double b) s = .next u ∧ u.cget CR_STAT_UNC = min (s.cget CR_STAT_UNC + 1) 255 ∧
      u.cget CR_BAD_ADDR = 8 * s.sp.scrubPos % 2 ^ 20 ∧ u.sp.passDirty = true)) ∧
  (∀ (s : State) (b : Bool), s.sp.scrubPos = 131071 → s.sp.passDirty = false → s.sp.cramBad = [] →
    ∃ u, exec (.cramScrub .ok b) s = .next u ∧ u.con CR_STAT_CLEAN = true ∧ u.cget CR_PASS_CNT = (s.cget CR_PASS_CNT + 1) % 65536 ∧
      u.sp.scrubPos = 0)

/-- The mailbox, and the REG and RUN services (R264, R265, R329–R333): each packet is dispatched or answered with its status; REG reads
and writes words under BK's windows; RUN sets the mode and arms.
Rests in part on the model's readings and choices in log entries 7 and 58. -/
def Obligations.TheMailboxAnswersEveryPacket : Prop :=
  (∀ (s : State) (w : W64) (j : Fin 8), s.upl.inbound = [{ word := w, end_ := true, lane := j.val }] → s.upl.inLens = [8] →
    bits w.toNat 40 16 = 0 →
    let svc := bits w.toNat 8 8
    let cmd := bits w.toNat 16 8
    let tag := bits w.toNat 24 16
    ∃ u, exec .mailboxTake s = .next u ∧ u.upl.inbound = [] ∧
      (9 < svc → u.sp.taken = s.sp.taken ∧ u.sp.replies = s.sp.replies) ∧
      (svc ≤ 9 → s.preReply (s.laneOf j) svc cmd tag = none →
        (cmd ∈ serviceCommands svc → u.sp.taken = some { lane := j.val, service := svc, cmd := cmd, tag := tag, body := [] } ∧
          u.sp.replies = s.sp.replies) ∧
        (cmd ∉ serviceCommands svc → ∃ r, u.sp.replies.head? = some r ∧ r.status = 3 ∧ r.tag = tag ∧ u.sp.taken = s.sp.taken))) ∧
  (∀ (s : State) (j : Fin 8) (tag : BitVec 16) (a : W32), a.toNat % 4 = 0 → s.sp.taken = none →
    (s.preReply (s.laneOf j) 0 1 tag.toNat = none → s.permitted 17 .control a.toNat .read = true →
      ∀ d z, s.busRead 17 a.toNat = (false, d, z) →
        ∃ u r, exec (.readCmd j tag (leBytes 4 a.toNat ++ [1, 0])) s = .next u ∧ u.sp.replies.head? = some r ∧ r.status = 0 ∧
          r.tag = tag.toNat ∧ r.body = leBytes 4 d ∧ u.firn = z.firn ∧ u.freg = z.freg) ∧
    (s.preReply (s.laneOf j) 0 1 tag.toNat = none → s.permitted 17 .control a.toNat .read = false →
      ∃ u r, exec (.readCmd j tag (leBytes 4 a.toNat ++ [1, 0])) s = .next u ∧ u.sp.replies.head? = some r ∧ r.status = 6 ∧
        r.body = [] ∧ u.frozen 17 = true) ∧
    (s.preReply (s.laneOf j) 0 2 tag.toNat = none → s.permitted 17 .control a.toNat .write = true → ∀ v : W32, ∀ z,
      (s.busWriteTag 17 a.toNat v.toNat tag.toNat = (z, false) →
        ∃ u r, exec (.writeCmd j tag (leBytes 4 a.toNat ++ [1, 0] ++ leBytes 4 v.toNat)) s = .next u ∧
          u.sp.replies.head? = some r ∧ r.status = 0 ∧ u.freg = z.freg ∧ u.firn = z.firn) ∧
      (s.busWriteTag 17 a.toNat v.toNat tag.toNat = (z, true) →
        ∃ u r, exec (.writeCmd j tag (leBytes 4 a.toNat ++ [1, 0] ++ leBytes 4 v.toNat)) s = .next u ∧
          u.sp.replies.head? = some r ∧ r.status = 8 ∧ r.body = [0, 0]))) ∧
  (∀ (s : State) (j : Fin 8) (tag : BitVec 16), s.sp.taken = none → s.permitted 0 .control TRG_CTRL_MODE.reg .write = true →
    (s.preReply (s.laneOf j) 1 2 tag.toNat = none → ∀ mode : Byte, mode.toNat ≤ 2 →
      (mode.toNat = s.cget TRG_CTRL_MODE ∨ s.con TRG_CTRL_ARM = false → s.con TRG_STAT_ARMED = false → s.twinStandby = false →
        ∃ u r, exec (.startCmd j tag [mode]) s = .next u ∧ u.cget TRG_CTRL_MODE = mode.toNat ∧ u.con TRG_CTRL_ARM = true ∧
          u.trg.armAsk = true ∧ u.sp.replies.head? = some r ∧ r.status = 0) ∧
      (mode.toNat ≠ s.cget TRG_CTRL_MODE → s.con TRG_CTRL_ARM = true →
        ∃ u r, exec (.startCmd j tag [mode]) s = .next u ∧ u.cget TRG_CTRL_MODE = s.cget TRG_CTRL_MODE ∧
          u.sp.replies.head? = some r ∧ r.status = 8)) ∧
    (s.preReply (s.laneOf j) 1 3 tag.toNat = none → s.con TRG_STAT_ARMED = true → ∃ u r, exec (.stopCmd j tag []) s = .next u ∧
      u.con TRG_CTRL_ARM = false ∧ u.trg.disarmAsk = true ∧ u.sp.replies.head? = some r ∧ r.status = 0) ∧
    (s.preReply (s.laneOf j) 1 1 tag.toNat = none → ∃ u r, exec (.runStatus j tag []) s = .next u ∧
      u.sp.replies.head? = some r ∧ r.status = 0 ∧ u = { s with creg := u.creg, upl := u.upl, sp := u.sp }))

/-- The services CAL, HIST, MON, TIME and LOG (R103, R104, R331, R332, R335–R337, R458): each command's effect and its reply; a scan sends a
PULSE in each frame, and completes with its results when its last frame has been committed; a body out of range is answered BAD_ARG.
Rests in part on the model's readings and choices in log entries 6, 7, 57 and 58. -/
def Obligations.ServicesRunTheirCommands : Prop :=
  ∀ (s : State) (j : Fin 8) (tag : BitVec 16), s.sp.taken = none → (∀ svc cmd, s.preReply (s.laneOf j) svc cmd tag.toNat = none) →
    (∀ body, body.length = 16 →
      let first := bodyNat body 0 2
      let last := bodyNat body 2 2
      let sel := bodyNat body 4 1
      let start := bodyNat body 8 2
      let stop := bodyNat body 10 2
      first ≤ last → last ≤ 1023 → sel ≤ 2 → 0 < bodyNat body 5 2 → start ≤ stop → stop ≤ 1023 →
      0 < bodyNat body 12 2 → bodyNat body 14 2 = 0 → s.busy 2 = false →
      let scan : Nat → Scan := fun cmd => { cmd := cmd, first := first, last := last, sel := sel, m := bodyNat body 5 2, start := start, stop := stop, step := bodyNat body 12 2, odd := if sel = 2 then 1 else 0, value := start, base := s.scanBase first last }
      (∃ u r, exec (.thresh j tag body) s = .next u ∧ u.sp.replies.head? = some r ∧
        (if (s.spProxies (s.scanWords (scan 2))).1 = none then r.status = 1 ∧ u.sp.scan = some (scan 2) ∧ ∃ l ∈ u.sp.longs, l.service = 2 ∧ l.cmd = 2 ∧ l.tag = tag.toNat
        else r.status = 8 ∧ r.body = leBytes 2 ((s.spProxies (s.scanWords (scan 2))).1.getD 0) ∧ u.sp.longs = s.sp.longs)) ∧
      (stop / 512 = start / 512 → ∃ u r, exec (.phase j tag body) s = .next u ∧ u.sp.replies.head? = some r ∧
        (if (s.spProxies (s.scanWords (scan 3))).1 = none then r.status = 1 ∧ u.sp.scan = some (scan 3) ∧ ∃ l ∈ u.sp.longs, l.service = 2 ∧ l.cmd = 3 ∧ l.tag = tag.toNat
        else r.status = 8 ∧ r.body = leBytes 2 ((s.spProxies (s.scanWords (scan 3))).1.getD 0) ∧ u.sp.longs = s.sp.longs)) ∧
      (∃ u r, exec (.ampl j tag body) s = .next u ∧ u.sp.replies.head? = some r ∧
        (if (s.spProxies (s.scanWords (scan 4))).1 = none then r.status = 1 ∧ u.sp.scan = some (scan 4) ∧ ∃ l ∈ u.sp.longs, l.service = 2 ∧ l.cmd = 4 ∧ l.tag = tag.toNat
        else r.status = 8 ∧ r.body = leBytes 2 ((s.spProxies (s.scanWords (scan 4))).1.getD 0) ∧ u.sp.longs = s.sp.longs))) ∧
    (∀ x, s.sp.scan = some x → x.ended = false → x.gap = 0 → x.sent + 1 < x.m → ∃ u y, exec .frameTick s = .next u ∧ u.sp.scan = some y ∧
      y.sent = x.sent + 1 ∧ y.value = x.value ∧ y.recent.head? = some (u.frame + 1, x.odd, x.value) ∧
      ∀ p, x.first ≤ p → p ≤ x.last → 3 ∈ (u.port p).fastTx) ∧
    (∀ body : List Byte, body.length ≠ 16 → ∃ u r, exec (.thresh j tag body) s = .next u ∧ u.sp.replies.head? = some r ∧ r.status = 4 ∧
      u.sp.longs = s.sp.longs ∧ u.freg = s.freg) ∧
    (∃ u r, exec (.calAbort j tag []) s = .next u ∧ u.sp.replies.head? = some r ∧ r.status = 0 ∧ ∀ l ∈ u.sp.longs, l.service ≠ 2) ∧
    (∀ body, body.length = 8 → bodyNat body 0 2 ≤ 1023 → 0 < bodyNat body 2 4 → bodyNat body 2 4 ≤ 2 ^ 24 → bodyNat body 6 2 = 0 →
      (s.busy 3 = false → ∃ u r, exec (.histStart j tag body) s = .next u ∧ u.sp.replies.head? = some r ∧ r.status = 1 ∧
        u.sp.hist = some { first := bodyNat body 0 2, frames := bodyNat body 2 4, from_ := s.frame + 1 }) ∧
      (s.busy 3 = true → ∃ u r, exec (.histStart j tag body) s = .next u ∧ u.sp.replies.head? = some r ∧ r.status = 5 ∧
        u.sp.hist = s.sp.hist)) ∧
    (∃ u r, exec (.histStop j tag []) s = .next u ∧ u.sp.replies.head? = some r ∧ r.status = 0 ∧ u.sp.hist = none ∧
      ∀ l ∈ u.sp.longs, l.service ≠ 3) ∧
    (∀ l h, s.sp.longs = [l] → l.service = 3 → s.sp.hist = some h →
      (h.from_ + h.frames + 4 ≤ s.frame → ∃ u r, exec (.longCommandComplete []) s = .next u ∧ u.sp.longs = [] ∧
        u.sp.hist = none ∧ u.sp.replies.head? = some r ∧ r.status = 0 ∧ r.tag = l.tag ∧ r.group = l.group) ∧
      (s.frame < h.from_ + h.frames + 4 → exec (.longCommandComplete []) s = .next s)) ∧
    (∀ l x thr, s.sp.longs = [l] → l.service = 2 → s.sp.scan = some x →
      (x.failed = none → x.ended = true → x.endTick + 6 ≤ s.tm.tick → ∃ u r, exec (.longCommandComplete thr) s = .next u ∧ u.sp.longs = [] ∧
        u.sp.scan = none ∧ u.sp.replies.head? = some r ∧ r.status = 0 ∧ r.tag = l.tag ∧ (x.cmd = 4 → u.sp.calResults = s.calSteps x) ∧
        (x.cmd = 3 → u.sp.calResults = s.calSteps x ++ s.calSummary x)) ∧
      (∀ p, x.failed = some p → ∃ u r, exec (.longCommandComplete thr) s = .next u ∧ u.sp.longs = [] ∧ u.sp.scan = none ∧
        u.sp.replies.head? = some r ∧ r.status = 8 ∧ r.body = leBytes 2 p) ∧
      (x.failed = none → x.ended = false → exec (.longCommandComplete thr) s = .next s)) ∧
    (∀ body, body.length = 2 →
      (10 ≤ bodyNat body 0 2 → bodyNat body 0 2 ≤ 60000 → ∃ u r, exec (.period j tag body) s = .next u ∧
        u.sp.monPeriod = some (bodyNat body 0 2) ∧ u.sp.replies.head? = some r ∧ r.status = 0) ∧
      (bodyNat body 0 2 < 10 → ∃ u r, exec (.period j tag body) s = .next u ∧ u.sp.monPeriod = s.sp.monPeriod ∧
        u.sp.replies.head? = some r ∧ r.status = 4)) ∧
    (∀ n, s.sp.monPeriod = some n → s.sp.monTick + n * 250 ≤ s.tm.tick → ∃ u, exec .monSummary s = .next u ∧ u.sp.monTick = s.tm.tick) ∧
    (∃ u r, exec (.timeStatus j tag []) s = .next u ∧ u.sp.replies.head? = some r ∧ r.status = 0) ∧
    (∀ body : List Byte, body.length ≠ 10 → ∃ u r, exec (.acceptStep j tag body false) s = .next u ∧ u.sp.replies.head? = some r ∧
      r.status = 4 ∧ u.tm = s.tm) ∧
    (∀ body, body.length = 10 →
      (bodyNat body 0 2 ≠ 0xA5C3 → ∃ u r, exec (.acceptStep j tag body false) s = .next u ∧ u.sp.replies.head? = some r ∧ r.status = 6 ∧
        u.cget TIM_EVT_CNT_KEY_ERR = min (s.cget TIM_EVT_CNT_KEY_ERR + 1) (2 ^ TIM_EVT_CNT_KEY_ERR.width - 1) ∧ u.tm = s.tm) ∧
      (bodyNat body 0 2 = 0xA5C3 → s.con TIM_STAT_STEP_PEND = false → ∃ u r, exec (.acceptStep j tag body false) s = .next u ∧
        u.sp.replies.head? = some r ∧ r.status = 8 ∧ r.body = [1] ∧ u.tm = s.tm) ∧
      (bodyNat body 0 2 = 0xA5C3 → s.con TIM_STAT_STEP_PEND = true → bodyNat body 2 8 ≠ s.cget TIM_STEP_VAL_VAL →
        ∃ u r, exec (.acceptStep j tag body false) s = .next u ∧ u.sp.replies.head? = some r ∧ r.status = 4 ∧ u.tm = s.tm) ∧
      (bodyNat body 0 2 = 0xA5C3 → s.con TIM_STAT_STEP_PEND = true → bodyNat body 2 8 = s.cget TIM_STEP_VAL_VAL →
        (s.stepBlocked s.stepVal = true → ∃ u r, exec (.acceptStep j tag body false) s = .next u ∧ u.sp.replies.head? = some r ∧
          r.status = 8 ∧ r.body = [2] ∧ u.con TIM_STAT_STEP_PEND = true ∧ u.tm = s.tm) ∧
        (s.stepBlocked s.stepVal = false → (∃ u r, exec (.acceptStep j tag body true) s = .next u ∧ u.sp.replies.head? = some r ∧
          r.status = 8 ∧ r.body = [3] ∧ u.con TIM_STAT_STEP_PEND = false) ∧
        (∃ u r, exec (.acceptStep j tag body false) s = .next u ∧ u.sp.replies.head? = some r ∧ r.status = 0 ∧
          u.con TIM_STAT_STEP_PEND = false ∧ u.tm = (s.acceptStep s.stepVal).tm)))) ∧
    (s.con TIM_STAT_STEP_PEND = true → ∃ u r, exec (.withdrawStep j tag []) s = .next u ∧ u.sp.replies.head? = some r ∧ r.status = 0 ∧
      u.con TIM_STAT_STEP_PEND = false) ∧
    (s.con TIM_STAT_STEP_PEND = false → ∃ u r, exec (.withdrawStep j tag []) s = .next u ∧ u.sp.replies.head? = some r ∧ r.status = 8 ∧
      r.body = [1]) ∧
    (∀ body, body.length = 4 → 0 < bodyNat body 2 2 → bodyNat body 2 2 ≤ 1024 → ∃ u r, exec (.logRead j tag body) s = .next u ∧
      u.sp.replies.head? = some r ∧ r.status = 0 ∧ u.nvm = s.nvm)

/-- Mover channels (R338–R346): a channel starts from IDLE or HALT, checks its descriptor, moves the bytes in order, writes back and
raises its notices; it halts on an error of its own, and a bus error stops all channels.
Rests in part on the model's readings and choices in log entries 14, 45 and 56. -/
def Obligations.MoverChannelsFollowTheirStates : Prop :=
  (∀ (s : State) (c : MvIx) (m : MasterIx) (v : W32), s.frozen m = false →
    s.permitted m .control (MV_CH_CTRL_START c).reg .write = true →
    let back := s.frozen (1 + c.val) = false ∧ s.permitted (1 + c.val) .control (32 * s.cget (MV_CH_CUR_IDX c) + 24) .write = true
    (v.toNat % 8 = 1 → s.mvState c = 0 ∨ s.mvState c = 5 → ∃ u, exec (.moverStart c m v) s = .next u ∧ u.mvState c = 1) ∧
    (v.toNat % 8 = 1 → s.mvState c ≠ 0 → s.mvState c ≠ 5 → ∃ u, exec (.moverStart c m v) s = .next u ∧ u = { s with sp := u.sp }) ∧
    (v.toNat % 8 = 2 → s.mvState c = 2 → (s.mch c).fld 2 36 4 = 12 → ∃ u, exec (.moverKick c m v) s = .next u ∧ u.mvState c = 3 ∧
      (u.mch c).released = s.mvBurst c) ∧
    (v.toNat % 8 = 4 → 1 ≤ s.mvState c → s.mvState c ≤ 4 → back → ∃ u, exec (.moverAbort c m v) s = .next u ∧ u.mvState c = 5 ∧
      u.cget (MV_CH_STAT_STATUS c) = 16)) ∧
  (∀ (s : State) (c : MvIx) (ds : List W64) (z : State), s.mvState c = 1 →
    s.mvReadDesc c (32 * s.cget (MV_CH_CUR_IDX c)) 4 = (ds, true, z) → z.frozen (1 + c.val) = false → z.mvState c = 1 →
    z.cget (MV_CH_STAT_PENDING c) = 0 → z.portsDark = false →
    let x : MvCh := { desc := ds }
    (x.valid = true → ∃ u, exec (.moverFetch c .ok) s = .next u ∧ (u.mch c).desc = ds ∧ (u.mch c).moved = 0 ∧
      u.mvState c = (if x.fld 2 36 4 = 0 then 3 else 2) ∧ u.cget (MV_CH_DONE_BYTES c) = 0) ∧
    (x.valid = false → z.permitted (1 + c.val) .control (32 * z.cget (MV_CH_CUR_IDX c) + 24) .write = true →
      ∃ u, exec (.moverFetch c .ok) s = .next u ∧ u.mvState c = 5 ∧ u.cget (MV_CH_STAT_STATUS c) = 1)) ∧
  (∀ (s : State) (c : MvIx) (w : W64) (x : MvCh), s.mvState c = 3 → s.mch c = x → x.moved = 0 → x.released = 8 → x.fld 2 0 24 = 8 →
    x.fld 2 24 3 = 0 → x.fld 2 27 3 = 0 → x.fld 2 30 3 = 3 → x.fld 2 33 3 = 3 → x.fld 2 44 1 = 0 →
    let a := (x.desc.getD 0 0).toNat
    let b := (x.desc.getD 1 0).toNat
    a % 8 = 0 → b % 8 = 0 → s.frozen (1 + c.val) = false → s.permitted (1 + c.val) .control a .read = true →
    s.permitted (1 + c.val) .control b .write = true → s.cramWord (a / 8) = some w → a / 8 ∉ s.sp.cramBad →
    ∃ u, exec (.moverBurstDone c 8) s = .next u ∧ u.cramWord (b / 8) = some w ∧ u.cget (MV_CH_DONE_BYTES c) = 8 ∧ u.mvState c = 4 ∧
      (∀ i, i ≠ b / 8 → u.cramWord i = s.cramWord i)) ∧
  (∀ (s : State) (c : MvIx), s.mvState c = 4 → s.frozen (1 + c.val) = false →
    s.permitted (1 + c.val) .control (32 * s.cget (MV_CH_CUR_IDX c) + 24) .write = true → (s.mch c).fld 2 45 1 = 0 →
    ∃ u, exec (.moverWriteback c) s = .next u ∧ u.cget (MV_CH_STAT_STATUS c) = 0 ∧
      u.cramWord (4 * s.cget (MV_CH_CUR_IDX c) + 3) = some ((s.mch c).word3 true 0) ∧
      ((s.mch c).fld 3 15 1 = 1 → u.mvState c = 0) ∧
      ((s.mch c).fld 3 15 1 = 0 → u.mvState c = 1 ∧ u.cget (MV_CH_CUR_IDX c) = (s.mch c).fld 3 0 15)) ∧
  (∀ (s : State) (n : Fin 8) (c : MvIx), s.cget (MV_TMR_PERIOD n) ≠ 0 → s.mvState c = 2 → (s.mch c).fld 2 36 4 = n.val + 1 →
    (tget s.sp.tmrAt n 0 + 2 * s.cget (MV_TMR_PERIOD n) < (s.tm.tick + 1) * 4000 →
      ∃ u, exec (.mvTimer n) s = .next u ∧ u.mvState c = 3 ∧ (u.mch c).released = s.mvBurst c) ∧
    ((s.tm.tick + 1) * 4000 ≤ tget s.sp.tmrAt n 0 + 2 * s.cget (MV_TMR_PERIOD n) → exec (.mvTimer n) s = .next s)) ∧
  (∀ (s : State) (c : MvIx), s.frozen (1 + c.val) = false →
    s.permitted (1 + c.val) .control (32 * s.cget (MV_CH_CUR_IDX c) + 24) .write = true →
    (s.mvState c = 2 → (s.mch c).waitTick + 2500 * max 1 (s.cget (MV_CH_CFG_PTMO c)) ≤ s.tm.tick →
      ∃ u, exec (.paceTimeout c) s = .next u ∧ u.mvState c = 5 ∧ u.cget (MV_CH_STAT_STATUS c) = 9) ∧
    (∀ t, s.mvState c = 3 → s.upl.inbound = [] → (s.mch c).emptyAt = some t →
      t + 1000 * max 1 (s.cget MV_CTRL_QTMO) < (s.tm.tick + 1) * 4000 → ∃ u, exec (.qemptyTimeout c) s = .next u ∧ u.mvState c = 5 ∧ u.cget (MV_CH_STAT_STATUS c) = 7) ∧
    ((s.mch c).powerWait = true → (s.mch c).powerTick + 16 ≤ s.tm.tick → ∃ u, exec (.powerDownWaitExpiry c) s = .next u ∧ u.mvState c = 5 ∧
      u.cget (MV_CH_STAT_STATUS c) = 10 ∧ u.cget MV_ERR_CH = c.val ∧ u.cget MV_ERR_STATUS = 10)) ∧
  (∀ (s : State) (c d : MvIx) (a : W64) (last : Bool), s.mvState c = 3 → c ≠ d → s.mvState d ≠ 5 → s.mvState d ≠ 7 →
    ∃ u, exec (.busError c a last) s = .next u ∧ u.mvState c = 6 ∧ u.cget (MV_CH_STAT_STATUS c) = (if last then 13 else 11) ∧
      u.mvState d = 6 ∧ u.cget (MV_CH_STAT_STATUS d) = 12 ∧ u.con MV_STAT_STOP = true ∧ u.cget MV_ERRADDR_ADDR = a.toNat ∧
      u.cget MV_ERR_CH = c.val) ∧
  (∀ (s : State) (m : MasterIx) (v : W32) (c : MvIx), s.frozen m = false → s.permitted m .control MV_CTRL_CLEAR.reg .write = true →
    bitAt v.toNat 0 = true → s.mvState c = 6 → ∃ u, exec (.clear m v) s = .next u ∧ u.mvState c = 0 ∧
      u.cget MV_CTRL_QTMO = bits v.toNat 8 8)

/-! ### Start-up, resets, power states and the field update (R355–R381) -/

/-- The concentrator's start and resets (R355, R359–R362, R365, R371, R373): what power-on, `RESET_N`, the configuration, READY, SOFT and
region resets leave.
Rests in part on the model's readings and choices in log entries 12, 14, 48, 49, 51, 59, 101 and 103. -/
def Obligations.StartAndResetsOfTheConcentrator : Prop :=
  (∀ (s : State) (cause : BitVec 3) (straps : BitVec 2), s.pro.shutdown = false → s.pro.rcause = 0 → s.nvm.journal = [] →
    (∃ u, exec (.powerOnReset cause straps none none) s = .next u ∧ u.cget GLB_STAT_RCAUSE = cause.toNat ∧
      u.cget PRO_STAT_STRAP = straps.toNat ∧ u.con GLB_STAT_READY = false ∧ u.cget GLB_STAT_STATE = 0 ∧ u.con GLB_STAT_RECOVERY = true ∧
      u.con SP_STAT_RUN = false ∧ u.freg = s.freg ∧ u.fes = s.fes ∧ u.nvm.log = s.nvm.log ∧ (s.nvm.slot0.seen = true → u.nvm.slot0 = s.nvm.slot0)) ∧
    (∀ h : ImgRead, imgVerifies h.bytes h.sigOk = true → s.nvm.slot0.seen = false ∨ s.nvm.slot0.bytes = h.bytes → s.cget NVM_SLOT_ACTIVE = 0 →
      s.cget NVM_SLOT_S0 = 3 →
      (∃ u, exec (.powerOnReset cause straps (some h) none) s = .next u ∧ u.con GLB_STAT_RECOVERY = false ∧ u.con SP_STAT_RUN = true ∧
        u.sp.fw = some 0 ∧ u.cget (NVM_VER_VER 0) = (imgHdr h.bytes).imgVer.toNat ∧ u.cget NVM_SLOT_S0 = 3 ∧ u.nvm.slot0.bytes = h.bytes) ∧
      (∀ n, 1000 ≤ n → ∃ u, exec (.resetN n false straps (some h) none) s = .next u ∧ u.cget GLB_STAT_RCAUSE = 1 ∧
        u.con SP_STAT_RUN = true ∧ u.con GLB_STAT_READY = false))) ∧
  (∀ (s : State) (h : ImgRead) (cause : BitVec 3) (straps : BitVec 2), s.pro.shutdown = false → s.nvm.journal = [.slot 1] →
    imgVerifies h.bytes h.sigOk = true → s.nvm.slot0.seen = false ∨ s.nvm.slot0.bytes = h.bytes → s.cget NVM_SLOT_ACTIVE = 0 → s.cget NVM_SLOT_S0 = 3 →
    ∃ u, exec (.powerOnReset cause straps (some h) (some h)) s = .next u ∧ u.cget NVM_SLOT_S1 = 0 ∧ u.con NVM_STAT_JRECOV = true ∧
      u.cget NVM_SLOT_ACTIVE = 0 ∧ (u.nvm.slot 1).bytes = []) ∧
  (∀ (s : State) (n : Nat) (acts : Bool) (straps : BitVec 2) (a b : Option ImgRead), n < 800 → exec (.resetN n acts straps a b) s = .next s) ∧
  (∀ (s : State) (b0 b1 : List Byte), s.con GLB_STAT_READY = false → s.glb.configured = false →
    let c0 := containerOf b0
    let c1 := containerOf b1
    (s.nvm.known = false → containerValid c0 = false → containerValid c1 = false → ∃ u, exec (.configApply b0 b1) s = .next u ∧
      u.con GLB_STAT_CFG_DEFAULT = true ∧ u.glb.configured = true ∧ u.nvm.inUse = none ∧ RegsSame s u [GLB_STAT_CFG_DEFAULT]) ∧
    (s.nvm.known = false → containerValid c0 = true → containerValid c1 = true → ∃ u, exec (.configApply b0 b1) s = .next u ∧
      u.nvm.inUse = some (if c0.gen.toNat < c1.gen.toNat then 1 else 0)) ∧
    (∀ (k : Byte) (v : W32), s.nvm.known = false → containerValid c0 = true → containerValid c1 = false →
      c0.recs = [.ident k, .reg (BitVec.ofNat 32 FRN_CTRL_QUOTA.reg) v] → ∃ u, exec (.configApply b0 b1) s = .next u ∧
      u.cget GLB_CID_CID = k.toNat ∧ u.cget NVM_CFGGEN_GEN = c0.gen.toNat ∧ u.nvm.inUse = some 0 ∧
      (5 ≤ v.toNat % 64 → v.toNat % 64 ≤ 50 → u.cget FRN_CTRL_QUOTA = v.toNat % 64) ∧
      (v.toNat % 64 < 5 ∨ 50 < v.toNat % 64 → u.cget FRN_CTRL_QUOTA = 25 ∧ u.con GLB_STAT_CFG_FIX = true)) ∧
    (s.nvm.known = true → containerValid s.nvm.cont0 = true → containerValid s.nvm.cont1 = false → s.nvm.cont0.recs = [] →
      ∃ u, exec (.configApply b0 b1) s = .next u ∧ u.nvm.inUse = some 0 ∧ u.nvm.cont0 = s.nvm.cont0 ∧
      u.cget NVM_CFGGEN_GEN = s.nvm.cont0.gen.toNat)) ∧
  (∀ (s : State) (ms : Nat), s.con GLB_STAT_READY = false → s.glb.configured = true → s.con FRN_STAT_READY = true →
    ∃ u, exec (.ready ms) s = .next u ∧ u.con GLB_STAT_READY = true ∧ u.cget GLB_STAT_STATE = 1 ∧ u.glb.locked = true ∧
      u.cget GLB_START_READY_MS = min 4095 (ms / 2) ∧ (s.con TWIN_CFG_EN = true → u.cget TWIN_STAT_ROLE = 1) ∧
      u.upl.alarms = (if s.con GLB_STAT_CFG_DEFAULT = true then (s.upl.alarms + 1) % 2 ^ 32 else s.upl.alarms) ∧
      ∀ g, g < s.groupCount → u.groupRun g = true) ∧
  (∀ (s : State) (m : MasterIx) (v : W32), s.frozen m = false → s.permitted m .control GLB_RST_SOFT.reg .write = true →
    (bits v.toNat 16 16 ≠ 0xC3A5 → ∃ u, exec (.soft m v) s = .next u ∧ u = { s with sp := u.sp }) ∧
    (bits v.toNat 16 16 = 0xC3A5 → bits v.toNat 4 4 = 0 → bitAt v.toNat 0 = true → s.con GLB_STAT_RECOVERY = false →
      ∃ u, exec (.soft m v) s = .next u ∧ u.con SP_STAT_RUN = true ∧ u.sp.longs = [] ∧ u.firn = s.firn ∧ u.trg = s.trg ∧
        u.ports = s.ports ∧ (∀ c, c < 16 → s.mvState c ≠ 5 → s.mvState c ≠ 7 → u.mvState c = 6)) ∧
    (∀ r : RgnIx, bits v.toNat 16 16 = 0xC3A5 → bits v.toNat 4 4 = 2 ^ r.val → bitAt v.toNat 0 = false →
      (s.rgn r).resetting = false → ∃ u, exec (.region m v) s = .next u ∧ (u.rgn r).resetting = true ∧
        u.con (RG_STAT_RESET_SEEN r) = true ∧ (∀ p, p / 256 = r.val → u.plState p = 0) ∧ u.sp.longs = s.sp.longs)) ∧
  (∀ (s : State) (r : RgnIx),
    ((s.rgn r).resetting = false → ∃ u, exec (.regionReset r) s = .next u ∧ (u.rgn r).resetting = true ∧
      u.con (RG_STAT_RESET_SEEN r) = true ∧ (∀ p, p / 256 = r.val → u.plState p = 0)) ∧
    ((s.rgn r).resetting = true → exec (.regionReset r) s = .next s ∧ ∃ u, exec (.regionRecovered r) s = .next u ∧
      (u.rgn r).resetting = false ∧ RegsSame s u []))

/-- The power states (R366, R369, R370) and the front-end's soft reset (R372, R373): a request starts, holds or is ignored; a transition
ends after its time.
Rests in part on the model's readings and choices in log entries 14 and 51. -/
def Obligations.PowerStatesFollowTheirRequests : Prop :=
  (∀ (s : State) (m : MasterIx) (v : W32) (c : Instr), s.frozen m = false → s.permitted m .control GLB_PWR_REQ.reg .write = true →
    c = .powerRequestRun m v ∨ c = .powerRequestIdle m v ∨ c = .powerRequestHibernate m v →
    let r := v.toNat % 4
    let free := s.con GLB_STAT_READY = true ∧ s.glb.trans = none ∧ s.pro.actions.contains 8 = false
    (r = 3 → ∃ u, exec c s = .next u ∧ u = { s with sp := u.sp }) ∧
    (r ≠ 3 → s.glb.trans.isSome = true → ∃ u, exec c s = .next u ∧ u.glb = { s.glb with heldReq := some (r + 1) } ∧ u.cget GLB_PWR_REQ = r ∧
      RegsSame s u [GLB_PWR_REQ]) ∧
    (r = 1 ∨ r = 2 → free → s.cget GLB_STAT_STATE = 1 → ∃ u, exec c s = .next u ∧ u.glb.trans = some (1, 2, s.tm.tick) ∧
      u.con GLB_STAT_TRANS = true ∧ u.con TRG_STAT_PWR_HELD = (s.con TRG_STAT_ARMED || s.trg.armAsk || s.con TRG_STAT_PWR_HELD) ∧
      u.trg.armAsk = false ∧ u.trg.disarmAsk = s.con TRG_STAT_ARMED ∧ (r = 2 → u.glb.heldReq = some 3) ∧
      (∀ p ∈ s.portsInRun, 6 ∈ (u.port p).fastNext)) ∧
    (r = 0 → free → s.cget GLB_STAT_STATE = 2 → ∃ u, exec c s = .next u ∧ u.glb.trans = some (2, 1, s.tm.tick) ∧
      (∀ p ∈ s.portsInRun, 7 ∈ (u.port p).fastNext)) ∧
    (r = 2 → free → s.cget GLB_STAT_STATE = 2 → ∃ u, exec c s = .next u ∧ u.glb.trans = some (2, 3, s.tm.tick))) ∧
  (∀ s : State, s.glb.trans = none → exec .transitionComplete s = .next s) ∧
  (∀ (s : State) (k : Nat), s.glb.heldReq = none → s.pro.actions.contains 8 = false →
    (s.glb.trans = some (1, 2, k) → (s.tm.tick < k + 2 → exec .transitionComplete s = .next s) ∧
      (k + 2 ≤ s.tm.tick → ∃ u, exec .transitionComplete s = .next u ∧ u.cget GLB_STAT_STATE = 2 ∧ u.con GLB_STAT_TRANS = false ∧
        u.glb.trans = none ∧ (s.trg.disarmAsk = true → u.con TRG_STAT_ARMED = false))) ∧
    (s.glb.trans = some (2, 1, k) → (s.tm.tick < k + 29 → exec .transitionComplete s = .next s) ∧
      (k + 29 ≤ s.tm.tick → ∃ u, exec .transitionComplete s = .next u ∧ u.cget GLB_STAT_STATE = 1 ∧ u.glb.trans = none ∧
        (s.con TRG_STAT_PWR_HELD = true → u.con TRG_STAT_ARMED = true ∧ u.con TRG_STAT_PWR_HELD = false))) ∧
    (s.glb.trans = some (2, 3, k) → ((∃ c, c < 16 ∧ (s.mch c).powerWait = true) → exec .transitionComplete s = .next s) ∧
      ((∀ c, c < 16 → (s.mch c).powerWait = false) → ∃ u, exec .transitionComplete s = .next u ∧ u.cget GLB_STAT_STATE = 3 ∧
        u.con FRN_STAT_HIB = true ∧ u.glb.trans = none ∧ (∀ e ∈ s.ports, e.1 < 1024 → u.plState e.1 = 0) ∧
        ∀ g, g < 4 → u.groupRun g = false)) ∧
    (s.glb.trans = some (3, 2, k) → ∃ u, exec .transitionComplete s = .next u ∧ u.cget GLB_STAT_STATE = 2 ∧ u.con FRN_STAT_HIB = false ∧
      ∀ g, g < s.groupCount → u.groupRun g = true)) ∧
  (∀ (s : State) (p : PortIx) (q : FaceIx) (v : W32), s.feLive p = true → s.writesObeyed p q = true →
    (bits v.toNat 16 16 = 0xC3A5 → bitAt v.toNat 0 = true → ∃ u, exec (.feSoftResetWrite p q v) s = .next u ∧
      (u.fe p).softPending = true ∧ u.freg = s.freg ∧ u.chans = s.chans) ∧
    (bits v.toNat 16 16 ≠ 0xC3A5 → exec (.feSoftResetWrite p q v) s = .next s)) ∧
  (∀ (s : State) (p : PortIx), ((s.fe p).softPending = false → exec (.feSoftReset p) s = .next s) ∧
    ((s.fe p).softPending = true → ∃ u, exec (.feSoftReset p) s = .next u ∧ (u.fe p).softPending = false ∧ u.fget p FE_RSTAT_CAUSE = 1 ∧
      u.fget p FE_RSTAT_SOFTS = min (s.fget p FE_RSTAT_SOFTS + 1) 255 ∧
      (tsorted s.chans = true → ∀ c, c < 512 → (u.ch p c).orphan = 0 ∧ (u.ch p c).pileup = 0 ∧ (u.ch p c).valRej = 0 ∧
        (u.ch p c).intA = (s.ch p c).intA ∧ (u.ch p c).intB = (s.ch p c).intB) ∧
      u.creg = s.creg ∧ u.blks = s.blks))

/-- Images and containers through the mailbox (R355–R357, R364, R374) and the log (R380, R381): an image is written to the inactive slot and
verified there; a container to the copy not in use.
Rests in part on the model's readings and choices in log entries 11, 21, 48, 59, 101 and 103. -/
def Obligations.ImagesContainersAndTheLog : Prop :=
  (∀ (s : State) (j : Fin 8) (tag : BitVec 16), s.sp.taken = none → (∀ cmd, s.preReply (s.laneOf j) 7 cmd tag.toNat = none) →
    let n := s.spareSlot
    let got := (s.nvm.slot n).bytes
    (∃ u r, exec (.updStatus j tag []) s = .next u ∧ u.sp.replies.head? = some r ∧ r.status = 0 ∧ r.body.length = 28 ∧ u.nvm = s.nvm) ∧
    (∀ t, t ≤ 67108864 →
      (4096 ≤ t → s.updBusy = false → ∃ u r, exec (.imgBegin j tag (leBytes 4 t)) s = .next u ∧ u.sp.replies.head? = some r ∧ r.status = 0 ∧
        u.cget (slotState n) = 0 ∧ u.nvm.imgTotal = some t ∧ u.nvm.slot n = { seen := true } ∧ u.cget UPD_STAT_STATE = 1 ∧ u.cget UPD_PROG_BYTES = 0 ∧
        u.nvm.slot (1 - n) = s.nvm.slot (1 - n)) ∧
      (4096 ≤ t → s.updBusy = true → ∃ u r, exec (.imgBegin j tag (leBytes 4 t)) s = .next u ∧ u.sp.replies.head? = some r ∧ r.status = 5 ∧
        u.nvm = s.nvm) ∧
      (t < 4096 → ∃ u r, exec (.imgBegin j tag (leBytes 4 t)) s = .next u ∧ u.sp.replies.head? = some r ∧ r.status = 4 ∧ u.nvm = s.nvm)) ∧
    (∀ t data off, s.nvm.imgTotal = some t → s.nvm.imgFrom = none → t ≤ 67108864 → off ≤ 67108864 → got.length + data.length ≤ t →
      (off = got.length → ∃ u r, exec (.imgData j tag (leBytes 4 off ++ data)) s = .next u ∧ u.sp.replies.head? = some r ∧ r.status = 0 ∧
        (u.nvm.slot n).bytes = got ++ data ∧ u.cget UPD_PROG_BYTES = got.length + data.length) ∧
      (off ≠ got.length → ∃ u r, exec (.imgData j tag (leBytes 4 off ++ data)) s = .next u ∧ u.sp.replies.head? = some r ∧ r.status = 4 ∧
        u.nvm = s.nvm)) ∧
    (s.nvm.imgFrom = none → s.nvm.imgTotal = some got.length → ∃ u r, exec (.imgEnd j tag []) s = .next u ∧ u.sp.replies.head? = some r ∧
      r.status = 1 ∧ u.cget UPD_STAT_STATE = 2 ∧ u.nvm.imgTotal = none ∧ u.nvm.imgId = crc32c (got.take 4096) ∧ ∃ l ∈ u.sp.longs, l.service = 7 ∧ l.cmd = 4 ∧ l.tag = tag.toNat) ∧
    (∀ t, s.updBusy = false → t ≤ 8388608 → ∃ u r, exec (.cfgBegin j tag (leBytes 4 t)) s = .next u ∧ u.sp.replies.head? = some r ∧
      r.status = 0 ∧ u.nvm = { s.nvm with cfgBuf := some (t, []) }) ∧
    (∀ t bs data, s.nvm.cfgBuf = some (t, bs) → t ≤ 8388608 → bs.length + data.length ≤ t →
      ∃ u r, exec (.cfgData j tag (leBytes 4 bs.length ++ data)) s = .next u ∧ u.sp.replies.head? = some r ∧ r.status = 0 ∧
        u.nvm = { s.nvm with cfgBuf := some (t, bs ++ data) }) ∧
    (∀ bs, s.nvm.cfgBuf = some (bs.length, bs) →
      (∀ rs, parseContainer bs = some rs → guardOf rs = none → s.nvm.inUse = some 0 → ∃ u r, exec (.cfgCommit j tag []) s = .next u ∧
        u.sp.replies.head? = some r ∧ r.status = 1 ∧ u.nvm.cfgBuf = none ∧ u.nvm.inUse = some 0 ∧ u.nvm.cont0 = s.nvm.cont0 ∧
        u.nvm.cont1.gen = s.nvm.cont0.gen + 1 ∧ u.nvm.cont1.recs = rs ++ (guardOf s.nvm.cont0.recs).toList) ∧
      (parseContainer bs = none → ∃ u r, exec (.cfgCommit j tag []) s = .next u ∧ u.sp.replies.head? = some r ∧ r.status = 8 ∧
        u.nvm = { s.nvm with cfgBuf := none }) ∧
      (∀ rs, parseContainer bs = some rs → guardOf rs ≠ none → ∃ u r, exec (.cfgCommit j tag []) s = .next u ∧
        u.sp.replies.head? = some r ∧ r.status = 4 ∧ u.nvm = { s.nvm with cfgBuf := none }))) ∧
  (∀ (s : State) (sigOk : Bool) (l : LongCmd), s.cget UPD_STAT_STATE = 2 → s.nvm.imgFrom = none → s.sp.longs = [l] → l.service = 7 → l.cmd = 4 →
    let n := s.spareSlot
    let bs := (s.nvm.slot n).bytes
    (imgVerifies bs sigOk = true → s.onward = [] → ∃ u r, exec (.imageVerified sigOk) s = .next u ∧
      u.cget (slotState n) = 1 ∧ u.cget (NVM_VER_VER n) = bodyNat bs 4 4 ∧ u.nvm.slot n = s.nvm.slot n ∧ u.cget UPD_STAT_STATE = 0 ∧
      u.cget UPD_STAT_NODES = 1 ∧ u.sp.longs = [] ∧ u.sp.replies.head? = some r ∧ r.status = 0 ∧ r.tag = l.tag ∧ r.body = [1]) ∧
    (bs.length < 4096 ∨ sigOk = false ∨ bodyNat bs 0 4 ≠ 0xDC10F1A1 ∨ (bs.drop 24).take 32 ≠ sha256 ((bs.drop 4096).take (bodyNat bs 8 4)) →
      ∃ u r, exec (.imageVerified sigOk) s = .next u ∧ u.cget (slotState n) = s.cget (slotState n) ∧
      u.cget UPD_STAT_STATE = 6 ∧ u.cget UPD_STAT_REASON = 2 ∧ u.sp.replies.head? = some r ∧ r.status = 8 ∧ r.body = [2, 0])) ∧
  (∀ s : State, s.pro.shutdown = true → s.pro.tripTick + 500 < s.tm.tick → exec .nvmProgramDone s = .next s) ∧
  (∀ (s : State) (l : LongCmd) (n g : Nat), s.pro.shutdown = false ∨ s.tm.tick ≤ s.pro.tripTick + 500 → s.nvm.journal = [.container n] →
    (s.nvm.cut = true → exec .nvmProgramDone s = .next s) ∧
    (s.nvm.cut = false → s.sp.longs = [l] → l.service = 7 → l.cmd = 0x12 → l.arg = [g] → ∃ u r, exec .nvmProgramDone s = .next u ∧
      u.nvm.journal = [] ∧ u.con NVM_STAT_BUSY = false ∧ u.sp.longs = [] ∧ u.sp.replies.head? = some r ∧ r.status = 0 ∧
      r.body = leBytes 8 g)) ∧
  (∀ (s : State) (e : LogEntry), s.pro.shutdown = false ∨ s.tm.tick ≤ s.pro.tripTick + 500 → s.nvm.journal = [.log] → s.nvm.cut = false → s.nvm.logBusy = 1 → s.nvm.pending = [e] →
    ∃ u, exec .nvmProgramDone s = .next u ∧ (∀ d, tget u.nvm.log (e.seq % 65536) d = e) ∧ u.nvm.pending = [] ∧ u.cget MRN_STAT_PEND = 0) ∧
  (∀ s : State, s.nvm.journal = [.logErase] → s.nvm.cut = false → s.nvm.pending = [] → ∃ u, exec .logPageEraseDone s = .next u ∧
    u.nvm.erasedPage = some ((s.nvm.page + 1) % 1024) ∧ u.nvm.journal = []) ∧
  (∀ (s : State) (code tag : BitVec 16) (a v o : W32) (actor : Byte) (pwd : Bool) (d5 d6 : W64), s.nvm.overflow = 0 →
    (s.nvm.pending.length < 1024 → ∃ u, exec (.moraineEntry code a v o actor pwd tag d5 d6) s = .next u ∧
      u.cget MRN_SEQ_SEQ = (s.cget MRN_SEQ_SEQ + 1) % 2 ^ 64 ∧ u.cget MRN_STAT_PEND = s.nvm.pending.length + 1 ∧
      u.nvm.pending = s.nvm.pending ++ [{ seq := s.cget MRN_SEQ_SEQ, time := s.tm.now, qual := s.qual, code := code.toNat, addr := a.toNat
                                          val := v.toNat, old := o.toNat, actor := actor.toNat, pwd := pwd, tag := tag.toNat
                                          d5 := d5.toNat, d6 := d6.toNat }]) ∧
    (1024 ≤ s.nvm.pending.length → ∃ u, exec (.moraineEntry code a v o actor pwd tag d5 d6) s = .next u ∧
      u.nvm.pending = s.nvm.pending ∧ u.cget MRN_STAT_LOST = min (s.cget MRN_STAT_LOST + 1) 65535 ∧ u.upl = s.upl))

/-- The chain of neighbours, activation and the trial (R375–R379): frames carry an image on, block by block; a slot's image is tried for 600 s
and confirmed, or the node falls back.
Rests in part on the model's readings and choices in log entries 4, 14, 63 and 100. -/
def Obligations.ChainActivationAndTrial : Prop :=
  (∀ (s : State) (f : UpdFrame) (h : List Byte), s.frozen 18 = true → exec (.offer f h) s = .next s ∧ exec (.ack f) s = .next s ∧
    exec (.done f) s = .next s ∧ exec (.halt f) s = .next s ∧ exec (.updFrameActivate f) s = .next s ∧ exec (.confirmed f) s = .next s) ∧
  (∀ (s : State) (f : UpdFrame) (h : List Byte), s.frozen 18 = false → s.neighbour f.up = true →
    let id := f.image.toNat
    let len := bodyNat h 8 4
    (h.length ≠ f.len.toNat ∨ 1024 < h.length ∨ f.crc.toNat ≠ crc32c h → exec (.offer f h) s = .next s) ∧
    (h.length = f.len.toNat → h.length ≤ 1024 → f.crc.toNat = crc32c h →
      (s.updBusy = true → ∃ u, exec (.offer f h) s = .next u ∧ u = { s with svcTx := .update f.up (updFrame 3 1 0 0 id []) :: s.svcTx }) ∧
      (s.updBusy = false → 67104768 < len → ∃ u, exec (.offer f h) s = .next u ∧
        u = { s with svcTx := .update f.up (updFrame 7 2 0 0 id []) :: s.svcTx }) ∧
      (s.updBusy = false → len ≤ 67104768 → ∃ u, exec (.offer f h) s = .next u ∧ u.nvm.imgTotal = some (4096 + len) ∧
        u.nvm.imgFrom = some f.up ∧ u.nvm.imgId = id ∧ u.cget (slotState s.spareSlot) = 0 ∧ u.cget UPD_STAT_STATE = 1 ∧
        u.svcTx = .update f.up (updFrame 3 0 0 0 id []) :: s.svcTx))) ∧
  (∀ (s : State) (f : UpdFrame) (data : List Byte) (t : Nat), s.nvm.imgTotal = some t → s.nvm.imgFrom = some f.up → s.frozen 18 = false →
    let got := (s.nvm.slot s.spareSlot).bytes
    let now := got.length + data.length
    (data.length ≠ f.len.toNat ∨ f.crc.toNat ≠ crc32c data ∨ f.image.toNat ≠ s.nvm.imgId → exec (.updData f data) s = .next s) ∧
    (data.length = f.len.toNat → data.length ≤ 1024 → f.crc.toNat = crc32c data → f.image.toNat = s.nvm.imgId →
      f.block.toNat * 1024 = got.length → now ≤ t → ∃ u, exec (.updData f data) s = .next u ∧
      (u.nvm.slot s.spareSlot).bytes = got ++ data ∧
      u.svcTx = .update f.up (updFrame 3 0 0 ((now + 1023) / 1024) s.nvm.imgId []) :: s.svcTx ∧
      (now = t → u.cget UPD_STAT_STATE = 2 ∧ u.nvm.imgTotal = none) ∧
      (now < t → u.cget UPD_STAT_STATE = s.cget UPD_STAT_STATE ∧ u.nvm.imgTotal = some t))) ∧
  (∀ (s : State) (f : UpdFrame), s.frozen 18 = false → s.cget UPD_STAT_STATE = 3 → (s.side f.up).offered = true → (s.side f.up).absent = false →
    f.image.toNat = s.nvm.imgId →
    (f.reason = 0 → (s.side f.up).done = false → ∃ u, exec (.ack f) s = .next u ∧ (u.side f.up).active = true ∧
      (u.side f.up).acked = max (s.side f.up).acked f.block.toNat ∧ u.cget UPD_STAT_STATE = 3) ∧
    (f.reason ≠ 0 → (s.side f.up).done = false → ∃ u, exec (.ack f) s = .next u ∧ u.cget UPD_STAT_STATE = 6 ∧
      u.cget UPD_STAT_REASON = f.reason.toNat) ∧
    (s.onward = [f.up] → ∃ u, exec (.done f) s = .next u ∧ (u.side f.up).done = true ∧ u.cget UPD_STAT_STATE = 0 ∧
      u.cget UPD_STAT_NODES = (1 + f.count.toNat) % 256)) ∧
  (∀ (s : State) (f : UpdFrame), s.frozen 18 = false → s.neighbour f.up = true → s.nvm.imgFrom ≠ some f.up → f.image.toNat = s.nvm.imgId →
    ∃ u, exec (.halt f) s = .next u ∧ u.cget UPD_STAT_STATE = 6 ∧ u.cget UPD_STAT_REASON = f.reason.toNat ∧
      (s.nvm.imgFrom = some (!f.up) →
        u.svcTx = .update (!f.up) (updFrame 7 f.reason.toNat f.count.toNat 0 s.nvm.imgId []) :: s.svcTx)) ∧
  (∀ (s : State) (up : Bool), s.onward = [up] → s.cget UPD_STAT_STATE = 3 →
    ((s.side up).offered = true → (s.side up).active = false → (s.side up).absent = false → (s.side up).count = 0 →
      (s.tm.tick < (s.side up).offerTick + 25000 → exec (.neighbourAbsent up) s = .next s) ∧
      ((s.side up).offerTick + 25000 ≤ s.tm.tick → ∃ u, exec (.neighbourAbsent up) s = .next u ∧ (u.side up).absent = true ∧
        u.cget UPD_STAT_STATE = 0 ∧ u.cget UPD_STAT_NODES = 1)) ∧
    ((s.side up).active = true → (s.side up).done = false → (s.side up).offerTick + 5000 ≤ s.tm.tick →
      ((s.side up).resends < 16 → ∃ u, exec (.resendTimeout up) s = .next u ∧ (u.side up).resends = (s.side up).resends + 1 ∧
        (u.side up).offerTick = s.tm.tick ∧ (u.side up).acked = (s.side up).acked) ∧
      (16 ≤ (s.side up).resends → ∃ u, exec (.resendTimeout up) s = .next u ∧ u.cget UPD_STAT_STATE = 6 ∧ u.cget UPD_STAT_REASON = 6))) ∧
  (∀ (s : State) (j : Fin 8) (tag : BitVec 16), s.sp.taken = none → (∀ cmd, s.preReply (s.laneOf j) 7 cmd tag.toNat = none) →
    s.updBusy = false → ∀ c, (c = .activate j tag [0] ∨ c = .rollback j tag []) →
    let n := s.spareSlot
    (∀ h, s.activeImage n = some h → (∀ b, s.activateReason h b = 0) → ∃ u r, exec c s = .next u ∧ u.sp.replies.head? = some r ∧ r.status = 1 ∧
      u.cget NVM_SLOT_ACTIVE = n ∧ u.cget (slotState n) = 2 ∧ u.con NVM_SLOT_TRIAL = true ∧ u.cget NVM_SLOT_TRIAL_LEFT = 600 ∧
      u.cget UPD_STAT_STATE = 5 ∧ u.nvm.fallback = 1 - n ∧ u.nvm.trialTick = s.tm.tick ∧
      u.nvm.imgId = crc32c ((s.nvm.slot n).bytes.take 4096)) ∧
    (∀ h k, s.activeImage n = some h → k ≠ 0 → (∀ b, s.activateReason h b = k) → ∃ u r, exec c s = .next u ∧ u.sp.replies.head? = some r ∧
      r.status = 8 ∧ r.body = [BitVec.ofNat 8 k, 0] ∧ u.nvm = s.nvm ∧ u.cget NVM_SLOT_ACTIVE = s.cget NVM_SLOT_ACTIVE) ∧
    (s.activeImage n = none → ∃ u r, exec c s = .next u ∧ u.sp.replies.head? = some r ∧ r.status = 8 ∧ r.body = [5, 0] ∧ u.nvm = s.nvm)) ∧
  (∀ (s : State) (f : UpdFrame) (h : ImgHdr), s.frozen 18 = false → s.neighbour f.up = true → s.activeImage s.spareSlot = some h →
    let id := crc32c ((s.nvm.slot s.spareSlot).bytes.take 4096)
    (f.image.toNat = id → (∀ b, s.activateReason h b = 0) → ∃ u, exec (.updFrameActivate f) s = .next u ∧
      u.cget NVM_SLOT_ACTIVE = s.spareSlot ∧ u.con NVM_SLOT_TRIAL = true ∧ u.nvm.chainAct = true ∧ u.nvm.imgFrom = some f.up) ∧
    (f.image.toNat ≠ id → ∃ u, exec (.updFrameActivate f) s = .next u ∧ u.cget UPD_STAT_STATE = 6 ∧ u.cget UPD_STAT_REASON = 5 ∧
      u.cget NVM_SLOT_ACTIVE = s.cget NVM_SLOT_ACTIVE)) ∧
  (∀ s : State, s.con NVM_SLOT_TRIAL = true → s.nvm.imgFrom = none →
    let n := s.cget NVM_SLOT_ACTIVE
    (s.healthy = false → exec .trialConfirm s = .next s) ∧
    (s.healthy = true → s.nvm.chainAct = false → ∃ u, exec .trialConfirm s = .next u ∧ u.cget (slotState n) = 3 ∧
      u.con NVM_SLOT_TRIAL = false ∧ u.cget NVM_SLOT_TRIAL_LEFT = 0 ∧ u.cget UPD_STAT_STATE = 0 ∧ u.cget UPD_STAT_NODES = 1) ∧
    (s.tm.tick < s.nvm.trialTick + 150000000 → exec .trialTimeout s = .next s) ∧
    (s.nvm.trialTick + 150000000 ≤ s.tm.tick → s.nvm.fallback = 1 - n → s.slotUsable (1 - n) = true → ∃ u, exec .trialTimeout s = .next u ∧
      u.cget (slotState n) = 4 ∧ u.con NVM_SLOT_TRIAL = false ∧ u.cget NVM_SLOT_ACTIVE = 1 - n ∧ u.cget (slotState (1 - n)) = 3 ∧
      u.cget UPD_STAT_STATE = 6 ∧ u.cget UPD_STAT_REASON = 7)) ∧
  (∀ (s : State) (f : UpdFrame), s.frozen 18 = false → s.cget UPD_STAT_STATE = 4 → s.actSides = [f.up] → (s.side f.up).active = true →
    f.image.toNat = s.nvm.imgId → ∃ u, exec (.confirmed f) s = .next u ∧ u.cget UPD_STAT_STATE = 0 ∧ u.cget UPD_STAT_NODES = (1 + f.count.toNat) % 256 ∧
      u.nvm.activating = false)

/-! ### Twin operation (R383–R400) -/

/-- Heartbeats, roles and the cold standby (R385, R387–R392, R400): what is sent and heard, when a role changes, and the standby's tests.
Rests in part on the model's readings and choices in log entries 4, 14, 61, 64 and 67. -/
def Obligations.HeartbeatsDecideTheRoles : Prop :=
  (∀ s : State, s.role = 0 → exec .heartbeatSend s = .next s ∧ exec .partnerLoss s = .next s) ∧
  (∀ s : State, s.role ≠ 0 → (∀ t, s.twin.hbTick = some t → t + 2500 ≤ s.tm.tick) → ∃ u b, exec .heartbeatSend s = .next u ∧
    u.svcTx = .heartbeat (s.cget TWIN_PEER_MAC) b :: s.svcTx ∧ b.length = 64 ∧ bits (bodyNat b 0 8) 0 3 = s.role ∧
    bits (bodyNat b 0 8) 3 8 = s.cget TWIN_CFG_CLAIM ∧ bits (bodyNat b 0 8) 11 8 = s.cid ∧ bitAt (bodyNat b 0 8) 19 = s.con TWIN_STAT_HEALTHY ∧
    bodyNat b 4 4 = s.twin.hbSeq % 2 ^ 32 ∧ bodyNat b 16 8 = s.fcNow % 2 ^ 59 ∧ bodyNat b 24 6 = s.tm.now.sec % 2 ^ 48 ∧
    bodyNat b 40 4 = s.cget TWIN_HEALTH_BITS ∧ bodyNat b 56 4 = crc32c (b.take 56 ++ leBytes 4 0) ∧ u.twin.hbSeq = (s.twin.hbSeq + 1) % 2 ^ 32 ∧
    u.twin.hbTick = some s.tm.tick ∧ u.creg = s.creg) ∧
  (∀ (s : State) (b : List Byte) (arr : Int), s.role ≠ 0 →
    let h := hbOf b
    (b.length ≠ 64 ∨ bodyNat b 56 4 ≠ crc32c (b.take 56 ++ leBytes 4 0) → exec (.heartbeatReceived b arr) s = .next s) ∧
    (b.length = 64 → bodyNat b 56 4 = crc32c (b.take 56 ++ leBytes 4 0) → ∃ u, exec (.heartbeatReceived b arr) s = .next u ∧ u.con TWIN_STAT_PARTNER = true ∧ u.twin.peer = some h ∧
      u.twin.peerTick = s.tm.tick ∧ u.con TWIN_STAT_CID_ERR = decide (h.cid.toNat ≠ s.cid) ∧
      (s.role = 1 → h.role = 3 ∨ h.role = 4 → u.role = 2 ∧ u.twin.storing = false ∧
        ∀ p ∈ s.portsInRun, s.feLive p = true → u.fget p (LNK_CTRL_CHECK (s.face p)) = 1) ∧
      (s.role ≠ 1 ∨ (h.role ≠ 3 ∧ h.role ≠ 4) → u.role = s.role ∧ u.freg = s.freg))) ∧
  (∀ s : State, s.role ≠ 0 → s.con TWIN_STAT_PARTNER = true → s.twin.peerTick ≤ s.tm.tick →
    (s.tm.tick < s.twin.peerTick + 2500 * s.cget TWIN_CFG_HB_TMO → exec .partnerLoss s = .next s) ∧
    (s.twin.peerTick + 2500 * s.cget TWIN_CFG_HB_TMO ≤ s.tm.tick → ∃ u, exec .partnerLoss s = .next u ∧ u.con TWIN_STAT_PARTNER = false ∧
      u.cget TWIN_CNT_HB_LOST = min (s.cget TWIN_CNT_HB_LOST + 1) 255 ∧
      (s.role = 2 → u.role = 3 ∧ u.twin.by_ = .loss ∧ u.twin.lossTick = s.tm.tick) ∧
      (s.role = 5 → u.role = 3 ∧ u.twin.by_ = .abandon ∧
        ∀ l, s.sp.longs = [l] → l.service = 8 → ∃ r, u.sp.replies.head? = some r ∧ r.status = 8 ∧ r.tag = l.tag ∧ u.sp.longs = []) ∧
      (s.role ≠ 2 → s.role ≠ 5 → u.role = s.role))) ∧
  (∀ s : State, s.role = 1 → s.twin.readyTick ≤ s.tm.tick → ∀ w, w = (if s.con TWIN_CFG_PREF = true then 2500 * s.cget TWIN_CFG_HB_TMO else 500000) →
    (s.tm.tick < s.twin.readyTick + w → exec .startingTimeout s = .next s) ∧
    (s.twin.readyTick + w ≤ s.tm.tick → ∃ u, exec .startingTimeout s = .next u ∧ u.role = 3 ∧ u.twin.by_ = .startUp ∧
      RegsSame s u [TWIN_STAT_ROLE])) ∧
  (∀ (s : State) (h : Heartbeat) (t : Nat), s.role = 3 ∨ s.role = 4 → s.twin.peer = some h → s.con TWIN_STAT_PARTNER = true →
    s.twin.noOwnerTick = some t → t + 250000 ≤ s.tm.tick →
    (h.role = 4 → ∃ u, exec .dualResolve s = .next u ∧ u.role = 2 ∧ u.con TWIN_STAT_DUAL_SEEN = true ∧ u.twin.storing = false ∧
      u.regions = s.regions) ∧
    (h.role ≠ 4 → exec .dualResolve s = .next s)) ∧
  (∀ (s : State) (raw : List RawLine), s.role ≠ 2 → exec (.standbyPatternTest raw) s = .next s ∧ exec .healthReport s = .next s) ∧
  (∀ s : State, s.role = 2 →
    (∀ raw, s.con FRN_STAT_READY = true → (∀ t, s.twin.patternTick = some t → t + 250 ≤ s.tm.tick) →
      ∃ u, exec (.standbyPatternTest raw) s = .next u ∧ u.twin.patternTick = some s.tm.tick ∧ u.role = 2 ∧
        ((∀ r, r < 4 → s.scratch r = 0) → u.twin.patternBad = false ∧ u.firn = s.firn)) ∧
    ((∀ t, s.twin.reportTick = some t → t + 250000 ≤ s.tm.tick) → ∃ u, exec .healthReport s = .next u ∧
      u.twin.reportTick = some s.tm.tick ∧ u.role = 2 ∧ u.firn = s.firn)) ∧
  (∀ (s : State) (j : Fin 8) (tag : BitVec 16), s.sp.taken = none → s.preReply (s.laneOf j) 8 1 tag.toNat = none →
    ∃ u r, exec (.twinStatus j tag []) s = .next u ∧ u.sp.replies.head? = some r ∧ r.status = 0 ∧ r.body.length = 72 ∧
      r.body.take 8 = leBytes 4 (s.peek TWIN_STAT_ROLE.reg) ++ leBytes 4 (s.peek TWIN_HEALTH_BITS.reg) ∧
      (∀ h, s.twin.peer = some h → r.body.drop 8 = hbBytes h) ∧ u.twin = s.twin)

/-- Seed state (R385, R393, R394, R400): an ACTIVE module pushes it, and a STANDBY accepts a whole push that fits, or counts a rejection.
Rests in part on the model's readings and choices in log entries 60, 62 and 66. -/
def Obligations.SeedStateIsPushedAndJudged : Prop :=
  (∀ s : State, (s.role ≠ 4 ∨ s.frozen 19 = true → exec .seedPush s = .next s) ∧
    (s.role = 4 → s.frozen 19 = false → (∀ t, s.twin.pushTick = some t → t + 62500 ≤ s.tm.tick) → ∃ u fs, exec .seedPush s = .next u ∧
      u.svcTx = .seed (s.cget TWIN_PEER_MAC) fs (s.seedBody none) :: s.svcTx ∧
      1 ≤ fs.length ∧ fs.length ≤ 1024 ∧ (∀ f ∈ fs, f.length = 1056 ∧ bits (bodyNat f 0 8) 16 32 = s.twin.pushSeq % 2 ^ 32 ∧
        bodyNat f 0 2 = s.seedFormat % 2 ^ 16 ∧ bodyNat f 8 8 = s.fcNow % 2 ^ 59 ∧ bits (bodyNat f 24 8) 11 11 = fs.length % 2048 ∧
        bodyNat f 28 4 = crc32c (f.drop 32)) ∧ u.twin.pushTick = some s.tm.tick ∧ u.twin.pushSeq = (s.twin.pushSeq + 1) % 2 ^ 32)) ∧
  (∀ (s : State) (j : Fin 8) (tag : BitVec 16), s.sp.taken = none → s.preReply (s.laneOf j) 8 3 tag.toNat = none →
    (s.role = 4 → s.frozen 19 = false → ∃ u r, exec (.pushCmd j tag []) s = .next u ∧ u.twin.pushSeq = (s.twin.pushSeq + 1) % 2 ^ 32 ∧
      u.svcTx.length = s.svcTx.length + 1 ∧ u.sp.replies.head? = some r ∧ r.status = 0) ∧
    (s.role ≠ 4 → ∃ u r, exec (.pushCmd j tag []) s = .next u ∧ u.twin = s.twin ∧ u.svcTx = s.svcTx ∧ u.sp.replies.head? = some r ∧
      r.status = 8)) ∧
  (∀ (s : State) (h : SeedHdr) (data : List Byte) (b : SeedBody), s.role = 2 → s.frozen 19 = false →
    (data.length ≠ 1024 ∨ h.segCrc.toNat ≠ crc32c data ∨ h.count.toNat ≤ h.idx.toNat → exec (.seedSegment h data b) s = .next s) ∧
    (data.length = 1024 → h.segCrc.toNat = crc32c data → s.twin.push = none →
      (2 ≤ h.count.toNat → h.idx.toNat < h.count.toNat → ∃ u x, exec (.seedSegment h data b) s = .next u ∧ u.twin.push = some x ∧
        x.got = [(h.idx.toNat, data)] ∧ x.push = h.push.toNat ∧ x.tick = s.tm.tick ∧ u.twin.seed = s.twin.seed ∧ RegsSame s u []) ∧
      (h.count = 1 → h.idx = 0 →
        (∀ i, s.runImage = some i → crc32c (data.take h.bodyLen.toNat) = h.bodyCrc.toNat → i.seedMin.toNat ≤ h.fmt.toNat → h.fmt.toNat ≤ i.seedFmt.toNat → b.cid.toNat = s.cid →
          s.con TWIN_STAT_CID_ERR = false → ∃ u, exec (.seedSegment h data b) s = .next u ∧
          u.twin.seed = some { push := h.push.toNat, fmt := h.fmt.toNat, fc := h.fc.toNat, tick := s.tm.tick, body := b } ∧
          u.twin.push = none ∧ u.cget TWIN_SEED_AGE = 0 ∧ u.cget TWIN_SEED_SEQ = h.push.toNat % 65536 ∧ u.sp.calResults = b.calib ∧
          (∀ v, b.config = [(BitVec.ofNat 32 (TRG_SRC_PRE_PRE 0).reg, v)] → u.cget (TRG_SRC_PRE_PRE 0) = v.toNat % 2 ^ 20) ∧
          (∀ v, b.config = [(BitVec.ofNat 32 TRG_CTRL_ARM.reg, v)] → u.con TRG_CTRL_ARM = s.con TRG_CTRL_ARM) ∧
          (∀ v, b.config = [(BitVec.ofNat 32 TIM_CTRL_SRC.reg, v)] → u.cget TIM_CTRL_SRC = s.cget TIM_CTRL_SRC)) ∧
        (crc32c (data.take h.bodyLen.toNat) ≠ h.bodyCrc.toNat ∨ b.cid.toNat ≠ s.cid ∨ s.con TWIN_STAT_CID_ERR = true → ∃ u, exec (.seedSegment h data b) s = .next u ∧
          u.twin.seed = s.twin.seed ∧ u.twin.push = none ∧ u.cget TWIN_CNT_SEED_REJ = min (s.cget TWIN_CNT_SEED_REJ + 1) 255 ∧
          RegsSame s u [TWIN_CNT_SEED_REJ])))) ∧
  (∀ (s : State) (x : PushRx), s.twin.push = some x →
    (s.tm.tick < x.tick + 62500 → exec .seedTimeout s = .next s) ∧
    (x.tick + 62500 ≤ s.tm.tick → ∃ u, exec .seedTimeout s = .next u ∧ u.twin.push = none ∧ u.twin.seed = s.twin.seed ∧
      u.cget TWIN_CNT_SEED_REJ = min (s.cget TWIN_CNT_SEED_REJ + 1) 255 ∧ RegsSame s u [TWIN_CNT_SEED_REJ]))

/-- Takeover and the planned switch (R395–R398): a takeover is given up without an owned port, stores from the next frame with its
reason-4 records, and completes; a planned switch loses one frame.
Rests in part on the model's readings and choices in log entries 64 and 65. -/
def Obligations.TakeoverAndThePlannedSwitch : Prop :=
  (∀ s : State, s.role = 3 → s.twin.by_ = .loss → s.twin.storing = false → s.twin.lossTick + 25000 ≤ s.tm.tick →
    (s.ownsOne = false → ∃ u, exec .takeoverAbandon s = .next u ∧ u.role = 2 ∧ u.regions = s.regions ∧ u.twin.storing = false) ∧
    (s.ownsOne = true → exec .takeoverAbandon s = .next s)) ∧
  (∀ s : State, s.role = 3 → s.ownsOne = true → s.twin.storing = false →
    (s.twin.by_ = .startUp → ∃ u, exec .takeoverStoreStart s = .next u ∧ u.twin.storing = true ∧ u.twin.storeFrom = s.frame + 1 ∧
      RegsSame s u [] ∧ u.regions = s.regions) ∧
    (s.twin.by_ = .loss → ∃ u, exec .takeoverStoreStart s = .next u ∧ u.twin.storing = true ∧ u.twin.storeFrom = s.frame + 1 ∧
      u.cget TWIN_CNT_TKO = min (s.cget TWIN_CNT_TKO + 1) 255 ∧ u.cget TWIN_FC_F = s.peerFc ∧
      u.cget TWIN_FSTORE_F = (s.frame + 1) % 2 ^ 59 ∧ (s.seedStale = true → u.con TWIN_STAT_STALE_TKO = true) ∧
      ∀ a b, a = s.peerFc + 1 → b = s.frame → 0 < s.peerFc → a ≤ b → ∀ i, i ≤ sliceOf b - sliceOf a → ∃ c ∈ (u.rgn 0).crevs, c.reason = 4 ∧
        c.scope = 3 ∧ c.lost = 0xFFFFFFFF ∧ c.at_ = s.tm.tick + 1 ∧ c.frame = max a ((sliceOf a + i) * 256) ∧
        c.frame + c.frames = min b ((sliceOf a + i) * 256 + 255) + 1)) ∧
  (∀ (s : State) (f : Nat), s.role = 2 → s.twin.fs = some f → 0 < f →
    (s.frame < f + 1 → exec .takeoverStoreStart s = .next s) ∧
    (f + 1 ≤ s.frame → ∃ u, exec .takeoverStoreStart s = .next u ∧ u.role = 3 ∧ u.twin.by_ = .planned ∧ u.twin.storing = true ∧
      u.twin.storeFrom = f + 1 ∧ u.cget TWIN_FSTORE_F = (f + 1) % 2 ^ 59 ∧
      ∃ c ∈ (u.rgn 0).crevs, c.reason = 4 ∧ c.scope = 3 ∧ c.frame = f ∧ c.frames = 1 ∧ c.lost = 0xFFFFFFFF)) ∧
  (∀ s : State, s.role = 3 → s.twin.storing = true → s.twin.fs = none →
    (s.twin.by_ = .startUp → ∃ u, exec .takeoverComplete s = .next u ∧ u.role = 4 ∧ RegsSame s u [TWIN_STAT_ROLE]) ∧
    (∀ x, s.twin.seed = some x → x.body.runRegs = [] →
      (s.twin.by_ = .planned → ∃ u, exec .takeoverComplete s = .next u ∧ u.role = 4 ∧
        u.cget TWIN_CNT_SWITCH = min (s.cget TWIN_CNT_SWITCH + 1) 255) ∧
      (s.twin.by_ = .loss → x.body.mode.toNat ≤ 2 → s.con TRG_STAT_ARMED = false → s.con TRG_CTRL_ARM = false →
        ∃ u, exec .takeoverComplete s = .next u ∧ u.role = 4 ∧ u.con TWIN_STAT_TKO_SEEN = true ∧ u.cget TRG_CTRL_MODE = x.body.mode.toNat ∧
          u.con TRG_CTRL_ARM = x.body.arm ∧ u.trg.armAsk = x.body.arm ∧
          u.sp.monPeriod = (if x.body.monPeriod = 0 then none else some x.body.monPeriod.toNat)))) ∧
  (∀ (s : State) (j : Fin 8) (tag : BitVec 16), s.sp.taken = none → s.preReply (s.laneOf j) 8 2 tag.toNat = none →
    (s.role = 4 → s.partnerReady = true → ∃ u r, exec (.switchCmd j tag []) s = .next u ∧ u.sp.replies.head? = some r ∧ r.status = 1 ∧
      u.role = 5 ∧ u.twin.fs = some (s.frame + 64) ∧ u.svcTx.length = s.svcTx.length + 1 ∧
      ∃ l ∈ u.sp.longs, l.service = 8 ∧ l.cmd = 2 ∧ l.tag = tag.toNat) ∧
    (s.role ≠ 4 ∨ s.partnerReady = false → ∃ u r, exec (.switchCmd j tag []) s = .next u ∧ u.sp.replies.head? = some r ∧ r.status = 5 ∧
      u.twin = s.twin ∧ u.role = s.role)) ∧
  (∀ (s : State) (f : Nat), s.role = 5 → s.twin.fs = some f → s.twin.drainTick = none →
    (s.frame < f + 1 → exec .switchStopStoring s = .next s) ∧
    (f + 1 ≤ s.frame → ∃ u, exec .switchStopStoring s = .next u ∧ u.twin.drainTick = some s.tm.tick ∧
      ∀ e ∈ s.ports, e.1 < 1024 → u.plState e.1 = 0 ∧ (u.port e.1).downlinkOn = false)) ∧
  (∀ (s : State) (t : Nat), s.role = 5 → s.twin.drainTick = some t → t ≤ s.tm.tick →
    (s.tm.tick < t + s.cget TWIN_CFG_DRAIN * 250000 → exec .drainEnd s = .next s) ∧
    (t + s.cget TWIN_CFG_DRAIN * 250000 ≤ s.tm.tick → s.firn.pins = [] → ∃ u, exec .drainEnd s = .next u ∧ u.role = 2 ∧
      u.twin.drainTick = none ∧ u.twin.fs = none ∧ u.twin.storing = false ∧ u.cget TWIN_CNT_SWITCH = min (s.cget TWIN_CNT_SWITCH + 1) 255 ∧
      (∀ e ∈ s.retained, (u.ixe e.slice).state = 3) ∧
      ∀ l, s.sp.longs = [l] → l.service = 8 → ∃ r, u.sp.replies.head? = some r ∧ r.status = 0 ∧ r.tag = l.tag ∧ u.sp.longs = []))

/-! ### Protection (R401–R433) -/

/-- Temperature and shutdown (R401–R407, R409–R411): levels change after four samples that agree; a throttle acts and ends; a shutdown
holds the part in reset until it has cooled.
Rests in part on the model's readings and choices in log entries 14, 52 and 105. -/
def Obligations.SensorsThrottleAndShutDown : Prop :=
  (∀ (s : State) (i : SensIx) (q : Option Int) (ok : Bool), s.tm.tick < (s.sensor i).nextTick →
    exec (.temperatureSample none i q ok) s = .next s) ∧
  (∀ (s : State) (i : SensIx) (q : Int), s.pro.shutdown = false → (s.sensor i).nextTick ≤ s.tm.tick →
    let x := s.sensor i
    let warn := s.cget (PRO_TS_CFG_WARN i)
    let throt := s.cget (PRO_TS_CFG_THROT i)
    ∃ u, exec (.temperatureSample none i (some q) true) s = .next u ∧ u.cget (PRO_TS_STAT_TEMP i) = ofSigned 12 q ∧
      (u.sensor i).nextTick = s.tm.tick + 250 ∧
      ((u.sensor i).broken = true ↔ q < -160 ∨ 600 < q) ∧
      (x.warn = none → 4 * (warn : Int) ≤ q → (x.warnRun = 3 → (u.sensor i).warn = some warn) ∧
        (x.warnRun < 3 → (u.sensor i).warn = none ∧ (u.sensor i).warnRun = x.warnRun + 1)) ∧
      (x.warn = none → q < 4 * (warn : Int) → (u.sensor i).warn = none ∧ (u.sensor i).warnRun = 0) ∧
      (∀ l, x.warn = some l → x.warnRun = 3 → (q ≤ 4 * (l : Int) - 20 → (u.sensor i).warn = none) ∧
        (4 * (l : Int) - 20 < q → (u.sensor i).warn = some l)) ∧
      (x.hot = false → x.throtRun = 3 → 4 * (throt : Int) ≤ q → u.con (PRO_TS_STAT_HOT_SEEN i) = true ∧ throttleAction i ∈ u.pro.actions ∧
        (i.val < 4 → i.val ∉ s.pro.actions → ∀ p ∈ s.regionInRun i, 6 ∈ (u.port p).fastNext))) ∧
  (∀ (s : State) (p : PortIx) (i : SensIx) (q : Int),
    (i.val < 5 → s.feLive p = true → ((s.fe p).sensor i).nextTick ≤ s.tm.tick → ((s.fe p).sensor i).hot = false → ((s.fe p).sensor i).throtRun = 3 →
      4 * (s.fget p FE_TH_CFG_THROT : Int) ≤ q → ∃ u, exec (.temperatureSample (some p) i (some q) true) s = .next u ∧
      (u.fe p).thermalHold = true ∧ u.fon p FE_TH_STAT_THROT_SEEN = true ∧ u.creg = s.creg) ∧
    ((s.fe p).powered = false → exec (.temperatureSample (some p) i (some q) true) s = .next s)) ∧
  (∀ (s : State) (i : SensIx) (a : Nat), a = throttleAction i →
    (a ∉ s.pro.actions → exec (.throttleEnd none i) s = .next s) ∧
    (a ∈ s.pro.actions → (∀ j, j < 32 → throttleAction j = a → (s.sensor j).hot = false ∧
      (s.sensor j).leftTick.all (fun t => decide (t + (if a = 8 then 2500000 else 250000) ≤ s.tm.tick)) = true) → ∃ u, exec (.throttleEnd none i) s = .next u ∧
      u.pro.actions = s.pro.actions.erase a ∧
      (a < 4 → s.cget GLB_STAT_STATE = 1 → ∀ p ∈ s.regionInRun a, 7 ∈ (u.port p).fastNext))) ∧
  (∀ (s : State) (p : PortIx) (i : SensIx), (s.fe p).thermalHold = true →
    (∀ j, j < 5 → ((s.fe p).sensor j).hot = false ∧ ((s.fe p).sensor j).leftTick.all (fun t => decide (t + 250000 ≤ s.tm.tick)) = true) → (s.fe p).powerAsk = none →
    ∃ u, exec (.throttleEnd (some p) i) s = .next u ∧ (u.fe p).thermalHold = false ∧
      (u.fe p).powerAsk = (if (s.fe p).lastAskStandby = true then none else some false)) ∧
  (∀ (s : State) (i : SensIx), s.pro.shutdown = false → ∃ u, exec (.shutdownTrip i) s = .next u ∧ u.pro.shutdown = true ∧ u.pro.rcause = 2 ∧
    u.con GLB_STAT_READY = false ∧ u.con SP_STAT_RUN = false ∧ (∀ n, n < 4 → u.permit n = 0 ∧ u.con (PRO_GSTAT_OUT n) = false) ∧
    u.nvm.pending = s.nvm.pending.take s.nvm.logBusy ∧ u.nvm.latch0 = s.nvm.latch0 ∧ u.nvm.journal = s.nvm.journal ∧
    u.pro.tripTick = s.tm.tick ∧ u.fes = s.fes ∧ u.freg = s.freg) ∧
  (∀ s : State, (s.nvm.journal = [] ∨ s.pro.powerGood = true ∨
      (s.pro.shutdown = true ∧ s.tm.tick < s.pro.tripTick + 500 ∧ s.scorching = false) → exec .nvmProgramCut s = .next s) ∧
    (s.nvm.journal ≠ [] → s.pro.powerGood = false → s.pro.shutdown = false ∨ s.pro.tripTick + 500 ≤ s.tm.tick ∨ s.scorching = true → ∃ u, exec .nvmProgramCut s = .next u ∧ u = { s with nvm := { s.nvm with cut := true } })) ∧
  (∀ (s : State) (t : Nat), s.pro.shutdown = true → s.pro.coolTick = some t →
    (s.tm.tick < t + 15000000 → exec .thermalRestart s = .next s) ∧
    (t + 15000000 ≤ s.tm.tick → ∃ u, exec .thermalRestart s = .next u ∧ u.pro.shutdown = false ∧ u.pro.rcause = 2 ∧
      u.pro.powerGood = true ∧ u.creg = s.creg)) ∧
  (∀ (s : State) (p : PortIx), (s.fe p).shutdown = false → ∃ u, exec (.feShutdownTrip p) s = .next u ∧ (u.fe p).shutdown = true ∧
    (u.fe p).sens = (s.fe p).sens ∧ (∀ f : Fld, f.key < 0x40000 → u.fget p f = f.reset % 2 ^ f.width) ∧ (∀ c, c < 512 → u.ch p c = {}) ∧
    (∀ q f, q ≠ p.val → f.key < 0x40000 → u.fget q f = s.fget q f) ∧ u.creg = s.creg) ∧
  (∀ (s : State) (p : PortIx) (t : Nat), (s.fe p).shutdown = true → (s.fe p).coolTick = some t →
    (s.tm.tick < t + 2500000 → exec (.feThermalRestart p) s = .next s) ∧
    (t + 2500000 ≤ s.tm.tick → ∃ u, exec (.feThermalRestart p) s = .next u ∧ (u.fe p).shutdown = false ∧ (u.fe p).powered = true ∧
      u.creg = s.creg))

/-- The supplies (R412–R414): a dip is latched, counted and logged; a fall to the reset level resets the part until its supply is good.
Rests in part on the model's readings and choices in log entries 14 and 54. -/
def Obligations.SupplyDipsAndResets : Prop :=
  (∀ s : State, ∃ u, exec (.supplyWarning none) s = .next u ∧ u.con PRO_SUP_WARN_NOW = true ∧ RegsSame s u [PRO_SUP_WARN_NOW] ∧
    u.pro.dipFrame = (match s.pro.dipFrame with | none => some s.frame | some f => some f)) ∧
  (∀ (s : State) (p : PortIx), ∃ u, exec (.supplyWarning (some p)) s = .next u ∧ u.fon p FE_SUP_STAT_WARN_NOW = true ∧
    (u.fe p).dipStart = some ((s.fe p).dipStart.getD s.tm.tick) ∧ FeRegsSame s u [(p.val, FE_SUP_STAT_WARN_NOW)] ∧ u.creg = s.creg) ∧
  (∀ (s : State) (us : Nat),
    (s.pro.dipFrame = none → exec (.dipEnd none us) s = .next s) ∧
    (∀ f, s.pro.dipFrame = some f → ∃ u, exec (.dipEnd none us) s = .next u ∧ u.con PRO_SUP_WARN_NOW = false ∧
      u.cget PRO_DIP_LAST = min us 0xFFFFFF ∧ u.cget PRO_SUP_DIPS = min (s.cget PRO_SUP_DIPS + 1) 255 ∧ u.con PRO_SUP_DIP_SEEN = true ∧
      u.pro.dipFrame = none ∧
      (s.nvm.overflow = 0 → s.nvm.pending.length < 1024 → ∃ e, u.nvm.pending = s.nvm.pending ++ [e] ∧ e.d5 = f ∧
        e.d6 = (s.frame + 1 - f) % 2 ^ 32 + us % 2 ^ 32 * 2 ^ 32))) ∧
  (∀ (s : State) (p : PortIx) (us : Nat),
    ((s.fe p).dipStart = none → exec (.dipEnd (some p) us) s = .next s) ∧
    ((s.fe p).dipStart ≠ none → ∃ u, exec (.dipEnd (some p) us) s = .next u ∧ u.fon p FE_SUP_STAT_WARN_NOW = false ∧
      u.fget p FE_DIP_LAST = min us 0xFFFFFF ∧ u.fget p FE_SUP_STAT_DIPS = min (s.fget p FE_SUP_STAT_DIPS + 1) 65535 ∧
      (u.fe p).dipStart = none ∧ FeRegsSame s u [(p.val, FE_SUP_STAT_WARN_NOW), (p.val, FE_DIP_LAST), (p.val, FE_SUP_STAT_DIPS)])) ∧
  (∀ s : State, ∃ u, exec (.supplyReset none) s = .next u ∧ u.pro.powerGood = false ∧ (s.pro.shutdown = false → u.pro.rcause = 3) ∧
    u.con GLB_STAT_READY = false ∧ (∀ n, n < 4 → u.permit n = 0) ∧ u.nvm.journal = s.nvm.journal ∧ u.fes = s.fes) ∧
  (∀ (s : State) (p : PortIx), ∃ u, exec (.supplyReset (some p)) s = .next u ∧ (u.fe p).powered = false ∧
    (∀ f : Fld, f.key < 0x40000 → u.fget p f = f.reset % 2 ^ f.width) ∧ u.creg = s.creg) ∧
  (∀ s : State, (s.pro.shutdown = true → exec (.powerGood none) s = .next s) ∧
    (s.pro.shutdown = false → ∃ u, exec (.powerGood none) s = .next u ∧ u = { s with pro := { s.pro with powerGood := true } })) ∧
  (∀ (s : State) (p : PortIx), ((s.fe p).powered = true → exec (.powerGood (some p)) s = .next s) ∧
    ((s.fe p).powered = false → ∃ u, exec (.powerGood (some p)) s = .next u ∧ (u.fe p).powered = true ∧ u.creg = s.creg))

/-- The guard (R415–R425): its inputs and their proof, its causes and what they do to each permit, the output tests, resets and the latch.
Rests in part on the model's readings and choices in log entries 14, 50, 53 and 104. -/
def Obligations.PermitsFollowTheirCauses : Prop :=
  (∀ (s : State) (n : GuardIx),
    (∀ r : LoopRead, r.heldUs < 2000 → exec (.guardInputChange n r) s = .next s) ∧
    (∀ r : LoopRead, 2000 ≤ r.heldUs → 8000 ≤ r.back → r.back ≤ 12000 → r.source < r.back + 1000 → r.back < r.source + 1000 →
      ∃ u, exec (.guardInputChange n r) s = .next u ∧ u.cget (PRO_GIN_STATE n) = 1 ∧ RegsSame s u [PRO_GIN_STATE n]) ∧
    (∀ r : LoopRead, 2000 ≤ r.heldUs → r.back < 2000 →
      ∃ u, exec (.guardInputChange n r) s = .next u ∧ u.cget (PRO_GIN_STATE n) = 0 ∧ RegsSame s u [PRO_GIN_STATE n]) ∧
    (∀ r : LoopRead, 2000 ≤ r.heldUs → 2000 ≤ r.back →
      r.back < 8000 ∨ 12000 < r.back ∨ r.back + 1000 ≤ r.source ∨ r.source + 1000 ≤ r.back →
      ∃ u, exec (.guardInputChange n r) s = .next u ∧ u.cget (PRO_GIN_STATE n) = 2 ∧ u.con (PRO_GIN_FAULT_SEEN n) = true ∧
      RegsSame s u [PRO_GIN_STATE n, PRO_GIN_FAULT_SEEN n]) ∧
    (s.con (PRO_GIN_CFG_EN n) = true → s.cget (PRO_GIN_STATE n) ≠ 1 → ∃ u, exec (.inputProven n) s = .next u ∧
      u.con (PRO_GIN_PROVEN n) = true ∧ RegsSame s u [PRO_GIN_PROVEN n]) ∧
    (s.con (PRO_GIN_CFG_EN n) = false ∨ s.cget (PRO_GIN_STATE n) = 1 → exec (.inputProven n) s = .next s)) ∧
  (∀ (s : State) (i : GuardIx) (cause : BitVec 3) (straps : BitVec 2) (a b : Option ImgRead) (ns : Nat), s.pro.shutdown = false →
    (∃ u, exec (.powerOnReset cause straps a b) s = .next u ∧ u.con (PRO_GIN_PROVEN i) = false) ∧
    (1000 ≤ ns → ∃ u, exec (.resetN ns false straps a b) s = .next u ∧ u.con (PRO_GIN_PROVEN i) = false)) ∧
  (∀ (s : State) (i : GuardIx) (m : MasterIx) (v : W32) (ms : Nat) (t : List OutRead),
    (∃ u, exec (.grst ms t) s = .next u ∧ u.con (PRO_GIN_PROVEN i) = s.con (PRO_GIN_PROVEN i)) ∧
    (∃ u, exec (.soft m v) s = .next u ∧ u.con (PRO_GIN_PROVEN i) = s.con (PRO_GIN_PROVEN i)) ∧
    (∃ u, exec (.region m v) s = .next u ∧ u.con (PRO_GIN_PROVEN i) = s.con (PRO_GIN_PROVEN i))) ∧
  (∀ (s : State) (n i : GuardIx) (gv : Nat) (ok : Bool) (bad : List OutRead), s.permit n = 0 → s.con (PRO_GIN_CFG_EN i) = true →
    bitAt (s.cget (PRO_GIN_CFG_PMASK i)) n = true → s.con (PRO_GIN_PROVEN i) = false →
    ∃ u, exec (.guardEvaluation gv ok bad) s = .next u ∧ u.permit n ≠ 1 ∧ u.permit n ≠ 2) ∧
  (∀ (s : State) (n : GuardIx) (gv : Nat) (ok : Bool) (z : State), s.pro.shutdown = false → s.pro.latchRead = true →
    let due := (s.tm.tick - s.pro.guardTick) * 2 / 125 + 1
    s.pro.evals ≠ due →
    z = (s.cset PRO_STAT_GV24_OK (b2n (decide (18000 ≤ gv)))).modPro (fun x => { x with selfBad := !ok, evals := due }) →
    bitAt (s.cget PRO_STAT_LATCH) n = s.nvm.latch0.getD n false →
    let c := z.causes n
    ∃ u, exec (.guardEvaluation gv ok []) s = .next u ∧ u.cget (PRO_GCAUSE_CAUSE n) = c ∧ u.pro.evals = due ∧
      (gv < 18000 → bitAt c 5 = true) ∧ (ok = false → bitAt c 6 = true) ∧
      (s.permit n = 0 → s.nvm.latch0.getD n false = true → u.permit n = 4) ∧
      (s.permit n = 0 → s.nvm.latch0.getD n false = false → c = 0 → z.grantable n = true → u.permit n = 1) ∧
      (s.permit n = 0 → s.nvm.latch0.getD n false = false → c ≠ 0 ∨ z.grantable n = false → u.permit n = 0) ∧
      (s.permit n = 1 ∨ s.permit n = 2 → c = 0 → u.permit n = s.permit n) ∧
      (s.permit n = 1 → c ≠ 0 → s.classL = false → u.permit n = 4 ∧ u.con (PRO_GSTAT_OUT n) = false ∧
        (s.nvm.latch0.length = 4 → u.nvm.latch0.getD n false = true)) ∧
      (s.permit n = 1 → c ≠ 0 → bitAt c 6 = false → s.classL = true → u.permit n = 2 ∧ tget u.pro.heldTick n 0 = s.tm.tick) ∧
      (s.permit n = 1 ∨ s.permit n = 2 → bitAt c 6 = true → s.classL = true → u.permit n = 3 ∧ u.con (PRO_GSTAT_OUT n) = false) ∧
      (3 ≤ s.permit n → u.permit n = s.permit n)) ∧
  (∀ (s : State) (n : GuardIx) (gv mv : Nat) (ok : Bool),
    let due := (s.tm.tick - s.pro.guardTick) * 2 / 125 + 1
    (s.pro.shutdown = true ∨ s.pro.evals = due → exec (.guardEvaluation gv ok [⟨n, mv⟩]) s = .next s) ∧
    (s.pro.shutdown = false → s.pro.evals ≠ due → s.pro.latchRead = true →
      (s.permit n = 1 → s.con PRO_STAT_COMMON_OPEN = false → mv + 2000 ≤ gv → ∃ u, exec (.guardEvaluation gv ok [⟨n, mv⟩]) s = .next u ∧
        u.con (PRO_GOUT_STUCK_OFF_SEEN n) = true ∧ u.con PRO_STAT_FAULT = true ∧ u.permit n = (if s.classL = true then 3 else 4)) ∧
      (s.permit n = 1 → s.con PRO_STAT_COMMON_OPEN = false → gv < mv + 2000 → ∃ u, exec (.guardEvaluation gv ok [⟨n, mv⟩]) s = .next u ∧
        u.con (PRO_GOUT_STUCK_OFF_SEEN n) = s.con (PRO_GOUT_STUCK_OFF_SEEN n) ∧ u.pro.outFault = s.pro.outFault) ∧
      (s.permit n = 3 → 5000 ≤ mv → ∃ u, exec (.guardEvaluation gv ok [⟨n, mv⟩]) s = .next u ∧ u.con (PRO_GOUT_STUCK_ON_SEEN n) = true ∧
        u.con PRO_STAT_COMMON_OPEN = true ∧ u.con PRO_STAT_FAULT = true) ∧
      (s.permit n = 3 → mv < 5000 → ∃ u, exec (.guardEvaluation gv ok [⟨n, mv⟩]) s = .next u ∧
        u.con (PRO_GOUT_STUCK_ON_SEEN n) = s.con (PRO_GOUT_STUCK_ON_SEEN n) ∧ u.pro.outFault = s.pro.outFault))) ∧
  (∀ (s : State) (n : GuardIx), s.permit n = 2 →
    let held := tget s.pro.heldTick n 0
    (s.causes n = 0 → tget s.pro.causeTick n 0 + 500000 ≤ s.tm.tick → s.tm.tick < held + 7500000 →
      ∃ u, exec (.heldClear n) s = .next u ∧ u.permit n = 1 ∧ RegsSame s u [PRO_GSTAT_STATE n, PRO_GSTAT_OUT n]) ∧
    (s.causes n ≠ 0 ∨ held + 7500000 ≤ s.tm.tick → exec (.heldClear n) s = .next s) ∧
    (held + 7500000 ≤ s.tm.tick → ∃ u, exec (.heldTimeout n) s = .next u ∧ u.permit n = 3 ∧ u.con (PRO_GSTAT_OUT n) = false ∧
      u.cget PRO_GCNT_TRIPS = min (s.cget PRO_GCNT_TRIPS + 1) 255) ∧
    (s.tm.tick < held + 7500000 → exec (.heldTimeout n) s = .next s)) ∧
  (∀ (s : State) (n : GuardIx) (fall rise : Option Nat),
    let g := s.tm.tick - s.pro.guardTick
    let sec := g / 250000 + 1
    let fell := fall.any fun a => decide (a ≤ 150)
    let rose := rise.any fun a => decide (a ≤ 200)
    (s.outputOn n = false ∨ g % 250000 < 62500 * n.val ∨ tget s.pro.pulseSec n 0 = sec → exec (.offPulse n fall rise) s = .next s) ∧
    (s.permit n = 1 ∨ s.permit n = 2 → s.con PRO_STAT_COMMON_OPEN = false → 62500 * n.val ≤ g % 250000 → tget s.pro.pulseSec n 0 ≠ sec →
      (fell = true → rose = true → ∃ u, exec (.offPulse n fall rise) s = .next u ∧ tget u.pro.pulseSec n 0 = sec ∧
        u.cget (PRO_GOUT_PULSES n) = min (s.cget (PRO_GOUT_PULSES n) + 1) 255 ∧ RegsSame s u [PRO_GOUT_PULSES n]) ∧
      (fell = false → ∃ u, exec (.offPulse n fall rise) s = .next u ∧ u.con (PRO_GOUT_STUCK_ON_SEEN n) = true ∧
        u.con PRO_STAT_COMMON_OPEN = true ∧ u.guardFault = true) ∧
      (rose = false → ∃ u, exec (.offPulse n fall rise) s = .next u ∧ u.con (PRO_GOUT_STUCK_OFF_SEEN n) = true ∧ u.guardFault = true)) ∧
    (s.outputOn n = false → exec (.outputCurrentLimit n) s = .next s) ∧
    (s.permit n = 1 ∨ s.permit n = 2 → s.con PRO_STAT_COMMON_OPEN = false → ∃ u, exec (.outputCurrentLimit n) s = .next u ∧
      u.con (PRO_GOUT_OC_SEEN n) = true ∧ u.con (PRO_GOUT_STUCK_OFF_SEEN n) = true ∧ u.con (PRO_GSTAT_OUT n) = false ∧ u.guardFault = true)) ∧
  (∀ s : State, (s.pro.grstHeld = true → exec .grstActive s = .next s) ∧
    (s.pro.grstHeld = false → ∃ u, exec .grstActive s = .next u ∧ u.pro.grstHeld = true ∧ u.pro.grstTick = s.tm.tick ∧ u.creg = s.creg)) ∧
  (∀ (s : State) (ms : Nat) (t : List OutRead),
    (ms < 500 → ∃ u, exec (.grst ms t) s = .next u ∧ u = { s with pro := { s.pro with grstHeld := false } }) ∧
    (5000 < ms → ∃ u, exec (.grst ms t) s = .next u ∧ u.cget PRO_GCNT_RESET_REF = min (s.cget PRO_GCNT_RESET_REF + 1) 255 ∧
      ∀ n, n < 4 → u.permit n = s.permit n) ∧
    (500 ≤ ms → ms ≤ 5000 → ∀ z, z = (s.modPro fun x => { x with grstHeld := false }).commonTest t →
      ∃ u, exec (.grst ms t) s = .next u ∧ u.cget PRO_GCNT_RESETS = min (s.cget PRO_GCNT_RESETS + 1) 255 ∧
        ∀ n, n < 4 → (s.permit n = 3 ∨ s.permit n = 4 → z.causes n = 0 → u.permit n = 0 ∧ u.nvm.latch0.getD n false = false) ∧
          (s.permit n ≤ 2 ∨ z.causes n ≠ 0 → u.permit n = s.permit n) ∧
          ((t.filter fun x => decide (x.mv < 5000)) = [] → bitAt (z.causes n) 6 = true))) ∧
  (∀ (s : State) (x : BitVec 2), ∃ u, exec (.strapChange x) s = .next u ∧ u.cget PRO_STAT_STRAP = x.toNat ∧
    u.cget PRO_STAT_CLASS = s.cget PRO_STAT_CLASS ∧ u.pro.strapBad = decide (x.toNat ≠ s.cget PRO_STAT_CLASS) ∧
    (x.toNat ≠ s.cget PRO_STAT_CLASS → s.pro.strapBad = false → u.con PRO_STAT_STRAP_CHG = true ∧ u.guardFault = true)) ∧
  (∀ (s : State) (t : List OutRead), (s.pro.latchRead = true → exec (.latchRead false t) s = .next s) ∧
    (s.pro.latchRead = false →
      (∃ u, exec (.latchRead false t) s = .next u ∧ u.pro.latchRead = true ∧ u.con NVM_STAT_LATCH_FIX = true ∧
        u.nvm.latch0 = [true, true, true, true] ∧ u.con GLB_STAT_LOCKOUT = true ∧ ∀ n, n < 4 → u.permit n = 4) ∧
      (s.nvm.latch0 = s.nvm.latch1 → ∃ u, exec (.latchRead true t) s = .next u ∧ u.pro.latchRead = true ∧ (u.pro.commonTested = true ↔ ∀ n : GuardIx, ∃ x ∈ t, x.n = n ∧ x.mv < 5000) ∧
        ∀ n, n < 4 → u.permit n = (if s.nvm.latch0.getD n false = true then 4 else s.permit n))))

/-- The settings window and the GUARD service (R424, R426–R430): a password opens the window for a while, three failures block checks, and
the service writes settings and resets permits only with it; a row that states the password's verdict wrongly changes nothing, which is the
model's choice (log entry 102).
Rests in part on the model's readings and choices in log entries 14, 54, 58, 99 and 102. -/
def Obligations.ThePasswordGuardsTheSettings : Prop :=
  (∀ (s : State) (m : MasterIx) (v : W32), s.frozen m = false →
    (s.permitted m .control PRO_GPW_BYTE.reg .write = true →
      (s.pro.candidate.length < 33 → ∃ u, exec (.passwordByte m v) s = .next u ∧
        u.pro.candidate = s.pro.candidate ++ [BitVec.ofNat 8 v.toNat] ∧ u.creg = s.creg) ∧
      (33 ≤ s.pro.candidate.length → ∃ u, exec (.passwordByte m v) s = .next u ∧ u.pro = s.pro ∧ u.creg = s.creg)) ∧
    (s.permitted m .control PRO_GCOMMIT_CLOSE.reg .write = true → bitAt v.toNat 0 = true → ∃ u, exec (.close m v) s = .next u ∧
      u.con PRO_GWIN_OPEN = false ∧ RegsSame s u [PRO_GWIN_OPEN]) ∧
    (s.permitted m .control PRO_GWIN_CHECK.reg .write = true →
      (bitAt v.toNat 0 = false → ∃ u, exec (.check m v) s = .next u ∧ u = { s with sp := u.sp }) ∧
      (bitAt v.toNat 0 = true → s.con PRO_GWIN_BLOCKED = true → ∃ u, exec (.check m v) s = .next u ∧ u.pro.candidate = [] ∧ RegsSame s u []) ∧
      (bitAt v.toNat 0 = true → s.con PRO_GWIN_BLOCKED = false →
        (sha256 (s.pro.salt ++ s.pro.candidate) = s.pro.verifier → s.con PRO_GWIN_PW_SET = true → s.pro.candidate.length ≤ 32 →
          ∃ u, exec (.check m v) s = .next u ∧
          u.con PRO_GWIN_OPEN = true ∧ u.pro.windowTick = s.tm.tick ∧ u.pro.candidate = [] ∧ RegsSame s u [PRO_GWIN_OPEN]) ∧
        (sha256 (s.pro.salt ++ s.pro.candidate) ≠ s.pro.verifier ∨ s.con PRO_GWIN_PW_SET = false ∨ 32 < s.pro.candidate.length →
          ∃ u, exec (.check m v) s = .next u ∧
          u.cget PRO_GCNT_PW_FAIL = min (s.cget PRO_GCNT_PW_FAIL + 1) 255 ∧ u.con PRO_GWIN_OPEN = s.con PRO_GWIN_OPEN ∧
          u.pro.candidate = [] ∧
          (s.pro.failTicks = [] → u.con PRO_GWIN_BLOCKED = false) ∧
          (∀ a b, s.pro.failTicks = [a, b] → s.tm.tick < a + 15000000 → s.tm.tick < b + 15000000 → u.con PRO_GWIN_BLOCKED = true ∧
            u.pro.blockTick = s.tm.tick))))) ∧
  (∀ s : State,
    (s.con PRO_GWIN_OPEN = true →
      (s.pro.windowTick + 2500000 ≤ s.tm.tick → ∃ u, exec .windowTimeout s = .next u ∧ u.con PRO_GWIN_OPEN = false ∧
        RegsSame s u [PRO_GWIN_OPEN]) ∧
      (s.tm.tick < s.pro.windowTick + 2500000 → exec .windowTimeout s = .next s)) ∧
    (s.con PRO_GWIN_BLOCKED = true →
      (s.pro.blockTick + 15000000 ≤ s.tm.tick → ∃ u, exec .checkUnblock s = .next u ∧ u.con PRO_GWIN_BLOCKED = false ∧
        RegsSame s u [PRO_GWIN_BLOCKED]) ∧
      (s.tm.tick < s.pro.blockTick + 15000000 → exec .checkUnblock s = .next s))) ∧
  (∀ (s : State) (j : Fin 8) (tag : BitVec 16) (pw : List Byte), s.sp.taken = none →
    (∀ cmd, s.preReply (s.laneOf j) 6 cmd tag.toNat = none) → pw.length ≤ 32 →
    let l := BitVec.ofNat 8 pw.length
    let ok := decide (sha256 (s.pro.salt ++ pw) = s.pro.verifier)
    (∃ u r, exec (.guardStatus j tag []) s = .next u ∧ u.sp.replies.head? = some r ∧ r.status = 0 ∧ r.body.length = 16 ∧ u.pro = s.pro) ∧
    (∀ (n : GuardIx) (a v : W32) (body : List Byte), body = l :: pw ++ leBytes 2 1 ++ leBytes 4 a.toNat ++ leBytes 4 v.toNat →
      (a.toNat % 4 ≠ 0 → ∃ u r, exec (.guardSet j tag body ok) s = .next u ∧ u.sp.replies.head? = some r ∧ r.status = 4 ∧ u.pro = s.pro ∧
        u.nvm = s.nvm) ∧
      (a.toNat = (PRO_GOUT_EN n).reg → s.writeBusy = true → ∃ u r, exec (.guardSet j tag body ok) s = .next u ∧
        u.sp.replies.head? = some r ∧ r.status = 5 ∧ u.pro = s.pro ∧ u.nvm = s.nvm) ∧
      (a.toNat = (PRO_GOUT_EN n).reg → s.writeBusy = false → s.con PRO_GWIN_BLOCKED = false → s.con PRO_GWIN_PW_SET = true →
        (ok = true → ∃ u r, exec (.guardSet j tag body true) s = .next u ∧ u.sp.replies.head? = some r ∧ r.status = 0 ∧
          u.cget (PRO_GOUT_EN n) = v.toNat % 2 ∧ u.con PRO_GWIN_OPEN = false ∧
          (s.nvm.inUse = none → u.nvm.cont0.recs = [.guard s.pro.salt s.pro.verifier [(a, v)]])) ∧
        (ok = false → ∃ u r, exec (.guardSet j tag body false) s = .next u ∧ u.sp.replies.head? = some r ∧ r.status = 6 ∧
          u.cget (PRO_GOUT_EN n) = s.cget (PRO_GOUT_EN n) ∧ u.cget PRO_GCNT_PW_FAIL = min (s.cget PRO_GCNT_PW_FAIL + 1) 255)) ∧
      exec (.guardSet j tag body (!ok)) s = .next s) ∧
    (∀ (new salt : List Byte), goodPassword new = true → s.writeBusy = false → salt.length = 16 →
      let ver := sha256 (salt ++ new)
      (s.con PRO_GWIN_BLOCKED = false → s.con PRO_GWIN_PW_SET = true → pw ≠ [] → ok = true →
        ∃ u r, exec (.setpw j tag (l :: pw ++ BitVec.ofNat 8 new.length :: new) true salt ver) s = .next u ∧ u.sp.replies.head? = some r ∧
          r.status = 0 ∧ u.pro.salt = salt ∧ u.pro.verifier = ver ∧ u.con PRO_GWIN_PW_SET = true ∧ u.con PRO_GWIN_OPEN = false) ∧
      (s.con PRO_GWIN_BLOCKED = false → s.con PRO_GWIN_PW_SET = true → pw ≠ [] → ok = false →
        ∃ u r, exec (.setpw j tag (l :: pw ++ BitVec.ofNat 8 new.length :: new) false salt ver) s = .next u ∧ u.sp.replies.head? = some r ∧
          r.status = 6 ∧ u.pro.verifier = s.pro.verifier) ∧
      (pw = [] → s.con PRO_GWIN_PW_SET = false → s.pro.grstHeld = true →
        (s.pro.grstTick + 125000 ≤ s.tm.tick → ∃ u r, exec (.setpw j tag (0 :: BitVec.ofNat 8 new.length :: new) ok salt ver) s = .next u ∧
          u.sp.replies.head? = some r ∧ r.status = 0 ∧ u.pro.salt = salt ∧ u.pro.verifier = ver ∧ u.con PRO_GWIN_PW_SET = true) ∧
        (s.tm.tick < s.pro.grstTick + 125000 → ∃ u r, exec (.setpw j tag (0 :: BitVec.ofNat 8 new.length :: new) ok salt ver) s = .next u ∧
          u.sp.replies.head? = some r ∧ r.status = 6 ∧ u.pro = s.pro))) ∧
    (∀ t : List OutRead,
      (s.classL = false → ∃ u r, exec (.guardReset j tag (l :: pw) ok t) s = .next u ∧ u.sp.replies.head? = some r ∧ r.status = 6 ∧
        u.pro = s.pro ∧ ∀ n, n < 4 → u.permit n = s.permit n) ∧
      (s.classL = true → s.con PRO_GWIN_BLOCKED = false → s.con PRO_GWIN_PW_SET = true → ok = true →
        ∃ u r, exec (.guardReset j tag (l :: pw) true t) s = .next u ∧ u.sp.replies.head? = some r ∧ r.status = 0 ∧
        u.cget PRO_GCNT_RESETS = min (s.cget PRO_GCNT_RESETS + 1) 255 ∧ u.con PRO_GWIN_OPEN = false ∧
        ∀ n, n < 4 → s.permit n = 3 ∨ s.permit n = 4 → (s.commonTest t).causes n = 0 → u.permit n = 0 ∧
          u.nvm.latch0.getD n false = false)))

/-! ### Access rules, the step and reset -/

/-- Writes that a rule refuses (R268, R408): the trigger's native units while armed, and temperature settings outside their range. -/
def Obligations.RefusedSettingsAreLeftAndShown : Prop :=
  (∀ (s : State) (m : MasterIx) (n : Fin 16) (a v : W32), s.frozen m = false → s.permitted m .control a.toNat .write = true →
    s.con TRG_STAT_ARMED = true →
    a.toNat = (TRG_NU_CFG_EN n).reg ∨ a.toNat = (TRG_NU_LEVEL_LEVEL n).reg ∨ a.toNat = (TRG_NU_HYST_HYST n).reg →
    ∃ u, exec (.registerWrite m a v) s = .next u ∧ u.con TRG_STAT_CFG_ERR = true ∧ RegsSame s u [TRG_STAT_CFG_ERR] ∧ u.trg = s.trg) ∧
  (∀ (s : State) (m : MasterIx) (i : Fin 32) (a v : W32), s.frozen m = false → s.permitted m .control a.toNat .write = true →
    a.toNat = (PRO_TS_CFG_WARN i).reg →
    let warn := v.toNat % 256
    let throt := v.toNat / 256 % 256
    let rate := v.toNat / 65536 % 256
    (throt ≤ warn ∨ 115 < throt ∨ rate < 1 → ∃ u, exec (.registerWrite m a v) s = .next u ∧ u.con PRO_STAT_CFG_ERR = true ∧
      RegsSame s u [PRO_STAT_CFG_ERR]) ∧
    (warn < throt → throt ≤ 115 → 1 ≤ rate → m = 0 → s.con PRO_GWIN_OPEN = true → ∃ u, exec (.registerWrite m a v) s = .next u ∧
      u.cget (PRO_TS_CFG_WARN i) = warn ∧ u.cget (PRO_TS_CFG_THROT i) = throt ∧ u.cget (PRO_TS_CFG_RATE i) = rate ∧
      u.con PRO_STAT_CFG_ERR = s.con PRO_STAT_CFG_ERR))

/-- A step takes the command at the front of the queue and is its effect on the rest; on an empty queue the block idles (the model's choice,
log entry 1); and no step faults or refuses.
Rests in part on the model's readings and choices in log entry 1. -/
def Obligations.StepRunsTheFrontCommand : Prop :=
  (∀ (c : Instr) (rest : List Instr) (s : State), step { s with pending := c :: rest } = exec c { s with pending := rest }) ∧
  (∀ s : State, s.pending = [] → step s = .next s) ∧
  (∀ s : State, s.StepOk)

/-- What reset leaves (R16–R19, R367): every register field of both parts reads its reset value, the tables are in their form, and the
command queue, the extent tables, the uplink queues and the control RAM are empty.
Rests in part on the model's readings and choices in log entries 12 and 70. -/
def Obligations.ResetLeavesTheResetValues : Prop :=
  (∀ f : Fld, State.reset.cget f = f.reset % 2 ^ f.width) ∧ (∀ p (f : Fld), State.reset.fget p f = f.reset % 2 ^ f.width) ∧
  State.reset.FormOk ∧ State.reset.pending = [] ∧ State.reset.cget GLB_STAT_STATE = 0 ∧ State.reset.con GLB_STAT_READY = false ∧
  State.reset.cget FRN_CTRL_QUOTA = 25 ∧ State.reset.cget TWIN_CFG_HB_TMO = 20 ∧ State.reset.cget TRG_CTRL_MODE = 1 ∧
  State.reset.con PRO_STAT_COMMON_OPEN = true ∧ (∀ n, n < 4 → State.reset.permit n = 0) ∧ (∀ p, State.reset.plState p = 0) ∧
  (∀ p, State.reset.fget p FE_TH_CFG_WARN = 95 ∧ State.reset.fget p FE_TH_CFG_THROT = 105 ∧ State.reset.fget p FE_TH_CFG_RATE = 50) ∧
  State.reset.firn.extents = [] ∧ State.reset.upl.queues = [] ∧ State.reset.sp.cram = []

/-- Every step, from every state, keeps the tables of registers, Firn lines, extents and control RAM words in their form, takes exactly the
front command, and never takes the tick count or the count of free values back.
Rests in part on the model's readings and choices in log entries 15 and 70. -/
def Obligations.EveryStepKeepsTheForm : Prop :=
  ∀ s t : State, s.FormOk → step s = .next t → t.FormOk ∧ t.pending = s.pending.tail ∧ s.tm.tick ≤ t.tm.tick ∧ s.free ≤ t.free
end

