-- ==== Sys2Proof/Laws/Coding.lean ====
section
/-! SUPPORT. Laws of the codes of the lanes: a run of data bytes is read back from its groups at either running disparity, and a
codeword has six bytes more than its data. -/

namespace Sys2Proof.Machine

theorem symGroup_data_lt (plus : Bool) : ∀ b < 256, symGroup plus (.data b) < 1024 := by
  cases plus <;> decide +kernel

theorem groupSym_symGroup_data (plus : Bool) : ∀ b < 256, groupSym plus (symGroup plus (.data b)) = some (.data b) := by
  cases plus <;> decide +kernel

theorem byte_group (plus : Bool) (b : Byte) :
    (BitVec.ofNat 10 (symGroup plus (.data b.toNat))).toNat = symGroup plus (.data b.toNat) := by
  rw [BitVec.toNat_ofNat]
  exact Nat.mod_eq_of_lt (symGroup_data_lt plus b.toNat b.isLt)

/-- What a run of data bytes is on the line is read back as these bytes. -/
theorem lineSyms_symLine_data (bs : List Byte) (plus : Bool) :
    lineSyms plus (symLine plus (dataSyms bs)) = (dataSyms bs).map some := by
  induction bs generalizing plus with
  | nil => rfl
  | cons b r ih =>
    simp only [dataSyms, List.map_cons, symLine, lineSyms] at ih ⊢
    rw [byte_group, groupSym_symGroup_data plus b.toNat b.isLt, ih]

/-- Such a run has no code error. -/
theorem codeErrors_data (bs : List Byte) : codeErrors ((dataSyms bs).map some) = 0 := by
  simp [codeErrors]

theorem bytesOf_data (bs : List Byte) : bytesOf ((dataSyms bs).map some) = some bs := by
  induction bs with
  | nil => rfl
  | cons b r ih =>
    simp only [bytesOf, dataSyms, List.map_cons, List.mapM_cons] at ih ⊢
    rw [ih]
    simp [byteOf, Sym.byte?]

@[simp] theorem symLine_length (xs : List Sym) (plus : Bool) : (symLine plus xs).length = xs.length := by
  induction xs generalizing plus with
  | nil => rfl
  | cons x r ih => simp [symLine, ih]

@[simp] theorem lineSyms_length (xs : List (BitVec 10)) (plus : Bool) : (lineSyms plus xs).length = xs.length := by
  induction xs generalizing plus with
  | nil => rfl
  | cons x r ih => simp [lineSyms, ih]

theorem rsGen_length : rsGen.length = 7 := by decide +kernel

theorem rsStep_length (c : List Nat) (d : Nat) (h : c.length = 6) : (rsStep c d).length = 6 := by
  simp [rsStep, h, rsGen_length]

theorem rsCheck_length (data : List Nat) : (rsCheck data).length = 6 := by
  suffices ∀ c : List Nat, c.length = 6 → (data.foldl rsStep c).length = 6 from this _ rfl
  induction data with
  | nil => exact fun _ h => h
  | cons d r ih => exact fun c h => ih _ (rsStep_length c d h)

@[simp] theorem rsEncode_length (data : List Byte) : (rsEncode data).length = data.length + 6 := by
  simp [rsEncode, rsCheck_length]

end Sys2Proof.Machine
end

