-- ==== Sys2Proof/Laws/Crc.lean ====
section
/-! SUPPORT. CRC-32C values fit 32 bits. -/

namespace Sys2Proof.Machine

theorem crcReflRounds_lt {c : Nat} (n : Nat) (h : c < 2 ^ 32) : crcReflRounds 0x82F63B78 n c < 2 ^ 32 := by
  induction n generalizing c with
  | zero => exact h
  | succ n ih =>
    refine ih ?_
    have h2 : c / 2 < 2 ^ 32 := by omega
    split
    · exact Nat.xor_lt_two_pow h2 (by decide)
    · exact h2

theorem crc32cAux_lt {c : Nat} (bs : List Byte) (h : c < 2 ^ 32) : crc32cAux c bs < 2 ^ 32 := by
  induction bs generalizing c with
  | nil => exact h
  | cons b r ih =>
    refine ih (crcReflRounds_lt 8 (Nat.xor_lt_two_pow h ?_))
    exact b.isLt.trans (by decide)

theorem crc32c_lt (bs : List Byte) : crc32c bs < 2 ^ 32 := Nat.xor_lt_two_pow (crc32cAux_lt bs (by decide)) (by decide)

theorem State.goldCrc_lt (s : State) (p : Nat) : s.goldCrc p < 2 ^ 32 := crc32c_lt _

end Sys2Proof.Machine
end

