-- ==== Sys2Proof/Laws/Table.lean ====
section
/-! SUPPORT. What the operations on sparse tables do to a look-up and to the order of the keys. -/

namespace Sys2Proof.Machine

variable {α : Type}

theorem tget_tdel_same (t : Tab α) (k : Nat) (d : α) : tget (tdel t k) k d = d := by
  induction t with
  | nil => rfl
  | cons e r ih =>
    obtain ⟨j, v⟩ := e
    by_cases h : j = k <;> simp [tdel, tget, h, ih]

theorem tget_tdel_ne (t : Tab α) {k k' : Nat} (d : α) (h : k' ≠ k) : tget (tdel t k) k' d = tget t k' d := by
  induction t with
  | nil => rfl
  | cons e r ih =>
    obtain ⟨j, v⟩ := e
    by_cases hj : j = k
    · have : j ≠ k' := fun e => h (e.symm.trans hj)
      simp [tdel, tget, hj, ih, Ne.symm h]
    · by_cases hk : j = k'
      · subst hk
        simp [tdel, tget, hj]
      · simp [tdel, tget, hj, hk, ih]

theorem tget_tins_same (t : Tab α) (k : Nat) (v d : α) : tget (tins t k v) k d = v := by
  induction t with
  | nil => simp [tins, tget]
  | cons e r ih =>
    obtain ⟨j, w⟩ := e
    by_cases h1 : k < j
    · simp [tins, tget, h1]
    · by_cases h2 : k = j
      · simp [tins, tget, h2]
      · simp [tins, tget, h1, h2, ih, Ne.symm h2]

theorem tget_tins_ne (t : Tab α) {k k' : Nat} (v d : α) (h : k' ≠ k) : tget (tins t k v) k' d = tget t k' d := by
  induction t with
  | nil => simp [tins, tget, Ne.symm h]
  | cons e r ih =>
    obtain ⟨j, w⟩ := e
    by_cases h1 : k < j
    · simp [tins, tget, h1, Ne.symm h]
    · by_cases h2 : k = j
      · subst h2
        simp [tins, tget, Ne.symm h]
      · by_cases h3 : j = k'
        · subst h3
          simp [tins, tget, h1, h2]
        · simp [tins, tget, h1, h2, h3, ih]

/-- A value set in a table is the value looked up. -/
@[simp] theorem tget_tset_same [DecidableEq α] (t : Tab α) (k : Nat) (d v : α) : tget (tset t k d v) k d = v := by
  unfold tset
  split
  · next h => rw [tget_tdel_same, h]
  · exact tget_tins_same t k v d

/-- Setting a key leaves every other key. -/
theorem tget_tset_ne [DecidableEq α] (t : Tab α) {k k' : Nat} (d v d' : α) (h : k' ≠ k) :
    tget (tset t k d v) k' d' = tget t k' d' := by
  unfold tset
  split
  · exact tget_tdel_ne t d' h
  · exact tget_tins_ne t v d' h

theorem mem_tdel {t : Tab α} {k : Nat} {e : Nat × α} (h : e ∈ tdel t k) : e ∈ t := by
  induction t with
  | nil => exact h
  | cons a r ih =>
    obtain ⟨j, v⟩ := a
    by_cases hj : j = k
    · simp only [tdel, hj, if_true] at h
      exact List.mem_cons_of_mem _ (ih h)
    · simp only [tdel, hj, if_false, List.mem_cons] at h ⊢
      exact h.imp id ih

theorem mem_tins {t : Tab α} {k : Nat} {v : α} {e : Nat × α} (h : e ∈ tins t k v) : e = (k, v) ∨ e ∈ t := by
  induction t with
  | nil => simpa [tins] using h
  | cons a r ih =>
    obtain ⟨j, w⟩ := a
    simp only [tins] at h
    split at h
    · simpa using h
    · split at h
      · simp only [List.mem_cons] at h ⊢
        tauto
      · simp only [List.mem_cons] at h ⊢
        rcases h with h | h
        · exact .inr (.inl h)
        · exact (ih h).imp id .inr

theorem rising_tdel {t : Tab α} (h : rising t) (k : Nat) : rising (tdel t k) := by
  induction t with
  | nil => exact h
  | cons a r ih =>
    obtain ⟨j, v⟩ := a
    simp only [tdel]
    split
    · exact ih h.2
    · exact ⟨fun e he => h.1 e (mem_tdel he), ih h.2⟩

theorem rising_tins {t : Tab α} (h : rising t) (k : Nat) (v : α) : rising (tins t k v) := by
  induction t with
  | nil => exact ⟨fun _ he => by simp at he, trivial⟩
  | cons a r ih =>
    obtain ⟨j, w⟩ := a
    simp only [tins]
    split
    · next hk =>
      refine ⟨fun e he => ?_, h⟩
      rcases List.mem_cons.1 he with rfl | he
      · exact hk
      · exact hk.trans (h.1 e he)
    · split
      · next hk => subst hk; exact h
      · next h1 h2 =>
        refine ⟨fun e he => ?_, ih h.2⟩
        rcases mem_tins he with rfl | he
        · show j < k
          omega
        · exact h.1 e he

/-- Setting a key keeps the order of the keys. -/
theorem rising_tset [DecidableEq α] {t : Tab α} (h : rising t) (k : Nat) (d v : α) : rising (tset t k d v) := by
  unfold tset
  split
  · exact rising_tdel h k
  · exact rising_tins h k v

/-- Keeping some entries keeps the order of the keys. -/
theorem rising_filter {t : Tab α} (h : rising t) (f : Nat × α → Bool) : rising (t.filter f) := by
  induction t with
  | nil => exact h
  | cons a r ih =>
    obtain ⟨j, v⟩ := a
    simp only [List.filter]
    split
    · exact ⟨fun e he => h.1 e (List.mem_filter.1 he).1, ih h.2⟩
    · exact ih h.2

theorem rising_tkeep {t : Tab α} (h : rising t) (f : Nat → Bool) : rising (tkeep t f) := rising_filter h _

/-! ### Register fields -/

/-- A field always fits its width (R19). -/
theorem State.cget_lt (s : State) (f : Fld) : s.cget f < 2 ^ f.width := Nat.mod_lt _ (Nat.two_pow_pos _)

theorem State.fget_lt (s : State) (p : Nat) (f : Fld) : s.fget p f < 2 ^ f.width := Nat.mod_lt _ (Nat.two_pow_pos _)

/-- A field set by hardware shows the value cut to its width (R19). -/
@[simp] theorem State.cget_cset_same (s : State) (f : Fld) (v : Nat) : (s.cset f v).cget f = v % 2 ^ f.width := by
  simp [State.cget, State.cset]

/-- Setting one field leaves every other field. -/
theorem State.cget_cset_ne (s : State) (f g : Fld) (v : Nat) (h : g.key ≠ f.key) : (s.cset f v).cget g = s.cget g := by
  simp only [State.cget, State.cset, tget_tset_ne _ _ _ _ h]

@[simp] theorem State.fget_fset_same (s : State) (p : Nat) (f : Fld) (v : Nat) :
    (s.fset p f v).fget p f = v % 2 ^ f.width := by
  simp [State.fget, State.fset]

theorem State.fget_fset_ne (s : State) (p q : Nat) (f g : Fld) (v : Nat) (h : g.fkey q ≠ f.fkey p) :
    (s.fset p f v).fget q g = s.fget q g := by
  simp only [State.fget, State.fset, tget_tset_ne _ _ _ _ h]

end Sys2Proof.Machine
end

