-- ==== Sys2Proof/Laws/State.lean ====
section
/-! SUPPORT. One lemma per field, or accessor, per update of the state that leaves it alone, and one per structure an update changes. -/

namespace Sys2Proof.Machine

/-! ### `cset` -/

@[simp] theorem State.cset_freg (s : State) (f : Fld) (v : Nat) : (s.cset f v).freg = s.freg := rfl
@[simp] theorem State.cset_tm (s : State) (f : Fld) (v : Nat) : (s.cset f v).tm = s.tm := rfl
@[simp] theorem State.cset_fes (s : State) (f : Fld) (v : Nat) : (s.cset f v).fes = s.fes := rfl
@[simp] theorem State.cset_chans (s : State) (f : Fld) (v : Nat) : (s.cset f v).chans = s.chans := rfl
@[simp] theorem State.cset_blks (s : State) (f : Fld) (v : Nat) : (s.cset f v).blks = s.blks := rfl
@[simp] theorem State.cset_ports (s : State) (f : Fld) (v : Nat) : (s.cset f v).ports = s.ports := rfl
@[simp] theorem State.cset_ing (s : State) (f : Fld) (v : Nat) : (s.cset f v).ing = s.ing := rfl
@[simp] theorem State.cset_regions (s : State) (f : Fld) (v : Nat) : (s.cset f v).regions = s.regions := rfl
@[simp] theorem State.cset_firn (s : State) (f : Fld) (v : Nat) : (s.cset f v).firn = s.firn := rfl
@[simp] theorem State.cset_trg (s : State) (f : Fld) (v : Nat) : (s.cset f v).trg = s.trg := rfl
@[simp] theorem State.cset_upl (s : State) (f : Fld) (v : Nat) : (s.cset f v).upl = s.upl := rfl
@[simp] theorem State.cset_sp (s : State) (f : Fld) (v : Nat) : (s.cset f v).sp = s.sp := rfl
@[simp] theorem State.cset_mv (s : State) (f : Fld) (v : Nat) : (s.cset f v).mv = s.mv := rfl
@[simp] theorem State.cset_nvm (s : State) (f : Fld) (v : Nat) : (s.cset f v).nvm = s.nvm := rfl
@[simp] theorem State.cset_twin (s : State) (f : Fld) (v : Nat) : (s.cset f v).twin = s.twin := rfl
@[simp] theorem State.cset_pro (s : State) (f : Fld) (v : Nat) : (s.cset f v).pro = s.pro := rfl
@[simp] theorem State.cset_glb (s : State) (f : Fld) (v : Nat) : (s.cset f v).glb = s.glb := rfl
@[simp] theorem State.cset_svcTx (s : State) (f : Fld) (v : Nat) : (s.cset f v).svcTx = s.svcTx := rfl
@[simp] theorem State.cset_free (s : State) (f : Fld) (v : Nat) : (s.cset f v).free = s.free := rfl
@[simp] theorem State.cset_pending (s : State) (f : Fld) (v : Nat) : (s.cset f v).pending = s.pending := rfl
@[simp] theorem State.cset_fget (s : State) (f : Fld) (v : Nat) (i : Nat) (a : Fld) : (s.cset f v).fget i a = s.fget i a := rfl
@[simp] theorem State.cset_fon (s : State) (f : Fld) (v : Nat) (i : Nat) (a : Fld) : (s.cset f v).fon i a = s.fon i a := rfl
@[simp] theorem State.cset_fe (s : State) (f : Fld) (v : Nat) (i : Nat) : (s.cset f v).fe i = s.fe i := rfl
@[simp] theorem State.cset_ch (s : State) (f : Fld) (v : Nat) (i j : Nat) : (s.cset f v).ch i j = s.ch i j := rfl
@[simp] theorem State.cset_blk (s : State) (f : Fld) (v : Nat) (i j : Nat) : (s.cset f v).blk i j = s.blk i j := rfl
@[simp] theorem State.cset_port (s : State) (f : Fld) (v : Nat) (i : Nat) : (s.cset f v).port i = s.port i := rfl
@[simp] theorem State.cset_rgn (s : State) (f : Fld) (v : Nat) (i : Nat) : (s.cset f v).rgn i = s.rgn i := rfl
@[simp] theorem State.cset_mch (s : State) (f : Fld) (v : Nat) (i : Nat) : (s.cset f v).mch i = s.mch i := rfl
@[simp] theorem State.cset_queue (s : State) (f : Fld) (v : Nat) (i j : Nat) : (s.cset f v).queue i j = s.queue i j := rfl

/-! ### `cadd` -/

@[simp] theorem State.cadd_freg (s : State) (f : Fld) (n : Nat) : (s.cadd f n).freg = s.freg := rfl
@[simp] theorem State.cadd_tm (s : State) (f : Fld) (n : Nat) : (s.cadd f n).tm = s.tm := rfl
@[simp] theorem State.cadd_fes (s : State) (f : Fld) (n : Nat) : (s.cadd f n).fes = s.fes := rfl
@[simp] theorem State.cadd_chans (s : State) (f : Fld) (n : Nat) : (s.cadd f n).chans = s.chans := rfl
@[simp] theorem State.cadd_blks (s : State) (f : Fld) (n : Nat) : (s.cadd f n).blks = s.blks := rfl
@[simp] theorem State.cadd_ports (s : State) (f : Fld) (n : Nat) : (s.cadd f n).ports = s.ports := rfl
@[simp] theorem State.cadd_ing (s : State) (f : Fld) (n : Nat) : (s.cadd f n).ing = s.ing := rfl
@[simp] theorem State.cadd_regions (s : State) (f : Fld) (n : Nat) : (s.cadd f n).regions = s.regions := rfl
@[simp] theorem State.cadd_firn (s : State) (f : Fld) (n : Nat) : (s.cadd f n).firn = s.firn := rfl
@[simp] theorem State.cadd_trg (s : State) (f : Fld) (n : Nat) : (s.cadd f n).trg = s.trg := rfl
@[simp] theorem State.cadd_upl (s : State) (f : Fld) (n : Nat) : (s.cadd f n).upl = s.upl := rfl
@[simp] theorem State.cadd_sp (s : State) (f : Fld) (n : Nat) : (s.cadd f n).sp = s.sp := rfl
@[simp] theorem State.cadd_mv (s : State) (f : Fld) (n : Nat) : (s.cadd f n).mv = s.mv := rfl
@[simp] theorem State.cadd_nvm (s : State) (f : Fld) (n : Nat) : (s.cadd f n).nvm = s.nvm := rfl
@[simp] theorem State.cadd_twin (s : State) (f : Fld) (n : Nat) : (s.cadd f n).twin = s.twin := rfl
@[simp] theorem State.cadd_pro (s : State) (f : Fld) (n : Nat) : (s.cadd f n).pro = s.pro := rfl
@[simp] theorem State.cadd_glb (s : State) (f : Fld) (n : Nat) : (s.cadd f n).glb = s.glb := rfl
@[simp] theorem State.cadd_svcTx (s : State) (f : Fld) (n : Nat) : (s.cadd f n).svcTx = s.svcTx := rfl
@[simp] theorem State.cadd_free (s : State) (f : Fld) (n : Nat) : (s.cadd f n).free = s.free := rfl
@[simp] theorem State.cadd_pending (s : State) (f : Fld) (n : Nat) : (s.cadd f n).pending = s.pending := rfl
@[simp] theorem State.cadd_fget (s : State) (f : Fld) (n : Nat) (i : Nat) (a : Fld) : (s.cadd f n).fget i a = s.fget i a := rfl
@[simp] theorem State.cadd_fon (s : State) (f : Fld) (n : Nat) (i : Nat) (a : Fld) : (s.cadd f n).fon i a = s.fon i a := rfl
@[simp] theorem State.cadd_fe (s : State) (f : Fld) (n : Nat) (i : Nat) : (s.cadd f n).fe i = s.fe i := rfl
@[simp] theorem State.cadd_ch (s : State) (f : Fld) (n : Nat) (i j : Nat) : (s.cadd f n).ch i j = s.ch i j := rfl
@[simp] theorem State.cadd_blk (s : State) (f : Fld) (n : Nat) (i j : Nat) : (s.cadd f n).blk i j = s.blk i j := rfl
@[simp] theorem State.cadd_port (s : State) (f : Fld) (n : Nat) (i : Nat) : (s.cadd f n).port i = s.port i := rfl
@[simp] theorem State.cadd_rgn (s : State) (f : Fld) (n : Nat) (i : Nat) : (s.cadd f n).rgn i = s.rgn i := rfl
@[simp] theorem State.cadd_mch (s : State) (f : Fld) (n : Nat) (i : Nat) : (s.cadd f n).mch i = s.mch i := rfl
@[simp] theorem State.cadd_queue (s : State) (f : Fld) (n : Nat) (i j : Nat) : (s.cadd f n).queue i j = s.queue i j := rfl

/-! ### `cbump` -/

@[simp] theorem State.cbump_freg (s : State) (f : Fld) : (s.cbump f).freg = s.freg := rfl
@[simp] theorem State.cbump_tm (s : State) (f : Fld) : (s.cbump f).tm = s.tm := rfl
@[simp] theorem State.cbump_fes (s : State) (f : Fld) : (s.cbump f).fes = s.fes := rfl
@[simp] theorem State.cbump_chans (s : State) (f : Fld) : (s.cbump f).chans = s.chans := rfl
@[simp] theorem State.cbump_blks (s : State) (f : Fld) : (s.cbump f).blks = s.blks := rfl
@[simp] theorem State.cbump_ports (s : State) (f : Fld) : (s.cbump f).ports = s.ports := rfl
@[simp] theorem State.cbump_ing (s : State) (f : Fld) : (s.cbump f).ing = s.ing := rfl
@[simp] theorem State.cbump_regions (s : State) (f : Fld) : (s.cbump f).regions = s.regions := rfl
@[simp] theorem State.cbump_firn (s : State) (f : Fld) : (s.cbump f).firn = s.firn := rfl
@[simp] theorem State.cbump_trg (s : State) (f : Fld) : (s.cbump f).trg = s.trg := rfl
@[simp] theorem State.cbump_upl (s : State) (f : Fld) : (s.cbump f).upl = s.upl := rfl
@[simp] theorem State.cbump_sp (s : State) (f : Fld) : (s.cbump f).sp = s.sp := rfl
@[simp] theorem State.cbump_mv (s : State) (f : Fld) : (s.cbump f).mv = s.mv := rfl
@[simp] theorem State.cbump_nvm (s : State) (f : Fld) : (s.cbump f).nvm = s.nvm := rfl
@[simp] theorem State.cbump_twin (s : State) (f : Fld) : (s.cbump f).twin = s.twin := rfl
@[simp] theorem State.cbump_pro (s : State) (f : Fld) : (s.cbump f).pro = s.pro := rfl
@[simp] theorem State.cbump_glb (s : State) (f : Fld) : (s.cbump f).glb = s.glb := rfl
@[simp] theorem State.cbump_svcTx (s : State) (f : Fld) : (s.cbump f).svcTx = s.svcTx := rfl
@[simp] theorem State.cbump_free (s : State) (f : Fld) : (s.cbump f).free = s.free := rfl
@[simp] theorem State.cbump_pending (s : State) (f : Fld) : (s.cbump f).pending = s.pending := rfl
@[simp] theorem State.cbump_fget (s : State) (f : Fld) (i : Nat) (a : Fld) : (s.cbump f).fget i a = s.fget i a := rfl
@[simp] theorem State.cbump_fon (s : State) (f : Fld) (i : Nat) (a : Fld) : (s.cbump f).fon i a = s.fon i a := rfl
@[simp] theorem State.cbump_fe (s : State) (f : Fld) (i : Nat) : (s.cbump f).fe i = s.fe i := rfl
@[simp] theorem State.cbump_ch (s : State) (f : Fld) (i j : Nat) : (s.cbump f).ch i j = s.ch i j := rfl
@[simp] theorem State.cbump_blk (s : State) (f : Fld) (i j : Nat) : (s.cbump f).blk i j = s.blk i j := rfl
@[simp] theorem State.cbump_port (s : State) (f : Fld) (i : Nat) : (s.cbump f).port i = s.port i := rfl
@[simp] theorem State.cbump_rgn (s : State) (f : Fld) (i : Nat) : (s.cbump f).rgn i = s.rgn i := rfl
@[simp] theorem State.cbump_mch (s : State) (f : Fld) (i : Nat) : (s.cbump f).mch i = s.mch i := rfl
@[simp] theorem State.cbump_queue (s : State) (f : Fld) (i j : Nat) : (s.cbump f).queue i j = s.queue i j := rfl

/-! ### `cwrap` -/

@[simp] theorem State.cwrap_freg (s : State) (f : Fld) (n : Nat) : (s.cwrap f n).freg = s.freg := rfl
@[simp] theorem State.cwrap_tm (s : State) (f : Fld) (n : Nat) : (s.cwrap f n).tm = s.tm := rfl
@[simp] theorem State.cwrap_fes (s : State) (f : Fld) (n : Nat) : (s.cwrap f n).fes = s.fes := rfl
@[simp] theorem State.cwrap_chans (s : State) (f : Fld) (n : Nat) : (s.cwrap f n).chans = s.chans := rfl
@[simp] theorem State.cwrap_blks (s : State) (f : Fld) (n : Nat) : (s.cwrap f n).blks = s.blks := rfl
@[simp] theorem State.cwrap_ports (s : State) (f : Fld) (n : Nat) : (s.cwrap f n).ports = s.ports := rfl
@[simp] theorem State.cwrap_ing (s : State) (f : Fld) (n : Nat) : (s.cwrap f n).ing = s.ing := rfl
@[simp] theorem State.cwrap_regions (s : State) (f : Fld) (n : Nat) : (s.cwrap f n).regions = s.regions := rfl
@[simp] theorem State.cwrap_firn (s : State) (f : Fld) (n : Nat) : (s.cwrap f n).firn = s.firn := rfl
@[simp] theorem State.cwrap_trg (s : State) (f : Fld) (n : Nat) : (s.cwrap f n).trg = s.trg := rfl
@[simp] theorem State.cwrap_upl (s : State) (f : Fld) (n : Nat) : (s.cwrap f n).upl = s.upl := rfl
@[simp] theorem State.cwrap_sp (s : State) (f : Fld) (n : Nat) : (s.cwrap f n).sp = s.sp := rfl
@[simp] theorem State.cwrap_mv (s : State) (f : Fld) (n : Nat) : (s.cwrap f n).mv = s.mv := rfl
@[simp] theorem State.cwrap_nvm (s : State) (f : Fld) (n : Nat) : (s.cwrap f n).nvm = s.nvm := rfl
@[simp] theorem State.cwrap_twin (s : State) (f : Fld) (n : Nat) : (s.cwrap f n).twin = s.twin := rfl
@[simp] theorem State.cwrap_pro (s : State) (f : Fld) (n : Nat) : (s.cwrap f n).pro = s.pro := rfl
@[simp] theorem State.cwrap_glb (s : State) (f : Fld) (n : Nat) : (s.cwrap f n).glb = s.glb := rfl
@[simp] theorem State.cwrap_svcTx (s : State) (f : Fld) (n : Nat) : (s.cwrap f n).svcTx = s.svcTx := rfl
@[simp] theorem State.cwrap_free (s : State) (f : Fld) (n : Nat) : (s.cwrap f n).free = s.free := rfl
@[simp] theorem State.cwrap_pending (s : State) (f : Fld) (n : Nat) : (s.cwrap f n).pending = s.pending := rfl
@[simp] theorem State.cwrap_fget (s : State) (f : Fld) (n : Nat) (i : Nat) (a : Fld) : (s.cwrap f n).fget i a = s.fget i a := rfl
@[simp] theorem State.cwrap_fon (s : State) (f : Fld) (n : Nat) (i : Nat) (a : Fld) : (s.cwrap f n).fon i a = s.fon i a := rfl
@[simp] theorem State.cwrap_fe (s : State) (f : Fld) (n : Nat) (i : Nat) : (s.cwrap f n).fe i = s.fe i := rfl
@[simp] theorem State.cwrap_ch (s : State) (f : Fld) (n : Nat) (i j : Nat) : (s.cwrap f n).ch i j = s.ch i j := rfl
@[simp] theorem State.cwrap_blk (s : State) (f : Fld) (n : Nat) (i j : Nat) : (s.cwrap f n).blk i j = s.blk i j := rfl
@[simp] theorem State.cwrap_port (s : State) (f : Fld) (n : Nat) (i : Nat) : (s.cwrap f n).port i = s.port i := rfl
@[simp] theorem State.cwrap_rgn (s : State) (f : Fld) (n : Nat) (i : Nat) : (s.cwrap f n).rgn i = s.rgn i := rfl
@[simp] theorem State.cwrap_mch (s : State) (f : Fld) (n : Nat) (i : Nat) : (s.cwrap f n).mch i = s.mch i := rfl
@[simp] theorem State.cwrap_queue (s : State) (f : Fld) (n : Nat) (i j : Nat) : (s.cwrap f n).queue i j = s.queue i j := rfl

/-! ### `fset` -/

@[simp] theorem State.fset_creg (s : State) (p : Nat) (f : Fld) (v : Nat) : (s.fset p f v).creg = s.creg := rfl
@[simp] theorem State.fset_tm (s : State) (p : Nat) (f : Fld) (v : Nat) : (s.fset p f v).tm = s.tm := rfl
@[simp] theorem State.fset_fes (s : State) (p : Nat) (f : Fld) (v : Nat) : (s.fset p f v).fes = s.fes := rfl
@[simp] theorem State.fset_chans (s : State) (p : Nat) (f : Fld) (v : Nat) : (s.fset p f v).chans = s.chans := rfl
@[simp] theorem State.fset_blks (s : State) (p : Nat) (f : Fld) (v : Nat) : (s.fset p f v).blks = s.blks := rfl
@[simp] theorem State.fset_ports (s : State) (p : Nat) (f : Fld) (v : Nat) : (s.fset p f v).ports = s.ports := rfl
@[simp] theorem State.fset_ing (s : State) (p : Nat) (f : Fld) (v : Nat) : (s.fset p f v).ing = s.ing := rfl
@[simp] theorem State.fset_regions (s : State) (p : Nat) (f : Fld) (v : Nat) : (s.fset p f v).regions = s.regions := rfl
@[simp] theorem State.fset_firn (s : State) (p : Nat) (f : Fld) (v : Nat) : (s.fset p f v).firn = s.firn := rfl
@[simp] theorem State.fset_trg (s : State) (p : Nat) (f : Fld) (v : Nat) : (s.fset p f v).trg = s.trg := rfl
@[simp] theorem State.fset_upl (s : State) (p : Nat) (f : Fld) (v : Nat) : (s.fset p f v).upl = s.upl := rfl
@[simp] theorem State.fset_sp (s : State) (p : Nat) (f : Fld) (v : Nat) : (s.fset p f v).sp = s.sp := rfl
@[simp] theorem State.fset_mv (s : State) (p : Nat) (f : Fld) (v : Nat) : (s.fset p f v).mv = s.mv := rfl
@[simp] theorem State.fset_nvm (s : State) (p : Nat) (f : Fld) (v : Nat) : (s.fset p f v).nvm = s.nvm := rfl
@[simp] theorem State.fset_twin (s : State) (p : Nat) (f : Fld) (v : Nat) : (s.fset p f v).twin = s.twin := rfl
@[simp] theorem State.fset_pro (s : State) (p : Nat) (f : Fld) (v : Nat) : (s.fset p f v).pro = s.pro := rfl
@[simp] theorem State.fset_glb (s : State) (p : Nat) (f : Fld) (v : Nat) : (s.fset p f v).glb = s.glb := rfl
@[simp] theorem State.fset_svcTx (s : State) (p : Nat) (f : Fld) (v : Nat) : (s.fset p f v).svcTx = s.svcTx := rfl
@[simp] theorem State.fset_free (s : State) (p : Nat) (f : Fld) (v : Nat) : (s.fset p f v).free = s.free := rfl
@[simp] theorem State.fset_pending (s : State) (p : Nat) (f : Fld) (v : Nat) : (s.fset p f v).pending = s.pending := rfl
@[simp] theorem State.fset_cget (s : State) (p : Nat) (f : Fld) (v : Nat) (a : Fld) : (s.fset p f v).cget a = s.cget a := rfl
@[simp] theorem State.fset_con (s : State) (p : Nat) (f : Fld) (v : Nat) (a : Fld) : (s.fset p f v).con a = s.con a := rfl
@[simp] theorem State.fset_fe (s : State) (p : Nat) (f : Fld) (v : Nat) (i : Nat) : (s.fset p f v).fe i = s.fe i := rfl
@[simp] theorem State.fset_ch (s : State) (p : Nat) (f : Fld) (v : Nat) (i j : Nat) : (s.fset p f v).ch i j = s.ch i j := rfl
@[simp] theorem State.fset_blk (s : State) (p : Nat) (f : Fld) (v : Nat) (i j : Nat) : (s.fset p f v).blk i j = s.blk i j := rfl
@[simp] theorem State.fset_port (s : State) (p : Nat) (f : Fld) (v : Nat) (i : Nat) : (s.fset p f v).port i = s.port i := rfl
@[simp] theorem State.fset_rgn (s : State) (p : Nat) (f : Fld) (v : Nat) (i : Nat) : (s.fset p f v).rgn i = s.rgn i := rfl
@[simp] theorem State.fset_mch (s : State) (p : Nat) (f : Fld) (v : Nat) (i : Nat) : (s.fset p f v).mch i = s.mch i := rfl
@[simp] theorem State.fset_queue (s : State) (p : Nat) (f : Fld) (v : Nat) (i j : Nat) : (s.fset p f v).queue i j = s.queue i j := rfl

/-! ### `fadd` -/

@[simp] theorem State.fadd_creg (s : State) (p : Nat) (f : Fld) (n : Nat) : (s.fadd p f n).creg = s.creg := rfl
@[simp] theorem State.fadd_tm (s : State) (p : Nat) (f : Fld) (n : Nat) : (s.fadd p f n).tm = s.tm := rfl
@[simp] theorem State.fadd_fes (s : State) (p : Nat) (f : Fld) (n : Nat) : (s.fadd p f n).fes = s.fes := rfl
@[simp] theorem State.fadd_chans (s : State) (p : Nat) (f : Fld) (n : Nat) : (s.fadd p f n).chans = s.chans := rfl
@[simp] theorem State.fadd_blks (s : State) (p : Nat) (f : Fld) (n : Nat) : (s.fadd p f n).blks = s.blks := rfl
@[simp] theorem State.fadd_ports (s : State) (p : Nat) (f : Fld) (n : Nat) : (s.fadd p f n).ports = s.ports := rfl
@[simp] theorem State.fadd_ing (s : State) (p : Nat) (f : Fld) (n : Nat) : (s.fadd p f n).ing = s.ing := rfl
@[simp] theorem State.fadd_regions (s : State) (p : Nat) (f : Fld) (n : Nat) : (s.fadd p f n).regions = s.regions := rfl
@[simp] theorem State.fadd_firn (s : State) (p : Nat) (f : Fld) (n : Nat) : (s.fadd p f n).firn = s.firn := rfl
@[simp] theorem State.fadd_trg (s : State) (p : Nat) (f : Fld) (n : Nat) : (s.fadd p f n).trg = s.trg := rfl
@[simp] theorem State.fadd_upl (s : State) (p : Nat) (f : Fld) (n : Nat) : (s.fadd p f n).upl = s.upl := rfl
@[simp] theorem State.fadd_sp (s : State) (p : Nat) (f : Fld) (n : Nat) : (s.fadd p f n).sp = s.sp := rfl
@[simp] theorem State.fadd_mv (s : State) (p : Nat) (f : Fld) (n : Nat) : (s.fadd p f n).mv = s.mv := rfl
@[simp] theorem State.fadd_nvm (s : State) (p : Nat) (f : Fld) (n : Nat) : (s.fadd p f n).nvm = s.nvm := rfl
@[simp] theorem State.fadd_twin (s : State) (p : Nat) (f : Fld) (n : Nat) : (s.fadd p f n).twin = s.twin := rfl
@[simp] theorem State.fadd_pro (s : State) (p : Nat) (f : Fld) (n : Nat) : (s.fadd p f n).pro = s.pro := rfl
@[simp] theorem State.fadd_glb (s : State) (p : Nat) (f : Fld) (n : Nat) : (s.fadd p f n).glb = s.glb := rfl
@[simp] theorem State.fadd_svcTx (s : State) (p : Nat) (f : Fld) (n : Nat) : (s.fadd p f n).svcTx = s.svcTx := rfl
@[simp] theorem State.fadd_free (s : State) (p : Nat) (f : Fld) (n : Nat) : (s.fadd p f n).free = s.free := rfl
@[simp] theorem State.fadd_pending (s : State) (p : Nat) (f : Fld) (n : Nat) : (s.fadd p f n).pending = s.pending := rfl
@[simp] theorem State.fadd_cget (s : State) (p : Nat) (f : Fld) (n : Nat) (a : Fld) : (s.fadd p f n).cget a = s.cget a := rfl
@[simp] theorem State.fadd_con (s : State) (p : Nat) (f : Fld) (n : Nat) (a : Fld) : (s.fadd p f n).con a = s.con a := rfl
@[simp] theorem State.fadd_fe (s : State) (p : Nat) (f : Fld) (n : Nat) (i : Nat) : (s.fadd p f n).fe i = s.fe i := rfl
@[simp] theorem State.fadd_ch (s : State) (p : Nat) (f : Fld) (n : Nat) (i j : Nat) : (s.fadd p f n).ch i j = s.ch i j := rfl
@[simp] theorem State.fadd_blk (s : State) (p : Nat) (f : Fld) (n : Nat) (i j : Nat) : (s.fadd p f n).blk i j = s.blk i j := rfl
@[simp] theorem State.fadd_port (s : State) (p : Nat) (f : Fld) (n : Nat) (i : Nat) : (s.fadd p f n).port i = s.port i := rfl
@[simp] theorem State.fadd_rgn (s : State) (p : Nat) (f : Fld) (n : Nat) (i : Nat) : (s.fadd p f n).rgn i = s.rgn i := rfl
@[simp] theorem State.fadd_mch (s : State) (p : Nat) (f : Fld) (n : Nat) (i : Nat) : (s.fadd p f n).mch i = s.mch i := rfl
@[simp] theorem State.fadd_queue (s : State) (p : Nat) (f : Fld) (n : Nat) (i j : Nat) : (s.fadd p f n).queue i j = s.queue i j := rfl

/-! ### `fbump` -/

@[simp] theorem State.fbump_creg (s : State) (p : Nat) (f : Fld) : (s.fbump p f).creg = s.creg := rfl
@[simp] theorem State.fbump_tm (s : State) (p : Nat) (f : Fld) : (s.fbump p f).tm = s.tm := rfl
@[simp] theorem State.fbump_fes (s : State) (p : Nat) (f : Fld) : (s.fbump p f).fes = s.fes := rfl
@[simp] theorem State.fbump_chans (s : State) (p : Nat) (f : Fld) : (s.fbump p f).chans = s.chans := rfl
@[simp] theorem State.fbump_blks (s : State) (p : Nat) (f : Fld) : (s.fbump p f).blks = s.blks := rfl
@[simp] theorem State.fbump_ports (s : State) (p : Nat) (f : Fld) : (s.fbump p f).ports = s.ports := rfl
@[simp] theorem State.fbump_ing (s : State) (p : Nat) (f : Fld) : (s.fbump p f).ing = s.ing := rfl
@[simp] theorem State.fbump_regions (s : State) (p : Nat) (f : Fld) : (s.fbump p f).regions = s.regions := rfl
@[simp] theorem State.fbump_firn (s : State) (p : Nat) (f : Fld) : (s.fbump p f).firn = s.firn := rfl
@[simp] theorem State.fbump_trg (s : State) (p : Nat) (f : Fld) : (s.fbump p f).trg = s.trg := rfl
@[simp] theorem State.fbump_upl (s : State) (p : Nat) (f : Fld) : (s.fbump p f).upl = s.upl := rfl
@[simp] theorem State.fbump_sp (s : State) (p : Nat) (f : Fld) : (s.fbump p f).sp = s.sp := rfl
@[simp] theorem State.fbump_mv (s : State) (p : Nat) (f : Fld) : (s.fbump p f).mv = s.mv := rfl
@[simp] theorem State.fbump_nvm (s : State) (p : Nat) (f : Fld) : (s.fbump p f).nvm = s.nvm := rfl
@[simp] theorem State.fbump_twin (s : State) (p : Nat) (f : Fld) : (s.fbump p f).twin = s.twin := rfl
@[simp] theorem State.fbump_pro (s : State) (p : Nat) (f : Fld) : (s.fbump p f).pro = s.pro := rfl
@[simp] theorem State.fbump_glb (s : State) (p : Nat) (f : Fld) : (s.fbump p f).glb = s.glb := rfl
@[simp] theorem State.fbump_svcTx (s : State) (p : Nat) (f : Fld) : (s.fbump p f).svcTx = s.svcTx := rfl
@[simp] theorem State.fbump_free (s : State) (p : Nat) (f : Fld) : (s.fbump p f).free = s.free := rfl
@[simp] theorem State.fbump_pending (s : State) (p : Nat) (f : Fld) : (s.fbump p f).pending = s.pending := rfl
@[simp] theorem State.fbump_cget (s : State) (p : Nat) (f : Fld) (a : Fld) : (s.fbump p f).cget a = s.cget a := rfl
@[simp] theorem State.fbump_con (s : State) (p : Nat) (f : Fld) (a : Fld) : (s.fbump p f).con a = s.con a := rfl
@[simp] theorem State.fbump_fe (s : State) (p : Nat) (f : Fld) (i : Nat) : (s.fbump p f).fe i = s.fe i := rfl
@[simp] theorem State.fbump_ch (s : State) (p : Nat) (f : Fld) (i j : Nat) : (s.fbump p f).ch i j = s.ch i j := rfl
@[simp] theorem State.fbump_blk (s : State) (p : Nat) (f : Fld) (i j : Nat) : (s.fbump p f).blk i j = s.blk i j := rfl
@[simp] theorem State.fbump_port (s : State) (p : Nat) (f : Fld) (i : Nat) : (s.fbump p f).port i = s.port i := rfl
@[simp] theorem State.fbump_rgn (s : State) (p : Nat) (f : Fld) (i : Nat) : (s.fbump p f).rgn i = s.rgn i := rfl
@[simp] theorem State.fbump_mch (s : State) (p : Nat) (f : Fld) (i : Nat) : (s.fbump p f).mch i = s.mch i := rfl
@[simp] theorem State.fbump_queue (s : State) (p : Nat) (f : Fld) (i j : Nat) : (s.fbump p f).queue i j = s.queue i j := rfl

/-! ### `fwrap` -/

@[simp] theorem State.fwrap_creg (s : State) (p : Nat) (f : Fld) (n : Nat) : (s.fwrap p f n).creg = s.creg := rfl
@[simp] theorem State.fwrap_tm (s : State) (p : Nat) (f : Fld) (n : Nat) : (s.fwrap p f n).tm = s.tm := rfl
@[simp] theorem State.fwrap_fes (s : State) (p : Nat) (f : Fld) (n : Nat) : (s.fwrap p f n).fes = s.fes := rfl
@[simp] theorem State.fwrap_chans (s : State) (p : Nat) (f : Fld) (n : Nat) : (s.fwrap p f n).chans = s.chans := rfl
@[simp] theorem State.fwrap_blks (s : State) (p : Nat) (f : Fld) (n : Nat) : (s.fwrap p f n).blks = s.blks := rfl
@[simp] theorem State.fwrap_ports (s : State) (p : Nat) (f : Fld) (n : Nat) : (s.fwrap p f n).ports = s.ports := rfl
@[simp] theorem State.fwrap_ing (s : State) (p : Nat) (f : Fld) (n : Nat) : (s.fwrap p f n).ing = s.ing := rfl
@[simp] theorem State.fwrap_regions (s : State) (p : Nat) (f : Fld) (n : Nat) : (s.fwrap p f n).regions = s.regions := rfl
@[simp] theorem State.fwrap_firn (s : State) (p : Nat) (f : Fld) (n : Nat) : (s.fwrap p f n).firn = s.firn := rfl
@[simp] theorem State.fwrap_trg (s : State) (p : Nat) (f : Fld) (n : Nat) : (s.fwrap p f n).trg = s.trg := rfl
@[simp] theorem State.fwrap_upl (s : State) (p : Nat) (f : Fld) (n : Nat) : (s.fwrap p f n).upl = s.upl := rfl
@[simp] theorem State.fwrap_sp (s : State) (p : Nat) (f : Fld) (n : Nat) : (s.fwrap p f n).sp = s.sp := rfl
@[simp] theorem State.fwrap_mv (s : State) (p : Nat) (f : Fld) (n : Nat) : (s.fwrap p f n).mv = s.mv := rfl
@[simp] theorem State.fwrap_nvm (s : State) (p : Nat) (f : Fld) (n : Nat) : (s.fwrap p f n).nvm = s.nvm := rfl
@[simp] theorem State.fwrap_twin (s : State) (p : Nat) (f : Fld) (n : Nat) : (s.fwrap p f n).twin = s.twin := rfl
@[simp] theorem State.fwrap_pro (s : State) (p : Nat) (f : Fld) (n : Nat) : (s.fwrap p f n).pro = s.pro := rfl
@[simp] theorem State.fwrap_glb (s : State) (p : Nat) (f : Fld) (n : Nat) : (s.fwrap p f n).glb = s.glb := rfl
@[simp] theorem State.fwrap_svcTx (s : State) (p : Nat) (f : Fld) (n : Nat) : (s.fwrap p f n).svcTx = s.svcTx := rfl
@[simp] theorem State.fwrap_free (s : State) (p : Nat) (f : Fld) (n : Nat) : (s.fwrap p f n).free = s.free := rfl
@[simp] theorem State.fwrap_pending (s : State) (p : Nat) (f : Fld) (n : Nat) : (s.fwrap p f n).pending = s.pending := rfl
@[simp] theorem State.fwrap_cget (s : State) (p : Nat) (f : Fld) (n : Nat) (a : Fld) : (s.fwrap p f n).cget a = s.cget a := rfl
@[simp] theorem State.fwrap_con (s : State) (p : Nat) (f : Fld) (n : Nat) (a : Fld) : (s.fwrap p f n).con a = s.con a := rfl
@[simp] theorem State.fwrap_fe (s : State) (p : Nat) (f : Fld) (n : Nat) (i : Nat) : (s.fwrap p f n).fe i = s.fe i := rfl
@[simp] theorem State.fwrap_ch (s : State) (p : Nat) (f : Fld) (n : Nat) (i j : Nat) : (s.fwrap p f n).ch i j = s.ch i j := rfl
@[simp] theorem State.fwrap_blk (s : State) (p : Nat) (f : Fld) (n : Nat) (i j : Nat) : (s.fwrap p f n).blk i j = s.blk i j := rfl
@[simp] theorem State.fwrap_port (s : State) (p : Nat) (f : Fld) (n : Nat) (i : Nat) : (s.fwrap p f n).port i = s.port i := rfl
@[simp] theorem State.fwrap_rgn (s : State) (p : Nat) (f : Fld) (n : Nat) (i : Nat) : (s.fwrap p f n).rgn i = s.rgn i := rfl
@[simp] theorem State.fwrap_mch (s : State) (p : Nat) (f : Fld) (n : Nat) (i : Nat) : (s.fwrap p f n).mch i = s.mch i := rfl
@[simp] theorem State.fwrap_queue (s : State) (p : Nat) (f : Fld) (n : Nat) (i j : Nat) : (s.fwrap p f n).queue i j = s.queue i j := rfl

/-! ### `setFe` -/

@[simp] theorem State.setFe_creg (s : State) (p : Nat) (x : Fe) : (s.setFe p x).creg = s.creg := rfl
@[simp] theorem State.setFe_freg (s : State) (p : Nat) (x : Fe) : (s.setFe p x).freg = s.freg := rfl
@[simp] theorem State.setFe_tm (s : State) (p : Nat) (x : Fe) : (s.setFe p x).tm = s.tm := rfl
@[simp] theorem State.setFe_chans (s : State) (p : Nat) (x : Fe) : (s.setFe p x).chans = s.chans := rfl
@[simp] theorem State.setFe_blks (s : State) (p : Nat) (x : Fe) : (s.setFe p x).blks = s.blks := rfl
@[simp] theorem State.setFe_ports (s : State) (p : Nat) (x : Fe) : (s.setFe p x).ports = s.ports := rfl
@[simp] theorem State.setFe_ing (s : State) (p : Nat) (x : Fe) : (s.setFe p x).ing = s.ing := rfl
@[simp] theorem State.setFe_regions (s : State) (p : Nat) (x : Fe) : (s.setFe p x).regions = s.regions := rfl
@[simp] theorem State.setFe_firn (s : State) (p : Nat) (x : Fe) : (s.setFe p x).firn = s.firn := rfl
@[simp] theorem State.setFe_trg (s : State) (p : Nat) (x : Fe) : (s.setFe p x).trg = s.trg := rfl
@[simp] theorem State.setFe_upl (s : State) (p : Nat) (x : Fe) : (s.setFe p x).upl = s.upl := rfl
@[simp] theorem State.setFe_sp (s : State) (p : Nat) (x : Fe) : (s.setFe p x).sp = s.sp := rfl
@[simp] theorem State.setFe_mv (s : State) (p : Nat) (x : Fe) : (s.setFe p x).mv = s.mv := rfl
@[simp] theorem State.setFe_nvm (s : State) (p : Nat) (x : Fe) : (s.setFe p x).nvm = s.nvm := rfl
@[simp] theorem State.setFe_twin (s : State) (p : Nat) (x : Fe) : (s.setFe p x).twin = s.twin := rfl
@[simp] theorem State.setFe_pro (s : State) (p : Nat) (x : Fe) : (s.setFe p x).pro = s.pro := rfl
@[simp] theorem State.setFe_glb (s : State) (p : Nat) (x : Fe) : (s.setFe p x).glb = s.glb := rfl
@[simp] theorem State.setFe_svcTx (s : State) (p : Nat) (x : Fe) : (s.setFe p x).svcTx = s.svcTx := rfl
@[simp] theorem State.setFe_free (s : State) (p : Nat) (x : Fe) : (s.setFe p x).free = s.free := rfl
@[simp] theorem State.setFe_pending (s : State) (p : Nat) (x : Fe) : (s.setFe p x).pending = s.pending := rfl
@[simp] theorem State.setFe_cget (s : State) (p : Nat) (x : Fe) (a : Fld) : (s.setFe p x).cget a = s.cget a := rfl
@[simp] theorem State.setFe_con (s : State) (p : Nat) (x : Fe) (a : Fld) : (s.setFe p x).con a = s.con a := rfl
@[simp] theorem State.setFe_fget (s : State) (p : Nat) (x : Fe) (i : Nat) (a : Fld) : (s.setFe p x).fget i a = s.fget i a := rfl
@[simp] theorem State.setFe_fon (s : State) (p : Nat) (x : Fe) (i : Nat) (a : Fld) : (s.setFe p x).fon i a = s.fon i a := rfl
@[simp] theorem State.setFe_ch (s : State) (p : Nat) (x : Fe) (i j : Nat) : (s.setFe p x).ch i j = s.ch i j := rfl
@[simp] theorem State.setFe_blk (s : State) (p : Nat) (x : Fe) (i j : Nat) : (s.setFe p x).blk i j = s.blk i j := rfl
@[simp] theorem State.setFe_port (s : State) (p : Nat) (x : Fe) (i : Nat) : (s.setFe p x).port i = s.port i := rfl
@[simp] theorem State.setFe_rgn (s : State) (p : Nat) (x : Fe) (i : Nat) : (s.setFe p x).rgn i = s.rgn i := rfl
@[simp] theorem State.setFe_mch (s : State) (p : Nat) (x : Fe) (i : Nat) : (s.setFe p x).mch i = s.mch i := rfl
@[simp] theorem State.setFe_queue (s : State) (p : Nat) (x : Fe) (i j : Nat) : (s.setFe p x).queue i j = s.queue i j := rfl

/-! ### `modFe` -/

@[simp] theorem State.modFe_creg (s : State) (p : Nat) (g : Fe → Fe) : (s.modFe p g).creg = s.creg := rfl
@[simp] theorem State.modFe_freg (s : State) (p : Nat) (g : Fe → Fe) : (s.modFe p g).freg = s.freg := rfl
@[simp] theorem State.modFe_tm (s : State) (p : Nat) (g : Fe → Fe) : (s.modFe p g).tm = s.tm := rfl
@[simp] theorem State.modFe_chans (s : State) (p : Nat) (g : Fe → Fe) : (s.modFe p g).chans = s.chans := rfl
@[simp] theorem State.modFe_blks (s : State) (p : Nat) (g : Fe → Fe) : (s.modFe p g).blks = s.blks := rfl
@[simp] theorem State.modFe_ports (s : State) (p : Nat) (g : Fe → Fe) : (s.modFe p g).ports = s.ports := rfl
@[simp] theorem State.modFe_ing (s : State) (p : Nat) (g : Fe → Fe) : (s.modFe p g).ing = s.ing := rfl
@[simp] theorem State.modFe_regions (s : State) (p : Nat) (g : Fe → Fe) : (s.modFe p g).regions = s.regions := rfl
@[simp] theorem State.modFe_firn (s : State) (p : Nat) (g : Fe → Fe) : (s.modFe p g).firn = s.firn := rfl
@[simp] theorem State.modFe_trg (s : State) (p : Nat) (g : Fe → Fe) : (s.modFe p g).trg = s.trg := rfl
@[simp] theorem State.modFe_upl (s : State) (p : Nat) (g : Fe → Fe) : (s.modFe p g).upl = s.upl := rfl
@[simp] theorem State.modFe_sp (s : State) (p : Nat) (g : Fe → Fe) : (s.modFe p g).sp = s.sp := rfl
@[simp] theorem State.modFe_mv (s : State) (p : Nat) (g : Fe → Fe) : (s.modFe p g).mv = s.mv := rfl
@[simp] theorem State.modFe_nvm (s : State) (p : Nat) (g : Fe → Fe) : (s.modFe p g).nvm = s.nvm := rfl
@[simp] theorem State.modFe_twin (s : State) (p : Nat) (g : Fe → Fe) : (s.modFe p g).twin = s.twin := rfl
@[simp] theorem State.modFe_pro (s : State) (p : Nat) (g : Fe → Fe) : (s.modFe p g).pro = s.pro := rfl
@[simp] theorem State.modFe_glb (s : State) (p : Nat) (g : Fe → Fe) : (s.modFe p g).glb = s.glb := rfl
@[simp] theorem State.modFe_svcTx (s : State) (p : Nat) (g : Fe → Fe) : (s.modFe p g).svcTx = s.svcTx := rfl
@[simp] theorem State.modFe_free (s : State) (p : Nat) (g : Fe → Fe) : (s.modFe p g).free = s.free := rfl
@[simp] theorem State.modFe_pending (s : State) (p : Nat) (g : Fe → Fe) : (s.modFe p g).pending = s.pending := rfl
@[simp] theorem State.modFe_cget (s : State) (p : Nat) (g : Fe → Fe) (a : Fld) : (s.modFe p g).cget a = s.cget a := rfl
@[simp] theorem State.modFe_con (s : State) (p : Nat) (g : Fe → Fe) (a : Fld) : (s.modFe p g).con a = s.con a := rfl
@[simp] theorem State.modFe_fget (s : State) (p : Nat) (g : Fe → Fe) (i : Nat) (a : Fld) : (s.modFe p g).fget i a = s.fget i a := rfl
@[simp] theorem State.modFe_fon (s : State) (p : Nat) (g : Fe → Fe) (i : Nat) (a : Fld) : (s.modFe p g).fon i a = s.fon i a := rfl
@[simp] theorem State.modFe_ch (s : State) (p : Nat) (g : Fe → Fe) (i j : Nat) : (s.modFe p g).ch i j = s.ch i j := rfl
@[simp] theorem State.modFe_blk (s : State) (p : Nat) (g : Fe → Fe) (i j : Nat) : (s.modFe p g).blk i j = s.blk i j := rfl
@[simp] theorem State.modFe_port (s : State) (p : Nat) (g : Fe → Fe) (i : Nat) : (s.modFe p g).port i = s.port i := rfl
@[simp] theorem State.modFe_rgn (s : State) (p : Nat) (g : Fe → Fe) (i : Nat) : (s.modFe p g).rgn i = s.rgn i := rfl
@[simp] theorem State.modFe_mch (s : State) (p : Nat) (g : Fe → Fe) (i : Nat) : (s.modFe p g).mch i = s.mch i := rfl
@[simp] theorem State.modFe_queue (s : State) (p : Nat) (g : Fe → Fe) (i j : Nat) : (s.modFe p g).queue i j = s.queue i j := rfl

/-! ### `modLink` -/

@[simp] theorem State.modLink_creg (s : State) (p q : Nat) (g : FeLink → FeLink) : (s.modLink p q g).creg = s.creg := rfl
@[simp] theorem State.modLink_freg (s : State) (p q : Nat) (g : FeLink → FeLink) : (s.modLink p q g).freg = s.freg := rfl
@[simp] theorem State.modLink_tm (s : State) (p q : Nat) (g : FeLink → FeLink) : (s.modLink p q g).tm = s.tm := rfl
@[simp] theorem State.modLink_chans (s : State) (p q : Nat) (g : FeLink → FeLink) : (s.modLink p q g).chans = s.chans := rfl
@[simp] theorem State.modLink_blks (s : State) (p q : Nat) (g : FeLink → FeLink) : (s.modLink p q g).blks = s.blks := rfl
@[simp] theorem State.modLink_ports (s : State) (p q : Nat) (g : FeLink → FeLink) : (s.modLink p q g).ports = s.ports := rfl
@[simp] theorem State.modLink_ing (s : State) (p q : Nat) (g : FeLink → FeLink) : (s.modLink p q g).ing = s.ing := rfl
@[simp] theorem State.modLink_regions (s : State) (p q : Nat) (g : FeLink → FeLink) : (s.modLink p q g).regions = s.regions := rfl
@[simp] theorem State.modLink_firn (s : State) (p q : Nat) (g : FeLink → FeLink) : (s.modLink p q g).firn = s.firn := rfl
@[simp] theorem State.modLink_trg (s : State) (p q : Nat) (g : FeLink → FeLink) : (s.modLink p q g).trg = s.trg := rfl
@[simp] theorem State.modLink_upl (s : State) (p q : Nat) (g : FeLink → FeLink) : (s.modLink p q g).upl = s.upl := rfl
@[simp] theorem State.modLink_sp (s : State) (p q : Nat) (g : FeLink → FeLink) : (s.modLink p q g).sp = s.sp := rfl
@[simp] theorem State.modLink_mv (s : State) (p q : Nat) (g : FeLink → FeLink) : (s.modLink p q g).mv = s.mv := rfl
@[simp] theorem State.modLink_nvm (s : State) (p q : Nat) (g : FeLink → FeLink) : (s.modLink p q g).nvm = s.nvm := rfl
@[simp] theorem State.modLink_twin (s : State) (p q : Nat) (g : FeLink → FeLink) : (s.modLink p q g).twin = s.twin := rfl
@[simp] theorem State.modLink_pro (s : State) (p q : Nat) (g : FeLink → FeLink) : (s.modLink p q g).pro = s.pro := rfl
@[simp] theorem State.modLink_glb (s : State) (p q : Nat) (g : FeLink → FeLink) : (s.modLink p q g).glb = s.glb := rfl
@[simp] theorem State.modLink_svcTx (s : State) (p q : Nat) (g : FeLink → FeLink) : (s.modLink p q g).svcTx = s.svcTx := rfl
@[simp] theorem State.modLink_free (s : State) (p q : Nat) (g : FeLink → FeLink) : (s.modLink p q g).free = s.free := rfl
@[simp] theorem State.modLink_pending (s : State) (p q : Nat) (g : FeLink → FeLink) : (s.modLink p q g).pending = s.pending := rfl
@[simp] theorem State.modLink_cget (s : State) (p q : Nat) (g : FeLink → FeLink) (a : Fld) : (s.modLink p q g).cget a = s.cget a := rfl
@[simp] theorem State.modLink_con (s : State) (p q : Nat) (g : FeLink → FeLink) (a : Fld) : (s.modLink p q g).con a = s.con a := rfl
@[simp] theorem State.modLink_fget (s : State) (p q : Nat) (g : FeLink → FeLink) (i : Nat) (a : Fld) : (s.modLink p q g).fget i a = s.fget i a := rfl
@[simp] theorem State.modLink_fon (s : State) (p q : Nat) (g : FeLink → FeLink) (i : Nat) (a : Fld) : (s.modLink p q g).fon i a = s.fon i a := rfl
@[simp] theorem State.modLink_ch (s : State) (p q : Nat) (g : FeLink → FeLink) (i j : Nat) : (s.modLink p q g).ch i j = s.ch i j := rfl
@[simp] theorem State.modLink_blk (s : State) (p q : Nat) (g : FeLink → FeLink) (i j : Nat) : (s.modLink p q g).blk i j = s.blk i j := rfl
@[simp] theorem State.modLink_port (s : State) (p q : Nat) (g : FeLink → FeLink) (i : Nat) : (s.modLink p q g).port i = s.port i := rfl
@[simp] theorem State.modLink_rgn (s : State) (p q : Nat) (g : FeLink → FeLink) (i : Nat) : (s.modLink p q g).rgn i = s.rgn i := rfl
@[simp] theorem State.modLink_mch (s : State) (p q : Nat) (g : FeLink → FeLink) (i : Nat) : (s.modLink p q g).mch i = s.mch i := rfl
@[simp] theorem State.modLink_queue (s : State) (p q : Nat) (g : FeLink → FeLink) (i j : Nat) : (s.modLink p q g).queue i j = s.queue i j := rfl

/-! ### `setCh` -/

@[simp] theorem State.setCh_creg (s : State) (p c : Nat) (x : Chan) : (s.setCh p c x).creg = s.creg := rfl
@[simp] theorem State.setCh_freg (s : State) (p c : Nat) (x : Chan) : (s.setCh p c x).freg = s.freg := rfl
@[simp] theorem State.setCh_tm (s : State) (p c : Nat) (x : Chan) : (s.setCh p c x).tm = s.tm := rfl
@[simp] theorem State.setCh_fes (s : State) (p c : Nat) (x : Chan) : (s.setCh p c x).fes = s.fes := rfl
@[simp] theorem State.setCh_blks (s : State) (p c : Nat) (x : Chan) : (s.setCh p c x).blks = s.blks := rfl
@[simp] theorem State.setCh_ports (s : State) (p c : Nat) (x : Chan) : (s.setCh p c x).ports = s.ports := rfl
@[simp] theorem State.setCh_ing (s : State) (p c : Nat) (x : Chan) : (s.setCh p c x).ing = s.ing := rfl
@[simp] theorem State.setCh_regions (s : State) (p c : Nat) (x : Chan) : (s.setCh p c x).regions = s.regions := rfl
@[simp] theorem State.setCh_firn (s : State) (p c : Nat) (x : Chan) : (s.setCh p c x).firn = s.firn := rfl
@[simp] theorem State.setCh_trg (s : State) (p c : Nat) (x : Chan) : (s.setCh p c x).trg = s.trg := rfl
@[simp] theorem State.setCh_upl (s : State) (p c : Nat) (x : Chan) : (s.setCh p c x).upl = s.upl := rfl
@[simp] theorem State.setCh_sp (s : State) (p c : Nat) (x : Chan) : (s.setCh p c x).sp = s.sp := rfl
@[simp] theorem State.setCh_mv (s : State) (p c : Nat) (x : Chan) : (s.setCh p c x).mv = s.mv := rfl
@[simp] theorem State.setCh_nvm (s : State) (p c : Nat) (x : Chan) : (s.setCh p c x).nvm = s.nvm := rfl
@[simp] theorem State.setCh_twin (s : State) (p c : Nat) (x : Chan) : (s.setCh p c x).twin = s.twin := rfl
@[simp] theorem State.setCh_pro (s : State) (p c : Nat) (x : Chan) : (s.setCh p c x).pro = s.pro := rfl
@[simp] theorem State.setCh_glb (s : State) (p c : Nat) (x : Chan) : (s.setCh p c x).glb = s.glb := rfl
@[simp] theorem State.setCh_svcTx (s : State) (p c : Nat) (x : Chan) : (s.setCh p c x).svcTx = s.svcTx := rfl
@[simp] theorem State.setCh_free (s : State) (p c : Nat) (x : Chan) : (s.setCh p c x).free = s.free := rfl
@[simp] theorem State.setCh_pending (s : State) (p c : Nat) (x : Chan) : (s.setCh p c x).pending = s.pending := rfl
@[simp] theorem State.setCh_cget (s : State) (p c : Nat) (x : Chan) (a : Fld) : (s.setCh p c x).cget a = s.cget a := rfl
@[simp] theorem State.setCh_con (s : State) (p c : Nat) (x : Chan) (a : Fld) : (s.setCh p c x).con a = s.con a := rfl
@[simp] theorem State.setCh_fget (s : State) (p c : Nat) (x : Chan) (i : Nat) (a : Fld) : (s.setCh p c x).fget i a = s.fget i a := rfl
@[simp] theorem State.setCh_fon (s : State) (p c : Nat) (x : Chan) (i : Nat) (a : Fld) : (s.setCh p c x).fon i a = s.fon i a := rfl
@[simp] theorem State.setCh_fe (s : State) (p c : Nat) (x : Chan) (i : Nat) : (s.setCh p c x).fe i = s.fe i := rfl
@[simp] theorem State.setCh_blk (s : State) (p c : Nat) (x : Chan) (i j : Nat) : (s.setCh p c x).blk i j = s.blk i j := rfl
@[simp] theorem State.setCh_port (s : State) (p c : Nat) (x : Chan) (i : Nat) : (s.setCh p c x).port i = s.port i := rfl
@[simp] theorem State.setCh_rgn (s : State) (p c : Nat) (x : Chan) (i : Nat) : (s.setCh p c x).rgn i = s.rgn i := rfl
@[simp] theorem State.setCh_mch (s : State) (p c : Nat) (x : Chan) (i : Nat) : (s.setCh p c x).mch i = s.mch i := rfl
@[simp] theorem State.setCh_queue (s : State) (p c : Nat) (x : Chan) (i j : Nat) : (s.setCh p c x).queue i j = s.queue i j := rfl

/-! ### `modCh` -/

@[simp] theorem State.modCh_creg (s : State) (p c : Nat) (g : Chan → Chan) : (s.modCh p c g).creg = s.creg := rfl
@[simp] theorem State.modCh_freg (s : State) (p c : Nat) (g : Chan → Chan) : (s.modCh p c g).freg = s.freg := rfl
@[simp] theorem State.modCh_tm (s : State) (p c : Nat) (g : Chan → Chan) : (s.modCh p c g).tm = s.tm := rfl
@[simp] theorem State.modCh_fes (s : State) (p c : Nat) (g : Chan → Chan) : (s.modCh p c g).fes = s.fes := rfl
@[simp] theorem State.modCh_blks (s : State) (p c : Nat) (g : Chan → Chan) : (s.modCh p c g).blks = s.blks := rfl
@[simp] theorem State.modCh_ports (s : State) (p c : Nat) (g : Chan → Chan) : (s.modCh p c g).ports = s.ports := rfl
@[simp] theorem State.modCh_ing (s : State) (p c : Nat) (g : Chan → Chan) : (s.modCh p c g).ing = s.ing := rfl
@[simp] theorem State.modCh_regions (s : State) (p c : Nat) (g : Chan → Chan) : (s.modCh p c g).regions = s.regions := rfl
@[simp] theorem State.modCh_firn (s : State) (p c : Nat) (g : Chan → Chan) : (s.modCh p c g).firn = s.firn := rfl
@[simp] theorem State.modCh_trg (s : State) (p c : Nat) (g : Chan → Chan) : (s.modCh p c g).trg = s.trg := rfl
@[simp] theorem State.modCh_upl (s : State) (p c : Nat) (g : Chan → Chan) : (s.modCh p c g).upl = s.upl := rfl
@[simp] theorem State.modCh_sp (s : State) (p c : Nat) (g : Chan → Chan) : (s.modCh p c g).sp = s.sp := rfl
@[simp] theorem State.modCh_mv (s : State) (p c : Nat) (g : Chan → Chan) : (s.modCh p c g).mv = s.mv := rfl
@[simp] theorem State.modCh_nvm (s : State) (p c : Nat) (g : Chan → Chan) : (s.modCh p c g).nvm = s.nvm := rfl
@[simp] theorem State.modCh_twin (s : State) (p c : Nat) (g : Chan → Chan) : (s.modCh p c g).twin = s.twin := rfl
@[simp] theorem State.modCh_pro (s : State) (p c : Nat) (g : Chan → Chan) : (s.modCh p c g).pro = s.pro := rfl
@[simp] theorem State.modCh_glb (s : State) (p c : Nat) (g : Chan → Chan) : (s.modCh p c g).glb = s.glb := rfl
@[simp] theorem State.modCh_svcTx (s : State) (p c : Nat) (g : Chan → Chan) : (s.modCh p c g).svcTx = s.svcTx := rfl
@[simp] theorem State.modCh_free (s : State) (p c : Nat) (g : Chan → Chan) : (s.modCh p c g).free = s.free := rfl
@[simp] theorem State.modCh_pending (s : State) (p c : Nat) (g : Chan → Chan) : (s.modCh p c g).pending = s.pending := rfl
@[simp] theorem State.modCh_cget (s : State) (p c : Nat) (g : Chan → Chan) (a : Fld) : (s.modCh p c g).cget a = s.cget a := rfl
@[simp] theorem State.modCh_con (s : State) (p c : Nat) (g : Chan → Chan) (a : Fld) : (s.modCh p c g).con a = s.con a := rfl
@[simp] theorem State.modCh_fget (s : State) (p c : Nat) (g : Chan → Chan) (i : Nat) (a : Fld) : (s.modCh p c g).fget i a = s.fget i a := rfl
@[simp] theorem State.modCh_fon (s : State) (p c : Nat) (g : Chan → Chan) (i : Nat) (a : Fld) : (s.modCh p c g).fon i a = s.fon i a := rfl
@[simp] theorem State.modCh_fe (s : State) (p c : Nat) (g : Chan → Chan) (i : Nat) : (s.modCh p c g).fe i = s.fe i := rfl
@[simp] theorem State.modCh_blk (s : State) (p c : Nat) (g : Chan → Chan) (i j : Nat) : (s.modCh p c g).blk i j = s.blk i j := rfl
@[simp] theorem State.modCh_port (s : State) (p c : Nat) (g : Chan → Chan) (i : Nat) : (s.modCh p c g).port i = s.port i := rfl
@[simp] theorem State.modCh_rgn (s : State) (p c : Nat) (g : Chan → Chan) (i : Nat) : (s.modCh p c g).rgn i = s.rgn i := rfl
@[simp] theorem State.modCh_mch (s : State) (p c : Nat) (g : Chan → Chan) (i : Nat) : (s.modCh p c g).mch i = s.mch i := rfl
@[simp] theorem State.modCh_queue (s : State) (p c : Nat) (g : Chan → Chan) (i j : Nat) : (s.modCh p c g).queue i j = s.queue i j := rfl

/-! ### `setBlk` -/

@[simp] theorem State.setBlk_creg (s : State) (p b : Nat) (x : Blk) : (s.setBlk p b x).creg = s.creg := rfl
@[simp] theorem State.setBlk_freg (s : State) (p b : Nat) (x : Blk) : (s.setBlk p b x).freg = s.freg := rfl
@[simp] theorem State.setBlk_tm (s : State) (p b : Nat) (x : Blk) : (s.setBlk p b x).tm = s.tm := rfl
@[simp] theorem State.setBlk_fes (s : State) (p b : Nat) (x : Blk) : (s.setBlk p b x).fes = s.fes := rfl
@[simp] theorem State.setBlk_chans (s : State) (p b : Nat) (x : Blk) : (s.setBlk p b x).chans = s.chans := rfl
@[simp] theorem State.setBlk_ports (s : State) (p b : Nat) (x : Blk) : (s.setBlk p b x).ports = s.ports := rfl
@[simp] theorem State.setBlk_ing (s : State) (p b : Nat) (x : Blk) : (s.setBlk p b x).ing = s.ing := rfl
@[simp] theorem State.setBlk_regions (s : State) (p b : Nat) (x : Blk) : (s.setBlk p b x).regions = s.regions := rfl
@[simp] theorem State.setBlk_firn (s : State) (p b : Nat) (x : Blk) : (s.setBlk p b x).firn = s.firn := rfl
@[simp] theorem State.setBlk_trg (s : State) (p b : Nat) (x : Blk) : (s.setBlk p b x).trg = s.trg := rfl
@[simp] theorem State.setBlk_upl (s : State) (p b : Nat) (x : Blk) : (s.setBlk p b x).upl = s.upl := rfl
@[simp] theorem State.setBlk_sp (s : State) (p b : Nat) (x : Blk) : (s.setBlk p b x).sp = s.sp := rfl
@[simp] theorem State.setBlk_mv (s : State) (p b : Nat) (x : Blk) : (s.setBlk p b x).mv = s.mv := rfl
@[simp] theorem State.setBlk_nvm (s : State) (p b : Nat) (x : Blk) : (s.setBlk p b x).nvm = s.nvm := rfl
@[simp] theorem State.setBlk_twin (s : State) (p b : Nat) (x : Blk) : (s.setBlk p b x).twin = s.twin := rfl
@[simp] theorem State.setBlk_pro (s : State) (p b : Nat) (x : Blk) : (s.setBlk p b x).pro = s.pro := rfl
@[simp] theorem State.setBlk_glb (s : State) (p b : Nat) (x : Blk) : (s.setBlk p b x).glb = s.glb := rfl
@[simp] theorem State.setBlk_svcTx (s : State) (p b : Nat) (x : Blk) : (s.setBlk p b x).svcTx = s.svcTx := rfl
@[simp] theorem State.setBlk_free (s : State) (p b : Nat) (x : Blk) : (s.setBlk p b x).free = s.free := rfl
@[simp] theorem State.setBlk_pending (s : State) (p b : Nat) (x : Blk) : (s.setBlk p b x).pending = s.pending := rfl
@[simp] theorem State.setBlk_cget (s : State) (p b : Nat) (x : Blk) (a : Fld) : (s.setBlk p b x).cget a = s.cget a := rfl
@[simp] theorem State.setBlk_con (s : State) (p b : Nat) (x : Blk) (a : Fld) : (s.setBlk p b x).con a = s.con a := rfl
@[simp] theorem State.setBlk_fget (s : State) (p b : Nat) (x : Blk) (i : Nat) (a : Fld) : (s.setBlk p b x).fget i a = s.fget i a := rfl
@[simp] theorem State.setBlk_fon (s : State) (p b : Nat) (x : Blk) (i : Nat) (a : Fld) : (s.setBlk p b x).fon i a = s.fon i a := rfl
@[simp] theorem State.setBlk_fe (s : State) (p b : Nat) (x : Blk) (i : Nat) : (s.setBlk p b x).fe i = s.fe i := rfl
@[simp] theorem State.setBlk_ch (s : State) (p b : Nat) (x : Blk) (i j : Nat) : (s.setBlk p b x).ch i j = s.ch i j := rfl
@[simp] theorem State.setBlk_port (s : State) (p b : Nat) (x : Blk) (i : Nat) : (s.setBlk p b x).port i = s.port i := rfl
@[simp] theorem State.setBlk_rgn (s : State) (p b : Nat) (x : Blk) (i : Nat) : (s.setBlk p b x).rgn i = s.rgn i := rfl
@[simp] theorem State.setBlk_mch (s : State) (p b : Nat) (x : Blk) (i : Nat) : (s.setBlk p b x).mch i = s.mch i := rfl
@[simp] theorem State.setBlk_queue (s : State) (p b : Nat) (x : Blk) (i j : Nat) : (s.setBlk p b x).queue i j = s.queue i j := rfl

/-! ### `modBlk` -/

@[simp] theorem State.modBlk_creg (s : State) (p b : Nat) (g : Blk → Blk) : (s.modBlk p b g).creg = s.creg := rfl
@[simp] theorem State.modBlk_freg (s : State) (p b : Nat) (g : Blk → Blk) : (s.modBlk p b g).freg = s.freg := rfl
@[simp] theorem State.modBlk_tm (s : State) (p b : Nat) (g : Blk → Blk) : (s.modBlk p b g).tm = s.tm := rfl
@[simp] theorem State.modBlk_fes (s : State) (p b : Nat) (g : Blk → Blk) : (s.modBlk p b g).fes = s.fes := rfl
@[simp] theorem State.modBlk_chans (s : State) (p b : Nat) (g : Blk → Blk) : (s.modBlk p b g).chans = s.chans := rfl
@[simp] theorem State.modBlk_ports (s : State) (p b : Nat) (g : Blk → Blk) : (s.modBlk p b g).ports = s.ports := rfl
@[simp] theorem State.modBlk_ing (s : State) (p b : Nat) (g : Blk → Blk) : (s.modBlk p b g).ing = s.ing := rfl
@[simp] theorem State.modBlk_regions (s : State) (p b : Nat) (g : Blk → Blk) : (s.modBlk p b g).regions = s.regions := rfl
@[simp] theorem State.modBlk_firn (s : State) (p b : Nat) (g : Blk → Blk) : (s.modBlk p b g).firn = s.firn := rfl
@[simp] theorem State.modBlk_trg (s : State) (p b : Nat) (g : Blk → Blk) : (s.modBlk p b g).trg = s.trg := rfl
@[simp] theorem State.modBlk_upl (s : State) (p b : Nat) (g : Blk → Blk) : (s.modBlk p b g).upl = s.upl := rfl
@[simp] theorem State.modBlk_sp (s : State) (p b : Nat) (g : Blk → Blk) : (s.modBlk p b g).sp = s.sp := rfl
@[simp] theorem State.modBlk_mv (s : State) (p b : Nat) (g : Blk → Blk) : (s.modBlk p b g).mv = s.mv := rfl
@[simp] theorem State.modBlk_nvm (s : State) (p b : Nat) (g : Blk → Blk) : (s.modBlk p b g).nvm = s.nvm := rfl
@[simp] theorem State.modBlk_twin (s : State) (p b : Nat) (g : Blk → Blk) : (s.modBlk p b g).twin = s.twin := rfl
@[simp] theorem State.modBlk_pro (s : State) (p b : Nat) (g : Blk → Blk) : (s.modBlk p b g).pro = s.pro := rfl
@[simp] theorem State.modBlk_glb (s : State) (p b : Nat) (g : Blk → Blk) : (s.modBlk p b g).glb = s.glb := rfl
@[simp] theorem State.modBlk_svcTx (s : State) (p b : Nat) (g : Blk → Blk) : (s.modBlk p b g).svcTx = s.svcTx := rfl
@[simp] theorem State.modBlk_free (s : State) (p b : Nat) (g : Blk → Blk) : (s.modBlk p b g).free = s.free := rfl
@[simp] theorem State.modBlk_pending (s : State) (p b : Nat) (g : Blk → Blk) : (s.modBlk p b g).pending = s.pending := rfl
@[simp] theorem State.modBlk_cget (s : State) (p b : Nat) (g : Blk → Blk) (a : Fld) : (s.modBlk p b g).cget a = s.cget a := rfl
@[simp] theorem State.modBlk_con (s : State) (p b : Nat) (g : Blk → Blk) (a : Fld) : (s.modBlk p b g).con a = s.con a := rfl
@[simp] theorem State.modBlk_fget (s : State) (p b : Nat) (g : Blk → Blk) (i : Nat) (a : Fld) : (s.modBlk p b g).fget i a = s.fget i a := rfl
@[simp] theorem State.modBlk_fon (s : State) (p b : Nat) (g : Blk → Blk) (i : Nat) (a : Fld) : (s.modBlk p b g).fon i a = s.fon i a := rfl
@[simp] theorem State.modBlk_fe (s : State) (p b : Nat) (g : Blk → Blk) (i : Nat) : (s.modBlk p b g).fe i = s.fe i := rfl
@[simp] theorem State.modBlk_ch (s : State) (p b : Nat) (g : Blk → Blk) (i j : Nat) : (s.modBlk p b g).ch i j = s.ch i j := rfl
@[simp] theorem State.modBlk_port (s : State) (p b : Nat) (g : Blk → Blk) (i : Nat) : (s.modBlk p b g).port i = s.port i := rfl
@[simp] theorem State.modBlk_rgn (s : State) (p b : Nat) (g : Blk → Blk) (i : Nat) : (s.modBlk p b g).rgn i = s.rgn i := rfl
@[simp] theorem State.modBlk_mch (s : State) (p b : Nat) (g : Blk → Blk) (i : Nat) : (s.modBlk p b g).mch i = s.mch i := rfl
@[simp] theorem State.modBlk_queue (s : State) (p b : Nat) (g : Blk → Blk) (i j : Nat) : (s.modBlk p b g).queue i j = s.queue i j := rfl

/-! ### `setPort` -/

@[simp] theorem State.setPort_creg (s : State) (p : Nat) (x : Port) : (s.setPort p x).creg = s.creg := rfl
@[simp] theorem State.setPort_freg (s : State) (p : Nat) (x : Port) : (s.setPort p x).freg = s.freg := rfl
@[simp] theorem State.setPort_tm (s : State) (p : Nat) (x : Port) : (s.setPort p x).tm = s.tm := rfl
@[simp] theorem State.setPort_fes (s : State) (p : Nat) (x : Port) : (s.setPort p x).fes = s.fes := rfl
@[simp] theorem State.setPort_chans (s : State) (p : Nat) (x : Port) : (s.setPort p x).chans = s.chans := rfl
@[simp] theorem State.setPort_blks (s : State) (p : Nat) (x : Port) : (s.setPort p x).blks = s.blks := rfl
@[simp] theorem State.setPort_ing (s : State) (p : Nat) (x : Port) : (s.setPort p x).ing = s.ing := rfl
@[simp] theorem State.setPort_regions (s : State) (p : Nat) (x : Port) : (s.setPort p x).regions = s.regions := rfl
@[simp] theorem State.setPort_firn (s : State) (p : Nat) (x : Port) : (s.setPort p x).firn = s.firn := rfl
@[simp] theorem State.setPort_trg (s : State) (p : Nat) (x : Port) : (s.setPort p x).trg = s.trg := rfl
@[simp] theorem State.setPort_upl (s : State) (p : Nat) (x : Port) : (s.setPort p x).upl = s.upl := rfl
@[simp] theorem State.setPort_sp (s : State) (p : Nat) (x : Port) : (s.setPort p x).sp = s.sp := rfl
@[simp] theorem State.setPort_mv (s : State) (p : Nat) (x : Port) : (s.setPort p x).mv = s.mv := rfl
@[simp] theorem State.setPort_nvm (s : State) (p : Nat) (x : Port) : (s.setPort p x).nvm = s.nvm := rfl
@[simp] theorem State.setPort_twin (s : State) (p : Nat) (x : Port) : (s.setPort p x).twin = s.twin := rfl
@[simp] theorem State.setPort_pro (s : State) (p : Nat) (x : Port) : (s.setPort p x).pro = s.pro := rfl
@[simp] theorem State.setPort_glb (s : State) (p : Nat) (x : Port) : (s.setPort p x).glb = s.glb := rfl
@[simp] theorem State.setPort_svcTx (s : State) (p : Nat) (x : Port) : (s.setPort p x).svcTx = s.svcTx := rfl
@[simp] theorem State.setPort_free (s : State) (p : Nat) (x : Port) : (s.setPort p x).free = s.free := rfl
@[simp] theorem State.setPort_pending (s : State) (p : Nat) (x : Port) : (s.setPort p x).pending = s.pending := rfl
@[simp] theorem State.setPort_cget (s : State) (p : Nat) (x : Port) (a : Fld) : (s.setPort p x).cget a = s.cget a := rfl
@[simp] theorem State.setPort_con (s : State) (p : Nat) (x : Port) (a : Fld) : (s.setPort p x).con a = s.con a := rfl
@[simp] theorem State.setPort_fget (s : State) (p : Nat) (x : Port) (i : Nat) (a : Fld) : (s.setPort p x).fget i a = s.fget i a := rfl
@[simp] theorem State.setPort_fon (s : State) (p : Nat) (x : Port) (i : Nat) (a : Fld) : (s.setPort p x).fon i a = s.fon i a := rfl
@[simp] theorem State.setPort_fe (s : State) (p : Nat) (x : Port) (i : Nat) : (s.setPort p x).fe i = s.fe i := rfl
@[simp] theorem State.setPort_ch (s : State) (p : Nat) (x : Port) (i j : Nat) : (s.setPort p x).ch i j = s.ch i j := rfl
@[simp] theorem State.setPort_blk (s : State) (p : Nat) (x : Port) (i j : Nat) : (s.setPort p x).blk i j = s.blk i j := rfl
@[simp] theorem State.setPort_rgn (s : State) (p : Nat) (x : Port) (i : Nat) : (s.setPort p x).rgn i = s.rgn i := rfl
@[simp] theorem State.setPort_mch (s : State) (p : Nat) (x : Port) (i : Nat) : (s.setPort p x).mch i = s.mch i := rfl
@[simp] theorem State.setPort_queue (s : State) (p : Nat) (x : Port) (i j : Nat) : (s.setPort p x).queue i j = s.queue i j := rfl

/-! ### `modPort` -/

@[simp] theorem State.modPort_creg (s : State) (p : Nat) (g : Port → Port) : (s.modPort p g).creg = s.creg := rfl
@[simp] theorem State.modPort_freg (s : State) (p : Nat) (g : Port → Port) : (s.modPort p g).freg = s.freg := rfl
@[simp] theorem State.modPort_tm (s : State) (p : Nat) (g : Port → Port) : (s.modPort p g).tm = s.tm := rfl
@[simp] theorem State.modPort_fes (s : State) (p : Nat) (g : Port → Port) : (s.modPort p g).fes = s.fes := rfl
@[simp] theorem State.modPort_chans (s : State) (p : Nat) (g : Port → Port) : (s.modPort p g).chans = s.chans := rfl
@[simp] theorem State.modPort_blks (s : State) (p : Nat) (g : Port → Port) : (s.modPort p g).blks = s.blks := rfl
@[simp] theorem State.modPort_ing (s : State) (p : Nat) (g : Port → Port) : (s.modPort p g).ing = s.ing := rfl
@[simp] theorem State.modPort_regions (s : State) (p : Nat) (g : Port → Port) : (s.modPort p g).regions = s.regions := rfl
@[simp] theorem State.modPort_firn (s : State) (p : Nat) (g : Port → Port) : (s.modPort p g).firn = s.firn := rfl
@[simp] theorem State.modPort_trg (s : State) (p : Nat) (g : Port → Port) : (s.modPort p g).trg = s.trg := rfl
@[simp] theorem State.modPort_upl (s : State) (p : Nat) (g : Port → Port) : (s.modPort p g).upl = s.upl := rfl
@[simp] theorem State.modPort_sp (s : State) (p : Nat) (g : Port → Port) : (s.modPort p g).sp = s.sp := rfl
@[simp] theorem State.modPort_mv (s : State) (p : Nat) (g : Port → Port) : (s.modPort p g).mv = s.mv := rfl
@[simp] theorem State.modPort_nvm (s : State) (p : Nat) (g : Port → Port) : (s.modPort p g).nvm = s.nvm := rfl
@[simp] theorem State.modPort_twin (s : State) (p : Nat) (g : Port → Port) : (s.modPort p g).twin = s.twin := rfl
@[simp] theorem State.modPort_pro (s : State) (p : Nat) (g : Port → Port) : (s.modPort p g).pro = s.pro := rfl
@[simp] theorem State.modPort_glb (s : State) (p : Nat) (g : Port → Port) : (s.modPort p g).glb = s.glb := rfl
@[simp] theorem State.modPort_svcTx (s : State) (p : Nat) (g : Port → Port) : (s.modPort p g).svcTx = s.svcTx := rfl
@[simp] theorem State.modPort_free (s : State) (p : Nat) (g : Port → Port) : (s.modPort p g).free = s.free := rfl
@[simp] theorem State.modPort_pending (s : State) (p : Nat) (g : Port → Port) : (s.modPort p g).pending = s.pending := rfl
@[simp] theorem State.modPort_cget (s : State) (p : Nat) (g : Port → Port) (a : Fld) : (s.modPort p g).cget a = s.cget a := rfl
@[simp] theorem State.modPort_con (s : State) (p : Nat) (g : Port → Port) (a : Fld) : (s.modPort p g).con a = s.con a := rfl
@[simp] theorem State.modPort_fget (s : State) (p : Nat) (g : Port → Port) (i : Nat) (a : Fld) : (s.modPort p g).fget i a = s.fget i a := rfl
@[simp] theorem State.modPort_fon (s : State) (p : Nat) (g : Port → Port) (i : Nat) (a : Fld) : (s.modPort p g).fon i a = s.fon i a := rfl
@[simp] theorem State.modPort_fe (s : State) (p : Nat) (g : Port → Port) (i : Nat) : (s.modPort p g).fe i = s.fe i := rfl
@[simp] theorem State.modPort_ch (s : State) (p : Nat) (g : Port → Port) (i j : Nat) : (s.modPort p g).ch i j = s.ch i j := rfl
@[simp] theorem State.modPort_blk (s : State) (p : Nat) (g : Port → Port) (i j : Nat) : (s.modPort p g).blk i j = s.blk i j := rfl
@[simp] theorem State.modPort_rgn (s : State) (p : Nat) (g : Port → Port) (i : Nat) : (s.modPort p g).rgn i = s.rgn i := rfl
@[simp] theorem State.modPort_mch (s : State) (p : Nat) (g : Port → Port) (i : Nat) : (s.modPort p g).mch i = s.mch i := rfl
@[simp] theorem State.modPort_queue (s : State) (p : Nat) (g : Port → Port) (i j : Nat) : (s.modPort p g).queue i j = s.queue i j := rfl

/-! ### `setRgn` -/

@[simp] theorem State.setRgn_creg (s : State) (r : Nat) (x : Region) : (s.setRgn r x).creg = s.creg := rfl
@[simp] theorem State.setRgn_freg (s : State) (r : Nat) (x : Region) : (s.setRgn r x).freg = s.freg := rfl
@[simp] theorem State.setRgn_tm (s : State) (r : Nat) (x : Region) : (s.setRgn r x).tm = s.tm := rfl
@[simp] theorem State.setRgn_fes (s : State) (r : Nat) (x : Region) : (s.setRgn r x).fes = s.fes := rfl
@[simp] theorem State.setRgn_chans (s : State) (r : Nat) (x : Region) : (s.setRgn r x).chans = s.chans := rfl
@[simp] theorem State.setRgn_blks (s : State) (r : Nat) (x : Region) : (s.setRgn r x).blks = s.blks := rfl
@[simp] theorem State.setRgn_ports (s : State) (r : Nat) (x : Region) : (s.setRgn r x).ports = s.ports := rfl
@[simp] theorem State.setRgn_ing (s : State) (r : Nat) (x : Region) : (s.setRgn r x).ing = s.ing := rfl
@[simp] theorem State.setRgn_firn (s : State) (r : Nat) (x : Region) : (s.setRgn r x).firn = s.firn := rfl
@[simp] theorem State.setRgn_trg (s : State) (r : Nat) (x : Region) : (s.setRgn r x).trg = s.trg := rfl
@[simp] theorem State.setRgn_upl (s : State) (r : Nat) (x : Region) : (s.setRgn r x).upl = s.upl := rfl
@[simp] theorem State.setRgn_sp (s : State) (r : Nat) (x : Region) : (s.setRgn r x).sp = s.sp := rfl
@[simp] theorem State.setRgn_mv (s : State) (r : Nat) (x : Region) : (s.setRgn r x).mv = s.mv := rfl
@[simp] theorem State.setRgn_nvm (s : State) (r : Nat) (x : Region) : (s.setRgn r x).nvm = s.nvm := rfl
@[simp] theorem State.setRgn_twin (s : State) (r : Nat) (x : Region) : (s.setRgn r x).twin = s.twin := rfl
@[simp] theorem State.setRgn_pro (s : State) (r : Nat) (x : Region) : (s.setRgn r x).pro = s.pro := rfl
@[simp] theorem State.setRgn_glb (s : State) (r : Nat) (x : Region) : (s.setRgn r x).glb = s.glb := rfl
@[simp] theorem State.setRgn_svcTx (s : State) (r : Nat) (x : Region) : (s.setRgn r x).svcTx = s.svcTx := rfl
@[simp] theorem State.setRgn_free (s : State) (r : Nat) (x : Region) : (s.setRgn r x).free = s.free := rfl
@[simp] theorem State.setRgn_pending (s : State) (r : Nat) (x : Region) : (s.setRgn r x).pending = s.pending := rfl
@[simp] theorem State.setRgn_cget (s : State) (r : Nat) (x : Region) (a : Fld) : (s.setRgn r x).cget a = s.cget a := rfl
@[simp] theorem State.setRgn_con (s : State) (r : Nat) (x : Region) (a : Fld) : (s.setRgn r x).con a = s.con a := rfl
@[simp] theorem State.setRgn_fget (s : State) (r : Nat) (x : Region) (i : Nat) (a : Fld) : (s.setRgn r x).fget i a = s.fget i a := rfl
@[simp] theorem State.setRgn_fon (s : State) (r : Nat) (x : Region) (i : Nat) (a : Fld) : (s.setRgn r x).fon i a = s.fon i a := rfl
@[simp] theorem State.setRgn_fe (s : State) (r : Nat) (x : Region) (i : Nat) : (s.setRgn r x).fe i = s.fe i := rfl
@[simp] theorem State.setRgn_ch (s : State) (r : Nat) (x : Region) (i j : Nat) : (s.setRgn r x).ch i j = s.ch i j := rfl
@[simp] theorem State.setRgn_blk (s : State) (r : Nat) (x : Region) (i j : Nat) : (s.setRgn r x).blk i j = s.blk i j := rfl
@[simp] theorem State.setRgn_port (s : State) (r : Nat) (x : Region) (i : Nat) : (s.setRgn r x).port i = s.port i := rfl
@[simp] theorem State.setRgn_mch (s : State) (r : Nat) (x : Region) (i : Nat) : (s.setRgn r x).mch i = s.mch i := rfl
@[simp] theorem State.setRgn_queue (s : State) (r : Nat) (x : Region) (i j : Nat) : (s.setRgn r x).queue i j = s.queue i j := rfl

/-! ### `modRgn` -/

@[simp] theorem State.modRgn_creg (s : State) (r : Nat) (g : Region → Region) : (s.modRgn r g).creg = s.creg := rfl
@[simp] theorem State.modRgn_freg (s : State) (r : Nat) (g : Region → Region) : (s.modRgn r g).freg = s.freg := rfl
@[simp] theorem State.modRgn_tm (s : State) (r : Nat) (g : Region → Region) : (s.modRgn r g).tm = s.tm := rfl
@[simp] theorem State.modRgn_fes (s : State) (r : Nat) (g : Region → Region) : (s.modRgn r g).fes = s.fes := rfl
@[simp] theorem State.modRgn_chans (s : State) (r : Nat) (g : Region → Region) : (s.modRgn r g).chans = s.chans := rfl
@[simp] theorem State.modRgn_blks (s : State) (r : Nat) (g : Region → Region) : (s.modRgn r g).blks = s.blks := rfl
@[simp] theorem State.modRgn_ports (s : State) (r : Nat) (g : Region → Region) : (s.modRgn r g).ports = s.ports := rfl
@[simp] theorem State.modRgn_ing (s : State) (r : Nat) (g : Region → Region) : (s.modRgn r g).ing = s.ing := rfl
@[simp] theorem State.modRgn_firn (s : State) (r : Nat) (g : Region → Region) : (s.modRgn r g).firn = s.firn := rfl
@[simp] theorem State.modRgn_trg (s : State) (r : Nat) (g : Region → Region) : (s.modRgn r g).trg = s.trg := rfl
@[simp] theorem State.modRgn_upl (s : State) (r : Nat) (g : Region → Region) : (s.modRgn r g).upl = s.upl := rfl
@[simp] theorem State.modRgn_sp (s : State) (r : Nat) (g : Region → Region) : (s.modRgn r g).sp = s.sp := rfl
@[simp] theorem State.modRgn_mv (s : State) (r : Nat) (g : Region → Region) : (s.modRgn r g).mv = s.mv := rfl
@[simp] theorem State.modRgn_nvm (s : State) (r : Nat) (g : Region → Region) : (s.modRgn r g).nvm = s.nvm := rfl
@[simp] theorem State.modRgn_twin (s : State) (r : Nat) (g : Region → Region) : (s.modRgn r g).twin = s.twin := rfl
@[simp] theorem State.modRgn_pro (s : State) (r : Nat) (g : Region → Region) : (s.modRgn r g).pro = s.pro := rfl
@[simp] theorem State.modRgn_glb (s : State) (r : Nat) (g : Region → Region) : (s.modRgn r g).glb = s.glb := rfl
@[simp] theorem State.modRgn_svcTx (s : State) (r : Nat) (g : Region → Region) : (s.modRgn r g).svcTx = s.svcTx := rfl
@[simp] theorem State.modRgn_free (s : State) (r : Nat) (g : Region → Region) : (s.modRgn r g).free = s.free := rfl
@[simp] theorem State.modRgn_pending (s : State) (r : Nat) (g : Region → Region) : (s.modRgn r g).pending = s.pending := rfl
@[simp] theorem State.modRgn_cget (s : State) (r : Nat) (g : Region → Region) (a : Fld) : (s.modRgn r g).cget a = s.cget a := rfl
@[simp] theorem State.modRgn_con (s : State) (r : Nat) (g : Region → Region) (a : Fld) : (s.modRgn r g).con a = s.con a := rfl
@[simp] theorem State.modRgn_fget (s : State) (r : Nat) (g : Region → Region) (i : Nat) (a : Fld) : (s.modRgn r g).fget i a = s.fget i a := rfl
@[simp] theorem State.modRgn_fon (s : State) (r : Nat) (g : Region → Region) (i : Nat) (a : Fld) : (s.modRgn r g).fon i a = s.fon i a := rfl
@[simp] theorem State.modRgn_fe (s : State) (r : Nat) (g : Region → Region) (i : Nat) : (s.modRgn r g).fe i = s.fe i := rfl
@[simp] theorem State.modRgn_ch (s : State) (r : Nat) (g : Region → Region) (i j : Nat) : (s.modRgn r g).ch i j = s.ch i j := rfl
@[simp] theorem State.modRgn_blk (s : State) (r : Nat) (g : Region → Region) (i j : Nat) : (s.modRgn r g).blk i j = s.blk i j := rfl
@[simp] theorem State.modRgn_port (s : State) (r : Nat) (g : Region → Region) (i : Nat) : (s.modRgn r g).port i = s.port i := rfl
@[simp] theorem State.modRgn_mch (s : State) (r : Nat) (g : Region → Region) (i : Nat) : (s.modRgn r g).mch i = s.mch i := rfl
@[simp] theorem State.modRgn_queue (s : State) (r : Nat) (g : Region → Region) (i j : Nat) : (s.modRgn r g).queue i j = s.queue i j := rfl

/-! ### `modTm` -/

@[simp] theorem State.modTm_creg (s : State) (g : TimeSt → TimeSt) : (s.modTm g).creg = s.creg := rfl
@[simp] theorem State.modTm_freg (s : State) (g : TimeSt → TimeSt) : (s.modTm g).freg = s.freg := rfl
@[simp] theorem State.modTm_fes (s : State) (g : TimeSt → TimeSt) : (s.modTm g).fes = s.fes := rfl
@[simp] theorem State.modTm_chans (s : State) (g : TimeSt → TimeSt) : (s.modTm g).chans = s.chans := rfl
@[simp] theorem State.modTm_blks (s : State) (g : TimeSt → TimeSt) : (s.modTm g).blks = s.blks := rfl
@[simp] theorem State.modTm_ports (s : State) (g : TimeSt → TimeSt) : (s.modTm g).ports = s.ports := rfl
@[simp] theorem State.modTm_ing (s : State) (g : TimeSt → TimeSt) : (s.modTm g).ing = s.ing := rfl
@[simp] theorem State.modTm_regions (s : State) (g : TimeSt → TimeSt) : (s.modTm g).regions = s.regions := rfl
@[simp] theorem State.modTm_firn (s : State) (g : TimeSt → TimeSt) : (s.modTm g).firn = s.firn := rfl
@[simp] theorem State.modTm_trg (s : State) (g : TimeSt → TimeSt) : (s.modTm g).trg = s.trg := rfl
@[simp] theorem State.modTm_upl (s : State) (g : TimeSt → TimeSt) : (s.modTm g).upl = s.upl := rfl
@[simp] theorem State.modTm_sp (s : State) (g : TimeSt → TimeSt) : (s.modTm g).sp = s.sp := rfl
@[simp] theorem State.modTm_mv (s : State) (g : TimeSt → TimeSt) : (s.modTm g).mv = s.mv := rfl
@[simp] theorem State.modTm_nvm (s : State) (g : TimeSt → TimeSt) : (s.modTm g).nvm = s.nvm := rfl
@[simp] theorem State.modTm_twin (s : State) (g : TimeSt → TimeSt) : (s.modTm g).twin = s.twin := rfl
@[simp] theorem State.modTm_pro (s : State) (g : TimeSt → TimeSt) : (s.modTm g).pro = s.pro := rfl
@[simp] theorem State.modTm_glb (s : State) (g : TimeSt → TimeSt) : (s.modTm g).glb = s.glb := rfl
@[simp] theorem State.modTm_svcTx (s : State) (g : TimeSt → TimeSt) : (s.modTm g).svcTx = s.svcTx := rfl
@[simp] theorem State.modTm_free (s : State) (g : TimeSt → TimeSt) : (s.modTm g).free = s.free := rfl
@[simp] theorem State.modTm_pending (s : State) (g : TimeSt → TimeSt) : (s.modTm g).pending = s.pending := rfl
@[simp] theorem State.modTm_tm (s : State) (g : TimeSt → TimeSt) : (s.modTm g).tm = g s.tm := rfl
@[simp] theorem State.modTm_cget (s : State) (g : TimeSt → TimeSt) (a : Fld) : (s.modTm g).cget a = s.cget a := rfl
@[simp] theorem State.modTm_con (s : State) (g : TimeSt → TimeSt) (a : Fld) : (s.modTm g).con a = s.con a := rfl
@[simp] theorem State.modTm_fget (s : State) (g : TimeSt → TimeSt) (i : Nat) (a : Fld) : (s.modTm g).fget i a = s.fget i a := rfl
@[simp] theorem State.modTm_fon (s : State) (g : TimeSt → TimeSt) (i : Nat) (a : Fld) : (s.modTm g).fon i a = s.fon i a := rfl
@[simp] theorem State.modTm_fe (s : State) (g : TimeSt → TimeSt) (i : Nat) : (s.modTm g).fe i = s.fe i := rfl
@[simp] theorem State.modTm_ch (s : State) (g : TimeSt → TimeSt) (i j : Nat) : (s.modTm g).ch i j = s.ch i j := rfl
@[simp] theorem State.modTm_blk (s : State) (g : TimeSt → TimeSt) (i j : Nat) : (s.modTm g).blk i j = s.blk i j := rfl
@[simp] theorem State.modTm_port (s : State) (g : TimeSt → TimeSt) (i : Nat) : (s.modTm g).port i = s.port i := rfl
@[simp] theorem State.modTm_rgn (s : State) (g : TimeSt → TimeSt) (i : Nat) : (s.modTm g).rgn i = s.rgn i := rfl
@[simp] theorem State.modTm_mch (s : State) (g : TimeSt → TimeSt) (i : Nat) : (s.modTm g).mch i = s.mch i := rfl
@[simp] theorem State.modTm_queue (s : State) (g : TimeSt → TimeSt) (i j : Nat) : (s.modTm g).queue i j = s.queue i j := rfl

/-! ### `modFirn` -/

@[simp] theorem State.modFirn_creg (s : State) (g : FirnSt → FirnSt) : (s.modFirn g).creg = s.creg := rfl
@[simp] theorem State.modFirn_freg (s : State) (g : FirnSt → FirnSt) : (s.modFirn g).freg = s.freg := rfl
@[simp] theorem State.modFirn_tm (s : State) (g : FirnSt → FirnSt) : (s.modFirn g).tm = s.tm := rfl
@[simp] theorem State.modFirn_fes (s : State) (g : FirnSt → FirnSt) : (s.modFirn g).fes = s.fes := rfl
@[simp] theorem State.modFirn_chans (s : State) (g : FirnSt → FirnSt) : (s.modFirn g).chans = s.chans := rfl
@[simp] theorem State.modFirn_blks (s : State) (g : FirnSt → FirnSt) : (s.modFirn g).blks = s.blks := rfl
@[simp] theorem State.modFirn_ports (s : State) (g : FirnSt → FirnSt) : (s.modFirn g).ports = s.ports := rfl
@[simp] theorem State.modFirn_ing (s : State) (g : FirnSt → FirnSt) : (s.modFirn g).ing = s.ing := rfl
@[simp] theorem State.modFirn_regions (s : State) (g : FirnSt → FirnSt) : (s.modFirn g).regions = s.regions := rfl
@[simp] theorem State.modFirn_trg (s : State) (g : FirnSt → FirnSt) : (s.modFirn g).trg = s.trg := rfl
@[simp] theorem State.modFirn_upl (s : State) (g : FirnSt → FirnSt) : (s.modFirn g).upl = s.upl := rfl
@[simp] theorem State.modFirn_sp (s : State) (g : FirnSt → FirnSt) : (s.modFirn g).sp = s.sp := rfl
@[simp] theorem State.modFirn_mv (s : State) (g : FirnSt → FirnSt) : (s.modFirn g).mv = s.mv := rfl
@[simp] theorem State.modFirn_nvm (s : State) (g : FirnSt → FirnSt) : (s.modFirn g).nvm = s.nvm := rfl
@[simp] theorem State.modFirn_twin (s : State) (g : FirnSt → FirnSt) : (s.modFirn g).twin = s.twin := rfl
@[simp] theorem State.modFirn_pro (s : State) (g : FirnSt → FirnSt) : (s.modFirn g).pro = s.pro := rfl
@[simp] theorem State.modFirn_glb (s : State) (g : FirnSt → FirnSt) : (s.modFirn g).glb = s.glb := rfl
@[simp] theorem State.modFirn_svcTx (s : State) (g : FirnSt → FirnSt) : (s.modFirn g).svcTx = s.svcTx := rfl
@[simp] theorem State.modFirn_free (s : State) (g : FirnSt → FirnSt) : (s.modFirn g).free = s.free := rfl
@[simp] theorem State.modFirn_pending (s : State) (g : FirnSt → FirnSt) : (s.modFirn g).pending = s.pending := rfl
@[simp] theorem State.modFirn_firn (s : State) (g : FirnSt → FirnSt) : (s.modFirn g).firn = g s.firn := rfl
@[simp] theorem State.modFirn_cget (s : State) (g : FirnSt → FirnSt) (a : Fld) : (s.modFirn g).cget a = s.cget a := rfl
@[simp] theorem State.modFirn_con (s : State) (g : FirnSt → FirnSt) (a : Fld) : (s.modFirn g).con a = s.con a := rfl
@[simp] theorem State.modFirn_fget (s : State) (g : FirnSt → FirnSt) (i : Nat) (a : Fld) : (s.modFirn g).fget i a = s.fget i a := rfl
@[simp] theorem State.modFirn_fon (s : State) (g : FirnSt → FirnSt) (i : Nat) (a : Fld) : (s.modFirn g).fon i a = s.fon i a := rfl
@[simp] theorem State.modFirn_fe (s : State) (g : FirnSt → FirnSt) (i : Nat) : (s.modFirn g).fe i = s.fe i := rfl
@[simp] theorem State.modFirn_ch (s : State) (g : FirnSt → FirnSt) (i j : Nat) : (s.modFirn g).ch i j = s.ch i j := rfl
@[simp] theorem State.modFirn_blk (s : State) (g : FirnSt → FirnSt) (i j : Nat) : (s.modFirn g).blk i j = s.blk i j := rfl
@[simp] theorem State.modFirn_port (s : State) (g : FirnSt → FirnSt) (i : Nat) : (s.modFirn g).port i = s.port i := rfl
@[simp] theorem State.modFirn_rgn (s : State) (g : FirnSt → FirnSt) (i : Nat) : (s.modFirn g).rgn i = s.rgn i := rfl
@[simp] theorem State.modFirn_mch (s : State) (g : FirnSt → FirnSt) (i : Nat) : (s.modFirn g).mch i = s.mch i := rfl
@[simp] theorem State.modFirn_queue (s : State) (g : FirnSt → FirnSt) (i j : Nat) : (s.modFirn g).queue i j = s.queue i j := rfl

/-! ### `modTrg` -/

@[simp] theorem State.modTrg_creg (s : State) (g : TrgSt → TrgSt) : (s.modTrg g).creg = s.creg := rfl
@[simp] theorem State.modTrg_freg (s : State) (g : TrgSt → TrgSt) : (s.modTrg g).freg = s.freg := rfl
@[simp] theorem State.modTrg_tm (s : State) (g : TrgSt → TrgSt) : (s.modTrg g).tm = s.tm := rfl
@[simp] theorem State.modTrg_fes (s : State) (g : TrgSt → TrgSt) : (s.modTrg g).fes = s.fes := rfl
@[simp] theorem State.modTrg_chans (s : State) (g : TrgSt → TrgSt) : (s.modTrg g).chans = s.chans := rfl
@[simp] theorem State.modTrg_blks (s : State) (g : TrgSt → TrgSt) : (s.modTrg g).blks = s.blks := rfl
@[simp] theorem State.modTrg_ports (s : State) (g : TrgSt → TrgSt) : (s.modTrg g).ports = s.ports := rfl
@[simp] theorem State.modTrg_ing (s : State) (g : TrgSt → TrgSt) : (s.modTrg g).ing = s.ing := rfl
@[simp] theorem State.modTrg_regions (s : State) (g : TrgSt → TrgSt) : (s.modTrg g).regions = s.regions := rfl
@[simp] theorem State.modTrg_firn (s : State) (g : TrgSt → TrgSt) : (s.modTrg g).firn = s.firn := rfl
@[simp] theorem State.modTrg_upl (s : State) (g : TrgSt → TrgSt) : (s.modTrg g).upl = s.upl := rfl
@[simp] theorem State.modTrg_sp (s : State) (g : TrgSt → TrgSt) : (s.modTrg g).sp = s.sp := rfl
@[simp] theorem State.modTrg_mv (s : State) (g : TrgSt → TrgSt) : (s.modTrg g).mv = s.mv := rfl
@[simp] theorem State.modTrg_nvm (s : State) (g : TrgSt → TrgSt) : (s.modTrg g).nvm = s.nvm := rfl
@[simp] theorem State.modTrg_twin (s : State) (g : TrgSt → TrgSt) : (s.modTrg g).twin = s.twin := rfl
@[simp] theorem State.modTrg_pro (s : State) (g : TrgSt → TrgSt) : (s.modTrg g).pro = s.pro := rfl
@[simp] theorem State.modTrg_glb (s : State) (g : TrgSt → TrgSt) : (s.modTrg g).glb = s.glb := rfl
@[simp] theorem State.modTrg_svcTx (s : State) (g : TrgSt → TrgSt) : (s.modTrg g).svcTx = s.svcTx := rfl
@[simp] theorem State.modTrg_free (s : State) (g : TrgSt → TrgSt) : (s.modTrg g).free = s.free := rfl
@[simp] theorem State.modTrg_pending (s : State) (g : TrgSt → TrgSt) : (s.modTrg g).pending = s.pending := rfl
@[simp] theorem State.modTrg_trg (s : State) (g : TrgSt → TrgSt) : (s.modTrg g).trg = g s.trg := rfl
@[simp] theorem State.modTrg_cget (s : State) (g : TrgSt → TrgSt) (a : Fld) : (s.modTrg g).cget a = s.cget a := rfl
@[simp] theorem State.modTrg_con (s : State) (g : TrgSt → TrgSt) (a : Fld) : (s.modTrg g).con a = s.con a := rfl
@[simp] theorem State.modTrg_fget (s : State) (g : TrgSt → TrgSt) (i : Nat) (a : Fld) : (s.modTrg g).fget i a = s.fget i a := rfl
@[simp] theorem State.modTrg_fon (s : State) (g : TrgSt → TrgSt) (i : Nat) (a : Fld) : (s.modTrg g).fon i a = s.fon i a := rfl
@[simp] theorem State.modTrg_fe (s : State) (g : TrgSt → TrgSt) (i : Nat) : (s.modTrg g).fe i = s.fe i := rfl
@[simp] theorem State.modTrg_ch (s : State) (g : TrgSt → TrgSt) (i j : Nat) : (s.modTrg g).ch i j = s.ch i j := rfl
@[simp] theorem State.modTrg_blk (s : State) (g : TrgSt → TrgSt) (i j : Nat) : (s.modTrg g).blk i j = s.blk i j := rfl
@[simp] theorem State.modTrg_port (s : State) (g : TrgSt → TrgSt) (i : Nat) : (s.modTrg g).port i = s.port i := rfl
@[simp] theorem State.modTrg_rgn (s : State) (g : TrgSt → TrgSt) (i : Nat) : (s.modTrg g).rgn i = s.rgn i := rfl
@[simp] theorem State.modTrg_mch (s : State) (g : TrgSt → TrgSt) (i : Nat) : (s.modTrg g).mch i = s.mch i := rfl
@[simp] theorem State.modTrg_queue (s : State) (g : TrgSt → TrgSt) (i j : Nat) : (s.modTrg g).queue i j = s.queue i j := rfl

/-! ### `modUpl` -/

@[simp] theorem State.modUpl_creg (s : State) (g : UplinkSt → UplinkSt) : (s.modUpl g).creg = s.creg := rfl
@[simp] theorem State.modUpl_freg (s : State) (g : UplinkSt → UplinkSt) : (s.modUpl g).freg = s.freg := rfl
@[simp] theorem State.modUpl_tm (s : State) (g : UplinkSt → UplinkSt) : (s.modUpl g).tm = s.tm := rfl
@[simp] theorem State.modUpl_fes (s : State) (g : UplinkSt → UplinkSt) : (s.modUpl g).fes = s.fes := rfl
@[simp] theorem State.modUpl_chans (s : State) (g : UplinkSt → UplinkSt) : (s.modUpl g).chans = s.chans := rfl
@[simp] theorem State.modUpl_blks (s : State) (g : UplinkSt → UplinkSt) : (s.modUpl g).blks = s.blks := rfl
@[simp] theorem State.modUpl_ports (s : State) (g : UplinkSt → UplinkSt) : (s.modUpl g).ports = s.ports := rfl
@[simp] theorem State.modUpl_ing (s : State) (g : UplinkSt → UplinkSt) : (s.modUpl g).ing = s.ing := rfl
@[simp] theorem State.modUpl_regions (s : State) (g : UplinkSt → UplinkSt) : (s.modUpl g).regions = s.regions := rfl
@[simp] theorem State.modUpl_firn (s : State) (g : UplinkSt → UplinkSt) : (s.modUpl g).firn = s.firn := rfl
@[simp] theorem State.modUpl_trg (s : State) (g : UplinkSt → UplinkSt) : (s.modUpl g).trg = s.trg := rfl
@[simp] theorem State.modUpl_sp (s : State) (g : UplinkSt → UplinkSt) : (s.modUpl g).sp = s.sp := rfl
@[simp] theorem State.modUpl_mv (s : State) (g : UplinkSt → UplinkSt) : (s.modUpl g).mv = s.mv := rfl
@[simp] theorem State.modUpl_nvm (s : State) (g : UplinkSt → UplinkSt) : (s.modUpl g).nvm = s.nvm := rfl
@[simp] theorem State.modUpl_twin (s : State) (g : UplinkSt → UplinkSt) : (s.modUpl g).twin = s.twin := rfl
@[simp] theorem State.modUpl_pro (s : State) (g : UplinkSt → UplinkSt) : (s.modUpl g).pro = s.pro := rfl
@[simp] theorem State.modUpl_glb (s : State) (g : UplinkSt → UplinkSt) : (s.modUpl g).glb = s.glb := rfl
@[simp] theorem State.modUpl_svcTx (s : State) (g : UplinkSt → UplinkSt) : (s.modUpl g).svcTx = s.svcTx := rfl
@[simp] theorem State.modUpl_free (s : State) (g : UplinkSt → UplinkSt) : (s.modUpl g).free = s.free := rfl
@[simp] theorem State.modUpl_pending (s : State) (g : UplinkSt → UplinkSt) : (s.modUpl g).pending = s.pending := rfl
@[simp] theorem State.modUpl_upl (s : State) (g : UplinkSt → UplinkSt) : (s.modUpl g).upl = g s.upl := rfl
@[simp] theorem State.modUpl_cget (s : State) (g : UplinkSt → UplinkSt) (a : Fld) : (s.modUpl g).cget a = s.cget a := rfl
@[simp] theorem State.modUpl_con (s : State) (g : UplinkSt → UplinkSt) (a : Fld) : (s.modUpl g).con a = s.con a := rfl
@[simp] theorem State.modUpl_fget (s : State) (g : UplinkSt → UplinkSt) (i : Nat) (a : Fld) : (s.modUpl g).fget i a = s.fget i a := rfl
@[simp] theorem State.modUpl_fon (s : State) (g : UplinkSt → UplinkSt) (i : Nat) (a : Fld) : (s.modUpl g).fon i a = s.fon i a := rfl
@[simp] theorem State.modUpl_fe (s : State) (g : UplinkSt → UplinkSt) (i : Nat) : (s.modUpl g).fe i = s.fe i := rfl
@[simp] theorem State.modUpl_ch (s : State) (g : UplinkSt → UplinkSt) (i j : Nat) : (s.modUpl g).ch i j = s.ch i j := rfl
@[simp] theorem State.modUpl_blk (s : State) (g : UplinkSt → UplinkSt) (i j : Nat) : (s.modUpl g).blk i j = s.blk i j := rfl
@[simp] theorem State.modUpl_port (s : State) (g : UplinkSt → UplinkSt) (i : Nat) : (s.modUpl g).port i = s.port i := rfl
@[simp] theorem State.modUpl_rgn (s : State) (g : UplinkSt → UplinkSt) (i : Nat) : (s.modUpl g).rgn i = s.rgn i := rfl
@[simp] theorem State.modUpl_mch (s : State) (g : UplinkSt → UplinkSt) (i : Nat) : (s.modUpl g).mch i = s.mch i := rfl

/-! ### `modSp` -/

@[simp] theorem State.modSp_creg (s : State) (g : SpSt → SpSt) : (s.modSp g).creg = s.creg := rfl
@[simp] theorem State.modSp_freg (s : State) (g : SpSt → SpSt) : (s.modSp g).freg = s.freg := rfl
@[simp] theorem State.modSp_tm (s : State) (g : SpSt → SpSt) : (s.modSp g).tm = s.tm := rfl
@[simp] theorem State.modSp_fes (s : State) (g : SpSt → SpSt) : (s.modSp g).fes = s.fes := rfl
@[simp] theorem State.modSp_chans (s : State) (g : SpSt → SpSt) : (s.modSp g).chans = s.chans := rfl
@[simp] theorem State.modSp_blks (s : State) (g : SpSt → SpSt) : (s.modSp g).blks = s.blks := rfl
@[simp] theorem State.modSp_ports (s : State) (g : SpSt → SpSt) : (s.modSp g).ports = s.ports := rfl
@[simp] theorem State.modSp_ing (s : State) (g : SpSt → SpSt) : (s.modSp g).ing = s.ing := rfl
@[simp] theorem State.modSp_regions (s : State) (g : SpSt → SpSt) : (s.modSp g).regions = s.regions := rfl
@[simp] theorem State.modSp_firn (s : State) (g : SpSt → SpSt) : (s.modSp g).firn = s.firn := rfl
@[simp] theorem State.modSp_trg (s : State) (g : SpSt → SpSt) : (s.modSp g).trg = s.trg := rfl
@[simp] theorem State.modSp_upl (s : State) (g : SpSt → SpSt) : (s.modSp g).upl = s.upl := rfl
@[simp] theorem State.modSp_mv (s : State) (g : SpSt → SpSt) : (s.modSp g).mv = s.mv := rfl
@[simp] theorem State.modSp_nvm (s : State) (g : SpSt → SpSt) : (s.modSp g).nvm = s.nvm := rfl
@[simp] theorem State.modSp_twin (s : State) (g : SpSt → SpSt) : (s.modSp g).twin = s.twin := rfl
@[simp] theorem State.modSp_pro (s : State) (g : SpSt → SpSt) : (s.modSp g).pro = s.pro := rfl
@[simp] theorem State.modSp_glb (s : State) (g : SpSt → SpSt) : (s.modSp g).glb = s.glb := rfl
@[simp] theorem State.modSp_svcTx (s : State) (g : SpSt → SpSt) : (s.modSp g).svcTx = s.svcTx := rfl
@[simp] theorem State.modSp_free (s : State) (g : SpSt → SpSt) : (s.modSp g).free = s.free := rfl
@[simp] theorem State.modSp_pending (s : State) (g : SpSt → SpSt) : (s.modSp g).pending = s.pending := rfl
@[simp] theorem State.modSp_sp (s : State) (g : SpSt → SpSt) : (s.modSp g).sp = g s.sp := rfl
@[simp] theorem State.modSp_cget (s : State) (g : SpSt → SpSt) (a : Fld) : (s.modSp g).cget a = s.cget a := rfl
@[simp] theorem State.modSp_con (s : State) (g : SpSt → SpSt) (a : Fld) : (s.modSp g).con a = s.con a := rfl
@[simp] theorem State.modSp_fget (s : State) (g : SpSt → SpSt) (i : Nat) (a : Fld) : (s.modSp g).fget i a = s.fget i a := rfl
@[simp] theorem State.modSp_fon (s : State) (g : SpSt → SpSt) (i : Nat) (a : Fld) : (s.modSp g).fon i a = s.fon i a := rfl
@[simp] theorem State.modSp_fe (s : State) (g : SpSt → SpSt) (i : Nat) : (s.modSp g).fe i = s.fe i := rfl
@[simp] theorem State.modSp_ch (s : State) (g : SpSt → SpSt) (i j : Nat) : (s.modSp g).ch i j = s.ch i j := rfl
@[simp] theorem State.modSp_blk (s : State) (g : SpSt → SpSt) (i j : Nat) : (s.modSp g).blk i j = s.blk i j := rfl
@[simp] theorem State.modSp_port (s : State) (g : SpSt → SpSt) (i : Nat) : (s.modSp g).port i = s.port i := rfl
@[simp] theorem State.modSp_rgn (s : State) (g : SpSt → SpSt) (i : Nat) : (s.modSp g).rgn i = s.rgn i := rfl
@[simp] theorem State.modSp_mch (s : State) (g : SpSt → SpSt) (i : Nat) : (s.modSp g).mch i = s.mch i := rfl
@[simp] theorem State.modSp_queue (s : State) (g : SpSt → SpSt) (i j : Nat) : (s.modSp g).queue i j = s.queue i j := rfl

/-! ### `modNvm` -/

@[simp] theorem State.modNvm_creg (s : State) (g : NvmSt → NvmSt) : (s.modNvm g).creg = s.creg := rfl
@[simp] theorem State.modNvm_freg (s : State) (g : NvmSt → NvmSt) : (s.modNvm g).freg = s.freg := rfl
@[simp] theorem State.modNvm_tm (s : State) (g : NvmSt → NvmSt) : (s.modNvm g).tm = s.tm := rfl
@[simp] theorem State.modNvm_fes (s : State) (g : NvmSt → NvmSt) : (s.modNvm g).fes = s.fes := rfl
@[simp] theorem State.modNvm_chans (s : State) (g : NvmSt → NvmSt) : (s.modNvm g).chans = s.chans := rfl
@[simp] theorem State.modNvm_blks (s : State) (g : NvmSt → NvmSt) : (s.modNvm g).blks = s.blks := rfl
@[simp] theorem State.modNvm_ports (s : State) (g : NvmSt → NvmSt) : (s.modNvm g).ports = s.ports := rfl
@[simp] theorem State.modNvm_ing (s : State) (g : NvmSt → NvmSt) : (s.modNvm g).ing = s.ing := rfl
@[simp] theorem State.modNvm_regions (s : State) (g : NvmSt → NvmSt) : (s.modNvm g).regions = s.regions := rfl
@[simp] theorem State.modNvm_firn (s : State) (g : NvmSt → NvmSt) : (s.modNvm g).firn = s.firn := rfl
@[simp] theorem State.modNvm_trg (s : State) (g : NvmSt → NvmSt) : (s.modNvm g).trg = s.trg := rfl
@[simp] theorem State.modNvm_upl (s : State) (g : NvmSt → NvmSt) : (s.modNvm g).upl = s.upl := rfl
@[simp] theorem State.modNvm_sp (s : State) (g : NvmSt → NvmSt) : (s.modNvm g).sp = s.sp := rfl
@[simp] theorem State.modNvm_mv (s : State) (g : NvmSt → NvmSt) : (s.modNvm g).mv = s.mv := rfl
@[simp] theorem State.modNvm_twin (s : State) (g : NvmSt → NvmSt) : (s.modNvm g).twin = s.twin := rfl
@[simp] theorem State.modNvm_pro (s : State) (g : NvmSt → NvmSt) : (s.modNvm g).pro = s.pro := rfl
@[simp] theorem State.modNvm_glb (s : State) (g : NvmSt → NvmSt) : (s.modNvm g).glb = s.glb := rfl
@[simp] theorem State.modNvm_svcTx (s : State) (g : NvmSt → NvmSt) : (s.modNvm g).svcTx = s.svcTx := rfl
@[simp] theorem State.modNvm_free (s : State) (g : NvmSt → NvmSt) : (s.modNvm g).free = s.free := rfl
@[simp] theorem State.modNvm_pending (s : State) (g : NvmSt → NvmSt) : (s.modNvm g).pending = s.pending := rfl
@[simp] theorem State.modNvm_nvm (s : State) (g : NvmSt → NvmSt) : (s.modNvm g).nvm = g s.nvm := rfl
@[simp] theorem State.modNvm_cget (s : State) (g : NvmSt → NvmSt) (a : Fld) : (s.modNvm g).cget a = s.cget a := rfl
@[simp] theorem State.modNvm_con (s : State) (g : NvmSt → NvmSt) (a : Fld) : (s.modNvm g).con a = s.con a := rfl
@[simp] theorem State.modNvm_fget (s : State) (g : NvmSt → NvmSt) (i : Nat) (a : Fld) : (s.modNvm g).fget i a = s.fget i a := rfl
@[simp] theorem State.modNvm_fon (s : State) (g : NvmSt → NvmSt) (i : Nat) (a : Fld) : (s.modNvm g).fon i a = s.fon i a := rfl
@[simp] theorem State.modNvm_fe (s : State) (g : NvmSt → NvmSt) (i : Nat) : (s.modNvm g).fe i = s.fe i := rfl
@[simp] theorem State.modNvm_ch (s : State) (g : NvmSt → NvmSt) (i j : Nat) : (s.modNvm g).ch i j = s.ch i j := rfl
@[simp] theorem State.modNvm_blk (s : State) (g : NvmSt → NvmSt) (i j : Nat) : (s.modNvm g).blk i j = s.blk i j := rfl
@[simp] theorem State.modNvm_port (s : State) (g : NvmSt → NvmSt) (i : Nat) : (s.modNvm g).port i = s.port i := rfl
@[simp] theorem State.modNvm_rgn (s : State) (g : NvmSt → NvmSt) (i : Nat) : (s.modNvm g).rgn i = s.rgn i := rfl
@[simp] theorem State.modNvm_mch (s : State) (g : NvmSt → NvmSt) (i : Nat) : (s.modNvm g).mch i = s.mch i := rfl
@[simp] theorem State.modNvm_queue (s : State) (g : NvmSt → NvmSt) (i j : Nat) : (s.modNvm g).queue i j = s.queue i j := rfl

/-! ### `modTwin` -/

@[simp] theorem State.modTwin_creg (s : State) (g : TwinSt → TwinSt) : (s.modTwin g).creg = s.creg := rfl
@[simp] theorem State.modTwin_freg (s : State) (g : TwinSt → TwinSt) : (s.modTwin g).freg = s.freg := rfl
@[simp] theorem State.modTwin_tm (s : State) (g : TwinSt → TwinSt) : (s.modTwin g).tm = s.tm := rfl
@[simp] theorem State.modTwin_fes (s : State) (g : TwinSt → TwinSt) : (s.modTwin g).fes = s.fes := rfl
@[simp] theorem State.modTwin_chans (s : State) (g : TwinSt → TwinSt) : (s.modTwin g).chans = s.chans := rfl
@[simp] theorem State.modTwin_blks (s : State) (g : TwinSt → TwinSt) : (s.modTwin g).blks = s.blks := rfl
@[simp] theorem State.modTwin_ports (s : State) (g : TwinSt → TwinSt) : (s.modTwin g).ports = s.ports := rfl
@[simp] theorem State.modTwin_ing (s : State) (g : TwinSt → TwinSt) : (s.modTwin g).ing = s.ing := rfl
@[simp] theorem State.modTwin_regions (s : State) (g : TwinSt → TwinSt) : (s.modTwin g).regions = s.regions := rfl
@[simp] theorem State.modTwin_firn (s : State) (g : TwinSt → TwinSt) : (s.modTwin g).firn = s.firn := rfl
@[simp] theorem State.modTwin_trg (s : State) (g : TwinSt → TwinSt) : (s.modTwin g).trg = s.trg := rfl
@[simp] theorem State.modTwin_upl (s : State) (g : TwinSt → TwinSt) : (s.modTwin g).upl = s.upl := rfl
@[simp] theorem State.modTwin_sp (s : State) (g : TwinSt → TwinSt) : (s.modTwin g).sp = s.sp := rfl
@[simp] theorem State.modTwin_mv (s : State) (g : TwinSt → TwinSt) : (s.modTwin g).mv = s.mv := rfl
@[simp] theorem State.modTwin_nvm (s : State) (g : TwinSt → TwinSt) : (s.modTwin g).nvm = s.nvm := rfl
@[simp] theorem State.modTwin_pro (s : State) (g : TwinSt → TwinSt) : (s.modTwin g).pro = s.pro := rfl
@[simp] theorem State.modTwin_glb (s : State) (g : TwinSt → TwinSt) : (s.modTwin g).glb = s.glb := rfl
@[simp] theorem State.modTwin_svcTx (s : State) (g : TwinSt → TwinSt) : (s.modTwin g).svcTx = s.svcTx := rfl
@[simp] theorem State.modTwin_free (s : State) (g : TwinSt → TwinSt) : (s.modTwin g).free = s.free := rfl
@[simp] theorem State.modTwin_pending (s : State) (g : TwinSt → TwinSt) : (s.modTwin g).pending = s.pending := rfl
@[simp] theorem State.modTwin_twin (s : State) (g : TwinSt → TwinSt) : (s.modTwin g).twin = g s.twin := rfl
@[simp] theorem State.modTwin_cget (s : State) (g : TwinSt → TwinSt) (a : Fld) : (s.modTwin g).cget a = s.cget a := rfl
@[simp] theorem State.modTwin_con (s : State) (g : TwinSt → TwinSt) (a : Fld) : (s.modTwin g).con a = s.con a := rfl
@[simp] theorem State.modTwin_fget (s : State) (g : TwinSt → TwinSt) (i : Nat) (a : Fld) : (s.modTwin g).fget i a = s.fget i a := rfl
@[simp] theorem State.modTwin_fon (s : State) (g : TwinSt → TwinSt) (i : Nat) (a : Fld) : (s.modTwin g).fon i a = s.fon i a := rfl
@[simp] theorem State.modTwin_fe (s : State) (g : TwinSt → TwinSt) (i : Nat) : (s.modTwin g).fe i = s.fe i := rfl
@[simp] theorem State.modTwin_ch (s : State) (g : TwinSt → TwinSt) (i j : Nat) : (s.modTwin g).ch i j = s.ch i j := rfl
@[simp] theorem State.modTwin_blk (s : State) (g : TwinSt → TwinSt) (i j : Nat) : (s.modTwin g).blk i j = s.blk i j := rfl
@[simp] theorem State.modTwin_port (s : State) (g : TwinSt → TwinSt) (i : Nat) : (s.modTwin g).port i = s.port i := rfl
@[simp] theorem State.modTwin_rgn (s : State) (g : TwinSt → TwinSt) (i : Nat) : (s.modTwin g).rgn i = s.rgn i := rfl
@[simp] theorem State.modTwin_mch (s : State) (g : TwinSt → TwinSt) (i : Nat) : (s.modTwin g).mch i = s.mch i := rfl
@[simp] theorem State.modTwin_queue (s : State) (g : TwinSt → TwinSt) (i j : Nat) : (s.modTwin g).queue i j = s.queue i j := rfl

/-! ### `modPro` -/

@[simp] theorem State.modPro_creg (s : State) (g : ProSt → ProSt) : (s.modPro g).creg = s.creg := rfl
@[simp] theorem State.modPro_freg (s : State) (g : ProSt → ProSt) : (s.modPro g).freg = s.freg := rfl
@[simp] theorem State.modPro_tm (s : State) (g : ProSt → ProSt) : (s.modPro g).tm = s.tm := rfl
@[simp] theorem State.modPro_fes (s : State) (g : ProSt → ProSt) : (s.modPro g).fes = s.fes := rfl
@[simp] theorem State.modPro_chans (s : State) (g : ProSt → ProSt) : (s.modPro g).chans = s.chans := rfl
@[simp] theorem State.modPro_blks (s : State) (g : ProSt → ProSt) : (s.modPro g).blks = s.blks := rfl
@[simp] theorem State.modPro_ports (s : State) (g : ProSt → ProSt) : (s.modPro g).ports = s.ports := rfl
@[simp] theorem State.modPro_ing (s : State) (g : ProSt → ProSt) : (s.modPro g).ing = s.ing := rfl
@[simp] theorem State.modPro_regions (s : State) (g : ProSt → ProSt) : (s.modPro g).regions = s.regions := rfl
@[simp] theorem State.modPro_firn (s : State) (g : ProSt → ProSt) : (s.modPro g).firn = s.firn := rfl
@[simp] theorem State.modPro_trg (s : State) (g : ProSt → ProSt) : (s.modPro g).trg = s.trg := rfl
@[simp] theorem State.modPro_upl (s : State) (g : ProSt → ProSt) : (s.modPro g).upl = s.upl := rfl
@[simp] theorem State.modPro_sp (s : State) (g : ProSt → ProSt) : (s.modPro g).sp = s.sp := rfl
@[simp] theorem State.modPro_mv (s : State) (g : ProSt → ProSt) : (s.modPro g).mv = s.mv := rfl
@[simp] theorem State.modPro_nvm (s : State) (g : ProSt → ProSt) : (s.modPro g).nvm = s.nvm := rfl
@[simp] theorem State.modPro_twin (s : State) (g : ProSt → ProSt) : (s.modPro g).twin = s.twin := rfl
@[simp] theorem State.modPro_glb (s : State) (g : ProSt → ProSt) : (s.modPro g).glb = s.glb := rfl
@[simp] theorem State.modPro_svcTx (s : State) (g : ProSt → ProSt) : (s.modPro g).svcTx = s.svcTx := rfl
@[simp] theorem State.modPro_free (s : State) (g : ProSt → ProSt) : (s.modPro g).free = s.free := rfl
@[simp] theorem State.modPro_pending (s : State) (g : ProSt → ProSt) : (s.modPro g).pending = s.pending := rfl
@[simp] theorem State.modPro_pro (s : State) (g : ProSt → ProSt) : (s.modPro g).pro = g s.pro := rfl
@[simp] theorem State.modPro_cget (s : State) (g : ProSt → ProSt) (a : Fld) : (s.modPro g).cget a = s.cget a := rfl
@[simp] theorem State.modPro_con (s : State) (g : ProSt → ProSt) (a : Fld) : (s.modPro g).con a = s.con a := rfl
@[simp] theorem State.modPro_fget (s : State) (g : ProSt → ProSt) (i : Nat) (a : Fld) : (s.modPro g).fget i a = s.fget i a := rfl
@[simp] theorem State.modPro_fon (s : State) (g : ProSt → ProSt) (i : Nat) (a : Fld) : (s.modPro g).fon i a = s.fon i a := rfl
@[simp] theorem State.modPro_fe (s : State) (g : ProSt → ProSt) (i : Nat) : (s.modPro g).fe i = s.fe i := rfl
@[simp] theorem State.modPro_ch (s : State) (g : ProSt → ProSt) (i j : Nat) : (s.modPro g).ch i j = s.ch i j := rfl
@[simp] theorem State.modPro_blk (s : State) (g : ProSt → ProSt) (i j : Nat) : (s.modPro g).blk i j = s.blk i j := rfl
@[simp] theorem State.modPro_port (s : State) (g : ProSt → ProSt) (i : Nat) : (s.modPro g).port i = s.port i := rfl
@[simp] theorem State.modPro_rgn (s : State) (g : ProSt → ProSt) (i : Nat) : (s.modPro g).rgn i = s.rgn i := rfl
@[simp] theorem State.modPro_mch (s : State) (g : ProSt → ProSt) (i : Nat) : (s.modPro g).mch i = s.mch i := rfl
@[simp] theorem State.modPro_queue (s : State) (g : ProSt → ProSt) (i j : Nat) : (s.modPro g).queue i j = s.queue i j := rfl

/-! ### `modGlb` -/

@[simp] theorem State.modGlb_creg (s : State) (g : GlbSt → GlbSt) : (s.modGlb g).creg = s.creg := rfl
@[simp] theorem State.modGlb_freg (s : State) (g : GlbSt → GlbSt) : (s.modGlb g).freg = s.freg := rfl
@[simp] theorem State.modGlb_tm (s : State) (g : GlbSt → GlbSt) : (s.modGlb g).tm = s.tm := rfl
@[simp] theorem State.modGlb_fes (s : State) (g : GlbSt → GlbSt) : (s.modGlb g).fes = s.fes := rfl
@[simp] theorem State.modGlb_chans (s : State) (g : GlbSt → GlbSt) : (s.modGlb g).chans = s.chans := rfl
@[simp] theorem State.modGlb_blks (s : State) (g : GlbSt → GlbSt) : (s.modGlb g).blks = s.blks := rfl
@[simp] theorem State.modGlb_ports (s : State) (g : GlbSt → GlbSt) : (s.modGlb g).ports = s.ports := rfl
@[simp] theorem State.modGlb_ing (s : State) (g : GlbSt → GlbSt) : (s.modGlb g).ing = s.ing := rfl
@[simp] theorem State.modGlb_regions (s : State) (g : GlbSt → GlbSt) : (s.modGlb g).regions = s.regions := rfl
@[simp] theorem State.modGlb_firn (s : State) (g : GlbSt → GlbSt) : (s.modGlb g).firn = s.firn := rfl
@[simp] theorem State.modGlb_trg (s : State) (g : GlbSt → GlbSt) : (s.modGlb g).trg = s.trg := rfl
@[simp] theorem State.modGlb_upl (s : State) (g : GlbSt → GlbSt) : (s.modGlb g).upl = s.upl := rfl
@[simp] theorem State.modGlb_sp (s : State) (g : GlbSt → GlbSt) : (s.modGlb g).sp = s.sp := rfl
@[simp] theorem State.modGlb_mv (s : State) (g : GlbSt → GlbSt) : (s.modGlb g).mv = s.mv := rfl
@[simp] theorem State.modGlb_nvm (s : State) (g : GlbSt → GlbSt) : (s.modGlb g).nvm = s.nvm := rfl
@[simp] theorem State.modGlb_twin (s : State) (g : GlbSt → GlbSt) : (s.modGlb g).twin = s.twin := rfl
@[simp] theorem State.modGlb_pro (s : State) (g : GlbSt → GlbSt) : (s.modGlb g).pro = s.pro := rfl
@[simp] theorem State.modGlb_svcTx (s : State) (g : GlbSt → GlbSt) : (s.modGlb g).svcTx = s.svcTx := rfl
@[simp] theorem State.modGlb_free (s : State) (g : GlbSt → GlbSt) : (s.modGlb g).free = s.free := rfl
@[simp] theorem State.modGlb_pending (s : State) (g : GlbSt → GlbSt) : (s.modGlb g).pending = s.pending := rfl
@[simp] theorem State.modGlb_glb (s : State) (g : GlbSt → GlbSt) : (s.modGlb g).glb = g s.glb := rfl
@[simp] theorem State.modGlb_cget (s : State) (g : GlbSt → GlbSt) (a : Fld) : (s.modGlb g).cget a = s.cget a := rfl
@[simp] theorem State.modGlb_con (s : State) (g : GlbSt → GlbSt) (a : Fld) : (s.modGlb g).con a = s.con a := rfl
@[simp] theorem State.modGlb_fget (s : State) (g : GlbSt → GlbSt) (i : Nat) (a : Fld) : (s.modGlb g).fget i a = s.fget i a := rfl
@[simp] theorem State.modGlb_fon (s : State) (g : GlbSt → GlbSt) (i : Nat) (a : Fld) : (s.modGlb g).fon i a = s.fon i a := rfl
@[simp] theorem State.modGlb_fe (s : State) (g : GlbSt → GlbSt) (i : Nat) : (s.modGlb g).fe i = s.fe i := rfl
@[simp] theorem State.modGlb_ch (s : State) (g : GlbSt → GlbSt) (i j : Nat) : (s.modGlb g).ch i j = s.ch i j := rfl
@[simp] theorem State.modGlb_blk (s : State) (g : GlbSt → GlbSt) (i j : Nat) : (s.modGlb g).blk i j = s.blk i j := rfl
@[simp] theorem State.modGlb_port (s : State) (g : GlbSt → GlbSt) (i : Nat) : (s.modGlb g).port i = s.port i := rfl
@[simp] theorem State.modGlb_rgn (s : State) (g : GlbSt → GlbSt) (i : Nat) : (s.modGlb g).rgn i = s.rgn i := rfl
@[simp] theorem State.modGlb_mch (s : State) (g : GlbSt → GlbSt) (i : Nat) : (s.modGlb g).mch i = s.mch i := rfl
@[simp] theorem State.modGlb_queue (s : State) (g : GlbSt → GlbSt) (i j : Nat) : (s.modGlb g).queue i j = s.queue i j := rfl

/-! ### `modMch` -/

@[simp] theorem State.modMch_creg (s : State) (c : Nat) (g : MvCh → MvCh) : (s.modMch c g).creg = s.creg := rfl
@[simp] theorem State.modMch_freg (s : State) (c : Nat) (g : MvCh → MvCh) : (s.modMch c g).freg = s.freg := rfl
@[simp] theorem State.modMch_tm (s : State) (c : Nat) (g : MvCh → MvCh) : (s.modMch c g).tm = s.tm := rfl
@[simp] theorem State.modMch_fes (s : State) (c : Nat) (g : MvCh → MvCh) : (s.modMch c g).fes = s.fes := rfl
@[simp] theorem State.modMch_chans (s : State) (c : Nat) (g : MvCh → MvCh) : (s.modMch c g).chans = s.chans := rfl
@[simp] theorem State.modMch_blks (s : State) (c : Nat) (g : MvCh → MvCh) : (s.modMch c g).blks = s.blks := rfl
@[simp] theorem State.modMch_ports (s : State) (c : Nat) (g : MvCh → MvCh) : (s.modMch c g).ports = s.ports := rfl
@[simp] theorem State.modMch_ing (s : State) (c : Nat) (g : MvCh → MvCh) : (s.modMch c g).ing = s.ing := rfl
@[simp] theorem State.modMch_regions (s : State) (c : Nat) (g : MvCh → MvCh) : (s.modMch c g).regions = s.regions := rfl
@[simp] theorem State.modMch_firn (s : State) (c : Nat) (g : MvCh → MvCh) : (s.modMch c g).firn = s.firn := rfl
@[simp] theorem State.modMch_trg (s : State) (c : Nat) (g : MvCh → MvCh) : (s.modMch c g).trg = s.trg := rfl
@[simp] theorem State.modMch_upl (s : State) (c : Nat) (g : MvCh → MvCh) : (s.modMch c g).upl = s.upl := rfl
@[simp] theorem State.modMch_sp (s : State) (c : Nat) (g : MvCh → MvCh) : (s.modMch c g).sp = s.sp := rfl
@[simp] theorem State.modMch_nvm (s : State) (c : Nat) (g : MvCh → MvCh) : (s.modMch c g).nvm = s.nvm := rfl
@[simp] theorem State.modMch_twin (s : State) (c : Nat) (g : MvCh → MvCh) : (s.modMch c g).twin = s.twin := rfl
@[simp] theorem State.modMch_pro (s : State) (c : Nat) (g : MvCh → MvCh) : (s.modMch c g).pro = s.pro := rfl
@[simp] theorem State.modMch_glb (s : State) (c : Nat) (g : MvCh → MvCh) : (s.modMch c g).glb = s.glb := rfl
@[simp] theorem State.modMch_svcTx (s : State) (c : Nat) (g : MvCh → MvCh) : (s.modMch c g).svcTx = s.svcTx := rfl
@[simp] theorem State.modMch_free (s : State) (c : Nat) (g : MvCh → MvCh) : (s.modMch c g).free = s.free := rfl
@[simp] theorem State.modMch_pending (s : State) (c : Nat) (g : MvCh → MvCh) : (s.modMch c g).pending = s.pending := rfl
@[simp] theorem State.modMch_cget (s : State) (c : Nat) (g : MvCh → MvCh) (a : Fld) : (s.modMch c g).cget a = s.cget a := rfl
@[simp] theorem State.modMch_con (s : State) (c : Nat) (g : MvCh → MvCh) (a : Fld) : (s.modMch c g).con a = s.con a := rfl
@[simp] theorem State.modMch_fget (s : State) (c : Nat) (g : MvCh → MvCh) (i : Nat) (a : Fld) : (s.modMch c g).fget i a = s.fget i a := rfl
@[simp] theorem State.modMch_fon (s : State) (c : Nat) (g : MvCh → MvCh) (i : Nat) (a : Fld) : (s.modMch c g).fon i a = s.fon i a := rfl
@[simp] theorem State.modMch_fe (s : State) (c : Nat) (g : MvCh → MvCh) (i : Nat) : (s.modMch c g).fe i = s.fe i := rfl
@[simp] theorem State.modMch_ch (s : State) (c : Nat) (g : MvCh → MvCh) (i j : Nat) : (s.modMch c g).ch i j = s.ch i j := rfl
@[simp] theorem State.modMch_blk (s : State) (c : Nat) (g : MvCh → MvCh) (i j : Nat) : (s.modMch c g).blk i j = s.blk i j := rfl
@[simp] theorem State.modMch_port (s : State) (c : Nat) (g : MvCh → MvCh) (i : Nat) : (s.modMch c g).port i = s.port i := rfl
@[simp] theorem State.modMch_rgn (s : State) (c : Nat) (g : MvCh → MvCh) (i : Nat) : (s.modMch c g).rgn i = s.rgn i := rfl
@[simp] theorem State.modMch_queue (s : State) (c : Nat) (g : MvCh → MvCh) (i j : Nat) : (s.modMch c g).queue i j = s.queue i j := rfl

/-! ### The record that an update replaces -/

@[simp] theorem State.fe_setFe (s : State) (p : Nat) (x : Fe) : (s.setFe p x).fe p = x := by simp [State.fe, State.setFe]
@[simp] theorem State.fe_modFe (s : State) (p : Nat) (g : Fe → Fe) : (s.modFe p g).fe p = g (s.fe p) := by
  simp [State.modFe]
@[simp] theorem State.ch_setCh (s : State) (p c : Nat) (x : Chan) : (s.setCh p c x).ch p c = x := by simp [State.ch, State.setCh]
@[simp] theorem State.ch_modCh (s : State) (p c : Nat) (g : Chan → Chan) : (s.modCh p c g).ch p c = g (s.ch p c) := by
  simp [State.modCh]
@[simp] theorem State.blk_setBlk (s : State) (p b : Nat) (x : Blk) : (s.setBlk p b x).blk p b = x := by simp [State.blk, State.setBlk]
@[simp] theorem State.blk_modBlk (s : State) (p b : Nat) (g : Blk → Blk) : (s.modBlk p b g).blk p b = g (s.blk p b) := by
  simp [State.modBlk]
@[simp] theorem State.port_setPort (s : State) (p : Nat) (x : Port) : (s.setPort p x).port p = x := by simp [State.port, State.setPort]
@[simp] theorem State.port_modPort (s : State) (p : Nat) (g : Port → Port) : (s.modPort p g).port p = g (s.port p) := by
  simp [State.modPort]
@[simp] theorem State.rgn_setRgn (s : State) (r : Nat) (x : Region) : (s.setRgn r x).rgn r = x := by simp [State.rgn, State.setRgn]
@[simp] theorem State.rgn_modRgn (s : State) (r : Nat) (g : Region → Region) : (s.modRgn r g).rgn r = g (s.rgn r) := by
  simp [State.modRgn]
theorem State.fe_setFe_ne (s : State) {p q : Nat} (x : Fe) (h : q ≠ p) : (s.setFe p x).fe q = s.fe q := by
  simp only [State.fe, State.setFe]; exact tget_tset_ne _ _ _ _ h
theorem State.fe_modFe_ne (s : State) {p q : Nat} (g : Fe → Fe) (h : q ≠ p) : (s.modFe p g).fe q = s.fe q :=
  s.fe_setFe_ne _ h
theorem State.port_setPort_ne (s : State) {p q : Nat} (x : Port) (h : q ≠ p) : (s.setPort p x).port q = s.port q := by
  simp only [State.port, State.setPort]; exact tget_tset_ne _ _ _ _ h
theorem State.port_modPort_ne (s : State) {p q : Nat} (g : Port → Port) (h : q ≠ p) : (s.modPort p g).port q = s.port q :=
  s.port_setPort_ne _ h
theorem State.rgn_setRgn_ne (s : State) {p q : Nat} (x : Region) (h : q ≠ p) : (s.setRgn p x).rgn q = s.rgn q := by
  simp only [State.rgn, State.setRgn]; exact tget_tset_ne _ _ _ _ h
theorem State.rgn_modRgn_ne (s : State) {p q : Nat} (g : Region → Region) (h : q ≠ p) : (s.modRgn p g).rgn q = s.rgn q :=
  s.rgn_setRgn_ne _ h
@[simp] theorem State.mch_modMch (s : State) (c : Nat) (g : MvCh → MvCh) : (s.modMch c g).mch c = g (s.mch c) := by
  simp [State.mch, State.modMch]

@[simp] theorem State.when_true (s : State) (g : State → State) : s.when true g = g s := rfl
@[simp] theorem State.when_false (s : State) (g : State → State) : s.when false g = s := rfl
@[simp] theorem State.cget_cadd (s : State) (f : Fld) (n : Nat) :
    (s.cadd f n).cget f = min (s.cget f + n) (2 ^ f.width - 1) % 2 ^ f.width := by simp [State.cadd]
@[simp] theorem State.cget_cbump (s : State) (f : Fld) :
    (s.cbump f).cget f = min (s.cget f + 1) (2 ^ f.width - 1) % 2 ^ f.width := by simp [State.cbump]
theorem State.cget_cadd_ne (s : State) (f g : Fld) (n : Nat) (h : g.key ≠ f.key) : (s.cadd f n).cget g = s.cget g :=
  s.cget_cset_ne f g _ h
theorem State.cget_cbump_ne (s : State) (f g : Fld) (h : g.key ≠ f.key) : (s.cbump f).cget g = s.cget g :=
  s.cget_cset_ne f g _ h
@[simp] theorem State.fget_fbump (s : State) (p : Nat) (f : Fld) :
    (s.fbump p f).fget p f = min (s.fget p f + 1) (2 ^ f.width - 1) % 2 ^ f.width := by simp [State.fbump, State.fadd]
theorem State.fget_fbump_ne (s : State) (p q : Nat) (f g : Fld) (h : g.fkey q ≠ f.fkey p) :
    (s.fbump p f).fget q g = s.fget q g := s.fget_fset_ne p q f g _ h

end Sys2Proof.Machine
end

