-- ==== Sys2Proof/Laws/Notes.lean ====
section
/-! SUPPORT. What sending a packet, an ALARM, a MON notice or a Moraine entry can change: the uplink queues, the log,
and the registers that show them. -/

namespace Sys2Proof.Machine

namespace Notes

theorem refl (s : State) : Notes s s := ⟨rfl, fun _ _ => rfl⟩

theorem trans {s t u : State} (h1 : Notes s t) (h2 : Notes t u) : Notes s u := by
  refine ⟨?_, fun g hg => (h2.regs g hg).trans (h1.regs g hg)⟩
  rw [h2.same, h1.same]

theorem cset {s t : State} (h : Notes s t) (f : Fld) (v : Nat) (hf : noteKey f.key) : Notes s (t.cset f v) := by
  refine ⟨?_, fun g hg => ?_⟩
  · rw [h.same]; rfl
  · rw [State.cget_cset_ne t f g v (fun e => hg (by rw [e]; exact hf))]; exact h.regs g hg

theorem cbump {s t : State} (h : Notes s t) (f : Fld) (hf : noteKey f.key) : Notes s (t.cbump f) := h.cset f _ hf

theorem cwrap {s t : State} (h : Notes s t) (f : Fld) (n : Nat) (hf : noteKey f.key) : Notes s (t.cwrap f n) := h.cset f _ hf

theorem modUpl {s t : State} (h : Notes s t) (g : UplinkSt → UplinkSt) : Notes s (t.modUpl g) := by
  refine ⟨?_, fun f hf => h.regs f hf⟩
  rw [h.same]; rfl

theorem modNvm {s t : State} (h : Notes s t) (g : NvmSt → NvmSt) : Notes s (t.modNvm g) := by
  refine ⟨?_, fun f hf => h.regs f hf⟩
  rw [h.same]; rfl

theorem when {s t : State} (h : Notes s t) (b : Bool) (g : State → State) (hg : Notes s (g t)) : Notes s (t.when b g) := by
  cases b
  · exact h
  · exact hg

theorem foldl {α : Type} {s t : State} (h : Notes s t) (g : State → α → State) (l : List α)
    (hg : ∀ z a, a ∈ l → Notes s z → Notes s (g z a)) : Notes s (l.foldl g t) := by
  induction l generalizing t with
  | nil => exact h
  | cons a r ih =>
    exact ih (hg t a (List.mem_cons_self ..) h) fun z b hb hz => hg z b (List.mem_cons_of_mem _ hb) hz

end Notes

/-- The registers of the queues of the four groups lie in the range of `noteKey`. -/
theorem noteKey_queue {o i lo : Nat} (h : i < 20) (ho : o < 32) (hlo : lo < 64) :
    noteKey ((0x600140 + o + 0x100 * (i / 5) + 0x20 * (i % 5)) * 64 + lo) := by
  left
  omega

theorem State.setQueue_notes (s : State) {g q : Nat} (x : Queue) (hg : g < 4) (hq : q < 5) : Notes s (s.setQueue g q x) := by
  have hi : g * 5 + q < 20 := by omega
  unfold State.setQueue
  refine Notes.when ?_ _ _ ?_
  all_goals
    repeat' refine Notes.cset ?_ _ _ ?_
  all_goals first
    | exact (Notes.refl s).modUpl _
    | (simp only [Fld.key, UQ_STAT_LEVEL, UQ_STAT_WM_NOW, UQ_PKTS_PKTS, UQ_STAT_OPEN, UQ_STAT_WM_SEEN]
       left; omega)

/-- Queueing a packet changes the queue and the registers that show it. -/
theorem State.enqueue_notes (s : State) {g q : Nat} (x : Pkt) (hg : g < 4) (hq : q < 5) : Notes s (s.enqueue g q x) := by
  have hi : g * 5 + q < 20 := by omega
  unfold State.enqueue
  dsimp only
  split
  · refine (Notes.refl s).cbump _ ?_
    simp only [Fld.key, UQ_ERR_DROPPED]; left; omega
  · split
    · refine Notes.cset ((Notes.refl s).cbump _ ?_) _ _ ?_
      · simp only [Fld.key, UQ_ERR_DROPPED]; left; omega
      · simp only [Fld.key, UQ_STAT_FULL_SEEN]; left; omega
    · exact s.setQueue_notes _ hg hq

theorem State.groupCount_le (s : State) : s.groupCount ≤ 4 := by
  unfold State.groupCount
  have : ∀ (l : List Nat) (m : Nat), m ≤ 4 → l.foldl (fun m l =>
      if s.con (UPL_LMAP_EN (l / 8) (l % 8)) then max m (s.cget (UPL_LMAP_GROUP (l / 8) (l % 8)) + 1) else m) m ≤ 4 := by
    intro l
    induction l with
    | nil => exact fun m h => h
    | cons a r ih =>
      intro m h
      refine ih _ ?_
      dsimp only
      split
      · have := s.cget_lt (UPL_LMAP_GROUP (a / 8) (a % 8))
        simp only [UPL_LMAP_GROUP] at this ⊢
        omega
      · exact h
  exact this _ _ (by omega)

theorem State.mem_groupsOf {s : State} {mask g : Nat} (h : g ∈ s.groupsOf mask) : g < 4 := by
  unfold State.groupsOf at h
  have hc := s.groupCount_le
  dsimp only at h
  split at h
  · simp at h; omega
  · have := List.mem_range.1 (List.mem_filter.1 h).1
    omega

theorem State.enqueueAll_notes (s : State) {gs : List Nat} {q : Nat} (x : Pkt) (hg : ∀ g ∈ gs, g < 4) (hq : q < 5) :
    Notes s (s.enqueueAll gs q x) :=
  (Notes.refl s).foldl _ _ fun z g h hz => hz.trans (z.enqueue_notes x (hg g h) hq)

theorem State.sendMon_notes (s : State) (ws : List W64) : Notes s (s.sendMon ws) :=
  s.enqueueAll_notes _ (fun _ h => State.mem_groupsOf h) (by omega)

theorem State.monNotice_notes (s : State) (c : Nat) : Notes s (s.monNotice c) := s.sendMon_notes _

theorem State.alarmAt_notes (s : State) (a : Nat) : Notes s (s.alarmAt a) := by
  unfold State.alarmAt
  refine ((Notes.refl s).modUpl _).foldl _ _ fun z g h hz => ?_
  have hg := List.mem_range.1 h
  split
  · split <;> exact hz.trans (z.enqueue_notes _ hg (by omega))
  · exact hz

theorem State.alarm_notes (s : State) (f : Fld) : Notes s (s.alarm f) := s.alarmAt_notes _

/-- A status bit that becomes 1 raises an ALARM, and nothing else changes. -/
theorem State.raise_notes (s : State) (f : Fld) (h : s.con f = false) : Notes (s.cset f 1) (s.raise f) := by
  simp only [State.raise, h]
  exact (s.cset f 1).alarm_notes f

theorem State.raise_of_set (s : State) (f : Fld) (h : s.con f = true) : s.raise f = s := by
  simp [State.raise, h]

theorem State.setJournal_notes (s : State) (js : List NvmArea) : Notes s (s.setJournal js) := by
  refine ((Notes.refl s).modNvm _).cset _ _ ?_
  right; left; decide

theorem State.program_notes (s : State) (a : NvmArea) : Notes s (s.program a) := by
  unfold State.program
  split
  · exact Notes.refl s
  · exact s.setJournal_notes _

theorem State.logStart_notes (s : State) : Notes s s.logStart := by
  unfold State.logStart
  split
  · exact Notes.refl s
  · split
    · exact Notes.refl s
    · dsimp only
      split
      · split
        · exact Notes.trans (Notes.trans ((Notes.refl s).modNvm _) (State.program_notes _ _)) (State.program_notes _ _)
        · exact Notes.trans ((Notes.refl s).modNvm _) (State.program_notes _ _)
      · split
        · exact State.program_notes _ _
        · exact Notes.refl s

theorem State.logPut_notes (s : State) (e : LogEntry) : Notes s (s.logPut e) := by
  unfold State.logPut
  refine Notes.trans (Notes.trans (((Notes.refl s).modNvm _).cwrap MRN_SEQ_SEQ 1 ?_) (State.logStart_notes _))
    (Notes.trans ((Notes.refl _).cset MRN_STAT_PEND _ ?_) (State.enqueueAll_notes _ _ (fun _ h => State.mem_groupsOf h) (by omega)))
  · right; right; decide
  · right; right; decide

theorem State.logLose_notes (s : State) : Notes s s.logLose := by
  refine ((Notes.refl s).modNvm _).cbump _ ?_
  right; right; decide

theorem State.logAdd_notes (s : State) (e : LogEntry) : Notes s (s.logAdd e) := by
  unfold State.logAdd
  split
  · exact s.logLose_notes
  · split
    · exact s.logPut_notes e
    · dsimp only
      have h := (s.logPut_notes (s.stamp 0x7F06 0 0 0 0xFF false 0 s.nvm.overflow 0)).modNvm fun n => { n with overflow := 0 }
      split
      · exact h.trans (State.logLose_notes _)
      · exact h.trans (State.logPut_notes _ _)

/-- A Moraine entry changes the log, the queues and the registers that show them. -/
theorem State.logBit_notes (s : State) (f : Fld) (actor d5 d6 : Nat) : Notes s (s.logBit f actor d5 d6) := s.logAdd_notes _

theorem State.logChange_notes (s : State) (addr new old actor : Nat) (pwd : Bool) (tag : Nat) :
    Notes s (s.logChange addr new old actor pwd tag) := s.logAdd_notes _

theorem State.logOwn_notes (s : State) (item addr val d5 d6 : Nat) : Notes s (s.logOwn item addr val d5 d6) := s.logAdd_notes _

end Sys2Proof.Machine
end

