-- ==== Sys2Proof/Laws/Form.lean ====
section
/-! SUPPORT. The form of the tables through the named operations: each of them keeps it, leaves the command queue alone, and takes
neither the tick count nor the count of free values back. -/

namespace Sys2Proof.Machine

/-- What every effect owes to the form of the state. -/
structure Keeps (s t : State) : Prop where
  form : s.FormOk → t.FormOk
  pending : t.pending = s.pending
  tick : s.tm.tick ≤ t.tm.tick
  free : s.free ≤ t.free

theorem rising_tmap {α : Type} [DecidableEq α] {t : Tab α} (h : rising t) (d : α) (g : Nat → α → α) : rising (tmap t d g) := by
  refine rising_filter ?_ _
  induction t with
  | nil => trivial
  | cons a r ih =>
    obtain ⟨j, v⟩ := a
    refine ⟨fun e he => ?_, ih h.2⟩
    obtain ⟨b, hb, rfl⟩ := List.mem_map.1 he
    exact h.1 b hb

namespace Keeps

theorem refl (s : State) : Keeps s s := ⟨id, rfl, Nat.le_refl _, Nat.le_refl _⟩

theorem trans {s t u : State} (h1 : Keeps s t) (h2 : Keeps t u) : Keeps s u :=
  ⟨fun h => h2.form (h1.form h), h2.pending.trans h1.pending, h1.tick.trans h2.tick, h1.free.trans h2.free⟩

theorem of_notes {s t u : State} (h : Keeps s t) (hn : Notes t u) (hc : rising t.creg → rising u.creg) : Keeps s u := by
  have e := hn.same
  refine h.trans ⟨fun hf => ?_, by rw [e], by rw [e], by rw [e]⟩
  obtain ⟨h1, h2⟩ := hf
  refine ⟨hc h1, ?_⟩
  rw [e]; exact h2

theorem cset {s t : State} (h : Keeps s t) (f : Fld) (v : Nat) : Keeps s (t.cset f v) :=
  ⟨fun hf => ⟨rising_tset (h.form hf).1 _ _ _, (h.form hf).2⟩, h.pending, h.tick, h.free⟩

theorem cbump {s t : State} (h : Keeps s t) (f : Fld) : Keeps s (t.cbump f) := h.cset f _
theorem cadd {s t : State} (h : Keeps s t) (f : Fld) (n : Nat) : Keeps s (t.cadd f n) := h.cset f _
theorem cwrap {s t : State} (h : Keeps s t) (f : Fld) (n : Nat) : Keeps s (t.cwrap f n) := h.cset f _

theorem fset {s t : State} (h : Keeps s t) (p : Nat) (f : Fld) (v : Nat) : Keeps s (t.fset p f v) :=
  ⟨fun hf => ⟨(h.form hf).1, rising_tset (h.form hf).2.1 _ _ _, (h.form hf).2.2⟩, h.pending, h.tick, h.free⟩

theorem setFe {s t : State} (h : Keeps s t) (p : Nat) (x : Fe) : Keeps s (t.setFe p x) := ⟨h.form, h.pending, h.tick, h.free⟩
theorem modFe {s t : State} (h : Keeps s t) (p : Nat) (g : Fe → Fe) : Keeps s (t.modFe p g) := h.setFe p _
theorem setCh {s t : State} (h : Keeps s t) (p c : Nat) (x : Chan) : Keeps s (t.setCh p c x) := ⟨h.form, h.pending, h.tick, h.free⟩
theorem modCh {s t : State} (h : Keeps s t) (p c : Nat) (g : Chan → Chan) : Keeps s (t.modCh p c g) := h.setCh p c _
theorem setBlk {s t : State} (h : Keeps s t) (p b : Nat) (x : Blk) : Keeps s (t.setBlk p b x) := ⟨h.form, h.pending, h.tick, h.free⟩
theorem modBlk {s t : State} (h : Keeps s t) (p b : Nat) (g : Blk → Blk) : Keeps s (t.modBlk p b g) := h.setBlk p b _
theorem setPort {s t : State} (h : Keeps s t) (p : Nat) (x : Port) : Keeps s (t.setPort p x) := ⟨h.form, h.pending, h.tick, h.free⟩
theorem modPort {s t : State} (h : Keeps s t) (p : Nat) (g : Port → Port) : Keeps s (t.modPort p g) := h.setPort p _
theorem setRgn {s t : State} (h : Keeps s t) (r : Nat) (x : Region) : Keeps s (t.setRgn r x) := ⟨h.form, h.pending, h.tick, h.free⟩
theorem modRgn {s t : State} (h : Keeps s t) (r : Nat) (g : Region → Region) : Keeps s (t.modRgn r g) := h.setRgn r _
theorem modTrg {s t : State} (h : Keeps s t) (g : TrgSt → TrgSt) : Keeps s (t.modTrg g) := ⟨h.form, h.pending, h.tick, h.free⟩
theorem modUpl {s t : State} (h : Keeps s t) (g : UplinkSt → UplinkSt) : Keeps s (t.modUpl g) := ⟨h.form, h.pending, h.tick, h.free⟩
theorem modNvm {s t : State} (h : Keeps s t) (g : NvmSt → NvmSt) : Keeps s (t.modNvm g) := ⟨h.form, h.pending, h.tick, h.free⟩
theorem modTwin {s t : State} (h : Keeps s t) (g : TwinSt → TwinSt) : Keeps s (t.modTwin g) := ⟨h.form, h.pending, h.tick, h.free⟩
theorem modPro {s t : State} (h : Keeps s t) (g : ProSt → ProSt) : Keeps s (t.modPro g) := ⟨h.form, h.pending, h.tick, h.free⟩
theorem modGlb {s t : State} (h : Keeps s t) (g : GlbSt → GlbSt) : Keeps s (t.modGlb g) := ⟨h.form, h.pending, h.tick, h.free⟩
theorem modMch {s t : State} (h : Keeps s t) (c : Nat) (g : MvCh → MvCh) : Keeps s (t.modMch c g) :=
  ⟨h.form, h.pending, h.tick, h.free⟩

theorem modTm {s t : State} (h : Keeps s t) (g : TimeSt → TimeSt) (hg : t.tm.tick ≤ (g t.tm).tick) : Keeps s (t.modTm g) :=
  ⟨h.form, h.pending, h.tick.trans hg, h.free⟩

theorem modSp {s t : State} (h : Keeps s t) (g : SpSt → SpSt) (hg : rising t.sp.cram → rising (g t.sp).cram) : Keeps s (t.modSp g) :=
  ⟨fun hf => ⟨(h.form hf).1, (h.form hf).2.1, (h.form hf).2.2.1, (h.form hf).2.2.2.1, hg (h.form hf).2.2.2.2⟩, h.pending, h.tick, h.free⟩

theorem modFirn {s t : State} (h : Keeps s t) (g : FirnSt → FirnSt) (hl : rising t.firn.lines → rising (g t.firn).lines)
    (he : rising t.firn.extents → rising (g t.firn).extents) : Keeps s (t.modFirn g) :=
  ⟨fun hf => ⟨(h.form hf).1, (h.form hf).2.1, hl (h.form hf).2.2.1, he (h.form hf).2.2.2.1, (h.form hf).2.2.2.2⟩,
    h.pending, h.tick, h.free⟩

theorem draw {s t : State} (h : Keeps s t) : Keeps s t.draw.2 := ⟨h.form, h.pending, h.tick, h.free.trans (Nat.le_succ _)⟩

theorem when {s t : State} (h : Keeps s t) (b : Bool) (g : State → State) (hg : Keeps t (g t)) : Keeps s (t.when b g) := by
  cases b
  · exact h
  · exact h.trans hg

theorem foldl {α : Type} {s t : State} (h : Keeps s t) (g : State → α → State) (l : List α)
    (hg : ∀ z a, a ∈ l → Keeps z (g z a)) : Keeps s (l.foldl g t) := by
  induction l generalizing t with
  | nil => exact h
  | cons a r ih => exact ih (h.trans (hg t a List.mem_cons_self)) fun z b hb => hg z b (List.mem_cons_of_mem _ hb)

end Keeps

/-! ### Memory: the extent tables, the stored lines and control RAM -/

theorem State.setExt_keeps (s : State) (r e : Nat) (x : Extent) : Keeps s (s.setExt r e x) :=
  (Keeps.refl s).modFirn _ id fun h => rising_tset h _ _ _

theorem State.freeSlice_keeps (s : State) (k : Nat) : Keeps s (s.freeSlice k) :=
  Keeps.foldl ((Keeps.refl s).modFirn _ id fun h => by simpa only using rising_tmap h _ _) _ _ fun z r _ => (Keeps.refl z).modRgn r _

theorem State.cramWrite_keeps (s : State) (i : Nat) (w : W64) : Keeps s (s.cramWrite i w) :=
  (Keeps.refl s).modSp _ fun h => by simpa only using rising_tset h _ _ _

theorem State.cramWrite32_keeps (s : State) (a v : Nat) : Keeps s (s.cramWrite32 a v) := s.cramWrite_keeps _ _

theorem State.reloadPage_keeps (s : State) (n : Nat) : Keeps s (s.reloadPage n) :=
  (Keeps.refl s).modSp _ fun h => by simpa only using rising_tkeep h _

theorem State.cramUnc_keeps (s : State) (i : Nat) : Keeps s (s.cramUnc i) :=
  (((Keeps.refl s).cbump _).cset _ _).modSp _ id

theorem State.cramRead_keeps (s : State) (i : Nat) : Keeps s (s.cramRead i).2 := by
  unfold State.cramRead
  split
  · exact Keeps.refl s
  · split
    · exact s.cramUnc_keeps i
    · exact Keeps.refl s

theorem State.mvWriteRam_keeps (s : State) (a : Nat) (bs : List Byte) : Keeps s (s.mvWriteRam a bs) := by
  induction bs generalizing s a with
  | nil => exact Keeps.refl s
  | cons b r ih => exact (s.cramWrite_keeps _ _).trans (ih _ _)

theorem State.mvWriteFirn_keeps (s : State) (a : Nat) (bs : List Byte) : Keeps s (s.mvWriteFirn a bs).2 := by
  unfold State.mvWriteFirn
  simp only
  split
  · dsimp only
    refine Keeps.modFirn (Keeps.refl s) _ ?_ ?_
    · exact fun h => rising_tins h _ _
    · exact fun h => h
  · exact Keeps.refl s

end Sys2Proof.Machine
end

