-- ==== Sys2Proof/Tests/Slice0.lean ====
section
/-! SUPPORT. Tests: states on which the hypotheses of every statement hold, ill-formed commands that `WellFormed` refuses, and the
spec's own worked examples. -/

namespace Sys2Proof.Tests

open Sys2Proof.Machine Sys2Proof.Machine.State

set_option Elab.async false

/-! ### Helpers -/

/-- A property of whatever an option holds. -/
def optAll {α : Type} (o : Option α) (p : α → Bool) : Bool := match o with | none => true | some a => p a

/-- Nothing keeps a service from answering a packet at once. -/
def quiet (s : State) : Bool := !(s.frozen 17) && !(s.spDown) && !(s.con GLB_STAT_RECOVERY) && s.sp.replies.isEmpty

theorem noReply {s : State} {g tag : Nat} (h : quiet s = true) : ∀ svc cmd, s.preReply g svc cmd tag = none := by
  intro svc cmd
  simp only [quiet, Bool.and_eq_true, Bool.not_eq_true', List.isEmpty_iff] at h
  obtain ⟨⟨⟨h1, h2⟩, h3⟩, h4⟩ := h
  simp [State.preReply, State.mailFrozen, State.repeated, h1, h2, h3, h4]

theorem ofNat_toNat {n : Nat} (h : n < 2 ^ 32) : (BitVec.ofNat 32 n).toNat = n := by
  rw [BitVec.toNat_ofNat]; exact Nat.mod_eq_of_lt h

theorem ofNat_succ_ne {n : Nat} (h : n < 2 ^ 32) : (BitVec.ofNat 32 (n + 1)).toNat ≠ n := by
  have := h; rw [BitVec.toNat_ofNat]; omega

theorem of_optAll {α : Type} {o : Option α} {P : α → Prop} [∀ a, Decidable (P a)] (h : optAll o (fun a => decide (P a)) = true) :
    ∀ t, o = some t → P t := by
  rintro t rfl
  exact of_decide_eq_true h

/-- As many characters as a request codeword and its fast-command slots take, none of them a code group. -/
def run180 : CodeRun := ⟨false, List.replicate 180 0⟩
/-- A verifier's length of zeros. -/
def ver32 : List Byte := List.replicate 32 0

/-! Small states and operands: the state at reset with a few fields changed. -/

def ann0 : Announce := ⟨false, 0#8, [1], 37#16, true, 0⟩
def hdr0 : PtpHdr := ⟨false, 0#8, 5#16, 0⟩
def chSt (x : Chan) : State := (State.reset.fset 3 (LNK_STAT_STATE 0) 6).setCh 3 5 x
def hit0 : Hit := { at_ := 0, tick := 0, int := 0, raw := 1500, stop := 2, c1 := 1000, c2 := 2000 }
def feSt (x : Fe) : State := State.reset.setFe 3 x
def blkSt (x : Blk) : State := State.reset.setBlk 3 0 x
def pairD : Interp := { role := .armed, pair := some (1000, 2000) }
def hitF : Hit := { hit0 with coarse := some 7, fine := 9, hitTick := 1, valid := some true, teInst := some 9000000, busyOver := true, amp := .done 77 false }
def ownSt (x : Fe) : State := ((State.reset.setFe 3 x).fset 3 (LNK_STAT_STATE 0) 6).fset 3 (LNK_STAT_OWNER 0) 1
def req0 : ReqPkt := ⟨1, 7, 0x010, 5⟩
def dataRun (bs : List Byte) : CodeRun := ⟨false, symLine false (dataSyms bs)⟩
def syncLine (b : List Byte) : CodeRun :=
  let d (i : Nat) : Sym := .data (b.getD i 0).toNat
  ⟨false, symLine false [k285, d 0, d 1, d 2, fcSym 0, d 3, d 4, d 5, fcSym 0, d 6, d 7]⟩
def syncBad : SyncSet := ⟨true, ⟨false, []⟩, 0, 0⟩
def sync0 : SyncSet := ⟨true, syncLine (syncBytes 5 77 6 true false 0xC1), 0, 0⟩
def weave : Nat → List Sym → List Sym
  | _, [] => []
  | j, x :: r => if j % 4 = 0 then fcSym 0 :: x :: weave (j + 2) r else x :: weave (j + 1) r
def reqRunB (bs : List Byte) : CodeRun := ⟨false, symLine false (weave 3 (k281 :: dataSyms bs))⟩
def reqCwB (ps : List ReqPkt) : List Byte := rsEncode ((List.range 16).flatMap fun i => reqBytes (ps.getD i ⟨0, 0, 0, 0⟩))
def startRun (bs : List Byte) : List (BitVec 10) := symLine false (k285 :: dataSyms bs)
def start0 : List Byte := startBytes 5 2 0 true true 6
def echo0 (f : Nat) (v : Bool) : List Byte := echoBytes f (-77) v true
def echoG (bs : List Byte) (i : Nat) : BitVec 10 := (symLine false (k283 :: dataSyms bs)).getD i 0
def echoTail (bs : List Byte) : EchoTail := ⟨echoG bs 4, echoG bs 5⟩
def recCw (ws : List W64) : List Byte := rsEncode ((List.range 16).flatMap fun j => leBytes 8 (ws.getD j 2).toNat)
def recRunB (bs : List Byte) : List (BitVec 10) := (symLine false (k285 :: dataSyms bs)).drop 1
def recRun (ws : List W64) : List (BitVec 10) := recRunB (recCw ws)
def somes (bs : List Byte) : List (Option Sym) := (dataSyms bs).map some
def syncSetOf (st : Nat) (load lrst : Bool) : SyncSet := ⟨true, syncLine (syncBytes 5 77 st load lrst 0xC1), 0, 40⟩
def syncI (st : Nat) (load lrst : Bool) : SyncInfo := ⟨5, 77, st, load, lrst, 0xC1⟩
def respRun (r : RespPkt) : CodeRun := ⟨false, symLine false (k286 :: dataSyms (rsEncode (respBytes r)))⟩
def plSt (st : Nat) (x : Port) : State := (State.reset.setPort 3 x).cset (PL_STAT_STATE 3) st
def tk (n : Nat) (s : State) : State := s.modTm fun m => { m with tick := n }
def rgSt (x : Region) : State := State.reset.setRgn 1 x
def unit0 (n : Nat) : Unit_ := { tick := 9, frame := 9, port := 256, rawN := 1, items := [List.replicate n 7] }
def frmSt (f : Nat) (x : FirnSt) : State := { (tk 9 State.reset).modTm (fun m => { m with now := { sec := 0, ns := f * 4000, frac := 0 } }) with firn := x }
def trgSt (x : TrgSt) : State := { frmSt 258 {} with trg := { x with sums := { tick := 7, frame := 256, module_ := (40, false), regions := [(10, false), (10, true)], blocks := [(7, false), (9, true)] } } }
def reqBody (pf pl sec ns a b : Nat) : List Byte := wordsBytes [packW [(0, 16, 0x1234), (16, 10, pf), (26, 10, pl)], packW [(0, 48, sec)], packW [(0, 30, ns)], packW [(0, 28, a), (28, 28, b)]]
def mkReq (b : List Byte) : Req := { body := b, group := 0, bad := false }
def reqGood : Req := mkReq (reqBody 3 5 0 1030000 2 7)
def coreA : Core := { serial := 7, first := 100, last := 200, decided := 0, bytes := 0 }
def reqFirn : FirnSt := { claimed := true, index := [(0, { slice := 0, state := 2, frames := 256, r0 := { count := 2 } })] }
def uplSt (x : UplinkSt) : State := { (tk 9 State.reset).cset (UG_STAT_STATE 1) 1 with upl := x }
def floeHdr : List Byte := let h := wordsBytes [packW [(0, 4, 6), (6, 1, 1), (7, 1, 1), (12, 12, 1)]] ++ leBytes 6 0; h ++ leBytes 2 (crc16 h)
def floe0 : FloeIn := ⟨[dataRun (rsEncode (floeHdr ++ [2] ++ List.replicate 111 0))], 0, 0⟩
def pkt0 (n : Nat) : Pkt := { typ := 6, words := (List.range n).map fun i => BitVec.ofNat 64 (i + 5) }
def pktM (n : Nat) : Pkt := { pkt0 n with typ := 4 }
def rxB : List Byte := let b : List Byte := [41, 7, 66, 1, 2, 3]; b ++ [BitVec.ofNat 8 (crc8 b)]
def rxLine : CodeRun := ⟨false, symLine false (k285 :: dataSyms rxB)⟩
def runSt (x : SpSt) : State := { State.reset.cset SP_STAT_RUN 1 with sp := x }
def mvWin (c : Nat) (s : State) : State := (((((s.cset (FWL_WATTR_EN (8 * (c + 1))) 1).cset (FWL_WATTR_R (8 * (c + 1))) 1).cset (FWL_WATTR_W (8 * (c + 1))) 1).cset (FWL_WBASE_BASE (8 * (c + 1))) 0).cset (FWL_WLIM_LIMIT (8 * (c + 1))) 0xFFFFFFFF)
def mvSt (st : Nat) (x : MvCh) : State := (mvWin 2 { State.reset with mv := tset [] 2 {} x }).cset (MV_CH_STAT_STATE 2) st
def mvDesc (len ssp dsp sw dw pace w3 : Nat) : List W64 := [packW [(0, 64, 0x4000)], packW [(0, 64, 0x5000)], packW [(0, 24, len), (24, 3, ssp), (27, 3, dsp), (30, 3, sw), (33, 3, dw), (36, 4, pace)], packW [(0, 16, w3)]]
def calBody : List Byte := leBytes 2 3 ++ leBytes 2 3 ++ [0] ++ leBytes 2 1 ++ [0] ++ leBytes 2 5 ++ leBytes 2 9 ++ leBytes 2 1 ++ leBytes 2 0
def stepPend : State := ((runSt {}).cset TIM_STAT_STEP_PEND 1).cset TIM_STEP_VAL_VAL 77
def calSt : State := ((((runSt {}).cset (PL_STAT_STATE 3) 6).fset 3 (LNK_STAT_STATE 0) 6).fset 3 (LNK_STAT_OWNER 0) 1)
def scan0 : Scan := { cmd := 3, first := 3, last := 3, sel := 2, m := 5, start := 5, stop := 9, step := 2, odd := 1, value := 7, sent := 3 }
def frmSt2 (f : Nat) (s : State) : State := s.modTm fun m => { m with now := { sec := 0, ns := f * 4000, frac := 0 } }
def imgB : List Byte := leBytes 4 0xDC10F1A1 ++ leBytes 4 0x01020304 ++ leBytes 4 0 ++ [0, 7, 3, 0] ++ leBytes 2 1 ++ leBytes 2 1 ++ leBytes 4 0 ++ sha256 [] ++ List.replicate 4040 0
def imgS : SlotImg := { bytes := imgB.take 120, seen := true }
def img0 : ImgHdr := imgHdr imgB
def imgR : Option ImgRead := some ⟨imgB, true⟩
def recB (t : Nat) (b : List Byte) : List Byte := leBytes 2 t ++ leBytes 2 b.length ++ leBytes 4 0 ++ b
def contB (g : Nat) (ok : Bool) (n : Nat) (body : List Byte) : List Byte :=
  let h := leBytes 4 0xABA00C01 ++ leBytes 2 3 ++ leBytes 2 0 ++ leBytes 8 g ++ leBytes 4 body.length ++ leBytes 4 n ++ leBytes 4 (crc32c body + (if ok then 0 else 1))
  h ++ leBytes 4 (crc32c h) ++ body
def cont (g : Nat) (ok : Bool) (rs : List CfgRec) : Container := { version := 3, gen := BitVec.ofNat 64 g, crcOk := ok, hcrcOk := true, recs := rs }
def pwrSt (st : Nat) (x : GlbSt) : State := { (State.reset.cset GLB_STAT_READY 1).cset GLB_STAT_STATE st with glb := x }
def updSt (x : NvmSt) (l : List LongCmd) : State := { ((runSt { longs := l }).cset NVM_SLOT_ACTIVE 0).cset UPD_UP_MAC 5 with nvm := x }
def cfgBytes (n : Nat) (body : List Byte) : List Byte :=
  let h := leBytes 4 0xABA00C01 ++ leBytes 2 3 ++ leBytes 2 0 ++ leBytes 8 0 ++ leBytes 4 body.length ++ leBytes 4 n ++ leBytes 4 (crc32c body)
  h ++ leBytes 4 (crc32c h) ++ body
def imgLong (c : Nat) (a : List Nat) : LongCmd := ⟨3, 0, 7, c, 0x44, [], a⟩
def frm (up : Bool) (r b : Nat) : UpdFrame := { up := up, reason := BitVec.ofNat 4 r, count := 3, len := 0, block := BitVec.ofNat 32 b, image := 0, crc := 0 }
def frmD (up : Bool) (r b id : Nat) (data : List Byte) : UpdFrame := { frm up r b with len := BitVec.ofNat 16 data.length, image := BitVec.ofNat 32 id, crc := BitVec.ofNat 32 (crc32c data) }
def imgO : List Byte := imgB.take 120
def imgBig : List Byte := imgB.take 8 ++ leBytes 4 67104769 ++ (imgB.take 120).drop 12
def twSt (r : Nat) (x : TwinSt) : State := { State.reset.cset TWIN_STAT_ROLE r with twin := x }
def hb0 (r : Nat) : Heartbeat := ⟨BitVec.ofNat 3 r, 1, 0, true, 7, 0x01020304, 1, 1, 700, 3, 3, 9, 0, 0⟩
def body0 : SeedBody := ⟨none, 0, [], [], [7, 8], 0, 0, true, [], 2, true, 30⟩
def seed0 (b : SeedBody) : Seed := ⟨5, 1, 700, 3, b⟩
def seg0 : List Byte := List.replicate 1024 0
def seedHdr (n i : Nat) : SeedHdr := ⟨1, 5, 700, 100, BitVec.ofNat 11 i, BitVec.ofNat 11 n, BitVec.ofNat 32 (crc32c (List.replicate 100 0)), BitVec.ofNat 32 (crc32c seg0)⟩
def push0 : PushRx := ⟨5, 3, [(0, seg0)], 100, crc32c (List.replicate 100 0), 1, 700, body0, 9⟩
def owned (s : State) : State := ((s.setPort 3 { rttN := 4 }).cset (PL_STAT_STATE 3) 6).cset (PL_STAT_OWNER 3) 1
def imgSt (s : State) : State := { s.cset NVM_SLOT_ACTIVE 0 with nvm := { slot0 := imgS } }
def switchLong : LongCmd := ⟨3, 0, 8, 2, 0x44, [], []⟩
def proSt (x : ProSt) : State := { State.reset with pro := x }
def guardSt (n st cls : Nat) (x : ProSt) : State := { ((((State.reset.cset (PRO_GSTAT_STATE n) st).cset PRO_STAT_CLASS cls).cset PRO_STAT_STRAP cls).cset PRO_STAT_GV24_OK 1).cset PRO_STAT_COMMON_OPEN 0 with pro := { x with latchRead := true } }
def inOne (s : State) : State := (((s.cset (PRO_GIN_CFG_EN 1) 1).cset (PRO_GIN_CFG_PMASK 1) 4).cset (PRO_GIN_STATE 1) 1)
def salt0 : List Byte := List.replicate 16 0x55
def outs0 : List OutRead := [⟨0, 0⟩, ⟨1, 0⟩, ⟨2, 0⟩, ⟨3, 0⟩]
def pw8 : List Byte := [0x61, 0x62, 0x63, 0x64, 0x65, 0x66, 0x67, 0x68]
def ver0 : List Byte := sha256 (salt0 ++ pw8)
def pwSt (x : ProSt) : State := { (runSt {}).cset PRO_GWIN_PW_SET 1 with pro := { x with salt := salt0, verifier := ver0 } }
def setBody (a v : W32) : List Byte := (8 : Byte) :: pw8 ++ leBytes 2 1 ++ leBytes 4 a.toNat ++ leBytes 4 v.toNat
def line64 : List Byte := (List.range 64).map fun i => BitVec.ofNat 8 (3 * i + 1)
def lineSt (y : Line) : State := { rgSt { reads := [(.mover 4, mkFirnAddr 1 9 7 65534)] } with firn := { extents := [(131079, { state := 2, gen := 9, hwm := 65535 })], lines := [((131072 + 7) * 65536 + 65534, y)] } }
def coreSt (s : State) : State := { s with firn := { claimed := true, index := [(0, { slice := 0, state := 2, frames := 256 })] } }
def fullSt (s : State) : State := s.setQueue (s.coreGroup 3) 2 { pkts := List.replicate 16 { typ := 2, words := List.replicate 1023 0 } }
def hdrD (s : State) (c : Core) : Core := ({ c with reading := true, flush := true, cur := { slice := sliceOf c.first } } : Core).put (s.coreHeader 3 c)

/-! ### The hypotheses of each statement can be met -/

theorem witness_FrameTickReachesTheNextTick :
    (∃ (s : State), s.tm.now.ns < 1000000000 ∧ s.tm.now.sec + 1 < 2 ^ 48 ∧ s.tm.now.fis = 249999) ∧
    (∃ (s : State), s.tm.now.ns < 1000000000 ∧ s.tm.now.sec + 1 < 2 ^ 48 ∧ s.tm.now.fis < 249999) :=
  ⟨⟨(State.reset.modTm fun m => { m with now := { sec := 5, ns := 999996000 } }), (by decide +kernel), (by decide +kernel), (by decide +kernel)⟩,
   ⟨State.reset, (by decide +kernel), (by decide +kernel), (by decide +kernel)⟩⟩

theorem witness_PtpMessagesAreKept :
    (∃ (s : State) (v : SvcIx) (h : PtpHdr) (arr : _), s.ptpHears v h.ethernet h.domain = true ∧ (s.ptp v).twoStep = some (h.seq.toNat, arr)) ∧
    (∃ (s : State) (v : SvcIx) (h : PtpHdr) (t3 : _) (sent : _), s.ptpHears v h.ethernet h.domain = true ∧ ((s.ptp v).reqs.find? (fun e => decide (e.1 = h.seq.toNat)) = some (h.seq.toNat, t3, sent)) ∧ s.monoNs ≤ sent + 4 * (s.ptp v).reqInterval) ∧
    (∃ (s : State) (v : SvcIx) (a : Announce), s.ptpHears v a.ethernet a.domain = true) ∧
    (∃ (s : State) (v : SvcIx), s.ptpOn v = true ∧ s.reqDue v = true) :=
  ⟨⟨(State.reset.modTm fun m => { m with ptp := [(0, { twoStep := some (5, 1000) })] }), 0, hdr0, ((1000 : Int)), (by decide +kernel), (by decide +kernel)⟩,
   ⟨(State.reset.modTm fun m => { m with ptp := [(0, { reqs := [(5, 300, 0)] })] }), 0, hdr0, ((300 : Int)), 0, (by decide +kernel), (by decide +kernel), (by decide +kernel)⟩,
   ⟨State.reset, 0, ann0, (by decide +kernel)⟩,
   ⟨State.reset, 0, (by decide +kernel), (by decide +kernel)⟩⟩

theorem witness_LostSourcesLeadToHoldover :
    (∃ (s : State) (v : SvcIx) (w : SvcIx), v ≠ w ∧ s.tm.selected = some v.val ∧ (s.ptp w).qualified = true ∧ (s.ptp w).lost = false) ∧
    (∃ (s : State) (v : SvcIx) (w : SvcIx), v ≠ w ∧ s.tm.selected = some v.val ∧ (s.ptp w).qualified = false ∧ s.tm.everLocked = true ∧ s.cget TIM_CTRL_SRC ≠ 2) ∧
    (∃ (s : State) (v : SvcIx), s.respOverdue v = true ∧ 15 ≤ (s.ptp v).respMissed) ∧
    (∃ (s : State), s.cget TIM_CTRL_SRC = 1 ∧ s.cget TIM_STAT_QUAL = 2 ∧ s.cget TIM_STAT_PTP_OK = 0) ∧
    (∃ (s : State), s.cget TIM_CTRL_SRC = 1 ∧ 2 ≤ s.tm.ppsMissRun) ∧
    (∃ (s : State) (d : _), s.cget TIM_CTRL_SRC = 1 ∧ (d : Int).natAbs ≤ s.cget TIM_JUMP_JUMP * 65536) ∧
    (∃ (s : State) (e : _), s.cget TIM_CTRL_SRC = 1 ∧ (e : Int).natAbs ≤ 4 * 65536 ∧ s.tm.selected = none ∧ s.cget TIM_STAT_INIT_SET = 0 ∧ s.tm.ppsPhased = false) :=
  ⟨⟨((State.reset.modTm fun m => { m with selected := some 0, everLocked := true, ptp := [(1, { qualified := true })] })), 0, 1, (by decide +kernel), (by decide +kernel), (by decide +kernel), (by decide +kernel)⟩,
   ⟨(State.reset.modTm fun m => { m with selected := some 0, everLocked := true }), 0, 1, (by decide +kernel), (by decide +kernel), (by decide +kernel), (by decide +kernel), (by decide +kernel)⟩,
   ⟨(State.reset.modTm fun m => { m with tick := 62500, ptp := [(0, { respMissed := 15, reqs := [(1, 5, 0)] })] }), 0, (by decide +kernel), (by decide +kernel)⟩,
   ⟨((State.reset.cset TIM_CTRL_SRC 1).cset TIM_STAT_QUAL 2), (by decide +kernel), (by decide +kernel), (by decide +kernel)⟩,
   ⟨((State.reset.cset TIM_CTRL_SRC 1).modTm fun m => { m with ppsMissRun := 2 }), (by decide +kernel), (by decide +kernel)⟩,
   ⟨(State.reset.cset TIM_CTRL_SRC 1), ((65536000 : Int)), (by decide +kernel), (by decide +kernel)⟩,
   ⟨(State.reset.cset TIM_CTRL_SRC 1), ((-262144 : Int)), (by decide +kernel), (by decide +kernel), (by decide +kernel), (by decide +kernel), (by decide +kernel)⟩⟩

theorem witness_StepsAreRefusedAppliedOrDropped :
    (∃ (s : State) (v : SvcIx) (h : PtpHdr) (t1 : _) (t2 : _) (corr : _), s.ptpHears v h.ethernet h.domain = true ∧ s.tm.selected = some v.val ∧ s.cget TIM_CTRL_SRC = 0 ∧ s.con TIM_STAT_INIT_SET = true ∧ s.con TIM_STAT_STEP_PEND = false ∧ s.nvm.pending.length < 1024 ∧ s.nvm.overflow = 0 ∧ s.cget TIM_JUMP_JUMP * 65536 < (-(s.ingress v t2 - t1 - corr - (s.ptp v).pathDelay - toSigned 32 (s.cget TIM_PTP_ASYM_ASYM) * 4096)).natAbs) ∧
    (∃ (s : State) (m : MasterIx) (v : W32), s.frozen m = false ∧ s.permitted m .control 0x20002C .write = true ∧ bitAt v.toNat 0 = true ∧ bitAt v.toNat 1 = false ∧ bits v.toNat 16 16 = 0xA5C3 ∧ s.con TIM_STAT_STEP_PEND = true ∧ s.stepBlocked s.stepVal = false ∧ s.stepVal.tdiv 4000 ≠ 0 ∧ s.tm.stepFrames = none) ∧
    (∃ (s : State) (m : MasterIx) (v : W32), s.frozen m = false ∧ s.permitted m .control 0x20002C .write = true ∧ bitAt v.toNat 1 = false ∧ bits v.toNat 16 16 ≠ 0xA5C3) ∧
    (∃ (s : State) (m : MasterIx) (v : W32), s.frozen m = false ∧ s.permitted m .control 0x20002C .write = true ∧ bitAt v.toNat 0 = true ∧ bitAt v.toNat 1 = true) ∧
    (∃ (s : State) (m : MasterIx) (v : W32), s.frozen m = false ∧ s.permitted m .control 0x20002C .write = true ∧ bitAt v.toNat 0 = false ∧ bitAt v.toNat 1 = true) ∧
    (∃ (s : State) (m : MasterIx), s.frozen m = false ∧ s.permitted m .control 0x20003C .write = true ∧ s.cget TIM_CTRL_SRC = 2) ∧
    (∃ (s : State) (m : MasterIx), s.frozen m = false ∧ s.permitted m .control 0x20003C .write = true ∧ s.cget TIM_CTRL_SRC ≠ 2) ∧
    (∃ (s : State), s.con TIM_STAT_STEP_PEND = true ∧ 16 ≤ s.tm.belowRun) ∧
    (∃ (s : State) (w : Int), s.tm.stepFrames = some w ∧ s.tm.stepAsk < s.tm.tick ∧ 0 ≤ s.frame + w ∧ s.tm.now.ns % 4000 = 0 ∧ s.tm.now.frac = 0 ∧ s.frame + w < 2 ^ 48 * 250000) :=
  ⟨⟨((State.reset.cset TIM_STAT_INIT_SET 1).modTm fun m => { m with selected := some 0 }), 0, hdr0, ((0 : Int)), ((-655360000 : Int)), ((7 : Int)), (by decide +kernel), (by decide +kernel), (by decide +kernel), (by decide +kernel), (by decide +kernel), (by decide +kernel), (by decide +kernel), (by decide +kernel)⟩,
   ⟨((State.reset.cset TIM_STAT_STEP_PEND 1).cset TIM_STEP_VAL_VAL 4001), 0, 0xA5C30001, (by decide +kernel), (by decide +kernel), (by decide +kernel), (by decide +kernel), (by decide +kernel), (by decide +kernel), (by decide +kernel), (by decide +kernel), (by decide +kernel)⟩,
   ⟨State.reset, 0, 0xA5C40001, (by decide +kernel), (by decide +kernel), (by decide +kernel), (by decide +kernel)⟩,
   ⟨State.reset, 0, 3, (by decide +kernel), (by decide +kernel), (by decide +kernel), (by decide +kernel)⟩,
   ⟨State.reset, 0, 2, (by decide +kernel), (by decide +kernel), (by decide +kernel), (by decide +kernel)⟩,
   ⟨(State.reset.cset TIM_CTRL_SRC 2), 0, (by decide +kernel), (by decide +kernel), (by decide +kernel)⟩,
   ⟨(State.reset.cset TIM_CTRL_SRC 1), 0, (by decide +kernel), (by decide +kernel), (by decide +kernel)⟩,
   ⟨((State.reset.cset TIM_STAT_STEP_PEND 1).modTm fun m => { m with belowRun := 16 }), (by decide +kernel), (by decide +kernel)⟩,
   ⟨(State.reset.modTm fun m => { m with stepFrames := some 250000, tick := 1 }), 250000, (by decide +kernel), (by decide +kernel), (by decide +kernel), (by decide +kernel), (by decide +kernel), (by decide +kernel)⟩⟩

theorem witness_TriggerInputsAndTimedOutputs :
    (∃ (s : State) (i : Fin 8) (w : Nat), s.con (TIN_CFG_EN i) = true ∧ w < 117965) ∧
    (∃ (s : State) (i : Fin 8) (w : Nat), s.con (TIN_CFG_EN i) = true ∧ 144179 < w ∧ (tget s.tm.tin i {}).lastStamp = none) ∧
    (∃ (s : State) (i : Fin 8) (t : Inst) (w : Nat) (l : _), s.con (TIN_CFG_EN i) = true ∧ 144179 < w ∧ (tget s.tm.tin i {}).lastStamp = some l ∧ s.mono t < l + 16 * 65536) ∧
    (∃ (s : State) (j : Fin 2) (m : MasterIx) (v : W32), s.frozen m = false ∧ s.permitted m .control (0x200200 + 32 * j) .write = true ∧ bitAt v.toNat 0 = true ∧ s.con (TOUT_CTRL_ARM j) = false ∧ s.tm.now.inst + 8000 * 65536 ≤ s.toutTarget j ∧ s.cget (TOUT_PERIOD_P j) = 0) ∧
    (∃ (s : State) (j : Fin 2) (m : MasterIx) (v : W32), s.frozen m = false ∧ s.permitted m .control (0x200200 + 32 * j) .write = true ∧ bitAt v.toNat 0 = true ∧ s.con (TOUT_CTRL_ARM j) = false ∧ s.toutTarget j < s.tm.now.inst + 8000 * 65536) ∧
    (∃ (s : State) (j : Fin 2) (m : MasterIx) (v : W32), s.frozen m = false ∧ s.permitted m .control (0x200200 + 32 * j) .write = true ∧ bitAt v.toNat 0 = false) ∧
    (∃ (s : State) (j : Fin 2), s.con (TOUT_CTRL_ARM j) = true ∧ (tget s.tm.tout j {}).skipped = false ∧ (tget s.tm.tout j {}).target < (s.tm.now.sec * 1000000000 + s.tm.now.ns / 4000 * 4000) * 65536 + instPerFrame ∧ (s.tm.now.sec * 1000000000 + s.tm.now.ns / 4000 * 4000) * 65536 ≤ (tget s.tm.tout j {}).target) ∧
    (∃ (s : State) (j : Fin 2), s.con (TOUT_CTRL_ARM j) = true ∧ (tget s.tm.tout j {}).skipped = false ∧ (tget s.tm.tout j {}).target < (s.tm.now.sec * 1000000000 + s.tm.now.ns / 4000 * 4000) * 65536 + instPerFrame ∧ s.cget (TOUT_PERIOD_P j) = 0) ∧
    (∃ (s : State) (j : Fin 2), s.con (TOUT_CTRL_ARM j) = true ∧ (tget s.tm.tout j {}).skipped = false ∧ (tget s.tm.tout j {}).target < (s.tm.now.sec * 1000000000 + s.tm.now.ns / 4000 * 4000) * 65536 + instPerFrame ∧ s.cget (TOUT_PERIOD_P j) ≠ 0) ∧
    (∃ (s : State) (j : Fin 2), (tget s.tm.tout j {}).pulse = true ∧ (tget s.tm.tout j {}).ends < s.mono instPerFrame) ∧
    (∃ (s : State) (m : MasterIx), s.frozen m = false ∧ s.permitted m .control 0x200000 .read = true) :=
  ⟨⟨(State.reset.cset (TIN_CFG_EN 0) 1), 0, 117964, (by decide +kernel), (by decide +kernel)⟩,
   ⟨(State.reset.cset (TIN_CFG_EN 0) 1), 0, 144180, (by decide +kernel), (by decide +kernel), (by decide +kernel)⟩,
   ⟨((State.reset.cset (TIN_CFG_EN 0) 1).modTm fun m => { m with tin := [(0, { lastStamp := some 0 })] }), 0, 1048575, 144180, 0, (by decide +kernel), (by decide +kernel), (by decide +kernel), (by decide +kernel)⟩,
   ⟨(State.reset.cset (TOUT_TGT_NS_NS 0) 8000), 0, 0, 1, (by decide +kernel), (by decide +kernel), (by decide +kernel), (by decide +kernel), (by decide +kernel), (by decide +kernel)⟩,
   ⟨State.reset, 0, 0, 1, (by decide +kernel), (by decide +kernel), (by decide +kernel), (by decide +kernel), (by decide +kernel)⟩,
   ⟨State.reset, 0, 0, 0, (by decide +kernel), (by decide +kernel), (by decide +kernel)⟩,
   ⟨((State.reset.cset (TOUT_CTRL_ARM 0) 1)), 0, (by decide +kernel), (by decide +kernel), (by decide +kernel), (by decide +kernel)⟩,
   ⟨((State.reset.cset (TOUT_CTRL_ARM 0) 1)), 0, (by decide +kernel), (by decide +kernel), (by decide +kernel), (by decide +kernel)⟩,
   ⟨(((State.reset.cset (TOUT_CTRL_ARM 0) 1).cset (TOUT_PERIOD_P 0) 9)), 0, (by decide +kernel), (by decide +kernel), (by decide +kernel), (by decide +kernel)⟩,
   ⟨(State.reset.modTm fun m => { m with tout := [(0, { pulse := true, ends := 100 })] }), 0, (by decide +kernel), (by decide +kernel)⟩,
   ⟨State.reset, 0, (by decide +kernel), (by decide +kernel)⟩⟩

theorem witness_LeadingEdgeIsTakenOnce :
    (∃ (s : State) (p : PortIx) (c : ChIx) (t : Crossing), ((s.ch p c).discHigh = true ∨ s.aboveT p c (s.mono t.at_) t.level = false)) ∧
    (∃ (s : State) (p : PortIx) (c : ChIx) (t : Crossing), (s.ch p c).discHigh = false ∧ s.aboveT p c (s.mono t.at_) t.level = true ∧ (s.toInst t.at_).armedAt p c ((s.mono t.at_) / 65536) = false) ∧
    (∃ (s : State) (p : PortIx) (c : ChIx) (t : Crossing) (b : _), (s.ch p c).discHigh = false ∧ s.aboveT p c (s.mono t.at_) t.level = true ∧ (s.toInst t.at_).armedAt p c ((s.mono t.at_) / 65536) = true ∧ (s.ch p c).busyUntil = some b ∧ (s.mono t.at_) < b) ∧
    (∃ (s : State) (p : PortIx) (c : ChIx) (t : Crossing) (c1 : _) (c2 : _), (s.ch p c).discHigh = false ∧ s.aboveT p c (s.mono t.at_) t.level = true ∧ (s.toInst t.at_).armedAt p c ((s.mono t.at_) / 65536) = true ∧ (∀ b, (s.ch p c).busyUntil = some b → b ≤ (s.mono t.at_)) ∧ (s.ch p c).intA.role = .armed ∧ (s.ch p c).intA.ready ((s.mono t.at_) / 65536) = true ∧ (s.ch p c).intA.pair = some (c1, c2)) ∧
    (∃ (s : State) (p : PortIx) (c : ChIx) (t : Crossing), (s.ch p c).discHigh = false ∧ s.aboveT p c (s.mono t.at_) t.level = true ∧ (s.toInst t.at_).armedAt p c ((s.mono t.at_) / 65536) = true ∧ (∀ b, (s.ch p c).busyUntil = some b → b ≤ (s.mono t.at_)) ∧ (s.ch p c).noneArmed = true ∧ (s.ch p c).intA.ready ((s.mono t.at_) / 65536) = true ∧ (s.ch p c).intB.ready ((s.mono t.at_) / 65536) = false) ∧
    (∃ (s : State) (p : PortIx) (c : ChIx) (t : Crossing), (s.ch p c).discHigh = false ∧ s.aboveT p c (s.mono t.at_) t.level = true ∧ (s.toInst t.at_).armedAt p c ((s.mono t.at_) / 65536) = true ∧ (∀ b, (s.ch p c).busyUntil = some b → b ≤ (s.mono t.at_)) ∧ ((s.ch p c).settle ((s.mono t.at_) / 65536) (p * 512 + c)).noneArmed = true) :=
  ⟨⟨(chSt { discHigh := true }), 3, 5, ((⟨65536, 2000000⟩ : Crossing)), (by decide +kernel)⟩,
   ⟨(chSt { armedTo := some 0 }), 3, 5, ((⟨65536, 2000000⟩ : Crossing)), (by decide +kernel), (by decide +kernel), (by decide +kernel)⟩,
   ⟨(chSt { armedFrom := some 0, busyUntil := some 65537 }), 3, 5, ((⟨65536, 2000000⟩ : Crossing)), 65537, (by decide +kernel), (by decide +kernel), (by decide +kernel), (by decide +kernel), (by decide +kernel)⟩,
   ⟨(chSt { armedFrom := some 0, busyUntil := some 65536, intA := pairD }), 3, 5, ((⟨65536, 2000000⟩ : Crossing)), 1000, 2000, (by decide +kernel), (by decide +kernel), (by decide +kernel), (of_optAll (by decide +kernel)), (by decide +kernel), (by decide +kernel), (by decide +kernel)⟩,
   ⟨(chSt { armedFrom := some 0, intA := { pair := some (1000, 2000) } }), 3, 5, ((⟨65536, 2000000⟩ : Crossing)), (by decide +kernel), (by decide +kernel), (by decide +kernel), (of_optAll (by decide +kernel)), (by decide +kernel), (by decide +kernel), (by decide +kernel)⟩,
   ⟨(chSt { armedFrom := some 1 }), 3, 5, ((⟨65536, 2000000⟩ : Crossing)), (by decide +kernel), (by decide +kernel), (by decide +kernel), (of_optAll (by decide +kernel)), (by decide +kernel)⟩⟩

theorem witness_TrailingEdgeCompletesItsHit :
    (∃ (s : State) (p : PortIx) (c : ChIx) (t : TeCrossing) (n : Hit) (r : List Hit), (s.ch p c).discHigh = true ∧ s.atMostR p c (s.mono t.at_) t.level = true ∧ (s.ch p c).hits = n :: r ∧ n.teInst = none ∧ n.sat = false ∧ s.mono t.at_ < n.satAt) ∧
    (∃ (s : State) (p : PortIx) (c : ChIx) (t : TeCrossing) (n : Hit) (r : List Hit), (s.ch p c).discHigh = true ∧ s.atMostR p c (s.mono t.at_) t.level = true ∧ (s.ch p c).hits = n :: r ∧ n.teInst = none ∧ n.sat = false ∧ n.satAt ≤ s.mono t.at_) ∧
    (∃ (s : State) (p : PortIx) (c : ChIx) (t : TeCrossing), (s.ch p c).discHigh = true ∧ s.atMostR p c (s.mono t.at_) t.level = true ∧ (∀ n ∈ (s.ch p c).hits, n.open_ = false) ∧ (s.toInst t.at_).armedAt p c (s.mono t.at_ / 65536) = true ∧ (s.ch p c).orphanNext = true) ∧
    (∃ (s : State) (p : PortIx) (c : ChIx) (t : TeCrossing), ((s.ch p c).discHigh = false ∨ s.atMostR p c (s.mono t.at_) t.level = false)) ∧
    (∃ (s : State) (p : PortIx) (c : ChIx) (n : Hit) (r : List Hit), (s.ch p c).hits = n :: r ∧ n.open_ = true) ∧
    (∃ (s : State) (p : PortIx) (c : ChIx) (b : Nat) (n : Hit) (r : List Hit), (s.ch p c).busyUntil = some b ∧ (s.ch p c).discHigh = false ∧ (s.ch p c).hits = n :: r ∧ some n.mono = (s.ch p c).busyHit) :=
  ⟨⟨(chSt { discHigh := true, hits := [hit0], tePair := (5, 900) }), 3, 5, ((⟨0, -20, 77⟩ : TeCrossing)), hit0, (([] : List Hit)), (by decide +kernel), (by decide +kernel), (by decide +kernel), (by decide +kernel), (by decide +kernel), (by decide +kernel)⟩,
   ⟨(chSt { discHigh := true, hits := [hit0], tePair := (5, 900) }), 3, 5, ((⟨20000000, -20, 77⟩ : TeCrossing)), hit0, (([] : List Hit)), (by decide +kernel), (by decide +kernel), (by decide +kernel), (by decide +kernel), (by decide +kernel), (by decide +kernel)⟩,
   ⟨(chSt { discHigh := true, armedFrom := some 0, orphanNext := true }), 3, 5, ((⟨0, -20, 77⟩ : TeCrossing)), (by decide +kernel), (by decide +kernel), (by decide +kernel), (by decide +kernel), (by decide +kernel)⟩,
   ⟨State.reset, 3, 5, ((⟨0, -20, 77⟩ : TeCrossing)), (by decide +kernel)⟩,
   ⟨(chSt { hits := [hit0] }), 3, 5, hit0, (([] : List Hit)), (by decide +kernel), (by decide +kernel)⟩,
   ⟨(chSt { hits := [hit0], busyUntil := some 1, busyHit := some 0 }), 3, 5, 1, hit0, (([] : List Hit)), (by decide +kernel), (by decide +kernel), (by decide +kernel), (by decide +kernel)⟩⟩

theorem witness_FineTimeFollowsTheFixedPointRule :
    (∃ (s : State) (p : PortIx) (c : ChIx) (n : Hit) (r : List Hit), (s.ch p c).hits = n :: r ∧ n.coarse = none ∧ outOfRange n.raw n.c1 n.c2 = true) ∧
    (∃ (s : State) (p : PortIx) (c : ChIx) (n : Hit) (r : List Hit) (e : EntryParity), (s.ch p c).hits = n :: r ∧ n.coarse = none ∧ outOfRange n.raw n.c1 n.c2 = false ∧ s.fonAt p (CH_CFG_GATE_EN c) n.mono = false ∧ e.lo = false ∧ e.hi = false) ∧
    (∃ (s : State) (p : PortIx) (c : ChIx) (n : Hit) (r : List Hit), (s.ch p c).hits = n :: r ∧ n.coarse = none ∧ outOfRange n.raw n.c1 n.c2 = false ∧ s.fonAt p (CH_CFG_GATE_EN c) n.mono = false ∧ 0 ≤ (((n.stop : Int) - 1) * 2 ^ 24 - ((n.raw : Int) - n.c1) * (roundDiv (2 ^ 24) (n.c2 - n.c1) : Nat) : Int) / 2 ^ 24 ∧ (((n.stop : Int) - 1) * 2 ^ 24 - ((n.raw : Int) - n.c1) * (roundDiv (2 ^ 24) (n.c2 - n.c1) : Nat) : Int) / 2 ^ 24 < 4000) ∧
    (∃ (s : State) (p : PortIx) (c : ChIx) (n : Hit) (r : List Hit), (s.ch p c).hits = n :: r ∧ n.coarse = none ∧ outOfRange n.raw n.c1 n.c2 = false ∧ s.fonAt p (CH_CFG_GATE_EN c) n.mono = false ∧ 4000 ≤ (((n.stop : Int) - 1) * 2 ^ 24 - ((n.raw : Int) - n.c1) * (roundDiv (2 ^ 24) (n.c2 - n.c1) : Nat) : Int) / 2 ^ 24) ∧
    (∃ (s : State) (p : PortIx) (c : ChIx) (n : Hit) (r : List Hit), (s.ch p c).hits = n :: r ∧ n.coarse = none ∧ outOfRange n.raw n.c1 n.c2 = false ∧ s.fonAt p (CH_CFG_GATE_EN c) n.mono = false ∧ (((n.stop : Int) - 1) * 2 ^ 24 - ((n.raw : Int) - n.c1) * (roundDiv (2 ^ 24) (n.c2 - n.c1) : Nat) : Int) / 2 ^ 24 < 0) ∧
    (∃ (s : State) (p : PortIx) (c : ChIx) (n : Hit) (r : List Hit) (e : EntryParity), (s.ch p c).hits = n :: r ∧ n.coarse = none ∧ outOfRange n.raw n.c1 n.c2 = false ∧ s.fonAt p (CH_CFG_GATE_EN c) n.mono = false ∧ e.lo = true ∧ ((((((n.stop : Int) - 1) * 2 ^ 24 - ((n.raw : Int) - n.c1) * (roundDiv (2 ^ 24) (n.c2 - n.c1) : Nat) : Int) / 2 ^ 14 % 1024).toNat : Nat) / 16 : Nat) ≠ 0) ∧
    (∃ (s : State) (p : PortIx) (c : ChIx) (x : ValLook) (n : Hit) (r : List Hit), (s.ch p c).hits = n :: r ∧ n.valDue (s.mono x.at_) = true ∧ ((x.spans.any fun e => decide (e.1 ≤ n.valSpan) && decide (e.1 ≤ e.2)) = false)) ∧
    (∃ (s : State) (p : PortIx) (c : ChIx) (x : ValLook) (n : Hit) (r : List Hit), (s.ch p c).hits = n :: r ∧ n.valDue (s.mono x.at_) = true ∧ ((x.spans.any fun e => decide (e.1 ≤ n.valSpan) && decide (e.1 ≤ e.2)) = true)) :=
  ⟨⟨(chSt { hits := [{ hit0 with raw := 749 }] }), 3, 5, ({ hit0 with raw := 749 }), (([] : List Hit)), (by decide +kernel), (by decide +kernel), (by decide +kernel)⟩,
   ⟨((chSt { hits := [{ hit0 with raw := 1500 }] }).fset 3 (CH_CFG_GATE_EN 5) 0), 3, 5, ({ hit0 with raw := 1500 }), (([] : List Hit)), ((⟨false, false⟩ : EntryParity)), (by decide +kernel), (by decide +kernel), (by decide +kernel), (by decide +kernel), (by decide +kernel), (by decide +kernel)⟩,
   ⟨((chSt { hits := [{ hit0 with raw := 1500 }] }).fset 3 (CH_CFG_GATE_EN 5) 0), 3, 5, ({ hit0 with raw := 1500 }), (([] : List Hit)), (by decide +kernel), (by decide +kernel), (by decide +kernel), (by decide +kernel), (by decide +kernel), (by decide +kernel)⟩,
   ⟨((chSt { hits := [{ hit0 with raw := 1000, stop := 4001 }] }).fset 3 (CH_CFG_GATE_EN 5) 0), 3, 5, ({ hit0 with raw := 1000, stop := 4001 }), (([] : List Hit)), (by decide +kernel), (by decide +kernel), (by decide +kernel), (by decide +kernel), (by decide +kernel)⟩,
   ⟨((chSt { hits := [{ hit0 with raw := 2250 }] }).fset 3 (CH_CFG_GATE_EN 5) 0), 3, 5, ({ hit0 with raw := 2250 }), (([] : List Hit)), (by decide +kernel), (by decide +kernel), (by decide +kernel), (by decide +kernel), (by decide +kernel)⟩,
   ⟨((chSt { hits := [{ hit0 with raw := 1500 }] }).fset 3 (CH_CFG_GATE_EN 5) 0), 3, 5, ({ hit0 with raw := 1500 }), (([] : List Hit)), ((⟨true, false⟩ : EntryParity)), (by decide +kernel), (by decide +kernel), (by decide +kernel), (by decide +kernel), (by decide +kernel), (by decide +kernel)⟩,
   ⟨(chSt { hits := [hit0] }), 3, 5, ((⟨65536 * 9, []⟩ : ValLook)), hit0, (([] : List Hit)), (by decide +kernel), (by decide +kernel), (by decide +kernel)⟩,
   ⟨(chSt { hits := [hit0] }), 3, 5, ((⟨65536 * 9, [(0, 7)]⟩ : ValLook)), hit0, (([] : List Hit)), (by decide +kernel), (by decide +kernel), (by decide +kernel)⟩⟩

theorem witness_InterpolatorsChangeRolesByTheRule :
    (∃ (s : State) (p : PortIx) (c : ChIx) (x : IntIx) (c1 : BitVec 12) (c2 : BitVec 12), s.feMeasures p = true ∧ ((s.ch p c).intp x).role ≠ .armed ∧ c1.toNat + 768 ≤ c2.toNat ∧ c2.toNat ≤ c1.toNat + 1280) ∧
    (∃ (s : State) (p : PortIx) (c : ChIx) (x : IntIx) (t : Inst) (c1 : BitVec 12) (c2 : BitVec 12), s.feMeasures p = true ∧ ((s.ch p c).intp x).role ≠ .armed ∧ c2.toNat < c1.toNat + 768 ∧ (s.toInst t).armedAt p c (s.mono t / 65536) = true) ∧
    (∃ (s : State) (p : PortIx) (c : ChIx) (x : IntIx), ((s.ch p c).intp x).role = .converting ∧ s.feMeasures p = true) ∧
    (∃ (s : State) (p : PortIx) (c : ChIx), s.armedAt p c s.monoNs = true ∧ (s.ch p c).intA.role = .armed ∧ (s.ch p c).intB.role = .idle ∧ (s.ch p c).intB.ready s.monoNs = true) ∧
    (∃ (s : State) (p : PortIx) (c : ChIx), s.armedAt p c s.monoNs = true ∧ (s.ch p c).intA.role = .armed ∧ (s.ch p c).intB.role = .idle ∧ (s.ch p c).intB.ready s.monoNs = false) ∧
    (∃ (s : State) (p : PortIx) (c : ChIx) (x : IntIx), ((s.ch p c).intp x).role = .armed ∧ ((s.ch p c).intp x).pairAt + 4000 < s.monoNs) ∧
    (∃ (s : State) (p : PortIx) (c : ChIx) (t : Span), s.feMeasures p = true ∧ (s.ch p c).teDone = false ∧ (s.ch p c).discHigh = false ∧ (s.ch p c).discLow + 8 * 65536 ≤ s.mono t.from_) ∧
    (∃ (s : State) (p : PortIx) (c : ChIx) (t : Span), s.feMeasures p = true ∧ (s.ch p c).teDone = false ∧ ((s.ch p c).discHigh = true ∨ s.mono t.from_ < (s.ch p c).discLow + 8 * 65536)) :=
  ⟨⟨State.reset, 3, 5, 0, 1000, 2280, (by decide +kernel), (by decide +kernel), (by decide +kernel), (by decide +kernel)⟩,
   ⟨(chSt { armedFrom := some 0 }), 3, 5, 0, 4000, 1000, 1767, (by decide +kernel), (by decide +kernel), (by decide +kernel), (by decide +kernel)⟩,
   ⟨(chSt { intA := { role := .converting } }), 3, 5, 0, (by decide +kernel), (by decide +kernel)⟩,
   ⟨(chSt { armedFrom := some 0, intA := pairD, intB := { pair := some (1000, 2000) } }), 3, 5, (by decide +kernel), (by decide +kernel), (by decide +kernel), (by decide +kernel)⟩,
   ⟨(chSt { armedFrom := some 0, intA := pairD }), 3, 5, (by decide +kernel), (by decide +kernel), (by decide +kernel), (by decide +kernel)⟩,
   ⟨((chSt { intA := pairD }).modTm fun m => { m with tick := 1, now := { m.now with ns := 1 } }), 3, 5, 0, (by decide +kernel), (by decide +kernel)⟩,
   ⟨State.reset, 3, 5, ((⟨600000, 700000⟩ : Span)), (by decide +kernel), (by decide +kernel), (by decide +kernel), (by decide +kernel)⟩,
   ⟨State.reset, 3, 5, ((⟨6000, 7000⟩ : Span)), (by decide +kernel), (by decide +kernel), (by decide +kernel)⟩⟩

theorem witness_CodeDensityTablesAreBuiltAndInstalled :
    (∃ (s : State) (p : PortIx) (b : BlkIx) (pr : Nat × Nat), s.fon p (BLK_CD_EN b) = true ∧ s.fon p (CH_CFG_CD_EN (16 * b.val + (s.blk p b).cdSel)) = true ∧ (s.fe p).analogOn = true ∧ (s.ch p (16 * b.val + (s.blk p b).cdSel)).intA.role = .idle ∧ (s.ch p (16 * b.val + (s.blk p b).cdSel)).intA.pair = some pr ∧ (s.blk p b).nA < s.cdN p b) ∧
    (∃ (s : State) (p : PortIx) (b : BlkIx), s.cdN p b ≤ (s.blk p b).nA ∧ s.cdN p b ≤ (s.blk p b).nB) ∧
    (∃ (s : State) (p : PortIx) (b : BlkIx) (k : Fin 16) (x : IntIx) (tbl : List Nat), (s.blk p b).newTables = [(k.val, x.val, tbl)]) ∧
    (∃ (s : State) (p : PortIx) (c : ChIx) (x : IntIx) (i : _), ((s.ch p c).intp x).resetPending = true ∧ i ≤ 64) :=
  ⟨⟨((((chSt {}).setCh 3 0 { intA := { pair := some (1000, 2000) } }).fset 3 (BLK_CD_EN 0) 1).fset 3 (CH_CFG_CD_EN 0) 1), 3, 0, ((1000, 2000)), (by decide +kernel), (by decide +kernel), (by decide +kernel), (by decide +kernel), (by decide +kernel), (by decide +kernel)⟩,
   ⟨((blkSt { nA := 16384, nB := 16384 }).fset 3 (BLK_CD_LOG 0) 14), 3, 0, (by decide +kernel), (by decide +kernel)⟩,
   ⟨(blkSt { newTables := [(2, 1, (List.range 63).map fun i => 64 * i + 60)] }), 3, 0, 2, 1, ((List.range 63).map fun i => 64 * i + 60), (by decide +kernel)⟩,
   ⟨(chSt { intA := { resetPending := true, table := [3] } }), 3, 5, 0, 0, (by decide +kernel), (by decide +kernel)⟩⟩

theorem witness_GateChangesAndTestPulses :
    (∃ (s : State) (p : PortIx) (g : GateCmd) (r : List GateCmd), (s.fe p).gateCmds = g :: r ∧ g.tick ≤ s.tm.tick ∧ g.kind = 0 ∧ s.fon p GATE_STAT_CMD_OPEN = g.open_) ∧
    (∃ (s : State) (p : PortIx) (g : GateCmd) (r : List GateCmd), (s.fe p).gateCmds = g :: r ∧ g.tick ≤ s.tm.tick ∧ g.kind = 0 ∧ s.fon p GATE_STAT_CMD_OPEN = (!g.open_) ∧ s.fgetAt p GATE_CFG_MODE (g.ns * 65536) = 1 ∧ s.fon p GATE_STAT_OPEN = (!g.open_) ∧ s.fonAt p GATE_CFG_REC_EN (g.ns * 65536) = true ∧ (s.fe p).factsNow.gates.length < 4) ∧
    (∃ (s : State) (p : PortIx) (g : GateCmd) (r : List GateCmd), (s.fe p).gateCmds = g :: r ∧ g.tick ≤ s.tm.tick ∧ g.kind = 1 ∧ s.fgetAt p GATE_CFG_MODE (g.ns * 65536) = 2 ∧ s.fon p GATE_STAT_OPEN = (!g.open_)) ∧
    (∃ (s : State) (p : PortIx), s.feLive p = true ∧ (s.fe p).gateCmds = []) ∧
    (∃ (s : State) (p : PortIx) (t : Inst) (g : _), s.feLive p = true ∧ (s.fe p).gateCmds = [g] ∧ g.kind = 1 ∧ s.mono t < g.cross + 2 * 65536 ∧ s.mono t / 65536 ≤ g.ns) ∧
    (∃ (s : State) (p : PortIx) (j : Injection) (r : List Injection), (s.fe p).injects = j :: r ∧ j.tick ≤ s.tm.tick) :=
  ⟨⟨(feSt { gateCmds := [⟨0, 100, 0, false, 2, 0⟩] }), 3, (⟨0, 100, 0, false, 2, 0⟩), (([] : List GateCmd)), (by decide +kernel), (by decide +kernel), (by decide +kernel), (by decide +kernel)⟩,
   ⟨((feSt { gateCmds := [⟨0, 100, 0, true, 2, 0⟩] }).fset 3 GATE_CFG_MODE 1), 3, (⟨0, 100, 0, true, 2, 0⟩), (([] : List GateCmd)), (by decide +kernel), (by decide +kernel), (by decide +kernel), (by decide +kernel), (by decide +kernel), (by decide +kernel), (by decide +kernel), (by decide +kernel)⟩,
   ⟨((feSt { gateCmds := [⟨0, 100, 1, true, 255, 0⟩] }).fset 3 GATE_CFG_MODE 2), 3, (⟨0, 100, 1, true, 255, 0⟩), (([] : List GateCmd)), (by decide +kernel), (by decide +kernel), (by decide +kernel), (by decide +kernel), (by decide +kernel)⟩,
   ⟨State.reset, 3, (by decide +kernel), (by decide +kernel)⟩,
   ⟨(feSt { gateCmds := [⟨0, 100, 1, true, 255, 65536⟩] }), 3, 70000, (⟨0, 100, 1, true, 255, 65536⟩), (by decide +kernel), (by decide +kernel), (by decide +kernel), (by decide +kernel), (by decide +kernel)⟩,
   ⟨(feSt { injects := [⟨0, 7, 9⟩] }), 3, (⟨0, 7, 9⟩), (([] : List Injection)), (by decide +kernel), (by decide +kernel)⟩⟩

theorem witness_AmplitudeConversionsAndSlices :
    (∃ (s : State) (p : PortIx) (c : ChIx) (t : Inst) (n : Hit) (r : List Hit), (s.ch p c).later = [] ∧ (s.ch p c).hits = n :: r ∧ n.amp = .waiting ∧ n.startEdge = none ∧ n.rejected = false ∧ n.startOk (s.mono t / 65536) = true ∧ (s.blk p (c.val / 16)).edge ≠ s.mono t / 65536 ∧ (s.blk p (c.val / 16)).before (s.mono t / 65536) = s.blk p (c.val / 16) ∧ (s.blk p (c.val / 16)).pick (s.mono t / 65536) = none) ∧
    (∃ (s : State) (p : PortIx) (c : ChIx) (t : Inst) (n : Hit) (r : List Hit) (k : _), (s.ch p c).later = [] ∧ (s.ch p c).hits = n :: r ∧ n.amp = .waiting ∧ n.startEdge = none ∧ n.rejected = false ∧ n.startOk (s.mono t / 65536) = true ∧ (s.blk p (c.val / 16)).edge ≠ s.mono t / 65536 ∧ (s.blk p (c.val / 16)).before (s.mono t / 65536) = s.blk p (c.val / 16) ∧ (s.blk p (c.val / 16)).pick (s.mono t / 65536) = some k) ∧
    (∃ (s : State) (p : PortIx) (c : ChIx) (t : Inst) (n : Hit) (r : List Hit), (s.ch p c).later = [] ∧ (s.ch p c).hits = n :: r ∧ n.amp = .waiting ∧ n.startEdge = none ∧ n.rejected = false ∧ n.startOk (s.mono t / 65536) = true ∧ (s.blk p (c.val / 16)).edge = s.mono t / 65536) ∧
    (∃ (s : State) (p : PortIx) (b : BlkIx) (k : SliceIx) (p8 : Excursion) (p1 : Excursion) (v : Conv) (q : List Conv) (n : Hit) (r : List Hit) (h8 : Int) (h1 : Int), ((s.blk p b).slice k).convs = v :: q ∧ v.handOver < (s.tm.tick + 1) * 4000 ∧ (s.ch p v.ch).hits = n :: r ∧ n.mono = v.hit ∧ n.amp = .converting k.val ∧ h8 = max n.hold8 (s.held p v.ch v.hit p8) ∧ h1 = max n.hold1 (s.held p v.ch v.hit p1)) ∧
    (∃ (s : State) (p : PortIx) (b : BlkIx) (k : Fin 5), s.feFrame p % framesPerSec % 80 = 0 ∧ (s.fe p).analogOn = true ∧ (s.fe p).wakeCal = false ∧ (s.blk p b).spare = some k.val ∧ (s.blk p b).forcedSpare = none ∧ (∀ j : Fin 5, ((s.blk p b).slice j).failed = false)) ∧
    (∃ (s : State) (p : PortIx) (b : BlkIx) (k : SliceIx) (o : Int) (g : Int), (s.blk p b).spare = some k.val ∧ s.feMeasures p = true ∧ o.natAbs ≤ 16000 ∧ g.natAbs ≤ 30000) ∧
    (∃ (s : State) (p : PortIx) (b : BlkIx) (k : SliceIx) (o : Int), (s.blk p b).spare = some k.val ∧ s.feMeasures p = true ∧ 16000 < o.natAbs) ∧
    (∃ (s : State) (p : PortIx) (b : BlkIx) (k : SliceIx) (o : Int) (g : Int), (s.fe p).wakeCal = true ∧ ((s.blk p b).slice k).failed = false ∧ o.natAbs ≤ 16000 ∧ g.natAbs ≤ 30000) ∧
    (∃ (s : State) (p : PortIx) (b : BlkIx) (k : SliceIx) (o : Int), (s.fe p).wakeCal = true ∧ ((s.blk p b).slice k).failed = false ∧ 16000 < o.natAbs) ∧
    (∃ (s : State) (x : WakeCal), (s.fe x.fe).wakeCal = true) :=
  ⟨⟨((chSt { hits := [{ hit0 with adcDly := 5, at_ := 0 }] }).setBlk 3 0 { slices := [(1, { freeAt := 9 }), (2, { freeAt := 9 }), (3, { freeAt := 9 }), (4, { freeAt := 9 })] }), 3, 5, (5 * 65536), ({ hit0 with adcDly := 5, at_ := 0 }), (([] : List Hit)), (by decide +kernel), (by decide +kernel), (by decide +kernel), (by decide +kernel), (by decide +kernel), (by decide +kernel), (by decide +kernel), (by decide +kernel), (by decide +kernel)⟩,
   ⟨(chSt { hits := [{ hit0 with adcDly := 5 }] }), 3, 5, (5 * 65536), ({ hit0 with adcDly := 5 }), (([] : List Hit)), 1, (by decide +kernel), (by decide +kernel), (by decide +kernel), (by decide +kernel), (by decide +kernel), (by decide +kernel), (by decide +kernel), (by decide +kernel), (by decide +kernel)⟩,
   ⟨((chSt { hits := [{ hit0 with adcDly := 5 }] }).setBlk 3 0 { edge := 5, starters := [(3, 0), (9, 0)] }), 3, 5, (5 * 65536), ({ hit0 with adcDly := 5 }), (([] : List Hit)), (by decide +kernel), (by decide +kernel), (by decide +kernel), (by decide +kernel), (by decide +kernel), (by decide +kernel), (by decide +kernel)⟩,
   ⟨((chSt { hits := [{ hit0 with amp := .converting 2 }] }).setBlk 3 0 { slices := [(2, { convs := [⟨5, 0, 0⟩] })] }), 3, 0, 2, ((⟨100, 0⟩ : Excursion)), ((⟨120000, 0⟩ : Excursion)), ((⟨5, 0, 0⟩ : Conv)), (([] : List Conv)), ({ hit0 with amp := .converting 2 }), (([] : List Hit)), 100, 120000, (by decide +kernel), (by decide +kernel), (by decide +kernel), (by decide +kernel), (by decide +kernel), (by decide +kernel), (by decide +kernel)⟩,
   ⟨(blkSt { spare := some 4, lastSpare := 4 }), 3, 0, 4, (by decide +kernel), (by decide +kernel), (by decide +kernel), (by decide +kernel), (by decide +kernel), (by decide +kernel)⟩,
   ⟨State.reset, 3, 0, 0, ((-16000)), 30000, (by decide +kernel), (by decide +kernel), (by decide +kernel), (by decide +kernel)⟩,
   ⟨State.reset, 3, 0, 0, 16001, (by decide +kernel), (by decide +kernel), (by decide +kernel)⟩,
   ⟨(feSt { wakeCal := true }), 3, 0, 3, ((-16000)), 30000, (by decide +kernel), (by decide +kernel), (by decide +kernel), (by decide +kernel)⟩,
   ⟨(feSt { wakeCal := true }), 3, 0, 3, ((-16001)), (by decide +kernel), (by decide +kernel), (by decide +kernel)⟩,
   ⟨(feSt { wakeCal := true }), ((⟨3, [(0, 1, 16001, 0), (1, 2, 3, 4)]⟩ : WakeCal)), (by decide +kernel)⟩⟩

theorem witness_MonitorScansAndFaults :
    (∃ (s : State) (p : PortIx), s.feLive p = true ∧ s.fon p MON_CFG_TMR_EN = true ∧ s.monPeriod p ≤ s.since (s.fe p).mon.timerAt) ∧
    (∃ (s : State) (p : PortIx) (j : Nat) (r : List Nat), s.feLive p = true ∧ s.fon p MON_CFG_TP_EN = true ∧ (s.fe p).mon.injAt = j :: r ∧ j / 65536 + 1000 * s.fget p MON_TPDLY_DLY < (s.tm.tick + 1) * 4000 ∧ (s.fe p).mon.askAt ≠ some ((j / 65536 + 1000 * s.fget p MON_TPDLY_DLY) / 4) ∧ (s.fe p).mon.running = false) ∧
    (∃ (s : State) (p : PortIx) (j : Nat) (r : List Nat), s.feLive p = true ∧ s.fon p MON_CFG_TP_EN = true ∧ (s.fe p).mon.injAt = j :: r ∧ j / 65536 + 1000 * s.fget p MON_TPDLY_DLY < (s.tm.tick + 1) * 4000 ∧ (s.fe p).mon.askAt ≠ some ((j / 65536 + 1000 * s.fget p MON_TPDLY_DLY) / 4) ∧ (s.fe p).mon.running = true) ∧
    (∃ (s : State) (p : PortIx) (cm : Nat) (i : Nat) (r : List Nat), (s.fe p).mon.running = true ∧ (s.fe p).mon.waiting = false ∧ (s.fe p).mon.offsetDone = true ∧ (s.fe p).mon.todo = i :: r ∧ (s.fe p).mon.convEnd < (s.tm.tick + 1) * 4000 ∧ (s.fe p).mon.codesP.length < monCount (tget (s.fe p).mon.icfg i 0) ∧ i ≤ 3 ∧ (s.fe p).mon.void = 0 ∧ (cm < s.fget p MON_CMWIN_LO ∨ s.fget p MON_CMWIN_HI < cm)) ∧
    (∃ (s : State) (p : PortIx) (i : Nat) (r : List Nat), (s.fe p).mon.running = true ∧ (s.fe p).mon.waiting = false ∧ (s.fe p).mon.offsetDone = true ∧ (s.fe p).mon.todo = i :: r ∧ (s.fe p).mon.convEnd < (s.tm.tick + 1) * 4000 ∧ (s.fe p).mon.codesP.length < monCount (tget (s.fe p).mon.icfg i 0) ∧ 3 < i) ∧
    (∃ (s : State) (p : PortIx) (i : Nat) (r : List Nat), (s.fe p).mon.running = true ∧ (s.fe p).mon.waiting = false ∧ (s.fe p).mon.offsetDone = true ∧ (s.fe p).mon.todo = i :: r ∧ (s.fe p).mon.convEnd < (s.tm.tick + 1) * 4000 ∧ 3 < i ∧ (s.fe p).mon.codesP.length + 1 = monCount (tget (s.fe p).mon.icfg i 0)) ∧
    (∃ (s : State) (p : PortIx) (i : Nat) (r : List Nat), (s.fe p).mon.running = true ∧ (s.fe p).mon.waiting = false ∧ (s.fe p).mon.offsetDone = true ∧ (s.fe p).mon.todo = i :: r ∧ (s.fe p).mon.convEnd < (s.tm.tick + 1) * 4000 ∧ i ≤ 3 ∧ (s.fe p).mon.codesP.length = monCount (tget (s.fe p).mon.icfg i 0) ∧ (s.fe p).mon.codesN.length + 1 = monCount (tget (s.fe p).mon.icfg i 0)) ∧
    (∃ (s : State) (p : PortIx) (k : Fin 4) (r : List Nat), (s.fe p).mon.running = true ∧ (s.fe p).mon.offsetDone = true ∧ (s.fe p).mon.todo = k.val :: r ∧ (s.fe p).mon.tripped = [] ∧ (s.fe p).mon.codesP = []) ∧
    (∃ (s : State) (p : PortIx) (t : Inst) (i : Fin 25) (r : List Nat), (s.fe p).mon.todo = i.val :: r ∧ (s.fe p).mon.waiting = true ∧ (s.fe p).mon.commitAt * 65536 ≤ s.mono t ∧ (s.fe p).mon.void = 0) ∧
    (∃ (s : State) (p : PortIx) (t : Inst) (i : Fin 25) (r : List Nat), (s.fe p).mon.todo = i.val :: r ∧ (s.fe p).mon.waiting = true ∧ (s.fe p).mon.commitAt * 65536 ≤ s.mono t ∧ (s.fe p).mon.void = 1 ∧ i.val ≤ 3) ∧
    (∃ (s : State) (p : PortIx) (k : Fin 4), bitAt (tget (s.fe p).mon.rtdCfg k 0) 2 = true ∧ tget (s.fe p).mon.lastCommit k 0 + 500000 ≤ s.tm.tick ∧ bitAt (s.fget p MON_WLIVE_OUT) k = false) :=
  ⟨⟨((State.reset.fset 3 MON_CFG_TMR_EN 1).fset 3 MON_TIMER_PERIOD 0), 3, (by decide +kernel), (by decide +kernel), (by decide +kernel)⟩,
   ⟨((feSt { mon := { injAt := [0] } }).fset 3 MON_CFG_TP_EN 1), 3, 0, (([] : List Nat)), (by decide +kernel), (by decide +kernel), (by decide +kernel), (by decide +kernel), (by decide +kernel), (by decide +kernel)⟩,
   ⟨((feSt { mon := { running := true, injAt := [0] } }).fset 3 MON_CFG_TP_EN 1), 3, 0, (([] : List Nat)), (by decide +kernel), (by decide +kernel), (by decide +kernel), (by decide +kernel), (by decide +kernel), (by decide +kernel)⟩,
   ⟨((feSt { mon := { running := true, offsetDone := true, todo := [0, 4] } }).modTm fun m => { m with tick := 9000 }), 3, 2000, 0, ([4]), (by decide +kernel), (by decide +kernel), (by decide +kernel), (by decide +kernel), (by decide +kernel), (by decide +kernel), (by decide +kernel), (by decide +kernel), (by decide +kernel)⟩,
   ⟨((feSt { mon := { running := true, offsetDone := true, todo := [4, 5] } }).modTm fun m => { m with tick := 9000 }), 3, 4, ([5]), (by decide +kernel), (by decide +kernel), (by decide +kernel), (by decide +kernel), (by decide +kernel), (by decide +kernel), (by decide +kernel)⟩,
   ⟨((feSt { mon := { running := true, offsetDone := true, todo := [4, 5] } }).modTm fun m => { m with tick := 9000 }), 3, 4, ([5]), (by decide +kernel), (by decide +kernel), (by decide +kernel), (by decide +kernel), (by decide +kernel), (by decide +kernel), (by decide +kernel)⟩,
   ⟨((feSt { mon := { running := true, offsetDone := true, todo := [2, 5], codesP := [7] } }).modTm fun m => { m with tick := 9000 }), 3, 2, ([5]), (by decide +kernel), (by decide +kernel), (by decide +kernel), (by decide +kernel), (by decide +kernel), (by decide +kernel), (by decide +kernel), (by decide +kernel)⟩,
   ⟨(feSt { mon := { running := true, offsetDone := true, todo := [2, 4] } }), 3, 2, ([4]), (by decide +kernel), (by decide +kernel), (by decide +kernel), (by decide +kernel), (by decide +kernel)⟩,
   ⟨(feSt { mon := { running := true, offsetDone := true, waiting := true, todo := [2, 4], codesP := [100], codesN := [40] } }), 3, 0, 2, ([4]), (by decide +kernel), (by decide +kernel), (by decide +kernel), (by decide +kernel)⟩,
   ⟨(feSt { mon := { running := true, offsetDone := true, waiting := true, void := 1, todo := [3, 4], codesP := [100], codesN := [40] } }), 3, 0, 3, ([4]), (by decide +kernel), (by decide +kernel), (by decide +kernel), (by decide +kernel), (by decide +kernel)⟩,
   ⟨(((feSt { mon := { rtdCfg := [(2, 4)] } }).modTm fun m => { m with tick := 500000 }).fset 3 MON_WLIVE_OUT 3), 3, 2, (by decide +kernel), (by decide +kernel), (by decide +kernel)⟩⟩

theorem witness_FinalHitsReachTheSlot :
    (∃ (s : State) (p : PortIx) (c : ChIx) (t : Inst) (n : Hit) (r : List Hit) (code : Nat) (x1 : Bool), (s.ch p c).hits = n :: r ∧ n.final (s.ch p c) (s.mono t) = true ∧ n.rejected = false ∧ n.amp = .done code x1 ∧ (s.fe p).flushTick ≠ some n.hitTick ∧ (s.half p n.hitTick (c.val / 128)).admitted < 462 ∧ s.tm.tick ≤ n.hitTick + 1 ∧ (s.fe p).allocated n.hitTick = false ∧ (s.fe p).occ (c.val / 128) (s.parityOf p n.hitTick) < 512) ∧
    (∃ (s : State) (p : PortIx) (c : ChIx) (t : Inst) (n : Hit) (r : List Hit) (code : Nat) (x1 : Bool), (s.ch p c).hits = n :: r ∧ n.final (s.ch p c) (s.mono t) = true ∧ n.rejected = false ∧ n.amp = .done code x1 ∧ (s.fe p).flushTick ≠ some n.hitTick ∧ 462 ≤ (s.half p n.hitTick (c.val / 128)).admitted) ∧
    (∃ (s : State) (p : PortIx) (e : _), e ∈ (s.fe p).halves ∧ s.tm.tick < e.1 / 4 + 2) ∧
    (∃ (s : State) (p : PortIx) (q : FaceIx), s.lnk p q = 6 ∧ s.lnk p (1 - q.val) = 0 ∧ s.obeyed p q = true ∧ ((s.fe p).merger.begun = false ∨ (s.fe p).merger.tick ≠ s.tm.tick - 1)) ∧
    (∃ (s : State) (p : PortIx) (q : FaceIx) (k : Fin 464), s.lnk p q = 6 ∧ s.lnk p (1 - q.val) = 0 ∧ s.obeyed p q = true ∧ (s.fe p).merger.tick = (s.fe p).slotTick ∧ 0 < k.val ∧ k.val ≤ (s.fe p).merger.gates.length ∧ (s.fe p).merger.gates.length ≤ 4) :=
  ⟨⟨((chSt { hits := [hitF] }).setFe 3 { halves := [(4, { admitted := 461, entries := [⟨3, 1, 2, 9⟩, ⟨4, 0, 5, 999⟩] })] }), 3, 5, 100, hitF, (([] : List Hit)), 77, false, (by decide +kernel), (by decide +kernel), (by decide +kernel), (by decide +kernel), (by decide +kernel), (by decide +kernel), (by decide +kernel), (by decide +kernel), (by decide +kernel)⟩,
   ⟨((chSt { hits := [hitF] }).setFe 3 { halves := [(4, { admitted := 462 })] }), 3, 5, 100, hitF, (([] : List Hit)), 77, false, (by decide +kernel), (by decide +kernel), (by decide +kernel), (by decide +kernel), (by decide +kernel), (by decide +kernel)⟩,
   ⟨(tk 5 (feSt { halves := [(4, { admitted := 462 }), (17, { admitted := 1, entries := [⟨3, 1, 0, 0⟩] })] })), 3, (((17 : Nat), ({ admitted := 1, entries := [⟨3, 1, 0, 0⟩] } : Half))), (by decide +kernel), (by decide +kernel)⟩,
   ⟨(tk 5 (ownSt { factsPrev := { gates := [5#64] }, link0 := { responses := [(⟨1, 2, 7, 0x010, 5⟩, 3)] } })), 3, 0, (by decide +kernel), (by decide +kernel), (by decide +kernel), (by decide +kernel)⟩,
   ⟨(ownSt { merger := { gates := [5#64, 6#64, 7#64, 8#64], tick := 3 }, slotTick := 3 }), 3, 0, 4, (by decide +kernel), (by decide +kernel), (by decide +kernel), (by decide +kernel), (by decide +kernel), (by decide +kernel), (by decide +kernel)⟩⟩

theorem witness_AllocationGivesEveryRegionItsShare :
    (∃ (s : State) (p : PortIx), (s.fe p).merger.begun = true ∧ (s.fe p).merger.tick = s.tm.tick - 1 ∧ (s.fe p).merger.alloc = none ∧ (s.fe p).merger.gates.length ≤ 4 ∧ (s.fe p).merger.next < 4 ∧ (s.fe p).merger.chosenBefore ≤ 114 - (s.fe p).merger.gates.length ∧ (∀ r < 4, (s.fe p).merger.sentOf r ≤ min (s.demand p r) (s.fe p).merger.fair) ∧ (s.fe p).merger.sentOf 0 + (s.fe p).merger.sentOf 1 + (s.fe p).merger.sentOf 2 + (s.fe p).merger.sentOf 3 = (s.fe p).merger.chosenBefore) ∧
    (∃ (s : State) (p : PortIx) (k : Fin 464) (r : Nat) (e : Entry), (s.fe p).merger.begun = true ∧ (s.fe p).merger.tick = s.tm.tick - 1 ∧ (s.fe p).merger.gates.length < k.val ∧ k.val < 463 ∧ (s.fe p).merger.next = r ∧ r < 4 ∧ s.servable p k r = true ∧ (s.fe p).merger.alloc = none ∧ (s.half p (s.fe p).merger.tick r).entries = [e] ∧ e.blk < 8) ∧
    (∃ (s : State) (p : PortIx) (k : Fin 464), (s.fe p).merger.begun = true ∧ (s.fe p).merger.tick = s.tm.tick - 1 ∧ (s.fe p).merger.gates.length < k.val ∧ k.val < 463 ∧ (∀ r < 4, s.servable p k r = false) ∧ (s.fe p).merger.next < 4 ∧ (s.fe p).merger.alloc = none) :=
  ⟨⟨(tk 2 (feSt { halves := [(4, { admitted := 462, lost := 2 }), (5, { admitted := 200 }), (6, { admitted := 3 })], merger := { begun := true, tick := 1, next := 2, sent := [(0, 50), (1, 61), (2, 3)], chosenBefore := 114 } })), 3, (by decide +kernel), (by decide +kernel), (by decide +kernel), (by decide +kernel), (by decide +kernel), (by decide +kernel), (by decide +kernel), (by decide +kernel)⟩,
   ⟨(tk 2 (feSt { halves := [(6, { admitted := 3, entries := [⟨77, 5, 0, 9⟩] })], merger := { begun := true, tick := 1, next := 2, gates := [5#64] } })), 3, 2, 2, (⟨77, 5, 0, 9⟩), (by decide +kernel), (by decide +kernel), (by decide +kernel), (by decide +kernel), (by decide +kernel), (by decide +kernel), (by decide +kernel), (by decide +kernel), (by decide +kernel), (by decide +kernel)⟩,
   ⟨(tk 2 (feSt { halves := [(6, { admitted := 3, entries := [⟨77, 5, 0, 2035⟩] })], merger := { begun := true, tick := 1, next := 3, gates := [5#64] } })), 3, 2, (by decide +kernel), (by decide +kernel), (by decide +kernel), (by decide +kernel), (by decide +kernel), (by decide +kernel), (by decide +kernel)⟩⟩

theorem witness_FastCommandsAreObeyedFromTheOwner :
    (∃ (s : State) (p : PortIx) (q : FaceIx) (k : Fin 250), k.val ≠ 0 ∧ s.feLive p = true ∧ s.lnk p q = 6 ∧ s.obeyed p q = true ∧ (s.fe p).tpEn = true ∧ (s.fe p).pulseAsk = false ∧ (s.fe p).tpCoarse < 4000) ∧
    (∃ (s : State) (p : PortIx) (q : FaceIx) (k : Fin 250), k.val ≠ 0 ∧ s.feLive p = true ∧ s.lnk p q = 6 ∧ s.obeyed p q = true ∧ s.fon p MON_CFG_CMD_EN = true) ∧
    (∃ (s : State) (p : PortIx) (q : FaceIx) (k : Fin 250), k.val ≠ 0 ∧ s.feLive p = true ∧ s.lnk p q = 6 ∧ s.obeyed p q = true ∧ (s.fe p).powerAsk = none ∧ s.fon p DF_STAT_STANDBY = false) ∧
    (∃ (s : State) (p : PortIx) (q : FaceIx) (k : Fin 250), k.val ≠ 0 ∧ s.feLive p = true ∧ s.lnk p q = 6 ∧ s.obeyed p q = true ∧ (s.fe p).powerAsk = none ∧ s.fon p DF_STAT_STANDBY = true) ∧
    (∃ (s : State) (p : PortIx) (q : FaceIx) (k : Fin 250), k.val ≠ 0 ∧ s.feLive p = true ∧ s.lnk p q = 6 ∧ s.obeyed p q = true ∧ s.fget p (LNK_VER_SEL q) = 2) ∧
    (∃ (s : State) (p : PortIx) (q : FaceIx) (k : Fin 250), k.val ≠ 0 ∧ s.feLive p = true ∧ s.obeyed p q = false) ∧
    (∃ (s : State) (p : PortIx) (x : FcChar), s.feLive p = true ∧ x.slot.val ≠ 0 ∧ fcCode x.plus x.grp.toNat = none ∧ groupSym x.plus x.grp.toNat = none) ∧
    (∃ (s : State) (p : PortIx) (x : FcChar) (c : _), s.feLive p = true ∧ x.slot.val ≠ 0 ∧ fcCode x.plus x.grp.toNat = some c ∧ 9 ≤ c) ∧
    (∃ (s : State) (p : PortIx) (q : FaceIx) (x : FcChar), s.feLive p = true ∧ x.slot.val ≠ 0 ∧ fcCode x.plus x.grp.toNat = some 5 ∧ s.lnk p q = 6 ∧ s.obeyed p q = true) :=
  ⟨⟨(ownSt { tpEn := true, tpCoarse := 3999, tpFine := 511 }), 3, 0, 249, (by decide +kernel), (by decide +kernel), (by decide +kernel), (by decide +kernel), (by decide +kernel), (by decide +kernel), (by decide +kernel)⟩,
   ⟨((ownSt {}).fset 3 MON_CFG_CMD_EN 1), 3, 0, 249, (by decide +kernel), (by decide +kernel), (by decide +kernel), (by decide +kernel), (by decide +kernel)⟩,
   ⟨(ownSt {}), 3, 0, 249, (by decide +kernel), (by decide +kernel), (by decide +kernel), (by decide +kernel), (by decide +kernel), (by decide +kernel)⟩,
   ⟨((ownSt {}).fset 3 DF_STAT_STANDBY 1), 3, 0, 249, (by decide +kernel), (by decide +kernel), (by decide +kernel), (by decide +kernel), (by decide +kernel), (by decide +kernel)⟩,
   ⟨((ownSt {}).fset 3 (LNK_VER_SEL 0) 2), 3, 0, 249, (by decide +kernel), (by decide +kernel), (by decide +kernel), (by decide +kernel), (by decide +kernel)⟩,
   ⟨State.reset, 3, 0, 249, (by decide +kernel), (by decide +kernel), (by decide +kernel)⟩,
   ⟨(ownSt {}), 3, (⟨249, false, 0⟩), (by decide +kernel), (by decide +kernel), (by decide +kernel), (by decide +kernel)⟩,
   ⟨(ownSt {}), 3, (⟨249, false, BitVec.ofNat 10 (symGroup false (fcSym 9))⟩), 9, (by decide +kernel), (by decide +kernel), (by decide +kernel), (by decide +kernel)⟩,
   ⟨(ownSt {}), 3, 0, (⟨1, true, BitVec.ofNat 10 (symGroup true (fcSym 5))⟩), (by decide +kernel), (by decide +kernel), (by decide +kernel), (by decide +kernel), (by decide +kernel)⟩⟩

theorem witness_PowerFlushAndScrubbing :
    (∃ (s : State) (p : PortIx), (s.fe p).flushAsk = true) ∧
    (∃ (s : State) (p : PortIx), (s.fe p).thermalHold = false ∧ (s.fe p).powerAsk = some true ∧ s.fon p DF_STAT_STANDBY = false) ∧
    (∃ (s : State) (p : PortIx), (s.fe p).thermalHold = false ∧ (s.fe p).powerAsk = some false ∧ s.fon p DF_STAT_STANDBY = true) ∧
    (∃ (s : State) (p : PortIx), s.fon p DF_STAT_WAKING = true ∧ (s.fe p).wakeFrom + 27 ≤ s.tm.tick) ∧
    (∃ (s : State) (z : State) (p : PortIx) (x : Upsets), z = s.takeUpsets p x ∧ (z.fe p).scrubPos = 4095 ∧ (s.fe p).scrubPos = 4095) ∧
    (∃ (s : State) (z : State) (p : PortIx) (x : Upsets) (w : _), z = s.takeUpsets p x ∧ (s.fe p).scrubPos = w ∧ w < 4095 ∧ z.fon p SCRUB_CTRL_EN = true ∧ 0 < (z.healCopies p w).1) ∧
    (∃ (s : State) (z : State) (p : PortIx) (x : Upsets) (w : _), z = s.takeUpsets p x ∧ (s.fe p).scrubPos = w ∧ w < 4095 ∧ z.fon p SCRUB_CTRL_EN = false) ∧
    (∃ (s : State) (p : PortIx) (l : Nat), (s.fe p).scrubPos < 4095 ∧ (s.fe p).copies = [] ∧ 0 < l) ∧
    (∃ (s : State) (p : PortIx) (w : BitVec 12) (b : Fin 32), (s.fe p).scrubPos < 4095 ∧ (s.fe p).copies = [] ∧ bitAt (feCfgMask w.toNat) b = true ∧ w.toNat ≠ (s.fe p).scrubPos) ∧
    (∃ (s : State) (p : PortIx) (b : Fin 32), (s.fe p).scrubPos < 4095 ∧ (s.fe p).copies = [] ∧ bitAt (feCfgMask (s.fe p).scrubPos) b = true ∧ s.fon p SCRUB_CTRL_EN = true) :=
  ⟨⟨((feSt { flushAsk := true, halves := [(17, { admitted := 1, entries := [⟨3, 1, 0, 0⟩] })] }).modTm fun m => { m with tick := 5 }), 3, (by decide +kernel)⟩,
   ⟨(feSt { powerAsk := some true }), 3, (by decide +kernel), (by decide +kernel), (by decide +kernel)⟩,
   ⟨((feSt { powerAsk := some false, analogOn := false }).fset 3 DF_STAT_STANDBY 1), 3, (by decide +kernel), (by decide +kernel), (by decide +kernel)⟩,
   ⟨(((feSt { wakeFrom := 10 }).fset 3 DF_STAT_WAKING 1).modTm fun m => { m with tick := 37 }), 3, (by decide +kernel), (by decide +kernel)⟩,
   ⟨(feSt { scrubPos := 4095, scrubDirty := true }), ((feSt { scrubPos := 4095, scrubDirty := true }).takeUpsets 3 ⟨[(0x100, 1, 0), (0x100, 1, 1)], 3⟩), 3, ((⟨[(0x100, 1, 0), (0x100, 1, 1)], 3⟩ : Upsets)), (by decide +kernel), (by decide +kernel), (by decide +kernel)⟩,
   ⟨(feSt { scrubPos := 0x100, copies := [(8192, 3)] }), ((feSt { scrubPos := 0x100, copies := [(8192, 3)] }).takeUpsets 3 ⟨[(0x100, 1, 0), (0x100, 1, 1)], 3⟩), 3, ((⟨[(0x100, 1, 0), (0x100, 1, 1)], 3⟩ : Upsets)), 0x100, (by decide +kernel), (by decide +kernel), (by decide +kernel), (by decide +kernel), (by decide +kernel)⟩,
   ⟨((feSt { scrubPos := 0x100, copies := [(8192, 3)] }).fset 3 SCRUB_CTRL_EN 0), (((feSt { scrubPos := 0x100, copies := [(8192, 3)] }).fset 3 SCRUB_CTRL_EN 0).takeUpsets 3 ⟨[(0x100, 1, 0), (0x100, 1, 1)], 3⟩), 3, ((⟨[(0x100, 1, 0), (0x100, 1, 1)], 3⟩ : Upsets)), 0x100, (by decide +kernel), (by decide +kernel), (by decide +kernel), (by decide +kernel)⟩,
   ⟨(feSt { scrubPos := 9 }), 3, 3, (by decide +kernel), (by decide +kernel), (by decide +kernel)⟩,
   ⟨(feSt { scrubPos := 9 }), 3, 0x100, 1, (by decide +kernel), (by decide +kernel), (by decide +kernel), (by decide +kernel)⟩,
   ⟨(feSt { scrubPos := 0x100 }), 3, 1, (by decide +kernel), (by decide +kernel), (by decide +kernel), (by decide +kernel)⟩⟩

theorem witness_RequestsAreAnsweredInTableOrder :
    (∃ (s : State) (p : PortIx) (q : FaceIx) (r : ReqPkt), s.feLive p = true ∧ r.addr.toNat ≤ 0x0FFF ∧ unknownWord r.addr.toNat = false ∧ (s.writesObeyed p q = true ∨ ownWord q r.addr.toNat = true)) ∧
    (∃ (s : State) (p : PortIx) (q : FaceIx) (r : ReqPkt), s.feLive p = true ∧ r.addr.toNat ≤ 0x0FFF ∧ unknownWord r.addr.toNat = false ∧ s.writesObeyed p q = false ∧ ownWord q r.addr.toNat = false) ∧
    (∃ (s : State) (p : PortIx) (r : ReqPkt), s.feLive p = true ∧ 0x0FFF < r.addr.toNat) ∧
    (∃ (s : State) (p : PortIx) (r : ReqPkt), s.feLive p = true ∧ unknownWord r.addr.toNat = true) ∧
    (∃ (s : State) (p : PortIx) (x : CodeRun), s.feLive p = true ∧ (reqRead x).2.1 = .uncorrectable) ∧
    (∃ (s : State) (p : PortIx) (x : CodeRun), s.feLive p = true ∧ (reqRead x).2.1 = .corrected ∧ (∀ r ∈ (reqRead x).2.2, r.typ = 0)) ∧
    (∃ (s : State) (p : PortIx) (x : CodeRun) (r : ReqPkt) (l : List ReqPkt), s.feLive p = true ∧ reqRead x = (0, .ok, r :: l) ∧ (∀ y ∈ l, y.typ = 0)) ∧
    (∃ (c : Nat) (d : Nat), c < d) :=
  ⟨⟨State.reset, 3, 0, req0, (by decide +kernel), (by decide +kernel), (by decide +kernel), (by decide +kernel)⟩,
   ⟨(State.reset.fset 3 (LNK_STAT_STATE 0) 6), 3, 0, req0, (by decide +kernel), (by decide +kernel), (by decide +kernel), (by decide +kernel), (by decide +kernel)⟩,
   ⟨State.reset, 3, (⟨1, 7, 0x1000, 5⟩), (by decide +kernel), (by decide +kernel)⟩,
   ⟨State.reset, 3, (⟨1, 7, 0x0EFF, 5⟩), (by decide +kernel), (by decide +kernel)⟩,
   ⟨State.reset, 3, (reqRunB ((reqCwB []).zipIdx.map fun e => if e.2 < 9 then 0x5A else e.1)), (by decide +kernel), (by decide +kernel)⟩,
   ⟨State.reset, 3, (reqRunB ((reqCwB []).set 5 77)), (by decide +kernel), (by decide +kernel), (by decide +kernel)⟩,
   ⟨State.reset, 3, (reqRunB (reqCwB [⟨1, 7, 0x010, 5⟩])), (⟨1, 7, 0x010, 5⟩), (List.replicate 15 ⟨0, 0, 0, 0⟩), (by decide +kernel), (by decide +kernel), (by decide +kernel)⟩,
   ⟨1, 2, (by decide +kernel)⟩⟩

theorem witness_WritesWithAnEffectOfTheirOwn :
    (∃ (s : State) (p : PortIx) (q : FaceIx) (c : ChIx) (v : W32), s.feLive p = true ∧ s.writesObeyed p q = true ∧ s.fon p (CH_CFG_EN c) = false ∧ bitAt v.toNat 0 = true) ∧
    (∃ (s : State) (p : PortIx) (q : FaceIx) (c : ChIx) (v : W32), s.feLive p = true ∧ s.writesObeyed p q = true ∧ s.fon p (CH_CFG_EN c) = true ∧ bitAt v.toNat 0 = false) ∧
    (∃ (s : State) (p : PortIx) (q : FaceIx), s.feLive p = true ∧ s.writesObeyed p q = true ∧ (s.fe p).gateCmds = []) ∧
    (∃ (s : State) (p : PortIx) (q : FaceIx) (b : BlkIx) (k : SliceIx) (v : W32), s.feLive p = true ∧ s.writesObeyed p q = true ∧ bitAt (s.fget p (BLK_ADCSTAT_FAIL b)) k = true ∧ bitAt v.toNat (3 + k.val) = true) ∧
    (∃ (s : State) (p : PortIx) (c : ChIx), s.feLive p = true ∧ s.fget p CHCNT_SEL_CH = c.val ∧ s.fget p CHCNT_SEL_IDX = 1) ∧
    (∃ (s : State) (p : PortIx) (v : W32), s.feLive p = true ∧ bitAt v.toNat 2 = true) ∧
    (∃ (s : State) (p : PortIx) (v : W32), s.feLive p = true ∧ bitAt v.toNat 0 = true ∧ bitAt v.toNat 7 = true ∧ bitAt v.toNat 1 = true) :=
  ⟨⟨State.reset, 3, 0, 5, 1, (by decide +kernel), (by decide +kernel), (by decide +kernel), (by decide +kernel)⟩,
   ⟨(State.reset.fset 3 (CH_CFG_EN 5) 1), 3, 0, 5, 0, (by decide +kernel), (by decide +kernel), (by decide +kernel), (by decide +kernel)⟩,
   ⟨(State.reset.fset 3 GATE_STAT_OPEN 0), 3, 0, (by decide +kernel), (by decide +kernel), (by decide +kernel)⟩,
   ⟨((State.reset.fset 3 (BLK_ADCSTAT_FAIL 1) 4).setBlk 3 1 { slices := [(2, { failed := true })] }), 3, 0, 1, 2, 32, (by decide +kernel), (by decide +kernel), (by decide +kernel), (by decide +kernel)⟩,
   ⟨(((chSt { pileup := 65535, orphan := 3 }).fset 3 CHCNT_SEL_CH 5).fset 3 CHCNT_SEL_IDX 1), 3, 5, (by decide +kernel), (by decide +kernel), (by decide +kernel)⟩,
   ⟨State.reset, 3, 0x1D, (by decide +kernel), (by decide +kernel)⟩,
   ⟨State.reset, 3, 0xFF, (by decide +kernel), (by decide +kernel), (by decide +kernel), (by decide +kernel)⟩⟩

theorem witness_SyncSetsKeepTheFrontEndInStep :
    (∃ (s : State) (p : PortIx) (q : FaceIx) (x : SyncSet), s.feLive p = true ∧ syncInfo x = none ∧ 2 ≤ s.lnk p q ∧ s.lnk p q ≠ 7 ∧ ((s.fe p).link q).badRun = 3) ∧
    (∃ (s : State) (p : PortIx) (q : FaceIx) (x : SyncSet), s.feLive p = true ∧ syncInfo x = none ∧ 2 ≤ s.lnk p q ∧ s.lnk p q ≠ 7 ∧ ((s.fe p).link q).badRun < 3) ∧
    (∃ (s : State) (p : PortIx) (q : FaceIx) (x : SyncSet) (i : _), s.feLive p = true ∧ syncInfo x = some i ∧ i.lrst = true ∧ s.lnk p q ≠ 7) ∧
    (∃ (s : State) (p : PortIx) (q : FaceIx) (x : SyncSet) (i : _), s.feLive p = true ∧ syncInfo x = some i ∧ i.lrst = false ∧ i.load = true ∧ s.lnk p q = 6 ∧ 2 ≤ i.state ∧ i.state ≠ 7 ∧ s.fget p (LNK_VER_SEL q) = 2 ∧ ((s.fe p).link q).claimCmd = true) ∧
    (∃ (s : State) (p : PortIx) (q : FaceIx) (x : SyncSet) (i : _), s.feLive p = true ∧ syncInfo x = some i ∧ i.lrst = false ∧ i.load = false ∧ s.lnk p q = 6 ∧ (s.feFrame p + 1) % (65536 * framesPerSec) ≠ i.sec * framesPerSec + i.fis ∧ (((s.fe p).link q).mismatchRun = 0)) ∧
    (∃ (s : State) (p : PortIx) (q : FaceIx) (x : SyncSet) (i : _), s.feLive p = true ∧ syncInfo x = some i ∧ i.lrst = false ∧ i.load = false ∧ s.lnk p q = 6 ∧ (s.feFrame p + 1) % (65536 * framesPerSec) ≠ i.sec * framesPerSec + i.fis ∧ (1 ≤ ((s.fe p).link q).mismatchRun)) ∧
    (∃ (s : State) (p : PortIx) (q : FaceIx), ((s.fe p).link q).lrstTimer = true ∧ ((s.fe p).link q).clockLocked = true) ∧
    (∃ (s : State) (p : PortIx) (q : FaceIx), s.feLive p = true ∧ s.lnk p q = 0 ∧ ((s.fe p).link q).lrstTimer = false) ∧
    (∃ (s : State) (p : PortIx) (q : FaceIx), s.feLive p = true ∧ s.lnk p q ≠ 0) :=
  ⟨⟨((feSt { link0 := { badRun := 3 } }).fset 3 (LNK_STAT_STATE 0) 2), 3, 0, syncBad, (by decide +kernel), (by decide +kernel), (by decide +kernel), (by decide +kernel), (by decide +kernel)⟩,
   ⟨((feSt { link0 := { badRun := 2 } }).fset 3 (LNK_STAT_STATE 0) 2), 3, 0, syncBad, (by decide +kernel), (by decide +kernel), (by decide +kernel), (by decide +kernel), (by decide +kernel)⟩,
   ⟨((feSt { link0 := { uplinkOn := true } }).fset 3 (LNK_STAT_STATE 0) 6), 3, 0, (syncSetOf 6 true true), (syncI 6 true true), (by decide +kernel), (by decide +kernel), (by decide +kernel), (by decide +kernel)⟩,
   ⟨(((feSt { link0 := { claimCmd := true } }).fset 3 (LNK_STAT_STATE 0) 6).fset 3 (LNK_VER_SEL 0) 2), 3, 0, (syncSetOf 6 true false), (syncI 6 true false), (by decide +kernel), (by decide +kernel), (by decide +kernel), (by decide +kernel), (by decide +kernel), (by decide +kernel), (by decide +kernel), (by decide +kernel), (by decide +kernel)⟩,
   ⟨(((feSt { link0 := { mismatchRun := 0 } }).fset 3 (LNK_STAT_STATE 0) 6)), 3, 0, (syncSetOf 6 false false), (syncI 6 false false), (by decide +kernel), (by decide +kernel), (by decide +kernel), (by decide +kernel), (by decide +kernel), (by decide +kernel), (by decide +kernel)⟩,
   ⟨(((feSt { link0 := { mismatchRun := 1 } }).fset 3 (LNK_STAT_STATE 0) 6)), 3, 0, (syncSetOf 6 false false), (syncI 6 false false), (by decide +kernel), (by decide +kernel), (by decide +kernel), (by decide +kernel), (by decide +kernel), (by decide +kernel), (by decide +kernel)⟩,
   ⟨(feSt { link0 := { lrstTimer := true, clockLocked := true } }), 3, 0, (by decide +kernel), (by decide +kernel)⟩,
   ⟨State.reset, 3, 0, (by decide +kernel), (by decide +kernel), (by decide +kernel)⟩,
   ⟨((feSt { link0 := { clockLocked := true } }).fset 3 (LNK_STAT_STATE 0) 6), 3, 0, (by decide +kernel), (by decide +kernel)⟩⟩

theorem witness_LinkUpGoesThroughItsStates :
    (∃ (s : State) (p : PortIx), s.plState p = 0 ∧ s.con (PL_CTRL_EN p) = true ∧ s.con (PL_STAT_GIVEN_UP p) = false) ∧
    (∃ (s : State) (p : PortIx), s.plState p = 1 ∧ s.con (PL_EQ_AUTO p) = true ∧ (s.port p).eqStep < 15) ∧
    (∃ (s : State) (p : PortIx), s.plState p = 1 ∧ s.con (PL_EQ_AUTO p) = true ∧ (s.port p).eqStep = 15) ∧
    (∃ (s : State) (p : PortIx), s.plState p = 2 ∧ 4 ≤ (s.port p).goodSlots ∧ (s.port p).testFrom = none) ∧
    (∃ (s : State) (p : PortIx), s.plState p = 2 ∧ 4 ≤ (s.port p).goodSlots ∧ (s.port p).testFrom = some 6) ∧
    (∃ (s : State) (p : PortIx) (id : W32) (sup : BitVec 3) (v : _), s.plState p = 3 ∧ (s.port p).ownReads.lookup 0x000 = some id.toNat ∧ ((s.port p).ownReads.lookup (0x020 + 16 * s.face p)).map (bits · 0 3) = some sup.toNat ∧ bestVersion (Nat.land sup.toNat (s.cget (PL_CTRL_VER_MASK p))) = some v ∧ (s.face p = 0 ∨ v = 2) ∧ (s.port p).negSel = some v ∧ 4 ≤ (s.port p).verRun) ∧
    (∃ (s : State) (p : PortIx) (id : W32) (sup : BitVec 3), s.plState p = 3 ∧ (s.port p).ownReads.lookup 0x000 = some id.toNat ∧ ((s.port p).ownReads.lookup (0x020 + 16 * s.face p)).map (bits · 0 3) = some sup.toNat ∧ bestVersion (Nat.land sup.toNat (s.cget (PL_CTRL_VER_MASK p))) = none) ∧
    (∃ (s : State) (p : PortIx) (a : Int), s.plState p = 4 ∧ (s.port p).phaseFirst = some a ∧ 16 ≤ (s.port p).rttN ∧ ((s.port p).rttSum - a * (s.port p).rttN).natAbs * 1000 ≤ 40 * 65536 * (s.port p).rttN ∧ s.twinStandby = false) ∧
    (∃ (s : State) (p : PortIx) (crc : W32), s.plState p = 5 ∧ s.twinStandby = false ∧ s.pushPassed p = true ∧ crc.toNat = s.goldCrc p) ∧
    (∃ (s : State) (p : PortIx) (crc : W32), s.plState p = 5 ∧ s.twinStandby = false ∧ s.pushPassed p = true ∧ crc.toNat ≠ s.goldCrc p ∧ (s.port p).pushes = 0) ∧
    (∃ (s : State) (p : PortIx), s.plState p = 3 ∧ 500 ≤ s.since (s.port p).stateTick ∧ (s.port p).failState ≠ 3 ∧ 1 < s.cget (PLR_CFG_RETRIES (p.val / 256))) ∧
    (∃ (s : State) (p : PortIx), s.plState p ≠ 0) :=
  ⟨⟨(State.reset.cset (PL_CTRL_EN 3) 1), 3, (by decide +kernel), (by decide +kernel), (by decide +kernel)⟩,
   ⟨(plSt 1 { eqStep := 14, eqErrs := [(2, 9)] }), 3, (by decide +kernel), (by decide +kernel), (by decide +kernel)⟩,
   ⟨(plSt 1 { eqStep := 15, eqErrs := [(2, 9), (7, 1)] }), 3, (by decide +kernel), (by decide +kernel), (by decide +kernel)⟩,
   ⟨(plSt 2 { goodSlots := 4 }), 3, (by decide +kernel), (by decide +kernel), (by decide +kernel)⟩,
   ⟨(plSt 2 { goodSlots := 4, testFrom := some 6 }), 3, (by decide +kernel), (by decide +kernel), (by decide +kernel)⟩,
   ⟨(plSt 3 { ownReads := [(0, 0x1234), (0x020, 7)], negSel := some 2, verRun := 4 }), 3, 0x1234, 7, 2, (by decide +kernel), (by decide +kernel), (by decide +kernel), (by decide +kernel), (by decide +kernel), (by decide +kernel), (by decide +kernel)⟩,
   ⟨(plSt 3 { ownReads := [(0, 0x1234), (0x020, 0)] }), 3, 0x1234, 0, (by decide +kernel), (by decide +kernel), (by decide +kernel), (by decide +kernel)⟩,
   ⟨(plSt 4 { phaseFirst := some 1000, rttSum := 16 * (1000 + 2621), rttN := 16 }), 3, 1000, (by decide +kernel), (by decide +kernel), (by decide +kernel), (by decide +kernel), (by decide +kernel)⟩,
   ⟨(plSt 5 { failRun := 2 }), 3, (BitVec.ofNat 32 ((plSt 5 { failRun := 2 }).goldCrc 3)), (by decide +kernel), (by decide +kernel), (by decide +kernel), (ofNat_toNat (State.goldCrc_lt _ _))⟩,
   ⟨(plSt 5 {}), 3, (BitVec.ofNat 32 ((plSt 5 {}).goldCrc 3 + 1)), (by decide +kernel), (by decide +kernel), (by decide +kernel), (ofNat_succ_ne (State.goldCrc_lt _ _)), (by decide +kernel)⟩,
   ⟨((plSt 3 { failRun := 0 }).modTm fun m => { m with tick := 500 }), 3, (by decide +kernel), (by decide +kernel), (by decide +kernel), (by decide +kernel)⟩,
   ⟨(plSt 1 {}), 3, (by decide +kernel)⟩⟩

theorem witness_SlotsAndEchoesAreMeasured :
    (∃ (s : State) (p : PortIx) (placed : Bool) (plus : Bool) (cs : List (BitVec 10)) (x : List (Option Sym)) (b : List Byte), 2 ≤ s.plState p ∧ s.plState p < 7 ∧ placed = true ∧ lineSyms plus cs = some k285 :: x ∧ bytesOf x = some b ∧ goodSet 3 b = true) ∧
    (∃ (s : State) (p : PortIx) (placed : Bool) (plus : Bool) (cs : List (BitVec 10)), 2 ≤ s.plState p ∧ s.plState p < 7 ∧ (placed = false ∨ (∀ b, bytesOf ((lineSyms plus cs).drop 1) = some b → goodSet 3 b = false)) ∧ s.plState p = 6 ∧ (s.port p).badSlots = 3) ∧
    (∃ (s : State) (p : PortIx) (placed : Bool) (plus : Bool) (cs : List (BitVec 10)), 2 ≤ s.plState p ∧ s.plState p < 7 ∧ (placed = false ∨ (∀ b, bytesOf ((lineSyms plus cs).drop 1) = some b → goodSet 3 b = false)) ∧ (s.port p).badSlots < 3) ∧
    (∃ (s : State) (p : PortIx) (plus : Bool) (mark : BitVec 10) (fis : BitVec 10) (phLo : BitVec 10) (phHi : BitVec 10) (e : EchoTail) (x : List (Option Sym)) (b : List Byte) (a : Int), lineSyms plus [mark, fis, phLo, phHi, e.status, e.crc] = some k283 :: x ∧ bytesOf x = some b ∧ goodSet 5 b = true ∧ (s.port p).arr = some (s.tm.tick, a) ∧ bodyNat b 0 1 = s.tm.now.fis % 256 ∧ 4 ≤ s.plState p ∧ s.plState p ≤ 6 ∧ bitAt (bodyNat b 3 1) 0 = true) ∧
    (∃ (s : State) (p : PortIx) (plus : Bool) (mark : BitVec 10) (fis : BitVec 10) (phLo : BitVec 10) (phHi : BitVec 10) (e : EchoTail) (x : List (Option Sym)) (b : List Byte) (a : Int), lineSyms plus [mark, fis, phLo, phHi, e.status, e.crc] = some k283 :: x ∧ bytesOf x = some b ∧ goodSet 5 b = true ∧ (s.port p).arr = some (s.tm.tick, a) ∧ bodyNat b 0 1 = s.tm.now.fis % 256 ∧ 4 ≤ s.plState p ∧ s.plState p ≤ 6 ∧ bitAt (bodyNat b 3 1) 0 = false) ∧
    (∃ (s : State) (p : PortIx), s.plState p = 6 ∧ s.con (TIM_PSTAT_FROZEN p) = false ∧ 64 ≤ (s.port p).rttN ∧ 0 ≤ (roundHalf 111 (roundHalf 110 (s.port p).rttSum (s.port p).rttN) 2 + toSigned 16 (s.cget (TIM_PASYM_ASYM p))) ∧ (roundHalf 111 (roundHalf 110 (s.port p).rttSum (s.port p).rttN) 2 + toSigned 16 (s.cget (TIM_PASYM_ASYM p))) ≤ 500 * 65536 ∧ (s.port p).avgValid = true ∧ 40 * 65536 < ((roundHalf 110 (s.port p).rttSum (s.port p).rttN) - (s.port p).rttAvg).natAbs * 1000) ∧
    (∃ (s : State) (p : PortIx), 256 ≤ (s.port p).farRun) ∧
    (∃ (s : State) (p : PortIx), 256 ≤ (s.port p).nearRun) :=
  ⟨⟨(plSt 6 { goodSlots := 4, badSlots := 2 }), 3, true, false, (startRun start0), (somes start0), start0, (by decide +kernel), (by decide +kernel), (by decide +kernel), (by decide +kernel), (by decide +kernel), (by decide +kernel)⟩,
   ⟨(plSt 6 { badSlots := 3 }), 3, false, false, (startRun (start0.set 2 0x77)), (by decide +kernel), (by decide +kernel), (by decide +kernel), (by decide +kernel), (by decide +kernel)⟩,
   ⟨(plSt 6 { badSlots := 2 }), 3, false, false, (startRun (start0.set 2 0x77)), (by decide +kernel), (by decide +kernel), (by decide +kernel), (by decide +kernel)⟩,
   ⟨(plSt 6 { rttN := 9, rttSum := 5, arr := some (0, 999) }), 3, false, (echoG (echo0 0 true) 0), (echoG (echo0 0 true) 1), (echoG (echo0 0 true) 2), (echoG (echo0 0 true) 3), (echoTail (echo0 0 true)), (somes (echo0 0 true)), (echo0 0 true), 999, (by decide +kernel), (by decide +kernel), (by decide +kernel), (by decide +kernel), (by decide +kernel), (by decide +kernel), (by decide +kernel), (by decide +kernel)⟩,
   ⟨(plSt 6 { rttN := 9, rttSum := 5, arr := some (0, 999) }), 3, false, (echoG (echo0 0 false) 0), (echoG (echo0 0 false) 1), (echoG (echo0 0 false) 2), (echoG (echo0 0 false) 3), (echoTail (echo0 0 false)), (somes (echo0 0 false)), (echo0 0 false), 999, (by decide +kernel), (by decide +kernel), (by decide +kernel), (by decide +kernel), (by decide +kernel), (by decide +kernel), (by decide +kernel), (by decide +kernel)⟩,
   ⟨(plSt 6 { rttN := 64, rttSum := 64 * 300 * 65536 + 1, avgValid := true, rttAvg := 299 * 65536 }), 3, (by decide +kernel), (by decide +kernel), (by decide +kernel), (by decide +kernel), (by decide +kernel), (by decide +kernel), (by decide +kernel)⟩,
   ⟨(plSt 6 { farRun := 256 }), 3, (by decide +kernel)⟩,
   ⟨((plSt 6 { nearRun := 256 }).cset (TIM_PSTAT_SUSPECT 3) 1), 3, (by decide +kernel)⟩⟩

theorem witness_PortControlAndProxyAccesses :
    (∃ (s : State) (p : PortIx) (m : MasterIx) (v : W32), s.frozen m = false ∧ s.permitted m .control (PL_CTRL_EN p).reg .write = true ∧ bitAt v.toNat 1 = true ∧ bitAt v.toNat 6 = false ∧ bitAt v.toNat 0 = s.con (PL_CTRL_EN p)) ∧
    (∃ (s : State) (p : PortIx) (m : MasterIx) (v : W32), s.frozen m = false ∧ s.permitted m .control (PL_CTRL_EN p).reg .write = true ∧ bitAt v.toNat 6 = true ∧ bitAt v.toNat 1 = false ∧ bitAt v.toNat 0 = s.con (PL_CTRL_EN p) ∧ s.plState p = 3) ∧
    (∃ (s : State) (p : PortIx) (m : MasterIx) (v : W32), s.frozen m = false ∧ s.permitted m .control (PL_CTRL_EN p).reg .write = true ∧ bitAt v.toNat 6 = true ∧ bitAt v.toNat 1 = false ∧ bitAt v.toNat 0 = s.con (PL_CTRL_EN p) ∧ s.plState p = 6 ∧ s.con (PL_STAT_OWNER p) = true) ∧
    (∃ (s : State) (p : PortIx), (s.port p).testAsk = true) ∧
    (∃ (s : State) (p : PortIx) (m : MasterIx) (v : W32), s.frozen m = false ∧ s.permitted m .control (PL_INJ_GO p).reg .write = true ∧ bitAt v.toNat 0 = true ∧ bitAt v.toNat 7 = true ∧ bitAt v.toNat 1 = true) ∧
    (∃ (s : State) (p : PortIx), s.plState p = 7 ∧ max 1 (s.cget (PL_PRBS_CTRL_DUR p)) ≤ s.since (s.port p).stateTick) ∧
    (∃ (s : State) (p : PortIx), s.fon p (PRBS_STAT_RUNNING (s.face p)) = true ∧ ((s.fe p).link (s.face p)).prbsLeft ≤ s.since ((s.fe p).link (s.face p)).prbsFrom) ∧
    (∃ (s : State) (p : PortIx) (crc : W32), s.plState p = 6 ∧ max 1 (s.cget (PLR_CFG_GCHK (p.val / 256))) * 2500 ≤ s.since (s.port p).goldTick ∧ crc.toNat = s.goldCrc p) ∧
    (∃ (s : State) (p : PortIx) (crc : W32), s.plState p = 6 ∧ max 1 (s.cget (PLR_CFG_GCHK (p.val / 256))) * 2500 ≤ s.since (s.port p).goldTick ∧ crc.toNat ≠ s.goldCrc p ∧ (s.port p).goldMiss = 1 ∧ s.twinStandby = false) ∧
    (∃ (s : State) (m : MasterIx) (a : W32), 0x1000000 ≤ a.toNat ∧ a.toNat < 0x2000000 ∧ s.frozen m = false ∧ s.permitted m .control a.toNat .read = true ∧ s.plState ((a.toNat - 0x1000000) / 0x4000 % 1024) = 6 ∧ (s.port ((a.toNat - 0x1000000) / 0x4000 % 1024)).reqWait = [] ∧ (s.port ((a.toNat - 0x1000000) / 0x4000 % 1024)).sentThisFrame < 5 ∧ (s.port ((a.toNat - 0x1000000) / 0x4000 % 1024)).outstanding.length < 16) ∧
    (∃ (s : State) (m : MasterIx) (a : W32), 0x1000000 ≤ a.toNat ∧ a.toNat < 0x2000000 ∧ s.frozen m = false ∧ s.permitted m .control a.toNat .read = true ∧ s.plState ((a.toNat - 0x1000000) / 0x4000 % 1024) ≠ 6) ∧
    (∃ (s : State) (p : PortIx) (x : CodeRun) (r : RespPkt) (o : OutReq) (d : W32) (m : Nat), respRead x = (0, .ok, r) ∧ (s.port p).outstanding = [o] ∧ o.tid = r.tid.toNat ∧ (s.port p).reqWait = [] ∧ o.master = some m ∧ o.data = some d ∧ r.typ ≠ 0 ∧ r.typ ≠ 0xA) ∧
    (∃ (s : State) (p : PortIx) (x : CodeRun) (r : RespPkt) (o : OutReq) (d : W32) (m : Nat), respRead x = (0, .ok, r) ∧ (s.port p).outstanding = [o] ∧ o.tid = r.tid.toNat ∧ (s.port p).reqWait = [] ∧ o.master = some m ∧ o.data = some d ∧ r.typ = 0xA) ∧
    (∃ (s : State) (p : PortIx) (x : CodeRun) (r : RespPkt) (o : OutReq), respRead x = (0, .ok, r) ∧ (s.port p).outstanding = [o] ∧ o.tid = r.tid.toNat ∧ (s.port p).reqWait = [] ∧ o.master = none ∧ o.data = none ∧ r.typ = 8 ∧ s.plState p ≠ 3) ∧
    (∃ (s : State) (p : PortIx) (x : CodeRun) (r : RespPkt), respRead x = (0, .ok, r) ∧ r.typ ≠ 0 ∧ (s.port p).outstanding = []) ∧
    (∃ (x : CodeRun), (respRead x).2.1 = .uncorrectable) ∧
    (∃ (s : State) (p : PortIx) (tid : Byte) (o : OutReq) (m : Nat), (s.port p).outstanding = [o] ∧ o.tid = tid.toNat ∧ o.master = some m ∧ 8 ≤ s.since o.sentTick ∧ (s.port p).reqWait = []) :=
  ⟨⟨((plSt 3 { failRun := 2 }).cset (PL_CTRL_EN 3) 1), 3, 0, 3, (by decide +kernel), (by decide +kernel), (by decide +kernel), (by decide +kernel), (by decide +kernel)⟩,
   ⟨((plSt 3 {}).cset (PL_CTRL_EN 3) 1), 3, 0, 0x41, (by decide +kernel), (by decide +kernel), (by decide +kernel), (by decide +kernel), (by decide +kernel), (by decide +kernel)⟩,
   ⟨(((plSt 6 {}).cset (PL_CTRL_EN 3) 1).cset (PL_STAT_OWNER 3) 1), 3, 0, 0x41, (by decide +kernel), (by decide +kernel), (by decide +kernel), (by decide +kernel), (by decide +kernel), (by decide +kernel), (by decide +kernel)⟩,
   ⟨(plSt 3 { testAsk := true, testFrom := some 3 }), 3, (by decide +kernel)⟩,
   ⟨State.reset, 3, 0, 0xFF, (by decide +kernel), (by decide +kernel), (by decide +kernel), (by decide +kernel), (by decide +kernel)⟩,
   ⟨(((plSt 7 {}).cset (PL_PRBS_CTRL_DUR 3) 2).modTm fun m => { m with tick := 3 }), 3, (by decide +kernel), (by decide +kernel)⟩,
   ⟨(((plSt 7 {}).fset 3 (PRBS_STAT_RUNNING 0) 1).modTm fun m => { m with tick := 3 }), 3, (by decide +kernel), (by decide +kernel)⟩,
   ⟨((plSt 6 { goldMiss := 1 }).modTm fun m => { m with tick := 2550000 }), 3, (BitVec.ofNat 32 (((plSt 6 { goldMiss := 1 }).modTm fun m => { m with tick := 2550000 }).goldCrc 3)), (by decide +kernel), (by decide +kernel), (ofNat_toNat (State.goldCrc_lt _ _))⟩,
   ⟨((plSt 6 { goldMiss := 1 }).modTm fun m => { m with tick := 2550000 }), 3, (BitVec.ofNat 32 (((plSt 6 { goldMiss := 1 }).modTm fun m => { m with tick := 2550000 }).goldCrc 3 + 1)), (by decide +kernel), (by decide +kernel), (ofNat_succ_ne (State.goldCrc_lt _ _)), (by decide +kernel), (by decide +kernel)⟩,
   ⟨(plSt 6 { sentThisFrame := 4, nextTid := 9 }), 0, 0x100C010, (by decide +kernel), (by decide +kernel), (by decide +kernel), (by decide +kernel), (by decide +kernel), (by decide +kernel), (by decide +kernel), (by decide +kernel)⟩,
   ⟨(plSt 5 {}), 0, 0x1FFFFFC, (by decide +kernel), (by decide +kernel), (by decide +kernel), (by decide +kernel), (by decide +kernel)⟩,
   ⟨(plSt 6 { outstanding := [{ tid := 9, addr := 0x010, data := some 5, sentTick := 0, master := some 4 }] }), 3, (respRun ⟨9, 0, 9, 0x010, 0⟩), (⟨9, 0, 9, 0x010, 0⟩), ({ tid := 9, addr := 0x010, data := some 5, sentTick := 0, master := some 4 }), 5, 4, (by decide +kernel), (by decide +kernel), (by decide +kernel), (by decide +kernel), (by decide +kernel), (by decide +kernel), (by decide +kernel), (by decide +kernel)⟩,
   ⟨(plSt 6 { outstanding := [{ tid := 9, addr := 0x010, data := some 5, sentTick := 0, master := some 4 }] }), 3, (respRun ⟨10, 4, 9, 0x010, 0⟩), (⟨10, 4, 9, 0x010, 0⟩), ({ tid := 9, addr := 0x010, data := some 5, sentTick := 0, master := some 4 }), 5, 4, (by decide +kernel), (by decide +kernel), (by decide +kernel), (by decide +kernel), (by decide +kernel), (by decide +kernel), (by decide +kernel)⟩,
   ⟨(plSt 6 { outstanding := [{ tid := 9, addr := 0x010, data := none, sentTick := 0, master := none }] }), 3, (respRun ⟨8, 0, 9, 0x010, 5⟩), (⟨8, 0, 9, 0x010, 5⟩), ({ tid := 9, addr := 0x010, data := none, sentTick := 0, master := none }), (by decide +kernel), (by decide +kernel), (by decide +kernel), (by decide +kernel), (by decide +kernel), (by decide +kernel), (by decide +kernel), (by decide +kernel)⟩,
   ⟨State.reset, 3, (respRun ⟨10, 4, 9, 0x010, 0⟩), (⟨10, 4, 9, 0x010, 0⟩), (by decide +kernel), (by decide +kernel), (by decide +kernel)⟩,
   ⟨(⟨false, symLine false (k286 :: dataSyms [1, 2, 3, 4, 5, 6, 7, 8, 9, 10, 11, 12, 13, 14])⟩), (by decide +kernel)⟩,
   ⟨((plSt 6 { outstanding := [{ tid := 9, addr := 0x010, data := some 5, sentTick := 0, master := some 4 }] }).modTm fun m => { m with tick := 8 }), 3, 9, ({ tid := 9, addr := 0x010, data := some 5, sentTick := 0, master := some 4 }), 4, (by decide +kernel), (by decide +kernel), (by decide +kernel), (by decide +kernel), (by decide +kernel)⟩⟩

theorem witness_CodewordsAreStoredOrLost :
    (∃ (s : State) (p : PortIx) (i : Fin 29) (m : BitVec 10) (plus : Bool) (t : Inst) (cs : List (BitVec 10)), 2 ≤ s.plState p ∧ s.plState p ≤ 6 ∧ s.pastLimit (s.slotTick i t) t = false ∧ (recRead m plus cs).2.1 ≠ .uncorrectable) ∧
    (∃ (s : State) (p : PortIx) (i : Fin 29) (m : BitVec 10) (plus : Bool) (t : Inst) (cs : List (BitVec 10)), 2 ≤ s.plState p ∧ s.plState p ≤ 6 ∧ s.pastLimit (s.slotTick i t) t = false ∧ (recRead m plus cs).2.1 = .corrected) ∧
    (∃ (s : State) (p : PortIx) (i : Fin 29) (m : BitVec 10) (plus : Bool) (t : Inst) (cs : List (BitVec 10)), 2 ≤ s.plState p ∧ s.plState p ≤ 6 ∧ s.pastLimit (s.slotTick i t) t = false ∧ (recRead m plus cs).1 = 0 ∧ (recRead m plus cs).2.1 = .ok ∧ s.checksPayload p = false ∧ ((recRead m plus cs).2.2.all (fun w => decide (recType w ≠ 0x3C ∧ recType w ≠ 0x3D)) = true)) ∧
    (∃ (s : State) (p : PortIx) (i : Fin 29) (m : BitVec 10) (plus : Bool) (t : Inst) (cs : List (BitVec 10)), 2 ≤ s.plState p ∧ s.plState p ≤ 6 ∧ s.pastLimit (s.slotTick i t) t = false ∧ (recRead m plus cs).2.1 = .uncorrectable ∧ s.checksPayload p = false) ∧
    (∃ (s : State) (p : PortIx) (i : Fin 29) (m : BitVec 10) (plus : Bool) (t : Inst) (cs : List (BitVec 10)), 2 ≤ s.plState p ∧ s.plState p ≤ 6 ∧ s.pastLimit (s.slotTick i t) t = true ∧ (recRead m plus cs).1 = 0 ∧ (recRead m plus cs).2.1 = .ok ∧ ((recRead m plus cs).2.2.any (fun w => decide (recType w ≠ 2)) = true) ∧ s.checksPayload p = false) :=
  ⟨⟨(tk 9 (plSt 6 {})), 3, 28, (BitVec.ofNat 10 (symGroup false k285)), false, 20971520, (recRun [0x40, 2, 0x40, 2, 0x7C]), (by decide +kernel), (by decide +kernel), (by decide +kernel), (by decide +kernel)⟩,
   ⟨(tk 9 (plSt 2 {})), 3, 28, (BitVec.ofNat 10 (symGroup false k285)), false, 20971520, (recRunB ((recCw [0x40, 2, 0x40]).set 77 5)), (by decide +kernel), (by decide +kernel), (by decide +kernel), (by decide +kernel)⟩,
   ⟨(tk 9 (plSt 5 {})), 3, 28, (BitVec.ofNat 10 (symGroup false k285)), false, 20971520, (recRun [0x40, 2, 0x40, 2]), (by decide +kernel), (by decide +kernel), (by decide +kernel), (by decide +kernel), (by decide +kernel), (by decide +kernel), (by decide +kernel)⟩,
   ⟨((tk 9 (plSt 6 {})).cset (PL_STAT_OWNER 3) 1), 3, 28, (BitVec.ofNat 10 (symGroup false k285)), false, 20971520, (recRunB ((recCw [0x40]).zipIdx.map fun e => if e.2 < 9 then 0x5A else e.1)), (by decide +kernel), (by decide +kernel), (by decide +kernel), (by decide +kernel), (by decide +kernel)⟩,
   ⟨(tk 9 (plSt 5 {})), 3, 28, (BitVec.ofNat 10 (symGroup false k285)), false, 20971521, (recRun [0x40, 2, 0x40, 2]), (by decide +kernel), (by decide +kernel), (by decide +kernel), (by decide +kernel), (by decide +kernel), (by decide +kernel), (by decide +kernel)⟩⟩

theorem witness_LateLimitSettlesEveryPort :
    (∃ (s : State) (p : PortIx), 2 ≤ s.tm.tick ∧ s.ing.limit ≠ some (s.tm.tick - 2) ∧ s.con (PL_CTRL_EN p) = true ∧ s.regionOff p = false ∧ (s.rx p (s.tm.tick - 2)).seen = [] ∧ (s.rx p (s.tm.tick - 2)).lost = [] ∧ s.con (PI_CTRL_STORE p) = true) ∧
    (∃ (s : State) (p : PortIx), 2 ≤ s.tm.tick ∧ s.ing.limit ≠ some (s.tm.tick - 2) ∧ s.con (PL_CTRL_EN p) = true ∧ s.regionOff p = false ∧ (s.rx p (s.tm.tick - 2)).seen = [] ∧ (s.rx p (s.tm.tick - 2)).lost = [] ∧ s.con (PI_CTRL_STORE p) = false) ∧
    (∃ (s : State) (p : PortIx), 2 ≤ s.tm.tick ∧ s.ing.limit ≠ some (s.tm.tick - 2) ∧ s.con (PL_CTRL_EN p) = true ∧ s.regionOff p = false ∧ (s.rx p (s.tm.tick - 2)).seen = [] ∧ (s.rx p (s.tm.tick - 2)).lost ≠ [] ∧ (s.rx p (s.tm.tick - 2)).owner = false) ∧
    (∃ (s : State) (p : PortIx), 2 ≤ s.tm.tick ∧ s.ing.limit ≠ some (s.tm.tick - 2) ∧ s.con (PL_CTRL_EN p) = true ∧ s.regionOff p = false ∧ (s.rx p (s.tm.tick - 2)).seen ≠ [] ∧ (s.rx p (s.tm.tick - 2)).seen.length < 29 ∧ (s.rx p (s.tm.tick - 2)).owner = false) ∧
    (∃ (s : State) (p : PortIx), s.con (PL_CTRL_EN p) = false) :=
  ⟨⟨((tk 9 State.reset).cset (PL_CTRL_EN 3) 1), 3, (by decide +kernel), (by decide +kernel), (by decide +kernel), (by decide +kernel), (by decide +kernel), (by decide +kernel), (by decide +kernel)⟩,
   ⟨(((tk 9 State.reset).cset (PL_CTRL_EN 3) 1).cset (PI_CTRL_STORE 3) 0), 3, (by decide +kernel), (by decide +kernel), (by decide +kernel), (by decide +kernel), (by decide +kernel), (by decide +kernel), (by decide +kernel)⟩,
   ⟨(((tk 9 (plSt 6 { rx1 := { tick := 7, lost := [0, 5] } })).cset (PL_CTRL_EN 3) 1)), 3, (by decide +kernel), (by decide +kernel), (by decide +kernel), (by decide +kernel), (by decide +kernel), (by decide +kernel), (by decide +kernel)⟩,
   ⟨(((tk 9 (plSt 6 { rx1 := { tick := 7, seen := [0, 5] } })).cset (PL_CTRL_EN 3) 1)), 3, (by decide +kernel), (by decide +kernel), (by decide +kernel), (by decide +kernel), (by decide +kernel), (by decide +kernel), (by decide +kernel)⟩,
   ⟨((tk 9 State.reset).cset (PL_CTRL_EN 3) 0), 3, (by decide +kernel)⟩⟩

theorem witness_SumsCountWhatThePortsSent :
    (∃ (s : State) (p : PortIx) (pos : Fin 464) (w : _), 2 ≤ s.tm.tick ∧ s.ing.released ≠ some (s.tm.tick - 2) ∧ (pos.val, w) ∈ (s.rx p (s.tm.tick - 2)).recs ∧ s.rx p (s.tm.tick - 2) = { s.rx p (s.tm.tick - 2) with abandoned := false, eccLost := [] }) ∧
    (∃ (s : State), s.storesFrame (s.frameAt (s.tm.tick - 2)) = true) :=
  ⟨⟨(tk 9 (plSt 6 { rx1 := { tick := 7, seen := [28], recs := [(2, 64), (463, 64)] } })), 3, 463, ((64 : W64)), (by decide +kernel), (by decide +kernel), (by decide +kernel), (by decide +kernel)⟩,
   ⟨((tk 9 (plSt 6 { rx1 := { tick := 7, seen := [28], recs := [(2, 64), (463, 64)] } })).cset (PL_CTRL_EN 3) 1), (by decide +kernel)⟩⟩

theorem witness_NoUnverifiedCodedBlockIsCommitted :
    (∃ (s : State) (p : PortIx) (n : Nat), 2 ≤ s.tm.tick ∧ s.blockReady p (s.tm.tick - 2) = true ∧ (s.con (RG_CTRL_HZ_EN (p.val / 256)) = false ∨ 8 * ((s.rx p (s.tm.tick - 2)).raw).length ≤ n) ∧ s.con (RG_CTRL_HZ_EN (p.val / 256)) = true) ∧
    (∃ (s : State) (p : PortIx) (n : Nat), 2 ≤ s.tm.tick ∧ s.blockReady p (s.tm.tick - 2) = true ∧ s.con (RG_CTRL_HZ_EN (p.val / 256)) = true ∧ n < 8 * ((s.rx p (s.tm.tick - 2)).raw).length) ∧
    (∃ (s : State) (p : PortIx) (b : BlockSt) (pl : List Byte), (s.port p).block = some b ∧ pl.length = b.codedLen ∧ hzRecords b.raw.length pl = .ok b.raw) ∧
    (∃ (s : State) (p : PortIx) (b : BlockSt) (pl : List Byte), (s.port p).block = some b ∧ pl.length = b.codedLen ∧ hzRecords b.raw.length pl ≠ .ok b.raw) ∧
    (∃ (s : State) (p : PortIx) (b : BlockSt) (pl : List Byte), (s.port p).block = some b ∧ pl.length = b.codedLen ∧ hzRecords b.raw.length pl = .error .illegal) ∧
    (∃ (s : State) (p : PortIx) (b : BlockSt) (pl : List Byte), (s.port p).block = some b ∧ pl.length = b.codedLen ∧ hzRecords b.raw.length pl = .error .distance) ∧
    (∃ (s : State) (p : PortIx) (b : BlockSt) (pl : List Byte), (s.port p).block = some b ∧ pl.length = b.codedLen ∧ hzRecords b.raw.length pl = .error .overrun) ∧
    (∃ (s : State) (p : PortIx) (b : BlockSt) (pl : List Byte) (r : _), (s.port p).block = some b ∧ pl.length = b.codedLen ∧ hzRecords b.raw.length pl = .ok r ∧ r ≠ b.raw) :=
  ⟨⟨({ ((tk 9 (plSt 6 { rx1 := { tick := 7, seen := [28], owner := true, recs := [(2, 64), (463, 64)] } })).cset (PL_CTRL_EN 3) 1) with ing := { released := some 7, limit := some 7 } }), 3, 16, (by decide +kernel), (by decide +kernel), (by decide +kernel), (by decide +kernel)⟩,
   ⟨({ ((tk 9 (plSt 6 { rx1 := { tick := 7, seen := [28], owner := true, recs := [(2, 64), (463, 64)] } })).cset (PL_CTRL_EN 3) 1) with ing := { released := some 7, limit := some 7 } }), 3, 15, (by decide +kernel), (by decide +kernel), (by decide +kernel), (by decide +kernel)⟩,
   ⟨(plSt 6 { block := some { tick := 7, frame := 7, raw := undeltaRecs 0 0 [64#64], codedLen := 10, flags := 0 } }), 3, ({ tick := 7, frame := 7, raw := undeltaRecs 0 0 [64#64], codedLen := 10, flags := 0 }), ([7, 0x40, 0, 0, 0, 0, 0, 0, 0, 0xE0]), (by decide +kernel), (by decide +kernel), (by decide +kernel)⟩,
   ⟨(plSt 6 { block := some { tick := 7, frame := 7, raw := [64#64], codedLen := 9, flags := 0 } }), 3, ({ tick := 7, frame := 7, raw := [64#64], codedLen := 9, flags := 0 }), ([7, 0x40, 0, 0, 0, 0, 0, 0, 0]), (by decide +kernel), (by decide +kernel), (by decide +kernel)⟩,
   ⟨(plSt 6 { block := some { tick := 7, frame := 7, raw := [64#64], codedLen := 9, flags := 0 } }), 3, ({ tick := 7, frame := 7, raw := [64#64], codedLen := 9, flags := 0 }), ([7, 0x40, 0, 0, 0, 0, 0, 0, 0]), (by decide +kernel), (by decide +kernel), (by decide +kernel)⟩,
   ⟨(plSt 6 { block := some { tick := 7, frame := 7, raw := [64#64], codedLen := 2, flags := 0 } }), 3, ({ tick := 7, frame := 7, raw := [64#64], codedLen := 2, flags := 0 }), ([0x80, 0]), (by decide +kernel), (by decide +kernel), (by decide +kernel)⟩,
   ⟨(plSt 6 { block := some { tick := 7, frame := 7, raw := [64#64], codedLen := 1, flags := 0 } }), 3, ({ tick := 7, frame := 7, raw := [64#64], codedLen := 1, flags := 0 }), ([0x7F]), (by decide +kernel), (by decide +kernel), (by decide +kernel)⟩,
   ⟨(plSt 6 { block := some { tick := 7, frame := 7, raw := [66#64], codedLen := 10, flags := 0 } }), 3, ({ tick := 7, frame := 7, raw := [66#64], codedLen := 10, flags := 0 }), ([7, 0x40, 0, 0, 0, 0, 0, 0, 0, 0xE0]), (undeltaRecs 0 0 [64#64]), (by decide +kernel), (by decide +kernel), (by decide +kernel), (by decide +kernel)⟩⟩

theorem witness_DeltaTransformIsUndone :
    (∃ (pc : Nat) (pt : Nat) (w : W64), pc < 512 ∧ pt < 4096 ∧ recType w = 0) ∧
    (∃ (pc : Nat) (pt : Nat) (w : W64), pc < 512 ∧ pt < 4096 ∧ recType w ≠ 0) ∧
    (∃ (n : Nat) (pl : List Byte) (out : List Byte), hzDecode (8 * n) pl.length pl [] = .ok out) ∧
    (∃ (limit : Nat) (fuel : Nat) (pl : List Byte) (out : List Byte) (r : List Byte), hzDecode limit fuel pl out = .ok r) ∧
    (∃ (b : Byte), 0xE0 < b.toNat) ∧
    (∃ (cs : List (List Byte)) (n : Nat), (∀ c ∈ cs, 1 ≤ c.length ∧ c.length ≤ 128) ∧ cs.flatten.length = n) :=
  ⟨⟨511, 4095, 0x40, (by decide +kernel), (by decide +kernel), (by decide +kernel)⟩,
   ⟨511, 4095, 1, (by decide +kernel), (by decide +kernel), (by decide +kernel)⟩,
   ⟨1, ([7, 0x40, 0, 0, 0, 0, 0, 0, 0, 0xE0]), ([0, 0, 0, 0, 0, 0, 0, 0x40]), (by decide +kernel)⟩,
   ⟨1, 9, ([0, 0x40, 0xE0]), ([]), ([0x40]), (by decide +kernel)⟩,
   ⟨0xE1, (by decide +kernel)⟩,
   ⟨([[1, 2], List.replicate 128 5]), 130, (by decide +kernel), (by decide +kernel)⟩⟩

theorem witness_UnitsAreHandedWithinTheBudget :
    (∃ (s : State) (r : RgnIx) (u : Unit_), (s.rgn r).fair = [u] ∧ (tget (s.rgn r).coderBytes (16 * u.tick + u.coder) 0) + u.size ≤ 29696) ∧
    (∃ (s : State) (r : RgnIx) (u : Unit_), (s.rgn r).fair = [u] ∧ 29696 < (tget (s.rgn r).coderBytes (16 * u.tick + u.coder) 0) + u.size) ∧
    (∃ (s : State) (r : RgnIx) (bad : List PortIx) (u : Unit_), (s.rgn r).spill = [u] ∧ u.tick = s.tm.tick - 3 ∧ (bad.map Fin.val).contains u.port = false ∧ tget (s.rgn r).handed u.tick 0 + u.size ≤ 475136) ∧
    (∃ (s : State) (r : RgnIx) (bad : List PortIx) (u : Unit_), (s.rgn r).spill = [u] ∧ u.tick = s.tm.tick - 3 ∧ (bad.map Fin.val).contains u.port = true ∧ tget (s.rgn r).handed u.tick 0 + u.size ≤ 475136) ∧
    (∃ (s : State) (r : RgnIx) (u : Unit_), (s.rgn r).spill = [u] ∧ u.tick = s.tm.tick - 3 ∧ 475136 < tget (s.rgn r).handed u.tick 0 + u.size) :=
  ⟨⟨(rgSt { fair := [unit0 16], coderBytes := [(144, 29680)] }), 1, (unit0 16), (by decide +kernel), (by decide +kernel)⟩,
   ⟨(rgSt { fair := [unit0 16], coderBytes := [(144, 29681)] }), 1, (unit0 16), (by decide +kernel), (by decide +kernel)⟩,
   ⟨(tk 12 (rgSt { spill := [unit0 16], handed := [(9, 475120)] })), 1, (([5] : List PortIx)), (unit0 16), (by decide +kernel), (by decide +kernel), (by decide +kernel), (by decide +kernel)⟩,
   ⟨(tk 12 (rgSt { spill := [unit0 16], handed := [(9, 475120)] })), 1, ([3, 256]), (unit0 16), (by decide +kernel), (by decide +kernel), (by decide +kernel), (by decide +kernel)⟩,
   ⟨(tk 12 (rgSt { spill := [unit0 16], handed := [(9, 475121)] })), 1, (unit0 16), (by decide +kernel), (by decide +kernel), (by decide +kernel)⟩⟩

theorem witness_SlicesAreClaimedCountedAndClosed :
    (∃ (s : State), s.con FRN_STAT_READY = true ∧ 2 ≤ s.tm.tick ∧ (s.frameAt (s.tm.tick - 2)) % 256 = 0 ∧ s.openSlice (sliceOf (s.frameAt (s.tm.tick - 2))) = false ∧ (s.ixe (sliceOf (s.frameAt (s.tm.tick - 2)))).live = false) ∧
    (∃ (s : State), s.con FRN_STAT_READY = true ∧ 3 ≤ s.tm.tick ∧ (∀ j, s.firn.committed = some j → j < s.tm.tick - 3) ∧ s.openSlice (sliceOf (s.frameAt (s.tm.tick - 3))) = true ∧ s.tm.tick - 3 < s.firn.backTick ∧ (s.ixe (sliceOf (s.frameAt (s.tm.tick - 3)))).frames < 256) ∧
    (∃ (s : State), s.con FRN_STAT_READY = true ∧ 3 ≤ s.tm.tick ∧ (∀ j, s.firn.committed = some j → j < s.tm.tick - 3) ∧ s.openSlice (sliceOf (s.frameAt (s.tm.tick - 3))) = true ∧ s.firn.backTick ≤ s.tm.tick - 3 ∧ (s.ixe (sliceOf (s.frameAt (s.tm.tick - 3)))).frames < 255) ∧
    (∃ (s : State), s.con FRN_STAT_READY = true ∧ 3 ≤ s.tm.tick ∧ (∀ j, s.firn.committed = some j → j < s.tm.tick - 3) ∧ s.openSlice (sliceOf (s.frameAt (s.tm.tick - 3))) = true ∧ s.firn.backTick ≤ s.tm.tick - 3 ∧ (s.ixe (sliceOf (s.frameAt (s.tm.tick - 3)))).frames = 255) ∧
    (∃ (s : State), s.con FRN_STAT_READY = false ∧ s.tm.now.ns % 4000 < 3994) ∧
    (∃ (s : State) (m : MasterIx) (k : _), s.frozen m = false ∧ s.permitted m .control FRN_IX_SEL_IDX.reg .write = true ∧ k < 16) :=
  ⟨⟨((frmSt 258 { index := [(0, { slice := 0, state := 1, frames := 255 }), (1, { slice := 131073, state := 0 })], pins := [(2, { active := true, first := 0, last := 1 })] }).cset FRN_STAT_READY 1), (by decide +kernel), (by decide +kernel), (by decide +kernel), (by decide +kernel), (by decide +kernel)⟩,
   ⟨((frmSt 257 { backTick := 7, index := [(0, { slice := 0, state := 1, frames := 254 })] }).cset FRN_STAT_READY 1), (by decide +kernel), (by decide +kernel), (of_optAll (by decide +kernel)), (by decide +kernel), (by decide +kernel), (by decide +kernel)⟩,
   ⟨((frmSt 257 { index := [(0, { slice := 0, state := 1, frames := 254 })] }).cset FRN_STAT_READY 1), (by decide +kernel), (by decide +kernel), (of_optAll (by decide +kernel)), (by decide +kernel), (by decide +kernel), (by decide +kernel)⟩,
   ⟨((frmSt 258 { index := [(0, { slice := 0, state := 1, frames := 255, r1 := { count := 1 } })] }).cset FRN_STAT_READY 1), (by decide +kernel), (by decide +kernel), (of_optAll (by decide +kernel)), (by decide +kernel), (by decide +kernel), (by decide +kernel)⟩,
   ⟨(frmSt 300 {}), (by decide +kernel), (by decide +kernel)⟩,
   ⟨State.reset, 0, 0, (by decide +kernel), (by decide +kernel), (by decide +kernel)⟩⟩

theorem witness_ExtentsFollowTheAllocatorsTable :
    (∃ (s : State) (r : RgnIx), s.con FRN_STAT_READY = true ∧ (s.rgn r).readyExts.length < 2 ∧ (s.ext r (s.cget (FRR_WR_PTR r))).state = 0 ∧ (s.cget (FRR_WR_PTR r)) ∉ (s.rgn r).readyExts) ∧
    (∃ (s : State) (r : RgnIx), s.con FRN_STAT_READY = true ∧ (s.rgn r).readyExts.length < 2 ∧ ((s.ext r (s.cget (FRR_WR_PTR r))).state = 3 ∨ (s.ext r (s.cget (FRR_WR_PTR r))).state = 1)) ∧
    (∃ (s : State) (r : RgnIx), s.con FRN_STAT_READY = true ∧ (s.rgn r).readyExts.length < 2 ∧ (s.ext r (s.cget (FRR_WR_PTR r))).state = 2 ∧ (tget s.firn.index (s.ext r (s.cget (FRR_WR_PTR r))).slice {}).state ≠ 1 ∧ 0 < (tget s.firn.index (s.ext r (s.cget (FRR_WR_PTR r))).slice {}).pins ∧ s.pinnedExtents r ≤ s.pinQuota r) ∧
    (∃ (s : State) (r : RgnIx), s.con FRN_STAT_READY = true ∧ (s.rgn r).readyExts.length < 2 ∧ (s.ext r (s.cget (FRR_WR_PTR r))).state = 2 ∧ (tget s.firn.index (s.ext r (s.cget (FRR_WR_PTR r))).slice {}).state = 2 ∧ (tget s.firn.index (s.ext r (s.cget (FRR_WR_PTR r))).slice {}).pins = 0 ∧ (tget s.firn.index (s.ext r (s.cget (FRR_WR_PTR r))).slice {}).slice % 131072 = (s.ext r (s.cget (FRR_WR_PTR r))).slice ∧ 0 < (s.ext r (s.cget (FRR_WR_PTR r))).gen ∧ (s.ext r (s.cget (FRR_WR_PTR r))).damaged = false ∧ (s.ext r (s.cget (FRR_WR_PTR r))).retirePend = false) ∧
    (∃ (s : State) (r : RgnIx) (c : Chain), (s.rgn r).chains = [c] ∧ 64 ≤ c.tail.length ∧ c.ext < 131072 - s.scratch r) ∧
    (∃ (s : State) (r : RgnIx) (w : WLine) (rest : List WLine), (s.rgn r).writeBuf = w :: rest ∧ w.retried = false) ∧
    (∃ (s : State) (r : RgnIx) (w : WLine) (rest : List WLine), (s.rgn r).writeBuf = w :: rest ∧ w.retried = true ∧ (s.rgn r).chains = [] ∧ w.ext < 131072 - s.scratch r ∧ w.units = [] ∧ rest = []) ∧
    (∃ (s : State) (m : MasterIx) (r : RgnIx) (x : XtWrite), s.frozen m = false ∧ s.permitted m .control (FRR_XT_SEL_EXT r).reg .write = true ∧ (x.val.toNat % 2 ^ 17) < 131072 - s.scratch r ∧ bits x.val.toNat 17 2 = 0 ∧ x.corrected = true) ∧
    (∃ (s : State) (m : MasterIx) (r : RgnIx) (x : XtWrite) (n : _), s.frozen m = false ∧ s.permitted m .control (FRR_XT_SEL_EXT r).reg .write = true ∧ (x.val.toNat % 2 ^ 17) < 131072 - s.scratch r ∧ bits x.val.toNat 17 2 = 0 ∧ n < 3) ∧
    (∃ (s : State) (m : MasterIx) (r : RgnIx) (x : XtWrite), s.frozen m = false ∧ s.permitted m .control (FRR_XT_SEL_EXT r).reg .write = true ∧ (x.val.toNat % 2 ^ 17) < 131072 - s.scratch r ∧ bits x.val.toNat 17 2 = 1 ∧ (s.ext r (x.val.toNat % 2 ^ 17)).state = 0) ∧
    (∃ (s : State) (m : MasterIx) (r : RgnIx) (x : XtWrite), s.frozen m = false ∧ s.permitted m .control (FRR_XT_SEL_EXT r).reg .write = true ∧ (x.val.toNat % 2 ^ 17) < 131072 - s.scratch r ∧ bits x.val.toNat 17 2 = 1 ∧ (s.ext r (x.val.toNat % 2 ^ 17)).state = 2) ∧
    (∃ (s : State) (m : MasterIx) (r : RgnIx) (x : XtWrite), s.frozen m = false ∧ s.permitted m .control (FRR_XT_SEL_EXT r).reg .write = true ∧ (x.val.toNat % 2 ^ 17) < 131072 - s.scratch r ∧ bits x.val.toNat 17 2 = 2 ∧ (s.ext r (x.val.toNat % 2 ^ 17)).state = 3) :=
  ⟨⟨((State.reset.cset FRN_STAT_READY 1).cset (FRR_WR_PTR 1) 130943), 1, (by decide +kernel), (by decide +kernel), (by decide +kernel), (by decide +kernel)⟩,
   ⟨({ State.reset.cset FRN_STAT_READY 1 with firn := { extents := [(131072, { state := 3 })] } }), 1, (by decide +kernel), (by decide +kernel), (by decide +kernel)⟩,
   ⟨({ (State.reset.cset FRN_STAT_READY 1) with firn := { extents := [(131072, { state := 2, slice := 5, gen := 1 })], index := [(5, { slice := 5, state := 2, pins := 1 })] } }), 1, (by decide +kernel), (by decide +kernel), (by decide +kernel), (by decide +kernel), (by decide +kernel), (by decide +kernel)⟩,
   ⟨({ (State.reset.cset FRN_STAT_READY 1) with firn := { extents := [(131072, { state := 2, slice := 5, gen := 1 })], index := [(5, { slice := 5, state := 2 })] } }), 1, (by decide +kernel), (by decide +kernel), (by decide +kernel), (by decide +kernel), (by decide +kernel), (by decide +kernel), (by decide +kernel), (by decide +kernel), (by decide +kernel)⟩,
   ⟨(rgSt { chains := [{ slice := 0, first := 7, fgen := 1, ext := 7, gen := 1, used := 64, count := 1, tail := List.replicate 65 9 }] }), 1, ({ slice := 0, first := 7, fgen := 1, ext := 7, gen := 1, used := 64, count := 1, tail := List.replicate 65 9 }), (by decide +kernel), (by decide +kernel), (by decide +kernel)⟩,
   ⟨(rgSt { writeBuf := [⟨0, 7, 1, 3, List.replicate 64 9, [], false⟩, ⟨0, 8, 1, 3, List.replicate 64 9, [], false⟩] }), 1, (⟨0, 7, 1, 3, List.replicate 64 9, [], false⟩), ([⟨0, 8, 1, 3, List.replicate 64 9, [], false⟩]), (by decide +kernel), (by decide +kernel)⟩,
   ⟨(rgSt { writeBuf := [⟨0, 7, 1, 3, List.replicate 64 9, [], true⟩] }), 1, (⟨0, 7, 1, 3, List.replicate 64 9, [], true⟩), (([] : List WLine)), (by decide +kernel), (by decide +kernel), (by decide +kernel), (by decide +kernel), (by decide +kernel), (by decide +kernel)⟩,
   ⟨State.reset, 0, 1, ((⟨5, true⟩ : XtWrite)), (by decide +kernel), (by decide +kernel), (by decide +kernel), (by decide +kernel), (by decide +kernel)⟩,
   ⟨State.reset, 0, 1, ((⟨5, true⟩ : XtWrite)), 0, (by decide +kernel), (by decide +kernel), (by decide +kernel), (by decide +kernel), (by decide +kernel)⟩,
   ⟨(State.reset.setRgn 1 { readyExts := [5, 6] }), 0, 1, ((⟨0x20005, true⟩ : XtWrite)), (by decide +kernel), (by decide +kernel), (by decide +kernel), (by decide +kernel), (by decide +kernel)⟩,
   ⟨({ State.reset with firn := { extents := [(131077, { state := 2, slice := 5, gen := 1 })] } }), 0, 1, ((⟨0x20005, false⟩ : XtWrite)), (by decide +kernel), (by decide +kernel), (by decide +kernel), (by decide +kernel), (by decide +kernel)⟩,
   ⟨({ State.reset with firn := { extents := [(131077, { state := 3 })] } }), 0, 1, ((⟨0x40005, false⟩ : XtWrite)), (by decide +kernel), (by decide +kernel), (by decide +kernel), (by decide +kernel), (by decide +kernel)⟩⟩

theorem witness_LineReadsReturnTheFirstStatusThatApplies :
    (∃ (s : State) (a : W64), s.hibernating = false ∧ (s.rgn (bits a.toNat 39 2)).reads.length < 4096) ∧
    (∃ (s : State) (a : W64), s.hibernating = false ∧ 4096 ≤ (s.rgn (bits a.toNat 39 2)).reads.length) ∧
    (∃ (s : State) (r : RgnIx) (c : MvIx) (g : Nat) (e : Nat) (l : Nat) (rest : List (Requester × Nat)), s.hibernating = false ∧ g < 32768 ∧ e < 131072 ∧ l < 65536 ∧ (s.rgn r).reads = (.mover c, (mkFirnAddr r g e l)) :: rest ∧ ((s.ext r e).gen ≠ g ∨ (s.ext r e).state = 0 ∨ (s.ext r e).state = 3)) ∧
    (∃ (s : State) (r : RgnIx) (c : MvIx) (g : Nat) (e : Nat) (l : Nat) (rest : List (Requester × Nat)), s.hibernating = false ∧ g < 32768 ∧ e < 131072 ∧ l < 65536 ∧ (s.rgn r).reads = (.mover c, (mkFirnAddr r g e l)) :: rest ∧ (¬ ((s.ext r e).gen ≠ g ∨ (s.ext r e).state = 0 ∨ (s.ext r e).state = 3)) ∧ (s.ext r e).hwm ≤ l) ∧
    (∃ (s : State) (r : RgnIx) (c : MvIx) (g : Nat) (e : Nat) (l : Nat) (rest : List (Requester × Nat)) (w : _), s.hibernating = false ∧ g < 32768 ∧ e < 131072 ∧ l < 65536 ∧ (s.rgn r).reads = (.mover c, (mkFirnAddr r g e l)) :: rest ∧ (¬ ((s.ext r e).gen ≠ g ∨ (s.ext r e).state = 0 ∨ (s.ext r e).state = 3)) ∧ l < (s.ext r e).hwm ∧ s.bufferedLine r e l = some w ∧ w.gen = g) ∧
    (∃ (s : State) (r : RgnIx) (c : MvIx) (g : Nat) (e : Nat) (l : Nat) (raw : RawLine) (rest : List (Requester × Nat)) (y : _) (z : _), s.hibernating = false ∧ g < 32768 ∧ e < 131072 ∧ l < 65536 ∧ (s.rgn r).reads = (.mover c, (mkFirnAddr r g e l)) :: rest ∧ (¬ ((s.ext r e).gen ≠ g ∨ (s.ext r e).state = 0 ∨ (s.ext r e).state = 3)) ∧ l < (s.ext r e).hwm ∧ s.bufferedLine r e l = none ∧ s.storedLine r e l = (y, z) ∧ (y.read raw).1 = .uncorrectable ∧ e < 131072 - s.scratch r) ∧
    (∃ (s : State) (r : RgnIx) (c : MvIx) (g : Nat) (e : Nat) (l : Nat) (raw : RawLine) (rest : List (Requester × Nat)) (y : _) (z : _), s.hibernating = false ∧ g < 32768 ∧ e < 131072 ∧ l < 65536 ∧ (s.rgn r).reads = (.mover c, (mkFirnAddr r g e l)) :: rest ∧ (¬ ((s.ext r e).gen ≠ g ∨ (s.ext r e).state = 0 ∨ (s.ext r e).state = 3)) ∧ l < (s.ext r e).hwm ∧ s.bufferedLine r e l = none ∧ s.storedLine r e l = (y, z) ∧ (y.read raw).1 ≠ .uncorrectable ∧ ((y.read raw).2.2.1 = false ∨ (y.read raw).2.2.2 ≠ g)) ∧
    (∃ (s : State) (r : RgnIx) (c : MvIx) (g : Nat) (e : Nat) (l : Nat) (raw : RawLine) (rest : List (Requester × Nat)) (y : _) (z : _) (d : _), s.hibernating = false ∧ g < 32768 ∧ e < 131072 ∧ l < 65536 ∧ (s.rgn r).reads = (.mover c, (mkFirnAddr r g e l)) :: rest ∧ (¬ ((s.ext r e).gen ≠ g ∨ (s.ext r e).state = 0 ∨ (s.ext r e).state = 3)) ∧ l < (s.ext r e).hwm ∧ s.bufferedLine r e l = none ∧ s.storedLine r e l = (y, z) ∧ y.read raw = (.ok, d, true, g)) ∧
    (∃ (s : State) (r : RgnIx) (c : MvIx) (g : Nat) (e : Nat) (l : Nat) (raw : RawLine) (rest : List (Requester × Nat)) (y : _) (z : _) (d : _), s.hibernating = false ∧ g < 32768 ∧ e < 131072 ∧ l < 65536 ∧ (s.rgn r).reads = (.mover c, (mkFirnAddr r g e l)) :: rest ∧ (¬ ((s.ext r e).gen ≠ g ∨ (s.ext r e).state = 0 ∨ (s.ext r e).state = 3)) ∧ l < (s.ext r e).hwm ∧ s.bufferedLine r e l = none ∧ s.storedLine r e l = (y, z) ∧ y.read raw = (.corrected, d, true, g)) ∧
    (∃ (s : State) (r : RgnIx), (s.rgn r).scrubPos + 1 < 2 ^ 33 ∧ (s.ext r ((s.rgn r).scrubPos / 65536)).state = 0) ∧
    (∃ (s : State) (k : CoreIx), s.core k = none ∧ (s.pin k).active = true) ∧
    (∃ (s : State) (k : CoreIx), s.core k = none ∧ (s.pin k).active = false) :=
  ⟨⟨(rgSt { reads := [(.scrub, 5)] }), 0x0002474AD1439340, (by decide +kernel), (by decide +kernel)⟩,
   ⟨(State.reset.setRgn 3 { reads := List.replicate 4096 (.scrub, 5) }), 0xFFFFFFFFFFFFFFFF, (by decide +kernel), (by decide +kernel)⟩,
   ⟨(rgSt { reads := [(.mover 4, mkFirnAddr 1 9 7 65535)] }), 1, 4, 9, 7, 65535, (([] : List (Requester × Nat))), (by decide +kernel), (by decide +kernel), (by decide +kernel), (by decide +kernel), (by decide +kernel), (by decide +kernel)⟩,
   ⟨({ rgSt { reads := [(.mover 4, mkFirnAddr 1 9 7 65535)] } with firn := { extents := [(131079, { state := 2, gen := 9, hwm := 65535 })] } }), 1, 4, 9, 7, 65535, (([] : List (Requester × Nat))), (by decide +kernel), (by decide +kernel), (by decide +kernel), (by decide +kernel), (by decide +kernel), (by decide +kernel), (by decide +kernel)⟩,
   ⟨({ rgSt { reads := [(.mover 4, mkFirnAddr 1 9 7 65534)], writeBuf := [⟨0, 7, 9, 65534, List.replicate 64 9, [], false⟩] } with firn := { extents := [(131079, { state := 2, gen := 9, hwm := 65535 })] } }), 1, 4, 9, 7, 65534, (([] : List (Requester × Nat))), (⟨0, 7, 9, 65534, List.replicate 64 9, [], false⟩), (by decide +kernel), (by decide +kernel), (by decide +kernel), (by decide +kernel), (by decide +kernel), (by decide +kernel), (by decide +kernel), (by decide +kernel), (by decide +kernel)⟩,
   ⟨(lineSt (formLine line64 9)), 1, 4, 9, 7, 65534, (⟨[(1, 1), (2, 1), (3, 1), (70, 9)]⟩), (([] : List (Requester × Nat))), (formLine line64 9), ((lineSt (formLine line64 9))), (by decide +kernel), (by decide +kernel), (by decide +kernel), (by decide +kernel), (by decide +kernel), (by decide +kernel), (by decide +kernel), (by decide +kernel), (by decide +kernel), (by decide +kernel), (by decide +kernel)⟩,
   ⟨(lineSt (formLine line64 8)), 1, 4, 9, 7, 65534, (⟨[(1, 1), (2, 1), (3, 1)]⟩), (([] : List (Requester × Nat))), (formLine line64 8), ((lineSt (formLine line64 8))), (by decide +kernel), (by decide +kernel), (by decide +kernel), (by decide +kernel), (by decide +kernel), (by decide +kernel), (by decide +kernel), (by decide +kernel), (by decide +kernel), (by decide +kernel), (by decide +kernel)⟩,
   ⟨(lineSt (formLine line64 9)), 1, 4, 9, 7, 65534, ((⟨[]⟩ : RawLine)), (([] : List (Requester × Nat))), (formLine line64 9), ((lineSt (formLine line64 9))), line64, (by decide +kernel), (by decide +kernel), (by decide +kernel), (by decide +kernel), (by decide +kernel), (by decide +kernel), (by decide +kernel), (by decide +kernel), (by decide +kernel), (by decide +kernel)⟩,
   ⟨(lineSt (formLine line64 9)), 1, 4, 9, 7, 65534, (⟨[(1, 1), (66, 255), (71, 9)]⟩), (([] : List (Requester × Nat))), (formLine line64 9), ((lineSt (formLine line64 9))), line64, (by decide +kernel), (by decide +kernel), (by decide +kernel), (by decide +kernel), (by decide +kernel), (by decide +kernel), (by decide +kernel), (by decide +kernel), (by decide +kernel), (by decide +kernel)⟩,
   ⟨(rgSt { scrubPos := 70000 }), 1, (by decide +kernel), (by decide +kernel)⟩,
   ⟨({ State.reset with firn := { pins := [(0, { active := true, first := 0, last := 5 })], index := [(5, { slice := 5, state := 2, pins := 1 })] } }), 0, (by decide +kernel), (by decide +kernel)⟩,
   ⟨State.reset, 0, (by decide +kernel), (by decide +kernel)⟩⟩

theorem witness_ArmingTakesEffectAtATick :
    (∃ (s : State) (m : MasterIx) (v : W32), s.frozen m = false ∧ s.permitted m .control TRG_CTRL_MODE.reg .write = true ∧ (v.toNat % 4) ≠ 3 ∧ ((v.toNat % 4) = s.cget TRG_CTRL_MODE ∨ s.con TRG_CTRL_ARM = false) ∧ bitAt v.toNat 2 = true ∧ s.con TRG_STAT_ARMED = false ∧ s.twinStandby = false) ∧
    (∃ (s : State) (m : MasterIx) (v : W32), s.frozen m = false ∧ s.permitted m .control TRG_CTRL_MODE.reg .write = true ∧ ((v.toNat % 4) = 3 ∨ ((v.toNat % 4) ≠ s.cget TRG_CTRL_MODE ∧ s.con TRG_CTRL_ARM = true))) ∧
    (∃ (s : State) (m : MasterIx) (v : W32), s.frozen m = false ∧ s.permitted m .control TRG_CTRL_MODE.reg .write = true ∧ (v.toNat % 4) = s.cget TRG_CTRL_MODE ∧ (v.toNat % 4) ≠ 3 ∧ bitAt v.toNat 2 = false ∧ s.con TRG_STAT_ARMED = true) ∧
    (∃ (s : State) (n : _), s.trg.armAsk = true ∧ s.trg.askTick < s.tm.tick ∧ n < 16) ∧
    (∃ (s : State), s.trg.disarmAsk = true ∧ s.trg.askTick < s.tm.tick) :=
  ⟨⟨(State.reset.cset TRG_CTRL_MODE 1), 0, 5, (by decide +kernel), (by decide +kernel), (by decide +kernel), (by decide +kernel), (by decide +kernel), (by decide +kernel), (by decide +kernel)⟩,
   ⟨State.reset, 0, 3, (by decide +kernel), (by decide +kernel), (by decide +kernel)⟩,
   ⟨(((State.reset.cset TRG_STAT_ARMED 1).cset TRG_CTRL_ARM 1).cset TRG_CTRL_MODE 1), 0, 1, (by decide +kernel), (by decide +kernel), (by decide +kernel), (by decide +kernel), (by decide +kernel), (by decide +kernel)⟩,
   ⟨((trgSt { armAsk := true, askTick := 8, nus := [(1, { high := true })] })), 0, (by decide +kernel), (by decide +kernel), (by decide +kernel)⟩,
   ⟨(((trgSt { disarmAsk := true, askTick := 8 }).cset TRG_STAT_ARMED 1)), (by decide +kernel), (by decide +kernel)⟩⟩

theorem witness_NativeUnitsCrossAtTheirLevel :
    (∃ (s : State) (n : Fin 16) (x : _), s.tm.tick = s.trg.sums.tick + 2 ∧ s.trg.decidedTick ≠ some s.trg.sums.tick ∧ s.con TRG_STAT_ARMED = true ∧ s.trg.armTick ≤ s.trg.sums.tick ∧ s.con (TRG_NU_CFG_EN n) = true ∧ s.trg.sums.select (s.cget (TRG_NU_CFG_SEL n)) = some x ∧ (tget s.trg.nus n {}).hist.length < 64 ∧ (tget s.trg.nus n {}).incLeft = 0 ∧ (tget s.trg.nus n {}).high = false ∧ (s.cget (TRG_NU_LEVEL_LEVEL n)) ≤ (((x :: (tget s.trg.nus n {}).hist).take (s.cget (TRG_NU_CFG_WM1 n) + 1)).map (·.1) |>.sum)) ∧
    (∃ (s : State) (n : Fin 16) (x : _), s.tm.tick = s.trg.sums.tick + 2 ∧ s.trg.decidedTick ≠ some s.trg.sums.tick ∧ s.con TRG_STAT_ARMED = true ∧ s.trg.armTick ≤ s.trg.sums.tick ∧ s.con (TRG_NU_CFG_EN n) = true ∧ s.trg.sums.select (s.cget (TRG_NU_CFG_SEL n)) = some x ∧ (tget s.trg.nus n {}).hist.length < 64 ∧ (tget s.trg.nus n {}).incLeft = 0 ∧ (tget s.trg.nus n {}).high = false ∧ (((x :: (tget s.trg.nus n {}).hist).take (s.cget (TRG_NU_CFG_WM1 n) + 1)).map (·.1) |>.sum) < (s.cget (TRG_NU_LEVEL_LEVEL n))) ∧
    (∃ (s : State) (n : Fin 16) (x : _), s.tm.tick = s.trg.sums.tick + 2 ∧ s.trg.decidedTick ≠ some s.trg.sums.tick ∧ s.con TRG_STAT_ARMED = true ∧ s.trg.armTick ≤ s.trg.sums.tick ∧ s.con (TRG_NU_CFG_EN n) = true ∧ s.trg.sums.select (s.cget (TRG_NU_CFG_SEL n)) = some x ∧ (tget s.trg.nus n {}).hist.length < 64 ∧ (tget s.trg.nus n {}).incLeft = 0 ∧ (tget s.trg.nus n {}).high = true) ∧
    (∃ (s : State), s.tm.tick = s.trg.sums.tick + 2 ∧ s.trg.decidedTick ≠ some s.trg.sums.tick ∧ (s.con TRG_STAT_ARMED = false ∨ s.trg.sums.tick < s.trg.armTick) ∧ s.trg.fifo = []) ∧
    (∃ (s : State) (ws : List W64), s.trg.prim = some ws) :=
  ⟨⟨((((trgSt { armTick := 7, nus := [(3, { hist := [(5, false), (6, true)] })] }).cset TRG_STAT_ARMED 1).cset (TRG_NU_CFG_EN 3) 1).cset (TRG_NU_CFG_SEL 3) 65 |>.cset (TRG_NU_CFG_WM1 3) 1 |>.cset (TRG_NU_LEVEL_LEVEL 3) 15), 3, ((10, true)), (by decide +kernel), (by decide +kernel), (by decide +kernel), (by decide +kernel), (by decide +kernel), (by decide +kernel), (by decide +kernel), (by decide +kernel), (by decide +kernel), (by decide +kernel)⟩,
   ⟨((((trgSt { armTick := 7, nus := [(3, { hist := [(5, false), (6, true)] })] }).cset TRG_STAT_ARMED 1).cset (TRG_NU_CFG_EN 3) 1).cset (TRG_NU_CFG_SEL 3) 65 |>.cset (TRG_NU_CFG_WM1 3) 1 |>.cset (TRG_NU_LEVEL_LEVEL 3) 16), 3, ((10, true)), (by decide +kernel), (by decide +kernel), (by decide +kernel), (by decide +kernel), (by decide +kernel), (by decide +kernel), (by decide +kernel), (by decide +kernel), (by decide +kernel), (by decide +kernel)⟩,
   ⟨((((trgSt { armTick := 7, nus := [(3, { hist := [(5, false), (6, true)], high := true })] }).cset TRG_STAT_ARMED 1).cset (TRG_NU_CFG_EN 3) 1).cset (TRG_NU_CFG_SEL 3) 65 |>.cset (TRG_NU_CFG_WM1 3) 1 |>.cset (TRG_NU_LEVEL_LEVEL 3) 16), 3, ((10, true)), (by decide +kernel), (by decide +kernel), (by decide +kernel), (by decide +kernel), (by decide +kernel), (by decide +kernel), (by decide +kernel), (by decide +kernel), (by decide +kernel)⟩,
   ⟨(trgSt {}), (by decide +kernel), (by decide +kernel), (by decide +kernel), (by decide +kernel)⟩,
   ⟨(trgSt { prim := some [5, 6] }), ([5, 6]), (by decide +kernel)⟩⟩

theorem witness_TheFirstCheckGivesTheOutcome :
    (∃ (s : State) (body : List Byte), body.length = 32 ∧ s.con TRG_CTRL_REQ_EN = true ∧ s.trg.fifo.length < 64) ∧
    (∃ (s : State) (body : List Byte), body.length = 32 ∧ s.con TRG_CTRL_REQ_EN = true ∧ 64 ≤ s.trg.fifo.length) ∧
    (∃ (s : State) (body : List Byte), body.length = 32 ∧ s.con TRG_CTRL_REQ_EN = false) ∧
    (∃ (s : State) (q : Req), s.tm.tick = s.trg.sums.tick + 2 ∧ s.trg.decidedTick ≠ some s.trg.sums.tick ∧ s.con TRG_STAT_ARMED = false ∧ s.trg.fifo = [q] ∧ ((s.toInst (3440 * 65536)).requestCandidate q).invalid = true) ∧
    (∃ (s : State) (q : Req), s.tm.tick = s.trg.sums.tick + 2 ∧ s.trg.decidedTick ≠ some s.trg.sums.tick ∧ s.con TRG_STAT_ARMED = false ∧ s.trg.fifo = [q] ∧ ((s.toInst (3440 * 65536)).requestCandidate q).invalid = false ∧ ((s.toInst (3440 * 65536)).requestCandidate q).gone = true) ∧
    (∃ (s : State) (q : Req), s.tm.tick = s.trg.sums.tick + 2 ∧ s.trg.decidedTick ≠ some s.trg.sums.tick ∧ s.con TRG_STAT_ARMED = false ∧ s.trg.fifo = [q] ∧ ((s.toInst (3440 * 65536)).requestCandidate q).invalid = false ∧ ((s.toInst (3440 * 65536)).requestCandidate q).gone = false ∧ (∀ k, k < 64 → s.core k ≠ none)) ∧
    (∃ (s : State) (q : Req) (k : _), s.tm.tick = s.trg.sums.tick + 2 ∧ s.trg.decidedTick ≠ some s.trg.sums.tick ∧ s.con TRG_STAT_ARMED = false ∧ s.trg.fifo = [q] ∧ ((s.toInst (3440 * 65536)).requestCandidate q).invalid = false ∧ ((s.toInst (3440 * 65536)).requestCandidate q).gone = false ∧ k < 64 ∧ s.core k = none ∧ (∀ j, j < k → s.core j ≠ none)) ∧
    (∃ (s : State) (c : Candidate), c.source < 25 ∧ c.invalid = false ∧ c.frame < (s.cget TRG_ARM_F_F + s.cget (TRG_SRC_PRE_PRE c.source))) ∧
    (∃ (s : State) (c : Candidate) (r : _), c.source < 25 ∧ c.invalid = false ∧ (s.cget TRG_ARM_F_F + s.cget (TRG_SRC_PRE_PRE c.source)) ≤ c.frame ∧ tget s.trg.rearm c.source none = some r ∧ 0 < s.cget (TRG_SRC_REARM_REARM c.source) ∧ c.frame ≤ r.frame + s.cget (TRG_SRC_REARM_REARM c.source) ∧ s.con (TRG_SRC_REARM_MERGE c.source) = false) ∧
    (∃ (s : State) (c : Candidate), c.source < 25 ∧ c.invalid = false ∧ (s.cget TRG_ARM_F_F + s.cget (TRG_SRC_PRE_PRE c.source)) ≤ c.frame ∧ s.cget (TRG_SRC_REARM_REARM c.source) = 0 ∧ s.cget TRG_CTRL_MODE = 0) :=
  ⟨⟨((trgSt { fifo := List.replicate 63 reqGood }).cset TRG_CTRL_REQ_EN 1), (reqBody 3 5 0 1030000 2 7), (by decide +kernel), (by decide +kernel), (by decide +kernel)⟩,
   ⟨((trgSt { fifo := List.replicate 64 reqGood }).cset TRG_CTRL_REQ_EN 1), (reqBody 3 5 0 1030000 2 7), (by decide +kernel), (by decide +kernel), (by decide +kernel)⟩,
   ⟨((trgSt { fifo := List.replicate 64 reqGood }).cset TRG_CTRL_REQ_EN 0), (reqBody 3 5 0 1030000 2 7), (by decide +kernel), (by decide +kernel)⟩,
   ⟨(trgSt { fifo := [mkReq (reqBody 5 3 0 1030000 2 7)] }), (mkReq (reqBody 5 3 0 1030000 2 7)), (by decide +kernel), (by decide +kernel), (by decide +kernel), (by decide +kernel), (by decide +kernel)⟩,
   ⟨(trgSt { fifo := [reqGood] }), reqGood, (by decide +kernel), (by decide +kernel), (by decide +kernel), (by decide +kernel), (by decide +kernel), (by decide +kernel)⟩,
   ⟨({ trgSt { fifo := [reqGood], cores := (List.range 64).map fun k => (k, some coreA) } with firn := reqFirn }), reqGood, (by decide +kernel), (by decide +kernel), (by decide +kernel), (by decide +kernel), (by decide +kernel), (by decide +kernel), (by decide +kernel)⟩,
   ⟨({ trgSt { fifo := [reqGood], cores := [(0, some coreA), (2, some coreA)] } with firn := reqFirn }), reqGood, 1, (by decide +kernel), (by decide +kernel), (by decide +kernel), (by decide +kernel), (by decide +kernel), (by decide +kernel), (by decide +kernel), (by decide +kernel), (by decide +kernel)⟩,
   ⟨((State.reset.cset TRG_ARM_F_F 100).cset (TRG_SRC_PRE_PRE 3) 11), ({ source := 3, t := {}, frame := 110, first := 100, last := 120, portFirst := 0, portLast := 7 }), (by decide +kernel), (by decide +kernel), (by decide +kernel)⟩,
   ⟨(((trgSt { rearm := [(3, some ⟨100, 64, 0⟩)] }).cset TRG_ARM_F_F 100).cset (TRG_SRC_REARM_REARM 3) 10 |>.cset (TRG_SRC_PRE_PRE 3) 10), ({ source := 3, t := {}, frame := 110, first := 100, last := 120, portFirst := 0, portLast := 7 }), (⟨100, 64, 0⟩), (by decide +kernel), (by decide +kernel), (by decide +kernel), (by decide +kernel), (by decide +kernel), (by decide +kernel), (by decide +kernel)⟩,
   ⟨(((State.reset.cset TRG_ARM_F_F 110).cset TRG_CTRL_MODE 0).cset (TRG_SRC_PRE_PRE 3) 0 |>.cset (TRG_SRC_REARM_REARM 3) 0), ({ source := 3, t := {}, frame := 110, first := 100, last := 120, portFirst := 0, portLast := 7 }), (by decide +kernel), (by decide +kernel), (by decide +kernel), (by decide +kernel), (by decide +kernel)⟩⟩

theorem witness_CoresAndSlicesAreSent :
    (∃ (s : State) (k : CoreIx) (c : Core) (d : Core), s.trg.cores = [(k.val, some c)] ∧ c.reading = false ∧ c.aborted = false ∧ c.ended = false ∧ c.out = [] ∧ s.readDue c = true ∧ c.decided + 32 ≤ s.tm.tick * 2000 + s.tm.now.ns % 4000 / 2 ∧ s.hibernating = false ∧ d = ({ c with reading := true, flush := true, cur := { slice := sliceOf c.first } } : Core).put (s.coreHeader k c) ∧ (s.coreOn .nothing d.turns d).items = [] ∧ s.hasRoom (s.coreGroup k) 2 (bytesPkt 2 k c.serial (s.coreHeader k c)) = true ∧ s.cget (UG_STAT_STATE (s.coreGroup k)) ≠ 2) ∧
    (∃ (s : State) (k : CoreIx) (c : Core) (d : Core), s.trg.cores = [(k.val, some c)] ∧ c.reading = false ∧ c.aborted = false ∧ c.ended = false ∧ c.out = [] ∧ s.readDue c = true ∧ c.decided + 32 ≤ s.tm.tick * 2000 + s.tm.now.ns % 4000 / 2 ∧ s.hibernating = false ∧ d = ({ c with reading := true, flush := true, cur := { slice := sliceOf c.first } } : Core).put (s.coreHeader k c) ∧ (s.coreOn .nothing d.turns d).items = [] ∧ s.hasRoom (s.coreGroup k) 2 (bytesPkt 2 k c.serial (s.coreHeader k c)) = false) ∧
    (∃ (s : State) (k : CoreIx) (c : Core), s.trg.cores = [(k.val, some c)] ∧ c.reading = true ∧ c.read = true ∧ c.ended = false ∧ c.out = [] ∧ c.items = [] ∧ s.hibernating = false ∧ s.hasRoom (s.coreGroup k) 2 (bytesPkt 2 k c.serial (s.coreTrailer k c)) = true) ∧
    (∃ (s : State) (m : MasterIx) (v : W32), s.frozen m = false ∧ s.permitted m .control TRG_ABORT_SLOT.reg .write = true ∧ s.core (v.toNat % 64) = none) ∧
    (∃ (s : State) (m : MasterIx) (v : W32) (c : _), s.frozen m = false ∧ s.permitted m .control TRG_ABORT_SLOT.reg .write = true ∧ s.core (v.toNat % 64) = some c ∧ c.ended = false ∧ bitAt v.toNat 6 = true) ∧
    (∃ (s : State), s.trg.streamOut = [] ∧ s.trg.streamOn = true ∧ s.trg.streamEnd = none ∧ s.hibernating = false ∧ s.sliceGone (s.cget TRG_STREAM_POS_SLICE) = false ∧ (s.ixe (s.cget TRG_STREAM_POS_SLICE)).slice = (s.cget TRG_STREAM_POS_SLICE) ∧ (s.ixe (s.cget TRG_STREAM_POS_SLICE)).state = 0) ∧
    (∃ (s : State), s.trg.streamOut = [] ∧ s.trg.streamOn = true ∧ s.trg.streamEnd = none ∧ s.hibernating = false ∧ s.sliceGone (s.cget TRG_STREAM_POS_SLICE) = false ∧ (s.ixe (s.cget TRG_STREAM_POS_SLICE)).state = 1) ∧
    (∃ (s : State), s.trg.streamOut = [] ∧ s.trg.streamOn = true ∧ s.trg.streamEnd = none ∧ s.hibernating = false ∧ s.sliceGone (s.cget TRG_STREAM_POS_SLICE) = true) :=
  ⟨⟨(coreSt (trgSt { cores := [(3, some { coreA with last := 254 })] })), 3, ({ coreA with last := 254 }), (hdrD (coreSt (trgSt { cores := [(3, some { coreA with last := 254 })] })) { coreA with last := 254 }), (by decide +kernel), (by decide +kernel), (by decide +kernel), (by decide +kernel), (by decide +kernel), (by decide +kernel), (by decide +kernel), (by decide +kernel), (by decide +kernel), (by decide +kernel), (by decide +kernel), (by decide +kernel)⟩,
   ⟨(fullSt (coreSt (trgSt { cores := [(3, some { coreA with last := 254 })] }))), 3, ({ coreA with last := 254 }), (hdrD (fullSt (coreSt (trgSt { cores := [(3, some { coreA with last := 254 })] }))) { coreA with last := 254 }), (by decide +kernel), (by decide +kernel), (by decide +kernel), (by decide +kernel), (by decide +kernel), (by decide +kernel), (by decide +kernel), (by decide +kernel), (by decide +kernel), (by decide +kernel), (by decide +kernel)⟩,
   ⟨((trgSt { cores := [(3, some { coreA with reading := true, read := true })] })), 3, ({ coreA with reading := true, read := true }), (by decide +kernel), (by decide +kernel), (by decide +kernel), (by decide +kernel), (by decide +kernel), (by decide +kernel), (by decide +kernel), (by decide +kernel)⟩,
   ⟨State.reset, 0, 63, (by decide +kernel), (by decide +kernel), (by decide +kernel)⟩,
   ⟨({ trgSt { cores := [(3, some { coreA with reading := true })] } with firn := { pins := [(3, { active := true, first := 0, last := 0 })] } }), 0, 0x43, ({ coreA with reading := true }), (by decide +kernel), (by decide +kernel), (by decide +kernel), (by decide +kernel), (by decide +kernel)⟩,
   ⟨((trgSt { streamOn := true }).cset TRG_STREAM_POS_SLICE 1 |> fun z => { z with firn := { claimed := true, index := [(1, { slice := 1, state := 0 })] } }), (by decide +kernel), (by decide +kernel), (by decide +kernel), (by decide +kernel), (by decide +kernel), (by decide +kernel), (by decide +kernel)⟩,
   ⟨((trgSt { streamOn := true }).cset TRG_STREAM_POS_SLICE 1 |> fun z => { z with firn := { claimed := true, index := [(1, { slice := 1, state := 1 })] } }), (by decide +kernel), (by decide +kernel), (by decide +kernel), (by decide +kernel), (by decide +kernel), (by decide +kernel)⟩,
   ⟨((trgSt { streamOn := true }).cset TRG_STREAM_POS_SLICE 0 |> fun z => { z with firn := { claimed := true, index := [(0, { slice := 0, state := 3 }), (1, { slice := 1, state := 1 })] } }), (by decide +kernel), (by decide +kernel), (by decide +kernel), (by decide +kernel), (by decide +kernel)⟩⟩

theorem witness_LanesLeaveAndReturnAtABoundary :
    (∃ (s : State) (m : MasterIx) (v : W32) (l : Fin 32), s.frozen m = false ∧ s.permitted m .control UPL_CTRL_RESTORE.reg .write = true ∧ bitAt v.toNat 0 = true ∧ s.laneOut l = true) ∧
    (∃ (s : State) (l : Fin 32) (g : Nat) (t : Nat), s.hibernating = false ∧ s.upl.boundTick ≠ some s.tm.tick ∧ t < s.tm.tick * 4000 + 48 ∧ s.laneGroup l = some g ∧ s.upl.leaving = [(l.val, t)] ∧ s.upl.returning = []) ∧
    (∃ (s : State) (l : Fin 32) (g : Nat) (t : Nat), s.hibernating = false ∧ s.upl.boundTick ≠ some s.tm.tick ∧ t < s.tm.tick * 4000 + 48 ∧ s.laneGroup l = some g ∧ s.upl.returning = [(l.val, t)] ∧ s.upl.leaving = [] ∧ s.laneOut l = true ∧ s.cget (UG_STAT_STATE g) = 2) ∧
    (∃ (s : State) (l : Fin 32) (g : Nat), s.hibernating = false ∧ s.upl.boundTick = some s.tm.tick ∧ s.laneGroup l = some g ∧ s.groupRun g = true ∧ s.laneOut l = false) ∧
    (∃ (s : State) (l : Fin 32) (g : GrpIx) (i : Nat), s.hibernating = false ∧ s.upl.boundTick ≠ some s.tm.tick ∧ s.groupRun g = true ∧ s.upl.leaving = [] ∧ s.upl.returning = [] ∧ (s.groupLanes g)[i]? = some l.val ∧ tget s.upl.laneFrames l [] ≠ []) :=
  ⟨⟨((uplSt {}).cset UPL_STAT_OUT 512), 0, 1, 9, (by decide +kernel), (by decide +kernel), (by decide +kernel), (by decide +kernel)⟩,
   ⟨(((uplSt { leaving := [(9, 36047)], queues := [(5, { pkts := [pkt0 3] })] }).cset UPL_STAT_OUT 0xFD00)), 9, 1, 36047, (by decide +kernel), (by decide +kernel), (by decide +kernel), (by decide +kernel), (by decide +kernel), (by decide +kernel)⟩,
   ⟨(((uplSt { returning := [(9, 36047)] }).cset UPL_STAT_OUT 0xFF00).cset (UG_STAT_STATE 1) 2), 9, 1, 36047, (by decide +kernel), (by decide +kernel), (by decide +kernel), (by decide +kernel), (by decide +kernel), (by decide +kernel), (by decide +kernel), (by decide +kernel)⟩,
   ⟨(uplSt { boundTick := some 9, groups := [(1, { ofs := 0x123456 })] }), 9, 1, (by decide +kernel), (by decide +kernel), (by decide +kernel), (by decide +kernel), (by decide +kernel)⟩,
   ⟨(uplSt { laneFrames := [(9, [0xBC, 41])], groups := [(1, { buf := List.replicate 300000 7 })] }), 9, 1, 1, (by decide +kernel), (by decide +kernel), (by decide +kernel), (by decide +kernel), (by decide +kernel), (by decide +kernel), (by decide +kernel)⟩⟩

theorem witness_ReceiveLanesAndInboundControl :
    (∃ (s : State) (j : Fin 8), s.rxState j = 0 ∧ s.hibernating = false) ∧
    (∃ (s : State) (j : Fin 8), s.rxState j = 1 ∧ (tget s.upl.rx j {}).stateTick + 5000 ≤ s.tm.tick) ∧
    (∃ (s : State) (j : Fin 8) (x : RxSet), s.rxState j = 2 ∧ (tget s.upl.rx j {}).badRun = 3 ∧ goodRxSet x = false) ∧
    (∃ (s : State) (j : Fin 8) (x : RxSet), s.rxState j = 2 ∧ (tget s.upl.rx j {}).badRun < 3 ∧ goodRxSet x = false) ∧
    (∃ (s : State) (j : Fin 8) (x : RxSet), s.rxState j = 2 ∧ goodRxSet x = true) ∧
    (∃ (s : State) (j : Fin 8) (x : RxSet) (n : _) (b : _) (r : _), s.rxState j = 2 ∧ x.gap = some n ∧ lineSyms x.line.plus x.line.chars = some k285 :: r ∧ bytesOf r = some b ∧ b.length = 7 ∧ 22392 ≤ n ∧ n ≤ 22408 ∧ b.getD 6 0 = BitVec.ofNat 8 (crc8 (b.take 6))) ∧
    (∃ (s : State) (j : Fin 8) (f : FloeIn) (b : List Byte), s.rxState j = 2 ∧ floeRead f = (0, true, b) ∧ bits (bodyNat b 0 1) 0 4 = 6 ∧ bitAt (bodyNat b 0 1) 6 = true ∧ bitAt (bodyNat b 0 1) 7 = true ∧ bodyNat b 14 2 = crc16 (b.take 14) ∧ 1 ≤ bits (bodyNat b 0 8) 12 12 ∧ (bodyNat b 16 1 = 1 ∨ bodyNat b 16 1 = 2 ∨ bodyNat b 16 1 = 3)) ∧
    (∃ (s : State) (j : Fin 8) (f : FloeIn) (b : List Byte), s.rxState j = 2 ∧ floeRead f = (0, true, b) ∧ (bits (bodyNat b 0 1) 0 4 ≠ 6 ∨ bitAt (bodyNat b 0 1) 6 = false ∨ bitAt (bodyNat b 0 1) 7 = false ∨ bodyNat b 14 2 ≠ crc16 (b.take 14) ∨ bodyNat b 16 1 = 0 ∨ 4 ≤ bodyNat b 16 1)) ∧
    (∃ (s : State) (j : Fin 8) (f : FloeIn) (b : List Byte) (n : _), s.rxState j = 2 ∧ floeRead f = (n, false, b)) ∧
    (∃ (s : State) (j : Fin 8) (v : W32), s.rxState j = 2 ∧ bitAt s.verMask 1 = true ∧ bitAt v.toNat 1 = true ∧ s.cget (UG_STAT_VER (s.cget (UR_CFG_GROUP j))) = 1) ∧
    (∃ (s : State) (g : GrpIx), ((s.grp g).helloAt.getD 0) + max 1 (s.cget UPL_CFG_SILENT) * 100000000 ≤ s.monoNs) ∧
    (∃ (s : State) (j : Fin 8), s.rxState j = 2 ∧ s.upl.inbound.length < 8192) ∧
    (∃ (s : State) (j : Fin 8), s.rxState j = 2 ∧ 8192 ≤ s.upl.inbound.length) :=
  ⟨⟨State.reset, 3, (by decide +kernel), (by decide +kernel)⟩,
   ⟨((tk 5000 State.reset).cset (UR_STAT_STATE 3) 1), 3, (by decide +kernel), (by decide +kernel)⟩,
   ⟨({ State.reset.cset (UR_STAT_STATE 3) 2 with upl := { rx := [(3, { badRun := 3 })] } }), 3, (⟨⟨false, []⟩, some 22400⟩), (by decide +kernel), (by decide +kernel), (by decide +kernel)⟩,
   ⟨({ State.reset.cset (UR_STAT_STATE 3) 2 with upl := { rx := [(3, { badRun := 2 })] } }), 3, (⟨rxLine, some 22391⟩), (by decide +kernel), (by decide +kernel), (by decide +kernel)⟩,
   ⟨({ State.reset.cset (UR_STAT_STATE 3) 2 with upl := { rx := [(3, { badRun := 2 })] } }), 3, (⟨rxLine, some 22392⟩), (by decide +kernel), (by decide +kernel)⟩,
   ⟨({ State.reset.cset (UR_STAT_STATE 3) 2 with upl := { rx := [(3, { badRun := 2 })] } }), 3, (⟨rxLine, some 22408⟩), 22408, rxB, (somes rxB), (by decide +kernel), (by decide +kernel), (by decide +kernel), (by decide +kernel), (by decide +kernel), (by decide +kernel), (by decide +kernel), (by decide +kernel)⟩,
   ⟨(State.reset.cset (UR_STAT_STATE 3) 2), 3, floe0, (floeHdr ++ [2] ++ List.replicate 111 0), (by decide +kernel), (by decide +kernel), (by decide +kernel), (by decide +kernel), (by decide +kernel), (by decide +kernel), (by decide +kernel), (by decide +kernel)⟩,
   ⟨(State.reset.cset (UR_STAT_STATE 3) 2), 3, (⟨[dataRun (rsEncode (floeHdr ++ [4] ++ List.replicate 111 0))], 0, 0⟩), (floeHdr ++ [4] ++ List.replicate 111 0), (by decide +kernel), (by decide +kernel), (by decide +kernel)⟩,
   ⟨(State.reset.cset (UR_STAT_STATE 3) 2), 3, (⟨[⟨false, List.replicate 134 0⟩], 0, 0⟩), (List.replicate 128 0), 1, (by decide +kernel), (by decide +kernel)⟩,
   ⟨((State.reset.cset (UR_STAT_STATE 3) 2).cset (UG_STAT_VER 0) 1 |>.cset UPL_CFG_VER_MASK 3 |>.cset (UR_CFG_GROUP 3) 2 |>.cset (UG_STAT_VER 2) 1), 3, 3, (by decide +kernel), (by decide +kernel), (by decide +kernel), (by decide +kernel)⟩,
   ⟨(tk 25000000 State.reset), 0, (by decide +kernel)⟩,
   ⟨({ State.reset.cset (UR_STAT_STATE 3) 2 with upl := { inbound := List.replicate 8191 ⟨5, true, 2⟩ } }), 3, (by decide +kernel), (by decide +kernel)⟩,
   ⟨({ State.reset.cset (UR_STAT_STATE 3) 2 with upl := { inbound := List.replicate 8192 ⟨5, true, 2⟩ } }), 3, (by decide +kernel), (by decide +kernel)⟩⟩

theorem witness_TheSchedulerTakesTheFirstWholePacket :
    (∃ (s : State) (g : GrpIx) (q : QIx) (p : Pkt) (r : List Pkt) (errs : _), s.groupRun g = true ∧ s.hibernating = false ∧ (∀ y, y < q.val → (s.queue g y).pkts = []) ∧ (s.queue g q).pkts = p :: r ∧ typeHeld q p.typ = true ∧ p.words.length ≤ 1024 ∧ p.sent = 0 ∧ p.descRead errs = .ok ∧ (((p.reads (min (if s.cget (UG_STAT_VER g) = 1 then 128 else 256) p.words.length) errs).all fun x => decide (x.1 ≠ .uncorrectable)) = true)) ∧
    (∃ (s : State) (g : GrpIx) (q : QIx) (p : Pkt) (r : List Pkt) (i : _) (errs : _), s.groupRun g = true ∧ s.hibernating = false ∧ (∀ y, y < q.val → (s.queue g y).pkts = []) ∧ (s.queue g q).pkts = p :: r ∧ typeHeld q p.typ = true ∧ p.words.length ≤ 1024 ∧ p.sent = 0 ∧ (i < (min (if s.cget (UG_STAT_VER g) = 1 then 128 else 256) p.words.length)) ∧ ((errs.all fun e => decide (e.word = i + 1)) = true) ∧ (readWord (p.words.getD i 0) (decide (i + 1 = p.words.length)) (i + 1) errs).1 = .uncorrectable ∧ q ≠ 2 ∧ q ≠ 4 ∧ (q = 3 → s.sp.monOut = [])) ∧
    (∃ (s : State) (g : GrpIx) (q : QIx) (p : Pkt) (r : List Pkt) (errs : _), s.groupRun g = true ∧ s.hibernating = false ∧ (∀ y, y < q.val → (s.queue g y).pkts = []) ∧ (s.queue g q).pkts = p :: r ∧ typeHeld q p.typ = true ∧ p.words.length ≤ 1024 ∧ p.sent = 0 ∧ ((errs.all fun e => decide (e.word = 0)) = true) ∧ (readWord p.descriptor (decide (p.words = [])) 0 errs).1 = .uncorrectable ∧ r = [] ∧ (∀ y, y < 5 → q.val < y → (s.queue g y).pkts = []) ∧ q ≠ 2 ∧ q ≠ 4 ∧ (q = 3 → s.sp.monOut = [])) ∧
    (∃ (s : State) (g : GrpIx), s.groupRun g = true ∧ s.hibernating = false ∧ (∀ y, y < 5 → (s.queue g y).pkts = [])) ∧
    (∃ (s : State) (g : GrpIx), s.groupRun g = false) :=
  ⟨⟨((uplSt { queues := [(8, { pkts := [pktM 257, pktM 1] }), (9, { pkts := [pkt0 1] })] }).cset (UG_STAT_VER 1) 1), 1, 3, (pktM 257), ([pktM 1]), ([⟨1, 0, 5⟩, ⟨1, 14, 255⟩, ⟨128, 3, 1⟩, ⟨129, 3, 1⟩]), (by decide +kernel), (by decide +kernel), (by decide +kernel), (by decide +kernel), (by decide +kernel), (by decide +kernel), (by decide +kernel), (by decide +kernel), (by decide +kernel)⟩,
   ⟨((uplSt { queues := [(8, { pkts := [pktM 257, pktM 1] }), (9, { pkts := [pkt0 1] })] }).cset (UG_STAT_VER 1) 1), 1, 3, (pktM 257), ([pktM 1]), 127, ([⟨128, 0, 1⟩, ⟨128, 1, 2⟩, ⟨128, 2, 3⟩, ⟨128, 3, 4⟩]), (by decide +kernel), (by decide +kernel), (by decide +kernel), (by decide +kernel), (by decide +kernel), (by decide +kernel), (by decide +kernel), (by decide +kernel), (by decide +kernel), (by decide +kernel), (by decide +kernel), (by decide +kernel), (by decide +kernel)⟩,
   ⟨(uplSt { queues := [(8, { pkts := [pktM 257] })] }), 1, 3, (pktM 257), ([]), ([⟨0, 0, 1⟩, ⟨0, 1, 2⟩, ⟨0, 2, 3⟩, ⟨0, 3, 4⟩]), (by decide +kernel), (by decide +kernel), (by decide +kernel), (by decide +kernel), (by decide +kernel), (by decide +kernel), (by decide +kernel), (by decide +kernel), (by decide +kernel), (by decide +kernel), (by decide +kernel), (by decide +kernel), (by decide +kernel), (by decide +kernel)⟩,
   ⟨(uplSt {}), 1, (by decide +kernel), (by decide +kernel), (by decide +kernel)⟩,
   ⟨State.reset, 0, (by decide +kernel)⟩⟩

theorem witness_PushFlushStaleAndPop :
    (∃ (s : State) (g : GrpIx) (q : QIx) (m : MasterIx), s.frozen m = false ∧ s.permitted m .control (UQ_PUSH_D (g.val * 5 + q.val)).reg .write = true ∧ q ≠ 0 ∧ q ≠ 3) ∧
    (∃ (s : State) (g : GrpIx) (q : QIx) (m : MasterIx), s.frozen m = false ∧ s.permitted m .control (UQ_PUSH_D (g.val * 5 + q.val)).reg .write = true ∧ (q = 0 ∨ q = 3) ∧ (s.queue g q).discard = false ∧ s.cget (UG_STAT_STATE g) ≠ 2 ∧ ((s.queue g q).open_.getD []).length < 256 ∧ s.con (UQ_PUSH_TAG_END (g.val * 5 + q.val)) = false) ∧
    (∃ (s : State) (g : GrpIx) (q : QIx) (m : MasterIx) (d : _) (ws : _), s.frozen m = false ∧ s.permitted m .control (UQ_PUSH_D (g.val * 5 + q.val)).reg .write = true ∧ (q = 0 ∨ q = 3) ∧ (s.queue g q).discard = false ∧ s.cget (UG_STAT_STATE g) ≠ 2 ∧ s.con (UQ_PUSH_TAG_END (g.val * 5 + q.val)) = true ∧ (s.queue g q).open_ = some (d :: ws) ∧ ws.length < 255 ∧ (s.queue g q).level + ws.length + 2 ≤ queueCapacity q) ∧
    (∃ (s : State) (g : GrpIx) (q : QIx) (m : MasterIx) (v : W32), s.frozen m = false ∧ s.permitted m .control (UQ_CTRL_FLUSH (g.val * 5 + q.val)).reg .write = true ∧ bitAt v.toNat 0 = true ∧ q ≠ 2 ∧ q ≠ 4) ∧
    (∃ (s : State) (g : GrpIx) (q : QIx) (d : W64) (ws : List W64), (s.queue g q).open_ = some (d :: ws) ∧ 0 < s.cget (UQ_CFG_STALE (g.val * 5 + q.val)) ∧ s.hibernating = false ∧ (s.queue g q).openAt + s.cget (UQ_CFG_STALE (g.val * 5 + q.val)) * 10000 ≤ s.monoNs ∧ s.cget (UG_STAT_STATE g) ≠ 2 ∧ (s.queue g q).level + ws.length + 1 ≤ queueCapacity q) ∧
    (∃ (s : State) (m : MasterIx) (x : _) (r : _), s.frozen m = false ∧ s.permitted m .control UIQ_POP_D.reg .read = true ∧ s.upl.inbound = x :: r) ∧
    (∃ (s : State) (m : MasterIx), s.frozen m = false ∧ s.permitted m .control UIQ_POP_D.reg .read = true ∧ s.upl.inbound = []) :=
  ⟨⟨State.reset, 1, 4, 0, (by decide +kernel), (by decide +kernel), (by decide +kernel), (by decide +kernel)⟩,
   ⟨(uplSt { queues := [(5, { open_ := some (List.replicate 255 7) })], pushHigh := [(5, 0xFFFFFFFF)] }), 1, 0, 0, (by decide +kernel), (by decide +kernel), (by decide +kernel), (by decide +kernel), (by decide +kernel), (by decide +kernel), (by decide +kernel)⟩,
   ⟨((uplSt { queues := [(5, { open_ := some (List.replicate 255 7) })], pushHigh := [(5, 0xFFFFFFFF)] }).cset (UQ_PUSH_TAG_END 5) 1), 1, 0, 0, 7, (List.replicate 254 7), (by decide +kernel), (by decide +kernel), (by decide +kernel), (by decide +kernel), (by decide +kernel), (by decide +kernel), (by decide +kernel), (by decide +kernel), (by decide +kernel)⟩,
   ⟨(uplSt { queues := [(5, { pkts := [pkt0 3], open_ := some (List.replicate 255 7) })] }), 1, 0, 0, 1, (by decide +kernel), (by decide +kernel), (by decide +kernel), (by decide +kernel), (by decide +kernel)⟩,
   ⟨((uplSt { queues := [(5, { pkts := [pkt0 3], open_ := some (List.replicate 255 7), openAt := 26000 })] }).cset (UQ_CFG_STALE 5) 1), 1, 0, 7, (List.replicate 254 7), (by decide +kernel), (by decide +kernel), (by decide +kernel), (by decide +kernel), (by decide +kernel), (by decide +kernel)⟩,
   ⟨(uplSt { inbound := [⟨5, true, 2⟩, ⟨6, true, 2⟩] }), 0, (⟨5, true, 2⟩), ([⟨6, true, 2⟩]), (by decide +kernel), (by decide +kernel), (by decide +kernel)⟩,
   ⟨State.reset, 0, (by decide +kernel), (by decide +kernel), (by decide +kernel)⟩⟩

theorem witness_RegistersObeyTheirAccessCodes :
    (∃ (s : State) (m : MasterIx), s.frozen m = true) ∧
    (∃ (s : State) (m : MasterIx) (a : W32), s.frozen m = false ∧ s.permitted m .control a.toNat .write = false ∧ s.con FWL_STAT_VIOL = false) ∧
    (∃ (s : State) (m : MasterIx) (a : W32) (i : _), s.frozen m = false ∧ s.permitted m .control a.toNat .write = true ∧ i < 17 ∧ a.toNat = (TRG_SRC_PRE_PRE i).reg) ∧
    (∃ (s : State) (m : MasterIx) (a : W32) (v : W32) (i : _), s.frozen m = false ∧ s.permitted m .control a.toNat .write = true ∧ i < 8 ∧ a.toNat = (UR_CFG_GROUP i).reg ∧ s.glb.locked = true ∧ v.toNat % 4 ≠ s.cget (UR_CFG_GROUP i)) ∧
    (∃ (s : State) (m : MasterIx) (a : W32) (i : _), s.frozen m = false ∧ s.permitted m .control a.toNat .write = true ∧ i < 8 ∧ a.toNat = (UR_CFG_GROUP i).reg ∧ s.glb.locked = false) ∧
    (∃ (s : State) (m : MasterIx) (a : W32), s.frozen m = false ∧ s.permitted m .control a.toNat .write = true ∧ a.toNat = UIQ_STAT_FULL_SEEN.reg) ∧
    (∃ (s : State) (m : MasterIx) (a : W32), s.frozen m = false ∧ s.permitted m .control a.toNat .write = true ∧ 0x2000000 ≤ a.toNat) ∧
    (∃ (s : State) (m : MasterIx) (a : W32), s.frozen m = false ∧ s.permitted m .control a.toNat .read = true ∧ a.toNat = FRN_HEAD_SLICE.reg) ∧
    (∃ (s : State) (m : MasterIx) (a : W32), s.frozen m = false ∧ s.permitted m .control a.toNat .read = true ∧ a.toNat = TRG_CNT0_ACCEPT.reg) ∧
    (∃ (s : State) (m : MasterIx) (v : W32) (k : _) (j : _), s.frozen m = false ∧ s.permitted m .control FWL_THAW_MASTER.reg .write = true ∧ k = v.toNat % 32 ∧ bitAt v.toNat 5 = true ∧ 1 ≤ k ∧ k ≤ 19 ∧ s.frozen k = true ∧ j ≠ k) ∧
    (∃ (s : State) (m : MasterIx) (v : W32) (k : _), s.frozen m = false ∧ s.permitted m .control FWL_THAW_MASTER.reg .write = true ∧ k = v.toNat % 32 ∧ bitAt v.toNat 5 = true ∧ 1 ≤ k ∧ k ≤ 19 ∧ s.frozen k = true ∧ k ≤ 16) ∧
    (∃ (s : State) (m : MasterIx) (v : W32) (k : _), s.frozen m = false ∧ s.permitted m .control FWL_THAW_MASTER.reg .write = true ∧ k = v.toNat % 32 ∧ bitAt v.toNat 5 = true ∧ (k = 0 ∨ s.frozen k = false)) ∧
    (∃ (s : State) (t : Nat), s.sp.bkThawAt = some t ∧ t ≤ s.tm.tick ∧ s.spDown = false ∧ s.con FWL_CTRL_BK_THAW = true ∧ s.frozen 17 = true) :=
  ⟨⟨(State.reset.cset FWL_STAT_FROZEN 1), 0, (by decide +kernel)⟩,
   ⟨State.reset, 19, 0xDFFFC, (by decide +kernel), (by decide +kernel), (by decide +kernel)⟩,
   ⟨State.reset, 0, (BitVec.ofNat 32 (TRG_SRC_PRE_PRE 16).reg), 16, (by decide +kernel), (by decide +kernel), (by decide +kernel), (by decide +kernel)⟩,
   ⟨({ State.reset with glb := { locked := true } }), 0, (BitVec.ofNat 32 (UR_CFG_GROUP 7).reg), 1, 7, (by decide +kernel), (by decide +kernel), (by decide +kernel), (by decide +kernel), (by decide +kernel), (by decide +kernel)⟩,
   ⟨State.reset, 0, (BitVec.ofNat 32 (UR_CFG_GROUP 7).reg), 7, (by decide +kernel), (by decide +kernel), (by decide +kernel), (by decide +kernel), (by decide +kernel)⟩,
   ⟨(State.reset.cset UIQ_STAT_FULL_SEEN 1), 0, (BitVec.ofNat 32 UIQ_STAT_FULL_SEEN.reg), (by decide +kernel), (by decide +kernel), (by decide +kernel)⟩,
   ⟨((State.reset.cset (FWL_WLIM_LIMIT 1) 0xFFFFFFFF)), 0, 0x2000000, (by decide +kernel), (by decide +kernel), (by decide +kernel)⟩,
   ⟨(State.reset.cset FRN_HEAD_SLICE 0x500000007), 0, (BitVec.ofNat 32 FRN_HEAD_SLICE.reg), (by decide +kernel), (by decide +kernel), (by decide +kernel)⟩,
   ⟨((State.reset.cset TRG_CNT0_ACCEPT 5).cset TRG_CNT0_MERGED 6), 0, (BitVec.ofNat 32 TRG_CNT0_ACCEPT.reg), (by decide +kernel), (by decide +kernel), (by decide +kernel)⟩,
   ⟨(State.reset.cset FWL_STAT_FROZEN 0x20000), 0, 49, 17, 0, (by decide +kernel), (by decide +kernel), (by decide +kernel), (by decide +kernel), (by decide +kernel), (by decide +kernel), (by decide +kernel), (by decide +kernel)⟩,
   ⟨(State.reset.cset FWL_STAT_FROZEN 0x10000), 0, 48, 16, (by decide +kernel), (by decide +kernel), (by decide +kernel), (by decide +kernel), (by decide +kernel), (by decide +kernel), (by decide +kernel), (by decide +kernel)⟩,
   ⟨State.reset, 0, 33, 1, (by decide +kernel), (by decide +kernel), (by decide +kernel), (by decide +kernel), (by decide +kernel)⟩,
   ⟨(((runSt { bkThawAt := some 0 }).cset FWL_STAT_FROZEN 0x20000).cset FWL_CTRL_BK_THAW 1), 0, (by decide +kernel), (by decide +kernel), (by decide +kernel), (by decide +kernel), (by decide +kernel)⟩⟩

theorem witness_TheServiceProcessorStopsAndRestarts :
    (∃ (s : State) (t : Nat) (c : _), s.sp.lsTick = some t ∧ t + 250 ≤ s.tm.tick ∧ s.con GLB_STAT_RECOVERY = false ∧ c < 16 ∧ s.mvState c ≠ 5 ∧ s.mvState c ≠ 7) ∧
    (∃ (s : State) (a : BitVec 20), s.spDown = false ∧ s.permitted 0 .control a.toNat .fetch = false) ∧
    (∃ (s : State) (a : BitVec 20) (i : _), s.spDown = false ∧ s.permitted 0 .control a.toNat .fetch = true ∧ 0x1000 ≤ a.toNat ∧ (∀ t, s.sp.trapTick = some t → t + 250 < s.tm.tick) ∧ i / 512 = a.toNat / 4096) ∧
    (∃ (s : State) (a : BitVec 20), s.spDown = false ∧ s.con GLB_STAT_RECOVERY = false ∧ s.permitted 0 .control a.toNat .fetch = true ∧ a.toNat < 0x1000) ∧
    (∃ (s : State) (m : MasterIx) (v : W32), s.frozen m = false ∧ s.permitted m .control SP_WDOG_KICK.reg .write = true ∧ bitAt v.toNat 0 = true) ∧
    (∃ (s : State), s.con SP_STAT_RUN = true ∧ s.sp.kickTick + 125000 ≤ s.tm.tick) ∧
    (∃ (s : State) (w : W64), s.cramWord s.sp.scrubPos = some w ∧ s.sp.scrubPos < 131071 ∧ s.sp.cramBad = []) ∧
    (∃ (s : State), s.sp.scrubPos = 131071 ∧ s.sp.passDirty = false ∧ s.sp.cramBad = []) :=
  ⟨⟨(tk 250 (runSt { lsTick := some 0, stopped := true })), 0, 0, (by decide +kernel), (by decide +kernel), (by decide +kernel), (by decide +kernel), (by decide +kernel), (by decide +kernel)⟩,
   ⟨(runSt {}), 0xFFFFC, (by decide +kernel), (by decide +kernel)⟩,
   ⟨(tk 251 (runSt { trapTick := some 0, cramBad := [512, 1024] })), 0x1000, ((600 : Nat)), (by decide +kernel), (by decide +kernel), (by decide +kernel), (of_optAll (by decide +kernel)), (by decide +kernel)⟩,
   ⟨(runSt {}), 0xFFF, (by decide +kernel), (by decide +kernel), (by decide +kernel), (by decide +kernel)⟩,
   ⟨(runSt {}), 0, 1, (by decide +kernel), (by decide +kernel), (by decide +kernel)⟩,
   ⟨(tk 125000 (runSt {})), (by decide +kernel), (by decide +kernel)⟩,
   ⟨(runSt { scrubPos := 131070, cram := [(131070, some 77)] }), 77, (by decide +kernel), (by decide +kernel), (by decide +kernel)⟩,
   ⟨(runSt { scrubPos := 131071 }), (by decide +kernel), (by decide +kernel), (by decide +kernel)⟩⟩

theorem witness_TheMailboxAnswersEveryPacket :
    (∃ (s : State) (w : W64) (j : Fin 8), s.upl.inbound = [{ word := w, end_ := true, lane := j.val }] ∧ s.upl.inLens = [8] ∧ bits w.toNat 40 16 = 0 ∧ 9 < (bits w.toNat 8 8)) ∧
    (∃ (s : State) (w : W64) (j : Fin 8), s.upl.inbound = [{ word := w, end_ := true, lane := j.val }] ∧ s.upl.inLens = [8] ∧ bits w.toNat 40 16 = 0 ∧ (bits w.toNat 8 8) ≤ 9 ∧ s.preReply (s.laneOf j) (bits w.toNat 8 8) (bits w.toNat 16 8) (bits w.toNat 24 16) = none ∧ (bits w.toNat 16 8) ∈ serviceCommands (bits w.toNat 8 8)) ∧
    (∃ (s : State) (w : W64) (j : Fin 8), s.upl.inbound = [{ word := w, end_ := true, lane := j.val }] ∧ s.upl.inLens = [8] ∧ bits w.toNat 40 16 = 0 ∧ (bits w.toNat 8 8) ≤ 9 ∧ s.preReply (s.laneOf j) (bits w.toNat 8 8) (bits w.toNat 16 8) (bits w.toNat 24 16) = none ∧ (bits w.toNat 16 8) ∉ serviceCommands (bits w.toNat 8 8)) ∧
    (∃ (s : State) (j : Fin 8) (tag : BitVec 16) (a : W32) (d : _) (z : _), a.toNat % 4 = 0 ∧ s.sp.taken = none ∧ s.preReply (s.laneOf j) 0 1 tag.toNat = none ∧ s.permitted 17 .control a.toNat .read = true ∧ s.busRead 17 a.toNat = (false, d, z)) ∧
    (∃ (s : State) (j : Fin 8) (tag : BitVec 16) (a : W32), a.toNat % 4 = 0 ∧ s.sp.taken = none ∧ s.preReply (s.laneOf j) 0 1 tag.toNat = none ∧ s.permitted 17 .control a.toNat .read = false) ∧
    (∃ (s : State) (j : Fin 8) (tag : BitVec 16) (a : W32) (v : W32) (z : _), a.toNat % 4 = 0 ∧ s.sp.taken = none ∧ s.preReply (s.laneOf j) 0 2 tag.toNat = none ∧ s.permitted 17 .control a.toNat .write = true ∧ s.busWriteTag 17 a.toNat v.toNat tag.toNat = (z, false)) ∧
    (∃ (s : State) (j : Fin 8) (tag : BitVec 16) (a : W32) (v : W32) (z : _), a.toNat % 4 = 0 ∧ s.sp.taken = none ∧ s.preReply (s.laneOf j) 0 2 tag.toNat = none ∧ s.permitted 17 .control a.toNat .write = true ∧ s.busWriteTag 17 a.toNat v.toNat tag.toNat = (z, true)) ∧
    (∃ (s : State) (j : Fin 8) (tag : BitVec 16) (mode : Byte), s.sp.taken = none ∧ s.permitted 0 .control TRG_CTRL_MODE.reg .write = true ∧ s.preReply (s.laneOf j) 1 2 tag.toNat = none ∧ mode.toNat ≤ 2 ∧ (mode.toNat = s.cget TRG_CTRL_MODE ∨ s.con TRG_CTRL_ARM = false) ∧ s.con TRG_STAT_ARMED = false ∧ s.twinStandby = false) ∧
    (∃ (s : State) (j : Fin 8) (tag : BitVec 16) (mode : Byte), s.sp.taken = none ∧ s.permitted 0 .control TRG_CTRL_MODE.reg .write = true ∧ s.preReply (s.laneOf j) 1 2 tag.toNat = none ∧ mode.toNat ≤ 2 ∧ mode.toNat ≠ s.cget TRG_CTRL_MODE ∧ s.con TRG_CTRL_ARM = true) ∧
    (∃ (s : State) (j : Fin 8) (tag : BitVec 16), s.sp.taken = none ∧ s.permitted 0 .control TRG_CTRL_MODE.reg .write = true ∧ s.preReply (s.laneOf j) 1 3 tag.toNat = none ∧ s.con TRG_STAT_ARMED = true) ∧
    (∃ (s : State) (j : Fin 8) (tag : BitVec 16), s.sp.taken = none ∧ s.permitted 0 .control TRG_CTRL_MODE.reg .write = true ∧ s.preReply (s.laneOf j) 1 1 tag.toNat = none) :=
  ⟨⟨({ runSt {} with upl := { inbound := [⟨0x1234010A00, true, 3⟩], inLens := [8] } }), 0x1234010A00, 3, (by decide +kernel), (by decide +kernel), (by decide +kernel), (by decide +kernel)⟩,
   ⟨({ runSt {} with upl := { inbound := [⟨0x1234010900, true, 3⟩], inLens := [8] } }), 0x1234010900, 3, (by decide +kernel), (by decide +kernel), (by decide +kernel), (by decide +kernel), (by decide +kernel), (by decide +kernel)⟩,
   ⟨({ runSt {} with upl := { inbound := [⟨0x1234020900, true, 3⟩], inLens := [8] } }), 0x1234020900, 3, (by decide +kernel), (by decide +kernel), (by decide +kernel), (by decide +kernel), (by decide +kernel), (by decide +kernel)⟩,
   ⟨(runSt {}), 0, 0x1234, 0x200020, (((runSt {}).busRead 17 (0x200020 : W32).toNat).2.1), (((runSt {}).busRead 17 (0x200020 : W32).toNat).2.2), (by decide +kernel), (by decide +kernel), (by decide +kernel), (by decide +kernel), (by decide +kernel)⟩,
   ⟨(runSt {}), 0, 0x1234, 0x800000, (by decide +kernel), (by decide +kernel), (by decide +kernel), (by decide +kernel)⟩,
   ⟨(runSt {}), 0, 0x1234, (BitVec.ofNat 32 (TRG_SRC_PRE_PRE 16).reg), 0xFFFFFFFF, (((runSt {}).busWriteTag 17 (BitVec.ofNat 32 (TRG_SRC_PRE_PRE 16).reg).toNat (0xFFFFFFFF : W32).toNat (0x1234 : BitVec 16).toNat).1), (by decide +kernel), (by decide +kernel), (by decide +kernel), (by decide +kernel), (by decide +kernel)⟩,
   ⟨(runSt {}), 0, 0x1234, 0x1FFFFFC, 0xFFFFFFFF, (((runSt {}).busWriteTag 17 (0x1FFFFFC : W32).toNat (0xFFFFFFFF : W32).toNat (0x1234 : BitVec 16).toNat).1), (by decide +kernel), (by decide +kernel), (by decide +kernel), (by decide +kernel), (by decide +kernel)⟩,
   ⟨(runSt {}), 0, 0x1234, 2, (by decide +kernel), (by decide +kernel), (by decide +kernel), (by decide +kernel), (by decide +kernel), (by decide +kernel), (by decide +kernel)⟩,
   ⟨((runSt {}).cset TRG_CTRL_ARM 1), 0, 0x1234, 2, (by decide +kernel), (by decide +kernel), (by decide +kernel), (by decide +kernel), (by decide +kernel), (by decide +kernel)⟩,
   ⟨(((runSt {}).cset TRG_CTRL_ARM 1).cset TRG_STAT_ARMED 1), 0, 0x1234, (by decide +kernel), (by decide +kernel), (by decide +kernel), (by decide +kernel)⟩,
   ⟨(runSt {}), 0, 0x1234, (by decide +kernel), (by decide +kernel), (by decide +kernel)⟩⟩

theorem witness_ServicesRunTheirCommands :
    (∃ (s : State) (j : Fin 8) (tag : BitVec 16) (body : _), s.sp.taken = none ∧ (∀ svc cmd, s.preReply (s.laneOf j) svc cmd tag.toNat = none) ∧ body.length = 16 ∧ (bodyNat body 0 2) ≤ (bodyNat body 2 2) ∧ (bodyNat body 2 2) ≤ 1023 ∧ (bodyNat body 4 1) ≤ 2 ∧ 0 < bodyNat body 5 2 ∧ (bodyNat body 8 2) ≤ (bodyNat body 10 2) ∧ (bodyNat body 10 2) ≤ 1023 ∧ 0 < bodyNat body 12 2 ∧ bodyNat body 14 2 = 0 ∧ s.busy 2 = false ∧ (bodyNat body 10 2) / 512 = (bodyNat body 8 2) / 512) ∧
    (∃ (s : State) (j : Fin 8) (tag : BitVec 16) (x : _) (p : _), s.sp.taken = none ∧ (∀ svc cmd, s.preReply (s.laneOf j) svc cmd tag.toNat = none) ∧ s.sp.scan = some x ∧ x.ended = false ∧ x.gap = 0 ∧ x.sent + 1 < x.m ∧ x.first ≤ p ∧ p ≤ x.last) ∧
    (∃ (s : State) (j : Fin 8) (tag : BitVec 16) (body : List Byte), s.sp.taken = none ∧ (∀ svc cmd, s.preReply (s.laneOf j) svc cmd tag.toNat = none) ∧ body.length ≠ 16) ∧
    (∃ (s : State) (j : Fin 8) (tag : BitVec 16) (body : _), s.sp.taken = none ∧ (∀ svc cmd, s.preReply (s.laneOf j) svc cmd tag.toNat = none) ∧ body.length = 8 ∧ bodyNat body 0 2 ≤ 1023 ∧ 0 < bodyNat body 2 4 ∧ bodyNat body 2 4 ≤ 2 ^ 24 ∧ bodyNat body 6 2 = 0 ∧ s.busy 3 = false) ∧
    (∃ (s : State) (j : Fin 8) (tag : BitVec 16) (body : _), s.sp.taken = none ∧ (∀ svc cmd, s.preReply (s.laneOf j) svc cmd tag.toNat = none) ∧ body.length = 8 ∧ bodyNat body 0 2 ≤ 1023 ∧ 0 < bodyNat body 2 4 ∧ bodyNat body 2 4 ≤ 2 ^ 24 ∧ bodyNat body 6 2 = 0 ∧ s.busy 3 = true) ∧
    (∃ (s : State) (j : Fin 8) (tag : BitVec 16) (l : _) (h : _), s.sp.taken = none ∧ (∀ svc cmd, s.preReply (s.laneOf j) svc cmd tag.toNat = none) ∧ s.sp.longs = [l] ∧ l.service = 3 ∧ s.sp.hist = some h ∧ h.from_ + h.frames + 4 ≤ s.frame) ∧
    (∃ (s : State) (j : Fin 8) (tag : BitVec 16) (l : _) (h : _), s.sp.taken = none ∧ (∀ svc cmd, s.preReply (s.laneOf j) svc cmd tag.toNat = none) ∧ s.sp.longs = [l] ∧ l.service = 3 ∧ s.sp.hist = some h ∧ s.frame < h.from_ + h.frames + 4) ∧
    (∃ (s : State) (j : Fin 8) (tag : BitVec 16) (l : _) (x : _), s.sp.taken = none ∧ (∀ svc cmd, s.preReply (s.laneOf j) svc cmd tag.toNat = none) ∧ s.sp.longs = [l] ∧ l.service = 2 ∧ s.sp.scan = some x ∧ x.failed = none ∧ x.ended = true ∧ x.endTick + 6 ≤ s.tm.tick ∧ x.cmd = 4) ∧
    (∃ (s : State) (j : Fin 8) (tag : BitVec 16) (l : _) (x : _), s.sp.taken = none ∧ (∀ svc cmd, s.preReply (s.laneOf j) svc cmd tag.toNat = none) ∧ s.sp.longs = [l] ∧ l.service = 2 ∧ s.sp.scan = some x ∧ x.failed = none ∧ x.ended = true ∧ x.endTick + 6 ≤ s.tm.tick ∧ x.cmd = 3) ∧
    (∃ (s : State) (j : Fin 8) (tag : BitVec 16) (l : _) (x : _) (p : _), s.sp.taken = none ∧ (∀ svc cmd, s.preReply (s.laneOf j) svc cmd tag.toNat = none) ∧ s.sp.longs = [l] ∧ l.service = 2 ∧ s.sp.scan = some x ∧ x.failed = some p) ∧
    (∃ (s : State) (j : Fin 8) (tag : BitVec 16) (l : _) (x : _), s.sp.taken = none ∧ (∀ svc cmd, s.preReply (s.laneOf j) svc cmd tag.toNat = none) ∧ s.sp.longs = [l] ∧ l.service = 2 ∧ s.sp.scan = some x ∧ x.failed = none ∧ x.ended = false) ∧
    (∃ (s : State) (j : Fin 8) (tag : BitVec 16) (body : _), s.sp.taken = none ∧ (∀ svc cmd, s.preReply (s.laneOf j) svc cmd tag.toNat = none) ∧ body.length = 2 ∧ 10 ≤ bodyNat body 0 2 ∧ bodyNat body 0 2 ≤ 60000) ∧
    (∃ (s : State) (j : Fin 8) (tag : BitVec 16) (body : _), s.sp.taken = none ∧ (∀ svc cmd, s.preReply (s.laneOf j) svc cmd tag.toNat = none) ∧ body.length = 2 ∧ bodyNat body 0 2 < 10) ∧
    (∃ (s : State) (j : Fin 8) (tag : BitVec 16) (n : _), s.sp.taken = none ∧ (∀ svc cmd, s.preReply (s.laneOf j) svc cmd tag.toNat = none) ∧ s.sp.monPeriod = some n ∧ s.sp.monTick + n * 250 ≤ s.tm.tick) ∧
    (∃ (s : State) (j : Fin 8) (tag : BitVec 16) (body : List Byte), s.sp.taken = none ∧ (∀ svc cmd, s.preReply (s.laneOf j) svc cmd tag.toNat = none) ∧ body.length ≠ 10) ∧
    (∃ (s : State) (j : Fin 8) (tag : BitVec 16) (body : _), s.sp.taken = none ∧ (∀ svc cmd, s.preReply (s.laneOf j) svc cmd tag.toNat = none) ∧ body.length = 10 ∧ bodyNat body 0 2 ≠ 0xA5C3) ∧
    (∃ (s : State) (j : Fin 8) (tag : BitVec 16) (body : _), s.sp.taken = none ∧ (∀ svc cmd, s.preReply (s.laneOf j) svc cmd tag.toNat = none) ∧ body.length = 10 ∧ bodyNat body 0 2 = 0xA5C3 ∧ s.con TIM_STAT_STEP_PEND = false) ∧
    (∃ (s : State) (j : Fin 8) (tag : BitVec 16) (body : _), s.sp.taken = none ∧ (∀ svc cmd, s.preReply (s.laneOf j) svc cmd tag.toNat = none) ∧ body.length = 10 ∧ bodyNat body 0 2 = 0xA5C3 ∧ s.con TIM_STAT_STEP_PEND = true ∧ bodyNat body 2 8 ≠ s.cget TIM_STEP_VAL_VAL) ∧
    (∃ (s : State) (j : Fin 8) (tag : BitVec 16) (body : _), s.sp.taken = none ∧ (∀ svc cmd, s.preReply (s.laneOf j) svc cmd tag.toNat = none) ∧ body.length = 10 ∧ bodyNat body 0 2 = 0xA5C3 ∧ s.con TIM_STAT_STEP_PEND = true ∧ bodyNat body 2 8 = s.cget TIM_STEP_VAL_VAL ∧ s.stepBlocked s.stepVal = true) ∧
    (∃ (s : State) (j : Fin 8) (tag : BitVec 16) (body : _), s.sp.taken = none ∧ (∀ svc cmd, s.preReply (s.laneOf j) svc cmd tag.toNat = none) ∧ body.length = 10 ∧ bodyNat body 0 2 = 0xA5C3 ∧ s.con TIM_STAT_STEP_PEND = true ∧ bodyNat body 2 8 = s.cget TIM_STEP_VAL_VAL ∧ s.stepBlocked s.stepVal = false) ∧
    (∃ (s : State) (j : Fin 8) (tag : BitVec 16) (body : _), s.sp.taken = none ∧ (∀ svc cmd, s.preReply (s.laneOf j) svc cmd tag.toNat = none) ∧ body.length = 4 ∧ 0 < bodyNat body 2 2 ∧ bodyNat body 2 2 ≤ 1024) :=
  ⟨⟨calSt, 3, 0x1234, calBody, (by decide +kernel), (noReply (by decide +kernel)), (by decide +kernel), (by decide +kernel), (by decide +kernel), (by decide +kernel), (by decide +kernel), (by decide +kernel), (by decide +kernel), (by decide +kernel), (by decide +kernel), (by decide +kernel), (by decide +kernel)⟩,
   ⟨(runSt { scan := some scan0 }), 3, 0x1234, scan0, ((3 : Nat)), (by decide +kernel), (noReply (by decide +kernel)), (by decide +kernel), (by decide +kernel), (by decide +kernel), (by decide +kernel), (by decide +kernel), (by decide +kernel)⟩,
   ⟨(runSt {}), 3, 0x1234, (([] : List Byte)), (by decide +kernel), (noReply (by decide +kernel)), (by decide +kernel)⟩,
   ⟨(runSt {}), 3, 0x1234, (leBytes 2 1023 ++ leBytes 4 0x1000000 ++ [0, 0]), (by decide +kernel), (noReply (by decide +kernel)), (by decide +kernel), (by decide +kernel), (by decide +kernel), (by decide +kernel), (by decide +kernel), (by decide +kernel)⟩,
   ⟨(runSt { longs := [⟨3, 0, 3, 1, 7, [], []⟩] }), 3, 0x1234, (leBytes 2 1023 ++ leBytes 4 0x1000000 ++ [0, 0]), (by decide +kernel), (noReply (by decide +kernel)), (by decide +kernel), (by decide +kernel), (by decide +kernel), (by decide +kernel), (by decide +kernel), (by decide +kernel)⟩,
   ⟨(frmSt2 10 (runSt { longs := [⟨3, 0, 3, 1, 7, [], []⟩], hist := some ⟨5, 2, 4, []⟩ })), 3, 0x1234, (⟨3, 0, 3, 1, 7, [], []⟩), (⟨5, 2, 4, []⟩), (by decide +kernel), (noReply (by decide +kernel)), (by decide +kernel), (by decide +kernel), (by decide +kernel), (by decide +kernel)⟩,
   ⟨(frmSt2 9 (runSt { longs := [⟨3, 0, 3, 1, 7, [], []⟩], hist := some ⟨5, 2, 4, []⟩ })), 3, 0x1234, (⟨3, 0, 3, 1, 7, [], []⟩), (⟨5, 2, 4, []⟩), (by decide +kernel), (noReply (by decide +kernel)), (by decide +kernel), (by decide +kernel), (by decide +kernel), (by decide +kernel)⟩,
   ⟨(tk 9 (runSt { longs := [⟨3, 0, 2, 3, 7, [], []⟩], scan := some { scan0 with ended := true, endTick := 3, cmd := 4 } })), 3, 0x1234, (⟨3, 0, 2, 3, 7, [], []⟩), ({ scan0 with ended := true, endTick := 3, cmd := 4 }), (by decide +kernel), (noReply (by decide +kernel)), (by decide +kernel), (by decide +kernel), (by decide +kernel), (by decide +kernel), (by decide +kernel), (by decide +kernel), (by decide +kernel)⟩,
   ⟨(tk 9 (runSt { longs := [⟨3, 0, 2, 3, 7, [], []⟩], scan := some { scan0 with ended := true, endTick := 3 } })), 3, 0x1234, (⟨3, 0, 2, 3, 7, [], []⟩), ({ scan0 with ended := true, endTick := 3 }), (by decide +kernel), (noReply (by decide +kernel)), (by decide +kernel), (by decide +kernel), (by decide +kernel), (by decide +kernel), (by decide +kernel), (by decide +kernel), (by decide +kernel)⟩,
   ⟨(runSt { longs := [⟨3, 0, 2, 3, 7, [], []⟩], scan := some { scan0 with failed := some 3 } }), 3, 0x1234, (⟨3, 0, 2, 3, 7, [], []⟩), ({ scan0 with failed := some 3 }), 3, (by decide +kernel), (noReply (by decide +kernel)), (by decide +kernel), (by decide +kernel), (by decide +kernel), (by decide +kernel)⟩,
   ⟨(runSt { longs := [⟨3, 0, 2, 3, 7, [], []⟩], scan := some scan0 }), 3, 0x1234, (⟨3, 0, 2, 3, 7, [], []⟩), scan0, (by decide +kernel), (noReply (by decide +kernel)), (by decide +kernel), (by decide +kernel), (by decide +kernel), (by decide +kernel), (by decide +kernel)⟩,
   ⟨(runSt {}), 3, 0x1234, (leBytes 2 60000), (by decide +kernel), (noReply (by decide +kernel)), (by decide +kernel), (by decide +kernel), (by decide +kernel)⟩,
   ⟨(runSt {}), 3, 0x1234, (leBytes 2 9), (by decide +kernel), (noReply (by decide +kernel)), (by decide +kernel), (by decide +kernel)⟩,
   ⟨(tk 2500 (runSt { monPeriod := some 10 })), 3, 0x1234, 10, (by decide +kernel), (noReply (by decide +kernel)), (by decide +kernel), (by decide +kernel)⟩,
   ⟨(runSt {}), 3, 0x1234, (([] : List Byte)), (by decide +kernel), (noReply (by decide +kernel)), (by decide +kernel)⟩,
   ⟨(runSt {}), 3, 0x1234, (leBytes 2 0xA5C4 ++ leBytes 8 77), (by decide +kernel), (noReply (by decide +kernel)), (by decide +kernel), (by decide +kernel)⟩,
   ⟨(runSt {}), 3, 0x1234, (leBytes 2 0xA5C3 ++ leBytes 8 77), (by decide +kernel), (noReply (by decide +kernel)), (by decide +kernel), (by decide +kernel), (by decide +kernel)⟩,
   ⟨stepPend, 3, 0x1234, (leBytes 2 0xA5C3 ++ leBytes 8 78), (by decide +kernel), (noReply (by decide +kernel)), (by decide +kernel), (by decide +kernel), (by decide +kernel), (by decide +kernel)⟩,
   ⟨(((stepPend.cset TRG_STAT_ARMED 1).cset TIM_STAT_INIT_SET 1).cset TIM_STEP_VAL_VAL (2 ^ 64 - 4000)), 3, 0x1234, (leBytes 2 0xA5C3 ++ leBytes 8 (2 ^ 64 - 4000)), (by decide +kernel), (noReply (by decide +kernel)), (by decide +kernel), (by decide +kernel), (by decide +kernel), (by decide +kernel), (by decide +kernel)⟩,
   ⟨stepPend, 3, 0x1234, (leBytes 2 0xA5C3 ++ leBytes 8 77), (by decide +kernel), (noReply (by decide +kernel)), (by decide +kernel), (by decide +kernel), (by decide +kernel), (by decide +kernel), (by decide +kernel)⟩,
   ⟨(runSt {}), 3, 0x1234, ([0, 0] ++ leBytes 2 1024), (by decide +kernel), (noReply (by decide +kernel)), (by decide +kernel), (by decide +kernel), (by decide +kernel)⟩⟩

theorem witness_MoverChannelsFollowTheirStates :
    (∃ (s : State) (c : MvIx) (m : MasterIx) (v : W32), s.frozen m = false ∧ s.permitted m .control (MV_CH_CTRL_START c).reg .write = true ∧ v.toNat % 8 = 1 ∧ (s.mvState c = 0 ∨ s.mvState c = 5)) ∧
    (∃ (s : State) (c : MvIx) (m : MasterIx) (v : W32), s.frozen m = false ∧ s.permitted m .control (MV_CH_CTRL_START c).reg .write = true ∧ v.toNat % 8 = 1 ∧ s.mvState c ≠ 0 ∧ s.mvState c ≠ 5) ∧
    (∃ (s : State) (c : MvIx) (m : MasterIx) (v : W32), s.frozen m = false ∧ s.permitted m .control (MV_CH_CTRL_START c).reg .write = true ∧ v.toNat % 8 = 2 ∧ s.mvState c = 2 ∧ (s.mch c).fld 2 36 4 = 12) ∧
    (∃ (s : State) (c : MvIx) (m : MasterIx) (v : W32), s.frozen m = false ∧ s.permitted m .control (MV_CH_CTRL_START c).reg .write = true ∧ v.toNat % 8 = 4 ∧ 1 ≤ s.mvState c ∧ s.mvState c ≤ 4 ∧ (s.frozen (1 + c.val) = false ∧ s.permitted (1 + c.val) .control (32 * s.cget (MV_CH_CUR_IDX c) + 24) .write = true)) ∧
    (∃ (s : State) (c : MvIx) (ds : List W64) (z : State), s.mvState c = 1 ∧ s.mvReadDesc c (32 * s.cget (MV_CH_CUR_IDX c)) 4 = (ds, true, z) ∧ z.frozen (1 + c.val) = false ∧ z.mvState c = 1 ∧ z.cget (MV_CH_STAT_PENDING c) = 0 ∧ z.portsDark = false ∧ ({ desc := ds } : MvCh).valid = true) ∧
    (∃ (s : State) (c : MvIx) (ds : List W64) (z : State), s.mvState c = 1 ∧ s.mvReadDesc c (32 * s.cget (MV_CH_CUR_IDX c)) 4 = (ds, true, z) ∧ z.frozen (1 + c.val) = false ∧ z.mvState c = 1 ∧ z.cget (MV_CH_STAT_PENDING c) = 0 ∧ z.portsDark = false ∧ ({ desc := ds } : MvCh).valid = false ∧ z.permitted (1 + c.val) .control (32 * z.cget (MV_CH_CUR_IDX c) + 24) .write = true) ∧
    (∃ (s : State) (c : MvIx) (w : W64) (x : MvCh) (i : _), s.mvState c = 3 ∧ s.mch c = x ∧ x.moved = 0 ∧ x.released = 8 ∧ x.fld 2 0 24 = 8 ∧ x.fld 2 24 3 = 0 ∧ x.fld 2 27 3 = 0 ∧ x.fld 2 30 3 = 3 ∧ x.fld 2 33 3 = 3 ∧ x.fld 2 44 1 = 0 ∧ ((x.desc.getD 0 0).toNat) % 8 = 0 ∧ ((x.desc.getD 1 0).toNat) % 8 = 0 ∧ s.frozen (1 + c.val) = false ∧ s.permitted (1 + c.val) .control ((x.desc.getD 0 0).toNat) .read = true ∧ s.permitted (1 + c.val) .control ((x.desc.getD 1 0).toNat) .write = true ∧ s.cramWord (((x.desc.getD 0 0).toNat) / 8) = some w ∧ ((x.desc.getD 0 0).toNat) / 8 ∉ s.sp.cramBad ∧ i ≠ ((x.desc.getD 1 0).toNat) / 8) ∧
    (∃ (s : State) (c : MvIx), s.mvState c = 4 ∧ s.frozen (1 + c.val) = false ∧ s.permitted (1 + c.val) .control (32 * s.cget (MV_CH_CUR_IDX c) + 24) .write = true ∧ (s.mch c).fld 2 45 1 = 0 ∧ (s.mch c).fld 3 15 1 = 1) ∧
    (∃ (s : State) (c : MvIx), s.mvState c = 4 ∧ s.frozen (1 + c.val) = false ∧ s.permitted (1 + c.val) .control (32 * s.cget (MV_CH_CUR_IDX c) + 24) .write = true ∧ (s.mch c).fld 2 45 1 = 0 ∧ (s.mch c).fld 3 15 1 = 0) ∧
    (∃ (s : State) (n : Fin 8) (c : MvIx), s.cget (MV_TMR_PERIOD n) ≠ 0 ∧ s.mvState c = 2 ∧ (s.mch c).fld 2 36 4 = n.val + 1 ∧ tget s.sp.tmrAt n 0 + 2 * s.cget (MV_TMR_PERIOD n) < (s.tm.tick + 1) * 4000) ∧
    (∃ (s : State) (n : Fin 8) (c : MvIx), s.cget (MV_TMR_PERIOD n) ≠ 0 ∧ s.mvState c = 2 ∧ (s.mch c).fld 2 36 4 = n.val + 1 ∧ (s.tm.tick + 1) * 4000 ≤ tget s.sp.tmrAt n 0 + 2 * s.cget (MV_TMR_PERIOD n)) ∧
    (∃ (s : State) (c : MvIx), s.frozen (1 + c.val) = false ∧ s.permitted (1 + c.val) .control (32 * s.cget (MV_CH_CUR_IDX c) + 24) .write = true ∧ s.mvState c = 2 ∧ (s.mch c).waitTick + 2500 * max 1 (s.cget (MV_CH_CFG_PTMO c)) ≤ s.tm.tick) ∧
    (∃ (s : State) (c : MvIx) (t : _), s.frozen (1 + c.val) = false ∧ s.permitted (1 + c.val) .control (32 * s.cget (MV_CH_CUR_IDX c) + 24) .write = true ∧ s.mvState c = 3 ∧ s.upl.inbound = [] ∧ (s.mch c).emptyAt = some t ∧ t + 1000 * max 1 (s.cget MV_CTRL_QTMO) < (s.tm.tick + 1) * 4000) ∧
    (∃ (s : State) (c : MvIx), s.frozen (1 + c.val) = false ∧ s.permitted (1 + c.val) .control (32 * s.cget (MV_CH_CUR_IDX c) + 24) .write = true ∧ (s.mch c).powerWait = true ∧ (s.mch c).powerTick + 16 ≤ s.tm.tick) ∧
    (∃ (s : State) (c : MvIx) (d : MvIx), s.mvState c = 3 ∧ c ≠ d ∧ s.mvState d ≠ 5 ∧ s.mvState d ≠ 7) ∧
    (∃ (s : State) (m : MasterIx) (v : W32) (c : MvIx), s.frozen m = false ∧ s.permitted m .control MV_CTRL_CLEAR.reg .write = true ∧ bitAt v.toNat 0 = true ∧ s.mvState c = 6) :=
  ⟨⟨(mvSt 5 {}), 2, 0, 1, (by decide +kernel), (by decide +kernel), (by decide +kernel), (by decide +kernel)⟩,
   ⟨(mvSt 6 {}), 2, 0, 1, (by decide +kernel), (by decide +kernel), (by decide +kernel), (by decide +kernel), (by decide +kernel)⟩,
   ⟨(mvSt 2 { desc := mvDesc 0x1000 0 0 3 3 12 0x8000 }), 2, 0, 2, (by decide +kernel), (by decide +kernel), (by decide +kernel), (by decide +kernel), (by decide +kernel)⟩,
   ⟨(mvSt 4 { desc := mvDesc 0x1000 0 0 3 3 12 0x8000 }), 2, 0, 4, (by decide +kernel), (by decide +kernel), (by decide +kernel), (by decide +kernel), (by decide +kernel), (by decide +kernel)⟩,
   ⟨({ mvSt 1 {} with sp := { cram := (mvDesc 8 0 0 3 3 5 0x8000).zipIdx.map fun e => (e.2, some e.1) } }), 2, (mvDesc 8 0 0 3 3 5 0x8000), (({ mvSt 1 {} with sp := { cram := (mvDesc 8 0 0 3 3 5 0x8000).zipIdx.map fun e => (e.2, some e.1) } })), (by decide +kernel), (by decide +kernel), (by decide +kernel), (by decide +kernel), (by decide +kernel), (by decide +kernel), (by decide +kernel)⟩,
   ⟨({ mvSt 1 {} with sp := { cram := (mvDesc 7 0 0 3 3 5 0x8000).zipIdx.map fun e => (e.2, some e.1) } }), 2, (mvDesc 7 0 0 3 3 5 0x8000), (({ mvSt 1 {} with sp := { cram := (mvDesc 7 0 0 3 3 5 0x8000).zipIdx.map fun e => (e.2, some e.1) } })), (by decide +kernel), (by decide +kernel), (by decide +kernel), (by decide +kernel), (by decide +kernel), (by decide +kernel), (by decide +kernel), (by decide +kernel)⟩,
   ⟨({ mvSt 3 { desc := mvDesc 8 0 0 3 3 0 0x8000, released := 8 } with sp := { cram := [(0x800, some 99)] } }), 2, 99, ({ desc := mvDesc 8 0 0 3 3 0 0x8000, released := 8 }), 0, (by decide +kernel), (by decide +kernel), (by decide +kernel), (by decide +kernel), (by decide +kernel), (by decide +kernel), (by decide +kernel), (by decide +kernel), (by decide +kernel), (by decide +kernel), (by decide +kernel), (by decide +kernel), (by decide +kernel), (by decide +kernel), (by decide +kernel), (by decide +kernel), (by decide +kernel), (by decide +kernel)⟩,
   ⟨(mvSt 4 { desc := mvDesc 8 0 0 3 3 0 0x8000 }), 2, (by decide +kernel), (by decide +kernel), (by decide +kernel), (by decide +kernel), (by decide +kernel)⟩,
   ⟨(mvSt 4 { desc := mvDesc 8 0 0 3 3 0 0 }), 2, (by decide +kernel), (by decide +kernel), (by decide +kernel), (by decide +kernel), (by decide +kernel)⟩,
   ⟨(tk 2 ((mvSt 2 { desc := mvDesc 8 0 0 3 3 5 0x8000 }).cset (MV_TMR_PERIOD 4) 5999)), 4, 2, (by decide +kernel), (by decide +kernel), (by decide +kernel), (by decide +kernel)⟩,
   ⟨(tk 2 ((mvSt 2 { desc := mvDesc 8 0 0 3 3 5 0x8000 }).cset (MV_TMR_PERIOD 4) 6000)), 4, 2, (by decide +kernel), (by decide +kernel), (by decide +kernel), (by decide +kernel)⟩,
   ⟨(tk 2500 ((mvSt 2 { desc := mvDesc 8 0 0 3 3 5 0x8000 }).cset (MV_CH_CFG_PTMO 2) 1)), 2, (by decide +kernel), (by decide +kernel), (by decide +kernel), (by decide +kernel)⟩,
   ⟨((mvSt 3 { desc := mvDesc 8 3 0 3 3 5 0x8000, emptyAt := some 2000 }).cset MV_CTRL_QTMO 1), 2, 2000, (by decide +kernel), (by decide +kernel), (by decide +kernel), (by decide +kernel), (by decide +kernel), (by decide +kernel)⟩,
   ⟨(tk 16 <| mvSt 3 { desc := mvDesc 8 3 0 3 3 5 0x8000, powerWait := true, powerTick := 0 }), 2, (by decide +kernel), (by decide +kernel), (by decide +kernel), (by decide +kernel)⟩,
   ⟨(mvSt 3 { desc := mvDesc 8 0 0 3 3 5 0x8000 }), 2, 15, (by decide +kernel), (by decide +kernel), (by decide +kernel), (by decide +kernel)⟩,
   ⟨(mvSt 6 {}), 0, 0x5501, 2, (by decide +kernel), (by decide +kernel), (by decide +kernel), (by decide +kernel)⟩⟩

theorem witness_StartAndResetsOfTheConcentrator :
    (∃ (s : State), s.pro.shutdown = false ∧ s.pro.rcause = 0 ∧ s.nvm.journal = [] ∧ s.nvm.slot0.seen = true) ∧
    (∃ (s : State) (h : ImgRead) (n : _), s.pro.shutdown = false ∧ s.pro.rcause = 0 ∧ s.nvm.journal = [] ∧ imgVerifies h.bytes h.sigOk = true ∧ (s.nvm.slot0.seen = false ∨ s.nvm.slot0.bytes = h.bytes) ∧ s.cget NVM_SLOT_ACTIVE = 0 ∧ s.cget NVM_SLOT_S0 = 3 ∧ 1000 ≤ n) ∧
    (∃ (s : State) (h : ImgRead), s.pro.shutdown = false ∧ s.nvm.journal = [.slot 1] ∧ imgVerifies h.bytes h.sigOk = true ∧ (s.nvm.slot0.seen = false ∨ s.nvm.slot0.bytes = h.bytes) ∧ s.cget NVM_SLOT_ACTIVE = 0 ∧ s.cget NVM_SLOT_S0 = 3) ∧
    (∃ (n : Nat), n < 800) ∧
    (∃ (s : State) (b0 : List Byte) (b1 : List Byte), s.con GLB_STAT_READY = false ∧ s.glb.configured = false ∧ s.nvm.known = false ∧ containerValid (containerOf b0) = false ∧ containerValid (containerOf b1) = false) ∧
    (∃ (s : State) (b0 : List Byte) (b1 : List Byte), s.con GLB_STAT_READY = false ∧ s.glb.configured = false ∧ s.nvm.known = false ∧ containerValid (containerOf b0) = true ∧ containerValid (containerOf b1) = true) ∧
    (∃ (s : State) (b0 : List Byte) (b1 : List Byte) (k : Byte) (v : W32), s.con GLB_STAT_READY = false ∧ s.glb.configured = false ∧ s.nvm.known = false ∧ containerValid (containerOf b0) = true ∧ containerValid (containerOf b1) = false ∧ (containerOf b0).recs = [.ident k, .reg (BitVec.ofNat 32 FRN_CTRL_QUOTA.reg) v] ∧ 5 ≤ v.toNat % 64 ∧ v.toNat % 64 ≤ 50) ∧
    (∃ (s : State) (b0 : List Byte) (b1 : List Byte) (k : Byte) (v : W32), s.con GLB_STAT_READY = false ∧ s.glb.configured = false ∧ s.nvm.known = false ∧ containerValid (containerOf b0) = true ∧ containerValid (containerOf b1) = false ∧ (containerOf b0).recs = [.ident k, .reg (BitVec.ofNat 32 FRN_CTRL_QUOTA.reg) v] ∧ (v.toNat % 64 < 5 ∨ 50 < v.toNat % 64)) ∧
    (∃ (s : State), s.con GLB_STAT_READY = false ∧ s.glb.configured = false ∧ s.nvm.known = true ∧ containerValid s.nvm.cont0 = true ∧ containerValid s.nvm.cont1 = false ∧ s.nvm.cont0.recs = []) ∧
    (∃ (s : State), s.con GLB_STAT_READY = false ∧ s.glb.configured = true ∧ s.con FRN_STAT_READY = true ∧ s.con TWIN_CFG_EN = true) ∧
    (∃ (s : State) (g : _), s.con GLB_STAT_READY = false ∧ s.glb.configured = true ∧ s.con FRN_STAT_READY = true ∧ g < s.groupCount) ∧
    (∃ (s : State) (m : MasterIx) (v : W32), s.frozen m = false ∧ s.permitted m .control GLB_RST_SOFT.reg .write = true ∧ bits v.toNat 16 16 ≠ 0xC3A5) ∧
    (∃ (s : State) (m : MasterIx) (v : W32) (c : _), s.frozen m = false ∧ s.permitted m .control GLB_RST_SOFT.reg .write = true ∧ bits v.toNat 16 16 = 0xC3A5 ∧ bits v.toNat 4 4 = 0 ∧ bitAt v.toNat 0 = true ∧ s.con GLB_STAT_RECOVERY = false ∧ c < 16 ∧ s.mvState c ≠ 5 ∧ s.mvState c ≠ 7) ∧
    (∃ (s : State) (m : MasterIx) (v : W32) (r : RgnIx) (p : _), s.frozen m = false ∧ s.permitted m .control GLB_RST_SOFT.reg .write = true ∧ bits v.toNat 16 16 = 0xC3A5 ∧ bits v.toNat 4 4 = 2 ^ r.val ∧ bitAt v.toNat 0 = false ∧ (s.rgn r).resetting = false ∧ p / 256 = r.val) ∧
    (∃ (s : State) (r : RgnIx), (s.rgn r).resetting = true) :=
  ⟨⟨({ State.reset with nvm := { slot0 := imgS } }), (by decide +kernel), (by decide +kernel), (by decide +kernel), (by decide +kernel)⟩,
   ⟨((State.reset.cset NVM_SLOT_ACTIVE 0).cset NVM_SLOT_S0 3), (⟨imgB, true⟩), 1000, (by decide +kernel), (by decide +kernel), (by decide +kernel), (by decide +kernel), (by decide +kernel), (by decide +kernel), (by decide +kernel), (by decide +kernel)⟩,
   ⟨({ (State.reset.cset NVM_SLOT_ACTIVE 0).cset NVM_SLOT_S0 3 with nvm := { journal := [.slot 1] } }), (⟨imgB, true⟩), (by decide +kernel), (by decide +kernel), (by decide +kernel), (by decide +kernel), (by decide +kernel), (by decide +kernel)⟩,
   ⟨799, (by decide +kernel)⟩,
   ⟨State.reset, (contB 5 false 0 []), ([]), (by decide +kernel), (by decide +kernel), (by decide +kernel), (by decide +kernel), (by decide +kernel)⟩,
   ⟨State.reset, (contB 5 true 0 []), (contB 6 true 0 []), (by decide +kernel), (by decide +kernel), (by decide +kernel), (by decide +kernel), (by decide +kernel)⟩,
   ⟨State.reset, (contB 5 true 2 (recB 1 [9, 0, 0, 0] ++ recB 2 (leBytes 4 FRN_CTRL_QUOTA.reg ++ leBytes 4 50))), (contB 6 false 0 []), 9, 50, (by decide +kernel), (by decide +kernel), (by decide +kernel), (by decide +kernel), (by decide +kernel), (by decide +kernel), (by decide +kernel), (by decide +kernel)⟩,
   ⟨State.reset, (contB 5 true 2 (recB 1 [9, 0, 0, 0] ++ recB 2 (leBytes 4 FRN_CTRL_QUOTA.reg ++ leBytes 4 51))), (contB 6 false 0 []), 9, 51, (by decide +kernel), (by decide +kernel), (by decide +kernel), (by decide +kernel), (by decide +kernel), (by decide +kernel), (by decide +kernel)⟩,
   ⟨({ State.reset with nvm := { known := true, cont0 := cont 7 true [], cont1 := cont 8 false [] } }), (by decide +kernel), (by decide +kernel), (by decide +kernel), (by decide +kernel), (by decide +kernel), (by decide +kernel)⟩,
   ⟨({ (State.reset.cset FRN_STAT_READY 1).cset TWIN_CFG_EN 1 with glb := { configured := true } }), (by decide +kernel), (by decide +kernel), (by decide +kernel), (by decide +kernel)⟩,
   ⟨({ State.reset.cset FRN_STAT_READY 1 with glb := { configured := true } }), 0, (by decide +kernel), (by decide +kernel), (by decide +kernel), (by decide +kernel)⟩,
   ⟨State.reset, 0, 0x00000001, (by decide +kernel), (by decide +kernel), (by decide +kernel)⟩,
   ⟨State.reset, 0, 0xC3A50001, 0, (by decide +kernel), (by decide +kernel), (by decide +kernel), (by decide +kernel), (by decide +kernel), (by decide +kernel), (by decide +kernel), (by decide +kernel), (by decide +kernel)⟩,
   ⟨State.reset, 0, 0xC3A50020, 1, ((256 : Nat)), (by decide +kernel), (by decide +kernel), (by decide +kernel), (by decide +kernel), (by decide +kernel), (by decide +kernel), (by decide +kernel)⟩,
   ⟨(rgSt { resetting := true }), 1, (by decide +kernel)⟩⟩

theorem witness_PowerStatesFollowTheirRequests :
    (∃ (s : State) (m : MasterIx) (v : W32) (c : Instr), s.frozen m = false ∧ s.permitted m .control GLB_PWR_REQ.reg .write = true ∧ (c = .powerRequestRun m v ∨ c = .powerRequestIdle m v ∨ c = .powerRequestHibernate m v) ∧ (v.toNat % 4) = 3) ∧
    (∃ (s : State) (m : MasterIx) (v : W32) (c : Instr), s.frozen m = false ∧ s.permitted m .control GLB_PWR_REQ.reg .write = true ∧ (c = .powerRequestRun m v ∨ c = .powerRequestIdle m v ∨ c = .powerRequestHibernate m v) ∧ (v.toNat % 4) ≠ 3 ∧ s.glb.trans.isSome = true) ∧
    (∃ (s : State) (m : MasterIx) (v : W32) (c : Instr), s.frozen m = false ∧ s.permitted m .control GLB_PWR_REQ.reg .write = true ∧ (c = .powerRequestRun m v ∨ c = .powerRequestIdle m v ∨ c = .powerRequestHibernate m v) ∧ ((v.toNat % 4) = 1 ∨ (v.toNat % 4) = 2) ∧ (s.con GLB_STAT_READY = true ∧ s.glb.trans = none ∧ s.pro.actions.contains 8 = false) ∧ s.cget GLB_STAT_STATE = 1 ∧ (v.toNat % 4) = 2) ∧
    (∃ (s : State) (m : MasterIx) (v : W32) (c : Instr), s.frozen m = false ∧ s.permitted m .control GLB_PWR_REQ.reg .write = true ∧ (c = .powerRequestRun m v ∨ c = .powerRequestIdle m v ∨ c = .powerRequestHibernate m v) ∧ (v.toNat % 4) = 0 ∧ (s.con GLB_STAT_READY = true ∧ s.glb.trans = none ∧ s.pro.actions.contains 8 = false) ∧ s.cget GLB_STAT_STATE = 2) ∧
    (∃ (s : State) (m : MasterIx) (v : W32) (c : Instr), s.frozen m = false ∧ s.permitted m .control GLB_PWR_REQ.reg .write = true ∧ (c = .powerRequestRun m v ∨ c = .powerRequestIdle m v ∨ c = .powerRequestHibernate m v) ∧ (v.toNat % 4) = 2 ∧ (s.con GLB_STAT_READY = true ∧ s.glb.trans = none ∧ s.pro.actions.contains 8 = false) ∧ s.cget GLB_STAT_STATE = 2) ∧
    (∃ (s : State), s.glb.trans = none) ∧
    (∃ (s : State) (k : Nat), s.glb.heldReq = none ∧ s.pro.actions.contains 8 = false ∧ s.glb.trans = some (1, 2, k) ∧ s.tm.tick < k + 2) ∧
    (∃ (s : State) (k : Nat), s.glb.heldReq = none ∧ s.pro.actions.contains 8 = false ∧ s.glb.trans = some (1, 2, k) ∧ k + 2 ≤ s.tm.tick ∧ s.trg.disarmAsk = true) ∧
    (∃ (s : State) (k : Nat), s.glb.heldReq = none ∧ s.pro.actions.contains 8 = false ∧ s.glb.trans = some (2, 1, k) ∧ s.tm.tick < k + 29) ∧
    (∃ (s : State) (k : Nat), s.glb.heldReq = none ∧ s.pro.actions.contains 8 = false ∧ s.glb.trans = some (2, 1, k) ∧ k + 29 ≤ s.tm.tick ∧ s.con TRG_STAT_PWR_HELD = true) ∧
    (∃ (s : State) (k : Nat), s.glb.heldReq = none ∧ s.pro.actions.contains 8 = false ∧ s.glb.trans = some (2, 3, k) ∧ (∃ c, c < 16 ∧ (s.mch c).powerWait = true)) ∧
    (∃ (s : State) (k : Nat) (e : _), s.glb.heldReq = none ∧ s.pro.actions.contains 8 = false ∧ s.glb.trans = some (2, 3, k) ∧ (∀ c, c < 16 → (s.mch c).powerWait = false) ∧ e ∈ s.ports ∧ e.1 < 1024) ∧
    (∃ (s : State) (k : Nat) (g : _), s.glb.heldReq = none ∧ s.pro.actions.contains 8 = false ∧ s.glb.trans = some (2, 3, k) ∧ (∀ c, c < 16 → (s.mch c).powerWait = false) ∧ g < 4) ∧
    (∃ (s : State) (k : Nat) (g : _), s.glb.heldReq = none ∧ s.pro.actions.contains 8 = false ∧ s.glb.trans = some (3, 2, k) ∧ g < s.groupCount) ∧
    (∃ (s : State) (p : PortIx) (q : FaceIx) (v : W32), s.feLive p = true ∧ s.writesObeyed p q = true ∧ bits v.toNat 16 16 = 0xC3A5 ∧ bitAt v.toNat 0 = true) ∧
    (∃ (s : State) (p : PortIx) (q : FaceIx) (v : W32), s.feLive p = true ∧ s.writesObeyed p q = true ∧ bits v.toNat 16 16 ≠ 0xC3A5) ∧
    (∃ (s : State) (p : PortIx), (s.fe p).softPending = false) ∧
    (∃ (s : State) (p : PortIx) (c : _), (s.fe p).softPending = true ∧ tsorted s.chans = true ∧ c < 512) :=
  ⟨⟨State.reset, 0, 3, ((.powerRequestIdle (0 : MasterIx) (3 : W32))), (by decide +kernel), (by decide +kernel), (by simp), (by decide +kernel)⟩,
   ⟨(pwrSt 1 { trans := some (1, 2, 0) }), 0, 2, ((.powerRequestIdle (0 : MasterIx) (2 : W32))), (by decide +kernel), (by decide +kernel), (by simp), (by decide +kernel), (by decide +kernel)⟩,
   ⟨((pwrSt 1 {}).cset TRG_STAT_ARMED 1 |>.cset (PL_STAT_STATE 3) 6), 0, 2, ((.powerRequestIdle (0 : MasterIx) (2 : W32))), (by decide +kernel), (by decide +kernel), (by simp), (by decide +kernel), (by decide +kernel), (by decide +kernel), (by decide +kernel)⟩,
   ⟨((pwrSt 2 {}).cset (PL_STAT_STATE 3) 6), 0, 0, ((.powerRequestRun (0 : MasterIx) (0 : W32))), (by decide +kernel), (by decide +kernel), (by simp), (by decide +kernel), (by decide +kernel), (by decide +kernel)⟩,
   ⟨(pwrSt 2 {}), 0, 2, ((.powerRequestHibernate (0 : MasterIx) (2 : W32))), (by decide +kernel), (by decide +kernel), (by simp), (by decide +kernel), (by decide +kernel), (by decide +kernel)⟩,
   ⟨State.reset, (by decide +kernel)⟩,
   ⟨(tk 1 (pwrSt 1 { trans := some (1, 2, 0) })), 0, (by decide +kernel), (by decide +kernel), (by decide +kernel), (by decide +kernel)⟩,
   ⟨({ tk 2 (pwrSt 1 { trans := some (1, 2, 0) }) with trg := { disarmAsk := true } }), 0, (by decide +kernel), (by decide +kernel), (by decide +kernel), (by decide +kernel), (by decide +kernel)⟩,
   ⟨(tk 28 (pwrSt 2 { trans := some (2, 1, 0) })), 0, (by decide +kernel), (by decide +kernel), (by decide +kernel), (by decide +kernel)⟩,
   ⟨((tk 29 (pwrSt 2 { trans := some (2, 1, 0) })).cset TRG_STAT_PWR_HELD 1), 0, (by decide +kernel), (by decide +kernel), (by decide +kernel), (by decide +kernel), (by decide +kernel)⟩,
   ⟨({ pwrSt 2 { trans := some (2, 3, 0) } with mv := [(15, { powerWait := true })] }), 0, (by decide +kernel), (by decide +kernel), (by decide +kernel), (by decide +kernel)⟩,
   ⟨((pwrSt 2 { trans := some (2, 3, 0) }).setPort 3 { rttN := 4 } |>.cset (PL_STAT_STATE 3) 6), 0, (((3 : Nat), ({ rttN := 4 } : Port))), (by decide +kernel), (by decide +kernel), (by decide +kernel), (by decide +kernel), (by decide +kernel), (by decide +kernel)⟩,
   ⟨((pwrSt 2 { trans := some (2, 3, 0) }).setPort 3 { rttN := 4 } |>.cset (PL_STAT_STATE 3) 6), 0, 0, (by decide +kernel), (by decide +kernel), (by decide +kernel), (by decide +kernel), (by decide +kernel)⟩,
   ⟨(pwrSt 3 { trans := some (3, 2, 0) }), 0, 0, (by decide +kernel), (by decide +kernel), (by decide +kernel), (by decide +kernel)⟩,
   ⟨State.reset, 3, 0, 0xC3A50001, (by decide +kernel), (by decide +kernel), (by decide +kernel), (by decide +kernel)⟩,
   ⟨State.reset, 3, 0, 1, (by decide +kernel), (by decide +kernel), (by decide +kernel)⟩,
   ⟨State.reset, 3, (by decide +kernel)⟩,
   ⟨({ feSt { softPending := true } with chans := [(1541, { orphan := 4, pileup := 3 })] }), 3, ((5 : Nat)), (by decide +kernel), (by decide +kernel), (by decide +kernel)⟩⟩

theorem witness_ImagesContainersAndTheLog :
    (∃ (s : State) (j : Fin 8) (tag : BitVec 16) (t : _), s.sp.taken = none ∧ (∀ cmd, s.preReply (s.laneOf j) 7 cmd tag.toNat = none) ∧ t ≤ 67108864 ∧ 4096 ≤ t ∧ s.updBusy = false) ∧
    (∃ (s : State) (j : Fin 8) (tag : BitVec 16) (t : _), s.sp.taken = none ∧ (∀ cmd, s.preReply (s.laneOf j) 7 cmd tag.toNat = none) ∧ t ≤ 67108864 ∧ 4096 ≤ t ∧ s.updBusy = true) ∧
    (∃ (s : State) (j : Fin 8) (tag : BitVec 16) (t : _), s.sp.taken = none ∧ (∀ cmd, s.preReply (s.laneOf j) 7 cmd tag.toNat = none) ∧ t ≤ 67108864 ∧ t < 4096) ∧
    (∃ (s : State) (j : Fin 8) (tag : BitVec 16) (t : _) (data : List Byte) (off : _), s.sp.taken = none ∧ (∀ cmd, s.preReply (s.laneOf j) 7 cmd tag.toNat = none) ∧ s.nvm.imgTotal = some t ∧ s.nvm.imgFrom = none ∧ t ≤ 67108864 ∧ off ≤ 67108864 ∧ ((s.nvm.slot (s.spareSlot)).bytes).length + data.length ≤ t ∧ off = ((s.nvm.slot (s.spareSlot)).bytes).length) ∧
    (∃ (s : State) (j : Fin 8) (tag : BitVec 16) (t : _) (data : List Byte) (off : _), s.sp.taken = none ∧ (∀ cmd, s.preReply (s.laneOf j) 7 cmd tag.toNat = none) ∧ s.nvm.imgTotal = some t ∧ s.nvm.imgFrom = none ∧ t ≤ 67108864 ∧ off ≤ 67108864 ∧ ((s.nvm.slot (s.spareSlot)).bytes).length + data.length ≤ t ∧ off ≠ ((s.nvm.slot (s.spareSlot)).bytes).length) ∧
    (∃ (s : State) (j : Fin 8) (tag : BitVec 16), s.sp.taken = none ∧ (∀ cmd, s.preReply (s.laneOf j) 7 cmd tag.toNat = none) ∧ s.nvm.imgFrom = none ∧ s.nvm.imgTotal = some ((s.nvm.slot (s.spareSlot)).bytes).length) ∧
    (∃ (s : State) (j : Fin 8) (tag : BitVec 16) (t : _), s.sp.taken = none ∧ (∀ cmd, s.preReply (s.laneOf j) 7 cmd tag.toNat = none) ∧ s.updBusy = false ∧ t ≤ 8388608) ∧
    (∃ (s : State) (j : Fin 8) (tag : BitVec 16) (t : _) (bs : _) (data : List Byte), s.sp.taken = none ∧ (∀ cmd, s.preReply (s.laneOf j) 7 cmd tag.toNat = none) ∧ s.nvm.cfgBuf = some (t, bs) ∧ t ≤ 8388608 ∧ bs.length + data.length ≤ t) ∧
    (∃ (s : State) (j : Fin 8) (tag : BitVec 16) (bs : _) (rs : _), s.sp.taken = none ∧ (∀ cmd, s.preReply (s.laneOf j) 7 cmd tag.toNat = none) ∧ s.nvm.cfgBuf = some (bs.length, bs) ∧ parseContainer bs = some rs ∧ guardOf rs = none ∧ s.nvm.inUse = some 0) ∧
    (∃ (s : State) (j : Fin 8) (tag : BitVec 16) (bs : _), s.sp.taken = none ∧ (∀ cmd, s.preReply (s.laneOf j) 7 cmd tag.toNat = none) ∧ s.nvm.cfgBuf = some (bs.length, bs) ∧ parseContainer bs = none) ∧
    (∃ (s : State) (j : Fin 8) (tag : BitVec 16) (bs : _) (rs : _), s.sp.taken = none ∧ (∀ cmd, s.preReply (s.laneOf j) 7 cmd tag.toNat = none) ∧ s.nvm.cfgBuf = some (bs.length, bs) ∧ parseContainer bs = some rs ∧ guardOf rs ≠ none) ∧
    (∃ (s : State) (sigOk : Bool) (l : LongCmd), s.cget UPD_STAT_STATE = 2 ∧ s.nvm.imgFrom = none ∧ s.sp.longs = [l] ∧ l.service = 7 ∧ l.cmd = 4 ∧ imgVerifies ((s.nvm.slot (s.spareSlot)).bytes) sigOk = true ∧ s.onward = []) ∧
    (∃ (s : State) (sigOk : Bool) (l : LongCmd), s.cget UPD_STAT_STATE = 2 ∧ s.nvm.imgFrom = none ∧ s.sp.longs = [l] ∧ l.service = 7 ∧ l.cmd = 4 ∧ (((s.nvm.slot (s.spareSlot)).bytes).length < 4096 ∨ sigOk = false ∨ bodyNat ((s.nvm.slot (s.spareSlot)).bytes) 0 4 ≠ 0xDC10F1A1 ∨ (((s.nvm.slot (s.spareSlot)).bytes).drop 24).take 32 ≠ sha256 ((((s.nvm.slot (s.spareSlot)).bytes).drop 4096).take (bodyNat ((s.nvm.slot (s.spareSlot)).bytes) 8 4)))) ∧
    (∃ (s : State), s.pro.shutdown = true ∧ s.pro.tripTick + 500 < s.tm.tick) ∧
    (∃ (s : State) (n : Nat), (s.pro.shutdown = false ∨ s.tm.tick ≤ s.pro.tripTick + 500) ∧ s.nvm.journal = [.container n] ∧ s.nvm.cut = true) ∧
    (∃ (s : State) (l : LongCmd) (n : Nat) (g : Nat), (s.pro.shutdown = false ∨ s.tm.tick ≤ s.pro.tripTick + 500) ∧ s.nvm.journal = [.container n] ∧ s.nvm.cut = false ∧ s.sp.longs = [l] ∧ l.service = 7 ∧ l.cmd = 0x12 ∧ l.arg = [g]) ∧
    (∃ (s : State) (e : LogEntry), (s.pro.shutdown = false ∨ s.tm.tick ≤ s.pro.tripTick + 500) ∧ s.nvm.journal = [.log] ∧ s.nvm.cut = false ∧ s.nvm.logBusy = 1 ∧ s.nvm.pending = [e]) ∧
    (∃ (s : State), s.nvm.journal = [.logErase] ∧ s.nvm.cut = false ∧ s.nvm.pending = []) ∧
    (∃ (s : State), s.nvm.overflow = 0 ∧ s.nvm.pending.length < 1024) ∧
    (∃ (s : State), s.nvm.overflow = 0 ∧ 1024 ≤ s.nvm.pending.length) :=
  ⟨⟨(updSt {} []), 3, 0x44, 67108864, (by decide +kernel), (noReply (by decide +kernel) _), (by decide +kernel), (by decide +kernel), (by decide +kernel)⟩,
   ⟨((updSt {} []).cset NVM_SLOT_TRIAL 1), 3, 0x44, 4096, (by decide +kernel), (noReply (by decide +kernel) _), (by decide +kernel), (by decide +kernel), (by decide +kernel)⟩,
   ⟨(updSt {} []), 3, 0x44, 4095, (by decide +kernel), (noReply (by decide +kernel) _), (by decide +kernel), (by decide +kernel)⟩,
   ⟨(updSt { imgTotal := some 5000, slot1 := { bytes := [1, 2, 3] } } []), 3, 0x44, 5000, ([4, 5]), 3, (by decide +kernel), (noReply (by decide +kernel) _), (by decide +kernel), (by decide +kernel), (by decide +kernel), (by decide +kernel), (by decide +kernel), (by decide +kernel)⟩,
   ⟨(updSt { imgTotal := some 5000, slot1 := { bytes := [1, 2, 3] } } []), 3, 0x44, 5000, ([4, 5]), 4, (by decide +kernel), (noReply (by decide +kernel) _), (by decide +kernel), (by decide +kernel), (by decide +kernel), (by decide +kernel), (by decide +kernel), (by decide +kernel)⟩,
   ⟨(updSt { imgTotal := some 3, slot1 := { bytes := [1, 2, 3] } } []), 3, 0x44, (by decide +kernel), (noReply (by decide +kernel) _), (by decide +kernel), (by decide +kernel)⟩,
   ⟨(updSt {} []), 3, 0x44, 8388608, (by decide +kernel), (noReply (by decide +kernel) _), (by decide +kernel), (by decide +kernel)⟩,
   ⟨(updSt { cfgBuf := some (3, [1]) } []), 3, 0x44, 3, ([1]), ([4, 5]), (by decide +kernel), (noReply (by decide +kernel) _), (by decide +kernel), (by decide +kernel), (by decide +kernel)⟩,
   ⟨(updSt { cfgBuf := some (32, cfgBytes 0 []), inUse := some 0, cont0 := cont 7 true [] } []), 3, 0x44, (cfgBytes 0 []), ([]), (by decide +kernel), (noReply (by decide +kernel) _), (by decide +kernel), (by decide +kernel), (by decide +kernel), (by decide +kernel)⟩,
   ⟨(updSt { cfgBuf := some (2, [1, 2]) } []), 3, 0x44, ([1, 2]), (by decide +kernel), (noReply (by decide +kernel) _), (by decide +kernel), (by decide +kernel)⟩,
   ⟨(updSt { cfgBuf := some (88, cfgBytes 1 (leBytes 2 4 ++ leBytes 2 48 ++ leBytes 4 0 ++ List.replicate 48 0)) } []), 3, 0x44, (cfgBytes 1 (leBytes 2 4 ++ leBytes 2 48 ++ leBytes 4 0 ++ List.replicate 48 0)), ([.guard (List.replicate 16 0) (List.replicate 32 0) []]), (by decide +kernel), (noReply (by decide +kernel) _), (by decide +kernel), (by decide +kernel), (by decide +kernel)⟩,
   ⟨(((updSt { slot1 := { bytes := imgB, seen := true } } [imgLong 4 []]).cset UPD_STAT_STATE 2).cset UPD_UP_MAC 0), true, (imgLong 4 []), (by decide +kernel), (by decide +kernel), (by decide +kernel), (by decide +kernel), (by decide +kernel), (by decide +kernel), (by decide +kernel)⟩,
   ⟨((updSt { slot1 := { bytes := imgB, seen := true } } [imgLong 4 []]).cset UPD_STAT_STATE 2), false, (imgLong 4 []), (by decide +kernel), (by decide +kernel), (by decide +kernel), (by decide +kernel), (by decide +kernel), (by decide +kernel)⟩,
   ⟨(tk 502 (proSt { shutdown := true, tripTick := 1 })), (by decide +kernel), (by decide +kernel)⟩,
   ⟨(updSt { journal := [.container 1], cut := true } []), 1, (by decide +kernel), (by decide +kernel), (by decide +kernel)⟩,
   ⟨((updSt { journal := [.container 1] } [imgLong 0x12 [6]]).cset NVM_STAT_BUSY 1), (imgLong 0x12 [6]), 1, 6, (by decide +kernel), (by decide +kernel), (by decide +kernel), (by decide +kernel), (by decide +kernel), (by decide +kernel), (by decide +kernel)⟩,
   ⟨(updSt { journal := [.log], logBusy := 1, pending := [⟨65537, {}, 0, 5, 6, 7, 8, 9, true, 0, 0, 0⟩] } []), (⟨65537, {}, 0, 5, 6, 7, 8, 9, true, 0, 0, 0⟩), (by decide +kernel), (by decide +kernel), (by decide +kernel), (by decide +kernel), (by decide +kernel)⟩,
   ⟨(updSt { journal := [.logErase], page := 1023 } []), (by decide +kernel), (by decide +kernel), (by decide +kernel)⟩,
   ⟨(updSt { pending := List.replicate 1023 ⟨65537, {}, 0, 5, 6, 7, 8, 9, true, 0, 0, 0⟩ } []), (by decide +kernel), (by decide +kernel)⟩,
   ⟨(updSt { pending := List.replicate 1024 ⟨65537, {}, 0, 5, 6, 7, 8, 9, true, 0, 0, 0⟩ } []), (by decide +kernel), (by decide +kernel)⟩⟩

theorem witness_ChainActivationAndTrial :
    (∃ (s : State), s.frozen 18 = true) ∧
    (∃ (s : State) (f : UpdFrame) (h : List Byte), s.frozen 18 = false ∧ s.neighbour f.up = true ∧ (h.length ≠ f.len.toNat ∨ 1024 < h.length ∨ f.crc.toNat ≠ crc32c h)) ∧
    (∃ (s : State) (f : UpdFrame) (h : List Byte), s.frozen 18 = false ∧ s.neighbour f.up = true ∧ h.length = f.len.toNat ∧ h.length ≤ 1024 ∧ f.crc.toNat = crc32c h ∧ s.updBusy = true) ∧
    (∃ (s : State) (f : UpdFrame) (h : List Byte), s.frozen 18 = false ∧ s.neighbour f.up = true ∧ h.length = f.len.toNat ∧ h.length ≤ 1024 ∧ f.crc.toNat = crc32c h ∧ s.updBusy = false ∧ 67104768 < (bodyNat h 8 4)) ∧
    (∃ (s : State) (f : UpdFrame) (h : List Byte), s.frozen 18 = false ∧ s.neighbour f.up = true ∧ h.length = f.len.toNat ∧ h.length ≤ 1024 ∧ f.crc.toNat = crc32c h ∧ s.updBusy = false ∧ (bodyNat h 8 4) ≤ 67104768) ∧
    (∃ (s : State) (f : UpdFrame) (data : List Byte) (t : Nat), s.nvm.imgTotal = some t ∧ s.nvm.imgFrom = some f.up ∧ s.frozen 18 = false ∧ (data.length ≠ f.len.toNat ∨ f.crc.toNat ≠ crc32c data ∨ f.image.toNat ≠ s.nvm.imgId)) ∧
    (∃ (s : State) (f : UpdFrame) (data : List Byte) (t : Nat), s.nvm.imgTotal = some t ∧ s.nvm.imgFrom = some f.up ∧ s.frozen 18 = false ∧ data.length = f.len.toNat ∧ data.length ≤ 1024 ∧ f.crc.toNat = crc32c data ∧ f.image.toNat = s.nvm.imgId ∧ f.block.toNat * 1024 = ((s.nvm.slot s.spareSlot).bytes).length ∧ (((s.nvm.slot s.spareSlot).bytes).length + data.length) ≤ t ∧ (((s.nvm.slot s.spareSlot).bytes).length + data.length) = t) ∧
    (∃ (s : State) (f : UpdFrame) (data : List Byte) (t : Nat), s.nvm.imgTotal = some t ∧ s.nvm.imgFrom = some f.up ∧ s.frozen 18 = false ∧ data.length = f.len.toNat ∧ data.length ≤ 1024 ∧ f.crc.toNat = crc32c data ∧ f.image.toNat = s.nvm.imgId ∧ f.block.toNat * 1024 = ((s.nvm.slot s.spareSlot).bytes).length ∧ (((s.nvm.slot s.spareSlot).bytes).length + data.length) ≤ t ∧ (((s.nvm.slot s.spareSlot).bytes).length + data.length) < t) ∧
    (∃ (s : State) (f : UpdFrame), s.frozen 18 = false ∧ s.cget UPD_STAT_STATE = 3 ∧ (s.side f.up).offered = true ∧ (s.side f.up).absent = false ∧ f.image.toNat = s.nvm.imgId ∧ f.reason = 0 ∧ (s.side f.up).done = false) ∧
    (∃ (s : State) (f : UpdFrame), s.frozen 18 = false ∧ s.cget UPD_STAT_STATE = 3 ∧ (s.side f.up).offered = true ∧ (s.side f.up).absent = false ∧ f.image.toNat = s.nvm.imgId ∧ f.reason ≠ 0 ∧ (s.side f.up).done = false) ∧
    (∃ (s : State) (f : UpdFrame), s.frozen 18 = false ∧ s.cget UPD_STAT_STATE = 3 ∧ (s.side f.up).offered = true ∧ (s.side f.up).absent = false ∧ f.image.toNat = s.nvm.imgId ∧ s.onward = [f.up]) ∧
    (∃ (s : State) (f : UpdFrame), s.frozen 18 = false ∧ s.neighbour f.up = true ∧ s.nvm.imgFrom ≠ some f.up ∧ f.image.toNat = s.nvm.imgId ∧ s.nvm.imgFrom = some (!f.up)) ∧
    (∃ (s : State) (up : Bool), s.onward = [up] ∧ s.cget UPD_STAT_STATE = 3 ∧ (s.side up).offered = true ∧ (s.side up).active = false ∧ (s.side up).absent = false ∧ (s.side up).count = 0 ∧ s.tm.tick < (s.side up).offerTick + 25000) ∧
    (∃ (s : State) (up : Bool), s.onward = [up] ∧ s.cget UPD_STAT_STATE = 3 ∧ (s.side up).offered = true ∧ (s.side up).active = false ∧ (s.side up).absent = false ∧ (s.side up).count = 0 ∧ (s.side up).offerTick + 25000 ≤ s.tm.tick) ∧
    (∃ (s : State) (up : Bool), s.onward = [up] ∧ s.cget UPD_STAT_STATE = 3 ∧ (s.side up).active = true ∧ (s.side up).done = false ∧ (s.side up).offerTick + 5000 ≤ s.tm.tick ∧ (s.side up).resends < 16) ∧
    (∃ (s : State) (up : Bool), s.onward = [up] ∧ s.cget UPD_STAT_STATE = 3 ∧ (s.side up).active = true ∧ (s.side up).done = false ∧ (s.side up).offerTick + 5000 ≤ s.tm.tick ∧ 16 ≤ (s.side up).resends) ∧
    (∃ (s : State) (j : Fin 8) (tag : BitVec 16) (c : Instr) (h : _), s.sp.taken = none ∧ (∀ cmd, s.preReply (s.laneOf j) 7 cmd tag.toNat = none) ∧ s.updBusy = false ∧ (c = .activate j tag [0] ∨ c = .rollback j tag []) ∧ s.activeImage (s.spareSlot) = some h ∧ (∀ b, s.activateReason h b = 0)) ∧
    (∃ (s : State) (j : Fin 8) (tag : BitVec 16) (c : Instr) (h : _) (k : _), s.sp.taken = none ∧ (∀ cmd, s.preReply (s.laneOf j) 7 cmd tag.toNat = none) ∧ s.updBusy = false ∧ (c = .activate j tag [0] ∨ c = .rollback j tag []) ∧ s.activeImage (s.spareSlot) = some h ∧ k ≠ 0 ∧ (∀ b, s.activateReason h b = k)) ∧
    (∃ (s : State) (j : Fin 8) (tag : BitVec 16) (c : Instr), s.sp.taken = none ∧ (∀ cmd, s.preReply (s.laneOf j) 7 cmd tag.toNat = none) ∧ s.updBusy = false ∧ (c = .activate j tag [0] ∨ c = .rollback j tag []) ∧ s.activeImage (s.spareSlot) = none) ∧
    (∃ (s : State) (f : UpdFrame) (h : ImgHdr), s.frozen 18 = false ∧ s.neighbour f.up = true ∧ s.activeImage s.spareSlot = some h ∧ f.image.toNat = (crc32c ((s.nvm.slot s.spareSlot).bytes.take 4096)) ∧ (∀ b, s.activateReason h b = 0)) ∧
    (∃ (s : State) (f : UpdFrame) (h : ImgHdr), s.frozen 18 = false ∧ s.neighbour f.up = true ∧ s.activeImage s.spareSlot = some h ∧ f.image.toNat ≠ (crc32c ((s.nvm.slot s.spareSlot).bytes.take 4096))) ∧
    (∃ (s : State), s.con NVM_SLOT_TRIAL = true ∧ s.nvm.imgFrom = none ∧ s.healthy = false) ∧
    (∃ (s : State), s.con NVM_SLOT_TRIAL = true ∧ s.nvm.imgFrom = none ∧ s.healthy = true ∧ s.nvm.chainAct = false) ∧
    (∃ (s : State), s.con NVM_SLOT_TRIAL = true ∧ s.nvm.imgFrom = none ∧ s.tm.tick < s.nvm.trialTick + 150000000) ∧
    (∃ (s : State), s.con NVM_SLOT_TRIAL = true ∧ s.nvm.imgFrom = none ∧ s.nvm.trialTick + 150000000 ≤ s.tm.tick ∧ s.nvm.fallback = 1 - (s.cget NVM_SLOT_ACTIVE) ∧ s.slotUsable (1 - (s.cget NVM_SLOT_ACTIVE)) = true) ∧
    (∃ (s : State) (f : UpdFrame), s.frozen 18 = false ∧ s.cget UPD_STAT_STATE = 4 ∧ s.actSides = [f.up] ∧ (s.side f.up).active = true ∧ f.image.toNat = s.nvm.imgId) :=
  ⟨⟨((updSt {} []).cset FWL_STAT_FROZEN 0x40000), (by decide +kernel)⟩,
   ⟨(updSt {} []), ({ frmD true 0 0 9 imgO with crc := 1 }), imgO, (by decide +kernel), (by decide +kernel), (by decide +kernel)⟩,
   ⟨((updSt {} []).cset NVM_SLOT_TRIAL 1), (frmD true 0 0 9 imgO), imgO, (by decide +kernel), (by decide +kernel), (by decide +kernel), (by decide +kernel), (by decide +kernel), (by decide +kernel)⟩,
   ⟨(updSt {} []), (frmD true 0 0 9 imgBig), imgBig, (by decide +kernel), (by decide +kernel), (by decide +kernel), (by decide +kernel), (by decide +kernel), (by decide +kernel), (by decide +kernel)⟩,
   ⟨(updSt {} []), (frmD true 0 0 9 imgO), imgO, (by decide +kernel), (by decide +kernel), (by decide +kernel), (by decide +kernel), (by decide +kernel), (by decide +kernel), (by decide +kernel)⟩,
   ⟨(updSt { imgTotal := some 5000, imgFrom := some true, imgId := 9 } []), (frmD true 0 0 8 [1]), ([1]), 5000, (by decide +kernel), (by decide +kernel), (by decide +kernel), (by decide +kernel)⟩,
   ⟨(updSt { imgTotal := some 1025, imgFrom := some true, imgId := 9, slot1 := { bytes := List.replicate 1024 9, seen := true } } []), (frmD true 0 1 9 [1]), ([1]), 1025, (by decide +kernel), (by decide +kernel), (by decide +kernel), (by decide +kernel), (by decide +kernel), (by decide +kernel), (by decide +kernel), (by decide +kernel), (by decide +kernel), (by decide +kernel)⟩,
   ⟨(updSt { imgTotal := some 1026, imgFrom := some true, imgId := 9, slot1 := { bytes := List.replicate 1024 9, seen := true } } []), (frmD true 0 1 9 [1]), ([1]), 1026, (by decide +kernel), (by decide +kernel), (by decide +kernel), (by decide +kernel), (by decide +kernel), (by decide +kernel), (by decide +kernel), (by decide +kernel), (by decide +kernel), (by decide +kernel)⟩,
   ⟨((updSt { up := { offered := true, acked := 4 } } []).cset UPD_STAT_STATE 3), (frm true 0 7), (by decide +kernel), (by decide +kernel), (by decide +kernel), (by decide +kernel), (by decide +kernel), (by decide +kernel), (by decide +kernel)⟩,
   ⟨((updSt { up := { offered := true, acked := 4 } } []).cset UPD_STAT_STATE 3), (frm true 7 7), (by decide +kernel), (by decide +kernel), (by decide +kernel), (by decide +kernel), (by decide +kernel), (by decide +kernel), (by decide +kernel)⟩,
   ⟨((updSt { up := { offered := true, active := true, acked := 4 } } []).cset UPD_STAT_STATE 3), (frm true 0 0), (by decide +kernel), (by decide +kernel), (by decide +kernel), (by decide +kernel), (by decide +kernel), (by decide +kernel)⟩,
   ⟨((updSt { imgFrom := some false } [])), (frm true 4 0), (by decide +kernel), (by decide +kernel), (by decide +kernel), (by decide +kernel), (by decide +kernel)⟩,
   ⟨(tk 25000 ((updSt { up := { offered := true, offerTick := 1 } } []).cset UPD_STAT_STATE 3)), true, (by decide +kernel), (by decide +kernel), (by decide +kernel), (by decide +kernel), (by decide +kernel), (by decide +kernel), (by decide +kernel)⟩,
   ⟨(tk 25001 ((updSt { up := { offered := true, offerTick := 1 } } []).cset UPD_STAT_STATE 3)), true, (by decide +kernel), (by decide +kernel), (by decide +kernel), (by decide +kernel), (by decide +kernel), (by decide +kernel), (by decide +kernel)⟩,
   ⟨(tk 5001 ((updSt { up := { offered := true, active := true, resends := 15, offerTick := 1 } } []).cset UPD_STAT_STATE 3)), true, (by decide +kernel), (by decide +kernel), (by decide +kernel), (by decide +kernel), (by decide +kernel), (by decide +kernel)⟩,
   ⟨(tk 5001 ((updSt { up := { offered := true, active := true, resends := 16, offerTick := 1 } } []).cset UPD_STAT_STATE 3)), true, (by decide +kernel), (by decide +kernel), (by decide +kernel), (by decide +kernel), (by decide +kernel), (by decide +kernel)⟩,
   ⟨(((updSt { slot1 := imgS } []).cset (slotState 1) 1).cset GLB_STAT_STATE 1), 3, 0x44, ((.activate (3 : Fin 8) (0x44 : BitVec 16) [0])), img0, (by decide +kernel), (noReply (by decide +kernel) _), (by decide +kernel), (by simp), (by decide +kernel), (by decide +kernel)⟩,
   ⟨(((updSt { slot1 := imgS } []).cset (slotState 1) 1).cset GLB_STAT_STATE 3), 3, 0x44, ((.rollback (3 : Fin 8) (0x44 : BitVec 16) [])), img0, 5, (by decide +kernel), (noReply (by decide +kernel) _), (by decide +kernel), (by simp), (by decide +kernel), (by decide +kernel), (by decide +kernel)⟩,
   ⟨(((updSt { slot1 := imgS } []).cset (slotState 1) 4).cset GLB_STAT_STATE 1), 3, 0x44, ((.activate (3 : Fin 8) (0x44 : BitVec 16) [0])), (by decide +kernel), (noReply (by decide +kernel) _), (by decide +kernel), (by simp), (by decide +kernel)⟩,
   ⟨(((updSt { slot1 := imgS } []).cset (slotState 1) 3).cset GLB_STAT_STATE 2), ({ frm true 0 0 with image := BitVec.ofNat 32 (crc32c (imgB.take 120)) }), img0, (by decide +kernel), (by decide +kernel), (by decide +kernel), (by decide +kernel), (by decide +kernel)⟩,
   ⟨(((updSt { slot1 := imgS } []).cset (slotState 1) 3).cset GLB_STAT_STATE 2), ({ frm true 0 0 with image := BitVec.ofNat 32 (crc32c (imgB.take 120) + 1) }), img0, (by decide +kernel), (by decide +kernel), (by decide +kernel), (by decide +kernel)⟩,
   ⟨((updSt {} []).cset NVM_SLOT_TRIAL 1), (by decide +kernel), (by decide +kernel), (by decide +kernel)⟩,
   ⟨(((updSt { trialTick := 3 } []).cset NVM_SLOT_TRIAL 1).cset CR_STAT_CLEAN 1 |> fun z => z.modSp fun x => { x with lastPassTick := 3 }), (by decide +kernel), (by decide +kernel), (by decide +kernel), (by decide +kernel)⟩,
   ⟨(tk 150000002 ((updSt { trialTick := 3 } []).cset NVM_SLOT_TRIAL 1)), (by decide +kernel), (by decide +kernel), (by decide +kernel)⟩,
   ⟨((tk 150000003 ((updSt { trialTick := 3, fallback := 1 } []).cset NVM_SLOT_TRIAL 1)).cset (slotState 1) 3), (by decide +kernel), (by decide +kernel), (by decide +kernel), (by decide +kernel), (by decide +kernel)⟩,
   ⟨((updSt { up := { offered := true, done := true, active := true }, chainAct := true } []).cset UPD_STAT_STATE 4), (frm true 0 0), (by decide +kernel), (by decide +kernel), (by decide +kernel), (by decide +kernel), (by decide +kernel)⟩⟩

theorem witness_HeartbeatsDecideTheRoles :
    (∃ (s : State), s.role = 0) ∧
    (∃ (s : State), s.role ≠ 0 ∧ (∀ t, s.twin.hbTick = some t → t + 2500 ≤ s.tm.tick)) ∧
    (∃ (s : State) (b : List Byte), s.role ≠ 0 ∧ (b.length ≠ 64 ∨ bodyNat b 56 4 ≠ crc32c (b.take 56 ++ leBytes 4 0))) ∧
    (∃ (s : State) (b : List Byte) (p : _), s.role ≠ 0 ∧ b.length = 64 ∧ bodyNat b 56 4 = crc32c (b.take 56 ++ leBytes 4 0) ∧ s.role = 1 ∧ ((hbOf b).role = 3 ∨ (hbOf b).role = 4) ∧ p ∈ s.portsInRun ∧ s.feLive p = true) ∧
    (∃ (s : State) (b : List Byte), s.role ≠ 0 ∧ b.length = 64 ∧ bodyNat b 56 4 = crc32c (b.take 56 ++ leBytes 4 0) ∧ (s.role ≠ 1 ∨ ((hbOf b).role ≠ 3 ∧ (hbOf b).role ≠ 4))) ∧
    (∃ (s : State), s.role ≠ 0 ∧ s.con TWIN_STAT_PARTNER = true ∧ s.twin.peerTick ≤ s.tm.tick ∧ s.tm.tick < s.twin.peerTick + 2500 * s.cget TWIN_CFG_HB_TMO) ∧
    (∃ (s : State), s.role ≠ 0 ∧ s.con TWIN_STAT_PARTNER = true ∧ s.twin.peerTick ≤ s.tm.tick ∧ s.twin.peerTick + 2500 * s.cget TWIN_CFG_HB_TMO ≤ s.tm.tick ∧ s.role = 2) ∧
    (∃ (s : State) (l : _), s.role ≠ 0 ∧ s.con TWIN_STAT_PARTNER = true ∧ s.twin.peerTick ≤ s.tm.tick ∧ s.twin.peerTick + 2500 * s.cget TWIN_CFG_HB_TMO ≤ s.tm.tick ∧ s.role = 5 ∧ s.sp.longs = [l] ∧ l.service = 8) ∧
    (∃ (s : State), s.role ≠ 0 ∧ s.con TWIN_STAT_PARTNER = true ∧ s.twin.peerTick ≤ s.tm.tick ∧ s.twin.peerTick + 2500 * s.cget TWIN_CFG_HB_TMO ≤ s.tm.tick ∧ s.role ≠ 2 ∧ s.role ≠ 5) ∧
    (∃ (s : State) (w : _), s.role = 1 ∧ s.twin.readyTick ≤ s.tm.tick ∧ (w = (if s.con TWIN_CFG_PREF = true then 2500 * s.cget TWIN_CFG_HB_TMO else 500000)) ∧ s.tm.tick < s.twin.readyTick + w) ∧
    (∃ (s : State) (w : _), s.role = 1 ∧ s.twin.readyTick ≤ s.tm.tick ∧ (w = (if s.con TWIN_CFG_PREF = true then 2500 * s.cget TWIN_CFG_HB_TMO else 500000)) ∧ s.twin.readyTick + w ≤ s.tm.tick) ∧
    (∃ (s : State) (h : Heartbeat) (t : Nat), (s.role = 3 ∨ s.role = 4) ∧ s.twin.peer = some h ∧ s.con TWIN_STAT_PARTNER = true ∧ s.twin.noOwnerTick = some t ∧ t + 250000 ≤ s.tm.tick ∧ h.role = 4) ∧
    (∃ (s : State) (h : Heartbeat) (t : Nat), (s.role = 3 ∨ s.role = 4) ∧ s.twin.peer = some h ∧ s.con TWIN_STAT_PARTNER = true ∧ s.twin.noOwnerTick = some t ∧ t + 250000 ≤ s.tm.tick ∧ h.role ≠ 4) ∧
    (∃ (s : State), s.role = 2 ∧ s.con FRN_STAT_READY = true ∧ (∀ t, s.twin.patternTick = some t → t + 250 ≤ s.tm.tick) ∧ (∀ r, r < 4 → s.scratch r = 0)) ∧
    (∃ (s : State), s.role = 2 ∧ (∀ t, s.twin.reportTick = some t → t + 250000 ≤ s.tm.tick)) ∧
    (∃ (s : State) (j : Fin 8) (tag : BitVec 16) (h : _), s.sp.taken = none ∧ s.preReply (s.laneOf j) 8 1 tag.toNat = none ∧ s.twin.peer = some h) :=
  ⟨⟨(twSt 0 {}), (by decide +kernel)⟩,
   ⟨(tk 5000 (twSt 2 { hbTick := some 2500, hbSeq := 7 })), (by decide +kernel), (of_optAll (by decide +kernel))⟩,
   ⟨(twSt 2 {}), ((hbBytes (hb0 4)).set 3 77), (by decide +kernel), (by decide +kernel)⟩,
   ⟨(((twSt 1 {}).setPort 3 { rttN := 4 }).setFe 3 { powered := true } |>.cset (PL_STAT_STATE 3) 6 |>.fset 3 (LNK_STAT_STATE 0) 6), (hbBytes (hb0 4)), ((3 : Nat)), (by decide +kernel), (by decide +kernel), (by decide +kernel), (by decide +kernel), (by decide +kernel), (by decide +kernel), (by decide +kernel)⟩,
   ⟨(twSt 3 {}), (hbBytes (hb0 4)), (by decide +kernel), (by decide +kernel), (by decide +kernel), (by decide +kernel)⟩,
   ⟨(tk 60 ((twSt 2 { peerTick := 20 }).cset TWIN_STAT_PARTNER 1)), (by decide +kernel), (by decide +kernel), (by decide +kernel), (by decide +kernel)⟩,
   ⟨(tk 60000 ((twSt 2 { peerTick := 2 }).cset TWIN_STAT_PARTNER 1)), (by decide +kernel), (by decide +kernel), (by decide +kernel), (by decide +kernel), (by decide +kernel)⟩,
   ⟨({ tk 60000 ((twSt 5 { peerTick := 2 }).cset TWIN_STAT_PARTNER 1) with sp := { longs := [switchLong] } }), switchLong, (by decide +kernel), (by decide +kernel), (by decide +kernel), (by decide +kernel), (by decide +kernel), (by decide +kernel), (by decide +kernel)⟩,
   ⟨(tk 60000 ((twSt 4 { peerTick := 2 }).cset TWIN_STAT_PARTNER 1)), (by decide +kernel), (by decide +kernel), (by decide +kernel), (by decide +kernel), (by decide +kernel), (by decide +kernel)⟩,
   ⟨(tk 500000 (twSt 1 { readyTick := 1 })), 500000, (by decide +kernel), (by decide +kernel), (by decide +kernel), (by decide +kernel)⟩,
   ⟨(tk 500001 (twSt 1 { readyTick := 1 })), 500000, (by decide +kernel), (by decide +kernel), (by decide +kernel), (by decide +kernel)⟩,
   ⟨(tk 250007 ((twSt 4 { peer := some (hb0 4), noOwnerTick := some 7 }).cset TWIN_STAT_PARTNER 1)), (hb0 4), 7, (by decide +kernel), (by decide +kernel), (by decide +kernel), (by decide +kernel), (by decide +kernel), (by decide +kernel)⟩,
   ⟨(tk 250007 ((twSt 3 { peer := some (hb0 3), noOwnerTick := some 7 }).cset TWIN_STAT_PARTNER 1)), (hb0 3), 7, (by decide +kernel), (by decide +kernel), (by decide +kernel), (by decide +kernel), (by decide +kernel), (by decide +kernel)⟩,
   ⟨(tk 250 ((twSt 2 { patternTick := some 0 }).cset FRN_STAT_READY 1)), (by decide +kernel), (by decide +kernel), (of_optAll (by decide +kernel)), (by decide +kernel)⟩,
   ⟨(tk 250000 (twSt 2 { reportTick := some 0 })), (by decide +kernel), (of_optAll (by decide +kernel))⟩,
   ⟨({ runSt {} with twin := { peer := some (hb0 2) } }), 3, 0x44, (hb0 2), (by decide +kernel), (by decide +kernel), (by decide +kernel)⟩⟩

theorem witness_SeedStateIsPushedAndJudged :
    (∃ (s : State), (s.role ≠ 4 ∨ s.frozen 19 = true)) ∧
    (∃ (s : State), s.role = 4 ∧ s.frozen 19 = false ∧ (∀ t, s.twin.pushTick = some t → t + 62500 ≤ s.tm.tick)) ∧
    (∃ (s : State) (j : Fin 8) (tag : BitVec 16), s.sp.taken = none ∧ s.preReply (s.laneOf j) 8 3 tag.toNat = none ∧ s.role = 4 ∧ s.frozen 19 = false) ∧
    (∃ (s : State) (j : Fin 8) (tag : BitVec 16), s.sp.taken = none ∧ s.preReply (s.laneOf j) 8 3 tag.toNat = none ∧ s.role ≠ 4) ∧
    (∃ (s : State) (h : SeedHdr) (data : List Byte), s.role = 2 ∧ s.frozen 19 = false ∧ (data.length ≠ 1024 ∨ h.segCrc.toNat ≠ crc32c data ∨ h.count.toNat ≤ h.idx.toNat)) ∧
    (∃ (s : State) (h : SeedHdr) (data : List Byte), s.role = 2 ∧ s.frozen 19 = false ∧ data.length = 1024 ∧ h.segCrc.toNat = crc32c data ∧ s.twin.push = none ∧ 2 ≤ h.count.toNat ∧ h.idx.toNat < h.count.toNat) ∧
    (∃ (s : State) (h : SeedHdr) (data : List Byte) (b : SeedBody) (i : _) (v : _), s.role = 2 ∧ s.frozen 19 = false ∧ data.length = 1024 ∧ h.segCrc.toNat = crc32c data ∧ s.twin.push = none ∧ h.count = 1 ∧ h.idx = 0 ∧ s.runImage = some i ∧ crc32c (data.take h.bodyLen.toNat) = h.bodyCrc.toNat ∧ i.seedMin.toNat ≤ h.fmt.toNat ∧ h.fmt.toNat ≤ i.seedFmt.toNat ∧ b.cid.toNat = s.cid ∧ s.con TWIN_STAT_CID_ERR = false ∧ b.config = [(BitVec.ofNat 32 (TRG_SRC_PRE_PRE 0).reg, v)]) ∧
    (∃ (s : State) (h : SeedHdr) (data : List Byte) (b : SeedBody) (i : _) (v : _), s.role = 2 ∧ s.frozen 19 = false ∧ data.length = 1024 ∧ h.segCrc.toNat = crc32c data ∧ s.twin.push = none ∧ h.count = 1 ∧ h.idx = 0 ∧ s.runImage = some i ∧ crc32c (data.take h.bodyLen.toNat) = h.bodyCrc.toNat ∧ i.seedMin.toNat ≤ h.fmt.toNat ∧ h.fmt.toNat ≤ i.seedFmt.toNat ∧ b.cid.toNat = s.cid ∧ s.con TWIN_STAT_CID_ERR = false ∧ b.config = [(BitVec.ofNat 32 TRG_CTRL_ARM.reg, v)]) ∧
    (∃ (s : State) (h : SeedHdr) (data : List Byte) (b : SeedBody) (i : _) (v : _), s.role = 2 ∧ s.frozen 19 = false ∧ data.length = 1024 ∧ h.segCrc.toNat = crc32c data ∧ s.twin.push = none ∧ h.count = 1 ∧ h.idx = 0 ∧ s.runImage = some i ∧ crc32c (data.take h.bodyLen.toNat) = h.bodyCrc.toNat ∧ i.seedMin.toNat ≤ h.fmt.toNat ∧ h.fmt.toNat ≤ i.seedFmt.toNat ∧ b.cid.toNat = s.cid ∧ s.con TWIN_STAT_CID_ERR = false ∧ b.config = [(BitVec.ofNat 32 TIM_CTRL_SRC.reg, v)]) ∧
    (∃ (s : State) (h : SeedHdr) (data : List Byte) (b : SeedBody), s.role = 2 ∧ s.frozen 19 = false ∧ data.length = 1024 ∧ h.segCrc.toNat = crc32c data ∧ s.twin.push = none ∧ h.count = 1 ∧ h.idx = 0 ∧ (crc32c (data.take h.bodyLen.toNat) ≠ h.bodyCrc.toNat ∨ b.cid.toNat ≠ s.cid ∨ s.con TWIN_STAT_CID_ERR = true)) ∧
    (∃ (s : State) (x : PushRx), s.twin.push = some x ∧ s.tm.tick < x.tick + 62500) ∧
    (∃ (s : State) (x : PushRx), s.twin.push = some x ∧ x.tick + 62500 ≤ s.tm.tick) :=
  ⟨⟨(twSt 3 {}), (by decide +kernel)⟩,
   ⟨(tk 62500 (twSt 4 { pushTick := some 0, pushSeq := 4294967295 })), (by decide +kernel), (by decide +kernel), (of_optAll (by decide +kernel))⟩,
   ⟨({ runSt {} with twin := {} } |>.cset TWIN_STAT_ROLE 4), 3, 0x44, (by decide +kernel), (by decide +kernel), (by decide +kernel), (by decide +kernel)⟩,
   ⟨((runSt {}).cset TWIN_STAT_ROLE 2), 3, 0x44, (by decide +kernel), (by decide +kernel), (by decide +kernel)⟩,
   ⟨(twSt 2 {}), ({ seedHdr 1 0 with segCrc := BitVec.ofNat 32 (crc32c seg0 + 1) }), seg0, (by decide +kernel), (by decide +kernel), (.inr (.inl (ofNat_succ_ne (crc32c_lt _))))⟩,
   ⟨(twSt 2 {}), (seedHdr 3 2), seg0, (by decide +kernel), (by decide +kernel), (by decide +kernel), (ofNat_toNat (crc32c_lt _)), (by decide +kernel), (by decide +kernel), (by decide +kernel)⟩,
   ⟨(imgSt (twSt 2 {})), (seedHdr 1 0), seg0, ({ body0 with config := [(BitVec.ofNat 32 (TRG_SRC_PRE_PRE 0).reg, 0x12345)] }), img0, ((0x12345 : W32)), (by decide +kernel), (by decide +kernel), (by decide +kernel), (ofNat_toNat (crc32c_lt _)), (by decide +kernel), (by decide +kernel), (by decide +kernel), (by decide +kernel), (by decide +kernel), (by decide +kernel), (by decide +kernel), (by decide +kernel), (by decide +kernel), (by decide +kernel)⟩,
   ⟨(imgSt (twSt 2 {})), (seedHdr 1 0), seg0, ({ body0 with config := [(BitVec.ofNat 32 TRG_CTRL_ARM.reg, 1)] }), img0, ((1 : W32)), (by decide +kernel), (by decide +kernel), (by decide +kernel), (ofNat_toNat (crc32c_lt _)), (by decide +kernel), (by decide +kernel), (by decide +kernel), (by decide +kernel), (by decide +kernel), (by decide +kernel), (by decide +kernel), (by decide +kernel), (by decide +kernel), (by decide +kernel)⟩,
   ⟨(imgSt (twSt 2 {})), (seedHdr 1 0), seg0, ({ body0 with config := [(BitVec.ofNat 32 TIM_CTRL_SRC.reg, 2)] }), img0, ((2 : W32)), (by decide +kernel), (by decide +kernel), (by decide +kernel), (ofNat_toNat (crc32c_lt _)), (by decide +kernel), (by decide +kernel), (by decide +kernel), (by decide +kernel), (by decide +kernel), (by decide +kernel), (by decide +kernel), (by decide +kernel), (by decide +kernel), (by decide +kernel)⟩,
   ⟨(twSt 2 {}), (seedHdr 1 0), seg0, ({ body0 with cid := 9 }), (by decide +kernel), (by decide +kernel), (by decide +kernel), (ofNat_toNat (crc32c_lt _)), (by decide +kernel), (by decide +kernel), (by decide +kernel), (by decide +kernel)⟩,
   ⟨(tk 62508 (twSt 2 { push := some push0 })), push0, (by decide +kernel), (by decide +kernel)⟩,
   ⟨(tk 62509 (twSt 2 { push := some push0 })), push0, (by decide +kernel), (by decide +kernel)⟩⟩

theorem witness_TakeoverAndThePlannedSwitch :
    (∃ (s : State), s.role = 3 ∧ s.twin.by_ = .loss ∧ s.twin.storing = false ∧ s.twin.lossTick + 25000 ≤ s.tm.tick ∧ s.ownsOne = false) ∧
    (∃ (s : State), s.role = 3 ∧ s.twin.by_ = .loss ∧ s.twin.storing = false ∧ s.twin.lossTick + 25000 ≤ s.tm.tick ∧ s.ownsOne = true) ∧
    (∃ (s : State), s.role = 3 ∧ s.ownsOne = true ∧ s.twin.storing = false ∧ s.twin.by_ = .startUp) ∧
    (∃ (s : State), s.role = 3 ∧ s.ownsOne = true ∧ s.twin.storing = false ∧ s.twin.by_ = .loss ∧ s.seedStale = true) ∧
    (∃ (s : State) (a : _) (b : _) (i : _), s.role = 3 ∧ s.ownsOne = true ∧ s.twin.storing = false ∧ s.twin.by_ = .loss ∧ a = s.peerFc + 1 ∧ b = s.frame ∧ 0 < s.peerFc ∧ a ≤ b ∧ i ≤ sliceOf b - sliceOf a) ∧
    (∃ (s : State) (f : Nat), s.role = 2 ∧ s.twin.fs = some f ∧ 0 < f ∧ s.frame < f + 1) ∧
    (∃ (s : State) (f : Nat), s.role = 2 ∧ s.twin.fs = some f ∧ 0 < f ∧ f + 1 ≤ s.frame) ∧
    (∃ (s : State), s.role = 3 ∧ s.twin.storing = true ∧ s.twin.fs = none ∧ s.twin.by_ = .startUp) ∧
    (∃ (s : State) (x : _), s.role = 3 ∧ s.twin.storing = true ∧ s.twin.fs = none ∧ s.twin.seed = some x ∧ x.body.runRegs = [] ∧ s.twin.by_ = .planned) ∧
    (∃ (s : State) (x : _), s.role = 3 ∧ s.twin.storing = true ∧ s.twin.fs = none ∧ s.twin.seed = some x ∧ x.body.runRegs = [] ∧ s.twin.by_ = .loss ∧ x.body.mode.toNat ≤ 2 ∧ s.con TRG_STAT_ARMED = false ∧ s.con TRG_CTRL_ARM = false) ∧
    (∃ (s : State) (j : Fin 8) (tag : BitVec 16), s.sp.taken = none ∧ s.preReply (s.laneOf j) 8 2 tag.toNat = none ∧ s.role = 4 ∧ s.partnerReady = true) ∧
    (∃ (s : State) (j : Fin 8) (tag : BitVec 16), s.sp.taken = none ∧ s.preReply (s.laneOf j) 8 2 tag.toNat = none ∧ (s.role ≠ 4 ∨ s.partnerReady = false)) ∧
    (∃ (s : State) (f : Nat), s.role = 5 ∧ s.twin.fs = some f ∧ s.twin.drainTick = none ∧ s.frame < f + 1) ∧
    (∃ (s : State) (f : Nat) (e : _), s.role = 5 ∧ s.twin.fs = some f ∧ s.twin.drainTick = none ∧ f + 1 ≤ s.frame ∧ e ∈ s.ports ∧ e.1 < 1024) ∧
    (∃ (s : State) (t : Nat), s.role = 5 ∧ s.twin.drainTick = some t ∧ t ≤ s.tm.tick ∧ s.tm.tick < t + s.cget TWIN_CFG_DRAIN * 250000) ∧
    (∃ (s : State) (t : Nat) (l : _), s.role = 5 ∧ s.twin.drainTick = some t ∧ t ≤ s.tm.tick ∧ t + s.cget TWIN_CFG_DRAIN * 250000 ≤ s.tm.tick ∧ s.firn.pins = [] ∧ s.sp.longs = [l] ∧ l.service = 8) :=
  ⟨⟨(tk 25000 (twSt 3 { by_ := .loss, storing := false })), (by decide +kernel), (by decide +kernel), (by decide +kernel), (by decide +kernel), (by decide +kernel)⟩,
   ⟨(owned (tk 25000 (twSt 3 { by_ := .loss, storing := false }))), (by decide +kernel), (by decide +kernel), (by decide +kernel), (by decide +kernel), (by decide +kernel)⟩,
   ⟨(owned (twSt 3 { by_ := .startUp, storing := false })), (by decide +kernel), (by decide +kernel), (by decide +kernel), (by decide +kernel)⟩,
   ⟨(owned ({ frmSt 1100 {} with twin := { by_ := .loss, storing := false, peer := some (hb0 4) } } |>.cset TWIN_STAT_ROLE 3)), (by decide +kernel), (by decide +kernel), (by decide +kernel), (by decide +kernel), (by decide +kernel)⟩,
   ⟨(owned ({ frmSt 1100 {} with twin := { by_ := .loss, storing := false, peer := some (hb0 4) } } |>.cset TWIN_STAT_ROLE 3)), ((701 : Nat)), ((1100 : Nat)), ((1 : Nat)), (by decide +kernel), (by decide +kernel), (by decide +kernel), (by decide +kernel), (by decide +kernel), (by decide +kernel), (by decide +kernel), (by decide +kernel), (by decide +kernel)⟩,
   ⟨({ frmSt 50 {} with twin := { storing := false, fs := some 50 } } |>.cset TWIN_STAT_ROLE 2), 50, (by decide +kernel), (by decide +kernel), (by decide +kernel), (by decide +kernel)⟩,
   ⟨({ frmSt 51 {} with twin := { storing := false, fs := some 50 } } |>.cset TWIN_STAT_ROLE 2), 50, (by decide +kernel), (by decide +kernel), (by decide +kernel), (by decide +kernel)⟩,
   ⟨(twSt 3 { by_ := .startUp }), (by decide +kernel), (by decide +kernel), (by decide +kernel), (by decide +kernel)⟩,
   ⟨(twSt 3 { by_ := .planned, seed := some (seed0 body0) }), (seed0 body0), (by decide +kernel), (by decide +kernel), (by decide +kernel), (by decide +kernel), (by decide +kernel), (by decide +kernel)⟩,
   ⟨(twSt 3 { by_ := .loss, seed := some (seed0 body0) }), (seed0 body0), (by decide +kernel), (by decide +kernel), (by decide +kernel), (by decide +kernel), (by decide +kernel), (by decide +kernel), (by decide +kernel), (by decide +kernel), (by decide +kernel)⟩,
   ⟨(((runSt {}).cset TWIN_STAT_ROLE 4).cset TWIN_STAT_PARTNER 1 |> fun z => { z with twin := { peer := some (hb0 2) } }), 3, 0x44, (by decide +kernel), (by decide +kernel), (by decide +kernel), (by decide +kernel)⟩,
   ⟨((runSt {}).cset TWIN_STAT_ROLE 4), 3, 0x44, (by decide +kernel), (by decide +kernel), (by decide +kernel)⟩,
   ⟨({ frmSt 50 {} with twin := { fs := some 50 } } |>.cset TWIN_STAT_ROLE 5), 50, (by decide +kernel), (by decide +kernel), (by decide +kernel), (by decide +kernel)⟩,
   ⟨({ frmSt 51 {} with twin := { fs := some 50 } } |>.cset TWIN_STAT_ROLE 5 |>.setPort 3 { rttN := 4 } |>.cset (PL_STAT_STATE 3) 6), 50, (((3 : Nat), ({ rttN := 4 } : Port))), (by decide +kernel), (by decide +kernel), (by decide +kernel), (by decide +kernel), (by decide +kernel), (by decide +kernel)⟩,
   ⟨(tk 20 (twSt 5 { drainTick := some 20 })), 20, (by decide +kernel), (by decide +kernel), (by decide +kernel), (by decide +kernel)⟩,
   ⟨({ tk 75000020 ((twSt 5 { drainTick := some 20, fs := some 50 })) with sp := { longs := [switchLong] }, firn := { index := [(0, { slice := 0, state := 2, frames := 256, r0 := { count := 2 } })] } }), 20, switchLong, (by decide +kernel), (by decide +kernel), (by decide +kernel), (by decide +kernel), (by decide +kernel), (by decide +kernel), (by decide +kernel)⟩⟩

theorem witness_SensorsThrottleAndShutDown :
    (∃ (s : State) (i : SensIx), s.tm.tick < (s.sensor i).nextTick) ∧
    (∃ (s : State) (i : SensIx) (q : Int), s.pro.shutdown = false ∧ (s.sensor i).nextTick ≤ s.tm.tick ∧ (s.sensor i).warn = none ∧ 4 * ((s.cget (PRO_TS_CFG_WARN i)) : Int) ≤ q ∧ (s.sensor i).warnRun = 3) ∧
    (∃ (s : State) (i : SensIx) (q : Int), s.pro.shutdown = false ∧ (s.sensor i).nextTick ≤ s.tm.tick ∧ (s.sensor i).warn = none ∧ 4 * ((s.cget (PRO_TS_CFG_WARN i)) : Int) ≤ q ∧ (s.sensor i).warnRun < 3) ∧
    (∃ (s : State) (i : SensIx) (q : Int), s.pro.shutdown = false ∧ (s.sensor i).nextTick ≤ s.tm.tick ∧ (s.sensor i).warn = none ∧ q < 4 * ((s.cget (PRO_TS_CFG_WARN i)) : Int)) ∧
    (∃ (s : State) (i : SensIx) (q : Int) (l : _), s.pro.shutdown = false ∧ (s.sensor i).nextTick ≤ s.tm.tick ∧ (s.sensor i).warn = some l ∧ (s.sensor i).warnRun = 3 ∧ q ≤ 4 * (l : Int) - 20) ∧
    (∃ (s : State) (i : SensIx) (q : Int) (l : _), s.pro.shutdown = false ∧ (s.sensor i).nextTick ≤ s.tm.tick ∧ (s.sensor i).warn = some l ∧ (s.sensor i).warnRun = 3 ∧ 4 * (l : Int) - 20 < q) ∧
    (∃ (s : State) (i : SensIx) (q : Int), s.pro.shutdown = false ∧ (s.sensor i).nextTick ≤ s.tm.tick ∧ (s.sensor i).hot = false ∧ (s.sensor i).throtRun = 3 ∧ 4 * ((s.cget (PRO_TS_CFG_THROT i)) : Int) ≤ q ∧ i.val < 4 ∧ i.val ∉ s.pro.actions) ∧
    (∃ (s : State) (p : PortIx) (i : SensIx) (q : Int), i.val < 5 ∧ s.feLive p = true ∧ ((s.fe p).sensor i).nextTick ≤ s.tm.tick ∧ ((s.fe p).sensor i).hot = false ∧ ((s.fe p).sensor i).throtRun = 3 ∧ 4 * (s.fget p FE_TH_CFG_THROT : Int) ≤ q) ∧
    (∃ (s : State) (p : PortIx), (s.fe p).powered = false) ∧
    (∃ (s : State) (i : SensIx) (a : Nat), a = throttleAction i ∧ a ∉ s.pro.actions) ∧
    (∃ (s : State) (i : SensIx) (a : Nat), a = throttleAction i ∧ a ∈ s.pro.actions ∧ (∀ j, j < 32 → throttleAction j = a → (s.sensor j).hot = false ∧ (s.sensor j).leftTick.all (fun t => decide (t + (if a = 8 then 2500000 else 250000) ≤ s.tm.tick)) = true) ∧ a < 4 ∧ s.cget GLB_STAT_STATE = 1) ∧
    (∃ (s : State) (p : PortIx), (s.fe p).thermalHold = true ∧ (∀ j, j < 5 → ((s.fe p).sensor j).hot = false ∧ ((s.fe p).sensor j).leftTick.all (fun t => decide (t + 250000 ≤ s.tm.tick)) = true) ∧ (s.fe p).powerAsk = none) ∧
    (∃ (s : State) (n : _), s.pro.shutdown = false ∧ n < 4) ∧
    (∃ (s : State), (s.nvm.journal = [] ∨ s.pro.powerGood = true ∨ (s.pro.shutdown = true ∧ s.tm.tick < s.pro.tripTick + 500 ∧ s.scorching = false))) ∧
    (∃ (s : State), s.nvm.journal ≠ [] ∧ s.pro.powerGood = false ∧ (s.pro.shutdown = false ∨ s.pro.tripTick + 500 ≤ s.tm.tick ∨ s.scorching = true)) ∧
    (∃ (s : State) (t : Nat), s.pro.shutdown = true ∧ s.pro.coolTick = some t ∧ s.tm.tick < t + 15000000) ∧
    (∃ (s : State) (t : Nat), s.pro.shutdown = true ∧ s.pro.coolTick = some t ∧ t + 15000000 ≤ s.tm.tick) ∧
    (∃ (s : State) (p : PortIx) (c : _), (s.fe p).shutdown = false ∧ c < 512) ∧
    (∃ (s : State) (p : PortIx) (q : _) (f : Fld), (s.fe p).shutdown = false ∧ q ≠ p.val ∧ f.key < 0x40000) ∧
    (∃ (s : State) (p : PortIx) (t : Nat), (s.fe p).shutdown = true ∧ (s.fe p).coolTick = some t ∧ s.tm.tick < t + 2500000) ∧
    (∃ (s : State) (p : PortIx) (t : Nat), (s.fe p).shutdown = true ∧ (s.fe p).coolTick = some t ∧ t + 2500000 ≤ s.tm.tick) :=
  ⟨⟨(tk 249 { State.reset with pro := { sensors := [(2, { nextTick := 250 })] } }), 2, (by decide +kernel)⟩,
   ⟨(({ State.reset with pro := { sensors := [(2, { warnRun := 3, throtRun := 3 })] } }.setPort 600 { rttN := 4 }).cset (PL_STAT_STATE 600) 6), 2, 500, (by decide +kernel), (by decide +kernel), (by decide +kernel), (by decide +kernel), (by decide +kernel)⟩,
   ⟨({ State.reset with pro := { sensors := [(2, { warnRun := 2, throtRun := 3 })] } }), 2, 500, (by decide +kernel), (by decide +kernel), (by decide +kernel), (by decide +kernel), (by decide +kernel)⟩,
   ⟨(({ State.reset with pro := { sensors := [(2, { warnRun := 3, throtRun := 3 })] } }.setPort 600 { rttN := 4 }).cset (PL_STAT_STATE 600) 6), 2, 399, (by decide +kernel), (by decide +kernel), (by decide +kernel), (by decide +kernel)⟩,
   ⟨({ State.reset with pro := { sensors := [(2, { warnRun := 3, warn := some 100 })] } }), 2, 380, ((100 : Nat)), (by decide +kernel), (by decide +kernel), (by decide +kernel), (by decide +kernel), (by decide +kernel)⟩,
   ⟨({ State.reset with pro := { sensors := [(2, { warnRun := 3, warn := some 100 })] } }), 2, 381, ((100 : Nat)), (by decide +kernel), (by decide +kernel), (by decide +kernel), (by decide +kernel), (by decide +kernel)⟩,
   ⟨(({ State.reset with pro := { sensors := [(2, { warnRun := 3, throtRun := 3 })] } }.setPort 600 { rttN := 4 }).cset (PL_STAT_STATE 600) 6), 2, 500, (by decide +kernel), (by decide +kernel), (by decide +kernel), (by decide +kernel), (by decide +kernel), (by decide +kernel), (by decide +kernel)⟩,
   ⟨(State.reset.setFe 3 { powered := true, sens := [(4, { throtRun := 3 })] }), 3, 4, 480, (by decide +kernel), (by decide +kernel), (by decide +kernel), (by decide +kernel), (by decide +kernel), (by decide +kernel)⟩,
   ⟨(State.reset.setFe 3 { powered := false }), 3, (by decide +kernel)⟩,
   ⟨State.reset, 9, 1, (by decide +kernel), (by decide +kernel)⟩,
   ⟨((tk 250000 ({ State.reset with pro := { actions := [8, 2] } }.setPort 600 { rttN := 4 })).cset (PL_STAT_STATE 600) 6 |>.cset GLB_STAT_STATE 1), 2, 2, (by decide +kernel), (by decide +kernel), (by decide +kernel), (by decide +kernel), (by decide +kernel)⟩,
   ⟨(tk 250000 (State.reset.setFe 3 { thermalHold := true })), 3, (by decide +kernel), (by decide +kernel), (by decide +kernel)⟩,
   ⟨({ ((State.reset.cset SP_STAT_RUN 1).cset (PRO_GSTAT_STATE 2) 1).cset (PRO_GSTAT_OUT 2) 1 with nvm := { journal := [.container 1] } }), 0, (by decide +kernel), (by decide +kernel)⟩,
   ⟨({ proSt { shutdown := true, tripTick := 1 } with nvm := { journal := [.log] } } |> tk 500), (by decide +kernel)⟩,
   ⟨(tk 501 { proSt { shutdown := true, tripTick := 1 } with nvm := { journal := [.log] } }), (by decide +kernel), (by decide +kernel), (by decide +kernel)⟩,
   ⟨(tk 15000000 { State.reset with pro := { shutdown := true, coolTick := some 1 } }), 1, (by decide +kernel), (by decide +kernel), (by decide +kernel)⟩,
   ⟨(tk 15000001 { State.reset with pro := { shutdown := true, coolTick := some 1 } }), 1, (by decide +kernel), (by decide +kernel), (by decide +kernel)⟩,
   ⟨((State.reset.setFe 3 { powered := true }).setCh 3 5 { orphan := 4 }), 3, 0, (by decide +kernel), (by decide +kernel)⟩,
   ⟨((State.reset.setFe 3 { powered := true }).setCh 3 5 { orphan := 4 }), 3, ((4 : Nat)), FE_TH_CFG_WARN, (by decide +kernel), (by decide +kernel), (by decide +kernel)⟩,
   ⟨(tk 2500000 (State.reset.setFe 3 { shutdown := true, coolTick := some 1 })), 3, 1, (by decide +kernel), (by decide +kernel), (by decide +kernel)⟩,
   ⟨(tk 2500001 (State.reset.setFe 3 { shutdown := true, coolTick := some 1 })), 3, 1, (by decide +kernel), (by decide +kernel), (by decide +kernel)⟩⟩

theorem witness_SupplyDipsAndResets :
    (∃ (s : State), s.pro.dipFrame = none) ∧
    (∃ (s : State) (f : _), s.pro.dipFrame = some f ∧ s.nvm.overflow = 0 ∧ s.nvm.pending.length < 1024) ∧
    (∃ (s : State) (p : PortIx), (s.fe p).dipStart = none) ∧
    (∃ (s : State) (p : PortIx), (s.fe p).dipStart ≠ none) ∧
    (∃ (s : State), s.pro.shutdown = false) ∧
    (∃ (n : _), n < 4) ∧
    (∃ (f : Fld), f.key < 0x40000) ∧
    (∃ (s : State), s.pro.shutdown = true) ∧
    (∃ (s : State) (p : PortIx), (s.fe p).powered = true) ∧
    (∃ (s : State) (p : PortIx), (s.fe p).powered = false) :=
  ⟨⟨State.reset, (by decide +kernel)⟩,
   ⟨({ frmSt 50 {} with pro := { dipFrame := some 48 } }), 48, (by decide +kernel), (by decide +kernel), (by decide +kernel)⟩,
   ⟨State.reset, 3, (by decide +kernel)⟩,
   ⟨(State.reset.setFe 3 { dipStart := some 7 }), 3, (by decide +kernel)⟩,
   ⟨({ (State.reset.cset (PRO_GSTAT_STATE 2) 1) with nvm := { journal := [.container 1] } }), (by decide +kernel)⟩,
   ⟨0, (by decide +kernel)⟩,
   ⟨FE_TH_CFG_WARN, (by decide +kernel)⟩,
   ⟨({ State.reset with pro := { shutdown := true } }), (by decide +kernel)⟩,
   ⟨(State.reset.setFe 3 { powered := true }), 3, (by decide +kernel)⟩,
   ⟨(State.reset.setFe 3 { powered := false }), 3, (by decide +kernel)⟩⟩

theorem witness_PermitsFollowTheirCauses :
    (∃ (r : LoopRead), r.heldUs < 2000) ∧
    (∃ (r : LoopRead), 2000 ≤ r.heldUs ∧ 8000 ≤ r.back ∧ r.back ≤ 12000 ∧ r.source < r.back + 1000 ∧ r.back < r.source + 1000) ∧
    (∃ (r : LoopRead), 2000 ≤ r.heldUs ∧ r.back < 2000) ∧
    (∃ (r : LoopRead), 2000 ≤ r.heldUs ∧ 2000 ≤ r.back ∧ (r.back < 8000 ∨ 12000 < r.back ∨ r.back + 1000 ≤ r.source ∨ r.source + 1000 ≤ r.back)) ∧
    (∃ (s : State) (n : GuardIx), s.con (PRO_GIN_CFG_EN n) = true ∧ s.cget (PRO_GIN_STATE n) ≠ 1) ∧
    (∃ (s : State) (n : GuardIx), (s.con (PRO_GIN_CFG_EN n) = false ∨ s.cget (PRO_GIN_STATE n) = 1)) ∧
    (∃ (s : State) (ns : Nat), s.pro.shutdown = false ∧ 1000 ≤ ns) ∧
    (∃ (s : State) (n : GuardIx) (i : GuardIx), s.permit n = 0 ∧ s.con (PRO_GIN_CFG_EN i) = true ∧ bitAt (s.cget (PRO_GIN_CFG_PMASK i)) n = true ∧ s.con (PRO_GIN_PROVEN i) = false) ∧
    (∃ (s : State) (n : GuardIx) (gv : Nat) (ok : Bool) (z : State), s.pro.shutdown = false ∧ s.pro.latchRead = true ∧ s.pro.evals ≠ ((s.tm.tick - s.pro.guardTick) * 2 / 125 + 1) ∧ (z = (s.cset PRO_STAT_GV24_OK (b2n (decide (18000 ≤ gv)))).modPro (fun x => { x with selfBad := !ok, evals := ((s.tm.tick - s.pro.guardTick) * 2 / 125 + 1) })) ∧ bitAt (s.cget PRO_STAT_LATCH) n = s.nvm.latch0.getD n false ∧ gv < 18000) ∧
    (∃ (s : State) (n : GuardIx) (gv : Nat) (ok : Bool) (z : State), s.pro.shutdown = false ∧ s.pro.latchRead = true ∧ s.pro.evals ≠ ((s.tm.tick - s.pro.guardTick) * 2 / 125 + 1) ∧ (z = (s.cset PRO_STAT_GV24_OK (b2n (decide (18000 ≤ gv)))).modPro (fun x => { x with selfBad := !ok, evals := ((s.tm.tick - s.pro.guardTick) * 2 / 125 + 1) })) ∧ bitAt (s.cget PRO_STAT_LATCH) n = s.nvm.latch0.getD n false ∧ ok = false) ∧
    (∃ (s : State) (n : GuardIx) (gv : Nat) (ok : Bool) (z : State), s.pro.shutdown = false ∧ s.pro.latchRead = true ∧ s.pro.evals ≠ ((s.tm.tick - s.pro.guardTick) * 2 / 125 + 1) ∧ (z = (s.cset PRO_STAT_GV24_OK (b2n (decide (18000 ≤ gv)))).modPro (fun x => { x with selfBad := !ok, evals := ((s.tm.tick - s.pro.guardTick) * 2 / 125 + 1) })) ∧ bitAt (s.cget PRO_STAT_LATCH) n = s.nvm.latch0.getD n false ∧ s.permit n = 0 ∧ s.nvm.latch0.getD n false = true) ∧
    (∃ (s : State) (n : GuardIx) (gv : Nat) (ok : Bool) (z : State), s.pro.shutdown = false ∧ s.pro.latchRead = true ∧ s.pro.evals ≠ ((s.tm.tick - s.pro.guardTick) * 2 / 125 + 1) ∧ (z = (s.cset PRO_STAT_GV24_OK (b2n (decide (18000 ≤ gv)))).modPro (fun x => { x with selfBad := !ok, evals := ((s.tm.tick - s.pro.guardTick) * 2 / 125 + 1) })) ∧ bitAt (s.cget PRO_STAT_LATCH) n = s.nvm.latch0.getD n false ∧ s.permit n = 0 ∧ s.nvm.latch0.getD n false = false ∧ (z.causes n) = 0 ∧ z.grantable n = true) ∧
    (∃ (s : State) (n : GuardIx) (gv : Nat) (ok : Bool) (z : State), s.pro.shutdown = false ∧ s.pro.latchRead = true ∧ s.pro.evals ≠ ((s.tm.tick - s.pro.guardTick) * 2 / 125 + 1) ∧ (z = (s.cset PRO_STAT_GV24_OK (b2n (decide (18000 ≤ gv)))).modPro (fun x => { x with selfBad := !ok, evals := ((s.tm.tick - s.pro.guardTick) * 2 / 125 + 1) })) ∧ bitAt (s.cget PRO_STAT_LATCH) n = s.nvm.latch0.getD n false ∧ s.permit n = 0 ∧ s.nvm.latch0.getD n false = false ∧ ((z.causes n) ≠ 0 ∨ z.grantable n = false)) ∧
    (∃ (s : State) (n : GuardIx) (gv : Nat) (ok : Bool) (z : State), s.pro.shutdown = false ∧ s.pro.latchRead = true ∧ s.pro.evals ≠ ((s.tm.tick - s.pro.guardTick) * 2 / 125 + 1) ∧ (z = (s.cset PRO_STAT_GV24_OK (b2n (decide (18000 ≤ gv)))).modPro (fun x => { x with selfBad := !ok, evals := ((s.tm.tick - s.pro.guardTick) * 2 / 125 + 1) })) ∧ bitAt (s.cget PRO_STAT_LATCH) n = s.nvm.latch0.getD n false ∧ (s.permit n = 1 ∨ s.permit n = 2) ∧ (z.causes n) = 0) ∧
    (∃ (s : State) (n : GuardIx) (gv : Nat) (ok : Bool) (z : State), s.pro.shutdown = false ∧ s.pro.latchRead = true ∧ s.pro.evals ≠ ((s.tm.tick - s.pro.guardTick) * 2 / 125 + 1) ∧ (z = (s.cset PRO_STAT_GV24_OK (b2n (decide (18000 ≤ gv)))).modPro (fun x => { x with selfBad := !ok, evals := ((s.tm.tick - s.pro.guardTick) * 2 / 125 + 1) })) ∧ bitAt (s.cget PRO_STAT_LATCH) n = s.nvm.latch0.getD n false ∧ s.permit n = 1 ∧ (z.causes n) ≠ 0 ∧ s.classL = false ∧ s.nvm.latch0.length = 4) ∧
    (∃ (s : State) (n : GuardIx) (gv : Nat) (ok : Bool) (z : State), s.pro.shutdown = false ∧ s.pro.latchRead = true ∧ s.pro.evals ≠ ((s.tm.tick - s.pro.guardTick) * 2 / 125 + 1) ∧ (z = (s.cset PRO_STAT_GV24_OK (b2n (decide (18000 ≤ gv)))).modPro (fun x => { x with selfBad := !ok, evals := ((s.tm.tick - s.pro.guardTick) * 2 / 125 + 1) })) ∧ bitAt (s.cget PRO_STAT_LATCH) n = s.nvm.latch0.getD n false ∧ s.permit n = 1 ∧ (z.causes n) ≠ 0 ∧ bitAt (z.causes n) 6 = false ∧ s.classL = true) ∧
    (∃ (s : State) (n : GuardIx) (gv : Nat) (ok : Bool) (z : State), s.pro.shutdown = false ∧ s.pro.latchRead = true ∧ s.pro.evals ≠ ((s.tm.tick - s.pro.guardTick) * 2 / 125 + 1) ∧ (z = (s.cset PRO_STAT_GV24_OK (b2n (decide (18000 ≤ gv)))).modPro (fun x => { x with selfBad := !ok, evals := ((s.tm.tick - s.pro.guardTick) * 2 / 125 + 1) })) ∧ bitAt (s.cget PRO_STAT_LATCH) n = s.nvm.latch0.getD n false ∧ (s.permit n = 1 ∨ s.permit n = 2) ∧ bitAt (z.causes n) 6 = true ∧ s.classL = true) ∧
    (∃ (s : State) (n : GuardIx) (gv : Nat) (ok : Bool) (z : State), s.pro.shutdown = false ∧ s.pro.latchRead = true ∧ s.pro.evals ≠ ((s.tm.tick - s.pro.guardTick) * 2 / 125 + 1) ∧ (z = (s.cset PRO_STAT_GV24_OK (b2n (decide (18000 ≤ gv)))).modPro (fun x => { x with selfBad := !ok, evals := ((s.tm.tick - s.pro.guardTick) * 2 / 125 + 1) })) ∧ bitAt (s.cget PRO_STAT_LATCH) n = s.nvm.latch0.getD n false ∧ 3 ≤ s.permit n) ∧
    (∃ (s : State), (s.pro.shutdown = true ∨ s.pro.evals = ((s.tm.tick - s.pro.guardTick) * 2 / 125 + 1))) ∧
    (∃ (s : State) (n : GuardIx) (gv : Nat) (mv : Nat), s.pro.shutdown = false ∧ s.pro.evals ≠ ((s.tm.tick - s.pro.guardTick) * 2 / 125 + 1) ∧ s.pro.latchRead = true ∧ s.permit n = 1 ∧ s.con PRO_STAT_COMMON_OPEN = false ∧ mv + 2000 ≤ gv) ∧
    (∃ (s : State) (n : GuardIx) (gv : Nat) (mv : Nat), s.pro.shutdown = false ∧ s.pro.evals ≠ ((s.tm.tick - s.pro.guardTick) * 2 / 125 + 1) ∧ s.pro.latchRead = true ∧ s.permit n = 1 ∧ s.con PRO_STAT_COMMON_OPEN = false ∧ gv < mv + 2000) ∧
    (∃ (s : State) (n : GuardIx) (mv : Nat), s.pro.shutdown = false ∧ s.pro.evals ≠ ((s.tm.tick - s.pro.guardTick) * 2 / 125 + 1) ∧ s.pro.latchRead = true ∧ s.permit n = 3 ∧ 5000 ≤ mv) ∧
    (∃ (s : State) (n : GuardIx) (mv : Nat), s.pro.shutdown = false ∧ s.pro.evals ≠ ((s.tm.tick - s.pro.guardTick) * 2 / 125 + 1) ∧ s.pro.latchRead = true ∧ s.permit n = 3 ∧ mv < 5000) ∧
    (∃ (s : State) (n : GuardIx), s.permit n = 2 ∧ s.causes n = 0 ∧ tget s.pro.causeTick n 0 + 500000 ≤ s.tm.tick ∧ s.tm.tick < (tget s.pro.heldTick n 0) + 7500000) ∧
    (∃ (s : State) (n : GuardIx), s.permit n = 2 ∧ (s.causes n ≠ 0 ∨ (tget s.pro.heldTick n 0) + 7500000 ≤ s.tm.tick)) ∧
    (∃ (s : State) (n : GuardIx), s.permit n = 2 ∧ (tget s.pro.heldTick n 0) + 7500000 ≤ s.tm.tick) ∧
    (∃ (s : State) (n : GuardIx), (s.outputOn n = false ∨ (s.tm.tick - s.pro.guardTick) % 250000 < 62500 * n.val ∨ tget s.pro.pulseSec n 0 = ((s.tm.tick - s.pro.guardTick) / 250000 + 1))) ∧
    (∃ (s : State) (n : GuardIx) (fall : Option Nat) (rise : Option Nat), (s.permit n = 1 ∨ s.permit n = 2) ∧ s.con PRO_STAT_COMMON_OPEN = false ∧ 62500 * n.val ≤ (s.tm.tick - s.pro.guardTick) % 250000 ∧ tget s.pro.pulseSec n 0 ≠ ((s.tm.tick - s.pro.guardTick) / 250000 + 1) ∧ ((fall.any fun a => decide (a ≤ 150)) = true) ∧ ((rise.any fun a => decide (a ≤ 200)) = true)) ∧
    (∃ (s : State) (n : GuardIx) (fall : Option Nat), (s.permit n = 1 ∨ s.permit n = 2) ∧ s.con PRO_STAT_COMMON_OPEN = false ∧ 62500 * n.val ≤ (s.tm.tick - s.pro.guardTick) % 250000 ∧ tget s.pro.pulseSec n 0 ≠ ((s.tm.tick - s.pro.guardTick) / 250000 + 1) ∧ ((fall.any fun a => decide (a ≤ 150)) = false)) ∧
    (∃ (s : State) (n : GuardIx) (rise : Option Nat), (s.permit n = 1 ∨ s.permit n = 2) ∧ s.con PRO_STAT_COMMON_OPEN = false ∧ 62500 * n.val ≤ (s.tm.tick - s.pro.guardTick) % 250000 ∧ tget s.pro.pulseSec n 0 ≠ ((s.tm.tick - s.pro.guardTick) / 250000 + 1) ∧ ((rise.any fun a => decide (a ≤ 200)) = false)) ∧
    (∃ (s : State) (n : GuardIx), s.outputOn n = false) ∧
    (∃ (s : State), s.pro.grstHeld = true) ∧
    (∃ (s : State), s.pro.grstHeld = false) ∧
    (∃ (ms : Nat), ms < 500) ∧
    (∃ (ms : Nat) (n : _), 5000 < ms ∧ n < 4) ∧
    (∃ (s : State) (ms : Nat) (t : List OutRead) (z : _) (n : _), 500 ≤ ms ∧ ms ≤ 5000 ∧ (z = (s.modPro fun x => { x with grstHeld := false }).commonTest t) ∧ n < 4 ∧ (s.permit n = 3 ∨ s.permit n = 4) ∧ z.causes n = 0) ∧
    (∃ (s : State) (ms : Nat) (t : List OutRead) (z : _) (n : _), 500 ≤ ms ∧ ms ≤ 5000 ∧ (z = (s.modPro fun x => { x with grstHeld := false }).commonTest t) ∧ n < 4 ∧ (s.permit n ≤ 2 ∨ z.causes n ≠ 0)) ∧
    (∃ (s : State) (ms : Nat) (t : List OutRead) (z : _) (n : _), 500 ≤ ms ∧ ms ≤ 5000 ∧ (z = (s.modPro fun x => { x with grstHeld := false }).commonTest t) ∧ n < 4 ∧ ((t.filter fun x => decide (x.mv < 5000)) = [])) ∧
    (∃ (s : State) (x : BitVec 2), x.toNat ≠ s.cget PRO_STAT_CLASS ∧ s.pro.strapBad = false) ∧
    (∃ (s : State) (n : _), s.pro.latchRead = false ∧ s.nvm.latch0 = s.nvm.latch1 ∧ n < 4) :=
  ⟨⟨(⟨10000, 10000, 1999⟩), (by decide +kernel)⟩,
   ⟨(⟨8999, 8000, 2000⟩), (by decide +kernel), (by decide +kernel), (by decide +kernel), (by decide +kernel), (by decide +kernel)⟩,
   ⟨(⟨0, 1999, 2000⟩), (by decide +kernel), (by decide +kernel)⟩,
   ⟨(⟨11000, 12001, 2000⟩), (by decide +kernel), (by decide +kernel), (by decide +kernel)⟩,
   ⟨(State.reset.cset (PRO_GIN_CFG_EN 2) 1), 2, (by decide +kernel), (by decide +kernel)⟩,
   ⟨(State.reset.cset (PRO_GIN_CFG_EN 2) 1 |>.cset (PRO_GIN_STATE 2) 1), 2, (by decide +kernel)⟩,
   ⟨(State.reset.cset (PRO_GIN_PROVEN 1) 1), 1000, (by decide +kernel), (by decide +kernel)⟩,
   ⟨(inOne (guardSt 2 0 1 { commonTested := true }) |>.cset (PRO_GOUT_EN 2) 1), 2, 1, (by decide +kernel), (by decide +kernel), (by decide +kernel), (by decide +kernel)⟩,
   ⟨({ (inOne (guardSt 2 1 1 { commonTested := true }) |>.cset (PRO_GIN_PROVEN 1) 1 |>.cset (PRO_GOUT_EN 2) 1 |>.cset PRO_STAT_LATCH 0) with nvm := { latch0 := [false, false, false, false], latch1 := [false, false, false, false] } }), 2, 17999, true, ((({ (inOne (guardSt 2 1 1 { commonTested := true }) |>.cset (PRO_GIN_PROVEN 1) 1 |>.cset (PRO_GOUT_EN 2) 1 |>.cset PRO_STAT_LATCH 0) with nvm := { latch0 := [false, false, false, false], latch1 := [false, false, false, false] } }).cset PRO_STAT_GV24_OK (b2n (decide (18000 ≤ (17999 : Nat))))).modPro (fun x => { x with selfBad := !true, evals := 1 })), (by decide +kernel), (by decide +kernel), (by decide +kernel), (by decide +kernel), (by decide +kernel), (by decide +kernel)⟩,
   ⟨({ (inOne (guardSt 2 1 1 { commonTested := true }) |>.cset (PRO_GIN_PROVEN 1) 1 |>.cset (PRO_GOUT_EN 2) 1 |>.cset PRO_STAT_LATCH 0) with nvm := { latch0 := [false, false, false, false], latch1 := [false, false, false, false] } }), 2, 18000, false, ((({ (inOne (guardSt 2 1 1 { commonTested := true }) |>.cset (PRO_GIN_PROVEN 1) 1 |>.cset (PRO_GOUT_EN 2) 1 |>.cset PRO_STAT_LATCH 0) with nvm := { latch0 := [false, false, false, false], latch1 := [false, false, false, false] } }).cset PRO_STAT_GV24_OK (b2n (decide (18000 ≤ (18000 : Nat))))).modPro (fun x => { x with selfBad := !false, evals := 1 })), (by decide +kernel), (by decide +kernel), (by decide +kernel), (by decide +kernel), (by decide +kernel), (by decide +kernel)⟩,
   ⟨({ (inOne (guardSt 2 0 1 { commonTested := true }) |>.cset (PRO_GIN_PROVEN 1) 1 |>.cset (PRO_GOUT_EN 2) 1 |>.cset PRO_STAT_LATCH 4) with nvm := { latch0 := [false, false, true, false], latch1 := [false, false, true, false] } }), 2, 18000, true, ((({ (inOne (guardSt 2 0 1 { commonTested := true }) |>.cset (PRO_GIN_PROVEN 1) 1 |>.cset (PRO_GOUT_EN 2) 1 |>.cset PRO_STAT_LATCH 4) with nvm := { latch0 := [false, false, true, false], latch1 := [false, false, true, false] } }).cset PRO_STAT_GV24_OK (b2n (decide (18000 ≤ (18000 : Nat))))).modPro (fun x => { x with selfBad := !true, evals := 1 })), (by decide +kernel), (by decide +kernel), (by decide +kernel), (by decide +kernel), (by decide +kernel), (by decide +kernel), (by decide +kernel)⟩,
   ⟨({ (inOne (guardSt 2 0 1 { commonTested := true }) |>.cset (PRO_GIN_PROVEN 1) 1 |>.cset (PRO_GOUT_EN 2) 1 |>.cset PRO_STAT_LATCH 0) with nvm := { latch0 := [false, false, false, false], latch1 := [false, false, false, false] } }), 2, 18000, true, ((({ (inOne (guardSt 2 0 1 { commonTested := true }) |>.cset (PRO_GIN_PROVEN 1) 1 |>.cset (PRO_GOUT_EN 2) 1 |>.cset PRO_STAT_LATCH 0) with nvm := { latch0 := [false, false, false, false], latch1 := [false, false, false, false] } }).cset PRO_STAT_GV24_OK (b2n (decide (18000 ≤ (18000 : Nat))))).modPro (fun x => { x with selfBad := !true, evals := 1 })), (by decide +kernel), (by decide +kernel), (by decide +kernel), (by decide +kernel), (by decide +kernel), (by decide +kernel), (by decide +kernel), (by decide +kernel), (by decide +kernel)⟩,
   ⟨({ (inOne (guardSt 2 0 1 { commonTested := true }) |>.cset (PRO_GIN_PROVEN 1) 1 |>.cset (PRO_GOUT_EN 2) 1 |>.cset PRO_STAT_LATCH 0) with nvm := { latch0 := [false, false, false, false], latch1 := [false, false, false, false] } }), 2, 17999, true, ((({ (inOne (guardSt 2 0 1 { commonTested := true }) |>.cset (PRO_GIN_PROVEN 1) 1 |>.cset (PRO_GOUT_EN 2) 1 |>.cset PRO_STAT_LATCH 0) with nvm := { latch0 := [false, false, false, false], latch1 := [false, false, false, false] } }).cset PRO_STAT_GV24_OK (b2n (decide (18000 ≤ (17999 : Nat))))).modPro (fun x => { x with selfBad := !true, evals := 1 })), (by decide +kernel), (by decide +kernel), (by decide +kernel), (by decide +kernel), (by decide +kernel), (by decide +kernel), (by decide +kernel), (by decide +kernel)⟩,
   ⟨({ (inOne (guardSt 2 2 1 { commonTested := true }) |>.cset (PRO_GIN_PROVEN 1) 1 |>.cset (PRO_GOUT_EN 2) 1 |>.cset PRO_STAT_LATCH 0) with nvm := { latch0 := [false, false, false, false], latch1 := [false, false, false, false] } }), 2, 18000, true, ((({ (inOne (guardSt 2 2 1 { commonTested := true }) |>.cset (PRO_GIN_PROVEN 1) 1 |>.cset (PRO_GOUT_EN 2) 1 |>.cset PRO_STAT_LATCH 0) with nvm := { latch0 := [false, false, false, false], latch1 := [false, false, false, false] } }).cset PRO_STAT_GV24_OK (b2n (decide (18000 ≤ (18000 : Nat))))).modPro (fun x => { x with selfBad := !true, evals := 1 })), (by decide +kernel), (by decide +kernel), (by decide +kernel), (by decide +kernel), (by decide +kernel), (by decide +kernel), (by decide +kernel)⟩,
   ⟨({ (inOne (guardSt 2 1 2 { commonTested := true }) |>.cset (PRO_GIN_PROVEN 1) 1 |>.cset (PRO_GOUT_EN 2) 1 |>.cset PRO_STAT_LATCH 0) with nvm := { latch0 := [false, false, false, false], latch1 := [false, false, false, false] } }), 2, 17999, true, ((({ (inOne (guardSt 2 1 2 { commonTested := true }) |>.cset (PRO_GIN_PROVEN 1) 1 |>.cset (PRO_GOUT_EN 2) 1 |>.cset PRO_STAT_LATCH 0) with nvm := { latch0 := [false, false, false, false], latch1 := [false, false, false, false] } }).cset PRO_STAT_GV24_OK (b2n (decide (18000 ≤ (17999 : Nat))))).modPro (fun x => { x with selfBad := !true, evals := 1 })), (by decide +kernel), (by decide +kernel), (by decide +kernel), (by decide +kernel), (by decide +kernel), (by decide +kernel), (by decide +kernel), (by decide +kernel), (by decide +kernel)⟩,
   ⟨({ (inOne (guardSt 2 1 1 { commonTested := true }) |>.cset (PRO_GIN_PROVEN 1) 1 |>.cset (PRO_GOUT_EN 2) 1 |>.cset PRO_STAT_LATCH 0) with nvm := { latch0 := [false, false, false, false], latch1 := [false, false, false, false] } }), 2, 17999, true, ((({ (inOne (guardSt 2 1 1 { commonTested := true }) |>.cset (PRO_GIN_PROVEN 1) 1 |>.cset (PRO_GOUT_EN 2) 1 |>.cset PRO_STAT_LATCH 0) with nvm := { latch0 := [false, false, false, false], latch1 := [false, false, false, false] } }).cset PRO_STAT_GV24_OK (b2n (decide (18000 ≤ (17999 : Nat))))).modPro (fun x => { x with selfBad := !true, evals := 1 })), (by decide +kernel), (by decide +kernel), (by decide +kernel), (by decide +kernel), (by decide +kernel), (by decide +kernel), (by decide +kernel), (by decide +kernel), (by decide +kernel)⟩,
   ⟨({ (inOne (guardSt 2 2 1 { commonTested := true }) |>.cset (PRO_GIN_PROVEN 1) 1 |>.cset (PRO_GOUT_EN 2) 1 |>.cset PRO_STAT_LATCH 0) with nvm := { latch0 := [false, false, false, false], latch1 := [false, false, false, false] } }), 2, 18000, false, ((({ (inOne (guardSt 2 2 1 { commonTested := true }) |>.cset (PRO_GIN_PROVEN 1) 1 |>.cset (PRO_GOUT_EN 2) 1 |>.cset PRO_STAT_LATCH 0) with nvm := { latch0 := [false, false, false, false], latch1 := [false, false, false, false] } }).cset PRO_STAT_GV24_OK (b2n (decide (18000 ≤ (18000 : Nat))))).modPro (fun x => { x with selfBad := !false, evals := 1 })), (by decide +kernel), (by decide +kernel), (by decide +kernel), (by decide +kernel), (by decide +kernel), (by decide +kernel), (by decide +kernel), (by decide +kernel)⟩,
   ⟨({ (inOne (guardSt 2 4 1 { commonTested := true }) |>.cset (PRO_GIN_PROVEN 1) 1 |>.cset (PRO_GOUT_EN 2) 1 |>.cset PRO_STAT_LATCH 4) with nvm := { latch0 := [false, false, true, false], latch1 := [false, false, true, false] } }), 2, 18000, true, ((({ (inOne (guardSt 2 4 1 { commonTested := true }) |>.cset (PRO_GIN_PROVEN 1) 1 |>.cset (PRO_GOUT_EN 2) 1 |>.cset PRO_STAT_LATCH 4) with nvm := { latch0 := [false, false, true, false], latch1 := [false, false, true, false] } }).cset PRO_STAT_GV24_OK (b2n (decide (18000 ≤ (18000 : Nat))))).modPro (fun x => { x with selfBad := !true, evals := 1 })), (by decide +kernel), (by decide +kernel), (by decide +kernel), (by decide +kernel), (by decide +kernel), (by decide +kernel)⟩,
   ⟨(proSt { shutdown := true }), (by decide +kernel)⟩,
   ⟨(guardSt 2 1 1 {}), 2, 24000, 22000, (by decide +kernel), (by decide +kernel), (by decide +kernel), (by decide +kernel), (by decide +kernel), (by decide +kernel)⟩,
   ⟨(guardSt 2 1 1 {}), 2, 24000, 22001, (by decide +kernel), (by decide +kernel), (by decide +kernel), (by decide +kernel), (by decide +kernel), (by decide +kernel)⟩,
   ⟨(guardSt 2 3 1 {}), 2, 5000, (by decide +kernel), (by decide +kernel), (by decide +kernel), (by decide +kernel), (by decide +kernel)⟩,
   ⟨(guardSt 2 3 1 {}), 2, 4999, (by decide +kernel), (by decide +kernel), (by decide +kernel), (by decide +kernel), (by decide +kernel)⟩,
   ⟨(tk 500000 (guardSt 2 2 1 {})), 2, (by decide +kernel), (by decide +kernel), (by decide +kernel), (by decide +kernel)⟩,
   ⟨(tk 7500000 (guardSt 2 2 1 {})), 2, (by decide +kernel), (by decide +kernel)⟩,
   ⟨(tk 7500000 (guardSt 2 2 1 {})), 2, (by decide +kernel), (by decide +kernel)⟩,
   ⟨(tk 124999 (guardSt 2 1 1 {})), 2, (by decide +kernel)⟩,
   ⟨(tk 125000 (guardSt 2 2 1 {})), 2, (some 150), (some 200), (by decide +kernel), (by decide +kernel), (by decide +kernel), (by decide +kernel), (by decide +kernel), (by decide +kernel)⟩,
   ⟨(tk 125000 (guardSt 2 2 1 {})), 2, (some 151), (by decide +kernel), (by decide +kernel), (by decide +kernel), (by decide +kernel), (by decide +kernel)⟩,
   ⟨(tk 125000 (guardSt 2 2 1 {})), 2, none, (by decide +kernel), (by decide +kernel), (by decide +kernel), (by decide +kernel), (by decide +kernel)⟩,
   ⟨(guardSt 2 3 1 {}), 2, (by decide +kernel)⟩,
   ⟨(proSt { grstHeld := true }), (by decide +kernel)⟩,
   ⟨(tk 7 State.reset), (by decide +kernel)⟩,
   ⟨499, (by decide +kernel)⟩,
   ⟨5001, 2, (by decide +kernel), (by decide +kernel)⟩,
   ⟨(guardSt 2 3 1 { grstHeld := true }), 500, outs0, (((guardSt 2 3 1 { grstHeld := true }).modPro fun x => { x with grstHeld := false }).commonTest outs0), 2, (by decide +kernel), (by decide +kernel), (by decide +kernel), (by decide +kernel), (by decide +kernel), (by decide +kernel)⟩,
   ⟨(guardSt 2 1 1 { grstHeld := true }), 500, outs0, (((guardSt 2 1 1 { grstHeld := true }).modPro fun x => { x with grstHeld := false }).commonTest outs0), 2, (by decide +kernel), (by decide +kernel), (by decide +kernel), (by decide +kernel), (by decide +kernel)⟩,
   ⟨(guardSt 2 3 1 { grstHeld := true }), 500, ([]), (((guardSt 2 3 1 { grstHeld := true }).modPro fun x => { x with grstHeld := false }).commonTest ([])), 2, (by decide +kernel), (by decide +kernel), (by decide +kernel), (by decide +kernel), (by decide +kernel)⟩,
   ⟨(guardSt 2 1 1 {}), 2, (by decide +kernel), (by decide +kernel)⟩,
   ⟨({ State.reset with nvm := { latch0 := [true, false, false, true], latch1 := [true, false, false, true] } }), 2, (by decide +kernel), (by decide +kernel), (by decide +kernel)⟩⟩

theorem witness_ThePasswordGuardsTheSettings :
    (∃ (s : State) (m : MasterIx), s.frozen m = false ∧ s.permitted m .control PRO_GPW_BYTE.reg .write = true ∧ s.pro.candidate.length < 33) ∧
    (∃ (s : State) (m : MasterIx), s.frozen m = false ∧ s.permitted m .control PRO_GPW_BYTE.reg .write = true ∧ 33 ≤ s.pro.candidate.length) ∧
    (∃ (s : State) (m : MasterIx) (v : W32), s.frozen m = false ∧ s.permitted m .control PRO_GCOMMIT_CLOSE.reg .write = true ∧ bitAt v.toNat 0 = true) ∧
    (∃ (s : State) (m : MasterIx) (v : W32), s.frozen m = false ∧ s.permitted m .control PRO_GWIN_CHECK.reg .write = true ∧ bitAt v.toNat 0 = false) ∧
    (∃ (s : State) (m : MasterIx) (v : W32), s.frozen m = false ∧ s.permitted m .control PRO_GWIN_CHECK.reg .write = true ∧ bitAt v.toNat 0 = true ∧ s.con PRO_GWIN_BLOCKED = true) ∧
    (∃ (s : State) (m : MasterIx) (v : W32), s.frozen m = false ∧ s.permitted m .control PRO_GWIN_CHECK.reg .write = true ∧ bitAt v.toNat 0 = true ∧ s.con PRO_GWIN_BLOCKED = false ∧ sha256 (s.pro.salt ++ s.pro.candidate) = s.pro.verifier ∧ s.con PRO_GWIN_PW_SET = true ∧ s.pro.candidate.length ≤ 32) ∧
    (∃ (s : State) (m : MasterIx) (v : W32), s.frozen m = false ∧ s.permitted m .control PRO_GWIN_CHECK.reg .write = true ∧ bitAt v.toNat 0 = true ∧ s.con PRO_GWIN_BLOCKED = false ∧ (sha256 (s.pro.salt ++ s.pro.candidate) ≠ s.pro.verifier ∨ s.con PRO_GWIN_PW_SET = false ∨ 32 < s.pro.candidate.length) ∧ s.pro.failTicks = []) ∧
    (∃ (s : State) (m : MasterIx) (v : W32) (a : _) (b : _), s.frozen m = false ∧ s.permitted m .control PRO_GWIN_CHECK.reg .write = true ∧ bitAt v.toNat 0 = true ∧ s.con PRO_GWIN_BLOCKED = false ∧ (sha256 (s.pro.salt ++ s.pro.candidate) ≠ s.pro.verifier ∨ s.con PRO_GWIN_PW_SET = false ∨ 32 < s.pro.candidate.length) ∧ s.pro.failTicks = [a, b] ∧ s.tm.tick < a + 15000000 ∧ s.tm.tick < b + 15000000) ∧
    (∃ (s : State), s.con PRO_GWIN_OPEN = true ∧ s.pro.windowTick + 2500000 ≤ s.tm.tick) ∧
    (∃ (s : State), s.con PRO_GWIN_OPEN = true ∧ s.tm.tick < s.pro.windowTick + 2500000) ∧
    (∃ (s : State), s.con PRO_GWIN_BLOCKED = true ∧ s.pro.blockTick + 15000000 ≤ s.tm.tick) ∧
    (∃ (s : State), s.con PRO_GWIN_BLOCKED = true ∧ s.tm.tick < s.pro.blockTick + 15000000) ∧
    (∃ (s : State) (j : Fin 8) (tag : BitVec 16) (pw : List Byte) (a : W32) (v : W32) (body : List Byte), s.sp.taken = none ∧ (∀ cmd, s.preReply (s.laneOf j) 6 cmd tag.toNat = none) ∧ pw.length ≤ 32 ∧ body = (BitVec.ofNat 8 pw.length) :: pw ++ leBytes 2 1 ++ leBytes 4 a.toNat ++ leBytes 4 v.toNat ∧ a.toNat % 4 ≠ 0) ∧
    (∃ (s : State) (j : Fin 8) (tag : BitVec 16) (pw : List Byte) (n : GuardIx) (a : W32) (v : W32) (body : List Byte), s.sp.taken = none ∧ (∀ cmd, s.preReply (s.laneOf j) 6 cmd tag.toNat = none) ∧ pw.length ≤ 32 ∧ body = (BitVec.ofNat 8 pw.length) :: pw ++ leBytes 2 1 ++ leBytes 4 a.toNat ++ leBytes 4 v.toNat ∧ a.toNat = (PRO_GOUT_EN n).reg ∧ s.writeBusy = true) ∧
    (∃ (s : State) (j : Fin 8) (tag : BitVec 16) (pw : List Byte) (n : GuardIx) (a : W32) (v : W32) (body : List Byte), s.sp.taken = none ∧ (∀ cmd, s.preReply (s.laneOf j) 6 cmd tag.toNat = none) ∧ pw.length ≤ 32 ∧ body = (BitVec.ofNat 8 pw.length) :: pw ++ leBytes 2 1 ++ leBytes 4 a.toNat ++ leBytes 4 v.toNat ∧ a.toNat = (PRO_GOUT_EN n).reg ∧ s.writeBusy = false ∧ s.con PRO_GWIN_BLOCKED = false ∧ s.con PRO_GWIN_PW_SET = true ∧ (decide (sha256 (s.pro.salt ++ pw) = s.pro.verifier)) = true ∧ s.nvm.inUse = none) ∧
    (∃ (s : State) (j : Fin 8) (tag : BitVec 16) (pw : List Byte) (n : GuardIx) (a : W32) (v : W32) (body : List Byte), s.sp.taken = none ∧ (∀ cmd, s.preReply (s.laneOf j) 6 cmd tag.toNat = none) ∧ pw.length ≤ 32 ∧ body = (BitVec.ofNat 8 pw.length) :: pw ++ leBytes 2 1 ++ leBytes 4 a.toNat ++ leBytes 4 v.toNat ∧ a.toNat = (PRO_GOUT_EN n).reg ∧ s.writeBusy = false ∧ s.con PRO_GWIN_BLOCKED = false ∧ s.con PRO_GWIN_PW_SET = true ∧ (decide (sha256 (s.pro.salt ++ pw) = s.pro.verifier)) = false) ∧
    (∃ (s : State) (j : Fin 8) (tag : BitVec 16) (pw : List Byte) (new : List Byte) (salt : List Byte), s.sp.taken = none ∧ (∀ cmd, s.preReply (s.laneOf j) 6 cmd tag.toNat = none) ∧ pw.length ≤ 32 ∧ goodPassword new = true ∧ s.writeBusy = false ∧ salt.length = 16 ∧ s.con PRO_GWIN_BLOCKED = false ∧ s.con PRO_GWIN_PW_SET = true ∧ pw ≠ [] ∧ (decide (sha256 (s.pro.salt ++ pw) = s.pro.verifier)) = true) ∧
    (∃ (s : State) (j : Fin 8) (tag : BitVec 16) (pw : List Byte) (new : List Byte) (salt : List Byte), s.sp.taken = none ∧ (∀ cmd, s.preReply (s.laneOf j) 6 cmd tag.toNat = none) ∧ pw.length ≤ 32 ∧ goodPassword new = true ∧ s.writeBusy = false ∧ salt.length = 16 ∧ s.con PRO_GWIN_BLOCKED = false ∧ s.con PRO_GWIN_PW_SET = true ∧ pw ≠ [] ∧ (decide (sha256 (s.pro.salt ++ pw) = s.pro.verifier)) = false) ∧
    (∃ (s : State) (j : Fin 8) (tag : BitVec 16) (pw : List Byte) (new : List Byte) (salt : List Byte), s.sp.taken = none ∧ (∀ cmd, s.preReply (s.laneOf j) 6 cmd tag.toNat = none) ∧ pw.length ≤ 32 ∧ goodPassword new = true ∧ s.writeBusy = false ∧ salt.length = 16 ∧ pw = [] ∧ s.con PRO_GWIN_PW_SET = false ∧ s.pro.grstHeld = true ∧ s.pro.grstTick + 125000 ≤ s.tm.tick) ∧
    (∃ (s : State) (j : Fin 8) (tag : BitVec 16) (pw : List Byte) (new : List Byte) (salt : List Byte), s.sp.taken = none ∧ (∀ cmd, s.preReply (s.laneOf j) 6 cmd tag.toNat = none) ∧ pw.length ≤ 32 ∧ goodPassword new = true ∧ s.writeBusy = false ∧ salt.length = 16 ∧ pw = [] ∧ s.con PRO_GWIN_PW_SET = false ∧ s.pro.grstHeld = true ∧ s.tm.tick < s.pro.grstTick + 125000) ∧
    (∃ (s : State) (j : Fin 8) (tag : BitVec 16) (pw : List Byte) (n : _), s.sp.taken = none ∧ (∀ cmd, s.preReply (s.laneOf j) 6 cmd tag.toNat = none) ∧ pw.length ≤ 32 ∧ s.classL = false ∧ n < 4) ∧
    (∃ (s : State) (j : Fin 8) (tag : BitVec 16) (pw : List Byte) (t : List OutRead) (n : _), s.sp.taken = none ∧ (∀ cmd, s.preReply (s.laneOf j) 6 cmd tag.toNat = none) ∧ pw.length ≤ 32 ∧ s.classL = true ∧ s.con PRO_GWIN_BLOCKED = false ∧ s.con PRO_GWIN_PW_SET = true ∧ (decide (sha256 (s.pro.salt ++ pw) = s.pro.verifier)) = true ∧ n < 4 ∧ (s.permit n = 3 ∨ s.permit n = 4) ∧ (s.commonTest t).causes n = 0) :=
  ⟨⟨(pwSt { candidate := pw8 }), 0, (by decide +kernel), (by decide +kernel), (by decide +kernel)⟩,
   ⟨(pwSt { candidate := List.replicate 33 7 }), 0, (by decide +kernel), (by decide +kernel), (by decide +kernel)⟩,
   ⟨((pwSt {}).cset PRO_GWIN_OPEN 1), 0, 1, (by decide +kernel), (by decide +kernel), (by decide +kernel)⟩,
   ⟨(pwSt { candidate := pw8 }), 0, 2, (by decide +kernel), (by decide +kernel), (by decide +kernel)⟩,
   ⟨((pwSt { candidate := pw8 }).cset PRO_GWIN_BLOCKED 1), 0, 1, (by decide +kernel), (by decide +kernel), (by decide +kernel), (by decide +kernel)⟩,
   ⟨(tk 9 (pwSt { candidate := pw8 })), 0, 1, (by decide +kernel), (by decide +kernel), (by decide +kernel), (by decide +kernel), (by decide +kernel), (by decide +kernel), (by decide +kernel)⟩,
   ⟨(tk 9 (pwSt { candidate := 1 :: pw8 })), 0, 1, (by decide +kernel), (by decide +kernel), (by decide +kernel), (by decide +kernel), (by decide +kernel), (by decide +kernel)⟩,
   ⟨(tk 9 (pwSt { candidate := 1 :: pw8, failTicks := [3, 4] })), 0, 1, ((3 : Nat)), ((4 : Nat)), (by decide +kernel), (by decide +kernel), (by decide +kernel), (by decide +kernel), (by decide +kernel), (by decide +kernel), (by decide +kernel), (by decide +kernel)⟩,
   ⟨(tk 2500001 ((pwSt { windowTick := 1 }).cset PRO_GWIN_OPEN 1)), (by decide +kernel), (by decide +kernel)⟩,
   ⟨(tk 2500000 ((pwSt { windowTick := 1 }).cset PRO_GWIN_OPEN 1)), (by decide +kernel), (by decide +kernel)⟩,
   ⟨(tk 15000001 ((pwSt { blockTick := 1 }).cset PRO_GWIN_BLOCKED 1)), (by decide +kernel), (by decide +kernel)⟩,
   ⟨(tk 15000000 ((pwSt { blockTick := 1 }).cset PRO_GWIN_BLOCKED 1)), (by decide +kernel), (by decide +kernel)⟩,
   ⟨(pwSt {}), 3, 0x44, pw8, 0x900003, 1, (setBody (0x900003 : W32) (1 : W32)), (by decide +kernel), (noReply (by decide +kernel) _), (by decide +kernel), (by decide +kernel), (by decide +kernel)⟩,
   ⟨({ pwSt {} with nvm := { cfgBuf := some (3, []) } }), 3, 0x44, pw8, 2, (BitVec.ofNat 32 (PRO_GOUT_EN 2).reg), 1, (setBody (BitVec.ofNat 32 (PRO_GOUT_EN 2).reg) (1 : W32)), (by decide +kernel), (noReply (by decide +kernel) _), (by decide +kernel), (by decide +kernel), (by decide +kernel), (by decide +kernel)⟩,
   ⟨(pwSt {}), 3, 0x44, pw8, 2, (BitVec.ofNat 32 (PRO_GOUT_EN 2).reg), 1, (setBody (BitVec.ofNat 32 (PRO_GOUT_EN 2).reg) (1 : W32)), (by decide +kernel), (noReply (by decide +kernel) _), (by decide +kernel), (by decide +kernel), (by decide +kernel), (by decide +kernel), (by decide +kernel), (by decide +kernel), (by decide +kernel), (by decide +kernel)⟩,
   ⟨(pwSt {}), 3, 0x44, (0x60 :: pw8.drop 1), 2, (BitVec.ofNat 32 (PRO_GOUT_EN 2).reg), 1, ((8 : Byte) :: (0x60 :: pw8.drop 1) ++ leBytes 2 1 ++ leBytes 4 (BitVec.ofNat 32 (PRO_GOUT_EN 2).reg).toNat ++ leBytes 4 (1 : W32).toNat), (by decide +kernel), (noReply (by decide +kernel) _), (by decide +kernel), (by decide +kernel), (by decide +kernel), (by decide +kernel), (by decide +kernel), (by decide +kernel), (by decide +kernel)⟩,
   ⟨(pwSt {}), 3, 0x44, pw8, pw8, (List.replicate 16 7), (by decide +kernel), (noReply (by decide +kernel) _), (by decide +kernel), (by decide +kernel), (by decide +kernel), (by decide +kernel), (by decide +kernel), (by decide +kernel), (by decide +kernel), (by decide +kernel)⟩,
   ⟨(pwSt {}), 3, 0x44, (0x60 :: pw8.drop 1), pw8, (List.replicate 16 7), (by decide +kernel), (noReply (by decide +kernel) _), (by decide +kernel), (by decide +kernel), (by decide +kernel), (by decide +kernel), (by decide +kernel), (by decide +kernel), (by decide +kernel), (by decide +kernel)⟩,
   ⟨(tk 125001 ((pwSt { grstHeld := true, grstTick := 1 }).cset PRO_GWIN_PW_SET 0)), 3, 0x44, ([]), pw8, (List.replicate 16 7), (by decide +kernel), (noReply (by decide +kernel) _), (by decide +kernel), (by decide +kernel), (by decide +kernel), (by decide +kernel), (by decide +kernel), (by decide +kernel), (by decide +kernel), (by decide +kernel)⟩,
   ⟨(tk 125000 ((pwSt { grstHeld := true, grstTick := 1 }).cset PRO_GWIN_PW_SET 0)), 3, 0x44, ([]), pw8, (List.replicate 16 7), (by decide +kernel), (noReply (by decide +kernel) _), (by decide +kernel), (by decide +kernel), (by decide +kernel), (by decide +kernel), (by decide +kernel), (by decide +kernel), (by decide +kernel), (by decide +kernel)⟩,
   ⟨((pwSt {}).cset (PRO_GSTAT_STATE 2) 4), 3, 0x44, pw8, 2, (by decide +kernel), (noReply (by decide +kernel) _), (by decide +kernel), (by decide +kernel), (by decide +kernel)⟩,
   ⟨((pwSt { latchRead := true }).cset (PRO_GSTAT_STATE 2) 4 |>.cset PRO_STAT_CLASS 1 |>.cset PRO_STAT_STRAP 1 |>.cset PRO_STAT_GV24_OK 1), 3, 0x44, pw8, outs0, 2, (by decide +kernel), (noReply (by decide +kernel) _), (by decide +kernel), (by decide +kernel), (by decide +kernel), (by decide +kernel), (by decide +kernel), (by decide +kernel), (by decide +kernel), (by decide +kernel)⟩⟩

theorem witness_RefusedSettingsAreLeftAndShown :
    (∃ (s : State) (m : MasterIx) (n : Fin 16) (a : W32), s.frozen m = false ∧ s.permitted m .control a.toNat .write = true ∧ s.con TRG_STAT_ARMED = true ∧ (a.toNat = (TRG_NU_CFG_EN n).reg ∨ a.toNat = (TRG_NU_LEVEL_LEVEL n).reg ∨ a.toNat = (TRG_NU_HYST_HYST n).reg)) ∧
    (∃ (s : State) (m : MasterIx) (i : Fin 32) (a : W32) (v : W32), s.frozen m = false ∧ s.permitted m .control a.toNat .write = true ∧ a.toNat = (PRO_TS_CFG_WARN i).reg ∧ ((v.toNat / 256 % 256) ≤ (v.toNat % 256) ∨ 115 < (v.toNat / 256 % 256) ∨ (v.toNat / 65536 % 256) < 1)) ∧
    (∃ (s : State) (m : MasterIx) (i : Fin 32) (a : W32) (v : W32), s.frozen m = false ∧ s.permitted m .control a.toNat .write = true ∧ a.toNat = (PRO_TS_CFG_WARN i).reg ∧ (v.toNat % 256) < (v.toNat / 256 % 256) ∧ (v.toNat / 256 % 256) ≤ 115 ∧ 1 ≤ (v.toNat / 65536 % 256) ∧ m = 0 ∧ s.con PRO_GWIN_OPEN = true) :=
  ⟨⟨((runSt {}).cset TRG_STAT_ARMED 1), 0, 3, (BitVec.ofNat 32 (TRG_NU_LEVEL_LEVEL 3).reg), (by decide +kernel), (by decide +kernel), (by decide +kernel), (by decide +kernel)⟩,
   ⟨(runSt {}), 0, 31, (BitVec.ofNat 32 (PRO_TS_CFG_WARN 31).reg), 0x017400, (by decide +kernel), (by decide +kernel), (by decide +kernel), (by decide +kernel)⟩,
   ⟨((runSt {}).cset PRO_GWIN_OPEN 1), 0, 31, (BitVec.ofNat 32 (PRO_TS_CFG_WARN 31).reg), 0x017372, (by decide +kernel), (by decide +kernel), (by decide +kernel), (by decide +kernel), (by decide +kernel), (by decide +kernel), (by decide +kernel), (by decide +kernel)⟩⟩

theorem witness_StepRunsTheFrontCommand :
    ∃ (s : State), s.pending = [] :=
  ⟨State.reset, (by decide +kernel)⟩

theorem witness_ResetLeavesTheResetValues :
    ∃ (n : _), n < 4 :=
  ⟨0, (by decide +kernel)⟩

theorem witness_EveryStepKeepsTheForm :
    ∃ s t : State, s.FormOk ∧ s.pending = [.frameTick] ∧ step s = .next t :=
  ⟨{ State.reset with pending := [.frameTick] }, _, ⟨trivial, trivial, trivial, trivial, trivial⟩, rfl, rfl⟩

/-! ### Ill-formed commands -/

/-- An instant outside its frame. -/
theorem test_ill_formed_instants :
    WellFormed (.tinEdge 0 262144000 true 0) = false ∧
    WellFormed (.leadingEdge 0 0 ⟨262144000, 0⟩ 0) = false ∧
    WellFormed (.validationDecided 0 0 ⟨262144000, []⟩) = false ∧
    WellFormed (.trailingEdge 0 0 ⟨262144000, 0, 0⟩) = false ∧
    WellFormed (.hitFinal 0 0 262144000) = false ∧
    WellFormed (.calibrationPair 0 0 0 262144000 0 0) = false ∧
    WellFormed (.channelEnable 0 0 0 262144000 0) = false ∧
    WellFormed (.channelDisable 0 0 0 262144000 0) = false ∧
    WellFormed (.teCalPair 0 0 ⟨262144000, 0⟩ 0 0) = false ∧
    WellFormed (.gatePinEdge 0 262144000 true) = false ∧
    WellFormed (.gateModeWrite 0 0 262144000 0) = false ∧
    WellFormed (.adcConversionStart 0 0 262144000) = false ∧
    WellFormed (.monCommit 0 262144000) = false ∧
    WellFormed (.requestCodeword 0 0 262144000 run180 none) = false ∧
    WellFormed (.requestCodeword 0 0 0 run180 (some (262144000, run180))) = false ∧
    WellFormed (.recordCodeword 0 0 0 true 262144000 (List.replicate 134 0)) = false := by
  refine ⟨?_, ?_, ?_, ?_, ?_, ?_, ?_, ?_, ?_, ?_, ?_, ?_, ?_, ?_, ?_, ?_⟩ <;> decide +kernel

/-- A body longer than what carries it. -/
theorem test_ill_formed_bodies :
    WellFormed (.requestArrival none (List.replicate 2049 0)) = false ∧
    WellFormed (.mailboxPacket 0 (List.replicate 2049 0)) = false ∧
    WellFormed (.readCmd 0 0 (List.replicate 2041 0)) = false ∧
    WellFormed (.writeCmd 0 0 (List.replicate 2041 0)) = false ∧
    WellFormed (.runStatus 0 0 (List.replicate 2041 0)) = false ∧
    WellFormed (.startCmd 0 0 (List.replicate 2041 0)) = false ∧
    WellFormed (.stopCmd 0 0 (List.replicate 2041 0)) = false ∧
    WellFormed (.thresh 0 0 (List.replicate 2041 0)) = false ∧
    WellFormed (.phase 0 0 (List.replicate 2041 0)) = false ∧
    WellFormed (.ampl 0 0 (List.replicate 2041 0)) = false ∧
    WellFormed (.calAbort 0 0 (List.replicate 2041 0)) = false ∧
    WellFormed (.histStart 0 0 (List.replicate 2041 0)) = false ∧
    WellFormed (.histStop 0 0 (List.replicate 2041 0)) = false ∧
    WellFormed (.period 0 0 (List.replicate 2041 0)) = false ∧
    WellFormed (.timeStatus 0 0 (List.replicate 2041 0)) = false ∧
    WellFormed (.acceptStep 0 0 (List.replicate 2041 0) true) = false ∧
    WellFormed (.withdrawStep 0 0 (List.replicate 2041 0)) = false ∧
    WellFormed (.guardStatus 0 0 (List.replicate 2041 0)) = false ∧
    WellFormed (.guardSet 0 0 (List.replicate 2041 0) true) = false ∧
    WellFormed (.setpw 0 0 (List.replicate 2041 0) true salt0 ver32) = false ∧
    WellFormed (.guardReset 0 0 (List.replicate 2041 0) true []) = false ∧
    WellFormed (.updStatus 0 0 (List.replicate 2041 0)) = false ∧
    WellFormed (.imgBegin 0 0 (List.replicate 2041 0)) = false ∧
    WellFormed (.imgData 0 0 (List.replicate 2041 0)) = false ∧
    WellFormed (.imgEnd 0 0 (List.replicate 2041 0)) = false ∧
    WellFormed (.activate 0 0 (List.replicate 2041 0)) = false ∧
    WellFormed (.rollback 0 0 (List.replicate 2041 0)) = false ∧
    WellFormed (.cfgBegin 0 0 (List.replicate 2041 0)) = false ∧
    WellFormed (.cfgData 0 0 (List.replicate 2041 0)) = false ∧
    WellFormed (.cfgCommit 0 0 (List.replicate 2041 0)) = false ∧
    WellFormed (.twinStatus 0 0 (List.replicate 2041 0)) = false ∧
    WellFormed (.switchCmd 0 0 (List.replicate 2041 0)) = false ∧
    WellFormed (.pushCmd 0 0 (List.replicate 2041 0)) = false ∧
    WellFormed (.logRead 0 0 (List.replicate 2041 0)) = false := by
  refine ⟨?_, ?_, ?_, ?_, ?_, ?_, ?_, ?_, ?_, ?_, ?_, ?_, ?_, ?_, ?_, ?_, ?_, ?_, ?_, ?_, ?_, ?_, ?_, ?_, ?_, ?_, ?_, ?_, ?_, ?_, ?_, ?_, ?_, ?_⟩ <;> decide +kernel

/-- A set that names something twice. -/
theorem test_ill_formed_sets :
    WellFormed (.scrubVisit 0 ⟨[(1, 2, 0), (1, 2, 0)], 0⟩) = false ∧
    WellFormed (.alignedRelease [(3, 5, .ok), (3, 5, .single)]) = false ∧
    WellFormed (.sumsPresented [1, 1]) = false ∧
    WellFormed (.spillPoint ⟨1, [9, 9]⟩) = false ∧
    WellFormed (.decisionPoint 0 [2, 2] []) = false ∧
    WellFormed (.decisionPoint 0 [] [9, 9]) = false ∧
    WellFormed (.restore 0 0 [4, 4]) = false ∧
    WellFormed (.guardEvaluation 0 true [⟨0, 1⟩, ⟨0, 2⟩]) = false ∧
    WellFormed (.grst 0 [⟨0, 1⟩, ⟨0, 2⟩]) = false ∧
    WellFormed (.latchRead true [⟨0, 1⟩, ⟨0, 2⟩]) = false := by
  refine ⟨?_, ?_, ?_, ?_, ?_, ?_, ?_, ?_, ?_, ?_⟩ <;> decide +kernel

/-- A run of characters or bytes of another length than the spec gives it. -/
theorem test_ill_formed_lengths :
    WellFormed (.syncSet 0 0 ⟨true, ⟨false, []⟩, 0, 0⟩) = false ∧
    WellFormed (.requestCodeword 0 0 0 ⟨false, []⟩ none) = false ∧
    WellFormed (.requestCodeword 0 0 0 run180 (some (0, ⟨false, []⟩))) = false ∧
    WellFormed (.responseReceived 0 ⟨false, []⟩) = false ∧
    WellFormed (.recordCodeword 0 0 0 true 0 (List.replicate 133 0)) = false ∧
    WellFormed (.slotStartSet 0 true true [0, 0, 0] 0) = false ∧
    WellFormed (.rxStartSet 0 ⟨⟨false, []⟩, none⟩) = false ∧
    WellFormed (.inboundFloeFrame 0 ⟨[⟨false, []⟩], 0, 0⟩) = false ∧
    WellFormed (.setpw 0 0 [] true (List.replicate 15 0) ver32) = false ∧
    WellFormed (.setpw 0 0 [] true salt0 (List.replicate 33 0)) = false ∧
    WellFormed (.offer ({ frm true 0 0 with len := 121 }) (List.replicate 121 0)) = false ∧
    WellFormed (.offer ({ frm true 0 0 with len := 121 }) (List.replicate 120 0)) = false ∧
    WellFormed (.updData (frm true 0 0) [0]) = false ∧
    WellFormed (.updData ({ frm true 0 0 with len := 1025 }) (List.replicate 1025 0)) = false ∧
    WellFormed (.heartbeatReceived (List.replicate 63 0) 0) = false ∧
    WellFormed (.seedSegment (seedHdr 1 0) (List.replicate 1023 0) body0) = false ∧
    WellFormed (.standbyPatternTest (List.replicate 5 ⟨[]⟩)) = false := by
  refine ⟨?_, ?_, ?_, ?_, ?_, ?_, ?_, ?_, ?_, ?_, ?_, ?_, ?_, ?_, ?_, ?_, ?_⟩ <;> decide +kernel

/-- The remaining checks: counts, lengths and indices. -/
theorem test_ill_formed_others :
    WellFormed (.powerOnReset 4 0 none none) = false ∧
    WellFormed (.seedSegment (seedHdr 1 1) (List.replicate 1024 0) body0) = false ∧
    WellFormed (.seedSegment ({ seedHdr 1 0 with bodyLen := 0 }) (List.replicate 1024 0) body0) = false ∧
    WellFormed (.seedSegment ({ seedHdr 1025 0 with bodyLen := 1048577 }) (List.replicate 1024 0) body0) = false ∧
    WellFormed (.seedSegment (seedHdr 2 0) (List.replicate 1024 0) body0) = false ∧
    WellFormed (.temperatureSample (some 3) 5 none true) = false ∧
    WellFormed (.throttleEnd (some 3) 5) = false := by
  refine ⟨?_, ?_, ?_, ?_, ?_, ?_, ?_⟩ <;> decide +kernel

/-! ### Worked examples of the spec -/

/-- Channel 300 of port 713 of concentrator 0x02 (00_scope.md): its global identity and its proxy address. -/
theorem test_example_addresses : globalChannel 2 713 300 = 0x15932C ∧ proxyAddr 713 (0x100 + 2 * 300) = 0x01B24D60 ∧
    300 / 16 = 18 ∧ 713 / 256 = 2 ∧ 713 / 16 % 16 = 12 := by decide +kernel

/-- The hit of 02_channel_timing.md: raw code 1,992 and stop edge 1,236 on the pair 1,108 and 2,149. -/
theorem test_example_linearised : linV 1236 1992 1108 2149 = 1234 * 2 ^ 24 + 2530672 ∧ 2530672 / 2 ^ 14 = 154 := by decide +kernel

/-- Its fine time: with E[9] = 574 and E[10] = 642 the record carries coarse 1,234 and fine 77. -/
theorem test_example_fine_time :
    ∃ u m, exec (.fineTimeReady 713 300 ⟨false, false⟩) ((State.reset.fset 713 (LNK_STAT_STATE 0) 6).setCh 713 300
        { hits := [{ hit0 with raw := 1992, stop := 1236, c1 := 1108, c2 := 2149, int := 1 }],
          intB := { table := List.replicate 8 0 ++ [574, 642] } } |>.fset 713 (CH_CFG_GATE_EN 300) 0) = .next u ∧
      (u.ch 713 300).hits = [m] ∧ m.coarse = some 1234 ∧ m.fine = 77 :=
  ⟨_, _, rfl, rfl, by decide +kernel, by decide +kernel⟩

/-- The frame of the example and its slice (01_time_and_frames.md, 07_firn_store.md). -/
theorem test_example_frame :
    ({ sec := 1750000000, ns := 493824000, frac := 0 } : TimeVal).frame = 437500000123456 ∧ sliceOf 437500000123456 = 1708984375482 ∧
      437500000123456 % 256 = 64 ∧ 1708984375482 % 131072 = 6330 := by decide +kernel

/-- The unit header of 06_ingest_and_hazel.md: word 0, and the fields of word 1 below the CRC. -/
theorem test_example_unit_header :
    bodyNat (unitHeader 0xB1 2 713 437500000123456 0 464 1648 0) 0 8 = 0x9DA062E902C902B1 ∧
      bodyNat (unitHeader 0xB1 2 713 437500000123456 0 464 1648 0) 8 8 = 0x000CE1D0 := by decide +kernel

/-- The Firn address of 07_firn_store.md: region 2, extent 74,565, GEN 0x123, line 3,661. -/
theorem test_example_firn_address :
    mkFirnAddr 2 0x123 74565 3661 = 0x00024748D1439340 ∧ firnAddr 0x00024748D1439340 = (2, 0x123, 74565, 3661) := by decide +kernel

/-- The Floe header of 09_floe_uplinks_and_queues.md: a PRIM record of 40 bytes with SEQ 0x3C07. -/
theorem test_example_floe_header : (floeHeader 3 1 true true false false false 40 2 0x3C07 0 0 0).1 = 0x00003C07020280D3#64 := by
  decide +kernel

/-- The descriptor of 10_service_fabric.md: LEN 0x2_0000, SSP 2, DSP 0, SW 4, DW 3, PACE 3, HALF, FULL, CRC_EN, SINC, DINC; LAST. -/
theorem test_example_descriptor :
    let d : MvCh := { desc := [0x00024748D1400000, 0x00000000000D0000, 0x0001F03702020000, 0x8000] }
    d.fld 2 0 24 = 0x20000 ∧ d.fld 2 24 3 = 2 ∧ d.fld 2 27 3 = 0 ∧ d.fld 2 30 3 = 4 ∧ d.fld 2 33 3 = 3 ∧ d.fld 2 36 4 = 3 ∧
      d.fld 2 44 5 = 31 ∧ d.fld 3 15 1 = 1 ∧ d.valid = true := by decide +kernel

/-- The address of `PRO_GMAP` for port 713 (13_protection.md). -/
theorem test_example_gmap : (PRO_GMAP_PMASK 713).reg = 0x00901B24 := by decide +kernel

/-- Native unit 3 of 08_triggers_and_cores.md: LEVEL 7,800, HYST 400 and W = 1 over the sum of region 2. -/
def nuSt (v : Nat) (high : Bool) : State :=
  let sums : Sums := { tick := 7, frame := 256, module_ := (v, false), regions := [(0, false), (0, false), (v, false), (0, false)] }
  (((({ frmSt 258 {} with trg := { armTick := 7, nus := [(3, { high := high })], sums := sums } }).cset TRG_STAT_ARMED 1).cset
    (TRG_NU_CFG_EN 3) 1).cset (TRG_NU_CFG_SEL 3) 66).cset (TRG_NU_LEVEL_LEVEL 3) 7800 |>.cset (TRG_NU_HYST_HYST 3) 400

/-- HIGH of native unit 3 after a decision point on sum `v`. -/
def nuAfter (v : Nat) (high : Bool) : Option Bool :=
  match execDecisionPoint 0 [] [] (nuSt v high) with
  | .next u => some (u.con (TRG_NU_VAL_HIGH 3))
  | _ => none

/-- 8,111 crosses, 7,680 does not, 7,500 stays above and 7,300 returns below. -/
theorem test_example_native_unit : nuAfter 8111 false = some true ∧ nuAfter 7680 false = some false ∧ nuAfter 7500 true = some true ∧
    nuAfter 7300 true = some false := by decide +kernel

/-! ### The codes of the link (R167, R168) -/

/-- The generator of R168 has the roots α^0 to α^5 and degree 6. -/
theorem test_rs_generator_roots : rsGen.length = 7 ∧ (List.range 6).all (fun i => polyAt rsGen (alpha i) == 0) = true := by decide +kernel

/-- Three wrong bytes of RS(14,8) are corrected, and so are six erasures: 2e + f ≤ 6. -/
theorem test_rs_corrects :
    rsDecode ((((rsEncode [1, 2, 3, 4, 5, 6, 7, 8]).set 0 9).set 5 0 |>.set 13 77).map fun b => some b.toNat) = (.corrected, [1, 2, 3, 4, 5, 6, 7, 8]) ∧
    rsDecode ((rsEncode [1, 2, 3, 4, 5, 6, 7, 8]).zipIdx.map fun e => if e.2 < 6 then none else some e.1.toNat) =
      (.corrected, [1, 2, 3, 4, 5, 6, 7, 8]) := by decide +kernel

/-- Every character is read back from its group, at either running disparity. -/
theorem test_8b10b_reads_back : (List.range 256).all (fun b => (groupSym false (symGroup false (.data b)) == some (.data b)) &&
    (groupSym true (symGroup true (.data b)) == some (.data b))) = true := by decide +kernel

end Sys2Proof.Tests
end

/-! ## The time structure through a frame tick (R12, R25, R26)

Only the tick itself writes the time: the front-ends, the ports, the scan and the counting registers that follow it leave the time
structure as the tick has set it. -/

namespace Sys2Proof.Machine

/-! ### What leaves the time structure -/

theorem Notes.tm_eq {s t : State} (h : Notes s t) : t.tm = s.tm := by rw [h.same]

@[simp] theorem State.when_tm (s : State) (b : Bool) (g : State → State) : (s.when b g).tm = if b then (g s).tm else s.tm := by
  cases b <;> rfl

/-- A run of updates leaves the time if each of them does. -/
theorem State.foldl_tm {α : Type} (g : State → α → State) (hg : ∀ z a, (g z a).tm = z.tm) (l : List α) (s : State) :
    (l.foldl g s).tm = s.tm := by
  induction l generalizing s with
  | nil => rfl
  | cons a r ih => exact (ih (g s a)).trans (hg s a)

/-! ### Front-ends: gate, monitoring, owner and channels -/

@[simp] theorem State.modFacts_tm (s : State) (p : Nat) (g : FrameFacts → FrameFacts) : (s.modFacts p g).tm = s.tm := rfl

@[simp] theorem State.modMon_tm (s : State) (p : Nat) (g : MonSt → MonSt) : (s.modMon p g).tm = s.tm := rfl

@[simp] theorem State.gateUpdate_tm (s : State) (p : Nat) (g : GateCmd) (pin : Bool) (slot : Nat) :
    (s.gateUpdate p g pin slot).tm = s.tm := by
  simp [State.gateUpdate, apply_ite State.tm]

@[simp] theorem State.gateApply_tm (s : State) (p : Nat) (g : GateCmd) : (s.gateApply p g).tm = s.tm := by
  simp [State.gateApply, apply_ite State.tm]

@[simp] theorem State.gateDrain_tm (s : State) (p ns : Nat) : (s.gateDrain p ns).tm = s.tm :=
  State.foldl_tm _ (fun z g => z.gateApply_tm p g) _ _

@[simp] theorem State.monStart_tm (s : State) (p ns : Nat) : (s.monStart p ns).tm = s.tm := by
  simp [State.monStart, apply_ite State.tm]

@[simp] theorem State.chanTick_tm (s : State) (p c : Nat) : (s.chanTick p c).tm = s.tm := by
  simp [State.chanTick, apply_ite State.tm]

@[simp] theorem State.showOwner_tm (s : State) (p : Nat) (o : Option Nat) (ov : Bool) : (s.showOwner p o ov).tm = s.tm := rfl

@[simp] theorem State.ownerEval_tm (s : State) (p : Nat) : (s.ownerEval p).tm = s.tm := by
  unfold State.ownerEval
  split
  · simp
  · simp [apply_ite State.tm]

@[simp] theorem State.feStandby_tm (s : State) (p : Nat) : (s.feStandby p).tm = s.tm := rfl

@[simp] theorem State.feTick_tm (s : State) (p : Nat) : (s.feTick p).tm = s.tm := by
  simp [State.feTick, State.foldl_tm _ (fun z k => z.chanTick_tm p (k % 512))]

/-! ### Front-ends: register accesses -/

@[simp] theorem State.healCopies_tm (s : State) (p w : Nat) : (s.healCopies p w).2.tm = s.tm := rfl

@[simp] theorem State.feWriteReg_tm (s : State) (p w v : Nat) : (s.feWriteReg p w v).tm = s.tm := by
  unfold State.feWriteReg
  split
  · rfl
  · exact State.foldl_tm _ (fun z f => z.fset_tm p f _) _ _

@[simp] theorem State.feWriteLater_tm (s : State) (p w v eff : Nat) : (s.feWriteLater p w v eff).tm = s.tm := by
  simp [State.feWriteLater]

@[simp] theorem State.gatePend_tm (s : State) (p ns kind : Nat) (open_ : Bool) (slot cross : Nat) :
    (s.gatePend p ns kind open_ slot cross).tm = s.tm := rfl

@[simp] theorem State.opChCfg_tm (s : State) (p c t v : Nat) : (s.opChCfg p c t v).tm = s.tm := by
  simp [State.opChCfg, apply_ite State.tm]

@[simp] theorem State.opGateCfg_tm (s : State) (p t v : Nat) : (s.opGateCfg p t v).tm = s.tm := by
  simp [State.opGateCfg]

@[simp] theorem State.opAdcStat_tm (s : State) (p b v : Nat) : (s.opAdcStat p b v).tm = s.tm := by
  refine (State.foldl_tm _ (fun z k => ?_) _ _).trans (s.feWriteReg_tm p _ v)
  split <;> rfl

@[simp] theorem State.opLnkVer_tm (s : State) (p k v : Nat) : (s.opLnkVer p k v).tm = s.tm := by
  simp [State.opLnkVer, apply_ite State.tm]

@[simp] theorem State.injectUp_tm (s : State) (p k v : Nat) : (s.injectUp p k v).tm = s.tm := by
  simp [State.injectUp, apply_ite State.tm]

@[simp] theorem State.feWriteWord_tm (s : State) (p w t v : Nat) : (s.feWriteWord p w t v).tm = s.tm := by
  simp [State.feWriteWord, apply_ite State.tm]

@[simp] theorem State.feWrite_tm (s : State) (p w t v : Nat) : (s.feWrite p w t v).tm = s.tm := by
  simp [State.feWrite, apply_ite State.tm]

@[simp] theorem State.feReadReg_tm (s : State) (p q w : Nat) : (s.feReadReg p q w).2.tm = s.tm := by
  unfold State.feReadReg
  split
  · rfl
  · rfl
  · refine (State.foldl_tm _ (fun z f => ?_) _ _).trans ?_
    · split <;> rfl
    · simp

@[simp] theorem State.opChcntRead_tm (s : State) (p : Nat) : (s.opChcntRead p).2.tm = s.tm := rfl

@[simp] theorem State.feRead_tm (s : State) (p q w : Nat) : (s.feRead p q w).2.tm = s.tm := by
  simp [State.feRead, apply_ite State.tm, apply_ite Prod.snd]

@[simp] theorem State.feAnswer_tm (s : State) (p q : Nat) (r : ReqPkt) (t : Inst) : (s.feAnswer p q r t).2.tm = s.tm := by
  simp [State.feAnswer, apply_ite State.tm, apply_ite Prod.snd]

/-! ### The firewall -/

@[simp] theorem State.setMv_tm (s : State) (c st : Nat) : (s.setMv c st).tm = s.tm := rfl

@[simp] theorem State.freeze_tm (s : State) (m : Nat) : (s.freeze m).tm = s.tm := by
  simp [State.freeze, apply_ite State.tm]

@[simp] theorem State.raise_tm (s : State) (f : Fld) : (s.raise f).tm = s.tm := by
  cases h : s.con f
  · exact (s.raise_notes f h).tm_eq
  · rw [s.raise_of_set f h]

@[simp] theorem State.logBit_tm (s : State) (f : Fld) (actor d5 d6 : Nat) : (s.logBit f actor d5 d6).tm = s.tm :=
  (s.logBit_notes f actor d5 d6).tm_eq

@[simp] theorem State.violation_tm (s : State) (m : Nat) (sp : Space) (key : Nat) (a : Access) :
    (s.violation m sp key a).tm = s.tm := by
  simp [State.violation]

/-- Only a permitted access reaches the time. -/
@[simp] theorem State.guarded_tm (s : State) (m : Nat) (sp : Space) (key : Nat) (a : Access) (k : State → State) :
    (s.guarded m sp key a k).tm = if !(s.frozen m) && s.permitted m sp key a then (k s).tm else s.tm := by
  unfold State.guarded
  cases s.frozen m <;> cases s.permitted m sp key a <;> simp

/-! ### The scan -/

@[simp] theorem State.setGold_tm (s : State) (p w v : Nat) : (s.setGold p w v).tm = s.tm := rfl

@[simp] theorem State.proxyDirect_tm (s : State) (addr : Nat) (write : Option Nat) : (s.proxyDirect addr write).2.2.tm = s.tm := by
  unfold State.proxyDirect
  cases write <;> simp [apply_ite Prod.snd, apply_ite State.tm]

@[simp] theorem State.spProxies_tm (s : State) (l : List (Nat × Nat × Nat)) : (s.spProxies l).2.tm = s.tm := by
  induction l generalizing s with
  | nil => rfl
  | cons e r ih =>
    obtain ⟨p, w, v⟩ := e
    simp [State.spProxies, apply_ite Prod.snd, apply_ite State.tm, ih]

@[simp] theorem State.setScan_tm (s : State) (x : Scan) : (s.setScan x).tm = s.tm := rfl

@[simp] theorem State.scanWrite_tm (s : State) (x : Scan) : (s.scanWrite x).tm = s.tm := by
  simp [State.scanWrite]

@[simp] theorem State.sendFast_tm (s : State) (ps : List Nat) (code : Nat) : (s.sendFast ps code).tm = s.tm :=
  State.foldl_tm _ (fun z p => z.modPort_tm p _) _ _

@[simp] theorem State.scanTick_tm (s : State) : s.scanTick.tm = s.tm := by
  unfold State.scanTick
  split
  · rfl
  · dsimp only
    split
    · rfl
    · split
      · rfl
      · split
        · simp
        · split
          · simp
          · split <;> simp [apply_ite State.tm]

/-! ### Ports -/

@[simp] theorem State.answer_tm (s : State) (m : Nat) (err : Bool) (d : Nat) : (s.answer m err d).tm = s.tm := rfl

@[simp] theorem State.proxyEnd_tm (s : State) (m : Nat) (err : Bool) (d : Nat) : (s.proxyEnd m err d).tm = s.tm := rfl

@[simp] theorem State.dropWaiting_tm (s : State) (p : Nat) : (s.dropWaiting p).tm = s.tm := by
  refine (State.foldl_tm _ (fun z r => ?_) _ _).trans (s.modPort_tm p _)
  split <;> rfl

@[simp] theorem State.lockBegin_tm (s : State) (p : Nat) : (s.lockBegin p).tm = s.tm := rfl

@[simp] theorem State.portRequest_tm (s : State) (p w : Nat) (data : Option W32) (m : Option Nat) :
    (s.portRequest p w data m).tm = s.tm := rfl

@[simp] theorem State.negBegin_tm (s : State) (p : Nat) : (s.negBegin p).tm = s.tm := by
  simp [State.negBegin]

@[simp] theorem State.plEnter_tm (s : State) (p st : Nat) : (s.plEnter p st).tm = s.tm := by
  simp [State.plEnter, apply_ite State.tm]

@[simp] theorem State.testBegin_tm (s : State) (p : Nat) : (s.testBegin p).tm = s.tm := by
  simp [State.testBegin, apply_ite State.tm]

@[simp] theorem State.formSync_tm (s : State) (p : Nat) : (s.formSync p).tm = s.tm := rfl

@[simp] theorem State.portTick_tm (s : State) (p : Nat) : (s.portTick p).tm = s.tm := by
  simp [State.portTick]

/-! ### Registers that count with time -/

@[simp] theorem State.timers_tm (s : State) : s.timers.tm = s.tm := by
  unfold State.timers
  cases s.glb.readyTick <;> dsimp only <;> split <;> simp [apply_ite State.tm]

@[simp] theorem State.twinTick_tm (s : State) : s.twinTick.tm = s.tm := by
  simp [State.twinTick, apply_ite State.tm]

/-! ### The tick -/

/-- A tick sets the time and counts itself; beside that only the servo of the frame that ends has changed the time structure. -/
theorem State.tickTo_tm (s : State) (t : TimeVal) : (s.tickTo t).tm =
    { s.servoTick.tm with now := t, tick := s.servoTick.tm.tick + 1, recent := (t.frame :: s.servoTick.tm.recent).take 8 } := by
  simp [State.tickTo, State.foldl_tm _ State.feTick_tm, State.foldl_tm _ State.portTick_tm]

@[simp] theorem State.tickTo_now (s : State) (t : TimeVal) : (s.tickTo t).tm.now = t := by
  rw [State.tickTo_tm]

/-- FRAME_TICK is the tick to the next multiple of 4,000 ns. -/
theorem exec_frameTick (s : State) : exec .frameTick s = .next (s.tickTo s.tm.now.nextTick) := rfl

namespace TimeVal

theorem frame_eq_fis (t : TimeVal) : t.frame = t.sec * 250000 + t.fis := rfl

/-- Within a second the next tick is that of the next frame-in-second. -/
theorem nextTick_of_fis_lt {t : TimeVal} (h : t.fis < 249999) : t.nextTick = { sec := t.sec, ns := (t.fis + 1) * 4000, frac := 0 } := by
  have hn : ¬ 1000000000 ≤ t.ns / 4000 * 4000 + 4000 := by simp only [fis] at h; omega
  simp only [nextTick, hn, if_false, fis, Nat.succ_mul]

/-- From the last frame of a second on, the next tick is the start of the next second. -/
theorem nextTick_of_le_fis {t : TimeVal} (h : 249999 ≤ t.fis) : t.nextTick = { sec := (t.sec + 1) % 2 ^ 48, ns := 0, frac := 0 } := by
  have hn : 1000000000 ≤ t.ns / 4000 * 4000 + 4000 := by simp only [fis] at h; omega
  simp only [nextTick, hn, if_true]

theorem nextTick_aligned (t : TimeVal) : t.nextTick.ns % 4000 = 0 ∧ t.nextTick.frac = 0 := by
  rcases Nat.lt_or_ge t.fis 249999 with h | h
  · simp [nextTick_of_fis_lt h]
  · simp [nextTick_of_le_fis h]

theorem nextTick_ns_lt (t : TimeVal) : t.nextTick.ns < 1000000000 := by
  rcases Nat.lt_or_ge t.fis 249999 with h | h
  · rw [nextTick_of_fis_lt h]
    show (t.fis + 1) * 4000 < 1000000000
    omega
  · simp [nextTick_of_le_fis h]

theorem nextTick_fis_of_lt {t : TimeVal} (h : t.fis < 249999) : t.nextTick.fis = t.fis + 1 ∧ t.nextTick.sec = t.sec := by
  simp [nextTick_of_fis_lt h, fis]

/-- The frame-in-second number carries into seconds. -/
theorem nextTick_fis_of_eq {t : TimeVal} (h : t.fis = 249999) (hs : t.sec + 1 < 2 ^ 48) :
    t.nextTick.fis = 0 ∧ t.nextTick.sec = t.sec + 1 := by
  simpa [nextTick_of_le_fis h.ge, fis] using hs

/-- The next tick begins the next frame. -/
theorem nextTick_frame {t : TimeVal} (hn : t.ns < 1000000000) (hs : t.sec + 1 < 2 ^ 48) : t.nextTick.frame = t.frame + 1 := by
  have hfis : t.fis < 249999 ∨ t.fis = 249999 := by simp only [fis]; omega
  simp only [frame_eq_fis]
  rcases hfis with h | h
  · obtain ⟨hf, hsec⟩ := nextTick_fis_of_lt h
    omega
  · obtain ⟨hf, hsec⟩ := nextTick_fis_of_eq h hs
    omega

end TimeVal

/-- Settles O1: the time structure after the tick is the one the tick sets, and the next tick stays in the second or begins the next
one. -/
theorem frameTickReachesTheNextTick : Obligations.FrameTickReachesTheNextTick := by
  unfold Obligations.FrameTickReachesTheNextTick
  intro s
  obtain ⟨hns, hfrac⟩ := s.tm.now.nextTick_aligned
  refine ⟨_, exec_frameTick s, s.tickTo_now _, ?_⟩
  simp only [State.frame, State.tickTo_now]
  exact ⟨hns, hfrac, fun hn hs => ⟨TimeVal.nextTick_ns_lt _, TimeVal.nextTick_frame hn hs,
    fun h => TimeVal.nextTick_fis_of_eq h hs, TimeVal.nextTick_fis_of_lt⟩⟩

end Sys2Proof.Machine

/-! ## Records as bytes, the delta transform and the decompressor (R215, R217–R219)

A hit record is its channel, its coarse time and its lower 43 bits, type field included; the transform changes the first two only, so
its inverse finds the same hits. The decompressor is followed one code word at a time. -/

namespace Sys2Proof.Machine

/-! ### Words serialised to bytes and back (R215) -/

@[simp] theorem leBytes_length (n w : Nat) : (leBytes n w).length = n := by
  induction n generalizing w with
  | zero => rfl
  | succ n ih => simp [leBytes, ih]

theorem ofBytes_leBytes (n w : Nat) : ofBytes (leBytes n w) = w % 256 ^ n := by
  induction n generalizing w with
  | zero => simp [leBytes, ofBytes, Nat.mod_one]
  | succ n ih => rw [leBytes, ofBytes, ih, BitVec.toNat_ofNat, Nat.pow_succ' (m := 256), Nat.mod_mul]

/-- A word is read back from its eight bytes. -/
theorem ofNat_ofBytes_leBytes (w : W64) : BitVec.ofNat 64 (ofBytes (leBytes 8 w.toNat)) = w := by
  have h : w.toNat < 256 ^ 8 := w.isLt
  rw [ofBytes_leBytes, Nat.mod_eq_of_lt h, BitVec.ofNat_toNat, BitVec.setWidth_eq]

theorem wordsBytes_cons (w : W64) (ws : List W64) : wordsBytes (w :: ws) = leBytes 8 w.toNat ++ wordsBytes ws := rfl

theorem wordsBytes_length (ws : List W64) : (wordsBytes ws).length = 8 * ws.length := by
  induction ws with
  | nil => rfl
  | cons w ws ih => simp [wordsBytes_cons, ih]; omega

/-- Eight bytes make the next word. -/
theorem bytesWordsAux_append {a : List Byte} (ha : a.length = 8) (fuel : Nat) (bs : List Byte) :
    bytesWordsAux (fuel + 1) (a ++ bs) = BitVec.ofNat 64 (ofBytes a) :: bytesWordsAux fuel bs := by
  have hne : (a ++ bs).isEmpty = false := by
    cases a with
    | nil => cases ha
    | cons b a => rfl
  simp [bytesWordsAux, hne, ← ha]

theorem bytesWordsAux_wordsBytes {fuel : Nat} (ws : List W64) (h : ws.length ≤ fuel) : bytesWordsAux fuel (wordsBytes ws) = ws := by
  induction ws generalizing fuel with
  | nil => cases fuel <;> rfl
  | cons w ws ih =>
    obtain ⟨fuel, rfl⟩ : ∃ k, fuel = k + 1 := ⟨fuel - 1, by simp at h; omega⟩
    rw [wordsBytes_cons, bytesWordsAux_append (leBytes_length 8 _), ofNat_ofBytes_leBytes, ih (Nat.le_of_succ_le_succ h)]

theorem bytesWords_wordsBytes (ws : List W64) : bytesWords (wordsBytes ws) = ws :=
  bytesWordsAux_wordsBytes ws (by rw [wordsBytes_length]; omega)

/-! ### The fields of a hit record -/

theorem bits_lt (w lo width : Nat) : bits w lo width < 2 ^ width := Nat.mod_lt _ (Nat.two_pow_pos width)

/-- A hit record with channel `c`, coarse time `t` and the lower bits of `n`. -/
def hitWord (c t n : Nat) : W64 := packW [(55, 9, c), (43, 12, t), (0, 43, n)]

theorem hitWord_toNat (c t n : Nat) :
    (hitWord c t n).toNat = c % 512 * 2 ^ 55 + t % 4096 * 2 ^ 43 + n % 2 ^ 43 := by
  simp only [hitWord, packW, pack, BitVec.toNat_ofNat]
  omega

theorem hitWord_channel (c t n : Nat) : bits (hitWord c t n).toNat 55 9 = c % 512 := by
  rw [hitWord_toNat, bits]; omega

theorem hitWord_coarse (c t n : Nat) : bits (hitWord c t n).toNat 43 12 = t % 4096 := by
  rw [hitWord_toNat, bits]; omega

theorem hitWord_low (c t n : Nat) : bits (hitWord c t n).toNat 0 43 = bits n 0 43 := by
  rw [hitWord_toNat, bits, bits]; omega

/-- The type field lies in the lower bits. -/
theorem recType_hitWord (c t : Nat) (w : W64) : recType (hitWord c t w.toNat) = recType w := by
  rw [recType, recType, hitWord_toNat]; omega

/-- A hit record is made of its own fields. -/
theorem hitWord_fields {w v : W64} (h : bits v.toNat 0 43 = bits w.toNat 0 43) :
    hitWord (bits w.toNat 55 9) (bits w.toNat 43 12) v.toNat = w := by
  have hw : w.toNat < 2 ^ 64 := w.isLt
  refine BitVec.eq_of_toNat_eq ?_
  simp only [bits] at h
  rw [hitWord_toNat, bits, bits]
  omega

/-! ### The delta transform (R217) -/

@[simp] theorem deltaRecs_nil (pc pt : Nat) : deltaRecs pc pt [] = [] := by simp [deltaRecs]

@[simp] theorem undeltaRecs_nil (pc pt : Nat) : undeltaRecs pc pt [] = [] := by simp [undeltaRecs]

theorem deltaRecs_hit {w : W64} (h : recType w = 0) (pc pt : Nat) (r : List W64) :
    deltaRecs pc pt (w :: r) = hitWord (bits w.toNat 55 9 + 512 - pc) (bits w.toNat 43 12 + 4096 - pt) w.toNat ::
      deltaRecs (bits w.toNat 55 9) (bits w.toNat 43 12) r := by
  simp [deltaRecs, h, hitWord]

theorem deltaRecs_other {w : W64} (h : recType w ≠ 0) (pc pt : Nat) (r : List W64) :
    deltaRecs pc pt (w :: r) = w :: deltaRecs pc pt r := by
  simp [deltaRecs, h]

theorem undeltaRecs_hit {w : W64} (h : recType w = 0) (pc pt : Nat) (r : List W64) :
    undeltaRecs pc pt (w :: r) = hitWord ((bits w.toNat 55 9 + pc) % 512) ((bits w.toNat 43 12 + pt) % 4096) w.toNat ::
      undeltaRecs ((bits w.toNat 55 9 + pc) % 512) ((bits w.toNat 43 12 + pt) % 4096) r := by
  simp [undeltaRecs, h, hitWord]

theorem undeltaRecs_other {w : W64} (h : recType w ≠ 0) (pc pt : Nat) (r : List W64) :
    undeltaRecs pc pt (w :: r) = w :: undeltaRecs pc pt r := by
  simp [undeltaRecs, h]

/-- The transformed hit, with the differences of R217 in its fields and the lower bits left. -/
theorem deltaRecs_hit_fields {pc pt : Nat} {w : W64} (hc : pc < 512) (ht : pt < 4096) (h : recType w = 0) (r : List W64) :
    ∃ v, deltaRecs pc pt (w :: r) = v :: deltaRecs (bits w.toNat 55 9) (bits w.toNat 43 12) r ∧
      (bits v.toNat 55 9 : Int) = ((bits w.toNat 55 9 : Int) - pc) % 512 ∧
      (bits v.toNat 43 12 : Int) = ((bits w.toNat 43 12 : Int) - pt) % 4096 ∧ bits v.toNat 0 43 = bits w.toNat 0 43 := by
  refine ⟨_, deltaRecs_hit h pc pt r, ?_, ?_, hitWord_low _ _ _⟩
  · rw [hitWord_channel]; omega
  · rw [hitWord_coarse]; omega

/-- Adding back, modulo the size of a field, what was taken away from it. -/
theorem mod_sub_add_cancel {m x p : Nat} (hx : x < m) (hp : p < m) : ((x + m - p) % m + p) % m = x := by
  rw [Nat.mod_add_mod, Nat.sub_add_cancel (by omega), Nat.add_mod_right, Nat.mod_eq_of_lt hx]

/-- Both directions pass through the same previous hits, so the inverse undoes the transform from any pair of them. -/
theorem undeltaRecs_deltaRecs {pc pt : Nat} (hc : pc < 512) (ht : pt < 4096) (raw : List W64) :
    undeltaRecs pc pt (deltaRecs pc pt raw) = raw := by
  induction raw generalizing pc pt with
  | nil => simp
  | cons w r ih =>
    by_cases h : recType w = 0
    · have hbc : bits w.toNat 55 9 < 512 := bits_lt _ 55 9
      have hbt : bits w.toNat 43 12 < 4096 := bits_lt _ 43 12
      rw [deltaRecs_hit h, undeltaRecs_hit ((recType_hitWord _ _ w).trans h), hitWord_channel, hitWord_coarse,
        mod_sub_add_cancel hbc hc, mod_sub_add_cancel hbt ht, hitWord_fields (hitWord_low _ _ _), ih hbc hbt]
    · rw [deltaRecs_other h, undeltaRecs_other h, ih hc ht]

/-! ### The decompressor, one code word at a time (R218, R219) -/

/-- What a payload decodes to is what its records are rebuilt from. -/
theorem hzRecords_of_hzDecode {n : Nat} {pl out : List Byte} (h : hzDecode (8 * n) pl.length pl [] = .ok out) :
    hzRecords n pl = .ok (undeltaRecs 0 0 (bytesWords out.reverse)) := by
  rw [hzRecords, h]

/-- The end of the block stops the decoder when the output is complete and the payload is used up. -/
theorem hzDecode_end {limit : Nat} {out : List Byte} (h : out.length = limit) (fuel : Nat) :
    hzDecode limit (fuel + 1) [0xE0] out = .ok out := by
  simp [hzDecode, h]

/-- The codes after the end of the block are illegal. -/
theorem hzDecode_illegal {b : Byte} (h : 0xE0 < b.toNat) (limit fuel : Nat) (rest out : List Byte) :
    hzDecode limit (fuel + 1) (b :: rest) out = .error .illegal := by
  simp only [hzDecode, if_neg h.ne', if_pos h]

/-- A literal run puts its bytes on the output. -/
theorem hzDecode_literal {limit : Nat} {c out : List Byte} (hc : 1 ≤ c.length ∧ c.length ≤ 128) (ho : out.length + c.length ≤ limit)
    (fuel : Nat) (rest : List Byte) :
    hzDecode limit (fuel + 1) (BitVec.ofNat 8 (c.length - 1) :: (c ++ rest)) out = hzDecode limit fuel rest (c.reverse ++ out) := by
  have hb : (BitVec.ofNat 8 (c.length - 1)).toNat = c.length - 1 := by rw [BitVec.toNat_ofNat]; omega
  have hlt : c.length - 1 < 0x80 := by omega
  have hn : c.length - 1 + 1 = c.length := by omega
  have hE0 : c.length - 1 ≠ 0xE0 := by omega
  have hgt : ¬ 0xE0 < c.length - 1 := by omega
  have hfit : ¬ limit < out.length + c.length := by omega
  simp [hzDecode, hb, hlt, hn, hE0, hgt, hfit, Nat.not_le.2 hlt]

/-- A decoding that succeeds either ends here, with the output complete, or goes on behind one code word. -/
theorem hzDecode_ok {limit fuel : Nat} {pl out r : List Byte} (h : hzDecode limit (fuel + 1) pl out = .ok r) :
    (r = out ∧ out.length = limit) ∨ ∃ pl' out', hzDecode limit fuel pl' out' = .ok r := by
  cases pl with
  | nil => cases h
  | cons b rest =>
    simp only [hzDecode] at h
    split at h
    case isTrue =>
      split at h
      case isTrue hend => cases h; exact .inl ⟨rfl, hend.1⟩
      case isFalse => cases h
    case isFalse =>
      split at h
      case isTrue => cases h
      case isFalse =>
        split_ifs at h
        all_goals exact .inr ⟨_, _, h⟩

/-- What decodes has the length announced for the block. -/
theorem hzDecode_ok_length {limit fuel : Nat} {pl out r : List Byte} (h : hzDecode limit fuel pl out = .ok r) : r.length = limit := by
  induction fuel generalizing pl out with
  | zero => cases h
  | succ fuel ih =>
    rcases hzDecode_ok h with ⟨rfl, hlen⟩ | ⟨pl', out', h'⟩
    · exact hlen
    · exact ih h'

/-- The payload that carries each string of bytes as one literal run. -/
def literalPayload (cs : List (List Byte)) : List Byte := cs.flatMap (fun c => BitVec.ofNat 8 (c.length - 1) :: c) ++ [0xE0]

theorem literalPayload_cons (c : List Byte) (cs : List (List Byte)) :
    literalPayload (c :: cs) = BitVec.ofNat 8 (c.length - 1) :: (c ++ literalPayload cs) := by
  simp [literalPayload]

/-- Literal runs that fill the block decode to their bytes, behind what the output holds already. -/
theorem hzDecode_literalPayload {limit : Nat} {cs : List (List Byte)} {out : List Byte}
    (hcs : ∀ c ∈ cs, 1 ≤ c.length ∧ c.length ≤ 128) (ho : out.length + cs.flatten.length = limit) :
    hzDecode limit (cs.length + 1) (literalPayload cs) out = .ok (cs.flatten.reverse ++ out) := by
  induction cs generalizing out with
  | nil => simpa [literalPayload] using hzDecode_end ho 0
  | cons c cs ih =>
    obtain ⟨hc, hcs⟩ := List.forall_mem_cons.1 hcs
    rw [List.flatten_cons, List.length_append] at ho
    rw [literalPayload_cons, List.length_cons, hzDecode_literal hc (by omega),
      ih hcs (by rw [List.length_append, List.length_reverse]; omega)]
    simp

/-- Settles O28: the transform and its inverse pass through the same previous hits, records are read back from their bytes, and the
decompressor takes one code word at a time. -/
theorem deltaTransformIsUndone : Obligations.DeltaTransformIsUndone := by
  unfold Obligations.DeltaTransformIsUndone
  refine ⟨?transform, ?undone, ?records, ?serialised, ?length, ?illegal, ?literals⟩
  case transform => exact fun pc pt w r hc ht => ⟨fun h => deltaRecs_hit_fields hc ht h r, fun h => deltaRecs_other h pc pt r⟩
  case undone => exact undeltaRecs_deltaRecs (by decide) (by decide)
  case records => exact fun _ _ _ => hzRecords_of_hzDecode
  case serialised => exact fun ws => ⟨bytesWords_wordsBytes ws, wordsBytes_length ws⟩
  case length => exact fun _ _ _ _ _ => hzDecode_ok_length
  case illegal => exact fun n b r out h => hzDecode_illegal h n r.length r out
  case literals =>
    intro cs n hcs hn
    simpa [literalPayload] using hzDecode_literalPayload (out := []) hcs (by simpa using hn)

end Sys2Proof.Machine

/-! ## Register writes that a rule refuses, and an accepted temperature setting (R18, R268, R408, R426)

A write of the control bus first passes the range rules. One that a rule refuses sets that rule's error bit and nothing else; one of a
guarded register that no rule refuses sets the register's fields and may add a Moraine entry, which touches none of them. -/

namespace Sys2Proof.Machine

/-! ### The control bus -/

/-- A register write that the firewall lets pass is the bus write, answered. -/
theorem exec_registerWrite_of_permitted {s : State} {m : MasterIx} {a v : W32} (hf : s.frozen m = false)
    (hp : s.permitted m .control a.toNat .write = true) :
    exec (.registerWrite m a v) s = .next (State.answered (s.busWrite m a.toNat v.toNat) m) := by
  show execRegisterWrite m a v s = _
  simp [execRegisterWrite, State.guarded, hf, hp]

@[simp] theorem State.answered_cget (x : State × Bool) (m : Nat) (f : Fld) : (State.answered x m).cget f = x.1.cget f := rfl

@[simp] theorem State.answered_trg (x : State × Bool) (m : Nat) : (State.answered x m).trg = x.1.trg := rfl

theorem controlMapped_of_lt {a : Nat} (h : a < 0xA00000) : controlMapped a = true := by simp [controlMapped]; omega

theorem State.busWrite_of_refusal {s : State} {a v : Nat} {f : Fld} (hlo : 0x100000 ≤ a) (hhi : a < 0xA00000)
    (h : s.refusal a v = [f]) (m : Nat) : s.busWrite m a v = (s.cset f 1, false) := by
  rw [State.busWrite, State.busWriteTag, if_neg (by omega), if_neg (by omega), if_neg (by omega), controlMapped_of_lt hhi, h]
  rfl

theorem State.busWrite_of_pro {s : State} {a v : Nat} (hlo : 0x900000 ≤ a) (hhi : a < 0xA00000) (h : s.refusal a v = []) (m : Nat) :
    s.busWrite m a v = s.proWrite m a v 0 := by
  rw [State.busWrite, State.busWriteTag, if_neg (by omega), if_neg (by omega), if_neg (by omega), controlMapped_of_lt hhi, h]
  simp [hlo, hhi]

/-- A write that one rule refuses sets that rule's bit, and every other field and the trigger unit stay. -/
theorem exec_registerWrite_of_refusal {s : State} {m : MasterIx} {a v : W32} {f : Fld} (hf : s.frozen m = false)
    (hp : s.permitted m .control a.toNat .write = true) (hlo : 0x100000 ≤ a.toNat) (hhi : a.toNat < 0xA00000)
    (h : s.refusal a.toNat v.toNat = [f]) (hw : f.width = 1) :
    ∃ u, exec (.registerWrite m a v) s = .next u ∧ u.con f = true ∧ RegsSame s u [f] ∧ u.trg = s.trg := by
  refine ⟨_, exec_registerWrite_of_permitted hf hp, ?_⟩
  rw [State.busWrite_of_refusal hlo hhi h]
  exact ⟨by simp [State.con, hw], fun g hg => s.cget_cset_ne f g 1 (hg f List.mem_cons_self), by simp⟩

/-! ### Which rule refuses a write -/

theorem State.timRefuse_eq_nil {a : Nat} (h : 0x300000 ≤ a) (s : State) (v : Nat) : s.timRefuse a v = [] := by
  rw [State.timRefuse, if_neg (by omega), if_neg (by omega), if_neg (by omega)]

theorem State.frnRefuse_eq_none {a : Nat} (h : 0x500000 ≤ a) (v : Nat) : State.frnRefuse a v = none := by
  rw [State.frnRefuse, if_neg (by omega), if_neg (by omega)]

theorem State.trgRefuse_eq_none {a : Nat} (h : 0x600000 ≤ a) (s : State) : s.trgRefuse a = none := by
  rw [State.trgRefuse, if_neg (by omega), if_neg (by omega)]

theorem proRefuse_eq_none {a : Nat} (h : a < 0x900000) (v : Nat) : proRefuse a v = none := by
  rw [proRefuse, if_neg (by omega)]

/-- R268: while the trigger unit is armed, the settings of its native units are refused. -/
theorem State.refusal_nativeUnit {s : State} {a : Nat} (hlo : 0x500100 ≤ a) (hhi : a < 0x500300) (ho : a % 32 ≤ 8)
    (harm : s.con TRG_STAT_ARMED = true) (v : Nat) : s.refusal a v = [TRG_STAT_CFG_ERR] := by
  have htrg : s.trgRefuse a = some TRG_STAT_CFG_ERR := if_pos ⟨hlo, hhi, ho, harm⟩
  rw [State.refusal, State.timRefuse_eq_nil (by omega), State.frnRefuse_eq_none (by omega), htrg, proRefuse_eq_none (by omega)]
  rfl

/-- In the protection block only the range of the temperature settings refuses a write. -/
theorem State.refusal_pro {a : Nat} (h : 0x900000 ≤ a) (s : State) (v : Nat) : s.refusal a v = (proRefuse a v).toList := by
  rw [State.refusal, State.timRefuse_eq_nil (by omega), State.frnRefuse_eq_none (by omega), State.trgRefuse_eq_none (by omega)]
  rfl

/-- R408's range for a temperature setting: warning below throttle, throttle at most 115 °C, rate at least 1. -/
def TempSettingOk (v : Nat) : Prop := v % 256 < v / 256 % 256 ∧ v / 256 % 256 ≤ 115 ∧ 1 ≤ v / 65536 % 256

theorem tempSettingOk_iff (v : Nat) : TempSettingOk v ↔
    (decide (bits v 0 8 < bits v 8 8) && decide (bits v 8 8 ≤ 115) && decide (1 ≤ bits v 16 8)) = true := by
  simp only [Bool.and_eq_true, decide_eq_true_eq]
  unfold TempSettingOk bits; omega

theorem not_tempSettingOk_iff (v : Nat) :
    ¬ TempSettingOk v ↔ v / 256 % 256 ≤ v % 256 ∨ 115 < v / 256 % 256 ∨ v / 65536 % 256 < 1 := by
  unfold TempSettingOk; omega

theorem proRefuse_eq_none_of_ok {v : Nat} (h : TempSettingOk v) (a : Nat) : proRefuse a v = none := by
  simp [proRefuse, (tempSettingOk_iff v).1 h]

theorem tsCfg_reg (i : Nat) : (PRO_TS_CFG_WARN i).reg = 0x900100 + 8 * i := rfl

/-- R408: a temperature setting outside its range is refused. -/
theorem State.refusal_tsCfg {v : Nat} (h : ¬ TempSettingOk v) (s : State) (i : Fin 32) :
    s.refusal (PRO_TS_CFG_WARN i).reg v = [PRO_STAT_CFG_ERR] := by
  have hreg := tsCfg_reg i
  have hbad := Bool.eq_false_of_not_eq_true (mt (tempSettingOk_iff v).2 h)
  rw [State.refusal_pro (by omega), proRefuse, hbad, if_pos ⟨by omega, by omega, by omega, rfl⟩]
  rfl

/-! ### The fields of a register that is written -/

/-- A run of writes leaves every field whose key is none of theirs. -/
theorem State.foldl_cset_cget_ne (w : Fld → Nat) (fs : List Fld) (s : State) {g : Fld} (h : ∀ f ∈ fs, g.key ≠ f.key) :
    (fs.foldl (fun z f => z.cset f (w f)) s).cget g = s.cget g := by
  induction fs generalizing s with
  | nil => rfl
  | cons f r ih =>
    obtain ⟨hf, hr⟩ := List.forall_mem_cons.1 h
    exact (ih (s.cset f (w f)) hr).trans (s.cget_cset_ne f g _ hf)

/-- In a run of writes of fields with different keys, each field takes its own value. -/
theorem State.foldl_cset_cget_mem (w : Fld → Nat) {fs : List Fld} (hk : fs.Pairwise fun f g => f.key ≠ g.key) (s : State) {g : Fld}
    (hg : g ∈ fs) : (fs.foldl (fun z f => z.cset f (w f)) s).cget g = w g % 2 ^ g.width := by
  induction fs generalizing s with
  | nil => cases hg
  | cons f r ih =>
    obtain ⟨hf, hr⟩ := List.pairwise_cons.1 hk
    rcases List.mem_cons.1 hg with rfl | hg
    · exact (State.foldl_cset_cget_ne w r _ hf).trans (s.cget_cset_same g _)
    · exact ih hr _ hg

/-- Through the open window master 0 writes every field of a register, and no write is refused (R426). -/
theorem State.writeReg_of_open {s : State} {a : Nat} {fs : List Fld} {hi : Bool} (hr : findReg regClasses 4 a = some (fs, hi))
    (ho : s.con PRO_GWIN_OPEN = true) (v : Nat) :
    (s.writeReg 0 a v).1 = fs.foldl (fun z f => z.cset f (f.written (s.cget f) v hi s.glb.locked true)) s := by
  simp [State.writeReg, hr, ho, State.when]

/-- A guarded field that lies in the low word takes its bits of the word written while the window is open. -/
theorem Fld.written_guarded {f : Fld} (hf : f.acc = .guarded) (h0 : 0 < f.width) (h : f.lo + f.width ≤ 32) {old : Nat}
    (hold : old < 2 ^ f.width) (v : Nat) (locked : Bool) : f.written old v false locked true = bits v f.lo f.width := by
  have hlo : f.lo < 32 := by omega
  have hmin : min f.width (32 - f.lo) = f.width := by omega
  simp [Fld.written, Fld.inWord, Fld.merge, hf, hlo, hmin, Nat.div_eq_of_lt hold]

/-- A Moraine entry apart, a register of the protection block without a rule of its own is written under its access codes. -/
theorem State.proWrite_cget {a : Nat} (ha : 0x900100 ≤ a) (s : State) (m v tag : Nat) {g : Fld} (hg : ¬ noteKey g.key) :
    (s.proWrite m a v tag).1.cget g = (s.writeReg m a v).1.cget g := by
  have h1 : a ≠ PRO_GPW_BYTE.reg := by simp only [PRO_GPW_BYTE]; omega
  have h2 : a ≠ PRO_GWIN_CHECK.reg := by simp only [PRO_GWIN_CHECK]; omega
  have h3 : a ≠ PRO_GCOMMIT_CLOSE.reg := by simp only [PRO_GCOMMIT_CLOSE]; omega
  rw [State.proWrite, if_neg h1, if_neg h2, if_neg h3]
  simp only [State.logGuard]
  split
  · rfl
  · exact (State.logAdd_notes _ _).regs g hg

/-! ### Temperature settings (R408) -/

/-- The fields of `PRO_TS_CFG`. -/
def tsCfgFields (i : Nat) : List Fld := [PRO_TS_CFG_WARN i, PRO_TS_CFG_THROT i, PRO_TS_CFG_RATE i, PRO_TS_CFG_PMASK i]

theorem findReg_tsCfg : ∀ i : Fin 32, findReg regClasses 4 (PRO_TS_CFG_WARN i).reg = some (tsCfgFields i, false) := by
  decide +kernel

theorem tsCfgFields_pairwise (i : Nat) : (tsCfgFields i).Pairwise fun f g => f.key ≠ g.key := by
  simp [tsCfgFields, Fld.key, PRO_TS_CFG_WARN, PRO_TS_CFG_THROT, PRO_TS_CFG_RATE, PRO_TS_CFG_PMASK]

/-- What the fields of `PRO_TS_CFG` have in common: they are guarded, and each lies in the low word. -/
theorem tsCfgFields_spec {i : Nat} {f : Fld} (hf : f ∈ tsCfgFields i) :
    f.acc = .guarded ∧ 0 < f.width ∧ f.lo + f.width ≤ 32 ∧ f.reg = 0x900100 + 8 * i := by
  simp only [tsCfgFields, List.mem_cons, List.not_mem_nil, or_false] at hf
  rcases hf with rfl | rfl | rfl | rfl <;> simp [PRO_TS_CFG_WARN, PRO_TS_CFG_THROT, PRO_TS_CFG_RATE, PRO_TS_CFG_PMASK]

/-- The queues, the log and the NVM show in no field of the protection block. -/
theorem not_noteKey_pro {f : Fld} (hlo : 0x900000 ≤ f.reg) (hhi : f.reg < 0xA00000) (h : f.lo < 64) : ¬ noteKey f.key := by
  simp only [noteKey, Fld.key]; omega

/-- Through the open window master 0 writes the fields of a temperature setting that is in range, and beside them only the registers
that show a Moraine entry can change. -/
theorem exec_registerWrite_tsCfg {s : State} {i : Fin 32} {a v : W32} (hf : s.frozen 0 = false)
    (hp : s.permitted 0 .control a.toNat .write = true) (ha : a.toNat = (PRO_TS_CFG_WARN i).reg) (hok : TempSettingOk v.toNat)
    (ho : s.con PRO_GWIN_OPEN = true) :
    ∃ u, exec (.registerWrite 0 a v) s = .next u ∧ (∀ f ∈ tsCfgFields i, u.cget f = bits v.toNat f.lo f.width) ∧
      ∀ g : Fld, ¬ noteKey g.key → (∀ f ∈ tsCfgFields i, g.key ≠ f.key) → u.cget g = s.cget g := by
  have hreg := tsCfg_reg i
  have hlo : 0x900100 ≤ a.toNat := by omega
  have hhi : a.toNat < 0xA00000 := by omega
  have hnone : s.refusal a.toNat v.toNat = [] := by rw [State.refusal_pro (by omega), proRefuse_eq_none_of_ok hok]; rfl
  have hfind : findReg regClasses 4 a.toNat = some (tsCfgFields i, false) := by rw [ha, findReg_tsCfg]
  have hget : ∀ g : Fld, ¬ noteKey g.key → (State.answered (s.busWrite 0 a.toNat v.toNat) 0).cget g =
      ((tsCfgFields i).foldl (fun z f => z.cset f (f.written (s.cget f) v.toNat false s.glb.locked true)) s).cget g := by
    intro g hg
    rw [State.answered_cget, State.busWrite_of_pro (by omega) hhi hnone, State.proWrite_cget hlo s 0 _ 0 hg,
      State.writeReg_of_open hfind ho]
  refine ⟨_, exec_registerWrite_of_permitted hf hp, fun f hmem => ?_, fun g hg hne => ?_⟩
  · obtain ⟨hacc, h0, hw, hr⟩ := tsCfgFields_spec hmem
    have hnote : ¬ noteKey f.key := not_noteKey_pro (by omega) (by omega) (by omega)
    refine (hget f hnote).trans ?_
    rw [State.foldl_cset_cget_mem _ (tsCfgFields_pairwise i) s hmem, Fld.written_guarded hacc h0 hw (s.cget_lt f),
      Nat.mod_eq_of_lt (bits_lt _ _ _)]
  · exact (hget g hg).trans (State.foldl_cset_cget_ne _ _ s hne)

/-- Settles O57: a refused write sets the bit of the rule that refuses it and nothing else; an accepted temperature setting is written
field by field, and the error bit is none of these fields. -/
theorem refusedSettingsAreLeftAndShown : Obligations.RefusedSettingsAreLeftAndShown := by
  unfold Obligations.RefusedSettingsAreLeftAndShown
  refine ⟨?nativeUnits, fun s m i a v hf hp ha => ⟨?refused, ?accepted⟩⟩
  case nativeUnits =>
    intro s m n a v hf hp harm ha
    have hreg : 0x500100 ≤ a.toNat ∧ a.toNat < 0x500300 ∧ a.toNat % 32 ≤ 8 := by
      simp only [TRG_NU_CFG_EN, TRG_NU_LEVEL_LEVEL, TRG_NU_HYST_HYST] at ha; omega
    obtain ⟨hlo, hhi, ho⟩ := hreg
    exact exec_registerWrite_of_refusal hf hp (by omega) (by omega) (State.refusal_nativeUnit hlo hhi ho harm _) rfl
  case refused =>
    intro hbad
    have hreg := tsCfg_reg i
    have href := State.refusal_tsCfg ((not_tempSettingOk_iff _).2 hbad) s i
    rw [← ha] at href
    obtain ⟨u, hu, hbit, hsame, -⟩ := exec_registerWrite_of_refusal hf hp (by omega) (by omega) href rfl
    exact ⟨u, hu, hbit, hsame⟩
  case accepted =>
    rintro hwarn hthrot hrate rfl ho
    obtain ⟨u, hu, hfields, hother⟩ := exec_registerWrite_tsCfg hf hp ha ⟨hwarn, hthrot, hrate⟩ ho
    have herr : u.cget PRO_STAT_CFG_ERR = s.cget PRO_STAT_CFG_ERR := by
      refine hother _ (not_noteKey_pro (by decide) (by decide) (by decide)) fun f hmem => ?_
      obtain ⟨-, -, -, hr⟩ := tsCfgFields_spec hmem
      simp only [Fld.key, PRO_STAT_CFG_ERR, hr]; omega
    refine ⟨u, hu, ?_, ?_, ?_, ?_⟩
    · exact (hfields (PRO_TS_CFG_WARN i) (by simp [tsCfgFields])).trans (by simp [bits, PRO_TS_CFG_WARN])
    · exact hfields (PRO_TS_CFG_THROT i) (by simp [tsCfgFields])
    · exact hfields (PRO_TS_CFG_RATE i) (by simp [tsCfgFields])
    · simp only [State.con, herr]

end Sys2Proof.Machine

/-! ## The form of the tables through every operation and every command -/

namespace Sys2Proof.Machine

set_option Elab.async false

section
variable {s t u : State}

theorem Keeps.ite {c : Prop} [Decidable c] {a b : State} (ha : Keeps s a) (hb : Keeps s b) : Keeps s (if c then a else b) := by
  split
  exacts [ha, hb]

theorem Keeps.ite1 {c : Prop} [Decidable c] {α : Type} {a b : State × α} (ha : Keeps s a.1) (hb : Keeps s b.1) :
    Keeps s (if c then a else b).1 := by
  split
  exacts [ha, hb]

theorem Keeps.ite2 {c : Prop} [Decidable c] {α : Type} {a b : α × State} (ha : Keeps s a.2) (hb : Keeps s b.2) :
    Keeps s (if c then a else b).2 := by
  split
  exacts [ha, hb]

/-- What the form speaks of. -/
def State.formPart (s : State) : Tab Nat × Tab Nat × FirnSt × SpSt × TimeSt × Nat × List Instr :=
  (s.creg, s.freg, s.firn, s.sp, s.tm, s.free, s.pending)

/-- An update of other parts keeps the form. -/
theorem Keeps.same (h : Keeps s t) (e : u.formPart = t.formPart) : Keeps s u := by
  simp only [State.formPart, Prod.mk.injEq] at e
  obtain ⟨hcreg, hfreg, hfirn, hsp, htm, hfree, hpend⟩ := e
  refine ⟨fun hf => ?_, hpend.trans h.pending, htm ▸ h.tick, hfree ▸ h.free⟩
  simpa only [State.FormOk, hcreg, hfreg, hfirn, hsp] using h.form hf

theorem Keeps.setExt (h : Keeps s t) (r e : Nat) (x : Extent) : Keeps s (t.setExt r e x) := h.trans (t.setExt_keeps r e x)
theorem Keeps.freeSlice (h : Keeps s t) (k : Nat) : Keeps s (t.freeSlice k) := h.trans (t.freeSlice_keeps k)
theorem Keeps.cramWrite (h : Keeps s t) (i : Nat) (w : W64) : Keeps s (t.cramWrite i w) := h.trans (t.cramWrite_keeps i w)
theorem Keeps.cramWrite32 (h : Keeps s t) (a v : Nat) : Keeps s (t.cramWrite32 a v) := h.trans (t.cramWrite32_keeps a v)
theorem Keeps.reloadPage (h : Keeps s t) (n : Nat) : Keeps s (t.reloadPage n) := h.trans (t.reloadPage_keeps n)
theorem Keeps.cramUnc (h : Keeps s t) (i : Nat) : Keeps s (t.cramUnc i) := h.trans (t.cramUnc_keeps i)
theorem Keeps.mvWriteRam (h : Keeps s t) (a : Nat) (bs : List Byte) : Keeps s (t.mvWriteRam a bs) := h.trans (t.mvWriteRam_keeps a bs)
theorem Keeps.cramRead (h : Keeps s t) (i : Nat) : Keeps s (t.cramRead i).2 := h.trans (t.cramRead_keeps i)
theorem Keeps.mvWriteFirn (h : Keeps s t) (a : Nat) (bs : List Byte) : Keeps s (t.mvWriteFirn a bs).2 := h.trans
    (t.mvWriteFirn_keeps a bs)
theorem Keeps.onTm (h : Keeps s t) (g : TimeSt → TimeSt) (hg : t.tm.tick ≤ (g t.tm).tick := by exact Nat.le_refl _) :
    Keeps s (t.modTm g) := h.modTm g hg
theorem Keeps.onSp (h : Keeps s t) (g : SpSt → SpSt) (hg : rising t.sp.cram → rising (g t.sp).cram := by exact id) :
    Keeps s (t.modSp g) := h.modSp g hg
theorem Keeps.onFirn (h : Keeps s t) (g : FirnSt → FirnSt) (hl : rising t.firn.lines → rising (g t.firn).lines := by exact id)
    (he : rising t.firn.extents → rising (g t.firn).extents := by exact id) : Keeps s (t.modFirn g) := h.modFirn g hl he
theorem Keeps.onlyWhen (h : Keeps s t) (b : Bool) (g : State → State) (hg : ∀ z, Keeps z (g z)) : Keeps s (t.when b g) :=
  h.when b g (hg t)
theorem Keeps.answered {r : State × Bool} (h : Keeps s r.1) (m : Nat) : Keeps s (State.answered r m) := by
  unfold State.answered State.answer
  exact h.onSp _

/-! #### Machine/Ops.lean -/

theorem Keeps.fadd (h : Keeps s t) (p : Nat) (f : Fld) (n : Nat) : Keeps s (t.fadd p f n) := h.fset _ _ _

theorem Keeps.fbump (h : Keeps s t) (p : Nat) (f : Fld) : Keeps s (t.fbump p f) := h.fadd _ _ _

theorem Keeps.fwrap (h : Keeps s t) (p : Nat) (f : Fld) (n : Nat) : Keeps s (t.fwrap p f n) := h.fset _ _ _

theorem Keeps.modLink (h : Keeps s t) (p q : Nat) (g : FeLink → FeLink) : Keeps s (t.modLink p q g) := h.modFe _ _

theorem Keeps.toInst (h : Keeps s t) (t' : Inst) : Keeps s (t.toInst t') := by
  unfold State.toInst
  exact h.onTm _

theorem Keeps.setQueue (h : Keeps s t) (g q : Nat) (x : Queue) : Keeps s (t.setQueue g q x) :=
  (((((h.modUpl _).cset _ _).cset _ _).cset _ _).cset _ _).onlyWhen _ _ fun _ => (Keeps.refl _).cset _ _

theorem Keeps.enqueue (h : Keeps s t) (g q : Nat) (x : Pkt) : Keeps s (t.enqueue g q x) :=
  Keeps.ite (h.cbump _) (Keeps.ite ((h.cbump _).cset _ _) (h.setQueue _ _ _))

theorem Keeps.enqueueAll (h : Keeps s t) (gs : List Nat) (q : Nat) (x : Pkt) : Keeps s (t.enqueueAll gs q x) :=
  h.foldl _ _ fun _ _ _ => (Keeps.refl _).enqueue _ _ _

theorem Keeps.sendMon (h : Keeps s t) (ws : List W64) : Keeps s (t.sendMon ws) := h.enqueueAll _ _ _

theorem Keeps.monNotice (h : Keeps s t) (cause : Nat) : Keeps s (t.monNotice cause) := h.sendMon _

theorem Keeps.sendCtrl (h : Keeps s t) (g : Nat) (bs : List Byte) : Keeps s (t.sendCtrl g bs) := h.enqueue _ _ _

/-! #### Machine/Flags.lean -/

theorem Keeps.alarmAt (h : Keeps s t) (a : Nat) : Keeps s (t.alarmAt a) :=
  (h.modUpl _).foldl _ _ fun _ _ _ => Keeps.ite (Keeps.ite ((Keeps.refl _).enqueue _ _ _) ((Keeps.refl _).enqueue _ _ _)) (Keeps.refl _)

theorem Keeps.alarm (h : Keeps s t) (f : Fld) : Keeps s (t.alarm f) := h.alarmAt _

theorem Keeps.raise (h : Keeps s t) (f : Fld) : Keeps s (t.raise f) := Keeps.ite h ((h.cset _ _).alarm _)

theorem Keeps.setJournal (h : Keeps s t) (js : List NvmArea) : Keeps s (t.setJournal js) := (h.modNvm _).cset _ _

theorem Keeps.program (h : Keeps s t) (a : NvmArea) : Keeps s (t.program a) := Keeps.ite h (h.setJournal _)

theorem Keeps.logStart (h : Keeps s t) : Keeps s t.logStart := by
  unfold State.logStart
  split
  · exact h
  · exact Keeps.ite h (Keeps.ite (Keeps.ite (((h.modNvm _).program _).program _) ((h.modNvm _).program _)) (Keeps.ite (h.program _) h))

theorem Keeps.logPut (h : Keeps s t) (e : LogEntry) : Keeps s (t.logPut e) :=
  ((((h.modNvm _).cwrap _ _).logStart).cset _ _).enqueueAll _ _ _

theorem Keeps.logLose (h : Keeps s t) : Keeps s t.logLose := (h.modNvm _).cbump _

theorem Keeps.logAdd (h : Keeps s t) (e : LogEntry) : Keeps s (t.logAdd e) :=
  Keeps.ite h.logLose (Keeps.ite (h.logPut _) (Keeps.ite (((h.logPut _).modNvm _).logLose) (((h.logPut _).modNvm _).logPut _)))

theorem Keeps.logBit (h : Keeps s t) (f : Fld) (actor d5 d6 : Nat) : Keeps s (t.logBit f actor d5 d6) := h.logAdd _

theorem Keeps.logChange (h : Keeps s t) (addr new old actor : Nat) (pwd : Bool) (tag : Nat) : Keeps s
    (t.logChange addr new old actor pwd tag) :=
  h.logAdd _

theorem Keeps.logOwn (h : Keeps s t) (item addr val d5 d6 : Nat) : Keeps s (t.logOwn item addr val d5 d6) := h.logAdd _

theorem Keeps.setMv (h : Keeps s t) (c st : Nat) : Keeps s (t.setMv c st) := (h.cset _ _).cset _ _

theorem Keeps.pace (h : Keeps s t) (c : Nat) : Keeps s (t.pace c) :=
  Keeps.ite ((h.setMv _ _).modMch _ _) (Keeps.ite (Keeps.ite (h.cbump _) (h.cbump _)) h)

theorem Keeps.paceAll (h : Keeps s t) (src idx : Nat) : Keeps s (t.paceAll src idx) :=
  h.foldl _ _ fun _ _ _ => Keeps.ite ((Keeps.refl _).pace _) (Keeps.refl _)

theorem Keeps.freeze (h : Keeps s t) (m : Nat) : Keeps s (t.freeze m) :=
  Keeps.ite ((((h.cset _ _).cset _ _).cset _ _).onSp _) (Keeps.ite ((h.cset _ _).setMv _ _) (Keeps.ite
      ((h.cset _ _).onlyWhen _ _ fun _ => (Keeps.refl _).onSp _) (h.cset _ _)))

theorem Keeps.violation (h : Keeps s t) (m : Nat) (sp : Space) (key : Nat) (a : Access) : Keeps s (t.violation m sp key a) :=
  ((((h.freeze _).onlyWhen _ _ fun _ => ((((((Keeps.refl _).cset _ _).cset _ _).cset _ _).cset _ _).cset _ _).cset _ _).raise _).cbump
      _).logBit _ _ _ _

theorem Keeps.guarded (h : Keeps s t) (m : Nat) (sp : Space) (key : Nat) (a : Access) (k : State → State) (hk : ∀ z, Keeps z
    (k z)) : Keeps s (t.guarded m sp key a k) :=
  Keeps.ite h (Keeps.ite (h.trans (hk _)) (h.violation _ _ _ _))

theorem Keeps.latchHigh (h : Keeps s t) (m a v : Nat) : Keeps s (t.latchHigh m a v) := h.onSp _

theorem Keeps.timNow (h : Keeps s t) {m a : Nat} {r : Nat × State} (e : t.timNow m a = some r) : Keeps s r.2 := by
  simp only [State.timNow] at e
  split_ifs at e <;> cases e
  · exact ⟨h.form, h.pending, h.tick, h.free⟩
  all_goals exact h

theorem Keeps.readReg (h : Keeps s t) (m a : Nat) : Keeps s (t.readReg m a).2 := by
  unfold State.readReg
  split
  · exact h.timNow ‹_›
  · split
    exacts [h, h, (h.onlyWhen _ _ fun _ => (Keeps.refl _).latchHigh _ _ _).foldl _ _ fun _ _ _ => .ite ((Keeps.refl _).cset _ _)
        (.refl _)]

theorem Keeps.writeReg (h : Keeps s t) (m a v : Nat) : Keeps s (t.writeReg m a v).1 := by
  unfold State.writeReg
  split
  · exact h
  · exact (h.foldl _ _ fun _ _ _ => (Keeps.refl _).cset _ _).onlyWhen _ _ fun _ => (Keeps.refl _).cset _ _

theorem Keeps.answer (h : Keeps s t) (m : Nat) (err : Bool) (d : Nat) : Keeps s (t.answer m err d) := h.onSp _

theorem Keeps.feReadReg (h : Keeps s t) (p q w : Nat) : Keeps s (t.feReadReg p q w).2 := by
  unfold State.feReadReg
  split
  · exact h
  · exact h
  · exact (h.onlyWhen _ _ fun _ => (Keeps.refl _).modLink _ _ _).foldl _ _ fun _ _ _ => Keeps.ite ((Keeps.refl _).fset _ _ _)
        (Keeps.refl _)

theorem Keeps.feWriteReg (h : Keeps s t) (p w v : Nat) : Keeps s (t.feWriteReg p w v) := by
  unfold State.feWriteReg
  split
  · exact h
  · exact h.foldl _ _ fun _ _ _ => (Keeps.refl _).fset _ _ _

theorem Keeps.feWriteLater (h : Keeps s t) (p w v eff : Nat) : Keeps s (t.feWriteLater p w v eff) :=
  (h.feWriteReg _ _ _).modFe _ _

/-! #### Machine/Channel.lean -/

theorem Keeps.modFacts (h : Keeps s t) (p : Nat) (g : FrameFacts → FrameFacts) : Keeps s (t.modFacts p g) := h.modFe _ _

theorem Keeps.openBusy (h : Keeps s t) (p c t' raw : Nat) (level : ℤ) : Keeps s (t.openBusy p c t' raw level) :=
  Keeps.ite (h.setCh _ _ _) (h.setCh _ _ _)

theorem Keeps.binParity (h : Keeps s t) (p c x : Nat) : Keeps s (t.binParity p c x) := by
  unfold State.binParity
  exact ((((h.fset _ _ _).fbump _ _).modBlk _ _ _).modCh _ _ _).modFacts _ _

theorem Keeps.opChCfg (h : Keeps s t) (p c t' v : Nat) : Keeps s (t.opChCfg p c t' v) :=
  Keeps.ite ((h.feWriteLater _ _ _ _).modCh _ _ _) (Keeps.ite ((h.feWriteLater _ _ _ _).modCh _ _ _) (h.feWriteLater _ _ _ _))

theorem Keeps.gateUpdate (h : Keeps s t) (p : Nat) (g : GateCmd) (pin : Bool) (slot : Nat) : Keeps s (t.gateUpdate p g pin slot) :=
  Keeps.ite h (Keeps.ite (Keeps.ite (((h.fset _ _ _).modFe _ _).modFacts _ _) (((h.fset _ _ _).modFe _ _).fbump _ _))
      ((h.fset _ _ _).modFe _ _))

theorem Keeps.gateApply (h : Keeps s t) (p : Nat) (g : GateCmd) : Keeps s (t.gateApply p g) :=
  Keeps.ite (Keeps.ite (h.fbump _ _) ((h.fset _ _ _).gateUpdate _ _ _ _)) (Keeps.ite ((h.fset _ _ _).gateUpdate _ _ _ _)
      (h.gateUpdate _ _ _ _))

theorem Keeps.gatePend (h : Keeps s t) (p ns kind : Nat) (open_ : Bool) (slot cross : Nat) : Keeps s
    (t.gatePend p ns kind open_ slot cross) := by
  unfold State.gatePend
  exact h.modFe _ _

theorem Keeps.gateDrain (h : Keeps s t) (p ns : Nat) : Keeps s (t.gateDrain p ns) :=
  (h.modFe _ _).foldl _ _ fun _ _ _ => (Keeps.refl _).gateApply _ _

theorem Keeps.pinGlitch (h : Keeps s t) (p m : Nat) : Keeps s (t.pinGlitch p m) := h.modFe _ _

theorem Keeps.opGateCfg (h : Keeps s t) (p t' v : Nat) : Keeps s (t.opGateCfg p t' v) :=
  ((h.gateDrain _ _).feWriteLater _ _ _ _).gatePend _ _ _ _ _ _

theorem Keeps.opPulse (h : Keeps s t) (p : Nat) : Keeps s (t.opPulse p) :=
  Keeps.ite (h.fbump _ _) (Keeps.ite ((h.modFe _ _).fset _ _ _) ((h.modFe _ _).modFe _ _))

theorem Keeps.opChcntRead (h : Keeps s t) (p : Nat) : Keeps s (t.opChcntRead p).2 := by
  unfold State.opChcntRead
  dsimp only
  exact h.modCh _ _ _

/-! #### Machine/Amplitude.lean -/

theorem Keeps.serveStart (h : Keeps s t) (p b ns : Nat) (e : Nat × Nat) : Keeps s (t.serveStart p b ns e) := by
  unfold State.serveStart
  split
  · exact h.modCh _ _ _
  · exact (h.modCh _ _ _).modBlk _ _ _

theorem Keeps.convStart (h : Keeps s t) (p b ns : Nat) (e : Nat × Nat) : Keeps s (t.convStart p b ns e) :=
  (h.setBlk _ _ _).foldl _ _ fun _ _ _ => (Keeps.refl _).serveStart _ _ _ _

theorem Keeps.sliceCal (h : Keeps s t) (p b k : Nat) (offsetMilliLsb gainMicro : ℤ) : Keeps s
    (t.sliceCal p b k offsetMilliLsb gainMicro) :=
  Keeps.ite (h.modBlk _ _ _) ((h.modBlk _ _ _).fset _ _ _)

theorem Keeps.opAdcStat (h : Keeps s t) (p b v : Nat) : Keeps s (t.opAdcStat p b v) :=
  (h.feWriteReg _ _ _).foldl _ _ fun _ _ _ => Keeps.ite ((Keeps.refl _).modBlk _ _ _) (Keeps.refl _)

theorem Keeps.modMon (h : Keeps s t) (p : Nat) (g : MonSt → MonSt) : Keeps s (t.modMon p g) := h.modFe _ _

theorem Keeps.monStart (h : Keeps s t) (p ns : Nat) : Keeps s (t.monStart p ns) :=
  Keeps.ite h (Keeps.ite ((h.modMon _ _).fbump _ _) ((((h.modMon _ _).modMon _ _).fset _ _ _).fset _ _ _))

theorem Keeps.monFinish (h : Keeps s t) (p : Nat) : Keeps s (t.monFinish p) :=
  ((((h.modMon _ _).fset _ _ _).fset _ _ _).fset _ _ _).fwrap _ _ _

theorem Keeps.monCompare (h : Keeps s t) (p i v whys : Nat) (above : Bool) : Keeps s (t.monCompare p i v whys above) :=
  Keeps.ite (Keeps.ite h (((h.fset _ _ _).fset _ _ _).modFacts _ _)) (Keeps.ite (h.fset _ _ _) h)

theorem Keeps.monVoid (h : Keeps s t) (p k code : Nat) : Keeps s (t.monVoid p k code) := by
  unfold State.monVoid
  dsimp only
  exact (Keeps.ite ((h.fset _ _ _).fset _ _ _) (Keeps.ite ((h.fset _ _ _).fset _ _ _) ((h.fset _ _ _).fset _ _ _))).fbump _ _

theorem Keeps.monCommitInput (h : Keeps s t) (p i : Nat) : Keeps s (t.monCommitInput p i) :=
  Keeps.ite (Keeps.ite ((h.monVoid _ _ _).monCompare _ _ _ _ _) (h.monVoid _ _ _)) (Keeps.ite
      (((((((h.fset _ _ _).fset _ _ _).fset _ _ _).fset _ _ _).fset _ _ _).modMon _ _).monCompare _ _ _ _ _)
      ((((((h.fset _ _ _).fset _ _ _).fset _ _ _).fset _ _ _).fset _ _ _).modMon _ _))

/-! #### Machine/Dataflow.lean -/

theorem Keeps.showOcc (h : Keeps s t) (p r : Nat) : Keeps s (t.showOcc p r) := (h.fset _ _ _).fset _ _ _

theorem Keeps.setHalf (h : Keeps s t) (p tk r : Nat) (x : Half) : Keeps s (t.setHalf p tk r x) := (h.modFe _ _).showOcc _ _

theorem Keeps.enterRegion (h : Keeps s t) (p c tk fc : Nat) (w : W64) : Keeps s (t.enterRegion p c tk fc w) :=
  Keeps.ite ((((h.fbump _ _).fset _ _ _).setHalf _ _ _ _).fbump _ _) (Keeps.ite
      ((((h.fbump _ _).fset _ _ _).setHalf _ _ _ _).fbump _ _) (Keeps.ite
      (((((h.fbump _ _).fset _ _ _).setHalf _ _ _ _).fbump _ _).fset _ _ _) (((h.fbump _ _).fset _ _ _).setHalf _ _ _ _)))

theorem Keeps.modMerger (h : Keeps s t) (p : Nat) (g : Merger → Merger) : Keeps s (t.modMerger p g) := h.modFe _ _

theorem Keeps.mergerBegin (h : Keeps s t) (p : Nat) : Keeps s (t.mergerBegin p) := by
  unfold State.mergerBegin
  exact h.modFe _ _

theorem Keeps.mergerReady (h : Keeps s t) (p : Nat) : Keeps s (t.mergerReady p) := Keeps.ite h (h.mergerBegin _)

theorem Keeps.dropRest (h : Keeps s t) (p r : Nat) : Keeps s (t.dropRest p r) := Keeps.ite h ((h.setHalf _ _ _ _).fadd _ _ _)

theorem Keeps.entryLost (h : Keeps s t) (p r b : Nat) (queueBad : Bool) : Keeps s (t.entryLost p r b queueBad) :=
  Keeps.ite ((((((h.setHalf _ _ _ _).fbump _ _).modFacts _ _).modMerger _ _).fbump _ _).fset _ _ _)
      ((((((h.setHalf _ _ _ _).fbump _ _).modFacts _ _).modMerger _ _).fbump _ _).fset _ _ _)

theorem Keeps.serve (h : Keeps s t) (p k r : Nat) (ecc : EccStatus) (queueBad : Bool) : Keeps s (t.serve p k r ecc queueBad) := by
  unfold State.serve
  extract_lets m x n
  split; · exact h
  extract_lets s1 s2 s3
  have h1 : Keeps s s1 := (h.setHalf _ _ _ _).modMerger _ _
  have h2 : Keeps s s2 := .ite (h1.fbump _ _) h1
  have h3 : Keeps s s3 := (h2.modMerger _ _).fwrap _ _ _
  split; · exact h1.entryLost _ _ _ _
  split
  exacts [.ite (h3.dropRest _ _) h3, h3]

theorem Keeps.putSlot (h : Keeps s t) (p q k : Nat) (w : W64) : Keeps s (t.putSlot p q k w) := h.modLink _ _ _

theorem Keeps.slotBegin (h : Keeps s t) (p q : Nat) : Keeps s (t.slotBegin p q) := by
  unfold State.slotBegin
  exact h.modLink _ _ _

theorem Keeps.injectRecord (h : Keeps s t) (p q k : Nat) : Keeps s (t.injectRecord p q k) := by
  unfold State.injectRecord
  split
  · exact h
  · exact Keeps.ite h (h.draw.modLink _ _ _)

theorem Keeps.prbsWord (h : Keeps s t) (p q : Nat) : Keeps s (t.prbsWord p q).2 := by
  unfold State.prbsWord
  dsimp only
  exact h.modLink _ _ _

theorem Keeps.slotWord (h : Keeps s t) (p q k : Nat) : Keeps s (t.slotWord p q k).2 :=
  Keeps.ite2 h (Keeps.ite2 h (Keeps.ite2 (h.prbsWord _ _) h))

theorem Keeps.onSlot (h : Keeps s t) (p : Nat) (g : State → State) (hk : ∀ z, Keeps z (g z)) : Keeps s (t.onSlot p g) :=
  Keeps.ite (((h.modFe _ _).trans (hk _)).modFe _ _) (h.trans (hk _))

theorem Keeps.closeSlot (h : Keeps s t) (p : Nat) : Keeps s (t.closeSlot p) :=
  Keeps.ite (((h.foldl _ _ fun _ _ _ => (Keeps.refl _).dropRest _ _).modMerger _ _).fbump _ _) (h.foldl _ _ fun _ _ _ =>
      (Keeps.refl _).dropRest _ _)

theorem Keeps.flipVoted (h : Keeps s t) (p w bit : Nat) : Keeps s (t.flipVoted p w bit) := by
  unfold State.flipVoted
  split
  · exact h.opChCfg _ _ _ _
  · split
    · exact h.opGateCfg _ _ _
    · split
      · exact h
      · exact h.foldl _ _ fun _ _ _ => (Keeps.refl _).fset _ _ _

theorem Keeps.copyUpset (h : Keeps s t) (p w bit c : Nat) : Keeps s (t.copyUpset p w bit c) :=
  Keeps.ite h (Keeps.ite (h.modFe _ _) (Keeps.ite (h.modFe _ _) ((h.flipVoted _ _ _).modFe _ _)))

theorem Keeps.healCopies (h : Keeps s t) (p w : Nat) : Keeps s (t.healCopies p w).2 := by
  unfold State.healCopies
  dsimp only
  exact h.modFe _ _

theorem Keeps.takeUpsets (h : Keeps s t) (p : Nat) (u : Upsets) : Keeps s (t.takeUpsets p u) :=
  Keeps.ite (h.foldl _ _ fun _ _ _ => (Keeps.refl _).copyUpset _ _ _ _) (((h.foldl _ _ fun _ _ _ =>
      (Keeps.refl _).copyUpset _ _ _ _).fadd _ _ _).modFacts _ _)

theorem Keeps.scrubWord (h : Keeps s t) (p w : Nat) : Keeps s (t.scrubWord p w) := by
  unfold State.scrubWord
  dsimp only
  exact (Keeps.ite (((h.healCopies _ _).fadd _ _ _).modFacts _ _) h).modFe _ _

theorem Keeps.fcBad (h : Keeps s t) (p q : Nat) : Keeps s (t.fcBad p q) := (h.fbump _ _).modFacts _ _

theorem Keeps.fastCommand (h : Keeps s t) (p q slot : Nat) (g : State → State) (hk : ∀ z, Keeps z (g z)) : Keeps s
    (t.fastCommand p q slot g) :=
  Keeps.ite h (Keeps.ite ((h.toInst _).trans (hk _)) (h.fbump _ _))

theorem Keeps.powerAsk (h : Keeps s t) (p : Nat) (standby : Bool) : Keeps s (t.powerAsk p standby) :=
  Keeps.ite ((h.fbump _ _).modFe _ _) (h.modFe _ _)

theorem Keeps.flushFrame (h : Keeps s t) (p : Nat) : Keeps s (t.flushFrame p) :=
  (h.modFe _ _).foldl _ _ fun _ _ _ => (((Keeps.refl _).setHalf _ _ _ _).fadd _ _ _).fset _ _ _

theorem Keeps.feStandby (h : Keeps s t) (p : Nat) : Keeps s (t.feStandby p) := (h.fset _ _ _).modFacts _ _

theorem Keeps.rearmAll (h : Keeps s t) (p : Nat) : Keeps s (t.rearmAll p) := h.same rfl

theorem Keeps.feWake (h : Keeps s t) (p : Nat) : Keeps s (t.feWake p) := (((h.fset _ _ _).modFe _ _).fset _ _ _).rearmAll _

/-! #### Machine/Link.lean -/

theorem Keeps.feRead (h : Keeps s t) (p q w : Nat) : Keeps s (t.feRead p q w).2 :=
  Keeps.ite2 (h.opChcntRead _) (Keeps.ite2 h (Keeps.ite2 h (Keeps.ite2 (h.feReadReg _ _ _) (Keeps.ite2 h (h.feReadReg _ _ _)))))

theorem Keeps.opLnkVer (h : Keeps s t) (p k v : Nat) : Keeps s (t.opLnkVer p k v) :=
  Keeps.ite (h.fset _ _ _) (Keeps.ite ((h.feWriteReg _ _ _).fset _ _ _) (h.feWriteReg _ _ _))

theorem Keeps.injectUp (h : Keeps s t) (p k v : Nat) : Keeps s (t.injectUp p k v) :=
  Keeps.ite (h.modLink _ _ _) (Keeps.ite (h.modLink _ _ _) h)

theorem Keeps.feWriteWord (h : Keeps s t) (p w t' v : Nat) : Keeps s (t.feWriteWord p w t' v) :=
  Keeps.ite (h.feWriteLater _ _ _ _) (Keeps.ite (h.feWriteLater _ _ _ _) (Keeps.ite (h.opChCfg _ _ _ _) (Keeps.ite (h.opGateCfg _ _ _)
      (Keeps.ite (h.opAdcStat _ _ _) (Keeps.ite (Keeps.ite (h.feWriteReg _ _ _) (h.fset _ _ _)) (Keeps.ite (h.opLnkVer _ _ _)
      (Keeps.ite (Keeps.ite h (h.feWriteReg _ _ _)) (Keeps.ite (Keeps.ite (h.modFe _ _) h) (Keeps.ite
      ((h.feWriteReg _ _ _).onlyWhen _ _ fun _ => (Keeps.refl _).modLink _ _ _) (Keeps.ite ((h.feWriteReg _ _ _).onlyWhen _ _ fun _ =>
      (Keeps.refl _).injectUp _ _ _) (Keeps.ite h (h.feWriteReg _ _ _))))))))))))

theorem Keeps.feWrite (h : Keeps s t) (p w t' v : Nat) : Keeps s (t.feWrite p w t' v) :=
  Keeps.ite ((h.healCopies _ _).feWriteWord _ _ _ _) (((h.healCopies _ _).feWriteWord _ _ _ _).modFe _ _)

theorem Keeps.feAnswer (h : Keeps s t) (p q : Nat) (r : ReqPkt) (t' : Inst) : Keeps s (t.feAnswer p q r t').2 :=
  Keeps.ite2 h (Keeps.ite2 h (Keeps.ite2 h (Keeps.ite2 (h.feRead _ _ _) (Keeps.ite2 (h.feWrite _ _ _ _) h))))

theorem Keeps.pushResp (h : Keeps s t) (p q : Nat) (r : RespPkt) (posted : Bool) : Keeps s (t.pushResp p q r posted) :=
  Keeps.ite (h.onlyWhen _ _ fun _ => (Keeps.refl _).fbump _ _) (Keeps.ite ((h.onlyWhen _ _ fun _ =>
      (Keeps.refl _).fbump _ _).fbump _ _) ((h.onlyWhen _ _ fun _ => (Keeps.refl _).fbump _ _).modLink _ _ _))

theorem Keeps.feRequestAt (h : Keeps s t) (p q : Nat) (r : ReqPkt) (t' : Inst) : Keeps s (t.feRequestAt p q r t') :=
  Keeps.ite h ((h.feAnswer _ _ _ _).pushResp _ _ _ _)

theorem Keeps.feRequest (h : Keeps s t) (p q : Nat) (r : ReqPkt) : Keeps s (t.feRequest p q r) := h.feRequestAt _ _ _ _

theorem Keeps.reqCounts (h : Keeps s t) (p q : Nat) (x : CodeRun) : Keeps s (t.reqCounts p q x) := by
  unfold State.reqCounts
  dsimp only
  split
  · exact (((h.fadd _ _ _).onlyWhen _ _ fun _ => (Keeps.refl _).modFacts _ _).fbump _ _).modFacts _ _
  · exact ((h.fadd _ _ _).onlyWhen _ _ fun _ => (Keeps.refl _).modFacts _ _).fbump _ _
  · exact (h.fadd _ _ _).onlyWhen _ _ fun _ => (Keeps.refl _).modFacts _ _

theorem Keeps.runDue (h : Keeps s t) (p : Nat) (ds : List DuePkt) : Keeps s (t.runDue p ds) :=
  h.foldl _ _ fun _ _ _ => (Keeps.refl _).feRequestAt _ _ _ _

theorem Keeps.fePortWrite (h : Keeps s t) (p q w t' v : Nat) : Keeps s (t.fePortWrite p q w t' v) :=
  Keeps.ite ((h.toInst _).feWrite _ _ _ _) (h.toInst _)

theorem Keeps.feLoad (h : Keeps s t) (p : Nat) (x : SyncInfo) : Keeps s (t.feLoad p x) := h.modFe _ _

theorem Keeps.linkReset (h : Keeps s t) (p q : Nat) : Keeps s (t.linkReset p q) := by
  unfold State.linkReset
  exact (h.foldl _ _ fun _ _ _ => (Keeps.refl _).fset _ _ _).modLink _ _ _

theorem Keeps.feFall (h : Keeps s t) (p q st : Nat) : Keeps s (t.feFall p q st) :=
  (((h.fset _ _ _).fbump _ _).fset _ _ _).modLink _ _ _

theorem Keeps.syncTime (h : Keeps s t) (p q : Nat) (x : SyncInfo) : Keeps s (t.syncTime p q x) :=
  Keeps.ite (((h.feLoad _ _).fbump _ _).modLink _ _ _) (Keeps.ite (h.feLoad _ _) (Keeps.ite (h.modLink _ _ _) (Keeps.ite
      (((((h.fbump _ _).modFacts _ _).feLoad _ _).fbump _ _).modLink _ _ _) (((h.fbump _ _).modFacts _ _).modLink _ _ _))))

theorem Keeps.syncClaim (h : Keeps s t) (p q : Nat) (x : SyncInfo) : Keeps s (t.syncClaim p q x) :=
  Keeps.ite (h.modLink _ _ _) (Keeps.ite ((h.fset _ _ _).modLink _ _ _) (Keeps.ite (h.modLink _ _ _) ((h.fbump _ _).modLink _ _ _)))

theorem Keeps.followState (h : Keeps s t) (p q st : Nat) : Keeps s (t.followState p q st) :=
  (h.fset _ _ _).onlyWhen _ _ fun _ => (Keeps.refl _).rearmAll _

theorem Keeps.syncState (h : Keeps s t) (p q : Nat) (x : SyncInfo) : Keeps s (t.syncState p q x) :=
  Keeps.ite (h.modLink _ _ _) (Keeps.ite ((h.modLink _ _ _).followState _ _ _) (Keeps.ite ((h.modLink _ _ _).followState _ _ _)
      (h.modLink _ _ _)))

theorem Keeps.syncPh (h : Keeps s t) (p q : Nat) (x : SyncSet) (good : Bool) : Keeps s (t.syncPh p q x good) := h.modLink _ _ _

theorem Keeps.lineErrs (h : Keeps s t) (p q n : Nat) : Keeps s (t.lineErrs p q n) := Keeps.ite h ((h.fadd _ _ _).modFacts _ _)

theorem Keeps.showOwner (h : Keeps s t) (p : Nat) (o : Option Nat) (ov : Bool) : Keeps s (t.showOwner p o ov) :=
  (((((((h.modFe _ _).fset _ _ _).fset _ _ _).fset _ _ _).fset _ _ _).fset _ _ _).fset _ _ _).fset _ _ _

theorem Keeps.ownerEval (h : Keeps s t) (p : Nat) : Keeps s (t.ownerEval p) := by
  unfold State.ownerEval
  dsimp only
  split
  · exact (h.modFe _ _).showOwner _ _ _
  · exact Keeps.ite ((h.modFe _ _).showOwner _ _ _) (Keeps.ite (((h.fset _ _ _).modFe _ _).showOwner _ _ _) (((Keeps.ite h
        (h.fbump _ _)).modFe _ _).showOwner _ _ _))

theorem Keeps.proxyEnd (h : Keeps s t) (m : Nat) (err : Bool) (d : Nat) : Keeps s (t.proxyEnd m err d) := h.answer _ _ _

theorem Keeps.portRequest (h : Keeps s t) (p w : Nat) (data : Option W32) (m : Option Nat) : Keeps s (t.portRequest p w data m) :=
  h.modPort _ _

theorem Keeps.dropWaiting (h : Keeps s t) (p : Nat) : Keeps s (t.dropWaiting p) := by
  unfold State.dropWaiting
  refine (h.modPort _ _).foldl _ _ fun z r _ => ?_
  split
  exacts [(Keeps.refl z).proxyEnd _ _ _, Keeps.refl z]

theorem Keeps.lockBegin (h : Keeps s t) (p : Nat) : Keeps s (t.lockBegin p) := (h.cset _ _).modPort _ _

theorem Keeps.negBegin (h : Keeps s t) (p : Nat) : Keeps s (t.negBegin p) :=
  ((h.modPort _ _).portRequest _ _ _ _).portRequest _ _ _ _

theorem Keeps.plEnter (h : Keeps s t) (p st : Nat) : Keeps s (t.plEnter p st) :=
  Keeps.ite ((((h.cset _ _).modPort _ _).onlyWhen _ _ fun _ => (Keeps.refl _).dropWaiting _).lockBegin _) (Keeps.ite
      ((((h.cset _ _).modPort _ _).onlyWhen _ _ fun _ => (Keeps.refl _).dropWaiting _).negBegin _)
      (((h.cset _ _).modPort _ _).onlyWhen _ _ fun _ => (Keeps.refl _).dropWaiting _))

theorem Keeps.plGiveUp (h : Keeps s t) (p : Nat) : Keeps s (t.plGiveUp p) := ((h.cset _ _).modPort _ _).plEnter _ _

theorem Keeps.plFail (h : Keeps s t) (p reason back : Nat) : Keeps s (t.plFail p reason back) :=
  Keeps.ite ((((h.cbump _).cset _ _).modPort _ _).plGiveUp _) ((((h.cbump _).cset _ _).modPort _ _).plEnter _ _)

theorem Keeps.plExit (h : Keeps s t) (p reason dest : Nat) : Keeps s (t.plExit p reason dest) :=
  ((h.cbump _).cset _ _).plEnter _ _

theorem Keeps.setGold (h : Keeps s t) (p w v : Nat) : Keeps s (t.setGold p w v) := h.modPort _ _

theorem Keeps.goldPush (h : Keeps s t) (p : Nat) : Keeps s (t.goldPush p) := h.modPort _ _

theorem Keeps.plRun (h : Keeps s t) (p : Nat) : Keeps s (t.plRun p) := by
  unfold State.plRun
  exact (((h.cbump _).cset _ _).plEnter _ _).modPort _ _

theorem Keeps.ownRead (h : Keeps s t) (p w v : Nat) : Keeps s (t.ownRead p w v) := by
  unfold State.ownRead
  dsimp only
  split
  · split
    · exact h.modPort _ _
    · split
      · exact Keeps.ite (h.modPort _ _) (((h.modPort _ _).modPort _ _).portRequest _ _ _ _)
      · exact h.modPort _ _
  · exact h.modPort _ _

theorem Keeps.configBegin (h : Keeps s t) (p : Nat) : Keeps s (t.configBegin p) :=
  Keeps.ite ((h.setGold _ _ _).plEnter _ _) (((h.setGold _ _ _).plEnter _ _).goldPush _)

theorem Keeps.opTest (h : Keeps s t) (p : Nat) : Keeps s (t.opTest p) := Keeps.ite (h.modPort _ _) (h.cset _ _)

theorem Keeps.testBegin (h : Keeps s t) (p : Nat) : Keeps s (t.testBegin p) :=
  Keeps.ite (((((((((h.plEnter _ _).cset _ _).cset _ _).modPort _ _).fset _ _ _).fset _ _ _).fset _ _ _).fset _ _ _).modLink _ _ _)
      ((((h.plEnter _ _).cset _ _).cset _ _).modPort _ _)

theorem Keeps.enablePort (h : Keeps s t) (p : Nat) (on : Bool) : Keeps s (t.enablePort p on) := by
  unfold State.enablePort
  dsimp only
  exact Keeps.ite (h.cset _ _) ((Keeps.ite (h.cset _ _) ((h.cset _ _).plEnter _ _)).modPort _ _)

theorem Keeps.opPlCtrl (h : Keeps s t) (p m v : Nat) : Keeps s (t.opPlCtrl p m v).1 :=
  ((((h.writeReg _ _ _).cset _ _).enablePort _ _).onlyWhen _ _ fun _ => (Keeps.refl _).modPort _ _).onlyWhen _ _ fun _ =>
      (Keeps.refl _).opTest _

theorem Keeps.injectDown (h : Keeps s t) (p v : Nat) : Keeps s (t.injectDown p v) :=
  Keeps.ite (h.draw.modPort _ _) (Keeps.ite (h.modPort _ _) h)

theorem Keeps.opPlInj (h : Keeps s t) (p m v : Nat) : Keeps s (t.opPlInj p m v).1 :=
  (h.writeReg _ _ _).onlyWhen _ _ fun _ => (Keeps.refl _).injectDown _ _

theorem Keeps.testEndPort (h : Keeps s t) (p : Nat) (inj errs : List Nat) : Keeps s (t.testEndPort p inj errs) := by
  unfold State.testEndPort
  exact (((h.onlyWhen _ _ fun _ => (Keeps.refl _).modTwin _).cset _ _).cset _ _).plEnter _ _

theorem Keeps.testEndFe (h : Keeps s t) (p q : Nat) (inj errs : List Nat) : Keeps s (t.testEndFe p q inj errs) := by
  unfold State.testEndFe
  exact (((((h.fset _ _ _).fset _ _ _).fset _ _ _).fset _ _ _).fset _ _ _).modLink _ _ _

theorem Keeps.proxyRequest (h : Keeps s t) (m addr : Nat) (write : Option W32) : Keeps s (t.proxyRequest m addr write) :=
  Keeps.ite (h.proxyEnd _ _ _) (h.portRequest _ _ _ _)

theorem Keeps.responseFor (h : Keeps s t) (p : Nat) (o : OutReq) (r : RespPkt) : Keeps s (t.responseFor p o r) := by
  unfold State.responseFor
  extract_lets err s2
  have h2 : Keeps s s2 := by
    dsimp only [s2]
    split
    exacts [h.proxyEnd _ _ _, h]
  split; · exact (h2.cbump _).cset _ _
  split
  exacts [h2.setGold _ _ _, h2.ownRead _ _ _, h2]

theorem Keeps.responsePkt (h : Keeps s t) (p : Nat) (r : RespPkt) : Keeps s (t.responsePkt p r) := by
  unfold State.responsePkt
  split
  · exact h
  · split
    · exact h.cbump _
    · exact (h.modPort _ _).responseFor _ _ _

theorem Keeps.sendFast (h : Keeps s t) (ps : List Nat) (code : Nat) : Keeps s (t.sendFast ps code) :=
  h.foldl _ _ fun _ _ _ => (Keeps.refl _).modPort _ _

theorem Keeps.proxyDirect (h : Keeps s t) (addr : Nat) (write : Option Nat) : Keeps s (t.proxyDirect addr write).2.2 := by
  unfold State.proxyDirect
  extract_lets p w q r s1
  split; · exact h
  have h1 : Keeps s s1 := h.modPort _ _
  split; · exact h1.cbump _
  have ha := h1.feAnswer p q r.pkt s1.nowInst
  split; · exact ((ha.fbump _ _).cbump _).cset _ _
  cases write
  exacts [ha, ha.setGold _ _ _]

theorem Keeps.formSync (h : Keeps s t) (p : Nat) : Keeps s (t.formSync p) := h.modPort _ _

/-! #### Machine/Ingest.lean -/

theorem Keeps.modRx (h : Keeps s t) (p k : Nat) (g : RxSlot → RxSlot) : Keeps s (t.modRx p k g) := by
  unfold State.modRx
  exact h.modPort _ _

theorem Keeps.rxHeader (h : Keeps s t) (p k : Nat) (w : W64) : Keeps s (t.rxHeader p k w) := by
  unfold State.rxHeader
  extract_lets n f v s1 s2 x
  have h1 : Keeps s s1 := (h.cset _ _).modPort _ _
  have h2 : Keeps s s2 := .ite h1 (((h1.cbump _).cset _ _).modRx _ _ _)
  split; · exact h2.modPort _ _
  split
  exacts [((h2.modPort _ _).cbump _).logBit _ _ _ _, h2]

theorem Keeps.rxTrailer (h : Keeps s t) (p : Nat) (w : W64) : Keeps s (t.rxTrailer p w) := h.cwrap _ _

theorem Keeps.rxRecord (h : Keeps s t) (p k pos : Nat) (w : W64) : Keeps s (t.rxRecord p k pos w) :=
  Keeps.ite h (Keeps.ite ((h.modRx _ _ _).rxHeader _ _ _) (Keeps.ite ((h.modRx _ _ _).rxTrailer _ _) (h.modRx _ _ _)))

theorem Keeps.rxRecords (h : Keeps s t) (p k pos : Nat) (ws : List W64) : Keeps s (t.rxRecords p k pos ws) := by
  induction ws generalizing t pos with
  | nil => exact h
  | cons w r ih => exact ih (h.rxRecord _ _ _ _) _

theorem Keeps.payloadErrs (h : Keeps s t) (p n : Nat) : Keeps s (t.payloadErrs p n) := Keeps.ite h ((h.cadd _ _).modTwin _)

theorem Keeps.payloadWord (h : Keeps s t) (p : Nat) (w : W64) : Keeps s (t.payloadWord p w) := by
  unfold State.payloadWord
  dsimp only
  split
  · exact h.modPort _ _
  · exact Keeps.ite ((h.modPort _ _).payloadErrs _ _) (h.modPort _ _)

theorem Keeps.payloadCw (h : Keeps s t) (p i : Nat) (ws : Option (List W64)) : Keeps s (t.payloadCw p i ws) := by
  unfold State.payloadCw
  split
  · exact h.modPort _ _
  · split
    · exact h.foldl _ _ fun _ _ _ => (Keeps.refl _).payloadWord _ _
    · exact Keeps.ite ((h.draw.modPort _ _).payloadErrs _ _) (h.draw.modPort _ _)

theorem Keeps.absence (h : Keeps s t) (p k : Nat) : Keeps s (t.absence p k) :=
  Keeps.ite ((h.cbump _).cset _ _) (((h.cbump _).cset _ _).modPort _ _)

theorem Keeps.portLimit (h : Keeps s t) (p k : Nat) : Keeps s (t.portLimit p k) := by
  unfold State.portLimit
  extract_lets x s0 away n s1 s2
  have h0 : Keeps s s0 := h.onlyWhen _ _ fun _ => (Keeps.refl _).modPort _ _
  have ha {z : State} (hz : Keeps s z) : Keeps s (away z) := (Keeps.ite (hz.absence _ _) hz).cset _ _
  have h1 : Keeps s s1 := .ite h0 ((h0.cadd _ _).cset _ _)
  have h2 : Keeps s s2 := .ite h1 (h1.cset _ _)
  exact .ite (h0.cset _ _) (.ite (ha h0) (.ite ((h1.cbump _).cset _ _) (.ite (ha h1)
    (h2.foldl _ _ fun _ _ _ => (Keeps.refl _).sendMon _))))

theorem Keeps.entryRead (h : Keeps s t) (p k pos : Nat) (e : EccStatus) : Keeps s (t.entryRead p k pos e) := by
  unfold State.entryRead
  split
  · exact h
  · exact h.cbump _
  · exact ((h.cbump _).cset _ _).modRx _ _ _

theorem Keeps.abandon (h : Keeps s t) (p k : Nat) : Keeps s (t.abandon p k) := (((h.modRx _ _ _).modPort _ _).modRgn _ _).cset _ _

theorem Keeps.toMerge (h : Keeps s t) (u : Unit_) : Keeps s (t.toMerge u) := (h.modRgn _ _).cwrap _ _

theorem Keeps.verifyFailed (h : Keeps s t) (p : Nat) (cnt : Fld) (u : Unit_) : Keeps s (t.verifyFailed p cnt u) :=
  Keeps.ite (((((h.cbump _).cset _ _).toMerge _).modRgn _ _).monNotice _) (((h.cbump _).cset _ _).toMerge _)

/-! #### Machine/Scan.lean -/

theorem Keeps.spProxies (h : Keeps s t) (l : List (Nat × Nat × Nat)) : Keeps s (t.spProxies l).2 := by
  induction l generalizing t with
  | nil => exact h
  | cons e r ih =>
    have h1 : Keeps s (t.guarded 0 .control (proxyAddr e.1 e.2.1) .write id) := h.guarded _ _ _ _ _ Keeps.refl
    unfold State.spProxies
    simp only
    split
    · exact h1
    · split
      · exact h1.proxyDirect _ _
      · exact ih (h1.proxyDirect _ _)

theorem Keeps.calRestore (h : Keeps s t) (saved : List (Nat × Nat × Nat)) : Keeps s (t.calRestore saved) := h.spProxies _

theorem Keeps.setScan (h : Keeps s t) (x : Scan) : Keeps s (t.setScan x) := h.onSp _

theorem Keeps.scanWrite (h : Keeps s t) (x : Scan) : Keeps s (t.scanWrite x) := (h.spProxies _).setScan _

theorem Keeps.scanTick (h : Keeps s t) : Keeps s t.scanTick := by
  unfold State.scanTick
  split; · exact h
  dsimp only
  split; · exact h
  split; · exact h.setScan _
  split; · exact h.scanWrite _
  have h1 := h.sendFast
  split; · exact (h1 _ _).setScan _
  split
  exacts [(h1 _ _).setScan _, .ite ((h1 _ _).setScan _) ((h1 _ _).scanWrite _)]

theorem Keeps.serviceUnit (h : Keeps s t) (u : Unit_) : Keeps s (t.serviceUnit u) := Keeps.ite h (h.onSp _)

/-! #### Machine/Firn.lean -/

theorem Keeps.modExt (h : Keeps s t) (r e : Nat) (g : Extent → Extent) : Keeps s (t.modExt r e g) := h.setExt _ _ _

theorem Keeps.setIxe (h : Keeps s t) (k : Nat) (x : IxEntry) : Keeps s (t.setIxe k x) := h.onFirn _

theorem Keeps.modPin (h : Keeps s t) (n : Nat) (g : Pin → Pin) : Keeps s (t.modPin n g) := h.onFirn _

theorem Keeps.refreshEdges (h : Keeps s t) : Keeps s t.refreshEdges := by
  unfold State.refreshEdges
  dsimp only
  exact (Keeps.ite h ((h.cset _ _).cset _ _)).foldl _ _ fun _ _ _ => (((Keeps.refl _).cset _ _).cset _ _).cset _ _

theorem Keeps.calveSlices (h : Keeps s t) (ks : List Nat) : Keeps s (t.calveSlices ks) :=
  (h.foldl _ _ fun _ _ _ => ((Keeps.refl _).freeSlice _).setIxe _ _).refreshEdges

theorem Keeps.calveUpTo (h : Keeps s t) (k : Nat) : Keeps s (t.calveUpTo k) := h.calveSlices _

theorem Keeps.modRange (h : Keeps s t) (first last : Nat) (g : IxEntry → IxEntry) : Keeps s (t.modRange first last g) :=
  h.onFirn _

theorem Keeps.setPin (h : Keeps s t) (n first last : Nat) : Keeps s (t.setPin n first last) := by
  unfold State.setPin
  exact ((h.modPin _ _).modRange _ _ _).refreshEdges

theorem Keeps.extendPin (h : Keeps s t) (n last : Nat) : Keeps s (t.extendPin n last) :=
  Keeps.ite h (((h.modPin _ _).modRange _ _ _).refreshEdges)

theorem Keeps.calveReleased (h : Keeps s t) (old : Nat) : Keeps s (t.calveReleased old) :=
  Keeps.ite h.refreshEdges (h.calveSlices _)

theorem Keeps.unpin (h : Keeps s t) (n : Nat) (mark : IxEntry → IxEntry) : Keeps s (t.unpin n mark) := by
  unfold State.unpin
  exact (h.modPin _ _).onFirn _

theorem Keeps.clearPin (h : Keeps s t) (n : Nat) : Keeps s (t.clearPin n) := Keeps.ite h ((h.unpin _ _).calveReleased _)

theorem Keeps.truncCore (h : Keeps s t) (n : Nat) : Keeps s (t.truncCore n) := by
  unfold State.truncCore
  split
  · exact h
  · exact ((h.modTrg _).cset _ _).cset _ _

theorem Keeps.releasePin (h : Keeps s t) (n : Nat) : Keeps s (t.releasePin n) :=
  (((h.unpin _ _).modPin _ _).truncCore _).calveReleased _

theorem Keeps.releaseOldest (h : Keeps s t) : Keeps s t.releaseOldest := by
  unfold State.releaseOldest
  split
  · exact h
  · exact ((h.releasePin _).cbump _).cset _ _

theorem Keeps.releaseCovering (h : Keeps s t) (k : Nat) : Keeps s (t.releaseCovering k) :=
  h.foldl _ _ fun _ _ _ => (Keeps.refl _).releasePin _

theorem Keeps.claim (h : Keeps s t) (k st frames : Nat) : Keeps s (t.claim k st frames) := by
  unfold State.claim
  dsimp only
  exact ((((Keeps.ite ((Keeps.ite (((h.releaseCovering _).cbump _).cset _ _) h).freeSlice _) h).setIxe _ _).onFirn _).cset _
      _).refreshEdges

theorem Keeps.closeChains (h : Keeps s t) (k : Nat) : Keeps s (t.closeChains k) :=
  h.foldl _ _ fun _ _ _ => ((Keeps.refl _).modRgn _ _).foldl _ _ fun _ _ _ => (Keeps.refl _).modExt _ _ _

theorem Keeps.countFrames (h : Keeps s t) (k n : Nat) : Keeps s (t.countFrames k n) := by
  unfold State.countFrames
  dsimp only
  exact Keeps.ite h ((Keeps.ite (h.setIxe _ _) ((h.setIxe _ _).closeChains _)).refreshEdges)

theorem Keeps.issueLine (h : Keeps s t) (r : Nat) (c : Chain) (line : Nat) (d : List Byte) : Keeps s (t.issueLine r c line d) :=
  ((h.modRgn _ _).modExt _ _ _).cwrap _ _

theorem Keeps.putChain (h : Keeps s t) (r : Nat) (c : Chain) : Keeps s (t.putChain r c) := h.modRgn _ _

theorem Keeps.issueFull (h : Keeps s t) (r : Nat) (c : Chain) (n : Nat) : Keeps s (t.issueFull r c n).1 := by
  induction n generalizing t c with
  | zero => exact h
  | succ n ih =>
    unfold State.issueFull
    split
    · exact h
    · exact ih (h.issueLine _ _ _ _) _

theorem Keeps.issuePartial (h : Keeps s t) (r : Nat) (c : Chain) : Keeps s (t.issuePartial r c) :=
  Keeps.ite h (h.issueLine _ _ _ _)

theorem Keeps.noExtent (h : Keeps s t) (r k : Nat) : Keeps s (t.noExtent r k) := (((h.cbump _).raise _).cset _ _).setIxe _ _

/-! A step of the writer that finds room answers the state it leaves. -/

theorem Keeps.takeExtent (h : Keeps s t) {r k e g : Nat} {u : State} (he : t.takeExtent r k = some (e, g, u)) : Keeps s u := by
  unfold State.takeExtent at he
  split at he
  · cases he
  · cases he
    exact ((h.modRgn _ _).cset _ _).trans (State.setExt_keeps _ _ _ _)

theorem Keeps.chainExtent (h : Keeps s t) {r : Nat} {c d : Chain} {close : Bool} {u : State}
    (he : t.chainExtent r c close = some (d, u)) : Keeps s u := by
  unfold State.chainExtent at he
  split at he
  · cases he
  · next e =>
    cases he
    exact .ite (((h.takeExtent e).issueFull _ _ _).modExt _ _ _) ((h.takeExtent e).modExt _ _ _)

theorem Keeps.putItem (h : Keeps s t) {r : Nat} {c d : Chain} {w : Option LineUnit} {first : Bool} {b : List Byte} {u : State}
    (he : t.putItem r c w first b = some (d, u)) : Keeps s u := by
  simp only [State.putItem] at he
  split at he
  · cases he
  · next d1 s1 e =>
    have h1 : Keeps s s1 := by
      split at e
      · cases e; exact h
      · exact h.chainExtent e
    cases he
    have h2 : Keeps s (if first then s1.modExt r d1.ext fun x => if x.fofs = 0x7FFFFF then { x with fofs := d1.used } else x else s1) :=
      .ite (h1.modExt _ _ _) h1
    exact .ite (h2.modExt _ _ _) h2

theorem Keeps.putItems (h : Keeps s t) {r : Nat} {c d : Chain} {w : Option LineUnit} {first : Bool} {bs : List (List Byte)} {u : State}
    (he : t.putItems r c w first bs = some (d, u)) : Keeps s u := by
  induction bs generalizing t c first with
  | nil => cases he; exact h
  | cons b r ih =>
    unfold State.putItems at he
    split at he
    · cases he
    · next e => exact ih (h.putItem e) he

theorem Keeps.tryStore (h : Keeps s t) (r k : Nat) (u : Option LineUnit) (crev : Bool) (items : List (List Byte)) :
    Keeps s (t.tryStore r k u crev items).1 := by
  unfold State.tryStore
  split
  · exact h.cbump _
  · simp only
    split
    · exact h.noExtent _ _
    · next c s1 e =>
      have h1 : Keeps s s1 := by
        split at e
        · split at e
          · cases e
          · cases e; exact h
        · split at e
          · next e1 => cases e; exact h.takeExtent e1
          · cases e
      split
      · exact (h1.putChain _ _).noExtent _ _
      · next e2 => exact (h1.putItems e2).putChain _ _

theorem Keeps.store (h : Keeps s t) (r k : Nat) (u : Option LineUnit) (crev : Bool) (items : List (List Byte)) : Keeps s
    (t.store r k u crev items) :=
  h.tryStore _ _ _ _ _

theorem Keeps.addCrev (h : Keeps s t) (r : Nat) (c : Crev) : Keeps s (t.addCrev r c) := h.modRgn _ _

theorem Keeps.handUnit (h : Keeps s t) (r : Nat) (u : Unit_) : Keeps s (t.handUnit r u) :=
  Keeps.ite ((((h.cwrap _ _).modRgn _ _).tryStore _ _ _ _ _).serviceUnit _) (((h.cwrap _ _).modRgn _ _).tryStore _ _ _ _ _)

theorem Keeps.unitUnc (h : Keeps s t) (r : Nat) (u : Unit_) : Keeps s (t.unitUnc r u) := (h.cset _ _).addCrev _ _

theorem Keeps.budgetDrop (h : Keeps s t) (r : Nat) (u : Unit_) : Keeps s (t.budgetDrop r u) :=
  (((h.cbump _).cbump _).cset _ _).addCrev _ _

theorem Keeps.spillTurns (h : Keeps s t) (bad : List Nat) (r k c n : Nat) : Keeps s (t.spillTurns bad r k c n) := by
  induction n generalizing t c with
  | zero => exact h
  | succ n ih =>
    unfold State.spillTurns
    simp only
    split
    · exact h
    · split
      · exact h
      · exact ih (.ite ((h.modRgn _ _).budgetDrop _ _) (.ite ((h.modRgn _ _).unitUnc _ _) ((h.modRgn _ _).handUnit _ _))) _

theorem Keeps.putCrev (h : Keeps s t) (r k : Nat) (c : Crev) : Keeps s (t.putCrev r k c) :=
  Keeps.ite (((h.cwrap _ _).tryStore _ _ _ _ _).cbump _) ((h.cwrap _ _).tryStore _ _ _ _ _)

theorem Keeps.closeAbsences (h : Keeps s t) (k : Nat) : Keeps s (t.closeAbsences k) := by
  unfold State.closeAbsences
  refine Keeps.foldl ?_ _ _ fun _ _ _ => (Keeps.refl _).foldl _ _ fun _ _ _ => (Keeps.refl _).addCrev _ _
  exact h.same rfl

theorem Keeps.lostPart (h : Keeps s t) (r f k : Nat) : Keeps s (t.lostPart r f k) := Keeps.ite h ((h.addCrev _ _).modRgn _ _)

theorem Keeps.lostRun (h : Keeps s t) (r f k : Nat) : Keeps s (t.lostRun r f k) :=
  (h.onlyWhen _ _ fun _ => (Keeps.refl _).lostPart _ _ _).lostPart _ _ _

theorem Keeps.commitRegion (h : Keeps s t) (k sl r : Nat) : Keeps s (t.commitRegion k sl r) := by
  unfold State.commitRegion
  dsimp only
  split
  · exact ((((h.onlyWhen _ _ fun _ => (Keeps.refl _).lostRun _ _ _).modRgn _ _).foldl _ _ fun _ _ _ =>
        (Keeps.refl _).putCrev _ _ _).cset _ _).modRgn _ _
  · exact ((((((((h.onlyWhen _ _ fun _ => (Keeps.refl _).lostRun _ _ _).modRgn _ _).foldl _ _ fun _ _ _ =>
        (Keeps.refl _).putCrev _ _ _).cset _ _).modRgn _ _).issueFull _ _ _).issuePartial _ _).putChain _ _).setIxe _ _

theorem Keeps.damage (h : Keeps s t) (r e : Nat) : Keeps s (t.damage r e) := Keeps.ite h ((h.modExt _ _ _).onFirn _)

theorem Keeps.releaseFor (h : Keeps s t) (r : Nat) (x : Extent) (n : Nat) : Keeps s (t.releaseFor r x n) := by
  induction n generalizing t with
  | zero => exact h
  | succ n ih => exact .ite (ih h.releaseOldest) h

theorem Keeps.takeReady (h : Keeps s t) (r e : Nat) : Keeps s (t.takeReady r e) := h.modRgn _ _

theorem Keeps.storedLine (h : Keeps s t) (r e l : Nat) : Keeps s (t.storedLine r e l).2 := by
  unfold State.storedLine
  split
  · exact h
  · exact h.draw

theorem Keeps.lineStatus (h : Keeps s t) (a : Nat) (raw : RawLine) : Keeps s (t.lineStatus a raw).2.2 := by
  unfold State.lineStatus
  dsimp only
  have hs (r e l : Nat) : Keeps s (t.storedLine r e l).2 := h.storedLine _ _ _
  split; · exact h
  split; · exact h
  split
  · split <;> exact h
  · split; · exact hs _ _ _
    split <;> exact hs _ _ _

theorem Keeps.noteStatus (h : Keeps s t) (a st : Nat) : Keeps s (t.noteStatus a st) := by
  unfold State.noteStatus
  split
  · exact Keeps.ite (h.cbump _) (Keeps.ite (Keeps.ite ((((((h.damage _ _).cbump _).cset _ _).cset _ _).modRgn _ _).monNotice _)
        ((((h.damage _ _).cbump _).cset _ _).cset _ _)) h)

theorem Keeps.showReads (h : Keeps s t) (r : Nat) : Keeps s (t.showReads r) :=
  (h.cset _ _).onlyWhen _ _ fun _ => (Keeps.refl _).cset _ _

theorem Keeps.acceptReads (h : Keeps s t) (r n : Nat) : Keeps s (t.acceptReads r n) := by
  induction n generalizing t with
  | zero => exact h
  | succ n ih =>
    unfold State.acceptReads
    simp only
    split
    · exact h
    · split
      · exact h
      · exact ih ((h.modRgn _ _).showReads _)

theorem Keeps.scrubNext (h : Keeps s t) (r : Nat) : Keeps s (t.scrubNext r) :=
  Keeps.ite (((((h.modRgn _ _).cset _ _).modRgn _ _).cwrap _ _).onlyWhen _ _ fun _ => (Keeps.refl _).cset _ _) ((h.modRgn _ _).cset _ _)

theorem Keeps.indexUnc (h : Keeps s t) (i : Nat) : Keeps s (t.indexUnc i) := by
  unfold State.indexUnc
  dsimp only
  exact ((((Keeps.ite ((h.releaseCovering _).freeSlice _) h).setIxe _ _).refreshEdges).cbump _).alarm _

theorem Keeps.opIxSel (h : Keeps s t) (m v : Nat) (ecc : EccStatus) : Keeps s (t.opIxSel m v ecc).1 := by
  unfold State.opIxSel
  extract_lets i w s1
  have h1 : Keeps s s1 := by
    dsimp only [s1]
    split
    exacts [h.writeReg _ _ _, (h.writeReg _ _ _).cbump _, (h.writeReg _ _ _).indexUnc _]
  exact h1.foldl _ _ fun _ _ _ => (Keeps.refl _).cset _ _

theorem Keeps.opPinSel (h : Keeps s t) (m v : Nat) : Keeps s (t.opPinSel m v).1 :=
  (((((h.writeReg _ _ _).cset _ _).cset _ _).cset _ _).cset _ _).cset _ _

theorem Keeps.opXtSel (h : Keeps s t) (r m v : Nat) : Keeps s (t.opXtSel r m v).1 := by
  unfold State.opXtSel
  extract_lets e op w x s1 s2 ws
  have hw : Keeps s w.1 := h.writeReg _ _ _
  have h1 : Keeps s s1 := .ite hw (.ite (.ite ((hw.setExt _ _ _).modRgn _ _) (.ite hw (hw.setExt _ _ _))) (.ite (hw.setExt _ _ _) hw))
  have h2 : Keeps s s2 := h1.refreshEdges
  exact h2.foldl _ _ fun _ _ _ => (Keeps.refl _).cset _ _

theorem Keeps.xtWrite (h : Keeps s t) (r m : Nat) (v : XtWrite) : Keeps s (t.xtWrite r m v) :=
  h.guarded _ _ _ _ _ (fun _ => (((Keeps.refl _).onlyWhen _ _ fun _ => (Keeps.refl _).cbump _).opXtSel _ _ _).answered _)

theorem Keeps.stepIndex (h : Keeps s t) (a b : Nat) : Keeps s (t.stepIndex a b) := by
  unfold State.stepIndex
  split; · exact h
  extract_lets ka kb s0 s1 skipped ks s2 n s3 ks' s1'
  have h0 : Keeps s s0 := .ite h (h.claim _ _ _)
  have h1 : Keeps s s1 := h0.countFrames _ _
  have h2 : Keeps s s2 := .ite ((h1.foldl _ _ fun _ _ _ => ((Keeps.refl _).releaseCovering _).freeSlice _).onFirn _) h1
  have h3 : Keeps s s3 := h2.foldl _ _ fun _ _ _ => (Keeps.refl _).claim _ _ _
  have h1' : Keeps s s1' := h.foldl _ _ fun _ _ _ => (((Keeps.refl _).releaseCovering _).freeSlice _).setIxe _ _
  exact .ite (.ite (h0.countFrames _ _) (h3.claim _ _ _)) (((h1'.cadd _ _).refreshEdges.onFirn _).claim _ _ _)

/-! #### Machine/Time.lean -/

theorem Keeps.setQual (h : Keeps s t) (q : Nat) : Keeps s (t.setQual q) := (h.cset _ _).cset _ _

theorem Keeps.acceptStep (h : Keeps s t) (ns : ℤ) : Keeps s (t.acceptStep ns) := (((h.onTm _).cset _ _).cbump _).cset _ _

theorem Keeps.refuseStep (h : Keeps s t) (ns : ℤ) : Keeps s (t.refuseStep ns) :=
  Keeps.ite ((h.cset _ _).onTm _) (((((((h.cset _ _).onTm _).onTm _).setQual _).cbump _).raise _).logBit _ _ _ _)

theorem Keeps.opTimStep (h : Keeps s t) (v : Nat) : Keeps s (t.opTimStep v) :=
  Keeps.ite (h.cset _ _) (Keeps.ite ((h.cset _ _).onTm _) (Keeps.ite (h.cbump _) (Keeps.ite (h.acceptStep _) h)))

theorem Keeps.opStepVal (h : Keeps s t) (hi : Bool) (v : Nat) : Keeps s (t.opStepVal hi v) :=
  Keeps.ite (h.cset _ _) (Keeps.ite ((h.cset _ _).cset _ _) (h.cset _ _))

theorem Keeps.modPtp (h : Keeps s t) (v : Nat) (g : PtpPort → PtpPort) : Keeps s (t.modPtp v g) := h.onTm _

theorem Keeps.judgeAsym (h : Keeps s t) (off : ℤ) : Keeps s (t.judgeAsym off) :=
  Keeps.ite (((h.onlyWhen _ _ fun _ => (Keeps.refl _).cbump _).cset _ _).raise _) (h.cset _ _)

theorem Keeps.judgeLock (h : Keeps s t) (off : ℤ) : Keeps s (t.judgeLock off) :=
  Keeps.ite (h.onTm _) (Keeps.ite (((h.onTm _).cset _ _).onTm _) ((((h.onTm _).cset _ _).onTm _).setQual _))

theorem Keeps.endHoldover (h : Keeps s t) : Keeps s t.endHoldover := Keeps.ite h (h.onTm _)

theorem Keeps.judgeOffset (h : Keeps s t) (off : ℤ) : Keeps s (t.judgeOffset off) :=
  Keeps.ite (h.cset _ _) (Keeps.ite ((h.cset _ _).judgeLock _) (Keeps.ite (Keeps.ite
      (((((h.cset _ _).judgeAsym _).judgeLock _).onlyWhen _ _ fun _ => (Keeps.refl _).onTm _).endHoldover)
      ((((h.cset _ _).judgeAsym _).judgeLock _).refuseStep _)) (Keeps.ite ((h.cset _ _).acceptStep _) (Keeps.ite
      ((h.cset _ _).refuseStep _) (Keeps.ite ((h.cset _ _).onTm _) ((((h.cset _ _).endHoldover).onTm _).judgeLock _))))))

theorem Keeps.syncMeasured (h : Keeps s t) (v : Nat) (ms : ℤ) : Keeps s (t.syncMeasured v ms) :=
  Keeps.ite ((h.modPtp _ _).judgeOffset _) (h.modPtp _ _)

theorem Keeps.enterHoldover (h : Keeps s t) : Keeps s t.enterHoldover :=
  Keeps.ite (((h.onTm _).cset _ _).setQual _) ((h.onTm _).cset _ _)

theorem Keeps.reselect (h : Keeps s t) : Keeps s t.reselect := by
  unfold State.reselect
  dsimp only
  split
  · exact h
  · split
    · exact (h.onTm _).enterHoldover
    · exact ((((h.onTm _).cset _ _).cset _ _).cset _ _).cset _ _

theorem Keeps.portLost (h : Keeps s t) (v : Nat) : Keeps s (t.portLost v) :=
  Keeps.ite (((h.modPtp _ _).cset _ _).reselect) (h.modPtp _ _)

theorem Keeps.qualWithoutRef (h : Keeps s t) : Keeps s t.qualWithoutRef := Keeps.ite (h.setQual _) h

theorem Keeps.modTout (h : Keeps s t) (j : Nat) (g : ToutSt → ToutSt) : Keeps s (t.modTout j g) := h.onTm _

theorem Keeps.armTout (h : Keeps s t) (j : Nat) : Keeps s (t.armTout j) :=
  Keeps.ite ((h.onlyWhen _ _ fun _ => (Keeps.refl _).cset _ _).onlyWhen _ _ fun _ => (Keeps.refl _).cset _ _) ((h.cset _ _).modTout _ _)

theorem Keeps.opTout (h : Keeps s t) (j v : Nat) : Keeps s (t.opTout j v) :=
  Keeps.ite ((((h.writeReg _ _ _).cset _ _).cset _ _).modTout _ _) (Keeps.ite ((h.writeReg _ _ _).cset _ _)
      (((h.writeReg _ _ _).cset _ _).armTout _))

theorem Keeps.toutJump (h : Keeps s t) (j a b : Nat) : Keeps s (t.toutJump j a b) :=
  Keeps.ite (Keeps.ite ((h.cset _ _).modTout _ _) ((h.cset _ _).modTout _ _)) h

theorem Keeps.ppsMissed (h : Keeps s t) : Keeps s t.ppsMissed :=
  Keeps.ite ((h.onTm _).cset _ _) ((((h.onTm _).cset _ _).cset _ _).qualWithoutRef)

theorem Keeps.judgeRef (h : Keeps s t) : Keeps s t.judgeRef := Keeps.ite ((h.onTm _).setQual _) h

theorem TimeSt.slewFrame_tick (x : TimeSt) (n : Nat) : (x.slewFrame n).tick = x.tick := by
  unfold TimeSt.slewFrame
  dsimp only
  split <;> rfl

theorem Keeps.servoTick (h : Keeps s t) : Keeps s t.servoTick := by
  unfold State.servoTick
  refine (h.onTm _ (Nat.le_of_eq ?_)).judgeRef
  dsimp only
  split
  exacts [rfl, (TimeSt.slewFrame_tick _ _).symm]

/-! #### Machine/Tick.lean -/

theorem Keeps.chanTick (h : Keeps s t) (p c : Nat) : Keeps s (t.chanTick p c) :=
  Keeps.ite (h.setCh _ _ _) (Keeps.ite ((((h.setCh _ _ _).fset _ _ _).fset _ _ _).modFacts _ _) (h.setCh _ _ _))

theorem Keeps.feTick (h : Keeps s t) (p : Nat) : Keeps s (t.feTick p) := by
  unfold State.feTick
  exact (((((((h.gateDrain _ _).modFe _ _).onlyWhen _ _ fun _ => ((Keeps.refl _).modMon _ _).monStart _ _).foldl _ _ fun _ _ _ =>
      (Keeps.refl _).chanTick _ _).ownerEval _).onlyWhen _ _ fun _ => (Keeps.refl _).feStandby _).modLink _ _ _).modLink _ _ _

theorem Keeps.portTick (h : Keeps s t) (p : Nat) : Keeps s (t.portTick p) :=
  ((h.onlyWhen _ _ fun _ => (Keeps.refl _).testBegin _).modPort _ _).formSync _

theorem Keeps.timers (h : Keeps s t) : Keeps s t.timers := by
  unfold State.timers
  extract_lets s1 s2
  have h1 : Keeps s s1 := by
    dsimp only [s1]
    split
    exacts [.ite (h.cset _ _) h, h]
  have h2 : Keeps s s2 := .ite (h1.cset _ _) h1
  split
  exacts [h2.cset _ _, h2]

theorem Keeps.twinTick (h : Keeps s t) : Keeps s t.twinTick := Keeps.ite h (((h.cset _ _).cset _ _).modTwin _)

theorem Keeps.tickTo (h : Keeps s t) (v : TimeVal) : Keeps s (t.tickTo v) := by
  unfold State.tickTo
  extract_lets s1 s2 s3
  have h1 : Keeps s s1 := h.servoTick.onTm _ (Nat.le_succ _)
  have h3 : Keeps s s3 := (h1.foldl _ _ fun _ _ _ => (Keeps.refl _).feTick _).scanTick
  exact (h3.foldl _ _ fun _ _ _ => (Keeps.refl _).portTick _).timers.twinTick

theorem Keeps.reloadPorts (h : Keeps s t) : Keeps s t.reloadPorts := by
  unfold State.reloadPorts
  extract_lets s1
  have h1 : Keeps s s1 := h.same rfl
  refine h1.foldl _ _ fun z p _ => ?_
  split
  exacts [((Keeps.refl z).formSync p).modFe _ _, (Keeps.refl z).formSync p]

theorem Keeps.ppsGood (h : Keeps s t) (n : Nat) : Keeps s (t.ppsGood n) := by
  unfold State.ppsGood
  extract_lets m s1 s2 d s3
  have h1 : Keeps s s1 := (h.onTm _).cset _ _
  have h2 : Keeps s s2 := .ite h1 ((h1.onTm _).tickTo _).reloadPorts
  have h3 : Keeps s s3 := .ite h2 (.ite (h2.acceptStep _) (.ite h2 (h2.refuseStep _)))
  exact h3.judgeRef

theorem Keeps.stepCrevasse (h : Keeps s t) (a b : Nat) : Keeps s (t.stepCrevasse a b) := Keeps.ite (h.addCrev _ _) h

theorem Keeps.stepCores (h : Keeps s t) (back : Bool) : Keeps s (t.stepCores back) := h.modTrg _

/-! #### Machine/Trigger.lean -/

theorem Keeps.seqIdle (h : Keeps s t) : Keeps s t.seqIdle := (h.cset _ _).modTrg _

theorem Keeps.opTrgCtrl (h : Keeps s t) (m v : Nat) : Keeps s (t.opTrgCtrl m v).1 := by
  unfold State.opTrgCtrl
  dsimp only
  exact (((Keeps.ite (((h.writeReg _ _ _).cset _ _).cset _ _) (h.writeReg _ _ _)).cset _ _).onlyWhen _ _ fun _ =>
      (Keeps.refl _).seqIdle).modTrg _

theorem Keeps.armUnit (h : Keeps s t) : Keeps s t.armUnit := by
  unfold State.armUnit
  exact (((((h.cset _ _).cset _ _).cset _ _).cset _ _).foldl _ _ fun _ _ _ => (Keeps.refl _).cset _ _).modTrg _

theorem Keeps.disarmUnit (h : Keeps s t) : Keeps s t.disarmUnit := (h.cset _ _).modTrg _

theorem Keeps.nativeUnit (h : Keeps s t) (n : Nat) (bad : Bool) : Keeps s (t.nativeUnit n bad).1 :=
  Keeps.ite1 h (((((h.cset _ _).cset _ _).cset _ _).modTrg _).onlyWhen _ _ fun _ => (Keeps.refl _).cbump _)

theorem Keeps.foldlFst {α β : Type} {x : State × β} (h : Keeps s x.1) (g : State × β → α → State × β) (l : List α)
    (hg : ∀ z a, Keeps z.1 (g z a).1) : Keeps s (l.foldl g x).1 := by
  induction l generalizing x with
  | nil => exact h
  | cons a r ih => exact ih (h.trans (hg x a))

theorem Keeps.nativeUnits (h : Keeps s t) (bad : List Nat) : Keeps s (t.nativeUnits bad).1 :=
  Keeps.foldlFst h _ _ fun _ _ => (Keeps.refl _).nativeUnit _ _

theorem Keeps.sequencer (h : Keeps s t) (f : Nat) (crossed : List Nat) : Keeps s (t.sequencer f crossed).1 := by
  unfold State.sequencer
  extract_lets st age cnt tmo enter
  have he (n : Nat) : Keeps s (enter n) := (h.cset _ _).modTrg _
  split; · exact h.seqIdle
  split; · exact he _
  split; · exact he _
  dsimp only
  exact h.modTrg _

theorem Keeps.showInflight (h : Keeps s t) : Keeps s t.showInflight := h.cset _ _

theorem Keeps.setCore (h : Keeps s t) (k : Nat) (c : Core) : Keeps s (t.setCore k c) :=
  ((((((((((h.modTrg _).cset _ _).cset _ _).cset _ _).cset _ _).cset _ _).cset _ _).cset _ _).cset _ _).cset _ _).showInflight

theorem Keeps.setRearm (h : Keeps s t) (src : Nat) (r : Rearm) : Keeps s (t.setRearm src r) := h.modTrg _

theorem Keeps.mergeCore (h : Keeps s t) (c : Candidate) (r : Rearm) (k : Core) : Keeps s (t.mergeCore c r k).1 :=
  ((((h.setCore _ _).extendPin _ _).cbump _).onlyWhen _ _ fun _ => (Keeps.refl _).cbump _).setRearm _ _

theorem Keeps.acceptCore (h : Keeps s t) (c : Candidate) (k pos : Nat) : Keeps s (t.acceptCore c k pos).1 := by
  unfold State.acceptCore
  exact Keeps.ite (((((h.cset _ _).setPin _ _ _).setCore _ _).cbump _).onlyWhen _ _ fun _ => (Keeps.refl _).cbump _)
      ((((((h.cset _ _).setPin _ _ _).setCore _ _).cbump _).onlyWhen _ _ fun _ => (Keeps.refl _).cbump _).setRearm _ _)

theorem Keeps.decideOne (h : Keeps s t) (c : Candidate) (pos : Nat) : Keeps s (t.decideOne c pos).1 := by
  unfold State.decideOne
  dsimp only
  split
  · exact h.cbump _
  · split
    · exact h.cbump _
    · split
      · exact h.cbump _
      · split
        · exact h.mergeCore _ _ _
        · exact h.cbump _
        · split
          · exact (h.cbump _).setRearm _ _
          · split
            · exact ((h.cbump _).cset _ _).onlyWhen _ _ fun _ => (Keeps.refl _).cbump _
            · exact h.acceptCore _ _ _

theorem Keeps.respond (h : Keeps s t) (group reqId : Nat) (d : Decision) : Keeps s (t.respond group reqId d) := h.sendCtrl _ _

theorem Keeps.decideAll (h : Keeps s t) (pos : Nat) (l : List Candidate) : Keeps s (t.decideAll pos l).1 := by
  induction l generalizing t pos with
  | nil => exact h
  | cons c r ih => exact ih (h.decideOne _ _) _

theorem Keeps.decideRequests (h : Keeps s t) (pos : Nat) (l : List Req) : Keeps s (t.decideRequests pos l).1 := by
  induction l generalizing t pos with
  | nil => exact h
  | cons q r ih => exact ih ((h.decideOne _ _).respond _ _ _) _

theorem Keeps.tinCandidates (h : Keeps s t) (f : Nat) : Keeps s (t.tinCandidates f).1 := by
  refine Keeps.foldlFst h _ _ fun z i => ?_
  split
  · exact .refl _
  · split
    · exact (Keeps.refl _).cadd _ _
    · exact .refl _

theorem Keeps.trgUpsets (h : Keeps s t) (corrected : Nat) (hist reqs : List Nat) : Keeps s (t.trgUpsets corrected hist reqs) :=
  ((((h.cadd _ _).cadd _ _).foldl _ _ fun _ _ _ => (Keeps.refl _).monNotice _).modTrg _).foldl _ _ fun _ _ _ =>
      (Keeps.refl _).logBit _ _ _ _

theorem Keeps.takeRequests (h : Keeps s t) : Keeps s (t.takeRequests).2 := (h.modTrg _).cset _ _

theorem Keeps.freeSlot (h : Keeps s t) (k : Nat) : Keeps s (t.freeSlot k) := by
  unfold State.freeSlot
  split
  · exact Keeps.ite ((((h.modTrg _).cset _ _).cset _ _).showInflight) h
  · exact h

theorem Keeps.feedGroup (h : Keeps s t) (g n : Nat) : Keeps s (t.feedGroup g n) := by
  induction n generalizing t with
  | zero => exact h
  | succ n ih =>
    unfold State.feedGroup
    split
    · exact h
    · exact .ite (ih (((h.enqueue _ _ _).modTrg _).freeSlot _)) h

theorem Keeps.coreFeed (h : Keeps s t) (n : Nat) : Keeps s (t.coreFeed n) := h.foldl _ _ fun _ _ _ => (Keeps.refl _).feedGroup _ _

theorem Keeps.coreAdvance (h : Keeps s t) (k : Nat) (c : Core) (lim : ReadLimit) : Keeps s (t.coreAdvance k c lim) :=
  (h.setCore _ _).coreFeed _

theorem Keeps.coreRead (h : Keeps s t) (k : Nat) (c : Core) : Keeps s (t.coreRead k c) := ((h.setCore _ _).clearPin _).coreFeed _

theorem Keeps.opTrgAbort (h : Keeps s t) (v : Nat) : Keeps s (t.opTrgAbort v) := by
  unfold State.opTrgAbort
  dsimp only
  split
  · exact h
  · exact Keeps.ite ((h.setCore _ _).clearPin _) h

theorem Keeps.streamFeed (h : Keeps s t) (n : Nat) : Keeps s (t.streamFeed n) := by
  induction n generalizing t with
  | zero => exact h
  | succ n ih => exact .ite h (.ite (ih ((h.enqueue _ _ _).modTrg _)) h)

theorem Keeps.streamPut (h : Keeps s t) (k : Nat) (bs : List Byte) (cur : Cursor) : Keeps s (t.streamPut k bs cur) := by
  unfold State.streamPut
  exact h.modTrg _

theorem Keeps.streamTo (h : Keeps s t) (k : Nat) : Keeps s (t.streamTo k) := (h.modTrg _).cset _ _

theorem Keeps.streamJump (h : Keeps s t) (k : Nat) (part : Bool) : Keeps s (t.streamJump k part) :=
  (((h.streamPut _ _ _).streamTo _).cbump _).cset _ _

theorem Keeps.streamOn (h : Keeps s t) (lim : ReadLimit) : Keeps s (t.streamOn lim) := by
  unfold State.streamOn
  extract_lets k begun e cur w s1
  have h1 : Keeps s s1 := h.streamPut _ _ _
  refine Keeps.streamFeed ?_ _
  split
  exacts [h1.streamTo _, h1, h1.streamJump _ _]

theorem Keeps.deliver (h : Keeps s t) (w : Requester) (a st : Nat) (d : List Byte) : Keeps s (t.deliver w a st d) := by
  unfold State.deliver
  dsimp only
  split
  · split
    · exact Keeps.ite (h.coreAdvance _ _ _) h
    · exact h
  · exact Keeps.ite ((Keeps.ite h (h.modTrg _)).streamFeed _) (Keeps.ite (((Keeps.ite h (h.modTrg _)).streamFeed _).streamOn _)
        (Keeps.ite ((Keeps.ite h (h.modTrg _)).streamFeed _) (((Keeps.ite h (h.modTrg _)).streamFeed _).streamOn _)))
  · exact h.modMch _ _
  · exact h

/-! #### Machine/Floe.lean -/

theorem Keeps.modGrp (h : Keeps s t) (g : Nat) (f : Group → Group) : Keeps s (t.modGrp g f) := h.modUpl _

theorem Keeps.flushQueue (h : Keeps s t) (g q : Nat) : Keeps s (t.flushQueue g q) := h.setQueue _ _ _

theorem Keeps.regroup (h : Keeps s t) (g : Nat) : Keeps s (t.regroup g) :=
  Keeps.ite (((h.cset _ _).cset _ _).foldl _ _ fun _ _ _ => (Keeps.refl _).flushQueue _ _) (Keeps.ite ((h.cset _ _).cset _ _)
      (h.cset _ _))

theorem Keeps.groupsStart (h : Keeps s t) : Keeps s t.groupsStart :=
  h.foldl _ _ fun _ _ _ => (((Keeps.refl _).cset _ _).cset _ _).regroup _

theorem Keeps.groupsDark (h : Keeps s t) : Keeps s t.groupsDark :=
  (h.modUpl _).foldl _ _ fun _ _ _ => ((Keeps.refl _).cset _ _).modGrp _ _

theorem Keeps.queuesWake (h : Keeps s t) : Keeps s t.queuesWake := h.modUpl _

theorem Keeps.opRestore (h : Keeps s t) (v : Nat) (healthy : List Nat) : Keeps s (t.opRestore v healthy) :=
  Keeps.ite (h.modUpl _) h

theorem Keeps.loseLane (h : Keeps s t) (l : Nat) : Keeps s (t.loseLane l) := by
  unfold State.loseLane
  split
  · exact h.cset _ _
  · exact ((h.cset _ _).regroup _).raise _

theorem Keeps.returnLane (h : Keeps s t) (l : Nat) : Keeps s (t.returnLane l) := by
  unfold State.returnLane
  dsimp only
  split
  · exact Keeps.ite (h.cset _ _) h
  · exact (Keeps.ite (h.cset _ _) h).regroup _

theorem Keeps.groupTake (h : Keeps s t) (g : Nat) : Keeps s (t.groupTake g) := Keeps.ite h ((h.modUpl _).modGrp _ _)

theorem Keeps.groupOfs (h : Keeps s t) (g : Nat) : Keeps s (t.groupOfs g) := by
  unfold State.groupOfs
  exact h.modGrp _ _

theorem Keeps.groupBoundary (h : Keeps s t) (at_ g : Nat) : Keeps s (t.groupBoundary at_ g) := by
  unfold State.groupBoundary
  dsimp only
  split
  · exact Keeps.ite ((((h.groupTake _).cset _ _).cset _ _).modGrp _ _) (h.groupTake _)
  · exact h.groupTake _

theorem Keeps.boundary (h : Keeps s t) : Keeps s t.boundary :=
  Keeps.ite h ((((((h.modUpl _).foldl _ _ fun _ _ _ => (Keeps.refl _).groupBoundary _ _).foldl _ _ fun _ _ _ =>
      (Keeps.refl _).returnLane _).foldl _ _ fun _ _ _ => (Keeps.refl _).loseLane _).modUpl _).foldl _ _ fun _ _ _ =>
      (Keeps.refl _).groupOfs _)

theorem Keeps.setRx (h : Keeps s t) (j st : Nat) : Keeps s (t.setRx j st) := (h.cset _ _).modUpl _

theorem Keeps.showInbound (h : Keeps s t) : Keeps s t.showInbound := (h.cset _ _).cset _ _

theorem Keeps.opUiqPop (h : Keeps s t) : Keeps s (t.opUiqPop).1 := by
  unfold State.opUiqPop
  split
  · exact (((h.cset _ _).cset _ _).cset _ _).cset _ _
  · exact (((((h.modUpl _).showInbound).cset _ _).cset _ _).cset _ _).cset _ _

theorem Keeps.popFor (h : Keeps s t) (m : Nat) : Keeps s (t.popFor m).2 := h.opUiqPop.latchHigh _ _ _

theorem Keeps.hand (h : Keeps s t) (g : Nat) (f : FloeOut) (n : Nat) : Keeps s (t.hand g f n) := (h.modGrp _ _).cwrap _ _

theorem Keeps.handFill (h : Keeps s t) (g : Nat) : Keeps s (t.handFill g) := h.hand _ _ _

theorem Keeps.dropHead (h : Keeps s t) (g q : Nat) : Keeps s (t.dropHead g q) := h.setQueue _ _ _

theorem Keeps.dropLong (h : Keeps s t) (g q n : Nat) : Keeps s (t.dropLong g q n) := by
  induction n generalizing t with
  | zero => exact h
  | succ n ih =>
    unfold State.dropLong
    split
    · exact h
    · exact .ite (ih ((h.dropHead _ _).cbump _)) h

theorem Keeps.pickQueue (h : Keeps s t) (g n q : Nat) : Keeps s (t.pickQueue g n q).1 := by
  induction n generalizing t q with
  | zero => exact h
  | succ n ih =>
    unfold State.pickQueue
    simp only
    split
    · exact ih (h.dropLong _ _ _) _
    · exact h.dropLong _ _ _

theorem Keeps.handFrame (h : Keeps s t) (g q : Nat) (p : Pkt) (errs : List WordErr) : Keeps s (t.handFrame g q p errs) :=
  (((((h.cadd _ _).setQueue _ _ _).foldl _ _ fun _ _ _ => Keeps.ite ((Keeps.refl _).setQueue _ _ _)
      (Keeps.refl _)).onlyWhen _ _ fun _ => ((Keeps.refl _).cbump _).cset _ _).modGrp _ _).hand _ _ _

theorem Keeps.monFeed (h : Keeps s t) (n : Nat) : Keeps s (t.monFeed n) := by
  induction n generalizing t with
  | zero => exact h
  | succ n ih =>
    unfold State.monFeed
    split
    · exact h
    · exact .ite (ih ((h.sendMon _).onSp _)) h

theorem Keeps.feedWriters (h : Keeps s t) : Keeps s t.feedWriters :=
  (((h.coreFeed _).streamFeed _).monFeed _).foldl _ _ fun _ _ _ => (Keeps.refl _).freeSlot _

theorem Keeps.pushWhole (h : Keeps s t) (g q : Nat) (part : Bool) (ws : List W64) : Keeps s (t.pushWhole g q part ws) := by
  unfold State.pushWhole
  split
  · exact h.enqueue _ _ _
  · exact h

theorem Keeps.pushWord (h : Keeps s t) (g q : Nat) (w : W64) (end_ : Bool) : Keeps s (t.pushWord g q w end_).1 :=
  Keeps.ite1 (Keeps.ite1 ((h.setQueue _ _ _).cbump _) h) (Keeps.ite1 ((h.setQueue _ _ _).onlyWhen _ _ fun _ => (Keeps.refl _).cbump _)
      (Keeps.ite1 ((h.setQueue _ _ _).pushWhole _ _ _ _) (h.setQueue _ _ _)))

theorem Keeps.opUqPush (h : Keeps s t) (g q lo : Nat) : Keeps s (t.opUqPush g q lo).1 :=
  Keeps.ite1 h ((h.cset _ _).pushWord _ _ _ _)

theorem Keeps.opUqCtrl (h : Keeps s t) (g q v : Nat) : Keeps s (t.opUqCtrl g q v) := Keeps.ite (h.flushQueue _ _) h

/-! #### Machine/Fabric.lean -/

theorem Keeps.mvErr (h : Keeps s t) (c st : Nat) (all : Bool) : Keeps s (t.mvErr c st all) := ((h.cset _ _).cset _ _).cset _ _

theorem Keeps.mvBack (h : Keeps s t) (c : Nat) (done : Bool) (status : Nat) : Keeps s (t.mvBack c done status) :=
  h.guarded _ _ _ _ _ (fun _ => (Keeps.refl _).cramWrite _ _)

theorem Keeps.mvHalt (h : Keeps s t) (c st : Nat) : Keeps s (t.mvHalt c st) :=
  ((((h.setMv _ _).cset _ _).mvErr _ _ _).modMch _ _).mvBack _ _ _

theorem Keeps.mvStopAll (h : Keeps s t) (cause : Option (Nat × Nat)) (other : Nat) : Keeps s (t.mvStopAll cause other) := by
  unfold State.mvStopAll
  extract_lets s1 s2
  have h1 : Keeps s s1 := h.foldl _ _ fun _ _ _ => .ite (Keeps.refl _) ((((Keeps.refl _).setMv _ _).cset _ _).modMch _ _)
  have h2 : Keeps s s2 := by
    dsimp only [s2]
    split
    exacts [h1.mvErr _ _ _, (h1.cset _ _).cset _ _]
  exact h2.raise _

theorem Keeps.mvBusErr (h : Keeps s t) (c addr : Nat) (last : Bool) : Keeps s (t.mvBusErr c addr last) :=
  (h.cset _ _).mvStopAll _ _

theorem Keeps.opMvCtrl (h : Keeps s t) (c v : Nat) : Keeps s (t.opMvCtrl c v) := by
  unfold State.opMvCtrl
  dsimp only
  exact Keeps.ite ((Keeps.ite ((Keeps.ite (h.setMv _ _) h).pace _) (Keeps.ite (h.setMv _ _) h)).mvHalt _ _) (Keeps.ite ((Keeps.ite
      (h.setMv _ _) h).pace _) (Keeps.ite (h.setMv _ _) h))

theorem Keeps.opMvClear (h : Keeps s t) (m v : Nat) : Keeps s (t.opMvClear m v).1 := by
  unfold State.opMvClear
  extract_lets w
  have hw : Keeps s w.1 := h.writeReg _ _ _
  split
  · dsimp only
    exact hw.foldl _ _ fun _ _ _ => .ite ((Keeps.refl _).setMv _ _) (Keeps.refl _)
  · exact hw

theorem Keeps.mvPowerDown (h : Keeps s t) : Keeps s t.mvPowerDown :=
  h.foldl _ _ fun _ _ _ => Keeps.ite (Keeps.refl _) (Keeps.ite ((Keeps.refl _).mvHalt _ _) (Keeps.ite ((Keeps.refl _).modMch _ _)
      (Keeps.refl _)))

theorem Keeps.opMvTmr (h : Keeps s t) (m a v n : Nat) : Keeps s (t.opMvTmr m a v n).1 := by
  unfold State.opMvTmr
  dsimp only
  exact (h.writeReg _ _ _).onSp _

theorem Keeps.thawMaster (h : Keeps s t) (m : Nat) : Keeps s (t.thawMaster m) :=
  Keeps.ite h (Keeps.ite ((((h.cset _ _).setMv _ _).cset _ _).mvErr _ _ _) (Keeps.ite ((h.cset _ _).onSp _) (h.cset _ _)))

theorem Keeps.opThaw (h : Keeps s t) (v : Nat) : Keeps s (t.opThaw v) := Keeps.ite (h.thawMaster _) h

theorem Keeps.serviceReset (h : Keeps s t) : Keeps s t.serviceReset := by
  unfold State.serviceReset
  extract_lets run froz s1 s2
  have h2 : Keeps s s2 := (((h.mvStopAll _ _).cset _ _).cset _ _).cset _ _
  clear_value s2
  exact h2.modSp _ fun hr => by simpa only using rising_tkeep hr _

theorem Keeps.opWdog (h : Keeps s t) (v : Nat) : Keeps s (t.opWdog v) := Keeps.ite (h.onSp _) h

/-! #### Machine/Power.lean -/

theorem Keeps.setSlot (h : Keeps s t) (n : Nat) (x : SlotImg) : Keeps s (t.setSlot n x) := h.modNvm _

theorem Keeps.showVer (h : Keeps s t) (n : Nat) : Keeps s (t.showVer n) := h.cset _ _

theorem Keeps.emptySlot (h : Keeps s t) (n : Nat) : Keeps s (t.emptySlot n) := ((h.setSlot _ _).cset _ _).showVer _

theorem Keeps.logDone (h : Keeps s t) : Keeps s t.logDone := ((h.modNvm _).cset _ _).logStart

theorem Keeps.progDone (h : Keeps s t) : Keeps s t.progDone := by
  unfold State.progDone
  split
  · exact h
  · exact Keeps.ite h (Keeps.ite ((h.setJournal _).logDone) (Keeps.ite ((h.setJournal _).modNvm _) (h.setJournal _)))

theorem Keeps.progAll (h : Keeps s t) (n : Nat) : Keeps s (t.progAll n) := by
  induction n generalizing t with
  | zero => exact h
  | succ n ih => exact ih h.progDone

/-- A cold start empties the tables it does not keep. -/
theorem Keeps.cold (h : Keeps s t) : Keeps s t.cold := by
  unfold State.cold
  extract_lets _ z
  have hz : Keeps s z := by
    refine ⟨fun hf => ?_, h.pending, h.tick, h.free⟩
    obtain ⟨-, hfreg, -⟩ := h.form hf
    exact ⟨trivial, hfreg, trivial, trivial, trivial⟩
  exact hz.foldl _ _ fun _ _ _ => (Keeps.refl _).cset _ _

theorem Keeps.recoverArea (h : Keeps s t) (a : NvmArea) : Keeps s (t.recoverArea a) := by
  unfold State.recoverArea
  extract_lets lost s1 code s2 s3
  have h1 : Keeps s s1 := by
    dsimp only [s1]
    split
    exacts [h.emptySlot _, h.modNvm _, h.modNvm _, h.modNvm _, h, h, h]
  have h2 : Keeps s s2 := (h1.cset _ _).logOwn _ _ _ _ _
  have h3 : Keeps s s3 := .ite (h2.logOwn _ _ _ _ _) h2
  exact .ite (h3.program _) h3

theorem Keeps.recover (h : Keeps s t) : Keeps s t.recover :=
  ((h.setJournal _).modNvm _).foldl _ _ fun _ _ _ => (Keeps.refl _).recoverArea _

theorem Keeps.bootSlot (h : Keeps s t) (sound : Nat → Bool) : Keeps s (t.bootSlot sound) := by
  unfold State.bootSlot
  extract_lets a b z s1 c d z' s2 s3
  have h1 : Keeps s s1 := .ite (.ite ((h.cset _ _).cset _ _) (h.cset _ _)) h
  have h2 : Keeps s s2 :=
    .ite (.ite (h1.cset _ _) h1) (.ite (((h1.cset _ _).cset _ _).cset _ _) ((h1.cset _ _).cset _ _))
  have h3 : Keeps s s3 := (h2.showVer _).showVer _
  exact .ite h3 ((h3.cset _ _).onSp _)

theorem Keeps.readSlot (h : Keeps s t) (n : Nat) (img : Option ImgRead) : Keeps s (t.readSlot n img) :=
  Keeps.ite h (h.setSlot _ _)

theorem Keeps.powerOn (h : Keeps s t) (cause straps : Nat) (img0 img1 : Option ImgRead) : Keeps s (t.powerOn cause straps img0 img1) := by
  unfold State.powerOn
  exact (((((((h.cold.readSlot _ _).readSlot _ _).cset _ _).cset _ _).cset _ _).modPro _).recover).bootSlot _

theorem Keeps.beginTrans (h : Keeps s t) (fro target : Nat) : Keeps s (t.beginTrans fro target) := (h.modGlb _).cset _ _

theorem Keeps.toIdle (h : Keeps s t) : Keeps s t.toIdle := (((h.cset _ _).modTrg _).beginTrans _ _).sendFast _ _

theorem Keeps.startTrans (h : Keeps s t) (target : Nat) : Keeps s (t.startTrans target) :=
  Keeps.ite h (Keeps.ite (Keeps.ite (h.toIdle.modGlb _) h.toIdle) (Keeps.ite (Keeps.ite ((h.beginTrans _ _).sendFast _ _)
      ((h.beginTrans _ _).mvPowerDown)) (Keeps.ite ((h.beginTrans _ _).modGlb _) (h.beginTrans _ _))))

theorem Keeps.requestState (h : Keeps s t) (target : Nat) : Keeps s (t.requestState target) :=
  Keeps.ite (h.modGlb _) (h.startTrans _)

theorem Keeps.actHeld (h : Keeps s t) : Keeps s t.actHeld := by
  unfold State.actHeld
  split
  · exact h
  · split
    · exact Keeps.ite h.toIdle h
    · split
      · exact h
      · exact (h.modGlb _).startTrans _

theorem Keeps.opGlbPwr (h : Keeps s t) (v : Nat) : Keeps s (t.opGlbPwr v) := Keeps.ite h ((h.cset _ _).requestState _)

theorem Keeps.goDark (h : Keeps s t) : Keeps s t.goDark :=
  (((h.foldl _ _ fun _ _ _ => ((Keeps.refl _).plEnter _ _).modPort _ _).groupsDark).foldl _ _ fun _ _ _ =>
      (Keeps.refl _).setRx _ _).cset _ _

theorem Keeps.goLight (h : Keeps s t) : Keeps s t.goLight :=
  ((((h.foldl _ _ fun _ _ _ => ((Keeps.refl _).plEnter _ _).modPort _ _).groupsStart).queuesWake).cset _ _).foldl _ _ fun _ _ _ =>
      (Keeps.refl _).acceptReads _ _

theorem Keeps.enterState (h : Keeps s t) (st : Nat) : Keeps s (t.enterState st) :=
  (((h.cset _ _).cset _ _).modGlb _).logOwn _ _ _ _ _

theorem Keeps.closeAt (h : Keeps s t) (r : Nat) (c : Chain) (x : IxRegion) : Keeps s (t.closeAt r c x) := by
  unfold State.closeAt
  extract_lets l g z y d
  have hy : Keeps s y.2 := by
    dsimp only [y]
    split
    exacts [h, h.storedLine _ _ _]
  exact .ite (h.modExt _ _ _) ((hy.issueLine _ _ _ _).modExt _ _ _)

theorem Keeps.cutChain (h : Keeps s t) (r : Nat) (c : Chain) : Keeps s (t.cutChain r c) := by
  unfold State.cutChain
  dsimp only
  exact Keeps.ite ((Keeps.ite (h.modExt _ _ _) h).modRgn _ _) (((Keeps.ite (h.modExt _ _ _) h).closeAt _ _ _).putChain _ _)

theorem Keeps.filterCreg (h : Keeps s t) (f : Nat × Nat → Bool) (x : Tab Port) :
    Keeps s { t with creg := t.creg.filter f, ports := x } :=
  ⟨fun hf => ⟨rising_filter (h.form hf).1 f, (h.form hf).2⟩, h.pending, h.tick, h.free⟩

theorem Keeps.filterFreg (h : Keeps s t) (f : Nat × Nat → Bool) (x : Tab Chan) (y : Tab Blk) :
    Keeps s { t with freg := t.freg.filter f, chans := x, blks := y } :=
  ⟨fun hf => ⟨(h.form hf).1, rising_filter (h.form hf).2.1 f, (h.form hf).2.2⟩, h.pending, h.tick, h.free⟩

theorem Keeps.regionReset (h : Keeps s t) (r : Nat) : Keeps s (t.regionReset r) :=
  .ite h (((((h.foldl _ _ fun _ _ _ => (Keeps.refl _).cutChain _ _).filterCreg _ _).foldl _ _ fun _ _ _ =>
    (Keeps.refl _).plEnter _ _).modRgn _ _).raise _)

theorem Keeps.opGlbRst (h : Keeps s t) (v : Nat) : Keeps s (t.opGlbRst v) :=
  Keeps.ite h (Keeps.ite ((h.foldl _ _ fun _ _ _ => Keeps.ite ((Keeps.refl _).regionReset _) (Keeps.refl _)).serviceReset)
      (h.foldl _ _ fun _ _ _ => Keeps.ite ((Keeps.refl _).regionReset _) (Keeps.refl _)))

theorem Keeps.feReset (h : Keeps s t) (p : Nat) (powered : Bool) : Keeps s (t.feReset p powered) :=
  (h.setFe _ _).filterFreg _ _ _

/-! #### Machine/Protect.lean -/

theorem Keeps.throttleBegin (h : Keeps s t) (a : Nat) : Keeps s (t.throttleBegin a) :=
  Keeps.ite h (Keeps.ite ((h.modPro _).sendFast _ _) (Keeps.ite ((h.modPro _).modUpl _) (Keeps.ite ((h.modPro _).toIdle) (h.modPro _))))

theorem Keeps.throttleStop (h : Keeps s t) (a : Nat) : Keeps s (t.throttleStop a) :=
  Keeps.ite (Keeps.ite (h.modPro _) ((h.modPro _).sendFast _ _)) (Keeps.ite ((h.modPro _).modUpl _)
      (((h.modPro _).modGlb _).requestState _))

theorem Keeps.concSample (h : Keeps s t) (i : Nat) (q : Option Int) (ok : Bool) : Keeps s (t.concSample i q ok) := by
  unfold State.concSample
  extract_lets x y s1 s2 s3 s4 s5
  have h1 : Keeps s s1 := h.modPro _
  have h2 : Keeps s s2 := h1.cset _ _
  have h3 : Keeps s s3 := by
    dsimp only [s3]
    split
    exacts [(h2.cset _ _).cset _ _, h2]
  have h4 : Keeps s s4 := h3.onlyWhen _ _ fun _ => (Keeps.refl _).monNotice _
  have h5 : Keeps s s5 := h4.onlyWhen _ _ fun _ => ((Keeps.refl _).cset _ _).alarm _
  exact .ite h1 (h5.onlyWhen _ _ fun _ => (Keeps.refl _).throttleBegin _)

theorem Keeps.showThermal (h : Keeps s t) (p : Nat) : Keeps s (t.showThermal p) := by
  unfold State.showThermal
  dsimp only
  exact (((h.fset _ _ _).fset _ _ _).fset _ _ _).modFacts _ _

theorem Keeps.feSample (h : Keeps s t) (p i : Nat) (q : Option ℤ) (selfOk : Bool) : Keeps s (t.feSample p i q selfOk) :=
  Keeps.ite (h.modFe _ _) (((h.modFe _ _).showThermal _).onlyWhen _ _ fun _ => ((Keeps.refl _).onlyWhen _ _ fun _ =>
      (Keeps.refl _).fset _ _ _).modFe _ _)

theorem Keeps.showLatch (h : Keeps s t) : Keeps s t.showLatch := ((h.cset _ _).cset _ _).cset _ _

theorem Keeps.setLatch (h : Keeps s t) (n : Nat) (b : Bool) : Keeps s (t.setLatch n b) :=
  Keeps.ite h ((((h.modNvm _).program _).showLatch).logBit _ _ _ _)

theorem Keeps.setPermit (h : Keeps s t) (n st : Nat) : Keeps s (t.setPermit n st) := (h.cset _ _).cset _ _

theorem Keeps.trip (h : Keeps s t) (n st : Nat) : Keeps s (t.trip n st) :=
  Keeps.ite ((((h.setPermit _ _).cbump _).logBit _ _ _ _).setLatch _ _) (((h.setPermit _ _).cbump _).logBit _ _ _ _)

theorem Keeps.permitStep (h : Keeps s t) (n : Nat) : Keeps s (t.permitStep n) := by
  unfold State.permitStep
  extract_lets c s1 st off s2
  have h1 : Keeps s s1 := h.cset _ _
  have h2 : Keeps s s2 := h1.modPro _
  exact .ite h1 (.ite (.ite (h1.trip _ _) (.ite (h1.setPermit _ _) h1)) (.ite (.ite h1 (.ite (h2.trip _ _)
    (.ite h2 (.ite ((h2.setPermit _ _).modPro _) (h2.trip _ _))))) h1))

theorem Keeps.readOutput (h : Keeps s t) (gv24 n mv : Nat) : Keeps s (t.readOutput gv24 n mv) :=
  Keeps.ite (Keeps.ite (h.cset _ _) (((h.cset _ _).cset _ _).modPro _)) (Keeps.ite (h.cset _ _)
      ((((h.cset _ _).cset _ _).cset _ _).modPro _))

theorem Keeps.commonTest (h : Keeps s t) (outs : List OutRead) : Keeps s (t.commonTest outs) := ((h.modPro _).cset _ _).cset _ _

theorem Keeps.permitReset (h : Keeps s t) (n : Nat) : Keeps s (t.permitReset n) :=
  Keeps.ite h (Keeps.ite ((h.setPermit _ _).setLatch _ _) ((h.cbump _).logBit _ _ _ _))

theorem Keeps.guardReset (h : Keeps s t) (outs : List OutRead) : Keeps s (t.guardReset outs) :=
  (((h.commonTest _).cbump _).logBit _ _ _ _).foldl _ _ fun _ _ _ => (Keeps.refl _).permitReset _

theorem Keeps.opGpw (h : Keeps s t) (v : Nat) : Keeps s (t.opGpw v) := h.modPro _

theorem Keeps.checkFailed (h : Keeps s t) : Keeps s t.checkFailed :=
  Keeps.ite (((((h.modPro _).cbump _).logBit _ _ _ _).cset _ _).modPro _) (((h.modPro _).cbump _).logBit _ _ _ _)

theorem Keeps.passwordCheck (h : Keeps s t) (pw : List Byte) : Keeps s (t.passwordCheck pw).1 := by
  unfold State.passwordCheck
  split; · exact h
  split
  · dsimp only
    exact (h.cset _ _).modPro _
  · exact h.checkFailed

theorem Keeps.opGwin (h : Keeps s t) (v : Nat) : Keeps s (t.opGwin v) := Keeps.ite ((h.modPro _).passwordCheck _) h

theorem Keeps.opGcommit (h : Keeps s t) (v : Nat) : Keeps s (t.opGcommit v) := Keeps.ite (h.cset _ _) h

/-! #### Machine/Bus.lean -/

theorem Keeps.cramBus (h : Keeps s t) (a : Nat) : Keeps s (t.cramBus a).2.2 := by
  unfold State.cramBus
  dsimp only
  split
  · exact h.cramRead _
  · exact h.cramRead _
  · exact h.cramRead _

theorem Keeps.busRead (h : Keeps s t) (m a : Nat) : Keeps s (t.busRead m a).2.2 := by
  unfold State.busRead
  split; · exact h
  split; · exact h.proxyDirect _ _
  split; · exact h.cramBus _
  split; · exact h
  split; · exact h.popFor _
  split
  exacts [(h.readReg _ _).draw, h.readReg _ _]

theorem Keeps.logGuard (h : Keeps s t) (a new old actor tag : Nat) : Keeps s (t.logGuard a new old actor tag) :=
  Keeps.ite h (h.logAdd _)

theorem Keeps.queueWrite (h : Keeps s t) (m a v i o : Nat) : Keeps s (t.queueWrite m a v i o).1 := by
  unfold State.queueWrite
  extract_lets g q
  split
  · dsimp only
    exact (h.opUqCtrl _ _ _).feedWriters
  split; · exact h.opUqPush _ _ _
  split
  · dsimp only
    exact (h.writeReg _ _ _).setQueue _ _ _
  split
  · dsimp only
    exact h.modUpl _
  · exact h.writeReg _ _ _

theorem Keeps.proWrite (h : Keeps s t) (m a v tag : Nat) : Keeps s (t.proWrite m a v tag).1 :=
  Keeps.ite1 (h.opGpw _) (Keeps.ite1 (h.opGwin _) (Keeps.ite1 (h.opGcommit _) ((h.writeReg _ _ _).logGuard _ _ _ _ _)))

/-- A register write that the block answers itself keeps the form. -/
def SomeKeeps (s : State) (o : Option (State × Bool)) : Prop := ∀ r ∈ o, Keeps s r.1

theorem SomeKeeps.none : SomeKeeps s .none := fun _ e => (Option.not_mem_none _ e).elim

theorem SomeKeeps.some {b : Bool} (h : Keeps s t) : SomeKeeps s (.some (t, b)) := fun _ e => Option.some.inj e ▸ h

theorem SomeKeeps.ofPair {r : State × Bool} (h : Keeps s r.1) : SomeKeeps s (.some r) := fun _ e => Option.some.inj e ▸ h

theorem SomeKeeps.ite {c : Prop} [Decidable c] {a b : Option (State × Bool)} (ha : SomeKeeps s a) (hb : SomeKeeps s b) :
    SomeKeeps s (if c then a else b) := by
  split
  exacts [ha, hb]

theorem Keeps.hubWrite (h : Keeps s t) (m a v : Nat) : SomeKeeps s (t.hubWrite m a v) :=
  .ite (.some (h.opGlbPwr _)) (.ite (.some (h.opGlbRst _)) (.ite (.some (h.opWdog _)) (.ite (.ofPair (h.opMvClear _ _))
    (.ite (.some (h.opMvCtrl _ _)) (.ite (.ofPair (.ite1 (h.writeReg _ _ _) h)) (.ite (.ofPair (h.opMvTmr _ _ _ _))
      (.ite (.some (h.opThaw _)) .none)))))))

theorem Keeps.dataWrite (h : Keeps s t) (m a v : Nat) (hs : List Nat) : SomeKeeps s (t.dataWrite m a v hs) :=
  .ite (.some (h.opTimStep _)) (.ite (.some (h.opStepVal _ _)) (.ite (.some (h.opTout _ _)) (.ite (.ofPair (h.opPlCtrl _ _ _))
    (.ite (.ofPair (h.opPlInj _ _ _)) (.ite (.ofPair (h.opIxSel _ _ _)) (.ite (.ofPair (h.opPinSel _ _)) (.ite (.ofPair (h.opXtSel _ _ _))
      (.ite (.ofPair (h.opTrgCtrl _ _)) (.ite (.some (h.opTrgAbort _)) (.ite (.some (h.opRestore _ _))
        (.ite (.ofPair (h.queueWrite _ _ _ _ _)) .none)))))))))))

theorem Keeps.busWriteTag (h : Keeps s t) (m a v tag : Nat) : Keeps s (t.busWriteTag m a v tag).1 := by
  unfold State.busWriteTag
  split; · exact h
  split; · exact h.proxyDirect _ _
  split; · exact h.cramWrite32 _ _
  split; · exact h
  split; · exact h.foldl _ _ fun _ _ _ => (Keeps.refl _).cset _ _
  split; · exact h.proWrite _ _ _ _
  split; · next e => exact h.hubWrite _ _ _ _ e
  extract_lets d
  have hd : Keeps s d.2 := .ite2 h.draw h
  split
  · next e => exact hd.dataWrite _ _ _ _ _ e
  · exact h.writeReg _ _ _

theorem Keeps.busWrite (h : Keeps s t) (m a v : Nat) : Keeps s (t.busWrite m a v).1 := h.busWriteTag _ _ _ _

/-! #### Machine/Mover.lean -/

theorem Keeps.mvWait (h : Keeps s t) (c : Nat) : Keeps s (t.mvWait c) :=
  Keeps.ite ((h.setMv _ _).modMch _ _) (((h.setMv _ _).cset _ _).modMch _ _)

theorem Keeps.mvChecked (h : Keeps s t) (c : Nat) : Keeps s (t.mvChecked c) :=
  Keeps.ite (h.mvHalt _ _) (Keeps.ite (h.mvHalt _ _) (Keeps.ite ((((h.cset _ _).cset _ _).setMv _ _).modMch _ _)
      (((h.cset _ _).cset _ _).mvWait _)))

theorem Keeps.mvReadDesc (h : Keeps s t) (c a n : Nat) : Keeps s (t.mvReadDesc c a n).2.2 := by
  induction n generalizing t a with
  | zero => exact h
  | succ n ih =>
    have h1 : Keeps s (t.guarded (1 + c) .control a .read id) := h.guarded _ _ _ _ _ Keeps.refl
    unfold State.mvReadDesc
    simp only
    split
    · exact h1
    · exact ih (h1.cramRead _) _

theorem Keeps.mvGuard (h : Keeps s t) (c : Nat) (sp : Space) (key : Nat) (a : Access) (k : State → MvRes × State) (hk : ∀ z, Keeps z
    (k z).2) : Keeps s (t.mvGuard c sp key a k).2 :=
  Keeps.ite2 h (Keeps.ite2 (h.trans (hk _)) (h.violation _ _ _ _))

theorem Keeps.mvReadRam (h : Keeps s t) (c a n : Nat) : Keeps s (t.mvReadRam c a n).2 := by
  induction n generalizing t a with
  | zero => exact h
  | succ n ih =>
    have h1 := h.cramRead (a / 8)
    unfold State.mvReadRam
    simp only
    split
    · exact h1
    · split <;> exact ih (h1.modMch _ _) _
    · split <;> exact ih h1 _

theorem Keeps.mvLine (h : Keeps s t) (c a : Nat) : Keeps s (t.mvLine c a).2.2 := by
  unfold State.mvLine
  dsimp only
  split
  · exact h
  · dsimp only
    exact ((h.lineStatus _ _).noteStatus _ _).modMch _ _

theorem Keeps.mvReadFirn (h : Keeps s t) (c a n : Nat) : Keeps s (t.mvReadFirn c a n).2 :=
  Keeps.ite2 (h.mvLine _ _) (Keeps.ite2 (h.mvLine _ _) (Keeps.ite ((h.mvLine _ _).modMch _ _) (h.mvLine _ _)))

theorem Keeps.mvReadOne (h : Keeps s t) (c sp a n : Nat) : Keeps s (t.mvReadOne c sp a n).2 := by
  unfold State.mvReadOne
  split
  · exact h.mvGuard _ _ _ _ _ fun _ => (Keeps.refl _).mvReadRam _ _ _
  · exact h.mvGuard _ _ _ _ _ fun _ => (Keeps.refl _).mvReadFirn _ _ _
  · refine h.mvGuard _ _ _ _ _ fun z => ?_
    split
    exacts [Keeps.refl z, ((Keeps.refl z).modUpl _).showInbound]
  · exact h.mvGuard _ _ _ _ _ fun _ => Keeps.ite2 ((Keeps.refl _).busRead _ _) ((Keeps.refl _).busRead _ _)

theorem Keeps.mvWriteQueue (h : Keeps s t) (id : Nat) (bs : List Byte) (eop : Bool) : Keeps s (t.mvWriteQueue id bs eop).2 :=
  Keeps.ite2 (h.pushWord _ _ _ _) (Keeps.ite2 (h.pushWord _ _ _ _) (h.pushWord _ _ _ _))

theorem Keeps.mvWriteOne (h : Keeps s t) (c sp a : Nat) (bs : List Byte) (eop : Bool) : Keeps s (t.mvWriteOne c sp a bs eop).2 := by
  unfold State.mvWriteOne
  split
  · exact h.mvGuard _ _ _ _ _ (fun _ => (Keeps.refl _).mvWriteRam _ _)
  · exact h.mvGuard _ _ _ _ _ (fun _ => (Keeps.refl _).mvWriteFirn _ _)
  · exact h.mvGuard _ _ _ _ _ (fun _ => (Keeps.refl _).mvWriteQueue _ _ _)
  · exact h.mvGuard _ _ _ _ _ (fun _ => Keeps.ite2 ((Keeps.refl _).busWrite _ _ _) ((Keeps.refl _).busWrite _ _ _))

theorem Keeps.mvGather (h : Keeps s t) (c sp a w d n : Nat) : Keeps s (t.mvGather c sp a w d n).2 := by
  induction n generalizing t a with
  | zero => exact h
  | succ n ih =>
    have h1 := h.mvReadOne c sp a w
    unfold State.mvGather
    simp only
    split
    · exact h1
    · split <;> exact ih h1 _
    · exact h1

theorem Keeps.mvMoved (h : Keeps s t) (c : Nat) (bs : List Byte) : Keeps s (t.mvMoved c bs) :=
  Keeps.ite ((((((h.modMch _ _).cset _ _).onlyWhen _ _ fun _ => (Keeps.refl _).cset _ _).modMch _ _).cset _ _).paceAll _ _)
      (((h.modMch _ _).cset _ _).onlyWhen _ _ fun _ => (Keeps.refl _).cset _ _)

theorem Keeps.mvScatter (h : Keeps s t) (c sp a w d : Nat) (fin : Bool) (n : Nat) (bs : List Byte) :
    Keeps s (t.mvScatter c sp a w d fin n bs).2 := by
  induction n generalizing t a bs with
  | zero => exact h
  | succ n ih =>
    unfold State.mvScatter
    simp only
    split
    · exact h
    · split
      · exact ih ((h.mvWriteOne _ _ _ _ _).mvMoved _ _) _ _
      · exact h.mvWriteOne _ _ _ _ _

theorem Keeps.mvStopped (h : Keeps s t) (c : Nat) (last : Bool) (x : MvRes) : Keeps s (t.mvStopped c last x) := by
  unfold State.mvStopped
  split
  · exact (h.cset _ _).mvHalt _ _
  · exact h.mvHalt _ _
  · exact h.mvBusErr _ _ _
  · exact h.modMch _ _
  · exact h

theorem Keeps.mvUnit (h : Keeps s t) (c : Nat) : Keeps s (t.mvUnit c).1 := by
  unfold State.mvUnit
  extract_lets x sw dw u sinc dinc a b final r
  have hr : Keeps s r.2 := h.mvGather _ _ _ _ _ _
  split
  · extract_lets w
    have hw : Keeps s w.2 := hr.mvScatter _ _ _ _ _ _ _ _
    split
    · split
      · dsimp only
        exact hw.modMch _ _
      · exact hw
    · exact hw.mvStopped _ _ _
  · exact hr.mvStopped _ _ _

theorem Keeps.mvPasses (h : Keeps s t) (c n : Nat) : Keeps s (t.mvPasses c n) := by
  induction n generalizing t with
  | zero => exact h
  | succ n ih => exact .ite h (.ite (ih (h.mvUnit _)) (h.mvUnit _))

/-! #### Machine/Start.lean -/

theorem Keeps.logRange (h : Keeps s t) (a v : Nat) : Keeps s (t.logRange a v) := h.logOwn _ _ _ _ _

theorem Keeps.logUnknown (h : Keeps s t) (a v : Nat) : Keeps s (t.logUnknown a v) := h.logOwn _ _ _ _ _

theorem Keeps.cfgFix (h : Keeps s t) (a v : Nat) : Keeps s (t.cfgFix a v) := ((h.logRange _ _).cbump _).cset _ _

theorem Keeps.loadField (h : Keeps s t) (f : Fld) (n : Nat) : Keeps s (t.loadField f n) :=
  Keeps.ite (Keeps.ite (h.cset _ _) (Keeps.ite h (h.armTout _))) (Keeps.ite (h.enablePort _ _) (h.cset _ _))

theorem Keeps.regField (h : Keeps s t) (a v : Nat) (hi : Bool) (f : Fld) : Keeps s (t.regField a v hi f) :=
  Keeps.ite (h.loadField _ _) ((h.cset _ _).cfgFix _ _)

theorem Keeps.applyReg (h : Keeps s t) (a v : Nat) : Keeps s (t.applyReg a v) := by
  unfold State.applyReg
  split
  · exact h.logUnknown _ _
  · exact Keeps.ite (h.logUnknown _ _) (Keeps.ite (h.foldl _ _ fun _ _ _ => (Keeps.refl _).regField _ _ _ _)
        ((h.foldl _ _ fun _ _ _ => (Keeps.refl _).regField _ _ _ _).logRange _ _))

theorem Keeps.applyFeReg (h : Keeps s t) (w v p : Nat) : Keeps s (t.applyFeReg w v p) := by
  unfold State.applyFeReg
  dsimp only
  split
  · exact h.logUnknown _ _
  · exact Keeps.ite (h.logUnknown _ _) (Keeps.ite (Keeps.ite ((h.setGold _ _ _).cfgFix _ _) (h.setGold _ _ _)) ((Keeps.ite
        ((h.setGold _ _ _).cfgFix _ _) (h.setGold _ _ _)).logRange _ _))

theorem Keeps.setGuarded (h : Keeps s t) (a v : Nat) : Keeps s (t.setGuarded a v) := by
  unfold State.setGuarded
  split
  · exact h.foldl _ _ fun _ _ _ => Keeps.ite ((Keeps.refl _).cset _ _) (Keeps.refl _)
  · exact h

theorem Keeps.guardPair (h : Keeps s t) (a v : Nat) : Keeps s (t.guardPair a v) := Keeps.ite (h.setGuarded _ _) h

theorem Keeps.guardFePair (h : Keeps s t) (a v : Nat) : Keeps s (t.guardFePair a v) :=
  Keeps.ite h (Keeps.ite (h.setGold _ _ _) (h.logUnknown _ _))

theorem Keeps.applyGuard (h : Keeps s t) (salt verifier : List Byte) (pairs : List (W32 × W32)) : Keeps s
    (t.applyGuard salt verifier pairs) :=
  ((h.modPro _).cset _ _).foldl _ _ fun _ _ _ => (Keeps.refl _).guardPair _ _

theorem Keeps.applyRec (h : Keeps s t) (r : CfgRec) : Keeps s (t.applyRec r) := by
  unfold State.applyRec
  split
  · exact h.cset _ _
  · exact h.applyReg _ _
  · exact h.foldl _ _ fun _ _ _ => (Keeps.refl _).applyFeReg _ _ _
  · exact h.logUnknown _ _
  · exact h
  · exact h

theorem Keeps.fixLanes (h : Keeps s t) : Keeps s t.fixLanes :=
  Keeps.ite h ((h.foldl _ _ fun _ _ _ => ((Keeps.refl _).cset _ _).cset _ _).cfgFix _ _)

theorem Keeps.fixClaim (h : Keeps s t) : Keeps s t.fixClaim := Keeps.ite ((h.cset _ _).cfgFix _ _) h

theorem Keeps.applyAll (h : Keeps s t) (rs : List CfgRec) : Keeps s (t.applyAll rs) := by
  unfold State.applyAll
  extract_lets s1 s2 s3 s4 s5
  have h1 : Keeps s s1 := by
    dsimp only [s1]
    split
    exacts [h.applyGuard _ _ _, h]
  have h2 : Keeps s s2 := h1.foldl _ _ fun _ _ _ => (Keeps.refl _).applyRec _
  have h3 : Keeps s s3 := .ite h2 (h2.logUnknown _ _)
  have h4 : Keeps s s4 := by
    dsimp only [s4]
    split
    exacts [h3.foldl _ _ fun _ _ _ => (Keeps.refl _).guardFePair _ _, h3]
  exact .ite h4.fixLanes.fixClaim (h4.fixLanes.fixClaim.modGlb _)

theorem Keeps.newContainer (h : Keeps s t) (rs : List CfgRec) : Keeps s (t.newContainer rs) := (h.modNvm _).program _

/-! #### Machine/Mailbox.lean -/

theorem Keeps.sendReply (h : Keeps s t) (g svc cmd tag st : Nat) (body : List Byte) : Keeps s (t.sendReply g svc cmd tag st body) :=
  h.sendCtrl _ _

theorem Keeps.reply (h : Keeps s t) (g svc cmd tag st : Nat) (body : List Byte) : Keeps s (t.reply g svc cmd tag st body) :=
  (h.onSp _).sendReply _ _ _ _ _ _

theorem Keeps.finishLong (h : Keeps s t) (l : LongCmd) (st : Nat) (body : List Byte) : Keeps s (t.finishLong l st body) :=
  (h.onSp _).reply _ _ _ _ _ _

theorem Keeps.startLong (h : Keeps s t) (lane svc cmd tag : Nat) (saved : List (Nat × Nat × Nat)) (arg : List Nat) : Keeps s
    (t.startLong lane svc cmd tag saved arg) :=
  (h.onSp _).reply _ _ _ _ _ _

theorem Keeps.preReply (h : Keeps s t) {g svc cmd tag : Nat} {u : State} (e : t.preReply g svc cmd tag = some u) : Keeps s u := by
  simp only [State.preReply] at e
  split_ifs at e
  · cases e; exact h.sendReply _ _ _ _ _ _
  · cases e; exact h.sendReply _ _ _ _ _ _
  · obtain ⟨r, -, rfl⟩ := Option.map_eq_some_iff.1 e
    exact (h.cbump _).sendReply _ _ _ _ _ _

theorem Keeps.mailServe (h : Keeps s t) (lane svc cmd tag : Nat) (k : State → State) (hk : ∀ z, Keeps z (k z)) :
    Keeps s (t.mailServe lane svc cmd tag k) := by
  have h0 (b : Bool) : Keeps s (if b then t.modSp fun x => { x with taken := none } else t) := .ite (h.onSp _) h
  unfold State.mailServe
  simp only
  split
  · next e => exact (h0 _).preReply e
  · exact (h0 _).trans (hk _)

theorem Keeps.regRead (h : Keeps s t) (a i n : Nat) : Keeps s (t.regRead a i n).2.2 := by
  induction n generalizing t i with
  | zero => exact h
  | succ n ih =>
    unfold State.regRead
    simp only
    split
    · exact h.violation _ _ _ _
    · split
      · exact h.busRead _ _
      · exact ih (h.busRead _ _) _

theorem Keeps.regWrite (h : Keeps s t) (a i tag n : Nat) (bs : List Byte) : Keeps s (t.regWrite a i tag n bs).2 := by
  induction n generalizing t i bs with
  | zero => exact h
  | succ n ih =>
    unfold State.regWrite
    simp only
    split
    · exact h.violation _ _ _ _
    · split
      · exact h.busWriteTag _ _ _ _
      · exact ih (h.busWriteTag _ _ _ _) _ _

theorem Keeps.spWrite (h : Keeps s t) (a v tag : Nat) : Keeps s (t.spWrite a v tag) :=
  h.guarded _ _ _ _ _ (fun _ => (Keeps.refl _).busWriteTag _ _ _ _)

theorem Keeps.calStart (h : Keeps s t) (lane cmd tag : Nat) (body : List Byte) : Keeps s (t.calStart lane cmd tag body) := by
  unfold State.calStart
  extract_lets g first last sel m start stop step top x ws saved r
  have hr : Keeps s r.2 := h.spProxies _
  refine .ite (h.reply _ _ _ _ _ _) (.ite (h.reply _ _ _ _ _ _) ?_)
  split
  exacts [(hr.calRestore _).reply _ _ _ _ _ _, (hr.setScan _).startLong _ _ _ _ _ _]

theorem Keeps.abortLongs (h : Keeps s t) (svc st : Nat) : Keeps s (t.abortLongs svc st) :=
  h.foldl _ _ fun _ _ _ => ((Keeps.refl _).calRestore _).finishLong _ _ _

theorem Keeps.sendEntries (h : Keeps s t) (svc kind tag : Nat) (ws : List W64) : Keeps s (t.sendEntries svc kind tag ws) :=
  (h.onSp _).monFeed _

theorem Keeps.calComplete (h : Keeps s t) (l : LongCmd) (thr : List (BitVec 27 × BitVec 16 × W32 × W32)) : Keeps s
    (t.calComplete l thr) := by
  unfold State.calComplete
  split
  · exact (h.calRestore _).finishLong _ _ _
  · split
    · exact ((h.calRestore _).onSp _).finishLong _ _ _
    · exact (((((h.calRestore _).onSp _).sendEntries _ _ _ _).sendEntries _ _ _ _).onSp _).finishLong _ _ _

theorem Keeps.histComplete (h : Keeps s t) (l : LongCmd) : Keeps s (t.histComplete l) :=
  ((h.onSp _).sendEntries _ _ _ _).finishLong _ _ _

theorem Keeps.dropStep (h : Keeps s t) : Keeps s t.dropStep := (h.cset _ _).onTm _

theorem Keeps.guardWrite (h : Keeps s t) (a v tag : Nat) : Keeps s (t.guardWrite a v tag) := by
  unfold State.guardWrite
  dsimp only
  exact Keeps.ite (h.busWriteTag _ _ _ _) ((Keeps.ite ((h.setGold _ _ _).feWrite _ _ _ _) (h.setGold _ _ _)).logGuard _ _ _ _ _)

/-! #### Machine/Update.lean -/

theorem Keeps.modSide (h : Keeps s t) (up : Bool) (g : ChainSide → ChainSide) : Keeps s (t.modSide up g) := h.modNvm _

theorem Keeps.sendUpd (h : Keeps s t) (up : Bool) (typ reason count block image : Nat) (data : List Byte) : Keeps s
    (t.sendUpd up typ reason count block image data) :=
  Keeps.ite h (h.same rfl)

theorem Keeps.updState (h : Keeps s t) (st : Nat) : Keeps s (t.updState st) := h.cset _ _

theorem Keeps.logImage (h : Keeps s t) (item n : Nat) : Keeps s (t.logImage item n) := h.logOwn _ _ _ _ _

theorem Keeps.updReply (h : Keeps s t) (lane cmd tag st : Nat) (body : List Byte) : Keeps s (t.updReply lane cmd tag st body) :=
  h.reply _ _ _ _ _ _

theorem Keeps.finishUpd (h : Keeps s t) (cmds : List Nat) (st : Nat) (body : List Byte) : Keeps s (t.finishUpd cmds st body) :=
  h.foldl _ _ fun _ _ _ => (Keeps.refl _).finishLong _ _ _

theorem Keeps.imgBegin (h : Keeps s t) (total : Nat) (from_ : Option Bool) (id : Nat) : Keeps s (t.imgBegin total from_ id) :=
  (((h.emptySlot _).modNvm _).updState _).cset _ _

theorem Keeps.imgPut (h : Keeps s t) (bs : List Byte) : Keeps s (t.imgPut bs) :=
  Keeps.ite ((h.setSlot _ _).cset _ _) (((h.setSlot _ _).cset _ _).program _)

theorem Keeps.imgComplete (h : Keeps s t) : Keeps s t.imgComplete := ((h.modNvm _).updState _).logImage _ _

theorem Keeps.haltChain (h : Keeps s t) (reason hop : Nat) : Keeps s (t.haltChain reason hop) := by
  unfold State.haltChain
  dsimp only
  split
  · exact (((h.updState _).cset _ _).logImage _ _).finishUpd _ _ _
  · exact (((h.updState _).cset _ _).logImage _ _).sendUpd _ _ _ _ _ _ _

theorem Keeps.haltHere (h : Keeps s t) (reason : Nat) : Keeps s (t.haltHere reason) := by
  unfold State.haltHere
  split
  · exact h.haltChain _ _
  · exact h.draw.haltChain _ _

theorem Keeps.forwardDone (h : Keeps s t) : Keeps s t.forwardDone := by
  unfold State.forwardDone
  dsimp only
  split
  · exact h
  · split
    · exact (((h.updState _).cset _ _).logImage _ _).finishUpd _ _ _
    · exact (((h.updState _).cset _ _).logImage _ _).sendUpd _ _ _ _ _ _ _

theorem Keeps.sendBlocks (h : Keeps s t) (up : Bool) (n : Nat) : Keeps s (t.sendBlocks up n) := by
  induction n generalizing t with
  | zero => exact h
  | succ n ih => exact .ite h (ih ((h.sendUpd _ _ _ _ _ _ _).modSide _ _))

theorem Keeps.activate (h : Keeps s t) (n : Nat) (chain : Bool) (item : Nat) : Keeps s (t.activate n chain item) :=
  ((((((((h.cset _ _).cset _ _).modNvm _).cset _ _).cset _ _).updState _).program _).logImage _ _).serviceReset

theorem Keeps.mailActivate (h : Keeps s t) (lane cmd tag : Nat) (chain : Bool) : Keeps s (t.mailActivate lane cmd tag chain) := by
  unfold State.mailActivate
  dsimp only
  split
  · exact h.updReply _ _ _ _ _
  · split
    · exact (h.cset _ _).updReply _ _ _ _ _
    · exact Keeps.ite ((h.draw.cset _ _).updReply _ _ _ _ _) (((h.draw.modNvm _).activate _ _ _).startLong _ _ _ _ _ _)

theorem Keeps.confirmDone (h : Keeps s t) : Keeps s t.confirmDone := by
  unfold State.confirmDone
  dsimp only
  split
  · exact h
  · split
    · exact (((h.cset _ _).updState _).modNvm _).finishUpd _ _ _
    · exact (((h.cset _ _).updState _).modNvm _).sendUpd _ _ _ _ _ _ _

/-! #### Machine/Twin.lean -/

theorem Keeps.toStandby (h : Keeps s t) : Keeps s t.toStandby :=
  (((h.cset _ _).modTwin _).modTrg _).foldl _ _ fun _ _ _ => (Keeps.refl _).onlyWhen _ _ fun _ => (Keeps.refl _).fset _ _ _

theorem Keeps.toTaking (h : Keeps s t) (b : TakeBy) : Keeps s (t.toTaking b) := (h.cset _ _).modTwin _

theorem Keeps.endSwitch (h : Keeps s t) (st : Nat) : Keeps s (t.endSwitch st) :=
  h.foldl _ _ fun _ _ _ => (Keeps.refl _).finishLong _ _ _

theorem Keeps.downlinksOn (h : Keeps s t) : Keeps s t.downlinksOn := h.foldl _ _ fun _ _ _ => (Keeps.refl _).modPort _ _

theorem Keeps.patternLine (h : Keeps s t) (r : Nat) (raw : RawLine) : Keeps s (t.patternLine r raw).2 := by
  unfold State.patternLine
  extract_lets n d x a s1 y
  split; · exact h
  have hx : Keeps s x.2 := h.draw.draw
  clear_value a x
  have hy : Keeps s y.2.2 := (hx.mvWriteFirn a _).lineStatus a raw
  clear_value y
  exact hy.noteStatus _ _

theorem Keeps.sendSeed (h : Keeps s t) (fs : Option Nat) : Keeps s (t.sendSeed fs) := by
  unfold State.sendSeed
  exact ⟨h.form, h.pending, h.tick, h.free⟩

theorem Keeps.applySeedReg (h : Keeps s t) (a v : Nat) : Keeps s (t.applySeedReg a v) := by
  unfold State.applySeedReg
  split
  · exact h
  · exact Keeps.ite h (h.busWrite _ _ _)

theorem Keeps.applySeedGold (h : Keeps s t) (p w v : Nat) : Keeps s (t.applySeedGold p w v) := Keeps.ite h (h.setGold _ _ _)

theorem Keeps.storeSeed (h : Keeps s t) (x : Seed) : Keeps s (t.storeSeed x) := Keeps.ite h ((h.modNvm _).program _)

theorem Keeps.acceptSeed (h : Keeps s t) (x : Seed) : Keeps s (t.acceptSeed x) :=
  ((((((h.foldl _ _ fun _ _ _ => (Keeps.refl _).applySeedReg _ _).foldl _ _ fun _ _ _ =>
      (Keeps.refl _).applySeedGold _ _ _).onSp _).modTwin _).cset _ _).cset _ _).storeSeed _

theorem Keeps.rejectSeed (h : Keeps s t) : Keeps s t.rejectSeed := (h.cbump _).modTwin _

theorem Keeps.judgeSeed (h : Keeps s t) (x : PushRx) : Keeps s (t.judgeSeed x) := Keeps.ite (h.acceptSeed _) h.rejectSeed

theorem Keeps.lostRecords (h : Keeps s t) (a b k : Nat) : Keeps s (t.lostRecords a b k) :=
  h.foldl _ _ fun _ _ _ => (Keeps.refl _).addCrev _ _

theorem Keeps.storeFromFrame (h : Keeps s t) (f k fc : Nat) (records : Bool) : Keeps s (t.storeFromFrame f k fc records) :=
  Keeps.ite ((((h.modTwin _).cset _ _).calveSlices _).lostRecords _ _ _) (((h.modTwin _).cset _ _).calveSlices _)

theorem Keeps.applyRun (h : Keeps s t) : Keeps s t.applyRun := by
  unfold State.applyRun
  split
  · exact h
  · exact ((h.foldl _ _ fun _ _ _ => (Keeps.refl _).applySeedReg _ _).onSp _).busWrite _ _ _

end

end Sys2Proof.Machine
/-! ### Every command keeps the form -/

namespace Sys2Proof.Machine

set_option Elab.async false

section
variable {s : State}

/-- A command's answer keeps the form. -/
def OutKeeps (s : State) (o : Out) : Prop := ∀ t, o = .next t → Keeps s t

theorem OutKeeps.next {t : State} (h : Keeps s t) : OutKeeps s (.next t) := by
  rintro _ ⟨⟩
  exact h

theorem OutKeeps.ite {c : Prop} [Decidable c] {a b : Out} (ha : OutKeeps s a) (hb : OutKeeps s b) : OutKeeps s (if c then a else b) := by
  split
  exacts [ha, hb]

theorem Keeps.foldlSnd {α β : Type} {x : β × State} (h : Keeps s x.2) (g : β × State → α → β × State) (l : List α)
    (hg : ∀ z a, Keeps z.2 (g z a).2) : Keeps s (l.foldl g x).2 := by
  induction l generalizing x with
  | nil => exact h
  | cons a r ih => exact ih (h.trans (hg x a))

theorem execNop_keeps (p : PortIx) (q : FaceIx) (slot : Fin 250) : OutKeeps s (execNop p q slot s) :=
  have h := Keeps.refl s
  .next (h.fastCommand _ _ _ _ (fun _ => Keeps.refl _))

theorem execGateOpen_keeps (p : PortIx) (q : FaceIx) (slot : Fin 250) : OutKeeps s (execGateOpen p q slot s) :=
  have h := Keeps.refl s
  .next (h.fastCommand _ _ _ _ (fun _ => (Keeps.refl _).gatePend _ _ _ _ _ _))

theorem execGateClose_keeps (p : PortIx) (q : FaceIx) (slot : Fin 250) : OutKeeps s (execGateClose p q slot s) :=
  have h := Keeps.refl s
  .next (h.fastCommand _ _ _ _ (fun _ => (Keeps.refl _).gatePend _ _ _ _ _ _))

theorem execPulse_keeps (p : PortIx) (q : FaceIx) (slot : Fin 250) : OutKeeps s (execPulse p q slot s) :=
  have h := Keeps.refl s
  .next (h.fastCommand _ _ _ _ (fun _ => (Keeps.refl _).opPulse _))

theorem execScan_keeps (p : PortIx) (q : FaceIx) (slot : Fin 250) : OutKeeps s (execScan p q slot s) :=
  have h := Keeps.refl s
  .next (h.fastCommand _ _ _ _ (fun _ => Keeps.ite ((Keeps.refl _).modMon _ _) (Keeps.refl _)))

theorem execFlush_keeps (p : PortIx) (q : FaceIx) (slot : Fin 250) : OutKeeps s (execFlush p q slot s) :=
  have h := Keeps.refl s
  .next (h.fastCommand _ _ _ _ (fun _ => (Keeps.refl _).modFe _ _))

theorem execStandby_keeps (p : PortIx) (q : FaceIx) (slot : Fin 250) : OutKeeps s (execStandby p q slot s) :=
  have h := Keeps.refl s
  .next (h.fastCommand _ _ _ _ (fun _ => (Keeps.refl _).powerAsk _ _))

theorem execWake_keeps (p : PortIx) (q : FaceIx) (slot : Fin 250) : OutKeeps s (execWake p q slot s) :=
  have h := Keeps.refl s
  .next (h.fastCommand _ _ _ _ (fun _ => (Keeps.refl _).powerAsk _ _))

theorem execClaim_keeps (p : PortIx) (q : FaceIx) (slot : Fin 250) : OutKeeps s (execClaim p q slot s) :=
  have h := Keeps.refl s
  .next (Keeps.ite (h.onlyWhen _ _ fun _ => (Keeps.refl _).fcBad _ _) (h.fastCommand _ _ _ _ (fun _ => (Keeps.refl _).modLink _ _ _)))

theorem State.fcRun_keeps (p : PortIx) (q : FaceIx) (slot : Fin 250) (code : Nat) : OutKeeps s (s.fcRun p q slot code) := by
  unfold State.fcRun
  split
  exacts [execNop_keeps _ _ _, execGateOpen_keeps _ _ _, execGateClose_keeps _ _ _, execPulse_keeps _ _ _, execScan_keeps _ _ _,
    execFlush_keeps _ _ _, execStandby_keeps _ _ _, execWake_keeps _ _ _, execClaim_keeps _ _ _, .next ((Keeps.refl s).fcBad _ _)]

theorem execLowWordRead_keeps (r : Reader) : OutKeeps s (execLowWordRead r s) := by
  have h := Keeps.refl s
  unfold execLowWordRead
  refine .next ?_
  split
  · exact h.guarded _ _ _ _ _ (fun _ => ((Keeps.refl _).busRead _ _).answer _ _ _)
  · exact h.feRequest _ _ _

theorem execPtpFollowUp_keeps (v : SvcIx) (h : PtpHdr) (t1 corr : Int) : OutKeeps s (execPtpFollowUp v h t1 corr s) := by
  have h := Keeps.refl s
  unfold execPtpFollowUp
  refine .next ?_
  split
  · exact h
  · split
    · exact Keeps.ite (h.syncMeasured _ _) h
    · exact h

theorem execPtpDelayResp_keeps (v : SvcIx) (h : PtpHdr) (t4 corr : Int) : OutKeeps s (execPtpDelayResp v h t4 corr s) := by
  have h := Keeps.refl s
  unfold execPtpDelayResp
  refine .next ?_
  split
  · exact h
  · split
    · exact Keeps.ite (h.modPtp _ _) h
    · exact h

theorem execDelayReqSend_keeps (v : SvcIx) (t3 : Int) : OutKeeps s (execDelayReqSend v t3 s) := by
  have h := Keeps.refl s
  unfold execDelayReqSend
  refine .next ?_
  extract_lets q s1
  have h1 : Keeps s s1 := h.modPtp _ _
  exact .ite h (h1.same rfl)

theorem execPtpLoss_keeps : OutKeeps s (execPtpLoss s) := by
  have h := Keeps.refl s
  unfold execPtpLoss
  refine .next ?_
  split
  · exact h.portLost _
  · exact h

theorem execWholeFrameStep_keeps : OutKeeps s (execWholeFrameStep s) := by
  have h := Keeps.refl s
  unfold execWholeFrameStep
  refine .next ?_
  split
  · exact h
  · exact Keeps.ite h ((((((h.onTm _).foldl _ _ fun _ _ _ =>
        (Keeps.refl _).toutJump _ _ _).reloadPorts).stepIndex _ _).stepCrevasse _ _).stepCores _)

theorem execTinEdge_keeps (i : Fin 8) (t : Inst) (rising : Bool) (width : Nat) : OutKeeps s (execTinEdge i t rising width s) := by
  have h := Keeps.refl s
  unfold execTinEdge
  refine .next ?_
  extract_lets j s0
  have h0 : Keeps s s0 := h.toInst _
  split; · exact h0
  have h1 : Keeps s (if width < 117965 ∨ 144179 < width then (b2n (decide (144179 < width)), s0) else s0.draw).2 := .ite2 h0 h0.draw
  revert h1
  generalize (if width < 117965 ∨ 144179 < width then (b2n (decide (144179 < width)), s0) else s0.draw) = y
  intro h1
  dsimp only
  exact .ite (h1.cbump _) (.ite (h1.cbump _) ((h1.onTm _).cbump _))

theorem execLeadingEdge_keeps (p : PortIx) (c : ChIx) (t : Crossing) (raw : BitVec 12) : OutKeeps s (execLeadingEdge p c t raw s) := by
  have h := Keeps.refl s
  unfold execLeadingEdge
  refine .next ?_
  dsimp only
  split
  · exact h.toInst _
  · split
    · exact (h.toInst _).modCh _ _ _
    · split
      · exact Keeps.ite ((h.toInst _).modCh _ _ _) ((h.toInst _).openBusy _ _ _ _ _)
      · exact (h.toInst _).openBusy _ _ _ _ _

theorem execFineTimeReady_keeps (p : PortIx) (c : ChIx) (parityErr : EntryParity) : OutKeeps s (execFineTimeReady p c parityErr s) := by
  have h := Keeps.refl s
  unfold execFineTimeReady
  refine .next ?_
  split
  · exact h
  · exact Keeps.ite ((h.modCh _ _ _).modCh _ _ _) ((h.modCh _ _ _).onlyWhen _ _ fun _ => (Keeps.refl _).binParity _ _ _)

theorem execValidationDecided_keeps (p : PortIx) (c : ChIx) (high : ValLook) : OutKeeps s (execValidationDecided p c high s) := by
  have h := Keeps.refl s
  unfold execValidationDecided
  refine .next ?_
  dsimp only
  split
  · exact h.toInst _
  · exact (h.toInst _).modCh _ _ _

theorem execBusyEnd_keeps (p : PortIx) (c : ChIx) : OutKeeps s (execBusyEnd p c s) := by
  have h := Keeps.refl s
  unfold execBusyEnd
  refine .next ?_
  dsimp only
  split
  · exact h
  · exact Keeps.ite h ((h.toInst _).setCh _ _ _)

theorem execHitFinal_keeps (p : PortIx) (c : ChIx) (t : Inst) : OutKeeps s (execHitFinal p c t s) := by
  have h := Keeps.refl s
  unfold execHitFinal
  refine .next ?_
  extract_lets s0 hc
  split
  · exact h.toInst _
  · next x rest _ =>
    extract_lets s1 s2
    have h1 : Keeps s s1 := (h.toInst _).setCh _ _ _
    have h2 : Keeps s s2 := by
      dsimp only [s2]
      split
      exacts [h1.fbump _ _, h1.fbump _ _, h1]
    exact .ite h1 (h2.enterRegion _ _ _ _ _)

theorem execGateChange_keeps (p : PortIx) : OutKeeps s (execGateChange p s) := by
  have h := Keeps.refl s
  unfold execGateChange
  refine .next ?_
  split
  · exact h
  · exact Keeps.ite h (((Keeps.ite (h.toInst _) h).modFe _ _).gateApply _ _)

theorem execTestPulseInject_keeps (p : PortIx) : OutKeeps s (execTestPulseInject p s) := by
  have h := Keeps.refl s
  unfold execTestPulseInject
  refine .next ?_
  split
  · exact h
  · exact Keeps.ite h (((h.toInst _).modFe _ _).fbump _ _)

theorem execAdcConversionStart_keeps (p : PortIx) (c : ChIx) (t : Inst) : OutKeeps s (execAdcConversionStart p c t s) := by
  have h := Keeps.refl s
  unfold execAdcConversionStart
  refine .next ?_
  dsimp only
  split
  · exact h.toInst _
  · exact Keeps.ite ((h.toInst _).setCh _ _ _) (Keeps.ite (h.toInst _) ((h.toInst _).convStart _ _ _ _))

theorem execAdcResult_keeps (p : PortIx) (b : BlkIx) (k : SliceIx) (peak8 peak1 : Excursion) (parityErr : Bool) : OutKeeps s
    (execAdcResult p b k peak8 peak1 parityErr s) := by
  have h := Keeps.refl s
  unfold execAdcResult
  refine .next ?_
  split
  · exact h
  · exact Keeps.ite h (Keeps.ite (((((Keeps.ite (h.toInst _) h).modBlk _ _ _).modCh _ _ _).fbump _ _).modBlk _ _ _) (((Keeps.ite
        (h.toInst _) h).modBlk _ _ _).modCh _ _ _))

theorem execSliceCalibrationDone_keeps (p : PortIx) (b : BlkIx) (offsetMilliLsb gainMicro : Int) : OutKeeps s
    (execSliceCalibrationDone p b offsetMilliLsb gainMicro s) := by
  have h := Keeps.refl s
  unfold execSliceCalibrationDone
  refine .next ?_
  split
  · exact h
  · exact Keeps.ite (h.sliceCal _ _ _ _ _) h

theorem execMonInjectionDelay_keeps (p : PortIx) : OutKeeps s (execMonInjectionDelay p s) := by
  have h := Keeps.refl s
  unfold execMonInjectionDelay
  refine .next ?_
  split
  · exact h
  · exact Keeps.ite h (Keeps.ite (((Keeps.ite (h.toInst _) h).modMon _ _).monStart _ _) ((Keeps.ite (h.toInst _) h).modMon _ _))

theorem execMonConversion_keeps (p : PortIx) (code : Int) (commonMode10mV : Nat) : OutKeeps s
    (execMonConversion p code commonMode10mV s) := by
  have h := Keeps.refl s
  unfold execMonConversion
  refine .next ?_
  dsimp only
  split
  · exact h
  · split
    · exact Keeps.ite (((Keeps.ite (h.toInst _) h).modMon _ _).monFinish _) ((Keeps.ite (h.toInst _) h).modMon _ _)
    · split
      · exact Keeps.ite (h.toInst _) h
      · exact (Keeps.ite (h.toInst _) h).modMon _ _

theorem execMonCommit_keeps (p : PortIx) (t : Inst) : OutKeeps s (execMonCommit p t s) := by
  have h := Keeps.refl s
  unfold execMonCommit
  refine .next ?_
  dsimp only
  split
  · exact h.toInst _
  · exact Keeps.ite (h.toInst _) (Keeps.ite (((((h.toInst _).monCommitInput _ _).modFacts _ _).modMon _ _).monFinish _)
        (((((h.toInst _).monCommitInput _ _).modFacts _ _).modMon _ _).fset _ _ _))

theorem execMergerChoice_keeps (p : PortIx) (k : Fin 464) (ecc : EccStatus) (queueBad : Bool) : OutKeeps s
    (execMergerChoice p k ecc queueBad s) := by
  have h := Keeps.refl s
  unfold execMergerChoice
  refine .next ?_
  extract_lets u m s0
  have hu : Keeps s u := .ite h (h.mergerReady _)
  have h0 : Keeps s s0 := hu.modMerger _ _
  split; · exact hu
  split; · exact h0.serve _ _ _ _ _
  split; · exact h0.modMerger _ _
  split
  exacts [h0.modMerger _ _, h0]

theorem execFePowerChange_keeps (p : PortIx) : OutKeeps s (execFePowerChange p s) := by
  have h := Keeps.refl s
  unfold execFePowerChange
  refine .next ?_
  split
  · exact h
  · exact Keeps.ite (h.modFe _ _) (Keeps.ite ((h.modFe _ _).feStandby _) ((h.modFe _ _).feWake _))

theorem execFastCommandInvalid_keeps (p : PortIx) (q : FaceIx) (why : FcChar) : OutKeeps s (execFastCommandInvalid p q why s) := by
  have h := Keeps.refl s
  unfold execFastCommandInvalid
  split; · exact .next h
  split
  · exact State.fcRun_keeps _ _ _ _
  · exact .next ((h.fcBad _ _).onlyWhen _ _ fun _ => (Keeps.refl _).fbump _ _)

theorem execSyncSet_keeps (p : PortIx) (q : FaceIx) (x : SyncSet) : OutKeeps s (execSyncSet p q x s) := by
  have h := Keeps.refl s
  unfold execSyncSet
  refine .next ?_
  split
  · exact h
  · split
    · exact Keeps.ite ((((((h.lineErrs _ _ _).syncPh _ _ _ _).fbump _ _).modFacts _ _).modLink _ _ _).feFall _ _ _)
          (((((h.lineErrs _ _ _).syncPh _ _ _ _).fbump _ _).modFacts _ _).modLink _ _ _)
    · exact Keeps.ite ((((h.lineErrs _ _ _).syncPh _ _ _ _).linkReset _ _).feLoad _ _)
          (((((h.lineErrs _ _ _).syncPh _ _ _ _).syncTime _ _ _).syncClaim _ _ _).syncState _ _ _)

theorem execRequestCodeword_keeps (p : PortIx) (q : FaceIx) (t : Inst) (run : CodeRun) (other : Option (Inst × CodeRun)) : OutKeeps s
    (execRequestCodeword p q t run other s) := by
  have h := Keeps.refl s
  unfold execRequestCodeword
  refine .next ?_
  split
  · exact h
  · split
    · exact (h.reqCounts _ _ _).runDue _ _
    · exact ((h.reqCounts _ _ _).reqCounts _ _ _).runDue _ _

theorem execResponseReceived_keeps (p : PortIx) (r : CodeRun) : OutKeeps s (execResponseReceived p r s) := by
  have h := Keeps.refl s
  unfold execResponseReceived
  refine .next ?_
  dsimp only
  split
  · exact (h.cadd _ _).cbump _
  · exact ((h.cadd _ _).cbump _).responsePkt _ _
  · exact (h.cadd _ _).responsePkt _ _

theorem execRequestTimeout_keeps (p : PortIx) (tid : Byte) : OutKeeps s (execRequestTimeout p tid s) := by
  have h := Keeps.refl s
  unfold execRequestTimeout
  refine .next ?_
  split
  · exact h
  · split
    · exact h
    · split
      · exact ((h.modPort _ _).cbump _).proxyEnd _ _ _
      · exact (h.modPort _ _).cbump _

theorem execRecordCodeword_keeps (p : PortIx) (i : Fin 29) (marker : BitVec 10) (plus : Bool) (t : Inst) (chars : List
    (BitVec 10)) : OutKeeps s (execRecordCodeword p i marker plus t chars s) := by
  have h := Keeps.refl s
  unfold execRecordCodeword
  refine .next ?_
  extract_lets cw s0 k bad s1 first s2 n
  have h0 : Keeps s s0 := (h.toInst _).cadd _ _
  have h1 : Keeps s s1 := by
    dsimp only [s1]
    split
    exacts [h0, h0.cbump _, h0.cbump _]
  have h2 : Keeps s s2 := (h1.onlyWhen _ _ fun _ => (Keeps.refl _).modRx _ _ _).payloadCw _ _ _
  split; · exact h0
  split
  · exact .ite h2 (((h2.cadd _ _).cset _ _).modRx _ _ _)
  · exact .ite (h2.modRx _ _ _) ((h2.modRx _ _ _).rxRecords _ _ _ _)

theorem execSlotStartSet_keeps (p : PortIx) (placed plus : Bool) (chars : List (BitVec 10)) (arr : Int) : OutKeeps s
    (execSlotStartSet p placed plus chars arr s) := by
  have h := Keeps.refl s
  unfold execSlotStartSet
  refine .next ?_
  dsimp only
  split
  · exact h
  · split
    · exact (((h.cadd _ _).modPort _ _).cset _ _).cset _ _
    · exact Keeps.ite (((h.cadd _ _).modPort _ _).plExit _ _ _) ((h.cadd _ _).modPort _ _)

theorem execEchoSet_keeps (p : PortIx) (plus : Bool) (mark fis phLo phHi : BitVec 10) (rest : EchoTail) : OutKeeps s
    (execEchoSet p plus mark fis phLo phHi rest s) := by
  have h := Keeps.refl s
  unfold execEchoSet
  refine .next ?_
  dsimp only
  split
  · exact Keeps.ite ((h.cadd _ _).modPort _ _) (h.cadd _ _)
  · exact h.cadd _ _

theorem execAlignAchieved_keeps (p : PortIx) : OutKeeps s (execAlignAchieved p s) := by
  have h := Keeps.refl s
  unfold execAlignAchieved
  refine .next ?_
  split
  · split
    · exact Keeps.ite (h.plRun _) (h.plEnter _ _)
    · exact h.plEnter _ _
  · exact h

theorem execNegotiateDone_keeps (p : PortIx) (chipId : W32) (sup : BitVec 3) : OutKeeps s (execNegotiateDone p chipId sup s) := by
  have h := Keeps.refl s
  unfold execNegotiateDone
  refine .next ?_
  dsimp only
  split
  · exact h
  · split
    · exact (((h.cset _ _).cbump _).cset _ _).plGiveUp _
    · exact Keeps.ite ((((h.cset _ _).cbump _).cset _ _).plGiveUp _) (Keeps.ite h
          ((((((h.cset _ _).setGold _ _ _).cset _ _).cset _ _).cset _ _).plEnter _ _))

theorem execPhaseVerify_keeps (p : PortIx) : OutKeeps s (execPhaseVerify p s) := by
  have h := Keeps.refl s
  unfold execPhaseVerify
  refine .next ?_
  split
  · exact h
  · split
    · exact h
    · exact Keeps.ite h (Keeps.ite (h.configBegin _) (h.plFail _ _ _))

theorem execLateLimit_keeps : OutKeeps s (execLateLimit s) := by
  have h := Keeps.refl s
  unfold execLateLimit
  refine .next ?_
  extract_lets k s1
  have h1 : Keeps s s1 := (h.toInst _).foldl _ _ fun _ _ _ => (Keeps.refl _).portLimit _ _
  clear_value s1
  exact .ite h (h1.same rfl)

theorem execAlignedRelease_keeps (reads : List (PortIx × Fin 464 × EccStatus)) : OutKeeps s (execAlignedRelease reads s) := by
  have h := Keeps.refl s
  unfold execAlignedRelease
  refine .next ?_
  extract_lets k s0 _ s1
  have h0 : Keeps s s0 := h.toInst _
  have h1 : Keeps s s1 := h0.same rfl
  exact .ite h (h1.foldl _ _ fun _ _ _ => (Keeps.refl _).entryRead _ _ _ _)

theorem execHazelVerify_keeps (p : PortIx) (payload : List Byte) : OutKeeps s (execHazelVerify p payload s) := by
  have h := Keeps.refl s
  unfold execHazelVerify
  refine .next ?_
  split
  · exact h
  · split
    · exact h
    · split
      · exact Keeps.ite ((h.modPort _ _).toMerge _) ((h.modPort _ _).verifyFailed _ _ _)
      · exact (h.modPort _ _).verifyFailed _ _ _
      · exact (h.modPort _ _).verifyFailed _ _ _
      · exact (h.modPort _ _).verifyFailed _ _ _

theorem execUnitHandover_keeps (r : RgnIx) (ecc : EccStatus) : OutKeeps s (execUnitHandover r ecc s) := by
  have h := Keeps.refl s
  unfold execUnitHandover
  refine .next ?_
  dsimp only
  split
  · exact h
  · split
    · exact h
    · split
      · exact h
      · exact Keeps.ite ((h.modRgn _ _).modRgn _ _) (Keeps.ite (((h.modRgn _ _).modRgn _ _).unitUnc _ _)
            (((h.modRgn _ _).modRgn _ _).handUnit _ _))

theorem execFrameCommit_keeps : OutKeeps s (execFrameCommit s) := by
  have h := Keeps.refl s
  unfold execFrameCommit
  refine .next ?_
  extract_lets k sl s0 s1 s2 u
  have h0 : Keeps s s0 := (h.toInst _).closeAbsences _
  have h1 : Keeps s s1 := h0.foldl _ _ fun _ _ _ => (Keeps.refl _).commitRegion _ _ _
  clear_value s1
  have h2 : Keeps s s2 := h1.onFirn _
  exact .ite h (.ite h2 ((h2.setIxe _ _).countFrames _ _))

theorem execLineWrite_keeps (r : RgnIx) : OutKeeps s (execLineWrite r s) := by
  have h := Keeps.refl s
  unfold execLineWrite
  refine .next ?_
  split
  · exact h
  · exact (h.issueFull _ _ _).putChain _ _

theorem execStoreWriteFailure_keeps (r : RgnIx) : OutKeeps s (execStoreWriteFailure r s) := by
  have h := Keeps.refl s
  unfold execStoreWriteFailure
  refine .next ?_
  split; · exact h
  next w _ =>
  extract_lets i sc gone chain held us s1 s2 s3
  have h1 : Keeps s s1 := (((h.damage _ _).cbump _).modRgn _ _).modExt _ _ _
  have h2 : Keeps s s2 := by
    dsimp only [s2]
    cases chain with
    | none => exact h1
    | some c =>
      dsimp only
      split
      · split
        · next e => exact (h1.chainExtent e).putChain _ _
        · exact h1.putChain _ _
      · exact h1.putChain _ _
  have h3 : Keeps s s3 := by
    dsimp only [s3]
    split
    · exact h2
    · split
      · split
        · next e => exact (h2.chainExtent e).putChain _ _
        · exact h2
      · exact h2
  exact h3.foldl _ _ fun _ _ _ => (Keeps.refl _).putCrev _ _ _

theorem execPinClear_keeps (k : CoreIx) : OutKeeps s (execPinClear k s) := by
  have h := Keeps.refl s
  unfold execPinClear
  refine .next ?_
  split
  · exact h.clearPin _
  · exact Keeps.ite (h.coreRead _ _) (Keeps.ite (h.clearPin _) h)

theorem execLineReadReturn_keeps (r : RgnIx) (raw : RawLine) : OutKeeps s (execLineReadReturn r raw s) := by
  have h := Keeps.refl s
  unfold execLineReadReturn
  refine .next ?_
  split
  · exact h
  · exact Keeps.ite h ((((((h.lineStatus _ _).modRgn _ _).cset _ _).noteStatus _ _).deliver _ _ _ _).acceptReads _ _)

theorem execFirnInitDone_keeps : OutKeeps s (execFirnInitDone s) := by
  have h := Keeps.refl s
  unfold execFirnInitDone
  refine .next ?_
  extract_lets s1 late k done
  have h0 : Keeps s { s with firn := {} } := by
    refine ⟨fun hf => ?_, h.pending, h.tick, h.free⟩
    obtain ⟨hcreg, hfreg, -, -, hcram⟩ := hf
    exact ⟨hcreg, hfreg, trivial, trivial, hcram⟩
  exact .ite h (((h0.cset _ _).onFirn _).claim _ _ _)

theorem execDecisionPoint_keeps (corrected : Nat) (badHistories : List (Fin 16)) (badRequests : List (Fin 64)) : OutKeeps s
    (execDecisionPoint corrected badHistories badRequests s) := by
  have h := Keeps.refl s
  unfold execDecisionPoint
  refine .next ?_
  extract_lets k f bad s0 eval nu sq tn v z early d1 rq d2 d3 ds s4 prim
  have h0 : Keeps s s0 := (h.toInst _).trgUpsets _ _ _
  have hnu : Keeps s nu.1 := .ite1 (h0.nativeUnits _) h0
  have hsq : Keeps s sq.1 := .ite1 (hnu.sequencer _ _) hnu
  have htn : Keeps s tn.1 := .ite1 (hsq.tinCandidates _) hsq
  have h3 : Keeps s d3.1 := ((htn.decideAll _ _).takeRequests.decideRequests _ _).decideAll _ _
  clear_value d3
  exact .ite h ((h3.onTm _).modTrg _)

theorem execPrimQueued_keeps : OutKeeps s (execPrimQueued s) := by
  have h := Keeps.refl s
  unfold execPrimQueued
  refine .next ?_
  split
  · exact h
  · exact (h.enqueueAll _ _ _).modTrg _

theorem execCoreReadoutStart_keeps (k : CoreIx) : OutKeeps s (execCoreReadoutStart k s) := by
  have h := Keeps.refl s
  unfold execCoreReadoutStart
  refine .next ?_
  split
  · exact h
  · exact Keeps.ite h ((h.coreAdvance _ _ _).paceAll _ _)

theorem execCoreComplete_keeps (k : CoreIx) : OutKeeps s (execCoreComplete k s) := by
  have h := Keeps.refl s
  unfold execCoreComplete
  refine .next ?_
  split; · exact h
  extract_lets s1
  have h1 : Keeps s s1 := .ite h (h.coreRead _ _)
  split; · exact h
  split
  exacts [h1, ((Keeps.ite h1 (h1.setCore _ _)).coreFeed _).freeSlot _]

theorem execLaneFrame_keeps (l : Fin 32) : OutKeeps s (execLaneFrame l s) := by
  have h := Keeps.refl s
  unfold execLaneFrame
  refine .next ?_
  dsimp only
  split
  · exact h
  · split
    · exact (h.toInst _).boundary
    · exact Keeps.ite (((h.toInst _).boundary).modUpl _) ((h.toInst _).boundary)

theorem execSchedulerChoice_keeps (g : GrpIx) (corrected badWord : List WordErr) : OutKeeps s
    (execSchedulerChoice g corrected badWord s) := by
  have h := Keeps.refl s
  unfold execSchedulerChoice
  refine .next ?_
  extract_lets r
  have hr : Keeps s r.1 := h.pickQueue _ _ _
  split; · exact h
  split; · exact hr.handFill _
  extract_lets i
  split; · exact hr.handFill _
  extract_lets d s1 s2 r2
  have h1 : Keeps s s1 := hr.onlyWhen _ _ fun _ => (Keeps.refl _).cbump _
  have h2 : Keeps s r2.1 := ((((h1.dropHead _ _).cbump _).cset _ _).pickQueue _ _ _)
  split
  · split; · exact (h2.handFill _).feedWriters
    split
    exacts [(h2.handFill _).feedWriters, (h2.handFrame _ _ _ _).feedWriters]
  · exact (h1.handFrame _ _ _ _).feedWriters

theorem execQueueStale_keeps (g : GrpIx) (q : QIx) : OutKeeps s (execQueueStale g q s) := by
  have h := Keeps.refl s
  unfold execQueueStale
  refine .next ?_
  dsimp only
  split
  · exact h
  · exact Keeps.ite h ((((h.setQueue _ _ _).pushWhole _ _ _ _).cbump _).cset _ _)

theorem execFetchTrap_keeps (addr : BitVec 20) : OutKeeps s (execFetchTrap addr s) := by
  have h := Keeps.refl s
  unfold execFetchTrap
  refine .next ?_
  extract_lets i s0 s1 again
  have h1 : Keeps s s1 := by
    refine Keeps.cbump ?_ _
    dsimp only [s0]
    split
    exacts [h.cramUnc _, h]
  exact .ite h (.ite (h.violation _ _ _ _) (.ite h1.serviceReset (((h1.reloadPage _).onSp _).logBit _ _ _ _)))

theorem execCramScrub_keeps (ecc : EccStatus) (rewritten : Bool) : OutKeeps s (execCramScrub ecc rewritten s) := by
  have h := Keeps.refl s
  unfold execCramScrub
  refine .next ?_
  extract_lets i bad s1 s2
  have h1 : Keeps s s1 := by
    dsimp only [s1]
    split
    exacts [h, .ite ((h.cramUnc _).onSp _) (.ite (h.cbump _) h)]
  exact .ite (h1.onSp _) (((h1.cset _ _).cwrap _ _).onSp _)

theorem execMailboxTake_keeps : OutKeeps s (execMailboxTake s) := by
  have h := Keeps.refl s
  unfold execMailboxTake
  refine .next ?_
  split; · exact h
  next w0 _ _ =>
  extract_lets x len bs s1 svc cmd tag blen g
  have h1 : Keeps s s1 := (h.modUpl _).showInbound
  split; · exact h1.sendReply _ _ _ _ _ _
  split; · exact h1.sendReply _ _ _ _ _ _
  split
  · next e => exact h1.preReply e
  · exact .ite (h1.reply _ _ _ _ _ _) (h1.onSp _)

theorem execReadCmd_keeps (lane : Fin 8) (tag : BitVec 16) (body : List Byte) : OutKeeps s (execReadCmd lane tag body s) := by
  unfold execReadCmd
  refine .next ((Keeps.refl s).mailServe _ _ _ _ _ fun z => ?_)
  have hz := Keeps.refl z
  extract_lets g a n top r
  have hr : Keeps z r.2.2 := hz.regRead _ _ _
  split; · exact hz.reply _ _ _ _ _ _
  split
  exacts [hr.reply _ _ _ _ _ _, hr.reply _ _ _ _ _ _]

theorem execWriteCmd_keeps (lane : Fin 8) (tag : BitVec 16) (body : List Byte) : OutKeeps s (execWriteCmd lane tag body s) := by
  unfold execWriteCmd
  refine .next ((Keeps.refl s).mailServe _ _ _ _ _ fun z => ?_)
  have hz := Keeps.refl z
  extract_lets g a n top r
  have hr : Keeps z r.2 := hz.regWrite _ _ _ _ _
  split; · exact hz.reply _ _ _ _ _ _
  split
  exacts [hr.reply _ _ _ _ _ _, hr.reply _ _ _ _ _ _]

theorem execGuardSet_keeps (lane : Fin 8) (tag : BitVec 16) (body : List Byte) (pwOk : Bool) : OutKeeps s
    (execGuardSet lane tag body pwOk s) := by
  unfold execGuardSet
  refine .next (.ite (Keeps.refl s) ((Keeps.refl s).mailServe _ _ _ _ _ fun z => ?_))
  have hz := Keeps.refl z
  extract_lets ans c
  have ha {y : State} (n : Nat) (hy : Keeps z y) : Keeps z (ans y n) := hy.reply _ _ _ _ _ _
  split; · exact ha _ hz
  next l _ =>
  extract_lets n ps z1 z2
  have hc : Keeps z c.1 := hz.passwordCheck _
  have h2 : Keeps z z2 := (hc.foldl _ _ fun _ _ _ => (Keeps.refl _).guardWrite _ _ _).opGcommit _
  exact .ite (ha _ hz) (.ite (ha _ hz) (.ite (ha _ hc) (ha _ (h2.newContainer _))))

theorem execSetpw_keeps (lane : Fin 8) (tag : BitVec 16) (body : List Byte) (pwOk : Bool) (salt verifier : List Byte) : OutKeeps s
    (execSetpw lane tag body pwOk salt verifier s) := by
  unfold execSetpw
  refine .next (.ite (Keeps.refl s) ((Keeps.refl s).mailServe _ _ _ _ _ fun z => ?_))
  have hz := Keeps.refl z
  extract_lets ans held
  have ha {y : State} (n : Nat) (hy : Keeps z y) : Keeps z (ans y n) := hy.reply _ _ _ _ _ _
  split; · exact ha _ hz
  next l _ =>
  extract_lets rest c z1 z2
  split; · exact ha _ hz
  next k _ =>
  have hc : Keeps z c.1 := .ite1 hz (hz.passwordCheck _)
  have h2 : Keeps z z2 := (((hc.opGcommit _).modPro _).cset _ _).logAdd _
  exact .ite (ha _ hz) (.ite (ha _ hz) (.ite (ha _ hc) (ha _ (h2.newContainer _))))

theorem execGuardReset_keeps (lane : Fin 8) (tag : BitVec 16) (body : List Byte) (pwOk : Bool) (outs : List OutRead) : OutKeeps s
    (execGuardReset lane tag body pwOk outs s) := by
  unfold execGuardReset
  refine .next (.ite (Keeps.refl s) ((Keeps.refl s).mailServe _ _ _ _ _ fun z => ?_))
  have hz := Keeps.refl z
  extract_lets ans c
  have ha {y : State} (n : Nat) (hy : Keeps z y) : Keeps z (ans y n) := hy.reply _ _ _ _ _ _
  split; · exact ha _ hz
  next l _ =>
  have hc : Keeps z c.1 := hz.passwordCheck _
  exact .ite (ha _ hz) (.ite (ha _ hz) (.ite (ha _ ((hc.opGcommit _).guardReset _)) (ha _ hc)))

theorem execImgData_keeps (lane : Fin 8) (tag : BitVec 16) (body : List Byte) : OutKeeps s (execImgData lane tag body s) := by
  unfold execImgData
  refine .next ((Keeps.refl s).mailServe _ _ _ _ _ fun z => ?_)
  have hz := Keeps.refl z
  dsimp only
  split; · exact hz.updReply _ _ _ _ _
  exact .ite (hz.updReply _ _ _ _ _) ((hz.imgPut _).updReply _ _ _ _ _)

theorem execCfgData_keeps (lane : Fin 8) (tag : BitVec 16) (body : List Byte) : OutKeeps s (execCfgData lane tag body s) := by
  unfold execCfgData
  refine .next ((Keeps.refl s).mailServe _ _ _ _ _ fun z => ?_)
  have hz := Keeps.refl z
  split; · exact hz.updReply _ _ _ _ _
  exact .ite (hz.updReply _ _ _ _ _) ((hz.modNvm _).updReply _ _ _ _ _)

theorem execCfgCommit_keeps (lane : Fin 8) (tag : BitVec 16) (body : List Byte) : OutKeeps s (execCfgCommit lane tag body s) := by
  unfold execCfgCommit
  refine .next ((Keeps.refl s).mailServe _ _ _ _ _ fun z => ?_)
  have hz := Keeps.refl z
  split; · exact hz.updReply _ _ _ _ _
  split; · exact hz.updReply _ _ _ _ _
  have h1 := hz.modNvm fun v => { v with cfgBuf := none }
  dsimp only
  split; · exact h1.updReply _ _ _ _ _
  exact .ite (h1.updReply _ _ _ _ _) ((h1.newContainer _).startLong _ _ _ _ _ _)

theorem execLogRead_keeps (lane : Fin 8) (tag : BitVec 16) (body : List Byte) : OutKeeps s (execLogRead lane tag body s) := by
  unfold execLogRead
  refine .next ((Keeps.refl s).mailServe _ _ _ _ _ fun z => ?_)
  have hz := Keeps.refl z
  extract_lets n z1
  have h1 : Keeps z z1 := hz.foldl _ _ fun y i _ => by
    split
    exacts [(Keeps.refl y).enqueueAll _ _ _, Keeps.refl y]
  exact .ite (hz.reply _ _ _ _ _ _) (h1.reply _ _ _ _ _ _)

theorem execMoverFetch_keeps (c : MvIx) (ecc : EccStatus) : OutKeeps s (execMoverFetch c ecc s) := by
  have h := Keeps.refl s
  unfold execMoverFetch
  refine .next ?_
  extract_lets a s0 r s1
  have h0 : Keeps s s0 := by
    dsimp only [s0]
    split
    exacts [h, h.cbump _, h.cramUnc _]
  have hr : Keeps s r.2.2 := h0.mvReadDesc _ _ _
  have h1 : Keeps s s1 := hr.modMch _ _
  exact .ite h (.ite hr (.ite (h1.mvHalt _ _) (h1.mvChecked _)))

theorem execQemptyTimeout_keeps (c : MvIx) : OutKeeps s (execQemptyTimeout c s) := by
  have h := Keeps.refl s
  unfold execQemptyTimeout
  refine .next ?_
  split
  · exact h
  · exact Keeps.ite (h.mvHalt _ _) h

theorem execBkThawTimer_keeps : OutKeeps s (execBkThawTimer s) := by
  have h := Keeps.refl s
  unfold execBkThawTimer
  refine .next ?_
  split
  · exact Keeps.ite (h.thawMaster _) h
  · exact h

theorem execConfigApply_keeps (c0 c1 : List Byte) : OutKeeps s (execConfigApply c0 c1 s) := by
  have h := Keeps.refl s
  unfold execConfigApply
  refine .next ?_
  dsimp only
  split
  · exact h
  · split
    · exact ((h.modNvm _).modGlb _).cset _ _
    · exact (((h.modNvm _).modGlb _).cset _ _).applyAll _

theorem execServiceSoftReset_keeps : OutKeeps s (execServiceSoftReset s) := by
  have h := Keeps.refl s
  unfold execServiceSoftReset
  refine .next ?_
  split
  · exact Keeps.ite h.serviceReset h
  · exact h

theorem execTransitionComplete_keeps : OutKeeps s (execTransitionComplete s) := by
  have h := Keeps.refl s
  unfold execTransitionComplete
  refine .next ?_
  split
  · exact h
  · exact Keeps.ite (Keeps.ite h (((Keeps.ite h.disarmUnit h).enterState _).actHeld)) (Keeps.ite (Keeps.ite h ((Keeps.ite
        (((h.enterState _).cset _ _).armUnit) (h.enterState _)).actHeld)) (Keeps.ite (Keeps.ite h ((h.goDark.enterState _).actHeld))
        (((h.enterState _).goLight).actHeld)))

theorem execFeSoftReset_keeps (p : PortIx) : OutKeeps s (execFeSoftReset p s) := by
  have h := Keeps.refl s
  unfold execFeSoftReset
  refine .next ?_
  extract_lets s1 s2 s3
  have h2 : Keeps s s2 := (h.flushFrame _).filterFreg _ _ _
  exact .ite h (((h2.modFe _ _).fset _ _ _).fbump _ _)

theorem execNvmProgramDone_keeps : OutKeeps s (execNvmProgramDone s) := by
  have h := Keeps.refl s
  unfold execNvmProgramDone
  refine .next ?_
  dsimp only
  split
  · exact h
  · split
    · exact Keeps.ite h.progDone (h.progDone.foldl _ _ fun _ _ _ => (Keeps.refl _).finishLong _ _ _)
    · exact h.progDone

theorem execUpdData_keeps (f : UpdFrame) (data : List Byte) : OutKeeps s (execUpdData f data s) := by
  have h := Keeps.refl s
  unfold execUpdData
  refine .next ?_
  split
  · exact h
  · exact Keeps.ite h (Keeps.ite (h.sendUpd _ _ _ _ _ _ _) (Keeps.ite (((h.imgPut _).sendUpd _ _ _ _ _ _ _).imgComplete)
        ((h.imgPut _).sendUpd _ _ _ _ _ _ _)))

theorem execUpdFrameActivate_keeps (f : UpdFrame) : OutKeeps s (execUpdFrameActivate f s) := by
  have h := Keeps.refl s
  unfold execUpdFrameActivate
  refine .next ?_
  dsimp only
  split
  · exact h
  · split
    · exact (h.modNvm _).haltHere _
    · exact Keeps.ite (((h.modNvm _).draw).haltHere _) (((h.modNvm _).draw).activate _ _ _)

theorem execHeartbeatSend_keeps : OutKeeps s (execHeartbeatSend s) := by
  have h := Keeps.refl s
  unfold execHeartbeatSend
  refine .next ?_
  extract_lets due
  have h1 : Keeps s (s.modTwin fun t => { t with hbSeq := (t.hbSeq + 1) % 2 ^ 32, hbTick := some s.tm.tick }) := h.modTwin _
  exact .ite h (h1.same rfl)

theorem execDualResolve_keeps : OutKeeps s (execDualResolve s) := by
  have h := Keeps.refl s
  unfold execDualResolve
  refine .next ?_
  dsimp only
  split
  · exact h
  · exact Keeps.ite ((h.toStandby.cset _ _).logBit _ _ _ _) h

theorem execTakeoverStoreStart_keeps : OutKeeps s (execTakeoverStoreStart s) := by
  have h := Keeps.refl s
  unfold execTakeoverStoreStart
  refine .next ?_
  split
  · split
    · exact Keeps.ite h (h.modTwin _)
    · exact Keeps.ite h ((((h.cbump _).cset _ _).onlyWhen _ _ fun _ => (Keeps.refl _).cset _ _).storeFromFrame _ _ _ _)
    · split
      · exact h
      · exact Keeps.ite ((h.cbump _).modTwin _) (((((h.cbump _).cset _ _).modTwin _).cset _ _).lostRecords _ _ _)
    · exact h
  · split
    · split
      · exact Keeps.ite ((h.toTaking _).storeFromFrame _ _ _ _) h
      · exact h
    · exact h

theorem execTakeoverComplete_keeps : OutKeeps s (execTakeoverComplete s) := by
  have h := Keeps.refl s
  unfold execTakeoverComplete
  refine .next ?_
  split
  · exact h
  · split
    · exact h.cset _ _
    · exact (h.applyRun.cset _ _).cbump _
    · exact ((h.cset _ _).raise _).logBit _ _ _ _
    · exact ((h.applyRun.cset _ _).raise _).logBit _ _ _ _

theorem execSeedTimeout_keeps : OutKeeps s (execSeedTimeout s) := by
  have h := Keeps.refl s
  unfold execSeedTimeout
  refine .next ?_
  split
  · exact Keeps.ite h.rejectSeed h
  · exact h

theorem execStandbyPatternTest_keeps (raw : List RawLine) : OutKeeps s (execStandbyPatternTest raw s) := by
  have h := Keeps.refl s
  unfold execStandbyPatternTest
  refine .next ?_
  extract_lets due r
  have hr : Keeps s r.2 := by
    refine Keeps.foldlSnd h _ _ fun z i => ?_
    exact (Keeps.refl _).patternLine _ _
  exact .ite h (hr.modTwin _)

theorem execSwitchStopStoring_keeps : OutKeeps s (execSwitchStopStoring s) := by
  have h := Keeps.refl s
  unfold execSwitchStopStoring
  refine .next ?_
  split
  · exact Keeps.ite ((h.foldl _ _ fun _ _ _ => ((Keeps.refl _).plEnter _ _).modPort _ _).modTwin _) h
  · exact h

theorem execDrainEnd_keeps : OutKeeps s (execDrainEnd s) := by
  have h := Keeps.refl s
  unfold execDrainEnd
  refine .next ?_
  split
  · exact Keeps.ite ((((((h.foldl _ _ fun _ _ _ =>
        (Keeps.refl _).releasePin _).calveSlices _).downlinksOn).toStandby).cbump _).endSwitch _) h
  · exact h

theorem execTemperatureSample_keeps (fe : Option PortIx) (k : SensIx) (quarterC : Option Int) (selfTestOk : Bool) : OutKeeps s
    (execTemperatureSample fe k quarterC selfTestOk s) := by
  have h := Keeps.refl s
  unfold execTemperatureSample
  refine .next ?_
  split
  · exact Keeps.ite (h.concSample _ _ _) h
  · exact Keeps.ite (h.feSample _ _ _ _) h

theorem execThrottleEnd_keeps (fe : Option PortIx) (k : SensIx) : OutKeeps s (execThrottleEnd fe k s) := by
  have h := Keeps.refl s
  unfold execThrottleEnd
  refine .next ?_
  split
  · exact Keeps.ite (h.throttleStop _) h
  · exact Keeps.ite (h.modFe _ _) h

theorem execThermalRestart_keeps : OutKeeps s (execThermalRestart s) := by
  have h := Keeps.refl s
  unfold execThermalRestart
  refine .next ?_
  split
  · exact Keeps.ite (h.modPro _) h
  · exact h

theorem execFeThermalRestart_keeps (p : PortIx) : OutKeeps s (execFeThermalRestart p s) := by
  have h := Keeps.refl s
  unfold execFeThermalRestart
  refine .next ?_
  split
  · exact Keeps.ite ((h.feReset _ _).modFe _ _) h
  · exact h

theorem execSupplyWarning_keeps (fe : Option PortIx) : OutKeeps s (execSupplyWarning fe s) := by
  have h := Keeps.refl s
  unfold execSupplyWarning
  refine .next ?_
  split
  · exact Keeps.ite ((h.cset _ _).modPro _) (h.cset _ _)
  · exact ((h.fset _ _ _).modFacts _ _).modFe _ _

theorem execDipEnd_keeps (fe : Option PortIx) (us : Nat) : OutKeeps s (execDipEnd fe us s) := by
  have h := Keeps.refl s
  unfold execDipEnd
  refine .next ?_
  split
  · split
    · exact h
    · exact (((((h.cset _ _).cset _ _).modPro _).cbump _).cset _ _).logBit _ _ _ _
  · exact Keeps.ite h ((((h.fset _ _ _).fset _ _ _).fbump _ _).modFe _ _)

theorem execSupplyReset_keeps (fe : Option PortIx) : OutKeeps s (execSupplyReset fe s) := by
  have h := Keeps.refl s
  unfold execSupplyReset
  refine .next ?_
  split
  · exact h.cold.modPro _
  · exact h.feReset _ _

theorem execPowerGood_keeps (fe : Option PortIx) : OutKeeps s (execPowerGood fe s) := by
  have h := Keeps.refl s
  unfold execPowerGood
  refine .next ?_
  split
  · exact Keeps.ite h (h.modPro _)
  · exact Keeps.ite h (h.feReset _ _)

theorem execWriteAcknowledged_keeps (r : RgnIx) : OutKeeps s (execWriteAcknowledged r s) := by
  have h := Keeps.refl s
  unfold execWriteAcknowledged
  refine .next ?_
  split
  · exact h
  · exact (h.modRgn _ _).modFirn _ (fun hl => rising_tins hl _ _) id

theorem execLongCommandComplete_keeps (results : List (BitVec 27 × BitVec 16 × W32 × W32)) : OutKeeps s
    (execLongCommandComplete results s) := by
  have h := Keeps.refl s
  unfold execLongCommandComplete
  refine .next ?_
  split
  · exact h
  · exact Keeps.ite h (Keeps.ite (h.calComplete _ _) (h.histComplete _))

theorem execMonSummary_keeps : OutKeeps s (execMonSummary s) := by
  have h := Keeps.refl s
  unfold execMonSummary
  refine .next ?_
  split
  · exact Keeps.ite h ((h.draw.sendMon _).onSp _)
  · exact h

/-- Every command keeps the form of the tables, the queue, and the order of the two counts. -/
theorem exec_keeps (i : Instr) (s : State) : OutKeeps s (exec i s) := by
  have h := Keeps.refl s
  cases i with
  | frameTick => exact .next (h.tickTo _)
  | registerWrite _ _ _ => exact .next (h.guarded _ _ _ _ _ (fun _ => ((Keeps.refl _).busWrite _ _ _).answered _))
  | lowWordRead _ => exact execLowWordRead_keeps _
  | timNowRead _ => exact .next (h.guarded _ _ _ _ _ (fun _ => ((Keeps.refl _).readReg _ _).answer _ _ _))
  | ptpSync _ _ _ _ _ _ => exact .next (Keeps.ite h (Keeps.ite (h.syncMeasured _ _) (h.modPtp _ _)))
  | ptpFollowUp _ _ _ _ => exact execPtpFollowUp_keeps _ _ _ _
  | ptpDelayResp _ _ _ _ => exact execPtpDelayResp_keeps _ _ _ _
  | ptpAnnounce _ _ => exact .next (Keeps.ite h (Keeps.ite ((((h.modPtp _ _).reselect).cset _ _).cset _ _) ((h.modPtp _ _).reselect)))
  | ptpManagement _ => exact .next (Keeps.ite (h.modPtp _ _) h)
  | delayReqSend _ _ => exact execDelayReqSend_keeps _ _
  | announceTimeout _ => exact .next ((h.modPtp _ _).reselect)
  | ptpLoss => exact execPtpLoss_keeps
  | delayRespTimeout _ => exact .next (Keeps.ite h (Keeps.ite ((h.modPtp _ _).portLost _) (h.modPtp _ _)))
  | pendingStepDrop => exact .next (Keeps.ite ((h.cset _ _).onTm _) h)
  | stepApply _ _ => exact .next (h.guarded _ _ _ _ _ (fun _ => ((Keeps.refl _).opTimStep _).answer _ _ _))
  | stepWithdraw _ _ => exact .next (h.guarded _ _ _ _ _ (fun _ => ((Keeps.refl _).opTimStep _).answer _ _ _))
  | stepValWrite _ _ => exact .next (h.guarded _ _ _ _ _ (fun _ => ((Keeps.refl _).opStepVal _ _).answer _ _ _))
  | wholeFrameStep => exact execWholeFrameStep_keeps
  | refLoss => exact .next (Keeps.ite h ((((h.cset _ _).cset _ _).cset _ _).qualWithoutRef))
  | refReturn _ => exact .next (Keeps.ite h (Keeps.ite ((h.cset _ _).refuseStep _) ((h.cset _ _).onTm _)))
  | ppsEdge _ _ => exact .next (Keeps.ite h (Keeps.ite h.ppsMissed (h.ppsGood _)))
  | ppsMiss => exact .next (Keeps.ite h h.ppsMissed)
  | echoAverage _ => exact .next (Keeps.ite h (Keeps.ite (Keeps.ite (((((h.modPort _ _).cset _ _).onlyWhen _ _ fun _ =>
        ((Keeps.refl _).cset _ _).cbump _).cset _ _).plFail _ _ _) ((((h.modPort _ _).cset _ _).onlyWhen _ _ fun _ =>
        ((Keeps.refl _).cset _ _).cbump _).cset _ _)) (((((h.modPort _ _).cset _ _).onlyWhen _ _ fun _ =>
        ((Keeps.refl _).cset _ _).cbump _).cset _ _).modPort _ _)))
  | suspect _ => exact .next (Keeps.ite (((h.cset _ _).cset _ _).onlyWhen _ _ fun _ => (Keeps.refl _).monNotice _) h)
  | suspectClear _ => exact .next (Keeps.ite (h.cset _ _) h)
  | tinEdge _ _ _ _ => exact execTinEdge_keeps _ _ _ _
  | toutArm _ _ _ => exact .next (h.guarded _ _ _ _ _ (fun _ => ((Keeps.refl _).opTout _ _).answer _ _ _))
  | toutDisarm _ _ _ => exact .next (h.guarded _ _ _ _ _ (fun _ => ((Keeps.refl _).opTout _ _).answer _ _ _))
  | toutFire _ => exact .next (Keeps.ite (Keeps.ite ((((h.toInst _).modTout _ _).cset _ _).cset _ _) ((h.toInst _).modTout _ _)) h)
  | toutPulseEnd _ => exact .next (Keeps.ite ((h.toInst _).modTout _ _) h)
  | leadingEdge _ _ _ _ => exact execLeadingEdge_keeps _ _ _ _
  | fineTimeReady _ _ _ => exact execFineTimeReady_keeps _ _ _
  | validationDecided _ _ _ => exact execValidationDecided_keeps _ _ _
  | trailingEdge _ _ _ => exact .next (Keeps.ite (h.toInst _) (Keeps.ite ((h.toInst _).setCh _ _ _) (Keeps.ite
        ((h.toInst _).setCh _ _ _) (Keeps.ite (((h.toInst _).setCh _ _ _).modFacts _ _) ((h.toInst _).setCh _ _ _)))))
  | totSaturation _ _ => exact .next (h.modCh _ _ _)
  | busyEnd _ _ => exact execBusyEnd_keeps _ _
  | hitFinal _ _ _ => exact execHitFinal_keeps _ _ _
  | calibrationPair _ _ _ _ _ _ => exact .next (Keeps.ite (h.toInst _) (Keeps.ite ((h.toInst _).setCh _ _ _) (Keeps.ite
        ((h.toInst _).setCh _ _ _) (h.toInst _))))
  | interpolatorReady _ _ _ => exact .next (Keeps.ite (h.setCh _ _ _) h)
  | scheduledSwap _ _ => exact .next (Keeps.ite h (Keeps.ite (h.setCh _ _ _) (Keeps.ite (h.setCh _ _ _) h)))
  | pairStale _ _ _ => exact .next (Keeps.ite (h.setCh _ _ _) h)
  | channelEnable _ _ _ _ _ => exact .next (h.fePortWrite _ _ _ _ _)
  | channelDisable _ _ _ _ _ => exact .next (h.fePortWrite _ _ _ _ _)
  | cdSample _ _ _ _ => exact .next (Keeps.ite h ((h.setBlk _ _ _).fset _ _ _))
  | cdTableCompute _ _ => exact .next (Keeps.ite h (((h.setBlk _ _ _).fset _ _ _).fadd _ _ _))
  | cdTableInstall _ _ => exact .next (((h.foldl _ _ fun _ _ _ => (Keeps.refl _).modCh _ _ _).setBlk _ _ _).fadd _ _ _)
  | binTableReset _ _ _ => exact .next (h.modCh _ _ _)
  | teCalPair _ _ _ _ _ => exact .next (Keeps.ite (h.toInst _) ((h.toInst _).setCh _ _ _))
  | gateChange _ => exact execGateChange_keeps _
  | gatePinEdge _ _ _ => exact .next (Keeps.ite ((((h.toInst _).gateDrain _ _).pinGlitch _ _).gatePend _ _ _ _ _ _) (h.toInst _))
  | gateModeWrite _ _ _ _ => exact .next (h.fePortWrite _ _ _ _ _)
  | testPulseInject _ => exact execTestPulseInject_keeps _
  | chcntDataRead _ _ => exact .next (h.feRequest _ _ _)
  | adcConversionStart _ _ _ => exact execAdcConversionStart_keeps _ _ _
  | adcResult _ _ _ _ _ _ => exact execAdcResult_keeps _ _ _ _ _ _
  | spareRotation _ _ => exact .next (Keeps.ite h ((h.setBlk _ _ _).fset _ _ _))
  | sliceCalibrationDone _ _ _ _ => exact execSliceCalibrationDone_keeps _ _ _ _
  | sliceReturn _ _ _ _ => exact .next (h.fePortWrite _ _ _ _ _)
  | wakeSliceCalibration _ => exact .next (Keeps.ite ((h.modFe _ _).foldl _ _ fun _ _ _ => Keeps.ite (Keeps.refl _)
        ((Keeps.refl _).sliceCal _ _ _ _ _)) h)
  | monScanTimer _ => exact .next (Keeps.ite h (h.modMon _ _))
  | monInjectionDelay _ => exact execMonInjectionDelay_keeps _
  | monConversion _ _ _ => exact execMonConversion_keeps _ _ _
  | monCommit _ _ => exact execMonCommit_keeps _ _
  | complianceTrip _ _ => exact .next (Keeps.ite (h.modMon _ _) h)
  | monStale _ _ => exact .next (Keeps.ite (((h.fset _ _ _).fset _ _ _).monCompare _ _ _ _ _) h)
  | regionSweep _ => exact .next ((h.modFe _ _).foldl _ _ fun _ _ _ => (Keeps.refl _).showOcc _ _)
  | mergerChoice _ _ _ _ => exact execMergerChoice_keeps _ _ _ _
  | cutoff _ => exact .next (Keeps.ite (h.mergerReady _)
        (((((h.mergerReady _).modMerger _ _).fadd _ _ _).modFe _ _).foldl _ _ fun _ _ _ => Keeps.ite ((Keeps.refl _).dropRest _ _)
        (Keeps.refl _)))
  | recordTake _ _ => exact .next (Keeps.ite (((h.mergerReady _).modFe _ _).foldl _ _ fun _ _ _ =>
        ((Keeps.refl _).slotBegin _ _).injectRecord _ _ _) (h.onSlot _ _ (fun _ => (Keeps.ite ((Keeps.refl _).closeSlot _)
        (Keeps.refl _)).foldl _ _ fun _ _ _ => (((Keeps.refl _).slotWord _ _ _).putSlot _ _ _ _).injectRecord _ _ _)))
  | scrubVisit _ _ => exact .next (Keeps.ite ((h.takeUpsets _ _).scrubWord _ _)
        ((((((h.takeUpsets _ _).scrubWord _ _).fset _ _ _).fset _ _ _).fwrap _ _ _).modFe _ _))
  | nop _ _ _ => exact execNop_keeps _ _ _
  | gateOpen _ _ _ => exact execGateOpen_keeps _ _ _
  | gateClose _ _ _ => exact execGateClose_keeps _ _ _
  | pulse _ _ _ => exact execPulse_keeps _ _ _
  | scan _ _ _ => exact execScan_keeps _ _ _
  | flush _ _ _ => exact execFlush_keeps _ _ _
  | flushEffect _ => exact .next (Keeps.ite (h.flushFrame _) h)
  | standby _ _ _ => exact execStandby_keeps _ _ _
  | wake _ _ _ => exact execWake_keeps _ _ _
  | fePowerChange _ => exact execFePowerChange_keeps _
  | standbyPowerDown _ => exact .next (Keeps.ite (h.modFe _ _) h)
  | wakingEnd _ => exact .next (Keeps.ite ((h.fset _ _ _).modFacts _ _) h)
  | claim _ _ _ => exact execClaim_keeps _ _ _
  | fastCommandInvalid _ _ _ => exact execFastCommandInvalid_keeps _ _ _
  | syncSet _ _ _ => exact execSyncSet_keeps _ _ _
  | linkResetEnd _ _ => exact .next (Keeps.ite ((h.modLink _ _ _).onlyWhen _ _ fun _ => (Keeps.refl _).fset _ _ _) h)
  | requestCodeword _ _ _ _ _ => exact execRequestCodeword_keeps _ _ _ _ _
  | readRequest _ _ _ => exact .next (h.feRequest _ _ _)
  | writeRequest _ _ _ => exact .next (h.feRequest _ _ _)
  | postedWriteRequest _ _ _ => exact .next (h.feRequest _ _ _)
  | responseReceived _ _ => exact execResponseReceived_keeps _ _
  | requestTimeout _ _ => exact execRequestTimeout_keeps _ _
  | proxyAccess _ _ _ => exact .next (Keeps.ite h (h.guarded _ _ _ _ _ (fun _ => (Keeps.refl _).proxyRequest _ _ _)))
  | recordCodeword _ _ _ _ _ _ => exact execRecordCodeword_keeps _ _ _ _ _ _
  | slotStartSet _ _ _ _ _ => exact execSlotStartSet_keeps _ _ _ _ _
  | echoSet _ _ _ _ _ _ _ => exact execEchoSet_keeps _ _ _ _ _ _ _
  | uplinkSignalDetect _ => exact .next (Keeps.ite (h.plEnter _ _) h)
  | lockAchieved _ => exact .next (Keeps.ite (h.plEnter _ _) h)
  | alignAchieved _ => exact execAlignAchieved_keeps _
  | negotiateDone _ _ _ => exact execNegotiateDone_keeps _ _ _
  | phaseVerify _ => exact execPhaseVerify_keeps _
  | configCrcCheck _ _ _ => exact .next (Keeps.ite h (Keeps.ite ((h.cset _ _).plRun _) (Keeps.ite
        (((h.cset _ _).goldPush _).modPort _ _) ((h.cset _ _).plFail _ _ _))))
  | linkStateTimeout _ => exact .next (Keeps.ite h (Keeps.ite ((h.modPort _ _).onlyWhen _ _ fun _ => (Keeps.refl _).cset _ _)
        (h.plFail _ _ _)))
  | equaliserStep _ _ _ => exact .next (Keeps.ite (Keeps.ite (h.fset _ _ _) h) (Keeps.ite (Keeps.ite ((h.modPort _ _).cset _ _)
        ((h.modPort _ _).cset _ _)) h))
  | uplinkSignalLoss _ => exact .next (Keeps.ite h (h.plExit _ _ _))
  | downlinkClockLoss _ _ => exact .next (Keeps.ite h (Keeps.ite (h.modLink _ _ _) ((h.modLink _ _ _).feFall _ _ _)))
  | retry _ _ _ => exact .next (h.guarded _ _ _ _ _ (fun _ => ((Keeps.refl _).opPlCtrl _ _ _).answered _))
  | test _ _ _ => exact .next (h.guarded _ _ _ _ _ (fun _ => ((Keeps.refl _).opPlCtrl _ _ _).answered _))
  | prbsStart _ _ _ => exact .next (h.fePortWrite _ _ _ _ _)
  | testEnd _ _ _ => exact .next ((h.onlyWhen _ _ fun _ => (Keeps.refl _).testEndFe _ _ _ _).onlyWhen _ _ fun _ =>
        (Keeps.refl _).testEndPort _ _ _)
  | prbsInject _ _ _ => exact .next (h.fePortWrite _ _ _ _ _)
  | plInject _ _ _ => exact .next (h.guarded _ _ _ _ _ (fun _ => ((Keeps.refl _).opPlInj _ _ _).answered _))
  | goldenCheck _ _ _ => exact .next (Keeps.ite h (Keeps.ite (h.modPort _ _) (Keeps.ite
        ((((h.modPort _ _).cbump _).cset _ _).modPort _ _) (Keeps.ite ((((h.modPort _ _).cbump _).cset _ _).modPort _ _)
        ((((((((h.modPort _ _).cbump _).cset _ _).modPort _ _).cset _ _).cbump _).goldPush _).monNotice _)))))
  | lateLimit => exact execLateLimit_keeps
  | alignedRelease _ => exact execAlignedRelease_keeps _
  | mergeUpset _ _ => exact .next (((((h.cbump _).cset _ _).foldl _ _ fun _ _ _ => (Keeps.refl _).abandon _ _).onlyWhen _ _ fun _ =>
        (Keeps.refl _).modRgn _ _).monNotice _)
  | sumsPresented _ => exact .next (Keeps.ite h ((((((h.toInst _).foldl _ _ fun _ _ _ =>
        ((Keeps.refl _).cset _ _).cset _ _).foldl _ _ fun _ _ _ => (((Keeps.refl _).cset _ _).cset _ _).onlyWhen _ _ fun _ =>
        ((Keeps.refl _).cbump _).cset _ _).cset _ _).cset _ _).modTrg _))
  | hazelCode _ _ => exact .next (Keeps.ite h (Keeps.ite ((((((h.modRx _ _ _).cset _ _).cset _ _).cwrap _ _).cwrap _ _).toMerge _)
        (Keeps.ite (((((((h.modRx _ _ _).cset _ _).cset _ _).cwrap _ _).cwrap _ _).cbump _).toMerge _)
        ((((((h.modRx _ _ _).cset _ _).cset _ _).cwrap _ _).cwrap _ _).modPort _ _))))
  | hazelVerify _ _ => exact execHazelVerify_keeps _ _
  | unitHandover _ _ => exact execUnitHandover_keeps _ _
  | spillPoint _ => exact .next ((h.toInst _).spillTurns _ _ _ _ _)
  | sliceClaim => exact .next (Keeps.ite (h.claim _ _ _) h)
  | frameCommit => exact execFrameCommit_keeps
  | indexSnapshot _ _ _ => exact .next (h.guarded _ _ _ _ _ (fun _ => ((Keeps.refl _).opIxSel _ _ _).answered _))
  | lineWrite _ => exact execLineWrite_keeps _
  | writeRetry _ => exact .next (h.modRgn _ _)
  | storeWriteFailure _ => exact execStoreWriteFailure_keeps _
  | allocatorInspect _ => exact .next (Keeps.ite h (Keeps.ite (Keeps.ite (Keeps.ite ((h.cset _ _).releaseFor _ _ _) (h.cset _ _))
        (((Keeps.ite ((h.cset _ _).releaseFor _ _ _) (h.cset _ _)).takeReady _ _).refreshEdges)) (Keeps.ite (Keeps.ite ((((Keeps.ite
        ((h.cset _ _).releaseFor _ _ _) (h.cset _ _)).calveUpTo _).takeReady _ _).refreshEdges) ((Keeps.ite
        ((h.cset _ _).releaseFor _ _ _) (h.cset _ _)).calveUpTo _)) (Keeps.ite ((h.cset _ _).releaseFor _ _ _) (h.cset _ _)))))
  | pinClear _ => exact execPinClear_keeps _
  | lineRead _ _ => exact .next (Keeps.ite (h.modRgn _ _) (Keeps.ite (((h.modRgn _ _).cbump _).cset _ _) ((h.modRgn _ _).showReads _)))
  | lineReadReturn _ _ => exact execLineReadReturn_keeps _ _
  | firnScrubStep _ _ _ => exact .next (Keeps.ite (((h.lineStatus _ _).noteStatus _ _).scrubNext _) (h.scrubNext _))
  | extentSnapshot _ _ _ => exact .next (h.xtWrite _ _ _)
  | extentRetire _ _ _ => exact .next (h.xtWrite _ _ _)
  | extentReturn _ _ _ => exact .next (h.xtWrite _ _ _)
  | firnInitDone => exact execFirnInitDone_keeps
  | triggerArmWrite _ _ => exact .next (h.guarded _ _ _ _ _ (fun _ => ((Keeps.refl _).opTrgCtrl _ _).answered _))
  | triggerArm => exact .next (Keeps.ite h.armUnit h)
  | triggerDisarmWrite _ _ => exact .next (h.guarded _ _ _ _ _ (fun _ => ((Keeps.refl _).opTrgCtrl _ _).answered _))
  | triggerDisarm => exact .next (Keeps.ite h.disarmUnit h)
  | decisionPoint _ _ _ => exact execDecisionPoint_keeps _ _ _
  | primQueued => exact execPrimQueued_keeps
  | requestArrival _ _ => exact .next (Keeps.ite h (Keeps.ite ((h.cbump _).respond _ _ _) (Keeps.ite ((h.cbump _).respond _ _ _)
        ((h.modTrg _).cset _ _))))
  | coreReadoutStart _ => exact execCoreReadoutStart_keeps _
  | coreComplete _ => exact execCoreComplete_keeps _
  | coreAbort _ _ => exact .next (h.guarded _ _ _ _ _ (fun _ => ((Keeps.refl _).opTrgAbort _).answer _ _ _))
  | streamSliceRead => exact .next (Keeps.ite (h.streamFeed _) (Keeps.ite ((h.streamFeed _).modTrg _) (Keeps.ite
        ((h.streamFeed _).streamOn _) (Keeps.ite (((h.streamFeed _).streamJump _ _).streamFeed _) (Keeps.ite (h.streamFeed _)
        ((h.streamFeed _).streamOn _))))))
  | laneFault _ => exact .next (Keeps.ite h (h.modUpl _))
  | restore _ _ _ => exact .next (h.guarded _ _ _ _ _ (fun _ => ((Keeps.refl _).opRestore _ _).answer _ _ _))
  | laneFrame _ => exact execLaneFrame_keeps _
  | rxSignalDetect _ => exact .next (Keeps.ite (h.setRx _ _) h)
  | rxAligned _ => exact .next (Keeps.ite (h.setRx _ _) h)
  | rxLockTimeout _ => exact .next (Keeps.ite (h.setRx _ _) h)
  | rxSignalLoss _ => exact .next (Keeps.ite ((h.setRx _ _).cset _ _) h)
  | rxStartSet _ _ => exact .next (Keeps.ite h (Keeps.ite (h.modUpl _) ((h.setRx _ _).cset _ _)))
  | inboundFloeFrame _ _ => exact .next (Keeps.ite h (Keeps.ite ((h.cadd _ _).cbump _) ((h.cadd _ _).cbump _)))
  | hello _ _ => exact .next (Keeps.ite h ((Keeps.ite ((((h.cbump _).cset _ _).modGrp _ _).cbump _)
        ((((h.cbump _).cset _ _).modGrp _ _).modGrp _ _)).sendCtrl _ _))
  | mailboxPacket _ _ => exact .next (Keeps.ite h (Keeps.ite ((h.cbump _).cset _ _) ((h.modUpl _).showInbound)))
  | beSilent _ => exact .next (Keeps.ite (h.cset _ _) h)
  | schedulerChoice _ _ _ => exact execSchedulerChoice_keeps _ _ _
  | uqPush _ _ _ _ => exact .next (h.guarded _ _ _ _ _ (fun _ => ((Keeps.refl _).opUqPush _ _ _).answered _))
  | queueFlush _ _ _ _ => exact .next (h.guarded _ _ _ _ _ (fun _ => (((Keeps.refl _).opUqCtrl _ _ _).feedWriters).answer _ _ _))
  | queueStale _ _ => exact execQueueStale_keeps _ _
  | uiqPop _ => exact .next (h.guarded _ _ _ _ _ (fun _ => ((Keeps.refl _).popFor _).answer _ _ _))
  | lockstepMismatch => exact .next (Keeps.ite h ((((((h.cset _ _).onSp _).cset _ _).cbump _).logBit _ _ _ _).alarm _))
  | fetchTrap _ => exact execFetchTrap_keeps _
  | kick _ _ => exact .next (h.guarded _ _ _ _ _ (fun _ => ((Keeps.refl _).opWdog _).answer _ _ _))
  | watchdogExpiry => exact .next (Keeps.ite ((h.cbump _).serviceReset) h)
  | cramScrub ecc b => exact execCramScrub_keeps ecc b
  | mailboxTake => exact execMailboxTake_keeps
  | readCmd _ _ _ => exact execReadCmd_keeps _ _ _
  | writeCmd _ _ _ => exact execWriteCmd_keeps _ _ _
  | runStatus _ _ _ => exact .next (h.mailServe _ _ _ _ _ (fun _ => Keeps.ite ((Keeps.refl _).reply _ _ _ _ _ _)
        ((Keeps.refl _).reply _ _ _ _ _ _)))
  | startCmd _ _ _ => exact .next (h.mailServe _ _ _ _ _ (fun _ => Keeps.ite ((Keeps.refl _).reply _ _ _ _ _ _) (Keeps.ite
        (((Keeps.refl _).spWrite _ _ _).reply _ _ _ _ _ _) ((((Keeps.refl _).spWrite _ _ _).spWrite _ _ _).reply _ _ _ _ _ _))))
  | stopCmd _ _ _ => exact .next (h.mailServe _ _ _ _ _ (fun _ => Keeps.ite ((Keeps.refl _).reply _ _ _ _ _ _)
        (((Keeps.refl _).spWrite _ _ _).reply _ _ _ _ _ _)))
  | thresh _ _ _ => exact .next (h.mailServe _ _ _ _ _ (fun _ => (Keeps.refl _).calStart _ _ _ _))
  | phase _ _ _ => exact .next (h.mailServe _ _ _ _ _ (fun _ => (Keeps.refl _).calStart _ _ _ _))
  | ampl _ _ _ => exact .next (h.mailServe _ _ _ _ _ (fun _ => (Keeps.refl _).calStart _ _ _ _))
  | calAbort _ _ _ => exact .next (h.mailServe _ _ _ _ _ (fun _ => Keeps.ite
        ((((Keeps.refl _).onSp _).abortLongs _ _).reply _ _ _ _ _ _) ((Keeps.refl _).reply _ _ _ _ _ _)))
  | histStart _ _ _ => exact .next (h.mailServe _ _ _ _ _ (fun _ => Keeps.ite ((Keeps.refl _).reply _ _ _ _ _ _) (Keeps.ite
        ((Keeps.refl _).reply _ _ _ _ _ _) (((Keeps.refl _).onSp _).startLong _ _ _ _ _ _))))
  | histStop _ _ _ => exact .next (h.mailServe _ _ _ _ _ (fun _ => Keeps.ite
        ((((Keeps.refl _).onSp _).abortLongs _ _).reply _ _ _ _ _ _) ((Keeps.refl _).reply _ _ _ _ _ _)))
  | period _ _ _ => exact .next (h.mailServe _ _ _ _ _ (fun _ => Keeps.ite ((Keeps.refl _).reply _ _ _ _ _ _)
        (((Keeps.refl _).onSp _).reply _ _ _ _ _ _)))
  | timeStatus _ _ _ => exact .next (h.mailServe _ _ _ _ _ (fun _ => Keeps.ite ((Keeps.refl _).reply _ _ _ _ _ _)
        ((Keeps.refl _).reply _ _ _ _ _ _)))
  | acceptStep _ _ _ _ => exact .next (h.mailServe _ _ _ _ _ (fun _ => Keeps.ite ((Keeps.refl _).reply _ _ _ _ _ _) (Keeps.ite
        (((Keeps.refl _).cbump _).reply _ _ _ _ _ _) (Keeps.ite ((Keeps.refl _).reply _ _ _ _ _ _) (Keeps.ite
        ((Keeps.refl _).reply _ _ _ _ _ _) (Keeps.ite ((Keeps.refl _).reply _ _ _ _ _ _) (Keeps.ite
        (((Keeps.refl _).dropStep).reply _ _ _ _ _ _) (((Keeps.refl _).acceptStep _).reply _ _ _ _ _ _))))))))
  | withdrawStep _ _ _ => exact .next (h.mailServe _ _ _ _ _ (fun _ => Keeps.ite ((Keeps.refl _).reply _ _ _ _ _ _) (Keeps.ite
        ((Keeps.refl _).reply _ _ _ _ _ _) (((Keeps.refl _).dropStep).reply _ _ _ _ _ _))))
  | guardStatus _ _ _ => exact .next (h.mailServe _ _ _ _ _ (fun _ => Keeps.ite ((Keeps.refl _).reply _ _ _ _ _ _)
        ((Keeps.refl _).reply _ _ _ _ _ _)))
  | guardSet _ _ _ _ => exact execGuardSet_keeps _ _ _ _
  | setpw _ _ _ _ _ _ => exact execSetpw_keeps _ _ _ _ _ _
  | guardReset _ _ _ _ _ => exact execGuardReset_keeps _ _ _ _ _
  | updStatus _ _ _ => exact .next (h.mailServe _ _ _ _ _ (fun _ => Keeps.ite ((Keeps.refl _).updReply _ _ _ _ _)
        ((Keeps.refl _).updReply _ _ _ _ _)))
  | imgBegin _ _ _ => exact .next (h.mailServe _ _ _ _ _ (fun _ => Keeps.ite ((Keeps.refl _).updReply _ _ _ _ _) (Keeps.ite
        ((Keeps.refl _).updReply _ _ _ _ _) (((Keeps.refl _).imgBegin _ _ _).updReply _ _ _ _ _))))
  | imgData _ _ _ => exact execImgData_keeps _ _ _
  | imgEnd _ _ _ => exact .next (h.mailServe _ _ _ _ _ (fun _ => Keeps.ite ((Keeps.refl _).updReply _ _ _ _ _)
        (((Keeps.refl _).imgComplete).startLong _ _ _ _ _ _)))
  | activate _ _ _ => exact .next (h.mailServe _ _ _ _ _ (fun _ => Keeps.ite ((Keeps.refl _).updReply _ _ _ _ _)
        ((Keeps.refl _).mailActivate _ _ _ _)))
  | rollback _ _ _ => exact .next (h.mailServe _ _ _ _ _ (fun _ => Keeps.ite ((Keeps.refl _).mailActivate _ _ _ _)
        ((Keeps.refl _).updReply _ _ _ _ _)))
  | cfgBegin _ _ _ => exact .next (h.mailServe _ _ _ _ _ (fun _ => Keeps.ite ((Keeps.refl _).updReply _ _ _ _ _) (Keeps.ite
        ((Keeps.refl _).updReply _ _ _ _ _) (((Keeps.refl _).modNvm _).updReply _ _ _ _ _))))
  | cfgData _ _ _ => exact execCfgData_keeps _ _ _
  | cfgCommit _ _ _ => exact execCfgCommit_keeps _ _ _
  | twinStatus _ _ _ => exact .next (h.mailServe _ _ _ _ _ (fun _ => Keeps.ite (((Keeps.refl _).draw).reply _ _ _ _ _ _)
        ((Keeps.refl _).reply _ _ _ _ _ _)))
  | switchCmd _ _ _ => exact .next (h.mailServe _ _ _ _ _ (fun _ => Keeps.ite ((Keeps.refl _).reply _ _ _ _ _ _) (Keeps.ite
        ((Keeps.refl _).reply _ _ _ _ _ _) (((((Keeps.refl _).sendSeed _).cset _ _).modTwin _).startLong _ _ _ _ _ _))))
  | pushCmd _ _ _ => exact .next (h.mailServe _ _ _ _ _ (fun _ => Keeps.ite ((Keeps.refl _).reply _ _ _ _ _ _) (Keeps.ite
        ((Keeps.refl _).reply _ _ _ _ _ _) (((Keeps.refl _).sendSeed _).reply _ _ _ _ _ _))))
  | logRead _ _ _ => exact execLogRead_keeps _ _ _
  | moverStart _ _ _ => exact .next (h.guarded _ _ _ _ _ (fun _ => ((Keeps.refl _).opMvCtrl _ _).answer _ _ _))
  | moverFetch _ _ => exact execMoverFetch_keeps _ _
  | moverBurstDone _ _ => exact .next (Keeps.ite h (Keeps.ite (h.mvPasses _ _) (Keeps.ite ((h.mvPasses _ _).setMv _ _) (Keeps.ite
        ((h.mvPasses _ _).mvWait _) (h.mvPasses _ _)))))
  | moverWriteback _ => exact .next (Keeps.ite h (Keeps.ite (h.mvBack _ _ _) (Keeps.ite (((Keeps.ite
        ((((h.mvBack _ _ _).cset _ _).modMch _ _).setMv _ _)
        (((((h.mvBack _ _ _).cset _ _).modMch _ _).setMv _ _).cset _ _)).cset _ _).paceAll _ _) (Keeps.ite
        ((((h.mvBack _ _ _).cset _ _).modMch _ _).setMv _ _) (((((h.mvBack _ _ _).cset _ _).modMch _ _).setMv _ _).cset _ _)))))
  | mvTimer _ => exact .next (Keeps.ite h ((h.onSp _).paceAll _ _))
  | moverKick _ _ _ => exact .next (h.guarded _ _ _ _ _ (fun _ => ((Keeps.refl _).opMvCtrl _ _).answer _ _ _))
  | moverAbort _ _ _ => exact .next (h.guarded _ _ _ _ _ (fun _ => ((Keeps.refl _).opMvCtrl _ _).answer _ _ _))
  | clear _ _ => exact .next (h.guarded _ _ _ _ _ (fun _ => ((Keeps.refl _).opMvClear _ _).answered _))
  | paceTimeout _ => exact .next (Keeps.ite (h.mvHalt _ _) h)
  | qemptyTimeout _ => exact execQemptyTimeout_keeps _
  | busError _ _ _ => exact .next (Keeps.ite (h.mvBusErr _ _ _) h)
  | powerDownWaitExpiry _ => exact .next (Keeps.ite (h.mvHalt _ _) h)
  | thaw _ _ => exact .next (h.guarded _ _ _ _ _ (fun _ => ((Keeps.refl _).opThaw _).answer _ _ _))
  | bkThawTimer => exact execBkThawTimer_keeps
  | powerOnReset _ _ _ _ => exact .next (Keeps.ite h (h.powerOn _ _ _ _))
  | resetN _ _ _ _ _ => exact .next (Keeps.ite h ((h.progAll _).powerOn _ _ _ _))
  | configApply _ _ => exact execConfigApply_keeps _ _
  | ready _ => exact .next (Keeps.ite h (((Keeps.ite
        ((((((((h.groupsStart.modGlb _).cset _ _).cset _ _).cset _ _).onlyWhen _ _ fun _ =>
        (Keeps.refl _).alarm _).logOwn _ _ _ _ _).cset _ _).modTwin _)
        ((((((h.groupsStart.modGlb _).cset _ _).cset _ _).cset _ _).onlyWhen _ _ fun _ =>
        (Keeps.refl _).alarm _).logOwn _ _ _ _ _)).modTrg _).actHeld))
  | soft _ _ => exact .next (h.guarded _ _ _ _ _ (fun _ => ((Keeps.refl _).opGlbRst _).answer _ _ _))
  | serviceSoftReset => exact execServiceSoftReset_keeps
  | region _ _ => exact .next (h.guarded _ _ _ _ _ (fun _ => ((Keeps.refl _).opGlbRst _).answer _ _ _))
  | regionReset _ => exact .next (h.regionReset _)
  | regionRecovered _ => exact .next (Keeps.ite h ((h.lostRun _ _ _).modRgn _ _))
  | powerRequestRun _ _ => exact .next (h.guarded _ _ _ _ _ (fun _ => ((Keeps.refl _).opGlbPwr _).answer _ _ _))
  | powerRequestIdle _ _ => exact .next (h.guarded _ _ _ _ _ (fun _ => ((Keeps.refl _).opGlbPwr _).answer _ _ _))
  | powerRequestHibernate _ _ => exact .next (h.guarded _ _ _ _ _ (fun _ => ((Keeps.refl _).opGlbPwr _).answer _ _ _))
  | transitionComplete => exact execTransitionComplete_keeps
  | feSoftResetWrite _ _ _ => exact .next (Keeps.ite (h.feWrite _ _ _ _) h)
  | feSoftReset _ => exact execFeSoftReset_keeps _
  | nvmProgramDone => exact execNvmProgramDone_keeps
  | moraineEntry _ _ _ _ _ _ _ _ _ => exact .next (h.logAdd _)
  | offer _ _ => exact .next (Keeps.ite h (Keeps.ite (h.sendUpd _ _ _ _ _ _ _) (Keeps.ite (h.sendUpd _ _ _ _ _ _ _)
        ((h.imgBegin _ _ _).sendUpd _ _ _ _ _ _ _))))
  | updData _ _ => exact execUpdData_keeps _ _
  | ack _ => exact .next (Keeps.ite h (Keeps.ite (h.haltHere _) ((h.modSide _ _).sendBlocks _ _)))
  | done _ => exact .next (Keeps.ite h (((h.modSide _ _).cset _ _).forwardDone))
  | updFrameActivate _ => exact execUpdFrameActivate_keeps _
  | confirmed _ => exact .next (Keeps.ite h (((h.modSide _ _).cset _ _).confirmDone))
  | halt _ => exact .next (Keeps.ite h (h.haltChain _ _))
  | neighbourAbsent _ => exact .next (Keeps.ite ((h.modSide _ _).forwardDone) h)
  | resendTimeout _ => exact .next (Keeps.ite h (Keeps.ite (h.haltHere _) ((h.modSide _ _).sendBlocks _ _)))
  | imageVerified _ => exact .next (Keeps.ite h (Keeps.ite
        (((((((h.cset _ _).showVer _).logImage _ _).program _).updState _).foldl _ _ fun _ _ _ =>
        ((Keeps.refl _).sendUpd _ _ _ _ _ _ _).modSide _ _).forwardDone) (h.haltHere _)))
  | trialConfirm => exact .next (Keeps.ite h
        ((((((((h.cset _ _).cset _ _).cset _ _).program _).logImage _ _).updState _).foldl _ _ fun _ _ _ =>
        ((Keeps.refl _).sendUpd _ _ _ _ _ _ _).modSide _ _).confirmDone))
  | trialTimeout => exact .next (Keeps.ite h (Keeps.ite
        (((((((((((h.cset _ _).cset _ _).cset _ _).program _).logImage _ _).alarmAt _).haltHere _).modNvm _).cset _ _).cset _
        _).serviceReset) ((((((((h.cset _ _).cset _ _).cset _ _).program _).logImage _ _).alarmAt _).haltHere _).modNvm _)))
  | heartbeatSend => exact execHeartbeatSend_keeps
  | heartbeatReceived _ _ => exact .next (Keeps.ite h (Keeps.ite (((((h.draw.draw.cset _ _).cset _ _).cset _ _).modTwin _).toStandby)
        ((((h.draw.draw.cset _ _).cset _ _).cset _ _).modTwin _)))
  | partnerLoss => exact .next (Keeps.ite h (Keeps.ite ((((h.cset _ _).cbump _).modTwin _).toTaking _) (Keeps.ite
        (((((h.cset _ _).cbump _).toTaking _).downlinksOn).endSwitch _) ((h.cset _ _).cbump _))))
  | startingTimeout => exact .next (Keeps.ite (h.toTaking _) h)
  | dualResolve => exact execDualResolve_keeps
  | takeoverAbandon => exact .next (Keeps.ite (h.toStandby.logBit _ _ _ _) h)
  | takeoverStoreStart => exact execTakeoverStoreStart_keeps
  | takeoverComplete => exact execTakeoverComplete_keeps
  | seedPush => exact .next (Keeps.ite h (h.sendSeed _))
  | seedSegment _ _ _ => exact .next (Keeps.ite h (Keeps.ite ((Keeps.ite h.rejectSeed h).judgeSeed _)
        ((Keeps.ite h.rejectSeed h).modTwin _)))
  | seedTimeout => exact execSeedTimeout_keeps
  | standbyPatternTest _ => exact execStandbyPatternTest_keeps _
  | healthReport => exact .next (Keeps.ite h ((h.draw.sendMon _).modTwin _))
  | switchStopStoring => exact execSwitchStopStoring_keeps
  | drainEnd => exact execDrainEnd_keeps
  | temperatureSample _ _ _ _ => exact execTemperatureSample_keeps _ _ _ _
  | throttleEnd _ _ => exact execThrottleEnd_keeps _ _
  | shutdownTrip _ => exact .next (Keeps.ite (h.modPro _) (h.cold.modPro _))
  | nvmProgramCut => exact .next (Keeps.ite h (h.modNvm _))
  | thermalRestart => exact execThermalRestart_keeps
  | feShutdownTrip _ => exact .next (Keeps.ite (h.modFe _ _) ((h.feReset _ _).modFe _ _))
  | feThermalRestart _ => exact execFeThermalRestart_keeps _
  | supplyWarning _ => exact execSupplyWarning_keeps _
  | dipEnd _ _ => exact execDipEnd_keeps _ _
  | supplyReset _ => exact execSupplyReset_keeps _
  | powerGood _ => exact execPowerGood_keeps _
  | guardInputChange _ _ => exact .next (Keeps.ite h (Keeps.ite ((h.cset _ _).cset _ _) (h.cset _ _)))
  | guardEvaluation _ _ _ => exact .next (Keeps.ite h (((((h.cset _ _).modPro _).foldl _ _ fun _ _ _ =>
        (Keeps.refl _).readOutput _ _ _).cset _ _).foldl _ _ fun _ _ _ => (Keeps.refl _).permitStep _))
  | heldClear _ => exact .next (Keeps.ite (h.setPermit _ _) h)
  | heldTimeout _ => exact .next (Keeps.ite (h.trip _ _) h)
  | offPulse _ _ _ => exact .next (Keeps.ite h (Keeps.ite ((h.modPro _).cbump _) (((h.modPro _).onlyWhen _ _ fun _ =>
        ((Keeps.refl _).cset _ _).cset _ _).onlyWhen _ _ fun _ => (Keeps.refl _).cset _ _)))
  | outputCurrentLimit _ => exact .next (Keeps.ite h ((((h.cset _ _).cset _ _).cset _ _).modPro _))
  | grst _ _ => exact .next (Keeps.ite (h.modPro _) (Keeps.ite (((h.modPro _).cbump _).logBit _ _ _ _) ((h.modPro _).guardReset _)))
  | strapChange _ => exact .next (Keeps.ite ((((h.cset _ _).modPro _).raise _).logBit _ _ _ _) ((h.cset _ _).modPro _))
  | inputProven _ => exact .next (Keeps.ite (h.cset _ _) h)
  | latchRead _ _ => exact .next (Keeps.ite h (((((h.onlyWhen _ _ fun _ =>
        (((Keeps.refl _).modNvm _).program _).cset _ _).modPro _).showLatch).commonTest _).foldl _ _ fun _ _ _ => Keeps.ite
        ((Keeps.refl _).trip _ _) (Keeps.refl _)))
  | passwordByte _ _ => exact .next (h.guarded _ _ _ _ _ (fun _ => ((Keeps.refl _).opGpw _).answer _ _ _))
  | check _ _ => exact .next (h.guarded _ _ _ _ _ (fun _ => ((Keeps.refl _).opGwin _).answer _ _ _))
  | windowTimeout => exact .next (Keeps.ite (h.cset _ _) h)
  | close _ _ => exact .next (h.guarded _ _ _ _ _ (fun _ => ((Keeps.refl _).opGcommit _).answer _ _ _))
  | checkUnblock => exact .next (Keeps.ite (h.cset _ _) h)
  | downlinkClockLock _ _ _ => exact .next (Keeps.ite h (((h.fset _ _ _).modLink _ _ _).onlyWhen _ _ fun _ => (Keeps.refl _).fset _ _ _))
  | writeAcknowledged _ => exact execWriteAcknowledged_keeps _
  | longCommandComplete _ => exact execLongCommandComplete_keeps _
  | monSummary => exact execMonSummary_keeps
  | logPageEraseDone => exact .next (Keeps.ite (((h.setJournal _).modNvm _).logStart) h)
  | grstActive => exact .next (Keeps.ite h (h.modPro _))

end

/-- Settles O60: a step runs the front command on the rest of the queue, and every command keeps the form. -/
theorem everyStepKeepsTheForm : Obligations.EveryStepKeepsTheForm := by
  unfold Obligations.EveryStepKeepsTheForm
  intro s t hf hs
  cases hp : s.pending with
  | nil =>
    simp only [step, hp, Host.Outcome.next.injEq] at hs
    subst hs
    exact ⟨hf, hp, Nat.le_refl _, Nat.le_refl _⟩
  | cons i rest =>
    simp only [step, hp] at hs
    have hk := exec_keeps i _ t hs
    exact ⟨hk.form hf, hk.pending, hk.tick, hk.free⟩

end Sys2Proof.Machine

/-! ## Steps and reset -/

namespace Sys2Proof.Machine

set_option Elab.async false

theorem State.fcRun_answers (p : PortIx) (q : FaceIx) (slot : Fin 250) (c : Nat) (s : State) : ∃ t, s.fcRun p q slot c = .next t := by
  unfold State.fcRun
  split <;> exact ⟨_, rfl⟩

/-- Every command answers a next state. -/
theorem exec_answers (i : Instr) (s : State) : ∃ t, exec i s = .next t := by
  cases i with
  | fastCommandInvalid p q why =>
    show ∃ t, execFastCommandInvalid p q why s = .next t
    unfold execFastCommandInvalid
    split
    · exact ⟨_, rfl⟩
    · split
      · exact State.fcRun_answers ..
      · exact ⟨_, rfl⟩
  | _ => exact ⟨_, rfl⟩

/-- Settles O58: the front command runs on the rest, and every command answers a next state. -/
theorem stepRunsTheFrontCommand : Obligations.StepRunsTheFrontCommand := by
  refine ⟨fun c rest s => rfl, fun s h => ?_, fun s => ?_⟩
  · simp [step, h]
  · unfold State.StepOk
    cases h : s.pending with
    | nil => exact ⟨s, by simp [step, h]⟩
    | cons i rest =>
      simp only [step, h]
      exact exec_answers i _

/-- Settles O59: at reset no register is listed, so each field reads its reset value. -/
theorem resetLeavesTheResetValues : Obligations.ResetLeavesTheResetValues := by
  have hc : ∀ f : Fld, State.reset.cget f = f.reset % 2 ^ f.width := fun _ => rfl
  have hf : ∀ p (f : Fld), State.reset.fget p f = f.reset % 2 ^ f.width := fun _ _ => rfl
  refine ⟨hc, hf, ⟨trivial, trivial, trivial, trivial, trivial⟩, rfl, hc _, by simp [State.con, hc, GLB_STAT_READY], hc _, hc _, hc _, ?_, fun n _ => hc _,
    fun p => hc _, fun p => ⟨hf _ _, hf _ _, hf _ _⟩, rfl, rfl, rfl⟩
  simp [State.con, hc, PRO_STAT_COMMON_OPEN]

end Sys2Proof.Machine

/-! ## Frames: what single fields and listed fields read after an operation -/

namespace Sys2Proof.Machine

set_option Elab.async false

/-! ### One-bit fields and counters -/

theorem State.con_eq_false {s : State} {f : Fld} : s.con f = false ↔ s.cget f = 0 := by simp [State.con]

theorem State.con_eq_true {s : State} {f : Fld} : s.con f = true ↔ s.cget f ≠ 0 := by simp [State.con]

theorem State.fon_eq_false {s : State} {p : Nat} {f : Fld} : s.fon p f = false ↔ s.fget p f = 0 := by simp [State.fon]

theorem State.fon_eq_true {s : State} {p : Nat} {f : Fld} : s.fon p f = true ↔ s.fget p f ≠ 0 := by simp [State.fon]

/-- A one-bit field that is on reads 1. -/
theorem State.cget_of_con {s : State} {f : Fld} (hw : f.width = 1) (h : s.con f = true) : s.cget f = 1 := by
  have := s.cget_lt f
  rw [hw] at this
  have := State.con_eq_true.1 h
  omega

theorem State.con_cset_ne (s : State) (f g : Fld) (v : Nat) (h : g.key ≠ f.key) : (s.cset f v).con g = s.con g := by
  simp [State.con, s.cget_cset_ne f g v h]

theorem State.fon_fset_ne (s : State) (p q : Nat) (f g : Fld) (v : Nat) (h : g.fkey q ≠ f.fkey p) :
    (s.fset p f v).fon q g = s.fon q g := by
  simp [State.fon, s.fget_fset_ne p q f g v h]

/-- A value that fits the field is the value read back. -/
theorem State.cget_cset_of_lt (s : State) {f : Fld} {v : Nat} (h : v < 2 ^ f.width) : (s.cset f v).cget f = v := by
  rw [State.cget_cset_same, Nat.mod_eq_of_lt h]

theorem State.fget_fset_of_lt (s : State) (p : Nat) {f : Fld} {v : Nat} (h : v < 2 ^ f.width) : (s.fset p f v).fget p f = v := by
  rw [State.fget_fset_same, Nat.mod_eq_of_lt h]

/-- Saturation keeps a counter within its width. -/
theorem min_pow_mod (n w : Nat) : min n (2 ^ w - 1) % 2 ^ w = min n (2 ^ w - 1) := by
  have := Nat.two_pow_pos w
  exact Nat.mod_eq_of_lt (by omega)

/-- A counter goes up by the number added and stops at its largest value (R19). -/
theorem State.cget_cadd_sat (s : State) (f : Fld) (n : Nat) : (s.cadd f n).cget f = min (s.cget f + n) (2 ^ f.width - 1) := by
  rw [State.cget_cadd, min_pow_mod]

theorem State.cget_cbump_sat (s : State) (f : Fld) : (s.cbump f).cget f = min (s.cget f + 1) (2 ^ f.width - 1) :=
  s.cget_cadd_sat f 1

theorem State.fget_fadd_sat (s : State) (p : Nat) (f : Fld) (n : Nat) :
    (s.fadd p f n).fget p f = min (s.fget p f + n) (2 ^ f.width - 1) := by
  rw [State.fadd, State.fget_fset_same, min_pow_mod]

theorem State.fget_fbump_sat (s : State) (p : Nat) (f : Fld) : (s.fbump p f).fget p f = min (s.fget p f + 1) (2 ^ f.width - 1) :=
  s.fget_fadd_sat p f 1

theorem b2n_lt_two (b : Bool) : b2n b < 2 := by cases b <;> decide

/-- A one-bit field set from a truth value reads as that value. -/
theorem b2n_mod_two (b : Bool) : b2n b % 2 = b2n b := Nat.mod_eq_of_lt (b2n_lt_two b)

/-! ### All but the listed fields -/

namespace RegsSame

variable {s t u : State} {fs gs : List Fld}

theorem refl (s : State) (fs : List Fld) : RegsSame s s fs := fun _ _ => rfl

theorem cset (h : RegsSame s t fs) (f : Fld) (v : Nat) (hf : f ∈ fs := by simp) : RegsSame s (t.cset f v) fs := fun g hg => by
  rw [State.cget_cset_ne _ _ _ _ (hg f hf), h g hg]

theorem cadd (h : RegsSame s t fs) (f : Fld) (n : Nat) (hf : f ∈ fs := by simp) : RegsSame s (t.cadd f n) fs := h.cset f _ hf

theorem cbump (h : RegsSame s t fs) (f : Fld) (hf : f ∈ fs := by simp) : RegsSame s (t.cbump f) fs := h.cset f _ hf

theorem cwrap (h : RegsSame s t fs) (f : Fld) (n : Nat) (hf : f ∈ fs := by simp) : RegsSame s (t.cwrap f n) fs := h.cset f _ hf

/-- Only the register table counts. -/
theorem congr (h : RegsSame s t fs) (hc : u.creg = t.creg) : RegsSame s u fs := fun g hg => by
  rw [← h g hg]
  simp only [State.cget, hc]

theorem fset (h : RegsSame s t fs) (p : Nat) (f : Fld) (v : Nat) : RegsSame s (t.fset p f v) fs := h
theorem fadd (h : RegsSame s t fs) (p : Nat) (f : Fld) (v : Nat) : RegsSame s (t.fadd p f v) fs := h
theorem fbump (h : RegsSame s t fs) (p : Nat) (f : Fld) : RegsSame s (t.fbump p f) fs := h
theorem setFe (h : RegsSame s t fs) (p : Nat) (x : Fe) : RegsSame s (t.setFe p x) fs := h
theorem modFe (h : RegsSame s t fs) (p : Nat) (g : Fe → Fe) : RegsSame s (t.modFe p g) fs := h
theorem setCh (h : RegsSame s t fs) (p c : Nat) (x : Chan) : RegsSame s (t.setCh p c x) fs := h
theorem modCh (h : RegsSame s t fs) (p c : Nat) (g : Chan → Chan) : RegsSame s (t.modCh p c g) fs := h
theorem setBlk (h : RegsSame s t fs) (p b : Nat) (x : Blk) : RegsSame s (t.setBlk p b x) fs := h
theorem modBlk (h : RegsSame s t fs) (p b : Nat) (g : Blk → Blk) : RegsSame s (t.modBlk p b g) fs := h
theorem modPort (h : RegsSame s t fs) (p : Nat) (g : Port → Port) : RegsSame s (t.modPort p g) fs := h
theorem modRgn (h : RegsSame s t fs) (r : Nat) (g : Region → Region) : RegsSame s (t.modRgn r g) fs := h
theorem modMch (h : RegsSame s t fs) (c : Nat) (g : MvCh → MvCh) : RegsSame s (t.modMch c g) fs := h
theorem modTm (h : RegsSame s t fs) (g : TimeSt → TimeSt) : RegsSame s (t.modTm g) fs := h
theorem modFirn (h : RegsSame s t fs) (g : FirnSt → FirnSt) : RegsSame s (t.modFirn g) fs := h
theorem modTrg (h : RegsSame s t fs) (g : TrgSt → TrgSt) : RegsSame s (t.modTrg g) fs := h
theorem modUpl (h : RegsSame s t fs) (g : UplinkSt → UplinkSt) : RegsSame s (t.modUpl g) fs := h
theorem modSp (h : RegsSame s t fs) (g : SpSt → SpSt) : RegsSame s (t.modSp g) fs := h
theorem modNvm (h : RegsSame s t fs) (g : NvmSt → NvmSt) : RegsSame s (t.modNvm g) fs := h
theorem modTwin (h : RegsSame s t fs) (g : TwinSt → TwinSt) : RegsSame s (t.modTwin g) fs := h
theorem modPro (h : RegsSame s t fs) (g : ProSt → ProSt) : RegsSame s (t.modPro g) fs := h
theorem modGlb (h : RegsSame s t fs) (g : GlbSt → GlbSt) : RegsSame s (t.modGlb g) fs := h
theorem answer (h : RegsSame s t fs) (m : Nat) (err : Bool) (d : Nat) : RegsSame s (t.answer m err d) fs := h
theorem toInst (h : RegsSame s t fs) (i : Inst) : RegsSame s (t.toInst i) fs := h

theorem when (h : RegsSame s t fs) (b : Bool) (g : State → State) (hg : RegsSame s (g t) fs) : RegsSame s (t.when b g) fs := by
  cases b
  · exact h
  · exact hg

theorem ite {c : Prop} [Decidable c] (h : RegsSame s t fs) (h' : RegsSame s u fs) : RegsSame s (if c then t else u) fs := by
  split
  · exact h
  · exact h'

theorem foldl {α : Type} (h : RegsSame s t fs) (g : State → α → State) (l : List α)
    (hg : ∀ z a, a ∈ l → RegsSame s z fs → RegsSame s (g z a) fs) : RegsSame s (l.foldl g t) fs := by
  induction l generalizing t with
  | nil => exact h
  | cons a r ih =>
    exact ih (hg t a (List.mem_cons_self ..) h) fun z b hb hz => hg z b (List.mem_cons_of_mem _ hb) hz

theorem of_creg (hc : u.creg = s.creg) (fs : List Fld) : RegsSame s u fs := (refl s fs).congr hc

theorem trans (h : RegsSame s t fs) (h' : RegsSame t u fs) : RegsSame s u fs := fun g hg => (h' g hg).trans (h g hg)

theorem mono (h : RegsSame s t fs) (hs : ∀ f ∈ fs, f ∈ gs) : RegsSame s t gs := fun g hg => h g fun f hf => hg f (hs f hf)

end RegsSame

namespace FeRegsSame

variable {s t u : State} {fs gs : List (Nat × Fld)}

theorem refl (s : State) (fs : List (Nat × Fld)) : FeRegsSame s s fs := fun _ _ _ => rfl

theorem fset (h : FeRegsSame s t fs) (p : Nat) (f : Fld) (v : Nat) (hf : (p, f) ∈ fs := by simp) : FeRegsSame s (t.fset p f v) fs :=
  fun q g hg => by rw [State.fget_fset_ne _ _ _ _ _ _ (hg _ hf), h q g hg]

theorem fadd (h : FeRegsSame s t fs) (p : Nat) (f : Fld) (n : Nat) (hf : (p, f) ∈ fs := by simp) : FeRegsSame s (t.fadd p f n) fs :=
  h.fset p f _ hf

theorem fbump (h : FeRegsSame s t fs) (p : Nat) (f : Fld) (hf : (p, f) ∈ fs := by simp) : FeRegsSame s (t.fbump p f) fs :=
  h.fset p f _ hf

/-- Only the register table counts. -/
theorem congr (h : FeRegsSame s t fs) (hc : u.freg = t.freg) : FeRegsSame s u fs := fun q g hg => by
  rw [← h q g hg]
  simp only [State.fget, hc]

theorem cset (h : FeRegsSame s t fs) (f : Fld) (v : Nat) : FeRegsSame s (t.cset f v) fs := h
theorem cadd (h : FeRegsSame s t fs) (f : Fld) (v : Nat) : FeRegsSame s (t.cadd f v) fs := h
theorem cbump (h : FeRegsSame s t fs) (f : Fld) : FeRegsSame s (t.cbump f) fs := h
theorem setFe (h : FeRegsSame s t fs) (p : Nat) (x : Fe) : FeRegsSame s (t.setFe p x) fs := h
theorem modFe (h : FeRegsSame s t fs) (p : Nat) (g : Fe → Fe) : FeRegsSame s (t.modFe p g) fs := h
theorem setCh (h : FeRegsSame s t fs) (p c : Nat) (x : Chan) : FeRegsSame s (t.setCh p c x) fs := h
theorem modCh (h : FeRegsSame s t fs) (p c : Nat) (g : Chan → Chan) : FeRegsSame s (t.modCh p c g) fs := h
theorem setBlk (h : FeRegsSame s t fs) (p b : Nat) (x : Blk) : FeRegsSame s (t.setBlk p b x) fs := h
theorem modBlk (h : FeRegsSame s t fs) (p b : Nat) (g : Blk → Blk) : FeRegsSame s (t.modBlk p b g) fs := h
theorem modPort (h : FeRegsSame s t fs) (p : Nat) (g : Port → Port) : FeRegsSame s (t.modPort p g) fs := h
theorem modRgn (h : FeRegsSame s t fs) (r : Nat) (g : Region → Region) : FeRegsSame s (t.modRgn r g) fs := h
theorem modMch (h : FeRegsSame s t fs) (c : Nat) (g : MvCh → MvCh) : FeRegsSame s (t.modMch c g) fs := h
theorem modTm (h : FeRegsSame s t fs) (g : TimeSt → TimeSt) : FeRegsSame s (t.modTm g) fs := h
theorem modFirn (h : FeRegsSame s t fs) (g : FirnSt → FirnSt) : FeRegsSame s (t.modFirn g) fs := h
theorem modTrg (h : FeRegsSame s t fs) (g : TrgSt → TrgSt) : FeRegsSame s (t.modTrg g) fs := h
theorem modUpl (h : FeRegsSame s t fs) (g : UplinkSt → UplinkSt) : FeRegsSame s (t.modUpl g) fs := h
theorem modSp (h : FeRegsSame s t fs) (g : SpSt → SpSt) : FeRegsSame s (t.modSp g) fs := h
theorem modNvm (h : FeRegsSame s t fs) (g : NvmSt → NvmSt) : FeRegsSame s (t.modNvm g) fs := h
theorem modTwin (h : FeRegsSame s t fs) (g : TwinSt → TwinSt) : FeRegsSame s (t.modTwin g) fs := h
theorem modPro (h : FeRegsSame s t fs) (g : ProSt → ProSt) : FeRegsSame s (t.modPro g) fs := h
theorem modGlb (h : FeRegsSame s t fs) (g : GlbSt → GlbSt) : FeRegsSame s (t.modGlb g) fs := h
theorem answer (h : FeRegsSame s t fs) (m : Nat) (err : Bool) (d : Nat) : FeRegsSame s (t.answer m err d) fs := h
theorem toInst (h : FeRegsSame s t fs) (i : Inst) : FeRegsSame s (t.toInst i) fs := h

theorem when (h : FeRegsSame s t fs) (b : Bool) (g : State → State) (hg : FeRegsSame s (g t) fs) : FeRegsSame s (t.when b g) fs := by
  cases b
  · exact h
  · exact hg

theorem ite {c : Prop} [Decidable c] (h : FeRegsSame s t fs) (h' : FeRegsSame s u fs) : FeRegsSame s (if c then t else u) fs := by
  split
  · exact h
  · exact h'

theorem foldl {α : Type} (h : FeRegsSame s t fs) (g : State → α → State) (l : List α)
    (hg : ∀ z a, a ∈ l → FeRegsSame s z fs → FeRegsSame s (g z a) fs) : FeRegsSame s (l.foldl g t) fs := by
  induction l generalizing t with
  | nil => exact h
  | cons a r ih =>
    exact ih (hg t a (List.mem_cons_self ..) h) fun z b hb hz => hg z b (List.mem_cons_of_mem _ hb) hz

theorem of_freg (hc : u.freg = s.freg) (fs : List (Nat × Fld)) : FeRegsSame s u fs := (refl s fs).congr hc

theorem trans (h : FeRegsSame s t fs) (h' : FeRegsSame t u fs) : FeRegsSame s u fs := fun q g hg => (h' q g hg).trans (h q g hg)

end FeRegsSame

theorem State.cget_of_creg {s t : State} (h : t.creg = s.creg) (f : Fld) : t.cget f = s.cget f := by simp only [State.cget, h]

theorem State.fget_of_freg {s t : State} (h : t.freg = s.freg) (p : Nat) (f : Fld) : t.fget p f = s.fget p f := by simp only [State.fget, h]

/-! ### Accesses -/

/-- A permitted access of a master that is not frozen is made. -/
theorem State.guarded_of_permitted {s : State} {m : Nat} {sp : Space} {key : Nat} {a : Access} (hf : s.frozen m = false)
    (hp : s.permitted m sp key a = true) (k : State → State) : s.guarded m sp key a k = k s := by
  simp [State.guarded, hf, hp]

@[simp] theorem State.answer_cget (s : State) (m : Nat) (err : Bool) (d : Nat) (f : Fld) : (s.answer m err d).cget f = s.cget f := rfl

@[simp] theorem State.answer_creg (s : State) (m : Nat) (err : Bool) (d : Nat) : (s.answer m err d).creg = s.creg := rfl

/-! ### Notes -/

namespace Notes

variable {s t : State}

theorem freg_eq (h : Notes s t) : t.freg = s.freg := by rw [h.same]
theorem fes_eq (h : Notes s t) : t.fes = s.fes := by rw [h.same]
theorem chans_eq (h : Notes s t) : t.chans = s.chans := by rw [h.same]
theorem blks_eq (h : Notes s t) : t.blks = s.blks := by rw [h.same]
theorem ports_eq (h : Notes s t) : t.ports = s.ports := by rw [h.same]
theorem regions_eq (h : Notes s t) : t.regions = s.regions := by rw [h.same]
theorem firn_eq (h : Notes s t) : t.firn = s.firn := by rw [h.same]
theorem trg_eq (h : Notes s t) : t.trg = s.trg := by rw [h.same]
theorem sp_eq (h : Notes s t) : t.sp = s.sp := by rw [h.same]
theorem mv_eq (h : Notes s t) : t.mv = s.mv := by rw [h.same]
theorem twin_eq (h : Notes s t) : t.twin = s.twin := by rw [h.same]
theorem pro_eq (h : Notes s t) : t.pro = s.pro := by rw [h.same]
theorem glb_eq (h : Notes s t) : t.glb = s.glb := by rw [h.same]
theorem port_eq (h : Notes s t) (p : Nat) : t.port p = s.port p := by simp only [State.port, h.ports_eq]
theorem rgn_eq (h : Notes s t) (r : Nat) : t.rgn r = s.rgn r := by simp only [State.rgn, h.regions_eq]
theorem fe_eq (h : Notes s t) (p : Nat) : t.fe p = s.fe p := by simp only [State.fe, h.fes_eq]
theorem mch_eq (h : Notes s t) (c : Nat) : t.mch c = s.mch c := by simp only [State.mch, h.mv_eq]

end Notes

/-- Beside the registers of queues and log, raising a bit sets that bit only. -/
theorem State.raise_regs (s : State) (f g : Fld) (hg : ¬ noteKey g.key) (hne : g.key ≠ f.key) : (s.raise f).cget g = s.cget g := by
  cases h : s.con f with
  | true => rw [State.raise_of_set s f h]
  | false => rw [(s.raise_notes f h).regs g hg, State.cget_cset_ne _ _ _ _ hne]

/-- A one-bit field that has been raised reads 1. -/
theorem State.raise_same (s : State) {f : Fld} (hw : f.width = 1) (hf : ¬ noteKey f.key) : (s.raise f).cget f = 1 := by
  cases h : s.con f with
  | true => rw [State.raise_of_set s f h, State.cget_of_con hw h]
  | false => rw [(s.raise_notes f h).regs f hf, State.cget_cset_of_lt _ (by rw [hw]; decide)]

end Sys2Proof.Machine

/-! ## What a queued packet, an ALARM and a Moraine entry leave -/

namespace Sys2Proof.Machine

set_option Elab.async false

/-- Keys of the registers that show the uplink queues. -/
def queueKey (k : Nat) : Prop := 0x600140 * 64 ≤ k ∧ k < 0x600600 * 64 ∧ 64 ≤ k / 64 % 256

theorem noteKey_of_queueKey {k : Nat} (h : queueKey k) : noteKey k := Or.inl h

/-- `t` is `s` with packets queued. -/
structure Queued (s t : State) : Prop where
  same : t = { s with creg := t.creg, upl := { s.upl with queues := t.upl.queues } }
  regs : ∀ g : Fld, ¬ queueKey g.key → t.cget g = s.cget g

namespace Queued

variable {s t u : State}

theorem refl (s : State) : Queued s s := ⟨rfl, fun _ _ => rfl⟩

theorem trans (h1 : Queued s t) (h2 : Queued t u) : Queued s u := by
  refine ⟨?_, fun g hg => (h2.regs g hg).trans (h1.regs g hg)⟩
  rw [h2.same, h1.same]

theorem cset (h : Queued s t) (f : Fld) (v : Nat) (hf : queueKey f.key) : Queued s (t.cset f v) := by
  refine ⟨?_, fun g hg => ?_⟩
  · rw [h.same]; rfl
  · rw [State.cget_cset_ne t f g v (fun e => hg (by rw [e]; exact hf)), h.regs g hg]

theorem setQueues (h : Queued s t) (qs : Tab Queue) : Queued s (t.modUpl fun u => { u with queues := qs }) := by
  refine ⟨?_, fun f hf => h.regs f hf⟩
  rw [h.same]; rfl

theorem when (h : Queued s t) (b : Bool) (g : State → State) (hg : Queued s (g t)) : Queued s (t.when b g) := by
  cases b
  · exact h
  · exact hg

theorem foldl {α : Type} (h : Queued s t) (g : State → α → State) (l : List α)
    (hg : ∀ z a, a ∈ l → Queued s z → Queued s (g z a)) : Queued s (l.foldl g t) := by
  induction l generalizing t with
  | nil => exact h
  | cons a r ih =>
    exact ih (hg t a (List.mem_cons_self ..) h) fun z b hb hz => hg z b (List.mem_cons_of_mem _ hb) hz

theorem alarms_eq (h : Queued s t) : t.upl.alarms = s.upl.alarms := by rw [h.same]

theorem inbound_eq (h : Queued s t) : t.upl.inbound = s.upl.inbound := by rw [h.same]

theorem nvm_eq (h : Queued s t) : t.nvm = s.nvm := by rw [h.same]

theorem notes (h : Queued s t) : Notes s t := by
  refine ⟨?_, fun g hg => h.regs g fun hq => hg (noteKey_of_queueKey hq)⟩
  rw [h.same]

end Queued

/-- The registers of the queues of the four groups lie in the range of `queueKey`. -/
theorem queueKey_of {f : Fld} {i : Nat} (h : i < 20) (o : Nat) (ho : o < 32) (hr : f.reg = 0x600140 + o + 0x100 * (i / 5) + 0x20 * (i % 5))
    (hlo : f.lo < 64) : queueKey f.key := by
  rw [Fld.key, hr]
  refine ⟨?_, ?_, ?_⟩ <;> omega

theorem State.setQueue_queued (s : State) {g q : Nat} (x : Queue) (hg : g < 4) (hq : q < 5) : Queued s (s.setQueue g q x) := by
  have hi : g * 5 + q < 20 := by omega
  have hl : queueKey (UQ_STAT_LEVEL (g * 5 + q)).key := queueKey_of hi 8 (by decide) rfl (by simp [UQ_STAT_LEVEL])
  have hn : queueKey (UQ_STAT_WM_NOW (g * 5 + q)).key := queueKey_of hi 8 (by decide) rfl (by simp [UQ_STAT_WM_NOW])
  have hp : queueKey (UQ_PKTS_PKTS (g * 5 + q)).key := queueKey_of hi 12 (by decide) rfl (by simp [UQ_PKTS_PKTS])
  have ho : queueKey (UQ_STAT_OPEN (g * 5 + q)).key := queueKey_of hi 8 (by decide) rfl (by simp [UQ_STAT_OPEN])
  have hw : queueKey (UQ_STAT_WM_SEEN (g * 5 + q)).key := queueKey_of hi 8 (by decide) rfl (by simp [UQ_STAT_WM_SEEN])
  have hs := (((((Queued.refl s).setQueues (tset s.upl.queues (g * 5 + q) {} x)).cset _ x.level hl).cset _
    (b2n (decide (s.cget (UQ_CFG_WM (g * 5 + q)) ≤ x.level))) hn).cset _ x.pkts.length hp).cset _ (b2n x.open_.isSome) ho
  unfold State.setQueue
  exact hs.when _ (fun z => z.cset (UQ_STAT_WM_SEEN (g * 5 + q)) 1) (hs.cset _ 1 hw)

/-- Queueing a packet changes the queues and the registers that show them. -/
theorem State.enqueue_queued (s : State) {g q : Nat} (x : Pkt) (hg : g < 4) (hq : q < 5) : Queued s (s.enqueue g q x) := by
  have hi : g * 5 + q < 20 := by omega
  have hd : queueKey (UQ_ERR_DROPPED (g * 5 + q)).key := queueKey_of hi 16 (by decide) rfl (by simp [UQ_ERR_DROPPED])
  have hf : queueKey (UQ_STAT_FULL_SEEN (g * 5 + q)).key := queueKey_of hi 8 (by decide) rfl (by simp [UQ_STAT_FULL_SEEN])
  have hb : Queued s (s.cbump (UQ_ERR_DROPPED (g * 5 + q))) := (Queued.refl s).cset _ _ hd
  unfold State.enqueue
  dsimp only
  split
  · exact hb
  · split
    · exact hb.cset _ _ hf
    · exact s.setQueue_queued _ hg hq

theorem State.enqueueAll_queued (s : State) {gs : List Nat} {q : Nat} (x : Pkt) (hg : ∀ g ∈ gs, g < 4) (hq : q < 5) :
    Queued s (s.enqueueAll gs q x) :=
  (Queued.refl s).foldl _ _ fun z g h hz => hz.trans (z.enqueue_queued x (hg g h) hq)

theorem State.sendMon_queued (s : State) (ws : List W64) : Queued s (s.sendMon ws) :=
  s.enqueueAll_queued _ (fun _ h => State.mem_groupsOf h) (by omega)

theorem State.monNotice_queued (s : State) (c : Nat) : Queued s (s.monNotice c) := s.sendMon_queued _

/-- An ALARM counts itself and is queued (R321). -/
theorem State.alarmAt_queued (s : State) (a : Nat) :
    Queued (s.modUpl fun u => { u with alarms := (s.upl.alarms + 1) % 2 ^ 32 }) (s.alarmAt a) := by
  unfold State.alarmAt
  refine (Queued.refl _).foldl _ _ fun z g h hz => ?_
  have hg := List.mem_range.1 h
  split
  · split <;> exact hz.trans (z.enqueue_queued _ hg (by omega))
  · exact hz

theorem State.alarm_alarms (s : State) (f : Fld) : (s.alarm f).upl.alarms = (s.upl.alarms + 1) % 2 ^ 32 :=
  (s.alarmAt_queued _).alarms_eq

theorem State.alarm_nvm (s : State) (f : Fld) : (s.alarm f).nvm = s.nvm := (s.alarmAt_queued _).nvm_eq

theorem State.alarm_regs (s : State) (f g : Fld) (hg : ¬ queueKey g.key) : (s.alarm f).cget g = s.cget g :=
  (s.alarmAt_queued _).regs g hg

/-- A status bit that becomes 1 counts one ALARM. -/
theorem State.raise_alarms (s : State) {f : Fld} (h : s.con f = false) : (s.raise f).upl.alarms = (s.upl.alarms + 1) % 2 ^ 32 := by
  simp only [State.raise, h, Bool.false_eq_true, if_false]
  exact State.alarm_alarms _ f

theorem State.raise_nvm (s : State) (f : Fld) : (s.raise f).nvm = s.nvm := by
  unfold State.raise
  split
  · rfl
  · exact State.alarm_nvm _ f

theorem State.raise_regs_of_not_queue (s : State) (f g : Fld) (hg : ¬ queueKey g.key) (hne : g.key ≠ f.key) :
    (s.raise f).cget g = s.cget g := by
  unfold State.raise
  split
  · rfl
  · rw [State.alarm_regs _ _ _ hg, State.cget_cset_ne _ _ _ _ hne]

/-! ### The log -/

/-- `t` is `s` with NVM programs of the log begun: the entries that wait are the same. -/
structure LogBegun (s t : State) : Prop where
  same : t = { s with creg := t.creg, nvm := { s.nvm with
    journal := t.nvm.journal, logBusy := t.nvm.logBusy, page := t.nvm.page, erasedPage := t.nvm.erasedPage } }
  regs : ∀ g : Fld, g.key ≠ NVM_STAT_BUSY.key → t.cget g = s.cget g

namespace LogBegun

variable {s t : State}

theorem refl (s : State) : LogBegun s s := ⟨rfl, fun _ _ => rfl⟩

theorem setJournal (h : LogBegun s t) (js : List NvmArea) : LogBegun s (t.setJournal js) := by
  refine ⟨?_, fun g hg => ?_⟩
  · rw [h.same]; rfl
  · rw [State.setJournal, State.cget_cset_ne _ _ _ _ hg]
    exact h.regs g hg

theorem program (h : LogBegun s t) (a : NvmArea) : LogBegun s (t.program a) := by
  unfold State.program
  split
  · exact h
  · exact h.setJournal _

theorem pages (h : LogBegun s t) (n pg : Nat) (e : Option Nat) :
    LogBegun s (t.modNvm fun x => { x with logBusy := n, page := pg, erasedPage := e }) := by
  refine ⟨?_, fun g hg => h.regs g hg⟩
  rw [h.same]; rfl

theorem upl_eq (h : LogBegun s t) : t.upl = s.upl := by rw [h.same]

theorem pending_eq (h : LogBegun s t) : t.nvm.pending = s.nvm.pending := by rw [h.same]

theorem overflow_eq (h : LogBegun s t) : t.nvm.overflow = s.nvm.overflow := by rw [h.same]

theorem latch0_eq (h : LogBegun s t) : t.nvm.latch0 = s.nvm.latch0 := by rw [h.same]

end LogBegun

theorem State.logStart_begun (s : State) : LogBegun s s.logStart := by
  unfold State.logStart
  split
  · exact .refl s
  · split
    · exact .refl s
    · dsimp only
      split
      · split
        · exact (((LogBegun.refl s).pages _ _ _).program _).program _
        · exact ((LogBegun.refl s).pages _ _ _).program _
      · split
        · exact (LogBegun.refl s).program _
        · exact .refl s

/-- The state of a Moraine entry being put into the log before its packet is queued. -/
def State.logKept (s : State) (e : LogEntry) : State :=
  let s1 := ((s.modNvm fun n => { n with pending := n.pending ++ [{ e with seq := s.cget MRN_SEQ_SEQ }] }).cwrap MRN_SEQ_SEQ 1).logStart
  s1.cset MRN_STAT_PEND s1.nvm.pending.length

theorem State.logPut_queued (s : State) (e : LogEntry) : Queued (s.logKept e) (s.logPut e) :=
  State.enqueueAll_queued _ _ (fun _ h => State.mem_groupsOf h) (by omega)

theorem State.logPut_pending (s : State) (e : LogEntry) :
    (s.logPut e).nvm.pending = s.nvm.pending ++ [{ e with seq := s.cget MRN_SEQ_SEQ }] := by
  rw [(s.logPut_queued e).nvm_eq]
  exact (State.logStart_begun _).pending_eq

theorem State.logPut_overflow (s : State) (e : LogEntry) : (s.logPut e).nvm.overflow = s.nvm.overflow := by
  rw [(s.logPut_queued e).nvm_eq]
  exact (State.logStart_begun _).overflow_eq

theorem State.logPut_alarms (s : State) (e : LogEntry) : (s.logPut e).upl.alarms = s.upl.alarms := by
  rw [(s.logPut_queued e).alarms_eq]
  exact congrArg UplinkSt.alarms (State.logStart_begun _).upl_eq

/-- Entries are numbered one after the other (R381). -/
theorem State.logPut_seq (s : State) (e : LogEntry) : (s.logPut e).cget MRN_SEQ_SEQ = (s.cget MRN_SEQ_SEQ + 1) % 2 ^ 64 := by
  rw [(s.logPut_queued e).regs _ (by unfold queueKey; decide), State.logKept, State.cget_cset_ne _ _ _ _ (by decide),
    (State.logStart_begun _).regs _ (by decide), State.cwrap, State.cget_cset_same]
  rfl

theorem State.logPut_pend (s : State) (e : LogEntry) : (s.logPut e).cget MRN_STAT_PEND = (s.nvm.pending.length + 1) % 2 ^ 11 := by
  rw [(s.logPut_queued e).regs _ (by unfold queueKey; decide), State.logKept, State.cget_cset_same, (State.logStart_begun _).pending_eq]
  simp [State.cwrap, MRN_STAT_PEND]

/-- With room in the log and nothing lost before, an entry is put into it. -/
theorem State.logAdd_of_room {s : State} (h : s.nvm.pending.length < 1024) (ho : s.nvm.overflow = 0) (e : LogEntry) :
    s.logAdd e = s.logPut e := by
  rw [State.logAdd, if_neg (by omega), if_pos ho]

end Sys2Proof.Machine

/-! ## PTP -/

namespace Sys2Proof.Machine

set_option Elab.async false

/-- A PTP port after a change of it. -/
@[simp] theorem State.ptp_modPtp (s : State) (v : Nat) (g : PtpPort → PtpPort) : (s.modPtp v g).ptp v = g (s.ptp v) :=
  tget_tset_same _ _ _ _

/-- `t` is `s` after time servo work: registers, the queues and the log have changed, the PTP ports and the selection have not. -/
structure ServoOnly (s t : State) : Prop where
  same : t = { s with creg := t.creg, tm := t.tm, upl := t.upl, nvm := t.nvm }
  ptp : t.tm.ptp = s.tm.ptp

namespace ServoOnly

variable {s t : State}

theorem refl (s : State) : ServoOnly s s := ⟨rfl, rfl⟩

theorem cset (h : ServoOnly s t) (f : Fld) (v : Nat) : ServoOnly s (t.cset f v) := by
  refine ⟨?_, h.ptp⟩
  rw [h.same]; rfl

theorem cbump (h : ServoOnly s t) (f : Fld) : ServoOnly s (t.cbump f) := h.cset f _

theorem modTm (h : ServoOnly s t) (g : TimeSt → TimeSt) (hg : ∀ m, (g m).ptp = m.ptp := by exact fun _ => rfl) :
    ServoOnly s (t.modTm g) := by
  refine ⟨?_, (hg t.tm).trans h.ptp⟩
  rw [h.same]; rfl

theorem notes (h : ServoOnly s t) {u : State} (hn : Notes t u) : ServoOnly s u := by
  refine ⟨?_, by rw [hn.tm_eq, h.ptp]⟩
  rw [hn.same, h.same]

theorem when (h : ServoOnly s t) (b : Bool) (g : State → State) (hg : ServoOnly s (g t)) : ServoOnly s (t.when b g) := by
  cases b
  · exact h
  · exact hg

theorem raise (h : ServoOnly s t) (f : Fld) : ServoOnly s (t.raise f) := by
  cases hf : t.con f with
  | true => rwa [State.raise_of_set t f hf]
  | false => exact (h.cset f 1).notes (t.raise_notes f hf)

theorem setQual (h : ServoOnly s t) (q : Nat) : ServoOnly s (t.setQual q) := (h.cset _ _).cset _ _

theorem acceptStep (h : ServoOnly s t) (ns : Int) : ServoOnly s (t.acceptStep ns) := by
  unfold State.acceptStep
  exact (((h.modTm _).cset _ _).cbump _).cset _ _

theorem refuseStep (h : ServoOnly s t) (ns : Int) : ServoOnly s (t.refuseStep ns) := by
  have h1 := (h.cset TIM_STEP_VAL_VAL (ofSigned 64 ns)).modTm (fun t => { t with belowRun := 0 })
  unfold State.refuseStep
  dsimp only
  split
  · exact h1
  · exact ((((h1.modTm _).setQual 3).cbump _).raise _).notes (State.logBit_notes _ _ _ _ _)

theorem judgeAsym (h : ServoOnly s t) (off : Int) : ServoOnly s (t.judgeAsym off) := by
  unfold State.judgeAsym
  dsimp only
  split
  · exact ((h.when _ _ (h.cbump _)).cset _ _).raise _
  · exact h.cset _ _

theorem judgeLock (h : ServoOnly s t) (off : Int) : ServoOnly s (t.judgeLock off) := by
  have h1 (run : Nat) : ServoOnly s (t.modTm fun t => { t with lockRun := run }) := h.modTm _
  have h2 (run : Nat) := ((h1 run).cset TIM_STAT_PTP_OK 1).modTm (fun t => { t with everLocked := true, holdover := false })
  unfold State.judgeLock
  generalize (if off.natAbs < 200 * 65536 then t.tm.lockRun + 1 else 0) = run
  dsimp only
  split
  · exact h1 run
  · split
    · exact h2 run
    · exact (h2 run).setQual 1

theorem endHoldover (h : ServoOnly s t) : ServoOnly s t.endHoldover := by
  unfold State.endHoldover
  split
  · exact h
  · exact h.modTm _

/-- However an offset is judged, only the servo's registers and structures change. -/
theorem judgeOffset (h : ServoOnly s t) (off : Int) : ServoOnly s (t.judgeOffset off) := by
  have h0 := h.cset TIM_OFFSET_OFS (ofSigned 32 (roundDivI off 4096))
  unfold State.judgeOffset
  dsimp only
  split
  · exact h0
  split
  · exact h0.judgeLock _
  split
  · split
    · exact (((h0.judgeAsym _).judgeLock _).when _ _ (((h0.judgeAsym _).judgeLock _).modTm _)).endHoldover
    · exact ((h0.judgeAsym _).judgeLock _).refuseStep _
  split
  · exact h0.acceptStep _
  split
  · exact h0.refuseStep _
  split
  · exact h0.modTm _
  · exact (h0.endHoldover.modTm _).judgeLock _

end ServoOnly

/-- A complete Sync leaves its measurement in its PTP port, and beside that only servo work happens. -/
theorem State.syncMeasured_servoOnly (s : State) (v : Nat) (ms : Int) :
    ServoOnly (s.modPtp v fun p => { p with masterToSlave := ms, twoStep := none }) (s.syncMeasured v ms) := by
  unfold State.syncMeasured
  dsimp only
  split
  · exact (ServoOnly.refl _).judgeOffset _
  · exact ServoOnly.refl _

theorem State.syncMeasured_ptp (s : State) (v : Nat) (ms : Int) :
    (s.syncMeasured v ms).ptp v = { s.ptp v with masterToSlave := ms, twoStep := none } := by
  unfold State.ptp
  rw [(s.syncMeasured_servoOnly v ms).ptp]
  exact s.ptp_modPtp v _

theorem State.syncMeasured_freg (s : State) (v : Nat) (ms : Int) : (s.syncMeasured v ms).freg = s.freg := by
  rw [(s.syncMeasured_servoOnly v ms).same]; rfl

theorem State.syncMeasured_firn (s : State) (v : Nat) (ms : Int) : (s.syncMeasured v ms).firn = s.firn := by
  rw [(s.syncMeasured_servoOnly v ms).same]; rfl

@[simp] theorem State.cset_ptp (s : State) (f : Fld) (n v : Nat) : (s.cset f n).ptp v = s.ptp v := rfl

/-- The selection leaves the PTP ports as they are. -/
@[simp] theorem State.reselect_ptp (s : State) (v : Nat) : s.reselect.ptp v = s.ptp v := by
  unfold State.reselect State.ptp State.enterHoldover State.setQual
  dsimp only
  split
  · rfl
  · split
    · split <;> rfl
    · rfl

/-- The Delay_Req interval is at least 1/16 s (R30). -/
theorem PtpPort.le_reqInterval (p : PtpPort) : 62500000 ≤ p.reqInterval := by
  unfold PtpPort.reqInterval
  split
  · exact Nat.le_refl _
  · split
    · have := Nat.one_le_two_pow (n := (‹Int›).toNat)
      omega
    · exact Nat.le_max_left _ _

/-- Settles O2: each message's change of its PTP port, read back from it; what a Sync starts beyond that leaves the ports. -/
theorem ptpMessagesAreKept : Obligations.PtpMessagesAreKept := by
  refine ⟨fun s v h t1 t2 corr hh => ⟨⟨_, rfl, ?_⟩, ⟨_, rfl, ?_⟩⟩, fun s v h arr t1 corr hh hs => ⟨_, rfl, ?_⟩,
    fun s v h t3 t4 corr sent hh hf hm => ⟨_, rfl, ?_⟩, fun s v a hh => ⟨_, rfl, ?_⟩, fun s v hh => ⟨_, rfl, ?_⟩,
    fun s v t3 hh hd => ⟨_, rfl, ?_⟩⟩
  · simp [hh, State.modPtp, State.modTm, State.ptp]
  · simp [hh, State.syncMeasured_ptp, State.syncMeasured_freg, State.syncMeasured_firn]
  · simp [hh, hs, State.syncMeasured_ptp]
  · simp only [hh, hf, hm, Bool.not_true, Bool.false_eq_true, if_false, if_true, State.ptp_modPtp]
    exact ⟨trivial, fun e he => by simpa using he, trivial, trivial, rfl⟩
  · simp only [hh, Bool.not_true, Bool.false_eq_true, if_false]
    split
    · next hsel =>
      refine ⟨by simp, by simp, fun _ => ⟨?_, ?_⟩⟩
      · rw [State.cget_cset_ne _ _ _ _ (by decide), State.cget_cset_same]
        exact b2n_mod_two a.arb
      · rw [State.cget_cset_same]
        exact Nat.mod_eq_of_lt a.utcOffset.isLt
    · next hsel => exact ⟨by simp, by simp, fun h => absurd h hsel⟩
  · simp [hh, State.modPtp, State.modTm, State.ptp]
  · simp only [hh, hd, Bool.not_true, Bool.or_self, Bool.false_eq_true, if_false]
    refine ⟨?_, ?_, PtpPort.le_reqInterval _, rfl, rfl⟩
    · simp [State.ptp, State.modPtp]
    · simp [State.ptp, State.modPtp]

end Sys2Proof.Machine

/-! ## The PPS input through a tick -/

namespace Sys2Proof.Machine

set_option Elab.async false

/-! ### Front-end operations leave the concentrator's registers -/

@[simp] theorem State.when_creg (s : State) (b : Bool) (g : State → State) : (s.when b g).creg = if b then (g s).creg else s.creg := by
  cases b <;> rfl

/-- A run of updates leaves the registers if each of them does. -/
theorem State.foldl_creg {α : Type} (g : State → α → State) (hg : ∀ z a, (g z a).creg = z.creg) (l : List α) (s : State) :
    (l.foldl g s).creg = s.creg := by
  induction l generalizing s with
  | nil => rfl
  | cons a r ih => exact (ih (g s a)).trans (hg s a)

/-! ### Front-ends: gate, monitoring, owner and channels -/

@[simp] theorem State.modFacts_creg (s : State) (p : Nat) (g : FrameFacts → FrameFacts) : (s.modFacts p g).creg = s.creg := rfl

@[simp] theorem State.modMon_creg (s : State) (p : Nat) (g : MonSt → MonSt) : (s.modMon p g).creg = s.creg := rfl

@[simp] theorem State.gateUpdate_creg (s : State) (p : Nat) (g : GateCmd) (pin : Bool) (slot : Nat) :
    (s.gateUpdate p g pin slot).creg = s.creg := by
  simp [State.gateUpdate, apply_ite State.creg]

@[simp] theorem State.gateApply_creg (s : State) (p : Nat) (g : GateCmd) : (s.gateApply p g).creg = s.creg := by
  simp [State.gateApply, apply_ite State.creg]

@[simp] theorem State.gateDrain_creg (s : State) (p ns : Nat) : (s.gateDrain p ns).creg = s.creg :=
  State.foldl_creg _ (fun z g => z.gateApply_creg p g) _ _

@[simp] theorem State.monStart_creg (s : State) (p ns : Nat) : (s.monStart p ns).creg = s.creg := by
  simp [State.monStart, apply_ite State.creg]

@[simp] theorem State.chanTick_creg (s : State) (p c : Nat) : (s.chanTick p c).creg = s.creg := by
  simp [State.chanTick, apply_ite State.creg]

@[simp] theorem State.showOwner_creg (s : State) (p : Nat) (o : Option Nat) (ov : Bool) : (s.showOwner p o ov).creg = s.creg := rfl

@[simp] theorem State.ownerEval_creg (s : State) (p : Nat) : (s.ownerEval p).creg = s.creg := by
  unfold State.ownerEval
  split
  · simp
  · simp [apply_ite State.creg]

@[simp] theorem State.feStandby_creg (s : State) (p : Nat) : (s.feStandby p).creg = s.creg := rfl

@[simp] theorem State.feTick_creg (s : State) (p : Nat) : (s.feTick p).creg = s.creg := by
  simp [State.feTick, State.foldl_creg _ (fun z k => z.chanTick_creg p (k % 512))]

/-! ### Front-ends: register accesses -/

@[simp] theorem State.healCopies_creg (s : State) (p w : Nat) : (s.healCopies p w).2.creg = s.creg := rfl

@[simp] theorem State.feWriteReg_creg (s : State) (p w v : Nat) : (s.feWriteReg p w v).creg = s.creg := by
  unfold State.feWriteReg
  split
  · rfl
  · exact State.foldl_creg _ (fun z f => z.fset_creg p f _) _ _

@[simp] theorem State.feWriteLater_creg (s : State) (p w v eff : Nat) : (s.feWriteLater p w v eff).creg = s.creg := by
  simp [State.feWriteLater]

@[simp] theorem State.gatePend_creg (s : State) (p ns kind : Nat) (open_ : Bool) (slot cross : Nat) :
    (s.gatePend p ns kind open_ slot cross).creg = s.creg := rfl

@[simp] theorem State.opChCfg_creg (s : State) (p c t v : Nat) : (s.opChCfg p c t v).creg = s.creg := by
  simp [State.opChCfg, apply_ite State.creg]

@[simp] theorem State.opGateCfg_creg (s : State) (p t v : Nat) : (s.opGateCfg p t v).creg = s.creg := by
  simp [State.opGateCfg]

@[simp] theorem State.opAdcStat_creg (s : State) (p b v : Nat) : (s.opAdcStat p b v).creg = s.creg := by
  refine (State.foldl_creg _ (fun z k => ?_) _ _).trans (s.feWriteReg_creg p _ v)
  split <;> rfl

@[simp] theorem State.opLnkVer_creg (s : State) (p k v : Nat) : (s.opLnkVer p k v).creg = s.creg := by
  simp [State.opLnkVer, apply_ite State.creg]

@[simp] theorem State.injectUp_creg (s : State) (p k v : Nat) : (s.injectUp p k v).creg = s.creg := by
  simp [State.injectUp, apply_ite State.creg]

@[simp] theorem State.feWriteWord_creg (s : State) (p w t v : Nat) : (s.feWriteWord p w t v).creg = s.creg := by
  simp [State.feWriteWord, apply_ite State.creg]

@[simp] theorem State.feWrite_creg (s : State) (p w t v : Nat) : (s.feWrite p w t v).creg = s.creg := by
  simp [State.feWrite, apply_ite State.creg]

@[simp] theorem State.feReadReg_creg (s : State) (p q w : Nat) : (s.feReadReg p q w).2.creg = s.creg := by
  unfold State.feReadReg
  split
  · rfl
  · rfl
  · refine (State.foldl_creg _ (fun z f => ?_) _ _).trans ?_
    · split <;> rfl
    · simp

@[simp] theorem State.opChcntRead_creg (s : State) (p : Nat) : (s.opChcntRead p).2.creg = s.creg := rfl

@[simp] theorem State.feRead_creg (s : State) (p q w : Nat) : (s.feRead p q w).2.creg = s.creg := by
  simp [State.feRead, apply_ite State.creg, apply_ite Prod.snd]

@[simp] theorem State.feAnswer_creg (s : State) (p q : Nat) (r : ReqPkt) (t : Inst) : (s.feAnswer p q r t).2.creg = s.creg := by
  simp [State.feAnswer, apply_ite State.creg, apply_ite Prod.snd]

@[simp] theorem State.setScan_creg (s : State) (x : Scan) : (s.setScan x).creg = s.creg := rfl

@[simp] theorem State.setGold_creg (s : State) (p w v : Nat) : (s.setGold p w v).creg = s.creg := rfl

@[simp] theorem State.sendFast_creg (s : State) (ps : List Nat) (code : Nat) : (s.sendFast ps code).creg = s.creg :=
  State.foldl_creg _ (fun z p => z.modPort_creg p _) _ _

/-! ### A tick leaves `TIM_STAT.PPS_OK` -/

/-- `t` shows the PPS input as `s` does. -/
def PpsSame (s t : State) : Prop := t.cget TIM_STAT_PPS_OK = s.cget TIM_STAT_PPS_OK

namespace PpsSame

variable {s t u : State}

theorem refl (s : State) : PpsSame s s := rfl

theorem trans (h : PpsSame s t) (h' : PpsSame t u) : PpsSame s u := Eq.trans h' h

theorem creg (h : PpsSame s t) (hc : u.creg = t.creg) : PpsSame s u := by
  have e : u.cget TIM_STAT_PPS_OK = t.cget TIM_STAT_PPS_OK := by simp only [State.cget, hc]
  exact e.trans h

theorem cset (h : PpsSame s t) (f : Fld) (v : Nat) (hr : f.reg ≠ 0x200030) (hl : f.lo < 64 := by decide) : PpsSame s (t.cset f v) := by
  refine (State.cget_cset_ne t f _ v ?_).trans h
  simp only [Fld.key, TIM_STAT_PPS_OK]
  omega

theorem csetStat (h : PpsSame s t) (f : Fld) (v : Nat) (hk : TIM_STAT_PPS_OK.key ≠ f.key := by decide) : PpsSame s (t.cset f v) :=
  (State.cget_cset_ne t f _ v hk).trans h

theorem notes (h : PpsSame s t) (hn : Notes t u) : PpsSame s u := (hn.regs _ (by unfold noteKey; decide)).trans h

theorem when (h : PpsSame s t) (b : Bool) (g : State → State) (hg : PpsSame s (g t)) : PpsSame s (t.when b g) := by
  cases b
  · exact h
  · exact hg

theorem ite {c : Prop} [Decidable c] (h : PpsSame s t) (h' : PpsSame s u) : PpsSame s (if c then t else u) := by
  split
  · exact h
  · exact h'

theorem foldl {α : Type} (h : PpsSame s t) (g : State → α → State) (l : List α) (hg : ∀ z a, PpsSame z (g z a)) :
    PpsSame s (l.foldl g t) := by
  induction l generalizing t with
  | nil => exact h
  | cons a r ih => exact ih (h.trans (hg t a))

theorem raise (h : PpsSame s t) (f : Fld) (hk : TIM_STAT_PPS_OK.key ≠ f.key := by decide) : PpsSame s (t.raise f) :=
  (State.raise_regs t f _ (by unfold noteKey; decide) hk).trans h

end PpsSame

theorem State.setMv_pps (s : State) (c st : Nat) : PpsSame s (s.setMv c st) := by
  unfold State.setMv
  exact (((PpsSame.refl s).cset (MV_CH_STAT_STATE c) _ (by simp [MV_CH_STAT_STATE]; omega)
      (by simp [MV_CH_STAT_STATE])).csetStat MV_STAT_BUSY _)

theorem State.freeze_pps (s : State) (m : Nat) : PpsSame s (s.freeze m) := by
  have h := (PpsSame.refl s).csetStat FWL_STAT_FROZEN (Nat.lor (s.cget FWL_STAT_FROZEN) (2 ^ m))
  unfold State.freeze
  dsimp only
  split
  · exact ((h.csetStat SP_STAT_FROZEN 1).csetStat SP_STAT_RUN 0).creg rfl
  · split
    · exact h.trans (State.setMv_pps _ _ _)
    · split
      · exact h.when _ _ (h.creg rfl)
      · exact h

theorem State.violation_pps (s : State) (m : Nat) (sp : Space) (key : Nat) (a : Access) : PpsSame s (s.violation m sp key a) := by
  have h := s.freeze_pps m
  have hl := (((((h.csetStat FWL_LOG0_MASTER m).csetStat FWL_LOG0_SPACE sp.code).csetStat FWL_LOG0_TYPE a.code).csetStat FWL_LOG1_KEY
      key).csetStat
    FWL_LOG2_NS (s.freeze m).tm.now.ns).csetStat FWL_LOG3_SEC (s.freeze m).tm.now.sec
  unfold State.violation
  exact (((h.when _ _ hl).raise FWL_STAT_VIOL).csetStat FWL_CNT_VIOL _).notes (State.logBit_notes _ _ _ _ _)

theorem State.proxyDirect_pps (s : State) (addr : Nat) (write : Option Nat) : PpsSame s (s.proxyDirect addr write).2.2 := by
  unfold State.proxyDirect
  generalize (addr - 0x1000000) / 0x4000 % 1024 = p
  have hp (z : State) (f : Fld) (v : Nat) (hr : 0x300000 ≤ f.reg) (hl : f.lo < 64) : PpsSame z (z.cset f v) :=
    (PpsSame.refl z).cset f v (by omega) hl
  dsimp only
  split
  · exact .refl s
  · have h1 : PpsSame s (s.modPort p fun x => { x with nextTid := (x.nextTid + 1) % 256 }) := (PpsSame.refl s).creg rfl
    split
    · exact h1.trans (hp _ _ _ (by simp only [PL_SC_TIMEOUT]; omega) (by simp [PL_SC_TIMEOUT]))
    · have h2 := h1.creg (State.feAnswer_creg _ p (s.face p)
        (OutReq.pkt ⟨(s.port p).nextTid, addr % 0x4000 / 4, write.map (BitVec.ofNat 32), s.tm.tick, none⟩)
        (State.nowInst (s.modPort p fun x => { x with nextTid := (x.nextTid + 1) % 256 })))
      split
      · refine PpsSame.trans ?_ (hp _ (PL_SC_LAST_CODE p) _ (by simp only [PL_SC_LAST_CODE]; omega) (by simp [PL_SC_LAST_CODE]))
        refine PpsSame.trans ?_ (hp _ (PL_SC_ERR_RESP p) _ (by simp only [PL_SC_ERR_RESP]; omega) (by simp [PL_SC_ERR_RESP]))
        exact h2.creg rfl
      · cases write with
        | some v => exact h2.creg (State.setGold_creg _ _ _ _)
        | none => exact h2

theorem State.spProxies_pps (s : State) (l : List (Nat × Nat × Nat)) : PpsSame s (s.spProxies l).2 := by
  induction l generalizing s with
  | nil => exact .refl s
  | cons e r ih =>
    obtain ⟨p, w, v⟩ := e
    have h1 : PpsSame s (s.guarded 0 .control (proxyAddr p w) .write id) :=
      PpsSame.ite (.refl s) (PpsSame.ite (.refl s) (s.violation_pps _ _ _ _))
    have h2 := h1.trans (State.proxyDirect_pps _ (proxyAddr p w) (some v))
    unfold State.spProxies
    dsimp only
    split
    · exact h1
    · split
      · exact h2
      · exact h2.trans (ih _)

theorem State.scanWrite_pps (s : State) (x : Scan) : PpsSame s (s.scanWrite x) := (s.spProxies_pps _).creg rfl

theorem State.scanTick_pps (s : State) : PpsSame s s.scanTick := by
  unfold State.scanTick
  split
  · exact .refl s
  · next x _ =>
    have h1 := (PpsSame.refl s).creg (s.sendFast_creg x.ports 3)
    dsimp only
    split
    · exact .refl s
    split
    · exact (PpsSame.refl s).creg rfl
    split
    · exact s.scanWrite_pps _
    split
    · exact h1.creg rfl
    split
    · exact h1.creg rfl
    split
    · exact h1.creg rfl
    · exact h1.trans (State.scanWrite_pps _ _)

theorem State.dropWaiting_pps (s : State) (p : Nat) : PpsSame s (s.dropWaiting p) := by
  unfold State.dropWaiting
  refine PpsSame.foldl (t := s.modPort p _) ((PpsSame.refl s).creg rfl) _ _ fun z r => ?_
  split
  · exact (PpsSame.refl z).creg rfl
  · exact .refl z

/-- The registers of the ports lie behind those of the time block. -/
theorem State.csetPort_pps (s : State) (f : Fld) (v : Nat) (hr : 0x300000 ≤ f.reg) (hl : f.lo < 64) : PpsSame s (s.cset f v) :=
  (PpsSame.refl s).cset f v (by omega) hl

theorem State.lockBegin_pps (s : State) (p : Nat) : PpsSame s (s.lockBegin p) :=
  (s.csetPort_pps (PL_EQ_FOUND p) _ (by simp only [PL_EQ_FOUND]; omega) (by simp [PL_EQ_FOUND])).creg rfl

@[simp] theorem State.portRequest_creg (s : State) (p w : Nat) (data : Option W32) (m : Option Nat) :
    (s.portRequest p w data m).creg = s.creg := rfl

theorem State.negBegin_pps (s : State) (p : Nat) : PpsSame s (s.negBegin p) := (PpsSame.refl s).creg (by simp [State.negBegin])

theorem State.plEnter_pps (s : State) (p st : Nat) : PpsSame s (s.plEnter p st) := by
  have h1 := s.csetPort_pps (PL_STAT_STATE p) st (by simp only [PL_STAT_STATE]; omega) (by simp [PL_STAT_STATE])
  unfold State.plEnter
  extract_lets s1 s2
  have h1 : PpsSame s s1 := h1.creg (State.modPort_creg _ _ _)
  clear_value s1
  have h2 : PpsSame s s2 := h1.when _ _ (h1.trans (State.dropWaiting_pps _ _))
  clear_value s2
  exact .ite (h2.trans (s2.lockBegin_pps p)) (.ite (h2.trans (s2.negBegin_pps p)) h2)

theorem State.testBegin_pps (s : State) (p : Nat) : PpsSame s (s.testBegin p) := by
  have h1 := (s.plEnter_pps p 7).trans
    (State.csetPort_pps _ (PL_PRBS_ERR_CNT p) 0 (by simp only [PL_PRBS_ERR_CNT]; omega) (by simp [PL_PRBS_ERR_CNT]))
  have h2 := h1.trans
    (State.csetPort_pps _ (PL_PRBS_CTRL_LOCKED p) 0 (by simp only [PL_PRBS_CTRL_LOCKED]; omega) (by simp [PL_PRBS_CTRL_LOCKED]))
  exact PpsSame.ite (h2.creg rfl) (h2.creg rfl)

theorem State.portTick_pps (s : State) (p : Nat) : PpsSame s (s.portTick p) :=
  ((PpsSame.refl s).when _ _ (s.testBegin_pps p)).creg rfl

theorem State.timers_pps (s : State) : PpsSame s s.timers := by
  unfold State.timers
  extract_lets s1 s2
  have h1 : PpsSame s s1 := by
    dsimp only [s1]
    split
    · exact .ite ((PpsSame.refl s).csetStat _ _) (.refl s)
    · exact .refl s
  have h2 : PpsSame s s2 := .ite (h1.csetStat _ _) h1
  split
  · exact h2.csetStat _ _
  · exact h2

theorem State.twinTick_pps (s : State) : PpsSame s s.twinTick := by
  have h1 (v w : Nat) := ((PpsSame.refl s).csetStat TWIN_HEALTH_BITS v).csetStat TWIN_STAT_HEALTHY w
  unfold State.twinTick
  extract_lets b s1 run asserts
  have h1 : PpsSame s s1 := h1 _ _
  clear_value s1
  exact .ite (.refl s) (h1.creg (State.modTwin_creg _ _))

theorem State.setQual_pps (s : State) (q : Nat) : PpsSame s (s.setQual q) :=
  ((PpsSame.refl s).csetStat TIM_STAT_QUAL _).csetStat TIM_STAT_LOCK _

theorem State.judgeRef_pps (s : State) : PpsSame s s.judgeRef :=
  PpsSame.ite (((PpsSame.refl s).creg rfl).trans (State.setQual_pps _ _)) (.refl s)

/-- A tick leaves the PPS input as it shows. -/
theorem State.tickTo_pps (s : State) (t : TimeVal) : PpsSame s (s.tickTo t) := by
  unfold State.tickTo
  extract_lets s1 s2 s3
  have h1 : PpsSame s s1 := by
    refine PpsSame.creg (t := s.servoTick) ?_ rfl
    exact ((PpsSame.refl s).creg rfl).trans (State.judgeRef_pps _)
  have h2 : PpsSame s s2 := h1.creg (State.foldl_creg _ State.feTick_creg _ _)
  have h3 : PpsSame s s3 := h2.trans s2.scanTick_pps
  exact ((h3.foldl _ _ State.portTick_pps).trans (State.timers_pps _)).trans (State.twinTick_pps _)

end Sys2Proof.Machine

/-! ## Losses of time sources -/

namespace Sys2Proof.Machine

set_option Elab.async false

/-! ### The selection of a port -/

/-- A PTP port that may be selected (R32). -/
def PtpPort.usable (x : PtpPort) : Bool := x.qualified && !x.lost

/-- With one port that may not be selected, the other one is selected if it may be. -/
theorem State.selectPort_of_not_usable {s : State} {v w : SvcIx} (hvw : v ≠ w) (hv : (s.ptp v).usable = false) :
    s.selectPort = if (s.ptp w).usable then some w.val else none := by
  unfold PtpPort.usable at *
  match v, w with
  | 0, 0 => exact absurd rfl hvw
  | 0, 1 =>
    replace hv : ((s.ptp 0).qualified && !(s.ptp 0).lost) = false := hv
    show _ = if (s.ptp 1).qualified && !(s.ptp 1).lost then some 1 else none
    simp [State.selectPort, hv]
  | 1, 0 =>
    replace hv : ((s.ptp 1).qualified && !(s.ptp 1).lost) = false := hv
    show _ = if (s.ptp 0).qualified && !(s.ptp 0).lost then some 0 else none
    simp [State.selectPort, hv]
  | 1, 1 => exact absurd rfl hvw

theorem State.selectPort_ne {s : State} {v : SvcIx} (hv : (s.ptp v).usable = false) : s.selectPort ≠ some v.val := by
  have hvw : v ≠ 1 - v := by clear hv; revert v; decide
  rw [State.selectPort_of_not_usable hvw hv]
  split
  · exact fun h => hvw (Fin.ext (Option.some.inj h).symm)
  · exact nofun

@[simp] theorem State.reselect_selected (s : State) : s.reselect.tm.selected = s.selectPort := by
  unfold State.reselect State.enterHoldover State.setQual
  dsimp only
  split
  · next h => exact h.symm
  · split
    · next h =>
      rw [h]
      split <;> rfl
    · rfl

/-- With no port left to select, holdover begins (R33). -/
theorem State.reselect_of_none {s : State} (h : s.selectPort = none) (hs : s.tm.selected ≠ none) :
    s.reselect = (s.modTm fun t => { t with selected := none, lockRun := 0 }).enterHoldover := by
  unfold State.reselect
  simp only [h]
  rw [if_neg (Ne.symm hs)]

/-- The selection changes six fields of `TIM_STAT` and `TIM_UTC_OFS` at most. -/
theorem State.reselect_regs (s : State) :
    RegsSame s s.reselect [TIM_STAT_PORT, TIM_STAT_PTP_OK, TIM_STAT_ARB, TIM_UTC_OFS_OFS, TIM_STAT_QUAL, TIM_STAT_LOCK] := by
  have h := RegsSame.refl s [TIM_STAT_PORT, TIM_STAT_PTP_OK, TIM_STAT_ARB, TIM_UTC_OFS_OFS, TIM_STAT_QUAL, TIM_STAT_LOCK]
  unfold State.reselect State.enterHoldover State.setQual
  dsimp only
  split
  · exact h
  · split
    · split
      · exact ((((h.modTm _).modTm _).cset _ _).cset _ _).cset _ _
      · exact ((h.modTm _).modTm _).cset _ _
    · exact ((((h.modTm _).cset _ _).cset _ _).cset _ _).cset _ _

theorem State.setQual_qual (s : State) {q : Nat} (hs : s.cget TIM_CTRL_SRC ≠ 2) (hq : q < 4) : (s.setQual q).cget TIM_STAT_QUAL = q := by
  unfold State.setQual
  rw [State.cget_cset_ne _ _ _ _ (by decide), if_neg hs, State.cget_cset_of_lt _ hq]

theorem State.setQual_regs (s : State) (q : Nat) : RegsSame s (s.setQual q) [TIM_STAT_QUAL, TIM_STAT_LOCK] :=
  ((RegsSame.refl s _).cset _ _).cset _ _

@[simp] theorem State.setQual_tm (s : State) (q : Nat) : (s.setQual q).tm = s.tm := rfl

theorem State.enterHoldover_tm (s : State) :
    s.enterHoldover.tm.selected = s.tm.selected ∧ s.enterHoldover.tm.holdover = true := by
  unfold State.enterHoldover
  dsimp only
  split <;> exact ⟨rfl, rfl⟩

/-- Holdover after a lock has quality 3 (R37). -/
theorem State.enterHoldover_qual {s : State} (hev : s.tm.everLocked = true) (hs : s.cget TIM_CTRL_SRC ≠ 2) :
    s.enterHoldover.cget TIM_STAT_QUAL = 3 := by
  unfold State.enterHoldover
  rw [if_pos hev]
  refine State.setQual_qual _ ?_ (by decide)
  rw [State.cget_cset_ne _ _ _ _ (by decide)]
  exact hs

/-- The master of the selected port is lost: the port counts as lost, and the selection is made again. -/
theorem State.portLost_of_selected {s : State} {v : Nat} (h : s.tm.selected = some v) :
    s.portLost v = ((s.modPtp v fun p => { p with lost := true, twoStep := none }).cset TIM_STAT_PTP_LOSS 1).reselect := by
  rw [State.portLost, if_pos h]

theorem State.portLost_ptp (s : State) (v : Nat) : (s.portLost v).ptp v = { s.ptp v with lost := true, twoStep := none } := by
  unfold State.portLost
  dsimp only
  split
  · rw [State.reselect_ptp, State.cset_ptp]
    exact s.ptp_modPtp v _
  · exact s.ptp_modPtp v _

theorem State.ptp_modPtp_ne (s : State) {v w : Nat} (g : PtpPort → PtpPort) (h : w ≠ v) : (s.modPtp v g).ptp w = s.ptp w :=
  tget_tset_ne _ _ _ _ h

/-- PTP_LOSS on the selected port. -/
theorem ptpLoss_clause (s : State) (v w : SvcIx) (hvw : v ≠ w) (hs : s.tm.selected = some v.val) :
    ∃ t, exec .ptpLoss s = .next t ∧ (t.ptp v).lost = true ∧ t.cget TIM_STAT_PTP_LOSS = 1 ∧
      ((s.ptp w).qualified = true → (s.ptp w).lost = false → t.tm.selected = some w.val) ∧
      ((s.ptp w).qualified = false → t.tm.selected = none ∧ t.tm.holdover = true ∧
        (s.tm.everLocked = true → s.cget TIM_CTRL_SRC ≠ 2 → t.cget TIM_STAT_QUAL = 3)) := by
  have he : exec .ptpLoss s = .next (s.portLost v.val) := by
    show execPtpLoss s = _
    simp [execPtpLoss, hs]
  have hwv : w.val ≠ v.val := fun h => hvw (Fin.ext h.symm)
  refine ⟨_, he, ?_, ?_, ?_⟩
  · rw [State.portLost_ptp]
  all_goals
    rw [State.portLost_of_selected hs]
    generalize hz : (s.modPtp v.val fun p => { p with lost := true, twoStep := none }).cset TIM_STAT_PTP_LOSS 1 = z
  · rw [z.reselect_regs _ (by decide), ← hz, State.cget_cset_of_lt _ (by decide)]
  · have hv : (z.ptp v).usable = false := by
      rw [← hz, State.cset_ptp, State.ptp_modPtp]
      simp [PtpPort.usable]
    have hw : z.ptp w = s.ptp w := by rw [← hz, State.cset_ptp, State.ptp_modPtp_ne _ _ hwv]
    have hsel := State.selectPort_of_not_usable hvw hv
    rw [hw] at hsel
    refine ⟨fun hq hl => ?_, fun hq => ?_⟩
    · rw [State.reselect_selected, hsel]
      simp [PtpPort.usable, hq, hl]
    · have hn : z.selectPort = none := by
        rw [hsel]
        simp [PtpPort.usable, hq]
      have hz0 : z.tm.selected ≠ none := by
        rw [← hz]
        exact fun h => by simp [State.modPtp, hs] at h
      rw [State.reselect_of_none hn hz0]
      have hsrc : z.cget TIM_CTRL_SRC = s.cget TIM_CTRL_SRC := by
        rw [← hz, State.cget_cset_ne _ _ _ _ (by decide)]
        rfl
      have hlock : z.tm.everLocked = s.tm.everLocked := by rw [← hz]; rfl
      refine ⟨?_, ?_, fun hev hne => ?_⟩
      · exact (State.enterHoldover_tm _).1
      · exact (State.enterHoldover_tm _).2
      · refine State.enterHoldover_qual (hlock.trans hev) ?_
        exact hsrc ▸ hne

/-- Without REFCLK and PPS, and without a locked port, the quality falls from 2 to 3 (R37). -/
theorem State.qualWithoutRef_qual {s : State} (hs : s.cget TIM_CTRL_SRC = 1) (hq : s.cget TIM_STAT_QUAL = 2)
    (hp : s.cget TIM_STAT_PTP_OK = 0) : s.qualWithoutRef.cget TIM_STAT_QUAL = 3 := by
  have hc : s.con TIM_STAT_PTP_OK = false := State.con_eq_false.2 hp
  unfold State.qualWithoutRef State.qual
  rw [if_pos hq, hc]
  exact State.setQual_qual _ (by omega) (by decide)

theorem State.qualWithoutRef_regs (s : State) : RegsSame s s.qualWithoutRef [TIM_STAT_QUAL, TIM_STAT_LOCK] := by
  unfold State.qualWithoutRef
  split
  · exact s.setQual_regs _
  · exact .refl s _

@[simp] theorem State.qualWithoutRef_tm (s : State) : s.qualWithoutRef.tm = s.tm := by
  unfold State.qualWithoutRef
  split <;> rfl

/-- REF_LOSS under `SRC` 1. -/
theorem refLoss_clause (s : State) (hs : s.cget TIM_CTRL_SRC = 1) :
    ∃ t, exec .refLoss s = .next t ∧ t.cget TIM_STAT_REF_LOSS = 1 ∧ t.cget TIM_STAT_REF_OK = 0 ∧
      t.tm = s.tm ∧ (s.cget TIM_STAT_QUAL = 2 → s.cget TIM_STAT_PTP_OK = 0 → t.cget TIM_STAT_QUAL = 3) := by
  have he : exec .refLoss s = .next (((s.cset TIM_STAT_REF_LOSS 1).cset TIM_STAT_REF_OK 0).cset TIM_STAT_ASYM_NOW 0).qualWithoutRef := by
    show execRefLoss s = _
    simp [execRefLoss, hs]
  refine ⟨_, he, ?_, ?_, by simp, fun hq hp => State.qualWithoutRef_qual ?_ ?_ ?_⟩
  · rw [State.qualWithoutRef_regs _ _ (by decide)]
    simp (disch := decide) only [State.cget_cset_ne, State.cget_cset_of_lt]
  · rw [State.qualWithoutRef_regs _ _ (by decide)]
    simp (disch := decide) only [State.cget_cset_ne, State.cget_cset_of_lt]
  all_goals simp (disch := decide) only [State.cget_cset_ne, hs, hq, hp]

/-- PPS_MISS under `SRC` 1. -/
theorem ppsMiss_clause (s : State) (hs : s.cget TIM_CTRL_SRC = 1) :
    ∃ t, exec .ppsMiss s = .next t ∧ t.cget TIM_STAT_PPS_MISS = 1 ∧ t.tm.now = s.tm.now ∧
      (2 ≤ s.tm.ppsMissRun → t.cget TIM_STAT_PPS_OK = 0) := by
  have he : exec .ppsMiss s = .next s.ppsMissed := by
    show execPpsMiss s = _
    simp [execPpsMiss, hs]
  refine ⟨_, he, ?_, ?_, fun hr => ?_⟩
  · unfold State.ppsMissed
    dsimp only
    split
    · rw [State.cget_cset_of_lt _ (by decide)]
    · rw [State.qualWithoutRef_regs _ _ (by decide), State.cget_cset_ne _ _ _ _ (by decide), State.cget_cset_of_lt _ (by decide)]
  · unfold State.ppsMissed
    dsimp only
    split
    · rfl
    · simp
  · unfold State.ppsMissed
    rw [if_neg (by omega), State.qualWithoutRef_regs _ _ (by decide), State.cget_cset_of_lt _ (by decide)]

@[simp] theorem State.judgeRef_now (s : State) : s.judgeRef.tm.now = s.tm.now := by
  unfold State.judgeRef
  extract_lets held
  split <;> rfl

@[simp] theorem State.judgeRef_phased (s : State) : s.judgeRef.tm.ppsPhased = s.tm.ppsPhased := by
  unfold State.judgeRef
  extract_lets held
  split <;> rfl

theorem TimeSt.slewFrame_phased (t : TimeSt) (slew : Nat) : (t.slewFrame slew).ppsPhased = t.ppsPhased := by
  unfold TimeSt.slewFrame
  dsimp only
  split <;> rfl

@[simp] theorem State.servoTick_phased (s : State) : s.servoTick.tm.ppsPhased = s.tm.ppsPhased := by
  unfold State.servoTick
  rw [State.judgeRef_phased]
  show (if _ then s.tm else _).ppsPhased = _
  split
  · rfl
  · exact TimeSt.slewFrame_phased _ _

/-- What a port's SYNC set and its front-end take over at a change of the time leaves the time and the registers. -/
theorem State.reloadPorts_tm_creg (s : State) : s.reloadPorts.tm = s.tm ∧ s.reloadPorts.creg = s.creg := by
  have hf (s0 z : State) (p : Nat) (c : Bool) : ((if c then (z.formSync p).modFe p fun x => { x with
      sec := s0.frame / framesPerSec % 65536, fis := s0.frame % framesPerSec, atTick := s0.tm.tick } else z.formSync p)).tm = z.tm ∧
      ((if c then (z.formSync p).modFe p fun x => { x with
      sec := s0.frame / framesPerSec % 65536, fis := s0.frame % framesPerSec,
          atTick := s0.tm.tick } else z.formSync p)).creg = z.creg := by
    cases c <;> exact ⟨rfl, rfl⟩
  unfold State.reloadPorts
  exact ⟨State.foldl_tm _ (fun z p => (hf s z p _).1) _ _, State.foldl_creg _ (fun z p => (hf s z p _).2) _ _⟩

@[simp] theorem State.reloadPorts_tm (s : State) : s.reloadPorts.tm = s.tm := s.reloadPorts_tm_creg.1

theorem State.reloadPorts_pps (s : State) : PpsSame s s.reloadPorts := (PpsSame.refl s).creg s.reloadPorts_tm_creg.2

/-- The first PPS edge phases the time: `PPS_OK` shows it, and the time stands at a whole second (R45). -/
theorem ppsGood_phase {s : State} {n : Nat} (hsel : s.tm.selected = none) (hi : s.cget TIM_STAT_INIT_SET = 0)
    (hp : s.tm.ppsPhased = false) :
    (s.ppsGood n).cget TIM_STAT_PPS_OK = 1 ∧ (s.ppsGood n).tm.now.ns = 0 ∧ (s.ppsGood n).tm.now.frac = 0 ∧
      (s.ppsGood n).tm.ppsPhased = true := by
  have hi : s.con TIM_STAT_INIT_SET = false := State.con_eq_false.2 hi
  unfold State.ppsGood
  simp only [hsel, hi, hp, Bool.or_false, Bool.false_eq_true, if_false, Option.isNone_none, if_true]
  generalize hz : State.tickTo _ _ = z
  have hz1 : z.cget TIM_STAT_PPS_OK = 1 := by
    rw [← hz, State.tickTo_pps]
    exact State.cget_cset_of_lt _ (f := TIM_STAT_PPS_OK) (v := 1) (by decide)
  have hz2 : z.tm.now = { sec := s.tm.now.nearestSec % 2 ^ 48, ns := 0, frac := 0 } := by rw [← hz, State.tickTo_now]
  have hz3 : z.tm.ppsPhased = true := by
    rw [← hz, State.tickTo_tm]
    exact State.servoTick_phased _
  refine ⟨?_, ?_, ?_, ?_⟩
  · rw [State.judgeRef_pps, State.reloadPorts_pps, hz1]
  all_goals simp only [State.judgeRef_now, State.judgeRef_phased, State.reloadPorts_tm, hz2, hz3]

/-- Settles O3: each loss clears its own bits, and the selection made again finds the other port or none. -/
theorem lostSourcesLeadToHoldover : Obligations.LostSourcesLeadToHoldover := by
  refine ⟨fun s v => ⟨_, rfl, ?_, ?_⟩, ptpLoss_clause, fun s v ho => ?_, fun s hs => ⟨refLoss_clause s hs, ppsMiss_clause s hs⟩,
    fun s d hs hd => ?_, fun s e sec hs he hsel hi hp => ?_⟩
  · rw [State.reselect_ptp, State.ptp_modPtp]
  · rw [State.reselect_selected]
    exact State.selectPort_ne (by rw [State.ptp_modPtp]; rfl)
  · have hx : exec (.delayRespTimeout v) s = .next
        (let s1 := s.modPtp v.val fun p => { p with respMissed := (s.ptp v.val).respMissed + 1, reqs := p.reqs.drop 1 }
         if 16 ≤ (s.ptp v.val).respMissed + 1 then s1.portLost v.val else s1) := by
      show execDelayRespTimeout v s = _
      simp [execDelayRespTimeout, ho]
    refine ⟨_, hx, ?_⟩
    dsimp only
    split
    · simp [State.portLost_ptp]
    · next h => exact ⟨by simp, by simp, fun h' => absurd (Nat.succ_le_succ h') h⟩
  · have hx : exec (.refReturn d) s = .next ((s.cset TIM_STAT_REF_OK 1).modTm fun t => { t with
        slewLeft := d, slewRem := 0, phaseSince := none }) := by
      show execRefReturn d s = _
      simp [execRefReturn, hs, Nat.not_lt.2 hd]
    refine ⟨_, hx, ?_, rfl, rfl, ((RegsSame.refl s _).cset _ _).modTm _⟩
    rw [State.modTm_cget, State.cget_cset_of_lt _ (by decide)]
  · have hx : exec (.ppsEdge e sec) s = .next (s.ppsGood sec.toNat) := by
      show execPpsEdge e sec s = _
      simp [execPpsEdge, hs, Nat.not_lt.2 he]
    exact ⟨_, hx, ppsGood_phase hsel hi hp⟩

end Sys2Proof.Machine

/-! ## Steps of the time -/

namespace Sys2Proof.Machine

set_option Elab.async false

/-! ### A refused step -/

theorem ofSigned_lt (w : Nat) (x : Int) : ofSigned w x < 2 ^ w := by
  unfold ofSigned
  have h : (0 : Int) < 2 ^ w := by positivity
  have := Int.emod_lt_of_pos x h
  have := Int.emod_nonneg x h.ne'
  zify
  omega

/-- The state of a refused step before its ALARM and its Moraine entry. -/
def State.stepHeld (s : State) (ns : Int) : State :=
  (((((s.cset TIM_STEP_VAL_VAL (ofSigned 64 ns)).modTm fun t => { t with belowRun := 0 }).modTm fun t =>
    { t with holdover := true, lockRun := 0 }).setQual 3).cbump TIM_EVT_CNT_STEP_REFUSED)

/-- An offset that is refused while no step is pending is sent as an ALARM and logged (R40, R41). -/
theorem State.refuseStep_new {s : State} (h : s.con TIM_STAT_STEP_PEND = false) (ns : Int) :
    s.refuseStep ns = ((s.stepHeld ns).raise TIM_STAT_STEP_PEND).logBit TIM_STAT_STEP_PEND 0xFF (ofSigned 64 ns) := by
  unfold State.refuseStep
  simp only [h, Bool.false_eq_true, if_false]
  rfl

theorem State.stepHeld_pend (s : State) (ns : Int) : (s.stepHeld ns).con TIM_STAT_STEP_PEND = s.con TIM_STAT_STEP_PEND := by
  unfold State.stepHeld State.setQual
  simp (disch := decide) only [State.con, State.cget_cbump_ne, State.cget_cset_ne, State.modTm_cget]

/-- Beside the registers of queues and log, a refused step reads as its held state with the bit set. -/
theorem State.refuseStep_regs {s : State} (h : s.con TIM_STAT_STEP_PEND = false) (ns : Int) (g : Fld) (hg : ¬ noteKey g.key)
    (hne : g.key ≠ TIM_STAT_STEP_PEND.key) : (s.refuseStep ns).cget g = (s.stepHeld ns).cget g := by
  rw [State.refuseStep_new h, (State.logBit_notes _ _ _ _ _).regs g hg, State.raise_regs _ _ _ hg hne]

theorem State.refuseStep_tm {s : State} (h : s.con TIM_STAT_STEP_PEND = false) (ns : Int) :
    (s.refuseStep ns).tm = { s.tm with belowRun := 0, holdover := true, lockRun := 0 } := by
  rw [State.refuseStep_new h, State.logBit_tm, State.raise_tm]
  rfl

theorem State.refuseStep_pend {s : State} (h : s.con TIM_STAT_STEP_PEND = false) (ns : Int) :
    (s.refuseStep ns).cget TIM_STAT_STEP_PEND = 1 := by
  rw [State.refuseStep_new h, (State.logBit_notes _ _ _ _ _).regs _ (by unfold noteKey; decide)]
  exact State.raise_same _ rfl (by unfold noteKey; decide)

/-- A refused step takes the next number of the log, if the log has room (R381). -/
theorem State.refuseStep_seq {s : State} (h : s.con TIM_STAT_STEP_PEND = false) (hr : s.nvm.pending.length < 1024)
    (ho : s.nvm.overflow = 0) (ns : Int) :
    (s.refuseStep ns).cget MRN_SEQ_SEQ = (s.cget MRN_SEQ_SEQ + 1) % 2 ^ 64 ∧
      (s.refuseStep ns).upl.alarms = (s.upl.alarms + 1) % 2 ^ 32 := by
  have hn : ((s.stepHeld ns).raise TIM_STAT_STEP_PEND).nvm = s.nvm := State.raise_nvm _ _
  have hp : (s.stepHeld ns).con TIM_STAT_STEP_PEND = false := (s.stepHeld_pend ns).trans h
  have hs : (s.stepHeld ns).cget MRN_SEQ_SEQ = s.cget MRN_SEQ_SEQ := by
    unfold State.stepHeld State.setQual
    simp (disch := decide) only [State.cget_cbump_ne, State.cget_cset_ne, State.modTm_cget]
  rw [State.refuseStep_new h, State.logBit, State.logAdd_of_room (by rw [hn]; exact hr) (by rw [hn]; exact ho)]
  constructor
  · rw [State.logPut_seq, State.raise_regs_of_not_queue _ _ _ (by unfold queueKey; decide) (by decide), hs]
  · rw [State.logPut_alarms, State.raise_alarms _ hp]
    rfl

/-- An offset above the jump threshold, under PTP alone and after the initial set, is refused (R40). -/
theorem State.judgeOffset_refused {s : State} (hs : s.cget TIM_CTRL_SRC = 0) (hi : s.con TIM_STAT_INIT_SET = true) {off : Int}
    (hj : s.cget TIM_JUMP_JUMP * 65536 < off.natAbs) :
    s.judgeOffset off = (s.cset TIM_OFFSET_OFS (ofSigned 32 (roundDivI off 4096))).refuseStep (roundDivI off 65536) := by
  unfold State.judgeOffset State.onRef
  simp [hs, hi, hj]

theorem State.modPtp_cget (s : State) (v : Nat) (g : PtpPort → PtpPort) (f : Fld) : (s.modPtp v g).cget f = s.cget f := rfl

theorem State.modPtp_con (s : State) (v : Nat) (g : PtpPort → PtpPort) (f : Fld) : (s.modPtp v g).con f = s.con f := rfl

/-- A one-step Sync of the selected port above the jump threshold. -/
theorem ptpSync_refused_clause (s : State) (v : SvcIx) (h : PtpHdr) (t1 t2 corr : Int) (hh : s.ptpHears v h.ethernet h.domain = true)
    (hsel : s.tm.selected = some v.val) (hs : s.cget TIM_CTRL_SRC = 0) (hi : s.con TIM_STAT_INIT_SET = true)
    (hp : s.con TIM_STAT_STEP_PEND = false) (hr : s.nvm.pending.length < 1024) (ho : s.nvm.overflow = 0) {off : Int}
    (hoff : -(s.ingress v t2 - t1 - corr - (s.ptp v).pathDelay - toSigned 32 (s.cget TIM_PTP_ASYM_ASYM) * 4096) = off)
    (hj : s.cget TIM_JUMP_JUMP * 65536 < off.natAbs) :
    ∃ t, exec (.ptpSync v true h t1 t2 corr) s = .next t ∧ t.cget TIM_STAT_STEP_PEND = 1 ∧
      t.cget TIM_STEP_VAL_VAL = ofSigned 64 (roundDivI off 65536) ∧ t.cget TIM_STAT_QUAL = 3 ∧ t.tm.holdover = true ∧
      t.cget TIM_EVT_CNT_STEP_REFUSED = min (s.cget TIM_EVT_CNT_STEP_REFUSED + 1) 255 ∧
      t.cget MRN_SEQ_SEQ = (s.cget MRN_SEQ_SEQ + 1) % 2 ^ 64 ∧ t.upl.alarms = (s.upl.alarms + 1) % 2 ^ 32 ∧
      t.tm.now = s.tm.now ∧ t.tm.slewLeft = s.tm.slewLeft := by
  obtain ⟨z, hz⟩ : ∃ z, z = (s.modPtp v.val fun p => { p with masterToSlave := s.ingress v.val t2 - t1 - corr, twoStep := none }).cset
      TIM_OFFSET_OFS (ofSigned 32 (roundDivI off 4096)) := ⟨_, rfl⟩
  have he : exec (.ptpSync v true h t1 t2 corr) s = .next (z.refuseStep (roundDivI off 65536)) := by
    show execPtpSync v true h t1 t2 corr s = _
    simp only [execPtpSync, hh, Bool.not_true, Bool.false_eq_true, if_false, if_true, State.syncMeasured, hsel, hoff]
    rw [State.judgeOffset_refused (by rw [State.modPtp_cget, hs]) (by rw [State.modPtp_con, hi]) (by rw [State.modPtp_cget]; exact hj),
        hz]
  have hzp : z.con TIM_STAT_STEP_PEND = false := by
    rw [hz, State.con_cset_ne _ _ _ _ (by decide)]
    exact hp
  have hzt : z.tm.now = s.tm.now ∧ z.tm.slewLeft = s.tm.slewLeft := by
    rw [hz]
    exact ⟨rfl, rfl⟩
  have hzn : z.nvm = s.nvm ∧ z.upl = s.upl := by
    rw [hz]
    exact ⟨rfl, rfl⟩
  have hzr (g : Fld) (hg : g.key ≠ TIM_OFFSET_OFS.key) : z.cget g = s.cget g := by
    rw [hz, State.cget_cset_ne _ _ _ _ hg]
    rfl
  obtain ⟨hseq, hal⟩ := State.refuseStep_seq hzp (by rw [hzn.1]; exact hr) (by rw [hzn.1]; exact ho) (roundDivI off 65536)
  have htm := State.refuseStep_tm hzp (roundDivI off 65536)
  have hregs (g : Fld) := State.refuseStep_regs hzp (roundDivI off 65536) g
  refine ⟨_, he, State.refuseStep_pend hzp _, ?_, ?_, by rw [htm], ?_, ?_, ?_, by rw [htm]; exact hzt.1, by rw [htm]; exact hzt.2⟩
  · rw [hregs _ (by unfold noteKey; decide) (by decide)]
    unfold State.stepHeld State.setQual
    simp (disch := decide) only [State.cget_cbump_ne, State.cget_cset_ne, State.modTm_cget]
    exact State.cget_cset_of_lt _ (ofSigned_lt 64 _)
  · rw [hregs _ (by unfold noteKey; decide) (by decide)]
    unfold State.stepHeld
    rw [State.cget_cbump_ne _ _ _ (by decide), State.setQual_qual _ ?_ (by decide)]
    simp (disch := decide) only [State.cget_cset_ne, State.modTm_cget, hzr, hs]
    decide
  · rw [hregs _ (by unfold noteKey; decide) (by decide)]
    unfold State.stepHeld State.setQual
    rw [State.cget_cbump_sat]
    simp (disch := decide) only [State.cget_cset_ne, State.modTm_cget, hzr]
    rfl
  · rw [hseq, hzr _ (by decide)]
  · rw [hal, hzn.2]

/-! ### Writes of `TIM_STEP` and `TIM_STEP_VAL` -/

theorem State.opTimStep_apply {s : State} {v : Nat} (h0 : bitAt v 0 = true) (h1 : bitAt v 1 = false) (hk : bits v 16 16 = 0xA5C3)
    (hp : s.con TIM_STAT_STEP_PEND = true) (hb : s.stepBlocked s.stepVal = false) : s.opTimStep v = s.acceptStep s.stepVal := by
  simp [State.opTimStep, h0, h1, hk, hp, hb]

theorem State.opTimStep_key {s : State} {v : Nat} (h1 : bitAt v 1 = false) (hk : bits v 16 16 ≠ 0xA5C3) :
    s.opTimStep v = s.cbump TIM_EVT_CNT_KEY_ERR := by
  simp [State.opTimStep, h1, hk]

theorem State.opTimStep_both {s : State} {v : Nat} (h0 : bitAt v 0 = true) (h1 : bitAt v 1 = true) :
    s.opTimStep v = s.cset TIM_STAT_CFG_ERR 1 := by
  simp [State.opTimStep, h0, h1]

theorem State.opTimStep_withdraw {s : State} {v : Nat} (h0 : bitAt v 0 = false) (h1 : bitAt v 1 = true) :
    s.opTimStep v = (s.cset TIM_STAT_STEP_PEND 0).modTm fun t => { t with belowRun := 0 } := by
  simp [State.opTimStep, h0, h1]

/-- The high word of `TIM_STEP_VAL` replaces the upper half of the value. -/
theorem stepVal_merge_high (old v : Nat) (hv : v < 2 ^ 32) : TIM_STEP_VAL_VAL.merge old v true = old % 2 ^ 32 + v * 2 ^ 32 := by
  have hb : bits v 0 32 = v := by
    unfold bits
    rw [pow_zero, Nat.div_one, Nat.mod_eq_of_lt hv]
  show old % 2 ^ 32 + bits v 0 32 * 2 ^ 32 = _
  rw [hb]

theorem exec_stepApply {s : State} {m : MasterIx} (hf : s.frozen m = false) (hp : s.permitted m .control 0x20002C .write = true)
    (v : W32) :
    exec (.stepApply m v) s = .next ((s.opTimStep v.toNat).answer m false 0) := by
  show Host.Outcome.next (s.guarded m.val .control 0x20002C .write fun z => (z.opTimStep v.toNat).answer m.val false 0) = _
  rw [State.guarded_of_permitted hf hp]

theorem exec_stepWithdraw {s : State} {m : MasterIx} (hf : s.frozen m = false) (hp : s.permitted m .control 0x20002C .write = true)
    (v : W32) :
    exec (.stepWithdraw m v) s = .next ((s.opTimStep v.toNat).answer m false 0) := by
  show Host.Outcome.next (s.guarded m.val .control 0x20002C .write fun z => (z.opTimStep v.toNat).answer m.val false 0) = _
  rw [State.guarded_of_permitted hf hp]

/-- What a write of `TIM_STEP` does under its key, without it, and with both bits (R41, R42). -/
theorem stepApply_clause (s : State) (m : MasterIx) (v : W32) (hf : s.frozen m = false)
    (hp : s.permitted m .control 0x20002C .write = true) :
    (bitAt v.toNat 0 = true → bitAt v.toNat 1 = false → bits v.toNat 16 16 = 0xA5C3 → s.con TIM_STAT_STEP_PEND = true →
      s.stepBlocked s.stepVal = false →
      ∃ t, exec (.stepApply m v) s = .next t ∧ t.cget TIM_STAT_STEP_PEND = 0 ∧ t.cget TIM_STAT_INIT_SET = 1 ∧
        t.tm.slewLeft = s.stepVal.tmod 4000 * 65536 ∧ t.tm.now = s.tm.now ∧
        (s.stepVal.tdiv 4000 ≠ 0 → s.tm.stepFrames = none → t.tm.stepFrames = some (s.stepVal.tdiv 4000)) ∧
        t.cget TIM_EVT_CNT_STEP_APPLIED = min (s.cget TIM_EVT_CNT_STEP_APPLIED + 1) 255 ∧
        RegsSame s t [TIM_STAT_STEP_PEND, TIM_STAT_INIT_SET, TIM_EVT_CNT_STEP_APPLIED] ∧
        t = { s with creg := t.creg, tm := t.tm, sp := t.sp }) ∧
    (bitAt v.toNat 1 = false → bits v.toNat 16 16 ≠ 0xA5C3 →
      ∃ t, exec (.stepApply m v) s = .next t ∧ t.cget TIM_EVT_CNT_KEY_ERR = min (s.cget TIM_EVT_CNT_KEY_ERR + 1) 255 ∧
        RegsSame s t [TIM_EVT_CNT_KEY_ERR] ∧ t = { s with creg := t.creg, sp := t.sp }) ∧
    (bitAt v.toNat 0 = true → bitAt v.toNat 1 = true →
      ∃ t, exec (.stepApply m v) s = .next t ∧ t.cget TIM_STAT_CFG_ERR = 1 ∧ RegsSame s t [TIM_STAT_CFG_ERR] ∧
        t = { s with creg := t.creg, sp := t.sp }) ∧
    (bitAt v.toNat 0 = false → bitAt v.toNat 1 = true →
      ∃ t, exec (.stepWithdraw m v) s = .next t ∧ t.cget TIM_STAT_STEP_PEND = 0 ∧ t.cget TIM_STAT_QUAL = s.cget TIM_STAT_QUAL ∧
        RegsSame s t [TIM_STAT_STEP_PEND] ∧ t = { s with creg := t.creg, tm := t.tm, sp := t.sp }) := by
  have h := RegsSame.refl s
  refine ⟨fun h0 h1 hk hpend hb => ⟨_, exec_stepApply hf hp v, ?_⟩, fun h1 hk => ⟨_, exec_stepApply hf hp v, ?_⟩,
    fun h0 h1 => ⟨_, exec_stepApply hf hp v, ?_⟩, fun h0 h1 => ⟨_, exec_stepWithdraw hf hp v, ?_⟩⟩
  · rw [State.opTimStep_apply h0 h1 hk hpend hb]
    unfold State.acceptStep
    dsimp only
    refine ⟨?_, ?_, rfl, rfl, fun hw hn => ?_, ?_, (((((h _).modTm _).cset _ _).cbump _).cset _ _).answer _ _ _, rfl⟩
    · simp (disch := decide) only [State.answer_cget, State.cget_cset_ne, State.cget_cbump_ne, State.cget_cset_of_lt]
    · simp (disch := decide) only [State.answer_cget, State.cget_cset_of_lt]
    · show (if stepWhole s.stepVal = 0 then s.tm.stepFrames else some (s.tm.stepFrames.getD 0 + stepWhole s.stepVal)) = _
      rw [if_neg (show stepWhole s.stepVal ≠ 0 from hw), hn]
      exact congrArg some (Int.zero_add _)
    · simp (disch := decide) only [State.answer_cget, State.cget_cset_ne, State.cget_cbump_sat, State.modTm_cget]
      rfl
  · rw [State.opTimStep_key h1 hk]
    exact ⟨(State.answer_cget _ _ _ _ _).trans (State.cget_cbump_sat _ _), ((h _).cbump _).answer _ _ _, rfl⟩
  · rw [State.opTimStep_both h0 h1]
    refine ⟨?_, ((h _).cset _ _).answer _ _ _, rfl⟩
    simp (disch := decide) only [State.answer_cget, State.cget_cset_of_lt]
  · rw [State.opTimStep_withdraw h0 h1]
    refine ⟨?_, ?_, (((h _).cset _ _).modTm _).answer _ _ _, rfl⟩ <;>
      simp (disch := decide) only [State.answer_cget, State.modTm_cget, State.cget_cset_ne, State.cget_cset_of_lt]

/-- A value put into `TIM_STEP_VAL` becomes a pending step. -/
theorem State.stepVal_pending (s : State) (m : Nat) {x : Nat} (hx : x < 2 ^ TIM_STEP_VAL_VAL.width) :
    ∃ t, ((s.cset TIM_STEP_VAL_VAL x).cset TIM_STAT_STEP_PEND 1).answer m false 0 = t ∧ t.cget TIM_STAT_STEP_PEND = 1 ∧
      t.cget TIM_STEP_VAL_VAL = x ∧ RegsSame s t [TIM_STAT_STEP_PEND, TIM_STEP_VAL_VAL] ∧ t = { s with creg := t.creg, sp := t.sp } := by
  refine ⟨_, rfl, ?_, ?_, (((RegsSame.refl s _).cset _ _).cset _ _).answer _ _ _, rfl⟩
  · simp (disch := decide) only [State.answer_cget, State.cget_cset_of_lt]
  · rw [State.answer_cget, State.cget_cset_ne _ _ _ _ (by decide), State.cget_cset_of_lt _ hx]

/-- A write of the high word of `TIM_STEP_VAL` (R29). -/
theorem stepValWrite_clause (s : State) (m : MasterIx) (v : W32) (hf : s.frozen m = false)
    (hp : s.permitted m .control 0x20003C .write = true) :
    ∃ t, exec (.stepValWrite m v) s = .next t ∧
      (s.cget TIM_CTRL_SRC = 2 → t.cget TIM_STAT_STEP_PEND = 1 ∧
        t.cget TIM_STEP_VAL_VAL = s.cget TIM_STEP_VAL_VAL % 2 ^ 32 + v.toNat * 2 ^ 32 ∧
        RegsSame s t [TIM_STAT_STEP_PEND, TIM_STEP_VAL_VAL]) ∧
      (s.cget TIM_CTRL_SRC ≠ 2 → t.cget TIM_STAT_CFG_ERR = 1 ∧ RegsSame s t [TIM_STAT_CFG_ERR]) ∧
      t = { s with creg := t.creg, sp := t.sp } := by
  have he : exec (.stepValWrite m v) s = .next ((s.opStepVal true v.toNat).answer m false 0) := by
    show Host.Outcome.next (s.guarded m.val .control 0x20003C .write fun z => (z.opStepVal true v.toNat).answer m.val false 0) = _
    rw [State.guarded_of_permitted hf hp]
  by_cases hs : s.cget TIM_CTRL_SRC = 2
  · have ho : s.opStepVal true v.toNat =
        (s.cset TIM_STEP_VAL_VAL (s.cget TIM_STEP_VAL_VAL % 2 ^ 32 + v.toNat * 2 ^ 32)).cset TIM_STAT_STEP_PEND 1 := by
      unfold State.opStepVal
      rw [if_neg (not_not_intro hs), stepVal_merge_high _ _ v.isLt]
      exact if_pos rfl
    have hlt : s.cget TIM_STEP_VAL_VAL % 2 ^ 32 + v.toNat * 2 ^ 32 < 2 ^ TIM_STEP_VAL_VAL.width :=
      (show ∀ a b : Nat, b < 2 ^ 32 → a % 2 ^ 32 + b * 2 ^ 32 < 2 ^ 64 by omega) _ _ v.isLt
    obtain ⟨t, ht, hpend, hval, hregs, hsame⟩ := s.stepVal_pending m hlt
    rw [ho, ht] at he
    exact ⟨t, he, fun _ => ⟨hpend, hval, hregs⟩, fun h => absurd hs h, hsame⟩
  · have ho : s.opStepVal true v.toNat = s.cset TIM_STAT_CFG_ERR 1 := if_pos hs
    rw [ho] at he
    refine ⟨_, he, fun h => absurd h hs, fun _ => ⟨?_, ((RegsSame.refl s _).cset _ _).answer _ _ _⟩, rfl⟩
    simp (disch := decide) only [State.answer_cget, State.cget_cset_of_lt]

/-! ### The whole frames of a step -/

@[simp] theorem State.refreshEdges_tm (s : State) : s.refreshEdges.tm = s.tm := by
  unfold State.refreshEdges
  extract_lets live h s1
  have h1 : s1.tm = s.tm := by
    dsimp only [s1]
    split <;> rfl
  clear_value s1
  refine (State.foldl_tm _ ?_ _ _).trans h1
  intro z r
  rfl

@[simp] theorem State.freeSlice_tm (s : State) (k : Nat) : (s.freeSlice k).tm = s.tm := by
  unfold State.freeSlice
  dsimp only
  refine (State.foldl_tm _ ?_ _ _).trans (State.modFirn_tm _ _)
  intro z r
  rfl

@[simp] theorem State.setIxe_tm (s : State) (k : Nat) (x : IxEntry) : (s.setIxe k x).tm = s.tm := rfl

@[simp] theorem State.calveSlices_tm (s : State) (ks : List Nat) : (s.calveSlices ks).tm = s.tm := by
  unfold State.calveSlices
  rw [State.refreshEdges_tm]
  exact State.foldl_tm _ (fun z k => by simp) _ _

@[simp] theorem State.releasePin_tm (s : State) (n : Nat) : (s.releasePin n).tm = s.tm := by
  have ht (z : State) : (z.truncCore n).tm = z.tm := by
    unfold State.truncCore
    split <;> rfl
  have hc (z : State) (o : Nat) : (z.calveReleased o).tm = z.tm := by
    simp [State.calveReleased, apply_ite State.tm]
  unfold State.releasePin
  rw [hc, ht]
  rfl

@[simp] theorem State.releaseCovering_tm (s : State) (k : Nat) : (s.releaseCovering k).tm = s.tm :=
  State.foldl_tm _ (fun z n => z.releasePin_tm n) _ _

@[simp] theorem State.closeChains_tm (s : State) (k : Nat) : (s.closeChains k).tm = s.tm := by
  unfold State.closeChains
  refine State.foldl_tm _ ?_ _ _
  intro z r
  refine (State.foldl_tm _ ?_ _ _).trans (State.modRgn_tm _ _ _)
  intro y c
  rfl

@[simp] theorem State.countFrames_tm (s : State) (k n : Nat) : (s.countFrames k n).tm = s.tm := by
  simp [State.countFrames, apply_ite State.tm]

@[simp] theorem State.claim_tm (s : State) (k st frames : Nat) : (s.claim k st frames).tm = s.tm := by
  simp [State.claim, apply_ite State.tm]

@[simp] theorem State.stepIndex_tm (s : State) (a b : Nat) : (s.stepIndex a b).tm = s.tm := by
  have hf (l : List Nat) (z : State) : (l.foldl (fun z k => (z.releaseCovering k).freeSlice k) z).tm = z.tm :=
    State.foldl_tm _ (fun _ _ => by simp) _ _
  have hg (l : List Nat) (z : State) : (l.foldl (fun z k => ((z.releaseCovering k).freeSlice k).setIxe k
      { ((z.releaseCovering k).freeSlice k).ixe k with state := 3, pins := 0 }) z).tm = z.tm :=
    State.foldl_tm _ (fun _ _ => by simp) _ _
  have hc (l : List Nat) (h : Nat → Nat) (z : State) : (l.foldl (fun z i => z.claim (h i) 0 0) z).tm = z.tm :=
    State.foldl_tm _ (fun _ _ => by simp) _ _
  have hr (z : State) (g : FirnSt → FirnSt) (ks : List Nat) :
      (((z.cadd FRN_EVT_STEP_CALVE ks.length).refreshEdges).modFirn g).tm = z.tm := by
    rw [State.modFirn_tm, State.refreshEdges_tm]
    rfl
  unfold State.stepIndex
  extract_lets ka kb s0 s1 skipped ks0 s2 n s3 ks s1'
  have h0 : s0.tm = s.tm := by simp only [s0, apply_ite State.tm, State.claim_tm, ite_self]
  have h1 : s1.tm = s.tm := by rw [State.countFrames_tm, h0]
  clear_value s1
  have h2 : s2.tm = s.tm := by
    dsimp only [s2]
    split
    · rw [State.modFirn_tm, hf, h1]
    · exact h1
  clear_value s2
  split
  · rfl
  · split
    · split
      · rw [State.countFrames_tm, h0]
      · rw [State.claim_tm, hc, h2]
    · rw [State.claim_tm, hr, hg]

@[simp] theorem State.stepCrevasse_tm (s : State) (a b : Nat) : (s.stepCrevasse a b).tm = s.tm := by
  simp [State.stepCrevasse, apply_ite State.tm, State.addCrev]

/-- What a jump over the targets of the timed outputs leaves of the time. -/
theorem State.toutJump_tm (s : State) (j a b : Nat) : (s.toutJump j a b).tm = { s.tm with tout := (s.toutJump j a b).tm.tout } := by
  unfold State.toutJump
  dsimp only
  split
  · split <;> rfl
  · rfl

/-- A frame number below 2^48 seconds is that of its time. -/
theorem TimeVal.frame_ofFrame {n : Nat} (h : n < 2 ^ 48 * 250000) (r : Nat) (hr : r < 4000) (fr : Nat) :
    TimeVal.frame { TimeVal.ofFrame n with ns := (TimeVal.ofFrame n).ns + r, frac := fr } = n := by
  have h1 : n / 250000 % 2 ^ 48 = n / 250000 := Nat.mod_eq_of_lt (Nat.div_lt_of_lt_mul (by omega))
  have h2 : (n % 250000 * 4000 + r) / 4000 = n % 250000 := by omega
  simp only [TimeVal.frame, TimeVal.ofFrame, framesPerSec, h1, h2]
  omega

theorem wholeFrameStep_clause (s : State) (w : Int) (hw : s.tm.stepFrames = some w) (ha : s.tm.stepAsk < s.tm.tick)
    (h0 : 0 ≤ s.frame + w) (hn : s.tm.now.ns % 4000 = 0) (hfr : s.tm.now.frac = 0) (hl : s.frame + w < 2 ^ 48 * 250000) :
    ∃ t, exec .wholeFrameStep s = .next t ∧ (t.frame : Int) = s.frame + w ∧ t.tm.stepFrames = none ∧ t.tm.tick = s.tm.tick ∧
      t.tm.now.ns % 4000 = 0 ∧ t.tm.now.frac = 0 := by
  obtain ⟨b, hb⟩ := Int.eq_ofNat_of_zero_le h0
  have hbl : b < 2 ^ 48 * 250000 := by omega
  have hmax : (max 0 ((s.frame : Int) + w)).toNat = b := by omega
  have key : ∃ t, exec .wholeFrameStep s = .next t ∧ t.tm.now = { TimeVal.ofFrame b with
      ns := (TimeVal.ofFrame b).ns + s.tm.now.ns % 4000, frac := s.tm.now.frac } ∧ t.tm.stepFrames = none ∧ t.tm.tick = s.tm.tick := by
    have he : exec .wholeFrameStep s = execWholeFrameStep s := rfl
    unfold execWholeFrameStep at he
    simp only [hw, Nat.not_le.2 ha, if_false, hmax] at he
    refine ⟨_, he, ?_⟩
    simp only [State.stepCores, State.modTrg_tm, State.stepCrevasse_tm, State.stepIndex_tm, State.reloadPorts_tm, List.range_succ,
        List.range_zero,
      List.nil_append, List.cons_append, List.foldl_cons, List.foldl_nil]
    rw [State.toutJump_tm, State.toutJump_tm]
    exact ⟨rfl, rfl, rfl⟩
  obtain ⟨t, he, hnow, hsf, ht⟩ := key
  refine ⟨t, he, ?_, hsf, ht, ?_, ?_⟩
  · rw [hb, State.frame, hnow, TimeVal.frame_ofFrame hbl _ (Nat.mod_lt _ (by decide))]
  · rw [hnow]
    show ((TimeVal.ofFrame b).ns + s.tm.now.ns % 4000) % 4000 = 0
    rw [hn]
    simp [TimeVal.ofFrame]
  · rw [hnow]
    exact hfr

@[simp] theorem State.judgeRef_tick (s : State) : s.judgeRef.tm.tick = s.tm.tick := by
  unfold State.judgeRef
  extract_lets held
  split <;> rfl

@[simp] theorem State.servoTick_tick (s : State) : s.servoTick.tm.tick = s.tm.tick := by
  have hs (t : TimeSt) (slew : Nat) : (t.slewFrame slew).tick = t.tick := by
    unfold TimeSt.slewFrame
    dsimp only
    split <;> rfl
  unfold State.servoTick
  rw [State.judgeRef_tick]
  show (if _ then s.tm else _).tick = _
  split
  · rfl
  · exact hs _ _

/-- Settles O4: a refused offset is held, raised and logged; each write of the step registers has one branch of its rule; and the
whole frames of a step set the time while nothing behind them touches it. -/
theorem stepsAreRefusedAppliedOrDropped : Obligations.StepsAreRefusedAppliedOrDropped := by
  refine ⟨fun s v h t1 t2 corr hh hsel hs hi hp hr ho hj => ptpSync_refused_clause s v h t1 t2 corr hh hsel hs hi hp hr ho rfl hj,
    stepApply_clause, stepValWrite_clause, fun s hp hr => ?_,
    wholeFrameStep_clause, fun s => ⟨_, exec_frameTick s, ?_⟩⟩
  · have he : exec .pendingStepDrop s = .next ((s.cset TIM_STAT_STEP_PEND 0).modTm fun t => { t with
        belowRun := 0, holdover := false, lockRun := 0 }) := by
      show execPendingStepDrop s = _
      simp [execPendingStepDrop, hp, hr]
    refine ⟨_, he, ?_, rfl, rfl, ((RegsSame.refl s _).cset _ _).modTm _⟩
    simp (disch := decide) only [State.modTm_cget, State.cget_cset_of_lt]
  · rw [State.tickTo_tm]
    exact congrArg (· + 1) (State.servoTick_tick s)

end Sys2Proof.Machine

/-! ## Register words -/

namespace Sys2Proof.Machine

set_option Elab.async false

/-- A run of register writes changes the register table only. -/
theorem State.foldl_cset_same (w : Fld → Nat) (fs : List Fld) (s : State) :
    fs.foldl (fun z f => z.cset f (w f)) s = { s with creg := (fs.foldl (fun z f => z.cset f (w f)) s).creg } := by
  induction fs generalizing s with
  | nil => rfl
  | cons f r ih => exact ih (s.cset f (w f))

/-- A write of a register word changes the register table only. -/
theorem State.writeReg_same (s : State) (m a v : Nat) : (s.writeReg m a v).1 = { s with creg := (s.writeReg m a v).1.creg } := by
  unfold State.writeReg
  split
  · rfl
  · next fs hi _ =>
    dsimp only
    generalize hz : fs.foldl _ s = z
    have h : z = { s with creg := z.creg } := by
      rw [← hz]
      exact State.foldl_cset_same (fun f => f.written (s.cget f) v hi s.glb.locked (decide (m = 0) && s.con PRO_GWIN_OPEN)) fs s
    generalize (!(decide (m = 0) && s.con PRO_GWIN_OPEN) && fs.any fun f => decide (f.acc = .guarded) && f.inWord hi) = b
    cases b
    · exact h
    · exact congrArg (fun y : State => y.cset PRO_STAT_CFG_ERR 1) h

@[simp] theorem State.writeReg_tm (s : State) (m a v : Nat) : (s.writeReg m a v).1.tm = s.tm := by rw [State.writeReg_same]

/-- A register without guarded fields is written field by field. -/
theorem State.writeReg_of_plain {s : State} {a : Nat} {fs : List Fld} {hi : Bool} (hr : findReg regClasses 4 a = some (fs, hi))
    (hg : (fs.any fun f => decide (f.acc = .guarded) && f.inWord hi) = false) (m v : Nat) :
    (s.writeReg m a v).1 = fs.foldl (fun z f => z.cset f
      (f.written (s.cget f) v hi s.glb.locked (decide (m = 0) && s.con PRO_GWIN_OPEN))) s := by
  unfold State.writeReg
  rw [hr]
  simp only [hg, Bool.and_false]
  rfl

/-- A write of a register word leaves the fields of every other register. -/
theorem State.writeReg_cget_ne {s : State} {a : Nat} {fs : List Fld} {hi : Bool} (hr : findReg regClasses 4 a = some (fs, hi))
    (hg : (fs.any fun f => decide (f.acc = .guarded) && f.inWord hi) = false) (m v : Nat) {g : Fld} (hne : ∀ f ∈ fs, g.key ≠ f.key) :
    (s.writeReg m a v).1.cget g = s.cget g := by
  rw [State.writeReg_of_plain hr hg]
  exact State.foldl_cset_cget_ne _ _ s hne

end Sys2Proof.Machine

/-! ## Trigger inputs and timed outputs -/

namespace Sys2Proof.Machine

set_option Elab.async false

/-- Time moved forward within the frame changes the time structure only. -/
theorem State.toInst_tmOnly (s : State) (i : Inst) : ∃ x, s.toInst i = { s with tm := x } := ⟨(s.toInst i).tm, rfl⟩

/-! ### Trigger inputs -/

/-- A trigger-input edge in the active direction, with the level long or short enough that no free value decides it. -/
theorem exec_tinEdge {s : State} {i : Fin 8} (hen : s.con (TIN_CFG_EN i) = true) (t : Inst) {w : Nat} (hw : w < 117965 ∨ 144179 < w) :
    exec (.tinEdge i t (!(s.con (TIN_CFG_POL i))) w) s = .next (
      if 144179 < w then
        if (match (tget s.tm.tin i {}).lastStamp with | some l => decide (s.mono t < l + 16 * 65536) | none => false) = true then
          (s.toInst t).cbump (TIN_CNT_LOST i)
        else
          let s1 := s.toInst t
          let base := (s1.tm.now.sec * 1000000000 + s1.tm.now.ns / 4000 * 4000) * 65536
          let tv := TimeVal.ofInst (((base + t / 128 * 128 : Nat) : Int) - toSigned 16 (s1.cget (TIN_CFG_DLY i)) * 128).toNat
          (s1.modTm fun m => { m with tin := tset m.tin i {} { lastStamp := some (s1.mono t), stamps :=
              (tget s.tm.tin i {}).stamps ++ [{ frame := tv.frame, time := tv, qual := s1.qual }] } }).cbump
            (TIN_CNT_ACCEPT i)
      else (s.toInst t).cbump (TIN_CNT_GLITCH i)) := by
  have hpol : ((!(s.con (TIN_CFG_POL i))) == s.con (TIN_CFG_POL i)) = false := by cases s.con (TIN_CFG_POL i) <;> rfl
  show execTinEdge i t _ w s = _
  unfold execTinEdge
  simp only [hen, hpol, Bool.not_true, Bool.or_self, Bool.false_eq_true, if_false, hw, if_true]
  by_cases h : 144179 < w
  · simp only [h, b2n, decide_true, if_true, Nat.reduceMod, Nat.one_ne_zero, if_false]
    rfl
  · simp only [h, b2n, decide_false, Bool.false_eq_true, if_false, Nat.zero_mod, if_true]

theorem tinEdge_clause (s : State) (i : Fin 8) (t : Inst) (w : Nat) (hen : s.con (TIN_CFG_EN i) = true) :
    (w < 117965 → ∃ u, exec (.tinEdge i t (!(s.con (TIN_CFG_POL i))) w) s = .next u ∧
      u.cget (TIN_CNT_GLITCH i) = min (s.cget (TIN_CNT_GLITCH i) + 1) 255 ∧ RegsSame s u [TIN_CNT_GLITCH i]) ∧
    (144179 < w → (tget s.tm.tin i {}).lastStamp = none → ∃ u, exec (.tinEdge i t (!(s.con (TIN_CFG_POL i))) w) s = .next u ∧
      u.cget (TIN_CNT_ACCEPT i) = min (s.cget (TIN_CNT_ACCEPT i) + 1) 65535 ∧ RegsSame s u [TIN_CNT_ACCEPT i] ∧
      (tget u.tm.tin i {}).lastStamp = some (s.mono t) ∧
      (tget u.tm.tin i {}).stamps.length = (tget s.tm.tin i {}).stamps.length + 1) ∧
    (144179 < w → ∀ l, (tget s.tm.tin i {}).lastStamp = some l → s.mono t < l + 16 * 65536 →
      ∃ u, exec (.tinEdge i t (!(s.con (TIN_CFG_POL i))) w) s = .next u ∧
        u.cget (TIN_CNT_LOST i) = min (s.cget (TIN_CNT_LOST i) + 1) 255 ∧ RegsSame s u [TIN_CNT_LOST i] ∧ u.tm.tin = s.tm.tin) := by
  have h := (RegsSame.refl s)
  refine ⟨fun hw => ?_, fun hw hl => ?_, fun hw l hl hm => ?_⟩
  · refine ⟨_, exec_tinEdge hen t (.inl hw), ?_⟩
    rw [if_neg (by omega)]
    exact ⟨State.cget_cbump_sat _ _, ((h _).toInst _).cbump _⟩
  · refine ⟨_, exec_tinEdge hen t (.inr hw), ?_⟩
    simp only [hw, hl, Bool.false_eq_true, if_true, if_false]
    refine ⟨State.cget_cbump_sat _ _, (((h _).toInst _).modTm _).cbump _, ?_, ?_⟩
    · simp only [State.cbump_tm, State.modTm_tm, tget_tset_same]
      rfl
    · simp only [State.cbump_tm, State.modTm_tm, tget_tset_same, List.length_append, List.length_singleton]
  · refine ⟨_, exec_tinEdge hen t (.inr hw), ?_⟩
    simp only [hw, hl, hm, decide_true, if_true]
    exact ⟨State.cget_cbump_sat _ _, ((h _).toInst _).cbump _, rfl⟩

/-! ### Timed outputs -/

@[simp] theorem State.modTout_cget (s : State) (j : Nat) (g : ToutSt → ToutSt) (f : Fld) : (s.modTout j g).cget f = s.cget f := rfl

@[simp] theorem State.tout_modTout (s : State) (j : Nat) (g : ToutSt → ToutSt) :
    tget (s.modTout j g).tm.tout j {} = g (tget s.tm.tout j {}) := tget_tset_same _ _ _ _

/-- The fields of `TOUT_CTRL`. -/
def toutCtrlFields (j : Nat) : List Fld :=
  [TOUT_CTRL_ARM j, TOUT_CTRL_POL j, TOUT_CTRL_FIRED j, TOUT_CTRL_LATE j, TOUT_CTRL_SKIP j, TOUT_CTRL_ERR j]

theorem findReg_toutCtrl : ∀ j : Fin 2, findReg regClasses 4 (0x200200 + 32 * j.val) = some (toutCtrlFields j, false) := by
  decide +kernel

theorem toutCtrlFields_spec {j : Nat} {f : Fld} (hf : f ∈ toutCtrlFields j) : f.reg = 0x200200 + 32 * j ∧ f.lo < 64 := by
  simp only [toutCtrlFields, List.mem_cons, List.not_mem_nil, or_false] at hf
  rcases hf with rfl | rfl | rfl | rfl | rfl | rfl <;>
    simp [TOUT_CTRL_ARM, TOUT_CTRL_POL, TOUT_CTRL_FIRED, TOUT_CTRL_LATE, TOUT_CTRL_SKIP, TOUT_CTRL_ERR]

/-- The state of a write of `TOUT_CTRL` before `ARM` is judged. -/
def State.toutWritten (s : State) (j v : Nat) : State :=
  ((s.writeReg 0 (0x200200 + 32 * j) v).1).cset (TOUT_CTRL_ARM j) (b2n (s.con (TOUT_CTRL_ARM j)))

theorem State.toutWritten_tm (s : State) (j v : Nat) : (s.toutWritten j v).tm = s.tm := by
  rw [State.toutWritten, State.cset_tm, State.writeReg_tm]

/-- The write leaves the registers of the target, the width and the period. -/
theorem State.toutWritten_regs (s : State) (j : Fin 2) (v : Nat) {g : Fld} (hr : g.reg ≠ 0x200200 + 32 * j) (hl : g.lo < 64) :
    (s.toutWritten j v).cget g = s.cget g := by
  have hne : ∀ f ∈ toutCtrlFields j, g.key ≠ f.key := fun f hf => by
    obtain ⟨h1, h2⟩ := toutCtrlFields_spec hf
    simp only [Fld.key]
    omega
  unfold State.toutWritten
  rw [State.cget_cset_ne _ _ _ _ (hne _ (by simp [toutCtrlFields])), State.writeReg_cget_ne (findReg_toutCtrl j) rfl _ _ hne]

theorem State.toutWritten_arm (s : State) (j v : Nat) : (s.toutWritten j v).con (TOUT_CTRL_ARM j) = s.con (TOUT_CTRL_ARM j) := by
  unfold State.toutWritten
  simp only [State.con, State.cget_cset_of_lt _ (show b2n _ < 2 ^ (TOUT_CTRL_ARM j).width from b2n_lt_two _)]
  cases (s.cget (TOUT_CTRL_ARM j) != 0) <;> rfl

theorem State.toutWritten_target (s : State) (j : Fin 2) (v : Nat) :
    (s.toutWritten j v).toutTarget j = s.toutTarget j ∧ (s.toutWritten j v).cget (TOUT_PERIOD_P j) = s.cget (TOUT_PERIOD_P j) := by
  have h (g : Fld) (hr : g.reg ≠ 0x200200 + 32 * j) (hl : g.lo < 64) := s.toutWritten_regs j v hr hl
  unfold State.toutTarget
  rw [h (TOUT_TGT_SEC_LO_SEC j) (by simp [TOUT_TGT_SEC_LO_SEC]) (by simp [TOUT_TGT_SEC_LO_SEC]),
    h (TOUT_TGT_SEC_HI_SEC j) (by simp [TOUT_TGT_SEC_HI_SEC]) (by simp [TOUT_TGT_SEC_HI_SEC]),
    h (TOUT_TGT_NS_NS j) (by simp [TOUT_TGT_NS_NS]) (by simp [TOUT_TGT_NS_NS]),
    h (TOUT_TGT_FRAC_FRAC j) (by simp [TOUT_TGT_FRAC_FRAC]) (by simp [TOUT_TGT_FRAC_FRAC]),
    h (TOUT_PERIOD_P j) (by simp [TOUT_PERIOD_P]) (by simp [TOUT_PERIOD_P])]
  exact ⟨rfl, rfl⟩

theorem exec_toutArm {s : State} {j : Fin 2} {m : MasterIx} (hf : s.frozen m = false)
    (hp : s.permitted m .control (0x200200 + 32 * j) .write = true) (v : W32) (hv : bitAt v.toNat 0 = true)
    (ha : s.con (TOUT_CTRL_ARM j) = false) : exec (.toutArm j m v) s = .next
        (((s.toutWritten j v.toNat).armTout j).answer m false 0) := by
  show Host.Outcome.next (s.guarded m.val .control (0x200200 + 32 * j.val) .write fun z =>
      (z.opTout j.val v.toNat).answer m.val false 0) = _
  rw [State.guarded_of_permitted hf hp]
  unfold State.opTout
  simp only [hv, ha, Bool.not_true, Bool.false_eq_true, if_false]
  unfold State.toutWritten
  rw [ha]

theorem toutCtrl_clause (s : State) (j : Fin 2) (m : MasterIx) (v : W32) (hf : s.frozen m = false)
    (hp : s.permitted m .control (0x200200 + 32 * j) .write = true) :
    (bitAt v.toNat 0 = true → s.con (TOUT_CTRL_ARM j) = false → s.tm.now.inst + 8000 * 65536 ≤ s.toutTarget j →
      s.cget (TOUT_PERIOD_P j) = 0 → ∃ t, exec (.toutArm j m v) s = .next t ∧ t.cget (TOUT_CTRL_ARM j) = 1 ∧
        (tget t.tm.tout j {}).target = s.toutTarget j) ∧
    (bitAt v.toNat 0 = true → s.con (TOUT_CTRL_ARM j) = false → s.toutTarget j < s.tm.now.inst + 8000 * 65536 →
      ∃ t, exec (.toutArm j m v) s = .next t ∧ t.cget (TOUT_CTRL_ARM j) = 0 ∧ t.cget (TOUT_CTRL_LATE j) = 1) ∧
    (bitAt v.toNat 0 = false → ∃ t, exec (.toutDisarm j m v) s = .next t ∧ t.cget (TOUT_CTRL_ARM j) = 0 ∧
      (tget t.tm.tout j {}).pulse = false) := by
  obtain ⟨htgt, hper⟩ := s.toutWritten_target j v.toNat
  have htm := s.toutWritten_tm j v.toNat
  refine ⟨fun hv ha hlate hp0 => ⟨_, exec_toutArm hf hp v hv ha, ?_⟩, fun hv ha hlate => ⟨_, exec_toutArm hf hp v hv ha, ?_⟩,
    fun hv => ?_⟩
  · have hz : (s.toutWritten j v.toNat).armTout j = ((s.toutWritten j v.toNat).cset (TOUT_CTRL_ARM j) 1).modTout j fun x =>
        { x with target := s.toutTarget j, skipped := false } := by
      unfold State.armTout
      simp only [htgt, hper, hp0, htm, Nat.not_lt.2 hlate, ne_eq, not_true_eq_false, false_and, decide_false, Bool.or_self,
        Bool.false_eq_true, if_false]
    rw [hz]
    constructor
    · rw [State.answer_cget, State.modTout_cget, State.cget_cset_of_lt _ (by simp [TOUT_CTRL_ARM])]
    · rw [State.answer_tm, State.tout_modTout]
  · have harm : (s.toutWritten j v.toNat).cget (TOUT_CTRL_ARM j) = 0 := State.con_eq_false.1 ((s.toutWritten_arm j v.toNat).trans ha)
    have hk1 : (TOUT_CTRL_ARM j).key ≠ (TOUT_CTRL_LATE j).key := by simp [Fld.key, TOUT_CTRL_ARM, TOUT_CTRL_LATE]
    have hk2 : (TOUT_CTRL_ARM j).key ≠ (TOUT_CTRL_ERR j).key := by simp [Fld.key, TOUT_CTRL_ARM, TOUT_CTRL_ERR]
    have hk3 : (TOUT_CTRL_LATE j).key ≠ (TOUT_CTRL_ERR j).key := by simp [Fld.key, TOUT_CTRL_ERR, TOUT_CTRL_LATE]
    have hl1 : ((s.toutWritten j v.toNat).cset (TOUT_CTRL_LATE j) 1).cget (TOUT_CTRL_LATE j) = 1 := State.cget_cset_of_lt _
        (by simp [TOUT_CTRL_LATE])
    unfold State.armTout
    simp only [htgt, htm, hlate, decide_true, Bool.true_or, if_true, State.when_true, State.answer_cget]
    refine (show ∀ bad : Bool, (((s.toutWritten j v.toNat).cset (TOUT_CTRL_LATE j) 1).when bad
      fun z => z.cset (TOUT_CTRL_ERR j) 1).cget (TOUT_CTRL_ARM j) = 0 ∧ (((s.toutWritten j v.toNat).cset (TOUT_CTRL_LATE j) 1).when bad
      fun z => z.cset (TOUT_CTRL_ERR j) 1).cget (TOUT_CTRL_LATE j) = 1 from fun bad => ?_) _
    cases bad
    · exact ⟨(State.cget_cset_ne _ _ _ _ hk1).trans harm, hl1⟩
    · exact ⟨(State.cget_cset_ne _ _ _ _ hk2).trans ((State.cget_cset_ne _ _ _ _ hk1).trans harm),
        (State.cget_cset_ne _ _ _ _ hk3).trans hl1⟩
  · have he : exec (.toutDisarm j m v) s = .next
        ((((s.toutWritten j v.toNat).cset (TOUT_CTRL_ARM j) 0).modTout j fun t => { t with pulse := false }).answer m false 0) := by
      show Host.Outcome.next (s.guarded m.val .control (0x200200 + 32 * j.val) .write fun z =>
          (z.opTout j.val v.toNat).answer m.val false 0) = _
      rw [State.guarded_of_permitted hf hp]
      unfold State.opTout
      simp only [hv, Bool.not_false, if_true]
      rfl
    refine ⟨_, he, ?_, ?_⟩
    · rw [State.answer_cget, State.modTout_cget, State.cget_cset_of_lt _ (by simp [TOUT_CTRL_ARM])]
    · rw [State.answer_tm, State.tout_modTout]

/-- TOUT_FIRE, with the start of the frame in progress named. -/
theorem toutFire_clause (s : State) (j : Fin 2) (ha : s.con (TOUT_CTRL_ARM j) = true) (hsk : (tget s.tm.tout j {}).skipped = false)
    {base : Nat} (hb : (s.tm.now.sec * 1000000000 + s.tm.now.ns / 4000 * 4000) * 65536 = base)
    (htg : (tget s.tm.tout j {}).target < base + instPerFrame) :
    ∃ t, exec (.toutFire j) s = .next t ∧ (tget t.tm.tout j {}).pulse = true ∧
      (tget t.tm.tout j {}).began = (tget s.tm.tout j {}).target ∧
      (base ≤ (tget s.tm.tout j {}).target →
        (tget t.tm.tout j {}).ends = s.tm.tick * instPerFrame + ((tget s.tm.tout j {}).target - base) +
          max 1 (s.cget (TOUT_WIDTH_W j)) * 8 * 65536) ∧
      (s.cget (TOUT_PERIOD_P j) = 0 → t.cget (TOUT_CTRL_ARM j) = 0 ∧ t.cget (TOUT_CTRL_FIRED j) = 1) ∧
      (s.cget (TOUT_PERIOD_P j) ≠ 0 → t.cget (TOUT_CTRL_ARM j) = 1 ∧
        (tget t.tm.tout j {}).target = (tget s.tm.tout j {}).target + s.cget (TOUT_PERIOD_P j) * 65536) := by
  obtain ⟨z, hz⟩ : ∃ z, z = (s.toInst ((tget s.tm.tout j {}).target - base)).modTout j fun y => { y with
      pulse := true, began := (tget s.tm.tout j {}).target
      ends := s.mono ((tget s.tm.tout j {}).target - base) + s.toutWidth j * 65536
      target := y.target + s.cget (TOUT_PERIOD_P j) * 65536 } := ⟨_, rfl⟩
  have he : exec (.toutFire j) s = .next (if s.cget (TOUT_PERIOD_P j) * 65536 = 0 then
      (z.cset (TOUT_CTRL_ARM j) 0).cset (TOUT_CTRL_FIRED j) 1 else z) := by
    show execToutFire j s = _
    unfold execToutFire
    simp only [hb, ha, hsk, Bool.not_false, Bool.and_self, Bool.true_and, decide_eq_true_eq]
    rw [if_pos htg, hz]
  have htout : tget z.tm.tout j {} = { tget s.tm.tout j {} with
      pulse := true, began := (tget s.tm.tout j {}).target
      ends := s.mono ((tget s.tm.tout j {}).target - base) + s.toutWidth j * 65536
      target := (tget s.tm.tout j {}).target + s.cget (TOUT_PERIOD_P j) * 65536 } := by
    rw [hz, State.tout_modTout]
    rfl
  have hres : tget (if s.cget (TOUT_PERIOD_P j) * 65536 = 0 then
      (z.cset (TOUT_CTRL_ARM j) 0).cset (TOUT_CTRL_FIRED j) 1 else z).tm.tout j {} = tget z.tm.tout j {} := by
    split <;> rfl
  refine ⟨_, he, ?_, ?_, fun _ => ?_, fun h0 => ?_, fun h0 => ⟨?_, ?_⟩⟩
  · rw [hres, htout]
  · rw [hres, htout]
  · rw [hres, htout]
    rfl
  · rw [if_pos (by rw [h0, Nat.zero_mul]), State.cget_cset_of_lt _ (by simp [TOUT_CTRL_FIRED]),
      State.cget_cset_ne _ _ _ _ (by simp [Fld.key, TOUT_CTRL_ARM, TOUT_CTRL_FIRED]), State.cget_cset_of_lt _ (by simp [TOUT_CTRL_ARM])]
    exact ⟨rfl, rfl⟩
  · rw [if_neg (by omega), hz, State.modTout_cget]
    exact State.cget_of_con rfl ha
  · rw [hres, htout]

/-- Settles O5: each edge and each output by the branch of its rule that the state selects. -/
theorem triggerInputsAndTimedOutputs : Obligations.TriggerInputsAndTimedOutputs := by
  refine ⟨fun s i t w hen => tinEdge_clause s i t w hen, toutCtrl_clause, fun s j ha hsk htg => toutFire_clause s j ha hsk rfl htg,
      fun s j hpu he => ?_, fun s m hf hp => ?_⟩
  · have hx : exec (.toutPulseEnd j) s = .next ((s.toInst ((tget s.tm.tout j {}).ends - s.mono 0)).modTout j fun y =>
        { y with pulse := false }) := by
      show execToutPulseEnd j s = _
      simp [execToutPulseEnd, hpu, he]
    obtain ⟨x, hi⟩ := s.toInst_tmOnly ((tget s.tm.tout j {}).ends - s.mono 0)
    rw [hi] at hx
    refine ⟨_, hx, ?_, rfl⟩
    rw [State.tout_modTout]
  · have hx : exec (.timNowRead m) s = .next
        ((s.modTm fun t => { t with nowLatch := tset t.nowLatch m {} t.now }).answer m false s.tm.now.ns) := by
      show Host.Outcome.next (s.guarded m.val .control 0x200000 .read _) = _
      rw [State.guarded_of_permitted hf hp]
      rfl
    refine ⟨_, hx, ?_, ?_, rfl⟩
    · exact tget_tset_same _ _ _ _
    · exact tget_tset_same _ _ _ _

end Sys2Proof.Machine

/-! ## Edges of a channel -/

namespace Sys2Proof.Machine

set_option Elab.async false

/-! ### Time within the frame -/

@[simp] theorem State.toInst_ch (s : State) (i : Inst) (p c : Nat) : (s.toInst i).ch p c = s.ch p c := rfl
@[simp] theorem State.toInst_blk (s : State) (i : Inst) (p b : Nat) : (s.toInst i).blk p b = s.blk p b := rfl
@[simp] theorem State.toInst_fe (s : State) (i : Inst) (p : Nat) : (s.toInst i).fe p = s.fe p := rfl
@[simp] theorem State.toInst_fget (s : State) (i : Inst) (p : Nat) (f : Fld) : (s.toInst i).fget p f = s.fget p f := rfl
@[simp] theorem State.toInst_fon (s : State) (i : Inst) (p : Nat) (f : Fld) : (s.toInst i).fon p f = s.fon p f := rfl
@[simp] theorem State.toInst_cget (s : State) (i : Inst) (f : Fld) : (s.toInst i).cget f = s.cget f := rfl
@[simp] theorem State.toInst_mono (s : State) (i j : Inst) : (s.toInst i).mono j = s.mono j := rfl
@[simp] theorem State.toInst_tick (s : State) (i : Inst) : (s.toInst i).tm.tick = s.tm.tick := rfl
@[simp] theorem State.toInst_fgetAt (s : State) (i : Inst) (p : Nat) (f : Fld) (m : Nat) :
    (s.toInst i).fgetAt p f m = s.fgetAt p f m := rfl
@[simp] theorem State.toInst_fonAt (s : State) (i : Inst) (p : Nat) (f : Fld) (m : Nat) : (s.toInst i).fonAt p f m = s.fonAt p f m := rfl
@[simp] theorem State.toInst_along (s : State) (i : Inst) (p c m : Nat) (v : Int) : (s.toInst i).along p c m v = s.along p c m v := rfl

@[simp] theorem State.toInst_thrT (s : State) (i : Inst) (p c m : Nat) : (s.toInst i).thrT p c m = s.thrT p c m := rfl
@[simp] theorem State.toInst_thrR (s : State) (i : Inst) (p c m : Nat) : (s.toInst i).thrR p c m = s.thrR p c m := rfl

@[simp] theorem State.toInst_aboveT (s : State) (i : Inst) (p c m : Nat) (v : Int) : (s.toInst i).aboveT p c m v = s.aboveT p c m v := by
  unfold State.aboveT
  rw [State.toInst_thrT, State.toInst_along]

@[simp] theorem State.toInst_atMostR (s : State) (i : Inst) (p c m : Nat) (v : Int) :
    (s.toInst i).atMostR p c m v = s.atMostR p c m v := by
  unfold State.atMostR
  rw [State.toInst_thrR, State.toInst_along]

/-! ### Hits of a channel -/

@[simp] theorem modFirst_length (f : Hit → Bool) (g : Hit → Hit) (l : List Hit) : (modFirst f g l).length = l.length := by
  induction l with
  | nil => rfl
  | cons h r ih =>
    unfold modFirst
    split <;> simp [ih]

theorem modFirst_cons_of {f : Hit → Bool} {x : Hit} (h : f x = true) (g : Hit → Hit) (r : List Hit) : modFirst f g
    (x :: r) = g x :: r := by
  simp [modFirst, h]

/-! ### The interpolators at an edge -/

/-- Settling the roles changes the interpolators only. -/
theorem Chan.settle_eq (h : Chan) (ns key : Nat) : ∃ a b, h.settle ns key = { h with intA := a, intB := b } := by
  unfold Chan.settle Chan.rearm
  extract_lets a b x
  split
  · split
    · exact ⟨_, _, rfl⟩
    · unfold Chan.setIntp
      split <;> exact ⟨_, _, rfl⟩
  · exact ⟨_, _, rfl⟩

/-- An interpolator that is armed and ready stays armed. -/
theorem Chan.settle_of_armed {h : Chan} {ns : Nat} (hr : h.intA.role = .armed) (hd : h.intA.ready ns = true) (key : Nat) :
    (h.settle ns key).intA = h.intA := by
  have hf : h.intA.fresh ns = h.intA := by simp [Interp.fresh, hd]
  unfold Chan.settle Chan.rearm
  simp [Chan.noneArmed, hf, hr]

theorem Interp.fresh_of_not_armed {i : Interp} (h : i.role ≠ .armed) (ns : Nat) : i.fresh ns = i := by simp [Interp.fresh, h]

/-- With none armed and only interpolator A ready, A is armed (R80). -/
theorem Chan.settle_of_ready {h : Chan} {ns : Nat} (hn : h.noneArmed = true) (ha : h.intA.ready ns = true) (hb : h.intB.ready ns = false)
    (key : Nat) : (h.settle ns key).intA = { h.intA with role := .armed } := by
  have hn' := hn
  simp only [Chan.noneArmed, Bool.and_eq_true, decide_eq_true_eq] at hn
  unfold Chan.settle Chan.rearm
  rw [Interp.fresh_of_not_armed hn.1, Interp.fresh_of_not_armed hn.2]
  simp [hn', ha, hb, Chan.setIntp, Chan.intp]

/-! ### A busy interval opens -/

/-- The channel after an edge that the armed interpolator A takes: its hit, and A converting. -/
theorem State.openBusy_of_armed {s : State} {p c t raw : Nat} {level : Int} {g : Chan}
    (hg : (s.ch p c).settle (s.mono t / 65536) (p * 512 + c) = g) (ha : g.intA.role = .armed) :
    ∃ n b, (s.openBusy p c t raw level).ch p c = { g with
        busyUntil := some (s.mono t + 6 * 65536), discHigh := true, orphanNext := false, busyHit := some (s.mono t)
        hits := g.hits.map (clashHit (s.mono t)) ++ [n], intA := { g.intA with role := .converting, converted := false }, intB := b } ∧
      n.at_ = t ∧ n.tick = s.tm.tick ∧ n.int = 0 ∧ n.raw = raw ∧ n.stop = t / 65536 + 2 ∧
      n.c1 = (g.intA.pair.getD (0, 0)).1 ∧ n.c2 = (g.intA.pair.getD (0, 0)).2 ∧ n.hold8 = s.along p c (s.mono t) level := by
  unfold State.openBusy
  generalize s.mono t = m at *
  simp only [hg, ha, if_true, Nat.reduceEqDiff, if_false, Chan.intp, Chan.setIntp, Nat.sub_zero, Nat.one_ne_zero, State.ch_setCh]
  split
  · refine ⟨_, _, rfl, ?_⟩
    exact ⟨rfl, rfl, rfl, rfl, rfl, rfl, rfl, rfl⟩
  · refine ⟨_, _, rfl, ?_⟩
    exact ⟨rfl, rfl, rfl, rfl, rfl, rfl, rfl, rfl⟩

/-- With none armed, the edge is counted as not timed. -/
theorem State.openBusy_of_none {s : State} {p c t raw : Nat} {level : Int} {g : Chan}
    (hg : (s.ch p c).settle (s.mono t / 65536) (p * 512 + c) = g) (hn : g.noneArmed = true) :
    (s.openBusy p c t raw level).ch p c = { g with
      busyUntil := some (s.mono t + 6 * 65536), discHigh := true, orphanNext := false, busyHit := none
      hits := g.hits.map (clashHit (s.mono t)), noCal := min (g.noCal + 1) 65535 } := by
  simp only [Chan.noneArmed, Bool.and_eq_true, decide_eq_true_eq] at hn
  unfold State.openBusy
  generalize s.mono t = m at *
  simp only [hg, hn.1, hn.2, if_true, if_false, State.ch_setCh]
  rfl

/-! ### LEADING_EDGE -/

/-- An edge that the channel does not see as one. -/
theorem exec_leadingEdge_ignored {s : State} {p : PortIx} {c : ChIx} {t : Crossing}
    (h : (s.ch p c).discHigh = true ∨ s.aboveT p c (s.mono t.at_) t.level = false) (raw : BitVec 12) :
    exec (.leadingEdge p c t raw) s = .next (s.toInst t.at_) := by
  show execLeadingEdge p c t raw s = _
  unfold execLeadingEdge
  simp only [State.toInst_mono, State.toInst_ch, State.toInst_aboveT]
  rcases h with h | h <;> simp [h]

/-- An edge seen on a channel that is armed, outside a busy interval, opens one. -/
theorem exec_leadingEdge_open {s : State} {p : PortIx} {c : ChIx} {t : Crossing} (hd : (s.ch p c).discHigh = false)
    (ha : s.aboveT p c (s.mono t.at_) t.level = true) (harm : (s.toInst t.at_).armedAt p c (s.mono t.at_ / 65536) = true)
    (hb : ∀ b, (s.ch p c).busyUntil = some b → b ≤ s.mono t.at_) (raw : BitVec 12) :
    exec (.leadingEdge p c t raw) s = .next ((s.toInst t.at_).openBusy p c t.at_ raw.toNat t.level) := by
  show execLeadingEdge p c t raw s = _
  unfold execLeadingEdge
  simp only [State.toInst_mono, State.toInst_ch, State.toInst_aboveT, hd, ha, harm, Bool.not_true, Bool.or_self, Bool.false_eq_true,
    if_false]
  split
  · next b hb' => simp only [Nat.not_lt.2 (hb b hb'), if_false]
  · rfl

/-- An edge seen on a channel that is not armed, or inside a busy interval. -/
theorem exec_leadingEdge_seen {s : State} {p : PortIx} {c : ChIx} {t : Crossing} (hd : (s.ch p c).discHigh = false)
    (ha : s.aboveT p c (s.mono t.at_) t.level = true) (raw : BitVec 12) :
    ((s.toInst t.at_).armedAt p c (s.mono t.at_ / 65536) = false →
      exec (.leadingEdge p c t raw) s = .next ((s.toInst t.at_).modCh p c fun h => { h with discHigh := true })) ∧
    ((s.toInst t.at_).armedAt p c (s.mono t.at_ / 65536) = true → ∀ b, (s.ch p c).busyUntil = some b → s.mono t.at_ < b →
      exec (.leadingEdge p c t raw) s = .next ((s.toInst t.at_).modCh p c fun h =>
        h.pileUp (s.mono t.at_) (s.along p c (s.mono t.at_) t.level))) := by
  constructor
  · intro harm
    show execLeadingEdge p c t raw s = _
    unfold execLeadingEdge
    simp [hd, ha, harm]
  · intro harm b hb hm
    show execLeadingEdge p c t raw s = _
    unfold execLeadingEdge
    simp only [State.toInst_mono, State.toInst_ch, State.toInst_aboveT, State.toInst_along, hd, ha, harm, hb, hm, Bool.not_true,
        Bool.or_self,
      Bool.false_eq_true, if_false, if_true]

/-- Settles O6: the branches of LEADING_EDGE exclude each other, and settling the roles says which interpolator takes the edge. -/
theorem leadingEdgeIsTakenOnce : Obligations.LeadingEdgeIsTakenOnce := by
  intro s p c t raw
  dsimp only
  have hmono : (s.toInst t.at_).mono t.at_ = s.mono t.at_ := rfl
  obtain ⟨a, b, hset⟩ := (s.ch p c).settle_eq (s.mono t.at_ / 65536) (p * 512 + c)
  refine ⟨fun h => exec_leadingEdge_ignored h raw, fun hd ha => ?_⟩
  obtain ⟨hunarmed, hbusy⟩ := exec_leadingEdge_seen hd ha raw
  refine ⟨fun harm => ⟨_, hunarmed harm, by simp⟩, fun harm b hb hm => ⟨_, hbusy harm b hb hm, ?_⟩, fun harm hb => ?_⟩
  · rw [State.ch_modCh]
    exact ⟨rfl, modFirst_length _ _ _, rfl, rfl⟩
  have hex := exec_leadingEdge_open hd ha harm hb raw
  refine ⟨fun hr hrd c1 c2 hp => ⟨_, hex, ?_⟩, fun hn hra hrb => ⟨_, hex, ?_⟩, fun hn => ⟨_, hex, ?_⟩⟩
  · have hA := Chan.settle_of_armed hr hrd (p * 512 + c)
    obtain ⟨n, b', hch, h1, h2, h3, h4, h5, h6, h7, h8⟩ :=
      State.openBusy_of_armed (s := s.toInst t.at_) (p := p) (c := c) (t := t.at_) (raw := raw.toNat) (level := t.level) rfl
        (by rw [State.toInst_ch, hmono, hA, hr])
    rw [State.toInst_ch, hmono, hset] at hch h6 h7
    rw [hset] at hA
    simp only at hA
    rw [hch]
    simp only [hA, hp, Option.getD_some] at h6 h7 ⊢
    refine ⟨trivial, by simp, trivial, trivial, n, by simp, h1, h2, h3, h4, h5, h6, h7, h8⟩
  · have hA := Chan.settle_of_ready hn hra hrb (p * 512 + c)
    obtain ⟨n, b', hch, -⟩ :=
      State.openBusy_of_armed (s := s.toInst t.at_) (p := p) (c := c) (t := t.at_) (raw := raw.toNat) (level := t.level) rfl
        (by rw [State.toInst_ch, hmono, hA])
    rw [State.toInst_ch, hmono, hset] at hch
    rw [hch]
    exact ⟨by simp, rfl, rfl⟩
  · rw [State.openBusy_of_none (s := s.toInst t.at_) rfl (by rw [State.toInst_ch, hmono]; exact hn), State.toInst_ch, hmono, hset]
    exact ⟨rfl, rfl, List.length_map _⟩

end Sys2Proof.Machine

/-! ## Trailing edges -/

namespace Sys2Proof.Machine

set_option Elab.async false

/-- A channel replaced at an instant changes the time and the channels only. -/
theorem State.toInst_setCh_same (s : State) (i : Inst) (p c : Nat) (x : Chan) : (s.toInst i).setCh p c x =
    { s with tm := ((s.toInst i).setCh p c x).tm, chans := ((s.toInst i).setCh p c x).chans } := by
  obtain ⟨t, ht⟩ := s.toInst_tmOnly i
  rw [ht]
  rfl

theorem State.setCh_same (s : State) (p c : Nat) (x : Chan) : s.setCh p c x = { s with chans := (s.setCh p c x).chans } := rfl

/-- The channel once its output has fallen at `m`. -/
def Chan.fallen (h : Chan) (m : Nat) : Chan := { h with discHigh := false, discLow := m }

theorem exec_trailingEdge_ignored {s : State} {p : PortIx} {c : ChIx} {t : TeCrossing}
    (h : (s.ch p c).discHigh = false ∨ s.atMostR p c (s.mono t.at_) t.level = false) :
    exec (.trailingEdge p c t) s = .next (s.toInst t.at_) := by
  show execTrailingEdge p c t s = _
  unfold execTrailingEdge
  simp only [State.toInst_mono, State.toInst_ch, State.toInst_atMostR]
  rcases h with h | h <;> simp [h]

/-- A trailing edge with a hit that waits for it. -/
theorem exec_trailingEdge_hit {s : State} {p : PortIx} {c : ChIx} {t : TeCrossing} (hd : (s.ch p c).discHigh = true)
    (hr : s.atMostR p c (s.mono t.at_) t.level = true) (ho : (s.ch p c).hits.any Hit.open_ = true) :
    exec (.trailingEdge p c t) s = .next ((s.toInst t.at_).setCh p c { (s.ch p c).fallen (s.mono t.at_) with
      busyUntil := some (max ((s.ch p c).busyUntil.getD 0) (s.mono t.at_ + s.fgetAt p (CH_CFG_HOLDOFF c) (s.mono t.at_) * 65536))
      orphanNext := false
      hits := modFirst Hit.open_ (fun x => if x.satAt ≤ s.mono t.at_ then { x with sat := true } else { x with
        teInst := some (s.mono t.at_), te16 := (s.ch p c).teTime s.tm.tick t.at_ t.raw.toNat (p * 512 + c) }) (s.ch p c).hits }) := by
  show execTrailingEdge p c t s = _
  unfold execTrailingEdge
  simp only [State.toInst_mono, State.toInst_ch, State.toInst_atMostR, State.toInst_fgetAt, State.toInst_tick, hd, hr, ho, Bool.not_true,
    Bool.or_self, Bool.false_eq_true, if_false, if_true]
  rfl

/-- A trailing edge without such a hit, on an armed channel that has seen no leading edge since it was armed. -/
theorem exec_trailingEdge_orphan {s : State} {p : PortIx} {c : ChIx} {t : TeCrossing} (hd : (s.ch p c).discHigh = true)
    (hr : s.atMostR p c (s.mono t.at_) t.level = true) (ho : (s.ch p c).hits.any Hit.open_ = false)
    (ha : (s.toInst t.at_).armedAt p c (s.mono t.at_ / 65536) = true) (hn : (s.ch p c).orphanNext = true) :
    exec (.trailingEdge p c t) s = .next (((s.toInst t.at_).setCh p c { (s.ch p c).fallen (s.mono t.at_) with
      busyUntil := some (max ((s.ch p c).busyUntil.getD 0) (s.mono t.at_ + s.fgetAt p (CH_CFG_HOLDOFF c) (s.mono t.at_) * 65536))
      orphanNext := false, orphan := sat16 (s.ch p c).orphan }).modFacts p fun f => { f with orphan := true }) := by
  show execTrailingEdge p c t s = _
  unfold execTrailingEdge
  simp only [State.toInst_mono, State.toInst_ch, State.toInst_atMostR, State.toInst_fgetAt, hd, hr, ho, ha, hn, Bool.not_true,
    Bool.or_self, Bool.false_eq_true, if_false, if_true]
  rfl

@[simp] theorem State.modFacts_ch (s : State) (p : Nat) (g : FrameFacts → FrameFacts) (q c : Nat) :
    (s.modFacts p g).ch q c = s.ch q c := rfl

/-- Settles O7: the hit that waits is the first open one of the channel, and without one the edge is an orphan after arming. -/
theorem trailingEdgeCompletesItsHit : Obligations.TrailingEdgeCompletesItsHit := by
  refine ⟨fun s p c t n r hd hr hh hte hsat => ?hit, fun s p c t hd hr hno ha hn => ?orphan,
    fun s p c t h => exec_trailingEdge_ignored h, fun s p c n r hh ho => ?saturated, fun s p c b hb hd => ?busy⟩
  case hit =>
    have ho : n.open_ = true := by simp [Hit.open_, hte, hsat]
    refine ⟨_, exec_trailingEdge_hit hd hr (by simp [hh, ho]), ?_⟩
    rw [State.ch_setCh, hh, modFirst_cons_of ho]
    refine ⟨fun hm => ?_, fun hm => ?_, rfl, rfl, State.toInst_setCh_same _ _ _ _ _⟩
    · rw [if_neg (Nat.not_le.2 hm)]
    · rw [if_pos hm]
  case orphan =>
    have ho : (s.ch p c).hits.any Hit.open_ = false := by simpa using hno
    refine ⟨_, exec_trailingEdge_orphan hd hr ho ha hn, ?_⟩
    rw [State.modFacts_ch, State.ch_setCh]
    refine ⟨rfl, rfl, ?_, rfl⟩
    simp [State.modFacts]
  case saturated =>
    refine ⟨(s.modCh p c fun h => { h with hits := modFirst Hit.open_ (fun x => { x with sat := true }) h.hits }), rfl, ?_, rfl⟩
    rw [State.ch_modCh, hh, modFirst_cons_of ho]
  case busy =>
    have he : exec (.busyEnd p c) s = .next ((s.toInst (b - s.tm.tick * instPerFrame)).setCh p c { s.ch p c with
        busyUntil := none, busyHit := none
        hits := modFirst (fun x => decide (some x.mono = (s.ch p c).busyHit)) (fun x => { x with busyOver := true })
            (s.ch p c).hits }) := by
      show execBusyEnd p c s = _
      unfold execBusyEnd
      simp only [hb, hd, Bool.false_eq_true, if_false]
    refine ⟨_, he, ?_⟩
    rw [State.ch_setCh]
    refine ⟨rfl, fun n r hh hn => ?_, State.toInst_setCh_same _ _ _ _ _⟩
    rw [hh, modFirst_cons_of (by simpa using hn)]

end Sys2Proof.Machine

/-! ## The time of a leading edge and its validation -/

namespace Sys2Proof.Machine

set_option Elab.async false

/-! ### The fixed-point rule -/

theorem Hit.placed_within {h : Hit} (h0 : 0 ≤ linV h.stop h.raw h.c1 h.c2 / 2 ^ 24) (h1 : linV h.stop h.raw h.c1 h.c2 / 2 ^ 24 < 4000) :
    h.placed = { h with coarse := some (linV h.stop h.raw h.c1 h.c2 / 2 ^ 24).toNat, hitTick := h.tick } := by
  unfold Hit.placed
  dsimp only
  rw [if_neg (by omega), if_neg (by omega)]

theorem Hit.placed_after {h : Hit} (h1 : 4000 ≤ linV h.stop h.raw h.c1 h.c2 / 2 ^ 24) :
    h.placed = { h with coarse := some (linV h.stop h.raw h.c1 h.c2 / 2 ^ 24 - 4000).toNat, hitTick := h.tick + 1 } := by
  unfold Hit.placed
  dsimp only
  rw [if_neg (by omega), if_pos h1]

theorem Hit.placed_before {h : Hit} (h1 : linV h.stop h.raw h.c1 h.c2 / 2 ^ 24 < 0) :
    h.placed = { h with coarse := some (linV h.stop h.raw h.c1 h.c2 / 2 ^ 24 + 4000).toNat, hitTick := h.tick - 1 } := by
  unfold Hit.placed
  dsimp only
  rw [if_pos h1]

theorem Hit.placed_rejected (h : Hit) : h.placed.rejected = h.rejected := by
  unfold Hit.placed
  dsimp only
  split
  · rfl
  · split <;> rfl

/-- With both entries of the table good, the fine time is the interpolation between them (R83). -/
theorem fineOf_good (tbl : List Nat) (pos : Nat) : fineOf tbl pos ⟨false, false⟩ =
    ((((binE tbl (pos / 16) : Nat) : Int) + (((binE tbl (pos / 16 + 1) : Nat) : Int) - (binE tbl (pos / 16) : Nat)) *
      ((pos % 16 : Nat) : Int) / 16) / 8).toNat := by
  simp only [fineOf, binRead, Bool.false_eq_true, if_false]

/-! ### A faulty table entry -/

theorem State.binParity_ch (s : State) (p c x : Nat) :
    (s.binParity p c x).ch p c = (s.ch p c).setIntp x { (s.ch p c).intp x with resetPending := true } := by
  unfold State.binParity
  rw [State.modFacts_ch, State.ch_modCh]
  rfl

theorem State.binParity_perr (s : State) (p c x : Nat) : (s.binParity p c x).fget p (BLK_CDSTAT_PERR (c / 16)) = 1 := by
  have h : (s.binParity p c x).fget p (BLK_CDSTAT_PERR (c / 16)) =
      ((s.fset p (BLK_CDSTAT_PERR (c / 16)) 1).fbump p (BLK_CDSTAT_PERR_CNT (c / 16))).fget p (BLK_CDSTAT_PERR (c / 16)) := rfl
  rw [h, State.fget_fbump_ne _ _ _ _ _ (by simp [Fld.fkey, Fld.key, BLK_CDSTAT_PERR, BLK_CDSTAT_PERR_CNT]),
    State.fget_fset_of_lt _ _ (by simp [BLK_CDSTAT_PERR])]

theorem Chan.setIntp_hits (h : Chan) (x : Nat) (i : Interp) : (h.setIntp x i).hits = h.hits := by
  unfold Chan.setIntp
  split <;> rfl

@[simp] theorem Chan.intp_setIntp (h : Chan) (x : Nat) (i : Interp) : (h.setIntp x i).intp x = i := by
  unfold Chan.setIntp Chan.intp
  split <;> rfl

/-! ### FINE_TIME_READY -/

/-- The first hit without a time given a new form. -/
def State.putTimed (s : State) (p c : Nat) (n : Hit) : State :=
  s.modCh p c fun h => { h with hits := modFirst (fun x => x.coarse.isNone) (fun _ => n) h.hits }

theorem State.putTimed_ch {s : State} {p c : Nat} {n : Hit} {r : List Hit} (hh : (s.ch p c).hits = n :: r) (hc : n.coarse = none)
    (m : Hit) :
    (s.putTimed p c m).ch p c = { s.ch p c with hits := m :: r } := by
  unfold State.putTimed
  rw [State.ch_modCh, hh, modFirst_cons_of (by simp [hc])]

theorem exec_fineTimeReady_void {s : State} {p : PortIx} {c : ChIx} {n : Hit} {r : List Hit} (hh : (s.ch p c).hits = n :: r)
    (hc : n.coarse = none) (ho : outOfRange n.raw n.c1 n.c2 = true) (e : EntryParity) :
    exec (.fineTimeReady p c e) s = .next ((s.putTimed p c { n with coarse := some 0, rejected := true }).modCh p c fun h =>
      { h with range := sat16 h.range }) := by
  show execFineTimeReady p c e s = _
  unfold execFineTimeReady
  simp only [hh, List.find?_cons_of_pos, hc, Option.isNone_none, ho, if_true]
  rfl

/-- The entries that matter where the position lies in segment `seg`. -/
def parityAt (e : EntryParity) (seg : Nat) : EntryParity := ⟨e.lo && decide (seg ≠ 0), e.hi && decide (seg ≠ 63)⟩

theorem exec_fineTimeReady_timed {s : State} {p : PortIx} {c : ChIx} {n : Hit} {r : List Hit} (hh : (s.ch p c).hits = n :: r)
    (hc : n.coarse = none) (ho : outOfRange n.raw n.c1 n.c2 = false) (hg : s.fonAt p (CH_CFG_GATE_EN c) n.mono = false) (e : EntryParity)
    {seg : Nat} (hseg : linP (linV n.stop n.raw n.c1 n.c2) / 16 = seg) :
    exec (.fineTimeReady p c e) s = .next
      ((s.putTimed p c (n.timed ((s.ch p c).intp n.int) (parityAt e seg))).when (entryFails e seg) fun z => z.binParity p c n.int) := by
  show execFineTimeReady p c e s = _
  unfold execFineTimeReady
  simp only [hh, List.find?_cons_of_pos, hc, Option.isNone_none, ho, Bool.false_eq_true, if_false, hseg, hg, Bool.not_false, Bool.true_or,
    Bool.not_true, Bool.or_false]
  rfl

theorem fineTimeReady_timed_clause (s : State) (p : PortIx) (c : ChIx) (n : Hit) (r : List Hit) (e : EntryParity)
    (hh : (s.ch p c).hits = n :: r) (hc : n.coarse = none) (ho : outOfRange n.raw n.c1 n.c2 = false)
    (hg : s.fonAt p (CH_CFG_GATE_EN c) n.mono = false) {v : Int} (hv : linV n.stop n.raw n.c1 n.c2 = v) {pos : Nat} (hpos : linP v = pos)
    {seg : Nat} (hseg : pos / 16 = seg) :
    ∃ u m, exec (.fineTimeReady p c e) s = .next u ∧ (u.ch p c).hits = m :: r ∧ m.rejected = n.rejected ∧
      m.fine = fineOf (((s.ch p c).intp n.int).tableAt m.hitTick) pos (parityAt e seg) ∧
      (e.lo = false → e.hi = false → m.fine = ((((binE (((s.ch p c).intp n.int).tableAt m.hitTick) seg : Nat) : Int) +
        (((binE (((s.ch p c).intp n.int).tableAt m.hitTick) (seg + 1) : Nat) : Int) -
          (binE (((s.ch p c).intp n.int).tableAt m.hitTick) seg : Nat)) * ((pos % 16 : Nat) : Int) / 16) / 8).toNat) ∧
      (0 ≤ v / 2 ^ 24 → v / 2 ^ 24 < 4000 → m.coarse = some (v / 2 ^ 24).toNat ∧ m.hitTick = n.tick) ∧
      (4000 ≤ v / 2 ^ 24 → m.coarse = some (v / 2 ^ 24 - 4000).toNat ∧ m.hitTick = n.tick + 1) ∧
      (v / 2 ^ 24 < 0 → m.coarse = some (v / 2 ^ 24 + 4000).toNat ∧ m.hitTick = n.tick - 1) ∧
      (e.lo = false → e.hi = false → u = { s with chans := u.chans }) ∧
      (e.lo = true → seg ≠ 0 → u.fget p (BLK_CDSTAT_PERR (c / 16)) = 1 ∧ ((u.ch p c).intp n.int).resetPending = true) := by
  subst hv hpos
  have hx := exec_fineTimeReady_timed hh hc ho hg e hseg
  have hput := State.putTimed_ch hh hc (n.timed ((s.ch p c).intp n.int) (parityAt e seg))
  refine ⟨_, n.timed ((s.ch p c).intp n.int) (parityAt e seg), hx, ?_, n.placed_rejected, rfl, fun hlo hhi => ?_, fun h0 h1 => ?_,
      fun h1 => ?_,
    fun h1 => ?_, fun hlo hhi => ?_, fun hlo hs => ?_⟩
  · cases entryFails e seg
    · rw [State.when_false, hput]
    · rw [State.when_true, State.binParity_ch, hput, Chan.setIntp_hits]
  · have hat : parityAt e seg = ⟨false, false⟩ := by simp [parityAt, hlo, hhi]
    show fineOf _ _ (parityAt e seg) = _
    rw [hat, fineOf_good, hseg]
    rfl
  · exact ⟨congrArg Hit.coarse (Hit.placed_within h0 h1), congrArg Hit.hitTick (Hit.placed_within h0 h1)⟩
  · exact ⟨congrArg Hit.coarse (Hit.placed_after h1), congrArg Hit.hitTick (Hit.placed_after h1)⟩
  · exact ⟨congrArg Hit.coarse (Hit.placed_before h1), congrArg Hit.hitTick (Hit.placed_before h1)⟩
  · have hf : entryFails e seg = false := by simp [entryFails, hlo, hhi]
    rw [hf]
    rfl
  · have hf : entryFails e seg = true := by simp [entryFails, hlo, hs]
    rw [hf, State.when_true, State.binParity_ch, Chan.intp_setIntp]
    exact ⟨State.binParity_perr _ _ _ _, rfl⟩

/-- Settles O8: the hit without a time is the first one, and its coarse time falls in its own frame, the next one or the one before. -/
theorem fineTimeFollowsTheFixedPointRule : Obligations.FineTimeFollowsTheFixedPointRule := by
  refine ⟨fun s p c n r e hh hc => ⟨fun ho => ?void, fun ho hg => fineTimeReady_timed_clause s p c n r e hh hc ho hg rfl rfl rfl⟩,
    fun s p c x n r hh hd => ?validation⟩
  case void =>
    refine ⟨_, { n with coarse := some 0, rejected := true }, exec_fineTimeReady_void hh hc ho e, ?_, rfl, ?_, rfl⟩
    · rw [State.ch_modCh, State.putTimed_ch hh hc]
    · rw [State.ch_modCh, State.putTimed_ch hh hc]
      rfl
  case validation =>
    have he : exec (.validationDecided p c x) s = .next ((s.toInst x.at_).setCh p c { s.ch p c with
        hits := { n with valid := some (n.validated x), rejected := n.rejected || !(n.validated x) } :: r
        valRej := if n.validated x then (s.ch p c).valRej else sat16 (s.ch p c).valRej }) := by
      show execValidationDecided p c x s = _
      unfold execValidationDecided
      simp only [State.toInst_mono, State.toInst_ch, hh, List.find?_cons_of_pos, hd]
      rw [State.modCh, State.toInst_ch, hh, modFirst_cons_of hd]
    refine ⟨_, he, ?_⟩
    rw [State.ch_setCh]
    exact ⟨rfl, fun h => if_neg (by rw [Hit.validated, h]; decide), fun h => if_pos h, State.toInst_setCh_same _ _ _ _ _⟩

end Sys2Proof.Machine

/-! ## Roles of the interpolators -/

namespace Sys2Proof.Machine

set_option Elab.async false

/-! ### Arming again -/

/-- Arming interpolator `y` changes its role only. -/
theorem Chan.armIntp_intp (h : Chan) (y x : Nat) :
    (h.setIntp y { h.intp y with role := .armed }).intp x = h.intp x ∨
      (h.setIntp y { h.intp y with role := .armed }).intp x = { h.intp x with role := .armed } := by
  unfold Chan.setIntp Chan.intp
  by_cases hx : x = 0 <;> by_cases hy : y = 0 <;> simp [hx, hy]

/-- Arming again changes an interpolator's role only, and gives it the armed role only. -/
theorem Chan.rearm_intp (h : Chan) (ns key x : Nat) :
    (h.rearm ns key).intp x = h.intp x ∨ (h.rearm ns key).intp x = { h.intp x with role := .armed } := by
  unfold Chan.rearm
  extract_lets a b y
  split
  · split
    · exact .inl rfl
    · exact h.armIntp_intp y x
  · exact .inl rfl

/-- Arming again leaves an interpolator that is not ready as it is. -/
theorem Chan.rearm_intp_of_not_ready {h : Chan} {ns x : Nat} (hx : (h.intp x).ready ns = false) (key : Nat) :
    (h.rearm ns key).intp x = h.intp x := by
  unfold Chan.rearm
  extract_lets a b y
  split
  · split
    · rfl
    · next hy =>
      unfold Chan.intp at hx ⊢
      by_cases h0 : x = 0
      · have ha : a = false := by simpa [h0] using hx
        have hy1 : y ≠ 0 := by
          simp only [y, ha, Bool.false_and, Bool.false_eq_true, if_false]
          split <;> decide
        simp [h0, Chan.setIntp, hy1]
      · have hb : b = false := by simpa [h0] using hx
        have hy0 : y = 0 := by
          simp only [y, hb, Bool.and_false, Bool.false_eq_true, if_false] at hy ⊢
          split
          · rfl
          · next ha => simp [ha] at hy
        simp [h0, Chan.setIntp, hy0]
  · rfl

/-- Arming again changes the interpolators only. -/
theorem Chan.rearm_calFail (h : Chan) (ns key : Nat) : (h.rearm ns key).calFail = h.calFail := by
  unfold Chan.rearm Chan.setIntp
  extract_lets a b x
  split
  · split
    · rfl
    · split <;> rfl
  · rfl

@[simp] theorem Chan.setIntp_calFail (h : Chan) (x : Nat) (i : Interp) : (h.setIntp x i).calFail = h.calFail := by
  unfold Chan.setIntp
  split <;> rfl

@[simp] theorem State.toInst_feMeasures (s : State) (i : Inst) (p : Nat) : (s.toInst i).feMeasures p = s.feMeasures p := rfl

/-! ### The commands -/

theorem exec_calibrationPair {s : State} {p : PortIx} {x : IntIx} {c : ChIx} (hm : s.feMeasures p = true)
    (hr : ((s.ch p c).intp x).role ≠ .armed) (t : Inst) (c1 c2 : BitVec 12) :
    exec (.calibrationPair p c x t c1 c2) s = .next (
      let ns := s.mono t / 65536
      let i := (s.ch p c).intp x
      if c1.toNat + 768 ≤ c2.toNat ∧ c2.toNat ≤ c1.toNat + 1280 then
        let h1 := (s.ch p c).setIntp x { i with pair := some (c1.toNat, c2.toNat), pairAt := ns }
        (s.toInst t).setCh p c (if (s.toInst t).armedAt p c ns then h1.rearm ns (p * 512 + c) else h1)
      else if (s.toInst t).armedAt p c ns then (s.toInst t).setCh p c { s.ch p c with calFail := sat16 (s.ch p c).calFail }
      else s.toInst t) := by
  show execCalibrationPair p c x t c1 c2 s = _
  unfold execCalibrationPair
  simp only [State.toInst_feMeasures, State.toInst_ch, State.toInst_mono, hm, hr, decide_false, Bool.not_true, Bool.or_self,
    Bool.false_eq_true, if_false]
  rfl

/-- The channel of an interpolator that is given a new content and armed again where `arm` says so. -/
theorem Chan.rearmIf_intp (h : Chan) (x ns key : Nat) (i : Interp) (arm : Bool) :
    (if arm then (h.setIntp x i).rearm ns key else h.setIntp x i).intp x = i ∨
      (if arm then (h.setIntp x i).rearm ns key else h.setIntp x i).intp x = { i with role := .armed } := by
  split
  · simpa using (h.setIntp x i).rearm_intp ns key x
  · simp

theorem Chan.rearmIf_calFail (h : Chan) (x ns key : Nat) (i : Interp) (arm : Bool) :
    (if arm then (h.setIntp x i).rearm ns key else h.setIntp x i).calFail = h.calFail := by
  split
  · rw [Chan.rearm_calFail, Chan.setIntp_calFail]
  · rw [Chan.setIntp_calFail]

/-- Settles O9: an interpolator that takes the role of another is ready, and arming again changes roles only. -/
theorem interpolatorsChangeRolesByTheRule : Obligations.InterpolatorsChangeRolesByTheRule := by
  refine ⟨fun s p c x t c1 c2 hm hr => ⟨fun hlo hhi => ?accepted, fun hlo ha => ?failed⟩, fun s p c x hr hm => ?ready,
    fun s p c ha hA hB => ⟨fun hrd => ?swap, fun hrd => ?keep⟩, fun s p c x hr hp => ?stale,
    fun s p c t c1 c2 hm hd => ⟨fun hlow hgap => ?taken, fun hno => ?refused⟩⟩
  case accepted =>
    refine ⟨_, exec_calibrationPair hm hr t c1 c2, ?_⟩
    dsimp only
    rw [if_pos ⟨hlo, hhi⟩, State.ch_setCh]
    generalize (s.toInst t).armedAt p c (s.mono t / 65536) = arm
    refine ⟨?_, ?_, Chan.rearmIf_calFail _ _ _ _ _ _⟩
    all_goals
      rcases Chan.rearmIf_intp (s.ch p c) x (s.mono t / 65536) (p * 512 + c)
        { (s.ch p c).intp x with pair := some (c1.toNat, c2.toNat), pairAt := s.mono t / 65536 } arm with h | h <;> rw [h]
  case failed =>
    refine ⟨_, exec_calibrationPair hm hr t c1 c2, ?_⟩
    dsimp only
    rw [if_neg (by omega), if_pos ha, State.ch_setCh]
    exact ⟨rfl, rfl⟩
  case ready =>
    have he : exec (.interpolatorReady p c x) s = .next (s.setCh p c
        (if s.armedAt p c s.monoNs then
          ((s.ch p c).setIntp x { (s.ch p c).intp x with role := .idle, converted := true }).rearm s.monoNs (p * 512 + c)
        else (s.ch p c).setIntp x { (s.ch p c).intp x with role := .idle, converted := true })) := by
      show execInterpolatorReady p c x s = _
      unfold execInterpolatorReady
      simp only [hr, hm, and_self, if_true]
    refine ⟨_, he, ?_⟩
    rw [State.ch_setCh]
    rcases Chan.rearmIf_intp (s.ch p c) x s.monoNs (p * 512 + c) { (s.ch p c).intp x with role := .idle, converted := true }
      (s.armedAt p c s.monoNs) with h | h <;> rw [h] <;> exact ⟨rfl, by simp, State.setCh_same _ _ _ _⟩
  case swap =>
    have he : exec (.scheduledSwap p c) s = .next (s.setCh p c
        { s.ch p c with intA := { (s.ch p c).intA with role := .idle }, intB := { (s.ch p c).intB with role := .armed } }) := by
      show execScheduledSwap p c s = _
      unfold execScheduledSwap
      simp [ha, hA, hB, hrd, Chan.noneArmed, Chan.intp, Chan.setIntp]
    refine ⟨_, he, ?_⟩
    rw [State.ch_setCh]
    exact ⟨rfl, rfl, State.setCh_same _ _ _ _⟩
  case keep =>
    show execScheduledSwap p c s = _
    unfold execScheduledSwap
    simp [ha, hA, hB, hrd, Chan.noneArmed, Chan.intp]
  case stale =>
    have he : exec (.pairStale p c x) s = .next (s.setCh p c
        (((s.ch p c).setIntp x { (s.ch p c).intp x with role := .idle }).rearm s.monoNs (p * 512 + c))) := by
      show execPairStale p c x s = _
      unfold execPairStale
      simp only [hr, hp, and_self, if_true]
    refine ⟨_, he, ?_, State.setCh_same _ _ _ _⟩
    rw [State.ch_setCh, Chan.rearm_intp_of_not_ready] <;> rw [Chan.intp_setIntp]
    simp [Interp.ready, Nat.not_le.2 hp]
  case taken =>
    have he : exec (.teCalPair p c t c1 c2) s = .next ((s.toInst t.to_).setCh p c
        { s.ch p c with tePair := (c1.toNat, c2.toNat), teAt := s.mono t.to_ / 65536, teDone := true }) := by
      show execTeCalPair p c t c1 c2 s = _
      unfold execTeCalPair
      simp only [State.toInst_feMeasures, State.toInst_ch, State.toInst_mono, hm, hd, hlow, Nat.not_lt.2 hgap, decide_false,
        Bool.not_true, Bool.or_self, Bool.false_eq_true, if_false]
    refine ⟨_, he, ?_⟩
    rw [State.ch_setCh]
    exact ⟨rfl, rfl, rfl⟩
  case refused =>
    show execTeCalPair p c t c1 c2 s = _
    unfold execTeCalPair
    simp only [State.toInst_feMeasures, State.toInst_ch, State.toInst_mono]
    rcases hno with h | h <;> simp [h]

end Sys2Proof.Machine

/-! ## Code density -/

namespace Sys2Proof.Machine

set_option Elab.async false

/-- While the selected channel takes part, the block's histograms are those it keeps. -/
theorem State.cdBlk_of_on {s : State} {p b : Nat} (h : s.fon p (CH_CFG_CD_EN (16 * b + (s.blk p b).cdSel)) = true) :
    s.cdBlk p b = s.blk p b := by
  unfold State.cdBlk
  simp only [h, if_true]

/-- A sample while interpolator A is idle with a pair and its histogram is not full: it goes to the histogram of A. -/
theorem exec_cdSample_idleA {s : State} {p : PortIx} {b : BlkIx} {pr : Nat × Nat}
    (hen : s.fon p (BLK_CD_EN b) = true) (hch : s.fon p (CH_CFG_CD_EN (16 * b.val + (s.blk p b).cdSel)) = true)
    (hon : (s.fe p).analogOn = true) (hi : (s.ch p (16 * b.val + (s.blk p b).cdSel)).intA.role = .idle)
    (hp : (s.ch p (16 * b.val + (s.blk p b).cdSel)).intA.pair = some pr) (hn : (s.blk p b).nA < s.cdN p b)
    (stop : Nat) (raw : BitVec 12) :
    exec (.cdSample p b stop raw) s = .next ((s.setBlk p b { s.blk p b with
      histA := histAdd (s.blk p b).histA (linP (linV stop raw.toNat pr.1 pr.2)), nA := (s.blk p b).nA + 1 }).fset p
        (BLK_CDSTAT_CH b) (s.blk p b).cdSel) := by
  show execCdSample p b stop raw s = _
  unfold execCdSample
  rw [State.cdBlk_of_on hch]
  simp [hen, hch, hon, hi, hp, hn, Chan.intp]

/-- The tables that a full pair of histograms gives are kept only where every width is from 32 to 96 (R87). -/
theorem tableOk_of_mem_good {sel : Nat} {ta tb : List Nat} {e : Nat × Nat × List Nat}
    (h : e ∈ (if tableOk ta then [(sel, 0, ta)] else []) ++ (if tableOk tb then [(sel, 1, tb)] else [])) : tableOk e.2.2 = true := by
  rcases List.mem_append.1 h with h | h
  all_goals
    split at h
    · next hok => rw [List.mem_singleton.1 h]; exact hok
    · exact absurd h List.not_mem_nil

/-- The uniform table, which an empty list of entries stands for. -/
theorem binE_nil {i : Nat} (h : i ≤ 64) : binE [] i = 64 * i := by
  unfold binE
  split
  · next h0 => rw [h0]
  · split
    · omega
    · rfl

/-- Settles O10. -/
theorem codeDensityTablesAreBuiltAndInstalled : Obligations.CodeDensityTablesAreBuiltAndInstalled := by
  refine ⟨fun s p b stop raw pr => ?sample, fun s p b hA hB => ?compute, fun s p b k x tbl hnew => ?install, fun s p c x hr => ?reset⟩
  case sample =>
    intro k c hen hch hon hi hp hn
    refine ⟨_, exec_cdSample_idleA hen hch hon hi hp hn stop raw, ?_⟩
    rw [State.fset_blk, State.blk_setBlk]
    refine ⟨rfl, rfl, ?_, rfl⟩
    simp only [histAdd, tget_tset_same, k]
  case compute =>
    show ∃ u, execCdTableCompute p b s = .next u ∧ _
    unfold execCdTableCompute
    simp only [Nat.not_lt.2 hA, Nat.not_lt.2 hB, or_self, if_false]
    refine ⟨_, rfl, ?_⟩
    rw [State.fadd_blk, State.fset_blk, State.blk_setBlk]
    refine ⟨rfl, rfl, rfl, fun e he => ?_, rfl⟩
    exact (List.mem_append.1 he).imp_right tableOk_of_mem_good
  case install =>
    have he : exec (.cdTableInstall p b) s = .next (((s.modCh p (16 * b.val + k) fun h =>
        h.setIntp x ((h.intp x).install tbl s.tickDue)).setBlk p b { s.blk p b with newTables := [] }).fadd p (BLK_CDSTAT_DONE b) 1) := by
      show execCdTableInstall p b s = _
      unfold execCdTableInstall
      simp only [hnew]
      rfl
    refine ⟨_, he, ?_⟩
    rw [State.fadd_ch, State.setBlk_ch, State.ch_modCh, Chan.intp_setIntp, State.fadd_blk, State.blk_setBlk]
    refine ⟨rfl, rfl, rfl, ?_, ?_⟩
    · rw [State.fget_fadd_sat, State.setBlk_fget, State.modCh_fget]
      rfl
    · exact (((FeRegsSame.refl _ _).modCh _ _ _).setBlk _ _ _).fadd _ _ _
  case reset =>
    refine ⟨_, rfl, ?_, ?_, ?_⟩
    · rw [State.ch_modCh]
      simp only [hr, if_true, Chan.intp_setIntp]
      exact fun i hi => binE_nil hi
    · rw [State.ch_modCh]
      simp only [hr, if_true, Chan.intp_setIntp]
    · exact State.setCh_same _ _ _ _

end Sys2Proof.Machine

/-! ## The gate and the test pulse -/

namespace Sys2Proof.Machine

set_option Elab.async false

/-! ### Values at an instant -/

/-- The value of a field at an instant depends on the pending writes and on the field only. -/
theorem State.fgetAt_congr {s t : State} {p : Nat} {f : Fld} (hw : (t.fe p).writes = (s.fe p).writes) (hf : t.fget p f = s.fget p f)
    (m : Nat) : t.fgetAt p f m = s.fgetAt p f m := by
  simp only [State.fgetAt, hw, hf]

@[simp] theorem State.toInst_freg (s : State) (i : Inst) : (s.toInst i).freg = s.freg := rfl

/-! ### A change of the gate -/

/-- The gate's open state differs from `e`, which is what its inputs ask for: it changes, and the change is the latest of the history. -/
theorem State.gateUpdate_changed {s : State} {p : Nat} {g : GateCmd} {e : Bool} (he : s.gateEff p (g.ns * 65536) = e)
    (ho : s.fon p GATE_STAT_OPEN = !e) (pin : Bool) (slot : Nat) :
    (s.gateUpdate p g pin slot).fget p GATE_STAT_OPEN = b2n e ∧
      ((s.gateUpdate p g pin slot).fe p).gateHist = ((g.ns, e) :: (s.fe p).gateHist).take 64 ∧
      FeRegsSame s (s.gateUpdate p g pin slot) [(p, GATE_STAT_OPEN), (p, GATE_STAT_LOST)] := by
  have hne : e ≠ s.fon p GATE_STAT_OPEN := by rw [ho]; cases e <;> decide
  have hb : b2n e < 2 ^ GATE_STAT_OPEN.width := b2n_lt_two e
  unfold State.gateUpdate
  generalize g.ns * 65536 = m at *
  simp only [he, hne, if_false]
  split
  · split
    · refine ⟨?_, ?_, ?_⟩
      · rw [State.modFacts, State.modFe_fget, State.modFe_fget, State.fget_fset_of_lt _ _ hb]
      · simp [State.modFacts]
      · exact (((FeRegsSame.refl _ _).fset _ _ _).modFe _ _).modFe _ _
    · refine ⟨?_, by simp, ?_⟩
      · rw [State.fbump, State.fadd, State.fget_fset_ne _ _ _ _ _ _ (by simp [Fld.fkey, Fld.key, GATE_STAT_OPEN, GATE_STAT_LOST]),
          State.modFe_fget, State.fget_fset_of_lt _ _ hb]
      · exact (((FeRegsSame.refl _ _).fset _ _ _).modFe _ _).fbump _ _
  · refine ⟨?_, by simp, ?_⟩
    · rw [State.modFe_fget, State.fget_fset_of_lt _ _ hb]
    · exact ((FeRegsSame.refl _ _).fset _ _ _).modFe _ _

/-- With recording switched on and room for a record, the change gives its gate record. -/
theorem State.gateUpdate_recorded {s : State} {p : Nat} {g : GateCmd} {e : Bool} (he : s.gateEff p (g.ns * 65536) = e)
    (ho : s.fon p GATE_STAT_OPEN = !e) (hr : s.fonAt p GATE_CFG_REC_EN (g.ns * 65536) = true)
    (hn : (s.fe p).factsNow.gates.length < 4) (pin : Bool) (slot : Nat) :
    ((s.gateUpdate p g pin slot).fe p).factsNow.gates = (s.fe p).factsNow.gates ++ [gateRecord g.coarse e pin slot] := by
  have hne : e ≠ s.fon p GATE_STAT_OPEN := by rw [ho]; cases e <;> decide
  unfold State.gateUpdate
  simp only [he, hne, if_false, hr, hn, if_true]
  simp [State.modFacts]

/-- A change of the gate leaves the commands that wait. -/
theorem State.gateUpdate_gateCmds (s : State) (p : Nat) (g : GateCmd) (pin : Bool) (slot : Nat) :
    ((s.gateUpdate p g pin slot).fe p).gateCmds = (s.fe p).gateCmds := by
  unfold State.gateUpdate
  generalize g.ns * 65536 = m
  extract_lets e s1
  have h1 : (s1.fe p).gateCmds = (s.fe p).gateCmds := by simp [s1]
  split
  · rfl
  · split
    · split
      · simp only [State.modFacts, State.fe_modFe, h1]
      · simpa using h1
    · exact h1

/-! ### GATE_CHANGE -/

/-- The state in which the first waiting command takes effect: at its instant, and the command taken off. -/
def State.gateTaken (s : State) (p : Nat) (g : GateCmd) (r : List GateCmd) : State :=
  (if g.tick = s.tm.tick then s.toInst (g.coarse * 65536) else s).modFe p fun x => { x with gateCmds := r }

theorem exec_gateChange {s : State} {p : PortIx} {g : GateCmd} {r : List GateCmd} (h : (s.fe p).gateCmds = g :: r)
    (ht : g.tick ≤ s.tm.tick) : exec (.gateChange p) s = .next ((s.gateTaken p g r).gateApply p g) := by
  show execGateChange p s = _
  unfold execGateChange
  simp only [h, Nat.not_lt.2 ht, if_false]
  rfl

theorem State.gateTaken_freg (s : State) (p : Nat) (g : GateCmd) (r : List GateCmd) : (s.gateTaken p g r).freg = s.freg := by
  unfold State.gateTaken
  rw [State.modFe_freg]
  split
  · rw [State.toInst_freg]
  · rfl

theorem State.gateTaken_fe (s : State) (p : Nat) (g : GateCmd) (r : List GateCmd) :
    (s.gateTaken p g r).fe p = { s.fe p with gateCmds := r } := by
  unfold State.gateTaken
  rw [State.fe_modFe]
  split
  · rw [State.toInst_fe]
  · rfl

theorem State.gateTaken_fget (s : State) (p : Nat) (g : GateCmd) (r : List GateCmd) (f : Fld) :
    (s.gateTaken p g r).fget p f = s.fget p f := State.fget_of_freg (s.gateTaken_freg p g r) p f

theorem State.gateTaken_fgetAt (s : State) (p : Nat) (g : GateCmd) (r : List GateCmd) (f : Fld) (m : Nat) :
    (s.gateTaken p g r).fgetAt p f m = s.fgetAt p f m :=
  State.fgetAt_congr (by rw [State.gateTaken_fe]) (s.gateTaken_fget p g r f) m

/-- Setting one field leaves the value of another at any instant. -/
theorem State.fgetAt_fset_ne (s : State) (p : Nat) (f g : Fld) (v m : Nat) (h : g.fkey p ≠ f.fkey p) :
    (s.fset p f v).fgetAt p g m = s.fgetAt p g m :=
  State.fgetAt_congr (s := s) (t := s.fset p f v) rfl (State.fget_fset_ne _ _ _ _ _ _ h) m

/-- A command that asks for the command state in force is counted as redundant. -/
theorem State.gateApply_redundant {s : State} {p : Nat} {g : GateCmd} (hk : g.kind = 0) (h : s.fon p GATE_STAT_CMD_OPEN = g.open_) :
    s.gateApply p g = s.fbump p GATE_STAT_REDUNDANT := by
  unfold State.gateApply
  simp only [hk, h, if_true]

theorem State.gateApply_command {s : State} {p : Nat} {g : GateCmd} (hk : g.kind = 0) (h : s.fon p GATE_STAT_CMD_OPEN = !g.open_) :
    s.gateApply p g = (s.fset p GATE_STAT_CMD_OPEN (b2n g.open_)).gateUpdate p g false g.slot := by
  have hne : s.fon p GATE_STAT_CMD_OPEN ≠ g.open_ := by rw [h]; cases g.open_ <;> decide
  unfold State.gateApply
  simp only [hk, hne, if_true, if_false]

theorem State.gateApply_pin {s : State} {p : Nat} {g : GateCmd} (hk : g.kind = 1) :
    s.gateApply p g = (s.fset p GATE_STAT_PIN_OPEN (b2n g.open_)).gateUpdate p g true 0xFF := by
  unfold State.gateApply
  simp [hk]

theorem State.fon_fset_b2n (s : State) (p : Nat) (f : Fld) (b : Bool) (hw : 0 < f.width) : (s.fset p f (b2n b)).fon p f = b := by
  have h : b2n b < 2 ^ f.width := (b2n_lt_two b).trans_le (Nat.pow_le_pow_right (by decide : 0 < 2) hw)
  rw [State.fon, State.fget_fset_of_lt _ _ h]
  cases b <;> rfl

/-! ### The clauses -/

theorem gateChange_redundant_clause {s : State} {p : PortIx} {g : GateCmd} {r : List GateCmd} (h : (s.fe p).gateCmds = g :: r)
    (ht : g.tick ≤ s.tm.tick) (hk : g.kind = 0) (hc : s.fon p GATE_STAT_CMD_OPEN = g.open_) :
    ∃ u, exec (.gateChange p) s = .next u ∧ (u.fe p).gateCmds = r ∧
      u.fget p GATE_STAT_REDUNDANT = min (s.fget p GATE_STAT_REDUNDANT + 1) 255 ∧ FeRegsSame s u [(p, GATE_STAT_REDUNDANT)] := by
  have hc' : (s.gateTaken p g r).fon p GATE_STAT_CMD_OPEN = g.open_ := by
    rw [← hc, State.fon, State.gateTaken_fget]
    rfl
  refine ⟨_, exec_gateChange h ht, ?_⟩
  rw [State.gateApply_redundant hk hc']
  refine ⟨by rw [State.fbump_fe, State.gateTaken_fe], ?_, ?_⟩
  · rw [State.fget_fbump_sat, State.gateTaken_fget]
    rfl
  · exact (FeRegsSame.of_freg (s.gateTaken_freg p g r) _).fbump _ _

theorem gateChange_command_clause {s : State} {p : PortIx} {g : GateCmd} {r : List GateCmd} (h : (s.fe p).gateCmds = g :: r)
    (ht : g.tick ≤ s.tm.tick) (hk : g.kind = 0) (hc : s.fon p GATE_STAT_CMD_OPEN = !g.open_)
    (hm : s.fgetAt p GATE_CFG_MODE (g.ns * 65536) = 1) (ho : s.fon p GATE_STAT_OPEN = !g.open_)
    (hr : s.fonAt p GATE_CFG_REC_EN (g.ns * 65536) = true) (hn : (s.fe p).factsNow.gates.length < 4) :
    ∃ u, exec (.gateChange p) s = .next u ∧ (u.fe p).gateCmds = r ∧ u.fget p GATE_STAT_OPEN = b2n g.open_ ∧
      u.fget p GATE_STAT_CMD_OPEN = b2n g.open_ ∧
      (u.fe p).factsNow.gates = (s.fe p).factsNow.gates ++ [gateRecord g.coarse g.open_ false g.slot] := by
  generalize hv : (s.gateTaken p g r).fset p GATE_STAT_CMD_OPEN (b2n g.open_) = v
  have hfe : v.fe p = { s.fe p with gateCmds := r } := by rw [← hv, State.fset_fe, State.gateTaken_fe]
  have hat : ∀ f m, f.fkey p ≠ GATE_STAT_CMD_OPEN.fkey p → v.fgetAt p f m = s.fgetAt p f m := fun f m hf => by
    rw [← hv, State.fgetAt_fset_ne _ _ _ _ _ _ hf, State.gateTaken_fgetAt]
  have hcmd : v.fon p GATE_STAT_CMD_OPEN = g.open_ := by rw [← hv, State.fon_fset_b2n _ _ _ _ (by decide)]
  have hopen : v.fon p GATE_STAT_OPEN = !g.open_ := by
    rw [← hv, State.fon_fset_ne _ _ _ _ _ _ (by simp [Fld.fkey, Fld.key, GATE_STAT_OPEN, GATE_STAT_CMD_OPEN]), State.fon,
      State.gateTaken_fget]
    exact ho
  have heff : v.gateEff p (g.ns * 65536) = g.open_ := by
    unfold State.gateEff
    rw [hat _ _ (by simp [Fld.fkey, Fld.key, GATE_CFG_MODE, GATE_STAT_CMD_OPEN]), hm, hcmd]
    rfl
  have hrec : v.fonAt p GATE_CFG_REC_EN (g.ns * 65536) = true := by
    rw [← hr, State.fonAt, hat _ _ (by simp [Fld.fkey, Fld.key, GATE_CFG_REC_EN, GATE_STAT_CMD_OPEN])]
    rfl
  have hc' : (s.gateTaken p g r).fon p GATE_STAT_CMD_OPEN = !g.open_ := by
    rw [← hc, State.fon, State.gateTaken_fget]
    rfl
  refine ⟨_, exec_gateChange h ht, ?_⟩
  rw [State.gateApply_command hk hc', hv]
  obtain ⟨hout, -, hregs⟩ := State.gateUpdate_changed heff hopen false g.slot
  refine ⟨?_, hout, ?_, ?_⟩
  · rw [State.gateUpdate_gateCmds, hfe]
  · rw [hregs p GATE_STAT_CMD_OPEN (by simp [Fld.fkey, Fld.key, GATE_STAT_OPEN, GATE_STAT_CMD_OPEN, GATE_STAT_LOST]), ← hv,
      State.fget_fset_of_lt _ _ (b2n_lt_two _)]
  · rw [State.gateUpdate_recorded heff hopen hrec (by rw [hfe]; exact hn), hfe]

theorem gateChange_pin_clause {s : State} {p : PortIx} {g : GateCmd} {r : List GateCmd} (h : (s.fe p).gateCmds = g :: r)
    (ht : g.tick ≤ s.tm.tick) (hk : g.kind = 1) (hm : s.fgetAt p GATE_CFG_MODE (g.ns * 65536) = 2)
    (ho : s.fon p GATE_STAT_OPEN = !g.open_) :
    ∃ u, exec (.gateChange p) s = .next u ∧ u.fget p GATE_STAT_PIN_OPEN = b2n g.open_ ∧ u.fget p GATE_STAT_OPEN = b2n g.open_ ∧
      (u.fe p).gateHist.head? = some (g.ns, g.open_) := by
  generalize hv : (s.gateTaken p g r).fset p GATE_STAT_PIN_OPEN (b2n g.open_) = v
  have hpin : v.fon p GATE_STAT_PIN_OPEN = g.open_ := by rw [← hv, State.fon_fset_b2n _ _ _ _ (by decide)]
  have hopen : v.fon p GATE_STAT_OPEN = !g.open_ := by
    rw [← hv, State.fon_fset_ne _ _ _ _ _ _ (by simp [Fld.fkey, Fld.key, GATE_STAT_OPEN, GATE_STAT_PIN_OPEN]), State.fon,
      State.gateTaken_fget]
    exact ho
  have heff : v.gateEff p (g.ns * 65536) = g.open_ := by
    unfold State.gateEff
    rw [hpin, ← hv, State.fgetAt_fset_ne _ _ _ _ _ _ (by simp [Fld.fkey, Fld.key, GATE_CFG_MODE, GATE_STAT_PIN_OPEN]),
      State.gateTaken_fgetAt, hm]
    rfl
  refine ⟨_, exec_gateChange h ht, ?_⟩
  rw [State.gateApply_pin hk, hv]
  obtain ⟨hout, hhist, hregs⟩ := State.gateUpdate_changed heff hopen true 0xFF
  refine ⟨?_, hout, ?_⟩
  · rw [hregs p GATE_STAT_PIN_OPEN (by simp [Fld.fkey, Fld.key, GATE_STAT_OPEN, GATE_STAT_PIN_OPEN, GATE_STAT_LOST]), ← hv,
      State.fget_fset_of_lt _ _ (b2n_lt_two _)]
  · rw [hhist]
    rfl

/-! ### GATE_PIN_EDGE and TEST_PULSE_INJECT -/

theorem exec_gatePinEdge {s : State} {p : PortIx} (hl : s.feLive p = true) (t : Inst) (level : Bool) :
    exec (.gatePinEdge p t level) s = .next ((((s.toInst t).gateDrain p (s.mono t / 65536)).pinGlitch p (s.mono t)).gatePend p
      ((t + 4 * 65536 + 65535) / 65536) 1 level 0xFF (s.mono t)) := by
  have hl' : (s.toInst t).feLive p = true := hl
  show execGatePinEdge p t level s = _
  unfold execGatePinEdge
  simp only [hl', if_true, State.toInst_mono]

/-- With no command due before the instant, draining takes nothing. -/
theorem State.gateDrain_of_later {s : State} {p ns : Nat} (h : ∀ g ∈ (s.fe p).gateCmds, ns ≤ g.ns) :
    s.gateDrain p ns = s.modFe p fun x => { x with gateCmds := x.gateCmds.filter fun g => decide (ns ≤ g.ns) } := by
  have hnone : ((s.fe p).gateCmds.filter fun g => decide (g.ns < ns)) = [] := by
    rw [List.filter_eq_nil_iff]
    intro g hg
    simpa using h g hg
  unfold State.gateDrain
  rw [hnone]
  rfl

/-- The commands that wait after a pin edge, when none was due before it and no other remains. -/
theorem State.gatePend_only {s : State} {p ns m n kind slot cross : Nat} {open_ : Bool} (h : ∀ g ∈ (s.fe p).gateCmds, ns ≤ g.ns)
    (hg : ∀ g ∈ (s.fe p).gateCmds, g.kind = 1 ∧ m < g.cross + 2 * 65536) :
    ((((s.gateDrain p ns).pinGlitch p m).gatePend p n kind open_ slot cross).fe p).gateCmds =
        [⟨s.tm.tick + n / 4000, n % 4000, kind, open_, slot, cross⟩] ∧
      (((s.gateDrain p ns).pinGlitch p m).gatePend p n kind open_ slot cross).freg = s.freg := by
  rw [State.gateDrain_of_later h]
  refine ⟨?_, by simp only [State.gatePend, State.pinGlitch, State.modFe_freg]⟩
  have hnone : ((s.fe p).gateCmds.filter fun g => decide (ns ≤ g.ns)).filter
      (fun g => !(decide (g.kind = 1) && decide (m < g.cross + 2 * 65536))) = [] := by
    rw [List.filter_eq_nil_iff]
    intro g hm
    simp [hg g (List.mem_of_mem_filter hm)]
  simp only [State.gatePend, State.pinGlitch, State.fe_modFe, hnone, gateInsert, State.modFe_tm]

theorem gatePinEdge_clause {s : State} {p : PortIx} (hl : s.feLive p = true) (t : Inst) (level : Bool)
    (h : ∀ g ∈ (s.fe p).gateCmds, s.mono t / 65536 ≤ g.ns)
    (hg : ∀ g ∈ (s.fe p).gateCmds, g.kind = 1 ∧ s.mono t < g.cross + 2 * 65536) :
    ∃ u, exec (.gatePinEdge p t level) s = .next u ∧
      (u.fe p).gateCmds = [⟨s.tm.tick + (t + 4 * 65536 + 65535) / 65536 / 4000, (t + 4 * 65536 + 65535) / 65536 % 4000, 1, level, 0xFF,
        s.mono t⟩] ∧ u.freg = s.freg := by
  refine ⟨_, exec_gatePinEdge hl t level, ?_⟩
  obtain ⟨hc, hf⟩ := State.gatePend_only (s := s.toInst t) (p := p) (ns := s.mono t / 65536) (m := s.mono t)
    (n := (t + 4 * 65536 + 65535) / 65536) (kind := 1) (slot := 0xFF) (cross := s.mono t) (open_ := level) h hg
  exact ⟨hc, hf⟩

theorem exec_testPulseInject {s : State} {p : PortIx} {j : Injection} {r : List Injection} {m : Nat} (h : (s.fe p).injects = j :: r)
    (ht : j.tick ≤ s.tm.tick) (hm : j.tick * instPerFrame + j.phase = m) :
    exec (.testPulseInject p) s = .next (((s.toInst j.phase).modFe p fun y => { y with
      injects := r, injected := some { at_ := m, amp := j.amp, chans := s.injectChans p m }
      mon := { y.mon with injAt := y.mon.injAt ++ [m] } }).fbump p TP_STAT_INJ) := by
  show execTestPulseInject p s = _
  unfold execTestPulseInject
  simp only [h, Nat.not_lt.2 ht, if_false, hm]

/-- The channels that take part in an injection, each with its polarity. -/
theorem State.mem_injectChans (s : State) (p m : Nat) (c : ChIx) (b : Bool) :
    (c.val, b) ∈ s.injectChans p m ↔ s.fonAt p (CH_CFG_TP_EN c) m = true ∧ b = s.fonAt p (CH_CFG_POL c) m := by
  simp only [State.injectChans, List.mem_map, List.mem_filter, List.mem_range, Prod.mk.injEq]
  constructor
  · rintro ⟨n, ⟨-, hn⟩, rfl, rfl⟩
    exact ⟨hn, rfl⟩
  · rintro ⟨hc, rfl⟩
    exact ⟨c, ⟨c.isLt, hc⟩, rfl, rfl⟩

/-- Settles O11. -/
theorem gateChangesAndTestPulses : Obligations.GateChangesAndTestPulses := by
  refine ⟨fun s p g r h ht hk => ⟨gateChange_redundant_clause h ht hk, gateChange_command_clause h ht hk⟩,
    fun s p g r h ht hk hm ho => gateChange_pin_clause h ht hk hm ho, fun s p t level hl => ⟨fun hnil => ?_, fun g hg hk hgl hns => ?_⟩,
    fun s p j r h ht => ?_⟩
  · exact gatePinEdge_clause hl t level (by simp [hnil]) (by simp [hnil])
  · exact gatePinEdge_clause hl t level (by simpa [hg] using hns) (by simpa [hg] using ⟨hk, hgl⟩)
  · intro m
    have he := exec_testPulseInject h ht (m := m) rfl
    clear_value m
    refine ⟨_, he, ?_⟩
    rw [State.fget_fbump_sat, State.fbump_fe, State.fe_modFe]
    refine ⟨rfl, rfl, ⟨_, rfl, rfl, rfl, ?_⟩, (((FeRegsSame.refl s _).toInst _).modFe _ _).fbump _ _⟩
    intro c b
    rw [State.mem_injectChans]

end Sys2Proof.Machine

/-! ## Amplitude conversions and their slices -/

namespace Sys2Proof.Machine

set_option Elab.async false

/-! ### What a conversion can change -/

/-- `u` differs from `s` in the time, the channels and the blocks at most. -/
def ConvOnly (s u : State) : Prop := ∃ a b c, u = { s with tm := a, chans := b, blks := c }

namespace ConvOnly

variable {s t u : State}

theorem refl (s : State) : ConvOnly s s := ⟨_, _, _, rfl⟩

theorem toInst (h : ConvOnly s t) (i : Inst) : ConvOnly s (t.toInst i) := by
  obtain ⟨a, b, c, rfl⟩ := h
  obtain ⟨x, hx⟩ := State.toInst_tmOnly { s with tm := a, chans := b, blks := c } i
  exact ⟨_, _, _, hx⟩

theorem modCh (h : ConvOnly s t) (p c : Nat) (g : Chan → Chan) : ConvOnly s (t.modCh p c g) := by
  obtain ⟨x, y, z, rfl⟩ := h
  exact ⟨_, _, _, rfl⟩

theorem setBlk (h : ConvOnly s t) (p b : Nat) (x : Blk) : ConvOnly s (t.setBlk p b x) := by
  obtain ⟨x, y, z, rfl⟩ := h
  exact ⟨_, _, _, rfl⟩

theorem modBlk (h : ConvOnly s t) (p b : Nat) (g : Blk → Blk) : ConvOnly s (t.modBlk p b g) := h.setBlk p b _

theorem foldl {α : Type} (g : State → α → State) (hg : ∀ z x, ConvOnly s z → ConvOnly s (g z x)) (l : List α) (h : ConvOnly s t) :
    ConvOnly s (l.foldl g t) := by
  induction l generalizing t with
  | nil => exact h
  | cons x r ih => exact ih (hg t x h)

/-- The shape in which the statements say it. -/
theorem eq (h : ConvOnly s u) : u = { s with tm := u.tm, chans := u.chans, blks := u.blks } := by
  obtain ⟨x, y, z, rfl⟩ := h
  rfl

end ConvOnly

/-! ### Slices of a block -/

@[simp] theorem Blk.slice_modSlice (x : Blk) (k : Nat) (g : AdcSlice → AdcSlice) : (x.modSlice k g).slice k = g (x.slice k) := by
  simp [Blk.slice, Blk.modSlice]

@[simp] theorem Blk.modSlice_starters (x : Blk) (k : Nat) (g : AdcSlice → AdcSlice) : (x.modSlice k g).starters = x.starters := rfl

theorem State.serveStart_convOnly {s t : State} (h : ConvOnly s t) (p b ns : Nat) (e : Nat × Nat) :
    ConvOnly s (t.serveStart p b ns e) := by
  unfold State.serveStart
  split
  · exact h.modCh _ _ _
  · exact (h.modCh _ _ _).modBlk _ _ _

@[simp] theorem State.serveStart_starters (s : State) (p b ns : Nat) (e : Nat × Nat) :
    ((s.serveStart p b ns e).blk p b).starters = (s.blk p b).starters := by
  unfold State.serveStart
  split
  · rfl
  · rw [State.blk_modBlk, Blk.modSlice_starters, State.modCh_blk]

theorem State.foldl_serveStart_starters (p b ns : Nat) (l : List (Nat × Nat)) (s : State) :
    ((l.foldl (fun z y => z.serveStart p b ns y) s).blk p b).starters = (s.blk p b).starters := by
  induction l generalizing s with
  | nil => rfl
  | cons y r ih => rw [List.foldl_cons, ih, State.serveStart_starters]

theorem State.convStart_convOnly {s t : State} (h : ConvOnly s t) (p b ns : Nat) (e : Nat × Nat) : ConvOnly s (t.convStart p b ns e) :=
  ConvOnly.foldl _ (fun _ y hz => State.serveStart_convOnly hz p b ns y) _ (h.setBlk _ _ _)

/-- On an edge on which others have started, the channel joins them in ascending order. -/
theorem State.convStart_starters {s : State} {p b ns : Nat} (h : (s.blk p b).edge = ns) (e : Nat × Nat) :
    ((s.convStart p b ns e).blk p b).starters = startInsert e (s.blk p b).starters := by
  unfold State.convStart
  rw [State.foldl_serveStart_starters, State.blk_setBlk]
  simp only [h, if_true]

/-- The first start on an edge is served at once. -/
theorem State.convStart_first {s : State} {p b ns : Nat} (h : (s.blk p b).edge ≠ ns) (hb : (s.blk p b).before ns = s.blk p b)
    (e : Nat × Nat) :
    s.convStart p b ns e = (s.setBlk p b { s.blk p b with edge := ns, starters := [e] }).serveStart p b ns e := by
  unfold State.convStart
  simp only [h, if_false, startInsert, hb, List.foldl_cons, List.foldl_nil]

/-! ### ADC_CONVERSION_START -/

theorem exec_adcConversionStart {s : State} {p : PortIx} {c : ChIx} {t : Inst} {n : Hit} {r : List Hit}
    (hl : (s.ch p c).later = []) (hh : (s.ch p c).hits = n :: r) (ha : n.amp = .waiting) (hs : n.startEdge = none)
    (hr : n.rejected = false) (hok : n.startOk (s.mono t / 65536) = true) :
    exec (.adcConversionStart p c t) s = .next ((s.toInst t).convStart p (c.val / 16) (s.mono t / 65536) (c.val, n.mono)) := by
  have hw : n.ampWaits = true := by simp [Hit.ampWaits, ha, hs]
  show execAdcConversionStart p c t s = _
  unfold execAdcConversionStart
  simp only [State.toInst_mono, State.toInst_ch, hl, hh, List.nil_append, List.find?_cons_of_pos hw, hr, hok, Bool.not_true,
    Bool.false_eq_true, if_false]

/-- The hits of a channel whose first hit starts its conversion. -/
theorem Chan.started_hits {h : Chan} {n : Hit} {r : List Hit} (hh : h.hits = n :: r) (ns : Nat) (k : Option Nat) :
    (h.started n.mono ns k).hits = n.started ns k :: r := by
  simp only [Chan.started, hh]
  exact modFirst_cons_of (by simp) _ _

theorem Hit.started_amp_none {n : Hit} (h : n.amp = .waiting) (ns : Nat) : (n.started ns none).amp = .noSlice := by
  simp [Hit.started, h]

theorem Hit.started_amp_some {n : Hit} (h : n.amp = .waiting) (ns k : Nat) : (n.started ns (some k)).amp = .converting k := by
  simp [Hit.started, h]

/-- A start without a free slice. -/
theorem State.serveStart_none {s : State} {p b ns : Nat} (h : (s.blk p b).pick ns = none) (e : Nat × Nat) :
    s.serveStart p b ns e = s.modCh p e.1 fun x => x.started e.2 ns none := by
  unfold State.serveStart
  simp only [h]

/-- A start with a free slice: the slice is taken for 500 ns. -/
theorem State.serveStart_some {s : State} {p b ns k : Nat} (h : (s.blk p b).pick ns = some k) (e : Nat × Nat) :
    s.serveStart p b ns e = (s.modCh p e.1 fun x => x.started e.2 ns (some k)).modBlk p b fun x => x.modSlice k fun y =>
      { y with freeAt := ns + 500, convs := y.convs ++ [{ ch := e.1, hit := e.2, start := ns }] } := by
  unfold State.serveStart
  simp only [h]

theorem State.convStart_first_toInst {s : State} {p b ns : Nat} (t : Inst) (h : (s.blk p b).edge ≠ ns)
    (hb : (s.blk p b).before ns = s.blk p b) (e : Nat × Nat) :
    (s.toInst t).convStart p b ns e =
      ((s.toInst t).setBlk p b { s.blk p b with edge := ns, starters := [e] }).serveStart p b ns e := by
  have hz := s.toInst_blk t p b
  rw [State.convStart_first (by rw [hz]; exact h) (by rw [hz]; exact hb), hz]

/-- The choice of a slice does not depend on the starters. -/
theorem Blk.pick_starting (x : Blk) (m : Nat) (l : List (Nat × Nat)) (ns : Nat) :
    { x with edge := m, starters := l }.pick ns = x.pick ns := rfl

theorem Blk.slice_starting (x : Blk) (m : Nat) (l : List (Nat × Nat)) (k : Nat) :
    { x with edge := m, starters := l }.slice k = x.slice k := rfl

theorem State.convStart_noSlice {s : State} {p b ns : Nat} {e : Nat × Nat} (t : Inst) (h : (s.blk p b).edge ≠ ns)
    (hb : (s.blk p b).before ns = s.blk p b) (hp : (s.blk p b).pick ns = none) :
    (s.toInst t).convStart p b ns e =
      ((s.toInst t).setBlk p b { s.blk p b with edge := ns, starters := [e] }).modCh p e.1 fun x => x.started e.2 ns none := by
  rw [State.convStart_first_toInst t h hb, State.serveStart_none]
  rw [State.blk_setBlk, Blk.pick_starting, hp]

theorem State.convStart_slice {s : State} {p b ns k : Nat} {e : Nat × Nat} (t : Inst) (h : (s.blk p b).edge ≠ ns)
    (hb : (s.blk p b).before ns = s.blk p b) (hp : (s.blk p b).pick ns = some k) :
    (s.toInst t).convStart p b ns e =
      (((s.toInst t).setBlk p b { s.blk p b with edge := ns, starters := [e] }).modCh p e.1 fun x => x.started e.2 ns (some k)).modBlk p b
        fun x => x.modSlice k fun y =>
          { y with freeAt := ns + 500, convs := y.convs ++ [{ ch := e.1, hit := e.2, start := ns }] } := by
  rw [State.convStart_first_toInst t h hb, State.serveStart_some]
  rw [State.blk_setBlk, Blk.pick_starting, hp]

/-! ### ADC_RESULT -/

/-- The state at the instant `ns` since power-on, if that lies in the frame in progress. -/
def State.atNs (s : State) (ns : Nat) : State := if ns / 4000 = s.tm.tick then s.toInst (ns % 4000 * 65536) else s

theorem State.atNs_convOnly (s : State) (ns : Nat) : ConvOnly s (s.atNs ns) := by
  unfold State.atNs
  split
  · exact (ConvOnly.refl s).toInst _
  · exact ConvOnly.refl s

theorem State.atNs_fe (s : State) (ns : Nat) (p : Nat) : (s.atNs ns).fe p = s.fe p := by
  obtain ⟨a, b, c, h⟩ := s.atNs_convOnly ns
  rw [h]
  rfl

theorem State.atNs_freg (s : State) (ns : Nat) : (s.atNs ns).freg = s.freg := by
  obtain ⟨a, b, c, h⟩ := s.atNs_convOnly ns
  rw [h]

theorem State.atNs_held (s : State) (ns : Nat) (p c m : Nat) (x : Excursion) : (s.atNs ns).held p c m x = s.held p c m x := by
  have h : (s.atNs ns).fonAt p (CH_CFG_POL c) m = s.fonAt p (CH_CFG_POL c) m := by
    rw [State.fonAt, State.fonAt, State.fgetAt_congr (by rw [State.atNs_fe]) (State.fget_of_freg (s.atNs_freg ns) _ _)]
  unfold State.held
  rw [h]

theorem State.atNs_ch (s : State) (ns : Nat) (p c : Nat) : (s.atNs ns).ch p c = s.ch p c := by
  unfold State.atNs
  split
  · rw [State.toInst_ch]
  · rfl

theorem State.atNs_blk (s : State) (ns : Nat) (p b : Nat) : (s.atNs ns).blk p b = s.blk p b := by
  unfold State.atNs
  split
  · rw [State.toInst_blk]
  · rfl

/-- The state after the hand-over of result `v` of slice `k`: the conversion is off the slice, and its hit carries `amp`. -/
def State.handedOver (s : State) (p b k : Nat) (v : Conv) (q : List Conv) (amp : Hit → AmpSt) : State :=
  ((s.atNs v.handOver).modBlk p b fun x => x.modSlice k fun y => { y with convs := q }).modCh p v.ch fun h =>
    { h with
      hits := modFirst (fun x => decide (x.mono = v.hit) && decide (x.amp = .converting k)) (fun x => { x with amp := amp x }) h.hits }

theorem exec_adcResult {s : State} {p : PortIx} {b : BlkIx} {k : SliceIx} {v : Conv} {q : List Conv}
    (h : ((s.blk p b).slice k).convs = v :: q) (ht : v.handOver < (s.tm.tick + 1) * 4000) (p8 p1 : Excursion) :
    exec (.adcResult p b k p8 p1 false) s = .next (s.handedOver p b k v q fun x =>
        x.amplitude (s.held p v.ch v.hit p8) (s.held p v.ch v.hit p1)) ∧
      exec (.adcResult p b k p8 p1 true) s = .next (((s.handedOver p b k v q fun _ => .parity).fbump p
        (BLK_ADCSTAT_PERR b)).modBlk p b fun x => { x with forcedSpare := some k }) := by
  constructor
  · show execAdcResult p b k p8 p1 false s = _
    rw [← s.atNs_held v.handOver, ← s.atNs_held v.handOver]
    unfold execAdcResult
    simp only [h, Nat.not_le.2 ht, if_false, Bool.false_eq_true]
    rfl
  · show execAdcResult p b k p8 p1 true s = _
    unfold execAdcResult
    simp only [h, Nat.not_le.2 ht, if_false, if_true]
    rfl

theorem State.handedOver_convOnly (s : State) (p b k : Nat) (v : Conv) (q : List Conv) (amp : Hit → AmpSt) :
    ConvOnly s (s.handedOver p b k v q amp) := ((s.atNs_convOnly v.handOver).modBlk _ _ _).modCh _ _ _

theorem State.handedOver_hits {s : State} {p b k : Nat} {v : Conv} {n : Hit} {r : List Hit} (hh : (s.ch p v.ch).hits = n :: r)
    (hm : n.mono = v.hit) (ha : n.amp = .converting k) (q : List Conv) (amp : Hit → AmpSt) :
    ((s.handedOver p b k v q amp).ch p v.ch).hits = { n with amp := amp n } :: r := by
  unfold State.handedOver
  rw [State.ch_modCh, State.modBlk_ch, State.atNs_ch, hh]
  exact modFirst_cons_of (f := fun x => decide (x.mono = v.hit) && decide (x.amp = .converting k)) (by simp [hm, ha]) _ _

theorem State.handedOver_blk (s : State) (p b k : Nat) (v : Conv) (q : List Conv) (amp : Hit → AmpSt) :
    (s.handedOver p b k v q amp).blk p b = (s.blk p b).modSlice k fun y => { y with convs := q } := by
  unfold State.handedOver
  rw [State.modCh_blk, State.blk_modBlk, State.atNs_blk]

theorem ampCode_le (v8 v1 : Int) : (ampCode v8 v1).1 ≤ 1023 := by
  unfold ampCode
  extract_lets x v
  show (max 0 (min 1023 v)).toNat ≤ 1023
  omega

/-! ### The spare and the calibration of slices -/

/-- With no slice failed, the slice after the spare is the next spare. -/
theorem Blk.nextSpare_of_good {x : Blk} {k : Fin 5} (hs : x.spare = some k.val) (hf : x.forcedSpare = none)
    (h : ∀ j : Fin 5, (x.slice j).failed = false) : x.nextSpare = some ((k.val + 1) % 5) := by
  have hg : x.good = List.range 5 := by
    rw [Blk.good, List.filter_eq_self]
    intro j hj
    simpa using h ⟨j, List.mem_range.1 hj⟩
  have hafter : x.after k = some ((k.val + 1) % 5) := by
    have hm : ∀ j, (x.slice (j % 5)).failed = false := fun j => h ⟨j % 5, Nat.mod_lt _ (by decide)⟩
    simp [Blk.after, List.range_succ, hm]
  unfold Blk.nextSpare
  rw [hg, hf, hs, Option.getD_some, hafter]
  rfl

/-- An accepted calibration. -/
theorem State.sliceCal_accepted {o g : Int} (ho : o.natAbs ≤ 16000) (hg : g.natAbs ≤ 30000) (s : State) (p b k : Nat) :
    s.sliceCal p b k o g = s.modBlk p b fun x => x.modSlice k fun y => { y with calibrated := true, offset := o, gain := g } := by
  unfold State.sliceCal
  simp only [ho, hg, and_self, if_true]

/-- A calibration whose offset is beyond 16 LSB fails the slice. -/
theorem State.sliceCal_failed {o : Int} (ho : 16000 < o.natAbs) (g : Int) (s : State) (p b k : Nat) :
    s.sliceCal p b k o g = (s.modBlk p b fun x => x.modSlice k fun y => { y with failed := true }).fset p (BLK_ADCSTAT_FAIL b)
      (Nat.lor (s.fget p (BLK_ADCSTAT_FAIL b)) (2 ^ k)) := by
  unfold State.sliceCal
  simp only [Nat.not_le.2 ho, false_and, if_false]

@[simp] theorem State.sliceCal_fes (s : State) (p b k : Nat) (o g : Int) : (s.sliceCal p b k o g).fes = s.fes := by
  unfold State.sliceCal
  split <;> rfl

/-- `u` differs from `s` in the front-ends, their blocks and their registers at most. -/
def CalOnly (s u : State) : Prop := ∃ a b c, u = { s with fes := a, blks := b, freg := c }

theorem CalOnly.eq {s u : State} (h : CalOnly s u) : u = { s with fes := u.fes, blks := u.blks, freg := u.freg } := by
  obtain ⟨x, y, z, rfl⟩ := h
  rfl

theorem CalOnly.sliceCal {s t : State} (h : CalOnly s t) (p b k : Nat) (o g : Int) : CalOnly s (t.sliceCal p b k o g) := by
  obtain ⟨x, y, z, rfl⟩ := h
  unfold State.sliceCal
  split
  · exact ⟨_, _, _, rfl⟩
  · exact ⟨_, _, _, rfl⟩

/-- The calibrations of a wake-up, slice by slice. -/
def State.wakeCals (s : State) (p : Nat) (l : List (BlkIx × SliceIx × Int × Int)) : State :=
  l.foldl (fun z e => if ((z.blk p e.1).slice e.2.1).failed then z else z.sliceCal p e.1 e.2.1 e.2.2.1 e.2.2.2) s

theorem exec_wakeSliceCalibration {s : State} {x : WakeCal} (h : (s.fe x.fe).wakeCal = true) :
    exec (.wakeSliceCalibration x) s = .next ((s.modFe x.fe fun f => { f with wakeCal := false }).wakeCals x.fe x.results) := by
  show execWakeSliceCalibration x s = _
  unfold execWakeSliceCalibration
  simp only [h, if_true]
  rfl

theorem State.wakeCals_fes (s : State) (p : Nat) (l : List (BlkIx × SliceIx × Int × Int)) : (s.wakeCals p l).fes = s.fes := by
  unfold State.wakeCals
  induction l generalizing s with
  | nil => rfl
  | cons e r ih =>
    rw [List.foldl_cons, ih]
    split
    · rfl
    · rw [State.sliceCal_fes]

theorem CalOnly.wakeCals {s t : State} (h : CalOnly s t) (p : Nat) (l : List (BlkIx × SliceIx × Int × Int)) :
    CalOnly s (t.wakeCals p l) := by
  unfold State.wakeCals
  induction l generalizing t with
  | nil => exact h
  | cons e r ih =>
    refine ih ?_
    dsimp only
    split
    · exact h
    · exact h.sliceCal _ _ _ _ _

theorem State.wakeCals_one {s : State} {p : Nat} {b : BlkIx} {k : SliceIx} (h : ((s.blk p b).slice k).failed = false) (o g : Int) :
    s.wakeCals p [(b, k, o, g)] = s.sliceCal p b k o g := by
  simp [State.wakeCals, h]

/-! ### The clauses -/

theorem adcResult_clause {s : State} {p : PortIx} {b : BlkIx} {k : SliceIx} {p8 p1 : Excursion} {v : Conv} {q : List Conv} {n : Hit}
    {r : List Hit} (hc : ((s.blk p b).slice k).convs = v :: q) (ht : v.handOver < (s.tm.tick + 1) * 4000)
    (hh : (s.ch p v.ch).hits = n :: r) (hm : n.mono = v.hit) (ha : n.amp = .converting k.val) {h8 h1 : Int}
    (e8 : h8 = max n.hold8 (s.held p v.ch v.hit p8)) (e1 : h1 = max n.hold1 (s.held p v.ch v.hit p1)) :
    (∃ u m, exec (.adcResult p b k p8 p1 false) s = .next u ∧ (u.ch p v.ch).hits = m :: r ∧
      m.amp = .done (ampCode h8 h1).1 (decide (127500 < h8)) ∧ (ampCode h8 h1).1 ≤ 1023 ∧ ((u.blk p b).slice k).convs = q ∧
      u = { s with tm := u.tm, blks := u.blks, chans := u.chans }) ∧
    (∃ u m, exec (.adcResult p b k p8 p1 true) s = .next u ∧ (u.ch p v.ch).hits = m :: r ∧ m.amp = .parity ∧
      u.fget p (BLK_ADCSTAT_PERR b) = min (s.fget p (BLK_ADCSTAT_PERR b) + 1) 15 ∧ (u.blk p b).forcedSpare = some k.val ∧
      FeRegsSame s u [(p, BLK_ADCSTAT_PERR b)]) := by
  subst e8 e1
  obtain ⟨hok, herr⟩ := exec_adcResult hc ht p8 p1
  have hf : ∀ amp, (s.handedOver p b k v q amp).freg = s.freg := fun amp => by
    obtain ⟨_, _, _, h⟩ := s.handedOver_convOnly p b k v q amp
    rw [h]
  refine ⟨⟨_, _, hok, State.handedOver_hits hh hm ha _ _, rfl, ampCode_le _ _, ?_, (s.handedOver_convOnly _ _ _ _ _ _).eq⟩,
    ⟨_, _, herr, State.handedOver_hits hh hm ha _ _, rfl, ?_, ?_, ?_⟩⟩
  · rw [State.handedOver_blk, Blk.slice_modSlice]
  · rw [State.modBlk_fget, State.fget_fbump_sat, State.fget_of_freg (hf _)]
    rfl
  · rw [State.blk_modBlk]
  · exact ((FeRegsSame.of_freg (hf _) _).fbump _ _).modBlk _ _ _

theorem spareRotation_clause {s : State} {p : PortIx} {b : BlkIx} {k : Fin 5} (hf : s.feFrame p % framesPerSec % 80 = 0)
    (hon : (s.fe p).analogOn = true) (hw : (s.fe p).wakeCal = false) (hs : (s.blk p b).spare = some k.val)
    (hno : (s.blk p b).forcedSpare = none) (hg : ∀ j : Fin 5, ((s.blk p b).slice j).failed = false) :
    ∃ u, exec (.spareRotation p b) s = .next u ∧ (u.blk p b).spare = some ((k.val + 1) % 5) ∧
      u.fget p (BLK_ADCSTAT_SPARE b) = (k.val + 1) % 5 ∧ FeRegsSame s u [(p, BLK_ADCSTAT_SPARE b)] := by
  have he : exec (.spareRotation p b) s = .next ((s.setBlk p b { s.blk p b with
      spare := some ((k.val + 1) % 5), lastSpare := (k.val + 1) % 5, forcedSpare := none }).fset p (BLK_ADCSTAT_SPARE b)
        ((k.val + 1) % 5)) := by
    show execSpareRotation p b s = _
    unfold execSpareRotation
    simp [hf, hon, hw, Blk.nextSpare_of_good hs hno hg]
  have hlt : (k.val + 1) % 5 < 2 ^ (BLK_ADCSTAT_SPARE b).width := by
    show (k.val + 1) % 5 < 8
    omega
  refine ⟨_, he, ?_, ?_, ((FeRegsSame.refl _ _).setBlk _ _ _).fset _ _ _⟩
  · rw [State.fset_blk, State.blk_setBlk]
  · rw [State.fget_fset_of_lt _ _ hlt]

/-- The bit of a failed slice joins the field's value. -/
theorem State.fget_sliceFail (s t : State) (p : Nat) (b : BlkIx) (k : SliceIx) :
    (t.fset p (BLK_ADCSTAT_FAIL b) (Nat.lor (s.fget p (BLK_ADCSTAT_FAIL b)) (2 ^ k.val))).fget p (BLK_ADCSTAT_FAIL b) =
      Nat.lor (s.fget p (BLK_ADCSTAT_FAIL b)) (2 ^ k.val) :=
  State.fget_fset_of_lt _ _ (Nat.or_lt_two_pow (s.fget_lt p (BLK_ADCSTAT_FAIL b)) (Nat.pow_lt_pow_right (by decide) k.isLt))

theorem exec_sliceCalibrationDone {s : State} {p : PortIx} {b : BlkIx} {k : Nat} (hs : (s.blk p b).spare = some k)
    (hm : s.feMeasures p = true) (o g : Int) : exec (.sliceCalibrationDone p b o g) s = .next (s.sliceCal p b k o g) := by
  show execSliceCalibrationDone p b o g s = _
  unfold execSliceCalibrationDone
  simp only [hs, hm, if_true]

/-- Settles O12: the branches of a start exclude each other, and a slice is changed through `modSlice` only. -/
theorem amplitudeConversionsAndSlices : Obligations.AmplitudeConversionsAndSlices := by
  refine ⟨fun s p c t n r hl hh ha hs hr hok => ⟨fun he hb hp => ?noSlice, fun k he hb hp => ?slice, fun he => ?joins⟩,
    fun s p b k p8 p1 v q n r hc ht hh hm ha h8 h1 e8 e1 => adcResult_clause hc ht hh hm ha e8 e1,
    fun s p b k hf hon hw hs hno hg => spareRotation_clause hf hon hw hs hno hg,
    fun s p b k o g hs hm => ⟨fun ho hg => ?accepted, fun ho => ?failed⟩,
    fun s p b k o g hw hf => ⟨fun ho hg => ?wakeAccepted, fun ho => ?wakeFailed⟩, fun s x hw => ?wakes⟩
  case noSlice =>
    refine ⟨_, n.started (s.mono t / 65536) none, exec_adcConversionStart hl hh ha hs hr hok, ?_, Hit.started_amp_none ha _, rfl,
      (State.convStart_convOnly ((ConvOnly.refl s).toInst t) _ _ _ _).eq⟩
    rw [State.convStart_noSlice t he hb hp, State.ch_modCh, State.setBlk_ch, State.toInst_ch]
    exact Chan.started_hits hh _ _
  case slice =>
    refine ⟨_, n.started (s.mono t / 65536) (some k), exec_adcConversionStart hl hh ha hs hr hok, ?_, Hit.started_amp_some ha _ k, rfl,
      ?_, ?_, (State.convStart_convOnly ((ConvOnly.refl s).toInst t) _ _ _ _).eq⟩
    all_goals rw [State.convStart_slice t he hb hp]
    · rw [State.modBlk_ch, State.ch_modCh, State.setBlk_ch, State.toInst_ch]
      exact Chan.started_hits hh _ _
    · rw [State.blk_modBlk, Blk.slice_modSlice]
    · rw [State.blk_modBlk, Blk.slice_modSlice, State.modCh_blk, State.blk_setBlk, Blk.slice_starting]
  case joins =>
    refine ⟨_, exec_adcConversionStart hl hh ha hs hr hok, ?_, (State.convStart_convOnly ((ConvOnly.refl s).toInst t) _ _ _ _).eq⟩
    rw [State.convStart_starters (by rw [State.toInst_blk]; exact he), State.toInst_blk]
  case accepted =>
    refine ⟨_, exec_sliceCalibrationDone hs hm o g, ?_⟩
    rw [State.sliceCal_accepted ho hg, State.blk_modBlk, Blk.slice_modSlice]
    exact ⟨rfl, rfl, rfl, rfl⟩
  case failed =>
    refine ⟨_, exec_sliceCalibrationDone hs hm o g, ?_⟩
    rw [State.sliceCal_failed ho, State.fset_blk, State.blk_modBlk, Blk.slice_modSlice]
    exact ⟨rfl, State.fget_sliceFail _ _ _ _ _⟩
  case wakeAccepted =>
    refine ⟨_, exec_wakeSliceCalibration hw, ?_⟩
    dsimp only
    rw [State.wakeCals_one (s := s.modFe p _) hf, State.sliceCal_accepted ho hg, State.blk_modBlk, Blk.slice_modSlice, State.modBlk_fe,
      State.fe_modFe]
    exact ⟨rfl, rfl, rfl, rfl, rfl⟩
  case wakeFailed =>
    refine ⟨_, exec_wakeSliceCalibration hw, ?_⟩
    dsimp only
    rw [State.wakeCals_one (s := s.modFe p _) hf, State.sliceCal_failed ho, State.fset_blk, State.blk_modBlk, Blk.slice_modSlice,
      State.fset_fe, State.modBlk_fe, State.fe_modFe]
    exact ⟨rfl, rfl, (((FeRegsSame.refl s _).modFe _ _).modBlk _ _ _).fset _ _ _⟩
  case wakes =>
    refine ⟨_, exec_wakeSliceCalibration hw, ?_, ?_⟩
    · rw [State.fe, State.wakeCals_fes]
      exact congrArg Fe.wakeCal (State.fe_modFe s x.fe fun f => { f with wakeCal := false })
    · have h : CalOnly s (s.modFe x.fe fun f => { f with wakeCal := false }) := ⟨_, s.blks, s.freg, rfl⟩
      exact (h.wakeCals x.fe x.results).eq

end Sys2Proof.Machine

/-! ## The monitor -/

namespace Sys2Proof.Machine

set_option Elab.async false

@[simp] theorem State.modMon_mon (s : State) (p : Nat) (g : MonSt → MonSt) : ((s.modMon p g).fe p).mon = g (s.fe p).mon := by
  simp [State.modMon]

@[simp] theorem State.modMon_freg (s : State) (p : Nat) (g : MonSt → MonSt) : (s.modMon p g).freg = s.freg := rfl
@[simp] theorem State.modMon_fget (s : State) (p : Nat) (g : MonSt → MonSt) (q : Nat) (f : Fld) :
    (s.modMon p g).fget q f = s.fget q f := rfl
@[simp] theorem State.modFacts_fget (s : State) (p : Nat) (g : FrameFacts → FrameFacts) (q : Nat) (f : Fld) :
    (s.modFacts p g).fget q f = s.fget q f := rfl

theorem FeRegsSame.modMon {s t : State} {fs : List (Nat × Fld)} (h : FeRegsSame s t fs) (p : Nat) (g : MonSt → MonSt) :
    FeRegsSame s (t.modMon p g) fs := h
theorem FeRegsSame.modFacts {s t : State} {fs : List (Nat × Fld)} (h : FeRegsSame s t fs) (p : Nat) (g : FrameFacts → FrameFacts) :
    FeRegsSame s (t.modFacts p g) fs := h

/-! ### A scan starts -/

/-- The front-end's frame count depends on its own clock and on the tick. -/
theorem State.feFrame_congr {s t : State} {p : Nat} {g : MonSt → MonSt} (h : t.fe p = { s.fe p with mon := g (s.fe p).mon })
    (ht : t.tm.tick = s.tm.tick) : t.feFrame p = s.feFrame p := by
  simp only [State.feFrame, h, ht]

theorem State.atNs_tmOnly (s : State) (ns : Nat) : ∃ x, s.atNs ns = { s with tm := x } := by
  unfold State.atNs
  split
  · exact s.toInst_tmOnly _
  · exact ⟨_, rfl⟩

theorem State.atNs_tick (s : State) (ns : Nat) : (s.atNs ns).tm.tick = s.tm.tick := by
  unfold State.atNs
  split
  · rw [State.toInst_tick]
  · rfl

/-- A start that is asked for while no scan runs. -/
theorem State.monStart_idle {s : State} {p ns : Nat} (hr : (s.fe p).mon.running = false) (ha : (s.fe p).mon.askAt ≠ some (ns / 4)) :
    ((s.monStart p ns).fe p).mon.running = true ∧ ((s.monStart p ns).fe p).mon.injAt = (s.fe p).mon.injAt ∧
      (s.monStart p ns).fget p MON_STAT_BUSY = 1 ∧ ((s.monStart p ns).fe p).mon.tsFis = s.feFrame p % framesPerSec ∧
      FeRegsSame s (s.monStart p ns) [(p, MON_STAT_BUSY), (p, MON_STAT_INPUT)] := by
  have hf : (s.modMon p fun m => { m with askAt := some (ns / 4) }).feFrame p = s.feFrame p :=
    State.feFrame_congr (g := fun m => { m with askAt := some (ns / 4) }) (by simp [State.modMon]) rfl
  have hr' : ((s.modMon p fun m => { m with askAt := some (ns / 4) }).fe p).mon.running = false := by
    rw [State.modMon_mon]
    exact hr
  unfold State.monStart
  simp only [if_neg ha, hr', Bool.false_eq_true, if_false, hf]
  refine ⟨by simp, by simp, ?_, by simp, ?_⟩
  · rw [State.fget_fset_ne _ _ _ _ _ _ (by simp [Fld.fkey, Fld.key, MON_STAT_BUSY, MON_STAT_INPUT]), State.fget_fset_same]
    rfl
  · exact ((((FeRegsSame.refl s _).modMon _ _).modMon _ _).fset _ _ _).fset _ _ _

/-- A start that is asked for while a scan runs is counted. -/
theorem State.monStart_running {s : State} {p ns : Nat} (hr : (s.fe p).mon.running = true) (ha : (s.fe p).mon.askAt ≠ some (ns / 4)) :
    s.monStart p ns = (s.modMon p fun m => { m with askAt := some (ns / 4) }).fbump p MON_STAT_OVERRUN := by
  have hr' : ((s.modMon p fun m => { m with askAt := some (ns / 4) }).fe p).mon.running = true := by
    rw [State.modMon_mon]
    exact hr
  unfold State.monStart
  simp only [if_neg ha, hr', if_true]

theorem exec_monInjectionDelay {s : State} {p : PortIx} {j ns : Nat} {r : List Nat} (hl : s.feLive p = true)
    (he : s.fon p MON_CFG_TP_EN = true) (hi : (s.fe p).mon.injAt = j :: r) (hns : j / 65536 + 1000 * s.fget p MON_TPDLY_DLY = ns)
    (ht : ns < (s.tm.tick + 1) * 4000) :
    exec (.monInjectionDelay p) s = .next (((s.atNs ns).modMon p fun m => { m with injAt := r }).monStart p ns) := by
  show execMonInjectionDelay p s = _
  unfold execMonInjectionDelay
  simp only [hi, hns, Nat.not_le.2 ht, if_false, hl, he, Bool.and_self, if_true]
  rfl

/-! ### Conversions -/

theorem exec_monConversion {s : State} {p : PortIx} {i : Nat} {r : List Nat} (hr : (s.fe p).mon.running = true)
    (hw : (s.fe p).mon.waiting = false) (ho : (s.fe p).mon.offsetDone = true) (hi : (s.fe p).mon.todo = i :: r)
    (ht : (s.fe p).mon.convEnd < (s.tm.tick + 1) * 4000) (code : Int) (cm : Nat) :
    exec (.monConversion p code cm) s = .next ((s.atNs (s.fe p).mon.convEnd).modMon p fun x =>
      x.take i code (if i ≤ 3 then s.monFaultOf p code cm else 0) (s.fe p).mon.convEnd) := by
  show execMonConversion p code cm s = _
  unfold execMonConversion
  simp only [hr, hw, ho, hi, Nat.not_le.2 ht, decide_false, Bool.not_true, Bool.or_self, Bool.false_eq_true, if_false]
  rfl

theorem lowestFault_zero (a : Nat) : lowestFault a 0 = a := by
  unfold lowestFault
  split <;> simp_all

/-- A conversion of the first phase, or of the only one. -/
theorem MonSt.take_phaseP {m : MonSt} {i : Nat} (h : m.codesP.length < monCount (tget m.icfg i 0)) (code : Int) (fault ends : Nat) :
    (m.take i code fault ends).codesP = m.codesP ++ [code] ∧ (m.take i code fault ends).void = lowestFault m.void fault := by
  unfold MonSt.take
  simp only [h, if_true]
  split <;> exact ⟨rfl, rfl⟩

/-- The last conversion of an input measured in one phase. -/
theorem MonSt.take_last_single {m : MonSt} {i : Nat} (hi : 3 < i) (h : m.codesP.length + 1 = monCount (tget m.icfg i 0)) (code : Int)
    (fault ends : Nat) : (m.take i code fault ends).waiting = true ∧ (m.take i code fault ends).commitAt = ends := by
  have hlt : m.codesP.length < monCount (tget m.icfg i 0) := by omega
  unfold MonSt.take
  simp only [hlt, if_true, MonSt.complete, List.length_append, List.length_singleton, h, Nat.le_refl, hi, decide_true, Bool.true_or,
    Bool.and_self, Nat.not_le.2 hi, if_false, and_self]

/-- The last conversion of a thermometer input, which is measured in two phases. -/
theorem MonSt.take_last_double {m : MonSt} {i : Nat} (hi : i ≤ 3) (hP : m.codesP.length = monCount (tget m.icfg i 0))
    (hN : m.codesN.length + 1 = monCount (tget m.icfg i 0)) (code : Int) (fault ends : Nat) :
    (m.take i code fault ends).waiting = true ∧ (m.take i code fault ends).commitAt = ends + 20000 := by
  unfold MonSt.take
  simp [hP, MonSt.complete, hN, hi]

/-! ### Compliance trips -/

theorem monCount_pos (w : Nat) : 0 < monCount w := Nat.two_pow_pos _

/-- A port whose excitation has tripped is not excited. -/
theorem MonSt.excitation_of_tripped {m : MonSt} {k : Nat} (h : k ∈ m.tripped) : m.excitation k = none := by
  have hno : m.excited.find? (fun e => decide (e.1 = k)) = none := by
    rw [List.find?_eq_none]
    intro e he
    have ht : e.1 ∉ m.tripped := by
      unfold MonSt.excited at he
      split at he
      · exact absurd he List.not_mem_nil
      · have hf := (List.mem_filter.1 he).2
        simp only [Bool.and_eq_true, Bool.not_eq_true', List.contains_eq_mem, decide_eq_false_iff_not] at hf
        exact hf.2
    rw [decide_eq_true_eq]
    rintro rfl
    exact ht h
  rw [MonSt.excitation, hno]
  rfl

/-- The port in progress is excited, in the phase that its codes give. -/
theorem MonSt.excitation_of_head {m : MonSt} {k : Fin 4} {r : List Nat} (hr : m.running = true) (ho : m.offsetDone = true)
    (ht : m.todo = k.val :: r) (hn : m.tripped = []) :
    m.excitation k = some ⟨if bitAt (tget m.rtdCfg k 0) 1 then 1000 else 100, bitAt (tget m.rtdCfg k 0) 0,
      decide (monCount (tget m.icfg k 0) ≤ m.codesP.length)⟩ := by
  have hk : k.val ≤ 3 := by omega
  unfold MonSt.excitation MonSt.excited
  simp [hr, ho, ht, hn, hk]

/-! ### Commits -/

theorem Fld.fkey_ne_of_reg {f g : Fld} (h : f.reg ≠ g.reg) (hf : f.lo < 64) (hg : g.lo < 64) (p : Nat) : f.fkey p ≠ g.fkey p := by
  unfold Fld.fkey Fld.key
  omega

/-- Comparing an input with its window touches the two words that show the windows. -/
theorem State.monCompare_same (s : State) (p i v whys : Nat) (above : Bool) :
    FeRegsSame s (s.monCompare p i v whys above) [(p, MON_WLIVE_OUT), (p, MON_WSTAT_OUT)] := by
  unfold State.monCompare
  extract_lets conv x lo hi live
  split
  · split
    · exact FeRegsSame.refl _ _
    · exact (((FeRegsSame.refl _ _).fset _ _ _).fset _ _ _).modFacts _ _
  · split
    · exact (FeRegsSame.refl _ _).fset _ _ _
    · exact FeRegsSame.refl _ _

theorem State.monCompare_mon (s : State) (p i v whys : Nat) (above : Bool) :
    ((s.monCompare p i v whys above).fe p).mon = (s.fe p).mon := by
  unfold State.monCompare
  extract_lets conv x lo hi live
  split
  · split
    · rfl
    · simp [State.modFacts]
  · split <;> rfl

/-- An input outside its window for the first time: it is marked, and the marking is noticed. -/
theorem State.monCompare_out {s : State} {p i : Nat} (h : bitAt (s.fget p MON_WLIVE_OUT) i = false) (v whys : Nat) :
    s.monCompare p i v whys true =
      ((s.fset p MON_WLIVE_OUT (s.fget p MON_WLIVE_OUT + 2 ^ i)).fset p MON_WSTAT_OUT
        (Nat.lor (s.fget p MON_WSTAT_OUT) (2 ^ i))).modFacts p fun f => { f with notice := true } := by
  unfold State.monCompare
  simp only [Bool.true_or, if_true, h, Bool.false_eq_true, if_false]

/-- The registers of the monitor that a commit changes apart from the input's own: the windows and the state of the scan. -/
def monScanRegs (p : Nat) : List (Nat × Fld) :=
  [(p, MON_WLIVE_OUT), (p, MON_WSTAT_OUT), (p, MON_STAT_BUSY), (p, MON_STAT_INPUT), (p, MON_TS_FIS), (p, MON_TS_SEC), (p, MON_SCANS_CNT)]

theorem State.monFinish_same (s : State) (p : Nat) : FeRegsSame s (s.monFinish p) (monScanRegs p) := by
  unfold State.monFinish
  exact (((((FeRegsSame.refl _ _).modMon _ _).fset _ _ _ (by simp [monScanRegs])).fset _ _ _ (by simp [monScanRegs])).fset _ _ _
    (by simp [monScanRegs])).fset _ _ _ (by simp [monScanRegs])

/-- What a commit leaves once the input's own registers are written. -/
def State.monCommitted (s : State) (p i t : Nat) (rest : List Nat) : State :=
  let s2 := s.modFacts p fun f => { f with xmon := some (s.xmonRecord p i t) }
  let s3 := s2.modMon p fun x => { x with
    todo := rest, codesP := [], codesN := [], void := x.voidNext, voidNext := 0, waiting := false, notBefore := x.commitAt }
  if rest.isEmpty then s3.monFinish p else s3.fset p MON_STAT_INPUT (rest.headD 0)

theorem exec_monCommit {s : State} {p : PortIx} {t : Inst} {i : Nat} {r : List Nat} (hi : (s.fe p).mon.todo = i :: r)
    (hw : (s.fe p).mon.waiting = true) (ht : (s.fe p).mon.commitAt * 65536 ≤ s.mono t) :
    exec (.monCommit p t) s = .next (((s.toInst t).monCommitInput p i).monCommitted p i t r) := by
  show execMonCommit p t s = _
  unfold execMonCommit
  simp only [State.toInst_fe, State.toInst_mono, hi, hw, Nat.not_lt.2 ht, decide_false, Bool.not_true, Bool.or_self,
    Bool.false_eq_true, if_false]
  rfl

theorem State.monCommitted_same (s : State) (p i t : Nat) (r : List Nat) : FeRegsSame s (s.monCommitted p i t r) (monScanRegs p) := by
  unfold State.monCommitted
  extract_lets s2 s3
  have h3 : FeRegsSame s s3 (monScanRegs p) := ((FeRegsSame.refl s _).modFacts _ _).modMon _ _
  split
  · exact h3.trans (s3.monFinish_same p)
  · exact h3.fset _ _ _ (by simp [monScanRegs])

theorem State.monCommitted_mon (s : State) (p i t : Nat) (r : List Nat) :
    ((s.monCommitted p i t r).fe p).mon.todo = r ∧ ((s.monCommitted p i t r).fe p).mon.waiting = false := by
  unfold State.monCommitted
  extract_lets s2 s3
  split
  · simp [State.monFinish, State.fwrap, s3]
  · simp [s3]

/-- The result registers of the inputs and the faults are none of those of the scan. -/
theorem monRes_ne_scan (p : Nat) {g : Fld} (hr : g.reg = 0x707 ∨ 0x740 ≤ g.reg) (hlo : g.lo < 64) : ∀ e ∈ monScanRegs p,
    g.fkey p ≠ e.2.fkey e.1 := by
  intro e he
  have hreg : e.1 = p ∧ (e.2.reg < 0x740 ∧ e.2.reg ≠ 0x707) ∧ e.2.lo < 64 := by
    revert e
    simp [monScanRegs, MON_WLIVE_OUT, MON_WSTAT_OUT, MON_STAT_BUSY, MON_STAT_INPUT, MON_TS_FIS, MON_TS_SEC, MON_SCANS_CNT]
  obtain ⟨he1, he2, he3⟩ := hreg
  rw [he1]
  exact Fld.fkey_ne_of_reg (by omega) hlo he3 p

/-- A comparison, or none, leaves what does not show the windows. -/
theorem State.fget_monCompareIf (s : State) (p i v whys : Nat) (above win : Bool) {g : Fld} (h : g.fkey p ≠ MON_WLIVE_OUT.fkey p)
    (h' : g.fkey p ≠ MON_WSTAT_OUT.fkey p) : (if win then s.monCompare p i v whys above else s).fget p g = s.fget p g := by
  split
  · exact s.monCompare_same p i v whys above p g (by simpa using ⟨h, h'⟩)
  · rfl

/-- A good measurement gives the input's value, marked fresh and without fault. -/
theorem State.monCommitInput_good {s : State} {p : Nat} (h : (s.fe p).mon.void = 0) (i : Nat) :
    (s.monCommitInput p i).fget p (MON_RES_VALUE i) = monValue i (s.fe p).mon.codesP (s.fe p).mon.codesN % 65536 ∧
      (s.monCommitInput p i).fget p (MON_RES_FRESH i) = 1 ∧ (s.monCommitInput p i).fget p (MON_RES_FAULT i) = 0 := by
  unfold State.monCommitInput
  extract_lets m ic prot win sv v s1 s2
  simp only [show m.void = 0 from h, ne_eq, not_true, if_false]
  simp (disch := grind [Fld.fkey, Fld.key, MON_RES_VALUE, MON_RES_FRESH, MON_RES_FAULT, MON_RES_SEQ, MON_RES_VALID,
    MON_WLIVE_OUT, MON_WSTAT_OUT]) only [State.fget_monCompareIf, s2, s1, State.modMon_fget, State.fget_fset_ne, State.fget_fset_same]
  exact ⟨rfl, rfl, rfl⟩

/-- A void measurement of a thermometer port with an open excitation: the fault is shown and counted, and the value stays. -/
theorem State.monVoid_open (s : State) (p : Nat) {i : Nat} (hi : i ≤ 3) :
    (s.monVoid p i 1).fget p (MON_RES_VALUE i) = s.fget p (MON_RES_VALUE i) ∧ (s.monVoid p i 1).fget p (MON_RES_FAULT i) = 1 ∧
      (s.monVoid p i 1).fget p MON_FAULT_OPEN = Nat.lor (s.fget p MON_FAULT_OPEN) (2 ^ i) ∧
      (s.monVoid p i 1).fget p MON_FAULT_FLT_CNT = min (s.fget p MON_FAULT_FLT_CNT + 1) 65535 := by
  have hlor : Nat.lor (s.fget p MON_FAULT_OPEN) (2 ^ i) < 2 ^ MON_FAULT_OPEN.width :=
    Nat.or_lt_two_pow (s.fget_lt p MON_FAULT_OPEN) (Nat.pow_lt_pow_right (by decide) (show i < 4 by omega))
  unfold State.monVoid
  simp (disch := grind [Fld.fkey, Fld.key, MON_RES_VALUE, MON_RES_FAULT, MON_FAULT_OPEN, MON_FAULT_FLT_CNT]) only
    [if_true, State.fbump, State.fadd, State.fget_fset_ne, State.fget_fset_same, Nat.mod_eq_of_lt hlor]
  refine ⟨trivial, rfl, trivial, ?_⟩
  exact Nat.mod_eq_of_lt (by show min _ 65535 < 65536; omega)

theorem State.monCommitInput_void {s : State} {p : Nat} (h : (s.fe p).mon.void = 1) {i : Nat} (hi : i ≤ 3) :
    (s.monCommitInput p i).fget p (MON_RES_VALUE i) = s.fget p (MON_RES_VALUE i) ∧ (s.monCommitInput p i).fget p (MON_RES_FAULT i) = 1 ∧
      (s.monCommitInput p i).fget p MON_FAULT_OPEN = Nat.lor (s.fget p MON_FAULT_OPEN) (2 ^ i) ∧
      (s.monCommitInput p i).fget p MON_FAULT_FLT_CNT = min (s.fget p MON_FAULT_FLT_CNT + 1) 65535 := by
  unfold State.monCommitInput
  extract_lets m ic prot win sv v s1 s2
  simp only [show m.void = 1 from h, ne_eq, Nat.one_ne_zero, not_false_iff, if_true]
  simp (disch := grind [Fld.fkey, Fld.key, MON_RES_VALUE, MON_RES_FAULT, MON_FAULT_OPEN, MON_FAULT_FLT_CNT, MON_WLIVE_OUT,
    MON_WSTAT_OUT]) only [State.fget_monCompareIf]
  rw [show sv = s.monVoid p i 1 from congrArg (s.monVoid p i) h]
  exact s.monVoid_open p hi

/-! ### The clauses -/

theorem monInjectionDelay_clause {s : State} {p : PortIx} {j : Nat} {r : List Nat} (hl : s.feLive p = true)
    (he : s.fon p MON_CFG_TP_EN = true) (hi : (s.fe p).mon.injAt = j :: r)
    (ht : j / 65536 + 1000 * s.fget p MON_TPDLY_DLY < (s.tm.tick + 1) * 4000)
    (ha : (s.fe p).mon.askAt ≠ some ((j / 65536 + 1000 * s.fget p MON_TPDLY_DLY) / 4)) :
    ((s.fe p).mon.running = false → ∃ u, exec (.monInjectionDelay p) s = .next u ∧ (u.fe p).mon.running = true ∧
      (u.fe p).mon.injAt = r ∧ u.fget p MON_STAT_BUSY = 1 ∧ (u.fe p).mon.tsFis = s.feFrame p % framesPerSec ∧
      FeRegsSame s u [(p, MON_STAT_BUSY), (p, MON_STAT_INPUT)]) ∧
    ((s.fe p).mon.running = true → ∃ u, exec (.monInjectionDelay p) s = .next u ∧ (u.fe p).mon.injAt = r ∧
      u.fget p MON_STAT_OVERRUN = min (s.fget p MON_STAT_OVERRUN + 1) 255 ∧ FeRegsSame s u [(p, MON_STAT_OVERRUN)]) := by
  generalize hns : j / 65536 + 1000 * s.fget p MON_TPDLY_DLY = ns at ht ha
  have hex := exec_monInjectionDelay hl he hi hns ht
  generalize hv : (s.atNs ns).modMon p (fun m => { m with injAt := r }) = v at hex
  have hfe : v.fe p = { s.fe p with mon := { (s.fe p).mon with injAt := r } } := by
    rw [← hv, State.modMon, State.fe_modFe, State.atNs_fe]
  have htick : v.tm.tick = s.tm.tick := by rw [← hv, State.modMon, State.modFe_tm, State.atNs_tick]
  have hfreg : v.freg = s.freg := by rw [← hv, State.modMon_freg, State.atNs_freg]
  have ha' : (v.fe p).mon.askAt ≠ some (ns / 4) := by rw [hfe]; exact ha
  refine ⟨fun hr => ⟨_, hex, ?_⟩, fun hr => ⟨_, hex, ?_⟩⟩
  · obtain ⟨h1, h2, h3, h4, h5⟩ := State.monStart_idle (s := v) (p := p) (ns := ns) (by rw [hfe]; exact hr) ha'
    refine ⟨h1, ?_, h3, ?_, (FeRegsSame.of_freg hfreg _).trans h5⟩
    · rw [h2, hfe]
    · rw [h4, State.feFrame_congr (g := fun m => { m with injAt := r }) hfe htick]
  · rw [State.monStart_running (by rw [hfe]; exact hr) ha']
    refine ⟨?_, ?_, ((FeRegsSame.of_freg hfreg _).modMon _ _).fbump _ _⟩
    · rw [State.fbump_fe, State.modMon_mon, hfe]
    · rw [State.fget_fbump_sat, State.modMon_fget, State.fget_of_freg hfreg]
      rfl

theorem monConversion_clause {s : State} {p : PortIx} {code : Int} {cm i : Nat} {r : List Nat} (hr : (s.fe p).mon.running = true)
    (hw : (s.fe p).mon.waiting = false) (ho : (s.fe p).mon.offsetDone = true) (hi : (s.fe p).mon.todo = i :: r)
    (ht : (s.fe p).mon.convEnd < (s.tm.tick + 1) * 4000) :
    ((s.fe p).mon.codesP.length < monCount (tget (s.fe p).mon.icfg i 0) → ∃ u, exec (.monConversion p code cm) s = .next u ∧
      (u.fe p).mon.codesP = (s.fe p).mon.codesP ++ [code] ∧
      (i ≤ 3 → (s.fe p).mon.void = 0 → (cm < s.fget p MON_CMWIN_LO ∨ s.fget p MON_CMWIN_HI < cm) → (u.fe p).mon.void = 2) ∧
      (3 < i → (u.fe p).mon.void = (s.fe p).mon.void) ∧ u = { s with tm := u.tm, fes := u.fes }) ∧
    (3 < i → (s.fe p).mon.codesP.length + 1 = monCount (tget (s.fe p).mon.icfg i 0) → ∃ u, exec (.monConversion p code cm) s = .next u ∧
      (u.fe p).mon.waiting = true ∧ (u.fe p).mon.commitAt = (s.fe p).mon.convEnd) ∧
    (i ≤ 3 → (s.fe p).mon.codesP.length = monCount (tget (s.fe p).mon.icfg i 0) →
      (s.fe p).mon.codesN.length + 1 = monCount (tget (s.fe p).mon.icfg i 0) → ∃ u, exec (.monConversion p code cm) s = .next u ∧
      (u.fe p).mon.waiting = true ∧ (u.fe p).mon.commitAt = (s.fe p).mon.convEnd + 20000) := by
  have hex := exec_monConversion hr hw ho hi ht code cm
  refine ⟨fun hn => ⟨_, hex, ?_⟩, fun h3 hn => ⟨_, hex, ?_⟩, fun h3 hP hN => ⟨_, hex, ?_⟩⟩
  all_goals rw [State.modMon_mon, State.atNs_fe]
  · obtain ⟨hc, hv⟩ := MonSt.take_phaseP hn code (if i ≤ 3 then s.monFaultOf p code cm else 0) (s.fe p).mon.convEnd
    refine ⟨hc, fun h3 h0 hwin => ?_, fun h3 => ?_, ?_⟩
    · rw [hv, h0, if_pos h3, State.monFaultOf, if_pos hwin]
      rfl
    · rw [hv, if_neg (Nat.not_le.2 h3), lowestFault_zero]
    · generalize (s.fe p).mon.convEnd = ns
      rcases State.atNs_tmOnly s ns with ⟨t, hz⟩
      rw [hz]
      rfl
  · exact MonSt.take_last_single h3 hn _ _ _
  · exact MonSt.take_last_double h3 hP hN _ _ _

theorem complianceTrip_clause {s : State} {p : PortIx} {k : Fin 4} {r : List Nat} (hr : (s.fe p).mon.running = true)
    (ho : (s.fe p).mon.offsetDone = true) (ht : (s.fe p).mon.todo = k.val :: r) (hn : (s.fe p).mon.tripped = []) :
    ∃ u, exec (.complianceTrip p k) s = .next u ∧ (u.fe p).mon.void = 1 ∧ (u.fe p).mon.excitation k = none ∧
      u = { s with fes := u.fes } := by
  have hex : exec (.complianceTrip p k) s = .next (s.modMon p fun x => { x with tripped := k.val :: x.tripped, void := 1 }) := by
    show execComplianceTrip p k s = _
    unfold execComplianceTrip
    simp only [MonSt.excitation_of_head hr ho ht hn, Option.isSome_some, if_true, State.modMon, State.modFe, ht, List.head?_cons]
  refine ⟨_, hex, ?_, ?_, rfl⟩ <;> rw [State.modMon_mon]
  exact MonSt.excitation_of_tripped (by simp)

theorem monCommit_clause {s : State} {p : PortIx} {t : Inst} {i : Fin 25} {r : List Nat} (hi : (s.fe p).mon.todo = i.val :: r)
    (hw : (s.fe p).mon.waiting = true) (ht : (s.fe p).mon.commitAt * 65536 ≤ s.mono t) :
    ((s.fe p).mon.void = 0 → ∃ u, exec (.monCommit p t) s = .next u ∧
      u.fget p (MON_RES_VALUE i) = monValue i (s.fe p).mon.codesP (s.fe p).mon.codesN % 65536 ∧ u.fget p (MON_RES_FRESH i) = 1 ∧
      u.fget p (MON_RES_FAULT i) = 0 ∧ (u.fe p).mon.todo = r ∧ (u.fe p).mon.waiting = false) ∧
    ((s.fe p).mon.void = 1 → i.val ≤ 3 → ∃ u, exec (.monCommit p t) s = .next u ∧
      u.fget p (MON_RES_VALUE i) = s.fget p (MON_RES_VALUE i) ∧ u.fget p (MON_RES_FAULT i) = 1 ∧
      u.fget p MON_FAULT_OPEN = Nat.lor (s.fget p MON_FAULT_OPEN) (2 ^ i.val) ∧
      u.fget p MON_FAULT_FLT_CNT = min (s.fget p MON_FAULT_FLT_CNT + 1) 65535) := by
  have hex := exec_monCommit hi hw ht
  have hsame := ((s.toInst t).monCommitInput p i).monCommitted_same p i t r
  have hval := hsame p _ (monRes_ne_scan p (g := MON_RES_VALUE i) (.inr (by simp [MON_RES_VALUE])) (by simp [MON_RES_VALUE]))
  have hfresh := hsame p _ (monRes_ne_scan p (g := MON_RES_FRESH i) (.inr (by simp [MON_RES_FRESH])) (by simp [MON_RES_FRESH]))
  have hfault := hsame p _ (monRes_ne_scan p (g := MON_RES_FAULT i) (.inr (by simp [MON_RES_FAULT])) (by simp [MON_RES_FAULT]))
  refine ⟨fun h0 => ⟨_, hex, ?_⟩, fun h1 h3 => ⟨_, hex, ?_⟩⟩
  · obtain ⟨e1, e2, e3⟩ := State.monCommitInput_good (s := s.toInst t) (p := p) (by rw [State.toInst_fe]; exact h0) i
    rw [State.toInst_fe] at e1
    rw [hval, hfresh, hfault]
    exact ⟨e1, e2, e3, State.monCommitted_mon _ _ _ _ _⟩
  · obtain ⟨e1, e2, e3, e4⟩ := State.monCommitInput_void (s := s.toInst t) (p := p) (by rw [State.toInst_fe]; exact h1) h3
    have hopen := hsame p MON_FAULT_OPEN (monRes_ne_scan p (.inl rfl) (by decide))
    have hcnt := hsame p MON_FAULT_FLT_CNT (monRes_ne_scan p (.inl rfl) (by decide))
    rw [State.toInst_fget] at e1 e3 e4
    rw [hval, hfault, hopen, hcnt]
    exact ⟨e1, e2, e3, e4⟩

theorem monStale_clause {s : State} {p : PortIx} {k : Fin 4} (hc : bitAt (tget (s.fe p).mon.rtdCfg k 0) 2 = true)
    (hl : tget (s.fe p).mon.lastCommit k 0 + 500000 ≤ s.tm.tick) (hb : bitAt (s.fget p MON_WLIVE_OUT) k = false) :
    ∃ u, exec (.monStale p k) s = .next u ∧ u.fget p (MON_RES_FAULT k) = 4 ∧
      u.fget p MON_FAULT_STALE = Nat.lor (s.fget p MON_FAULT_STALE) (2 ^ k.val) ∧
      u.fget p MON_WLIVE_OUT = (s.fget p MON_WLIVE_OUT + 2 ^ k.val) % 2 ^ 25 ∧ (u.fe p).factsNow.notice = true := by
  generalize hv : (s.fset p (MON_RES_FAULT k) 4).fset p MON_FAULT_STALE (Nat.lor (s.fget p MON_FAULT_STALE) (2 ^ k.val)) = v
  have hlor : Nat.lor (s.fget p MON_FAULT_STALE) (2 ^ k.val) < 2 ^ MON_FAULT_STALE.width :=
    Nat.or_lt_two_pow (s.fget_lt p MON_FAULT_STALE) (Nat.pow_lt_pow_right (by decide) k.isLt)
  have hlive : v.fget p MON_WLIVE_OUT = s.fget p MON_WLIVE_OUT := by
    rw [← hv]
    simp (disch := grind [Fld.fkey, Fld.key, MON_WLIVE_OUT, MON_RES_FAULT, MON_FAULT_STALE]) only [State.fget_fset_ne]
  have hex : exec (.monStale p k) s = .next (((v.fset p MON_WLIVE_OUT (v.fget p MON_WLIVE_OUT + 2 ^ k.val)).fset p MON_WSTAT_OUT
      (Nat.lor (v.fget p MON_WSTAT_OUT) (2 ^ k.val))).modFacts p fun f => { f with notice := true }) := by
    show execMonStale p k s = _
    unfold execMonStale
    simp only [hc, hl, decide_true, Bool.and_self, if_true, hv]
    rw [State.monCompare_out (by rw [hlive]; exact hb)]
  refine ⟨_, hex, ?_⟩
  rw [hlive, State.modFacts_fget, State.modFacts_fget, State.modFacts_fget, ← hv]
  simp (disch := grind [Fld.fkey, Fld.key, MON_WLIVE_OUT, MON_WSTAT_OUT, MON_RES_FAULT, MON_FAULT_STALE]) only
    [State.fget_fset_ne, State.fget_fset_same, Nat.mod_eq_of_lt hlor]
  exact ⟨rfl, trivial, rfl, by simp [State.modFacts]⟩

/-- Settles O13. -/
theorem monitorScansAndFaults : Obligations.MonitorScansAndFaults := by
  refine ⟨fun s p hl he hp => ?_, fun s p j r hl he hi ht ha => monInjectionDelay_clause hl he hi ht ha,
    fun s p code cm i r hr hw ho hi ht => monConversion_clause hr hw ho hi ht,
    fun s p k r hr ho ht hn => ⟨fun hP => ?_, complianceTrip_clause hr ho ht hn⟩,
    fun s p t i r hi hw ht => monCommit_clause hi hw ht, fun s p k hc hl hb => monStale_clause hc hl hb⟩
  · have hex : exec (.monScanTimer p) s = .next (s.modMon p fun m => { m with
        timerAt := s.tm.tick - s.since (s.fe p).mon.timerAt % s.monPeriod p, startPending := m.startPending || true }) := by
      show execMonScanTimer p s = _
      unfold execMonScanTimer
      simp only [hl, he, Nat.not_lt.2 hp, decide_false, Bool.not_true, Bool.or_self, Bool.false_eq_true, if_false]
    refine ⟨_, hex, ?_, rfl⟩
    rw [State.modMon_mon]
    exact Bool.or_true _
  · rw [MonSt.excitation_of_head hr ho ht hn, hP, List.length_nil, decide_eq_false (Nat.not_le.2 (monCount_pos _))]

end Sys2Proof.Machine

/-! ## Sharing the budget of a slot -/

namespace Sys2Proof.Machine

set_option Elab.async false

/-! ### The rotation that hands out places -/

section Alloc

variable {a0 a1 a2 a3 c0 c1 c2 c3 : Nat}

/-- The rotation stops where every region has what it may have. -/
theorem allocLoop_full (n left r : Nat) (h : ∀ k < 4, [c0, c1, c2, c3].getD k 0 ≤ [a0, a1, a2, a3].getD k 0) :
    allocLoop n [a0, a1, a2, a3] [c0, c1, c2, c3] left r = ([a0, a1, a2, a3], left, r) := by
  cases n with
  | zero => rfl
  | succ n =>
    have hno : ((List.range 4).any fun k => decide ([a0, a1, a2, a3].getD k 0 < [c0, c1, c2, c3].getD k 0)) = false := by
      rw [List.any_eq_false]
      intro k hk
      have := h k (List.mem_range.1 hk)
      simpa using this
    rw [allocLoop, hno]
    simp

/-- The rotation never takes a place back, never goes beyond a region's cap, and hands out the places it uses up. -/
theorem allocLoop_bounds (n left r : Nat) (hr : r < 4) (h0 : a0 ≤ c0) (h1 : a1 ≤ c1) (h2 : a2 ≤ c2) (h3 : a3 ≤ c3) :
    ∃ b0 b1 b2 b3, (allocLoop n [a0, a1, a2, a3] [c0, c1, c2, c3] left r).1 = [b0, b1, b2, b3] ∧ (a0 ≤ b0 ∧ b0 ≤ c0) ∧
      (a1 ≤ b1 ∧ b1 ≤ c1) ∧ (a2 ≤ b2 ∧ b2 ≤ c2) ∧ (a3 ≤ b3 ∧ b3 ≤ c3) ∧ b0 + b1 + b2 + b3 ≤ a0 + a1 + a2 + a3 + left := by
  induction n generalizing a0 a1 a2 a3 left r with
  | zero => exact ⟨a0, a1, a2, a3, rfl, by omega⟩
  | succ n ih =>
    rw [allocLoop]
    split
    · exact ⟨a0, a1, a2, a3, rfl, by omega⟩
    · next hgo =>
      have hleft : left ≠ 0 := fun h => hgo (.inl h)
      have hnext : (r + 1) % 4 < 4 := Nat.mod_lt _ (by decide)
      split
      · next hlt =>
        obtain rfl | rfl | rfl | rfl : r = 0 ∨ r = 1 ∨ r = 2 ∨ r = 3 := by omega
        · obtain ⟨b0, b1, b2, b3, hb, h⟩ := ih (a0 := a0 + 1) (left - 1) _ hnext hlt h1 h2 h3
          exact ⟨b0, b1, b2, b3, hb, by omega⟩
        · obtain ⟨b0, b1, b2, b3, hb, h⟩ := ih (a1 := a1 + 1) (left - 1) _ hnext h0 hlt h2 h3
          exact ⟨b0, b1, b2, b3, hb, by omega⟩
        · obtain ⟨b0, b1, b2, b3, hb, h⟩ := ih (a2 := a2 + 1) (left - 1) _ hnext h0 h1 hlt h3
          exact ⟨b0, b1, b2, b3, hb, by omega⟩
        · obtain ⟨b0, b1, b2, b3, hb, h⟩ := ih (a3 := a3 + 1) (left - 1) _ hnext h0 h1 h2 hlt
          exact ⟨b0, b1, b2, b3, hb, by omega⟩
      · exact ih left _ hnext h0 h1 h2 h3

/-- Where the caps leave room, some region is below its own. -/
theorem exists_below (h : a0 + a1 + a2 + a3 < c0 + c1 + c2 + c3) :
    ∃ k < 4, [a0, a1, a2, a3].getD k 0 < [c0, c1, c2, c3].getD k 0 := by
  by_contra hno
  push Not at hno
  have e0 : c0 ≤ a0 := hno 0 (by decide)
  have e1 : c1 ≤ a1 := hno 1 (by decide)
  have e2 : c2 ≤ a2 := hno 2 (by decide)
  have e3 : c3 ≤ a3 := hno 3 (by decide)
  omega

/-- A region that may have more is at most three places ahead in the rotation. -/
theorem exists_waiting {a c : List Nat} {r k : Nat} (hr : r < 4) (hk : k < 4) (h : a.getD k 0 < c.getD k 0) :
    ∃ j ≤ 3, a.getD ((r + j) % 4) 0 < c.getD ((r + j) % 4) 0 := by
  refine ⟨(k + 4 - r) % 4, by omega, ?_⟩
  rw [show (r + (k + 4 - r) % 4) % 4 = k by omega]
  exact h

/-- With enough places, and four turns of the rotation for each of them, every region gets what it may have. -/
theorem allocLoop_fills (n j left r : Nat) (hr : r < 4) (h0 : a0 ≤ c0) (h1 : a1 ≤ c1) (h2 : a2 ≤ c2) (h3 : a3 ≤ c3) (hj : j ≤ 3)
    (hw : [a0, a1, a2, a3].getD ((r + j) % 4) 0 < [c0, c1, c2, c3].getD ((r + j) % 4) 0)
    (hn : 4 * (c0 + c1 + c2 + c3) + j ≤ n + 3 + 4 * (a0 + a1 + a2 + a3)) (hl : c0 + c1 + c2 + c3 ≤ a0 + a1 + a2 + a3 + left) :
    ∃ left' r', allocLoop n [a0, a1, a2, a3] [c0, c1, c2, c3] left r = ([c0, c1, c2, c3], left', r') ∧ r' < 4 ∧
      left' + (c0 + c1 + c2 + c3) = a0 + a1 + a2 + a3 + left := by
  have hlt : a0 + a1 + a2 + a3 < c0 + c1 + c2 + c3 := by
    have hm : (r + j) % 4 < 4 := Nat.mod_lt _ (by decide)
    generalize (r + j) % 4 = m at hw hm
    obtain rfl | rfl | rfl | rfl : m = 0 ∨ m = 1 ∨ m = 2 ∨ m = 3 := by omega
    all_goals simp at hw; omega
  induction n generalizing a0 a1 a2 a3 j left r with
  | zero => omega
  | succ n ih =>
    have hany : ((List.range 4).any fun k => decide ([a0, a1, a2, a3].getD k 0 < [c0, c1, c2, c3].getD k 0)) = true := by
      rw [List.any_eq_true]
      exact ⟨(r + j) % 4, List.mem_range.2 (Nat.mod_lt _ (by decide)), by simpa using hw⟩
    have hgo : ¬(left = 0 ∨ (!((List.range 4).any fun k => decide ([a0, a1, a2, a3].getD k 0 < [c0, c1, c2, c3].getD k 0))) = true) := by
      rw [hany]
      simp
      omega
    have hnext : (r + 1) % 4 < 4 := Nat.mod_lt _ (by decide)
    -- after a place has been handed out: either all is done, or a region is waiting
    have hserved : ∀ b0 b1 b2 b3, b0 ≤ c0 → b1 ≤ c1 → b2 ≤ c2 → b3 ≤ c3 → b0 + b1 + b2 + b3 = a0 + a1 + a2 + a3 + 1 →
        ∃ left' r', allocLoop n [b0, b1, b2, b3] [c0, c1, c2, c3] (left - 1) ((r + 1) % 4) = ([c0, c1, c2, c3], left', r') ∧ r' < 4 ∧
          left' + (c0 + c1 + c2 + c3) = a0 + a1 + a2 + a3 + left := by
      intro b0 b1 b2 b3 hb0 hb1 hb2 hb3 hsum
      by_cases hdone : c0 + c1 + c2 + c3 = b0 + b1 + b2 + b3
      · obtain ⟨rfl, rfl, rfl, rfl⟩ : b0 = c0 ∧ b1 = c1 ∧ b2 = c2 ∧ b3 = c3 := by omega
        exact ⟨_, _, allocLoop_full _ _ _ (fun _ _ => Nat.le_refl _), hnext, by omega⟩
      · obtain ⟨k, hk, hkw⟩ := exists_below (a0 := b0) (a1 := b1) (a2 := b2) (a3 := b3) (c0 := c0) (c1 := c1) (c2 := c2) (c3 := c3)
          (by omega)
        obtain ⟨j', hj', hw'⟩ := exists_waiting hnext hk hkw
        obtain ⟨left', r', he, hr', hsum'⟩ := ih j' (left - 1) _ hnext hb0 hb1 hb2 hb3 hj' hw' (by omega) (by omega) (by omega)
        exact ⟨left', r', he, hr', by omega⟩
    rw [allocLoop, if_neg hgo]
    split
    · next hsrv =>
      obtain rfl | rfl | rfl | rfl : r = 0 ∨ r = 1 ∨ r = 2 ∨ r = 3 := by omega
      · exact hserved (a0 + 1) a1 a2 a3 hsrv h1 h2 h3 (by omega)
      · exact hserved a0 (a1 + 1) a2 a3 h0 hsrv h2 h3 (by omega)
      · exact hserved a0 a1 (a2 + 1) a3 h0 h1 hsrv h3 (by omega)
      · exact hserved a0 a1 a2 (a3 + 1) h0 h1 h2 hsrv (by omega)
    · next hsrv =>
      have hj0 : j ≠ 0 := by
        rintro rfl
        rw [Nat.add_zero, Nat.mod_eq_of_lt hr] at hw
        exact hsrv hw
      refine ih (j - 1) left _ hnext h0 h1 h2 h3 (by omega) ?_ (by omega) hl hlt
      rw [show ((r + 1) % 4 + (j - 1)) % 4 = (r + j) % 4 by omega]
      exact hw

/-- The allocation of a slot: every region gets at least the lesser of its demand and its fair share, none more than its demand, and
together at most the places there are. -/
theorem allocate_shares {g before nxt d0 d1 d2 d3 s0 s1 s2 s3 : Nat} (hg : g ≤ 4) (hnxt : nxt < 4)
    (h0 : s0 ≤ min d0 ((462 - g) / 4)) (h1 : s1 ≤ min d1 ((462 - g) / 4)) (h2 : s2 ≤ min d2 ((462 - g) / 4))
    (h3 : s3 ≤ min d3 ((462 - g) / 4)) (hs : s0 + s1 + s2 + s3 = before) :
    ∃ b0 b1 b2 b3, allocate g before nxt [d0, d1, d2, d3] [s0, s1, s2, s3] = [b0, b1, b2, b3] ∧
      (min d0 ((462 - g) / 4) ≤ b0 ∧ b0 ≤ d0) ∧ (min d1 ((462 - g) / 4) ≤ b1 ∧ b1 ≤ d1) ∧ (min d2 ((462 - g) / 4) ≤ b2 ∧ b2 ≤ d2) ∧
      (min d3 ((462 - g) / 4) ≤ b3 ∧ b3 ≤ d3) ∧ b0 + b1 + b2 + b3 ≤ 462 - g := by
  have hf : 4 * ((462 - g) / 4) ≤ 462 - g := Nat.mul_div_le _ _
  unfold allocate
  simp only [List.map_cons, List.map_nil]
  generalize (462 - g) / 4 = f at *
  obtain ⟨left, r, he, hr, hsum⟩ : ∃ left' r', allocLoop 2000 [s0, s1, s2, s3] [min d0 f, min d1 f, min d2 f, min d3 f]
      (462 - g - before) nxt = ([min d0 f, min d1 f, min d2 f, min d3 f], left', r') ∧ r' < 4 ∧
      left' + (min d0 f + min d1 f + min d2 f + min d3 f) = s0 + s1 + s2 + s3 + (462 - g - before) := by
    by_cases hall : s0 + s1 + s2 + s3 = min d0 f + min d1 f + min d2 f + min d3 f
    · obtain ⟨e0, e1, e2, e3⟩ : s0 = min d0 f ∧ s1 = min d1 f ∧ s2 = min d2 f ∧ s3 = min d3 f := by omega
      rw [← e0, ← e1, ← e2, ← e3]
      exact ⟨_, _, allocLoop_full _ _ _ (fun _ _ => Nat.le_refl _), hnxt, by omega⟩
    · obtain ⟨k, hk, hkw⟩ := exists_below (a0 := s0) (a1 := s1) (a2 := s2) (a3 := s3) (c0 := min d0 f) (c1 := min d1 f)
        (c2 := min d2 f) (c3 := min d3 f) (by omega)
      obtain ⟨j, hj, hw⟩ := exists_waiting hnxt hk hkw
      exact allocLoop_fills 2000 j _ nxt hnxt h0 h1 h2 h3 hj hw (by omega) (by omega)
  obtain ⟨b0, b1, b2, b3, hb', hbounds⟩ := allocLoop_bounds (a0 := min d0 f) (a1 := min d1 f) (a2 := min d2 f) (a3 := min d3 f)
    (c0 := d0) (c1 := d1) (c2 := d2) (c3 := d3) 2000 left r hr (Nat.min_le_left _ _) (Nat.min_le_left _ _) (Nat.min_le_left _ _)
    (Nat.min_le_left _ _)
  rw [he]
  exact ⟨b0, b1, b2, b3, hb', by omega⟩

end Alloc

/-! ### CUTOFF -/

@[simp] theorem State.modMerger_merger (s : State) (p : Nat) (g : Merger → Merger) :
    ((s.modMerger p g).fe p).merger = g (s.fe p).merger := by
  simp [State.modMerger]

theorem State.mergerReady_of_begun {s : State} {p : Nat} (hb : (s.fe p).merger.begun = true)
    (ht : (s.fe p).merger.tick = s.tm.tick - 1) : s.mergerReady p = s := by
  unfold State.mergerReady
  simp only [hb, ht, decide_true, Bool.and_self, if_true]

@[simp] theorem State.setHalf_merger (s : State) (p tk r : Nat) (x : Half) : ((s.setHalf p tk r x).fe p).merger = (s.fe p).merger := by
  simp [State.setHalf, State.showOcc]

@[simp] theorem State.dropRest_merger (s : State) (p r : Nat) : ((s.dropRest p r).fe p).merger = (s.fe p).merger := by
  unfold State.dropRest
  extract_lets tk x
  split
  · rfl
  · rw [State.fadd_fe, State.setHalf_merger]

theorem State.foldl_dropRest_merger (p : Nat) (f : Nat → State → Bool) (l : List Nat) (s : State) :
    ((l.foldl (fun z r => if f r z then z.dropRest p r else z) s).fe p).merger = (s.fe p).merger := by
  induction l generalizing s with
  | nil => rfl
  | cons r rest ih =>
    rw [List.foldl_cons, ih]
    split
    · rw [State.dropRest_merger]
    · rfl

/-- The allocation that the cutoff fixes. -/
theorem exec_cutoff {s : State} {p : PortIx} (hb : (s.fe p).merger.begun = true) (ht : (s.fe p).merger.tick = s.tm.tick - 1)
    (ha : (s.fe p).merger.alloc = none) :
    ∃ u, exec (.cutoff p) s = .next u ∧ (u.fe p).merger.alloc = some (allocate (s.fe p).merger.gates.length
      (s.fe p).merger.chosenBefore (s.fe p).merger.next ((List.range 4).map fun r => s.demand p r)
      ((List.range 4).map fun r => (s.fe p).merger.sentOf r)) := by
  show ∃ u, execCutoff p s = .next u ∧ _
  unfold execCutoff
  rw [State.mergerReady_of_begun hb ht]
  simp only [ha, Option.isSome_none, Bool.false_eq_true, if_false]
  refine ⟨_, rfl, ?_⟩
  generalize allocate _ _ _ _ _ = a
  have h := State.foldl_dropRest_merger p (fun r _ => decide (a.getD r 0 ≤ (s.fe p).merger.sentOf r)) (List.range 4)
  simp only [decide_eq_true_eq] at h
  rw [h]
  simp

/-! ### MERGER_CHOICE -/

/-- The state in which a position is chosen for: it is counted, and nothing else has changed. -/
def State.chosenAt (s : State) (p k : Nat) : State :=
  s.modMerger p fun x => { x with lastK := k, chosenBefore := if
      (s.fe p).merger.alloc.isNone then x.chosenBefore + 1 else x.chosenBefore }

theorem State.chosenAt_half (s : State) (p k tk r : Nat) : (s.chosenAt p k).half p tk r = s.half p tk r := by
  simp [State.half, State.chosenAt, State.modMerger]

/-- Counting the position does not change what can be served. -/
theorem State.chosenAt_servable (s : State) (p k j r : Nat) : (s.chosenAt p k).servable p j r = s.servable p j r := by
  unfold State.servable
  simp only [State.chosenAt_half]
  simp only [State.chosenAt, State.modMerger_merger]
  rfl

theorem exec_mergerChoice {s : State} {p : PortIx} {k : Fin 464} (hb : (s.fe p).merger.begun = true)
    (ht : (s.fe p).merger.tick = s.tm.tick - 1) (hlo : (s.fe p).merger.gates.length < k.val) (hhi : k.val < 463)
    (ha : (s.fe p).merger.alloc = none) :
    exec (.mergerChoice p k .ok false) s = .next (
      match ((List.range 4).map fun j => ((s.fe p).merger.next + j) % 4).find? fun r => s.servable p k r with
      | some r => (s.chosenAt p k).serve p k r .ok false
      | none => (s.chosenAt p k).modMerger p fun x => { x with fillsBefore := x.fillsBefore + 1 }) := by
  have hno : ¬(k.val ≤ (s.fe p).merger.gates.length ∨ 463 ≤ k.val) := by omega
  show execMergerChoice p k .ok false s = _
  unfold execMergerChoice
  simp only [State.mergerReady_of_begun hb ht, ite_self, hno, if_false, ha, Option.isNone_none, if_true]
  have hz : (s.modMerger p fun x => { x with lastK := k.val, chosenBefore := x.chosenBefore + 1 }) = s.chosenAt p k := by
    unfold State.chosenAt
    simp only [ha, Option.isNone_none, if_true]
  rw [hz]
  simp only [State.chosenAt_servable] <;> rfl

/-- The only entry of a region is the one that is taken. -/
theorem pickEntry_singleton {e : Entry} (h : e.blk < 8) (start : Nat) : pickEntry [e] start = some (e.blk, e, []) := by
  have hf : ((List.range 8).map fun j => (start + j) % 8).find? (fun b => [e].any fun e => decide (e.blk = b)) = some e.blk := by
    have hmem : e.blk ∈ (List.range 8).map fun j => (start + j) % 8 :=
      List.mem_map.2 ⟨(e.blk + 8 - start % 8) % 8, List.mem_range.2 (by omega), by omega⟩
    have hp : (fun b => [e].any fun e => decide (e.blk = b)) = fun b => decide (e.blk = b) := by
      funext b
      simp
    rw [hp]
    cases hc : ((List.range 8).map fun j => (start + j) % 8).find? (fun b => decide (e.blk = b)) with
    | none =>
      have hne := List.find?_eq_none.1 hc _ hmem
      simp at hne
    | some b =>
      have heq := List.find?_some hc
      rw [decide_eq_true_eq] at heq
      rw [heq]
  unfold pickEntry
  rw [hf]
  simp

theorem State.half_setHalf (s : State) (p tk r : Nat) (x : Half) : (s.setHalf p tk r x).half p tk r = x := by
  simp [State.setHalf, State.showOcc, State.half]

theorem State.modMerger_half (s : State) (p : Nat) (g : Merger → Merger) (tk r : Nat) :
    (s.modMerger p g).half p tk r = s.half p tk r := by
  simp [State.modMerger, State.half]

/-- Serving the only entry of a region before the cutoff. -/
theorem State.serve_singleton {s : State} {p k r : Nat} {e : Entry} (ha : (s.fe p).merger.alloc = none)
    (he : (s.half p (s.fe p).merger.tick r).entries = [e]) (hb : e.blk < 8) (hel : e.eligible (s.fe p).merger k = true) :
    s.serve p k r .ok false = (((s.setHalf p (s.fe p).merger.tick r { s.half p (s.fe p).merger.tick r with entries := [] }).modMerger p
      fun y => { y with next := (r + 1) % 4, blkNext := tins y.blkNext r ((e.blk + 1) % 8) }).modMerger p fun y => { y with
        sent := tset y.sent r 0 ((s.fe p).merger.sentOf r + 1), chosen := tset y.chosen k 2 e.rec_ }).fwrap p (RGN_SENT_CNT r) 1 := by
  unfold State.serve
  extract_lets m x
  have hx : x.entries = [e] := he
  have hfil : (x.entries.filter fun y => y.eligible m k) = [e] := by
    rw [hx, List.filter_singleton]
    simp [m, hel]
  have hne : EccStatus.ok ≠ .double := by decide
  have hns : EccStatus.ok ≠ .single := by decide
  rw [hfil, pickEntry_singleton hb, hx]
  simp only [List.erase_cons_head, hne, hns, decide_false, Bool.or_self, Bool.false_eq_true, if_false, show m.alloc = none from ha]
  rfl

theorem mergerChoice_serves {s : State} {p : PortIx} {k : Fin 464} {r : Nat} {e : Entry} (hb : (s.fe p).merger.begun = true)
    (ht : (s.fe p).merger.tick = s.tm.tick - 1) (hlo : (s.fe p).merger.gates.length < k.val) (hhi : k.val < 463)
    (hn : (s.fe p).merger.next = r) (hr : r < 4) (hs : s.servable p k r = true) (ha : (s.fe p).merger.alloc = none)
    (he : (s.half p (s.fe p).merger.tick r).entries = [e]) (hblk : e.blk < 8) :
    ∃ u, exec (.mergerChoice p k .ok false) s = .next u ∧ tget (u.fe p).merger.chosen k 2 = e.rec_ ∧
      (u.fe p).merger.sentOf r = (s.fe p).merger.sentOf r + 1 ∧ (u.half p (s.fe p).merger.tick r).entries = [] ∧
      (u.fe p).merger.next = (r + 1) % 4 ∧ u.fget p (RGN_SENT_CNT r) = (s.fget p (RGN_SENT_CNT r) + 1) % 2 ^ 64 := by
  have hfind : (((List.range 4).map fun j => ((s.fe p).merger.next + j) % 4).find? fun r => s.servable p k r) = some r := by
    have hl : ((List.range 4).map fun j => (r + j) % 4) = r :: [(r + 1) % 4, (r + 2) % 4, (r + 3) % 4] := by
      simp [List.range_succ, Nat.mod_eq_of_lt hr]
    rw [hn, hl, List.find?_cons_of_pos hs]
  have hel : e.eligible (s.fe p).merger k = true := by
    simp only [State.servable, he, List.any_cons, List.any_nil, Bool.or_false, Bool.and_eq_true] at hs
    exact hs.1
  have hmer : ((s.chosenAt p k).fe p).merger = { (s.fe p).merger with
      lastK := k, chosenBefore := (s.fe p).merger.chosenBefore + 1 } := by
    simp only [State.chosenAt, State.modMerger_merger, ha, Option.isNone_none, if_true]
  have hex := exec_mergerChoice hb ht hlo hhi ha
  rw [hfind] at hex
  dsimp only at hex
  rw [State.serve_singleton (s := s.chosenAt p k) (by rw [hmer]; exact ha) (by rw [hmer, State.chosenAt_half]; exact he) hblk
    (by rw [hmer]; exact hel), hmer, State.chosenAt_half] at hex
  refine ⟨_, hex, ?_⟩
  rw [State.fwrap, State.fset_fe, State.modMerger_merger, State.modMerger_merger, State.setHalf_merger, hmer]
  refine ⟨by simp, ?_, ?_, rfl, ?_⟩
  · simp only [Merger.sentOf, tget_tset_same]
  · rw [State.half, State.fset_fe, ← State.half, State.modMerger_half, State.modMerger_half, State.half_setHalf]
  · rw [State.fget_fset_same]
    simp (disch := grind [Fld.fkey, Fld.key, RGN_SENT_CNT, RGN_STAT_OCC0, RGN_STAT_OCC1]) only [State.modMerger, State.modFe_fget,
      State.setHalf, State.showOcc, State.fget_fset_ne, State.chosenAt]
    rfl

/-- Settles O15: `allocate_shares` for the cutoff, and before it the next region's record is taken, or none is. -/
theorem allocationGivesEveryRegionItsShare : Obligations.AllocationGivesEveryRegionItsShare := by
  refine ⟨fun s p hb ht ha hg hn hc hs hsum => ?_, fun s p k r e hb ht hlo hhi hn hr hs ha he hblk =>
    mergerChoice_serves hb ht hlo hhi hn hr hs ha he hblk, fun s p k hb ht hlo hhi hno hn ha => ?_⟩
  · obtain ⟨u, hex, hall⟩ := exec_cutoff hb ht ha
    obtain ⟨b0, b1, b2, b3, hab, h0, h1, h2, h3, hle⟩ := allocate_shares (d0 := s.demand p 0) (d1 := s.demand p 1)
      (d2 := s.demand p 2) (d3 := s.demand p 3) hg hn (hs 0 (by decide)) (hs 1 (by decide)) (hs 2 (by decide)) (hs 3 (by decide)) hsum
    refine ⟨u, _, hex, hall, ?_⟩
    simp only [List.range_succ, List.range_zero, List.nil_append, List.cons_append, List.map_cons, List.map_nil]
    rw [hab]
    refine ⟨fun r hr => ?_, hle⟩
    obtain rfl | rfl | rfl | rfl : r = 0 ∨ r = 1 ∨ r = 2 ∨ r = 3 := by omega
    exacts [h0, h1, h2, h3]
  · have hfind : (((List.range 4).map fun j => ((s.fe p).merger.next + j) % 4).find? fun r => s.servable p k r) = none := by
      rw [List.find?_eq_none]
      intro r hr
      obtain ⟨j, -, rfl⟩ := List.mem_map.1 hr
      simpa using hno _ (Nat.mod_lt _ (by decide))
    have hex := exec_mergerChoice hb ht hlo hhi ha
    rw [hfind] at hex
    refine ⟨_, hex, ?_⟩
    rw [State.modMerger_merger, State.chosenAt, State.modMerger_merger, ha]
    exact ⟨rfl, rfl, rfl, rfl⟩

end Sys2Proof.Machine

/-! ## Fast commands -/

namespace Sys2Proof.Machine

set_option Elab.async false

/-! ### Where a fast command takes effect -/

/-- From an obeyed port in RUN a fast command takes effect at its own instant of the frame. -/
theorem State.fastCommand_obeyed {s : State} {p q k : Nat} (hk : k ≠ 0) (hl : s.feLive p = true) (hr : s.lnk p q = 6)
    (ho : s.obeyed p q = true) : ∃ x : TimeSt, x.tick = s.tm.tick ∧ ∀ g, s.fastCommand p q k g = g { s with tm := x } := by
  refine ⟨(s.toInst ((16 * k + 12) * 65536)).tm, State.toInst_tick _ _, fun g => ?_⟩
  unfold State.fastCommand
  simp only [hk, hl, hr, ho, Bool.not_true, Bool.false_eq_true, or_self, if_false, decide_true, Bool.and_self, if_true]
  obtain ⟨x, hx⟩ := s.toInst_tmOnly ((16 * k + 12) * 65536)
  rw [hx]

/-- From a port that is not obeyed it is counted. -/
theorem State.fastCommand_refused {s : State} {p q k : Nat} (hk : k ≠ 0) (hl : s.feLive p = true) (ho : s.obeyed p q = false)
    (g : State → State) : s.fastCommand p q k g = s.fbump p OWN_STAT_NONOWNER_FC := by
  unfold State.fastCommand
  simp only [hk, hl, ho, Bool.not_true, Bool.false_eq_true, or_self, if_false, Bool.and_false]

/-- In slot 0 there is no fast command. -/
theorem State.fastCommand_zero (s : State) (p q : Nat) (g : State → State) : s.fastCommand p q 0 g = s := by
  unfold State.fastCommand
  simp

/-! ### What the commands do -/

theorem mem_gateInsert_self (g : GateCmd) (l : List GateCmd) : g ∈ gateInsert g l := by
  induction l with
  | nil => exact List.mem_singleton.2 rfl
  | cons x r ih =>
    unfold gateInsert
    split
    · exact List.mem_cons_self
    · exact List.mem_cons_of_mem _ ih

theorem State.mem_gatePend (s : State) (p ns kind : Nat) (open_ : Bool) (slot cross : Nat) :
    (⟨s.tm.tick + ns / 4000, ns % 4000, kind, open_, slot, cross⟩ : GateCmd) ∈
      ((s.gatePend p ns kind open_ slot cross).fe p).gateCmds := by
  simp only [State.gatePend, State.fe_modFe]
  exact mem_gateInsert_self _ _

/-- A pulse that is enabled, the first of its frame and within the frame is injected in the next one. -/
theorem State.opPulse_accepted {s : State} {p : Nat} (he : (s.fe p).tpEn = true) (ha : (s.fe p).pulseAsk = false)
    (hc : (s.fe p).tpCoarse < 4000) :
    s.opPulse p = (s.modFe p fun y => { y with pulseAsk := true }).modFe p fun y => { y with
      injects := y.injects ++ [⟨s.tm.tick + 1, (s.fe p).tpCoarse * 65536 + (s.fe p).tpFine * 128, (s.fe p).tpAmp⟩] } := by
  unfold State.opPulse
  simp only [he, ha, Nat.not_le.2 hc, Bool.not_true, Bool.or_self, Bool.false_eq_true, if_false]

theorem State.powerAsk_first {s : State} {p : Nat} {b : Bool} (ha : (s.fe p).powerAsk = none) (hs : s.fon p DF_STAT_STANDBY = !b) :
    s.powerAsk p b = s.modFe p fun x => { x with powerAsk := some b } := by
  have hne : s.fon p DF_STAT_STANDBY ≠ b := by rw [hs]; cases b <;> decide
  unfold State.powerAsk
  simp only [ha, Option.getD_none, hne, if_false]

@[simp] theorem Fe.link_setLink_same (x : Fe) (q : Nat) (l : FeLink) : (x.setLink q l).link q = l := by
  unfold Fe.setLink Fe.link
  split <;> rfl

/-! ### Characters that are no fast command -/

/-- The group of a fast command decodes to its code. -/
theorem fcCode_symGroup (plus : Bool) (c : Fin 16) : fcCode plus (symGroup plus (fcSym c)) = some c.val := by
  unfold fcCode fcSym
  rw [groupSym_symGroup_data plus ((15 - c.val) * 16 + c.val) (by omega)]
  have hhi : ((15 - c.val) * 16 + c.val) / 16 = 15 - c.val := by omega
  have hlo : ((15 - c.val) * 16 + c.val) % 16 = c.val := by omega
  simp [byteOf, Sym.byte?, hhi, hlo]

theorem State.fcRun_reserved {c : Nat} (h : 9 ≤ c) (s : State) (p : PortIx) (q : FaceIx) (k : Fin 250) :
    s.fcRun p q k c = .next (s.fcBad p q) := by
  obtain ⟨n, rfl⟩ := Nat.exists_eq_add_of_le' h
  rfl

theorem State.fcBad_same (s : State) (p q : Nat) : FeRegsSame s (s.fcBad p q) [(p, LNK_ERR_FC q)] :=
  ((FeRegsSame.refl s _).fbump _ _).modFacts _ _

theorem State.fcBad_count (s : State) (p q : Nat) :
    (s.fcBad p q).fget p (LNK_ERR_FC q) = min (s.fget p (LNK_ERR_FC q) + 1) (2 ^ (LNK_ERR_FC q).width - 1) := by
  rw [State.fcBad, State.modFacts_fget, State.fget_fbump_sat]

theorem State.fcBad_alarm (s : State) (p q : Nat) : ((s.fcBad p q).fe p).factsNow.linkAlarm = true := by
  simp [State.fcBad, State.modFacts]

/-- A character that is no command is counted, and its code error as well if it has one. -/
theorem exec_fastCommandInvalid_none {s : State} {p : PortIx} {q : FaceIx} {x : FcChar} (hl : s.feLive p = true)
    (hk : x.slot.val ≠ 0) (hc : fcCode x.plus x.grp.toNat = none) :
    exec (.fastCommandInvalid p q x) s =
      .next ((s.fcBad p q).when (groupSym x.plus x.grp.toNat).isNone fun z => z.fbump p (LNK_ERR_CODE q)) := by
  show execFastCommandInvalid p q x s = _
  unfold execFastCommandInvalid
  simp only [hl, hk, hc, Bool.not_true, decide_false, Bool.or_self, Bool.false_eq_true, if_false]

theorem exec_fastCommandInvalid_some {s : State} {p : PortIx} {q : FaceIx} {x : FcChar} {c : Nat} (hl : s.feLive p = true)
    (hk : x.slot.val ≠ 0) (hc : fcCode x.plus x.grp.toNat = some c) :
    exec (.fastCommandInvalid p q x) s = s.fcRun p q x.slot c := by
  show execFastCommandInvalid p q x s = _
  unfold execFastCommandInvalid
  simp only [hl, hk, hc, Bool.not_true, decide_false, Bool.or_self, Bool.false_eq_true, if_false]

theorem fastCommandInvalid_none_clause {s : State} {p : PortIx} {q : FaceIx} {x : FcChar} (hl : s.feLive p = true)
    (hk : x.slot.val ≠ 0) (hc : fcCode x.plus x.grp.toNat = none) :
    ∃ u, exec (.fastCommandInvalid p q x) s = .next u ∧
      u.fget p (LNK_ERR_FC q) = min (s.fget p (LNK_ERR_FC q) + 1) (2 ^ (LNK_ERR_FC q).width - 1) ∧
      (u.fe p).factsNow.linkAlarm = true ∧
      (groupSym x.plus x.grp.toNat = none →
        u.fget p (LNK_ERR_CODE q) = min (s.fget p (LNK_ERR_CODE q) + 1) (2 ^ (LNK_ERR_CODE q).width - 1)) ∧
      FeRegsSame s u [(p.val, LNK_ERR_FC q), (p.val, LNK_ERR_CODE q)] := by
  have hne : (LNK_ERR_FC q).fkey p ≠ (LNK_ERR_CODE q).fkey p := by simp [Fld.fkey, Fld.key, LNK_ERR_FC, LNK_ERR_CODE]
  have hbad : FeRegsSame s (s.fcBad p q) [(p.val, LNK_ERR_FC q), (p.val, LNK_ERR_CODE q)] :=
    ((FeRegsSame.refl s _).fbump _ _).modFacts _ _
  refine ⟨_, exec_fastCommandInvalid_none hl hk hc, ?_⟩
  cases hg : (groupSym x.plus x.grp.toNat).isNone with
  | false =>
    rw [State.when_false]
    refine ⟨s.fcBad_count _ _, s.fcBad_alarm _ _, fun hn => ?_, hbad⟩
    rw [hn] at hg
    exact absurd hg (by decide)
  | true =>
    rw [State.when_true]
    refine ⟨?_, s.fcBad_alarm _ _, fun _ => ?_, hbad.fbump _ _⟩
    · rw [State.fget_fbump_ne _ _ _ _ _ hne, State.fcBad_count]
    · rw [State.fget_fbump_sat, s.fcBad_same p q p _ (by simpa using hne.symm)]

/-- Settles O16. -/
theorem fastCommandsAreObeyedFromTheOwner : Obligations.FastCommandsAreObeyedFromTheOwner := by
  refine ⟨fun s p q => congrArg Host.Outcome.next (s.fastCommand_zero p q _), fun s p q k hk hl hr ho => ?obeyed,
    fun s p q k hk hl ho => ?refused, fun s p q x hl hk => ⟨fastCommandInvalid_none_clause hl hk, fun c hc h9 => ?reserved,
    fun hc hr ho => ?flush⟩, fcCode_symGroup⟩
  case obeyed =>
    obtain ⟨x, hx, hrun⟩ := State.fastCommand_obeyed hk hl hr ho
    have hnext : ∀ g, (Host.Outcome.next (s.fastCommand p q k g) : Out) = .next (g { s with tm := x }) :=
      fun g => congrArg Host.Outcome.next (hrun g)
    refine ⟨⟨_, hnext _, rfl⟩, ⟨_, hnext _, ?_, rfl⟩, ⟨_, hnext _, ?_, rfl⟩, fun he ha hc => ?_, fun he => ?_, ⟨_, hnext _, ?_, rfl⟩,
      fun ha hs => ?_, fun ha hs => ?_, fun hv => ?_⟩
    · rw [← hx]
      exact State.mem_gatePend _ _ _ _ _ _ _
    · rw [← hx]
      exact State.mem_gatePend _ _ _ _ _ _ _
    · refine ⟨_, hnext _, ?_⟩
      rw [State.opPulse_accepted (s := { s with tm := x }) he ha hc, State.fe_modFe, State.fe_modFe, ← hx]
      exact ⟨rfl, rfl, rfl⟩
    · refine ⟨_, hnext _, ?_⟩
      have he' : ({ s with tm := x } : State).fon p MON_CFG_CMD_EN = true := he
      rw [if_pos he', State.modMon_mon]
      exact ⟨rfl, rfl⟩
    · rw [State.fe_modFe]
    · refine ⟨_, hnext _, ?_⟩
      rw [State.powerAsk_first (s := { s with tm := x }) (b := true) ha hs, State.fe_modFe]
      exact ⟨rfl, rfl⟩
    · refine ⟨_, hnext _, ?_⟩
      rw [State.powerAsk_first (s := { s with tm := x }) (b := false) ha hs, State.fe_modFe]
      exact ⟨rfl, rfl⟩
    · have he : exec (.claim p q k) s = .next (s.fastCommand p q k fun z => z.modLink p q fun l => { l with claimCmd := true }) := by
        show execClaim p q k s = _
        unfold execClaim
        simp only [hv, ne_eq, not_true, if_false]
      refine ⟨_, he.trans (hnext _), ?_, rfl⟩
      rw [State.modLink, State.fe_modFe, Fe.link_setLink_same]
  case refused =>
    have hcount : s.fbump p OWN_STAT_NONOWNER_FC = { s with freg := (s.fbump p OWN_STAT_NONOWNER_FC).freg } := rfl
    have hsame : FeRegsSame s (s.fbump p OWN_STAT_NONOWNER_FC) [(p.val, OWN_STAT_NONOWNER_FC)] := (FeRegsSame.refl s _).fbump _ _
    exact ⟨⟨_, congrArg Host.Outcome.next (State.fastCommand_refused hk hl ho _), State.fget_fbump_sat _ _ _, hsame, hcount⟩,
      ⟨_, congrArg Host.Outcome.next (State.fastCommand_refused hk hl ho _), State.fget_fbump_sat _ _ _, hsame, hcount⟩⟩
  case reserved =>
    exact ⟨_, (exec_fastCommandInvalid_some hl hk hc).trans (State.fcRun_reserved h9 s p q x.slot), s.fcBad_count _ _, s.fcBad_alarm _ _,
      s.fcBad_same _ _⟩
  case flush =>
    obtain ⟨y, -, hrun⟩ := State.fastCommand_obeyed hk hl hr ho
    refine ⟨_, (exec_fastCommandInvalid_some hl hk hc).trans (congrArg Host.Outcome.next (hrun _)), ?_, rfl⟩
    rw [State.fe_modFe]

end Sys2Proof.Machine

/-! ## Effects at a front-end's tick, and its scrubber -/

namespace Sys2Proof.Machine

set_option Elab.async false

/-! ### The frame that a FLUSH discards -/

/-- One region's part of a FLUSH. -/
def State.flushRegion (s : State) (p tk r : Nat) : State :=
  ((s.setHalf p tk r { s.half p tk r with entries := [], admitted := 0 }).fadd p (RGN_DROP_FLUSH_CNT r)
    (s.half p tk r).entries.length).fset p (RGN_STAT_FLUSHED r) 1

theorem State.flushRegion_same (s : State) (p tk r : Nat) :
    FeRegsSame s (s.flushRegion p tk r) [(p, RGN_STAT_OCC0 r), (p, RGN_STAT_OCC1 r), (p, RGN_DROP_FLUSH_CNT r), (p,
        RGN_STAT_FLUSHED r)] :=
  (((((FeRegsSame.refl s _).modFe _ _).fset _ _ _).fset _ _ _).fadd _ _ _).fset _ _ _

theorem State.half_flushRegion_same (s : State) (p tk r : Nat) : ((s.flushRegion p tk r).half p tk r).entries = [] := by
  rw [State.half, State.flushRegion, State.fset_fe, State.fadd_fe, ← State.half, State.half_setHalf]

theorem State.half_flushRegion_ne (s : State) (p tk : Nat) {r q : Nat} (h : q ≠ r) :
    (s.flushRegion p tk r).half p tk q = s.half p tk q := by
  rw [State.half, State.flushRegion, State.fset_fe, State.fadd_fe]
  simp only [State.setHalf, State.showOcc, State.fset_fe, State.fe_modFe, State.half]
  rw [tget_tset_ne]
  omega

theorem State.fget_flushRegion_same (s : State) (p tk r : Nat) :
    (s.flushRegion p tk r).fget p (RGN_STAT_FLUSHED r) = 1 ∧ (s.flushRegion p tk r).fget p (RGN_DROP_FLUSH_CNT r) =
      min (s.fget p (RGN_DROP_FLUSH_CNT r) + (s.half p tk r).entries.length) (2 ^ 32 - 1) := by
  have hne : (RGN_DROP_FLUSH_CNT r).fkey p ≠ (RGN_STAT_FLUSHED r).fkey p :=
    Fld.fkey_ne_of_reg (by simp [RGN_DROP_FLUSH_CNT, RGN_STAT_FLUSHED]) (by simp [RGN_DROP_FLUSH_CNT]) (by simp [RGN_STAT_FLUSHED]) p
  have h0 : (RGN_DROP_FLUSH_CNT r).fkey p ≠ (RGN_STAT_OCC0 r).fkey p :=
    Fld.fkey_ne_of_reg (by simp [RGN_DROP_FLUSH_CNT, RGN_STAT_OCC0]) (by simp [RGN_DROP_FLUSH_CNT]) (by simp [RGN_STAT_OCC0]) p
  have h1 : (RGN_DROP_FLUSH_CNT r).fkey p ≠ (RGN_STAT_OCC1 r).fkey p :=
    Fld.fkey_ne_of_reg (by simp [RGN_DROP_FLUSH_CNT, RGN_STAT_OCC1]) (by simp [RGN_DROP_FLUSH_CNT]) (by simp [RGN_STAT_OCC1]) p
  constructor
  · rw [State.flushRegion, State.fget_fset_same]
    rfl
  · rw [State.flushRegion, State.fget_fset_ne _ _ _ _ _ _ hne, State.fget_fadd_sat, State.setHalf, State.showOcc,
      State.fget_fset_ne _ _ _ _ _ _ h1, State.fget_fset_ne _ _ _ _ _ _ h0, State.modFe_fget]
    rfl

theorem State.fget_flushRegion_ne (s : State) (p tk : Nat) {r q : Nat} (h : q ≠ r) :
    (s.flushRegion p tk r).fget p (RGN_STAT_FLUSHED q) = s.fget p (RGN_STAT_FLUSHED q) ∧
      (s.flushRegion p tk r).fget p (RGN_DROP_FLUSH_CNT q) = s.fget p (RGN_DROP_FLUSH_CNT q) := by
  constructor
  · refine s.flushRegion_same p tk r p _ ?_
    simp [Fld.fkey, Fld.key, RGN_STAT_FLUSHED, RGN_STAT_OCC0, RGN_STAT_OCC1, RGN_DROP_FLUSH_CNT]
    omega
  · refine s.flushRegion_same p tk r p _ ?_
    simp [Fld.fkey, Fld.key, RGN_STAT_FLUSHED, RGN_STAT_OCC0, RGN_STAT_OCC1, RGN_DROP_FLUSH_CNT]
    omega

/-- What a FLUSH leaves of region `r`. -/
def State.Flushed (s u : State) (p tk r : Nat) : Prop :=
  (u.half p tk r).entries = [] ∧ u.fget p (RGN_STAT_FLUSHED r) = 1 ∧
    u.fget p (RGN_DROP_FLUSH_CNT r) = min (s.fget p (RGN_DROP_FLUSH_CNT r) + (s.half p tk r).entries.length) (2 ^ 32 - 1)

/-- Flushing regions one after the other flushes each of them, and leaves the others. -/
theorem State.foldl_flushRegion (p tk : Nat) (l : List Nat) (hl : l.Nodup) (s : State) :
    (∀ r ∈ l, s.Flushed (l.foldl (fun z r => z.flushRegion p tk r) s) p tk r) ∧
      (∀ r ∉ l, (l.foldl (fun z r => z.flushRegion p tk r) s).half p tk r = s.half p tk r ∧
        (l.foldl (fun z r => z.flushRegion p tk r) s).fget p (RGN_STAT_FLUSHED r) = s.fget p (RGN_STAT_FLUSHED r) ∧
        (l.foldl (fun z r => z.flushRegion p tk r) s).fget p (RGN_DROP_FLUSH_CNT r) = s.fget p (RGN_DROP_FLUSH_CNT r)) := by
  induction l generalizing s with
  | nil => exact ⟨fun r hr => absurd hr List.not_mem_nil, fun r _ => ⟨rfl, rfl, rfl⟩⟩
  | cons a rest ih =>
    obtain ⟨ha, hrest⟩ := List.nodup_cons.1 hl
    obtain ⟨hin, hout⟩ := ih hrest (s.flushRegion p tk a)
    simp only [List.foldl_cons]
    refine ⟨fun r hr => ?_, fun r hr => ?_⟩
    · rcases List.mem_cons.1 hr with rfl | hr
      · obtain ⟨e1, e2, e3⟩ := hout r ha
        obtain ⟨f2, f3⟩ := s.fget_flushRegion_same p tk r
        exact ⟨by rw [e1, s.half_flushRegion_same], e2.trans f2, e3.trans f3⟩
      · have hne : r ≠ a := fun h => ha (h ▸ hr)
        obtain ⟨e1, e2, e3⟩ := hin r hr
        rw [s.half_flushRegion_ne p tk hne, (s.fget_flushRegion_ne p tk hne).2] at e3
        exact ⟨e1, e2, e3⟩
    · have hne : r ≠ a := fun h => hr (h ▸ List.mem_cons_self)
      obtain ⟨e1, e2, e3⟩ := hout r fun h => hr (List.mem_cons_of_mem _ h)
      rw [s.half_flushRegion_ne p tk hne] at e1
      rw [(s.fget_flushRegion_ne p tk hne).1] at e2
      rw [(s.fget_flushRegion_ne p tk hne).2] at e3
      exact ⟨e1, e2, e3⟩

/-- Flushing a region changes the halves of the front-end only. -/
theorem State.flushRegion_fe (s : State) (p tk r : Nat) : ∃ h, (s.flushRegion p tk r).fe p = { s.fe p with halves := h } := by
  rw [State.flushRegion, State.fset_fe, State.fadd_fe, State.setHalf, State.showOcc, State.fset_fe, State.fset_fe, State.fe_modFe]
  exact ⟨_, rfl⟩

theorem State.foldl_flushRegion_fe (p tk : Nat) (l : List Nat) (s : State) :
    ∃ h, (l.foldl (fun z r => z.flushRegion p tk r) s).fe p = { s.fe p with halves := h } := by
  induction l generalizing s with
  | nil => exact ⟨_, rfl⟩
  | cons a rest ih =>
    obtain ⟨h, hh⟩ := ih (s.flushRegion p tk a)
    obtain ⟨h', hh'⟩ := s.flushRegion_fe p tk a
    exact ⟨h, by rw [List.foldl_cons, hh, hh']⟩

/-- The state in which the frame is flushed. -/
def State.flushBegun (s : State) (p : Nat) : State :=
  s.modFe p fun x => { x with flushAsk := false, flushTick := some (s.tm.tick - 1), factsPrev := { x.factsPrev with flushed := true } }

theorem flushEffect_clause {s : State} {p : PortIx} (h : (s.fe p).flushAsk = true) :
    ∃ u, exec (.flushEffect p) s = .next u ∧ (u.fe p).flushAsk = false ∧ (u.fe p).flushTick = some (s.tm.tick - 1) ∧
      (u.fe p).factsPrev.flushed = true ∧ ∀ r : RgnIx, (u.half p (s.tm.tick - 1) r).entries = [] ∧ u.fget p (RGN_STAT_FLUSHED r) = 1 ∧
        u.fget p (RGN_DROP_FLUSH_CNT r) =
          min (s.fget p (RGN_DROP_FLUSH_CNT r) + (s.half p (s.tm.tick - 1) r).entries.length) (2 ^ 32 - 1) := by
  have hex : exec (.flushEffect p) s = .next ((List.range 4).foldl (fun z r => z.flushRegion p (s.tm.tick - 1) r) (s.flushBegun p)) := by
    show execFlushEffect p s = _
    unfold execFlushEffect
    rw [if_pos h]
    rfl
  obtain ⟨x, hfe⟩ := State.foldl_flushRegion_fe p (s.tm.tick - 1) (List.range 4) (s.flushBegun p)
  obtain ⟨hin, -⟩ := State.foldl_flushRegion p (s.tm.tick - 1) (List.range 4) List.nodup_range (s.flushBegun p)
  have hhalf : ∀ r, (s.flushBegun p).half p (s.tm.tick - 1) r = s.half p (s.tm.tick - 1) r := fun r => by
    simp [State.half, State.flushBegun]
  refine ⟨_, hex, ?_, ?_, ?_, fun r => ?_⟩
  · rw [hfe]
    simp [State.flushBegun]
  · rw [hfe]
    simp [State.flushBegun]
  · rw [hfe]
    simp [State.flushBegun]
  · have hr := hin r (List.mem_range.2 r.isLt)
    rw [State.Flushed, hhalf, State.flushBegun, State.modFe_fget] at hr
    exact hr

/-! ### STANDBY and WAKE -/

theorem exec_fePowerChange {s : State} {p : PortIx} {b : Bool} (ht : (s.fe p).thermalHold = false) (ha : (s.fe p).powerAsk = some b)
    (hs : s.fon p DF_STAT_STANDBY = !b) :
    exec (.fePowerChange p) s = .next (
      let s1 := s.modFe p fun x => { x with powerAsk := none, lastAskStandby := b }
      if b then s1.feStandby p else s1.feWake p) := by
  have hne : (b == s.fon p DF_STAT_STANDBY) = false := by rw [hs]; cases b <;> rfl
  show execFePowerChange p s = _
  unfold execFePowerChange
  simp only [ha, ht, hne, Bool.or_self, Bool.false_eq_true, if_false]

@[simp] theorem State.rearmAll_fget (s : State) (p q : Nat) (f : Fld) : (s.rearmAll p).fget q f = s.fget q f := rfl
@[simp] theorem State.rearmAll_fe (s : State) (p q : Nat) : (s.rearmAll p).fe q = s.fe q := rfl
@[simp] theorem State.rearmAll_freg (s : State) (p : Nat) : (s.rearmAll p).freg = s.freg := rfl

theorem fePowerChange_clause {s : State} {p : PortIx} (ht : (s.fe p).thermalHold = false) :
    ((s.fe p).powerAsk = some true → s.fon p DF_STAT_STANDBY = false → ∃ u, exec (.fePowerChange p) s = .next u ∧
      u.fget p DF_STAT_STANDBY = 1 ∧ (u.fe p).factsNow.waking = true ∧ (u.fe p).powerAsk = none ∧
      FeRegsSame s u [(p.val, DF_STAT_STANDBY)]) ∧
    ((s.fe p).powerAsk = some false → s.fon p DF_STAT_STANDBY = true → ∃ u, exec (.fePowerChange p) s = .next u ∧
      u.fget p DF_STAT_STANDBY = 0 ∧ u.fget p DF_STAT_WAKING = 1 ∧ (u.fe p).wakeTick = some s.tm.tick ∧ (u.fe p).analogOn = true ∧
      (u.fe p).wakeCal = true ∧ FeRegsSame s u [(p.val, DF_STAT_STANDBY), (p.val, DF_STAT_WAKING)]) := by
  refine ⟨fun ha hs => ⟨_, exec_fePowerChange ht ha hs, ?_⟩, fun ha hs => ⟨_, exec_fePowerChange ht ha hs, ?_⟩⟩
  · simp only [if_true]
    refine ⟨?_, by simp [State.feStandby, State.modFacts], by simp [State.feStandby, State.modFacts],
      (((FeRegsSame.refl s _).modFe _ _).fset _ _ _).modFacts _ _⟩
    rw [State.feStandby, State.modFacts_fget, State.fget_fset_same]
    rfl
  · have hne : DF_STAT_STANDBY.fkey p ≠ DF_STAT_WAKING.fkey p := by simp [Fld.fkey, Fld.key, DF_STAT_STANDBY, DF_STAT_WAKING]
    simp only [Bool.false_eq_true, if_false]
    refine ⟨?_, ?_, by simp [State.feWake], by simp [State.feWake], by simp [State.feWake], ?_⟩
    · rw [State.feWake, State.rearmAll_fget, State.fget_fset_ne _ _ _ _ _ _ hne, State.modFe_fget, State.fget_fset_same]
      rfl
    · rw [State.feWake, State.rearmAll_fget, State.fget_fset_same]
      rfl
    · rw [State.feWake]
      exact FeRegsSame.congr (((((FeRegsSame.refl s _).modFe _ _).fset _ _ _).modFe _ _).fset _ _ _) (State.rearmAll_freg _ _)

/-! ### The scrubber -/

/-- What a visit of word `w` leaves of the pass: the next word, and the CRC with this one. -/
def State.scrubStep (s t : State) (p w : Nat) : State :=
  t.modFe p fun x => { x with scrubPos := (w + 1) % 4096, scrubCrc := crc32cAux x.scrubCrc (leBytes 4 (s.feCfgWord p w)) }

theorem State.scrubWord_heals {s : State} {p w : Nat} (he : s.fon p SCRUB_CTRL_EN = true) (hn : 0 < (s.healCopies p w).1) :
    s.scrubWord p w = s.scrubStep ((((s.healCopies p w).2.fadd p SCRUB_STAT_CORR (s.healCopies p w).1).modFacts p
      fun f => { f with cfgUpset := true })) p w := by
  unfold State.scrubWord
  simp only [he, hn, and_self, if_true]
  rfl

theorem State.scrubWord_idle {s : State} {p w : Nat} (h : ¬(s.fon p SCRUB_CTRL_EN = true ∧ 0 < (s.healCopies p w).1)) :
    s.scrubWord p w = s.scrubStep s p w := by
  unfold State.scrubWord
  simp only [h, if_false]
  rfl

theorem State.scrubWord_same (s : State) (p w : Nat) : FeRegsSame s (s.scrubWord p w) [(p, SCRUB_STAT_CORR)] := by
  by_cases h : s.fon p SCRUB_CTRL_EN = true ∧ 0 < (s.healCopies p w).1
  · rw [State.scrubWord_heals h.1 h.2]
    exact ((((FeRegsSame.refl s _).modFe _ _).fadd _ _ _).modFacts _ _).modFe _ _
  · rw [State.scrubWord_idle h]
    exact (FeRegsSame.refl s _).modFe _ _

theorem State.scrubWord_pass (s : State) (p w : Nat) :
    ((s.scrubWord p w).fe p).scrubPos = (w + 1) % 4096 ∧
      ((s.scrubWord p w).fe p).scrubCrc = crc32cAux (s.fe p).scrubCrc (leBytes 4 (s.feCfgWord p w)) ∧
      ((s.scrubWord p w).fe p).scrubDirty = (s.fe p).scrubDirty := by
  by_cases h : s.fon p SCRUB_CTRL_EN = true ∧ 0 < (s.healCopies p w).1
  · rw [State.scrubWord_heals h.1 h.2]
    simp [State.scrubStep, State.modFacts, State.healCopies]
  · rw [State.scrubWord_idle h]
    simp [State.scrubStep]

theorem State.scrubWord_count {s : State} {p w : Nat} (he : s.fon p SCRUB_CTRL_EN = true) (hn : 0 < (s.healCopies p w).1) :
    (s.scrubWord p w).fget p SCRUB_STAT_CORR = min (s.fget p SCRUB_STAT_CORR + (s.healCopies p w).1) 65535 := by
  rw [State.scrubWord_heals he hn, State.scrubStep, State.modFe_fget, State.modFacts_fget, State.fget_fadd_sat, State.healCopies,
    State.modFe_fget]
  rfl

theorem exec_scrubVisit {s : State} {p : PortIx} {x : Upsets} (h : (s.fe p).scrubPos < 4095) :
    exec (.scrubVisit p x) s = .next ((s.takeUpsets p x).scrubWord p (s.fe p).scrubPos) := by
  show execScrubVisit p x s = _
  unfold execScrubVisit
  simp only [show (s.fe p).scrubPos + 1 < 4096 by omega, if_true]

/-- The visit of the last word ends the pass. -/
def State.scrubEnd (s : State) (p : Nat) : State :=
  (((s.fset p CFG_CRC_CRC (Nat.xor (s.fe p).scrubCrc 0xFFFFFFFF)).fset p SCRUB_STAT_DIRTY (b2n (s.fe p).scrubDirty)).fwrap p
    SCRUB_STAT_PASS 1).modFe p fun y => { y with scrubDirty := false, scrubCrc := 0xFFFFFFFF }

theorem exec_scrubVisit_last {s : State} {p : PortIx} {x : Upsets} (h : (s.fe p).scrubPos = 4095) :
    exec (.scrubVisit p x) s = .next (((s.takeUpsets p x).scrubWord p 4095).scrubEnd p) := by
  show execScrubVisit p x s = _
  unfold execScrubVisit
  simp only [h, Nat.reduceAdd, Nat.lt_irrefl, if_false]
  rfl

theorem State.scrubEnd_fget (s : State) (p : Nat) :
    (s.scrubEnd p).fget p CFG_CRC_CRC = Nat.xor (s.fe p).scrubCrc 0xFFFFFFFF % 2 ^ 32 ∧
      (s.scrubEnd p).fget p SCRUB_STAT_DIRTY = b2n (s.fe p).scrubDirty ∧
      (s.scrubEnd p).fget p SCRUB_STAT_PASS = (s.fget p SCRUB_STAT_PASS + 1) % 128 := by
  have hb : b2n (s.fe p).scrubDirty < 2 ^ SCRUB_STAT_DIRTY.width := b2n_lt_two _
  unfold State.scrubEnd State.fwrap
  simp (disch := grind [Fld.fkey, Fld.key, CFG_CRC_CRC, SCRUB_STAT_DIRTY, SCRUB_STAT_PASS]) only
    [State.modFe_fget, State.fget_fset_ne, State.fget_fset_same, Nat.mod_eq_of_lt hb]
  exact ⟨rfl, trivial, rfl⟩

theorem scrubVisit_clause {s z : State} {p : PortIx} {x : Upsets} (hz : z = s.takeUpsets p x) :
    ((z.fe p).scrubPos = 4095 → (s.fe p).scrubPos = 4095 →
      ∃ u, exec (.scrubVisit p x) s = .next u ∧
      u.fget p CFG_CRC_CRC = Nat.xor (crc32cAux (z.fe p).scrubCrc (leBytes 4 (z.feCfgWord p 4095))) 0xFFFFFFFF % 2 ^ 32 ∧
      u.fget p SCRUB_STAT_DIRTY = b2n (z.fe p).scrubDirty ∧ u.fget p SCRUB_STAT_PASS = (z.fget p SCRUB_STAT_PASS + 1) % 128 ∧
      (u.fe p).scrubPos = 0) ∧
    (∀ w, (s.fe p).scrubPos = w → w < 4095 → ∃ u, exec (.scrubVisit p x) s = .next u ∧ (u.fe p).scrubPos = w + 1 ∧
      (u.fe p).scrubCrc = crc32cAux (z.fe p).scrubCrc (leBytes 4 (z.feCfgWord p w)) ∧
      (z.fon p SCRUB_CTRL_EN = true → 0 < (z.healCopies p w).1 →
        u.fget p SCRUB_STAT_CORR = min (z.fget p SCRUB_STAT_CORR + (z.healCopies p w).1) 65535) ∧
      (z.fon p SCRUB_CTRL_EN = false → u.fget p SCRUB_STAT_CORR = z.fget p SCRUB_STAT_CORR)) := by
  refine ⟨fun _ hs => ?_, fun w hw hlt => ?_⟩
  · have hex := exec_scrubVisit_last (x := x) hs
    rw [← hz] at hex
    obtain ⟨h1, h2, h3⟩ := z.scrubWord_pass p 4095
    obtain ⟨e1, e2, e3⟩ := (z.scrubWord p 4095).scrubEnd_fget p
    refine ⟨_, hex, by rw [e1, h2], by rw [e2, h3], ?_, ?_⟩
    · rw [e3, z.scrubWord_same p 4095 p SCRUB_STAT_PASS (by simp [Fld.fkey, Fld.key, SCRUB_STAT_PASS, SCRUB_STAT_CORR])]
    · simp [State.scrubEnd, State.fwrap, h1]
  · have hex := exec_scrubVisit (x := x) (show (s.fe p).scrubPos < 4095 by omega)
    rw [← hz, hw] at hex
    obtain ⟨h1, h2, -⟩ := z.scrubWord_pass p w
    refine ⟨_, hex, by rw [h1, Nat.mod_eq_of_lt (by omega)], h2, State.scrubWord_count, fun he => ?_⟩
    rw [State.scrubWord_idle (by simp [he]), State.scrubStep, State.modFe_fget]

/-! ### Upsets -/

theorem State.healCopies_of_empty {s : State} {p : Nat} (h : (s.fe p).copies = []) (w : Nat) : (s.healCopies p w).1 = 0 := by
  simp [State.healCopies, h]

/-- One upset copy of a configuration bit whose copies agree. -/
theorem State.takeUpsets_copy {s : State} {p : Nat} {w : BitVec 12} {b : Fin 32} {c : Fin 3} (hc : (s.fe p).copies = [])
    (hm : bitAt (feCfgMask w.toNat) b = true) :
    s.takeUpsets p ⟨[(w, b, c)], 0⟩ = s.modFe p fun x => { x with copies := tset x.copies (w.toNat * 32 + b) 0 (c.val + 1) } := by
  simp [State.takeUpsets, State.copyUpset, hm, hc, tget]

theorem State.modFe_copies_of_empty {s : State} {p : Nat} (hc : (s.fe p).copies = []) (k n : Nat) :
    ((s.modFe p fun x => { x with copies := tset x.copies k 0 (n + 1) }).fe p).copies = [(k, n + 1)] := by
  rw [State.fe_modFe, hc]
  simp [tset, tins]

theorem upsets_clause {s : State} {p : PortIx} (hpos : (s.fe p).scrubPos < 4095) (hc : (s.fe p).copies = []) :
    (∀ l : Nat, 0 < l → ∃ u, exec (.scrubVisit p ⟨[], l⟩) s = .next u ∧
      u.fget p SCRUB_STAT_LOGIC = min (s.fget p SCRUB_STAT_LOGIC + l) (2 ^ SCRUB_STAT_LOGIC.width - 1) ∧
      (u.fe p).factsNow.cfgUpset = true ∧ FeRegsSame s u [(p.val, SCRUB_STAT_LOGIC)]) ∧
    (∀ (w : BitVec 12) (b : Fin 32) (c : Fin 3), bitAt (feCfgMask w.toNat) b = true → w.toNat ≠ (s.fe p).scrubPos →
      ∃ u, exec (.scrubVisit p ⟨[(w, b, c)], 0⟩) s = .next u ∧ tget (u.fe p).copies (w.toNat * 32 + b) 0 = c.val + 1 ∧
        u.freg = s.freg) ∧
    (∀ (b : Fin 32) (c : Fin 3), bitAt (feCfgMask (s.fe p).scrubPos) b = true → s.fon p SCRUB_CTRL_EN = true →
      ∃ u, exec (.scrubVisit p ⟨[(BitVec.ofNat 12 (s.fe p).scrubPos, b, c)], 0⟩) s = .next u ∧ (u.fe p).copies = [] ∧
        u.fget p SCRUB_STAT_CORR = min (s.fget p SCRUB_STAT_CORR + 1) 65535 ∧ (u.fe p).factsNow.cfgUpset = true ∧
        FeRegsSame s u [(p.val, SCRUB_STAT_CORR)]) := by
  refine ⟨fun l hl => ⟨_, exec_scrubVisit hpos, ?_⟩, fun w b c hm hw => ⟨_, exec_scrubVisit hpos, ?_⟩,
    fun b c hm he => ⟨_, exec_scrubVisit hpos, ?_⟩⟩
  · have hup : s.takeUpsets p ⟨[], l⟩ = (s.fadd p SCRUB_STAT_LOGIC l).modFacts p fun f => { f with cfgUpset := true } := by
      simp [State.takeUpsets, Nat.pos_iff_ne_zero.1 hl]
    have hcop : ((s.takeUpsets p ⟨[], l⟩).fe p).copies = [] := by
      rw [hup]
      simpa [State.modFacts] using hc
    rw [State.scrubWord_idle (by simp [State.healCopies_of_empty hcop]), State.scrubStep, hup]
    refine ⟨?_, by simp [State.modFacts], (((FeRegsSame.refl s _).fadd _ _ _).modFacts _ _).modFe _ _⟩
    rw [State.modFe_fget, State.modFacts_fget, State.fget_fadd_sat]
  · have hcop := State.modFe_copies_of_empty hc (w.toNat * 32 + b) c
    have hheal : ((s.modFe p fun x => { x with copies := tset x.copies (w.toNat * 32 + b) 0 (c.val + 1) }).healCopies p
        (s.fe p).scrubPos).1 = 0 := by
      simp only [State.healCopies, hcop]
      rw [List.filter_singleton, show (w.toNat * 32 + b.val) / 32 = w.toNat by omega]
      simp [hw]
    rw [State.takeUpsets_copy hc hm, State.scrubWord_idle (by simp [hheal])]
    refine ⟨?_, rfl⟩
    rw [State.scrubStep, State.fe_modFe]
    show tget (State.fe _ p).copies _ _ = _
    rw [hcop]
    simp [tget]
  · have hw : (BitVec.ofNat 12 (s.fe p).scrubPos).toNat = (s.fe p).scrubPos := by
      rw [BitVec.toNat_ofNat]
      omega
    rw [State.takeUpsets_copy hc (by rw [hw]; exact hm), hw]
    have hcop := State.modFe_copies_of_empty hc ((s.fe p).scrubPos * 32 + b) c
    generalize (s.fe p).scrubPos = w at *
    have hdiv : (w * 32 + b.val) / 32 = w := by omega
    generalize hv : (s.modFe p fun x => { x with copies := tset x.copies (w * 32 + b) 0 (c.val + 1) }) = v at hcop
    have hheal : (v.healCopies p w).1 = 1 := by simp [State.healCopies, hcop, hdiv]
    have hfreg : v.freg = s.freg := by rw [← hv, State.modFe_freg]
    have hen : v.fon p SCRUB_CTRL_EN = true := by
      rw [State.fon, State.fget_of_freg hfreg]
      exact he
    have hn : 0 < (v.healCopies p w).1 := by rw [hheal]; decide
    refine ⟨?_, ?_, ?_, (FeRegsSame.of_freg hfreg _).trans (v.scrubWord_same p w)⟩
    · rw [State.scrubWord_heals hen hn]
      simp [State.scrubStep, State.modFacts, State.healCopies, hcop, hdiv]
    · rw [State.scrubWord_count hen hn, hheal, State.fget_of_freg hfreg]
    · rw [State.scrubWord_heals hen hn]
      simp [State.scrubStep, State.modFacts]

/-- Settles O17. -/
theorem powerFlushAndScrubbing : Obligations.PowerFlushAndScrubbing := by
  refine ⟨fun s p h => flushEffect_clause h, fun s p ht => fePowerChange_clause ht, fun s p h => ?_, fun s p h ht => ?_,
    fun s z p x hz => scrubVisit_clause hz, fun s p hpos hc => upsets_clause hpos hc⟩
  · have hex : exec (.standbyPowerDown p) s = .next (s.modFe p fun x => { x with analogOn := false }) := by
      show execStandbyPowerDown p s = _
      unfold execStandbyPowerDown
      rw [if_pos h]
    refine ⟨_, hex, ?_, rfl⟩
    rw [State.fe_modFe]
  · have hex : exec (.wakingEnd p) s = .next ((s.fset p DF_STAT_WAKING 0).modFacts p
        fun f => { f with waking := s.fon p DF_STAT_STANDBY }) := by
      show execWakingEnd p s = _
      unfold execWakingEnd
      simp only [h, ht, decide_true, Bool.and_self, if_true]
    refine ⟨_, hex, ?_, ((FeRegsSame.refl s _).fset _ _ _).modFacts _ _⟩
    rw [State.modFacts_fget, State.fget_fset_same]
    rfl

end Sys2Proof.Machine

/-! ## Request packets -/

namespace Sys2Proof.Machine

set_option Elab.async false

/-- A front-end whose table of registers holds an entry that reads as the reset value: the code-error counter of link 0 of front-end 3,
stored beyond its 16 bits. -/
def spareEntry : State := { State.reset with freg := [((LNK_ERR_CODE 0).fkey 3, 65536)] }

/-- Stream characters with a fast-command character between every three of them (R170). -/
def withFast : Nat → List Sym → List Sym
  | _, [] => []
  | j, x :: r => if j % 4 = 0 then .data 0 :: x :: withFast (j + 2) r else x :: withFast (j + 1) r

/-- The codeword without any request: 134 zero bytes behind the comma. -/
def emptyCodeword : CodeRun := ⟨false, symLine false (withFast 3 (k281 :: List.replicate 134 (.data 0)))⟩

theorem reqRead_emptyCodeword : reqRead emptyCodeword = (0, .ok, ⟨0, 0, 0, 0⟩ :: List.replicate 15 ⟨0, 0, 0, 0⟩) := by decide +kernel

/-- A packet of type 0 does nothing (R178). -/
theorem State.feRequestAt_zero (s : State) (p q : Nat) {r : ReqPkt} (h : r.typ = 0) (t : Inst) : s.feRequestAt p q r t = s := by
  unfold State.feRequestAt
  simp [h]

/-- The codeword without code errors adds 0 to the counter of code errors, which writes the counter again and so removes the entry. -/
theorem freg_emptyCodeword : ((spareEntry.reqCounts 3 0 emptyCodeword).runDue 3 (duePkts 0 0 emptyCodeword)).freg = [] := by
  decide +kernel

theorem exec_emptyCodeword : exec (.requestCodeword 3 0 0 emptyCodeword none) spareEntry =
    .next ((spareEntry.reqCounts 3 0 emptyCodeword).runDue 3 (duePkts 0 0 emptyCodeword)) := rfl

/-- Refutes O18: a codeword without code errors still writes the code-error counter, so in a state whose table of registers holds an
entry for that counter with its reset value the outcome is not that of the packet alone. -/
theorem not_requestsAreAnsweredInTableOrder : ¬ Obligations.RequestsAreAnsweredInTableOrder := by
  rintro ⟨-, hcodeword, -⟩
  obtain ⟨-, -, hclean⟩ := hcodeword spareEntry 3 0 0 emptyCodeword rfl
  have heq := hclean ⟨0, 0, 0, 0⟩ (List.replicate 15 ⟨0, 0, 0, 0⟩) reqRead_emptyCodeword fun y hy => by
    rw [List.eq_of_mem_replicate hy]
  rw [exec_emptyCodeword, State.feRequestAt_zero _ _ _ rfl] at heq
  have hfreg := congrArg State.freg (Host.Outcome.next.inj heq)
  rw [freg_emptyCodeword] at hfreg
  exact absurd hfreg (by decide)

end Sys2Proof.Machine

/-! ## Writes of the front-end with an effect of their own -/

namespace Sys2Proof.Machine

set_option Elab.async false

/-! ### Words of the front-end's registers -/

theorem State.foldl_fset_fget_ne (p : Nat) (w : Fld → Nat) (fs : List Fld) (s : State) {q : Nat} {g : Fld}
    (h : ∀ f ∈ fs, g.fkey q ≠ f.fkey p) : (fs.foldl (fun z f => z.fset p f (w f)) s).fget q g = s.fget q g := by
  induction fs generalizing s with
  | nil => rfl
  | cons f r ih =>
    obtain ⟨hf, hr⟩ := List.forall_mem_cons.1 h
    exact (ih (s.fset p f (w f)) hr).trans (s.fget_fset_ne p q f g _ hf)

/-- In a run of writes of fields with different keys, each field takes its own value. -/
theorem State.foldl_fset_fget_mem (p : Nat) (w : Fld → Nat) {fs : List Fld} (hk : fs.Pairwise fun f g => f.key ≠ g.key) (s : State)
    {g : Fld} (hg : g ∈ fs) : (fs.foldl (fun z f => z.fset p f (w f)) s).fget p g = w g % 2 ^ g.width := by
  induction fs generalizing s with
  | nil => cases hg
  | cons f r ih =>
    obtain ⟨hf, hr⟩ := List.pairwise_cons.1 hk
    rcases List.mem_cons.1 hg with rfl | hg
    · refine (State.foldl_fset_fget_ne p w r _ fun f hfr => ?_).trans (s.fget_fset_same p g _)
      unfold Fld.fkey
      have := hf f hfr
      omega
    · exact ih hr _ hg

/-- A run of front-end register writes changes that table only. -/
theorem State.foldl_fset_same (p : Nat) (w : Fld → Nat) (fs : List Fld) (s : State) :
    fs.foldl (fun z f => z.fset p f (w f)) s = { s with freg := (fs.foldl (fun z f => z.fset p f (w f)) s).freg } := by
  induction fs generalizing s with
  | nil => rfl
  | cons f r ih => exact ih (s.fset p f (w f))

/-- A write of a front-end register word changes that table only. -/
theorem State.feWriteReg_same (s : State) (p w v : Nat) : s.feWriteReg p w v = { s with freg := (s.feWriteReg p w v).freg } := by
  unfold State.feWriteReg
  split
  · rfl
  · exact State.foldl_fset_same p _ _ s

@[simp] theorem State.feWriteReg_fe (s : State) (p w v q : Nat) : (s.feWriteReg p w v).fe q = s.fe q := by
  rw [State.feWriteReg_same]
  rfl

@[simp] theorem State.feWriteReg_ch (s : State) (p w v q c : Nat) : (s.feWriteReg p w v).ch q c = s.ch q c := by
  rw [State.feWriteReg_same]
  rfl

@[simp] theorem State.feWriteReg_blk (s : State) (p w v q b : Nat) : (s.feWriteReg p w v).blk q b = s.blk q b := by
  rw [State.feWriteReg_same]
  rfl

/-- Each field of the word takes what the write leaves in it. -/
theorem State.fget_feWriteReg {s : State} {w : Nat} {fs : List Fld} {hi : Bool} (hr : findReg feRegClasses 1 w = some (fs, hi))
    (hk : fs.Pairwise fun f g => f.key ≠ g.key) (p v : Nat) {g : Fld} (hg : g ∈ fs) :
    (s.feWriteReg p w v).fget p g = g.written (s.fget p g) v hi false true % 2 ^ g.width := by
  unfold State.feWriteReg
  rw [hr]
  exact State.foldl_fset_fget_mem p (fun f => f.written (s.fget p f) v hi false true) hk s hg

theorem State.fget_feWriteReg_ne {s : State} {w : Nat} {fs : List Fld} {hi : Bool} (hr : findReg feRegClasses 1 w = some (fs, hi))
    (p v : Nat) {g : Fld} (hg : ∀ f ∈ fs, g.fkey p ≠ f.fkey p) : (s.feWriteReg p w v).fget p g = s.fget p g := by
  unfold State.feWriteReg
  rw [hr]
  exact State.foldl_fset_fget_ne p (fun f => f.written (s.fget p f) v hi false true) fs s hg

/-- A read-write field that lies in the low word takes its bits of the word written. -/
theorem Fld.written_rw {f : Fld} (hf : f.acc = .rw) (h0 : 0 < f.width) (h : f.lo + f.width ≤ 32) {old : Nat} (hold : old < 2 ^ f.width)
    (v : Nat) (locked open_ : Bool) : f.written old v false locked open_ = bits v f.lo f.width := by
  have hlo : f.lo < 32 := by omega
  have hmin : min f.width (32 - f.lo) = f.width := by omega
  simp [Fld.written, Fld.inWord, Fld.merge, hf, hlo, hmin, Nat.div_eq_of_lt hold]

theorem State.fget_feWriteReg_rw {s : State} {w : Nat} {fs : List Fld} (hr : findReg feRegClasses 1 w = some (fs, false))
    (hk : fs.Pairwise fun f g => f.key ≠ g.key) (p v : Nat) {g : Fld} (hg : g ∈ fs) (hf : g.acc = .rw) (h0 : 0 < g.width)
    (h : g.lo + g.width ≤ 32) : (s.feWriteReg p w v).fget p g = bits v g.lo g.width := by
  rw [State.fget_feWriteReg hr hk p v hg, Fld.written_rw hf h0 h (s.fget_lt p g), Nat.mod_eq_of_lt (bits_lt _ _ _)]

/-! ### A write through a port -/

theorem State.fePortWrite_permitted {s : State} {p q w : Nat} (hl : s.feLive p = true)
    (ho : s.writesObeyed p q = true ∨ ownWord q w = true) (t v : Nat) :
    s.fePortWrite p q w t v = (s.toInst t).feWrite p w t v := by
  have hl' : (s.toInst t).feLive p = true := by rw [State.feLive, State.toInst_fe]; exact hl
  have ho' : ((s.toInst t).writesObeyed p q || ownWord q w) = true := by
    rw [Bool.or_eq_true]
    refine ho.imp_left fun h => ?_
    rw [← h, State.writesObeyed, State.obeyed, State.lnk, State.toInst_fon, State.toInst_fget, State.toInst_fe]
    rfl
  unfold State.fePortWrite
  simp only [hl', ho', Bool.and_self, if_true]

/-- A write heals the copies of its word, takes effect, and marks the pass of the scrubber. -/
theorem State.feWrite_cases (s : State) (p w t v : Nat) :
    s.feWrite p w t v = (s.healCopies p w).2.feWriteWord p w t v ∨
      s.feWrite p w t v = ((s.healCopies p w).2.feWriteWord p w t v).modFe p fun x => { x with scrubDirty := true } := by
  unfold State.feWrite
  extract_lets s1
  split
  · exact .inl rfl
  · exact .inr rfl

theorem State.feWrite_fget (s : State) (p w t v q : Nat) (f : Fld) :
    (s.feWrite p w t v).fget q f = ((s.healCopies p w).2.feWriteWord p w t v).fget q f := by
  rcases s.feWrite_cases p w t v with h | h <;> rw [h]
  rw [State.modFe_fget]

theorem State.feWrite_ch (s : State) (p w t v q c : Nat) :
    (s.feWrite p w t v).ch q c = ((s.healCopies p w).2.feWriteWord p w t v).ch q c := by
  rcases s.feWrite_cases p w t v with h | h <;> rw [h]
  rw [State.modFe_ch]

theorem State.feWrite_blk (s : State) (p w t v q b : Nat) :
    (s.feWrite p w t v).blk q b = ((s.healCopies p w).2.feWriteWord p w t v).blk q b := by
  rcases s.feWrite_cases p w t v with h | h <;> rw [h]
  rw [State.modFe_blk]

theorem State.feWrite_fe (s : State) (p w t v : Nat) :
    ∃ d, (s.feWrite p w t v).fe p = { ((s.healCopies p w).2.feWriteWord p w t v).fe p with scrubDirty := d } := by
  rcases s.feWrite_cases p w t v with h | h <;> rw [h]
  · exact ⟨_, rfl⟩
  · exact ⟨true, by rw [State.fe_modFe]⟩

@[simp] theorem State.healCopies_fget (s : State) (p w q : Nat) (f : Fld) : (s.healCopies p w).2.fget q f = s.fget q f := rfl
@[simp] theorem State.healCopies_fon (s : State) (p w q : Nat) (f : Fld) : (s.healCopies p w).2.fon q f = s.fon q f := rfl
@[simp] theorem State.healCopies_ch (s : State) (p w q c : Nat) : (s.healCopies p w).2.ch q c = s.ch q c := rfl
@[simp] theorem State.healCopies_blk (s : State) (p w q b : Nat) : (s.healCopies p w).2.blk q b = s.blk q b := rfl
@[simp] theorem State.healCopies_mono (s : State) (p w t : Nat) : (s.healCopies p w).2.mono t = s.mono t := rfl
theorem State.healCopies_gateCmds (s : State) (p w : Nat) : ((s.healCopies p w).2.fe p).gateCmds = (s.fe p).gateCmds := by
  simp [State.healCopies]
theorem State.healCopies_link (s : State) (p w q : Nat) : ((s.healCopies p w).2.fe p).link q = (s.fe p).link q := by
  simp [State.healCopies, Fe.link]

/-! ### Which word has which effect -/

theorem State.feWriteWord_chCfg (s : State) (p : Nat) {c : Nat} (hc : c < 512) (t v : Nat) :
    s.feWriteWord p (0x100 + 2 * c) t v = s.opChCfg p c t v := by
  unfold State.feWriteWord
  rw [if_neg (by omega), if_neg (by omega), if_pos (by omega), show (0x100 + 2 * c - 0x100) / 2 = c by omega]

theorem State.feWriteWord_gateCfg (s : State) (p t v : Nat) : s.feWriteWord p 0x060 t v = s.opGateCfg p t v := by
  unfold State.feWriteWord
  rw [if_neg (by omega), if_neg (by omega), if_neg (by omega), if_pos rfl]

theorem State.feWriteWord_adcStat (s : State) (p : Nat) {b : Nat} (hb : b < 32) (t v : Nat) :
    s.feWriteWord p (0x504 + 8 * b) t v = s.opAdcStat p b v := by
  unfold State.feWriteWord
  rw [if_neg (by omega), if_neg (by omega), if_neg (by omega), if_neg (by omega), if_pos (by omega),
    show (0x504 + 8 * b - 0x500) / 8 = b by omega]

theorem State.feWriteWord_prbs (s : State) (p : Nat) (q : FaceIx) (t v : Nat) :
    s.feWriteWord p (0xF00 + 16 * q.val) t v =
      (s.feWriteReg p (0xF00 + 16 * q.val) v).when (bitAt v 2) fun z => z.modLink p q fun l => { l with prbsArmed := true } := by
  have hq : q.val = 0 ∨ q.val = 1 := by omega
  unfold State.feWriteWord
  rw [if_neg (by omega), if_neg (by omega), if_neg (by omega), if_neg (by omega), if_neg (by omega), if_neg (by omega),
    if_neg (by omega), if_neg (by omega), if_neg (by omega), if_pos (by omega), show (0xF00 + 16 * q.val - 0xF00) / 16 = q.val by omega]

theorem State.feWriteWord_inject (s : State) (p : Nat) (q : FaceIx) (t v : Nat) :
    s.feWriteWord p (0xF04 + 16 * q.val) t v = (s.feWriteReg p (0xF04 + 16 * q.val) v).when (bitAt v 0) fun z => z.injectUp p q v := by
  have hq : q.val = 0 ∨ q.val = 1 := by omega
  unfold State.feWriteWord
  rw [if_neg (by omega), if_neg (by omega), if_neg (by omega), if_neg (by omega), if_neg (by omega), if_neg (by omega),
    if_neg (by omega), if_neg (by omega), if_neg (by omega), if_neg (by omega), if_pos (by omega),
    show (0xF04 + 16 * q.val - 0xF04) / 16 = q.val by omega]

/-- The fields of `CH_CFG`. -/
def chCfgFields (c : Nat) : List Fld :=
  [CH_CFG_EN c, CH_CFG_POL c, CH_CFG_GAIN c, CH_CFG_GATE_EN c, CH_CFG_VAL_EN c, CH_CFG_VAL_WIN c, CH_CFG_HYST c, CH_CFG_HOLDOFF c,
    CH_CFG_TP_EN c, CH_CFG_CD_EN c]

theorem findReg_chCfg {c : Nat} (hc : c < 512) : findReg feRegClasses 1 (0x100 + 2 * c) = some (chCfgFields c, false) := by
  have hi : RegClass.index ⟨0x100, 1, 0x0, 512, 0x2, chCfgFields⟩ (0x100 + 2 * c) = some c := by
    simp only [RegClass.index, if_true, Nat.mul_zero, Nat.zero_mul, Nat.sub_zero, Nat.add_sub_cancel_left,
      show (2 = 0) = False by decide, if_false]
    rw [Nat.mul_div_cancel_left c (by decide : 0 < 2), if_pos (by omega)]
    simp
  have hf : fieldsAt feRegClasses (0x100 + 2 * c) = some (chCfgFields c) := by
    show (match RegClass.index ⟨0x100, 1, 0x0, 512, 0x2, chCfgFields⟩ (0x100 + 2 * c) with
      | some i => some (chCfgFields i)
      | none => _) = _
    rw [hi]
  unfold findReg
  rw [hf]

theorem chCfgFields_pairwise (c : Nat) : (chCfgFields c).Pairwise fun f g => f.key ≠ g.key := by
  simp [chCfgFields, Fld.key, CH_CFG_EN, CH_CFG_POL, CH_CFG_GAIN, CH_CFG_GATE_EN, CH_CFG_VAL_EN, CH_CFG_VAL_WIN, CH_CFG_HYST,
    CH_CFG_HOLDOFF, CH_CFG_TP_EN, CH_CFG_CD_EN]

theorem findReg_adcStat (b : BlkIx) : findReg feRegClasses 1 (0x504 + 8 * b.val) =
    some ([BLK_ADCSTAT_SPARE b, BLK_ADCSTAT_FAIL b, BLK_ADCSTAT_NOSLICE b, BLK_ADCSTAT_CLASH b, BLK_ADCSTAT_PERR b], false) := by
  revert b
  decide +kernel

theorem findReg_prbs (q : FaceIx) : findReg feRegClasses 1 (0xF00 + 16 * q.val) =
    some ([PRBS_CTRL_PAT q, PRBS_CTRL_START q, PRBS_CTRL_DUR q], false) := by
  revert q
  decide +kernel

theorem Blk.slice_modSlice_ne (x : Blk) {j k : Nat} (g : AdcSlice → AdcSlice) (h : k ≠ j) : (x.modSlice j g).slice k = x.slice k :=
  tget_tset_ne x.slices {} (g (x.slice j)) {} h

/-! ### CHANNEL_ENABLE and CHANNEL_DISABLE -/

theorem Chan.rearm_eq (h : Chan) (ns key : Nat) : ∃ a b, h.rearm ns key = { h with intA := a, intB := b } := by
  unfold Chan.rearm
  extract_lets a b x
  split
  · split
    · exact ⟨_, _, rfl⟩
    · unfold Chan.setIntp
      split <;> exact ⟨_, _, rfl⟩
  · exact ⟨_, _, rfl⟩

theorem State.feWriteLater_fget (s : State) (p w v eff q : Nat) (f : Fld) :
    (s.feWriteLater p w v eff).fget q f = (s.feWriteReg p w v).fget q f := by
  rw [State.feWriteLater, State.modFe_fget]

theorem State.feWriteLater_ch (s : State) (p w v eff q c : Nat) : (s.feWriteLater p w v eff).ch q c = s.ch q c := by
  rw [State.feWriteLater, State.modFe_ch, State.feWriteReg_ch]

theorem State.fget_chCfg_en (s : State) (p : Nat) {c : Nat} (hc : c < 512) (v eff : Nat) :
    (s.feWriteLater p (0x100 + 2 * c) v eff).fget p (CH_CFG_EN c) = bits v 0 1 := by
  rw [State.feWriteLater_fget, State.fget_feWriteReg_rw (findReg_chCfg hc) (chCfgFields_pairwise c) p v (by simp [chCfgFields]) rfl
    (by simp [CH_CFG_EN]) (by simp [CH_CFG_EN])]
  rfl

theorem bits_one (v i : Nat) : (bits v i 1 != 0) = bitAt v i := by
  have h : v / 2 ^ i % 2 < 2 := Nat.mod_lt _ (by decide)
  unfold bits bitAt
  rw [pow_one, Bool.eq_iff_iff]
  simp only [bne_iff_ne, beq_iff_eq]
  omega

theorem State.fon_chCfg_en (s : State) (p : Nat) {c : Nat} (hc : c < 512) (v eff : Nat) :
    (s.feWriteLater p (0x100 + 2 * c) v eff).fon p (CH_CFG_EN c) = bitAt v 0 := by
  rw [State.fon, State.fget_chCfg_en s p hc, bits_one]

/-- Enabling a channel arms it 32 ns after the next fc cycle. -/
theorem State.opChCfg_enables {s : State} {p c v : Nat} (hc : c < 512) (hoff : s.fon p (CH_CFG_EN c) = false) (hon : bitAt v 0 = true)
    (t : Nat) : s.opChCfg p c t v = (s.feWriteLater p (0x100 + 2 * c) v (nextFc (s.mono t))).modCh p c fun h =>
      ({ h with armedFrom := some (nextFc (s.mono t) / 65536 + 32), armedTo := none, orphanNext := true } : Chan).rearm
        (nextFc (s.mono t) / 65536) (p * 512 + c) := by
  unfold State.opChCfg
  simp only [State.fon_chCfg_en s p hc, hoff, hon, Bool.not_false, Bool.and_self, if_true]

/-- Disabling it disarms it at the next fc cycle. -/
theorem State.opChCfg_disables {s : State} {p c v : Nat} (hc : c < 512) (hon : s.fon p (CH_CFG_EN c) = true)
    (hoff : bitAt v 0 = false) (t : Nat) :
    s.opChCfg p c t v = (s.feWriteLater p (0x100 + 2 * c) v (nextFc (s.mono t))).modCh p c fun h =>
      { h with armedTo := some (nextFc (s.mono t) / 65536) } := by
  unfold State.opChCfg
  simp only [State.fon_chCfg_en s p hc, hoff, hon, Bool.not_false, Bool.and_self, Bool.false_and, Bool.false_eq_true, if_false, if_true]

theorem nextFc_ns (tick t : Nat) : nextFc (tick * instPerFrame + t) / 65536 = tick * 4000 + (t / 65536 / 4 + 1) * 4 := by
  unfold nextFc instPerFrame
  omega

theorem channelEnable_clause {s : State} {p : PortIx} {q : FaceIx} {c : ChIx} {t : Inst} {v : W32} (hl : s.feLive p = true)
    (ho : s.writesObeyed p q = true) :
    (s.fon p (CH_CFG_EN c) = false → bitAt v.toNat 0 = true →
      ∃ u, exec (.channelEnable p q c t v) s = .next u ∧ u.fon p (CH_CFG_EN c) = true ∧
        (u.ch p c).armedFrom = some (s.tm.tick * 4000 + (t / 65536 / 4 + 1) * 4 + 32) ∧ (u.ch p c).armedTo = none ∧
        (u.ch p c).orphanNext = true ∧ (u.ch p c).hits = (s.ch p c).hits) ∧
    (s.fon p (CH_CFG_EN c) = true → bitAt v.toNat 0 = false →
      ∃ u, exec (.channelDisable p q c t v) s = .next u ∧ u.fon p (CH_CFG_EN c) = false ∧
        (u.ch p c).armedTo = some (s.tm.tick * 4000 + (t / 65536 / 4 + 1) * 4) ∧ (u.ch p c).hits = (s.ch p c).hits) := by
  have hex : (Host.Outcome.next (s.fePortWrite p q (0x100 + 2 * c.val) t v.toNat) : Out) =
      .next ((s.toInst t).feWrite p (0x100 + 2 * c.val) t v.toNat) := by rw [State.fePortWrite_permitted hl (.inl ho)]
  have heff := nextFc_ns s.tm.tick t
  rw [show s.tm.tick * instPerFrame + t = s.mono t from rfl] at heff
  refine ⟨fun hoff hon => ⟨_, hex, ?_⟩, fun hon hoff => ⟨_, hex, ?_⟩⟩
  all_goals rw [State.fon, State.feWrite_fget, State.feWrite_ch, State.feWriteWord_chCfg _ _ c.isLt]
  · rw [State.opChCfg_enables c.isLt (by rw [State.healCopies_fon, State.toInst_fon]; exact hoff) hon, State.ch_modCh, State.modCh_fget,
      State.feWriteLater_ch, State.healCopies_ch, State.toInst_ch, State.healCopies_mono, State.toInst_mono, heff]
    obtain ⟨a, b, hab⟩ := Chan.rearm_eq { s.ch p c with
      armedFrom := some (s.tm.tick * 4000 + (t / 65536 / 4 + 1) * 4 + 32), armedTo := none, orphanNext := true }
      (s.tm.tick * 4000 + (t / 65536 / 4 + 1) * 4) (p.val * 512 + c.val)
    rw [hab]
    exact ⟨(State.fon_chCfg_en _ _ c.isLt _ _).trans hon, rfl, rfl, rfl, rfl⟩
  · rw [State.opChCfg_disables c.isLt (by rw [State.healCopies_fon, State.toInst_fon]; exact hon) hoff, State.ch_modCh, State.modCh_fget,
      State.feWriteLater_ch, State.healCopies_ch, State.toInst_ch, State.healCopies_mono, State.toInst_mono, heff]
    exact ⟨(State.fon_chCfg_en _ _ c.isLt _ _).trans hoff, rfl, rfl⟩

/-! ### GATE_MODE_WRITE -/

theorem findReg_gateCfg : findReg feRegClasses 1 0x060 = some ([GATE_CFG_MODE, GATE_CFG_REC_EN], false) := by decide +kernel

theorem State.gatePend_fget (s : State) (p ns kind : Nat) (open_ : Bool) (slot cross q : Nat) (f : Fld) :
    (s.gatePend p ns kind open_ slot cross).fget q f = s.fget q f := by rw [State.gatePend, State.modFe_fget]

/-- With no gate command waiting, a write of the gate's mode makes it one that waits for the next fc cycle. -/
theorem State.opGateCfg_of_none {s : State} {p : Nat} (h : (s.fe p).gateCmds = []) (t v : Nat) :
    (s.opGateCfg p t v).fget p GATE_CFG_MODE = bits v 0 2 ∧ (s.opGateCfg p t v).fget p GATE_STAT_OPEN = s.fget p GATE_STAT_OPEN ∧
      ((s.opGateCfg p t v).fe p).gateCmds =
        [⟨s.tm.tick + (t / 65536 / 4 + 1) * 4 / 4000, (t / 65536 / 4 + 1) * 4 % 4000, 2, false, 0xFE, 0⟩] := by
  unfold State.opGateCfg
  rw [State.gateDrain_of_later (by simp [h])]
  refine ⟨?_, ?_, ?_⟩
  · rw [State.gatePend_fget, State.feWriteLater_fget, State.fget_feWriteReg_rw findReg_gateCfg (by decide) p v (by simp) rfl
      (by decide) (by decide)]
    rfl
  · rw [State.gatePend_fget, State.feWriteLater_fget, State.fget_feWriteReg_ne findReg_gateCfg _ _ (by
      simp [Fld.fkey, Fld.key, GATE_STAT_OPEN, GATE_CFG_MODE, GATE_CFG_REC_EN]), State.modFe_fget]
  · simp [State.gatePend, State.feWriteLater, h, gateInsert]

/-! ### SLICE_RETURN -/

/-- Writing ones to a write-one-to-clear field of 5 bits clears these bits. -/
theorem bitAt_cleared : ∀ (a m : Fin 32) (k : Fin 5), bitAt m k = true → bitAt (a.val - Nat.land a m) k = false := by decide +kernel

theorem bitAt_bits {v lo w i : Nat} (h : i < w) : bitAt (bits v lo w) i = bitAt v (lo + i) := by
  have hw : 2 ^ w = 2 ^ i * 2 ^ (w - i) := by rw [← Nat.pow_add, Nat.add_sub_cancel' h.le]
  have hpos : 2 ∣ 2 ^ (w - i) := dvd_pow_self 2 (by omega)
  unfold bitAt bits
  rw [hw, Nat.mod_mul_right_div_self, Nat.mod_mod_of_dvd _ hpos, Nat.div_div_eq_div_mul, ← Nat.pow_add]

/-- A write of the slice states with ones clears the failure bits written. -/
theorem State.fget_adcStat_fail (s : State) (p : Nat) (b : BlkIx) (v : Nat) {k : SliceIx} (hv : bitAt v (3 + k.val) = true) :
    bitAt ((s.feWriteReg p (0x504 + 8 * b.val) v).fget p (BLK_ADCSTAT_FAIL b)) k = false := by
  have hold : s.fget p (BLK_ADCSTAT_FAIL b) < 32 := s.fget_lt p (BLK_ADCSTAT_FAIL b)
  have hw : (BLK_ADCSTAT_FAIL b).written (s.fget p (BLK_ADCSTAT_FAIL b)) v false false true =
      s.fget p (BLK_ADCSTAT_FAIL b) - Nat.land (s.fget p (BLK_ADCSTAT_FAIL b)) (bits v 3 5) := by
    simp [Fld.written, Fld.inWord, Fld.merge, BLK_ADCSTAT_FAIL]
  rw [State.fget_feWriteReg (findReg_adcStat b) (by
    simp [Fld.key, BLK_ADCSTAT_SPARE, BLK_ADCSTAT_FAIL, BLK_ADCSTAT_NOSLICE, BLK_ADCSTAT_CLASH, BLK_ADCSTAT_PERR]) p v (by simp), hw]
  generalize s.fget p (BLK_ADCSTAT_FAIL b) = a at hold
  show bitAt ((a - Nat.land a (bits v 3 5)) % 32) k = false
  rw [Nat.mod_eq_of_lt (lt_of_le_of_lt (Nat.sub_le _ _) hold)]
  exact bitAt_cleared ⟨a, hold⟩ ⟨bits v 3 5, bits_lt v 3 5⟩ k ((bitAt_bits k.isLt).trans hv)

/-- The slices that a write returns to service. -/
theorem State.foldl_return_slice (p b : Nat) (f : Nat → Bool) (l : List Nat) (s : State) {k : Nat} (hk : f k = true)
    (h : k ∈ l ∨ (((s.blk p b).slice k).failed = false ∧ ((s.blk p b).slice k).calibrated = false)) :
    ((((l.foldl (fun z k => if f k then z.modBlk p b fun x => x.modSlice k fun y => { y with failed := false, calibrated := false }
        else z) s).blk p b).slice k).failed = false) ∧
      ((((l.foldl (fun z k => if f k then z.modBlk p b fun x => x.modSlice k fun y => { y with failed := false, calibrated := false }
        else z) s).blk p b).slice k).calibrated = false) := by
  induction l generalizing s with
  | nil => simpa using h
  | cons a r ih =>
    rw [List.foldl_cons]
    refine ih _ ?_
    by_cases ha : k = a
    · subst ha
      refine .inr ?_
      rw [if_pos hk, State.blk_modBlk, Blk.slice_modSlice]
      exact ⟨rfl, rfl⟩
    · rcases h with h | h
      · exact .inl ((List.mem_cons.1 h).resolve_left ha)
      · refine .inr ?_
        split
        · rw [State.blk_modBlk, Blk.slice_modSlice_ne _ _ ha]
          exact h
        · exact h

theorem State.foldl_return_freg (p b : Nat) (f : Nat → Bool) (l : List Nat) (s : State) :
    (l.foldl (fun z k => if f k then z.modBlk p b fun x => x.modSlice k fun y => { y with failed := false, calibrated := false }
      else z) s).freg = s.freg := by
  induction l generalizing s with
  | nil => rfl
  | cons a r ih =>
    rw [List.foldl_cons, ih]
    split <;> rfl

theorem State.opAdcStat_returns {s : State} {p : Nat} {b : BlkIx} {k : SliceIx} {v : Nat}
    (hf : bitAt (s.fget p (BLK_ADCSTAT_FAIL b)) k = true) (hv : bitAt v (3 + k.val) = true) :
    (((s.opAdcStat p b v).blk p b).slice k).failed = false ∧ (((s.opAdcStat p b v).blk p b).slice k).calibrated = false ∧
      bitAt ((s.opAdcStat p b v).fget p (BLK_ADCSTAT_FAIL b)) k = false := by
  unfold State.opAdcStat
  extract_lets old s1
  have hk : (bitAt old k && bitAt v (3 + k.val)) = true := by
    rw [hv, Bool.and_true]
    exact hf
  obtain ⟨h1, h2⟩ := State.foldl_return_slice p b (fun k => bitAt old k && bitAt v (3 + k)) (List.range 5) s1 hk
    (.inl (List.mem_range.2 k.isLt))
  refine ⟨h1, h2, ?_⟩
  rw [State.fget_of_freg (State.foldl_return_freg p b (fun k => bitAt old k && bitAt v (3 + k)) (List.range 5) s1)]
  exact s.fget_adcStat_fail p b v hv

/-! ### CHCNT_DATA_READ -/

/-- A read of the selected counter answers with its value and clears it. -/
theorem exec_chcntDataRead {s : State} {p : PortIx} (hl : s.feLive p = true) (q : FaceIx) :
    exec (.chcntDataRead p q) s = .next ((s.opChcntRead p).2.modLink p q fun x => { x with
      responses := x.responses ++ [(⟨8, 0, 0, 0x821, BitVec.ofNat 32 (s.opChcntRead p).1⟩, false)] }) := by
  show Host.Outcome.next (s.feRequest p q _) = _
  have hu : unknownWord 0x821 = false := by decide
  have ha : s.feAnswer p q { typ := 1, tid := 0, addr := 0x821, data := 0 } s.nowInst =
      (⟨8, 0, 0, 0x821, BitVec.ofNat 32 (s.opChcntRead p).1⟩, (s.opChcntRead p).2) := by
    simp [State.feAnswer, State.feRead, hu]
  unfold State.feRequest State.feRequestAt
  rw [ha]
  simp [hl, State.pushResp]

theorem chcntDataRead_clause {s : State} {p : PortIx} {q : FaceIx} {c : ChIx} (hl : s.feLive p = true)
    (hc : s.fget p CHCNT_SEL_CH = c.val) (hi : s.fget p CHCNT_SEL_IDX = 1) :
    ∃ u, exec (.chcntDataRead p q) s = .next u ∧ (u.ch p c).pileup = 0 ∧
      ((u.fe p).link q).responses = ((s.fe p).link q).responses ++ [(⟨8, 0, 0, 0x821, BitVec.ofNat 32 (s.ch p c).pileup⟩, false)] ∧
      (u.ch p c).orphan = (s.ch p c).orphan ∧ u = { s with chans := u.chans, fes := u.fes } := by
  have hread : s.opChcntRead p = ((s.ch p c).pileup, s.modCh p c fun h => { h with pileup := 0 }) := by
    unfold State.opChcntRead
    rw [hc, hi]
    rfl
  refine ⟨_, exec_chcntDataRead hl q, ?_⟩
  rw [hread]
  refine ⟨?_, ?_, ?_, rfl⟩
  · rw [State.modLink, State.modFe_ch, State.ch_modCh]
  · rw [State.modLink, State.fe_modFe, Fe.link_setLink_same, State.modCh_fe]
  · rw [State.modLink, State.modFe_ch, State.ch_modCh]

/-! ### Pattern tests -/

theorem ownWord_prbs (q : FaceIx) : ownWord q (0xF00 + 16 * q.val) = true ∧ ownWord q (0xF04 + 16 * q.val) = true := by
  revert q
  decide

theorem Fe.link_scrubDirty (x : Fe) (d : Bool) (q : Nat) : ({ x with scrubDirty := d } : Fe).link q = x.link q := rfl

theorem prbsStart_clause {s : State} {p : PortIx} {q : FaceIx} {v : W32} (hl : s.feLive p = true) (hv : bitAt v.toNat 2 = true) :
    ∃ u, exec (.prbsStart p q v) s = .next u ∧ ((u.fe p).link q).prbsArmed = true ∧
      u.fget p (PRBS_CTRL_PAT q) = bits v.toNat 0 2 ∧ u.fget p (PRBS_CTRL_DUR q) = bits v.toNat 3 16 := by
  have hpair : [PRBS_CTRL_PAT q, PRBS_CTRL_START q, PRBS_CTRL_DUR q].Pairwise fun f g => f.key ≠ g.key := by
    simp [Fld.key, PRBS_CTRL_PAT, PRBS_CTRL_START, PRBS_CTRL_DUR]
  refine ⟨_, congrArg Host.Outcome.next (State.fePortWrite_permitted hl (.inr (ownWord_prbs q).1) _ _), ?_⟩
  obtain ⟨d, hd⟩ := State.feWrite_fe (s.toInst s.nowInst) p (0xF00 + 16 * q.val) s.nowInst v.toNat
  rw [hd, Fe.link_scrubDirty, State.feWrite_fget, State.feWrite_fget, State.feWriteWord_prbs, hv, State.when_true, State.modLink,
    State.fe_modFe, Fe.link_setLink_same, State.modFe_fget, State.modFe_fget,
    State.fget_feWriteReg_rw (findReg_prbs q) hpair p v.toNat (by simp) rfl (by simp [PRBS_CTRL_PAT]) (by decide : 0 + 2 ≤ 32),
    State.fget_feWriteReg_rw (findReg_prbs q) hpair p v.toNat (by simp) rfl (by simp [PRBS_CTRL_DUR]) (by decide : 3 + 16 ≤ 32)]
  exact ⟨rfl, rfl, rfl⟩

theorem prbsInject_clause {s : State} {p : PortIx} {q : FaceIx} {v : W32} (hl : s.feLive p = true) (h0 : bitAt v.toNat 0 = true)
    (h7 : bitAt v.toNat 7 = true) (h1 : bitAt v.toNat 1 = true) :
    ∃ u, exec (.prbsInject p q v) s = .next u ∧ ((u.fe p).link q).injectNext = some (bits v.toNat 2 5 + 1) := by
  refine ⟨_, congrArg Host.Outcome.next (State.fePortWrite_permitted hl (.inr (ownWord_prbs q).2) _ _), ?_⟩
  obtain ⟨d, hd⟩ := State.feWrite_fe (s.toInst s.nowInst) p (0xF04 + 16 * q.val) s.nowInst v.toNat
  rw [hd, Fe.link_scrubDirty, State.feWriteWord_inject, h0, State.when_true, State.injectUp]
  simp only [h7, h1, if_true]
  rw [State.modLink, State.fe_modFe, Fe.link_setLink_same]

/-- Settles O19. -/
theorem writesWithAnEffectOfTheirOwn : Obligations.WritesWithAnEffectOfTheirOwn := by
  refine ⟨fun s p q c t v hl ho => channelEnable_clause hl ho, fun s p q t v hl ho hg => ?gate, fun s p q b k v hl ho hf hv => ?slice,
    fun s p q c hl hc hi => chcntDataRead_clause hl hc hi,
    fun s p q v hl => ⟨prbsStart_clause hl, prbsInject_clause hl⟩⟩
  case gate =>
    refine ⟨_, congrArg Host.Outcome.next (State.fePortWrite_permitted hl (.inl ho) _ _), ?_⟩
    obtain ⟨d, hd⟩ := State.feWrite_fe (s.toInst t) p 0x060 t v.toNat
    obtain ⟨h1, h2, h3⟩ := State.opGateCfg_of_none (s := ((s.toInst t).healCopies p 0x060).2) (p := p)
      (by rw [State.healCopies_gateCmds, State.toInst_fe]; exact hg) t v.toNat
    rw [State.fon, State.feWrite_fget, State.feWrite_fget, hd, State.feWriteWord_gateCfg, h1, h2, State.healCopies_fget,
      State.toInst_fget, ← State.fon]
    refine ⟨rfl, ?_, rfl⟩
    rw [State.healCopies_tm, State.toInst_tick] at h3
    rw [← h3]
  case slice =>
    refine ⟨_, congrArg Host.Outcome.next (State.fePortWrite_permitted hl (.inl ho) _ _), ?_⟩
    rw [State.feWrite_blk, State.feWrite_fget, State.feWriteWord_adcStat _ _ b.isLt]
    exact State.opAdcStat_returns (by rw [State.healCopies_fget, State.toInst_fget]; exact hf) hv

end Sys2Proof.Machine

/-! ## SYNC sets and the receive clock of a front-end -/

namespace Sys2Proof.Machine

set_option Elab.async false

/-! ### What changes of a face leave -/

@[simp] theorem State.modLink_link (s : State) (p q : Nat) (g : FeLink → FeLink) :
    ((s.modLink p q g).fe p).link q = g ((s.fe p).link q) := by
  rw [State.modLink, State.fe_modFe, Fe.link_setLink_same]

/-- What a front-end holds outside its two faces. -/
theorem Fe.setLink_eq (x : Fe) (q : Nat) (l : FeLink) :
    x.setLink q l = { x with link0 := (x.setLink q l).link0, link1 := (x.setLink q l).link1 } := by
  unfold Fe.setLink
  split <;> rfl

@[simp] theorem State.modLink_sec (s : State) (p q : Nat) (g : FeLink → FeLink) : ((s.modLink p q g).fe p).sec = (s.fe p).sec := by
  rw [State.modLink, State.fe_modFe, Fe.setLink_eq]
@[simp] theorem State.modLink_fis (s : State) (p q : Nat) (g : FeLink → FeLink) : ((s.modLink p q g).fe p).fis = (s.fe p).fis := by
  rw [State.modLink, State.fe_modFe, Fe.setLink_eq]
@[simp] theorem State.modLink_atTick (s : State) (p q : Nat) (g : FeLink → FeLink) :
    ((s.modLink p q g).fe p).atTick = (s.fe p).atTick := by
  rw [State.modLink, State.fe_modFe, Fe.setLink_eq]
@[simp] theorem State.modLink_factsNow (s : State) (p q : Nat) (g : FeLink → FeLink) :
    ((s.modLink p q g).fe p).factsNow = (s.fe p).factsNow := by
  rw [State.modLink, State.fe_modFe, Fe.setLink_eq]

@[simp] theorem State.modFacts_link (s : State) (p q : Nat) (g : FrameFacts → FrameFacts) :
    ((s.modFacts p g).fe p).link q = (s.fe p).link q := by
  rw [State.modFacts, State.fe_modFe]
  rfl
@[simp] theorem State.modFacts_sec (s : State) (p : Nat) (g : FrameFacts → FrameFacts) : ((s.modFacts p g).fe p).sec = (s.fe p).sec := by
  rw [State.modFacts, State.fe_modFe]
@[simp] theorem State.modFacts_fis (s : State) (p : Nat) (g : FrameFacts → FrameFacts) : ((s.modFacts p g).fe p).fis = (s.fe p).fis := by
  rw [State.modFacts, State.fe_modFe]
@[simp] theorem State.modFacts_atTick (s : State) (p : Nat) (g : FrameFacts → FrameFacts) :
    ((s.modFacts p g).fe p).atTick = (s.fe p).atTick := by
  rw [State.modFacts, State.fe_modFe]
@[simp] theorem State.modFacts_factsNow (s : State) (p : Nat) (g : FrameFacts → FrameFacts) :
    ((s.modFacts p g).fe p).factsNow = g (s.fe p).factsNow := by
  rw [State.modFacts, State.fe_modFe]

@[simp] theorem State.feLoad_fget (s : State) (p : Nat) (x : SyncInfo) (r : Nat) (f : Fld) : (s.feLoad p x).fget r f = s.fget r f := rfl
@[simp] theorem State.feLoad_link (s : State) (p q : Nat) (x : SyncInfo) : ((s.feLoad p x).fe p).link q = (s.fe p).link q := by
  rw [State.feLoad, State.fe_modFe]
  rfl
theorem State.feLoad_time (s : State) (p : Nat) (x : SyncInfo) :
    ((s.feLoad p x).fe p).sec = x.sec ∧ ((s.feLoad p x).fe p).fis = x.fis ∧ ((s.feLoad p x).fe p).atTick = s.tm.tick + 1 := by
  rw [State.feLoad, State.fe_modFe]
  exact ⟨rfl, rfl, rfl⟩

theorem FeRegsSame.modLink {s t : State} {fs : List (Nat × Fld)} (h : FeRegsSame s t fs) (p q : Nat) (g : FeLink → FeLink) :
    FeRegsSame s (t.modLink p q g) fs := h

/-! ### The parts of a SYNC set -/

theorem bodyNat_lt_256 (b : List Byte) (i : Nat) : bodyNat b i 1 < 256 := by
  have h : ∀ l : List Byte, ofBytes (l.take 1) < 256 := by
    intro l
    cases l with
    | nil => decide
    | cons x r => simpa [ofBytes] using x.isLt
  exact h _

/-- The state and the claim of a set that was read fit their fields. -/
theorem syncInfo_bounds {x : SyncSet} {i : SyncInfo} (h : syncInfo x = some i) : i.state < 8 ∧ i.claim < 256 := by
  unfold syncInfo at h
  split at h
  · split at h
    · obtain ⟨b, -, hb⟩ := Option.bind_eq_some_iff.1 h
      unfold readSync at hb
      split at hb
      · cases hb
        exact ⟨bits_lt _ _ _, bodyNat_lt_256 _ _⟩
      · cases hb
    · cases h
  · cases h

/-- The counting of line errors touches that counter and the alarm of the frame. -/
theorem State.lineErrs_fget_ne (s : State) (p q n : Nat) {f : Fld} (h : f.fkey p ≠ (LNK_ERR_CODE q).fkey p) :
    (s.lineErrs p q n).fget p f = s.fget p f := by
  unfold State.lineErrs
  split
  · rfl
  · exact s.fget_fset_ne p p _ _ _ h

theorem State.lineErrs_code (s : State) (p q n : Nat) :
    (s.lineErrs p q n).fget p (LNK_ERR_CODE q) = min (s.fget p (LNK_ERR_CODE q) + n) 65535 := by
  unfold State.lineErrs
  split
  next h =>
    have := s.fget_lt p (LNK_ERR_CODE q)
    simp only [LNK_ERR_CODE] at this ⊢
    omega
  next => exact s.fget_fadd_sat p _ n

theorem State.lineErrs_fe (s : State) (p q n : Nat) : ∃ g, (s.lineErrs p q n).fe p = { s.fe p with factsNow := g } := by
  unfold State.lineErrs
  split
  · exact ⟨_, rfl⟩
  · exact ⟨_, by rw [State.modFacts, State.fe_modFe]; rfl⟩

theorem State.lineErrs_tm (s : State) (p q n : Nat) : (s.lineErrs p q n).tm = s.tm := by
  unfold State.lineErrs
  split <;> rfl

/-- Where a SYNC set of a face begins: its line errors counted, its phase taken. -/
def State.syncSeen (s : State) (p q : Nat) (x : SyncSet) : State :=
  (s.lineErrs p q (syncErrs x)).syncPh p q x (syncInfo x).isSome

section
variable (s : State) (p q : Nat) (x : SyncSet)

theorem State.syncSeen_fget_ne {f : Fld} (h : f.fkey p ≠ (LNK_ERR_CODE q).fkey p) : (s.syncSeen p q x).fget p f = s.fget p f :=
  s.lineErrs_fget_ne p q _ h

theorem State.syncSeen_code : (s.syncSeen p q x).fget p (LNK_ERR_CODE q) = min (s.fget p (LNK_ERR_CODE q) + syncErrs x) 65535 :=
  s.lineErrs_code p q _

theorem State.syncSeen_link : ((s.syncSeen p q x).fe p).link q =
    { (s.fe p).link q with ph := roundDivI x.ph 16 * 16, phOk := (syncInfo x).isSome } := by
  obtain ⟨g, hg⟩ := s.lineErrs_fe p q (syncErrs x)
  rw [State.syncSeen, State.syncPh, State.modLink_link, hg]
  rfl

theorem State.syncSeen_time : ((s.syncSeen p q x).fe p).sec = (s.fe p).sec ∧ ((s.syncSeen p q x).fe p).fis = (s.fe p).fis ∧
    ((s.syncSeen p q x).fe p).atTick = (s.fe p).atTick := by
  obtain ⟨g, hg⟩ := s.lineErrs_fe p q (syncErrs x)
  simp only [State.syncSeen, State.syncPh, State.modLink_sec, State.modLink_fis, State.modLink_atTick, hg, and_self]

theorem State.syncSeen_tm : (s.syncSeen p q x).tm = s.tm := s.lineErrs_tm p q _

theorem State.syncSeen_feFrame : (s.syncSeen p q x).feFrame p = s.feFrame p := by
  obtain ⟨hsec, hfis, hat⟩ := s.syncSeen_time p q x
  simp only [State.feFrame, hsec, hfis, hat, s.syncSeen_tm]

theorem State.syncSeen_lnk : (s.syncSeen p q x).lnk p q = s.lnk p q :=
  s.syncSeen_fget_ne p q x (by simp [Fld.fkey, Fld.key, LNK_STAT_STATE, LNK_ERR_CODE])

end

/-- A set that cannot be read. -/
def State.syncBad (s : State) (p q n : Nat) : State :=
  ((s.fbump p (LNK_ERR_SYNC q)).modFacts p fun f => { f with linkAlarm := true }).modLink p q
    fun l => { l with bad := true, badRun := n, goodRun := 0 }

/-- A set that can be read. -/
def State.syncGood (s : State) (p q : Nat) (i : SyncInfo) : State := ((s.syncTime p q i).syncClaim p q i).syncState p q i

theorem exec_syncSet {s : State} {p : PortIx} {q : FaceIx} (hl : s.feLive p = true) (h7 : s.lnk p q ≠ 7) (x : SyncSet) :
    exec (.syncSet p q x) s = .next
      (match syncInfo x with
      | none =>
        if 4 ≤ ((s.fe p).link q).badRun + 1 ∧ 2 ≤ s.lnk p q then
          ((s.syncSeen p q x).syncBad p q (((s.fe p).link q).badRun + 1)).feFall p q 1
        else (s.syncSeen p q x).syncBad p q (((s.fe p).link q).badRun + 1)
      | some i =>
        if i.lrst then ((s.syncSeen p q x).linkReset p q).feLoad p i else (s.syncSeen p q x).syncGood p q i) := by
  show execSyncSet p q x s = _
  unfold execSyncSet
  simp only [hl, h7, Bool.not_true, decide_false, Bool.or_self, Bool.false_eq_true, if_false]
  have hlink := s.syncSeen_link p q x
  have hlnk := s.syncSeen_lnk p q x
  unfold State.syncSeen at hlink hlnk
  simp only [hlink, hlnk] <;> rfl

/-! ### A fall, a reset and a bad set -/

section
variable (s : State) (p q st : Nat)

theorem State.feFall_fget_ne {f : Fld} (h1 : f.fkey p ≠ (LNK_STAT_STATE q).fkey p) (h2 : f.fkey p ≠ (LNK_STAT_DOWNS q).fkey p)
    (h3 : f.fkey p ≠ (PRBS_STAT_RUNNING q).fkey p) : (s.feFall p q st).fget p f = s.fget p f := by
  rw [State.feFall, State.modLink_fget, State.fget_fset_ne _ _ _ _ _ _ h3, State.fget_fbump_ne _ _ _ _ _ h2,
    State.fget_fset_ne _ _ _ _ _ _ h1]

/-- The fields of a fall differ. -/
theorem fallKeys : (LNK_STAT_STATE q).fkey p ≠ (LNK_STAT_DOWNS q).fkey p ∧
    (LNK_STAT_STATE q).fkey p ≠ (PRBS_STAT_RUNNING q).fkey p ∧ (LNK_STAT_DOWNS q).fkey p ≠ (PRBS_STAT_RUNNING q).fkey p := by
  simp only [Fld.fkey, Fld.key, LNK_STAT_STATE, LNK_STAT_DOWNS, PRBS_STAT_RUNNING]
  omega

theorem State.feFall_lnk (h : st < 8) : (s.feFall p q st).lnk p q = st := by
  obtain ⟨h1, h2, -⟩ := fallKeys p q
  rw [State.lnk, State.feFall, State.modLink_fget, State.fget_fset_ne _ _ _ _ _ _ h2, State.fget_fbump_ne _ _ _ _ _ h1]
  exact s.fget_fset_of_lt p h

theorem State.feFall_downs :
    (s.feFall p q st).fget p (LNK_STAT_DOWNS q) = min (s.fget p (LNK_STAT_DOWNS q) + 1) 255 := by
  obtain ⟨h1, -, h3⟩ := fallKeys p q
  rw [State.feFall, State.modLink_fget, State.fget_fset_ne _ _ _ _ _ _ h3, State.fget_fbump_sat,
    State.fget_fset_ne _ _ _ _ _ _ h1.symm]
  rfl

theorem State.feFall_fe : ((s.feFall p q st).fe p).sec = (s.fe p).sec ∧ ((s.feFall p q st).fe p).fis = (s.fe p).fis ∧
    ((s.feFall p q st).fe p).factsNow = (s.fe p).factsNow ∧ ((s.feFall p q st).fe p).link q =
      { (s.fe p).link q with goodRun := 0, badRun := 0, mismatchRun := 0, uplinkOn := decide (st ≠ 0), phOk := false } := by
  rw [State.feFall, State.modLink_sec, State.modLink_fis, State.modLink_factsNow, State.modLink_link]
  exact ⟨rfl, rfl, rfl, rfl⟩

end

/-- The fields that a reset of a face clears. -/
def linkCleared (q : Nat) : List Fld :=
  [LNK_STAT_STATE q, LNK_STAT_OWNER q, LNK_STAT_CLAIM q, LNK_STAT_SILENT q, LNK_STAT_VER_ERR q, LNK_STAT_DOWNS q,
    LNK_ERR_CODE q, LNK_ERR_FC q, LNK_ERR_SYNC q, LNK_SC_RS_CORR q, LNK_SC_RS_UNC q, LNK_SC_ERR_RESP q, LNK_SC_RESP_LOST q,
    LNK_TIME_MISMATCH q, LNK_TIME_LOADS q, LNK_TIME_FORCED q, LNK_EQ_FOUND q]

theorem linkCleared_pairwise (q : Nat) : (linkCleared q).Pairwise fun f g => f.key ≠ g.key := by
  simp [linkCleared, Fld.key, LNK_STAT_STATE, LNK_STAT_OWNER, LNK_STAT_CLAIM, LNK_STAT_SILENT, LNK_STAT_VER_ERR, LNK_STAT_DOWNS,
    LNK_ERR_CODE, LNK_ERR_FC, LNK_ERR_SYNC, LNK_SC_RS_CORR, LNK_SC_RS_UNC, LNK_SC_ERR_RESP, LNK_SC_RESP_LOST, LNK_TIME_MISMATCH,
    LNK_TIME_LOADS, LNK_TIME_FORCED, LNK_EQ_FOUND]
  omega

theorem State.linkReset_eq (s : State) (p q : Nat) : s.linkReset p q =
    ((linkCleared q).foldl (fun z f => z.fset p f 0) s).modLink p q fun l => { l with
      uplinkOn := false, lrstTimer := true, goodRun := 0, badRun := 0, mismatchRun := 0, latch := [], claimCmd := false,
      phOk := false } := by
  unfold State.linkReset linkCleared
  rfl

theorem State.foldl_fset_fe (p : Nat) (w : Fld → Nat) (fs : List Fld) (s : State) (r : Nat) :
    (fs.foldl (fun z f => z.fset p f (w f)) s).fe r = s.fe r := by
  rw [State.foldl_fset_same]
  rfl

theorem State.linkReset_zero (s : State) (p q : Nat) {f : Fld} (h : f ∈ linkCleared q) : (s.linkReset p q).fget p f = 0 := by
  rw [State.linkReset_eq, State.modLink_fget]
  exact (State.foldl_fset_fget_mem p (fun _ => 0) (linkCleared_pairwise q) s h).trans (Nat.zero_mod _)

theorem State.linkReset_link (s : State) (p q : Nat) : ((s.linkReset p q).fe p).link q =
    { (s.fe p).link q with uplinkOn := false, lrstTimer := true, goodRun := 0, badRun := 0, mismatchRun := 0, latch := [],
                           claimCmd := false, phOk := false } := by
  rw [State.linkReset_eq, State.modLink_link, State.foldl_fset_fe p (fun _ => 0)]

section
variable (s : State) (p q n : Nat)

theorem State.syncBad_fget_ne {f : Fld} (h : f.fkey p ≠ (LNK_ERR_SYNC q).fkey p) : (s.syncBad p q n).fget p f = s.fget p f :=
  s.fget_fbump_ne p p _ _ h

theorem State.syncBad_errSync : (s.syncBad p q n).fget p (LNK_ERR_SYNC q) = min (s.fget p (LNK_ERR_SYNC q) + 1) 255 :=
  s.fget_fbump_sat p _

theorem State.syncBad_fe : ((s.syncBad p q n).fe p).sec = (s.fe p).sec ∧ ((s.syncBad p q n).fe p).fis = (s.fe p).fis ∧
    ((s.syncBad p q n).fe p).factsNow.linkAlarm = true ∧
    ((s.syncBad p q n).fe p).link q = { (s.fe p).link q with bad := true, badRun := n, goodRun := 0 } := by
  simp [State.syncBad]

end

/-- The counters of a bad set lie in fields of their own. -/
theorem syncKeys (p q : Nat) : (LNK_ERR_SYNC q).fkey p ≠ (LNK_ERR_CODE q).fkey p ∧
    (LNK_STAT_STATE q).fkey p ≠ (LNK_ERR_SYNC q).fkey p ∧ (LNK_STAT_DOWNS q).fkey p ≠ (LNK_ERR_SYNC q).fkey p ∧
    (LNK_STAT_DOWNS q).fkey p ≠ (LNK_ERR_CODE q).fkey p := by
  simp only [Fld.fkey, Fld.key, LNK_STAT_STATE, LNK_STAT_DOWNS, LNK_ERR_SYNC, LNK_ERR_CODE]
  omega

theorem State.feFall_errs (s : State) (p q st : Nat) :
    (s.feFall p q st).fget p (LNK_ERR_SYNC q) = s.fget p (LNK_ERR_SYNC q) ∧
      (s.feFall p q st).fget p (LNK_ERR_CODE q) = s.fget p (LNK_ERR_CODE q) := by
  constructor <;> refine s.feFall_fget_ne p q st ?_ ?_ ?_ <;>
    simp only [Fld.fkey, Fld.key, LNK_STAT_STATE, LNK_STAT_DOWNS, LNK_ERR_SYNC, LNK_ERR_CODE, PRBS_STAT_RUNNING] <;> omega

theorem syncSet_bad {s : State} {p : PortIx} {q : FaceIx} {x : SyncSet} (hl : s.feLive p = true) (hx : syncInfo x = none)
    (h2 : 2 ≤ s.lnk p q) (h7 : s.lnk p q ≠ 7) :
    ∃ u, exec (.syncSet p q x) s = .next u ∧ u.fget p (LNK_ERR_SYNC q) = min (s.fget p (LNK_ERR_SYNC q) + 1) 255 ∧
        u.fget p (LNK_ERR_CODE q) = min (s.fget p (LNK_ERR_CODE q) + syncErrs x) 65535 ∧
        (u.fe p).factsNow.linkAlarm = true ∧ (u.fe p).sec = (s.fe p).sec ∧ (u.fe p).fis = (s.fe p).fis ∧
        (((s.fe p).link q).badRun = 3 → u.lnk p q = 1 ∧ u.fget p (LNK_STAT_DOWNS q) = min (s.fget p (LNK_STAT_DOWNS q) + 1) 255) ∧
        (((s.fe p).link q).badRun < 3 → u.lnk p q = s.lnk p q) := by
  obtain ⟨hsc, hts, hds, hdc⟩ := syncKeys p q
  obtain ⟨hsec, hfis, -⟩ := s.syncSeen_time p q x
  obtain ⟨bsec, bfis, balarm, -⟩ := (s.syncSeen p q x).syncBad_fe p q (((s.fe p).link q).badRun + 1)
  have berr := (s.syncSeen p q x).syncBad_errSync p q (((s.fe p).link q).badRun + 1)
  have bcode := (s.syncSeen p q x).syncBad_fget_ne p q (((s.fe p).link q).badRun + 1) hsc.symm
  have bdowns := (s.syncSeen p q x).syncBad_fget_ne p q (((s.fe p).link q).badRun + 1) hds
  have blnk : ((s.syncSeen p q x).syncBad p q (((s.fe p).link q).badRun + 1)).lnk p q = s.lnk p q :=
    ((s.syncSeen p q x).syncBad_fget_ne p q _ hts).trans (s.syncSeen_lnk p q x)
  rw [s.syncSeen_fget_ne p q x hsc] at berr
  rw [s.syncSeen_code p q x] at bcode
  rw [s.syncSeen_fget_ne p q x hdc] at bdowns
  have he := exec_syncSet hl h7 x
  rw [hx] at he
  refine ⟨_, he, ?_⟩
  generalize (s.syncSeen p q x).syncBad p q (((s.fe p).link q).badRun + 1) = z at bsec bfis balarm berr bcode bdowns blnk ⊢
  dsimp only
  split
  next h4 =>
    obtain ⟨fsec, ffis, ffacts, -⟩ := z.feFall_fe p q 1
    obtain ⟨ferr, fcode⟩ := z.feFall_errs p q 1
    refine ⟨ferr.trans berr, fcode.trans bcode, by rw [ffacts, balarm], fsec.trans (bsec.trans hsec), ffis.trans (bfis.trans hfis),
      fun _ => ⟨z.feFall_lnk p q 1 (by decide), ?_⟩, fun h => by omega⟩
    rw [z.feFall_downs, bdowns]
  next h4 =>
    exact ⟨berr, bcode, balarm, bsec.trans hsec, bfis.trans hfis, fun h => absurd ⟨by omega, h2⟩ h4, fun _ => blnk⟩

theorem syncSet_reset {s : State} {p : PortIx} {q : FaceIx} {x : SyncSet} (hl : s.feLive p = true) {i : SyncInfo}
    (hx : syncInfo x = some i) (hr : i.lrst = true) (h7 : s.lnk p q ≠ 7) :
    ∃ u, exec (.syncSet p q x) s = .next u ∧ u.lnk p q = 0 ∧ u.fget p (LNK_STAT_CLAIM q) = 0 ∧ u.fget p (LNK_EQ_FOUND q) = 0 ∧
        ((u.fe p).link q).uplinkOn = false ∧ ((u.fe p).link q).lrstTimer = true := by
  have he := exec_syncSet hl h7 x
  rw [hx] at he
  dsimp only at he
  rw [hr, if_pos rfl] at he
  refine ⟨_, he, ?_⟩
  rw [State.lnk, State.feLoad_fget, State.feLoad_fget, State.feLoad_fget, State.feLoad_link, State.linkReset_link]
  exact ⟨State.linkReset_zero _ p q (by simp [linkCleared]), State.linkReset_zero _ p q (by simp [linkCleared]),
    State.linkReset_zero _ p q (by simp [linkCleared]), rfl, rfl⟩

/-! ### A set that can be read -/

section
variable (s : State) (p q : Nat) (i : SyncInfo)

/-- The times that a set leaves are those after its comparison. -/
theorem State.syncClaim_time : ((s.syncClaim p q i).fe p).sec = (s.fe p).sec ∧ ((s.syncClaim p q i).fe p).fis = (s.fe p).fis ∧
    ((s.syncClaim p q i).fe p).atTick = (s.fe p).atTick ∧ ((s.syncClaim p q i).fe p).link q =
      { (s.fe p).link q with claimMismatch := (((s.syncClaim p q i).fe p).link q).claimMismatch } := by
  unfold State.syncClaim
  simp only []
  split
  · simp
  · split
    · simp
    · split <;> simp

theorem State.syncClaim_fget_ne {f : Fld} (h1 : f.fkey p ≠ (LNK_STAT_CLAIM q).fkey p) (h2 : f.fkey p ≠ OWN_STAT_CLAIM_ERR.fkey p) :
    (s.syncClaim p q i).fget p f = s.fget p f := by
  unfold State.syncClaim
  simp only []
  split
  · rfl
  · split
    · exact s.fget_fset_ne p p _ _ _ h1
    · split
      · rfl
      · exact s.fget_fbump_ne p p _ _ h2

theorem State.followState_fe (st : Nat) : (s.followState p q st).fe p = s.fe p := by
  unfold State.followState State.when
  split <;> rfl

theorem State.followState_fget (st : Nat) (f : Fld) : (s.followState p q st).fget p f = (s.fset p (LNK_STAT_STATE q) st).fget p f := by
  unfold State.followState State.when
  split <;> rfl

/-- A good set counts, and its state may be followed. -/
theorem State.syncState_fe : (s.syncState p q i).fe p =
    (s.modLink p q fun l => { l with goodRun := ((s.fe p).link q).goodRun + 1, badRun := 0, bad := false }).fe p := by
  unfold State.syncState
  simp only []
  split
  · rfl
  · split
    · exact State.followState_fe _ p q _
    · split
      · exact State.followState_fe _ p q _
      · rfl

theorem State.syncState_fget_ne {f : Fld} (h : f.fkey p ≠ (LNK_STAT_STATE q).fkey p) : (s.syncState p q i).fget p f = s.fget p f := by
  have hf : ∀ (z : State) (st : Nat), (z.followState p q st).fget p f = z.fget p f := fun z st => by
    rw [State.followState_fget, State.fget_fset_ne _ _ _ _ _ _ h]
  unfold State.syncState
  simp only []
  split
  · rfl
  · split
    · exact hf _ _
    · split
      · exact hf _ _
      · rfl

theorem State.syncState_lnk (h7 : i.state ≠ 7) (h2 : 2 ≤ s.lnk p q) (h8 : i.state < 8) : (s.syncState p q i).lnk p q = i.state := by
  unfold State.syncState
  simp only [h7, h2, if_false, if_true]
  rw [State.lnk, State.followState_fget]
  exact State.fget_fset_of_lt _ p h8

/-- The measured phase stays with the set. -/
theorem State.syncTime_ph : (((s.syncTime p q i).fe p).link q).ph = ((s.fe p).link q).ph := by
  unfold State.syncTime
  simp only []
  split
  · simp
  · split
    · simp
    · split
      · simp
      · split <;> simp

theorem State.syncGood_fe : ((s.syncGood p q i).fe p).sec = ((s.syncTime p q i).fe p).sec ∧
    ((s.syncGood p q i).fe p).fis = ((s.syncTime p q i).fe p).fis ∧
    ((s.syncGood p q i).fe p).atTick = ((s.syncTime p q i).fe p).atTick ∧
    (((s.syncGood p q i).fe p).link q).ph = ((s.fe p).link q).ph := by
  obtain ⟨csec, cfis, cat, clink⟩ := (s.syncTime p q i).syncClaim_time p q i
  have hph := s.syncTime_ph p q i
  rw [State.syncGood, State.syncState_fe, State.modLink_sec, State.modLink_fis, State.modLink_atTick, State.modLink_link, clink]
  exact ⟨csec, cfis, cat, hph⟩

theorem State.syncGood_fget_ne {f : Fld} (h1 : f.fkey p ≠ (LNK_STAT_CLAIM q).fkey p) (h2 : f.fkey p ≠ OWN_STAT_CLAIM_ERR.fkey p)
    (h3 : f.fkey p ≠ (LNK_STAT_STATE q).fkey p) : (s.syncGood p q i).fget p f = (s.syncTime p q i).fget p f :=
  (State.syncState_fget_ne _ p q i h3).trans (State.syncClaim_fget_ne _ p q i h1 h2)

end

/-- The times counted by a set lie in fields of their own. -/
theorem timeKeys (p q : Nat) {f : Fld} (h : f = LNK_TIME_LOADS q ∨ f = LNK_TIME_FORCED q ∨ f = LNK_TIME_MISMATCH q) :
    f.fkey p ≠ (LNK_STAT_CLAIM q).fkey p ∧ f.fkey p ≠ OWN_STAT_CLAIM_ERR.fkey p ∧ f.fkey p ≠ (LNK_STAT_STATE q).fkey p ∧
      f.fkey p ≠ (LNK_ERR_CODE q).fkey p := by
  rcases h with rfl | rfl | rfl <;>
    simp only [Fld.fkey, Fld.key, LNK_TIME_LOADS, LNK_TIME_FORCED, LNK_TIME_MISMATCH, LNK_STAT_CLAIM, OWN_STAT_CLAIM_ERR,
      LNK_STAT_STATE, LNK_ERR_CODE] <;> omega

theorem exec_syncSet_good {s : State} {p : PortIx} {q : FaceIx} {x : SyncSet} (hl : s.feLive p = true) {i : SyncInfo}
    (hx : syncInfo x = some i) (hr : i.lrst = false) (h7 : s.lnk p q ≠ 7) :
    exec (.syncSet p q x) s = .next ((s.syncSeen p q x).syncGood p q i) := by
  rw [exec_syncSet hl h7, hx]
  simp only [hr, Bool.false_eq_true, if_false]

theorem syncSet_load {s : State} {p : PortIx} {q : FaceIx} {x : SyncSet} (hl : s.feLive p = true) {i : SyncInfo}
    (hx : syncInfo x = some i) (hr : i.lrst = false) (hload : i.load = true) (h6 : s.lnk p q = 6) (h7 : i.state ≠ 7)
    (hv : s.fget p (LNK_VER_SEL q) = 2) (hc : ((s.fe p).link q).claimCmd = true) :
    ∃ u, exec (.syncSet p q x) s = .next u ∧ (u.fe p).sec = i.sec ∧ (u.fe p).fis = i.fis ∧
        (u.fe p).atTick = s.tm.tick + 1 ∧ u.fget p (LNK_TIME_LOADS q) = min (s.fget p (LNK_TIME_LOADS q) + 1) 255 ∧
        u.lnk p q = i.state ∧ u.fget p (LNK_STAT_CLAIM q) = i.claim := by
  obtain ⟨hst, hcl⟩ := syncInfo_bounds hx
  obtain ⟨k1, k2, k3, k4⟩ := timeKeys p q (.inl rfl)
  refine ⟨_, exec_syncSet_good hl hx hr (by omega), ?_⟩
  have hz : (s.syncSeen p q x).syncTime p q i =
      (((s.syncSeen p q x).feLoad p i).fbump p (LNK_TIME_LOADS q)).modLink p q fun l => { l with mismatchRun := 0 } := by
    unfold State.syncTime
    rw [if_pos hload]
  obtain ⟨lsec, lfis, lat⟩ := (s.syncSeen p q x).feLoad_time p i
  obtain ⟨gsec, gfis, gat, -⟩ := (s.syncSeen p q x).syncGood_fe p q i
  rw [hz, State.modLink_sec, State.fbump_fe, lsec] at gsec
  rw [hz, State.modLink_fis, State.fbump_fe, lfis] at gfis
  rw [hz, State.modLink_atTick, State.fbump_fe, lat, s.syncSeen_tm] at gat
  have zver : ((s.syncSeen p q x).syncTime p q i).fget p (LNK_VER_SEL q) = 2 := by
    rw [hz, State.modLink_fget, State.fget_fbump_ne, State.feLoad_fget, State.syncSeen_fget_ne, hv] <;>
      simp only [Fld.fkey, Fld.key, LNK_VER_SEL, LNK_TIME_LOADS, LNK_ERR_CODE] <;> omega
  have zlnk : ((s.syncSeen p q x).syncTime p q i).lnk p q = 6 := by
    rw [State.lnk, hz, State.modLink_fget, State.fget_fbump_ne _ _ _ _ _ k3.symm, State.feLoad_fget]
    exact (s.syncSeen_lnk p q x).trans h6
  have zcmd : ((((s.syncSeen p q x).syncTime p q i).fe p).link q).claimCmd = true := by
    rw [hz, State.modLink_link, State.fbump_fe, State.feLoad_link, s.syncSeen_link]
    exact hc
  have hclaim : ((s.syncSeen p q x).syncTime p q i).syncClaim p q i =
      (((s.syncSeen p q x).syncTime p q i).fset p (LNK_STAT_CLAIM q) i.claim).modLink p q fun l => { l with claimMismatch := false } := by
    unfold State.syncClaim
    simp only [zver, zcmd, ne_eq, not_true_eq_false, if_false, if_true]
  have kst : (LNK_STAT_STATE q).fkey p ≠ (LNK_STAT_CLAIM q).fkey p := by
    simp only [Fld.fkey, Fld.key, LNK_STAT_STATE, LNK_STAT_CLAIM]
    omega
  have clnk : (((s.syncSeen p q x).syncTime p q i).syncClaim p q i).lnk p q = 6 := by
    rw [hclaim, State.lnk, State.modLink_fget, State.fget_fset_ne _ _ _ _ _ _ kst]
    exact zlnk
  refine ⟨gsec, gfis, gat, ?_, State.syncState_lnk _ p q i h7 (by rw [clnk]; decide) hst, ?_⟩
  · rw [State.syncGood_fget_ne _ p q i k1 k2 k3, hz, State.modLink_fget, State.fget_fbump_sat, State.feLoad_fget,
      s.syncSeen_fget_ne p q x k4]
    rfl
  · rw [State.syncGood, State.syncState_fget_ne _ p q i kst.symm, hclaim, State.modLink_fget]
    exact State.fget_fset_of_lt _ p hcl

theorem syncSet_mismatch {s : State} {p : PortIx} {q : FaceIx} {x : SyncSet} (hl : s.feLive p = true) {i : SyncInfo}
    (hx : syncInfo x = some i) (hr : i.lrst = false) (hload : i.load = false) (h6 : s.lnk p q = 6)
    (hne : (s.feFrame p + 1) % (65536 * framesPerSec) ≠ i.sec * framesPerSec + i.fis) :
    ∃ u, exec (.syncSet p q x) s = .next u ∧ u.fget p (LNK_TIME_MISMATCH q) = min (s.fget p (LNK_TIME_MISMATCH q) + 1) 255 ∧
        (((s.fe p).link q).mismatchRun = 0 → (u.fe p).sec = (s.fe p).sec ∧ (u.fe p).fis = (s.fe p).fis) ∧
        (1 ≤ ((s.fe p).link q).mismatchRun → (u.fe p).sec = i.sec ∧ (u.fe p).fis = i.fis ∧
          u.fget p (LNK_TIME_FORCED q) = min (s.fget p (LNK_TIME_FORCED q) + 1) 255) := by
  obtain ⟨k1, k2, k3, k4⟩ := timeKeys p q (.inr (.inr rfl))
  obtain ⟨j1, j2, j3, j4⟩ := timeKeys p q (.inr (.inl rfl))
  have kj : (LNK_TIME_FORCED q).fkey p ≠ (LNK_TIME_MISMATCH q).fkey p := by
    simp only [Fld.fkey, Fld.key, LNK_TIME_FORCED, LNK_TIME_MISMATCH]
    omega
  refine ⟨_, exec_syncSet_good hl hx hr (by omega), ?_⟩
  obtain ⟨gsec, gfis, -⟩ := (s.syncSeen p q x).syncGood_fe p q i
  obtain ⟨hsec, hfis, -⟩ := s.syncSeen_time p q x
  rw [gsec, gfis, State.syncGood_fget_ne _ p q i k1 k2 k3, State.syncGood_fget_ne _ p q i j1 j2 j3]
  have hlnk : ¬ (s.syncSeen p q x).lnk p q < 6 := by
    rw [s.syncSeen_lnk, h6]
    decide
  have hrun : (((s.syncSeen p q x).fe p).link q).mismatchRun = ((s.fe p).link q).mismatchRun := by rw [s.syncSeen_link]
  have hmm := s.syncSeen_fget_ne p q x k4
  have hff := s.syncSeen_fget_ne p q x j4
  rw [← s.syncSeen_feFrame p q x] at hne
  generalize s.syncSeen p q x = z at *
  unfold State.syncTime
  simp only [hload, hlnk, hne, Bool.false_eq_true, if_false, hrun]
  split
  next h =>
    obtain ⟨lsec, lfis, -⟩ := ((z.fbump p (LNK_TIME_MISMATCH q)).modFacts p fun f => { f with linkAlarm := true }).feLoad_time p i
    refine ⟨?_, fun h0 => by omega, fun _ => ⟨?_, ?_, ?_⟩⟩
    · rw [State.modLink_fget, State.fget_fbump_ne _ _ _ _ _ kj.symm, State.feLoad_fget, State.modFacts_fget, State.fget_fbump_sat, hmm]
      rfl
    · rw [State.modLink_sec, State.fbump_fe, lsec]
    · rw [State.modLink_fis, State.fbump_fe, lfis]
    · rw [State.modLink_fget, State.fget_fbump_sat, State.feLoad_fget, State.modFacts_fget, State.fget_fbump_ne _ _ _ _ _ kj, hff]
      rfl
  next h =>
    refine ⟨?_, fun _ => ⟨?_, ?_⟩, fun h1 => absurd h1 h⟩
    · rw [State.modLink_fget, State.modFacts_fget, State.fget_fbump_sat, hmm]
      rfl
    · rw [State.modLink_sec, State.modFacts_sec, State.fbump_fe, hsec]
    · rw [State.modLink_fis, State.modFacts_fis, State.fbump_fe, hfis]

theorem syncSet_ph {s : State} {p : PortIx} {q : FaceIx} (hl : s.feLive p = true) (h7 : s.lnk p q ≠ 7) (x : SyncSet) :
    ∃ u, exec (.syncSet p q x) s = .next u ∧ ((u.fe p).link q).ph = roundDivI x.ph 16 * 16 := by
  refine ⟨_, exec_syncSet hl h7 x, ?_⟩
  have hph : (((s.syncSeen p q x).fe p).link q).ph = roundDivI x.ph 16 * 16 := by rw [s.syncSeen_link]
  generalize s.syncSeen p q x = z at *
  split
  next =>
    obtain ⟨-, -, -, hb⟩ := z.syncBad_fe p q (((s.fe p).link q).badRun + 1)
    split
    · obtain ⟨-, -, -, hf⟩ := (z.syncBad p q (((s.fe p).link q).badRun + 1)).feFall_fe p q 1
      rw [hf, hb]
      exact hph
    · rw [hb]
      exact hph
  next i _ =>
    split
    · rw [State.feLoad_link, State.linkReset_link]
      exact hph
    · obtain ⟨-, -, -, hg⟩ := z.syncGood_fe p q i
      exact hg.trans hph

/-! ### The receive clock -/

theorem linkResetEnd_clause {s : State} {p : PortIx} {q : FaceIx} (ht : ((s.fe p).link q).lrstTimer = true)
    (hc : ((s.fe p).link q).clockLocked = true) :
    ∃ u, exec (.linkResetEnd p q) s = .next u ∧ ((u.fe p).link q).uplinkOn = true ∧ u.lnk p q = 1 ∧
      FeRegsSame s u [(p.val, LNK_STAT_STATE q)] := by
  have he : exec (.linkResetEnd p q) s = .next ((s.modLink p q fun l => { l with lrstTimer := false, uplinkOn := true }).fset p
      (LNK_STAT_STATE q) 1) := by
    show execLinkResetEnd p q s = _
    unfold execLinkResetEnd
    simp only [ht, hc, if_true]
    rfl
  refine ⟨_, he, ?_, State.fget_fset_of_lt _ p (by simp [LNK_STAT_STATE]), ((FeRegsSame.refl s _).modLink p q _).fset p _ _ (by simp)⟩
  rw [State.fset_fe, State.modLink_link]

theorem downlinkClockLock_clause {s : State} {p : PortIx} {q : FaceIx} {k : BitVec 3} (hl : s.feLive p = true) (h0 : s.lnk p q = 0)
    (ht : ((s.fe p).link q).lrstTimer = false) :
    ∃ u, exec (.downlinkClockLock p q k) s = .next u ∧ u.lnk p q = 1 ∧ ((u.fe p).link q).clockLocked = true ∧
      u.fget p (LNK_EQ_FOUND q) = (if s.fon p (LNK_EQ_AUTO q) then k.toNat else s.fget p (LNK_EQ_STEP q)) ∧
      FeRegsSame s u [(p.val, LNK_STAT_STATE q), (p.val, LNK_EQ_FOUND q)] := by
  have hst : (if s.fon p (LNK_EQ_AUTO q) then k.toNat else s.fget p (LNK_EQ_STEP q)) < 8 := by
    split
    · exact k.isLt
    · exact s.fget_lt p _
  have he : exec (.downlinkClockLock p q k) s = .next (((s.fset p (LNK_EQ_FOUND q)
      (if s.fon p (LNK_EQ_AUTO q) then k.toNat else s.fget p (LNK_EQ_STEP q))).modLink p q
        fun l => { l with clockLocked := true, uplinkOn := true }).fset p (LNK_STAT_STATE q) 1) := by
    show execDownlinkClockLock p q k s = _
    unfold execDownlinkClockLock
    simp only [hl, h0, ht, Bool.not_true, ne_eq, not_true_eq_false, decide_false, Bool.or_self, Bool.false_eq_true, if_false,
      Bool.not_false]
    rfl
  have hk : (LNK_EQ_FOUND q).fkey p ≠ (LNK_STAT_STATE q).fkey p := by
    simp only [Fld.fkey, Fld.key, LNK_EQ_FOUND, LNK_STAT_STATE]
    omega
  refine ⟨_, he, State.fget_fset_of_lt _ p (by simp [LNK_STAT_STATE]), ?_, ?_,
    (((FeRegsSame.refl s _).fset p _ _ (by simp)).modLink p q _).fset p _ _ (by simp)⟩
  · rw [State.fset_fe, State.modLink_link]
  · rw [State.fget_fset_ne _ _ _ _ _ _ hk, State.modLink_fget, State.fget_fset_of_lt _ _ hst]

theorem downlinkClockLoss_clause {s : State} {p : PortIx} {q : FaceIx} (hl : s.feLive p = true) (h0 : s.lnk p q ≠ 0) :
    ∃ u, exec (.downlinkClockLoss p q) s = .next u ∧ u.lnk p q = 0 ∧ ((u.fe p).link q).clockLocked = false ∧
      u.fget p (LNK_STAT_DOWNS q) = min (s.fget p (LNK_STAT_DOWNS q) + 1) 255 ∧
      FeRegsSame s u [(p.val, LNK_STAT_STATE q), (p.val, LNK_STAT_DOWNS q), (p.val, PRBS_STAT_RUNNING q)] := by
  have he : exec (.downlinkClockLoss p q) s = .next
      ((s.modLink p q fun l => { l with clockLocked := false, uplinkOn := false }).feFall p q 0) := by
    show execDownlinkClockLoss p q s = _
    unfold execDownlinkClockLoss
    simp only [hl, h0, Bool.not_true, Bool.false_eq_true, if_false]
  refine ⟨_, he, State.feFall_lnk _ p q 0 (by decide), ?_, State.feFall_downs _ p q 0, ?_⟩
  · obtain ⟨-, -, -, hf⟩ := (s.modLink p q fun l => { l with clockLocked := false, uplinkOn := false }).feFall_fe p q 0
    rw [hf, State.modLink_link]
  · exact (((((FeRegsSame.refl s _).modLink p q _).fset p _ _ (by simp)).fbump p _ (by simp)).fset p _ _ (by simp)).modLink p q _

/-- Settles O20: a set is judged after its line errors and its phase are taken, and each of its parts keeps what the others leave. -/
theorem syncSetsKeepTheFrontEndInStep : Obligations.SyncSetsKeepTheFrontEndInStep :=
  ⟨fun _ _ _ x hl => ⟨fun hx h2 h7 => syncSet_bad hl hx h2 h7, fun _ hx hr h7 => syncSet_reset hl hx hr h7,
      fun _ hx hr hload h6 _ h7 hv hc => syncSet_load hl hx hr hload h6 h7 hv hc,
      fun _ hx hr hload h6 hne => syncSet_mismatch hl hx hr hload h6 hne, fun h7 => syncSet_ph hl h7 x⟩,
    fun _ _ _ ht hc => linkResetEnd_clause ht hc, fun _ _ _ _ hl h0 ht => downlinkClockLock_clause hl h0 ht,
    fun _ _ _ hl h0 => downlinkClockLoss_clause hl h0⟩

end Sys2Proof.Machine

/-! ## Link-up at a port -/

namespace Sys2Proof.Machine

set_option Elab.async false

/-! ### What entering a state leaves -/

@[simp] theorem State.dropWaiting_creg (s : State) (p : Nat) : (s.dropWaiting p).creg = s.creg := by
  unfold State.dropWaiting
  refine List.foldlRecOn (motive := fun z : State => z.creg = s.creg) _ _ rfl fun z h r _ => ?_
  split
  · exact h
  · exact h

theorem State.dropWaiting_port (s : State) (p : Nat) : (s.dropWaiting p).port p = { s.port p with reqWait := [] } := by
  unfold State.dropWaiting
  refine List.foldlRecOn (motive := fun z : State => z.port p = { s.port p with reqWait := [] }) _ _
      (s.port_modPort p _) fun z h r _ => ?_
  split
  · exact h
  · exact h

/-- A port's record as the state `st` begins. -/
def Port.entered (x : Port) (tick st : Nat) : Port :=
  { x with
    stateTick := tick, badSlots := 0, goodSlots := 0, rttSum := 0, rttN := 0, avgValid := x.avgValid && decide (5 ≤ st ∧ st ≤ 6)
    applyNext := false, phaseFirst := none, pushes := 0, goldMiss := 0, posted := [], testAsk := false
    testFrom := if st = 2 ∨ st = 7 then x.testFrom else none, plGen := none, plLock := false }

/-- The state entered, before what it begins with. -/
def State.plMove (s : State) (p st : Nat) : State :=
  ((s.cset (PL_STAT_STATE p) st).modPort p fun x => x.entered s.tm.tick st).when (decide (s.plState p = 6) && decide (st ≠ 6)) fun z =>
    z.dropWaiting p

theorem State.plEnter_eq (s : State) (p st : Nat) : s.plEnter p st =
    if st = 1 then (s.plMove p st).lockBegin p else if st = 3 then (s.plMove p st).negBegin p else s.plMove p st := rfl

theorem State.plMove_creg (s : State) (p st : Nat) : (s.plMove p st).creg = (s.cset (PL_STAT_STATE p) st).creg := by
  unfold State.plMove State.when
  split
  · exact State.dropWaiting_creg _ p
  · rfl

theorem State.plMove_port (s : State) (p st : Nat) :
    ∃ w, (s.plMove p st).port p = { (s.port p).entered s.tm.tick st with reqWait := w } := by
  unfold State.plMove State.when
  split
  · exact ⟨[], by rw [State.dropWaiting_port, State.port_modPort]; rfl⟩
  · exact ⟨_, State.port_modPort _ p _⟩

/-- Every state but the first begins with no register of its own. -/
theorem State.plEnter_creg (s : State) (p : Nat) {st : Nat} (h : st ≠ 1) :
    (s.plEnter p st).creg = (s.cset (PL_STAT_STATE p) st).creg := by
  rw [State.plEnter_eq, if_neg h, ← s.plMove_creg p st]
  split
  · rw [State.negBegin, State.portRequest_creg, State.portRequest_creg, State.modPort_creg]
  · rfl

theorem State.plEnter_cget (s : State) (p : Nat) {st : Nat} (h : st ≠ 1) (f : Fld) :
    (s.plEnter p st).cget f = (s.cset (PL_STAT_STATE p) st).cget f := State.cget_of_creg (s.plEnter_creg p h) f

theorem State.plEnter_cget_ne (s : State) (p : Nat) {st : Nat} (h : st ≠ 1) {f : Fld} (hf : f.key ≠ (PL_STAT_STATE p).key) :
    (s.plEnter p st).cget f = s.cget f := by
  rw [s.plEnter_cget p h, State.cget_cset_ne _ _ _ _ hf]

theorem State.plEnter_plState (s : State) (p : Nat) {st : Nat} (h : st ≠ 1) (h8 : st < 8) : (s.plEnter p st).plState p = st := by
  rw [State.plState, s.plEnter_cget p h]
  exact s.cget_cset_of_lt h8

theorem State.plEnter_regs (s : State) (p : Nat) {st : Nat} (h : st ≠ 1) : RegsSame s (s.plEnter p st) [PL_STAT_STATE p] :=
  ((RegsSame.refl s _).cset _ _ (by simp)).congr (s.plEnter_creg p h)

theorem State.plEnter_port (s : State) (p : Nat) {st : Nat} (h1 : st ≠ 1) (h3 : st ≠ 3) :
    ∃ w, (s.plEnter p st).port p = { (s.port p).entered s.tm.tick st with reqWait := w } := by
  rw [State.plEnter_eq, if_neg h1, if_neg h3]
  exact s.plMove_port p st

/-! ### Signal, lock and alignment -/

/-- Locking begins at the first step of the equaliser. -/
theorem State.plEnter_one (s : State) (p : Nat) : (s.plEnter p 1).plState p = 1 ∧ ((s.plEnter p 1).port p).eqStep = 0 ∧
    (s.plEnter p 1).cget (PL_EQ_FOUND p) = if s.con (PL_EQ_AUTO p) then 0 else s.cget (PL_EQ_STEP p) := by
  have hfs : (PL_STAT_STATE p).key ≠ (PL_EQ_FOUND p).key := by simp only [Fld.key, PL_STAT_STATE, PL_EQ_FOUND]; omega
  have hcon : (s.plMove p 1).con (PL_EQ_AUTO p) = s.con (PL_EQ_AUTO p) := by
    rw [State.con, State.cget_of_creg (s.plMove_creg p 1),
      State.cget_cset_ne _ _ _ _ (by simp only [Fld.key, PL_STAT_STATE, PL_EQ_AUTO]; omega), State.con]
  have hstep : (s.plMove p 1).cget (PL_EQ_STEP p) = s.cget (PL_EQ_STEP p) := by
    rw [State.cget_of_creg (s.plMove_creg p 1), State.cget_cset_ne _ _ _ _ (by simp only [Fld.key, PL_STAT_STATE, PL_EQ_STEP]; omega)]
  have hlt := s.cget_lt (PL_EQ_STEP p)
  rw [State.plEnter_eq, if_pos rfl, State.lockBegin, hcon, hstep, State.plState, State.modPort_cget, State.modPort_cget,
      State.port_modPort,
    State.cget_cset_ne _ _ _ _ hfs, State.cget_of_creg (s.plMove_creg p 1)]
  refine ⟨s.cget_cset_of_lt (by simp [PL_STAT_STATE]), rfl, State.cget_cset_of_lt _ ?_⟩
  split
  · exact Nat.two_pow_pos _
  · exact hlt

theorem uplinkSignalDetect_clause {s : State} {p : PortIx} (h0 : s.plState p = 0) (hen : s.con (PL_CTRL_EN p) = true)
    (hg : s.con (PL_STAT_GIVEN_UP p) = false) :
    ∃ u, exec (.uplinkSignalDetect p) s = .next u ∧ u.plState p = 1 ∧ (u.port p).eqStep = 0 ∧
      u.cget (PL_EQ_FOUND p) = (if s.con (PL_EQ_AUTO p) then 0 else s.cget (PL_EQ_STEP p)) := by
  have he : exec (.uplinkSignalDetect p) s = .next (s.plEnter p 1) := by
    show execUplinkSignalDetect p s = _
    unfold execUplinkSignalDetect
    simp only [h0, hen, hg, Bool.not_false, true_or, and_self, if_true]
  exact ⟨_, he, s.plEnter_one p⟩

theorem lockAchieved_clause {s : State} {p : PortIx} (h1 : s.plState p = 1) :
    ∃ u, exec (.lockAchieved p) s = .next u ∧ u.plState p = 2 ∧ RegsSame s u [PL_STAT_STATE p] := by
  have he : exec (.lockAchieved p) s = .next (s.plEnter p 2) := congrArg Host.Outcome.next (if_pos h1)
  exact ⟨_, he, s.plEnter_plState p (by decide) (by decide), s.plEnter_regs p (by decide)⟩

theorem exec_equaliserStep {s : State} {p : PortIx} (h1 : s.plState p = 1) (ha : s.con (PL_EQ_AUTO p) = true)
    (hk : (s.port p).eqStep < 16) (n : Nat) :
    exec (.equaliserStep p false n) s = .next ((s.modPort p fun x => { x with
      eqStep := (s.port p).eqStep + 1, eqErrs := tset (s.port p).eqErrs (s.port p).eqStep 0 n }).cset (PL_EQ_FOUND p)
        (if (s.port p).eqStep + 1 < 16 then (s.port p).eqStep + 1
        else chooseStep fun j => tget (tset (s.port p).eqErrs (s.port p).eqStep 0 n) j 0)) := by
  show execEqualiserStep p false n s = _
  unfold execEqualiserStep
  simp only [h1, ha, hk, Bool.false_eq_true, if_false, and_self, if_true]
  split <;> rfl

theorem equaliserStep_next {s : State} {p : PortIx} (h1 : s.plState p = 1) (ha : s.con (PL_EQ_AUTO p) = true)
    (hk : (s.port p).eqStep < 15) (n : Nat) : ∃ u, exec (.equaliserStep p false n) s = .next u ∧
      (u.port p).eqStep = (s.port p).eqStep + 1 ∧ tget (u.port p).eqErrs (s.port p).eqStep 0 = n ∧
      u.cget (PL_EQ_FOUND p) = (s.port p).eqStep + 1 ∧ RegsSame s u [PL_EQ_FOUND p] := by
  refine ⟨_, exec_equaliserStep h1 ha (by omega) n, ?_⟩
  rw [if_pos (by omega), State.cset_port, State.port_modPort]
  exact ⟨rfl, tget_tset_same .., State.cget_cset_of_lt _ (show _ < 16 by omega), ((RegsSame.refl s _).modPort p _).cset _ _⟩

theorem equaliserStep_last {s : State} {p : PortIx} (h1 : s.plState p = 1) (ha : s.con (PL_EQ_AUTO p) = true)
    (hk : (s.port p).eqStep = 15) (n : Nat) : ∃ u, exec (.equaliserStep p false n) s = .next u ∧
      u.cget (PL_EQ_FOUND p) = chooseStep (fun j => tget (tset (s.port p).eqErrs 15 0 n) j 0) % 16 := by
  refine ⟨_, exec_equaliserStep h1 ha (by omega) n, ?_⟩
  rw [if_neg (by omega), State.cget_cset_same, hk]
  rfl

/-- What RUN leaves in the registers of the port. -/
theorem State.plRun_cget (s : State) (p : Nat) (f : Fld) :
    (s.plRun p).cget f = (((s.cbump (PL_UP_UPS p)).cset (PL_STAT_GIVEN_UP p) 0).cset (PL_STAT_STATE p) 6).cget f := by
  unfold State.plRun
  rw [State.modPort_cget, State.plEnter_cget _ _ (by decide)]

theorem State.plRun_plState (s : State) (p : Nat) : (s.plRun p).plState p = 6 := by
  rw [State.plState, s.plRun_cget]
  exact State.cget_cset_of_lt _ (by simp [PL_STAT_STATE])

theorem State.plRun_port (s : State) (p : Nat) : ((s.plRun p).port p).testFrom = none ∧ ((s.plRun p).port p).failRun = 0 := by
  obtain ⟨w, hw⟩ := ((s.cbump (PL_UP_UPS p)).cset (PL_STAT_GIVEN_UP p) 0).plEnter_port p (st := 6) (by decide) (by decide)
  unfold State.plRun
  rw [State.port_modPort, hw]
  exact ⟨rfl, rfl⟩

theorem alignAchieved_clause {s : State} {p : PortIx} (h2 : s.plState p = 2) (hg : 4 ≤ (s.port p).goodSlots) :
    ((s.port p).testFrom = none → ∃ u, exec (.alignAchieved p) s = .next u ∧ u.plState p = 3 ∧ RegsSame s u [PL_STAT_STATE p]) ∧
    ((s.port p).testFrom = some 6 → ∃ u, exec (.alignAchieved p) s = .next u ∧ u.plState p = 6 ∧ (u.port p).testFrom = none) := by
  constructor <;> intro ht
  · have he : exec (.alignAchieved p) s = .next (s.plEnter p 3) := by
      show execAlignAchieved p s = _
      unfold execAlignAchieved
      simp only [h2, hg, ht, and_self, if_true]
    exact ⟨_, he, s.plEnter_plState p (by decide) (by decide), s.plEnter_regs p (by decide)⟩
  · have he : exec (.alignAchieved p) s = .next (s.plRun p) := by
      show execAlignAchieved p s = _
      unfold execAlignAchieved
      simp only [h2, hg, ht, and_self, if_true]
    exact ⟨_, he, s.plRun_plState p, (s.plRun_port p).1⟩

/-! ### Negotiation and phase -/

theorem bestVersion_lt_three {m v : Nat} (h : bestVersion m = some v) : v < 3 := by
  unfold bestVersion at h
  split at h
  · cases h
    decide
  · split at h
    · cases h
      decide
    · split at h
      · cases h
        decide
      · cases h

theorem State.plGiveUp_cget (s : State) (p : Nat) (f : Fld) :
    (s.plGiveUp p).cget f = ((s.cset (PL_STAT_GIVEN_UP p) 1).cset (PL_STAT_STATE p) 0).cget f := by
  unfold State.plGiveUp
  rw [State.plEnter_cget _ _ (by decide)]
  rfl

/-- The words by which a negotiation identifies the front-end have been read. -/
def State.negRead (s : State) (p : Nat) (id sup : Nat) : Prop :=
  s.plState p = 3 ∧ (s.port p).ownReads.lookup 0x000 = some id ∧
    ((s.port p).ownReads.lookup (0x020 + 16 * s.face p)).map (bits · 0 3) = some sup

theorem negotiateDone_agreed {s : State} {p : PortIx} {id : W32} {sup : BitVec 3} (h : s.negRead p id.toNat sup.toNat) {v : Nat}
    (hv : bestVersion (Nat.land sup.toNat (s.cget (PL_CTRL_VER_MASK p))) = some v) (hf : s.face p = 0 ∨ v = 2)
    (hn : (s.port p).negSel = some v) (hr : 4 ≤ (s.port p).verRun) :
    ∃ u, exec (.negotiateDone p id sup) s = .next u ∧ u.plState p = 4 ∧ u.cget (PL_STAT_VER p) = v ∧
        u.cget (PL_STAT_FE_REV p) = id.toNat % 16 ∧ u.con (TIM_PSTAT_FROZEN p) = decide (v = 0) := by
  obtain ⟨h3, hid, hsup⟩ := h
  have hv3 := bestVersion_lt_three hv
  have hp := p.isLt
  have he : exec (.negotiateDone p id sup) s = .next
      ((((((s.cset (PL_STAT_FE_REV p) (id.toNat % 16)).setGold p (0x020 + 16 * s.face p) (v * 16)).cset (PL_STAT_VER p) v).cset
        (TIM_PSTAT_ECHO p) (b2n (decide (v ≠ 0)))).cset (TIM_PSTAT_FROZEN p) (b2n (decide (v = 0)))).plEnter p 4) := by
    show execNegotiateDone p id sup s = _
    unfold execNegotiateDone State.versionFor
    simp only [h3, hid, hsup, hv]
    rw [if_neg (by simp), if_neg (by omega), if_neg (by rw [hn]; simp; omega)]
  refine ⟨_, he, State.plEnter_plState _ p (by decide) (by decide), ?_, ?_, ?_⟩
  · rw [State.plEnter_cget_ne _ p (by decide) (by simp only [Fld.key, PL_STAT_STATE, PL_STAT_VER]; omega),
      State.cget_cset_ne _ _ _ _ (by simp only [Fld.key, TIM_PSTAT_FROZEN, PL_STAT_VER]; omega),
      State.cget_cset_ne _ _ _ _ (by simp only [Fld.key, TIM_PSTAT_ECHO, PL_STAT_VER]; omega)]
    exact State.cget_cset_of_lt _ (show v < 4 by omega)
  · rw [State.plEnter_cget_ne _ p (by decide) (by simp only [Fld.key, PL_STAT_STATE, PL_STAT_FE_REV]; omega),
      State.cget_cset_ne _ _ _ _ (by simp only [Fld.key, TIM_PSTAT_FROZEN, PL_STAT_FE_REV]; omega),
      State.cget_cset_ne _ _ _ _ (by simp only [Fld.key, TIM_PSTAT_ECHO, PL_STAT_FE_REV]; omega),
      State.cget_cset_ne _ _ _ _ (by simp only [Fld.key, PL_STAT_VER, PL_STAT_FE_REV]; omega)]
    exact State.cget_cset_of_lt _ (show id.toNat % 16 < 16 by omega)
  · rw [State.con, State.plEnter_cget_ne _ p (by decide) (by simp only [Fld.key, PL_STAT_STATE, TIM_PSTAT_FROZEN]; omega),
      State.cget_cset_of_lt _ (b2n_lt_two _)]
    by_cases h0 : v = 0 <;> simp [h0, b2n]

theorem negotiateDone_none {s : State} {p : PortIx} {id : W32} {sup : BitVec 3} (h : s.negRead p id.toNat sup.toNat)
    (hv : bestVersion (Nat.land sup.toNat (s.cget (PL_CTRL_VER_MASK p))) = none) :
    ∃ u, exec (.negotiateDone p id sup) s = .next u ∧ u.plState p = 0 ∧ u.con (PL_STAT_GIVEN_UP p) = true ∧
        u.cget (PL_STAT_REASON p) = 2 := by
  obtain ⟨h3, hid, hsup⟩ := h
  have he : exec (.negotiateDone p id sup) s = .next
      ((((s.cset (PL_STAT_FE_REV p) (id.toNat % 16)).cbump (PL_UP_FALLS p)).cset (PL_STAT_REASON p) 2).plGiveUp p) := by
    show execNegotiateDone p id sup s = _
    unfold execNegotiateDone State.versionFor
    simp only [h3, hid, hsup, hv]
    rw [if_neg (by simp)]
  refine ⟨_, he, ?_, ?_, ?_⟩
  · rw [State.plState, State.plGiveUp_cget]
    exact State.cget_cset_of_lt _ (by simp [PL_STAT_STATE])
  · rw [State.con, State.plGiveUp_cget, State.cget_cset_ne _ _ _ _ (by simp only [Fld.key, PL_STAT_STATE, PL_STAT_GIVEN_UP]; omega),
      State.cget_cset_of_lt _ (by simp [PL_STAT_GIVEN_UP])]
    rfl
  · rw [State.plGiveUp_cget, State.cget_cset_ne _ _ _ _ (by simp only [Fld.key, PL_STAT_STATE, PL_STAT_REASON]; omega),
      State.cget_cset_ne _ _ _ _ (by simp only [Fld.key, PL_STAT_GIVEN_UP, PL_STAT_REASON]; omega), State.cget_cset_of_lt _
          (by simp [PL_STAT_REASON])]

/-- A push of the golden copy has words to send. -/
theorem State.goldPush_posted (s : State) (p : Nat) : ((s.goldPush p).port p).posted ≠ [] := by
  have h22 : feCfgMask 0x022 ≠ 0 := by decide +kernel
  have hm : (0x022 : Nat) ∈ (List.range 4096).filter fun w => decide (feCfgMask w ≠ 0) := by
    rw [List.mem_filter, List.mem_range]
    exact ⟨by decide, decide_eq_true h22⟩
  unfold State.goldPush
  rw [State.port_modPort, ne_eq, List.map_eq_nil_iff]
  exact List.ne_nil_of_mem hm

theorem phaseVerify_clause {s : State} {p : PortIx} {a : Int} (h4 : s.plState p = 4) (hf : (s.port p).phaseFirst = some a)
    (hn : 16 ≤ (s.port p).rttN)
    (hd : ((s.port p).rttSum - a * (s.port p).rttN).natAbs * 1000 ≤ 40 * 65536 * (s.port p).rttN) (ht : s.twinStandby = false) :
    ∃ u, exec (.phaseVerify p) s = .next u ∧ u.plState p = 5 ∧ (u.port p).posted ≠ [] := by
  have he : exec (.phaseVerify p) s = .next (s.configBegin p) := by
    show execPhaseVerify p s = _
    unfold execPhaseVerify
    simp only [h4, hf]
    rw [if_neg (by decide), if_neg (by omega), if_pos hd]
  refine ⟨_, he, ?_⟩
  unfold State.configBegin
  rw [ht]
  exact ⟨State.plEnter_plState _ p (by decide) (by decide), State.goldPush_posted _ p⟩

/-! ### Configuration, timeout and loss -/

theorem configCrcCheck_match {s : State} {p : PortIx} {crc : W32} (h5 : s.plState p = 5) (hp : s.pushPassed p = true)
    (hc : crc.toNat = s.goldCrc p) :
    ∃ u, exec (.configCrcCheck p false crc) s = .next u ∧ u.plState p = 6 ∧ u.con (PL_GOLD_MATCH p) = true ∧
      u.con (PL_STAT_GIVEN_UP p) = false ∧ u.cget (PL_UP_UPS p) = min (s.cget (PL_UP_UPS p) + 1) 65535 ∧ (u.port p).failRun = 0 := by
  have he : exec (.configCrcCheck p false crc) s = .next ((s.cset (PL_GOLD_MATCH p) 1).plRun p) := by
    show execConfigCrcCheck p false crc s = _
    unfold execConfigCrcCheck
    simp only [h5, hp, hc]
    rw [if_neg (by simp), if_pos (by simp)]
    rfl
  refine ⟨_, he, State.plRun_plState _ p, ?_, ?_, ?_, (State.plRun_port _ p).2⟩
  · rw [State.con, State.plRun_cget, State.cget_cset_ne _ _ _ _ (by simp only [Fld.key, PL_STAT_STATE, PL_GOLD_MATCH]; omega),
      State.cget_cset_ne _ _ _ _ (by simp only [Fld.key, PL_STAT_GIVEN_UP, PL_GOLD_MATCH]; omega),
      State.cget_cbump_ne _ _ _ (by simp only [Fld.key, PL_UP_UPS, PL_GOLD_MATCH]; omega), State.cget_cset_of_lt _
          (by simp [PL_GOLD_MATCH])]
    rfl
  · rw [State.con, State.plRun_cget, State.cget_cset_ne _ _ _ _ (by simp only [Fld.key, PL_STAT_STATE, PL_STAT_GIVEN_UP]; omega),
      State.cget_cset_of_lt _ (by simp [PL_STAT_GIVEN_UP])]
    rfl
  · rw [State.plRun_cget, State.cget_cset_ne _ _ _ _ (by simp only [Fld.key, PL_STAT_STATE, PL_UP_UPS]; omega),
      State.cget_cset_ne _ _ _ _ (by simp only [Fld.key, PL_STAT_GIVEN_UP, PL_UP_UPS]; omega), State.cget_cbump_sat,
      State.cget_cset_ne _ _ _ _ (by simp only [Fld.key, PL_GOLD_MATCH, PL_UP_UPS]; omega)]
    rfl

theorem configCrcCheck_mismatch {s : State} {p : PortIx} {crc : W32} (h5 : s.plState p = 5) (ht : s.twinStandby = false)
    (hp : s.pushPassed p = true) (hc : crc.toNat ≠ s.goldCrc p) (h0 : (s.port p).pushes = 0) :
    ∃ u, exec (.configCrcCheck p false crc) s = .next u ∧ u.plState p = 5 ∧
      (u.port p).pushes = 1 ∧ u.con (PL_GOLD_MATCH p) = false := by
  have he : exec (.configCrcCheck p false crc) s = .next
      (((s.cset (PL_GOLD_MATCH p) 0).goldPush p).modPort p fun x => { x with pushes := 1 }) := by
    show execConfigCrcCheck p false crc s = _
    unfold execConfigCrcCheck
    simp only [h5, hp, hc, ht, h0]
    rw [if_neg (by simp), if_neg (by simp), if_pos trivial]
  refine ⟨_, he, ?_, by rw [State.port_modPort], ?_⟩
  · rw [State.plState, State.modPort_cget, State.goldPush, State.modPort_cget,
      State.cget_cset_ne _ _ _ _ (by simp only [Fld.key, PL_STAT_STATE, PL_GOLD_MATCH]; omega)]
    exact h5
  · rw [State.con_eq_false, State.modPort_cget, State.goldPush, State.modPort_cget, State.cget_cset_of_lt _ (by simp [PL_GOLD_MATCH])]

theorem linkStateTimeout_clause {s : State} {p : PortIx} (h3 : s.plState p = 3) (hl : 500 ≤ s.since (s.port p).stateTick)
    (hf : (s.port p).failState ≠ 3) (hr : 1 < s.cget (PLR_CFG_RETRIES (p.val / 256))) :
    ∃ u, exec (.linkStateTimeout p) s = .next u ∧ u.plState p = 2 ∧
      u.cget (PL_STAT_REASON p) = 1 ∧ u.cget (PL_UP_FALLS p) = min (s.cget (PL_UP_FALLS p) + 1) 65535 ∧ (u.port p).failRun = 1 := by
  have he : exec (.linkStateTimeout p) s = .next ((((s.cbump (PL_UP_FALLS p)).cset (PL_STAT_REASON p) 1).modPort p fun y =>
      { y with failRun := 1, failState := 3 }).plEnter p 2) := by
    show execLinkStateTimeout p s = _
    unfold execLinkStateTimeout State.plFail
    simp only [h3]
    rw [if_neg (by simp [stateLimit]; omega), if_neg (by decide), if_neg hf, if_neg (by omega)]
    rfl
  obtain ⟨w, hw⟩ := (((s.cbump (PL_UP_FALLS p)).cset (PL_STAT_REASON p) 1).modPort p fun y =>
    { y with failRun := 1, failState := 3 }).plEnter_port p (st := 2) (by decide) (by decide)
  refine ⟨_, he, State.plEnter_plState _ p (by decide) (by decide), ?_, ?_, ?_⟩
  · rw [State.plEnter_cget_ne _ p (by decide) (by simp only [Fld.key, PL_STAT_STATE, PL_STAT_REASON]; omega), State.modPort_cget]
    exact State.cget_cset_of_lt _ (by simp [PL_STAT_REASON])
  · rw [State.plEnter_cget_ne _ p (by decide) (by simp only [Fld.key, PL_STAT_STATE, PL_UP_FALLS]; omega), State.modPort_cget,
      State.cget_cset_ne _ _ _ _ (by simp only [Fld.key, PL_STAT_REASON, PL_UP_FALLS]; omega)]
    exact s.cget_cbump_sat _
  · rw [hw, State.port_modPort]
    rfl

theorem uplinkSignalLoss_clause {s : State} {p : PortIx} (h0 : s.plState p ≠ 0) :
    ∃ u, exec (.uplinkSignalLoss p) s = .next u ∧ u.plState p = 0 ∧
      u.cget (PL_STAT_REASON p) = 6 ∧ u.cget (PL_UP_FALLS p) = min (s.cget (PL_UP_FALLS p) + 1) 65535 := by
  have he : exec (.uplinkSignalLoss p) s = .next (s.plExit p 6 0) := congrArg Host.Outcome.next (if_neg h0)
  refine ⟨_, he, State.plEnter_plState _ p (by decide) (by decide), ?_, ?_⟩
  · rw [State.plExit, State.plEnter_cget_ne _ p (by decide) (by simp only [Fld.key, PL_STAT_STATE, PL_STAT_REASON]; omega)]
    exact State.cget_cset_of_lt _ (by simp [PL_STAT_REASON])
  · rw [State.plExit, State.plEnter_cget_ne _ p (by decide) (by simp only [Fld.key, PL_STAT_STATE, PL_UP_FALLS]; omega),
      State.cget_cset_ne _ _ _ _ (by simp only [Fld.key, PL_STAT_REASON, PL_UP_FALLS]; omega)]
    exact s.cget_cbump_sat _

/-- Settles O21: every state is entered through `plEnter`, which writes the state's field alone except where locking begins. -/
theorem linkUpGoesThroughItsStates : Obligations.LinkUpGoesThroughItsStates :=
  ⟨fun _ _ h0 hen hg => uplinkSignalDetect_clause h0 hen hg,
    fun _ _ h1 => ⟨lockAchieved_clause h1, fun n ha hk => equaliserStep_next h1 ha hk n, fun n ha hk => equaliserStep_last h1 ha hk n⟩,
    fun _ _ h2 hg => alignAchieved_clause h2 hg,
    fun _ _ _ _ h3 hid hsup => ⟨fun _ hv hf hn hr => negotiateDone_agreed ⟨h3, hid, hsup⟩ hv hf hn hr,
      fun hv => negotiateDone_none ⟨h3, hid, hsup⟩ hv⟩,
    fun _ _ _ h4 hf hn hd ht => phaseVerify_clause h4 hf hn hd ht,
    fun _ _ _ h5 ht hp => ⟨fun hc => configCrcCheck_match h5 hp hc, fun hc h0 => configCrcCheck_mismatch h5 ht hp hc h0⟩,
    fun _ _ h3 hl hf hr => linkStateTimeout_clause h3 hl hf hr, fun _ _ h0 => uplinkSignalLoss_clause h0⟩

end Sys2Proof.Machine

/-! ## Slot starts -/

namespace Sys2Proof.Machine

set_option Elab.async false

/-- A port in ALIGN whose table of registers holds more than 16 bits for its code-error counter. -/
def spareCount : State := { State.reset with creg := [((PL_STAT_STATE 3).key, 2), ((PL_ERR_CODE 3).key, 65536)] }

/-- Reads the counter of code errors of port 3 with one bit more than it has. -/
def wideCount : Fld := { PL_ERR_CODE 3 with width := 17 }

/-- The data bytes of a slot-start set without errors. -/
def setBytes : List Byte := [0, 0, BitVec.ofNat 8 (crc8 [0, 0])]

/-- The line characters of that set. -/
def setChars : List (BitVec 10) := symLine false (k285 :: setBytes.map fun b => .data b.toNat)

theorem lineSyms_setChars : lineSyms false setChars = some k285 :: setBytes.map fun b => some (.data b.toNat) := by decide +kernel

theorem bytesOf_setBytes : bytesOf (setBytes.map fun b => some (.data b.toNat)) = some setBytes := by decide +kernel

theorem goodSet_setBytes : goodSet 3 setBytes = true := by decide +kernel

theorem plState_spareCount : 2 ≤ spareCount.plState 3 ∧ spareCount.plState 3 < 7 := by decide +kernel

/-- A set without code errors writes the counter again, within its 16 bits. -/
theorem cget_after_start {u : State} (h : exec (.slotStartSet 3 true false setChars 0) spareCount = .next u) :
    u.cget wideCount = 0 := by
  cases h
  decide +kernel

/-- Refutes O22: a slot-start set without code errors still writes the code-error counter, so in a state whose table of registers holds
more than the counter's bits a field outside the two listed ones reads another value. -/
theorem not_slotsAndEchoesAreMeasured : ¬ Obligations.SlotsAndEchoesAreMeasured := by
  rintro ⟨hstart, -⟩
  obtain ⟨hgood, -⟩ := hstart spareCount 3 true false setChars 0 plState_spareCount.1 plState_spareCount.2
  obtain ⟨u, he, -, -, -, -, -, hregs⟩ := hgood _ _ rfl lineSyms_setChars bytesOf_setBytes goodSet_setBytes
  have hw := hregs wideCount (by decide)
  rw [cget_after_start he] at hw
  exact absurd hw (by decide)

end Sys2Proof.Machine

/-! ## Responses at a port -/

namespace Sys2Proof.Machine

set_option Elab.async false

/-- A port whose table of registers holds more than 16 bits for its code-error counter. -/
def spareCountIdle : State := { State.reset with creg := [((PL_ERR_CODE 3).key, 65536)] }

/-- A response that no port waits for. -/
def strayResp : RespPkt := { typ := 8, code := 0, tid := 0, addr := 0, data := 0 }

/-- The codeword of that response on the line. -/
def strayCodeword : CodeRun := ⟨false, symLine false (k285 :: (rsEncode (respBytes strayResp)).map fun b => .data b.toNat)⟩

theorem respRead_strayCodeword : respRead strayCodeword = (0, .ok, strayResp) := by decide +kernel

/-- A codeword without code errors writes the counter again, within its 16 bits. -/
theorem exec_strayCodeword : exec (.responseReceived 3 strayCodeword) spareCountIdle =
    .next ((spareCountIdle.cadd (PL_ERR_CODE 3) 0).cbump (PL_SC_STRAY 3)) := by
  show execResponseReceived 3 strayCodeword spareCountIdle = _
  unfold execResponseReceived
  simp only [respRead_strayCodeword]
  rfl

/-- Refutes O23: a response codeword without code errors still writes the code-error counter, so in a state whose table of registers
holds more than the counter's bits a field outside the listed one reads another value. -/
theorem not_portControlAndProxyAccesses : ¬ Obligations.PortControlAndProxyAccesses := by
  rintro ⟨-, -, -, -, -, -, -, hstray, -⟩
  obtain ⟨u, he, -, hregs, -⟩ := hstray spareCountIdle 3 strayCodeword strayResp respRead_strayCodeword (by decide) rfl
  have hw := hregs wideCount (by decide)
  rw [← Host.Outcome.next.inj (exec_strayCodeword.symm.trans he)] at hw
  exact absurd hw (by decide +kernel)

end Sys2Proof.Machine

/-! ## Record codewords -/

namespace Sys2Proof.Machine

set_option Elab.async false

/-- The line characters of a codeword of 16 records of zeros, behind a marker that reads without error. -/
def zeroRecords : List (BitVec 10) := symLine false (List.replicate 134 (.data 0))

/-- The marker before them, which leaves the disparity as it is. -/
def zeroMarker : BitVec 10 := BitVec.ofNat 10 (symGroup false (.data 0))

theorem recRead_zeroRecords : recRead zeroMarker false zeroRecords = (0, .ok, List.replicate 16 0) := by decide +kernel

/-- A codeword without code errors writes the counter of code errors again, within its 16 bits. -/
theorem cget_after_records {u : State} (h : exec (.recordCodeword 3 0 zeroMarker false 0 zeroRecords) spareCount = .next u) :
    u.cget wideCount = 0 := by
  change execRecordCodeword 3 0 zeroMarker false 0 zeroRecords spareCount = .next u at h
  unfold execRecordCodeword at h
  rw [recRead_zeroRecords] at h
  rw [← Host.Outcome.next.inj h]
  decide +kernel

/-- Refutes O24: a codeword without code errors still writes the code-error counter, so in a state whose table of registers holds more
than the counter's bits a field reads another value. -/
theorem not_codewordsAreStoredOrLost : ¬ Obligations.CodewordsAreStoredOrLost := by
  intro h
  obtain ⟨hin, -⟩ := h spareCount 3 0 zeroMarker false 0 zeroRecords plState_spareCount.1 (by decide +kernel)
  obtain ⟨-, -, hok, -⟩ := hin (by decide +kernel)
  rw [recRead_zeroRecords] at hok
  obtain ⟨u, he, hregs, -⟩ := hok rfl rfl (by decide +kernel) (by decide +kernel)
  have hw := hregs wideCount (by simp)
  rw [cget_after_records he] at hw
  exact absurd hw (by decide +kernel)

end Sys2Proof.Machine

/-! ## What the late limit settles -/

namespace Sys2Proof.Machine

set_option Elab.async false

/-! ### The register window of a port -/

/-- Keys of the registers of port `p`: each port has 256 addresses of its own. -/
def portKey (p k : Nat) : Prop :=
  (0x300000 + 0x40000 * (p / 256) + 0x100 * (p % 256)) * 64 ≤ k ∧ k < (0x300000 + 0x40000 * (p / 256) + 0x100 * (p % 256) + 0x100) * 64

theorem not_portKey {p q k : Nat} (h : q ≠ p) (hk : portKey p k) : ¬ portKey q k := by
  unfold portKey at *
  omega

theorem not_queueKey_of_portKey {p k : Nat} (hp : p < 1024) (hk : portKey p k) : ¬ queueKey k := by
  unfold portKey at hk
  unfold queueKey
  omega

theorem role_outside (p : Nat) (hp : p < 1024) : ¬ portKey p TWIN_STAT_ROLE.key ∧ ¬ queueKey TWIN_STAT_ROLE.key := by
  unfold portKey queueKey
  simp only [Fld.key, TWIN_STAT_ROLE]
  omega

/-- `t` is `s` with port `p`, its registers and the uplink queues changed. -/
structure PortOnly (p : Nat) (s t : State) : Prop where
  same : t = { s with creg := t.creg, ports := t.ports, upl := { s.upl with queues := t.upl.queues } }
  ports : ∀ q, q ≠ p → t.port q = s.port q
  regs : ∀ g : Fld, ¬ portKey p g.key → ¬ queueKey g.key → t.cget g = s.cget g

namespace PortOnly

variable {p : Nat} {s t u : State}

theorem refl (p : Nat) (s : State) : PortOnly p s s := ⟨rfl, fun _ _ => rfl, fun _ _ _ => rfl⟩

theorem cset (h : PortOnly p s t) (f : Fld) (v : Nat) (hf : portKey p f.key) : PortOnly p s (t.cset f v) := by
  refine ⟨?_, h.ports, fun g hg hq => ?_⟩
  · rw [h.same]
    rfl
  · rw [State.cget_cset_ne t f g v (fun e => hg (by rw [e]; exact hf)), h.regs g hg hq]

theorem modPort (h : PortOnly p s t) (g : Port → Port) : PortOnly p s (t.modPort p g) := by
  refine ⟨?_, fun q hq => (State.port_modPort_ne _ _ hq).trans (h.ports q hq), h.regs⟩
  rw [h.same]
  rfl

theorem queued (h : PortOnly p s t) (h' : Queued t u) : PortOnly p s u := by
  refine ⟨?_, fun q hq => ?_, fun g hg hq => (h'.regs g hq).trans (h.regs g hg hq)⟩
  · rw [h'.same, h.same]
  · rw [State.port, h'.same]
    exact h.ports q hq

theorem ite {c : Prop} [Decidable c] (h : PortOnly p s t) (h' : PortOnly p s u) : PortOnly p s (if c then t else u) := by
  split
  · exact h
  · exact h'

theorem trans (h : PortOnly p s t) (h' : PortOnly p t u) : PortOnly p s u := by
  refine ⟨?_, fun q hq => (h'.ports q hq).trans (h.ports q hq), fun g hg hq => (h'.regs g hg hq).trans (h.regs g hg hq)⟩
  rw [h'.same, h.same]

end PortOnly

/-- All that belongs to port `p`, and what its records depend on, is in `t` as in `s`. -/
structure PortKept (p : Nat) (s t : State) : Prop where
  port : t.port p = s.port p
  regs : ∀ g : Fld, portKey p g.key → t.cget g = s.cget g
  role : t.cget TWIN_STAT_ROLE = s.cget TWIN_STAT_ROLE
  tm : t.tm = s.tm
  regions : t.regions = s.regions
  twin : t.twin = s.twin

namespace PortKept

variable {p q : Nat} {s t u : State}

theorem refl (p : Nat) (s : State) : PortKept p s s := ⟨rfl, fun _ _ => rfl, rfl, rfl, rfl, rfl⟩

theorem trans (h : PortKept p s t) (h' : PortKept p t u) : PortKept p s u :=
  ⟨h'.port.trans h.port, fun g hg => (h'.regs g hg).trans (h.regs g hg), h'.role.trans h.role, h'.tm.trans h.tm,
    h'.regions.trans h.regions, h'.twin.trans h.twin⟩

theorem setIng (h : PortKept p s t) (x : IngestSt) : PortKept p s { t with ing := x } :=
  ⟨h.port, h.regs, h.role, h.tm, h.regions, h.twin⟩

/-- A change of another port leaves this one. -/
theorem of_portOnly (h : PortOnly q s t) (hq : p ≠ q) (hp : p < 1024) (hq' : q < 1024) : PortKept p s t := by
  refine ⟨h.ports p hq, fun g hg => h.regs g (not_portKey hq.symm hg) (not_queueKey_of_portKey hp hg),
    h.regs _ (role_outside q hq').1 (role_outside q hq').2, ?_, ?_, ?_⟩ <;> rw [h.same]

end PortKept

/-- A pass over other ports leaves this one. -/
theorem PortKept.foldl {p : Nat} (hp : p < 1024) (g : State → Nat → State) (hg : ∀ z q, PortOnly q z (g z q)) (l : List Nat)
    (hl : ∀ q ∈ l, q ≠ p ∧ q < 1024) (s : State) : PortKept p s (l.foldl g s) := by
  induction l generalizing s with
  | nil => exact .refl p s
  | cons q r ih =>
    obtain ⟨⟨hqp, hq⟩, hr⟩ := List.forall_mem_cons.1 hl
    exact (PortKept.of_portOnly (hg s q) hqp.symm hp hq).trans (ih hr (g s q))

/-- A pass over all ports: what it does to one of them, it does to that port as it was before the pass. -/
theorem State.foldl_ports_at (g : State → Nat → State) (hg : ∀ z q, PortOnly q z (g z q)) {p : Nat} (hp : p < 1024) (s : State) :
    ∃ z, PortKept p s z ∧ PortKept p (g z p) ((List.range 1024).foldl g s) := by
  obtain ⟨l, r, hlr⟩ := List.append_of_mem (List.mem_range.2 hp)
  have hnd : (l ++ p :: r).Nodup := hlr ▸ List.nodup_range
  rw [List.nodup_append] at hnd
  obtain ⟨-, hr, hd⟩ := hnd
  have hlt : ∀ q ∈ l ++ p :: r, q < 1024 := fun q hq => List.mem_range.1 (hlr ▸ hq)
  refine ⟨l.foldl g s, PortKept.foldl hp g hg l (fun q hq => ⟨hd q hq p (List.mem_cons_self ..), hlt q (by simp [hq])⟩) s, ?_⟩
  rw [hlr, List.foldl_append, List.foldl_cons]
  exact PortKept.foldl hp g hg r (fun q hq => ⟨fun e => (List.nodup_cons.1 hr).1 (e ▸ hq), hlt q (by simp [hq])⟩) _

/-! ### One port at the late limit -/

/-- The fields of a port that the late limit writes lie in its window. -/
theorem limitKeys (p : Nat) : portKey p (PI_CNT0_ABSENT p).key ∧ portKey p (PI_STAT_ABSENT p).key ∧ portKey p (PI_STAT_PRESENT p).key ∧
    portKey p (PI_CNT0_LOST_CW p).key ∧ portKey p (PI_STAT_LOSTCW p).key ∧ portKey p (PI_CNT2_NONOWNER p).key ∧
    portKey p (PL_CTRL_EN p).key ∧ portKey p (PI_CTRL_STORE p).key := by
  simp only [portKey, Fld.key, PI_CNT0_ABSENT, PI_STAT_ABSENT, PI_STAT_PRESENT, PI_CNT0_LOST_CW, PI_STAT_LOSTCW, PI_CNT2_NONOWNER,
    PL_CTRL_EN, PI_CTRL_STORE]
  omega

/-- The port is marked as working where it sent something in RUN. -/
def State.limitOk (s : State) (p k : Nat) : State :=
  s.when (!(s.rx p k).seen.isEmpty && decide (s.plState p = 6)) fun z => z.modPort p fun y => { y with okTick := z.tm.tick }

/-- The port leaves no block; it is absent where it is stored. -/
def State.limitAway (s : State) (p k : Nat) : State :=
  (if s.con (PI_CTRL_STORE p) then s.absence p k else s).cset (PI_STAT_PRESENT p) 0

/-- The codewords of the slot that were not decoded are lost. -/
def State.limitLost (s : State) (p n : Nat) : State :=
  if n = 0 then s else (s.cadd (PI_CNT0_LOST_CW p) n).cset (PI_STAT_LOSTCW p) 1

/-- The monitor records of a slot go out, and a slot that is not stored shows no block. -/
def State.limitMon (s1 s : State) (p k : Nat) (x : RxSlot) : State :=
  (x.raw.filter fun w => decide (recType w = 3)).foldl (fun z w => z.sendMon (Config.monRecordWords p w))
    (if s.con (PI_CTRL_STORE p) && s.storesFrame (s.frameAt k) && !x.abandoned then s1 else s1.cset (PI_STAT_PRESENT p) 0)

theorem State.portLimit_eq (s : State) (p k : Nat) : s.portLimit p k =
    if !((s.limitOk p k).con (PL_CTRL_EN p)) || (s.limitOk p k).regionOff p then (s.limitOk p k).cset (PI_STAT_PRESENT p) 0
    else if (s.rx p k).seen.isEmpty && (s.rx p k).lost.isEmpty then (s.limitOk p k).limitAway p k
    else if (s.limitOk p k).notOwner p k then
      (((s.limitOk p k).limitLost p (29 - (s.rx p k).seen.length)).cbump (PI_CNT2_NONOWNER p)).cset (PI_STAT_PRESENT p) 0
    else if (s.rx p k).seen.isEmpty then ((s.limitOk p k).limitLost p (29 - (s.rx p k).seen.length)).limitAway p k
    else ((s.limitOk p k).limitLost p (29 - (s.rx p k).seen.length)).limitMon (s.limitOk p k) p k (s.rx p k) := rfl

theorem State.limitOk_portOnly (s : State) (p k : Nat) : PortOnly p s (s.limitOk p k) := by
  unfold State.limitOk State.when
  split
  · exact (PortOnly.refl p s).modPort _
  · exact .refl p s

theorem State.absence_cget (s : State) (p k : Nat) (f : Fld) :
    (s.absence p k).cget f = ((s.cbump (PI_CNT0_ABSENT p)).cset (PI_STAT_ABSENT p) 1).cget f := by
  unfold State.absence
  simp only []
  split <;> rfl

theorem State.absence_portOnly (s : State) (p k : Nat) : PortOnly p s (s.absence p k) := by
  obtain ⟨hca, hsa, -⟩ := limitKeys p
  have h1 : PortOnly p s ((s.cbump (PI_CNT0_ABSENT p)).cset (PI_STAT_ABSENT p) 1) := ((PortOnly.refl p s).cset _ _ hca).cset _ _ hsa
  unfold State.absence
  exact .ite h1 (h1.modPort _)

theorem State.limitAway_portOnly (s : State) (p k : Nat) : PortOnly p s (s.limitAway p k) :=
  (PortOnly.ite (s.absence_portOnly p k) (.refl p s)).cset _ _ (limitKeys p).2.2.1

theorem State.limitLost_portOnly (s : State) (p n : Nat) : PortOnly p s (s.limitLost p n) := by
  obtain ⟨-, -, -, hcl, hsl, -⟩ := limitKeys p
  exact .ite (.refl p s) (((PortOnly.refl p s).cset _ _ hcl).cset _ _ hsl)

theorem State.limitMon_queued (s1 s : State) (p k : Nat) (x : RxSlot) :
    Queued (if s.con (PI_CTRL_STORE p) && s.storesFrame (s.frameAt k) && !x.abandoned then s1 else s1.cset (PI_STAT_PRESENT p) 0)
      (s1.limitMon s p k x) :=
  (Queued.refl _).foldl _ _ fun z _ _ hz => hz.trans (z.sendMon_queued _)

theorem State.portLimit_portOnly (s : State) (p k : Nat) : PortOnly p s (s.portLimit p k) := by
  obtain ⟨-, -, hsp, -, -, hcn, -⟩ := limitKeys p
  have h0 := s.limitOk_portOnly p k
  have h1 := h0.trans ((s.limitOk p k).limitLost_portOnly p (29 - (s.rx p k).seen.length))
  rw [State.portLimit_eq]
  refine .ite (h0.cset _ _ hsp) (.ite (h0.trans (State.limitAway_portOnly _ p k)) (.ite ((h1.cset _ _ hcn).cset _ _ hsp)
    (.ite (h1.trans (State.limitAway_portOnly _ p k)) ?_)))
  exact (PortOnly.ite h1 (h1.cset _ _ hsp)).queued (State.limitMon_queued _ _ p k _)

/-! ### What the marks leave -/

theorem State.limitOk_cget (s : State) (p k : Nat) (f : Fld) : (s.limitOk p k).cget f = s.cget f := by
  unfold State.limitOk State.when
  split <;> rfl

theorem State.limitOk_con (s : State) (p k : Nat) (f : Fld) : (s.limitOk p k).con f = s.con f := by
  rw [State.con, s.limitOk_cget, State.con]

theorem State.limitOk_regionOff (s : State) (p k q : Nat) : (s.limitOk p k).regionOff q = s.regionOff q := by
  rw [State.regionOff, State.rgn, (s.limitOk_portOnly p k).same]
  rfl

theorem State.limitOk_rx (s : State) (p k : Nat) : (s.limitOk p k).rx p k = s.rx p k := by
  unfold State.limitOk State.when
  split
  · unfold State.rx
    rw [State.port_modPort]
  · rfl

theorem State.limitOk_absent (s : State) (p k : Nat) : ((s.limitOk p k).port p).absent = (s.port p).absent := by
  unfold State.limitOk State.when
  split
  · rw [State.port_modPort]
  · rfl

theorem State.limitOk_owner (s : State) (p k : Nat) : (s.limitOk p k).notOwner p k = s.notOwner p k := by
  rw [State.notOwner, s.limitOk_rx, State.twinStandby, s.limitOk_cget]
  rfl

theorem State.limitLost_cget_ne (s : State) (p n : Nat) {f : Fld} (h1 : f.key ≠ (PI_CNT0_LOST_CW p).key)
    (h2 : f.key ≠ (PI_STAT_LOSTCW p).key) : (s.limitLost p n).cget f = s.cget f := by
  unfold State.limitLost
  split
  · rfl
  · rw [State.cget_cset_ne _ _ _ _ h2, State.cget_cadd_ne _ _ _ _ h1]

theorem State.limitLost_counts (s : State) (p : Nat) {n : Nat} (h : n ≠ 0) :
    (s.limitLost p n).cget (PI_CNT0_LOST_CW p) = min (s.cget (PI_CNT0_LOST_CW p) + n) 65535 ∧
      (s.limitLost p n).cget (PI_STAT_LOSTCW p) = 1 := by
  unfold State.limitLost
  rw [if_neg h, State.cget_cset_ne _ _ _ _ (by simp only [Fld.key, PI_CNT0_LOST_CW, PI_STAT_LOSTCW]; omega), State.cget_cadd_sat,
    State.cget_cset_of_lt _ (by simp [PI_STAT_LOSTCW])]
  exact ⟨rfl, rfl⟩

/-- The count of absences and the lost codewords of a port that is on. -/
theorem State.portLimit_on (s : State) {p : Nat} (k : Nat) (hen : s.con (PL_CTRL_EN p) = true) (hoff : s.regionOff p = false) :
    s.portLimit p k =
      if (s.rx p k).seen.isEmpty && (s.rx p k).lost.isEmpty then (s.limitOk p k).limitAway p k
      else if s.notOwner p k then
        (((s.limitOk p k).limitLost p (29 - (s.rx p k).seen.length)).cbump (PI_CNT2_NONOWNER p)).cset (PI_STAT_PRESENT p) 0
      else if (s.rx p k).seen.isEmpty then ((s.limitOk p k).limitLost p (29 - (s.rx p k).seen.length)).limitAway p k
      else ((s.limitOk p k).limitLost p (29 - (s.rx p k).seen.length)).limitMon (s.limitOk p k) p k (s.rx p k) := by
  rw [State.portLimit_eq, s.limitOk_con, s.limitOk_regionOff, s.limitOk_owner, hen, hoff]
  rfl

theorem portLimit_absent {s : State} {p : Nat} {k : Nat} (hen : s.con (PL_CTRL_EN p) = true) (hoff : s.regionOff p = false)
    (hs : (s.rx p k).seen = []) (hl : (s.rx p k).lost = []) (hst : s.con (PI_CTRL_STORE p) = true) :
    (s.portLimit p k).cget (PI_CNT0_ABSENT p) = min (s.cget (PI_CNT0_ABSENT p) + 1) 65535 ∧
      (s.portLimit p k).cget (PI_STAT_ABSENT p) = 1 ∧ (s.portLimit p k).cget (PI_STAT_PRESENT p) = 0 ∧
      (s.portLimit p k).cget (PI_CNT0_LOST_CW p) = s.cget (PI_CNT0_LOST_CW p) := by
  rw [s.portLimit_on k hen hoff, hs, hl, List.isEmpty_nil, Bool.and_self, if_pos rfl, State.limitAway, s.limitOk_con, hst, if_pos rfl,
    State.cget_cset_ne _ _ _ _ (by simp only [Fld.key, PI_CNT0_ABSENT, PI_STAT_PRESENT]; omega),
    State.cget_cset_ne _ _ _ _ (by simp only [Fld.key, PI_STAT_ABSENT, PI_STAT_PRESENT]; omega),
    State.cget_cset_of_lt _ (by simp [PI_STAT_PRESENT]),
    State.cget_cset_ne _ _ _ _ (by simp only [Fld.key, PI_CNT0_LOST_CW, PI_STAT_PRESENT]; omega), State.absence_cget,
        State.absence_cget, State.absence_cget,
    State.cget_cset_ne _ _ _ _ (by simp only [Fld.key, PI_CNT0_ABSENT, PI_STAT_ABSENT]; omega), State.cget_cbump_sat,
    State.cget_cset_of_lt _ (by simp [PI_STAT_ABSENT]),
    State.cget_cset_ne _ _ _ _ (by simp only [Fld.key, PI_CNT0_LOST_CW, PI_STAT_ABSENT]; omega),
    State.cget_cbump_ne _ _ _ (by simp only [Fld.key, PI_CNT0_LOST_CW, PI_CNT0_ABSENT]; omega), s.limitOk_cget, s.limitOk_cget]
  exact ⟨rfl, rfl, rfl, rfl⟩

theorem portLimit_unstored {s : State} {p : Nat} {k : Nat} (hen : s.con (PL_CTRL_EN p) = true) (hoff : s.regionOff p = false)
    (hs : (s.rx p k).seen = []) (hl : (s.rx p k).lost = []) (hst : s.con (PI_CTRL_STORE p) = false) :
    (s.portLimit p k).cget (PI_CNT0_ABSENT p) = s.cget (PI_CNT0_ABSENT p) ∧
      ((s.portLimit p k).port p).absent = (s.port p).absent := by
  rw [s.portLimit_on k hen hoff, hs, hl, List.isEmpty_nil, Bool.and_self, if_pos rfl, State.limitAway, s.limitOk_con, hst,
    if_neg (by decide), State.cget_cset_ne _ _ _ _ (by simp only [Fld.key, PI_CNT0_ABSENT, PI_STAT_PRESENT]; omega), s.limitOk_cget]
  exact ⟨rfl, s.limitOk_absent p k⟩

/-- A slot that is not obeyed. -/
theorem portLimit_notOwner {s : State} {p : Nat} {k : Nat} (hen : s.con (PL_CTRL_EN p) = true) (hoff : s.regionOff p = false)
    (hne : (s.rx p k).seen ≠ [] ∨ (s.rx p k).lost ≠ []) (ho : (s.rx p k).owner = false) (hn : (s.rx p k).seen.length < 29) :
    (s.portLimit p k).cget (PI_CNT2_NONOWNER p) = min (s.cget (PI_CNT2_NONOWNER p) + 1) 65535 ∧
      (s.portLimit p k).cget (PI_CNT0_LOST_CW p) = min (s.cget (PI_CNT0_LOST_CW p) + (29 - (s.rx p k).seen.length)) 65535 ∧
      (s.portLimit p k).cget (PI_STAT_LOSTCW p) = 1 ∧
      (s.portLimit p k).cget (PI_CNT0_ABSENT p) = s.cget (PI_CNT0_ABSENT p) ∧
      ((s.portLimit p k).port p).absent = (s.port p).absent := by
  have hno : s.notOwner p k = true := by simp [State.notOwner, ho]
  have hem : ((s.rx p k).seen.isEmpty && (s.rx p k).lost.isEmpty) = false := by
    rcases hne with h | h <;> simp [h]
  have habs : ((s.limitOk p k).limitLost p (29 - (s.rx p k).seen.length)).port p = (s.limitOk p k).port p := by
    unfold State.limitLost
    split <;> rfl
  obtain ⟨hlc, hls⟩ := (s.limitOk p k).limitLost_counts p (n := 29 - (s.rx p k).seen.length) (by omega)
  rw [s.portLimit_on k hen hoff, hem, if_neg (by decide), hno, if_pos rfl,
    State.cget_cset_ne _ _ _ _ (by simp only [Fld.key, PI_CNT2_NONOWNER, PI_STAT_PRESENT]; omega),
    State.cget_cset_ne _ _ _ _ (by simp only [Fld.key, PI_CNT0_LOST_CW, PI_STAT_PRESENT]; omega),
    State.cget_cset_ne _ _ _ _ (by simp only [Fld.key, PI_STAT_LOSTCW, PI_STAT_PRESENT]; omega),
    State.cget_cset_ne _ _ _ _ (by simp only [Fld.key, PI_CNT0_ABSENT, PI_STAT_PRESENT]; omega), State.cget_cbump_sat,
    State.cget_cbump_ne _ _ _ (by simp only [Fld.key, PI_CNT0_LOST_CW, PI_CNT2_NONOWNER]; omega),
    State.cget_cbump_ne _ _ _ (by simp only [Fld.key, PI_STAT_LOSTCW, PI_CNT2_NONOWNER]; omega),
    State.cget_cbump_ne _ _ _ (by simp only [Fld.key, PI_CNT0_ABSENT, PI_CNT2_NONOWNER]; omega), hlc, hls,
    State.limitLost_cget_ne _ p _ (by simp only [Fld.key, PI_CNT2_NONOWNER, PI_CNT0_LOST_CW]; omega)
      (by simp only [Fld.key, PI_CNT2_NONOWNER, PI_STAT_LOSTCW]; omega),
    State.limitLost_cget_ne _ p _ (by simp only [Fld.key, PI_CNT0_ABSENT, PI_CNT0_LOST_CW]; omega)
      (by simp only [Fld.key, PI_CNT0_ABSENT, PI_STAT_LOSTCW]; omega), s.limitOk_cget, s.limitOk_cget, s.limitOk_cget, State.cset_port,
    State.cbump_port, habs, s.limitOk_absent]
  exact ⟨rfl, rfl, rfl, rfl, rfl⟩

/-- Behind the count of lost codewords only the owner's count and the block's presence are written. -/
theorem portLimit_lost_cget {s : State} {p : Nat} {k : Nat} (hp : p < 1024) (hen : s.con (PL_CTRL_EN p) = true)
    (hoff : s.regionOff p = false) (hs : (s.rx p k).seen ≠ []) {f : Fld} (hf : portKey p f.key)
    (h1 : f.key ≠ (PI_CNT2_NONOWNER p).key) (h2 : f.key ≠ (PI_STAT_PRESENT p).key) :
    (s.portLimit p k).cget f = ((s.limitOk p k).limitLost p (29 - (s.rx p k).seen.length)).cget f := by
  have hem : (s.rx p k).seen.isEmpty = false := by simp [hs]
  rw [s.portLimit_on k hen hoff, hem, Bool.false_and, if_neg (by decide)]
  split
  · rw [State.cget_cset_ne _ _ _ _ h2, State.cget_cbump_ne _ _ _ h1]
  · rw [if_neg (by decide), (State.limitMon_queued _ _ p k _).regs f (not_queueKey_of_portKey hp hf)]
    split
    · rfl
    · exact State.cget_cset_ne _ _ _ _ h2

/-- A slot of which codewords are missing. -/
theorem portLimit_missing {s : State} {p : Nat} {k : Nat} (hp : p < 1024) (hen : s.con (PL_CTRL_EN p) = true)
    (hoff : s.regionOff p = false) (hs : (s.rx p k).seen ≠ []) (hn : (s.rx p k).seen.length < 29) :
    (s.portLimit p k).cget (PI_CNT0_LOST_CW p) = min (s.cget (PI_CNT0_LOST_CW p) + (29 - (s.rx p k).seen.length)) 65535 ∧
      (s.portLimit p k).cget (PI_STAT_LOSTCW p) = 1 ∧ (s.portLimit p k).cget (PI_CNT0_ABSENT p) = s.cget (PI_CNT0_ABSENT p) ∧
      ((s.rx p k).owner = false → (s.portLimit p k).cget (PI_CNT2_NONOWNER p) = min (s.cget (PI_CNT2_NONOWNER p) + 1) 65535) := by
  obtain ⟨kca, -, -, kcl, ksl, -⟩ := limitKeys p
  obtain ⟨hlc, hls⟩ := (s.limitOk p k).limitLost_counts p (n := 29 - (s.rx p k).seen.length) (by omega)
  rw [s.limitOk_cget] at hlc
  refine ⟨?_, ?_, ?_, fun ho => (portLimit_notOwner hen hoff (.inl hs) ho hn).1⟩
  · rw [portLimit_lost_cget hp hen hoff hs kcl (by simp only [Fld.key, PI_CNT0_LOST_CW, PI_CNT2_NONOWNER]; omega)
      (by simp only [Fld.key, PI_CNT0_LOST_CW, PI_STAT_PRESENT]; omega)]
    exact hlc
  · rw [portLimit_lost_cget hp hen hoff hs ksl (by simp only [Fld.key, PI_STAT_LOSTCW, PI_CNT2_NONOWNER]; omega)
      (by simp only [Fld.key, PI_STAT_LOSTCW, PI_STAT_PRESENT]; omega)]
    exact hls
  · rw [portLimit_lost_cget hp hen hoff hs kca (by simp only [Fld.key, PI_CNT0_ABSENT, PI_CNT2_NONOWNER]; omega)
      (by simp only [Fld.key, PI_CNT0_ABSENT, PI_STAT_PRESENT]; omega),
      State.limitLost_cget_ne _ p _ (by simp only [Fld.key, PI_CNT0_ABSENT, PI_CNT0_LOST_CW]; omega)
      (by simp only [Fld.key, PI_CNT0_ABSENT, PI_STAT_LOSTCW]; omega), s.limitOk_cget]

/-- A port that is off. -/
theorem portLimit_off {s : State} {p : Nat} {k : Nat} (hen : s.con (PL_CTRL_EN p) = false) :
    (s.portLimit p k).cget (PI_CNT0_ABSENT p) = s.cget (PI_CNT0_ABSENT p) ∧
      (s.portLimit p k).cget (PI_CNT0_LOST_CW p) = s.cget (PI_CNT0_LOST_CW p) ∧
      (s.portLimit p k).cget (PI_CNT2_NONOWNER p) = s.cget (PI_CNT2_NONOWNER p) ∧
      ((s.portLimit p k).port p).absent = (s.port p).absent := by
  rw [State.portLimit_eq, s.limitOk_con, hen, Bool.not_false, Bool.true_or, if_pos rfl,
    State.cget_cset_ne _ _ _ _ (by simp only [Fld.key, PI_CNT0_ABSENT, PI_STAT_PRESENT]; omega),
    State.cget_cset_ne _ _ _ _ (by simp only [Fld.key, PI_CNT0_LOST_CW, PI_STAT_PRESENT]; omega),
    State.cget_cset_ne _ _ _ _ (by simp only [Fld.key, PI_CNT2_NONOWNER, PI_STAT_PRESENT]; omega), s.limitOk_cget, s.limitOk_cget,
    s.limitOk_cget]
  exact ⟨rfl, rfl, rfl, s.limitOk_absent p k⟩

/-! ### All ports -/

theorem State.toInst_portKept (s : State) (i : Inst) {p : Nat} {t : State} (h : PortKept p (s.toInst i) t) :
    t.port p = s.port p ∧ (∀ g : Fld, portKey p g.key → t.cget g = s.cget g) ∧ t.regions = s.regions :=
  ⟨h.port, h.regs, h.regions⟩

theorem State.rx_congr {s t : State} {p : Nat} (h : t.port p = s.port p) (k : Nat) : t.rx p k = s.rx p k := by
  simp only [State.rx, h]

/-- The pass as port `p` sees it: the port before its turn is as it was, and afterwards it stays. -/
theorem exec_lateLimit_at {s : State} (h2 : 2 ≤ s.tm.tick) (hl : s.ing.limit ≠ some (s.tm.tick - 2)) (p : PortIx) :
    ∃ z u : State, exec .lateLimit s = .next u ∧ u.ing.limit = some (s.tm.tick - 2) ∧ PortKept p (s.toInst (320 * 65536)) z ∧
      PortKept p (z.portLimit p (s.tm.tick - 2)) u := by
  obtain ⟨z, hz, hu⟩ := State.foldl_ports_at (fun z p => z.portLimit p (s.tm.tick - 2)) (fun z q => z.portLimit_portOnly q _) p.isLt
    (s.toInst (320 * 65536))
  have he : exec .lateLimit s = .next
      (let s1 := (List.range 1024).foldl (fun z p => z.portLimit p (s.tm.tick - 2)) (s.toInst (320 * 65536))
      { s1 with ing := { s1.ing with limit := some (s.tm.tick - 2) } }) := by
    show execLateLimit s = _
    unfold execLateLimit
    rw [if_neg (by rintro (h | h); exacts [by omega, hl h])]
  exact ⟨z, _, he, rfl, hz, hu.setIng _⟩

theorem lateLimit_on {s : State} {p : PortIx} (h2 : 2 ≤ s.tm.tick) (hl : s.ing.limit ≠ some (s.tm.tick - 2))
    (hen : s.con (PL_CTRL_EN p) = true) (hoff : s.regionOff p = false) :
    ∃ z u : State, exec .lateLimit s = .next u ∧ u.ing.limit = some (s.tm.tick - 2) ∧ z.con
        (PL_CTRL_EN p) = true ∧ z.regionOff p = false ∧
      z.con (PI_CTRL_STORE p) = s.con (PI_CTRL_STORE p) ∧ z.rx p (s.tm.tick - 2) = s.rx p (s.tm.tick - 2) ∧ z.port p = s.port p ∧
      (∀ g : Fld, portKey p g.key → z.cget g = s.cget g) ∧ PortKept p (z.portLimit p (s.tm.tick - 2)) u := by
  obtain ⟨-, -, -, -, -, -, ken, kst⟩ := limitKeys p
  obtain ⟨z, u, he, hlim, hz, hu⟩ := exec_lateLimit_at h2 hl p
  obtain ⟨hport, hregs, hrgn⟩ := s.toInst_portKept _ hz
  refine ⟨z, u, he, hlim, ?_, ?_, ?_, State.rx_congr hport _, hport, hregs, hu⟩
  · rw [State.con, hregs _ ken]
    exact hen
  · rw [State.regionOff, State.rgn, hrgn]
    exact hoff
  · rw [State.con, hregs _ kst, State.con]

theorem lateLimit_clauses {s : State} {p : PortIx} (h2 : 2 ≤ s.tm.tick) (hlim : s.ing.limit ≠ some (s.tm.tick - 2))
    (hen : s.con (PL_CTRL_EN p) = true) (hoff : s.regionOff p = false) :
    let k := s.tm.tick - 2
    ((s.rx p k).seen = [] → (s.rx p k).lost = [] → s.con (PI_CTRL_STORE p) = true → ∃ u, exec .lateLimit s = .next u ∧
      u.cget (PI_CNT0_ABSENT p) = min (s.cget (PI_CNT0_ABSENT p) + 1) 65535 ∧ u.cget (PI_STAT_ABSENT p) = 1 ∧
      u.cget (PI_STAT_PRESENT p) = 0 ∧ u.cget (PI_CNT0_LOST_CW p) = s.cget (PI_CNT0_LOST_CW p) ∧ u.ing.limit = some k) ∧
    ((s.rx p k).seen = [] → (s.rx p k).lost = [] → s.con (PI_CTRL_STORE p) = false → ∃ u, exec .lateLimit s = .next u ∧
      u.cget (PI_CNT0_ABSENT p) = s.cget (PI_CNT0_ABSENT p) ∧ (u.port p).absent = (s.port p).absent) ∧
    ((s.rx p k).seen = [] → (s.rx p k).lost ≠ [] → (s.rx p k).owner = false → ∃ u, exec .lateLimit s = .next u ∧
      u.cget (PI_CNT2_NONOWNER p) = min (s.cget (PI_CNT2_NONOWNER p) + 1) 65535 ∧
      u.cget (PI_CNT0_LOST_CW p) = min (s.cget (PI_CNT0_LOST_CW p) + 29) 65535 ∧
      u.cget (PI_CNT0_ABSENT p) = s.cget (PI_CNT0_ABSENT p) ∧ (u.port p).absent = (s.port p).absent) ∧
    ((s.rx p k).seen ≠ [] → (s.rx p k).seen.length < 29 → ∃ u, exec .lateLimit s = .next u ∧
      u.cget (PI_CNT0_LOST_CW p) = min (s.cget (PI_CNT0_LOST_CW p) + (29 - (s.rx p k).seen.length)) 65535 ∧
      u.cget (PI_STAT_LOSTCW p) = 1 ∧ u.cget (PI_CNT0_ABSENT p) = s.cget (PI_CNT0_ABSENT p) ∧
      ((s.rx p k).owner = false → u.cget (PI_CNT2_NONOWNER p) = min (s.cget (PI_CNT2_NONOWNER p) + 1) 65535)) := by
  obtain ⟨kca, ksa, ksp, kcl, ksl, kno, -⟩ := limitKeys p
  obtain ⟨z, u, he, hul, zen, zoff, zst, zrx, zport, zregs, hu⟩ := lateLimit_on h2 hlim hen hoff
  dsimp only
  rw [← zrx, ← zst, ← zport, ← zregs _ kca, ← zregs _ kcl, ← zregs _ kno]
  refine ⟨fun hs hl hst => ⟨u, he, ?_⟩, fun hs hl hst => ⟨u, he, ?_⟩, fun hs hl ho => ⟨u, he, ?_⟩, fun hs hn => ⟨u, he, ?_⟩⟩
  · obtain ⟨hca, hsa, hsp, hcl⟩ := portLimit_absent zen zoff hs hl hst
    rw [hu.regs _ kca, hu.regs _ ksa, hu.regs _ ksp, hu.regs _ kcl]
    exact ⟨hca, hsa, hsp, hcl, hul⟩
  · rw [hu.regs _ kca, hu.port]
    exact portLimit_unstored zen zoff hs hl hst
  · obtain ⟨hno, hcl, -, hca, habs⟩ := portLimit_notOwner zen zoff (.inr hl) ho (by rw [hs]; decide)
    rw [hs] at hcl
    rw [hu.regs _ kca, hu.regs _ kno, hu.regs _ kcl, hu.port]
    exact ⟨hno, hcl, hca, habs⟩
  · rw [hu.regs _ kca, hu.regs _ kno, hu.regs _ kcl, hu.regs _ ksl]
    exact portLimit_missing p.isLt zen zoff hs hn

theorem lateLimit_off {s : State} {p : PortIx} (hen : s.con (PL_CTRL_EN p) = false) : ∃ u, exec .lateLimit s = .next u ∧
      u.cget (PI_CNT0_ABSENT p) = s.cget (PI_CNT0_ABSENT p) ∧ u.cget (PI_CNT0_LOST_CW p) = s.cget (PI_CNT0_LOST_CW p) ∧
      u.cget (PI_CNT2_NONOWNER p) = s.cget (PI_CNT2_NONOWNER p) ∧ (u.port p).absent = (s.port p).absent := by
  obtain ⟨kca, -, -, kcl, -, kno, ken, -⟩ := limitKeys p
  by_cases h : s.tm.tick < 2 ∨ s.ing.limit = some (s.tm.tick - 2)
  · exact ⟨s, congrArg Host.Outcome.next (if_pos h), rfl, rfl, rfl, rfl⟩
  · obtain ⟨h2, hlim⟩ := not_or.1 h
    obtain ⟨z, u, he, -, hz, hu⟩ := exec_lateLimit_at (by omega) hlim p
    obtain ⟨hport, hregs, -⟩ := s.toInst_portKept _ hz
    have zen : z.con (PL_CTRL_EN p) = false := by
      rw [State.con, hregs _ ken]
      exact hen
    refine ⟨u, he, ?_⟩
    rw [hu.regs _ kca, hu.regs _ kcl, hu.regs _ kno, hu.port, ← hregs _ kca, ← hregs _ kcl, ← hregs _ kno, ← hport]
    exact portLimit_off zen

/-- Settles O25: what the late limit does to a port depends on that port alone, so each clause is one about a single port. -/
theorem lateLimitSettlesEveryPort : Obligations.LateLimitSettlesEveryPort :=
  ⟨fun _ _ h2 hlim hen hoff => lateLimit_clauses h2 hlim hen hoff, fun _ _ hen => lateLimit_off hen⟩

end Sys2Proof.Machine

/-! ## Release, upsets and sums -/

namespace Sys2Proof.Machine

set_option Elab.async false

/-! ### Slots and passes -/

@[simp] theorem State.rx_tick (s : State) (p k : Nat) : (s.rx p k).tick = k := by
  unfold State.rx
  generalize (if k % 2 = 0 then (s.port p).rx0 else (s.port p).rx1) = x
  dsimp only
  split
  next h => exact h
  next => rfl

/-- A slot changed, but not in its tick, is the slot read. -/
theorem State.rx_modRx (s : State) (p k : Nat) (g : RxSlot → RxSlot) (h : (g (s.rx p k)).tick = k) :
    (s.modRx p k g).rx p k = g (s.rx p k) := by
  unfold State.modRx
  generalize g (s.rx p k) = x at h
  unfold State.rx
  rw [State.port_modPort]
  split <;> simp [h]

/-- In a pass over different numbers, what only one step touches is as that step leaves it. -/
theorem State.foldl_at {α : Type} (φ : State → α) (g : State → Nat → State) {l : List Nat} (hnd : l.Nodup) {r : Nat} (hr : r ∈ l)
    (hne : ∀ z, ∀ q ∈ l, q ≠ r → φ (g z q) = φ z) (s : State) : ∃ z, φ z = φ s ∧ φ (l.foldl g s) = φ (g z r) := by
  have hpass : ∀ (m : List Nat), (∀ q ∈ m, q ∈ l ∧ q ≠ r) → ∀ z, φ (m.foldl g z) = φ z := fun m hm z =>
    List.foldlRecOn (motive := fun y => φ y = φ z) m g rfl fun y hy q hq => (hne y q (hm q hq).1 (hm q hq).2).trans hy
  obtain ⟨a, b, rfl⟩ := List.append_of_mem hr
  rw [List.nodup_append] at hnd
  obtain ⟨-, hb, hab⟩ := hnd
  refine ⟨a.foldl g s, hpass a (fun q hq => ⟨by simp [hq], hab q hq r (List.mem_cons_self ..)⟩) s, ?_⟩
  rw [List.foldl_append, List.foldl_cons]
  exact hpass b (fun q hq => ⟨by simp [hq], fun e => (List.nodup_cons.1 hb).1 (e ▸ hq)⟩) _

/-! ### Release -/

/-- The release of the frame two ticks back begins at instant `i`. -/
def State.releaseAt (s : State) (i : Inst) : State :=
  { s with tm := (s.toInst i).tm, ing := { s.ing with released := some (s.tm.tick - 2) } }

theorem exec_alignedRelease {s : State} (h2 : 2 ≤ s.tm.tick) (hr : s.ing.released ≠ some (s.tm.tick - 2)) (p : PortIx) (pos : Fin 464)
    (e : EccStatus) : exec (.alignedRelease [(p, pos, e)]) s =
      .next ((s.releaseAt (80 * 65536)).entryRead p (s.tm.tick - 2) pos e) := by
  show execAlignedRelease _ s = _
  unfold execAlignedRelease
  rw [if_neg (by rintro (h | h); exacts [by omega, hr h])]
  rfl

theorem alignedRelease_single {s : State} {p : PortIx} {pos : Fin 464} (h2 : 2 ≤ s.tm.tick)
    (hr : s.ing.released ≠ some (s.tm.tick - 2)) :
    ∃ u, exec (.alignedRelease [(p, pos, .single)]) s = .next u ∧ u.ing.released = some (s.tm.tick - 2) ∧
      u.cget (PI_CNT1_ECC_CORR p) = min (s.cget (PI_CNT1_ECC_CORR p) + 1) 255 ∧ RegsSame s u [PI_CNT1_ECC_CORR p] ∧
      u = { s with tm := u.tm, creg := u.creg, ing := u.ing } := by
  refine ⟨_, exec_alignedRelease h2 hr p pos .single, ?_⟩
  have hz : ∀ i, ∃ x, s.releaseAt i = { s with tm := x, ing := { s.ing with released := some (s.tm.tick - 2) } } := fun i => ⟨_, rfl⟩
  obtain ⟨x, hx⟩ := hz (80 * 65536)
  rw [hx, State.entryRead]
  exact ⟨rfl, State.cget_cbump_sat _ _, (RegsSame.of_creg rfl _).cbump _, rfl⟩

theorem RxSlot.raw_eccLost {x : RxSlot} (h : x = { x with abandoned := false, eccLost := [] }) (pos : Nat) :
    ({ x with eccLost := x.eccLost ++ [pos] } : RxSlot).raw = (x.recs.filter fun e => decide (e.1 ≠ pos)).map (·.2) := by
  have ha : x.abandoned = false := congrArg RxSlot.abandoned h
  have he : x.eccLost = [] := congrArg RxSlot.eccLost h
  simp [RxSlot.raw, ha, he]

theorem State.entryRead_double (s : State) (p k pos : Nat) :
    ((s.entryRead p k pos .double).rx p k) = { s.rx p k with eccLost := (s.rx p k).eccLost ++ [pos] } ∧
      (s.entryRead p k pos .double).cget (PI_CNT1_ECC_UNC p) = min (s.cget (PI_CNT1_ECC_UNC p) + 1) 255 ∧
      (s.entryRead p k pos .double).cget (PI_STAT_ECC_UNC p) = 1 := by
  refine ⟨State.rx_modRx ((s.cbump (PI_CNT1_ECC_UNC p)).cset (PI_STAT_ECC_UNC p) 1) p k _ (State.rx_tick _ p k), ?_, ?_⟩
  · rw [State.entryRead, State.modRx, State.modPort_cget,
      State.cget_cset_ne _ _ _ _ (by simp only [Fld.key, PI_CNT1_ECC_UNC, PI_STAT_ECC_UNC]; omega), State.cget_cbump_sat]
    rfl
  · rw [State.entryRead, State.modRx, State.modPort_cget, State.cget_cset_of_lt _ (by simp [PI_STAT_ECC_UNC])]

theorem alignedRelease_double {s : State} {p : PortIx} {pos : Fin 464} (h2 : 2 ≤ s.tm.tick)
    (hr : s.ing.released ≠ some (s.tm.tick - 2)) :
    let k := s.tm.tick - 2
    ∃ u, exec (.alignedRelease [(p, pos, .double)]) s = .next u ∧ (u.rx p k).eccLost = (s.rx p k).eccLost ++ [pos.val] ∧
      u.cget (PI_CNT1_ECC_UNC p) = min (s.cget (PI_CNT1_ECC_UNC p) + 1) 255 ∧ u.cget (PI_STAT_ECC_UNC p) = 1 ∧
      (∀ w, (pos.val, w) ∈ (s.rx p k).recs → s.rx p k = { s.rx p k with abandoned := false, eccLost := [] } →
        (u.rx p k).raw = ((s.rx p k).recs.filter fun e => decide (e.1 ≠ pos.val)).map (·.2)) := by
  intro k
  refine ⟨_, exec_alignedRelease h2 hr p pos .double, ?_⟩
  have hz : ∀ i, (s.releaseAt i).rx p k = s.rx p k ∧ (s.releaseAt i).cget (PI_CNT1_ECC_UNC p) = s.cget (PI_CNT1_ECC_UNC p) :=
    fun _ => ⟨rfl, rfl⟩
  obtain ⟨hr, hc⟩ := hz (80 * 65536)
  obtain ⟨hrx, hunc, hst⟩ := (s.releaseAt (80 * 65536)).entryRead_double p k pos
  rw [hr] at hrx
  rw [hc] at hunc
  rw [hrx]
  exact ⟨rfl, hunc, hst, fun w _ h => RxSlot.raw_eccLost h pos⟩

/-! ### An upset of the merge -/

theorem State.abandon_cget_ne (s : State) (p k : Nat) {f : Fld} (h : f.key ≠ (PI_STAT_PRESENT p).key) :
    (s.abandon p k).cget f = s.cget f := by
  rw [State.abandon, State.cget_cset_ne _ _ _ _ h, State.modRgn_cget, State.modPort_cget, State.modRx, State.modPort_cget]

theorem State.abandon_crevs (s : State) (p k r : Nat) : ((s.abandon p k).rgn r).crevs = (s.rgn r).crevs := by
  by_cases h : r = p / 256
  · subst h
    simp [State.abandon, State.modRx]
  · simp [State.abandon, State.modRx, State.rgn_modRgn_ne _ _ h]

theorem State.abandon_fair (s : State) (p k : Nat) : ((s.abandon p k).rgn (p / 256)).fair =
    (s.rgn (p / 256)).fair.filter fun u => !(decide (u.port = p) && decide (u.tick = k)) := by
  simp [State.abandon, State.modRx]

theorem State.abandon_rx (s : State) (p k : Nat) : ((s.abandon p k).rx p k).abandoned = true := by
  have h := s.rx_modRx p k (fun x => { x with abandoned := true }) (s.rx_tick p k)
  have hp : ∀ z : State, (z.modPort p fun x => { x with block := x.block.filter fun b => decide (b.tick ≠ k) }).rx p k = z.rx p k :=
    fun z => by
    unfold State.rx
    rw [State.port_modPort]
  have hz : (s.abandon p k).rx p k = ((s.modRx p k fun x => { x with abandoned := true }).modPort p fun x =>
      { x with block := x.block.filter fun b => decide (b.tick ≠ k) }).rx p k := rfl
  rw [hz, hp, h]

theorem State.abandon_port_ne (s : State) {p q : Nat} (k : Nat) (h : q ≠ p) : (s.abandon p k).port q = s.port q := by
  rw [State.abandon, State.cset_port, State.modRgn_port, State.port_modPort_ne _ _ h, State.modRx, State.port_modPort_ne _ _ h]

theorem State.abandon_present (s : State) (p k : Nat) : (s.abandon p k).cget (PI_STAT_PRESENT p) = 0 := by
  rw [State.abandon, State.cget_cset_of_lt _ (by simp [PI_STAT_PRESENT])]

/-- The 16 ports of block `i` are abandoned. -/
def State.abandonBlock (s : State) (i k : Nat) : State := (List.range 16).foldl (fun z j => z.abandon (16 * i + j) k) s

theorem present_key_ne {p q : Nat} (h : q ≠ p) : (PI_STAT_PRESENT p).key ≠ (PI_STAT_PRESENT q).key := by
  simp only [Fld.key, PI_STAT_PRESENT]
  omega

theorem State.abandonBlock_port (s : State) (i k : Nat) {j : Nat} (hj : j < 16) :
    ((s.abandonBlock i k).rx (16 * i + j) k).abandoned = true ∧ (s.abandonBlock i k).cget (PI_STAT_PRESENT (16 * i + j)) = 0 := by
  obtain ⟨z, -, hz⟩ := State.foldl_at (fun y => (y.port (16 * i + j), y.cget (PI_STAT_PRESENT (16 * i + j))))
    (fun y q => y.abandon (16 * i + q) k) List.nodup_range (List.mem_range.2 hj)
    (fun y q _ hq => by
      rw [y.abandon_port_ne k (show 16 * i + j ≠ 16 * i + q by omega),
        y.abandon_cget_ne (16 * i + q) k (present_key_ne (show 16 * i + q ≠ 16 * i + j by omega))]) s
  obtain ⟨hp, hc⟩ := Prod.mk.inj hz
  refine ⟨?_, hc.trans (z.abandon_present _ k)⟩
  rw [State.abandonBlock, State.rx_congr hp]
  exact z.abandon_rx _ k

theorem State.abandonBlock_cget (s : State) (i k : Nat) {f : Fld} (h : ∀ j < 16, f.key ≠ (PI_STAT_PRESENT (16 * i + j)).key) :
    (s.abandonBlock i k).cget f = s.cget f :=
  List.foldlRecOn (motive := fun y : State => y.cget f = s.cget f) _ _ rfl fun y hy j hj =>
    (y.abandon_cget_ne _ k (h j (List.mem_range.1 hj))).trans hy

theorem State.abandonBlock_crevs (s : State) (i k r : Nat) : ((s.abandonBlock i k).rgn r).crevs = (s.rgn r).crevs :=
  List.foldlRecOn (motive := fun y : State => (y.rgn r).crevs = (s.rgn r).crevs) _ _ rfl fun y hy _ _ => (y.abandon_crevs _ k r).trans hy

/-- What the merge of the region still holds lies outside the ports abandoned. -/
theorem State.foldl_abandon_fair (i k : Nat) (l : List Nat) (hl : ∀ j ∈ l, j < 16) (s : State) :
    ∀ v ∈ ((l.foldl (fun z j => z.abandon (16 * i + j) k) s).rgn (i / 16)).fair,
      v ∈ (s.rgn (i / 16)).fair ∧ ∀ j ∈ l, v.port = 16 * i + j → v.tick ≠ k := by
  induction l generalizing s with
  | nil => exact fun v hv => ⟨hv, fun _ hj => by cases hj⟩
  | cons j r ih =>
    obtain ⟨hj, hr⟩ := List.forall_mem_cons.1 hl
    intro v hv
    obtain ⟨hmem, hrest⟩ := ih hr (s.abandon (16 * i + j) k) v hv
    rw [show i / 16 = (16 * i + j) / 256 by omega, State.abandon_fair, List.mem_filter] at hmem
    rw [show i / 16 = (16 * i + j) / 256 by omega]
    refine ⟨hmem.1, List.forall_mem_cons.2 ⟨fun hp ht => ?_, hrest⟩⟩
    have hkeep := hmem.2
    simp [hp, ht] at hkeep

theorem State.abandonBlock_fair (s : State) (i k : Nat) {v : Unit_} (hv : v ∈ ((s.abandonBlock i k).rgn (i / 16)).fair)
    (hp : v.port / 16 = i) : v.tick ≠ k := by
  unfold State.abandonBlock at hv
  obtain ⟨-, h⟩ := State.foldl_abandon_fair i k (List.range 16) (fun j hj => List.mem_range.1 hj) s v hv
  exact h (v.port - 16 * i) (List.mem_range.2 (by omega)) (by omega)

theorem Queued.rgn_eq {s t : State} (h : Queued s t) (r : Nat) : t.rgn r = s.rgn r := by
  rw [h.same]
  rfl

theorem Queued.rx_eq {s t : State} (h : Queued s t) (p k : Nat) : t.rx p k = s.rx p k := by
  rw [h.same]
  rfl

/-- A reason-6 record is noted and the monitor told. -/
theorem State.upsetNoted (y : State) (r k : Nat) (c : Crev) :
    let u := (y.modRgn r fun x => { x with crevs := x.crevs ++ [c] }).monNotice 3
    (u.rgn r).crevs = (y.rgn r).crevs ++ [c] ∧ (u.rgn r).fair = (y.rgn r).fair ∧ (∀ p, u.rx p k = y.rx p k) ∧
      ∀ f : Fld, ¬ queueKey f.key → u.cget f = y.cget f := by
  intro u
  have hq : Queued (y.modRgn r fun x => { x with crevs := x.crevs ++ [c] }) u := State.monNotice_queued _ 3
  have hr : u.rgn r = { y.rgn r with crevs := (y.rgn r).crevs ++ [c] } := by
    rw [hq.rgn_eq, State.rgn_modRgn]
  rw [hr]
  exact ⟨rfl, rfl, fun p => hq.rx_eq p k, fun f hf => (hq.regs f hf).trans (State.modRgn_cget ..)⟩

theorem mergeUpset_clause {s : State} {r : RgnIx} {b : PbIx} (hs : s.storesFrame (s.frameAt (s.tm.tick - 2)) = true) :
    ∃ u, exec (.mergeUpset r b) s = .next u ∧
      u.cget (PB_STAT_UPSET (16 * r.val + b.val)) = min (s.cget (PB_STAT_UPSET (16 * r.val + b.val)) + 1) 255 ∧
      (∀ j : Fin 16, (u.rx (16 * (16 * r.val + b.val) + j.val) (s.tm.tick - 2)).abandoned = true ∧
        u.cget (PI_STAT_PRESENT (16 * (16 * r.val + b.val) + j.val)) = 0) ∧
      (∀ v ∈ (u.rgn r).fair, v.port / 16 = 16 * r.val + b.val → v.tick ≠ s.tm.tick - 2) ∧
      ∃ c, (u.rgn r).crevs = (s.rgn r).crevs ++ [c] ∧ c.reason = 6 ∧ c.scope = 1 ∧ c.port = 16 * (16 * r.val + b.val) ∧
        c.frame = s.frameAt (s.tm.tick - 2) ∧ c.frames = 1 ∧ c.lost = 0xFFFFFFFF := by
  have hr := r.isLt
  have hb := b.isLt
  have hi : (16 * r.val + b.val) / 16 = r.val := by omega
  have hi64 : 16 * r.val + b.val < 64 := by omega
  have he : exec (.mergeUpset r b) s = .next (((((s.cbump (PB_STAT_UPSET (16 * r.val + b.val))).cset
      (PB_STAT_UPSET_SEEN (16 * r.val + b.val)) 1).abandonBlock (16 * r.val + b.val) (s.tm.tick - 2)).modRgn r fun x => { x with
        crevs := x.crevs ++ [⟨s.tm.tick - 2, 6, 1, 16 * (16 * r.val + b.val), s.frameAt (s.tm.tick - 2), 1,
            0xFFFFFFFF⟩] }).monNotice 3) := by
    show execMergeUpset r b s = _
    unfold execMergeUpset State.abandonBlock
    simp only [hs, State.when_true]
  generalize 16 * r.val + b.val = i at *
  generalize s.tm.tick - 2 = k at *
  have hup : (((s.cbump (PB_STAT_UPSET i)).cset (PB_STAT_UPSET_SEEN i) 1).abandonBlock i k).cget (PB_STAT_UPSET i) =
      min (s.cget (PB_STAT_UPSET i) + 1) 255 := by
    rw [State.abandonBlock_cget _ i k (fun j hj => by simp only [Fld.key, PB_STAT_UPSET, PI_STAT_PRESENT]; omega),
      State.cget_cset_ne _ _ _ _ (by simp only [Fld.key, PB_STAT_UPSET, PB_STAT_UPSET_SEEN]; omega), State.cget_cbump_sat]
    rfl
  have hport := fun j (hj : j < 16) => ((s.cbump (PB_STAT_UPSET i)).cset (PB_STAT_UPSET_SEEN i) 1).abandonBlock_port i k hj
  have hfair := fun v => ((s.cbump (PB_STAT_UPSET i)).cset (PB_STAT_UPSET_SEEN i) 1).abandonBlock_fair i k (v := v)
  have hcrevs : ((((s.cbump (PB_STAT_UPSET i)).cset (PB_STAT_UPSET_SEEN i) 1).abandonBlock i k).rgn r).crevs = (s.rgn r).crevs :=
    State.abandonBlock_crevs _ i k r
  generalize ((s.cbump (PB_STAT_UPSET i)).cset (PB_STAT_UPSET_SEEN i) 1).abandonBlock i k = y at *
  obtain ⟨ucrevs, ufair, urx, uregs⟩ := y.upsetNoted r k ⟨k, 6, 1, 16 * i, s.frameAt k, 1, 0xFFFFFFFF⟩
  rw [hi] at hfair
  refine ⟨_, he, ?_, fun j => ?_, fun v hv hp => hfair v (ufair ▸ hv) hp, _, ucrevs.trans (congrArg (· ++ _) hcrevs), rfl, rfl, rfl, rfl,
    rfl, rfl⟩
  · exact (uregs _ (by simp only [queueKey, Fld.key, PB_STAT_UPSET]; omega)).trans hup
  · rw [urx, uregs _ (by have := j.isLt; simp only [queueKey, Fld.key, PI_STAT_PRESENT]; omega)]
    exact hport j j.isLt

/-! ### Sums -/

theorem addSums_append (a b : List (Nat × Bool)) :
    addSums (a ++ b) = ((addSums a).1 + (addSums b).1, (addSums a).2 || (addSums b).2) := by
  simp [addSums]

/-- Sums of sums are the sums of all. -/
theorem addSums_chunks (f : Nat → Nat × Bool) (m n : Nat) :
    addSums ((List.range n).map fun i => addSums ((List.range m).map fun j => f (m * i + j))) = addSums ((List.range (m * n)).map f) := by
  induction n with
  | zero => rfl
  | succ n ih =>
    rw [List.range_succ, List.map_append, addSums_append, ih, Nat.mul_succ, List.range_add, List.map_append, addSums_append,
      List.map_map]
    simp [addSums, Function.comp_def]

/-- A part of a list of sums. -/
theorem map_range_part {α : Type} (g : Nat → α) {n a m : Nat} (h : a + m ≤ n) :
    (((List.range n).map g).drop a).take m = (List.range m).map fun j => g (a + j) := by
  refine List.ext_getElem (by simp; omega) fun i h1 h2 => by simp

/-- Sum and mark of port `p`. -/
def State.portPair (s : State) (k p : Nat) : Nat × Bool := (s.portSum p k, s.portInc p k)

/-- The sums of the 64 port blocks. -/
def State.blockSums (s : State) (k : Nat) : List (Nat × Bool) :=
  (List.range 64).map fun i => addSums ((List.range 16).map fun j => s.portPair k (16 * i + j))

/-- The sums of the four regions, as they form them. -/
def State.regionSums (s : State) (k : Nat) : List (Nat × Bool) :=
  (List.range 4).map fun r => addSums (((s.blockSums k).drop (16 * r)).take 16)

/-- The sums of the regions as they reach the module: a bad one is replaced. -/
def takenSums (bad : Nat → Bool) (formed : List (Nat × Bool)) : List (Nat × Bool) :=
  (List.range 4).map fun r => if bad r then (0, true) else formed.getD r (0, false)

def State.showBlocks (s : State) (l : List (Nat × Bool)) : State :=
  (List.range 64).foldl (fun z i => (z.cset (PB_MULT_SUM i) (l.getD i (0, false)).1).cset (PB_MULT_INC i) (b2n (l.getD i (0, false)).2)) s

/-- A region's sum is shown, and a bad link to it counted. -/
def State.showRegion (l : List (Nat × Bool)) (bad : Nat → Bool) (s : State) (r : Nat) : State :=
  ((s.cset (RG_MULT_SUM r) (l.getD r (0, false)).1).cset (RG_MULT_INC r) (b2n (l.getD r (0, false)).2)).when (bad r)
    fun y => (y.cbump IG_STAT_LINKERR).cset IG_STAT_LINK_SEEN 1

def State.showModule (s : State) (m : Nat × Bool) : State := (s.cset IG_MULT_SUM m.1).cset IG_MULT_INC (b2n m.2)

/-- The region is in the list of bad links. -/
def linkBadAt (l : List RgnIx) (r : Nat) : Bool := l.any fun x => decide (x.val = r)

theorem State.regionSums_eq (s : State) (k : Nat) : s.regionSums k =
    (List.range 4).map fun r => addSums ((List.range 16).map fun j =>
      addSums ((List.range 16).map fun j' => s.portPair k (16 * (16 * r + j) + j'))) := by
  refine List.map_congr_left fun r hr => ?_
  rw [State.blockSums, map_range_part _ (by have := List.mem_range.1 hr; omega)]

/-- The sums of the regions add up to those of all ports. -/
theorem State.addSums_regionSums (s : State) (k : Nat) : addSums (s.regionSums k) = addSums ((List.range 1024).map (s.portPair k)) := by
  rw [State.regionSums_eq, addSums_chunks (fun i => addSums ((List.range 16).map fun j' => s.portPair k (16 * i + j'))) 16 4,
    addSums_chunks (s.portPair k) 16 64]

theorem takenSums_none (s : State) (k : Nat) : takenSums (linkBadAt []) (s.regionSums k) = s.regionSums k := by
  refine List.ext_getElem (by simp [takenSums, State.regionSums]) fun i h1 h2 => ?_
  simp [takenSums, linkBadAt, List.getElem?_eq_getElem h2]

theorem takenSums_bad (l : List (Nat × Bool)) (r : RgnIx) : (takenSums (linkBadAt [r]) l).getD r (1, false) = (0, true) := by
  have hr := r.isLt
  rw [List.getD_eq_getElem _ _ (by simp [takenSums])]
  simp [takenSums, linkBadAt]

theorem exec_sumsPresented {s : State} (h2 : 2 ≤ s.tm.tick) (bad : List RgnIx) : exec (.sumsPresented bad) s =
    .next (((((List.range 4).foldl (State.showRegion (s.regionSums (s.tm.tick - 2)) (linkBadAt bad))
      ((s.toInst (3440 * 65536)).showBlocks (s.blockSums (s.tm.tick - 2)))).showModule
        (addSums (takenSums (linkBadAt bad) (s.regionSums (s.tm.tick - 2))))).modTrg fun t => { t with sums :=
          ⟨s.tm.tick - 2, s.frameAt (s.tm.tick - 2), addSums (takenSums (linkBadAt bad) (s.regionSums (s.tm.tick - 2))),
            takenSums (linkBadAt bad) (s.regionSums (s.tm.tick - 2)), s.blockSums (s.tm.tick - 2)⟩ })) := by
  show execSumsPresented bad s = _
  unfold execSumsPresented
  rw [if_neg (by omega)]
  rfl

/-! What the shown sums leave. -/

/-- `t` is `s` with registers changed, the count of bad links as it was. -/
structure Shown (s t : State) : Prop where
  same : t = { s with creg := t.creg }
  linkerr : t.cget IG_STAT_LINKERR = s.cget IG_STAT_LINKERR
  seen : t.cget IG_STAT_LINK_SEEN = s.cget IG_STAT_LINK_SEEN

namespace Shown

variable {s t u : State}

theorem refl (s : State) : Shown s s := ⟨rfl, rfl, rfl⟩

theorem cset (h : Shown s t) (f : Fld) (v : Nat) (hf : f.reg ≠ 0x33f804) (hl : f.lo < 64) : Shown s (t.cset f v) := by
  refine ⟨?_, ?_, ?_⟩
  · rw [h.same]
    rfl
  · rw [State.cget_cset_ne _ _ _ _ (by simp only [Fld.key, IG_STAT_LINKERR]; omega), h.linkerr]
  · rw [State.cget_cset_ne _ _ _ _ (by simp only [Fld.key, IG_STAT_LINK_SEEN]; omega), h.seen]

theorem trans (h : Shown s t) (h' : Shown t u) : Shown s u :=
  ⟨by rw [h'.same, h.same], h'.linkerr.trans h.linkerr, h'.seen.trans h.seen⟩

end Shown

theorem State.showBlocks_shown (s : State) (l : List (Nat × Bool)) : Shown s (s.showBlocks l) :=
  List.foldlRecOn (motive := fun y => Shown s y) _ _ (.refl s) fun y hy i hi => by
    have := List.mem_range.1 hi
    exact (hy.cset (PB_MULT_SUM i) _ (by simp only [PB_MULT_SUM]; omega) (by simp [PB_MULT_SUM])).cset (PB_MULT_INC i) _
      (by simp only [PB_MULT_INC]; omega) (by simp [PB_MULT_INC])

theorem State.showModule_shown (s : State) (m : Nat × Bool) : Shown s (s.showModule m) :=
  ((Shown.refl s).cset IG_MULT_SUM _ (by decide) (by decide)).cset IG_MULT_INC _ (by decide) (by decide)

theorem State.showModule_inc (s : State) (m : Nat × Bool) : (s.showModule m).cget IG_MULT_INC = b2n m.2 :=
  State.cget_cset_of_lt _ (b2n_lt_two _)

/-- The sums of a region shown, before its link counts. -/
theorem State.regionShown (s : State) (l : List (Nat × Bool)) (r : Nat) :
    Shown s ((s.cset (RG_MULT_SUM r) (l.getD r (0, false)).1).cset (RG_MULT_INC r) (b2n (l.getD r (0, false)).2)) :=
  ((Shown.refl s).cset (RG_MULT_SUM r) _ (by simp only [RG_MULT_SUM]; omega) (by simp [RG_MULT_SUM])).cset (RG_MULT_INC r) _
    (by simp only [RG_MULT_INC]; omega) (by simp [RG_MULT_INC])

theorem State.showRegion_good (s : State) (l : List (Nat × Bool)) {bad : Nat → Bool} {r : Nat} (hb : bad r = false) :
    Shown s (State.showRegion l bad s r) := by
  unfold State.showRegion
  rw [hb]
  exact s.regionShown l r

theorem State.showRegion_bad (s : State) (l : List (Nat × Bool)) {bad : Nat → Bool} {r : Nat} (hb : bad r = true) :
    (State.showRegion l bad s r).cget IG_STAT_LINKERR = min (s.cget IG_STAT_LINKERR + 1) 255 ∧
      (State.showRegion l bad s r).cget IG_STAT_LINK_SEEN = 1 := by
  unfold State.showRegion
  rw [hb, State.when_true, State.cget_cset_ne _ _ _ _ (by decide), State.cget_cbump_sat, (s.regionShown l r).linkerr,
    State.cget_cset_of_lt _ (by decide)]
  exact ⟨rfl, rfl⟩

theorem State.showRegions_good (s : State) (l : List (Nat × Bool)) :
    Shown s ((List.range 4).foldl (State.showRegion l (linkBadAt [])) s) :=
  List.foldlRecOn (motive := fun y => Shown s y) _ _ (.refl s) fun y hy _ _ =>
    hy.trans (y.showRegion_good l rfl)

theorem State.showRegions_bad (s : State) (l : List (Nat × Bool)) (r : RgnIx) :
    ((List.range 4).foldl (State.showRegion l (linkBadAt [r])) s).cget IG_STAT_LINKERR = min (s.cget IG_STAT_LINKERR + 1) 255 ∧
      ((List.range 4).foldl (State.showRegion l (linkBadAt [r])) s).cget IG_STAT_LINK_SEEN = 1 := by
  obtain ⟨z, hz, hu⟩ := State.foldl_at (fun y => (y.cget IG_STAT_LINKERR, y.cget IG_STAT_LINK_SEEN))
    (State.showRegion l (linkBadAt [r])) List.nodup_range (List.mem_range.2 r.isLt)
    (fun y q _ hne => by
      have h := y.showRegion_good l (bad := linkBadAt [r]) (r := q) (by simp [linkBadAt, Ne.symm hne])
      rw [h.linkerr, h.seen]) s
  obtain ⟨hze, -⟩ := Prod.mk.inj hz
  obtain ⟨hue, hus⟩ := Prod.mk.inj hu
  obtain ⟨he, hs⟩ := z.showRegion_bad l (bad := linkBadAt [r]) (r := r.val) (by simp [linkBadAt])
  exact ⟨by rw [hue, he, hze], hus.trans hs⟩

@[simp] theorem State.modTrg_sums (s : State) (x : Sums) : (s.modTrg fun t => { t with sums := x }).trg.sums = x := rfl

theorem sumsPresented_good {s : State} (h2 : 2 ≤ s.tm.tick) : ∃ u, exec (.sumsPresented []) s = .next u ∧
    u.trg.sums.module_.1 = ((List.range 1024).map fun p => s.portSum p (s.tm.tick - 2)).sum ∧
    u.trg.sums.module_.2 = ((List.range 1024).any fun p => s.portInc p (s.tm.tick - 2)) ∧
    u.cget IG_MULT_INC = b2n u.trg.sums.module_.2 ∧ u.trg.sums.frame = s.frameAt (s.tm.tick - 2) ∧
    u.cget IG_STAT_LINKERR = s.cget IG_STAT_LINKERR ∧ u = { s with tm := u.tm, creg := u.creg, trg := u.trg } := by
  refine ⟨_, exec_sumsPresented h2 [], ?_⟩
  rw [takenSums_none, s.addSums_regionSums]
  have hz : ∀ i, ∃ x, s.toInst i = { s with tm := x } := fun i => ⟨_, rfl⟩
  obtain ⟨x, hx⟩ := hz (3440 * 65536)
  rw [hx]
  have hsh := ((State.showBlocks_shown { s with tm := x } (s.blockSums (s.tm.tick - 2))).trans
    (State.showRegions_good _ (s.regionSums (s.tm.tick - 2)))).trans
      (State.showModule_shown _ (addSums ((List.range 1024).map (s.portPair (s.tm.tick - 2)))))
  have hinc := State.showModule_inc ((List.range 4).foldl (State.showRegion (s.regionSums (s.tm.tick - 2)) (linkBadAt []))
    (State.showBlocks { s with tm := x } (s.blockSums (s.tm.tick - 2)))) (addSums ((List.range 1024).map (s.portPair (s.tm.tick - 2))))
  generalize State.showModule _ (addSums ((List.range 1024).map (s.portPair (s.tm.tick - 2)))) = y at hsh hinc ⊢
  have hsum : addSums ((List.range 1024).map (s.portPair (s.tm.tick - 2))) =
      (((List.range 1024).map fun p => s.portSum p (s.tm.tick - 2)).sum, (List.range 1024).any fun p => s.portInc p (s.tm.tick - 2)) := by
    rw [addSums, List.map_map, List.any_map]
    rfl
  rw [hsum] at hinc ⊢
  generalize ((List.range 1024).map fun p => s.portSum p (s.tm.tick - 2)).sum = a at *
  generalize ((List.range 1024).any fun p => s.portInc p (s.tm.tick - 2)) = b at *
  refine ⟨rfl, rfl, hinc, rfl, hsh.linkerr, ?_⟩
  rw [hsh.same]
  rfl

theorem sumsPresented_bad {s : State} (h2 : 2 ≤ s.tm.tick) (r : RgnIx) : ∃ u, exec (.sumsPresented [r]) s = .next u ∧
    u.trg.sums.regions.getD r (1, false) = (0, true) ∧ u.trg.sums.module_.2 = true ∧
    u.cget IG_STAT_LINKERR = min (s.cget IG_STAT_LINKERR + 1) 255 ∧ u.cget IG_STAT_LINK_SEEN = 1 := by
  refine ⟨_, exec_sumsPresented h2 [r], ?_⟩
  have hmod : ∀ l, (addSums (takenSums (linkBadAt [r]) l)).2 = true := fun l => by
    rw [addSums, takenSums, List.any_map]
    exact List.any_eq_true.2 ⟨r.val, List.mem_range.2 r.isLt, by simp [linkBadAt]⟩
  have hz : ∀ i, (s.toInst i).cget IG_STAT_LINKERR = s.cget IG_STAT_LINKERR := fun _ => rfl
  rw [State.modTrg_sums, State.modTrg_cget, State.modTrg_cget, (State.showModule_shown _ _).linkerr, (State.showModule_shown _ _).seen,
    (State.showRegions_bad _ _ r).1, (State.showRegions_bad _ _ r).2, (State.showBlocks_shown _ _).linkerr, hz]
  exact ⟨takenSums_bad _ r, hmod _, rfl, rfl⟩

/-- Settles O26: the sums of blocks and regions are sums of chunks of the ports' sums. -/
theorem sumsCountWhatThePortsSent : Obligations.SumsCountWhatThePortsSent :=
  ⟨fun _ _ _ h2 hr => ⟨alignedRelease_single h2 hr, alignedRelease_double h2 hr⟩, fun _ _ _ hs => mergeUpset_clause hs,
    fun _ h2 => sumsPresented_good h2, fun _ r h2 => sumsPresented_bad h2 r⟩

end Sys2Proof.Machine

/-! ## The coder and its verifier -/

namespace Sys2Proof.Machine

set_option Elab.async false

/-! ### A unit enters the merge of its region -/

theorem State.toMerge_fair (s : State) (u : Unit_) : ((s.toMerge u).rgn (u.port / 256)).fair = (s.rgn (u.port / 256)).fair ++ [u] := by
  rw [State.toMerge, State.cwrap_rgn, State.rgn_modRgn]

theorem State.toMerge_cget_ne (s : State) (u : Unit_) {f : Fld} (h : f.key ≠ (PB_OUT_CNT (u.port / 16)).key) :
    (s.toMerge u).cget f = s.cget f := by
  rw [State.toMerge, State.cwrap, State.cget_cset_ne _ _ _ _ h, State.modRgn_cget]

theorem State.toMerge_port (s : State) (u : Unit_) (p : Nat) : (s.toMerge u).port p = s.port p := rfl

theorem State.toMerge_same (s : State) (u : Unit_) :
    s.toMerge u = { s with creg := (s.toMerge u).creg, regions := (s.toMerge u).regions } := rfl

/-! ### Coding -/

/-- The block of port `p` has left its buffer. -/
def State.blockTaken (s : State) (p k : Nat) : State :=
  ((((s.modRx p k fun x => { x with formed := true }).cset (PI_STAT_PRESENT p) 1).cset (PI_STAT_LAST_N p)
    (s.rx p k).raw.length).cwrap (PI_REC_CNT p) (s.rx p k).raw.length).cwrap (PB_IN_CNT (p / 16)) (8 * (s.rx p k).raw.length)

theorem exec_hazelCode {s : State} {p : PortIx} (h2 : 2 ≤ s.tm.tick) (hb : s.blockReady p (s.tm.tick - 2) = true) (n : Nat) :
    exec (.hazelCode p n) s = .next (
      if !(s.con (RG_CTRL_HZ_EN (p.val / 256))) then (s.blockTaken p (s.tm.tick - 2)).toMerge
        (s.rawUnit p (s.tm.tick - 2) (s.frameAt (s.tm.tick - 2)) (s.unitFlags p (s.tm.tick - 2)) (s.rx p (s.tm.tick - 2)).raw)
      else if 8 * (s.rx p (s.tm.tick - 2)).raw.length ≤ n then
        ((s.blockTaken p (s.tm.tick - 2)).cbump (PB_STAT_EXPAND (p.val / 16))).toMerge
          (s.rawUnit p (s.tm.tick - 2) (s.frameAt (s.tm.tick - 2)) (s.unitFlags p (s.tm.tick - 2)) (s.rx p (s.tm.tick - 2)).raw)
      else (s.blockTaken p (s.tm.tick - 2)).modPort p fun x => { x with
        block := some ⟨s.tm.tick - 2, s.frameAt (s.tm.tick - 2), (s.rx p (s.tm.tick - 2)).raw, n, s.unitFlags p (s.tm.tick - 2)⟩ }) := by
  have h2' : ¬ s.tm.tick < 2 := by omega
  show execHazelCode p n s = _
  unfold execHazelCode
  simp only [h2', hb, decide_false, Bool.not_true, Bool.or_self, Bool.false_eq_true, if_false]
  rfl

section
variable (s : State) (p k : Nat)

theorem State.blockTaken_regions : (s.blockTaken p k).regions = s.regions := rfl

theorem State.blockTaken_formed : ((s.blockTaken p k).rx p k).formed = true := by
  have h := s.rx_modRx p k (fun x => { x with formed := true }) (s.rx_tick p k)
  exact congrArg RxSlot.formed h

theorem State.blockTaken_block : ((s.blockTaken p k).port p).block = (s.port p).block := by
  have h : (s.blockTaken p k).port p = (s.modRx p k fun x => { x with formed := true }).port p := rfl
  rw [h, State.modRx, State.port_modPort]
  split <;> rfl

theorem State.blockTaken_present : (s.blockTaken p k).cget (PI_STAT_PRESENT p) = 1 := by
  rw [State.blockTaken, State.cwrap, State.cget_cset_ne _ _ _ _ (by simp only [Fld.key, PI_STAT_PRESENT, PB_IN_CNT]; omega), State.cwrap,
    State.cget_cset_ne _ _ _ _ (by simp only [Fld.key, PI_STAT_PRESENT, PI_REC_CNT]; omega),
    State.cget_cset_ne _ _ _ _ (by simp only [Fld.key, PI_STAT_PRESENT, PI_STAT_LAST_N]; omega),
    State.cget_cset_of_lt _ (by simp [PI_STAT_PRESENT])]

theorem State.blockTaken_expand : (s.blockTaken p k).cget (PB_STAT_EXPAND (p / 16)) = s.cget (PB_STAT_EXPAND (p / 16)) := by
  rw [State.blockTaken, State.cwrap, State.cget_cset_ne _ _ _ _ (by simp only [Fld.key, PB_STAT_EXPAND, PB_IN_CNT]; omega), State.cwrap,
    State.cget_cset_ne _ _ _ _ (by simp only [Fld.key, PB_STAT_EXPAND, PI_REC_CNT]; omega),
    State.cget_cset_ne _ _ _ _ (by simp only [Fld.key, PB_STAT_EXPAND, PI_STAT_LAST_N]; omega),
    State.cget_cset_ne _ _ _ _ (by simp only [Fld.key, PB_STAT_EXPAND, PI_STAT_PRESENT]; omega), State.modRx, State.modPort_cget]

end

/-- What a raw unit leaves when it enters the merge. -/
theorem rawMerged {s z : State} {p k : Nat} (hr : z.regions = s.regions) (hf : (z.rx p k).formed = true)
    (hp : z.cget (PI_STAT_PRESENT p) = 1) (hb : (z.port p).block = (s.port p).block) {v : Unit_} (hv : v.port = p) :
    ((z.toMerge v).rgn (p / 256)).fair = (s.rgn (p / 256)).fair ++ [v] ∧ ((z.toMerge v).rx p k).formed = true ∧
      (z.toMerge v).cget (PI_STAT_PRESENT p) = 1 ∧ ((z.toMerge v).port p).block = (s.port p).block := by
  subst hv
  refine ⟨?_, hf, ?_, hb⟩
  · rw [State.toMerge_fair, State.rgn, hr]
    rfl
  · rw [State.toMerge_cget_ne _ _ (by simp only [Fld.key, PI_STAT_PRESENT, PB_OUT_CNT]; omega), hp]

theorem hazelCode_raw {s : State} {p : PortIx} {n : Nat} (h2 : 2 ≤ s.tm.tick) (hb : s.blockReady p (s.tm.tick - 2) = true)
    (h : s.con (RG_CTRL_HZ_EN (p.val / 256)) = false ∨ 8 * (s.rx p (s.tm.tick - 2)).raw.length ≤ n) :
    let k := s.tm.tick - 2
    ∃ u, exec (.hazelCode p n) s = .next u ∧
      (u.rgn (p.val / 256)).fair = (s.rgn (p.val / 256)).fair ++
        [s.rawUnit p k (s.frameAt k) (s.unitFlags p k) (s.rx p k).raw] ∧
      (u.rx p k).formed = true ∧ u.cget (PI_STAT_PRESENT p) = 1 ∧ (u.port p).block = (s.port p).block ∧
      (s.con (RG_CTRL_HZ_EN (p.val / 256)) = true →
        u.cget (PB_STAT_EXPAND (p.val / 16)) = min (s.cget (PB_STAT_EXPAND (p.val / 16)) + 1) 65535) := by
  have he := exec_hazelCode h2 hb n
  have hform := s.blockTaken_formed p (s.tm.tick - 2)
  have hpres := s.blockTaken_present p (s.tm.tick - 2)
  have hblk := s.blockTaken_block p (s.tm.tick - 2)
  have hexp := s.blockTaken_expand p (s.tm.tick - 2)
  have hrgn := s.blockTaken_regions p (s.tm.tick - 2)
  intro k
  refine ⟨_, he, ?_⟩
  generalize s.blockTaken p (s.tm.tick - 2) = z at *
  have hv : (s.rawUnit p k (s.frameAt k) (s.unitFlags p k) (s.rx p k).raw).port = p.val := rfl
  change _ at h
  by_cases hen : s.con (RG_CTRL_HZ_EN (p.val / 256)) = true
  · have hlen := h.resolve_left (by simp [hen])
    rw [hen, if_neg (by decide), if_pos hlen]
    have hpres' : (z.cbump (PB_STAT_EXPAND (p.val / 16))).cget (PI_STAT_PRESENT p) = 1 := by
      rw [State.cget_cbump_ne _ _ _ (by simp only [Fld.key, PI_STAT_PRESENT, PB_STAT_EXPAND]; omega), hpres]
    obtain ⟨m1, m2, m3, m4⟩ := rawMerged (s := s) (z := z.cbump (PB_STAT_EXPAND (p.val / 16))) hrgn hform hpres' hblk hv
    refine ⟨m1, m2, m3, m4, fun _ => ?_⟩
    rw [State.toMerge_cget_ne _ _ (by rw [hv]; simp only [Fld.key, PB_STAT_EXPAND, PB_OUT_CNT]; omega), State.cget_cbump_sat, hexp]
    rfl
  · rw [Bool.not_eq_true] at hen
    rw [hen, Bool.not_false, if_pos rfl]
    obtain ⟨m1, m2, m3, m4⟩ := rawMerged (s := s) hrgn hform hpres hblk hv
    exact ⟨m1, m2, m3, m4, fun hc => by cases hc⟩

theorem hazelCode_coded {s : State} {p : PortIx} {n : Nat} (h2 : 2 ≤ s.tm.tick) (hb : s.blockReady p (s.tm.tick - 2) = true)
    (hen : s.con (RG_CTRL_HZ_EN (p.val / 256)) = true) (hn : n < 8 * (s.rx p (s.tm.tick - 2)).raw.length) :
    let k := s.tm.tick - 2
    ∃ u, exec (.hazelCode p n) s = .next u ∧
      (u.port p).block = some { tick := k, frame := s.frameAt k, raw := (s.rx p k).raw, codedLen := n, flags := s.unitFlags p k } ∧
      u.regions = s.regions ∧ u.cget (PB_STAT_EXPAND (p.val / 16)) = s.cget (PB_STAT_EXPAND (p.val / 16)) := by
  have he := exec_hazelCode h2 hb n
  rw [hen, if_neg (by decide), if_neg (by omega)] at he
  have hexp := s.blockTaken_expand p (s.tm.tick - 2)
  have hrgn := s.blockTaken_regions p (s.tm.tick - 2)
  intro k
  refine ⟨_, he, ?_⟩
  generalize s.blockTaken p (s.tm.tick - 2) = z at *
  rw [State.port_modPort, State.modPort_regions, State.modPort_cget]
  exact ⟨rfl, hrgn, hexp⟩

/-! ### Verification -/

/-- A coded block that fails its check goes on raw, counted by its cause. -/
theorem State.verifyFailed_facts (s : State) {p : Nat} {cnt : Fld} {u : Unit_} (hu : u.port = p) (hw : cnt.width = 8)
    (hreg : cnt.reg = 0x310004 + 0x40000 * (p / 16 / 16) + 0x100 * (p / 16 % 16)) (hlo : cnt.lo < 64) (hp : p < 1024) :
    ((s.verifyFailed p cnt u).rgn (p / 256)).fair = (s.rgn (p / 256)).fair ++ [u] ∧ ((s.verifyFailed p cnt u).port p) = s.port p ∧
      (s.verifyFailed p cnt u).cget (PB_STAT_VFAIL_SEEN (p / 16)) = 1 ∧
      (s.verifyFailed p cnt u).cget cnt = min (s.cget cnt + 1) 255 := by
  subst hu
  have hkey : cnt.key = (0x310004 + 0x40000 * (u.port / 16 / 16) + 0x100 * (u.port / 16 % 16)) * 64 + cnt.lo := by rw [Fld.key, hreg]
  have hseen : (((s.cbump cnt).cset (PB_STAT_VFAIL_SEEN (u.port / 16)) 1).toMerge u).cget (PB_STAT_VFAIL_SEEN (u.port / 16)) = 1 := by
    rw [State.toMerge_cget_ne _ _ (by simp only [Fld.key, PB_STAT_VFAIL_SEEN, PB_OUT_CNT]; omega),
      State.cget_cset_of_lt _ (by simp [PB_STAT_VFAIL_SEEN])]
  have hcnt : (((s.cbump cnt).cset (PB_STAT_VFAIL_SEEN (u.port / 16)) 1).toMerge u).cget cnt = min (s.cget cnt + 1) 255 := by
    rw [State.toMerge_cget_ne _ _ (by rw [hkey]; simp only [Fld.key, PB_OUT_CNT]; omega),
      State.cget_cset_ne _ _ _ _ (by rw [hkey]; simp only [Fld.key, PB_STAT_VFAIL_SEEN]; omega), State.cget_cbump_sat, hw]
    rfl
  have hfair : ((((s.cbump cnt).cset (PB_STAT_VFAIL_SEEN (u.port / 16)) 1).toMerge u).rgn (u.port / 256)).fair =
      (s.rgn (u.port / 256)).fair ++ [u] := by rw [State.toMerge_fair, State.cset_rgn, State.cbump_rgn]
  have hport : (((s.cbump cnt).cset (PB_STAT_VFAIL_SEEN (u.port / 16)) 1).toMerge u).port u.port = s.port u.port := rfl
  unfold State.verifyFailed
  extract_lets r due s1
  change s1.cget _ = 1 at hseen
  change s1.cget cnt = _ at hcnt
  change (s1.rgn (u.port / 256)).fair = _ at hfair
  change s1.port u.port = _ at hport
  clear_value s1 due
  split
  · have hq := (s1.modRgn r fun x => { x with hazelNote := some s.tm.tick }).monNotice_queued 4
    refine ⟨?_, ?_, ?_, ?_⟩
    · rw [hq.rgn_eq, State.rgn_modRgn]
      exact hfair
    · rw [State.port, hq.same]
      exact hport
    · rw [hq.regs _ (by simp only [queueKey, Fld.key, PB_STAT_VFAIL_SEEN]; omega), State.modRgn_cget, hseen]
    · rw [hq.regs _ (by rw [hkey]; unfold queueKey; omega), State.modRgn_cget, hcnt]
  · exact ⟨hfair, hport, hseen, hcnt⟩

/-- The counter of what a check of a block finds. -/
def hzFailFld (i : Nat) (x : Except HzFail (List W64)) : Fld :=
  match x with
  | .ok _ => PB_HZERR_MISMATCH i
  | .error .illegal => PB_HZERR_ILLEGAL i
  | .error .distance => PB_HZERR_DISTANCE i
  | .error .overrun => PB_HZERR_OVERRUN i

theorem hzFailFld_facts (i : Nat) (x : Except HzFail (List W64)) : (hzFailFld i x).width = 8 ∧
    (hzFailFld i x).reg = 0x310004 + 0x40000 * (i / 16) + 0x100 * (i % 16) ∧ (hzFailFld i x).lo < 64 := by
  obtain e | l := x
  · cases e <;> exact ⟨rfl, rfl, by simp [hzFailFld, PB_HZERR_ILLEGAL, PB_HZERR_DISTANCE, PB_HZERR_OVERRUN]⟩
  · exact ⟨rfl, rfl, by simp [hzFailFld, PB_HZERR_MISMATCH]⟩

theorem exec_hazelVerify_ok {s : State} {p : PortIx} {b : BlockSt} {pl : List Byte} (hb : (s.port p).block = some b)
    (hl : pl.length = b.codedLen) (h : hzRecords b.raw.length pl = .ok b.raw) : exec (.hazelVerify p pl) s =
      .next ((s.modPort p fun x => { x with block := none }).toMerge (s.codedUnit p b.tick b.frame b.flags b.raw pl)) := by
  show execHazelVerify p pl s = _
  unfold execHazelVerify
  simp only [hb, hl, h, ne_eq, not_true_eq_false, if_false, if_true]

theorem exec_hazelVerify_fail {s : State} {p : PortIx} {b : BlockSt} {pl : List Byte} (hb : (s.port p).block = some b)
    (hl : pl.length = b.codedLen) (h : hzRecords b.raw.length pl ≠ .ok b.raw) : exec (.hazelVerify p pl) s =
      .next ((s.modPort p fun x => { x with block := none }).verifyFailed p (hzFailFld (p.val / 16) (hzRecords b.raw.length pl))
        (s.rawUnit p b.tick b.frame b.flags b.raw)) := by
  show execHazelVerify p pl s = _
  unfold execHazelVerify
  simp only [hb, hl, ne_eq, not_true_eq_false, if_false]
  cases hz : hzRecords b.raw.length pl with
  | ok l =>
    rw [hz] at h
    simp only [show l ≠ b.raw from fun e => h (by rw [e]), if_false]
    rfl
  | error e => cases e <;> rfl

theorem hazelVerify_clause {s : State} {p : PortIx} {b : BlockSt} {pl : List Byte} (hb : (s.port p).block = some b)
    (hl : pl.length = b.codedLen) :
    ∃ u v, exec (.hazelVerify p pl) s = .next u ∧ (u.rgn (p.val / 256)).fair = (s.rgn (p.val / 256)).fair ++ [v] ∧
      (u.port p).block = none ∧ v.port = p.val ∧ v.frame = b.frame ∧ v.rawN = b.raw.length ∧
      (hzRecords b.raw.length pl = .ok b.raw →
        v = s.codedUnit p b.tick b.frame b.flags b.raw pl ∧ u = { s with creg := u.creg, ports := u.ports, regions := u.regions }) ∧
      (hzRecords b.raw.length pl ≠ .ok b.raw → v = s.rawUnit p b.tick b.frame b.flags b.raw ∧
        u.cget (PB_STAT_VFAIL_SEEN (p.val / 16)) = 1) ∧
      (hzRecords b.raw.length pl = .error .illegal →
        u.cget (PB_HZERR_ILLEGAL (p.val / 16)) = min (s.cget (PB_HZERR_ILLEGAL (p.val / 16)) + 1) 255) ∧
      (hzRecords b.raw.length pl = .error .distance →
        u.cget (PB_HZERR_DISTANCE (p.val / 16)) = min (s.cget (PB_HZERR_DISTANCE (p.val / 16)) + 1) 255) ∧
      (hzRecords b.raw.length pl = .error .overrun →
        u.cget (PB_HZERR_OVERRUN (p.val / 16)) = min (s.cget (PB_HZERR_OVERRUN (p.val / 16)) + 1) 255) ∧
      (∀ r, hzRecords b.raw.length pl = .ok r → r ≠ b.raw →
        u.cget (PB_HZERR_MISMATCH (p.val / 16)) = min (s.cget (PB_HZERR_MISMATCH (p.val / 16)) + 1) 255) := by
  by_cases h : hzRecords b.raw.length pl = .ok b.raw
  · refine ⟨_, _, exec_hazelVerify_ok hb hl h, State.toMerge_fair _ _, ?_, rfl, rfl, rfl, fun _ => ⟨rfl, rfl⟩, fun hn => absurd h hn, ?_⟩
    · rw [State.toMerge_port, State.port_modPort]
    · rw [h]
      exact ⟨nofun, nofun, nofun, fun r e hne => absurd (Except.ok.inj e).symm hne⟩
  · obtain ⟨hw, hreg, hlo⟩ := hzFailFld_facts (p.val / 16) (hzRecords b.raw.length pl)
    obtain ⟨vfair, vport, vseen, vcnt⟩ := (s.modPort p fun x => { x with block := none }).verifyFailed_facts (p := p.val)
      (u := s.rawUnit p b.tick b.frame b.flags b.raw) rfl hw hreg hlo p.isLt
    refine ⟨_, _, exec_hazelVerify_fail hb hl h, vfair, ?_, rfl, rfl, rfl, fun he => absurd he h, fun _ => ⟨rfl, vseen⟩, ?_⟩
    · rw [vport, State.port_modPort]
    · rw [State.modPort_cget] at vcnt
      refine ⟨fun e => ?_, fun e => ?_, fun e => ?_, fun r e _ => ?_⟩ <;> rw [e] at vcnt ⊢ <;> exact vcnt

/-- Settles O27. -/
theorem noUnverifiedCodedBlockIsCommitted : Obligations.NoUnverifiedCodedBlockIsCommitted :=
  ⟨fun _ _ _ h2 hb => ⟨fun h => hazelCode_raw h2 hb h, fun hen hn => hazelCode_coded h2 hb hen hn⟩,
    fun _ _ _ _ hb hl => hazelVerify_clause hb hl⟩

end Sys2Proof.Machine

/-! ## The budget of a region -/

namespace Sys2Proof.Machine

set_option Elab.async false

/-! ### What storing a unit leaves to the budget -/

/-- The part of a region that the budget speaks of. -/
def Region.budget (x : Region) : List Unit_ × List Unit_ × Tab Nat × List Crev := (x.fair, x.spill, x.handed, x.crevs)

/-- `t` is `s` with something of slice `k` stored in region `r`: the budget of the region, the registers below those of the store and all
of the index entry but its write failures are as they were. -/
structure StoreOnly (r k : Nat) (s t : State) : Prop where
  same : t = { s with
    creg := t.creg, regions := t.regions, upl := t.upl, sp := t.sp,
    firn := { s.firn with extents := t.firn.extents, index := t.firn.index } }
  others : ∀ q, q ≠ r → t.rgn q = s.rgn q
  budget : (t.rgn r).budget = (s.rgn r).budget
  regs : ∀ g : Fld, g.key < 0x400000 * 64 → t.cget g = s.cget g
  entry : t.ixe k = { s.ixe k with wfail := (t.ixe k).wfail }

namespace StoreOnly

variable {r k : Nat} {s t u : State}

theorem refl (r k : Nat) (s : State) : StoreOnly r k s s := ⟨rfl, fun _ _ => rfl, rfl, fun _ _ => rfl, rfl⟩

theorem cset (h : StoreOnly r k s t) (f : Fld) (v : Nat) (hf : 0x400000 ≤ f.reg) : StoreOnly r k s (t.cset f v) := by
  refine ⟨?_, h.others, h.budget, fun g hg => ?_, h.entry⟩
  · rw [h.same]
    rfl
  · rw [State.cget_cset_ne _ _ _ _ (by unfold Fld.key at *; omega), h.regs g hg]

theorem cwrap (h : StoreOnly r k s t) (f : Fld) (n : Nat) (hf : 0x400000 ≤ f.reg) : StoreOnly r k s (t.cwrap f n) := h.cset f _ hf
theorem cbump (h : StoreOnly r k s t) (f : Fld) (hf : 0x400000 ≤ f.reg) : StoreOnly r k s (t.cbump f) := h.cset f _ hf

theorem modRgn (h : StoreOnly r k s t) (g : Region → Region) (hg : ∀ x, (g x).budget = x.budget) : StoreOnly r k s (t.modRgn r g) := by
  refine ⟨?_, fun q hq => (t.rgn_modRgn_ne g hq).trans (h.others q hq), by rw [State.rgn_modRgn, hg, h.budget], h.regs, h.entry⟩
  rw [h.same]
  rfl

theorem setExt (h : StoreOnly r k s t) (q e : Nat) (x : Extent) : StoreOnly r k s (t.setExt q e x) := by
  refine ⟨?_, h.others, h.budget, h.regs, h.entry⟩
  rw [h.same]
  rfl

theorem modExt (h : StoreOnly r k s t) (q e : Nat) (g : Extent → Extent) : StoreOnly r k s (t.modExt q e g) := h.setExt _ _ _

theorem setWfail (h : StoreOnly r k s t) (w : Nat) : StoreOnly r k s (t.setIxe k { t.ixe k with wfail := w }) := by
  have hix : (t.setIxe k { t.ixe k with wfail := w }).ixe k = { t.ixe k with wfail := w } := tget_tset_same ..
  refine ⟨?_, h.others, h.budget, h.regs, ?_⟩
  · rw [h.same]
    rfl
  · rw [hix, h.entry]

theorem modSp (h : StoreOnly r k s t) (g : SpSt → SpSt) : StoreOnly r k s (t.modSp g) := by
  refine ⟨?_, h.others, h.budget, h.regs, h.entry⟩
  rw [h.same]
  rfl

theorem ite {c : Prop} [Decidable c] (h : StoreOnly r k s t) (h' : StoreOnly r k s u) : StoreOnly r k s (if c then t else u) := by
  split
  · exact h
  · exact h'

theorem raise (h : StoreOnly r k s t) (f : Fld) (hf : 0x400000 ≤ f.reg) : StoreOnly r k s (t.raise f) := by
  unfold State.raise
  split
  · exact h
  · have h1 := h.cset f 1 hf
    have hq := (t.cset f 1).alarmAt_queued (if f.lo < 32 then f.reg else f.reg + 4)
    rw [State.alarm]
    refine ⟨?_, fun q hne => (hq.rgn_eq q).trans (h.others q hne), by rw [hq.rgn_eq]; exact h.budget,
      fun g hg => (hq.regs g (by unfold queueKey; omega)).trans (h1.regs g hg), ?_⟩
    · rw [hq.same, h.same]
      rfl
    · rw [State.ixe, hq.same]
      exact h.entry

theorem putChain (h : StoreOnly r k s t) (c : Chain) : StoreOnly r k s (t.putChain r c) := h.modRgn _ fun _ => rfl

theorem issueLine (h : StoreOnly r k s t) (c : Chain) (line : Nat) (d : List Byte) : StoreOnly r k s (t.issueLine r c line d) := by
  refine .cwrap (.modExt (.modRgn h _ fun _ => ?_) r c.ext _) _ _ ?_
  · rfl
  · simp only [FRR_LINES_CNT]
    omega

theorem issueFull (h : StoreOnly r k s t) (c : Chain) (n : Nat) : StoreOnly r k s (t.issueFull r c n).1 := by
  induction n generalizing t c with
  | zero => exact h
  | succ n ih =>
    unfold State.issueFull
    split
    · exact h
    · exact ih (h.issueLine ..) _

theorem noExtent (h : StoreOnly r k s t) : StoreOnly r k s (t.noExtent r k) := by
  unfold State.noExtent
  exact (((h.cbump _ (by simp only [FRR_WR_WFAIL]; omega)).raise _ (by simp only [FRR_STAT_NO_EXTENT]; omega)).cset _ _
    (by decide)).setWfail _

theorem takeExtent (h : StoreOnly r k s t) {j e g : Nat} (he : t.takeExtent r j = some (e, g, u)) : StoreOnly r k s u := by
  unfold State.takeExtent at he
  split at he
  · cases he
  · cases he
    refine .setExt (.cset (.modRgn h _ fun _ => ?_) _ _ ?_) _ _ _
    · rfl
    · simp only [FRR_STAT_READY]
      omega

theorem chainExtent (h : StoreOnly r k s t) {c d : Chain} {close : Bool} (he : t.chainExtent r c close = some (d, u)) :
    StoreOnly r k s u := by
  unfold State.chainExtent at he
  split at he
  · cases he
  next e _ z hz =>
    cases he
    exact .ite (((h.takeExtent hz).issueFull _ _).modExt _ _ _) ((h.takeExtent hz).modExt _ _ _)

theorem putItem (h : StoreOnly r k s t) {c d : Chain} {w : Option LineUnit} {first : Bool} {b : List Byte}
    (he : t.putItem r c w first b = some (d, u)) : StoreOnly r k s u := by
  simp only [State.putItem] at he
  split at he
  · cases he
  next d1 z hz =>
    have h1 : StoreOnly r k s z := by
      split at hz
      · cases hz
        exact h
      · exact h.chainExtent hz
    cases he
    have h2 : StoreOnly r k s (if first then z.modExt r d1.ext fun x => if x.fofs = 0x7FFFFF then { x with fofs := d1.used } else x
        else z) := .ite (h1.modExt _ _ _) h1
    exact .ite (h2.modExt _ _ _) h2

theorem putItems (h : StoreOnly r k s t) {c d : Chain} {w : Option LineUnit} {first : Bool} {bs : List (List Byte)}
    (he : t.putItems r c w first bs = some (d, u)) : StoreOnly r k s u := by
  induction bs generalizing t c first with
  | nil =>
    cases he
    exact h
  | cons b r ih =>
    unfold State.putItems at he
    split at he
    · cases he
    next hz => exact ih (h.putItem hz) he

theorem tryStore (h : StoreOnly r k s t) (w : Option LineUnit) (crev : Bool) (items : List (List Byte)) :
    StoreOnly r k s (t.tryStore r k w crev items).1 := by
  unfold State.tryStore
  split
  · exact h.cbump _ (by decide)
  · simp only
    split
    · exact h.noExtent
    next c z hz =>
      have h1 : StoreOnly r k s z := by
        split at hz
        · split at hz
          · cases hz
          · cases hz
            exact h
        · split at hz
          next he =>
            cases hz
            exact h.takeExtent he
          next => cases hz
      split
      · exact (h1.putChain _).noExtent
      next hz2 => exact (h1.putItems hz2).putChain _

theorem serviceUnit (h : StoreOnly r k s t) (v : Unit_) : StoreOnly r k s (t.serviceUnit v) := .ite h (h.modSp _)

end StoreOnly

/-! ### A unit handed on, lost or dropped -/

section
variable (s : State) {r : Nat} (u : Unit_)

/-- The bytes of a unit handed on are counted in its frame. -/
def State.handCounted (s : State) (r : Nat) (u : Unit_) : State :=
  (s.cwrap (RG_BYTES_CNT r) u.size).modRgn r fun x => { x with handed := tset x.handed u.tick 0 (tget x.handed u.tick 0 + u.size) }

theorem State.handUnit_kept : StoreOnly r (sliceOf u.frame) (s.handCounted r u) (s.handUnit r u) := by
  have h := (StoreOnly.refl r (sliceOf u.frame) (s.handCounted r u)).tryStore (some (u.frame, u.port, u.rawN)) false u.items
  exact .ite (h.serviceUnit u) h

theorem State.handUnit_budget : ((s.handUnit r u).rgn r).fair = (s.rgn r).fair ∧ ((s.handUnit r u).rgn r).spill = (s.rgn r).spill ∧
    tget ((s.handUnit r u).rgn r).handed u.tick 0 = tget (s.rgn r).handed u.tick 0 + u.size ∧
    ((s.handUnit r u).rgn r).crevs = (s.rgn r).crevs := by
  have h := (s.handUnit_kept (r := r) u).budget
  simp only [Region.budget, Prod.mk.injEq] at h
  obtain ⟨hf, hs, hh, hc⟩ := h
  rw [hf, hs, hh, hc, State.handCounted, State.rgn_modRgn]
  exact ⟨rfl, rfl, tget_tset_same .., rfl⟩

theorem State.handUnit_cget {f : Fld} (hf : f.key < 0x400000 * 64) :
    (s.handUnit r u).cget f = (s.cwrap (RG_BYTES_CNT r) u.size).cget f := (s.handUnit_kept (r := r) u).regs f hf

/-- Without an open slice the unit is counted and the store stays as it is. -/
theorem State.handUnit_noSlice (h : s.openSlice (sliceOf u.frame) = false) :
    (s.handUnit r u).cget FRN_EVT2_NOSLICE = min (s.cget FRN_EVT2_NOSLICE + 1) 255 ∧ (s.handUnit r u).firn = s.firn := by
  have ht : (s.handCounted r u).tryStore r (sliceOf u.frame) (some (u.frame, u.port, u.rawN)) false u.items =
      ((s.handCounted r u).cbump FRN_EVT2_NOSLICE, false) := by
    unfold State.tryStore
    rw [show (s.handCounted r u).openSlice (sliceOf u.frame) = false from h]
    rfl
  have hu : s.handUnit r u = (s.handCounted r u).cbump FRN_EVT2_NOSLICE := by
    unfold State.handUnit
    simp only []
    rw [show ((s.cwrap (RG_BYTES_CNT r) u.size).modRgn r fun x => { x with
      handed := tset x.handed u.tick 0 (tget x.handed u.tick 0 + u.size) }) = s.handCounted r u from rfl, ht]
    rfl
  have hk : FRN_EVT2_NOSLICE.key ≠ (RG_BYTES_CNT r).key := by
    simp only [Fld.key, FRN_EVT2_NOSLICE, RG_BYTES_CNT]
    omega
  rw [hu]
  refine ⟨?_, rfl⟩
  rw [State.cget_cbump_sat, State.handCounted, State.modRgn_cget, State.cwrap, State.cget_cset_ne _ _ _ _ hk]
  rfl

/-- The record of a unit that is lost. -/
def Unit_.crev (u : Unit_) (reason : Nat) : Crev :=
  { at_ := u.tick, reason := reason, scope := 0, port := u.port, frame := u.frame, frames := 1, lost := u.rawN }

theorem State.unitUnc_facts : ((s.unitUnc r u).rgn r).fair = (s.rgn r).fair ∧ ((s.unitUnc r u).rgn r).spill = (s.rgn r).spill ∧
    (s.unitUnc r u).firn = s.firn ∧ (s.unitUnc r u).cget (RG_STAT_UNC r) = 1 ∧
    ((s.unitUnc r u).rgn r).crevs = (s.rgn r).crevs ++ [u.crev 7] := by
  rw [State.unitUnc, State.addCrev, State.rgn_modRgn, State.modRgn_cget, State.cget_cset_of_lt _ (by simp [RG_STAT_UNC])]
  exact ⟨rfl, rfl, rfl, rfl, rfl⟩

theorem State.budgetDrop_facts : ((s.budgetDrop r u).rgn r).spill = (s.rgn r).spill ∧ (s.budgetDrop r u).firn = s.firn ∧
    (s.budgetDrop r u).cget (PI_CNT2_BUDDROP u.port) = min (s.cget (PI_CNT2_BUDDROP u.port) + 1) 65535 ∧
    (s.budgetDrop r u).cget (RG_STAT_BUD_DROP r) = min (s.cget (RG_STAT_BUD_DROP r) + 1) 65535 ∧
    (s.budgetDrop r u).cget (RG_STAT_BUD_HIT r) = 1 ∧ ((s.budgetDrop r u).rgn r).crevs = (s.rgn r).crevs ++ [u.crev 2] := by
  rw [State.budgetDrop, State.addCrev, State.rgn_modRgn, State.modRgn_cget, State.modRgn_cget, State.modRgn_cget,
    State.cget_cset_ne _ _ _ _ (by simp only [Fld.key, PI_CNT2_BUDDROP, RG_STAT_BUD_HIT]; omega),
    State.cget_cset_of_lt _ (by simp [RG_STAT_BUD_HIT]),
    State.cget_cset_ne _ _ _ _ (by simp only [Fld.key, RG_STAT_BUD_DROP, RG_STAT_BUD_HIT]; omega),
    State.cget_cbump_ne _ _ _ (by simp only [Fld.key, PI_CNT2_BUDDROP, RG_STAT_BUD_DROP]; omega), State.cget_cbump_sat,
    State.cget_cbump_sat, State.cget_cbump_ne _ _ _ (by simp only [Fld.key, PI_CNT2_BUDDROP, RG_STAT_BUD_DROP]; omega)]
  exact ⟨rfl, rfl, rfl, rfl, rfl, rfl⟩

end

/-- The only unit that waits is the one whose coder is served. -/
theorem nextCoder_singleton (u : Unit_) (c0 : Nat) : nextCoder [u] c0 = some u.coder := by
  have hu : u.coder < 16 := Nat.mod_lt _ (by decide)
  have hp : (fun c => [u].any fun v => decide (v.coder = c)) = fun c => decide (u.coder = c) := by
    funext c
    simp
  have hmem : u.coder ∈ (List.range 16).map fun i => (c0 + i) % 16 :=
    List.mem_map.2 ⟨(u.coder + 16 - c0 % 16) % 16, List.mem_range.2 (by omega), by omega⟩
  unfold nextCoder
  rw [hp]
  generalize (List.range 16).map (fun i => (c0 + i) % 16) = l at hmem
  induction l with
  | nil => cases hmem
  | cons a l ih =>
    by_cases ha : u.coder = a
    · simp [ha]
    · simpa [ha] using ih ((List.mem_cons.1 hmem).resolve_left ha)

/-! ### Handing over -/

/-- The coder of the only unit that waits has been served. -/
def State.handTurn (s : State) (r : Nat) (u : Unit_) : State :=
  s.modRgn r fun y => { y with
    fair := [], turn := tset y.turn u.tick 16 ((u.coder + 1) % 16) }

/-- And its bytes count within the share of that coder. -/
def State.handShare (s : State) (r : Nat) (u : Unit_) : State :=
  (s.handTurn r u).modRgn r fun y => { y with
    coderBytes := tset y.coderBytes (16 * u.tick + u.coder) 0 (tget (s.rgn r).coderBytes (16 * u.tick + u.coder) 0 + u.size) }

theorem exec_unitHandover {s : State} {r : RgnIx} {u : Unit_} (h : (s.rgn r).fair = [u]) (ecc : EccStatus) :
    exec (.unitHandover r ecc) s = .next (
      if 29696 < tget (s.rgn r).coderBytes (16 * u.tick + u.coder) 0 + u.size then
        (s.handTurn r u).modRgn r fun y => { y with spill := spillIns u y.spill }
      else if ecc = .double then (s.handShare r u).unitUnc r u else (s.handShare r u).handUnit r u) := by
  have hturn : (s.modRgn r fun y => { y with fair := y.fair.erase u, turn := tset y.turn u.tick 16 ((u.coder + 1) % 16) }) =
      s.handTurn r u := by
    simp [State.handTurn, State.modRgn, h]
  show execUnitHandover r ecc s = _
  unfold execUnitHandover
  simp only [h, List.map_cons, List.map_nil, leastOf, List.filter_cons, decide_true, if_true, List.filter_nil, nextCoder_singleton,
    List.find?_cons, hturn]
  rfl

theorem unitHandover_clauses {s : State} {r : RgnIx} {u : Unit_} (h : (s.rgn r).fair = [u]) :
    let used := tget (s.rgn r).coderBytes (16 * u.tick + u.coder) 0
    (used + u.size ≤ 29696 → ∃ t, exec (.unitHandover r .ok) s = .next t ∧ (t.rgn r).fair = [] ∧ (t.rgn r).spill = (s.rgn r).spill ∧
      tget (t.rgn r).handed u.tick 0 = tget (s.rgn r).handed u.tick 0 + u.size ∧
      t.cget (RG_BYTES_CNT r) = (s.cget (RG_BYTES_CNT r) + u.size) % 2 ^ 64 ∧ (t.rgn r).crevs = (s.rgn r).crevs ∧
      (s.openSlice (sliceOf u.frame) = false → t.cget FRN_EVT2_NOSLICE = min (s.cget FRN_EVT2_NOSLICE + 1) 255 ∧ t.firn = s.firn)) ∧
    (29696 < used + u.size → ∃ t, exec (.unitHandover r .ok) s = .next t ∧ (t.rgn r).fair = [] ∧
      (t.rgn r).spill = spillIns u (s.rgn r).spill ∧ t = { s with regions := t.regions }) ∧
    (used + u.size ≤ 29696 → ∃ t, exec (.unitHandover r .double) s = .next t ∧ (t.rgn r).fair = [] ∧ t.firn = s.firn ∧
      t.cget (RG_STAT_UNC r) = 1 ∧ (t.rgn r).crevs = (s.rgn r).crevs ++ [u.crev 7]) := by
  have hok := exec_unitHandover h .ok
  have hdouble := exec_unitHandover h .double
  have hshare : (s.handShare r u).rgn r = { s.rgn r with
      fair := [], turn := tset (s.rgn r).turn u.tick 16 ((u.coder + 1) % 16)
      coderBytes := tset (s.rgn r).coderBytes (16 * u.tick + u.coder) 0
        (tget (s.rgn r).coderBytes (16 * u.tick + u.coder) 0 + u.size) } := by
    simp only [State.handShare, State.handTurn, State.rgn_modRgn]
  refine ⟨fun hle => ?_, fun hlt => ?_, fun hle => ?_⟩
  · rw [if_neg (by omega), if_neg (by decide)] at hok
    obtain ⟨hf, hs, hh, hc⟩ := (s.handShare r u).handUnit_budget (r := r) u
    rw [hshare] at hf hs hh hc
    refine ⟨_, hok, hf, hs, hh, ?_, hc, fun ho => (s.handShare r u).handUnit_noSlice (r := r) u ho⟩
    have hr := r.isLt
    rw [State.handUnit_cget _ u (by simp only [Fld.key, RG_BYTES_CNT]; omega), State.cwrap, State.cget_cset_same]
    simp [State.handShare, State.handTurn, RG_BYTES_CNT]
  · rw [if_pos hlt] at hok
    refine ⟨_, hok, ?_, ?_, rfl⟩ <;> rw [State.rgn_modRgn, State.handTurn, State.rgn_modRgn]
  · rw [if_neg (by omega), if_pos rfl] at hdouble
    obtain ⟨hf, -, hfirn, hst, hc⟩ := (s.handShare r u).unitUnc_facts (r := r) u
    rw [hshare] at hf hc
    exact ⟨_, hdouble, hf, hfirn, hst, hc⟩

/-! ### The spill point -/

/-- The only unit of the spill queue has been taken. -/
def State.spillTaken (s : State) (r : Nat) : State := s.modRgn r fun y => { y with spill := [] }

theorem State.spillTurns_one (s : State) (bad : List Nat) {r k : Nat} {u : Unit_} (c : Nat) (h : (s.rgn r).spill = [u])
    (hk : u.tick = k) :
    s.spillTurns bad r k c 1 =
      if 475136 < tget (s.rgn r).handed k 0 + u.size then (s.spillTaken r).budgetDrop r u
      else if bad.contains u.port then (s.spillTaken r).unitUnc r u else (s.spillTaken r).handUnit r u := by
  have htaken : (s.modRgn r fun y => { y with spill := y.spill.erase u }) = s.spillTaken r := by
    simp [State.spillTaken, State.modRgn, h]
  unfold State.spillTurns
  simp only [h, hk, List.filter_cons, decide_true, if_true, List.filter_nil, nextCoder_singleton, List.find?_cons, htaken]
  rfl

theorem exec_spillPoint {s : State} {r : RgnIx} {u : Unit_} (h : (s.rgn r).spill = [u]) (hk : u.tick = s.tm.tick - 3)
    (bad : List PortIx) :
    ∃ z : State, z.rgn r = s.rgn r ∧ z.cget = s.cget ∧ z.firn = s.firn ∧ exec (.spillPoint ⟨r, bad⟩) s = .next (
      if 475136 < tget (s.rgn r).handed u.tick 0 + u.size then (z.spillTaken r).budgetDrop r u
      else if (bad.map Fin.val).contains u.port then (z.spillTaken r).unitUnc r u else (z.spillTaken r).handUnit r u) := by
  have hz : ∀ i, ∃ x, s.toInst i = { s with tm := x } := fun i => ⟨_, rfl⟩
  obtain ⟨x, hx⟩ := hz (200 * 65536)
  refine ⟨{ s with tm := x }, rfl, rfl, rfl, ?_⟩
  show execSpillPoint ⟨r, bad⟩ s = _
  unfold execSpillPoint
  simp only [hx, h, List.length_cons, List.length_nil, Nat.zero_add]
  have hone := State.spillTurns_one { s with tm := x } (bad.map Fin.val) (r := r.val) (s.frameAt (s.tm.tick - 3) % 16) h hk
  rw [hone, hk]
  rfl

theorem spillPoint_clauses {s : State} {r : RgnIx} {u : Unit_} (h : (s.rgn r).spill = [u]) (hk : u.tick = s.tm.tick - 3)
    (bad : List PortIx) :
    ((bad.map Fin.val).contains u.port = false → tget (s.rgn r).handed u.tick 0 + u.size ≤ 475136 →
      ∃ t, exec (.spillPoint ⟨r, bad⟩) s = .next t ∧ (t.rgn r).spill = [] ∧
      tget (t.rgn r).handed u.tick 0 = tget (s.rgn r).handed u.tick 0 + u.size ∧
      t.cget (RG_STAT_BUD_DROP r) = s.cget (RG_STAT_BUD_DROP r)) ∧
    ((bad.map Fin.val).contains u.port = true → tget (s.rgn r).handed u.tick 0 + u.size ≤ 475136 →
      ∃ t, exec (.spillPoint ⟨r, bad⟩) s = .next t ∧ (t.rgn r).spill = [] ∧ t.cget (RG_STAT_UNC r) = 1 ∧ t.firn = s.firn ∧
      (t.rgn r).crevs = (s.rgn r).crevs ++ [u.crev 7]) ∧
    (475136 < tget (s.rgn r).handed u.tick 0 + u.size → ∃ t, exec (.spillPoint ⟨r, bad⟩) s = .next t ∧ (t.rgn r).spill = [] ∧
      t.cget (PI_CNT2_BUDDROP u.port) = min (s.cget (PI_CNT2_BUDDROP u.port) + 1) 65535 ∧
      t.cget (RG_STAT_BUD_DROP r) = min (s.cget (RG_STAT_BUD_DROP r) + 1) 65535 ∧ t.cget (RG_STAT_BUD_HIT r) = 1 ∧ t.firn = s.firn ∧
      (t.rgn r).crevs = (s.rgn r).crevs ++ [u.crev 2]) := by
  obtain ⟨z, hrgn, hcget, hfirn, he⟩ := exec_spillPoint h hk bad
  have htaken : (z.spillTaken r).rgn r = { s.rgn r with spill := [] } := by rw [State.spillTaken, State.rgn_modRgn, hrgn]
  have hreg : ∀ f, (z.spillTaken r).cget f = s.cget f := fun f => by rw [State.spillTaken, State.modRgn_cget, hcget]
  have hst : (z.spillTaken r).firn = s.firn := hfirn
  refine ⟨fun hb hle => ?_, fun hb hle => ?_, fun hlt => ?_⟩
  · rw [if_neg (by omega), hb, if_neg (by decide)] at he
    obtain ⟨-, hs, hh, -⟩ := (z.spillTaken r).handUnit_budget (r := r) u
    rw [htaken] at hs hh
    refine ⟨_, he, hs, hh, ?_⟩
    have hr := r.isLt
    rw [State.handUnit_cget _ u (by simp only [Fld.key, RG_STAT_BUD_DROP]; omega), State.cwrap,
      State.cget_cset_ne _ _ _ _ (by simp only [Fld.key, RG_STAT_BUD_DROP, RG_BYTES_CNT]; omega), hreg]
  · rw [if_neg (by omega), hb, if_pos rfl] at he
    obtain ⟨-, hs, hf, hunc, hc⟩ := (z.spillTaken r).unitUnc_facts (r := r) u
    rw [htaken] at hs hc
    exact ⟨_, he, hs, hunc, hf.trans hst, hc⟩
  · rw [if_pos hlt] at he
    obtain ⟨hs, hf, hp, hd, hh, hc⟩ := (z.spillTaken r).budgetDrop_facts (r := r) u
    rw [htaken] at hs hc
    rw [hreg] at hp hd
    exact ⟨_, he, hs, hp, hd, hh, hf.trans hst, hc⟩

/-- Settles O29: storing a unit leaves the budget of its region as it is. -/
theorem unitsAreHandedWithinTheBudget : Obligations.UnitsAreHandedWithinTheBudget :=
  ⟨fun _ _ _ h => unitHandover_clauses h, fun _ _ bad _ h hk => spillPoint_clauses h hk bad⟩

end Sys2Proof.Machine

/-! ## Slices: claim, count and closure -/

namespace Sys2Proof.Machine

set_option Elab.async false

/-! ### The edges and a claim -/

/-- Registers that show the edges of the store and the extents. -/
def edgeKey (k : Nat) : Prop := k = FRN_OLDEST_SLICE.key ∨ k = FRN_EDGE_SLICE.key ∨ (0x401004 * 64 ≤ k ∧ k / 64 % 4096 = 0x1004 % 4096)

/-- `t` is `s` with registers changed. -/
def CregOnly (s t : State) : Prop := t = { s with creg := t.creg }

theorem CregOnly.refl (s : State) : CregOnly s s := rfl

theorem CregOnly.cset {s t : State} (h : CregOnly s t) (f : Fld) (v : Nat) : CregOnly s (t.cset f v) := by
  unfold CregOnly at *
  rw [h]
  rfl

theorem CregOnly.foldl {α : Type} {s t : State} (h : CregOnly s t) (g : State → α → State) (l : List α)
    (hg : ∀ z a, CregOnly s z → CregOnly s (g z a)) : CregOnly s (l.foldl g t) :=
  List.foldlRecOn (motive := fun z => CregOnly s z) l g h fun z hz a _ => hg z a hz

theorem State.refreshEdges_same (s : State) : CregOnly s s.refreshEdges := by
  unfold State.refreshEdges
  simp only []
  refine CregOnly.foldl ?_ _ _ fun z r hz => ((hz.cset _ _).cset _ _).cset _ _
  split
  · exact .refl s
  · exact ((CregOnly.refl s).cset _ _).cset _ _

@[simp] theorem State.refreshEdges_firn (s : State) : s.refreshEdges.firn = s.firn := by rw [s.refreshEdges_same]
@[simp] theorem State.refreshEdges_rgn (s : State) (r : Nat) : s.refreshEdges.rgn r = s.rgn r := by
  rw [s.refreshEdges_same]
  rfl
@[simp] theorem State.refreshEdges_ixe (s : State) (k : Nat) : s.refreshEdges.ixe k = s.ixe k := by
  rw [s.refreshEdges_same]
  rfl

theorem State.refreshEdges_cget (s : State) {f : Fld} (h : ¬ edgeKey f.key) : s.refreshEdges.cget f = s.cget f := by
  unfold edgeKey at h
  unfold State.refreshEdges
  simp only []
  refine List.foldlRecOn (motive := fun z : State => z.cget f = s.cget f) _ _ ?_ fun z hz r _ => ?_
  · split
    · rfl
    · rw [State.cget_cset_ne _ _ _ _ (by tauto), State.cget_cset_ne _ _ _ _ (by tauto)]
  · have hr : ∀ g : Fld, g.reg = 0x401004 + 4096 * r → g.lo < 64 → f.key ≠ g.key := fun g hg hl e => by
      refine h (.inr (.inr ?_))
      rw [e, Fld.key, hg]
      omega
    rw [State.cget_cset_ne _ _ _ _ (hr _ rfl (by simp [FRR_STAT_READY])), State.cget_cset_ne _ _ _ _ (hr _ rfl
        (by simp [FRR_STAT_RETIRED])),
      State.cget_cset_ne _ _ _ _ (hr _ rfl (by simp [FRR_STAT_PINNED])), hz]

theorem State.ixe_setIxe (s : State) (k : Nat) (x : IxEntry) : (s.setIxe k x).ixe k = x := tget_tset_same ..

/-- The entry of a slice claimed over an entry that is not retained. -/
theorem State.claim_of_dead {s : State} {k : Nat} (h : (s.ixe k).live = false) (st n : Nat) :
    (s.claim k st n).ixe k = { slice := k, state := st, frames := n, pins := (s.firn.pins.filter fun e => e.2.covers k).length,
                               qual := s.qual } ∧
      (s.claim k st n).firn.extents = s.firn.extents ∧ (s.claim k st n).cget FRN_HEAD_SLICE = k % 2 ^ 64 ∧
      ∀ f : Fld, ¬ edgeKey f.key → f.key ≠ FRN_HEAD_SLICE.key → (s.claim k st n).cget f = s.cget f := by
  have hc : s.claim k st n = (((s.setIxe k { slice := k, state := st, frames := n, pins :=
      (s.firn.pins.filter fun e => e.2.covers k).length, qual := s.qual }).modFirn fun f => { f with claimed := true }).cset
        FRN_HEAD_SLICE k).refreshEdges := by
    unfold State.claim
    simp only [h, Bool.false_eq_true, false_and, if_false]
  rw [hc, State.refreshEdges_ixe, State.refreshEdges_firn]
  refine ⟨State.ixe_setIxe .., rfl, ?_, fun f h1 h2 => ?_⟩
  · rw [State.refreshEdges_cget _ (by unfold edgeKey; decide), State.cget_cset_same]
    rfl
  · rw [State.refreshEdges_cget _ h1, State.cget_cset_ne _ _ _ _ h2]
    rfl

theorem sliceClaim_clause {s : State} (hr : s.con FRN_STAT_READY = true) (h2 : 2 ≤ s.tm.tick) :
    let f := s.frameAt (s.tm.tick - 2)
    f % 256 = 0 → s.openSlice (sliceOf f) = false → (s.ixe (sliceOf f)).live = false →
    ∃ u, exec .sliceClaim s = .next u ∧ (u.ixe (sliceOf f)).slice = sliceOf f ∧ (u.ixe (sliceOf f)).state = 1 ∧
      (u.ixe (sliceOf f)).frames = 0 ∧ (u.ixe (sliceOf f)).r0.count = 0 ∧ (u.ixe (sliceOf f)).r1.count = 0 ∧
      (u.ixe (sliceOf f)).r2.count = 0 ∧ (u.ixe (sliceOf f)).r3.count = 0 ∧ (u.ixe (sliceOf f)).qual = s.qual ∧
      (u.ixe (sliceOf f)).pins = (s.firn.pins.filter fun e => e.2.covers (sliceOf f)).length ∧
      u.cget FRN_HEAD_SLICE = sliceOf f % 2 ^ 64 ∧ u.cget FRN_EVT_HZN = s.cget FRN_EVT_HZN := by
  intro f hf ho hl
  have he : exec .sliceClaim s = .next (s.claim (sliceOf f) 1 0) := by
    show execSliceClaim s = _
    unfold execSliceClaim
    simp only [hr, h2, decide_true, Bool.and_true, show s.frameAt (s.tm.tick - 2) = f from rfl, hf, ho, Bool.not_false, if_true]
  obtain ⟨hix, -, hhead, hreg⟩ := State.claim_of_dead hl 1 0
  refine ⟨_, he, ?_⟩
  rw [hix]
  exact ⟨rfl, rfl, rfl, rfl, rfl, rfl, rfl, rfl, rfl, hhead, hreg _ (by unfold edgeKey; decide) (by decide)⟩

theorem firnInitDone_clause {s : State} (hr : s.con FRN_STAT_READY = false) :
    ∃ u, exec .firnInitDone s = .next u ∧ u.con FRN_STAT_READY = true ∧
    u.firn.extents = [] ∧ (u.ixe (sliceOf s.frame)).slice = sliceOf s.frame ∧ (u.ixe (sliceOf s.frame)).state = 1 ∧
    (s.tm.now.ns % 4000 < 3994 → (u.ixe (sliceOf s.frame)).frames = min 256 (s.frame - 3 - sliceOf s.frame * 256)) := by
  have he : exec .firnInitDone s = .next (((({ s with firn := {} } : State).cset FRN_STAT_READY 1).modFirn fun f => { f with
      committed := if decide (3994 ≤ s.tm.now.ns % 4000) then some (s.tm.tick - 3) else none }).claim (sliceOf s.frame) 1
        (min 256 (s.frame + b2n (decide (3994 ≤ s.tm.now.ns % 4000)) - 3 - sliceOf s.frame * 256))) := by
    show execFirnInitDone s = _
    unfold execFirnInitDone
    rw [hr]
    rfl
  have hon : ∀ c, (((({ s with firn := {} } : State).cset FRN_STAT_READY 1).modFirn fun f => { f with committed := c })).cget
      FRN_STAT_READY = 1 := fun c => by rw [State.modFirn_cget, State.cget_cset_of_lt _ (by decide)]
  have hdead : ∀ c, ((((({ s with firn := {} } : State).cset FRN_STAT_READY 1).modFirn fun f => { f with committed := c })).ixe
      (sliceOf s.frame)).live = false := fun c => rfl
  have hext : ∀ c, (((({ s with firn := {} } : State).cset FRN_STAT_READY 1).modFirn fun f => { f with committed := c })).firn.extents =
      [] := fun c => rfl
  refine ⟨_, he, ?_⟩
  generalize (if decide (3994 ≤ s.tm.now.ns % 4000) then some (s.tm.tick - 3) else none) = c
  obtain ⟨hix, hx, -, hreg⟩ := State.claim_of_dead (hdead c) 1
    (min 256 (s.frame + b2n (decide (3994 ≤ s.tm.now.ns % 4000)) - 3 - sliceOf s.frame * 256))
  rw [hix, hx, hext, State.con, hreg _ (by unfold edgeKey; decide) (by decide), hon]
  refine ⟨by decide, rfl, rfl, rfl, fun hlt => ?_⟩
  rw [decide_eq_false (by omega)]
  simp [b2n]

/-! ### The index snapshot -/

theorem State.foldl_cset_range_mem (g : Nat → Fld) (w : Nat → Nat) {n : Nat} (hk : ∀ i j, (g i).key = (g j).key → i = j) (s : State)
    {k : Nat} (hkn : k < n) : ((List.range n).foldl (fun z i => z.cset (g i) (w i)) s).cget (g k) = w k % 2 ^ (g k).width := by
  obtain ⟨z, -, hz⟩ := State.foldl_at (fun y => y.cget (g k)) (fun y i => y.cset (g i) (w i)) List.nodup_range (List.mem_range.2 hkn)
    (fun y q _ hq => State.cget_cset_ne _ _ _ _ fun e => hq (hk _ _ e.symm)) s
  exact hz.trans (State.cget_cset_same ..)

theorem State.foldl_cset_range_ne (g : Nat → Fld) (w : Nat → Nat) (n : Nat) (s : State) {f : Fld} (h : ∀ i < n, f.key ≠ (g i).key) :
    ((List.range n).foldl (fun z i => z.cset (g i) (w i)) s).cget f = s.cget f :=
  List.foldlRecOn (motive := fun z : State => z.cget f = s.cget f) _ _ rfl fun z hz i hi => by
    rw [State.cget_cset_ne _ _ _ _ (h i (List.mem_range.1 hi)), hz]

theorem findReg_ixSel : findReg regClasses 4 FRN_IX_SEL_IDX.reg = some ([FRN_IX_SEL_IDX], false) := by decide +kernel

theorem indexSnapshot_clause {s : State} {m : MasterIx} {v : W32} (hf : s.frozen m = false)
    (hp : s.permitted m .control FRN_IX_SEL_IDX.reg .write = true) :
    ∃ u, exec (.indexSnapshot m v .ok) s = .next u ∧ u.cget FRN_IX_SEL_IDX = v.toNat % 2 ^ 17 ∧ u.firn = s.firn ∧
      ∀ k, k < 16 → u.cget (FRN_IX_DATA_D k) = (tget s.firn.index (v.toNat % 2 ^ 17) {}).bits / 2 ^ (32 * k) % 2 ^ 32 := by
  have hw : (s.writeReg m FRN_IX_SEL_IDX.reg v.toNat).1 = s.cset FRN_IX_SEL_IDX (bits v.toNat 0 17) := by
    rw [State.writeReg_of_plain findReg_ixSel (by decide)]
    simp only [List.foldl_cons, List.foldl_nil]
    rw [Fld.written_rw rfl (by decide) (by decide) (s.cget_lt _)]
    rfl
  have hv : bits v.toNat 0 17 = v.toNat % 2 ^ 17 := by simp [bits]
  have he : exec (.indexSnapshot m v .ok) s = .next _ := congrArg Host.Outcome.next
    (State.guarded_of_permitted hf hp fun z => State.answered (z.opIxSel m.val v.toNat .ok) m.val)
  refine ⟨_, he, ?_⟩
  rw [State.answered, State.answer_cget]
  have hkeys : ∀ i j, (FRN_IX_DATA_D i).key = (FRN_IX_DATA_D j).key → i = j := fun i j h => by
    simp only [Fld.key, FRN_IX_DATA_D] at h
    omega
  have hsel : (s.opIxSel m v.toNat .ok).1 = (List.range 16).foldl (fun z k => z.cset (FRN_IX_DATA_D k)
      (bits (tget s.firn.index (v.toNat % 2 ^ 17) {}).bits (32 * k) 32)) (s.cset FRN_IX_SEL_IDX (v.toNat % 2 ^ 17)) := by
    unfold State.opIxSel
    simp only [hw, hv]
    rfl
  rw [hsel]
  refine ⟨?_, ?_, fun k hk => ?_⟩
  · rw [State.foldl_cset_range_ne _ _ _ _ fun i hi => by simp only [Fld.key, FRN_IX_SEL_IDX, FRN_IX_DATA_D]; omega]
    exact State.cget_cset_of_lt _ (Nat.mod_lt _ (by decide))
  · rw [State.answer, State.modSp_firn]
    have h := (CregOnly.refl (s.cset FRN_IX_SEL_IDX (v.toNat % 2 ^ 17))).foldl (fun z k => z.cset (FRN_IX_DATA_D k)
      (bits (tget s.firn.index (v.toNat % 2 ^ 17) {}).bits (32 * k) 32)) (List.range 16) fun z k hz => hz.cset _ _
    rw [h]
    rfl
  · rw [State.answer_cget, State.foldl_cset_range_mem FRN_IX_DATA_D _ hkeys _ hk]
    exact Nat.mod_eq_of_lt (bits_lt _ _ _)

/-! ### The commit of a frame -/

/-- What a commit decides by: slice, state and frames of an entry. -/
def IxEntry.core (e : IxEntry) : Nat × Nat × Nat := (e.slice, e.state, e.frames)

/-- `t` is `s` with region `r` changed, but not its records of losses; the entry of slice `k` keeps its core. -/
structure CommitKept (k r : Nat) (s t : State) : Prop where
  core : (t.ixe k).core = (s.ixe k).core
  crevs : (t.rgn r).crevs = (s.rgn r).crevs
  others : ∀ q, q ≠ r → t.rgn q = s.rgn q

namespace CommitKept

variable {k r : Nat} {s t u : State}

theorem refl (k r : Nat) (s : State) : CommitKept k r s s := ⟨rfl, rfl, fun _ _ => rfl⟩

theorem trans (h : CommitKept k r s t) (h' : CommitKept k r t u) : CommitKept k r s u :=
  ⟨h'.core.trans h.core, h'.crevs.trans h.crevs, fun q hq => (h'.others q hq).trans (h.others q hq)⟩

theorem cset (h : CommitKept k r s t) (f : Fld) (v : Nat) : CommitKept k r s (t.cset f v) := ⟨h.core, h.crevs, h.others⟩

theorem modRgn (h : CommitKept k r s t) (g : Region → Region) (hg : ∀ x, (g x).crevs = x.crevs) : CommitKept k r s (t.modRgn r g) :=
  ⟨h.core, by rw [State.rgn_modRgn, hg, h.crevs], fun q hq => (t.rgn_modRgn_ne g hq).trans (h.others q hq)⟩

theorem setIxe (h : CommitKept k r s t) (x : IxEntry) (hx : x.core = (t.ixe k).core) : CommitKept k r s (t.setIxe k x) :=
  ⟨by rw [State.ixe_setIxe, hx, h.core], h.crevs, h.others⟩

theorem store (h : StoreOnly r k s t) : CommitKept k r s t :=
  ⟨by rw [h.entry]; rfl, congrArg (fun x => x.2.2.2) h.budget, h.others⟩

theorem putCrev (h : CommitKept k r s t) (c : Crev) : CommitKept k r s (t.putCrev r k c) := by
  have h1 := (h.cset (RG_BYTES_CNT r) _).trans (.store ((StoreOnly.refl r k (t.cwrap (RG_BYTES_CNT r) 16)).tryStore none true
    [crevBytes t.cid c]))
  unfold State.putCrev
  simp only []
  split
  · exact h1.cset _ _
  · exact h1

theorem issue (h : CommitKept k r s t) (c : Chain) :
    CommitKept k r s ((t.issueFull r c 65536).1.issuePartial r (t.issueFull r c 65536).2) := by
  have h1 := (StoreOnly.refl r k t).issueFull c 65536
  refine h.trans (.store ?_)
  unfold State.issuePartial
  split
  · exact h1
  · exact h1.issueLine _ _ _

end CommitKept

/-- A record of a run of losses changes its region alone. -/
theorem State.lostPart_kept (s : State) (r f k : Nat) :
    (∀ j, (s.lostPart r f k).ixe j = s.ixe j) ∧ ∀ q, q ≠ r → (s.lostPart r f k).rgn q = s.rgn q := by
  unfold State.lostPart
  simp only []
  split
  · exact ⟨fun _ => rfl, fun _ _ => rfl⟩
  · exact ⟨fun _ => rfl, fun q hq => (State.rgn_modRgn_ne _ _ hq).trans (State.rgn_modRgn_ne _ _ hq)⟩

theorem State.lostRun_kept (s : State) (r f k : Nat) :
    (∀ j, (s.lostRun r f k).ixe j = s.ixe j) ∧ ∀ q, q ≠ r → (s.lostRun r f k).rgn q = s.rgn q := by
  unfold State.lostRun State.when
  simp only []
  split
  · exact ⟨fun j => ((State.lostPart_kept _ _ _ _).1 j).trans ((s.lostPart_kept _ _ _).1 j),
      fun q hq => ((State.lostPart_kept _ _ _ _).2 q hq).trans ((s.lostPart_kept _ _ _).2 q hq)⟩
  · exact s.lostPart_kept _ _ _

/-- The records of region `r` up to tick `k` are taken out to be stored. -/
def State.takeCrevs (s : State) (k r : Nat) : State :=
  (s.when ((s.rgn r).resetting && decide (s.frameAt k % 256 = 255)) fun z => z.lostRun r (s.frameAt k) k).modRgn r fun x =>
    { x with crevs := x.crevs.filter fun c => decide (k < c.at_) }

theorem State.takeCrevs_facts (s : State) (k r : Nat) : (∀ j, (s.takeCrevs k r).ixe j = s.ixe j) ∧
    (∀ q, q ≠ r → (s.takeCrevs k r).rgn q = s.rgn q) ∧ ∀ c ∈ ((s.takeCrevs k r).rgn r).crevs, k < c.at_ := by
  unfold State.takeCrevs
  generalize hz : s.when ((s.rgn r).resetting && decide (s.frameAt k % 256 = 255)) (fun z => z.lostRun r (s.frameAt k) k) = z
  have hkept : (∀ j, z.ixe j = s.ixe j) ∧ ∀ q, q ≠ r → z.rgn q = s.rgn q := by
    rw [← hz, State.when]
    split
    · exact s.lostRun_kept _ _ _
    · exact ⟨fun _ => rfl, fun _ _ => rfl⟩
  refine ⟨hkept.1, fun q hq => (State.rgn_modRgn_ne _ _ hq).trans (hkept.2 q hq), fun c hc => ?_⟩
  rw [State.rgn_modRgn] at hc
  exact of_decide_eq_true (List.mem_filter.1 hc).2

theorem State.commitRegion_kept (s : State) (k sl r : Nat) : CommitKept sl r (s.takeCrevs k r) (s.commitRegion k sl r) := by
  have hfold : ∀ (l : List Crev), CommitKept sl r (s.takeCrevs k r) (l.foldl (fun z c => z.putCrev r sl c) (s.takeCrevs k r)) := fun l =>
    List.foldlRecOn (motive := fun z => CommitKept sl r (s.takeCrevs k r) z) l _ (.refl _ _ _) fun z hz c _ => hz.putCrev c
  unfold State.commitRegion
  extract_lets f s0 cs s1 bytes s2
  have h1 : CommitKept sl r (s.takeCrevs k r) s1 := hfold cs
  clear_value s1
  have h2 : CommitKept sl r (s.takeCrevs k r) s2 := (h1.cset _ _).modRgn _ fun _ => rfl
  clear_value s2
  split
  · exact h2
  next c _ =>
    have h3 : CommitKept sl r (s.takeCrevs k r) (((s2.issueFull r c 65536).1.issuePartial r (s2.issueFull r c 65536).2).putChain r
        { (s2.issueFull r c 65536).2 with unitsDone := (s2.issueFull r c 65536).2.units }) := (h2.issue c).modRgn _ fun _ => rfl
    refine h3.setIxe _ ?_
    split <;> rfl

/-- The four regions commit the frame of tick `k`, after its absences are closed. -/
def State.commitRegions (s : State) (k sl : Nat) (i : Inst) : State :=
  (List.range 4).foldl (fun z r => z.commitRegion k sl r) ((s.toInst i).closeAbsences k)

theorem State.closeAbsences_ixe (s : State) (k j : Nat) : (s.closeAbsences k).ixe j = s.ixe j := by
  unfold State.closeAbsences
  simp only []
  refine List.foldlRecOn (motive := fun z : State => z.ixe j = s.ixe j) _ _ rfl fun z hz q _ => ?_
  exact List.foldlRecOn (motive := fun y : State => y.ixe j = s.ixe j) _ _ hz fun y hy m _ => hy

theorem State.commitRegions_core (s : State) (k sl : Nat) (i : Inst) : ((s.commitRegions k sl i).ixe sl).core = (s.ixe sl).core := by
  unfold State.commitRegions
  refine List.foldlRecOn (motive := fun z : State => (z.ixe sl).core = (s.ixe sl).core) _ _ ?_ fun z hz r _ => ?_
  · rw [State.closeAbsences_ixe]
    rfl
  · rw [(z.commitRegion_kept k sl r).core, (z.takeCrevs_facts k r).1, hz]

theorem State.commitRegions_crevs (s : State) (k sl : Nat) (i : Inst) (r : RgnIx) :
    ∀ c ∈ ((s.commitRegions k sl i).rgn r).crevs, k < c.at_ := by
  obtain ⟨z, -, hz⟩ := State.foldl_at (fun y => (y.rgn r).crevs) (fun z r => z.commitRegion k sl r) List.nodup_range
    (List.mem_range.2 r.isLt) (fun y q _ hq => by
      rw [(y.commitRegion_kept k sl q).others r hq.symm, (y.takeCrevs_facts k q).2.1 r hq.symm]) ((s.toInst i).closeAbsences k)
  intro c hc
  have hc' : c ∈ ((z.commitRegion k sl r).rgn r).crevs := hz ▸ hc
  rw [(z.commitRegion_kept k sl r).crevs] at hc'
  exact (z.takeCrevs_facts k r).2.2 c hc'

/-- The chains of slice `k` in region `r` are closed. -/
def State.closeChainsIn (k : Nat) (z : State) (r : Nat) : State :=
  ((z.rgn r).chains.filter fun c => decide (c.slice = k)).foldl (fun y c => y.modExt r c.ext fun x => { x with state := 2 })
    (z.modRgn r fun x => { x with chains := x.chains.filter fun c => decide (c.slice ≠ k) })

theorem State.closeChainsIn_facts (k : Nat) (z : State) (r : Nat) : (z.closeChainsIn k r).firn.index = z.firn.index ∧
    (z.closeChainsIn k r).firn.committed = z.firn.committed ∧ (z.closeChainsIn k r).regions =
      (z.modRgn r fun x => { x with chains := x.chains.filter fun c => decide (c.slice ≠ k) }).regions :=
  List.foldlRecOn (motive := fun y : State => y.firn.index = z.firn.index ∧ y.firn.committed = z.firn.committed ∧ y.regions =
    (z.modRgn r fun x => { x with chains := x.chains.filter fun c => decide (c.slice ≠ k) }).regions) _ _ ⟨rfl, rfl, rfl⟩
    fun _ hy _ _ => hy

theorem State.closeChainsIn_rgn (k : Nat) (z : State) (r q : Nat) : (z.closeChainsIn k r).rgn q =
    (z.modRgn r fun x => { x with chains := x.chains.filter fun c => decide (c.slice ≠ k) }).rgn q := by
  rw [State.rgn, (State.closeChainsIn_facts k z r).2.2]
  rfl

theorem State.closeChains_facts (s : State) (k : Nat) : (s.closeChains k).firn.index = s.firn.index ∧
    (s.closeChains k).firn.committed = s.firn.committed ∧ (∀ q, ((s.closeChains k).rgn q).crevs = (s.rgn q).crevs) ∧
    ∀ r : RgnIx, ∀ c ∈ ((s.closeChains k).rgn r).chains, c.slice ≠ k := by
  have heq : s.closeChains k = (List.range 4).foldl (State.closeChainsIn k) s := by
    unfold State.closeChains
    rfl
  rw [heq]
  have hkept : ∀ q, let u := (List.range 4).foldl (State.closeChainsIn k) s
      u.firn.index = s.firn.index ∧ u.firn.committed = s.firn.committed ∧ (u.rgn q).crevs = (s.rgn q).crevs := fun q =>
    List.foldlRecOn (motive := fun y : State => y.firn.index = s.firn.index ∧ y.firn.committed = s.firn.committed ∧
      (y.rgn q).crevs = (s.rgn q).crevs) _ _ ⟨rfl, rfl, rfl⟩ fun y ⟨hix, hcm, hcr⟩ r _ => by
        obtain ⟨h1, h2, -⟩ := State.closeChainsIn_facts k y r
        refine ⟨h1.trans hix, h2.trans hcm, ?_⟩
        rw [State.closeChainsIn_rgn]
        by_cases hq : q = r
        · subst hq
          rw [State.rgn_modRgn]
          exact hcr
        · rw [State.rgn_modRgn_ne _ _ hq]
          exact hcr
  refine ⟨(hkept 0).1, (hkept 0).2.1, fun q => (hkept q).2.2, fun r c hc => ?_⟩
  obtain ⟨z, -, hz⟩ := State.foldl_at (fun y => (y.rgn r).chains) (State.closeChainsIn k) List.nodup_range (List.mem_range.2 r.isLt)
    (fun y q _ hq => by rw [State.closeChainsIn_rgn, State.rgn_modRgn_ne _ _ hq.symm]) s
  have hc' : c ∈ ((z.closeChainsIn k r).rgn r).chains := hz ▸ hc
  rw [State.closeChainsIn_rgn, State.rgn_modRgn] at hc'
  exact of_decide_eq_true (List.mem_filter.1 hc').2

/-- The entry of slice `k` with `n` more frames. -/
def State.counted (s : State) (k n : Nat) : IxEntry := { s.ixe k with frames := min 256 ((s.ixe k).frames + n) }

theorem State.openSlice_iff (s : State) (k : Nat) : s.openSlice k = true ↔ (s.ixe k).slice = k ∧ (s.ixe k).state = 1 := by
  simp [State.openSlice]

/-- Counting frames in an open slice: the entry, and the chains if that closes it. -/
theorem State.countFrames_facts {s : State} {k : Nat} (ho : s.openSlice k = true) (n : Nat) :
    (s.countFrames k n).ixe k = (s.counted k n).finish ∧ (s.countFrames k n).firn.committed = s.firn.committed ∧
      (∀ q, ((s.countFrames k n).rgn q).crevs = (s.rgn q).crevs) ∧
      ((s.counted k n).finish.state ≠ 1 → ∀ r : RgnIx, ∀ c ∈ ((s.countFrames k n).rgn r).chains, c.slice ≠ k) := by
  have heq : s.countFrames k n = (if (s.counted k n).finish.state = 1 then s.setIxe k (s.counted k n).finish
      else (s.setIxe k (s.counted k n).finish).closeChains k).refreshEdges := by
    unfold State.countFrames
    rw [ho]
    rfl
  obtain ⟨cix, ccm, ccr, cch⟩ := (s.setIxe k (s.counted k n).finish).closeChains_facts k
  rw [heq]
  split
  next h =>
    simp only [State.refreshEdges_ixe, State.refreshEdges_firn, State.refreshEdges_rgn]
    exact ⟨State.ixe_setIxe .., rfl, fun _ => rfl, fun hn => absurd h hn⟩
  next h =>
    simp only [State.refreshEdges_ixe, State.refreshEdges_firn, State.refreshEdges_rgn]
    refine ⟨?_, ccm, ccr, fun _ => cch⟩
    rw [State.ixe, cix]
    exact State.ixe_setIxe ..

theorem exec_frameCommit {s : State} (hr : s.con FRN_STAT_READY = true) (h3 : 3 ≤ s.tm.tick)
    (hc : ∀ j, s.firn.committed = some j → j < s.tm.tick - 3) :
    exec .frameCommit s = .next (
      let s2 := (s.commitRegions (s.tm.tick - 3) (sliceOf (s.frameAt (s.tm.tick - 3))) (3994 * 65536)).modFirn fun f =>
        { f with committed := some (s.tm.tick - 3) }
      if !(s2.openSlice (sliceOf (s.frameAt (s.tm.tick - 3)))) then s2
      else
        let u := ((List.range 4).map fun r => (((s2.rgn r).chains.filter fun c =>
          decide (c.slice = sliceOf (s.frameAt (s.tm.tick - 3)))).map Chain.units).sum).sum
        (s2.setIxe (sliceOf (s.frameAt (s.tm.tick - 3))) { s2.ixe (sliceOf (s.frameAt (s.tm.tick - 3))) with
          units := max u (s2.ixe (sliceOf (s.frameAt (s.tm.tick - 3)))).units }).countFrames (sliceOf (s.frameAt (s.tm.tick - 3)))
            (b2n (decide (s.firn.backTick ≤ s.tm.tick - 3)))) := by
  have h3' : ¬ s.tm.tick < 3 := by omega
  show execFrameCommit s = _
  unfold execFrameCommit
  cases hj : s.firn.committed with
  | none =>
    simp only [hr, h3', decide_false, Bool.not_true, Bool.or_self, Bool.false_eq_true, if_false]
    rfl
  | some j =>
    have := hc j hj
    simp only [hr, h3', decide_false, Bool.not_true, Bool.or_self, Bool.false_eq_true, if_false,
      decide_eq_false (show ¬ s.tm.tick - 3 ≤ j by omega)]
    rfl

/-- The commit counts its frame in the open slice, from whose entry only fields outside its core differ. -/
theorem frameCommit_counted {s : State} (hr : s.con FRN_STAT_READY = true) (h3 : 3 ≤ s.tm.tick)
    (hc : ∀ j, s.firn.committed = some j → j < s.tm.tick - 3) (ho : s.openSlice (sliceOf (s.frameAt (s.tm.tick - 3))) = true) :
    ∃ (u : State) (e : IxEntry), exec .frameCommit s = .next u ∧ e.core = (s.ixe (sliceOf (s.frameAt (s.tm.tick - 3)))).core ∧
      u.ixe (sliceOf (s.frameAt (s.tm.tick - 3))) =
        ({ e with frames := min 256 (e.frames + b2n (decide (s.firn.backTick ≤ s.tm.tick - 3))) } : IxEntry).finish ∧
      u.firn.committed = some (s.tm.tick - 3) ∧ (∀ r : RgnIx, ∀ c ∈ (u.rgn r).crevs, s.tm.tick - 3 < c.at_) ∧
      ((u.ixe (sliceOf (s.frameAt (s.tm.tick - 3)))).state ≠ 1 →
        ∀ r : RgnIx, ∀ c ∈ (u.rgn r).chains, c.slice ≠ sliceOf (s.frameAt (s.tm.tick - 3))) := by
  have he := exec_frameCommit hr h3 hc
  have hcore := s.commitRegions_core (s.tm.tick - 3) (sliceOf (s.frameAt (s.tm.tick - 3))) (3994 * 65536)
  have hcrevs := s.commitRegions_crevs (s.tm.tick - 3) (sliceOf (s.frameAt (s.tm.tick - 3))) (3994 * 65536)
  generalize s.commitRegions (s.tm.tick - 3) (sliceOf (s.frameAt (s.tm.tick - 3))) (3994 * 65536) = z at *
  generalize sliceOf (s.frameAt (s.tm.tick - 3)) = sl at *
  obtain ⟨hslice, hstate⟩ := (s.openSlice_iff sl).1 ho
  simp only [IxEntry.core, Prod.mk.injEq] at hcore
  obtain ⟨zslice, zstate, zframes⟩ := hcore
  have hz2 : (z.modFirn fun f => { f with committed := some (s.tm.tick - 3) }).openSlice sl = true :=
    (z.openSlice_iff sl).2 ⟨zslice.trans hslice, zstate.trans hstate⟩
  dsimp only at he
  rw [hz2, if_neg (by decide)] at he
  generalize ((List.range 4).map fun r => ((((z.modFirn fun f => { f with committed := some (s.tm.tick - 3) }).rgn r).chains.filter
    fun c => decide (c.slice = sl)).map Chain.units).sum).sum = n at he
  have hopen : ((z.modFirn fun f => { f with committed := some (s.tm.tick - 3) }).setIxe sl
      { (z.modFirn fun f => { f with committed := some (s.tm.tick - 3) }).ixe sl with
        units := max n ((z.modFirn fun f => { f with committed := some (s.tm.tick - 3) }).ixe sl).units }).openSlice sl = true := by
    rw [State.openSlice_iff, State.ixe_setIxe]
    exact ⟨zslice.trans hslice, zstate.trans hstate⟩
  obtain ⟨cix, ccm, ccr, cch⟩ := State.countFrames_facts hopen (b2n (decide (s.firn.backTick ≤ s.tm.tick - 3)))
  refine ⟨_, { z.ixe sl with units := max n (z.ixe sl).units }, he, ?_, ?_, ccm, fun r c hc => hcrevs r c (ccr r ▸ hc), fun hn => cch ?_⟩
  · simp only [IxEntry.core, zslice, zstate, zframes]
  · rw [cix, State.counted, State.ixe_setIxe]
    rfl
  · rw [← cix]
    exact hn

theorem IxEntry.finish_of_short {e : IxEntry} (h : e.frames < 256) : e.finish = e := if_pos (.inl h)

theorem IxEntry.finish_of_full {e : IxEntry} (h : e.frames = 256) (h1 : e.state = 1) : e.finish =
    if e.r0.count = 0 ∧ e.r1.count = 0 ∧ e.r2.count = 0 ∧ e.r3.count = 0 then { e with state := 0 } else { e with state := 2 } := by
  unfold IxEntry.finish
  rw [if_neg (by omega)]

theorem frameCommit_clauses {s : State} (hr : s.con FRN_STAT_READY = true) (h3 : 3 ≤ s.tm.tick)
    (hc : ∀ j, s.firn.committed = some j → j < s.tm.tick - 3) :
    let sl := sliceOf (s.frameAt (s.tm.tick - 3))
    s.openSlice sl = true →
    (s.tm.tick - 3 < s.firn.backTick → (s.ixe sl).frames < 256 → ∃ u, exec .frameCommit s = .next u ∧
      (u.ixe sl).frames = (s.ixe sl).frames) ∧
    (s.firn.backTick ≤ s.tm.tick - 3 → (s.ixe sl).frames < 255 → ∃ u, exec .frameCommit s = .next u ∧
      (u.ixe sl).frames = (s.ixe sl).frames + 1 ∧
      (u.ixe sl).state = 1 ∧ (u.ixe sl).slice = sl ∧ u.firn.committed = some (s.tm.tick - 3) ∧
      ∀ r : RgnIx, ∀ c ∈ (u.rgn r).crevs, s.tm.tick - 3 < c.at_) ∧
    (s.firn.backTick ≤ s.tm.tick - 3 → (s.ixe sl).frames = 255 → ∃ u, exec .frameCommit s = .next u ∧ (u.ixe sl).frames = 256 ∧
      ((u.ixe sl).state = 0 ∨ (u.ixe sl).state = 2) ∧ ((u.ixe sl).state = 0 ↔ (u.ixe sl).r0.count = 0 ∧ (u.ixe sl).r1.count = 0 ∧
        (u.ixe sl).r2.count = 0 ∧ (u.ixe sl).r3.count = 0) ∧ ∀ r : RgnIx, ∀ c ∈ (u.rgn r).chains, c.slice ≠ sl) := by
  intro sl ho
  obtain ⟨hslice, hstate⟩ := (s.openSlice_iff sl).1 ho
  obtain ⟨u, e, he, hcore, hix, hcm, hcr, hch⟩ := frameCommit_counted hr h3 hc ho
  change u.ixe sl = _ at hix
  change e.core = (s.ixe sl).core at hcore
  change (u.ixe sl).state ≠ 1 → ∀ r : RgnIx, ∀ c ∈ (u.rgn r).chains, c.slice ≠ sl at hch
  clear_value sl
  simp only [IxEntry.core, Prod.mk.injEq] at hcore
  obtain ⟨eslice, estate, eframes⟩ := hcore
  refine ⟨fun hb hlt => ⟨u, he, ?_⟩, fun hb hlt => ⟨u, he, ?_⟩, fun hb hfull => ⟨u, he, ?_⟩⟩
  · rw [decide_eq_false (by omega), b2n, IxEntry.finish_of_short (by simp; omega)] at hix
    rw [hix]
    simp
    omega
  · rw [decide_eq_true hb, IxEntry.finish_of_short (by simp [b2n]; omega)] at hix
    rw [hix]
    refine ⟨?_, estate.trans hstate, eslice.trans hslice, hcm, hcr⟩
    simp [b2n]
    omega
  · have hmin : min 256 (e.frames + b2n (decide (s.firn.backTick ≤ s.tm.tick - 3))) = 256 := by
      rw [decide_eq_true hb]
      simp [b2n]
      omega
    rw [hmin, IxEntry.finish_of_full (e := { e with frames := 256 }) rfl (estate.trans hstate)] at hix
    have hst : (u.ixe sl).frames = 256 ∧ ((u.ixe sl).state = 0 ∨ (u.ixe sl).state = 2) ∧ ((u.ixe sl).state = 0 ↔
        (u.ixe sl).r0.count = 0 ∧ (u.ixe sl).r1.count = 0 ∧ (u.ixe sl).r2.count = 0 ∧ (u.ixe sl).r3.count = 0) := by
      rw [hix]
      split
      next h => exact ⟨rfl, .inl rfl, fun _ => h, fun _ => rfl⟩
      next h => exact ⟨rfl, .inr rfl, nofun, fun h0 => absurd h0 h⟩
    obtain ⟨hfr, hor, hiff⟩ := hst
    exact ⟨hfr, hor, hiff, hch (by rcases hor with h | h <;> omega)⟩

/-- Settles O30: a commit changes of the entry of its slice only what lies outside slice, state and frames, and then counts the frame. -/
theorem slicesAreClaimedCountedAndClosed : Obligations.SlicesAreClaimedCountedAndClosed :=
  ⟨fun _ hr h2 => sliceClaim_clause hr h2, fun _ hr h3 hc => frameCommit_clauses hr h3 hc, fun _ hr => firnInitDone_clause hr,
    fun _ _ _ hf hp => indexSnapshot_clause hf hp⟩

end Sys2Proof.Machine

/-! ## Extents: the allocator's table -/

namespace Sys2Proof.Machine

set_option Elab.async false

/-! ### Extents of a state -/

theorem State.scratch_congr {s t : State} {r : Nat} (hc : t.cget (FRR_CFG_SCRATCH r) = s.cget (FRR_CFG_SCRATCH r)) :
    t.scratch r = s.scratch r := by
  rw [State.scratch, hc, State.scratch]

theorem State.ext_congr {s t : State} {r : Nat} (hc : t.scratch r = s.scratch r) (hf : t.firn.extents = s.firn.extents) (e : Nat) :
    t.ext r e = s.ext r e := by
  rw [State.ext, State.ext, hc, hf]

/-- An extent of the ring, below the scratch extents. -/
theorem State.ext_of_ring {s : State} {r e : Nat} (h : e < 131072 - s.scratch r) :
    s.ext r e = tget s.firn.extents (r * 131072 + e) {} := if_neg (Nat.not_le.2 h)

theorem State.ring_of_state {s : State} {r e n : Nat} (h : (s.ext r e).state = n) (hn : n ≠ 1) : e < 131072 - s.scratch r := by
  by_contra hc
  rw [State.ext, if_pos (Nat.not_lt.1 hc)] at h
  exact hn h.symm

theorem State.scratch_cset {s : State} {r : Nat} {f : Fld} (h : (FRR_CFG_SCRATCH r).key ≠ f.key) (v : Nat) :
    (s.cset f v).scratch r = s.scratch r := State.scratch_congr (State.cget_cset_ne _ _ _ _ h)

theorem State.scratch_refreshEdges (s : State) (r : Nat) : s.refreshEdges.scratch r = s.scratch r := by
  refine State.scratch_congr (State.refreshEdges_cget _ ?_)
  simp only [edgeKey, Fld.key, FRR_CFG_SCRATCH, FRN_OLDEST_SLICE, FRN_EDGE_SLICE]
  omega

theorem State.refreshEdges_ext (s : State) (r e : Nat) : s.refreshEdges.ext r e = s.ext r e :=
  State.ext_congr (s.scratch_refreshEdges r) (by rw [State.refreshEdges_firn]) e

theorem State.setExt_ext {s : State} {r e : Nat} (h : e < 131072 - s.scratch r) (x : Extent) : (s.setExt r e x).ext r e = x :=
  (State.ext_of_ring (s := s.setExt r e x) h).trans (tget_tset_same ..)

theorem State.modExt_ext {s : State} {r e : Nat} (h : e < 131072 - s.scratch r) (g : Extent → Extent) :
    (s.modExt r e g).ext r e = g (s.ext r e) := by
  rw [State.modExt, State.setExt_ext h, State.ext_of_ring h]

/-- The value of a key in a mapped table, where its image is no default. -/
theorem tget_tmap {α : Type} [DecidableEq α] {d : α} (g : Nat → α → α) {k : Nat} :
    ∀ {t : Tab α}, tget t k d ≠ d → g k (tget t k d) ≠ d → tget (tmap t d g) k d = g k (tget t k d)
  | [], h, _ => absurd rfl h
  | (j, v) :: t, h, hg => by
    by_cases hj : j = k
    · subst hj
      simp only [tget, if_true] at hg ⊢
      rw [tmap, List.map_cons, List.filter_cons_of_pos (by simpa using hg), tget, if_pos rfl]
    · simp only [tget, if_neg hj] at h hg ⊢
      rw [← tget_tmap g h hg, tmap, List.map_cons, List.filter_cons]
      split
      · rw [tget, if_neg hj, tmap]
      · rw [tmap]

theorem mem_of_tget {α : Type} {d : α} {k : Nat} : ∀ {t : Tab α}, tget t k d ≠ d → (k, tget t k d) ∈ t
  | [], h => absurd rfl h
  | (j, v) :: t, h => by
    by_cases hj : j = k
    · subst hj
      simp [tget]
    · simp only [tget, if_neg hj] at h ⊢
      exact List.mem_cons_of_mem _ (mem_of_tget h)

/-! ### Calving -/

/-- `t` is `s` with slices freed: registers and ready extents as before. -/
structure Calved (s t : State) : Prop where
  creg : t.creg = s.creg
  ready : ∀ r, (t.rgn r).readyExts = (s.rgn r).readyExts

theorem State.freeSlice_calved (s : State) (k : Nat) : Calved s (s.freeSlice k) := by
  unfold State.freeSlice
  refine List.foldlRecOn (motive := fun z => Calved s z) _ _ ⟨rfl, fun _ => rfl⟩ fun z hz r _ => ⟨hz.creg, fun q => ?_⟩
  rw [← hz.ready]
  by_cases hq : q = r
  · rw [hq, State.rgn_modRgn]
  · rw [State.rgn_modRgn_ne _ _ hq]

theorem State.freeSlice_firn (s : State) (k : Nat) : (s.freeSlice k).firn.index = s.firn.index ∧
    (s.freeSlice k).firn.extents = tmap s.firn.extents {} fun i x =>
      if (x.state = 1 ∨ x.state = 2) ∧ x.slice = k % 131072 then s.freed (i / 131072) x else x := by
  unfold State.freeSlice
  exact List.foldlRecOn (motive := fun z : State => z.firn.index = s.firn.index ∧ z.firn.extents = _) _ _ ⟨rfl, rfl⟩ fun z hz r _ => hz

/-- One step of calving: the extents of the slice are freed and its entry is CALVED. -/
def State.calveOne (z : State) (k : Nat) : State := (z.freeSlice k).setIxe k { z.ixe k with state := 3 }

/-- Calving slice `k`, if `x` at `i` is an extent that is only freed: it is freed with its slice and kept otherwise. -/
theorem State.calveOne_extent {z : State} {i : Nat} {x : Extent} (hg : 0 < x.gen) (hd : x.damaged = false) (hp : x.retirePend = false)
    (h : tget z.firn.extents i {} = x ∨ tget z.firn.extents i {} = { x with state := 0 }) (k : Nat) :
    (tget (z.calveOne k).firn.extents i {} = x ∨ tget (z.calveOne k).firn.extents i {} = { x with state := 0 }) ∧
    (x.state = 2 → x.slice = k % 131072 → tget (z.calveOne k).firn.extents i {} = { x with state := 0 }) ∧
    (tget z.firn.extents i {} = { x with state := 0 } → tget (z.calveOne k).firn.extents i {} = { x with state := 0 }) := by
  have hx : x ≠ {} := fun e => by rw [e] at hg; exact absurd hg (by decide)
  have h0 : { x with state := 0 } ≠ ({} : Extent) := fun e => by
    have : x.gen = 0 := congrArg Extent.gen e
    omega
  have hf : ∀ q, z.freed q x = { x with state := 0 } := fun q => by
    rw [State.freed, hd, hp]
    exact if_neg (by simp)
  have he : (z.calveOne k).firn.extents = (z.freeSlice k).firn.extents := rfl
  rw [he, (z.freeSlice_firn k).2]
  rcases h with h | h
  · by_cases hc : (x.state = 1 ∨ x.state = 2) ∧ x.slice = k % 131072
    · have e := tget_tmap (t := z.firn.extents) (d := ({} : Extent)) (k := i) (fun i x =>
        if (x.state = 1 ∨ x.state = 2) ∧ x.slice = k % 131072 then z.freed (i / 131072) x else x) (by rw [h]; exact hx)
        (by simp only [h, if_pos hc, hf]; exact h0)
      simp only [h, if_pos hc, hf] at e
      rw [e]
      exact ⟨.inr rfl, fun _ _ => rfl, fun _ => rfl⟩
    · have e := tget_tmap (t := z.firn.extents) (d := ({} : Extent)) (k := i) (fun i x =>
        if (x.state = 1 ∨ x.state = 2) ∧ x.slice = k % 131072 then z.freed (i / 131072) x else x) (by rw [h]; exact hx)
        (by simp only [h, if_neg hc]; exact hx)
      simp only [h, if_neg hc] at e
      rw [e, h]
      exact ⟨.inl rfl, fun h2 hs => absurd ⟨.inr h2, hs⟩ hc, id⟩
  · have hc : ¬ ((({ x with state := 0 } : Extent).state = 1 ∨ ({ x with state := 0 } : Extent).state = 2) ∧
        ({ x with state := 0 } : Extent).slice = k % 131072) := by simp
    have e := tget_tmap (t := z.firn.extents) (d := ({} : Extent)) (k := i) (fun i x =>
      if (x.state = 1 ∨ x.state = 2) ∧ x.slice = k % 131072 then z.freed (i / 131072) x else x) (by rw [h]; exact h0)
      (by simp only [h]; rw [if_neg (by simp)]; exact h0)
    simp only [h] at e
    rw [if_neg (by simp)] at e
    rw [e]
    exact ⟨.inr rfl, fun _ _ => rfl, fun _ => rfl⟩

theorem State.calveOne_ixe (z : State) (k j : Nat) (h : (tget z.firn.index j {}).state = 3 ∨ k % 131072 = j) :
    (tget (z.calveOne k).firn.index j {}).state = 3 := by
  have hi : (z.calveOne k).firn.index = tset z.firn.index (k % 131072) {} { z.ixe k with state := 3 } := by
    rw [← (z.freeSlice_firn k).1]
    rfl
  rw [hi]
  by_cases hk : k % 131072 = j
  · rw [hk, tget_tset_same]
  · rw [tget_tset_ne _ _ _ _ (Ne.symm hk)]
    exact h.resolve_right hk

theorem State.calveOne_calved {s z : State} (h : Calved s z) (k : Nat) : Calved s (z.calveOne k) :=
  ⟨(z.freeSlice_calved k).creg.trans h.creg, fun r => ((z.freeSlice_calved k).ready r).trans (h.ready r)⟩

/-- Calving a list of slices with one that has extent `x` at `i`. -/
theorem State.calveAll_facts {i : Nat} {x : Extent} (hg : 0 < x.gen) (hd : x.damaged = false) (hp : x.retirePend = false)
    (h2 : x.state = 2) {k : Nat} (hk : k % 131072 = x.slice) : ∀ {ks : List Nat} {z : State},
    (tget z.firn.extents i {} = x ∨ tget z.firn.extents i {} = { x with state := 0 }) →
    (k ∈ ks ∨ (tget z.firn.extents i {} = { x with state := 0 } ∧ (tget z.firn.index x.slice {}).state = 3)) →
    tget (ks.foldl State.calveOne z).firn.extents i {} = { x with state := 0 } ∧
      (tget (ks.foldl State.calveOne z).firn.index x.slice {}).state = 3 ∧ Calved z (ks.foldl State.calveOne z)
  | [], z, _, hm => by
    obtain ⟨he, hi⟩ := hm.resolve_left (by simp)
    exact ⟨he, hi, rfl, fun _ => rfl⟩
  | a :: ks, z, hx, hm => by
    obtain ⟨hor, hfree, hstay⟩ := z.calveOne_extent hg hd hp hx a
    have hc := State.calveOne_calved (s := z) (z := z) ⟨rfl, fun _ => rfl⟩ a
    have hm' : k ∈ ks ∨ (tget (z.calveOne a).firn.extents i {} = { x with state := 0 } ∧
        (tget (z.calveOne a).firn.index x.slice {}).state = 3) := by
      rcases hm with hm | ⟨he, hi⟩
      · rcases List.mem_cons.1 hm with rfl | hm
        · exact .inr ⟨hfree h2 hk.symm, z.calveOne_ixe _ _ (.inr hk)⟩
        · exact .inl hm
      · exact .inr ⟨hstay he, z.calveOne_ixe _ _ (.inl hi)⟩
    obtain ⟨he, hi, hc'⟩ := State.calveAll_facts hg hd hp h2 hk hor hm'
    rw [List.foldl_cons]
    exact ⟨he, hi, hc'.creg.trans hc.creg, fun r => (hc'.ready r).trans (hc.ready r)⟩

theorem State.calveUpTo_eq (s : State) (k : Nat) : s.calveUpTo k = (List.foldl State.calveOne s
    ((s.retained.filter fun e => decide (e.slice ≤ k) && decide (e.pins = 0)).map IxEntry.slice)).refreshEdges := by
  unfold State.calveUpTo State.calveSlices State.calveOne
  dsimp only

theorem State.calveUpTo_facts {s : State} {i : Nat} {x : Extent} (hx : tget s.firn.extents i {} = x) (hg : 0 < x.gen)
    (hd : x.damaged = false) (hp : x.retirePend = false) (h2 : x.state = 2) {o : IxEntry} (ho : tget s.firn.index x.slice {} = o)
    (hs : o.state = 2) (hn : o.pins = 0) (hk : o.slice % 131072 = x.slice) :
    tget (s.calveUpTo o.slice).firn.extents i {} = { x with state := 0 } ∧
      (tget (s.calveUpTo o.slice).firn.index x.slice {}).state = 3 ∧
      (∀ r, ((s.calveUpTo o.slice).rgn r).readyExts = (s.rgn r).readyExts) ∧
      ∀ r, (s.calveUpTo o.slice).scratch r = s.scratch r := by
  have hmem : o.slice ∈ (s.retained.filter fun e => decide (e.slice ≤ o.slice) && decide (e.pins = 0)).map IxEntry.slice := by
    refine List.mem_map.2 ⟨o, List.mem_filter.2 ⟨List.mem_filter.2 ⟨?_, by simp [IxEntry.live, hs]⟩, by simp [hn]⟩, rfl⟩
    refine List.mem_map.2 ⟨(x.slice, o), ?_, rfl⟩
    have hne : tget s.firn.index x.slice {} ≠ ({} : IxEntry) := fun e => by
      rw [e] at ho
      rw [← ho] at hs
      exact absurd hs (by decide)
    rw [← ho]
    exact mem_of_tget hne
  obtain ⟨he, hi, hc⟩ := State.calveAll_facts hg hd hp h2 hk (.inl hx) (.inl hmem)
  rw [State.calveUpTo_eq, State.refreshEdges_firn]
  exact ⟨he, hi, fun r => by rw [State.refreshEdges_rgn, hc.ready],
    fun r => by rw [State.scratch_refreshEdges]; exact State.scratch_congr (State.cget_of_creg hc.creg _)⟩

/-! ### The allocator -/

theorem State.ext_setWrPtr (s : State) (r e v : Nat) : (s.cset (FRR_WR_PTR r) v).ext r e = s.ext r e :=
  State.ext_congr (State.scratch_cset (by simp only [Fld.key, FRR_CFG_SCRATCH, FRR_WR_PTR]; omega) _) rfl _

theorem State.takeReady_ready (s : State) (r e : Nat) : ((s.takeReady r e).refreshEdges.rgn r).readyExts =
    (s.rgn r).readyExts ++ [e] := by
  rw [State.refreshEdges_rgn, State.takeReady, State.rgn_modRgn]

section allocator
variable {s : State} {r : RgnIx} {e next : Nat} {x : Extent} {o : IxEntry}
  (hr : s.con FRN_STAT_READY = true) (hl : (s.rgn r).readyExts.length < 2) (he : s.cget (FRR_WR_PTR r) = e) (hx : s.ext r e = x)
  (ho : tget s.firn.index x.slice {} = o) (hnx : (if e + 1 < 131072 - s.scratch r then e + 1 else 0) = next)
include hr hl he hx ho hnx

/-- The allocator without a pin to release. -/
theorem exec_allocatorInspect (hp : x.state = 2 ∧ o.state ≠ 1 →
      ((s.cset (FRR_WR_PTR r) next).releaseFor r x 64) = s.cset (FRR_WR_PTR r) next) :
    exec (.allocatorInspect r) s = .next (
      if x.state = 0 then
        (if (s.rgn r).readyExts.contains e then s.cset (FRR_WR_PTR r) next
          else ((s.cset (FRR_WR_PTR r) next).takeReady r e).refreshEdges)
      else if x.state = 2 ∧ o.state ≠ 1 ∧ o.pins = 0 then
        (if (((s.cset (FRR_WR_PTR r) next).calveUpTo o.slice).ext r e).state = 0 then
          (((s.cset (FRR_WR_PTR r) next).calveUpTo o.slice).takeReady r e).refreshEdges
        else (s.cset (FRR_WR_PTR r) next).calveUpTo o.slice)
      else s.cset (FRR_WR_PTR r) next) := by
  have hs1 : (if x.state = 2 ∧ (!decide (o.state = 1)) = true then (s.cset (FRR_WR_PTR r) next).releaseFor r x 64
      else s.cset (FRR_WR_PTR r) next) = s.cset (FRR_WR_PTR r) next := by
    split
    case isTrue h => exact hp ⟨h.1, by simpa using h.2⟩
    case isFalse => rfl
  have hext := (s.ext_setWrPtr r e next).trans hx
  have hidx : (s.cset (FRR_WR_PTR r) next).firn = s.firn := rfl
  show execAllocatorInspect r s = _
  unfold execAllocatorInspect
  simp only [hr, Nat.not_le.2 hl, he, hx, ho, hnx, hs1, hext, hidx, Bool.not_true, decide_false, Bool.or_self, Bool.false_eq_true,
      if_false]
  rfl

end allocator

theorem allocatorInspect_clauses {s : State} {r : RgnIx} (hr : s.con FRN_STAT_READY = true) (hl : (s.rgn r).readyExts.length < 2) :
    let e := s.cget (FRR_WR_PTR r)
    let x := s.ext r e
    let o := tget s.firn.index x.slice {}
    let next := if e + 1 < 131072 - s.scratch r then e + 1 else 0
    (x.state = 0 → e ∉ (s.rgn r).readyExts → ∃ u, exec (.allocatorInspect r) s = .next u ∧
      (u.rgn r).readyExts = (s.rgn r).readyExts ++ [e] ∧ u.cget (FRR_WR_PTR r) = next ∧ u.firn = s.firn) ∧
    (x.state = 3 ∨ x.state = 1 → exec (.allocatorInspect r) s = .next (s.cset (FRR_WR_PTR r) next)) ∧
    (x.state = 2 → o.state ≠ 1 → 0 < o.pins → s.pinnedExtents r ≤ s.pinQuota r →
      exec (.allocatorInspect r) s = .next (s.cset (FRR_WR_PTR r) next)) ∧
    (x.state = 2 → o.state = 2 → o.pins = 0 → o.slice % 131072 = x.slice → 0 < x.gen → x.damaged = false → x.retirePend = false →
      ∃ u, exec (.allocatorInspect r) s = .next u ∧ (tget u.firn.index x.slice {}).state = 3 ∧ (u.ext r e).state = 0 ∧
        (u.ext r e).gen = x.gen ∧ (u.rgn r).readyExts = (s.rgn r).readyExts ++ [e]) := by
  extract_lets e x o next
  have hE := exec_allocatorInspect (s := s) (r := r) hr hl (e := e) (x := x) (o := o) (next := next) rfl rfl rfl rfl
  have hext : _ = x := s.ext_setWrPtr r e next
  have hnx : next < 2 ^ 17 := by
    show (if e + 1 < 131072 - s.scratch r then e + 1 else 0) < _
    split <;> omega
  have hsc : (s.cset (FRR_WR_PTR r) next).scratch r = s.scratch r :=
    State.scratch_cset (by simp only [Fld.key, FRR_CFG_SCRATCH, FRR_WR_PTR]; omega) _
  have hfirn : (s.cset (FRR_WR_PTR r) next).firn = s.firn := rfl
  have hrgn : (s.cset (FRR_WR_PTR r) next).rgn r = s.rgn r := rfl
  have hget : (s.cset (FRR_WR_PTR r) next).cget (FRR_WR_PTR r) = next := State.cget_cset_of_lt _ hnx
  have hpq : (s.cset (FRR_WR_PTR r) next).pinQuota r = s.pinQuota r := by
    rw [State.pinQuota, hsc, State.cget_cset_ne _ _ _ _ (by simp only [Fld.key, FRN_CTRL_QUOTA, FRR_WR_PTR]; omega), State.pinQuota]
  have hpe : (s.cset (FRR_WR_PTR r) next).pinnedExtents r = s.pinnedExtents r := rfl
  have hstay : s.extPinned x = false ∨ ¬ s.pinQuota r < s.pinnedExtents r →
      (s.cset (FRR_WR_PTR r) next).releaseFor r x 64 = s.cset (FRR_WR_PTR r) next := fun h => by
    have hep : (s.cset (FRR_WR_PTR r) next).extPinned x = s.extPinned x := rfl
    rw [State.releaseFor, hpq, hpe, hep]
    refine if_neg ?_
    rcases h with h | h <;> simp [h]
  have hring : x.state = 2 → tget s.firn.extents (r * 131072 + e) {} = x := fun h =>
    (State.ext_of_ring (State.ring_of_state h (by decide))).symm
  have hringS : x.state = 2 → e < 131072 - s.scratch r := fun h => State.ring_of_state h (by decide)
  have hoS : tget s.firn.index x.slice {} = o := rfl
  generalize s.cset (FRR_WR_PTR r) next = s0 at *
  clear_value e x o next
  refine ⟨fun h0 hm => ?_, fun h => ?_, fun h2 h1 hp hq => ?_, fun h2 h1 hp hk hg hd hrp => ?_⟩
  · have h := hE fun h => absurd (h0.symm.trans h.1) (by decide)
    rw [if_pos h0, if_neg (by simpa using hm)] at h
    refine ⟨_, h, ?_, ?_, ?_⟩
    · rw [State.takeReady_ready, hrgn]
    · rw [State.refreshEdges_cget _ (by simp only [edgeKey, Fld.key, FRR_WR_PTR, FRN_OLDEST_SLICE, FRN_EDGE_SLICE]; omega)]
      exact hget
    · rw [State.refreshEdges_firn]
      exact hfirn
  · have hE := hE fun h2 => by omega
    rwa [if_neg (by omega), if_neg (by omega)] at hE
  · have hE := hE fun _ => hstay (.inr (by omega))
    rwa [if_neg (by omega), if_neg (by omega)] at hE
  · have hE := hE fun _ => hstay (.inl (by simp [State.extPinned, h2, hoS, hp]))
    obtain ⟨hxe, hie, hrd, hscr⟩ := State.calveUpTo_facts (s := s0) (i := r * 131072 + e) (x := x) (by rw [hfirn, hring h2]) hg hd hrp h2
      (by rw [hfirn, hoS]) h1 hp hk
    have hsc4 := (hscr r).trans hsc
    generalize s0.calveUpTo o.slice = s2 at *
    have hex : s2.ext r e = { x with state := 0 } := by rw [State.ext_of_ring (by rw [hsc4]; exact hringS h2), hxe]
    rw [if_neg (by omega), if_pos ⟨h2, by omega, hp⟩, if_pos (by rw [hex])] at hE
    have htk : (s2.takeReady r e).refreshEdges.ext r e = { x with state := 0 } := by
      rw [State.refreshEdges_ext, ← hex]
      rfl
    refine ⟨_, hE, ?_, by rw [htk], by rw [htk], ?_⟩
    · rw [State.refreshEdges_firn]
      exact hie
    · rw [State.takeReady_ready, hrd, hrgn]

/-! ### Lines -/

theorem State.issueLine_facts (s : State) (r : Nat) (c : Chain) (l : Nat) (d : List Byte) (h : c.ext < 131072 - s.scratch r) :
    (s.issueLine r c l d).cget (FRR_LINES_CNT r) = (s.cget (FRR_LINES_CNT r) + 1) % 2 ^ 64 ∧
    ((s.issueLine r c l d).ext r c.ext).hwm = max (s.ext r c.ext).hwm (l + 1) ∧
    ((s.issueLine r c l d).rgn r).writeBuf = (s.rgn r).writeBuf ++ [
      { slice := c.slice, ext := c.ext, gen := c.gen, line := l, data := d
        units := (c.lineUnits.filter fun u => decide (u.1 = l)).map (·.2) }] := by
  unfold State.issueLine
  extract_lets us
  generalize hz : s.modRgn r _ = z
  have hsc : z.scratch r = s.scratch r := by rw [← hz]; rfl
  have hex : z.ext r c.ext = s.ext r c.ext := by rw [← hz]; rfl
  have hc : z.cget (FRR_LINES_CNT r) = s.cget (FRR_LINES_CNT r) := by rw [← hz]; rfl
  have hw : (z.rgn r).writeBuf = (s.rgn r).writeBuf ++ [
      { slice := c.slice, ext := c.ext, gen := c.gen, line := l, data := d, units := us }] := by
    rw [← hz, State.rgn_modRgn]
  refine ⟨?_, ?_, hw⟩
  · rw [State.cwrap, State.cget_cset_same, ← hc]
    rfl
  · rw [State.cwrap, State.ext_congr (State.scratch_cset (by simp only [Fld.key, FRR_CFG_SCRATCH, FRR_LINES_CNT]; omega) _) rfl,
      State.modExt_ext (by rw [hsc]; exact h), hex]

theorem lineWrite_clause {s : State} {r : RgnIx} {c : Chain} (hc : (s.rgn r).chains = [c]) (hl : 64 ≤ c.tail.length)
    (he : c.ext < 131072 - s.scratch r) :
    ∃ u, exec (.lineWrite r) s = .next u ∧ u.cget (FRR_LINES_CNT r) = (s.cget (FRR_LINES_CNT r) + 1) % 2 ^ 64 ∧
      (u.ext r c.ext).hwm = max (s.ext r c.ext).hwm (c.tailLine + 1) ∧
      ∃ w, (u.rgn r).writeBuf = (s.rgn r).writeBuf ++ [w] ∧ w.ext = c.ext ∧ w.gen = c.gen ∧ w.line = c.tailLine ∧
        w.data = c.tail.take 64 ∧ w.retried = false := by
  have hx : exec (.lineWrite r) s = .next ((s.issueLine r c c.tailLine (c.tail.take 64)).putChain r { c with
      tail := c.tail.drop 64, lineUnits := c.lineUnits.filter fun u => decide (c.tailLine < u.1) }) := by
    have hf : ([c].find? fun c => decide (64 ≤ c.tail.length)) = some c := by rw [List.find?_cons_of_pos (by simpa using hl)]
    show execLineWrite r s = _
    unfold execLineWrite
    simp only [hc, hf, State.issueFull, if_neg (Nat.not_lt.2 hl)]
  obtain ⟨h1, h2, h3⟩ := s.issueLine_facts r c c.tailLine (c.tail.take 64) he
  exact ⟨_, hx, h1, h2, _, by rw [State.putChain, State.rgn_modRgn]; exact h3, rfl, rfl, rfl, rfl, rfl⟩

theorem writeAcknowledged_clause {s : State} {r : RgnIx} {w : WLine} {rest : List WLine} (h : (s.rgn r).writeBuf = w :: rest) :
    ∃ u, exec (.writeAcknowledged r) s = .next u ∧ (u.rgn r).writeBuf = rest ∧
      tget u.firn.lines ((131072 * r.val + w.ext) * 65536 + w.line) (formLine [] 0) = formLine w.data w.gen ∧
      u = { s with regions := u.regions, firn := u.firn } := by
  have he : exec (.writeAcknowledged r) s = .next ((s.modRgn r fun x => { x with writeBuf := rest }).modFirn fun f => { f with
      lines := tins f.lines ((131072 * r.val + w.ext) * 65536 + w.line) (formLine w.data w.gen) }) := by
    show execWriteAcknowledged r s = _
    unfold execWriteAcknowledged
    simp only [h]
  refine ⟨_, he, ?_, tget_tins_same .., rfl⟩
  have hr : ∀ (z : State) (g : FirnSt → FirnSt), (z.modFirn g).rgn r = z.rgn r := fun _ _ => rfl
  rw [hr, State.rgn_modRgn]

theorem writeRetry_clause {s : State} {r : RgnIx} {w : WLine} {rest : List WLine} (h : (s.rgn r).writeBuf = w :: rest)
    (hw : w.retried = false) :
    ∃ u, exec (.writeRetry r) s = .next u ∧ (u.rgn r).writeBuf = { w with retried := true } :: rest ∧ u = { s with regions := u.regions
        } := by
  have he : exec (.writeRetry r) s = .next (s.modRgn r fun x => { x with
    writeBuf := changeFirst (fun w => !w.retried) (fun w => { w with retried := true }) x.writeBuf }) := rfl
  refine ⟨_, he, ?_, rfl⟩
  rw [State.rgn_modRgn]
  simp only [h, changeFirst, hw, Bool.not_false, if_true]

/-! ### A line that fails twice -/

theorem State.damage_facts {s : State} {r e : Nat} (h : e < 131072 - s.scratch r) : (s.damage r e).creg = s.creg ∧
    (s.damage r e).regions = s.regions ∧ (s.damage r e).ext r e = { s.ext r e with damaged := true } := by
  have hd : (s.damage r e).firn.extents = (s.modExt r e fun y => { y with damaged := true }).firn.extents := by
    unfold State.damage
    rw [if_neg (Nat.not_le.2 h)]
    rfl
  have hc : (s.damage r e).creg = s.creg := by
    unfold State.damage
    rw [if_neg (Nat.not_le.2 h)]
    rfl
  refine ⟨hc, ?_, ?_⟩
  · unfold State.damage
    rw [if_neg (Nat.not_le.2 h)]
    rfl
  · rw [← State.modExt_ext h fun y => { y with damaged := true }]
    exact State.ext_congr (s := s.modExt r e _) (State.scratch_congr (State.cget_of_creg hc _)) hd _

/-- The extent of a line that failed twice is closed at the line, and the line is given up. -/
def State.closeFailed (s : State) (i : Nat) (w : WLine) : State :=
  (((s.damage i w.ext).cbump (FRR_UNC_CNT (stackOf i w.ext w.line))).modRgn i fun x => { x with
    writeBuf := x.writeBuf.filter fun y => !([w].contains y) }).modExt i w.ext fun x => { x with hwm := w.line, state := 2 }

theorem State.closeFailed_facts {s : State} {i : Nat} {w : WLine} (hx : w.ext < 131072 - s.scratch i) :
    (s.closeFailed i w).ext i w.ext = { s.ext i w.ext with damaged := true, hwm := w.line, state := 2 } ∧
    (s.closeFailed i w).rgn i = { s.rgn i with writeBuf := (s.rgn i).writeBuf.filter fun y => !([w].contains y) } ∧
    (s.closeFailed i w).cget (FRR_UNC_CNT (stackOf i w.ext w.line)) =
      min (s.cget (FRR_UNC_CNT (stackOf i w.ext w.line)) + 1) (2 ^ 32 - 1) := by
  obtain ⟨hcr, hrg, hex⟩ := State.damage_facts hx
  unfold State.closeFailed
  generalize s.damage i w.ext = z at *
  have hzs : z.scratch i = s.scratch i := State.scratch_congr (State.cget_of_creg hcr _)
  have hzr : z.rgn i = s.rgn i := by rw [State.rgn, hrg, State.rgn]
  have hys : (z.cbump (FRR_UNC_CNT (stackOf i w.ext w.line))).scratch i = s.scratch i := by
    rw [← hzs]
    refine State.scratch_congr (State.cget_cbump_ne _ _ _ ?_)
    simp only [Fld.key, FRR_CFG_SCRATCH, FRR_UNC_CNT]
    omega
  have hyr : (z.cbump (FRR_UNC_CNT (stackOf i w.ext w.line))).rgn i = s.rgn i := hzr
  have hye := (State.ext_congr (hys.trans hzs.symm) rfl w.ext).trans hex
  have hyc := (z.cget_cbump_sat (FRR_UNC_CNT (stackOf i w.ext w.line)))
  rw [State.cget_of_creg hcr] at hyc
  generalize z.cbump (FRR_UNC_CNT (stackOf i w.ext w.line)) = y at *
  refine ⟨?_, ?_, hyc⟩
  · rw [State.modExt_ext (by rw [← hys] at hx; exact hx)]
    have h : ∀ g : Region → Region, (y.modRgn i g).ext i w.ext = y.ext i w.ext := fun _ => rfl
    rw [h, hye]
  · rw [← hyr]
    have h : ∀ (z : State) (e : Nat) (g : Extent → Extent), (z.modExt i e g).rgn i = z.rgn i := fun _ _ _ => rfl
    rw [h, State.rgn_modRgn]

theorem storeWriteFailure_clause {s : State} {r : RgnIx} {w : WLine} (h : (s.rgn r).writeBuf = [w]) (hw : w.retried = true)
    (hc : (s.rgn r).chains = []) (hx : w.ext < 131072 - s.scratch r) (hu : w.units = []) :
    ∃ u, exec (.storeWriteFailure r) s = .next u ∧ (u.ext r w.ext).state = 2 ∧ (u.ext r w.ext).hwm = w.line ∧
      (u.ext r w.ext).damaged = true ∧ (u.rgn r).writeBuf = [] ∧
      u.cget (FRR_UNC_CNT (stackOf r w.ext w.line)) = min (s.cget (FRR_UNC_CNT (stackOf r w.ext w.line)) + 1) (2 ^ 32 - 1) := by
  obtain ⟨hex, hrg, hun⟩ := State.closeFailed_facts hx
  have hd : s.closeFailed r w = (((s.damage r w.ext).cbump (FRR_UNC_CNT (stackOf r w.ext w.line))).modRgn r fun x => { x with
    writeBuf := x.writeBuf.filter fun y => !([w].contains y) }).modExt r w.ext fun x => { x with hwm := w.line, state := 2 } := rfl
  have hch : ((s.closeFailed r w).rgn r).chains = [] := by rw [hrg]; exact hc
  have he : exec (.storeWriteFailure r) s = .next (s.closeFailed r w) := by
    have hg : ([w].filter fun x => decide (x.ext = w.ext) && decide (x.gen = w.gen) && decide (w.line ≤ x.line)) = [w] := by simp
    have hf : ([w].find? fun x => x.retried) = some w := by simp [hw]
    show execStoreWriteFailure r s = _
    unfold execStoreWriteFailure
    simp only [h, hf, hc, hg, List.find?_nil, List.flatMap_cons, List.flatMap_nil, hu, List.append_nil, Option.map_none,
      List.eraseDups_nil, List.foldl_nil, ← hd, hch]
    rfl
  refine ⟨_, he, by rw [hex], by rw [hex], by rw [hex], ?_, hun⟩
  rw [hrg]
  simp [h]

/-! ### The select register of the extents -/

/-- The state a write of the select register answers from: the edges follow and the data words show the extent. -/
def State.showExt (s : State) (r e : Nat) : State :=
  (List.range 3).foldl (fun z n => z.cset (FRR_XT_DATA_D (3 * r + n)) ((s.refreshEdges.ext r e).words.getD n 0)) s.refreshEdges

theorem State.showExt_same (s : State) (r e : Nat) : CregOnly s.refreshEdges (s.showExt r e) :=
  (CregOnly.refl _).foldl _ _ fun _ _ hz => hz.cset _ _

@[simp] theorem State.showExt_firn (s : State) (r e : Nat) : (s.showExt r e).firn = s.firn := by
  rw [s.showExt_same r e, ← s.refreshEdges_firn]

@[simp] theorem State.showExt_rgn (s : State) (r e q : Nat) : (s.showExt r e).rgn q = s.rgn q := by
  rw [s.showExt_same r e, ← s.refreshEdges_rgn]
  rfl

theorem State.showExt_cget {s : State} {r e : Nat} {f : Fld} (h : ¬ edgeKey f.key) (hd : ∀ n < 3, f.key ≠ (FRR_XT_DATA_D
    (3 * r + n)).key) :
    (s.showExt r e).cget f = s.cget f := by
  rw [State.showExt, State.foldl_cset_range_ne _ _ _ _ hd, State.refreshEdges_cget _ h]

theorem State.showExt_ext (s : State) (r e : Nat) : (s.showExt r e).ext r e = s.ext r e := by
  refine State.ext_congr (State.scratch_congr (State.showExt_cget ?_ fun n hn => ?_)) (by rw [State.showExt_firn]) e
  · simp only [edgeKey, Fld.key, FRR_CFG_SCRATCH, FRN_OLDEST_SLICE, FRN_EDGE_SLICE]
    omega
  · simp only [Fld.key, FRR_CFG_SCRATCH, FRR_XT_DATA_D]
    omega

theorem State.showExt_data (s : State) (r e : Nat) {n : Nat} (hn : n < 3) :
    (s.showExt r e).cget (FRR_XT_DATA_D (3 * r + n)) = (s.ext r e).words.getD n 0 % 2 ^ 32 := by
  rw [State.showExt, State.foldl_cset_range_mem (fun n => FRR_XT_DATA_D (3 * r + n)) _ (fun i j h => by
    simp only [Fld.key, FRR_XT_DATA_D] at h
    omega) _ hn, State.refreshEdges_ext]
  rfl

theorem findReg_xtSel : ∀ r : RgnIx, findReg regClasses 4 (FRR_XT_SEL_EXT r).reg = some ([FRR_XT_SEL_EXT r, FRR_XT_SEL_OP r], false) := by
  decide +kernel

section xtSel
variable {s : State} {m : MasterIx} {r : RgnIx} {x : XtWrite} {e : Nat}

/-- The state in which a write of the select register takes its effect. -/
def State.xtWritten (s : State) (m : MasterIx) (r : RgnIx) (x : XtWrite) : State :=
  ((s.when x.corrected fun y => y.cbump FRN_EVT2_SRAM_CORR).writeReg m (FRR_XT_SEL_EXT r).reg x.val.toNat).1

theorem State.xtWritten_same (s : State) (m : MasterIx) (r : RgnIx) (x : XtWrite) : CregOnly s (s.xtWritten m r x) := by
  have hw : CregOnly s (s.when x.corrected fun y => y.cbump FRN_EVT2_SRAM_CORR) := by
    cases x.corrected
    · exact .refl s
    · exact (CregOnly.refl s).cset _ _
  unfold State.xtWritten CregOnly
  rw [State.writeReg_same]
  generalize ((s.when x.corrected fun y => y.cbump FRN_EVT2_SRAM_CORR).writeReg m (FRR_XT_SEL_EXT r).reg x.val.toNat).1.creg = c
  rw [hw]

theorem State.xtWritten_cget {f : Fld} (h : f.key / 64 ≠ 0x401040 + 4096 * r.val) :
    (s.xtWritten m r x).cget f = (s.when x.corrected fun y => y.cbump FRN_EVT2_SRAM_CORR).cget f := by
  refine State.writeReg_cget_ne (findReg_xtSel r) (by simp [FRR_XT_SEL_EXT, FRR_XT_SEL_OP]) m x.val.toNat fun g hg e => h ?_
  simp only [List.mem_cons, List.not_mem_nil, or_false] at hg
  rw [e]
  rcases hg with rfl | rfl <;> simp only [Fld.key, FRR_XT_SEL_EXT, FRR_XT_SEL_OP] <;> omega

theorem State.xtWritten_scratch : (s.xtWritten m r x).scratch r = s.scratch r := by
  refine State.scratch_congr ?_
  rw [State.xtWritten_cget (by simp only [Fld.key, FRR_CFG_SCRATCH]; omega)]
  cases x.corrected
  · rfl
  · exact State.cget_cbump_ne _ _ _ (by simp only [Fld.key, FRR_CFG_SCRATCH, FRN_EVT2_SRAM_CORR]; omega)

@[simp] theorem State.xtWritten_firn : (s.xtWritten m r x).firn = s.firn := by rw [s.xtWritten_same m r x]
@[simp] theorem State.xtWritten_rgn (q : Nat) : (s.xtWritten m r x).rgn q = s.rgn q := by
  rw [s.xtWritten_same m r x]
  rfl
theorem State.xtWritten_ext (e : Nat) : (s.xtWritten m r x).ext r e = s.ext r e :=
  State.ext_congr State.xtWritten_scratch (by rw [State.xtWritten_firn]) e

/-- What the operation of a write of the select register does to extent `e` of region `r`. -/
def State.xtOp (s : State) (r e op : Nat) (x : Extent) : State :=
  if op = 1 then
    (if x.state = 0 then (s.setExt r e { x with state := 3 }).modRgn r fun y => { y with readyExts := y.readyExts.filter (· ≠ e) }
      else if x.state = 3 then s else s.setExt r e { x with retirePend := true })
  else if op = 2 ∧ x.state = 3 then s.setExt r e { x with state := 0 }
  else s

variable (hf : s.frozen m = false) (hp : s.permitted m .control (FRR_XT_SEL_EXT r).reg .write = true)
  (he : x.val.toNat % 2 ^ 17 = e) (hr : e < 131072 - s.scratch r)
include hf hp he hr

theorem xtWrite_eq : ∃ b, s.xtWrite r m x =
    (((s.xtWritten m r x).xtOp r e (bits x.val.toNat 17 2) (s.ext r e)).showExt r e).answer m b 0 := by
  have hg : s.xtWrite r m x = _ := State.guarded_of_permitted hf hp fun z =>
    State.answered ((z.when x.corrected fun y => y.cbump FRN_EVT2_SRAM_CORR).opXtSel r m x.val.toNat) m
  have hv : bits x.val.toNat 0 17 = e := by rw [← he]; simp [bits]
  have hex : (s.when x.corrected fun y => y.cbump FRN_EVT2_SRAM_CORR).ext r e = s.ext r e := by
    cases x.corrected
    · rfl
    · exact State.ext_congr (State.scratch_cset (by simp only [Fld.key, FRR_CFG_SCRATCH, FRN_EVT2_SRAM_CORR]; omega) _) rfl _
  have hsc : (s.when x.corrected fun y => y.cbump FRN_EVT2_SRAM_CORR).scratch r = s.scratch r := by
    cases x.corrected
    · rfl
    · exact State.scratch_cset (by simp only [Fld.key, FRR_CFG_SCRATCH, FRN_EVT2_SRAM_CORR]; omega) _
  refine ⟨((s.when x.corrected fun y => y.cbump FRN_EVT2_SRAM_CORR).writeReg m (FRR_XT_SEL_EXT r).reg x.val.toNat).2, hg.trans ?_⟩
  unfold State.answered State.opXtSel State.xtOp
  simp only [hv, hex, hsc, if_neg (Nat.not_le.2 hr)]
  rfl

end xtSel

theorem extent_clauses {s : State} {m : MasterIx} {r : RgnIx} {x : XtWrite} {e : Nat} (hf : s.frozen m = false)
    (hp : s.permitted m .control (FRR_XT_SEL_EXT r).reg .write = true) (he : x.val.toNat % 2 ^ 17 = e) (hr : e < 131072 - s.scratch r) :
    (bits x.val.toNat 17 2 = 0 → ∃ u, exec (.extentSnapshot m r x) s = .next u ∧ u.ext r e = s.ext r e ∧ u.firn = s.firn ∧
      (x.corrected = true → u.cget FRN_EVT2_SRAM_CORR = min (s.cget FRN_EVT2_SRAM_CORR + 1) (2 ^ FRN_EVT2_SRAM_CORR.width - 1)) ∧
      ∀ n, n < 3 → u.cget (FRR_XT_DATA_D (3 * r.val + n)) = (s.ext r e).words.getD n 0 % 2 ^ 32) ∧
    (bits x.val.toNat 17 2 = 1 → (s.ext r e).state = 0 → ∃ u, exec (.extentRetire m r x) s = .next u ∧
      (u.ext r e).state = 3 ∧ (u.rgn r).readyExts = (s.rgn r).readyExts.filter (· ≠ e)) ∧
    (bits x.val.toNat 17 2 = 1 → (s.ext r e).state = 2 → ∃ u, exec (.extentRetire m r x) s = .next u ∧ (u.ext r e).state = 2 ∧
      (u.ext r e).retirePend = true) ∧
    (bits x.val.toNat 17 2 = 2 → (s.ext r e).state = 3 → ∃ u, exec (.extentReturn m r x) s = .next u ∧ (u.ext r e).state = 0) := by
  obtain ⟨b, hE⟩ := xtWrite_eq hf hp he hr
  have ha : ∀ z : State, (z.answer m b 0).ext r e = z.ext r e := fun _ => rfl
  have har : ∀ z : State, (z.answer m b 0).rgn r = z.rgn r := fun _ => rfl
  have hw := State.xtWritten_ext (s := s) (m := m) (r := r) (x := x) e
  have hring : e < 131072 - (s.xtWritten m r x).scratch r := by rw [State.xtWritten_scratch]; exact hr
  have hse := fun y => State.setExt_ext hring y
  refine ⟨fun ho => ⟨_, congrArg Host.Outcome.next hE, ?_, ?_, fun hc => ?_, fun n hn => ?_⟩,
    fun ho h0 => ⟨_, congrArg Host.Outcome.next hE, ?_, ?_⟩, fun ho h2 => ⟨_, congrArg Host.Outcome.next hE, ?_⟩,
    fun ho h3 => ⟨_, congrArg Host.Outcome.next hE, ?_⟩⟩ <;> rw [ho]
  · rw [ha, State.showExt_ext, State.xtOp, if_neg (by decide), if_neg (by simp), hw]
  · rw [State.answer, State.modSp_firn, State.showExt_firn, State.xtOp, if_neg (by decide), if_neg (by simp), State.xtWritten_firn]
  · rw [State.answer_cget, State.showExt_cget (by
        simp only [edgeKey, Fld.key, FRN_EVT2_SRAM_CORR, FRN_OLDEST_SLICE, FRN_EDGE_SLICE]; omega)
        (fun n hn => by simp only [Fld.key, FRN_EVT2_SRAM_CORR, FRR_XT_DATA_D]; omega), State.xtOp, if_neg (by decide), if_neg (by simp),
      State.xtWritten_cget (by simp only [Fld.key, FRN_EVT2_SRAM_CORR]; omega), hc]
    exact State.cget_cbump_sat ..
  · rw [State.answer_cget, State.showExt_data _ _ _ hn, State.xtOp, if_neg (by decide), if_neg (by simp), hw]
  · rw [ha, State.showExt_ext, State.xtOp, if_pos rfl, if_pos h0]
    exact congrArg Extent.state (hse _)
  · rw [har, State.showExt_rgn, State.xtOp, if_pos rfl, if_pos h0, State.rgn_modRgn]
    have h : ∀ y, ((s.xtWritten m r x).setExt r e y).rgn r = s.rgn r := fun _ => State.xtWritten_rgn _
    rw [h]
  · rw [ha, State.showExt_ext, State.xtOp, if_pos rfl, if_neg (by omega), if_neg (by omega), hse]
    exact ⟨h2, rfl⟩
  · rw [ha, State.showExt_ext, State.xtOp, if_neg (by decide), if_pos ⟨rfl, h3⟩, hse]

/-- Settles O31: the allocator's table, lines and their failures, and what the select register does to an extent. -/
theorem extentsFollowTheAllocatorsTable : Obligations.ExtentsFollowTheAllocatorsTable :=
  ⟨fun _ _ hr hl => allocatorInspect_clauses hr hl, fun _ _ _ hc hl he => lineWrite_clause hc hl he,
    fun _ _ _ _ h => ⟨writeAcknowledged_clause h, writeRetry_clause h, fun hw hc hx hu hr => storeWriteFailure_clause
        (hr ▸ h) hw hc hx hu⟩,
    fun _ _ _ _ hf hp hr => extent_clauses hf hp rfl hr⟩

end Sys2Proof.Machine

/-! ## Reads of the store -/

namespace Sys2Proof.Machine

set_option Elab.async false

/-! ### Addresses -/

theorem mkFirnAddr_eq (r g e l : Nat) : mkFirnAddr r g e l =
    l % 2 ^ 16 * 2 ^ 6 + (e % 2 ^ 17 * 2 ^ 22 + (r % 2 ^ 2 * 2 ^ 39 + g % 2 ^ 15 * 2 ^ 41)) := by
  simp only [mkFirnAddr, pack, Nat.add_zero]

theorem mkFirnAddr_lt (r g e l : Nat) : mkFirnAddr r g e l < 2 ^ 64 := by
  rw [mkFirnAddr_eq]
  omega

theorem firnAddr_mk {r g e l : Nat} (hr : r < 4) (hg : g < 32768) (he : e < 131072) (hl : l < 65536) :
    firnAddr (mkFirnAddr r g e l) = (r, g, e, l) := by
  rw [firnAddr, mkFirnAddr_eq]
  simp only [bits, Prod.mk.injEq]
  omega

theorem State.ext_cset {s : State} {r : Nat} {f : Fld} (h : (FRR_CFG_SCRATCH r).key ≠ f.key) (v e : Nat) :
    (s.cset f v).ext r e = s.ext r e := State.ext_congr (State.scratch_cset h v) rfl e

/-! ### The read's place in its region -/

/-- `t` is `s` with region `r`'s reads accepted. -/
structure ReadKept (r : Nat) (s t : State) : Prop where
  same : t = { s with creg := t.creg, regions := t.regions }
  regs : ∀ f : Fld, f.key / 64 ≠ 0x401030 + 4096 * r → t.cget f = s.cget f

namespace ReadKept
variable {r : Nat} {s t : State}

theorem refl (r : Nat) (s : State) : ReadKept r s s := ⟨rfl, fun _ _ => rfl⟩

theorem modRgn (h : ReadKept r s t) (g : Region → Region) : ReadKept r s (t.modRgn r g) := by
  refine ⟨?_, h.regs⟩
  have e : t.modRgn r g = { t with regions := (t.modRgn r g).regions } := rfl
  generalize (t.modRgn r g).regions = x at e
  rw [e, h.same]

theorem cset (h : ReadKept r s t) (f : Fld) (v : Nat) (hf : f.key / 64 = 0x401030 + 4096 * r) : ReadKept r s (t.cset f v) := by
  refine ⟨?_, fun g hg => ?_⟩
  · rw [h.same]
    rfl
  · rw [State.cget_cset_ne _ _ _ _ fun e => hg (by rw [e, hf]), h.regs g hg]

theorem showReads (h : ReadKept r s t) : ReadKept r s (t.showReads r) := by
  have ho := h.cset (FRR_RD_OUTST r) (t.rgn r).reads.length (by simp only [Fld.key, FRR_RD_OUTST]; omega)
  unfold State.showReads
  dsimp only
  cases decide (4096 ≤ (t.rgn r).reads.length)
  · exact ho
  · exact ho.cset (FRR_RD_FULL_SEEN r) 1 (by simp only [Fld.key, FRR_RD_FULL_SEEN]; omega)

theorem acceptReads (h : ReadKept r s t) (n : Nat) : ReadKept r s (t.acceptReads r n) := by
  induction n generalizing t with
  | zero => exact h
  | succ n ih =>
    unfold State.acceptReads
    dsimp only
    split
    · exact h
    · split
      · exact h
      · exact ih (h.modRgn _).showReads

theorem mch (h : ReadKept r s t) (c : Nat) : t.mch c = s.mch c := by rw [h.same]; rfl
theorem firn (h : ReadKept r s t) : t.firn = s.firn := by rw [h.same]
theorem ext (h : ReadKept r s t) (e : Nat) : t.ext r e = s.ext r e :=
  State.ext_congr (State.scratch_congr (h.regs _ (by simp only [Fld.key, FRR_CFG_SCRATCH]; omega))) (by rw [h.firn]) e

end ReadKept

theorem State.showReads_facts {s : State} {r : Nat} (hl : (s.rgn r).reads.length ≤ 4096) :
    (s.showReads r).rgn r = s.rgn r ∧ (s.showReads r).cget (FRR_RD_OUTST r) = (s.rgn r).reads.length := by
  have hw : (s.cset (FRR_RD_OUTST r) (s.rgn r).reads.length).cget (FRR_RD_OUTST r) = (s.rgn r).reads.length :=
    State.cget_cset_of_lt _ (show _ < 2 ^ 13 by omega)
  unfold State.showReads
  dsimp only
  cases decide (4096 ≤ (s.rgn r).reads.length)
  · exact ⟨rfl, hw⟩
  · refine ⟨rfl, (State.cget_cset_ne _ _ _ _ ?_).trans hw⟩
    simp only [Fld.key, FRR_RD_OUTST, FRR_RD_FULL_SEEN]
    omega

theorem lineRead_clauses {s : State} (w : Requester) (a : W64) (hh : s.hibernating = false) {r : Nat} (hr : bits a.toNat 39 2 = r) :
    ((s.rgn r).reads.length < 4096 → ∃ u, exec (.lineRead w a) s = .next u ∧ (u.rgn r).reads = (s.rgn r).reads ++ [(w, a.toNat)] ∧
      u.cget (FRR_RD_OUTST r) = (s.rgn r).reads.length + 1 ∧ u = { s with creg := u.creg, regions := u.regions }) ∧
    (4096 ≤ (s.rgn r).reads.length → ∃ u, exec (.lineRead w a) s = .next u ∧
      (u.rgn r).waiting = (s.rgn r).waiting ++ [(w, a.toNat)] ∧ (u.rgn r).reads = (s.rgn r).reads ∧
      u.cget (FRR_RD_WAITS r) = min (s.cget (FRR_RD_WAITS r) + 1) 65535 ∧ u.cget (FRR_RD_FULL_SEEN r) = 1) := by
  have ha : (firnAddr a.toNat).1 = r := hr
  refine ⟨fun hl => ?_, fun hl => ?_⟩
  · have he : exec (.lineRead w a) s = .next ((s.modRgn r fun y => { y with reads := y.reads ++ [(w, a.toNat)] }).showReads r) := by
      show execLineRead w a s = _
      unfold execLineRead
      simp only [ha, hh, Bool.false_eq_true, if_false, if_neg (Nat.not_le.2 hl)]
    have hm := State.rgn_modRgn s r fun y => { y with reads := y.reads ++ [(w, a.toNat)] }
    have hk := ((ReadKept.refl r s).modRgn fun y => { y with reads := y.reads ++ [(w, a.toNat)] }).showReads
    generalize (s.modRgn r fun y => { y with reads := y.reads ++ [(w, a.toNat)] }) = z at *
    have hlen : (z.rgn r).reads.length = (s.rgn r).reads.length + 1 := by rw [hm]; simp
    obtain ⟨h1, h2⟩ := State.showReads_facts (s := z) (r := r) (by omega)
    exact ⟨_, he, by rw [h1, hm], by rw [h2, hlen], hk.same⟩
  · have he : exec (.lineRead w a) s = .next (((s.modRgn r fun y => { y with waiting := y.waiting ++ [(w, a.toNat)] }).cbump
        (FRR_RD_WAITS r)).cset (FRR_RD_FULL_SEEN r) 1) := by
      show execLineRead w a s = _
      unfold execLineRead
      simp only [ha, hh, Bool.false_eq_true, if_false, if_pos hl]
    have hm := State.rgn_modRgn s r fun y => { y with waiting := y.waiting ++ [(w, a.toNat)] }
    have hc : ∀ f, (s.modRgn r fun y => { y with waiting := y.waiting ++ [(w, a.toNat)] }).cget f = s.cget f := fun _ => rfl
    generalize (s.modRgn r fun y => { y with waiting := y.waiting ++ [(w, a.toNat)] }) = z at *
    have hz : ((z.cbump (FRR_RD_WAITS r)).cset (FRR_RD_FULL_SEEN r) 1).rgn r = z.rgn r := rfl
    refine ⟨_, he, by rw [hz, hm], by rw [hz, hm], ?_, State.cget_cset_of_lt _ (by simp [FRR_RD_FULL_SEEN])⟩
    rw [State.cget_cset_ne _ _ _ _ (by simp only [Fld.key, FRR_RD_WAITS, FRR_RD_FULL_SEEN]; omega), State.cget_cbump_sat, hc]
    rfl

/-! ### What a read returns -/

/-- `t` is `s` with at most free values drawn. -/
def Drawn (s t : State) : Prop := t = { s with free := t.free }

theorem State.storedLine_drawn {s z : State} {r e l : Nat} {y : Line} (h : s.storedLine r e l = (y, z)) : Drawn s z := by
  unfold State.storedLine at h
  split at h
  · rw [← (Prod.mk.inj h).2]
    rfl
  · rw [← (Prod.mk.inj h).2]
    rfl

/-- What a bad status leaves besides its notice: the extent damaged, the error counted and its address kept. -/
def State.badLine (s : State) (r e l a : Nat) : State :=
  (((s.damage r e).cbump (FRR_UNC_CNT (stackOf r e l))).cset (FRR_BAD_ADDR r) a).cset FRN_STAT_DAMAGED_SEEN 1

theorem State.damage_creg (s : State) (r e : Nat) : (s.damage r e).creg = s.creg ∧ (s.damage r e).mv = s.mv := by
  unfold State.damage
  split <;> exact ⟨rfl, rfl⟩

theorem State.badLine_facts (s : State) {r e l a : Nat} (hr : r < 4) (ha : a < 2 ^ 64) :
    (s.badLine r e l a).cget (FRR_BAD_ADDR r) = a ∧ (s.badLine r e l a).con FRN_STAT_DAMAGED_SEEN = true ∧
    (s.badLine r e l a).cget (FRR_UNC_CNT (stackOf r e l)) = min (s.cget (FRR_UNC_CNT (stackOf r e l)) + 1) (2 ^ 32 - 1) ∧
    (e < 131072 - s.scratch r → ((s.badLine r e l a).ext r e).damaged = true) ∧ (s.badLine r e l a).mv = s.mv := by
  have hd := (s.damage_creg r e).1
  refine ⟨?_, ?_, ?_, fun he => ?_, (s.damage_creg r e).2⟩ <;> unfold State.badLine
  · rw [State.cget_cset_ne _ _ _ _ (by simp only [Fld.key, FRR_BAD_ADDR, FRN_STAT_DAMAGED_SEEN]; omega)]
    exact State.cget_cset_of_lt _ ha
  · rw [State.con_eq_true, State.cget_cset_of_lt _ (by decide)]
    decide
  · rw [State.cget_cset_ne _ _ _ _ (by simp only [Fld.key, FRR_UNC_CNT, FRN_STAT_DAMAGED_SEEN]; omega),
      State.cget_cset_ne _ _ _ _ (by simp only [Fld.key, FRR_UNC_CNT, FRR_BAD_ADDR]; omega), State.cget_cbump_sat,
      State.cget_of_creg hd]
    rfl
  · obtain ⟨-, -, hx⟩ := State.damage_facts he
    rw [State.ext_cset (by simp only [Fld.key, FRR_CFG_SCRATCH, FRN_STAT_DAMAGED_SEEN]; omega),
      State.ext_cset (by simp only [Fld.key, FRR_CFG_SCRATCH, FRR_BAD_ADDR]; omega), State.cbump, State.cadd,
      State.ext_cset (by simp only [Fld.key, FRR_CFG_SCRATCH, FRR_UNC_CNT]; omega), hx]

theorem State.noteStatus_plain {s : State} {a r g e l : Nat} (ha : firnAddr a = (r, g, e, l)) {st : Nat} (h : st ≠ 1 ∧ st ≠ 3 ∧ st ≠ 4) :
    s.noteStatus a st = s := by
  unfold State.noteStatus
  simp only [ha, if_neg h.1, if_neg (show ¬ (st = 3 ∨ st = 4) by omega)]

theorem State.noteStatus_corrected {s : State} {a r g e l : Nat} (ha : firnAddr a = (r, g, e, l)) :
    s.noteStatus a 1 = s.cbump (FRR_CORR_CNT (stackOf r e l)) := by
  unfold State.noteStatus
  simp only [ha, if_true]

theorem State.noteStatus_bad {s : State} {a r g e l : Nat} (ha : firnAddr a = (r, g, e, l)) {st : Nat} (h : st = 3 ∨ st = 4) :
    ∃ z, z.creg = (s.badLine r e l a).creg ∧ z.firn = (s.badLine r e l a).firn ∧ z.mv = (s.badLine r e l a).mv ∧
      Queued z (s.noteStatus a st) := by
  unfold State.noteStatus
  simp only [ha, if_neg (show ¬ st = 1 by omega), if_pos h]
  generalize hb : s.badLine r e l a = b
  have hb' : (((s.damage r e).cbump (FRR_UNC_CNT (stackOf r e l))).cset (FRR_BAD_ADDR r) a).cset FRN_STAT_DAMAGED_SEEN 1 = b := hb
  simp only [hb']
  split
  · split
    · exact ⟨b.modRgn r _, rfl, rfl, rfl, State.monNotice_queued _ _⟩
    · exact ⟨b, rfl, rfl, rfl, .refl b⟩
  · rw [if_pos rfl]
    exact ⟨b.modRgn r _, rfl, rfl, rfl, State.monNotice_queued _ _⟩

section lineReturn
variable {s z : State} {r : RgnIx} {c : MvIx} {g e l a st : Nat} {raw : RawLine} {rest : List (Requester × Nat)} {d : List Byte}

/-- The state a status is noted in: the read has left its region. -/
def State.readGone (z : State) (r : Nat) (rest : List (Requester × Nat)) : State :=
  (z.modRgn r fun y => { y with reads := rest }).cset (FRR_RD_OUTST r) rest.length

theorem State.readGone_kept (hz : Drawn s z) (r : Nat) (rest : List (Requester × Nat)) :
    ∃ y, (y.creg = s.creg ∧ y.firn = s.firn ∧ y.mv = s.mv) ∧ ReadKept r y (z.readGone r rest) := by
  refine ⟨z, ?_, ((ReadKept.refl r z).modRgn _).cset _ _ (by simp only [Fld.key, FRR_RD_OUTST]; omega)⟩
  rw [hz]
  exact ⟨rfl, rfl, rfl⟩

variable (hh : s.hibernating = false) (hr : (s.rgn r).reads = (.mover c, a) :: rest) (hl : s.lineStatus a raw = (st, d, z))
include hh hr hl

theorem exec_lineReadReturn : exec (.lineReadReturn r raw) s = .next ((((z.readGone r rest).noteStatus a st).modMch c fun m =>
    { m with got := m.got ++ [(a, st, d)] }).acceptReads r 1) := by
  show execLineReadReturn r raw s = _
  unfold execLineReadReturn
  simp only [hr, hh, Bool.false_eq_true, if_false, hl, State.deliver]
  rfl

variable (hz : Drawn s z) (ha : firnAddr a = (r.val, g, e, l))
include hz ha

/-- What a read hands over and leaves by its status. -/
theorem lineReadReturn_facts (ha64 : a < 2 ^ 64) : ∃ u, exec (.lineReadReturn r raw) s = .next u ∧ (u.mch c).got =
    (s.mch c).got ++ [(a, st, d)] ∧
    (st ≠ 3 ∧ st ≠ 4 → u.firn = s.firn) ∧
    (st = 1 → u.cget (FRR_CORR_CNT (stackOf r e l)) = min (s.cget (FRR_CORR_CNT (stackOf r e l)) + 1) (2 ^ 32 - 1)) ∧
    (st = 3 → u.cget (FRR_BAD_ADDR r) = a ∧ u.con FRN_STAT_DAMAGED_SEEN = true ∧
      u.cget (FRR_UNC_CNT (stackOf r e l)) = min (s.cget (FRR_UNC_CNT (stackOf r e l)) + 1) (2 ^ 32 - 1) ∧
      (e < 131072 - s.scratch r → (u.ext r e).damaged = true)) := by
  have hE := exec_lineReadReturn hh hr hl
  obtain ⟨y, ⟨hyc, hyf, hym⟩, hk⟩ := State.readGone_kept hz r rest
  generalize z.readGone r rest = x at *
  have hdel : ∀ (x : State), ((x.modMch c fun m => { m with got := m.got ++ [(a, st, d)] }).acceptReads r 1).mch c =
      { x.mch c with got := (x.mch c).got ++ [(a, st, d)] } := fun x => by
    rw [((ReadKept.refl r _).acceptReads 1).mch]
    exact tget_tset_same ..
  have hfirn : ∀ x : State, ((x.modMch c fun m => { m with got := m.got ++ [(a, st, d)] }).acceptReads r 1).firn = x.firn := fun x =>
    ((ReadKept.refl r _).acceptReads 1).firn
  have hget : ∀ (x : State) (f : Fld), f.key / 64 ≠ 0x401030 + 4096 * r.val →
      ((x.modMch c fun m => { m with got := m.got ++ [(a, st, d)] }).acceptReads r 1).cget f = x.cget f := fun x f hf =>
    ((ReadKept.refl r _).acceptReads 1).regs f hf
  have hxm : x.mv = s.mv := by rw [hk.same]; exact hym
  have hxf : x.firn = s.firn := hk.firn.trans hyf
  have hxc : ∀ f : Fld, f.key / 64 ≠ 0x401030 + 4096 * r.val → x.cget f = s.cget f := fun f hf =>
    (hk.regs f hf).trans (State.cget_of_creg hyc f)
  by_cases h34 : st = 3 ∨ st = 4
  · obtain ⟨b, hbc, hbf, hbm, hq⟩ := x.noteStatus_bad ha h34
    obtain ⟨h1, h2, h3, h4, h5⟩ := x.badLine_facts (e := e) (l := l) r.isLt ha64
    have hm : (x.noteStatus a st).mv = s.mv := by rw [hq.same]; exact hbm.trans (h5.trans hxm)
    have hf : (x.noteStatus a st).firn = (x.badLine r e l a).firn := by rw [hq.same]; exact hbf
    have hc : ∀ f : Fld, ¬ queueKey f.key → f.key / 64 ≠ 0x401030 + 4096 * r.val →
        (((x.noteStatus a st).modMch c fun m => { m with got := m.got ++ [(a, st, d)] }).acceptReads r 1).cget f =
          (x.badLine r e l a).cget f := fun f hnq hf =>
      (hget _ f hf).trans ((hq.regs f hnq).trans (State.cget_of_creg hbc f))
    refine ⟨_, hE, ?_, fun h => absurd h34 (by omega), fun h => absurd h34 (by omega), fun _ => ⟨?_, ?_, ?_, fun he => ?_⟩⟩
    · rw [hdel, State.mch, hm, State.mch]
    · rw [hc _ (by simp only [queueKey, Fld.key, FRR_BAD_ADDR]; omega) (by simp only [Fld.key, FRR_BAD_ADDR]; omega), h1]
    · rw [State.con_eq_true, hc _ (by simp only [queueKey, Fld.key, FRN_STAT_DAMAGED_SEEN]; omega)
        (by simp only [Fld.key, FRN_STAT_DAMAGED_SEEN]; omega)]
      exact State.con_eq_true.1 h2
    · rw [hc _ (by simp only [queueKey, Fld.key, FRR_UNC_CNT]; omega) (by simp only [Fld.key, FRR_UNC_CNT]; omega), h3,
        hxc _ (by simp only [Fld.key, FRR_UNC_CNT]; omega)]
    · have hs : x.scratch r = s.scratch r := State.scratch_congr (hxc _ (by simp only [Fld.key, FRR_CFG_SCRATCH]; omega))
      refine (congrArg Extent.damaged (State.ext_congr (State.scratch_congr (hc _ ?_ ?_)) (by rw [hfirn, hf]) e)).trans (h4 (hs ▸ he))
      · have := r.isLt
        simp only [queueKey, Fld.key, FRR_CFG_SCRATCH]
        omega
      · simp only [Fld.key, FRR_CFG_SCRATCH]
        omega
  · by_cases h1 : st = 1
    · rw [h1] at hdel hfirn hget hE ⊢
      rw [State.noteStatus_corrected ha] at hE
      refine ⟨_, hE, ?_, fun _ => (hfirn _).trans hxf, fun _ => ?_, nofun⟩
      · rw [hdel, State.mch, State.cbump_mv, hxm, State.mch]
      · rw [hget _ _ (by simp only [Fld.key, FRR_CORR_CNT]; omega), State.cget_cbump_sat,
          hxc _ (by simp only [Fld.key, FRR_CORR_CNT]; omega)]
        rfl
    · rw [State.noteStatus_plain ha ⟨h1, fun e => h34 (.inl e), fun e => h34 (.inr e)⟩] at hE
      exact ⟨_, hE, by rw [hdel, State.mch, hxm, State.mch], fun _ => (hfirn _).trans hxf, fun h => absurd h h1, fun h => absurd
          (.inl h) h34⟩

end lineReturn

section lineStatus
variable {s : State} {r g e l a : Nat} {raw : RawLine} (ha : firnAddr a = (r, g, e, l))
include ha

theorem lineStatus_dead (h : (s.ext r e).gen ≠ g ∨ (s.ext r e).state = 0 ∨ (s.ext r e).state = 3) :
    s.lineStatus a raw = (5, List.replicate 64 0, s) := by
  unfold State.lineStatus
  simp only [ha, if_pos h]

variable (hd : ¬ ((s.ext r e).gen ≠ g ∨ (s.ext r e).state = 0 ∨ (s.ext r e).state = 3))
include hd

theorem lineStatus_beyond (h : (s.ext r e).hwm ≤ l) : s.lineStatus a raw = (2, List.replicate 64 0, s) := by
  unfold State.lineStatus
  simp only [ha, if_neg hd, if_pos h]

variable (hw : l < (s.ext r e).hwm)
include hw

theorem lineStatus_buffered {w : WLine} (h : s.bufferedLine r e l = some w) (hg : w.gen = g) :
    s.lineStatus a raw = (0, w.data, s) := by
  unfold State.lineStatus
  simp only [ha, if_neg hd, if_neg (Nat.not_le.2 hw), h, if_pos hg]

theorem lineStatus_stored (h : s.bufferedLine r e l = none) {y : Line} {z : State} (hy : s.storedLine r e l = (y, z)) :
    s.lineStatus a raw = if (y.read raw).1 = .uncorrectable then (3, List.replicate 64 0, z)
      else if (y.read raw).2.2.1 = false ∨ (y.read raw).2.2.2 ≠ g then (4, List.replicate 64 0, z)
      else (if (y.read raw).1 = .corrected then 1 else 0, (y.read raw).2.1, z) := by
  unfold State.lineStatus
  simp only [ha, if_neg hd, if_neg (Nat.not_le.2 hw), h, hy, Bool.not_eq_true']

end lineStatus

theorem lineReadReturn_clauses {s : State} {r : RgnIx} {c : MvIx} {g e l : Nat} {raw : RawLine} {rest : List (Requester × Nat)}
    (hh : s.hibernating = false) (hg : g < 32768) (he : e < 131072) (hl : l < 65536) :
    let a := mkFirnAddr r g e l
    (s.rgn r).reads = (.mover c, a) :: rest →
    let x := s.ext r e
    let dead := x.gen ≠ g ∨ x.state = 0 ∨ x.state = 3
    let zeros := List.replicate 64 (0 : Byte)
    let got := (s.mch c).got
    (dead → ∃ u, exec (.lineReadReturn r raw) s = .next u ∧ (u.mch c).got = got ++ [(a, 5, zeros)]) ∧
    (¬ dead → x.hwm ≤ l → ∃ u, exec (.lineReadReturn r raw) s = .next u ∧ (u.mch c).got = got ++ [(a, 2, zeros)]) ∧
    (¬ dead → l < x.hwm → ∀ w, s.bufferedLine r e l = some w → w.gen = g →
      ∃ u, exec (.lineReadReturn r raw) s = .next u ∧ (u.mch c).got = got ++ [(a, 0, w.data)] ∧ u.firn = s.firn) ∧
    (¬ dead → l < x.hwm → s.bufferedLine r e l = none → ∀ y z, s.storedLine r e l = (y, z) →
      ((y.read raw).1 = .uncorrectable → ∃ u, exec (.lineReadReturn r raw) s = .next u ∧ (u.mch c).got = got ++ [(a, 3, zeros)] ∧
        u.cget (FRR_BAD_ADDR r) = a ∧ u.con FRN_STAT_DAMAGED_SEEN = true ∧
        u.cget (FRR_UNC_CNT (stackOf r e l)) = min (s.cget (FRR_UNC_CNT (stackOf r e l)) + 1) (2 ^ 32 - 1) ∧
        (e < 131072 - s.scratch r → (u.ext r e).damaged = true)) ∧
      ((y.read raw).1 ≠ .uncorrectable → (y.read raw).2.2.1 = false ∨ (y.read raw).2.2.2 ≠ g →
        ∃ u, exec (.lineReadReturn r raw) s = .next u ∧ (u.mch c).got = got ++ [(a, 4, zeros)]) ∧
      (∀ d, y.read raw = (.ok, d, true, g) →
        ∃ u, exec (.lineReadReturn r raw) s = .next u ∧ (u.mch c).got = got ++ [(a, 0, d)] ∧ u.firn = s.firn) ∧
      (∀ d, y.read raw = (.corrected, d, true, g) →
        ∃ u, exec (.lineReadReturn r raw) s = .next u ∧ (u.mch c).got = got ++ [(a, 1, d)] ∧
          u.cget (FRR_CORR_CNT (stackOf r e l)) = min (s.cget (FRR_CORR_CNT (stackOf r e l)) + 1) (2 ^ 32 - 1))) := by
  intro a hr x dead zeros got
  have ha : firnAddr a = (r.val, g, e, l) := firnAddr_mk r.isLt hg he hl
  have ha64 : a < 2 ^ 64 := mkFirnAddr_lt ..
  have hf := fun (st : Nat) (d : List Byte) (z : State) (hls : s.lineStatus a raw = (st, d, z)) (hz : Drawn s z) =>
    lineReadReturn_facts hh hr hls hz ha ha64
  refine ⟨fun hd => ?_, fun hd hw => ?_, fun hd hw w hb hwg => ?_, fun hd hw hb y z hy => ?_⟩
  · obtain ⟨u, h1, h2, -⟩ := hf 5 _ _ (lineStatus_dead ha hd) rfl
    exact ⟨u, h1, h2⟩
  · obtain ⟨u, h1, h2, -⟩ := hf 2 _ _ (lineStatus_beyond ha hd hw) rfl
    exact ⟨u, h1, h2⟩
  · obtain ⟨u, h1, h2, h3, -⟩ := hf 0 _ _ (lineStatus_buffered ha hd hw hb hwg) rfl
    exact ⟨u, h1, h2, h3 (by decide)⟩
  · have hs := lineStatus_stored (raw := raw) ha hd hw hb hy
    have hz := State.storedLine_drawn hy
    refine ⟨fun hu => ?_, fun hu hv => ?_, fun d hread => ?_, fun d hread => ?_⟩
    · rw [if_pos hu] at hs
      obtain ⟨u, h1, h2, -, -, h3⟩ := hf _ _ _ hs hz
      exact ⟨u, h1, h2, h3 rfl⟩
    · rw [if_neg hu, if_pos hv] at hs
      obtain ⟨u, h1, h2, -⟩ := hf _ _ _ hs hz
      exact ⟨u, h1, h2⟩
    · have hs' : s.lineStatus a raw = (0, d, z) := by
        rw [hs, hread]
        simp
      obtain ⟨u, h1, h2, h3, -⟩ := hf _ _ _ hs' hz
      exact ⟨u, h1, h2, h3 (by decide)⟩
    · have hs' : s.lineStatus a raw = (1, d, z) := by
        rw [hs, hread]
        simp
      obtain ⟨u, h1, h2, -, h3, -⟩ := hf _ _ _ hs' hz
      exact ⟨u, h1, h2, h3 rfl⟩

/-! ### The scrubber and a pin -/

theorem firnScrubStep_clause {s : State} {r : RgnIx} {raw : RawLine} {b : Bool} (hp : (s.rgn r).scrubPos + 1 < 2 ^ 33)
    (h0 : (s.ext r ((s.rgn r).scrubPos / 65536)).state = 0) : ∃ u, exec (.firnScrubStep r raw b) s = .next u ∧
      (u.rgn r).scrubPos = (s.rgn r).scrubPos + 1 ∧ u.firn = s.firn ∧ RegsSame s u [FRR_SCRUB_STAT_PROGRESS r] := by
  have he : exec (.firnScrubStep r raw b) s = .next ((s.modRgn r fun y => { y with scrubPos := (s.rgn r).scrubPos + 1 }).cset
      (FRR_SCRUB_STAT_PROGRESS r) (((s.rgn r).scrubPos + 1) * 128 / 2 ^ 33)) := by
    show execFirnScrubStep r raw b s = _
    unfold execFirnScrubStep State.scrubNext
    simp only [h0, Nat.mod_eq_of_lt hp, if_neg (show ¬ (s.rgn r).scrubPos + 1 = 0 by omega)]
    rfl
  have hm := State.rgn_modRgn s r fun y => { y with scrubPos := (s.rgn r).scrubPos + 1 }
  have hc : (s.modRgn r fun y => { y with scrubPos := (s.rgn r).scrubPos + 1 }).creg = s.creg := rfl
  have hfm : (s.modRgn r fun y => { y with scrubPos := (s.rgn r).scrubPos + 1 }).firn = s.firn := rfl
  generalize (s.modRgn r fun y => { y with scrubPos := (s.rgn r).scrubPos + 1 }) = z at *
  exact ⟨_, he, congrArg Region.scrubPos hm, hfm, (RegsSame.of_creg hc _).cset _ _⟩

/-- Calving touches no pin. -/
theorem State.calveReleased_pins (s : State) (old : Nat) : (s.calveReleased old).firn.pins = s.firn.pins := by
  have hk : ∀ (z : State) (k : Nat), (z.freeSlice k).firn.pins = z.firn.pins := fun z k => by
    unfold State.freeSlice
    exact List.foldlRecOn (motive := fun y : State => y.firn.pins = z.firn.pins) _ _ rfl fun y hy q _ => hy
  unfold State.calveReleased
  dsimp only
  split
  · rw [State.refreshEdges_firn]
  · rw [State.calveSlices, State.refreshEdges_firn]
    exact List.foldlRecOn (motive := fun y : State => y.firn.pins = s.firn.pins) _ _ rfl fun y hy q _ => (hk y q).trans hy

theorem pinClear_clauses {s : State} {k : CoreIx} (hc : s.core k = none) :
    ((s.pin k).active = true → ∃ u, exec (.pinClear k) s = .next u ∧ (u.pin k).active = false ∧ (u.pin k).trunc = (s.pin k).trunc) ∧
    ((s.pin k).active = false → exec (.pinClear k) s = .next s) := by
  have he : exec (.pinClear k) s = .next (s.clearPin k) := by
    show execPinClear k s = _
    unfold execPinClear
    simp only [hc]
  refine ⟨fun ha => ⟨_, he, ?_⟩, fun ha => ?_⟩
  · have hp : ((s.clearPin k).pin k) = { s.pin k with active := false } := by
      rw [State.clearPin, if_neg (by simp [ha]), State.pin, State.calveReleased_pins]
      exact tget_tset_same ..
    rw [hp]
    exact ⟨rfl, rfl⟩
  · rw [he, State.clearPin, if_pos (by simp [ha])]

/-- Settles O32: reads wait or are accepted, and return the first status that applies; the scrubber's position and a cleared pin. -/
theorem lineReadsReturnTheFirstStatusThatApplies : Obligations.LineReadsReturnTheFirstStatusThatApplies :=
  ⟨fun _ w a hh => lineRead_clauses w a hh rfl, fun _ _ _ _ _ _ _ _ hh hg he hl => lineReadReturn_clauses hh hg he hl,
    fun _ _ _ _ hp h0 => firnScrubStep_clause hp h0, fun _ _ hc => (pinClear_clauses hc).1, fun _ _ hc => (pinClear_clauses hc).2⟩

end Sys2Proof.Machine

/-! ## Arming and disarming the trigger unit -/

namespace Sys2Proof.Machine

set_option Elab.async false

/-! ### The write of the control register -/

/-- The fields of the trigger's control register. -/
def trgCtrlFields : List Fld := [TRG_CTRL_MODE, TRG_CTRL_ARM, TRG_CTRL_SEQ_EN, TRG_CTRL_REQ_EN, TRG_CTRL_PRIM_BLK, TRG_CTRL_PRIM_GRPS]

theorem findReg_trgCtrl : findReg regClasses 4 TRG_CTRL_MODE.reg = some (trgCtrlFields, false) := by decide +kernel

/-- A plain register with distinct fields: a field that is read and written takes its bits of the word. -/
theorem State.cget_writeReg_rw {s : State} {a : Nat} {fs : List Fld} (hr : findReg regClasses 4 a = some (fs, false))
    (hp : (fs.any fun f => decide (f.acc = .guarded) && f.inWord false) = false) (hk : fs.Pairwise fun f g => f.key ≠ g.key) (m v : Nat)
    {g : Fld} (hg : g ∈ fs) (hf : g.acc = .rw) (h0 : 0 < g.width) (h : g.lo + g.width ≤ 32) :
    (s.writeReg m a v).1.cget g = bits v g.lo g.width := by
  rw [State.writeReg_of_plain hr hp, State.foldl_cset_cget_mem _ hk s hg, Fld.written_rw hf h0 h (s.cget_lt g),
    Nat.mod_eq_of_lt (bits_lt _ _ _)]

/-- A write of the control register, accepted or refused. -/
def State.ctrlWritten (s : State) (m : Nat) (v : Nat) : State :=
  if v % 4 = 3 ∨ (v % 4 ≠ s.cget TRG_CTRL_MODE ∧ s.con TRG_CTRL_ARM = true) then
    (((s.writeReg m TRG_CTRL_MODE.reg v).1.cset TRG_CTRL_MODE (s.cget TRG_CTRL_MODE)).cset TRG_STAT_CFG_ERR 1).cset TRG_STAT_PWR_HELD 0
  else (s.writeReg m TRG_CTRL_MODE.reg v).1.cset TRG_STAT_PWR_HELD 0

section ctrl
variable {s : State} {m v : Nat}

theorem State.ctrlWritten_same (s : State) (m v : Nat) : CregOnly s (s.ctrlWritten m v) := by
  have hw : CregOnly s (s.writeReg m TRG_CTRL_MODE.reg v).1 := s.writeReg_same m _ v
  unfold State.ctrlWritten
  split
  · exact ((hw.cset _ _).cset _ _).cset _ _
  · exact hw.cset _ _

/-- Status bits 0 and 1 are no bits of the control register. -/
theorem writeReg_trgStat {f : Fld} (h : f.key = TRG_STAT_ARMED.key ∨ f.key = TRG_STAT_CFG_ERR.key) :
    (s.writeReg m TRG_CTRL_MODE.reg v).1.cget f = s.cget f :=
  State.writeReg_cget_ne findReg_trgCtrl (by decide) m v fun g hg e => by
    rw [e] at h
    clear e
    revert h
    revert g
    decide

theorem State.ctrlWritten_armed : (s.ctrlWritten m v).con TRG_STAT_ARMED = s.con TRG_STAT_ARMED := by
  have hw : (s.writeReg m TRG_CTRL_MODE.reg v).1.con TRG_STAT_ARMED = s.con TRG_STAT_ARMED := by
    rw [State.con, writeReg_trgStat (.inl rfl), State.con]
  unfold State.ctrlWritten
  split
  · rw [State.con_cset_ne _ _ _ _ (by decide), State.con_cset_ne _ _ _ _ (by decide), State.con_cset_ne _ _ _ _ (by decide), hw]
  · rw [State.con_cset_ne _ _ _ _ (by decide), hw]

theorem State.ctrlWritten_accepted (h : ¬ (v % 4 = 3 ∨ (v % 4 ≠ s.cget TRG_CTRL_MODE ∧ s.con TRG_CTRL_ARM = true))) :
    (s.ctrlWritten m v).cget TRG_CTRL_MODE = v % 4 ∧ (s.ctrlWritten m v).con TRG_CTRL_ARM = bitAt v 2 ∧
    (s.ctrlWritten m v).cget TRG_STAT_CFG_ERR = s.cget TRG_STAT_CFG_ERR := by
  unfold State.ctrlWritten
  rw [if_neg h]
  refine ⟨?_, ?_, ?_⟩
  · rw [State.cget_cset_ne _ _ _ _ (by decide), State.cget_writeReg_rw findReg_trgCtrl (by decide) (by decide) m v
      (by simp [trgCtrlFields]) rfl (by decide) (by decide)]
    simp [bits, TRG_CTRL_MODE]
  · rw [State.con_cset_ne _ _ _ _ (by decide), State.con, State.cget_writeReg_rw findReg_trgCtrl (by decide) (by decide) m v
      (by simp [trgCtrlFields]) rfl (by decide) (by decide)]
    exact bits_one v 2
  · rw [State.cget_cset_ne _ _ _ _ (by decide), writeReg_trgStat (.inr rfl)]

theorem State.ctrlWritten_refused (h : v % 4 = 3 ∨ (v % 4 ≠ s.cget TRG_CTRL_MODE ∧ s.con TRG_CTRL_ARM = true)) :
    (s.ctrlWritten m v).cget TRG_CTRL_MODE = s.cget TRG_CTRL_MODE ∧ (s.ctrlWritten m v).cget TRG_STAT_CFG_ERR = 1 := by
  unfold State.ctrlWritten
  rw [if_pos h]
  refine ⟨?_, ?_⟩
  · rw [State.cget_cset_ne _ _ _ _ (by decide), State.cget_cset_ne _ _ _ _ (by decide)]
    exact State.cget_cset_of_lt _ (s.cget_lt _)
  · rw [State.cget_cset_ne _ _ _ _ (by decide)]
    exact State.cget_cset_of_lt _ (by decide)

/-- What a write of the control register leaves: the register, the sequencer idle where it is switched off, and what it asks. -/
theorem State.opTrgCtrl_facts (s : State) (m v : Nat) :
    (∀ f : Fld, f.key ≠ TRG_STAT_SEQ_STATE.key → (s.opTrgCtrl m v).1.cget f = (s.ctrlWritten m v).cget f) ∧
    (s.opTrgCtrl m v).1.trg.armAsk = (bitAt v 2 && !(s.con TRG_STAT_ARMED) && !s.twinStandby) ∧
    (s.opTrgCtrl m v).1.trg.disarmAsk = (!(bitAt v 2) && s.con TRG_STAT_ARMED) ∧ (s.opTrgCtrl m v).1.trg.askTick = s.tm.tick ∧
    (s.opTrgCtrl m v).1 = { s with creg := (s.opTrgCtrl m v).1.creg, trg := (s.opTrgCtrl m v).1.trg } := by
  have hm : bits v 0 2 = v % 4 := by simp [bits]
  have hz : (if (decide (v % 4 = 3) || (decide (v % 4 ≠ s.cget TRG_CTRL_MODE) && s.con TRG_CTRL_ARM)) = true then
      ((s.writeReg m TRG_CTRL_MODE.reg v).1.cset TRG_CTRL_MODE (s.cget TRG_CTRL_MODE)).cset TRG_STAT_CFG_ERR 1
      else (s.writeReg m TRG_CTRL_MODE.reg v).1).cset TRG_STAT_PWR_HELD 0 = s.ctrlWritten m v := by
    unfold State.ctrlWritten
    simp only [Bool.or_eq_true, Bool.and_eq_true, decide_eq_true_eq]
    split <;> rfl
  have hsame := s.ctrlWritten_same m v
  unfold State.opTrgCtrl
  simp only [hm, hz]
  generalize s.ctrlWritten m v = z at *
  cases bitAt v 3 <;> refine ⟨fun f hf => ?_, rfl, rfl, rfl, ?_⟩
  · exact State.cget_cset_ne z TRG_STAT_SEQ_STATE f 0 hf
  · rw [hsame]
    rfl
  · rfl
  · rw [hsame]
    rfl

end ctrl

theorem triggerWrite_clauses {s : State} {m : MasterIx} {v : W32} (hf : s.frozen m = false)
    (hp : s.permitted m .control TRG_CTRL_MODE.reg .write = true) :
    let mode := v.toNat % 4
    (mode ≠ 3 → mode = s.cget TRG_CTRL_MODE ∨ s.con TRG_CTRL_ARM = false → bitAt v.toNat 2 = true → s.con TRG_STAT_ARMED = false →
      s.twinStandby = false → ∃ u, exec (.triggerArmWrite m v) s = .next u ∧ u.con TRG_CTRL_ARM = true ∧ u.cget TRG_CTRL_MODE = mode ∧
        u.trg.armAsk = true ∧ u.trg.askTick = s.tm.tick ∧ u.con TRG_STAT_ARMED = false ∧
        u.cget TRG_STAT_CFG_ERR = s.cget TRG_STAT_CFG_ERR ∧ u = { s with creg := u.creg, trg := u.trg, sp := u.sp }) ∧
    (mode = 3 ∨ (mode ≠ s.cget TRG_CTRL_MODE ∧ s.con TRG_CTRL_ARM = true) → ∃ u, exec (.triggerArmWrite m v) s = .next u ∧
      u.cget TRG_CTRL_MODE = s.cget TRG_CTRL_MODE ∧ u.cget TRG_STAT_CFG_ERR = 1) ∧
    (mode = s.cget TRG_CTRL_MODE → mode ≠ 3 → bitAt v.toNat 2 = false → s.con TRG_STAT_ARMED = true →
      ∃ u, exec (.triggerDisarmWrite m v) s = .next u ∧ u.con TRG_CTRL_ARM = false ∧ u.trg.disarmAsk = true ∧
        u.con TRG_STAT_ARMED = true ∧ u.cget TRG_STAT_CFG_ERR = s.cget TRG_STAT_CFG_ERR) := by
  intro mode
  have hg := State.guarded_of_permitted hf hp fun z => State.answered (z.opTrgCtrl m.val v.toNat) m.val
  have ha : exec (.triggerArmWrite m v) s = .next (State.answered (s.opTrgCtrl m v.toNat) m) := congrArg Host.Outcome.next hg
  have hd : exec (.triggerDisarmWrite m v) s = .next (State.answered (s.opTrgCtrl m v.toNat) m) := congrArg Host.Outcome.next hg
  obtain ⟨hreg, harm, hdis, htick, hsame⟩ := s.opTrgCtrl_facts m v.toNat
  have hkept := State.ctrlWritten_armed (s := s) (m := m) (v := v.toNat)
  have hacc := State.ctrlWritten_accepted (s := s) (m := m) (v := v.toNat)
  have href := State.ctrlWritten_refused (s := s) (m := m) (v := v.toNat)
  have hon : ∀ f : Fld, f.key ≠ TRG_STAT_SEQ_STATE.key → (s.opTrgCtrl m v.toNat).1.con f =
      (s.ctrlWritten m v.toNat).con f := fun f hf => by
    rw [State.con, hreg f hf, State.con]
  rw [State.answered] at ha hd
  generalize (s.opTrgCtrl m v.toNat).2 = b at *
  generalize (s.opTrgCtrl m v.toNat).1 = z at *
  refine ⟨fun h3 hm hb hna hst => ⟨_, ha, ?_⟩, fun h => ⟨_, ha, ?_⟩, fun hm h3 hb hna => ⟨_, hd, ?_⟩⟩
  · have hok : ¬ (v.toNat % 4 = 3 ∨ (v.toNat % 4 ≠ s.cget TRG_CTRL_MODE ∧ s.con TRG_CTRL_ARM = true)) := by
      rintro (h | ⟨h, h'⟩)
      · exact h3 h
      · rcases hm with hm | hm
        · exact h hm
        · rw [hm] at h'
          cases h'
    obtain ⟨h1, h2, h4⟩ := hacc hok
    refine ⟨(hon _ (by decide)).trans (h2.trans hb), (hreg _ (by decide)).trans h1, ?_, htick, (hon _ (by decide)).trans
        (hkept.trans hna),
      (hreg _ (by decide)).trans h4, ?_⟩
    · exact harm.trans (by rw [hb, hna, hst]; rfl)
    · rw [hsame]
      rfl
  · obtain ⟨h1, h2⟩ := href h
    exact ⟨(hreg _ (by decide)).trans h1, (hreg _ (by decide)).trans h2⟩
  · obtain ⟨-, h2, h4⟩ := hacc (by rintro (h | ⟨h, -⟩); exacts [h3 h, h hm])
    exact ⟨(hon _ (by decide)).trans (h2.trans hb), hdis.trans (by rw [hb, hna]; rfl), (hon _ (by decide)).trans (hkept.trans hna),
      (hreg _ (by decide)).trans h4⟩

/-! ### The tick at which it takes effect -/

/-- The registers of an armed unit. -/
def State.armShown (s : State) : State :=
  (List.range 16).foldl (fun z n => z.cset (TRG_NU_VAL_HIGH n) 0) ((((s.cset TRG_STAT_ARMED 1).cset TRG_ARM_F_F s.frame).cset
    TRG_STAT_SEQ_STATE 0).cset TRG_STREAM_POS_SLICE (sliceOf s.frame))

theorem State.armShown_cget {s : State} {f : Fld} (h : ∀ i < 16, f.key ≠ (TRG_NU_VAL_HIGH i).key) :
    s.armShown.cget f = ((((s.cset TRG_STAT_ARMED 1).cset TRG_ARM_F_F s.frame).cset TRG_STAT_SEQ_STATE 0).cset TRG_STREAM_POS_SLICE
      (sliceOf s.frame)).cget f := State.foldl_cset_range_ne TRG_NU_VAL_HIGH (fun _ => 0) 16 _ h

theorem State.armShown_facts (s : State) : s.armShown.con TRG_STAT_ARMED = true ∧ s.armShown.cget TRG_ARM_F_F = s.frame % 2 ^ 64 ∧
    s.armShown.cget TRG_STAT_SEQ_STATE = 0 ∧ (∀ n, n < 16 → s.armShown.con (TRG_NU_VAL_HIGH n) = false) ∧ CregOnly s s.armShown := by
  refine ⟨State.con_eq_true.2 ?_, ?_, ?_, fun n hn => State.con_eq_false.2 ?_, ?_⟩
  · rw [State.armShown_cget fun i _ => by simp only [Fld.key, TRG_STAT_ARMED, TRG_NU_VAL_HIGH]; omega,
      State.cget_cset_ne _ _ _ _ (by decide), State.cget_cset_ne _ _ _ _ (by decide), State.cget_cset_ne _ _ _ _ (by decide),
      State.cget_cset_of_lt _ (by decide)]
    decide
  · rw [State.armShown_cget fun i _ => by simp only [Fld.key, TRG_ARM_F_F, TRG_NU_VAL_HIGH]; omega,
      State.cget_cset_ne _ _ _ _ (by decide), State.cget_cset_ne _ _ _ _ (by decide), State.cget_cset_same]
    rfl
  · rw [State.armShown_cget fun i _ => by simp only [Fld.key, TRG_STAT_SEQ_STATE, TRG_NU_VAL_HIGH]; omega,
      State.cget_cset_ne _ _ _ _ (by decide), State.cget_cset_of_lt _ (by decide)]
  · rw [State.armShown, State.foldl_cset_range_mem TRG_NU_VAL_HIGH (fun _ => 0) (fun i j h => by
      simp only [Fld.key, TRG_NU_VAL_HIGH] at h
      omega) _ hn]
    rfl
  · exact (((((CregOnly.refl s).cset _ _).cset _ _).cset _ _).cset _ _).foldl _ _ fun _ _ h => h.cset _ _

theorem triggerArm_clause {s : State} (ha : s.trg.armAsk = true) (ht : s.trg.askTick < s.tm.tick) :
    ∃ u, exec .triggerArm s = .next u ∧ u.con TRG_STAT_ARMED = true ∧
    u.cget TRG_ARM_F_F = s.frame % 2 ^ 64 ∧ u.cget TRG_STAT_SEQ_STATE = 0 ∧ (∀ n, n < 16 → u.con (TRG_NU_VAL_HIGH n) = false) ∧
    u.trg.nus = [] ∧ u.trg.rearm = [] ∧ u.trg.cores = s.trg.cores ∧ u.trg.armAsk = false ∧
    u = { s with creg := u.creg, trg := u.trg } := by
  have he : exec .triggerArm s = .next s.armUnit := by
    show Host.Outcome.next (if s.trg.armAsk && decide (s.trg.askTick < s.tm.tick) then s.armUnit else s) = _
    rw [if_pos (by simp [ha, ht])]
  refine ⟨_, he, ?_⟩
  obtain ⟨h1, h2, h3, hh, hsame⟩ := s.armShown_facts
  unfold State.armUnit
  dsimp only
  have hy : (List.range 16).foldl (fun z n => z.cset (TRG_NU_VAL_HIGH n) 0) ((((s.cset TRG_STAT_ARMED 1).cset TRG_ARM_F_F s.frame).cset
    TRG_STAT_SEQ_STATE 0).cset TRG_STREAM_POS_SLICE (sliceOf s.frame)) = s.armShown := rfl
  rw [hy]
  generalize s.armShown = y at *
  obtain ⟨c, rfl⟩ : ∃ c, y = { s with creg := c } := ⟨_, hsame⟩
  exact ⟨h1, h2, h3, hh, rfl, rfl, rfl, rfl, rfl⟩

theorem triggerDisarm_clause {s : State} (hd : s.trg.disarmAsk = true) (ht : s.trg.askTick < s.tm.tick) :
    ∃ u, exec .triggerDisarm s = .next u ∧
    u.con TRG_STAT_ARMED = false ∧ u.trg.cores = s.trg.cores ∧ u.trg.fifo = s.trg.fifo ∧ RegsSame s u [TRG_STAT_ARMED] ∧
    u = { s with creg := u.creg, trg := u.trg } := by
  have he : exec .triggerDisarm s = .next s.disarmUnit := by
    show Host.Outcome.next (if s.trg.disarmAsk && decide (s.trg.askTick < s.tm.tick) then s.disarmUnit else s) = _
    rw [if_pos (by simp [hd, ht])]
  have h0 : (s.cset TRG_STAT_ARMED 0).cget TRG_STAT_ARMED = 0 := State.cget_cset_of_lt _ (by decide)
  exact ⟨_, he, State.con_eq_false.2 h0, rfl, rfl, ((RegsSame.refl s _).cset TRG_STAT_ARMED 0).congr rfl, rfl⟩

/-- Settles O33: what a write of the control register asks, and what its tick then does. -/
theorem armingTakesEffectAtATick : Obligations.ArmingTakesEffectAtATick :=
  ⟨fun _ _ _ hf hp => triggerWrite_clauses hf hp, fun _ ha ht => triggerArm_clause ha ht, fun _ hd ht => triggerDisarm_clause hd ht⟩

end Sys2Proof.Machine

/-! ## The decision point: native units -/

namespace Sys2Proof.Machine

set_option Elab.async false

/-! ### What an answer to a request leaves -/

/-- `t` is `s` with uplink queues changed, on whatever group. -/
structure Uplinked (s t : State) : Prop where
  same : t = { s with creg := t.creg, upl := t.upl }
  regs : ∀ f : Fld, f.key < 0x600000 * 64 → t.cget f = s.cget f

namespace Uplinked
variable {s t u : State}

theorem refl (s : State) : Uplinked s s := ⟨rfl, fun _ _ => rfl⟩

theorem cset (h : Uplinked s t) (f : Fld) (v : Nat) (hf : 0x600000 ≤ f.reg) : Uplinked s (t.cset f v) := by
  refine ⟨?_, fun g hg => ?_⟩
  · rw [h.same]
    rfl
  · rw [State.cget_cset_ne _ _ _ _ fun e => ?_, h.regs g hg]
    have : f.key = f.reg * 64 + f.lo := rfl
    omega

theorem modUpl (h : Uplinked s t) (g : UplinkSt → UplinkSt) : Uplinked s (t.modUpl g) := by
  refine ⟨?_, h.regs⟩
  rw [h.same]
  rfl

theorem setQueue (h : Uplinked s t) (g q : Nat) (x : Queue) : Uplinked s (t.setQueue g q x) := by
  have h0 : Uplinked s (t.modUpl fun u => { u with queues := tset t.upl.queues (g * 5 + q) {} x }) := h.modUpl _
  have h1 := h0.cset (UQ_STAT_LEVEL (g * 5 + q)) x.level (by simp only [UQ_STAT_LEVEL]; omega)
  have h2 := h1.cset (UQ_STAT_WM_NOW (g * 5 + q)) (b2n (decide (t.cget (UQ_CFG_WM (g * 5 + q)) ≤ x.level)))
    (by simp only [UQ_STAT_WM_NOW]; omega)
  have h3 := h2.cset (UQ_PKTS_PKTS (g * 5 + q)) x.pkts.length (by simp only [UQ_PKTS_PKTS]; omega)
  have hs := h3.cset (UQ_STAT_OPEN (g * 5 + q)) (b2n x.open_.isSome) (by simp only [UQ_STAT_OPEN]; omega)
  unfold State.setQueue
  dsimp only
  unfold State.when
  split
  · exact hs.cset _ _ (by simp only [UQ_STAT_WM_SEEN]; omega)
  · exact hs

theorem enqueue (h : Uplinked s t) (g q : Nat) (x : Pkt) : Uplinked s (t.enqueue g q x) := by
  have hb : Uplinked s (t.cbump (UQ_ERR_DROPPED (g * 5 + q))) := h.cset _ _ (by simp only [UQ_ERR_DROPPED]; omega)
  unfold State.enqueue
  dsimp only
  split
  · exact hb
  · split
    · exact hb.cset _ _ (by simp only [UQ_STAT_FULL_SEEN]; omega)
    · exact h.setQueue _ _ _

theorem respond (h : Uplinked s t) (g id : Nat) (d : Decision) : Uplinked s (t.respond g id d) := h.enqueue _ _ _

theorem trg_eq (h : Uplinked s t) : t.trg = s.trg := by rw [h.same]
theorem firn_eq (h : Uplinked s t) : t.firn = s.firn := by rw [h.same]

end Uplinked

/-! ### What leaves the registers of the native units -/

/-- Keys of the registers of the native units. -/
def nuKey (k : Nat) : Prop := 0x500100 * 64 ≤ k ∧ k < 0x500400 * 64

/-- The registers of the native units are as before. -/
structure NuKept (s t : State) : Prop where
  regs : ∀ f : Fld, nuKey f.key → t.cget f = s.cget f

namespace NuKept
variable {s t u : State}

theorem refl (s : State) : NuKept s s := ⟨fun _ _ => rfl⟩

theorem trans (h : NuKept s t) (h' : NuKept t u) : NuKept s u :=
  ⟨fun f hf => (h'.regs f hf).trans (h.regs f hf)⟩

theorem cset (h : NuKept s t) (f : Fld) (v : Nat) (hf : f.reg < 0x500100 ∧ f.lo < 64 ∨ 0x500400 ≤ f.reg) : NuKept s (t.cset f v) :=
  ⟨fun g hg => by
    rw [State.cget_cset_ne _ _ _ _ fun e => ?_, h.regs g hg]
    have : f.key = f.reg * 64 + f.lo := rfl
    unfold nuKey at hg
    omega⟩

theorem cadd (h : NuKept s t) (f : Fld) (n : Nat) (hf : f.reg < 0x500100 ∧ f.lo < 64 ∨ 0x500400 ≤ f.reg) : NuKept s (t.cadd f n) :=
    h.cset f _ hf
theorem cbump (h : NuKept s t) (f : Fld) (hf : f.reg < 0x500100 ∧ f.lo < 64 ∨ 0x500400 ≤ f.reg) : NuKept s (t.cbump f) := h.cset f _ hf
theorem of_creg (h : NuKept s t) (e : u.creg = t.creg) : NuKept s u :=
  ⟨fun f hf => (State.cget_of_creg e f).trans (h.regs f hf)⟩
theorem modTrg (h : NuKept s t) (g : TrgSt → TrgSt) : NuKept s (t.modTrg g) := h.of_creg rfl
theorem modTm (h : NuKept s t) (g : TimeSt → TimeSt) : NuKept s (t.modTm g) := h.of_creg rfl

theorem when (h : NuKept s t) (b : Bool) (g : State → State) (hg : NuKept s (g t)) : NuKept s (t.when b g) := by
  cases b
  · exact h
  · exact hg

theorem uplinked (h : NuKept s t) (h' : Uplinked t u) : NuKept s u :=
  h.trans ⟨fun f hf => h'.regs f (by unfold nuKey at hf; omega)⟩

theorem refreshEdges (h : NuKept s t) : NuKept s t.refreshEdges := h.trans ⟨fun f hf => State.refreshEdges_cget t (by
  simp only [nuKey, edgeKey, Fld.key, FRN_OLDEST_SLICE, FRN_EDGE_SLICE] at hf ⊢
  omega)⟩

theorem seqIdle (h : NuKept s t) : NuKept s t.seqIdle := (h.cset _ _ (.inl (by decide))).modTrg _

theorem sequencer (h : NuKept s t) (f : Nat) (crossed : List Nat) : NuKept s (t.sequencer f crossed).1 := by
  have hs : ∀ n, NuKept s (t.cset TRG_STAT_SEQ_STATE n) := fun n => h.cset _ _ (.inl (by decide))
  unfold State.sequencer
  dsimp only
  split
  · exact h.seqIdle
  · split
    · exact (hs _).of_creg rfl
    · split
      · exact (hs _).of_creg rfl
      · exact h.of_creg rfl

theorem tinCandidates (h : NuKept s t) (f : Nat) : NuKept s (t.tinCandidates f).1 := by
  unfold State.tinCandidates
  refine List.foldlRecOn (motive := fun z : State × List Candidate => NuKept s z.1) _ _ h fun z hz i _ => ?_
  split
  · exact hz
  · split
    · exact hz.cadd _ _ (.inl (by decide))
    · exact hz

theorem setCore (h : NuKept s t) (k : Nat) (c : Core) : NuKept s (t.setCore k c) := by
  unfold State.setCore State.showInflight
  have hc : ∀ {z : State}, NuKept s z → ∀ (f : Fld) (v : Nat), 0x500400 ≤ f.reg → NuKept s (z.cset f v) :=
      fun hz f v hf => hz.cset f v (.inr hf)
  refine NuKept.cset ?_ _ _ (.inl (by decide))
  refine hc (hc (hc (hc (hc (hc (hc (hc (hc (h.modTrg _) _ _ ?_) _ _ ?_) _ _ ?_) _ _ ?_) _ _ ?_) _ _ ?_) _ _ ?_) _ _ ?_) _ _ ?_
  all_goals simp only [TRG_CORE_STAT_ACTIVE, TRG_CORE_STAT_READING, TRG_CORE_STAT_TRUNC, TRG_CORE_STAT_CLAMPED, TRG_CORE_STAT_PARTIAL,
    TRG_CORE_STAT_SOURCE, TRG_CORE_STAT_MERGES, TRG_CORE_SER_SERIAL, TRG_CORE_LAST_F]; omega

theorem extendPin (h : NuKept s t) (n last : Nat) : NuKept s (t.extendPin n last) := by
  unfold State.extendPin
  dsimp only
  split
  · exact h
  · exact NuKept.refreshEdges (h.of_creg rfl)

theorem setPin (h : NuKept s t) (n first last : Nat) : NuKept s (t.setPin n first last) := by
  unfold State.setPin
  exact NuKept.refreshEdges (h.of_creg rfl)

theorem mergeCore (h : NuKept s t) (c : Candidate) (r : Rearm) (k : Core) : NuKept s (t.mergeCore c r k).1 := by
  unfold State.mergeCore
  extract_lets l last n s1 s2
  have h1 : NuKept s s1 := ((h.setCore r.slot n).extendPin r.slot (sliceOf last)).cbump TRG_CNT0_MERGED (.inl (by decide))
  have h2 : NuKept s s2 := h1.when _ _ (h1.cbump TRG_CNT2_CLAMPED (.inl (by decide)))
  exact h2.of_creg rfl

theorem acceptCore (h : NuKept s t) (c : Candidate) (k pos : Nat) : NuKept s (t.acceptCore c k pos).1 := by
  unfold State.acceptCore
  extract_lets l serial s1 s2 part n s3 s4
  have h2 : NuKept s s2 := (h.cset TRG_SERIAL_NEXT _ (.inl (by decide))).setPin _ _ _
  have h3 : NuKept s s3 := by
    have := (h2.setCore k n).cbump TRG_CNT0_ACCEPT (.inl (by decide))
    exact this.when _ _ (this.cbump _ (.inl (by decide)))
  show NuKept s s4
  unfold s4
  split
  · exact h3
  · exact h3.modTrg _

theorem decideOne (h : NuKept s t) (c : Candidate) (pos : Nat) : NuKept s (t.decideOne c pos).1 := by
  have hb : ∀ f : Fld, f.reg < 0x500100 ∧ f.lo < 64 → NuKept s (t.cbump f) := fun f hf => h.cbump f (.inl hf)
  unfold State.decideOne
  dsimp only
  split
  · exact hb TRG_CNT2_BADREQ (by decide)
  · split
    · exact hb TRG_CNT1_GONE (by decide)
    · split
      · exact hb TRG_CNT1_EARLY (by decide)
      · split
        · exact h.mergeCore _ _ _
        · exact hb TRG_CNT1_REARM (by decide)
        · split
          · exact (hb TRG_CNT0_ACCEPT (by decide)).of_creg rfl
          · split
            · have := (hb TRG_CNT1_BUSY (by decide)).cset TRG_STAT_BUSY_SEEN 1 (.inl (by decide))
              exact this.when _ (fun z => z.cbump FRN_EVT_PIN_REFUSED) (this.cbump FRN_EVT_PIN_REFUSED (.inl (by decide)))
            · exact h.acceptCore _ _ _

theorem decideAll (h : NuKept s t) (pos : Nat) (cs : List Candidate) : NuKept s (t.decideAll pos cs).1 := by
  induction cs generalizing t pos with
  | nil => exact h
  | cons c cs ih => exact ih (h.decideOne c pos) _

theorem decideRequests (h : NuKept s t) (pos : Nat) (qs : List Req) : NuKept s (t.decideRequests pos qs).1 := by
  induction qs generalizing t pos with
  | nil => exact h
  | cons q qs ih => exact ih (NuKept.uplinked (h.decideOne _ pos) ((Uplinked.refl _).respond _ _ _)) _

theorem takeRequests (h : NuKept s t) : NuKept s t.takeRequests.2 := (h.modTrg _).cset _ _ (.inl (by decide))

end NuKept

/-! ### One native unit -/

/-- Keys of the registers of native unit `n`. -/
def unitKey (n k : Nat) : Prop := (0x500100 + 32 * n) * 64 ≤ k ∧ k < (0x500120 + 32 * n) * 64

/-- What native unit `n` reads and writes. -/
def State.nuView (n : Nat) (s : State) : ({f : Fld // unitKey n f.key} → Nat) × NuSt × Sums :=
  (fun f => s.cget f.1, tget s.trg.nus n {}, s.trg.sums)

theorem State.nuView_cset {n q : Nat} (h : n ≠ q) (s : State) (f : Fld) (v : Nat) (hf : unitKey q f.key) :
    (s.cset f v).nuView n = s.nuView n := by
  unfold State.nuView
  congr 1
  funext g
  refine State.cget_cset_ne _ _ _ _ fun e => ?_
  have hg := g.2
  rw [e] at hg
  unfold unitKey at hf hg
  omega

theorem State.nativeUnit_ne {n q : Nat} (h : q ≠ n) (s : State) (bad : Bool) : (s.nativeUnit q bad).1.nuView n = s.nuView n := by
  unfold State.nativeUnit
  split
  · rfl
  · extract_lets w sel u0 u hist win v inc lvl high cross s1
    have hn := Ne.symm h
    have h1 : s1.nuView n = s.nuView n := by
      have ht : ∀ (z : State) (x : NuSt), (z.modTrg fun t => { t with nus := tset t.nus q {} x }).nuView n = z.nuView n := fun z x => by
        refine congrArg (Prod.mk _) (congrArg (fun y => (y, _)) ?_)
        exact tget_tset_ne _ _ _ _ hn
      unfold s1
      rw [ht, State.nuView_cset hn _ (TRG_NU_VAL_HIGH q) _ (by simp only [unitKey, Fld.key, TRG_NU_VAL_HIGH]; omega),
        State.nuView_cset hn _ (TRG_NU_VAL_INC q) _ (by simp only [unitKey, Fld.key, TRG_NU_VAL_INC]; omega),
        State.nuView_cset hn _ (TRG_NU_VAL_V q) _ (by simp only [unitKey, Fld.key, TRG_NU_VAL_V]; omega)]
    dsimp only
    unfold State.when
    split
    · rw [← h1]
      exact State.nuView_cset hn _ (TRG_NU_CNT_CROSS q) _ (by simp only [unitKey, Fld.key, TRG_NU_CNT_CROSS]; omega)
    · exact h1

theorem State.nativeUnits_fst (s : State) (bad : List Nat) :
    (s.nativeUnits bad).1 = (List.range 16).foldl (fun z n => (z.nativeUnit n (bad.contains n)).1) s := by
  unfold State.nativeUnits
  exact (List.foldl_hom (Prod.fst : State × List Nat → State) (g₂ := fun z n => (z.nativeUnit n (bad.contains n)).1) fun _ _ => rfl).symm

/-- After all units, unit `n` is as its own step leaves it. -/
theorem State.nativeUnits_at (s : State) (bad : List Nat) (n : Fin 16) :
    ∃ z : State, z.nuView n = s.nuView n ∧ (s.nativeUnits bad).1.nuView n = (z.nativeUnit n (bad.contains n.val)).1.nuView n := by
  rw [State.nativeUnits_fst]
  exact State.foldl_at (State.nuView n) _ List.nodup_range (List.mem_range.2 n.isLt) (fun z q _ hq => State.nativeUnit_ne hq z _) s

theorem State.cget_of_view {s t : State} {n : Nat} (h : t.nuView n = s.nuView n) {f : Fld} (hf : unitKey n f.key) : t.cget f = s.cget f :=
  congrFun (congrArg Prod.fst h) ⟨f, hf⟩

/-- The step of an enabled unit whose history is whole. -/
theorem State.nativeUnit_facts {s : State} {n : Nat} (hn : s.con (TRG_NU_CFG_EN n) = true) {x : Nat × Bool}
    (hx : s.trg.sums.select (s.cget (TRG_NU_CFG_SEL n)) = some x) {u0 : NuSt} (hu : tget s.trg.nus n {} = u0) (hl : u0.hist.length < 64)
    (hi : u0.incLeft = 0) {v lvl hys : Nat} (hv : (((x :: u0.hist).take (s.cget (TRG_NU_CFG_WM1 n) + 1)).map (·.1)).sum = v)
    (hlvl : s.cget (TRG_NU_LEVEL_LEVEL n) = lvl) (hhys : s.cget (TRG_NU_HYST_HYST n) = hys) :
    let u := (s.nativeUnit n false).1
    let high := if u0.high then decide (lvl - hys ≤ v) else decide (lvl ≤ v)
    u.cget (TRG_NU_VAL_V n) = v % 2 ^ 30 ∧
    u.con (TRG_NU_VAL_INC n) = ((x :: u0.hist).take (s.cget (TRG_NU_CFG_WM1 n) + 1)).any (·.2) ∧ u.con (TRG_NU_VAL_HIGH n) = high ∧
    u.cget (TRG_NU_CNT_CROSS n) =
      if (high && !u0.high) = true then min (s.cget (TRG_NU_CNT_CROSS n) + 1) 65535 else s.cget (TRG_NU_CNT_CROSS n) := by
  intro u high
  have htake : ((x :: u0.hist).take 64) = x :: u0.hist := List.take_of_length_le (by simp only [List.length_cons]; omega)
  have hE : ∃ g : TrgSt → TrgSt, u = ((((s.cset (TRG_NU_VAL_V n) v).cset (TRG_NU_VAL_INC n)
      (b2n (((x :: u0.hist).take (s.cget (TRG_NU_CFG_WM1 n) + 1)).any (·.2)))).cset (TRG_NU_VAL_HIGH n) (b2n high)).modTrg g).when
        (high && !u0.high) fun z => z.cbump (TRG_NU_CNT_CROSS n) := by
    have hh : (if u0.high = true then decide (lvl - hys ≤ v) else decide (lvl ≤ v)) = high := rfl
    refine ⟨fun t => { t with nus := tset t.nus n {} { hist := x :: u0.hist, high := high, incLeft := u0.incLeft - 1 } }, ?_⟩
    show (s.nativeUnit n false).1 = _
    unfold State.nativeUnit
    simp only [hn, Bool.not_true, Bool.false_eq_true, if_false, hx, Option.getD_some, hu, htake, hv, hlvl, hhys, hi, Nat.lt_irrefl,
      decide_false, Bool.or_false, Option.isSome_some, Bool.and_true, hh]
  obtain ⟨g, hE⟩ := hE
  rw [hE]
  clear hE
  have hV : ∀ z : State, ((z.modTrg g).when (high && !u0.high) fun z => z.cbump (TRG_NU_CNT_CROSS n)).cget (TRG_NU_VAL_V n) =
      z.cget (TRG_NU_VAL_V n) := fun z => by
    cases high && !u0.high
    · rfl
    · exact State.cget_cbump_ne _ _ _ (by simp only [Fld.key, TRG_NU_VAL_V, TRG_NU_CNT_CROSS]; omega)
  have hI : ∀ z : State, ((z.modTrg g).when (high && !u0.high) fun z => z.cbump (TRG_NU_CNT_CROSS n)).cget (TRG_NU_VAL_INC n) =
      z.cget (TRG_NU_VAL_INC n) := fun z => by
    cases high && !u0.high
    · rfl
    · exact State.cget_cbump_ne _ _ _ (by simp only [Fld.key, TRG_NU_VAL_INC, TRG_NU_CNT_CROSS]; omega)
  have hH : ∀ z : State, ((z.modTrg g).when (high && !u0.high) fun z => z.cbump (TRG_NU_CNT_CROSS n)).cget (TRG_NU_VAL_HIGH n) =
      z.cget (TRG_NU_VAL_HIGH n) := fun z => by
    cases high && !u0.high
    · rfl
    · exact State.cget_cbump_ne _ _ _ (by simp only [Fld.key, TRG_NU_VAL_HIGH, TRG_NU_CNT_CROSS]; omega)
  refine ⟨?_, ?_, ?_, ?_⟩
  · rw [hV, State.cget_cset_ne _ _ _ _ (by simp only [Fld.key, TRG_NU_VAL_V, TRG_NU_VAL_HIGH]; omega),
      State.cget_cset_ne _ _ _ _ (by simp only [Fld.key, TRG_NU_VAL_V, TRG_NU_VAL_INC]; omega), State.cget_cset_same]
    rfl
  · rw [State.con, hI, State.cget_cset_ne _ _ _ _ (by simp only [Fld.key, TRG_NU_VAL_INC, TRG_NU_VAL_HIGH]; omega),
      State.cget_cset_of_lt _ (b2n_lt_two _)]
    cases List.any _ _ <;> rfl
  · rw [State.con, hH, State.cget_cset_of_lt _ (b2n_lt_two _)]
    cases high <;> rfl
  · have hc : ∀ z : State, (z.modTrg g).cget (TRG_NU_CNT_CROSS n) = z.cget (TRG_NU_CNT_CROSS n) := fun _ => rfl
    have hs : ∀ a b c, (((s.cset (TRG_NU_VAL_V n) a).cset (TRG_NU_VAL_INC n) b).cset (TRG_NU_VAL_HIGH n) c).cget (TRG_NU_CNT_CROSS n) =
        s.cget (TRG_NU_CNT_CROSS n) := fun a b c => by
      rw [State.cget_cset_ne _ _ _ _ (by simp only [Fld.key, TRG_NU_CNT_CROSS, TRG_NU_VAL_HIGH]; omega),
        State.cget_cset_ne _ _ _ _ (by simp only [Fld.key, TRG_NU_CNT_CROSS, TRG_NU_VAL_INC]; omega),
        State.cget_cset_ne _ _ _ _ (by simp only [Fld.key, TRG_NU_CNT_CROSS, TRG_NU_VAL_V]; omega)]
    cases high && !u0.high
    · exact (hc _).trans (hs _ _ _)
    · rw [State.when, if_pos rfl, State.cget_cbump_sat, hc, hs]
      rfl

/-! ### The decision point -/

/-- The state a decision point without upsets decides in. -/
def State.decisionStart (s : State) : State := (s.toInst (3440 * 65536)).trgUpsets 0 [] []

theorem zipIdx_filter_all {α : Type} (l : List α) (k : Nat) :
    ((l.zipIdx k).filter fun e => !(([] : List Nat).contains e.2)).map (·.1) = l := by
  simp [List.filter_eq_self.2]

theorem State.trgUpsets_none (s : State) : s.trgUpsets 0 [] [] = (s.cadd TRG_STAT_SRAM_CORR 0).cadd TRG_STAT_SRAM_UNC 0 := by
  unfold State.trgUpsets
  simp only [List.foldl_nil, List.length_nil, zipIdx_filter_all]
  rfl

theorem State.decisionStart_same (s : State) : ∃ x c, s.decisionStart = { s with tm := x, creg := c } := by
  obtain ⟨x, hx⟩ := s.toInst_tmOnly (3440 * 65536)
  rw [State.decisionStart, State.trgUpsets_none, hx]
  exact ⟨x, _, rfl⟩

theorem State.decisionStart_cget {s : State} {f : Fld} (h : f.key ≠ TRG_STAT_SRAM_CORR.key ∧ f.key ≠ TRG_STAT_SRAM_UNC.key) :
    s.decisionStart.cget f = s.cget f := by
  rw [State.decisionStart, State.trgUpsets_none, State.cget_cadd_ne _ _ _ _ h.2, State.cget_cadd_ne _ _ _ _ h.1, State.toInst_cget]

theorem State.decisionStart_view (s : State) (n : Fin 16) : s.decisionStart.nuView n = s.nuView n := by
  have hn := n.isLt
  obtain ⟨x, c, he⟩ := s.decisionStart_same
  have ht : s.decisionStart.trg = s.trg := by rw [he]
  unfold State.nuView
  rw [ht]
  congr 1
  funext f
  have hf := f.2
  refine State.decisionStart_cget ⟨fun e => ?_, fun e => ?_⟩ <;> rw [e] at hf <;>
    simp only [unitKey, Fld.key, TRG_STAT_SRAM_CORR, TRG_STAT_SRAM_UNC] at hf <;> omega

section decision
variable {s : State} (h1 : s.tm.tick = s.trg.sums.tick + 2) (h2 : s.trg.decidedTick ≠ some s.trg.sums.tick)
include h1 h2

/-- Where the frame is evaluated, only the native units touch their registers, and there is a record. -/
theorem exec_decisionPoint_evaluated (ha : s.con TRG_STAT_ARMED = true) (ht : s.trg.armTick ≤ s.trg.sums.tick) :
    ∃ u, exec (.decisionPoint 0 [] []) s = .next u ∧ NuKept (s.decisionStart.nativeUnits []).1 u ∧ (∃ p, u.trg.prim = some p) ∧
      u.trg.decidedTick = some s.trg.sums.tick := by
  have hz : (s.toInst (3440 * 65536)).trgUpsets 0 [] [] = s.decisionStart := rfl
  have heval : (s.decisionStart.con TRG_STAT_ARMED && decide (s.decisionStart.trg.armTick ≤ s.trg.sums.tick)) = true := by
    obtain ⟨x, c, he⟩ := s.decisionStart_same
    have ht' : s.decisionStart.trg = s.trg := by rw [he]
    rw [State.con, State.decisionStart_cget (by decide), ht']
    simp only [Bool.and_eq_true, decide_eq_true_eq]
    exact ⟨ha, ht⟩
  have he : exec (.decisionPoint 0 [] []) s = execDecisionPoint 0 [] [] s := rfl
  rw [he]
  unfold execDecisionPoint
  simp only [if_neg (show ¬ (s.tm.tick ≠ s.trg.sums.tick + 2 ∨ s.trg.decidedTick = some s.trg.sums.tick) from
    fun h => h.elim (fun h => h h1) h2), List.map_nil]
  simp only [hz, heval, if_true]
  refine ⟨_, rfl, ?_, ⟨_, rfl⟩, rfl⟩
  exact .modTrg (.modTm (.decideAll (.decideRequests (.takeRequests (.decideAll (.tinCandidates (.sequencer
      (.refl _) _ _) _) _ _)) _ _) _ _) _) _

/-- Where the frame is not evaluated, only requests are decided, and there is no record. -/
theorem exec_decisionPoint_idle (h : s.con TRG_STAT_ARMED = false ∨ s.trg.sums.tick < s.trg.armTick) :
    ∃ g, exec (.decisionPoint 0 [] []) s = .next
        (((s.decisionStart.takeRequests.2.decideRequests 0 s.decisionStart.takeRequests.1).1.modTm
      g).modTrg fun x => { x with decidedTick := some s.trg.sums.tick, prim := none }) := by
  have hz : (s.toInst (3440 * 65536)).trgUpsets 0 [] [] = s.decisionStart := rfl
  have heval : (s.decisionStart.con TRG_STAT_ARMED && decide (s.decisionStart.trg.armTick ≤ s.trg.sums.tick)) = false := by
    obtain ⟨x, c, he⟩ := s.decisionStart_same
    have ht' : s.decisionStart.trg = s.trg := by rw [he]
    rw [State.con, State.decisionStart_cget (by decide), ht']
    rcases h with h | h
    · exact Bool.and_eq_false_imp.2 fun h' => absurd (h'.symm.trans h) (by decide)
    · rw [decide_eq_false (by omega), Bool.and_false]
  have he : exec (.decisionPoint 0 [] []) s = execDecisionPoint 0 [] [] s := rfl
  rw [he]
  unfold execDecisionPoint
  simp only [if_neg (show ¬ (s.tm.tick ≠ s.trg.sums.tick + 2 ∨ s.trg.decidedTick = some s.trg.sums.tick) from
    fun h => h.elim (fun h => h h1) h2), List.map_nil]
  simp only [hz, heval, Bool.false_eq_true, if_false, List.filter_nil, List.map_nil, List.append_nil, State.decideAll, List.length_nil]
  exact ⟨_, rfl⟩

end decision

/-! ### The obligation -/

theorem nativeUnit_clause {s : State} (n : Fin 16) (h1 : s.tm.tick = s.trg.sums.tick + 2) (h2 : s.trg.decidedTick ≠ some s.trg.sums.tick)
    (ha : s.con TRG_STAT_ARMED = true) (ht : s.trg.armTick ≤ s.trg.sums.tick) (hn : s.con (TRG_NU_CFG_EN n) = true) :
    let w := s.cget (TRG_NU_CFG_WM1 n) + 1
    let u0 := tget s.trg.nus n {}
    ∀ x, s.trg.sums.select (s.cget (TRG_NU_CFG_SEL n)) = some x → u0.hist.length < 64 → u0.incLeft = 0 →
      let v := ((x :: u0.hist).take w).map (·.1) |>.sum
      let lvl := s.cget (TRG_NU_LEVEL_LEVEL n)
      ∃ u, exec (.decisionPoint 0 [] []) s = .next u ∧ u.cget (TRG_NU_VAL_V n) = v % 2 ^ 30 ∧
        (u.con (TRG_NU_VAL_INC n) = true ↔ ∃ y ∈ (x :: u0.hist).take w, y.2 = true) ∧
        (u0.high = false → lvl ≤ v → u.con (TRG_NU_VAL_HIGH n) = true ∧
          u.cget (TRG_NU_CNT_CROSS n) = min (s.cget (TRG_NU_CNT_CROSS n) + 1) 65535) ∧
        (u0.high = false → v < lvl → u.con (TRG_NU_VAL_HIGH n) = false ∧ u.cget (TRG_NU_CNT_CROSS n) = s.cget (TRG_NU_CNT_CROSS n)) ∧
        (u0.high = true → (u.con (TRG_NU_VAL_HIGH n) = true ↔ lvl - s.cget (TRG_NU_HYST_HYST n) ≤ v) ∧
          u.cget (TRG_NU_CNT_CROSS n) = s.cget (TRG_NU_CNT_CROSS n)) ∧
        (∃ p, u.trg.prim = some p) ∧ u.trg.decidedTick = some s.trg.sums.tick := by
  intro w u0 x hx hl hi v lvl
  have hn16 := n.isLt
  obtain ⟨u, he, hk, hp, hd⟩ := exec_decisionPoint_evaluated h1 h2 ha ht
  obtain ⟨z, hz, hat⟩ := s.decisionStart.nativeUnits_at [] n
  have hz := hz.trans (s.decisionStart_view n)
  have hcz : ∀ f : Fld, unitKey n f.key → z.cget f = s.cget f := fun f hf => State.cget_of_view hz hf
  have hnu : tget z.trg.nus n {} = u0 := congrArg (fun y => y.2.1) hz
  have hsum : z.trg.sums = s.trg.sums := congrArg (fun y => y.2.2) hz
  have hcfg : z.con (TRG_NU_CFG_EN n) = true := by
    rw [State.con, hcz _ (by simp only [unitKey, Fld.key, TRG_NU_CFG_EN]; omega)]
    exact hn
  have hw : z.cget (TRG_NU_CFG_WM1 n) = s.cget (TRG_NU_CFG_WM1 n) := hcz _ (by simp only [unitKey, Fld.key, TRG_NU_CFG_WM1]; omega)
  have hcr : z.cget (TRG_NU_CNT_CROSS n) = s.cget (TRG_NU_CNT_CROSS n) := hcz _ (by simp only [unitKey, Fld.key, TRG_NU_CNT_CROSS]; omega)
  have hx' : z.trg.sums.select (z.cget (TRG_NU_CFG_SEL n)) = some x := by
    rw [hsum, hcz _ (by simp only [unitKey, Fld.key, TRG_NU_CFG_SEL]; omega)]
    exact hx
  have hlvl : z.cget (TRG_NU_LEVEL_LEVEL n) = lvl := hcz _ (by simp only [unitKey, Fld.key, TRG_NU_LEVEL_LEVEL]; omega)
  have hhys : z.cget (TRG_NU_HYST_HYST n) = s.cget (TRG_NU_HYST_HYST n) :=
      hcz _ (by simp only [unitKey, Fld.key, TRG_NU_HYST_HYST]; omega)
  have hv : (((x :: u0.hist).take (z.cget (TRG_NU_CFG_WM1 n) + 1)).map (·.1)).sum = v := by rw [hw]
  obtain ⟨hV, hI, hH, hC⟩ := State.nativeUnit_facts hcfg hx' hnu hl hi hv hlvl hhys
  rw [hw] at hI
  rw [hcr] at hC
  have hback : ∀ f : Fld, unitKey n f.key → u.cget f = (z.nativeUnit n false).1.cget f := fun f hf =>
    (hk.regs f (by simp only [unitKey, nuKey] at hf ⊢; omega)).trans (State.cget_of_view hat hf)
  have hcross : u.cget (TRG_NU_CNT_CROSS n) = _ := (hback _ (by simp only [unitKey, Fld.key, TRG_NU_CNT_CROSS]; omega)).trans hC
  have hon : ∀ f : Fld, unitKey n f.key → u.con f = (z.nativeUnit n false).1.con f := fun f hf => by
    rw [State.con, hback f hf, State.con]
  have hhigh := (hon _ (by simp only [unitKey, Fld.key, TRG_NU_VAL_HIGH]; omega)).trans hH
  have hinc := (hon _ (by simp only [unitKey, Fld.key, TRG_NU_VAL_INC]; omega)).trans hI
  refine ⟨u, he, (hback _ (by simp only [unitKey, Fld.key, TRG_NU_VAL_V]; omega)).trans hV, ?_, fun h0 hle => ?_, fun h0 hlt => ?_,
    fun h0 => ?_, hp, hd⟩
  · rw [hinc]
    exact List.any_eq_true
  · rw [hhigh, hcross, h0]
    simp [hle]
  · rw [hhigh, hcross, h0]
    simp [Nat.not_le.2 hlt]
  · rw [hhigh, hcross, h0]
    simp

theorem decisionPoint_idle_clause {s : State} (h1 : s.tm.tick = s.trg.sums.tick + 2) (h2 : s.trg.decidedTick ≠ some s.trg.sums.tick)
    (h : s.con TRG_STAT_ARMED = false ∨ s.trg.sums.tick < s.trg.armTick) (hf : s.trg.fifo = []) :
    ∃ u, exec (.decisionPoint 0 [] []) s = .next u ∧ u.trg.prim = none ∧ u.trg.cores = s.trg.cores ∧ u.firn = s.firn ∧
      u.trg.decidedTick = some s.trg.sums.tick := by
  obtain ⟨g, he⟩ := exec_decisionPoint_idle h1 h2 h
  obtain ⟨x, c, hs⟩ := s.decisionStart_same
  have hq : s.decisionStart.takeRequests.1 = [] := by
    show s.decisionStart.trg.fifo.take 4 = []
    rw [hs]
    exact (congrArg (List.take 4) hf).trans rfl
  have ht : s.decisionStart.takeRequests.2.trg.cores = s.trg.cores ∧ s.decisionStart.takeRequests.2.firn = s.firn := by
    rw [hs]
    exact ⟨rfl, rfl⟩
  rw [hq, State.decideRequests] at he
  exact ⟨_, he, rfl, ht.1, ht.2, rfl⟩

theorem primQueued_clause {s : State} {ws : List W64} (h : s.trg.prim = some ws) : ∃ u, exec .primQueued s = .next u ∧ u.trg.prim = none ∧
    u = { s with creg := u.creg, upl := u.upl, trg := u.trg } := by
  have he : exec .primQueued s = .next
      ((s.enqueueAll (s.groupsOf (s.cget TRG_CTRL_PRIM_GRPS)) 1 { typ := 3, words := ws }).modTrg fun t => { t with prim := none }) := by
    show execPrimQueued s = _
    unfold execPrimQueued
    simp only [h]
  have hq := s.enqueueAll_queued (q := 1) { typ := 3, words := ws } (gs := s.groupsOf (s.cget TRG_CTRL_PRIM_GRPS))
    (fun _ h => State.mem_groupsOf h) (by decide)
  refine ⟨_, he, rfl, ?_⟩
  rw [hq.same]
  rfl

/-- Settles O34: the windowed value, the crossing with its hysteresis, and a record for each frame that is evaluated. -/
theorem nativeUnitsCrossAtTheirLevel : Obligations.NativeUnitsCrossAtTheirLevel :=
  ⟨fun _ n h1 h2 ha ht hn => nativeUnit_clause n h1 h2 ha ht hn, fun _ h1 h2 h hf => decisionPoint_idle_clause h1 h2 h hf,
    fun _ _ h => primQueued_clause h⟩

end Sys2Proof.Machine

/-! ## Requests and the table of outcomes -/

namespace Sys2Proof.Machine

set_option Elab.async false

/-! ### The arrival of a request -/

theorem State.mailGroup_eq (s : State) : s.mailGroup = (s.groupsOf (s.cget UPL_CFG_MONLOG_GRPS)).headD 0 := rfl

section arrival
variable {s : State} {body : List Byte} (hl : body.length = 32)
include hl

theorem exec_requestArrival : exec (.requestArrival none body) s = .next (
    if s.con TRG_CTRL_REQ_EN = false then
      (s.cbump TRG_CNT2_BADREQ).respond s.mailGroup (reqIdOf body) { source := 25, outcome := 6 }
    else if 64 ≤ s.trg.fifo.length then
      (s.cbump TRG_CNT2_QFULL).respond s.mailGroup (reqIdOf body) { source := 25, outcome := 7 }
    else (s.modTrg fun t => { t with fifo := t.fifo ++ [{ body := body, group := s.mailGroup, bad := false }] }).cset TRG_REQQ_FILL
      (s.trg.fifo.length + 1)) := by
  show execRequestArrival none body s = _
  unfold execRequestArrival
  simp only [hl, ne_eq, not_true_eq_false, decide_false, Option.isSome_none, Bool.false_and, Bool.or_false, Bool.not_true,
    Bool.false_eq_true, if_false, Bool.not_eq_true']

theorem requestArrival_clauses :
    (s.con TRG_CTRL_REQ_EN = true → s.trg.fifo.length < 64 → ∃ u, exec (.requestArrival none body) s = .next u ∧
      u.trg.fifo = s.trg.fifo ++ [{ body := body, group := s.mailGroup, bad := false }] ∧
      u.cget TRG_REQQ_FILL = s.trg.fifo.length + 1 ∧ u = { s with creg := u.creg, trg := u.trg }) ∧
    (s.con TRG_CTRL_REQ_EN = true → 64 ≤ s.trg.fifo.length → ∃ u, exec (.requestArrival none body) s = .next u ∧
      u.cget TRG_CNT2_QFULL = min (s.cget TRG_CNT2_QFULL + 1) 255 ∧ u.trg = s.trg) ∧
    (s.con TRG_CTRL_REQ_EN = false → ∃ u, exec (.requestArrival none body) s = .next u ∧
      u.cget TRG_CNT2_BADREQ = min (s.cget TRG_CNT2_BADREQ + 1) 255 ∧ u.trg = s.trg) := by
  have he := exec_requestArrival (s := s) hl
  have hup := fun z d => (Uplinked.refl z).respond s.mailGroup (reqIdOf body) d
  refine ⟨fun hr hf => ?_, fun hr hf => ?_, fun hr => ?_⟩
  · rw [if_neg (by simp [hr]), if_neg (by omega)] at he
    exact ⟨_, he, rfl, State.cget_cset_of_lt _ (show _ < 2 ^ 7 by omega), rfl⟩
  · rw [if_neg (by simp [hr]), if_pos hf] at he
    refine ⟨_, he, ?_, (hup _ _).trg_eq⟩
    rw [(hup _ _).regs _ (by decide), State.cget_cbump_sat]
    rfl
  · rw [if_pos hr] at he
    refine ⟨_, he, ?_, (hup _ _).trg_eq⟩
    rw [(hup _ _).regs _ (by decide), State.cget_cbump_sat]
    rfl

end arrival

/-! ### The checks in their order -/

section checks
variable {s : State} {c : Candidate} (pos : Nat)

theorem decideOne_invalid (h : c.invalid = true) :
    s.decideOne c pos = (s.cbump TRG_CNT2_BADREQ, { source := c.source, outcome := 6, inc := c.inc }) := if_pos h

variable (hi : c.invalid = false)
include hi

theorem decideOne_gone (h25 : c.source = 25) (hg : c.gone = true) :
    s.decideOne c pos = (s.cbump TRG_CNT1_GONE, { source := c.source, outcome := 5, inc := c.inc }) := by
  unfold State.decideOne
  simp only [hi, h25, hg, ne_eq, not_true_eq_false, decide_false, Bool.not_false, Bool.and_self, Bool.false_eq_true, if_false, if_true]

/-- A request that is neither bad nor gone: a free core, or BUSY. -/
theorem decideOne_busy (h25 : c.source = 25) (hg : c.gone = false) (hb : ∀ k, k < 64 → s.core k ≠ none) :
    s.decideOne c pos = (((s.cbump TRG_CNT1_BUSY).cset TRG_STAT_BUSY_SEEN 1).when ((List.range 64).all fun k => (s.pin k).active) fun z =>
      z.cbump FRN_EVT_PIN_REFUSED, { source := c.source, outcome := 4, inc := c.inc }) := by
  have hf : ((List.range 64).find? fun k => (s.core k).isNone) = none := List.find?_eq_none.2 fun k hk => by
    simpa using hb k (List.mem_range.1 hk)
  unfold State.decideOne
  simp only [hi, h25, hg, hf, ne_eq, not_true_eq_false, decide_false, Bool.not_false, Bool.and_false, Bool.false_and, Bool.false_eq_true,
    if_false]

theorem decideOne_accept (h25 : c.source = 25) (hg : c.gone = false) {k : Nat} (hk : k < 64) (hn : s.core k = none)
    (hb : ∀ j, j < k → s.core j ≠ none) : s.decideOne c pos = s.acceptCore c k pos := by
  have hf : ((List.range 64).find? fun k => (s.core k).isNone) = some k := by
    rw [List.find?_range_eq_some]
    exact ⟨by simp [hn], List.mem_range.2 hk, fun j hj => by simpa [Option.isSome_iff_ne_none] using hb j hj⟩
  unfold State.decideOne
  simp only [hi, h25, hg, hf, ne_eq, not_true_eq_false, decide_false, Bool.not_false, Bool.and_false, Bool.false_and, Bool.false_eq_true,
    if_false]

variable (h25 : c.source < 25)
include h25

theorem decideOne_early (h : c.frame < s.cget TRG_ARM_F_F + s.cget (TRG_SRC_PRE_PRE c.source)) :
    s.decideOne c pos = (s.cbump TRG_CNT1_EARLY, { source := c.source, outcome := 2, inc := c.inc }) := by
  unfold State.decideOne
  simp only [hi, show c.source ≠ 25 by omega, h, ne_eq, not_false_eq_true, decide_true, Bool.not_true, Bool.false_and, Bool.and_self,
    Bool.false_eq_true, if_false, if_true]

variable (hf : s.cget TRG_ARM_F_F + s.cget (TRG_SRC_PRE_PRE c.source) ≤ c.frame)
include hf

theorem decideOne_rearm {r : Rearm} (hr : tget s.trg.rearm c.source none = some r) (h0 : 0 < s.cget (TRG_SRC_REARM_REARM c.source))
    (hle : c.frame ≤ r.frame + s.cget (TRG_SRC_REARM_REARM c.source)) (hm : s.con (TRG_SRC_REARM_MERGE c.source) = false) :
    s.decideOne c pos = (s.cbump TRG_CNT1_REARM, { source := c.source, outcome := 3, inc := c.inc }) := by
  have ht : s.mergeTarget c r = none := by rw [State.mergeTarget, if_pos (by simp [hm])]
  unfold State.decideOne
  simp only [hi, show c.source ≠ 25 by omega, Nat.not_lt.2 hf, hr, h0, hle, ht, ne_eq, not_false_eq_true, decide_true, decide_false,
    Bool.not_true, Bool.false_and, Bool.and_self, Bool.and_false, Bool.false_eq_true, if_false, if_true, Option.map_none]

theorem decideOne_stream (h0 : s.cget (TRG_SRC_REARM_REARM c.source) = 0) (hm : s.cget TRG_CTRL_MODE = 0) :
    s.decideOne c pos = ((s.cbump TRG_CNT0_ACCEPT).setRearm c.source
      { (tget s.trg.rearm c.source none).getD { frame := 0, slot := 64, serial := 0 } with frame := c.frame },
        { source := c.source, outcome := 8, inc := c.inc }) := by
  unfold State.decideOne
  cases tget s.trg.rearm c.source none <;>
  simp only [hi, show c.source ≠ 25 by omega, Nat.not_lt.2 hf, h0, hm, ne_eq, not_false_eq_true, decide_true, decide_false,
    Bool.not_true, Bool.false_and, Bool.and_self, Bool.and_false, Bool.false_eq_true, if_false, if_true, Nat.lt_irrefl]

end checks

theorem sourceDecision_clauses {s : State} {c : Candidate} (pos : Nat) (h25 : c.source < 25) (hi : c.invalid = false) :
    let f := s.cget TRG_ARM_F_F + s.cget (TRG_SRC_PRE_PRE c.source)
    (c.frame < f → s.decideOne c pos = (s.cbump TRG_CNT1_EARLY, { source := c.source, outcome := 2, inc := c.inc })) ∧
    (f ≤ c.frame → ∀ r, tget s.trg.rearm c.source none = some r → 0 < s.cget (TRG_SRC_REARM_REARM c.source) →
      c.frame ≤ r.frame + s.cget (TRG_SRC_REARM_REARM c.source) → s.con (TRG_SRC_REARM_MERGE c.source) = false →
      s.decideOne c pos = (s.cbump TRG_CNT1_REARM, { source := c.source, outcome := 3, inc := c.inc })) ∧
    (f ≤ c.frame → s.cget (TRG_SRC_REARM_REARM c.source) = 0 → s.cget TRG_CTRL_MODE = 0 →
      (s.decideOne c pos).2.outcome = 8 ∧ (s.decideOne c pos).1.trg.cores = s.trg.cores ∧
      (s.decideOne c pos).1.cget TRG_CNT0_ACCEPT = min (s.cget TRG_CNT0_ACCEPT + 1) 65535) := by
  refine ⟨decideOne_early pos hi h25, fun hf r hr h0 hle hm => decideOne_rearm pos hi h25 hf hr h0 hle hm, fun hf h0 hm => ?_⟩
  rw [decideOne_stream pos hi h25 hf h0 hm]
  exact ⟨rfl, rfl, State.cget_cbump_sat ..⟩

/-! ### A request at its decision point -/

theorem State.takeRequests_snd (s : State) :
    s.takeRequests.2 = (s.modTrg fun t => { t with fifo := s.trg.fifo.drop 4 }).cset TRG_REQQ_FILL (s.trg.fifo.drop 4).length := rfl

/-- The state requests are decided in where the frame is not evaluated. -/
def State.requestsTaken (s : State) : State := s.decisionStart.takeRequests.2

theorem State.requestsTaken_cget {s : State} {f : Fld}
    (h : f.key ≠ TRG_STAT_SRAM_CORR.key ∧ f.key ≠ TRG_STAT_SRAM_UNC.key ∧ f.key ≠ TRG_REQQ_FILL.key) : s.requestsTaken.cget f = s.cget
        f := by
  obtain ⟨h1, h2, h3⟩ := h
  rw [State.requestsTaken, State.takeRequests_snd, State.cget_cset_ne _ _ _ _ h3, State.modTrg_cget,
    State.decisionStart_cget ⟨h1, h2⟩]

/-- Four requests leave the FIFO; cores, re-arm records and the store stay. -/
theorem State.requestsTaken_facts (s : State) : s.requestsTaken.trg.fifo = s.trg.fifo.drop 4 ∧ s.requestsTaken.trg.cores = s.trg.cores ∧
    s.requestsTaken.firn = s.firn ∧ s.requestsTaken.tm = (s.toInst (3440 * 65536)).tm := by
  have hz : ∀ z : State, z.takeRequests.2.trg.fifo = z.trg.fifo.drop 4 ∧ z.takeRequests.2.trg.cores = z.trg.cores ∧
      z.takeRequests.2.firn = z.firn ∧ z.takeRequests.2.tm = z.tm := fun _ => ⟨rfl, rfl, rfl, rfl⟩
  obtain ⟨h1, h2, h3, h4⟩ := hz s.decisionStart
  have hd : s.decisionStart.trg = s.trg ∧ s.decisionStart.firn = s.firn ∧ s.decisionStart.tm = (s.toInst (3440 * 65536)).tm := by
    obtain ⟨x, hx⟩ := s.toInst_tmOnly (3440 * 65536)
    rw [State.decisionStart, State.trgUpsets_none, hx]
    exact ⟨rfl, rfl, rfl⟩
  obtain ⟨ht, hf, hm⟩ := hd
  exact ⟨h1.trans (by rw [ht]), h2.trans (by rw [ht]), h3.trans hf, h4.trans hm⟩

theorem State.requestCandidate_congr {s t : State} (hn : t.tm = s.tm) (hf : t.firn = s.firn)
    (hr : t.cget TWIN_STAT_ROLE = s.cget TWIN_STAT_ROLE) (ho : t.cget FRN_OLDEST_SLICE = s.cget FRN_OLDEST_SLICE) (q : Req) :
    t.requestCandidate q = s.requestCandidate q := by
  unfold State.requestCandidate State.twinStandby
  simp only [hn, hf, hr, ho]

theorem State.clamp_congr {s t : State} (hf : t.firn = s.firn) (hq : ∀ r, t.pinQuota r = s.pinQuota r) (c : Candidate) (first : Nat) :
    t.clamp c first = s.clamp c first := by
  have hr : t.retained = s.retained := by rw [State.retained, hf, State.retained]
  have hp : ∀ r, t.pinnedExtents r = s.pinnedExtents r := fun r => by
    have hx : ∀ x, t.extPinned x = s.extPinned x := fun x => by rw [State.extPinned, hf, State.extPinned]
    simp only [State.pinnedExtents, hf, hx]
  have hl : t.clampLimit = s.clampLimit := by
    unfold State.clampLimit
    simp only [hr, hp, hq]
  unfold State.clamp
  rw [hl]

/-- How a decision point without an evaluated frame ends. -/
theorem decisionEnd_facts (y : State) (g : TimeSt → TimeSt) (k : Nat) :
    let u := (y.modTm g).modTrg fun x => { x with decidedTick := some k, prim := none }
    u.trg.fifo = y.trg.fifo ∧ u.trg.cores = y.trg.cores ∧ u.firn = y.firn ∧ ∀ f, u.cget f = y.cget f := ⟨rfl, rfl, rfl, fun _ => rfl⟩

theorem State.toInst_firn (s : State) (i : Inst) : (s.toInst i).firn = s.firn := rfl

section request
variable {s : State} {q : Req} (h1 : s.tm.tick = s.trg.sums.tick + 2) (h2 : s.trg.decidedTick ≠ some s.trg.sums.tick)
  (h : s.con TRG_STAT_ARMED = false) (hf : s.trg.fifo = [q])
include h1 h2 h hf

/-- One request decided: what the decision leaves, with its answer queued. -/
theorem exec_decisionPoint_request : ∃ g y, exec (.decisionPoint 0 [] []) s = .next ((y.modTm g).modTrg fun x =>
      { x with decidedTick := some s.trg.sums.tick, prim := none }) ∧
    Uplinked (s.requestsTaken.decideOne ((s.toInst (3440 * 65536)).requestCandidate q) 0).1 y := by
  obtain ⟨g, he⟩ := exec_decisionPoint_idle h1 h2 (.inl h)
  have hq : s.decisionStart.takeRequests.1 = [q] := by
    obtain ⟨x, c, hs⟩ := s.decisionStart_same
    have ht : s.decisionStart.trg = s.trg := by rw [hs]
    show s.decisionStart.trg.fifo.take 4 = [q]
    rw [ht, hf]
    rfl
  have hc : s.requestsTaken.requestCandidate q = (s.toInst (3440 * 65536)).requestCandidate q := by
    obtain ⟨-, -, hfirn, htm⟩ := s.requestsTaken_facts
    refine State.requestCandidate_congr htm (hfirn.trans (s.toInst_firn _).symm) ?_ ?_ q <;>
      rw [State.toInst_cget, State.requestsTaken_cget (by decide)]
  rw [hq] at he
  refine ⟨g, _, he, ?_⟩
  rw [← hc]
  exact (Uplinked.refl _).respond _ _ _

theorem request_refused {f : Fld} {o : Nat} {inc : Bool} (hw : f.width = 8) (hfk : f.key < 0x600000 * 64)
    (hfn : f.key ≠ TRG_STAT_SRAM_CORR.key ∧ f.key ≠ TRG_STAT_SRAM_UNC.key ∧ f.key ≠ TRG_REQQ_FILL.key)
    (hd : s.requestsTaken.decideOne ((s.toInst (3440 * 65536)).requestCandidate q) 0 =
      (s.requestsTaken.cbump f, { source := 25, outcome := o, inc := inc })) :
    ∃ u, exec (.decisionPoint 0 [] []) s = .next u ∧ u.trg.fifo = [] ∧ u.cget f = min (s.cget f + 1) 255 ∧
      u.trg.cores = s.trg.cores ∧ u.firn = s.firn := by
  obtain ⟨g, y, he, hy⟩ := exec_decisionPoint_request h1 h2 h hf
  rw [hd] at hy
  obtain ⟨hfifo, hcores, hfirn, -⟩ := s.requestsTaken_facts
  obtain ⟨e0, e1, e2, e3⟩ := decisionEnd_facts y g s.trg.sums.tick
  refine ⟨_, he, ?_, ?_, ?_, ?_⟩
  · rw [e0, hy.trg_eq, State.cbump, State.cadd, State.cset_trg, hfifo, hf]
    rfl
  · rw [e3, hy.regs f hfk, State.cget_cbump_sat, State.requestsTaken_cget hfn, hw]
    rfl
  · rw [e1, hy.trg_eq, State.cbump, State.cadd, State.cset_trg, hcores]
  · rw [e2, hy.firn_eq, State.cbump, State.cadd, State.cset_firn, hfirn]

theorem request_busy (hc : ((s.toInst (3440 * 65536)).requestCandidate q).invalid = false)
    (hg : ((s.toInst (3440 * 65536)).requestCandidate q).gone = false) (hb : ∀ k, k < 64 → s.core k ≠ none) :
    ∃ u, exec (.decisionPoint 0 [] []) s = .next u ∧
      u.cget TRG_CNT1_BUSY = min (s.cget TRG_CNT1_BUSY + 1) 255 ∧ u.cget TRG_STAT_BUSY_SEEN = 1 ∧ u.trg.cores = s.trg.cores ∧
      u.cget TRG_SERIAL_NEXT = s.cget TRG_SERIAL_NEXT := by
  obtain ⟨g, y, he, hy⟩ := exec_decisionPoint_request h1 h2 h hf
  obtain ⟨hfifo, hcores, hfirn, -⟩ := s.requestsTaken_facts
  have hk := fun f h => State.requestsTaken_cget (s := s) (f := f) h
  rw [decideOne_busy 0 hc rfl hg fun k hk => by rw [State.core, hcores]; exact hb k hk] at hy
  generalize s.requestsTaken = z at *
  generalize (List.range 64).all (fun k => (z.pin k).active) = b at hy
  have hw : ∀ f : Fld, f.key ≠ FRN_EVT_PIN_REFUSED.key → (((z.cbump TRG_CNT1_BUSY).cset TRG_STAT_BUSY_SEEN 1).when b fun z =>
      z.cbump FRN_EVT_PIN_REFUSED).cget f = ((z.cbump TRG_CNT1_BUSY).cset TRG_STAT_BUSY_SEEN 1).cget f := fun f hf => by
    cases b
    · rfl
    · exact State.cget_cbump_ne _ _ _ hf
  have hwc : (((z.cbump TRG_CNT1_BUSY).cset TRG_STAT_BUSY_SEEN 1).when b fun z => z.cbump FRN_EVT_PIN_REFUSED).trg.cores = z.trg.cores
      := by
    cases b <;> rfl
  obtain ⟨-, e1, -, e3⟩ := decisionEnd_facts y g s.trg.sums.tick
  refine ⟨_, he, ?_, ?_, ?_, ?_⟩
  · rw [e3, hy.regs _ (by decide), hw _ (by decide), State.cget_cset_ne _ _ _ _ (by decide), State.cget_cbump_sat, hk _ (by decide)]
    rfl
  · rw [e3, hy.regs _ (by decide), hw _ (by decide), State.cget_cset_of_lt _ (by decide)]
  · rw [e1, hy.trg_eq, hwc, hcores]
  · rw [e3, hy.regs _ (by decide), hw _ (by decide), State.cget_cset_ne _ _ _ _ (by decide), State.cget_cbump_ne _ _ _ (by decide),
      hk _ (by decide)]

end request

/-! ### A core accepted -/

/-- Setting a core touches its own registers and the count in flight. -/
theorem State.setCore_cget {s : State} {k : Nat} {n : Core} {f : Fld} (h : f.key < 0x500800 * 64 ∧ f.key ≠ TRG_STAT_INFLIGHT.key) :
    (s.setCore k n).cget f = s.cget f := by
  obtain ⟨hlt, hne⟩ := h
  have hn : ∀ (z : State) (g : Fld) (v : Nat), 0x500800 ≤ g.reg → (z.cset g v).cget f = z.cget f := fun z g v hg =>
    State.cget_cset_ne _ _ _ _ fun e => by
      have : g.key = g.reg * 64 + g.lo := rfl
      omega
  unfold State.setCore State.showInflight
  dsimp only
  rw [State.cget_cset_ne _ _ _ _ hne, hn _ (TRG_CORE_LAST_F k) _ (by simp only [TRG_CORE_LAST_F]; omega),
    hn _ (TRG_CORE_SER_SERIAL k) _ (by simp only [TRG_CORE_SER_SERIAL]; omega),
    hn _ (TRG_CORE_STAT_MERGES k) _ (by simp only [TRG_CORE_STAT_MERGES]; omega),
    hn _ (TRG_CORE_STAT_SOURCE k) _ (by simp only [TRG_CORE_STAT_SOURCE]; omega),
    hn _ (TRG_CORE_STAT_PARTIAL k) _ (by simp only [TRG_CORE_STAT_PARTIAL]; omega),
    hn _ (TRG_CORE_STAT_CLAMPED k) _ (by simp only [TRG_CORE_STAT_CLAMPED]; omega),
    hn _ (TRG_CORE_STAT_TRUNC k) _ (by simp only [TRG_CORE_STAT_TRUNC]; omega),
    hn _ (TRG_CORE_STAT_READING k) _ (by simp only [TRG_CORE_STAT_READING]; omega),
    hn _ (TRG_CORE_STAT_ACTIVE k) _ (by simp only [TRG_CORE_STAT_ACTIVE]; omega), State.modTrg_cget]

theorem State.setCore_active (s : State) (k : Nat) (n : Core) : (s.setCore k n).cget (TRG_CORE_STAT_ACTIVE k) = 1 := by
  unfold State.setCore State.showInflight
  dsimp only
  rw [State.cget_cset_ne _ _ _ _ (by simp only [Fld.key, TRG_CORE_STAT_ACTIVE, TRG_STAT_INFLIGHT]; omega),
    State.cget_cset_ne _ _ _ _ (by simp only [Fld.key, TRG_CORE_STAT_ACTIVE, TRG_CORE_LAST_F]; omega),
    State.cget_cset_ne _ _ _ _ (by simp only [Fld.key, TRG_CORE_STAT_ACTIVE, TRG_CORE_SER_SERIAL]; omega),
    State.cget_cset_ne _ _ _ _ (by simp only [Fld.key, TRG_CORE_STAT_ACTIVE, TRG_CORE_STAT_MERGES]; omega),
    State.cget_cset_ne _ _ _ _ (by simp only [Fld.key, TRG_CORE_STAT_ACTIVE, TRG_CORE_STAT_SOURCE]; omega),
    State.cget_cset_ne _ _ _ _ (by simp only [Fld.key, TRG_CORE_STAT_ACTIVE, TRG_CORE_STAT_PARTIAL]; omega),
    State.cget_cset_ne _ _ _ _ (by simp only [Fld.key, TRG_CORE_STAT_ACTIVE, TRG_CORE_STAT_CLAMPED]; omega),
    State.cget_cset_ne _ _ _ _ (by simp only [Fld.key, TRG_CORE_STAT_ACTIVE, TRG_CORE_STAT_TRUNC]; omega),
    State.cget_cset_ne _ _ _ _ (by simp only [Fld.key, TRG_CORE_STAT_ACTIVE, TRG_CORE_STAT_READING]; omega)]
  exact State.cget_cset_of_lt _ (by simp [TRG_CORE_STAT_ACTIVE])

theorem State.setCore_core (s : State) (k : Nat) (n : Core) : (s.setCore k n).core k = some n ∧ (s.setCore k n).firn = s.firn := by
  have h : (s.setCore k n).trg.cores = tset s.trg.cores k none (some n) := rfl
  rw [State.core, h, tget_tset_same]
  exact ⟨rfl, rfl⟩

theorem State.setPin_pin (s : State) (k first last : Nat) : ((s.setPin k first last).pin k).active = true ∧
    ((s.setPin k first last).pin k).first = first ∧ ((s.setPin k first last).pin k).last = last := by
  unfold State.setPin
  dsimp only
  rw [State.pin, State.refreshEdges_firn]
  have h : ∀ (z : State) (g : Pin → Pin) (g' : IxEntry → IxEntry),
      tget ((z.modPin k g).modRange first last g').firn.pins k {} = g (z.pin k) := fun _ _ _ => tget_tset_same ..
  rw [h]
  exact ⟨rfl, rfl, rfl⟩

theorem State.setPin_cget {s : State} {k first last : Nat} {f : Fld} (h : ¬ edgeKey f.key) :
    (s.setPin k first last).cget f = s.cget f := by
  unfold State.setPin
  dsimp only
  rw [State.refreshEdges_cget _ h]
  rfl

/-- An accepted request: its core, its pin, the next serial and the count. -/
theorem State.acceptCore_facts (s : State) {c : Candidate} (h25 : c.source = 25) (k pos : Nat) :
    let u := (s.acceptCore c k pos).1
    ∃ n, u.core k = some n ∧ n.serial = s.cget TRG_SERIAL_NEXT ∧ n.source = 25 ∧ n.first = c.first ∧
      n.last = (s.clamp c c.first).1 ∧ n.clamped = (s.clamp c c.first).2 ∧ n.portFirst = c.portFirst ∧ n.portLast = c.portLast ∧
      (u.pin k).active = true ∧ (u.pin k).first = sliceOf c.first ∧ (u.pin k).last = sliceOf n.last ∧
      u.cget TRG_CNT0_ACCEPT = min (s.cget TRG_CNT0_ACCEPT + 1) 65535 ∧
      u.cget TRG_SERIAL_NEXT = (if n.serial = 0xFFFFFFFF then 1 else n.serial + 1) ∧ u.con (TRG_CORE_STAT_ACTIVE k) = true := by
  intro u
  have hser := s.cget_lt TRG_SERIAL_NEXT
  change s.cget TRG_SERIAL_NEXT < 2 ^ 32 at hser
  have hu : u = (s.acceptCore c k pos).1 := rfl
  clear_value u
  unfold State.acceptCore at hu
  extract_lets l serial s1 s2 part n s3 s4 at hu
  have h4 : s4 = s3 := if_pos h25
  obtain ⟨hp1, hp2, hp3⟩ := s1.setPin_pin k (sliceOf c.first) (sliceOf l.1)
  have h3 : u = ((s2.setCore k n).cbump TRG_CNT0_ACCEPT).when l.2 fun z => z.cbump TRG_CNT2_CLAMPED := hu.trans h4
  have hcget : ∀ f : Fld, f.key ≠ TRG_CNT2_CLAMPED.key → u.cget f = ((s2.setCore k n).cbump TRG_CNT0_ACCEPT).cget f := fun f hf => by
    rw [h3]
    cases l.2
    · rfl
    · exact State.cget_cbump_ne _ _ _ hf
  have hfirn : u.firn = s2.firn ∧ u.core k = some n := by
    obtain ⟨hc1, hc2⟩ := s2.setCore_core k n
    rw [h3]
    generalize s2.setCore k n = w at *
    cases l.2 <;> exact ⟨hc2, hc1⟩
  have hpin : u.pin k = s2.pin k := by rw [State.pin, hfirn.1, State.pin]
  have hs1 : s1.cget TRG_SERIAL_NEXT = if serial = 0xFFFFFFFF then 1 else serial + 1 := State.cget_cset_of_lt _ (by
    show (if s.cget TRG_SERIAL_NEXT = 0xFFFFFFFF then 1 else s.cget TRG_SERIAL_NEXT + 1) < 2 ^ 32
    split <;> omega)
  have hs1a : s1.cget TRG_CNT0_ACCEPT = s.cget TRG_CNT0_ACCEPT := State.cget_cset_ne _ _ _ _ (by decide)
  have he0 : ¬ edgeKey TRG_CNT0_ACCEPT.key := by simp only [edgeKey, Fld.key, TRG_CNT0_ACCEPT, FRN_OLDEST_SLICE, FRN_EDGE_SLICE]; omega
  have he1 : ¬ edgeKey TRG_SERIAL_NEXT.key := by simp only [edgeKey, Fld.key, TRG_SERIAL_NEXT, FRN_OLDEST_SLICE, FRN_EDGE_SLICE]; omega
  refine ⟨n, hfirn.2, rfl, h25, rfl, rfl, rfl, rfl, rfl, by rw [hpin]; exact hp1, by rw [hpin]; exact hp2, by rw [hpin]; exact hp3, ?_,
      ?_, ?_⟩
  · rw [hcget _ (by decide), State.cget_cbump_sat, State.setCore_cget (by decide), State.setPin_cget he0, hs1a]
    rfl
  · rw [hcget _ (by decide), State.cget_cbump_ne _ _ _ (by decide), State.setCore_cget (by decide), State.setPin_cget he1, hs1]
  · refine State.con_eq_true.2 ?_
    rw [hcget _ (by simp only [Fld.key, TRG_CORE_STAT_ACTIVE, TRG_CNT2_CLAMPED]; omega),
      State.cget_cbump_ne _ _ _ (by simp only [Fld.key, TRG_CORE_STAT_ACTIVE, TRG_CNT0_ACCEPT]; omega), State.setCore_active]
    decide

theorem requestDecision_clauses {s : State} {q : Req} (h1 : s.tm.tick = s.trg.sums.tick + 2)
    (h2 : s.trg.decidedTick ≠ some s.trg.sums.tick)
    (h : s.con TRG_STAT_ARMED = false) (hf : s.trg.fifo = [q]) :
    let c := (s.toInst (3440 * 65536)).requestCandidate q
    (c.invalid = true → ∃ u, exec (.decisionPoint 0 [] []) s = .next u ∧ u.trg.fifo = [] ∧
      u.cget TRG_CNT2_BADREQ = min (s.cget TRG_CNT2_BADREQ + 1) 255 ∧ u.trg.cores = s.trg.cores ∧ u.firn = s.firn) ∧
    (c.invalid = false → c.gone = true → ∃ u, exec (.decisionPoint 0 [] []) s = .next u ∧ u.trg.fifo = [] ∧
      u.cget TRG_CNT1_GONE = min (s.cget TRG_CNT1_GONE + 1) 255 ∧ u.trg.cores = s.trg.cores ∧ u.firn = s.firn) ∧
    (c.invalid = false → c.gone = false → (∀ k, k < 64 → s.core k ≠ none) → ∃ u, exec (.decisionPoint 0 [] []) s = .next u ∧
      u.cget TRG_CNT1_BUSY = min (s.cget TRG_CNT1_BUSY + 1) 255 ∧ u.cget TRG_STAT_BUSY_SEEN = 1 ∧ u.trg.cores = s.trg.cores ∧
      u.cget TRG_SERIAL_NEXT = s.cget TRG_SERIAL_NEXT) ∧
    (c.invalid = false → c.gone = false → ∀ k, k < 64 → s.core k = none → (∀ j, j < k → s.core j ≠ none) →
      ∃ u n, exec (.decisionPoint 0 [] []) s = .next u ∧ u.core k = some n ∧ n.serial = s.cget TRG_SERIAL_NEXT ∧ n.source = 25 ∧
        n.first = c.first ∧ n.last = (s.clamp c c.first).1 ∧ n.clamped = (s.clamp c c.first).2 ∧ n.portFirst = c.portFirst ∧
        n.portLast = c.portLast ∧ (u.pin k).active = true ∧ (u.pin k).first = sliceOf c.first ∧ (u.pin k).last = sliceOf n.last ∧
        u.cget TRG_CNT0_ACCEPT = min (s.cget TRG_CNT0_ACCEPT + 1) 65535 ∧
        u.cget TRG_SERIAL_NEXT = (if n.serial = 0xFFFFFFFF then 1 else n.serial + 1) ∧ u.con (TRG_CORE_STAT_ACTIVE k) = true) := by
  intro c
  have h25 : c.source = 25 := rfl
  refine ⟨fun hi => request_refused h1 h2 h hf rfl (by decide) (by decide) (decideOne_invalid 0 hi),
    fun hi hg => request_refused h1 h2 h hf rfl (by decide) (by decide) (decideOne_gone 0 hi h25 hg),
    fun hi hg hb => request_busy h1 h2 h hf hi hg hb, fun hi hg k hk hn hb => ?_⟩
  obtain ⟨g, y, he, hy⟩ := exec_decisionPoint_request h1 h2 h hf
  obtain ⟨-, hcores, hfirn, -⟩ := s.requestsTaken_facts
  have hreg := fun f h => State.requestsTaken_cget (s := s) (f := f) h
  have hcl : s.requestsTaken.clamp c c.first = s.clamp c c.first := by
    refine State.clamp_congr hfirn (fun r => ?_) c c.first
    have hs : s.requestsTaken.scratch r = s.scratch r := State.scratch_congr (hreg _ (by
      simp only [Fld.key, FRR_CFG_SCRATCH, TRG_STAT_SRAM_CORR, TRG_STAT_SRAM_UNC, TRG_REQQ_FILL]
      omega))
    rw [State.pinQuota, hs, hreg _ (by decide), State.pinQuota]
  have hcore : ∀ j, s.requestsTaken.core j = s.core j := fun j => by rw [State.core, hcores, State.core]
  have hd : s.requestsTaken.decideOne c 0 = _ := decideOne_accept 0 hi h25 hg hk ((hcore k).trans hn) fun j hj => by
    rw [hcore]
    exact hb j hj
  obtain ⟨n, a1, a2, a3, a4, a5, a6, a7, a8, a9, a10, a11, a12, a13, a14⟩ := s.requestsTaken.acceptCore_facts h25 k 0
  rw [hd] at hy
  rw [hcl] at a5 a6
  rw [hreg _ (by decide)] at a2 a12
  generalize (s.requestsTaken.acceptCore c k 0).1 = z at *
  obtain ⟨-, e1, e2, e3⟩ := decisionEnd_facts y g s.trg.sums.tick
  generalize ((y.modTm g).modTrg fun x => { x with decidedTick := some s.trg.sums.tick, prim := none }) = u at *
  have huc : u.core k = z.core k := by rw [State.core, e1, hy.trg_eq, State.core]
  have hup : u.pin k = z.pin k := by rw [State.pin, e2, hy.firn_eq, State.pin]
  have hur : ∀ f : Fld, f.key < 0x600000 * 64 → u.cget f = z.cget f := fun f hf => (e3 f).trans (hy.regs f hf)
  refine ⟨u, n, he, huc.trans a1, a2, a3, a4, a5, a6, a7, a8, by rw [hup]; exact a9, by rw [hup]; exact a10, by rw [hup]; exact a11,
    (hur _ (by decide)).trans a12, (hur _ (by decide)).trans a13, ?_⟩
  rw [State.con, hur _ (by simp only [Fld.key, TRG_CORE_STAT_ACTIVE]; omega)]
  exact a14

/-- Settles O35: requests wait or are answered, and the first check that applies gives the outcome. -/
theorem theFirstCheckGivesTheOutcome : Obligations.TheFirstCheckGivesTheOutcome :=
  ⟨fun _ _ hl => requestArrival_clauses hl, fun _ _ h1 h2 h hf => requestDecision_clauses h1 h2 h hf,
    fun _ _ pos h25 hi => sourceDecision_clauses pos h25 hi⟩

end Sys2Proof.Machine

/-! ## Transmit lanes -/

namespace Sys2Proof.Machine

set_option Elab.async false

/-! ### Queues of a group -/

theorem State.setQueue_queue (s : State) (g q : Nat) (x : Queue) :
    (s.setQueue g q x).upl = { s.upl with queues := tset s.upl.queues (g * 5 + q) {} x } := by
  unfold State.setQueue
  dsimp only
  unfold State.when
  split <;> rfl

theorem State.setQueue_queue_same (s : State) (g q : Nat) (x : Queue) : (s.setQueue g q x).queue g q = x := by
  rw [State.queue, State.setQueue_queue]
  exact tget_tset_same ..

theorem State.setQueue_queue_ne (s : State) {g q g' q' : Nat} (x : Queue) (h : g' * 5 + q' ≠ g * 5 + q) :
    (s.setQueue g q x).queue g' q' = s.queue g' q' := by
  rw [State.queue, State.setQueue_queue]
  exact tget_tset_ne _ _ _ _ h

theorem State.enqueue_queue_ne (s : State) {g q g' q' : Nat} (x : Pkt) (h : g' * 5 + q' ≠ g * 5 + q) :
    (s.enqueue g q x).queue g' q' = s.queue g' q' := by
  unfold State.enqueue
  dsimp only
  split
  · rfl
  · split
    · rfl
    · exact s.setQueue_queue_ne _ h

/-- An ALARM is queued on no group that does not run, and changes no group's state. -/
theorem State.alarmAt_queue_idle (s : State) (a : Nat) {g : Nat} (hg : s.cget (UG_STAT_STATE g) ≠ 1) {q : Nat} (hq : q < 5) :
    (s.alarmAt a).queue g q = s.queue g q ∧ (s.alarmAt a).cget (UG_STAT_STATE g) = s.cget (UG_STAT_STATE g) := by
  have hnq : ¬ queueKey (UG_STAT_STATE g).key := by simp only [queueKey, Fld.key, UG_STAT_STATE]; omega
  unfold State.alarmAt
  extract_lets n t ws s1
  have h0 : s1.queue g q = s.queue g q ∧ s1.cget (UG_STAT_STATE g) = s.cget (UG_STAT_STATE g) := ⟨rfl, rfl⟩
  refine List.foldlRecOn (motive := fun z : State => z.queue g q = s.queue g q ∧ z.cget (UG_STAT_STATE g) = s.cget (UG_STAT_STATE g)) _ _
    h0 fun z hz k hk => ?_
  obtain ⟨h1, h2⟩ := hz
  have hk4 := List.mem_range.1 hk
  split
  case isFalse => exact ⟨h1, h2⟩
  case isTrue hr =>
    have hne : k ≠ g := fun e => hg (by
      rw [← h2, ← e]
      simpa [State.groupRun] using hr)
    have hen : ∀ x, (z.enqueue k 0 x).queue g q = s.queue g q ∧ (z.enqueue k 0 x).cget (UG_STAT_STATE g) = s.cget (UG_STAT_STATE g) :=
      fun x => ⟨(z.enqueue_queue_ne x (by omega)).trans h1, ((z.enqueue_queued x hk4 (by decide)).regs _ hnq).trans h2⟩
    split <;> exact hen _

/-! ### Lanes of a group -/

/-- Keys of the registers the lanes of the groups are read from. -/
def laneKey (k : Nat) : Prop := k = UPL_STAT_OUT.key ∨ 0x600010 * 64 ≤ k ∧ k < 0x600020 * 64

theorem State.laneOut_congr {s t : State} (h : ∀ f : Fld, laneKey f.key → t.cget f = s.cget f) (l : Nat) : t.laneOut l = s.laneOut l := by
  rw [State.laneOut, h _ (.inl rfl), State.laneOut]

theorem State.laneGroup_congr {s t : State} (h : ∀ f : Fld, laneKey f.key → t.cget f = s.cget f) {l : Nat} (hl : l < 32) :
    t.laneGroup l = s.laneGroup l := by
  unfold State.laneGroup State.con
  rw [h _ (.inr (by simp only [Fld.key, UPL_LMAP_EN]; omega)), h _ (.inr (by simp only [Fld.key, UPL_LMAP_GROUP]; omega))]

theorem State.groupLanes_congr {s t : State} (h : ∀ f : Fld, laneKey f.key → t.cget f = s.cget f) (g : Nat) :
    t.groupLanes g = s.groupLanes g := by
  unfold State.groupLanes
  refine List.filter_congr fun l hl => ?_
  rw [State.laneGroup_congr h (List.mem_range.1 hl), State.laneOut_congr h]

theorem State.groupLanes_length_lt (s : State) (g : Nat) : (s.groupLanes g).length < 2 ^ 6 :=
  Nat.lt_of_le_of_lt (List.length_filter_le _ _) (by simp)

theorem State.laneGroup_lt {s : State} {l g : Nat} (h : s.laneGroup l = some g) : g < 4 := by
  unfold State.laneGroup at h
  split at h
  · rw [← Option.some.inj h]
    exact s.cget_lt (UPL_LMAP_GROUP (l / 8) (l % 8))
  · cases h

theorem State.mem_groupLanes {s : State} {l g : Nat} (hl : l < 32) : l ∈ s.groupLanes g ↔ s.laneGroup l = some g ∧ s.laneOut l = false := by
  simp [State.groupLanes, hl]

/-! ### Regrouping -/

/-- Flushing the five queues of group `g` empties them. -/
theorem State.flushAll_facts (s : State) {g : Nat} (hg : g < 4) : Queued s ((List.range 5).foldl (fun z q => z.flushQueue g q) s) ∧
    ∀ q, q < 5 → (((List.range 5).foldl (fun z q => z.flushQueue g q) s).queue g q).pkts = [] := by
  refine ⟨(Queued.refl s).foldl _ _ fun z q hq hz => hz.trans (z.setQueue_queued _ hg (List.mem_range.1 hq)), fun q hq => ?_⟩
  obtain ⟨z, -, hz⟩ := State.foldl_at (fun y => y.queue g q) (fun z q => z.flushQueue g q) (List.nodup_range (n := 5)) (List.mem_range.2 hq)
    (fun y p _ hp => y.setQueue_queue_ne _ (by omega)) s
  rw [hz]
  exact congrArg Queue.pkts (z.setQueue_queue_same ..)

section regroup
variable (s : State) {g : Nat} (hg : g < 4)
include hg

/-- What regrouping leaves: other registers, the count of lanes, the group's state, and empty queues where it goes DOWN. -/
theorem State.regroup_facts :
    (∃ c q, s.regroup g = { s with creg := c, upl := { s.upl with queues := q } }) ∧
    (∀ f : Fld, ¬ queueKey f.key → f.key ≠ (UG_STAT_LANES g).key → f.key ≠ (UG_STAT_STATE g).key → (s.regroup g).cget f = s.cget f) ∧
    (s.regroup g).cget (UG_STAT_LANES g) = (s.groupLanes g).length ∧
    (s.cget (UG_STAT_STATE g) = 1 → s.groupLanes g = [] → (s.regroup g).cget (UG_STAT_STATE g) = 2 ∧
      ∀ q, q < 5 → ((s.regroup g).queue g q).pkts = []) ∧
    (s.cget (UG_STAT_STATE g) = 1 → s.groupLanes g ≠ [] → (s.regroup g).cget (UG_STAT_STATE g) = 1) ∧
    (s.cget (UG_STAT_STATE g) = 2 → s.groupLanes g ≠ [] → (s.regroup g).cget (UG_STAT_STATE g) = 1) := by
  have hls : (UG_STAT_LANES g).key ≠ (UG_STAT_STATE g).key := by simp only [Fld.key, UG_STAT_LANES, UG_STAT_STATE]; omega
  have hql : ¬ queueKey (UG_STAT_LANES g).key := by simp only [queueKey, Fld.key, UG_STAT_LANES]; omega
  have hqs : ¬ queueKey (UG_STAT_STATE g).key := by simp only [queueKey, Fld.key, UG_STAT_STATE]; omega
  have hl1 : ∀ z : State, (z.cset (UG_STAT_LANES g) (s.groupLanes g).length).cget (UG_STAT_LANES g) = (s.groupLanes g).length := fun z =>
    State.cget_cset_of_lt _ (s.groupLanes_length_lt g)
  have hs1 : ∀ z : State, ∀ v < 4, (z.cset (UG_STAT_STATE g) v).cget (UG_STAT_STATE g) = v := fun z v hv => State.cget_cset_of_lt _ hv
  have hlen : (s.groupLanes g).length = 0 ↔ s.groupLanes g = [] := List.length_eq_zero_iff
  unfold State.regroup
  dsimp only
  by_cases h1 : s.cget (UG_STAT_STATE g) = 1 ∧ (s.groupLanes g).length = 0
  · rw [if_pos h1]
    obtain ⟨hq, hp⟩ := State.flushAll_facts ((s.cset (UG_STAT_LANES g) (s.groupLanes g).length).cset (UG_STAT_STATE g) 2) hg
    refine ⟨⟨_, _, hq.same⟩, fun f hf h h' => ?_, ?_, fun _ _ => ⟨?_, hp⟩, fun _ h => absurd (hlen.1 h1.2) h, fun h => by omega⟩
    · rw [hq.regs f hf, State.cget_cset_ne _ _ _ _ h', State.cget_cset_ne _ _ _ _ h]
    · rw [hq.regs _ hql, State.cget_cset_ne _ _ _ _ hls, hl1]
    · rw [hq.regs _ hqs, hs1 _ 2 (by decide)]
  · rw [if_neg h1]
    by_cases h2 : s.cget (UG_STAT_STATE g) = 2 ∧ 0 < (s.groupLanes g).length
    · rw [if_pos h2]
      refine ⟨⟨_, _, rfl⟩, fun f hf h h' => ?_, ?_, fun h h' => absurd ⟨h, hlen.2 h'⟩ h1, fun _ _ => hs1 _ 1 (by decide),
        fun _ _ => hs1 _ 1 (by decide)⟩
      · rw [State.cget_cset_ne _ _ _ _ h', State.cget_cset_ne _ _ _ _ h]
      · rw [State.cget_cset_ne _ _ _ _ hls, hl1]
    · rw [if_neg h2]
      refine ⟨⟨_, _, rfl⟩, fun f hf h h' => State.cget_cset_ne _ _ _ _ h, hl1 _, fun h h' => absurd ⟨h, hlen.2 h'⟩ h1, fun h _ => ?_,
        fun h h' => absurd ⟨h, Nat.pos_of_ne_zero fun e => h' (hlen.1 e)⟩ h2⟩
      rw [State.cget_cset_ne _ _ _ _ hls.symm, h]

end regroup

/-! ### A lane leaves and returns -/

theorem bitAt_setBit {x l : Nat} (hx : x < 2 ^ 32) (hl : l < 32) : bitAt (Nat.lor x (2 ^ l) % 2 ^ 32) l = true := by
  have hlt : Nat.lor x (2 ^ l) < 2 ^ 32 := Nat.or_lt_two_pow hx (Nat.pow_lt_pow_right (by decide) hl)
  have h : (x ||| 2 ^ l).testBit l = true := by simp [Nat.testBit_or]
  rw [Nat.mod_eq_of_lt hlt]
  rw [Nat.testBit_eq_decide_div_mod_eq] at h
  simpa [bitAt] using h

theorem bitAt_clearBit {x l : Nat} (hx : x < 2 ^ 32) (h : bitAt x l = true) : bitAt ((x - 2 ^ l) % 2 ^ 32) l = false := by
  rw [Nat.mod_eq_of_lt (Nat.lt_of_le_of_lt (Nat.sub_le _ _) hx)]
  have hd : (x - 2 ^ l) / 2 ^ l = x / 2 ^ l - 1 := by simpa using Nat.sub_mul_div x (2 ^ l) 1
  simp only [bitAt, hd, beq_iff_eq, beq_eq_false_iff_ne] at h ⊢
  omega

theorem State.raise_queue_idle {s : State} {f : Fld} {g : Nat} (hf : (UG_STAT_STATE g).key ≠ f.key) (hg : s.cget (UG_STAT_STATE g) ≠ 1)
    {q : Nat} (hq : q < 5) : (s.raise f).queue g q = s.queue g q := by
  unfold State.raise
  split
  · rfl
  · exact ((s.cset f 1).alarmAt_queue_idle _ (by rw [State.cget_cset_ne _ _ _ _ hf]; exact hg) hq).1

theorem State.raise_lanes (s : State) (f : Fld) : (s.raise f).upl.leaving = s.upl.leaving ∧ (s.raise f).upl.returning = s.upl.returning := by
  unfold State.raise
  split
  · exact ⟨rfl, rfl⟩
  · unfold State.alarm
    rw [((s.cset f 1).alarmAt_queued _).same]
    exact ⟨rfl, rfl⟩

theorem not_queueKey_of_laneKey {k : Nat} (h : laneKey k) : ¬ queueKey k := by
  simp only [laneKey, queueKey, Fld.key, UPL_STAT_OUT] at h ⊢
  omega

section lanes
variable {s : State} {l g : Nat} (hg : s.laneGroup l = some g) (hl : l < 32)
include hg hl

/-- A lane taken out of its group, or put back. -/
theorem State.setOut_laneGroup (v : Nat) : (s.cset UPL_STAT_OUT v).laneGroup l = some g := by
  rw [← hg]
  unfold State.laneGroup State.con
  rw [State.cget_cset_ne _ _ _ _ (by simp only [Fld.key, UPL_LMAP_EN, UPL_STAT_OUT]; omega),
    State.cget_cset_ne _ _ _ _ (by simp only [Fld.key, UPL_LMAP_GROUP, UPL_STAT_OUT]; omega)]

theorem State.loseLane_facts :
    let u := s.loseLane l
    u.laneOut l = true ∧ u.cget (UG_STAT_LANES g) = (u.groupLanes g).length ∧ l ∉ u.groupLanes g ∧
    u.con (UG_STAT_LANE_LOST g) = true ∧ u.upl.leaving = s.upl.leaving ∧
    (s.cget (UG_STAT_STATE g) = 1 → u.groupLanes g = [] → u.cget (UG_STAT_STATE g) = 2 ∧ ∀ q, q < 5 → (u.queue g q).pkts = []) ∧
    (u.groupLanes g ≠ [] → s.cget (UG_STAT_STATE g) = 1 → u.cget (UG_STAT_STATE g) = 1) := by
  intro u
  have h4 := State.laneGroup_lt hg
  have hu : u = ((s.cset UPL_STAT_OUT (Nat.lor (s.cget UPL_STAT_OUT) (2 ^ l))).regroup g).raise (UG_STAT_LANE_LOST g) := by
    show s.loseLane l = _
    unfold State.loseLane
    simp only [hg]
  clear_value u
  have hz1 : (s.cset UPL_STAT_OUT (Nat.lor (s.cget UPL_STAT_OUT) (2 ^ l))).laneOut l = true := by
    rw [State.laneOut, State.cget_cset_same]
    exact bitAt_setBit (s.cget_lt UPL_STAT_OUT) hl
  have hz2 : (s.cset UPL_STAT_OUT (Nat.lor (s.cget UPL_STAT_OUT) (2 ^ l))).cget (UG_STAT_STATE g) = s.cget (UG_STAT_STATE g) :=
    State.cget_cset_ne _ _ _ _ (by simp only [Fld.key, UG_STAT_STATE, UPL_STAT_OUT]; omega)
  have hz3 : (s.cset UPL_STAT_OUT (Nat.lor (s.cget UPL_STAT_OUT) (2 ^ l))).upl.leaving = s.upl.leaving := rfl
  generalize s.cset UPL_STAT_OUT (Nat.lor (s.cget UPL_STAT_OUT) (2 ^ l)) = z at *
  obtain ⟨⟨c, qs, hsame⟩, hregs, hlanes, hdown, hstay, -⟩ := z.regroup_facts h4
  have hleave : (z.regroup g).upl.leaving = z.upl.leaving := by rw [hsame]
  have hraise : ∀ f : Fld, ¬ queueKey f.key → f.key ≠ (UG_STAT_LANE_LOST g).key → u.cget f = (z.regroup g).cget f := fun f hf hn => by
    rw [hu]
    exact State.raise_regs_of_not_queue _ _ _ hf hn
  have hlk : ∀ f : Fld, laneKey f.key → u.cget f = z.cget f := fun f hf => by
    rw [hraise f (not_queueKey_of_laneKey hf), hregs f (not_queueKey_of_laneKey hf)]
    all_goals simp only [laneKey, Fld.key, UPL_STAT_OUT, UG_STAT_LANES, UG_STAT_STATE, UG_STAT_LANE_LOST] at hf ⊢; omega
  have hgl := State.groupLanes_congr hlk g
  have hout : u.laneOut l = true := (State.laneOut_congr hlk l).trans hz1
  have hst : u.cget (UG_STAT_STATE g) = (z.regroup g).cget (UG_STAT_STATE g) := hraise _ (by
    simp only [queueKey, Fld.key, UG_STAT_STATE]
    omega) (by simp only [Fld.key, UG_STAT_STATE, UG_STAT_LANE_LOST]; omega)
  refine ⟨hout, ?_, fun h => ?_, ?_, ?_, fun h h' => ?_, fun h h' => ?_⟩
  · rw [hraise _ (by simp only [queueKey, Fld.key, UG_STAT_LANES]; omega) (by simp only [Fld.key, UG_STAT_LANES, UG_STAT_LANE_LOST]; omega),
      hlanes, hgl]
  · have := ((State.mem_groupLanes hl).1 h).2
    rw [hout] at this
    cases this
  · rw [hu]
    refine State.con_eq_true.2 ?_
    rw [State.raise_same _ rfl (by simp only [noteKey, Fld.key, UG_STAT_LANE_LOST]; omega)]
    decide
  · rw [hu, (State.raise_lanes _ _).1, hleave, hz3]
  · obtain ⟨h1, h2⟩ := hdown (hz2.trans h) (hgl ▸ h')
    refine ⟨hst.trans h1, fun q hq => ?_⟩
    rw [hu, State.raise_queue_idle (by simp only [Fld.key, UG_STAT_STATE, UG_STAT_LANE_LOST]; omega) (by rw [h1]; decide) hq]
    exact h2 q hq
  · exact hst.trans (hstay (hz2.trans h') (hgl ▸ h))

theorem State.returnLane_facts (ho : s.laneOut l = true) (hs : s.cget (UG_STAT_STATE g) = 2) :
    let u := s.returnLane l
    u.laneOut l = false ∧ l ∈ u.groupLanes g ∧ u.cget (UG_STAT_LANES g) = (u.groupLanes g).length ∧ u.cget (UG_STAT_STATE g) = 1 := by
  intro u
  have h4 := State.laneGroup_lt hg
  have hu : u = (s.cset UPL_STAT_OUT (s.cget UPL_STAT_OUT - 2 ^ l)).regroup g := by
    show s.returnLane l = _
    unfold State.returnLane
    simp only [hg, ho, if_true]
  clear_value u
  have hz1 : (s.cset UPL_STAT_OUT (s.cget UPL_STAT_OUT - 2 ^ l)).laneOut l = false := by
    rw [State.laneOut, State.cget_cset_same]
    exact bitAt_clearBit (s.cget_lt UPL_STAT_OUT) ho
  have hz2 : (s.cset UPL_STAT_OUT (s.cget UPL_STAT_OUT - 2 ^ l)).cget (UG_STAT_STATE g) = 2 := by
    rw [State.cget_cset_ne _ _ _ _ (by simp only [Fld.key, UG_STAT_STATE, UPL_STAT_OUT]; omega), hs]
  have hz3 := State.setOut_laneGroup hg hl (s.cget UPL_STAT_OUT - 2 ^ l)
  generalize s.cset UPL_STAT_OUT (s.cget UPL_STAT_OUT - 2 ^ l) = z at *
  obtain ⟨-, hregs, hlanes, -, -, hup⟩ := z.regroup_facts h4
  have hlk : ∀ f : Fld, laneKey f.key → u.cget f = z.cget f := fun f hf => by
    rw [hu, hregs f (not_queueKey_of_laneKey hf)]
    all_goals simp only [laneKey, Fld.key, UPL_STAT_OUT, UG_STAT_LANES, UG_STAT_STATE] at hf ⊢; omega
  have hgl := State.groupLanes_congr hlk g
  have hmem : l ∈ z.groupLanes g := (State.mem_groupLanes hl).2 ⟨hz3, hz1⟩
  refine ⟨(State.laneOut_congr hlk l).trans hz1, by rw [hgl]; exact hmem, ?_, ?_⟩
  · rw [hgl, hu, hlanes]
  · rw [hu]
    exact hup hz2 (List.ne_nil_of_mem hmem)

end lanes

/-! ### The lane-frame boundary -/

/-- `t` is `s` after groups have passed a boundary: versions, groups and lane frames may differ. -/
structure Passed (s t : State) : Prop where
  same : t = { s with creg := t.creg, upl := { s.upl with groups := t.upl.groups, laneSent := t.upl.laneSent, laneFrames := t.upl.laneFrames } }
  regs : ∀ f : Fld, (∀ g, f.key ≠ (UG_STAT_VER g).key ∧ f.key ≠ (UG_STAT_VER_CHG g).key) → t.cget f = s.cget f

namespace Passed
variable {s t u : State}

theorem refl (s : State) : Passed s s := ⟨rfl, fun _ _ => rfl⟩

theorem trans (h : Passed s t) (h' : Passed t u) : Passed s u := by
  refine ⟨?_, fun f hf => (h'.regs f hf).trans (h.regs f hf)⟩
  rw [h'.same, h.same]

theorem ver (h : Passed s t) (g v : Nat) : Passed s (t.cset (UG_STAT_VER g) v) := by
  refine ⟨?_, fun f hf => (State.cget_cset_ne _ _ _ _ (hf g).1).trans (h.regs f hf)⟩
  rw [h.same]
  rfl

theorem verChg (h : Passed s t) (g v : Nat) : Passed s (t.cset (UG_STAT_VER_CHG g) v) := by
  refine ⟨?_, fun f hf => (State.cget_cset_ne _ _ _ _ (hf g).2).trans (h.regs f hf)⟩
  rw [h.same]
  rfl

theorem modUpl (h : Passed s t) (x : Tab Group) (y : Tab LaneSent) (z : Tab (List Nat)) :
    Passed s (t.modUpl fun u => { u with groups := x, laneSent := y, laneFrames := z }) := by
  refine ⟨?_, h.regs⟩
  rw [h.same]
  rfl

theorem modGrp (h : Passed s t) (g : Nat) (f : Group → Group) : Passed s (t.modGrp g f) := h.modUpl _ _ _

theorem foldl (h : Passed s t) (g : State → Nat → State) (l : List Nat) (hg : ∀ z q, Passed s z → Passed s (g z q)) : Passed s (l.foldl g t) :=
  List.foldlRecOn (motive := fun z => Passed s z) l g h fun z hz q _ => hg z q hz

theorem groupTake (h : Passed s t) (g : Nat) : Passed s (t.groupTake g) := by
  unfold State.groupTake
  extract_lets x lanes cap all s1
  split
  · exact h
  · exact (h.modUpl t.upl.groups s1.upl.laneSent t.upl.laneFrames).modGrp _ _

theorem groupBoundary (h : Passed s t) (at_ g : Nat) : Passed s (t.groupBoundary at_ g) := by
  have h1 := h.groupTake g
  unfold State.groupBoundary
  dsimp only
  split
  · split
    · exact ((h1.ver _ _).verChg _ _).modGrp _ _
    · exact h1
  · exact h1

theorem groupOfs (h : Passed s t) (g : Nat) : Passed s (t.groupOfs g) := by
  unfold State.groupOfs
  exact h.modGrp _ _

theorem cget_eq (h : Passed s t) {f : Fld} (hf : f.lo % 64 ≠ 2 ∧ f.lo % 64 ≠ 12) : t.cget f = s.cget f :=
  h.regs f fun g => by
    have : f.key = f.reg * 64 + f.lo := rfl
    simp only [Fld.key, UG_STAT_VER, UG_STAT_VER_CHG] at this ⊢
    omega

theorem laneGroup_eq (h : Passed s t) {l : Nat} (hl : l < 32) : t.laneGroup l = s.laneGroup l :=
  State.laneGroup_congr (fun f hf => h.regs f fun g => by
    simp only [laneKey, Fld.key, UPL_STAT_OUT, UG_STAT_VER, UG_STAT_VER_CHG] at hf ⊢
    omega) hl

theorem laneOut_eq (h : Passed s t) (l : Nat) : t.laneOut l = s.laneOut l :=
  State.laneOut_congr (fun f hf => h.regs f fun g => by
    simp only [laneKey, Fld.key, UPL_STAT_OUT, UG_STAT_VER, UG_STAT_VER_CHG] at hf ⊢
    omega) l

theorem groupLanes_eq (h : Passed s t) (g : Nat) : t.groupLanes g = s.groupLanes g :=
  State.groupLanes_congr (fun f hf => h.regs f fun g => by
    simp only [laneKey, Fld.key, UPL_STAT_OUT, UG_STAT_VER, UG_STAT_VER_CHG] at hf ⊢
    omega) g

theorem queue_eq (h : Passed s t) (g q : Nat) : t.queue g q = s.queue g q := by
  rw [h.same]
  rfl

end Passed

/-- A boundary begins: what waits for it is taken. -/
def State.boundaryStart (s : State) : State :=
  s.modUpl fun u => { u with
    boundTick := some s.tm.tick, returning := u.returning.filter fun e => decide (s.tm.tick * 4000 + 48 ≤ e.2)
    leaving := u.leaving.filter fun e => decide (s.tm.tick * 4000 + 48 ≤ e.2) }

/-- All groups at a boundary. -/
def State.groupsPassed (s : State) : State :=
  (List.range 4).foldl (fun z g => z.groupBoundary (s.tm.tick * 4000 + 48) g) s.boundaryStart

theorem State.groupsPassed_passed (s : State) : Passed s.boundaryStart s.groupsPassed :=
  (Passed.refl _).foldl _ _ fun _ g hz => hz.groupBoundary _ g

/-- How a boundary ends. -/
def State.boundaryEnd (s : State) : State :=
  (List.range 4).foldl (fun z g => z.groupOfs g) (s.modUpl fun u => { u with laneFrames := [] })

theorem State.boundaryEnd_passed (s : State) : Passed s s.boundaryEnd :=
  ((Passed.refl s).modUpl s.upl.groups s.upl.laneSent []).foldl _ _ fun _ g hz => hz.groupOfs g

theorem State.boundary_eq {s : State} (h : s.upl.boundTick ≠ some s.tm.tick) : s.boundary =
    ((s.upl.leaving.filter fun e => decide (e.2 < s.tm.tick * 4000 + 48)).foldl (fun z e => z.loseLane e.1)
      ((s.upl.returning.filter fun e => decide (e.2 < s.tm.tick * 4000 + 48)).foldl (fun z e => z.returnLane e.1) s.groupsPassed)).boundaryEnd := by
  unfold State.boundary
  rw [if_neg h]
  rfl

section frame
variable {s : State} (k : Fin 32) (hh : s.hibernating = false)
include hh

/-- A lane frame passes the boundary and may give its lane a start set. -/
theorem exec_laneFrame : ∃ u, exec (.laneFrame k) s = .next u ∧ Passed (s.toInst (48 * 65536)).boundary u ∧
    u.upl.groups = (s.toInst (48 * 65536)).boundary.upl.groups ∧ u.upl.laneSent = (s.toInst (48 * 65536)).boundary.upl.laneSent := by
  have he : exec (.laneFrame k) s = execLaneFrame k s := rfl
  rw [he]
  unfold execLaneFrame
  simp only [hh, Bool.false_eq_true, if_false]
  generalize (s.toInst (48 * 65536)).boundary = b
  cases b.laneGroup k.val with
  | none => exact ⟨b, rfl, .refl b, rfl, rfl⟩
  | some g =>
    refine ⟨_, rfl, ?_⟩
    dsimp only
    split
    · exact ⟨(Passed.refl b).modUpl _ _ _, rfl, rfl⟩
    · exact ⟨.refl b, rfl, rfl⟩

end frame

/-- `t` is `s` where lanes, groups' states, queues and every register but the versions are read. -/
structure VerOnly (s t : State) : Prop where
  regs : ∀ f : Fld, (∀ g, f.key ≠ (UG_STAT_VER g).key ∧ f.key ≠ (UG_STAT_VER_CHG g).key) → t.cget f = s.cget f

namespace VerOnly
variable {s t u : State}

theorem trans (h : VerOnly s t) (h' : VerOnly t u) : VerOnly s u := ⟨fun f hf => (h'.regs f hf).trans (h.regs f hf)⟩

theorem cget_eq (h : VerOnly s t) {f : Fld} (hf : f.lo % 64 ≠ 2 ∧ f.lo % 64 ≠ 12) : t.cget f = s.cget f :=
  h.regs f fun g => by
    have : f.key = f.reg * 64 + f.lo := rfl
    simp only [Fld.key, UG_STAT_VER, UG_STAT_VER_CHG] at this ⊢
    omega

theorem lanes (h : VerOnly s t) : ∀ f : Fld, laneKey f.key → t.cget f = s.cget f := fun f hf => h.regs f fun g => by
  simp only [laneKey, Fld.key, UPL_STAT_OUT, UG_STAT_VER, UG_STAT_VER_CHG] at hf ⊢
  omega

theorem laneGroup_eq (h : VerOnly s t) {l : Nat} (hl : l < 32) : t.laneGroup l = s.laneGroup l := State.laneGroup_congr h.lanes hl
theorem laneOut_eq (h : VerOnly s t) (l : Nat) : t.laneOut l = s.laneOut l := State.laneOut_congr h.lanes l

end VerOnly

theorem State.toInst_upl (s : State) (i : Inst) : (s.toInst i).upl = s.upl := rfl
theorem State.toInst_verOnly (s : State) (i : Inst) : VerOnly s (s.toInst i) := ⟨fun f _ => s.toInst_cget i f⟩
theorem State.groupsPassed_verOnly (s : State) : VerOnly s s.groupsPassed := ⟨fun f hf => s.groupsPassed_passed.regs f hf⟩

/-- The frame within the second stays when the time moves within its tick. -/
theorem State.toInst_fis (s : State) (i : Inst) : (s.toInst i).tm.now.fis = s.tm.now.fis := by
  unfold State.toInst
  dsimp only [State.modTm, TimeVal.fis]
  obtain ⟨u, hu⟩ : ∃ u : Nat, u = min (max i (s.tm.now.ns % 4000 * 65536 + s.tm.now.frac)) (instPerFrame - 1) := ⟨_, rfl⟩
  have h : u < 4000 * 65536 := by
    rw [hu]
    exact Nat.lt_of_le_of_lt (Nat.min_le_right _ _) (by decide)
  rw [← hu]
  omega

/-! ### The clauses -/

theorem laneFault_clause {s : State} (l : Fin 32) (h : s.laneOut l = false) : ∃ u, exec (.laneFault l) s = .next u ∧
    u.upl.leaving = s.upl.leaving ++ [(l.val, s.monoNs)] ∧ u = { s with upl := u.upl } := by
  have he : exec (.laneFault l) s = .next _ := congrArg Host.Outcome.next (if_neg (by simp [h]))
  exact ⟨_, he, rfl, rfl⟩

theorem restore_clause {s : State} {m : MasterIx} {v : W32} {l : Fin 32} (hf : s.frozen m = false)
    (hp : s.permitted m .control UPL_CTRL_RESTORE.reg .write = true) (hv : bitAt v.toNat 0 = true) (hl : s.laneOut l = true) :
    ∃ u, exec (.restore m v [l]) s = .next u ∧ u.upl.returning = s.upl.returning ++ [(l.val, s.monoNs)] ∧
      u = { s with upl := u.upl, sp := u.sp } := by
  have ho : s.opRestore v.toNat [l.val] = s.modUpl fun u => { u with returning := u.returning ++ [(l.val, s.monoNs)] } := by
    unfold State.opRestore
    rw [if_pos hv, List.filter_cons_of_pos hl, List.filter_nil]
    rfl
  have he : exec (.restore m v [l]) s = .next ((s.opRestore v.toNat [l.val]).answer m false 0) :=
    congrArg Host.Outcome.next (State.guarded_of_permitted hf hp fun z => (z.opRestore v.toNat [l.val]).answer m false 0)
  rw [ho] at he
  exact ⟨_, he, rfl, rfl⟩

section boundary
variable {s : State} {l k : Fin 32} {g t : Nat} (hh : s.hibernating = false) (hb : s.upl.boundTick ≠ some s.tm.tick)
  (ht : t < s.tm.tick * 4000 + 48)
include hh hb ht

/-- The boundary of a tick at which one lane leaves. -/
theorem exec_laneFrame_leaving (h1 : s.upl.leaving = [(l.val, t)]) (h2 : s.upl.returning = []) :
    ∃ u z, exec (.laneFrame k) s = .next u ∧ Passed (z.loseLane l) u ∧ VerOnly s z ∧ z.upl.leaving = [] := by
  obtain ⟨u, he, hu, -⟩ := exec_laneFrame k hh
  have hl : (s.toInst (48 * 65536)).upl.leaving = [(l.val, t)] := by rw [State.toInst_upl, h1]
  have hr : (s.toInst (48 * 65536)).upl.returning = [] := by rw [State.toInst_upl, h2]
  have hv := s.toInst_verOnly (48 * 65536)
  have htick := s.toInst_tick (48 * 65536)
  have hb' : (s.toInst (48 * 65536)).upl.boundTick ≠ some (s.toInst (48 * 65536)).tm.tick := by rwa [htick, State.toInst_upl]
  generalize s.toInst (48 * 65536) = y at *
  rw [State.boundary_eq hb', hl, hr, htick, List.filter_cons_of_pos (by simpa using ht), List.filter_nil, List.foldl_nil, List.foldl_cons,
    List.foldl_nil] at hu
  refine ⟨u, y.groupsPassed, he, (State.boundaryEnd_passed _).trans hu, hv.trans y.groupsPassed_verOnly, ?_⟩
  rw [y.groupsPassed_passed.same]
  show y.upl.leaving.filter (fun e => decide (y.tm.tick * 4000 + 48 ≤ e.2)) = []
  rw [hl, htick, List.filter_cons_of_neg (by simpa using ht), List.filter_nil]

/-- The boundary of a tick at which one lane returns. -/
theorem exec_laneFrame_returning (h1 : s.upl.returning = [(l.val, t)]) (h2 : s.upl.leaving = []) :
    ∃ u z, exec (.laneFrame k) s = .next u ∧ Passed (z.returnLane l) u ∧ VerOnly s z := by
  obtain ⟨u, he, hu, -⟩ := exec_laneFrame k hh
  have hr : (s.toInst (48 * 65536)).upl.returning = [(l.val, t)] := by rw [State.toInst_upl, h1]
  have hl : (s.toInst (48 * 65536)).upl.leaving = [] := by rw [State.toInst_upl, h2]
  have hv := s.toInst_verOnly (48 * 65536)
  have htick := s.toInst_tick (48 * 65536)
  have hb' : (s.toInst (48 * 65536)).upl.boundTick ≠ some (s.toInst (48 * 65536)).tm.tick := by rwa [htick, State.toInst_upl]
  generalize s.toInst (48 * 65536) = y at *
  rw [State.boundary_eq hb', hl, hr, htick, List.filter_cons_of_pos (by simpa using ht), List.filter_nil, List.foldl_nil, List.foldl_cons,
    List.foldl_nil] at hu
  exact ⟨u, y.groupsPassed, he, (State.boundaryEnd_passed _).trans hu, hv.trans y.groupsPassed_verOnly⟩

theorem laneFrame_boundary_clauses (hg : s.laneGroup l = some g) :
    (s.upl.leaving = [(l.val, t)] → s.upl.returning = [] → ∃ u, exec (.laneFrame k) s = .next u ∧ u.laneOut l = true ∧
      u.cget (UG_STAT_LANES g) = (u.groupLanes g).length ∧ l.val ∉ u.groupLanes g ∧ u.con (UG_STAT_LANE_LOST g) = true ∧
      u.upl.leaving = [] ∧
      (s.cget (UG_STAT_STATE g) = 1 → u.groupLanes g = [] → u.cget (UG_STAT_STATE g) = 2 ∧
        ∀ q, q < 5 → (u.queue g q).pkts = []) ∧
      (u.groupLanes g ≠ [] → s.cget (UG_STAT_STATE g) = 1 → u.cget (UG_STAT_STATE g) = 1)) ∧
    (s.upl.returning = [(l.val, t)] → s.upl.leaving = [] → s.laneOut l = true → s.cget (UG_STAT_STATE g) = 2 →
      ∃ u, exec (.laneFrame k) s = .next u ∧ u.laneOut l = false ∧ l.val ∈ u.groupLanes g ∧
        u.cget (UG_STAT_LANES g) = (u.groupLanes g).length ∧ u.cget (UG_STAT_STATE g) = 1) := by
  refine ⟨fun h1 h2 => ?_, fun h1 h2 ho hst => ?_⟩
  · obtain ⟨u, z, he, hu, hv, hz⟩ := exec_laneFrame_leaving (k := k) hh hb ht h1 h2
    have hzs : z.cget (UG_STAT_STATE g) = s.cget (UG_STAT_STATE g) := hv.cget_eq (by simp [UG_STAT_STATE])
    obtain ⟨a1, a2, a3, a4, a5, a6, a7⟩ := State.loseLane_facts ((hv.laneGroup_eq l.isLt).trans hg) l.isLt
    rw [hzs] at a6 a7
    generalize z.loseLane l = w at *
    have hgl := hu.groupLanes_eq g
    refine ⟨u, he, (hu.laneOut_eq l).trans a1, ?_, by rw [hgl]; exact a3, ?_, ?_, fun h h' => ?_, fun h h' => ?_⟩
    · rw [hgl, ← a2]
      exact hu.cget_eq (by simp [UG_STAT_LANES])
    · rw [State.con, hu.cget_eq (by simp [UG_STAT_LANE_LOST])]
      exact a4
    · rw [hu.same]
      exact a5.trans hz
    · obtain ⟨b1, b2⟩ := a6 h (hgl ▸ h')
      exact ⟨(hu.cget_eq (by simp [UG_STAT_STATE])).trans b1, fun q hq => by rw [hu.queue_eq]; exact b2 q hq⟩
    · exact (hu.cget_eq (by simp [UG_STAT_STATE])).trans (a7 (hgl ▸ h) h')
  · obtain ⟨u, z, he, hu, hv⟩ := exec_laneFrame_returning (k := k) hh hb ht h1 h2
    have hzs : z.cget (UG_STAT_STATE g) = s.cget (UG_STAT_STATE g) := hv.cget_eq (by simp [UG_STAT_STATE])
    obtain ⟨a1, a2, a3, a4⟩ := State.returnLane_facts ((hv.laneGroup_eq l.isLt).trans hg) l.isLt ((hv.laneOut_eq l).trans ho) (hzs.trans hst)
    generalize z.returnLane l = w at *
    have hgl := hu.groupLanes_eq g
    refine ⟨u, he, (hu.laneOut_eq l).trans a1, by rw [hgl]; exact a2, ?_, (hu.cget_eq (by simp [UG_STAT_STATE])).trans a4⟩
    rw [hgl, ← a3]
    exact hu.cget_eq (by simp [UG_STAT_LANES])

end boundary

theorem startSet_clause {s : State} {l : Fin 32} {g : Nat} (hh : s.hibernating = false) (hb : s.upl.boundTick = some s.tm.tick)
    (hg : s.laneGroup l = some g) (hr : s.groupRun g = true) (ho : s.laneOut l = false) :
    let o := if s.cget (UG_STAT_VER g) = 1 then 0xFFFFFF else (s.grp g).ofs
    let body := [l.val + 32 * g, s.tm.now.fis % 256, s.cget (UG_STAT_LANES g) % 64 + 64 * s.cget (UG_STAT_VER g), o % 256, o / 256 % 256,
      o / 65536 % 256]
    ∃ u, exec (.laneFrame l) s = .next u ∧
      tget u.upl.laneFrames l [] = 0xBC :: body ++ [crc8 (body.map fun b => BitVec.ofNat 8 b)] ∧ u = { s with tm := u.tm, upl := u.upl } := by
  intro o body
  have hz : ∀ i : Inst, (s.toInst i).boundary = s.toInst i := fun i => by
    rw [State.boundary, if_pos (by rw [State.toInst_upl, State.toInst_tick]; exact hb)]
  have he : exec (.laneFrame l) s = .next ((s.toInst (48 * 65536)).modUpl fun u => { u with
      laneFrames := tset u.laneFrames l [] ((s.toInst (48 * 65536)).startSet l g) }) := by
    have hg' : ∀ i : Inst, (s.toInst i).laneGroup l = some g := fun _ => hg
    have hc : ∀ i : Inst, ((s.toInst i).groupRun g && !((s.toInst i).laneOut l)) = true := fun i => by
      have h1 : (s.toInst i).groupRun g = s.groupRun g := rfl
      have h2 : (s.toInst i).laneOut l = s.laneOut l := rfl
      rw [h1, h2, hr, ho]
      rfl
    show execLaneFrame l s = _
    unfold execLaneFrame
    simp only [hh, Bool.false_eq_true, if_false, hz, hg', hc, if_true]
  have hfis := s.toInst_fis (48 * 65536)
  obtain ⟨x, hx⟩ := s.toInst_tmOnly (48 * 65536)
  rw [hx] at he hfis
  refine ⟨_, he, ?_, rfl⟩
  have hss : ({ s with tm := x } : State).startSet l g = 0xBC :: body ++ [crc8 (body.map fun b => BitVec.ofNat 8 b)] := by
    unfold State.startSet
    simp only [hfis]
    rfl
  rw [hss, State.modUpl]
  dsimp only
  rw [tget_tset_same]

/-! ### The payload is dealt to the lanes -/

theorem tget_foldl_tset_ne (k : Nat → Nat) (v : Nat → LaneSent) (t : Tab LaneSent) {j : Nat} (n : Nat) (h : ∀ i < n, k i ≠ j) :
    tget ((List.range n).foldl (fun t i => tset t (k i) {} (v i)) t) j {} = tget t j {} :=
  List.foldlRecOn (motive := fun z => tget z j {} = tget t j {}) _ _ rfl fun z hz i hi => by
    rw [tget_tset_ne _ _ _ _ (h i (List.mem_range.1 hi)).symm, hz]

theorem tget_foldl_tset (k : Nat → Nat) (v : Nat → LaneSent) (t : Tab LaneSent) {n : Nat} (hk : ∀ i < n, ∀ j < n, k i = k j → i = j)
    {i : Nat} (hi : i < n) : tget ((List.range n).foldl (fun t i => tset t (k i) {} (v i)) t) (k i) {} = v i := by
  induction n with
  | zero => cases hi
  | succ n ih =>
    rw [List.range_succ, List.foldl_append, List.foldl_cons, List.foldl_nil]
    by_cases hin : i = n
    · rw [hin, tget_tset_same]
    · rw [tget_tset_ne _ _ _ _ fun e => hin (hk i hi n (by omega) e)]
      exact ih (fun a ha b hb => hk a (by omega) b (by omega)) (by omega)

theorem State.groupLanes_nodup (s : State) (g : Nat) : (s.groupLanes g).Nodup := List.nodup_range.filter _

theorem State.grp_modGrp (s : State) (g : Nat) (f : Group → Group) : (s.modGrp g f).grp g = f (s.grp g) := tget_tset_same ..
theorem State.grp_modGrp_ne (s : State) {g q : Nat} (f : Group → Group) (h : g ≠ q) : (s.modGrp q f).grp g = s.grp g :=
  tget_tset_ne _ _ _ _ h

section deal
variable {s : State} {l : Nat} (hl : l < 32)

/-- A group's lane frames are not touched by another group that passes the boundary. -/
theorem State.groupTake_ne {g q : Nat} (hq : q ≠ g) (hm : l ∈ s.groupLanes g) :
    tget (s.groupTake q).upl.laneSent l {} = tget s.upl.laneSent l {} ∧ (s.groupTake q).grp g = s.grp g := by
  unfold State.groupTake
  extract_lets x lanes cap all s1
  split
  · exact ⟨rfl, rfl⟩
  · have hne : ∀ i < lanes.length, lanes.getD i 0 ≠ l := fun i hi e => by
      have hi' : l ∈ s.groupLanes q := by
        rw [← e, List.getD_eq_getElem _ _ hi]
        exact List.getElem_mem hi
      have hl32 : l < 32 := List.mem_range.1 (List.mem_filter.1 hm).1
      have h1 := ((State.mem_groupLanes hl32).1 hm).1
      have h2 := ((State.mem_groupLanes hl32).1 hi').1
      exact hq (Option.some.inj (h2.symm.trans h1))
    refine ⟨?_, ?_⟩
    · exact tget_foldl_tset_ne (fun i => lanes.getD i 0) (fun i =>
        { start := tget s.upl.laneFrames (lanes.getD i 0) [], data := laneData lanes.length i all }) s.upl.laneSent lanes.length hne
    · exact tget_tset_ne _ _ _ _ hq.symm

/-- A running group with a lane frame in progress deals it to its lanes. -/
theorem State.groupTake_facts {g i : Nat} (hr : s.groupRun g = true) (hi : (s.groupLanes g)[i]? = some l)
    (hf : tget s.upl.laneFrames l [] ≠ []) :
    let n := (s.groupLanes g).length
    let all := (s.grp g).buf ++ s.fillBytes g (21376 * n - (s.grp g).buf.length)
    tget (s.groupTake g).upl.laneSent l {} = { start := tget s.upl.laneFrames l [], data := laneData n i all } ∧
      ((s.groupTake g).grp g).buf = all.drop (21376 * n) := by
  intro n all
  obtain ⟨hin, hget⟩ := List.getElem?_eq_some_iff.1 hi
  have hm : l ∈ s.groupLanes g := hget ▸ List.getElem_mem hin
  have hall : ¬ ((!(s.groupRun g)) = true ∨ ((s.groupLanes g).all fun l => (tget s.upl.laneFrames l []).isEmpty) = true) := by
    rw [hr]
    rintro (h | h)
    · cases h
    · exact hf (List.isEmpty_iff.1 (List.all_eq_true.1 h l hm))
  unfold State.groupTake
  dsimp only
  rw [if_neg hall]
  refine ⟨?_, congrArg Group.buf (tget_tset_same ..)⟩
  have hk : ∀ a < n, ∀ b < n, (s.groupLanes g).getD a 0 = (s.groupLanes g).getD b 0 → a = b := fun a ha b hb e => by
    rw [List.getD_eq_getElem _ _ ha, List.getD_eq_getElem _ _ hb] at e
    exact (List.Nodup.getElem_inj_iff (s.groupLanes_nodup g)).1 e
  have hd := tget_foldl_tset (fun i => (s.groupLanes g).getD i 0) (fun i =>
    { start := tget s.upl.laneFrames ((s.groupLanes g).getD i 0) [], data := laneData n i all }) s.upl.laneSent hk hin
  have hgi : (s.groupLanes g).getD i 0 = l := by rw [List.getD_eq_getElem _ _ hin, hget]
  simp only [hgi] at hd
  exact hd

/-- A version that takes over changes nothing of what has been dealt. -/
theorem State.groupBoundary_dealt (s : State) (at_ q : Nat) :
    (s.groupBoundary at_ q).upl.laneSent = (s.groupTake q).upl.laneSent ∧
    ∀ g, ((s.groupBoundary at_ q).grp g).buf = ((s.groupTake q).grp g).buf := by
  unfold State.groupBoundary
  dsimp only
  split
  · split
    · refine ⟨rfl, fun g => ?_⟩
      generalize s.groupTake q = z
      by_cases hg : g = q
      · rw [hg, State.grp_modGrp]
        rfl
      · rw [State.grp_modGrp_ne _ _ hg]
        rfl
    · exact ⟨rfl, fun _ => rfl⟩
  · exact ⟨rfl, fun _ => rfl⟩

/-- What group `g` and its lane `l` show while groups pass a boundary. -/
def State.dealView (g l : Nat) (s : State) : (List Nat × Bool × Tab (List Nat) × Nat) × Option (LaneSent × List Byte) :=
  ((s.groupLanes g, s.groupRun g, s.upl.laneFrames, s.cid), if l ∈ s.groupLanes g then some (tget s.upl.laneSent l {}, (s.grp g).buf) else none)

theorem State.dealView_of_mem {s t : State} {g l : Nat} (h : t.dealView g l = s.dealView g l) (hm : l ∈ s.groupLanes g) :
    (t.groupLanes g = s.groupLanes g ∧ t.groupRun g = s.groupRun g ∧ t.upl.laneFrames = s.upl.laneFrames ∧ t.cid = s.cid) ∧
    tget t.upl.laneSent l {} = tget s.upl.laneSent l {} ∧ (t.grp g).buf = (s.grp g).buf := by
  unfold State.dealView at h
  obtain ⟨h1, h2⟩ := Prod.mk.inj h
  obtain ⟨e1, h1⟩ := Prod.mk.inj h1
  obtain ⟨e2, h1⟩ := Prod.mk.inj h1
  obtain ⟨e3, e4⟩ := Prod.mk.inj h1
  rw [e1, if_pos hm, if_pos hm] at h2
  obtain ⟨e5, e6⟩ := Prod.mk.inj (Option.some.inj h2)
  exact ⟨⟨e1, e2, e3, e4⟩, e5, e6⟩

theorem Passed.dealView_fst {s t : State} (h : Passed s t) (hf : t.upl.laneFrames = s.upl.laneFrames) (g l : Nat) :
    (t.dealView g l).1 = (s.dealView g l).1 := by
  have hr : t.groupRun g = s.groupRun g := by rw [State.groupRun, h.cget_eq (by simp [UG_STAT_STATE]), State.groupRun]
  have hc : t.cid = s.cid := h.cget_eq (f := GLB_CID_CID) (by decide)
  unfold State.dealView
  rw [h.groupLanes_eq, hr, hf, hc]

theorem State.groupBoundary_laneFrames (s : State) (at_ q : Nat) : (s.groupBoundary at_ q).upl.laneFrames = s.upl.laneFrames := by
  have h : (s.groupTake q).upl.laneFrames = s.upl.laneFrames := by
    unfold State.groupTake
    dsimp only
    split <;> rfl
  unfold State.groupBoundary
  dsimp only
  split
  · split <;> exact h
  · exact h

theorem State.groupBoundary_ne (s : State) (at_ : Nat) {g q : Nat} (hq : q ≠ g) : (s.groupBoundary at_ q).dealView g l = s.dealView g l := by
  have hp := (Passed.refl s).groupBoundary at_ q
  have h1 := hp.dealView_fst (s.groupBoundary_laneFrames at_ q) g l
  refine Prod.ext h1 ?_
  unfold State.dealView
  dsimp only
  rw [hp.groupLanes_eq]
  split
  case isFalse => rfl
  case isTrue hm =>
    obtain ⟨h2, h3⟩ := State.groupTake_ne hq hm
    obtain ⟨h4, h5⟩ := s.groupBoundary_dealt at_ q
    rw [h4, h2, h5, h3]

theorem State.groupOfs_ne (s : State) (q g : Nat) : ((s.groupOfs q).grp g).buf = (s.grp g).buf ∧ (s.groupOfs q).upl.laneSent = s.upl.laneSent := by
  unfold State.groupOfs
  dsimp only
  by_cases hg : g = q
  · rw [hg, State.grp_modGrp]
    exact ⟨rfl, rfl⟩
  · rw [State.grp_modGrp_ne _ _ hg]
    exact ⟨rfl, rfl⟩

theorem State.boundaryEnd_dealt (s : State) (g : Nat) : (s.boundaryEnd.grp g).buf = (s.grp g).buf ∧ s.boundaryEnd.upl.laneSent = s.upl.laneSent :=
  List.foldlRecOn (motive := fun z : State => (z.grp g).buf = (s.grp g).buf ∧ z.upl.laneSent = s.upl.laneSent) _ _ ⟨rfl, rfl⟩
    fun z hz q _ => ⟨(z.groupOfs_ne q g).1.trans hz.1, (z.groupOfs_ne q g).2.trans hz.2⟩

end deal

theorem laneData_clause {s : State} {l k : Fin 32} {g : GrpIx} {i : Nat} (hh : s.hibernating = false)
    (hb : s.upl.boundTick ≠ some s.tm.tick) (hr : s.groupRun g = true) (h1 : s.upl.leaving = []) (h2 : s.upl.returning = [])
    (hi : (s.groupLanes g)[i]? = some l.val) (hf : tget s.upl.laneFrames l [] ≠ []) :
    let n := (s.groupLanes g).length
    let all := (s.grp g).buf ++ s.fillBytes g (21376 * n - (s.grp g).buf.length)
    ∃ u, exec (.laneFrame k) s = .next u ∧ (tget u.upl.laneSent l {}).start = tget s.upl.laneFrames l [] ∧
      (tget u.upl.laneSent l {}).data = (List.range 167).flatMap (fun j => (all.drop (128 * (j * n + i))).take 128) ∧
      (u.grp g).buf = all.drop (21376 * n) := by
  intro n all
  obtain ⟨u, he, -, hug, hus⟩ := exec_laneFrame k hh
  have hview : ∀ j : Inst, (s.toInst j).boundaryStart.dealView g l = s.dealView g l ∧ (s.toInst j).boundaryStart.grp g = s.grp g :=
    fun _ => ⟨rfl, rfl⟩
  obtain ⟨hv, hgrp⟩ := hview (48 * 65536)
  have hl : (s.toInst (48 * 65536)).upl.leaving = [] := by rw [State.toInst_upl, h1]
  have hrt : (s.toInst (48 * 65536)).upl.returning = [] := by rw [State.toInst_upl, h2]
  have hb' : (s.toInst (48 * 65536)).upl.boundTick ≠ some (s.toInst (48 * 65536)).tm.tick := by
    rw [State.toInst_tick, State.toInst_upl]
    exact hb
  generalize s.toInst (48 * 65536) = y at *
  rw [State.boundary_eq hb', hl, hrt, List.filter_nil, List.foldl_nil, List.foldl_nil] at hug hus
  obtain ⟨z, hz, hat⟩ := State.foldl_at (State.dealView g l) (fun z q => z.groupBoundary (y.tm.tick * 4000 + 48) q)
    (List.nodup_range (n := 4)) (List.mem_range.2 g.isLt) (fun z q _ hq => State.groupBoundary_ne z _ hq) y.boundaryStart
  have hzs := hz.trans hv
  have hm : l.val ∈ s.groupLanes g := List.mem_of_getElem? hi
  obtain ⟨⟨hlanes, hrun, hframes, hcid⟩, -, hbuf⟩ := State.dealView_of_mem hzs hm
  have hfill : ∀ n, z.fillBytes g n = s.fillBytes g n := fun n => by rw [State.fillBytes, hcid, State.fillBytes]
  obtain ⟨b1, b2⟩ := State.groupTake_facts (s := z) (l := l) (g := g) (i := i) (hrun.trans hr) (by rw [hlanes]; exact hi)
    (by rw [hframes]; exact hf)
  rw [hlanes, hbuf, hfill, hframes] at b1
  rw [hlanes, hbuf, hfill] at b2
  obtain ⟨c1, c2⟩ := z.groupBoundary_dealt (y.tm.tick * 4000 + 48) g
  obtain ⟨d1, d2⟩ := State.boundaryEnd_dealt y.groupsPassed g
  have hzp := (Passed.refl z).groupBoundary (y.tm.tick * 4000 + 48) g
  obtain ⟨-, e1, e2⟩ := State.dealView_of_mem (t := y.groupsPassed) hat (by rw [hzp.groupLanes_eq, hlanes]; exact hm)
  have hsent : tget u.upl.laneSent l {} = { start := tget s.upl.laneFrames l [], data := laneData n i all } := by
    rw [hus, d2, e1, c1, b1]
  refine ⟨u, he, by rw [hsent], by rw [hsent]; rfl, ?_⟩
  rw [State.grp, hug]
  exact d1.trans (e2.trans ((c2 g).trans b2))

/-- Settles O37: lanes leave and return at a boundary, a lane in service sends its start set, and the payload is dealt in turn. -/
theorem lanesLeaveAndReturnAtABoundary : Obligations.LanesLeaveAndReturnAtABoundary :=
  ⟨fun _ l h => laneFault_clause l h, fun _ _ _ _ hf hp hv hl => restore_clause hf hp hv hl,
    fun _ _ _ _ _ hh hb ht hg => laneFrame_boundary_clauses hh hb ht hg, fun _ _ _ hh hb hg hr ho => startSet_clause hh hb hg hr ho,
    fun _ _ _ _ _ hh hb hr h1 h2 hi hf => laneData_clause hh hb hr h1 h2 hi hf⟩

end Sys2Proof.Machine

/-! ## Inbound Floe frames -/

namespace Sys2Proof.Machine

set_option Elab.async false

/-- A receive lane ready, whose table of registers holds more than the eight bits of the counter of uncorrectable codewords. -/
def spareLane : State := { State.reset with creg := [((UR_STAT_STATE 3).key, 2), ((UR_CNT_RS_UNC 3).key, 65536)] }

/-- The counter with one bit more than the table's value needs. -/
def wideUnc : Fld := { UR_CNT_RS_UNC 3 with width := 17 }

/-- An inbound Floe frame without a codeword. -/
def emptyFloe : FloeIn := { cws := [], old := 0, off := 0 }

theorem floeRead_emptyFloe : floeRead emptyFloe = (0, true, []) := by decide

/-- A Floe frame without uncorrectable codewords writes their counter again, within its 8 bits. -/
theorem cget_after_floe {u : State} (h : exec (.inboundFloeFrame 3 emptyFloe) spareLane = .next u) : u.cget wideUnc = 0 := by
  change execInboundFloeFrame 3 emptyFloe spareLane = .next u at h
  unfold execInboundFloeFrame at h
  rw [floeRead_emptyFloe] at h
  rw [← Host.Outcome.next.inj h]
  decide +kernel

/-- Refutes O38: a Floe frame that is discarded writes the counter of uncorrectable codewords also where it has none, so in a state whose
table of registers holds more than that counter's bits a field reads another value. -/
theorem not_receiveLanesAndInboundControl : ¬ Obligations.ReceiveLanesAndInboundControl := by
  intro h
  obtain ⟨-, hframe, -⟩ := h
  obtain ⟨-, hdiscard, -⟩ := hframe spareLane 3 emptyFloe [] (by decide +kernel)
  obtain ⟨u, he, -, hregs⟩ := hdiscard floeRead_emptyFloe (.inl (by decide))
  have hw := hregs wideUnc (by decide)
  rw [cget_after_floe he] at hw
  exact absurd hw (by decide +kernel)

end Sys2Proof.Machine

/-! ## The scheduler -/

namespace Sys2Proof.Machine

set_option Elab.async false

/-- A group in RUN with one ALARM packet in its first queue, one corrected word counted there, and a core that has put out all it has in a
slot far above the 64 the part has: its status register is the error register of that queue. -/
def highSlot : State :=
  { State.reset with
    creg := [((UG_STAT_STATE 0).key, 1), ((UQ_ERR_CORR 0).key, 1)]
    upl := { queues := [(0, { pkts := [{ typ := 6, words := [] }] })] }
    trg := { cores := [(65429, some { ended := true })] } }

theorem coreStat_of_highSlot : (TRG_CORE_STAT_ACTIVE 65429).key = (UQ_ERR_CORR 0).key := by decide

/-- The slot becomes free, and the error register reads 0. -/
theorem cget_after_choice {u : State} (h : exec (.schedulerChoice 0 [] []) highSlot = .next u) : u.cget (UQ_ERR_CORR 0) = 0 := by
  change execSchedulerChoice 0 [] [] highSlot = .next u at h
  unfold execSchedulerChoice at h
  rw [← Host.Outcome.next.inj h]
  decide +kernel

/-- Refutes O39: after its choice the scheduler frees the slots whose trailer is queued, whatever their numbers; in a state with a core in
slot 65,429 this clears the count of corrected words, which the statement says is kept. -/
theorem not_theSchedulerTakesTheFirstWholePacket : ¬ Obligations.TheSchedulerTakesTheFirstWholePacket := by
  intro h
  obtain ⟨hpick, -⟩ := h
  obtain ⟨-, hcorr, -⟩ := hpick highSlot 0 0 { typ := 6, words := [] } [] (by decide +kernel) (by decide +kernel)
    (fun y hy => absurd hy (Nat.not_lt_zero y)) (by decide +kernel) (by decide) (by decide) rfl
  obtain ⟨u, f, he, -, -, -, -, hc⟩ := hcorr [] (by decide) (by decide)
  have hc' : u.cget (UQ_ERR_CORR 0) = 1 := hc.trans (by decide +kernel)
  rw [cget_after_choice he] at hc'
  exact absurd hc' (by decide)

end Sys2Proof.Machine

/-! ## Flush of a queue -/

namespace Sys2Proof.Machine

set_option Elab.async false

/-- The state after reset with one MON packet that waits for room in the queue of the MON and LOG packets. -/
def waitingMon : State :=
  { State.reset with sp := { State.reset.sp with monOut := [[0]] } }

/-- The flush makes room, and the waiting packet enters the queue in the same step. -/
theorem pkts_after_flush {u : State} (h : exec (.queueFlush 0 3 0 1) waitingMon = .next u) : ((u.queue 0 3).pkts.length) = 1 := by
  change execQueueFlush 0 3 0 1 waitingMon = .next u at h
  unfold execQueueFlush at h
  rw [← Host.Outcome.next.inj h, State.guarded_of_permitted (by decide +kernel) (by decide +kernel)]
  decide +kernel

/-- Refutes O40: a flush of queue 3 feeds the writers that wait for room, so that a MON packet that waited stands in the queue after the
step; the statement says that the queue is empty. -/
theorem not_pushFlushStaleAndPop : ¬ Obligations.PushFlushStaleAndPop := by
  intro h
  obtain ⟨-, hflush, -, -⟩ := h
  obtain ⟨u, he, hpkts, -⟩ :=
    hflush waitingMon 0 3 0 1 (by decide +kernel) (by decide +kernel) (by decide) (by decide) (by decide)
  exact absurd ((pkts_after_flush he).symm.trans (congrArg List.length hpkts)) (by decide)

end Sys2Proof.Machine

/-! ## The service processor -/

namespace Sys2Proof.Machine

set_option Elab.async false

/-- A concentrator in thermal shutdown whose cores stopped on a mismatch 1 ms ago. -/
def shutMismatch : State :=
  { State.reset with
    tm := { State.reset.tm with tick := 250 }
    sp := { State.reset.sp with stopped := true, lsTick := some 0 }
    pro := { State.reset.pro with shutdown := true } }

/-- The soft reset leaves the part in its shutdown, which holds the service processor down. -/
theorem spDown_after_softReset {u : State} (h : exec .serviceSoftReset shutMismatch = .next u) : u.spDown = true := by
  change execServiceSoftReset shutMismatch = .next u at h
  unfold execServiceSoftReset at h
  rw [← Host.Outcome.next.inj h]
  decide +kernel

/-- Refutes O42: a shutdown holds every master, so that the service processor is still down after its soft reset; the statement, which says
nothing of a shutdown, says that it runs. -/
theorem not_theServiceProcessorStopsAndRestarts : ¬ Obligations.TheServiceProcessorStopsAndRestarts := by
  intro h
  obtain ⟨-, hreset, -⟩ := h
  obtain ⟨u, he, hup, -⟩ := hreset shutMismatch 0 rfl (by decide) (by decide +kernel)
  exact absurd ((spDown_after_softReset he).symm.trans hup) (by decide)

end Sys2Proof.Machine

/-! ## The mailbox and the services REG and RUN -/

namespace Sys2Proof.Machine

set_option Elab.async false

theorem State.laneOf_lt (s : State) (j : Nat) : s.laneOf j < 4 := s.cget_lt (UR_CFG_GROUP j)

/-! ### Replies -/

section reply
variable (s : State) {g : Nat} (hg : g < 4) (svc cmd tag st : Nat) (body : List Byte)
include hg

theorem State.sendReply_queued : Queued s (s.sendReply g svc cmd tag st body) := s.enqueue_queued _ hg (by decide)

/-- A reply is remembered at the head of the replies and queued. -/
theorem State.reply_queued : ∃ rs : List Reply,
    Queued (s.modSp fun x => { x with replies := rs }) (s.reply g svc cmd tag st body) ∧
    ∃ r, rs.head? = some r ∧ r.status = st ∧ r.tag = tag ∧ r.body = body :=
  ⟨_, State.sendReply_queued _ hg svc cmd tag st body, _, rfl, rfl, rfl, rfl⟩

/-- What a reply leaves. -/
theorem State.reply_facts : let u := s.reply g svc cmd tag st body
    (∃ r, u.sp.replies.head? = some r ∧ r.status = st ∧ r.tag = tag ∧ r.body = body) ∧
    u = { s with creg := u.creg, upl := u.upl, sp := u.sp } ∧ (∀ f : Fld, ¬ queueKey f.key → u.cget f = s.cget f) ∧
    u.sp.taken = s.sp.taken ∧ u.upl.inbound = s.upl.inbound := by
  obtain ⟨rs, hq, r, hr, hst, htag, hbody⟩ := s.reply_queued hg svc cmd tag st body
  have hregs := hq.regs
  have hsame := hq.same
  intro u
  change u = _ at hsame
  have hsp : u.sp = { s.sp with replies := rs } := by rw [hsame]; rfl
  refine ⟨⟨r, by rw [hsp]; exact hr, hst, htag, hbody⟩, ?_, hregs, by rw [hsp], hq.inbound_eq⟩
  rw [hsame]
  rfl

end reply

/-! ### A service's turn -/

/-- A service serves a packet that no earlier answer stops. -/
theorem State.mailServe_of_none {s : State} {lane svc cmd tag : Nat} (ht : s.sp.taken = none)
    (hp : s.preReply (s.laneOf lane) svc cmd tag = none) (k : State → State) : s.mailServe lane svc cmd tag k = k s := by
  simp [State.mailServe, ht, hp]

/-- What stands when no answer comes before the service's own: the mailbox is not frozen. -/
theorem State.mailFrozen_of_preReply {s : State} {g svc cmd tag : Nat} (hp : s.preReply g svc cmd tag = none) :
    s.mailFrozen svc = false := by
  cases h : s.mailFrozen svc with
  | false => rfl
  | true => simp [State.preReply, h] at hp

/-- Whether an answer comes before the service's own depends on the service processor, the time, the shutdown and three registers. -/
theorem State.preReply_congr {s t : State} {g svc cmd tag : Nat} (hsp : t.sp = s.sp) (htm : t.tm = s.tm) (hpro : t.pro = s.pro)
    (hfr : t.cget FWL_STAT_FROZEN = s.cget FWL_STAT_FROZEN) (hrun : t.con SP_STAT_RUN = s.con SP_STAT_RUN)
    (hrec : t.con GLB_STAT_RECOVERY = s.con GLB_STAT_RECOVERY) (h : s.preReply g svc cmd tag = none) :
    t.preReply g svc cmd tag = none := by
  have hf : t.mailFrozen svc = s.mailFrozen svc := by
    simp only [State.mailFrozen, State.frozen, State.spDown, hsp, hpro, hfr, hrun, hrec]
  have hr : t.repeated g svc cmd tag = s.repeated g svc cmd tag := by
    simp only [State.repeated, hsp, htm]
  revert h
  unfold State.preReply
  rw [hf, hr, hrec]
  split
  · nofun
  · split
    · nofun
    · simp only [Option.map_eq_none_iff, imp_self]

/-- An answer that comes before the service's own leaves the inbound queue. -/
theorem State.preReply_inbound {s z : State} {g svc cmd tag : Nat} (hg : g < 4) (h : s.preReply g svc cmd tag = some z) :
    z.upl.inbound = s.upl.inbound := by
  unfold State.preReply at h
  split at h
  · cases h
    exact (State.sendReply_queued s hg svc cmd tag 7 []).inbound_eq
  · split at h
    · cases h
      exact (State.sendReply_queued s hg svc cmd tag 3 []).inbound_eq
    · obtain ⟨r, -, rfl⟩ := Option.map_eq_some_iff.1 h
      exact (State.sendReply_queued (s.cbump SP_EVT_DUP) hg svc cmd tag r.status r.body).inbound_eq

/-! ### The take of a packet of one word -/

/-- The fields of a packet's first word. -/
theorem mailWord_fields (w : W64) :
    let bs := (wordsBytes [w]).take 8
    bodyNat bs 1 1 = bits w.toNat 8 8 ∧ bodyNat bs 2 1 = bits w.toNat 16 8 ∧ bodyNat bs 3 2 = bits w.toNat 24 16 ∧
    bodyNat bs 5 2 = bits w.toNat 40 16 ∧ bs.drop 8 = [] := by
  have hbs : (wordsBytes [w]).take 8 = leBytes 8 w.toNat := by simp [wordsBytes]
  rw [hbs]
  generalize w.toNat = n
  simp only [leBytes, bodyNat, bits, List.take, List.drop, ofBytes, BitVec.toNat_ofNat, and_true]
  omega

section take
variable {s : State} {w : W64} {j : Nat}

/-- The state after a packet of one word has left the inbound queue. -/
def State.wordTaken (s : State) : State :=
  (s.modUpl fun u => { u with inbound := [], inLens := u.inLens.drop 1 }).showInbound

theorem State.wordTaken_cget {f : Fld} (h : f.reg ≠ UIQ_STAT_LEVEL.reg) (hlo : f.lo < 64) : s.wordTaken.cget f = s.cget f := by
  have hl : f.key ≠ UIQ_STAT_LEVEL.key := by
    simp only [Fld.key, UIQ_STAT_LEVEL] at h ⊢
    omega
  have hp : f.key ≠ UIQ_STAT_PKTS.key := by
    simp only [Fld.key, UIQ_STAT_LEVEL, UIQ_STAT_PKTS] at h ⊢
    omega
  unfold State.wordTaken State.showInbound
  rw [State.cget_cset_ne _ _ _ _ hp, State.cget_cset_ne _ _ _ _ hl]
  rfl

theorem exec_mailboxTake_word (hin : s.upl.inbound = [{ word := w, end_ := true, lane := j }]) (hlen : s.upl.inLens = [8])
    (hb : bits w.toNat 40 16 = 0) :
    let g := s.wordTaken.laneOf j
    let svc := bits w.toNat 8 8
    let cmd := bits w.toNat 16 8
    let tag := bits w.toNat 24 16
    (9 < svc → exec .mailboxTake s = .next (s.wordTaken.sendReply g svc cmd tag 2 [])) ∧
    (svc ≤ 9 → exec .mailboxTake s = .next ((s.wordTaken.preReply g svc cmd tag).getD (
      if cmd ∈ serviceCommands svc then s.wordTaken.modSp fun y => { y with
        taken := some { lane := j, service := svc, cmd := cmd, tag := tag, body := [] } }
      else s.wordTaken.reply g svc cmd tag 3 []))) := by
  intro g svc cmd tag
  obtain ⟨hsvc, hcmd, htag, hlen', hbody⟩ := mailWord_fields w
  have hfp : firstPacket [({ word := w, end_ := true, lane := j } : InWord)] = ([{ word := w, end_ := true, lane := j }], []) := rfl
  have he : exec .mailboxTake s = execMailboxTake s := rfl
  rw [he]
  unfold execMailboxTake
  have hz : (s.modUpl fun u => { u with inbound := [], inLens := u.inLens.drop 1 }).showInbound = s.wordTaken := rfl
  simp only [hin, hfp, hz, hlen, List.headD_cons, List.map_cons, List.map_nil, hsvc, hcmd, htag, hlen', hbody, hb, Nat.not_lt_zero,
    Nat.add_zero, ne_eq, not_true_eq_false, or_self, if_false]
  refine ⟨fun h => congrArg Host.Outcome.next (if_pos h), fun h => ?_⟩
  rw [if_neg (Nat.not_lt.2 h)]
  cases s.wordTaken.preReply g svc cmd tag with
  | some z => rfl
  | none =>
    by_cases hm : cmd ∈ serviceCommands svc
    · rw [if_pos hm]
      exact congrArg Host.Outcome.next (if_neg (by simpa using hm))
    · rw [if_neg hm]
      exact congrArg Host.Outcome.next (if_pos (by simpa using hm))

theorem mailboxTake_clause (j : Fin 8) (hin : s.upl.inbound = [{ word := w, end_ := true, lane := j.val }])
    (hlen : s.upl.inLens = [8]) (hb : bits w.toNat 40 16 = 0) :
    let svc := bits w.toNat 8 8
    let cmd := bits w.toNat 16 8
    let tag := bits w.toNat 24 16
    ∃ u, exec .mailboxTake s = .next u ∧ u.upl.inbound = [] ∧
      (9 < svc → u.sp.taken = s.sp.taken ∧ u.sp.replies = s.sp.replies) ∧
      (svc ≤ 9 → s.preReply (s.laneOf j) svc cmd tag = none →
        (cmd ∈ serviceCommands svc → u.sp.taken = some { lane := j.val, service := svc, cmd := cmd, tag := tag, body := [] } ∧
          u.sp.replies = s.sp.replies) ∧
        (cmd ∉ serviceCommands svc → ∃ r, u.sp.replies.head? = some r ∧ r.status = 3 ∧ r.tag = tag ∧ u.sp.taken = s.sp.taken)) := by
  intro svc cmd tag
  obtain ⟨hbad, hok⟩ := exec_mailboxTake_word hin hlen hb
  have hg : s.wordTaken.laneOf j = s.laneOf j := State.wordTaken_cget (by simp only [UR_CFG_GROUP, UIQ_STAT_LEVEL]; omega) (by simp [UR_CFG_GROUP])
  have hlt := s.laneOf_lt j
  rw [hg] at hbad hok
  by_cases h9 : 9 < svc
  · have hq := State.sendReply_queued s.wordTaken hlt svc cmd tag 2 []
    have hsp : (s.wordTaken.sendReply (s.laneOf j) svc cmd tag 2 []).sp = s.sp := by rw [hq.same]; rfl
    exact ⟨_, hbad h9, hq.inbound_eq, fun _ => by rw [hsp]; exact ⟨rfl, rfl⟩, fun h => absurd h (Nat.not_le.2 h9)⟩
  · have h9' : svc ≤ 9 := Nat.not_lt.1 h9
    have hpre : s.preReply (s.laneOf j) svc cmd tag = none → s.wordTaken.preReply (s.laneOf j) svc cmd tag = none :=
      State.preReply_congr rfl rfl rfl (State.wordTaken_cget (by decide) (by decide))
        (by rw [State.con, State.wordTaken_cget (by decide) (by decide), State.con])
        (by rw [State.con, State.wordTaken_cget (by decide) (by decide), State.con])
    refine ⟨_, hok h9', ?_, fun h => absurd h h9, fun _ hn => ?_⟩
    · cases hz : s.wordTaken.preReply (s.laneOf j) svc cmd tag with
      | some z => exact State.preReply_inbound hlt hz
      | none =>
        rw [Option.getD_none]
        split
        · rfl
        · exact (State.reply_facts _ hlt svc cmd tag 3 []).2.2.2.2
    · rw [hpre hn, Option.getD_none]
      refine ⟨fun hm => ?_, fun hm => ?_⟩
      · rw [if_pos hm]
        exact ⟨rfl, rfl⟩
      · rw [if_neg hm]
        obtain ⟨⟨r, hr, hst, htag, -⟩, -, -, htaken, -⟩ := State.reply_facts s.wordTaken hlt svc cmd tag 3 []
        exact ⟨r, hr, hst, htag, htaken⟩

end take

/-! ### Reads and writes of words -/

/-- A refused access of BK, master 17, freezes it. -/
theorem State.violation_frozen_bk (s : State) (key : Nat) (a : Access) : (s.violation 17 .control key a).frozen 17 = true := by
  have hlt : Nat.lor (s.cget FWL_STAT_FROZEN) (2 ^ 17) < 2 ^ 20 := Nat.or_lt_two_pow (s.cget_lt FWL_STAT_FROZEN) (by decide)
  have hf : (s.freeze 17).cget FWL_STAT_FROZEN = Nat.lor (s.cget FWL_STAT_FROZEN) (2 ^ 17) := by
    unfold State.freeze
    simp only [OfNat.ofNat_ne_zero, if_false, Nat.reduceLeDiff]
    cases s.con FWL_CTRL_BK_THAW <;> exact State.cget_cset_of_lt s hlt
  have hbit : bitAt (Nat.lor (s.cget FWL_STAT_FROZEN) (2 ^ 17)) 17 = true := by
    have := bitAt_setBit (x := s.cget FWL_STAT_FROZEN) (l := 17) (Nat.lt_trans (s.cget_lt FWL_STAT_FROZEN) (by decide)) (by decide)
    rwa [Nat.mod_eq_of_lt (Nat.lt_trans hlt (by decide))] at this
  have hlog : ∀ z : State, (z.when (!(s.con FWL_STAT_VIOL)) fun z =>
      (((((z.cset FWL_LOG0_MASTER 17).cset FWL_LOG0_SPACE Space.control.code).cset FWL_LOG0_TYPE a.code).cset FWL_LOG1_KEY key).cset
        FWL_LOG2_NS z.tm.now.ns).cset FWL_LOG3_SEC z.tm.now.sec).cget FWL_STAT_FROZEN = z.cget FWL_STAT_FROZEN := by
    intro z
    cases s.con FWL_STAT_VIOL
    · simp only [Bool.not_false, State.when_true]
      rw [State.cget_cset_ne _ _ _ _ (by decide), State.cget_cset_ne _ _ _ _ (by decide), State.cget_cset_ne _ _ _ _ (by decide),
        State.cget_cset_ne _ _ _ _ (by decide), State.cget_cset_ne _ _ _ _ (by decide), State.cget_cset_ne _ _ _ _ (by decide)]
    · rfl
  have hn : ¬ noteKey FWL_STAT_FROZEN.key := by
    unfold noteKey
    decide
  have hall : (s.violation 17 .control key a).cget FWL_STAT_FROZEN = Nat.lor (s.cget FWL_STAT_FROZEN) (2 ^ 17) := by
    unfold State.violation
    rw [(State.logBit_notes _ _ _ _ _).regs _ hn, State.cget_cbump_ne _ _ _ (by decide),
      State.raise_regs _ _ _ hn (by decide), hlog, hf]
  rw [State.frozen, hall, hbit, Bool.or_true]

section words
variable {s : State} {a : Nat}

theorem State.regRead_one {d : Nat} {z : State} (hp : s.permitted 17 .control a .read = true) (hr : s.busRead 17 a = (false, d, z)) :
    s.regRead a 0 1 = (leBytes 4 d, none, z) := by
  simp [State.regRead, hp, hr]

theorem State.regRead_refused (hp : s.permitted 17 .control a .read = false) (n : Nat) :
    s.regRead a 0 (n + 1) = ([], some (0, 6), s.violation 17 .control a .read) := by
  simp [State.regRead, hp]

theorem State.regWrite_one {bs : List Byte} {tag v : Nat} {z : State} {err : Bool} (hp : s.permitted 17 .control a .write = true)
    (hv : bodyNat bs 0 4 = v) (hw : s.busWriteTag 17 a v tag = (z, err)) :
    s.regWrite a 0 tag 1 bs = (if err then some (0, 8) else none, z) := by
  cases err <;> simp [State.regWrite, hp, hv, hw]

end words

/-- The address and the count of a request for one word. -/
theorem oneWord_fields (a : W32) (bs : List Byte) :
    bodyNat (leBytes 4 a.toNat ++ [1, 0] ++ bs) 0 4 = a.toNat ∧ bodyNat (leBytes 4 a.toNat ++ [1, 0] ++ bs) 4 2 = 1 ∧
    (leBytes 4 a.toNat ++ [1, 0] ++ bs).drop 6 = bs := by
  have h : a.toNat < 256 ^ 4 := a.isLt
  refine ⟨?_, rfl, rfl⟩
  change ofBytes (leBytes 4 a.toNat) = _
  rw [ofBytes_leBytes, Nat.mod_eq_of_lt h]

section oneword
variable {s : State} {j : Fin 8} {tag : BitVec 16} {a : W32}

/-- The body of a request for one word is in form, whatever the version of the group. -/
theorem oneWord_form (ha : a.toNat % 4 = 0) (b : Bool) (n : Nat) (hn : n = 254 ∨ n = 252) :
    ¬ ((1 : Nat) = 0 ∨ (if b then n else 255) < 1 ∨ a.toNat % 4 ≠ 0) := by
  rcases hn with rfl | rfl <;> cases b <;> simp [ha]

/-- READ of one word: the register's answer, or the refusal. -/
theorem exec_readCmd_one (ha : a.toNat % 4 = 0) (ht : s.sp.taken = none) (hn : s.preReply (s.laneOf j) 0 1 tag.toNat = none)
    {bs : List Byte} {r : Option (Nat × Nat)} {z : State} (hr : s.regRead a.toNat 0 1 = (bs, r, z)) :
    exec (.readCmd j tag (leBytes 4 a.toNat ++ [1, 0])) s = .next (
      z.reply (s.laneOf j) 0 1 tag.toNat (r.elim 0 Prod.snd)
        (r.elim bs fun x => if x.2 = 8 then leBytes 2 x.1 ++ bs else [])) := by
  obtain ⟨haddr, hcnt, -⟩ := oneWord_fields a []
  rw [List.append_nil] at haddr hcnt
  refine congrArg Host.Outcome.next ((State.mailServe_of_none ht hn _).trans ?_)
  have hlen : (leBytes 4 a.toNat ++ [1, 0]).length = 6 := by simp
  dsimp only
  rw [haddr, hcnt, hlen, if_neg, hr]
  · cases r <;> rfl
  · have := oneWord_form ha (decide (s.cget (UG_STAT_VER (s.laneOf j)) = 1)) 254 (.inl rfl)
    simpa only [ne_eq, not_true_eq_false, false_or, decide_eq_true_eq] using this

/-- WRITE of one word. -/
theorem exec_writeCmd_one (ha : a.toNat % 4 = 0) (ht : s.sp.taken = none) (hn : s.preReply (s.laneOf j) 0 2 tag.toNat = none)
    {v : W32} {r : Option (Nat × Nat)} {z : State} (hr : s.regWrite a.toNat 0 tag.toNat 1 (leBytes 4 v.toNat) = (r, z)) :
    exec (.writeCmd j tag (leBytes 4 a.toNat ++ [1, 0] ++ leBytes 4 v.toNat)) s = .next (
      z.reply (s.laneOf j) 0 2 tag.toNat (r.elim 0 Prod.snd) (r.elim [] fun x => if x.2 = 8 then leBytes 2 x.1 else [])) := by
  obtain ⟨haddr, hcnt, hrest⟩ := oneWord_fields a (leBytes 4 v.toNat)
  refine congrArg Host.Outcome.next ((State.mailServe_of_none ht hn _).trans ?_)
  have hlen : (leBytes 4 a.toNat ++ [1, 0] ++ leBytes 4 v.toNat).length = 10 := by simp
  dsimp only
  rw [haddr, hcnt, hlen, hrest, if_neg, hr]
  · cases r <;> rfl
  · have := oneWord_form ha (decide (s.cget (UG_STAT_VER (s.laneOf j)) = 1)) 252 (.inr rfl)
    simpa only [ne_eq, not_true_eq_false, false_or, decide_eq_true_eq, Nat.mul_one, Nat.reduceAdd] using this

end oneword

theorem readWrite_clauses (s : State) (j : Fin 8) (tag : BitVec 16) (a : W32) (ha : a.toNat % 4 = 0) (ht : s.sp.taken = none) :
    (s.preReply (s.laneOf j) 0 1 tag.toNat = none → s.permitted 17 .control a.toNat .read = true →
      ∀ d z, s.busRead 17 a.toNat = (false, d, z) →
        ∃ u r, exec (.readCmd j tag (leBytes 4 a.toNat ++ [1, 0])) s = .next u ∧ u.sp.replies.head? = some r ∧ r.status = 0 ∧
          r.tag = tag.toNat ∧ r.body = leBytes 4 d ∧ u.firn = z.firn ∧ u.freg = z.freg) ∧
    (s.preReply (s.laneOf j) 0 1 tag.toNat = none → s.permitted 17 .control a.toNat .read = false →
      ∃ u r, exec (.readCmd j tag (leBytes 4 a.toNat ++ [1, 0])) s = .next u ∧ u.sp.replies.head? = some r ∧ r.status = 6 ∧
        r.body = [] ∧ u.frozen 17 = true) ∧
    (s.preReply (s.laneOf j) 0 2 tag.toNat = none → s.permitted 17 .control a.toNat .write = true → ∀ v : W32, ∀ z,
      (s.busWriteTag 17 a.toNat v.toNat tag.toNat = (z, false) →
        ∃ u r, exec (.writeCmd j tag (leBytes 4 a.toNat ++ [1, 0] ++ leBytes 4 v.toNat)) s = .next u ∧
          u.sp.replies.head? = some r ∧ r.status = 0 ∧ u.freg = z.freg ∧ u.firn = z.firn) ∧
      (s.busWriteTag 17 a.toNat v.toNat tag.toNat = (z, true) →
        ∃ u r, exec (.writeCmd j tag (leBytes 4 a.toNat ++ [1, 0] ++ leBytes 4 v.toNat)) s = .next u ∧
          u.sp.replies.head? = some r ∧ r.status = 8 ∧ r.body = [0, 0])) := by
  have hg := s.laneOf_lt j
  refine ⟨fun hn hp d z hr => ?_, fun hn hp => ?_, fun hn hp v z => ?_⟩
  · obtain ⟨⟨r, hhead, hst, htag, hbody⟩, hsame, -⟩ := State.reply_facts z hg 0 1 tag.toNat 0 (leBytes 4 d)
    have hfirn := congrArg State.firn hsame
    have hfreg := congrArg State.freg hsame
    exact ⟨_, r, exec_readCmd_one ha ht hn (State.regRead_one hp hr), hhead, hst, htag, hbody, hfirn, hfreg⟩
  · obtain ⟨⟨r, hhead, hst, -, hbody⟩, hsame, hregs, -⟩ :=
      State.reply_facts (s.violation 17 .control a.toNat .read) hg 0 1 tag.toNat 6 []
    refine ⟨_, r, exec_readCmd_one ha ht hn (State.regRead_refused hp 0), hhead, hst, hbody, ?_⟩
    have hpro := congrArg State.pro hsame
    have hfr : ((s.violation 17 .control a.toNat .read).reply (s.laneOf j) 0 1 tag.toNat 6 []).frozen 17 =
        (s.violation 17 .control a.toNat .read).frozen 17 := by
      rw [State.frozen, State.frozen, hpro, hregs FWL_STAT_FROZEN (by unfold queueKey; decide)]
    exact hfr.trans (s.violation_frozen_bk a.toNat .read)
  · have hv : bodyNat (leBytes 4 v.toNat) 0 4 = v.toNat := (oneWord_fields v []).1
    refine ⟨fun hw => ?_, fun hw => ?_⟩
    · obtain ⟨⟨r, hhead, hst, -⟩, hsame, -⟩ := State.reply_facts z hg 0 2 tag.toNat 0 []
      have hfirn := congrArg State.firn hsame
      have hfreg := congrArg State.freg hsame
      exact ⟨_, r, exec_writeCmd_one ha ht hn (State.regWrite_one hp hv hw), hhead, hst, hfreg, hfirn⟩
    · obtain ⟨⟨r, hhead, hst, -, hbody⟩, -⟩ := State.reply_facts z hg 0 2 tag.toNat 8 [0, 0]
      exact ⟨_, r, exec_writeCmd_one ha ht hn (State.regWrite_one hp hv hw), hhead, hst, hbody⟩

/-! ### The writes of TRG_CTRL by the service processor -/

/-- The mode and the arm bit of the word that the control register reads. -/
theorem peek_trgCtrl (s : State) : s.peek TRG_CTRL_MODE.reg % 4 = s.cget TRG_CTRL_MODE ∧
    bitAt (s.peek TRG_CTRL_MODE.reg) 2 = s.con TRG_CTRL_ARM := by
  have hm : s.cget TRG_CTRL_MODE < 4 := s.cget_lt _
  have ha : s.cget TRG_CTRL_ARM < 2 := s.cget_lt _
  have hse : s.cget TRG_CTRL_SEQ_EN < 2 := s.cget_lt _
  have hre : s.cget TRG_CTRL_REQ_EN < 2 := s.cget_lt _
  have hpb : s.cget TRG_CTRL_PRIM_BLK < 2 := s.cget_lt _
  have hpg : s.cget TRG_CTRL_PRIM_GRPS < 16 := s.cget_lt _
  have hp : s.peek TRG_CTRL_MODE.reg = s.cget TRG_CTRL_MODE + 4 * s.cget TRG_CTRL_ARM + 8 * s.cget TRG_CTRL_SEQ_EN +
      16 * s.cget TRG_CTRL_REQ_EN + 32 * s.cget TRG_CTRL_PRIM_BLK + 64 * s.cget TRG_CTRL_PRIM_GRPS := by
    have hword : s.peek TRG_CTRL_MODE.reg = regWord s.cget trgCtrlFields false := by rw [State.peek, findReg_trgCtrl]
    rw [hword]
    simp only [regWord, trgCtrlFields, List.map_cons, List.map_nil, List.sum_cons, List.sum_nil, Bool.false_eq_true, if_false]
    generalize s.cget TRG_CTRL_MODE = m at *
    generalize s.cget TRG_CTRL_ARM = a at *
    generalize s.cget TRG_CTRL_SEQ_EN = b at *
    generalize s.cget TRG_CTRL_REQ_EN = c at *
    generalize s.cget TRG_CTRL_PRIM_BLK = d at *
    generalize s.cget TRG_CTRL_PRIM_GRPS = e at *
    simp only [TRG_CTRL_MODE, TRG_CTRL_ARM, TRG_CTRL_SEQ_EN, TRG_CTRL_REQ_EN, TRG_CTRL_PRIM_BLK, TRG_CTRL_PRIM_GRPS, reduceCtorEq,
      if_false]
    omega
  rw [hp, State.con, bitAt]
  refine ⟨by omega, ?_⟩
  have hq : (s.cget TRG_CTRL_MODE + 4 * s.cget TRG_CTRL_ARM + 8 * s.cget TRG_CTRL_SEQ_EN +
      16 * s.cget TRG_CTRL_REQ_EN + 32 * s.cget TRG_CTRL_PRIM_BLK + 64 * s.cget TRG_CTRL_PRIM_GRPS) / 2 ^ 2 % 2 =
      s.cget TRG_CTRL_ARM := by omega
  rw [hq]
  interval_cases s.cget TRG_CTRL_ARM <;> rfl

/-- The access rights of a master depend on its windows. -/
theorem State.permitted_congr {s t : State} {m : Nat} {sp : Space} {key : Nat} {a : Access}
    (h : ∀ f : Fld, 0x800000 ≤ f.reg → t.cget f = s.cget f) : t.permitted m sp key a = s.permitted m sp key a := by
  have hb : ∀ i, t.cget (FWL_WBASE_BASE i) = s.cget (FWL_WBASE_BASE i) := fun i => h _ (by simp only [FWL_WBASE_BASE]; omega)
  have hl : ∀ i, t.cget (FWL_WLIM_LIMIT i) = s.cget (FWL_WLIM_LIMIT i) := fun i => h _ (by simp only [FWL_WLIM_LIMIT]; omega)
  have hs : ∀ i, t.cget (FWL_WATTR_SPACE i) = s.cget (FWL_WATTR_SPACE i) := fun i => h _ (by simp only [FWL_WATTR_SPACE]; omega)
  have he : ∀ i, t.con (FWL_WATTR_EN i) = s.con (FWL_WATTR_EN i) := fun i => by
    rw [State.con, h _ (by simp only [FWL_WATTR_EN]; omega), State.con]
  have hr : ∀ i, t.con (FWL_WATTR_R i) = s.con (FWL_WATTR_R i) := fun i => by
    rw [State.con, h _ (by simp only [FWL_WATTR_R]; omega), State.con]
  have hw : ∀ i, t.con (FWL_WATTR_W i) = s.con (FWL_WATTR_W i) := fun i => by
    rw [State.con, h _ (by simp only [FWL_WATTR_W]; omega), State.con]
  have hx : ∀ i, t.con (FWL_WATTR_X i) = s.con (FWL_WATTR_X i) := fun i => by
    rw [State.con, h _ (by simp only [FWL_WATTR_X]; omega), State.con]
  unfold State.permitted
  simp only [hb, hl, hs, he, hr, hw, hx]

/-- A permitted write of the control register by the service processor is the operation on it. -/
theorem State.spWrite_trgCtrl {s : State} (hf : s.frozen 0 = false) (hp : s.permitted 0 .control TRG_CTRL_MODE.reg .write = true)
    (v tag : Nat) : s.spWrite TRG_CTRL_MODE.reg v tag = (s.opTrgCtrl 0 v).1 := by
  have href : s.refusal TRG_CTRL_MODE.reg v = [] := by
    simp [State.refusal, State.timRefuse, State.frnRefuse, State.trgRefuse, proRefuse, TRG_CTRL_MODE]
  have hmap : controlMapped TRG_CTRL_MODE.reg = true := by decide
  have hhub : s.hubWrite 0 TRG_CTRL_MODE.reg v = none := by simp [State.hubWrite, TRG_CTRL_MODE]
  have hdata : ∀ l, s.dataWrite 0 TRG_CTRL_MODE.reg v l = some (s.opTrgCtrl 0 v) := fun l => by
    simp [State.dataWrite, TRG_CTRL_MODE]
  have ha : TRG_CTRL_MODE.reg = 0x500000 := rfl
  unfold State.spWrite
  rw [State.guarded_of_permitted hf hp, ha]
  rw [ha] at href hmap hhub hdata
  unfold State.busWriteTag
  simp only [href, hmap, hhub, hdata, Nat.reduceLeDiff, if_false, Nat.reduceEqDiff, Nat.reduceLT, Bool.not_true, Bool.false_eq_true, false_and]

section run
variable {s : State} {v : Nat}

/-- The write leaves every register above the trigger unit's. -/
theorem State.opTrgCtrl_cget_above {f : Fld} (h : 0x800000 ≤ f.reg) : (s.opTrgCtrl 0 v).1.cget f = s.cget f := by
  have hkey : 0x800000 * 64 ≤ f.key := by
    rw [Fld.key]
    omega
  have hne : ∀ g : Fld, g.key < 0x800000 * 64 → f.key ≠ g.key := fun g hg => (Nat.lt_of_lt_of_le hg hkey).ne'
  have hw : (s.writeReg 0 TRG_CTRL_MODE.reg v).1.cget f = s.cget f :=
    State.writeReg_cget_ne findReg_trgCtrl (by decide) 0 v fun g hg => hne g (by revert hg; revert g; decide)
  rw [(s.opTrgCtrl_facts 0 v).1 f (hne _ (by decide))]
  unfold State.ctrlWritten
  split
  · rw [State.cget_cset_ne _ _ _ _ (hne _ (by decide)), State.cget_cset_ne _ _ _ _ (hne _ (by decide)),
      State.cget_cset_ne _ _ _ _ (hne _ (by decide)), hw]
  · rw [State.cget_cset_ne _ _ _ _ (hne _ (by decide)), hw]

/-- The write leaves the service processor's access. -/
theorem State.opTrgCtrl_access (hf : s.frozen 0 = false) (hp : s.permitted 0 .control TRG_CTRL_MODE.reg .write = true) :
    (s.opTrgCtrl 0 v).1.frozen 0 = false ∧ (s.opTrgCtrl 0 v).1.permitted 0 .control TRG_CTRL_MODE.reg .write = true := by
  have hsame := (s.opTrgCtrl_facts 0 v).2.2.2.2
  refine ⟨?_, (State.permitted_congr fun f => State.opTrgCtrl_cget_above).trans hp⟩
  rw [State.frozen, State.opTrgCtrl_cget_above (by decide), congrArg State.pro hsame]
  exact hf

/-- The mode's bits of a word in place of the old ones. -/
theorem withMode_bits {w mode : Nat} (h : mode ≤ 2) : (w / 4 * 4 + mode) % 4 = mode ∧ bitAt (w / 4 * 4 + mode) 2 = bitAt w 2 := by
  have hq : (w / 4 * 4 + mode) / 2 ^ 2 = w / 2 ^ 2 := by omega
  exact ⟨by omega, by rw [bitAt, hq, bitAt]⟩

/-- The arm bit set in a word, or cleared. -/
theorem withArm_bits (w : Nat) :
    (if bitAt w 2 then w else w + 4) % 4 = w % 4 ∧ bitAt (if bitAt w 2 then w else w + 4) 2 = true ∧
    bitAt (if bitAt w 2 then w - 4 else w) 2 = false := by
  cases h : bitAt w 2 with
  | true =>
    have h' : w / 2 ^ 2 % 2 = 1 := by simpa [bitAt] using h
    refine ⟨rfl, h, ?_⟩
    have hq : (w - 4) / 2 ^ 2 % 2 = 0 := by omega
    exact congrArg (· == 1) hq
  | false =>
    have h' : w / 2 ^ 2 % 2 = 0 := by simpa [bitAt] using h
    refine ⟨by simp, ?_, h⟩
    have hq : (w + 4) / 2 ^ 2 % 2 = 1 := by omega
    exact congrArg (· == 1) hq

end run

/-- The state after START wrote the mode. -/
def State.modeWritten (s : State) (mode : Nat) : State :=
  (s.opTrgCtrl 0 (s.peek TRG_CTRL_MODE.reg / 4 * 4 + mode)).1

/-- The state after START armed the unit. -/
def State.armWritten (s : State) : State :=
  (s.opTrgCtrl 0 (if bitAt (s.peek TRG_CTRL_MODE.reg) 2 then s.peek TRG_CTRL_MODE.reg else s.peek TRG_CTRL_MODE.reg + 4)).1

section run
variable {s : State} {mode : Nat}

/-- A mode that may be written is in the register, and the arm bit is as it was. -/
theorem State.modeWritten_accepted (h2 : mode ≤ 2) (hm : mode = s.cget TRG_CTRL_MODE ∨ s.con TRG_CTRL_ARM = false) :
    (s.modeWritten mode).cget TRG_CTRL_MODE = mode ∧ (s.modeWritten mode).con TRG_STAT_ARMED = s.con TRG_STAT_ARMED ∧
    (s.modeWritten mode).twinStandby = s.twinStandby := by
  obtain ⟨hmode, -⟩ := withMode_bits (w := s.peek TRG_CTRL_MODE.reg) h2
  obtain ⟨hregs, -⟩ := s.opTrgCtrl_facts 0 (s.peek TRG_CTRL_MODE.reg / 4 * 4 + mode)
  have hok : ¬ ((s.peek TRG_CTRL_MODE.reg / 4 * 4 + mode) % 4 = 3 ∨
      ((s.peek TRG_CTRL_MODE.reg / 4 * 4 + mode) % 4 ≠ s.cget TRG_CTRL_MODE ∧ s.con TRG_CTRL_ARM = true)) := by
    rw [hmode]
    rintro (h | ⟨h, h'⟩)
    · omega
    · rcases hm with hm | hm
      · exact h hm
      · rw [hm] at h'
        cases h'
  have hacc := (State.ctrlWritten_accepted (m := 0) hok).1
  refine ⟨(hregs _ (by decide)).trans (hacc.trans hmode), ?_, ?_⟩
  · rw [State.con, State.modeWritten, hregs _ (by decide)]
    exact State.ctrlWritten_armed
  · rw [State.twinStandby, State.modeWritten, State.opTrgCtrl_cget_above (by decide), State.twinStandby]

/-- A mode that may not be written leaves the old one. -/
theorem State.modeWritten_refused (h2 : mode ≤ 2) (hm : mode ≠ s.cget TRG_CTRL_MODE) (ha : s.con TRG_CTRL_ARM = true) :
    (s.modeWritten mode).cget TRG_CTRL_MODE = s.cget TRG_CTRL_MODE := by
  obtain ⟨hmode, -⟩ := withMode_bits (w := s.peek TRG_CTRL_MODE.reg) h2
  obtain ⟨hregs, -⟩ := s.opTrgCtrl_facts 0 (s.peek TRG_CTRL_MODE.reg / 4 * 4 + mode)
  exact (hregs _ (by decide)).trans (State.ctrlWritten_refused (.inr ⟨by rw [hmode]; exact hm, ha⟩)).1

/-- The arm bit is set, the mode stays, and a unit that is not armed is asked to arm. -/
theorem State.armWritten_facts (h2 : s.cget TRG_CTRL_MODE ≤ 2) (ha : s.con TRG_STAT_ARMED = false) (ht : s.twinStandby = false) :
    s.armWritten.cget TRG_CTRL_MODE = s.cget TRG_CTRL_MODE ∧ s.armWritten.con TRG_CTRL_ARM = true ∧ s.armWritten.trg.armAsk = true := by
  obtain ⟨hmode, hset, -⟩ := withArm_bits (s.peek TRG_CTRL_MODE.reg)
  rw [(peek_trgCtrl s).1] at hmode
  unfold State.armWritten
  generalize (if bitAt (s.peek TRG_CTRL_MODE.reg) 2 then s.peek TRG_CTRL_MODE.reg else s.peek TRG_CTRL_MODE.reg + 4) = v at hmode hset
  obtain ⟨hregs, hask, -⟩ := s.opTrgCtrl_facts 0 v
  obtain ⟨hm, har, -⟩ := State.ctrlWritten_accepted (s := s) (m := 0) (v := v) (by
    rw [hmode]
    rintro (h | ⟨h, -⟩)
    · omega
    · exact h rfl)
  refine ⟨(hregs _ (by decide)).trans (hm.trans hmode), ?_, by rw [hask, hset, ha, ht]; rfl⟩
  rw [State.con, hregs _ (by decide)]
  exact har.trans hset

end run

/-- Accepted or refused, a write of the control register takes the arm bit of the word. -/
theorem State.ctrlWritten_arm {s : State} {m v : Nat} : (s.ctrlWritten m v).con TRG_CTRL_ARM = bitAt v 2 := by
  have hw : (s.writeReg m TRG_CTRL_MODE.reg v).1.cget TRG_CTRL_ARM = bits v 2 1 :=
    State.cget_writeReg_rw findReg_trgCtrl (by decide) (by decide) m v (by simp [trgCtrlFields]) rfl (by decide) (by decide)
  unfold State.ctrlWritten
  split
  · rw [State.con_cset_ne _ _ _ _ (by decide), State.con_cset_ne _ _ _ _ (by decide), State.con_cset_ne _ _ _ _ (by decide),
      State.con, hw, bits_one]
  · rw [State.con_cset_ne _ _ _ _ (by decide), State.con, hw, bits_one]

/-- A packet for another service than REG is served only while the service processor's accesses are made. -/
theorem State.frozen_of_preReply {s : State} {g svc cmd tag : Nat} (hn : s.preReply g svc cmd tag = none)
    (hs : svc ≠ 0 ∧ svc ≠ 7) : s.frozen 0 = false := by
  have h := State.mailFrozen_of_preReply hn
  simp only [State.mailFrozen, State.spDown, hs.1, hs.2, ne_eq, not_false_eq_true, decide_true, decide_false, Bool.and_false,
    Bool.not_false, Bool.and_true, Bool.true_and, Bool.or_eq_false_iff] at h
  exact h.2.1.2

theorem startStop_clauses (s : State) (j : Fin 8) (tag : BitVec 16) (ht : s.sp.taken = none)
    (hp : s.permitted 0 .control TRG_CTRL_MODE.reg .write = true) :
    (s.preReply (s.laneOf j) 1 2 tag.toNat = none → ∀ mode : Byte, mode.toNat ≤ 2 →
      (mode.toNat = s.cget TRG_CTRL_MODE ∨ s.con TRG_CTRL_ARM = false → s.con TRG_STAT_ARMED = false → s.twinStandby = false →
        ∃ u r, exec (.startCmd j tag [mode]) s = .next u ∧ u.cget TRG_CTRL_MODE = mode.toNat ∧ u.con TRG_CTRL_ARM = true ∧
          u.trg.armAsk = true ∧ u.sp.replies.head? = some r ∧ r.status = 0) ∧
      (mode.toNat ≠ s.cget TRG_CTRL_MODE → s.con TRG_CTRL_ARM = true →
        ∃ u r, exec (.startCmd j tag [mode]) s = .next u ∧ u.cget TRG_CTRL_MODE = s.cget TRG_CTRL_MODE ∧
          u.sp.replies.head? = some r ∧ r.status = 8)) ∧
    (s.preReply (s.laneOf j) 1 3 tag.toNat = none → s.con TRG_STAT_ARMED = true → ∃ u r, exec (.stopCmd j tag []) s = .next u ∧
      u.con TRG_CTRL_ARM = false ∧ u.trg.disarmAsk = true ∧ u.sp.replies.head? = some r ∧ r.status = 0) ∧
    (s.preReply (s.laneOf j) 1 1 tag.toNat = none → ∃ u r, exec (.runStatus j tag []) s = .next u ∧
      u.sp.replies.head? = some r ∧ r.status = 0 ∧ u = { s with creg := u.creg, upl := u.upl, sp := u.sp }) := by
  have hg := s.laneOf_lt j
  refine ⟨fun hn mode h2 => ?_, fun hn ha => ?_, fun hn => ?_⟩
  · have hf := State.frozen_of_preReply hn (by decide)
    have hw1 : s.spWrite TRG_CTRL_MODE.reg (s.peek TRG_CTRL_MODE.reg / 4 * 4 + mode.toNat) tag.toNat = s.modeWritten mode.toNat :=
      State.spWrite_trgCtrl hf hp _ _
    obtain ⟨hf1, hp1⟩ := State.opTrgCtrl_access (v := s.peek TRG_CTRL_MODE.reg / 4 * 4 + mode.toNat) hf hp
    have hw2 := State.spWrite_trgCtrl hf1 hp1 (if bitAt ((s.modeWritten mode.toNat).peek TRG_CTRL_MODE.reg) 2 then
      (s.modeWritten mode.toNat).peek TRG_CTRL_MODE.reg else (s.modeWritten mode.toNat).peek TRG_CTRL_MODE.reg + 4) tag.toNat
    have he : exec (.startCmd j tag [mode]) s = .next (
        if (s.modeWritten mode.toNat).cget TRG_CTRL_MODE ≠ mode.toNat then
          (s.modeWritten mode.toNat).reply (s.laneOf j) 1 2 tag.toNat 8 [0]
        else (s.modeWritten mode.toNat).armWritten.reply (s.laneOf j) 1 2 tag.toNat 0 []) := by
      refine congrArg Host.Outcome.next ((State.mailServe_of_none ht hn _).trans ?_)
      have hb : bodyNat [mode] 0 1 = mode.toNat := by simp [bodyNat, ofBytes]
      dsimp only
      have hform : ¬ ([mode].length ≠ 1 ∨ 2 < mode.toNat) := by
        rintro (h | h)
        exacts [h rfl, Nat.not_lt.2 h2 h]
      rw [hb, if_neg hform, hw1]
      exact congrArg (fun z : State => if (s.modeWritten mode.toNat).cget TRG_CTRL_MODE ≠ mode.toNat then
        (s.modeWritten mode.toNat).reply (s.laneOf j) 1 2 tag.toNat 8 [0] else z.reply (s.laneOf j) 1 2 tag.toNat 0 []) hw2
    refine ⟨fun hm ha hst => ?_, fun hm ha => ?_⟩
    · obtain ⟨hmode, harmed, htwin⟩ := State.modeWritten_accepted h2 hm
      obtain ⟨hmode', harm, hask⟩ := State.armWritten_facts (hmode.trans_le h2) (harmed.trans ha) (htwin.trans hst)
      obtain ⟨⟨r, hr, hst, -⟩, hsame, hkept, -⟩ := State.reply_facts (s.modeWritten mode.toNat).armWritten hg 1 2 tag.toNat 0 []
      refine ⟨_, r, he.trans (congrArg Host.Outcome.next (if_neg (not_not.2 hmode))), ?_, ?_, ?_, hr, hst⟩
      · rw [hkept _ (by unfold queueKey; decide), hmode', hmode]
      · rw [State.con, hkept _ (by unfold queueKey; decide)]
        exact harm
      · exact (congrArg (fun z => z.trg.armAsk) hsame).trans hask
    · have hmode := State.modeWritten_refused h2 hm ha
      obtain ⟨⟨r, hr, hst, -⟩, -, hkept, -⟩ := State.reply_facts (s.modeWritten mode.toNat) hg 1 2 tag.toNat 8 [0]
      refine ⟨_, r, he.trans (congrArg Host.Outcome.next (if_pos fun h => hm (h.symm.trans hmode))), ?_, hr, hst⟩
      rw [hkept _ (by unfold queueKey; decide), hmode]
  · have hf := State.frozen_of_preReply hn (by decide)
    have hw := State.spWrite_trgCtrl hf hp (if bitAt (s.peek TRG_CTRL_MODE.reg) 2 then s.peek TRG_CTRL_MODE.reg - 4
      else s.peek TRG_CTRL_MODE.reg) tag.toNat
    obtain ⟨-, -, hclear⟩ := withArm_bits (s.peek TRG_CTRL_MODE.reg)
    have he : exec (.stopCmd j tag []) s = .next ((s.spWrite TRG_CTRL_MODE.reg (if bitAt (s.peek TRG_CTRL_MODE.reg) 2 then
        s.peek TRG_CTRL_MODE.reg - 4 else s.peek TRG_CTRL_MODE.reg) tag.toNat).reply (s.laneOf j) 1 3 tag.toNat 0 []) :=
      congrArg Host.Outcome.next (State.mailServe_of_none ht hn _)
    rw [hw] at he
    generalize (if bitAt (s.peek TRG_CTRL_MODE.reg) 2 then s.peek TRG_CTRL_MODE.reg - 4 else s.peek TRG_CTRL_MODE.reg) = v
      at he hclear
    obtain ⟨hregs, -, hdis, -⟩ := s.opTrgCtrl_facts 0 v
    obtain ⟨⟨r, hr, hst, -⟩, hsame, hkept, -⟩ := State.reply_facts (s.opTrgCtrl 0 v).1 hg 1 3 tag.toNat 0 []
    refine ⟨_, r, he, ?_, ?_, hr, hst⟩
    · rw [State.con, hkept _ (by unfold queueKey; decide), hregs _ (by decide)]
      exact State.ctrlWritten_arm.trans hclear
    · exact (congrArg (fun z => z.trg.disarmAsk) hsame).trans (hdis.trans (by rw [hclear, ha]))
  · obtain ⟨⟨r, hr, hst, -⟩, hsame, -⟩ := State.reply_facts s hg 1 1 tag.toNat 0
      (Config.runStatusBody (s.peek TRG_CTRL_MODE.reg) (s.peek TRG_STAT_ARMED.reg))
    exact ⟨_, r, congrArg Host.Outcome.next (State.mailServe_of_none ht hn _), hr, hst, hsame⟩

/-- Settles O43: the packet of one word by the fields of that word; READ and WRITE through the register accesses of BK; START, STOP and
STATUS through the operation on the control register. -/
theorem theMailboxAnswersEveryPacket : Obligations.TheMailboxAnswersEveryPacket :=
  ⟨fun _ _ j hin hlen hb => mailboxTake_clause j hin hlen hb, readWrite_clauses, startStop_clauses⟩

end Sys2Proof.Machine

/-! ## The services CAL, HIST, MON, TIME and LOG -/

namespace Sys2Proof.Machine

set_option Elab.async false

/-- A scan of port 0 in its first step. -/
def portScan : Scan :=
  { cmd := 4, first := 0, last := 0, sel := 0, m := 2, start := 0, stop := 0, step := 1, odd := 0, value := 0 }

/-- A running service processor that scans port 0, which stands twice in the table of the ports. -/
def twicePort : State :=
  { State.reset with
    creg := [(SP_STAT_RUN.key, 1)]
    ports := [(0, {}), (0, {})]
    sp := { State.reset.sp with scan := some portScan, stopped := false } }

theorem preReply_of_twicePort (svc cmd tag : Nat) : twicePort.preReply (twicePort.laneOf 0) svc cmd tag = none := by
  have hdown : twicePort.spDown = false := by decide +kernel
  have hbk : twicePort.frozen 17 = false := by decide +kernel
  have hrec : twicePort.con GLB_STAT_RECOVERY = false := by decide +kernel
  have hf : twicePort.mailFrozen svc = false := by simp [State.mailFrozen, hdown, hbk]
  have hr : twicePort.repeated (twicePort.laneOf 0) svc cmd tag = none := rfl
  simp [State.preReply, hf, hrec, hr]

/-- The tick takes each entry of the table in turn, the second time with no fast command left to send. -/
theorem fastTx_after_tick {u : State} (h : exec .frameTick twicePort = .next u) : (u.port 0).fastTx = [] := by
  change execFrameTick twicePort = .next u at h
  unfold execFrameTick at h
  rw [← Host.Outcome.next.inj h]
  decide +kernel

/-- Refutes O44: in a state whose table of ports names a port twice, the tick takes the port twice, and the PULSE of the scan is not sent. -/
theorem not_servicesRunTheirCommands : ¬ Obligations.ServicesRunTheirCommands := by
  intro h
  obtain ⟨-, hscan, -⟩ := h twicePort 0 0 rfl fun svc cmd => preReply_of_twicePort svc cmd _
  obtain ⟨u, y, he, -, -, -, -, hp⟩ := hscan portScan rfl rfl rfl (by decide)
  have h3 := hp 0 (Nat.le_refl _) (Nat.le_refl _)
  rw [fastTx_after_tick he] at h3
  exact absurd h3 (by decide)

end Sys2Proof.Machine

/-! ## Mover channels -/

namespace Sys2Proof.Machine

set_option Elab.async false

/-! ### State and status of a channel -/

/-- A register outside those of the mover. -/
def offMover (f : Fld) : Prop := f.key < 0x700000 * 64 ∨ 0x700300 * 64 ≤ f.key

theorem offMover_of_reg {f : Fld} (h : 0x800000 ≤ f.reg) : offMover f := by
  right
  rw [Fld.key]
  omega

/-- `t` is `s` with mover channels changed: their registers and what they hold. -/
structure MoverOnly (s t : State) : Prop where
  same : t = { s with creg := t.creg, mv := t.mv }
  regs : ∀ f : Fld, offMover f → t.cget f = s.cget f

namespace MoverOnly

variable {s t u : State}

theorem refl (s : State) : MoverOnly s s := ⟨rfl, fun _ _ => rfl⟩

theorem trans (h1 : MoverOnly s t) (h2 : MoverOnly t u) : MoverOnly s u := by
  refine ⟨?_, fun f hf => (h2.regs f hf).trans (h1.regs f hf)⟩
  rw [h2.same, h1.same]

theorem cset (h : MoverOnly s t) (f : Fld) (v : Nat) (hf : ¬ offMover f) : MoverOnly s (t.cset f v) := by
  refine ⟨?_, fun g hg => ?_⟩
  · rw [h.same]; rfl
  · rw [State.cget_cset_ne t f g v (fun e => hf (by unfold offMover at hg ⊢; omega)), h.regs g hg]

theorem modMch (h : MoverOnly s t) (c : Nat) (g : MvCh → MvCh) : MoverOnly s (t.modMch c g) := by
  refine ⟨?_, fun f hf => h.regs f hf⟩
  rw [h.same]; rfl

theorem when (h : MoverOnly s t) (b : Bool) (g : State → State) (hg : MoverOnly s (g t)) : MoverOnly s (t.when b g) := by
  cases b
  · exact h
  · exact hg

theorem foldl {α : Type} (h : MoverOnly s t) (g : State → α → State) (l : List α)
    (hg : ∀ z a, a ∈ l → MoverOnly s z → MoverOnly s (g z a)) : MoverOnly s (l.foldl g t) :=
  List.foldlRecOn (motive := MoverOnly s) l g h fun z hz a ha => hg z a ha hz

/-- What a master may access, and whether it is frozen, does not lie with the mover. -/
theorem frozen_eq (h : MoverOnly s t) (m : Nat) : t.frozen m = s.frozen m := by
  rw [State.frozen, State.frozen, h.regs _ (offMover_of_reg (by decide)), congrArg State.pro h.same]

theorem permitted_eq (h : MoverOnly s t) (m : Nat) (sp : Space) (key : Nat) (a : Access) : t.permitted m sp key a = s.permitted m sp key a :=
  State.permitted_congr fun f hf => h.regs f (offMover_of_reg hf)

end MoverOnly

section ch
variable {c : Nat}

theorem not_offMover_state (hc : c < 16) : ¬ offMover (MV_CH_STAT_STATE c) := by
  simp only [offMover, Fld.key, MV_CH_STAT_STATE]
  omega

theorem not_offMover_status (hc : c < 16) : ¬ offMover (MV_CH_STAT_STATUS c) := by
  simp only [offMover, Fld.key, MV_CH_STAT_STATUS]
  omega

theorem not_offMover_pending (hc : c < 16) : ¬ offMover (MV_CH_STAT_PENDING c) := by
  simp only [offMover, Fld.key, MV_CH_STAT_PENDING]
  omega

theorem State.setMv_mover (s : State) (hc : c < 16) (st : Nat) : MoverOnly s (s.setMv c st) :=
  ((MoverOnly.refl s).cset _ _ (not_offMover_state hc)).cset _ _ (by unfold offMover; decide)

/-- A channel's state and the busy bits are all that `setMv` writes. -/
theorem State.setMv_cget {s : State} {st : Nat} {f : Fld} (h : f.key ≠ (MV_CH_STAT_STATE c).key) (hb : f.key ≠ MV_STAT_BUSY.key) :
    (s.setMv c st).cget f = s.cget f := by
  unfold State.setMv
  dsimp only
  rw [State.cget_cset_ne _ _ _ _ hb, State.cget_cset_ne _ _ _ _ h]

theorem State.setMv_mvState {s : State} {st : Nat} (h : st < 8) : (s.setMv c st).mvState c = st := by
  unfold State.setMv
  dsimp only
  rw [State.mvState, State.cget_cset_ne _ _ _ _ (by simp only [Fld.key, MV_CH_STAT_STATE, MV_STAT_BUSY]; omega)]
  exact State.cget_cset_of_lt _ h

theorem State.setMv_mvState_ne {s : State} {st d : Nat} (h : d ≠ c) : (s.setMv c st).mvState d = s.mvState d :=
  State.setMv_cget (by simp only [Fld.key, MV_CH_STAT_STATE]; omega) (by simp only [Fld.key, MV_CH_STAT_STATE, MV_STAT_BUSY]; omega)

theorem mch_modMch (s : State) (g : MvCh → MvCh) : (s.modMch c g).mch c = g (s.mch c) := tget_tset_same _ _ _ _

theorem mch_modMch_ne {s : State} {d : Nat} (g : MvCh → MvCh) (h : d ≠ c) : (s.modMch c g).mch d = s.mch d := tget_tset_ne _ _ _ _ h

end ch

/-! ### Halts -/

section halt
variable {s : State} {c : Nat} {st : Nat}

/-- A channel's halt before its descriptor is written back. -/
def State.mvHalting (s : State) (c st : Nat) : State :=
  (((s.setMv c 5).cset (MV_CH_STAT_STATUS c) st).mvErr c st false).modMch c fun x => { x with powerWait := false }

theorem State.mvErr_mover (s : State) (c st : Nat) (all : Bool) : MoverOnly s (s.mvErr c st all) :=
  (((MoverOnly.refl s).cset _ _ (by unfold offMover; decide)).cset _ _ (by unfold offMover; decide)).cset _ _ (by unfold offMover; decide)

theorem State.mvErr_cget {all : Bool} {f : Fld} (h : f.reg ≠ MV_ERR_CH.reg) (hlo : f.lo < 64) : (s.mvErr c st all).cget f = s.cget f := by
  have hk : ∀ g : Fld, g.reg = MV_ERR_CH.reg → g.lo < 64 → f.key ≠ g.key := fun g hg hg' => by
    simp only [Fld.key]
    omega
  unfold State.mvErr
  rw [State.cget_cset_ne _ MV_ERR_ALL _ _ (hk _ rfl (by decide)), State.cget_cset_ne _ MV_ERR_STATUS _ _ (hk _ rfl (by decide)),
    State.cget_cset_ne _ MV_ERR_CH _ _ (hk _ rfl (by decide))]

theorem State.mvErr_facts {all : Bool} (hc : c < 16) (hst : st < 32) :
    (s.mvErr c st all).cget MV_ERR_CH = c ∧ (s.mvErr c st all).cget MV_ERR_STATUS = st := by
  unfold State.mvErr
  refine ⟨?_, ?_⟩
  · rw [State.cget_cset_ne _ _ _ _ (by decide), State.cget_cset_ne _ _ _ _ (by decide)]
    exact State.cget_cset_of_lt _ hc
  · rw [State.cget_cset_ne _ _ _ _ (by decide)]
    exact State.cget_cset_of_lt _ hst

theorem State.mvHalting_mover (hc : c < 16) : MoverOnly s (s.mvHalting c st) :=
  (((s.setMv_mover hc 5).cset _ _ (not_offMover_status hc)).trans (State.mvErr_mover _ c st false)).modMch c _

theorem State.mvHalting_facts (hc : c < 16) (hst : st < 32) : let t := s.mvHalting c st
    t.mvState c = 5 ∧ t.cget (MV_CH_STAT_STATUS c) = st ∧ t.cget MV_ERR_CH = c ∧ t.cget MV_ERR_STATUS = st ∧
    t.cget (MV_CH_CUR_IDX c) = s.cget (MV_CH_CUR_IDX c) := by
  have hr : ∀ f : Fld, f.reg ≠ MV_ERR_CH.reg → f.lo < 64 →
      (s.mvHalting c st).cget f = ((s.setMv c 5).cset (MV_CH_STAT_STATUS c) st).cget f := fun f h hlo => by
    change (((s.setMv c 5).cset (MV_CH_STAT_STATUS c) st).mvErr c st false).cget f = _
    exact State.mvErr_cget h hlo
  obtain ⟨hech, hest⟩ := State.mvErr_facts (s := (s.setMv c 5).cset (MV_CH_STAT_STATUS c) st) (all := false) hc hst
  refine ⟨?_, ?_, hech, hest, ?_⟩
  · rw [State.mvState, hr _ (by simp only [MV_CH_STAT_STATE, MV_ERR_CH]; omega) (by simp [MV_CH_STAT_STATE]),
      State.cget_cset_ne _ _ _ _ (by simp only [Fld.key, MV_CH_STAT_STATE, MV_CH_STAT_STATUS]; omega)]
    exact State.setMv_mvState (by decide)
  · rw [hr _ (by simp only [MV_CH_STAT_STATUS, MV_ERR_CH]; omega) (by simp [MV_CH_STAT_STATUS])]
    exact State.cget_cset_of_lt _ hst
  · rw [hr _ (by simp only [MV_CH_CUR_IDX, MV_ERR_CH]; omega) (by simp [MV_CH_CUR_IDX]),
      State.cget_cset_ne _ _ _ _ (by simp only [Fld.key, MV_CH_CUR_IDX, MV_CH_STAT_STATUS]; omega)]
    exact State.setMv_cget (by simp only [Fld.key, MV_CH_CUR_IDX, MV_CH_STAT_STATE]; omega)
      (by simp only [Fld.key, MV_CH_CUR_IDX, MV_STAT_BUSY]; omega)

/-- A channel whose write-back is permitted halts: state, status and the error register. -/
theorem State.mvHalt_facts (hc : c < 16) (hst : st < 32) (hf : s.frozen (1 + c) = false)
    (hp : s.permitted (1 + c) .control (32 * s.cget (MV_CH_CUR_IDX c) + 24) .write = true) : let u := s.mvHalt c st
    u.mvState c = 5 ∧ u.cget (MV_CH_STAT_STATUS c) = st ∧ u.cget MV_ERR_CH = c ∧ u.cget MV_ERR_STATUS = st := by
  have hm := State.mvHalting_mover (s := s) (st := st) hc
  obtain ⟨hstate, hstatus, hech, hest, hidx⟩ := State.mvHalting_facts (s := s) hc hst
  have hp' : (s.mvHalting c st).permitted (1 + c) .control (32 * (s.mvHalting c st).cget (MV_CH_CUR_IDX c) + 24) .write = true := by
    rw [hm.permitted_eq, hidx]
    exact hp
  have hback : s.mvHalt c st = (s.mvHalting c st).cramWrite ((32 * (s.mvHalting c st).cget (MV_CH_CUR_IDX c) + 24) / 8)
      (((s.mvHalting c st).mch c).word3 false st) :=
    State.guarded_of_permitted ((hm.frozen_eq _).trans hf) hp' fun z => z.cramWrite _ _
  rw [hback]
  exact ⟨hstate, hstatus, hech, hest⟩

end halt

/-! ### The control register of a channel -/

section ctrl
variable {s : State} {c : Nat} {v : Nat}

theorem bitAt_mod_eight (v : Nat) : bitAt v 0 = bitAt (v % 8) 0 ∧ bitAt v 1 = bitAt (v % 8) 1 ∧ bitAt v 2 = bitAt (v % 8) 2 := by
  refine ⟨congrArg (· == 1) ?_, congrArg (· == 1) ?_, congrArg (· == 1) ?_⟩ <;> omega

/-- A waiting channel that is paced moves its burst. -/
theorem State.pace_waiting (h : s.mvState c = 2) :
    s.pace c = (s.setMv c 3).modMch c fun x => { x with released := s.mvBurst c } := if_pos h

theorem opMvCtrl_start (hv : v % 8 = 1) : s.opMvCtrl c v = if s.mvState c = 0 ∨ s.mvState c = 5 then s.setMv c 1 else s := by
  obtain ⟨h0, h1, h2⟩ := bitAt_mod_eight v
  rw [hv] at h0 h1 h2
  have h0' : bitAt v 0 = true := h0
  have h1' : bitAt v 1 = false := h1
  have h2' : bitAt v 2 = false := h2
  simp only [State.opMvCtrl, h0', h1', h2', Bool.true_and, Bool.false_and, Bool.false_eq_true, if_false, Bool.or_eq_true,
    decide_eq_true_eq]

theorem opMvCtrl_kick (hv : v % 8 = 2) (hsrc : (s.mch c).fld 2 36 4 = 12) : s.opMvCtrl c v = s.pace c := by
  obtain ⟨h0, h1, h2⟩ := bitAt_mod_eight v
  rw [hv] at h0 h1 h2
  have h0' : bitAt v 0 = false := h0
  have h1' : bitAt v 1 = true := h1
  have h2' : bitAt v 2 = false := h2
  simp only [State.opMvCtrl, h0', h1', h2', hsrc, Bool.true_and, Bool.false_and, Bool.false_eq_true, if_false, decide_true, if_true]

theorem opMvCtrl_abort (hv : v % 8 = 4) (h1s : 1 ≤ s.mvState c) (h4s : s.mvState c ≤ 4) : s.opMvCtrl c v = s.mvHalt c 16 := by
  obtain ⟨h0, h1, h2⟩ := bitAt_mod_eight v
  rw [hv] at h0 h1 h2
  have h0' : bitAt v 0 = false := h0
  have h1' : bitAt v 1 = false := h1
  have h2' : bitAt v 2 = true := h2
  simp only [State.opMvCtrl, h0', h1', h2', Bool.false_and, Bool.false_eq_true, if_false, h1s, h4s, decide_true,
    Bool.and_true, if_true]

end ctrl

theorem moverCtrl_clause (s : State) (c : MvIx) (m : MasterIx) (v : W32) (hf : s.frozen m = false)
    (hp : s.permitted m .control (MV_CH_CTRL_START c).reg .write = true) :
    let back := s.frozen (1 + c.val) = false ∧ s.permitted (1 + c.val) .control (32 * s.cget (MV_CH_CUR_IDX c) + 24) .write = true
    (v.toNat % 8 = 1 → s.mvState c = 0 ∨ s.mvState c = 5 → ∃ u, exec (.moverStart c m v) s = .next u ∧ u.mvState c = 1) ∧
    (v.toNat % 8 = 1 → s.mvState c ≠ 0 → s.mvState c ≠ 5 → ∃ u, exec (.moverStart c m v) s = .next u ∧ u = { s with sp := u.sp }) ∧
    (v.toNat % 8 = 2 → s.mvState c = 2 → (s.mch c).fld 2 36 4 = 12 → ∃ u, exec (.moverKick c m v) s = .next u ∧ u.mvState c = 3 ∧
      (u.mch c).released = s.mvBurst c) ∧
    (v.toNat % 8 = 4 → 1 ≤ s.mvState c → s.mvState c ≤ 4 → back → ∃ u, exec (.moverAbort c m v) s = .next u ∧ u.mvState c = 5 ∧
      u.cget (MV_CH_STAT_STATUS c) = 16) := by
  have he := State.guarded_of_permitted hf hp fun z => (z.opMvCtrl c.val v.toNat).answer m.val false 0
  refine ⟨fun hv hs => ⟨_, congrArg Host.Outcome.next he, ?_⟩, fun hv h0 h5 => ⟨_, congrArg Host.Outcome.next he, ?_⟩,
    fun hv hs hsrc => ⟨_, congrArg Host.Outcome.next he, ?_⟩, fun hv h1 h4 hb => ⟨_, congrArg Host.Outcome.next he, ?_⟩⟩
  · rw [opMvCtrl_start hv, if_pos hs]
    exact State.setMv_mvState (by decide)
  · rw [opMvCtrl_start hv, if_neg (not_or.2 ⟨h0, h5⟩)]
    rfl
  · rw [opMvCtrl_kick hv hsrc, State.pace_waiting hs]
    exact ⟨State.setMv_mvState (by decide), congrArg MvCh.released (mch_modMch (s.setMv c 3) fun x => { x with released := s.mvBurst c })⟩
  · rw [opMvCtrl_abort hv h1 h4]
    obtain ⟨hstate, hstatus, -⟩ := State.mvHalt_facts c.isLt (by decide : 16 < 32) hb.1 hb.2
    exact ⟨hstate, hstatus⟩

/-! ### A fetched descriptor -/

/-- A channel whose counters start at 0 for a new descriptor. -/
def State.mvStarted (s : State) (c : Nat) : State := (s.cset (MV_CH_DONE_BYTES c) 0).cset (MV_CH_CRC_CRC c) 0

theorem State.mvStarted_setMv_bytes {s : State} {c st : Nat} : ((s.mvStarted c).setMv c st).cget (MV_CH_DONE_BYTES c) = 0 := by
  rw [State.setMv_cget (by simp only [Fld.key, MV_CH_DONE_BYTES, MV_CH_STAT_STATE]; omega)
      (by simp only [Fld.key, MV_CH_DONE_BYTES, MV_STAT_BUSY]; omega), State.mvStarted,
    State.cget_cset_ne _ _ _ _ (by simp only [Fld.key, MV_CH_DONE_BYTES, MV_CH_CRC_CRC]; omega)]
  exact State.cget_cset_of_lt _ (Nat.two_pow_pos _)

section fetch
variable {s z : State} {c : MvIx} {ds : List W64}

/-- A descriptor that has been read well is checked. -/
theorem exec_moverFetch_ok (hs : s.mvState c = 1) (hr : s.mvReadDesc c (32 * s.cget (MV_CH_CUR_IDX c)) 4 = (ds, true, z))
    (hz : z.frozen (1 + c.val) = false) : exec (.moverFetch c .ok) s = .next ((z.modMch c fun _ => { desc := ds }).mvChecked c) := by
  show execMoverFetch c .ok s = _
  unfold execMoverFetch
  simp only [hs, hr, hz, ne_eq, not_true_eq_false, if_false, Bool.false_eq_true, Bool.not_true, reduceCtorEq, decide_false, Bool.or_self]

theorem moverFetch_clause (hs : s.mvState c = 1) (hr : s.mvReadDesc c (32 * s.cget (MV_CH_CUR_IDX c)) 4 = (ds, true, z))
    (hz : z.frozen (1 + c.val) = false) (hpend : z.cget (MV_CH_STAT_PENDING c) = 0) (hdark : z.portsDark = false) :
    let x : MvCh := { desc := ds }
    (x.valid = true → ∃ u, exec (.moverFetch c .ok) s = .next u ∧ (u.mch c).desc = ds ∧ (u.mch c).moved = 0 ∧
      u.mvState c = (if x.fld 2 36 4 = 0 then 3 else 2) ∧ u.cget (MV_CH_DONE_BYTES c) = 0) ∧
    (x.valid = false → z.permitted (1 + c.val) .control (32 * z.cget (MV_CH_CUR_IDX c) + 24) .write = true →
      ∃ u, exec (.moverFetch c .ok) s = .next u ∧ u.mvState c = 5 ∧ u.cget (MV_CH_STAT_STATUS c) = 1) := by
  intro x
  have he := exec_moverFetch_ok hs hr hz
  have hx : (z.modMch c fun _ => { desc := ds }).mch c = x := mch_modMch _ _
  have hd : (z.modMch c fun _ => { desc := ds }).portsDark = false := hdark
  have hpend' : (z.modMch c fun _ => { desc := ds }).cget (MV_CH_STAT_PENDING c) = 0 := hpend
  have hfz : (z.modMch c fun _ => { desc := ds }).frozen (1 + c.val) = false := hz
  have hperm : ∀ k, (z.modMch c fun _ => { desc := ds }).permitted (1 + c.val) .control k .write =
    z.permitted (1 + c.val) .control k .write := fun _ => rfl
  have hidx : (z.modMch c fun _ => { desc := ds }).cget (MV_CH_CUR_IDX c) = z.cget (MV_CH_CUR_IDX c) := rfl
  generalize z.modMch c (fun _ => { desc := ds }) = y at *
  refine ⟨fun hv => ⟨_, he, ?_⟩, fun hv hp => ⟨_, he, ?_⟩⟩
  · have hval : ¬ ((!(y.mch c).valid) = true) := by rw [hx, hv]; decide
    have hports : ¬ (((y.mch c).namesPorts && y.portsDark) = true) := by rw [hd, Bool.and_false]; decide
    have hc : y.mvChecked c = if (y.mch c).fld 2 36 4 = 0 then
        (y.mvStarted c).setMv c 3 |>.modMch c fun w => { w with released := w.fld 2 0 24 } else (y.mvStarted c).mvWait c :=
      (if_neg hval).trans (if_neg hports)
    have hcount : (y.mvStarted c).cget (MV_CH_STAT_PENDING c) = 0 := by
      rw [State.mvStarted, State.cget_cset_ne _ _ _ _ (by simp only [Fld.key, MV_CH_STAT_PENDING, MV_CH_CRC_CRC]; omega),
        State.cget_cset_ne _ _ _ _ (by simp only [Fld.key, MV_CH_STAT_PENDING, MV_CH_DONE_BYTES]; omega), hpend']
    have hmch : ∀ (st : Nat) (g : MvCh → MvCh), (((y.mvStarted c).setMv c st).modMch c g).mch c = g x := fun st g =>
      (mch_modMch _ g).trans (congrArg g hx)
    rw [hc, hx]
    by_cases h0 : x.fld 2 36 4 = 0
    · rw [if_pos h0, if_pos h0, hmch]
      exact ⟨rfl, rfl, State.setMv_mvState (by decide), State.mvStarted_setMv_bytes⟩
    · rw [if_neg h0, if_neg h0]
      have hw : (y.mvStarted c).mvWait c = ((y.mvStarted c).setMv c 2).modMch c fun w =>
          { w with waitTick := (y.mvStarted c).tm.tick, released := 0 } := if_pos hcount
      rw [hw, hmch]
      exact ⟨rfl, rfl, State.setMv_mvState (by decide), State.mvStarted_setMv_bytes⟩
  · have hc : y.mvChecked c = y.mvHalt c 1 := if_pos (by rw [hx, hv]; rfl)
    rw [hc]
    obtain ⟨hstate, hstatus, -⟩ := State.mvHalt_facts (s := y) c.isLt (by decide : 1 < 32) hfz (by rw [hperm, hidx]; exact hp)
    exact ⟨hstate, hstatus⟩

end fetch

/-! ### Words of control RAM, a byte at a time -/

section ram
variable {s : State} {c : Nat}

theorem State.cramWord_cramWrite (i : Nat) (w : W64) : (s.cramWrite i w).cramWord i = some w := by
  have h : tget (s.cramWrite i w).sp.cram i none = some w := tget_tset_same s.sp.cram i none (some w)
  rw [State.cramWord, h]

theorem State.cramWord_cramWrite_ne {i j : Nat} (w : W64) (h : j ≠ i) : (s.cramWrite i w).cramWord j = s.cramWord j := by
  have ht : tget (s.cramWrite i w).sp.cram j none = tget s.sp.cram j none := tget_tset_ne s.sp.cram none (some w) none h
  rw [State.cramWord, ht]
  rfl

/-- The words of the control RAM are those written and those of the firmware's image. -/
theorem State.cramWord_congr {s t : State} (hsp : t.sp = s.sp) (hn : t.nvm = s.nvm) (i : Nat) : t.cramWord i = s.cramWord i := by
  simp only [State.cramWord, State.slotWord64, hsp, hn]

/-- Bytes read from one word. -/
theorem State.mvReadRam_word {i : Nat} {w : W64} (hw : s.cramWord i = some w) (hb : i ∉ s.sp.cramBad) (n : Nat) :
    ∀ k, k + n ≤ 8 → s.mvReadRam c (8 * i + k) n = (.bytes (leBytes n (w.toNat / 256 ^ k)) false, s) := by
  induction n with
  | zero => exact fun k _ => rfl
  | succ n ih =>
    intro k hk
    have hr : s.cramRead ((8 * i + k) / 8) = (.word w, s) := by
      rw [show (8 * i + k) / 8 = i by omega, State.cramRead, hw]
      simp [hb]
    have hp : 2 ^ ((8 * i + k) % 8 * 8) = 256 ^ k := by
      rw [show (8 * i + k) % 8 = k by omega, Nat.mul_comm, Nat.pow_mul]
    have hnext := ih (k + 1) (by omega)
    rw [Nat.pow_succ, ← Nat.div_div_eq_div_mul] at hnext
    simp only [State.mvReadRam, hr, hp, Nat.add_assoc, hnext, leBytes]

/-- The word of which byte `k` is replaced. -/
def byteSet (old k : Nat) (b : Byte) : Nat := old - old / 256 ^ k % 256 * 256 ^ k + b.toNat * 256 ^ k

/-- The bytes up to the one that is replaced. -/
theorem byteSet_mod {old k v : Nat} (h : old % 256 ^ k = v % 256 ^ k) :
    byteSet old k (BitVec.ofNat 8 (v / 256 ^ k)) % 256 ^ (k + 1) = v % 256 ^ (k + 1) := by
  have hv : v % 256 ^ (k + 1) = v % 256 ^ k + 256 ^ k * (v / 256 ^ k % 256) := by rw [Nat.pow_succ, Nat.mod_mul]
  have ho : old = old % 256 ^ k + 256 ^ k * (old / 256 ^ k % 256) + 256 ^ (k + 1) * (old / 256 ^ k / 256) := by
    calc old = old % 256 ^ k + 256 ^ k * (old / 256 ^ k) := (Nat.mod_add_div _ _).symm
      _ = old % 256 ^ k + 256 ^ k * (old / 256 ^ k % 256 + 256 * (old / 256 ^ k / 256)) := by rw [Nat.mod_add_div (old / 256 ^ k) 256]
      _ = _ := by rw [Nat.mul_add, ← Nat.mul_assoc, ← Nat.pow_succ, Nat.add_assoc]
  have hset : byteSet old k (BitVec.ofNat 8 (v / 256 ^ k)) = v % 256 ^ (k + 1) + 256 ^ (k + 1) * (old / 256 ^ k / 256) := by
    rw [byteSet, BitVec.toNat_ofNat, hv, ← h]
    have hc : old / 256 ^ k % 256 * 256 ^ k = 256 ^ k * (old / 256 ^ k % 256) := Nat.mul_comm _ _
    have hc' : v / 256 ^ k % 2 ^ 8 * 256 ^ k = 256 ^ k * (v / 256 ^ k % 256) := Nat.mul_comm _ _
    omega
  rw [hset, Nat.add_mul_mod_self_left, Nat.mod_mod]

/-- The rest of a word written, from byte `k` on, to a word that holds the first `k` bytes already. -/
theorem State.mvWriteRam_word {i : Nat} {w : W64} (n : Nat) : ∀ {s : State} {k : Nat}, k + n = 8 →
    ((s.cramWord i).getD 0).toNat % 256 ^ k = w.toNat % 256 ^ k → (n = 0 → s.cramWord i = some w) →
    (s.mvWriteRam (8 * i + k) (leBytes n (w.toNat / 256 ^ k))).cramWord i = some w ∧
    (∀ j, j ≠ i → (s.mvWriteRam (8 * i + k) (leBytes n (w.toNat / 256 ^ k))).cramWord j = s.cramWord j) ∧
    s.mvWriteRam (8 * i + k) (leBytes n (w.toNat / 256 ^ k)) =
      { s with sp := (s.mvWriteRam (8 * i + k) (leBytes n (w.toNat / 256 ^ k))).sp } := by
  induction n with
  | zero => exact fun _ _ h0 => ⟨h0 rfl, fun _ _ => rfl, rfl⟩
  | succ n ih =>
    intro s k hk hold _
    have hi : (8 * i + k) / 8 = i := by omega
    have hp : 2 ^ ((8 * i + k) % 8 * 8) = 256 ^ k := by
      rw [show (8 * i + k) % 8 = k by omega, Nat.mul_comm, Nat.pow_mul]
    let v : W64 := BitVec.ofNat 64 (byteSet ((s.cramWord i).getD 0).toNat k (BitVec.ofNat 8 (w.toNat / 256 ^ k)))
    have hv : v.toNat % 256 ^ (k + 1) = w.toNat % 256 ^ (k + 1) := by
      have hdvd : 256 ^ (k + 1) ∣ 2 ^ 64 := by
        rw [show (2 : Nat) ^ 64 = 256 ^ 8 by norm_num]
        exact Nat.pow_dvd_pow _ (by omega)
      rw [BitVec.toNat_ofNat, Nat.mod_mod_of_dvd _ hdvd]
      exact byteSet_mod hold
    have hstep : s.mvWriteRam (8 * i + k) (leBytes (n + 1) (w.toNat / 256 ^ k)) =
        (s.cramWrite i v).mvWriteRam (8 * i + (k + 1)) (leBytes n (w.toNat / 256 ^ (k + 1))) := by
      rw [leBytes, State.mvWriteRam, hi, hp, Nat.pow_succ, ← Nat.div_div_eq_div_mul]
      rfl
    have hw : (s.cramWrite i v).cramWord i = some v := State.cramWord_cramWrite i v
    have hdone : n = 0 → (s.cramWrite i v).cramWord i = some w := by
      rintro rfl
      have hk' : k = 7 := by omega
      subst hk'
      rw [hw]
      refine congrArg some (BitVec.eq_of_toNat_eq ?_)
      have h1 : v.toNat < 256 ^ (7 + 1) := v.isLt
      have h2 : w.toNat < 256 ^ (7 + 1) := w.isLt
      rwa [Nat.mod_eq_of_lt h1, Nat.mod_eq_of_lt h2] at hv
    obtain ⟨h1, h2, h3⟩ := ih (s := s.cramWrite i v) (k := k + 1) (by omega) (by rw [hw]; exact hv) hdone
    rw [hstep]
    refine ⟨h1, fun j hj => (h2 j hj).trans (State.cramWord_cramWrite_ne v hj), ?_⟩
    rw [h3]
    rfl

end ram

/-! ### A burst of one word -/

section burst
variable {s : State} {c : Nat} {w : W64} {x : MvCh} {a b : Nat}

/-- A permitted access of a channel is made. -/
theorem State.mvGuard_of_permitted {sp : Space} {key : Nat} {r : Access} (hf : s.frozen (1 + c) = false)
    (hp : s.permitted (1 + c) sp key r = true) (k : State → MvRes × State) : s.mvGuard c sp key r k = k s := by
  simp [State.mvGuard, hf, hp]

theorem State.mvGather_word (ha : a % 8 = 0) (hf : s.frozen (1 + c) = false) (hp : s.permitted (1 + c) .control a .read = true)
    (hw : s.cramWord (a / 8) = some w) (hb : a / 8 ∉ s.sp.cramBad) (d : Nat) :
    s.mvGather c 0 a 8 d 1 = (.bytes (leBytes 8 w.toNat) false, s) := by
  have hr : s.mvReadOne c 0 a 8 = (.bytes (leBytes 8 w.toNat) false, s) := by
    have h := State.mvReadRam_word (c := c) hw hb 8 0 (by omega)
    rw [Nat.pow_zero, Nat.div_one, show 8 * (a / 8) + 0 = a by omega] at h
    exact (State.mvGuard_of_permitted hf hp fun z => z.mvReadRam c a 8).trans h
  simp only [State.mvGather, hr, List.append_nil]

theorem State.mvScatter_word {bs : List Byte} (hl : bs.length = 8) (hf : s.frozen (1 + c) = false)
    (hp : s.permitted (1 + c) .control b .write = true) (d : Nat) (fin : Bool) :
    s.mvScatter c 0 b 8 d fin 1 bs = (.done, (s.mvWriteRam b bs).mvMoved c bs) := by
  have hne : bs.isEmpty = false := by
    cases bs with
    | nil => cases hl
    | cons y ys => rfl
  have ht : bs.take 8 = bs := List.take_of_length_le (by omega)
  have hw : ∀ e, s.mvWriteOne c 0 b bs e = (.done, s.mvWriteRam b bs) := fun e =>
    State.mvGuard_of_permitted hf hp fun z => (.done, z.mvWriteRam b bs)
  simp only [State.mvScatter, hne, ht, hw, Bool.false_eq_true, if_false]

/-- One word from control RAM to control RAM, the whole of its descriptor. -/
theorem State.mvUnit_word (hx : s.mch c = x) (hm : x.moved = 0) (hl : x.fld 2 0 24 = 8) (hss : x.fld 2 24 3 = 0) (hds : x.fld 2 27 3 = 0)
    (hsw : x.fld 2 30 3 = 3) (hdw : x.fld 2 33 3 = 3) (ha : (x.desc.getD 0 0).toNat = a) (hb : (x.desc.getD 1 0).toNat = b)
    (ha8 : a % 8 = 0) (hf : s.frozen (1 + c) = false) (hr : s.permitted (1 + c) .control a .read = true)
    (hp : s.permitted (1 + c) .control b .write = true) (hw : s.cramWord (a / 8) = some w) (hbad : a / 8 ∉ s.sp.cramBad) :
    s.mvUnit c = ((s.mvWriteRam b (leBytes 8 w.toNat)).mvMoved c (leBytes 8 w.toNat), false) := by
  have h8 : mvWidth 3 = 8 := rfl
  unfold State.mvUnit
  simp only [hx, hm, hl, hss, hds, hsw, hdw, ha, hb, h8, ite_self, Nat.add_zero, Nat.zero_add, Nat.max_self,
    show 8 / 8 = 1 from rfl, State.mvGather_word ha8 hf hr hw hbad, State.mvScatter_word (leBytes_length 8 w.toNat) hf hp, Nat.le_refl,
    decide_true, Bool.not_true, Bool.false_eq_true, and_false, if_false]

/-- A register written or not: the others, the channels and the service processor stay. -/
theorem State.when_cset_facts (z : State) (q : Bool) (g : Fld) (v : Nat) : let t := z.when q fun y => y.cset g v
    (∀ f : Fld, f.key ≠ g.key → t.cget f = z.cget f) ∧ t = { z with creg := t.creg } := by
  cases q
  · exact ⟨fun _ _ => rfl, rfl⟩
  · exact ⟨fun f hf => State.cget_cset_ne z g f v hf, rfl⟩

/-- What the last eight bytes moved leave of a descriptor without a notice at its half. -/
theorem State.mvMoved_facts {bs : List Byte} (hx : s.mch c = x) (hm : x.moved = 0) (hh : x.fld 2 44 1 = 0) (hl : bs.length = 8) :
    let u := s.mvMoved c bs
    (u.mch c).moved = 8 ∧ (u.mch c).desc = x.desc ∧ u.mvState c = s.mvState c ∧ u.cget (MV_CH_DONE_BYTES c) = 8 ∧ u.sp = s.sp ∧
    u.nvm = s.nvm := by
  let y : MvCh := { x with emptyAt := none, moved := x.moved + bs.length, released := x.released - bs.length, crc := crc32cAux x.crc bs }
  let z : State := (s.modMch c fun x =>
    { x with emptyAt := none, moved := x.moved + bs.length, released := x.released - bs.length, crc := crc32cAux x.crc bs }).cset
    (MV_CH_DONE_BYTES c) y.moved
  have hy : (s.modMch c fun x =>
      { x with emptyAt := none, moved := x.moved + bs.length, released := x.released - bs.length, crc := crc32cAux x.crc bs }).mch c =
      y := by
    rw [mch_modMch, hx]
  have hmoved : y.moved = 8 := by
    change x.moved + bs.length = 8
    omega
  have he : s.mvMoved c bs = z.when (y.fld 2 46 1 = 1) fun t => t.cset (MV_CH_CRC_CRC c) (Nat.xor y.crc 0xFFFFFFFF) := by
    unfold State.mvMoved
    dsimp only
    rw [hy]
    exact if_neg fun h => absurd (h.1.symm.trans hh) (by decide)
  rw [he]
  obtain ⟨hregs, hsame⟩ := z.when_cset_facts (y.fld 2 46 1 = 1) (MV_CH_CRC_CRC c) (Nat.xor y.crc 0xFFFFFFFF)
  generalize (z.when (decide (y.fld 2 46 1 = 1)) fun t => t.cset (MV_CH_CRC_CRC c) (Nat.xor y.crc 0xFFFFFFFF)) = u at *
  have hmch : u.mch c = y := by
    have hmv : u.mv = z.mv := by rw [hsame]
    rw [State.mch, hmv]
    exact hy
  refine ⟨by rw [hmch, hmoved], by rw [hmch], ?_, ?_, by rw [hsame]; rfl, by rw [hsame]; rfl⟩
  · rw [State.mvState, hregs _ (by simp only [Fld.key, MV_CH_STAT_STATE, MV_CH_CRC_CRC]; omega)]
    exact State.cget_cset_ne _ _ _ _ (by simp only [Fld.key, MV_CH_STAT_STATE, MV_CH_DONE_BYTES]; omega)
  · rw [hregs _ (by simp only [Fld.key, MV_CH_DONE_BYTES, MV_CH_CRC_CRC]; omega)]
    exact (State.cget_cset_of_lt _ (by rw [hmoved]; exact (by decide : 8 < 2 ^ 24))).trans hmoved

end burst

theorem moverBurst_clause (s : State) (c : MvIx) (w : W64) (x : MvCh) (hs : s.mvState c = 3) (hx : s.mch c = x) (hm : x.moved = 0)
    (hrel : x.released = 8) (hl : x.fld 2 0 24 = 8) (hss : x.fld 2 24 3 = 0) (hds : x.fld 2 27 3 = 0) (hsw : x.fld 2 30 3 = 3)
    (hdw : x.fld 2 33 3 = 3) (hhalf : x.fld 2 44 1 = 0) :
    let a := (x.desc.getD 0 0).toNat
    let b := (x.desc.getD 1 0).toNat
    a % 8 = 0 → b % 8 = 0 → s.frozen (1 + c.val) = false → s.permitted (1 + c.val) .control a .read = true →
    s.permitted (1 + c.val) .control b .write = true → s.cramWord (a / 8) = some w → a / 8 ∉ s.sp.cramBad →
    ∃ u, exec (.moverBurstDone c 8) s = .next u ∧ u.cramWord (b / 8) = some w ∧ u.cget (MV_CH_DONE_BYTES c) = 8 ∧ u.mvState c = 4 ∧
      (∀ i, i ≠ b / 8 → u.cramWord i = s.cramWord i) := by
  intro a b ha hb hf hr hp hw hbad
  obtain ⟨hword, hrest, hsame⟩ := State.mvWriteRam_word (i := b / 8) (w := w) 8 (s := s) (k := 0) rfl (by simp [Nat.mod_one]) nofun
  rw [Nat.pow_zero, Nat.div_one, show 8 * (b / 8) + 0 = b by omega] at hword hrest hsame
  have hunit := State.mvUnit_word hx hm hl hss hds hsw hdw rfl rfl ha hf hr hp hw hbad
  generalize s.mvWriteRam b (leBytes 8 w.toNat) = z at *
  have hx' : z.mch c = x := by
    rw [State.mch, congrArg State.mv hsame]
    exact hx
  have hs' : z.mvState c = 3 := (State.cget_of_creg (congrArg State.creg hsame) _).trans hs
  obtain ⟨hmoved, hdesc, hstate, hbytes, hsp, hnvm⟩ := State.mvMoved_facts hx' hm hhalf (leBytes_length 8 w.toNat)
  rw [hs'] at hstate
  have hpass : s.mvPasses c 1 = z.mvMoved c (leBytes 8 w.toNat) := by
    have h0 : ¬ (s.mvState c ≠ 3 ∨ (s.mch c).released = 0) := by
      rw [hs, hx, hrel]
      decide
    simp only [State.mvPasses, if_neg h0, hunit, Bool.false_eq_true, if_false]
  have hcram : ∀ i, (z.mvMoved c (leBytes 8 w.toNat)).cramWord i = z.cramWord i := fun i => State.cramWord_congr hsp hnvm i
  generalize z.mvMoved c (leBytes 8 w.toNat) = u at *
  have hlen : (u.mch c).fld 2 0 24 ≤ (u.mch c).moved := by
    rw [MvCh.fld, hdesc, hmoved]
    exact hl.le
  have he : exec (.moverBurstDone c 8) s = .next (u.setMv c 4) := by
    have h8 : 8 / max (mvWidth 3) (mvWidth 3) = 1 := rfl
    have h0 : ¬ (s.mvState c ≠ 3 ∨ (s.hibernating = true ∧ 0 = 2)) := by
      rw [hs]
      simp
    show execMoverBurstDone c 8 s = _
    unfold execMoverBurstDone
    simp only [hx, hss, hsw, hdw, h8, if_neg h0, hpass, hstate, ne_eq, not_true_eq_false, if_false, hlen, or_true, if_true]
  refine ⟨_, he, (hcram _).trans hword, ?_, State.setMv_mvState (by decide), fun i hi => (hcram i).trans (hrest i hi)⟩
  rw [State.setMv_cget (by simp only [Fld.key, MV_CH_DONE_BYTES, MV_CH_STAT_STATE]; omega)
    (by simp only [Fld.key, MV_CH_DONE_BYTES, MV_STAT_BUSY]; omega), hbytes]

/-! ### The write-back -/

theorem moverWriteback_clause (s : State) (c : MvIx) (hs : s.mvState c = 4) (hf : s.frozen (1 + c.val) = false)
    (hp : s.permitted (1 + c.val) .control (32 * s.cget (MV_CH_CUR_IDX c) + 24) .write = true) (hfull : (s.mch c).fld 2 45 1 = 0) :
    ∃ u, exec (.moverWriteback c) s = .next u ∧ u.cget (MV_CH_STAT_STATUS c) = 0 ∧
      u.cramWord (4 * s.cget (MV_CH_CUR_IDX c) + 3) = some ((s.mch c).word3 true 0) ∧
      ((s.mch c).fld 3 15 1 = 1 → u.mvState c = 0) ∧
      ((s.mch c).fld 3 15 1 = 0 → u.mvState c = 1 ∧ u.cget (MV_CH_CUR_IDX c) = (s.mch c).fld 3 0 15) := by
  let w := (s.mch c).word3 true 0
  let z : State := (s.cramWrite (4 * s.cget (MV_CH_CUR_IDX c) + 3) w).cset (MV_CH_STAT_STATUS c) 0 |>.modMch c fun y =>
    { y with powerWait := false }
  have hback : s.mvBack c true 0 = s.cramWrite (4 * s.cget (MV_CH_CUR_IDX c) + 3) w := by
    refine (State.guarded_of_permitted hf hp fun z => z.cramWrite _ _).trans ?_
    rw [show (32 * s.cget (MV_CH_CUR_IDX c) + 24) / 8 = 4 * s.cget (MV_CH_CUR_IDX c) + 3 by omega]
  have he : exec (.moverWriteback c) s = .next (if (s.mch c).fld 3 15 1 = 1 then z.setMv c 0
      else (z.setMv c 1).cset (MV_CH_CUR_IDX c) ((s.mch c).fld 3 0 15)) := by
    have hs1 : (s.cramWrite (4 * s.cget (MV_CH_CUR_IDX c) + 3) w).mvState c = 4 := hs
    have hm1 : (s.cramWrite (4 * s.cget (MV_CH_CUR_IDX c) + 3) w).mch c = s.mch c := rfl
    show execMoverWriteback c s = _
    unfold execMoverWriteback
    simp only [hs, hback, hs1, hm1, hfull, ne_eq, not_true_eq_false, if_false, zero_ne_one, z]
  have hword : z.cramWord (4 * s.cget (MV_CH_CUR_IDX c) + 3) = some w := State.cramWord_cramWrite _ _
  have hstatus : z.cget (MV_CH_STAT_STATUS c) = 0 :=
    State.cget_cset_of_lt (s.cramWrite (4 * s.cget (MV_CH_CUR_IDX c) + 3) w) (f := MV_CH_STAT_STATUS c) (v := 0) (Nat.two_pow_pos _)
  clear_value z
  have hset : ∀ st, (z.setMv c st).cget (MV_CH_STAT_STATUS c) = 0 := fun st =>
    (State.setMv_cget (by simp only [Fld.key, MV_CH_STAT_STATUS, MV_CH_STAT_STATE]; omega)
      (by simp only [Fld.key, MV_CH_STAT_STATUS, MV_STAT_BUSY]; omega)).trans hstatus
  refine ⟨_, he, ?_, ?_, fun h => ?_, fun h => ?_⟩
  · split
    · exact hset 0
    · rw [State.cget_cset_ne _ _ _ _ (by simp only [Fld.key, MV_CH_STAT_STATUS, MV_CH_CUR_IDX]; omega)]
      exact hset 1
  · split <;> exact hword
  · rw [if_pos h]
    exact State.setMv_mvState (by decide)
  · rw [if_neg (by rw [h]; decide)]
    refine ⟨?_, State.cget_cset_of_lt _ (bits_lt _ _ _)⟩
    rw [State.mvState, State.cget_cset_ne _ _ _ _ (by simp only [Fld.key, MV_CH_STAT_STATE, MV_CH_CUR_IDX]; omega)]
    exact State.setMv_mvState (by decide)

/-! ### Timers and time limits -/

section pace
variable {s : State}

/-- A pace of another channel leaves a channel's state, its burst and what it holds. -/
theorem State.pace_ne {c d : Nat} (h : d ≠ c) : (s.pace c).mvState d = s.mvState d ∧ (s.pace c).mvBurst d = s.mvBurst d ∧
    (s.pace c).mch d = s.mch d := by
  have hset : (s.setMv c 3).mvBurst d = s.mvBurst d := by
    have hb : (s.setMv c 3).cget (MV_CH_CFG_BURST d) = s.cget (MV_CH_CFG_BURST d) :=
      State.setMv_cget (by simp only [Fld.key, MV_CH_CFG_BURST, MV_CH_STAT_STATE]; omega)
        (by simp only [Fld.key, MV_CH_CFG_BURST, MV_STAT_BUSY]; omega)
    rw [State.mvBurst, State.mvBurst, hb]
  have hbump : ∀ f : Fld, f = MV_CH_STAT_PENDING c ∨ f = MV_CH_STAT_MISSED c → (s.cbump f).mvState d = s.mvState d ∧
      (s.cbump f).mvBurst d = s.mvBurst d ∧ (s.cbump f).mch d = s.mch d := by
    intro f hf
    have hk : f.key ≠ (MV_CH_STAT_STATE d).key ∧ f.key ≠ (MV_CH_CFG_BURST d).key := by
      rcases hf with rfl | rfl <;>
        simp only [Fld.key, MV_CH_STAT_PENDING, MV_CH_STAT_MISSED, MV_CH_STAT_STATE, MV_CH_CFG_BURST] <;> omega
    refine ⟨State.cget_cbump_ne _ _ _ hk.1.symm, ?_, rfl⟩
    rw [State.mvBurst, State.mvBurst, State.cget_cbump_ne _ _ _ hk.2.symm]
  unfold State.pace
  dsimp only
  split
  · exact ⟨State.setMv_mvState_ne h, hset, mch_modMch_ne _ h⟩
  · split
    · split
      · exact hbump _ (.inl rfl)
      · exact hbump _ (.inr rfl)
    · exact ⟨rfl, rfl, rfl⟩

/-- A timer's event starts the burst of a channel that waits for it. -/
theorem State.paceAll_waiting {c src : Nat} (hc : c < 16) (hs : s.mvState c = 2) (hsrc : (s.mch c).fld 2 36 4 = src)
    (h9 : src ≠ 9 ∧ src ≠ 10) : (s.paceAll src 0).mvState c = 3 ∧ ((s.paceAll src 0).mch c).released = s.mvBurst c := by
  obtain ⟨z, hz, hu⟩ := State.foldl_at (fun y => (y.mvState c, y.mvBurst c, y.mch c))
    (fun z i => if (s.mch i).fld 2 36 4 = src ∧ (src ≠ 9 ∧ src ≠ 10 ∨ (s.mch i).fld 2 40 4 = 0) then z.pace i else z)
    List.nodup_range (List.mem_range.2 hc) (fun z q _ hq => by
      split
      · obtain ⟨h1, h2, h3⟩ := z.pace_ne hq.symm
        rw [h1, h2, h3]
      · rfl) s
  rw [if_pos ⟨hsrc, .inl h9⟩] at hu
  simp only [Prod.mk.injEq] at hz hu
  obtain ⟨hz1, hz2, hz3⟩ := hz
  obtain ⟨hu1, -, hu3⟩ := hu
  have hp := State.pace_waiting (hz1.trans hs)
  refine ⟨hu1.trans ?_, (congrArg MvCh.released hu3).trans ?_⟩
  · rw [hp]
    exact State.setMv_mvState (by decide)
  · rw [hp, mch_modMch]
    exact hz2

end pace

theorem mvTimer_clause (s : State) (n : Fin 8) (c : MvIx) (hper : s.cget (MV_TMR_PERIOD n) ≠ 0) (hs : s.mvState c = 2)
    (hsrc : (s.mch c).fld 2 36 4 = n.val + 1) :
    (tget s.sp.tmrAt n 0 + 2 * s.cget (MV_TMR_PERIOD n) < (s.tm.tick + 1) * 4000 →
      ∃ u, exec (.mvTimer n) s = .next u ∧ u.mvState c = 3 ∧ (u.mch c).released = s.mvBurst c) ∧
    ((s.tm.tick + 1) * 4000 ≤ tget s.sp.tmrAt n 0 + 2 * s.cget (MV_TMR_PERIOD n) → exec (.mvTimer n) s = .next s) := by
  refine ⟨fun h => ?_, fun h => congrArg Host.Outcome.next (if_pos (.inr h))⟩
  have hno : ¬ (2 * s.cget (MV_TMR_PERIOD n) = 0 ∨ (s.tm.tick + 1) * 4000 ≤ tget s.sp.tmrAt n 0 + 2 * s.cget (MV_TMR_PERIOD n)) := by
    omega
  refine ⟨_, congrArg Host.Outcome.next (if_neg hno), ?_⟩
  exact State.paceAll_waiting (s := s.modSp _) c.isLt hs hsrc (by omega)

theorem timeLimits_clause (s : State) (c : MvIx) (hf : s.frozen (1 + c.val) = false)
    (hp : s.permitted (1 + c.val) .control (32 * s.cget (MV_CH_CUR_IDX c) + 24) .write = true) :
    (s.mvState c = 2 → (s.mch c).waitTick + 2500 * max 1 (s.cget (MV_CH_CFG_PTMO c)) ≤ s.tm.tick →
      ∃ u, exec (.paceTimeout c) s = .next u ∧ u.mvState c = 5 ∧ u.cget (MV_CH_STAT_STATUS c) = 9) ∧
    (∀ t, s.mvState c = 3 → s.upl.inbound = [] → (s.mch c).emptyAt = some t →
      t + 1000 * max 1 (s.cget MV_CTRL_QTMO) < (s.tm.tick + 1) * 4000 → ∃ u, exec (.qemptyTimeout c) s = .next u ∧ u.mvState c = 5 ∧
        u.cget (MV_CH_STAT_STATUS c) = 7) ∧
    ((s.mch c).powerWait = true → (s.mch c).powerTick + 16 ≤ s.tm.tick → ∃ u, exec (.powerDownWaitExpiry c) s = .next u ∧ u.mvState c = 5 ∧
      u.cget (MV_CH_STAT_STATUS c) = 10 ∧ u.cget MV_ERR_CH = c.val ∧ u.cget MV_ERR_STATUS = 10) := by
  refine ⟨fun hs hw => ?_, fun t hs hin ht hlim => ?_, fun hw ht => ?_⟩
  · obtain ⟨hstate, hstatus, -⟩ := State.mvHalt_facts c.isLt (by decide : 9 < 32) hf hp
    have hd : ticksMs 10 * max 1 (s.cget (MV_CH_CFG_PTMO c)) ≤ s.since (s.mch c).waitTick := by
      rw [ticksMs, State.since]
      omega
    exact ⟨_, congrArg Host.Outcome.next (if_pos ⟨hs, hd⟩), hstate, hstatus⟩
  · obtain ⟨hstate, hstatus, -⟩ := State.mvHalt_facts c.isLt (by decide : 7 < 32) hf hp
    have he : exec (.qemptyTimeout c) s = .next (s.mvHalt c 7) := by
      show execQemptyTimeout c s = _
      unfold execQemptyTimeout
      rw [ht]
      exact congrArg Host.Outcome.next (if_pos ⟨hs, hin, hlim⟩)
    exact ⟨_, he, hstate, hstatus⟩
  · obtain ⟨hstate, hstatus, hech, hest⟩ := State.mvHalt_facts c.isLt (by decide : 10 < 32) hf hp
    exact ⟨_, congrArg Host.Outcome.next (if_pos ⟨hw, ht⟩), hstate, hstatus, hech, hest⟩

/-! ### Bus errors and CLEAR -/

section stop
variable {s : State} {c st other d : Nat}

/-- One channel's stop, for a bus error of channel `c`. -/
def State.mvStopOne (c st other : Nat) (z : State) (i : Nat) : State :=
  if (z.mvState i = 5 ∨ z.mvState i = 7) ∧ !decide (c = i) then z
  else ((z.setMv i 6).cset (MV_CH_STAT_STATUS i) (if decide (c = i) then st else other)).modMch i fun x => { x with powerWait := false }

theorem State.mvStopAll_eq : s.mvStopAll (some (c, st)) other =
    (((List.range 16).foldl (State.mvStopOne c st other) s).mvErr c st true).raise MV_STAT_STOP := rfl

theorem State.mvStopOne_ne {z : State} {i : Nat} {f : Fld} (h : f.key ≠ (MV_CH_STAT_STATE i).key ∧ f.key ≠ (MV_CH_STAT_STATUS i).key ∧
    f.key ≠ MV_STAT_BUSY.key) : (State.mvStopOne c st other z i).cget f = z.cget f := by
  obtain ⟨h1, h2, h3⟩ := h
  unfold State.mvStopOne
  split
  · rfl
  · exact (State.cget_cset_ne _ _ _ _ h2).trans (State.setMv_cget h1 h3)

theorem State.mvStopOne_same {z : State} {i : Nat} (h : c = i ∨ (z.mvState i ≠ 5 ∧ z.mvState i ≠ 7)) (hst : st < 32) (ho : other < 32) :
    (State.mvStopOne c st other z i).mvState i = 6 ∧
    (State.mvStopOne c st other z i).cget (MV_CH_STAT_STATUS i) = if c = i then st else other := by
  have hno : ¬ ((z.mvState i = 5 ∨ z.mvState i = 7) ∧ (!decide (c = i)) = true) := by
    rintro ⟨h57, hne⟩
    rcases h with h | ⟨h5, h7⟩
    · simp [h] at hne
    · rcases h57 with h' | h'
      exacts [h5 h', h7 h']
  have hv : (if decide (c = i) then st else other) < 2 ^ (MV_CH_STAT_STATUS i).width := by
    split
    exacts [hst, ho]
  unfold State.mvStopOne
  rw [if_neg hno]
  refine ⟨?_, (State.cget_cset_of_lt (z.setMv i 6) hv).trans (by simp only [decide_eq_true_eq])⟩
  exact (State.cget_cset_ne _ _ _ _ (by simp only [Fld.key, MV_CH_STAT_STATE, MV_CH_STAT_STATUS]; omega)).trans
    (State.setMv_mvState (by decide))

/-- The stop of all channels at one of them. -/
theorem State.mvStops_at (hd : d < 16) (h : c = d ∨ (s.mvState d ≠ 5 ∧ s.mvState d ≠ 7)) (hst : st < 32) (ho : other < 32) :
    ((List.range 16).foldl (State.mvStopOne c st other) s).mvState d = 6 ∧
    ((List.range 16).foldl (State.mvStopOne c st other) s).cget (MV_CH_STAT_STATUS d) = if c = d then st else other := by
  obtain ⟨z, hz, hu⟩ := State.foldl_at (fun y => (y.mvState d, y.cget (MV_CH_STAT_STATUS d))) (State.mvStopOne c st other)
    List.nodup_range (List.mem_range.2 hd) (fun z q _ hq => by
      have h1 : (State.mvStopOne c st other z q).mvState d = z.mvState d := State.mvStopOne_ne (by
        simp only [Fld.key, MV_CH_STAT_STATE, MV_CH_STAT_STATUS, MV_STAT_BUSY]
        omega)
      have h2 : (State.mvStopOne c st other z q).cget (MV_CH_STAT_STATUS d) = z.cget (MV_CH_STAT_STATUS d) := State.mvStopOne_ne (by
        simp only [Fld.key, MV_CH_STAT_STATE, MV_CH_STAT_STATUS, MV_STAT_BUSY]
        omega)
      rw [h1, h2]) s
  simp only [Prod.mk.injEq] at hz hu
  obtain ⟨h1, h2⟩ := State.mvStopOne_same (c := c) (st := st) (other := other) (z := z) (i := d) (by rw [hz.1]; exact h) hst ho
  exact ⟨hu.1.trans h1, hu.2.trans h2⟩

/-- Raising the stop bit after the error registers leaves a channel's registers. -/
theorem State.mvStopped_cget {z : State} {f : Fld} (hr : f.reg ≠ MV_ERR_CH.reg) (hlo : f.lo < 64) (hk : f.key ≠ MV_STAT_STOP.key)
    (hn : f.reg < 0x800000 ∧ 0x700000 ≤ f.reg) : ((z.mvErr c st true).raise MV_STAT_STOP).cget f = z.cget f := by
  have hn' : ¬ noteKey f.key := by
    simp only [noteKey, Fld.key]
    omega
  rw [State.raise_regs _ _ _ hn' hk, State.mvErr_cget hr hlo]

/-- What a stop of all channels leaves of the one that caused it, of another one, and of the error registers. -/
theorem State.mvStopAll_facts (hc : c < 16) (hst : st < 32) (ho : other < 32) : let u := s.mvStopAll (some (c, st)) other
    (∀ d, d < 16 → c = d ∨ (s.mvState d ≠ 5 ∧ s.mvState d ≠ 7) →
      u.mvState d = 6 ∧ u.cget (MV_CH_STAT_STATUS d) = if c = d then st else other) ∧
    u.con MV_STAT_STOP = true ∧ u.cget MV_ERRADDR_ADDR = s.cget MV_ERRADDR_ADDR ∧ u.cget MV_ERR_CH = c := by
  rw [State.mvStopAll_eq]
  have hstop : ∀ z : State, (z.raise MV_STAT_STOP).con MV_STAT_STOP = true := fun z => by
    rw [State.con, State.raise_same z rfl (by unfold noteKey; decide)]
    rfl
  refine ⟨fun d hd h => ?_, hstop _, ?_, ?_⟩
  · obtain ⟨h1, h2⟩ := State.mvStops_at hd h hst ho
    refine ⟨?_, ?_⟩
    · rw [State.mvState, State.mvStopped_cget (by simp only [MV_CH_STAT_STATE, MV_ERR_CH]; omega) (by simp [MV_CH_STAT_STATE])
        (by simp only [Fld.key, MV_CH_STAT_STATE, MV_STAT_STOP]; omega) (by simp only [MV_CH_STAT_STATE]; omega)]
      exact h1
    · rw [State.mvStopped_cget (by simp only [MV_CH_STAT_STATUS, MV_ERR_CH]; omega) (by simp [MV_CH_STAT_STATUS])
        (by simp only [Fld.key, MV_CH_STAT_STATUS, MV_STAT_STOP]; omega) (by simp only [MV_CH_STAT_STATUS]; omega)]
      exact h2
  · rw [State.mvStopped_cget (by decide) (by decide) (by decide) (by decide)]
    refine List.foldlRecOn (motive := fun y : State => y.cget MV_ERRADDR_ADDR = s.cget MV_ERRADDR_ADDR) _ _ rfl fun y hy i _ => ?_
    refine (State.mvStopOne_ne ⟨?_, ?_, by decide⟩).trans hy
    · simp only [Fld.key, MV_ERRADDR_ADDR, MV_CH_STAT_STATE]
      omega
    · simp only [Fld.key, MV_ERRADDR_ADDR, MV_CH_STAT_STATUS]
      omega
  · rw [State.raise_regs _ _ _ (by unfold noteKey; decide) (by decide)]
    exact (State.mvErr_facts hc hst).1

end stop

theorem busError_clause (s : State) (c d : MvIx) (a : W64) (last : Bool) (hs : s.mvState c = 3) (hcd : c ≠ d) (h5 : s.mvState d ≠ 5)
    (h7 : s.mvState d ≠ 7) :
    ∃ u, exec (.busError c a last) s = .next u ∧ u.mvState c = 6 ∧ u.cget (MV_CH_STAT_STATUS c) = (if last then 13 else 11) ∧
      u.mvState d = 6 ∧ u.cget (MV_CH_STAT_STATUS d) = 12 ∧ u.con MV_STAT_STOP = true ∧ u.cget MV_ERRADDR_ADDR = a.toNat ∧
      u.cget MV_ERR_CH = c.val := by
  let z := s.cset MV_ERRADDR_ADDR a.toNat
  have he : exec (.busError c a last) s = .next (z.mvStopAll (some (c.val, if last then 13 else 11)) 12) :=
    congrArg Host.Outcome.next (if_pos (.inl hs))
  have hz : z.mvState d = s.mvState d := State.cget_cset_ne _ _ _ _ (by simp only [Fld.key, MV_CH_STAT_STATE, MV_ERRADDR_ADDR]; omega)
  have haddr : z.cget MV_ERRADDR_ADDR = a.toNat := State.cget_cset_of_lt s a.isLt
  have hst : (if last then 13 else 11) < 32 := by cases last <;> decide
  obtain ⟨hch, hstop, hkept, herr⟩ := State.mvStopAll_facts (s := z) (other := 12) c.isLt hst (by decide)
  obtain ⟨h1, h2⟩ := hch c c.isLt (.inl rfl)
  obtain ⟨h3, h4⟩ := hch d d.isLt (.inr (by rw [hz]; exact ⟨h5, h7⟩))
  rw [if_pos rfl] at h2
  rw [if_neg fun e => hcd (Fin.ext e)] at h4
  exact ⟨_, he, h1, h2, h3, h4, hstop, hkept.trans haddr, herr⟩

/-- The fields of the mover's control register. -/
def mvCtrlFields : List Fld := [MV_CTRL_CLEAR, MV_CTRL_QTMO]

theorem findReg_mvCtrl : findReg regClasses 4 MV_CTRL_CLEAR.reg = some (mvCtrlFields, false) := by decide +kernel

/-- The channels that a bus error stopped, idle again. -/
def State.mvCleared (s : State) : State := (List.range 16).foldl (fun z c => if z.mvState c = 6 then z.setMv c 0 else z) s

theorem State.opMvClear_set {s : State} {m v : Nat} (hv : bitAt v 0 = true) :
    (s.opMvClear m v).1 = (s.writeReg m MV_CTRL_CLEAR.reg v).1.mvCleared := by
  simp only [State.opMvClear, hv, if_true, State.mvCleared]

theorem State.mvCleared_mvState {s : State} {c : Nat} (hc : c < 16) (hs : s.mvState c = 6) : s.mvCleared.mvState c = 0 := by
  obtain ⟨y, hy, hu⟩ := State.foldl_at (fun y => y.mvState c) (fun y i => if y.mvState i = 6 then y.setMv i 0 else y)
    List.nodup_range (List.mem_range.2 hc) (fun y i _ hi => by
      split
      · exact State.setMv_mvState_ne hi.symm
      · rfl) s
  rw [if_pos (hy.trans hs)] at hu
  exact hu.trans (State.setMv_mvState (by decide))

theorem State.mvCleared_qtmo (s : State) : s.mvCleared.cget MV_CTRL_QTMO = s.cget MV_CTRL_QTMO := by
  refine List.foldlRecOn (motive := fun y : State => y.cget MV_CTRL_QTMO = s.cget MV_CTRL_QTMO) _ _ rfl fun y hy i _ => ?_
  refine Eq.trans ?_ hy
  split
  · exact State.setMv_cget (by simp only [Fld.key, MV_CTRL_QTMO, MV_CH_STAT_STATE]; omega) (by decide)
  · rfl

theorem clear_clause (s : State) (m : MasterIx) (v : W32) (c : MvIx) (hf : s.frozen m = false)
    (hp : s.permitted m .control MV_CTRL_CLEAR.reg .write = true) (hv : bitAt v.toNat 0 = true) (hs : s.mvState c = 6) :
    ∃ u, exec (.clear m v) s = .next u ∧ u.mvState c = 0 ∧ u.cget MV_CTRL_QTMO = bits v.toNat 8 8 := by
  have hg := State.guarded_of_permitted hf hp fun z => State.answered (z.opMvClear m.val v.toNat) m.val
  refine ⟨_, congrArg Host.Outcome.next hg, ?_⟩
  rw [State.mvState, State.answered_cget, State.answered_cget, State.opMvClear_set hv, ← State.mvState]
  have hw : (s.writeReg m MV_CTRL_CLEAR.reg v.toNat).1.mvState c = 6 :=
    (State.writeReg_cget_ne findReg_mvCtrl (by decide) m _ fun g hg => by
      have hk : g.key < 0x700100 * 64 := by
        revert g
        decide
      have hk' : 0x700100 * 64 ≤ (MV_CH_STAT_STATE c).key := by
        simp only [Fld.key, MV_CH_STAT_STATE]
        omega
      omega).trans hs
  have hq : (s.writeReg m MV_CTRL_CLEAR.reg v.toNat).1.cget MV_CTRL_QTMO = bits v.toNat 8 8 :=
    State.cget_writeReg_rw findReg_mvCtrl (by decide) (by decide) m _ (by simp [mvCtrlFields]) rfl (by decide) (by decide)
  exact ⟨State.mvCleared_mvState c.isLt hw, (State.mvCleared_qtmo _).trans hq⟩

/-- Settles O45: each command's effect on the channel's state, its status and its registers. -/
theorem moverChannelsFollowTheirStates : Obligations.MoverChannelsFollowTheirStates :=
  ⟨fun s c m v hf hp => moverCtrl_clause s c m v hf hp,
    fun _ _ _ _ hs hr hz _ hpend hdark => moverFetch_clause hs hr hz hpend hdark,
    fun s c w x hs hx hm hrel hl hss hds hsw hdw hh => moverBurst_clause s c w x hs hx hm hrel hl hss hds hsw hdw hh,
    moverWriteback_clause, mvTimer_clause, timeLimits_clause, busError_clause, clear_clause⟩

end Sys2Proof.Machine

/-! ## Start of the concentrator -/

namespace Sys2Proof.Machine

set_option Elab.async false

/-- A configured concentrator before READY whose eight lanes of group 0 are out of service. -/
def lanesOut : State :=
  { State.reset with
    creg := [(FRN_STAT_READY.key, 1), (UPL_STAT_OUT.key, 0xFF)]
    glb := { State.reset.glb with configured := true } }

/-- The group starts DOWN, for want of a lane. -/
theorem groupRun_after_ready {u : State} (h : exec (.ready 0) lanesOut = .next u) : u.groupRun 0 = false := by
  change execReady 0 lanesOut = .next u at h
  unfold execReady at h
  rw [← Host.Outcome.next.inj h]
  decide +kernel

/-- Refutes O46: a group all of whose lanes are out of service at READY is DOWN and not in RUN. -/
theorem not_startAndResetsOfTheConcentrator : ¬ Obligations.StartAndResetsOfTheConcentrator := by
  intro h
  obtain ⟨-, -, -, -, hready, -⟩ := h
  obtain ⟨u, he, -, -, -, -, -, -, hrun⟩ := hready lanesOut 0 (by decide +kernel) rfl (by decide +kernel)
  exact absurd ((groupRun_after_ready he).symm.trans (hrun 0 (by decide +kernel))) (by decide)

end Sys2Proof.Machine

/-! ## Power states -/

namespace Sys2Proof.Machine

set_option Elab.async false

/-- A concentrator that leaves HIBERNATE while the eight lanes of group 0 are out of service. -/
def wakingLanesOut : State :=
  { State.reset with
    creg := [(GLB_STAT_STATE.key, 3), (UPL_STAT_OUT.key, 0xFF)]
    glb := { State.reset.glb with trans := some (3, 2, 0) } }

/-- The group is DOWN after the transition, for want of a lane. -/
theorem groupRun_after_transition {u : State} (h : exec .transitionComplete wakingLanesOut = .next u) : u.groupRun 0 = false := by
  change execTransitionComplete wakingLanesOut = .next u at h
  unfold execTransitionComplete at h
  rw [← Host.Outcome.next.inj h]
  decide +kernel

/-- Refutes O47: a group all of whose lanes are out of service when HIBERNATE ends is DOWN and not in RUN. -/
theorem not_powerStatesFollowTheirRequests : ¬ Obligations.PowerStatesFollowTheirRequests := by
  intro h
  obtain ⟨-, -, htrans, -⟩ := h
  obtain ⟨-, -, -, hwake⟩ := htrans wakingLanesOut 0 rfl (by decide)
  obtain ⟨u, he, -, -, hrun⟩ := hwake rfl
  exact absurd ((groupRun_after_transition he).symm.trans (hrun 0 (by decide +kernel))) (by decide)

end Sys2Proof.Machine

/-! ## Images and containers through the mailbox, and the log -/

namespace Sys2Proof.Machine

set_option Elab.async false

/-! ### A packet queued in any group -/

/-- A register at an offset where no group has the registers of its queues. -/
def offQueues (f : Fld) : Prop := f.reg % 256 < 0x40 ∧ f.lo < 64

theorem offQueues.ne {f g : Fld} (hf : offQueues f) (hg : 0x40 ≤ g.reg % 256 ∧ g.lo < 64) : f.key ≠ g.key := by
  obtain ⟨h1, h2⟩ := hf
  simp only [Fld.key]
  omega

/-- `t` is `s` with packets queued in some groups, whatever their numbers. -/
structure QueuedAny (s t : State) : Prop where
  same : t = { s with creg := t.creg, upl := t.upl }
  regs : ∀ f : Fld, offQueues f → t.cget f = s.cget f

namespace QueuedAny

variable {s t u : State}

theorem cset (h : QueuedAny s t) (f : Fld) (v : Nat) (hf : 0x40 ≤ f.reg % 256 ∧ f.lo < 64) : QueuedAny s (t.cset f v) := by
  refine ⟨?_, fun g hg => ?_⟩
  · rw [h.same]; rfl
  · rw [State.cget_cset_ne t f g v (hg.ne hf), h.regs g hg]

theorem when (h : QueuedAny s t) (b : Bool) (g : State → State) (hg : QueuedAny s (g t)) : QueuedAny s (t.when b g) := by
  cases b
  · exact h
  · exact hg

end QueuedAny

theorem State.setQueue_any (s : State) (g q : Nat) (x : Queue) : QueuedAny s (s.setQueue g q x) := by
  have h0 : QueuedAny s (s.modUpl fun u => { u with queues := tset s.upl.queues (g * 5 + q) {} x }) := ⟨rfl, fun _ _ => rfl⟩
  have h := (((h0.cset (UQ_STAT_LEVEL (g * 5 + q)) x.level (by simp only [UQ_STAT_LEVEL]; omega)).cset (UQ_STAT_WM_NOW (g * 5 + q))
    (b2n (decide (s.cget (UQ_CFG_WM (g * 5 + q)) ≤ x.level))) (by simp only [UQ_STAT_WM_NOW]; omega)).cset (UQ_PKTS_PKTS (g * 5 + q))
    x.pkts.length (by simp only [UQ_PKTS_PKTS]; omega)).cset (UQ_STAT_OPEN (g * 5 + q)) (b2n x.open_.isSome)
    (by simp only [UQ_STAT_OPEN]; omega)
  unfold State.setQueue
  exact h.when _ (fun z => z.cset (UQ_STAT_WM_SEEN (g * 5 + q)) 1) (h.cset _ 1 (by simp only [UQ_STAT_WM_SEEN]; omega))

theorem State.enqueue_any (s : State) (g q : Nat) (x : Pkt) : QueuedAny s (s.enqueue g q x) := by
  have hb : QueuedAny s (s.cbump (UQ_ERR_DROPPED (g * 5 + q))) :=
    (⟨rfl, fun _ _ => rfl⟩ : QueuedAny s s).cset _ _ (by simp only [UQ_ERR_DROPPED]; omega)
  unfold State.enqueue
  dsimp only
  split
  · exact hb
  · split
    · exact hb.cset _ _ (by simp only [UQ_STAT_FULL_SEEN]; omega)
    · exact s.setQueue_any g q _

/-- What a reply to any group leaves. -/
theorem State.reply_any (s : State) (g svc cmd tag st : Nat) (body : List Byte) : let u := s.reply g svc cmd tag st body
    (∃ r, u.sp.replies.head? = some r ∧ r.status = st ∧ r.tag = tag ∧ r.body = body) ∧
    u = { s with creg := u.creg, upl := u.upl, sp := { s.sp with replies := u.sp.replies } } ∧
    ∀ f : Fld, offQueues f → u.cget f = s.cget f := by
  intro u
  obtain ⟨rs, hq, r, hr⟩ : ∃ rs : List Reply, QueuedAny (s.modSp fun x => { x with replies := rs }) u ∧
      ∃ r, rs.head? = some r ∧ r.status = st ∧ r.tag = tag ∧ r.body = body :=
    ⟨_, State.enqueue_any _ g 0 _, _, rfl, rfl, rfl, rfl⟩
  have hsp : u.sp = { s.sp with replies := rs } := congrArg State.sp hq.same
  clear_value u
  refine ⟨⟨r, by rw [hsp]; exact hr⟩, ?_, hq.regs⟩
  have hsame := hq.same
  rw [hsp]
  exact hsame

/-! ### The NVM under the log -/

/-- `y` is the NVM `x` with entries put into the log, lost or being programmed. -/
def NvmLogged (x y : NvmSt) : Prop :=
  y = { x with journal := y.journal, logBusy := y.logBusy, page := y.page, erasedPage := y.erasedPage, pending := y.pending
               overflow := y.overflow }

theorem NvmLogged.trans {x y z : NvmSt} (h1 : NvmLogged x y) (h2 : NvmLogged y z) : NvmLogged x z := by
  unfold NvmLogged at *
  rw [h2, h1]

theorem NvmLogged.overflow (x : NvmSt) (n : Nat) : NvmLogged x { x with overflow := n } := rfl

theorem State.logStart_nvm (s : State) : NvmLogged s.nvm s.logStart.nvm := by
  have h := congrArg State.nvm s.logStart_begun.same
  unfold NvmLogged
  rw [h]

theorem State.logPut_nvm (s : State) (e : LogEntry) : NvmLogged s.nvm (s.logPut e).nvm := by
  rw [(s.logPut_queued e).nvm_eq]
  have h0 : NvmLogged s.nvm ((s.modNvm fun n => { n with pending := n.pending ++ [{ e with seq := s.cget MRN_SEQ_SEQ }] }).cwrap
      MRN_SEQ_SEQ 1).nvm := rfl
  exact h0.trans (State.logStart_nvm _)

/-- An entry of the log leaves the slots, the containers and the update in progress. -/
theorem State.logAdd_nvm (s : State) (e : LogEntry) : NvmLogged s.nvm (s.logAdd e).nvm := by
  have hlose : ∀ z : State, NvmLogged z.nvm z.logLose.nvm := fun _ => rfl
  unfold State.logAdd
  split
  · exact hlose s
  · split
    · exact s.logPut_nvm e
    · have h0 : NvmLogged s.nvm ((s.logPut (s.stamp 0x7F06 0 0 0 0xFF false 0 s.nvm.overflow 0)).modNvm
          fun n => { n with overflow := 0 }).nvm := (s.logPut_nvm _).trans (.overflow _ 0)
      dsimp only
      split
      · exact h0.trans (hlose _)
      · exact h0.trans (State.logPut_nvm _ _)

/-! ### The image and container commands -/

/-- What an answer of the update service leaves. -/
theorem State.updReply_facts (z : State) (lane cmd tag st : Nat) (body : List Byte) : let u := z.updReply lane cmd tag st body
    (∃ r, u.sp.replies.head? = some r ∧ r.status = st ∧ r.tag = tag ∧ r.body = body) ∧ u.nvm = z.nvm ∧
    ∀ f : Fld, offQueues f → u.cget f = z.cget f := by
  obtain ⟨hr, hsame, hregs⟩ := z.reply_any (z.laneOf lane) 7 cmd tag st body
  have hnvm := congrArg State.nvm hsame
  exact ⟨hr, hnvm, hregs⟩

/-- What the first answer of a long command leaves. -/
theorem State.startLong_facts (z : State) (lane svc cmd tag : Nat) (saved : List (Nat × Nat × Nat)) (arg : List Nat) :
    let u := z.startLong lane svc cmd tag saved arg
    (∃ r, u.sp.replies.head? = some r ∧ r.status = 1) ∧ u.nvm = z.nvm ∧ (∀ f : Fld, offQueues f → u.cget f = z.cget f) ∧
    ∃ l ∈ u.sp.longs, l.service = svc ∧ l.cmd = cmd ∧ l.tag = tag := by
  obtain ⟨⟨r, hr, hst, -⟩, hsame, hregs⟩ := (z.modSp fun x => { x with longs := x.longs ++
    [{ lane := lane, group := z.laneOf lane, service := svc, cmd := cmd, tag := tag, saved := saved, arg := arg }] }).reply_any
    (z.laneOf lane) svc cmd tag 1 []
  have hnvm := congrArg State.nvm hsame
  have hl := congrArg (fun y => y.sp.longs) hsame
  refine ⟨⟨r, hr, hst⟩, hnvm, hregs,
    { lane := lane, group := z.laneOf lane, service := svc, cmd := cmd, tag := tag, saved := saved, arg := arg }, ?_, rfl, rfl, rfl⟩
  exact hl.symm ▸ List.mem_append_right _ (List.mem_singleton.2 rfl)

/-- A count before the data of a body. -/
theorem countBody_fields {n : Nat} (hn : n < 2 ^ 32) (data : List Byte) :
    bodyNat (leBytes 4 n ++ data) 0 4 = n ∧ (leBytes 4 n ++ data).drop 4 = data ∧ (leBytes 4 n ++ data).length = 4 + data.length := by
  refine ⟨?_, rfl, by simp⟩
  change ofBytes (leBytes 4 n) = n
  rw [ofBytes_leBytes]
  exact Nat.mod_eq_of_lt hn

theorem offQueues_slotState (n : Nat) : offQueues (slotState n) := by
  unfold slotState offQueues
  split <;> decide

theorem slotState_off (n : Nat) : ¬ noteKey (slotState n).key ∧ (slotState n).key ≠ UPD_STAT_STATE.key ∧
    (slotState n).key ≠ UPD_STAT_REASON.key ∧ (slotState n).key ≠ UPD_STAT_NODES.key := by
  unfold slotState noteKey
  split <;> decide

theorem State.slot_setSlot (s : State) (n : Nat) (x : SlotImg) : (s.setSlot n x).nvm.slot n = x := by
  unfold State.setSlot NvmSt.slot State.modNvm
  by_cases h : n = 0 <;> simp [h]

theorem State.slot_setSlot_ne (s : State) {n m : Nat} (h : (n = 0 ∧ m ≠ 0) ∨ (n ≠ 0 ∧ m = 0)) (x : SlotImg) :
    (s.setSlot n x).nvm.slot m = s.nvm.slot m := by
  unfold State.setSlot NvmSt.slot State.modNvm
  rcases h with ⟨h1, h2⟩ | ⟨h1, h2⟩ <;> simp [h1, h2]

theorem State.spareSlot_le (s : State) : s.spareSlot ≤ 1 := Nat.sub_le _ _

/-- What the start of an image leaves. -/
theorem State.imgBegin_facts (s : State) (t : Nat) (f : Option Bool) (id : Nat) : let z := s.imgBegin t f id
    z.cget (slotState s.spareSlot) = 0 ∧ z.cget UPD_STAT_STATE = 1 ∧ z.cget UPD_PROG_BYTES = 0 ∧ z.nvm.imgTotal = some t ∧
    z.nvm.slot s.spareSlot = { seen := true } ∧ z.nvm.slot (1 - s.spareSlot) = s.nvm.slot (1 - s.spareSlot) := by
  have hslot := s.slot_setSlot s.spareSlot { seen := true }
  have hother := State.slot_setSlot_ne s (n := s.spareSlot) (m := 1 - s.spareSlot) (by have := s.spareSlot_le; omega) { seen := true }
  have hver : ∀ f : Fld, f.key = UPD_STAT_STATE.key ∨ f.key = UPD_PROG_BYTES.key ∨ f.key = (NVM_VER_VER s.spareSlot).key →
      (slotState s.spareSlot).key ≠ f.key := by
    intro f hf
    have := s.spareSlot_le
    unfold slotState
    split <;> simp only [Fld.key, NVM_SLOT_S0, NVM_SLOT_S1, UPD_STAT_STATE, UPD_PROG_BYTES, NVM_VER_VER] at hf ⊢ <;> omega
  have hz : s.imgBegin t f id = ((((s.emptySlot s.spareSlot).modNvm fun v =>
      { v with imgTotal := some t, imgFrom := f, imgId := id, up := {}, dn := {} }).cset UPD_STAT_STATE 1).cset UPD_PROG_BYTES 0) := rfl
  have hempty : (s.emptySlot s.spareSlot).cget (slotState s.spareSlot) = 0 := by
    unfold State.emptySlot State.showVer
    rw [State.cget_cset_ne _ _ _ _ (hver _ (.inr (.inr rfl)))]
    exact State.cget_cset_of_lt _ (Nat.two_pow_pos _)
  intro z
  rw [show z = _ from hz]
  refine ⟨?_, ?_, State.cget_cset_of_lt _ (Nat.two_pow_pos _), rfl, hslot, hother⟩
  · rw [State.cget_cset_ne _ _ _ _ (hver _ (.inr (.inl rfl))), State.cget_cset_ne _ _ _ _ (hver _ (.inl rfl))]
    exact hempty
  · rw [State.cget_cset_ne _ _ _ _ (by decide)]
    exact State.cget_cset_of_lt _ (by decide)

/-- What data put to the image leave. -/
theorem State.imgPut_facts (s : State) (data : List Byte)
    (h : (s.nvm.slot s.spareSlot).bytes.length + data.length < 2 ^ 32) : let z := s.imgPut data
    (z.nvm.slot s.spareSlot).bytes = (s.nvm.slot s.spareSlot).bytes ++ data ∧
    z.cget UPD_PROG_BYTES = (s.nvm.slot s.spareSlot).bytes.length + data.length := by
  have hslot := s.slot_setSlot s.spareSlot
    { s.nvm.slot s.spareSlot with bytes := (s.nvm.slot s.spareSlot).bytes ++ data }
  let y := (s.setSlot s.spareSlot { s.nvm.slot s.spareSlot with bytes := (s.nvm.slot s.spareSlot).bytes ++ data }).cset UPD_PROG_BYTES
    ((s.nvm.slot s.spareSlot).bytes.length + data.length)
  have hy : (y.nvm.slot s.spareSlot).bytes = (s.nvm.slot s.spareSlot).bytes ++ data := congrArg SlotImg.bytes hslot
  have hprog : y.cget UPD_PROG_BYTES = (s.nvm.slot s.spareSlot).bytes.length + data.length := State.cget_cset_of_lt _ h
  have hp := (LogBegun.refl y).program (.slot s.spareSlot)
  have hpn : (y.program (.slot s.spareSlot)).nvm.slot s.spareSlot = y.nvm.slot s.spareSlot := by
    rw [congrArg State.nvm hp.same]
    rfl
  intro z
  have hz : z = if y.nvm.journal.contains (.slot s.spareSlot) then y else y.program (.slot s.spareSlot) := rfl
  rw [hz]
  split
  · exact ⟨hy, hprog⟩
  · exact ⟨(congrArg SlotImg.bytes hpn).trans hy, (hp.regs _ (by decide)).trans hprog⟩

/-- What the end of an image that came through the mailbox leaves. -/
theorem State.imgComplete_facts {s : State} (hf : s.nvm.imgFrom = none) : let z := s.imgComplete
    z.cget UPD_STAT_STATE = 2 ∧ z.nvm.imgTotal = none ∧ z.nvm.imgId = crc32c ((s.nvm.slot s.spareSlot).bytes.take 4096) := by
  let y : State := (s.modNvm fun v => { v with
    imgTotal := none, imgId := imgIdent (s.nvm.slot s.spareSlot).bytes }).updState 2
  have hy : s.imgComplete = y.logImage 0x20 s.spareSlot := by
    unfold State.imgComplete
    rw [hf]
    rfl
  have hstate : y.cget UPD_STAT_STATE = 2 := State.cget_cset_of_lt _ (by decide)
  intro z
  rw [show z = _ from hy]
  have hn := State.logAdd_nvm y (y.stamp (0x7F00 + 0x20) 0 0 0 0xFF false 0
    (pack [(0, 8, s.spareSlot), (32, 32, ((y.nvm.slot s.spareSlot).hdr.map fun h => h.imgVer.toNat).getD 0)]) 0)
  have hn' : NvmLogged y.nvm (y.logImage 0x20 s.spareSlot).nvm := hn
  refine ⟨?_, ?_, ?_⟩
  · exact ((State.logOwn_notes y _ _ _ _ _).regs _ (by unfold noteKey; decide)).trans hstate
  · exact congrArg NvmSt.imgTotal hn'
  · exact congrArg NvmSt.imgId hn'

/-- What a new container in copy 1 leaves. -/
theorem State.newContainer_facts {s : State} (rs : List CfgRec) (h : s.otherCopy = 1) : let y := (s.newContainer rs).nvm
    y.cont1.gen = BitVec.ofNat 64 s.nextGen ∧ y.cont1.recs = rs ∧ y.cont0 = s.nvm.cont0 ∧ y.inUse = s.nvm.inUse ∧
    y.cfgBuf = s.nvm.cfgBuf := by
  let c : Container := { version := 3, gen := BitVec.ofNat 64 s.nextGen, crcOk := true, hcrcOk := true, recs := rs }
  have hz : s.newContainer rs = (s.modNvm fun v => { v with cont1 := c }).program (.container 1) := by
    unfold State.newContainer
    rw [h]
    rfl
  have hn := congrArg State.nvm ((LogBegun.refl (s.modNvm fun v => { v with cont1 := c })).program (.container 1)).same
  dsimp only
  rw [hz, hn]
  exact ⟨rfl, rfl, rfl, rfl, rfl⟩

section mail
variable {s : State} {j : Fin 8} {tag : BitVec 16} (ht : s.sp.taken = none)
  (hp : ∀ cmd, s.preReply (s.laneOf j) 7 cmd tag.toNat = none)
include ht hp

theorem updStatus_clause : ∃ u r, exec (.updStatus j tag []) s = .next u ∧ u.sp.replies.head? = some r ∧ r.status = 0 ∧
    r.body.length = 28 ∧ u.nvm = s.nvm := by
  obtain ⟨⟨r, hr, hst, -, hbody⟩, hnvm, -⟩ := s.updReply_facts j 1 tag.toNat 0
    ([0xB00004, 0xB00008, 0xB0000C, 0xB00018, 0xB0001C].flatMap (fun a => leBytes 4 (s.peek a)) ++ leBytes 8 (s.cget NVM_CFGGEN_GEN))
  refine ⟨_, r, congrArg Host.Outcome.next (State.mailServe_of_none ht (hp 1) _), hr, hst, ?_, hnvm⟩
  rw [hbody]
  simp

theorem imgBegin_clause (t : Nat) (hmax : t ≤ 67108864) : let n := s.spareSlot
    (4096 ≤ t → s.updBusy = false → ∃ u r, exec (.imgBegin j tag (leBytes 4 t)) s = .next u ∧ u.sp.replies.head? = some r ∧ r.status = 0 ∧
      u.cget (slotState n) = 0 ∧ u.nvm.imgTotal = some t ∧ u.nvm.slot n = { seen := true } ∧ u.cget UPD_STAT_STATE = 1 ∧
      u.cget UPD_PROG_BYTES = 0 ∧ u.nvm.slot (1 - n) = s.nvm.slot (1 - n)) ∧
    (4096 ≤ t → s.updBusy = true → ∃ u r, exec (.imgBegin j tag (leBytes 4 t)) s = .next u ∧ u.sp.replies.head? = some r ∧ r.status = 5 ∧
      u.nvm = s.nvm) ∧
    (t < 4096 → ∃ u r, exec (.imgBegin j tag (leBytes 4 t)) s = .next u ∧ u.sp.replies.head? = some r ∧ r.status = 4 ∧ u.nvm = s.nvm) := by
  intro n
  obtain ⟨ht4, -, hlen⟩ := countBody_fields (n := t) (by omega) []
  rw [List.append_nil] at ht4 hlen
  have he : exec (.imgBegin j tag (leBytes 4 t)) s = .next (if t < 4096 then s.updReply j 2 tag.toNat 4 []
      else if s.updBusy then s.updReply j 2 tag.toNat 5 [] else (s.imgBegin t none 0).updReply j 2 tag.toNat 0 []) := by
    refine congrArg Host.Outcome.next ((State.mailServe_of_none ht (hp 2) _).trans ?_)
    dsimp only
    rw [ht4, hlen]
    have hiff : (4 + ([] : List Byte).length ≠ 4 ∨ t < 4096 ∨ 67108864 < t) ↔ t < 4096 := by
      simp only [List.length_nil]
      omega
    rw [if_congr hiff rfl rfl]
  refine ⟨fun h4 hb => ?_, fun h4 hb => ?_, fun h4 => ?_⟩
  · rw [if_neg (by omega), if_neg (by rw [hb]; decide)] at he
    obtain ⟨⟨r, hr, hst, -⟩, hnvm, hregs⟩ := (s.imgBegin t none 0).updReply_facts j 2 tag.toNat 0 []
    obtain ⟨hs, hstate, hprog, htot, hslot, hother⟩ := s.imgBegin_facts t none 0
    refine ⟨_, r, he, hr, hst, (hregs _ (offQueues_slotState n)).trans hs, by rw [hnvm]; exact htot, by rw [hnvm]; exact hslot,
      (hregs _ (by unfold offQueues; decide)).trans hstate, (hregs _ (by unfold offQueues; decide)).trans hprog, by rw [hnvm]; exact hother⟩
  · rw [if_neg (by omega), if_pos hb] at he
    obtain ⟨⟨r, hr, hst, -⟩, hnvm, -⟩ := s.updReply_facts j 2 tag.toNat 5 []
    exact ⟨_, r, he, hr, hst, hnvm⟩
  · rw [if_pos h4] at he
    obtain ⟨⟨r, hr, hst, -⟩, hnvm, -⟩ := s.updReply_facts j 2 tag.toNat 4 []
    exact ⟨_, r, he, hr, hst, hnvm⟩

theorem imgData_clause (t : Nat) (data : List Byte) (off : Nat) (htot : s.nvm.imgTotal = some t) (hfrom : s.nvm.imgFrom = none)
    (hmax : t ≤ 67108864) (hoff : off ≤ 67108864) : let n := s.spareSlot
    let got := (s.nvm.slot n).bytes
    got.length + data.length ≤ t →
    (off = got.length → ∃ u r, exec (.imgData j tag (leBytes 4 off ++ data)) s = .next u ∧ u.sp.replies.head? = some r ∧ r.status = 0 ∧
      (u.nvm.slot n).bytes = got ++ data ∧ u.cget UPD_PROG_BYTES = got.length + data.length) ∧
    (off ≠ got.length → ∃ u r, exec (.imgData j tag (leBytes 4 off ++ data)) s = .next u ∧ u.sp.replies.head? = some r ∧ r.status = 4 ∧
      u.nvm = s.nvm) := by
  intro n got hfit
  obtain ⟨hoff4, hdata, hlen⟩ := countBody_fields (n := off) (by omega) data
  have he : exec (.imgData j tag (leBytes 4 off ++ data)) s = .next (if off ≠ got.length then s.updReply j 3 tag.toNat 4 []
      else (s.imgPut data).updReply j 3 tag.toNat 0 []) := by
    refine congrArg Host.Outcome.next ((State.mailServe_of_none ht (hp 3) _).trans ?_)
    simp only [htot, hfrom, hoff4, hdata, hlen, Option.isSome_none, Bool.false_eq_true, false_or]
    have hiff : (4 + data.length < 4 ∨ off ≠ got.length ∨ t < got.length + data.length) ↔ off ≠ got.length := by omega
    exact if_congr hiff rfl rfl
  refine ⟨fun h => ?_, fun h => ?_⟩
  · rw [if_neg (not_not.2 h)] at he
    obtain ⟨⟨r, hr, hst, -⟩, hnvm, hregs⟩ := (s.imgPut data).updReply_facts j 3 tag.toNat 0 []
    obtain ⟨hslot, hprog⟩ := s.imgPut_facts data (Nat.lt_of_le_of_lt hfit (by omega))
    exact ⟨_, r, he, hr, hst, by rw [hnvm]; exact hslot, (hregs _ (by unfold offQueues; decide)).trans hprog⟩
  · rw [if_pos h] at he
    obtain ⟨⟨r, hr, hst, -⟩, hnvm, -⟩ := s.updReply_facts j 3 tag.toNat 4 []
    exact ⟨_, r, he, hr, hst, hnvm⟩

theorem imgEnd_clause : let n := s.spareSlot
    let got := (s.nvm.slot n).bytes
    s.nvm.imgFrom = none → s.nvm.imgTotal = some got.length → ∃ u r, exec (.imgEnd j tag []) s = .next u ∧ u.sp.replies.head? = some r ∧
      r.status = 1 ∧ u.cget UPD_STAT_STATE = 2 ∧ u.nvm.imgTotal = none ∧ u.nvm.imgId = crc32c (got.take 4096) ∧
      ∃ l ∈ u.sp.longs, l.service = 7 ∧ l.cmd = 4 ∧ l.tag = tag.toNat := by
  intro n got hfrom htot
  have hno : ¬ ((!([] : List Byte).isEmpty) = true ∨ s.nvm.imgFrom.isSome = true ∨ s.nvm.imgTotal ≠ some got.length) := by
    simp [hfrom, htot]
  have he : exec (.imgEnd j tag []) s = .next (s.imgComplete.startLong j 7 4 tag.toNat [] []) :=
    congrArg Host.Outcome.next ((State.mailServe_of_none ht (hp 4) _).trans (if_neg hno))
  obtain ⟨⟨r, hr, hst⟩, hnvm, hregs, hlong⟩ := s.imgComplete.startLong_facts j 7 4 tag.toNat [] []
  obtain ⟨hstate, htot', hid⟩ := State.imgComplete_facts hfrom
  exact ⟨_, r, he, hr, hst, (hregs _ (by unfold offQueues; decide)).trans hstate, by rw [hnvm]; exact htot', by rw [hnvm]; exact hid, hlong⟩

theorem cfgBegin_clause (t : Nat) (hb : s.updBusy = false) (hmax : t ≤ 8388608) :
    ∃ u r, exec (.cfgBegin j tag (leBytes 4 t)) s = .next u ∧ u.sp.replies.head? = some r ∧
      r.status = 0 ∧ u.nvm = { s.nvm with cfgBuf := some (t, []) } := by
  obtain ⟨ht4, -, hlen⟩ := countBody_fields (n := t) (by omega) []
  rw [List.append_nil] at ht4 hlen
  have he : exec (.cfgBegin j tag (leBytes 4 t)) s = .next ((s.modNvm fun v => { v with cfgBuf := some (t, []) }).updReply j 0x10
      tag.toNat 0 []) := by
    refine congrArg Host.Outcome.next ((State.mailServe_of_none ht (hp 0x10) _).trans ?_)
    dsimp only
    rw [ht4, hlen, if_neg (by simp only [List.length_nil]; omega), if_neg (by rw [hb]; decide)]
  obtain ⟨⟨r, hr, hst, -⟩, hnvm, -⟩ := (s.modNvm fun v => { v with cfgBuf := some (t, []) }).updReply_facts j 0x10 tag.toNat 0 []
  exact ⟨_, r, he, hr, hst, hnvm⟩

theorem cfgData_clause (t : Nat) (bs data : List Byte) (hbuf : s.nvm.cfgBuf = some (t, bs)) (hmax : t ≤ 8388608)
    (hfit : bs.length + data.length ≤ t) :
    ∃ u r, exec (.cfgData j tag (leBytes 4 bs.length ++ data)) s = .next u ∧ u.sp.replies.head? = some r ∧ r.status = 0 ∧
      u.nvm = { s.nvm with cfgBuf := some (t, bs ++ data) } := by
  obtain ⟨hoff4, hdata, hlen⟩ := countBody_fields (n := bs.length) (by omega) data
  have he : exec (.cfgData j tag (leBytes 4 bs.length ++ data)) s = .next ((s.modNvm fun v =>
      { v with cfgBuf := some (t, bs ++ data) }).updReply j 0x11 tag.toNat 0 []) := by
    refine congrArg Host.Outcome.next ((State.mailServe_of_none ht (hp 0x11) _).trans ?_)
    simp only [hbuf, hoff4, hdata, hlen]
    exact if_neg (by omega)
  obtain ⟨⟨r, hr, hst, -⟩, hnvm, -⟩ := (s.modNvm fun v => { v with cfgBuf := some (t, bs ++ data) }).updReply_facts j 0x11 tag.toNat 0 []
  exact ⟨_, r, he, hr, hst, hnvm⟩

theorem cfgCommit_clause (bs : List Byte) (hbuf : s.nvm.cfgBuf = some (bs.length, bs)) :
    (∀ rs, parseContainer bs = some rs → guardOf rs = none → s.nvm.inUse = some 0 → ∃ u r, exec (.cfgCommit j tag []) s = .next u ∧
      u.sp.replies.head? = some r ∧ r.status = 1 ∧ u.nvm.cfgBuf = none ∧ u.nvm.inUse = some 0 ∧ u.nvm.cont0 = s.nvm.cont0 ∧
      u.nvm.cont1.gen = s.nvm.cont0.gen + 1 ∧ u.nvm.cont1.recs = rs ++ (guardOf s.nvm.cont0.recs).toList) ∧
    (parseContainer bs = none → ∃ u r, exec (.cfgCommit j tag []) s = .next u ∧ u.sp.replies.head? = some r ∧ r.status = 8 ∧
      u.nvm = { s.nvm with cfgBuf := none }) ∧
    (∀ rs, parseContainer bs = some rs → guardOf rs ≠ none → ∃ u r, exec (.cfgCommit j tag []) s = .next u ∧
      u.sp.replies.head? = some r ∧ r.status = 4 ∧ u.nvm = { s.nvm with cfgBuf := none }) := by
  let z := s.modNvm fun v => { v with cfgBuf := none }
  have he : exec (.cfgCommit j tag []) s = .next ((parseContainer bs).elim (z.updReply j 0x12 tag.toNat 8 []) fun rs =>
      if (guardOf rs).isSome then z.updReply j 0x12 tag.toNat 4 []
      else (z.newContainer (rs ++ (guardOf z.records).toList)).startLong j 7 0x12 tag.toNat [] [z.nextGen]) := by
    refine congrArg Host.Outcome.next ((State.mailServe_of_none ht (hp 0x12) _).trans ?_)
    simp only [hbuf, List.isEmpty_nil, Bool.not_true, Bool.false_eq_true, ne_eq, not_true_eq_false, or_self, if_false]
    cases parseContainer bs with
    | none => rfl
    | some rs => cases guardOf z.records <;> rfl
  refine ⟨fun rs hrs hg hin => ?_, fun hrs => ?_, fun rs hrs hg => ?_⟩
  · rw [hrs, Option.elim_some, hg, Option.isSome_none, if_neg (by decide)] at he
    obtain ⟨⟨r, hr, hst⟩, hnvm, -⟩ := (z.newContainer (rs ++ (guardOf z.records).toList)).startLong_facts j 7 0x12 tag.toNat []
      [z.nextGen]
    have hcont : z.container = some s.nvm.cont0 := by
      change s.nvm.inUse.map (fun n => if n = 0 then s.nvm.cont0 else s.nvm.cont1) = _
      rw [hin]
      rfl
    have hrec : z.records = s.nvm.cont0.recs := by rw [State.records, hcont]
    have hgen : z.nextGen = (s.nvm.cont0.gen.toNat + 1) % 2 ^ 64 := by rw [State.nextGen, hcont]
    have hcopy : z.otherCopy = 1 := by
      rw [State.otherCopy, show z.nvm.inUse = some 0 from hin]
    obtain ⟨hg1, hr1, h0, hin1, hbuf1⟩ := State.newContainer_facts (rs ++ (guardOf z.records).toList) hcopy
    refine ⟨_, r, he, hr, hst, by rw [hnvm, hbuf1]; rfl, by rw [hnvm, hin1]; exact hin, by rw [hnvm, h0]; rfl, ?_,
      by rw [hnvm, hr1, hrec]⟩
    rw [hnvm, hg1, hgen]
    refine BitVec.eq_of_toNat_eq ?_
    rw [BitVec.toNat_ofNat, Nat.mod_mod, BitVec.toNat_add]
    rfl
  · rw [hrs, Option.elim_none] at he
    obtain ⟨⟨r, hr, hst, -⟩, hnvm, -⟩ := z.updReply_facts j 0x12 tag.toNat 8 []
    exact ⟨_, r, he, hr, hst, hnvm⟩
  · rw [hrs, Option.elim_some, if_pos (Option.isSome_iff_ne_none.2 hg)] at he
    obtain ⟨⟨r, hr, hst, -⟩, hnvm, -⟩ := z.updReply_facts j 0x12 tag.toNat 4 []
    exact ⟨_, r, he, hr, hst, hnvm⟩

end mail

/-! ### The verdict on an image -/

/-- The update's long commands that finish when there is one long command, and it is of the update. -/
theorem State.finishUpd_facts {s : State} {l : LongCmd} (hl : s.sp.longs = [l]) (h7 : l.service = 7) (h4 : l.cmd = 4) {cmds : List Nat}
    (hc : cmds.contains 4 = true) (st : Nat) (body : List Byte) : let u := s.finishUpd cmds st body
    (∃ r, u.sp.replies.head? = some r ∧ r.status = st ∧ r.tag = l.tag ∧ r.body = body) ∧ u.sp.longs = [] ∧ u.nvm = s.nvm ∧
    ∀ f : Fld, offQueues f → u.cget f = s.cget f := by
  have hu : s.finishUpd cmds st body = s.finishLong l st body := by
    unfold State.finishUpd
    rw [hl, List.filter_cons_of_pos (by rw [h7, h4, hc]; rfl), List.filter_nil]
    rfl
  obtain ⟨hr, hsame, hregs⟩ := (s.modSp fun x => { x with longs := x.longs.filter fun y => decide (y ≠ l) }).reply_any l.group l.service
    l.cmd l.tag st body
  have hlongs := congrArg (fun y => y.sp.longs) hsame
  have hnvm := congrArg State.nvm hsame
  intro u
  rw [show u = _ from hu]
  refine ⟨hr, hlongs.trans ?_, hnvm, hregs⟩
  change s.sp.longs.filter (fun y => decide (y ≠ l)) = []
  rw [hl]
  simp

theorem imgVerifies_length {bs : List Byte} {ok : Bool} (h : imgVerifies bs ok = true) : 4096 ≤ bs.length := by
  simp only [imgVerifies, Bool.and_eq_true, decide_eq_true_eq] at h
  omega

theorem ofBytes_lt (l : List Byte) : ofBytes l < 256 ^ l.length := by
  induction l with
  | nil => decide
  | cons b r ih =>
    have hb : b.toNat < 256 := b.isLt
    rw [ofBytes, List.length_cons, Nat.pow_succ]
    omega

theorem imgVerifies_false {bs : List Byte} {ok : Bool} (h : bs.length < 4096 ∨ ok = false ∨ bodyNat bs 0 4 ≠ 0xDC10F1A1 ∨
    (bs.drop 24).take 32 ≠ sha256 ((bs.drop 4096).take (bodyNat bs 8 4))) : imgVerifies bs ok = false := by
  have hb : ∀ i, bodyNat bs i 4 < 2 ^ 32 := fun i => by
    have hl : ((bs.drop i).take 4).length ≤ 4 := List.length_take_le _ _
    exact Nat.lt_of_lt_of_le (ofBytes_lt _) (Nat.pow_le_pow_right (by decide) hl : _ ≤ 256 ^ 4)
  have hmagic : (imgHdr bs).magic.toNat = bodyNat bs 0 4 := by
    rw [imgHdr, BitVec.toNat_ofNat, Nat.mod_eq_of_lt (hb 0)]
  have hlen : (imgHdr bs).len.toNat = bodyNat bs 8 4 := by
    rw [imgHdr, BitVec.toNat_ofNat, Nat.mod_eq_of_lt (hb 8)]
  cases hv : imgVerifies bs ok with
  | false => rfl
  | true =>
    simp only [imgVerifies, Bool.and_eq_true, decide_eq_true_eq, hlen] at hv
    obtain ⟨⟨⟨⟨hm, -⟩, hl⟩, hok⟩, hsha⟩ := hv
    rcases h with h | h | h | h
    · omega
    · rw [hok] at h
      cases h
    · rw [hm] at hmagic
      exact absurd hmagic.symm h
    · exact absurd hsha h

/-- The neighbours that an image goes on to depend on the update in progress and on three registers. -/
theorem State.onward_congr {s t : State} (hf : t.nvm.imgFrom = s.nvm.imgFrom) (hr : t.con GLB_STAT_RECOVERY = s.con GLB_STAT_RECOVERY)
    (hup : t.cget UPD_UP_MAC = s.cget UPD_UP_MAC) (hdn : t.cget UPD_DN_MAC = s.cget UPD_DN_MAC) : t.onward = s.onward := by
  simp only [State.onward, State.neighbour, hf, hr, hup, hdn]

theorem State.program_nvm (s : State) (a : NvmArea) : NvmLogged s.nvm (s.program a).nvm := by
  have h := congrArg State.nvm ((LogBegun.refl s).program a).same
  unfold NvmLogged
  rw [h]

/-- A slot marked VERIFIED, its version shown. -/
def State.slotVerified (s : State) : State := (s.cset (slotState s.spareSlot) 1).showVer s.spareSlot

/-- An image that is sound, its entry in the log, and the update at its forwarding. -/
def State.forwarding (s : State) : State := ((s.slotVerified.logImage 0x21 s.spareSlot).program .slotSelect).updState 3

section verdict
variable {s : State}

theorem slotState_ne_ver (n m : Nat) : (slotState m).key ≠ (NVM_VER_VER n).key := by
  unfold slotState
  split <;> simp only [Fld.key, NVM_SLOT_S0, NVM_SLOT_S1, NVM_VER_VER] <;> omega

theorem State.slotVerified_facts (h : 120 ≤ (s.nvm.slot s.spareSlot).bytes.length) :
    s.slotVerified.cget (slotState s.spareSlot) = 1 ∧
    s.slotVerified.cget (NVM_VER_VER s.spareSlot) = bodyNat (s.nvm.slot s.spareSlot).bytes 4 4 ∧
    ∀ f : Fld, f.key ≠ (slotState s.spareSlot).key → f.key ≠ (NVM_VER_VER s.spareSlot).key → s.slotVerified.cget f = s.cget f := by
  have hone : (s.cset (slotState s.spareSlot) 1).cget (slotState s.spareSlot) = 1 :=
    State.cget_cset_of_lt _ (by unfold slotState; split <;> decide)
  have hhdr : (s.nvm.slot s.spareSlot).hdr = some (imgHdr (s.nvm.slot s.spareSlot).bytes) := if_neg (Nat.not_lt.2 h)
  have hver : (imgHdr (s.nvm.slot s.spareSlot).bytes).imgVer.toNat = bodyNat (s.nvm.slot s.spareSlot).bytes 4 4 := by
    have hl : (((s.nvm.slot s.spareSlot).bytes.drop 4).take 4).length ≤ 4 := List.length_take_le _ _
    rw [imgHdr, BitVec.toNat_ofNat]
    exact Nat.mod_eq_of_lt (Nat.lt_of_lt_of_le (ofBytes_lt _) (Nat.pow_le_pow_right (by decide) hl : _ ≤ 256 ^ 4))
  have hz : s.slotVerified = (s.cset (slotState s.spareSlot) 1).cset (NVM_VER_VER s.spareSlot)
      (imgHdr (s.nvm.slot s.spareSlot).bytes).imgVer.toNat := by
    unfold State.slotVerified State.showVer
    rw [hone, if_neg (by decide)]
    change (s.cset (slotState s.spareSlot) 1).cset _ (((s.nvm.slot s.spareSlot).hdr.map fun h => h.imgVer.toNat).getD 0) = _
    rw [hhdr]
    rfl
  rw [hz]
  refine ⟨?_, ?_, fun f h1 h2 => ?_⟩
  · rw [State.cget_cset_ne _ _ _ _ (slotState_ne_ver _ _)]
    exact hone
  · rw [State.cget_cset_of_lt _ (imgHdr _).imgVer.isLt, hver]
  · rw [State.cget_cset_ne _ _ _ _ h2, State.cget_cset_ne _ _ _ _ h1]

theorem State.forwarding_facts : s.forwarding.cget UPD_STAT_STATE = 3 ∧ NvmLogged s.nvm s.forwarding.nvm ∧ s.forwarding.sp = s.sp ∧
    ∀ f : Fld, ¬ noteKey f.key → f.key ≠ UPD_STAT_STATE.key → s.forwarding.cget f = s.slotVerified.cget f := by
  have hlog := State.logOwn_notes s.slotVerified 0x21 0 0 (pack [(0, 8, s.spareSlot), (32, 32,
    ((s.slotVerified.nvm.slot s.spareSlot).hdr.map fun h => h.imgVer.toNat).getD 0)]) 0
  have hlog' : Notes s.slotVerified (s.slotVerified.logImage 0x21 s.spareSlot) := hlog
  have hnvm : NvmLogged s.slotVerified.nvm (s.slotVerified.logImage 0x21 s.spareSlot).nvm := State.logAdd_nvm _ _
  have h := hlog'.trans (State.program_notes _ .slotSelect)
  have hn := hnvm.trans (State.program_nvm _ .slotSelect)
  unfold State.forwarding
  generalize (s.slotVerified.logImage 0x21 s.spareSlot).program .slotSelect = z at *
  exact ⟨State.cget_cset_of_lt _ (by decide), hn, h.sp_eq, fun f hf hne => (State.cget_cset_ne _ _ _ _ hne).trans (h.regs f hf)⟩

/-- Without a neighbour to go on to, an image that came through the mailbox is done with one node. -/
theorem State.forwardDone_facts {l : LongCmd} (h3 : s.cget UPD_STAT_STATE = 3) (hf : s.nvm.imgFrom = none) (ho : s.onward = [])
    (hl : s.sp.longs = [l]) (h7 : l.service = 7) (h4 : l.cmd = 4) : let u := s.forwardDone
    (∃ r, u.sp.replies.head? = some r ∧ r.status = 0 ∧ r.tag = l.tag ∧ r.body = [1]) ∧ u.sp.longs = [] ∧ NvmLogged s.nvm u.nvm ∧
    u.cget UPD_STAT_STATE = 0 ∧ u.cget UPD_STAT_NODES = 1 ∧
    ∀ f : Fld, offQueues f → ¬ noteKey f.key → f.key ≠ UPD_STAT_STATE.key → f.key ≠ UPD_STAT_NODES.key → u.cget f = s.cget f := by
  let y := (s.updState 0).cset UPD_STAT_NODES 1
  have hy : Notes y (y.logImage 0x22 s.spareSlot) := State.logOwn_notes _ _ _ _ _ _
  have hn : NvmLogged y.nvm (y.logImage 0x22 s.spareSlot).nvm := State.logAdd_nvm _ _
  have hfrom : (y.logImage 0x22 s.spareSlot).nvm.imgFrom = none := (congrArg NvmSt.imgFrom hn).trans hf
  have hdone : s.forwardDone = (y.logImage 0x22 s.spareSlot).finishUpd [4] 0 [1] := by
    unfold State.forwardDone
    simp only [h3, ho, List.any_nil, Bool.false_eq_true, ne_eq, not_true_eq_false, or_self, if_false, List.map_nil, List.sum_nil,
      Nat.add_zero]
    change (match (y.logImage 0x22 s.spareSlot).nvm.imgFrom with
      | none => (y.logImage 0x22 s.spareSlot).finishUpd [4] 0 [BitVec.ofNat 8 1]
      | some u => (y.logImage 0x22 s.spareSlot).sendUpd u 4 0 1 0 (y.logImage 0x22 s.spareSlot).nvm.imgId) = _
    rw [hfrom]
    rfl
  have hyregs : y.cget UPD_STAT_STATE = 0 ∧ y.cget UPD_STAT_NODES = 1 := by
    refine ⟨?_, State.cget_cset_of_lt _ (by decide)⟩
    rw [State.cget_cset_ne _ _ _ _ (by decide)]
    exact State.cget_cset_of_lt _ (by decide)
  have hykept : ∀ f : Fld, f.key ≠ UPD_STAT_STATE.key → f.key ≠ UPD_STAT_NODES.key → y.cget f = s.cget f := fun f h1 h2 =>
    (State.cget_cset_ne _ _ _ _ h2).trans (State.cget_cset_ne _ _ _ _ h1)
  have hylongs : y.sp.longs = [l] := hl
  have hynvm : y.nvm = s.nvm := rfl
  clear_value y
  have hlongs : (y.logImage 0x22 s.spareSlot).sp.longs = [l] := (congrArg SpSt.longs hy.sp_eq).trans hylongs
  obtain ⟨hr, hlong, hnv, hregs⟩ := State.finishUpd_facts hlongs h7 h4 (cmds := [4]) (by decide) 0 [1]
  intro u
  rw [show u = _ from hdone]
  refine ⟨hr, hlong, by rw [hnv, ← hynvm]; exact hn, ?_, ?_, fun f hq hnk h1 h2 => ?_⟩
  · rw [hregs _ (by unfold offQueues; decide), hy.regs _ (by unfold noteKey; decide), hyregs.1]
  · rw [hregs _ (by unfold offQueues; decide), hy.regs _ (by unfold noteKey; decide), hyregs.2]
  · rw [hregs f hq, hy.regs f hnk, hykept f h1 h2]

/-- The halt of an image that came through the mailbox. -/
theorem State.haltHere_facts {l : LongCmd} (hf : s.nvm.imgFrom = none) (hl : s.sp.longs = [l]) (h7 : l.service = 7) (h4 : l.cmd = 4) :
    let u := s.haltHere 2
    (∃ r, u.sp.replies.head? = some r ∧ r.status = 8 ∧ r.tag = l.tag ∧ r.body = [2, 0]) ∧
    u.cget UPD_STAT_STATE = 6 ∧ u.cget UPD_STAT_REASON = 2 ∧
    ∀ f : Fld, offQueues f → ¬ noteKey f.key → f.key ≠ UPD_STAT_STATE.key → f.key ≠ UPD_STAT_REASON.key → u.cget f = s.cget f := by
  let y := (s.updState 6).cset UPD_STAT_REASON 2
  have hy : Notes y (y.logImage 0x26 s.spareSlot) := State.logOwn_notes _ _ _ _ _ _
  have hn : NvmLogged y.nvm (y.logImage 0x26 s.spareSlot).nvm := State.logAdd_nvm _ _
  have hfrom : (y.logImage 0x26 s.spareSlot).nvm.imgFrom = none := (congrArg NvmSt.imgFrom hn).trans hf
  have hhalt : s.haltHere 2 = (y.logImage 0x26 s.spareSlot).finishUpd [4, 5, 6] 8 [2, 0] := by
    unfold State.haltHere
    rw [hf]
    change (match (y.logImage 0x26 s.spareSlot).nvm.imgFrom with
      | none => (y.logImage 0x26 s.spareSlot).finishUpd [4, 5, 6] 8 [BitVec.ofNat 8 2, BitVec.ofNat 8 0]
      | some u => (y.logImage 0x26 s.spareSlot).sendUpd u 7 2 0 0 (y.logImage 0x26 s.spareSlot).nvm.imgId) = _
    rw [hfrom]
    rfl
  have hyregs : y.cget UPD_STAT_STATE = 6 ∧ y.cget UPD_STAT_REASON = 2 := by
    refine ⟨?_, State.cget_cset_of_lt _ (by decide)⟩
    rw [State.cget_cset_ne _ _ _ _ (by decide)]
    exact State.cget_cset_of_lt _ (by decide)
  have hykept : ∀ f : Fld, f.key ≠ UPD_STAT_STATE.key → f.key ≠ UPD_STAT_REASON.key → y.cget f = s.cget f := fun f h1 h2 =>
    (State.cget_cset_ne _ _ _ _ h2).trans (State.cget_cset_ne _ _ _ _ h1)
  have hylongs : y.sp.longs = [l] := hl
  clear_value y
  have hlongs : (y.logImage 0x26 s.spareSlot).sp.longs = [l] := (congrArg SpSt.longs hy.sp_eq).trans hylongs
  obtain ⟨hr, -, -, hregs⟩ := State.finishUpd_facts hlongs h7 h4 (cmds := [4, 5, 6]) (by decide) 8 [2, 0]
  intro u
  rw [show u = _ from hhalt]
  refine ⟨hr, ?_, ?_, fun f hq hnk h1 h2 => ?_⟩
  · rw [hregs _ (by unfold offQueues; decide), hy.regs _ (by unfold noteKey; decide), hyregs.1]
  · rw [hregs _ (by unfold offQueues; decide), hy.regs _ (by unfold noteKey; decide), hyregs.2]
  · rw [hregs f hq, hy.regs f hnk, hykept f h1 h2]

end verdict

theorem imageVerified_clause (s : State) (sigOk : Bool) (l : LongCmd) (h2 : s.cget UPD_STAT_STATE = 2) (hf : s.nvm.imgFrom = none)
    (hl : s.sp.longs = [l]) (h7 : l.service = 7) (h4 : l.cmd = 4) :
    let n := s.spareSlot
    let bs := (s.nvm.slot n).bytes
    (imgVerifies bs sigOk = true → s.onward = [] → ∃ u r, exec (.imageVerified sigOk) s = .next u ∧
      u.cget (slotState n) = 1 ∧ u.cget (NVM_VER_VER n) = bodyNat bs 4 4 ∧ u.nvm.slot n = s.nvm.slot n ∧ u.cget UPD_STAT_STATE = 0 ∧
      u.cget UPD_STAT_NODES = 1 ∧ u.sp.longs = [] ∧ u.sp.replies.head? = some r ∧ r.status = 0 ∧ r.tag = l.tag ∧ r.body = [1]) ∧
    (bs.length < 4096 ∨ sigOk = false ∨ bodyNat bs 0 4 ≠ 0xDC10F1A1 ∨ (bs.drop 24).take 32 ≠ sha256 ((bs.drop 4096).take (bodyNat bs 8 4)) →
      ∃ u r, exec (.imageVerified sigOk) s = .next u ∧ u.cget (slotState n) = s.cget (slotState n) ∧
      u.cget UPD_STAT_STATE = 6 ∧ u.cget UPD_STAT_REASON = 2 ∧ u.sp.replies.head? = some r ∧ r.status = 8 ∧ r.body = [2, 0]) := by
  intro n bs
  refine ⟨fun hv ho => ?_, fun hbad => ?_⟩
  · have hlen : 120 ≤ bs.length := Nat.le_trans (by decide) (imgVerifies_length hv)
    obtain ⟨hone, hver, hkept0⟩ := State.slotVerified_facts hlen
    obtain ⟨h3, hn, hsp, hkept⟩ := State.forwarding_facts (s := s)
    have hback : ∀ f : Fld, ¬ noteKey f.key ∧ f.key ≠ UPD_STAT_STATE.key → f.key ≠ (slotState n).key → f.key ≠ (NVM_VER_VER n).key →
        s.forwarding.cget f = s.cget f := fun f hf hs hv => (hkept f hf.1 hf.2).trans (hkept0 f hs hv)
    have hfrom : s.forwarding.nvm.imgFrom = none := (congrArg NvmSt.imgFrom hn).trans hf
    have hmac : ∀ f : Fld, f.reg = UPD_UP_MAC.reg ∨ f.reg = UPD_DN_MAC.reg ∨ f.reg = GLB_STAT_RECOVERY.reg → f.lo < 64 →
        f.key ≠ (slotState n).key ∧ f.key ≠ (NVM_VER_VER n).key := by
      intro f hf hlo
      have hn1 : n ≤ 1 := s.spareSlot_le
      unfold slotState
      split <;> simp only [Fld.key, NVM_SLOT_S0, NVM_SLOT_S1, NVM_VER_VER, UPD_UP_MAC, UPD_DN_MAC, GLB_STAT_RECOVERY] at hf ⊢ <;> omega
    have hon : s.forwarding.onward = [] := by
      rw [State.onward_congr (hfrom.trans hf.symm) ?_ ?_ ?_, ho]
      · rw [State.con, hback _ (by unfold noteKey; decide) (hmac _ (by decide) (by decide)).1 (hmac _ (by decide) (by decide)).2, State.con]
      · exact hback _ (by unfold noteKey; decide) (hmac _ (by decide) (by decide)).1 (hmac _ (by decide) (by decide)).2
      · exact hback _ (by unfold noteKey; decide) (hmac _ (by decide) (by decide)).1 (hmac _ (by decide) (by decide)).2
    have he : exec (.imageVerified sigOk) s = .next s.forwarding.forwardDone := by
      refine congrArg Host.Outcome.next ((if_neg (not_not.2 h2)).trans ((if_pos hv).trans ?_))
      exact congrArg State.forwardDone (congrArg (List.foldl _ s.forwarding) hon)
    obtain ⟨⟨r, hr, hst, htag, hbody⟩, hlongs, hn', hstate, hnodes, hlast⟩ :=
      State.forwardDone_facts h3 hfrom hon ((congrArg SpSt.longs hsp).trans hl) h7 h4
    obtain ⟨ho1, ho2, -, ho3⟩ := slotState_off n
    have hvk : offQueues (NVM_VER_VER n) ∧ ¬ noteKey (NVM_VER_VER n).key ∧ (NVM_VER_VER n).key ≠ UPD_STAT_STATE.key ∧
        (NVM_VER_VER n).key ≠ UPD_STAT_NODES.key := by
      have hn1 : n ≤ 1 := s.spareSlot_le
      simp only [offQueues, noteKey, Fld.key, NVM_VER_VER, UPD_STAT_STATE, UPD_STAT_NODES]
      omega
    refine ⟨_, r, he, ?_, ?_, ?_, hstate, hnodes, hlongs, hr, hst, htag, hbody⟩
    · rw [hlast _ (offQueues_slotState n) ho1 ho2 ho3, hkept _ ho1 ho2, hone]
    · rw [hlast _ hvk.1 hvk.2.1 hvk.2.2.1 hvk.2.2.2, hkept _ hvk.2.1 hvk.2.2.1, hver]
    · have h := hn.trans hn'
      rw [NvmSt.slot, NvmSt.slot, congrArg NvmSt.slot0 h, congrArg NvmSt.slot1 h]
  · have he : exec (.imageVerified sigOk) s = .next (s.haltHere 2) :=
      congrArg Host.Outcome.next ((if_neg (not_not.2 h2)).trans (if_neg (by rw [imgVerifies_false hbad]; decide)))
    obtain ⟨⟨r, hr, hst, -, hbody⟩, hstate, hreason, hkept⟩ := State.haltHere_facts hf hl h7 h4
    exact ⟨_, r, he, hkept _ (offQueues_slotState n) (slotState_off n).1 (slotState_off n).2.1 (slotState_off n).2.2.1, hstate, hreason, hr, hst,
        hbody⟩

/-! ### Programs that end, and entries of the log -/

section done
variable {s : State}

/-- No supply loss since a shutdown stops the program. -/
theorem exec_nvmProgramDone (hp : s.pro.shutdown = false ∨ s.tm.tick ≤ s.pro.tripTick + 500) {a : NvmArea}
    (hj : s.nvm.journal.find? (fun x => decide (x ≠ .logErase)) = some a) :
    (∀ n, a = .container n → exec .nvmProgramDone s = .next (if s.nvm.cut then s.progDone else
      (s.progDone.sp.longs.filter fun l => decide (l.service = 7) && decide (l.cmd = 0x12)).foldl
        (fun z l => z.finishLong l 0 (leBytes 8 (l.arg.headD 0))) s.progDone)) ∧
    (a = .log → exec .nvmProgramDone s = .next s.progDone) := by
  have hno : ¬ (s.pro.shutdown = true ∧ ticksMs 2 < s.since s.pro.tripTick) := by
    rintro ⟨h1, h2⟩
    rw [ticksMs, State.since] at h2
    rcases hp with h | h
    · rw [h] at h1
      cases h1
    · omega
  refine ⟨fun n ha => ?_, fun ha => ?_⟩ <;>
  · show execNvmProgramDone s = _
    unfold execNvmProgramDone
    rw [if_neg hno, hj, ha]

theorem State.progDone_container {n : Nat} (hj : s.nvm.journal = [.container n]) :
    s.progDone = if s.nvm.cut then s else s.setJournal [] := by
  simp [State.progDone, hj]

theorem State.progDone_log (hj : s.nvm.journal = [.log]) (hc : s.nvm.cut = false) : s.progDone = (s.setJournal []).logDone := by
  simp [State.progDone, hj, hc]

end done

theorem programDone_clause (s : State) (l : LongCmd) (n g : Nat) (hp : s.pro.shutdown = false ∨ s.tm.tick ≤ s.pro.tripTick + 500)
    (hj : s.nvm.journal = [.container n]) :
    (s.nvm.cut = true → exec .nvmProgramDone s = .next s) ∧
    (s.nvm.cut = false → s.sp.longs = [l] → l.service = 7 → l.cmd = 0x12 → l.arg = [g] → ∃ u r, exec .nvmProgramDone s = .next u ∧
      u.nvm.journal = [] ∧ u.con NVM_STAT_BUSY = false ∧ u.sp.longs = [] ∧ u.sp.replies.head? = some r ∧ r.status = 0 ∧
      r.body = leBytes 8 g) := by
  have he := (exec_nvmProgramDone hp (a := .container n) (by rw [hj]; rfl)).1 n rfl
  rw [State.progDone_container hj] at he
  refine ⟨fun hc => ?_, fun hc hl h7 h12 hg => ?_⟩
  · rwa [if_pos hc, if_pos hc] at he
  · have hl' : (s.setJournal []).sp.longs = [l] := hl
    have hf : ([l].filter fun l => decide (l.service = 7) && decide (l.cmd = 0x12)) = [l] := by simp [h7, h12]
    rw [hc, if_neg (by decide), if_neg (by decide), hl', hf, List.foldl_cons, List.foldl_nil, hg, List.headD_cons] at he
    obtain ⟨⟨r, hr, hst, -, hbody⟩, hsame, hregs⟩ := ((s.setJournal []).modSp fun x =>
      { x with longs := x.longs.filter fun y => decide (y ≠ l) }).reply_any l.group l.service l.cmd l.tag 0 (leBytes 8 g)
    have hlongs := congrArg (fun y => y.sp.longs) hsame
    have hnvm := congrArg (fun y => y.nvm.journal) hsame
    have hbusy : ((s.setJournal []).modSp fun x => { x with longs := x.longs.filter fun y => decide (y ≠ l) }).cget NVM_STAT_BUSY = 0 :=
      State.cget_cset_of_lt (s.modNvm fun n => { n with journal := [] }) (f := NVM_STAT_BUSY) (v := 0) (by decide)
    refine ⟨_, r, he, hnvm, ?_, hlongs.trans ?_, hr, hst, hbody⟩
    · exact State.con_eq_false.2 ((hregs NVM_STAT_BUSY (by unfold offQueues; decide)).trans hbusy)
    · change s.sp.longs.filter (fun y => decide (y ≠ l)) = []
      rw [hl]
      simp

theorem logProgramDone_clause (s : State) (e : LogEntry) (hp : s.pro.shutdown = false ∨ s.tm.tick ≤ s.pro.tripTick + 500)
    (hj : s.nvm.journal = [.log]) (hc : s.nvm.cut = false) (hb : s.nvm.logBusy = 1) (hpe : s.nvm.pending = [e]) :
    ∃ u, exec .nvmProgramDone s = .next u ∧ (∀ d, tget u.nvm.log (e.seq % 65536) d = e) ∧ u.nvm.pending = [] ∧ u.cget MRN_STAT_PEND = 0 := by
  have he := (exec_nvmProgramDone hp (a := .log) (by rw [hj]; rfl)).2 rfl
  rw [State.progDone_log hj hc] at he
  let z : State := ((s.setJournal []).modNvm fun v => { v with
    logBusy := 0, pending := [], log := tins v.log (e.seq % 65536) e }).cset MRN_STAT_PEND 0
  have hz : (s.setJournal []).logDone = z := by
    have hb' : (s.setJournal []).nvm.logBusy = 1 := hb
    have hp' : (s.setJournal []).nvm.pending = [e] := hpe
    have hstart : z.logStart = z := by
      unfold State.logStart
      rw [show z.nvm.pending = [] from rfl]
    rw [← hstart]
    unfold State.logDone State.modNvm
    simp only [hb', hp', List.take_succ_cons, List.take_zero, List.drop_succ_cons, List.drop_zero, List.foldl_cons, List.foldl_nil,
      List.length_nil]
    rfl
  rw [hz] at he
  exact ⟨z, he, fun d => tget_tins_same _ _ _ _, rfl, State.cget_cset_of_lt _ (by decide)⟩

theorem logErased_clause (s : State) (hj : s.nvm.journal = [.logErase]) (hc : s.nvm.cut = false) (hpe : s.nvm.pending = []) :
    ∃ u, exec .logPageEraseDone s = .next u ∧ u.nvm.erasedPage = some ((s.nvm.page + 1) % 1024) ∧ u.nvm.journal = [] := by
  let z : State := (s.setJournal []).modNvm fun v => { v with
    erasedPage := some ((s.nvm.page + 1) % 1024), log := tkeep v.log fun i => decide (i / 64 ≠ (s.nvm.page + 1) % 1024) }
  have hz : z.logStart = z := by
    have hp : z.nvm.pending = [] := hpe
    unfold State.logStart
    rw [hp]
  have he : exec .logPageEraseDone s = .next z := by
    show execLogPageEraseDone s = _
    unfold execLogPageEraseDone
    rw [if_pos (by simp [hj, hc])]
    refine congrArg Host.Outcome.next (Eq.trans ?_ hz)
    have : s.nvm.journal.erase .logErase = [] := by simp [hj]
    rw [this]
  exact ⟨z, he, rfl, rfl⟩

theorem moraineEntry_clause (s : State) (code tag : BitVec 16) (a v o : W32) (actor : Byte) (pwd : Bool) (d5 d6 : W64)
    (ho : s.nvm.overflow = 0) :
    (s.nvm.pending.length < 1024 → ∃ u, exec (.moraineEntry code a v o actor pwd tag d5 d6) s = .next u ∧
      u.cget MRN_SEQ_SEQ = (s.cget MRN_SEQ_SEQ + 1) % 2 ^ 64 ∧ u.cget MRN_STAT_PEND = s.nvm.pending.length + 1 ∧
      u.nvm.pending = s.nvm.pending ++ [{ seq := s.cget MRN_SEQ_SEQ, time := s.tm.now, qual := s.qual, code := code.toNat, addr := a.toNat
                                          val := v.toNat, old := o.toNat, actor := actor.toNat, pwd := pwd, tag := tag.toNat
                                          d5 := d5.toNat, d6 := d6.toNat }]) ∧
    (1024 ≤ s.nvm.pending.length → ∃ u, exec (.moraineEntry code a v o actor pwd tag d5 d6) s = .next u ∧
      u.nvm.pending = s.nvm.pending ∧ u.cget MRN_STAT_LOST = min (s.cget MRN_STAT_LOST + 1) 65535 ∧ u.upl = s.upl) := by
  refine ⟨fun h => ?_, fun h => ?_⟩
  · have he : exec (.moraineEntry code a v o actor pwd tag d5 d6) s = .next (s.logPut (s.stamp code.toNat a.toNat v.toNat o.toNat
        actor.toNat pwd tag.toNat d5.toNat d6.toNat)) := congrArg Host.Outcome.next (State.logAdd_of_room h ho _)
    exact ⟨_, he, State.logPut_seq _ _, (State.logPut_pend _ _).trans (Nat.mod_eq_of_lt (by omega)), State.logPut_pending _ _⟩
  · have he : exec (.moraineEntry code a v o actor pwd tag d5 d6) s = .next s.logLose := congrArg Host.Outcome.next (if_pos h)
    exact ⟨_, he, rfl, State.cget_cbump_sat (s.modNvm fun n => { n with overflow := n.overflow + 1 }) MRN_STAT_LOST, rfl⟩

/-- Settles O48: the commands of the update service, the verdict on an image, the programs of the NVM and the entries of the log. -/
theorem imagesContainersAndTheLog : Obligations.ImagesContainersAndTheLog :=
  ⟨fun s j tag ht hp => ⟨updStatus_clause ht hp, fun t hmax => imgBegin_clause ht hp t hmax,
      fun t data off htot hfrom hmax hoff hfit => imgData_clause ht hp t data off htot hfrom hmax hoff hfit, imgEnd_clause ht hp,
      fun t hb hmax => cfgBegin_clause ht hp t hb hmax, fun t bs data hbuf hmax hfit => cfgData_clause ht hp t bs data hbuf hmax hfit,
      fun bs hbuf => cfgCommit_clause ht hp bs hbuf⟩,
    imageVerified_clause, fun _ hs ht => congrArg Host.Outcome.next (if_pos ⟨hs, by rw [ticksMs, State.since]; omega⟩), programDone_clause,
    logProgramDone_clause, logErased_clause, moraineEntry_clause⟩

end Sys2Proof.Machine

/-! ## Images along the chain of neighbours, activation and the trial -/

namespace Sys2Proof.Machine

set_option Elab.async false

/-! ### Answers, entries of the log and programs -/

namespace NvmLogged

variable {x y : NvmSt}

theorem imgFrom_eq (h : NvmLogged x y) : y.imgFrom = x.imgFrom := (congrArg NvmSt.imgFrom h :)

theorem imgTotal_eq (h : NvmLogged x y) : y.imgTotal = x.imgTotal := (congrArg NvmSt.imgTotal h :)

theorem imgId_eq (h : NvmLogged x y) : y.imgId = x.imgId := (congrArg NvmSt.imgId h :)

theorem chainAct_eq (h : NvmLogged x y) : y.chainAct = x.chainAct := (congrArg NvmSt.chainAct h :)

theorem activating_eq (h : NvmLogged x y) : y.activating = x.activating := (congrArg NvmSt.activating h :)

theorem slot_eq (h : NvmLogged x y) (n : Nat) : y.slot n = x.slot n := (congrArg (fun z => if n = 0 then z.slot0 else z.slot1) h :)

end NvmLogged

/-- `t` is `s` with packets queued and frames sent, entries of the log put and programs of the NVM begun. -/
structure Relayed (s t : State) : Prop where
  nvm : NvmLogged s.nvm t.nvm
  tm : t.tm = s.tm
  pro : t.pro = s.pro
  regs : ∀ f : Fld, offQueues f → ¬ noteKey f.key → t.cget f = s.cget f

namespace Relayed

variable {s t u : State}

theorem refl (s : State) : Relayed s s := ⟨rfl, rfl, rfl, fun _ _ _ => rfl⟩

theorem trans (h1 : Relayed s t) (h2 : Relayed t u) : Relayed s u :=
  ⟨h1.nvm.trans h2.nvm, h2.tm.trans h1.tm, h2.pro.trans h1.pro, fun f hf hn => (h2.regs f hf hn).trans (h1.regs f hf hn)⟩

theorem of_notes (h : Notes s t) (hn : NvmLogged s.nvm t.nvm) : Relayed s t := by
  refine ⟨hn, ?_, h.pro_eq, fun f _ => h.regs f⟩
  rw [h.same]

theorem sendUpd (h : Relayed s t) (up : Bool) (typ reason count block image : Nat) (data : List Byte) :
    Relayed s (t.sendUpd up typ reason count block image data) := by
  unfold State.sendUpd
  split
  · exact h
  · exact h.trans ⟨rfl, rfl, rfl, fun _ _ _ => rfl⟩

/-- What the update in progress is, and where it came from. -/
theorem imgFrom_eq (h : Relayed s t) : t.nvm.imgFrom = s.nvm.imgFrom := h.nvm.imgFrom_eq

theorem imgId_eq (h : Relayed s t) : t.nvm.imgId = s.nvm.imgId := h.nvm.imgId_eq

theorem slot_eq (h : Relayed s t) (n : Nat) : t.nvm.slot n = s.nvm.slot n := h.nvm.slot_eq n

theorem side_eq (h : Relayed s t) (up : Bool) : t.side up = s.side up :=
  (congrArg (fun z => if up then z.up else z.dn) h.nvm :)

theorem con_eq (h : Relayed s t) {f : Fld} (hf : offQueues f) (hn : ¬ noteKey f.key) : t.con f = s.con f := by
  rw [State.con, h.regs f hf hn, State.con]

theorem onward_eq (h : Relayed s t) : t.onward = s.onward :=
  State.onward_congr h.imgFrom_eq (h.con_eq (by unfold offQueues; decide) (by unfold noteKey; decide))
    (h.regs _ (by unfold offQueues; decide) (by unfold noteKey; decide)) (h.regs _ (by unfold offQueues; decide) (by unfold noteKey; decide))

theorem frozen_eq (h : Relayed s t) (m : Nat) : t.frozen m = s.frozen m := by
  rw [State.frozen, State.frozen, h.pro, h.regs _ (by unfold offQueues; decide) (by unfold noteKey; decide)]

end Relayed

theorem State.logImage_notes (s : State) (item n : Nat) : Notes s (s.logImage item n) := State.logOwn_notes _ _ _ _ _ _

theorem State.logImage_relayed (s : State) (item n : Nat) : Relayed s (s.logImage item n) :=
  .of_notes (s.logImage_notes item n) (State.logAdd_nvm _ _)

theorem State.program_relayed (s : State) (a : NvmArea) : Relayed s (s.program a) := .of_notes (s.program_notes a) (s.program_nvm a)

theorem State.alarmAt_relayed (s : State) (a : Nat) : Relayed s (s.alarmAt a) := by
  refine .of_notes (s.alarmAt_notes a) ?_
  rw [(s.alarmAt_queued a).nvm_eq]
  rfl

theorem State.finishLong_relayed (s : State) (l : LongCmd) (st : Nat) (body : List Byte) : Relayed s (s.finishLong l st body) := by
  obtain ⟨-, hsame, hregs⟩ := (s.modSp fun x => { x with longs := x.longs.filter fun y => decide (y ≠ l) }).reply_any l.group l.service
    l.cmd l.tag st body
  have hnvm := congrArg State.nvm hsame
  have htm := congrArg State.tm hsame
  have hpro := congrArg State.pro hsame
  refine ⟨?_, htm, hpro, fun f hf _ => hregs f hf⟩
  change NvmLogged s.nvm (State.reply _ _ _ _ _ _ _).nvm
  rw [hnvm]
  rfl

theorem State.finishUpd_relayed (s : State) (cmds : List Nat) (st : Nat) (body : List Byte) : Relayed s (s.finishUpd cmds st body) :=
  List.foldlRecOn (motive := Relayed s) _ _ (.refl s) fun z hz l _ => hz.trans (z.finishLong_relayed l st body)

/-! ### Halts -/

section halt
variable (s : State) (reason hop : Nat)

/-- An update that has failed, with its reason. -/
def State.updFailed : State := (s.updState 6).cset UPD_STAT_REASON reason

theorem State.updFailed_shown {s : State} {reason : Nat} (hr : reason < 16) :
    (s.updFailed reason).cget UPD_STAT_STATE = 6 ∧ (s.updFailed reason).cget UPD_STAT_REASON = reason := by
  unfold State.updFailed
  refine ⟨?_, State.cget_cset_of_lt _ hr⟩
  rw [State.cget_cset_ne _ _ _ _ (by decide)]
  exact State.cget_cset_of_lt _ (by decide)

/-- Beside the state and the reason nothing of the update changes. -/
theorem State.updFailed_cget {s : State} {reason : Nat} {f : Fld} (h : f.key ≠ UPD_STAT_STATE.key) (h' : f.key ≠ UPD_STAT_REASON.key) :
    (s.updFailed reason).cget f = s.cget f :=
  (State.cget_cset_ne _ _ _ _ h').trans (State.cget_cset_ne _ _ _ _ h)

/-- An update that has failed, in the log. -/
def State.failLogged : State := (s.updFailed reason).logImage 0x26 s.spareSlot

variable {s}

theorem State.failLogged_relayed : Relayed (s.updFailed reason) (s.failLogged reason) := State.logImage_relayed _ _ _

theorem State.failLogged_svcTx : (s.failLogged reason).svcTx = s.svcTx := by
  have h := congrArg State.svcTx ((s.updFailed reason).logImage_notes 0x26 s.spareSlot).same
  exact h

/-- The halt of an image that came through the mailbox. -/
theorem State.haltChain_mail (hf : s.nvm.imgFrom = none) :
    s.haltChain reason hop = (s.failLogged reason).finishUpd [4, 5, 6] 8 [BitVec.ofNat 8 reason, BitVec.ofNat 8 hop] := by
  have h : (s.failLogged reason).nvm.imgFrom = none := (State.failLogged_relayed reason).imgFrom_eq.trans hf
  unfold State.failLogged State.updFailed at h ⊢
  simp only [State.haltChain, h]

/-- The halt of an image that came from a neighbour. -/
theorem State.haltChain_frame {u : Bool} (hf : s.nvm.imgFrom = some u) :
    s.haltChain reason hop = (s.failLogged reason).sendUpd u 7 reason hop 0 s.nvm.imgId := by
  have hr := State.failLogged_relayed (s := s) reason
  have h : (s.failLogged reason).nvm.imgFrom = some u := hr.imgFrom_eq.trans hf
  have hid : (s.failLogged reason).nvm.imgId = s.nvm.imgId := hr.imgId_eq
  unfold State.failLogged State.updFailed at h hid ⊢
  simp only [State.haltChain, h, hid]

theorem State.haltChain_relayed : Relayed (s.updFailed reason) (s.haltChain reason hop) := by
  have h := State.failLogged_relayed (s := s) reason
  cases hf : s.nvm.imgFrom with
  | none =>
    rw [State.haltChain_mail reason hop hf]
    exact h.trans (State.finishUpd_relayed _ _ _ _)
  | some u =>
    rw [State.haltChain_frame reason hop hf]
    exact h.sendUpd _ _ _ _ _ _ _

theorem State.haltHere_relayed : Relayed (s.updFailed reason) (s.haltHere reason) := by
  have hd : Relayed (s.updFailed reason) (s.draw.2.updFailed reason) := ⟨rfl, rfl, rfl, fun _ _ _ => rfl⟩
  cases hf : s.nvm.imgFrom with
  | none =>
    simp only [State.haltHere, hf]
    exact State.haltChain_relayed reason 0
  | some u =>
    simp only [State.haltHere, hf]
    exact hd.trans (State.haltChain_relayed reason _)

/-- What the halt shows. -/
theorem State.haltHere_shown (hr : reason < 16) :
    (s.haltHere reason).cget UPD_STAT_STATE = 6 ∧ (s.haltHere reason).cget UPD_STAT_REASON = reason := by
  have h := State.haltHere_relayed (s := s) reason
  rw [h.regs _ (by unfold offQueues; decide) (by unfold noteKey; decide), h.regs _ (by unfold offQueues; decide) (by unfold noteKey; decide)]
  exact State.updFailed_shown hr

end halt

/-! ### The sides of the chain -/

section sides
variable {s : State} {up : Bool}

theorem State.side_modSide (g : ChainSide → ChainSide) : (s.modSide up g).side up = g (s.side up) := by
  cases up <;> rfl

theorem State.onward_modSide (g : ChainSide → ChainSide) : (s.modSide up g).onward = s.onward := by
  cases up <;> rfl

theorem State.onward_cset {s : State} (f : Fld) (v : Nat)
    (h : GLB_STAT_RECOVERY.key ≠ f.key ∧ UPD_UP_MAC.key ≠ f.key ∧ UPD_DN_MAC.key ≠ f.key) : (s.cset f v).onward = s.onward :=
  State.onward_congr rfl (State.con_cset_ne _ _ _ _ h.1) (State.cget_cset_ne _ _ _ _ h.2.1) (State.cget_cset_ne _ _ _ _ h.2.2)

/-- Blocks sent change where the next one starts, and nothing else of a side or of the update. -/
theorem State.sendBlocks_facts (n : Nat) : ∀ s : State, ((s.sendBlocks up n).side up).active = (s.side up).active ∧
    ((s.sendBlocks up n).side up).acked = (s.side up).acked ∧ ((s.sendBlocks up n).side up).resends = (s.side up).resends ∧
    ((s.sendBlocks up n).side up).offerTick = (s.side up).offerTick ∧ (s.sendBlocks up n).creg = s.creg := by
  induction n with
  | zero => exact fun _ => ⟨rfl, rfl, rfl, rfl, rfl⟩
  | succ n ih =>
    intro s
    unfold State.sendBlocks
    dsimp only
    split
    · exact ⟨rfl, rfl, rfl, rfl, rfl⟩
    · obtain ⟨h1, h2, h3, h4, h5⟩ := ih ((s.sendUpd up 2 0 0 (s.side up).next s.nvm.imgId
        (((s.nvm.slot s.spareSlot).bytes.drop (1024 * (s.side up).next)).take 1024)).modSide up fun y => { y with next := y.next + 1 })
      have hs : ∀ d, (s.sendUpd up 2 0 0 (s.side up).next s.nvm.imgId d).side up = s.side up := fun d =>
        ((Relayed.refl s).sendUpd up 2 0 0 (s.side up).next s.nvm.imgId d).side_eq up
      have hc : ∀ d g, ((s.sendUpd up 2 0 0 (s.side up).next s.nvm.imgId d).modSide up g).creg = s.creg := fun d g => by
        unfold State.sendUpd
        split <;> rfl
      rw [h1, h2, h3, h4, h5, State.side_modSide, hs, hc]
      exact ⟨rfl, rfl, rfl, rfl, rfl⟩

/-- The nodes of the chain that hold the image, this one included. -/
def State.chainNodes (s : State) : Nat := 1 + (s.onward.map fun u => (s.side u).count).sum

/-- The update forwarded, its nodes shown. -/
def State.updForwarded (s : State) : State := (s.updState 0).cset UPD_STAT_NODES s.chainNodes

theorem State.updForwarded_shown : s.updForwarded.cget UPD_STAT_STATE = 0 ∧ s.updForwarded.cget UPD_STAT_NODES = s.chainNodes % 256 := by
  unfold State.updForwarded
  refine ⟨?_, State.cget_cset_same _ _ _⟩
  rw [State.cget_cset_ne _ _ _ _ (by decide)]
  exact State.cget_cset_of_lt _ (by decide)

/-- Forwarding ends when every neighbour onward is done or absent. -/
theorem State.forwardDone_relayed (h3 : s.cget UPD_STAT_STATE = 3)
    (hd : (s.onward.any fun u => !((s.side u).done || (s.side u).absent)) = false) : Relayed s.updForwarded s.forwardDone := by
  have h := State.logImage_relayed s.updForwarded 0x22 s.spareSlot
  have he : s.forwardDone = match (s.updForwarded.logImage 0x22 s.spareSlot).nvm.imgFrom with
      | none => (s.updForwarded.logImage 0x22 s.spareSlot).finishUpd [4] 0 [BitVec.ofNat 8 s.chainNodes]
      | some u => (s.updForwarded.logImage 0x22 s.spareSlot).sendUpd u 4 0 s.chainNodes 0
        (s.updForwarded.logImage 0x22 s.spareSlot).nvm.imgId := by
    refine (if_neg ?_).trans rfl
    rw [h3, hd]
    decide
  rw [he]
  cases (s.updForwarded.logImage 0x22 s.spareSlot).nvm.imgFrom with
  | none => exact h.trans (State.finishUpd_relayed _ _ _ _)
  | some u => exact h.sendUpd _ _ _ _ _ _ _

/-- The update confirmed by every node that takes part. -/
def State.updConfirmed (s : State) : State :=
  ((s.cset UPD_STAT_NODES (1 + (s.actSides.map fun u => (s.side u).count).sum)).updState 0).modNvm fun v => { v with activating := false }

theorem State.updConfirmed_shown : s.updConfirmed.cget UPD_STAT_STATE = 0 ∧
    s.updConfirmed.cget UPD_STAT_NODES = (1 + (s.actSides.map fun u => (s.side u).count).sum) % 256 :=
  ⟨State.cget_cset_of_lt (s.cset UPD_STAT_NODES _) (f := UPD_STAT_STATE) (v := 0) (by decide),
    (State.cget_cset_ne (s.cset UPD_STAT_NODES _) UPD_STAT_STATE UPD_STAT_NODES 0 (by decide)).trans (State.cget_cset_same _ _ _)⟩

/-- Beside the state and the nodes nothing of the update changes. -/
theorem State.updConfirmed_cget {f : Fld} (h : f.key ≠ UPD_STAT_STATE.key) (h' : f.key ≠ UPD_STAT_NODES.key) :
    s.updConfirmed.cget f = s.cget f :=
  (State.cget_cset_ne (s.cset UPD_STAT_NODES _) UPD_STAT_STATE f 0 h).trans (State.cget_cset_ne _ _ _ _ h')

theorem State.confirmDone_relayed (hd : (s.actSides.any fun u => (s.side u).active) = false) : Relayed s.updConfirmed s.confirmDone := by
  have he : s.confirmDone = match s.updConfirmed.nvm.imgFrom with
      | none => s.updConfirmed.finishUpd [5, 6] 0 [BitVec.ofNat 8 (1 + (s.actSides.map fun u => (s.side u).count).sum)]
      | some u => s.updConfirmed.sendUpd u 6 0 (1 + (s.actSides.map fun u => (s.side u).count).sum) 0 s.updConfirmed.nvm.imgId := by
    refine (if_neg ?_).trans rfl
    rw [hd]
    decide
  rw [he]
  cases s.updConfirmed.nvm.imgFrom with
  | none => exact State.finishUpd_relayed _ _ _ _
  | some u => exact (Relayed.refl _).sendUpd _ _ _ _ _ _ _

end sides

/-! ### Frames of the update -/

theorem frozenFrames_clause (s : State) (f : UpdFrame) (h : List Byte) (hf : s.frozen 18 = true) :
    exec (.offer f h) s = .next s ∧ exec (.ack f) s = .next s ∧ exec (.done f) s = .next s ∧ exec (.halt f) s = .next s ∧
    exec (.updFrameActivate f) s = .next s ∧ exec (.confirmed f) s = .next s :=
  ⟨congrArg Host.Outcome.next (if_pos (.inl hf)), congrArg Host.Outcome.next (if_pos (.inl hf)),
    congrArg Host.Outcome.next (if_pos (.inl hf)), congrArg Host.Outcome.next (if_pos (.inl hf)),
    congrArg Host.Outcome.next (if_pos (.inl hf)), congrArg Host.Outcome.next (if_pos (.inl hf))⟩

theorem updSound_iff {f : UpdFrame} {data : List Byte} :
    updSound f data = true ↔ data.length = f.len.toNat ∧ data.length ≤ 1024 ∧ f.crc.toNat = crc32c data := by
  simp only [updSound, Bool.and_eq_true, decide_eq_true_eq, and_assoc]

/-- A frame is sent while the update port is not frozen. -/
theorem State.sendUpd_of_open {s : State} (hf : s.frozen 18 = false) (up : Bool) (typ reason count block image : Nat) (data : List Byte) :
    s.sendUpd up typ reason count block image data =
      { s with svcTx := .update up (updFrame typ reason count block image data) :: s.svcTx } := if_neg (by rw [hf]; decide)

theorem imgHdr_len (h : List Byte) : (imgHdr h).len.toNat = bodyNat h 8 4 := by
  have hl : ((h.drop 8).take 4).length ≤ 4 := List.length_take_le _ _
  rw [imgHdr, BitVec.toNat_ofNat]
  exact Nat.mod_eq_of_lt (Nat.lt_of_lt_of_le (ofBytes_lt _) (Nat.pow_le_pow_right (by decide) hl : _ ≤ 256 ^ 4))

/-- The start of an image leaves who is frozen. -/
theorem State.imgBegin_frozen (s : State) (t : Nat) (u : Option Bool) (id m : Nat) : (s.imgBegin t u id).frozen m = s.frozen m := by
  have hslot : FWL_STAT_FROZEN.key ≠ (slotState s.spareSlot).key := by
    unfold slotState
    split <;> decide
  have hver : FWL_STAT_FROZEN.key ≠ (NVM_VER_VER s.spareSlot).key := by
    simp only [Fld.key, FWL_STAT_FROZEN, NVM_VER_VER]
    omega
  have hc : (s.imgBegin t u id).cget FWL_STAT_FROZEN = s.cget FWL_STAT_FROZEN := by
    unfold State.imgBegin State.updState State.emptySlot State.showVer
    rw [State.cget_cset_ne _ _ _ _ (by decide), State.cget_cset_ne _ _ _ _ (by decide)]
    exact (State.cget_cset_ne _ _ _ _ hver).trans (State.cget_cset_ne _ _ _ _ hslot)
  rw [State.frozen, hc]
  rfl

theorem offer_clause (s : State) (f : UpdFrame) (h : List Byte) (hf : s.frozen 18 = false) (hn : s.neighbour f.up = true) :
    let id := f.image.toNat
    let len := bodyNat h 8 4
    (h.length ≠ f.len.toNat ∨ 1024 < h.length ∨ f.crc.toNat ≠ crc32c h → exec (.offer f h) s = .next s) ∧
    (h.length = f.len.toNat → h.length ≤ 1024 → f.crc.toNat = crc32c h →
      (s.updBusy = true → ∃ u, exec (.offer f h) s = .next u ∧ u = { s with svcTx := .update f.up (updFrame 3 1 0 0 id []) :: s.svcTx }) ∧
      (s.updBusy = false → 67104768 < len → ∃ u, exec (.offer f h) s = .next u ∧
        u = { s with svcTx := .update f.up (updFrame 7 2 0 0 id []) :: s.svcTx }) ∧
      (s.updBusy = false → len ≤ 67104768 → ∃ u, exec (.offer f h) s = .next u ∧ u.nvm.imgTotal = some (4096 + len) ∧
        u.nvm.imgFrom = some f.up ∧ u.nvm.imgId = id ∧ u.cget (slotState s.spareSlot) = 0 ∧ u.cget UPD_STAT_STATE = 1 ∧
        u.svcTx = .update f.up (updFrame 3 0 0 0 id []) :: s.svcTx)) := by
  intro id len
  refine ⟨fun hbad => ?_, fun h1 h2 h3 => ?_⟩
  · have hs : updSound f h = false := by
      cases hs : updSound f h with
      | false => rfl
      | true =>
        obtain ⟨e1, e2, e3⟩ := updSound_iff.1 hs
        rcases hbad with hb | hb | hb
        · exact absurd e1 hb
        · omega
        · exact absurd e3 hb
    exact congrArg Host.Outcome.next (if_pos (.inr (.inr (by rw [hs]; rfl))))
  · have hs := updSound_iff.2 ⟨h1, h2, h3⟩
    have hno : ¬ (s.frozen 18 = true ∨ (!(s.neighbour f.up)) = true ∨ (!(updSound f h)) = true) := by simp [hf, hn, hs]
    have he : exec (.offer f h) s = .next (if s.updBusy then s.sendUpd f.up 3 1 0 0 id else if 67104768 < (imgHdr h).len.toNat then
        s.sendUpd f.up 7 2 0 0 id else (s.imgBegin (4096 + (imgHdr h).len.toNat) (some f.up) id).sendUpd f.up 3 0 0 0 id) :=
      congrArg Host.Outcome.next (if_neg hno)
    rw [imgHdr_len] at he
    refine ⟨fun hb => ?_, fun hb hl => ?_, fun hb hl => ?_⟩
    · rw [if_pos hb, State.sendUpd_of_open hf] at he
      exact ⟨_, he, rfl⟩
    · rw [if_neg (by rw [hb]; decide), if_pos hl, State.sendUpd_of_open hf] at he
      exact ⟨_, he, rfl⟩
    · obtain ⟨hslot, hstate, -, htot, -⟩ := s.imgBegin_facts (4096 + len) (some f.up) id
      have hfb : (s.imgBegin (4096 + len) (some f.up) id).frozen 18 = false := (State.imgBegin_frozen ..).trans hf
      have hfrom : (s.imgBegin (4096 + len) (some f.up) id).nvm.imgFrom = some f.up := rfl
      have hid : (s.imgBegin (4096 + len) (some f.up) id).nvm.imgId = id := rfl
      have htx : (s.imgBegin (4096 + len) (some f.up) id).svcTx = s.svcTx := rfl
      rw [if_neg (by rw [hb]; decide), if_neg (Nat.not_lt.2 hl), State.sendUpd_of_open hfb] at he
      exact ⟨_, he, htot, hfrom, hid, hslot, hstate, congrArg (List.cons _) htx⟩

/-- Data put to the image leave the update in progress, its state, who is frozen and the frames sent. -/
theorem State.imgPut_kept (s : State) (data : List Byte) : let z := s.imgPut data
    (z.nvm.imgTotal = s.nvm.imgTotal ∧ (∀ m, z.frozen m = s.frozen m) ∧
      z.cget UPD_STAT_STATE = s.cget UPD_STAT_STATE) ∧ z.svcTx = s.svcTx ∧
      (z.nvm.slot s.spareSlot).bytes = (s.nvm.slot s.spareSlot).bytes ++ data := by
  let y := (s.setSlot s.spareSlot { s.nvm.slot s.spareSlot with bytes := (s.nvm.slot s.spareSlot).bytes ++ data }).cset UPD_PROG_BYTES
    ((s.nvm.slot s.spareSlot).bytes.length + data.length)
  have hslot : (y.nvm.slot s.spareSlot).bytes = (s.nvm.slot s.spareSlot).bytes ++ data := congrArg SlotImg.bytes (s.slot_setSlot _ _)
  have hy : y.nvm.imgTotal = s.nvm.imgTotal ∧ (∀ m, y.frozen m = s.frozen m) ∧ y.cget UPD_STAT_STATE = s.cget UPD_STAT_STATE := by
    have hc : ∀ f : Fld, f.key ≠ UPD_PROG_BYTES.key → y.cget f = s.cget f := fun f hf => State.cget_cset_ne _ _ _ _ hf
    refine ⟨?_, fun m => ?_, hc _ (by decide)⟩
    · change (if s.spareSlot = 0 then _ else _ : NvmSt).imgTotal = _
      split <;> rfl
    · rw [State.frozen, hc _ (by decide)]
      rfl
  have hp := y.program_relayed (.slot s.spareSlot)
  have htx := congrArg State.svcTx (y.program_notes (.slot s.spareSlot)).same
  intro z
  have hz : z = if y.nvm.journal.contains (.slot s.spareSlot) then y else y.program (.slot s.spareSlot) := rfl
  rw [hz]
  obtain ⟨h1, h2, h3⟩ := hy
  split
  · exact ⟨⟨h1, h2, h3⟩, rfl, hslot⟩
  · exact ⟨⟨hp.nvm.imgTotal_eq.trans h1, fun m => (hp.frozen_eq m).trans (h2 m),
      (hp.regs _ (by unfold offQueues; decide) (by unfold noteKey; decide)).trans h3⟩, htx, (congrArg SlotImg.bytes (hp.slot_eq _)).trans hslot⟩

/-- The end of an image, whatever its source. -/
theorem State.imgComplete_kept (s : State) : let z := s.imgComplete
    z.cget UPD_STAT_STATE = 2 ∧ z.nvm.imgTotal = none ∧ z.svcTx = s.svcTx ∧ ∀ n, z.nvm.slot n = s.nvm.slot n := by
  let y : State := (s.modNvm fun v => { v with
    imgTotal := none, imgId := if s.nvm.imgFrom.isNone then imgIdent (s.nvm.slot s.spareSlot).bytes else s.nvm.imgId }).updState 2
  have hy : y.cget UPD_STAT_STATE = 2 := State.cget_cset_of_lt _ (by decide)
  have hr := y.logImage_relayed 0x20 s.spareSlot
  have htx := congrArg State.svcTx (y.logImage_notes 0x20 s.spareSlot).same
  intro z
  rw [show z = y.logImage 0x20 s.spareSlot from rfl]
  exact ⟨(hr.regs _ (by unfold offQueues; decide) (by unfold noteKey; decide)).trans hy, hr.nvm.imgTotal_eq, htx, hr.slot_eq⟩

/-- What data of a frame leave beside the image itself. -/
theorem updData_clause (s : State) (f : UpdFrame) (data : List Byte) (t : Nat) (ht : s.nvm.imgTotal = some t)
    (hfrom : s.nvm.imgFrom = some f.up) (hf : s.frozen 18 = false) :
    let got := (s.nvm.slot s.spareSlot).bytes
    let now := got.length + data.length
    (data.length ≠ f.len.toNat ∨ f.crc.toNat ≠ crc32c data ∨ f.image.toNat ≠ s.nvm.imgId → exec (.updData f data) s = .next s) ∧
    (data.length = f.len.toNat → data.length ≤ 1024 → f.crc.toNat = crc32c data → f.image.toNat = s.nvm.imgId →
      f.block.toNat * 1024 = got.length → now ≤ t → ∃ u, exec (.updData f data) s = .next u ∧
      (u.nvm.slot s.spareSlot).bytes = got ++ data ∧
      u.svcTx = .update f.up (updFrame 3 0 0 ((now + 1023) / 1024) s.nvm.imgId []) :: s.svcTx ∧
      (now = t → u.cget UPD_STAT_STATE = 2 ∧ u.nvm.imgTotal = none) ∧
      (now < t → u.cget UPD_STAT_STATE = s.cget UPD_STAT_STATE ∧ u.nvm.imgTotal = some t)) := by
  intro got now
  have hof : s.ofImage f = decide (f.image.toNat = s.nvm.imgId) := rfl
  have he : exec (.updData f data) s = .next (if s.frozen 18 = true ∨ s.nvm.imgFrom ≠ some f.up ∨ (!(updSound f data)) = true ∨
      (!(s.ofImage f)) = true then s else if f.block.toNat * 1024 ≠ got.length then
        s.sendUpd f.up 3 0 0 ((got.length + 1023) / 1024) s.nvm.imgId else
        let s1 := s.imgPut (data.take (t - got.length))
        let now := got.length + (data.take (t - got.length)).length
        let s2 := s1.sendUpd f.up 3 0 0 ((now + 1023) / 1024) s.nvm.imgId
        if t ≤ now then s2.imgComplete else s2) := by
    show execUpdData f data s = _
    unfold execUpdData
    simp only [ht]
    rfl
  refine ⟨fun hbad => ?_, fun h1 h2 h3 h4 hb hfit => ?_⟩
  · have hcond : s.frozen 18 = true ∨ s.nvm.imgFrom ≠ some f.up ∨ (!(updSound f data)) = true ∨ (!(s.ofImage f)) = true := by
      rcases hbad with hb | hb | hb
      · exact .inr (.inr (.inl (by simp [updSound, hb])))
      · exact .inr (.inr (.inl (by simp [updSound, hb])))
      · exact .inr (.inr (.inr (by simp [hof, hb])))
    rwa [if_pos hcond] at he
  · have hcond : ¬ (s.frozen 18 = true ∨ s.nvm.imgFrom ≠ some f.up ∨ (!(updSound f data)) = true ∨ (!(s.ofImage f)) = true) := by
      simp [hf, hfrom, updSound_iff.2 ⟨h1, h2, h3⟩, hof, h4]
    have hdata : data.take (t - got.length) = data := List.take_of_length_le (by omega)
    obtain ⟨⟨htot, hfz, hstate⟩, htx, hslot⟩ := s.imgPut_kept data
    rw [if_neg hcond, if_neg (not_not.2 hb)] at he
    dsimp only at he
    rw [hdata, State.sendUpd_of_open ((hfz 18).trans hf)] at he
    refine ⟨_, he, ?_⟩
    by_cases hend : now = t
    · obtain ⟨hc2, hctot, hctx, hcslot⟩ := State.imgComplete_kept
        { s.imgPut data with svcTx := .update f.up (updFrame 3 0 0 ((now + 1023) / 1024) s.nvm.imgId []) :: (s.imgPut data).svcTx }
      rw [if_pos (Nat.le_of_eq hend.symm), hcslot, hctx]
      exact ⟨hslot, congrArg (List.cons _) htx, fun _ => ⟨hc2, hctot⟩, fun h => absurd hend (Nat.ne_of_lt h)⟩
    · have hlt : now < t := Nat.lt_of_le_of_ne hfit hend
      rw [if_neg (Nat.not_le.2 hlt)]
      exact ⟨hslot, congrArg (List.cons _) htx, fun h => absurd h hend, fun _ => ⟨hstate, htot.trans ht⟩⟩

section ack
variable {s : State} {f : UpdFrame} (hf : s.frozen 18 = false) (h3 : s.cget UPD_STAT_STATE = 3) (ho : (s.side f.up).offered = true)
  (ha : (s.side f.up).absent = false) (hid : f.image.toNat = s.nvm.imgId)
include hf h3 ho ha hid

theorem ack_clause (hd : (s.side f.up).done = false) :
    (f.reason = 0 → ∃ u, exec (.ack f) s = .next u ∧ (u.side f.up).active = true ∧
      (u.side f.up).acked = max (s.side f.up).acked f.block.toNat ∧ u.cget UPD_STAT_STATE = 3) ∧
    (f.reason ≠ 0 → ∃ u, exec (.ack f) s = .next u ∧ u.cget UPD_STAT_STATE = 6 ∧ u.cget UPD_STAT_REASON = f.reason.toNat) := by
  have hof : s.ofImage f = true := decide_eq_true hid
  have hno : ¬ (s.frozen 18 = true ∨ (!(s.side f.up).offered) = true ∨ (s.side f.up).absent = true ∨ (s.side f.up).done = true ∨
      s.cget UPD_STAT_STATE ≠ 3 ∨ (!(s.ofImage f)) = true) := by simp [hf, ho, ha, hd, h3, hof]
  refine ⟨fun hr => ?_, fun hr => ?_⟩
  · have he := (congrArg Host.Outcome.next ((if_neg hno).trans (if_neg (not_not.2 hr))) : exec (.ack f) s = _)
    refine ⟨_, he, ?_⟩
    obtain ⟨h1, h2, -, -, h5⟩ := State.sendBlocks_facts (up := f.up) 64 (s.modSide f.up fun y => { y with
      active := true, acked := max y.acked f.block.toNat, next := max y.next f.block.toNat
      resends := if decide ((s.side f.up).acked < f.block.toNat) || !(s.side f.up).active then 0 else y.resends
      offerTick := if decide ((s.side f.up).acked < f.block.toNat) || !(s.side f.up).active then s.tm.tick else y.offerTick })
    refine ⟨h1.trans ?_, h2.trans ?_, (State.cget_of_creg h5 _).trans h3⟩
    · rw [State.side_modSide]
    · rw [State.side_modSide]
  · have he : exec (.ack f) s = .next (s.haltHere f.reason.toNat) := congrArg Host.Outcome.next ((if_neg hno).trans (if_pos hr))
    obtain ⟨h6, hreason⟩ := State.haltHere_shown (s := s) f.reason.toNat f.reason.isLt
    exact ⟨_, he, h6, hreason⟩

theorem done_clause (hon : s.onward = [f.up]) : ∃ u, exec (.done f) s = .next u ∧ (u.side f.up).done = true ∧
    u.cget UPD_STAT_STATE = 0 ∧ u.cget UPD_STAT_NODES = (1 + f.count.toNat) % 256 := by
  have hof : s.ofImage f = true := decide_eq_true hid
  have hno : ¬ (s.frozen 18 = true ∨ (!(s.side f.up).offered) = true ∨ (s.side f.up).absent = true ∨
      s.cget UPD_STAT_STATE ≠ 3 ∨ (!(s.ofImage f)) = true) := by simp [hf, ho, ha, h3, hof]
  let z := (s.modSide f.up fun y => { y with done := true, count := f.count.toNat }).cset UPD_STAT_NODES f.count.toNat
  have he : exec (.done f) s = .next z.forwardDone := congrArg Host.Outcome.next (if_neg hno)
  have hside : z.side f.up = { s.side f.up with done := true, count := f.count.toNat } :=
    State.side_modSide (s := s) (up := f.up) fun y => { y with done := true, count := f.count.toNat }
  have honz : z.onward = [f.up] := (State.onward_cset _ _ (by decide)).trans ((State.onward_modSide _).trans hon)
  have hz3 : z.cget UPD_STAT_STATE = 3 := (State.cget_cset_ne _ _ _ _ (by decide)).trans h3
  have hr := State.forwardDone_relayed hz3 (by rw [honz, List.any_cons, hside]; rfl)
  obtain ⟨h0, hn⟩ := State.updForwarded_shown (s := z)
  have hcount : z.chainNodes = 1 + f.count.toNat := by
    rw [State.chainNodes, honz, List.map_cons, hside]
    rfl
  rw [hcount] at hn
  refine ⟨_, he, ?_, (hr.regs _ (by unfold offQueues; decide) (by unfold noteKey; decide)).trans h0,
    (hr.regs _ (by unfold offQueues; decide) (by unfold noteKey; decide)).trans hn⟩
  rw [hr.side_eq]
  exact congrArg ChainSide.done hside

end ack

theorem halt_clause (s : State) (f : UpdFrame) (hf : s.frozen 18 = false) (hn : s.neighbour f.up = true) (hfrom : s.nvm.imgFrom ≠ some f.up)
    (hid : f.image.toNat = s.nvm.imgId) : ∃ u, exec (.halt f) s = .next u ∧ u.cget UPD_STAT_STATE = 6 ∧
      u.cget UPD_STAT_REASON = f.reason.toNat ∧ (s.nvm.imgFrom = some (!f.up) →
        u.svcTx = .update (!f.up) (updFrame 7 f.reason.toNat f.count.toNat 0 s.nvm.imgId []) :: s.svcTx) := by
  have hof : s.ofImage f = true := decide_eq_true hid
  have hno : ¬ (s.frozen 18 = true ∨ (!(s.neighbour f.up)) = true ∨ s.nvm.imgFrom = some f.up ∨ (!(s.ofImage f)) = true) := by
    simp [hf, hn, hfrom, hof]
  have he : exec (.halt f) s = .next (s.haltChain f.reason.toNat f.count.toNat) := congrArg Host.Outcome.next (if_neg hno)
  have hr := State.haltChain_relayed (s := s) f.reason.toNat f.count.toNat
  obtain ⟨h6, hreason⟩ := State.updFailed_shown (s := s) f.reason.isLt
  refine ⟨_, he, (hr.regs _ (by unfold offQueues; decide) (by unfold noteKey; decide)).trans h6,
    (hr.regs _ (by unfold offQueues; decide) (by unfold noteKey; decide)).trans hreason, fun hfrom' => ?_⟩
  have hopen : (s.failLogged f.reason.toNat).frozen 18 = false := by
    rw [(State.failLogged_relayed (s := s) f.reason.toNat).frozen_eq, State.frozen,
      State.updFailed_cget (f := FWL_STAT_FROZEN) (by decide) (by decide)]
    exact hf
  rw [State.haltChain_frame _ _ hfrom', State.sendUpd_of_open hopen]
  exact congrArg (List.cons _) (State.failLogged_svcTx _)

section waits
variable {s : State} {up : Bool} (hon : s.onward = [up]) (h3 : s.cget UPD_STAT_STATE = 3)
include hon h3

theorem neighbourAbsent_clause (ho : (s.side up).offered = true) (ha : (s.side up).active = false) (hb : (s.side up).absent = false)
    (hc : (s.side up).count = 0) : (s.tm.tick < (s.side up).offerTick + 25000 → exec (.neighbourAbsent up) s = .next s) ∧
      ((s.side up).offerTick + 25000 ≤ s.tm.tick → ∃ u, exec (.neighbourAbsent up) s = .next u ∧ (u.side up).absent = true ∧
        u.cget UPD_STAT_STATE = 0 ∧ u.cget UPD_STAT_NODES = 1) := by
  have hiff : ((s.side up).offered && !(s.side up).active && !(s.side up).absent &&
      decide (ticksMs 100 ≤ s.since (s.side up).offerTick)) = true ↔ (s.side up).offerTick + 25000 ≤ s.tm.tick := by
    rw [ho, ha, hb, Bool.and_eq_true, decide_eq_true_eq, and_iff_right (by decide), ticksMs, State.since]
    omega
  refine ⟨fun ht => congrArg Host.Outcome.next (if_neg fun h => Nat.not_le.2 ht (hiff.1 h)), fun ht => ?_⟩
  let z := s.modSide up fun y => { y with absent := true }
  have he : exec (.neighbourAbsent up) s = .next z.forwardDone := congrArg Host.Outcome.next (if_pos (hiff.2 ht))
  have hside : z.side up = { s.side up with absent := true } := State.side_modSide (s := s) (up := up) fun y => { y with absent := true }
  have honz : z.onward = [up] := (State.onward_modSide _).trans hon
  have hr := State.forwardDone_relayed (s := z) h3 (by rw [honz, List.any_cons, hside, Bool.or_true]; rfl)
  obtain ⟨h0, hn⟩ := State.updForwarded_shown (s := z)
  have hcount : z.chainNodes = 1 := by
    rw [State.chainNodes, honz, List.map_cons, hside]
    exact congrArg (fun n => 1 + (n + 0)) hc
  rw [hcount] at hn
  refine ⟨_, he, ?_, (hr.regs _ (by unfold offQueues; decide) (by unfold noteKey; decide)).trans h0,
    (hr.regs _ (by unfold offQueues; decide) (by unfold noteKey; decide)).trans hn⟩
  rw [hr.side_eq]
  exact congrArg ChainSide.absent hside

omit hon in
theorem resendTimeout_clause (ha : (s.side up).active = true) (hd : (s.side up).done = false) (ht : (s.side up).offerTick + 5000 ≤ s.tm.tick) :
    ((s.side up).resends < 16 → ∃ u, exec (.resendTimeout up) s = .next u ∧ (u.side up).resends = (s.side up).resends + 1 ∧
        (u.side up).offerTick = s.tm.tick ∧ (u.side up).acked = (s.side up).acked) ∧
      (16 ≤ (s.side up).resends → ∃ u, exec (.resendTimeout up) s = .next u ∧ u.cget UPD_STAT_STATE = 6 ∧ u.cget UPD_STAT_REASON = 6) := by
  have hno : ¬ (s.cget UPD_STAT_STATE ≠ 3 ∨ (!(s.side up).active) = true ∨ (s.side up).done = true ∨
      s.since (s.side up).offerTick < ticksMs 20) := by
    simp only [h3, ha, hd, ticksMs, State.since, Bool.not_true, Bool.false_eq_true, ne_eq, not_true_eq_false, false_or]
    omega
  refine ⟨fun hr => ?_, fun hr => ?_⟩
  · have he := (congrArg Host.Outcome.next ((if_neg hno).trans (if_neg (Nat.not_le.2 hr))) : exec (.resendTimeout up) s = _)
    obtain ⟨-, h2, h4, h5, -⟩ := State.sendBlocks_facts (up := up) 64 (s.modSide up fun y => { y with
      next := y.acked, resends := y.resends + 1, offerTick := s.tm.tick })
    rw [State.side_modSide] at h2 h4 h5
    exact ⟨_, he, h4, h5, h2⟩
  · have he : exec (.resendTimeout up) s = .next (s.haltHere 6) := congrArg Host.Outcome.next ((if_neg hno).trans (if_pos hr))
    exact ⟨_, he, State.haltHere_shown (s := s) 6 (by decide)⟩

end waits

/-! ### Restarts of the service processor -/

/-- A mover channel stopped because the service processor restarts. -/
def State.mvResetOne (other : Nat) (z : State) (c : Nat) : State :=
  if (z.mvState c = 5 ∨ z.mvState c = 7) ∧ (!false) = true then z
  else ((z.setMv c 6).cset (MV_CH_STAT_STATUS c) other).modMch c fun x => { x with powerWait := false }

theorem State.mvResetOne_mover {s z : State} (other : Nat) {c : Nat} (hc : c < 16) (h : MoverOnly s z) :
    MoverOnly s (State.mvResetOne other z c) := by
  unfold State.mvResetOne
  split
  · exact h
  · exact ((h.trans (z.setMv_mover hc 6)).cset _ _ (not_offMover_status hc)).modMch _ _

/-- The mover's channels stopped, before the stop is shown. -/
def State.mvResets (s : State) (other : Nat) : State :=
  ((((List.range 16).foldl (State.mvResetOne other) s).cset MV_ERR_STATUS other).cset MV_ERR_ALL 1)

theorem State.mvResets_mover (s : State) (other : Nat) : MoverOnly s (s.mvResets other) :=
  (((MoverOnly.refl s).foldl _ _ fun _ _ ha hz => State.mvResetOne_mover other (List.mem_range.1 ha) hz).cset _ _
    (by unfold offMover; decide)).cset _ _ (by unfold offMover; decide)

theorem State.mvStopAll_none (s : State) (other : Nat) : s.mvStopAll none other = (s.mvResets other).raise MV_STAT_STOP := rfl

/-- A restart of the service processor leaves the NVM and what its registers and those of the update show. -/
theorem State.serviceReset_facts (s : State) : s.serviceReset.nvm = s.nvm ∧
    ∀ f : Fld, 0xB00000 ≤ f.reg → f.lo < 64 → ¬ noteKey f.key → s.serviceReset.cget f = s.cget f := by
  have hm := s.mvResets_mover 15
  have hmn := congrArg State.nvm hm.same
  have hnvm : (s.mvStopAll none 15).nvm = s.nvm := by rw [State.mvStopAll_none, State.raise_nvm, hmn]
  have hregs : ∀ f : Fld, 0xB00000 ≤ f.reg → f.lo < 64 → ¬ noteKey f.key → (s.mvStopAll none 15).cget f = s.cget f :=
    fun f hf hlo hn => by
      rw [State.mvStopAll_none, State.raise_regs _ _ _ hn (by simp only [Fld.key, MV_STAT_STOP]; omega), hm.regs _ (offMover_of_reg (by omega))]
  unfold State.serviceReset
  generalize s.mvStopAll none 15 = z at hnvm hregs
  refine ⟨hnvm, fun f hf hlo hn => ?_⟩
  · have hk : ∀ g : Fld, g.reg < 0xB00000 → g.lo < 64 → f.key ≠ g.key := fun g hg hg' => by
      simp only [Fld.key]
      omega
    exact (State.cget_cset_ne _ _ _ _ (hk _ (by decide) (by decide))).trans ((State.cget_cset_ne _ _ _ _ (hk _ (by decide) (by decide))).trans
      ((State.cget_cset_ne _ _ _ _ (hk _ (by decide) (by decide))).trans (hregs f hf hlo hn)))

/-! ### Activation -/

section activate
variable (s : State) (n : Nat) (chain : Bool)

/-- Slot `n` chosen and its trial begun. -/
def State.trialBegun : State :=
  (((((s.cset (slotState n) 2).cset NVM_SLOT_ACTIVE n).modNvm fun v => { v with
    fallback := s.cget NVM_SLOT_ACTIVE, trialTick := s.tm.tick, trialPorts := s.portsInRun, trialQual := s.qual, chainAct := chain
    activating := true, trialGroups := (List.range 4).filter fun g => s.groupRun g }).cset NVM_SLOT_TRIAL 1).cset NVM_SLOT_TRIAL_LEFT 600).updState 5

theorem State.activate_eq (item : Nat) :
    s.activate n chain item = (((s.trialBegun n chain).program .slotSelect).logImage item n).serviceReset := rfl

theorem slotState_cases (n : Nat) : slotState n = NVM_SLOT_S0 ∨ slotState n = NVM_SLOT_S1 := by
  unfold slotState
  split
  · exact .inl rfl
  · exact .inr rfl

/-- The registers of a trial, and what the update shows. -/
def trialFields : List Fld := [NVM_SLOT_S0, NVM_SLOT_S1, NVM_SLOT_ACTIVE, NVM_SLOT_TRIAL, NVM_SLOT_TRIAL_LEFT, UPD_STAT_STATE, UPD_STAT_REASON,
  UPD_STAT_NODES]

theorem trialFields_kept {f : Fld} (hf : f ∈ trialFields) : 0xB00000 ≤ f.reg ∧ f.lo < 64 ∧ offQueues f ∧ ¬ noteKey f.key := by
  have h : ∀ f ∈ trialFields, 0xB00000 ≤ f.reg ∧ f.lo < 64 ∧ offQueues f ∧ ¬ noteKey f.key := by
    unfold offQueues noteKey
    decide
  exact h f hf

theorem slotState_mem (n : Nat) : slotState n ∈ trialFields := by
  rcases slotState_cases n with h | h <;> rw [h] <;> decide

/-- What answers and entries of the log leave of a trial. -/
theorem Relayed.trial {s t : State} (h : Relayed s t) {f : Fld} (hf : f ∈ trialFields) : t.cget f = s.cget f :=
  h.regs f (trialFields_kept hf).2.2.1 (trialFields_kept hf).2.2.2

/-- What a restart of the service processor leaves of a trial. -/
theorem State.serviceReset_trial {f : Fld} (hf : f ∈ trialFields) : s.serviceReset.cget f = s.cget f := by
  obtain ⟨h1, h2, -, h3⟩ := trialFields_kept hf
  exact s.serviceReset_facts.2 f h1 h2 h3

variable {n}

theorem State.trialBegun_shown (hn : n ≤ 1) : let u := s.trialBegun n chain
    u.cget NVM_SLOT_ACTIVE = n ∧ u.cget (slotState n) = 2 ∧ u.cget NVM_SLOT_TRIAL = 1 ∧ u.cget NVM_SLOT_TRIAL_LEFT = 600 ∧
      u.cget UPD_STAT_STATE = 5 := by
  have hslot : ∀ f ∈ [NVM_SLOT_ACTIVE, NVM_SLOT_TRIAL, NVM_SLOT_TRIAL_LEFT, UPD_STAT_STATE], (slotState n).key ≠ f.key := by
    rcases slotState_cases n with h | h <;> rw [h] <;> decide
  have hw : (2 : Nat) < 2 ^ (slotState n).width := by
    rcases slotState_cases n with h | h <;> rw [h] <;> decide
  intro u
  have hu : u = s.trialBegun n chain := rfl
  unfold State.trialBegun State.updState at hu
  rw [hu]
  refine ⟨?_, ?_, ?_, ?_, State.cget_cset_of_lt _ (by decide)⟩
  · rw [State.cget_cset_ne _ _ _ _ (by decide), State.cget_cset_ne _ _ _ _ (by decide), State.cget_cset_ne _ _ _ _ (by decide)]
    exact State.cget_cset_of_lt (s.cset (slotState n) 2) (f := NVM_SLOT_ACTIVE) (v := n) (Nat.lt_succ_of_le hn)
  · rw [State.cget_cset_ne _ _ _ _ (hslot _ (by decide)), State.cget_cset_ne _ _ _ _ (hslot _ (by decide)),
      State.cget_cset_ne _ _ _ _ (hslot _ (by decide))]
    exact (State.cget_cset_ne (s.cset (slotState n) 2) NVM_SLOT_ACTIVE (slotState n) n (hslot _ (by decide))).trans (State.cget_cset_of_lt _ hw)
  · rw [State.cget_cset_ne _ _ _ _ (by decide), State.cget_cset_ne _ _ _ _ (by decide)]
    exact State.cget_cset_of_lt _ (by decide)
  · rw [State.cget_cset_ne _ _ _ _ (by decide)]
    exact State.cget_cset_of_lt _ (by decide)

/-- What an activation leaves. -/
theorem State.activate_facts (hn : n ≤ 1) (item : Nat) : let u := s.activate n chain item
    (u.cget NVM_SLOT_ACTIVE = n ∧ u.cget (slotState n) = 2 ∧ u.cget NVM_SLOT_TRIAL = 1 ∧ u.cget NVM_SLOT_TRIAL_LEFT = 600 ∧
      u.cget UPD_STAT_STATE = 5) ∧ NvmLogged (s.trialBegun n chain).nvm u.nvm := by
  have hr : Relayed (s.trialBegun n chain) (((s.trialBegun n chain).program .slotSelect).logImage item n) :=
    (State.program_relayed _ _).trans (State.logImage_relayed _ _ _)
  obtain ⟨h1, h2, h3, h4, h5⟩ := s.trialBegun_shown chain hn
  have hk : ∀ f ∈ trialFields, (s.activate n chain item).cget f = (s.trialBegun n chain).cget f := fun f hf => by
    rw [State.activate_eq, State.serviceReset_trial _ hf, hr.trial hf]
  refine ⟨⟨(hk _ (by decide)).trans h1, (hk _ (slotState_mem n)).trans h2, (hk _ (by decide)).trans h3, (hk _ (by decide)).trans h4,
    (hk _ (by decide)).trans h5⟩, ?_⟩
  rw [State.activate_eq, (State.serviceReset_facts _).1]
  exact hr.nvm

end activate

section mail
variable {s : State} {j : Fin 8} {tag : BitVec 16} {c : Instr} (hb : s.updBusy = false)
include hb

theorem mailActivate_of_image (lane cmd tag : Nat) (chain : Bool) {h : ImgHdr} (hi : s.activeImage s.spareSlot = some h)
    (hk : ∀ b, s.activateReason h b = 0) : let u := s.mailActivate lane cmd tag chain
    (∃ r, u.sp.replies.head? = some r ∧ r.status = 1) ∧ u.cget NVM_SLOT_ACTIVE = s.spareSlot ∧ u.cget (slotState s.spareSlot) = 2 ∧
      u.con NVM_SLOT_TRIAL = true ∧ u.cget NVM_SLOT_TRIAL_LEFT = 600 ∧ u.cget UPD_STAT_STATE = 5 ∧ u.nvm.fallback = 1 - s.spareSlot ∧
      u.nvm.trialTick = s.tm.tick ∧ u.nvm.imgId = crc32c ((s.nvm.slot s.spareSlot).bytes.take 4096) := by
  let z := s.draw.2.modNvm fun v => { v with imgFrom := none, imgId := imgIdent (s.nvm.slot s.spareSlot).bytes }
  have he : s.mailActivate lane cmd tag chain =
      (z.activate s.spareSlot chain (if cmd = 6 then 0x27 else 0x23)).startLong lane 7 cmd tag [] [] := by
    unfold State.mailActivate
    simp only [hi, hb, hk, Bool.false_and, Bool.false_eq_true, if_false, ne_eq, not_true_eq_false]
    rfl
  obtain ⟨⟨h1, h2, h3, h4, h5⟩, hn⟩ := z.activate_facts chain s.spareSlot_le (if cmd = 6 then 0x27 else 0x23)
  obtain ⟨hr, hnvm, hregs, -⟩ := (z.activate s.spareSlot chain (if cmd = 6 then 0x27 else 0x23)).startLong_facts lane 7 cmd tag [] []
  have hact : s.cget NVM_SLOT_ACTIVE = 1 - s.spareSlot := by
    have := s.cget_lt NVM_SLOT_ACTIVE
    unfold State.spareSlot
    simp only [NVM_SLOT_ACTIVE] at *
    omega
  intro u
  rw [show u = _ from he, hnvm]
  have hkept : ∀ f ∈ trialFields, _ := fun f hf => hregs f (trialFields_kept hf).2.2.1
  refine ⟨hr, (hkept _ (by decide)).trans h1, (hkept _ (slotState_mem _)).trans h2, ?_, (hkept _ (by decide)).trans h4,
    (hkept _ (by decide)).trans h5, ?_, (congrArg NvmSt.trialTick hn :), hn.imgId_eq⟩
  · rw [State.con, hkept _ (by decide), h3]
    rfl
  · exact (congrArg NvmSt.fallback hn : _).trans hact

theorem mailActivate_of_reason (lane cmd tag : Nat) (chain : Bool) {h : ImgHdr} (hi : s.activeImage s.spareSlot = some h) {k : Nat} (h0 : k ≠ 0)
    (hk : ∀ b, s.activateReason h b = k) : let u := s.mailActivate lane cmd tag chain
    (∃ r, u.sp.replies.head? = some r ∧ r.status = 8 ∧ r.body = [BitVec.ofNat 8 k, 0]) ∧ u.nvm = s.nvm ∧
      u.cget NVM_SLOT_ACTIVE = s.cget NVM_SLOT_ACTIVE := by
  have he : s.mailActivate lane cmd tag chain = (s.draw.2.cset UPD_STAT_REASON k).updReply lane cmd tag 8 [BitVec.ofNat 8 k, 0] := by
    unfold State.mailActivate
    simp only [hi, hb, hk, h0, Bool.false_and, Bool.false_eq_true, if_false, ne_eq, not_false_eq_true, if_true]
  obtain ⟨⟨r, hr, hst, -, hbody⟩, hnvm, hregs⟩ := (s.draw.2.cset UPD_STAT_REASON k).updReply_facts lane cmd tag 8 [BitVec.ofNat 8 k, 0]
  intro u
  rw [show u = _ from he]
  exact ⟨⟨r, hr, hst, hbody⟩, hnvm, (hregs _ (by unfold offQueues; decide)).trans (State.cget_cset_ne s.draw.2 _ _ _ (by decide))⟩

theorem mailActivate_of_none (lane cmd tag : Nat) (chain : Bool) (hi : s.activeImage s.spareSlot = none) :
    let u := s.mailActivate lane cmd tag chain
    (∃ r, u.sp.replies.head? = some r ∧ r.status = 8 ∧ r.body = [5, 0]) ∧ u.nvm = s.nvm := by
  have he : s.mailActivate lane cmd tag chain = (s.cset UPD_STAT_REASON 5).updReply lane cmd tag 8 [5, 0] := by
    unfold State.mailActivate
    simp only [hi, hb, Bool.false_and, Bool.false_eq_true, if_false]
  obtain ⟨⟨r, hr, hst, -, hbody⟩, hnvm, -⟩ := (s.cset UPD_STAT_REASON 5).updReply_facts lane cmd tag 8 [5, 0]
  intro u
  rw [show u = _ from he]
  exact ⟨⟨r, hr, hst, hbody⟩, hnvm⟩

end mail

/-- ACTIVATE and ROLLBACK with a body of their length end in the activation. -/
theorem exec_activate_or_rollback {s : State} {j : Fin 8} {tag : BitVec 16} {c : Instr} (ht : s.sp.taken = none)
    (hp : ∀ cmd, s.preReply (s.laneOf j) 7 cmd tag.toNat = none) (hc : c = .activate j tag [0] ∨ c = .rollback j tag []) :
    ∃ cmd chain, exec c s = .next (s.mailActivate j cmd tag.toNat chain) := by
  rcases hc with rfl | rfl
  · exact ⟨5, _, congrArg Host.Outcome.next ((State.mailServe_of_none ht (hp 5) _).trans (if_neg (by decide)))⟩
  · exact ⟨6, false, congrArg Host.Outcome.next ((State.mailServe_of_none ht (hp 6) _).trans (if_pos rfl))⟩

theorem updFrameActivate_clause (s : State) (f : UpdFrame) (h : ImgHdr) (hf : s.frozen 18 = false) (hn : s.neighbour f.up = true)
    (hi : s.activeImage s.spareSlot = some h) : let id := crc32c ((s.nvm.slot s.spareSlot).bytes.take 4096)
    (f.image.toNat = id → (∀ b, s.activateReason h b = 0) → ∃ u, exec (.updFrameActivate f) s = .next u ∧
      u.cget NVM_SLOT_ACTIVE = s.spareSlot ∧ u.con NVM_SLOT_TRIAL = true ∧ u.nvm.chainAct = true ∧ u.nvm.imgFrom = some f.up) ∧
    (f.image.toNat ≠ id → ∃ u, exec (.updFrameActivate f) s = .next u ∧ u.cget UPD_STAT_STATE = 6 ∧ u.cget UPD_STAT_REASON = 5 ∧
      u.cget NVM_SLOT_ACTIVE = s.cget NVM_SLOT_ACTIVE) := by
  intro id
  let s0 := s.modNvm fun v => { v with imgFrom := some f.up, imgId := f.image.toNat }
  have hno : ¬ (s.frozen 18 = true ∨ (!(s.neighbour f.up)) = true) := by simp [hf, hn]
  have he : exec (.updFrameActivate f) s = .next (match (if f.image.toNat = id then s0.activeImage s.spareSlot else none) with
      | none => s0.haltHere 5
      | some h => if s0.activateReason h (decide (s0.draw.1 % 2 = 1)) ≠ 0 then
        s0.draw.2.haltHere (s0.activateReason h (decide (s0.draw.1 % 2 = 1))) else s0.draw.2.activate s.spareSlot true 0x23) :=
    congrArg Host.Outcome.next (if_neg hno)
  refine ⟨fun hid hk => ?_, fun hid => ?_⟩
  · have hi' : s0.activeImage s.spareSlot = some h := hi
    have hk' : s0.activateReason h (decide (s0.draw.1 % 2 = 1)) = 0 := hk _
    rw [if_pos hid, hi'] at he
    dsimp only at he
    rw [hk', if_neg (by decide)] at he
    obtain ⟨⟨h1, -, h3, -, -⟩, hnv⟩ := s0.draw.2.activate_facts true s.spareSlot_le 0x23
    refine ⟨_, he, h1, ?_, hnv.chainAct_eq, hnv.imgFrom_eq⟩
    rw [State.con, h3]
    rfl
  · rw [if_neg hid] at he
    obtain ⟨h6, h5⟩ := State.haltHere_shown (s := s0) 5 (by decide)
    refine ⟨_, he, h6, h5, ((State.haltHere_relayed (s := s0) 5).trial (by decide)).trans ?_⟩
    exact State.updFailed_cget (s := s0) (f := NVM_SLOT_ACTIVE) (by decide) (by decide)

/-! ### The end of a trial -/

/-- The fields that the end of a trial writes. -/
def State.trialEnded (s : State) (n st : Nat) : State := ((s.cset (slotState n) st).cset NVM_SLOT_TRIAL 0).cset NVM_SLOT_TRIAL_LEFT 0

theorem State.trialEnded_shown (s : State) (n : Nat) {st : Nat} (hst : st < 8) : let u := s.trialEnded n st
    u.cget (slotState n) = st ∧ u.cget NVM_SLOT_TRIAL = 0 ∧ u.cget NVM_SLOT_TRIAL_LEFT = 0 := by
  have hw : st < 2 ^ (slotState n).width := by
    rcases slotState_cases n with h | h <;> rw [h] <;> exact hst
  have hne : (slotState n).key ≠ NVM_SLOT_TRIAL.key ∧ (slotState n).key ≠ NVM_SLOT_TRIAL_LEFT.key := by
    rcases slotState_cases n with h | h <;> rw [h] <;> decide
  unfold State.trialEnded
  refine ⟨?_, ?_, State.cget_cset_of_lt _ (by decide)⟩
  · rw [State.cget_cset_ne _ _ _ _ hne.2, State.cget_cset_ne _ _ _ _ hne.1]
    exact State.cget_cset_of_lt _ hw
  · rw [State.cget_cset_ne _ _ _ _ (by decide)]
    exact State.cget_cset_of_lt _ (by decide)

theorem State.trialEnded_cget (s : State) (n st : Nat) {f : Fld}
    (h : f.key ≠ (slotState n).key ∧ f.key ≠ NVM_SLOT_TRIAL.key ∧ f.key ≠ NVM_SLOT_TRIAL_LEFT.key) :
    (s.trialEnded n st).cget f = s.cget f :=
  (State.cget_cset_ne _ _ _ _ h.2.2).trans ((State.cget_cset_ne _ _ _ _ h.2.1).trans (State.cget_cset_ne _ _ _ _ h.1))

/-- A trial that has failed, in the log. -/
def State.trialLogged (s : State) (n : Nat) : State :=
  (((s.trialEnded n 4).program .slotSelect).logImage 0x25 n).alarmAt NVM_SLOT_ACTIVE.reg

theorem State.trialLogged_relayed (s : State) (n : Nat) : Relayed (s.trialEnded n 4) (s.trialLogged n) :=
  ((State.program_relayed _ _).trans (State.logImage_relayed _ _ _)).trans (State.alarmAt_relayed _ _)

/-- A trial that has failed, before the node falls back. -/
def State.trialFailed (s : State) (n : Nat) : State := ((s.trialLogged n).haltHere 7).modNvm fun v => { v with activating := false }

theorem State.trialFailed_cget (s : State) (n : Nat) (f : Fld) : (s.trialFailed n).cget f = ((s.trialLogged n).haltHere 7).cget f := by
  unfold State.trialFailed
  generalize (s.trialLogged n).haltHere 7 = z
  rfl

/-- The states of the two slots are fields of their own. -/
theorem slotState_other {n : Nat} (hn : n < 2) : (slotState n).key ≠ (slotState (1 - n)).key ∧ (slotState n).key ≠ NVM_SLOT_ACTIVE.key ∧
    NVM_SLOT_ACTIVE.key ≠ (slotState (1 - n)).key ∧ NVM_SLOT_TRIAL.key ≠ (slotState (1 - n)).key ∧
    NVM_SLOT_TRIAL_LEFT.key ≠ (slotState (1 - n)).key := by
  interval_cases n <;> decide

theorem slotState_ne_upd (n : Nat) : (slotState n).key ≠ UPD_STAT_STATE.key ∧ (slotState n).key ≠ UPD_STAT_REASON.key := by
  rcases slotState_cases n with h | h <;> rw [h] <;> decide

section trial
variable {s : State} (ht : s.con NVM_SLOT_TRIAL = true)
include ht

theorem trialConfirm_clause (hh : s.healthy = true) (hc : s.nvm.chainAct = false) : ∃ u, exec .trialConfirm s = .next u ∧
    u.cget (slotState (s.cget NVM_SLOT_ACTIVE)) = 3 ∧ u.con NVM_SLOT_TRIAL = false ∧ u.cget NVM_SLOT_TRIAL_LEFT = 0 ∧
    u.cget UPD_STAT_STATE = 0 ∧ u.cget UPD_STAT_NODES = 1 := by
  let s1 := s.trialEnded (s.cget NVM_SLOT_ACTIVE) 3
  let s2 := ((s1.program .slotSelect).logImage 0x24 (s.cget NVM_SLOT_ACTIVE)).updState 4
  have hlog : Relayed s1 ((s1.program .slotSelect).logImage 0x24 (s.cget NVM_SLOT_ACTIVE)) :=
    (State.program_relayed _ _).trans (State.logImage_relayed _ _ _)
  have hno : ¬ ((!(s.con NVM_SLOT_TRIAL)) = true ∨ (!s.healthy) = true) := by simp [ht, hh]
  have he : exec .trialConfirm s = .next (s2.actSides.foldl (fun z u => (z.sendUpd u 5 0 0 0 z.nvm.imgId).modSide u
      fun y => { y with active := true, count := 0 }) s2).confirmDone := congrArg Host.Outcome.next (if_neg hno)
  have hsides : s2.actSides = [] := by
    have h : s2.nvm.chainAct = false := hlog.nvm.chainAct_eq.trans hc
    rw [State.actSides, h]
    rfl
  rw [hsides, List.foldl_nil] at he
  have hr := State.confirmDone_relayed (s := s2) (by rw [hsides]; rfl)
  obtain ⟨h0, hn⟩ := State.updConfirmed_shown (s := s2)
  rw [hsides] at hn
  obtain ⟨h1, h2, h3⟩ := s.trialEnded_shown (s.cget NVM_SLOT_ACTIVE) (st := 3) (by decide)
  have hk : ∀ f ∈ trialFields, f.key ≠ UPD_STAT_STATE.key → f.key ≠ UPD_STAT_NODES.key → s2.confirmDone.cget f = s1.cget f :=
    fun f hf hs hn => by
      rw [hr.trial hf]
      exact (State.updConfirmed_cget hs hn).trans ((State.cget_cset_ne _ UPD_STAT_STATE f 4 hs).trans (hlog.trial hf))
  have hslot : (slotState (s.cget NVM_SLOT_ACTIVE)).key ≠ UPD_STAT_STATE.key ∧
      (slotState (s.cget NVM_SLOT_ACTIVE)).key ≠ UPD_STAT_NODES.key := by
    rcases slotState_cases (s.cget NVM_SLOT_ACTIVE) with h | h <;> rw [h] <;> decide
  refine ⟨_, he, (hk _ (slotState_mem _) hslot.1 hslot.2).trans h1, ?_, (hk _ (by decide) (by decide) (by decide)).trans h3,
    (hr.trial (by decide)).trans h0, (hr.trial (by decide)).trans hn⟩
  rw [State.con, hk _ (by decide) (by decide) (by decide), h2]
  rfl

theorem trialTimeout_clause (hdue : s.nvm.trialTick + 150000000 ≤ s.tm.tick) (hb : s.nvm.fallback = 1 - s.cget NVM_SLOT_ACTIVE)
    (hu : s.slotUsable (1 - s.cget NVM_SLOT_ACTIVE) = true) : ∃ u, exec .trialTimeout s = .next u ∧
      u.cget (slotState (s.cget NVM_SLOT_ACTIVE)) = 4 ∧ u.con NVM_SLOT_TRIAL = false ∧ u.cget NVM_SLOT_ACTIVE = 1 - s.cget NVM_SLOT_ACTIVE ∧
      u.cget (slotState (1 - s.cget NVM_SLOT_ACTIVE)) = 3 ∧ u.cget UPD_STAT_STATE = 6 ∧ u.cget UPD_STAT_REASON = 7 := by
  have hno : ¬ ((!(s.con NVM_SLOT_TRIAL)) = true ∨ s.since s.nvm.trialTick < 600 * ticksSec) := by
    simp only [ht, State.since, ticksSec, Bool.not_true, Bool.false_eq_true, false_or]
    omega
  have he : exec .trialTimeout s = .next (if (s.trialFailed (s.cget NVM_SLOT_ACTIVE)).slotUsable s.nvm.fallback = true ∧
      s.nvm.fallback ≠ s.cget NVM_SLOT_ACTIVE then
      ((((s.trialFailed (s.cget NVM_SLOT_ACTIVE)).cset NVM_SLOT_ACTIVE s.nvm.fallback).cset (slotState s.nvm.fallback) 3).serviceReset)
      else s.trialFailed (s.cget NVM_SLOT_ACTIVE)) := congrArg Host.Outcome.next (if_neg hno)
  have hn1 : s.cget NVM_SLOT_ACTIVE < 2 := s.cget_lt NVM_SLOT_ACTIVE
  rw [hb] at he
  generalize s.cget NVM_SLOT_ACTIVE = n at *
  obtain ⟨hself, hslot, hbact, hbtrial, hbleft⟩ := slotState_other hn1
  obtain ⟨hbstate, hbreason⟩ := slotState_ne_upd (1 - n)
  obtain ⟨hnstate, hnreason⟩ := slotState_ne_upd n
  have hr : Relayed ((s.trialLogged n).updFailed 7) ((s.trialLogged n).haltHere 7) := State.haltHere_relayed 7
  have hk : ∀ f ∈ trialFields, f.key ≠ UPD_STAT_STATE.key → f.key ≠ UPD_STAT_REASON.key →
      (s.trialFailed n).cget f = (s.trialEnded n 4).cget f :=
    fun f hf hs hn => (s.trialFailed_cget n f).trans ((hr.trial hf).trans ((State.updFailed_cget hs hn).trans ((s.trialLogged_relayed n).trial hf)))
  have husable : (s.trialFailed n).slotUsable (1 - n) = true := by
    rw [State.slotUsable, hk _ (slotState_mem _) hbstate hbreason, State.trialEnded_cget _ _ _ ⟨hself.symm, hbtrial.symm, hbleft.symm⟩]
    exact hu
  rw [if_pos ⟨husable, by omega⟩] at he
  obtain ⟨h1, h2, -⟩ := s.trialEnded_shown n (st := 4) (by decide)
  obtain ⟨h6, h7⟩ := State.haltHere_shown (s := s.trialLogged n) 7 (by decide)
  have hend : ∀ f ∈ trialFields, f.key ≠ NVM_SLOT_ACTIVE.key → f.key ≠ (slotState (1 - n)).key →
      (((s.trialFailed n).cset NVM_SLOT_ACTIVE (1 - n)).cset (slotState (1 - n)) 3).serviceReset.cget f =
        (s.trialFailed n).cget f := fun f hf ha hs => by
    rw [State.serviceReset_trial _ hf, State.cget_cset_ne _ _ _ _ hs, State.cget_cset_ne _ _ _ _ ha]
  refine ⟨_, he, ?_, ?_, ?_, ?_, ?_, ?_⟩
  · rw [hend _ (slotState_mem _) hslot hself, hk _ (slotState_mem _) hnstate hnreason, h1]
  · rw [State.con, hend _ (by decide) (by decide) hbtrial, hk _ (by decide) (by decide) (by decide), h2]
    rfl
  · rw [State.serviceReset_trial _ (by decide), State.cget_cset_ne _ _ _ _ hbact]
    exact State.cget_cset_of_lt _ (Nat.lt_succ_of_le (Nat.sub_le 1 n))
  · rw [State.serviceReset_trial _ (slotState_mem _)]
    refine State.cget_cset_of_lt _ ?_
    rcases slotState_cases (1 - n) with h | h <;> rw [h] <;> decide
  · rw [hend _ (by decide) (by decide) hbstate.symm]
    exact (s.trialFailed_cget n _).trans h6
  · rw [hend _ (by decide) (by decide) hbreason.symm]
    exact (s.trialFailed_cget n _).trans h7

end trial

theorem confirmed_clause (s : State) (f : UpdFrame) (hf : s.frozen 18 = false) (h4 : s.cget UPD_STAT_STATE = 4) (hs : s.actSides = [f.up])
    (ha : (s.side f.up).active = true) (hid : f.image.toNat = s.nvm.imgId) : ∃ u, exec (.confirmed f) s = .next u ∧
      u.cget UPD_STAT_STATE = 0 ∧ u.cget UPD_STAT_NODES = (1 + f.count.toNat) % 256 ∧ u.nvm.activating = false := by
  have hof : s.ofImage f = true := decide_eq_true hid
  have hno : ¬ (s.frozen 18 = true ∨ s.cget UPD_STAT_STATE ≠ 4 ∨ (!(s.actSides.contains f.up)) = true ∨ (!(s.side f.up).active) = true ∨
      (!(s.ofImage f)) = true) := by simp [hf, h4, hs, ha, hof]
  let z := (s.modSide f.up fun y => { y with active := false, count := f.count.toNat }).cset UPD_STAT_NODES f.count.toNat
  have he : exec (.confirmed f) s = .next z.confirmDone := congrArg Host.Outcome.next (if_neg hno)
  have hside : z.side f.up = { s.side f.up with active := false, count := f.count.toNat } :=
    State.side_modSide (s := s) (up := f.up) fun y => { y with active := false, count := f.count.toNat }
  have honz : z.onward = s.onward := (State.onward_cset _ _ (by decide)).trans (State.onward_modSide _)
  have hchain : z.nvm.chainAct = s.nvm.chainAct := by
    cases hu : f.up <;> simp only [z, hu] <;> rfl
  have hsides : z.actSides = [f.up] := by
    have hdone : ∀ u, (z.side u).done = (s.side u).done := fun u => by
      cases hu : f.up <;> cases u <;> simp only [z, hu] <;> rfl
    rw [State.actSides, hchain, honz, ← hs, State.actSides]
    simp only [hdone]
  have hr := State.confirmDone_relayed (s := z) (by rw [hsides, List.any_cons, hside]; rfl)
  obtain ⟨h0, hn⟩ := State.updConfirmed_shown (s := z)
  rw [hsides, List.map_cons, hside] at hn
  exact ⟨_, he, (hr.trial (by decide)).trans h0, (hr.trial (by decide)).trans hn, hr.nvm.activating_eq⟩

/-- Settles O49: frames carry an image along the chain block by block; an activation begins a trial of 600 s, which is confirmed or ends
with the slot before. -/
theorem chainActivationAndTrial : Obligations.ChainActivationAndTrial := by
  unfold Obligations.ChainActivationAndTrial
  refine ⟨frozenFrames_clause, offer_clause, updData_clause, ?_, halt_clause, ?_, ?_, updFrameActivate_clause, ?_, confirmed_clause⟩
  · intro s f hf h3 ho ha hid
    exact ⟨fun hr hd => (ack_clause hf h3 ho ha hid hd).1 hr, fun hr hd => (ack_clause hf h3 ho ha hid hd).2 hr, done_clause hf h3 ho ha hid⟩
  · exact fun s up hon h3 => ⟨neighbourAbsent_clause hon h3, resendTimeout_clause h3⟩
  · intro s j tag ht hp hb c hc n
    obtain ⟨cmd, chain, he⟩ := exec_activate_or_rollback ht hp hc
    refine ⟨fun h hi hk => ?_, fun h k hi h0 hk => ?_, fun hi => ?_⟩
    · obtain ⟨⟨r, hr, hst⟩, hrest⟩ := mailActivate_of_image hb j cmd tag.toNat chain hi hk
      exact ⟨_, r, he, hr, hst, hrest⟩
    · obtain ⟨⟨r, hr, hst, hbody⟩, hrest⟩ := mailActivate_of_reason hb j cmd tag.toNat chain hi h0 hk
      exact ⟨_, r, he, hr, hst, hbody, hrest⟩
    · obtain ⟨⟨r, hr, hst, hbody⟩, hnvm⟩ := mailActivate_of_none hb j cmd tag.toNat chain hi
      exact ⟨_, r, he, hr, hst, hbody, hnvm⟩
  · intro s ht _ n
    refine ⟨fun hh => congrArg Host.Outcome.next (if_pos (.inr (by rw [hh]; rfl))), trialConfirm_clause ht, fun hlt => ?_,
      trialTimeout_clause ht⟩
    exact congrArg Host.Outcome.next (if_pos (.inr (by simp only [State.since, ticksSec]; omega)))

end Sys2Proof.Machine

/-! ## Heartbeats, roles and the cold standby -/

namespace Sys2Proof.Machine

set_option Elab.async false

/-! ### Fields of a packet's bytes -/

theorem leBytes_drop (i : Nat) : ∀ n w : Nat, (leBytes n w).drop i = leBytes (n - i) (w / 256 ^ i) := by
  induction i with
  | zero => intro n w; simp
  | succ i ih =>
    intro n w
    cases n with
    | zero => simp [leBytes]
    | succ n => rw [leBytes, List.drop_succ_cons, ih, Nat.div_div_eq_div_mul, Nat.succ_sub_succ, Nat.pow_succ']

theorem leBytes_take (n : Nat) : ∀ m w : Nat, n ≤ m → (leBytes m w).take n = leBytes n w := by
  induction n with
  | zero => intro m w _; rfl
  | succ n ih =>
    intro m w h
    obtain ⟨m, rfl⟩ : ∃ k, m = k + 1 := ⟨m - 1, by omega⟩
    rw [leBytes, List.take_succ_cons, ih _ _ (Nat.le_of_succ_le_succ h), leBytes]

theorem wordsBytes_drop (k : Nat) : ∀ ws : List W64, (wordsBytes ws).drop (8 * k) = wordsBytes (ws.drop k) := by
  induction k with
  | zero => intro ws; rfl
  | succ k ih =>
    intro ws
    cases ws with
    | nil => exact List.drop_nil
    | cons w ws =>
      rw [wordsBytes_cons, Nat.mul_succ, Nat.add_comm, ← List.drop_drop, List.drop_left' (leBytes_length 8 _), ih, List.drop_succ_cons]

theorem wordsBytes_append (ws xs : List W64) : wordsBytes (ws ++ xs) = wordsBytes ws ++ wordsBytes xs := List.flatMap_append

/-- A field of whole bytes within a word. -/
theorem bodyNat_wordsBytes {ws : List W64} {k : Nat} {w : W64} (hw : ws[k]? = some w) {i n : Nat} (h : i + n ≤ 8) (tail : List Byte) :
    bodyNat (wordsBytes ws ++ tail) (8 * k + i) n = w.toNat / 256 ^ i % 256 ^ n := by
  obtain ⟨hk, rfl⟩ := List.getElem?_eq_some_iff.1 hw
  have hlen : 8 * k ≤ (wordsBytes ws).length := by
    rw [wordsBytes_length]
    omega
  rw [bodyNat, ← List.drop_drop, List.drop_append_of_le_length hlen, wordsBytes_drop, List.drop_eq_getElem_cons hk, wordsBytes_cons,
    List.append_assoc, List.drop_append_of_le_length (by rw [leBytes_length]; omega), leBytes_drop,
    List.take_append_of_le_length (by rw [leBytes_length]; omega), leBytes_take _ _ _ (by omega), ofBytes_leBytes]

/-! ### The bytes of a heartbeat -/

/-- The words of a heartbeat before that of its CRC. -/
def hbWords (h : Heartbeat) : List W64 :=
  [packW [(0, 3, h.role.toNat), (3, 8, h.claim.toNat), (11, 8, h.cid.toNat), (19, 1, b2n h.healthy), (32, 32, h.seq.toNat)],
    packW [(0, 32, h.imgVer.toNat), (32, 16, h.seedFmt.toNat), (48, 16, h.seedMin.toNat)], packW [(0, 59, h.fc.toNat)],
    packW [(0, 48, h.sec.toNat), (48, 2, h.qual.toNat)], packW [(0, 30, h.ns.toNat), (30, 16, h.frac.toNat)],
    packW [(0, 32, h.health.toNat)], 0]

/-- The word of a heartbeat's CRC. -/
def hbCrcWord (h : Heartbeat) : W64 := packW [(0, 32, crc32c (wordsBytes (hbWords h) ++ leBytes 4 0))]

theorem hbBytes_eq (h : Heartbeat) : hbBytes h = wordsBytes (hbWords h ++ [hbCrcWord h]) := rfl

theorem hbBytes_length (h : Heartbeat) : (hbBytes h).length = 64 := by
  rw [hbBytes_eq, wordsBytes_length]
  rfl

theorem hbBytes_take (h : Heartbeat) : (hbBytes h).take 56 = wordsBytes (hbWords h) := by
  rw [hbBytes_eq, wordsBytes_append]
  exact List.take_left' (wordsBytes_length (hbWords h))

theorem bodyNat_hbBytes (h : Heartbeat) {k : Nat} {w : W64} (hw : (hbWords h ++ [hbCrcWord h])[k]? = some w) {i n : Nat} (hn : i + n ≤ 8) :
    bodyNat (hbBytes h) (8 * k + i) n = w.toNat / 256 ^ i % 256 ^ n := by
  have := bodyNat_wordsBytes hw hn []
  rwa [List.append_nil] at this

theorem hbBytes_crc (h : Heartbeat) : bodyNat (hbBytes h) 56 4 = crc32c ((hbBytes h).take 56 ++ leBytes 4 0) := by
  have hw := bodyNat_hbBytes h (k := 7) (i := 0) (n := 4) rfl (by decide)
  have hlt := crc32c_lt (wordsBytes (hbWords h) ++ leBytes 4 0)
  rw [hbBytes_take]
  refine Eq.trans hw ?_
  rw [hbCrcWord, packW, BitVec.toNat_ofNat]
  simp only [pack]
  omega

/-- The first word of a heartbeat. -/
theorem hbBytes_first (h : Heartbeat) : let w := bodyNat (hbBytes h) 0 8
    bits w 0 3 = h.role.toNat ∧ bits w 3 8 = h.claim.toNat ∧ bits w 11 8 = h.cid.toNat ∧ bitAt w 19 = h.healthy ∧
      bodyNat (hbBytes h) 4 4 = h.seq.toNat := by
  have hw := bodyNat_hbBytes h (k := 0) (i := 0) (n := 8) rfl (by decide)
  have hs := bodyNat_hbBytes h (k := 0) (i := 4) (n := 4) rfl (by decide)
  have h1 := h.role.isLt
  have h2 := h.claim.isLt
  have h3 := h.cid.isLt
  have h4 := h.seq.isLt
  have hb : b2n h.healthy < 2 := by cases h.healthy <;> decide
  have hb' : (b2n h.healthy == 1) = h.healthy := by cases h.healthy <;> rfl
  intro w
  rw [show w = _ from hw, show bodyNat (hbBytes h) 4 4 = _ from hs]
  clear hw hs w
  generalize b2n h.healthy = v at hb hb' ⊢
  simp only [packW, pack, BitVec.toNat_ofNat, bits, bitAt]
  refine ⟨by omega, by omega, by omega, ?_, by omega⟩
  refine (congrArg (· == 1) (?_ : _ = v)).trans hb'
  omega

/-- The other fields of a heartbeat. -/
theorem hbBytes_rest (h : Heartbeat) : bodyNat (hbBytes h) 16 8 = h.fc.toNat ∧ bodyNat (hbBytes h) 24 6 = h.sec.toNat ∧
    bodyNat (hbBytes h) 40 4 = h.health.toNat := by
  have h2 := bodyNat_hbBytes h (k := 2) (i := 0) (n := 8) rfl (by decide)
  have h3 := bodyNat_hbBytes h (k := 3) (i := 0) (n := 6) rfl (by decide)
  have h5 := bodyNat_hbBytes h (k := 5) (i := 0) (n := 4) rfl (by decide)
  have hfc := h.fc.isLt
  have hsec := h.sec.isLt
  have hq := h.qual.isLt
  have hh := h.health.isLt
  refine ⟨Eq.trans h2 ?_, Eq.trans h3 ?_, Eq.trans h5 ?_⟩ <;> clear h2 h3 h5 <;> simp only [packW, pack, BitVec.toNat_ofNat] <;> omega

theorem heartbeatSend_clause (s : State) (h0 : s.role ≠ 0) (hdue : ∀ t, s.twin.hbTick = some t → t + 2500 ≤ s.tm.tick) :
    ∃ u b, exec .heartbeatSend s = .next u ∧ u.svcTx = .heartbeat (s.cget TWIN_PEER_MAC) b :: s.svcTx ∧ b.length = 64 ∧
      bits (bodyNat b 0 8) 0 3 = s.role ∧ bits (bodyNat b 0 8) 3 8 = s.cget TWIN_CFG_CLAIM ∧ bits (bodyNat b 0 8) 11 8 = s.cid ∧
      bitAt (bodyNat b 0 8) 19 = s.con TWIN_STAT_HEALTHY ∧ bodyNat b 4 4 = s.twin.hbSeq % 2 ^ 32 ∧ bodyNat b 16 8 = s.fcNow % 2 ^ 59 ∧
      bodyNat b 24 6 = s.tm.now.sec % 2 ^ 48 ∧ bodyNat b 40 4 = s.cget TWIN_HEALTH_BITS ∧
      bodyNat b 56 4 = crc32c (b.take 56 ++ leBytes 4 0) ∧ u.twin.hbSeq = (s.twin.hbSeq + 1) % 2 ^ 32 ∧ u.twin.hbTick = some s.tm.tick ∧
      u.creg = s.creg := by
  have hno : ¬ (s.role = 0 ∨ (!(match s.twin.hbTick with | some t => decide (ticksMs 10 ≤ s.since t) | none => true)) = true) := by
    cases ht : s.twin.hbTick with
    | none => simp [h0]
    | some t =>
      have h := hdue t ht
      have hd : ticksMs 10 ≤ s.since t := by
        simp only [ticksMs, State.since]
        omega
      simp [h0, hd]
  have he := (congrArg Host.Outcome.next (if_neg hno) : exec .heartbeatSend s = _)
  obtain ⟨h1, h2, h3, h4, h5⟩ := hbBytes_first s.heartbeat
  obtain ⟨h6, h7, h8⟩ := hbBytes_rest s.heartbeat
  have hw : ∀ (n : Nat) (f : Fld), f.width ≤ n → (BitVec.ofNat n (s.cget f)).toNat = s.cget f := fun n f hf => by
    rw [BitVec.toNat_ofNat]
    exact Nat.mod_eq_of_lt (Nat.lt_of_lt_of_le (s.cget_lt f) (Nat.pow_le_pow_right (by decide) hf))
  exact ⟨_, _, he, rfl, hbBytes_length _, h1.trans (hw 3 _ (by decide)), h2.trans (hw 8 _ (by decide)), h3.trans (hw 8 _ (by decide)), h4,
    h5.trans (BitVec.toNat_ofNat ..), h6.trans (BitVec.toNat_ofNat ..), h7.trans (BitVec.toNat_ofNat ..), h8.trans (hw 32 _ (by decide)),
    hbBytes_crc _, rfl, rfl, rfl⟩

/-! ### A module that becomes STANDBY -/

section standby

/-- The PRBS payload of port `p` turned on where its front-end answers. -/
def State.checkOn (z : State) (p : Nat) : State := z.when (z.feLive p) fun y => y.fset p (LNK_CTRL_CHECK (y.face p)) 1

/-- `t` is `s` with the PRBS payload of some ports turned on. -/
structure Checked (s t : State) : Prop where
  same : t = { s with freg := t.freg }
  kept : ∀ p k, s.fget p (LNK_CTRL_CHECK k) = 1 → t.fget p (LNK_CTRL_CHECK k) = 1

theorem Checked.trans {s t u : State} (h1 : Checked s t) (h2 : Checked t u) : Checked s u :=
  ⟨by rw [h2.same, h1.same], fun p k h => h2.kept p k (h1.kept p k h)⟩

theorem State.checkOn_checked (z : State) (q : Nat) : Checked z (z.checkOn q) := by
  unfold State.checkOn
  cases z.feLive q with
  | false => exact ⟨rfl, fun _ _ h => h⟩
  | true =>
    refine ⟨rfl, fun p k h => ?_⟩
    change (z.fset q (LNK_CTRL_CHECK (z.face q)) 1).fget p (LNK_CTRL_CHECK k) = 1
    by_cases hk : (LNK_CTRL_CHECK k).fkey p = (LNK_CTRL_CHECK (z.face q)).fkey q
    · have hs := State.fget_fset_same z q (LNK_CTRL_CHECK (z.face q)) 1
      rw [State.fget] at hs ⊢
      rw [hk]
      exact hs
    · rw [State.fget_fset_ne _ _ _ _ _ _ hk, h]

theorem State.checkOn_same {z : State} {p : Nat} (h : z.feLive p = true) : (z.checkOn p).fget p (LNK_CTRL_CHECK (z.face p)) = 1 := by
  unfold State.checkOn
  rw [h]
  exact State.fget_fset_same z p _ 1

theorem Checked.foldl {s z : State} (l : List Nat) (h : Checked s z) : Checked s (l.foldl State.checkOn z) :=
  List.foldlRecOn (motive := Checked s) l _ h fun _ hy p _ => hy.trans (State.checkOn_checked _ p)

theorem State.checkOn_foldl {p : Nat} : ∀ (l : List Nat) (z : State), p ∈ l → z.feLive p = true →
    (l.foldl State.checkOn z).fget p (LNK_CTRL_CHECK (z.face p)) = 1 := by
  intro l
  induction l with
  | nil => exact fun _ hp => absurd hp List.not_mem_nil
  | cons q l ih =>
    intro z hp hl
    have hc := z.checkOn_checked q
    rw [List.foldl_cons]
    rcases List.mem_cons.1 hp with rfl | hp
    · exact ((Checked.foldl l ⟨rfl, fun _ _ h => h⟩ : Checked (z.checkOn p) _).kept p _ (State.checkOn_same hl))
    · have hlive : (z.checkOn q).feLive p = true := by
        rw [hc.same]
        exact hl
      have hface : (z.checkOn q).face p = z.face p := by rw [hc.same]; rfl
      rw [← hface]
      exact ih _ hp hlive

/-- A module that stores nothing and whose trigger is disarmed. -/
def State.standingBy (s : State) : State :=
  ((s.cset TWIN_STAT_ROLE 2).modTwin fun t => { t with storing := false, fs := none, drainTick := none, noOwnerTick := none }).modTrg
    fun t => { t with armAsk := false, disarmAsk := t.disarmAsk || s.con TRG_STAT_ARMED, askTick := s.tm.tick }

theorem State.toStandby_eq (s : State) : s.toStandby = s.standingBy.portsInRun.foldl State.checkOn s.standingBy := rfl

theorem State.toStandby_checked (s : State) : Checked s.standingBy s.toStandby := by
  rw [State.toStandby_eq]
  exact .foldl _ ⟨rfl, fun _ _ h => h⟩

theorem State.toStandby_cget {s : State} {f : Fld} (h : f.key ≠ TWIN_STAT_ROLE.key) : s.toStandby.cget f = s.cget f := by
  rw [s.toStandby_checked.same]
  exact State.cget_cset_ne s TWIN_STAT_ROLE f 2 h

theorem State.toStandby_role (s : State) : s.toStandby.role = 2 := by
  have hc := s.toStandby_checked.same
  rw [State.role, State.cget_of_creg (congrArg State.creg hc)]
  exact State.cget_cset_of_lt s (f := TWIN_STAT_ROLE) (v := 2) (by decide)

theorem State.toStandby_twin (s : State) : s.toStandby.twin = { s.twin with storing := false, fs := none, drainTick := none, noOwnerTick := none } :=
  congrArg State.twin s.toStandby_checked.same

/-- Every port in RUN whose front-end answers sends PRBS payload. -/
theorem State.toStandby_check {s : State} {p : Nat} (hp : p ∈ s.portsInRun) (hrole : s.cget TWIN_STAT_ROLE ≠ 6) (hl : s.feLive p = true) :
    s.toStandby.fget p (LNK_CTRL_CHECK (s.face p)) = 1 := by
  obtain ⟨hmem, h6⟩ := List.mem_filter.1 hp
  have h6' : s.cget (PL_STAT_STATE p) = 6 := of_decide_eq_true h6
  have hkey : (PL_STAT_STATE p).key ≠ TWIN_STAT_ROLE.key := fun e => by
    have hf : PL_STAT_STATE p = TWIN_STAT_ROLE := by
      simp only [Fld.key, PL_STAT_STATE, TWIN_STAT_ROLE] at e ⊢
      rw [Fld.mk.injEq]
      exact ⟨by omega, rfl, rfl, rfl, rfl⟩
    rw [hf] at h6'
    exact hrole h6'
  have hrun : p ∈ s.standingBy.portsInRun :=
    List.mem_filter.2 ⟨hmem, decide_eq_true ((State.cget_cset_ne s _ (PL_STAT_STATE p) 2 hkey).trans h6')⟩
  have hface : s.standingBy.face p = s.face p :=
    State.cget_cset_ne s TWIN_STAT_ROLE (PL_CTRL_FACE p) 2 (by simp only [Fld.key, PL_CTRL_FACE, TWIN_STAT_ROLE]; omega)
  rw [State.toStandby_eq, ← hface]
  exact State.checkOn_foldl _ _ hrun hl

end standby

/-! ### Heartbeats heard and missed -/

section heard
variable (s : State) (h : Heartbeat) (arr : Int)

/-- A good heartbeat kept. -/
def State.heard : State :=
  (((s.draw.2.draw.2.cset TWIN_STAT_PARTNER 1).cset TWIN_STAT_CID_ERR (b2n (decide (h.cid.toNat ≠ s.cid)))).cset TWIN_TDIFF_D
    (s.draw.1 % 2 ^ 32)).modTwin fun t => { t with
      peer := some h, peerTick := s.tm.tick
      oneWay := arr - ((({ sec := h.sec.toNat, ns := h.ns.toNat, frac := h.frac.toNat } : TimeVal).inst : Nat) : Int)
      compatBad := s.partnerUnfit h (decide (s.draw.2.draw.1 % 2 = 1)) }

variable {s}

theorem State.heard_cget {f : Fld} (h1 : f.key ≠ TWIN_STAT_PARTNER.key) (h2 : f.key ≠ TWIN_STAT_CID_ERR.key) (h3 : f.key ≠ TWIN_TDIFF_D.key) :
    (s.heard h arr).cget f = s.cget f :=
  (State.cget_cset_ne ((s.draw.2.draw.2.cset TWIN_STAT_PARTNER 1).cset TWIN_STAT_CID_ERR _) TWIN_TDIFF_D f _ h3).trans
    ((State.cget_cset_ne (s.draw.2.draw.2.cset TWIN_STAT_PARTNER 1) TWIN_STAT_CID_ERR f _ h2).trans
      (State.cget_cset_ne s.draw.2.draw.2 TWIN_STAT_PARTNER f 1 h1))

theorem State.heard_facts : (s.heard h arr).con TWIN_STAT_PARTNER = true ∧
    (s.heard h arr).con TWIN_STAT_CID_ERR = decide (h.cid.toNat ≠ s.cid) := by
  unfold State.heard
  constructor
  · change (((s.draw.2.draw.2.cset TWIN_STAT_PARTNER 1).cset TWIN_STAT_CID_ERR _).cset TWIN_TDIFF_D _).con TWIN_STAT_PARTNER = true
    rw [State.con_cset_ne _ _ _ _ (by decide), State.con_cset_ne _ _ _ _ (by decide), State.con_eq_true, State.cget_cset_same]
    decide
  · change (((s.draw.2.draw.2.cset TWIN_STAT_PARTNER 1).cset TWIN_STAT_CID_ERR _).cset TWIN_TDIFF_D _).con TWIN_STAT_CID_ERR = _
    rw [State.con_cset_ne _ _ _ _ (by decide), State.con, State.cget_cset_same]
    cases decide (h.cid.toNat ≠ s.cid) <;> decide

/-- The ports in RUN and their faces are as before. -/
theorem State.heard_ports {p : Nat} (hp : p ∈ s.portsInRun) : p ∈ (s.heard h arr).portsInRun ∧ (s.heard h arr).face p = s.face p := by
  obtain ⟨hmem, h6⟩ := List.mem_filter.1 hp
  refine ⟨List.mem_filter.2 ⟨hmem, decide_eq_true ((State.heard_cget h arr ?_ ?_ ?_).trans (of_decide_eq_true h6))⟩,
    State.heard_cget h arr ?_ ?_ ?_⟩ <;>
    simp only [Fld.key, PL_STAT_STATE, PL_CTRL_FACE, TWIN_STAT_PARTNER, TWIN_STAT_CID_ERR, TWIN_TDIFF_D] <;> omega

theorem State.heard_role : (s.heard h arr).role = s.role := State.heard_cget h arr (by decide) (by decide) (by decide)

end heard

theorem heartbeatReceived_clause (s : State) (b : List Byte) (arr : Int) (h0 : s.role ≠ 0) : let h := hbOf b
    (b.length ≠ 64 ∨ bodyNat b 56 4 ≠ crc32c (b.take 56 ++ leBytes 4 0) → exec (.heartbeatReceived b arr) s = .next s) ∧
    (b.length = 64 → bodyNat b 56 4 = crc32c (b.take 56 ++ leBytes 4 0) → ∃ u, exec (.heartbeatReceived b arr) s = .next u ∧
      u.con TWIN_STAT_PARTNER = true ∧ u.twin.peer = some h ∧
      u.twin.peerTick = s.tm.tick ∧ u.con TWIN_STAT_CID_ERR = decide (h.cid.toNat ≠ s.cid) ∧
      (s.role = 1 → h.role = 3 ∨ h.role = 4 → u.role = 2 ∧ u.twin.storing = false ∧
        ∀ p ∈ s.portsInRun, s.feLive p = true → u.fget p (LNK_CTRL_CHECK (s.face p)) = 1) ∧
      (s.role ≠ 1 ∨ (h.role ≠ 3 ∧ h.role ≠ 4) → u.role = s.role ∧ u.freg = s.freg)) := by
  intro h
  have hgood : hbGood b = true ↔ b.length = 64 ∧ bodyNat b 56 4 = crc32c (b.take 56 ++ leBytes 4 0) := by
    rw [hbGood, Bool.and_eq_true, decide_eq_true_eq, decide_eq_true_eq]
  refine ⟨fun hbad => ?_, fun h1 h2 => ?_⟩
  · have hg : hbGood b = false := Bool.eq_false_iff.2 fun hg => hbad.elim (· (hgood.1 hg).1) (· (hgood.1 hg).2)
    exact congrArg Host.Outcome.next (if_pos (.inr (by rw [hg]; rfl)))
  · have hno : ¬ (s.role = 0 ∨ (!(hbGood b)) = true) := by simp [h0, hgood.2 ⟨h1, h2⟩]
    have he : exec (.heartbeatReceived b arr) s = .next (if s.role = 1 ∧ (h.role = 3 ∨ h.role = 4) then (s.heard h arr).toStandby
        else s.heard h arr) :=
      congrArg Host.Outcome.next (if_neg hno)
    obtain ⟨hp, hc⟩ := State.heard_facts (s := s) h arr
    refine ⟨_, he, ?_⟩
    by_cases hs : s.role = 1 ∧ (h.role = 3 ∨ h.role = 4)
    · have ht := (s.heard h arr).toStandby_twin
      rw [if_pos hs]
      refine ⟨?_, by rw [ht]; rfl, by rw [ht]; rfl, ?_, fun _ _ => ⟨State.toStandby_role _, by rw [ht], fun p hpr hl => ?_⟩,
        fun hn => absurd hs fun ⟨e1, e2⟩ => hn.elim (· e1) fun ⟨n3, n4⟩ => e2.elim n3 n4⟩
      · rw [State.con, State.toStandby_cget (by decide)]
        exact hp
      · rw [State.con, State.toStandby_cget (by decide)]
        exact hc
      · obtain ⟨hpr', hface⟩ := State.heard_ports h arr hpr
        rw [← hface]
        exact State.toStandby_check hpr' (fun e => absurd ((State.heard_role h arr).symm.trans e) (by rw [hs.1]; decide)) hl
    · rw [if_neg hs]
      exact ⟨hp, rfl, rfl, hc, fun e1 e2 => absurd ⟨e1, e2⟩ hs, fun _ => ⟨State.heard_role h arr, rfl⟩⟩

/-! ### Answers to the commands of a switch -/

/-- `t` is `s` after some replies. -/
structure Answered (s t : State) : Prop where
  same : t = { s with creg := t.creg, upl := t.upl, sp := t.sp }
  regs : ∀ f : Fld, offQueues f → t.cget f = s.cget f

theorem Answered.trans {s t u : State} (h1 : Answered s t) (h2 : Answered t u) : Answered s u :=
  ⟨by rw [h2.same, h1.same], fun f hf => (h2.regs f hf).trans (h1.regs f hf)⟩

theorem State.finishLong_answered (s : State) (l : LongCmd) (st : Nat) (body : List Byte) : Answered s (s.finishLong l st body) := by
  obtain ⟨-, hsame, hregs⟩ := (s.modSp fun x => { x with longs := x.longs.filter fun y => decide (y ≠ l) }).reply_any l.group l.service
    l.cmd l.tag st body
  refine ⟨?_, hregs⟩
  unfold State.finishLong
  rw [hsame]
  rfl

theorem State.endSwitch_answered (s : State) (st : Nat) : Answered s (s.endSwitch st) :=
  List.foldlRecOn (motive := Answered s) _ _ ⟨rfl, fun _ _ => rfl⟩ fun _ hz l _ => hz.trans (State.finishLong_answered _ l st [])

/-- The one command in progress is answered for good. -/
theorem State.endSwitch_one {s : State} {l : LongCmd} (hl : s.sp.longs = [l]) (h8 : l.service = 8) (st : Nat) :
    ∃ r, (s.endSwitch st).sp.replies.head? = some r ∧ r.status = st ∧ r.tag = l.tag ∧ (s.endSwitch st).sp.longs = [] := by
  have he : s.endSwitch st = s.finishLong l st [] := by
    unfold State.endSwitch
    rw [hl, show [l].filter (fun x => decide (x.service = 8)) = [l] by simp [h8]]
    rfl
  obtain ⟨⟨r, hr, hst, htag, -⟩, hsame, -⟩ := (s.modSp fun x => { x with longs := x.longs.filter fun y => decide (y ≠ l) }).reply_any
    l.group l.service l.cmd l.tag st []
  have hlongs := congrArg (fun z => z.sp.longs) hsame
  rw [he]
  refine ⟨r, hr, hst, htag, Eq.trans hlongs ?_⟩
  change s.sp.longs.filter (fun y => decide (y ≠ l)) = []
  rw [hl]
  simp

theorem State.downlinksOn_same (s : State) : s.downlinksOn = { s with ports := s.downlinksOn.ports } :=
  List.foldlRecOn (motive := fun y : State => y = { s with ports := y.ports }) _ _ rfl fun y hy p _ => by
    rw [hy]
    rfl

theorem State.toTaking_cget {s : State} {b : TakeBy} {f : Fld} (h : f.key ≠ TWIN_STAT_ROLE.key) : (s.toTaking b).cget f = s.cget f :=
  State.cget_cset_ne s TWIN_STAT_ROLE f 3 h

theorem State.toTaking_role (s : State) (b : TakeBy) : (s.toTaking b).role = 3 :=
  State.cget_cset_of_lt s (f := TWIN_STAT_ROLE) (v := 3) (by decide)

theorem partnerLoss_clause (s : State) (h0 : s.role ≠ 0) (hp : s.con TWIN_STAT_PARTNER = true)
    (hle : s.twin.peerTick ≤ s.tm.tick) : (s.tm.tick < s.twin.peerTick + 2500 * s.cget TWIN_CFG_HB_TMO → exec .partnerLoss s = .next s) ∧
    (s.twin.peerTick + 2500 * s.cget TWIN_CFG_HB_TMO ≤ s.tm.tick → ∃ u, exec .partnerLoss s = .next u ∧ u.con TWIN_STAT_PARTNER = false ∧
      u.cget TWIN_CNT_HB_LOST = min (s.cget TWIN_CNT_HB_LOST + 1) 255 ∧
      (s.role = 2 → u.role = 3 ∧ u.twin.by_ = .loss ∧ u.twin.lossTick = s.tm.tick) ∧
      (s.role = 5 → u.role = 3 ∧ u.twin.by_ = .abandon ∧
        ∀ l, s.sp.longs = [l] → l.service = 8 → ∃ r, u.sp.replies.head? = some r ∧ r.status = 8 ∧ r.tag = l.tag ∧ u.sp.longs = []) ∧
      (s.role ≠ 2 → s.role ≠ 5 → u.role = s.role)) := by
  have hlim : s.lossLimit = 2500 * s.cget TWIN_CFG_HB_TMO := by
    rw [State.lossLimit, ticksMs]
    omega
  refine ⟨fun h => ?_, fun h => ?_⟩
  · have hlt : s.since s.twin.peerTick < s.lossLimit := by
      rw [State.since, hlim]
      omega
    exact congrArg Host.Outcome.next (if_pos (.inr (.inr hlt)))
  · have hno : ¬ (s.role = 0 ∨ (!(s.con TWIN_STAT_PARTNER)) = true ∨ s.since s.twin.peerTick < s.lossLimit) := by
      rw [hp, State.since, hlim]
      simp [h0]
      omega
    let s1 := (s.cset TWIN_STAT_PARTNER 0).cbump TWIN_CNT_HB_LOST
    have he : exec .partnerLoss s = .next (if s.role = 2 then (s1.modTwin fun t => { t with fs := none }).toTaking .loss
        else if s.role = 5 then (s1.toTaking .abandon).downlinksOn.endSwitch 8 else s1) := congrArg Host.Outcome.next (if_neg hno)
    have h1 : s1.cget TWIN_STAT_PARTNER = 0 :=
      (State.cget_cset_ne _ TWIN_CNT_HB_LOST _ _ (by decide)).trans (State.cget_cset_of_lt _ (by decide))
    have h2 : s1.cget TWIN_CNT_HB_LOST = min (s.cget TWIN_CNT_HB_LOST + 1) 255 := by
      rw [State.cget_cbump_sat, State.cget_cset_ne _ _ _ _ (by decide)]
      rfl
    have hrole : s1.role = s.role := (State.cget_cset_ne _ _ _ _ (by decide)).trans (State.cget_cset_ne _ _ _ _ (by decide))
    refine ⟨_, he, ?_⟩
    by_cases h2r : s.role = 2
    · rw [if_pos h2r]
      refine ⟨?_, (State.toTaking_cget (by decide)).trans h2, fun _ => ⟨State.toTaking_role _ _, rfl, rfl⟩,
        fun e => absurd (h2r.symm.trans e) (by decide), fun e => absurd h2r e⟩
      rw [State.con_eq_false, State.toTaking_cget (by decide)]
      exact h1
    by_cases h5r : s.role = 5
    · rw [if_neg h2r, if_pos h5r]
      have ha := (s1.toTaking .abandon).downlinksOn.endSwitch_answered 8
      have hd := (s1.toTaking .abandon).downlinksOn_same
      have hk : ∀ f : Fld, offQueues f → ((s1.toTaking .abandon).downlinksOn.endSwitch 8).cget f = (s1.toTaking .abandon).cget f :=
        fun f hf => (ha.regs f hf).trans (State.cget_of_creg (congrArg State.creg hd) f)
      refine ⟨?_, ((hk _ (by unfold offQueues; decide)).trans (State.toTaking_cget (by decide))).trans h2,
        fun e => absurd e h2r, fun _ => ⟨(hk _ (by unfold offQueues; decide)).trans (State.toTaking_role _ _), ?_, fun l hl h8 => ?_⟩,
        fun _ e => absurd h5r e⟩
      · rw [State.con_eq_false, hk _ (by unfold offQueues; decide), State.toTaking_cget (by decide)]
        exact h1
      · rw [congrArg State.twin ha.same]
        exact congrArg (fun z => z.twin.by_) hd
      · exact State.endSwitch_one ((congrArg (fun z => z.sp.longs) hd).trans hl) h8 8
    · rw [if_neg h2r, if_neg h5r]
      exact ⟨State.con_eq_false.2 h1, h2, fun e => absurd e h2r, fun e => absurd e h5r, fun _ _ => hrole⟩

theorem startingTimeout_clause (s : State) (h1 : s.role = 1) (hle : s.twin.readyTick ≤ s.tm.tick) (w : Nat)
    (hw : w = if s.con TWIN_CFG_PREF = true then 2500 * s.cget TWIN_CFG_HB_TMO else 500000) :
    (s.tm.tick < s.twin.readyTick + w → exec .startingTimeout s = .next s) ∧
    (s.twin.readyTick + w ≤ s.tm.tick → ∃ u, exec .startingTimeout s = .next u ∧ u.role = 3 ∧ u.twin.by_ = .startUp ∧
      RegsSame s u [TWIN_STAT_ROLE]) := by
  have hlim : (if s.con TWIN_CFG_PREF = true then s.lossLimit else 2 * ticksSec) = w := by
    rw [hw, State.lossLimit, ticksMs, ticksSec]
    refine if_congr Iff.rfl ?_ rfl
    omega
  refine ⟨fun h => ?_, fun h => ?_⟩
  · have hno : ¬ (s.role = 1 ∧ (if s.con TWIN_CFG_PREF = true then s.lossLimit else 2 * ticksSec) ≤ s.since s.twin.readyTick) := by
      rw [hlim, State.since]
      omega
    exact congrArg Host.Outcome.next (if_neg hno)
  · have hyes : s.role = 1 ∧ (if s.con TWIN_CFG_PREF = true then s.lossLimit else 2 * ticksSec) ≤ s.since s.twin.readyTick := by
      rw [hlim, State.since]
      exact ⟨h1, by omega⟩
    have he : exec .startingTimeout s = .next (s.toTaking .startUp) := congrArg Host.Outcome.next (if_pos hyes)
    exact ⟨_, he, State.toTaking_role _ _, rfl, fun g hg => State.toTaking_cget (hg _ (List.mem_singleton.2 rfl))⟩

theorem dualResolve_clause (s : State) (h : Heartbeat) (t : Nat) (hr : s.role = 3 ∨ s.role = 4) (hpeer : s.twin.peer = some h)
    (hp : s.con TWIN_STAT_PARTNER = true) (hno : s.twin.noOwnerTick = some t) (ht : t + 250000 ≤ s.tm.tick) :
    (h.role = 4 → ∃ u, exec .dualResolve s = .next u ∧ u.role = 2 ∧ u.con TWIN_STAT_DUAL_SEEN = true ∧ u.twin.storing = false ∧
      u.regions = s.regions) ∧
    (h.role ≠ 4 → exec .dualResolve s = .next s) := by
  have he : exec .dualResolve s = .next (if (s.role = 3 ∨ s.role = 4) ∧ (decide (h.role = 4) && s.con TWIN_STAT_PARTNER) = true ∧
      ticksSec ≤ s.since t then (s.toStandby.cset TWIN_STAT_DUAL_SEEN 1).logBit TWIN_STAT_DUAL_SEEN else s) := by
    change execDualResolve s = _
    unfold execDualResolve
    rw [hpeer, hno]
  refine ⟨fun h4 => ?_, fun h4 => ?_⟩
  · rw [if_pos ⟨hr, by rw [hp, decide_eq_true h4]; rfl, by rw [State.since, ticksSec]; omega⟩] at he
    have hn := (s.toStandby.cset TWIN_STAT_DUAL_SEEN 1).logBit_notes TWIN_STAT_DUAL_SEEN 0xFF 0 0
    have hsame := hn.same
    have hc := s.toStandby_checked.same
    refine ⟨_, he, ?_, ?_, ?_, ?_⟩
    · rw [State.role, hn.regs _ (by unfold noteKey; decide), State.cget_cset_ne _ _ _ _ (by decide)]
      exact s.toStandby_role
    · rw [State.con_eq_true, hn.regs _ (by unfold noteKey; decide), State.cget_cset_same]
      decide
    · exact (congrArg (fun z => z.twin.storing) hsame).trans (congrArg TwinSt.storing s.toStandby_twin)
    · exact (congrArg State.regions hsame).trans (congrArg State.regions hc :)
  · rwa [if_neg (fun ⟨_, hn, _⟩ => absurd hn (by rw [decide_eq_false h4]; exact Bool.false_ne_true))] at he

/-! ### The cold standby -/

/-- A bad line is noted in the registers of its region. -/
theorem State.noteStatus_role (s : State) (a st : Nat) : (s.noteStatus a st).role = s.role := by
  obtain ⟨r, g, e, l, ha⟩ : ∃ r g e l, firnAddr a = (r, g, e, l) := ⟨_, _, _, _, rfl⟩
  have hr : r < 4 := by
    have h := bits_lt a 39 2
    rw [firnAddr, Prod.mk.injEq] at ha
    omega
  have hstack : stackOf r e l < 16 := by
    unfold stackOf
    omega
  by_cases h1 : st = 1
  · rw [h1, State.noteStatus_corrected ha]
    exact State.cget_cset_ne _ _ _ _ (by simp only [Fld.key, FRR_CORR_CNT, TWIN_STAT_ROLE]; omega)
  · by_cases h34 : st = 3 ∨ st = 4
    · obtain ⟨z, hz, -, -, hq⟩ := s.noteStatus_bad ha h34
      rw [State.role, hq.regs _ (by unfold queueKey; decide), State.cget_of_creg hz]
      unfold State.badLine
      rw [State.cget_cset_ne _ _ _ _ (by decide),
        State.cget_cset_ne _ _ _ _ (by simp only [Fld.key, FRR_BAD_ADDR, TWIN_STAT_ROLE]; omega), State.cbump, State.cadd,
        State.cget_cset_ne _ _ _ _ (by simp only [Fld.key, FRR_UNC_CNT, TWIN_STAT_ROLE]; omega),
        State.cget_of_creg (s.damage_creg r e).1]
      rfl
    · rw [State.noteStatus_plain ha ⟨h1, fun e => h34 (.inl e), fun e => h34 (.inr e)⟩]

theorem State.mvWriteFirn_role (s : State) (a : Nat) (bs : List Byte) : (s.mvWriteFirn a bs).2.role = s.role := by
  unfold State.mvWriteFirn
  split
  split <;> rfl

theorem State.lineStatus_role (s : State) (a : Nat) (raw : RawLine) : (s.lineStatus a raw).2.2.role = s.role := by
  have hst : ∀ r e l, (s.storedLine r e l).2.role = s.role := fun r e l => by
    have h : Drawn s (s.storedLine r e l).2 := State.storedLine_drawn (y := (s.storedLine r e l).1) rfl
    exact (congrArg State.role h :)
  unfold State.lineStatus
  dsimp only
  split
  · rfl
  · split
    · rfl
    · split
      · split <;> rfl
      · split
        · exact hst _ _ _
        · split <;> exact hst _ _ _

theorem State.patternLine_role (s : State) (r : Nat) (raw : RawLine) : (s.patternLine r raw).2.role = s.role := by
  unfold State.patternLine
  dsimp only
  split
  · rfl
  · rw [State.noteStatus_role, State.lineStatus_role, State.mvWriteFirn_role]
    rfl

/-- One region's line in the pattern test of all four. -/
def State.patternFold (raw : List RawLine) (x : Bool × State) (i : Nat) : Bool × State :=
  (x.1 && (x.2.patternLine i (raw.getD i ⟨[]⟩)).1, (x.2.patternLine i (raw.getD i ⟨[]⟩)).2)

theorem State.patternFold_role (raw : List RawLine) (s : State) (l : List Nat) : (l.foldl (State.patternFold raw) (true, s)).2.role = s.role :=
  List.foldlRecOn (motive := fun x : Bool × State => x.2.role = s.role) l _ rfl fun x hx i _ =>
    (x.2.patternLine_role i _).trans hx

/-- Without scratch extents nothing is written or read. -/
theorem State.patternFold_none (raw : List RawLine) {s : State} (h : ∀ r, r < 4 → s.scratch r = 0) :
    (List.range 4).foldl (State.patternFold raw) (true, s) = (true, s) :=
  List.foldlRecOn (motive := fun x : Bool × State => x = (true, s)) _ _ rfl fun x hx i hi => by
    have hp : s.patternLine i (raw.getD i ⟨[]⟩) = (true, s) := by
      unfold State.patternLine
      rw [h i (List.mem_range.1 hi)]
      rfl
    rw [hx, State.patternFold, hp]
    rfl

section due
variable {s : State} (h2 : s.role = 2)
include h2

theorem standbyPatternTest_clause (raw : List RawLine) (hready : s.con FRN_STAT_READY = true)
    (hdue : ∀ t, s.twin.patternTick = some t → t + 250 ≤ s.tm.tick) :
    ∃ u, exec (.standbyPatternTest raw) s = .next u ∧ u.twin.patternTick = some s.tm.tick ∧ u.role = 2 ∧
      ((∀ r, r < 4 → s.scratch r = 0) → u.twin.patternBad = false ∧ u.firn = s.firn) := by
  have hno : ¬ (s.role ≠ 2 ∨ (!(match s.twin.patternTick with | some t => decide (ticksMs 1 ≤ s.since t) | none => true)) = true ∨
      (!(s.con FRN_STAT_READY)) = true) := by
    cases ht : s.twin.patternTick with
    | none => simp [h2, hready]
    | some t =>
      have := hdue t ht
      have hd : ticksMs 1 ≤ s.since t := by rw [ticksMs, State.since]; omega
      simp [h2, hready, hd]
  have he : exec (.standbyPatternTest raw) s = .next (((List.range 4).foldl (State.patternFold raw) (true, s)).2.modTwin fun t =>
      { t with patternBad := !((List.range 4).foldl (State.patternFold raw) (true, s)).1, patternTick := some s.tm.tick }) :=
    congrArg Host.Outcome.next (if_neg hno)
  have hrole := State.patternFold_role raw s (List.range 4)
  have hnone := State.patternFold_none raw (s := s)
  generalize (List.range 4).foldl (State.patternFold raw) (true, s) = x at he hrole hnone
  refine ⟨_, he, rfl, hrole.trans h2, fun h0 => ?_⟩
  rw [hnone h0]
  exact ⟨rfl, rfl⟩

theorem healthReport_clause (hdue : ∀ t, s.twin.reportTick = some t → t + 250000 ≤ s.tm.tick) :
    ∃ u, exec .healthReport s = .next u ∧ u.twin.reportTick = some s.tm.tick ∧ u.role = 2 ∧ u.firn = s.firn := by
  have hno : ¬ (s.role ≠ 2 ∨ (!(match s.twin.reportTick with | some t => decide (ticksSec ≤ s.since t) | none => true)) = true) := by
    cases ht : s.twin.reportTick with
    | none => simp [h2]
    | some t =>
      have := hdue t ht
      have hd : ticksSec ≤ s.since t := by rw [ticksSec, State.since]; omega
      simp [h2, hd]
  have he : exec .healthReport s = .next ((s.draw.2.sendMon (bytesWords s.twinBody)).modTwin fun t =>
      { t with reportTick := some s.tm.tick }) := congrArg Host.Outcome.next (if_neg hno)
  have hq := s.draw.2.sendMon_queued (bytesWords s.twinBody)
  have hrole := (hq.regs TWIN_STAT_ROLE (by unfold queueKey; decide)).trans h2
  have hfirn := congrArg State.firn hq.same
  generalize s.draw.2.sendMon (bytesWords s.twinBody) = z at he hrole hfirn
  exact ⟨_, he, rfl, hrole, hfirn⟩

end due

theorem twinBody_facts (s : State) : s.twinBody.length = 72 ∧
    s.twinBody.take 8 = leBytes 4 (s.peek TWIN_STAT_ROLE.reg) ++ leBytes 4 (s.peek TWIN_HEALTH_BITS.reg) ∧
    ∀ h, s.twin.peer = some h → s.twinBody.drop 8 = hbBytes h := by
  have hlen : (leBytes 4 (s.peek TWIN_STAT_ROLE.reg) ++ leBytes 4 (s.peek TWIN_HEALTH_BITS.reg)).length = 8 := by
    rw [List.length_append, leBytes_length, leBytes_length]
  refine ⟨?_, List.take_left' hlen, fun h hp => ?_⟩
  · unfold State.twinBody
    rw [List.length_append, hlen]
    cases s.twin.peer with
    | none => exact congrArg (8 + ·) (leBytes_length 64 _)
    | some h => exact congrArg (8 + ·) (hbBytes_length h)
  · unfold State.twinBody
    rw [hp]
    exact List.drop_left' hlen

theorem twinStatus_clause (s : State) (j : Fin 8) (tag : BitVec 16) (ht : s.sp.taken = none)
    (hp : s.preReply (s.laneOf j) 8 1 tag.toNat = none) :
    ∃ u r, exec (.twinStatus j tag []) s = .next u ∧ u.sp.replies.head? = some r ∧ r.status = 0 ∧ r.body.length = 72 ∧
      r.body.take 8 = leBytes 4 (s.peek TWIN_STAT_ROLE.reg) ++ leBytes 4 (s.peek TWIN_HEALTH_BITS.reg) ∧
      (∀ h, s.twin.peer = some h → r.body.drop 8 = hbBytes h) ∧ u.twin = s.twin := by
  have he : exec (.twinStatus j tag []) s = .next (s.draw.2.reply (s.laneOf j) 8 1 tag.toNat 0 s.twinBody) :=
    congrArg Host.Outcome.next ((State.mailServe_of_none ht hp _).trans (if_pos rfl))
  obtain ⟨⟨r, hr, hst, -, hbody⟩, hsame, -⟩ := s.draw.2.reply_any (s.laneOf j) 8 1 tag.toNat 0 s.twinBody
  have htwin := congrArg State.twin hsame
  obtain ⟨h1, h2, h3⟩ := twinBody_facts s
  rw [← hbody] at h1 h2 h3
  exact ⟨_, r, he, hr, hst, h1, h2, h3, htwin⟩

/-- Settles O50: heartbeats carry the module's state and decide its role; a standby tests its scratch lines and reports. -/
theorem heartbeatsDecideTheRoles : Obligations.HeartbeatsDecideTheRoles := by
  unfold Obligations.HeartbeatsDecideTheRoles
  refine ⟨fun s h0 => ⟨congrArg Host.Outcome.next (if_pos (.inl h0)), congrArg Host.Outcome.next (if_pos (.inl h0))⟩, heartbeatSend_clause,
    heartbeatReceived_clause, partnerLoss_clause, startingTimeout_clause, dualResolve_clause, fun s raw h => ?_, fun s h2 => ?_,
    twinStatus_clause⟩
  · exact ⟨congrArg Host.Outcome.next (if_pos (.inl h)), congrArg Host.Outcome.next (if_pos (.inl h))⟩
  · exact ⟨standbyPatternTest_clause h2, healthReport_clause h2⟩

end Sys2Proof.Machine

/-! ## Seed state: pushes, segments and their judgement -/

namespace Sys2Proof.Machine

set_option Elab.async false

/-! ### The frames of a push -/

/-- The words of a segment's header: the push, the newest frame, the body and the segment's place and CRC. -/
def segHdr (push fmt fc len crc i n dcrc : Nat) : List W64 :=
  [packW [(0, 16, fmt), (16, 32, push)], packW [(0, 59, fc)], packW [(0, 21, len), (32, 32, crc)],
    packW [(0, 11, i), (11, 11, n), (32, 32, dcrc)]]

theorem segHdr_bytes (push fmt fc len crc i n dcrc : Nat) : (wordsBytes (segHdr push fmt fc len crc i n dcrc)).length = 32 :=
  wordsBytes_length _

theorem segHdr_fields (push fmt fc len crc i n dcrc : Nat) (data : List Byte) :
    let f := wordsBytes (segHdr push fmt fc len crc i n dcrc) ++ data
    bits (bodyNat f 0 8) 16 32 = push % 2 ^ 32 ∧ bodyNat f 0 2 = fmt % 2 ^ 16 ∧ bodyNat f 8 8 = fc % 2 ^ 59 ∧
      bits (bodyNat f 24 8) 11 11 = n % 2048 ∧ bodyNat f 28 4 = dcrc % 2 ^ 32 := by
  intro f
  have h0 : bodyNat f 0 8 = _ := bodyNat_wordsBytes (k := 0) (i := 0) (n := 8) rfl (by decide) data
  have h0' : bodyNat f 0 2 = _ := bodyNat_wordsBytes (k := 0) (i := 0) (n := 2) rfl (by decide) data
  have h1 : bodyNat f 8 8 = _ := bodyNat_wordsBytes (k := 1) (i := 0) (n := 8) rfl (by decide) data
  have h3 : bodyNat f 24 8 = _ := bodyNat_wordsBytes (k := 3) (i := 0) (n := 8) rfl (by decide) data
  have h3' : bodyNat f 28 4 = _ := bodyNat_wordsBytes (k := 3) (i := 4) (n := 4) rfl (by decide) data
  rw [h0, h0', h1, h3, h3']
  clear h0 h0' h1 h3 h3'
  simp only [packW, pack, BitVec.toNat_ofNat, bits]
  refine ⟨by omega, by omega, by omega, by omega, by omega⟩

section frames
variable {push fmt fc : Nat} {body : List Byte}

theorem seedFrames_length : (seedFrames push fmt fc body).length = (body.length + 1023) / 1024 := by
  unfold seedFrames
  rw [List.length_map, List.length_range]

/-- The header and the data of a segment. -/
theorem seedFrames_frame {f : List Byte} (hf : f ∈ seedFrames push fmt fc body) : f.length = 1056 ∧
    bits (bodyNat f 0 8) 16 32 = push % 2 ^ 32 ∧ bodyNat f 0 2 = fmt % 2 ^ 16 ∧ bodyNat f 8 8 = fc % 2 ^ 59 ∧
    bits (bodyNat f 24 8) 11 11 = (seedFrames push fmt fc body).length % 2048 ∧ bodyNat f 28 4 = crc32c (f.drop 32) := by
  rw [seedFrames_length]
  unfold seedFrames at hf
  obtain ⟨i, -, rfl⟩ := List.mem_map.1 hf
  dsimp only
  have hx : ((body.drop (1024 * i)).take 1024).length ≤ 1024 := List.length_take_le _ _
  generalize (body.drop (1024 * i)).take 1024 = x at hx
  have hdata : (x ++ List.replicate (1024 - x.length) 0).length = 1024 := by
    rw [List.length_append, List.length_replicate]
    omega
  generalize x ++ List.replicate (1024 - x.length) 0 = data at hdata
  have hb := segHdr_bytes push fmt fc body.length (crc32c body) i ((body.length + 1023) / 1024) (crc32c data)
  obtain ⟨h1, h2, h3, h4, h5⟩ := segHdr_fields push fmt fc body.length (crc32c body) i ((body.length + 1023) / 1024) (crc32c data) data
  unfold segHdr at hb h1 h2 h3 h4 h5
  refine ⟨?_, h1, h2, h3, h4, ?_⟩
  · rw [List.length_append, hb, hdata]
  · rw [h5, List.drop_left' hb]
    exact Nat.mod_eq_of_lt (crc32c_lt data)

end frames

/-! ### Pushes -/

theorem State.seedBytes_length (s : State) : 1 ≤ s.seedBytes.length ∧ s.seedBytes.length ≤ 1048576 := by
  have h : ((Config.seedBytes s.twin.pushSeq).take 1048576).length ≤ 1048576 := List.length_take_le _ _
  unfold State.seedBytes
  dsimp only
  generalize (Config.seedBytes s.twin.pushSeq).take 1048576 = bs at h
  cases bs with
  | nil => exact ⟨by decide, by decide⟩
  | cons b bs => exact ⟨Nat.succ_pos _, h⟩

theorem seedPush_clause (s : State) : (s.role ≠ 4 ∨ s.frozen 19 = true → exec .seedPush s = .next s) ∧
    (s.role = 4 → s.frozen 19 = false → (∀ t, s.twin.pushTick = some t → t + 62500 ≤ s.tm.tick) → ∃ u fs, exec .seedPush s = .next u ∧
      u.svcTx = .seed (s.cget TWIN_PEER_MAC) fs (s.seedBody none) :: s.svcTx ∧
      1 ≤ fs.length ∧ fs.length ≤ 1024 ∧ (∀ f ∈ fs, f.length = 1056 ∧ bits (bodyNat f 0 8) 16 32 = s.twin.pushSeq % 2 ^ 32 ∧
        bodyNat f 0 2 = s.seedFormat % 2 ^ 16 ∧ bodyNat f 8 8 = s.fcNow % 2 ^ 59 ∧ bits (bodyNat f 24 8) 11 11 = fs.length % 2048 ∧
        bodyNat f 28 4 = crc32c (f.drop 32)) ∧ u.twin.pushTick = some s.tm.tick ∧ u.twin.pushSeq = (s.twin.pushSeq + 1) % 2 ^ 32) := by
  refine ⟨fun h => congrArg Host.Outcome.next (if_pos (h.elim .inl fun hf => .inr (.inl hf))), fun h4 hf hdue => ?_⟩
  have hno : ¬ (s.role ≠ 4 ∨ s.frozen 19 = true ∨
      (!(match s.twin.pushTick with | some t => decide (ticksMs 250 ≤ s.since t) | none => true)) = true) := by
    cases ht : s.twin.pushTick with
    | none => simp [h4, hf]
    | some t =>
      have := hdue t ht
      have hd : ticksMs 250 ≤ s.since t := by rw [ticksMs, State.since]; omega
      simp [h4, hf, hd]
  have he : exec .seedPush s = .next (s.sendSeed none) := congrArg Host.Outcome.next (if_neg hno)
  obtain ⟨hmin, hmax⟩ := s.seedBytes_length
  refine ⟨_, seedFrames s.twin.pushSeq s.seedFormat s.fcNow s.seedBytes, he, rfl, ?_, ?_, fun f hf => seedFrames_frame hf, rfl, rfl⟩
  · rw [seedFrames_length]
    omega
  · rw [seedFrames_length]
    omega

theorem pushCmd_clause (s : State) (j : Fin 8) (tag : BitVec 16) (ht : s.sp.taken = none)
    (hp : s.preReply (s.laneOf j) 8 3 tag.toNat = none) :
    (s.role = 4 → s.frozen 19 = false → ∃ u r, exec (.pushCmd j tag []) s = .next u ∧ u.twin.pushSeq = (s.twin.pushSeq + 1) % 2 ^ 32 ∧
      u.svcTx.length = s.svcTx.length + 1 ∧ u.sp.replies.head? = some r ∧ r.status = 0) ∧
    (s.role ≠ 4 → ∃ u r, exec (.pushCmd j tag []) s = .next u ∧ u.twin = s.twin ∧ u.svcTx = s.svcTx ∧ u.sp.replies.head? = some r ∧
      r.status = 8) := by
  have he : exec (.pushCmd j tag []) s = .next (if s.role ≠ 4 ∨ s.frozen 19 = true then s.reply (s.laneOf j) 8 3 tag.toNat 8 []
      else (s.sendSeed none).reply (s.laneOf j) 8 3 tag.toNat 0 []) :=
    congrArg Host.Outcome.next ((State.mailServe_of_none ht hp _).trans (if_neg (by decide)))
  refine ⟨fun h4 hf => ?_, fun h4 => ?_⟩
  · rw [if_neg (by simp [h4, hf])] at he
    obtain ⟨⟨r, hr, hst, -⟩, hsame, -⟩ := (s.sendSeed none).reply_any (s.laneOf j) 8 3 tag.toNat 0 []
    have htwin := congrArg State.twin hsame
    have htx := congrArg State.svcTx hsame
    refine ⟨_, r, he, ?_, ?_, hr, hst⟩
    · rw [htwin]
      rfl
    · rw [htx]
      rfl
  · rw [if_pos (.inl h4)] at he
    obtain ⟨⟨r, hr, hst, -⟩, hsame, -⟩ := s.reply_any (s.laneOf j) 8 3 tag.toNat 8 []
    have htwin := congrArg State.twin hsame
    have htx := congrArg State.svcTx hsame
    exact ⟨_, r, he, htwin, htx, hr, hst⟩

/-! ### A push accepted -/

/-- The registers of a seed state applied. -/
def State.seedRegs (s : State) (l : List (W32 × W32)) : State :=
  l.foldl (fun (z : State) (e : W32 × W32) => z.applySeedReg e.1.toNat e.2.toNat) s

/-- The golden-copy words of a seed state applied. -/
def State.seedGold (s : State) (l : List (PortIx × BitVec 12 × W32)) : State :=
  l.foldl (fun (z : State) (e : PortIx × BitVec 12 × W32) => z.applySeedGold e.1.val e.2.1.toNat e.2.2.toNat) s

theorem State.seedGold_same (s : State) (l : List (PortIx × BitVec 12 × W32)) : s.seedGold l = { s with ports := (s.seedGold l).ports } :=
  List.foldlRecOn (motive := fun y : State => y = { s with ports := y.ports }) _ _ rfl fun y hy e _ => by
    unfold State.applySeedGold
    split
    · exact hy
    · rw [hy]
      rfl

/-- A seed state kept in NVM leaves notes only. -/
theorem State.storeSeed_notes (s : State) (x : Seed) : Notes s (s.storeSeed x) := by
  have h := (s.modNvm fun v => { v with seedTick := s.tm.tick, seed0 := if s.olderSeed = 0 then some x else v.seed0
                                        seed1 := if s.olderSeed = 1 then some x else v.seed1 }).program_notes (.seed s.olderSeed)
  have hn : Notes s _ := ⟨h.same.trans rfl, fun g hg => h.regs g hg⟩
  have hif : ∀ (c : Prop) [Decidable c] (y : State), Notes s y → Notes s (if c then s else y) := fun c _ y hy => by
    split
    · exact ⟨rfl, fun _ _ => rfl⟩
    · exact hy
  exact hif _ _ hn

/-- The seed state kept, its calibration taken over and its age and number shown. -/
def State.seedTaken (s : State) (x : Seed) : State :=
  ((((s.modSp fun y => { y with calResults := x.body.calib }).modTwin fun t => { t with
    seed := some x, push := none, fs := match x.body.fs with | some f => some f.toNat | none => t.fs }).cset TWIN_SEED_AGE 0).cset
    TWIN_SEED_SEQ x.push)

theorem State.acceptSeed_eq (s : State) (x : Seed) :
    s.acceptSeed x = (((s.seedRegs x.body.config).seedGold x.body.feWords).seedTaken x).storeSeed x := rfl

theorem State.seedTaken_facts (s : State) (x : Seed) : (s.seedTaken x).twin.seed = some x ∧ (s.seedTaken x).twin.push = none ∧
    (s.seedTaken x).cget TWIN_SEED_AGE = 0 ∧ (s.seedTaken x).cget TWIN_SEED_SEQ = x.push % 65536 ∧
    (s.seedTaken x).sp.calResults = x.body.calib ∧
    ∀ f : Fld, f.key ≠ TWIN_SEED_AGE.key → f.key ≠ TWIN_SEED_SEQ.key → (s.seedTaken x).cget f = s.cget f := by
  unfold State.seedTaken
  refine ⟨rfl, rfl, ?_, State.cget_cset_same _ _ _, rfl, fun f h1 h2 => ?_⟩
  · rw [State.cget_cset_ne _ _ _ _ (by decide)]
    exact State.cget_cset_of_lt _ (by decide)
  · rw [State.cget_cset_ne _ _ _ _ h2, State.cget_cset_ne _ _ _ _ h1]
    rfl

/-- What an accepted push leaves. -/
theorem State.acceptSeed_facts (s : State) (x : Seed) : let z := s.acceptSeed x
    z.twin.seed = some x ∧ z.twin.push = none ∧ z.cget TWIN_SEED_AGE = 0 ∧ z.cget TWIN_SEED_SEQ = x.push % 65536 ∧
    z.sp.calResults = x.body.calib ∧ ∀ f : Fld, f.key ≠ TWIN_SEED_AGE.key → f.key ≠ TWIN_SEED_SEQ.key → ¬ noteKey f.key →
      z.cget f = (s.seedRegs x.body.config).cget f := by
  obtain ⟨h1, h2, h3, h4, h5, h6⟩ := ((s.seedRegs x.body.config).seedGold x.body.feWords).seedTaken_facts x
  have hg := (s.seedRegs x.body.config).seedGold_same x.body.feWords
  have hn := (((s.seedRegs x.body.config).seedGold x.body.feWords).seedTaken x).storeSeed_notes x
  intro z
  rw [show z = _ from s.acceptSeed_eq x]
  generalize ((s.seedRegs x.body.config).seedGold x.body.feWords).seedTaken x = y at *
  refine ⟨?_, ?_, (hn.regs _ (by unfold noteKey; decide)).trans h3, (hn.regs _ (by unfold noteKey; decide)).trans h4, ?_, fun f hf hf' hk => ?_⟩
  · rw [hn.same]; exact h1
  · rw [hn.same]; exact h2
  · rw [hn.same]; exact h5
  · rw [hn.regs f hk, h6 f hf hf', State.cget_of_creg (congrArg State.creg hg)]
    rfl

/-! ### Register words of a seed state -/

/-- The word of the trigger's control register shows the arm bit it was made from. -/
theorem regWord_trgCtrl_arm {val : Fld → Nat} (h : ∀ f ∈ trgCtrlFields, val f < 2 ^ f.width) :
    bitAt (regWord val trgCtrlFields false) 2 = (val TRG_CTRL_ARM != 0) := by
  have hm : val TRG_CTRL_MODE < 4 := h _ (by decide)
  have ha : val TRG_CTRL_ARM < 2 := h _ (by decide)
  have hse : val TRG_CTRL_SEQ_EN < 2 := h _ (by decide)
  have hre : val TRG_CTRL_REQ_EN < 2 := h _ (by decide)
  have hpb : val TRG_CTRL_PRIM_BLK < 2 := h _ (by decide)
  have hpg : val TRG_CTRL_PRIM_GRPS < 16 := h _ (by decide)
  have hq : regWord val trgCtrlFields false / 2 ^ 2 % 2 = val TRG_CTRL_ARM := by
    simp only [regWord, trgCtrlFields, List.map_cons, List.map_nil, List.sum_cons, List.sum_nil, Bool.false_eq_true, if_false]
    generalize val TRG_CTRL_MODE = m at *
    generalize val TRG_CTRL_ARM = a at *
    generalize val TRG_CTRL_SEQ_EN = b at *
    generalize val TRG_CTRL_REQ_EN = c at *
    generalize val TRG_CTRL_PRIM_BLK = d at *
    generalize val TRG_CTRL_PRIM_GRPS = e at *
    simp only [TRG_CTRL_MODE, TRG_CTRL_ARM, TRG_CTRL_SEQ_EN, TRG_CTRL_REQ_EN, TRG_CTRL_PRIM_BLK, TRG_CTRL_PRIM_GRPS, reduceCtorEq, if_false]
    omega
  rw [bitAt, hq]
  interval_cases val TRG_CTRL_ARM <;> rfl

theorem findReg_srcPre : findReg regClasses 4 (TRG_SRC_PRE_PRE 0).reg = some ([TRG_SRC_PRE_PRE 0], false) := by decide +kernel

/-- The value that a seed state gives a field of register `a`. -/
def State.seedField (s : State) (a v : Nat) (hi : Bool) (f : Fld) : Nat :=
  match f.acc with
  | .rw | .rws => if keptField a f then s.cget f else f.merge (s.cget f) v hi
  | .lk | .lkSp => s.cget f
  | _ => 0

theorem State.seedField_rw (s : State) (a v : Nat) (hi : Bool) {f : Fld} (h : f.acc = .rw) :
    s.seedField a v hi f = if keptField a f then s.cget f else f.merge (s.cget f) v hi := by
  unfold State.seedField
  rw [h]

theorem State.applySeedReg_of_findReg (s : State) {a : Nat} (v : Nat) {fs : List Fld} {hi : Bool} (hr : findReg regClasses 4 a = some (fs, hi))
    (ha : 0x300000 ≤ a) (hg : (fs.any fun f => decide (f.acc = .guarded)) = false) :
    s.applySeedReg a v = (s.busWrite 19 a (regWord (s.seedField a v hi) fs hi)).1 := by
  have hno : ¬ ((0x200000 ≤ a ∧ a < 0x300000) ∨ (fs.any fun f => decide (f.acc = .guarded)) = true) := by
    rw [hg]
    simp only [Bool.false_eq_true, or_false]
    omega
  unfold State.applySeedReg
  rw [hr]
  exact if_neg hno

theorem State.applySeedReg_time (s : State) (v : Nat) : s.applySeedReg TIM_CTRL_SRC.reg v = s := by
  unfold State.applySeedReg
  split
  · rfl
  · exact if_pos (.inl (by decide))

section bus
variable {s : State} {v : Nat}

theorem State.busWrite_srcPre (m : Nat) : s.busWrite m (TRG_SRC_PRE_PRE 0).reg v = s.writeReg m (TRG_SRC_PRE_PRE 0).reg v := by
  have ha : (TRG_SRC_PRE_PRE 0).reg = 0x500400 := rfl
  have href : s.refusal 0x500400 v = [] := by simp [State.refusal, State.timRefuse, State.frnRefuse, State.trgRefuse, proRefuse]
  have hhub : s.hubWrite m 0x500400 v = none := by simp [State.hubWrite]
  have hdata : ∀ l, s.dataWrite m 0x500400 v l = none := fun l => by simp [State.dataWrite]
  have hmap : controlMapped 0x500400 = true := by decide
  have hfix : fixSource 0x500400 v = v := if_neg fun h => absurd h.1 (by decide)
  rw [ha]
  unfold State.busWrite State.busWriteTag
  simp only [href, hmap, hhub, hdata, hfix, Nat.reduceLeDiff, if_false, Nat.reduceEqDiff, Nat.reduceLT, Bool.not_true, Bool.false_eq_true, false_and]

theorem State.busWrite_trgCtrl (m : Nat) : s.busWrite m TRG_CTRL_ARM.reg v = s.opTrgCtrl m v := by
  have ha : TRG_CTRL_ARM.reg = 0x500000 := rfl
  have href : s.refusal 0x500000 v = [] := by simp [State.refusal, State.timRefuse, State.frnRefuse, State.trgRefuse, proRefuse]
  have hhub : s.hubWrite m 0x500000 v = none := by simp [State.hubWrite]
  have hdata : ∀ l, s.dataWrite m 0x500000 v l = some (s.opTrgCtrl m v) := fun l => by simp [State.dataWrite]
  have hmap : controlMapped 0x500000 = true := by decide
  rw [ha]
  unfold State.busWrite State.busWriteTag
  simp only [href, hmap, hhub, hdata, Nat.reduceLeDiff, if_false, Nat.reduceEqDiff, Nat.reduceLT, Bool.not_true, Bool.false_eq_true, false_and]

end bus

/-- A merged field of the low word is its bits of the word written. -/
theorem Fld.merge_low {f : Fld} {old v : Nat} (hold : old < 2 ^ f.width) (hf : f.lo + f.width ≤ 32) :
    f.merge old v false = bits v f.lo f.width := by
  have hw : min f.width (32 - f.lo) = f.width := by omega
  simp only [Fld.merge, Bool.false_eq_true, if_false, hw, Nat.div_eq_of_lt hold, Nat.zero_mul, Nat.zero_add]

theorem State.seedRegs_one (s : State) {a : Nat} (ha : a < 2 ^ 32) (v : W32) :
    s.seedRegs [(BitVec.ofNat 32 a, v)] = s.applySeedReg a v.toNat := by
  have h : (BitVec.ofNat 32 a).toNat = a := (BitVec.toNat_ofNat ..).trans (Nat.mod_eq_of_lt ha)
  rw [State.seedRegs, List.foldl_cons, List.foldl_nil, h]

/-- A seed state's word for a source's window is written. -/
theorem State.seedRegs_srcPre (s : State) (v : W32) :
    (s.seedRegs [(BitVec.ofNat 32 (TRG_SRC_PRE_PRE 0).reg, v)]).cget (TRG_SRC_PRE_PRE 0) = v.toNat % 2 ^ 20 := by
  have he : s.seedRegs [(BitVec.ofNat 32 (TRG_SRC_PRE_PRE 0).reg, v)] = s.applySeedReg (TRG_SRC_PRE_PRE 0).reg v.toNat :=
    s.seedRegs_one (by decide) v
  have hval : s.seedField (TRG_SRC_PRE_PRE 0).reg v.toNat false (TRG_SRC_PRE_PRE 0) = v.toNat % 2 ^ 20 := by
    rw [State.seedField_rw _ _ _ _ rfl, if_neg (by decide), Fld.merge_low (s.cget_lt _) (by decide), bits]
    exact congrArg (· % 2 ^ 20) (Nat.div_one _)
  have hword : regWord (s.seedField (TRG_SRC_PRE_PRE 0).reg v.toNat false) [TRG_SRC_PRE_PRE 0] false = v.toNat % 2 ^ 20 := by
    rw [regWord, List.map_singleton, List.sum_singleton, hval]
    simp only [TRG_SRC_PRE_PRE, reduceCtorEq, if_false, Bool.false_eq_true]
    omega
  rw [he, State.applySeedReg_of_findReg s _ findReg_srcPre (by decide) (by decide), State.busWrite_srcPre,
    State.cget_writeReg_rw findReg_srcPre (by decide) (List.pairwise_singleton _ _) _ _ (List.mem_singleton.2 rfl) rfl (by decide) (by decide), hword]
  simp only [bits, TRG_SRC_PRE_PRE]
  omega

/-- A seed state's word for the trigger's control register leaves the arm bit. -/
theorem State.seedRegs_arm (s : State) (v : W32) :
    (s.seedRegs [(BitVec.ofNat 32 TRG_CTRL_ARM.reg, v)]).con TRG_CTRL_ARM = s.con TRG_CTRL_ARM := by
  have he : s.seedRegs [(BitVec.ofNat 32 TRG_CTRL_ARM.reg, v)] = s.applySeedReg TRG_CTRL_ARM.reg v.toNat :=
    s.seedRegs_one (by decide) v
  have hr : findReg regClasses 4 TRG_CTRL_ARM.reg = some (trgCtrlFields, false) := findReg_trgCtrl
  have hlt : ∀ f ∈ trgCtrlFields, s.seedField TRG_CTRL_ARM.reg v.toNat false f < 2 ^ f.width := fun f hf => by
    have hacc : f.acc = .rw ∧ f.lo + f.width ≤ 32 := by
      revert f
      decide
    rw [State.seedField_rw _ _ _ _ hacc.1]
    split
    · exact s.cget_lt f
    · rw [Fld.merge_low (s.cget_lt f) hacc.2]
      exact bits_lt _ _ _
  have harm : s.seedField TRG_CTRL_ARM.reg v.toNat false TRG_CTRL_ARM = s.cget TRG_CTRL_ARM := by
    rw [State.seedField_rw _ _ _ _ rfl, if_pos (by decide)]
  rw [he, State.applySeedReg_of_findReg s _ hr (by decide) (by decide), State.busWrite_trgCtrl, State.con,
    (State.opTrgCtrl_facts s 19 _).1 _ (by decide)]
  exact (State.ctrlWritten_arm (s := s)).trans ((regWord_trgCtrl_arm hlt).trans (by rw [harm]; rfl))

/-! ### Segments -/

/-- A push of which one segment has arrived. -/
def firstRx (h : SeedHdr) (data : List Byte) (b : SeedBody) (tick : Nat) : PushRx :=
  { push := h.push.toNat, count := h.count.toNat, bodyLen := h.bodyLen.toNat, bodyCrc := h.bodyCrc.toNat, fmt := h.fmt.toNat
    fc := h.fc.toNat, body := b, tick := tick, got := [(h.idx.toNat, data)] }

theorem State.rejectSeed_facts (s : State) : s.rejectSeed.twin.seed = s.twin.seed ∧ s.rejectSeed.twin.push = none ∧
    s.rejectSeed.cget TWIN_CNT_SEED_REJ = min (s.cget TWIN_CNT_SEED_REJ + 1) 255 ∧ RegsSame s s.rejectSeed [TWIN_CNT_SEED_REJ] :=
  ⟨rfl, rfl, s.cget_cbump_sat _, fun _ hg => State.cget_cset_ne _ _ _ _ (hg _ (List.mem_singleton.2 rfl))⟩

section segment
variable {s : State} {h : SeedHdr} {data : List Byte} {b : SeedBody}

theorem exec_seedSegment_first (h2 : s.role = 2) (hf : s.frozen 19 = false) (hl : data.length = 1024) (hc : h.segCrc.toNat = crc32c data)
    (hp : s.twin.push = none) (hi : h.idx.toNat < h.count.toNat) : exec (.seedSegment h data b) s =
      .next (if h.count.toNat ≤ 1 then s.judgeSeed (firstRx h data b s.tm.tick)
        else s.modTwin fun t => { t with push := some (firstRx h data b s.tm.tick) }) := by
  have hno : ¬ (s.role ≠ 2 ∨ s.frozen 19 = true ∨ data.length ≠ 1024 ∨ h.segCrc.toNat ≠ crc32c data ∨
      h.count.toNat ≤ h.idx.toNat) := by
    simp [h2, hf, hl, hc]
    exact hi
  change execSeedSegment h data b s = _
  unfold execSeedSegment
  rw [if_neg hno, hp]
  rfl

theorem seedSegment_bad (hbad : data.length ≠ 1024 ∨ h.segCrc.toNat ≠ crc32c data ∨ h.count.toNat ≤ h.idx.toNat) :
    exec (.seedSegment h data b) s = .next s := congrArg Host.Outcome.next (if_pos (.inr (.inr hbad)))

/-- The bytes of a push of one segment. -/
theorem firstRx_bytes (h1 : h.count = 1) (h0 : h.idx = 0) (tick : Nat) : (firstRx h data b tick).bytes = data.take h.bodyLen.toNat := by
  have hc : (firstRx h data b tick).count = 1 := congrArg BitVec.toNat h1
  have hg : (firstRx h data b tick).got = [(0, data)] := congrArg (fun n => [(BitVec.toNat n, data)]) h0
  rw [PushRx.bytes, hc, hg]
  exact congrArg (List.take _) (List.append_nil data)

theorem judgeSeed_reject (h1 : h.count = 1) (h0 : h.idx = 0)
    (hbad : crc32c (data.take h.bodyLen.toNat) ≠ h.bodyCrc.toNat ∨ b.cid.toNat ≠ s.cid ∨ s.con TWIN_STAT_CID_ERR = true) :
    s.judgeSeed (firstRx h data b s.tm.tick) = s.rejectSeed := by
  have hno : ∀ fits : Bool, ¬ (decide (crc32c (firstRx h data b s.tm.tick).bytes = h.bodyCrc.toNat) && fits && decide (b.cid.toNat = s.cid) &&
      !(s.con TWIN_STAT_CID_ERR) && decide (s.since s.tm.tick ≤ ticksMs 250)) = true := fun fits => by
    rw [firstRx_bytes h1 h0]
    rcases hbad with hb | hb | hb <;> simp [hb]
  exact if_neg (hno _)

theorem judgeSeed_accept (h1 : h.count = 1) (h0 : h.idx = 0) {i : ImgHdr} (hi : s.runImage = some i)
    (hcrc : crc32c (data.take h.bodyLen.toNat) = h.bodyCrc.toNat) (hmin : i.seedMin.toNat ≤ h.fmt.toNat) (hmax : h.fmt.toNat ≤ i.seedFmt.toNat)
    (hcid : b.cid.toNat = s.cid) (herr : s.con TWIN_STAT_CID_ERR = false) : s.judgeSeed (firstRx h data b s.tm.tick) =
      s.acceptSeed { push := h.push.toNat, fmt := h.fmt.toNat, fc := h.fc.toNat, tick := s.tm.tick, body := b } := by
  have hb : crc32c (firstRx h data b s.tm.tick).bytes = (firstRx h data b s.tm.tick).bodyCrc := by
    rw [firstRx_bytes h1 h0]
    exact hcrc
  have hmin' : i.seedMin.toNat ≤ (firstRx h data b s.tm.tick).fmt := hmin
  have hmax' : (firstRx h data b s.tm.tick).fmt ≤ i.seedFmt.toNat := hmax
  have hcid' : (firstRx h data b s.tm.tick).body.cid.toNat = s.cid := hcid
  have hin : s.since (firstRx h data b s.tm.tick).tick ≤ ticksMs 250 := by
    rw [State.since, show (firstRx h data b s.tm.tick).tick = s.tm.tick from rfl, Nat.sub_self]
    exact Nat.zero_le _
  unfold State.judgeSeed
  rw [hi]
  exact if_pos (by simp [hb, hmin', hmax', hcid', herr, hin])

end segment

theorem seedTimeout_clause (s : State) (x : PushRx) (hx : s.twin.push = some x) :
    (s.tm.tick < x.tick + 62500 → exec .seedTimeout s = .next s) ∧
    (x.tick + 62500 ≤ s.tm.tick → ∃ u, exec .seedTimeout s = .next u ∧ u.twin.push = none ∧ u.twin.seed = s.twin.seed ∧
      u.cget TWIN_CNT_SEED_REJ = min (s.cget TWIN_CNT_SEED_REJ + 1) 255 ∧ RegsSame s u [TWIN_CNT_SEED_REJ]) := by
  have he : exec .seedTimeout s = .next (if ticksMs 250 ≤ s.since x.tick then s.rejectSeed else s) := by
    change execSeedTimeout s = _
    unfold execSeedTimeout
    rw [hx]
  have hiff : ticksMs 250 ≤ s.since x.tick ↔ x.tick + 62500 ≤ s.tm.tick := by
    rw [ticksMs, State.since]
    omega
  refine ⟨fun h => ?_, fun h => ?_⟩
  · rw [he, if_neg (by rw [hiff]; omega)]
  · rw [if_pos (hiff.2 h)] at he
    obtain ⟨h1, h2, h3, h4⟩ := s.rejectSeed_facts
    exact ⟨_, he, h2, h1, h3, h4⟩

/-- Settles O51: an ACTIVE module pushes its seed state in segments; a STANDBY takes over a whole push that fits and rejects any other. -/
theorem seedStateIsPushedAndJudged : Obligations.SeedStateIsPushedAndJudged := by
  unfold Obligations.SeedStateIsPushedAndJudged
  refine ⟨seedPush_clause, pushCmd_clause, fun s h data b h2 hf => ⟨seedSegment_bad, fun hl hc hp => ⟨fun hmany hi => ?_, fun h1 h0 => ?_⟩⟩,
    seedTimeout_clause⟩
  · have he := exec_seedSegment_first (b := b) h2 hf hl hc hp hi
    rw [if_neg (by omega)] at he
    exact ⟨_, _, he, rfl, rfl, rfl, rfl, rfl, fun _ _ => rfl⟩
  · have hcount : h.count.toNat = 1 := congrArg BitVec.toNat h1
    have hidx : h.idx.toNat = 0 := congrArg BitVec.toNat h0
    have he := exec_seedSegment_first (b := b) h2 hf hl hc hp (by omega)
    rw [if_pos (Nat.le_of_eq hcount)] at he
    refine ⟨fun i hi hcrc hmin hmax hcid herr => ?_, fun hbad => ?_⟩
    · rw [judgeSeed_accept h1 h0 hi hcrc hmin hmax hcid herr] at he
      obtain ⟨g1, g2, g3, g4, g5, g6⟩ := s.acceptSeed_facts
        { push := h.push.toNat, fmt := h.fmt.toNat, fc := h.fc.toNat, tick := s.tm.tick, body := b }
      refine ⟨_, he, g1, g2, g3, g4, g5, fun v hv => ?_, fun v hv => ?_, fun v hv => ?_⟩
      · rw [g6 _ (by decide) (by decide) (by unfold noteKey; decide), hv]
        exact s.seedRegs_srcPre v
      · rw [State.con, g6 _ (by decide) (by decide) (by unfold noteKey; decide), hv]
        exact s.seedRegs_arm v
      · rw [g6 _ (by decide) (by decide) (by unfold noteKey; decide), hv]
        rw [s.seedRegs_one (by decide), s.applySeedReg_time]
    · rw [judgeSeed_reject h1 h0 hbad] at he
      exact ⟨_, he, s.rejectSeed_facts⟩

end Sys2Proof.Machine

/-! ## Takeover and the planned switch -/

namespace Sys2Proof.Machine

set_option Elab.async false

/-! ### Storing from a frame -/

/-- `t` is `s` with slices calved and records put in the regions. -/
structure CalveOnly (s t : State) : Prop where
  same : t = { s with creg := t.creg, regions := t.regions, firn := t.firn }
  regs : ∀ f : Fld, 0x800000 ≤ f.reg → f.lo < 64 → t.cget f = s.cget f

namespace CalveOnly

variable {s t u : State}

theorem refl (s : State) : CalveOnly s s := ⟨rfl, fun _ _ _ => rfl⟩

theorem trans (h1 : CalveOnly s t) (h2 : CalveOnly t u) : CalveOnly s u :=
  ⟨by rw [h2.same, h1.same], fun f hf hl => (h2.regs f hf hl).trans (h1.regs f hf hl)⟩

theorem modRgn (h : CalveOnly s t) (r : Nat) (g : Region → Region) : CalveOnly s (t.modRgn r g) := by
  refine ⟨?_, h.regs⟩
  rw [h.same]
  rfl

theorem modFirn (h : CalveOnly s t) (g : FirnSt → FirnSt) : CalveOnly s (t.modFirn g) := by
  refine ⟨?_, h.regs⟩
  rw [h.same]
  rfl

end CalveOnly

section calve
variable (s : State)

theorem State.calveOne_only (k : Nat) : CalveOnly s (s.calveOne k) := by
  have h : CalveOnly s (s.freeSlice k) := by
    unfold State.freeSlice
    exact List.foldlRecOn (motive := CalveOnly s) _ _ ((CalveOnly.refl s).modFirn _) fun z hz r _ => hz.modRgn r _
  unfold State.calveOne State.setIxe
  exact h.modFirn _

theorem State.refreshEdges_only : CalveOnly s s.refreshEdges := by
  refine ⟨?_, fun f hf hl => ?_⟩
  · rw [s.refreshEdges_same]
  · have hk : ∀ g : Fld, g.reg < 0x800000 → g.lo < 64 → f.key ≠ g.key := fun g hg hg' => by
      simp only [Fld.key]
      omega
    unfold State.refreshEdges
    simp only []
    refine List.foldlRecOn (motive := fun z : State => z.cget f = s.cget f) _ _ ?_ fun z hz r hr => ?_
    · split
      · rfl
      · rw [State.cget_cset_ne _ _ _ _ (hk _ (by decide) (by decide)), State.cget_cset_ne _ _ _ _ (hk _ (by decide) (by decide))]
    · have hr4 := List.mem_range.1 hr
      rw [State.cget_cset_ne _ _ _ _ (hk _ (by simp only [FRR_STAT_READY]; omega) (by simp [FRR_STAT_READY])),
        State.cget_cset_ne _ _ _ _ (hk _ (by simp only [FRR_STAT_RETIRED]; omega) (by simp [FRR_STAT_RETIRED])),
        State.cget_cset_ne _ _ _ _ (hk _ (by simp only [FRR_STAT_PINNED]; omega) (by simp [FRR_STAT_PINNED])), hz]

theorem State.calveSlices_eq (ks : List Nat) : s.calveSlices ks = (ks.foldl State.calveOne s).refreshEdges := by
  unfold State.calveSlices State.calveOne
  dsimp only

theorem State.calveSlices_only (ks : List Nat) : CalveOnly s (s.calveSlices ks) := by
  rw [State.calveSlices_eq]
  exact (List.foldlRecOn (motive := CalveOnly s) ks _ (.refl s) fun _ hz k _ => hz.trans (State.calveOne_only _ k)).trans
    (State.refreshEdges_only _)

/-- Every slice calved is CALVED. -/
theorem State.calveSlices_ixe {ks : List Nat} {k : Nat} (hk : k ∈ ks) : ((s.calveSlices ks).ixe k).state = 3 := by
  have h : ∀ (j : Nat) (l : List Nat) (z : State), (∃ k ∈ l, k % 131072 = j) ∨ (tget z.firn.index j {}).state = 3 →
      (tget (l.foldl State.calveOne z).firn.index j {}).state = 3 := by
    intro j l
    induction l with
    | nil => exact fun z h => h.resolve_left fun ⟨_, hm, _⟩ => absurd hm List.not_mem_nil
    | cons a l ih =>
      intro z h
      rw [List.foldl_cons]
      refine ih _ ?_
      rcases h with ⟨k, hm, hj⟩ | h
      · rcases List.mem_cons.1 hm with rfl | hm
        · exact .inr (z.calveOne_ixe _ _ (.inr hj))
        · exact .inl ⟨k, hm, hj⟩
      · exact .inr (z.calveOne_ixe _ _ (.inl h))
  rw [State.calveSlices_eq, State.refreshEdges_ixe, State.ixe]
  exact h _ ks s (.inl ⟨k, hk, rfl⟩)

end calve

/-- The record of the frames of the `i`th slice that frames `a` to `b` touch. -/
def lostRec (a b k i : Nat) : Crev :=
  { at_ := k, reason := 4, scope := 3, port := 0, frame := max a ((sliceOf a + i) * 256)
    frames := min b ((sliceOf a + i) * 256 + 255) + 1 - max a ((sliceOf a + i) * 256), lost := 0xFFFFFFFF }

/-- The record ends with the slice or with the last frame. -/
theorem lostRec_end {a b i : Nat} (k : Nat) (h : a ≤ b) (hi : i ≤ sliceOf b - sliceOf a) :
    (lostRec a b k i).frame + (lostRec a b k i).frames = min b ((sliceOf a + i) * 256 + 255) + 1 := by
  simp only [lostRec, sliceOf] at *
  omega

section records
variable (s : State) (a b k : Nat)

theorem State.lostRecords_eq :
    s.lostRecords a b k = (List.range (sliceOf b + 1 - sliceOf a)).foldl (fun z i => z.addCrev 0 (lostRec a b k i)) s := rfl

theorem State.lostRecords_only : CalveOnly s (s.lostRecords a b k) := by
  rw [State.lostRecords_eq]
  exact List.foldlRecOn (motive := CalveOnly s) _ _ (.refl s) fun z hz i _ => hz.modRgn 0 _

theorem State.addCrevs_crevs (c : Nat → Crev) (l : List Nat) : ∀ z : State,
    ((l.foldl (fun z i => z.addCrev 0 (c i)) z).rgn 0).crevs = (z.rgn 0).crevs ++ l.map c := by
  induction l with
  | nil => exact fun z => (List.append_nil _).symm
  | cons i l ih =>
    intro z
    rw [List.foldl_cons, ih, State.addCrev, State.rgn_modRgn, List.append_assoc]
    rfl

theorem State.lostRecords_mem {i : Nat} (hi : i < sliceOf b + 1 - sliceOf a) : lostRec a b k i ∈ ((s.lostRecords a b k).rgn 0).crevs := by
  rw [State.lostRecords_eq, State.addCrevs_crevs]
  exact List.mem_append_right _ (List.mem_map.2 ⟨i, List.mem_range.2 hi, rfl⟩)

end records

section store
variable (s : State) (f k fc : Nat) (rec : Bool)

/-- The frame from which a module stores, shown. -/
def State.storeShown : State := (s.modTwin fun t => { t with storing := true, storeFrom := f, fs := none }).cset TWIN_FSTORE_F f

theorem State.storeFromFrame_only : CalveOnly (s.storeShown f) (s.storeFromFrame f k fc rec) := by
  have hc := (s.storeShown f).calveSlices_only (((s.storeShown f).retained.filter fun e => decide (e.slice < sliceOf f)).map IxEntry.slice)
  unfold State.storeFromFrame
  dsimp only
  split
  · exact hc.trans (State.lostRecords_only _ _ _ _)
  · exact hc

/-- What storing from frame `f` leaves of the roles and their registers. -/
theorem State.storeFromFrame_facts : let u := s.storeFromFrame f k fc rec
    u.twin = { s.twin with storing := true, storeFrom := f, fs := none } ∧ u.cget TWIN_FSTORE_F = f % 2 ^ 59 ∧
    ∀ g : Fld, 0x800000 ≤ g.reg → g.lo < 64 → g.key ≠ TWIN_FSTORE_F.key → u.cget g = s.cget g := by
  have h := s.storeFromFrame_only f k fc rec
  refine ⟨congrArg State.twin h.same, (h.regs _ (by decide) (by decide)).trans (State.cget_cset_same _ _ _), fun g hg hl hne => ?_⟩
  exact (h.regs g hg hl).trans (State.cget_cset_ne _ TWIN_FSTORE_F g f hne)

/-- The frames between the partner's last and the first stored have their records. -/
theorem State.storeFromFrame_records (h : fc + 1 < f) {i : Nat} (hi : i < sliceOf (f - 1) + 1 - sliceOf (fc + 1)) :
    lostRec (fc + 1) (f - 1) k i ∈ ((s.storeFromFrame f k fc true).rgn 0).crevs := by
  unfold State.storeFromFrame
  dsimp only
  rw [if_pos (by rw [Bool.true_and, decide_eq_true h])]
  exact State.lostRecords_mem _ _ _ _ hi

end store

/-! ### Takeover -/

section takeover
variable {s : State} (h3 : s.role = 3)
include h3

theorem takeoverAbandon_clause (hby : s.twin.by_ = .loss) (hst : s.twin.storing = false) (ht : s.twin.lossTick + 25000 ≤ s.tm.tick) :
    (s.ownsOne = false → ∃ u, exec .takeoverAbandon s = .next u ∧ u.role = 2 ∧ u.regions = s.regions ∧ u.twin.storing = false) ∧
    (s.ownsOne = true → exec .takeoverAbandon s = .next s) := by
  have he : exec .takeoverAbandon s = .next (if s.role = 3 ∧ (decide (s.twin.by_ = .loss) || decide (s.twin.by_ = .abandon)) = true ∧
      (!(decide (s.twin.by_ = .loss ∧ s.twin.storing = true))) = true ∧ ticksMs 100 ≤ s.since s.twin.lossTick ∧ (!s.ownsOne) = true then
      s.toStandby.logBit TWIN_STAT_ROLE else s) := rfl
  refine ⟨fun ho => ?_, fun ho => ?_⟩
  · have hdue : ticksMs 100 ≤ s.since s.twin.lossTick := by
      rw [ticksMs, State.since]
      omega
    rw [if_pos ⟨h3, by rw [hby]; rfl, by simp [hst], hdue, by rw [ho]; rfl⟩] at he
    have hn := s.toStandby.logBit_notes TWIN_STAT_ROLE 0xFF 0 0
    have hsame := hn.same
    have hc := s.toStandby_checked.same
    refine ⟨_, he, ?_, ?_, ?_⟩
    · rw [State.role, hn.regs _ (by unfold noteKey; decide)]
      exact s.toStandby_role
    · exact (congrArg State.regions hsame).trans (congrArg State.regions hc :)
    · exact (congrArg (fun z => z.twin.storing) hsame).trans (congrArg TwinSt.storing s.toStandby_twin)
  · rw [he, if_neg fun ⟨_, _, _, _, hn⟩ => absurd hn (by rw [ho]; decide)]

section start
variable (hown : s.ownsOne = true) (hst : s.twin.storing = false)
include hown hst

theorem storeStart_startUp (hby : s.twin.by_ = .startUp) : ∃ u, exec .takeoverStoreStart s = .next u ∧ u.twin.storing = true ∧
    u.twin.storeFrom = s.frame + 1 ∧ RegsSame s u [] ∧ u.regions = s.regions := by
  have he : exec .takeoverStoreStart s = .next (s.modTwin fun t => { t with storing := true, storeFrom := s.frame + 1, fs := none }) := by
    change execTakeoverStoreStart s = _
    unfold execTakeoverStoreStart
    dsimp only
    rw [if_pos ⟨h3, hown⟩, hby]
    exact congrArg Host.Outcome.next (if_neg (by rw [hst]; decide))
  exact ⟨_, he, rfl, rfl, fun _ _ => rfl, rfl⟩

/-- The takeover counted and the partner's newest frame shown. -/
def State.takeoverShown (s : State) : State :=
  ((s.cbump TWIN_CNT_TKO).cset TWIN_FC_F s.peerFc).when s.seedStale fun z => z.cset TWIN_STAT_STALE_TKO 1

omit h3 hown hst in
theorem peerFc_lt (s : State) : s.peerFc < 2 ^ 59 := by
  unfold State.peerFc
  cases s.twin.peer with
  | none => exact Nat.two_pow_pos 59
  | some h => exact h.fc.isLt

omit h3 hown hst in
theorem takeoverShown_facts (s : State) : s.takeoverShown.cget TWIN_CNT_TKO = min (s.cget TWIN_CNT_TKO + 1) 255 ∧
    s.takeoverShown.cget TWIN_FC_F = s.peerFc ∧ (s.seedStale = true → s.takeoverShown.con TWIN_STAT_STALE_TKO = true) := by
  have h1 : ((s.cbump TWIN_CNT_TKO).cset TWIN_FC_F s.peerFc).cget TWIN_CNT_TKO = min (s.cget TWIN_CNT_TKO + 1) 255 :=
    (State.cget_cset_ne _ _ _ _ (by decide)).trans (s.cget_cbump_sat _)
  have h2 : ((s.cbump TWIN_CNT_TKO).cset TWIN_FC_F s.peerFc).cget TWIN_FC_F = s.peerFc := State.cget_cset_of_lt _ (peerFc_lt s)
  unfold State.takeoverShown
  cases s.seedStale with
  | false => exact ⟨h1, h2, nofun⟩
  | true =>
    refine ⟨(State.cget_cset_ne _ TWIN_STAT_STALE_TKO _ 1 (by decide)).trans h1,
      (State.cget_cset_ne _ TWIN_STAT_STALE_TKO _ 1 (by decide)).trans h2, fun _ => State.con_eq_true.2 ?_⟩
    have hc := State.cget_cset_same ((s.cbump TWIN_CNT_TKO).cset TWIN_FC_F s.peerFc) TWIN_STAT_STALE_TKO 1
    exact fun e => absurd (hc.symm.trans e) (by decide)

theorem storeStart_loss (hby : s.twin.by_ = .loss) : ∃ u, exec .takeoverStoreStart s = .next u ∧ u.twin.storing = true ∧
    u.twin.storeFrom = s.frame + 1 ∧ u.cget TWIN_CNT_TKO = min (s.cget TWIN_CNT_TKO + 1) 255 ∧ u.cget TWIN_FC_F = s.peerFc ∧
    u.cget TWIN_FSTORE_F = (s.frame + 1) % 2 ^ 59 ∧ (s.seedStale = true → u.con TWIN_STAT_STALE_TKO = true) ∧
    ∀ a b, a = s.peerFc + 1 → b = s.frame → 0 < s.peerFc → a ≤ b → ∀ i, i ≤ sliceOf b - sliceOf a → ∃ c ∈ (u.rgn 0).crevs,
      c.reason = 4 ∧ c.scope = 3 ∧ c.lost = 0xFFFFFFFF ∧ c.at_ = s.tm.tick + 1 ∧ c.frame = max a ((sliceOf a + i) * 256) ∧
      c.frame + c.frames = min b ((sliceOf a + i) * 256 + 255) + 1 := by
  have he : exec .takeoverStoreStart s =
      .next (s.takeoverShown.storeFromFrame (s.frame + 1) (s.tm.tick + 1) s.peerFc (decide (0 < s.peerFc))) := by
    change execTakeoverStoreStart s = _
    unfold execTakeoverStoreStart
    dsimp only
    rw [if_pos ⟨h3, hown⟩, hby]
    exact congrArg Host.Outcome.next (if_neg (by rw [hst]; decide))
  obtain ⟨htwin, hf, hregs⟩ := s.takeoverShown.storeFromFrame_facts (s.frame + 1) (s.tm.tick + 1) s.peerFc (decide (0 < s.peerFc))
  obtain ⟨hcnt, hfc, hstale⟩ := takeoverShown_facts s
  refine ⟨_, he, by rw [htwin], by rw [htwin], (hregs _ (by decide) (by decide) (by decide)).trans hcnt,
    (hregs _ (by decide) (by decide) (by decide)).trans hfc, hf, fun h => ?_, fun a b ha hb h0 hab i hi => ?_⟩
  · rw [State.con, hregs _ (by decide) (by decide) (by decide)]
    exact hstale h
  · subst ha hb
    have hle : sliceOf (s.peerFc + 1) ≤ sliceOf s.frame := Nat.div_le_div_right hab
    have hrec := s.takeoverShown.storeFromFrame_records (s.frame + 1) (s.tm.tick + 1) s.peerFc (by omega) (i := i)
      (by rw [Nat.add_sub_cancel]; omega)
    rw [Nat.add_sub_cancel] at hrec
    rw [decide_eq_true h0]
    exact ⟨_, hrec, rfl, rfl, rfl, rfl, rfl, lostRec_end _ hab hi⟩

end start

end takeover

theorem storeStart_planned (s : State) (f : Nat) (h2 : s.role = 2) (hfs : s.twin.fs = some f) (h0 : 0 < f) :
    (s.frame < f + 1 → exec .takeoverStoreStart s = .next s) ∧
    (f + 1 ≤ s.frame → ∃ u, exec .takeoverStoreStart s = .next u ∧ u.role = 3 ∧ u.twin.by_ = .planned ∧ u.twin.storing = true ∧
      u.twin.storeFrom = f + 1 ∧ u.cget TWIN_FSTORE_F = (f + 1) % 2 ^ 59 ∧
      ∃ c ∈ (u.rgn 0).crevs, c.reason = 4 ∧ c.scope = 3 ∧ c.frame = f ∧ c.frames = 1 ∧ c.lost = 0xFFFFFFFF) := by
  have he : exec .takeoverStoreStart s = .next (if f + 1 ≤ s.frame then
      (s.toTaking .planned).storeFromFrame (f + 1) (s.tm.tick + (f + 1) - s.frame) (f - 1) true else s) := by
    change execTakeoverStoreStart s = _
    unfold execTakeoverStoreStart
    dsimp only
    rw [if_neg fun h => absurd (h2.symm.trans h.1) (by decide), if_pos h2, hfs]
  refine ⟨fun h => by rw [he, if_neg (by omega)], fun h => ?_⟩
  rw [if_pos h] at he
  obtain ⟨htwin, hf, hregs⟩ := (s.toTaking .planned).storeFromFrame_facts (f + 1) (s.tm.tick + (f + 1) - s.frame) (f - 1) true
  have hrec := (s.toTaking .planned).storeFromFrame_records (f + 1) (s.tm.tick + (f + 1) - s.frame) (f - 1) (by omega) (i := 0)
    (by rw [Nat.add_sub_cancel, Nat.sub_add_cancel h0]; omega)
  have hframe : (lostRec (f - 1 + 1) (f + 1 - 1) (s.tm.tick + (f + 1) - s.frame) 0).frame = f ∧
      (lostRec (f - 1 + 1) (f + 1 - 1) (s.tm.tick + (f + 1) - s.frame) 0).frames = 1 := by
    simp only [lostRec, sliceOf]
    omega
  exact ⟨_, he, (hregs _ (by decide) (by decide) (by decide)).trans (State.toTaking_role _ _), by rw [htwin]; rfl, by rw [htwin],
    by rw [htwin], hf, _, hrec, rfl, rfl, hframe.1, hframe.2, rfl⟩

/-! ### The run state taken over -/

section run
variable {s : State} {x : Seed} (hx : s.twin.seed = some x) (hr : x.body.runRegs = [])

/-- The control word that takes over the mode and the arm bit of a seed state. -/
def State.runWord (s : State) (x : Seed) : Nat := s.peek TRG_CTRL_MODE.reg / 8 * 8 + 4 * b2n x.body.arm + x.body.mode.toNat

/-- The period of the monitor summary taken over. -/
def State.runPeriod (s : State) (x : Seed) : State :=
  s.modSp fun y => { y with monPeriod := if x.body.monPeriod = 0 then none else some x.body.monPeriod.toNat }

include hx hr in
theorem State.applyRun_eq : s.applyRun = ((s.runPeriod x).opTrgCtrl 19 (s.runWord x)).1 := by
  unfold State.applyRun
  rw [hx]
  dsimp only
  rw [hr, List.foldl_nil]
  exact congrArg Prod.fst (State.busWrite_trgCtrl (s := s.runPeriod x) (v := s.runWord x) 19)

/-- A write of the control register leaves every register above the trigger unit's. -/
theorem State.opTrgCtrl_cget_high (s : State) (m v : Nat) {f : Fld} (h : 0x800000 ≤ f.reg) : (s.opTrgCtrl m v).1.cget f = s.cget f := by
  have hne : ∀ g : Fld, g.key < 0x800000 * 64 → f.key ≠ g.key := fun g hg e => by
    rw [← e, Fld.key] at hg
    omega
  have hw : (s.writeReg m TRG_CTRL_MODE.reg v).1.cget f = s.cget f :=
    State.writeReg_cget_ne findReg_trgCtrl (by decide) m v fun g hg => hne g (by revert hg; revert g; decide)
  rw [(s.opTrgCtrl_facts m v).1 f (hne _ (by decide))]
  unfold State.ctrlWritten
  split
  · rw [State.cget_cset_ne _ _ _ _ (hne _ (by decide)), State.cget_cset_ne _ _ _ _ (hne _ (by decide)),
      State.cget_cset_ne _ _ _ _ (hne _ (by decide)), hw]
  · rw [State.cget_cset_ne _ _ _ _ (hne _ (by decide)), hw]

theorem State.raise_rest (s : State) (f : Fld) : (s.raise f).trg = s.trg ∧ (s.raise f).sp = s.sp := by
  cases h : s.con f with
  | true => rw [State.raise_of_set s f h]; exact ⟨rfl, rfl⟩
  | false =>
    have hn := s.raise_notes f h
    exact ⟨hn.trg_eq, hn.sp_eq⟩

theorem State.runWord_bits (s : State) (h2 : x.body.mode.toNat ≤ 2) :
    s.runWord x % 4 = x.body.mode.toNat ∧ bitAt (s.runWord x) 2 = x.body.arm := by
  have hq : s.runWord x / 2 ^ 2 % 2 = b2n x.body.arm := by
    have hb : b2n x.body.arm < 2 := by cases x.body.arm <;> decide
    unfold State.runWord
    omega
  refine ⟨?_, ?_⟩
  · unfold State.runWord
    omega
  · rw [bitAt, hq]
    cases x.body.arm <;> rfl

end run

section complete
variable {s : State} (h3 : s.role = 3) (hst : s.twin.storing = true) (hfs : s.twin.fs = none)
include h3 hst hfs

theorem exec_takeoverComplete : exec .takeoverComplete s = .next (match s.twin.by_ with
    | .startUp => s.cset TWIN_STAT_ROLE 4
    | .planned => (s.applyRun.cset TWIN_STAT_ROLE 4).cbump TWIN_CNT_SWITCH
    | .abandon => ((s.cset TWIN_STAT_ROLE 4).raise TWIN_STAT_TKO_SEEN).logBit TWIN_STAT_TKO_SEEN
    | .loss => ((s.applyRun.cset TWIN_STAT_ROLE 4).raise TWIN_STAT_TKO_SEEN).logBit TWIN_STAT_TKO_SEEN) :=
  congrArg Host.Outcome.next (if_neg (by rw [h3, hst, hfs]; decide))

theorem takeoverComplete_startUp (hby : s.twin.by_ = .startUp) :
    ∃ u, exec .takeoverComplete s = .next u ∧ u.role = 4 ∧ RegsSame s u [TWIN_STAT_ROLE] := by
  have he := exec_takeoverComplete h3 hst hfs
  rw [hby] at he
  exact ⟨_, he, State.cget_cset_of_lt s (f := TWIN_STAT_ROLE) (v := 4) (by decide), (RegsSame.refl s _).cset _ _⟩

variable {x : Seed} (hx : s.twin.seed = some x) (hr : x.body.runRegs = [])
include hx hr

theorem takeoverComplete_planned (hby : s.twin.by_ = .planned) : ∃ u, exec .takeoverComplete s = .next u ∧ u.role = 4 ∧
    u.cget TWIN_CNT_SWITCH = min (s.cget TWIN_CNT_SWITCH + 1) 255 := by
  have he := exec_takeoverComplete h3 hst hfs
  rw [hby] at he
  refine ⟨_, he, (State.cget_cset_ne _ TWIN_CNT_SWITCH TWIN_STAT_ROLE _ (by decide)).trans (State.cget_cset_of_lt _ (by decide)), ?_⟩
  rw [State.cget_cbump_sat, State.cget_cset_ne _ _ _ _ (by decide), State.applyRun_eq hx hr, State.opTrgCtrl_cget_high _ _ _ (by decide)]
  rfl

theorem takeoverComplete_loss (hby : s.twin.by_ = .loss) (h2 : x.body.mode.toNat ≤ 2) (harmed : s.con TRG_STAT_ARMED = false)
    (harm : s.con TRG_CTRL_ARM = false) :
    ∃ u, exec .takeoverComplete s = .next u ∧ u.role = 4 ∧ u.con TWIN_STAT_TKO_SEEN = true ∧ u.cget TRG_CTRL_MODE = x.body.mode.toNat ∧
      u.con TRG_CTRL_ARM = x.body.arm ∧ u.trg.armAsk = x.body.arm ∧
      u.sp.monPeriod = (if x.body.monPeriod = 0 then none else some x.body.monPeriod.toNat) := by
  have he := exec_takeoverComplete h3 hst hfs
  rw [hby] at he
  let y := s.applyRun.cset TWIN_STAT_ROLE 4
  have hn := (y.raise TWIN_STAT_TKO_SEEN).logBit_notes TWIN_STAT_TKO_SEEN 0xFF 0 0
  obtain ⟨htrg, hsp⟩ := y.raise_rest TWIN_STAT_TKO_SEEN
  obtain ⟨hmode, hbit⟩ := s.runWord_bits (x := x) h2
  obtain ⟨hregs, hask, -, -, hsame⟩ := (s.runPeriod x).opTrgCtrl_facts 19 (s.runWord x)
  have harm' : (s.runPeriod x).con TRG_CTRL_ARM = false := harm
  obtain ⟨hm, ha, -⟩ := State.ctrlWritten_accepted (s := s.runPeriod x) (m := 19) (v := s.runWord x) (by
    rw [hmode, harm']
    rintro (h | ⟨-, h⟩)
    · omega
    · cases h)
  have hk : ∀ f : Fld, ¬ noteKey f.key → f.key ≠ TWIN_STAT_TKO_SEEN.key → f.key ≠ TWIN_STAT_ROLE.key →
      f.key ≠ TRG_STAT_SEQ_STATE.key → ((y.raise TWIN_STAT_TKO_SEEN).logBit TWIN_STAT_TKO_SEEN).cget f =
        ((s.runPeriod x).ctrlWritten 19 (s.runWord x)).cget f :=
    fun f h1 h4 h5 h6 => by
      rw [hn.regs f h1, State.raise_regs y _ f h1 h4, State.cget_cset_ne _ _ _ _ h5, State.applyRun_eq hx hr, hregs f h6]
  have hrole : y.cget TWIN_STAT_ROLE = 4 := State.cget_cset_of_lt _ (by decide)
  have hyt : y.trg = ((s.runPeriod x).opTrgCtrl 19 (s.runWord x)).1.trg :=
    (congrArg State.trg (State.applyRun_eq hx hr) :)
  have hys : y.sp = ((s.runPeriod x).opTrgCtrl 19 (s.runWord x)).1.sp :=
    (congrArg State.sp (State.applyRun_eq hx hr) :)
  have hper := congrArg (fun z => z.sp.monPeriod) hsame
  have hstand : (s.runPeriod x).twinStandby = false := decide_eq_false (by rw [show (s.runPeriod x).cget TWIN_STAT_ROLE = 3 from h3]; decide)
  refine ⟨_, he, ?_, ?_, (hk _ (by unfold noteKey; decide) (by decide) (by decide) (by decide)).trans (hm.trans hmode), ?_, ?_, ?_⟩
  · rw [State.role, hn.regs _ (by unfold noteKey; decide), State.raise_regs y _ _ (by unfold noteKey; decide) (by decide)]
    exact hrole
  · rw [State.con_eq_true, hn.regs _ (by unfold noteKey; decide), State.raise_same y rfl (by unfold noteKey; decide)]
    decide
  · rw [State.con, hk _ (by unfold noteKey; decide) (by decide) (by decide) (by decide)]
    exact ha.trans hbit
  · rw [hn.trg_eq, htrg, hyt, hask, hbit, show (s.runPeriod x).con TRG_STAT_ARMED = false from harmed, hstand]
    exact (Bool.and_true _).trans (Bool.and_true _)
  · rw [hn.sp_eq, hsp, hys]
    exact hper

end complete

/-! ### The planned switch -/

theorem switchCmd_clause (s : State) (j : Fin 8) (tag : BitVec 16) (ht : s.sp.taken = none)
    (hp : s.preReply (s.laneOf j) 8 2 tag.toNat = none) :
    (s.role = 4 → s.partnerReady = true → ∃ u r, exec (.switchCmd j tag []) s = .next u ∧ u.sp.replies.head? = some r ∧ r.status = 1 ∧
      u.role = 5 ∧ u.twin.fs = some (s.frame + 64) ∧ u.svcTx.length = s.svcTx.length + 1 ∧
      ∃ l ∈ u.sp.longs, l.service = 8 ∧ l.cmd = 2 ∧ l.tag = tag.toNat) ∧
    (s.role ≠ 4 ∨ s.partnerReady = false → ∃ u r, exec (.switchCmd j tag []) s = .next u ∧ u.sp.replies.head? = some r ∧ r.status = 5 ∧
      u.twin = s.twin ∧ u.role = s.role) := by
  let z := ((s.sendSeed (some (s.frame + 64))).cset TWIN_STAT_ROLE 5).modTwin fun t => { t with fs := some (s.frame + 64), drainTick := none }
  have he : exec (.switchCmd j tag []) s = .next (if s.role ≠ 4 ∨ (!s.partnerReady) = true then s.reply (s.laneOf j) 8 2 tag.toNat 5 []
      else z.startLong j 8 2 tag.toNat [] []) := congrArg Host.Outcome.next ((State.mailServe_of_none ht hp _).trans (if_neg (by decide)))
  refine ⟨fun h4 hready => ?_, fun hno => ?_⟩
  · rw [if_neg (by simp [h4, hready])] at he
    have hz : z.cget TWIN_STAT_ROLE = 5 := State.cget_cset_of_lt (s.sendSeed (some (s.frame + 64))) (f := TWIN_STAT_ROLE) (v := 5) (by decide)
    obtain ⟨⟨r, hr, hst, -⟩, hsame, -⟩ := (z.modSp fun x => { x with longs := x.longs ++
      [{ lane := j, group := z.laneOf j, service := 8, cmd := 2, tag := tag.toNat, saved := [], arg := [] }] }).reply_any
      (z.laneOf j) 8 2 tag.toNat 1 []
    obtain ⟨-, -, hregs, hlong⟩ := z.startLong_facts j 8 2 tag.toNat [] []
    have htwin : (z.startLong j 8 2 tag.toNat [] []).twin = z.twin := (congrArg State.twin hsame :)
    have htx : (z.startLong j 8 2 tag.toNat [] []).svcTx = z.svcTx := (congrArg State.svcTx hsame :)
    refine ⟨_, r, he, hr, hst, (hregs _ (by unfold offQueues; decide)).trans hz, (congrArg TwinSt.fs htwin).trans rfl, ?_, hlong⟩
    rw [htx]
    rfl
  · have hno' : s.role ≠ 4 ∨ (!s.partnerReady) = true := hno.imp_right fun h => by rw [h]; rfl
    rw [if_pos hno'] at he
    obtain ⟨⟨r, hr, hst, -⟩, hsame, hregs⟩ := s.reply_any (s.laneOf j) 8 2 tag.toNat 5 []
    have htwin := congrArg State.twin hsame
    exact ⟨_, r, he, hr, hst, htwin, hregs _ (by unfold offQueues; decide)⟩

/-- Port `p` down, its downlink off. -/
def State.portOff (z : State) (p : Nat) : State := (z.plEnter p 0).modPort p fun x => { x with downlinkOn := false }

/-- Port `p` is down and sends nothing. -/
def State.Silent (z : State) (p : Nat) : Prop := z.plState p = 0 ∧ (z.port p).downlinkOn = false

theorem State.dropWaiting_port_ne (s : State) {p q : Nat} (h : p ≠ q) : (s.dropWaiting q).port p = s.port p := by
  unfold State.dropWaiting
  refine List.foldlRecOn (motive := fun z : State => z.port p = s.port p) _ _
    (State.port_modPort_ne _ _ h) fun z hz r _ => ?_
  split
  · exact hz
  · exact hz

theorem State.plDown_port_ne (s : State) {p q : Nat} (h : p ≠ q) : (s.plEnter q 0).port p = s.port p := by
  rw [State.plEnter_eq, if_neg (by decide), if_neg (by decide)]
  have hm : ∀ g, ((s.cset (PL_STAT_STATE q) 0).modPort q g).port p = s.port p := fun g => State.port_modPort_ne _ g h
  unfold State.plMove State.when
  split
  · rw [State.dropWaiting_port_ne _ h, hm]
  · exact hm _

theorem State.portOff_silent (z : State) (p : Nat) : (z.portOff p).Silent p := by
  refine ⟨(z.plEnter_plState p (by decide) (by decide) : (z.plEnter p 0).plState p = 0), ?_⟩
  unfold State.portOff
  rw [State.port_modPort]

theorem State.portOff_keeps {z : State} {p : Nat} (h : z.Silent p) (q : Nat) : (z.portOff q).Silent p := by
  by_cases hq : p = q
  · rw [hq]
    exact z.portOff_silent q
  · have hkey : (PL_STAT_STATE p).key ≠ (PL_STAT_STATE q).key := by
      simp only [Fld.key, PL_STAT_STATE]
      omega
    refine ⟨((z.plEnter_cget_ne q (by decide) hkey : (z.plEnter q 0).cget (PL_STAT_STATE p) = _)).trans h.1, ?_⟩
    have hp : (z.portOff q).port p = (z.plEnter q 0).port p := State.port_modPort_ne _ _ hq
    rw [hp, State.plDown_port_ne z hq]
    exact h.2

theorem State.portsOff_silent {p : Nat} : ∀ (l : List Nat) (z : State), p ∈ l ∨ z.Silent p → (l.foldl State.portOff z).Silent p := by
  intro l
  induction l with
  | nil => exact fun z h => h.resolve_left List.not_mem_nil
  | cons q l ih =>
    intro z h
    rw [List.foldl_cons]
    refine ih _ ?_
    rcases h with h | h
    · rcases List.mem_cons.1 h with rfl | h
      · exact .inr (z.portOff_silent p)
      · exact .inl h
    · exact .inr (z.portOff_keeps h q)

theorem switchStopStoring_clause (s : State) (f : Nat) (h5 : s.role = 5) (hfs : s.twin.fs = some f) (hd : s.twin.drainTick = none) :
    (s.frame < f + 1 → exec .switchStopStoring s = .next s) ∧
    (f + 1 ≤ s.frame → ∃ u, exec .switchStopStoring s = .next u ∧ u.twin.drainTick = some s.tm.tick ∧
      ∀ e ∈ s.ports, e.1 < 1024 → u.plState e.1 = 0 ∧ (u.port e.1).downlinkOn = false) := by
  have he : exec .switchStopStoring s = .next (if s.role = 5 ∧ s.twin.drainTick = none ∧ f + 1 ≤ s.frame then
      ((s.ports.map (·.1)).foldl State.portOff s).modTwin fun t => { t with drainTick := some s.tm.tick } else s) := by
    change execSwitchStopStoring s = _
    unfold execSwitchStopStoring
    rw [hfs]
    rfl
  refine ⟨fun h => ?_, fun h => ?_⟩
  · rw [he, if_neg fun hn => absurd hn.2.2 (by omega)]
  · rw [if_pos ⟨h5, hd, h⟩] at he
    refine ⟨_, he, rfl, fun e hm _ => ?_⟩
    exact State.portsOff_silent _ s (.inl (List.mem_map_of_mem hm))

theorem drainEnd_clause (s : State) (t : Nat) (h5 : s.role = 5) (hd : s.twin.drainTick = some t) (hle : t ≤ s.tm.tick) :
    (s.tm.tick < t + s.cget TWIN_CFG_DRAIN * 250000 → exec .drainEnd s = .next s) ∧
    (t + s.cget TWIN_CFG_DRAIN * 250000 ≤ s.tm.tick → s.firn.pins = [] → ∃ u, exec .drainEnd s = .next u ∧ u.role = 2 ∧
      u.twin.drainTick = none ∧ u.twin.fs = none ∧ u.twin.storing = false ∧ u.cget TWIN_CNT_SWITCH = min (s.cget TWIN_CNT_SWITCH + 1) 255 ∧
      (∀ e ∈ s.retained, (u.ixe e.slice).state = 3) ∧
      ∀ l, s.sp.longs = [l] → l.service = 8 → ∃ r, u.sp.replies.head? = some r ∧ r.status = 0 ∧ r.tag = l.tag ∧ u.sp.longs = []) := by
  have he : exec .drainEnd s = .next (if s.role = 5 ∧ s.cget TWIN_CFG_DRAIN * ticksSec ≤ s.since t then
      (((((s.firn.pins.filter fun e => e.2.active).map (·.1)).foldl (fun z n => z.releasePin n) s).calveSlices
        ((((s.firn.pins.filter fun e => e.2.active).map (·.1)).foldl (fun z n => z.releasePin n) s).retained.map
          IxEntry.slice)).downlinksOn.toStandby.cbump TWIN_CNT_SWITCH).endSwitch 0 else s) := by
    change execDrainEnd s = _
    unfold execDrainEnd
    rw [hd]
  refine ⟨fun h => ?_, fun h hpins => ?_⟩
  · rw [he, if_neg]
    rw [ticksSec, State.since]
    omega
  · rw [if_pos ⟨h5, by rw [ticksSec, State.since]; omega⟩, hpins] at he
    simp only [List.filter_nil, List.map_nil, List.foldl_nil] at he
    have hc := s.calveSlices_only (s.retained.map IxEntry.slice)
    have hix : ∀ e ∈ s.retained, ((s.calveSlices (s.retained.map IxEntry.slice)).ixe e.slice).state = 3 := fun e hm =>
      s.calveSlices_ixe (List.mem_map_of_mem hm)
    have hcnt := hc.regs TWIN_CNT_SWITCH (by decide) (by decide)
    have hsp : (s.calveSlices (s.retained.map IxEntry.slice)).sp = s.sp := (congrArg State.sp hc.same :)
    generalize s.calveSlices (s.retained.map IxEntry.slice) = c at he hix hcnt hsp
    have hon := c.downlinksOn_same
    have hst := c.downlinksOn.toStandby_checked.same
    have hends := (c.downlinksOn.toStandby.cbump TWIN_CNT_SWITCH).endSwitch_answered 0
    have htwin := (congrArg State.twin hends.same).trans c.downlinksOn.toStandby_twin
    have hlongs : (c.downlinksOn.toStandby.cbump TWIN_CNT_SWITCH).sp.longs = s.sp.longs :=
      ((congrArg (fun z => z.sp.longs) hst).trans (congrArg (fun z => z.sp.longs) hon :)).trans (congrArg SpSt.longs hsp)
    have hfirn : ((c.downlinksOn.toStandby.cbump TWIN_CNT_SWITCH).endSwitch 0).firn = c.firn :=
      (congrArg State.firn hends.same).trans ((congrArg State.firn hst).trans (congrArg State.firn hon :))
    refine ⟨_, he, ?_, by rw [htwin], by rw [htwin], by rw [htwin], ?_, fun e hm => ?_, fun l hl h8 => ?_⟩
    · rw [State.role, hends.regs _ (by unfold offQueues; decide)]
      exact (State.cget_cset_ne _ TWIN_CNT_SWITCH TWIN_STAT_ROLE _ (by decide)).trans (State.toStandby_role _)
    · rw [hends.regs _ (by unfold offQueues; decide), State.cget_cbump_sat, State.toStandby_cget (by decide),
        State.cget_of_creg (congrArg State.creg hon), ← hcnt]
      rfl
    · rw [State.ixe, hfirn]
      exact hix e hm
    · exact State.endSwitch_one (hlongs.trans hl) h8 0

/-- Settles O52: a takeover stores from the next frame with its reason-4 records and completes; a planned switch loses one frame. -/
theorem takeoverAndThePlannedSwitch : Obligations.TakeoverAndThePlannedSwitch := by
  unfold Obligations.TakeoverAndThePlannedSwitch
  refine ⟨fun s h3 hby hst ht => takeoverAbandon_clause h3 hby hst ht,
    fun s h3 hown hst => ⟨storeStart_startUp h3 hown hst, storeStart_loss h3 hown hst⟩, storeStart_planned, fun s h3 hst hfs => ?_,
    switchCmd_clause, switchStopStoring_clause, drainEnd_clause⟩
  exact ⟨takeoverComplete_startUp h3 hst hfs,
    fun x hx hr => ⟨takeoverComplete_planned h3 hst hfs hx hr, takeoverComplete_loss h3 hst hfs hx hr⟩⟩

end Sys2Proof.Machine

/-! ## Sensors, throttle and shutdown -/

namespace Sys2Proof.Machine

set_option Elab.async false

/-! ### Sensors -/

/-- A level that stood for three samples before changes with the fourth that agrees. -/
theorem judgeLevel_rise {level : Nat} {q : Int} (h : 4 * (level : Int) ≤ q) (run : Nat) :
    judgeLevel none run level q = if run + 1 < 4 then (none, run + 1) else (some level, 0) := by
  simp [judgeLevel, h]

theorem judgeLevel_below {level : Nat} {q : Int} (h : q < 4 * (level : Int)) (run : Nat) : judgeLevel none run level q = (none, 0) := by
  simp [judgeLevel, h]

theorem judgeLevel_fall {l : Nat} {q : Int} (h : q ≤ 4 * (l : Int) - 20) (level : Nat) : judgeLevel (some l) 3 level q = (none, 0) := by
  simp [judgeLevel, h]

theorem judgeLevel_stay {l : Nat} {q : Int} (h : 4 * (l : Int) - 20 < q) (run level : Nat) :
    judgeLevel (some l) run level q = (some l, 0) := by
  simp [judgeLevel, h]

section sampled
variable (x : Sensor) (tick warn throt rate hold : Nat) (q : Int)

theorem Sensor.sampled_broken : (x.sampled tick warn throt rate hold (some q) true).broken = true ↔ q < -160 ∨ 600 < q := by
  simp [Sensor.sampled]

variable {x throt q} in
/-- A sensor at rest goes into throttle with its fourth sample at the level. -/
theorem Sensor.sampled_throttled (hh : x.hot = false) (hr : x.throtRun = 3) (hq : 4 * (throt : Int) ≤ q) (ok : Bool) :
    (x.sampled tick warn throt rate hold (some q) ok).throt = some throt ∧ x.throttled = false := by
  simp only [Sensor.hot, Bool.or_eq_false_iff, Option.isSome_eq_false_iff, Option.isNone_iff_eq_none] at hh
  obtain ⟨⟨ht, -⟩, hb⟩ := hh
  constructor
  · change (judgeLevel x.throt x.throtRun throt q).1 = _
    rw [ht, hr, judgeLevel_rise hq]
    rfl
  · simp [Sensor.throttled, ht, hb]

end sampled

/-! ### Ports in RUN -/

theorem State.mem_regionInRun {s : State} {p r : Nat} :
    p ∈ s.regionInRun r ↔ (p ∈ s.ports.map (·.1) ∧ s.plState p = 6) ∧ p / 256 = r := by
  simp only [State.regionInRun, State.portsInRun, List.mem_filter, decide_eq_true_eq]

theorem State.regionInRun_of_same {s t : State} {p r : Nat} (hp : p ∈ s.regionInRun r) (hports : t.ports = s.ports)
    (hst : t.plState p = s.plState p) : p ∈ t.regionInRun r := by
  rw [State.mem_regionInRun] at hp ⊢
  rwa [hports, hst]

/-- A fast command is prepared for each of the ports it is for. -/
theorem State.sendFast_mem (code : Nat) {p : Nat} : ∀ (ps : List Nat) (s : State), (p ∈ ps ∨ code ∈ (s.port p).fastNext) →
    code ∈ ((s.sendFast ps code).port p).fastNext
  | [], _, h => h.resolve_left List.not_mem_nil
  | a :: ps, s, h => by
    unfold State.sendFast
    rw [List.foldl_cons]
    refine State.sendFast_mem code ps _ ?_
    by_cases hpa : p = a
    · right
      rw [hpa, port_modPort]
      exact List.mem_append_right _ (List.mem_singleton_self _)
    · refine h.imp (fun hm => (List.mem_cons.1 hm).resolve_left hpa) fun hm => ?_
      rwa [port_modPort_ne _ _ hpa]

theorem State.sendFast_same (code : Nat) : ∀ (ps : List Nat) (s : State), s.sendFast ps code = { s with ports := (s.sendFast ps code).ports }
  | [], _ => rfl
  | a :: ps, s => State.sendFast_same code ps (s.modPort a fun x => { x with fastNext := x.fastNext ++ [code] })

theorem State.sendFast_pro (s : State) (ps : List Nat) (code : Nat) : (s.sendFast ps code).pro = s.pro :=
  (congrArg State.pro (s.sendFast_same code ps) :)

/-! ### What a change of the power state leaves of the protection -/

theorem State.toIdle_pro (s : State) : s.toIdle.pro = s.pro := by
  unfold State.toIdle
  exact State.sendFast_pro _ _ _

theorem State.toIdle_cget (s : State) {f : Fld} (h : 0x900000 * 64 ≤ f.key) : s.toIdle.cget f = s.cget f := by
  have hk : ∀ g : Fld, g.key < 0x900000 * 64 → f.key ≠ g.key := fun g hg => by omega
  unfold State.toIdle
  dsimp only
  rw [State.cget_of_creg (State.sendFast_creg _ _ _), State.beginTrans,
    State.cget_cset_ne _ _ _ _ (hk GLB_STAT_TRANS (by decide))]
  exact State.cget_cset_ne _ _ _ _ (hk TRG_STAT_PWR_HELD (by decide))

theorem State.freeze_pro (s : State) (m : Nat) : (s.freeze m).pro = s.pro := by
  unfold State.freeze
  split
  · rfl
  split
  · rfl
  split
  · cases h : s.con FWL_CTRL_BK_THAW <;> rfl
  · rfl

theorem State.raise_pro (s : State) (f : Fld) : (s.raise f).pro = s.pro := by
  unfold State.raise
  split
  · rfl
  · exact (State.alarmAt_queued _ _).notes.pro_eq

theorem State.when_pro {s : State} (b : Bool) {g : State → State} (h : (g s).pro = s.pro) : (s.when b g).pro = s.pro := by
  cases b
  · rfl
  · exact h

theorem State.violation_pro (s : State) (m : Nat) (sp : Space) (key : Nat) (a : Access) : (s.violation m sp key a).pro = s.pro := by
  unfold State.violation
  dsimp only
  rw [(State.logBit_notes _ _ _ _ _).pro_eq]
  exact (State.raise_pro _ _).trans ((State.when_pro _ rfl).trans (s.freeze_pro m))

theorem State.mvHalt_pro (s : State) (c st : Nat) : (s.mvHalt c st).pro = s.pro := by
  unfold State.mvHalt State.mvBack State.guarded
  dsimp only
  split
  · rfl
  split
  · rfl
  · exact State.violation_pro _ _ _ _ _

theorem State.mvPowerDown_pro (s : State) : s.mvPowerDown.pro = s.pro := by
  unfold State.mvPowerDown
  refine List.foldlRecOn (motive := fun z : State => z.pro = s.pro) _ _ rfl fun z hz c _ => ?_
  split
  · exact hz
  split
  · exact (z.mvHalt_pro c 10).trans hz
  split <;> exact hz

theorem State.startTrans_pro (s : State) (target : Nat) : (s.startTrans target).pro = s.pro := by
  unfold State.startTrans
  dsimp only
  split
  · rfl
  split
  · split <;> exact s.toIdle_pro
  split
  · split
    · exact State.sendFast_pro _ _ _
    · exact State.mvPowerDown_pro _
  · split <;> rfl

theorem State.requestState_pro (s : State) (target : Nat) : (s.requestState target).pro = s.pro := by
  unfold State.requestState
  split
  · rfl
  · exact s.startTrans_pro target

/-! ### Throttle actions -/

/-- What the beginning of a throttle action leaves. -/
theorem State.throttleBegin_facts (s : State) (a : Nat) :
    (s.throttleBegin a).pro = { s.pro with actions := (s.throttleBegin a).pro.actions } ∧ a ∈ (s.throttleBegin a).pro.actions ∧
      ∀ f : Fld, 0x900000 * 64 ≤ f.key → (s.throttleBegin a).cget f = s.cget f := by
  unfold State.throttleBegin
  by_cases ha : a ∈ s.pro.actions
  · rw [if_pos (by simpa using ha)]
    exact ⟨rfl, ha, fun _ _ => rfl⟩
  · rw [if_neg (by simpa using ha)]
    have hmem : a ∈ s.pro.actions ++ [a] := List.mem_append_right _ (List.mem_singleton_self a)
    dsimp only
    split
    · rw [State.sendFast_pro]
      exact ⟨rfl, hmem, fun f _ => State.cget_of_creg (State.sendFast_creg _ _ _) f⟩
    split
    · exact ⟨rfl, hmem, fun _ _ => rfl⟩
    split
    · rw [State.toIdle_pro]
      exact ⟨rfl, hmem, fun f hf => State.toIdle_cget _ hf⟩
    · exact ⟨rfl, hmem, fun _ _ => rfl⟩

/-- A region's action sends STANDBY to its ports in RUN. -/
theorem State.throttleBegin_fast {s : State} {a p : Nat} (ha : a < 4) (hn : a ∉ s.pro.actions) (hp : p ∈ s.regionInRun a) :
    6 ∈ ((s.throttleBegin a).port p).fastNext := by
  unfold State.throttleBegin
  rw [if_neg (by simpa using hn), if_pos ha]
  exact State.sendFast_mem 6 _ _ (.inl (State.regionInRun_of_same hp rfl rfl))

theorem State.throttleStop_actions (s : State) (a : Nat) : (s.throttleStop a).pro.actions = s.pro.actions.erase a := by
  unfold State.throttleStop
  dsimp only
  split
  · split
    · rfl
    · rw [State.sendFast_pro]
      rfl
  split
  · rfl
  · rw [State.requestState_pro]
    rfl

theorem State.throttleStop_fast {s : State} {a p : Nat} (ha : a < 4) (hst : s.cget GLB_STAT_STATE = 1) (hp : p ∈ s.regionInRun a) :
    7 ∈ ((s.throttleStop a).port p).fastNext := by
  have hno : ¬ ((s.modPro fun x => { x with actions := x.actions.erase a }).cget GLB_STAT_STATE = 2 ∨
      (s.modPro fun x => { x with actions := x.actions.erase a }).cget GLB_STAT_STATE = 3) := by
    change ¬ (s.cget GLB_STAT_STATE = 2 ∨ s.cget GLB_STAT_STATE = 3)
    omega
  unfold State.throttleStop
  rw [if_pos ha, if_neg hno]
  exact State.sendFast_mem 7 _ _ (.inl (State.regionInRun_of_same hp rfl rfl))

/-! ### A sample of the concentrator -/

/-- The state with sensor `i` as its sample leaves it. -/
def State.measured (s : State) (i : Nat) (y : Sensor) : State :=
  s.modPro fun z => { z with
    sensors := tset z.sensors i {} y
    coolTick := coolSince ((List.range 32).map fun j => tget (tset z.sensors i {} y) j {}) z.coolTick s.tm.tick }

/-- The status of sensor `i` after a reading `q`. -/
def State.sampleShown (s : State) (i : Nat) (y : Sensor) (q : Int) : State :=
  let s2 := s.cset (PRO_TS_STAT_STATE i) y.code
  (s2.cset (PRO_TS_STAT_TEMP i) (ofSigned 12 q)).cset (PRO_TS_STAT_MAX i) (max (s2.cget (PRO_TS_STAT_MAX i)) (q / 4).toNat)

/-- The notices of a sensor that changes from `x` to `y`. -/
def State.sampleNoted (s : State) (i : Nat) (x y : Sensor) : State :=
  (s.when (y.warm && !x.warm) fun z => z.monNotice 7).when ((y.throttled && !x.throttled) || (y.rising && !x.rising)) fun z =>
    (z.cset (PRO_TS_STAT_HOT_SEEN i) 1).alarm (PRO_TS_STAT_HOT_SEEN i)

/-- What a sample of sensor `i` makes of it. -/
def State.sampleOf (s : State) (i : Nat) (q : Int) : Sensor :=
  (s.sensor i).sampled s.tm.tick (s.cget (PRO_TS_CFG_WARN i)) (s.cget (PRO_TS_CFG_THROT i)) (s.cget (PRO_TS_CFG_RATE i)) (10 * ticksSec)
    (some q) true

theorem State.concSample_eq {s : State} (h : s.pro.shutdown = false) (i : Nat) (q : Int) :
    s.concSample i (some q) true =
      (((s.measured i (s.sampleOf i q)).sampleShown i (s.sampleOf i q) q).sampleNoted i (s.sensor i) (s.sampleOf i q)).when
        ((s.sampleOf i q).hot && !(s.sensor i).hot) fun z => z.throttleBegin (throttleAction i) := by
  have h1 : ¬ (s.measured i (s.sampleOf i q)).pro.shutdown = true := by
    change ¬ s.pro.shutdown = true
    simp [h]
  exact if_neg h1

/-- What a sample shows and notes leaves: the protection's own state and the ports. -/
structure Noted (s t : State) : Prop where
  pro : t.pro = s.pro
  ports : t.ports = s.ports
  regs : ∀ f : Fld, f.key < 0x600000 * 64 → ¬ queueKey f.key → t.cget f = s.cget f

theorem Noted.trans {s t u : State} (h : Noted s t) (h' : Noted t u) : Noted s u :=
  ⟨h'.pro.trans h.pro, h'.ports.trans h.ports, fun f hf hq => (h'.regs f hf hq).trans (h.regs f hf hq)⟩

theorem Noted.of_queued {s t : State} (h : Queued s t) : Noted s t :=
  ⟨h.notes.pro_eq, h.notes.ports_eq, fun f _ hq => h.regs f hq⟩

theorem State.alarm_noted (s : State) (f : Fld) : Noted s (s.alarm f) :=
  ⟨(s.alarmAt_queued _).notes.pro_eq, (s.alarmAt_queued _).notes.ports_eq, fun g _ hq => s.alarm_regs f g hq⟩

theorem Noted.cset (s : State) (f : Fld) (v : Nat) (hf : 0x600000 * 64 ≤ f.key) : Noted s (s.cset f v) :=
  ⟨rfl, rfl, fun g hg _ => State.cget_cset_ne _ _ _ _ (by omega)⟩

theorem Noted.when {s : State} (b : Bool) {g : State → State} (h : Noted s (g s)) : Noted s (s.when b g) := by
  cases b
  · exact ⟨rfl, rfl, fun _ _ _ => rfl⟩
  · exact h

section tskeys
variable (i : Nat)

/-- The registers of the sensors lie above those of the queues. -/
theorem ts_key {f : Fld} (hr : f.reg = 0x900104 + 8 * i) : 0x900000 * 64 ≤ f.key := by
  rw [Fld.key, hr]
  omega

theorem not_queueKey_of_le {k : Nat} (h : 0x900000 * 64 ≤ k) : ¬ queueKey k := by
  unfold queueKey
  omega

theorem State.sampleShown_noted (s : State) (y : Sensor) (q : Int) : Noted s (s.sampleShown i y q) :=
  have hk {f : Fld} (hr : f.reg = 0x900104 + 8 * i) : 0x600000 * 64 ≤ f.key := le_trans (by decide) (ts_key i hr)
  ((Noted.cset s _ _ (hk rfl)).trans (Noted.cset _ _ _ (hk rfl))).trans (Noted.cset _ _ _ (hk rfl))

theorem State.sampleShown_temp (s : State) (y : Sensor) (q : Int) :
    (s.sampleShown i y q).cget (PRO_TS_STAT_TEMP i) = ofSigned 12 q := by
  have hlt : ofSigned 12 q < 2 ^ 12 := by
    unfold ofSigned
    omega
  unfold State.sampleShown
  rw [State.cget_cset_ne _ _ _ _ (by simp only [Fld.key, PRO_TS_STAT_TEMP, PRO_TS_STAT_MAX]; omega)]
  exact State.cget_cset_of_lt _ hlt

theorem State.sampleNoted_noted (s : State) (x y : Sensor) : Noted s (s.sampleNoted i x y) :=
  (Noted.when _ (.of_queued (s.monNotice_queued 7))).trans (Noted.when _
    ((Noted.cset _ (PRO_TS_STAT_HOT_SEEN i) 1 (le_trans (by decide) (ts_key i rfl))).trans (State.alarm_noted _ _)))

theorem State.sampleNoted_cget (s : State) (x y : Sensor) {f : Fld} (hr : f.reg = 0x900104 + 8 * i) (hne : f.key ≠ (PRO_TS_STAT_HOT_SEEN i).key) :
    (s.sampleNoted i x y).cget f = s.cget f := by
  have hq := not_queueKey_of_le (ts_key i hr)
  have h1 : (s.when (y.warm && !x.warm) fun z => z.monNotice 7).cget f = s.cget f := by
    cases y.warm && !x.warm
    · rfl
    · exact (s.monNotice_queued 7).regs f hq
  unfold State.sampleNoted
  generalize (s.when (y.warm && !x.warm) fun z => z.monNotice 7) = s1 at h1 ⊢
  rw [← h1]
  cases (y.throttled && !x.throttled) || (y.rising && !x.rising)
  · rfl
  · change ((s1.cset (PRO_TS_STAT_HOT_SEEN i) 1).alarm (PRO_TS_STAT_HOT_SEEN i)).cget f = _
    rw [State.alarm_regs _ _ _ hq, State.cget_cset_ne _ _ _ _ hne]

theorem State.sampleNoted_seen (s : State) {x y : Sensor} (h : ((y.throttled && !x.throttled) || (y.rising && !x.rising)) = true) :
    (s.sampleNoted i x y).cget (PRO_TS_STAT_HOT_SEEN i) = 1 := by
  unfold State.sampleNoted
  generalize (s.when (y.warm && !x.warm) fun z => z.monNotice 7) = s1
  rw [h]
  change ((s1.cset (PRO_TS_STAT_HOT_SEEN i) 1).alarm (PRO_TS_STAT_HOT_SEEN i)).cget (PRO_TS_STAT_HOT_SEEN i) = 1
  rw [State.alarm_regs _ _ _ (not_queueKey_of_le (ts_key i rfl))]
  exact State.cget_cset_of_lt s1 (f := PRO_TS_STAT_HOT_SEEN i) (v := 1) (by change 1 < 2 ^ 1; decide)

end tskeys

section sample
variable {s : State} {i : Nat} {q : Int}

/-- The state after the status and the notices of a sample. -/
def State.sampleBefore (s : State) (i : Nat) (q : Int) : State :=
  ((s.measured i (s.sampleOf i q)).sampleShown i (s.sampleOf i q) q).sampleNoted i (s.sensor i) (s.sampleOf i q)

theorem State.sampleBefore_noted : Noted (s.measured i (s.sampleOf i q)) (s.sampleBefore i q) :=
  (State.sampleShown_noted i _ _ q).trans (State.sampleNoted_noted i _ _ _)

theorem State.sampleBefore_temp : (s.sampleBefore i q).cget (PRO_TS_STAT_TEMP i) = ofSigned 12 q :=
  (State.sampleNoted_cget i _ _ _ rfl (by simp only [Fld.key, PRO_TS_STAT_TEMP, PRO_TS_STAT_HOT_SEEN]; omega)).trans
    (State.sampleShown_temp i _ _ q)

/-- What a throttle action that may begin leaves of the status and of the sensors. -/
theorem State.when_throttleBegin (z : State) (b : Bool) (a : Nat) :
    (z.when b fun z => z.throttleBegin a).pro.sensors = z.pro.sensors ∧
      ∀ f : Fld, 0x900000 * 64 ≤ f.key → (z.when b fun z => z.throttleBegin a).cget f = z.cget f := by
  cases b
  · exact ⟨rfl, fun _ _ => rfl⟩
  · obtain ⟨hpro, -, hregs⟩ := z.throttleBegin_facts a
    exact ⟨(congrArg ProSt.sensors hpro :), hregs⟩

theorem State.concSample_temp (h : s.pro.shutdown = false) : (s.concSample i (some q) true).cget (PRO_TS_STAT_TEMP i) = ofSigned 12 q := by
  rw [State.concSample_eq h]
  exact ((State.when_throttleBegin _ _ _).2 _ (ts_key i rfl)).trans State.sampleBefore_temp

theorem State.concSample_sensor (h : s.pro.shutdown = false) : (s.concSample i (some q) true).sensor i = s.sampleOf i q := by
  have h1 : (s.concSample i (some q) true).pro.sensors = (s.measured i (s.sampleOf i q)).pro.sensors := by
    rw [State.concSample_eq h]
    exact (State.when_throttleBegin _ _ _).1.trans (congrArg ProSt.sensors State.sampleBefore_noted.pro)
  rw [State.sensor, h1]
  exact tget_tset_same s.pro.sensors i {} (s.sampleOf i q)

/-- A sensor that goes into throttle sets its bit and begins its action; a region's sends STANDBY. -/
theorem State.concSample_throttle (h : s.pro.shutdown = false) (hh : (s.sensor i).hot = false) (hr : (s.sensor i).throtRun = 3)
    (hq : 4 * (s.cget (PRO_TS_CFG_THROT i) : Int) ≤ q) :
    (s.concSample i (some q) true).con (PRO_TS_STAT_HOT_SEEN i) = true ∧
      throttleAction i ∈ (s.concSample i (some q) true).pro.actions ∧
      (i < 4 → i ∉ s.pro.actions → ∀ p ∈ s.regionInRun i, 6 ∈ ((s.concSample i (some q) true).port p).fastNext) := by
  obtain ⟨hth, hno⟩ := Sensor.sampled_throttled s.tm.tick (s.cget (PRO_TS_CFG_WARN i)) (s.cget (PRO_TS_CFG_RATE i)) (10 * ticksSec) hh hr hq
    true
  have hy : (s.sampleOf i q).throttled = true ∧ (s.sampleOf i q).hot = true := by
    have : (s.sampleOf i q).throt = some (s.cget (PRO_TS_CFG_THROT i)) := hth
    simp [Sensor.throttled, Sensor.hot, this]
  have he : s.concSample i (some q) true = (s.sampleBefore i q).throttleBegin (throttleAction i) := by
    rw [State.concSample_eq h, hy.2, hh]
    rfl
  obtain ⟨-, hmem, hregs⟩ := (s.sampleBefore i q).throttleBegin_facts (throttleAction i)
  rw [he]
  refine ⟨State.con_eq_true.2 ?_, hmem, fun hi hn p hp => ?_⟩
  · rw [hregs _ (ts_key i rfl), State.sampleBefore, State.sampleNoted_seen i _ (by simp [hy.1, hno])]
    decide
  · have ha : throttleAction i = i := if_pos hi
    have hb := State.sampleBefore_noted (s := s) (i := i) (q := q)
    rw [ha]
    refine State.throttleBegin_fast hi (by rw [hb.pro]; exact hn) (State.regionInRun_of_same hp hb.ports ?_)
    have hlt := (State.mem_regionInRun.1 hp).2
    refine hb.regs _ ?_ ?_
    · simp only [Fld.key, PL_STAT_STATE]
      omega
    · simp only [queueKey, Fld.key, PL_STAT_STATE]
      omega

end sample

theorem temperatureSample_clause {s : State} {i : SensIx} {q : Int} (h : s.pro.shutdown = false) (hn : (s.sensor i).nextTick ≤ s.tm.tick) :
    let x := s.sensor i
    let warn := s.cget (PRO_TS_CFG_WARN i)
    let throt := s.cget (PRO_TS_CFG_THROT i)
    ∃ u, exec (.temperatureSample none i (some q) true) s = .next u ∧ u.cget (PRO_TS_STAT_TEMP i) = ofSigned 12 q ∧
      (u.sensor i).nextTick = s.tm.tick + 250 ∧
      ((u.sensor i).broken = true ↔ q < -160 ∨ 600 < q) ∧
      (x.warn = none → 4 * (warn : Int) ≤ q → (x.warnRun = 3 → (u.sensor i).warn = some warn) ∧
        (x.warnRun < 3 → (u.sensor i).warn = none ∧ (u.sensor i).warnRun = x.warnRun + 1)) ∧
      (x.warn = none → q < 4 * (warn : Int) → (u.sensor i).warn = none ∧ (u.sensor i).warnRun = 0) ∧
      (∀ l, x.warn = some l → x.warnRun = 3 → (q ≤ 4 * (l : Int) - 20 → (u.sensor i).warn = none) ∧
        (4 * (l : Int) - 20 < q → (u.sensor i).warn = some l)) ∧
      (x.hot = false → x.throtRun = 3 → 4 * (throt : Int) ≤ q → u.con (PRO_TS_STAT_HOT_SEEN i) = true ∧ throttleAction i ∈ u.pro.actions ∧
        (i.val < 4 → i.val ∉ s.pro.actions → ∀ p ∈ s.regionInRun i, 6 ∈ (u.port p).fastNext)) := by
  have he : exec (.temperatureSample none i (some q) true) s = .next (s.concSample i (some q) true) := congrArg Host.Outcome.next (if_pos hn)
  have hw : (s.sampleOf i q).warn = (judgeLevel (s.sensor i).warn (s.sensor i).warnRun (s.cget (PRO_TS_CFG_WARN i)) q).1 := rfl
  have hr : (s.sampleOf i q).warnRun = (judgeLevel (s.sensor i).warn (s.sensor i).warnRun (s.cget (PRO_TS_CFG_WARN i)) q).2 := rfl
  dsimp only
  refine ⟨_, he, State.concSample_temp h, ?_⟩
  rw [State.concSample_sensor h]
  refine ⟨rfl, Sensor.sampled_broken _ _ _ _ _ _ _, fun h0 hq => ?_, fun h0 hq => ?_, fun l h0 h3 => ⟨fun hq => ?_, fun hq => ?_⟩,
    fun hh ht hq => State.concSample_throttle h hh ht hq⟩
  · rw [hw, hr, h0, judgeLevel_rise hq]
    exact ⟨fun h3 => by rw [if_neg (by omega)], fun h3 => by rw [if_pos (by omega)]; exact ⟨rfl, rfl⟩⟩
  · rw [hw, hr, h0, judgeLevel_below hq]
    exact ⟨rfl, rfl⟩
  · rw [hw, h0, h3, judgeLevel_fall hq]
  · rw [hw, h0, judgeLevel_stay hq]

/-! ### A sample of a front-end -/

section fe
variable {s : State} {p : PortIx} {i : SensIx}

/-- The state with sensor `i` of front-end `p` as its sample leaves it. -/
def State.feMeasured (s : State) (p i : Nat) (y : Sensor) : State :=
  s.modFe p fun z =>
    let w := { z with sens := tset z.sens i {} y }
    { w with coolTick := coolSince w.sensors z.coolTick s.tm.tick }

/-- What a sample of sensor `i` of front-end `p` makes of it. -/
def State.feSampleOf (s : State) (p i : Nat) (q : Int) : Sensor :=
  ((s.fe p).sensor i).sampled s.tm.tick (s.fget p FE_TH_CFG_WARN) (s.fget p FE_TH_CFG_THROT) (max 1 (s.fget p FE_TH_CFG_RATE)) 0 (some q) true

theorem State.showThermal_creg (s : State) (p : Nat) : (s.showThermal p).creg = s.creg := by
  unfold State.showThermal
  rfl

/-- A front-end whose sensor goes into throttle: the bit and the hold. -/
def State.feHeld (s : State) (p : Nat) : State :=
  (s.fset p FE_TH_STAT_THROT_SEEN 1).modFe p fun w => { w with thermalHold := true }

theorem State.feSample_eq (s : State) (p i : Nat) (q : Int) (hl : s.feLive p = true) (hh : ((s.fe p).sensor i).hot = false)
    (hy : (s.feSampleOf p i q).hot = true) :
    s.feSample p i (some q) true = ((s.feMeasured p i (s.feSampleOf p i q)).showThermal p).feHeld p := by
  have hl' : ¬ (!(s.feMeasured p i (s.feSampleOf p i q)).feLive p) = true := by
    simp only [State.feLive] at hl ⊢
    rw [State.feMeasured, State.fe_modFe]
    simpa using hl
  have he : s.feSample p i (some q) true =
      ((s.feMeasured p i (s.feSampleOf p i q)).showThermal p).when (s.feSampleOf p i q).hot fun z =>
        (z.when (!((s.fe p).sensor i).hot) fun u => u.fset p FE_TH_STAT_THROT_SEEN 1).modFe p fun w => { w with thermalHold := true } :=
    if_neg hl'
  rw [he, hy, hh]
  rfl

theorem State.feMeasured_creg (s : State) (p i : Nat) (y : Sensor) : (s.feMeasured p i y).creg = s.creg := rfl

theorem State.feSampleOf_hot {q : Int} {p i : Nat} (hh : ((s.fe p).sensor i).hot = false) (hr : ((s.fe p).sensor i).throtRun = 3)
    (hq : 4 * (s.fget p FE_TH_CFG_THROT : Int) ≤ q) : (s.feSampleOf p i q).hot = true := by
  have hth := (Sensor.sampled_throttled s.tm.tick (s.fget p FE_TH_CFG_WARN) (max 1 (s.fget p FE_TH_CFG_RATE)) 0 hh hr hq true).1
  rw [← State.feSampleOf] at hth
  simp [Sensor.hot, hth]

theorem State.feHeld_facts (s : State) (p : Nat) :
    ((s.feHeld p).fe p).thermalHold = true ∧ (s.feHeld p).fon p FE_TH_STAT_THROT_SEEN = true ∧ (s.feHeld p).creg = s.creg := by
  refine ⟨by rw [State.feHeld, State.fe_modFe], State.fon_eq_true.2 ?_, rfl⟩
  change (s.fset p FE_TH_STAT_THROT_SEEN 1).fget p FE_TH_STAT_THROT_SEEN ≠ 0
  rw [State.fget_fset_of_lt _ _ (by decide)]
  decide

/-- A sensor of a front-end that goes into throttle holds its front-end in STANDBY. -/
theorem temperatureSample_fe {q : Int} (hi : i.val < 5) (hl : s.feLive p = true) (hn : ((s.fe p).sensor i).nextTick ≤ s.tm.tick)
    (hh : ((s.fe p).sensor i).hot = false) (hr : ((s.fe p).sensor i).throtRun = 3) (hq : 4 * (s.fget p FE_TH_CFG_THROT : Int) ≤ q) :
    ∃ u, exec (.temperatureSample (some p) i (some q) true) s = .next u ∧ (u.fe p).thermalHold = true ∧
      u.fon p FE_TH_STAT_THROT_SEEN = true ∧ u.creg = s.creg := by
  have hpow : (s.fe p).powered = true := (Bool.and_eq_true_iff.1 hl).1
  have he : exec (.temperatureSample (some p) i (some q) true) s = .next (s.feSample p i (some q) true) :=
    congrArg Host.Outcome.next (if_pos ⟨hi, hpow, hn⟩)
  rw [State.feSample_eq s p i q hl hh (State.feSampleOf_hot hh hr hq)] at he
  have hcreg := ((s.feMeasured p i (s.feSampleOf p i q)).showThermal_creg p).trans (s.feMeasured_creg p i (s.feSampleOf p i q))
  obtain ⟨hhold, hseen, hc⟩ := ((s.feMeasured p i (s.feSampleOf p i q)).showThermal p).feHeld_facts p
  exact ⟨_, he, hhold, hseen, hc.trans hcreg⟩

theorem temperatureSample_unpowered {q : Int} (h : (s.fe p).powered = false) :
    exec (.temperatureSample (some p) i (some q) true) s = .next s :=
  congrArg Host.Outcome.next (if_neg fun hc => by simp [h] at hc)

/-! ### The end of a throttle action -/

/-- The sensors of a throttle action are over when each has left throttle and its wait is past. -/
theorem throttleOver_iff {xs : List Sensor} {tick wait : Nat} :
    throttleOver xs tick wait = true ↔ ∀ x ∈ xs, x.hot = false ∧ x.leftTick.all (fun t => decide (t + wait ≤ tick)) = true := by
  have hx : ∀ x : Sensor, (!x.hot && (match x.leftTick with | some t => decide (t + wait ≤ tick) | none => true)) = true ↔
      x.hot = false ∧ x.leftTick.all (fun t => decide (t + wait ≤ tick)) = true := fun x => by
    cases x.leftTick <;> simp
  exact List.all_eq_true.trans (forall₂_congr fun x _ => hx x)

theorem throttleEnd_clause {a : Nat} (ha : a = throttleAction i) (hm : a ∈ s.pro.actions)
    (hover : ∀ j, j < 32 → throttleAction j = a → (s.sensor j).hot = false ∧
      (s.sensor j).leftTick.all (fun t => decide (t + (if a = 8 then 2500000 else 250000) ≤ s.tm.tick)) = true) :
    ∃ u, exec (.throttleEnd none i) s = .next u ∧ u.pro.actions = s.pro.actions.erase a ∧
      (a < 4 → s.cget GLB_STAT_STATE = 1 → ∀ p ∈ s.regionInRun a, 7 ∈ (u.port p).fastNext) := by
  subst ha
  have hover' : throttleOver (((List.range 32).filter fun j => decide (throttleAction j = throttleAction i)).map fun j => s.sensor j) s.tm.tick
      (if throttleAction i = 8 then 10 * ticksSec else ticksSec) = true := by
    refine throttleOver_iff.2 fun x hx => ?_
    obtain ⟨j, hj, rfl⟩ := List.mem_map.1 hx
    obtain ⟨hj, hja⟩ := List.mem_filter.1 hj
    exact hover j (List.mem_range.1 hj) (of_decide_eq_true hja)
  have he : exec (.throttleEnd none i) s = .next (s.throttleStop (throttleAction i)) :=
    congrArg Host.Outcome.next (if_pos (Bool.and_eq_true_iff.2 ⟨List.contains_iff_mem.2 hm, hover'⟩))
  exact ⟨_, he, s.throttleStop_actions _, fun ha hst p hp => State.throttleStop_fast ha hst hp⟩

theorem throttleEnd_fe (hth : (s.fe p).thermalHold = true)
    (hover : ∀ j, j < 5 → ((s.fe p).sensor j).hot = false ∧ ((s.fe p).sensor j).leftTick.all (fun t => decide (t + 250000 ≤ s.tm.tick)) = true)
    (hask : (s.fe p).powerAsk = none) :
    ∃ u, exec (.throttleEnd (some p) i) s = .next u ∧ (u.fe p).thermalHold = false ∧
      (u.fe p).powerAsk = (if (s.fe p).lastAskStandby = true then none else some false) := by
  have hover' : throttleOver (s.fe p).sensors s.tm.tick ticksSec = true := by
    refine throttleOver_iff.2 fun x hx => ?_
    obtain ⟨j, hj, rfl⟩ := List.mem_map.1 hx
    exact hover j (List.mem_range.1 hj)
  have he : exec (.throttleEnd (some p) i) s = .next _ :=
    congrArg Host.Outcome.next (if_pos (Bool.and_eq_true_iff.2 ⟨hth, hover'⟩))
  refine ⟨_, he, ?_⟩
  rw [State.fe_modFe]
  refine ⟨rfl, ?_⟩
  dsimp only
  rw [hask]
  rfl

end fe

/-! ### Shutdown -/

/-- The registers that a loss of power keeps: those of the NVM. -/
def coldFields : List Fld := [NVM_SLOT_ACTIVE, NVM_SLOT_S0, NVM_SLOT_S1, NVM_VER_VER 0, NVM_VER_VER 1, MRN_SEQ_SEQ, NVM_STAT_SPARE_USED]

/-- Every other register reads its reset value after a loss of power. -/
theorem State.cold_cget (s : State) {f : Fld} (h : ∀ g ∈ coldFields, f.key ≠ g.key) : s.cold.cget f = f.reset % 2 ^ f.width := by
  have hz : ∀ z : State, (coldFields.foldl (fun y g => y.cset g (s.cget g)) z).cget f = z.cget f := fun z =>
    List.foldlRecOn (motive := fun y : State => y.cget f = z.cget f) _ _ rfl fun y hy g hg =>
      (State.cget_cset_ne _ _ _ _ (h g hg)).trans hy
  exact hz _

theorem State.cold_permit (s : State) {n : Nat} (hn : n < 4) : s.cold.permit n = 0 ∧ s.cold.con (PRO_GSTAT_OUT n) = false := by
  have hk : ∀ f : Fld, f.reg = 0x900014 → f.lo < 64 → ∀ g ∈ coldFields, f.key ≠ g.key := fun f hf hl g hg => by
    have hg' : g.key < 0x900000 * 64 ∨ 0x901000 * 64 ≤ g.key := by
      revert g
      decide
    rw [Fld.key, hf]
    omega
  refine ⟨s.cold_cget (hk _ rfl ?_), State.con_eq_false.2 (s.cold_cget (hk _ rfl ?_))⟩
  · simp only [PRO_GSTAT_STATE]
    omega
  · simp only [PRO_GSTAT_OUT]
    omega

theorem State.cold_same (s : State) : s.cold.fes = s.fes ∧ s.cold.freg = s.freg ∧ s.cold.nvm.pending = s.nvm.pending.take s.nvm.logBusy ∧
    s.cold.nvm.latch0 = s.nvm.latch0 ∧ s.cold.nvm.journal = s.nvm.journal ∧ s.cold.pro.powerGood = false :=
  ⟨rfl, rfl, rfl, rfl, rfl, rfl⟩

theorem shutdownTrip_clause {s : State} {i : SensIx} (h : s.pro.shutdown = false) :
    ∃ u, exec (.shutdownTrip i) s = .next u ∧ u.pro.shutdown = true ∧ u.pro.rcause = 2 ∧
      u.con GLB_STAT_READY = false ∧ u.con SP_STAT_RUN = false ∧ (∀ n, n < 4 → u.permit n = 0 ∧ u.con (PRO_GSTAT_OUT n) = false) ∧
      u.nvm.pending = s.nvm.pending.take s.nvm.logBusy ∧ u.nvm.latch0 = s.nvm.latch0 ∧ u.nvm.journal = s.nvm.journal ∧
      u.pro.tripTick = s.tm.tick ∧ u.fes = s.fes ∧ u.freg = s.freg := by
  have he : exec (.shutdownTrip i) s = .next _ := congrArg Host.Outcome.next (if_neg (by simp [h]))
  obtain ⟨hfes, hfreg, hpend, hlatch, hjour, -⟩ := s.cold_same
  have hready : s.cold.con GLB_STAT_READY = false := State.con_eq_false.2 (s.cold_cget (by decide))
  have hrun : s.cold.con SP_STAT_RUN = false := State.con_eq_false.2 (s.cold_cget (by decide))
  have hpermit : ∀ n, n < 4 → s.cold.permit n = 0 ∧ s.cold.con (PRO_GSTAT_OUT n) = false := fun _ hn => s.cold_permit hn
  generalize s.cold = c at *
  exact ⟨_, he, rfl, rfl, hready, hrun, hpermit, hpend, hlatch, hjour, rfl, hfes, hfreg⟩

theorem nvmProgramCut_clause (s : State) : (s.nvm.journal = [] ∨ s.pro.powerGood = true ∨
      (s.pro.shutdown = true ∧ s.tm.tick < s.pro.tripTick + 500 ∧ s.scorching = false) → exec .nvmProgramCut s = .next s) ∧
    (s.nvm.journal ≠ [] → s.pro.powerGood = false → s.pro.shutdown = false ∨ s.pro.tripTick + 500 ≤ s.tm.tick ∨ s.scorching = true →
      ∃ u, exec .nvmProgramCut s = .next u ∧ u = { s with nvm := { s.nvm with cut := true } }) := by
  have hms : ticksMs 2 = 500 := by decide
  refine ⟨fun h => congrArg Host.Outcome.next (if_pos ?_), fun hj hg h => ⟨_, congrArg Host.Outcome.next (if_neg ?_), rfl⟩⟩
  · refine h.imp List.isEmpty_iff.2 (Or.imp_right fun ⟨hsd, ht, hsc⟩ => ⟨hsd, ?_, by simp [hsc]⟩)
    simp only [State.since, hms]
    omega
  · rintro (h0 | h0 | ⟨hsd, ht, hsc⟩)
    · exact hj (List.isEmpty_iff.1 h0)
    · simp [hg] at h0
    · simp only [State.since, hms] at ht
      simp only [hsd, Bool.true_eq_false, false_or] at h
      refine h.elim (fun _ => by omega) fun h1 => ?_
      simp [h1] at hsc

theorem thermalRestart_clause {s : State} {t : Nat} (hsd : s.pro.shutdown = true) (hc : s.pro.coolTick = some t) :
    (s.tm.tick < t + 15000000 → exec .thermalRestart s = .next s) ∧
    (t + 15000000 ≤ s.tm.tick → ∃ u, exec .thermalRestart s = .next u ∧ u.pro.shutdown = false ∧ u.pro.rcause = 2 ∧
      u.pro.powerGood = true ∧ u.creg = s.creg) := by
  have hsec : 60 * ticksSec = 15000000 := by decide
  have he : exec .thermalRestart s = .next (if s.pro.shutdown && decide (t + 60 * ticksSec ≤ s.tm.tick) then
      s.modPro fun x => { x with shutdown := false, powerGood := true, rcause := 2 } else s) := by
    change execThermalRestart s = _
    unfold execThermalRestart
    rw [hc]
  rw [he, hsd, hsec]
  refine ⟨fun h => congrArg Host.Outcome.next (if_neg (by simpa using h)), fun h =>
    ⟨_, congrArg Host.Outcome.next (if_pos (by simpa using h)), ?_⟩⟩
  exact ⟨rfl, rfl, rfl, rfl⟩

/-! ### Front-ends -/

theorem tget_tkeep {α : Type} (t : Tab α) (f : Nat → Bool) (k : Nat) (d : α) : tget (tkeep t f) k d = if f k then tget t k d else d := by
  induction t with
  | nil => simp [tkeep, tget]
  | cons e t ih =>
    obtain ⟨j, v⟩ := e
    unfold tkeep at ih ⊢
    by_cases hj : j = k
    · subst hj
      cases hf : f j <;> simp [hf, tget, ih]
    · cases hf : f j <;> simp [hf, tget, hj, ih]

section feReset
variable (s : State) (p : Nat) (powered : Bool)

theorem State.fe_feReset : (s.feReset p powered).fe p =
    { rev := (s.fe p).rev, powered := powered, atTick := s.tm.tick, sens := (s.fe p).sens, coolTick := (s.fe p).coolTick,
      shutdown := (s.fe p).shutdown } :=
  tget_tset_same _ _ _ _

/-- Every register of a front-end that is reset reads its reset value. -/
theorem State.fget_feReset {f : Fld} (hf : f.key < 0x40000) : (s.feReset p powered).fget p f = f.reset % 2 ^ f.width := by
  have hk : f.fkey p / 0x40000 = p := by
    unfold Fld.fkey
    omega
  change tget (tkeep s.freg fun k => decide (k / 0x40000 ≠ p)) (f.fkey p) f.reset % 2 ^ f.width = _
  rw [tget_tkeep, if_neg (by simp [hk])]

theorem State.fget_feReset_ne {f : Fld} (hf : f.key < 0x40000) {q : Nat} (hq : q ≠ p) : (s.feReset p powered).fget q f = s.fget q f := by
  have hk : f.fkey q / 0x40000 = q := by
    unfold Fld.fkey
    omega
  change tget (tkeep s.freg fun k => decide (k / 0x40000 ≠ p)) (f.fkey q) f.reset % 2 ^ f.width = _
  rw [tget_tkeep, if_pos (by simp [hk, hq])]
  rfl

theorem State.ch_feReset {c : Nat} (hc : c < 512) : (s.feReset p powered).ch p c = {} := by
  change tget (tkeep s.chans fun k => decide (k / 512 ≠ p)) (p * 512 + c) {} = {}
  rw [tget_tkeep, if_neg]
  simp only [ne_eq, decide_not, Bool.not_eq_true', decide_eq_false_iff_not, not_not]
  omega

end feReset

theorem feShutdownTrip_clause {s : State} {p : PortIx} (h : (s.fe p).shutdown = false) :
    ∃ u, exec (.feShutdownTrip p) s = .next u ∧ (u.fe p).shutdown = true ∧
      (u.fe p).sens = (s.fe p).sens ∧ (∀ f : Fld, f.key < 0x40000 → u.fget p f = f.reset % 2 ^ f.width) ∧ (∀ c, c < 512 → u.ch p c = {}) ∧
      (∀ q f, q ≠ p.val → f.key < 0x40000 → u.fget q f = s.fget q f) ∧ u.creg = s.creg := by
  have he : exec (.feShutdownTrip p) s = .next _ := congrArg Host.Outcome.next (if_neg (by simp [h]))
  have hfe := s.fe_feReset p true
  have hregs := fun f : Fld => s.fget_feReset (f := f) p true
  have hch := fun c => s.ch_feReset (c := c) p true
  have hne := fun (q : Nat) (f : Fld) (hq : q ≠ p) hf => s.fget_feReset_ne (f := f) p true hf hq
  have hcreg : (s.feReset p true).creg = s.creg := rfl
  generalize s.feReset p true = z at *
  refine ⟨_, he, ?_, ?_, hregs, hch, hne, hcreg⟩
  · rw [State.fe_modFe]
  · rw [State.fe_modFe, hfe]

theorem feThermalRestart_clause {s : State} {p : PortIx} {t : Nat} (hsd : (s.fe p).shutdown = true) (hc : (s.fe p).coolTick = some t) :
    (s.tm.tick < t + 2500000 → exec (.feThermalRestart p) s = .next s) ∧
    (t + 2500000 ≤ s.tm.tick → ∃ u, exec (.feThermalRestart p) s = .next u ∧ (u.fe p).shutdown = false ∧ (u.fe p).powered = true ∧
      u.creg = s.creg) := by
  have hsec : 10 * ticksSec = 2500000 := by decide
  have he : exec (.feThermalRestart p) s = .next (if (s.fe p).shutdown && decide (t + 10 * ticksSec ≤ s.tm.tick) then
      (s.feReset p true).modFe p fun x => { x with shutdown := false } else s) := by
    change execFeThermalRestart p s = _
    unfold execFeThermalRestart
    rw [hc]
  rw [he, hsd, hsec]
  refine ⟨fun h => congrArg Host.Outcome.next (if_neg (by simpa using h)), fun h =>
    ⟨_, congrArg Host.Outcome.next (if_pos (by simpa using h)), ?_⟩⟩
  rw [State.fe_modFe, State.fe_feReset]
  exact ⟨rfl, rfl, rfl⟩

/-- Settles O53: each level, action and restart clause follows from what its own operation leaves. -/
theorem sensorsThrottleAndShutDown : Obligations.SensorsThrottleAndShutDown := by
  unfold Obligations.SensorsThrottleAndShutDown
  refine ⟨fun s i q ok h => congrArg Host.Outcome.next (if_neg (by omega)), fun s i q h hn => temperatureSample_clause h hn,
    fun s p i q => ⟨fun hi hl hn hh hr hq => temperatureSample_fe hi hl hn hh hr hq, temperatureSample_unpowered⟩,
    fun s i a ha => ⟨fun hn => congrArg Host.Outcome.next (if_neg ?_), fun hm hover => throttleEnd_clause ha hm hover⟩,
    fun s p i hth hover hask => throttleEnd_fe hth hover hask, fun s i h => shutdownTrip_clause h, nvmProgramCut_clause,
    fun s t hsd hc => thermalRestart_clause hsd hc, fun s p h => feShutdownTrip_clause h, fun s p t hsd hc => feThermalRestart_clause hsd hc⟩
  subst ha
  simp [hn]

end Sys2Proof.Machine

/-! ## Supply dips and resets -/

namespace Sys2Proof.Machine

set_option Elab.async false

theorem supplyWarning_clause (s : State) : ∃ u, exec (.supplyWarning none) s = .next u ∧ u.con PRO_SUP_WARN_NOW = true ∧
    RegsSame s u [PRO_SUP_WARN_NOW] ∧ u.pro.dipFrame = some (s.pro.dipFrame.getD s.frame) := by
  have hon : (s.cset PRO_SUP_WARN_NOW 1).con PRO_SUP_WARN_NOW = true := by
    rw [State.con_eq_true, State.cget_cset_of_lt _ (by decide)]
    decide
  have hregs : RegsSame s (s.cset PRO_SUP_WARN_NOW 1) [PRO_SUP_WARN_NOW] := (RegsSame.refl s _).cset _ _
  cases h : s.pro.dipFrame with
  | none =>
    have he : exec (.supplyWarning none) s = .next ((s.cset PRO_SUP_WARN_NOW 1).modPro fun x => { x with dipFrame := some s.frame }) :=
      congrArg Host.Outcome.next (if_pos (Option.isNone_iff_eq_none.2 h))
    exact ⟨_, he, hon, hregs, rfl⟩
  | some f =>
    have he : exec (.supplyWarning none) s = .next (s.cset PRO_SUP_WARN_NOW 1) :=
      congrArg Host.Outcome.next (if_neg fun hc => by
        have := Option.isNone_iff_eq_none.1 hc
        rw [State.cset_pro, h] at this
        cases this)
    exact ⟨_, he, hon, hregs, h⟩

theorem supplyWarning_fe (s : State) (p : PortIx) : ∃ u, exec (.supplyWarning (some p)) s = .next u ∧
    u.fon p FE_SUP_STAT_WARN_NOW = true ∧ (u.fe p).dipStart = some ((s.fe p).dipStart.getD s.tm.tick) ∧
    FeRegsSame s u [(p.val, FE_SUP_STAT_WARN_NOW)] ∧ u.creg = s.creg := by
  have he : exec (.supplyWarning (some p)) s = .next (((s.fset p FE_SUP_STAT_WARN_NOW 1).modFacts p fun f => { f with dip := true }).modFe p
      fun x => { x with dipStart := some (x.dipStart.getD s.tm.tick) }) := rfl
  refine ⟨_, he, ?_, ?_, (FeRegsSame.refl s [(p.val, FE_SUP_STAT_WARN_NOW)]).fset p FE_SUP_STAT_WARN_NOW 1, rfl⟩
  · change (s.fset p FE_SUP_STAT_WARN_NOW 1).fon p FE_SUP_STAT_WARN_NOW = true
    rw [State.fon_eq_true, State.fget_fset_of_lt _ _ (by decide)]
    decide
  · rw [State.fe_modFe, State.modFacts, State.fe_modFe]
    rfl

/-! ### The end of a dip -/

/-- The state at the end of a dip of `us` microseconds, before its log entry. -/
def State.dipEnded (s : State) (us : Nat) : State :=
  ((((s.cset PRO_SUP_WARN_NOW 0).cset PRO_DIP_LAST (min us 0xFFFFFF)).modPro fun x => { x with dipFrame := none }).cbump
    PRO_SUP_DIPS).cset PRO_SUP_DIP_SEEN 1

theorem State.dipEnded_facts (s : State) (us : Nat) :
    (s.dipEnded us).cget PRO_SUP_WARN_NOW = 0 ∧ (s.dipEnded us).cget PRO_DIP_LAST = min us 0xFFFFFF ∧
      (s.dipEnded us).cget PRO_SUP_DIPS = min (s.cget PRO_SUP_DIPS + 1) 255 ∧ (s.dipEnded us).cget PRO_SUP_DIP_SEEN = 1 := by
  unfold State.dipEnded
  refine ⟨?_, ?_, ?_, State.cget_cset_of_lt _ (by decide)⟩
  · simp (disch := decide) only [State.cget_cbump_ne, State.cget_cset_ne, State.modPro_cget]
    exact State.cget_cset_of_lt _ (by decide)
  · simp (disch := decide) only [State.cget_cbump_ne, State.cget_cset_ne, State.modPro_cget]
    exact State.cget_cset_of_lt _ (by change min us 0xFFFFFF < 2 ^ 24; omega)
  · rw [State.cget_cset_ne _ _ _ _ (by decide), State.cget_cbump_sat, State.modPro_cget, State.cget_cset_ne _ _ _ _ (by decide),
      State.cget_cset_ne _ _ _ _ (by decide)]
    rfl

theorem dipEnd_clause {s : State} {f : Nat} (us : Nat) (h : s.pro.dipFrame = some f) :
    ∃ u, exec (.dipEnd none us) s = .next u ∧ u.con PRO_SUP_WARN_NOW = false ∧
      u.cget PRO_DIP_LAST = min us 0xFFFFFF ∧ u.cget PRO_SUP_DIPS = min (s.cget PRO_SUP_DIPS + 1) 255 ∧ u.con PRO_SUP_DIP_SEEN = true ∧
      u.pro.dipFrame = none ∧
      (s.nvm.overflow = 0 → s.nvm.pending.length < 1024 → ∃ e, u.nvm.pending = s.nvm.pending ++ [e] ∧ e.d5 = f ∧
        e.d6 = (s.frame + 1 - f) % 2 ^ 32 + us % 2 ^ 32 * 2 ^ 32) := by
  have he : exec (.dipEnd none us) s =
      .next ((s.dipEnded us).logBit PRO_SUP_DIP_SEEN 0xFF f (pack [(0, 32, s.frame + 1 - f), (32, 32, us)])) := by
    change execDipEnd none us s = _
    unfold execDipEnd
    dsimp only
    rw [h]
    rfl
  obtain ⟨hwarn, hlast, hdips, hseen⟩ := s.dipEnded_facts us
  have hpro : (s.dipEnded us).pro.dipFrame = none := rfl
  have hnvm : (s.dipEnded us).nvm = s.nvm := rfl
  generalize s.dipEnded us = z at *
  have hn := z.logBit_notes PRO_SUP_DIP_SEEN 0xFF f (pack [(0, 32, s.frame + 1 - f), (32, 32, us)])
  refine ⟨_, he, State.con_eq_false.2 ?_, ?_, ?_, State.con_eq_true.2 ?_, by rw [hn.pro_eq, hpro], fun ho hr => ?_⟩
  · rw [hn.regs _ (by unfold noteKey; decide), hwarn]
  · rw [hn.regs _ (by unfold noteKey; decide), hlast]
  · rw [hn.regs _ (by unfold noteKey; decide), hdips]
  · rw [hn.regs _ (by unfold noteKey; decide), hseen]
    decide
  · rw [State.logBit, State.logAdd_of_room (by rw [hnvm]; exact hr) (by rw [hnvm]; exact ho), State.logPut_pending, hnvm]
    exact ⟨_, rfl, rfl, by simp [pack, State.stamp]⟩

theorem dipEnd_none {s : State} (us : Nat) (h : s.pro.dipFrame = none) : exec (.dipEnd none us) s = .next s := by
  change execDipEnd none us s = _
  unfold execDipEnd
  dsimp only
  rw [h]

/-- The front-end registers that the end of a dip writes. -/
def dipFields (p : Nat) : List (Nat × Fld) := [(p, FE_SUP_STAT_WARN_NOW), (p, FE_DIP_LAST), (p, FE_SUP_STAT_DIPS)]

theorem dipEnd_fe {s : State} {p : PortIx} (us : Nat) (h : (s.fe p).dipStart ≠ none) :
    ∃ u, exec (.dipEnd (some p) us) s = .next u ∧ u.fon p FE_SUP_STAT_WARN_NOW = false ∧
      u.fget p FE_DIP_LAST = min us 0xFFFFFF ∧ u.fget p FE_SUP_STAT_DIPS = min (s.fget p FE_SUP_STAT_DIPS + 1) 65535 ∧
      (u.fe p).dipStart = none ∧ FeRegsSame s u (dipFields p) := by
  have he : exec (.dipEnd (some p) us) s = .next ((((s.fset p FE_SUP_STAT_WARN_NOW 0).fset p FE_DIP_LAST (min us 0xFFFFFF)).fbump p
      FE_SUP_STAT_DIPS).modFe p fun x => { x with dipStart := none }) :=
    congrArg Host.Outcome.next (if_neg (by simpa using h))
  have hk {f g : Fld} (hfg : f.key ≠ g.key) : f.fkey p ≠ g.fkey p := by
    unfold Fld.fkey
    omega
  refine ⟨_, he, State.fon_eq_false.2 ?_, ?_, ?_, ?_, ?_⟩
  · change (((s.fset p FE_SUP_STAT_WARN_NOW 0).fset p FE_DIP_LAST (min us 0xFFFFFF)).fbump p FE_SUP_STAT_DIPS).fget p _ = 0
    rw [State.fbump, State.fadd, State.fget_fset_ne _ _ _ _ _ _ (hk (by decide)), State.fget_fset_ne _ _ _ _ _ _ (hk (by decide))]
    exact State.fget_fset_of_lt _ _ (by decide)
  · change (((s.fset p FE_SUP_STAT_WARN_NOW 0).fset p FE_DIP_LAST (min us 0xFFFFFF)).fbump p FE_SUP_STAT_DIPS).fget p _ = _
    rw [State.fbump, State.fadd, State.fget_fset_ne _ _ _ _ _ _ (hk (by decide))]
    exact State.fget_fset_of_lt _ _ (by change min us 0xFFFFFF < 2 ^ 24; omega)
  · change (((s.fset p FE_SUP_STAT_WARN_NOW 0).fset p FE_DIP_LAST (min us 0xFFFFFF)).fbump p FE_SUP_STAT_DIPS).fget p _ = _
    rw [State.fget_fbump_sat, State.fget_fset_ne _ _ _ _ _ _ (hk (by decide)), State.fget_fset_ne _ _ _ _ _ _ (hk (by decide))]
    rfl
  · rw [State.fe_modFe]
  · exact ((((FeRegsSame.refl s (dipFields p)).fset p _ _ (by simp [dipFields])).fset p _ _ (by simp [dipFields])).fbump p _
      (by simp [dipFields])).modFe p _

/-! ### Resets by the supply -/

theorem supplyReset_clause (s : State) : ∃ u, exec (.supplyReset none) s = .next u ∧ u.pro.powerGood = false ∧
    (s.pro.shutdown = false → u.pro.rcause = 3) ∧ u.con GLB_STAT_READY = false ∧ (∀ n, n < 4 → u.permit n = 0) ∧
    u.nvm.journal = s.nvm.journal ∧ u.fes = s.fes := by
  have he : exec (.supplyReset none) s = .next (s.cold.modPro fun x => { x with rcause := if s.pro.shutdown then x.rcause else 3 }) := rfl
  obtain ⟨hfes, -, -, -, hjour, hgood⟩ := s.cold_same
  have hready : s.cold.con GLB_STAT_READY = false := State.con_eq_false.2 (s.cold_cget (by decide))
  have hpermit : ∀ n, n < 4 → s.cold.permit n = 0 := fun _ hn => (s.cold_permit hn).1
  generalize s.cold = c at *
  exact ⟨_, he, hgood, fun h => if_neg (by simp [h]), hready, hpermit, hjour, hfes⟩

theorem supplyReset_fe (s : State) (p : PortIx) : ∃ u, exec (.supplyReset (some p)) s = .next u ∧ (u.fe p).powered = false ∧
    (∀ f : Fld, f.key < 0x40000 → u.fget p f = f.reset % 2 ^ f.width) ∧ u.creg = s.creg := by
  have he : exec (.supplyReset (some p)) s = .next (s.feReset p false) := rfl
  exact ⟨_, he, by rw [State.fe_feReset], fun f hf => s.fget_feReset p false hf, rfl⟩

theorem powerGood_clause (s : State) : (s.pro.shutdown = true → exec (.powerGood none) s = .next s) ∧
    (s.pro.shutdown = false → ∃ u, exec (.powerGood none) s = .next u ∧ u = { s with pro := { s.pro with powerGood := true } }) :=
  ⟨fun h => congrArg Host.Outcome.next (if_pos h), fun h => ⟨_, congrArg Host.Outcome.next (if_neg (by simp [h])), rfl⟩⟩

theorem powerGood_fe (s : State) (p : PortIx) : ((s.fe p).powered = true → exec (.powerGood (some p)) s = .next s) ∧
    ((s.fe p).powered = false → ∃ u, exec (.powerGood (some p)) s = .next u ∧ (u.fe p).powered = true ∧ u.creg = s.creg) := by
  refine ⟨fun h => congrArg Host.Outcome.next (if_pos h), fun h => ?_⟩
  have he : exec (.powerGood (some p)) s = .next (s.feReset p true) := congrArg Host.Outcome.next (if_neg (by simp [h]))
  exact ⟨_, he, by rw [State.fe_feReset], rfl⟩

/-- Settles O54: a dip is latched, counted and logged, and each reset leaves the reset values. -/
theorem supplyDipsAndResets : Obligations.SupplyDipsAndResets := by
  unfold Obligations.SupplyDipsAndResets
  refine ⟨fun s => ?_, supplyWarning_fe, fun s us => ⟨dipEnd_none us, fun f hf => dipEnd_clause us hf⟩,
    fun s p us => ⟨fun h => congrArg Host.Outcome.next (if_pos (by simpa using h)), fun h => dipEnd_fe us h⟩,
    supplyReset_clause, supplyReset_fe, powerGood_clause, powerGood_fe⟩
  obtain ⟨u, he, hon, hregs, hdip⟩ := supplyWarning_clause s
  refine ⟨u, he, hon, hregs, hdip.trans ?_⟩
  cases s.pro.dipFrame <;> rfl

end Sys2Proof.Machine

/-! ## The guard's permits -/

namespace Sys2Proof.Machine

set_option Elab.async false

/-! ### Registers that a change leaves -/

/-- The registers whose keys lie in `P` read the same in `s` and `t`. -/
def KeysKept (P : Nat → Prop) (s t : State) : Prop := ∀ f : Fld, P f.key → t.cget f = s.cget f

namespace KeysKept

variable {P : Nat → Prop} {s t u : State}

theorem refl (s : State) : KeysKept P s s := fun _ _ => rfl

theorem trans (h : KeysKept P s t) (h' : KeysKept P t u) : KeysKept P s u := fun f hf => (h' f hf).trans (h f hf)

theorem creg (h : KeysKept P s t) (hc : u.creg = t.creg) : KeysKept P s u := fun f hf => (State.cget_of_creg hc f).trans (h f hf)

theorem cset (h : KeysKept P s t) (g : Fld) (v : Nat) (hg : ¬ P g.key) : KeysKept P s (t.cset g v) := fun f hf =>
  (State.cget_cset_ne t g f v fun e => hg (e ▸ hf)).trans (h f hf)

theorem notes (hP : ∀ k, P k → ¬ noteKey k) (h : KeysKept P s t) (hn : Notes t u) : KeysKept P s u := fun f hf =>
  (hn.regs f (hP _ hf)).trans (h f hf)

theorem raise (hP : ∀ k, P k → ¬ noteKey k) (h : KeysKept P s t) (g : Fld) (hg : ¬ P g.key) : KeysKept P s (t.raise g) := fun f hf =>
  (t.raise_regs g f (hP _ hf) fun e => hg (e ▸ hf)).trans (h f hf)

theorem when (h : KeysKept P s t) (b : Bool) {g : State → State} (h' : KeysKept P s (g t)) : KeysKept P s (t.when b g) := by
  cases b
  exacts [h, h']

theorem ite {c : Prop} [Decidable c] (h : KeysKept P s t) (h' : KeysKept P s u) : KeysKept P s (if c then t else u) := by
  split
  exacts [h, h']

theorem foldl {α : Type} {g : State → α → State} {l : List α} (h : ∀ z, ∀ a ∈ l, KeysKept P z (g z a)) (s : State) :
    KeysKept P s (l.foldl g s) :=
  List.foldlRecOn (motive := KeysKept P s) l g (.refl s) fun z hz a ha => hz.trans (h z a ha)

end KeysKept

/-- Keys of the register that shows the guard's inputs. -/
def ginKey (k : Nat) : Prop := 0x900018 * 64 ≤ k ∧ k < 0x900019 * 64

theorem not_noteKey_of_ginKey (k : Nat) (h : ginKey k) : ¬ noteKey k := by
  unfold ginKey at h
  unfold noteKey
  omega

theorem not_ginKey {f : Fld} (h : f.reg < 0x900018 ∨ 0x900019 ≤ f.reg) (hlo : f.lo < 64) : ¬ ginKey f.key := by
  unfold ginKey Fld.key
  omega

theorem ginKey_proven {n : Nat} (h : n < 4) : ginKey (PRO_GIN_PROVEN n).key := by
  simp only [ginKey, Fld.key, PRO_GIN_PROVEN]
  omega

section gin
variable (s : State)

theorem State.freeze_gin (m : Nat) : KeysKept ginKey s (s.freeze m) := by
  have hbusy (z : State) (c : Nat) (hc : c < 16) : KeysKept ginKey z (z.setMv c 7) := fun f hf =>
    (z.setMv_mover hc 7).regs f (.inr (by unfold ginKey at hf; omega))
  have h := (KeysKept.refl s).cset FWL_STAT_FROZEN (Nat.lor (s.cget FWL_STAT_FROZEN) (2 ^ m)) (not_ginKey (by decide) (by decide))
  unfold State.freeze
  dsimp only
  split
  · exact (h.cset SP_STAT_FROZEN 1 (not_ginKey (by decide) (by decide))).cset SP_STAT_RUN 0 (not_ginKey (by decide) (by decide))
  · split
    · exact h.trans (hbusy _ _ (by omega))
    · split
      · exact h.when _ h
      · exact h

theorem State.violation_gin (m : Nat) (sp : Space) (key : Nat) (a : Access) : KeysKept ginKey s (s.violation m sp key a) := by
  have hno {f : Fld} (h : f ∈ [FWL_LOG0_MASTER, FWL_LOG0_SPACE, FWL_LOG0_TYPE, FWL_LOG1_KEY, FWL_LOG2_NS, FWL_LOG3_SEC, FWL_STAT_VIOL,
      FWL_CNT_VIOL]) :
      ¬ ginKey f.key := by
    refine not_ginKey ?_ ?_ <;> revert f <;> decide
  have hl := (((((KeysKept.refl (P := ginKey) (s.freeze m)).cset FWL_LOG0_MASTER m (hno (by decide))).cset FWL_LOG0_SPACE sp.code
    (hno (by decide))).cset FWL_LOG0_TYPE a.code (hno (by decide))).cset FWL_LOG1_KEY key (hno (by decide))).cset FWL_LOG2_NS
    (s.freeze m).tm.now.ns (hno (by decide)) |>.cset FWL_LOG3_SEC (s.freeze m).tm.now.sec (hno (by decide))
  unfold State.violation
  exact (s.freeze_gin m).trans ((((KeysKept.refl _).when _ hl).raise not_noteKey_of_ginKey FWL_STAT_VIOL (hno (by decide))).cset FWL_CNT_VIOL _
    (hno (by decide)) |>.notes not_noteKey_of_ginKey (State.logBit_notes _ _ _ _ _))

/-! ### Resets of the concentrator -/

theorem slotState_reg (n : Nat) : (slotState n).reg = 0xB00004 ∧ (slotState n).lo < 64 := by
  unfold slotState
  split <;> decide

theorem State.showVer_gin (n : Nat) : KeysKept ginKey s (s.showVer n) :=
  (KeysKept.refl s).cset _ _ (not_ginKey (.inr (by simp only [NVM_VER_VER]; omega)) (by simp [NVM_VER_VER]))

theorem State.cset_slotState_gin (n v : Nat) : KeysKept ginKey s (s.cset (slotState n) v) :=
  (KeysKept.refl s).cset _ _ (not_ginKey (.inr (by rw [(slotState_reg n).1]; decide)) (slotState_reg n).2)

theorem State.recoverArea_gin (a : NvmArea) : KeysKept ginKey s (s.recoverArea a) := by
  have h1 : ∀ s1 : State, KeysKept ginKey s s1 → ∀ code lost : Nat,
      let s2 := (s1.cset NVM_STAT_JRECOV 1).logOwn 0x04 0 0 code 0
      let s3 := if a = .log then s2.logOwn 0x05 0 0 lost 0 else s2
      KeysKept ginKey s (if a = .logErase ∧ !(s3.nvm.journal.contains .logErase) then s3.program .logErase else s3) := by
    intro s1 h code lost s2 s3
    have h2 : KeysKept ginKey s s2 := (h.cset NVM_STAT_JRECOV 1 (not_ginKey (by decide) (by decide))).notes not_noteKey_of_ginKey
      (State.logOwn_notes _ _ _ _ _ _)
    have h3 : KeysKept ginKey s s3 := (h2.notes not_noteKey_of_ginKey (State.logOwn_notes s2 0x05 0 0 lost 0)).ite h2
    exact (h3.notes not_noteKey_of_ginKey (State.program_notes s3 _)).ite h3
  unfold State.recoverArea
  refine h1 _ ?_ _ _
  cases a with
  | slot n => exact ((KeysKept.refl s).creg rfl |>.trans (State.cset_slotState_gin _ n 0)).trans (State.showVer_gin _ n)
  | _ => exact KeysKept.refl s

theorem State.recover_gin : KeysKept ginKey s s.recover := by
  have h0 : KeysKept ginKey s ((s.setJournal []).modNvm fun v => { v with cut := false }) :=
    ((KeysKept.refl s).cset NVM_STAT_BUSY (b2n !([] : List NvmArea).isEmpty) (not_ginKey (by decide) (by decide))).creg rfl
  exact h0.trans (.foldl (fun z a _ => z.recoverArea_gin a) _)

theorem State.bootSlot_gin (sound : Nat → Bool) : KeysKept ginKey s (s.bootSlot sound) := by
  have hno {f : Fld} (h : f ∈ [NVM_SLOT_ACTIVE, GLB_STAT_SLOT_FALLBACK, GLB_STAT_RECOVERY, SP_STAT_RUN]) : ¬ ginKey f.key := by
    refine not_ginKey ?_ ?_ <;> revert f <;> decide
  unfold State.bootSlot
  extract_lets a b z s1 c d z2 s2 s3
  have h1 : KeysKept ginKey s s1 := by
    have hz : KeysKept ginKey s z := s.cset_slotState_gin a 4
    exact ((hz.cset NVM_SLOT_ACTIVE b (hno (by decide))).ite hz).ite (.refl s)
  have h2 : KeysKept ginKey s s2 := by
    have hz : KeysKept ginKey s z2 := h1.trans (s1.cset_slotState_gin c 4)
    exact ((h1.trans (s1.cset_slotState_gin c 3)).ite h1).ite
      (((hz.cset NVM_SLOT_ACTIVE d (hno (by decide))).cset GLB_STAT_SLOT_FALLBACK 1 (hno (by decide))).ite
        (hz.cset GLB_STAT_RECOVERY 1 (hno (by decide))))
  have h3 : KeysKept ginKey s s3 := (h2.trans (s2.showVer_gin 0)).trans (State.showVer_gin _ 1)
  exact h3.ite ((h3.cset SP_STAT_RUN 1 (hno (by decide))).creg rfl)

/-- Every power-on clears the proof of the guard's inputs. -/
theorem State.powerOn_proven (cause straps : Nat) (img0 img1 : Option ImgRead) {n : Nat} (hn : n < 4) :
    (s.powerOn cause straps img0 img1).con (PRO_GIN_PROVEN n) = false := by
  have hne : ∀ g ∈ coldFields, (PRO_GIN_PROVEN n).key ≠ g.key := fun g hg => by
    have hg' : 0x901000 * 64 ≤ g.key := by
      revert g
      decide
    simp only [Fld.key, PRO_GIN_PROVEN] at hg' ⊢
    omega
  have hcold : s.cold.cget (PRO_GIN_PROVEN n) = 0 := s.cold_cget hne
  have hread (z : State) (k : Nat) (img : Option ImgRead) : (z.readSlot k img).creg = z.creg := by
    unfold State.readSlot
    split <;> rfl
  unfold State.powerOn
  extract_lets c1 c2 c3
  have h1 : KeysKept ginKey s.cold c1 := ((KeysKept.refl _).creg (hread _ 0 _)).creg (hread _ 1 _)
  have h2 : KeysKept ginKey s.cold c2 := ((h1.cset GLB_STAT_RCAUSE _ (not_ginKey (by decide) (by decide))).cset PRO_STAT_CLASS _
    (not_ginKey (by decide) (by decide))).cset PRO_STAT_STRAP _ (not_ginKey (by decide) (by decide))
  have h3 : KeysKept ginKey s.cold c3 := (h2.creg rfl).trans (State.recover_gin _)
  rw [State.con_eq_false, (h3.trans (c3.bootSlot_gin _)) _ (ginKey_proven hn), hcold]

theorem State.issueLine_cget (r : Nat) (c : Chain) (l : Nat) (d : List Byte) {f : Fld} (h : f.key ≠ (FRR_LINES_CNT r).key) :
    (s.issueLine r c l d).cget f = s.cget f := by
  unfold State.issueLine State.cwrap
  rw [State.cget_cset_ne _ _ _ _ h]
  rfl

theorem State.closeAt_creg (r : Nat) (c : Chain) (x : IxRegion) (f : Fld) (h : f.key ≠ (FRR_LINES_CNT r).key) :
    (s.closeAt r c x).cget f = s.cget f := by
  unfold State.closeAt
  extract_lets l g z y d
  have hy : y.2.creg = s.creg := by
    dsimp only [y]
    cases s.bufferedLine r x.lastx l with
    | some w => rfl
    | none =>
      obtain ⟨a, b, hab⟩ : ∃ a b, s.storedLine r x.lastx l = (a, b) := ⟨_, _, rfl⟩
      dsimp only [z]
      rw [hab]
      have hb : b.creg = s.creg := (congrArg State.creg (State.storedLine_drawn hab) :)
      exact hb
  split
  · rfl
  · exact (State.issueLine_cget _ r _ _ _ h).trans (State.cget_of_creg hy f)

theorem State.cutChain_gin {r : Nat} (hr : r < 4) (c : Chain) : KeysKept ginKey s (s.cutChain r c) := by
  have hclose (z : State) (d : Chain) (x : IxRegion) : KeysKept ginKey z (z.closeAt r d x) := fun f hf =>
    z.closeAt_creg r d x f fun e => not_ginKey (f := FRR_LINES_CNT r) (.inl (by simp only [FRR_LINES_CNT]; omega)) (by simp [FRR_LINES_CNT]) (e ▸ hf)
  unfold State.cutChain
  extract_lets x s1
  have h1 : KeysKept ginKey s s1 := KeysKept.ite (.creg (.refl s) rfl) (.refl s)
  exact KeysKept.ite (h1.creg rfl) ((h1.trans (hclose _ _ _)).creg rfl)

theorem regionStatus_gin {r k : Nat} (hr : r < 4) (hk : ginKey k) : regionStatus r k = false := by
  have hh : (decide (0x300000 + 0x40000 * r ≤ k / 64 ∧ k / 64 < 0x340000 + 0x40000 * r) ||
      decide (0x401000 + 0x1000 * r ≤ k / 64 ∧ k / 64 < 0x402000 + 0x1000 * r)) = false := by
    unfold ginKey at hk
    simp only [Bool.or_eq_false_iff, decide_eq_false_iff_not]
    omega
  unfold regionStatus
  dsimp only
  rw [hh]
  split <;> rfl

/-- The region's status registers cleared and its ports emptied. -/
def State.regionCleared (s : State) (r : Nat) (p : Tab Port) : State :=
  { s with creg := s.creg.filter fun e => !(regionStatus r e.1), ports := p }

theorem State.regionCleared_gin {r : Nat} (hr : r < 4) (p : Tab Port) : KeysKept ginKey s (s.regionCleared r p) := fun f hf => by
  change tget (tkeep s.creg fun k => !regionStatus r k) f.key f.reset % 2 ^ f.width = _
  rw [tget_tkeep, if_pos (by rw [regionStatus_gin hr hf]; rfl)]
  rfl

theorem State.plEnter_gin {p : Nat} (hp : p < 1024) : KeysKept ginKey s (s.plEnter p 0) := fun f hf =>
  s.plEnter_cget_ne p (by decide) fun e =>
    not_ginKey (f := PL_STAT_STATE p) (.inl (by simp only [PL_STAT_STATE]; omega)) (by simp [PL_STAT_STATE]) (e ▸ hf)

theorem mem_regionPorts {r p : Nat} (hr : r < 4) (hp : p ∈ (List.range 256).map (· + 256 * r)) : p < 1024 := by
  obtain ⟨q, hq, rfl⟩ := List.mem_map.1 hp
  have := List.mem_range.1 hq
  omega

theorem State.regionReset_gin {r : Nat} (hr : r < 4) : KeysKept ginKey s (s.regionReset r) := by
  have hraise (z : State) : KeysKept ginKey z (z.raise (RG_STAT_RESET_SEEN r)) := (KeysKept.refl z).raise not_noteKey_of_ginKey _
    (not_ginKey (.inl (by simp only [RG_STAT_RESET_SEEN]; omega)) (by simp [RG_STAT_RESET_SEEN]))
  have h1 : KeysKept ginKey s ((s.rgn r).chains.foldl (fun z c => z.cutChain r c) s) := KeysKept.foldl (fun z c _ => z.cutChain_gin hr c) s
  unfold State.regionReset
  refine KeysKept.ite (.refl s) ?_
  dsimp only
  generalize (s.rgn r).chains.foldl (fun z c => z.cutChain r c) s = s1 at h1
  refine KeysKept.trans (KeysKept.creg ?_ rfl) (hraise _)
  refine (h1.trans (s1.regionCleared_gin hr _)).trans (KeysKept.foldl (fun z p hp => z.plEnter_gin ?_) _)
  exact mem_regionPorts hr (List.mem_filter.1 hp).1

theorem State.serviceReset_gin : KeysKept ginKey s s.serviceReset := by
  have hm : KeysKept ginKey s (s.mvResets 15) := fun f hf => (s.mvResets_mover 15).regs f (.inr (by unfold ginKey at hf; omega))
  have h1 : KeysKept ginKey s (s.mvStopAll none 15) := by
    rw [State.mvStopAll_none]
    exact hm.raise not_noteKey_of_ginKey MV_STAT_STOP (not_ginKey (by decide) (by decide))
  unfold State.serviceReset
  generalize s.mvStopAll none 15 = z at h1
  exact (((h1.cset FWL_STAT_FROZEN _ (not_ginKey (by decide) (by decide))).cset SP_STAT_FROZEN 0 (not_ginKey (by decide) (by decide))).cset
    SP_STAT_RUN _ (not_ginKey (by decide) (by decide))).creg rfl

theorem State.opGlbRst_gin (v : Nat) : KeysKept ginKey s (s.opGlbRst v) := by
  have hf : KeysKept ginKey s ((List.range 4).foldl (fun z r => if bitAt v (4 + r) then z.regionReset r else z) s) :=
    KeysKept.foldl (fun z r hr => .ite (z.regionReset_gin (List.mem_range.1 hr)) (.refl z)) s
  exact KeysKept.ite (.refl s) (KeysKept.ite (hf.trans (State.serviceReset_gin _)) hf)

theorem State.guarded_gin (m : Nat) (sp : Space) (key : Nat) (a : Access) {k : State → State} (hk : KeysKept ginKey s (k s)) :
    KeysKept ginKey s (s.guarded m sp key a k) :=
  KeysKept.ite (.refl s) (KeysKept.ite hk (s.violation_gin m sp key a))

/-- A write of the reset register leaves the proof of the inputs, whatever it resets. -/
theorem State.softWritten_gin (m v : Nat) :
    KeysKept ginKey s (s.guarded m .control GLB_RST_SOFT.reg .write fun z => (z.opGlbRst v).answer m false 0) :=
  s.guarded_gin m _ _ _ ((s.opGlbRst_gin v).creg rfl)

end gin

/-! ### What moves of permits leave -/

/-- Keys of the registers that moves of permits write. -/
def moveKey (k : Nat) : Prop :=
  noteKey k ∨ k / 64 = 0x900014 ∨ k / 64 = 0x90001C ∨ k / 64 = 0x900020 ∨ k = PRO_STAT_LATCH.key ∨ k = PRO_STAT_LOCKOUT.key ∨
    k = GLB_STAT_LOCKOUT.key

/-- Keys of the fields of permit `n`: its state, its output and its causes. -/
def permitKey (n k : Nat) : Prop := k = (PRO_GSTAT_STATE n).key ∨ k = (PRO_GSTAT_OUT n).key ∨ k = (PRO_GCAUSE_CAUSE n).key

/-- `t` is `s` with permits moved that are not in `N`. -/
structure PermitsKept (N : Nat → Prop) (s t : State) : Prop where
  tm : t.tm = s.tm
  ports : t.ports = s.ports
  pro : t.pro = { s.pro with heldTick := t.pro.heldTick, causeTick := t.pro.causeTick }
  regs : KeysKept (fun k => ¬ moveKey k) s t
  own : ∀ n < 4, N n → KeysKept (permitKey n) s t
  held : ∀ n < 4, N n → tget t.pro.heldTick n 0 = tget s.pro.heldTick n 0
  latch : ∀ n < 4, N n → t.nvm.latch0.getD n false = s.nvm.latch0.getD n false
  length : t.nvm.latch0.length = s.nvm.latch0.length
  shown : ∀ n < 4, N n → bitAt (s.cget PRO_STAT_LATCH) n = s.nvm.latch0.getD n false →
    bitAt (t.cget PRO_STAT_LATCH) n = t.nvm.latch0.getD n false

theorem not_permitKey {f : Fld} (h : f.reg ≠ 0x900014 ∧ f.reg ≠ 0x90001C) (hlo : f.lo < 64) {n : Nat} (hn : n < 4) : ¬ permitKey n f.key := by
  simp only [permitKey, Fld.key, PRO_GSTAT_STATE, PRO_GSTAT_OUT, PRO_GCAUSE_CAUSE]
  omega

theorem not_noteKey_of_permitKey {n : Nat} (hn : n < 4) (k : Nat) (h : permitKey n k) : ¬ noteKey k := by
  simp only [permitKey, Fld.key, PRO_GSTAT_STATE, PRO_GSTAT_OUT, PRO_GCAUSE_CAUSE] at h
  unfold noteKey
  omega

namespace PermitsKept

variable {N : Nat → Prop} {s t u : State}

theorem refl (s : State) : PermitsKept N s s :=
  ⟨rfl, rfl, rfl, .refl s, fun _ _ _ => .refl s, fun _ _ _ => rfl, fun _ _ _ => rfl, rfl, fun _ _ _ h => h⟩

theorem trans (h : PermitsKept N s t) (h' : PermitsKept N t u) : PermitsKept N s u where
  tm := h'.tm.trans h.tm
  ports := h'.ports.trans h.ports
  pro := by rw [h'.pro, h.pro]
  regs := h.regs.trans h'.regs
  own n hn hN := (h.own n hn hN).trans (h'.own n hn hN)
  held n hn hN := (h'.held n hn hN).trans (h.held n hn hN)
  latch n hn hN := (h'.latch n hn hN).trans (h.latch n hn hN)
  length := h'.length.trans h.length
  shown n hn hN hs := h'.shown n hn hN (h.shown n hn hN hs)

/-- A register of the moves that is none of the latch and none of a permit in `N`. -/
theorem cset (h : PermitsKept N s t) (g : Fld) (v : Nat) (hg : moveKey g.key) (hl : g.key ≠ PRO_STAT_LATCH.key)
    (hN : ∀ n < 4, N n → ¬ permitKey n g.key) : PermitsKept N s (t.cset g v) where
  tm := h.tm
  ports := h.ports
  pro := h.pro
  regs := h.regs.cset g v (not_not_intro hg)
  own n hn hNn := (h.own n hn hNn).cset g v (hN n hn hNn)
  held := h.held
  latch := h.latch
  length := h.length
  shown n hn hNn hs := by
    rw [State.cget_cset_ne _ _ _ _ hl.symm]
    exact h.shown n hn hNn hs

theorem notes (h : PermitsKept N s t) (hn : Notes t u) (hv : NvmLogged t.nvm u.nvm) : PermitsKept N s u where
  tm := (congrArg State.tm hn.same :).trans h.tm
  ports := hn.ports_eq.trans h.ports
  pro := by
    rw [hn.pro_eq]
    exact h.pro
  regs := h.regs.notes (fun _ hk hno => hk (.inl hno)) hn
  own n hn' hN := (h.own n hn' hN).notes (not_noteKey_of_permitKey hn') hn
  held n hn' hN := by
    rw [hn.pro_eq]
    exact h.held n hn' hN
  latch n hn' hN := by
    rw [(congrArg NvmSt.latch0 hv :)]
    exact h.latch n hn' hN
  length := by
    rw [(congrArg NvmSt.latch0 hv :)]
    exact h.length
  shown n hn' hN hs := by
    rw [hn.regs _ (by unfold noteKey; decide), (congrArg NvmSt.latch0 hv :)]
    exact h.shown n hn' hN hs

theorem logBit (h : PermitsKept N s t) (f : Fld) (actor d5 d6 : Nat) : PermitsKept N s (t.logBit f actor d5 d6) :=
  h.notes (t.logBit_notes f actor d5 d6) (t.logAdd_nvm _)

theorem causeTick (h : PermitsKept N s t) (x : Tab Nat) : PermitsKept N s (t.modPro fun p => { p with causeTick := x }) where
  tm := h.tm
  ports := h.ports
  pro := by
    change { t.pro with causeTick := x } = _
    rw [h.pro]
    rfl
  regs := h.regs
  own := h.own
  held := h.held
  latch := h.latch
  length := h.length
  shown := h.shown

theorem heldTick (h : PermitsKept N s t) {m : Nat} (hm : ¬ N m) (v : Nat) :
    PermitsKept N s (t.modPro fun p => { p with heldTick := tset p.heldTick m 0 v }) where
  tm := h.tm
  ports := h.ports
  pro := by
    change { t.pro with heldTick := tset t.pro.heldTick m 0 v } = _
    rw [h.pro]
    rfl
  regs := h.regs
  own := h.own
  held n hn hN := (tget_tset_ne t.pro.heldTick 0 v 0 fun e : n = m => hm (e ▸ hN)).trans (h.held n hn hN)
  latch := h.latch
  length := h.length
  shown := h.shown

/-- Permit `m` in a new state. -/
theorem setPermit (h : PermitsKept N s t) {m : Nat} (hm4 : m < 4) (hm : ¬ N m) (st : Nat) : PermitsKept N s (t.setPermit m st) := by
  have hmove (o : Nat) (ho : o < 64) : moveKey (0x900014 * 64 + o) := by
    unfold moveKey
    omega
  unfold State.setPermit
  refine (h.cset (PRO_GSTAT_STATE m) st (hmove (4 * m) (by omega)) ?_ ?_).cset (PRO_GSTAT_OUT m) _ (hmove (4 * m + 3) (by omega)) ?_ ?_
  · simp only [Fld.key, PRO_GSTAT_STATE, PRO_STAT_LATCH]
    omega
  · rintro n hn hN hk
    refine hm ?_
    simp only [permitKey, Fld.key, PRO_GSTAT_STATE, PRO_GSTAT_OUT, PRO_GCAUSE_CAUSE] at hk
    have : n = m := by omega
    rwa [← this]
  · simp only [Fld.key, PRO_GSTAT_OUT, PRO_STAT_LATCH]
    omega
  · rintro n hn hN hk
    refine hm ?_
    simp only [permitKey, Fld.key, PRO_GSTAT_STATE, PRO_GSTAT_OUT, PRO_GCAUSE_CAUSE] at hk
    have : n = m := by omega
    rwa [← this]

/-- The causes of permit `m` shown. -/
theorem showCause (h : PermitsKept N s t) {m : Nat} (hm4 : m < 4) (hm : ¬ N m) (c : Nat) : PermitsKept N s (t.cset (PRO_GCAUSE_CAUSE m) c) := by
  refine h.cset _ c ?_ ?_ ?_
  · simp only [moveKey, Fld.key, PRO_GCAUSE_CAUSE]
    omega
  · simp only [Fld.key, PRO_GCAUSE_CAUSE, PRO_STAT_LATCH]
    omega
  · rintro n hn hN hk
    refine hm ?_
    simp only [permitKey, Fld.key, PRO_GSTAT_STATE, PRO_GSTAT_OUT, PRO_GCAUSE_CAUSE] at hk
    have : n = m := by omega
    rwa [← this]

/-- A count of the guard. -/
theorem cbump (h : PermitsKept N s t) (f : Fld) (hf : f.reg = 0x900020) (hlo : f.lo < 64) : PermitsKept N s (t.cbump f) := by
  refine h.cset f _ ?_ ?_ fun n hn _ => not_permitKey (by omega) hlo hn
  · simp only [moveKey, Fld.key, hf]
    omega
  · simp only [Fld.key, hf, PRO_STAT_LATCH]
    omega

end PermitsKept

/-! ### The latch -/

/-- The bits of the latch as they are shown. -/
def latchShown (l : List Bool) : Nat := pack ((List.range 4).map fun n => (n, 1, b2n (l.getD n false)))

theorem bitAt_latchShown (l : List Bool) {n : Nat} (hn : n < 4) : bitAt (latchShown l % 2 ^ 4) n = l.getD n false := by
  have h : ∀ b0 b1 b2 b3 : Bool, ∀ n : Fin 4,
      bitAt (pack [(0, 1, b2n b0), (1, 1, b2n b1), (2, 1, b2n b2), (3, 1, b2n b3)] % 2 ^ 4) n = [b0, b1, b2, b3].getD n false := by decide
  have h' := h (l.getD 0 false) (l.getD 1 false) (l.getD 2 false) (l.getD 3 false) ⟨n, hn⟩
  refine h'.trans ?_
  match n, hn with
  | 0, _ => rfl
  | 1, _ => rfl
  | 2, _ => rfl
  | 3, _ => rfl

theorem State.showLatch_bit (s : State) {n : Nat} (hn : n < 4) : bitAt (s.showLatch.cget PRO_STAT_LATCH) n = s.nvm.latch0.getD n false := by
  have h : s.showLatch.cget PRO_STAT_LATCH = latchShown s.nvm.latch0 % 2 ^ 4 := by
    unfold State.showLatch
    dsimp only
    rw [State.cget_cset_ne _ _ _ _ (by decide), State.cget_cset_ne _ _ _ _ (by decide)]
    exact State.cget_cset_same _ _ _
  rw [h, bitAt_latchShown _ hn]

namespace PermitsKept

variable {N : Nat → Prop} {s t u : State}

/-- The latch shown again. -/
theorem showLatch (h : PermitsKept N s t) : PermitsKept N s t.showLatch where
  tm := h.tm
  ports := h.ports
  pro := h.pro
  regs := ((h.regs.cset PRO_STAT_LATCH _ (not_not_intro (by simp [moveKey]))).cset PRO_STAT_LOCKOUT _
    (not_not_intro (by simp [moveKey]))).cset GLB_STAT_LOCKOUT _ (not_not_intro (by simp [moveKey]))
  own n hn hN := (((h.own n hn hN).cset PRO_STAT_LATCH _ (not_permitKey (by decide) (by decide) hn)).cset PRO_STAT_LOCKOUT _
    (not_permitKey (by decide) (by decide) hn)).cset GLB_STAT_LOCKOUT _ (not_permitKey (by decide) (by decide) hn)
  held := h.held
  latch := h.latch
  length := h.length
  shown n hn _ _ := t.showLatch_bit hn

/-- A latch bit changed that is none of those in `N`. -/
theorem latchSet (h : PermitsKept N s t) {m : Nat} (hm : ¬ N m) (b : Bool) :
    PermitsKept N s (t.modNvm fun v => { v with latch0 := v.latch0.set m b }) := by
  have hset : ∀ n, N n → (t.nvm.latch0.set m b).getD n false = t.nvm.latch0.getD n false := fun n hN => by
    rw [List.getD_eq_getElem?_getD, List.getElem?_set_ne fun e : m = n => hm (e ▸ hN), List.getD_eq_getElem?_getD]
  exact
    { tm := h.tm, ports := h.ports, pro := h.pro, regs := h.regs, own := h.own, held := h.held
      latch := fun n hn hN => (hset n hN).trans (h.latch n hn hN)
      length := List.length_set.trans h.length
      shown := fun n hn hN hs => (h.shown n hn hN hs).trans (hset n hN).symm }

theorem setLatch (h : PermitsKept N s t) {m : Nat} (hm : ¬ N m) (b : Bool) : PermitsKept N s (t.setLatch m b) := by
  unfold State.setLatch
  split
  · exact h
  · have hp := (h.latchSet hm b).notes (State.program_notes _ .latch) (State.program_nvm _ .latch)
    exact hp.showLatch.logBit PRO_STAT_LATCH 0xFF m (b2n b)

theorem trip (h : PermitsKept N s t) {m : Nat} (hm4 : m < 4) (hm : ¬ N m) (st : Nat) : PermitsKept N s (t.trip m st) := by
  have h1 := ((h.setPermit hm4 hm st).cbump PRO_GCNT_TRIPS rfl (by decide)).logBit PRO_GCNT_TRIPS 0xFF m st
  unfold State.trip
  dsimp only
  split
  · exact h1.setLatch hm true
  · exact h1

theorem permitStep (h : PermitsKept N s t) {m : Nat} (hm4 : m < 4) (hm : ¬ N m) : PermitsKept N s (t.permitStep m) := by
  have h1 := h.showCause hm4 hm (t.causes m)
  have h2 := h1.causeTick (tset t.pro.causeTick m 0 t.tm.tick)
  unfold State.permitStep
  dsimp only
  split
  · exact h1
  split
  · split
    · exact h1.trip hm4 hm 4
    · split
      · exact h1.setPermit hm4 hm 1
      · exact h1
  split
  · split
    · exact h1
    split
    · exact h2.trip hm4 hm _
    split
    · exact h2
    split
    · exact (h2.setPermit hm4 hm 2).heldTick hm _
    · exact h2.trip hm4 hm 4
  · exact h1

theorem permitReset (h : PermitsKept N s t) {m : Nat} (hm4 : m < 4) (hm : ¬ N m) : PermitsKept N s (t.permitReset m) := by
  unfold State.permitReset
  split
  · exact h
  split
  · exact (h.setPermit hm4 hm 0).setLatch hm false
  · exact (h.cbump PRO_GCNT_RESET_REF rfl (by decide)).logBit _ _ _ _

/-! What holds of permits after such moves. -/

theorem cget_eq (h : PermitsKept N s t) {f : Fld} (hf : ¬ moveKey f.key) : t.cget f = s.cget f := h.regs f hf

theorem con_eq (h : PermitsKept N s t) {f : Fld} (hf : ¬ moveKey f.key) : t.con f = s.con f := by
  rw [State.con, State.con, h.cget_eq hf]

theorem permit_eq (h : PermitsKept N s t) {n : Nat} (hn : n < 4) (hN : N n) : t.permit n = s.permit n := h.own n hn hN _ (.inl rfl)

theorem out_eq (h : PermitsKept N s t) {n : Nat} (hn : n < 4) (hN : N n) : t.con (PRO_GSTAT_OUT n) = s.con (PRO_GSTAT_OUT n) := by
  rw [State.con, State.con, h.own n hn hN _ (.inr (.inl rfl))]

theorem cause_eq (h : PermitsKept N s t) {n : Nat} (hn : n < 4) (hN : N n) : t.cget (PRO_GCAUSE_CAUSE n) = s.cget (PRO_GCAUSE_CAUSE n) :=
  h.own n hn hN _ (.inr (.inr rfl))

theorem latchRead_eq (h : PermitsKept N s t) : t.pro.latchRead = s.pro.latchRead := (congrArg ProSt.latchRead h.pro :)

theorem outFault_eq (h : PermitsKept N s t) : t.pro.outFault = s.pro.outFault := (congrArg ProSt.outFault h.pro :)

theorem evals_eq (h : PermitsKept N s t) : t.pro.evals = s.pro.evals := (congrArg ProSt.evals h.pro :)

theorem commonTested_eq (h : PermitsKept N s t) : t.pro.commonTested = s.pro.commonTested := (congrArg ProSt.commonTested h.pro :)

theorem classL_eq (h : PermitsKept N s t) : t.classL = s.classL := by
  rw [State.classL, State.classL, h.cget_eq (by unfold moveKey noteKey; decide)]

end PermitsKept

/-! ### Causes -/

/-- Keys of the registers that moves of permits leave, but for the one that shows a guard fault and those of the settings window. -/
def causeKey (k : Nat) : Prop := ¬ moveKey k ∧ k ≠ PRO_STAT_FAULT.key ∧ k / 64 ≠ 0x900024

/-- `t` agrees with `s` in all that causes and grants of permits depend on. -/
structure CausesKept (s t : State) : Prop where
  tm : t.tm = s.tm
  ports : t.ports = s.ports
  sensors : t.pro.sensors = s.pro.sensors
  commonTested : t.pro.commonTested = s.pro.commonTested
  outFault : t.pro.outFault = s.pro.outFault
  strapBad : t.pro.strapBad = s.pro.strapBad
  selfBad : t.pro.selfBad = s.pro.selfBad
  regs : KeysKept causeKey s t

theorem PermitsKept.causesKept {N : Nat → Prop} {s t : State} (h : PermitsKept N s t) : CausesKept s t :=
  ⟨h.tm, h.ports, (congrArg ProSt.sensors h.pro :), h.commonTested_eq, h.outFault_eq, (congrArg ProSt.strapBad h.pro :),
    (congrArg ProSt.selfBad h.pro :), fun f hf => h.regs f hf.1⟩

/-- Causes and grants depend on registers that are in `causeKey`. -/
theorem causeKey_of {f : Fld} (h : 0x900002 ≤ f.reg ∧ f.reg < 0x902000)
    (hno : f.reg ≠ 0x900014 ∧ f.reg ≠ 0x90001C ∧ f.reg ≠ 0x900020 ∧ f.reg ≠ 0x900024)
    (hlo : f.lo < 64) : causeKey f.key := by
  simp only [causeKey, PRO_STAT_FAULT, moveKey, noteKey, Fld.key, PRO_STAT_LATCH, PRO_STAT_LOCKOUT, GLB_STAT_LOCKOUT]
  omega

/-- The ports that feed permit `n`. -/
theorem State.mem_mapped {s : State} {n p : Nat} :
    p ∈ (s.mappedPorts.filter fun p => bitAt (s.cget (PRO_GMAP_PMASK p)) n) ↔ p < 1024 ∧ bitAt (s.cget (PRO_GMAP_PMASK p)) n = true := by
  rw [List.mem_filter]
  refine and_congr_left fun hb => ⟨fun h => ?_, fun h => ?_⟩
  · simp only [State.mappedPorts, List.mem_map, List.mem_dedup, List.mem_filter, decide_eq_true_eq] at h
    omega
  · have hne : tget s.creg (PRO_GMAP_PMASK p).key 0 ≠ 0 := fun h0 => by
      have : s.cget (PRO_GMAP_PMASK p) = 0 := by
        rw [State.cget]
        change tget s.creg (PRO_GMAP_PMASK p).key 0 % 2 ^ 4 = 0
        rw [h0]
        rfl
      rw [this] at hb
      simp [bitAt] at hb
    have hm := mem_of_tget hne
    have hk : (PRO_GMAP_PMASK p).key / 64 = 0x901000 + 4 * p := by
      simp only [Fld.key, PRO_GMAP_PMASK]
      omega
    simp only [State.mappedPorts, List.mem_map, List.mem_dedup, List.mem_filter, decide_eq_true_eq]
    refine ⟨0x901000 + 4 * p, ⟨⟨_, hm, hk⟩, by omega⟩, by omega⟩

section causes
variable {s t : State}

theorem any_eq_of_mem {α : Type} {l m : List α} {f g : α → Bool} (hl : ∀ a, a ∈ l ↔ a ∈ m) (hf : ∀ a ∈ m, f a = g a) : l.any f = m.any g := by
  rw [Bool.eq_iff_iff, List.any_eq_true, List.any_eq_true]
  exact ⟨fun ⟨a, ha, h⟩ => ⟨a, (hl a).1 ha, hf a ((hl a).1 ha) ▸ h⟩, fun ⟨a, ha, h⟩ => ⟨a, (hl a).2 ha, (hf a ha).symm ▸ h⟩⟩

theorem guardInputs_lt {n i : Nat} (h : i ∈ s.guardInputs n) : i < 4 := List.mem_range.1 (List.mem_filter.1 h).1

theorem CausesKept.cget_eq (h : CausesKept s t) {f : Fld} (hf : causeKey f.key) : t.cget f = s.cget f := h.regs f hf

theorem CausesKept.con_eq (h : CausesKept s t) {f : Fld} (hf : causeKey f.key) : t.con f = s.con f := by
  rw [State.con, State.con, h.cget_eq hf]

theorem CausesKept.guardInputs_eq (h : CausesKept s t) (n : Nat) : t.guardInputs n = s.guardInputs n :=
  List.filter_congr fun i hi => by
    have hi4 := List.mem_range.1 hi
    rw [h.con_eq (f := PRO_GIN_CFG_EN i) (causeKey_of (by simp only [PRO_GIN_CFG_EN]; omega) (by simp only [PRO_GIN_CFG_EN]; omega)
        (by simp [PRO_GIN_CFG_EN])),
      h.cget_eq (f := PRO_GIN_CFG_PMASK i) (causeKey_of (by simp only [PRO_GIN_CFG_PMASK]; omega) (by simp only [PRO_GIN_CFG_PMASK]; omega)
        (by simp [PRO_GIN_CFG_PMASK]))]

theorem CausesKept.gin_eq (h : CausesKept s t) {f : Fld} (hr : f.reg = 0x900018) (hlo : f.lo < 64) : t.cget f = s.cget f :=
  h.cget_eq (causeKey_of (by omega) (by omega) hlo)

theorem CausesKept.gmap_eq (h : CausesKept s t) {p : Nat} (hp : p < 1024) {f : Fld} (hr : f.reg = 0x901000 + 4 * p) (hlo : f.lo < 64) :
    t.cget f = s.cget f :=
  h.cget_eq (causeKey_of (by omega) (by omega) hlo)

/-- The causes of a permit depend on nothing that moves of permits change. -/
theorem CausesKept.causes_eq (h : CausesKept s t) (n : Nat) : t.causes n = s.causes n := by
  have hgin : ((t.guardInputs n).any fun i => decide (t.cget (PRO_GIN_STATE i) ≠ 1)) =
      (s.guardInputs n).any fun i => decide (s.cget (PRO_GIN_STATE i) ≠ 1) := by
    rw [h.guardInputs_eq]
    refine any_eq_of_mem (fun _ => Iff.rfl) fun i hi => ?_
    have := guardInputs_lt hi
    rw [h.gin_eq (f := PRO_GIN_STATE i) rfl (by simp only [PRO_GIN_STATE]; omega)]
  have hports : ∀ p, (p ∈ t.mappedPorts.filter fun p => bitAt (t.cget (PRO_GMAP_PMASK p)) n) ↔
      p ∈ s.mappedPorts.filter fun p => bitAt (s.cget (PRO_GMAP_PMASK p)) n := fun p => by
    rw [State.mem_mapped, State.mem_mapped]
    refine and_congr_right fun hp => ?_
    rw [h.gmap_eq (f := PRO_GMAP_PMASK p) hp rfl (by simp [PRO_GMAP_PMASK])]
  have hploss : t.plossFrames = s.plossFrames := by
    rw [State.plossFrames, State.plossFrames, h.cget_eq (f := PRO_GCFG_PLOSS) (causeKey_of (by decide) (by decide) (by decide))]
  have hport : ∀ p, t.port p = s.port p := fun p => by rw [State.port, State.port, h.ports]
  have hrtd : ((t.mappedPorts.filter fun p => bitAt (t.cget (PRO_GMAP_PMASK p)) n).any fun p => t.rtdCause p) =
      (s.mappedPorts.filter fun p => bitAt (s.cget (PRO_GMAP_PMASK p)) n).any fun p => s.rtdCause p := by
    refine any_eq_of_mem hports fun p hp => ?_
    rw [State.rtdCause, State.rtdCause, h.gmap_eq (f := PRO_GMAP_RTD p) (State.mem_mapped.1 hp).1 rfl (by simp [PRO_GMAP_RTD]), hport, hploss,
      h.tm]
  have hloss : ((t.mappedPorts.filter fun p => bitAt (t.cget (PRO_GMAP_PMASK p)) n).any fun p => t.lossCause p) =
      (s.mappedPorts.filter fun p => bitAt (s.cget (PRO_GMAP_PMASK p)) n).any fun p => s.lossCause p := by
    refine any_eq_of_mem hports fun p hp => ?_
    rw [State.lossCause, State.lossCause, State.con, State.con,
      h.gmap_eq (f := PRO_GMAP_LOSS p) (State.mem_mapped.1 hp).1 rfl (by simp [PRO_GMAP_LOSS]), hport, hploss, h.tm]
  have hhot : ((List.range 32).any fun i => bitAt (t.cget (PRO_TS_CFG_PMASK i)) n && (t.sensor i).hot) =
      (List.range 32).any fun i => bitAt (s.cget (PRO_TS_CFG_PMASK i)) n && (s.sensor i).hot := by
    refine any_eq_of_mem (fun _ => Iff.rfl) fun i hi => ?_
    have hi32 := List.mem_range.1 hi
    rw [h.cget_eq (f := PRO_TS_CFG_PMASK i) (causeKey_of (by simp only [PRO_TS_CFG_PMASK]; omega) (by simp only [PRO_TS_CFG_PMASK]; omega)
      (by simp [PRO_TS_CFG_PMASK])), State.sensor, State.sensor, h.sensors]
  have hfault : t.guardFault = s.guardFault := by
    rw [State.guardFault, State.guardFault, h.outFault, h.strapBad, h.selfBad,
      h.cget_eq (f := PRO_STAT_STRAP) (by unfold causeKey moveKey noteKey; decide)]
  unfold State.causes
  dsimp only
  rw [hgin, hrtd, hloss, hhot, hfault, h.con_eq (f := PRO_SUP_WARN_NOW) (causeKey_of (by decide) (by decide) (by decide)),
    h.cget_eq (f := PRO_GCFG_SUP_PMASK) (causeKey_of (by decide) (by decide) (by decide)),
    h.con_eq (f := PRO_STAT_GV24_OK) (by unfold causeKey moveKey noteKey; decide)]

theorem CausesKept.grantable_eq (h : CausesKept s t) {n : Nat} (hn : n < 4) : t.grantable n = s.grantable n := by
  have hall : ((s.guardInputs n).all fun i => t.con (PRO_GIN_PROVEN i) && decide (t.cget (PRO_GIN_STATE i) = 1)) =
      (s.guardInputs n).all fun i => s.con (PRO_GIN_PROVEN i) && decide (s.cget (PRO_GIN_STATE i) = 1) := by
    rw [Bool.eq_iff_iff, List.all_eq_true, List.all_eq_true]
    refine forall₂_congr fun i hi => ?_
    have := guardInputs_lt hi
    rw [State.con, State.con, h.gin_eq (f := PRO_GIN_PROVEN i) rfl (by simp only [PRO_GIN_PROVEN]; omega),
      h.gin_eq (f := PRO_GIN_STATE i) rfl (by simp only [PRO_GIN_STATE]; omega)]
  rw [State.grantable, State.grantable, h.guardInputs_eq, hall, h.commonTested, h.con_eq (f := PRO_GOUT_EN n)
    (causeKey_of (by simp only [PRO_GOUT_EN]; omega) (by simp only [PRO_GOUT_EN]; omega) (by simp [PRO_GOUT_EN]))]

end causes

/-! ### One permit moved -/

section one
variable (s : State) {n : Nat} (hn : n < 4)

theorem permit_ne_out (n : Nat) : (PRO_GSTAT_STATE n).key ≠ (PRO_GSTAT_OUT n).key := by
  simp only [Fld.key, PRO_GSTAT_STATE, PRO_GSTAT_OUT]
  omega

theorem State.setPermit_permit {st : Nat} (h : st < 8) : (s.setPermit n st).permit n = st := by
  rw [State.permit, State.setPermit, State.cget_cset_ne _ _ _ _ (permit_ne_out n)]
  exact State.cget_cset_of_lt s (f := PRO_GSTAT_STATE n) (v := st) h

theorem State.setPermit_out {st : Nat} (h : st ≠ 1 ∧ st ≠ 2) : (s.setPermit n st).con (PRO_GSTAT_OUT n) = false := by
  obtain ⟨h1, h2⟩ := h
  rw [State.con_eq_false, State.setPermit, show ((decide (st = 1 ∨ st = 2)) && !(s.con PRO_STAT_COMMON_OPEN)) = false by
    simp [h1, h2]]
  exact State.cget_cset_of_lt _ (f := PRO_GSTAT_OUT n) (v := 0) (by change 0 < 2 ^ 1; decide)

/-- A latch bit written leaves the registers that show neither the latch, the log nor the queues. -/
theorem State.setLatch_cget (b : Bool) {f : Fld} (hf : ¬ noteKey f.key)
    (hl : f.key ≠ PRO_STAT_LATCH.key ∧ f.key ≠ PRO_STAT_LOCKOUT.key ∧ f.key ≠ GLB_STAT_LOCKOUT.key) : (s.setLatch n b).cget f = s.cget f := by
  obtain ⟨h1, h2, h3⟩ := hl
  unfold State.setLatch
  split
  · rfl
  · have hp : Notes _ ((s.modNvm fun v => { v with latch0 := v.latch0.set n b }).program .latch) := State.program_notes _ .latch
    refine ((State.logBit_notes _ _ _ _ _).regs f hf).trans ?_
    refine Eq.trans ?_ (hp.regs f hf)
    generalize (s.modNvm fun v => { v with latch0 := v.latch0.set n b }).program .latch = z
    unfold State.showLatch
    dsimp only
    rw [State.cget_cset_ne _ _ _ _ h3, State.cget_cset_ne _ _ _ _ h2, State.cget_cset_ne _ _ _ _ h1]

theorem getD_set_self (l : List Bool) (n : Nat) (b : Bool) : (l.set n b).getD n false = (decide (n < l.length) && b) := by
  rw [List.getD_eq_getElem?_getD, List.getElem?_set_self']
  by_cases h : n < l.length
  · simp [h]
  · simp [h]

theorem State.setLatch_latch (b : Bool) (h : b = true → n < s.nvm.latch0.length) : (s.setLatch n b).nvm.latch0.getD n false = b := by
  unfold State.setLatch
  split
  · assumption
  · have hp := State.program_nvm (s.modNvm fun v => { v with latch0 := v.latch0.set n b }) .latch
    dsimp only
    have hl : ∀ z : State, (z.logBit PRO_STAT_LATCH 0xFF n (b2n b)).nvm.latch0 = z.nvm.latch0 := fun z =>
      (congrArg NvmSt.latch0 (z.logAdd_nvm _) :)
    rw [hl]
    have hp' : ((s.modNvm fun v => { v with latch0 := v.latch0.set n b }).program .latch).nvm.latch0 = s.nvm.latch0.set n b :=
      (congrArg NvmSt.latch0 hp :)
    generalize (s.modNvm fun v => { v with latch0 := v.latch0.set n b }).program .latch = z at hp'
    change z.nvm.latch0.getD n false = b
    rw [hp', getD_set_self]
    cases b
    · exact Bool.and_false _
    · simpa using h rfl

theorem permit_apart (n : Nat) : let f := PRO_GSTAT_STATE n
    f.key ≠ PRO_STAT_LATCH.key ∧ f.key ≠ PRO_STAT_LOCKOUT.key ∧ f.key ≠ GLB_STAT_LOCKOUT.key := by
  simp only [Fld.key, PRO_GSTAT_STATE, PRO_STAT_LATCH, PRO_STAT_LOCKOUT, GLB_STAT_LOCKOUT]
  omega

/-- A trip before the latch: the permit, its output and the count. -/
def State.tripped (n st : Nat) : State := ((s.setPermit n st).cbump PRO_GCNT_TRIPS).logBit PRO_GCNT_TRIPS 0xFF n st

theorem State.trip_eq (n st : Nat) : s.trip n st = if st = 4 then (s.tripped n st).setLatch n true else s.tripped n st := rfl

include hn

/-- The registers of permit `n` after its trip are those of the move. -/
theorem State.trip_own (st : Nat) : KeysKept (permitKey n) (s.setPermit n st) (s.trip n st) := by
  have h1 : KeysKept (permitKey n) (s.setPermit n st) (s.tripped n st) :=
    ((KeysKept.refl _).cset PRO_GCNT_TRIPS _ (not_permitKey (by decide) (by decide) hn)).notes (not_noteKey_of_permitKey hn)
      (State.logBit_notes _ _ _ _ _)
  rw [State.trip_eq]
  split
  · refine h1.trans fun f hf => State.setLatch_cget _ true (not_noteKey_of_permitKey hn _ hf) ?_
    simp only [permitKey, Fld.key, PRO_GSTAT_STATE, PRO_GSTAT_OUT, PRO_GCAUSE_CAUSE] at hf
    simp only [Fld.key, PRO_STAT_LATCH, PRO_STAT_LOCKOUT, GLB_STAT_LOCKOUT]
    omega
  · exact h1

theorem State.trip_permit {st : Nat} (h : st < 8) : (s.trip n st).permit n = st :=
  (s.trip_own hn st _ (.inl rfl)).trans (s.setPermit_permit h)

theorem State.trip_out {st : Nat} (h : st ≠ 1 ∧ st ≠ 2) : (s.trip n st).con (PRO_GSTAT_OUT n) = false := by
  rw [State.con_eq_false, s.trip_own hn st _ (.inr (.inl rfl)), ← State.con_eq_false, s.setPermit_out h]

/-- The causes shown stay with a move of their permit. -/
theorem State.setPermit_cause (st : Nat) : (s.setPermit n st).cget (PRO_GCAUSE_CAUSE n) = s.cget (PRO_GCAUSE_CAUSE n) := by
  unfold State.setPermit
  rw [State.cget_cset_ne _ _ _ _ (by simp only [Fld.key, PRO_GSTAT_OUT, PRO_GCAUSE_CAUSE]; omega),
    State.cget_cset_ne _ _ _ _ (by simp only [Fld.key, PRO_GSTAT_STATE, PRO_GCAUSE_CAUSE]; omega)]

theorem State.trip_cause (st : Nat) : (s.trip n st).cget (PRO_GCAUSE_CAUSE n) = s.cget (PRO_GCAUSE_CAUSE n) :=
  (s.trip_own hn st _ (.inr (.inr rfl))).trans (s.setPermit_cause hn st)

omit hn in
theorem State.trip_latch (hl : n < s.nvm.latch0.length) : (s.trip n 4).nvm.latch0.getD n false = true := by
  rw [State.trip_eq, if_pos rfl]
  refine State.setLatch_latch _ true fun _ => ?_
  have h1 : (s.tripped n 4).nvm.latch0 = s.nvm.latch0 := (congrArg NvmSt.latch0 (State.logAdd_nvm _ _) :)
  rwa [h1]

end one

/-- A fold over the four permits, seen from one of them: what the others' turns keep is kept before and after its own. -/
theorem foldl_range_at {R : State → State → Prop} (hrefl : ∀ z, R z z) (htrans : ∀ x y z, R x y → R y z → R x z) {g : State → Nat → State}
    {n : Nat} (hg : ∀ z, ∀ m < 4, m ≠ n → R z (g z m)) (hn : n < 4) (s : State) :
    ∃ z, R s z ∧ R (g z n) ((List.range 4).foldl g s) := by
  have hpass : ∀ l : List Nat, (∀ m ∈ l, m < 4 ∧ m ≠ n) → ∀ z, R z (l.foldl g z) := fun l hl z =>
    List.foldlRecOn (motive := R z) l g (hrefl z) fun y hy m hm => htrans _ _ _ hy (hg y m (hl m hm).1 (hl m hm).2)
  obtain ⟨a, b, hab⟩ := List.append_of_mem (List.mem_range.2 hn)
  have hnd : (a ++ n :: b).Nodup := hab ▸ List.nodup_range
  have hlt : ∀ m ∈ a ++ n :: b, m < 4 := fun m hm => List.mem_range.1 (hab ▸ hm)
  rw [List.nodup_append] at hnd
  obtain ⟨-, hb, hdis⟩ := hnd
  rw [hab, List.foldl_append, List.foldl_cons]
  refine ⟨a.foldl g s, hpass a (fun m hm => ⟨hlt m (List.mem_append_left _ hm), hdis m hm n (List.mem_cons_self ..)⟩) s, hpass b (fun m hm => ?_) _⟩
  exact ⟨hlt m (List.mem_append_right _ (List.mem_cons_of_mem _ hm)), fun e => (List.nodup_cons.1 hb).1 (e ▸ hm)⟩

/-! ### The step of a permit -/

section step
variable {s : State} {n : Nat}

/-- The state with the causes of permit `n` shown. -/
def State.causeShown (s : State) (n : Nat) : State := s.cset (PRO_GCAUSE_CAUSE n) (s.causes n)

/-- The state with the causes of permit `n` shown and their tick noted. -/
def State.causeNoted (s : State) (n : Nat) : State := (s.causeShown n).modPro fun x => { x with causeTick := tset x.causeTick n 0 s.tm.tick }

/-- What the causes shown leave for the step that follows. -/
theorem State.causeShown_facts (s : State) (hn : n < 4) : (s.causeShown n).permit n = s.permit n ∧ (s.causeShown n).classL = s.classL ∧
    (s.causeShown n).grantable n = s.grantable n ∧ (s.causeShown n).cget PRO_STAT_LATCH = s.cget PRO_STAT_LATCH := by
  have h : PermitsKept (fun _ => False) s (s.causeShown n) := (PermitsKept.refl s).showCause hn id _
  refine ⟨State.cget_cset_ne _ _ _ _ ?_, h.classL_eq, h.causesKept.grantable_eq hn, State.cget_cset_ne _ _ _ _ ?_⟩
  · simp only [Fld.key, PRO_GSTAT_STATE, PRO_GCAUSE_CAUSE]
    omega
  · simp only [Fld.key, PRO_STAT_LATCH, PRO_GCAUSE_CAUSE]
    omega

/-- The step of a permit once the latch has been read, by its state (R420, R422, R425). -/
theorem State.permitStep_eq (hn : n < 4) (hr : s.pro.latchRead = true) : s.permitStep n =
    if s.permit n = 0 then
      if bitAt (s.cget PRO_STAT_LATCH) n then (s.causeShown n).trip n 4
      else if s.causes n = 0 && s.grantable n then (s.causeShown n).setPermit n 1 else s.causeShown n
    else if s.permit n = 1 ∨ s.permit n = 2 then
      if s.causes n = 0 then s.causeShown n
      else if bitAt (s.causes n) 6 then (s.causeNoted n).trip n (if s.classL then 3 else 4)
      else if s.permit n = 2 then s.causeNoted n
      else if s.classL then ((s.causeNoted n).setPermit n 2).modPro fun x => { x with heldTick := tset x.heldTick n 0 s.tm.tick }
      else (s.causeNoted n).trip n 4
    else s.causeShown n := by
  obtain ⟨hp, hc, hg, hl⟩ := s.causeShown_facts hn
  have hc2 : (s.causeNoted n).classL = s.classL := hc
  rw [← hp, ← hg, ← hl, ← hc2]
  have hr' : ¬ (!(s.causeShown n).pro.latchRead) = true := by
    change ¬ (!s.pro.latchRead) = true
    simp [hr]
  exact if_neg hr'

theorem State.causes_lt (s : State) (n : Nat) : s.causes n < 2 ^ 7 := by
  have h : ∀ a b c d e f g : Nat, pack [(0, 1, a), (1, 1, b), (2, 1, c), (3, 1, d), (4, 1, e), (5, 1, f), (6, 1, g)] < 2 ^ 7 := by
    intros
    simp only [pack]
    omega
  exact h ..

theorem State.causes_five (s : State) (n : Nat) : bitAt (s.causes n) 5 = !s.con PRO_STAT_GV24_OK := by
  have h : ∀ a b c d e f g : Nat, pack [(0, 1, a), (1, 1, b), (2, 1, c), (3, 1, d), (4, 1, e), (5, 1, f), (6, 1, g)] / 2 ^ 5 % 2 = f % 2 := by
    intros
    simp only [pack]
    omega
  rw [bitAt, State.causes, h]
  cases s.con PRO_STAT_GV24_OK <;> rfl

theorem State.causes_six (s : State) (n : Nat) : bitAt (s.causes n) 6 = s.guardFault := by
  have h : ∀ a b c d e f g : Nat, pack [(0, 1, a), (1, 1, b), (2, 1, c), (3, 1, d), (4, 1, e), (5, 1, f), (6, 1, g)] / 2 ^ 6 % 2 = g % 2 := by
    intros
    simp only [pack]
    omega
  rw [bitAt, State.causes, h]
  cases s.guardFault <;> rfl

theorem State.causeShown_cause (s : State) (n : Nat) : (s.causeShown n).cget (PRO_GCAUSE_CAUSE n) = s.causes n :=
  State.cget_cset_of_lt s (f := PRO_GCAUSE_CAUSE n) (s.causes_lt n)

/-- A step shows the causes of its permit. -/
theorem State.permitStep_cause (hn : n < 4) (hr : s.pro.latchRead = true) : (s.permitStep n).cget (PRO_GCAUSE_CAUSE n) = s.causes n := by
  have hs := s.causeShown_cause n
  have hs2 : (s.causeNoted n).cget (PRO_GCAUSE_CAUSE n) = s.causes n := hs
  rw [State.permitStep_eq hn hr]
  split
  · split
    · rw [State.trip_cause _ hn, hs]
    · split
      · rw [State.setPermit_cause _ hn, hs]
      · exact hs
  split
  · split
    · exact hs
    split
    · rw [State.trip_cause _ hn, hs2]
    split
    · exact hs2
    split
    · rw [State.modPro_cget, State.setPermit_cause _ hn, hs2]
    · rw [State.trip_cause _ hn, hs2]
  · exact hs

section table
variable (hn : n < 4) (hr : s.pro.latchRead = true)
include hn hr

theorem State.permitStep_latched (hp : s.permit n = 0) (hb : bitAt (s.cget PRO_STAT_LATCH) n = true) : (s.permitStep n).permit n = 4 := by
  rw [State.permitStep_eq hn hr, if_pos hp, if_pos hb]
  exact State.trip_permit _ hn (by decide)

theorem State.permitStep_granted (hp : s.permit n = 0) (hb : bitAt (s.cget PRO_STAT_LATCH) n = false) (hc : s.causes n = 0)
    (hg : s.grantable n = true) : (s.permitStep n).permit n = 1 := by
  rw [State.permitStep_eq hn hr, if_pos hp, if_neg (by simp [hb]), if_pos (by simp [hc, hg])]
  exact State.setPermit_permit _ (by decide)

theorem State.permitStep_waits (hp : s.permit n = 0) (hb : bitAt (s.cget PRO_STAT_LATCH) n = false)
    (h : s.causes n ≠ 0 ∨ s.grantable n = false) : (s.permitStep n).permit n = 0 := by
  rw [State.permitStep_eq hn hr, if_pos hp, if_neg (by simp [hb]), if_neg]
  · exact (s.causeShown_facts hn).1.trans hp
  · rcases h with h | h <;> simp [h]

theorem State.permitStep_stays (hp : s.permit n = 1 ∨ s.permit n = 2) (hc : s.causes n = 0) : (s.permitStep n).permit n = s.permit n := by
  rw [State.permitStep_eq hn hr, if_neg (by omega), if_pos hp, if_pos hc]
  exact (s.causeShown_facts hn).1

theorem State.permitStep_trips (hp : s.permit n = 1) (hc : s.causes n ≠ 0) (hl : s.classL = false) :
    s.permitStep n = (s.causeNoted n).trip n 4 := by
  rw [State.permitStep_eq hn hr, if_neg (by omega), if_pos (.inl hp), if_neg hc]
  split
  · rw [if_neg (by simp [hl])]
  · rw [if_neg (by omega), if_neg (by simp [hl])]

theorem State.permitStep_held (hp : s.permit n = 1) (hc : s.causes n ≠ 0) (h6 : bitAt (s.causes n) 6 = false) (hl : s.classL = true) :
    (s.permitStep n).permit n = 2 ∧ tget (s.permitStep n).pro.heldTick n 0 = s.tm.tick := by
  rw [State.permitStep_eq hn hr, if_neg (by omega), if_pos (.inl hp), if_neg hc, if_neg (by simp [h6]), if_neg (by omega), if_pos hl]
  have hp2 := (s.causeNoted n).setPermit_permit (n := n) (st := 2) (by decide)
  generalize (s.causeNoted n).setPermit n 2 = y at hp2
  refine ⟨hp2, ?_⟩
  change tget (tset y.pro.heldTick n 0 s.tm.tick) n 0 = s.tm.tick
  rw [tget_tset_same]

theorem State.permitStep_faulted (hp : s.permit n = 1 ∨ s.permit n = 2) (h6 : bitAt (s.causes n) 6 = true) :
    s.permitStep n = (s.causeNoted n).trip n (if s.classL then 3 else 4) := by
  have hc : s.causes n ≠ 0 := fun h0 => by
    rw [h0] at h6
    exact absurd h6 (by decide)
  rw [State.permitStep_eq hn hr, if_neg (by omega), if_pos hp, if_neg hc, if_pos h6]

theorem State.permitStep_off (hp : 3 ≤ s.permit n) : (s.permitStep n).permit n = s.permit n := by
  rw [State.permitStep_eq hn hr, if_neg (by omega), if_neg (by omega)]
  exact (s.causeShown_facts hn).1

end table

/-- A step before the latch has been read only shows the causes. -/
theorem State.permitStep_unread (hr : s.pro.latchRead = false) : s.permitStep n = s.causeShown n := by
  have hr' : (!(s.causeShown n).pro.latchRead) = true := by
    change (!s.pro.latchRead) = true
    simp [hr]
  exact if_pos hr'

end step

/-! ### An evaluation -/

section evaluation
variable (s : State) (gv : Nat) (ok : Bool)

/-- The supply of the outputs and the self-check as an evaluation finds them. -/
def State.evaluating : State :=
  (s.cset PRO_STAT_GV24_OK (b2n (decide (18000 ≤ gv)))).modPro fun x => { x with selfBad := !ok, evals := s.guardTime * 2 / 125 + 1 }

/-- The guard's faults shown. -/
def State.faultShown : State := s.cset PRO_STAT_FAULT (b2n s.guardFault)

/-- An evaluation before its permits move. -/
def State.evaluated (reads : List OutRead) : State :=
  (reads.foldl (fun z r => z.readOutput gv r.n.val r.mv) (s.evaluating gv ok)).faultShown

/-- All permits moved. -/
def State.permitSteps : State := (List.range 4).foldl (fun z n => z.permitStep n) s

variable {s gv ok}

theorem exec_guardEvaluation (hsd : s.pro.shutdown = false) (hd : s.pro.evals ≠ s.guardTime * 2 / 125 + 1) (reads : List OutRead) :
    exec (.guardEvaluation gv ok reads) s = .next (s.evaluated gv ok reads).permitSteps :=
  congrArg Host.Outcome.next (if_neg (by simp [hsd, hd]))

theorem exec_guardEvaluation_idle (h : s.pro.shutdown = true ∨ s.pro.evals = s.guardTime * 2 / 125 + 1) (reads : List OutRead) :
    exec (.guardEvaluation gv ok reads) s = .next s :=
  congrArg Host.Outcome.next (if_pos h)

/-- The moves of the others stand before and after that of permit `n`. -/
theorem State.permitSteps_at (s : State) {n : Nat} (hn : n < 4) :
    ∃ z, PermitsKept (· = n) s z ∧ PermitsKept (· = n) (z.permitStep n) s.permitSteps :=
  foldl_range_at PermitsKept.refl (fun _ _ _ => PermitsKept.trans) (fun z _ hm hne => (PermitsKept.refl z).permitStep hm hne) hn s

theorem State.faultShown_causes (s : State) : CausesKept s s.faultShown :=
  ⟨rfl, rfl, rfl, rfl, rfl, rfl, rfl, (KeysKept.refl s).cset _ _ fun h => h.2.1 rfl⟩

end evaluation

/-- What an evaluation leaves of permit `n`, when its inputs agree with those of `z`. -/
structure Evaluates (z y : State) : Prop where
  causes : CausesKept z y
  permit : ∀ n < 4, y.permit n = z.permit n
  latch : y.cget PRO_STAT_LATCH = z.cget PRO_STAT_LATCH
  nvm : y.nvm = z.nvm

theorem State.faultShown_evaluates (s : State) : Evaluates s s.faultShown :=
  ⟨s.faultShown_causes, fun n hn => State.cget_cset_ne _ _ _ _ (by simp only [Fld.key, PRO_GSTAT_STATE, PRO_STAT_FAULT]; omega),
    State.cget_cset_ne _ _ _ _ (by decide), rfl⟩

/-- `x` is the state in which permit `n` takes its step among the others, and `u` the one after all of them, from `z`. -/
structure StepsAt (n : Nat) (z x u : State) : Prop where
  causes : x.causes n = z.causes n
  grantable : x.grantable n = z.grantable n
  classL : x.classL = z.classL
  read : x.pro.latchRead = z.pro.latchRead
  tick : x.tm = z.tm
  permit : x.permit n = z.permit n
  latch : bitAt (z.cget PRO_STAT_LATCH) n = z.nvm.latch0.getD n false → bitAt (x.cget PRO_STAT_LATCH) n = z.nvm.latch0.getD n false
  length : x.nvm.latch0.length = z.nvm.latch0.length
  stepped : PermitsKept (· = n) (x.permitStep n) u
  whole : PermitsKept (fun _ => False) z.faultShown u

theorem State.stepsAt (z : State) {n : Nat} (hn : n < 4) : ∃ x, StepsAt n z x z.faultShown.permitSteps := by
  obtain ⟨x, h1, h2⟩ := z.faultShown.permitSteps_at hn
  have hz := z.faultShown_evaluates
  have hc := h1.causesKept
  refine ⟨x, (hc.causes_eq n).trans (hz.causes.causes_eq n), (hc.grantable_eq hn).trans (hz.causes.grantable_eq hn), ?_, h1.latchRead_eq,
    h1.tm, (h1.permit_eq hn rfl).trans (hz.permit n hn), fun hb => ?_, h1.length, h2, ?_⟩
  · exact h1.classL_eq.trans (by rw [State.classL, State.classL, hz.causes.cget_eq (by unfold causeKey moveKey noteKey; decide)])
  · refine (h1.shown n hn rfl ?_).trans (h1.latch n hn rfl)
    rw [hz.latch]
    exact hb
  · exact List.foldlRecOn (motive := PermitsKept (fun _ => False) z.faultShown) _ _ (.refl _) fun y hy m hm =>
      hy.permitStep (List.mem_range.1 hm) id

section moved
variable {z x u : State} {n : Nat} (h : StepsAt n z x u) (hn : n < 4) (hr : z.pro.latchRead = true)
include h hn hr

omit hn in
theorem StepsAt.latchRead : x.pro.latchRead = true := h.read.trans hr

theorem StepsAt.cause_shown : u.cget (PRO_GCAUSE_CAUSE n) = z.causes n := by
  rw [h.stepped.cause_eq hn rfl, State.permitStep_cause hn (h.latchRead hr), h.causes]

theorem StepsAt.stays (hp : z.permit n = 1 ∨ z.permit n = 2) (hc : z.causes n = 0) : u.permit n = z.permit n := by
  rw [h.stepped.permit_eq hn rfl, State.permitStep_stays hn (h.latchRead hr) (by rwa [h.permit]) (by rwa [h.causes]), h.permit]

theorem StepsAt.trips (hp : z.permit n = 1) (hc : z.causes n ≠ 0) (hl : z.classL = false) :
    u.permit n = 4 ∧ u.con (PRO_GSTAT_OUT n) = false ∧ (z.nvm.latch0.length = 4 → u.nvm.latch0.getD n false = true) := by
  rw [h.stepped.permit_eq hn rfl, h.stepped.out_eq hn rfl, h.stepped.latch n hn rfl,
    State.permitStep_trips hn (h.latchRead hr) (by rwa [h.permit]) (by rwa [h.causes]) (by rwa [h.classL])]
  refine ⟨State.trip_permit _ hn (by decide), State.trip_out _ hn (by decide), fun h4 => State.trip_latch _ ?_⟩
  change n < x.nvm.latch0.length
  rw [h.length, h4]
  exact hn

theorem StepsAt.held (hp : z.permit n = 1) (hc : z.causes n ≠ 0) (h6 : bitAt (z.causes n) 6 = false) (hl : z.classL = true) :
    u.permit n = 2 ∧ tget u.pro.heldTick n 0 = z.tm.tick := by
  obtain ⟨h1, h2⟩ := State.permitStep_held hn (h.latchRead hr) (by rwa [h.permit]) (by rwa [h.causes]) (by rwa [h.causes])
    (by rwa [h.classL])
  rw [h.stepped.permit_eq hn rfl, h.stepped.held n hn rfl, h1, h2, h.tick]
  exact ⟨rfl, rfl⟩

theorem StepsAt.faulted (hp : z.permit n = 1 ∨ z.permit n = 2) (h6 : bitAt (z.causes n) 6 = true) :
    u.permit n = (if z.classL = true then 3 else 4) ∧ u.con (PRO_GSTAT_OUT n) = false := by
  rw [h.stepped.permit_eq hn rfl, h.stepped.out_eq hn rfl,
    State.permitStep_faulted hn (h.latchRead hr) (by rwa [h.permit]) (by rwa [h.causes]), h.classL]
  cases z.classL
  · exact ⟨State.trip_permit _ hn (by decide), State.trip_out _ hn (by decide)⟩
  · exact ⟨State.trip_permit _ hn (by decide), State.trip_out _ hn (by decide)⟩

theorem StepsAt.off (hp : 3 ≤ z.permit n) : u.permit n = z.permit n := by
  rw [h.stepped.permit_eq hn rfl, State.permitStep_off hn (h.latchRead hr) (by rwa [h.permit]), h.permit]

variable (hb : bitAt (z.cget PRO_STAT_LATCH) n = z.nvm.latch0.getD n false)
include hb

theorem StepsAt.latched (hp : z.permit n = 0) (hl : z.nvm.latch0.getD n false = true) : u.permit n = 4 := by
  rw [h.stepped.permit_eq hn rfl, State.permitStep_latched hn (h.latchRead hr) (by rwa [h.permit]) (by rwa [h.latch hb])]

theorem StepsAt.granted (hp : z.permit n = 0) (hl : z.nvm.latch0.getD n false = false) (hc : z.causes n = 0) (hg : z.grantable n = true) :
    u.permit n = 1 := by
  rw [h.stepped.permit_eq hn rfl, State.permitStep_granted hn (h.latchRead hr) (by rwa [h.permit]) (by rwa [h.latch hb]) (by rwa [h.causes])
    (by rwa [h.grantable])]

theorem StepsAt.waits (hp : z.permit n = 0) (hl : z.nvm.latch0.getD n false = false) (hc : z.causes n ≠ 0 ∨ z.grantable n = false) :
    u.permit n = 0 := by
  rw [h.stepped.permit_eq hn rfl, State.permitStep_waits hn (h.latchRead hr) (by rwa [h.permit]) (by rwa [h.latch hb])
    (by rwa [h.causes, h.grantable])]

end moved

section evaluating
variable (s : State) (gv : Nat) (ok : Bool)

theorem State.evaluating_gv24 : (s.evaluating gv ok).con PRO_STAT_GV24_OK = decide (18000 ≤ gv) := by
  rw [State.con, show (s.evaluating gv ok).cget PRO_STAT_GV24_OK = b2n (decide (18000 ≤ gv)) from State.cget_cset_of_lt s (b2n_lt_two _)]
  cases decide (18000 ≤ gv) <;> rfl

theorem State.evaluating_self (h : ok = false) : (s.evaluating gv ok).guardFault = true := by
  have : (s.evaluating gv ok).pro.selfBad = true := by
    change (!ok) = true
    rw [h]
    rfl
  simp [State.guardFault, this]

theorem State.evaluating_permit {n : Nat} : (s.evaluating gv ok).permit n = s.permit n :=
  State.cget_cset_ne s _ _ _ (by simp only [Fld.key, PRO_GSTAT_STATE, PRO_STAT_GV24_OK]; omega)

theorem State.evaluating_latch : (s.evaluating gv ok).cget PRO_STAT_LATCH = s.cget PRO_STAT_LATCH := State.cget_cset_ne s _ _ _ (by decide)

theorem State.evaluating_classL : (s.evaluating gv ok).classL = s.classL := by
  rw [State.classL, State.classL, show (s.evaluating gv ok).cget PRO_STAT_CLASS = s.cget PRO_STAT_CLASS from
    State.cget_cset_ne s _ _ _ (by decide)]

end evaluating

/-- An evaluation without a read-back: the causes, and the move of each permit by its state. -/
theorem evaluation_clause {s : State} {n : GuardIx} {gv : Nat} {ok : Bool} (hsd : s.pro.shutdown = false) (hr : s.pro.latchRead = true)
    (hd : s.pro.evals ≠ s.guardTime * 2 / 125 + 1) (hb : bitAt (s.cget PRO_STAT_LATCH) n = s.nvm.latch0.getD n false) {z : State}
    (hz : z = s.evaluating gv ok) :
    let c := z.causes n
    ∃ u, exec (.guardEvaluation gv ok []) s = .next u ∧ u.cget (PRO_GCAUSE_CAUSE n) = c ∧ u.pro.evals = s.guardTime * 2 / 125 + 1 ∧
      (gv < 18000 → bitAt c 5 = true) ∧ (ok = false → bitAt c 6 = true) ∧
      (s.permit n = 0 → s.nvm.latch0.getD n false = true → u.permit n = 4) ∧
      (s.permit n = 0 → s.nvm.latch0.getD n false = false → c = 0 → z.grantable n = true → u.permit n = 1) ∧
      (s.permit n = 0 → s.nvm.latch0.getD n false = false → c ≠ 0 ∨ z.grantable n = false → u.permit n = 0) ∧
      (s.permit n = 1 ∨ s.permit n = 2 → c = 0 → u.permit n = s.permit n) ∧
      (s.permit n = 1 → c ≠ 0 → s.classL = false → u.permit n = 4 ∧ u.con (PRO_GSTAT_OUT n) = false ∧
        (s.nvm.latch0.length = 4 → u.nvm.latch0.getD n false = true)) ∧
      (s.permit n = 1 → c ≠ 0 → bitAt c 6 = false → s.classL = true → u.permit n = 2 ∧ tget u.pro.heldTick n 0 = s.tm.tick) ∧
      (s.permit n = 1 ∨ s.permit n = 2 → bitAt c 6 = true → s.classL = true → u.permit n = 3 ∧ u.con (PRO_GSTAT_OUT n) = false) ∧
      (3 ≤ s.permit n → u.permit n = s.permit n) := by
  have he : exec (.guardEvaluation gv ok []) s = .next z.faultShown.permitSteps := by
    rw [hz]
    exact exec_guardEvaluation hsd hd []
  have hn : n.val < 4 := n.isLt
  have hfive : gv < 18000 → bitAt (z.causes n) 5 = true := fun h => by
    rw [z.causes_five, hz, State.evaluating_gv24]
    simp [h]
  have hsix : ok = false → bitAt (z.causes n) 6 = true := fun h => by rw [z.causes_six, hz, s.evaluating_self gv ok h]
  have hp : z.permit n = s.permit n := hz ▸ s.evaluating_permit gv ok
  have hclass : z.classL = s.classL := hz ▸ s.evaluating_classL gv ok
  have hlatch : z.cget PRO_STAT_LATCH = s.cget PRO_STAT_LATCH := hz ▸ s.evaluating_latch gv ok
  have hread : z.pro.latchRead = true := by
    rw [hz]
    exact hr
  have hev : z.pro.evals = s.guardTime * 2 / 125 + 1 := by rw [hz, State.evaluating]; rfl
  have htm : z.tm = s.tm := by rw [hz, State.evaluating]; rfl
  have hnvm : z.nvm = s.nvm := by rw [hz, State.evaluating]; rfl
  clear hz hsd hr hd
  rw [← hnvm, ← hlatch] at hb
  rw [← hp, ← hclass, ← hnvm, ← htm]
  obtain ⟨x, h⟩ := z.stepsAt hn
  have hue : z.faultShown.permitSteps.pro.evals = z.pro.evals := h.whole.evals_eq
  generalize z.faultShown.permitSteps = u at he h hue
  refine ⟨u, he, h.cause_shown hn hread, hue.trans hev, hfive, hsix, h.latched hn hread hb, h.granted hn hread hb, h.waits hn hread hb,
    h.stays hn hread, h.trips hn hread, h.held hn hread, fun hp h6 hl => ?_, h.off hn hread⟩
  obtain ⟨h1, h2⟩ := h.faulted hn hread hp h6
  exact ⟨h1.trans (if_pos hl), h2⟩

/-! ### Read-backs of the outputs -/

section reads
variable {s : State} {gv mv n : Nat} {ok : Bool}

/-- A read-back of output `n`, with whether it agrees with its permit. -/
def State.outShown (s : State) (gv n mv : Nat) : State := s.cset (PRO_GSTAT_OUT n) (b2n (decide (gv < mv + 2000)))

theorem State.readOutput_on (h : s.outputOn n = true) : s.readOutput gv n mv =
    if gv < mv + 2000 then s.outShown gv n mv
    else ((s.outShown gv n mv).cset (PRO_GOUT_STUCK_OFF_SEEN n) 1).modPro fun x => { x with outFault := true } := if_pos h

theorem State.readOutput_off (h : s.outputOn n = false) : s.readOutput gv n mv =
    if mv < 5000 then s.outShown gv n mv
    else (((s.outShown gv n mv).cset (PRO_GOUT_STUCK_ON_SEEN n) 1).cset PRO_STAT_COMMON_OPEN 1).modPro fun x => { x with outFault := true } :=
  if_neg (by simp [h])

/-- Keys that a grant of permit `n` depends on: the inputs with their settings, and the state of the permit. -/
def grantKey (n k : Nat) : Prop :=
  0x900018 * 64 ≤ k ∧ k < 0x900019 * 64 ∨ 0x900040 * 64 ≤ k ∧ k < 0x900050 * 64 ∨ k = (PRO_GSTAT_STATE n).key ∨ k = PRO_STAT_CLASS.key

theorem State.readOutput_kept (s : State) (gv mv : Nat) {n m : Nat} (hn : n < 4) (hm : m < 4) :
    KeysKept (grantKey n) s (s.readOutput gv m mv) := by
  have hout : ¬ grantKey n (PRO_GSTAT_OUT m).key := by
    simp only [grantKey, Fld.key, PRO_GSTAT_OUT, PRO_GSTAT_STATE, PRO_STAT_CLASS]
    omega
  have hseen (lo : Nat) (hlo : lo < 64) : ¬ grantKey n ((0x900050 + 4 * m) * 64 + lo) := by
    simp only [grantKey, Fld.key, PRO_GSTAT_STATE, PRO_STAT_CLASS]
    omega
  have hopen : ¬ grantKey n PRO_STAT_COMMON_OPEN.key := by
    simp only [grantKey, Fld.key, PRO_GSTAT_STATE, PRO_STAT_CLASS, PRO_STAT_COMMON_OPEN]
    omega
  have h1 : KeysKept (grantKey n) s (s.outShown gv m mv) := (KeysKept.refl s).cset _ _ hout
  cases h : s.outputOn m with
  | true =>
    rw [State.readOutput_on h]
    exact h1.ite ((h1.cset (PRO_GOUT_STUCK_OFF_SEEN m) 1 (hseen 3 (by decide))).creg rfl)
  | false =>
    rw [State.readOutput_off h]
    exact h1.ite (((h1.cset (PRO_GOUT_STUCK_ON_SEEN m) 1 (hseen 2 (by decide))).cset PRO_STAT_COMMON_OPEN 1 hopen).creg rfl)

theorem State.readOutput_latchRead (s : State) (gv n mv : Nat) : (s.readOutput gv n mv).pro.latchRead = s.pro.latchRead := by
  unfold State.readOutput
  dsimp only
  split <;> split <;> rfl

/-- A status bit of 0x900000 is none of the inputs. -/
theorem not_grantKey_stat {f : Fld} (hr : f.reg = 0x900000) (hlo : 2 ≤ f.lo ∧ f.lo < 64) (n : Nat) : ¬ grantKey n f.key := by
  simp only [grantKey, Fld.key, hr, PRO_GSTAT_STATE, PRO_STAT_CLASS]
  omega

theorem State.evaluated_kept (s : State) (gv : Nat) (ok : Bool) (reads : List OutRead) (hn : n < 4) :
    KeysKept (grantKey n) s (s.evaluated gv ok reads) := by
  have h0 : KeysKept (grantKey n) s (s.evaluating gv ok) :=
    ((KeysKept.refl s).cset PRO_STAT_GV24_OK _ (not_grantKey_stat rfl (by decide) n)).creg rfl
  have h1 := h0.trans (KeysKept.foldl (fun (z : State) (r : OutRead) (_ : r ∈ reads) => z.readOutput_kept gv r.mv hn r.n.isLt) _)
  exact h1.cset PRO_STAT_FAULT _ (not_grantKey_stat rfl (by decide) n)

/-- A permit with an input that is not proven stays out of ON and HELD. -/
theorem unproven_clause {n i : GuardIx} (reads : List OutRead) (hp : s.permit n = 0) (he : s.con (PRO_GIN_CFG_EN i) = true)
    (hm : bitAt (s.cget (PRO_GIN_CFG_PMASK i)) n = true) (hu : s.con (PRO_GIN_PROVEN i) = false) :
    ∃ u, exec (.guardEvaluation gv ok reads) s = .next u ∧ u.permit n ≠ 1 ∧ u.permit n ≠ 2 := by
  by_cases hidle : s.pro.shutdown = true ∨ s.pro.evals = s.guardTime * 2 / 125 + 1
  · exact ⟨s, exec_guardEvaluation_idle hidle reads, by omega, by omega⟩
  · obtain ⟨hsd, hd⟩ := not_or.1 hidle
    refine ⟨_, exec_guardEvaluation (by simpa using hsd) hd reads, ?_⟩
    have hk := s.evaluated_kept gv ok reads n.isLt
    generalize s.evaluated gv ok reads = y at hk
    have hyp : y.permit n = 0 := (hk _ (.inr (.inr (.inl rfl)))).trans hp
    have hyg : y.grantable n = false := by
      have hi : i.val ∈ y.guardInputs n := by
        refine List.mem_filter.2 ⟨List.mem_range.2 i.isLt, ?_⟩
        rw [State.con, hk (PRO_GIN_CFG_EN i) (by simp only [grantKey, Fld.key, PRO_GIN_CFG_EN]; omega),
          hk (PRO_GIN_CFG_PMASK i) (by simp only [grantKey, Fld.key, PRO_GIN_CFG_PMASK]; omega)]
        exact Bool.and_eq_true_iff.2 ⟨he, hm⟩
      have hup : y.con (PRO_GIN_PROVEN i) = false := by
        rw [State.con, hk _ (by simp only [grantKey, Fld.key, PRO_GIN_PROVEN]; omega)]
        exact hu
      rw [State.grantable, Bool.and_eq_false_iff]
      exact .inr (List.all_eq_false.2 ⟨i, hi, by simp [hup]⟩)
    obtain ⟨x, h1, h2⟩ := y.permitSteps_at n.isLt
    have hxp := (h1.permit_eq n.isLt rfl).trans hyp
    have hxg := (h1.causesKept.grantable_eq n.isLt).trans hyg
    rw [h2.permit_eq n.isLt rfl]
    cases hr : x.pro.latchRead with
    | false =>
      rw [State.permitStep_unread hr, (x.causeShown_facts n.isLt).1, hxp]
      decide
    | true =>
      cases hb : bitAt (x.cget PRO_STAT_LATCH) n with
      | false =>
        rw [State.permitStep_waits n.isLt hr hxp hb (.inr hxg)]
        decide
      | true =>
        rw [State.permitStep_latched n.isLt hr hxp hb]
        decide

/-- What an evaluation shows after its read-backs: the fault, and the registers that moves leave. -/
theorem State.stepped_shown (z : State) : z.faultShown.permitSteps.con PRO_STAT_FAULT = z.guardFault ∧
    z.faultShown.permitSteps.pro.outFault = z.pro.outFault ∧ ∀ f : Fld, causeKey f.key → z.faultShown.permitSteps.con f = z.con f := by
  obtain ⟨x, h⟩ := z.stepsAt (n := 0) (by decide)
  refine ⟨?_, h.whole.outFault_eq, fun f hf => (h.whole.con_eq hf.1).trans (z.faultShown_causes.con_eq hf)⟩
  rw [h.whole.con_eq (by unfold moveKey noteKey; decide), State.con, State.faultShown, State.cget_cset_of_lt _ (b2n_lt_two _)]
  cases z.guardFault <;> rfl

variable (s gv ok) in
theorem State.evaluating_outputOn (n : Nat) : (s.evaluating gv ok).outputOn n = s.outputOn n := by
  rw [State.outputOn, State.outputOn, s.evaluating_permit, State.con, State.con,
    show (s.evaluating gv ok).cget PRO_STAT_COMMON_OPEN = s.cget PRO_STAT_COMMON_OPEN from State.cget_cset_ne s _ _ _ (by decide)]

variable (s gv ok) in
theorem State.evaluating_con {f : Fld} (hf : f.key ≠ PRO_STAT_GV24_OK.key) : (s.evaluating gv ok).con f = s.con f := by
  rw [State.con, State.con, show (s.evaluating gv ok).cget f = s.cget f from State.cget_cset_ne s _ _ _ hf]

/-- The registers of output `n` that a read-back sets. -/
theorem gout_key {f : Fld} (hn : n < 4) (hr : f.reg = 0x900050 + 4 * n) (hlo : f.lo < 64) :
    causeKey f.key ∧ f.key ≠ (PRO_GSTAT_OUT n).key ∧ f.key ≠ PRO_STAT_GV24_OK.key ∧ f.key ≠ PRO_STAT_COMMON_OPEN.key := by
  refine ⟨causeKey_of (by omega) (by omega) hlo, ?_⟩
  simp only [Fld.key, hr, PRO_GSTAT_OUT, PRO_STAT_GV24_OK, PRO_STAT_COMMON_OPEN]
  omega

theorem State.con_cset_one (s : State) {f : Fld} (hw : f.width = 1) : (s.cset f 1).con f = true := by
  rw [State.con_eq_true, State.cget_cset_of_lt s (by rw [hw]; decide)]
  decide

/-- A read-back that does not agree with an output that is on. -/
theorem readBack_stuckOff (hon : s.outputOn n = true) (hm : mv + 2000 ≤ gv) : let z := (s.evaluating gv ok).readOutput gv n mv
    z.con (PRO_GOUT_STUCK_OFF_SEEN n) = true ∧ z.pro.outFault = true := by
  intro z
  have hz : z = _ := State.readOutput_on ((s.evaluating_outputOn gv ok n).trans hon)
  rw [hz, if_neg (by omega)]
  generalize (s.evaluating gv ok).outShown gv n mv = y
  exact ⟨by rw [State.modPro_con, State.con_cset_one y (f := PRO_GOUT_STUCK_OFF_SEEN n) rfl], rfl⟩

section readBack
variable (hn : n < 4)
include hn

theorem readBack_on (hon : s.outputOn n = true) (hm : gv < mv + 2000) : let z := (s.evaluating gv ok).readOutput gv n mv
    z.con (PRO_GOUT_STUCK_OFF_SEEN n) = s.con (PRO_GOUT_STUCK_OFF_SEEN n) ∧ z.pro.outFault = s.pro.outFault := by
  intro z
  have hz : z = _ := State.readOutput_on ((s.evaluating_outputOn gv ok n).trans hon)
  obtain ⟨-, h1, h2, -⟩ := gout_key (f := PRO_GOUT_STUCK_OFF_SEEN n) hn rfl (by simp [PRO_GOUT_STUCK_OFF_SEEN])
  rw [hz, if_pos hm]
  exact ⟨(State.con_cset_ne _ _ _ _ h1).trans (s.evaluating_con gv ok h2), rfl⟩

/-- A read-back that does not agree with an output that is off. -/
theorem readBack_stuckOn (hon : s.outputOn n = false) (hm : 5000 ≤ mv) : let z := (s.evaluating gv ok).readOutput gv n mv
    z.con (PRO_GOUT_STUCK_ON_SEEN n) = true ∧ z.con PRO_STAT_COMMON_OPEN = true ∧ z.pro.outFault = true := by
  intro z
  have hz : z = _ := State.readOutput_off ((s.evaluating_outputOn gv ok n).trans hon)
  obtain ⟨-, -, -, h3⟩ := gout_key (f := PRO_GOUT_STUCK_ON_SEEN n) hn rfl (by simp [PRO_GOUT_STUCK_ON_SEEN])
  rw [hz, if_neg (by omega)]
  generalize (s.evaluating gv ok).outShown gv n mv = y
  refine ⟨?_, ?_, rfl⟩
  · rw [State.modPro_con, State.con_cset_ne _ _ _ _ h3, State.con_cset_one y (f := PRO_GOUT_STUCK_ON_SEEN n) rfl]
  · rw [State.modPro_con, State.con_cset_one _ (f := PRO_STAT_COMMON_OPEN) rfl]

theorem readBack_off (hon : s.outputOn n = false) (hm : mv < 5000) : let z := (s.evaluating gv ok).readOutput gv n mv
    z.con (PRO_GOUT_STUCK_ON_SEEN n) = s.con (PRO_GOUT_STUCK_ON_SEEN n) ∧ z.pro.outFault = s.pro.outFault := by
  intro z
  have hz : z = _ := State.readOutput_off ((s.evaluating_outputOn gv ok n).trans hon)
  obtain ⟨-, h1, h2, -⟩ := gout_key (f := PRO_GOUT_STUCK_ON_SEEN n) hn rfl (by simp [PRO_GOUT_STUCK_ON_SEEN])
  rw [hz, if_pos hm]
  exact ⟨(State.con_cset_ne _ _ _ _ h1).trans (s.evaluating_con gv ok h2), rfl⟩

end readBack

theorem guardFault_of_outFault (h : s.pro.outFault = true) : s.guardFault = true := by simp [State.guardFault, h]

theorem readBack_clause (s : State) (n : GuardIx) (gv mv : Nat) (ok : Bool) :
    (s.pro.shutdown = true ∨ s.pro.evals = s.guardTime * 2 / 125 + 1 → exec (.guardEvaluation gv ok [⟨n, mv⟩]) s = .next s) ∧
    (s.pro.shutdown = false → s.pro.evals ≠ s.guardTime * 2 / 125 + 1 → s.pro.latchRead = true →
      (s.permit n = 1 → s.con PRO_STAT_COMMON_OPEN = false → mv + 2000 ≤ gv → ∃ u, exec (.guardEvaluation gv ok [⟨n, mv⟩]) s = .next u ∧
        u.con (PRO_GOUT_STUCK_OFF_SEEN n) = true ∧ u.con PRO_STAT_FAULT = true ∧ u.permit n = (if s.classL = true then 3 else 4)) ∧
      (s.permit n = 1 → s.con PRO_STAT_COMMON_OPEN = false → gv < mv + 2000 → ∃ u, exec (.guardEvaluation gv ok [⟨n, mv⟩]) s = .next u ∧
        u.con (PRO_GOUT_STUCK_OFF_SEEN n) = s.con (PRO_GOUT_STUCK_OFF_SEEN n) ∧ u.pro.outFault = s.pro.outFault) ∧
      (s.permit n = 3 → 5000 ≤ mv → ∃ u, exec (.guardEvaluation gv ok [⟨n, mv⟩]) s = .next u ∧ u.con (PRO_GOUT_STUCK_ON_SEEN n) = true ∧
        u.con PRO_STAT_COMMON_OPEN = true ∧ u.con PRO_STAT_FAULT = true) ∧
      (s.permit n = 3 → mv < 5000 → ∃ u, exec (.guardEvaluation gv ok [⟨n, mv⟩]) s = .next u ∧
        u.con (PRO_GOUT_STUCK_ON_SEEN n) = s.con (PRO_GOUT_STUCK_ON_SEEN n) ∧ u.pro.outFault = s.pro.outFault)) := by
  refine ⟨fun h => exec_guardEvaluation_idle h _, fun hsd hd hr => ?_⟩
  have hn : n.val < 4 := n.isLt
  have he : exec (.guardEvaluation gv ok [⟨n, mv⟩]) s = .next ((s.evaluating gv ok).readOutput gv n mv).faultShown.permitSteps :=
    exec_guardEvaluation hsd hd [⟨n, mv⟩]
  have hkept := ((s.evaluating gv ok).readOutput_kept gv mv hn hn)
  have hp : ((s.evaluating gv ok).readOutput gv n mv).permit n = s.permit n :=
    (hkept _ (.inr (.inr (.inl rfl)))).trans (s.evaluating_permit gv ok)
  have hclass : ((s.evaluating gv ok).readOutput gv n mv).classL = s.classL := by
    rw [State.classL, hkept _ (.inr (.inr (.inr rfl)))]
    exact s.evaluating_classL gv ok
  have hread : ((s.evaluating gv ok).readOutput gv n mv).pro.latchRead = true := (State.readOutput_latchRead _ gv n mv).trans hr
  have hon : s.permit n = 1 → s.con PRO_STAT_COMMON_OPEN = false → s.outputOn n = true := fun h1 h2 => by simp [State.outputOn, h1, h2]
  have hoff : s.permit n = 3 → s.outputOn n = false := fun h => by simp [State.outputOn, h]
  have k1 := readBack_stuckOff (s := s) (gv := gv) (mv := mv) (n := n) (ok := ok)
  have k2 := readBack_on (s := s) (gv := gv) (mv := mv) (ok := ok) hn
  have k3 := readBack_stuckOn (s := s) (gv := gv) (mv := mv) (ok := ok) hn
  have k4 := readBack_off (s := s) (gv := gv) (mv := mv) (ok := ok) hn
  dsimp only at k1 k2 k3 k4
  generalize (s.evaluating gv ok).readOutput gv n mv = z at *
  obtain ⟨hfault, hout, hregs⟩ := z.stepped_shown
  obtain ⟨x, h⟩ := z.stepsAt hn
  generalize z.faultShown.permitSteps = u at he hfault hout hregs h
  have hso := hregs _ (gout_key (f := PRO_GOUT_STUCK_OFF_SEEN n) hn rfl (by simp [PRO_GOUT_STUCK_OFF_SEEN])).1
  have hsn := hregs _ (gout_key (f := PRO_GOUT_STUCK_ON_SEEN n) hn rfl (by simp [PRO_GOUT_STUCK_ON_SEEN])).1
  have hco := hregs PRO_STAT_COMMON_OPEN (by unfold causeKey moveKey noteKey; decide)
  refine ⟨fun h1 h2 hm => ?_, fun h1 h2 hm => ?_, fun h3 hm => ?_, fun h3 hm => ?_⟩
  · obtain ⟨hs, hf⟩ := k1 (hon h1 h2) hm
    have hg := guardFault_of_outFault hf
    refine ⟨u, he, hso.trans hs, hfault.trans hg, ?_⟩
    rw [(h.faulted hn hread (.inl (hp.trans h1)) (by rw [z.causes_six, hg])).1, hclass]
  · obtain ⟨hs, hf⟩ := k2 (hon h1 h2) hm
    exact ⟨u, he, hso.trans hs, hout.trans hf⟩
  · obtain ⟨hs, ho, hf⟩ := k3 (hoff h3) hm
    exact ⟨u, he, hsn.trans hs, hco.trans ho, hfault.trans (guardFault_of_outFault hf)⟩
  · obtain ⟨hs, hf⟩ := k4 (hoff h3) hm
    exact ⟨u, he, hsn.trans hs, hout.trans hf⟩

end reads

/-! ### Inputs -/

section inputs
variable {s : State} {n : GuardIx} {r : LoopRead}

theorem State.gin_set (s : State) (n : GuardIx) {v : Nat} (hv : v < 4) : (s.cset (PRO_GIN_STATE n) v).cget (PRO_GIN_STATE n) = v :=
  State.cget_cset_of_lt s (f := PRO_GIN_STATE n) (v := v) hv

theorem guardInputChange_closed (h2 : 2000 ≤ r.heldUs) (h : loopState r = .closed) :
    ∃ u, exec (.guardInputChange n r) s = .next u ∧ u.cget (PRO_GIN_STATE n) = 1 ∧ RegsSame s u [PRO_GIN_STATE n] := by
  have he : exec (.guardInputChange n r) s = .next (s.cset (PRO_GIN_STATE n) 1) := by
    refine congrArg Host.Outcome.next ((if_neg (by omega)).trans ?_)
    rw [h]
    rfl
  exact ⟨_, he, s.gin_set n (by decide), (RegsSame.refl s _).cset _ _⟩

theorem guardInputChange_opened (h2 : 2000 ≤ r.heldUs) (h : loopState r = .opened) :
    ∃ u, exec (.guardInputChange n r) s = .next u ∧ u.cget (PRO_GIN_STATE n) = 0 ∧ RegsSame s u [PRO_GIN_STATE n] := by
  have he : exec (.guardInputChange n r) s = .next (s.cset (PRO_GIN_STATE n) 0) := by
    refine congrArg Host.Outcome.next ((if_neg (by omega)).trans ?_)
    rw [h]
    rfl
  exact ⟨_, he, s.gin_set n (by decide), (RegsSame.refl s _).cset _ _⟩

theorem guardInputChange_fault (h2 : 2000 ≤ r.heldUs) (h : loopState r = .fault) :
    ∃ u, exec (.guardInputChange n r) s = .next u ∧ u.cget (PRO_GIN_STATE n) = 2 ∧ u.con (PRO_GIN_FAULT_SEEN n) = true ∧
      RegsSame s u [PRO_GIN_STATE n, PRO_GIN_FAULT_SEEN n] := by
  have he : exec (.guardInputChange n r) s = .next ((s.cset (PRO_GIN_STATE n) 2).cset (PRO_GIN_FAULT_SEEN n) 1) := by
    refine congrArg Host.Outcome.next ((if_neg (by omega)).trans ?_)
    rw [h]
    rfl
  refine ⟨_, he, ?_, State.con_cset_one _ rfl, ((RegsSame.refl s _).cset _ _).cset _ _⟩
  rw [State.cget_cset_ne _ _ _ _ (by simp only [Fld.key, PRO_GIN_STATE, PRO_GIN_FAULT_SEEN]; omega), s.gin_set n (by decide)]

theorem inputs_clause (s : State) (n : GuardIx) :
    (∀ r : LoopRead, r.heldUs < 2000 → exec (.guardInputChange n r) s = .next s) ∧
    (∀ r : LoopRead, 2000 ≤ r.heldUs → 8000 ≤ r.back → r.back ≤ 12000 → r.source < r.back + 1000 → r.back < r.source + 1000 →
      ∃ u, exec (.guardInputChange n r) s = .next u ∧ u.cget (PRO_GIN_STATE n) = 1 ∧ RegsSame s u [PRO_GIN_STATE n]) ∧
    (∀ r : LoopRead, 2000 ≤ r.heldUs → r.back < 2000 →
      ∃ u, exec (.guardInputChange n r) s = .next u ∧ u.cget (PRO_GIN_STATE n) = 0 ∧ RegsSame s u [PRO_GIN_STATE n]) ∧
    (∀ r : LoopRead, 2000 ≤ r.heldUs → 2000 ≤ r.back →
      r.back < 8000 ∨ 12000 < r.back ∨ r.back + 1000 ≤ r.source ∨ r.source + 1000 ≤ r.back →
      ∃ u, exec (.guardInputChange n r) s = .next u ∧ u.cget (PRO_GIN_STATE n) = 2 ∧ u.con (PRO_GIN_FAULT_SEEN n) = true ∧
      RegsSame s u [PRO_GIN_STATE n, PRO_GIN_FAULT_SEEN n]) ∧
    (s.con (PRO_GIN_CFG_EN n) = true → s.cget (PRO_GIN_STATE n) ≠ 1 → ∃ u, exec (.inputProven n) s = .next u ∧
      u.con (PRO_GIN_PROVEN n) = true ∧ RegsSame s u [PRO_GIN_PROVEN n]) ∧
    (s.con (PRO_GIN_CFG_EN n) = false ∨ s.cget (PRO_GIN_STATE n) = 1 → exec (.inputProven n) s = .next s) := by
  refine ⟨fun r h => congrArg Host.Outcome.next (if_pos h), fun r h h1 h2 h3 h4 => guardInputChange_closed h (if_pos ⟨h1, h2, h3, h4⟩),
    fun r h h1 => guardInputChange_opened h ((if_neg (by omega)).trans (if_pos h1)),
    fun r h h1 h2 => guardInputChange_fault h ((if_neg (by omega)).trans (if_neg (by omega))), fun h1 h2 => ?_, fun h => ?_⟩
  · have he : exec (.inputProven n) s = .next (s.cset (PRO_GIN_PROVEN n) 1) := congrArg Host.Outcome.next (if_pos (by simp [h1, h2]))
    exact ⟨_, he, State.con_cset_one _ rfl, (RegsSame.refl s _).cset _ _⟩
  · refine congrArg Host.Outcome.next (if_neg ?_)
    rcases h with h | h <;> simp [h]

end inputs

/-! ### HELD -/

section held
variable {s : State} {n : GuardIx}

theorem State.trip_count (s : State) {n : Nat} (hn : n < 4) : (s.trip n 3).cget PRO_GCNT_TRIPS = min (s.cget PRO_GCNT_TRIPS + 1) 255 := by
  have h1 : (s.setPermit n 3).cget PRO_GCNT_TRIPS = s.cget PRO_GCNT_TRIPS := by
    unfold State.setPermit
    rw [State.cget_cset_ne _ _ _ _ (by simp only [Fld.key, PRO_GCNT_TRIPS, PRO_GSTAT_OUT]; omega),
      State.cget_cset_ne _ _ _ _ (by simp only [Fld.key, PRO_GCNT_TRIPS, PRO_GSTAT_STATE]; omega)]
  rw [State.trip_eq, if_neg (by decide), State.tripped, (State.logBit_notes _ _ _ _ _).regs _ (by unfold noteKey; decide), State.cget_cbump_sat,
    h1]
  rfl

theorem held_clause (hp : s.permit n = 2) : let held := tget s.pro.heldTick n 0
    (s.causes n = 0 → tget s.pro.causeTick n 0 + 500000 ≤ s.tm.tick → s.tm.tick < held + 7500000 →
      ∃ u, exec (.heldClear n) s = .next u ∧ u.permit n = 1 ∧ RegsSame s u [PRO_GSTAT_STATE n, PRO_GSTAT_OUT n]) ∧
    (s.causes n ≠ 0 ∨ held + 7500000 ≤ s.tm.tick → exec (.heldClear n) s = .next s) ∧
    (held + 7500000 ≤ s.tm.tick → ∃ u, exec (.heldTimeout n) s = .next u ∧ u.permit n = 3 ∧ u.con (PRO_GSTAT_OUT n) = false ∧
      u.cget PRO_GCNT_TRIPS = min (s.cget PRO_GCNT_TRIPS + 1) 255) ∧
    (s.tm.tick < held + 7500000 → exec (.heldTimeout n) s = .next s) := by
  have h2 : 2 * ticksSec = 500000 := by decide
  have h30 : 30 * ticksSec = 7500000 := by decide
  refine ⟨fun hc ht hl => ?_, fun h => congrArg Host.Outcome.next (if_neg ?_), fun h => ?_, fun h => congrArg Host.Outcome.next (if_neg ?_)⟩
  · have he : exec (.heldClear n) s = .next (s.setPermit n 1) :=
      congrArg Host.Outcome.next (if_pos ⟨hp, hc, by omega, by omega⟩)
    exact ⟨_, he, s.setPermit_permit (by decide), ((RegsSame.refl s _).cset _ _).cset _ _⟩
  · rintro ⟨-, h1, -, h3⟩
    rcases h with h | h
    · exact h h1
    · omega
  · have he : exec (.heldTimeout n) s = .next (s.trip n 3) := congrArg Host.Outcome.next (if_pos ⟨hp, by omega⟩)
    exact ⟨_, he, s.trip_permit n.isLt (by decide), s.trip_out n.isLt (by decide), s.trip_count n.isLt⟩
  · rintro ⟨-, h1⟩
    omega

end held

/-! ### Output tests -/

section pulse
variable {s : State} {n : GuardIx}

theorem within_eq (us : Nat) (x : Option Nat) : within us x = x.any fun a => decide (a ≤ us) := by
  cases x <;> rfl

/-- The off-pulse of output `n` in second `sec` failed. -/
def State.pulseFailed (s : State) (n sec : Nat) (fell rose : Bool) : State :=
  ((s.modPro fun x => { x with outFault := true, pulseSec := tins x.pulseSec n sec }).when (!fell) fun z =>
    (z.cset (PRO_GOUT_STUCK_ON_SEEN n) 1).cset PRO_STAT_COMMON_OPEN 1).when (!rose) fun z => z.cset (PRO_GOUT_STUCK_OFF_SEEN n) 1

theorem exec_offPulse (fall rise : Option Nat) (hon : s.outputOn n = true) (h1 : 62500 * n.val ≤ s.guardTime % 250000)
    (h2 : tget s.pro.pulseSec n 0 ≠ s.guardTime / 250000 + 1) : exec (.offPulse n fall rise) s = .next
      (if (fall.any fun a => decide (a ≤ 150)) && rise.any fun a => decide (a ≤ 200) then
        (s.modPro fun x => { x with pulseSec := tins x.pulseSec n (s.guardTime / 250000 + 1) }).cbump (PRO_GOUT_PULSES n)
      else s.pulseFailed n (s.guardTime / 250000 + 1) (fall.any fun a => decide (a ≤ 150)) (rise.any fun a => decide (a ≤ 200))) := by
  have hms : ticksMs 250 = 62500 := by decide
  rw [← within_eq, ← within_eq]
  refine congrArg Host.Outcome.next (if_neg ?_)
  rw [hms]
  simp only [hon, Bool.not_true, Bool.false_eq_true, false_or, Bool.not_eq_true', Bool.and_eq_false_iff, decide_eq_false_iff_not, not_or,
    not_not]
  exact ⟨h1, h2⟩

theorem State.pulseFailed_facts (s : State) (n : GuardIx) (sec : Nat) (fell rose : Bool) : let u := s.pulseFailed n sec fell rose
    u.pro.outFault = true ∧ (fell = false → u.con (PRO_GOUT_STUCK_ON_SEEN n) = true ∧ u.con PRO_STAT_COMMON_OPEN = true) ∧
      (rose = false → u.con (PRO_GOUT_STUCK_OFF_SEEN n) = true) := by
  have hne : (PRO_GOUT_STUCK_ON_SEEN n).key ≠ (PRO_GOUT_STUCK_OFF_SEEN n).key := by
    simp only [Fld.key, PRO_GOUT_STUCK_ON_SEEN, PRO_GOUT_STUCK_OFF_SEEN]
    omega
  obtain ⟨-, -, -, h3⟩ := gout_key (f := PRO_GOUT_STUCK_ON_SEEN n) n.isLt rfl (by simp [PRO_GOUT_STUCK_ON_SEEN])
  obtain ⟨-, -, -, h4⟩ := gout_key (f := PRO_GOUT_STUCK_OFF_SEEN n) n.isLt rfl (by simp [PRO_GOUT_STUCK_OFF_SEEN])
  unfold State.pulseFailed
  dsimp only
  have hy : (s.modPro fun x => { x with outFault := true, pulseSec := tins x.pulseSec n sec }).pro.outFault = true := rfl
  generalize (s.modPro fun x => { x with outFault := true, pulseSec := tins x.pulseSec n sec }) = y at hy
  have hon : ((y.cset (PRO_GOUT_STUCK_ON_SEEN n) 1).cset PRO_STAT_COMMON_OPEN 1).con (PRO_GOUT_STUCK_ON_SEEN n) = true := by
    rw [State.con_cset_ne _ _ _ _ h3, State.con_cset_one y (f := PRO_GOUT_STUCK_ON_SEEN n) rfl]
  have hopen : ((y.cset (PRO_GOUT_STUCK_ON_SEEN n) 1).cset PRO_STAT_COMMON_OPEN 1).con PRO_STAT_COMMON_OPEN = true :=
    State.con_cset_one _ rfl
  cases fell <;> cases rose
  · refine ⟨hy, fun _ => ⟨(State.con_cset_ne _ _ _ _ hne).trans hon, (State.con_cset_ne _ _ _ _ h4.symm).trans hopen⟩, fun _ => ?_⟩
    exact State.con_cset_one _ (f := PRO_GOUT_STUCK_OFF_SEEN n) rfl
  · exact ⟨hy, fun _ => ⟨hon, hopen⟩, nofun⟩
  · exact ⟨hy, nofun, fun _ => State.con_cset_one y (f := PRO_GOUT_STUCK_OFF_SEEN n) rfl⟩
  · exact ⟨hy, nofun, nofun⟩

theorem offPulse_clause (s : State) (n : GuardIx) (fall rise : Option Nat) :
    let g := s.tm.tick - s.pro.guardTick
    let sec := g / 250000 + 1
    let fell := fall.any fun a => decide (a ≤ 150)
    let rose := rise.any fun a => decide (a ≤ 200)
    (s.outputOn n = false ∨ g % 250000 < 62500 * n.val ∨ tget s.pro.pulseSec n 0 = sec → exec (.offPulse n fall rise) s = .next s) ∧
    (s.permit n = 1 ∨ s.permit n = 2 → s.con PRO_STAT_COMMON_OPEN = false → 62500 * n.val ≤ g % 250000 → tget s.pro.pulseSec n 0 ≠ sec →
      (fell = true → rose = true → ∃ u, exec (.offPulse n fall rise) s = .next u ∧ tget u.pro.pulseSec n 0 = sec ∧
        u.cget (PRO_GOUT_PULSES n) = min (s.cget (PRO_GOUT_PULSES n) + 1) 255 ∧ RegsSame s u [PRO_GOUT_PULSES n]) ∧
      (fell = false → ∃ u, exec (.offPulse n fall rise) s = .next u ∧ u.con (PRO_GOUT_STUCK_ON_SEEN n) = true ∧
        u.con PRO_STAT_COMMON_OPEN = true ∧ u.guardFault = true) ∧
      (rose = false → ∃ u, exec (.offPulse n fall rise) s = .next u ∧ u.con (PRO_GOUT_STUCK_OFF_SEEN n) = true ∧ u.guardFault = true)) ∧
    (s.outputOn n = false → exec (.outputCurrentLimit n) s = .next s) ∧
    (s.permit n = 1 ∨ s.permit n = 2 → s.con PRO_STAT_COMMON_OPEN = false → ∃ u, exec (.outputCurrentLimit n) s = .next u ∧
      u.con (PRO_GOUT_OC_SEEN n) = true ∧ u.con (PRO_GOUT_STUCK_OFF_SEEN n) = true ∧ u.con (PRO_GSTAT_OUT n) = false ∧
      u.guardFault = true) := by
  have hms : ticksMs 250 = 62500 := by decide
  have hon : s.permit n = 1 ∨ s.permit n = 2 → s.con PRO_STAT_COMMON_OPEN = false → s.outputOn n = true := fun h1 h2 => by
    rcases h1 with h1 | h1 <;> simp [State.outputOn, h1, h2]
  intro g sec fell rose
  refine ⟨fun h => congrArg Host.Outcome.next (if_pos ?_), fun hp ho h1 h2 => ?_, fun h => congrArg Host.Outcome.next (if_pos (by simp [h])),
    fun hp ho => ?_⟩
  · rw [hms]
    refine h.imp (fun h => by simp [h]) fun h => ?_
    simp only [Bool.not_eq_true', Bool.and_eq_false_iff, decide_eq_false_iff_not, not_le, not_not]
    exact h
  · have he := exec_offPulse fall rise (hon hp ho) h1 h2
    obtain ⟨hout, hfell, hrose⟩ := s.pulseFailed_facts n (s.guardTime / 250000 + 1) fell rose
    refine ⟨fun hf hr => ?_, fun hf => ?_, fun hr => ?_⟩
    · rw [if_pos (Bool.and_eq_true_iff.2 ⟨hf, hr⟩)] at he
      exact ⟨_, he, tget_tins_same s.pro.pulseSec n _ 0, State.cget_cbump_sat _ _, (RegsSame.refl s [PRO_GOUT_PULSES n]).cbump _⟩
    · rw [if_neg (fun hc => by rw [show (fall.any fun a => decide (a ≤ 150)) = false from hf] at hc; simp at hc)] at he
      exact ⟨_, he, (hfell hf).1, (hfell hf).2, guardFault_of_outFault hout⟩
    · rw [if_neg (fun hc => by rw [show (rise.any fun a => decide (a ≤ 200)) = false from hr] at hc; simp at hc)] at he
      exact ⟨_, he, hrose hr, guardFault_of_outFault hout⟩
  · have he : exec (.outputCurrentLimit n) s = .next ((((s.cset (PRO_GOUT_OC_SEEN n) 1).cset (PRO_GOUT_STUCK_OFF_SEEN n) 1).cset
        (PRO_GSTAT_OUT n) 0).modPro fun x => { x with outFault := true }) :=
      congrArg Host.Outcome.next (if_neg (by simp [hon hp ho]))
    obtain ⟨-, h1, -, -⟩ := gout_key (f := PRO_GOUT_OC_SEEN n) n.isLt rfl (by simp [PRO_GOUT_OC_SEEN])
    obtain ⟨-, h2, -, -⟩ := gout_key (f := PRO_GOUT_STUCK_OFF_SEEN n) n.isLt rfl (by simp [PRO_GOUT_STUCK_OFF_SEEN])
    have hne : (PRO_GOUT_OC_SEEN n).key ≠ (PRO_GOUT_STUCK_OFF_SEEN n).key := by
      simp only [Fld.key, PRO_GOUT_OC_SEEN, PRO_GOUT_STUCK_OFF_SEEN]
      omega
    refine ⟨_, he, ?_, ?_, ?_, guardFault_of_outFault rfl⟩
    · rw [State.modPro_con, State.con_cset_ne _ _ _ _ h1, State.con_cset_ne _ _ _ _ hne, State.con_cset_one _ (f := PRO_GOUT_OC_SEEN n) rfl]
    · rw [State.modPro_con, State.con_cset_ne _ _ _ _ h2, State.con_cset_one _ (f := PRO_GOUT_STUCK_OFF_SEEN n) rfl]
    · rw [State.modPro_con, State.con_eq_false]
      exact State.cget_cset_of_lt _ (f := PRO_GSTAT_OUT n) (v := 0) (by change 0 < 2 ^ 1; decide)

end pulse

/-! ### Resets of the guard -/

theorem not_noteKey_gstat (n : Nat) (hn : n < 16) : ¬ noteKey (PRO_GSTAT_STATE n).key := by
  simp only [noteKey, Fld.key, PRO_GSTAT_STATE]
  omega

section reset
variable {s : State} {n : Nat}

/-- What the test of the common switch leaves. -/
theorem State.commonTest_facts (s : State) (outs : List OutRead) :
    (s.commonTest outs).nvm = s.nvm ∧ (∀ m < 4, (s.commonTest outs).permit m = s.permit m) ∧
      (∀ f : Fld, f.key ≠ PRO_STAT_COMMON_OPEN.key → f.key ≠ PRO_STAT_FAULT.key → (s.commonTest outs).cget f = s.cget f) := by
  have hregs : ∀ f : Fld, f.key ≠ PRO_STAT_COMMON_OPEN.key → f.key ≠ PRO_STAT_FAULT.key → (s.commonTest outs).cget f = s.cget f :=
    fun f h1 h2 => (State.cget_cset_ne _ _ _ _ h2).trans (State.cget_cset_ne _ _ _ _ h1)
  refine ⟨rfl, fun m hm => hregs _ ?_ ?_, hregs⟩
  · simp only [Fld.key, PRO_GSTAT_STATE, PRO_STAT_COMMON_OPEN]
    omega
  · simp only [Fld.key, PRO_GSTAT_STATE, PRO_STAT_FAULT]
    omega

/-- The outputs pass the test when each reads below 5 V. -/
theorem State.commonTest_tested (s : State) (outs : List OutRead) : (s.commonTest outs).pro.commonTested = true ↔
    ∀ n : GuardIx, ∃ x ∈ outs, x.n = n ∧ x.mv < 5000 := by
  have h : (s.commonTest outs).pro.commonTested = (List.range 4).all fun n => outs.any fun r => decide (r.n.val = n ∧ r.mv < 5000) := rfl
  rw [h, List.all_eq_true]
  simp only [List.mem_range, List.any_eq_true, decide_eq_true_eq]
  refine ⟨fun h n => ?_, fun h n hn => ?_⟩
  · obtain ⟨x, hx, hxn, hmv⟩ := h n n.isLt
    exact ⟨x, hx, Fin.ext hxn, hmv⟩
  · obtain ⟨x, hx, hxn, hmv⟩ := h ⟨n, hn⟩
    exact ⟨x, hx, congrArg Fin.val hxn, hmv⟩

theorem State.commonTest_fails (s : State) {outs : List OutRead} (h : (outs.filter fun x => decide (x.mv < 5000)) = []) :
    (s.commonTest outs).guardFault = true := by
  refine guardFault_of_outFault ?_
  have hno : ¬ (s.commonTest outs).pro.commonTested = true := fun hc => by
    obtain ⟨x, hx, -, hmv⟩ := (s.commonTest_tested outs).1 hc 0
    have : x ∈ outs.filter fun x => decide (x.mv < 5000) := List.mem_filter.2 ⟨hx, decide_eq_true hmv⟩
    rw [h] at this
    exact List.not_mem_nil this
  have ho : (s.commonTest outs).pro.outFault = !(s.commonTest outs).pro.commonTested := rfl
  rw [ho]
  simpa using hno

/-- A reset leaves the state of a permit that is not off, or that has a cause. -/
theorem State.permitReset_same (hn : n < 4) (h : s.permit n ≤ 2 ∨ s.causes n ≠ 0) : (s.permitReset n).permit n = s.permit n := by
  unfold State.permitReset
  split
  · rfl
  · rw [if_neg (by omega)]
    exact ((State.logBit_notes _ _ _ _ _).regs _ (not_noteKey_gstat n (by omega))).trans
      (State.cget_cset_ne _ _ _ _ (by simp only [Fld.key, PRO_GSTAT_STATE, PRO_GCNT_RESET_REF]; omega))

/-- A reset without a cause starts a permit that was off anew and clears its latch. -/
theorem State.permitReset_cleared (hn : n < 4) (h : s.permit n = 3 ∨ s.permit n = 4) (hc : s.causes n = 0) :
    (s.permitReset n).permit n = 0 ∧ (s.permitReset n).nvm.latch0.getD n false = false := by
  unfold State.permitReset
  rw [if_neg (by omega), if_pos hc]
  exact ⟨(State.setLatch_cget _ _ (not_noteKey_gstat n (by omega)) (permit_apart n)).trans (s.setPermit_permit (by decide)),
    State.setLatch_latch _ false nofun⟩

theorem State.permitReset_count (s : State) (hn : n < 4) : (s.permitReset n).cget PRO_GCNT_RESETS = s.cget PRO_GCNT_RESETS := by
  have hp : (s.setPermit n 0).cget PRO_GCNT_RESETS = s.cget PRO_GCNT_RESETS := by
    unfold State.setPermit
    rw [State.cget_cset_ne _ _ _ _ (by simp only [Fld.key, PRO_GCNT_RESETS, PRO_GSTAT_OUT]; omega),
      State.cget_cset_ne _ _ _ _ (by simp only [Fld.key, PRO_GCNT_RESETS, PRO_GSTAT_STATE]; omega)]
  unfold State.permitReset
  split
  · rfl
  split
  · exact (State.setLatch_cget _ _ (by unfold noteKey; decide) (by decide)).trans hp
  · exact ((State.logBit_notes _ _ _ _ _).regs _ (by unfold noteKey; decide)).trans (State.cget_cset_ne _ _ _ _ (by decide))

/-- What an accepted reset of the guard leaves, by what its permits were. -/
theorem State.guardReset_facts (s : State) (outs : List OutRead) : let z := s.commonTest outs
    let u := s.guardReset outs
    u.cget PRO_GCNT_RESETS = min (s.cget PRO_GCNT_RESETS + 1) 255 ∧
      ∀ n < 4, (s.permit n = 3 ∨ s.permit n = 4 → z.causes n = 0 → u.permit n = 0 ∧ u.nvm.latch0.getD n false = false) ∧
        (s.permit n ≤ 2 ∨ z.causes n ≠ 0 → u.permit n = s.permit n) := by
  obtain ⟨-, hpermit, hregs⟩ := s.commonTest_facts outs
  have hu : s.guardReset outs =
      (List.range 4).foldl (fun z n => z.permitReset n) (((s.commonTest outs).cbump PRO_GCNT_RESETS).logBit PRO_GCNT_RESETS) := rfl
  have hcount : (((s.commonTest outs).cbump PRO_GCNT_RESETS).logBit PRO_GCNT_RESETS).cget PRO_GCNT_RESETS =
      min (s.cget PRO_GCNT_RESETS + 1) 255 := by
    rw [(State.logBit_notes _ _ _ _ _).regs _ (by unfold noteKey; decide), State.cget_cbump_sat, hregs _ (by decide) (by decide)]
    rfl
  dsimp only
  generalize s.commonTest outs = z at *
  have hy (N : Nat → Prop) : PermitsKept N z ((z.cbump PRO_GCNT_RESETS).logBit PRO_GCNT_RESETS) :=
    ((PermitsKept.refl z).cbump PRO_GCNT_RESETS rfl (by decide)).logBit _ _ _ _
  generalize (z.cbump PRO_GCNT_RESETS).logBit PRO_GCNT_RESETS = y at *
  rw [hu]
  refine ⟨?_, fun n hn => ?_⟩
  · exact List.foldlRecOn (motive := fun w : State => w.cget PRO_GCNT_RESETS = _) _ _ hcount fun w hw m hm =>
      (w.permitReset_count (List.mem_range.1 hm)).trans hw
  · obtain ⟨x, h1, h2⟩ := foldl_range_at (R := PermitsKept (· = n)) PermitsKept.refl (fun _ _ _ => PermitsKept.trans)
      (fun z m hm hne => (PermitsKept.refl z).permitReset hm hne) hn y
    have hx := (hy (· = n)).trans h1
    have hxp : x.permit n = s.permit n := (hx.permit_eq hn rfl).trans (hpermit n hn)
    have hxc : x.causes n = z.causes n := hx.causesKept.causes_eq n
    rw [h2.permit_eq hn rfl, h2.latch n hn rfl]
    rw [← hxp, ← hxc]
    exact ⟨State.permitReset_cleared hn, State.permitReset_same hn⟩

theorem exec_grst {ms : Nat} {t : List OutRead} (h1 : 500 ≤ ms) (h2 : ms ≤ 5000) :
    exec (.grst ms t) s = .next ((s.modPro fun x => { x with grstHeld := false }).guardReset t) :=
  congrArg Host.Outcome.next ((if_neg (by omega)).trans (if_neg (by omega)))

theorem grst_clause (s : State) (ms : Nat) (t : List OutRead) :
    (ms < 500 → ∃ u, exec (.grst ms t) s = .next u ∧ u = { s with pro := { s.pro with grstHeld := false } }) ∧
    (5000 < ms → ∃ u, exec (.grst ms t) s = .next u ∧ u.cget PRO_GCNT_RESET_REF = min (s.cget PRO_GCNT_RESET_REF + 1) 255 ∧
      ∀ n, n < 4 → u.permit n = s.permit n) ∧
    (500 ≤ ms → ms ≤ 5000 → ∀ z, z = (s.modPro fun x => { x with grstHeld := false }).commonTest t →
      ∃ u, exec (.grst ms t) s = .next u ∧ u.cget PRO_GCNT_RESETS = min (s.cget PRO_GCNT_RESETS + 1) 255 ∧
        ∀ n, n < 4 → (s.permit n = 3 ∨ s.permit n = 4 → z.causes n = 0 → u.permit n = 0 ∧ u.nvm.latch0.getD n false = false) ∧
          (s.permit n ≤ 2 ∨ z.causes n ≠ 0 → u.permit n = s.permit n) ∧
          ((t.filter fun x => decide (x.mv < 5000)) = [] → bitAt (z.causes n) 6 = true)) := by
  refine ⟨fun h => ⟨_, congrArg Host.Outcome.next (if_pos h), rfl⟩, fun h => ?_, fun h1 h2 z hz => ?_⟩
  · have he : exec (.grst ms t) s = .next (((s.modPro fun x => { x with grstHeld := false }).cbump PRO_GCNT_RESET_REF).logBit PRO_GCNT_RESET_REF) :=
      congrArg Host.Outcome.next ((if_neg (by omega)).trans (if_pos h))
    have hz : ∀ f, (s.modPro fun x => { x with grstHeld := false }).cget f = s.cget f := fun _ => rfl
    generalize (s.modPro fun x => { x with grstHeld := false }) = z at he hz
    refine ⟨_, he, ?_, fun n hn => ?_⟩
    · rw [(State.logBit_notes _ _ _ _ _).regs _ (by unfold noteKey; decide), State.cget_cbump_sat, hz]
      rfl
    · refine ((State.logBit_notes _ _ _ _ _).regs _ (not_noteKey_gstat n (by omega))).trans ((State.cget_cset_ne _ _ _ _ ?_).trans (hz _))
      simp only [Fld.key, PRO_GSTAT_STATE, PRO_GCNT_RESET_REF]
      omega
  · obtain ⟨hcount, hperm⟩ := (s.modPro fun x => { x with grstHeld := false }).guardReset_facts t
    rw [← hz] at hperm
    refine ⟨_, exec_grst h1 h2, hcount, fun n hn => ⟨(hperm n hn).1, (hperm n hn).2, fun hf => ?_⟩⟩
    rw [State.causes_six, hz, State.commonTest_fails _ hf]

/-- The end of GRST leaves the proof of the inputs. -/
theorem grst_gin (s : State) (ms : Nat) (t : List OutRead) : ∃ u, exec (.grst ms t) s = .next u ∧ KeysKept ginKey s u := by
  have hno {f : Fld} (h : f ∈ [PRO_GCNT_RESET_REF, PRO_GCNT_RESETS, PRO_STAT_COMMON_OPEN, PRO_STAT_FAULT]) : ¬ ginKey f.key := by
    refine not_ginKey ?_ ?_ <;> revert f <;> decide
  have h0 : KeysKept ginKey s (s.modPro fun x => { x with grstHeld := false }) := fun _ _ => rfl
  have hexec : exec (.grst ms t) s = .next (if ms < 500 then s.modPro fun x => { x with grstHeld := false }
      else if 5000 < ms then ((s.modPro fun x => { x with grstHeld := false }).cbump PRO_GCNT_RESET_REF).logBit PRO_GCNT_RESET_REF
      else (s.modPro fun x => { x with grstHeld := false }).guardReset t) := rfl
  refine ⟨_, hexec, ?_⟩
  generalize (s.modPro fun x => { x with grstHeld := false }) = z at h0
  refine h0.ite (KeysKept.ite ((h0.cset PRO_GCNT_RESET_REF _ (hno (by decide))).notes not_noteKey_of_ginKey
    (State.logBit_notes (z.cbump PRO_GCNT_RESET_REF) PRO_GCNT_RESET_REF 0xFF 0 0)) ?_)
  have h1 : KeysKept ginKey z (z.commonTest t) := fun f hf => (z.commonTest_facts t).2.2 f
    (fun e => hno (f := PRO_STAT_COMMON_OPEN) (by decide) (e ▸ hf)) fun e => hno (f := PRO_STAT_FAULT) (by decide) (e ▸ hf)
  have h2 := (h1.cset PRO_GCNT_RESETS (min ((z.commonTest t).cget PRO_GCNT_RESETS + 1) (2 ^ PRO_GCNT_RESETS.width - 1)) (hno (by decide))).notes
    not_noteKey_of_ginKey (State.logBit_notes ((z.commonTest t).cbump PRO_GCNT_RESETS) PRO_GCNT_RESETS 0xFF 0 0)
  refine (h0.trans h2).trans (KeysKept.foldl (fun w m hm f hf => ?_) _)
  exact ((PermitsKept.refl (N := fun _ => False) w).permitReset (List.mem_range.1 hm) id).cget_eq (by
    unfold ginKey at hf
    simp only [moveKey, noteKey, Fld.key, PRO_STAT_LATCH, PRO_STAT_LOCKOUT, GLB_STAT_LOCKOUT] at hf ⊢
    omega)

end reset

/-! ### The straps -/

theorem strapChange_clause (s : State) (x : BitVec 2) : ∃ u, exec (.strapChange x) s = .next u ∧ u.cget PRO_STAT_STRAP = x.toNat ∧
    u.cget PRO_STAT_CLASS = s.cget PRO_STAT_CLASS ∧ u.pro.strapBad = decide (x.toNat ≠ s.cget PRO_STAT_CLASS) ∧
    (x.toNat ≠ s.cget PRO_STAT_CLASS → s.pro.strapBad = false → u.con PRO_STAT_STRAP_CHG = true ∧ u.guardFault = true) := by
  let z := (s.cset PRO_STAT_STRAP x.toNat).modPro fun y => { y with strapBad := decide (x.toNat ≠ s.cget PRO_STAT_CLASS) }
  have he : exec (.strapChange x) s = .next (if decide (x.toNat ≠ s.cget PRO_STAT_CLASS) && !s.pro.strapBad then
      (z.raise PRO_STAT_STRAP_CHG).logBit PRO_STAT_STRAP_CHG 0xFF x.toNat else z) := rfl
  have hstrap : z.cget PRO_STAT_STRAP = x.toNat := State.cget_cset_of_lt s x.isLt
  have hclass : z.cget PRO_STAT_CLASS = s.cget PRO_STAT_CLASS := State.cget_cset_ne s _ _ _ (by decide)
  have hbad : z.pro.strapBad = decide (x.toNat ≠ s.cget PRO_STAT_CLASS) := rfl
  clear_value z
  by_cases h : x.toNat ≠ s.cget PRO_STAT_CLASS ∧ s.pro.strapBad = false
  · obtain ⟨h1, h2⟩ := h
    rw [if_pos (by simp [h1, h2])] at he
    have hn := (z.raise PRO_STAT_STRAP_CHG).logBit_notes PRO_STAT_STRAP_CHG 0xFF x.toNat 0
    have hregs : ∀ f : Fld, ¬ noteKey f.key → f.key ≠ PRO_STAT_STRAP_CHG.key →
        ((z.raise PRO_STAT_STRAP_CHG).logBit PRO_STAT_STRAP_CHG 0xFF x.toNat).cget f = z.cget f := fun f hf hne =>
      (hn.regs f hf).trans (z.raise_regs _ _ hf hne)
    have hpro : ((z.raise PRO_STAT_STRAP_CHG).logBit PRO_STAT_STRAP_CHG 0xFF x.toNat).pro = z.pro := hn.pro_eq.trans (z.raise_pro _)
    refine ⟨_, he, (hregs _ (by unfold noteKey; decide) (by decide)).trans hstrap, (hregs _ (by unfold noteKey; decide) (by decide)).trans hclass,
      by rw [hpro, hbad], fun _ _ => ⟨?_, ?_⟩⟩
    · rw [State.con_eq_true, hn.regs _ (by unfold noteKey; decide), z.raise_same rfl (by unfold noteKey; decide)]
      decide
    · rw [State.guardFault, hpro, hbad]
      simp [h1]
  · rw [if_neg (fun hc => h (by simpa using hc))] at he
    exact ⟨z, he, hstrap, hclass, hbad, fun h1 h2 => absurd ⟨h1, h2⟩ h⟩

/-! ### The latch at start-up -/

section latchRead
variable {s : State}

/-- The registers of the log that an entry writes. -/
def logFields : List Fld := [NVM_STAT_BUSY, MRN_SEQ_SEQ, MRN_STAT_PEND, MRN_STAT_LOST]

theorem State.logPut_cget (s : State) (e : LogEntry) {f : Fld} (hq : ¬ queueKey f.key) (hf : ∀ g ∈ logFields, f.key ≠ g.key) :
    (s.logPut e).cget f = s.cget f := by
  rw [(s.logPut_queued e).regs f hq, State.logKept, State.cget_cset_ne _ _ _ _ (hf MRN_STAT_PEND (by decide)),
    (State.logStart_begun _).regs f (hf NVM_STAT_BUSY (by decide)), State.cwrap, State.cget_cset_ne _ _ _ _ (hf MRN_SEQ_SEQ (by decide))]
  rfl

theorem State.logAdd_cget (s : State) (e : LogEntry) {f : Fld} (hq : ¬ queueKey f.key) (hf : ∀ g ∈ logFields, f.key ≠ g.key) :
    (s.logAdd e).cget f = s.cget f := by
  have hlose (z : State) : z.logLose.cget f = z.cget f := State.cget_cset_ne _ _ _ _ (hf MRN_STAT_LOST (by decide))
  unfold State.logAdd
  split
  · exact hlose s
  split
  · exact s.logPut_cget e hq hf
  · have h1 := s.logPut_cget (s.stamp 0x7F06 0 0 0 0xFF false 0 s.nvm.overflow 0) hq hf
    dsimp only
    generalize s.logPut (s.stamp 0x7F06 0 0 0 0xFF false 0 s.nvm.overflow 0) = y at h1 ⊢
    split
    · exact (hlose _).trans h1
    · exact (State.logPut_cget (y.modNvm _) e hq hf).trans h1

/-- One permit's turn when the latch has been read. -/
def State.latchStep (s : State) (n : Nat) : State := if bitAt (s.cget PRO_STAT_LATCH) n then s.trip n 4 else s

theorem PermitsKept.latchStep {N : Nat → Prop} {t : State} (h : PermitsKept N s t) {m : Nat} (hm4 : m < 4) (hm : ¬ N m) :
    PermitsKept N s (t.latchStep m) := by
  unfold State.latchStep
  split
  · exact h.trip hm4 hm 4
  · exact h

/-- The latch read, with the copies made equal first if they were not. -/
def State.latchFixed (s : State) : State :=
  ((s.modNvm fun v => { v with latch0 := [true, true, true, true] }).program .latch).cset NVM_STAT_LATCH_FIX 1

/-- The latch shown and the test of the outputs made. -/
def State.latchTested (s : State) (outs : List OutRead) : State :=
  (s.modPro fun x => { x with latchRead := true }).showLatch.commonTest outs

theorem exec_latchRead (h : s.pro.latchRead = false) (agree : Bool) (t : List OutRead) : exec (.latchRead agree t) s =
    .next ((List.range 4).foldl State.latchStep
      ((s.when (!(agree && decide (s.nvm.latch0 = s.nvm.latch1))) State.latchFixed).latchTested t)) :=
  congrArg Host.Outcome.next (if_neg (by simp [h]))

theorem State.showLatch_permit (s : State) (n : Nat) : s.showLatch.permit n = s.permit n := by
  obtain ⟨h1, h2, h3⟩ := permit_apart n
  unfold State.showLatch
  dsimp only
  rw [State.permit, State.cget_cset_ne _ _ _ _ h3, State.cget_cset_ne _ _ _ _ h2, State.cget_cset_ne _ _ _ _ h1]
  rfl

/-- What the read latch does to the permits. -/
theorem State.latchSteps_facts (y : State) (t : List OutRead) : let u := (List.range 4).foldl State.latchStep (y.latchTested t)
    u.pro.latchRead = true ∧ (u.pro.commonTested = true ↔ ∀ n : GuardIx, ∃ x ∈ t, x.n = n ∧ x.mv < 5000) ∧
      ∀ n < 4, u.permit n = if y.nvm.latch0.getD n false = true then 4 else y.permit n := by
  let b := (y.modPro fun x => { x with latchRead := true }).showLatch
  have hz : y.latchTested t = b.commonTest t := rfl
  have hbbit : ∀ n < 4, bitAt (b.cget PRO_STAT_LATCH) n = y.nvm.latch0.getD n false := fun n hn => State.showLatch_bit _ hn
  have hbp : ∀ n, b.permit n = y.permit n := fun n => State.showLatch_permit _ n
  have hbr : (b.commonTest t).pro.latchRead = true := rfl
  have hnvm : b.nvm = y.nvm := rfl
  clear_value b
  obtain ⟨hn0, hpermit, hregs⟩ := b.commonTest_facts t
  have htested := b.commonTest_tested t
  rw [hz]
  generalize b.commonTest t = z at *
  have hwhole : PermitsKept (fun _ => False) z ((List.range 4).foldl State.latchStep z) :=
    List.foldlRecOn (motive := PermitsKept (fun _ => False) z) _ _ (.refl _) fun w hw m hm => hw.latchStep (List.mem_range.1 hm) id
  refine ⟨hwhole.latchRead_eq.trans hbr, by rw [hwhole.commonTested_eq]; exact htested, fun n hn => ?_⟩
  obtain ⟨x, h1, h2⟩ := foldl_range_at (R := PermitsKept (· = n)) PermitsKept.refl (fun _ _ _ => PermitsKept.trans)
    (fun z m hm hne => (PermitsKept.refl z).latchStep hm hne) hn z
  have hbit : bitAt (z.cget PRO_STAT_LATCH) n = z.nvm.latch0.getD n false := by
    rw [hregs _ (by decide) (by decide), hbbit n hn, hn0, hnvm]
  have hxbit : bitAt (x.cget PRO_STAT_LATCH) n = y.nvm.latch0.getD n false := by
    rw [h1.shown n hn rfl hbit, h1.latch n hn rfl, hn0, hnvm]
  rw [h2.permit_eq hn rfl, State.latchStep, hxbit]
  split
  · exact x.trip_permit hn (by decide)
  · rw [h1.permit_eq hn rfl, hpermit n hn, hbp]

theorem getD_full {n : Nat} (hn : n < 4) : [true, true, true, true].getD n false = true := by
  have h : ∀ n : Fin 4, [true, true, true, true].getD n false = true := by decide
  exact h ⟨n, hn⟩

/-- The lock-out and the repair of the latch are shown apart from the queues, the log and the permits. -/
theorem shown_apart : ∀ f ∈ [GLB_STAT_LOCKOUT, NVM_STAT_LATCH_FIX],
    ¬ queueKey f.key ∧ (∀ g ∈ logFields, f.key ≠ g.key) ∧ (f.key < 0x900000 * 64 ∨ 0x901000 * 64 ≤ f.key) := by
  unfold queueKey
  decide

/-- With every bit of the latch set, the trips it causes write no latch. -/
theorem State.latchSteps_full {z : State} (hl : z.nvm.latch0 = [true, true, true, true]) (hlock : z.con GLB_STAT_LOCKOUT = true)
    (hfix : z.con NVM_STAT_LATCH_FIX = true) : let u := (List.range 4).foldl State.latchStep z
    u.nvm.latch0 = [true, true, true, true] ∧ u.con GLB_STAT_LOCKOUT = true ∧ u.con NVM_STAT_LATCH_FIX = true := by
  refine List.foldlRecOn (motive := fun w : State => w.nvm.latch0 = [true, true, true, true] ∧ w.con GLB_STAT_LOCKOUT = true ∧
    w.con NVM_STAT_LATCH_FIX = true) _ _ ⟨hl, hlock, hfix⟩ fun w ⟨h1, h2, h3⟩ n hn => ?_
  have hn4 := List.mem_range.1 hn
  have hnvm : (w.tripped n 4).nvm.latch0 = w.nvm.latch0 := (congrArg NvmSt.latch0 (State.logAdd_nvm _ _) :)
  have hset : (w.tripped n 4).setLatch n true = w.tripped n 4 := by
    unfold State.setLatch
    rw [if_pos (by rw [hnvm, h1, getD_full hn4])]
  have hregs : ∀ f ∈ [GLB_STAT_LOCKOUT, NVM_STAT_LATCH_FIX], (w.tripped n 4).con f = w.con f := fun f hf => by
    obtain ⟨hq, hlog, hk⟩ := shown_apart f hf
    rw [State.con, State.con, State.tripped, State.logBit, State.logAdd_cget _ _ hq hlog, State.cbump, State.cadd,
      State.cget_cset_ne _ _ _ _ (by simp only [Fld.key, PRO_GCNT_TRIPS] at hk ⊢; omega), State.setPermit,
      State.cget_cset_ne _ _ _ _ (by simp only [Fld.key, PRO_GSTAT_OUT] at hk ⊢; omega),
      State.cget_cset_ne _ _ _ _ (by simp only [Fld.key, PRO_GSTAT_STATE] at hk ⊢; omega)]
  unfold State.latchStep
  split
  · rw [State.trip_eq, if_pos rfl, hset, hnvm, hregs _ (by decide), hregs _ (by decide)]
    exact ⟨h1, h2, h3⟩
  · exact ⟨h1, h2, h3⟩

theorem State.latchFixed_facts (s : State) (t : List OutRead) : let z := s.latchFixed.latchTested t
    z.nvm.latch0 = [true, true, true, true] ∧ z.con GLB_STAT_LOCKOUT = true ∧ z.con NVM_STAT_LATCH_FIX = true := by
  have hprog := State.program_nvm (s.modNvm fun v => { v with latch0 := [true, true, true, true] }) .latch
  have hlatch : s.latchFixed.nvm.latch0 = [true, true, true, true] := (congrArg NvmSt.latch0 hprog :)
  have hfix : s.latchFixed.con NVM_STAT_LATCH_FIX = true := State.con_cset_one _ rfl
  generalize s.latchFixed = y at hlatch hfix
  obtain ⟨hnvm, -, hregs⟩ := (y.modPro fun x => { x with latchRead := true }).showLatch.commonTest_facts t
  refine ⟨?_, ?_, ?_⟩
  · exact (congrArg NvmSt.latch0 hnvm).trans hlatch
  · rw [State.con, State.latchTested, hregs _ (by decide) (by decide)]
    unfold State.showLatch
    dsimp only
    rw [State.cget_cset_of_lt _ (b2n_lt_two _), show (y.modPro fun x => { x with latchRead := true }).nvm.latch0 = _ from hlatch]
    decide
  · rw [State.con, State.latchTested, hregs _ (by decide) (by decide)]
    unfold State.showLatch
    dsimp only
    rw [State.cget_cset_ne _ _ _ _ (by decide), State.cget_cset_ne _ _ _ _ (by decide), State.cget_cset_ne _ _ _ _ (by decide)]
    exact hfix

theorem latchRead_clause (s : State) (t : List OutRead) : (s.pro.latchRead = true → exec (.latchRead false t) s = .next s) ∧
    (s.pro.latchRead = false →
      (∃ u, exec (.latchRead false t) s = .next u ∧ u.pro.latchRead = true ∧ u.con NVM_STAT_LATCH_FIX = true ∧
        u.nvm.latch0 = [true, true, true, true] ∧ u.con GLB_STAT_LOCKOUT = true ∧ ∀ n, n < 4 → u.permit n = 4) ∧
      (s.nvm.latch0 = s.nvm.latch1 → ∃ u, exec (.latchRead true t) s = .next u ∧ u.pro.latchRead = true ∧
        (u.pro.commonTested = true ↔ ∀ n : GuardIx, ∃ x ∈ t, x.n = n ∧ x.mv < 5000) ∧
        ∀ n, n < 4 → u.permit n = (if s.nvm.latch0.getD n false = true then 4 else s.permit n))) := by
  refine ⟨fun h => congrArg Host.Outcome.next (if_pos h), fun h => ⟨?_, fun hsame => ?_⟩⟩
  · have he : exec (.latchRead false t) s = .next ((List.range 4).foldl State.latchStep (s.latchFixed.latchTested t)) := exec_latchRead h false t
    obtain ⟨hl, hlock, hfix⟩ := s.latchFixed_facts t
    obtain ⟨hl', hlock', hfix'⟩ := State.latchSteps_full hl hlock hfix
    obtain ⟨hread, -, hperm⟩ := s.latchFixed.latchSteps_facts t
    refine ⟨_, he, hread, hfix', hl', hlock', fun n hn => ?_⟩
    rw [hperm n hn, if_pos]
    have hy : s.latchFixed.nvm.latch0 = [true, true, true, true] :=
      (congrArg NvmSt.latch0 (State.program_nvm (s.modNvm fun v => { v with latch0 := [true, true, true, true] }) .latch) :)
    rw [hy, getD_full hn]
  · have he := exec_latchRead h true t
    rw [hsame, decide_eq_true rfl] at he
    obtain ⟨hread, htested, hperm⟩ := s.latchSteps_facts t
    exact ⟨_, he, hread, htested, hperm⟩

end latchRead

/-- Settles O55: inputs, causes, moves of permits, output tests, resets and the latch, each from what its own operation leaves of a permit. -/
theorem permitsFollowTheirCauses : Obligations.PermitsFollowTheirCauses := by
  unfold Obligations.PermitsFollowTheirCauses
  refine ⟨inputs_clause, fun s i cause straps a b ns hsd => ⟨?_, fun hns => ?_⟩, fun s i m v ms t => ⟨?_, ?_, ?_⟩,
    fun s n i gv ok bad hp he hm hu => unproven_clause bad hp he hm hu, fun s n gv ok z hsd hr hd hz hb => evaluation_clause hsd hr hd hb hz,
    fun s n gv mv ok => readBack_clause s n gv mv ok, fun s n hp => held_clause hp, offPulse_clause, fun s => ⟨?_, ?_⟩, grst_clause,
    strapChange_clause, latchRead_clause⟩
  · exact ⟨_, congrArg Host.Outcome.next (if_neg (by simp [hsd])), s.powerOn_proven _ _ a b i.isLt⟩
  · exact ⟨_, congrArg Host.Outcome.next (if_neg (by simp [hsd]; omega)), State.powerOn_proven _ _ _ a b i.isLt⟩
  · obtain ⟨u, he, hk⟩ := grst_gin s ms t
    exact ⟨u, he, by rw [State.con, State.con, hk _ (ginKey_proven i.isLt)]⟩
  · have he : exec (.soft m v) s = .next _ := rfl
    exact ⟨_, he, by rw [State.con, State.con, s.softWritten_gin _ _ _ (ginKey_proven i.isLt)]⟩
  · have he : exec (.region m v) s = .next _ := rfl
    exact ⟨_, he, by rw [State.con, State.con, s.softWritten_gin _ _ _ (ginKey_proven i.isLt)]⟩
  · exact fun h => congrArg Host.Outcome.next (if_pos h)
  · exact fun h => ⟨_, congrArg Host.Outcome.next (if_neg (by simp [h])), rfl, rfl, rfl⟩

end Sys2Proof.Machine

/-! ## The password and the guard's settings -/

namespace Sys2Proof.Machine

set_option Elab.async false

/-! ### Password checks -/

section check
variable {s : State} {pw : List Byte}

/-- The state with the settings window opened. -/
def State.windowOpened (s : State) : State := (s.cset PRO_GWIN_OPEN 1).modPro fun x => { x with windowTick := s.tm.tick }

theorem State.passwordCheck_blocked (h : s.con PRO_GWIN_BLOCKED = true) : s.passwordCheck pw = (s, false) := if_pos h

theorem State.passwordCheck_opens (hb : s.con PRO_GWIN_BLOCKED = false) (hs : s.con PRO_GWIN_PW_SET = true) (hm : s.pwMatches pw = true) :
    s.passwordCheck pw = (s.windowOpened, true) :=
  (if_neg (by simp [hb])).trans (if_pos (by rw [hs, hm]; rfl))

theorem State.passwordCheck_fails (hb : s.con PRO_GWIN_BLOCKED = false) (h : s.con PRO_GWIN_PW_SET = false ∨ s.pwMatches pw = false) :
    s.passwordCheck pw = (s.checkFailed, false) :=
  (if_neg (by simp [hb])).trans (if_neg (by rcases h with h | h <;> rw [h] <;> simp))

theorem State.pwMatches_iff : s.pwMatches pw = true ↔ pw.length ≤ 32 ∧ sha256 (s.pro.salt ++ pw) = s.pro.verifier := by
  rw [State.pwMatches, Bool.and_eq_true, decide_eq_true_eq, decide_eq_true_eq]

/-- The failed checks that count after one more. -/
def State.failsNow (s : State) : List Nat := s.tm.tick :: s.pro.failTicks.filter fun t => decide (s.tm.tick < t + 60 * ticksSec)

/-- A failed check counted and logged. -/
def State.failCounted (s : State) : State :=
  ((s.modPro fun x => { x with failTicks := s.failsNow }).cbump PRO_GCNT_PW_FAIL).logBit PRO_GCNT_PW_FAIL

theorem State.checkFailed_eq (s : State) : s.checkFailed = if 3 ≤ s.failsNow.length then
    (s.failCounted.cset PRO_GWIN_BLOCKED 1).modPro fun x => { x with failTicks := [], blockTick := s.tm.tick } else s.failCounted := rfl

theorem State.failCounted_facts (s : State) : s.failCounted.cget PRO_GCNT_PW_FAIL = min (s.cget PRO_GCNT_PW_FAIL + 1) 255 ∧
    s.failCounted.pro = { s.pro with failTicks := s.failsNow } ∧
    ∀ f : Fld, ¬ noteKey f.key → f.key ≠ PRO_GCNT_PW_FAIL.key → s.failCounted.cget f = s.cget f := by
  have hn := State.logBit_notes ((s.modPro fun x => { x with failTicks := s.failsNow }).cbump PRO_GCNT_PW_FAIL) PRO_GCNT_PW_FAIL 0xFF 0 0
  unfold State.failCounted
  refine ⟨?_, hn.pro_eq, fun f hf hne => (hn.regs f hf).trans (State.cget_cset_ne _ _ _ _ hne)⟩
  rw [hn.regs _ (by unfold noteKey; decide), State.cget_cbump_sat]
  rfl

/-- What a failed check leaves. -/
theorem State.checkFailed_facts (s : State) : s.checkFailed.cget PRO_GCNT_PW_FAIL = min (s.cget PRO_GCNT_PW_FAIL + 1) 255 ∧
    s.checkFailed.pro = { s.pro with failTicks := s.checkFailed.pro.failTicks, blockTick := s.checkFailed.pro.blockTick } ∧
    (∀ f : Fld, ¬ noteKey f.key → f.key ≠ PRO_GCNT_PW_FAIL.key → f.key ≠ PRO_GWIN_BLOCKED.key → s.checkFailed.cget f = s.cget f) ∧
    (s.failsNow.length < 3 → s.checkFailed.con PRO_GWIN_BLOCKED = s.con PRO_GWIN_BLOCKED) ∧
    (3 ≤ s.failsNow.length → s.checkFailed.con PRO_GWIN_BLOCKED = true ∧ s.checkFailed.pro.blockTick = s.tm.tick) := by
  obtain ⟨hcount, hpro, hregs⟩ := s.failCounted_facts
  rw [State.checkFailed_eq]
  generalize s.failCounted = y at *
  split
  · next h3 =>
    refine ⟨?_, ?_, fun f hf h1 h2 => ?_, fun hlt => absurd h3 (by omega), fun _ => ⟨?_, rfl⟩⟩
    · rw [State.modPro_cget, State.cget_cset_ne _ _ _ _ (by decide), hcount]
    · change { y.pro with failTicks := [], blockTick := s.tm.tick } = _
      rw [hpro]
      rfl
    · rw [State.modPro_cget, State.cget_cset_ne _ _ _ _ h2, hregs f hf h1]
    · rw [State.modPro_con, State.con_cset_one y (f := PRO_GWIN_BLOCKED) rfl]
  · next h3 =>
    refine ⟨hcount, ?_, fun f hf h1 _ => hregs f hf h1, fun _ => ?_, fun hle => absurd hle h3⟩
    · rw [hpro]
    · rw [State.con, State.con, hregs _ (by unfold noteKey; decide) (by decide)]

end check

/-! ### The registers of the window -/

section window
variable {s : State} {m : MasterIx} {v : W32}

theorem passwordByte_clause (hf : s.frozen m = false) (hp : s.permitted m .control PRO_GPW_BYTE.reg .write = true) :
    (s.pro.candidate.length < 33 → ∃ u, exec (.passwordByte m v) s = .next u ∧
      u.pro.candidate = s.pro.candidate ++ [BitVec.ofNat 8 v.toNat] ∧ u.creg = s.creg) ∧
    (33 ≤ s.pro.candidate.length → ∃ u, exec (.passwordByte m v) s = .next u ∧ u.pro = s.pro ∧ u.creg = s.creg) := by
  have he : exec (.passwordByte m v) s = .next ((s.opGpw v.toNat).answer m.val false 0) :=
    congrArg Host.Outcome.next (State.guarded_of_permitted hf hp _)
  refine ⟨fun h => ⟨_, he, if_pos h, rfl⟩, fun h => ⟨_, he, ?_, rfl⟩⟩
  change { s.pro with candidate := if s.pro.candidate.length < 33 then s.pro.candidate ++ [BitVec.ofNat 8 v.toNat] else s.pro.candidate } = s.pro
  rw [if_neg (by omega)]

theorem close_clause (hf : s.frozen m = false) (hp : s.permitted m .control PRO_GCOMMIT_CLOSE.reg .write = true) (hv : bitAt v.toNat 0 = true) :
    ∃ u, exec (.close m v) s = .next u ∧ u.con PRO_GWIN_OPEN = false ∧ RegsSame s u [PRO_GWIN_OPEN] := by
  have he : exec (.close m v) s = .next ((s.cset PRO_GWIN_OPEN 0).answer m.val false 0) := by
    refine congrArg Host.Outcome.next ((State.guarded_of_permitted hf hp _).trans ?_)
    rw [State.opGcommit, if_pos hv]
  exact ⟨_, he, State.con_eq_false.2 (State.cget_cset_of_lt s (f := PRO_GWIN_OPEN) (v := 0) (by decide)),
    ((RegsSame.refl s _).cset PRO_GWIN_OPEN 0).answer _ _ _⟩

/-- The state with the collected bytes discarded. -/
def State.discarded (s : State) : State := s.modPro fun x => { x with candidate := [] }

theorem exec_check (hf : s.frozen m = false) (hp : s.permitted m .control PRO_GWIN_CHECK.reg .write = true) : exec (.check m v) s =
    .next ((if bitAt v.toNat 0 then (s.discarded.passwordCheck s.pro.candidate).1 else s).answer m.val false 0) :=
  congrArg Host.Outcome.next (State.guarded_of_permitted hf hp _)

theorem check_clause (hf : s.frozen m = false) (hp : s.permitted m .control PRO_GWIN_CHECK.reg .write = true) :
    (bitAt v.toNat 0 = false → ∃ u, exec (.check m v) s = .next u ∧ u = { s with sp := u.sp }) ∧
    (bitAt v.toNat 0 = true → s.con PRO_GWIN_BLOCKED = true → ∃ u, exec (.check m v) s = .next u ∧ u.pro.candidate = [] ∧ RegsSame s u []) ∧
    (bitAt v.toNat 0 = true → s.con PRO_GWIN_BLOCKED = false →
      (sha256 (s.pro.salt ++ s.pro.candidate) = s.pro.verifier → s.con PRO_GWIN_PW_SET = true → s.pro.candidate.length ≤ 32 →
        ∃ u, exec (.check m v) s = .next u ∧
        u.con PRO_GWIN_OPEN = true ∧ u.pro.windowTick = s.tm.tick ∧ u.pro.candidate = [] ∧ RegsSame s u [PRO_GWIN_OPEN]) ∧
      (sha256 (s.pro.salt ++ s.pro.candidate) ≠ s.pro.verifier ∨ s.con PRO_GWIN_PW_SET = false ∨ 32 < s.pro.candidate.length →
        ∃ u, exec (.check m v) s = .next u ∧
        u.cget PRO_GCNT_PW_FAIL = min (s.cget PRO_GCNT_PW_FAIL + 1) 255 ∧ u.con PRO_GWIN_OPEN = s.con PRO_GWIN_OPEN ∧
        u.pro.candidate = [] ∧
        (s.pro.failTicks = [] → u.con PRO_GWIN_BLOCKED = false) ∧
        (∀ a b, s.pro.failTicks = [a, b] → s.tm.tick < a + 15000000 → s.tm.tick < b + 15000000 → u.con PRO_GWIN_BLOCKED = true ∧
          u.pro.blockTick = s.tm.tick))) := by
  have he := exec_check (v := v) hf hp
  have hd : s.discarded.creg = s.creg := rfl
  have hdc : ∀ f, s.discarded.con f = s.con f := fun _ => rfl
  refine ⟨fun h0 => ?_, fun h1 hb => ?_, fun h1 hb => ⟨fun hm hs hl => ?_, fun h => ?_⟩⟩
  · rw [if_neg (by simp [h0])] at he
    exact ⟨_, he, rfl⟩
  · rw [if_pos h1, State.passwordCheck_blocked ((hdc _).trans hb)] at he
    exact ⟨_, he, rfl, RegsSame.of_creg rfl _⟩
  · rw [if_pos h1, State.passwordCheck_opens ((hdc _).trans hb) ((hdc _).trans hs) (State.pwMatches_iff.2 ⟨hl, hm⟩)] at he
    exact ⟨_, he, State.con_cset_one s.discarded (f := PRO_GWIN_OPEN) rfl, rfl, rfl,
      (((RegsSame.of_creg hd [PRO_GWIN_OPEN]).cset PRO_GWIN_OPEN 1).modPro _).answer _ _ _⟩
  · have hfail : s.discarded.con PRO_GWIN_PW_SET = false ∨ s.discarded.pwMatches s.pro.candidate = false := by
      rw [hdc, ← Bool.not_eq_true (State.pwMatches _ _), State.pwMatches_iff]
      rcases h with h | h | h
      · exact .inr fun hc => h hc.2
      · exact .inl h
      · exact .inr fun hc => absurd hc.1 (by omega)
    rw [if_pos h1, State.passwordCheck_fails ((hdc _).trans hb) hfail] at he
    obtain ⟨hcount, hpro, hregs, hfew, hthree⟩ := s.discarded.checkFailed_facts
    refine ⟨_, he, hcount, ?_, ?_, fun h0 => (hfew ?_).trans hb, fun a b h0 ha hb' => hthree ?_⟩
    · exact congrArg (· != 0) (hregs PRO_GWIN_OPEN (by unfold noteKey; decide) (by decide) (by decide))
    · exact congrArg ProSt.candidate hpro
    · rw [State.failsNow, show s.discarded.pro.failTicks = [] from h0]
      exact (by decide : 1 < 3)
    · have hsec : 60 * ticksSec = 15000000 := by decide
      have htm : s.discarded.tm = s.tm := rfl
      rw [State.failsNow, show s.discarded.pro.failTicks = [a, b] from h0, hsec, htm]
      simp [ha, hb']

theorem waits_clause (s : State) :
    (s.con PRO_GWIN_OPEN = true →
      (s.pro.windowTick + 2500000 ≤ s.tm.tick → ∃ u, exec .windowTimeout s = .next u ∧ u.con PRO_GWIN_OPEN = false ∧
        RegsSame s u [PRO_GWIN_OPEN]) ∧
      (s.tm.tick < s.pro.windowTick + 2500000 → exec .windowTimeout s = .next s)) ∧
    (s.con PRO_GWIN_BLOCKED = true →
      (s.pro.blockTick + 15000000 ≤ s.tm.tick → ∃ u, exec .checkUnblock s = .next u ∧ u.con PRO_GWIN_BLOCKED = false ∧
        RegsSame s u [PRO_GWIN_BLOCKED]) ∧
      (s.tm.tick < s.pro.blockTick + 15000000 → exec .checkUnblock s = .next s)) := by
  have h10 : 10 * ticksSec = 2500000 := by decide
  have h60 : 60 * ticksSec = 15000000 := by decide
  refine ⟨fun ho => ⟨fun h => ?_, fun h => congrArg Host.Outcome.next (if_neg ?_)⟩,
    fun hb => ⟨fun h => ?_, fun h => congrArg Host.Outcome.next (if_neg ?_)⟩⟩
  · have he : exec .windowTimeout s = .next (s.cset PRO_GWIN_OPEN 0) := congrArg Host.Outcome.next (if_pos (by simp [ho, h10, h]))
    exact ⟨_, he, State.con_eq_false.2 (State.cget_cset_of_lt s (f := PRO_GWIN_OPEN) (v := 0) (by decide)), (RegsSame.refl s _).cset _ _⟩
  · rw [h10, Bool.and_eq_true, decide_eq_true_eq]
    omega
  · have he : exec .checkUnblock s = .next (s.cset PRO_GWIN_BLOCKED 0) := congrArg Host.Outcome.next (if_pos (by simp [hb, h60, h]))
    exact ⟨_, he, State.con_eq_false.2 (State.cget_cset_of_lt s (f := PRO_GWIN_BLOCKED) (v := 0) (by decide)), (RegsSame.refl s _).cset _ _⟩
  · rw [h60, Bool.and_eq_true, decide_eq_true_eq]
    omega

end window

/-! ### Bodies with a password -/

section body
variable {pw : List Byte} (hl : pw.length ≤ 32) (rest : List Byte)
include hl

theorem pwLength_cons : pwLength (BitVec.ofNat 8 pw.length :: pw ++ rest) = some pw.length := by
  have h : (BitVec.ofNat 8 pw.length).toNat = pw.length := by
    rw [BitVec.toNat_ofNat]
    omega
  rw [List.cons_append, pwLength, h, if_pos (by simp)]

theorem pwOf_cons : pwOf (BitVec.ofNat 8 pw.length :: pw ++ rest) = pw := by
  rw [pwOf, pwLength_cons hl]
  exact List.take_left

end body

theorem body_drop (l : Byte) (pw rest : List Byte) : (l :: pw ++ rest).drop (1 + pw.length) = rest := by
  rw [Nat.add_comm]
  exact List.drop_left' (by simp)

/-- One register's pair of words. -/
def setTail (a v : W32) : List Byte := leBytes 2 1 ++ leBytes 4 a.toNat ++ leBytes 4 v.toNat

theorem ofNat_leBytes (a : W32) : BitVec.ofNat 32 (ofBytes (leBytes 4 a.toNat)) = a := by
  rw [ofBytes_leBytes]
  refine BitVec.eq_of_toNat_eq ?_
  have := a.isLt
  rw [BitVec.toNat_ofNat]
  omega

section setTail
variable (l : Byte) (pw : List Byte) (a v : W32)

theorem setTail_count : bodyNat (l :: pw ++ setTail a v) (1 + pw.length) 2 = 1 := by
  rw [bodyNat, body_drop, setTail, List.append_assoc, List.take_left' (by simp), ofBytes_leBytes]
  rfl

theorem setTail_length : (l :: pw ++ setTail a v).length = 3 + pw.length + 8 * 1 := by
  simp only [setTail, List.length_append, List.length_cons, leBytes_length]
  omega

theorem setTail_pairs : bytePairs 1 ((l :: pw ++ setTail a v).drop (3 + pw.length)) = [(a, v)] := by
  have hd : (l :: pw ++ setTail a v).drop (3 + pw.length) = leBytes 4 a.toNat ++ leBytes 4 v.toNat := by
    rw [show 3 + pw.length = 1 + pw.length + 2 by omega, ← List.drop_drop, body_drop, setTail, List.append_assoc]
    exact List.drop_left' (by simp)
  rw [hd, bytePairs, bytePairs, bodyNat, bodyNat, List.drop_zero, List.take_left' (by simp), List.drop_left' (by simp),
    List.take_of_length_le (by simp), ofNat_leBytes, ofNat_leBytes]

end setTail

/-! ### A setting written through the window -/

section gout
variable {n : Nat}

/-- The fields of `PRO_GOUT`. -/
def goutFields (n : Nat) : List Fld :=
  [PRO_GOUT_EN n, PRO_GOUT_OC_SEEN n, PRO_GOUT_STUCK_ON_SEEN n, PRO_GOUT_STUCK_OFF_SEEN n, PRO_GOUT_PULSES n]

theorem findReg_gout : ∀ n : GuardIx, findReg regClasses 4 (PRO_GOUT_EN n).reg = some (goutFields n, false) := by decide +kernel

theorem guardedReg_gout : ∀ n : GuardIx, guardedReg (PRO_GOUT_EN n).reg = true := by decide +kernel

theorem goutFields_pairwise (n : Nat) : (goutFields n).Pairwise fun f g => f.key ≠ g.key := by
  simp [goutFields, Fld.key, PRO_GOUT_EN, PRO_GOUT_OC_SEEN, PRO_GOUT_STUCK_ON_SEEN, PRO_GOUT_STUCK_OFF_SEEN, PRO_GOUT_PULSES]

/-- A guarded address of the outputs. -/
theorem State.guardedAddr_gout (s : State) (n : GuardIx) : s.guardedAddr (PRO_GOUT_EN n).reg = true := by
  have h4 : (PRO_GOUT_EN n).reg % 4 = 0 := by
    simp only [PRO_GOUT_EN]
    omega
  rw [State.guardedAddr, guardedReg_gout, h4]
  rfl

theorem State.guardedAddr_unaligned (s : State) {a : Nat} (h : a % 4 ≠ 0) : s.guardedAddr a = false := by
  rw [State.guardedAddr, decide_eq_false h, Bool.false_and]

/-- A write of an output's enable is a write of its register and a log entry. -/
theorem State.guardWrite_gout (s : State) (n : GuardIx) (v tag : Nat) : s.guardWrite (PRO_GOUT_EN n).reg v tag =
    (s.writeReg 0 (PRO_GOUT_EN n).reg v).1.logGuard (PRO_GOUT_EN n).reg
      ((s.writeReg 0 (PRO_GOUT_EN n).reg v).1.guardedWord (PRO_GOUT_EN n).reg) (s.guardedWord (PRO_GOUT_EN n).reg) 0 tag := by
  have hreg : (PRO_GOUT_EN n).reg = 0x900050 + 4 * n.val := rfl
  have hrefuse : s.refusal (PRO_GOUT_EN n).reg v = [] := by
    rw [State.refusal_pro (by omega), proRefuse, if_neg (by omega)]
    rfl
  have hbus : s.busWriteTag 0 (PRO_GOUT_EN n).reg v tag = s.proWrite 0 (PRO_GOUT_EN n).reg v tag := by
    rw [State.busWriteTag, if_neg (by omega), if_neg (by omega), if_neg (by omega), controlMapped_of_lt (by omega), hrefuse]
    rw [if_neg (by decide)]
    exact if_pos ⟨by omega, by omega⟩
  have h1 : (PRO_GOUT_EN n).reg ≠ PRO_GPW_BYTE.reg := by simp only [PRO_GPW_BYTE]; omega
  have h2 : (PRO_GOUT_EN n).reg ≠ PRO_GWIN_CHECK.reg := by simp only [PRO_GWIN_CHECK]; omega
  have h3 : (PRO_GOUT_EN n).reg ≠ PRO_GCOMMIT_CLOSE.reg := by simp only [PRO_GCOMMIT_CLOSE]; omega
  rw [State.guardWrite, if_pos (by omega), hbus, State.proWrite, if_neg h1, if_neg h2, if_neg h3]

theorem State.logGuard_notes (s : State) (a new old actor tag : Nat) :
    Notes s (s.logGuard a new old actor tag) ∧ NvmLogged s.nvm (s.logGuard a new old actor tag).nvm := by
  unfold State.logGuard
  split
  · exact ⟨.refl s, rfl⟩
  · exact ⟨State.logAdd_notes _ _, State.logAdd_nvm _ _⟩

/-- Through the open window an output's enable is written; the protection's own state and the NVM but for its log stay. -/
theorem State.guardWrite_facts {s : State} (ho : s.con PRO_GWIN_OPEN = true) (n : GuardIx) (v tag : Nat) :
    let u := s.guardWrite (PRO_GOUT_EN n).reg v tag
    u.cget (PRO_GOUT_EN n) = v % 2 ∧ u.pro = s.pro ∧ NvmLogged s.nvm u.nvm := by
  have hreg : (PRO_GOUT_EN n).reg = 0x900050 + 4 * n.val := rfl
  have hw := State.writeReg_of_open (findReg_gout n) ho v
  have hen : (s.writeReg 0 (PRO_GOUT_EN n).reg v).1.cget (PRO_GOUT_EN n) = v % 2 := by
    have hb := Fld.written_guarded (f := PRO_GOUT_EN n) rfl (by decide : 0 < 1) (by decide : 0 + 1 ≤ 32) (s.cget_lt _) v s.glb.locked
    rw [hw, State.foldl_cset_cget_mem _ (goutFields_pairwise n) s (by simp [goutFields]), hb]
    simp [bits, PRO_GOUT_EN]
  have hsame : ∀ (fs : List Fld) (g : Fld → Nat) (z : State), (fs.foldl (fun z f => z.cset f (g f)) z).pro = z.pro ∧
      (fs.foldl (fun z f => z.cset f (g f)) z).nvm = z.nvm := fun fs g z =>
    List.foldlRecOn (motive := fun y : State => y.pro = z.pro ∧ y.nvm = z.nvm) _ _ ⟨rfl, rfl⟩ fun _ h _ _ => h
  have hpro : (s.writeReg 0 (PRO_GOUT_EN n).reg v).1.pro = s.pro ∧ (s.writeReg 0 (PRO_GOUT_EN n).reg v).1.nvm = s.nvm := by
    rw [hw]
    exact hsame _ _ s
  dsimp only
  rw [State.guardWrite_gout]
  generalize (s.writeReg 0 (PRO_GOUT_EN n).reg v).1 = y at hen hpro
  obtain ⟨hp, hv⟩ := hpro
  obtain ⟨hn, hlog⟩ := y.logGuard_notes (PRO_GOUT_EN n).reg (y.guardedWord (PRO_GOUT_EN n).reg) (s.guardedWord (PRO_GOUT_EN n).reg) 0 tag
  rw [hv] at hlog
  exact ⟨(hn.regs _ (not_noteKey_pro (by omega) (by omega) (by simp [PRO_GOUT_EN]))).trans hen, hn.pro_eq.trans hp, hlog⟩

end gout

/-! ### The container that keeps the settings -/

/-- The next container, with the settings as its only record. -/
def State.guardContainer (s : State) (ps : List (W32 × W32)) : Container :=
  { version := 3, gen := BitVec.ofNat 64 s.nextGen, crcOk := true, hcrcOk := true,
    recs := withGuard [] (.guard s.pro.salt s.pro.verifier ps) }

/-- With no container in use, the settings go to copy 0 as its only record. -/
theorem State.newContainer_guard {s : State} (h : s.nvm.inUse = none) (ps : List (W32 × W32)) :
    (s.newContainer (withGuard s.records (s.guardRecord ps))).nvm.cont0.recs = [.guard s.pro.salt s.pro.verifier ps] := by
  have hrec : s.records = [] := by
    unfold State.records State.container
    rw [h]
    rfl
  have hg : s.guardRecord ps = .guard s.pro.salt s.pro.verifier ps := by
    unfold State.guardRecord
    rw [hrec]
    rfl
  have hcopy : s.otherCopy = 0 := by
    unfold State.otherCopy
    rw [h]
  rw [hrec, hg]
  have hz : s.newContainer (withGuard [] (.guard s.pro.salt s.pro.verifier ps)) =
      (s.modNvm fun v => { v with cont0 := s.guardContainer ps }).program (.container 0) := by
    unfold State.newContainer
    rw [hcopy]
    rfl
  have hc := (congrArg NvmSt.cont0 (State.program_nvm (s.modNvm fun v => { v with cont0 := s.guardContainer ps }) (.container 0)) :)
  rw [hz, hc]
  rfl

theorem State.newContainer_notes (s : State) (rs : List CfgRec) : Notes s (s.newContainer rs) := by
  unfold State.newContainer
  dsimp only
  have h (z : State) (hz : Notes s z) : Notes s (z.program (.container s.otherCopy)) := hz.trans (State.program_notes _ _)
  refine h _ ⟨?_, fun _ _ => rfl⟩
  rfl

/-! ### The service GUARD -/

/-- What an answer of a service leaves of the protection, the NVM and its registers. -/
theorem State.answer_facts (y : State) (lane svc cmd tag st : Nat) (body : List Byte) : let u := y.reply (y.laneOf lane) svc cmd tag st body
    (∃ r, u.sp.replies.head? = some r ∧ r.status = st ∧ r.body = body) ∧ u.pro = y.pro ∧ u.nvm = y.nvm ∧
      ∀ f : Fld, ¬ noteKey f.key → u.cget f = y.cget f := by
  obtain ⟨⟨r, hr, hst, -, hbody⟩, hsame, hregs, -⟩ := y.reply_facts (y.laneOf_lt lane) svc cmd tag st body
  exact ⟨⟨r, hr, hst, hbody⟩, (congrArg State.pro hsame :), (congrArg State.nvm hsame :), fun f hf => hregs f fun hq => hf (noteKey_of_queueKey hq)⟩

section mail
variable {s : State} {j : Fin 8} {tag : BitVec 16} (ht : s.sp.taken = none)
  (hp : ∀ cmd, s.preReply (s.laneOf j) 6 cmd tag.toNat = none)
include ht hp

theorem guardStatus_clause : ∃ u r, exec (.guardStatus j tag []) s = .next u ∧ u.sp.replies.head? = some r ∧ r.status = 0 ∧
    r.body.length = 16 ∧ u.pro = s.pro := by
  have he : exec (.guardStatus j tag []) s = .next (s.reply (s.laneOf j) 6 1 tag.toNat 0
      ([0x900000, 0x900014, 0x900018, 0x90001C].flatMap fun a => leBytes 4 (s.peek a))) :=
    congrArg Host.Outcome.next (State.mailServe_of_none ht (hp 1) _)
  obtain ⟨⟨r, hr, hst, hbody⟩, hpro, -⟩ := s.answer_facts j 6 1 tag.toNat 0
    ([0x900000, 0x900014, 0x900018, 0x90001C].flatMap fun a => leBytes 4 (s.peek a))
  exact ⟨_, r, he, hr, hst, by rw [hbody]; simp, hpro⟩

variable {pw : List Byte} (hl : pw.length ≤ 32)
include hl

section set
variable {a v : W32} {ok : Bool} (hok : ok = s.pwMatches pw)
include hok

/-- The write of one register through the service, once its password has been stated rightly. -/
theorem exec_guardSet : exec (.guardSet j tag (BitVec.ofNat 8 pw.length :: pw ++ setTail a v) ok) s = .next
    (if !(s.guardedAddr a.toNat) then s.reply (s.laneOf j) 6 2 tag.toNat 4 []
      else if s.writeBusy then s.reply (s.laneOf j) 6 2 tag.toNat 5 []
      else if !(s.passwordCheck pw).2 then
        (s.passwordCheck pw).1.reply ((s.passwordCheck pw).1.laneOf j) 6 2 tag.toNat 6 []
      else
        let z := ((s.passwordCheck pw).1.guardWrite a.toNat v.toNat tag.toNat).opGcommit 1
        let y := z.newContainer (withGuard z.records (z.guardRecord [(a, v)]))
        y.reply (y.laneOf j) 6 2 tag.toNat 0 []) := by
  have hlen := pwLength_cons hl (setTail a v)
  have hpw := pwOf_cons hl (setTail a v)
  have hn := setTail_count (BitVec.ofNat 8 pw.length) pw a v
  have hlength := setTail_length (BitVec.ofNat 8 pw.length) pw a v
  have hpairs := setTail_pairs (BitVec.ofNat 8 pw.length) pw a v
  generalize BitVec.ofNat 8 pw.length :: pw ++ setTail a v = body at *
  change execGuardSet j tag body ok s = _
  unfold execGuardSet
  rw [hpw, if_neg (by simp [hok]), State.mailServe_of_none ht (hp 2), hlen]
  dsimp only
  rw [hn, hlength, hpairs]
  congr 1
  refine if_congr ?_ rfl rfl
  simp

theorem guardSet_unaligned (ha : a.toNat % 4 ≠ 0) :
    ∃ u r, exec (.guardSet j tag (BitVec.ofNat 8 pw.length :: pw ++ setTail a v) ok) s = .next u ∧ u.sp.replies.head? = some r ∧
      r.status = 4 ∧ u.pro = s.pro ∧ u.nvm = s.nvm := by
  have he := exec_guardSet ht hp hl hok (a := a) (v := v)
  rw [if_pos (by rw [s.guardedAddr_unaligned ha]; rfl)] at he
  obtain ⟨⟨r, hr, hst, -⟩, hpro, hnvm, -⟩ := s.answer_facts j 6 2 tag.toNat 4 []
  exact ⟨_, r, he, hr, hst, hpro, hnvm⟩

variable {n : GuardIx} (ha : a.toNat = (PRO_GOUT_EN n).reg)
include ha

theorem guardSet_busy (hb : s.writeBusy = true) :
    ∃ u r, exec (.guardSet j tag (BitVec.ofNat 8 pw.length :: pw ++ setTail a v) ok) s = .next u ∧ u.sp.replies.head? = some r ∧
      r.status = 5 ∧ u.pro = s.pro ∧ u.nvm = s.nvm := by
  have he := exec_guardSet ht hp hl hok (a := a) (v := v)
  rw [if_neg (by rw [ha, s.guardedAddr_gout]; decide), if_pos hb] at he
  obtain ⟨⟨r, hr, hst, -⟩, hpro, hnvm, -⟩ := s.answer_facts j 6 2 tag.toNat 5 []
  exact ⟨_, r, he, hr, hst, hpro, hnvm⟩

variable (hb : s.writeBusy = false) (hblk : s.con PRO_GWIN_BLOCKED = false)
include hb hblk

theorem guardSet_refused (hm : s.pwMatches pw = false) :
    ∃ u r, exec (.guardSet j tag (BitVec.ofNat 8 pw.length :: pw ++ setTail a v) ok) s = .next u ∧ u.sp.replies.head? = some r ∧
      r.status = 6 ∧ u.cget (PRO_GOUT_EN n) = s.cget (PRO_GOUT_EN n) ∧ u.cget PRO_GCNT_PW_FAIL = min (s.cget PRO_GCNT_PW_FAIL + 1) 255 := by
  have he := exec_guardSet ht hp hl hok (a := a) (v := v)
  rw [if_neg (by rw [ha, s.guardedAddr_gout]; decide), if_neg (by simp [hb]), State.passwordCheck_fails hblk (.inr hm),
    if_pos (show (!(s.checkFailed, false).2) = true from rfl)] at he
  obtain ⟨hcount, -, hregs, -⟩ := s.checkFailed_facts
  obtain ⟨⟨r, hr, hst, -⟩, -, -, hu⟩ := s.checkFailed.answer_facts j 6 2 tag.toNat 6 []
  have hnote : ¬ noteKey (PRO_GOUT_EN n).key :=
    not_noteKey_pro (by simp only [PRO_GOUT_EN]; omega) (by simp only [PRO_GOUT_EN]; omega) (by simp [PRO_GOUT_EN])
  refine ⟨_, r, he, hr, hst, (hu _ hnote).trans (hregs _ hnote ?_ ?_), (hu _ (by unfold noteKey; decide)).trans hcount⟩
  · simp only [Fld.key, PRO_GOUT_EN, PRO_GCNT_PW_FAIL]
    omega
  · simp only [Fld.key, PRO_GOUT_EN, PRO_GWIN_BLOCKED]
    omega

theorem guardSet_written (hs : s.con PRO_GWIN_PW_SET = true) (hm : s.pwMatches pw = true) :
    ∃ u r, exec (.guardSet j tag (BitVec.ofNat 8 pw.length :: pw ++ setTail a v) ok) s = .next u ∧ u.sp.replies.head? = some r ∧
      r.status = 0 ∧ u.cget (PRO_GOUT_EN n) = v.toNat % 2 ∧ u.con PRO_GWIN_OPEN = false ∧
      (s.nvm.inUse = none → u.nvm.cont0.recs = [.guard s.pro.salt s.pro.verifier [(a, v)]]) := by
  have he := exec_guardSet ht hp hl hok (a := a) (v := v)
  rw [if_neg (by rw [ha, s.guardedAddr_gout]; decide), if_neg (by simp [hb]), State.passwordCheck_opens hblk hs hm, if_neg nofun] at he
  have hopen : s.windowOpened.con PRO_GWIN_OPEN = true := State.con_cset_one s (f := PRO_GWIN_OPEN) rfl
  have hw := State.guardWrite_facts hopen n v.toNat tag.toNat
  rw [← ha] at hw
  obtain ⟨hen, hpro, hlog⟩ := hw
  have hsalt : s.windowOpened.pro.salt = s.pro.salt ∧ s.windowOpened.pro.verifier = s.pro.verifier := ⟨rfl, rfl⟩
  have hnvm0 : s.windowOpened.nvm = s.nvm := rfl
  generalize s.windowOpened = w at *
  have hgen : (w.guardWrite a.toNat v.toNat tag.toNat).opGcommit 1 = (w.guardWrite a.toNat v.toNat tag.toNat).cset PRO_GWIN_OPEN 0 := rfl
  dsimp only at he
  rw [hgen] at he
  generalize w.guardWrite a.toNat v.toNat tag.toNat = x at *
  have hxen : (x.cset PRO_GWIN_OPEN 0).cget (PRO_GOUT_EN n) = v.toNat % 2 := by
    rw [State.cget_cset_ne _ _ _ _ (by simp only [Fld.key, PRO_GOUT_EN, PRO_GWIN_OPEN]; omega), hen]
  have hxopen : (x.cset PRO_GWIN_OPEN 0).cget PRO_GWIN_OPEN = 0 := State.cget_cset_of_lt x (by decide)
  have hxnvm : NvmLogged w.nvm (x.cset PRO_GWIN_OPEN 0).nvm := hlog
  have hxpro : (x.cset PRO_GWIN_OPEN 0).pro = w.pro := hpro
  generalize x.cset PRO_GWIN_OPEN 0 = y at *
  have hn := y.newContainer_notes (withGuard y.records (y.guardRecord [(a, v)]))
  have hrecs := y.newContainer_guard (ps := [(a, v)])
  generalize y.newContainer (withGuard y.records (y.guardRecord [(a, v)])) = k at *
  obtain ⟨⟨r, hr, hst, -⟩, -, hnvm, hu⟩ := k.answer_facts j 6 2 tag.toNat 0 []
  have hnote : ¬ noteKey (PRO_GOUT_EN n).key :=
    not_noteKey_pro (by simp only [PRO_GOUT_EN]; omega) (by simp only [PRO_GOUT_EN]; omega) (by simp [PRO_GOUT_EN])
  refine ⟨_, r, he, hr, hst, (hu _ hnote).trans ((hn.regs _ hnote).trans hxen), State.con_eq_false.2 ?_, fun h0 => ?_⟩
  · rw [hu _ (by unfold noteKey; decide), hn.regs _ (by unfold noteKey; decide), hxopen]
  · have huse : y.nvm.inUse = none := by
      rw [(congrArg NvmSt.inUse hxnvm :), hnvm0]
      exact h0
    rw [hnvm, hrecs huse, hxpro, hsalt.1, hsalt.2]

end set

section setpw
variable {new salt ver : List Byte} {ok : Bool} (hgood : goodPassword new = true) (hsalt : salt.length = 16)
  (hver : ver = sha256 (salt ++ new)) (hok : ok = s.pwMatches pw) (hb : s.writeBusy = false)
include hgood hsalt hver hok hb

/-- Whether a new password is admitted: an old one that matches, or GRST held for 500 ms while none is set. -/
def State.pwAdmitted (s : State) (pw : List Byte) : State × Bool :=
  if pw.length = 0 then (s, !(s.con PRO_GWIN_PW_SET) && (s.pro.grstHeld && decide (s.pro.grstTick + ticksMs 500 ≤ s.tm.tick)))
  else s.passwordCheck pw

omit ht hp hl hgood hsalt hver hok hb in
theorem goodPassword_length (h : goodPassword new = true) : new.length ≤ 32 := by
  simp only [goodPassword, Bool.and_eq_true, decide_eq_true_eq] at h
  exact h.1.2

/-- A new password set, with its log entry. -/
def State.pwChanged (z : State) (salt ver : List Byte) (tag : Nat) : State :=
  let z1 := ((z.opGcommit 1).modPro fun x => { x with salt := salt, verifier := ver }).cset PRO_GWIN_PW_SET 1
  z1.logAdd (z1.stamp 0x8900 PRO_GPW_BYTE.reg 0 0 0 true tag 0 0)

/-- The change of the password through the service, once the old one has been stated rightly. -/
theorem exec_setpw : exec (.setpw j tag (BitVec.ofNat 8 pw.length :: pw ++ BitVec.ofNat 8 new.length :: new) ok salt ver) s = .next
    (if !(s.pwAdmitted pw).2 then (s.pwAdmitted pw).1.reply ((s.pwAdmitted pw).1.laneOf j) 6 3 tag.toNat 6 []
      else
        let z := (s.pwAdmitted pw).1.pwChanged salt ver tag.toNat
        let y := z.newContainer (withGuard z.records (z.guardRecord []))
        y.reply (y.laneOf j) 6 3 tag.toNat 0 []) := by
  have hlen := pwLength_cons hl (BitVec.ofNat 8 new.length :: new)
  have hpw := pwOf_cons hl (BitVec.ofNat 8 new.length :: new)
  have hdrop := body_drop (BitVec.ofNat 8 pw.length) pw (BitVec.ofNat 8 new.length :: new)
  have hnew := pwOf_cons (goodPassword_length hgood) []
  have hnlen := pwLength_cons (goodPassword_length hgood) []
  have hrest : (BitVec.ofNat 8 new.length :: new).length = 1 + new.length := by
    rw [List.length_cons]
    omega
  have hone : (BitVec.ofNat 8 new.length :: new).drop 1 = new := rfl
  rw [List.append_nil] at hnew hnlen
  generalize BitVec.ofNat 8 new.length :: new = rest at *
  generalize BitVec.ofNat 8 pw.length :: pw ++ rest = body at *
  change execSetpw j tag body ok salt ver s = _
  unfold execSetpw
  rw [hlen, Option.getD_some, hdrop, hnew, hpw, if_neg (by simp [hok, hsalt, hver]), State.mailServe_of_none ht (hp 3)]
  dsimp only
  rw [hdrop, hnlen]
  dsimp only
  rw [if_neg (by rw [hrest, hone, hgood]; simp), if_neg (by simp [hb])]
  rfl

omit ht hp hl hgood hsalt hver hok hb in
/-- What a changed password and its container leave. -/
theorem State.pwChanged_facts (z : State) (salt ver : List Byte) (tag : Nat) (rs : List CfgRec) :
    let u := (z.pwChanged salt ver tag).newContainer rs
    u.pro.salt = salt ∧ u.pro.verifier = ver ∧ u.con PRO_GWIN_PW_SET = true ∧ u.con PRO_GWIN_OPEN = false := by
  let y := ((z.opGcommit 1).modPro fun x => { x with salt := salt, verifier := ver }).cset PRO_GWIN_PW_SET 1
  have hsalt : y.pro.salt = salt ∧ y.pro.verifier = ver := ⟨rfl, rfl⟩
  have hset : y.con PRO_GWIN_PW_SET = true := State.con_cset_one _ (f := PRO_GWIN_PW_SET) rfl
  have hopen : y.cget PRO_GWIN_OPEN = 0 := by
    have h0 : (z.cset PRO_GWIN_OPEN 0).cget PRO_GWIN_OPEN = 0 := State.cget_cset_of_lt z (by decide)
    exact (State.cget_cset_ne _ PRO_GWIN_PW_SET PRO_GWIN_OPEN 1 (by decide)).trans h0
  have hz : z.pwChanged salt ver tag = y.logAdd (y.stamp 0x8900 PRO_GPW_BYTE.reg 0 0 0 true tag 0 0) := rfl
  clear_value y
  have hn := (y.logAdd_notes (y.stamp 0x8900 PRO_GPW_BYTE.reg 0 0 0 true tag 0 0)).trans (State.newContainer_notes _ rs)
  intro u
  rw [show u = (y.logAdd (y.stamp 0x8900 PRO_GPW_BYTE.reg 0 0 0 true tag 0 0)).newContainer rs from congrArg (State.newContainer · rs) hz]
  generalize (y.logAdd (y.stamp 0x8900 PRO_GPW_BYTE.reg 0 0 0 true tag 0 0)).newContainer rs = k at hn
  refine ⟨?_, ?_, ?_, ?_⟩
  · rw [hn.pro_eq, hsalt.1]
  · rw [hn.pro_eq, hsalt.2]
  · rw [State.con, hn.regs _ (by unfold noteKey; decide)]
    exact hset
  · rw [State.con_eq_false, hn.regs _ (by unfold noteKey; decide), hopen]

/-- An admitted change sets the new password and closes the window. -/
theorem setpw_admitted (ha : (s.pwAdmitted pw).2 = true) :
    ∃ u r, exec (.setpw j tag (BitVec.ofNat 8 pw.length :: pw ++ BitVec.ofNat 8 new.length :: new) ok salt ver) s = .next u ∧
      u.sp.replies.head? = some r ∧ r.status = 0 ∧ u.pro.salt = salt ∧ u.pro.verifier = ver ∧ u.con PRO_GWIN_PW_SET = true ∧
      u.con PRO_GWIN_OPEN = false := by
  have he := exec_setpw ht hp hl hgood hsalt hver hok hb
  rw [if_neg (by simp [ha])] at he
  dsimp only at he
  obtain ⟨h1, h2, h3, h4⟩ := (s.pwAdmitted pw).1.pwChanged_facts salt ver tag.toNat
    (withGuard ((s.pwAdmitted pw).1.pwChanged salt ver tag.toNat).records (((s.pwAdmitted pw).1.pwChanged salt ver tag.toNat).guardRecord []))
  generalize ((s.pwAdmitted pw).1.pwChanged salt ver tag.toNat).newContainer _ = k at *
  obtain ⟨⟨r, hr, hst, -⟩, hpro, -, hu⟩ := k.answer_facts j 6 3 tag.toNat 0 []
  refine ⟨_, r, he, hr, hst, by rw [hpro, h1], by rw [hpro, h2], ?_, ?_⟩
  · rw [State.con, hu _ (by unfold noteKey; decide)]
    exact h3
  · rw [State.con, hu _ (by unfold noteKey; decide)]
    exact h4

/-- A change that is not admitted leaves what its check leaves. -/
theorem setpw_refused (ha : (s.pwAdmitted pw).2 = false) :
    ∃ u r, exec (.setpw j tag (BitVec.ofNat 8 pw.length :: pw ++ BitVec.ofNat 8 new.length :: new) ok salt ver) s = .next u ∧
      u.sp.replies.head? = some r ∧ r.status = 6 ∧ u.pro = (s.pwAdmitted pw).1.pro := by
  have he := exec_setpw ht hp hl hgood hsalt hver hok hb
  rw [if_pos (by simp [ha])] at he
  obtain ⟨⟨r, hr, hst, -⟩, hpro, -⟩ := (s.pwAdmitted pw).1.answer_facts j 6 3 tag.toNat 6 []
  exact ⟨_, r, he, hr, hst, hpro⟩

omit ht hp hl hgood hsalt hver hok hb in
theorem State.pwAdmitted_old (h : pw ≠ []) : s.pwAdmitted pw = s.passwordCheck pw := if_neg fun h0 => h (List.length_eq_zero_iff.1 h0)

omit ht hp hl hgood hsalt hver hok hb in
theorem State.pwAdmitted_none (hs : s.con PRO_GWIN_PW_SET = false) (hg : s.pro.grstHeld = true) :
    s.pwAdmitted [] = (s, decide (s.pro.grstTick + 125000 ≤ s.tm.tick)) := by
  have h500 : ticksMs 500 = 125000 := by decide
  rw [State.pwAdmitted, List.length_nil, if_pos rfl, hs, hg, h500]
  simp

end setpw

/-! ### GUARD RESET -/

omit ht hp hl in
/-- The same write keeps the agreement of two states. -/
theorem KeysKept.cset_both {P : Nat → Prop} {x y : State} (h : KeysKept P x y) (g : Fld) (v : Nat) :
    KeysKept P (x.cset g v) (y.cset g v) := fun f hf => by
  by_cases hk : f.key = g.key
  · have hv (t : Tab Nat) : tget (tset t g.key g.reset (v % 2 ^ g.width)) g.key f.reset =
        if v % 2 ^ g.width = g.reset then f.reset else v % 2 ^ g.width := by
      unfold tset
      split
      · exact tget_tdel_same _ _ _
      · exact tget_tins_same _ _ _ _
    change tget (tset y.creg g.key g.reset (v % 2 ^ g.width)) f.key f.reset % 2 ^ f.width =
      tget (tset x.creg g.key g.reset (v % 2 ^ g.width)) f.key f.reset % 2 ^ f.width
    rw [hk, hv, hv]
  · rw [State.cget_cset_ne _ _ _ _ hk, State.cget_cset_ne _ _ _ _ hk, h f hf]

section reset
variable {ok : Bool} (hok : ok = s.pwMatches pw) (outs : List OutRead)
include hok

theorem exec_guardReset : exec (.guardReset j tag (BitVec.ofNat 8 pw.length :: pw) ok outs) s = .next
    (if !s.classL then s.reply (s.laneOf j) 6 4 tag.toNat 6 []
      else if (s.passwordCheck pw).2 then
        (((s.passwordCheck pw).1.opGcommit 1).guardReset outs).reply ((((s.passwordCheck pw).1.opGcommit 1).guardReset outs).laneOf j) 6 4
          tag.toNat 0 []
      else (s.passwordCheck pw).1.reply ((s.passwordCheck pw).1.laneOf j) 6 4 tag.toNat 6 []) := by
  have hlen := pwLength_cons hl []
  have hpw := pwOf_cons hl []
  have hlength : (BitVec.ofNat 8 pw.length :: pw).length = 1 + pw.length := by
    rw [List.length_cons]
    omega
  rw [List.append_nil] at hlen hpw
  generalize BitVec.ofNat 8 pw.length :: pw = body at *
  change execGuardReset j tag body ok outs s = _
  unfold execGuardReset
  rw [hpw, if_neg (by simp [hok]), State.mailServe_of_none ht (hp 4), hlen]
  dsimp only
  rw [if_neg (by simp [hlength])]

theorem guardReset_classH (hc : s.classL = false) :
    ∃ u r, exec (.guardReset j tag (BitVec.ofNat 8 pw.length :: pw) ok outs) s = .next u ∧ u.sp.replies.head? = some r ∧ r.status = 6 ∧
      u.pro = s.pro ∧ ∀ n, n < 4 → u.permit n = s.permit n := by
  have he := exec_guardReset ht hp hl hok outs
  rw [if_pos (by simp [hc])] at he
  obtain ⟨⟨r, hr, hst, -⟩, hpro, -, hu⟩ := s.answer_facts j 6 4 tag.toNat 6 []
  exact ⟨_, r, he, hr, hst, hpro, fun n hn => hu _ (not_noteKey_gstat n (by omega))⟩

omit ht hp hl hok in
/-- A reset of the guard leaves the registers that neither its test nor moves of permits write. -/
theorem State.guardReset_whole (s : State) : PermitsKept (fun _ => False) (s.commonTest outs) (s.guardReset outs) := by
  have h1 : PermitsKept (fun _ => False) (s.commonTest outs) (((s.commonTest outs).cbump PRO_GCNT_RESETS).logBit PRO_GCNT_RESETS) :=
    ((PermitsKept.refl _).cbump PRO_GCNT_RESETS rfl (by decide)).logBit _ _ _ _
  exact List.foldlRecOn (motive := PermitsKept (fun _ => False) (s.commonTest outs)) _ _ h1 fun y hy m hm =>
    hy.permitReset (List.mem_range.1 hm) id

omit ht hp hl hok in
/-- The window opened and closed again leaves what causes depend on. -/
theorem State.windowClosed_causes (s : State) : CausesKept (s.commonTest outs) ((s.windowOpened.opGcommit 1).commonTest outs) := by
  have hw : s.windowOpened.opGcommit 1 = s.windowOpened.cset PRO_GWIN_OPEN 0 := rfl
  have hopen : ¬ causeKey PRO_GWIN_OPEN.key := fun h => h.2.2 (by decide)
  have h0 : KeysKept causeKey s (s.windowOpened.cset PRO_GWIN_OPEN 0) :=
    (((KeysKept.refl s).cset PRO_GWIN_OPEN 1 hopen).creg rfl).cset PRO_GWIN_OPEN 0 hopen
  rw [hw]
  refine ⟨rfl, rfl, rfl, rfl, rfl, rfl, rfl, fun f hf => ?_⟩
  refine (State.cget_cset_ne _ PRO_STAT_FAULT f _ hf.2.1).trans (Eq.trans ?_ (State.cget_cset_ne _ PRO_STAT_FAULT f _ hf.2.1).symm)
  exact h0.cset_both PRO_STAT_COMMON_OPEN _ f hf

theorem guardReset_accepted (hc : s.classL = true) (hblk : s.con PRO_GWIN_BLOCKED = false) (hs : s.con PRO_GWIN_PW_SET = true)
    (hm : s.pwMatches pw = true) :
    ∃ u r, exec (.guardReset j tag (BitVec.ofNat 8 pw.length :: pw) ok outs) s = .next u ∧ u.sp.replies.head? = some r ∧ r.status = 0 ∧
      u.cget PRO_GCNT_RESETS = min (s.cget PRO_GCNT_RESETS + 1) 255 ∧ u.con PRO_GWIN_OPEN = false ∧
      ∀ n, n < 4 → s.permit n = 3 ∨ s.permit n = 4 → (s.commonTest outs).causes n = 0 → u.permit n = 0 ∧
        u.nvm.latch0.getD n false = false := by
  have he := exec_guardReset ht hp hl hok outs
  rw [if_neg (by simp [hc]), State.passwordCheck_opens hblk hs hm, if_pos rfl] at he
  dsimp only at he
  have hcauses := s.windowClosed_causes outs
  have hw : s.windowOpened.opGcommit 1 = s.windowOpened.cset PRO_GWIN_OPEN 0 := rfl
  have hopen : (s.windowOpened.opGcommit 1).cget PRO_GWIN_OPEN = 0 := State.cget_cset_of_lt _ (by decide)
  have hregs : ∀ f : Fld, f.key ≠ PRO_GWIN_OPEN.key → (s.windowOpened.opGcommit 1).cget f = s.cget f := fun f hf =>
    (State.cget_cset_ne _ _ _ _ hf).trans (show s.windowOpened.cget f = s.cget f from State.cget_cset_ne s PRO_GWIN_OPEN f 1 hf)
  generalize s.windowOpened.opGcommit 1 = w at *
  obtain ⟨hcount, hperm⟩ := w.guardReset_facts outs
  have hwhole := w.guardReset_whole outs
  obtain ⟨-, -, htest⟩ := w.commonTest_facts outs
  generalize w.guardReset outs = y at *
  obtain ⟨⟨r, hr, hst, -⟩, -, hnvm, hu⟩ := y.answer_facts j 6 4 tag.toNat 0 []
  refine ⟨_, r, he, hr, hst, ?_, State.con_eq_false.2 ?_, fun n hn h34 h0 => ?_⟩
  · rw [hu _ (by unfold noteKey; decide), hcount, hregs _ (by decide)]
  · rw [hu _ (by unfold noteKey; decide), hwhole.cget_eq (by unfold moveKey noteKey; decide), htest _ (by decide) (by decide), hopen]
  · have hwp : w.permit n = s.permit n := hregs _ (by simp only [Fld.key, PRO_GSTAT_STATE, PRO_GWIN_OPEN]; omega)
    obtain ⟨h1, h2⟩ := (hperm n hn).1 (by rwa [hwp]) ((hcauses.causes_eq n).trans h0)
    exact ⟨(hu _ (not_noteKey_gstat n (by omega))).trans h1, by rw [hnvm, h2]⟩

end reset

end mail

/-- Settles O56: each check, timeout and command of the service follows from what the password check and the write it admits leave. -/
theorem thePasswordGuardsTheSettings : Obligations.ThePasswordGuardsTheSettings := by
  unfold Obligations.ThePasswordGuardsTheSettings
  refine ⟨fun s m v hf => ⟨passwordByte_clause hf, close_clause hf, check_clause hf⟩, waits_clause, fun s j tag pw ht hp hl => ?_⟩
  intro l ok
  have hok : ok = s.pwMatches pw := by
    rw [State.pwMatches, decide_eq_true hl]
    rfl
  have hl' : l = BitVec.ofNat 8 pw.length := rfl
  clear_value ok l
  subst hl'
  refine ⟨guardStatus_clause ht hp, fun n a v body hbody => ?_, fun new salt hgood hb hsalt => ?_, fun t => ⟨guardReset_classH ht hp hl hok t, ?_⟩⟩
  · have hbody' : body = BitVec.ofNat 8 pw.length :: pw ++ setTail a v := by
      rw [hbody, setTail, List.append_assoc, List.append_assoc, List.append_assoc]
    subst hbody'
    refine ⟨guardSet_unaligned ht hp hl hok, guardSet_busy ht hp hl hok, fun ha hb hblk hs => ⟨fun hm => ?_, fun hm => ?_⟩, ?_⟩
    · exact guardSet_written ht hp hl (hm.symm.trans hok) ha hb hblk hs (hok.symm.trans hm)
    · exact guardSet_refused ht hp hl (hm.symm.trans hok) ha hb hblk (hok.symm.trans hm)
    · refine congrArg Host.Outcome.next (if_pos ?_)
      rw [pwOf_cons hl, ← hok]
      cases ok <;> decide
  · intro ver
    have hver : ver = sha256 (salt ++ new) := rfl
    clear_value ver
    refine ⟨fun hblk hs hne hm => ?_, fun hblk hs hne hm => ?_, fun hnil hs hg => ?_⟩
    · refine setpw_admitted ht hp hl hgood hsalt hver (hm.symm.trans hok) hb ?_
      rw [State.pwAdmitted_old hne, State.passwordCheck_opens hblk hs (hok.symm.trans hm)]
    · obtain ⟨u, r, he, hr, hst, hpro⟩ := setpw_refused ht hp hl hgood hsalt hver (hm.symm.trans hok) hb (by
        rw [State.pwAdmitted_old hne, State.passwordCheck_fails hblk (.inr (hok.symm.trans hm))])
      refine ⟨u, r, he, hr, hst, ?_⟩
      rw [hpro, State.pwAdmitted_old hne, State.passwordCheck_fails hblk (.inr (hok.symm.trans hm))]
      exact (congrArg ProSt.verifier s.checkFailed_facts.2.1 :)
    · subst hnil
      have hadm := State.pwAdmitted_none hs hg
      refine ⟨fun h => ?_, fun h => ?_⟩
      · obtain ⟨u, r, he, hr, hst, h1, h2, h3, -⟩ := setpw_admitted ht hp hl hgood hsalt hver hok hb (by rw [hadm]; exact decide_eq_true h)
        exact ⟨u, r, he, hr, hst, h1, h2, h3⟩
      · obtain ⟨u, r, he, hr, hst, hpro⟩ := setpw_refused ht hp hl hgood hsalt hver hok hb (by
          rw [hadm]
          exact decide_eq_false (by omega))
        exact ⟨u, r, he, hr, hst, by rw [hpro, hadm]⟩
  · exact fun hc hblk hs hm => guardReset_accepted ht hp hl (hm.symm.trans hok) t hc hblk hs (hok.symm.trans hm)

end Sys2Proof.Machine
